-- ==== Sys2Proof/Word.lean ====
section
/-! DEFINITION. The words, identifiers and sparse containers that the rest of the model is written over. -/

namespace Sys2Proof

/-- One byte. -/
abbrev Byte := BitVec 8

/-- A lane of a vector register, a parameter register, a token ID. -/
abbrev W32 := BitVec 32

/-- A command line, bank line, descriptor, submission entry or log record of 64 B (R8: bit 0 least significant). -/
abbrev W512 := BitVec 512

/-- A partition, 0 to 15 (R399). -/
abbrev PartId := Fin 16

/-- A tray-wide quadrant number, 4 × die + quadrant (R22). -/
abbrev Quad := Fin 16

/-- A C-die, C0 to C3 (R12). -/
abbrev Die := Fin 4

/-- A cluster, 8 × die + cluster of the die; a lane of the bundle stream bears the number of its cluster (R100). -/
abbrev Clus := Fin 32

/-- A core, 8 × cluster + core of the cluster (R12). -/
abbrev CoreId := Fin 256

/-- A stream context, 4 × die + context of the die (R137). -/
abbrev Ctx := Fin 16

/-- A PCIe function: 0 the physical function, f the virtual function f (R482). -/
abbrev Func := Fin 17

/-- A virtual function f is written as f − 1, the partition it serves (R399). -/
abbrev Vf := Fin 16

/-- A sparse map from numbers: pairs of key and value with the keys strictly rising. -/
abbrev SMap (α : Type) := List (Nat × α)

end Sys2Proof
end

