-- ==== Sys2Proof/Config.lean ====
section
/-! DEFINITION. What the manual leaves to another standard, to the part or to chance. Each is a constant without a body, so that no statement can rest on a value of it. -/

namespace Sys2Proof.Config

/-- Free values: the n-th value that the manual leaves open or that the tray draws at random (R224, R400, R405, R457). -/
opaque freeNat : Nat → Nat

/-- AES-256-XTS encryption of a 64 B line (R157): key, tweak, plaintext. -/
opaque xtsEncrypt (key : Nat) (tweak : BitVec 128) (plain : List Byte) : List Byte

/-- AES-256-XTS decryption of a 64 B line (R157): key, tweak, ciphertext. -/
opaque xtsDecrypt (key : Nat) (tweak : BitVec 128) (cipher : List Byte) : List Byte

/-- AES-256-GCM opening (R168, R329, R407, R456, R509): plaintext when the tag matches. Arguments: key, IV, additional data, ciphertext, tag. -/
opaque gcmOpen (key iv : Nat) (aad ct : List Byte) (tag : Nat) : Option (List Byte)

/-- AES-256-GCM sealing: ciphertext and tag. -/
opaque gcmSeal (key iv : Nat) (aad pt : List Byte) : List Byte × Nat

/-- SHA-384 of a byte string (R397, R406, R457). -/
opaque sha384 : List Byte → BitVec 384

/-- Ed25519 verification of a digest (R397, R457): public key, digest, signature. -/
opaque ed25519Verify (pub : Nat) (digest : BitVec 384) (sig : Nat) : Bool

/-- ML-DSA-65 verification of a digest (R397, R457). -/
opaque mldsaVerify (pub : Nat) (digest : BitVec 384) (sig : Nat) : Bool

/-- The device's Ed25519 signature of a digest (R395, R406, R457), from the unique device secret. -/
opaque ed25519Sign (uds : Nat) (digest : BitVec 384) : Nat

/-- The device's ML-DSA-65 signature of a digest (R395, R406, R457). -/
opaque mldsaSign (uds : Nat) (digest : BitVec 384) : Nat

/-- The Ed25519 public key of a seed (R395). -/
opaque ed25519Pub (seed : Nat) : Nat

/-- The ML-DSA-65 public key of a seed (R395). -/
opaque mldsaPub (seed : Nat) : Nat

/-- Waurty's manufacturing keys, whose digests a root fuse holds, have signed with both schemes a device certificate that holds these identity keys (R394, R395): root, serial number, Ed25519 and ML-DSA-65 public keys. -/
opaque certified (root : BitVec 768) (serial edPub mlPub : Nat) : Bool

/-- The device certificate of a part, as its bytes' number (R395): serial number, part number, Ed25519 and ML-DSA-65 public keys, signed with both schemes by Waurty's manufacturing key. -/
opaque deviceCert (serial part edPub mlPub : Nat) : Nat

/-- X25519 shared secret of a private and a public key (R407, R458, R509). -/
opaque x25519 (priv pub : Nat) : Nat

/-- The X25519 public key of a private key. -/
opaque x25519Pub (priv : Nat) : Nat

/-- ML-KEM-768 decapsulation (R407, R509). -/
opaque mlkemDecap (priv ct : Nat) : Nat

/-- ML-KEM-768 encapsulation to a public key with the given randomness: ciphertext and shared secret (R457). -/
opaque mlkemEncap (pub rnd : Nat) : Nat × Nat

/-- The ML-KEM-768 encapsulation key of a private key. -/
opaque mlkemPub (priv : Nat) : Nat

/-- HKDF-SHA-384 of length 32 B (R395, R407, R458, R509): input key material, salt, info string. -/
opaque hkdf (ikm salt : Nat) (info : String) : Nat

/-- The unique device secret fused into the part (R394). -/
opaque uds : Nat

/-- The public identity keys (R395): Ed25519, then ML-DSA-65, each from its seed. -/
def identityKeys (uds : Nat) : Nat × Nat := (ed25519Pub (hkdf uds 0 "mlrn id e"), mldsaPub (hkdf uds 0 "mlrn id m"))

/-- Local byte address at which the engine finds the block scales or shadows of a LINEAR slot (R66): the slot descriptor of R181 has no field for it. -/
opaque scaleBase (slotDescriptor : W512) : Nat

/-- Local byte address at which a converted readout writes the scale or shadow of row r (R68): the readout slot has no field for it. -/
opaque readoutScaleAddr (slotDescriptor : W512) (row : Nat) : Nat

/-- Local byte address of the accumulator records that a tile with LOAD_RECORD reads (R72): the manual names no slot for them. -/
opaque recordBase (slotDescriptor : W512) : Nat

/-- Whether the operand of a LINEAR slot is read from KV pages, or the readout of one written into them, and then the layer and whether it is values: R210 has the engine take a page's scales from the layer's table entry, and neither the setup of R71 nor the slot of R181 says which operand is a page. -/
opaque pageOperand (slotDescriptor : W512) : Option (Nat × Bool)

/-- Tray physical address at which Pinwheel writes the scale of an MX output block or the shadow of an output pixel (R203): the job of R201 has no field for it. Arguments: job, output channel or channel block, output row, column. -/
opaque pinwheelScaleAddr (job : BitVec 1024) (chan row col : Nat) : Nat

/-- Where a split of the reduction dimension finds the scales or shadows of the whole dimension for its pre-pass (R38, R39): local byte address of the array and its number of 32-element blocks; none where the tile holds the whole dimension. Neither the setup of R71 nor the slot of R181 has a field for it. -/
opaque prepass (slotDescriptor : W512) : Option (Nat × Nat)

/-- The blocks of the whole reduction dimension of a CONV slot that holds a split of it (R38, R39): block origin and block of steps; empty where the tile holds the whole dimension. The slot of R181 has no field for them. -/
opaque convBlocks (slotDescriptor : W512) : List (Int × Nat)

/-- Whether operand A of a LINEAR slot is a row of base-2 scores in FP32 that enter as softmax weights (R59, R60), and then the local byte address of the integer maxima m′ of its rows, one INT32 a row: no field of R71 or R181 names a weight operand. -/
opaque weightOperand (slotDescriptor : W512) : Option Nat

/-- Whether a converted readout writes o ÷ l (R60), and then the local byte address of the accumulator records of l, one a row: the setup of R71 has no field for it. -/
opaque quotientBase (slotDescriptor : W512) : Option Nat

/-- Tray physical address at which a host input of a ONESHOT request lands for its staging slot (R245, R251): R243 lays down staging slots of OUT_BYTES for results only. -/
opaque inputAt (service : BitVec 256) (slot : Nat) : Nat

/-- Form of an RSUM entry (R53, R59, R60, R61, R75): 0 the FP32 sum; 1 the pre-pass, which leaves a record of value 0 on the anchor of the terms; 2 the pre-pass continued from the record in VC; 3 the terms added to the record in VC on its anchor; 4 the record in VC written as FP32; 5 the integer maximum m′ of the terms, −2³¹ where all are −∞ (R230); 6 the softmax weights of the terms against the m′ in VB, added to the record in VC on the anchor 1. R117 gives the entry no field for it. -/
opaque rsumForm (vectorEntry : Nat) : Nat

/-- A field of a firmware manifest in the bytes of a header from 2,048 on (R397 names the fields, and no rule their places): 0 component, 1 security version, 2 length, 3 body digest, 5 and 6 the Ed25519 and ML-DSA-65 public keys, 7 and 8 the signatures. -/
opaque manifestField (bytes : List Byte) (field : Nat) : Nat

/-- The fields of a firmware manifest before its signatures, as bytes, which both signatures cover (R397). -/
opaque manifestSigned (bytes : List Byte) : List Byte

/-- Whether a SHADOW entry's elements are FP16 rather than BF16 (R117 gives the entry no format). -/
opaque shadowIsFp16 (vectorEntry : Nat) : Bool

/-- Static power of a quadrant, mW, from the table fused at manufacture: quadrant, millivolts, temperature in 0.01 °C (R547). -/
opaque leakage (quad mv : Nat) (temp : Int) : Nat

/-- The fused voltage–frequency curve of the part, mV at a setting in MHz (R348). -/
opaque fusedMv (quad mhz : Nat) : Nat

/-- A configuration register of a function beside those of R482 and the command register: function and byte offset (R479 refers to PCI Express for them). -/
opaque configReg (f reg : Nat) : Nat

/-- Room that the tray grants for flits of a virtual channel at link-up (R321): the size of its receive buffers. -/
opaque creditRoom (vc : Nat) : Nat

/-- Key under which a NAK GROUP goes out where no key of its group and generation is held (R329, R331). -/
opaque nakKey (group gen : Nat) : Nat

/-- The lane and port hash of a packet (R333): 0 port A, 1 port B. -/
opaque portHash (group dst seq : Nat) : Bool

/-- A decoded sample of the picture of an access unit (R292): the decoding process of the standard named in R290, a function of the session's descriptor and of the bytes fed, with deblocking and SAO on edges between covered CTUs only (R308). -/
opaque decodedSample (desc : BitVec 1024) (stream : List Byte) (accessUnit : Nat) (covered : List Nat) (plane x y : Nat) : Nat

/-- The motion data that a decoded 16 × 16 unit leaves (R298): 16 B. -/
opaque decodedMotion (desc : BitVec 1024) (stream : List Byte) (accessUnit x y : Nat) : BitVec 128

/-- VPS, SPS and PPS of an encode session (R310). -/
opaque parameterSets (desc : BitVec 1024) : List Byte

/-- An IDR_N_LP picture (R310): its slice, and its reconstruction. -/
opaque idrPicture (desc : BitVec 1024) (samples : List Byte) (qp : Nat) : List Byte × List Byte

/-- A P picture predicting from the reconstructions given, the most recent first (R310): its slice, and its reconstruction. -/
opaque pPicture (desc : BitVec 1024) (refs : List (List Byte)) (samples : List Byte) (qp : Nat) : List Byte × List Byte

/-- An all-skip picture (R312), in which every CU is skipped with merge index 0: no sample enters it. -/
opaque skipPicture (desc : BitVec 1024) (refs : List (List Byte)) : List Byte × List Byte

/-- Output check values of the known-answer image on a quadrant (R448). -/
opaque knownAnswer (quad : Nat) : Nat

end Sys2Proof.Config
end

