-- ==== Sys2Proof/Syntax.lean ====
section
/-! DEFINITION. The commands of the tray: one constructor per row of spec/opcode_table.json, with the operands that say at which unit the step happens and what comes from outside. -/

namespace Sys2Proof

/-- Who makes a dictionary access: an open session, or the window of a function (R473). -/
inductive DictSrc
  | session (sid : Fin 8)
  | window (f : Func)
  deriving DecidableEq, Repr

/-- One operation of a REQUEST body (R462) or of a window (R474): the source, the request ID, and whether it is the message's last operation. -/
structure DictReq where
  src : DictSrc
  reqId : W32
  last : Bool
  deriving DecidableEq, Repr

/-- A clock that R380 judges: a domain's PLL output or the recovered clock by domain subindex − 1, the TCXO, or REFCLK. -/
inductive Judged
  | domain (d : Fin 40)
  | tcxo
  | refclk
  deriving DecidableEq, Repr

/-- A configuration request to a function (R503) and what it does there (R493). -/
inductive ConfigOp
  | read (reg : Nat)
  | numVfs (n : Nat)
  | vfEnable (on : Bool)
  | busMaster (on : Bool)
  | memSpace (on : Bool)
  | powerState (d3hot : Bool)
  | flr
  deriving DecidableEq, Repr

/-- What disables virtual functions (R493). -/
inductive DisableTrigger
  | flr | vfEnableCleared | numVfsBelow | busMasterCleared | d3hot | pfFlr | linkDown | hotReset
  deriving DecidableEq, Repr

/-- The readings of one pass over the sensors, in 0.01 °C (R361, R364, R365). Lists are indexed by quadrant and stack. -/
structure Readings where
  junctionA : List Int
  junctionB : List Int
  hubA : Int
  hubB : Int
  hbm : List Int
  inlet : Int
  outlet : Int
  deriving DecidableEq, Repr

/-- The fields of a vector table entry beside its opcode (R117). -/
structure VArgs where
  vd : Fin 32
  va : Fin 32
  vb : Fin 32
  vc : Fin 32
  pred : Fin 8
  pneg : Bool
  imm : W32
  deriving DecidableEq, Repr

/-- The fields of an engine operation beside its EOP (R114). -/
structure EArgs where
  en : BitVec 4
  setup : Fin 8
  firstSet : Bool
  aSlot : Fin 16
  bSlot : Fin 16
  deriving DecidableEq, Repr

/-- Where a sync counter stands: in a cluster (R86), or on H among the cabinet counters (R336). -/
inductive SyncAt
  | cluster (c : Clus)
  | cabinet
  deriving DecidableEq, Repr

/-- Where an operation on a sync counter comes from: its partition and location identifier (R87, R89). -/
structure SyncSrc where
  part : PartId
  loc : BitVec 20
  deriving DecidableEq, Repr

/-- The store or path in which a parity error arises, with the kind of store (R94, R539, R540); a die's common stores and links name the context whose step consumed. -/
inductive ErrSite
  | coreStore (k : CoreId) (kind : Fin 8)
  | clusterStore (c : Clus) (kind : Fin 8)
  | dieCommon (c : Ctx) (kind : Fin 8)
  | dieLink (c : Ctx)
  | hubStore
  deriving DecidableEq, Repr

/-- A descriptor engine (R159): a channel of a cluster DMA, a die DMA with its walker, or the hub DMA. -/
inductive DmaEng
  | cluster (c : Clus) (ch : Fin 2)
  | die (d : Die)
  | hub
  deriving DecidableEq, Repr

/-- What the controller meets on reading a line (R138 to R140): `onDie` a correction that the stack's own ECC reports. -/
inductive LineErr
  | onDie
  | corrected
  | rereadClean
  | uncorrectable
  deriving DecidableEq, Repr

/-- A line address of 64 B lines and the error met there. -/
structure EccEvent where
  line : Nat
  err : LineErr
  deriving DecidableEq, Repr

/-- What forward error correction says of a flit (R320): whether one of its blocks lies in an uncorrectable codeword, and how many uncorrectable codewords it is the first to show. -/
structure FecResult where
  bad : Bool
  fresh : Nat
  deriving DecidableEq, Repr

/-- What the scrub engine reads back of a granule it has written as zero ciphertext (R432): the bytes that are not zero, by their offsets, after the first writing and, where that one failed, after the second (log entry 133). -/
structure ScrubReads where
  first : List (Nat × Byte)
  second : List (Nat × Byte)
  deriving DecidableEq, Repr

/-- An engine at work, and the errors that the controllers meet on its reads of HBM (log entry 16). -/
structure EngTurn (α : Type) where
  eng : α
  ecc : List EccEvent
  deriving DecidableEq, Repr

/-- A Lylyn image as LOAD_IMAGE finds it in partition memory: the tables the manual gives bit layouts for.
The layout of the container that joins them is not in the manual. -/
structure Image where
  bundleVer : Nat
  descVer : Nat
  locs : List (BitVec 20)
  /-- Bundles of each die, by bundle address in the context's region (R100). -/
  bundles : List (Fin 4 × List (BitVec 4096))
  /-- Lane setup base of each die's context. -/
  setupBase : List Nat
  /-- Vector table entries of R117 and setups of R71 for each core, by tray-wide core number (64 × die + 8 × cluster + core); a core not listed gets none. -/
  vtable : List (Nat × List (BitVec 64))
  setups : List (Nat × List (BitVec 64))
  cost : List (BitVec 256)
  services : List (BitVec 256)
  outBytes : List Nat
  /-- Bytes of a ONESHOT input, by service, from the image's layouts. -/
  inBytes : List Nat
  kv : List (BitVec 64)
  kvIdentity : BitVec 64
  /-- Lane sync tables as (step, lane of the die, entry), for the check of WAIT entries (R128). -/
  syncTables : List (Nat × Fin 32 × List (BitVec 128))
  /-- Slot descriptors the image uses (R181). -/
  slots : List W512
  /-- Step IDs with Pinwheel jobs, delta jobs (R199, R277), by die. -/
  pinwheelDies : List (Fin 4)
  deltaDies : List (Fin 4)
  /-- Variant record (R283): BASE_ID, VAR_PER_STEP, MAX_TILES. -/
  baseId : BitVec 64
  varPerStep : Nat
  maxTiles : Nat
  /-- Tiles of each matrix, by matrix number in the image's weight layout (R275, R283). -/
  matrixTiles : List Nat
  /-- Format code and reduction blocks of each matrix, by matrix number (R275). -/
  matrixForm : List (Nat × Nat)
  /-- Largest u of the base tile at (matrix, J, column group), for R273. -/
  baseTileU : List ((Nat × Nat × Nat) × Int)
  digest : BitVec 384
  deriving DecidableEq, Repr

/-- How a copy of R218, or another tray-issued copy, ended: a descriptor status of R162. -/
abbrev DmaStatus := Fin 11

/-- What starts or queues a prefix rebuild (R228). -/
inductive RebuildTrigger
  | write (rq : DictReq) (v : List Byte)
  | removal (p : PartId)
  | keyRotation (p : PartId)
  | variantRetired (p : PartId) (v : Nat)
  deriving DecidableEq, Repr

/-- What the entropy engine met in the stream (R307): nothing, or an error with its handling. -/
inductive ParseErr
  | nalHeader
  | parameterSet
  | unsupported
  | tooLarge
  /-- A slice header error, or a missing parameter set: the CTUs of the segments discarded. -/
  | sliceHeader (lost : List Nat)
  /-- An error in slice data: the CTUs of the rest of the segment. -/
  | sliceData (lost : List Nat)
  /-- A referenced picture absent from the pool: bit depth, and whether the stream is 4:0:0. -/
  | missingReference (depth : Nat) (mono : Bool)
  deriving DecidableEq, Repr

/-- What an entropy engine meets in a session's byte stream (R291, R294, R307): the syntax of the standards named in R290 is theirs. -/
inductive NalFact
  /-- A NAL unit with nuh_layer_id above 0. -/
  | otherLayer
  /-- SEI, an access unit delimiter, or filler data. -/
  | noEffect
  /-- End of sequence, or end of bitstream. -/
  | endOfStream
  /-- The slice data of the access unit's picture: its syntax records have begun. -/
  | slices
  /-- The end of the access unit. -/
  | unitEnd
  | err (e : ParseErr)
  deriving DecidableEq, Repr

/-- Profiles (R290). -/
inductive VProfile
  | main | main10 | mainStill | high | avcMain | constrainedBaseline | other
  deriving DecidableEq, Repr

/-- What a picture is for resynchronisation (R307): IDR, CRA and BLA are IRAP. -/
inductive PicKind
  | ordinary | rasl | idr | cra | bla
  deriving DecidableEq, Repr

/-- Reference mark of a slot (R304). -/
inductive RefMark
  | none
  | short
  | long
  deriving DecidableEq, Repr

/-- Facts of a picture that the standard's syntax and decoding process yield before reconstruction (R290, R291, R295, R304, R307). -/
structure PicHead where
  poc : W32
  kind : PicKind
  profile : VProfile
  /-- Level × 10. -/
  level : Nat
  /-- chroma_format_idc. -/
  chroma : Nat
  depth : Nat
  /-- field_pic_flag or mb_adaptive_frame_field_flag is 1. -/
  field : Bool
  /-- Decoded picture buffers that its sequence parameter set asks for, pictures that may be reordered, and pictures that may be decoded while one waits for output (0: no limit). -/
  dpb : Nat
  reorder : Nat
  latency : Nat
  /-- An IRAP picture that discards the output of the pictures still pending. -/
  dropPrior : Bool
  /-- The picture is output. -/
  shown : Bool
  /-- Pool slots referenced. -/
  refs : List (Fin 24)
  /-- Slots whose reference mark the picture's reference set or memory management clears. -/
  unmark : List (Fin 24)
  /-- Slots it marks long-term. -/
  longTerm : List (Fin 24)
  /-- The picture's own mark. -/
  mark : RefMark
  width : Nat
  height : Nat
  /-- Luma size of a CTU or macroblock: 16, 32 or 64. -/
  ctb : Nat
  crop : W32
  /-- CTUs that its slices cover (R308). -/
  covered : List Nat
  deriving DecidableEq, Repr

/-- A hello control block (R323). -/
structure HelloBlock where
  version : Nat
  generation : Nat
  isSwitch : Bool
  slot : Fin 16
  port : Fin 2
  cabinet : BitVec 64
  /-- The switch reports another tray on the same slot. -/
  slotTaken : Bool
  deriving DecidableEq, Repr

/-- A Trellis packet on the wire (R328): header, ciphertext of the data blocks, trailer. -/
structure Packet where
  header : BitVec 256
  data : List Byte
  trailer : BitVec 256
  deriving DecidableEq, Repr

/-- The head of a KEY_WRAP message (R407). -/
structure WrapHead where
  digest : BitVec 384
  x25519 : BitVec 256
  mlkem : Nat
  deriving DecidableEq, Repr

/-- An 80 B entry of a KEY_WRAP message (R407). -/
structure WrapEntry where
  slot : Byte
  kind : Byte
  action : Byte
  activation : BitVec 64
  iv : BitVec 96
  wrapped : BitVec 256
  tag : BitVec 128
  deriving DecidableEq, Repr

/-- A record of a snapshot (R437). -/
inductive SnapRecord
  | header (seq : Nat) (cutTime : Nat) (mask : BitVec 16)
  | entry (handle : Nat) (bits : W512)
  | tokens (handle : Nat) (start : Nat) (toks : List W32)
  | watermark (f : Vf) (ring : Fin 8) (count : W32)
  | retain (handle layer block frame : Nat) (on : Bool)
  | page (frame : Nat) (bytes : List Byte)
  deriving DecidableEq, Repr

/-- Why a takeover begins (R441). -/
inductive TakeoverCause
  | declaredFailed
  | yieldRequest
  | silent
  deriving DecidableEq, Repr

/-- What starts a rehearsal (R448): its period, or a write of OD 0x6406. -/
inductive RehearsalTrigger
  | period
  | write (rq : DictReq) (v : List Byte)
  deriving DecidableEq, Repr

/-- What restarts Pavilion (R471). -/
inductive RestartTrigger
  | fault
  | write (rq : DictReq) (v : List Byte)
  deriving DecidableEq, Repr

/-- A poisoned TLP received (R481). -/
inductive Poison
  | completion (tag : Nat)
  | barWrite (f : Func) (off : Nat)
  deriving DecidableEq, Repr

/-- An admission decision that the leader sends its follower (R445). -/
structure LeaderDecision where
  part : PartId
  reqId : W32
  /-- The submission entry's running place in the follower's own rings: the same entry, in the same order. -/
  entry : W512
  /-- Status of a refusal (R252); 0 for an admission. -/
  status : Byte
  deriving DecidableEq, Repr

/-- An entry of a batch that the leader sends its follower (R445): request ID, tokens before and in the step, and whether it emits one. -/
structure LeaderEntry where
  id : W32
  len : Nat
  new : Nat
  emit : Bool
  deriving DecidableEq, Repr

/-- What the leader sends its follower (R445). -/
inductive LeaderMsg
  | decision (d : LeaderDecision)
  | batch (p : PartId) (stepId : Nat) (entries : List LeaderEntry)
  deriving DecidableEq, Repr

/-- The outcome of a known-answer proof test on this tray and on the partner (R447). -/
structure ProofOutcome where
  ownPass : Bool
  partnerPass : Bool
  /-- This is the outcome after the second comparison: the step was rerun on both and differed again. -/
  secondMismatch : Bool
  deriving DecidableEq, Repr

/-- Who asks the Gatehouse: a function's mailbox, or a station on the management network (R405, R457). -/
inductive CertAsker
  | mailbox (f : Func)
  | station (seg : Fin 2)
  deriving DecidableEq, Repr

/-- The commands: one constructor per row of the table. -/
inductive Instr
  -- power-up, presence and input (19, 20)
  | mainPowerGood (inputMv : Nat) (trained : BitVec 8)
  | preChargeContact
  | mainSwitchClose (busMv bulkMv storeMv : Nat)
  | presenceAssert (straps : BitVec 5)
  | presenceLoss
  | inputLoss
  | overVoltage
  | componentStartTimeout (c : Fin 9)
  | configRequest (f : Func) (op : ConfigOp)
  | perstAssert
  | drainRequest
  | leverClose
  -- timebase and clocks (13)
  | ppsEdge
  | timebaseSlewEnd
  | holdoverEnter
  | stabilityInterval (clk : Judged) (count : Nat)
  | referenceReturn
  | clockSourceSwitch (rq : DictReq) (dom : Fin 40) (v : List Byte)
  | spreadDepthWrite (rq : DictReq) (v : List Byte)
  | dieNocFrequencyWrite (rq : DictReq) (d : Die) (v : List Byte)
  -- resets (19)
  | warmReset (rq : DictReq)
  | coldReset (rq : DictReq)
  | partitionReset (rq : DictReq) (v : Byte)
  -- Weathervane (12)
  | governorCycle (demand : List Nat)
  | powerSample (inputMw : Nat) (quadMw : List Nat)
  | issueLimitApply (q : Quad)
  | clockSettled (q : Quad)
  | sustainedCapWrite (rq : DictReq) (v : List Byte)
  | coolingInputWrite (rq : DictReq) (sub : Fin 4) (v : List Byte)
  | coolingInputStale (sub : Fin 4)
  | rideThroughExit
  | sensorRead (r : Readings)
  | emergencyStep (q : Quad)
  | thermalRejoinReady
  | sensorAlertClear (pair : Fin 17)
  | droopTrip (q : Quad) (level : Fin 4)
  | droopStretchEnd (q : Quad)
  | stretchLossWindow (q : Quad)
  | guardStepReturn (q : Quad)
  | canaryFail (q : Quad) (path : Fin 8)
  | canaryTrimDown (q : Quad)
  -- bundle sequencer and lanes (04)
  | bundleFetch (d : Die)
  | next (c : Ctx)
  | loopBegin (c : Ctx)
  | loopEnd (c : Ctx)
  | jump (c : Ctx)
  | stepBegin (c : Ctx)
  | stepEnd (c : Ctx)
  | fence (c : Ctx)
  | laneBeginBundle (l : Clus)
  | laneWait (l : Clus)
  | lanePost (l : Clus)
  | laneWaitAndPost (l : Clus)
  | scoreboardWait (l : Clus)
  | clusterDmaIssue (l : Clus) (ch : Fin 2)
  -- engines, address generators, local DMA (03, 06)
  | tile (k : CoreId) (e : EArgs)
  | readout (k : CoreId) (e : EArgs)
  | tileRead (k : CoreId) (e : EArgs)
  | aguStart (k : CoreId) (agu : Fin 2) (slot : Fin 16)
  | aguAdvance (k : CoreId) (agu : Fin 2) (slot : Fin 16)
  | aguStop (k : CoreId) (agu : Fin 2) (slot : Fin 16)
  | localToCluster (k : CoreId) (slot : Fin 16) (count : Fin 8)
  | clusterToLocal (k : CoreId) (slot : Fin 16) (count : Fin 8)
  -- vector unit (02, 03, 04)
  | fadd (k : CoreId) (v : VArgs)
  | fsub (k : CoreId) (v : VArgs)
  | fmul (k : CoreId) (v : VArgs)
  | fma (k : CoreId) (v : VArgs)
  | fmin (k : CoreId) (v : VArgs)
  | fmax (k : CoreId) (v : VArgs)
  | fcmplt (k : CoreId) (v : VArgs)
  | fcmpeq (k : CoreId) (v : VArgs)
  | iadd (k : CoreId) (v : VArgs)
  | isub (k : CoreId) (v : VArgs)
  | imul (k : CoreId) (v : VArgs)
  | iadds (k : CoreId) (v : VArgs)
  | isubs (k : CoreId) (v : VArgs)
  | and (k : CoreId) (v : VArgs)
  | or (k : CoreId) (v : VArgs)
  | xor (k : CoreId) (v : VArgs)
  | shl (k : CoreId) (v : VArgs)
  | shr (k : CoreId) (v : VArgs)
  | sar (k : CoreId) (v : VArgs)
  | cvt (k : CoreId) (v : VArgs)
  | exp2 (k : CoreId) (v : VArgs)
  | log2 (k : CoreId) (v : VArgs)
  | rsqrt (k : CoreId) (v : VArgs)
  | recip (k : CoreId) (v : VArgs)
  | rsum (k : CoreId) (v : VArgs)
  | rmax (k : CoreId) (v : VArgs)
  | rmin (k : CoreId) (v : VArgs)
  | rmerge (k : CoreId) (v : VArgs)
  | vecLoad (k : CoreId) (v : VArgs)
  | vecStore (k : CoreId) (v : VArgs)
  | shadow (k : CoreId) (v : VArgs)
  | flags (k : CoreId) (v : VArgs)
  | setup (k : CoreId) (v : VArgs)
  | param (k : CoreId) (v : VArgs)
  | vecPost (k : CoreId) (v : VArgs)
  -- sync counters (03)
  | syncPost (src : SyncSrc) (c : SyncAt) (n : Fin 1024) (amt : BitVec 16) (cyc : Nat)
  | syncSet (src : SyncSrc) (c : SyncAt) (n : Fin 1024) (v : W32) (cyc : Nat)
  | syncWait (src : SyncSrc) (c : SyncAt) (n : Fin 1024) (t : W32) (cyc : Nat)
  | syncRead (src : SyncSrc) (c : SyncAt) (n : Fin 1024) (cyc : Nat)
  -- steps (04, 08, 21)
  | parityError (site : ErrSite)
  | stepDispatch (p : PartId)
  | stepComplete (p : PartId)
  | stepEarlyEnd (c : Ctx) (code : Fin 5)
  | stepWatchdogExpiry (p : PartId)
  | stepReplay (p : PartId)
  | costTableCommit (p : PartId)
  -- DMA and memory (05, 13)
  | copy (e : DmaEng) (ecc : List EccEvent)
  | fill (e : DmaEng)
  | pageRead (e : DmaEng) (ecc : List EccEvent)
  | pageWrite (e : EngTurn DmaEng)
  | descriptorComplete (e : DmaEng)
  | hostReadCompletion (tag : Nat) (data : List Byte) (ok : Bool)
  | gcmDecrypt
  | patrolScrub (stack : Fin 8) (ecc : List EccEvent)
  | hbmRetrain (stack : Fin 8) (channel : Nat)
  -- Pinwheel and delta engine (06, 09)
  | pinwheelJob (d : EngTurn Die)
  | pinwheelOwnerWrite (rq : DictReq) (d : Die) (v : List Byte)
  | deltaJob (d : EngTurn Die)
  | deltaOwnerWrite (rq : DictReq) (d : Die) (v : List Byte)
  -- Carousel (07, 08, 18)
  | submissionDoorbell (f : Vf) (ring : Fin 8) (v : W32)
  | submissionNop
  | submit (hostTokens : List W32)
  | cancel
  | loadImage (img : Image)
  | alloc
  | free
  | dmaCommand (desc : W512)
  | prefixMatch (handle : Nat)
  | roundStart (p : PartId)
  | cowCopyComplete (p : PartId) (status : DmaStatus)
  | waitingPageResume (p : PartId)
  | epochAdvance
  | frameRelease (frame : Nat)
  | prefixRebuild (t : RebuildTrigger)
  | rebuildMigrateSet
  | prefixTableSwitch
  | kvPoolWrite (rq : DictReq) (p : PartId) (v : List Byte)
  | poolRelayout (p : PartId)
  | completionHeadDoorbell (f : Vf) (ring : Fin 9) (v : W32)
  | msixModerationTimer (f : Vf) (ring : Fin 9)
  -- variants (09)
  | variantRegister (rq : DictReq) (p : PartId) (variant : BitVec 12) (addr : BitVec 48)
  | variantRetire (rq : DictReq) (p : PartId) (variant : BitVec 12)
  | variantCheckDone (p : PartId)
  -- Zoetrope (10)
  | zoetropeDoorbell (f : Vf) (v : W32)
  | openSession
  | feed
  | encode
  | key
  | release
  | flush
  | close
  | entropySwitch (eng : Fin 6) (session : Fin 512) (filled : List Nat) (met : List NalFact)
  | pictureReconstructStart (session : Fin 512) (h : PicHead)
  | ctuRowDispatch (session : Fin 512) (unit row : Nat)
  | pictureOutput (session : Fin 512)
  | releaseCounterPost (part : PartId) (session : Fin 512) (n : BitVec 16)
  | encodePicture (session : Fin 64)
  -- Trellis (11)
  | flitReceive (port : Fin 2) (flit : BitVec 2048) (fec : FecResult) (corrected : Nat)
  | flitReplay (port : Fin 2) (seq : BitVec 12)
  | portDown (port : Fin 2)
  | laneOutOfService (port : Fin 2) (lane : Fin 8)
  | laneRestore (port : Fin 2) (lane : Fin 8)
  | helloSend (port : Fin 2)
  | helloReceive (port : Fin 2) (h : HelloBlock)
  | equalisationRequest (port : Fin 2) (lane : Fin 8) (coeff : BitVec 8)
  | writePacket (port : Fin 2) (pkt : Packet)
  | postPacket (port : Fin 2) (pkt : Packet)
  | ackPacket (port : Fin 2) (pkt : Packet)
  | nakPacket (port : Fin 2) (pkt : Packet)
  | packetResend (dst : Fin 16) (group : Fin 64) (seq : Nat)
  | sendJob (job : Nat)
  | trellisPostJob (job : Nat)
  | reduceJob (job : Nat)
  | reduceCombine (job : Nat)
  | bindJob (job : Nat)
  | trellisJobComplete (job : Nat)
  | clockStateSend
  | clockStateReceive (slot : Fin 16) (part : PartId) (mhz : BitVec 16) (causes : Byte)
  | peerLost (slot : Fin 16)
  -- Gatehouse (14)
  | form (rq : DictReq) (p : PartId) (mask : BitVec 16)
  | remove (rq : DictReq) (p : PartId)
  | revocationWaitEnd (p : PartId)
  | granuleScrub (g : Nat) (reads : ScrubReads)
  | rotateXts (rq : DictReq) (p : PartId)
  | xtsSweepGranule (p : PartId) (d : Die)
  | xtsOldZeroize (p : PartId)
  | rotatePrefix (rq : DictReq) (p : PartId)
  | attestReq (f : Func) (nonce : BitVec 256)
  | certReq (asker : CertAsker)
  | keyInstall (f : Func) (w : WrapHead) (e : WrapEntry) (first last : Bool)
  | keyDropOld (f : Func) (w : WrapHead) (e : WrapEntry) (first last : Bool)
  | keyActivation (slot : Fin 64)
  | ephemeralKeyExpiry (p : PartId)
  | slotAssignmentWrite (rq : DictReq) (slot : Fin 64) (v : List Byte)
  | rmaEntry (serial : BitVec 128) (edSig mlSig : Nat) (edPub mlPub : Nat)
  -- check-value units (15)
  | hubCvuSettingWrite (rq : DictReq) (f : Vf) (v : List Byte)
  | hubCvuRunningWrite (rq : DictReq) (f : Vf) (v : List Byte)
  | hubCvuClose (rq : DictReq) (f : Vf) (v : List Byte)
  -- pairs (16)
  | snapshotCut
  | snapshotReceive (seq : Nat) (recs : List SnapRecord) (check : BitVec 64)
  | snapshotAck (seq : Nat)
  | snapshotAbandon
  | takeoverStart (cause : TakeoverCause)
  | yield
  | plannedSwitchover (rq : DictReq) (v : List Byte)
  | followerAdmit (m : LeaderMsg)
  | stepCheckValueReceive (p : PartId) (seq : Nat) (v : BitVec 64)
  | proofTestResult (p : PartId) (r : ProofOutcome)
  | rehearsalStart (t : RehearsalTrigger)
  | rehearsalEnd (values : List Nat)
  -- Pavilion (17)
  | datagramReceive (seg : Fin 2) (udpPort : Nat) (payload : List Byte)
  | fragmentTimeout (sid : W32) (seq : BitVec 64)
  | hello (seg : Fin 2) (body : List Byte)
  | auth (sid : Fin 8) (body : List Byte)
  | dictRead (rq : DictReq) (idx : BitVec 16) (sub : Byte)
  | dictWrite (rq : DictReq) (idx : BitVec 16) (sub : Byte) (v : List Byte)
  | readClamp (rq : DictReq) (idx : BitVec 16) (sub : Byte)
  | subscribe (rq : DictReq) (idx : BitVec 16) (sub : Byte) (minMs : BitVec 16)
  | unsubscribe (rq : DictReq) (idx : BitVec 16) (sub : Byte)
  | notify (sid : Fin 8) (idx : BitVec 16) (sub : Byte)
  | sessionClose (sid : Fin 8)
  | sessionIdleTimeout (sid : Fin 8)
  | pavilionRestart (t : RestartTrigger)
  | credentialWrite (rq : DictReq) (slot : Fin 16) (v : List Byte)
  | errorLogRead (rq : DictReq)
  | logClear (rq : DictReq) (v : List Byte)
  -- counter clears
  | clampCounterClear (rq : DictReq) (v : List Byte)
  | coreCounterClear (rq : DictReq) (v : List Byte)
  | sequencerCounterClear (rq : DictReq) (v : List Byte)
  | memoryCounterClear (rq : DictReq) (v : List Byte)
  | dmaCounterClear (rq : DictReq) (v : List Byte)
  | convolutionCounterClear (rq : DictReq) (v : List Byte)
  | kvCounterClear (rq : DictReq) (v : List Byte)
  | carouselCounterClear (rq : DictReq) (v : List Byte)
  | videoCounterClear (rq : DictReq) (v : List Byte)
  | trellisCounterClear (rq : DictReq) (v : List Byte)
  | powerCounterClear (rq : DictReq) (v : List Byte)
  | thermalCounterClear (rq : DictReq) (v : List Byte)
  | marginCounterClear (rq : DictReq) (v : List Byte)
  | pairCounterClear (rq : DictReq) (v : List Byte)
  | cvuCounterClear (rq : DictReq) (v : List Byte)
  | errorCounterClear (rq : DictReq) (v : List Byte)
  -- PCI Express functions (18)
  | functionQuiesce (f : Vf) (v : W32)
  | functionDisable (f : Func) (t : DisableTrigger)
  | functionIdle (f : Vf)
  | poisonedTlp (p : Poison)
  | barWriteDiscard (f : Func) (off size : Nat)
  -- update (19)
  | updateBegin (rq : DictReq)
  | blockSubmit (rq : DictReq) (v : List Byte)
  | updateVerify (rq : DictReq)
  | updateAbort (rq : DictReq)
  | activationTimeWrite (rq : DictReq) (v : List Byte)
  | activation
  | activationCommit
  | floorAdvance (rq : DictReq) (v : List Byte)
  -- test perturbation (21)
  | errorInjectionWrite (rq : DictReq) (v : List Byte)
  | injectedError
  | perturbationWrite (rq : DictReq) (idx : BitVec 16) (sub : Byte) (v : List Byte)
  -- further rows
  | functionRegisterWrite (f : Func) (off size : Nat) (v : BitVec 64)
  | lossOfLock (clk : Judged)
  | creditControlBlock (port : Fin 2) (vc : Fin 3) (n : Nat)
  | completionTimeout (tag : Nat)
  | pavilionAnsweringAgain
  | icmpv6Message (seg : Fin 2) (echo : Bool) (body : List Byte)
  | segmentStatusChange (seg : Fin 2) (st : Fin 3)
  | armedInstantExchange (t : BitVec 64)
  | group63KeyAgreement (peerSerial : BitVec 128) (peerEdPub peerMlPub : Nat) (reportDigest : BitVec 384) (edSig mlSig : Nat) (peerX25519 : BitVec 256) (mlkemCt : Nat)
  deriving DecidableEq, Repr

end Sys2Proof
end

