-- ==== Sys2Proof/WellFormed.lean ====
section
/-! DEFINITION. Well-formed commands: operands whose Lean type is wider than what their sender can put into them. -/

namespace Sys2Proof

/-- A value of a dictionary operation: its LEN is two bytes (R462). -/
def opOk (_rq : DictReq) (v : List Byte) : Bool := decide (v.length < 65536)

/-- A host write: 1 to 8 bytes inside the function's memory space (R483, R485). -/
def sizeOk (_f : Func) (off size : Nat) : Bool := decide (1 ≤ size) && decide (size ≤ 8) && decide (off < 2 ^ 20)

/-- A packet's data fills whole blocks of 32 B, at most 4,096 B of them (R328). -/
def pktOk (p : Packet) : Bool := p.data.length % 32 == 0 && decide (p.data.length ≤ 4096)

/-- A configuration operation (R503): NumVFs is a 16-bit register, and a read names a byte of the 4 KiB space. -/
def opCfgOk : ConfigOp → Bool
  | .read r => decide (r < 4096)
  | .numVfs n => decide (n < 65536)
  | _ => true

/-- An image brings a setup base for each die, and at most eight services (R128, R243). -/
def imageOk (i : Image) : Bool := i.setupBase.length == 4 && decide (i.services.length ≤ 8)

/-- A command is well formed. -/
def Instr.wf : Instr → Bool
  | .configRequest _ op => opCfgOk op
  | .stabilityInterval _ count => decide (count < 2 ^ 64)
  | .clockSourceSwitch rq _ v => opOk rq v
  | .spreadDepthWrite rq v => opOk rq v
  | .dieNocFrequencyWrite rq _ v => opOk rq v
  | .governorCycle demand => demand.length == 16
  | .powerSample _ quadMw => quadMw.length == 16
  | .sustainedCapWrite rq v => opOk rq v
  | .coolingInputWrite rq _ v => opOk rq v
  | .sensorRead r => r.junctionA.length == 16 && r.junctionB.length == 16 && r.hbm.length == 8
  | .hbmRetrain _ channel => decide (channel < 64)
  | .pinwheelOwnerWrite rq _ v => opOk rq v
  | .deltaOwnerWrite rq _ v => opOk rq v
  | .loadImage img => imageOk img
  | .prefixMatch handle => decide (handle < 1048576)
  | .frameRelease frame => decide (frame < 2 ^ 28)
  | .kvPoolWrite rq _ v => opOk rq v
  | .flitReceive _ _ fec corrected => decide (fec.fresh ≤ 64 ∧ corrected ≤ 2048)
  | .writePacket _ pkt => pktOk pkt
  | .postPacket _ pkt => pktOk pkt
  | .ackPacket _ pkt => pktOk pkt
  | .nakPacket _ pkt => pktOk pkt
  | .granuleScrub g r => decide (g < 262144) && (r.first ++ r.second).all fun x => decide (x.1 < 2097152)
  | .slotAssignmentWrite rq _ v => opOk rq v
  | .hubCvuSettingWrite rq _ v => opOk rq v
  | .hubCvuRunningWrite rq _ v => opOk rq v
  | .hubCvuClose rq _ v => opOk rq v
  | .plannedSwitchover rq v => opOk rq v
  | .rehearsalEnd values => values.length == 16
  | .datagramReceive _ udpPort payload => decide (udpPort < 65536) && decide (payload.length ≤ 65507)
  | .dictWrite rq _ _ v => opOk rq v
  | .credentialWrite rq _ v => opOk rq v
  | .logClear rq v => opOk rq v
  | .clampCounterClear rq v => opOk rq v
  | .coreCounterClear rq v => opOk rq v
  | .sequencerCounterClear rq v => opOk rq v
  | .memoryCounterClear rq v => opOk rq v
  | .dmaCounterClear rq v => opOk rq v
  | .convolutionCounterClear rq v => opOk rq v
  | .kvCounterClear rq v => opOk rq v
  | .carouselCounterClear rq v => opOk rq v
  | .videoCounterClear rq v => opOk rq v
  | .trellisCounterClear rq v => opOk rq v
  | .powerCounterClear rq v => opOk rq v
  | .thermalCounterClear rq v => opOk rq v
  | .marginCounterClear rq v => opOk rq v
  | .pairCounterClear rq v => opOk rq v
  | .cvuCounterClear rq v => opOk rq v
  | .errorCounterClear rq v => opOk rq v
  | .barWriteDiscard f off size => sizeOk f off size
  | .blockSubmit rq v => opOk rq v
  | .activationTimeWrite rq v => opOk rq v
  | .floorAdvance rq v => opOk rq v
  | .errorInjectionWrite rq v => opOk rq v
  | .perturbationWrite rq _ _ v => opOk rq v
  | .functionRegisterWrite f off size v => sizeOk f off size && decide (v.toNat < 2 ^ (8 * size))
  | .creditControlBlock _ _ n => decide (n < 2 ^ 16)
  | .mainPowerGood .. => true
  | .preChargeContact => true
  | .mainSwitchClose .. => true
  | .presenceAssert .. => true
  | .presenceLoss => true
  | .inputLoss => true
  | .overVoltage => true
  | .componentStartTimeout .. => true
  | .perstAssert => true
  | .drainRequest => true
  | .leverClose => true
  | .ppsEdge => true
  | .timebaseSlewEnd => true
  | .holdoverEnter => true
  | .referenceReturn => true
  | .warmReset .. => true
  | .coldReset .. => true
  | .partitionReset .. => true
  | .issueLimitApply .. => true
  | .clockSettled .. => true
  | .coolingInputStale .. => true
  | .rideThroughExit => true
  | .emergencyStep .. => true
  | .thermalRejoinReady => true
  | .sensorAlertClear .. => true
  | .droopTrip .. => true
  | .droopStretchEnd .. => true
  | .stretchLossWindow .. => true
  | .guardStepReturn .. => true
  | .canaryFail .. => true
  | .canaryTrimDown .. => true
  | .bundleFetch .. => true
  | .next .. => true
  | .loopBegin .. => true
  | .loopEnd .. => true
  | .jump .. => true
  | .stepBegin .. => true
  | .stepEnd .. => true
  | .fence .. => true
  | .laneBeginBundle .. => true
  | .laneWait .. => true
  | .lanePost .. => true
  | .laneWaitAndPost .. => true
  | .scoreboardWait .. => true
  | .clusterDmaIssue .. => true
  | .tile .. => true
  | .readout .. => true
  | .tileRead .. => true
  | .aguStart .. => true
  | .aguAdvance .. => true
  | .aguStop .. => true
  | .localToCluster .. => true
  | .clusterToLocal .. => true
  | .fadd .. => true
  | .fsub .. => true
  | .fmul .. => true
  | .fma .. => true
  | .fmin .. => true
  | .fmax .. => true
  | .fcmplt .. => true
  | .fcmpeq .. => true
  | .iadd .. => true
  | .isub .. => true
  | .imul .. => true
  | .iadds .. => true
  | .isubs .. => true
  | .and .. => true
  | .or .. => true
  | .xor .. => true
  | .shl .. => true
  | .shr .. => true
  | .sar .. => true
  | .cvt .. => true
  | .exp2 .. => true
  | .log2 .. => true
  | .rsqrt .. => true
  | .recip .. => true
  | .rsum .. => true
  | .rmax .. => true
  | .rmin .. => true
  | .rmerge .. => true
  | .vecLoad .. => true
  | .vecStore .. => true
  | .shadow .. => true
  | .flags .. => true
  | .setup .. => true
  | .param .. => true
  | .vecPost .. => true
  | .syncPost .. => true
  | .syncSet .. => true
  | .syncWait .. => true
  | .syncRead .. => true
  | .parityError .. => true
  | .stepDispatch .. => true
  | .stepComplete .. => true
  | .stepEarlyEnd .. => true
  | .stepWatchdogExpiry .. => true
  | .stepReplay .. => true
  | .costTableCommit .. => true
  | .copy .. => true
  | .fill .. => true
  | .pageRead .. => true
  | .pageWrite .. => true
  | .descriptorComplete .. => true
  | .hostReadCompletion .. => true
  | .gcmDecrypt => true
  | .patrolScrub .. => true
  | .pinwheelJob .. => true
  | .deltaJob .. => true
  | .submissionDoorbell .. => true
  | .submissionNop => true
  | .submit .. => true
  | .cancel => true
  | .alloc => true
  | .free => true
  | .dmaCommand .. => true
  | .roundStart .. => true
  | .cowCopyComplete .. => true
  | .waitingPageResume .. => true
  | .epochAdvance => true
  | .prefixRebuild .. => true
  | .rebuildMigrateSet => true
  | .prefixTableSwitch => true
  | .poolRelayout .. => true
  | .completionHeadDoorbell .. => true
  | .msixModerationTimer .. => true
  | .variantRegister .. => true
  | .variantRetire .. => true
  | .variantCheckDone .. => true
  | .zoetropeDoorbell .. => true
  | .openSession => true
  | .feed => true
  | .encode => true
  | .key => true
  | .release => true
  | .flush => true
  | .close => true
  | .entropySwitch .. => true
  | .pictureReconstructStart .. => true
  | .ctuRowDispatch .. => true
  | .pictureOutput .. => true
  | .releaseCounterPost .. => true
  | .encodePicture .. => true
  | .flitReplay .. => true
  | .portDown .. => true
  | .laneOutOfService .. => true
  | .laneRestore .. => true
  | .helloSend .. => true
  | .helloReceive .. => true
  | .equalisationRequest .. => true
  | .packetResend .. => true
  | .sendJob .. => true
  | .trellisPostJob .. => true
  | .reduceJob .. => true
  | .reduceCombine .. => true
  | .bindJob .. => true
  | .trellisJobComplete .. => true
  | .clockStateSend => true
  | .clockStateReceive .. => true
  | .peerLost .. => true
  | .form .. => true
  | .remove .. => true
  | .revocationWaitEnd .. => true
  | .rotateXts .. => true
  | .xtsSweepGranule .. => true
  | .xtsOldZeroize .. => true
  | .rotatePrefix .. => true
  | .attestReq .. => true
  | .certReq .. => true
  | .keyInstall .. => true
  | .keyDropOld .. => true
  | .keyActivation .. => true
  | .ephemeralKeyExpiry .. => true
  | .rmaEntry .. => true
  | .snapshotCut => true
  | .snapshotReceive .. => true
  | .snapshotAck .. => true
  | .snapshotAbandon => true
  | .takeoverStart .. => true
  | .yield => true
  | .followerAdmit .. => true
  | .stepCheckValueReceive .. => true
  | .proofTestResult .. => true
  | .rehearsalStart .. => true
  | .fragmentTimeout .. => true
  | .hello .. => true
  | .auth .. => true
  | .dictRead .. => true
  | .readClamp .. => true
  | .subscribe .. => true
  | .unsubscribe .. => true
  | .notify .. => true
  | .sessionClose .. => true
  | .sessionIdleTimeout .. => true
  | .pavilionRestart .. => true
  | .errorLogRead .. => true
  | .functionQuiesce .. => true
  | .functionDisable .. => true
  | .functionIdle .. => true
  | .poisonedTlp .. => true
  | .updateBegin .. => true
  | .updateVerify .. => true
  | .updateAbort .. => true
  | .activation => true
  | .activationCommit => true
  | .injectedError => true
  | .lossOfLock .. => true
  | .completionTimeout .. => true
  | .pavilionAnsweringAgain => true
  | .icmpv6Message .. => true
  | .segmentStatusChange .. => true
  | .armedInstantExchange .. => true
  | .group63KeyAgreement .. => true

end Sys2Proof
end

