-- ==== Sys2Proof/Decode.lean ====
section
/-! DEFINITION. Words that spell commands. The block takes commands, and the table gives no row any bits, so no word spells one. -/

namespace Sys2Proof

/-- The command that a word of `nbits` bits spells: none, since no row of the table has an encoding. -/
def decodeTableWord (_nbits _w : Nat) : Option Instr := none

end Sys2Proof
end

