-- ==== Sys2Proof/Machine/State.lean ====
section
/-! DEFINITION. The state of the tray as plain data, the reasons a command could stop, and the state after reset. -/

namespace Sys2Proof.Machine

open Sys2Proof

/-! ### Fuses, flash and the tray's power (R394 to R398, R499 to R531) -/

/-- The two parts (R1). -/
inductive PartNo
  | kft4120
  | kft4136
  deriving DecidableEq, Repr

/-- Lifecycle fuse (R394). -/
inductive Lifecycle
  | manufacture
  | secured
  | rma
  deriving DecidableEq, Repr

/-- The fuses of R394. The unique device secret is `Config.uds`. -/
structure Fuses where
  part : PartNo := .kft4136
  serial : BitVec 128 := 0
  lifecycle : Lifecycle := .secured
  rootA : BitVec 768 := 0
  rootB : BitVec 768 := 0
  rootARevoked : Bool := false
  /-- FLOOR_c of components 0 to 15, in order. -/
  floors : List Nat := List.replicate 16 0
  dbgClosed : Bool := true
  deriving DecidableEq, Repr

/-- A firmware image with its manifest (R397). `fieldsDigest` the digest both signatures cover, `bodyDigest` the digest of the body as stored. -/
structure FwImage where
  comp : Nat := 0
  secVer : Nat := 1
  length : Nat := 1
  digest : BitVec 384 := 0
  fieldsDigest : BitVec 384 := 0
  edPub : Nat := 0
  mlPub : Nat := 0
  edSig : Nat := 0
  mlSig : Nat := 0
  bodyDigest : BitVec 384 := 0
  deriving DecidableEq, Repr

/-- Tray flash: images by component, the sequence number of the directory's newer copy, fences, retired granules and kept log records (R470, R515, R540, R543). -/
structure Flash where
  images : SMap FwImage := (List.range 9).map fun c => (c, { comp := c })
  dirSeq : Nat := 0
  /-- The older of the directory's two copies; a commit goes over it (R515). -/
  dirOld : Nat := 0
  fencedQuads : BitVec 16 := 0
  fencedDies : BitVec 4 := 0
  fencedPorts : BitVec 2 := 0
  retired : List Nat := []
  keptLog : List W512 := []
  /-- The device certificate (R395). -/
  certificate : Nat := Config.deviceCert 0 0x4136 (Config.identityKeys Config.uds).1 (Config.identityKeys Config.uds).2
  deriving DecidableEq, Repr

/-- Presence of the tray in its slot (R522). -/
inductive Presence
  | absent
  | asserted
  | lost
  deriving DecidableEq, Repr

/-- A drain request (R529, R530). -/
inductive Drain
  | none
  | inProgress
  | completed
  deriving DecidableEq, Repr

/-- The clock states of R384. -/
inductive ClockState
  | run
  | sleep
  | deepSleep
  deriving DecidableEq, Repr

/-- The power domains of H (R18) and the auxiliary rail. -/
structure HubPower where
  aux : Bool := false
  gatehouse : Bool := false
  hubCommon : Bool := false
  pavilion : Bool := false
  carouselDma : Bool := false
  hbmA : Bool := false
  hbmB : Bool := false
  pcie : Bool := false
  trellis : Bool := false
  zoetrope : Bool := false
  deriving DecidableEq, Repr

/-- An entry of the measurement list (R398). -/
structure Measurement where
  comp : Nat
  secVer : Nat
  digest : BitVec 384
  deriving DecidableEq, Repr

/-- Input, switches, presence, lever, domains and boot (R500 to R531). -/
structure TrayS where
  /-- The pre-charge contacts have made (R525). -/
  preCharge : Bool := false
  mainSwitch : Bool := false
  mainGood : Bool := false
  /-- Elapsed ns at main power good (R503 counts from it). -/
  powerGoodAt : Nat := 0
  presence : Presence := .absent
  strapsSampled : Bool := false
  slotId : BitVec 4 := 0
  /-- The straps failed their parity (R523). -/
  strapBad : Bool := false
  leverOpen : Bool := false
  drain : Drain := .none
  /-- Elapsed ns of the drain request (R529). -/
  drainAt : Nat := 0
  /-- A warm reset's removals are not all done (R506, R508). -/
  resetting : Bool := false
  ready : Bool := false
  failed : Bool := false
  /-- The failure was declared for thermal cause (R368). -/
  failedThermal : Bool := false
  clockState : ClockState := .run
  hub : HubPower := {}
  /-- Die-common domains (R16). -/
  dieOn : BitVec 4 := 0
  /-- Quadrant domains (R16). -/
  quadOn : BitVec 16 := 0
  /-- Stacks hold self-refresh (R435). -/
  selfRefresh : Bool := false
  measurements : List Measurement := []
  deriving DecidableEq, Repr

/-! ### Clocks and timebase (R378 to R393) -/

/-- OD 0x1102 (R388). -/
inductive TbMode
  | free
  | locked
  | holdover
  deriving DecidableEq, Repr

/-- The judgement of a clock (R380). -/
structure Judgement where
  stable : Bool := true
  passes : Nat := 0
  /-- Elapsed ns at which it was judged stable. -/
  since : Nat := 0
  deriving DecidableEq, Repr

/-- A domain stopped by a source switch (R382, R383). -/
structure ClkHalt where
  /-- Elapsed ns at which the domain restarts, its cycles of R378 lost. -/
  until_ : Nat
  /-- The source that it left. -/
  old : Nat
  /-- The new source was judged unstable meanwhile: a switch back follows. -/
  back : Bool := false
  deriving DecidableEq, Repr

/-- Clocks and the timebase. `now` is elapsed time in ns, the timebase less its steps (R390): slews move it, and it runs from power-on to power-on. -/
structure ClockS where
  now : Nat := 0
  /-- OD 0x1100 (R387). -/
  timebase : BitVec 64 := 0
  mode : TbMode := .free
  /-- The last valid edge: its elapsed time and its timestamp as the timebase then read, steps since applied (R387). -/
  lastEdge : Option (Nat × BitVec 64) := none
  /-- A slew is in progress, and the error it has still to remove, ns (R388). -/
  slewing : Bool := false
  slew : Int := 0
  /-- Timebase cycles since the slew last moved the timebase by one. -/
  slewPhase : Nat := 0
  /-- The last 32 steps, newest first: elapsed time and amount added to the timebase (R390). -/
  steps : List (Nat × Int) := []
  /-- Judgements by domain subindex − 1; 40 the TCXO, 41 REFCLK. -/
  judged : SMap Judgement := []
  /-- Source in use by domain subindex − 1 where it differs from the default of R378. -/
  source : SMap Nat := []
  /-- Domains whose stored source waits for its judgement, or for a switch that has not ended (R382, R383). -/
  switching : List Nat := []
  /-- Domains stopped by a switch. -/
  halts : SMap ClkHalt := []
  deriving DecidableEq, Repr

/-! ### Weathervane (R347 to R377, R547) -/

/-- Alert of a sensor pair (R364). -/
inductive PairAlert
  | none
  | warning
  | alarm
  deriving DecidableEq, Repr

/-- A sensor pair: its readings, governing temperature and alert (R364), in 0.01 °C. -/
structure PairS where
  a : Int := 0
  b : Int := 0
  gov : Option Int := some 0
  alert : PairAlert := .none
  /-- Elapsed ns since which the pair has agreed within 3 °C, both in range. -/
  agreeSince : Option Nat := none
  deriving DecidableEq, Repr

/-- A quadrant's agent: clock, limits, ballast, droop, margin and measured power. -/
structure QuadW where
  /-- Set frequency in MHz, 0 when powered off (R348, R385). -/
  clock : Nat := 0
  /-- A raised setting not yet settled (R348). -/
  raising : Option Nat := none
  /-- The synthesiser still settles after a lowering, the clock stretched (R348). -/
  lowering : Bool := false
  /-- Setting and issue limit waiting for the next beat boundary (R26, R136). -/
  nextClock : Option Nat := none
  /-- Setting to which the agent lowers the clock at the next beat boundary for droop (R347, R370). -/
  droopTo : Option Nat := none
  /-- Ballast level that waits for the next beat boundary (R347). -/
  nextBallast : Option Nat := none
  nextRung : Option Nat := none
  /-- Rung of the issue ladder in force, 0 for CLASS_LIMIT 255 (R359). -/
  rung : Nat := 0
  ballastMw : Nat := 0
  /-- Ceiling set by temperature, MHz, and the temperature that set it (R362). -/
  tempCeil : Nat := 1500
  tempCeilAt : Int := 0
  emergency : Bool := false
  /-- Elapsed ns of the next step of an emergency (R363). -/
  stepAt : Nat := 0
  /-- Sum of the clock over the samples of the present 100 µs, and its mean over the last (R375). -/
  clkAcc : Nat := 0
  clkAvg : Nat := 0
  powerMw : Nat := 0
  staticMw : Nat := 0
  demandMw : Nat := 0
  /-- Elapsed ns to which a waiting quadrant keeps its demand (R354). -/
  holdUntil : Nat := 0
  /-- Onset and level of a droop stretch in progress (R369). -/
  stretch : Option (Nat × Nat) := none
  /-- Time added by stretching in the present 100 µs window, in ps (R370). -/
  stretchAdded : Nat := 0
  guard : Nat := 0
  /-- Windows since the last one that reached 1 % (R370). -/
  quietWindows : Nat := 0
  /-- Elapsed ns of the last canary failure or trim (R371). -/
  canarySince : Nat := 0
  /-- Trim still to be made, mV, and elapsed ns of the last 5 mV of it (R371). -/
  trimDue : Int := 0
  trimAt : Option Nat := none
  causes : Byte := 0
  deriving DecidableEq, Repr

/-- The governor, cooling and temperatures. -/
structure WeatherS where
  quads : SMap QuadW := []
  pairs : SMap PairS := []
  hbmTemp : SMap Int := []
  /-- Stacks whose reading is out of range (R364). -/
  hbmBad : List Nat := []
  /-- Stacks whose refresh is doubled (R361, R364). -/
  hbmRefresh : List Nat := []
  /-- Ceiling that a stack sets for the quadrants of its die, MHz, and the temperature that set it (R362). -/
  hbmCeil : SMap (Nat × Int) := []
  inlet : Option Int := none
  /-- The own inlet sensor reads out of range (R365). -/
  inletBad : Bool := false
  outlet : Int := 0
  tin : Int := 2500
  /-- T_in has been taken; until then OD 0x1503.03 reads 0 (R376). -/
  tinTaken : Bool := false
  /-- T_in is measured or fresh, not the 45 °C of R365. -/
  tinReal : Bool := false
  /-- Changes of the own inlet reading over the last 60 s, newest first: elapsed ns, 0.01 °C (R365, R367). -/
  inletHist : List (Nat × Int) := []
  /-- Elapsed ns of the last write of OD 0x1504.01 to .04; none before any, or once stale. -/
  coolAt : SMap Nat := []
  /-- Coolant flow written in the last 2 s, newest first (R367). -/
  flowHist : List (Nat × Nat) := []
  rideThrough : Bool := false
  /-- Elapsed ns since which flow and inlet have been in range (R367). -/
  rideOkSince : Option Nat := none
  /-- Elapsed ns since which T_in has been at or below 45 °C (R368). -/
  coolSince : Option Nat := none
  rejoinReady : Bool := false
  shuttingDown : Bool := false
  /-- Input power samples of the present 100 µs: sum in mW and count (R375). -/
  acc : Nat × Nat := (0, 0)
  /-- The 100 µs averages of the last second, newest first, mW. -/
  avgs : List Nat := []
  /-- 100 µs averages completed, and how many of them R350 has judged. -/
  avgTotal : Nat := 0
  judgedTo : Nat := 0
  /-- The last interval judged was a ramp breach. -/
  breach : Bool := false
  /-- Partitions whose ballast the last cycle could not raise (R355, R357). -/
  rampFree : List Nat := []
  inputMw : Nat := 0
  /-- Elapsed ns since which the input power has been above the peak cap, and the onset of the latest such excursion (R349, R351). -/
  overSince : Option Nat := none
  lastOver : Option Nat := none
  /-- Elapsed ns at which a lowering write of OD 0x1400.01 committed (R359). -/
  capWriteAt : Option Nat := none
  /-- The derating of the forecast inlet as moved at the down-ramp, mW (R366). -/
  effCapMw : Nat := 1200000
  pneedMw : Nat := 0
  causes : Byte := 0
  zoetropeHalved : Bool := false
  deriving DecidableEq, Repr

/-! ### Bundle sequencers and lanes (R98 to R128) -/

/-- A slice in a lane's queue (R121). -/
structure Slice where
  idle : Bool
  bits : BitVec 496
  rep : Nat
  pwr : Byte
  fence : Bool
  stepEnd : Bool
  deriving DecidableEq, Repr

/-- A step dispatched to a context (R124). -/
structure Dispatch where
  stepId : Nat
  entry : Nat
  params : List W32
  deriving DecidableEq, Repr

/-- A stream context (R98). -/
structure Context where
  part : Option PartId := none
  laneMask : Byte := 0
  /-- Granules of bundle instruction memory, ascending (R99). -/
  granules : List Nat := []
  setupBase : Nat := 0
  params : List W32 := List.replicate 8 0
  loops : List Nat := List.replicate 8 0
  ptr : Nat := 0
  /-- Fetch is pending: a step runs and its STEP_END has not been fetched. -/
  fetching : Bool := false
  /-- Header of the bundle fetched, whose SEQOP is not yet resolved. -/
  latch : Option (BitVec 128) := none
  step : Option Dispatch := none
  held : Option Dispatch := none
  /-- Fault code of R126 with which the step ended early. -/
  fault : Option (Fin 5) := none
  /-- Steps that the context has begun (the model's own count, by which a late descriptor knows its step). -/
  runs : Nat := 0
  deriving DecidableEq, Repr

/-- CVU context of a cluster DMA channel (R428). -/
structure LaneCvu where
  setting : BitVec 256 := 0
  resAddr : Nat := 0
  saveAddr : Nat := 0
  en : Bool := false
  restore : Bool := false
  save : Bool := false
  run : BitVec 64 := 0
  deriving DecidableEq, Repr

/-- A lane with its sync table, scoreboard and channel cursors (R105 to R112, R125). -/
structure Lane where
  queue : List Slice := []
  cur : Option Slice := none
  beatsLeft : Nat := 0
  gapLeft : Option Nat := none
  waitDone : Bool := false
  sbDone : Bool := false
  postDue : Bool := false
  ended : Bool := false
  sb : SMap Nat := []
  table : List (BitVec 128) := []
  targets : SMap W32 := []
  cursors : SMap (Nat × Nat) := []
  cvu : SMap LaneCvu := []
  deriving DecidableEq, Repr

/-- Bundle sequencers, instruction memory, contexts and lanes. -/
structure SeqS where
  /-- Bundles by 8,192 × die + bundle of the die. -/
  imem : SMap (BitVec 4096) := []
  /-- Owner tags of written bundles, by the same number (R99). -/
  imemOwner : SMap (BitVec 6) := []
  ctxs : SMap Context := []
  lanes : SMap Lane := []
  /-- Context fetched last on each die (R121). -/
  lastFetched : SMap Nat := []
  deriving DecidableEq, Repr

/-! ### Cores, engines, vector units (R64 to R80, R183) -/

/-- One accumulator: exact sum and sticky bits (R41 to R43). -/
structure Acc where
  v : BitVec 96 := 0
  nan : Bool := false
  pinf : Bool := false
  ninf : Bool := false
  sat : Bool := false
  deriving DecidableEq, Repr

/-- A row of an accumulator set, which is one anchor group: its anchor, its SPECIAL and SAT bits, its 32 accumulators (R36, R42, R43, R64, R67). -/
structure AccRow where
  anchor : Int := 0
  /-- Records of unequal anchors met in the row (R72). -/
  bad : Bool := false
  nan : Bool := false
  pinf : Bool := false
  ninf : Bool := false
  sat : Bool := false
  cells : List (BitVec 96) := []
  deriving DecidableEq, Repr

/-- An AGU slot: its descriptor and running state (R181, R183). -/
structure AguSlot where
  desc : W512 := 0
  active : Bool := false
  pos : Int := 0
  cblk : Int := 0
  step : Nat := 0
  /-- LINEAR: base as moved by ADVANCE, and lines issued since START or ADVANCE (R182). -/
  base : Int := 0
  lines : Nat := 0
  deriving DecidableEq, Repr

/-- A core. -/
structure Core where
  /-- Vector registers of 64 lanes by number; unlisted reads zero. -/
  vregs : SMap (List W32) := []
  /-- Predicate registers; register 0 reads all ones (R117). -/
  preds : SMap (BitVec 64) := []
  setups : SMap (BitVec 64) := []
  vtable : SMap (BitVec 64) := []
  flags : BitVec 4 := 0
  /-- AGU slots by 16 × AGU + slot. -/
  slots : SMap AguSlot := []
  /-- Local DMA slots: local line, cluster line (R120). -/
  ldma : SMap (BitVec 14 × BitVec 15) := []
  addrFault : Bool := false
  /-- Accumulator sets by 2 × engine + set. -/
  accs : SMap (List AccRow) := []
  /-- Set of the next tile, by engine (R67). -/
  nextSet : SMap Bool := []
  deriving DecidableEq, Repr

/-- A sync counter. Operations of one quadrant cycle commit together (R88): `base` is the value at the start of cycle `cyc`, `set` the SET of that cycle with its source's location, `posts` the sum of its POSTs. -/
structure Counter where
  base : W32 := 0
  cyc : Nat := 0
  set : Option (Nat × W32) := none
  posts : W32 := 0
  deriving DecidableEq, Repr

/-! ### Memory and DMA (R138 to R170) -/

/-- State of a granule (R148). -/
inductive GState
  | free
  | owned
  | revoking
  | scrubbing
  deriving DecidableEq, Repr

/-- An entry of the partition map (R148). `zeroKey` is the model's own: the key under which the granule's never written lines decrypt (R417). -/
structure Granule where
  st : GState := .scrubbing
  owner : BitVec 6 := 0x3F
  slot : BitVec 6 := 0
  gen : BitVec 4 := 0
  wp : Bool := false
  pool : Bool := false
  zeroKey : Nat := 0
  deriving DecidableEq, Repr

/-- Owner tag and written bit of an on-chip line (R90). -/
structure LineTag where
  tag : BitVec 6 := 0
  written : Bool := false
  deriving DecidableEq, Repr

/-- HBM, on-chip stores with an address, the partition map and the controllers. -/
structure MemS where
  /-- HBM plaintext by tray physical address; an unlisted byte has not been written since its granule was scrubbed. -/
  hbm : List Host.Cell := []
  /-- On-chip windows by tray physical address (R145); an unlisted byte is zero. -/
  sram : List Host.Cell := []
  /-- Tags of on-chip lines by line address. -/
  lines : SMap LineTag := []
  /-- Entries of the partition map that differ from `mapBase`. -/
  granules : SMap Granule := []
  mapBase : Granule := {}
  /-- Time and temperature of the last retraining, by 64 × stack + pseudo-channel (R391). -/
  retrain : SMap (Nat × Int) := []
  /-- Full patrols done and the elapsed time of the last, by stack (R141). -/
  patrols : SMap (Nat × Nat) := []
  deriving DecidableEq, Repr

/-- Where a descriptor comes from. -/
inductive JobOrigin
  | lane (c : Clus) (ctx : Ctx)
  | host (f : Vf) (cring : Nat) (hostTag : BitVec 64)
  | tray
  deriving DecidableEq, Repr

/-- A descriptor issued to an engine. -/
structure Job where
  desc : W512
  /-- Partition of the issuing unit (R162). -/
  part : Option PartId
  origin : JobOrigin
  /-- Key slot generation that was CUR at issue, for GCM (R412). -/
  gen : Nat := 0
  /-- `runs` of its lane's context at issue. -/
  run : Nat := 0
  /-- Zero rows after substitution (R161). -/
  empty : Bool := false
  status : Option (Fin 11) := none
  /-- Epoch in which page reads were registered, and how many are not released (R166). -/
  reads : Nat × Nat := (0, 0)
  /-- Tag of its outstanding host read. -/
  hostTag : Option Nat := none
  hostData : Option (List Byte) := none
  /-- A GCM descriptor holds a staging buffer (R168). -/
  staged : Bool := false
  deriving DecidableEq, Repr

/-- The DMA engines. Queues by engine: 2 × cluster + channel, 64 + die, 68 the hub DMA. -/
structure DmaS where
  queues : SMap (List Job) := []
  /-- Staging buffers in use (R168). -/
  staging : Nat := 0
  nextTag : Nat := 0
  /-- Outstanding non-posted reads: tag and function. -/
  outstanding : SMap Nat := []
  /-- Abandoned tags not to be reused yet (R494). -/
  abandoned : List Nat := []
  deriving DecidableEq, Repr

/-- Job lists of a die's Pinwheel and delta engine for the step in flight (R200, R278). -/
structure DieJobs where
  pinwheel : List (BitVec 1024) := []
  delta : List W512 := []
  /-- Partition whose step brought each list. -/
  pinwheelFor : Nat := 0x3F
  deltaFor : Nat := 0x3F
  deriving DecidableEq, Repr

/-! ### Carousel (R238 to R270) -/

/-- States of a request (R246). -/
inductive ReqState
  | free | admitted | prefill | decode | paused | waitingPage | draining | done | cancelled | failed
  deriving DecidableEq, Repr

/-- A request table entry (R241) with what the Carousel's working state keeps beside it (R239). -/
structure Req where
  st : ReqState := .free
  gen : Nat := 0
  part : Nat := 0
  cring : Nat := 0
  classE : Bool := false
  prio : Nat := 0
  service : Nat := 0
  cxl : Bool := false
  ttftMiss : Bool := false
  risk : Bool := false
  outTray : Bool := false
  variant : Nat := 0
  maxLen : Nat := 0
  promptLen : Nat := 0
  len : Nat := 0
  recDie : Nat := 0
  recFrame : Nat := 0
  recFrames : Nat := 0
  ttft : Nat := 0
  tbt : Nat := 0
  tArrive : Nat := 0
  tLast : Nat := 0
  /-- Arrival and last commit in elapsed time (R390). -/
  arriveAt : Int := 0
  lastAt : Int := 0
  tbtMisses : Nat := 0
  hostTag : BitVec 64 := 0
  outAddr : Nat := 0
  inAddr : Nat := 0
  inTray : Bool := false
  /-- Tokens to be run before LEN counts them all: the prompt length beyond what is in pages. -/
  prefillTo : Nat := 0
  /-- The sequence's first token has been delivered. -/
  started : Bool := false
  /-- Page table entries by layer × B_max + block (R214). -/
  pages : SMap (BitVec 32) := []
  bmax : Nat := 0
  layers : Nat := 0
  /-- Bytes of the sequence record (R214). -/
  recBytes : Nat := 0
  /-- Token log (R214). -/
  tokens : List W32 := []
  /-- Prompt tokens that come from the submission start here (R227). -/
  promptAt : Nat := 0
  /-- Unallocated Class G reservation, by home die (R233). -/
  reserved : List Nat := [0, 0, 0, 0]
  /-- Frames that forks of this sequence added to its reservation, by home die (R233). -/
  extra : List Nat := [0, 0, 0, 0]
  /-- Tokens whose pages came from the prefix index (R226). -/
  matchedTo : Nat := 0
  /-- First tokens of the blocks beyond LEN whose pages have kept their content (R443, R540). -/
  ahead : List Nat := []
  forkParent : Option Nat := none
  /-- Prefix matching has been done (R226). -/
  matched : Bool := false
  forkPending : Bool := false
  ioSlot : Option Nat := none
  /-- Cost entries of its service's prefill and decode step at its admission, which it keeps (R26). -/
  costPre : Option (BitVec 256) := none
  costDec : Option (BitVec 256) := none
  /-- Order of admission, and of the last step's end. -/
  order : Nat := 0
  lastStep : Nat := 0
  waitSince : Nat := 0
  /-- Code of the FINAL completion when it ends (R253). -/
  final : Nat := 0
  deriving DecidableEq, Repr

/-- A submission entry taken from a ring (R250). -/
structure Taken where
  f : Vf
  ring : Fin 8
  entry : W512
  tArrive : Nat
  /-- Elapsed time of the doorbell (R390). -/
  arriveAt : Nat
  /-- A LOAD_IMAGE or ALLOC that waits (R128, R502). -/
  waiting : Bool := false
  deriving DecidableEq, Repr

/-- A batch entry of a step in flight (R245). -/
structure BatchE where
  handle : Nat
  len : Nat
  new : Nat
  emit : Bool
  deriving DecidableEq, Repr

/-- What a step in flight serves. -/
structure StepRun where
  stepId : Nat
  service : Nat
  prefill : Bool
  batch : List BatchE
  buffer : Nat
  params : List W32
  quads : BitVec 16
  dispatched : Nat
  dispatchedTb : BitVec 64
  /-- Elapsed time of the latest dispatch, a replay counted (R133). -/
  startedAt : Nat
  /-- Contexts dispatched to. -/
  ctxs : List Nat
  /-- Cost C in beats (R130), and down-spread depth at dispatch, from which the step time bound T follows (R131). -/
  cost : Nat
  depth : Nat
  excluded : Nat := 0
  replays : Nat := 0
  fault : Option (Fin 5) := none
  /-- The step has ended with parity and waits for its replay (R538). -/
  ended : Bool := false
  injected : Bool := false
  /-- Cabinet counters of the partition at dispatch (R538). -/
  cabinet : SMap Counter := []
  fenced : Bool := false
  /-- Its overrun has been counted and reported (R126, R132). -/
  overrun : Bool := false
  /-- Numeric flags that the reduction unit raised in its jobs (R340). -/
  flags : BitVec 4 := 0
  deriving DecidableEq, Repr

/-- The completion report of a step (R126). -/
structure StepReport where
  stepId : Nat
  flags : BitVec 4
  /-- Timebase times of dispatch and completion. -/
  dispatched : BitVec 64
  completed : BitVec 64
  overrun : Bool
  fault : Fin 5
  deriving DecidableEq, Repr

/-- A page copy under R218. -/
structure CowCopy where
  handle : Nat
  index : Nat
  oldFrame : Nat
  newFrame : Nat
  /-- Its frame came from those that forks added to the reservation (R233). -/
  fromExtra : Bool := false
  /-- Status with which its descriptor has completed. -/
  status : Option (Fin 11) := none
  deriving DecidableEq, Repr

/-- A round of a partition (R257): the stages still to run, as (service, prefill). -/
structure Round where
  stages : List (Nat × Bool) := []
  copies : List CowCopy := []
  /-- Handles whose copies wait for frames to leave QUARANTINE (R218, R234). -/
  due : List Nat := []
  /-- Costed time of the round, for R_cur (R259): beats at the floor, and ns of dispatch gaps. -/
  beats : Nat := 0
  gaps : Nat := 0
  classE : Bool := false
  /-- Class E requests included (R263). -/
  included : List Nat := []
  /-- On a follower, the leader's batch that the round runs (R445). -/
  leader : Option (List BatchE) := none
  deriving DecidableEq, Repr

/-- An image loaded into a partition's contexts (R128). -/
structure Loaded where
  img : Image
  /-- Services that refuse SUBMITs after a fault (R262, R540). -/
  faulted : List Nat := []
  /-- Batch buffer used next, by service (R244). -/
  buffers : SMap Nat := []
  deriving DecidableEq, Repr

/-- The Carousel. -/
structure CarS where
  reqs : SMap Req := []
  /-- Handles of the entries in the request-table cache, the one last changed first (R238, R239). -/
  cached : List Nat := []
  taken : List Taken := []
  images : SMap Loaded := []
  /-- Loads that wait for the last Class G request under R135, by partition. -/
  pendingLoads : SMap (List (Taken × Image)) := []
  rounds : SMap Round := []
  steps : SMap StepRun := []
  /-- The latest completion report of each partition (R126). -/
  reports : SMap StepReport := []
  /-- Completion backlog by 9 × function + ring (R254). -/
  backlog : SMap (List (BitVec 256)) := []
  nextOrder : Nat := 0
  /-- Submissions taken, by 8 × function + ring, modulo 2³² (R255). -/
  subCount : SMap W32 := []
  /-- Partition whose dispatches a load holds (R128). -/
  loadHold : List Nat := []
  /-- Completions held for comparison, by partition: pair step sequence number, ring, entry (R446). -/
  heldOut : SMap (List (Nat × Nat × BitVec 256)) := []
  deriving DecidableEq, Repr

/-! ### KV page store and prefix index (R207 to R237) -/

/-- State of a frame (R216). -/
inductive FState
  | free
  | inUse
  | quarantine
  | fenced
  deriving DecidableEq, Repr

/-- A frame table entry (R216). -/
structure Frame where
  ref : Nat := 0
  st : FState := .free
  /-- DEC_EPOCH, in full, kept over FREE and the next use; none where REF has never been decremented since the pool was laid out. -/
  decEpoch : Option Nat := none
  /-- Allocated to a Class E sequence (R233). -/
  classE : Bool := false
  deriving DecidableEq, Repr

/-- An extent of a pool on a die (R215): its granules in ascending order, metadata first. -/
structure Extent where
  die : Nat
  granules : List Nat
  deriving DecidableEq, Repr

/-- A block record (R223). -/
structure BlockRec where
  hash : BitVec 64
  kvId : BitVec 64
  variant : Nat
  parent : Nat
  layers : Nat
  tok : Nat
  tokens : List W32
  frames : List Nat
  /-- Place in the order of insertion (R439). -/
  order : Nat := 0
  deriving DecidableEq, Repr

/-- A partition's KV pool. -/
structure Pool where
  extents : List Extent := []
  /-- Page size is 16 KiB × 2^pageExp once an image has fixed it. -/
  pageExp : Option Nat := none
  /-- Frame table by frame number. -/
  frames : SMap Frame := []
  recs : SMap BlockRec := []
  /-- Records the pool holds in all (R215). -/
  recCount : Nat := 0
  /-- Blocks inserted so far (R439). -/
  inserted : Nat := 0
  /-- A lowered pool or a changed page size waits for its frames (R215). -/
  relayout : Bool := false
  deriving DecidableEq, Repr

/-- A valid way of the prefix index (R224). -/
structure IdxWay where
  hash : BitVec 64
  brec : Nat
  part : Nat
  lastUse : W32
  deriving DecidableEq, Repr

/-- A rebuild in progress (R228). -/
structure Rebuild where
  nextSet : Nat := 0
  /-- Elapsed ns at which the last set was finished. -/
  finishedAt : Option Nat := none
  queued : Bool := false
  removed : List Nat := []
  rotated : List Nat := []
  retired : List (Nat × Nat) := []
  /-- Waiting for the queued rebuild. -/
  queuedRotated : List Nat := []
  queuedRetired : List (Nat × Nat) := []
  deriving DecidableEq, Repr

/-- The KV page store. -/
structure KvS where
  pools : SMap Pool := []
  /-- E (R219). -/
  epoch : Nat := 0
  /-- In-flight read counters by epoch mod 4. -/
  inflight : List Nat := [0, 0, 0, 0]
  /-- An advance is due at the next drain (R219). -/
  advanceDue : Bool := false
  /-- Wₚ still in force above the value of OD 0x3030, by partition, until the next rebuild (R225). -/
  waysHeld : List Nat := []
  /-- Tables A and B: valid ways by 16 × set + way. -/
  tableA : SMap IdxWay := []
  tableB : SMap IdxWay := []
  saltA : BitVec 64 := 0
  saltB : BitVec 64 := 0
  /-- G: table B is live. -/
  liveB : Bool := false
  rebuild : Option Rebuild := none
  deriving DecidableEq, Repr

/-! ### Variants (R271 to R289) -/

/-- States of a variant (R285). -/
inductive VState
  | loading
  | active
  | retiring
  deriving DecidableEq, Repr

/-- A registered variant: unlisted is FREE. -/
structure Variant where
  st : VState
  addr : Nat
  /-- Part addresses by die, and their sizes in granules. -/
  parts : List (Nat × Nat × Nat) := []
  tiles : Nat := 0
  /-- RETIRING: its rebuild has been started (R285). -/
  rebuilding : Bool := false
  deriving DecidableEq, Repr

/-! ### Zoetrope (R290 to R315) -/

/-- Output mark of a slot (R304). -/
inductive OutMark
  | none
  | pending
  | held
  deriving DecidableEq, Repr

/-- A pool slot of a decode session. -/
structure VSlot where
  refMark : RefMark := .none
  out : OutMark := .none
  decoding : Bool := false
  /-- The picture in it. -/
  head : Option PicHead := none
  tainted : Bool := false
  concealed : Nat := 0
  /-- Order of decoding, of output, and IRAP pictures begun up to it. -/
  decodeOrder : Nat := 0
  outputOrder : Nat := 0
  irapNo : Nat := 0
  /-- The access unit of its picture, or, of a generated one, that of the picture it is generated for (R309). -/
  unit : Nat := 0
  rowsDone : Nat := 0
  /-- Time of the last byte's FEED (R300). -/
  lastByte : Option Nat := none
  late : Bool := false
  hostTag : BitVec 64 := 0
  deriving DecidableEq, Repr

/-- An access unit of a session's stream (R300, R301). -/
structure AUnit where
  no : Nat
  /-- Bytes fed before its first. -/
  start : Nat := 0
  bytes : List Byte := []
  /-- Its last byte has been fed, or a FLUSH has ended it. -/
  done : Bool := false
  /-- Time of the FEED with EOA = 1, and the tag of the last FEED. -/
  lastAt : Option Nat := none
  tag : BitVec 64 := 0
  /-- Its syntax records have begun; CTUs recorded so far; it has been parsed to its end. -/
  begun : Bool := false
  ctus : Nat := 0
  parsed : Bool := false
  /-- CTUs that errors have taken (R307). -/
  lost : List Nat := []
  /-- Discarded: what is still fed of it is dropped. -/
  void : Bool := false
  deriving DecidableEq, Repr

/-- A chunk of the entropy–pixel buffer (R294): its owner tag, the access unit, and the CTUs recorded up to its end. -/
structure SynChunk where
  tag : Nat
  unit : Nat
  upTo : Nat
  deriving DecidableEq, Repr

/-- An input picture queued by ENCODE (R310). -/
structure EncPic where
  y : Nat
  u : Nat
  v : Nat
  yPitch : Nat
  cPitch : Nat
  pts : Nat
  keypic : Bool
  hostTag : BitVec 64
  takenAt : Nat
  deriving DecidableEq, Repr

/-- A FLUSH in progress (R314): its tag, the access units and the input pictures before it. -/
structure VFlush where
  tag : BitVec 64
  units : Nat
  pics : Nat
  deriving DecidableEq, Repr

/-- An open session (R296 to R314). -/
structure VSession where
  f : Vf
  desc : BitVec 1024
  slots : SMap VSlot := []
  /-- Bytes fed since OPEN, and the access units not yet reconstructed (R292, R301). -/
  stream : List Byte := []
  units : List AUnit := []
  nextUnit : Nat := 0
  waitKey : Bool := false
  /-- The next IRAP picture begins a coded sequence; RASL pictures are discarded (R307). -/
  seqStart : Bool := true
  raslOff : Bool := false
  /-- Chunks of the entropy–pixel buffer it holds (R294). -/
  records : List SynChunk := []
  /-- Pictures that may be reordered, and decoded while one waits for output (R291, R304). -/
  reorder : Nat := 0
  latency : Nat := 0
  /-- Pool slot in reconstruction. -/
  recon : Option Nat := none
  /-- Pictures begun, IRAP pictures begun, pictures output. -/
  decoded : Nat := 0
  iraps : Nat := 0
  output : Nat := 0
  /-- Access unit of the latest IRAP picture begun (R309). -/
  irapUnit : Nat := 0
  /-- The FLUSH commands in progress, in order. -/
  flushing : List VFlush := []
  accessErr : Bool := false
  bucket : Nat := 0
  lastPts : Option Nat := none
  /-- Last coded picture of a type: bits and QP (R311). -/
  lastKey : Option (Nat × Nat) := none
  lastP : Option (Nat × Nat) := none
  sinceKey : Nat := 0
  keyWanted : Bool := false
  encoded : Nat := 0
  inputs : List EncPic := []
  /-- Reconstructions of the latest pictures coded, the most recent first: the references of the next (R310). -/
  refPics : List (List Byte) := []
  /-- Bits slots held, and the next slot. -/
  bitsHeld : Nat := 0
  nextBits : Nat := 0
  deriving DecidableEq, Repr

/-- A Zoetrope command taken from a ring. -/
structure ZTaken where
  f : Vf
  entry : W512
  takenAt : Nat
  deriving DecidableEq, Repr

/-- Zoetrope. -/
structure ZoeS where
  sessions : SMap VSession := []
  /-- Generations by session number. -/
  gens : SMap Nat := []
  taken : List ZTaken := []
  /-- Session of each decode entropy engine. -/
  entropy : SMap Nat := []
  /-- Release counters by session number (R306). -/
  releases : SMap W32 := []
  deriving DecidableEq, Repr

/-! ### Trellis (R316 to R346) -/

/-- State of a port (OD 0x6000). -/
inductive PortState
  | down
  | training
  | hello
  | up
  | refused
  deriving DecidableEq, Repr

/-- A port. -/
structure Port where
  enabled : Bool := false
  st : PortState := .down
  lanes : Nat := 0
  badLanes : BitVec 8 := 0
  peerGen : Nat := 0
  refusal : Nat := 0
  cabinet : BitVec 64 := 0
  txSeq : Nat := 0
  rxExpect : Nat := 0
  /-- A flit has been received in order since link-up. -/
  rxAny : Bool := false
  /-- Unacknowledged flits, oldest first: sequence number, bits, and times in a row replayed (R320). -/
  unacked : List (Nat × BitVec 2048 × Nat) := []
  /-- Flit payloads that wait to be sent, oldest first: virtual channel, partition (63 for group 63) and at most 248 bytes. -/
  txq : List (Nat × Nat × List Byte) := []
  /-- Flits sent by 64 × virtual channel + partition, for the round robin (R321). -/
  served : SMap Nat := []
  /-- Credits by virtual channel (R321). -/
  credits : SMap Nat := []
  /-- Elapsed ns of the last equalisation request, by lane (R326). -/
  eqAt : SMap Nat := []
  deriving DecidableEq, Repr

/-- A packet kept until it is acknowledged (R332). -/
structure OutPkt where
  dst : Nat
  group : Nat
  seq : Nat
  pkt : Packet
  port : Nat
  sentAt : Nat
  resends : Nat := 0
  checkNaks : Nat := 0
  /-- The job that sent it; none for group 63. -/
  job : Option Nat
  deriving DecidableEq, Repr

/-- Receive window (R332): highest contiguous SEQ and the packets marked above it. -/
structure RxWin where
  high : Nat := 0
  marked : List Nat := []
  deriving DecidableEq, Repr

/-- Bytes of a job that wait for room in the window of R332: destination, source address, window offset, length and the counter that their blocks post. -/
structure TxRun where
  dst : Nat
  src : Nat
  off : Nat
  len : Nat
  post : Option Nat := none
  deriving DecidableEq, Repr

/-- A Trellis job (R334). -/
structure TJob where
  bits : BitVec 1024
  ctx : Nat
  part : PartId
  started : Bool := false
  left : List TxRun := []
  combined : Bool := false
  deriving DecidableEq, Repr

/-- A peer's latest clock-state block (R343). -/
structure PeerClock where
  mhz : Nat := 0
  causes : Byte := 0
  at_ : Nat := 0
  lost : Bool := false
  /-- Lowest clock announced, by partition (R344). -/
  byPart : SMap Nat := []
  deriving DecidableEq, Repr

/-- Trellis. -/
structure TrellisS where
  ports : SMap Port := []
  jobs : SMap TJob := []
  nextJob : Nat := 0
  /-- Send sequence numbers by 1,024 × destination + 16 × group + generation, for WRITE and POST, and for ACK and NAK (R329). -/
  txSeq : SMap Nat := []
  txAck : SMap Nat := []
  pending : List OutPkt := []
  /-- By 1,024 × source + 16 × group + generation, as SEQ counts by generation (R329). -/
  rx : SMap RxWin := []
  cabinet : SMap Counter := []
  /-- Cabinet counter to 512 × cluster + counter (R337). -/
  binds : SMap Nat := []
  peers : SMap PeerClock := []
  /-- Data of the group 63 packets that wait for room in the windows of R332, oldest first. -/
  g63 : List (List Byte) := []
  deriving DecidableEq, Repr

/-! ### Gatehouse (R394 to R421) -/

/-- Kind of a key slot (R402). -/
inductive SlotKind
  | free
  | xts
  | siphash
  | gcm
  | trellis
  deriving DecidableEq, Repr

/-- A key slot (R402). Keys are held by generation. -/
structure KeySlot where
  kind : SlotKind := .free
  owner : BitVec 6 := 0x3F
  cur : Nat := 0
  curKey : Option Nat := none
  old : Option (Nat × Nat) := none
  /-- Key installed but not yet active: key and activation instant (R408). -/
  next : Option (Nat × BitVec 64) := none
  /-- DROP_OLD waits for the GCM descriptors that hold OLD (R412). -/
  dropDue : Bool := false
  deriving DecidableEq, Repr

/-- State of a partition (R399). -/
inductive PState
  | free
  | active
  | revoking
  | scrubbing
  deriving DecidableEq, Repr

/-- A partition. -/
structure Partn where
  st : PState := .free
  quads : BitVec 16 := 0
  /-- Elapsed ns at REMOVE (R414). -/
  revokedAt : Nat := 0
  deriving DecidableEq, Repr

/-- An ephemeral key pair (R409). -/
structure Ephemeral where
  digest : BitVec 384
  xPriv : Nat
  kemPriv : Nat
  at_ : Nat
  /-- Opened by the first KEY_WRAP: its wrap key, while that message is processed. -/
  wrap : Option Nat := none
  deriving DecidableEq, Repr

/-- A sweep of ROTATE_XTS (R410): granules left by die, ascending. -/
structure Sweep where
  left : List (List Nat) := [[], [], [], []]
  deriving DecidableEq, Repr

/-- The Gatehouse. -/
structure GateS where
  parts : SMap Partn := []
  slots : SMap KeySlot := []
  ephem : SMap Ephemeral := []
  sweeps : SMap Sweep := []
  /-- Statuses of the KEY_WRAP entries processed so far, by function (R408). -/
  acks : SMap (List Nat) := []
  /-- Bit 1 of the perturbation word (R418). -/
  perturbUsed : Bool := false
  /-- The identity derivation is disabled (R396). -/
  identityOff : Bool := false
  testPortOpen : Bool := false
  deriving DecidableEq, Repr

/-! ### Check-value units (R422 to R433) -/

/-- A hub DMA context (R429). -/
structure HubCvu where
  setting : BitVec 256
  run : BitVec 64
  check : BitVec 64 := 0
  deriving DecidableEq, Repr

/-- The CVUs. The preset is CRC-64/XZ (R424). -/
structure CvuS where
  hub : SMap HubCvu := []
  /-- Running value of each partition's step context (R431). -/
  step : SMap (BitVec 64) := []
  deriving DecidableEq, Repr

/-! ### Pairs (R434 to R452) -/

/-- Pair roles (OD 0x6402). -/
inductive Role
  | unpaired | active | standby | joining | takingOver | rehearsing | failed | follower
  deriving DecidableEq, Repr

/-- A snapshot cut and not yet acknowledged (R437). -/
structure SnapOut where
  seq : Nat
  cutAt : Nat
  /-- Entries that it carries, and the length of the token log of each at the cut. -/
  handles : List Nat
  toks : SMap (Nat × Nat)
  /-- Submission counts that its entries hold the effects of, by 8 × function + ring. -/
  counts : SMap W32
  /-- Nothing waits for the next snapshot: what it carries is whole (R436, R439). -/
  whole : Bool := true
  /-- Retained pages that the partner holds once it acknowledges: handle, layer, block, frame. -/
  retains : List (Nat × Nat × Nat × Nat)
  deriving DecidableEq, Repr

/-- The saved state that a standby keeps (R437). -/
structure Saved where
  seq : Nat := 0
  cutTime : Nat := 0
  mask : BitVec 16 := 0
  entries : SMap W512 := []
  tokens : SMap (List W32) := []
  retains : List (Nat × Nat × Nat × Nat) := []
  counts : SMap W32 := []
  /-- Handles whose token log did not fit the token store (R443). -/
  unfit : List Nat := []
  deriving DecidableEq, Repr

/-- A step held for comparison (R446). -/
structure PairStep where
  seq : Nat
  own : Option (BitVec 64) := none
  partner : Option (BitVec 64) := none
  deriving DecidableEq, Repr

/-- The pair. -/
structure PairS' where
  role : Role := .unpaired
  degraded : Bool := false
  /-- The partner's role as last heard. -/
  partnerRole : Option Role := none
  partnerLost : Bool := false
  /-- The tray serves alone, after a takeover or a comparison that ended, until a partner joins (R255, R447, R451). -/
  alone : Bool := false
  /-- A snapshot is cut in this cycle: it takes every update with the cycle's timestamp (R26). -/
  cutDue : Bool := false
  nextSnap : Nat := 1
  lastAck : Nat := 0
  out : Option SnapOut := none
  /-- Request table entries changed since the last snapshot cut (handles). -/
  dirty : List Nat := []
  /-- Token log lengths (with the GEN they belong to), retained pages and submission counts that the partner has acknowledged, or without a partner the counts of the last cut (R255, R437). -/
  tokSent : SMap (Nat × Nat) := []
  retSent : List (Nat × Nat × Nat × Nat) := []
  marks : SMap W32 := []
  saved : Saved := {}
  /-- A baseline snapshot, whole, has been received since the tray was paired (R436). -/
  baseline : Bool := false
  sealed : Bool := false
  lastRehearsal : Option (Nat × Bool) := none
  /-- Pair step sequence numbers by partition (R445). -/
  stepSeq : SMap Nat := []
  /-- Comparisons in progress, by 16 × pair step sequence number + partition. -/
  compare : SMap PairStep := []
  /-- Proof test running, by partition (R447). -/
  proof : List Nat := []
  partnerArmed : BitVec 64 := 0
  /-- Leader decisions received and not yet met by an own submission (R445). -/
  decisions : List LeaderDecision := []
  /-- Batches of the leader that wait to be run, by partition: step ID and entries (R445). -/
  batches : SMap (List (Nat × List LeaderEntry)) := []
  yielded : Bool := false
  deriving DecidableEq, Repr

/-! ### Pavilion (R453 to R478) -/

/-- Roles of R459. -/
inductive Role'
  | none
  | monitor
  | operator
  | officer
  | test
  deriving DecidableEq, Repr

/-- A subscription (R465). -/
structure Sub where
  idx : Nat
  sub : Nat
  minMs : Nat
  /-- Elapsed ns of the last NOTIFY, if any. -/
  lastAt : Option Nat
  lastVal : Nat
  deriving DecidableEq, Repr

/-- A management session (R457 to R464). -/
structure Sess where
  /-- AUTH has succeeded. -/
  isOpen : Bool := false
  cred : Nat := 0
  role : Role' := .none
  rxKey : Nat := 0
  txKey : Nat := 0
  transcript : BitVec 384 := 0
  /-- Highest SEQ accepted, and those accepted within the 64 below it (R456). -/
  rxHigh : Nat := 0
  rxSeen : List Nat := []
  txSeq : Nat := 1
  lastAt : Nat := 0
  seg : Fin 2 := 0
  subs : List Sub := []
  /-- The last 16 responses, newest first (R464). -/
  responses : List (W32 × List Byte) := []
  /-- Response being built. -/
  building : List Byte := []
  /-- Operations answered in it. -/
  ops : Nat := 0
  cursor : Nat := 1
  deriving DecidableEq, Repr

/-- A message being assembled (R455). -/
structure Frag where
  sid : W32
  seq : BitVec 64
  typ : Nat
  count : Nat
  parts : SMap (List Byte)
  firstAt : Nat
  seg : Fin 2
  deriving DecidableEq, Repr

/-- A message taken: its type, session, plaintext body and segment. -/
structure Msg where
  typ : Nat
  sid : W32
  body : List Byte
  seg : Fin 2
  deriving DecidableEq, Repr

/-- A dictionary window (R474). -/
structure Window where
  busy : Bool := false
  overrun : Bool := false
  status : Nat := 0
  len : Nat := 0
  value : List Byte := List.replicate 128 0
  cursor : Nat := 1
  deriving DecidableEq, Repr

/-- Pavilion: dictionary values, sessions, windows, log. -/
structure PavS where
  /-- Values of objects that differ from their default, by 256 × index + subindex, each the little-endian number of its bytes. -/
  vals : SMap Nat := []
  /-- Clamp counters by the same number (R469). -/
  clamps : SMap Nat := []
  sessions : SMap Sess := []
  frags : List Frag := []
  inbox : List Msg := []
  restarting : Bool := false
  windows : SMap Window := []
  /-- The error log, newest record first (R475). -/
  log : List W512 := []
  nextSeq : Nat := 1
  /-- Elapsed ns of the last NOTICE or summary by resource (R536). -/
  noticeAt : SMap Nat := []
  deriving DecidableEq, Repr

/-! ### PCI Express (R479 to R498) -/

/-- State of a function (R486). -/
inductive FState'
  | idle
  | running
  | quiescing
  | ending
  deriving DecidableEq, Repr

/-- A submission ring, or the Zoetrope command ring (R486, R488). -/
structure Sq where
  log2 : Nat := 0
  head : Nat := 0
  tail : Nat := 0
  deriving DecidableEq, Repr

/-- A completion ring, ring 8 the video completion ring (R486, R492). -/
structure Cq where
  base : BitVec 64 := 0
  log2 : Nat := 0
  vector : Nat := 0
  modCount : Nat := 1
  modTime : Nat := 0
  tail : Nat := 0
  head : Nat := 0
  /-- Entries since the ring's last message, and the elapsed time of the first (R492). -/
  unsent : Nat := 0
  firstAt : Nat := 0
  deriving DecidableEq, Repr

/-- The registers of a function (R486) and its configuration. -/
structure FuncS where
  st : FState' := .idle
  /-- The end in progress is a disable (R493). -/
  disabling : Bool := false
  quiesce : Bool := false
  clamps : Nat := 0
  discards : Nat := 0
  sq : SMap Sq := []
  cq : SMap Cq := []
  /-- Zoetrope command ring (fixed size of 256, R484). -/
  zq : Sq := {}
  /-- Ring memory of the BAR: submission entries and Zoetrope commands (R484). -/
  ringMem : SMap W512 := []
  zMem : SMap W512 := []
  mailbox : List Host.Cell := []
  busMaster : Bool := false
  memSpace : Bool := false
  d3hot : Bool := false
  /-- MSI-X table words and pending bits. -/
  msix : SMap Nat := []
  pendingVec : List Nat := []
  deriving DecidableEq, Repr

/-- The port and its functions. -/
structure PcieS where
  linkUp : Bool := false
  numVfs : Nat := 0
  vfEnable : Bool := false
  funcs : SMap FuncS := []
  /-- Firmware image window of 256 KiB (R483, R510). -/
  fwWindow : List Host.Cell := []
  deriving DecidableEq, Repr

/-! ### Update (R509 to R518) and errors (R536 to R546) -/

/-- Update states (OD 0x7E00.01). -/
inductive UState
  | idle
  | receiving
  | verifying
  | verified
  | armed
  | activating
  deriving DecidableEq, Repr

/-- The update in delivery. -/
structure UpdS where
  st : UState := .idle
  result : Nat := 0
  busy : BitVec 4 := 0
  gotHeader : Bool := false
  image : FwImage := {}
  length : Nat := 0
  nonce : BitVec 64 := 0
  contentKey : Nat := 0
  /-- Body blocks accepted and their bytes, re-encrypted under slot 61 in the staging area. -/
  blocks : SMap (List Byte) := []
  armed : BitVec 64 := 0
  deriving DecidableEq, Repr

/-- Error containment (R538 to R545). -/
structure ErrS where
  /-- Class 2 errors by resource number: elapsed times, newest first (R539). -/
  seen : SMap (List Nat) := []
  deriving DecidableEq, Repr

/-! ### What the tray sends -/

/-- What the tray has sent to its surroundings or answered at a port. -/
inductive Output
  | completion (f : Vf) (ring : Nat) (index : Nat) (entry : BitVec 256)
  | msix (f : Func) (vector : Nat)
  | hostWrite (f : Func) (addr : Nat) (bytes : List Byte)
  | hostRead (f : Func) (tag addr len : Nat)
  | configAnswer (f : Func) (retry : Bool) (value : Nat)
  | mailbox (f : Func) (bytes : List Byte)
  | datagram (seg : Fin 2) (typ : Nat) (sid : W32) (seq : Nat) (body : List Byte)
  | icmp (seg : Fin 2) (body : List Byte)
  | nakBlock (port : Fin 2) (seq : Nat)
  | flit (port : Fin 2) (seq : Nat) (bits : BitVec 2048)
  | laneChange (port : Fin 2) (lanes : Nat)
  | hello (port : Fin 2) (h : HelloBlock)
  | coefficient (port : Fin 2) (lane : Fin 8) (coeff : BitVec 8)
  | credit (port : Fin 2) (vc : Nat) (n : Nat)
  | packet (port : Nat) (p : Packet)
  | clockState (part : PartId) (mhz : Nat) (causes : Byte)
  | syncValue (c : SyncAt) (n : Fin 1024) (v : W32)
  | syncSatisfied (c : SyncAt) (n : Fin 1024) (ok : Bool)
  | snapshot (seq : Nat) (recs : List SnapRecord) (check : BitVec 64)
  | snapAck (seq : Nat)
  | yield
  | failed
  | stepCheck (p : PartId) (seq : Nat) (v : BitVec 64)
  | leader (d : LeaderDecision)
  | batch (p : PartId) (stepId : Nat) (entries : List LeaderEntry)
  | armed (t : BitVec 64)
  | aer (f : Func)
  | abortMembers (p : PartId) (stepId : Nat)
  | drainReported
  | noPartner
  | rejoinReady
  deriving DecidableEq, Repr

/-- The state of the tray. -/
structure State where
  /-- Commands waiting, first in first out. -/
  pending : List Instr := []
  fuses : Fuses := {}
  flash : Flash := {}
  tray : TrayS := {}
  clk : ClockS := {}
  wv : WeatherS := {}
  seq : SeqS := {}
  /-- Cores by number. -/
  cores : SMap Core := []
  /-- Sync counters by 512 × cluster + counter (R86). -/
  sync : SMap Counter := []
  mem : MemS := {}
  dma : DmaS := {}
  /-- Job lists by die. -/
  dieJobs : SMap DieJobs := []
  car : CarS := {}
  kv : KvS := {}
  /-- Variants by 4,096 × partition + number. -/
  variants : SMap Variant := []
  zoe : ZoeS := {}
  trl : TrellisS := {}
  gate : GateS := {}
  cvu : CvuS := {}
  pair : PairS' := {}
  pav : PavS := {}
  pcie : PcieS := {}
  upd : UpdS := {}
  err : ErrS := {}
  /-- What the tray has sent, newest first (the model's own field). -/
  out : List Output := []
  /-- Free values used so far (the model's own field). -/
  freeCtr : Nat := 0
  deriving DecidableEq, Repr

/-- The state after reset: the tray seated in its slot with nothing powered, before its pre-charge contacts carry power. -/
def State.reset : State := {}

/-- No command of the block stops with a fault: errors of the tray are effects on its state (R536). -/
inductive Fault
  deriving DecidableEq, Repr

/-- Why a command is refused. -/
inductive Refusal
  /-- Raised by an arm of `exec` for a command that has no meaning yet; safe. -/
  | notModelled (mnemonic : String)
  deriving DecidableEq, Repr

end Sys2Proof.Machine
end

