-- ==== Sys2Proof/Machine/Ops.lean ====
section
/-! DEFINITION. The plain helpers that every meaning uses: sparse maps, bit fields, byte order, lists, and the outcome of a command. -/

namespace Sys2Proof.Machine

open Sys2Proof

/-- The outcome of a command. -/
abbrev Res := Host.Outcome State Fault Refusal

/-- The state of an outcome, that before it where there is none. -/
def resState (s : State) : Res → State
  | .next t => t
  | _ => s

/-! ### Sparse maps -/

/-- The value at a key. -/
def mget {α : Type} : SMap α → Nat → Option α
  | [], _ => none
  | (k', v) :: t, k => if k' = k then some v else mget t k

/-- The value at a key, or a default. -/
def mgetD {α : Type} (m : SMap α) (k : Nat) (d : α) : α := (mget m k).getD d

/-- The map with a value stored at a key; the keys stay rising. -/
def mset {α : Type} : SMap α → Nat → α → SMap α
  | [], k, v => [(k, v)]
  | (k', v') :: t, k, v =>
    if k < k' then (k, v) :: (k', v') :: t
    else if k = k' then (k, v) :: t
    else (k', v') :: mset t k v

/-- The map without a key. -/
def mdel {α : Type} (m : SMap α) (k : Nat) : SMap α := m.filter fun p => p.1 ≠ k

/-- The map without the keys that a test picks. -/
def mdrop {α : Type} (m : SMap α) (f : Nat → Bool) : SMap α := m.filter fun p => ! f p.1

/-- The map with a function applied to the value at a key (or to a default there). -/
def mupd {α : Type} (m : SMap α) (k : Nat) (d : α) (f : α → α) : SMap α := mset m k (f (mgetD m k d))

/-- The keys of a map. -/
def mkeys {α : Type} (m : SMap α) : List Nat := m.map Prod.fst

/-- Keys strictly rising. -/
def mwf {α : Type} : SMap α → Bool
  | [] => true
  | [_] => true
  | (k, _) :: (k', v') :: t => decide (k < k') && mwf ((k', v') :: t)

/-! ### Bit fields and bytes -/

/-- Bits hi down to lo of a number. -/
def nfld (x hi lo : Nat) : Nat := (x >>> lo) % 2 ^ (hi + 1 - lo)

/-- Bits hi down to lo of a word (R9: bit 0 is the least significant). -/
def fld {w : Nat} (x : BitVec w) (hi lo : Nat) : Nat := nfld x.toNat hi lo

/-- One bit of a word. -/
def bit {w : Nat} (x : BitVec w) (i : Nat) : Bool := x.getLsbD i

/-- The number with bits hi down to lo replaced. -/
def nput (x hi lo v : Nat) : Nat :=
  x - nfld x hi lo * 2 ^ lo + (v % 2 ^ (hi + 1 - lo)) * 2 ^ lo

/-- The word with bits hi down to lo replaced. -/
def put {w : Nat} (x : BitVec w) (hi lo v : Nat) : BitVec w := BitVec.ofNat w (nput x.toNat hi lo v)

/-- A number of `n` bits read as two's complement. -/
def sx (n x : Nat) : Int := if x % 2 ^ n < 2 ^ (n - 1) then (x % 2 ^ n : Nat) else (x % 2 ^ n : Nat) - (2 ^ n : Nat)

/-- A signed number as `n` bits of two's complement. -/
def ux (n : Nat) (x : Int) : Nat := (x % (2 ^ n : Nat)).toNat

/-- The little-endian number of a list of bytes (R9). -/
def leNat : List Byte → Nat
  | [] => 0
  | b :: t => b.toNat + 256 * leNat t

/-- The `n` low bytes of a number, little-endian. -/
def leBytes : Nat → Nat → List Byte
  | 0, _ => []
  | n + 1, x => BitVec.ofNat 8 x :: leBytes n (x / 256)

/-- The `n` bytes of a number, most significant first. -/
def beBytes (n x : Nat) : List Byte := (leBytes n x).reverse

/-- The number of bits set among the low `n` bits. -/
def popcount : Nat → Nat → Nat
  | 0, _ => 0
  | n + 1, x => x % 2 + popcount n (x / 2)

/-- The positions of the bits set among the low `n`. -/
def bitsOf (n x : Nat) : List Nat := (List.range n).filter fun i => x.testBit i

/-- The mask with the given bits set. -/
def maskOf (l : List Nat) : Nat := l.foldl (fun a i => a ||| 2 ^ i) 0

/-- Division rounding up. -/
def cdiv (a b : Nat) : Nat := (a + b - 1) / b

/-! ### Lists -/

/-- Replace the element at a position. -/
def lset {α : Type} (l : List α) (i : Nat) (v : α) : List α := l.set i v

/-- Element at a position, or a default. -/
def lget {α : Type} (l : List α) (i : Nat) (d : α) : α := l.getD i d

/-- Sum of a list. -/
def lsum (l : List Nat) : Nat := l.foldl (· + ·) 0

/-- Largest of a list of numbers, 0 when empty. -/
def lmax (l : List Nat) : Nat := l.foldl max 0

/-- Insert by a comparison, before the first element that the new one is less than. -/
def insertBy {α : Type} (lt : α → α → Bool) (a : α) : List α → List α
  | [] => [a]
  | b :: t => if lt a b then a :: b :: t else b :: insertBy lt a t

/-- Stable sort by a comparison. -/
def sortBy {α : Type} (lt : α → α → Bool) (l : List α) : List α :=
  l.foldl (fun acc a => insertBy lt a acc) []

/-- Without repeats, first occurrences kept. -/
def nodup (l : List Nat) : List Nat :=
  (l.foldl (fun acc a => if acc.contains a then acc else a :: acc) []).reverse

/-! ### Free values -/

/-- The next free value (R224, R400, R405): no rule fixes it. -/
def freeVal (s : State) : Nat := Config.freeNat s.freeCtr

/-- Count one free value as used. -/
def freeStep (s : State) : State := { s with freeCtr := s.freeCtr + 1 }

/-- Count `n` free values as used. -/
def freeSteps (s : State) (n : Nat) : State := { s with freeCtr := s.freeCtr + n }

/-- Send something. -/
def emit (s : State) (o : Output) : State := { s with out := o :: s.out }

/-- Apply a change for each element of a list, in order. -/
def each {α : Type} (l : List α) (f : State → α → State) (s : State) : State := l.foldl f s

/-! ### Identifiers (R12, R22, R27) -/

/-- Die of a cluster. -/
def clusDie (c : Nat) : Nat := c / 8

/-- Quadrant of a cluster: clusters 2q and 2q + 1 of a die are its quadrant q (R12). -/
def clusQuad (c : Nat) : Nat := c / 2

/-- Cluster of a core. -/
def coreClus (k : Nat) : Nat := k / 8

/-- Quadrant of a core. -/
def coreQuad (k : Nat) : Nat := k / 16

/-- Stream context holding a lane, if any: the context of the lane's die whose mask names it (R98). -/
def laneCtx (s : State) (l : Nat) : Option Nat :=
  (List.range 4).findSome? fun i =>
    let x := 4 * clusDie l + i
    match mget s.seq.ctxs x with
    | some c => if c.part.isSome && c.laneMask.getLsbD (l % 8) then some x else none
    | none => none

/-- Lanes of a context, as lane numbers of the tray. -/
def ctxLanes (s : State) (c : Nat) : List Nat :=
  match mget s.seq.ctxs c with
  | some x => (bitsOf 8 x.laneMask.toNat).map fun n => 8 * (c / 4) + n
  | none => []

end Sys2Proof.Machine
end

