-- ==== Sys2Proof/Machine/Numerics.lean ====
section
/-! DEFINITION. Number formats, exact values, anchored accumulation and the conversions out (R30 to R63). -/

namespace Sys2Proof.Machine

open Sys2Proof

/-- What an encoding stands for: NaN, an infinity, or (−1)^neg × m × 2^e exactly. -/
inductive Num
  | nan
  | inf (neg : Bool)
  | fin (neg : Bool) (m : Nat) (e : Int)
  deriving DecidableEq, Repr

/-- Flag word bits of R63: SAT, INV, OVF, UFL. -/
def flSAT : BitVec 4 := 8
/-- INV of R63. -/
def flINV : BitVec 4 := 4
/-- OVF of R63. -/
def flOVF : BitVec 4 := 2
/-- UFL of R63. -/
def flUFL : BitVec 4 := 1

/-! ### Formats (R30, R34) -/

/-- Which special encodings a floating format has (R34). -/
inductive Special
  | none
  | e4m3
  | ieee
  deriving DecidableEq, Repr

/-- A floating format: exponent and mantissa bits, bias, special encodings. -/
structure Fp where
  ew : Nat
  mw : Nat
  bias : Int
  sp : Special
  deriving DecidableEq, Repr

/-- Binary32. -/
def fp32 : Fp := ⟨8, 23, 127, .ieee⟩

/-- The floating format of a format code (R30). -/
def fpOf : Nat → Option Fp
  | 3 => some ⟨2, 1, 1, .none⟩
  | 4 => some ⟨3, 2, 3, .none⟩
  | 5 => some ⟨2, 3, 1, .none⟩
  | 6 => some ⟨4, 3, 7, .e4m3⟩
  | 7 => some ⟨5, 2, 15, .ieee⟩
  | 8 => some ⟨8, 7, 127, .ieee⟩
  | 9 => some ⟨5, 10, 15, .ieee⟩
  | 10 => some fp32
  | _ => none

/-- Width in bits of a format code (R30). -/
def fmtBits : Nat → Nat
  | 0 => 8 | 1 => 4 | 2 => 8 | 3 => 4 | 4 => 6 | 5 => 6 | 6 => 8 | 7 => 8 | 8 => 16 | 9 => 16 | _ => 32

/-- MX element formats, which share one scale per block (R31). -/
def fmtMX (f : Nat) : Bool := decide (2 ≤ f ∧ f ≤ 7)

/-- Formats with a shadow exponent array (R33). -/
def fmtShadow (f : Nat) : Bool := f == 8 || f == 9

/-- Read a floating encoding. -/
def fpRead (f : Fp) (x : Nat) : Num :=
  let s := x.testBit (f.ew + f.mw)
  let e := nfld x (f.ew + f.mw - 1) f.mw
  let m := x % 2 ^ f.mw
  let top := 2 ^ f.ew - 1
  if f.sp = .ieee ∧ e = top then (if m = 0 then .inf s else .nan)
  else if f.sp = .e4m3 ∧ e = top ∧ m = 2 ^ f.mw - 1 then .nan
  else if e = 0 then .fin s m (1 - f.bias - f.mw)
  else .fin s (2 ^ f.mw + m) ((e : Int) - f.bias - f.mw)

/-- An integer as an exact value times a power of two. -/
def numOfInt (n : Int) (e : Int) : Num := .fin (decide (n < 0)) n.natAbs e

/-- Read an element of a format code (R30, R34); −0 of an MX element reads as 0. -/
def elemRead (fmt x : Nat) : Num :=
  match fmt with
  | 0 => numOfInt (sx 8 x) 0
  | 1 => numOfInt (sx 4 x) 0
  | 2 => numOfInt (sx 8 x) (-6)
  | _ =>
    match fpOf fmt with
    | none => .nan
    | some f =>
      match fpRead f x with
      | .fin s m e => .fin (s && (m != 0 || fmt ≥ 8)) m e
      | n => n

/-! ### Rounding (R47 to R50) -/

/-- The magnitude m × 2^e (plus something below its last bit, when `sticky`) rounded to a multiple of 2^q. Modes: 0 RNE, 1 RTZ, 2 RDN, 3 RUP. -/
def roundMag (mode : Nat) (neg : Bool) (m : Nat) (e q : Int) (sticky : Bool := false) : Nat :=
  if e ≥ q then m <<< (e - q).toNat
  else
    let k := (q - e).toNat
    let fl := m >>> k
    let rem := m % 2 ^ k
    let inexact := rem != 0 || sticky
    let half := 2 ^ (k - 1)
    let up : Bool :=
      match mode with
      | 0 => decide (rem > half) || (rem == half && (sticky || fl % 2 == 1))
      | 1 => false
      | 2 => neg && inexact
      | _ => !neg && inexact
    if up then fl + 1 else fl

/-- Whether m × 2^e exceeds m' × 2^e'. -/
def magGt (m : Nat) (e : Int) (m' : Nat) (e' : Int) : Bool :=
  let lo := min e e'
  decide (m <<< (e - lo).toNat > m' <<< (e' - lo).toNat)

/-- Largest finite encoding of a format, without the sign (R30). -/
def fpMax (f : Fp) : Nat :=
  match f.sp with
  | .none => 2 ^ (f.ew + f.mw) - 1
  | .e4m3 => 2 ^ (f.ew + f.mw) - 2
  | .ieee => (2 ^ f.ew - 1) * 2 ^ f.mw - 1

/-- Canonical NaN of a format, or zero where it has none (R34, R50). -/
def fpNaN (f : Fp) : Nat :=
  match f.sp with
  | .none => 0
  | .e4m3 => 0x7F
  | .ieee => if f.mw = 2 then 0x7F else (2 ^ f.ew - 1) * 2 ^ f.mw + 2 ^ (f.mw - 1)

/-- Write a number in a floating format (R47 to R50): the encoding and the flags. -/
def fpWrite (f : Fp) (mode : Nat) (ovfInf : Bool) (x : Num) (sticky : Bool := false) (keepZeroSign : Bool := false) :
    Nat × BitVec 4 :=
  let sgn (b : Bool) : Nat := if b then 2 ^ (f.ew + f.mw) else 0
  let infEnc := (2 ^ f.ew - 1) * 2 ^ f.mw
  match x with
  | .nan => (fpNaN f, flINV)
  | .inf s =>
    if f.sp = .ieee then (sgn s + infEnc, 0) else (sgn s + fpMax f, flOVF)
  | .fin s m e =>
    if m = 0 ∧ !sticky then (if keepZeroSign then sgn s else 0, 0)
    else
      let top : Int := (Nat.log2 m : Int) + e
      let q : Int := max top (1 - f.bias) - f.mw
      let n := roundMag mode s m e q sticky
      if n = 0 then (sgn s, flUFL)
      else
        let mx := fpMax f
        let beyond :=
          match fpRead f mx with
          | .fin _ mm me => magGt n q mm me
          | _ => false
        if beyond then
          (if ovfInf && f.sp = .ieee then sgn s + infEnc else sgn s + mx, flOVF)
        else if n < 2 ^ f.mw then (sgn s + n, 0)
        else
          let (n', q') := if n = 2 ^ (f.mw + 1) then (2 ^ f.mw, q + 1) else (n, q)
          (sgn s + (q' + f.mw + f.bias).toNat * 2 ^ f.mw + n' % 2 ^ f.mw, 0)

/-- Write a number as an integer of `n` bits with exponent p (R52). -/
def intWrite (n : Nat) (p : Int) (mode : Nat) (x : Num) : Nat × BitVec 4 :=
  let hi : Int := 2 ^ (n - 1) - 1
  let lo : Int := -(2 ^ (n - 1))
  match x with
  | .nan => (0, flINV)
  | .inf s => (ux n (if s then lo else hi), flOVF)
  | .fin s m e =>
    if m = 0 then (0, 0)
    else
      let r := roundMag mode s m e p
      let v : Int := if s then -(r : Int) else r
      if r = 0 then (0, flUFL)
      else if v > hi then (ux n hi, flOVF)
      else if v < lo then (ux n lo, flOVF)
      else (ux n v, 0)

/-- Write one element without a block scale (R47 to R50, R52): MX elements at scale 1. -/
def elemWrite (fmt mode : Nat) (ovfInf : Bool) (p : Int) (x : Num) : Nat × BitVec 4 :=
  match fmt with
  | 0 => intWrite 8 p mode x
  | 1 => intWrite 4 p mode x
  | 2 => intWrite 8 (-6) mode x
  | _ =>
    match fpOf fmt with
    | some f => fpWrite f mode ovfInf x
    | none => (0, flINV)

/-- e_max of R51. -/
def mxEmax : Nat → Int
  | 3 => 2 | 4 => 4 | 5 => 2 | 6 => 8 | 7 => 15 | _ => 0

/-- ⌊log₂ |x|⌋ of a finite nonzero number. -/
def numLog2 : Num → Option Int
  | .fin _ m e => if m = 0 then none else some ((Nat.log2 m : Int) + e)
  | _ => none

/-- Largest of a list of integers. -/
def imax : List Int → Option Int
  | [] => none
  | a :: t => some (t.foldl max a)

/-- A number times 2^k. -/
def numShift (x : Num) (k : Int) : Num :=
  match x with
  | .fin s m e => .fin s m (e + k)
  | n => n

/-- X + 127 of an MX output block (R51), from its finite values, or from its infinities where no finite value is nonzero. -/
def mxX (fmt : Nat) (xs : List Num) : Nat :=
  match imax (xs.filterMap numLog2) with
  | some l => (min 127 (max (-127) (l - mxEmax fmt)) + 127).toNat
  | none => if xs.any (fun x => match x with | .inf _ => true | _ => false) then 0xFE else 0x00

/-- The block scale of an MX output block (R51), as its E8M0 byte: 0xFF with a NaN in the block, whatever else it holds. -/
def mxScale (fmt : Nat) (xs : List Num) : Nat := if xs.contains .nan then 0xFF else mxX fmt xs

/-- One MX output block (R51): the scale byte, the elements and the flags. Beside a NaN the finite elements are v × 2^(−X) all the same. -/
def mxWrite (fmt mode : Nat) (ovfInf : Bool) (xs : List Num) : Nat × List Nat × BitVec 4 :=
  let sc := mxScale fmt xs
  let x : Int := (mxX fmt xs : Int) - 127
  let es := xs.map fun v =>
    match v with
    | .fin _ _ _ => elemWrite fmt mode ovfInf 0 (numShift v (-x))
    | v => elemWrite fmt mode ovfInf 0 v
  (sc, es.map Prod.fst, es.foldl (fun a p => a ||| p.2) 0)

/-- The shadow exponent of a block of BF16 or FP16 elements (R33), as its byte. -/
def shadowOf (fmt : Nat) (xs : List Nat) : Nat :=
  let emin : Int := if fmt = 9 then -14 else -126
  match imax (xs.filterMap fun x => (numLog2 (elemRead fmt x)).map (max emin)) with
  | some h => ux 8 h
  | none => 0x80

/-! ### Anchored accumulation (R36 to R44) -/

/-- Magnitude exponent u of an operand block (R37); none where the block takes no part (R38). `sh` is the scale byte or the shadow byte. -/
def blockU (fmt sh : Nat) : Option Int :=
  let s : Int := (sh : Int) - 127
  match fmt with
  | 0 => some 8
  | 1 => some 4
  | 8 => some (sx 8 sh + 1)
  | 9 => some (sx 8 sh + 1)
  | _ =>
    if sh = 0xFF then none
    else
      match fmt with
      | 2 => some (s + 2)
      | 3 => some (s + 3)
      | 4 => some (s + 5)
      | 5 => some (s + 3)
      | 6 => some (s + 9)
      | 7 => some (s + 16)
      | _ => none

/-- An element of a block with its scale (R31): a NaN scale makes it NaN. -/
def blockElem (fmt sh x : Nat) : Num :=
  if fmtMX fmt then (if sh = 0xFF then .nan else numShift (elemRead fmt x) ((sh : Int) - 127))
  else elemRead fmt x

/-- The exact product of two numbers (R43: ∞ × 0 is NaN). -/
def numMul : Num → Num → Num
  | .nan, _ => .nan
  | _, .nan => .nan
  | .inf a, .inf b => .inf (a != b)
  | .inf a, .fin b m _ => if m = 0 then .nan else .inf (a != b)
  | .fin a m _, .inf b => if m = 0 then .nan else .inf (a != b)
  | .fin a m e, .fin b m' e' => .fin (a != b) (m * m') (e + e')

/-- A term floored onto the grid 2^(A − 64) (R40). -/
def floorTerm (a : Int) (s : Bool) (m : Nat) (e : Int) : Int :=
  let k := e + 64 - a
  let v : Int := if s then -(m : Int) else m
  if k ≥ 0 then v * 2 ^ k.toNat else v / (2 ^ (-k).toNat : Nat)

/-- Add a term to an accumulator with anchor A (R40 to R43). A floored term outside ±(2⁶⁴ − 1) is clamped and SAT set (R42, R46). -/
def accAdd (a : Int) (c : Acc) (t : Num) : Acc :=
  match t with
  | .nan => { c with nan := true }
  | .inf false => { c with pinf := true }
  | .inf true => { c with ninf := true }
  | .fin s m e =>
    let q := floorTerm a s m e
    let lim : Int := 2 ^ 64 - 1
    if q > lim then { c with v := c.v + BitVec.ofInt 96 lim, sat := true }
    else if q < -lim then { c with v := c.v + BitVec.ofInt 96 (-lim), sat := true }
    else { c with v := c.v + BitVec.ofInt 96 q }

/-- The result of an anchor group (R41, R43). -/
def accValue (a : Int) (c : Acc) : Num :=
  if c.nan || (c.pinf && c.ninf) then .nan
  else if c.pinf then .inf false
  else if c.ninf then .inf true
  else
    let v := c.v.toInt
    .fin (decide (v < 0)) v.natAbs (a - 64)

/-- A record (R44). -/
def recWrite (a : Int) (c : Acc) : BitVec 128 :=
  BitVec.ofNat 128 (c.v.toNat + ux 16 a * 2 ^ 96 + (if c.sat then 2 ^ 124 else 0)
    + (if c.ninf then 2 ^ 125 else 0) + (if c.pinf then 2 ^ 126 else 0) + (if c.nan then 2 ^ 127 else 0))

/-- A record as anchor and accumulator (R44). -/
def recRead (r : BitVec 128) : Int × Acc :=
  (sx 16 (fld r 111 96),
   { v := BitVec.ofNat 96 r.toNat, nan := bit r 127, pinf := bit r 126, ninf := bit r 125, sat := bit r 124 })

/-- Merge of two records of one group (R44). DESIGN CHOICE (log entry 97): of two records with unequal anchors the result, whose NaN bit decides it, keeps the first ANCHOR and the sum of the VALUEs. -/
def recMerge (x y : BitVec 128) : BitVec 128 × BitVec 4 :=
  let (a, c) := recRead x
  let (b, d) := recRead y
  let m : Acc := { v := c.v + d.v, nan := c.nan || d.nan, pinf := c.pinf || d.pinf, ninf := c.ninf || d.ninf, sat := c.sat || d.sat }
  if a = b then (recWrite a m, 0) else (recWrite a { m with nan := true }, flINV)

/-- The anchor of a vector reduction (R38): u of each finite term, −300 with none. -/
def vecAnchor (ts : List Num) : Int :=
  let us := ts.filterMap fun t =>
    match t with
    | .fin _ m e => if m = 0 then some (-127) else some (max ((Nat.log2 m : Int) + e + 1) (-125))
    | _ => none
  (imax us).getD (-300)

/-! ### Vector unit arithmetic (R53 to R56) -/

/-- Read a lane as binary32. -/
def f32 (x : W32) : Num := fpRead fp32 x.toNat

/-- Write a result as binary32, to nearest even (R53). -/
def f32w (x : Num) (sticky : Bool := false) : W32 × BitVec 4 :=
  let (v, fl) := fpWrite fp32 0 true x sticky true
  (BitVec.ofNat 32 v, fl)

/-- The other sign. -/
def numNeg : Num → Num
  | .fin s m e => .fin (!s) m e
  | .inf s => .inf (!s)
  | .nan => .nan

/-- The exact sum; equal signs of zero kept, an exact cancellation is +0. -/
def numAdd : Num → Num → Num
  | .nan, _ => .nan
  | _, .nan => .nan
  | .inf a, .inf b => if a = b then .inf a else .nan
  | .inf a, _ => .inf a
  | _, .inf b => .inf b
  | .fin a m e, .fin b m' e' =>
    let lo := min e e'
    let x : Int := (m <<< (e - lo).toNat : Nat)
    let y : Int := (m' <<< (e' - lo).toNat : Nat)
    let v := (if a then -x else x) + (if b then -y else y)
    if v = 0 then .fin (a && b && m == 0 && m' == 0) 0 0 else .fin (decide (v < 0)) v.natAbs lo

/-- Less than, with −0 below +0 when `zeros` (R53); false with a NaN. -/
def numLt (zeros : Bool) : Num → Num → Bool
  | .nan, _ => false
  | _, .nan => false
  | .inf a, .inf b => a && !b
  | .inf a, _ => a
  | _, .inf b => !b
  | .fin a m e, .fin b m' e' =>
    if m = 0 ∧ m' = 0 then zeros && a && !b
    else
      let lo := min e e'
      let x : Int := (m <<< (e - lo).toNat : Nat)
      let y : Int := (m' <<< (e' - lo).toNat : Nat)
      decide ((if a then -x else x) < (if b then -y else y))

/-- Minimum (R53). -/
def numMin (x y : Num) : Num :=
  if x = .nan ∨ y = .nan then .nan else if numLt true y x then y else x

/-- Maximum (R53). -/
def numMax (x y : Num) : Num :=
  if x = .nan ∨ y = .nan then .nan else if numLt true x y then y else x

/-- Integer square root by bits: the largest r with r² ≤ x, given that it has at most `n` bits. -/
def isqrt : Nat → Nat → Nat → Nat
  | 0, _, r => r
  | n + 1, x, r =>
    let r' := r + 2 ^ n
    isqrt n x (if r' * r' ≤ x then r' else r)

/-- 1 ÷ x, correctly rounded (R56). -/
def f32recip (x : W32) : W32 × BitVec 4 :=
  match f32 x with
  | .nan => f32w .nan
  | .inf s => f32w (.fin s 0 0)
  | .fin s m e =>
    if m = 0 then (if s then 0xFF800000 else 0x7F800000, 0)
    else
      let n := 2 ^ 60
      f32w (.fin s (n / m) (-60 - e)) (n % m != 0)

/-- 1 ÷ √x, correctly rounded (R56). -/
def f32rsqrt (x : W32) : W32 × BitVec 4 :=
  match f32 x with
  | .nan => f32w .nan
  | .inf s => if s then f32w .nan else (0, 0)
  | .fin s m e =>
    if m = 0 then (if s then 0xFF800000 else 0x7F800000, 0)
    else if s then f32w .nan
    else
      -- x = m' × 2^(2k); 1/√x = √(2^120 ÷ m') × 2^(−60 − k)
      let (m', k) := if e % 2 = 0 then (m, e / 2) else (2 * m, (e - 1) / 2)
      let n := 2 ^ 120
      let d := n / m'
      let r := isqrt 62 d 0
      f32w (.fin false r (-60 - k)) (r * r != d || n % m' != 0)

end Sys2Proof.Machine
end

