-- ==== Sys2Proof/Machine/Dict.lean ====
section
/-! DEFINITION. The object dictionary: its table, stored values, counters, access rights, clamping and the answer of an operation (R453 to R478). -/

namespace Sys2Proof.Machine

open Sys2Proof

/-- Access classes (R9). -/
inductive OdAcc
  | ro | rw | wo | rws | rwt
  deriving DecidableEq, Repr

/-- The legal range of an object's table (R467, R468). `rule` marks a clamp that the object's chapter words. -/
inductive OdClamp
  | none
  | range (lo hi : Nat)
  | signed (lo hi : Int)
  | step (lo hi st : Nat)
  | rule
  deriving DecidableEq, Repr

/-- A row of an object table: index, subindices, size in bytes, access, default, legal range. -/
structure OdRow where
  idx : Nat
  lo : Nat
  hi : Nat
  size : Nat
  acc : OdAcc
  dflt : Nat
  clamp : OdClamp
  deriving DecidableEq, Repr

/-- Rows of the object tables, part 0 (R476, R477 and the tables of each chapter). -/
def odTable0 : List OdRow := [
  ⟨0x0000, 1, 1, 1, .ro, 1, .none⟩,
  ⟨0x0000, 2, 3, 1, .ro, 1, .none⟩,
  ⟨0x0001, 0, 0, 1, .ro, 1, .none⟩,
  ⟨0x0002, 0, 0, 1, .ro, 0, .none⟩,
  ⟨0x0003, 1, 16, 2, .ro, 0, .none⟩,
  ⟨0x0400, 1, 16, 100, .rws, 0, .rule⟩,
  ⟨0x0401, 0, 0, 1, .ro, 0, .none⟩,
  ⟨0x0402, 1, 2, 16, .rws, 0, .rule⟩,
  ⟨0x0403, 1, 1, 1, .rws, 8, .range 1 239⟩,
  ⟨0x0403, 2, 2, 1, .rws, 32, .range 2 255⟩,
  ⟨0x0404, 1, 2, 1, .ro, 0, .none⟩,
  ⟨0x0405, 0, 0, 2, .rws, 60, .range 10 3600⟩,
  ⟨0x0406, 1, 1, 4, .ro, 0, .none⟩,
  ⟨0x0406, 2, 2, 4, .ro, 0, .none⟩,
  ⟨0x0407, 0, 0, 1, .ro, 0, .none⟩,
  ⟨0x0408, 0, 0, 1, .rws, 0, .range 0 1⟩,
  ⟨0x1000, 1, 40, 1, .rws, 0, .rule⟩,
  ⟨0x1001, 1, 4, 2, .rw, 1200, .step 500 1600 25⟩,
  ⟨0x1002, 1, 40, 1, .rws, 0, .rule⟩,
  ⟨0x1003, 1, 40, 1, .ro, 0, .none⟩,
  ⟨0x1010, 0, 0, 1, .rws, 0, .rule⟩,
  ⟨0x1011, 0, 0, 2, .rws, 31500, .range 30000 33000⟩,
  ⟨0x1020, 1, 1, 2, .rw, 20, .range 1 1000⟩,
  ⟨0x1020, 2, 2, 4, .rw, 1000, .range 100 100000⟩]

/-- Rows of the object tables, part 1 (R476, R477 and the tables of each chapter). -/
def odTable1 : List OdRow := [
  ⟨0x1020, 3, 3, 1, .rw, 10, .range 1 255⟩,
  ⟨0x1021, 1, 40, 4, .ro, 0, .none⟩,
  ⟨0x1100, 0, 0, 8, .ro, 0, .none⟩,
  ⟨0x1101, 0, 0, 8, .rw, 0, .rule⟩,
  ⟨0x1102, 0, 0, 1, .ro, 0, .none⟩,
  ⟨0x1103, 0, 0, 4, .ro, 0, .none⟩,
  ⟨0x1104, 1, 1, 4, .ro, 0, .none⟩,
  ⟨0x1104, 2, 2, 4, .ro, 0, .none⟩,
  ⟨0x1105, 0, 0, 4, .ro, 0, .none⟩,
  ⟨0x1106, 0, 0, 4, .ro, 0, .none⟩,
  ⟨0x1400, 1, 1, 2, .rw, 1200, .range 300 1200⟩,
  ⟨0x1400, 2, 2, 2, .ro, 1200, .none⟩,
  ⟨0x1400, 3, 3, 2, .ro, 0, .none⟩,
  ⟨0x1400, 4, 4, 2, .ro, 0, .none⟩,
  ⟨0x1401, 1, 1, 2, .rw, 1500, .range 600 1500⟩,
  ⟨0x1401, 2, 2, 1, .rw, 2, .range 1 10⟩,
  ⟨0x1402, 0, 0, 2, .rws, 60, .range 5 400⟩,
  ⟨0x1403, 0, 0, 2, .rws, 60, .range 5 400⟩,
  ⟨0x1404, 0, 0, 1, .rws, 1, .range 0 1⟩,
  ⟨0x1405, 0, 0, 1, .ro, 0, .none⟩,
  ⟨0x1406, 0, 0, 4, .ro, 0, .none⟩,
  ⟨0x1407, 1, 16, 2, .ro, 0, .none⟩,
  ⟨0x1408, 1, 16, 1, .ro, 0, .none⟩,
  ⟨0x1409, 0, 0, 2, .ro, 0, .none⟩]

/-- Rows of the object tables, part 2 (R476, R477 and the tables of each chapter). -/
def odTable2 : List OdRow := [
  ⟨0x140A, 0, 0, 1, .rw, 0, .range 0 1⟩,
  ⟨0x1500, 1, 17, 4, .ro, 0, .none⟩,
  ⟨0x1501, 1, 17, 4, .ro, 0, .none⟩,
  ⟨0x1502, 1, 8, 4, .ro, 0, .none⟩,
  ⟨0x1503, 1, 3, 4, .ro, 0, .none⟩,
  ⟨0x1504, 1, 1, 2, .rw, 1000, .range 0 1200⟩,
  ⟨0x1504, 2, 2, 4, .rw, 2500, .signed (-4000) 8500⟩,
  ⟨0x1504, 3, 3, 4, .rw, 2500, .signed (-4000) 8500⟩,
  ⟨0x1504, 4, 4, 1, .rw, 0, .range 0 3⟩,
  ⟨0x1505, 0, 0, 1, .ro, 0, .none⟩,
  ⟨0x1506, 1, 17, 4, .ro, 0, .none⟩,
  ⟨0x1507, 1, 17, 4, .ro, 0, .none⟩,
  ⟨0x1508, 0, 0, 1, .rw, 0, .range 0 1⟩,
  ⟨0x1600, 1, 16, 4, .ro, 0, .none⟩,
  ⟨0x1601, 1, 16, 2, .ro, 1500, .none⟩,
  ⟨0x1602, 1, 16, 4, .ro, 0, .none⟩,
  ⟨0x1603, 1, 16, 4, .ro, 0, .none⟩,
  ⟨0x1604, 1, 16, 8, .ro, 0, .none⟩,
  ⟨0x1605, 0, 0, 1, .rw, 0, .range 0 1⟩,
  ⟨0x2000, 0, 0, 4, .ro, 0, .none⟩,
  ⟨0x2001, 1, 16, 2, .rws, 0, .rule⟩,
  ⟨0x2002, 1, 16, 2, .rws, 0, .rule⟩,
  ⟨0x2003, 1, 16, 2, .rws, 0, .rule⟩,
  ⟨0x2004, 1, 16, 2, .rws, 0, .rule⟩]

/-- Rows of the object tables, part 3 (R476, R477 and the tables of each chapter). -/
def odTable3 : List OdRow := [
  ⟨0x2010, 1, 8, 8, .ro, 0, .none⟩,
  ⟨0x2011, 1, 8, 4, .ro, 0, .none⟩,
  ⟨0x2012, 0, 0, 2, .rw, 24, .range 1 168⟩,
  ⟨0x2013, 1, 16, 4, .ro, 0, .none⟩,
  ⟨0x2014, 0, 0, 1, .rw, 0, .range 0 1⟩,
  ⟨0x2400, 1, 16, 4, .ro, 0, .none⟩,
  ⟨0x2401, 1, 16, 8, .ro, 0, .none⟩,
  ⟨0x2402, 1, 16, 4, .ro, 0, .none⟩,
  ⟨0x2403, 1, 16, 8, .ro, 0, .none⟩,
  ⟨0x2404, 0, 0, 1, .rw, 0, .range 0 1⟩,
  ⟨0x3000, 1, 16, 1, .rws, 3, .range 0 3⟩,
  ⟨0x3001, 1, 16, 4, .rws, 0, .rule⟩,
  ⟨0x3002, 1, 16, 2, .rws, 256, .range 1 256⟩,
  ⟨0x3003, 1, 16, 4, .rw, 50000, .range 1000 16777215⟩,
  ⟨0x3010, 1, 16, 1, .rw, 0, .range 0 1⟩,
  ⟨0x3011, 1, 16, 8, .ro, 0, .none⟩,
  ⟨0x3011, 17, 32, 8, .ro, 0, .none⟩,
  ⟨0x3012, 1, 16, 1, .ro, 0, .none⟩,
  ⟨0x3013, 1, 16, 8, .ro, 0, .none⟩,
  ⟨0x3014, 1, 16, 8, .ro, 0, .none⟩,
  ⟨0x3015, 1, 16, 8, .ro, 0, .none⟩,
  ⟨0x3016, 0, 0, 1, .rw, 0, .range 0 1⟩,
  ⟨0x3020, 1, 16, 4, .rws, 0, .rule⟩,
  ⟨0x3021, 1, 16, 4, .ro, 0, .none⟩]

/-- Rows of the object tables, part 4 (R476, R477 and the tables of each chapter). -/
def odTable4 : List OdRow := [
  ⟨0x3022, 1, 16, 4, .ro, 0, .none⟩,
  ⟨0x3023, 1, 16, 4, .ro, 0, .none⟩,
  ⟨0x3024, 1, 16, 8, .ro, 0, .none⟩,
  ⟨0x3025, 1, 16, 4, .ro, 0, .none⟩,
  ⟨0x3026, 1, 16, 8, .ro, 0, .none⟩,
  ⟨0x3030, 1, 16, 1, .rws, 0, .rule⟩,
  ⟨0x3031, 0, 0, 1, .rw, 0, .range 0 1⟩,
  ⟨0x3032, 1, 16, 8, .ro, 0, .none⟩,
  ⟨0x3033, 1, 16, 4, .ro, 0, .none⟩,
  ⟨0x3034, 0, 0, 4, .ro, 0, .none⟩,
  ⟨0x3035, 0, 0, 1, .rw, 0, .range 0 1⟩,
  ⟨0x3800, 1, 16, 8, .rw, 0, .rule⟩,
  ⟨0x3801, 1, 16, 4, .ro, 0, .none⟩,
  ⟨0x3802, 1, 16, 2, .ro, 0, .none⟩,
  ⟨0x3803, 1, 16, 2, .ro, 0, .none⟩,
  ⟨0x3804, 1, 16, 4, .ro, 0, .none⟩,
  ⟨0x3805, 1, 4, 1, .rws, 255, .rule⟩,
  ⟨0x3806, 1, 4, 8, .ro, 0, .none⟩,
  ⟨0x4000, 1, 1, 2, .ro, 1, .none⟩,
  ⟨0x4000, 2, 2, 48, .ro, 0, .none⟩,
  ⟨0x4010, 1, 16, 8, .ro, 0, .none⟩,
  ⟨0x4011, 1, 16, 4, .ro, 0, .none⟩,
  ⟨0x4012, 1, 16, 8, .ro, 0, .none⟩,
  ⟨0x4013, 1, 16, 4, .ro, 0, .none⟩]

/-- Rows of the object tables, part 5 (R476, R477 and the tables of each chapter). -/
def odTable5 : List OdRow := [
  ⟨0x4014, 0, 0, 1, .rw, 0, .range 0 1⟩,
  ⟨0x4020, 1, 16, 1, .ro, 255, .none⟩,
  ⟨0x4021, 1, 16, 1, .ro, 0, .none⟩,
  ⟨0x4022, 1, 16, 4, .ro, 0, .none⟩,
  ⟨0x4023, 1, 16, 4, .ro, 0, .none⟩,
  ⟨0x4024, 1, 16, 1, .ro, 0, .none⟩,
  ⟨0x4025, 1, 16, 8, .ro, 0, .none⟩,
  ⟨0x4026, 0, 0, 4, .ro, 1065604874, .none⟩,
  ⟨0x4027, 0, 0, 1, .rw, 0, .range 0 1⟩,
  ⟨0x4028, 0, 0, 2, .rw, 16, .range 4 1024⟩,
  ⟨0x4030, 1, 4, 1, .rws, 255, .rule⟩,
  ⟨0x4031, 1, 4, 8, .ro, 0, .none⟩,
  ⟨0x4032, 1, 4, 8, .ro, 0, .none⟩,
  ⟨0x4033, 1, 16, 8, .ro, 0, .none⟩,
  ⟨0x4034, 1, 16, 4, .ro, 0, .none⟩,
  ⟨0x4035, 0, 0, 1, .rw, 0, .range 0 1⟩,
  ⟨0x5001, 0, 0, 8, .rws, 0, .rule⟩,
  ⟨0x5002, 1, 16, 1, .ro, 0, .none⟩,
  ⟨0x5003, 0, 0, 1, .ro, 0, .none⟩,
  ⟨0x5004, 1, 16, 4, .ro, 0, .none⟩,
  ⟨0x5005, 1, 16, 4, .ro, 0, .none⟩,
  ⟨0x5006, 1, 16, 4, .ro, 0, .none⟩,
  ⟨0x5400, 0, 0, 16, .ro, 0, .none⟩,
  ⟨0x5401, 0, 0, 2, .ro, 0, .none⟩]

/-- Rows of the object tables, part 6 (R476, R477 and the tables of each chapter). -/
def odTable6 : List OdRow := [
  ⟨0x5402, 0, 0, 1, .ro, 1, .none⟩,
  ⟨0x5403, 0, 0, 4, .ro, 0, .none⟩,
  ⟨0x5406, 0, 0, 8, .ro, 0, .none⟩,
  ⟨0x5407, 1, 16, 2, .ro, 0, .none⟩,
  ⟨0x5410, 1, 64, 2, .rws, 0, .rule⟩,
  ⟨0x5411, 1, 64, 2, .ro, 0, .none⟩,
  ⟨0x5412, 1, 16, 4, .ro, 0, .none⟩,
  ⟨0x6000, 1, 2, 4, .ro, 0, .none⟩,
  ⟨0x6001, 1, 2, 8, .ro, 0, .none⟩,
  ⟨0x6002, 1, 2, 8, .ro, 0, .none⟩,
  ⟨0x6003, 1, 2, 8, .ro, 0, .none⟩,
  ⟨0x6004, 0, 0, 8, .ro, 0, .none⟩,
  ⟨0x6005, 0, 0, 1, .ro, 1, .none⟩,
  ⟨0x6010, 1, 16, 1, .rws, 0, .rule⟩,
  ⟨0x6020, 1, 63, 4, .rws, 0, .rule⟩,
  ⟨0x6021, 1, 63, 8, .rws, 0, .rule⟩,
  ⟨0x6022, 1, 16, 2, .rws, 0, .rule⟩,
  ⟨0x6030, 0, 0, 1, .rw, 0, .range 0 1⟩,
  ⟨0x6031, 1, 16, 4, .ro, 0, .none⟩,
  ⟨0x6040, 1, 16, 4, .ro, 0, .none⟩,
  ⟨0x6041, 1, 16, 8, .ro, 0, .none⟩,
  ⟨0x6042, 0, 0, 1, .rw, 0, .range 0 1⟩,
  ⟨0x6400, 0, 0, 1, .rws, 0, .range 0 2⟩,
  ⟨0x6401, 0, 0, 1, .rws, 255, .rule⟩]

/-- Rows of the object tables, part 7 (R476, R477 and the tables of each chapter). -/
def odTable7 : List OdRow := [
  ⟨0x6402, 0, 0, 1, .ro, 0, .none⟩,
  ⟨0x6403, 0, 0, 1, .ro, 20, .none⟩,
  ⟨0x6404, 0, 0, 8, .ro, 0, .none⟩,
  ⟨0x6405, 0, 0, 2, .rw, 720, .range 24 2160⟩,
  ⟨0x6406, 0, 0, 1, .rw, 0, .range 0 1⟩,
  ⟨0x6407, 0, 0, 4, .ro, 0, .none⟩,
  ⟨0x6408, 1, 16, 4, .rws, 0, .rule⟩,
  ⟨0x6409, 0, 0, 4, .ro, 0, .none⟩,
  ⟨0x640A, 0, 0, 4, .ro, 0, .none⟩,
  ⟨0x640B, 0, 0, 1, .rws, 1, .range 0 1⟩,
  ⟨0x640C, 0, 0, 1, .rws, 0, .range 0 1⟩,
  ⟨0x640D, 0, 0, 1, .rw, 0, .range 0 1⟩,
  ⟨0x6800, 1, 16, 32, .rw, 0, .rule⟩,
  ⟨0x6801, 1, 16, 8, .rw, 0, .rule⟩,
  ⟨0x6802, 1, 16, 8, .ro, 0, .none⟩,
  ⟨0x6803, 1, 16, 1, .rw, 0, .range 0 1⟩,
  ⟨0x6804, 1, 16, 4, .ro, 0, .none⟩,
  ⟨0x6805, 1, 4, 4, .ro, 0, .none⟩,
  ⟨0x6806, 0, 0, 1, .rw, 0, .range 0 1⟩,
  ⟨0x7000, 1, 16, 2, .rws, 0, .rule⟩,
  ⟨0x7001, 1, 16, 1, .rws, 0, .rule⟩,
  ⟨0x7002, 0, 0, 8, .ro, 0, .none⟩,
  ⟨0x7003, 0, 0, 4, .ro, 0, .none⟩,
  ⟨0x7004, 0, 0, 8, .ro, 0, .none⟩]

/-- Rows of the object tables, part 8 (R476, R477 and the tables of each chapter). -/
def odTable8 : List OdRow := [
  ⟨0x7005, 0, 0, 4, .ro, 0, .none⟩,
  ⟨0x7010, 1, 16, 8, .ro, 0, .none⟩,
  ⟨0x7011, 1, 16, 4, .ro, 0, .none⟩,
  ⟨0x7012, 1, 16, 8, .ro, 0, .none⟩,
  ⟨0x7014, 1, 16, 4, .ro, 0, .none⟩,
  ⟨0x7015, 1, 16, 4, .ro, 0, .none⟩,
  ⟨0x7016, 1, 16, 4, .ro, 0, .none⟩,
  ⟨0x7017, 1, 16, 4, .ro, 0, .none⟩,
  ⟨0x7018, 0, 0, 1, .rw, 0, .range 0 1⟩,
  ⟨0x7801, 1, 16, 2, .rwt, 0, .rule⟩,
  ⟨0x7802, 1, 16, 2, .rwt, 0, .range 0 10000⟩,
  ⟨0x7803, 1, 4, 2, .rwt, 0, .range 0 500⟩,
  ⟨0x7804, 1, 2, 2, .rwt, 0, .range 0 50⟩,
  ⟨0x7805, 0, 0, 2, .rwt, 0, .range 0 1000⟩,
  ⟨0x7806, 0, 0, 2, .rwt, 0, .range 0 1000⟩,
  ⟨0x7808, 0, 0, 4, .rwt, 1, .range 1 4294967295⟩,
  ⟨0x7810, 0, 0, 8, .rwt, 0, .rule⟩,
  ⟨0x7811, 0, 0, 4, .ro, 0, .none⟩,
  ⟨0x7C00, 1, 1, 4, .ro, 0, .none⟩,
  ⟨0x7C00, 2, 2, 4, .ro, 65536, .none⟩,
  ⟨0x7C00, 3, 3, 8, .ro, 1, .none⟩,
  ⟨0x7C00, 4, 4, 8, .ro, 0, .none⟩,
  ⟨0x7C00, 5, 5, 8, .ro, 0, .none⟩,
  ⟨0x7C01, 0, 0, 8, .rw, 0, .rule⟩]

/-- Rows of the object tables, part 9 (R476, R477 and the tables of each chapter). -/
def odTable9 : List OdRow := [
  ⟨0x7C02, 0, 0, 64, .ro, 0, .none⟩,
  ⟨0x7C03, 0, 0, 1, .rws, 0, .range 0 1⟩,
  ⟨0x7C10, 0, 0, 8, .ro, 0, .none⟩,
  ⟨0x7C11, 0, 0, 8, .ro, 0, .none⟩,
  ⟨0x7C12, 0, 0, 1, .rw, 0, .range 0 1⟩,
  ⟨0x7C20, 1, 6, 8, .ro, 0, .none⟩,
  ⟨0x7C21, 0, 0, 2, .rw, 24, .range 1 720⟩,
  ⟨0x7C22, 0, 0, 2, .ro, 0, .none⟩,
  ⟨0x7C23, 0, 0, 1, .ro, 0, .none⟩,
  ⟨0x7C24, 0, 0, 4, .ro, 0, .none⟩,
  ⟨0x7C25, 0, 0, 8, .ro, 0, .none⟩,
  ⟨0x7C26, 0, 0, 1, .rw, 0, .range 0 1⟩,
  ⟨0x7E00, 1, 1, 1, .ro, 0, .none⟩,
  ⟨0x7E00, 2, 2, 1, .ro, 0, .none⟩,
  ⟨0x7E00, 3, 3, 2, .ro, 0, .none⟩,
  ⟨0x7E00, 4, 4, 1, .ro, 0, .none⟩,
  ⟨0x7E00, 5, 5, 2, .ro, 0, .none⟩,
  ⟨0x7E01, 0, 0, 1, .rw, 0, .rule⟩,
  ⟨0x7E02, 0, 0, 32, .wo, 0, .rule⟩,
  ⟨0x7E03, 0, 0, 8, .rw, 0, .rule⟩,
  ⟨0x7E10, 0, 0, 1, .rws, 0, .rule⟩,
  ⟨0x7E11, 0, 0, 1, .rw, 255, .rule⟩,
  ⟨0x7E20, 0, 0, 2, .rws, 0, .rule⟩]

/-- Every object of the dictionary (R478). -/
def odTable : List OdRow :=
  odTable0 ++ odTable1 ++ odTable2 ++ odTable3 ++ odTable4 ++ odTable5 ++ odTable6 ++ odTable7 ++ odTable8 ++ odTable9

/-- The row that defines an object and subindex, if any (R463: NO_OBJECT otherwise). -/
def odRow (idx sub : Nat) : Option OdRow :=
  odTable.find? fun r => r.idx == idx && decide (r.lo ≤ sub) && decide (sub ≤ r.hi)

/-! ### Stored values -/

/-- Default source of a clock domain (R378). -/
def clkDefSource (sub : Nat) : Nat :=
  if sub = 0x18 ∨ sub = 0x19 then 2 else if sub = 0x1C ∨ sub = 0x27 then 3 else 0

/-- Default enables of a clock domain (R378), bit 0 run, bit 1 sleep, bit 2 deep-sleep. -/
def clkDefEnables (sub : Nat) : Nat :=
  if sub ≤ 0x14 then 1
  else if sub ≤ 0x19 then 3
  else if sub ≤ 0x1B then 1
  else if sub ≤ 0x1D then 7
  else if sub ≤ 0x25 then 3
  else if sub ≤ 0x27 then 7
  else 0

/-- The preset CVU setting, CRC-64/XZ (R424). -/
def cvuPreset : BitVec 256 :=
  BitVec.ofNat 256 (1 * 2 ^ 252 + 64 * 2 ^ 245 + 2 ^ 244 + 2 ^ 243 + 2 ^ 242 + 0x42F0E1EBA9EA3693 * 2 ^ 128
    + 0xFFFFFFFFFFFFFFFF * 2 ^ 64)

/-- The default of an object (R467). -/
def odDefault (idx sub : Nat) : Nat :=
  if idx = 0x1000 then clkDefSource sub
  else if idx = 0x1002 then clkDefEnables sub
  else if idx = 0x6800 then cvuPreset.toNat
  else if idx = 0x5410 ∧ 61 ≤ sub then
    (match sub with | 61 => 0x303F | 62 => 0x103F | 63 => 0x403F | _ => 0x103F)
  else ((odRow idx sub).map OdRow.dflt).getD 0

/-- The key of an object and subindex. -/
def odKey (idx sub : Nat) : Nat := 256 * idx + sub

/-- The stored value of an object. -/
def odGet (s : State) (idx sub : Nat) : Nat := (mget s.pav.vals (odKey idx sub)).getD (odDefault idx sub)

/-- Store a value. -/
def odSet (s : State) (idx sub v : Nat) : State :=
  { s with pav := { s.pav with vals := mset s.pav.vals (odKey idx sub) v } }

/-- Add to a counter of `w` bits, which saturates at its largest value. -/
def bumpBy (s : State) (idx sub w n : Nat) : State :=
  odSet s idx sub (min (odGet s idx sub + n) (2 ^ w - 1))

/-- Count one in a 32-bit counter. -/
def bump32 (s : State) (idx sub : Nat) : State := bumpBy s idx sub 32 1

/-- Count one in a 64-bit counter. -/
def bump64 (s : State) (idx sub : Nat) : State := bumpBy s idx sub 64 1

/-- Return objects lo to hi to their defaults, all subindices. -/
def odClearRange (s : State) (lo hi : Nat) : State :=
  { s with pav := { s.pav with vals := mdrop s.pav.vals fun k => decide (lo ≤ k / 256) && decide (k / 256 ≤ hi) } }

/-- Return one object and subindex to its default, with its clamp counter (R469). -/
def odReset (s : State) (idx sub : Nat) : State :=
  { s with pav := { s.pav with vals := mdel s.pav.vals (odKey idx sub), clamps := mdel s.pav.clamps (odKey idx sub) } }

/-! ### Rights (R459, R460, R473) -/

/-- Objects stored in flash (R470). -/
def odFlash (idx : Nat) : Bool :=
  (decide (0x0400 ≤ idx) && decide (idx ≤ 0x0FFF)) || idx == 0x6400 || idx == 0x6401 || idx == 0x6405

/-- Objects whose subindex p + 1 names partition p. -/
def odByPart (idx : Nat) : Bool :=
  [0x2001, 0x2002, 0x2003, 0x2004, 0x2013, 0x2400, 0x2401, 0x2402, 0x2403,
   0x3000, 0x3001, 0x3002, 0x3003, 0x3010, 0x3011, 0x3012, 0x3013, 0x3014, 0x3015].contains idx
  || [0x3020, 0x3021, 0x3022, 0x3023, 0x3024, 0x3025, 0x3026, 0x3030, 0x3032, 0x3033,
   0x3800, 0x3801, 0x3802, 0x3803, 0x3804, 0x5002, 0x5004, 0x5005, 0x5006, 0x5412].contains idx
  || [0x6010, 0x6022, 0x6040, 0x6041, 0x6408, 0x6804, 0x7000, 0x7001, 0x7010, 0x7011, 0x7012, 0x7014, 0x7015,
   0x7016, 0x7017].contains idx

/-- Objects whose subindex f names function f. -/
def odByFunc (idx : Nat) : Bool := [0x6800, 0x6801, 0x6802, 0x6803].contains idx

/-- The role of a session, and OPERATOR for a window (R459, R473). -/
def roleOf (s : State) : DictSrc → Role'
  | .session sid =>
    match mget s.pav.sessions sid.val with
    | some x => if x.isOpen then x.role else .none
    | none => .none
  | .window _ => .operator

/-- What a virtual function's window may name (R473). -/
def windowScope (f idx sub : Nat) (write : Bool) (acc : OdAcc) : Bool :=
  let p := f - 1
  (!write && acc == .ro && (decide (idx ≤ 0x03FF) || (decide (0x1100 ≤ idx) && decide (idx ≤ 0x11FF))
      || (decide (0x1400 ≤ idx) && decide (idx ≤ 0x15FF))))
  || (odByPart idx && (sub == p + 1 || (idx == 0x3011 && sub == 0x11 + p)))
  || (odByFunc idx && sub == f)
  || idx == 0x7C01 || (idx == 0x7C02 && !write)

/-- OD 0x0407 reads CLAIMED: some credential entry holds role OFFICER (R460). -/
def claimed (s : State) : Bool :=
  (List.range 16).any fun i => odGet s 0x0400 (i + 1) % 256 == 3

/-- Whether a source may read an object of an access class (R459, R473). -/
def mayRead (s : State) (src : DictSrc) (idx sub : Nat) (acc : OdAcc) : Bool :=
  let role := roleOf s src
  let hidden := decide (0x0400 ≤ idx) && decide (idx ≤ 0x0FFF) && idx != 0x0401 && idx != 0x0404
  acc != .wo && role != .none && (!hidden || role == .officer)
  && (match src with | .window f => f.val == 0 || windowScope f.val idx sub false acc | _ => true)

/-- Whether a source may write an object of an access class (R459, R460, R473). -/
def mayWrite (s : State) (src : DictSrc) (idx sub : Nat) (acc : OdAcc) : Bool :=
  let role := roleOf s src
  let byRole :=
    match acc with
    | .ro => false
    | .rw => role == .operator || role == .officer
    | .wo => role == .operator || role == .officer
    | .rws => role == .officer
    | .rwt => role == .test
  (byRole && (match src with | .window f => f.val == 0 || windowScope f.val idx sub true acc | _ => true))
  || (idx == 0x0400 && src == .window 0 && !claimed s)

/-! ### Clamping (R468) -/

/-- Rules 3 and 4 of R468 for a plain range. -/
def clampTo (c : OdClamp) (v : Nat) : Nat :=
  match c with
  | .range lo hi => min hi (max lo v)
  | .signed lo hi => ux 32 (min hi (max lo (sx 32 v)))
  | .step lo hi st =>
    let w := min hi (max lo v)
    let dn := lo + (w - lo) / st * st
    if (w - dn) * 2 ≤ st then dn else dn + st
  | _ => v

/-! ### Answers (R462 to R464, R474) -/

/-- Pad bytes with zeros to a multiple of 8. -/
def pad8 (v : List Byte) : List Byte := v ++ List.replicate ((8 - v.length % 8) % 8) 0

/-- One operation's answer in a RESPONSE (R462). -/
def answerBytes (status idx sub : Nat) (v : List Byte) : List Byte :=
  leBytes 1 status ++ leBytes 1 sub ++ leBytes 2 idx ++ leBytes 2 v.length ++ leBytes 2 0 ++ pad8 v

/-- The IPv6 session number of a session. -/
def sessNo (sid : Nat) : W32 := BitVec.ofNat 32 (sid + 1)

/-- Give an operation its answer: in the RESPONSE being built, sent with the message's last operation, or in the window. -/
def dictAnswer (s : State) (rq : DictReq) (status idx sub : Nat) (v : List Byte) : State :=
  match rq.src with
  | .session sid =>
    match mget s.pav.sessions sid.val with
    | none => s
    | some x =>
      let b := x.building ++ answerBytes status idx sub v
      let n := x.ops + 1
      if !x.isOpen then s
      else if rq.last then
        let body := leBytes 4 rq.reqId.toNat ++ leBytes 1 n ++ leBytes 3 0 ++ b
        let x' := { x with building := [], ops := 0, responses := ((rq.reqId, body) :: x.responses).take 16, txSeq := x.txSeq + 1 }
        { s with
          pav := { s.pav with
            sessions := mset s.pav.sessions sid.val x'
            inbox := s.pav.inbox.filter fun m => !(m.typ == 8 && m.sid == sessNo sid.val && leNat (m.body.take 4) == rq.reqId.toNat) }
          out := .datagram x.seg 9 (sessNo sid.val) x.txSeq body :: s.out }
      else { s with pav := { s.pav with sessions := mset s.pav.sessions sid.val { x with building := b, ops := n } } }
  | .window f =>
    let w := mgetD s.pav.windows f.val {}
    { s with pav := { s.pav with
        windows := mset s.pav.windows f.val
          { w with busy := false, status := status, len := v.length, value := (v ++ List.replicate 128 0).take 128 } } }

/-- Source number of OD 0x7C11 (R474, R477). -/
def srcNo : DictSrc → Nat
  | .session _ => 0
  | .window f => 1 + f.val

/-- The clock domain with a subindex runs in the present clock state, by OD 0x1002 (R384). -/
def clkRuns (s : State) (sub : Nat) : Bool :=
  (odGet s 0x1002 sub).testBit (match s.tray.clockState with | .run => 0 | .sleep => 1 | .deepSleep => 2)

/-- The PCI Express port is powered and clocked (R18, R384). -/
def pcieOn (s : State) : Bool := s.tray.hub.pcie && clkRuns s 0x17

/-- Pavilion answers: powered, clocked and not restarting (R384, R471). -/
def pavOn (s : State) : Bool := s.tray.hub.pavilion && !s.pav.restarting && clkRuns s 0x1D

/-- A function by number. -/
def funcOf (f : Nat) : Func := ⟨f % 17, Nat.mod_lt _ (by decide)⟩

/-- The registers of a function. -/
def fnGet (s : State) (f : Nat) : FuncS := mgetD s.pcie.funcs f {}

/-- Replace the registers of a function. -/
def fnSet (s : State) (f : Nat) (x : FuncS) : State := { s with pcie := { s.pcie with funcs := mset s.pcie.funcs f x } }

/-! ### MSI-X (R491) -/

/-- A vector's mask bit: bit 0 of its control word, set at reset. -/
def vecMasked (x : FuncS) (v : Nat) : Bool := (mgetD x.msix (4 * v + 3) 1).testBit 0

/-- Send a vector, or leave it pending while it is masked. -/
def msixSend (s : State) (f v : Nat) : State :=
  let x := fnGet s f
  if vecMasked x v then fnSet s f { x with pendingVec := if x.pendingVec.contains v then x.pendingVec else v :: x.pendingVec }
  else emit s (.msix (funcOf f) v)

/-! ### The error log (R475, R536, R543) -/

/-- The perturbation word (R418): bit 0 while a delay or withholding object is nonzero or an injection is pending, bit 1 once one has been written. -/
def perturbWord (s : State) : Nat :=
  let nz (idx n : Nat) : Bool := (List.range n).any fun i => odGet s idx (i + 1) != 0
  (if nz 0x7801 16 || nz 0x7802 16 || nz 0x7803 4 || nz 0x7804 2 || odGet s 0x7805 0 != 0 || odGet s 0x7806 0 != 0
      || odGet s 0x7810 0 != 0 then 1 else 0)
  + (if s.gate.perturbUsed then 2 else 0)

/-- What a log record says beside its sequence number and time (R543). -/
structure LogInfo where
  cls : Nat
  block : Nat
  kind : Nat := 0
  part : Nat := 0xFF
  loc : Nat := 0
  quad : Nat := 0x3F
  step : Nat := 0xFFFF
  action : Nat := 0
  injected : Bool := false
  rep : Nat := 0
  addr : Nat := 0
  detail : Nat := 0
  deriving DecidableEq, Repr

/-- The 64 B record (R543). -/
def logBits (s : State) (i : LogInfo) : W512 :=
  BitVec.ofNat 512 (s.pav.nextSeq % 2 ^ 64 * 2 ^ 448 + s.clk.timebase.toNat * 2 ^ 384 + i.cls % 16 * 2 ^ 380
    + i.block % 16 * 2 ^ 376 + i.kind % 256 * 2 ^ 368 + i.part % 256 * 2 ^ 360 + i.loc % 2 ^ 20 * 2 ^ 340
    + i.quad % 64 * 2 ^ 334 + i.step % 2 ^ 16 * 2 ^ 318 + i.action % 16 * 2 ^ 314
    + (if i.injected then 2 ^ 313 else 0) + (perturbWord s % 2) * 2 ^ 312 + min i.rep 0xFFFF * 2 ^ 296
    + i.addr % 2 ^ 48 * 2 ^ 248 + i.detail % 2 ^ 64 * 2 ^ 184)

/-- Append a record to the log ring, overwriting the oldest when full (R475); classes 4 and 5 go to flash too (R543), and vector 2 of the physical function is raised (R491). -/
def logPush (s : State) (i : LogInfo) : State :=
  let r := logBits s i
  let s := if s.pav.log.length ≥ 65536 then bump64 s 0x7C00 5 else s
  let s := { s with pav := { s.pav with log := (r :: s.pav.log).take 65536, nextSeq := s.pav.nextSeq + 1 } }
  let s := if i.cls ≥ 4 then { s with flash := { s.flash with keptLog := (r :: s.flash.keptLog).take 1024 } } else s
  msixSend s 0 2

/-- Count an error of a class (OD 0x7C20) and log it. -/
def logErr (s : State) (i : LogInfo) : State := logPush (bump64 s 0x7C20 (i.cls + 1)) i

/-- Count an error and log it at most once per resource per `gap` ns (R536: a NOTICE each second, a CORRECTED summary each 60 s). -/
def logSparse (s : State) (res gap : Nat) (i : LogInfo) : State :=
  let s := bump64 s 0x7C20 (i.cls + 1)
  let due := match mget s.pav.noticeAt res with
    | some t => decide (t + gap ≤ s.clk.now)
    | none => true
  if due then
    logPush { s with pav := { s.pav with noticeAt := mset s.pav.noticeAt res s.clk.now } } i
  else s

/-- A NOTICE (R536). -/
def notice (s : State) (res : Nat) (i : LogInfo) : State := logSparse s res 1000000000 { i with cls := 1 }

/-- A CORRECTED summary (R536). -/
def corrected (s : State) (res : Nat) (i : LogInfo) : State := logSparse s res 60000000000 { i with cls := 0 }

/-- Count a clamp of an object (R469). -/
def countClamp (s : State) (src : DictSrc) (idx sub : Nat) : State :=
  let c := min (mgetD s.pav.clamps (odKey idx sub) 0 + 1) (2 ^ 32 - 1)
  let s := { s with pav := { s.pav with clamps := mset s.pav.clamps (odKey idx sub) c } }
  let s := bump64 s 0x7C10 0
  let s := notice s (2 ^ 61 + odKey idx sub) { cls := 1, block := 13, detail := odKey idx sub, action := 1 }
  odSet s 0x7C11 0 (idx * 2 ^ 48 + sub * 2 ^ 40 + srcNo src * 2 ^ 32 + (s.clk.timebase.toNat / 1000000) % 2 ^ 32)

/-- A WRITE operation (R462 to R469): the checks of R463, the clamp, the stored value, the block's own effect, the answer.
`clamp` gives the value to store; `stored` the bytes the object then reads as; `effect` what the block does with it. -/
def dictWrite (s : State) (rq : DictReq) (idx sub : Nat) (v : List Byte)
    (clamp : State → Nat → Nat) (effect : State → Nat → State) : State :=
  if !pavOn s then s
  else
    match odRow idx sub with
    | none => dictAnswer s rq 1 idx sub []
    | some r =>
      if !mayWrite s rq.src idx sub r.acc then dictAnswer s rq 2 idx sub []
      else if v.length ≠ r.size then dictAnswer s rq 3 idx sub []
      else
        let raw := leNat v
        let w := clamp s raw
        let s := if w = raw then s else countClamp s rq.src idx sub
        let s := odSet s idx sub w
        let s := effect s w
        dictAnswer s rq 0 idx sub (leBytes r.size (odGet s idx sub))

/-- Clamp by the row's plain range. -/
def clampRow (idx sub : Nat) (_ : State) (v : Nat) : Nat :=
  match odRow idx sub with
  | some r => clampTo r.clamp v
  | none => v

/-- A counter clear: writing 1 does the clear and the object returns to 0. -/
def dictClear (s : State) (rq : DictReq) (idx : Nat) (v : List Byte) (clear : State → State) : State :=
  dictWrite s rq idx 0 v (clampRow idx 0) fun s w => if w = 1 then odSet (clear s) idx 0 0 else s

end Sys2Proof.Machine
end

