-- ==== Sys2Proof/Machine/Mem.lean ====
section
/-! DEFINITION. The tray physical address map, HBM and on-chip storage with their ownership checks (R78, R82, R90 to R92, R143 to R150, R404). -/

namespace Sys2Proof.Machine

open Sys2Proof

/-! ### Bytes -/

/-- Store bytes from an address on, each listed. -/
def cellsPut : List Host.Cell → Nat → List Byte → List Host.Cell
  | m, _, [] => m
  | m, a, b :: t => cellsPut (mset m a b) (a + 1) t

/-- Store bytes where an unlisted byte is zero: a zero erases its entry. -/
def cellsPutZ : List Host.Cell → Nat → List Byte → List Host.Cell
  | m, _, [] => m
  | m, a, b :: t => cellsPutZ (if b = 0 then mdel m a else mset m a b) (a + 1) t

/-- Erase the bytes of a range. -/
def cellsDrop (m : List Host.Cell) (lo n : Nat) : List Host.Cell :=
  mdrop m fun k => decide (lo ≤ k) && decide (k < lo + n)

/-! ### Ownership of quadrants and location identifiers -/

/-- Partition that owns a quadrant, else 0x3F (R399). -/
def quadOwner (s : State) (q : Nat) : Nat :=
  ((List.range 16).find? fun p =>
    match mget s.gate.parts p with
    | some x => (x.st == .active || x.st == .revoking) && x.quads.getLsbD q
    | none => false).getD 0x3F

/-- A quadrant is powered and clocked (R384). -/
def quadOn (s : State) (q : Nat) : Bool := s.tray.quadOn.getLsbD q && clkRuns s (q + 1)

/-- The quadrant of a cluster is powered and clocked (R13, R16, R384). -/
def clusOn (s : State) (c : Nat) : Bool := quadOn s (clusQuad c)

/-- Location identifier of a cluster (R27). -/
def locOfClus (c : Nat) : Nat := (c / 8) * 65536 + (c % 8) * 2048

/-- Location identifier of a core (R27). -/
def locOfCore (k : Nat) : Nat := locOfClus (k / 8) + (k % 8) * 128

/-- The cluster that a location identifier names as a whole, if it is one (R27). -/
def clusOfLoc (l : Nat) : Option Nat :=
  let d := l / 65536; let c := l / 2048 % 32
  if d < 4 ∧ c < 8 ∧ l % 2048 = 0 then some (8 * d + c) else none

/-- The core that a location identifier names. -/
def coreOfLoc (l : Nat) : Option Nat :=
  let d := l / 65536; let c := l / 2048 % 32; let k := l / 128 % 16
  if d < 4 ∧ c < 8 ∧ k < 8 ∧ l % 128 = 0 then some (64 * d + 8 * c + k) else none

/-- Legal location identifiers of generation 1 (R27). -/
def locLegal (l : Nat) : Bool :=
  let d := l / 65536; let c := l / 2048 % 32; let k := l / 128 % 16; let e := l / 16 % 8
  l % 16 == 0 && ((decide (d < 4) && decide (c < 8) && decide (k < 8) && decide (e < 4)) || (d == 8 && c == 0 && k == 0 && e == 0))

/-- Tray physical address of a byte of cluster SRAM (R145). -/
def clusAddr (c off : Nat) : Nat := 2 ^ 47 + locOfClus c * 2 ^ 24 + off

/-- Tray physical address of a byte of core local SRAM (R145). -/
def coreAddr (k off : Nat) : Nat := 2 ^ 47 + locOfCore k * 2 ^ 24 + 0x400000 + off

/-! ### The address map (R143 to R147) -/

/-- Populated bytes of a die window (R144). -/
def populated (s : State) : Nat :=
  match s.fuses.part with
  | .kft4120 => 0x0C00000000
  | .kft4136 => 0x1200000000

/-- Where a tray physical address leads. -/
inductive Place
  | hbm (die off : Nat)
  | clus (c off : Nat)
  | core (k off : Nat)
  | bad
  deriving DecidableEq, Repr

/-- The place of an address (R143 to R146). -/
def placeOf (s : State) (a : Nat) : Place :=
  if a < 2 ^ 39 then
    (if a % 2 ^ 37 < populated s then .hbm (a / 2 ^ 37) (a % 2 ^ 37) else .bad)
  else if a < 2 ^ 47 then .bad
  else if a ≥ 2 ^ 48 then .bad
  else
    let l := (a - 2 ^ 47) / 2 ^ 24
    let off := a % 2 ^ 24
    match coreOfLoc l with
    | none => .bad
    | some k =>
      if off < 0x200000 then (if k % 8 = 0 ∧ clusOfLoc l = some (k / 8) then .clus (k / 8) off else .bad)
      else if 0x400000 ≤ off ∧ off < 0x4C0000 then .core k (off - 0x400000)
      else .bad

/-- Granule of an HBM address (R148). -/
def granOf (a : Nat) : Nat := a / 2 ^ 21

/-- Granules of a die window begin at 65,536 × die; backed ones and the tray-reserved top 512 MiB (R147, R148). -/
def granBacked (s : State) (g : Nat) : Bool := decide (g < 262144) && decide (g % 65536 < populated s / 2 ^ 21)

/-- Tray-reserved granules (R147). -/
def granReserved (s : State) (g : Nat) : Bool :=
  granBacked s g && decide (populated s / 2 ^ 21 - 256 ≤ g % 65536)

/-- The entry of a granule (R148): tray-reserved granules belong to tag 0x3F under slot 63, unbacked ones read FREE. -/
def granGet (s : State) (g : Nat) : Granule :=
  if !granBacked s g then { st := .free }
  else if granReserved s g then
    (mget s.mem.granules g).getD { st := .owned, owner := 0x3F, slot := 63 }
  else (mget s.mem.granules g).getD s.mem.mapBase

/-- Write an entry of the map (R149). -/
def granSet (s : State) (g : Nat) (e : Granule) : State :=
  if granBacked s g then { s with mem := { s.mem with granules := mset s.mem.granules g e } } else s

/-- Granules of a die in the map that an entry differs from the base for. -/
def granKeys (s : State) : List Nat := mkeys s.mem.granules

/-- A key slot is an XTS slot of a tag and holds a generation as CUR or OLD (R404). -/
def xtsHolds (s : State) (slot : Nat) (tag : Nat) (gen : Nat) : Bool :=
  match mget s.gate.slots slot with
  | some k => if slot = 63 then k.curKey.isSome else k.kind == .xts && k.owner.toNat == tag && ((k.curKey.isSome && k.cur == gen) || k.old.map Prod.fst == some gen)
  | none => slot == 63

/-- The line check of R150 with the key check of R404. -/
def lineOk (s : State) (tag : Nat) (a : Nat) : Bool :=
  let e := granGet s (granOf a)
  e.owner.toNat == tag && (e.st == .owned || e.st == .revoking) && xtsHolds s e.slot.toNat tag e.gen.toNat

/-- Tweak of a line (R157): its tray physical address divided by 64. -/
def lineTweak (a : Nat) : BitVec 128 := BitVec.ofNat 128 (a / 64)

/-- A byte of HBM as plaintext: what was written since its granule was scrubbed, else the decryption of zero ciphertext (R157, R417). -/
def hbmByte (s : State) (a : Nat) : Byte :=
  (mget s.mem.hbm a).getD
    ((Config.xtsDecrypt (granGet s (granOf a)).zeroKey (lineTweak a) (List.replicate 64 0)).getD (a % 64) 0)

/-- `n` bytes of HBM. -/
def hbmBytes (s : State) (a n : Nat) : List Byte := (List.range n).map fun i => hbmByte s (a + i)

/-- The key that a granule's KEY_SLOT and KEY_GEN name (R157, R404). -/
def granKey (s : State) (e : Granule) : Option Nat :=
  match mget s.gate.slots e.slot.toNat with
  | some k =>
    if k.curKey.isSome && k.cur == e.gen.toNat then k.curKey
    else if k.old.map Prod.fst == some e.gen.toNat then k.old.map Prod.snd
    else none
  | none => none

/-- The 64 bytes that the stack holds for a line (R157): a line never written since its granule was scrubbed holds zeros (R417), any other the ciphertext of its plaintext under its own tweak; none where the key is gone. -/
def lineStored (s : State) (a : Nat) : Option (List Byte) :=
  let l := a / 64 * 64
  if ((List.range 64).all fun i => (mget s.mem.hbm (l + i)).isNone) then some (List.replicate 64 0)
  else (granKey s (granGet s (granOf a))).map fun k => Config.xtsEncrypt k (lineTweak a) (hbmBytes s l 64)

/-- Write bytes of HBM. -/
def hbmPut (s : State) (a : Nat) (bs : List Byte) : State :=
  { s with mem := { s.mem with hbm := cellsPut s.mem.hbm a bs } }

/-! ### What the Carousel keeps in HBM (R214 to R216, R223) -/

/-- The 32-bit word of a sequence record at an address, where a record lies there (R214): first the page table, then the token log. -/
def recWord (s : State) (a : Nat) : Option (BitVec 32) :=
  s.car.reqs.findSome? fun (_, r) =>
    let b := r.recFrame * 16384
    let i := (a - b) / 4
    let n := r.layers * r.bmax
    if r.recFrames = 0 ∨ a < b ∨ a ≥ b + r.recBytes then none
    else if i < n then some (mgetD r.pages i 0)
    else some (r.tokens.getD (i - n) 0)

/-- Frames of a granule at a page size. -/
def framesPer (n : Nat) : Nat := 128 / 2 ^ n

/-- Metadata granules of an extent of N granules (R215). -/
def metaGranules (n ng : Nat) : Nat := cdiv (ng * framesPer n * 4) (2 ^ 21) + cdiv (ng * framesPer n) 32768

/-- Block records of an extent (R215). -/
def extentRecs (n ng : Nat) : Nat := ng * framesPer n / 16

/-- A frame table entry (R216): frame j of an extent, whose metadata frames read as in use. -/
def frameWord (x : Pool) (n : Nat) (e : Extent) (j : Nat) : BitVec 32 :=
  let per := framesPer n
  if j ≥ e.granules.length * per then 0
  else if j / per < metaGranules n e.granules.length then 0x4000
  else
    let f := mgetD x.frames (e.granules.getD (j / per) 0 * 128 + j % per * 2 ^ n) {}
    let st := match f.st with | .free => 0 | .inUse => 1 | .quarantine => 2 | .fenced => 3
    BitVec.ofNat 32 (f.ref * 65536 + st * 16384 + f.decEpoch.getD 0 % 256 * 16)

/-- Bytes padded with zeros to a length. -/
def padTo (n : Nat) (l : List Byte) : List Byte := l.take n ++ List.replicate (n - l.length) 0

/-- A block record (R223). -/
def recBytes (p : Nat) (r : BlockRec) : List Byte :=
  leBytes 8 r.hash.toNat ++ leBytes 8 r.kvId.toNat ++ leBytes 4 r.variant ++ leBytes 4 r.parent ++ leBytes 2 r.layers
  ++ leBytes 1 (r.tok / 32) ++ leBytes 1 p ++ List.replicate 228 0
  ++ padTo 256 (r.tokens.flatMap fun t => leBytes 4 t.toNat) ++ padTo 512 (r.frames.flatMap (leBytes 4))

/-- A byte of a pool's metadata granules (R215): the frame tables and the block records, each extent's first granules. -/
def metaByte (s : State) (a : Nat) : Option Byte :=
  s.kv.pools.findSome? fun (p, x) =>
    match x.pageExp with
    | none => none
    | some n =>
      x.extents.zipIdx.findSome? fun (e, i) =>
        let ng := e.granules.length
        match (e.granules.take (metaGranules n ng)).findIdx? (· == granOf a) with
        | none => none
        | some gi =>
          let o := gi * 2 ^ 21 + a % 2 ^ 21
          let ft := cdiv (ng * framesPer n * 4) (2 ^ 21) * 2 ^ 21
          if o < ft then some (BitVec.ofNat 8 ((frameWord x n e (o / 4)).toNat >>> (8 * (o % 4))))
          else
            let k := (o - ft) / 1024
            if k ≥ extentRecs n ng then some 0
            else
              let b := lsum ((x.extents.take i).map fun e => extentRecs n e.granules.length) + k
              some (((mget x.recs b).map fun r => (recBytes p r).getD (o % 1024) 0).getD 0)

/-- A byte of HBM as a reader finds it: sequence records and pool metadata are what the Carousel keeps there (R214, R215), all else what was written. -/
def seenByte (s : State) (a : Nat) : Byte :=
  match recWord s a with
  | some w => BitVec.ofNat 8 (w.toNat >>> (8 * (a % 4)))
  | none => (metaByte s a).getD (hbmByte s a)

/-- `n` bytes of HBM as a reader finds them. -/
def seenBytes (s : State) (a n : Nat) : List Byte := (List.range n).map fun i => seenByte s (a + i)

/-! ### On-chip lines (R90, R91) -/

/-- An on-chip line that an owner may read: written, and its tag the owner's (R91). -/
def tagOk (s : State) (owner a : Nat) : Bool :=
  match mget s.mem.lines (a / 64) with
  | some t => t.written && t.tag.toNat == owner
  | none => false

/-- A byte of an on-chip line as its reader sees it (R91). -/
def sramByte (s : State) (owner a : Nat) : Byte :=
  if tagOk s owner a then (mget s.mem.sram a).getD 0 else 0

/-- `n` bytes of on-chip storage. -/
def sramBytes (s : State) (owner a n : Nat) : List Byte := (List.range n).map fun i => sramByte s owner (a + i)

/-- Take a line for a writer: where its tag differs or it is unwritten, its other bytes become zero (R91). -/
def lineTake (s : State) (owner a : Nat) : State :=
  if tagOk s owner a then s
  else { s with mem := { s.mem with
    sram := cellsDrop s.mem.sram (a / 64 * 64) 64
    lines := mset s.mem.lines (a / 64) { tag := BitVec.ofNat 6 owner, written := true } } }

/-- Write bytes of on-chip storage (R91). -/
def sramPut (s : State) (owner a : Nat) (bs : List Byte) : State :=
  if bs = [] then s
  else
    let lines := (List.range ((a + bs.length - 1) / 64 + 1 - a / 64)).map fun i => (a / 64 + i) * 64
    let s := each lines (fun s l => lineTake s owner l) s
    { s with mem := { s.mem with sram := cellsPutZ s.mem.sram a bs } }

/-- Lines of a range that the reader finds unwritten, for OD 0x4012. -/
def unwritten (s : State) (owner a n : Nat) : Nat :=
  ((List.range (if n = 0 then 0 else (a + n - 1) / 64 + 1 - a / 64)).filter fun i => !tagOk s owner ((a / 64 + i) * 64)).length

/-- Read on-chip bytes and count the unwritten lines of the quadrant (R91, OD 0x4012). -/
def sramRead (s : State) (quad owner a n : Nat) : List Byte × State :=
  let u := unwritten s owner a n
  (sramBytes s owner a n, if u = 0 then s else bumpBy s 0x4012 (quad + 1) 64 u)

/-! ### Local SRAM of a core (R78) -/

/-- Set a core's address-fault bit and report it (R78, R183, R536). -/
def addrMark (s : State) (k : Nat) : State :=
  let c := mgetD s.cores k {}
  let s := { s with cores := mset s.cores k { c with addrFault := true } }
  notice s (locOfCore k * 256 + 1) { cls := 1, block := 0, kind := 1, loc := locOfCore k, quad := coreQuad k,
                                      part := (let o := quadOwner s (coreQuad k); if o = 0x3F then 0xFF else o) }

/-- An access with GROUP = 3 (R78), counted in OD 0x4013. -/
def addrFault (s : State) (k : Nat) : State := bump32 (addrMark s k) 0x4013 (coreQuad k + 1)

/-- The accesses that `n` bytes from a local address take, one to a 64 B line: address and bytes. Addresses wrap at 20 bits (R78). -/
def localSpans (off n : Nat) : List (Nat × Nat) :=
  if n = 0 then []
  else
    let off := off % 2 ^ 20
    (List.range ((off + n - 1) / 64 + 1 - off / 64)).map fun i =>
      let lo := max off ((off / 64 + i) * 64)
      (lo % 2 ^ 20, min (off + n) ((off / 64 + i + 1) * 64) - lo)

/-- One access of a core to its local SRAM; GROUP 3 reads zero and is an address fault (R78). -/
def localLine (s : State) (k off n : Nat) : List Byte × State :=
  if off ≥ 0xC0000 then (List.replicate n 0, addrFault s k)
  else sramRead s (coreQuad k) (quadOwner s (coreQuad k)) (coreAddr k off) n

/-- Bytes of core local SRAM, line by line (R78). -/
def localRead (s : State) (k off n : Nat) : List Byte × State :=
  (localSpans off n).foldl (fun (acc : List Byte × State) p =>
    let (b, s) := localLine acc.2 k p.1 p.2
    (acc.1 ++ b, s)) ([], s)

/-- Write core local SRAM, line by line; GROUP 3 is discarded (R78). -/
def localWrite (s : State) (k off : Nat) (bs : List Byte) : State :=
  ((localSpans off bs.length).foldl (fun (acc : List Byte × State) p =>
    (acc.1.drop p.2,
     if p.1 ≥ 0xC0000 then addrFault acc.2 k
     else sramPut acc.2 (quadOwner acc.2 (coreQuad k)) (coreAddr k p.1) (acc.1.take p.2))) (bs, s)).2

/-! ### Clearing a quadrant (R92) -/

/-- An on-chip address lies in a quadrant. -/
def inQuad (q a : Nat) : Bool :=
  let l := (a - 2 ^ 47) / 2 ^ 24
  decide (2 ^ 47 ≤ a) && 4 * (l / 65536) + (l / 2048 % 32) / 2 == q

/-- R92: written bits, accumulators, registers, setups, flag words and sync counters of a quadrant are cleared, and its stall count begins anew (OD 0x4010). -/
def quadClear (s : State) (q : Nat) : State :=
  let s := odSet s 0x4010 (q + 1) 0
  { s with
    mem := { s.mem with
      sram := mdrop s.mem.sram (inQuad q)
      lines := mdrop s.mem.lines fun l => inQuad q (l * 64) }
    cores := (s.cores.map fun (k, c) =>
      if coreQuad k = q then (k, { c with vregs := [], setups := [], flags := 0, accs := [] })
      else (k, c))
    sync := mdrop s.sync fun n => n / 512 / 2 == q }

end Sys2Proof.Machine
end

