-- ==== Sys2Proof/Machine/Sync.lean ====
section
/-! DEFINITION. Sync counters of clusters and of the cabinet (R86 to R89, R336) and release counters (R306). -/

namespace Sys2Proof.Machine

open Sys2Proof

/-- The value with every operation so far committed: the SET of the cycle first, then its POSTs (R88). -/
def cntValue (c : Counter) : W32 := ((c.set.map Prod.snd).getD c.base) + c.posts

/-- The value at the start of a quadrant cycle (R86, R88). -/
def cntAt (c : Counter) (cyc : Nat) : W32 := if c.cyc < cyc then cntValue c else c.base

/-- The counter moved on to a cycle: earlier operations commit. -/
def cntRoll (c : Counter) (cyc : Nat) : Counter :=
  if c.cyc < cyc then { base := cntValue c, cyc := cyc, set := none, posts := 0 } else c

/-- WAIT t is satisfied at a value (R86): serial-number comparison. -/
def waitOk (v t : W32) : Bool := decide ((v - t).toNat < 2 ^ 31)

/-- Number of a sync counter. -/
def cntKey (c n : Nat) : Nat := 512 * c + n

/-- The counter. -/
def cntGet (s : State) (c n : Nat) : Counter := mgetD s.sync (cntKey c n) {}

/-- Count a foreign operation (R89): bits 30:0 of OD 0x4011 saturate, bit 31 is the conflict bit. -/
def foreignOp (s : State) (c : Nat) : State :=
  let q := clusQuad c + 1
  let v := odGet s 0x4011 q
  odSet s 0x4011 q (v / 2 ^ 31 * 2 ^ 31 + min (v % 2 ^ 31 + 1) (2 ^ 31 - 1))

/-- POST of R86 with the partition check of R89, by a unit whose command names no cycle. DESIGN CHOICE (log entry 98): it falls into the latest cycle that an operation on the counter has named, with the others of that cycle (R88). -/
def cntPost (s : State) (part c n : Nat) (amt : W32) : State :=
  if !clusOn s c then s
  else if quadOwner s (clusQuad c) ≠ part then foreignOp s c
  else
    let x := cntGet s c n
    { s with sync := mset s.sync (cntKey c n) { x with posts := x.posts + amt } }

/-- Set a counter to a value at once: RESET at step start (R107), saves and restores. -/
def cntForce (s : State) (c n : Nat) (v : W32) : State :=
  { s with sync := mset s.sync (cntKey c n) { base := v, cyc := (cntGet s c n).cyc } }

/-- A session decodes (R301: bit 1019 of the descriptor is 0). -/
def vDecodes (v : VSession) : Bool := !bit v.desc 1019

/-- RESET of a sync table entry at step start (R107, R124): a counter of the partition becomes zero, one of another partition is a foreign operation (R89), and the release counter of an open decode session of the partition becomes zero (R306). -/
def locReset (s : State) (part loc cnt : Nat) : State :=
  if loc = 0x80000 then
    match (if cnt < 512 then mget s.zoe.sessions cnt else none) with
    | some v => if v.f.val = part ∧ vDecodes v then { s with zoe := { s.zoe with releases := mset s.zoe.releases cnt 0 } } else s
    | none => s
  else
    match clusOfLoc loc with
    | some c => if !clusOn s c then s else if quadOwner s (clusQuad c) = part then cntForce s c cnt 0 else foreignOp s c
    | none => s

/-- The held pictures of a session, oldest first in output order (R304, R306): slot and output order. -/
def heldSlots (v : VSession) : List (Nat × Nat) :=
  sortBy (fun a b => decide (a.2 < b.2)) ((v.slots.filter fun p => p.2.out == .held).map fun p => (p.1, p.2.outputOrder))

/-- Release a number of pictures: the oldest held ones in output order lose their output mark (R306). -/
def releaseHeld (v : VSession) (n : Nat) : VSession :=
  { v with slots := ((heldSlots v).take n).foldl (fun m p => mupd m p.1 {} fun x => { x with out := .none }) v.slots }

/-- A post to a release counter (R306): dropped and counted in OD 0x7017 unless the session is an open decode session of the partition; an excess over the held pictures is counted too. -/
def releasePost (s : State) (part sess : Nat) (amt : W32) : State :=
  match (if sess < 512 then mget s.zoe.sessions sess else none) with
  | some v =>
    if v.f.val = part ∧ vDecodes v then
      let held := (heldSlots v).length
      let s := { s with zoe := { s.zoe with
        releases := mset s.zoe.releases sess (mgetD s.zoe.releases sess 0 + amt)
        sessions := mset s.zoe.sessions sess (releaseHeld v amt.toNat) } }
      if amt.toNat > held then bumpBy s 0x7017 (part + 1) 32 (amt.toNat - held) else s
    else bump32 s 0x7017 (part + 1)
  | none => bump32 s 0x7017 (part + 1)

/-- A post by location identifier and counter number (R107, R108, R160): a release counter under 0x8_0000, else a counter of a cluster. -/
def locPost (s : State) (part loc cnt : Nat) (amt : W32) : State :=
  if loc = 0x80000 then releasePost s part cnt amt
  else
    match clusOfLoc loc with
    | some c => cntPost s part c cnt amt
    | none => s

/-- The Trellis domain is powered and clocked (R318, R384). -/
def trlOn (s : State) : Bool := s.tray.hub.trellis && clkRuns s 0x19

/-! ### Cabinet sync counters (R336) -/

/-- A cabinet counter. -/
def cabAt (s : State) (n : Nat) : Counter := mgetD s.trl.cabinet n {}

/-- Value of a cabinet counter. -/
def cabGet (s : State) (n : Nat) : W32 := cntValue (cabAt s n)

/-- Replace a cabinet counter. -/
def cabPut (s : State) (n : Nat) (x : Counter) : State := { s with trl := { s.trl with cabinet := mset s.trl.cabinet n x } }

/-- Set the value of a cabinet counter. -/
def cabSet (s : State) (n : Nat) (v : W32) : State := cabPut s n { base := v, cyc := (cabAt s n).cyc }

/-- A partition owns the block of a cabinet counter (OD 0x6022). -/
def cabOwned (s : State) (part n : Nat) : Bool := (odGet s 0x6022 (part + 1)).testBit (n / 64)

/-! ### The commands (R86 to R89, R336) -/

/-- A POST in a cycle (R88). -/
def cntPosted (x : Counter) (amt : W32) (cyc : Nat) : Counter :=
  let x := cntRoll x cyc
  { x with posts := x.posts + amt }

/-- A SET in a cycle (R88): of two in one cycle the higher-numbered source wins. DESIGN CHOICE (log entry 99): of two with one location identifier the first stays. -/
def cntSetted (x : Counter) (loc : Nat) (v : W32) (cyc : Nat) : Counter :=
  let x := cntRoll x cyc
  { x with set := some (match x.set with | some (l, w) => if loc > l then (loc, v) else (l, w) | none => (loc, v)) }

/-- Two SETs of one cycle conflict (R88). -/
def cntConflict (x : Counter) (cyc : Nat) : Bool := (cntRoll x cyc).set.isSome

/-- Set the conflict bit of a cluster's quadrant (R88, OD 0x4011). -/
def conflictNote (s : State) (c : Nat) : State :=
  let d := odGet s 0x4011 (clusQuad c + 1)
  odSet s 0x4011 (clusQuad c + 1) (d % 2 ^ 31 + 2 ^ 31)

/-- The counter named exists and is powered: 512 in a cluster, 1,024 on H (R16, R18, R86, R336). -/
def syncOn (s : State) (c : SyncAt) (n : Nat) : Bool :=
  match c with
  | .cluster k => clusOn s k.val && decide (n < 512)
  | .cabinet => trlOn s

/-- The counter named. -/
def syncGet (s : State) (c : SyncAt) (n : Nat) : Counter :=
  match c with
  | .cluster k => cntGet s k.val n
  | .cabinet => cabAt s n

/-- Replace the counter named. -/
def syncPut (s : State) (c : SyncAt) (n : Nat) (x : Counter) : State :=
  match c with
  | .cluster k => { s with sync := mset s.sync (cntKey k.val n) x }
  | .cabinet => cabPut s n x

/-- The partition may post to the counter: it owns the cluster's quadrant, or the block (R89, R336). -/
def syncOwned (s : State) (part : Nat) (c : SyncAt) (n : Nat) : Bool :=
  match c with
  | .cluster k => quadOwner s (clusQuad k.val) == part
  | .cabinet => cabOwned s part n

/-- An operation from outside the counter's partition is dropped, on a cluster counted (R89). -/
def syncForeign (s : State) (c : SyncAt) : State :=
  match c with
  | .cluster k => foreignOp s k.val
  | .cabinet => s

/-- SYNC_POST (R86 to R89, R336). -/
def execSyncPost (src : SyncSrc) (c : SyncAt) (n : Fin 1024) (amt : BitVec 16) (cyc : Nat) (s : State) : Res :=
  if !syncOn s c n.val then .next s
  else if !syncOwned s src.part.val c n.val then .next (syncForeign s c)
  else .next (syncPut s c n.val (cntPosted (syncGet s c n.val) (amt.setWidth 32) cyc))

/-- SYNC_SET (R86, R88, R89, R336): a conflict on a cluster's counter shows in OD 0x4011. -/
def execSyncSet (src : SyncSrc) (c : SyncAt) (n : Fin 1024) (v : W32) (cyc : Nat) (s : State) : Res :=
  if !syncOn s c n.val then .next s
  else if !syncOwned s src.part.val c n.val then .next (syncForeign s c)
  else
    let x := syncGet s c n.val
    let s := match c with | .cluster k => if cntConflict x cyc then conflictNote s k.val else s | .cabinet => s
    .next (syncPut s c n.val (cntSetted x src.loc.toNat v cyc))

/-- SYNC_WAIT (R86, R88): whether the wait is satisfied at the start of the cycle. -/
def execSyncWait (_src : SyncSrc) (c : SyncAt) (n : Fin 1024) (t : W32) (cyc : Nat) (s : State) : Res :=
  .next (if syncOn s c n.val then emit s (.syncSatisfied c n (waitOk (cntAt (syncGet s c n.val) cyc) t)) else s)

/-- SYNC_READ (R86): the value at the start of the cycle. -/
def execSyncRead (_src : SyncSrc) (c : SyncAt) (n : Fin 1024) (cyc : Nat) (s : State) : Res :=
  .next (if syncOn s c n.val then emit s (.syncValue c n (cntAt (syncGet s c n.val) cyc)) else s)

end Sys2Proof.Machine
end

