-- ==== Sys2Proof/Machine/Flags.lean ====
section
/-! DEFINITION. The numeric flag word (R63, R76), lanes and predicates of the vector unit, and the early end of a context's step (R127). -/

namespace Sys2Proof.Machine

open Sys2Proof

/-- A core. -/
def coreGet (s : State) (k : Nat) : Core := mgetD s.cores k {}

/-- Replace a core. -/
def coreSet (s : State) (k : Nat) (c : Core) : State := { s with cores := mset s.cores k c }

/-- The flag words of flags ORed together (R63). -/
def orFlags (l : List (BitVec 4)) : BitVec 4 := l.foldl (· ||| ·) 0

/-- OR flags into a core's word (R76). -/
def addFlags (c : Core) (f : BitVec 4) : Core := { c with flags := c.flags ||| f }

/-- A lane of a vector register; unlisted registers read zero. -/
def vlane (c : Core) (r l : Nat) : W32 := ((mget c.vregs r).getD []).getD l 0

/-- A vector register as 64 lanes. -/
def vreg (c : Core) (r : Nat) : List W32 := (List.range 64).map (vlane c r)

/-- A predicate register; register 0 reads all ones (R117). -/
def predReg (c : Core) (r : Nat) : BitVec 64 := if r = 0 then BitVec.allOnes 64 else mgetD c.preds r 0

/-- The lanes that an entry writes (R117: PRED, PNEG). -/
def govern (c : Core) (v : VArgs) : BitVec 64 :=
  if v.pneg then ~~~ predReg c v.pred.val else predReg c v.pred.val

/-- The governed lanes in order. -/
def govLanes (c : Core) (v : VArgs) : List Nat := (List.range 64).filter fun l => (govern c v).getLsbD l

/-- Write the governed lanes of VD. -/
def writeLanes (c : Core) (v : VArgs) (f : Nat → W32) : Core :=
  let ls := (List.range 64).map fun l => if (govern c v).getLsbD l then f l else vlane c v.vd.val l
  { c with vregs := mset c.vregs v.vd.val ls }

/-- A lanewise operation: governed lanes written, their flags ORed in (R53, R117). -/
def laneOp (c : Core) (v : VArgs) (f : Nat → W32 × BitVec 4) : Core :=
  addFlags (writeLanes c v fun l => (f l).1) (orFlags ((govLanes c v).map fun l => (f l).2))

/-- A vector operation on a powered core; on an unpowered one nothing happens. -/
def onCore (s : State) (k : CoreId) (f : Core → Core) : State :=
  if quadOn s (coreQuad k.val) then coreSet s k.val (f (coreGet s k.val)) else s

/-- A lane. -/
def laneGet (s : State) (l : Nat) : Lane := mgetD s.seq.lanes l {}

/-- Replace a lane. -/
def laneSet (s : State) (l : Nat) (x : Lane) : State :=
  { s with seq := { s.seq with lanes := mset s.seq.lanes l x } }

/-- A context. -/
def ctxGet (s : State) (c : Nat) : Context := mgetD s.seq.ctxs c {}

/-- Replace a context. -/
def ctxSet (s : State) (c : Nat) (x : Context) : State :=
  { s with seq := { s.seq with ctxs := mset s.seq.ctxs c x } }

/-- Fault codes of R126. -/
def fcImage : Fin 5 := 1
/-- Parity. -/
def fcParity : Fin 5 := 2
/-- Abort. -/
def fcAbort : Fin 5 := 3
/-- Watchdog. -/
def fcWatchdog : Fin 5 := 4

/-- A lane stopped at its beat boundary: nothing queued, nothing running (R127). -/
def laneStop (x : Lane) : Lane :=
  { x with queue := [], cur := none, beatsLeft := 0, gapLeft := none, waitDone := false, sbDone := false,
           postDue := false, ended := true }

/-- The unfinished descriptors of a context's lanes stop with ABORT (R162). -/
def ctxJobsAbort (s : State) (c : Nat) : State :=
  { s with dma := { s.dma with queues := s.dma.queues.map fun q =>
      (q.1, q.2.map fun j =>
        match j.origin with
        | .lane _ x => if x.val = c ∧ j.status.isNone then { j with status := some 10 } else j
        | _ => j) } }

/-- A context's step ends early (R127): every lane stops and fetch ends; the first reason stands. -/
def ctxEnd (s : State) (c : Nat) (code : Fin 5) : State :=
  let x := ctxGet s c
  if x.step.isNone || x.fault.isSome then s
  else
    let s := ctxSet s c { x with fault := some code, fetching := false, latch := none }
    let s := if code = fcAbort then ctxJobsAbort s c else s
    each (ctxLanes s c) (fun s l => laneSet s l (laneStop (laneGet s l))) s

/-- An image fault met in a lane (R127). -/
def laneFault (s : State) (l : Nat) (code : Fin 5) : State :=
  match laneCtx s l with
  | some c => ctxEnd s c code
  | none => s

end Sys2Proof.Machine
end

