-- ==== Sys2Proof/Machine/Agu.lean ====
section
/-! DEFINITION. Address generators: slot descriptors, START, ADVANCE, STOP, and the elements that a slot supplies (R77, R118, R176 to R185). -/

namespace Sys2Proof.Machine

open Sys2Proof

/-- Key of a slot of an AGU. -/
def slotKey (agu slot : Nat) : Nat := 16 * agu + slot

/-- A slot. -/
def slotGet (c : Core) (agu slot : Nat) : AguSlot := mgetD c.slots (slotKey agu slot) {}

/-- Replace a slot. -/
def slotSet (c : Core) (agu slot : Nat) (x : AguSlot) : Core := { c with slots := mset c.slots (slotKey agu slot) x }

/-- The slot is in CONV mode (R181). -/
def slotConv (d : W512) : Bool := fld d 507 505 == 1

/-- START (R183). -/
def aguStart (x : AguSlot) : AguSlot :=
  { x with active := true, pos := (fld x.desc 211 188 : Nat), cblk := (fld x.desc 235 228 : Nat), step := 0
           base := (fld x.desc 495 476 : Nat), lines := 0 }

/-- ADVANCE (R182, R183). -/
def aguAdvance (x : AguSlot) : AguSlot :=
  let ap := sx 16 (fld x.desc 187 172)
  if slotConv x.desc then { x with pos := x.pos + ap, cblk := x.cblk + sx 8 (fld x.desc 171 164), step := 0 }
  else { x with base := x.base + ap * 64, step := 0, lines := 0 }

/-- STOP (R183). -/
def aguStop (x : AguSlot) : AguSlot := { x with active := false }

/-- The n-th address of a LINEAR slot from its present one (R182), as a local byte address. -/
def linAddr (x : AguSlot) (n : Nat) : Nat :=
  let lines := max 1 (fld x.desc 375 364)
  let rows := max 1 (fld x.desc 363 352)
  let i := (x.lines + n) % (lines * rows)
  let a : Int := x.base + (i / lines : Nat) * (fld x.desc 455 440 : Nat) + (i % lines : Nat) * 64
  (a % 2 ^ 20).toNat

/-- Take `n` addresses of a LINEAR slot. -/
def linTake (x : AguSlot) (n : Nat) : List Nat × AguSlot :=
  ((List.range n).map (linAddr x), { x with lines := x.lines + n })

/-- The next lines of a slot of a core as bytes; an idle slot gives zeros and an address fault (R183). -/
def linRead (s : State) (k agu slot n : Nat) : List Byte × State :=
  let x := slotGet (coreGet s k) agu slot
  if !x.active then (List.replicate (64 * n) 0, addrMark s k)
  else
    let (as, x') := linTake x n
    let (bs, s) := as.foldl (fun (acc : List Byte × State) a =>
      let (b, s) := localRead acc.2 k a 64
      (acc.1 ++ b, s)) ([], s)
    (bs, coreSet s k (slotSet (coreGet s k) agu slot x'))

/-! ### CONV mode (R178 to R185) -/

/-- Where the tap of a CONV slot falls for a step and position. -/
inductive ConvTap
  | void
  | pad
  /-- A row that is not held, as its distance from ROW_LO, and a column. -/
  | notHeld (y : Int) (x : Nat)
  /-- Held row and column. -/
  | held (y x : Nat)
  deriving DecidableEq, Repr

/-- What a CONV slot supplies for a step and position. -/
inductive ConvElem
  | zero
  | pad
  | heldFault
  /-- Address in 4-bit units. -/
  | fetch (nib : Nat)
  deriving DecidableEq, Repr

/-- CBLK of a slot. -/
def slotCblk (d : W512) : Nat := max 1 (fld d 243 236)

/-- The tap of step k at position p (R179, R183, R184); steps past the last and void positions are void. -/
def convTap (d : W512) (p : Int) (k : Nat) : ConvTap :=
  let kw := max 1 (fld d 299 296)
  let t := k / (32 * slotCblk d)
  let outW := fld d 315 304
  let outWp := max 1 (cdiv outW 64 * 64)
  let oy := p / (outWp : Nat)
  let ox := p % (outWp : Nat)
  if k ≥ fld d 303 300 * kw * slotCblk d * 32 then .void
  else if ox ≥ (outW : Nat) ∨ oy ≥ (fld d 327 316 : Nat) then .void
  else
    let iy : Int := oy * (fld d 295 292 + 1 : Nat) - (fld d 271 264 : Nat) + (t / kw : Nat) * (fld d 287 280 : Nat)
    let ix : Int := ox * (fld d 291 288 + 1 : Nat) - (fld d 263 256 : Nat) + (t % kw : Nat) * (fld d 279 272 : Nat)
    if iy < 0 ∨ iy ≥ (fld d 375 364 : Nat) ∨ ix < 0 ∨ ix ≥ (fld d 363 352 : Nat) then .pad
    else
      let hy := iy - (fld d 351 340 : Nat)
      if hy < 0 ∨ hy ≥ (fld d 339 328 : Nat) then .notHeld hy ix.toNat else .held hy.toNat ix.toNat

/-- Channel block of step k (R184); `org` is the block origin. -/
def convBlock (d : W512) (org : Int) (k : Nat) : Int := org + ((k / 32 % slotCblk d : Nat) : Int)

/-- Step k at position p (R184). DESIGN CHOICE (log entry 132): a channel below 0 is none of the pseudocode's cases, so its element is fetched, local addresses wrapping at 2²⁰. -/
def convElem (d : W512) (org p : Int) (k : Nat) : ConvElem :=
  let c : Int := 32 * convBlock d org k + ((k % 32 : Nat) : Int)
  match convTap d p k with
  | .void => .zero
  | .pad => if c > (fld d 255 244 : Nat) then .zero else .pad
  | .notHeld _ _ => if c > (fld d 255 244 : Nat) then .zero else .heldFault
  | .held hy ix =>
    if c > (fld d 255 244 : Nat) then .zero
    else
      let a : Int := 2 * (fld d 495 476 : Nat) + c * (fld d 475 456 : Nat) + (hy * fld d 455 440 * 2 + ix * fld d 439 432 : Nat)
      .fetch (a % 2 ^ 21).toNat

/-- Local address of the shadow of step k's block at position p, where it comes from the shadow plane (R185). -/
def convShadowAt (d : W512) (org p : Int) (k : Nat) : Option Nat :=
  let at_ (hy : Int) (ix : Nat) : Option Nat :=
    if bit d 500 then
      some (((fld d 431 412 : Nat) + convBlock d org k * (fld d 411 392 : Nat) + hy * (fld d 391 376 : Nat) + ix) % 2 ^ 20).toNat
    else none
  match convTap d p k with
  | .held hy ix => at_ hy ix
  | .notHeld hy ix => at_ hy ix
  | _ => none

/-- A byte of local SRAM as its owner sees it, its access counted elsewhere; GROUP 3 reads zero (R78). -/
def localByte (s : State) (k off : Nat) : Byte :=
  if off % 2 ^ 20 ≥ 0xC0000 then 0 else sramByte s (quadOwner s (coreQuad k)) (coreAddr k (off % 2 ^ 20))

/-- An element of a format at an address in 4-bit units (R32, R184). -/
def nibRead (s : State) (k fmt nib : Nat) : Nat :=
  let get (i : Nat) : Nat := (localByte s k (nib / 2 + i)).toNat
  match fmtBits fmt with
  | 4 => get 0 / (if nib % 2 = 0 then 1 else 16) % 16
  | 16 => get 0 + 256 * get 1
  | _ => get 0

/-- The shadow byte of step k's block at position p (R185): PAD's at a pad position, −128 at a void one, else the shadow plane's. DESIGN CHOICE (log entry 100): −128 where SHADOW_EN is 0. -/
def convShadow (s : State) (core : Nat) (d : W512) (org p : Int) (k : Nat) : Nat :=
  let fmt := fld d 504 501
  match convTap d p k with
  | .pad => if fmtShadow fmt then shadowOf fmt [fld d 227 212 % 2 ^ fmtBits fmt] else 0
  | _ => ((convShadowAt d org p k).map fun a => (localByte s core a).toNat).getD 0x80

/-- The element and shadow byte that a CONV slot supplies (R184, R185). -/
def convSupply (s : State) (k : Nat) (x : AguSlot) (p : Int) (i : Nat) : Nat × Nat :=
  let d := x.desc
  let fmt := fld d 504 501
  ((match convElem d x.cblk p i with
    | .zero => 0
    | .heldFault => 0
    | .pad => fld d 227 212 % 2 ^ fmtBits fmt
    | .fetch n => nibRead s k fmt n),
   convShadow s k d x.cblk p i)

/-- The local lines of the shadows of a step's block, read once a block (R66). -/
def convShadowLines (d : W512) (org : Int) (ps : List Int) (i : Nat) : List Nat :=
  if i % 32 == 0 then nodup ((ps.filterMap fun p => convShadowAt d org p i).map fun a => a / 64 * 64) else []

/-- The local lines that a step's elements fetch (R187), each once, and with `sh` those of its block's shadows. -/
def convLines (d : W512) (org : Int) (ps : List Int) (sh : Bool) (i : Nat) : List Nat :=
  nodup ((ps.map fun p => convElem d org p i).filterMap fun
    | .fetch n => some (n / 2 % 2 ^ 20 / 64 * 64)
    | _ => none)
  ++ if sh then convShadowLines d org ps i else []

/-- The accesses of a set of steps and positions: unwritten lines and GROUP 3 as any local read (R78, R91), pad taps and held-row faults counted (R185); a held-row fault ends the step (R185, R127). -/
def convCount (s : State) (k : Nat) (x : AguSlot) (ps : List Int) (ks : List Nat) (sh : Bool) : State :=
  let s := each (ks.flatMap (convLines x.desc x.cblk ps sh)) (fun s a => (localRead s k a 64).2) s
  let es := ks.flatMap fun i => ps.map fun p => convElem x.desc x.cblk p i
  let pads := (es.filter (· == .pad)).length
  let held := (es.filter (· == .heldFault)).length
  let q := coreQuad k + 1
  let s := if pads = 0 then s else bumpBy s 0x4033 q 64 pads
  if held = 0 then s
  else
    let s := bumpBy s 0x4034 q 32 held
    laneFault (addrMark s k) (coreClus k) fcImage

/-- AGU_START (R118, R183). -/
def execAguStart (k : CoreId) (agu : Fin 2) (slot : Fin 16) (s : State) : Res :=
  .next (onCore s k fun c => slotSet c agu.val slot.val (aguStart (slotGet c agu.val slot.val)))

/-- AGU_ADVANCE (R118, R183). -/
def execAguAdvance (k : CoreId) (agu : Fin 2) (slot : Fin 16) (s : State) : Res :=
  .next (onCore s k fun c => slotSet c agu.val slot.val (aguAdvance (slotGet c agu.val slot.val)))

/-- AGU_STOP (R118, R183). -/
def execAguStop (k : CoreId) (agu : Fin 2) (slot : Fin 16) (s : State) : Res :=
  .next (onCore s k fun c => slotSet c agu.val slot.val (aguStop (slotGet c agu.val slot.val)))

/-! ### Local DMA (R82, R83, R119, R120) -/

/-- Lines of a local DMA slot: local line, cluster line. -/
def ldmaGet (c : Core) (slot : Nat) : BitVec 14 × BitVec 15 := mgetD c.ldma slot (0, 0)

/-- Move one line and advance both addresses (R120). -/
def ldmaStep (toCluster : Bool) (k slot : Nat) (s : State) : State :=
  let (l, g) := ldmaGet (coreGet s k) slot
  let own := quadOwner s (coreQuad k)
  let ca := clusAddr (coreClus k) (g.toNat * 64)
  let s :=
    if toCluster then
      let (b, s) := localRead s k (l.toNat * 64) 64
      sramPut s own ca b
    else
      let (b, s) := sramRead s (coreQuad k) own ca 64
      localWrite s k (l.toNat * 64) b
  let c := coreGet s k
  coreSet s k { c with ldma := mset c.ldma slot (l + 1, g + 1) }

/-- LOCAL_TO_CLUSTER (R119): COUNT + 1 lines. -/
def execLocalToCluster (k : CoreId) (slot : Fin 16) (count : Fin 8) (s : State) : Res :=
  if quadOn s (coreQuad k.val) then .next (Nat.repeat (ldmaStep true k.val slot.val) (count.val + 1) s) else .next s

/-- CLUSTER_TO_LOCAL (R119): COUNT + 1 lines. -/
def execClusterToLocal (k : CoreId) (slot : Fin 16) (count : Fin 8) (s : State) : Res :=
  if quadOn s (coreQuad k.val) then .next (Nat.repeat (ldmaStep false k.val slot.val) (count.val + 1) s) else .next s

end Sys2Proof.Machine
end

