-- ==== Sys2Proof/Machine/Tables.lean ====
section
/-! DEFINITION. The function tables of exp2 and log2 (R54, R55), computed from the formulas of those rules, and the two functions. -/

namespace Sys2Proof.Machine

open Sys2Proof

/-- c0[j] of R54: 2^(j/64) × (ln 2)^0 ÷ 0! × 2³⁰. -/
def expC0 : List Int :=
  [1073741824, 1085434106, 1097253708, 1109202018, 1121280436, 1133490379, 1145833280, 1158310587, 1170923762, 1183674286, 1196563654, 1209593378, 1222764986, 1236080024, 1249540052, 1263146652]
    ++ [1276901417, 1290805962, 1304861917, 1319070932, 1333434672, 1347954824, 1362633090, 1377471191, 1392470869, 1407633882, 1422962010, 1438457051, 1454120821, 1469955159, 1485961921, 1502142985]
    ++ [1518500250, 1535035634, 1551751076, 1568648537, 1585730000, 1602997467, 1620452965, 1638098541, 1655936265, 1673968228, 1692196547, 1710623359, 1729250827, 1748081133, 1767116489, 1786359126]
    ++ [1805811301, 1825475297, 1845353420, 1865448001, 1885761398, 1906295993, 1927054196, 1948038440, 1969251188, 1990694927, 2012372174, 2034285470, 2056437387, 2078830522, 2101467502, 2124350982]

/-- c1[j] of R54: 2^(j/64) × (ln 2)^1 ÷ 1! × 2³⁰. -/
def expC1 : List Int :=
  [744261118, 752365590, 760558314, 768840251, 777212373, 785675661, 794231108, 802879717, 811622504, 820460494, 829394723, 838426239, 847556102, 856785383, 866115164, 875546540]
    ++ [885080617, 894718513, 904461359, 914310297, 924266484, 934331086, 944505284, 954790272, 965187257, 975697457, 986322106, 997062449, 1007919747, 1018895274, 1029990316, 1041206175]
    ++ [1052544167, 1064005621, 1075591883, 1087304311, 1099144278, 1111113175, 1123212404, 1135443385, 1147807553, 1160306358, 1172941266, 1185713759, 1198625335, 1211677509, 1224871812, 1238209792]
    ++ [1251693012, 1265323055, 1279101520, 1293030023, 1307110196, 1321343693, 1335732183, 1350277352, 1364980909, 1379844576, 1394870099, 1410059238, 1425413776, 1440935515, 1456626274, 1472487894]

/-- c2[j] of R54: 2^(j/64) × (ln 2)^2 ÷ 2! × 2³⁰. -/
def expC2 : List Int :=
  [257941248, 260750044, 263589426, 266459726, 269361282, 272294434, 275259526, 278256906, 281286925, 284349939, 287446307, 290576392, 293740561, 296939186, 300172642, 303441308]
    ++ [306745567, 310085807, 313462420, 316875802, 320326354, 323814479, 327340587, 330905093, 334508413, 338150971, 341833193, 345555513, 349318366, 353122193, 356967442, 360854562]
    ++ [364784011, 368756248, 372771741, 376830959, 380934379, 385082482, 389275756, 393514691, 397799785, 402131540, 406510466, 410937074, 415411886, 419935425, 424508222, 429130813]
    ++ [433803741, 438527554, 443302806, 448130057, 453009874, 457942828, 462929498, 467970470, 473066334, 478217689, 483425138, 488689293, 494010770, 499390195, 504828197, 510325416]

/-- c3[j] of R54: 2^(j/64) × (ln 2)^3 ÷ 3! × 2³⁰. -/
def expC3 : List Int :=
  [59597083, 60246053, 60902089, 61565269, 62235671, 62913373, 63598455, 64290997, 64991080, 65698786, 66414199, 67137402, 67868481, 68607520, 69354607, 70109829]
    ++ [70873275, 71645034, 72425198, 73213856, 74011103, 74817031, 75631735, 76455311, 77287854, 78129464, 78980238, 79840276, 80709680, 81588551, 82476992, 83375107]
    ++ [84283003, 85200785, 86128560, 87066439, 88014530, 88972946, 89941797, 90921199, 91911266, 92912114, 93923861, 94946625, 95980526, 97025685, 98082226, 99150271]
    ++ [100229947, 101321379, 102424697, 103540029, 104667506, 105807260, 106959425, 108124137, 109301532, 110491748, 111694924, 112911202, 114140724, 115383635, 116640081, 117910208]

/-- d0[j] of R55: 2³⁰ × log₂ m₀. -/
def logD0 : List Int :=
  [0, 12055174, 24017256, 35887675, 47667823, 59359063, 70962728, 82480119, 93912511, 105261148, 116527248, 127712004, 138816582, 149842124, 160789745, 171660541]
    ++ [182455581, 193175914, 203822568, 214396548, 224898839, 235330407, 245692198, 255985140, 266210141, 276368092, 286459867, 296486323, 306448299, 316346620, 326182095, 335955515]
    ++ [345667660, 355319292, 364911162, 374444004, 383918542, 393335482, 402695523, 411999347, 421247625, 430441017, 439580170, 448665721, 457698295, 466678506, 475606957, 484484242]
    ++ [493310944, 502087636, 510814882, 519493235, 528123241, 536705435, 545240343, 553728485, 562170370, 570566499, 578917365, 587223455, 595485245, 603703206, 611877800, 620009483]
    ++ [628098702, 636145900, 644151509, 652115959, 660039669, 667923055, 675766525, 683570481, 691335320, 699061430, 706749198, 714399001, 722011213, 729586201, 737124328, 744625951]
    ++ [752091421, 759521085, 766915285, 774274358, 781598637, 788888448, 796144114, 803365955, 810554283, 817709409, 824831638, 831921271, 838978604, 846003931, 852997541, 859959719]
    ++ [866890747, 873790901, 880660455, 887499680, 894308843, 901088206, 907838029, 914558569, 921250079, 927912807, 934547002, 941152905, 947730758, 954280797, 960803257, 967298370]
    ++ [973766362, 980207461, 986621888, 993009864, 999371606, 1005707329, 1012017244, 1018301561, 1024560487, 1030794226, 1037002979, 1043186948, 1049346328, 1055481314, 1061592099, 1067678873]

/-- d1[j] of R55: 2³⁰ × 1 ÷ (m₀ ln 2). -/
def logD1 : List Int :=
  [1549082005, 1537073617, 1525249974, 1513606844, 1502140126, 1490845839, 1479720124, 1468759234, 1457959534, 1447317493, 1436829686, 1426492781, 1416303547, 1406258841, 1396355610, 1386590885]
    ++ [1376961782, 1367465494, 1358099292, 1348860521, 1339746599, 1330755011, 1321883311, 1313129117, 1304490109, 1295964030, 1287548679, 1279241914, 1271041645, 1262945838, 1254952510, 1247059727]
    ++ [1239265604, 1231568302, 1223966028, 1216457034, 1209039613, 1201712101, 1194472871, 1187320339, 1180252956, 1173269211, 1166367627, 1159546764, 1152805213, 1146141599, 1139554578, 1133042838]
    ++ [1126605094, 1120240094, 1113946610, 1107723445, 1101569426, 1095483407, 1089464267, 1083510910, 1077622264, 1071797279, 1066034928, 1060334206, 1054694131, 1049113739, 1043592087, 1038128254]
    ++ [1032721336, 1027370449, 1022074725, 1016833316, 1011645391, 1006510135, 1001426751, 996394455, 991412483, 986480083, 981596518, 976761067, 971973023, 967231691, 962536391, 957886457]
    ++ [953281234, 948720079, 944202365, 939727472, 935294795, 930903740, 926553722, 922244170, 917974521, 913744224, 909552737, 905399528, 901284075, 897205867, 893164399, 889159178]
    ++ [885189717, 881255540, 877356180, 873491174, 869660073, 865862431, 862097811, 858365786, 854665934, 850997839, 847361097, 843755305, 840180070, 836635007, 833119734, 829633877]
    ++ [826177069, 822748949, 819349160, 815977352, 812633183, 809316313, 806026409, 802763144, 799526196, 796315247, 793129986, 789970106, 786835304, 783725283, 780639750, 777578418]

/-- d2[j] of R55: 2³⁰ × −1 ÷ (2m₀² ln 2). -/
def logD2 : List Int :=
  [-774541002, -762579159, -750892295, -739472046, -728310364, -717399502, -706731999, -696300674, -686098604, -676119121, -666355796, -656802432, -647453050, -638301885, -629343373, -620572144]
    ++ [-611983014, -603570977, -595331196, -587259002, -579349880, -571599468, -564003546, -556558036, -549258993, -542102601, -535085165, -528203113, -521452983, -514831424, -508335194, -501961148]
    ++ [-495706241, -489567524, -483542135, -477627302, -471820337, -466118633, -460519661, -455020968, -449620174, -444314967, -439103107, -433982414, -428950777, -424006141, -419146512, -414369952]
    ++ [-409674580, -405058565, -400520129, -396057544, -391669129, -387353249, -383108314, -378932777, -374825135, -370783924, -366807717, -362895129, -359044811, -355255446, -351525756, -347854494]
    ++ [-344240445, -340682429, -337179291, -333729909, -330333189, -326988064, -323693495, -320448468, -317251995, -314103111, -311000877, -307944376, -304932713, -301965016, -299040432, -296158132]
    ++ [-293317303, -290517154, -287756911, -285035821, -282353146, -279708166, -277100179, -274528497, -271992451, -269491384, -267024657, -264591643, -262191731, -259824323, -257488836, -255184697]
    ++ [-252911348, -250668243, -248454847, -246270639, -244115108, -241987754, -239888087, -237815629, -235769913, -233750480, -231756881, -229788679, -227845443, -225926753, -224032197, -222161373]
    ++ [-220313885, -218489347, -216687381, -214907615, -213149687, -211413241, -209697928, -208003406, -206329341, -204675405, -203041277, -201426641, -199831188, -198254617, -196696630, -195156936]

/-- d3[j] of R55: 2³⁰ × 1 ÷ (3m₀³ ln 2). -/
def logD3 : List Int :=
  [516360668, 504445128, 492893404, 481691714, 470826902, 460286397, 450058189, 440130796, 430493242, 421135024, 412046096, 403216841, 394638050, 386300905, 378196957, 370318110]
    ++ [362656601, 355204989, 347956133, 340903185, 334039571, 327358979, 320855351, 314522864, 308355926, 302349163, 296497408, 290795692, 285239238, 279823449, 274543902, 269396339]
    ++ [264376662, 259480924, 254705322, 250046195, 245500013, 241063374, 236732998, 232505724, 228378501, 224348386, 220412540, 216568222, 212812789, 209143684, 205558442, 202054681]
    ++ [198630099, 195282472, 192009650, 188809556, 185680180, 182619580, 179625876, 176697251, 173831947, 171028260, 168284544, 165599203, 162970694, 160397521, 157878234, 155411432]
    ++ [152995754, 150629882, 148312540, 146042490, 143818531, 141639500, 139504267, 137411738, 135360851, 133350574, 131379908, 129447882, 127553553, 125696007, 123874354, 122087732]
    ++ [120335304, 118616254, 116929792, 115275150, 113651581, 112058358, 110494775, 108960148, 107453808, 105975106, 104523413, 103098113, 101698611, 100324324, 98974688, 97649152]
    ++ [96347180, 95068252, 93811860, 92577509, 91364719, 90173020, 89001957, 87851084, 86719968, 85608187, 84515330, 83440995, 82384793, 81346341, 80325270, 79321215]
    ++ [78333826, 77362756, 76407672, 75468244, 74544153, 73635088, 72740745, 71860826, 70995042, 70143111, 69304756, 68479708, 67667704, 66868487, 66081807, 65307419]

/-- The cubic of R54 and R55: three steps of multiply, shift by 32 with floor, and add. -/
def tabEval (c0 c1 c2 c3 : List Int) (j : Nat) (r : Int) : Int :=
  let a := c3.getD j 0
  let a := c2.getD j 0 + a * r / 2 ^ 32
  let a := c1.getD j 0 + a * r / 2 ^ 32
  c0.getD j 0 + a * r / 2 ^ 32

/-- T of R59 and t of R54 for a fraction given as `f / 2^w`: the significand with 23 fraction bits. -/
def expT (f w : Nat) : Nat :=
  let j := 64 * f / 2 ^ w
  let r : Nat := (64 * f - j * 2 ^ w) * 2 ^ 26 / 2 ^ w
  let a := tabEval expC0 expC1 expC2 expC3 j (r : Int)
  roundMag 0 false a.toNat (-30) (-23)

/-- exp2 (R54) with its flags (R53). -/
def f32exp2 (x : W32) : W32 × BitVec 4 :=
  match f32 x with
  | .nan => f32w .nan
  | .inf s => (if s then 0 else 0x7F800000, 0)
  | .fin s m e =>
    if !s && m != 0 && !magGt 1 7 m e then (0x7F800000, flOVF)
    else
      -- z = v / 2^w exactly; below −2⁹ the result rounds to zero
      if s && magGt m e 1 9 then (0, flUFL)
      else
        let w := (-e).toNat
        let v : Int := (if s then -(m : Int) else m) * 2 ^ e.toNat
        let n := v / (2 ^ w : Nat)
        let f := (v - n * (2 ^ w : Nat)).toNat
        f32w (.fin false (expT f w) (n - 23))

/-- log2 (R55) with its flags (R53). -/
def f32log2 (x : W32) : W32 × BitVec 4 :=
  match f32 x with
  | .nan => f32w .nan
  | .inf s => if s then f32w .nan else (0x7F800000, 0)
  | .fin s m e =>
    if m = 0 then (0xFF800000, 0)
    else if s then f32w .nan
    else
      let b := Nat.log2 m
      -- x = 2^(e + b) × (1 + g / 2^b)
      let g := m - 2 ^ b
      let j := 128 * g / 2 ^ b
      let r : Nat := (128 * g - j * 2 ^ b) * 2 ^ 25 / 2 ^ b
      let a := tabEval logD0 logD1 logD2 logD3 j (r : Int)
      let v : Int := (e + b) * 2 ^ 30 + a
      let (y, fl) := f32w (.fin (decide (v < 0)) v.natAbs (-30))
      (if v = 0 then 0 else y, fl)

end Sys2Proof.Machine
end

