-- ==== Sys2Proof/Machine/Softmax.lean ====
section
/-! DEFINITION. The composite functions (R57) and the softmax (R59 to R62): what the fixed sequences of vector operations, tiles, reductions and merges come to. No single command performs one; a program issues the sequence. -/

namespace Sys2Proof.Machine

open Sys2Proof

/-! ### Composite functions (R57), each step rounded as its primitive (R53 to R56) -/

/-- FP32 product. -/
def fpMul (x y : W32) : W32 := (f32w (numMul (f32 x) (f32 y))).1

/-- FP32 sum. -/
def fpAdd (x y : W32) : W32 := (f32w (numAdd (f32 x) (f32 y))).1

/-- The other sign of an FP32 value. -/
def fpNeg (x : W32) : W32 := x ^^^ 0x80000000

/-- L of R57: log₂ e. -/
def fpL : W32 := 0x3FB8AA3B

/-- exp(x) (R57). -/
def fpExp (x : W32) : W32 := (f32exp2 (fpMul x fpL)).1

/-- sigmoid(x) (R57): 1 ÷ (1 + exp(−x)), which is +0 when exp(−x) is +∞. -/
def fpSigmoid (x : W32) : W32 := (f32recip (fpAdd 0x3F800000 (fpExp (fpNeg x)))).1

/-- tanh(x) (R57). -/
def fpTanh (x : W32) : W32 :=
  let a := x &&& 0x7FFFFFFF
  match f32 a with
  | .nan => 0x7FC00000
  | n =>
    if numLt false n (.fin false 1 (-12)) then x
    else
      let r := (f32recip (fpAdd 0x3F800000 (fpExp (fpMul 0x40000000 a)))).1
      let y := fpAdd 0x3F800000 (fpNeg (fpMul 0x40000000 r))
      y ^^^ (x &&& 0x80000000)

/-- SiLU(x) (R57). -/
def fpSilu (x : W32) : W32 := fpMul x (fpSigmoid x)

/-- GELU(x) (R57), products taken from the left. -/
def fpGelu (x : W32) : W32 :=
  let inner := fpMul 0x3F4C422A (fpAdd x (fpMul 0x3D372713 (fpMul (fpMul x x) x)))
  fpMul (fpMul 0x3F000000 x) (fpAdd 0x3F800000 (fpTanh inner))

/-! ### The softmax (R59 to R62) -/

/-- ⌊y⌋ and the fraction as a numerator over 2^w, of a finite number. -/
def floorFrac (neg : Bool) (m : Nat) (e : Int) : Int × Nat × Nat :=
  let w := (-e).toNat
  let v : Int := (if neg then -(m : Int) else m) * 2 ^ e.toNat
  let n := v / (2 ^ w : Nat)
  (n, (v - n * (2 ^ w : Nat)).toNat, w)

/-- ⌈y⌉ of a finite number. -/
def ceilNum (neg : Bool) (m : Nat) (e : Int) : Int :=
  let x := floorFrac neg m e
  if x.2.1 = 0 then x.1 else x.1 + 1

/-- The row holds a NaN or +∞: every output is NaN (R62). -/
def rowBad (ys : List Num) : Bool := ys.any fun y => y == .nan || y == .inf false

/-- The integer maximum m′ of a row of base-2 scores, or of a split of one (R59); −2³¹ where every score is −∞, which a maximum over splits ignores (R230, R231). -/
def splitMax (ys : List Num) : Int :=
  (imax (ys.filterMap fun y =>
    match y with
    | .fin s m e => some (ceilNum s m e)
    | _ => none)).getD (-(2 ^ 31))

/-- The maximum of a row over its splits' maxima: −2³¹ is ignored, and a fully masked row has 0 (R62, R231). -/
def joinMax (ms : List Int) : Int := (imax (ms.filter fun m => decide (m ≠ -(2 ^ 31)))).getD 0

/-- The integer maximum m′ of a row (R59); 0 for a fully masked row (R62). -/
def rowMax (ys : List Num) : Int := joinMax [splitMax ys]

/-- A weight as its exact pair 2^(⌊y⌋ − m′) × T(y − ⌊y⌋) (R59); exactly 0 for −∞ (R62). -/
def softWeight (top : Int) : Num → Num
  | .fin s m e =>
    let x := floorFrac s m e
    .fin false (expT x.2.1 x.2.2) (x.1 - top - 23)
  | .inf true => .fin false 0 0
  | _ => .nan

/-- A weight moved from a split's maximum to the common one (R61): a shift of its exponent. -/
def weightMove (old new : Int) (p : Num) : Num := numShift p (old - new)

/-- The denominator's accumulator, on the anchor 1 (R60). -/
def softDen (top : Int) (ys : List Num) : Acc := (ys.map (softWeight top)).foldl (accAdd 1) {}

/-- The numerator's accumulator for one output column, on its group's anchor (R60). -/
def softNum (anchor top : Int) (ys vs : List Num) : Acc :=
  ((ys.map (softWeight top)).zip vs).foldl (fun a x => accAdd anchor a (numMul x.1 x.2)) {}

/-- The anchor of a numerator group (R38, R60): 1 for the weight and the largest u of the group's value blocks. -/
def softAnchor (us : List Int) : Int := ((imax us).map (· + 1)).getD (-300)

/-- o ÷ l to 256 bits beyond the divisor, the last bit set where the quotient is inexact, so that one later rounding is correct; +0 where l is 0, which it is in fully masked rows alone (R62). -/
def numQuot : Num → Num → Num
  | _, .fin _ 0 _ => .fin false 0 0
  | .fin s m e, .fin s' m' e' =>
      let n := m * 2 ^ 256
      .fin (s != s') (2 * (n / m') + (if n % m' = 0 then 0 else 1)) (e - e' - 257)
  | .inf s, .fin s' _ _ => .inf (s != s')
  | _, _ => .nan

/-- One output of a softmax row (R60, R62): o ÷ l correctly rounded into a format, with its flags. -/
def softOut (fmt mode : Nat) (ovfInf : Bool) (p : Int) (us : List Int) (ys vs : List Num) : Nat × BitVec 4 :=
  if rowBad ys then elemWrite fmt mode ovfInf p .nan
  else if ys.all (· == .inf true) then (0, 0)
  else
    let top := rowMax ys
    let a := softAnchor us
    elemWrite fmt mode ovfInf p (numQuot (accValue a (softNum a top ys vs)) (accValue 1 (softDen top ys)))

/-- R61, step 3: a weight taken against a split's maximum and moved is the weight taken against the common maximum. -/
theorem weightMove_softWeight (mk top : Int) (y : Num) : weightMove mk top (softWeight mk y) = match y with
    | .inf true => .fin false 0 (mk - top)
    | y => softWeight top y := by
  cases y with
  | nan => rfl
  | inf s => cases s <;> simp [weightMove, softWeight, numShift]
  | fin s m e =>
    simp only [weightMove, softWeight, numShift]
    congr 1
    omega

end Sys2Proof.Machine
end

