-- ==== Sys2Proof/Machine/Vector.lean ====
section
/-! DEFINITION. The vector unit: one meaning per opcode of R117 (R53 to R57, R74 to R76). -/

namespace Sys2Proof.Machine

open Sys2Proof

/-! ### Floating point (R53) -/

/-- A lane of VA as a number. -/
def fa (c : Core) (v : VArgs) (l : Nat) : Num := f32 (vlane c v.va.val l)
/-- A lane of VB as a number. -/
def fb (c : Core) (v : VArgs) (l : Nat) : Num := f32 (vlane c v.vb.val l)
/-- A lane of VC as a number. -/
def fc (c : Core) (v : VArgs) (l : Nat) : Num := f32 (vlane c v.vc.val l)

/-- A lanewise floating-point operation on VA and VB, rounded once (R53). -/
def fpLanes (k : CoreId) (v : VArgs) (f : Num → Num → Num) (s : State) : State :=
  onCore s k fun c => laneOp c v fun l => f32w (f (fa c v l) (fb c v l))

/-- FADD. -/
def execFadd (k : CoreId) (v : VArgs) (s : State) : Res := .next (fpLanes k v numAdd s)
/-- FSUB. -/
def execFsub (k : CoreId) (v : VArgs) (s : State) : Res := .next (fpLanes k v (fun x y => numAdd x (numNeg y)) s)
/-- FMUL. -/
def execFmul (k : CoreId) (v : VArgs) (s : State) : Res := .next (fpLanes k v numMul s)
/-- FMA: VA × VB + VC, rounded once. -/
def execFma (k : CoreId) (v : VArgs) (s : State) : Res :=
  .next (onCore s k fun c => laneOp c v fun l => f32w (numAdd (numMul (fa c v l) (fb c v l)) (fc c v l)))
/-- FMIN. -/
def execFmin (k : CoreId) (v : VArgs) (s : State) : Res := .next (fpLanes k v numMin s)
/-- FMAX. -/
def execFmax (k : CoreId) (v : VArgs) (s : State) : Res := .next (fpLanes k v numMax s)

/-- A compare: the governed bits of the destination predicate register; register 0 keeps reading all ones (R117). -/
def cmpOp (c : Core) (v : VArgs) (f : Nat → Bool) : Core :=
  let d := v.vd.val % 8
  let old := predReg c d
  let new : Nat := maskOf ((List.range 64).filter fun l => if (govern c v).getLsbD l then f l else old.getLsbD l)
  if d = 0 then c else { c with preds := mset c.preds d (BitVec.ofNat 64 new) }

/-- FCMPLT: VA less than VB; false with a NaN. -/
def execFcmplt (k : CoreId) (v : VArgs) (s : State) : Res :=
  .next (onCore s k fun c => cmpOp c v fun l => numLt false (fa c v l) (fb c v l))

/-- Equal as numbers; false with a NaN. -/
def numEq (x y : Num) : Bool := x != .nan && y != .nan && !numLt false x y && !numLt false y x

/-- FCMPEQ: VA equal to VB; false with a NaN. -/
def execFcmpeq (k : CoreId) (v : VArgs) (s : State) : Res :=
  .next (onCore s k fun c => cmpOp c v fun l => numEq (fa c v l) (fb c v l))

/-! ### INT32 (R74) -/

/-- A lanewise integer operation on VA and VB; no flags. -/
def intLanes (k : CoreId) (v : VArgs) (f : W32 → W32 → W32) (s : State) : State :=
  onCore s k fun c => writeLanes c v fun l => f (vlane c v.va.val l) (vlane c v.vb.val l)

/-- Saturate to 32 bits of two's complement. -/
def sat32 (x : Int) : W32 := BitVec.ofInt 32 (min (2 ^ 31 - 1) (max (-(2 ^ 31)) x))

/-- IADD. -/
def execIadd (k : CoreId) (v : VArgs) (s : State) : Res := .next (intLanes k v (· + ·) s)
/-- ISUB. -/
def execIsub (k : CoreId) (v : VArgs) (s : State) : Res := .next (intLanes k v (· - ·) s)
/-- IMUL. -/
def execImul (k : CoreId) (v : VArgs) (s : State) : Res := .next (intLanes k v (· * ·) s)
/-- IADDS. -/
def execIadds (k : CoreId) (v : VArgs) (s : State) : Res :=
  .next (intLanes k v (fun x y => sat32 (x.toInt + y.toInt)) s)
/-- ISUBS. -/
def execIsubs (k : CoreId) (v : VArgs) (s : State) : Res :=
  .next (intLanes k v (fun x y => sat32 (x.toInt - y.toInt)) s)
/-- AND. -/
def execAnd (k : CoreId) (v : VArgs) (s : State) : Res := .next (intLanes k v (· &&& ·) s)
/-- OR. -/
def execOr (k : CoreId) (v : VArgs) (s : State) : Res := .next (intLanes k v (· ||| ·) s)
/-- XOR. -/
def execXor (k : CoreId) (v : VArgs) (s : State) : Res := .next (intLanes k v (· ^^^ ·) s)
/-- SHL by IMM bits 4:0. -/
def execShl (k : CoreId) (v : VArgs) (s : State) : Res :=
  .next (intLanes k v (fun x _ => x <<< fld v.imm 4 0) s)
/-- SHR by IMM bits 4:0. -/
def execShr (k : CoreId) (v : VArgs) (s : State) : Res :=
  .next (intLanes k v (fun x _ => x >>> fld v.imm 4 0) s)
/-- SAR by IMM bits 4:0. -/
def execSar (k : CoreId) (v : VArgs) (s : State) : Res :=
  .next (intLanes k v (fun x _ => x.sshiftRight (fld v.imm 4 0)) s)

/-! ### Conversion and functions -/

/-- CVT of one lane (R47 to R50): the source encoding in the lane's low bits. DESIGN CHOICE (log entry 101): the entry has no field for an output exponent or a block scale, so INT results take p = 0 (R52) and MX elements stand at scale 1, read and written (R51). -/
def cvtLane (imm x : W32) : W32 × BitVec 4 :=
  let sf := fld imm 31 28
  let df := fld imm 27 24
  let (y, fl) := elemWrite df (fld imm 23 22) (bit imm 21) 0 (elemRead sf (x.toNat % 2 ^ fmtBits sf))
  (BitVec.ofNat 32 y, fl)

/-- CVT. A reserved format code (R30) leaves the results open: free values. -/
def execCvt (k : CoreId) (v : VArgs) (s : State) : Res :=
  if fld v.imm 31 28 ≤ 10 ∧ fld v.imm 27 24 ≤ 10 then
    .next (onCore s k fun c => laneOp c v fun l => cvtLane v.imm (vlane c v.va.val l))
  else
    .next (freeSteps (onCore s k fun c => writeLanes c v fun l => BitVec.ofNat 32 (Config.freeNat (s.freeCtr + l))) 64)

/-- A lanewise function of VA. -/
def unLanes (k : CoreId) (v : VArgs) (f : W32 → W32 × BitVec 4) (s : State) : State :=
  onCore s k fun c => laneOp c v fun l => f (vlane c v.va.val l)

/-- EXP2 (R54). -/
def execExp2 (k : CoreId) (v : VArgs) (s : State) : Res := .next (unLanes k v f32exp2 s)
/-- LOG2 (R55). -/
def execLog2 (k : CoreId) (v : VArgs) (s : State) : Res := .next (unLanes k v f32log2 s)
/-- RSQRT (R56). -/
def execRsqrt (k : CoreId) (v : VArgs) (s : State) : Res := .next (unLanes k v f32rsqrt s)
/-- RECIP (R56). -/
def execRecip (k : CoreId) (v : VArgs) (s : State) : Res := .next (unLanes k v f32recip s)

/-! ### Reductions (R36 to R44, R53) -/

/-- The governed lanes of VA as terms. -/
def redTerms (c : Core) (v : VArgs) : List Num := (govLanes c v).map fun l => fa c v l

/-- A reduction's result, written to every governed lane with its flags. -/
def redOp (c : Core) (v : VArgs) (r : W32 × BitVec 4) : Core :=
  if govLanes c v = [] then c else addFlags (writeLanes c v fun _ => r.1) r.2

/-- The exact anchored sum of terms, rounded to binary32 (R53). -/
def rsumOf (ts : List Num) : W32 × BitVec 4 :=
  let a := vecAnchor ts
  f32w (accValue a (ts.foldl (accAdd a) {}))

/-- The vector table entry that an operation's fields spell, for what the manual leaves to it. -/
def vargsNat (v : VArgs) : Nat :=
  v.vd.val * 2 ^ 51 + v.va.val * 2 ^ 46 + v.vb.val * 2 ^ 41 + v.vc.val * 2 ^ 36 + v.pred.val * 2 ^ 33
    + (if v.pneg then 2 ^ 32 else 0) + v.imm.toNat

/-- Record i of a register: lanes 4i to 4i + 3, the lowest lane the lowest bits. -/
def vrecord (c : Core) (r i : Nat) : BitVec 128 :=
  BitVec.ofNat 128 ((vlane c r (4 * i)).toNat + (vlane c r (4 * i + 1)).toNat * 2 ^ 32
    + (vlane c r (4 * i + 2)).toNat * 2 ^ 64 + (vlane c r (4 * i + 3)).toNat * 2 ^ 96)

/-- Lane l of a register that holds one record in each four lanes. -/
def recLane (r : BitVec 128) (l : Nat) : W32 := BitVec.ofNat 32 (r.toNat >>> (32 * (l % 4)))

/-- A record in every governed four lanes of VD, with flags. -/
def recOp (c : Core) (v : VArgs) (r : BitVec 128) (fl : BitVec 4) : Core :=
  if govLanes c v = [] then c else addFlags (writeLanes c v (recLane r)) fl

/-- Terms added to a record on its anchor (R42, R44, R75), with SAT where one is clamped. -/
def recAdd (r : BitVec 128) (ts : List Num) : BitVec 128 × BitVec 4 :=
  let (a, x) := recRead r
  let y := ts.foldl (accAdd a) x
  (recWrite a y, if y.sat then flSAT else 0)

/-- The terms as softmax weights against an integer maximum (R59). -/
def redWeights (c : Core) (v : VArgs) : List Num := (redTerms c v).map (softWeight (vlane c v.vb.val 0).toInt)

/-- Form of an RSUM: the FP32 sum where the fields that R117 gives it no use for are zero (R10), else the form of those fields. -/
def rsumForm (v : VArgs) : Nat := if v.vb.val = 0 ∧ v.vc.val = 0 ∧ v.imm = 0 then 0 else Config.rsumForm (vargsNat v)

/-- RSUM by its form (R53, R59 to R61, R75; log entry 102). A sum of more than 64 terms is a pre-pass over all of them (forms 1 and 2), their addition (form 3) and the record's end (form 4). -/
def rsumDo (c : Core) (v : VArgs) : Core :=
  let r := vrecord c v.vc.val 0
  match rsumForm v with
  | 1 => recOp c v (recWrite (vecAnchor (redTerms c v)) {}) 0
  | 2 => recOp c v (recWrite (max (recRead r).1 (vecAnchor (redTerms c v))) {}) 0
  | 3 => let (y, fl) := recAdd r (redTerms c v); recOp c v y fl
  | 4 =>
    let (a, x) := recRead r
    let (y, fl) := f32w (accValue a x)
    redOp c v (y, fl ||| if x.sat then flSAT else 0)
  | 5 => redOp c v (BitVec.ofInt 32 (splitMax (redTerms c v)), 0)
  | 6 =>
    let x := (redWeights c v).foldl (accAdd 1) (if (recRead r).1 = 1 then (recRead r).2 else {})
    recOp c v (recWrite 1 x) (if x.sat then flSAT else 0)
  | _ => redOp c v (rsumOf (redTerms c v))

/-- RSUM (R53, R75). -/
def execRsum (k : CoreId) (v : VArgs) (s : State) : Res :=
  .next (onCore s k fun c => rsumDo c v)

/-- A fold of a nonempty list. -/
def fold1 (f : Num → Num → Num) : List Num → Num
  | [] => .nan
  | a :: t => t.foldl f a

/-- RMAX. -/
def execRmax (k : CoreId) (v : VArgs) (s : State) : Res :=
  .next (onCore s k fun c => redOp c v (f32w (fold1 numMax (redTerms c v))))

/-- RMIN. -/
def execRmin (k : CoreId) (v : VArgs) (s : State) : Res :=
  .next (onCore s k fun c => redOp c v (f32w (fold1 numMin (redTerms c v))))

/-- Lane l of a merge of two records (R44), with the merge's flags. -/
def mergeLane (x y : BitVec 128) (l : Nat) : W32 × BitVec 4 :=
  (BitVec.ofNat 32 ((recMerge x y).1.toNat >>> (32 * (l % 4))), (recMerge x y).2)

/-- RMERGE (R44): the 16 records of VA and VB merge pairwise. -/
def execRmerge (k : CoreId) (v : VArgs) (s : State) : Res :=
  .next (onCore s k fun c =>
    laneOp c v fun l => mergeLane (vrecord c v.va.val (l / 4)) (vrecord c v.vb.val (l / 4)) l)

/-! ### Memory, flags and control -/

/-- An element as the 32 bits of a lane: binary32 kept as it is, every other format converted exactly (R191). -/
def loadLane (fmt x : Nat) : W32 :=
  if fmt ≥ 10 then BitVec.ofNat 32 x else (f32w (elemRead fmt x)).1

/-- Element i of a packed stream of `w`-bit elements (R32). -/
def streamElem (bs : Nat) (w i : Nat) : Nat := nfld bs (w * i + w - 1) (w * i)

/-- LOAD through an AGU0 slot (R77, R117, R191): in CONV mode one step at 64 positions, in LINEAR mode the next 64 elements. -/
def vecLoad (k : Nat) (v : VArgs) (s : State) : State :=
  let slot := fld v.imm 3 0
  let x := slotGet (coreGet s k) 0 slot
  let fmt := fld x.desc 504 501
  if x.active && slotConv x.desc then
    let ps := (List.range 64).map fun (j : Nat) => x.pos + (j : Int)
    let xs := ps.map fun p => (convSupply s k x p x.step).1
    let s := convCount s k x ps [x.step] false
    let c := coreGet s k
    let c := writeLanes c v fun l => loadLane fmt (xs.getD l 0)
    coreSet s k (slotSet c 0 slot { x with step := x.step + 1 })
  else
    let n := max 1 (64 * fmtBits fmt / 512)
    let (bs, s) := linRead s k 0 slot n
    let b := leNat bs
    coreSet s k (writeLanes (coreGet s k) v fun l => loadLane fmt (streamElem b (fmtBits fmt) l))

/-- LOAD. -/
def execVecLoad (k : CoreId) (v : VArgs) (s : State) : Res :=
  if quadOn s (coreQuad k.val) then .next (vecLoad k.val v s) else .next s

/-- STORE through an AGU1 slot (R77, R117): the low bits of each governed lane of VA, as elements of the slot's format, over the next lines. -/
def vecStore (k : Nat) (v : VArgs) (s : State) : State :=
  let slot := fld v.imm 3 0
  let c := coreGet s k
  let x := slotGet c 1 slot
  if !x.active then addrMark s k
  else
    let w := fmtBits (fld x.desc 504 501)
    let n := max 1 (64 * w / 512)
    let (as, x') := linTake x n
    let s := coreSet s k (slotSet c 1 slot x')
    let old := leNat (as.foldl (fun acc a => acc ++ (localRead s k a 64).1) [])
    let new := (govLanes c v).foldl (fun b l => nput b (w * l + w - 1) (w * l) (vlane c v.va.val l).toNat) old
    let bs := leBytes (64 * w / 8) new
    (List.range n).foldl (fun s i => localWrite s k (as.getD i 0) ((bs.drop (64 * i)).take 64)) s

/-- STORE. -/
def execVecStore (k : CoreId) (v : VArgs) (s : State) : Res :=
  if quadOn s (coreQuad k.val) then .next (vecStore k.val v s) else .next s

/-- SHADOW (R33, R74): lane l gets the shadow of the 32 elements held two to a lane in lane l of registers VA to VA + 15. -/
def execShadow (k : CoreId) (v : VArgs) (s : State) : Res :=
  .next (onCore s k fun c =>
    writeLanes c v fun l =>
      let es := (List.range 16).flatMap fun i =>
        let x := (vlane c ((v.va.val + i) % 32) l).toNat
        [x % 65536, x / 65536]
      BitVec.ofNat 32 (shadowOf (if Config.shadowIsFp16 (vargsNat v) then 9 else 8) es))

/-- FLAGS (R76): copy the flag word into a lane of VD and clear it. -/
def execFlags (k : CoreId) (v : VArgs) (s : State) : Res :=
  .next (onCore s k fun c =>
    let ln := fld v.imm 5 0
    { writeLanes c v (fun l => if l = ln then c.flags.setWidth 32 else vlane c v.vd.val l) with flags := 0 })

/-- SETUP (R71): rewrite an engine setup from the first 8 bytes of a line of local SRAM. -/
def execSetup (k : CoreId) (v : VArgs) (s : State) : Res :=
  if quadOn s (coreQuad k.val) then
    let (bs, s) := localRead s k.val (fld v.imm 19 6 * 64) 8
    let c := coreGet s k.val
    .next (coreSet s k.val { c with setups := mset c.setups (fld v.imm 2 0) (BitVec.ofNat 64 (leNat bs)) })
  else .next s

/-- PARAM: broadcast a step parameter register of the lane's context (R98, R117). -/
def execParam (k : CoreId) (v : VArgs) (s : State) : Res :=
  .next (onCore s k fun c =>
    match laneCtx s (coreClus k.val) with
    | some x => writeLanes c v fun _ => (ctxGet s x).params.getD (fld v.imm 2 0) 0
    | none => c)

/-- An entry of a lane's sync table (R107). -/
def syncEntry (s : State) (l i : Nat) : BitVec 128 := (laneGet s l).table.getD i 0

/-- Post to a sync table entry of a lane (R107, R108). -/
def tablePost (s : State) (l i : Nat) : State :=
  let e := syncEntry s l i
  locPost s (quadOwner s (clusQuad l)) (fld e 127 108) (fld e 107 99) (BitVec.ofNat 32 (fld e 95 80))

/-- POST to a sync table entry (R87, R117). -/
def execVecPost (k : CoreId) (v : VArgs) (s : State) : Res :=
  if quadOn s (coreQuad k.val) then .next (tablePost s (coreClus k.val) (fld v.imm 3 0)) else .next s

end Sys2Proof.Machine
end

