-- ==== Sys2Proof/Machine/Engine.lean ====
section
/-! DEFINITION. The engines: tiles, anchors, accumulation and readout (R36 to R52, R64 to R73, R114, R115, R178 to R185). -/

namespace Sys2Proof.Machine

open Sys2Proof

/-- An engine setup of a core; unlisted reads zero (R71). -/
def setupGet (c : Core) (n : Nat) : BitVec 64 := mgetD c.setups n 0

/-- R73: a setup that does not compute. -/
def setupBad (w : BitVec 64) : Bool :=
  decide (fld w 63 60 > 9) || decide (fld w 59 56 > 9) || decide (fld w 55 52 > 10) || fld w 20 8 == 0

/-- Output format of a setup; BF16 where it is reserved (R73). -/
def outFmt (w : BitVec 64) : Nat := if fld w 55 52 > 10 then 8 else fld w 55 52

/-- Enabled engines, in order. -/
def engines (e : EArgs) : List Nat := bitsOf 4 e.en.toNat

/-- An operand of an operation as a table: number of rows (or columns), elements and scale or shadow bytes by step and row. -/
structure Operand where
  fmt : Nat
  width : Nat
  elems : Nat
  scales : List Byte
  /-- CONV: elements and shadows by 65,536 × step + position; LINEAR: none. -/
  conv : Option (List (Nat × Nat))
  /-- The operand is read from KV pages: K_SCALE or V_SCALE of the layer's table entry (R210). -/
  page : Option Nat := none
  /-- Scales or shadows of the whole reduction dimension and its blocks, where the tile holds a split of it (R39). -/
  pre : List Byte := []
  preBlocks : Nat := 0
  /-- The operand's elements are base-2 scores: the integer maximum of each row (R59). -/
  tops : Option (List Int) := none
  deriving DecidableEq, Repr

/-- Bits of an element: base-2 scores are FP32 (R59). -/
def opBits (o : Operand) : Nat := if o.tops.isSome then 32 else fmtBits o.fmt

/-- Element at step k and row r: in a LINEAR stream elements lie step by step, the rows of a step together. -/
def opElem (o : Operand) (k r : Nat) : Nat :=
  match o.conv with
  | none => streamElem o.elems (opBits o) (k * o.width + r)
  | some l => (l.getD (k * o.width + r) (0, 0x80)).1

/-- Scale or shadow byte of block j and row r; a page's blocks all have the scale of the layer's table entry (R210). -/
def opScale (o : Operand) (j r : Nat) : Nat :=
  match o.page, o.conv with
  | some e, _ => e
  | none, none => (o.scales.getD (j * o.width + r) 0).toNat
  | none, some l => (l.getD (32 * j * o.width + r) (0, 0x80)).2

/-- Magnitude exponent of block j of row r (R37); for an INT8 page 8 + p, with p the scale less 127 (R210), for a softmax weight 1. -/
def opU (o : Operand) (j r : Nat) : Option Int :=
  if o.tops.isSome then some 1
  else
    match o.page with
    | some e => if o.fmt = 0 then some (8 + ((e : Int) - 127)) else blockU o.fmt e
    | none => blockU o.fmt (opScale o j r)

/-- The magnitude exponents of an operand are the same in every block: integers, pages and weights. -/
def opUniform (o : Operand) : Bool := o.tops.isSome || o.page.isSome || decide (o.fmt ≤ 1)

/-- Magnitude exponent that the pre-pass finds for block j of row r of the whole reduction dimension (R38, R39). -/
def opPreU (o : Operand) (kb j r : Nat) : Option Int :=
  if o.preBlocks = 0 then (if j < kb ∨ opUniform o then opU o j r else none)
  else if j < o.preBlocks then blockU o.fmt (o.pre.getD (j * o.width + r) 0).toNat
  else none

/-- What the element at step k and row r stands for; an integer n of an INT8 page is n × 2^p (R210), a score its exact weight (R59). -/
def opNum (o : Operand) (k r : Nat) : Num :=
  match o.tops with
  | some ms => softWeight (ms.getD r 0) (f32 (BitVec.ofNat 32 (opElem o k r)))
  | none =>
    let x := blockElem o.fmt (opScale o (k / 32) r) (opElem o k r)
    match o.page with
    | some e => if o.fmt = 0 then numShift x ((e : Int) - 127) else x
    | none => x

/-- K_SCALE or V_SCALE of a layer in the KV layout table of the partition that owns the core's quadrant (R207). -/
def pageScale (s : State) (k layer : Nat) (value : Bool) : Option Nat :=
  (mget s.car.images (quadOwner s (coreQuad k))).bind fun l =>
    l.img.kv[layer]?.map fun e => if value then fld e 27 20 else fld e 35 28

/-- Whether a slot reads KV pages, and the scale it then takes (R210). -/
def slotPage (s : State) (k : Nat) (desc : W512) : Option Nat :=
  (Config.pageOperand desc).bind fun x => pageScale s k x.1 x.2

/-- The scale or shadow bytes that the pre-pass reads ahead of a tile (R39, R66), and their blocks where they are those of a whole split dimension. -/
def preRead (s : State) (k : Nat) (desc : W512) (w kb : Nat) : (List Byte × Nat) × State :=
  match Config.prepass desc with
  | some (a, n) => let (bs, s) := localRead s k a (n * w); ((bs, n), s)
  | none => (([], 0), (localRead s k (Config.scaleBase desc) (kb * w)).2)

/-- The pre-pass of a CONV slot (R39, R66): the shadow lines of the tile's own blocks, or of the blocks of the whole dimension where it holds a split; then their shadow bytes. -/
def convPre (s : State) (k : Nat) (x : AguSlot) (ps : List Int) (steps : List Nat) (pre : Bool) : List Byte × State :=
  let d := x.desc
  if !pre || !fmtShadow (fld d 504 501) then ([], s)
  else
    let whole := Config.convBlocks d
    let lines :=
      if whole = [] then steps.flatMap (convShadowLines d x.cblk ps)
      else whole.flatMap fun b => convShadowLines d b.1 ps (32 * b.2)
    (whole.flatMap fun b => ps.map fun p => BitVec.ofNat 8 (convShadow s k d b.1 p (32 * b.2)),
     each lines (fun s a => (localRead s k a 64).2) s)

/-- An operand of zeros, as an idle slot supplies it (R183). -/
def zeroOperand (fmt w kb : Nat) : Operand :=
  { fmt := fmt, width := w, elems := 0, scales := List.replicate (kb * w) (if fmtShadow fmt then 0x80 else 0), conv := none }

/-- Integer maxima of `w` rows, one INT32 each (R59). -/
def topsRead (s : State) (k a w : Nat) : List Int × State :=
  let (bs, s) := localRead s k a (4 * w)
  ((List.range w).map fun r => sx 32 (leNat ((bs.drop (4 * r)).take 4)), s)

/-- Read an operand of K steps and `w` rows through a slot (R65, R182, R184); with `pre` its scales or shadows are read a second time, ahead of it (R66). An idle slot gives zeros and an address fault (R183). -/
def opRead (s : State) (k agu slot fmt w kb : Nat) (pre : Bool) : Operand × State :=
  let x := slotGet (coreGet s k) agu slot
  if !x.active then (zeroOperand fmt w kb, addrMark s k)
  else if slotConv x.desc then
    let steps := List.range (32 * kb)
    let ps := (List.range w).map fun (j : Nat) => x.pos + (j : Int)
    let (pr, s) := convPre s k x ps steps pre
    let l := steps.flatMap fun i => ps.map fun p => convSupply s k x p i
    let s := convCount s k x ps steps true
    ({ fmt := fmt, width := w, elems := 0, scales := [], conv := some l, pre := pr, preBlocks := pr.length / max 1 w },
     coreSet s k (slotSet (coreGet s k) agu slot { x with step := 0 }))
  else
    let top := if agu = 0 then Config.weightOperand x.desc else none
    let pg := slotPage s k x.desc
    let scaled := top.isNone && pg.isNone && (fmtMX fmt || fmtShadow fmt)
    let (pr, s) := if scaled && pre then preRead s k x.desc w kb else (([], 0), s)
    let (ms, s) :=
      match top with
      | some a => let (m, s) := topsRead s k a w; (some m, s)
      | none => (none, s)
    let (bs, s) := linRead s k agu slot (32 * kb * w * (if top.isSome then 32 else fmtBits fmt) / 512)
    let (sc, s) := if scaled then localRead s k (Config.scaleBase x.desc) (kb * w) else ([], s)
    ({ fmt := fmt, width := w, elems := leNat bs, scales := sc, conv := none, page := pg, pre := pr.1, preBlocks := pr.2, tops := ms }, s)

/-- Anchor of output row `ra` and the 32 columns from `cb` on (R38): over every block of the whole reduction dimension. -/
def tileAnchor (a b : Operand) (kb ra cb : Nat) : Int :=
  let us := (List.range (max kb (max a.preBlocks b.preBlocks))).filterMap fun j =>
    match opPreU a kb j ra, imax ((List.range 32).filterMap fun i => opPreU b kb j (cb + i)) with
    | some x, some y => some (x + y)
    | _, _ => none
  (imax us).getD (-300)

/-- The accumulators of one row (R40 to R43), from given starts on a given anchor. -/
def tileRow (a b : Operand) (kb ra cb : Nat) (anchor : Int) (start : List Acc) : List Acc :=
  (List.range 32).map fun i =>
    (List.range (32 * kb)).foldl (fun acc k =>
      accAdd anchor acc (numMul (opNum a k ra) (opNum b k (cb + i)))) (start.getD i {})

/-- A row of accumulators: the SPECIAL and SAT bits of any are the row's (R36, R42, R43, R67; log entry 96). -/
def rowOf (anchor : Int) (bad : Bool) (cs : List Acc) : AccRow :=
  { anchor := anchor, bad := bad, nan := cs.any (·.nan), pinf := cs.any (·.pinf), ninf := cs.any (·.ninf), sat := cs.any (·.sat)
    cells := cs.map (·.v) }

/-- One output of a row: its sum with the row's SPECIAL and SAT bits (R44, R67); a row that met unequal anchors is NaN (R72). -/
def rowAcc (r : AccRow) (i : Nat) : Acc :=
  { v := r.cells.getD i 0, nan := r.nan || r.bad, pinf := r.pinf, ninf := r.ninf, sat := r.sat }

/-- The records that a tile with LOAD_RECORD takes for a row (R72): its anchor, whether they agree, the accumulators. -/
def recRow (rs : List (BitVec 128)) : Int × Bool × List Acc :=
  let ps := rs.map recRead
  let a := (ps.head?.map Prod.fst).getD 0
  (a, ps.any (fun p => p.1 != a), ps.map Prod.snd)

/-- A 128-bit number from 16 bytes at a position of a byte list. -/
def recAt (bs : List Byte) (i : Nat) : BitVec 128 := BitVec.ofNat 128 (leNat ((bs.drop (16 * i)).take 16))

/-- One engine's tile (R64 to R72): the i-th of `n` enabled engines. -/
def tileRows (w : BitVec 64) (a b : Operand) (ai bi : Nat) (recs : List Byte) : List AccRow :=
  let kb := fld w 20 8
  (List.range 64).map fun r =>
    let ra := 64 * ai + r
    let cb := 32 * bi
    if bit w 21 then
      let st := recRow ((List.range 32).map fun i => recAt recs (32 * r + i))
      rowOf st.1 st.2.1 (tileRow a b kb ra cb st.1 st.2.2)
    else
      let an := if bit w 48 then sx 16 (fld w 47 32) else tileAnchor a b kb ra cb
      rowOf an false (tileRow a b kb ra cb an [])

/-- A row whose every result is NaN (R73). -/
def nanRow : AccRow := { nan := true, cells := List.replicate 32 0 }

/-- Key of an accumulator set. -/
def accKey (e : Nat) (set : Bool) : Nat := 2 * e + (if set then 1 else 0)

/-- The set that the next tile of an engine uses (R67): set 0 at the start of an operation, then alternating. -/
def tileSet (c : Core) (first : Bool) (e : Nat) : Bool := if first then false else mgetD c.nextSet e false

/-- TILE (R115): a tile on each enabled engine. DESIGN CHOICE (log entries 103 and 104): the setup is read at each tile, as each core word's operation; a tile on a setup that does not compute leaves its slots where they are and reads nothing (R73). -/
def tileOp (k : Nat) (e : EArgs) (first : Bool) (s : State) : State :=
  let w := setupGet (coreGet s k) e.setup.val
  let es := engines e
  let n := es.length
  let put (s : State) (eng : Nat) (rows : List AccRow) : State :=
    let c := coreGet s k
    let set := tileSet c first eng
    coreSet s k { c with accs := mset c.accs (accKey eng set) rows, nextSet := mset c.nextSet eng (!set) }
  if setupBad w then each es (fun s eng => put s eng (List.replicate 64 nanRow)) s
  else
    let kb := fld w 20 8
    let bc := bit w 22
    let pre := !bit w 48 && !bit w 21
    let (a, s) := opRead s k 0 e.aSlot.val (fld w 63 60) (if bc then 64 else 64 * n) kb pre
    let (b, s) := opRead s k 1 e.bSlot.val (fld w 59 56) (32 * n) kb pre
    let desc := (slotGet (coreGet s k) 1 e.bSlot.val).desc
    let (recs, s) := if bit w 21 then localRead s k (Config.recordBase desc) (64 * 32 * 16 * n) else ([], s)
    each ((List.range n).zip es) (fun s p =>
      put s p.2 (tileRows w a b (if bc then 0 else p.1) p.1 (recs.drop (64 * 32 * 16 * p.1)))) s

/-- A key or value as a KV page holds it (R210): v × 2^(−(scale − 127)), to nearest even, saturated; a page stores no scale. -/
def pageWrite (fmt sc : Nat) (v : Num) : Nat × BitVec 4 :=
  let p : Int := (sc : Int) - 127
  if fmt = 0 then elemWrite 0 0 false p v else elemWrite fmt 0 false 0 (numShift v (-p))

/-- The converted row of a readout (R47 to R52, R68): its bytes, its scale or shadow byte, its flags. With `den` each value is divided by it and then rounded once (R60); with `page` the elements go into a KV page of that scale (R210). -/
def convRow (w : BitVec 64) (r : AccRow) (den : Option Num := none) (page : Option Nat := none) : List Byte × Option Nat × BitVec 4 :=
  let fmt := outFmt w
  let mode := fld w 51 50
  let inf := bit w 49
  let vs := (List.range 32).map fun i =>
    if setupBad w then Num.nan
    else
      let x := accValue r.anchor (rowAcc r i)
      match den with
      | some d => numQuot x d
      | none => x
  let sat : BitVec 4 := if r.sat then flSAT else 0
  let pack (es : List Nat) : List Byte :=
    leBytes (32 * fmtBits fmt / 8) ((List.range 32).foldl (fun b i => b + es.getD i 0 * 2 ^ (fmtBits fmt * i)) 0)
  match page with
  | some sc =>
    let ys := vs.map (pageWrite fmt sc)
    (pack (ys.map Prod.fst), none, orFlags (ys.map Prod.snd) ||| sat)
  | none =>
  if fmtMX fmt then
    let (sc, es, fl) := mxWrite fmt mode inf vs
    (pack es, some sc, fl ||| sat)
  else
    let ys := vs.map (elemWrite fmt mode inf (sx 8 (fld w 31 24)))
    let es := ys.map Prod.fst
    (pack es, if fmtShadow fmt then some (shadowOf fmt es) else none, orFlags (ys.map Prod.snd) ||| sat)

/-- The record row of a readout (R44, R68); a row that met unequal anchors is NaN (R72). -/
def recordRow (r : AccRow) : List Byte × BitVec 4 :=
  ((List.range 32).flatMap (fun i => leBytes 16 (recWrite r.anchor (rowAcc r i)).toNat),
   (if r.sat then flSAT else 0) ||| (if r.bad then flINV else 0))

/-- The denominator of a row, where the readout writes a quotient (R60): the value of its record. -/
def denRead (s : State) (k : Nat) (desc : W512) (row : Nat) : Option Num × State :=
  match Config.quotientBase desc with
  | some a =>
    let (bs, s) := localRead s k (a + 16 * row) 16
    let (an, x) := recRead (recAt bs 0)
    (some (accValue an x), s)
  | none => (none, s)

/-- Write one row of an engine's readout through the slot: the idx-th row written, row `row` of the operand. -/
def rowOut (k slot : Nat) (w : BitVec 64) (idx row : Nat) (r : AccRow) (s : State) : State :=
  let x := slotGet (coreGet s k) 1 slot
  let record := bit w 23 && !setupBad w
  let (den, s) := if x.active && !record then denRead s k x.desc row else (none, s)
  let c := coreGet s k
  let (bs, sc, fl) :=
    if record then ((recordRow r).1, none, (recordRow r).2) else convRow w r den (slotPage s k x.desc)
  let n := cdiv bs.length 64
  if !x.active then addrMark (coreSet s k (addFlags c fl)) k
  else
    let (as, x') := linTake x n
    let s := coreSet s k (slotSet (addFlags c fl) 1 slot x')
    let s := (List.range n).foldl (fun s i => localWrite s k (as.getD i 0) ((bs.drop (64 * i)).take 64)) s
    match sc with
    | some b => localWrite s k (Config.readoutScaleAddr x.desc idx) [BitVec.ofNat 8 b]
    | none => s

/-- READOUT (R68, R115): each row, one after another, of each enabled engine's set. -/
def readoutOp (k : Nat) (e : EArgs) (set : Nat → Bool) (s : State) : State :=
  let c := coreGet s k
  let w := setupGet c e.setup.val
  let es := engines e
  each (List.range 64) (fun s r =>
    each ((List.range es.length).zip es) (fun s p =>
      let row := (mgetD c.accs (accKey p.2 (set p.2)) []).getD r { cells := List.replicate 32 0 }
      rowOut k e.bSlot.val w (r * es.length + p.1) (if bit w 22 then r else 64 * p.1 + r) row s) s) s

/-- TILE (R64 to R73, R115, R178). -/
def execTile (k : CoreId) (e : EArgs) (s : State) : Res :=
  if quadOn s (coreQuad k.val) then .next (tileOp k.val e e.firstSet s) else .next s

/-- READOUT of the set the operation names (R68, R115). -/
def execReadout (k : CoreId) (e : EArgs) (s : State) : Res :=
  if quadOn s (coreQuad k.val) then .next (readoutOp k.val e (fun _ => e.firstSet) s) else .next s

/-- TILE_READ (R115): a tile, and a readout of the set that the tile does not use. The operand reads go before the readout's writes (R79, R81; log entry 105). -/
def execTileRead (k : CoreId) (e : EArgs) (s : State) : Res :=
  if quadOn s (coreQuad k.val) then
    let c := coreGet s k.val
    .next (readoutOp k.val e (fun g => !(tileSet c e.firstSet g)) (tileOp k.val e e.firstSet s))
  else .next s

end Sys2Proof.Machine
end

