-- ==== Sys2Proof/Machine/Sequencer.lean ====
section
/-! DEFINITION. Bundle fetch, sequencer operations, lanes and their waits and posts, and the dispatch of a step to a context (R98 to R127). -/

namespace Sys2Proof.Machine

open Sys2Proof

/-! ### Instruction memory (R99) -/

/-- Bundle number on the die of a bundle address in a context's region. -/
def bundleNo (x : Context) (a : Nat) : Option Nat :=
  (x.granules[a / 256]?).map fun g => 256 * g + a % 256

/-- Size of a region in bundles. -/
def regionSize (x : Context) : Nat := 256 * x.granules.length

/-- Fetch a bundle: all zeros where another owner holds the line or nothing has been written (R91, R127). -/
def bundleRead (s : State) (c : Nat) (a : Nat) : BitVec 4096 :=
  let x := ctxGet s c
  match bundleNo x a, x.part with
  | some b, some p =>
    let k := 8192 * (c / 4) + b
    if (mget s.seq.imemOwner k).map BitVec.toNat = some p.val then mgetD s.seq.imem k 0 else 0
  | _, _ => 0

/-- Count a fetch that R91 answers with zeros: the eight 64 B lines of the bundle, for the quadrant that its granule serves (R99, OD 0x4012). -/
def bundleCount (s : State) (c : Nat) (a : Nat) : State :=
  let x := ctxGet s c
  match bundleNo x a, x.part with
  | some b, some p =>
    if (mget s.seq.imemOwner (8192 * (c / 4) + b)).map BitVec.toNat = some p.val then s
    else bumpBy s 0x4012 (4 * (c / 4) + b / 2048 + 1) 64 8
  | _, _ => s

/-- Header of a bundle (R100). -/
def bundleHead (b : BitVec 4096) : BitVec 128 := b.extractLsb' 3968 128

/-- Slice of lane n (R100). -/
def bundleLane (b : BitVec 4096) (n : Nat) : BitVec 496 := b.extractLsb' (496 * n) 496

/-- SEQOP of a header (R101). -/
def seqop (h : BitVec 128) : Nat := fld h 123 120

/-! ### Lanes (R105, R106, R136) -/

/-- SYNC_OP of a slice (R106). -/
def slSync (x : Slice) : Nat := if x.idle then 0 else fld x.bits 495 494
/-- WAIT_ENTRY. -/
def slWaitEntry (x : Slice) : Nat := fld x.bits 493 490
/-- POST_ENTRY. -/
def slPostEntry (x : Slice) : Nat := fld x.bits 489 486
/-- CDMA_ISSUE. -/
def slCdma (x : Slice) : Nat := if x.idle then 0 else fld x.bits 485 484
/-- SB_WAIT. -/
def slSbWait (x : Slice) : Nat := if x.idle then 0 else fld x.bits 483 480

/-- CLASS_LIMIT and GAP of a rung of the issue ladder (R136, R359): rung 0 is no limit. -/
def rungLimit (r : Nat) : Nat × Nat :=
  if r = 0 then (255, 0)
  else if r ≤ 7 then (255 - 32 * r, 1)
  else (0, min 15 (r - 7))

/-- Issue limit of a lane's quadrant. -/
def laneLimit (s : State) (l : Nat) : Nat × Nat :=
  rungLimit (mgetD s.wv.quads (clusQuad l) {}).rung

/-- Scoreboard count of a slot; slot 0 is untracked. -/
def sbGet (x : Lane) (slot : Nat) : Nat := if slot = 0 then 0 else mgetD x.sb slot 0

/-- Every scoreboard slot reads zero. -/
def sbClear (x : Lane) : Bool := x.sb.all fun p => p.2 == 0

/-- Fences still queued on a lane. -/
def fencesLeft (x : Lane) : Nat := (x.queue.filter (·.fence)).length

/-- FENCE (R102): every lane of the context has completed its previous bundle and its scoreboard reads zero, or has begun this fence. -/
def fenceOpen (s : State) (c l : Nat) : Bool :=
  let n := fencesLeft (laneGet s l)
  (ctxLanes s c).all fun m =>
    let y := laneGet s m
    decide (fencesLeft y < n)
    || (fencesLeft y == n && y.cur.isNone && sbClear y && (y.queue.head?.map (·.fence)).getD false)

/-- An opcode of R117 that is not reserved. -/
def opcLegal (o : Nat) : Bool :=
  decide (o ≤ 0x07) || (decide (0x10 ≤ o) && decide (o ≤ 0x1A)) || o == 0x20 || (decide (0x30 ≤ o) && decide (o ≤ 0x33))
  || (decide (0x40 ≤ o) && decide (o ≤ 0x43)) || o == 0x50 || o == 0x51 || (decide (0x60 ≤ o) && decide (o ≤ 0x64))

/-- Vector table entries that a core word issues (R116); none past entry 1,023 (log entry 106). -/
def wordEntries (c : Core) (w : Nat) : List (BitVec 64) :=
  if nfld w 39 38 = 1 then
    ((List.range (nfld w 37 35 + 1)).map (nfld w 33 24 + ·)).filterMap fun n => if n < 1024 then some (mgetD c.vtable n 0) else none
  else []

/-- A core word with a reserved EOP, VMODE, vector opcode or LDOP (R127). -/
def wordBad (c : Core) (w : Nat) : Bool :=
  decide (nfld w 55 53 > 3) || decide (nfld w 39 38 > 1) || nfld w 11 10 == 3
  || (wordEntries c w).any fun e => !opcLegal (fld e 63 56)

/-- Core word i of a slice (R100). -/
def slWord (x : Slice) (i : Nat) : Nat := if x.idle then 0 else fld x.bits (60 * i + 59) (60 * i)

/-- A slice that brings a reserved encoding to a core of its lane (R127). -/
def sliceBad (s : State) (l : Nat) (x : Slice) : Bool :=
  !x.idle && (List.range 8).any fun i => wordBad (coreGet s (8 * l + i)) (slWord x i)

/-- The wait of a slice is satisfied against the lane's running target (R86, R108). The command names no cycle: the wait stands in a cycle after those of all operations so far (R88, log entry 98). -/
def waitHolds (s : State) (l : Nat) (sl : Slice) : Bool :=
  let x := laneGet s l
  let e := slWaitEntry sl
  waitOk (cntValue (cntGet s l (fld (syncEntry s l e) 107 99))) (mgetD x.targets e 0)

/-- Advance the running target of an entry by its AMOUNT (R108). -/
def targetAdvance (s : State) (l e : Nat) : State :=
  let x := laneGet s l
  laneSet s l { x with targets := mset x.targets e (mgetD x.targets e 0 + BitVec.ofNat 32 (fld (syncEntry s l e) 95 80)) }

/-- The next slice of a lane that runs nothing. -/
def nextSlice (x : Lane) : Option Slice := if x.cur.isSome then none else x.queue.head?

/-- The wait before a bundle: WAIT, and SB_WAIT in the same cycle where both are named (R109). -/
def laneWaitOp (s : State) (l : Nat) (sl : Slice) : State :=
  let x := laneGet s l
  if x.waitDone then s
  else if waitHolds s l sl && sbGet x (slSbWait sl) == 0 then
    let s := targetAdvance s l (slWaitEntry sl)
    laneSet s l { laneGet s l with waitDone := true, sbDone := true }
  else s

/-- The post after a bundle's last repetition (R104, R108). -/
def lanePostOp (s : State) (l : Nat) (sl : Slice) : State :=
  let x := laneGet s l
  if x.postDue && decide (x.beatsLeft ≤ 1) then
    tablePost (laneSet s l { x with postDue := false }) l (slPostEntry sl)
  else s

/-- LANE_WAIT (R106, R108, R109): the slice to begin names WAIT. -/
def execLaneWait (l : Clus) (s : State) : Res :=
  match nextSlice (laneGet s l.val) with
  | some sl => if slSync sl = 1 then .next (laneWaitOp s l.val sl) else .next s
  | none => .next s

/-- LANE_POST (R106, R108): the running slice names POST. -/
def execLanePost (l : Clus) (s : State) : Res :=
  match (laneGet s l.val).cur with
  | some sl => if slSync sl = 2 then .next (lanePostOp s l.val sl) else .next s
  | none => .next s

/-- LANE_WAIT_AND_POST (R106): WAIT before the first repetition and POST after the last. -/
def execLaneWaitAndPost (l : Clus) (s : State) : Res :=
  match (laneGet s l.val).cur with
  | some sl => if slSync sl = 3 then .next (lanePostOp s l.val sl) else .next s
  | none =>
    match (laneGet s l.val).queue.head? with
    | some sl => if slSync sl = 3 then .next (laneWaitOp s l.val sl) else .next s
    | none => .next s

/-- SCOREBOARD_WAIT (R106, R109, R110): the slot reads zero; where the slice also names WAIT, both must hold together. -/
def execScoreboardWait (l : Clus) (s : State) : Res :=
  match nextSlice (laneGet s l.val) with
  | some sl =>
    if slSbWait sl = 0 then .next s
    else if slSync sl % 2 = 1 then .next (laneWaitOp s l.val sl)
    else if sbGet (laneGet s l.val) (slSbWait sl) = 0 then
      .next (laneSet s l.val { laneGet s l.val with sbDone := true })
    else .next s
  | none => .next s

/-- Every wait of the next slice has been satisfied (R105). -/
def waitsDone (x : Lane) (sl : Slice) : Bool :=
  (slSync sl % 2 == 0 || x.waitDone) && (slSbWait sl == 0 || x.sbDone)

/-! ### Fetch (R102, R103, R121, R122, R127) -/

/-- A lane of the context has 32 entries queued (R122). -/
def fetchStopped (s : State) (c : Nat) : Bool :=
  (ctxLanes s c).any fun l => decide ((laneGet s l).queue.length ≥ 32)

/-- Context of a die to fetch next, round-robin over those with fetch pending (R121). -/
def fetchPick (s : State) (d : Nat) : Option Nat :=
  let last := mgetD s.seq.lastFetched d 3
  ((List.range 4).map fun i => 4 * d + (last + 1 + i) % 4).find? fun c =>
    let x := ctxGet s c
    x.fetching && x.latch.isNone && !fetchStopped s c

/-- Give each lane of the context its slice (R121). -/
def pushSlices (s : State) (c : Nat) (b : BitVec 4096) : State :=
  let h := bundleHead b
  each (ctxLanes s c) (fun s l =>
    let x := laneGet s l
    let sl : Slice :=
      { idle := !(h.getLsbD (104 + l % 8)), bits := bundleLane b (l % 8), rep := fld h 119 112,
        pwr := BitVec.ofNat 8 (fld h 55 48), fence := seqop h == 6, stepEnd := seqop h == 5 }
    laneSet s l { x with queue := x.queue ++ [sl] }) s

/-- Record the largest lane skew (OD 0x4024): after a fetch and after a lane takes a slice. -/
def slipNote (s : State) (c : Nat) : State :=
  let ns := (ctxLanes s c).map fun l => (laneGet s l).queue.length
  let hi := lmax ns
  let lo := ns.foldl min hi
  if hi - lo > odGet s 0x4024 (c + 1) then odSet s 0x4024 (c + 1) (hi - lo) else s

/-- BUNDLE_FETCH (R121, R122, R127): one bundle of a die, for the next context with fetch pending. -/
def execBundleFetch (d : Die) (s : State) : Res :=
  match fetchPick s d.val with
  | none => .next s
  | some c =>
    let b := bundleRead s c (ctxGet s c).ptr
    let s := bundleCount s c (ctxGet s c).ptr
    let h := bundleHead b
    let s := { s with seq := { s.seq with lastFetched := mset s.seq.lastFetched d.val (c % 4) } }
    if fld h 127 124 ≠ 1 ∨ seqop h > 6 then .next (ctxEnd s c fcImage)
    else .next (slipNote (ctxSet (pushSlices s c b) c { ctxGet s c with latch := some h }) c)

/-- Resolve the latched SEQOP of a context when it is the one named (R102). -/
def seqResolve (s : State) (c op : Nat) (f : Context → BitVec 128 → Context) : State :=
  let x := ctxGet s c
  match x.latch with
  | some h => if seqop h = op then ctxSet s c { f x h with latch := none } else s
  | none => s

/-- NEXT (R102). -/
def execNext (c : Ctx) (s : State) : Res :=
  .next (seqResolve s c.val 0 fun x _ => { x with ptr := x.ptr + 1 })

/-- Trip count of a LOOP_BEGIN (R103). -/
def tripCount (x : Context) (h : BitVec 128) : Nat :=
  if bit h 95 then (x.params.getD (fld h 74 72) 0).toNat else fld h 94 72

/-- Address after the LOOP_END that matches a LOOP_BEGIN at an address (R103). -/
def loopExit (s : State) (c a lvl : Nat) : Nat :=
  (((List.range (regionSize (ctxGet s c) - a)).map (a + 1 + ·)).find? fun i =>
    let h := bundleHead (bundleRead s c i)
    seqop h == 2 && fld h 103 101 == lvl).getD a + 1

/-- LOOP_BEGIN (R102, R103). -/
def execLoopBegin (c : Ctx) (s : State) : Res :=
  .next (seqResolve s c.val 1 fun x h =>
    let t := tripCount x h
    let lvl := fld h 103 101
    { x with loops := x.loops.set lvl t, ptr := if t = 0 then loopExit s c.val x.ptr lvl else x.ptr + 1 })

/-- LOOP_END (R102). -/
def execLoopEnd (c : Ctx) (s : State) : Res :=
  .next (seqResolve s c.val 2 fun x h =>
    let lvl := fld h 103 101
    let n := x.loops.getD lvl 0 - 1
    { x with loops := x.loops.set lvl n, ptr := if n ≠ 0 then fld h 71 56 else x.ptr + 1 })

/-- JUMP (R102). -/
def execJump (c : Ctx) (s : State) : Res :=
  .next (seqResolve s c.val 3 fun x h => { x with ptr := fld h 71 56 })

/-- STEP_BEGIN (R102, R124). -/
def execStepBegin (c : Ctx) (s : State) : Res :=
  .next (seqResolve s c.val 4 fun x _ => { x with ptr := x.ptr + 1 })

/-- FENCE (R102): its hold is on the lanes. -/
def execFence (c : Ctx) (s : State) : Res :=
  .next (seqResolve s c.val 6 fun x _ => { x with ptr := x.ptr + 1 })

/-- STEP_END (R102, R126): the last bundle of the step has been fetched. -/
def execStepEnd (c : Ctx) (s : State) : Res :=
  .next (seqResolve s c.val 5 fun x _ => { x with fetching := false })

/-! ### Dispatch of a step to a context (R107, R120, R124, R125, R180, R428) -/

/-- Bytes that a tray engine reads for a partition at a tray physical address: zeros where the address or the owner fails. -/
def partBytes (s : State) (part a n : Nat) : List Byte :=
  (List.range n).map fun i =>
    match placeOf s (a + i) with
    | .hbm _ _ => if lineOk s part (a + i) then seenByte s (a + i) else 0
    | .clus c off => if quadOwner s (clusQuad c) = part then sramByte s part (clusAddr c off) else 0
    | .core k off => if quadOwner s (coreQuad k) = part then sramByte s part (coreAddr k off) else 0
    | .bad => 0

/-- The lines of such a read that R91 answers with zeros, counted (OD 0x4012). -/
def partTouch (s : State) (part a n : Nat) : State :=
  each ((List.range (if n = 0 then 0 else (a + n - 1) / 64 + 1 - a / 64)).map fun i => (a / 64 + i) * 64) (fun s l =>
    match placeOf s l with
    | .clus c off =>
      if quadOwner s (clusQuad c) = part && !tagOk s part (clusAddr c off) then bumpBy s 0x4012 (clusQuad c + 1) 64 1 else s
    | .core k off =>
      if quadOwner s (coreQuad k) = part && !tagOk s part (coreAddr k off) then bumpBy s 0x4012 (coreQuad k + 1) 64 1 else s
    | _ => s) s

/-- A number of `n` bytes read so. -/
def partNat (s : State) (part a n : Nat) : Nat := leNat (partBytes s part a n)

/-- A channel's CVU setup (R428). -/
def laneCvuOf (s : State) (part l base : Nat) : LaneCvu :=
  let set : BitVec 256 := BitVec.ofNat 256 (partNat s part base 32)
  let res := partNat s part (base + 32) 4
  let save := partNat s part (base + 36) 4
  let b := partNat s part (base + 40) 1
  let init := fld set 127 64 % 2 ^ fld set 251 245
  { setting := set, resAddr := res, saveAddr := save, en := b.testBit 0, restore := b.testBit 1, save := b.testBit 2
    run := BitVec.ofNat 64 (if b.testBit 1 then leNat (sramBytes s part (clusAddr l (save % 2 ^ 21)) 8) % 2 ^ fld set 251 245 else init) }

/-- A CVU setup field out of range (R424, R428). -/
def cvuBad (x : LaneCvu) : Bool :=
  x.en && (fld x.setting 255 252 != 1 || decide (fld x.setting 251 245 < 8) || decide (fld x.setting 251 245 > 64)
    || fld x.setting 241 240 == 3 || decide (x.resAddr ≥ 2 ^ 21) || x.resAddr % 8 != 0
    || ((x.save || x.restore) && (decide (x.saveAddr ≥ 2 ^ 21) || x.saveAddr % 8 != 0)))

/-- Load a lane's setup block, slot descriptors and CVU setups at step start (R107, R120, R124, R125, R180, R428). -/
def laneLoad (s : State) (part c l stepId : Nat) : State :=
  let base := (ctxGet s c).setupBase
  let n := l % 8
  let b := base + (stepId * 8 + n) * 2048
  let tab := (List.range 16).map fun i => BitVec.ofNat 128 (partNat s part (b + 16 * i) 16)
  let cur (i : Nat) : Nat × Nat :=
    let x := partNat s part (b + 256 + 8 * i) 8
    (x % 2 ^ 48, x / 2 ^ 48)
  let cv := base + 656 * 2 ^ 20 + (stepId * 8 + n) * 128
  let x := laneGet s l
  let s := laneSet s l
    { x with queue := [], cur := none, beatsLeft := 0, gapLeft := none, waitDone := false, sbDone := false, postDue := false,
             ended := false, table := tab
             targets := (List.range 16).map fun i => (i, BitVec.ofNat 32 (fld (tab.getD i 0) 63 32))
             cursors := [(0, cur 0), (1, cur 1)]
             cvu := [(0, laneCvuOf s part l cv), (1, laneCvuOf s part l (cv + 64))] }
  let s := partTouch (partTouch s part b 2048) part cv 128
  let s := each [0, 1] (fun s i =>
    match mget (laneGet s l).cvu i with
    | some q => if q.restore then (sramRead s (clusQuad l) part (clusAddr l (q.saveAddr % 2 ^ 21)) 8).2 else s
    | none => s) s
  let s := each (List.range 16) (fun s i =>
    let e := tab.getD i 0
    if bit e 98 then locReset s part (fld e 127 108) (fld e 107 99) else s) s
  each (List.range 8) (fun s i =>
    let k := 8 * l + i
    let sd := base + 64 * 2 ^ 20 + (stepId * 8 + n) * 16384 + i * 2048
    let s := partTouch s part sd 2048
    let core := coreGet s k
    let lds := (List.range 16).map fun j =>
      let w : BitVec 64 := BitVec.ofNat 64 (partNat s part (b + 1024 + (16 * i + j) * 8) 8)
      (j, (BitVec.ofNat 14 (fld w 63 50), BitVec.ofNat 15 (fld w 49 35)))
    let sls := (List.range 32).map fun j => (j, { desc := BitVec.ofNat 512 (partNat s part (sd + 64 * j) 64) : AguSlot })
    coreSet s k { core with ldma := lds, slots := sls }) s

/-- Start a dispatched step on a context (R124, steps 1 to 4). -/
def ctxStart (s : State) (c : Nat) (d : Dispatch) : State :=
  let x := ctxGet s c
  match x.part with
  | none => s
  | some p =>
    let h := bundleHead (bundleRead s c d.entry)
    let s := bundleCount s c d.entry
    let s := ctxSet s c { x with step := some d, params := d.params, ptr := d.entry, fetching := true, latch := none, fault := none, runs := x.runs + 1 }
    if fld h 127 124 ≠ 1 ∨ seqop h ≠ 4 ∨ fld h 87 72 ≠ d.stepId then ctxEnd s c fcImage
    else
      let s := each (ctxLanes s c) (fun s l => laneLoad s p.val c l d.stepId) s
      if (ctxLanes s c).any fun l => (laneGet s l).cvu.any fun q => cvuBad q.2 then ctxEnd s c fcImage else s

/-- A dispatch arrives at a context: it starts, or is held while a step runs (R124). -/
def ctxDispatch (s : State) (c : Nat) (d : Dispatch) : State :=
  let x := ctxGet s c
  if x.step.isSome then ctxSet s c { x with held := some d } else ctxStart s c d

/-- A context's step is complete: ended early, or every lane has ended (R126, R127). -/
def ctxDone (s : State) (c : Nat) : Bool :=
  let x := ctxGet s c
  x.step.isSome && (x.fault.isSome || (ctxLanes s c).all fun l => (laneGet s l).ended)

end Sys2Proof.Machine
end

