-- ==== Sys2Proof/Machine/Cvu.lean ====
section
/-! DEFINITION. The check-value computation and the hub and step contexts (R422 to R433). -/

namespace Sys2Proof.Machine

open Sys2Proof

/-- The low `n` bits of a number in reverse order. -/
def reflect : Nat → Nat → Nat
  | 0, _ => 0
  | n + 1, x => x % 2 * 2 ^ n + reflect n (x / 2)

/-- Fields of a setting (R424). -/
def cvW (c : BitVec 256) : Nat := fld c 251 245
/-- POLY. -/
def cvPoly (c : BitVec 256) : Nat := fld c 191 128
/-- INIT, within W bits. -/
def cvInit (c : BitVec 256) : BitVec 64 := BitVec.ofNat 64 (fld c 127 64 % 2 ^ cvW c)

/-- One shift of R423. -/
def cvShift (w poly r : Nat) : Nat :=
  if r.testBit (w - 1) then ((r * 2) ^^^ poly) % 2 ^ w else r * 2 % 2 ^ w

/-- Fold one byte (R423). -/
def cvByte (c : BitVec 256) (r : Nat) (b : Byte) : Nat :=
  let w := cvW c
  let x := if bit c 244 then reflect 8 b.toNat else b.toNat
  Nat.repeat (cvShift w (cvPoly c)) 8 ((r ^^^ (x * 2 ^ (w - 8))) % 2 ^ w)

/-- Fold bytes one after another (R423). The match lets the running value be evaluated at every byte. -/
def cvBytes (c : BitVec 256) : Nat → List Byte → Nat
  | r, [] => r
  | r, b :: t =>
    match cvByte c r b with
    | 0 => cvBytes c 0 t
    | n + 1 => cvBytes c (n + 1) t

/-- Fold bytes into a running value (R423). -/
def cvFold (c : BitVec 256) (r : BitVec 64) (bs : List Byte) : BitVec 64 :=
  BitVec.ofNat 64 (cvBytes c r.toNat bs)

/-- The check value of a running value (R423). -/
def cvCheck (c : BitVec 256) (r : BitVec 64) : BitVec 64 :=
  let w := cvW c
  let x := if bit c 243 then reflect w r.toNat else r.toNat
  BitVec.ofNat 64 (if bit c 242 then x ^^^ (2 ^ w - 1) else x)

/-- Fold one unit with its fold value for FOLD 01, where the context has one (R425). -/
def cvUnit (c : BitVec 256) (r : BitVec 64) (foldAddr : Nat) (bs : List Byte) : BitVec 64 :=
  cvFold c r ((if fld c 241 240 = 1 then leBytes 8 foldAddr else []) ++ bs)

/-- Whether closing meets a mismatch (R426). -/
def cvMismatch (c : BitVec 256) (r : BitVec 64) : Bool :=
  bit c 239 && (cvCheck c r).toNat % 2 ^ cvW c != fld c 63 0 % 2 ^ cvW c

/-- The check value over bytes of the tray's preset, with a sequence number folded first (R424, R425, R431). -/
def presetCheck (seq : Option Nat) (bs : List Byte) : BitVec 64 :=
  let r := cvFold cvuPreset (cvInit cvuPreset) ((match seq with | some n => leBytes 8 n | none => []) ++ bs)
  cvCheck cvuPreset r

/-- A setting of the scrub contexts: the preset with the granule's address folded first (R425, R431). -/
def scrubSetting : BitVec 256 := cvuPreset ||| 1#256 <<< 240

/-- The granule's ciphertext as read back: zero but for the bytes listed (R432). -/
def readBack (l : List (Nat × Byte)) : List Byte := (List.range (2 ^ 21)).map fun i => mgetD l i 0

/-- The read-back context of a granule differs from its reference context (R431, R432). Both start at INIT and return to it at their close, so neither holds anything between two granules. -/
def scrubMismatch (g : Nat) (l : List (Nat × Byte)) : Bool :=
  let fold (bs : List Byte) : BitVec 64 := cvUnit scrubSetting (cvInit scrubSetting) (g * 2 ^ 21) bs
  fold (readBack l) != fold (List.replicate (2 ^ 21) 0)

/-- Mismatches of a granule's scrub: it is written and verified once more after the first (R432). -/
def scrubMisses (g : Nat) (r : ScrubReads) : Nat :=
  if scrubMismatch g r.first then (if scrubMismatch g r.second then 2 else 1) else 0

/-- The hub context of a function, at the preset unless set (R429, R430). -/
def hubGet (s : State) (f : Nat) : HubCvu :=
  mgetD s.cvu.hub f { setting := cvuPreset, run := cvInit cvuPreset }

/-- Replace the hub context of a function. -/
def hubSet (s : State) (f : Nat) (h : HubCvu) : State := { s with cvu := { s.cvu with hub := mset s.cvu.hub f h } }

/-- Return a hub context to the preset at INIT; nothing is compared (R430). -/
def hubReset (s : State) (f : Nat) : State :=
  { odReset (odReset s 0x6800 f) 0x6801 f with cvu := { s.cvu with hub := mdel s.cvu.hub f } }

end Sys2Proof.Machine
end

