-- ==== Sys2Proof/Machine/Dma.lean ====
section
/-! DEFINITION. DMA descriptors: fields, issue checks, transfer, compression and issue from a lane (R84, R85, R110 to R112, R142, R146, R150, R159 to R172). -/

namespace Sys2Proof.Machine

open Sys2Proof

/-! ### Fields of R160 -/

/-- OP. -/
def dOp (d : W512) : Nat := fld d 507 504
/-- PART. -/
def dPart (d : W512) : Nat := fld d 503 498
/-- SB. -/
def dSb (d : W512) : Nat := fld d 497 494
/-- CMP. -/
def dCmp (d : W512) : Nat := fld d 493 492
/-- CMP_DIR. -/
def dCmpDir (d : W512) : Bool := bit d 491
/-- CVU. -/
def dCvu (d : W512) : Bool := bit d 490
/-- GCM. -/
def dGcm (d : W512) : Bool := bit d 489
/-- GCM_SLOT. -/
def dGcmSlot (d : W512) : Nat := fld d 488 483
/-- SRC. -/
def dSrc (d : W512) : Nat := fld d 479 416
/-- DST. -/
def dDst (d : W512) : Nat := fld d 415 352
/-- SRC_SPACE. -/
def dSrcSp (d : W512) : Nat := fld d 351 350
/-- DST_SPACE. -/
def dDstSp (d : W512) : Nat := fld d 349 348
/-- FUNC. -/
def dFunc (d : W512) : Nat := fld d 347 343
/-- ROW_BYTES. -/
def dRowB (d : W512) : Nat := fld d 339 320
/-- ROWS. -/
def dRows (d : W512) : Nat := fld d 319 304
/-- SRC_STRIDE. -/
def dSrcStr (d : W512) : Nat := fld d 303 272
/-- DST_STRIDE. -/
def dDstStr (d : W512) : Nat := fld d 271 240
/-- PSUB_SEL. -/
def dPsel (d : W512) : Nat := fld d 239 236
/-- PSUB_TGT. -/
def dPtgt (d : W512) : Nat := fld d 235 234
/-- PSUB_MUL. -/
def dPmul (d : W512) : Nat := fld d 233 218
/-- SYNC_EN. -/
def dSyncEn (d : W512) : Bool := bit d 215
/-- FILL word. -/
def dFill (d : W512) : Nat := fld d 159 128
/-- PG_SIZE. -/
def dPgSize (d : W512) : Nat := fld d 127 125
/-- PG_FIRST. -/
def dPgFirst (d : W512) : Nat := fld d 124 101

/-- Queue number of an engine. -/
def engKey : DmaEng → Nat
  | .cluster c ch => 2 * c.val + ch.val
  | .die d => 64 + d.val
  | .hub => 68

/-- The jobs of an engine. -/
def jobsOf (s : State) (k : Nat) : List Job := mgetD s.dma.queues k []

/-- Replace the jobs of an engine. -/
def jobsSet (s : State) (k : Nat) (l : List Job) : State :=
  { s with dma := { s.dma with queues := mset s.dma.queues k l } }

/-- Append a job to an engine. -/
def jobPush (s : State) (k : Nat) (j : Job) : State := jobsSet s k (jobsOf s k ++ [j])

/-- The status codes of R162. -/
def stOk : Fin 11 := 0
/-- TAG. -/
def stTag : Fin 11 := 1
/-- OWNER. -/
def stOwner : Fin 11 := 2
/-- WRITE_PROT. -/
def stWp : Fin 11 := 3
/-- ADDRESS. -/
def stAddr : Fin 11 := 4
/-- FORMAT. -/
def stFormat : Fin 11 := 5
/-- OWNER_CHANGED. -/
def stChanged : Fin 11 := 6
/-- UE. -/
def stUe : Fin 11 := 7
/-- AUTH. -/
def stAuth : Fin 11 := 8
/-- HOST. -/
def stHost : Fin 11 := 9
/-- ABORT. -/
def stAbort : Fin 11 := 10

/-! ### Issue (R111, R112, R161) -/

/-- Parameter substitution (R161). -/
def psub (d : W512) (params : List W32) : W512 × Bool :=
  if dPsel d ≥ 8 then (d, false)
  else
    let p := (params.getD (dPsel d) 0).toNat * dPmul d
    match dPtgt d with
    | 0 => (put d 479 416 (dSrc d + p * 64), false)
    | 1 => (put d 415 352 (dDst d + p * 64), false)
    | 2 =>
      let r := min (dRows d) p
      (if r = 0 then d else put d 319 304 r, r == 0 && dRows d != 0)
    | _ => (d, false)

/-- Pages that a PAGE_READ registers at its issue (R166). -/
def pagesReg (s : State) (j : Job) : Nat × Nat := (s.kv.epoch, if dOp j.desc = 2 ∧ !j.empty then dRows j.desc else 0)

/-- Change an in-flight read counter (R219). -/
def inflightAdd (s : State) (e : Nat) (n : Int) : State :=
  { s with kv := { s.kv with inflight := s.kv.inflight.set (e % 4) (Int.toNat (((s.kv.inflight.getD (e % 4) 0 : Nat) : Int) + n)) } }

/-- Put a job on an engine's queue, registering its page reads. -/
def jobIssue (s : State) (k : Nat) (j : Job) : State :=
  let r := pagesReg s j
  let s := if r.2 = 0 then s else inflightAdd s r.1 r.2
  jobPush s k { j with reads := r }

/-- The descriptor at a channel's cursor as the lane would issue it (R112, R161): the descriptor after substitution, and whether it has no rows left; none where the cursor has run out. -/
def cdmaNext (s : State) (l ch : Nat) : Option (W512 × Bool) :=
  match laneCtx s l with
  | none => none
  | some c =>
    let ctx := ctxGet s c
    let cur := mgetD (laneGet s l).cursors ch (0, 0)
    match ctx.part with
    | none => none
    | some p =>
      if !quadOn s (clusQuad l) || ctx.step.isNone || (laneGet s l).ended || cur.2 == 0 then none
      else some (psub (BitVec.ofNat 512 (partNat s p.val cur.1 64)) ctx.params)

/-- The issue meets a scoreboard slot that counts 255 (R111). -/
def cdmaFull (s : State) (l ch : Nat) : Bool :=
  match cdmaNext s l ch with
  | some (d, _) => dSb d != 0 && sbGet (laneGet s l) (dSb d) == 255
  | none => false

/-- Issue the descriptor at a channel's cursor (R85, R110 to R112): the cursor goes on by 64 B and the scoreboard slot counts one more. -/
def cdmaIssue (l ch : Nat) (s : State) : State :=
  match laneCtx s l, cdmaNext s l ch with
  | some c, some (d, empty) =>
    let ctx := ctxGet s c
    let cur := mgetD (laneGet s l).cursors ch (0, 0)
    let s := partTouch s ((ctx.part.map Fin.val).getD 0x3F) cur.1 64
    let x := laneGet s l
    let s := laneSet s l { x with
      cursors := mset x.cursors ch (cur.1 + 64, cur.2 - 1)
      sb := if dSb d = 0 then x.sb else mset x.sb (dSb d) (sbGet x (dSb d) + 1) }
    jobIssue s (2 * l + ch)
      { desc := d, part := ctx.part, origin := .lane ⟨l % 32, Nat.mod_lt _ (by decide)⟩ ⟨c % 16, Nat.mod_lt _ (by decide)⟩
        run := ctx.runs, empty := empty }
  | _, _ => s

/-- CLUSTER_DMA_ISSUE (R85, R110 to R112): the descriptor at the channel's cursor, held while its scoreboard slot counts 255 (R111). -/
def execClusterDmaIssue (l : Clus) (ch : Fin 2) (s : State) : Res :=
  if cdmaFull s l.val ch.val then .next s else .next (cdmaIssue l.val ch.val s)

/-! ### Checks (R146, R150, R162) -/

/-- A field other than VER and PART that is reserved, illegal or misaligned (R160, R162 check 3). DESIGN CHOICE (log entry 108): CMP names an illegal combination on anything but a COPY, since only a COPY has a raw and a compressed side (R169), and so does DST_SPACE host on a GCM descriptor, whose DST R157 encrypts (R168). -/
def fieldsBad (k : Nat) (d : W512) : Bool :=
  let hub := k == 68
  let op := dOp d
  let page := op == 2 || op == 3
  let host := dSrcSp d == 1 || dDstSp d == 1
  decide (op > 3) || (page && hub) || (host && !hub) || decide (dSrcSp d > 1) || decide (dDstSp d > 1)
  || dCmp d == 3 || (dCmp d != 0 && (hub || op != 0 || dRows d % 8 != 0))
  || (dGcm d && (!hub || op != 0 || dSrcSp d != 1 || dDstSp d != 0 || dRows d != 1 || decide (dRowB d > 65536)))
  || dRowB d == 0 || dRowB d % 64 != 0 || dRows d == 0
  || dSrcStr d % 64 != 0 || dDstStr d % 64 != 0
  || (op != 1 && dSrcSp d == 0 && (dSrc d % 64 != 0 || decide (dSrc d ≥ 2 ^ 48)))
  || (dDstSp d == 0 && (dDst d % 64 != 0 || decide (dDst d ≥ 2 ^ 48)))
  || (hub && dPsel d != 15) || (dPsel d != 15 && (decide (dPsel d > 7) || dPtgt d == 3))
  || (dSyncEn d && fld d 185 170 == 0) || decide (dFunc d > 16)
  || (page && decide (dRowB d > 16384 * 2 ^ dPgSize d))

/-- Bytes of a row on each side, for compression (R169): raw rows, or one stretch per block row. -/
def sideRows (d : W512) (dst : Bool) : Nat × Nat :=
  let comp := dCmp d != 0 && (dCmpDir d != dst)
  if comp then (dRows d / 8, dRowB d * 8 / (if dCmp d = 1 then 2 else 4)) else (dRows d, dRowB d)

/-- Line addresses of one side, row by row. -/
def sideLines (d : W512) (dst : Bool) : List Nat :=
  let (rows, bytes) := sideRows d dst
  let base := if dst then dDst d else dSrc d
  let str := if dst then dDstStr d else dSrcStr d
  (List.range rows).flatMap fun r => (List.range (bytes / 64)).map fun i => base + r * str + 64 * i

/-- Cluster of an engine queue that is a cluster channel. -/
def engClus (k : Nat) : Option Nat := if k < 64 then some (k / 2) else none

/-- Address check of one line (R84, R146). -/
def addrBad (s : State) (k part : Nat) (a : Nat) : Bool :=
  match placeOf s a with
  | .hbm _ _ => false
  | .clus c _ => quadOwner s (clusQuad c) != part
  | .core x _ => quadOwner s (coreQuad x) != part || (match engClus k with | some c => c != x / 8 | none => false)
  | .bad => true

/-- Ownership check of one line at issue (R150). -/
def ownBad (s : State) (part : Nat) (a : Nat) : Bool :=
  match placeOf s a with
  | .hbm _ _ => let g := granGet s (granOf a); !(g.st == .owned && g.owner.toNat == part)
  | _ => false

/-- Write protection of one line at issue (R150). -/
def wpBad (s : State) (pool : Bool) (a : Nat) : Bool :=
  match placeOf s a with
  | .hbm _ _ => let g := granGet s (granOf a); g.wp && !(g.pool && pool)
  | _ => false

/-- Checks 4 to 6 of R162 over given lines; `pool` marks a page of a PAGE_WRITE or a copy of R218. -/
def lineChecks (s : State) (k part : Nat) (rd wr : List Nat) (pool : Bool) : Fin 11 :=
  if rd.any (addrBad s k part) || wr.any (addrBad s k part) then stAddr
  else if rd.any (ownBad s part) || wr.any (ownBad s part) then stOwner
  else if wr.any (wpBad s pool) then stWp
  else stOk

/-- Tag of the issuing unit. -/
def jobTag (j : Job) : Nat := (j.part.map Fin.val).getD 0x3F

/-- Statuses 1 and 5 of R162, else OK. -/
def fieldChecks (k : Nat) (j : Job) : Fin 11 :=
  if fld j.desc 511 508 ≠ 1 then stFormat
  else if dPart j.desc ≠ jobTag j then stTag
  else if fieldsBad k j.desc then stFormat
  else stOk

/-- The checks before the first access of a COPY or FILL (R162); under the tag of a partition that is being removed every new descriptor is refused (R150, R414). -/
def issueStatus (s : State) (k : Nat) (j : Job) : Fin 11 :=
  let f := fieldChecks k j
  let st := (j.part.bind fun p => mget s.gate.parts p.val).map Partn.st
  if f ≠ stOk then f
  else
    let l := lineChecks s k (jobTag j) (if dOp j.desc = 0 ∧ dSrcSp j.desc = 0 then sideLines j.desc false else [])
      (if dDstSp j.desc = 0 then sideLines j.desc true else []) (j.origin == .tray && k ≥ 64 && k < 68)
    if l ≠ stAddr ∧ (st = some .revoking ∨ st = some .scrubbing) then stOwner else l

/-! ### Moving lines (R139, R140, R150) -/

/-- What one line read gives. -/
structure LineGot where
  bytes : List Byte
  changed : Bool := false
  ue : Bool := false
  deriving DecidableEq, Repr

/-- Read one line for a tag: HBM under the line check and the ECC event met there, on-chip storage under R91. An unpowered quadrant's storage gives zeros (R16; log entry 107). -/
def lineLoadAt (s : State) (part : Nat) (ecc : List EccEvent) (a : Nat) : LineGot × State :=
  match placeOf s a with
  | .hbm d off =>
    if !lineOk s part a then ({ bytes := List.replicate 64 0, changed := true }, s)
    else
      let stk := 2 * d + off / 4096 % 2
      match (ecc.find? fun e => e.line == a / 64).map EccEvent.err with
      | some .uncorrectable =>
        ({ bytes := List.replicate 64 0, ue := true }, bump32 s 0x2011 (stk + 1))
      | some _ =>
        ({ bytes := seenBytes s a 64 },
         corrected (bump64 s 0x2010 (stk + 1)) (2 ^ 62 + stk) { cls := 0, block := 4, addr := a, action := 1 })
      | none => ({ bytes := seenBytes s a 64 }, s)
  | .clus c off =>
    if quadOn s (clusQuad c) then let (b, s) := sramRead s (clusQuad c) part (clusAddr c off) 64; ({ bytes := b }, s)
    else ({ bytes := List.replicate 64 0 }, s)
  | .core k off =>
    if quadOn s (coreQuad k) then let (b, s) := sramRead s (coreQuad k) part (coreAddr k off) 64; ({ bytes := b }, s)
    else ({ bytes := List.replicate 64 0 }, s)
  | .bad => ({ bytes := List.replicate 64 0 }, s)

/-- Write one line for a tag; true where the line check fails (R150). An arrival in a quadrant of another owner, or in an unpowered one, is discarded (R16, R93). -/
def lineStoreAt (s : State) (part : Nat) (a : Nat) (bs : List Byte) : State × Bool :=
  match placeOf s a with
  | .hbm _ _ => if lineOk s part a then (hbmPut s a bs, false) else (s, true)
  | .clus c off => (if quadOn s (clusQuad c) && quadOwner s (clusQuad c) == part then sramPut s part (clusAddr c off) bs else s, false)
  | .core k off => (if quadOn s (coreQuad k) && quadOwner s (coreQuad k) == part then sramPut s part (coreAddr k off) bs else s, false)
  | .bad => (s, false)

/-- What a transfer met: owner-changed lines, addresses of unreadable lines, the source bytes that moved. -/
structure Moved where
  changed : Nat := 0
  ues : List Nat := []
  bytes : List Byte := []
  deriving DecidableEq, Repr

/-- Read lines in order. -/
def loadLines (s : State) (part : Nat) (ecc : List EccEvent) (as : List Nat) : List LineGot × State :=
  as.foldl (fun (acc : List LineGot × State) a =>
    let (g, s) := lineLoadAt acc.2 part ecc a
    (acc.1 ++ [g], s)) ([], s)

/-- Write lines in order; lines without bytes are left out. Beside the state, the addresses whose bytes were discarded (R162). -/
def storeLines (s : State) (part : Nat) (l : List (Nat × Option (List Byte))) : State × List Nat :=
  l.foldl (fun (acc : State × List Nat) p =>
    match p.2 with
    | none => acc
    | some bs =>
      let (s, bad) := lineStoreAt acc.1 part p.1 bs
      (s, if bad then acc.2 ++ [p.1] else acc.2)) (s, [])

/-! ### Compression (R169 to R172) -/

/-- SHIFT of a span (R170). -/
def cmpShift (d : Nat) : Nat :=
  ((List.range 6).find? fun s => decide (d >>> s ≤ 7)).getD 5

/-- MIN and SHIFT of a set of values (R170). -/
def cmpHead (xs : List Int) : Int × Nat :=
  let lo := xs.foldl min (xs.headD 0)
  let hi := xs.foldl max (xs.headD 0)
  (lo, cmpShift (hi - lo).toNat)

/-- Code one value (R170). -/
def cmpCode (h : Int × Nat) (x : Int) : Nat := (x - h.1).toNat >>> h.2

/-- Decode one value (R170). -/
def cmpDecode (mn : Int) (sh q : Nat) : Int :=
  let s := min sh 5
  min 127 (mn + (q * 2 ^ s : Nat) + (if s = 0 then 0 else 2 ^ (s - 1) : Nat))

/-- Code a block of 64 values at 2:1 into 32 bytes (R171). DESIGN CHOICE (log entry 109): bits 7:0 of a block lie in its first byte. -/
def cmp2 (x : List Int) : List Byte :=
  let at_ (r c : Nat) : Int := x.getD (8 * r + c) 0
  let sub (k : Nat) : Int × Nat :=
    cmpHead ((List.range 16).map fun i => at_ (4 * (k / 2) + i / 4) (4 * (k % 2) + i % 4))
  let hs := (List.range 4).map sub
  let heads := (List.range 4).foldl (fun a k =>
    let h := hs.getD k (0, 0)
    a + (ux 8 h.1 * 8 + h.2) * 2 ^ (245 - 11 * k)) 0
  let els := (List.range 64).foldl (fun a i =>
    let r := i / 8; let c := i % 8
    let h := hs.getD (2 * (if r ≥ 4 then 1 else 0) + (if c ≥ 4 then 1 else 0)) (0, 0)
    a + cmpCode h (at_ r c) % 8 * 2 ^ (3 * i)) 0
  leBytes 32 (heads + els)

/-- Decode a 2:1 block into 64 values (R171). -/
def dec2 (b : List Byte) : List Int :=
  let n := leNat b
  (List.range 64).map fun i =>
    let r := i / 8; let c := i % 8
    let k := 2 * (if r ≥ 4 then 1 else 0) + (if c ≥ 4 then 1 else 0)
    let h := nfld n (255 - 11 * k) (245 - 11 * k)
    cmpDecode (sx 8 (h / 8)) (h % 8) (nfld n (3 * i + 2) (3 * i))

/-- Pair value k of row r (R171). -/
def pairVal (x : List Int) (j : Nat) : Int :=
  let r := j / 4; let k := j % 4
  (x.getD (8 * r + 2 * k) 0 + x.getD (8 * r + 2 * k + 1) 0) / 2

/-- Code a block at 4:1 into 16 bytes (R171), bits 7:0 first (log entry 109). -/
def cmp4 (x : List Int) : List Byte :=
  let ps := (List.range 32).map (pairVal x)
  let h := cmpHead ps
  let els := (List.range 32).foldl (fun a j => a + cmpCode h (ps.getD j 0) % 8 * 2 ^ (3 * j)) 0
  leBytes 16 ((ux 8 h.1 * 8 + h.2) * 2 ^ 117 + els)

/-- Decode a 4:1 block (R171). -/
def dec4 (b : List Byte) : List Int :=
  let n := leNat b
  (List.range 64).map fun i =>
    let j := 4 * (i / 8) + i % 8 / 2
    cmpDecode (sx 8 (nfld n 127 120)) (nfld n 119 117) (nfld n (3 * j + 2) (3 * j))

/-- Compress rows of raw bytes, `rb` bytes a row (R169): the block rows in order. -/
def compress (two : Bool) (rb rows : Nat) (bs : List Byte) : List Byte :=
  (List.range (rows / 8)).flatMap fun br =>
    (List.range (rb / 8)).flatMap fun bc =>
      let x := (List.range 64).map fun i => (bs.getD ((8 * br + i / 8) * rb + 8 * bc + i % 8) 0).toInt
      if two then cmp2 x else cmp4 x

/-- The raw rows of compressed bytes (R169). -/
def decompress (two : Bool) (rb rows : Nat) (bs : List Byte) : List Byte :=
  let n := if two then 32 else 16
  let blocks := (List.range (rows / 8 * (rb / 8))).map fun i =>
    let b := (bs.drop (n * i)).take n
    if two then dec2 b else dec4 b
  (List.range rows).flatMap fun r => (List.range rb).map fun c =>
    BitVec.ofInt 8 ((blocks.getD (r / 8 * (rb / 8) + c / 8) []).getD (8 * (r % 8) + c % 8) 0)

/-- Cut bytes into lines of 64. -/
def cutLines (bs : List Byte) : List (List Byte) :=
  (List.range (bs.length / 64)).map fun i => (bs.drop (64 * i)).take 64

/-! ### COPY and FILL (R160, R162) -/

/-- Status of a transfer that ran to its end (R162). -/
def moveStatus (changed : Nat) (ues : List Nat) : Fin 11 :=
  if changed > 0 then stChanged else if ues ≠ [] then stUe else stOk

/-- Move tray lines to tray lines, with the codec between where one is named. -/
def moveLines (s : State) (part : Nat) (d : W512) (ecc : List EccEvent) (src dst : List Nat) : State × Moved :=
  let (got, s) := loadLines s part ecc src
  let raw := got.flatMap (·.bytes)
  let bad := (src.zip got).filterMap fun p => if p.2.ue then some p.1 else none
  let ch := (got.filter (·.changed)).length
  let outs : List (Option (List Byte)) :=
    if dCmp d = 0 then got.map fun g => if g.ue then none else some g.bytes
    else if dCmpDir d then (cutLines (decompress (dCmp d == 1) (dRowB d) (dRows d) raw)).map some
    else (cutLines (compress (dCmp d == 1) (dRowB d) (dRows d) raw)).map some
  let (s, lost) := storeLines s part (dst.zip outs)
  let moved := if dCmp d = 0 then ((dst.zip got).filter fun p => !lost.contains p.1).map Prod.snd else got
  (s, { changed := ch + lost.length, ues := bad, bytes := (moved.filter fun g => !g.ue && !g.changed).flatMap (·.bytes) })

/-- Bytes of a FILL row (R160). -/
def fillBytes (d : W512) (n : Nat) : List Byte :=
  (List.range n).map fun i => BitVec.ofNat 8 (dFill d >>> (8 * (i % 4)))

/-- The transfer of a FILL. -/
def moveFill (s : State) (part : Nat) (d : W512) : State × Moved :=
  let l := fillBytes d 64
  let as := sideLines d true
  let (s, lost) := storeLines s part (as.map fun a => (a, some l))
  (s, { changed := lost.length, bytes := (as.filter fun a => !lost.contains a).flatMap fun _ => l })

/-! ### Pages (R165, R166) -/

/-- A page-list entry (R213): fields PRESENT, COW and the frame number are read where the walker needs them. -/
def pageAddr (e : BitVec 32) : Nat := fld e 27 0 * 16384

/-- PRESENT (R213). -/
def pgPresent (e : BitVec 32) : Bool := bit e 31
/-- COW (R213). -/
def pgCow (e : BitVec 32) : Bool := bit e 30

/-- Address checks of a page entry (R162, R165): PRESENT, alignment, the page inside one granule. -/
def pageBad (d : W512) (e : BitVec 32) : Bool :=
  let f := fld e 27 0
  !pgPresent e || f % 2 ^ dPgSize d != 0 || f * 16384 / 2 ^ 21 != (f * 16384 + dRowB d - 1) / 2 ^ 21

/-- Lines of one row or page. -/
def rowLines (a n : Nat) : List Nat := (List.range (n / 64)).map fun i => a + 64 * i

/-- Read a page-list entry (R165) from its line as the walker fetched it: the entry, and what the line met. Only the first entry of a line fetches it, so an error of the line counts once. -/
def listEntry (s : State) (part : Nat) (ecc : List EccEvent) (first : Bool) (a : Nat) : BitVec 32 × LineGot × State :=
  let l := a / 64 * 64
  let (g, t) := lineLoadAt s part ecc l
  (BitVec.ofNat 32 (leNat ((g.bytes.drop (a % 64)).take 4)), g, if first then t else s)

/-- Move pages one after another until a page fails its checks (R162): the transfer met so far and the status. The list's own line is checked and read before its pages (R150, R165); a list line that cannot be read leaves its pages out. -/
def pagesGo (k part : Nat) (d : W512) (ecc : List EccEvent) (rd : Bool) :
    Nat → Nat → State → Moved → State × Moved × Fin 11 × Nat
  | 0, i, s, m => (s, m, moveStatus m.changed m.ues, i)
  | n + 1, i, s, m =>
    let list := (if rd then dSrc d else dDst d) + 4 * (dPgFirst d + i)
    let own := lineChecks s k part [list / 64 * 64] [] false
    if own ≠ stOk then (s, m, own, i)
    else
      let first := i == 0 || list % 64 == 0
      let (e, g, s) := listEntry s part ecc first list
      let m := if first then
          { m with changed := m.changed + (if g.changed then 1 else 0), ues := m.ues ++ (if g.ue then [list / 64 * 64] else []) }
        else m
      if g.ue then pagesGo k part d ecc rd n (i + 1) s m
      else
        let pg := rowLines (pageAddr e) (dRowB d)
        let other := rowLines (if rd then dDst d + i * dDstStr d else dSrc d + i * dSrcStr d) (dRowB d)
        let src := if rd then pg else other
        let dst := if rd then other else pg
        let st :=
          if pageBad d e then stAddr
          else
            let c := lineChecks s k part src dst (!rd)
            if c = stOk ∧ !rd ∧ pgCow e then stWp else c
        if st ≠ stOk then (s, m, st, i)
        else
          let (s, m') := moveLines s part d ecc src dst
          let s := bumpBy s 0x2403 (part + 1) 64 1
          pagesGo k part d ecc rd n (i + 1) s
            { changed := m.changed + m'.changed, ues := m.ues ++ m'.ues, bytes := m.bytes ++ m'.bytes }

/-! ### Folding into a CVU (R428 to R430) -/

/-- Fold a descriptor's moved bytes into its context. -/
def foldJob (s : State) (k : Nat) (j : Job) (bs : List Byte) : State :=
  if !dCvu j.desc then s
  else
    match j.origin with
    | .lane l _ =>
      let x := laneGet s l.val
      let ch := k % 2
      match mget x.cvu ch with
      | some q =>
        if q.en then
          laneSet s l.val { x with cvu := mset x.cvu ch { q with run := cvUnit q.setting q.run (dSrc j.desc) bs } }
        else s
      | none => s
    | .host f _ _ =>
      let h := hubGet s (f.val + 1)
      hubSet s (f.val + 1) { h with run := cvUnit h.setting h.run (dSrc j.desc) bs }
    | .tray => s

/-- Release the page reads that a job registered (R166). -/
def releaseReads (s : State) (j : Job) : State :=
  if j.reads.2 = 0 then s else inflightAdd s j.reads.1 (-(j.reads.2 : Int))

/-- The first job of an engine that has no status yet, with its place. -/
def nextJob (s : State) (k : Nat) : Option (Nat × Job) :=
  ((jobsOf s k).zipIdx.find? fun p => p.1.status.isNone).map fun p => (p.2, p.1)

/-- Give a job its status. -/
def jobDone (s : State) (k i : Nat) (j : Job) (st : Fin 11) : State :=
  let s := releaseReads s j
  jobsSet s k ((jobsOf s k).set i { j with status := some st, reads := (0, 0), hostData := none })

/-- A job ends without a transfer: its unit is folded for no bytes, but with FORMAT not at all (R425, R430). -/
def jobFail (s : State) (k i : Nat) (j : Job) (st : Fin 11) : State :=
  jobDone (if st = stFormat then s else foldJob s k j []) k i j st

/-- The Carousel learns how a page copy of R218 ended. -/
def copyReport (s : State) (p : Nat) (j : Job) (st : Fin 11) : State :=
  let mark (c : CowCopy) : CowCopy :=
    if c.newFrame * 16384 = dDst j.desc ∧ c.status.isNone then { c with status := some st } else c
  { s with car := { s.car with rounds := s.car.rounds.map fun r =>
      if r.1 = p then (r.1, { r.2 with copies := r.2.copies.map mark }) else r } }

/-- An engine loses its power with what it holds (R16): its page reads are released, and a page copy has failed with ABORT. -/
def queueLost (s : State) (k : Nat) : State :=
  let s := each (jobsOf s k) (fun s j =>
    let s := releaseReads s j
    match j.origin, j.part with
    | .tray, some p => copyReport s p.val j stAbort
    | _, _ => s) s
  { s with dma := { s.dma with queues := mdel s.dma.queues k } }

end Sys2Proof.Machine
end

