-- ==== Sys2Proof/Machine/Beat.lean ====
section
/-! DEFINITION. A beat of a lane: the operations of the lane control word and of the eight core words, and the beats that a slice runs (R100, R104 to R106, R111, R113 to R119, R136). -/

namespace Sys2Proof.Machine

open Sys2Proof

/-! ### The core word (R113 to R119) -/

/-- The address-generator operation of one AGU (R118). -/
def aguField (k : CoreId) (agu : Fin 2) (op slot : Nat) (s : State) : State :=
  let sl : Fin 16 := ⟨slot % 16, Nat.mod_lt _ (by decide)⟩
  match op with
  | 1 => resState s (execAguStart k agu sl s)
  | 2 => resState s (execAguAdvance k agu sl s)
  | 3 => resState s (execAguStop k agu sl s)
  | _ => s

/-- The fields of an engine operation (R114), from bits 59:40 of the core word. -/
def engineArgs (w : Nat) : EArgs :=
  { en := BitVec.ofNat 4 (nfld w 59 56), setup := ⟨nfld w 52 50 % 8, Nat.mod_lt _ (by decide)⟩, firstSet := w.testBit 49
    aSlot := ⟨nfld w 48 45 % 16, Nat.mod_lt _ (by decide)⟩, bSlot := ⟨nfld w 44 41 % 16, Nat.mod_lt _ (by decide)⟩ }

/-- The engine operation of a core word (R114, R115); a reserved EOP acts as NOP until the stop (R127). -/
def engineField (k : CoreId) (w : Nat) (s : State) : State :=
  match nfld w 55 53 with
  | 1 => resState s (execTile k (engineArgs w) s)
  | 2 => resState s (execReadout k (engineArgs w) s)
  | 3 => resState s (execTileRead k (engineArgs w) s)
  | _ => s

/-- The fields of a vector table entry beside its opcode (R117). -/
def entryArgs (e : BitVec 64) : VArgs :=
  { vd := ⟨fld e 55 51 % 32, Nat.mod_lt _ (by decide)⟩, va := ⟨fld e 50 46 % 32, Nat.mod_lt _ (by decide)⟩
    vb := ⟨fld e 45 41 % 32, Nat.mod_lt _ (by decide)⟩, vc := ⟨fld e 40 36 % 32, Nat.mod_lt _ (by decide)⟩
    pred := ⟨fld e 35 33 % 8, Nat.mod_lt _ (by decide)⟩, pneg := bit e 32, imm := BitVec.ofNat 32 (fld e 31 0) }

/-- The operation of an opcode (R117); none where it is reserved. -/
def vectorOp (opc : Nat) : Option (CoreId → VArgs → State → Res) :=
  match opc with
  | 0x00 => some execFadd | 0x01 => some execFsub | 0x02 => some execFmul | 0x03 => some execFma
  | 0x04 => some execFmin | 0x05 => some execFmax | 0x06 => some execFcmplt | 0x07 => some execFcmpeq
  | 0x10 => some execIadd | 0x11 => some execIsub | 0x12 => some execImul | 0x13 => some execIadds
  | 0x14 => some execIsubs | 0x15 => some execAnd | 0x16 => some execOr | 0x17 => some execXor
  | 0x18 => some execShl | 0x19 => some execShr | 0x1A => some execSar
  | 0x20 => some execCvt
  | 0x30 => some execExp2 | 0x31 => some execLog2 | 0x32 => some execRsqrt | 0x33 => some execRecip
  | 0x40 => some execRsum | 0x41 => some execRmax | 0x42 => some execRmin | 0x43 => some execRmerge
  | 0x50 => some execVecLoad | 0x51 => some execVecStore
  | 0x60 => some execShadow | 0x61 => some execFlags | 0x62 => some execSetup | 0x63 => some execParam | 0x64 => some execVecPost
  | _ => none

/-- One vector table entry as an operation of a core (R117); a reserved opcode acts as NOP until the stop (R127). -/
def entryRun (k : CoreId) (s : State) (e : BitVec 64) : State :=
  match vectorOp (fld e 63 56) with
  | some f => resState s (f k (entryArgs e) s)
  | none => s

/-- The local DMA field of a core word (R119). -/
def ldmaField (k : CoreId) (w : Nat) (s : State) : State :=
  let sl : Fin 16 := ⟨nfld w 9 6 % 16, Nat.mod_lt _ (by decide)⟩
  let n : Fin 8 := ⟨nfld w 5 3 % 8, Nat.mod_lt _ (by decide)⟩
  match nfld w 11 10 with
  | 1 => resState s (execLocalToCluster k sl n s)
  | 2 => resState s (execClusterToLocal k sl n s)
  | _ => s

/-- The numeric flags that a core holds, replaced. -/
def flagsPut (s : State) (k : CoreId) (f : BitVec 4) : State :=
  if (coreGet s k.val).flags = f then s else coreSet s k.val { coreGet s k.val with flags := f }

/-- The engine and the vector operations of a core word, in this order. Where an entry is FLAGS, what the engine flags in the beat joins the flag word after its clear (R76). -/
def engineBeat (k : CoreId) (w : Nat) (s : State) : State :=
  let es := wordEntries (coreGet s k.val) w
  if nfld w 55 53 = 0 ∨ es.all (fun e => fld e 63 56 != 0x61) then es.foldl (entryRun k) (engineField k w s)
  else
    let old := (coreGet s k.val).flags
    let s := engineField k w (flagsPut s k 0)
    let new := (coreGet s k.val).flags
    let s := es.foldl (entryRun k) (flagsPut s k old)
    flagsPut s k ((coreGet s k.val).flags ||| new)

/-- A core word in one beat (R113): the address generators, the engine, the vector operations, the local DMA, in this order. -/
def coreBeat (k : CoreId) (w : Nat) (s : State) : State :=
  let s := aguField k 0 (nfld w 23 22) (nfld w 21 18) s
  let s := aguField k 1 (nfld w 17 16) (nfld w 15 12) s
  ldmaField k w (engineBeat k w s)

/-! ### The beats of a slice (R104, R105, R111) -/

/-- Channels that CDMA_ISSUE names, channel 0 first (R106). -/
def cdmaChans (sl : Slice) : List Nat := bitsOf 2 (slCdma sl)

/-- An issue of the beat would meet a slot that counts 255 (R111), the first channel's issue counted before the second's. -/
def beatHeld (s : State) (l : Nat) (sl : Slice) : Bool :=
  match cdmaChans sl with
  | [] => false
  | [a] => cdmaFull s l a
  | a :: b :: _ => cdmaFull s l a || cdmaFull (cdmaIssue l a s) l b

/-- Quadrant cycles that deferrals and readout stalls take in a beat (R67, R80): the model times no access, so their number is free. -/
def stallCount (s : State) (l : Nat) : State := freeStep (bumpBy s 0x4010 (clusQuad l + 1) 64 (freeVal s))

/-- One beat of a slice (R104, R106, R113): the cluster DMA issues, then each core's word. A slice that idles does nothing. -/
def laneBeat (l : Clus) (sl : Slice) (s : State) : State :=
  if sl.idle then s
  else
    let s := each (cdmaChans sl) (fun s ch => cdmaIssue l.val ch s) s
    let s := each (List.finRange 8) (fun s i => coreBeat ⟨8 * l.val + i.val, by omega⟩ (slWord sl i.val) s) s
    stallCount s l.val

/-- A running slice at a beat boundary after its last beat: a STEP_END waits for the scoreboard, a due post must have been made (R104, R126). -/
def laneFinish (x : Lane) : Lane :=
  match x.cur with
  | none => x
  | some sl =>
    if x.beatsLeft > 1 then x
    else if x.postDue then x
    else if sl.stepEnd && !sbClear x then x
    else { x with cur := none, beatsLeft := 0, ended := sl.stepEnd }

/-- The next repetition of a running slice (R104): held at the beat's start by a full scoreboard slot (R111). -/
def laneRepeat (l : Clus) (sl : Slice) (s : State) : State :=
  if beatHeld s l.val sl then s
  else
    let x := laneGet s l.val
    laneBeat l sl (laneSet s l.val { x with beatsLeft := x.beatsLeft - 1 })

/-- Begin a slice with its first beat, or take one beat of its gap (R105, R136); held by a full scoreboard slot (R111). A reserved encoding acts as NOP in the beat and ends the step at the next boundary (R127). -/
def laneStart (l : Clus) (sl : Slice) (s : State) : State :=
  let x := laneGet s l.val
  let (lim, gap) := laneLimit s l.val
  let left := x.gapLeft.getD (if sl.pwr.toNat > lim then gap else 0)
  if left > 0 then laneSet s l.val { x with gapLeft := some (left - 1) }
  else if beatHeld s l.val sl then s
  else
    let s := laneSet s l.val
      { x with queue := x.queue.tail, cur := some sl, beatsLeft := sl.rep + 1, gapLeft := none, waitDone := false,
               sbDone := false, postDue := decide (slSync sl ≥ 2) }
    let s := match laneCtx s l.val with | some c => slipNote s c | none => s
    let bad := sliceBad s l.val sl
    let s := laneBeat l sl s
    if bad then laneFault s l.val fcImage else s

/-- A lane that runs nothing begins its next slice once its fence and its waits allow (R102, R105), or finds its queue empty (OD 0x4025). -/
def laneNext (l : Clus) (c : Nat) (s : State) : State :=
  let x := laneGet s l.val
  if x.cur.isSome || x.ended then s
  else
    match x.queue.head? with
    | none => if (ctxGet s c).fetching then bump64 s 0x4025 (c + 1) else s
    | some sl => if (sl.fence && !fenceOpen s c l.val) || !waitsDone x sl then s else laneStart l sl s

/-- LANE_BEGIN_BUNDLE: a beat boundary of a lane (R104, R105). -/
def execLaneBeginBundle (l : Clus) (s : State) : Res :=
  match laneCtx s l.val with
  | none => .next s
  | some c =>
    if !quadOn s (clusQuad l.val) || (laneGet s l.val).ended then .next s
    else
      match (laneGet s l.val).cur with
      | some sl =>
        if (laneGet s l.val).beatsLeft > 1 then .next (laneRepeat l sl s)
        else .next (laneNext l c (laneSet s l.val (laneFinish (laneGet s l.val))))
      | none => .next (laneNext l c s)

end Sys2Proof.Machine
end

