-- ==== Sys2Proof/Machine/PcieOut.lean ====
section
/-! DEFINITION. What the tray writes to its host: MSI-X messages, completion entries and the backlog (R252 to R254, R491, R492). -/

namespace Sys2Proof.Machine

open Sys2Proof

/-- The virtual function that serves a partition (R399, R482). -/
def vfOf (p : Nat) : Vf := ⟨p % 16, Nat.mod_lt _ (by decide)⟩

/-- The FUNC_STATUS change vector of a partition's function (R491). -/
def statusVec (s : State) (p : Nat) : State := msixSend s (p + 1) 11

/-! ### Completion entries (R252, R253) -/

/-- What a completion says. -/
structure Compl where
  kind : Nat
  status : Nat := 0
  reqId : Nat := 0
  tag : BitVec 64 := 0
  value : Nat := 0
  pos : Nat := 0
  nflags : BitVec 4 := 0
  miss : Bool := false
  deriving DecidableEq, Repr

/-- The 32 B entry, without its phase. -/
def complBits (s : State) (c : Compl) : BitVec 256 :=
  BitVec.ofNat 256 (c.kind % 16 * 2 ^ 251 + c.status % 256 * 2 ^ 243 + c.reqId % 2 ^ 32 * 2 ^ 211 + c.tag.toNat * 2 ^ 147
    + c.value % 2 ^ 32 * 2 ^ 115 + c.pos % 2 ^ 20 * 2 ^ 95 + s.clk.timebase.toNat % 2 ^ 48 * 2 ^ 47 + c.nflags.toNat * 2 ^ 43
    + (if c.miss then 2 ^ 42 else 0))

/-- A completion ring, ring 8 the video completion ring; vector c by default (R491). -/
def cqGet (x : FuncS) (c : Nat) : Cq := mgetD x.cq c { vector := c }

/-- Entries of a ring. -/
def cqSize (q : Cq) : Nat := if q.log2 = 0 then 0 else 2 ^ q.log2

/-- Key of a ring's backlog. -/
def ringKey (f c : Nat) : Nat := 9 * f + c

/-- Entries held for a ring (R254). -/
def backlogOf (s : State) (f c : Nat) : List (BitVec 256) := mgetD s.car.backlog (ringKey f c) []

/-- Replace the entries held for a ring. -/
def backlogSet (s : State) (f c : Nat) (l : List (BitVec 256)) : State :=
  { s with car := { s.car with
    backlog := if l = [] then mdel s.car.backlog (ringKey f c) else mset s.car.backlog (ringKey f c) l } }

/-- A FINAL entry has been written: its request table entry returns to FREE and GEN advances (R240, R247). -/
def freeFinal (s : State) (e : BitVec 256) : State :=
  let h := fld e 242 223
  let g := fld e 222 211
  match mget s.car.reqs h with
  | none => s
  | some r =>
    let ended := r.st == .done || r.st == .cancelled || r.st == .failed
    if fld e 254 251 = 3 ∧ ended ∧ r.gen = g then
      { s with
        car := { s.car with reqs := mset s.car.reqs h { gen := (g + 1) % 4096 } }
        pair := { s.pair with dirty := if s.pair.dirty.contains h then s.pair.dirty else h :: s.pair.dirty } }
    else s

/-- Write an entry into a ring that has room, with its phase: 1 on the first pass (R252); then the vector by count (R492). -/
def complWrite (s : State) (f c : Nat) (e : BitVec 256) : State :=
  let x := fnGet s f
  let q := cqGet x c
  let e := put e 255 255 (1 - q.tail / cqSize q % 2)
  let n := q.unsent + 1
  let sent := decide (n ≥ q.modCount)
  let q' := { q with tail := q.tail + 1, unsent := if sent then 0 else n, firstAt := if q.unsent = 0 then s.clk.now else q.firstAt }
  let s := fnSet s f { x with cq := mset x.cq c q' }
  let s := emit s (.completion (vfOf (f - 1)) c (q.tail % cqSize q) e)
  let s := if c = 8 then s else freeFinal s e
  if sent then msixSend s f q.vector else s

/-- A ring is full. -/
def cqFull (q : Cq) : Bool := decide (q.head + cqSize q ≤ q.tail)

/-- Issue an entry to a ring: written, or held in the backlog while the ring is full (R254); a disabled ring takes none, and a FINAL for it frees its request all the same. A tray whose drain is complete writes none (R529). -/
def complPush (s : State) (f c : Nat) (e : BitVec 256) : State :=
  let q := cqGet (fnGet s f) c
  if s.tray.drain = .completed then s
  else if q.log2 = 0 then (if c = 8 then s else freeFinal s e)
  else if cqFull q || backlogOf s f c != [] then backlogSet s f c (backlogOf s f c ++ [e])
  else complWrite s f c e

/-- Issue held entries while the ring has room. -/
def backlogDrain (s : State) (f c : Nat) : Nat → State
  | 0 => s
  | n + 1 =>
    match backlogOf s f c with
    | [] => s
    | e :: t =>
      if cqFull (cqGet (fnGet s f) c) then s
      else backlogDrain (complWrite (backlogSet s f c t) f c e) f c n

/-- Entries in the tray's backlog. -/
def backlogTotal (s : State) : Nat := lsum (s.car.backlog.map fun p => p.2.length)

/-- A ring whose requests are left out of rounds (R254). -/
def ringHeld (s : State) (f c : Nat) : Bool :=
  let n := (backlogOf s f c).length
  decide (n ≥ 4096) || (decide (n > 0) && decide (backlogTotal s ≥ 65536))

/-- Issue a completion to a ring of a partition's function. -/
def complTo (s : State) (p ring : Nat) (c : Compl) : State := complPush s (p + 1) ring (complBits s c)

/-- Issue an EVENT to ring 0 of a partition's function. -/
def eventTo (s : State) (p status value : Nat) : State := complTo s p 0 { kind := 7, status := status, value := value }

end Sys2Proof.Machine
end

