-- ==== Sys2Proof/Machine/Kv.lean ====
section
/-! DEFINITION. The KV pool, frames, references, epochs and the prefix index (R207 to R237). -/

namespace Sys2Proof.Machine

open Sys2Proof

/-! ### Key slots and granules of a partition (R402, R403) -/

/-- The lowest slot of a kind that a tag owns. -/
def slotOf (s : State) (k : SlotKind) (tag : Nat) : Option Nat :=
  (s.gate.slots.find? fun p => p.2.kind == k && p.2.owner.toNat == tag).map Prod.fst

/-- The key slot with a number. -/
def keySlot (s : State) (n : Nat) : KeySlot := mgetD s.gate.slots n {}

/-- Replace a key slot. -/
def keySlotSet (s : State) (n : Nat) (k : KeySlot) : State := { s with gate := { s.gate with slots := mset s.gate.slots n k } }

/-- The entry of a granule that becomes OWNED by a partition: its XTS slot and CUR (R403). -/
def granOwned (s : State) (p : Nat) : Granule :=
  let n := (slotOf s .xts p).getD 0
  let k := keySlot s n
  { st := .owned, owner := BitVec.ofNat 6 p, slot := BitVec.ofNat 6 n, gen := BitVec.ofNat 4 k.cur, zeroKey := k.curKey.getD 0 }

/-- A granule leaves its owner for the scrub engine (R414 step 4). -/
def granScrub (s : State) (g : Nat) : State :=
  let e := granGet s g
  granSet s g { st := .scrubbing, owner := e.owner, zeroKey := e.zeroKey }

/-- Granules of a die window outside tray-reserved memory. -/
def dieGranules (s : State) (d : Nat) : List Nat :=
  (List.range (populated s / 2 ^ 21 - 256)).map fun i => 65536 * d + i

/-- FREE granules of a die, ascending. -/
def freeGranules (s : State) (d : Nat) : List Nat :=
  (dieGranules s d).filter fun g => (granGet s g).st == .free && !s.flash.retired.contains g

/-- Granules OWNED or REVOKING by a partition (OD 0x2013). -/
def granulesHeld (s : State) (p : Nat) : Nat :=
  ((granKeys s).filter fun g =>
    let e := granGet s g
    e.owner.toNat == p && (e.st == .owned || e.st == .revoking)).length

/-! ### The pool (R215) -/

/-- The pool of a partition. -/
def poolGet (s : State) (p : Nat) : Pool := mgetD s.kv.pools p {}

/-- Replace a pool. -/
def poolSet (s : State) (p : Nat) (x : Pool) : State := { s with kv := { s.kv with pools := mset s.kv.pools p x } }

/-- Share of a partition on a die (R151). -/
def shareOf (s : State) (p d : Nat) : Nat := odGet s (0x2001 + d) (p + 1)

/-- Granules of a pool of `v` granules that fall to a die: in proportion to the shares, the remainder to the lowest die with one (R215). -/
def poolDiv (s : State) (p v d : Nat) : Nat :=
  let tot := lsum ((List.range 4).map (shareOf s p))
  if tot = 0 then 0
  else
    let part (i : Nat) := v * shareOf s p i / tot
    let first := ((List.range 4).find? fun i => shareOf s p i != 0).getD 0
    part d + if d = first then v - lsum ((List.range 4).map part) else 0

/-- Granules that a pool holds on a die. -/
def poolHeld (x : Pool) (d : Nat) : List Nat := (x.extents.filter fun e => e.die == d).flatMap (·.granules)

/-- A pool of `v` granules is covered on every die (R237). -/
def poolFits (s : State) (p v : Nat) : Bool :=
  (List.range 4).all fun d => decide (poolDiv s p v d ≤ (poolHeld (poolGet s p) d).length + (freeGranules s d).length)

/-- Largest covered pool at or below `v`. -/
def poolLargest (s : State) (p : Nat) : Nat → Nat
  | 0 => 0
  | v + 1 => if poolFits s p (v + 1) then v + 1 else poolLargest s p v

/-- Set WP on every granule of an extent, and POOL on those that hold frames. -/
def extentMark (s : State) (p : Nat) (exp : Option Nat) (e : Extent) : State :=
  let m := match exp with | some n => metaGranules n e.granules.length | none => e.granules.length
  each e.granules.zipIdx (fun s gi =>
    let old := granGet s gi.1
    let base := if old.st = .owned ∧ old.owner.toNat = p then old else granOwned s p
    granSet s gi.1 { base with wp := true, pool := decide (m ≤ gi.2) }) s

/-- Granules that hold frames on a die, in order of the extents (R215). -/
def frameGranules (x : Pool) (n d : Nat) : List Nat :=
  (x.extents.filter fun e => e.die == d).flatMap fun e => e.granules.drop (metaGranules n e.granules.length)

/-- Frame numbers of a die of a pool. -/
def framesOf (x : Pool) (d : Nat) : List Nat :=
  match x.pageExp with
  | none => []
  | some n => (frameGranules x n d).flatMap fun g => (List.range (framesPer n)).map fun i => g * 128 + i * 2 ^ n

/-- FREE frames of a die. -/
def freeFrames (x : Pool) (d : Nat) : List Nat := (framesOf x d).filter fun f => (mgetD x.frames f {}).st == .free

/-- Frames in a state. -/
def framesIn (x : Pool) (st : FState) : List (Nat × Frame) := x.frames.filter fun p => p.2.st == st

/-- No frame is IN_USE or in QUARANTINE (R208, R237). -/
def poolIdle (x : Pool) : Bool := x.frames.all fun p => !(p.2.st == .inUse || p.2.st == .quarantine)

/-- Granules that a new layout of a pool keeps on a die: one retired under owner tag 0x3F (R540) leaves it. -/
def poolKept (s : State) (x : Pool) (p d : Nat) : List Nat :=
  (poolHeld x d).filter fun g => (granGet s g).st == .owned && (granGet s g).owner.toNat == p

/-- Lay a pool out as one extent per die for a number of granules and a page size, giving up what is beyond it (R215). -/
def poolLayout (s : State) (p v : Nat) (exp : Option Nat) : State :=
  let x := poolGet s p
  let (exts, s) := (List.range 4).foldl (fun (acc : List Extent × State) d =>
    let have_ := sortBy (fun a b => decide (a < b)) (poolKept s x p d)
    let want := poolDiv s p v d
    let s := each (have_.drop want) (fun s g => granScrub s g) acc.2
    let more := (freeGranules s d).take (want - have_.length)
    let gs := sortBy (fun a b => decide (a < b)) (have_.take want ++ more)
    let e : Extent := { die := d, granules := gs }
    (if gs = [] then acc.1 else acc.1 ++ [e], extentMark s p exp e)) ([], s)
  let recs := match exp with | some n => lsum (exts.map fun e => extentRecs n e.granules.length) | none => 0
  poolSet s p { extents := exts, pageExp := exp, frames := [], recs := [], recCount := recs, relayout := false }

/-- Add an extent on each die for a raised pool (R215). -/
def poolRaise (s : State) (p v : Nat) : State :=
  (List.range 4).foldl (fun s d =>
    let x := poolGet s p
    let gain := (freeGranules s d).take (poolDiv s p v d - (poolHeld x d).length)
    if gain = [] then s
    else
      let e : Extent := { die := d, granules := gain }
      let s := extentMark s p x.pageExp e
      let n := match x.pageExp with | some n => extentRecs n gain.length | none => 0
      poolSet s p { x with extents := x.extents ++ [e], recCount := x.recCount + n }) s

/-! ### Frames, references and epochs (R216 to R220) -/

/-- Epochs since `e`, in the 32 bits of E (R219). -/
def epochAge (s : State) (e : Nat) : Nat := (s.kv.epoch + 2 ^ 32 - e % 2 ^ 32) % 2 ^ 32

/-- An epoch has drained (R219): its counter and those of all earlier epochs from E − 3 on read zero; one before E − 3 has drained. -/
def drained (s : State) (e : Nat) : Bool :=
  (List.range 4).all fun i => decide (i < epochAge s e) || s.kv.inflight.getD ((s.kv.epoch + 2 ^ 32 - i) % 4) 0 == 0

/-- Epoch E − 3 has drained, so E may advance (R219). -/
def mayAdvance (s : State) : Bool := drained s (s.kv.epoch + 2 ^ 32 - 3)

/-- Advance of E at a step-completion commit, or later when epoch E − 3 has not drained (R219). -/
def epochTick (s : State) : State :=
  if mayAdvance s then { s with kv := { s.kv with epoch := (s.kv.epoch + 1) % 2 ^ 32, advanceDue := false } }
  else { s with kv := { s.kv with advanceDue := true } }

/-- A frame of a pool; an unlisted one is FREE. -/
def frameGet (s : State) (p f : Nat) : Frame := mgetD (poolGet s p).frames f {}

/-- Replace a frame. -/
def frameSet (s : State) (p f : Nat) (x : Frame) : State :=
  let y := poolGet s p
  poolSet s p { y with frames := mset y.frames f x }

/-- Make a frame FREE; its DEC_EPOCH stays (R216). -/
def frameFree (s : State) (p f : Nat) : State := frameSet s p f { decEpoch := (frameGet s p f).decEpoch }

/-- Put a FREE frame to use, with one reference (R217). -/
def frameUse (s : State) (p f : Nat) (classE : Bool) : State :=
  frameSet s p f { frameGet s p f with ref := 1, st := .inUse, classE := classE }

/-- Decrement a frame (R220): at zero it goes to QUARANTINE; a FENCED frame stays FENCED. -/
def decRef (s : State) (p f : Nat) : State :=
  let x := frameGet s p f
  let r := x.ref - 1
  frameSet s p f { x with
    ref := r
    decEpoch := some s.kv.epoch
    st := if x.st = .inUse ∧ r = 0 then .quarantine else x.st }

/-- Increment a frame (R217). -/
def incRef (s : State) (p f : Nat) : State :=
  let x := frameGet s p f
  frameSet s p f { x with ref := min (x.ref + 1) 65535 }

/-- A request table entry; an unlisted one is FREE. -/
def reqGet (s : State) (h : Nat) : Req := mgetD s.car.reqs h {}

/-- Replace a request table entry, marking it changed for the next snapshot (R437); the entry is in the cache of 16,384, from which the one longest unchanged leaves for the table in C0 (R238). -/
def reqSet (s : State) (h : Nat) (r : Req) : State :=
  { s with
    car := { s.car with reqs := mset s.car.reqs h r, cached := (h :: s.car.cached.erase h).take 16384 }
    pair := { s.pair with dirty := if s.pair.dirty.contains h then s.pair.dirty else h :: s.pair.dirty } }

/-- A request that has not reached a terminal state (R246). -/
def live (r : Req) : Bool :=
  match r.st with
  | .free | .done | .cancelled | .failed => false
  | _ => true

/-- Handles of the non-terminal requests of a partition. -/
def liveReqs (s : State) (p : Nat) : List (Nat × Req) := s.car.reqs.filter fun x => live x.2 && x.2.part == p

/-- Frames of a die reserved for Class G and not yet allocated (R233). -/
def reservedOn (s : State) (p d : Nat) : Nat := lsum ((liveReqs s p).map fun x => x.2.reserved.getD d 0)

/-- Free frames of a die beyond the reservations (R233, R234). -/
def spareOn (s : State) (p d : Nat) : Nat := (freeFrames (poolGet s p) d).length - reservedOn s p d

/-- Change a list's element by an integer, not below zero. -/
def addAt (l : List Nat) (d : Nat) (n : Int) : List Nat := l.set d (Int.toNat ((l.getD d 0 : Nat) + n))

/-- Take the lowest FREE frame of a die for a request: from its reservation for Class G, from the spare frames for Class E (R218, R233, R234). A page copy uses up first the frames that forks added to the reservation. -/
def takeFrame (s : State) (h d : Nat) (copy : Bool) : Option (Nat × State) :=
  let r := reqGet s h
  match freeFrames (poolGet s r.part) d with
  | [] => none
  | f :: _ =>
    if r.classE && spareOn s r.part d == 0 then none
    else
      let s := frameUse s r.part f r.classE
      if r.classE then some (f, s)
      else some (f, reqSet s h { r with
        reserved := addAt r.reserved d (-1), extra := if copy then addAt r.extra d (-1) else r.extra })

/-- The lowest run of `n` consecutive FREE frames of a die (R214). -/
def frameRun (x : Pool) (d n : Nat) : Option Nat :=
  match x.pageExp with
  | none => none
  | some e =>
    let free := freeFrames x d
    free.find? fun f => (List.range n).all fun i => free.contains (f + i * 2 ^ e)

/-! ### KV layout of an image (R207, R208) -/

/-- TOK of a layout entry, as tokens per page. -/
def kvTok (e : BitVec 64) : Nat := 16 * 2 ^ fld e 59 58

/-- Page size of a layout entry, bytes (R208). -/
def kvPage (e : BitVec 64) : Nat := kvTok e * fld e 53 46 * fld e 45 36 * 2

/-- n of a page size of 16 KiB × 2ⁿ. -/
def pageExpOf (b : Nat) : Option Nat := (List.range 8).find? fun n => b == 16384 * 2 ^ n

/-- The loaded image of a partition. -/
def imageOf (s : State) (p : Nat) : Option Loaded := mget s.car.images p

/-- Tokens per page of a partition's image; 16 where it has no KV layout. -/
def tokOf (s : State) (p : Nat) : Nat :=
  match imageOf s p with
  | some l => (l.img.kv.head?.map kvTok).getD 16
  | none => 16

/-- Layers of a partition's image. -/
def layersOf (s : State) (p : Nat) : Nat := ((imageOf s p).map fun l => l.img.kv.length).getD 0

/-- Home die of a layer (R207). -/
def homeDie (s : State) (p l : Nat) : Nat := ((imageOf s p).map fun x => fld (x.img.kv.getD l 0) 19 18).getD 0

/-- Layers whose home die is d. -/
def layersOn (s : State) (p d : Nat) : Nat := ((List.range (layersOf s p)).filter fun l => homeDie s p l == d).length

/-! ### Chained hash (R222): SipHash-2-4 -/

/-- One SipHash round over four words. -/
def sipRound (v : BitVec 64 × BitVec 64 × BitVec 64 × BitVec 64) : BitVec 64 × BitVec 64 × BitVec 64 × BitVec 64 :=
  let (a, b, c, d) := v
  let a := a + b
  let b := b.rotateLeft 13 ^^^ a
  let a := a.rotateLeft 32
  let c := c + d
  let d := d.rotateLeft 16 ^^^ c
  let a := a + d
  let d := d.rotateLeft 21 ^^^ a
  let c := c + b
  let b := b.rotateLeft 17 ^^^ c
  let c := c.rotateLeft 32
  (a, b, c, d)

/-- Absorb one message word: two rounds. -/
def sipWord (v : BitVec 64 × BitVec 64 × BitVec 64 × BitVec 64) (m : BitVec 64) : BitVec 64 × BitVec 64 × BitVec 64 × BitVec 64 :=
  let v := (v.1, v.2.1, v.2.2.1, v.2.2.2 ^^^ m)
  let v := sipRound (sipRound v)
  (v.1 ^^^ m, v.2)

/-- SipHash-2-4 of a message under a 128-bit key, 16 key bytes little-endian. -/
def sipHash (key : BitVec 128) (msg : List Byte) : BitVec 64 :=
  let k0 : BitVec 64 := key.extractLsb' 0 64
  let k1 : BitVec 64 := key.extractLsb' 64 64
  let n := msg.length / 8
  let words := (List.range n).map fun i => BitVec.ofNat 64 (leNat ((msg.drop (8 * i)).take 8))
  let last : BitVec 64 := BitVec.ofNat 64 (leNat (msg.drop (8 * n)) + msg.length % 256 * 2 ^ 56)
  let v0 := (k0 ^^^ 0x736f6d6570736575, k1 ^^^ 0x646f72616e646f6d, k0 ^^^ 0x6c7967656e657261, k1 ^^^ 0x7465646279746573)
  let v := (words ++ [last]).foldl sipWord v0
  let v := (v.1, v.2.1, v.2.2.1 ^^^ 0xff, v.2.2.2)
  let v := Nat.repeat sipRound 4 v
  v.1 ^^^ v.2.1 ^^^ v.2.2.1 ^^^ v.2.2.2

/-- The prefix key of a partition. -/
def prefixKey (s : State) (p : Nat) : BitVec 128 :=
  match slotOf s .siphash p with
  | some n => BitVec.ofNat 128 ((keySlot s n).curKey.getD 0)
  | none => 0

/-- Hash of a block after the hash of the block before it (R222). -/
def blockHash (key : BitVec 128) (prev kvId : BitVec 64) (variant : Nat) (toks : List W32) : BitVec 64 :=
  sipHash key (leBytes 8 prev.toNat ++ leBytes 8 kvId.toNat ++ leBytes 4 variant ++ leBytes 4 0 ++ toks.flatMap fun t => leBytes 4 t.toNat)

/-- Token IDs of block i. -/
def blockToks (toks : List W32) (t i : Nat) : List W32 := (toks.drop (i * t)).take t

/-- Chained hash of block i of a sequence (R222). -/
def chainHash (key : BitVec 128) (kvId : BitVec 64) (variant : Nat) (toks : List W32) (t : Nat) : Nat → BitVec 64
  | 0 => blockHash key 0 kvId variant (blockToks toks t 0)
  | i + 1 => blockHash key (chainHash key kvId variant toks t i) kvId variant (blockToks toks t (i + 1))

/-- KV identity of a partition's image. -/
def kvIdOf (s : State) (p : Nat) : BitVec 64 := ((imageOf s p).map fun l => l.img.kvIdentity).getD 0

/-- Chained hash of block i of a request. -/
def reqHash (s : State) (r : Req) (i : Nat) : BitVec 64 :=
  chainHash (prefixKey s r.part) (kvIdOf s r.part) r.variant r.tokens (tokOf s r.part) i

/-! ### The index (R224, R225) -/

/-- A table: false A, true B. -/
def tableOf (s : State) (b : Bool) : SMap IdxWay := if b then s.kv.tableB else s.kv.tableA

/-- Replace a table. -/
def tableSet (s : State) (b : Bool) (t : SMap IdxWay) : State :=
  if b then { s with kv := { s.kv with tableB := t } } else { s with kv := { s.kv with tableA := t } }

/-- SALT of a table. -/
def saltOf (s : State) (b : Bool) : BitVec 64 := if b then s.kv.saltB else s.kv.saltA

/-- Set of a hash in a table (R224). -/
def setOf (s : State) (b : Bool) (h : BitVec 64) : Nat := (h ^^^ saltOf s b).toNat % 2 ^ 18

/-- Valid ways of a set: way number and entry. -/
def waysOf (s : State) (b : Bool) (set : Nat) : List (Nat × IdxWay) :=
  (List.range 16).filterMap fun w => (mget (tableOf s b) (16 * set + w)).map fun e => (w, e)

/-- Tables that a lookup probes: the live one, and during a rebuild the new one too (R228). -/
def probed (s : State) : List Bool := if s.kv.rebuild.isSome then [s.kv.liveB, !s.kv.liveB] else [s.kv.liveB]

/-- A valid entry of a partition with a hash, with its table and key. -/
def idxFind (s : State) (p : Nat) (h : BitVec 64) : Option (Bool × Nat × IdxWay) :=
  (probed s).findSome? fun b =>
    ((waysOf s b (setOf s b h)).find? fun x => x.2.part == p && x.2.hash == h).map fun x => (b, 16 * setOf s b h + x.1, x.2)

/-- The present LAST_USE stamp (R224). -/
def useStamp (s : State) : W32 := BitVec.ofNat 32 (s.clk.timebase.toNat / 1000000)

/-- Wₚ in force (R225): a lowered value takes effect at the next rebuild. -/
def waysLimit (s : State) (p : Nat) : Nat := max (odGet s 0x3030 (p + 1)) (s.kv.waysHeld.getD p 0)

/-- A write of Wₚ over `old` (R225): what was in force stays so until the next rebuild. -/
def waysHold (s : State) (p old w : Nat) : State :=
  let l := (List.range 16).map fun i => s.kv.waysHeld.getD i 0
  let held := max old (s.kv.waysHeld.getD p 0)
  { s with kv := { s.kv with waysHeld := l.set p (if w < held then held else 0) } }

/-- Remove every entry of a block record from both tables. -/
def idxErase (s : State) (p brec : Nat) (h : BitVec 64) : State :=
  let f (t : SMap IdxWay) := t.filter fun x => !(x.2.part == p && x.2.brec == brec && x.2.hash == h)
  { s with kv := { s.kv with tableA := f s.kv.tableA, tableB := f s.kv.tableB } }

/-- Empty an entry, with its record, decrementing each frame of its block once (R226 to R229). -/
def idxDrop (s : State) (e : IdxWay) : State :=
  let s := idxErase s e.part e.brec e.hash
  match mget (poolGet s e.part).recs e.brec with
  | none => s
  | some r =>
    let s := each r.frames (fun s f => decRef s e.part f) s
    let y := poolGet s e.part
    poolSet s e.part { y with recs := mdel y.recs e.brec }

/-- The entry with the oldest LAST_USE, the lowest way on a tie (R227). -/
def oldestWay (s : State) (l : List (Nat × IdxWay)) : Option (Nat × IdxWay) :=
  let age (e : IdxWay) : Nat := (useStamp s - e.lastUse).toNat
  l.foldl (fun acc x =>
    match acc with
    | none => some x
    | some y => if age x.2 > age y.2 then some x else some y) none

/-- First empty way of a set. -/
def emptyWay (s : State) (b : Bool) (set : Nat) : Option Nat :=
  (List.range 16).find? fun w => (mget (tableOf s b) (16 * set + w)).isNone

/-- Write an entry into a table at its set. -/
def wayPut (s : State) (b : Bool) (w : Nat) (e : IdxWay) : State :=
  tableSet s b (mset (tableOf s b) (16 * setOf s b e.hash + w) e)

/-- An entry arrives in the new table (R228 step 2, step 4): already present, room, or one of the ways left behind. -/
def arrive (s : State) (b : Bool) (e : IdxWay) : State :=
  let set := setOf s b e.hash
  let ws := waysOf s b set
  let own := ws.filter fun x => x.2.part == e.part
  if let some x := own.find? fun x => x.2.hash == e.hash && x.2.brec == e.brec then wayPut s b x.1 e
  else if own.length < waysLimit s e.part then
    match emptyWay s b set with
    | some w => wayPut s b w e
    | none => idxDrop s e
  else
    match oldestWay s own with
    | none => idxDrop s e
    | some o =>
      if (useStamp s - o.2.lastUse).toNat > (useStamp s - e.lastUse).toNat then wayPut (idxDrop s o.2) b o.1 e
      else idxDrop s e

/-! ### Matching and insertion (R226, R227) -/

/-- The checks of R226 step 3 on a record. -/
def recOk (s : State) (r : Req) (br : BlockRec) (i parent : Nat) : Bool :=
  let t := tokOf s r.part
  br.kvId == kvIdOf s r.part && br.variant == r.variant && br.layers == layersOf s r.part && br.tok == t
  && br.parent == parent && br.tokens == blockToks r.tokens t i
  && br.frames.all fun f => (frameGet s r.part f).st == .inUse && (frameGet s r.part f).ref != 65535

/-- A page-table entry from its flags and frame (R212). -/
def pageEntry (cow indexed : Bool) (f : Nat) : BitVec 32 :=
  BitVec.ofNat 32 (2 ^ 31 + (if cow then 2 ^ 30 else 0) + (if indexed then 2 ^ 28 else 0) + f % 2 ^ 28)

/-- Take a matched block's frames into a sequence's page table (R226 step 4); a Class G reservation shrinks by them (R233). -/
def matchTake (s : State) (h i : Nat) (br : BlockRec) : State :=
  let r := reqGet s h
  let fs := br.frames.zipIdx
  let pages := fs.foldl (fun m x => mset m (x.2 * r.bmax + i) (pageEntry true true x.1)) r.pages
  let res := if r.classE then r.reserved else fs.foldl (fun l x => addAt l (homeDie s r.part x.2) (-1)) r.reserved
  let s := reqSet s h { r with pages := pages, reserved := res }
  each br.frames (fun s f => incRef s r.part f) s

/-- Match blocks in order from block i (R226): the blocks matched in all. -/
def matchGo (h : Nat) : Nat → Nat → Nat → State → Nat × State
  | 0, i, _, s => (i, s)
  | n + 1, i, parent, s =>
    let r := reqGet s h
    match idxFind s r.part (reqHash s r i) with
    | none => (i, s)
    | some (b, k, e) =>
      match mget (poolGet s r.part).recs e.brec with
      | none => (i, idxErase s e.part e.brec e.hash)
      | some br =>
        if recOk s r br i parent then
          let s := matchTake s h i br
          let e' := { e with lastUse := useStamp s }
          let s := tableSet s b (mset (tableOf s b) k e')
          let s := if s.kv.rebuild.isSome ∧ b = s.kv.liveB ∧ waysLimit s r.part > 0 then arrive s (!b) e' else s
          let s := bump64 s 0x3032 (r.part + 1)
          matchGo h n (i + 1) e.brec s
        else
          let s := bump32 s 0x3033 (r.part + 1)
          if br.frames.any fun f => (frameGet s r.part f).st != .inUse then (i, idxDrop s e) else (i, s)

/-- Frames of the blocks of a list, in its order, that are in use by `held`, until they reach a limit (R439). -/
def retainPlan (limit : Nat) (held : List Nat) : List BlockRec → List Nat → List Nat
  | [], acc => acc
  | b :: t, acc =>
    let more := nodup (acc ++ b.frames.filter held.contains)
    if more.length ≤ limit then retainPlan limit held t more else acc

/-- Set RETAIN anew in a partition's page tables (R439): on the pages of its indexed blocks, in order of insertion, until the retained frames reach OD 0x6408. -/
def retainFix (s : State) (p : Nat) : State :=
  let l := liveReqs s p
  let held := nodup (l.flatMap fun x => (x.2.pages.filter fun e => pgPresent e.2).map fun e => fld e.2 27 0)
  let bs := sortBy (fun a b => decide (a.order < b.order)) ((poolGet s p).recs.map Prod.snd)
  let keep := retainPlan (odGet s 0x6408 (p + 1)) held bs []
  each l (fun s x =>
    let pages := x.2.pages.map fun e =>
      (e.1, if pgPresent e.2 && keep.contains (fld e.2 27 0) then e.2 ||| 0x20000000 else e.2 &&& 0xDFFFFFFF)
    if pages = x.2.pages then s else reqSet s x.1 { x.2 with pages := pages }) s

/-- PREFIX_MATCH (R226): the full prompt blocks of a request admitted and not yet in a step. -/
def execPrefixMatch (h : Nat) (s : State) : Res :=
  let r := reqGet s h
  if r.st ≠ .admitted ∨ r.matched ∨ r.forkParent.isSome ∨ layersOf s r.part = 0 ∨ r.bmax = 0 then .next s
  else
    let t := tokOf s r.part
    let (n, s) := matchGo h (r.promptLen / t) 0 0xFFFFFFFF s
    let r := reqGet s h
    let len := if n * t ≥ r.promptLen then r.promptLen - 1 else n * t
    .next (retainFix (reqSet s h { r with matched := true, matchedTo := n * t, len := max r.len len }) r.part)

/-- Lowest free block record of a partition (R227). -/
def freeRec (s : State) (p : Nat) : Option Nat :=
  let x := poolGet s p
  (List.range (x.recs.length + 1)).find? fun n => decide (n < x.recCount) && (mget x.recs n).isNone

/-- Insert block i of a sequence after its prefill (R227); RETAIN follows (R439). -/
def prefixInsert (s : State) (h i : Nat) : State :=
  let r := reqGet s h
  let p := r.part
  let hash := reqHash s r i
  let parent := if i = 0 then some 0xFFFFFFFF else (idxFind s p (reqHash s r (i - 1))).map fun x => x.2.2.brec
  let b := if s.kv.rebuild.isSome then !s.kv.liveB else s.kv.liveB
  if waysLimit s p = 0 ∨ (idxFind s p hash).isSome then s
  else
    match parent, freeRec s p with
    | some par, some n =>
      let set := setOf s b hash
      let ls := List.range (layersOf s p)
      let fs := ls.map fun l => fld (mgetD r.pages (l * r.bmax + i) 0) 27 0
      let full := fs.any fun f => (frameGet s p f).ref == 65535
      let own := (waysOf s b set).filter fun x => x.2.part == p
      let evict := decide (own.length ≥ waysLimit s p)
      let s := if evict && !full then (match oldestWay s own with | some o => idxDrop s o.2 | none => s) else s
      match emptyWay s b set with
      | none => s
      | some w =>
        if full then s
        else
          let t := tokOf s p
          let br : BlockRec :=
            { hash := hash, kvId := kvIdOf s p, variant := r.variant, parent := par, layers := layersOf s p, tok := t
              tokens := blockToks r.tokens t i, frames := fs, order := (poolGet s p).inserted }
          let s := each fs (fun s f => incRef s p f) s
          let y := poolGet s p
          let s := poolSet s p { y with recs := mset y.recs n br, inserted := y.inserted + 1 }
          let r := reqGet s h
          let pages := (ls.zip fs).foldl (fun m x =>
            mset m (x.1 * r.bmax + i) (mgetD m (x.1 * r.bmax + i) 0 ||| 0x50000000)) r.pages
          let s := reqSet s h { r with pages := pages }
          wayPut s b w { hash := hash, brec := n, part := p, lastUse := useStamp s }
    | _, _ => s

/-- Insert the blocks of a sequence that prefill has completed between two lengths and whose tokens come from its submission (R227). -/
def prefixInsertRange (s : State) (h lo hi : Nat) : State :=
  let r := reqGet s h
  let t := tokOf s r.part
  if layersOf s r.part = 0 then s
  else
    each ((List.range (hi / t - lo / t)).map (lo / t + ·)) (fun s i =>
      if r.promptAt ≤ i * t ∧ (i + 1) * t ≤ r.promptAt + r.promptLen then prefixInsert s h i else s) s

/-! ### Rebuild (R228, R229) -/

/-- Start a rebuild: the new table cleared under a new SALT, and every lowered Wₚ in force (R225, R228). -/
def rebuildStart (s : State) (rotated : List Nat) (retired : List (Nat × Nat)) : State :=
  let b := !s.kv.liveB
  let salt : BitVec 64 := BitVec.ofNat 64 (freeVal s)
  let s := freeStep s
  let s := tableSet s b []
  let s := if b then { s with kv := { s.kv with saltB := salt } } else { s with kv := { s.kv with saltA := salt } }
  { s with kv := { s.kv with rebuild := some { rotated := rotated, retired := retired }, waysHeld := [] } }

/-- Start a rebuild, or queue one while one runs (R228). -/
def rebuildAsk (s : State) (rotated : List Nat) (retired : List (Nat × Nat)) : State :=
  match s.kv.rebuild with
  | none => rebuildStart s rotated retired
  | some r =>
    { s with kv := { s.kv with rebuild := some { r with
        queued := true, queuedRotated := r.queuedRotated ++ rotated, queuedRetired := r.queuedRetired ++ retired } } }

/-- A removed partition: its entries are emptied from both tables within the running rebuild, or a rebuild starts without them (R228, R229). -/
def rebuildRemoved (s : State) (p : Nat) : State :=
  let s := { s with kv := { s.kv with waysHeld := s.kv.waysHeld.set p 0 } }
  match s.kv.rebuild with
  | none =>
    let s := rebuildStart s [] []
    match s.kv.rebuild with
    | some r => { s with kv := { s.kv with rebuild := some { r with removed := [p] } } }
    | none => s
  | some r =>
    let es := ((s.kv.tableA ++ s.kv.tableB).filter fun x => x.2.part == p).map Prod.snd
    let s := each es (fun s e => idxDrop s e) s
    { s with kv := { s.kv with rebuild := some { r with removed := p :: r.removed } } }

/-- An entry that a rebuild leaves behind (R228). -/
def leftBehind (s : State) (r : Rebuild) (e : IdxWay) : Bool :=
  r.removed.contains e.part || r.rotated.contains e.part
  || (match mget (poolGet s e.part).recs e.brec with
      | some b => r.retired.contains (e.part, b.variant)
      | none => true)

/-- REBUILD_MIGRATE_SET (R228, R229): one set of the old table. -/
def execRebuildMigrateSet (s : State) : Res :=
  match s.kv.rebuild with
  | none => .next s
  | some r =>
    if r.finishedAt.isSome then .next s
    else
      let old := s.kv.liveB
      let s := each ((waysOf s old r.nextSet).map Prod.snd) (fun s e =>
        if leftBehind s r e then idxDrop s e else arrive s (!old) e) s
      let n := r.nextSet + 1
      let done := if n ≥ 262144 then some s.clk.now else none
      .next { s with kv := { s.kv with rebuild := some { r with nextSet := n, finishedAt := done } } }

/-- Commit the switch of G after the last set, and start the queued rebuild (R228). -/
def tableSwitch (s : State) : State :=
  match s.kv.rebuild with
  | none => s
  | some r =>
    if r.finishedAt.isNone then s
    else
      let old := s.kv.liveB
      let s := tableSet s old []
      let s := { s with kv := { s.kv with liveB := !old, rebuild := none } }
      if r.queued then rebuildStart s r.queuedRotated r.queuedRetired else s

/-- Clear WP on the granules of a variant's parts (R285). -/
def variantUnprotect (s : State) (p : Nat) (v : Variant) : State :=
  each v.parts (fun s x =>
    each ((List.range x.2.2).map fun i => granOf x.2.1 + i) (fun s g =>
      let e := granGet s g
      if e.owner.toNat = p then granSet s g { e with wp := false } else s) s) s

/-- Retiring variants of a partition whose entries the switch just committed left behind become FREE, WP cleared (R285). -/
def retireEnd (s : State) (r : Rebuild) : State :=
  let gone (x : Nat × Variant) : Bool :=
    x.2.st == .retiring && x.2.rebuilding && r.retired.contains (x.1 / 4096, x.1 % 4096)
  let s := each (s.variants.filter gone) (fun s x => variantUnprotect s (x.1 / 4096) x.2) s
  { s with variants := s.variants.filter fun x => !gone x }

/-- The switch with what it ends (R228, R285). -/
def switchCommit (s : State) : State :=
  match s.kv.rebuild with
  | some r => if r.finishedAt.isSome then tableSwitch (retireEnd s r) else s
  | none => s

/-- PREFIX_TABLE_SWITCH (R228): on its own 1 ms after the last set. -/
def execPrefixTableSwitch (s : State) : Res :=
  match s.kv.rebuild with
  | some r =>
    match r.finishedAt with
    | some t => if s.clk.now ≥ t + 1000000 then .next (switchCommit s) else .next s
    | none => .next s
  | none => .next s

/-- EPOCH_ADVANCE (R219): an advance put off until epoch E − 3 has drained. -/
def execEpochAdvance (s : State) : Res :=
  if s.kv.advanceDue && mayAdvance s then .next (epochTick s) else .next s

/-- The partition whose pool holds a frame. -/
def framePool (s : State) (f : Nat) : Option Nat :=
  (s.kv.pools.find? fun x => (mget x.2.frames f).isSome).map Prod.fst

/-- FRAME_RELEASE (R220): QUARANTINE to FREE once its DEC_EPOCH has drained. -/
def execFrameRelease (f : Nat) (s : State) : Res :=
  match framePool s f with
  | none => .next s
  | some p =>
    let x := frameGet s p f
    let ok := match x.decEpoch with | some e => drained s e | none => true
    if x.st == .quarantine && ok then .next (frameFree s p f) else .next s

/-! ### Pool commands (R215, R237) -/

/-- The clamp of OD 0x3020 (R237, R401). -/
def poolClamp (p : Nat) (s : State) (v : Nat) : Nat :=
  let cur := odGet s 0x3020 (p + 1)
  if ((mget s.gate.parts p).map Partn.st).getD .free ≠ .active then cur
  else if v = cur then v
  else if v > cur then
    let most := lsum ((List.range 4).map fun d => (poolHeld (poolGet s p) d).length + (freeGranules s d).length)
    max cur (poolLargest s p (min v most))
  else if liveReqs s p ≠ [] ∨ !poolIdle (poolGet s p) then cur
  else v

/-- KV_POOL_WRITE (R215, R237): a raise takes granules at once, a lowering waits for POOL_RELAYOUT. -/
def execKvPoolWrite (rq : DictReq) (p : PartId) (v : List Byte) (s : State) : Res :=
  let old := odGet s 0x3020 (p.val + 1)
  .next (dictWrite s rq 0x3020 (p.val + 1) v (poolClamp p.val) fun s w =>
    if w > old then poolRaise s p.val w
    else if w < old then poolSet s p.val { poolGet s p.val with relayout := true }
    else s)

/-- POOL_RELAYOUT (R215): only while no frame is IN_USE or in QUARANTINE. -/
def execPoolRelayout (p : PartId) (s : State) : Res :=
  let x := poolGet s p.val
  if x.relayout && poolIdle x then .next (poolLayout s p.val (odGet s 0x3020 (p.val + 1)) x.pageExp) else .next s

end Sys2Proof.Machine
end

