-- ==== Sys2Proof/Machine/Link.lean ====
section
/-! DEFINITION. Trellis below its jobs: the link layer, groups and keys, packets and their retransmit buffer, and what group 63 carries (R318 to R321, R325, R327 to R330, R332, R333, R404, R437, R445). -/

namespace Sys2Proof.Machine

open Sys2Proof

/-- A port. -/
def portGet (s : State) (p : Nat) : Port := mgetD s.trl.ports p {}

/-- Replace a port. -/
def portSet (s : State) (p : Nat) (x : Port) : State := { s with trl := { s.trl with ports := mset s.trl.ports p x } }

/-- The port may work: powered, enabled by firmware and not fenced (R318, R540). -/
def portOn (s : State) (p : Nat) : Bool := trlOn s && (portGet s p).enabled && !s.flash.fencedPorts.getLsbD p

/-- A port is UP (R323). -/
def portUp (s : State) (p : Nat) : Bool := portOn s p && (portGet s p).st == .up

/-! ### The link layer (R319 to R321) -/

/-- CRC-32 of IEEE 802.3 (R319), as a setting of the check-value computation of R423. -/
def crc32Setting : BitVec 256 :=
  BitVec.ofNat 256 (2 ^ 252 + 32 * 2 ^ 245 + 2 ^ 244 + 2 ^ 243 + 2 ^ 242 + 0x04C11DB7 * 2 ^ 128 + 0xFFFFFFFF * 2 ^ 64)

/-- CRC of a flit: bytes 0 to 251, whose last four hold the CRC itself and count as zero. -/
def flitCrc (flit : BitVec 2048) : Nat :=
  (cvCheck crc32Setting (cvFold crc32Setting (cvInit crc32Setting) (leBytes 248 flit.toNat ++ [0, 0, 0, 0]))).toNat

/-- A flit of at most 248 packet bytes, zeros after them, with its trailer (R319). -/
def flitMake (payload : List Byte) (seq ack : Nat) (ackV : Bool) (vc : Nat) : BitVec 2048 :=
  let body := leNat (payload.take 248)
  let tr := seq % 4096 * 2 ^ 52 + ack % 4096 * 2 ^ 40 + (if ackV then 2 ^ 39 else 0) + vc % 4 * 2 ^ 37
  let f : BitVec 2048 := BitVec.ofNat 2048 (body + tr * 2 ^ 1984)
  BitVec.ofNat 2048 (body + (tr + flitCrc f) * 2 ^ 1984)

/-- Weight of a partition in the round robin of R321; group 63 has 5. -/
def vcWeight (s : State) (p : Nat) : Nat := if p = 63 then 5 else odGet s 0x6010 (p + 1)

/-- Partition a goes before b in the round robin of R321: the fewer flits for its weight, ties to the lower number. -/
def vcBefore (s : State) (x : Port) (vc a b : Nat) : Bool :=
  let n (p : Nat) : Nat := mgetD x.served (64 * vc + p) 0 + 1
  let l := n a * vcWeight s b
  let r := n b * vcWeight s a
  if vcWeight s a = 0 then vcWeight s b == 0 && decide (a < b)
  else if vcWeight s b = 0 then true
  else decide (l < r) || (l == r && decide (a < b))

/-- The virtual channel and partition to send from next: VC1 before VC2, each with credits and something queued. -/
def vcNext (s : State) (x : Port) : Option (Nat × Nat) :=
  ([1, 2] : List Nat).findSome? fun vc =>
    if mgetD x.credits vc 0 = 0 then none
    else
      let ps := nodup ((x.txq.filter fun e => e.1 == vc).map fun e => e.2.1)
      (ps.foldl (fun best p =>
        match best with
        | none => some p
        | some b => if vcBefore s x vc p b then some p else some b) none).map fun p => (vc, p)

/-- Take the first queued payload of a virtual channel and partition. -/
def txTake (vc p : Nat) : List (Nat × Nat × List Byte) → Option (List Byte × List (Nat × Nat × List Byte))
  | [] => none
  | e :: t =>
    if e.1 = vc ∧ e.2.1 = p then some (e.2.2, t)
    else (txTake vc p t).map fun r => (r.1, e :: r.2)

/-- Send data flits while fewer than 512 are unacknowledged and credits allow (R320, R321). -/
def linkDrain (s : State) (p : Nat) : Nat → State
  | 0 => s
  | n + 1 =>
    let x := portGet s p
    if !portUp s p || decide (x.unacked.length ≥ 512) then s
    else
      match vcNext s x with
      | none => s
      | some (vc, q) =>
        match txTake vc q x.txq with
        | none => s
        | some (b, rest) =>
          let f := flitMake b x.txSeq (x.rxExpect + 4095) x.rxAny vc
          let x := { x with
            txq := rest
            unacked := x.unacked ++ [(x.txSeq, f, 0)]
            txSeq := (x.txSeq + 1) % 4096
            credits := mset x.credits vc (mgetD x.credits vc 0 - 1)
            served := mset x.served (64 * vc + q) (mgetD x.served (64 * vc + q) 0 + 1) }
          linkDrain (emit (portSet s p x) (.flit ⟨p % 2, Nat.mod_lt _ (by decide)⟩ ((x.txSeq + 4095) % 4096) f)) p n

/-- Cut bytes into flit payloads of at most 248 bytes. -/
def flitCut (bs : List Byte) : List (List Byte) :=
  (List.range (cdiv bs.length 248)).map fun i => (bs.drop (248 * i)).take 248

/-- Room that the last queued payload of a virtual channel and partition has left. -/
def txRoom (vc p : Nat) (q : List (Nat × Nat × List Byte)) : Nat :=
  match (q.filter fun e => e.1 == vc && e.2.1 == p).getLast? with
  | some e => 248 - e.2.2.length
  | none => 0

/-- Add bytes to the last queued payload of a virtual channel and partition. -/
def txFill (vc p : Nat) (bs : List Byte) (q : List (Nat × Nat × List Byte)) : List (Nat × Nat × List Byte) :=
  match q.reverse.findIdx? fun e => e.1 == vc && e.2.1 == p with
  | some i => q.modify (q.length - 1 - i) fun e => (e.1, e.2.1, e.2.2 ++ bs)
  | none => q

/-- Queue bytes at a port behind those that wait on the same virtual channel for the same partition, with no gap: packets run back to back across flits (R319). -/
def linkQueue (s : State) (p vc part : Nat) (bs : List Byte) : State :=
  let x := portGet s p
  let n := min (txRoom vc part x.txq) bs.length
  let q := if n = 0 then x.txq else txFill vc part (bs.take n) x.txq
  portSet s p { x with txq := q ++ (flitCut (bs.drop n)).map fun b => (vc, part, b) }

/-- Let both ports send what is queued. -/
def linksDrain (s : State) : State := linkDrain (linkDrain s 0 512) 1 512

/-- Flits up to the acknowledged one leave the replay buffer. -/
def flitAck (l : List (Nat × BitVec 2048 × Nat)) (ack : Nat) : List (Nat × BitVec 2048 × Nat) :=
  if l.any fun e => e.1 == ack then (l.dropWhile fun e => e.1 != ack).drop 1 else l

/-! ### Clock domains and their sources (R325, R378, R379, R382, R383) -/

/-- The power domain of a clock domain is on (R16 to R18, R378). -/
def domOn (s : State) (n : Nat) : Bool :=
  let h := s.tray.hub
  if n ≤ 0x10 then s.tray.quadOn.getLsbD (n - 1)
  else if n ≤ 0x14 then s.tray.dieOn.getLsbD (n - 0x11)
  else if n = 0x16 then h.carouselDma
  else if n = 0x17 then h.pcie
  else if n = 0x18 ∨ n = 0x19 then h.trellis
  else if n = 0x1A ∨ n = 0x1B then h.zoetrope
  else if n = 0x1C then h.gatehouse
  else if n = 0x1D then h.pavilion
  else if 0x1E ≤ n ∧ n ≤ 0x21 then h.hbmA
  else if 0x22 ≤ n ∧ n ≤ 0x25 then h.hbmB
  else if n = 0x27 then h.aux
  else h.hubCommon

/-- Source in use. -/
def domSource (s : State) (n : Nat) : Nat := mgetD s.clk.source (n - 1) (clkDefSource n)

/-- Nominal frequency of a domain on its own source, Hz (R378, R379). -/
def domHz (s : State) (n : Nat) : Nat :=
  if n ≤ 0x10 then (mgetD s.wv.quads (n - 1) {}).clock * 1000000
  else if n ≤ 0x14 then odGet s 0x1001 (n - 0x10) * 1000000
  else if n = 0x18 ∨ n = 0x19 then 1328125000
  else if n = 0x1A then (if s.wv.zoetropeHalved then 400000000 else 800000000)
  else if n = 0x1B ∧ s.wv.zoetropeHalved then 500000000
  else if n = 0x1C then 200000000
  else if n = 0x1D then 500000000
  else if n = 0x27 then 32768
  else if n = 0x28 then 100000000
  else 1000000000

/-- Cycles that a domain loses in a switch (R378). -/
def domLost (n : Nat) : Nat :=
  if n ≤ 0x14 then 48 else if n = 0x19 then 96 else if n = 0x1D then 16 else if n = 0x28 then 8 else 32

/-- Change a domain's source: stop, multiplexer, restart, counted (R382). DESIGN CHOICE (log entry 130): the stop lasts the cycles of R378 in the domain's nominal clock. -/
def domSwitch (s : State) (n src : Nat) : State :=
  let h : ClkHalt := { until_ := s.clk.now + cdiv (domLost n * 1000000000) (domHz s n), old := domSource s n }
  bump32 { s with clk := { s.clk with
    source := mset s.clk.source (n - 1) src, switching := s.clk.switching.filter (· ≠ n), halts := mset s.clk.halts n h } } 0x1021 n

/-- The source that a domain is switching to is judged unstable: the switch completes, and one back follows (R383). -/
def haltBack (s : State) (n : Nat) : State :=
  match mget s.clk.halts n with
  | some h => { s with clk := { s.clk with halts := mset s.clk.halts n { h with back := true } } }
  | none => s

/-- The tray reference falls back to the Trellis core PLL (R325, R379): a source change of that domain, or the end of the one in progress (R383). -/
def refFall (s : State) : State :=
  if domSource s 0x19 = 2 then
    if (mget s.clk.halts 0x19).isSome then haltBack s 0x19 else domSwitch s 0x19 0
  else s

/-- Port A is not UP any more (R325): its recovered clock is gone, and with it the reference. -/
def portAGone (s : State) : State :=
  refFall { s with clk := { s.clk with judged := mset s.clk.judged 0x17 { stable := false } } }

/-! ### Groups and keys (R327 to R330, R404) -/

/-- A group: local partition, member slots, key slot. -/
structure Group where
  part : Nat
  mask : BitVec 16
  slot : Nat
  deriving DecidableEq, Repr

/-- Slot of the tray that this one is paired with (R434). -/
def partnerSlot (s : State) : Option Nat :=
  let w := odGet s 0x6401 0
  if odGet s 0x6400 0 ≠ 0 ∧ w < 16 then some w else none

/-- A configured group: of tenants by OD 0x6020; group 63 of a paired tray, which firmware holds as partition 63 under slot 62 with the partner for its other member (R327, R402, R434). -/
def groupOf (s : State) (g : Nat) : Option Group :=
  let e := odGet s 0x6020 (g + 1)
  if g = 63 then (partnerSlot s).map fun w => { part := 63, mask := BitVec.ofNat 16 (2 ^ w), slot := 62 }
  else if g < 63 ∧ e.testBit 31 then
    some { part := nfld e 30 27, mask := BitVec.ofNat 16 (nfld e 26 11), slot := nfld e 10 5 }
  else none

/-- Receive window of a group: base and bytes (OD 0x6021). -/
def windowOf (s : State) (g : Nat) : Nat × Nat :=
  let w := odGet s 0x6021 (g + 1)
  (nfld w 47 0, nfld w 63 48 * 2 ^ 21)

/-- The key of a TRELLIS slot of a partition at a generation that is CUR or OLD (R404). -/
def trlKey (s : State) (slot part gen : Nat) : Option Nat :=
  let k := keySlot s slot
  if k.kind == .trellis && k.owner.toNat == part then
    (if k.cur = gen ∧ k.curKey.isSome then k.curKey
     else match k.old with
       | some (g, key) => if g = gen then some key else none
       | none => none)
  else none

/-- The CUR generation of a TRELLIS slot that a partition may send with. -/
def trlCur (s : State) (g : Group) : Option (Nat × Nat) :=
  (trlKey s g.slot g.part (keySlot s g.slot).cur).map fun k => ((keySlot s g.slot).cur, k)

/-- Own slot. -/
def ownSlot (s : State) : Nat := s.tray.slotId.toNat

/-- TYPE of a header. -/
def pkType (h : BitVec 256) : Nat := fld h 251 248
/-- SRC. -/
def pkSrc (h : BitVec 256) : Nat := fld h 247 244
/-- GROUP. -/
def pkGroup (h : BitVec 256) : Nat := fld h 239 234
/-- KEY_GEN. -/
def pkGen (h : BitVec 256) : Nat := fld h 233 230
/-- SEQ. -/
def pkSeq (h : BitVec 256) : Nat := fld h 192 129

/-- The 96-bit IV (R329). -/
def trlIv (h : BitVec 256) : Nat :=
  pkSrc h * 2 ^ 92 + fld h 243 240 * 2 ^ 88 + pkGroup h * 2 ^ 82 + pkGen h * 2 ^ 78
    + (if pkType h = 2 ∨ pkType h = 3 then 2 ^ 77 else 0) + pkSeq h

/-- A packet of a header and plaintext: data encrypted, trailer with tag and check value (R328 to R330). -/
def trlSeal (key : Nat) (h : BitVec 256) (pt : List Byte) : Packet :=
  let (ct, tag) := Config.gcmSeal key (trlIv h) (leBytes 32 h.toNat) pt
  { header := h, data := ct, trailer := BitVec.ofNat 256 (tag % 2 ^ 128 + (presetCheck (some (pkSeq h)) pt).toNat * 2 ^ 128) }

/-- The plaintext of a packet whose tag matches. -/
def trlOpen (key : Nat) (p : Packet) : Option (List Byte) :=
  Config.gcmOpen key (trlIv p.header) (leBytes 32 p.header.toNat) p.data (fld p.trailer 127 0)

/-- Bytes of a packet on the wire. -/
def pktBytes (p : Packet) : List Byte := leBytes 32 p.header.toNat ++ p.data ++ leBytes 32 p.trailer.toNat

/-- A number below 16 as a slot. -/
def fin16 (n : Nat) : Fin 16 := ⟨n % 16, Nat.mod_lt _ (by decide)⟩

/-- The port that a packet takes: the hash of R333, or the other while that one is not UP. -/
def portFor (s : State) (g dst seq : Nat) : Option Nat :=
  let a := if Config.portHash g dst seq then 1 else 0
  if portUp s a then some a else if portUp s (1 - a) then some (1 - a) else none

/-- Queue a packet at a port. -/
def pktGo (s : State) (port vc part : Nat) (p : Packet) : State :=
  linkQueue (emit s (.packet port p)) port vc part (pktBytes p)

/-- Key of a send counter. -/
def seqKey (dst g gen : Nat) : Nat := 1024 * dst + 16 * g + gen

/-! ### Sending a packet (R329, R332) -/

/-- Bytes in the retransmit buffer. -/
def bufBytes (s : State) : Nat := lsum (s.trl.pending.map fun o => 64 + o.pkt.data.length)

/-- Packets outstanding to a destination in a group. -/
def outTo (s : State) (dst g : Nat) : Nat := (s.trl.pending.filter fun o => o.dst == dst && o.group == g).length

/-- A packet of `len` data bytes fits the windows of R332. -/
def pktFits (s : State) (dst g len : Nat) : Bool :=
  decide (outTo s dst g < 1024) && decide (bufBytes s + 64 + len ≤ 2 ^ 23)

/-- Seal a WRITE or POST under the next SEQ of its counter, keep it until it is acknowledged and queue it at its port; `extra` holds the header's fields beside VER, SRC, DST, GROUP, KEY_GEN, VC, LEN and SEQ. -/
def pktOut (s : State) (dst g gen key part vc extra : Nat) (data : List Byte) (job : Option Nat) : State :=
  let sk := seqKey dst g gen
  let seq := mgetD s.trl.txSeq sk 1
  let h : BitVec 256 := BitVec.ofNat 256 (2 ^ 252 + ownSlot s * 2 ^ 244 + dst % 16 * 2 ^ 240 + g * 2 ^ 234 + gen * 2 ^ 230
    + vc * 2 ^ 228 + data.length / 32 * 2 ^ 220 + seq % 2 ^ 64 * 2 ^ 129 + extra)
  let pkt := trlSeal key h data
  let port := portFor s g dst seq
  let s := { s with trl := { s.trl with
    txSeq := mset s.trl.txSeq sk (seq + 1)
    pending := s.trl.pending ++ [{ dst := dst, group := g, seq := seq, pkt := pkt, port := port.getD 0, sentAt := s.clk.now, job := job }] } }
  match port with
  | some q => pktGo s q vc part pkt
  | none => s

/-! ### Group 63 (R321, R327, R437, R445) -/

/-- Key of group 63: its CUR generation, while the tray is paired and the two Gatehouses have agreed it (R409, R434). -/
def g63Key (s : State) : Option (Nat × Nat) := (groupOf s 63).bind (trlCur s)

/-- Group 63 can carry traffic: Trellis runs, a port is UP and the key is held (R318, R329). -/
def g63Up (s : State) : Bool := (portUp s 0 || portUp s 1) && (g63Key s).isSome

/-- Send the waiting payloads of group 63 while the windows of R332 have room. -/
def g63Pump (s : State) : Nat → State
  | 0 => s
  | n + 1 =>
    match s.trl.g63, partnerSlot s, g63Key s with
    | b :: t, some dst, some (gen, key) =>
      if pktFits s dst 63 b.length then
        g63Pump (pktOut { s with trl := { s.trl with g63 := t } } dst 63 gen key 63 (if b.length ≤ 256 then 1 else 2) 0 b none) n
      else s
    | _, _, _ => s

/-- Cut a message of group 63 into the data of WRITE packets: at most 4,096 B each, filled to whole blocks with zeros. -/
def g63Cut (bs : List Byte) : List (List Byte) :=
  (List.range (cdiv bs.length 4096)).map fun i =>
    let b := (bs.drop (4096 * i)).take 4096
    b ++ List.replicate (cdiv b.length 32 * 32 - b.length) 0

/-- Send a message over group 63, sealed under slot 62's key and arbitrated as partition 63 (R321, R329); without a port that is UP or a key nothing is sent. `o` is the message in clear. DESIGN CHOICE (log entry 110): the bytes of a message and its cutting into packets are the model's. -/
def g63Send (s : State) (o : Output) (bs : List Byte) : State :=
  if !g63Up s then s
  else linksDrain (g63Pump (emit { s with trl := { s.trl with g63 := s.trl.g63 ++ g63Cut bs } } o) 1024)

end Sys2Proof.Machine
end

