-- ==== Sys2Proof/Machine/Requests.lean ====
section
/-! DEFINITION. Requests: services, step costs, the end of a request, aborts, and the queue of submission entries (R238 to R254, R266 to R269). -/

namespace Sys2Proof.Machine

open Sys2Proof

/-! ### Services (R243) and cost entries (R129) -/

/-- KIND: a ONESHOT service. -/
def svOne (v : BitVec 256) : Bool := bit v 251
/-- FORK_EN. -/
def svFork (v : BitVec 256) : Bool := bit v 250
/-- PREFILL_STEP. -/
def svPrefill (v : BitVec 256) : Nat := fld v 249 238
/-- DECODE_STEP. -/
def svDecode (v : BitVec 256) : Nat := fld v 237 226
/-- MAX_LEN. -/
def svMaxLen (v : BitVec 256) : Nat := fld v 225 206
/-- CHUNK. -/
def svChunk (v : BitVec 256) : Nat := fld v 205 190
/-- MAX_SEQ. -/
def svMaxSeq (v : BitVec 256) : Nat := fld v 189 177
/-- EOS. -/
def svEos (v : BitVec 256) : Nat := fld v 176 145
/-- COPY_PAGES. -/
def svCopyPages (v : BitVec 256) : Nat := fld v 144 129
/-- COPY_BEATS. -/
def svCopyBeats (v : BitVec 256) : Nat := fld v 128 105
/-- BATCH_BASE. -/
def svBatch (v : BitVec 256) : Nat := fld v 104 57
/-- IO_BASE. -/
def svIoBase (v : BitVec 256) : Nat := fld v 56 9
/-- IO_SLOTS. -/
def svIoSlots (v : BitVec 256) : Nat := fld v 8 0

/-- A present service of a partition's image. -/
def serviceOf (s : State) (p k : Nat) : Option (BitVec 256) :=
  match imageOf s p with
  | none => none
  | some l =>
    match l.img.services[k]? with
    | some v => if fld v 255 252 = 1 then some v else none
    | none => none

/-- OUT_BYTES of a service. -/
def outBytes (s : State) (p k : Nat) : Nat := ((imageOf s p).map fun l => l.img.outBytes.getD k 0).getD 0

/-- Bytes of a ONESHOT input of a service. -/
def inBytes (s : State) (p k : Nat) : Nat := ((imageOf s p).map fun l => l.img.inBytes.getD k 0).getD 0

/-- Services present in a partition's image, ascending. -/
def servicesOf (s : State) (p : Nat) : List Nat := (List.range 8).filter fun k => (serviceOf s p k).isSome

/-- A cost entry: VER 1 and its own index as STEP_ID (R129). -/
def costAt (t : List (BitVec 256)) (i : Nat) : Option (BitVec 256) :=
  match t[i]? with
  | some e => if fld e 239 236 = 1 ∧ fld e 255 240 = i then some e else none
  | none => none

/-- Cost entry of a step of a partition's image. -/
def costEntry (s : State) (p i : Nat) : Option (BitVec 256) :=
  match imageOf s p with
  | some l => costAt l.img.cost i
  | none => none

/-- C of a cost entry for parameters (R130). -/
def costBeats (e : BitVec 256) (ps : List Nat) : Nat :=
  let sel (x : Nat) : Nat := if x = 15 then 0 else ps.getD x 0
  fld e 199 168 + cdiv (fld e 167 144 * sel (fld e 119 116) + fld e 143 120 * sel (fld e 115 112)) 256

/-- Down-spread depth d in units of 0.01 % (R385). -/
def spread (s : State) : Nat := odGet s 0x1010 0

/-- Time of a cost, in units of 1 ÷ (10,000 − x) ns with x the depth: R131 with beats of 8 ns, and plain gaps. -/
def costTime (s : State) (beats gaps : Nat) : Nat := beats * 82400 + gaps * (10000 - spread s)

/-! ### IDs and queues -/

/-- Request ID (R240). -/
def reqId (h : Nat) (r : Req) : Nat := h * 4096 + r.gen % 4096

/-- The entry that a request ID names, unless the ID is stale (R240). -/
def reqNamed (s : State) (id : Nat) : Option (Nat × Req) :=
  let r := reqGet s (id / 4096)
  if r.st = .free ∨ r.gen % 4096 ≠ id % 4096 then none else some (id / 4096, r)

/-- The request is named by a step in flight. -/
def inStep (s : State) (p h : Nat) : Bool :=
  match mget s.car.steps p with
  | some x => x.batch.any fun b => b.handle == h
  | none => false

/-- Units of prefill still to be processed (R259). -/
def unitsLeft (r : Req) (one : Bool) : Nat := if one then 1 else r.ahead.foldl min r.prefillTo - r.len

/-- The service of a request is ONESHOT. -/
def reqOne (s : State) (r : Req) : Bool := ((serviceOf s r.part r.service).map svOne).getD false

/-- A request has prefill pending (R259): not yet ended, not draining, with units left. -/
def prefillPending (s : State) (r : Req) : Bool :=
  live r && r.st != .draining && decide (unitsLeft r (reqOne s r) > 0)

/-- Deadline for the first token, elapsed ns (R259, R390). -/
def deadline (r : Req) : Int := r.arriveAt + (r.ttft * 1000 : Nat)

/-- Order of the prefill queue: deadline, priority, arrival (R259). -/
def queueLt (a b : Nat × Req) : Bool :=
  decide (deadline a.2 < deadline b.2)
  || (deadline a.2 == deadline b.2 && (decide (a.2.prio > b.2.prio)
      || (a.2.prio == b.2.prio && (decide (a.2.arriveAt < b.2.arriveAt)
          || (a.2.arriveAt == b.2.arriveAt && decide (a.2.order < b.2.order))))))

/-- Class G requests of a service with prefill pending, in queue order, among given requests. -/
def prefillQueue (s : State) (k : Nat) (l : List (Nat × Req)) : List (Nat × Req) :=
  sortBy queueLt (l.filter fun x => !x.2.classE && x.2.service == k && prefillPending s x.2)

/-- Order of Class E work: priority, then the earliest end of a last step (R263). -/
def classELt (a b : Nat × Req) : Bool :=
  decide (a.2.prio > b.2.prio) || (a.2.prio == b.2.prio && decide (a.2.lastStep < b.2.lastStep))

/-- Order of the sequences in WAITING_PAGE: priority, then arrival there (R235). -/
def waitingLt (a b : Nat × Req) : Bool :=
  decide (a.2.prio > b.2.prio) || (a.2.prio == b.2.prio && decide (a.2.waitSince < b.2.waitSince))

/-- The queue that a request stands in: the sequences that wait for a page (R235), the Class E work of its partition (R263), or the prefill queue of its service (R259). -/
def queueOf (s : State) (r : Req) : List Nat :=
  let l := (liveReqs s r.part).filter fun x => x.2.st != .draining
  (if r.st = .waitingPage then sortBy waitingLt (l.filter fun x => x.2.st == .waitingPage)
   else if r.classE then sortBy classELt (l.filter fun x => x.2.classE && x.2.st != .waitingPage)
   else prefillQueue s r.service l).map Prod.fst

/-- NEXT of an entry (R241): the handle after it in its queue, 0 where it is the last or stands in none. -/
def nextOf (s : State) (h : Nat) : Nat := (((queueOf s (reqGet s h)).dropWhile (· != h)).drop 1).headD 0

/-! ### Costs of a round (R257) -/

/-- Parameters at the largest values that R244 can give them for the requests counted. -/
def maxParams (s : State) (p : Nat) (v : BitVec 256) (l : List (Nat × Req)) (prefill : Bool) : List Nat :=
  let t := tokOf s p
  [lsum (l.map fun x => x.2.maxLen), if prefill then svChunk v else l.length, l.length, 1,
   lmax (l.map fun x => cdiv x.2.maxLen t), 0, 0, 0]

/-- Beats of a service's part of a round: its prefill step, its decode step, its copies. Each step is costed by the entries that the requests were admitted with (R26), the costliest of them. -/
def serviceBeats (s : State) (p k : Nat) (l : List (Nat × Req)) : Nat :=
  match serviceOf s p k with
  | none => 0
  | some v =>
    let c (f : Req → Option (BitVec 256)) (pre : Bool) : Nat :=
      lmax ((l.filterMap fun x => f x.2).map fun e => costBeats e (maxParams s p v l pre))
    c Req.costPre true + c Req.costDec false + svCopyPages v * svCopyBeats v

/-- Beats and gap ns of a round over given requests. -/
def roundCost (s : State) (p : Nat) (l : List (Nat × Req)) : Nat × Nat :=
  (servicesOf s p).foldl (fun acc k =>
    let m := l.filter fun x => x.2.service == k
    if m = [] then acc else (acc.1 + serviceBeats s p k m, acc.2 + 4000)) (0, 0)

/-- R_G over given Class G requests, scaled as `costTime`. -/
def roundTime (s : State) (p : Nat) (l : List (Nat × Req)) : Nat :=
  let c := roundCost s p l
  costTime s c.1 c.2

/-- Non-terminal Class G requests of a partition. -/
def liveG (s : State) (p : Nat) : List (Nat × Req) := (liveReqs s p).filter fun x => !x.2.classE

/-! ### The end of a request (R248, R252, R253) -/

/-- Issue a request's completion, or hold it behind the step that is held for comparison (R446). -/
def reqCompl (s : State) (h : Nat) (held : Bool) (c : Compl) : State :=
  let r := reqGet s h
  let c := { c with reqId := reqId h r, tag := r.hostTag }
  if held || (mget s.car.heldOut r.part).isSome then
    let seq := mgetD s.pair.stepSeq r.part 0
    { s with car := { s.car with heldOut := mupd s.car.heldOut r.part [] fun l => l ++ [(seq, r.cring, complBits s c)] } }
  else complTo s r.part r.cring c

/-- Release what a request holds (R248): pages, record, reservation, staging slot. -/
def reqRelease (s : State) (h : Nat) : State :=
  let r := reqGet s h
  let s := each (r.pages.filter fun x => pgPresent x.2) (fun s x => decRef s r.part (fld x.2 27 0)) s
  let step := match (poolGet s r.part).pageExp with | some n => 2 ^ n | none => 1
  let s := each (List.range r.recFrames) (fun s i =>
    let f := r.recFrame + i * step
    if (frameGet s r.part f).st = .fenced then s else frameFree s r.part f) s
  retainFix (reqSet s h { r with pages := [], recFrames := 0, recBytes := 0, reserved := [0, 0, 0, 0], extra := [0, 0, 0, 0], ioSlot := none }) r.part

/-- Retiring variants of a partition with no request left start their rebuild (R285). -/
def variantIdle (s : State) (p : Nat) : State :=
  let due := s.variants.filter fun x => x.1 / 4096 == p && x.2.st == .retiring && !x.2.rebuilding
    && !(liveReqs s p).any fun y => y.2.variant == x.1 % 4096
  each due (fun s x =>
    rebuildAsk { s with variants := mset s.variants x.1 { x.2 with rebuilding := true } } [] [(p, x.1 % 4096)]) s

/-- End a request: its terminal state, its release and its FINAL (R247, R248, R253); while its function is disabled nothing is written (R493) and the entry returns to FREE. -/
def reqEnd (s : State) (h : Nat) (st : ReqState) (code : Nat) (held : Bool) : State :=
  let p := (reqGet s h).part
  let s := reqRelease s h
  let s := reqSet s h { reqGet s h with st := st, final := code }
  let s := if st = .cancelled then bump64 s 0x3015 (p + 1) else s
  let s :=
    if (fnGet s (p + 1)).disabling then reqSet s h { gen := ((reqGet s h).gen + 1) % 4096 }
    else reqCompl s h held { kind := 3, status := code, value := 0 }
  variantIdle s p

/-- Abort a partition's step on every context it was dispatched to (R127, R267). -/
def stepAbort (s : State) (p : Nat) : State :=
  match mget s.car.steps p with
  | none => s
  | some x => each x.ctxs (fun s c => ctxEnd s c fcAbort) s

/-- End a request by cancellation or fault, outside a step commit (R247, R267, R269): at once, or by way of DRAINING when a step in flight names it. -/
def reqCancel (s : State) (h code : Nat) (failed : Bool) : State :=
  let r := reqGet s h
  if r.st = .draining then reqSet s h { r with final := code }
  else if !live r then s
  else if inStep s r.part h then
    let s := reqSet s h { r with st := .draining, final := code }
    match mget s.car.steps r.part with
    | some x => if x.batch.length ≤ 1 then stepAbort s r.part else s
    | none => s
  else reqEnd s h (if failed then .failed else .cancelled) code false

/-- End every request of a partition (R269, R494), aborting its step. -/
def partReqsEnd (s : State) (p code : Nat) : State :=
  let s := each ((liveReqs s p).map Prod.fst) (fun s h => reqCancel s h code false) s
  stepAbort s p

/-! ### Submission entries (R251, R497) -/

/-- OP. -/
def eOp (e : W512) : Nat := fld e 507 504
/-- CRING. -/
def eCring (e : W512) : Nat := fld e 503 500
/-- CLASS. -/
def eClassE (e : W512) : Bool := bit e 499
/-- PRIO. -/
def ePrio (e : W512) : Nat := fld e 498 496
/-- SERVICE. -/
def eService (e : W512) : Nat := fld e 495 493
/-- IN_SPACE. -/
def eInTray (e : W512) : Bool := bit e 492
/-- OUT_SPACE. -/
def eOutTray (e : W512) : Bool := bit e 491
/-- FORK. -/
def eFork (e : W512) : Bool := bit e 490
/-- VARIANT. -/
def eVariant (e : W512) : Nat := fld e 489 474
/-- MAXLEN. -/
def eMaxLen (e : W512) : Nat := fld e 473 454
/-- PROMPT_LEN. -/
def ePrompt (e : W512) : Nat := fld e 453 434
/-- TTFT_BUDGET. -/
def eTtft (e : W512) : Nat := fld e 433 410
/-- TBT_BUDGET. -/
def eTbt (e : W512) : Nat := fld e 409 386
/-- REF_ID. -/
def eRef (e : W512) : Nat := fld e 385 354
/-- IN_ADDR. -/
def eIn (e : W512) : Nat := fld e 319 256
/-- OUT_ADDR. -/
def eOut (e : W512) : Nat := fld e 255 192
/-- HOST_TAG. -/
def eTag (e : W512) : BitVec 64 := BitVec.ofNat 64 (fld e 191 128)
/-- ARG_ADDR. -/
def eArgAddr (e : W512) : Nat := fld e 127 80
/-- ARG_LEN. -/
def eArgLen (e : W512) : Nat := fld e 79 48
/-- ARG_DIE. -/
def eArgDie (e : W512) : Nat := fld e 47 46
/-- VER is 1 and OP is one of R251. -/
def eLegal (e : W512) : Bool := fld e 511 508 == 1 && decide (eOp e ≤ 6)

/-- Count host values clamped (R498): CLAMPS of the function and OD 0x7C10. -/
def hostClamp (s : State) (f n : Nat) : State :=
  if n = 0 then s
  else
    let x := fnGet s f
    bumpBy (fnSet s f { x with clamps := min (x.clamps + n) (2 ^ 32 - 1) }) 0x7C10 0 64 n

/-- Count a discarded write or doorbell (R485, R487). -/
def discard (s : State) (f : Nat) : State :=
  let x := fnGet s f
  fnSet s f { x with discards := min (x.discards + 1) (2 ^ 32 - 1) }

/-- Store a field and say whether it changed. -/
def eClamp (acc : W512 × Nat) (hi lo v : Nat) : W512 × Nat :=
  if fld acc.1 hi lo = v then acc else (put acc.1 hi lo v, acc.2 + 1)

/-- The numeric fields of an entry clamped (R497), with the count of clamps. -/
def eClamped (s : State) (p : Nat) (e : W512) : W512 × Nat :=
  let c := eCring e
  let acc := eClamp (e, 0) 503 500 (if c < 8 ∧ (cqGet (fnGet s (p + 1)) c).log2 ≠ 0 then c else 0)
  if eOp e = 1 ∧ eLegal e then
    let top := ((serviceOf s p (eService e)).map svMaxLen).getD (eMaxLen e)
    let ml := max 1 (min (eMaxLen e) top)
    let acc := eClamp acc 473 454 ml
    let acc := eClamp acc 453 434 (max 1 (min (ePrompt e) ml))
    let acc := eClamp acc 433 410 (max 1 (eTtft e))
    eClamp acc 409 386 (max 1 (eTbt e))
  else if (eOp e = 4 ∨ eOp e = 5) ∧ eLegal e then eClamp acc 79 48 (max 1 (eArgLen e))
  else acc

/-- The Carousel is powered and clocked (R384). -/
def carOn (s : State) : Bool := s.tray.hub.carouselDma && clkRuns s 0x16

/-- The entries that the Carousel can take up. -/
def takenQueue (s : State) : List Taken := if carOn s then s.car.taken else []

/-- The entry that a command of OP `op` takes up: the first of its function that does not wait, or one that waits for that same OP (R250, R260). -/
def takenPick (l : List Taken) (op : Nat) : Option (Nat × Taken) :=
  (l.zipIdx.find? fun x =>
    let t := x.1
    let legal := if op = 1 then eOp t.entry == 1 || !eLegal t.entry else eLegal t.entry && eOp t.entry == op
    legal && (t.waiting || !(l.take x.2).any fun u => u.f == t.f && !u.waiting)).map fun x => (x.2, x.1)

/-- Remove an entry from the queue and count it as taken up (R255). -/
def takenDrop (s : State) (i : Nat) (t : Taken) : State :=
  { s with car := { s.car with
    taken := s.car.taken.eraseIdx i
    subCount := mupd s.car.subCount (8 * (t.f.val + 1) + t.ring.val) 0 (· + 1) } }

/-- Leave an entry waiting (R128, R502). -/
def takenWait (s : State) (i : Nat) (t : Taken) : State :=
  { s with car := { s.car with taken := s.car.taken.set i { t with waiting := true } } }

/-- A range of HBM lies in granules OWNED by a partition (R150, R251). -/
def hbmOwned (s : State) (p a n : Nat) : Bool :=
  (List.range ((a + max n 1 - 1) / 2 ^ 21 + 1 - a / 2 ^ 21)).all fun i =>
    let g := a / 2 ^ 21 + i
    let e := granGet s g
    granBacked s g && e.st == .owned && e.owner.toNat == p

/-- A REJECT (R253), counted in OD 0x3014. -/
def reject (s : State) (p : Nat) (e : W512) (status : Nat) : State :=
  bump64 (complTo s p (eCring e) { kind := 4, status := status, tag := eTag e }) 0x3014 (p + 1)

/-- A COMMAND completion (R253). -/
def commandDone (s : State) (p : Nat) (e : W512) (status value : Nat) : State :=
  complTo s p (eCring e) { kind := 6, status := status, tag := eTag e, value := value }

/-- A cancel that has arrived and not been taken up names the request (R268). -/
def cancelArrived (s : State) (h : Nat) : Bool :=
  let r := reqGet s h
  s.car.taken.any fun t => eLegal t.entry && eOp t.entry == 2 && t.f.val == r.part && eRef t.entry == reqId h r

/-- SUBMISSION_NOP (R251). -/
def execSubmissionNop (s : State) : Res :=
  match takenPick (takenQueue s) 0 with
  | none => .next s
  | some (i, t) =>
    let c := eClamped s t.f.val t.entry
    .next (takenDrop (hostClamp s (t.f.val + 1) c.2) i t)

/-- CANCEL (R240, R253, R266 to R268). -/
def execCancel (s : State) : Res :=
  match takenPick (takenQueue s) 2 with
  | none => .next s
  | some (i, t) =>
    let p := t.f.val
    let (e, n) := eClamped s p t.entry
    let s := hostClamp (takenDrop s i t) (p + 1) n
    let id := eRef e
    let h := id / 4096
    let r := reqGet s h
    let ack (s : State) (st : Nat) : State := complTo s p (eCring e) { kind := 5, status := st, reqId := id, tag := eTag e }
    if r.st = .free ∨ r.gen % 4096 ≠ id % 4096 ∨ r.part ≠ p then .next (ack s 80)
    else
      match r.st with
      | .done | .cancelled | .failed => .next (ack s 81)
      | .draining => .next (ack s 0)
      | _ =>
        if r.cxl then .next (ack s 0)
        else
          let s := ack (reqSet s h { r with cxl := true }) 0
          if odGet s 0x3010 (p + 1) = 1 ∧ inStep s p h then .next s
          else .next (reqCancel s h 16 false)

end Sys2Proof.Machine
end

