-- ==== Sys2Proof/Machine/Image.lean ====
section
/-! DEFINITION. The checks of an image load and its commit (R28, R128, R135, R151, R177, R186, R199, R207, R208, R243, R253, R257, R277, R288, R540). -/

namespace Sys2Proof.Machine

open Sys2Proof

/-! ### Bundles (R128) -/

/-- What a pass over the bundles of a die carries: open loops, the step open, whether a check has failed. -/
structure LoadScan where
  loops : List (Nat × Nat) := []
  step : Option Nat := none
  bad : Bool := false
  deriving DecidableEq, Repr

/-- Address of the next STEP_END at or after an address. -/
def stepEndAt (bs : List (BitVec 4096)) (a : Nat) : Option Nat :=
  ((List.range (bs.length - a)).map (a + ·)).find? fun i => seqop (bundleHead (bs.getD i 0)) == 5

/-- One bundle of the pass: loops, jumps and steps (R103, R128). -/
def scanBundle (bs : List (BitVec 4096)) (size : Nat) (st : LoadScan) (x : BitVec 4096 × Nat) : LoadScan :=
  let h := bundleHead x.1
  let a := x.2
  let lvl := fld h 103 101
  let tgt := fld h 71 56
  match seqop h with
  | 1 =>
    let nested := match st.loops with | (l, _) :: _ => decide (lvl ≤ l) | [] => false
    { st with loops := (lvl, a) :: st.loops
              bad := st.bad || nested || decide (st.loops.length ≥ 8) || (!bit h 95 && fld h 94 72 == 0) }
  | 2 =>
    match st.loops with
    | [] => { st with bad := true }
    | (l, b) :: t => { st with loops := t, bad := st.bad || l != lvl || tgt != b + 1 || decide (tgt ≥ size) }
  | 3 =>
    let ok := decide (a < tgt) && decide (tgt < size)
      && (match stepEndAt bs a with | some e => decide (tgt ≤ e) | none => false)
    { st with bad := st.bad || !ok || st.step.isNone }
  | 4 => { st with step := some (fld h 87 72), bad := st.bad || st.step.isSome }
  | 5 => { st with step := none }
  | n => { st with bad := st.bad || decide (n > 6) }

/-- The bundles of a die have a structural fault (R128). -/
def bundlesBad (bs : List (BitVec 4096)) (size : Nat) : Bool :=
  let st := (bs.zipIdx).foldl (scanBundle bs size) {}
  st.bad || st.step.isSome || st.loops != [] || decide (bs.length > size)

/-- A LANE_EN bit or a slice outside the lane mask is nonzero (R128). -/
def lanesBad (mask : Nat) (b : BitVec 4096) : Bool :=
  (List.range 8).any fun n => !mask.testBit n && ((bundleHead b).getLsbD (104 + n) || bundleLane b n != 0)

/-- What an image gives a core in one of its per-core tables. -/
def coreTable (l : List (Nat × List (BitVec 64))) (k : Nat) : List (BitVec 64) := ((l.find? fun x => x.1 == k).map Prod.snd).getD []

/-- A vector table entry with a reserved opcode, or a CVT of a reserved format (R30, R117, R128). -/
def ventryBad (e : BitVec 64) : Bool :=
  !opcLegal (fld e 63 56) || (fld e 63 56 == 0x20 && (decide (fld e 31 28 > 10) || decide (fld e 27 24 > 10)))

/-- A reserved encoding in the core words of a die's lanes, enabled or not (R127, R128). -/
def wordsBad (vt : List (Nat × List (BitVec 64))) (d : Nat) (b : BitVec 4096) : Bool :=
  (List.range 8).any fun n => (List.range 8).any fun c =>
    let core : Core := { vtable := ((coreTable vt (64 * d + 8 * n + c)).zipIdx).map fun x => (x.2, x.1) }
    wordBad core (fld (bundleLane b n) (60 * c + 59) (60 * c))

/-- A cost entry whose P0_SEL or P1_SEL is reserved (R128, R129). -/
def selBad (e : BitVec 256) : Bool := [fld e 119 116, fld e 115 112].any fun x => decide (8 ≤ x) && decide (x ≤ 14)

/-- Sync table entries that the bundles of a step use on a lane of the die: for WAIT (bit 0 of SYNC_OP), or for POST (bit 1). -/
def entriesUsed (post : Bool) (bs : List (BitVec 4096)) (step lane : Nat) : List Nat :=
  (bs.foldl (fun (acc : Option Nat × List Nat) b =>
    let h := bundleHead b
    let cur := if seqop h = 4 then some (fld h 87 72) else acc.1
    let sl := bundleLane b lane
    let use := decide (cur = some step) && h.getLsbD (104 + lane) && sl.getLsbD (if post then 495 else 494)
    (if seqop h = 5 then none else cur, if use then (if post then fld sl 489 486 else fld sl 493 490) :: acc.2 else acc.2)) (none, [])).2

/-- Contexts of a partition. -/
def partCtxs (s : State) (p : Nat) : List Nat :=
  (s.seq.ctxs.filter fun x => x.2.part.map Fin.val == some p).map Prod.fst

/-- Bundles that an image gives a die. -/
def dieBundles (img : Image) (d : Nat) : List (BitVec 4096) :=
  ((img.bundles.find? fun x => x.1.val == d).map Prod.snd).getD []

/-- Quadrants that a partition owns. -/
def partQuads (s : State) (p : Nat) : Nat := ((mget s.gate.parts p).map fun x => x.quads.toNat).getD 0

/-- Cost entries present in a table. -/
def costEntries (t : List (BitVec 256)) : List (BitVec 256) := (List.range t.length).filterMap (costAt t)

/-- Quadrants fenced, with those of fenced dies (R540). -/
def fencedMask (s : State) : Nat :=
  s.flash.fencedQuads.toNat ||| maskOf ((bitsOf 4 s.flash.fencedDies.toNat).flatMap fun d => (List.range 4).map (4 * d + ·))

/-- A sync table in the lane setup block of one of an image's steps names an illegal location in an entry that RESET or the step's bundles use (R28, R125). -/
def setupLocBad (s : State) (p : Nat) (img : Image) : Bool :=
  (partCtxs s p).any fun c => (costEntries img.cost).any fun x => (ctxLanes s c).any fun l =>
    let step := fld x 255 240
    let b := img.setupBase.getD (c / 4) 0 + (step * 8 + l % 8) * 2048
    let bs := dieBundles img (c / 4)
    (List.range 16).any fun e =>
      let w := partNat s p (b + 16 * e) 16
      (w.testBit 98 || (entriesUsed false bs step (l % 8)).contains e || (entriesUsed true bs step (l % 8)).contains e)
      && !locLegal (nfld w 127 108)

/-- R28: versions, and the locations that the image names, those of its sync tables and of its lane setup blocks included. -/
def fails28 (s : State) (p : Nat) (img : Image) : Bool :=
  setupLocBad s p img ||
  img.bundleVer != 1 || img.descVer != 1 || img.locs.any (fun l => !locLegal l.toNat)
  || img.syncTables.any (fun t => t.2.2.any fun e => !locLegal (fld e 127 108))
  || img.bundles.any fun x => x.2.any fun b => fld (bundleHead b) 127 124 != 1

/-- A WAIT entry that a step's bundles use on a lane names a counter outside the lane's cluster (R128). -/
def waitBad (img : Image) (l step : Nat) (entry : Nat → Nat) : Bool :=
  (entriesUsed false (dieBundles img (l / 8)) step (l % 8)).any fun e => entry e != locOfClus l

/-- R128 for the sync tables: those that the image brings, and those in the lane setup blocks of its steps (R125). -/
def waitsBad (s : State) (p : Nat) (img : Image) : Bool :=
  img.syncTables.any (fun t => waitBad img t.2.1.val t.1 fun e => fld (t.2.2.getD e 0) 127 108)
  || (partCtxs s p).any fun c => (costEntries img.cost).any fun x => (ctxLanes s c).any fun l =>
      let b := img.setupBase.getD (c / 4) 0 + (fld x 255 240 * 8 + l % 8) * 2048
      waitBad img l (fld x 255 240) fun e => nfld (partNat s p (b + 16 * e) 16) 127 108

/-- R128. -/
def fails128 (s : State) (p : Nat) (img : Image) : Bool :=
  (partCtxs s p).any (fun c =>
    let x := ctxGet s c
    let bs := dieBundles img (c / 4)
    bundlesBad bs (regionSize x) || bs.any (lanesBad x.laneMask.toNat) || bs.any (wordsBad img.vtable (c / 4))
    || (costEntries img.cost).any fun e => decide (fld e 231 216 ≥ regionSize x))
  || (costEntries img.cost).any (fun e =>
    let q := fld e 215 200
    q == 0 || (q &&& partQuads s p) != q || selBad e)
  || img.cost.length > 4096
  || img.vtable.any (fun t => t.2.any ventryBad)
  || img.setups.any (fun t => t.2.any fun w => decide (fld w 63 60 > 9) || decide (fld w 59 56 > 9) || decide (fld w 55 52 > 10))
  || waitsBad s p img

/-- R151. -/
def fails151 (s : State) (p : Nat) (img : Image) : Bool :=
  (costEntries img.cost).any fun e => decide (fld e 111 96 > lsum ((List.range 4).map (shareOf s p)))

/-- R177: a CONV slot naming an MX element format. -/
def fails177 (img : Image) : Bool :=
  img.slots.any fun w => fld w 511 508 == 1 && fld w 507 505 == 1 && decide (2 ≤ fld w 504 501) && decide (fld w 504 501 ≤ 7)

/-- R186. -/
def fails186 (img : Image) : Bool :=
  img.slots.any fun w =>
    let f (hi lo : Nat) : Int := fld w hi lo
    let pb := (f 327 316 - 1) * (f 295 292 + 1) + (f 303 300 - 1) * f 287 280 + 1 - f 375 364 - f 271 264
    let pr := (f 315 304 - 1) * (f 291 288 + 1) + (f 299 296 - 1) * f 279 272 + 1 - f 363 352 - f 263 256
    fld w 511 508 != 1 || decide (fld w 507 505 > 1) || decide (fld w 504 501 > 10)
    || (fld w 507 505 == 1 && fld w 504 501 == 10)
    || (fld w 507 505 == 1
        && (decide (pb < 0) || decide (pb > 255) || decide (pr < 0) || decide (pr > 255)
            || fld w 303 300 == 0 || fld w 299 296 == 0 || fld w 287 280 == 0 || fld w 279 272 == 0
            || decide (fld w 235 228 + fld w 243 236 > 128)))

/-- R199 and R277: jobs on a die engine that the partition does not own. -/
def failsOwner (s : State) (p idx : Nat) (dies : List (Fin 4)) : Bool := dies.any fun d => odGet s idx (d.val + 1) != p

/-- Present services of an image. -/
def imgServices (img : Image) : List (BitVec 256) := img.services.filter fun v => fld v 255 252 == 1

/-- R207. -/
def fails207 (img : Image) : Bool :=
  (img.kv == [] && (imgServices img).any fun v => !svOne v) || img.kv.length > 128
  || img.kv.any fun e => fld e 63 60 != 1

/-- R208: the table itself, and the pool that is laid out. -/
def fails208 (s : State) (p : Nat) (img : Image) : Bool :=
  img.kv.any (fun e =>
    (pageExpOf (kvPage e)).isNone || fld e 53 46 * fld e 45 36 % 64 != 0 || fld e 59 58 == 3
    || !([0, 2, 6, 7].contains (fld e 57 54)) || kvTok e != kvTok (img.kv.headD 0) || kvPage e != kvPage (img.kv.headD 0)
    || (partQuads s p >>> (4 * fld e 19 18)) % 16 == 0)
  || (match img.kv with
      | [] => false
      | e :: _ => !poolIdle (poolGet s p) && pageExpOf (kvPage e) != (poolGet s p).pageExp)

/-- R243. -/
def fails243 (img : Image) : Bool :=
  (imgServices img).any fun v =>
    (costAt img.cost (svPrefill v)).isNone || (svOne v && svDecode v != 0xFFF)
    || (svDecode v != 0xFFF && (costAt img.cost (svDecode v)).isNone)

/-- R257: a FORK_EN service whose COPY_PAGES is below 2L. -/
def fails257 (img : Image) : Bool :=
  (imgServices img).any fun v => svFork v && decide (svCopyPages v < 2 * img.kv.length)

/-- R540: QUADS naming a fenced quadrant. -/
def fails540 (s : State) (img : Image) : Bool :=
  (costEntries img.cost).any fun e => (fld e 215 200 &&& fencedMask s) != 0

/-- R283: VAR_PER_STEP outside 1 to 256, or a MAX_TILES that OD 0x3804 cannot read. -/
def fails283 (img : Image) : Bool := img.varPerStep == 0 || decide (img.varPerStep > 256) || decide (img.maxTiles ≥ 2 ^ 32)

/-- Label of the first check that an image fails (R253). -/
def imageFail (s : State) (p : Nat) (img : Image) : Option Nat :=
  ([(28, fails28 s p img), (128, fails128 s p img), (151, fails151 s p img), (177, fails177 img), (186, fails186 img),
    (199, failsOwner s p 0x4030 img.pinwheelDies), (207, fails207 img), (208, fails208 s p img), (243, fails243 img),
    (257, fails257 img), (283, fails283 img), (277, failsOwner s p 0x3805 img.deltaDies), (540, fails540 s img)].find? fun x => x.2).map Prod.fst

/-! ### Commit (R128, R135, R208, R288) -/

/-- Write the bundles of an image into a context's region, and its vector table and setups into the cores of its lanes (R71, R99, R117). -/
def ctxLoad (s : State) (p : Nat) (img : Image) (c : Nat) : State :=
  let d := c / 4
  let x := ctxGet s c
  let s := each (dieBundles img d).zipIdx (fun s b =>
    match bundleNo x b.2 with
    | some n =>
      { s with seq := { s.seq with
        imem := mset s.seq.imem (8192 * d + n) b.1
        imemOwner := mset s.seq.imemOwner (8192 * d + n) (BitVec.ofNat 6 p) } }
    | none => s) s
  let s := ctxSet s c { x with setupBase := img.setupBase.getD d 0 }
  let byNo (l : List (Nat × List (BitVec 64))) (k : Nat) : SMap (BitVec 64) := ((coreTable l k).zipIdx).map fun e => (e.2, e.1)
  each ((ctxLanes s c).flatMap fun l => (List.range 8).map (8 * l + ·)) (fun s k =>
    coreSet s k { coreGet s k with vtable := byNo img.vtable k, setups := byNo img.setups k }) s

/-- Variants that an image makes retire as its load commits (R288). -/
def retireFor (s : State) (p : Nat) (img : Image) : State :=
  let same := match imageOf s p with | some l => l.img.baseId == img.baseId | none => true
  { s with variants := s.variants.map fun x =>
      if x.1 / 4096 = p ∧ x.2.st = .active ∧ (!same ∨ x.2.tiles > img.maxTiles) then (x.1, { x.2 with st := .retiring }) else x }

/-- The load commits (R128, R208, R285, R288): tables, contexts, pool layout, and dispatches held no longer. -/
def loadCommit (s : State) (p : Nat) (img : Image) : State :=
  let s := variantIdle (retireFor s p img) p
  let s := { s with car := { s.car with
    images := mset s.car.images p { img := img }
    loadHold := s.car.loadHold.filter (· ≠ p) } }
  let s := each (partCtxs s p) (fun s c => ctxLoad s p img c) s
  match img.kv with
  | [] => s
  | e :: _ =>
    let x := poolGet s p
    if pageExpOf (kvPage e) = x.pageExp then s
    else poolLayout s p (odGet s 0x3020 (p + 1)) (pageExpOf (kvPage e))

/-- Beats × 256 that a cost entry counts for one unit of parameter register i (R130). -/
def costPer (e : BitVec 256) (i : Nat) : Nat :=
  (if fld e 119 116 = i then fld e 167 144 else 0) + (if fld e 115 112 = i then fld e 143 120 else 0)

/-- Values of a parameter among which the new cost exceeds the old one by most: with an old charge the rounding of R130 sees its residue modulo 256, so of each residue the largest or the smallest value; with none, the largest value. -/
def worstParams (old new : Nat) : List Nat :=
  if old = 0 then [2 ^ 32 - 1] else (List.range 256).map fun r => if old < new then 2 ^ 32 - 256 + r else r

/-- The cost of R130 is no more in the new entry than in the old one, at every choice of worst values for the registers still to choose. -/
def noMoreAt (a b : BitVec 256) : List Nat → Nat → Nat → Bool
  | [], x, y => decide (fld b 199 168 + cdiv y 256 ≤ fld a 199 168 + cdiv x 256)
  | i :: t, x, y =>
    (worstParams (costPer a i) (costPer b i)).all fun v => noMoreAt a b t (x + costPer a i * v) (y + costPer b i * v)

/-- No parameter values make a new cost entry cost more than the old one (R130, R135). -/
def entryNoMore (a b : BitVec 256) : Bool := noMoreAt a b (List.range 8) 0 0

/-- No STEP_ID costs more in the new table than in the old one (R135). -/
def costNoMore (old new : List (BitVec 256)) : Bool :=
  (List.range new.length).all fun i =>
    match costAt old i, costAt new i with
    | some a, some b => entryNoMore a b
    | none, some _ => true
    | _, none => true

/-- A step of the partition runs or waits for its replay. -/
def stepRunning (s : State) (p : Nat) : Bool :=
  (mget s.car.steps p).isSome || (partCtxs s p).any fun c => (ctxGet s c).step.isSome

/-- The label with which a load is rejected (R253): its image lies in the partition's memory and passes every check. -/
def loadFail (s : State) (p : Nat) (e : W512) (img : Image) : Option Nat :=
  let active := ((mget s.gate.parts p).map Partn.st).getD .free == .active
  let owned := hbmOwned s p (eArgAddr e) (max 1 (eArgLen e))
  if active && owned then imageFail s p img else some 28

/-- A load commits, or is rejected with the first label that fails (R128, R253). -/
def loadTry (s : State) (p : Nat) (e : W512) (img : Image) : State :=
  match loadFail s p e img with
  | some lbl => commandDone s p e 64 lbl
  | none => commandDone (loadCommit s p img) p e 0 0

/-- A load must stay pending (R135): Class G requests are not terminal and a step would cost more, or an earlier load is pending. -/
def loadPends (s : State) (p : Nat) (img : Image) : Bool :=
  (mget s.car.pendingLoads p).isSome
  || (match imageOf s p with | some l => liveG s p != [] && !costNoMore l.img.cost img.cost | none => false)

/-- LOAD_IMAGE (R28, R128, R135, R253): waits for the partition's running step, then loads, is rejected, or stays pending under R135. -/
def execLoadImage (img : Image) (s : State) : Res :=
  match takenPick (takenQueue s) 3 with
  | none => .next s
  | some (i, t) =>
    let p := t.f.val
    let (e, n) := eClamped s p t.entry
    if !t.waiting && stepRunning s p then
      let s := takenWait (hostClamp s (p + 1) n) i { t with entry := e }
      .next { s with car := { s.car with loadHold := p :: s.car.loadHold } }
    else if stepRunning s p then .next s
    else
      let s := takenDrop (hostClamp s (p + 1) n) i t
      let s := { s with car := { s.car with loadHold := s.car.loadHold.filter (· ≠ p) } }
      if (loadFail s p e img).isNone && loadPends s p img then
        let waiting := mupd s.car.pendingLoads p [] fun l => l ++ [({ t with entry := e }, img)]
        .next { s with car := { s.car with pendingLoads := waiting } }
      else .next (loadTry s p e img)

/-- COST_TABLE_COMMIT (R135): the last Class G request has reached a terminal state; the pending loads commit in order, each under the checks as they stand now (R208). -/
def execCostTableCommit (p : PartId) (s : State) : Res :=
  match mget s.car.pendingLoads p.val with
  | none => .next s
  | some l =>
    if liveG s p.val ≠ [] ∨ stepRunning s p.val then .next s
    else
      let s := { s with car := { s.car with pendingLoads := mdel s.car.pendingLoads p.val } }
      .next (each l (fun s x => loadTry s p.val x.1.entry x.2) s)

end Sys2Proof.Machine
end

