-- ==== Sys2Proof/Machine/Submit.lean ====
section
/-! DEFINITION. Admission of requests, and the ALLOC, FREE and DMA entries (R173, R251, R256 to R260, R284, R287, R429, R445, R502). -/

namespace Sys2Proof.Machine

open Sys2Proof

/-! ### The checks of R256 -/

/-- A fork's parent, where REF_ID names a live sequence of the partition (R251). -/
def forkParentOf (s : State) (p : Nat) (e : W512) : Option (Nat × Req) :=
  match reqNamed s (eRef e) with
  | some (h, r) => if live r && r.st != .draining && r.part == p && !reqOne s r then some (h, r) else none
  | none => none

/-- A variant that a SUBMIT may name (R287). -/
def variantOk (s : State) (p v : Nat) : Bool :=
  v == 0 || (match mget s.variants (4096 * p + v) with | some x => decide (v < 4096) && x.st == .active | none => false)

/-- Format and references (R251, R253, R256): 0, or BAD_REQUEST or NO_IMAGE. -/
def checkFormat (s : State) (p : Nat) (e : W512) : Nat :=
  if !eLegal e then 53
  else
    match imageOf s p with
    | none => 54
    | some l =>
      match serviceOf s p (eService e) with
      | none => 53
      | some v =>
        if l.faulted.contains (eService e) then 54
        else if !variantOk s p (eVariant e) then 53
        else if !eClassE e && !eInTray e then 53
        else if eInTray e && !hbmOwned s p (eIn e) (if svOne v then inBytes s p (eService e) else 4 * ePrompt e) then 53
        else if eOutTray e && !hbmOwned s p (eOut e) (if svOne v then outBytes s p (eService e) else 1) then 53
        else if eFork e then
          (if !svFork v || svOne v then 53
           else match forkParentOf s p e with
             | none => 53
             | some (_, r) => if r.len + ePrompt e > eMaxLen e then 53 else 0)
        else 0

/-- Class admission and risk (R253, R256, R265, R367, R529). -/
def admitting (s : State) (p : Nat) (e : W512) : Bool :=
  (odGet s 0x3000 (p + 1)).testBit (if eClassE e then 1 else 0)
  && ((mget s.gate.parts p).map Partn.st).getD .free == .active
  && (s.pair.role == .unpaired || s.pair.role == .active || s.pair.role == .follower)
  && odGet s 0x3012 (p + 1) % 8 == 0 && !(eClassE e && s.wv.rideThrough)
  && s.tray.drain == .none && !s.tray.failed && !s.wv.shuttingDown

/-- Entries of a partition that are not FREE (R242). -/
def usedEntries (s : State) (p : Nat) : Nat := (s.car.reqs.filter fun x => x.2.st != .free && x.2.part == p).length

/-- The lowest staging slot of a service that no request holds (R243, R248). -/
def freeIoSlot (s : State) (p k : Nat) (v : BitVec 256) : Option Nat :=
  (List.range (svIoSlots v)).find? fun n => !(s.car.reqs.any fun x => x.2.part == p && x.2.service == k && x.2.ioSlot == some n)

/-- Queue and staging (R253, R257, R259). -/
def checkQueue (s : State) (p : Nat) (e : W512) (v : BitVec 256) : Bool :=
  let k := eService e
  (eClassE e || decide ((prefillQueue s k (liveReqs s p)).length < odGet s 0x3002 (p + 1)))
  && (!svOne v || (freeIoSlot s p k v).isSome)
  && !(eFork e && !eClassE e && (liveG s p).any fun x => x.2.service == k && x.2.forkPending)

/-- Variants distinct and nonzero among requests. -/
def variantCount (l : List (Nat × Req)) : Nat := (nodup ((l.map fun x => x.2.variant).filter (· ≠ 0))).length

/-- R284: admitting the new request raises the number of nonzero variants of its service above VAR_PER_STEP. -/
def variantOver (vps : Nat) (new : Req) (l : List (Nat × Req)) : Bool :=
  let m := l.filter fun x => x.2.service == new.service
  new.variant != 0 && !(m.any fun x => x.2.variant == new.variant) && decide (variantCount m + 1 > vps)

/-- R258 and R284: the round with the new request counted, and its variant among those there. -/
def checkRound (s : State) (p h : Nat) (new : Req) (l : List (Nat × Req)) : Bool :=
  let vps := ((imageOf s p).map fun x => x.img.varPerStep).getD 0
  let rg := roundTime s p (l ++ [(h, new)])
  (l ++ [(h, new)]).all (fun x => decide (rg ≤ x.2.tbt * 1000 * (10000 - spread s))) && !variantOver vps new l

/-- Costed time of the round in progress (R259). -/
def roundCur (s : State) (p : Nat) : Nat :=
  match mget s.car.rounds p with
  | some r => costTime s r.beats r.gaps
  | none => 0

/-- R259 for one service's queue: units in queue order against each deadline. -/
def checkQueueTime (s : State) (v : BitVec 256) (rcur rg : Nat) : Nat → List (Nat × Req) → Bool
  | _, [] => true
  | q, (_, r) :: t =>
    let q := q + if svOne v then 1 else r.prefillTo - r.len - r.ahead.length * tokOf s r.part
    let den := 10000 - spread s
    let x10 := if svOne v then 0 else 20000 + 4 * r.promptLen
    decide ((((10 * s.clk.now + x10) * den + 10 * (rcur + cdiv q (max 1 (svChunk v)) * rg) : Nat) : Int) ≤ 10 * deadline r * den)
    && checkQueueTime s v rcur rg q t

/-- The Class G timing checks (R258, R259, R284). -/
def checkTiming (s : State) (p h : Nat) (new : Req) : Bool :=
  let l := liveG s p ++ [(h, new)]
  checkRound s p h new (liveG s p)
  && (servicesOf s p).all fun k =>
    match serviceOf s p k with
    | some v => checkQueueTime s v (roundCur s p) (roundTime s p l) 0 (prefillQueue s k l)
    | none => true

/-- Bytes of a sequence record (R214); a request without layers has none. -/
def recSize (r : Req) : Nat := if r.layers = 0 then 0 else (r.layers * r.bmax + r.maxLen) * 4

/-- Frames of a sequence record (R214). -/
def recFramesOf (s : State) (r : Req) : Nat :=
  match (poolGet s r.part).pageExp with
  | some n => cdiv (recSize r) (16384 * 2 ^ n)
  | none => 0

/-- Pages (R233): the reservations of the request and of a Class G parent are covered, and the record has its run. -/
def checkPages (s : State) (p : Nat) (new : Req) (parentG : Bool) : Bool :=
  let d0 := homeDie s p 0
  let n := recFramesOf s new
  (List.range 4).all (fun d =>
    let need := (if new.classE then 0 else layersOn s p d * new.bmax) + (if d = d0 then n else 0)
      + (if parentG then layersOn s p d else 0)
    decide (need ≤ spareOn s p d))
  && (decide (n = 0) || (frameRun (poolGet s p) d0 n).isSome)

/-! ### Commit -/

/-- The lowest FREE handle (R238, R240). -/
def freeHandle (s : State) : Nat :=
  ((List.range (s.car.reqs.length + 1)).find? fun h => (reqGet s h).st == .free).getD 0

/-- The request that an entry describes, with its token log and prompt (R241, R251). -/
def reqOf (s : State) (t : Taken) (e : W512) (h : Nat) (v : BitVec 256) (par : Option (Nat × Req)) (hostTokens : List W32) : Req :=
  let p := t.f.val
  let n := if svOne v then 1 else ePrompt e
  let bmax := if svOne v then 0 else cdiv (eMaxLen e) (tokOf s p)
  let toks : List W32 :=
    if svOne v then []
    else if eInTray e then (List.range n).map fun i => BitVec.ofNat 32 (partNat s p (eIn e + 4 * i) 4)
    else (List.range n).map fun i => hostTokens.getD i 0
  let old : List W32 := match par with | some (_, r) => r.tokens.take r.len | none => []
  { st := .admitted, gen := (reqGet s h).gen, part := p, cring := eCring e, classE := eClassE e, prio := ePrio e
    service := eService e, outTray := eOutTray e, variant := eVariant e, maxLen := eMaxLen e, promptLen := n
    ttft := eTtft e, tbt := eTbt e, tArrive := t.tArrive, arriveAt := t.arriveAt, hostTag := eTag e, outAddr := eOut e
    inAddr := eIn e, inTray := eInTray e, prefillTo := if svOne v then 0 else old.length + n, bmax := bmax
    layers := if svOne v then 0 else layersOf s p, tokens := old ++ toks, promptAt := old.length
    costPre := costEntry s p (svPrefill v), costDec := if svDecode v = 0xFFF then none else costEntry s p (svDecode v)
    forkParent := par.map Prod.fst, matched := par.isSome, order := s.car.nextOrder, len := old.length
    ioSlot := if svOne v then freeIoSlot s p (eService e) v else none
    risk := !eClassE e && decide (odGet s 0x3012 (p + 1) ≠ 0) }

/-- Blocks of the parent that a fork can share: those below the first frame that already has 65,535 holders (R217). -/
def forkBlocks (s : State) (p : Nat) (r : Req) : Nat :=
  let nb := cdiv r.len (tokOf s p)
  ((List.range nb).find? fun b => (List.range r.layers).any fun l =>
    (frameGet s p (fld (mgetD r.pages (l * r.bmax + b) 0) 27 0)).ref == 65535).getD nb

/-- Share a parent's pages with its fork (R217, R218, R251): COW on both sides, each frame counted. -/
def forkShare (s : State) (h ph : Nat) : State :=
  let r := reqGet s h
  let q := reqGet s ph
  let p := r.part
  let nb := forkBlocks s p q
  let ix := (List.range q.layers).flatMap fun l => (List.range nb).map fun b => (l, b)
  let fs := ix.map fun x => fld (mgetD q.pages (x.1 * q.bmax + x.2) 0) 27 0
  let s := each fs (fun s f => incRef s p f) s
  let qp := ix.foldl (fun m x => mset m (x.1 * q.bmax + x.2) (mgetD m (x.1 * q.bmax + x.2) 0 ||| 0x40000000)) q.pages
  let rp := ix.foldl (fun m x => mset m (x.1 * r.bmax + x.2) (mgetD qp (x.1 * q.bmax + x.2) 0 &&& 0xDFFFFFFF)) r.pages
  let len := min q.len (nb * tokOf s p)
  let tail := decide (q.len % tokOf s p ≠ 0)
  let s := reqSet s h { r with pages := rp, len := len, forkPending := tail }
  let add (l : List Nat) : List Nat := (List.range 4).map fun d => l.getD d 0 + layersOn s p d
  if q.classE then reqSet s ph { q with pages := qp }
  else reqSet s ph { q with pages := qp, reserved := add q.reserved, extra := add q.extra }

/-- Write an admitted request: entry, record, reservation, queues (R214, R233, R256). -/
def admitReq (s : State) (h : Nat) (new : Req) : State :=
  let p := new.part
  let d0 := homeDie s p 0
  let (run, n) := match frameRun (poolGet s p) d0 (recFramesOf s new) with
    | some f => (f, recFramesOf s new)
    | none => (0, 0)
  let step := match (poolGet s p).pageExp with | some e => 2 ^ e | none => 1
  let s := each (List.range n) (fun s i => frameUse s p (run + i * step) new.classE) s
  let res := if new.classE then [0, 0, 0, 0] else (List.range 4).map fun d => layersOn s p d * new.bmax
  let new := { new with
    recDie := d0, recFrame := run, recFrames := n, recBytes := recSize new, reserved := res }
  let s := { s with car := { s.car with nextOrder := s.car.nextOrder + 1 } }
  let s := reqSet s h new
  match new.forkParent with
  | some ph => forkShare s h ph
  | none => s

/-- Status of a SUBMIT decision (R256), 0 when admitted. -/
def decideStatus (s : State) (p h : Nat) (e : W512) (new : Req) (v : BitVec 256) (par : Option (Nat × Req)) : Nat :=
  let parG := match par with | some (_, r) => !r.classE | none => false
  if !admitting s p e then 52
  else if usedEntries s p ≥ odGet s 0x3001 (p + 1) then 50
  else if !checkQueue s p e v then 51
  else if !new.classE && !checkTiming s p h new then 48
  else if !svOne v && !checkPages s p new parG then 49
  else 0

/-- Write bytes of a partition's memory for the Carousel, byte by byte as the checks of R91 and R150 and the power of the quadrant (R16) allow. -/
def partPut (s : State) (p a : Nat) (bs : List Byte) : State :=
  each bs.zipIdx (fun s x =>
    let b := a + x.2
    match placeOf s b with
    | .hbm _ _ => if lineOk s p b then hbmPut s b [x.1] else s
    | .clus c off => if quadOn s (clusQuad c) && quadOwner s (clusQuad c) == p then sramPut s p (clusAddr c off) [x.1] else s
    | .core k off => if quadOn s (coreQuad k) && quadOwner s (coreQuad k) == p then sramPut s p (coreAddr k off) [x.1] else s
    | .bad => s) s

/-- Bring the host input of an admitted ONESHOT request into the tray (R245, R251). -/
def inputPut (s : State) (r : Req) (hostTokens : List W32) : State :=
  match serviceOf s r.part r.service, r.ioSlot with
  | some v, some n =>
    if r.inTray then s
    else partPut s r.part (Config.inputAt v n) ((hostTokens.flatMap fun t => leBytes 4 t.toNat).take (inBytes s r.part r.service))
  | _, _ => s

/-- Admit a request and write its ADMIT completion (R252, R256). -/
def admitDone (s : State) (h : Nat) (new : Req) (hostTokens : List W32) : State :=
  let s := inputPut (admitReq s h new) new hostTokens
  let s := bump64 s 0x3013 (new.part + 1)
  reqCompl s h false { kind := 0, status := 0, value := new.maxLen }

/-- The leader's decision on an entry, where this tray follows (R445). -/
def leaderSays (s : State) (p : Nat) (e : W512) : Option LeaderDecision :=
  s.pair.decisions.find? fun d => d.part.val == p && d.entry == e

/-- A handle under the leader's request ID (R445): that entry takes its generation. -/
def leaderHandle (s : State) (d : LeaderDecision) : Nat × State :=
  let h := d.reqId.toNat / 4096
  (h, { s with car := { s.car with reqs := mset s.car.reqs h { reqGet s h with gen := d.reqId.toNat % 4096 } } })

/-- Decide one SUBMIT entry on its own tray (R256): the status, 0 for an admission, and the handle. -/
def submitOwn (s : State) (t : Taken) (e : W512) (hostTokens : List W32) : Nat × Nat × State :=
  let p := t.f.val
  let h := freeHandle s
  let st := checkFormat s p e
  if st ≠ 0 then (st, h, reject s p e st)
  else
    match serviceOf s p (eService e) with
    | none => (53, h, reject s p e 53)
    | some v =>
      let par := if eFork e then forkParentOf s p e else none
      let new := reqOf s t e h v par hostTokens
      let st := decideStatus s p h e new v par
      if st ≠ 0 then (st, h, reject s p e st) else (0, h, admitDone s h new hostTokens)

/-- A leader sends each of its decisions to the follower (R445): the status, and the request ID of an admission. -/
def leaderSend (s : State) (t : Taken) (st h : Nat) : State :=
  if s.pair.role = .active ∧ odGet s 0x6400 0 = 2 then
    let id := if st = 0 then reqId h (reqGet s h) else 0
    g63Send s (.leader { part := t.f, reqId := BitVec.ofNat 32 id, entry := t.entry, status := BitVec.ofNat 8 st })
      ([0x10, BitVec.ofNat 8 t.f.val] ++ leBytes 4 id ++ leBytes 64 t.entry.toNat ++ [BitVec.ofNat 8 st])
  else s

/-- A SUBMIT entry on a follower (R445): admitted or refused exactly as the leader decided, under the leader's ID; its own admission arithmetic does not act. -/
def submitFollow (s : State) (t : Taken) (e : W512) (d : LeaderDecision) (hostTokens : List W32) : State :=
  let p := t.f.val
  let s := { s with pair := { s.pair with decisions := s.pair.decisions.erase d } }
  if d.status ≠ 0 then reject s p e d.status.toNat
  else
    match serviceOf s p (eService e) with
    | none => reject s p e 53
    | some v =>
      let par := if eFork e then forkParentOf s p e else none
      let (h, s) := leaderHandle s d
      admitDone s h (reqOf s t e h v par hostTokens) hostTokens

/-- SUBMIT (R256, R260): decides the entry, or waits on a follower for the leader's decision (R445). -/
def execSubmit (hostTokens : List W32) (s : State) : Res :=
  match takenPick (takenQueue s) 1 with
  | none => .next s
  | some (i, t) =>
    let p := t.f.val
    let (e, n) := eClamped s p t.entry
    if s.pair.role = .follower then
      match leaderSays s p t.entry with
      | none => .next s
      | some d => .next (submitFollow (hostClamp (takenDrop s i t) (p + 1) n) t e d hostTokens)
    else
      let r := submitOwn (hostClamp (takenDrop s i t) (p + 1) n) t e hostTokens
      .next (leaderSend r.2.2 t r.1 r.2.1)

/-- FOLLOWER_ADMIT (R445): a decision of the leader, to be met by the follower's own entry, or a batch of the leader, to be run in its turn. -/
def execFollowerAdmit (m : LeaderMsg) (s : State) : Res :=
  if s.pair.role ≠ .follower ∨ !g63Up s then .next s
  else
    match m with
    | .decision d => .next { s with pair := { s.pair with decisions := s.pair.decisions ++ [d] } }
    | .batch p id l => .next { s with pair := { s.pair with batches := mset s.pair.batches p.val (mgetD s.pair.batches p.val [] ++ [(id, l)]) } }

/-! ### ALLOC and FREE (R173, R251, R254, R416, R502) -/

/-- Lowest run of `n` FREE granules of a die. -/
def granRun (s : State) (d n : Nat) : Option Nat :=
  let free := freeGranules s d
  free.find? fun g => (List.range n).all fun i => free.contains (g + i)

/-- The boot scrub still has granules of a die to clear (R502). -/
def bootScrubbing (s : State) (d : Nat) : Bool :=
  (dieGranules s d).any fun g =>
    let e := granGet s g
    e.st == .scrubbing && e.owner.toNat == 0x3F && !s.flash.retired.contains g

/-- ALLOC (R173, R251, R254, R403, R502). -/
def execAlloc (s : State) : Res :=
  match takenPick (takenQueue s) 4 with
  | none => .next s
  | some (i, t) =>
    let p := t.f.val
    let (e, n) := eClamped s p t.entry
    let s := hostClamp s (p + 1) n
    let d := eArgDie e
    if ((mget s.gate.parts p).map Partn.st).getD .free ≠ .active then .next (commandDone (takenDrop s i t) p e 65 0)
    else
      match granRun s d (eArgLen e) with
      | some g =>
        let s := each (List.range (eArgLen e)) (fun s j => granSet s (g + j) (granOwned s p)) (takenDrop s i t)
        .next (commandDone s p e 0 g)
      | none =>
        if bootScrubbing s d then .next (takenWait s i { t with entry := e })
        else .next (commandDone (takenDrop s i t) p e 65 0)

/-- Granules that FREE may not free (R251): the KV pool's, and those of a variant part whose variant is not FREE. -/
def granInUse (s : State) (p g : Nat) : Bool :=
  (poolGet s p).extents.any (fun x => x.granules.contains g)
  || s.variants.any fun x => x.1 / 4096 == p && x.2.parts.any fun y =>
      decide (granOf y.2.1 ≤ g) && decide (g < granOf y.2.1 + y.2.2)

/-- FREE (R251, R253, R416). -/
def execFree (s : State) : Res :=
  match takenPick (takenQueue s) 5 with
  | none => .next s
  | some (i, t) =>
    let p := t.f.val
    let (e, n) := eClamped s p t.entry
    let s := hostClamp (takenDrop s i t) (p + 1) n
    let gs := (List.range (eArgLen e)).map (granOf (eArgAddr e) + ·)
    let own := eArgAddr e % 2 ^ 21 = 0 ∧ gs.all fun g =>
      let x := granGet s g
      granBacked s g && x.st == .owned && x.owner.toNat == p
    if gs.any (granInUse s p) then .next (commandDone s p e 67 0)
    else if own then .next (commandDone (each gs (fun s g => granScrub s g) s) p e 0 0)
    else .next (reject s p e 53)

/-! ### DMA entries (R167, R412, R429, R497) -/

/-- DMA_COMMAND: the hub descriptor that the entry names joins the hub DMA's queue, its FUNC clamped to the submitter (R497). -/
def execDmaCommand (desc : W512) (s : State) : Res :=
  match takenPick (takenQueue s) 6 with
  | none => .next s
  | some (i, t) =>
    let p := t.f.val
    let (e, n) := eClamped s p t.entry
    let d := put desc 347 343 (p + 1)
    let n := if d = desc then n else n + 1
    let s := hostClamp (takenDrop s i t) (p + 1) n
    let gen := (keySlot s (dGcmSlot d)).cur
    .next (jobIssue s 68 { desc := d, part := some t.f, origin := .host t.f (eCring e) (eTag e), gen := gen })

end Sys2Proof.Machine
end

