-- ==== Sys2Proof/Machine/Rounds.lean ====
section
/-! DEFINITION. Rounds, page copies and growth, dispatch, completion and replay of steps (R126, R133, R218, R234 to R236, R244, R245, R257, R262 to R268, R278, R281, R334, R428, R445, R446, R538). -/

namespace Sys2Proof.Machine

open Sys2Proof

/-! ### When rounds run -/

/-- The Carousel may dispatch to a partition: loaded, ACTIVE, not held by a load, a proof test, a failure or a switchover, and each powered quadrant's PLL judged stable (R504). -/
def roundsOk (s : State) (p : Nat) : Bool :=
  (imageOf s p).isSome && !s.car.loadHold.contains p && ((mget s.gate.parts p).map Partn.st).getD .free == .active
  && !s.tray.failed && carOn s && s.tray.clockState == .run && !s.pair.yielded && !s.pair.proof.contains p
  && (s.pair.role == .unpaired || s.pair.role == .active || s.pair.role == .follower)
  && (bitsOf 16 (partQuads s p)).all fun q => !s.tray.quadOn.getLsbD q || (mgetD s.clk.judged q {}).stable

/-- A contract-at-risk cause 1 to 3 or a ride-through pauses Class E (R265, R367). -/
def pausesE (s : State) (p : Nat) : Bool := odGet s 0x3012 (p + 1) % 8 != 0 || s.wv.rideThrough

/-! ### Pages that a step will write (R211, R218) -/

/-- Tokens that a request would process next: part of its prefill, else one (R245). -/
def nextUnits (s : State) (r : Req) : Nat :=
  let c := ((serviceOf s r.part r.service).map svChunk).getD 1
  if r.prefillTo > r.len then min c (unitsLeft r false) else 1

/-- Blocks written by processing `n` tokens: matched tokens are run without a write (R226). -/
def writtenBlocks (s : State) (r : Req) (n : Nat) : List Nat :=
  let t := tokOf s r.part
  let lo := max r.len r.matchedTo
  let hi := r.len + n
  if r.layers = 0 ∨ lo ≥ hi then [] else (List.range ((hi - 1) / t + 1 - lo / t)).map (lo / t + ·)

/-- Page-table indices of blocks over every layer. -/
def blockEntries (r : Req) (bs : List Nat) : List (Nat × Nat) :=
  bs.flatMap fun b => (List.range r.layers).map fun l => (l, l * r.bmax + b)

/-- A page must be copied before it is written (R218). -/
def needsCopy (s : State) (p : Nat) (e : BitVec 32) : Bool :=
  let x := frameGet s p (fld e 27 0)
  pgPresent e && pgCow e && (decide (x.ref > 1) || (match x.decEpoch with | some d => !drained s d | none => false))

/-- Pages of a request to copy before it processes `n` tokens: layer and index. -/
def copiesFor (s : State) (r : Req) (n : Nat) : List (Nat × Nat) :=
  (blockEntries r (writtenBlocks s r n)).filter fun x => needsCopy s r.part (mgetD r.pages x.2 0)

/-- Pages of a request to allocate before it processes `n` tokens. -/
def newPages (s : State) (r : Req) (n : Nat) : List (Nat × Nat) :=
  (blockEntries r (writtenBlocks s r n)).filter fun x => !pgPresent (mgetD r.pages x.2 0)

/-! ### Drop (R234) -/

/-- Drop the tail block of a sequence, every layer at once. -/
def dropTail (s : State) (h : Nat) : State :=
  let r := reqGet s h
  let bs := (r.pages.filter fun x => pgPresent x.2).map fun x => x.1 % max 1 r.bmax
  let b := lmax bs
  let es := (r.pages.filter fun x => pgPresent x.2 && x.1 % max 1 r.bmax == b)
  let s := each es (fun s x => decRef s r.part (fld x.2 27 0)) s
  let pages := es.foldl (fun m x => mset m x.1 (x.2 &&& 0x7FFFFFFF)) r.pages
  let len := min r.len (b * tokOf s r.part)
  let r' := { r with
    pages := pages, len := len, prefillTo := max r.prefillTo r.len, matchedTo := min r.matchedTo len
    ahead := r.ahead.filter (· < b * tokOf s r.part) }
  bump64 (reqSet s h r') 0x3024 (r.part + 1)

/-- A request is in the partition's round or step: its pages are about to be read or are being read. -/
def engaged (s : State) (p h : Nat) : Bool := inStep s p h || ((mgetD s.car.rounds p {}).included.contains h)

/-- Victims in order: PAUSED Class E sequences with pages that no round or step includes, lowest priority first, then the earliest end of a last step. -/
def victims (s : State) (p h : Nat) : List (Nat × Req) :=
  sortBy (fun a b => decide (a.2.prio < b.2.prio) || (a.2.prio == b.2.prio && decide (a.2.lastStep < b.2.lastStep)))
    ((liveReqs s p).filter fun x =>
      x.1 != h && x.2.classE && x.2.st == .paused && !engaged s p x.1 && x.2.pages.any fun e => pgPresent e.2)

/-- How a need of frames by home die stands. -/
inductive Need
  | ready
  | wait
  | unmet
  deriving DecidableEq, Repr

/-- Frames of a die in QUARANTINE that will return. -/
def quarOn (s : State) (p d : Nat) : Nat :=
  ((poolGet s p).frames.filter fun x => x.2.st == .quarantine && x.1 * 16384 / 2 ^ 37 == d).length

/-- A need is covered on every die, by spare frames or with those in QUARANTINE. -/
def covers (s : State) (p : Nat) (need : List Nat) (quar : Bool) : Bool :=
  (List.range 4).all fun d => decide (need.getD d 0 ≤ spareOn s p d + (if quar then quarOn s p d else 0))

/-- Meet a Class E need: at once, after frames leave QUARANTINE, or by dropping victims (R234). -/
def meetNeed (p h : Nat) (need : List Nat) : Nat → State → Need × State
  | 0, s => (.unmet, s)
  | n + 1, s =>
    if covers s p need false then (.ready, s)
    else if covers s p need true then (.wait, s)
    else
      match victims s p h with
      | [] => (.unmet, s)
      | (v, _) :: _ => meetNeed p h need n (dropTail s v)

/-- Blocks that drops could take at most. -/
def dropFuel (s : State) (p : Nat) : Nat := lsum ((liveReqs s p).map fun x => x.2.pages.length) + 2

/-- Frames needed by home die for page entries given by layer. -/
def needOf (s : State) (p : Nat) (l : List (Nat × Nat)) : List Nat :=
  (List.range 4).map fun d => (l.filter fun x => homeDie s p x.1 == d).length

/-- How a request's need stands: a Class G sequence takes from its reservation and never waits (R233). -/
def grow (s : State) (h : Nat) (l : List (Nat × Nat)) : Need × State :=
  let r := reqGet s h
  if l = [] ∨ !r.classE then (.ready, s) else meetNeed r.part h (needOf s r.part l) (dropFuel s r.part) s

/-- The state of a request that a round or step includes (R247): an ADMITTED one goes to PREFILL, a PAUSED one to PREFILL with something to run or recompute, else to DECODE. -/
def includedSt (s : State) (r : Req) : ReqState :=
  match r.st with
  | .admitted => .prefill
  | .paused => if unitsLeft r (reqOne s r) > 0 then .prefill else .decode
  | st => st

/-- A Class E sequence enters WAITING_PAGE (R235) from the state in which the step included it, PREFILL or DECODE (R247). -/
def enterWaiting (s : State) (h : Nat) : State :=
  let r := reqGet s h
  match includedSt s r with
  | .prefill | .decode =>
    bump32 (reqSet s h { r with st := .waitingPage, waitSince := s.clk.now }) 0x3025 (r.part + 1)
  | _ => s

/-- Allocate the pages of a step for a request. -/
def takePages (s : State) (h : Nat) (l : List (Nat × Nat)) : State :=
  each l (fun s x =>
    match takeFrame s h (homeDie s (reqGet s h).part x.1) false with
    | some (f, s) =>
      let r := reqGet s h
      reqSet s h { r with pages := mset r.pages x.2 (pageEntry false false f) }
    | none => s) s

/-! ### Copies (R218) -/

/-- The descriptor of a page copy. -/
def cowDesc (old new bytes : Nat) : W512 :=
  BitVec.ofNat 512 (2 ^ 508 + 0x3F * 2 ^ 498 + old * 16384 * 2 ^ 416 + new * 16384 * 2 ^ 352 + bytes % 2 ^ 20 * 2 ^ 320 + 2 ^ 304
    + 15 * 2 ^ 236)

/-- Page size of a pool. -/
def pageBytes (s : State) (p : Nat) : Nat := 16384 * 2 ^ ((poolGet s p).pageExp.getD 0)

/-- Rows and bytes of a page copy: a row holds fewer than 2²⁰ bytes. -/
def cowRows (bytes : Nat) : Nat × Nat := if bytes < 2 ^ 20 then (1, bytes) else (bytes / 2 ^ 19, 2 ^ 19)

/-- The descriptor of a page copy with its rows (R160): PART is the partition's, the engine issues it for the tray. -/
def cowJob (s : State) (p old new : Nat) : W512 :=
  let (rows, rb) := cowRows (pageBytes s p)
  let d := cowDesc old new rb
  put (put (put (put d 503 498 p) 319 304 rows) 303 272 rb) 271 240 rb

/-- Start one copy: a new frame on the home die, and a COPY on that die's engine, its read registered in the current epoch. -/
def startCopy (s : State) (h : Nat) (x : Nat × Nat) : State :=
  let r := reqGet s h
  let d := homeDie s r.part x.1
  match takeFrame s h d true with
  | none => s
  | some (f, s) =>
    let old := fld (mgetD r.pages x.2 0) 27 0
    let extra := !r.classE && decide (r.extra.getD d 0 > 0)
    let j : Job :=
      { desc := cowJob s r.part old f, part := some ⟨r.part % 16, Nat.mod_lt _ (by decide)⟩, origin := .tray, reads := (s.kv.epoch, 1) }
    let s := inflightAdd s s.kv.epoch 1
    let s := jobPush s (64 + d) j
    { s with car := { s.car with
      rounds := mupd s.car.rounds r.part {} fun y =>
        { y with copies := y.copies ++ [{ handle := h, index := x.2, oldFrame := old, newFrame := f, fromExtra := extra }] } } }

/-- Start the copies of one request if the round still has room for them all (R257). -/
def startCopies (room : Nat) (s : State) (h : Nat) : Nat × State :=
  let r := reqGet s h
  let l := copiesFor s r (nextUnits s r)
  if l = [] ∨ l.length > room then (room, s)
  else
    let g := grow s h l
    match g.1 with
    | .ready => (room - l.length, each l (fun s x => startCopy s h x) g.2)
    | .wait =>
      let s := g.2
      (room - l.length, { s with car := { s.car with
        rounds := mupd s.car.rounds r.part {} fun y => { y with due := y.due ++ [h] } } })
    | .unmet => (room, enterWaiting g.2 h)

/-- Try again the copies that waited for frames (R218, R234): the step that needs them is dispatched once they are free. -/
def copiesRetry (s : State) (p : Nat) : State :=
  let rd := mgetD s.car.rounds p {}
  each rd.due (fun s h => (startCopies (copiesFor s (reqGet s h) (nextUnits s (reqGet s h))).length s h).2)
    { s with car := { s.car with rounds := mset s.car.rounds p { rd with due := [] } } }

/-- The copies of a service before a round: at most COPY_PAGES, Class G first. -/
def serviceCopies (s : State) (p k : Nat) (hs : List Nat) : State :=
  match serviceOf s p k with
  | none => s
  | some v =>
    let l := (hs.map fun h => (h, reqGet s h)).filter fun x => x.2.service == k
    let l := sortBy (fun a b => (!a.2.classE && b.2.classE) || (a.2.classE == b.2.classE && decide (a.2.order < b.2.order))) l
    (l.foldl (fun acc x => startCopies acc.1 acc.2 x.1) (svCopyPages v, s)).2

/-- A copy's end (R218): the sequence's entry names the new frame; on another status the new frame goes through QUARANTINE and the request is handled as R262 states for the fault of R163. -/
def copyEnd (s : State) (p : Nat) (c : CowCopy) (st : Fin 11) : State :=
  let r := reqGet s c.handle
  let named := live r && r.part == p && fld (mgetD r.pages c.index 0) 27 0 == c.oldFrame && pgPresent (mgetD r.pages c.index 0)
  if !named then decRef s p c.newFrame
  else if st = stOk then
    let keep := mgetD r.pages c.index 0 &&& 0x20000000
    let s := reqSet s c.handle { r with pages := mset r.pages c.index (pageEntry false false c.newFrame ||| keep) }
    bump64 (decRef s p c.oldFrame) 0x3026 (p + 1)
  else
    let s := decRef s p c.newFrame
    let d := c.newFrame * 16384 / 2 ^ 37
    let s := if r.classE then s
      else reqSet s c.handle { r with
        reserved := addAt r.reserved d 1, extra := if c.fromExtra then addAt r.extra d 1 else r.extra }
    if st = stUe ∨ st = stChanged ∨ st = stAbort then s else reqCancel s c.handle 32 true

/-- COW_COPY_COMPLETE (R218): the first copy of the round has ended with the status its descriptor completed with. -/
def execCowCopyComplete (p : PartId) (status : DmaStatus) (s : State) : Res :=
  match mget s.car.rounds p.val with
  | none => .next s
  | some r =>
    match r.copies with
    | [] => .next s
    | c :: t =>
      if c.status ≠ some status then .next s
      else
        let s := { s with car := { s.car with rounds := mset s.car.rounds p.val { r with copies := t } } }
        .next (copyEnd s p.val c status)

/-! ### The start of a round (R257, R263, R284) -/

/-- Class E inclusion in order, stopping when the next would raise the cost above the budget (R263); a variant beyond VAR_PER_STEP is left out (R284). -/
def includeE (s : State) (p budget vps : Nat) : List (Nat × Req) → List (Nat × Req) → List (Nat × Req)
  | l, [] => l
  | l, e :: t =>
    let l' := l ++ [e]
    let excess := e.2.variant != 0 && decide (variantCount (l'.filter fun x => x.2.service == e.2.service) > vps)
    if excess then includeE s p budget vps l t
    else
      let c := roundCost s p l'
      if costTime s c.1 c.2 ≤ budget then includeE s p budget vps l' t else l

/-- Leave a Class E request out of a round (R247, R263). -/
def pauseReq (s : State) (h : Nat) : State :=
  let r := reqGet s h
  if r.st = .admitted ∨ r.st = .prefill ∨ r.st = .decode then reqSet s h { r with st := .paused } else s

/-- A PAUSED request is included again (R247). -/
def resumeReq (s : State) (h : Nat) : State :=
  let r := reqGet s h
  if r.st = .paused then reqSet s h { r with st := includedSt s r } else s

/-- The service of a partition whose prefill or decode step has an ID, and which of the two. -/
def stageOf (s : State) (p id : Nat) : Option (Nat × Bool) :=
  (servicesOf s p).findSome? fun k =>
    match serviceOf s p k with
    | some v => if svPrefill v = id then some (k, true) else if svDecode v = id ∧ !svOne v then some (k, false) else none
    | none => none

/-- The round of a follower: the leader's next batch, its page copies first (R445). -/
def followRound (s : State) (p : Nat) : State :=
  match mgetD s.pair.batches p [] with
  | [] => s
  | (id, l) :: t =>
    let s := { s with pair := { s.pair with batches := if t = [] then mdel s.pair.batches p else mset s.pair.batches p t } }
    match stageOf s p id with
    | none => s
    | some st =>
      let es : List BatchE := l.filterMap fun e => (reqNamed s e.id.toNat).map fun x => { handle := x.1, len := e.len, new := e.new, emit := e.emit }
      let hs := es.map BatchE.handle
      let s := each hs (fun s h => resumeReq s h) s
      let rd : Round := { stages := [st], classE := hs.any fun h => (reqGet s h).classE, included := hs, leader := some es }
      serviceCopies { s with car := { s.car with rounds := mset s.car.rounds p rd } } p st.1 hs

/-- ROUND_START (R218, R236, R254, R257, R263, R284, R445): the requests of the round, its stages, its cost and its page copies; on a follower the leader's next batch. -/
def execRoundStart (p : PartId) (s : State) : Res :=
  let p := p.val
  if (mget s.car.rounds p).isSome || stepRunning s p || !roundsOk s p then .next s
  else if s.pair.role = .follower then .next (followRound s p)
  else
    let l := (liveReqs s p).filter fun x => x.2.st != .draining
    let shown := l.filter fun x => !ringHeld s (p + 1) x.2.cring
    let g := shown.filter fun x => !x.2.classE
    let allG := l.filter fun x => !x.2.classE
    let busy := allG.any fun x => prefillPending s x.2
    let es := if busy || pausesE s p then []
      else sortBy classELt (shown.filter fun x => x.2.classE && x.2.st != .waitingPage)
    let micros := if allG = [] then odGet s 0x3003 (p + 1) else allG.foldl (fun m x => min m x.2.tbt) (2 ^ 24)
    let vps := ((imageOf s p).map fun x => x.img.varPerStep).getD 0
    let all := includeE s p (micros * 1000 * (10000 - spread s)) vps allG es
    let inE := (all.filter fun x => x.2.classE).map Prod.fst
    let inc := g.map Prod.fst ++ inE
    let s := each ((l.filter fun x => x.2.classE && !inE.contains x.1).map Prod.fst) (fun s h => pauseReq s h) s
    let s := each inc (fun s h => resumeReq s h) s
    if inc = [] then .next s
    else
      let ks := (servicesOf s p).filter fun k => inc.any fun h => (reqGet s h).service == k
      let c := roundCost s p all
      let rd : Round := { stages := ks.flatMap fun k => [(k, true), (k, false)], beats := c.1, gaps := c.2
                          classE := inE != [], included := inc }
      let s := { s with car := { s.car with rounds := mset s.car.rounds p rd } }
      .next (each ks (fun s k => serviceCopies s p k inc) s)

/-! ### Picking a stage's batch -/

/-- A stage's picks so far: entries, room left in units, and whether the step must wait for frames. -/
structure Picks where
  picks : List BatchE := []
  cap : Nat
  wait : Bool := false
  deriving DecidableEq, Repr

/-- Try one request for a step: pages taken, WAITING_PAGE entered, or the step held for frames in QUARANTINE. -/
def pickOne (maxSeq : Nat) (acc : Picks × State) (x : Nat × Nat × Bool) : Picks × State :=
  let (a, s) := acc
  let (h, n, emit) := x
  let r := reqGet s h
  let n := min n a.cap
  if a.wait ∨ n = 0 ∨ a.picks.length ≥ maxSeq ∨ copiesFor s r n ≠ [] then acc
  else
    let l := newPages s r n
    let g := grow s h l
    match g.1 with
    | .wait => ({ a with wait := true }, g.2)
    | .unmet => (a, enterWaiting g.2 h)
    | .ready =>
      let s := takePages g.2 h l
      ({ a with picks := a.picks ++ [{ handle := h, len := r.len, new := n, emit := emit && decide (r.len + n = r.prefillTo ∨ r.prefillTo ≤ r.len) }],
                cap := a.cap - n }, s)

/-- Requests of a round and service that may take part in a step. -/
def stageReqs (s : State) (p k : Nat) (rd : Round) : List (Nat × Req) :=
  (liveReqs s p).filter fun x => rd.included.contains x.1 && x.2.service == k
    && (match x.2.st with | .admitted | .prefill | .decode | .paused => true | _ => false)

/-- The prefill stage of a service: Class G by deadline, then Class E (R259, R263); for a ONESHOT service, its requests. -/
def prefillPicks (s : State) (p k : Nat) (v : BitVec 256) (rd : Round) : Picks × State :=
  let l := stageReqs s p k rd
  let q := prefillQueue s k l
  let e := sortBy classELt (l.filter fun x => x.2.classE && prefillPending s x.2)
  let g := if q = [] then e else q
  g.foldl (fun acc x => pickOne (svMaxSeq v) acc (x.1, unitsLeft x.2 (svOne v), !svOne v && !x.2.started)) ({ cap := svChunk v }, s)

/-- The decode stage of a service: every sequence with nothing to prefill (R257). -/
def decodePicks (s : State) (p k : Nat) (v : BitVec 256) (rd : Round) : Picks × State :=
  let l := (stageReqs s p k rd).filter fun x => x.2.started && unitsLeft x.2 false == 0
  let l := sortBy (fun a b => decide (a.2.order < b.2.order)) l
  l.foldl (fun acc x => pickOne (svMaxSeq v) acc (x.1, 1, true)) ({ cap := svMaxSeq v }, s)

/-- A follower picks exactly the leader's batch (R445). -/
def leaderPicks (s : State) (v : BitVec 256) (l : List BatchE) : Picks × State :=
  l.foldl (fun acc b => pickOne (svMaxSeq v) acc (b.handle, b.new, b.emit)) ({ cap := lsum (l.map BatchE.new) }, s)

/-- Picks of a stage; none for a stage without a step. -/
def stagePicks (s : State) (p : Nat) (rd : Round) (st : Nat × Bool) : Picks × State :=
  match serviceOf s p st.1 with
  | none => ({ cap := 0 }, s)
  | some v =>
    if let some l := rd.leader then leaderPicks s v (l.filter fun b => live (reqGet s b.handle))
    else if st.2 then prefillPicks s p st.1 v rd
    else if svOne v ∨ svDecode v = 0xFFF then ({ cap := 0 }, s)
    else decodePicks s p st.1 v rd

/-! ### Power of a step (R134, R356, R357) -/

/-- Energy in nJ and beats of the next step of a stage at the floor, at the parameters costed (R129, R134, R356). -/
def stageCost (s : State) (p : Nat) (st : Nat × Bool) : Option (Nat × Nat) :=
  (serviceOf s p st.1).bind fun v =>
    (costEntry s p (if st.2 then svPrefill v else svDecode v)).map fun e =>
      let ps := maxParams s p v ((liveReqs s p).filter fun x => x.2.service == st.1) st.2
      let sel (x : Nat) : Nat := if x = 15 then 0 else ps.getD x 0
      (fld e 95 72 * 1000 + fld e 71 48 * sel (fld e 119 116) + fld e 39 16 * sel (fld e 115 112), costBeats e ps)

/-- Power of that step at the floor, mW. -/
def stepMw (s : State) (p : Nat) (st : Nat × Bool) : Nat :=
  match stageCost s p st with
  | some (nj, beats) => nj * 1000 / max 1 (beats * 8)
  | none => 0

/-- Measured power of a partition's quadrants, mW. -/
def partMw (s : State) (p : Nat) : Nat := lsum ((bitsOf 16 (partQuads s p)).map fun q => (mgetD s.wv.quads q {}).powerMw)

/-- A Class E step that the up-ramp cannot reach yet is held, unless ballast can be raised no further (R357). -/
def rampHeld (s : State) (p : Nat) (st : Nat × Bool) (l : List BatchE) : Bool :=
  (l.all fun b => (reqGet s b.handle).classE) && l != [] && !s.wv.rampFree.contains p
  && decide (stepMw s p st > partMw s p + odGet s 0x1402 0 * 100)

/-! ### Dispatch (R124, R244, R245, R281) -/

/-- RES_ADDR of a ONESHOT request (R245): its own result address in the tray, else its staging slot. -/
def resAddr (s : State) (v : BitVec 256) (r : Req) : Nat :=
  if r.outTray then r.outAddr else svIoBase v + (r.ioSlot.getD 0) * outBytes s r.part r.service

/-- IN_ADDR of a ONESHOT request (R245): its input in the tray, or where its host input was brought. -/
def inAddrOf (v : BitVec 256) (r : Req) : Nat := if r.inTray then r.inAddr else Config.inputAt v (r.ioSlot.getD 0)

/-- A batch entry (R245), TOKEN zero. -/
def batchBits (s : State) (v : BitVec 256) (b : BatchE) : BitVec 256 :=
  let r := reqGet s b.handle
  let one := svOne v
  BitVec.ofNat 256 (reqId b.handle r * 2 ^ 224 + r.recDie % 4 * 2 ^ 222 + r.recFrame % 2 ^ 28 * 2 ^ 194 + b.len % 2 ^ 20 * 2 ^ 174
    + b.new % 2 ^ 20 * 2 ^ 154 + r.variant % 2 ^ 16 * 2 ^ 138 + (if one then inAddrOf v r % 2 ^ 48 * 2 ^ 90 else 0)
    + (if one then resAddr s v r % 2 ^ 48 * 2 ^ 42 else 0) + (if b.emit then 1 else 0))

/-- Address of a batch buffer (R244). -/
def batchAddr (v : BitVec 256) (b : Nat) : Nat := svBatch v + b * svMaxSeq v * 32

/-- Write a batch into its buffer. -/
def batchWrite (s : State) (p : Nat) (v : BitVec 256) (buf : Nat) (l : List BatchE) : State :=
  partPut s p (batchAddr v buf) (l.flatMap fun b => leBytes 32 (batchBits s v b).toNat)

/-- Step parameters of a batch (R244). -/
def batchParams (s : State) (p buf : Nat) (l : List BatchE) : List W32 :=
  let top := lmax (l.map fun b => b.len + b.new)
  ([lsum (l.map fun b => b.len + b.new), lsum (l.map fun b => b.new), l.length, buf, cdiv top (tokOf s p), 0, 0, 0]).map (BitVec.ofNat 32)

/-- The fault code that R163 gives for a descriptor status. -/
def statusFault (st : Fin 11) : Fin 5 :=
  if st = stUe then fcParity else if st = stChanged ∨ st = stAbort then fcAbort else fcImage

/-- Line addresses that a range of bytes touches. -/
def spanLines (a n : Nat) : List Nat :=
  if n = 0 then [] else (List.range ((a + n - 1) / 64 + 1 - a / 64)).map fun i => (a / 64 + i) * 64

/-- Whether each line of a list passes the line check of R150 for a tag. -/
def linesPass (s : State) (part : Nat) (ls : List Nat) : Bool :=
  ls.all fun a => match placeOf s a with | .hbm _ _ => lineOk s part a | _ => true

/-- Status of a die engine's access to lines (R150, R162, R200, R279). -/
def dieAccess (s : State) (d part : Nat) (rd wr : List Nat) : Fin 11 :=
  let st := lineChecks s (64 + d) part rd wr false
  if st ≠ stOk then st else if linesPass s part (rd ++ wr) then stOk else stChanged

/-- Read a list of jobs of `n` bytes that ends before the first with VER 0, at most 64. -/
def jobList (s : State) (p a n : Nat) : Nat → List Nat
  | 0 => []
  | k + 1 =>
    let x := partNat s p a n
    if x / 2 ^ (8 * n - 4) = 0 then [] else x :: jobList s p (a + n) n k

/-- The partition's image carries jobs of a die engine that OD `idx` gives the partition (R199, R277). -/
def diesJobs (s : State) (p d idx : Nat) (f : Image → List (Fin 4)) : Bool :=
  ((imageOf s p).map fun l => (f l.img).any fun x => x.val == d).getD false && odGet s idx (d + 1) == p

/-- Addresses of the job lists of a step on a context: Pinwheel, delta engine, Trellis (R200, R278, R334). -/
def pinwheelList (s : State) (c stepId : Nat) : Nat := (ctxGet s c).setupBase + 576 * 2 ^ 20 + stepId * 8192
/-- The delta engine's list. -/
def deltaList (s : State) (c stepId : Nat) : Nat := (ctxGet s c).setupBase + 608 * 2 ^ 20 + stepId * 4096
/-- The list of the Trellis transport. -/
def trellisList (s : State) (c stepId : Nat) : Nat := (ctxGet s c).setupBase + 624 * 2 ^ 20 + stepId * 8192

/-- Lines of a job list that are read, the one with its end included. -/
def listLines (s : State) (p a n : Nat) : List Nat := spanLines a (n * min 64 ((jobList s p a n 64).length + 1))

/-- Load the job lists of a step on one context: Pinwheel, delta engine, Trellis (R200, R278, R334). Jobs of the partition that are still to run come first. -/
def jobsLoad (s : State) (p c stepId : Nat) : State :=
  let d := c / 4
  let pw := if diesJobs s p d 0x4030 Image.pinwheelDies then (jobList s p (pinwheelList s c stepId) 128 64).map (BitVec.ofNat 1024) else []
  let dl := if diesJobs s p d 0x3805 Image.deltaDies then (jobList s p (deltaList s c stepId) 64 64).map (BitVec.ofNat 512) else []
  let tr := if trlOn s then jobList s p (trellisList s c stepId) 128 64 else []
  let s := { s with dieJobs := mupd s.dieJobs d {} fun x => { x with
    pinwheel := if pw = [] then x.pinwheel else if x.pinwheelFor = p then x.pinwheel ++ pw else pw
    pinwheelFor := if pw = [] then x.pinwheelFor else p
    delta := if dl = [] then x.delta else if x.deltaFor = p then x.delta ++ dl else dl
    deltaFor := if dl = [] then x.deltaFor else p } }
  each tr (fun s x =>
    { s with trl := { s.trl with
      jobs := mset s.trl.jobs s.trl.nextJob { bits := BitVec.ofNat 1024 x, ctx := c, part := ⟨p % 16, Nat.mod_lt _ (by decide)⟩ }
      nextJob := s.trl.nextJob + 1 } }) s

/-- The fault of a context whose job lists cannot be read: by the checks of R150 for the die engines (R200, R279), an image fault for Trellis (R335). -/
def jobsFault (s : State) (p c stepId : Nat) : Option (Fin 5) :=
  let d := c / 4
  let st (on : Bool) (a n : Nat) : Fin 11 := if on then dieAccess s d p (listLines s p a n) [] else stOk
  let pw := st (diesJobs s p d 0x4030 Image.pinwheelDies) (pinwheelList s c stepId) 128
  let dl := st (diesJobs s p d 0x3805 Image.deltaDies) (deltaList s c stepId) 64
  if pw ≠ stOk then some (statusFault pw)
  else if dl ≠ stOk then some (statusFault dl)
  else if trlOn s && !linesPass s p (listLines s p (trellisList s c stepId) 128) then some fcImage
  else none

/-- Cabinet counters of a partition: those of the blocks that OD 0x6022 gives it (R336). -/
def cabinetOf (s : State) (p : Nat) : SMap Counter :=
  s.trl.cabinet.filter fun x => (odGet s 0x6022 (p + 1)).testBit (x.1 / 64)

/-- Dispatch a step to its contexts (R124); a context whose job lists cannot be read ends it at once. -/
def dispatchTo (s : State) (p stepId entry : Nat) (ps : List W32) (ctxs : List Nat) : State :=
  let bad := ctxs.filterMap fun c => (jobsFault s p c stepId).map fun f => (c, f)
  let s := each ctxs (fun s c => jobsLoad s p c stepId) s
  let s := each ctxs (fun s c => ctxDispatch s c { stepId := stepId, entry := entry, params := ps }) s
  each bad (fun s x => ctxEnd s x.1 x.2) s

/-- A request as it enters a dispatched step (R218, R233, R247): COW cleared on the pages it writes, the frames its forks reserved returned. -/
def enterStep (s : State) (b : BatchE) : State :=
  let r := reqGet s b.handle
  let es := blockEntries r (writtenBlocks s r b.new)
  let pages := es.foldl (fun m x => if pgCow (mgetD m x.2 0) then mset m x.2 (mgetD m x.2 0 &&& 0xBFFFFFFF) else m) r.pages
  let back := if es = [] then r.reserved else (List.range 4).map fun d => r.reserved.getD d 0 - r.extra.getD d 0
  let extra := if es = [] then r.extra else [0, 0, 0, 0]
  reqSet s b.handle { r with
    st := includedSt s r
    pages := pages, reserved := back, extra := extra, forkPending := if es = [] then r.forkPending else false }

/-- A leader sends each batch that it dispatches to its follower (R445). -/
def batchSend (s : State) (p id : Nat) (l : List BatchE) : State :=
  if s.pair.role = .active ∧ odGet s 0x6400 0 = 2 then
    let es : List LeaderEntry := l.map fun b =>
      { id := BitVec.ofNat 32 (reqId b.handle (reqGet s b.handle)), len := b.len, new := b.new, emit := b.emit }
    g63Send s (.batch ⟨p % 16, Nat.mod_lt _ (by decide)⟩ id es)
      ([0x11, BitVec.ofNat 8 p] ++ leBytes 2 id ++ es.flatMap fun e =>
        leBytes 4 e.id.toNat ++ leBytes 3 e.len ++ leBytes 3 e.new ++ [if e.emit then 1 else 0])
  else s

/-- Dispatch a batch for a stage. -/
def stepStart (s : State) (p : Nat) (st : Nat × Bool) (v : BitVec 256) (l : List BatchE) : State :=
  let l := sortBy (fun a b =>
    let x := reqGet s a.handle
    let y := reqGet s b.handle
    decide (x.variant < y.variant) || (x.variant == y.variant && decide (x.order < y.order))) l
  let id := if st.2 then svPrefill v else svDecode v
  let e := (costEntry s p id).getD 0
  let buf := mgetD (((imageOf s p).map Loaded.buffers).getD []) st.1 0
  let s := each l (fun s b => enterStep s b) s
  let s := batchWrite s p v buf l
  let ps := batchParams s p buf l
  let quads := fld e 215 200
  let ctxs := (partCtxs s p).filter fun c => (quads >>> (4 * (c / 4))) % 16 != 0
  let run : StepRun :=
    { stepId := id, service := st.1, prefill := st.2, batch := l, buffer := buf, params := ps, quads := BitVec.ofNat 16 quads
      dispatched := s.clk.now, dispatchedTb := s.clk.timebase, startedAt := s.clk.now, ctxs := ctxs
      cost := costBeats e (ps.map BitVec.toNat), depth := spread s, cabinet := cabinetOf s p }
  let s := { s with car := { s.car with
    steps := mset s.car.steps p run
    images := match mget s.car.images p with
      | some x => mset s.car.images p { x with buffers := mset x.buffers st.1 (1 - buf) }
      | none => s.car.images } }
  let s := batchSend s p id l
  dispatchTo s p id (fld e 231 216) ps ctxs

/-- Go through the stages of a round to the first with work. -/
def stageGo (p : Nat) : Nat → State → State
  | 0, s => s
  | n + 1, s =>
    match mget s.car.rounds p with
    | none => s
    | some rd =>
      match rd.stages with
      | [] => { s with car := { s.car with rounds := mdel s.car.rounds p } }
      | st :: t =>
        let (a, s) := stagePicks s p rd st
        if a.wait || rampHeld s p st a.picks then s
        else
          let s := { s with car := { s.car with rounds := mset s.car.rounds p { rd with stages := t } } }
          match serviceOf s p st.1 with
          | some v => if a.picks = [] then stageGo p n s else stepStart s p st v a.picks
          | none => stageGo p n s

/-- STEP_DISPATCH (R124, R234, R235, R244, R262): the next step of the partition's round. -/
def execStepDispatch (p : PartId) (s : State) : Res :=
  match mget s.car.rounds p.val with
  | none => .next s
  | some rd =>
    if rd.copies ≠ [] ∨ stepRunning s p.val ∨ !roundsOk s p.val then .next s
    else
      let s := if rd.due = [] then s else copiesRetry s p.val
      let now := mgetD s.car.rounds p.val {}
      if now.copies ≠ [] ∨ now.due ≠ [] then .next s
      else .next (stageGo p.val (rd.stages.length + 1) s)

/-- WAITING_PAGE_RESUME (R235): at a step boundary, the first waiting sequence by priority and arrival whose page can be allocated. -/
def execWaitingPageResume (p : PartId) (s : State) : Res :=
  if stepRunning s p.val then .next s
  else
    let l := sortBy waitingLt ((liveReqs s p.val).filter fun x => x.2.st == .waitingPage)
    match l with
    | [] => .next s
    | (h, r) :: _ =>
      let n := nextUnits s r
      let need := needOf s p.val (newPages s r n ++ copiesFor s r n)
      if covers s p.val need false then
        .next (reqSet s h { r with st := .decode })
      else .next s

/-! ### Pair comparison (R431, R445 to R447) -/

/-- The pair compares this tray's steps (R434, R446). -/
def comparing (s : State) : Bool :=
  odGet s 0x6400 0 == 2 && (s.pair.role == .active || s.pair.role == .follower) && !s.pair.partnerLost

/-- Completions of steps are held for the comparison (R446). -/
def holding (s : State) : Bool := comparing s && odGet s 0x640B 0 == 1

/-- Issue the completions held for a step of a partition. -/
def heldRelease (s : State) (p seq : Nat) : State :=
  let l := mgetD s.car.heldOut p []
  let rest := l.filter fun x => x.1 != seq
  let out := if rest = [] then mdel s.car.heldOut p else mset s.car.heldOut p rest
  each (l.filter fun x => x.1 == seq) (fun s x => complPush s (p + 1) x.2.1 x.2.2) { s with car := { s.car with heldOut := out } }

/-- Issue every completion held: nothing holds them any more (R446). -/
def heldOpen (s : State) : State :=
  let l := s.car.heldOut
  each l (fun s x => each x.2 (fun s e => complPush s (x.1 + 1) e.2.1 e.2.2) s) { s with car := { s.car with heldOut := [] } }

/-- Issue every completion held, and end every comparison: the tray goes on alone (R447). -/
def heldAll (s : State) : State :=
  heldOpen { s with pair := { s.pair with compare := [], proof := [], decisions := [], batches := [] } }

/-- Compare when both check values of a step are there: release on a match, stop dispatch and test on a mismatch (R446, R447). -/
def compareNow (s : State) (p seq : Nat) : State :=
  let k := 16 * seq + p
  match mget s.pair.compare k with
  | some x =>
    match x.own, x.partner with
    | some a, some b =>
      let s := { s with pair := { s.pair with compare := mdel s.pair.compare k } }
      if a = b then heldRelease { s with pair := { s.pair with proof := s.pair.proof.filter fun x => x != p } } p seq
      else bump32 (bump32 { s with pair := { s.pair with proof := if s.pair.proof.contains p then s.pair.proof else p :: s.pair.proof } } 0x640A 0) 0x6805 1
    | _, _ => s
  | none => s

/-- TOKEN that the step wrote for a batch entry (R245). -/
def tokenOf (s : State) (p : Nat) (v : BitVec 256) (buf i : Nat) : Nat :=
  nfld (partNat s p (batchAddr v buf + 32 * i) 32) 41 10

/-- Result bytes of a ONESHOT request. -/
def resultBytes (s : State) (v : BitVec 256) (r : Req) : List Byte :=
  partBytes s r.part (resAddr s v r) (outBytes s r.part r.service)

/-- The step's own check value (R431): REQ_ID and TOKEN of each entry, then each result, under the pair step sequence number. -/
def stepCheck (s : State) (p : Nat) (v : BitVec 256) (x : StepRun) (seq : Nat) : BitVec 64 :=
  let ids := x.batch.zipIdx.flatMap fun b =>
    leBytes 4 (reqId b.1.handle (reqGet s b.1.handle)) ++ leBytes 4 (tokenOf s p v x.buffer b.2)
  let res := if svOne v then x.batch.flatMap fun b => resultBytes s v (reqGet s b.handle) else []
  presetCheck (some seq) (ids ++ res)

/-- Fold a committed step into the step context and exchange its value (R445, R446). -/
def pairFold (s : State) (p : Nat) (v : BitVec 256) (x : StepRun) : State :=
  if !comparing s then s
  else
    let seq := mgetD s.pair.stepSeq p 0 + 1
    let val := stepCheck s p v x seq
    let old := mgetD s.pair.compare (16 * seq + p) { seq := seq }
    let s := { s with pair := { s.pair with
      stepSeq := mset s.pair.stepSeq p seq
      compare := mset s.pair.compare (16 * seq + p) { old with own := some val } } }
    let s := { s with cvu := { s.cvu with step := mset s.cvu.step p val } }
    g63Send s (.stepCheck ⟨p % 16, Nat.mod_lt _ (by decide)⟩ seq val) ([0x12, BitVec.ofNat 8 p] ++ leBytes 8 seq ++ leBytes 8 val.toNat)

/-! ### Completion (R126, R245, R262 to R268) -/

/-- A miss of a Class G commit (R264): MISS, its counters and flags. -/
def missNote (s : State) (h : Nat) : Bool × State :=
  let r := reqGet s h
  if r.classE then (false, s)
  else if !r.started then
    if (s.clk.now : Int) > deadline r then
      (true, bump64 (reqSet s h { r with ttftMiss := true }) 0x3011 (r.part + 1))
    else (false, s)
  else if (s.clk.now : Int) > r.lastAt + (r.tbt * 1000 : Nat) then
    (true, bump64 (reqSet s h { r with tbtMisses := min (r.tbtMisses + 1) 65535 }) 0x3011 (0x11 + r.part))
  else (false, s)

/-- Deliver a token (R245, R247, R252, R264). -/
def tokenDeliver (s : State) (v : BitVec 256) (h tok : Nat) (fl : BitVec 4) (held : Bool) : State :=
  let (miss, s) := missNote s h
  let r := reqGet s h
  let pos := r.tokens.length
  let s := reqSet s h { r with
    tokens := r.tokens ++ [BitVec.ofNat 32 tok], started := true, st := .decode, lastAt := s.clk.now
    tLast := s.clk.timebase.toNat % 2 ^ 48 }
  let s := reqCompl s h held { kind := 1, status := 0, value := tok, pos := pos, nflags := fl, miss := miss }
  let r := reqGet s h
  if svEos v ≠ 0xFFFFFFFF ∧ tok = svEos v then reqEnd s h .done 1 held
  else if r.len ≥ r.maxLen then reqEnd s h .done 2 held
  else if r.cxl then reqEnd s h .cancelled 16 held
  else s

/-- Deliver a ONESHOT result (R245, R247): a host result leaves its staging slot before its completion (R490). -/
def resultDeliver (s : State) (v : BitVec 256) (h : Nat) (fl : BitVec 4) (held : Bool) : State :=
  let r := reqGet s h
  let s := if r.outTray then s else emit s (.hostWrite (funcOf (r.part + 1)) r.outAddr (resultBytes s v r))
  let s := reqCompl s h held { kind := 2, status := 0, nflags := fl }
  reqEnd s h .done 3 held

/-- Where LEN goes on from `n`: past the blocks there whose pages have kept their content. -/
def skipTo (t : Nat) (ahead : List Nat) : Nat → Nat → Nat
  | 0, n => n
  | k + 1, n => if ahead.contains n then skipTo t ahead k (n + t) else n

/-- LEN after a step (R219, R236): only dropped blocks are run again (R443, R540); a request without a first token still runs the last one, which writes no page. -/
def lenSet (t : Nat) (r : Req) (n : Nat) : Req :=
  let e := skipTo t r.ahead r.ahead.length n
  if e = n then { r with len := n }
  else
    { r with
      len := min e (if r.started then r.prefillTo else r.prefillTo - 1)
      matchedTo := max r.matchedTo (min e r.prefillTo), ahead := r.ahead.filter (e ≤ ·) }

/-- One batch entry at the commit of its step. -/
def entryCommit (p : Nat) (v : BitVec 256) (x : StepRun) (fl : BitVec 4) (held : Bool) (s : State) (bi : BatchE × Nat) : State :=
  let b := bi.1
  let h := b.handle
  let tok := tokenOf s p v x.buffer bi.2
  let r := reqGet s h
  let s := reqSet s h { r with lastStep := s.clk.now }
  let drop := r.st == .draining || (odGet s 0x3010 (p + 1) == 0 && cancelArrived s h)
  if r.st = .draining then reqEnd s h (if r.final ≥ 32 then .failed else .cancelled) r.final held
  else if svOne v then (if drop then s else resultDeliver s v h fl held)
  else
    let r := reqGet s h
    let s := reqSet s h (lenSet (tokOf s p) r (b.len + b.new))
    let s := if x.prefill then prefixInsertRange s h b.len (b.len + b.new) else s
    if b.emit then (if drop then s else tokenDeliver s v h tok fl held)
    else
      let r := reqGet s h
      let s := if r.started ∧ unitsLeft r false = 0 then reqSet s h { r with st := .decode } else s
      if r.cxl then reqEnd s h .cancelled 16 held else s

/-- Flags of every core of the contexts, ORed and cleared (R76). -/
def flagsTake (s : State) (ctxs : List Nat) : BitVec 4 × State :=
  let ks := (ctxs.flatMap (ctxLanes s)).flatMap fun l => (List.range 8).map (8 * l + ·)
  (orFlags (ks.map fun k => (coreGet s k).flags),
   each ks (fun s k => if (coreGet s k).flags = 0 then s else coreSet s k { coreGet s k with flags := 0 }) s)

/-- Close a lane's CVU contexts (R426 to R428). -/
def laneCvuClose (s : State) (p l : Nat) : State :=
  each (List.range 2) (fun s ch =>
    let x := laneGet s l
    match mget x.cvu ch with
    | none => s
    | some q =>
      if !q.en then s
      else
        let s := sramPut s p (clusAddr l (q.resAddr % 2 ^ 21)) (leBytes 8 (cvCheck q.setting q.run).toNat)
        let s := if q.save then sramPut s p (clusAddr l (q.saveAddr % 2 ^ 21)) (leBytes 8 q.run.toNat) else s
        let s := if cvMismatch q.setting q.run then msixSend (bump32 s 0x6804 (p + 1)) (p + 1) 10 else s
        laneSet s l { x with cvu := mset x.cvu ch { q with run := cvInit q.setting } }) s

/-- A context is done with its step: a held dispatch starts (R124). -/
def ctxClear (s : State) (c : Nat) : State :=
  let x := ctxGet s c
  let s := ctxSet s c { x with step := none, fault := none, fetching := false, latch := none, held := none }
  match x.held with
  | some d => ctxStart s c d
  | none => s

/-- Forget the delta jobs of a partition: the batch that they correct is over. -/
def deltaForget (s : State) (p : Nat) : State :=
  { s with dieJobs := s.dieJobs.map fun x => (x.1, { x.2 with delta := if x.2.deltaFor = p then [] else x.2.delta }) }

/-- Forget the jobs of a partition, of every engine. -/
def jobsForget (s : State) (p : Nat) : State :=
  { s with
    trl := { s.trl with jobs := s.trl.jobs.filter fun x => x.2.part.val != p }
    dieJobs := s.dieJobs.map fun x =>
      (x.1, { x.2 with pinwheel := if x.2.pinwheelFor = p then [] else x.2.pinwheel
                       delta := if x.2.deltaFor = p then [] else x.2.delta }) }

/-- Elapsed time beyond T (R126, R131). -/
def overran (s : State) (x : StepRun) : Bool := decide ((s.clk.now - x.dispatched) * (10000 - x.depth) > x.cost * 82400)

/-- The completion report of a step (R126), whatever its end; an overrun counts and is reported once (R132, R265). -/
def stepReport (s : State) (p : Nat) (x : StepRun) (fl : BitVec 4) (flt : Option (Fin 5)) : State × StepRun :=
  let slow := overran s x
  let rep : StepReport :=
    { stepId := x.stepId, flags := fl, dispatched := x.dispatchedTb, completed := s.clk.timebase, overrun := slow, fault := flt.getD 0 }
  let s := { s with car := { s.car with reports := mset s.car.reports p rep } }
  if slow && !x.overrun then
    (eventTo (each x.ctxs (fun s c => bump32 s 0x4023 (c + 1)) s) p 98 x.stepId, { x with overrun := true })
  else (s, x)

/-- The step is over for the Carousel. -/
def stepDrop (s : State) (p : Nat) : State :=
  let s := { s with car := { s.car with steps := mdel s.car.steps p } }
  match mget s.car.rounds p with
  | some rd => if rd.stages = [] then { s with car := { s.car with rounds := mdel s.car.rounds p } } else s
  | none => s

/-- Put a stage back in front, to be dispatched again (R262). -/
def stageBack (s : State) (p : Nat) (x : StepRun) : State :=
  { s with car := { s.car with rounds := mupd s.car.rounds p {} fun rd => { rd with stages := (x.service, x.prefill) :: rd.stages } } }

/-- A service refuses SUBMITs from now on (R262, R540). -/
def serviceFault (s : State) (p k : Nat) : State :=
  match mget s.car.images p with
  | some l =>
    { s with car := { s.car with images := mset s.car.images p { l with faulted := if l.faulted.contains k then l.faulted else k :: l.faulted } } }
  | none => s

/-- The commit of a step (R126, R219, R228, R245). -/
def stepCommit (s : State) (p : Nat) (x : StepRun) (fl : BitVec 4) : State :=
  let s := switchCommit (epochTick s)
  let v := (serviceOf s p x.service).getD 0
  let held := holding s
  let s := pairFold s p v x
  let s := each x.batch.zipIdx (fun s b => entryCommit p v x fl held s b) s
  compareNow (stepDrop (retainFix s p) p) p (mgetD s.pair.stepSeq p 0)

/-- Every request of a step ends with a code; those that were ending keep their own. -/
def batchFail (s : State) (x : StepRun) (code : Nat) : State :=
  each x.batch (fun s b =>
    let r := reqGet s b.handle
    if r.st = .draining then reqEnd s b.handle (if r.final ≥ 32 then .failed else .cancelled) r.final false
    else if live r then reqEnd s b.handle .failed code false
    else s) s

/-- Requests of a step that were ending end now (R247, R267). -/
def drainEnd (s : State) (x : StepRun) : State :=
  each x.batch (fun s b =>
    let r := reqGet s b.handle
    if r.st = .draining then reqEnd s b.handle (if r.final ≥ 32 then .failed else .cancelled) r.final false else s) s

/-- Cancels accepted in boundary mode take effect at the boundary of a step that is not run again as it was (R267, R268). -/
def boundaryEnd (s : State) (x : StepRun) : State :=
  each x.batch (fun s b =>
    let r := reqGet s b.handle
    if live r ∧ r.cxl then reqEnd s b.handle .cancelled 16 false else s) s

/-- The fault with which a step ended: the first reason that is not an abort, else the abort (R126, R262). -/
def stepFault (s : State) (x : StepRun) : Option (Fin 5) :=
  let fs := x.ctxs.filterMap fun c => (ctxGet s c).fault
  match fs.find? fun f => f != fcAbort with
  | some f => some f
  | none => fs.head?

/-- Tell the other members through group 63 to abort a collective step (R538). -/
def abortTell (s : State) (p : PartId) (stepId : Nat) : State :=
  g63Send s (.abortMembers p stepId) (0x15 :: BitVec.ofNat 8 p.val :: leBytes 2 stepId)

/-- STEP_COMPLETE (R126, R262): every context has completed, or one has ended early and the others are aborted. -/
def execStepComplete (p : PartId) (s : State) : Res :=
  let p := p.val
  match mget s.car.steps p with
  | none => .next s
  | some x =>
    let flt := stepFault s x
    if x.ended ∨ !(flt.isSome || x.ctxs.all (ctxDone s)) then .next s
    else
      let s := if flt.isSome then each x.ctxs (fun s c => ctxEnd s c fcAbort) s else s
      let s := if flt.isNone then each (x.ctxs.flatMap (ctxLanes s)) (fun s l => laneCvuClose s p l) s else s
      let (fl, s) := flagsTake s x.ctxs
      let fl := fl ||| x.flags
      let (s, x) := stepReport s p x fl flt
      let s := each x.ctxs (fun s c => ctxClear s c) s
      let s := if flt.isNone then deltaForget s p else jobsForget s p
      match flt with
      | none => .next (stepCommit s p x fl)
      | some f =>
        if x.fenced then .next (stepDrop (batchFail s x 33) p)
        else if f = fcParity then
          let s := if bit ((costEntry s p x.stepId).getD 0) 47 then abortTell s ⟨p % 16, Nat.mod_lt _ (by decide)⟩ x.stepId else s
          .next { s with car := { s.car with steps := mset s.car.steps p { x with ended := true, fault := some f } } }
        else if f = fcAbort then
          let s := boundaryEnd (drainEnd s x) x
          let s := if x.batch.any fun b => live (reqGet s b.handle) && inStep s p b.handle then stageBack s p x else s
          .next (stepDrop s p)
        else
          let s := batchFail s x 32
          let s := serviceFault s p x.service
          .next (stepDrop (logErr s { cls := 3, block := 8, part := p, step := x.stepId, action := 8 }) p)

/-- STEP_EARLY_END (R127): a context's step ends with a fault code. -/
def execStepEarlyEnd (c : Ctx) (code : Fin 5) (s : State) : Res :=
  if code = 0 then .next s else .next (ctxEnd s c.val code)

/-- STEP_WATCHDOG_EXPIRY (R133): W × T has passed, time under an emergency or perturbation left out. -/
def execStepWatchdogExpiry (p : PartId) (s : State) : Res :=
  match mget s.car.steps p.val with
  | none => .next s
  | some x =>
    if !x.ended ∧ (s.clk.now - x.startedAt - x.excluded) * (10000 - x.depth) > odGet s 0x4028 0 * (x.cost * 82400) then
      .next (each x.ctxs (fun s c => ctxEnd s c fcWatchdog) s)
    else .next s

/-- STEP_REPLAY (R538, R542): the same step again, without the requests that have ended. -/
def execStepReplay (p : PartId) (s : State) : Res :=
  let p := p.val
  match mget s.car.steps p with
  | none => .next s
  | some x =>
    if !x.ended then .next s
    else
      let s := drainEnd s x
      let l := x.batch.filter fun b => live (reqGet s b.handle)
      if l = [] ∨ !roundsOk s p then .next (stepDrop s p)
      else
        let v := (serviceOf s p x.service).getD 0
        let same := decide (l.length = x.batch.length)
        let s := if same then s else batchWrite s p v x.buffer l
        let ps := if same then x.params else batchParams s p x.buffer l
        let e := (costEntry s p x.stepId).getD 0
        let s := bump64 s 0x7C25 0
        let cab := if bit e 47 then x.cabinet.foldl (fun m y => mset m y.1 y.2) s.trl.cabinet else s.trl.cabinet
        let s := { s with
          trl := { s.trl with cabinet := cab }
          car := { s.car with steps := mset s.car.steps p { x with
            ended := false, fault := none, flags := 0, batch := l, params := ps, startedAt := s.clk.now, excluded := 0
            replays := if x.injected then x.replays else x.replays + 1, injected := false } } }
        .next (dispatchTo s p x.stepId (fld e 231 216) ps x.ctxs)

end Sys2Proof.Machine
end

