-- ==== Sys2Proof/Machine/Errors.lean ====
section
/-! DEFINITION. Error containment: class 2 errors, replay, repeats, fencing and the failure of the tray (R94 to R96, R384, R441, R536 to R546). -/

namespace Sys2Proof.Machine

open Sys2Proof

/-! ### Powering off (R92, R504, R540) -/

/-- A pending injection whose unit has lost its power, or been fenced, is cleared (R545). -/
def injectGuard (s : State) : State :=
  let v := odGet s 0x7810 0
  let kind := nfld v 63 60
  let loc := nfld v 59 40
  let d := loc / 65536
  let on :=
    match kind with
    | 1 => (match coreOfLoc loc with | some k => s.tray.quadOn.getLsbD (coreQuad k) | none => false)
    | 2 => (match clusOfLoc loc with | some c => s.tray.quadOn.getLsbD (clusQuad c) | none => false)
    | 3 => s.tray.dieOn.getLsbD d
    | 4 => s.tray.dieOn.getLsbD d
    | _ => !s.flash.retired.contains (granOf (nfld v 39 0 * 64))
  if v ≠ 0 ∧ !on then odSet s 0x7810 0 0 else s

/-- Power a quadrant off: its stores lose their content, its cluster DMA channels what they hold, its agent and sensors what they read (R13, R16). -/
def quadPowerOff (s : State) (q : Nat) : State :=
  let s := each ((List.range 4).map (4 * q + ·)) queueLost (quadClear s q)
  injectGuard { s with
    tray := { s.tray with quadOn := s.tray.quadOn &&& ~~~ BitVec.ofNat 16 (2 ^ q) }
    cores := s.cores.filter fun x => coreQuad x.1 != q
    seq := { s.seq with lanes := s.seq.lanes.map fun x => (x.1, if clusQuad x.1 = q then { x.2 with cvu := [] } else x.2) }
    wv := { s.wv with quads := mdel s.wv.quads q, pairs := mdel s.wv.pairs q } }

/-- Power a die off: its common domain, with the die DMA, and its quadrants (R16). -/
def diePowerOff (s : State) (d : Nat) : State :=
  let s := queueLost (each ((List.range 4).map (4 * d + ·)) (fun s q => quadPowerOff s q) s) (64 + d)
  injectGuard { s with
    tray := { s.tray with dieOn := s.tray.dieOn &&& ~~~ BitVec.ofNat 4 (2 ^ d) }
    seq := { s.seq with
      imem := mdrop s.seq.imem fun k => k / 8192 == d
      imemOwner := mdrop s.seq.imemOwner fun k => k / 8192 == d
      lanes := mdrop s.seq.lanes fun l => l / 8 == d }
    dieJobs := mdel s.dieJobs d }

/-- Power off quadrants, and each die left with none powered (R21). -/
def quadsOff (s : State) (qs : List Nat) : State :=
  let s := each qs (fun s q => quadPowerOff s q) s
  each (List.range 4) (fun s d =>
    if s.tray.dieOn.getLsbD d && fld s.tray.quadOn (4 * d + 3) (4 * d) == 0 then diePowerOff s d else s) s

/-! ### Failure of the tray (R384, R441, R541) -/

/-- Send YIELD to the partner (R441): this tray dispatches and admits no more. -/
def sendYield (s : State) : State := emit { s with pair := { s.pair with yielded := true } } .yield

/-- A tray that leaves a rehearsal powers off the quadrants that no partition owns (R21). -/
def rehearsalLeave (s : State) : State :=
  if s.pair.role = .rehearsing then quadsOff s ((bitsOf 16 s.tray.quadOn.toNat).filter fun q => decide (quadOwner s q ≥ 16)) else s

/-- The tray declares itself failed: role FAILED, DEEP_SLEEP, a record of class 5 (R384, R536, R541); a rehearsal ends (R21). -/
def declareFailed (s : State) (i : LogInfo) : State :=
  if s.tray.failed then s
  else
    let s := rehearsalLeave (logErr s { i with cls := 5, action := 7 })
    emit { s with
      tray := { s.tray with failed := true, clockState := .deepSleep }
      pair := { s.pair with role := .failed } } .failed

/-- The tray is one of a pair and serves (R540). -/
def pairServing (s : State) : Bool := s.pair.role == .active || s.pair.role == .follower

/-! ### Fencing (R540) -/

/-- A partition's step ends with abort for a fence, and its requests end with FAILED_FENCED. -/
def fenceStep (s : State) (p : Nat) : State :=
  match mget s.car.steps p with
  | none => s
  | some x =>
    if x.ended then stepDrop (batchFail s x 33) p
    else
      let s := { s with car := { s.car with steps := mset s.car.steps p { x with fenced := true } } }
      each x.ctxs (fun s c => ctxEnd s c fcAbort) s

/-- Services of a partition whose cost entries name one of some quadrants refuse SUBMITs. -/
def fenceServices (s : State) (p mask : Nat) : State :=
  each (servicesOf s p) (fun s k =>
    match serviceOf s p k with
    | none => s
    | some v =>
      let q (i : Nat) : Nat := ((costEntry s p i).map fun e => fld e 215 200).getD 0
      if (q (svPrefill v) ||| q (svDecode v)) &&& mask ≠ 0 then serviceFault s p k else s) s

/-- A paired tray that fences anything yields and declares itself failed. -/
def fenceYield (s : State) (i : LogInfo) : State :=
  if pairServing s then declareFailed (sendYield s) i else s

/-- Steps and services that quadrants serve end or are refused. -/
def fenceQuadUsers (s : State) (mask : Nat) : State :=
  let s := each (s.car.steps.filter fun x => (x.2.quads.toNat &&& mask) != 0) (fun s x => fenceStep s x.1) s
  each (mkeys s.car.images) (fun s p => fenceServices s p mask) s

/-- Fence a quadrant. -/
def fenceQuad (s : State) (q : Nat) (i : LogInfo) : State :=
  let s := { s with flash := { s.flash with fencedQuads := s.flash.fencedQuads ||| BitVec.ofNat 16 (2 ^ q) } }
  fenceYield (quadPowerOff (fenceQuadUsers s (2 ^ q)) q) i

/-- Fence a die; on a paired tray that fails the tray in every role (R541). -/
def fenceDie (s : State) (d : Nat) (i : LogInfo) : State :=
  let s := { s with flash := { s.flash with fencedDies := s.flash.fencedDies ||| BitVec.ofNat 4 (2 ^ d) } }
  let s := fenceYield (diePowerOff (fenceQuadUsers s (15 * 2 ^ (4 * d))) d) i
  if s.pair.role = .unpaired then s else declareFailed s i

/-- Fence a Trellis port: the tray runs on the other. -/
def fencePort (s : State) (p : Nat) (i : LogInfo) : State :=
  let s := { s with flash := { s.flash with fencedPorts := s.flash.fencedPorts ||| BitVec.ofNat 2 (2 ^ p) } }
  fenceYield (if p = 0 then portAGone (portSet s p {}) else portSet s p {}) i

/-- Drop one block of a sequence, every layer at once, for recomputation (R234, R236, R540). -/
def dropBlock (s : State) (h b : Nat) : State :=
  let r := reqGet s h
  let es := r.pages.filter fun x => pgPresent x.2 && x.1 % max 1 r.bmax == b
  let s := each es (fun s x => decRef s r.part (fld x.2 27 0)) s
  let pages := es.foldl (fun m x => mset m x.1 (x.2 &&& 0x7FFFFFFF)) r.pages
  let len := min r.len (b * tokOf s r.part)
  let t := tokOf s r.part
  let kept := ((List.range r.bmax).map (· * t)).filter fun n => b * t < n && (n < r.len || r.ahead.contains n)
  reqSet s h { r with
    pages := pages, len := len, prefillTo := max r.prefillTo r.len, matchedTo := min r.matchedTo len
    ahead := r.ahead.filter (· < b * t) ++ kept }

/-- Blocks of a request that hold a frame of a granule. -/
def blocksIn (r : Req) (g : Nat) : List Nat :=
  nodup ((r.pages.filter fun x => pgPresent x.2 && fld x.2 27 0 / 128 == g).map fun x => x.1 % max 1 r.bmax)

/-- Retire a granule under owner tag 0x3F; frames of a pool become FENCED, and a granule that lies elsewhere stops its partition's services until a load (R540). -/
def retireGranule (s : State) (g : Nat) (i : LogInfo) : State :=
  let e := granGet s g
  let p := e.owner.toNat
  let s := { s with flash := { s.flash with retired := if s.flash.retired.contains g then s.flash.retired else g :: s.flash.retired } }
  let s := granSet s g { st := .scrubbing, owner := 0x3F }
  let s :=
    if e.st ≠ .owned ∨ p ≥ 16 then s
    else if (List.range 4).any fun d => (poolHeld (poolGet s p) d).contains g then
      let x := poolGet s p
      let fs := ((List.range 4).flatMap (framesOf x)).filter fun f => f / 128 == g
      let s := each fs (fun s f => frameSet s p f { frameGet s p f with st := .fenced }) s
      each (liveReqs s p) (fun s r => each (blocksIn r.2 g) (fun s b => dropBlock s r.1 b) s) s
    else each (servicesOf s p) (fun s k => serviceFault s p k) s
  fenceYield (injectGuard s) i

/-! ### Class 2 errors (R538, R539, R542) -/

/-- What a repeat fences. -/
inductive Scope
  | quad (q : Nat)
  | die (d : Nat)
  | granule (g : Nat)
  | port (p : Nat)
  | link
  deriving DecidableEq, Repr

/-- ACTION of R543 for a fence. -/
def fenceAction : Scope → Nat
  | .quad _ => 3
  | .die _ => 4
  | .granule _ => 6
  | .port _ => 5
  | .link => 7

/-- Fence a resource, the step of a partition that met the error ending with it (R540, R541). -/
def fenceScope (s : State) (sc : Scope) (p : Nat) (i : LogInfo) : State :=
  let s := logErr s { i with cls := 4, action := fenceAction sc }
  let s := fenceStep s p
  match sc with
  | .quad q => fenceQuad s q i
  | .die d => fenceDie s d i
  | .granule g => retireGranule s g i
  | .port q => fencePort s q i
  | .link => declareFailed s i

/-- Errors at a resource within the repeat window (R539). -/
def seenWithin (s : State) (res : Nat) : List Nat :=
  (mgetD s.err.seen res []).filter fun t => decide (s.clk.now ≤ t + odGet s 0x7C21 0 * 3600000000000)

/-- A class 2 error at a resource met by a partition's step (R536, R539): logged, then a replay on contexts `cs`, or a fence on a repeat or on the fifth error of one step. A replay lies within the window, so a second error during it repeats too. -/
def strike (s : State) (res : Nat) (sc : Scope) (p : Nat) (cs : List Nat) (i : LogInfo) : State :=
  let step := (mget s.car.steps p).map StepRun.stepId
  let old := seenWithin s res
  let i := { i with cls := 2, part := (if p < 16 then p else 0xFF), step := step.getD 0xFFFF, rep := old.length + 1 }
  let stop (s : State) : State := each cs (fun s c => ctxEnd s c fcParity) s
  if i.injected then
    let s := match mget s.car.steps p with
      | some x => { s with car := { s.car with steps := mset s.car.steps p { x with injected := true } } }
      | none => s
    stop (logErr s { i with rep := old.length, action := if step.isSome then 2 else 1 })
  else
    let s := { s with err := { s.err with seen := mset s.err.seen res (s.clk.now :: old) } }
    let fifth := match mget s.car.steps p with | some x => decide (x.replays ≥ 4) | none => false
    let fence := old != [] || fifth
    let s := logErr s { i with action := if fence then fenceAction sc else if step.isSome then 2 else 1 }
    if fence then fenceScope s sc p i else stop s

/-- Contexts whose lanes include a cluster's. -/
def clusCtxs (s : State) (c : Nat) : List Nat := (laneCtx s c).toList

/-- An error in an on-chip store or path (R94, R96, R539 to R541). -/
def siteError (s : State) (site : ErrSite) (injected : Bool) : State :=
  match site with
  | .coreStore k kind =>
    strike s (locOfCore k.val * 8 + kind.val) (.quad (coreQuad k.val)) (quadOwner s (coreQuad k.val)) (clusCtxs s (coreClus k.val))
      { cls := 2, block := 0, kind := kind.val, loc := locOfCore k.val, quad := coreQuad k.val, injected := injected }
  | .clusterStore c kind =>
    strike s (2 ^ 24 + locOfClus c.val * 8 + kind.val) (.quad (clusQuad c.val)) (quadOwner s (clusQuad c.val)) (clusCtxs s c.val)
      { cls := 2, block := 1, kind := kind.val, loc := locOfClus c.val, quad := clusQuad c.val, injected := injected }
  | .dieCommon c kind =>
    let d := c.val / 4
    strike s (2 ^ 25 + d * 8 + kind.val) (.die d) (((ctxGet s c.val).part.map Fin.val).getD 0x3F) [c.val]
      { cls := 2, block := 2, kind := kind.val, loc := d * 65536, injected := injected }
  | .dieLink c =>
    let d := c.val / 4
    strike s (2 ^ 26 + d) .link (((ctxGet s c.val).part.map Fin.val).getD 0x3F) [c.val]
      { cls := 2, block := 3, loc := d * 65536, injected := injected }
  | .hubStore => declareFailed s { cls := 5, block := 8, loc := 0x80000 }

/-- The unit of a site is powered. -/
def sitePowered (s : State) : ErrSite → Bool
  | .coreStore k _ => s.tray.quadOn.getLsbD (coreQuad k.val)
  | .clusterStore c _ => s.tray.quadOn.getLsbD (clusQuad c.val)
  | .dieCommon c _ => s.tray.dieOn.getLsbD (c.val / 4)
  | .dieLink c => s.tray.dieOn.getLsbD (c.val / 4)
  | .hubStore => s.tray.hub.hubCommon

/-- PARITY_ERROR (R94, R96, R538 to R541). -/
def execParityError (site : ErrSite) (s : State) : Res :=
  if sitePowered s site then .next (siteError s site false) else .next s

/-- An uncorrectable HBM line met under a partition's tag (R140, R536, R540, R541). -/
def ueStrike (s : State) (p a : Nat) (injected : Bool) : State :=
  let i : LogInfo := { cls := 2, block := 4, addr := a, injected := injected }
  if granReserved s (granOf a) && !injected then declareFailed s { i with cls := 5 }
  else strike s (2 ^ 40 + a / 64) (.granule (granOf a)) p [] i

end Sys2Proof.Machine
end

