-- ==== Sys2Proof/Machine/Pinwheel.lean ====
section
/-! DEFINITION. Pinwheel: the job of R201, its checks, its arithmetic and its owner (R199 to R206). -/

namespace Sys2Proof.Machine

open Sys2Proof

/-! ### Engines of a die's common domain (R200, R205, R277, R279) -/

/-- The contexts of a die in which a partition's step runs. -/
def dieCtxs (s : State) (d p : Nat) : List Nat :=
  ((List.range 4).map (4 * d + ·)).filter fun c => (ctxGet s c).step.isSome && (ctxGet s c).part.map Fin.val == some p

/-- End the step of a die's job with a fault code (R205, R279). -/
def dieFault (s : State) (d p : Nat) (code : Fin 5) : State := each (dieCtxs s d p) (fun s c => ctxEnd s c code) s

/-- A job's WAIT holds (R86, R200, R278). -/
def jobWait (s : State) (en : Bool) (loc cnt tgt : Nat) : Bool :=
  !en || (match clusOfLoc loc with
    | some c => waitOk (cntValue (cntGet s c cnt)) (BitVec.ofNat 32 tgt)
    | none => false)

/-- A location that a WAIT or POST of a job may name: a cluster, and for a POST a release counter (R27, R306). -/
def jobLocBad (en : Bool) (loc : Nat) (post : Bool) : Bool := en && (clusOfLoc loc).isNone && !(post && loc == 0x80000)

/-- Element encoding at an index of a packed array in a partition's memory (R32). -/
def memElem (s : State) (part base fmt i : Nat) : Nat :=
  match fmtBits fmt with
  | 4 => nfld (partNat s part (base + i / 2) 1) (4 * (i % 2) + 3) (4 * (i % 2))
  | 6 => partNat s part (base + 6 * i / 8) 2 >>> (6 * i % 8) % 64
  | 16 => partNat s part (base + 2 * i) 2
  | _ => partNat s part (base + i) 1

/-- Bytes of `n` elements of a format. -/
def elemBytes (fmt n : Nat) : Nat := cdiv (n * fmtBits fmt) 8

/-! ### The job (R201) -/

/-- MODE LAST. -/
def pwLast (j : BitVec 1024) : Bool := bit j 1019
/-- CIN. -/
def pwCin (j : BitVec 1024) : Nat := fld j 1018 1012
/-- COUT. -/
def pwCout (j : BitVec 1024) : Nat := fld j 1011 1005
/-- IN_FMT. -/
def pwInFmt (j : BitVec 1024) : Nat := fld j 1004 1001
/-- W_FMT. -/
def pwWFmt (j : BitVec 1024) : Nat := fld j 1000 997
/-- OUT_FMT. -/
def pwOutFmt (j : BitVec 1024) : Nat := fld j 996 993
/-- KH. -/
def pwKh (j : BitVec 1024) : Nat := fld j 981 977
/-- KW. -/
def pwKw (j : BitVec 1024) : Nat := fld j 976 972
/-- IMG_H. -/
def pwH (j : BitVec 1024) : Nat := fld j 915 904
/-- IMG_W. -/
def pwW (j : BitVec 1024) : Nat := fld j 903 892
/-- OUT_W. -/
def pwOutW (j : BitVec 1024) : Nat := fld j 867 856
/-- Output rows of the stripe. -/
def pwRows (j : BitVec 1024) : List Nat := (List.range (fld j 879 868)).map (fld j 891 880 + ·)
/-- Steps of the reduction before padding. -/
def pwK (j : BitVec 1024) : Nat := pwKh j * pwKw j * pwCin j
/-- Reduction blocks of 32. -/
def pwKb (j : BitVec 1024) : Nat := cdiv (pwK j) 32

/-- VER or a field outside its range (R205). -/
def pwBad (j : BitVec 1024) : Bool :=
  let last := pwLast j
  fld j 1023 1020 != 1
  || pwCin j == 0 || decide (pwCin j > if last then 64 else 4)
  || pwCout j == 0 || decide (pwCout j > if last then 8 else 64)
  || !(if last then [0, 8, 9] else [0, 1]).contains (pwInFmt j)
  || decide (pwWFmt j > 9) || decide (pwOutFmt j > 10)
  || pwKh j == 0 || pwKw j == 0 || fld j 963 956 == 0 || fld j 955 948 == 0
  || pwH j == 0 || pwW j == 0 || pwOutW j == 0 || fld j 879 868 == 0
  || jobLocBad (bit j 371) (fld j 370 351) false || jobLocBad (bit j 309) (fld j 308 289) true

/-- Plane p is halved vertically, horizontally (R201: SUB). -/
def pwHalf (j : BitVec 1024) (p : Nat) : Bool × Bool := (bit j (848 + 2 * p + 1), bit j (848 + 2 * p))

/-- Input coordinates of tap (ky, kx) at output (oy, ox) on the full-resolution grid (R184, R202). -/
def pwCoord (j : BitVec 1024) (oy ox ky kx : Nat) : Int × Int :=
  (((oy * (fld j 971 968 + 1) + ky * fld j 963 956 : Nat) : Int) - (fld j 947 940 : Nat),
   ((ox * (fld j 967 964 + 1) + kx * fld j 955 948 : Nat) : Int) - (fld j 939 932 : Nat))

/-- A coordinate as a plane holds it, halved where the plane is, or none in padding: outside the plane (R202). -/
def pwPlane (half : Bool) (size : Nat) (i : Int) : Option Nat :=
  let k : Int := if half then i / 2 else i
  let n := if half then cdiv size 2 else size
  if 0 ≤ k ∧ k < (n : Int) then some k.toNat else none

/-- Address of a sample of channel c, or none in padding (R184, R202). -/
def pwAddr (j : BitVec 1024) (c : Nat) (at_ : Int × Int) : Option Nat :=
  let h := if pwLast j then (false, false) else pwHalf j c
  match pwPlane h.1 (pwH j) at_.1, pwPlane h.2 (pwW j) at_.2 with
  | some y, some x =>
    if pwLast j then
      some (fld j 831 784 + c * fld j 599 568 + y * fld j 639 620 + x * (fmtBits (pwInFmt j) / 8))
    else
      let base := fld j (831 - 48 * c) (784 - 48 * c)
      let pitch := if h.1 || h.2 then fld j 619 600 else fld j 639 620
      some (base + y * pitch + x * (if pwInFmt j = 0 then 1 else 2))
  | _, _ => none

/-- Bytes of a sample. -/
def pwSize (j : BitVec 1024) : Nat :=
  if pwLast j then fmtBits (pwInFmt j) / 8 else if pwInFmt j = 0 then 1 else 2

/-- A sample's value from its code: centred in FIRST mode (R202), the element in LAST mode. -/
def pwValue (j : BitVec 1024) (code : Nat) : Num :=
  if pwLast j then elemRead (pwInFmt j) code
  else if pwInFmt j = 0 then numOfInt ((code % 256 : Nat) - (128 : Int)) 0
  else numOfInt ((code % 1024 : Nat) - (512 : Int)) 0

/-- Code of the sample for step k at (oy, ox): 0 beyond the last step. -/
def pwCode (s : State) (part : Nat) (j : BitVec 1024) (oy ox k : Nat) : Nat :=
  let t := k / pwCin j
  match pwAddr j (k % pwCin j) (pwCoord j oy ox (t / pwKw j) (t % pwKw j)) with
  | some a => partNat s part a (pwSize j)
  | none => fld j 931 916 % 2 ^ (8 * pwSize j)

/-- Magnitude exponent of the samples of a block (R37, R203): 8, 10, or by the shadow of the block's elements. -/
def pwInU (s : State) (part : Nat) (j : BitVec 1024) (oy ox blk : Nat) : Option Int :=
  if pwLast j then
    let ks := ((List.range 32).map (32 * blk + ·)).filter (· < pwK j)
    blockU (pwInFmt j) (shadowOf (pwInFmt j) (ks.map (pwCode s part j oy ox)))
  else some (if pwInFmt j = 0 then 8 else 10)

/-- Address of output channel o's weights: whole blocks, each channel from a 64 B boundary. -/
def pwWAddr (j : BitVec 1024) (o : Nat) : Nat :=
  fld j 567 520 + o * (cdiv (elemBytes (pwWFmt j) (32 * pwKb j)) 64 * 64)

/-- Scale or shadow byte of channel o's weight block. -/
def pwWScale (s : State) (part : Nat) (j : BitVec 1024) (o blk : Nat) : Nat :=
  if fmtMX (pwWFmt j) || fmtShadow (pwWFmt j) then partNat s part (fld j 519 472 + o * pwKb j + blk) 1 else 0

/-- The converted values of an anchor group (R38, R203): output channel o, row oy, positions from 32 g on. -/
def pwGroup (s : State) (part : Nat) (j : BitVec 1024) (o oy g : Nat) : List Num :=
  let xs := ((List.range 32).map (32 * g + ·)).filter (· < pwOutW j)
  let us := (List.range (pwKb j)).filterMap fun b =>
    match blockU (pwWFmt j) (pwWScale s part j o b), imax (xs.filterMap fun x => pwInU s part j oy x b) with
    | some u, some v => some (u + v)
    | _, _ => none
  let a := (imax us).getD (-300)
  xs.map fun x =>
    accValue a ((List.range (pwK j)).foldl (fun acc k =>
      accAdd a acc (numMul (blockElem (pwWFmt j) (pwWScale s part j o (k / 32)) (memElem s part (pwWAddr j o) (pwWFmt j) k))
        (pwValue j (pwCode s part j oy x k)))) {})

/-- Address of an output sample's row. -/
def pwOutRow (j : BitVec 1024) (o oy : Nat) : Nat := fld j 471 424 + o * fld j 403 372 + oy * fld j 423 404

/-- Encodings of an output row of a channel, with the scale bytes of its MX blocks (R47 to R52, R203). -/
def pwRow (s : State) (part : Nat) (j : BitVec 1024) (o oy : Nat) : List Nat × List Nat :=
  let gs := (List.range (cdiv (pwOutW j) 32)).map fun g =>
    let vs := pwGroup s part j o oy g
    let fmt := pwOutFmt j
    if fmtMX fmt then let r := mxWrite fmt (fld j 992 991) (bit j 990) vs; (r.2.1, [r.1])
    else (vs.map fun v => (elemWrite fmt (fld j 992 991) (bit j 990) (sx 8 (fld j 989 982)) v).1, [])
  (gs.flatMap Prod.fst, gs.flatMap Prod.snd)

/-- Pack encodings of a format into bytes (R32). -/
def packElems (fmt : Nat) (es : List Nat) : List Byte :=
  leBytes (elemBytes fmt es.length) (es.zipIdx.foldl (fun n e => n + e.1 % 2 ^ fmtBits fmt * 2 ^ (fmtBits fmt * e.2)) 0)

/-- Writes of a job: rows of every channel, MX scales, and shadows by channel block of 32 (R177, R203). -/
def pwWrites (s : State) (part : Nat) (j : BitVec 1024) : List (Nat × List Byte) :=
  (pwRows j).flatMap fun oy =>
    let rows := (List.range (pwCout j)).map fun o => pwRow s part j o oy
    let data := rows.zipIdx.map fun r => (pwOutRow j r.2 oy, packElems (pwOutFmt j) r.1.1)
    let scales := rows.zipIdx.flatMap fun r => r.1.2.zipIdx.map fun b =>
      (Config.pinwheelScaleAddr j r.2 oy b.2, [BitVec.ofNat 8 b.1])
    let shadows := if fmtShadow (pwOutFmt j) then
        (List.range (cdiv (pwCout j) 32)).flatMap fun b => (List.range (pwOutW j)).map fun x =>
          (Config.pinwheelScaleAddr j b oy x,
           [BitVec.ofNat 8 (shadowOf (pwOutFmt j) (((rows.drop (32 * b)).take 32).map fun r => r.1.getD x 0))])
      else []
    data ++ scales ++ shadows

/-- Lines that a job reads. -/
def pwReads (j : BitVec 1024) : List Nat :=
  let ins := (pwRows j).flatMap fun oy => (List.range (pwOutW j)).flatMap fun ox =>
    (List.range (pwK j)).flatMap fun k =>
      let t := k / pwCin j
      match pwAddr j (k % pwCin j) (pwCoord j oy ox (t / pwKw j) (t % pwKw j)) with
      | some a => spanLines a (pwSize j)
      | none => []
  let ws := (List.range (pwCout j)).flatMap fun o => spanLines (pwWAddr j o) (elemBytes (pwWFmt j) (32 * pwKb j))
  let sc := if fmtMX (pwWFmt j) || fmtShadow (pwWFmt j) then spanLines (fld j 519 472) (pwCout j * pwKb j) else []
  nodup (ins ++ ws ++ sc)

/-- Lines that a job writes. -/
def pwWriteLines (l : List (Nat × List Byte)) : List Nat := nodup (l.flatMap fun x => spanLines x.1 x.2.length)

/-- Die NoC cycles of a job (R204). -/
def pwCycles (j : BitVec 1024) : Nat :=
  let macs := fld j 879 868 * pwOutW j * pwCout j * pwK j
  cdiv macs (if fmtShadow (pwWFmt j) || (pwLast j && fmtShadow (pwInFmt j)) then 1024 else 2048)

/-- Remove the first Pinwheel job of a die. -/
def pinwheelPop (s : State) (d : Nat) : State :=
  { s with dieJobs := mupd s.dieJobs d {} fun x => { x with pinwheel := x.pinwheel.drop 1 } }

/-- Read lines for a die engine: their ECC outcomes and unwritten lines count, and those that stay uncorrectable are named (R90, R139, R140). -/
def dieReads (s : State) (part : Nat) (ecc : List EccEvent) (ls : List Nat) : List Nat × State :=
  ls.foldl (fun acc a =>
    let (g, s) := lineLoadAt acc.2 part ecc a
    (if g.ue then acc.1 ++ [a] else acc.1, s)) ([], s)

/-- A die engine's accesses for partition p: the reads, and the fault that ends the step where a check fails or a line stays uncorrectable (R150, R163, R205, R279). -/
def dieWork (s : State) (d p : Nat) (ecc : List EccEvent) (rd wr : List Nat) : Bool × State :=
  let st := dieAccess s d p rd wr
  if st ≠ stOk then (false, dieFault s d p (statusFault st))
  else
    let (ues, s) := dieReads s p ecc rd
    if ues = [] then (true, s)
    else (false, dieFault (each ues (fun s a => ueStrike s p a false) s) d p (statusFault stUe))

/-- Run a job of partition p's step whose fields are legal and whose WAIT holds (R200 to R204). -/
def pinwheelRun (s : State) (d p : Nat) (ecc : List EccEvent) (j : BitVec 1024) : State :=
  let ws := pwWrites s p j
  let (ok, s) := dieWork (pinwheelPop s d) d p ecc (pwReads j) (pwWriteLines ws)
  if !ok then s
  else
    let s := each ws (fun s w => partPut s p w.1 w.2) s
    let s := bumpBy (bump64 s 0x4031 (d + 1)) 0x4032 (d + 1) 64 (pwCycles j)
    if bit j 309 then locPost s p (fld j 308 289) (fld j 288 280) (BitVec.ofNat 32 (fld j 279 264)) else s

/-- PINWHEEL_JOB (R200 to R205): the first job of the die's list, once its WAIT is satisfied. -/
def execPinwheelJob (d : EngTurn Die) (s : State) : Res :=
  let x := mgetD s.dieJobs d.eng.val {}
  match x.pinwheel with
  | [] => .next s
  | j :: _ =>
    if (dieCtxs s d.eng.val x.pinwheelFor).any fun c => (ctxGet s c).fault.isSome then .next s
    else if pwBad j then .next (dieFault (pinwheelPop s d.eng.val) d.eng.val x.pinwheelFor fcImage)
    else if !jobWait s (bit j 371) (fld j 370 351) (fld j 350 342) (fld j 341 310) then .next s
    else .next (pinwheelRun s d.eng.val x.pinwheelFor d.ecc j)

/-- The buffers of a die's engine, which hold the waiting jobs under their owner's tag, are cleared as its owner changes (R92, R199, R277). -/
def dieBuffersClear (s : State) (d : Nat) (pinwheel : Bool) : State :=
  { s with dieJobs := mupd s.dieJobs d {} fun x =>
      if pinwheel then { x with pinwheel := [], pinwheelFor := 0x3F } else { x with delta := [], deltaFor := 0x3F } }

/-- The clamp of OD 0x4030 and 0x3805 (R206, R401): 16 to 0xFE give 0xFF; a partition not ACTIVE, the current value; one with no quadrant of the die, 0xFF. -/
def ownerClamp (idx d : Nat) (s : State) (v : Nat) : Nat :=
  if v ≥ 16 then 0xFF
  else if ((mget s.gate.parts v).map Partn.st).getD .free ≠ .active then odGet s idx (d + 1)
  else if (partQuads s v >>> (4 * d)) % 16 = 0 then 0xFF
  else v

/-- PINWHEEL_OWNER_WRITE (R199, R206): jobs are one step each, so Pinwheel is idle and the owner changes at once. -/
def execPinwheelOwnerWrite (rq : DictReq) (d : Die) (v : List Byte) (s : State) : Res :=
  let old := odGet s 0x4030 (d.val + 1)
  .next (dictWrite s rq 0x4030 (d.val + 1) v (ownerClamp 0x4030 d.val) fun s w =>
    if w = old then s else dieBuffersClear s d.val true)

end Sys2Proof.Machine
end

