-- ==== Sys2Proof/Machine/Variants.lean ====
section
/-! DEFINITION. Model variants: delta images, registration and retirement, and the delta engine (R271 to R289). -/

namespace Sys2Proof.Machine

open Sys2Proof

/-! ### Delta images (R274 to R276) -/

/-- A directory entry of a part (R275). -/
structure DirEnt where
  matrix : Nat
  fmt : Nat
  kb : Nat
  /-- Column groups held on the part's die. -/
  cgFirst : Nat
  cgCount : Nat
  tileFirst : Nat
  tileCount : Nat
  body : Nat
  deriving DecidableEq, Repr

/-- The directory of a part at an address. -/
def partDir (s : State) (p a : Nat) : List DirEnt :=
  (List.range (partNat s p (a + 4) 4)).map fun i =>
    let e := partNat s p (a + 256 + 32 * i) 32
    { matrix := nfld e 255 240, fmt := nfld e 239 236, kb := nfld e 235 220
      cgFirst := nfld e 219 204, cgCount := nfld e 203 188, tileFirst := nfld e 187 156
      tileCount := nfld e 155 124, body := nfld e 123 92 }

/-- EB: bytes of a column block (R276). -/
def colBytes (fmt : Nat) : Nat := 4 * fmtBits fmt

/-- Bytes of a tile body. -/
def tileBytes (fmt : Nat) : Nat := 32 * (colBytes fmt + 1)

/-- Size of a part: the end of the last of its directory, index and bodies. -/
def partSize (s : State) (p a : Nat) : Nat :=
  let ds := partDir s p a
  lmax ([256 + 32 * partNat s p (a + 4) 4, partNat s p (a + 28) 4 + 4 * partNat s p (a + 24) 4]
    ++ ds.map fun d => d.body + d.tileCount * tileBytes d.fmt)

/-- Index entry of tile i: J and column group. -/
def tileIndex (s : State) (p a i : Nat) : Nat × Nat :=
  let e := partNat s p (a + partNat s p (a + 28) 4 + 4 * i) 4
  (e / 65536, e % 65536)

/-- Parts that the head part at an address names: die and address. -/
def partTable (s : State) (p a : Nat) : List (Nat × Nat) :=
  (bitsOf 4 (partNat s p (a + 2) 1)).map fun d => (d, partNat s p (a + 32 + 8 * d) 8)

/-- Parts with the granules they cover. -/
def partRanges (s : State) (p a : Nat) : List (Nat × Nat × Nat) :=
  (partTable s p a).map fun x =>
    let n := max 256 (partSize s p x.2)
    (x.1, x.2, (x.2 + n - 1) / 2 ^ 21 + 1 - granOf x.2)

/-- VER, BASE_ID, ownership and CHECK of one part (R285). -/
def partGood (s : State) (p : Nat) (img : Image) (x : Nat × Nat) : Bool :=
  let a := x.2
  a / 2 ^ 37 == x.1 && hbmOwned s p a 256 && partNat s p a 1 == 1 && partNat s p (a + 1) 1 == x.1
  && partNat s p (a + 8) 8 == img.baseId.toNat
  && hbmOwned s p a (partSize s p a)
  && (presetCheck none (partBytes s p (a + 256) (partSize s p a - 256))).toNat == partNat s p (a + 16) 8

/-- Tiles of a part's directory entry: number, J, column group. -/
def entTiles (s : State) (p a : Nat) (d : DirEnt) : List (Nat × Nat × Nat) :=
  (List.range d.tileCount).map fun n => (d.tileFirst + n, tileIndex s p a (d.tileFirst + n))

/-- Address of a tile's body. -/
def tileAddr (a : Nat) (d : DirEnt) (i : Nat) : Nat := a + d.body + (i - d.tileFirst) * tileBytes d.fmt

/-- Scale or shadow byte of a column block of a tile. -/
def tileScale (s : State) (p a : Nat) (d : DirEnt) (i k : Nat) : Nat :=
  partNat s p (tileAddr a d i + 32 * colBytes d.fmt + k) 1

/-- R273 for every tile of a part. -/
def scaleGood (s : State) (p : Nat) (img : Image) (a : Nat) : Bool :=
  (partDir s p a).all fun d => (entTiles s p a d).all fun t =>
    match imax ((List.range 32).filterMap fun k => blockU d.fmt (tileScale s p a d t.1 k)) with
    | none => true
    | some u =>
      match img.baseTileU.find? fun b => b.1 == (d.matrix, t.2.1, t.2.2) with
      | some b => decide (u ≤ b.2)
      | none => false

/-- The limits of R283 over every part. -/
def limitGood (s : State) (p : Nat) (img : Image) (ps : List (Nat × Nat)) : Bool :=
  ps.all (fun x => decide (partNat s p (x.2 + 24) 4 ≤ img.maxTiles))
  && (let ds := ps.flatMap fun x => partDir s p x.2
      ds.all fun d => decide (4 * lsum ((ds.filter fun e => e.matrix == d.matrix).map DirEnt.tileCount) ≤ img.matrixTiles.getD d.matrix 0))

/-! ### Commands (R285, R286, R288, R289) -/

/-- Key of a variant. -/
def varKey (p v : Nat) : Nat := 4096 * p + v

/-- Variants of a partition that are not FREE. -/
def varsOf (s : State) (p : Nat) : List (Nat × Variant) := s.variants.filter fun x => x.1 / 4096 == p

/-- Replace a variant. -/
def varSet (s : State) (p v : Nat) (x : Variant) : State := { s with variants := mset s.variants (varKey p v) x }

/-- Record a result in OD 0x3801. -/
def varResult (s : State) (p v res : Nat) : State := odSet s 0x3801 (p + 1) (res * 2 ^ 28 + v * 2 ^ 16)

/-- Why a command finds its number taken: BUSY or IN_USE (R286); 0 where the number is FREE and no command is in progress, 8 where it is ACTIVE. -/
def varBusy (s : State) (p v : Nat) : Nat :=
  if (varsOf s p).any fun x => x.2.st == .loading then 2
  else
    match mget s.variants (varKey p v) with
    | none => 0
    | some x => if x.st = .active then 8 else 2

/-- REGISTER (R285, R286). -/
def varRegister (s : State) (p v a : Nat) : State :=
  let b := varBusy s p v
  if b = 2 then varResult s p v 2
  else if b = 8 then varResult s p v 3
  else if (imageOf s p).isNone ∨ (varsOf s p).length ≥ 1024 then varResult s p v 6
  else varResult (varSet s p v { st := .loading, addr := a, parts := partRanges s p a }) p v 0

/-- RETIRE (R285, R286). -/
def varRetire (s : State) (p v : Nat) : State :=
  let b := varBusy s p v
  if b = 2 then varResult s p v 2
  else if b = 0 then varResult s p v 7
  else
    match mget s.variants (varKey p v) with
    | some x => variantIdle (varResult (varSet s p v { x with st := .retiring }) p v 0) p
    | none => s

/-- The clamp of OD 0x3800 (R289): ACTION to 2, VARIANT to 1 to 4,095. -/
def varClamp (_ : State) (v : Nat) : Nat :=
  nput (nput v 63 60 (min (nfld v 63 60) 2)) 59 48 (max (nfld v 59 48) 1)

/-- A write of OD 0x3800. -/
def varWrite (s : State) (rq : DictReq) (p : Nat) (v : List Byte) : State :=
  dictWrite s rq 0x3800 (p + 1) v varClamp fun s w =>
    match nfld w 63 60 with
    | 1 => varRegister s p (nfld w 59 48) (nfld w 47 0)
    | 2 => varRetire s p (nfld w 59 48)
    | _ => s

/-- The bytes of a command for OD 0x3800. -/
def varBytes (action : Nat) (variant : BitVec 12) (addr : BitVec 48) : List Byte :=
  leBytes 8 (action * 2 ^ 60 + variant.toNat * 2 ^ 48 + addr.toNat)

/-- VARIANT_REGISTER (R285, R286). -/
def execVariantRegister (rq : DictReq) (p : PartId) (variant : BitVec 12) (addr : BitVec 48) (s : State) : Res :=
  .next (varWrite s rq p.val (varBytes 1 variant addr))

/-- VARIANT_RETIRE (R285, R286). -/
def execVariantRetire (rq : DictReq) (p : PartId) (variant : BitVec 12) (s : State) : Res :=
  .next (varWrite s rq p.val (varBytes 2 variant 0))

/-- Set WP on the granules of a variant's parts (R148, R285). -/
def varProtect (s : State) (p : Nat) (v : Variant) : State :=
  each v.parts (fun s x =>
    each ((List.range x.2.2).map fun i => granOf x.2.1 + i) (fun s g =>
      let e := granGet s g
      if e.owner.toNat = p then granSet s g { e with wp := true } else s) s) s

/-- Result of checking a variant's parts (R285, R286). -/
def varCheck (s : State) (p a : Nat) : Nat :=
  match imageOf s p with
  | none => 6
  | some l =>
    if !hbmOwned s p a 256 || partTable s p a == [] then 4
    else if !(partTable s p a).all (partGood s p l.img) then 4
    else if !(partTable s p a).all (fun x => scaleGood s p l.img x.2) then 5
    else if !limitGood s p l.img (partTable s p a) then 6
    else 1

/-- VARIANT_CHECK_DONE (R285, R286): the Carousel has read every part of the variant that is LOADING. -/
def execVariantCheckDone (p : PartId) (s : State) : Res :=
  match (varsOf s p.val).find? fun x => x.2.st == .loading with
  | none => .next s
  | some (k, x) =>
    let v := k % 4096
    let r := varCheck s p.val x.addr
    if r ≠ 1 then .next (varResult { s with variants := mdel s.variants k } p.val v r)
    else
      let ps := partTable s p.val x.addr
      let y : Variant := { x with st := .active, parts := partRanges s p.val x.addr, tiles := lmax (ps.map fun q => partNat s p.val (q.2 + 24) 4) }
      .next (varResult (varProtect (varSet s p.val v y) p.val y) p.val v 1)

/-! ### The delta engine (R278 to R282) -/

/-- CG_COUNT. -/
def djCount (j : W512) : Nat := fld j 471 456
/-- ACT_FMT. -/
def djAct (j : W512) : Nat := fld j 491 488

/-- What the engine takes from the step in flight: partition, rows with their variants, matrix format and blocks. -/
structure DeltaEnv where
  part : Nat
  vars : List Nat
  fmt : Nat
  kb : Nat
  deriving DecidableEq, Repr

/-- Tray physical address in the cluster that a job names. -/
def djAddr (loc off : Nat) : Nat := 2 ^ 47 + loc * 2 ^ 24 + off

/-- VER or a field outside its range (R279, R280). -/
def djBad (j : W512) : Bool :=
  fld j 511 508 != 1 || decide (djAct j > 9) || djCount j == 0
  || (clusOfLoc (fld j 455 436)).isNone || (clusOfLoc (fld j 393 374)).isNone
  || jobLocBad (bit j 256) (fld j 255 236) false || jobLocBad (bit j 194) (fld j 193 174) true

/-- Variants of the batch's rows, as the batch buffer holds them (R244, R278). -/
def batchVars (s : State) (p : Nat) (x : StepRun) : List Nat :=
  let v := (serviceOf s p x.service).getD 0
  (List.range ((x.params.getD 2 0).toNat)).map fun i => nfld (partNat s p (batchAddr v x.buffer + 32 * i) 32) 153 138

/-- Environment of the die's delta jobs: the step in flight and the matrix's form in its image. -/
def deltaEnv (s : State) (p : Nat) (j : W512) : Option DeltaEnv :=
  match mget s.car.steps p, imageOf s p with
  | some x, some l =>
    match l.img.matrixForm[fld j 507 492]? with
    | some f => some { part := p, vars := batchVars s p x, fmt := f.1, kb := f.2 }
    | none => none
  | _, _ => none

/-- Activation element k of a row. -/
def djElem (s : State) (e : DeltaEnv) (j : W512) (row k : Nat) : Nat :=
  memElem s e.part (djAddr (fld j 455 436) (fld j 435 415 + row * fld j 148 133 * 64)) (djAct j) k

/-- Scale or shadow of block b of a row. -/
def djScale (s : State) (e : DeltaEnv) (j : W512) (row b : Nat) : Nat :=
  partNat s e.part (djAddr (fld j 455 436) (fld j 414 394 + row * (cdiv e.kb 64 * 64) + b)) 1

/-- Address of the base elements of column n, block b. -/
def djBase (e : DeltaEnv) (j : W512) (n b : Nat) : Nat := fld j 352 305 + (n * e.kb + b) * colBytes e.fmt

/-- Base scale or shadow of column n, block b. -/
def djBaseScale (s : State) (e : DeltaEnv) (j : W512) (n b : Nat) : Nat := partNat s e.part (fld j 304 257 + n * e.kb + b) 1

/-- Anchor of a row at column group g over the base matrix (R38, R272). -/
def djAnchor (s : State) (e : DeltaEnv) (j : W512) (row g : Nat) : Int :=
  let us := (List.range e.kb).filterMap fun b =>
    match blockU (djAct j) (djScale s e j row b),
          imax ((List.range 32).filterMap fun i => blockU e.fmt (djBaseScale s e j (32 * g + i) b)) with
    | some x, some y => some (x + y)
    | _, _ => none
  (imax us).getD (-300)

/-- Replaced tiles of a variant in a matrix at a column group of a die: part address, directory entry, tile number, J. -/
def djTiles (s : State) (e : DeltaEnv) (d : Nat) (j : W512) (v g : Nat) : List (Nat × DirEnt × Nat × Nat) :=
  match (if v = 0 then none else mget s.variants (varKey e.part v)) with
  | none => []
  | some x =>
    (x.parts.filter fun q => q.1 == d).flatMap fun q =>
      ((partDir s e.part q.2.1).filter fun m => m.matrix == fld j 507 492 && decide (m.cgFirst ≤ g) && decide (g < m.cgFirst + m.cgCount)).flatMap fun m =>
        ((entTiles s e.part q.2.1 m).filter fun t => t.2.2 == g).map fun t => (q.2.1, m, t.1, t.2.1)

/-- Correction of a cell (R278): variant terms less base terms of each replaced tile, every term floored on the row's anchor. -/
def djCell (s : State) (e : DeltaEnv) (j : W512) (row g i : Nat) (a : Int) (ts : List (Nat × DirEnt × Nat × Nat)) : Acc :=
  ts.foldl (fun acc t =>
    let (pa, m, n, jb) := t
    let asc := djScale s e j row jb
    let vsc := tileScale s e.part pa m n i
    let bsc := djBaseScale s e j (32 * g + i) jb
    (List.range 32).foldl (fun acc k =>
      let x := blockElem (djAct j) asc (djElem s e j row (32 * jb + k))
      let w := blockElem m.fmt vsc (memElem s e.part (tileAddr pa m n + i * colBytes m.fmt) m.fmt k)
      let b := blockElem e.fmt bsc (memElem s e.part (djBase e j (32 * g + i) jb) e.fmt k)
      let neg := accAdd a {} (numMul x b)
      let r := accAdd a acc (numMul x w)
      { r with v := r.v - neg.v }) acc) {}

/-- The record row of a row and column group: 32 records of 16 B. -/
def djRow (s : State) (e : DeltaEnv) (d : Nat) (j : W512) (row g : Nat) : List Byte :=
  let a := djAnchor s e j row g
  let v := e.vars.getD row 0
  let ts := djTiles s e d j v g
  let r := rowOf a false ((List.range 32).map fun i => djCell s e j row g i a ts)
  (List.range 32).flatMap fun i => leBytes 16 (recWrite a (rowAcc r i)).toNat

/-- Column groups of a job. -/
def djGroups (j : W512) : List Nat := (List.range (djCount j)).map (fld j 487 472 + ·)

/-- 64-row tiles with a row of nonzero variant (R278). -/
def djRowTiles (e : DeltaEnv) : List Nat :=
  (List.range (cdiv e.vars.length 64)).filter fun t => ((e.vars.drop (64 * t)).take 64).any (· != 0)

/-- Record writes of a job: address and bytes. -/
def djWrites (s : State) (e : DeltaEnv) (d : Nat) (j : W512) : List (Nat × List Byte) :=
  (djRowTiles e).flatMap fun t => (djGroups j).zipIdx.flatMap fun g => (List.range 64).map fun i =>
    (djAddr (fld j 393 374) (fld j 373 353 + (t * djCount j + g.2) * 32768 + 512 * i), djRow s e d j (64 * t + i) g.1)

/-- Lines of the batch buffer that the engine reads for its rows' variants (R278). -/
def batchLines (s : State) (e : DeltaEnv) : List Nat :=
  match mget s.car.steps e.part with
  | some x => spanLines (batchAddr ((serviceOf s e.part x.service).getD 0) x.buffer) (32 * e.vars.length)
  | none => []

/-- Lines of a variant's parts on a die that the engine reads to find tiles: header, directory, and the index of a matrix (R275, R276). -/
def dirLines (s : State) (e : DeltaEnv) (d : Nat) (j : W512) (v : Nat) : List Nat :=
  match mget s.variants (varKey e.part v) with
  | none => []
  | some x => (x.parts.filter fun q => q.1 == d).flatMap fun q =>
      let a := q.2.1
      spanLines a (256 + 32 * partNat s e.part (a + 4) 4)
      ++ ((partDir s e.part a).filter fun m => m.matrix == fld j 507 492).flatMap fun m =>
          spanLines (a + partNat s e.part (a + 28) 4 + 4 * m.tileFirst) (4 * m.tileCount)

/-- Lines that a job reads: the batch's rows, activations and base tiles of the tiles it runs, and directory, index and replaced tiles of its rows' variants (R278, R279). -/
def djReads (s : State) (e : DeltaEnv) (d : Nat) (j : W512) : List Nat :=
  let rows := (djRowTiles e).flatMap fun t => (List.range 64).map (64 * t + ·)
  let act := rows.flatMap fun r =>
    spanLines (djAddr (fld j 455 436) (fld j 435 415 + r * fld j 148 133 * 64)) (elemBytes (djAct j) (32 * e.kb))
    ++ spanLines (djAddr (fld j 455 436) (fld j 414 394 + r * (cdiv e.kb 64 * 64))) e.kb
  let cols := if rows = [] then [] else (djGroups j).flatMap fun g => (List.range 32).map (32 * g + ·)
  let base := cols.flatMap fun n => spanLines (djBase e j n 0) (e.kb * colBytes e.fmt) ++ spanLines (fld j 304 257 + n * e.kb) e.kb
  let vs := nodup (e.vars.filter (· ≠ 0))
  let del := vs.flatMap fun v => (djGroups j).flatMap fun g => (djTiles s e d j v g).flatMap fun t =>
    spanLines (tileAddr t.1 t.2.1 t.2.2.1) (tileBytes t.2.1.fmt)
  nodup (batchLines s e ++ vs.flatMap (dirLines s e d j) ++ act ++ base ++ del)

/-- Correction MACs of a job (R282): two for each replaced element of each row. -/
def djMacs (s : State) (e : DeltaEnv) (d : Nat) (j : W512) : Nat :=
  lsum (e.vars.map fun v => lsum ((djGroups j).map fun g => 2048 * (djTiles s e d j v g).length))

/-- Remove the first delta job of a die. -/
def deltaPop (s : State) (d : Nat) : State :=
  { s with dieJobs := mupd s.dieJobs d {} fun x => { x with delta := x.delta.drop 1 } }

/-- Run a job whose fields are legal and whose WAIT holds (R278, R279). -/
def deltaRun (s : State) (d p : Nat) (ecc : List EccEvent) (j : W512) (e : DeltaEnv) : State :=
  let ws := djWrites s e d j
  let macs := djMacs s e d j
  let (ok, s) := dieWork (deltaPop s d) d p ecc (djReads s e d j) (pwWriteLines ws)
  if !ok then s
  else
    let s := each ws (fun s w => partPut s e.part w.1 w.2) s
    let s := if macs = 0 then s else bumpBy s 0x3806 (d + 1) 64 macs
    if bit j 194 then locPost s e.part (fld j 193 174) (fld j 173 165) (BitVec.ofNat 32 (fld j 164 149)) else s

/-- DELTA_JOB (R278 to R280): the first job of the die's list, once its WAIT is satisfied. -/
def execDeltaJob (d : EngTurn Die) (s : State) : Res :=
  let x := mgetD s.dieJobs d.eng.val {}
  match x.delta with
  | [] => .next s
  | j :: _ =>
    if (dieCtxs s d.eng.val x.deltaFor).any fun c => (ctxGet s c).fault.isSome then .next s
    else if djBad j then .next (dieFault (deltaPop s d.eng.val) d.eng.val x.deltaFor fcImage)
    else if !jobWait s (bit j 256) (fld j 255 236) (fld j 235 227) (fld j 226 195) then .next s
    else
      match deltaEnv s x.deltaFor j with
      | some e => .next (deltaRun s d.eng.val x.deltaFor d.ecc j e)
      | none => .next (dieFault (deltaPop s d.eng.val) d.eng.val x.deltaFor fcImage)

/-- DELTA_OWNER_WRITE (R277, R289). -/
def execDeltaOwnerWrite (rq : DictReq) (d : Die) (v : List Byte) (s : State) : Res :=
  let old := odGet s 0x3805 (d.val + 1)
  .next (dictWrite s rq 0x3805 (d.val + 1) v (ownerClamp 0x3805 d.val) fun s w =>
    if w = old then s else dieBuffersClear s d.val false)

end Sys2Proof.Machine
end

