-- ==== Sys2Proof/Machine/DmaExec.lean ====
section
/-! DEFINITION. Execution and completion of descriptors on the cluster DMA channels, the die DMAs with their walkers and the hub DMA, and the HBM controllers' own work (R84, R138 to R142, R153, R157, R159 to R172, R391, R481, R494). -/

namespace Sys2Proof.Machine

open Sys2Proof

/-- A descriptor engine has power and clock. -/
def engOn (s : State) : DmaEng → Bool
  | .cluster c _ => quadOn s (clusQuad c.val)
  | .die d => s.tray.dieOn.getLsbD d.val && clkRuns s (0x11 + d.val)
  | .hub => carOn s

/-- A function may issue TLPs: link up, enabled, Bus Master Enable set, not in D3hot (R167, R493). -/
def funcLive (s : State) (f : Nat) : Bool :=
  let x := fnGet s f
  s.pcie.linkUp && (f == 0 || (s.pcie.vfEnable && decide (f ≤ s.pcie.numVfs))) && x.busMaster && !x.d3hot && !x.disabling

/-- The end of a transfer: failed lines counted and contained, moved bytes folded, status given (R139, R140, R150, R162, R428). -/
def moveEnd (s : State) (k i : Nat) (j : Job) (m : Moved) (st : Fin 11) (injected : Bool) : State :=
  let p := jobTag j
  let s := each m.ues (fun s a => ueStrike s p a injected) s
  let s := if m.changed > 0 ∧ p < 16 then bumpBy s 0x2401 (p + 1) 64 m.changed else s
  jobDone (foldJob s k j m.bytes) k i j st

/-! ### Host space (R167, R481) -/

/-- Take a tag for the reads of a job. -/
def hostAsk (s : State) (k i : Nat) (j : Job) (reads : List (Nat × Nat)) : State :=
  let tag := s.dma.nextTag
  let f := dFunc j.desc
  let s := jobsSet s k ((jobsOf s k).set i { j with hostTag := some tag })
  let s := { s with dma := { s.dma with nextTag := tag + 1, outstanding := mset s.dma.outstanding tag f } }
  each reads (fun s r => emit s (.hostRead (funcOf f) tag r.1 r.2)) s

/-- Write lines to host memory. -/
def hostLines (s : State) (f : Nat) (l : List (Nat × List Byte)) : State :=
  each l (fun s x => emit s (.hostWrite (funcOf f) x.1 x.2)) s

/-- Rows of the host side of a descriptor. -/
def hostRows (d : W512) (dst : Bool) : List (Nat × Nat) :=
  (List.range (dRows d)).map fun r => ((if dst then dDst d + r * dDstStr d else dSrc d + r * dSrcStr d), dRowB d)

/-- Deliver host data of whole lines to a job's destination. -/
def hostDeliver (s : State) (part : Nat) (d : W512) (bs : List Byte) : State × Moved :=
  let ls := cutLines bs
  let dst := (sideLines d true).take ls.length
  if dDstSp d = 1 then (hostLines s (dFunc d) (dst.zip ls), { bytes := ls.flatMap id })
  else
    let (s, lost) := storeLines s part (dst.zip (ls.map some))
    (s, { changed := lost.length, bytes := ((dst.zip ls).filter fun x => !lost.contains x.1).flatMap Prod.snd })

/-- A COPY from host space: its reads are asked for first, and their data moved once they are there. -/
def copyFromHost (s : State) (k i : Nat) (j : Job) : State :=
  match j.hostData with
  | some bs =>
    let (s, m) := hostDeliver s (jobTag j) j.desc bs
    moveEnd s k i j m (moveStatus m.changed m.ues) false
  | none => if j.hostTag.isSome then s else hostAsk s k i j (hostRows j.desc false)

/-- A COPY from tray memory to host space. -/
def copyToHost (s : State) (k i : Nat) (j : Job) (ecc : List EccEvent) (injected : Bool) : State :=
  let src := sideLines j.desc false
  let (got, s) := loadLines s (jobTag j) ecc src
  let out := ((sideLines j.desc true).zip got).filter fun x => !x.2.ue
  let s := hostLines s (dFunc j.desc) (out.map fun x => (x.1, x.2.bytes))
  let m : Moved :=
    { changed := (got.filter (·.changed)).length, ues := (src.zip got).filterMap (fun x => if x.2.ue then some x.1 else none)
      bytes := (out.filter fun x => !x.2.changed).flatMap fun x => x.2.bytes }
  moveEnd s k i j m (moveStatus m.changed m.ues) injected

/-- Run a COPY that has passed its field checks. The issue checks are made once, before the first access (R150, R162). -/
def copyRun (s : State) (k i : Nat) (j : Job) (ecc : List EccEvent) (injected : Bool) : State :=
  let d := j.desc
  let st := if j.hostTag.isSome then stOk else issueStatus s k j
  if st ≠ stOk then jobFail s k i j st
  else if (dSrcSp d == 1 || dDstSp d == 1) && !funcLive s (dFunc d) then jobFail s k i j stHost
  else if dSrcSp d = 1 then copyFromHost s k i j
  else if dDstSp d = 1 then copyToHost s k i j ecc injected
  else
    let (s, m) := moveLines s (jobTag j) d ecc (sideLines d false) (sideLines d true)
    moveEnd s k i j m (moveStatus m.changed m.ues) injected

/-- Run a FILL that has passed its field checks. -/
def fillRun (s : State) (k i : Nat) (j : Job) : State :=
  let d := j.desc
  let st := issueStatus s k j
  if st ≠ stOk then jobFail s k i j st
  else if dDstSp d = 1 then
    (if !funcLive s (dFunc d) then jobFail s k i j stHost
     else
       let l := (sideLines d true).map fun a => (a, fillBytes d 64)
       moveEnd (hostLines s (dFunc d) l) k i j { bytes := l.flatMap Prod.snd } stOk false)
  else
    let (s, m) := moveFill s (jobTag j) d
    moveEnd s k i j m (moveStatus m.changed m.ues) false

/-- Run a page operation that has passed its field checks (R165). -/
def pagesRun (s : State) (k i : Nat) (j : Job) (ecc : List EccEvent) (rd injected : Bool) : State :=
  let (s, m, st, _) := pagesGo k (jobTag j) j.desc ecc rd (dRows j.desc) 0 s {}
  moveEnd s k i j m st injected

/-- The first job without a status, where it is of an operation: field checks, zero rows, then the operation (R161, R162). -/
def engRun (s : State) (e : DmaEng) (op : Nat) (gcm : Bool) (go : State → Nat → Nat → Job → State) : State :=
  let k := engKey e
  if !engOn s e then s
  else
    match nextJob s k with
    | none => s
    | some (i, j) =>
      if dOp j.desc ≠ op ∨ dGcm j.desc ≠ gcm then s
      else if fieldChecks k j ≠ stOk then jobFail s k i j (fieldChecks k j)
      else if j.empty then jobFail s k i j stOk
      else go s k i j

/-- COPY (R84, R142, R157, R160, R162, R167, R169). -/
def execCopy (e : DmaEng) (ecc : List EccEvent) (s : State) : Res :=
  .next (engRun s e 0 false fun s k i j => copyRun s k i j ecc false)

/-- FILL (R160). -/
def execFill (e : DmaEng) (s : State) : Res := .next (engRun s e 1 false fun s k i j => fillRun s k i j)

/-- PAGE_READ (R165, R166). -/
def execPageRead (e : DmaEng) (ecc : List EccEvent) (s : State) : Res :=
  .next (engRun s e 2 false fun s k i j => pagesRun s k i j ecc true false)

/-- PAGE_WRITE (R139, R140, R165): the errors are those of its source and its page list. -/
def execPageWrite (e : EngTurn DmaEng) (s : State) : Res :=
  .next (engRun s e.eng 3 false fun s k i j => pagesRun s k i j e.ecc false false)

/-! ### GCM (R168, R404, R412) -/

/-- The key of a GCM slot at a generation, where the slot belongs to the partition (R404). -/
def gcmKey (s : State) (p slot gen : Nat) : Option Nat :=
  let k := keySlot s slot
  if k.kind ≠ .gcm ∨ k.owner.toNat ≠ p then none
  else if k.cur = gen ∧ k.curKey.isSome then k.curKey
  else match k.old with | some (g, key) => if g = gen then some key else none | none => none

/-- A GCM descriptor still holds a generation of a slot (R412). -/
def gcmHolds (s : State) (slot gen : Nat) : Bool :=
  (jobsOf s 68).any fun j => dGcm j.desc && dGcmSlot j.desc == slot && j.gen == gen

/-- Zeroize OLD of a slot whose DROP_OLD waited, once no descriptor holds it (R412). -/
def oldDropDue (s : State) (slot : Nat) : State :=
  let k := keySlot s slot
  if k.dropDue && !(match k.old with | some (g, _) => gcmHolds s slot g | none => false) then
    keySlotSet s slot { k with old := none, dropDue := false }
  else s

/-- Decrypt the data in a staging buffer and write the plaintext only when the tag matches. -/
def gcmOpenJob (s : State) (k i : Nat) (j : Job) (bs : List Byte) : State :=
  let d := j.desc
  let n := dRowB d
  let iv := leNat (bs.take 12)
  let ct := (bs.drop 16).take n
  let tag := leNat ((bs.drop (16 + n)).take 16)
  match (gcmKey s (jobTag j) (dGcmSlot d) j.gen).bind fun key => Config.gcmOpen key iv (leBytes 4 (dFill d)) ct tag with
  | none => jobFail s k i j stAuth
  | some pt =>
    let ls := (sideLines d true).zip (cutLines pt)
    let (s, lost) := storeLines s (jobTag j) (ls.map fun x => (x.1, some x.2))
    moveEnd s k i j { changed := lost.length, bytes := (ls.filter fun x => !lost.contains x.1).flatMap Prod.snd }
      (moveStatus lost.length []) false

/-- Run a GCM descriptor: its issue checks, a free staging buffer, its host read, then the decryption. -/
def gcmRun (s : State) (k i : Nat) (j : Job) : State :=
  let st := if j.staged then stOk else issueStatus s k j
  if st ≠ stOk then jobFail s k i j st
  else if !funcLive s (dFunc j.desc) then jobFail s k i j stHost
  else
    match j.hostData with
    | some bs => gcmOpenJob s k i j bs
    | none =>
      if j.staged ∨ s.dma.staging ≥ 8 then s
      else
        let s := { s with dma := { s.dma with staging := s.dma.staging + 1 } }
        hostAsk s k i { j with staged := true } [(dSrc j.desc, dRowB j.desc + 32)]

/-- GCM_DECRYPT (R168). -/
def execGcmDecrypt (s : State) : Res := .next (engRun s .hub 0 true gcmRun)

/-! ### Host read completions (R481, R494) -/

/-- The job that a host read tag belongs to. -/
def tagJob (s : State) (tag : Nat) : Option (Nat × Job) :=
  ((jobsOf s 68).zipIdx.find? fun x => x.1.hostTag == some tag && x.1.status.isNone && x.1.hostData.isNone).map fun x => (x.2, x.1)

/-- A host read has failed (R162): lines before the error move, and the descriptor ends with HOST; a GCM descriptor writes nothing. -/
def hostReadFail (s : State) (tag : Nat) (bs : List Byte) : State :=
  let s := { s with dma := { s.dma with outstanding := mdel s.dma.outstanding tag } }
  match tagJob s tag with
  | none => s
  | some (i, j) =>
    if dGcm j.desc then jobFail s 68 i j stHost
    else
      let (s, m) := hostDeliver s (jobTag j) j.desc bs
      moveEnd s 68 i j m (if m.changed > 0 then stChanged else stHost) false

/-- HOST_READ_COMPLETION (R162, R167, R494): data for a tag, or an error after the data before it; an abandoned tag's is dropped, an unexpected one is reported through AER. -/
def execHostReadCompletion (tag : Nat) (data : List Byte) (ok : Bool) (s : State) : Res :=
  if s.dma.abandoned.contains tag then .next s
  else
    match mget s.dma.outstanding tag with
    | none => .next (emit s (.aer (funcOf 0)))
    | some _ =>
      if !ok then .next (hostReadFail s tag data)
      else
        let s := { s with dma := { s.dma with outstanding := mdel s.dma.outstanding tag } }
        match tagJob s tag with
        | none => .next s
        | some (i, j) => .next (jobsSet s 68 ((jobsOf s 68).set i { j with hostData := some data }))

/-! ### Completion (R84, R110, R162, R163) -/

/-- The status that a head job completes with: its own, or that of checks that need no access. -/
def headStatus (k : Nat) (j : Job) : Option (Fin 11) :=
  match j.status with
  | some st => some st
  | none => if fieldChecks k j ≠ stOk then some (fieldChecks k j) else if j.empty then some stOk else none

/-- Counters of a completion (R175). -/
def jobCounters (s : State) (p : Nat) (st : Fin 11) : State :=
  if p ≥ 16 then s
  else if 1 ≤ st.val ∧ st.val ≤ 5 then bump32 s 0x2400 (p + 1)
  else if st = stAuth then bump32 s 0x2402 (p + 1)
  else s

/-- The sync post of a completion (R84, R162): TAG and FORMAT post nothing. -/
def jobPost (s : State) (j : Job) (st : Fin 11) : State :=
  if dSyncEn j.desc ∧ st ≠ stTag ∧ st ≠ stFormat then
    locPost s (jobTag j) (fld j.desc 214 195) (fld j.desc 194 186) (BitVec.ofNat 32 (fld j.desc 185 170))
  else s

/-- What a completion does for the unit that issued it: scoreboard and step of a lane (R110, R163), completion entry of the host (R253), end of a page copy (R218). -/
def jobReport (s : State) (j : Job) (st : Fin 11) : State :=
  match j.origin with
  | .lane c x =>
    let ln := laneGet s c.val
    let sb := dSb j.desc
    let s := if sb = 0 ∨ (ctxGet s x.val).part ≠ j.part then s else laneSet s c.val { ln with sb := mset ln.sb sb (sbGet ln sb - 1) }
    if st = stOk ∨ (ctxGet s x.val).runs ≠ j.run then s else laneFault s c.val (statusFault st)
  | .host f ring tag =>
    complTo s f.val ring { kind := 6, status := if st = stOk then 0 else 66, tag := tag, value := if st = stOk then 0 else st.val }
  | .tray =>
    match j.part with
    | none => s
    | some p => copyReport s p.val j st

/-- Complete the head job of a queue. -/
def jobComplete (s : State) (k : Nat) (j : Job) (st : Fin 11) : State :=
  let s := releaseReads s j
  let s := jobsSet s k ((jobsOf s k).drop 1)
  let s := if dGcm j.desc then oldDropDue s (dGcmSlot j.desc) else s
  let s := if j.staged then { s with dma := { s.dma with staging := s.dma.staging - 1 } } else s
  jobReport (jobPost (jobCounters s (jobTag j) st) j st) j st

/-- DESCRIPTOR_COMPLETE (R84, R87, R110, R142, R162, R163): the engine's oldest descriptor completes, exactly once. -/
def execDescriptorComplete (e : DmaEng) (s : State) : Res :=
  let k := engKey e
  match jobsOf s k with
  | [] => .next s
  | j :: _ =>
    match headStatus k j with
    | none => .next s
    | some st => .next (jobComplete (if j.status.isNone ∧ st ≠ stFormat then foldJob s k j [] else s) k j st)

/-! ### The controllers (R139 to R141, R153, R391) -/

/-- Temperature of a stack as last read, 0.01 °C. -/
def stackTemp (s : State) (st : Nat) : Int := mgetD s.wv.hbmTemp st 2500

/-- Stack of a line address (R144). -/
def stackOf (a : Nat) : Nat := 2 * (a / 2 ^ 37) + a / 4096 % 2

/-- The controller of a stack is powered and clocked (R17, R378, R384). -/
def hbmOn (s : State) (stack : Nat) : Bool :=
  (if stack < 4 then s.tray.hub.hbmA else s.tray.hub.hbmB) && clkRuns s (0x1E + stack)

/-- Tag that owns a line. -/
def lineOwner (s : State) (a : Nat) : Nat := (granGet s (granOf a)).owner.toNat

/-- A line that the patrol met: corrected, or uncorrectable after its second read. -/
def patrolLine (s : State) (st : Nat) (e : EccEvent) : State :=
  let a := 64 * e.line
  match e.err with
  | .uncorrectable => ueStrike (bump32 s 0x2011 (st + 1)) (lineOwner s a) a false
  | _ => corrected (bump64 s 0x2010 (st + 1)) (2 ^ 62 + st) { cls := 0, block := 4, addr := a, action := 1 }

/-- A patrol of a stack is due: none has been made, or the last one is a period of OD 0x2012 old (R141). -/
def patrolDue (s : State) (stack : Nat) : Bool :=
  match mget s.mem.patrols stack with
  | some (_, t) => decide (t + odGet s 0x2012 0 * 3600000000000 ≤ s.clk.now)
  | none => true

/-- PATROL_SCRUB (R141): the patrol of a stack once its period has passed, with the errors it met in populated lines. -/
def execPatrolScrub (stack : Fin 8) (ecc : List EccEvent) (s : State) : Res :=
  if !hbmOn s stack.val ∨ s.tray.selfRefresh ∨ !patrolDue s stack.val then .next s
  else
    let hits := ecc.filter fun e => stackOf (64 * e.line) == stack.val && granBacked s (granOf (64 * e.line))
    let s := each hits (fun s e => patrolLine s stack.val e) s
    .next { s with mem := { s.mem with patrols := mupd s.mem.patrols stack.val (0, 0) fun x => (x.1 + 1, s.clk.now) } }

/-- HBM_RETRAIN (R153, R391): a pseudo-channel is retrained every second, or once its stack has moved 4 °C. -/
def execHbmRetrain (stack : Fin 8) (channel : Nat) (s : State) : Res :=
  let key := 64 * stack.val + channel % 64
  let now := (s.clk.now, stackTemp s stack.val)
  let due := match mget s.mem.retrain key with
    | none => true
    | some (t, c) => decide (t + 1000000000 ≤ s.clk.now) || decide (c + 400 ≤ now.2) || decide (now.2 + 400 ≤ c)
  if !hbmOn s stack.val ∨ s.tray.selfRefresh ∨ !due then .next s
  else .next { s with mem := { s.mem with retrain := mset s.mem.retrain key now } }

end Sys2Proof.Machine
end

