-- ==== Sys2Proof/Machine/Zoetrope.lean ====
section
/-! DEFINITION. Zoetrope: sessions, commands, decoding, concealment, output and encoding (R290 to R315). -/

namespace Sys2Proof.Machine

open Sys2Proof

/-- Zoetrope has power and both its clocks run (R293, R384). -/
def zoeOn (s : State) : Bool := s.tray.hub.zoetrope && clkRuns s 0x1A && clkRuns s 0x1B

/-! ### The session descriptor (R297, R298) -/

/-- KIND: an encode session. -/
def vdEnc (d : BitVec 1024) : Bool := bit d 1019
/-- Bytes of a sample. -/
def vdB (d : BitVec 1024) : Nat := if bit d 1017 then 2 else 1
/-- MAX_W. -/
def vdW (d : BitVec 1024) : Nat := fld d 1015 1002
/-- MAX_H. -/
def vdH (d : BitVec 1024) : Nat := fld d 1001 988
/-- SLOTS. -/
def vdSlots (d : BitVec 1024) : Nat := fld d 987 983
/-- LAT_US. -/
def vdLat (d : BitVec 1024) : Nat := fld d 982 959
/-- RATE_KBPS. -/
def vdRate (d : BitVec 1024) : Nat := fld d 958 939
/-- POOL_BASE. -/
def vdPool (d : BitVec 1024) : Nat := fld d 938 891
/-- QP_I, QP_P. -/
def vdQp (d : BitVec 1024) (key : Bool) : Nat := if key then fld d 844 839 else fld d 838 833
/-- QP_MAX. -/
def vdQpMax (d : BitVec 1024) : Nat := fld d 832 827
/-- BITS_BASE. -/
def vdBits (d : BitVec 1024) : Nat := fld d 793 746
/-- BITS_LINES. -/
def vdBitsLines (d : BitVec 1024) : Nat := fld d 745 726
/-- BITS_SLOTS. -/
def vdBitsSlots (d : BitVec 1024) : Nat := fld d 725 720

/-- Pitch of the Y plane. -/
def vdYP (d : BitVec 1024) : Nat := cdiv (vdW d * vdB d) 64 * 64
/-- Pitch of the chroma planes. -/
def vdCP (d : BitVec 1024) : Nat := cdiv (vdW d / 2 * vdB d) 64 * 64
/-- Offset of a plane in a slot: Y, U, V, motion data. -/
def vdPlane (d : BitVec 1024) (p : Nat) : Nat :=
  let y := vdYP d * vdH d
  let c := vdCP d * (vdH d / 2)
  match p with | 0 => 0 | 1 => y | 2 => y + c | _ => y + 2 * c
/-- Bytes of motion data. -/
def vdMotion (d : BitVec 1024) : Nat := cdiv (vdW d) 16 * cdiv (vdH d) 16 * 16
/-- Slot size S. -/
def vdSlotSize (d : BitVec 1024) : Nat := cdiv (vdPlane d 3 + vdMotion d) 65536 * 65536
/-- Address of a pool slot. -/
def vdSlotAddr (d : BitVec 1024) (k : Nat) : Nat := vdPool d + k * vdSlotSize d

/-- A region lies inside one die window and is wholly OWNED by a partition. -/
def vRegion (s : State) (p a n : Nat) : Bool := a / 2 ^ 37 == (a + n - 1) / 2 ^ 37 && decide (a + n ≤ 2 ^ 39) && hbmOwned s p a n

/-- Check 1 of R299 fails: DESCRIPTOR. -/
def descBad (s : State) (p : Nat) (d : BitVec 1024) : Bool :=
  let size (x : Nat) : Bool := x % 8 != 0 || decide (x < 16) || decide (x > 8448)
  fld d 1023 1020 != 1 || (vdEnc d && bit d 1018) || (bit d 1018 && bit d 1017) || size (vdW d) || size (vdH d)
  || (if vdEnc d then vdSlots d != 2 + (if bit d 794 then 1 else 0) else decide (vdSlots d < 2) || decide (vdSlots d > 24))
  || decide (vdLat d < 1000) || vdRate d == 0 || decide (vdRate d > 400000) || vdPool d % 65536 != 0
  || !vRegion s p (vdPool d) (vdSlots d * vdSlotSize d)
  || (vdEnc d && (decide (vdQp d true > 51) || decide (vdQp d false > 51) || decide (vdQpMax d > 51)
        || decide (fld d 826 811 < 10) || decide (fld d 826 811 > 10000) || vdBits d % 64 != 0
        || decide (vdBitsSlots d < 2)
        || decide (vdBitsLines d < cdiv (vdW d * vdH d * 3 * vdB d / 2 + 4096) 64)
        || !vRegion s p (vdBits d) (vdBitsSlots d * vdBitsLines d * 64)))

/-! ### Sums (R299) -/

/-- Density of a session as a fraction, pixels/s. -/
def vDensity (d : BitVec 1024) : Nat × Nat := (vdW d * vdH d * 1000000, max 1 (vdLat d))

/-- Sum of fractions. -/
def fracSum (l : List (Nat × Nat)) : Nat × Nat := l.foldl (fun a b => (a.1 * b.2 + b.1 * a.2, a.2 * b.2)) (0, 1)

/-- Open sessions of a kind. -/
def vOpen (s : State) (enc : Bool) : List (Nat × VSession) := s.zoe.sessions.filter fun x => vdEnc x.2.desc == enc

/-- Σ D of a kind with further descriptors. -/
def vDensitySum (s : State) (enc : Bool) (more : List (BitVec 1024)) : Nat × Nat :=
  fracSum (((vOpen s enc).map fun x => vDensity x.2.desc) ++ more.map vDensity)

/-- Σ RATE_KBPS of a kind. -/
def vRateSum (s : State) (enc : Bool) : Nat := lsum ((vOpen s enc).map fun x => vdRate x.2.desc)

/-- The checks of R299 in order: 0, or the status of the refusal. -/
def openStatus (s : State) (p : Nat) (d : BitVec 1024) : Nat :=
  let enc := vdEnc d
  let mine := ((vOpen s enc).filter fun x => x.2.f.val == p).length
  let sum := vDensitySum s enc [d]
  let top := if enc then 1000000000 else 4000000000
  if descBad s p d then 1
  else if mine ≥ odGet s (if enc then 0x7001 else 0x7000) (p + 1) then 2
  else if sum.1 > top * sum.2 then 3
  else if vRateSum s enc + vdRate d > (if enc then 800000 else 2400000) then 4
  else 0

/-! ### Completions (R302, R303) -/

/-- What a video completion says. -/
structure VCompl where
  kind : Nat
  status : Nat := 0
  session : Nat := 0
  tag : BitVec 64 := 0
  slot : Nat := 0
  value : Nat := 0
  concealed : Nat := 0
  tainted : Bool := false
  key : Bool := false
  skip : Bool := false
  late : Bool := false
  crop : W32 := 0
  qp : Nat := 0
  deriving DecidableEq, Repr

/-- The 32 B entry. -/
def vComplBits (s : State) (c : VCompl) : BitVec 256 :=
  let b (x : Bool) (n : Nat) : Nat := if x then 2 ^ n else 0
  BitVec.ofNat 256 (c.kind % 16 * 2 ^ 251 + c.status % 256 * 2 ^ 243 + c.session % 65536 * 2 ^ 227 + c.tag.toNat * 2 ^ 163
    + c.slot % 64 * 2 ^ 157 + c.value % 2 ^ 32 * 2 ^ 125 + min c.concealed 65535 * 2 ^ 109
    + b c.tainted 108 + b c.key 107 + b c.skip 106 + b c.late 105
    + s.clk.timebase.toNat % 2 ^ 48 * 2 ^ 57 + c.crop.toNat * 2 ^ 25 + c.qp % 64 * 2 ^ 19)

/-- Write a video completion. -/
def vPush (s : State) (f : Vf) (c : VCompl) : State := complPush s (f.val + 1) 8 (vComplBits s c)

/-! ### Sessions and commands (R296, R301) -/

/-- Session ID of a number. -/
def vId (s : State) (n : Nat) : Nat := n * 64 + mgetD s.zoe.gens n 0 % 64

/-- A session. -/
def vGet (s : State) (n : Nat) : Option VSession := mget s.zoe.sessions n

/-- Replace a session. -/
def vSet (s : State) (n : Nat) (v : VSession) : State := { s with zoe := { s.zoe with sessions := mset s.zoe.sessions n v } }

/-- OP of a command. -/
def zOp (e : W512) : Nat := fld e 507 504
/-- VER 1 and a legal OP. -/
def zLegal (e : W512) : Bool := fld e 511 508 == 1 && decide (1 ≤ zOp e) && decide (zOp e ≤ 7)
/-- SESSION. -/
def zSess (e : W512) : Nat := fld e 503 488
/-- ADDR. -/
def zAddr (e : W512) : Nat := fld e 485 438
/-- LEN. -/
def zLen (e : W512) : Nat := fld e 437 406
/-- HOST_TAG. -/
def zTag (e : W512) : BitVec 64 := BitVec.ofNat 64 (fld e 191 128)

/-- The command that a row of OP `op` takes: the first of its function, in ring order; illegal commands go with OPEN. -/
def zPick (s : State) (op : Nat) : Option (Nat × ZTaken) :=
  if !zoeOn s then none
  else (s.zoe.taken.zipIdx.find? fun x =>
    let legal := if op = 1 then zOp x.1.entry == 1 || !zLegal x.1.entry else zLegal x.1.entry && zOp x.1.entry == op
    legal && !(s.zoe.taken.take x.2).any fun u => u.f == x.1.f).map fun x => (x.2, x.1)

/-- Remove a command from the queue. -/
def zDrop (s : State) (i : Nat) : State := { s with zoe := { s.zoe with taken := s.zoe.taken.eraseIdx i } }

/-- Refuse a command. -/
def zRefuse (s : State) (t : ZTaken) (status : Nat) : State :=
  vPush s t.f { kind := 6, status := status, session := zSess t.entry, tag := zTag t.entry }

/-- The open session that a command names: its number, or none where the ID is stale (R296). -/
def zNamed (s : State) (t : ZTaken) : Option (Nat × VSession) :=
  let n := zSess t.entry / 64
  match vGet s n with
  | some v => if v.f = t.f ∧ vId s n = zSess t.entry then some (n, v) else none
  | none => none

/-- Take up a command on a session of a kind: STALE for an ID that names none, BAD_COMMAND for one of the other kind or a field out of range. -/
def zCommand (s : State) (op : Nat) (bad : VSession → W512 → Bool) (go : State → Nat → VSession → ZTaken → State) : State :=
  match zPick s op with
  | none => s
  | some (i, t) =>
    let s := zDrop s i
    match zNamed s t with
    | none => zRefuse s t 5
    | some (n, v) => if bad v t.entry then zRefuse s t 6 else go s n v t

/-- OPEN_SESSION (R296 to R299): the session takes the lowest free number of its kind. -/
def execOpenSession (s : State) : Res :=
  match zPick s 1 with
  | none => .next s
  | some (i, t) =>
    let s := zDrop s i
    if !zLegal t.entry then .next (zRefuse s t 6)
    else
      let p := t.f.val
      let d : BitVec 1024 := BitVec.ofNat 1024 (partNat s p (zAddr t.entry) 128)
      let st := openStatus s p d
      if st ≠ 0 then .next (zRefuse s t st)
      else
        let lo := if vdEnc d then 512 else 0
        let cnt := if vdEnc d then 64 else 512
        match ((List.range cnt).map (lo + ·)).find? fun n => (vGet s n).isNone with
        | none => .next (zRefuse s t 2)
        | some n =>
          let s := vSet s n { f := t.f, desc := d }
          let s := { s with zoe := { s.zoe with releases := mset s.zoe.releases n 0 } }
          .next (vPush s t.f { kind := 0, session := vId s n, tag := zTag t.entry })

/-- A range of the partition's memory passes R150 line by line. -/
def vOwned (s : State) (p a n : Nat) : Bool := (spanLines a n).all fun l =>
  match placeOf s l with
  | .hbm _ _ => lineOk s p l
  | _ => false

/-- Append a chunk to a session's stream (R292, R301): it continues the last access unit, or begins one; EOA ends it. -/
def feedUnit (v : VSession) (bs : List Byte) (eoa : Bool) (now : Nat) (tag : BitVec 64) : VSession :=
  let fresh : AUnit := { no := v.nextUnit, start := v.stream.length }
  let (front, u, n) := match v.units.getLast? with
    | some u => if u.done then (v.units, fresh, v.nextUnit + 1) else (v.units.dropLast, u, v.nextUnit)
    | none => ([], fresh, v.nextUnit + 1)
  let u := { u with
    bytes := if u.void then [] else u.bytes ++ bs, done := eoa, lastAt := if eoa then some now else none, tag := tag }
  { v with stream := v.stream ++ bs, units := if u.void && eoa then front else front ++ [u], nextUnit := n }

/-- FEED (R300, R301): a chunk is read under the partition's tag with the checks of R150, and joins the session's stream. -/
def execFeed (s : State) : Res :=
  .next (zCommand s 2 (fun v e => vdEnc v.desc || zLen e == 0) fun s n v t =>
    let e := t.entry
    let ok := vOwned s v.f.val (zAddr e) (zLen e)
    let w := feedUnit v (partBytes s v.f.val (zAddr e) (zLen e)) (bit e 487) s.clk.now (zTag e)
    vPush (vSet s n { w with accessErr := v.accessErr || !ok }) v.f { kind := 1, session := vId s n, tag := zTag e })

/-- ENCODE (R301, R310): an input picture joins the session's queue. -/
def execEncode (s : State) : Res :=
  .next (zCommand s 3 (fun v e => !vdEnc v.desc || fld e 309 290 % 64 != 0 || fld e 289 270 % 64 != 0) fun s n v t =>
    let e := t.entry
    let x : EncPic :=
      { y := zAddr e, u := fld e 405 358, v := fld e 357 310, yPitch := fld e 309 290, cPitch := fld e 289 270
        pts := fld e 269 206, keypic := bit e 486, hostTag := zTag e, takenAt := t.takenAt }
    vSet s n { v with inputs := v.inputs ++ [x] })

/-- KEY (R313). -/
def execKey (s : State) : Res :=
  .next (zCommand s 4 (fun v _ => !vdEnc v.desc) fun s n v _ => vSet s n { v with keyWanted := true })

/-- RELEASE (R306, R312): held pictures, or held bits slots, oldest first. -/
def execRelease (s : State) : Res :=
  .next (zCommand s 5 (fun _ e => zLen e == 0 || decide (zLen e > 65535)) fun s n v t =>
    if vdEnc v.desc then vSet s n { v with bitsHeld := v.bitsHeld - zLen t.entry }
    else releasePost s v.f.val n (BitVec.ofNat 32 (zLen t.entry)))

/-- A flush is over: everything fed before it has been decoded and output, or every input before it coded (R314). -/
def flushOver (v : VSession) (x : VFlush) : Bool :=
  v.units.all (fun u => decide (x.units ≤ u.no)) && v.slots.all (fun y => y.2.out != .pending || decide (x.units ≤ y.2.unit))
  && decide (x.pics ≤ v.encoded)

/-- Every flush in progress is over. -/
def vIdle (v : VSession) : Bool := v.flushing.all (flushOver v)

/-- Write FLUSHED for each flush that is over, in order (R314). -/
def vFlushed (s : State) (n : Nat) : State :=
  match vGet s n with
  | none => s
  | some v =>
    let l := v.flushing.takeWhile (flushOver v)
    if l = [] then s
    else
      each l (fun s x => vPush s v.f { kind := 4, session := vId s n, tag := x.tag })
        (vSet s n { v with flushing := v.flushing.dropWhile (flushOver v) })

/-- A flush ends the last access unit, whether its FEED said so or not (R314). -/
def flushUnits (v : VSession) (tag : BitVec 64) : VSession :=
  let us := (v.units.map fun u => { u with done := true }).filter fun u => !u.void
  { v with units := us, flushing := v.flushing ++ [{ tag := tag, units := v.nextUnit, pics := v.encoded + v.inputs.length }] }

/-- FLUSH (R314). -/
def execFlush (s : State) : Res :=
  .next (zCommand s 6 (fun _ _ => false) fun s n v t => vFlushed (vSet s n (flushUnits v (zTag t.entry))) n)

/-- End a session (R314): its state is discarded, its number's generation advances, CLOSED is written last, unless nothing may be written. -/
def sessionEnd (s : State) (n status : Nat) (tag : BitVec 64) (write : Bool) : State :=
  match vGet s n with
  | none => s
  | some v =>
    let id := vId s n
    let s := { s with zoe := { s.zoe with
      sessions := mdel s.zoe.sessions n
      gens := mset s.zoe.gens n ((mgetD s.zoe.gens n 0 + 1) % 64)
      entropy := s.zoe.entropy.filter fun x => x.2 != n
      releases := mdel s.zoe.releases n } }
    if write then vPush s v.f { kind := 5, status := if v.accessErr then 19 else status, session := id, tag := tag } else s

/-- End every session of a function (R314, R494). -/
def sessionsEnd (s : State) (p status : Nat) (write : Bool) : State :=
  each ((s.zoe.sessions.filter fun x => x.2.f.val == p).map Prod.fst) (fun s n => sessionEnd s n status 0 write) s

/-- Zoetrope is powered off, and its session store with it (R18). DESIGN CHOICE (log entry 131): a number that a session held is freed, and no completion tells of it. -/
def zoeOff (s : State) : State :=
  { s with
    tray := { s.tray with hub := { s.tray.hub with zoetrope := false } }
    zoe := { gens := (mkeys s.zoe.sessions).foldl (fun m n => mset m n ((mgetD m n 0 + 1) % 64)) s.zoe.gens } }

/-- CLOSE (R314). -/
def execClose (s : State) : Res :=
  .next (zCommand s 7 (fun _ _ => false) fun s n _ t => sessionEnd s n 16 (zTag t.entry) true)

/-! ### Entropy (R294, R307) -/

/-- The access unit that is being parsed: pictures are parsed in decode order (R294). -/
def parseUnit (v : VSession) : Option AUnit := v.units.find? fun u => !u.parsed && !u.void

/-- Deadline of the access unit that a session parses next: the time of its FEED with EOA = 1, plus LAT_US (R300). -/
def vDeadline (v : VSession) : Option Nat :=
  ((parseUnit v).bind AUnit.lastAt).map fun t => t + vdLat v.desc * 1000

/-- A session's deadline comes before another's. -/
def vEarlier (a b : VSession) : Bool :=
  match vDeadline a, vDeadline b with
  | some x, some y => decide (x < y)
  | some _, none => true
  | none, _ => false

/-- An EVENT of a session. -/
def vEvent (s : State) (n : Nat) (v : VSession) (status value : Nat) : State :=
  vPush s v.f { kind := 7, status := status, session := vId s n, value := value }

/-- WAIT_KEY entered (R303, R307). -/
def waitKeyEnter (s : State) (n : Nat) (v : VSession) (cause : Nat) : State :=
  if v.waitKey then s else vEvent (vSet s n { v with waitKey := true, seqStart := true }) n v 32 cause

/-- Discard an access unit: its chunks return, and what is still fed of it is dropped. -/
def unitDrop (v : VSession) (no : Nat) : VSession :=
  { v with
    units := v.units.filterMap fun u => if u.no ≠ no then some u else if u.done then none else some { u with bytes := [], void := true }
    records := v.records.filter fun c => c.unit != no }

/-! ### Reconstruction (R295, R298, R304, R308, R309) -/

/-- A pool slot. -/
def vSlot (v : VSession) (k : Nat) : VSlot := mgetD v.slots k {}

/-- A slot is free (R304). -/
def slotFree (x : VSlot) : Bool := !x.decoding && x.refMark == .none && x.out == .none

/-- The first free slot of a session's pool (R304). -/
def slotFind (v : VSession) : Option Nat := (List.range (vdSlots v.desc)).find? fun k => slotFree (vSlot v k)

/-- The marks that a picture's reference set or memory management leaves. -/
def markSlots (v : VSession) (h : PicHead) : VSession :=
  let m := h.unmark.foldl (fun m k => mupd m k.val {} fun x => { x with refMark := .none }) v.slots
  { v with slots := h.longTerm.foldl (fun m k => mupd m k.val {} fun x => { x with refMark := .long }) m }

/-- A picture is an IRAP picture (R307). -/
def irap (h : PicHead) : Bool := match h.kind with | .idr | .cra | .bla => true | _ => false

/-- Profile, chroma format and bit depth are those of R290 for the session's standard, and no H.264 field picture or MBAFF (R291). -/
def codingOk (d : BitVec 1024) (h : PicHead) : Bool :=
  if bit d 1018 then
    !h.field && h.depth == 8 && (match h.profile with
      | .high => h.chroma == 0 || h.chroma == 1
      | .avcMain | .constrainedBaseline => h.chroma == 1
      | _ => false)
  else
    h.chroma == 1 && (match h.profile with
      | .main | .mainStill => h.depth == 8
      | .main10 => h.depth == 8 || h.depth == 10
      | _ => false)

/-- Why a picture's stream cannot be decoded (R290, R291, R303, R304, R307): 0, or the cause of WAIT_KEY: 2 unsupported, or more picture buffers than SLOTS − 1; 1 beyond the level of R290 or the descriptor's depth; 3 too large. -/
def headRefusal (d : BitVec 1024) (h : PicHead) : Nat :=
  if !codingOk d h ∨ h.dpb > vdSlots d - 1 then 2
  else if h.level > (if bit d 1018 then 52 else 51) ∨ (h.depth > 8 ∧ !bit d 1017) then 1
  else if h.width > vdW d ∨ h.height > vdH d then 3
  else 0

/-- Begin the picture of access unit `u` in a free slot; it is tainted by a tainted or generated reference since the last IRAP (R309). Pictures still pending go without output where an IRAP picture says so (R304). -/
def pictureBegin (s : State) (n : Nat) (v : VSession) (h : PicHead) (k : Nat) (u : AUnit) : State :=
  let iraps := v.iraps + if irap h then 1 else 0
  let since := if irap h then u.no else v.irapUnit
  let taint := h.refs.any fun r => (vSlot v r.val).tainted && decide (since ≤ (vSlot v r.val).unit)
  let x : VSlot :=
    { refMark := h.mark, decoding := true, head := some h, tainted := taint
      decodeOrder := v.decoded, irapNo := iraps, unit := u.no, hostTag := u.tag }
  let slots := if irap h && h.dropPrior then v.slots.map fun y => if y.2.out == .pending then (y.1, { y.2 with out := .none }) else y
    else v.slots
  let s := if v.waitKey then vEvent s n v 33 0 else s
  let off := match h.kind with
    | .cra => v.seqStart
    | .bla => true
    | .idr => false
    | _ => v.raslOff
  vSet s n { v with
    slots := mset slots k x, recon := some k, decoded := v.decoded + 1, iraps := iraps, irapUnit := since, waitKey := false
    seqStart := v.seqStart && !irap h, raslOff := off, reorder := h.reorder, latency := h.latency }

/-- PICTURE_RECONSTRUCT_START (R291, R295, R304, R307, R309): the next access unit's picture, once its syntax records have begun; waits for a free slot and for complete references. In WAIT_KEY up to an IRAP picture, where a RASL picture follows the CRA that resumed, and where the stream cannot be decoded, the access unit is discarded. -/
def execPictureReconstructStart (session : Fin 512) (h : PicHead) (s : State) : Res :=
  match (if zoeOn s then vGet s session.val else none) with
  | none => .next s
  | some v =>
    match v.units with
    | [] => .next s
    | u :: _ =>
      let n := session.val
      let gone (s : State) (v : VSession) : State := vFlushed (vSet s n (unitDrop v u.no)) n
      if !u.begun || u.void || v.recon.isSome then .next s
      else if v.waitKey && !irap h then .next (gone s v)
      else if v.raslOff && h.kind == .rasl then .next (gone s v)
      else if headRefusal v.desc h ≠ 0 then
        let s := waitKeyEnter s n v (headRefusal v.desc h)
        .next (gone s ((vGet s n).getD v))
      else if h.refs.any fun k => (vSlot v k.val).decoding then .next s
      else
        let v := markSlots v h
        match slotFind v with
        | none => .next s
        | some k => .next (pictureBegin s n v h k u)

/-- Write bytes of a session's picture under the partition's tag; a changed owner is remembered for CLOSED. -/
def vWrite (s : State) (n a : Nat) (bs : List Byte) : State :=
  match vGet s n with
  | none => s
  | some v =>
    let p := v.f.val
    let s := partPut s p a bs
    if vOwned s p a bs.length then s else vSet s n { v with accessErr := true }

/-- Reference that concealment copies from: the one marked for reference nearest before in decode order (R308). -/
def concealRef (v : VSession) (order : Nat) : Option Nat :=
  (v.slots.foldl (fun (acc : Option (Nat × VSlot)) x =>
    if x.2.refMark == .none || x.2.decoding || decide (x.2.decodeOrder ≥ order) then acc
    else match acc with
      | none => some x
      | some y => if x.2.decodeOrder > y.2.decodeOrder then some x else acc) none).map Prod.fst

/-- Samples of mid-grey, 1 << (depth − 1), in bytes (R307, R308). -/
def midGrey (d : BitVec 1024) (depth n : Nat) : List Byte := (List.range n).flatMap fun _ => leBytes (vdB d) (2 ^ (depth - 1))

/-- Fill a plane of w × h samples with mid-grey. -/
def greyPlane (s : State) (n : Nat) (d : BitVec 1024) (depth a w h pitch : Nat) : State :=
  each (List.range h) (fun s y => vWrite s n (a + y * pitch) (midGrey d depth w)) s

/-- A picture generated as unavailable (R307): a free slot marked for reference, every sample 1 << (depth − 1), its U and V planes left as they are in 4:0:0 (R298); what references it is tainted (R309). -/
def generatePicture (s : State) (n : Nat) (v : VSession) (depth : Nat) (mono : Bool) : State :=
  match slotFind v with
  | none => s
  | some k =>
    let d := v.desc
    let s := greyPlane s n d depth (vdSlotAddr d k) (vdW d) (vdH d) (vdYP d)
    let s := if mono then s else
      greyPlane (greyPlane s n d depth (vdSlotAddr d k + vdPlane d 1) (vdW d / 2) (vdH d / 2) (vdCP d))
        n d depth (vdSlotAddr d k + vdPlane d 2) (vdW d / 2) (vdH d / 2) (vdCP d)
    match vGet s n with
    | none => s
    | some v =>
      let x : VSlot :=
        { refMark := .short, tainted := true, decodeOrder := v.decoded, irapNo := v.iraps
          unit := ((parseUnit v).map AUnit.no).getD v.nextUnit }
      vSet s n { v with slots := mset v.slots k x, decoded := v.decoded + 1 }

/-! ### Errors and the entropy engines (R294, R307) -/

/-- Change an access unit. -/
def unitUpd (v : VSession) (no : Nat) (f : AUnit → AUnit) : VSession :=
  { v with units := v.units.map fun u => if u.no = no then f u else u }

/-- Discard the picture being parsed, unless its reconstruction has begun. -/
def parseDrop (v : VSession) : VSession :=
  match parseUnit v with
  | some u => if v.recon.isSome && (v.units.head?.map AUnit.no) == some u.no then v else unitDrop v u.no
  | none => v

/-- CTUs that an error takes from the picture being parsed: those not yet recorded. -/
def parseLose (v : VSession) (lost : List Nat) : VSession :=
  match parseUnit v with
  | some u => unitUpd v u.no fun u => { u with lost := u.lost ++ lost.filter fun c => decide (u.ctus ≤ c) }
  | none => v

/-- An error of the stream (R307): syntax errors count in OD 0x7011; in WAIT_KEY everything is discarded. -/
def decodeError (s : State) (n : Nat) (e : ParseErr) : State :=
  match vGet s n with
  | none => s
  | some v =>
    let count (s : State) : State := bump32 s 0x7011 (v.f.val + 1)
    let drop (s : State) : State := match vGet s n with | some v => vSet s n (parseDrop v) | none => s
    match e with
    | .nalHeader => if v.waitKey then s else count s
    | .sliceHeader lost | .sliceData lost => if v.waitKey then s else count (vSet s n (parseLose v lost))
    | .parameterSet => count (drop (waitKeyEnter s n v 1))
    | .unsupported => drop (waitKeyEnter s n v 2)
    | .tooLarge => drop (waitKeyEnter s n v 3)
    | .missingReference depth mono => if v.waitKey then s else generatePicture s n v depth mono

/-- What an engine meets in a session's stream takes effect (R291, R294, R307). -/
def nalEffect (n : Nat) (s : State) (f : NalFact) : State :=
  match vGet s n with
  | none => s
  | some v =>
    match f with
    | .otherLayer | .noEffect => s
    | .endOfStream => vSet s n { v with seqStart := true }
    | .slices =>
      (match parseUnit v with
       | some u => vSet s n (unitUpd v u.no fun u => { u with begun := true })
       | none => s)
    | .unitEnd =>
      (match parseUnit v with
       | some u =>
         if !u.done then s
         else if u.begun then vSet s n (unitUpd v u.no fun u => { u with parsed := true })
         else vFlushed (vSet s n (unitDrop v u.no)) n
       | none => s)
    | .err e => vFlushed (decodeError s n e) n

/-- A picture to be generated waits for a free slot (R304, R307). -/
def nalWaits (s : State) (n : Nat) : NalFact → Bool
  | .err (.missingReference _ _) => match vGet s n with | some v => !v.waitKey && (slotFind v).isNone | none => false
  | _ => false

/-- What an engine meets takes effect in order, up to a picture that waits to be generated. -/
def nalGo (n : Nat) : List NalFact → State → State
  | [], s => s
  | f :: l, s => if nalWaits s n f then s else nalGo n l (nalEffect n s f)

/-- Chunks of the entropy–pixel buffer in use. -/
def chunksUsed (s : State) : Nat := lsum (s.zoe.sessions.map fun x => x.2.records.length)

/-- Chunks written for the access unit being parsed, each by the CTUs it records, as far as 32 of the session's and `room` of the buffer's reach (R294). -/
def recordsPut (v : VSession) (room : Nat) (filled : List Nat) : VSession :=
  match parseUnit v with
  | none => v
  | some u =>
    let l := filled.take (min room (32 - v.records.length))
    let ends := (List.range l.length).map fun i => u.ctus + lsum (l.take (i + 1))
    unitUpd { v with records := v.records ++ ends.map fun e => { tag := v.f.val, unit := u.no, upTo := e } } u.no
      fun u => { u with ctus := u.ctus + lsum l }

/-- A decode engine has this session. -/
def onEngine (s : State) (n : Nat) : Bool := s.zoe.entropy.any fun x => x.2 == n

/-- A session waits for an entropy engine: stream to parse, fewer than 32 chunks, on no engine (R294). -/
def entropyWaits (s : State) (n : Nat) (v : VSession) : Bool :=
  !vdEnc v.desc && (parseUnit v).isSome && decide (v.records.length < 32) && !onEngine s n

/-- An engine may turn to session n (R294, R300): the earliest deadline among those that wait; from a session with 32 chunks or a later deadline, or from none. -/
def mayTurn (s : State) (cur : Option (Nat × VSession)) (n : Nat) (v : VSession) : Bool :=
  entropyWaits s n v && !(s.zoe.sessions.any fun x => x.1 != n && entropyWaits s x.1 x.2 && vEarlier x.2 v)
  && (match cur with
      | some (_, x) => decide (x.records.length ≥ 32) || (parseUnit x).isNone || vEarlier v x
      | none => true)

/-- An engine goes on with the session it has: below 32 chunks, and none with an earlier deadline waits (R294, R300). -/
def mayStay (s : State) (n : Nat) (v : VSession) : Bool :=
  decide (v.records.length < 32) && !(s.zoe.sessions.any fun x => x.1 != n && entropyWaits s x.1 x.2 && vEarlier x.2 v)

/-- ENTROPY_SWITCH (R291, R294, R300, R307): `filled` are the chunks written for the session that the engine has, by the CTUs each records; it then goes on with that session or turns to another, and `met` is what it meets in its stream. -/
def execEntropySwitch (eng : Fin 6) (session : Fin 512) (filled : List Nat) (met : List NalFact) (s : State) : Res :=
  if !zoeOn s then .next s
  else
    let n := session.val
    let has := (mget s.zoe.entropy eng.val).bind fun m => (vGet s m).map fun x => (m, x)
    let s := match has with
      | some (m, x) => vSet s m (recordsPut x (128 - chunksUsed s) filled)
      | none => s
    let cur := has.bind fun y => (vGet s y.1).map fun x => (y.1, x)
    match vGet s n with
    | none => .next s
    | some v =>
      if (cur.map Prod.fst = some n ∧ mayStay s n v) ∨ mayTurn s cur n v then
        .next (nalGo n met { s with zoe := { s.zoe with entropy := mset s.zoe.entropy eng.val n } })
      else .next s

/-! ### Concealment (R308) -/

/-- A 4:0:0 picture. -/
def mono (h : PicHead) : Bool := h.chroma == 0

/-- Runs of a CTU within a slot's planes: plane, column and row of the first sample, offset, samples. -/
def ctuRuns (d : BitVec 1024) (h : PicHead) (row col : Nat) : List (Nat × Nat × Nat × Nat × Nat) :=
  let b := vdB d
  let plane (p ctb w hh pitch : Nat) : List (Nat × Nat × Nat × Nat × Nat) :=
    (List.range ctb).filterMap fun y =>
      let yy := row * ctb + y
      let x0 := col * ctb
      if yy < hh ∧ x0 < w then some (p, x0, yy, vdPlane d p + yy * pitch + x0 * b, min ctb (w - x0)) else none
  plane 0 h.ctb h.width h.height (vdYP d)
  ++ (if mono h then [] else
      plane 1 (h.ctb / 2) (h.width / 2) (h.height / 2) (vdCP d) ++ plane 2 (h.ctb / 2) (h.width / 2) (h.height / 2) (vdCP d))

/-- Motion units of a CTU: column, row and offset of its 16 B. -/
def ctuMotion (d : BitVec 1024) (h : PicHead) (row col : Nat) : List (Nat × Nat × Nat) :=
  let u := max 1 (h.ctb / 16)
  (List.range u).flatMap fun y => (List.range u).filterMap fun x =>
    let yy := row * u + y
    let xx := col * u + x
    if yy < cdiv h.height 16 ∧ xx < cdiv h.width 16 then some (xx, yy, vdPlane d 3 + (yy * cdiv (vdW d) 16 + xx) * 16) else none

/-- Read bytes of a session's pool under the partition's tag; a changed owner is remembered for CLOSED (R314). -/
def vRead (s : State) (n a len : Nat) : List Byte × State :=
  match vGet s n with
  | none => ([], s)
  | some v =>
    (partBytes s v.f.val a len, if vOwned s v.f.val a len then s else vSet s n { v with accessErr := true })

/-- Conceal one CTU (R308). -/
def concealCtu (s : State) (n k : Nat) (v : VSession) (h : PicHead) (row col : Nat) : State :=
  let d := v.desc
  let base := vdSlotAddr d k
  let s := each (ctuRuns d h row col) (fun s r =>
    let (_, _, _, off, len) := r
    let (bs, s) := match concealRef v (vSlot v k).decodeOrder with
      | some q => vRead s n (vdSlotAddr d q + off) (len * vdB d)
      | none => (midGrey d h.depth len, s)
    vWrite s n (base + off) bs) s
  each (ctuMotion d h row col) (fun s o => vWrite s n (base + o.2.2) (List.replicate 16 0)) s

/-- The stream up to what has been fed of an access unit: what its picture decodes from (R292). -/
def unitStream (v : VSession) (u : AUnit) : List Byte := v.stream.take (u.start + u.bytes.length)

/-- Write one decoded CTU (R292, R298): samples of the picture's depth, the upper bits of a U10 word zero, and its motion data. -/
def decodeCtu (s : State) (n k : Nat) (v : VSession) (h : PicHead) (u : AUnit) (covered : List Nat) (row col : Nat) : State :=
  let d := v.desc
  let base := vdSlotAddr d k
  let s := each (ctuRuns d h row col) (fun s r =>
    let (p, x, y, off, len) := r
    let bs := (List.range len).flatMap fun i =>
      leBytes (vdB d) (Config.decodedSample d (unitStream v u) u.no covered p (x + i) y % 2 ^ h.depth)
    vWrite s n (base + off) bs) s
  each (ctuMotion d h row col) (fun s o =>
    vWrite s n (base + o.2.2) (leBytes 16 (Config.decodedMotion d (unitStream v u) u.no o.1 o.2.1).toNat)) s

/-- CTU columns and rows of a picture. -/
def ctuCols (h : PicHead) : Nat := cdiv h.width (max 1 h.ctb)
/-- CTU rows. -/
def ctuRowCount (h : PicHead) : Nat := cdiv h.height (max 1 h.ctb)

/-- CTUs of the picture that a surviving slice covers (R307, R308). -/
def coveredCtus (h : PicHead) (u : AUnit) : List Nat := h.covered.filter fun c => !u.lost.contains c

/-- CTUs that are recorded once the first `rows` rows of a picture are: those that no error takes (R294). -/
def recordsOf (h : PicHead) (u : AUnit) (rows : Nat) : Nat :=
  ((List.range (rows * ctuCols h)).filter fun c => (coveredCtus h u).contains c).length

/-- The slot of a picture after a row (R300, R304, R308): pending once its last row is done, if it is output. -/
def slotRow (now : Nat) (d : BitVec 1024) (h : PicHead) (u : AUnit) (x : VSlot) (gone : Nat) (last : Bool) : VSlot :=
  { x with
    rowsDone := x.rowsDone + 1, concealed := x.concealed + gone, tainted := x.tainted || gone != 0, decoding := !last
    out := if last && h.shown then .pending else x.out, hostTag := u.tag, lastByte := u.lastAt
    late := last && (match u.lastAt with | some t => decide (now > t + vdLat d * 1000 + 1200000) | none => false) }

/-- One CTU row of the picture in reconstruction: the decoded CTUs, then the concealed ones; chunks whose CTUs are all reconstructed return (R294, R308). -/
def ctuRow (s : State) (n k : Nat) (v : VSession) (h : PicHead) (u : AUnit) : State :=
  let row := (vSlot v k).rowsDone
  let cols := ctuCols h
  let covered := coveredCtus h u
  let here := List.range cols
  let gone := here.filter fun c => !covered.contains (row * cols + c)
  let s := each (here.filter fun c => covered.contains (row * cols + c)) (fun s c => decodeCtu s n k v h u covered row c) s
  let s := each gone (fun s c => concealCtu s n k v h row c) s
  match vGet s n with
  | none => s
  | some v =>
    let last := decide (row + 1 ≥ ctuRowCount h)
    let s := vSet s n { v with
      slots := mset v.slots k (slotRow s.clk.now v.desc h u (vSlot v k) gone.length last)
      recon := if last then none else v.recon
      units := if last then v.units.filter (·.no != u.no) else v.units
      records := v.records.filter fun c => !(c.unit == u.no && (last || decide (c.upTo ≤ recordsOf h u (row + 1)))) }
    if gone = [] then s else bumpBy s 0x7012 (v.f.val + 1) 64 gone.length

/-- Deadline of the picture in reconstruction comes before another's (R300). -/
def pixelEarlier (a b : VSession) : Bool :=
  match (a.units.head?.bind AUnit.lastAt).map (· + vdLat a.desc * 1000), (b.units.head?.bind AUnit.lastAt).map (· + vdLat b.desc * 1000) with
  | some x, some y => decide (x < y)
  | some _, none => true
  | none, _ => false

/-- A session has a row to run: a picture in reconstruction whose next row has its syntax records, and, if it is the last, its whole access unit (R294, R295). -/
def rowReady (v : VSession) : Option (Nat × PicHead × AUnit) :=
  match v.recon, v.units with
  | some k, u :: _ =>
    match (vSlot v k).head with
    | some h =>
      let row := (vSlot v k).rowsDone
      if (u.done || decide (row + 1 < ctuRowCount h)) && (u.parsed || decide (recordsOf h u (row + 1) ≤ u.ctus)) then some (k, h, u)
      else none
    | none => none
  | _, _ => none

/-- CTU_ROW_DISPATCH (R294, R295, R300, R308): row `row` of the picture of access unit `unit`, once the row above is done, the earliest deadline first. DESIGN CHOICE (log entry 53): a command that names another row than the next does nothing. -/
def execCtuRowDispatch (session : Fin 512) (unit row : Nat) (s : State) : Res :=
  match (if zoeOn s then vGet s session.val else none) with
  | none => .next s
  | some v =>
    match rowReady v with
    | none => .next s
    | some (k, h, u) =>
      if unit != u.no || row != (vSlot v k).rowsDone then .next s
      else if s.zoe.sessions.any fun x => x.1 != session.val && !vdEnc x.2.desc && (rowReady x.2).isSome && pixelEarlier x.2 v then .next s
      else .next (vFlushed (ctuRow s session.val k v h u) session.val)

/-! ### Output (R305, R309) -/

/-- Order of output: by IRAP period, then picture order count. -/
def outBefore (a b : Nat × VSlot) : Bool :=
  let poc (x : VSlot) : Int := ((x.head.map fun h => h.poc.toInt).getD 0)
  decide (a.2.irapNo < b.2.irapNo) || (a.2.irapNo == b.2.irapNo && decide (poc a.2 < poc b.2))

/-- Pictures that wait for output. -/
def outPending (v : VSession) : List (Nat × VSlot) := v.slots.filter fun x => x.2.out == .pending

/-- Those that a flush in progress emits: fed before it (R314). -/
def outFlushed (v : VSession) : List (Nat × VSlot) := (outPending v).filter fun x => v.flushing.any fun y => decide (x.2.unit < y.units)

/-- The first pending picture in output order, one that a flush emits before any other. -/
def nextOutput (v : VSession) : Option (Nat × VSlot) :=
  (sortBy outBefore (if outFlushed v = [] then outPending v else outFlushed v)).head?

/-- The output process emits a picture (R291, R304): more are pending than may be reordered, one has waited while as many pictures as its limit were decoded, one is of an earlier coded sequence, no slot is free, or a flush asks for it. -/
def outputDue (v : VSession) : Bool :=
  let l := outPending v
  decide (l.length > v.reorder) || l.any (fun x => decide (x.2.irapNo < v.iraps)) || outFlushed v != []
  || (v.latency != 0 && l.any fun x => decide (x.2.decodeOrder + v.latency < v.decoded)) || (slotFind v).isNone

/-- PICTURE_OUTPUT (R300, R304, R305, R309): held, the session's counter posted, then the PICTURE completion; LATE where decoding ended late, or for a stream without reordering the completion. -/
def execPictureOutput (session : Fin 512) (s : State) : Res :=
  match (if zoeOn s then vGet s session.val else none) with
  | none => .next s
  | some v =>
    match (if outputDue v then nextOutput v else none) with
    | none => .next s
    | some (k, x) =>
      let d := v.desc
      let p := v.f.val
      let x' := { x with out := .held, outputOrder := v.output }
      let s := vSet s session.val { v with slots := mset v.slots k x', output := v.output + 1 }
      let s := if bit d 890 then locPost s p (fld d 889 870) (fld d 869 861) (BitVec.ofNat 32 (fld d 860 845)) else s
      let slow := match x.lastByte with | some t => decide (s.clk.now > t + vdLat d * 1000 + 1200000) | none => false
      let late := x.late || (v.reorder == 0 && slow)
      let s := bump64 (if late then bump32 s 0x7014 (p + 1) else s) 0x7010 (p + 1)
      let h := x.head
      let s := vPush s v.f
        { kind := 2, session := vId s session.val, tag := x.hostTag, slot := k, value := (h.map fun h => h.poc.toNat).getD 0
          concealed := x.concealed, tainted := x.tainted, key := (h.map irap).getD false, late := late
          crop := (h.map fun h => h.crop).getD 0 }
      .next (vFlushed s session.val)

/-- RELEASE_COUNTER_POST (R306). -/
def execReleaseCounterPost (part : PartId) (session : Fin 512) (n : BitVec 16) (s : State) : Res :=
  if zoeOn s then .next (releasePost s part.val session.val (n.setWidth 32)) else .next s

/-! ### Encoding (R310 to R313) -/

/-- f[k] of R311. -/
def rateF : Nat → Nat
  | 0 => 65536 | 1 => 73562 | 2 => 82570 | 3 => 92682 | 4 => 104032 | _ => 116772

/-- Predicted bits at a QP from the last picture of its type (R311). -/
def rateBits (bits qp q : Nat) : Nat :=
  let dl : Int := (qp : Int) - q
  let x := bits * rateF (dl % 6).toNat / 65536
  let k := dl / 6
  if k ≥ 0 then x <<< k.toNat else x >>> (-k).toNat

/-- The QP of a picture (R311). -/
def rateQp (d : BitVec 1024) (key : Bool) (bucket : Nat) (last : Option (Nat × Nat)) : Nat :=
  let q0 := vdQp d key
  let mx := vdQpMax d
  match last with
  | none => min q0 mx
  | some (b, q) =>
    if q0 > mx then min q0 mx
    else
      let cap := vdRate d * fld d 826 811
      (((List.range (mx - q0 + 1)).map (q0 + ·)).find? fun x => decide (bucket + rateBits b q x ≤ cap)).getD mx

/-- Bucket after the drain of a picture's PTS (R311). -/
def rateDrain (v : VSession) (pts : Nat) : Nat :=
  match v.lastPts with
  | none => v.bucket
  | some t => v.bucket - vdRate v.desc * (pts - t) / 1000000

/-- Samples of an input picture: Y, then U and V. -/
def encSamples (s : State) (p : Nat) (d : BitVec 1024) (x : EncPic) : List Byte :=
  let rows (a pitch w h : Nat) : List Byte := (List.range h).flatMap fun y => partBytes s p (a + y * pitch) (w * vdB d)
  rows x.y x.yPitch (vdW d) (vdH d) ++ rows x.u x.cPitch (vdW d / 2) (vdH d / 2) ++ rows x.v x.cPitch (vdW d / 2) (vdH d / 2)

/-- The planes of an input picture are the partition's. -/
def encOwned (s : State) (p : Nat) (d : BitVec 1024) (x : EncPic) : Bool :=
  vOwned s p x.y (x.yPitch * (vdH d - 1) + vdW d * vdB d)
  && vOwned s p x.u (x.cPitch * (vdH d / 2 - 1) + vdW d / 2 * vdB d) && vOwned s p x.v (x.cPitch * (vdH d / 2 - 1) + vdW d / 2 * vdB d)

/-- A picture is a key picture (R313). -/
def encKey (v : VSession) (x : EncPic) : Bool :=
  v.encoded == 0 || x.keypic || v.keyWanted || (fld v.desc 810 795 != 0 && decide (v.sinceKey ≥ fld v.desc 810 795))

/-- Bound of an encode picture's completion, ns after its command (R300). -/
def encBound (d : BitVec 1024) (bits : Nat) : Nat :=
  vdLat d * 1000 + 1200000 + (bits - vdRate d * vdLat d / 1000) * 5 / 2

/-- References that a P picture predicts from: REFS + 1 (R310). -/
def vdRefs (d : BitVec 1024) : Nat := if bit d 794 then 2 else 1

/-- Bytes that no coded picture exceeds: the bits slot minimum of R299 (R310). -/
def vdBitsMin (d : BitVec 1024) : Nat := cdiv (vdW d * vdH d * 3 * vdB d / 2 + 4096) 64 * 64

/-- A picture as coded (R310): parameter sets and an IDR slice for a key picture, else a P slice; at most the bits slot minimum; with its reconstruction. -/
def codePicture (d : BitVec 1024) (refs : List (List Byte)) (samples : List Byte) (qp : Nat) (key : Bool) : List Byte × List Byte :=
  let r := if key then Config.idrPicture d samples qp else Config.pPicture d (refs.take (vdRefs d)) samples qp
  (((if key then Config.parameterSets d else []) ++ r.1).take (vdBitsMin d), r.2)

/-- Code one picture and emit it (R310 to R313). -/
def encodeOne (s : State) (n : Nat) (v : VSession) (x : EncPic) : State :=
  let d := v.desc
  let p := v.f.val
  let ok := encOwned s p d x
  let samples := encSamples s p d x
  let key := encKey v x
  let f0 := rateDrain v x.pts
  let qp := rateQp d key f0 (if key then v.lastKey else v.lastP)
  let coded := codePicture d v.refPics samples qp key
  let bits := 8 * coded.1.length
  let excess := decide (f0 + bits > vdRate d * fld d 826 811)
  let skip := excess && !key
  let used := if skip then Config.skipPicture d (v.refPics.take (vdRefs d)) else coded
  let bytes := used.1.take (vdBitsMin d)
  let slot := v.nextBits
  let v' := { v with
    inputs := v.inputs.drop 1, bucket := f0 + 8 * bytes.length, lastPts := some x.pts, keyWanted := false
    lastKey := if key then some (bits, qp) else v.lastKey, lastP := if key then v.lastP else some (bits, qp)
    sinceKey := if key then 0 else v.sinceKey + 1, encoded := v.encoded + 1
    refPics := (used.2 :: v.refPics).take (vdRefs d)
    bitsHeld := v.bitsHeld + 1, nextBits := (slot + 1) % vdBitsSlots d, accessErr := v.accessErr || !ok }
  let s := vSet s n v'
  let s := vWrite s n (vdBits d + slot * vdBitsLines d * 64) bytes
  let late := decide (s.clk.now > x.takenAt + encBound d (8 * bytes.length))
  let s := if late then bump32 s 0x7014 (p + 1) else s
  let s := if skip then bump32 s 0x7016 (p + 1) else if excess then bump32 s 0x7015 (p + 1) else s
  let s := bump64 s 0x7010 (p + 1)
  let s := vPush s v.f { kind := 1, session := vId s n, tag := x.hostTag }
  let s := vPush s v.f
    { kind := 3, session := vId s n, tag := x.hostTag, slot := slot, value := bytes.length, key := key, skip := skip, late := late, qp := qp }
  vFlushed s n

/-- The input picture that a session could code now: one waits, and a bits slot is free (R312). -/
def encReady (v : VSession) : Option EncPic := if v.bitsHeld ≥ vdBitsSlots v.desc then none else v.inputs.head?

/-- Its deadline comes before another's (R300). -/
def encEarlier (a b : VSession) : Bool :=
  match encReady a, encReady b with
  | some x, some y => decide (x.takenAt + vdLat a.desc * 1000 < y.takenAt + vdLat b.desc * 1000)
  | some _, none => true
  | none, _ => false

/-- ENCODE_PICTURE (R300, R310 to R313): the next input picture, once a bits slot is free, the earliest deadline first. -/
def execEncodePicture (session : Fin 64) (s : State) : Res :=
  let n := 512 + session.val
  match (if zoeOn s then vGet s n else none) with
  | none => .next s
  | some v =>
    match encReady v with
    | none => .next s
    | some x =>
      if s.zoe.sessions.any fun y => y.1 != n && vdEnc y.2.desc && encEarlier y.2 v then .next s
      else .next (encodeOne s n v x)

end Sys2Proof.Machine
end

