-- ==== Sys2Proof/Machine/Trellis.lean ====
section
/-! DEFINITION. Trellis: ports and the link layer, packets, jobs, cabinet counters, collectives and the sideband (R316 to R346). -/

namespace Sys2Proof.Machine

open Sys2Proof

/-! ### Contract at risk (R265) -/

/-- A cause begins or ends for a partition: RISK_SET or RISK_CLEAR, RISK in its Class G entries, and the bit of OD 0x3012. -/
def riskSet (s : State) (p cause : Nat) (on : Bool) : State :=
  let v := odGet s 0x3012 (p + 1)
  let m := 2 ^ (cause - 1)
  if on && v &&& m == 0 then
    let s := odSet s 0x3012 (p + 1) (v ||| m)
    let s := each (liveReqs s p) (fun s x => if x.2.classE then s else reqSet s x.1 { reqGet s x.1 with risk := true }) s
    eventTo s p 96 cause
  else if !on && v &&& m != 0 then
    eventTo (odSet s 0x3012 (p + 1) (v - m)) p 97 cause
  else s

/-- ACTIVE partitions. -/
def activeParts (s : State) : List Nat :=
  (s.gate.parts.filter fun x => x.2.st == .active).map Prod.fst

/-- A port goes down (R320, R322): what it had sent and not seen acknowledged is gone; with port A the recovered clock goes (R325). It trains again from the next cycle on. -/
def portLost (s : State) (p : Nat) : State :=
  let x := portGet s p
  let s := portSet s p { enabled := x.enabled, served := x.served }
  if p = 0 then portAGone s else s

/-- A port that is down is retrained from PMD start-up (R322). -/
def portTrain (s : State) (p : Nat) : State :=
  let x := portGet s p
  if portOn s p && x.st == .down then portSet s p { x with st := .training } else s

/-- Grant room for flits of a virtual channel to the far end (R321). -/
def creditGrant (s : State) (port : Fin 2) (vc n : Nat) : State := if vc = 1 ∨ vc = 2 then emit s (.credit port vc n) else s

/-- FLIT_RECEIVE (R320, R321): accepted, its room granted again, or discarded with a NAK naming the expected sequence number. -/
def execFlitReceive (port : Fin 2) (flit : BitVec 2048) (fec : FecResult) (corrected : Nat) (s : State) : Res :=
  let p := port.val
  if !portUp s p then .next s
  else
    let s := if corrected = 0 then s else bumpBy s 0x6001 (p + 1) 64 corrected
    let s := if fec.fresh = 0 then s else bumpBy s 0x6002 (p + 1) 64 fec.fresh
    let x := portGet s p
    let seq := fld flit 2047 2036
    let good := !fec.bad && fld flit 2015 1984 == flitCrc flit && seq == x.rxExpect
    if !good then .next (emit s (.nakBlock port x.rxExpect))
    else
      let x := { x with
        rxExpect := (x.rxExpect + 1) % 4096
        rxAny := true
        unacked := if bit flit 2023 then flitAck x.unacked (fld flit 2035 2024) else x.unacked }
      .next (linkDrain (creditGrant (portSet s p x) port (fld flit 2022 2021) 1) p 512)

/-- FLIT_REPLAY (R320): the unacknowledged flits from the named one on are sent again in order; a flit replayed 16 times in a row takes the port down. -/
def execFlitReplay (port : Fin 2) (seq : BitVec 12) (s : State) : Res :=
  let p := port.val
  let x := portGet s p
  if !portUp s p || !(x.unacked.any fun e => e.1 == seq.toNat) then .next s
  else
    let keep := x.unacked.takeWhile fun e => e.1 != seq.toNat
    let again := (x.unacked.dropWhile fun e => e.1 != seq.toNat).map fun e => (e.1, e.2.1, e.2.2 + 1)
    let s := bumpBy s 0x6003 (p + 1) 64 again.length
    if again.any fun e => decide (e.2.2 ≥ 16) then .next (portLost s p)
    else
      let s := portSet s p { x with unacked := keep ++ again }
      .next (each again (fun s e => emit s (.flit port e.1 e.2.1)) s)

/-- PORT_DOWN (R320, R322). -/
def execPortDown (port : Fin 2) (s : State) : Res := .next (portLost s port.val)

/-- CREDIT_CONTROL_BLOCK (R321): room at the far end for a number of flits of a virtual channel. -/
def execCreditControlBlock (port : Fin 2) (vc : Fin 3) (n : Nat) (s : State) : Res :=
  let p := port.val
  if !portUp s p || vc.val == 0 then .next s
  else
    let x := portGet s p
    .next (linkDrain (portSet s p { x with credits := mset x.credits vc.val (mgetD x.credits vc.val 0 + n) }) p 512)

/-! ### Lanes, hello, equalisation (R322 to R326) -/

/-- Lanes in use by the lanes out of service: 8, a half without them, or none (R322). -/
def lanesFor (bad : BitVec 8) : Nat :=
  if bad = 0 then 8 else if fld bad 3 0 = 0 ∨ fld bad 7 4 = 0 then 4 else 0

/-- Lanes out of service at a port, with what both ends agree on at the flit boundary; a REFUSED port carries no such agreement (R322, R323). -/
def lanesSet (s : State) (port : Fin 2) (bad : BitVec 8) : State :=
  let x := portGet s port.val
  let n := lanesFor bad
  if n = 0 then portLost s port.val
  else if x.st = .refused then portSet s port.val { x with badLanes := bad }
  else emit (portSet s port.val { x with badLanes := bad, lanes := n }) (.laneChange port n)

/-- LANE_OUT_OF_SERVICE (R322): the port narrows to the half without the lane, or goes down with a lane out in each half. -/
def execLaneOutOfService (port : Fin 2) (lane : Fin 8) (s : State) : Res :=
  let p := port.val
  let x := portGet s p
  if !portOn s p || (x.st != .up && x.st != .hello && x.st != .refused) then .next s
  else .next (lanesSet s port (x.badLanes ||| BitVec.ofNat 8 (2 ^ lane.val)))

/-- LANE_RESTORE (R322): a retrained lane is back at a flit boundary. -/
def execLaneRestore (port : Fin 2) (lane : Fin 8) (s : State) : Res :=
  let p := port.val
  let x := portGet s p
  if !portOn s p || !x.badLanes.getLsbD lane.val then .next s
  else .next (lanesSet s port (x.badLanes &&& ~~~ BitVec.ofNat 8 (2 ^ lane.val)))

/-- HELLO_SEND (R323): at link-up, which ends a port's training, and every 1 ms after; nothing while the link is down. -/
def execHelloSend (port : Fin 2) (s : State) : Res :=
  let p := port.val
  if !portOn s p || (portGet s p).st == .down then .next s
  else
    let x := portGet s p
    let x := if x.st == .training then { x with st := .hello, lanes := lanesFor x.badLanes } else x
    .next (emit (portSet s p x) (.hello port
      { version := 1, generation := 1, isSwitch := false
        slot := ⟨s.tray.slotId.toNat % 16, Nat.mod_lt _ (by decide)⟩, port := port, cabinet := x.cabinet, slotTaken := false }))

/-- Why a hello is refused (R323, OD 0x6000): 1 generation, 2 role, 3 cabinet ID, 4 slot; 0 when it is not. -/
def helloRefusal (s : State) (p : Nat) (h : HelloBlock) : Nat :=
  if h.generation ≠ 1 then 1
  else if !h.isSwitch then 2
  else if portUp s (1 - p) && (portGet s (1 - p)).cabinet != h.cabinet then 3
  else if h.slotTaken then 4
  else 0

/-- HELLO_RECEIVE (R323 to R325): the port becomes UP, granting room to the far end, or stays REFUSED with the cause. -/
def execHelloReceive (port : Fin 2) (h : HelloBlock) (s : State) : Res :=
  let p := port.val
  let x := portGet s p
  if !portOn s p || x.st == .down || x.st == .training then .next s
  else
    let c := helloRefusal s p h
    if c ≠ 0 then
      let s := portSet s p { x with peerGen := h.generation, refusal := c, st := .refused }
      .next (if p = 0 ∧ x.st = .up then portAGone s else s)
    else
      let n := lanesFor x.badLanes
      let s := portSet s p { x with peerGen := h.generation, refusal := 0, st := .up, cabinet := h.cabinet, lanes := n }
      let s := odSet s 0x6004 0 h.cabinet.toNat
      let s := if x.lanes = n then s else emit s (.laneChange port n)
      let s := if x.st = .up then s
        else creditGrant (creditGrant s port 1 (Config.creditRoom 1)) port 2 (Config.creditRoom 2)
      .next (linkDrain s p 512)

/-- EQUALISATION_REQUEST (R326): at most one per lane per 100 µs. -/
def execEqualisationRequest (port : Fin 2) (lane : Fin 8) (coeff : BitVec 8) (s : State) : Res :=
  let p := port.val
  let x := portGet s p
  let due := match mget x.eqAt lane.val with
    | some t => decide (t + 100000 ≤ s.clk.now)
    | none => true
  if !portUp s p || !due then .next s
  else .next (emit (portSet s p { x with eqAt := mset x.eqAt lane.val s.clk.now }) (.coefficient port lane coeff))

/-- Answer a packet with an ACK (TYPE 2) or a NAK (TYPE 3) under its own generation (R329, R332). -/
def pktAnswer (s : State) (h : BitVec 256) (key part typ status high : Nat) : State :=
  let k := seqKey (pkSrc h) (pkGroup h) (pkGen h)
  let seq := mgetD s.trl.txAck k 1
  let a : BitVec 256 := BitVec.ofNat 256 (2 ^ 252 + typ * 2 ^ 248 + ownSlot s * 2 ^ 244 + pkSrc h * 2 ^ 240 + pkGroup h * 2 ^ 234
    + pkGen h * 2 ^ 230 + 2 ^ 228 + seq % 2 ^ 64 * 2 ^ 129 + status % 256 * 2 ^ 73 + high % 2 ^ 64 * 2 ^ 9)
  let s := { s with trl := { s.trl with txAck := mset s.trl.txAck k (seq + 1) } }
  match portFor s (pkGroup h) (pkSrc h) seq with
  | some q => linksDrain (pktGo s q 1 part (trlSeal key a []))
  | none => s

/-! ### Posts to cabinet sync counters (R336, R337) -/

/-- A post to a cabinet counter, and to the cluster counter it is bound to (R337). -/
def cabPost (s : State) (part n : Nat) (amt : W32) : State :=
  let s := cabSet s n (cabGet s n + amt)
  match mget s.trl.binds n with
  | some k => cntPost s part (k / 512) (k % 512) amt
  | none => s

/-! ### Receiving packets (R331, R332) -/

/-- Count a drop or a NAK of R331 for a partition; group 63 has none. -/
def refused (s : State) (part : Nat) : State := if part < 16 then bump32 s 0x6040 (part + 1) else s

/-- A SEQ is a duplicate in its window (R332). -/
def rxDup (w : RxWin) (seq : Nat) : Bool := decide (seq ≤ w.high) || w.marked.contains seq

/-- Raise the highest contiguous SEQ over what is marked. -/
def rxRaise (w : RxWin) : Nat → RxWin
  | 0 => w
  | n + 1 =>
    if w.marked.contains (w.high + 1) then
      rxRaise { high := w.high + 1, marked := w.marked.filter fun x => x != w.high + 1 } n
    else w

/-- Mark a SEQ as received. -/
def rxMark (w : RxWin) (seq : Nat) : RxWin := rxRaise { w with marked := seq :: w.marked } (w.marked.length + 1)

/-- The line checks of R150 over the lines of a write. -/
def landOk (s : State) (part a n : Nat) : Bool :=
  (spanLines a n).all fun l => !ownBad s part l && !wpBad s false l && !addrBad s 68 part l

/-- What the first four checks of R331 make of a packet. -/
inductive PktGate
  /-- Dropped without a reply, counted for a partition. -/
  | drop (part : Nat)
  /-- Answered by a NAK of a status under a key, counted for a partition. -/
  | nak (part key status : Nat)
  /-- Opened: its group, the key and the plaintext. -/
  | pass (gr : Group) (key : Nat) (pt : List Byte)
  deriving DecidableEq, Repr

/-- The first four checks of R331, in their order, which every packet meets: VER and TYPE, GROUP, the key and the tag, the check value. A group that is not configured is answered until its key slot is zeroized, and drops the packet from then on (R415). DESIGN CHOICE (log entry 111): such a packet counts for the partition that the group's object holds, and a NAK GROUP under a generation that is not held goes out under a free key. -/
def pktGate (s : State) (pkt : Packet) : PktGate :=
  let h := pkt.header
  let g := pkGroup h
  let e := odGet s 0x6020 (g + 1)
  let lp := if g = 63 then 63 else nfld e 30 27
  if fld h 255 252 ≠ 1 ∨ pkType h > 3 then .drop lp
  else
    match groupOf s g with
    | none =>
      let x := keySlot s (nfld e 10 5)
      if e ≠ 0 ∧ x.curKey.isNone ∧ x.old.isNone then .drop lp
      else .nak lp ((if e = 0 then none else trlKey s (nfld e 10 5) lp (pkGen h)).getD (Config.nakKey g (pkGen h))) 2
    | some gr =>
      let key := trlKey s gr.slot gr.part (pkGen h)
      if !gr.mask.getLsbD (pkSrc h) then .nak gr.part (key.getD (Config.nakKey g (pkGen h))) 2
      else
        match key.bind fun k => (trlOpen k pkt).map fun pt => (k, pt) with
        | none => .drop gr.part
        | some (k, pt) =>
          if (presetCheck (some (pkSeq h)) pt).toNat ≠ fld pkt.trailer 191 128 then .nak gr.part k 4 else .pass gr k pt

/-- Receive window of a source, group and generation. -/
def rxOf (s : State) (h : BitVec 256) : RxWin := mgetD s.trl.rx (seqKey (pkSrc h) (pkGroup h) (pkGen h)) {}

/-- Answer with a NAK, counted (R331). -/
def pktNak (s : State) (h : BitVec 256) (part key status : Nat) : State :=
  pktAnswer (refused s part) h key part 3 status (rxOf s h).high

/-- A packet that the first four checks stop: counted, and answered where a NAK is due; a failed check value counts in OD 0x6805 too (R331, R432). -/
def pktStopped (s : State) (h : BitVec 256) : PktGate → State
  | .drop part => refused s part
  | .nak part key st => pktNak (if st = 4 then bump32 s 0x6805 2 else s) h part key st
  | .pass .. => s

/-- Mark a packet as received and acknowledge it (R332). -/
def pktTake (s : State) (h : BitVec 256) (part key : Nat) : State :=
  let w := rxMark (rxOf s h) (pkSeq h)
  let s := { s with trl := { s.trl with rx := mset s.trl.rx (seqKey (pkSrc h) (pkGroup h) (pkGen h)) w } }
  pktAnswer s h key part 2 0 w.high

/-- Checks 5 to 8 of R331 and the effect of a WRITE or POST. A SEQ beyond the 1,024 above the highest contiguous one cannot be marked and is dropped; group 63 has no window and posts no counter, and its data are firmware's (DESIGN CHOICE, log entry 110). -/
def pktLand (s : State) (h : BitVec 256) (gr : Group) (key : Nat) (pt : List Byte) : State :=
  let w := rxOf s h
  let len := fld h 227 220
  let off := fld h 128 81
  let win := windowOf s (pkGroup h)
  let cnt := fld h 218 209
  let write := pkType h == 0
  let post := pkType h == 1 || bit h 219
  if rxDup w (pkSeq h) then pktAnswer (if gr.part < 16 then bump64 s 0x6041 (gr.part + 1) else s) h key gr.part 2 0 w.high
  else if pkSeq h > w.high + 1024 then refused s gr.part
  else if pkGroup h = 63 then pktTake s h gr.part key
  else if write && decide (off + 32 * len > win.2) then pktNak s h gr.part key 1
  else if post && !cabOwned s gr.part cnt then pktNak s h gr.part key 3
  else if write && !landOk s gr.part (win.1 + off) (32 * len) then pktNak s h gr.part key 5
  else
    let s := if write then partPut s gr.part (win.1 + off) (pt.take (32 * len)) else s
    let amt : W32 := if write then BitVec.ofNat 32 len else BitVec.ofNat 32 (fld h 208 193)
    pktTake (if post then cabPost s gr.part cnt amt else s) h gr.part key

/-- A WRITE, a POST or a packet of a reserved type under the checks of R331, in their order. -/
def pktReceive (s : State) (pkt : Packet) : State :=
  match pktGate s pkt with
  | .pass gr key pt => pktLand s pkt.header gr key pt
  | g => pktStopped s pkt.header g

/-- WRITE_PACKET (R331): a packet of TYPE WRITE or of a reserved type. -/
def execWritePacket (port : Fin 2) (pkt : Packet) (s : State) : Res :=
  let t := pkType pkt.header
  if portUp s port.val && (t == 0 || decide (t > 3)) then .next (pktReceive s pkt) else .next s

/-- POST_PACKET (R331, R336, R337). -/
def execPostPacket (port : Fin 2) (pkt : Packet) (s : State) : Res :=
  if portUp s port.val && pkType pkt.header == 1 then .next (pktReceive s pkt) else .next s

/-! ### Sending packets (R329, R332, R333) -/

/-- OP of a job. -/
def tjOp (j : TJob) : Nat := fld j.bits 1019 1016
/-- GROUP of a job. -/
def tjGroup (j : TJob) : Nat := fld j.bits 1015 1010
/-- RCNT. -/
def tjRcnt (j : TJob) : Nat := fld j.bits 807 798

/-- Replace a job. -/
def tjSet (s : State) (n : Nat) (j : TJob) : State := { s with trl := { s.trl with jobs := mset s.trl.jobs n j } }

/-- A job runs on unless the step of its context has ended by a fault. -/
def tjRuns (s : State) (j : TJob) : Bool := (ctxGet s j.ctx).fault.isNone

/-- The first run of a job with room for a packet, and its place (R332). -/
def runNext (s : State) (j : TJob) : Option (Nat × TxRun) :=
  (j.left.zipIdx.find? fun r => decide (outTo s r.1.dst (tjGroup j) < 1024)).map fun r => (r.2, r.1)

/-- Send a job's packets while the windows and the retransmit buffer have room. -/
def jobPump (s : State) (n : Nat) : Nat → State
  | 0 => s
  | k + 1 =>
    match mget s.trl.jobs n with
    | none => s
    | some j =>
      if !tjRuns s j then s
      else
        match runNext s j, groupOf s (tjGroup j) with
        | some (i, r), some gr =>
          match trlCur s gr with
          | none => ctxEnd s j.ctx fcImage
          | some (gen, key) =>
            let len := min r.len (if bit j.bits 1005 then 4096 else 256)
            if !pktFits s r.dst (tjGroup j) len then s
            else
              let post := tjOp j == 2
              let extra := (if post then 2 ^ 248 + fld j.bits 797 782 * 2 ^ 193 else 0)
                + (if !post && r.post.isSome then 2 ^ 219 else 0) + (r.post.getD 0) % 1024 * 2 ^ 209 + r.off % 2 ^ 48 * 2 ^ 81
              let rest := if len = r.len then j.left.eraseIdx i
                else j.left.set i { r with src := r.src + len, off := r.off + len, len := r.len - len }
              let data := partBytes s j.part.val r.src len
              let s := pktOut (tjSet (partTouch s j.part.val r.src len) n { j with left := rest }) r.dst (tjGroup j) gen key j.part.val
                (if bit j.bits 1005 then 2 else 1) extra data (some n)
              jobPump s n k
        | _, _ => s

/-- Let a job send, then the ports what it queued. -/
def jobSend (s : State) (n : Nat) : State := linksDrain (jobPump s n 16384)

/-- Let everything that waits to send in a group send on. -/
def jobsPump (s : State) (g : Nat) : State :=
  if g = 63 then linksDrain (g63Pump s 1024)
  else linksDrain (each (s.trl.jobs.filter fun x => tjGroup x.2 == g && x.2.left != []) (fun s x => jobPump s x.1 16384) s)

/-- A job completes with LINK: its step ends with parity, which is a class 2 error of the port (R335, R539). Its packets stay until they are acknowledged (R332). -/
def jobLink (s : State) (n port : Nat) : State :=
  let j? := mget s.trl.jobs n
  let s := { s with trl := { s.trl with jobs := mdel s.trl.jobs n } }
  match j? with
  | none => s
  | some j =>
    if tjRuns s j then strike s (2 ^ 27 + port) (.port port) j.part.val [j.ctx] { cls := 2, block := 5, kind := port } else s

/-- A kept packet has failed for good (R332): it is given up, and its job completes with LINK. -/
def pktLink (s : State) (o : OutPkt) : State :=
  let s := { s with trl := { s.trl with pending := s.trl.pending.filter fun x => x != o } }
  match o.job with
  | some n => jobLink s n o.port
  | none => s

/-- ACK_PACKET (R332): the packets up to ACK_SEQ are acknowledged. -/
def execAckPacket (port : Fin 2) (pkt : Packet) (s : State) : Res :=
  let h := pkt.header
  if !portUp s port.val || pkType h != 2 then .next s
  else
    match pktGate s pkt with
    | .pass .. =>
      let s := { s with trl := { s.trl with pending := s.trl.pending.filter fun o =>
        !(o.dst == pkSrc h && o.group == pkGroup h && pkGen o.pkt.header == pkGen h && decide (o.seq ≤ fld h 72 9)) } }
      .next (jobsPump s (pkGroup h))
    | g => .next (pktStopped s h g)

/-- Send a kept packet again, byte for byte, on the other port if that one is UP, else on the same (R332). -/
def pktAgain (s : State) (o : OutPkt) : State :=
  let q := if portUp s (1 - o.port) then 1 - o.port else o.port
  let o' := { o with port := q, sentAt := s.clk.now, resends := o.resends + 1 }
  let s := { s with trl := { s.trl with pending := s.trl.pending.map fun x =>
    if x.dst == o.dst && x.group == o.group && x.seq == o.seq && pkGen x.pkt.header == pkGen o.pkt.header then o' else x } }
  if portUp s q then linksDrain (pktGo s q (fld o.pkt.header 229 228) (((groupOf s o.group).map Group.part).getD 63) o.pkt) else s

/-- A NAK refuses one packet: WINDOW, COUNTER and OWNER end the step with an image fault; CHECK asks for the packet again, and a third gives LINK (R332, R335); GROUP leaves it to R332. The NAK carries no SEQ of the packet: it answers the oldest packet beyond ACK_SEQ. -/
def nakOne (s : State) (o : OutPkt) (status : Nat) : State :=
  if status = 1 ∨ status = 3 ∨ status = 5 then
    match o.job.bind fun n => mget s.trl.jobs n with
    | some j => if tjRuns s j then ctxEnd s j.ctx fcImage else s
    | none => s
  else if status = 4 then
    if o.checkNaks + 1 ≥ 3 then pktLink s o
    else
      let o' := { o with checkNaks := o.checkNaks + 1 }
      pktAgain { s with trl := { s.trl with pending := s.trl.pending.map fun x => if x = o then o' else x } } o'
  else s

/-- NAK_PACKET (R331, R332, R335). -/
def execNakPacket (port : Fin 2) (pkt : Packet) (s : State) : Res :=
  let h := pkt.header
  if !portUp s port.val || pkType h != 3 then .next s
  else
    match pktGate s pkt with
    | .pass .. =>
      let here (o : OutPkt) : Bool := o.dst == pkSrc h && o.group == pkGroup h && pkGen o.pkt.header == pkGen h
      let s := { s with trl := { s.trl with pending := s.trl.pending.filter fun o => !(here o && decide (o.seq ≤ fld h 72 9)) } }
      match s.trl.pending.find? here with
      | some o => .next (jobsPump (nakOne s o (fld h 80 73)) (pkGroup h))
      | none => .next (jobsPump s (pkGroup h))
    | g => .next (pktStopped s h g)

/-- PACKET_RESEND (R332): 20 µs without acknowledgement; after four resends the job completes with LINK. -/
def execPacketResend (dst : Fin 16) (group : Fin 64) (seq : Nat) (s : State) : Res :=
  match s.trl.pending.find? fun o => o.dst == dst.val && o.group == group.val && o.seq == seq with
  | none => .next s
  | some o =>
    if !trlOn s || decide (s.clk.now < o.sentAt + 20000) then .next s
    else if o.resends ≥ 4 then .next (pktLink s o)
    else .next (pktAgain s o)

/-! ### Jobs (R334 to R340) -/

/-- Slots of a mask, ascending. -/
def slotsOf (m : Nat) : List Nat := bitsOf 16 m

/-- MEMBERS of a REDUCE job. -/
def rdMembers (j : TJob) : List Nat := slotsOf (fld j.bits 1000 985)
/-- LEN. -/
def tjLen (j : TJob) : Nat := fld j.bits 936 905
/-- Z (R339). -/
def rdZ (j : TJob) : Nat := cdiv (tjLen j) (32 * max 1 (rdMembers j).length) * 32
/-- Bytes of chunk k. -/
def rdChunk (j : TJob) (k : Nat) : Nat := min (tjLen j) ((k + 1) * rdZ j) - min (tjLen j) (k * rdZ j)
/-- Own rank. -/
def rdRank (s : State) (j : TJob) : Nat := (rdMembers j).idxOf (ownSlot s)
/-- Target of RCNT: blocks of M − 1 contributions (R339 step 2). -/
def rdTarget (s : State) (j : TJob) : Nat := ((rdMembers j).length - 1) * (rdChunk j (rdRank s j) / 32)
/-- Target of RCNT + 1: blocks of every chunk but its own (R339 step 4). -/
def rdTarget' (s : State) (j : TJob) : Nat := (tjLen j - rdChunk j (rdRank s j)) / 32
/-- Base of the window of a job's group. -/
def tjWin (s : State) (j : TJob) : Nat := (windowOf s (tjGroup j)).1
/-- SCR_OFF. -/
def rdScr (j : TJob) : Nat := fld j.bits 856 809
/-- DST_OFF. -/
def tjDst (j : TJob) : Nat := fld j.bits 904 857

/-- The checks of R335 on a job: reserved encodings, ranges, GROUP, SRC, and for REDUCE the member's own places. -/
def tjBad (s : State) (j : TJob) : Bool :=
  let b := j.bits
  let op := tjOp j
  let p := j.part.val
  let data := op == 1 || op == 3
  let wait := jobLocBad (bit b 781) (fld b 780 761) false
  let post := jobLocBad (bit b 719) (fld b 718 699) true
  let group := match groupOf s (tjGroup j) with | some g => g.part == p | none => false
  let key := match groupOf s (tjGroup j) with | some g => (trlCur s g).isSome | none => false
  let srcBad := (spanLines (fld b 984 937) (tjLen j)).any fun l => addrBad s 68 p l || ownBad s p l
  fld b 1023 1020 != 1 || op == 0 || decide (op > 4) || wait || post
  || !group || (op != 4 && !key)
  || (data && (tjLen j == 0 || tjLen j % 32 != 0 || tjDst j % 32 != 0 || srcBad))
  || (op == 2 && (!bit b 808 || fld b 797 782 == 0))
  || (op == 3 && (decide (fld b 1004 1001 > 2) || !(rdMembers j).contains (ownSlot s) || rdScr j % 32 != 0
        || decide (tjRcnt j = 1023)
        || decide (rdScr j + (rdMembers j).length * rdZ j > (windowOf s (tjGroup j)).2)
        || decide (tjDst j + tjLen j > (windowOf s (tjGroup j)).2)
        || !landOk s p (tjWin s j + rdScr j + rdRank s j * rdZ j) (rdChunk j (rdRank s j))
        || !landOk s p (tjWin s j + tjDst j + rdRank s j * rdZ j) (rdChunk j (rdRank s j))))
  || (op == 4 && (!cabOwned s p (fld b 673 664) || (match clusOfLoc (fld b 663 644) with
        | some c => quadOwner s (clusQuad c) != p
        | none => true)))

/-- Start a job of an OP: the jobs of its list before it have started, its WAIT is satisfied, its partition is not being removed; an illegal job ends the step with an image fault (R334, R335). -/
def jobStart (s : State) (n op : Nat) (run : State → TJob → State) : State :=
  match mget s.trl.jobs n with
  | none => s
  | some j =>
    let before := s.trl.jobs.all fun x => x.2.ctx != j.ctx || x.2.started || decide (n ≤ x.1)
    let act := ((mget s.gate.parts j.part.val).map Partn.st).getD .free == .active
    if !trlOn s || j.started || !tjRuns s j || !before || !act then s
    else if tjBad s j then ctxEnd s j.ctx fcImage
    else if tjOp j ≠ op ∨ !jobWait s (bit j.bits 781) (fld j.bits 780 761) (fld j.bits 760 752) (fld j.bits 751 720) then s
    else run (tjSet s n { j with started := true }) { j with started := true }

/-- SEND_JOB (R334). -/
def execSendJob (job : Nat) (s : State) : Res :=
  .next (jobStart s job 1 fun s j =>
    let r : TxRun := { dst := fld j.bits 1009 1006, src := fld j.bits 984 937, off := tjDst j, len := tjLen j,
                       post := if bit j.bits 808 then some (tjRcnt j) else none }
    jobSend (tjSet s job { j with left := [r] }) job)

/-- TRELLIS_POST_JOB (R334, R338). -/
def execTrellisPostJob (job : Nat) (s : State) : Res :=
  .next (jobStart s job 2 fun s j =>
    let r : TxRun := { dst := fld j.bits 1009 1006, src := 0, off := 0, len := 0, post := some (tjRcnt j) }
    jobSend (tjSet s job { j with left := [r] }) job)

/-- REDUCE_JOB (R339 step 1): chunk k goes to member k, the own chunk is copied locally. -/
def execReduceJob (job : Nat) (s : State) : Res :=
  .next (jobStart s job 3 fun s j =>
    let r := rdRank s j
    let off := rdScr j + r * rdZ j
    let src := fld j.bits 984 937
    let own := partBytes s j.part.val (src + r * rdZ j) (rdChunk j r)
    let s := partPut (partTouch s j.part.val (src + r * rdZ j) (rdChunk j r)) j.part.val (tjWin s j + off) own
    let runs := ((rdMembers j).zipIdx.filter fun m => m.2 != r && rdChunk j m.2 != 0).map fun m =>
      ({ dst := m.1, src := src + m.2 * rdZ j, off := off, len := rdChunk j m.2, post := some (tjRcnt j) } : TxRun)
    jobSend (tjSet s job { j with left := runs }) job)

/-- Combine one element of two contributions, with the numeric flags of a record's sum (R44, R340). -/
def rdElem (elem : Nat) (x y : Nat) : Nat × BitVec 4 :=
  match elem with
  | 0 => let r := recMerge (BitVec.ofNat 128 x) (BitVec.ofNat 128 y); (r.1.toNat, r.2)
  | 1 => (if sx 32 x < sx 32 y then y else x, 0)
  | _ => ((x + y) % 2 ^ 64, 0)

/-- Bytes of an element. -/
def rdSize (elem : Nat) : Nat := match elem with | 0 => 16 | 1 => 4 | _ => 8

/-- Combine two contributions of equal length: the bytes and the flags. -/
def rdCombine (elem : Nat) (a b : List Byte) : List Byte × BitVec 4 :=
  let n := rdSize elem
  let rs := (List.range (a.length / n)).map fun i => rdElem elem (leNat ((a.drop (n * i)).take n)) (leNat ((b.drop (n * i)).take n))
  (rs.flatMap fun r => leBytes n r.1, orFlags (rs.map Prod.snd))

/-- Combine the contributions of a list onto the first. -/
def rdSum (elem : Nat) (a : List Byte) (bs : List (List Byte)) : List Byte × BitVec 4 :=
  bs.foldl (fun acc b => let r := rdCombine elem acc.1 b; (r.1, acc.2 ||| r.2)) (a, 0)

/-- Flags that the reduction unit raises for a partition's step, in its report with those of its cores (R76, R126, R340). -/
def stepFlags (s : State) (p : Nat) (fl : BitVec 4) : State :=
  match mget s.car.steps p with
  | some x => if fl = 0 then s else { s with car := { s.car with steps := mset s.car.steps p { x with flags := x.flags ||| fl } } }
  | none => s

/-- REDUCE_COMBINE (R339 steps 2 and 3): with M − 1 contributions in, the chunk is combined, written and sent to every other member. -/
def execReduceCombine (job : Nat) (s : State) : Res :=
  match mget s.trl.jobs job with
  | none => .next s
  | some j =>
    if !trlOn s || !j.started || j.combined || tjOp j != 3 || !tjRuns s j
        || !waitOk (cabGet s (tjRcnt j)) (BitVec.ofNat 32 (rdTarget s j)) then .next s
    else
      let p := j.part.val
      let r := rdRank s j
      let n := rdChunk j r
      let at_ (m : Nat) : List Byte := partBytes s p (tjWin s j + rdScr j + m * rdZ j) n
      let sum := rdSum (fld j.bits 1004 1001) (at_ 0) (((List.range (rdMembers j).length).drop 1).map at_)
      let off := tjDst j + r * rdZ j
      let s := stepFlags (partPut s p (tjWin s j + off) sum.1) p sum.2
      let runs := if n = 0 then [] else ((rdMembers j).filter fun m => m != ownSlot s).map fun m =>
        ({ dst := m, src := tjWin s j + off, off := off, len := n, post := some (tjRcnt j + 1) } : TxRun)
      .next (jobSend (tjSet s job { j with combined := true, left := j.left ++ runs }) job)

/-- BIND_JOB (R337): later posts to the cabinet counter go to the cluster counter too. -/
def execBindJob (job : Nat) (s : State) : Res :=
  .next (jobStart s job 4 fun s j =>
    match clusOfLoc (fld j.bits 663 644) with
    | some c => { s with trl := { s.trl with binds := mset s.trl.binds (fld j.bits 673 664) (cntKey c (fld j.bits 643 635)) } }
    | none => s)

/-- TRELLIS_JOB_COMPLETE (R334, R339 steps 4 and 5): every packet acknowledged and every result in; targets taken off the counters, then the local post. -/
def execTrellisJobComplete (job : Nat) (s : State) : Res :=
  match mget s.trl.jobs job with
  | none => .next s
  | some j =>
    let red := tjOp j == 3
    let inAll := !red || (j.combined && waitOk (cabGet s (tjRcnt j + 1)) (BitVec.ofNat 32 (rdTarget' s j)))
    if !trlOn s || !j.started || j.left != [] || (s.trl.pending.any fun o => o.job == some job) || !inAll || !tjRuns s j then .next s
    else
      let s :=
        if red then
          let s := cabSet s (tjRcnt j) (cabGet s (tjRcnt j) - BitVec.ofNat 32 (rdTarget s j))
          cabSet s (tjRcnt j + 1) (cabGet s (tjRcnt j + 1) - BitVec.ofNat 32 (rdTarget' s j))
        else s
      let s := { s with trl := { s.trl with jobs := mdel s.trl.jobs job } }
      .next (if bit j.bits 719 then locPost s j.part.val (fld j.bits 718 699) (fld j.bits 698 690) (BitVec.ofNat 32 (fld j.bits 689 674)) else s)

/-! ### Sideband (R343 to R345) -/

/-- Quadrants of a partition. -/
def quadsOf (s : State) (p : Nat) : List Nat := bitsOf 16 (partQuads s p)

/-- Set clock of a quadrant, 0 when it is not powered (OD 0x1407). -/
def quadMhz (s : State) (q : Nat) : Nat := if s.tray.quadOn.getLsbD q then (mgetD s.wv.quads q {}).clock else 0

/-- Lowest quadrant clock of a partition. -/
def partMhz (s : State) (p : Nat) : Nat :=
  match quadsOf s p with
  | [] => 0
  | q :: t => t.foldl (fun m q => min m (quadMhz s q)) (quadMhz s q)

/-- Causes that Weathervane reports for a partition: those of its quadrants and of the tray (R343, R373). -/
def partCauses (s : State) (p : Nat) : Byte :=
  (quadsOf s p).foldl (fun c q => c ||| (mgetD s.wv.quads q {}).causes) s.wv.causes

/-- CLOCK_STATE_SEND (R343). -/
def execClockStateSend (s : State) : Res :=
  if trlOn s && (portUp s 0 || portUp s 1) then
    .next (each (activeParts s) (fun s p => emit s (.clockState (fin16 p) (partMhz s p) (partCauses s p))) s)
  else .next s

/-- CLOCK_STATE_RECEIVE (R343, R344): the latest block of a slot; a lost partner is back, unless this tray has gone on alone and waits for one to join (R265, R447). -/
def execClockStateReceive (slot : Fin 16) (part : PartId) (mhz : BitVec 16) (causes : Byte) (s : State) : Res :=
  if trlOn s && (portUp s 0 || portUp s 1) then
    let x := mgetD s.trl.peers slot.val {}
    let x := { x with mhz := mhz.toNat, causes := causes, at_ := s.clk.now, lost := false, byPart := mset x.byPart part.val mhz.toNat }
    let s := { s with trl := { s.trl with peers := mset s.trl.peers slot.val x } }
    .next (if odGet s 0x6401 0 = slot.val ∧ s.pair.partnerLost ∧ !s.pair.alone then
      each (activeParts s) (fun s p => riskSet s p 4 false)
        { s with pair := { s.pair with partnerLost := false, degraded := false } }
    else s)
  else .next s

/-- A job awaits a slot: packets for it, or results from it (R345). -/
def awaits (s : State) (n : Nat) (j : TJob) (slot : Nat) : Bool :=
  j.started && ((s.trl.pending.any fun o => o.job == some n && o.dst == slot) || (j.left.any fun r => r.dst == slot)
    || (tjOp j == 3 && (rdMembers j).contains slot && slot != ownSlot s))

/-- The partner is lost on Trellis (R265, R441, R450): cause 4 in comparison mode, a standby's pair DEGRADED, and an active that reports no partner. -/
def partnerGone (s : State) : State :=
  let s : State := { s with pair := { s.pair with
    partnerLost := true, degraded := s.pair.role == .standby || s.pair.role == .rehearsing } }
  if odGet s 0x6400 0 = 2 then
    each (activeParts s) (fun s p => riskSet s p 4 true) (if s.pair.role = .active then heldAll s else s)
  else if s.pair.role = .active then emit { s with pair := { s.pair with partnerRole := none } } .noPartner
  else s

/-- PEER_LOST (R265, R345, R441): no clock-state block for 100 µs, from reset on for a peer that has sent none; jobs that await the peer complete with LINK, and the loss of the partner has its effects. -/
def execPeerLost (slot : Fin 16) (s : State) : Res :=
  let x := mgetD s.trl.peers slot.val {}
  if x.lost ∨ s.clk.now < x.at_ + 100000 ∨ slot.val = ownSlot s then .next s
  else
    let heard := (mget s.trl.peers slot.val).isSome
    let s : State := if heard then { s with trl := { s.trl with peers := mset s.trl.peers slot.val { x with lost := true } } } else s
    let s := each (s.trl.jobs.filter fun y => awaits s y.1 y.2 slot.val) (fun s y =>
      jobLink s y.1 (((s.trl.pending.find? fun o => o.job == some y.1).map OutPkt.port).getD 0)) s
    if odGet s 0x6401 0 ≠ slot.val ∨ s.pair.role = .unpaired ∨ s.pair.partnerLost then .next s
    else .next (partnerGone s)

end Sys2Proof.Machine
end

