-- ==== Sys2Proof/Machine/Gatehouse.lean ====
section
/-! DEFINITION. The Gatehouse: signatures, partitions and their removal, key slots, attestation and key release, rotation, scrubbing (R92, R394 to R421, R432). -/

namespace Sys2Proof.Machine

open Sys2Proof

/-! ### Signatures (R394 to R398) -/

/-- SHA-384 digests of an Ed25519 and an ML-DSA-65 public key, as a root fuse holds them (R394). -/
def keyDigests (edPub mlPub : Nat) : BitVec 768 :=
  BitVec.ofNat 768 ((Config.sha384 (leBytes 32 edPub)).toNat + (Config.sha384 (leBytes 1952 mlPub)).toNat * 2 ^ 384)

/-- Digests match one root fuse, ROOT_A only while it is not revoked (R398). -/
def rootOk (s : State) (d : BitVec 768) : Bool :=
  (d == s.fuses.rootA && !s.fuses.rootARevoked) || d == s.fuses.rootB

/-- Both signatures of a digest verify under one root (R396, R398). -/
def dualOk (s : State) (edPub mlPub : Nat) (digest : BitVec 384) (edSig mlSig : Nat) : Bool :=
  rootOk s (keyDigests edPub mlPub) && Config.ed25519Verify edPub digest edSig && Config.mldsaVerify mlPub digest mlSig

/-- The first check of R398 that an image fails: 1 signatures, 2 floor, 3 digest, 4 component; 0 when it passes. -/
def fwCheck (s : State) (i : FwImage) : Nat :=
  if !dualOk s i.edPub i.mlPub i.fieldsDigest i.edSig i.mlSig then 1
  else if i.secVer < s.fuses.floors.getD i.comp 0 ∨ i.secVer = 0 ∨ i.secVer > 64 then 2
  else if i.bodyDigest ≠ i.digest then 3
  else if i.comp > 8 then 4
  else 0

/-- Append a measurement; the list has at most 24 (R398). -/
def measure (s : State) (i : FwImage) : State :=
  { s with tray := { s.tray with
    measurements := (s.tray.measurements ++ [({ comp := i.comp, secVer := i.secVer, digest := i.fieldsDigest } : Measurement)]).take 24 } }

/-! ### Powering a partition (R20, R21, R92, R98, R99, R382, R504) -/

/-- Power a quadrant: its die-common domain first, then itself, cleared; its clock starts at the floor, on its PLL where a partition owns it, else on the source stored for it, and waits to be judged stable (R380, R382, R504). -/
def quadPowerOn (s : State) (q : Nat) : State :=
  let d := q / 4
  let no : Judgement := { stable := false }
  let judged := mset (if s.tray.dieOn.getLsbD d then s.clk.judged else mset s.clk.judged (16 + d) no) q no
  let s := { s with
    tray := { s.tray with dieOn := s.tray.dieOn ||| BitVec.ofNat 4 (2 ^ d), quadOn := s.tray.quadOn ||| BitVec.ofNat 16 (2 ^ q) }
    clk := { s.clk with judged := judged, halts := mdel s.clk.halts (q + 1)
                        source := if quadOwner s q < 16 then mdel s.clk.source q else mset s.clk.source q (odGet s 0x1000 (q + 1)) }
    wv := { s.wv with quads := mset s.wv.quads q { clock := 1000, canarySince := s.clk.now } } }
  quadClear s q

/-- Assign a powered quadrant to a partition: back to its PLL, with its cycles lost and counted, then cleared (R92, R382). -/
def quadAssign (s : State) (q : Nat) : State :=
  quadClear (if domSource s (q + 1) = 0 then s else domSwitch s (q + 1) 0) q

/-- Quadrants of a partition on a die, as numbers 0 to 3. -/
def dieQuads (mask : BitVec 16) (d : Nat) : List Nat := bitsOf 4 (fld mask (4 * d + 3) (4 * d))

/-- Create the stream contexts of a partition (R98, R99): on each die the lowest free context, with the lanes and granules of its quadrants. -/
def ctxCreate (s : State) (p : Nat) (mask : BitVec 16) : State :=
  each (List.range 4) (fun s d =>
    let qs := dieQuads mask d
    if qs = [] then s
    else
      match (List.range 4).find? fun i => (ctxGet s (4 * d + i)).part.isNone with
      | none => s
      | some i => ctxSet s (4 * d + i)
          { part := some (fin16 p)
            laneMask := BitVec.ofNat 8 (maskOf (qs.flatMap fun q => [2 * q, 2 * q + 1]))
            granules := qs.flatMap fun q => (List.range 8).map (8 * q + ·) }) s

/-- Power, clear and give contexts to a partition's quadrants (R400, R442, R448). -/
def partPower (s : State) (p : Nat) : State :=
  let mask : BitVec 16 := BitVec.ofNat 16 (partQuads s p)
  let s := each (bitsOf 16 mask.toNat) (fun s q => if s.tray.quadOn.getLsbD q then s else quadPowerOn s q) s
  if (s.seq.ctxs.any fun c => c.2.part.map Fin.val == some p) then s else ctxCreate s p mask

/-- Remove a partition's contexts, with the bundles and lanes they held. -/
def ctxRemove (s : State) (p : Nat) : State :=
  let cs := (s.seq.ctxs.filter fun c => c.2.part.map Fin.val == some p).map Prod.fst
  let ls := cs.flatMap (ctxLanes s)
  { s with seq := { s.seq with
    ctxs := mdrop s.seq.ctxs fun c => cs.contains c
    lanes := mdrop s.seq.lanes fun l => ls.contains l
    imem := s.seq.imem.filter fun b => (mget s.seq.imemOwner b.1) != some (BitVec.ofNat 6 p)
    imemOwner := s.seq.imemOwner.filter fun b => b.2 != BitVec.ofNat 6 p } }

/-- The tray forms partitions without powering them (R400, R504). -/
def coldRole (s : State) : Bool := s.pair.role == .standby || s.pair.role == .joining

/-! ### Key slots (R402, R403) -/

/-- Code of a kind (R402). -/
def kindCode : SlotKind → Nat
  | .free => 0 | .xts => 1 | .siphash => 2 | .gcm => 3 | .trellis => 4

/-- Assign a slot afresh, with a key or none; OD 0x5410 shows it. -/
def slotAssign (s : State) (n : Nat) (kind : SlotKind) (owner : Nat) (key : Option Nat) : State :=
  let s := odSet s 0x5410 (n + 1) (kindCode kind * 4096 + (if kind = .free then 0 else owner))
  keySlotSet s n (if kind = .free then {} else { kind := kind, owner := BitVec.ofNat 6 owner, curKey := key })

/-- Free slots of partitions, ascending (R402). -/
def freeSlots (s : State) : List Nat := (List.range 60).filter fun n => (keySlot s n).kind == .free

/-- Slots that a partition owns. -/
def ownedSlots (s : State) (p : Nat) : List Nat :=
  (s.gate.slots.filter fun x => x.2.kind != .free && x.2.owner.toNat == p).map Prod.fst

/-! ### FORM and REMOVE (R400, R414) -/

/-- Partition of a number. -/
def partGet (s : State) (p : Nat) : Partn := mgetD s.gate.parts p {}

/-- Replace a partition; its function's status changes (R491). -/
def partSet (s : State) (p : Nat) (x : Partn) : State :=
  let ch := (partGet s p).st != x.st
  let s := { s with gate := { s.gate with parts := mset s.gate.parts p x } }
  if ch then statusVec s p else s

/-- Quadrants that a partition owns or that are fenced. -/
def quadsTaken (s : State) : Nat :=
  (List.range 16).foldl (fun m p => if (partGet s p).st == .free then m else m ||| (partGet s p).quads.toNat) (fencedMask s)

/-- Result of FORM (R400, R540). -/
def formResult (s : State) (p : Nat) (mask : BitVec 16) : Nat :=
  if (partGet s p).st ≠ .free ∨ s.fuses.lifecycle = .rma then 3
  else if mask = 0 ∨ mask.toNat &&& quadsTaken s ≠ 0 then 2
  else if (freeSlots s).length < 2 then 4
  else 0

/-- FORM that meets its requirements: quadrants that a proof test holds are assigned as they run, the others powered; a cause 4 in force holds for the partition too (R265). -/
def formDo (s : State) (p : Nat) (mask : BitVec 16) : State :=
  match freeSlots s with
  | a :: b :: _ =>
    let s := slotAssign s a .xts p (some (Config.freeNat s.freeCtr))
    let s := slotAssign s b .siphash p (some (Config.freeNat (s.freeCtr + 1)))
    let s := partSet (freeSteps s 2) p { st := .active, quads := mask }
    let s := if s.pair.partnerLost ∧ odGet s 0x6400 0 = 2 ∧ s.pair.role = .active then riskSet s p 4 true else s
    let s := each (bitsOf 16 (mask &&& s.tray.quadOn).toNat) quadAssign s
    if coldRole s then s else partPower s p
  | _ => s

/-- The in-flight counter of a partition (R413): descriptors under its tag and outstanding reads of its function. -/
def inFlight (s : State) (p : Nat) : Nat :=
  lsum (s.dma.queues.map fun q => (q.2.filter fun j => jobTag j == p).length)
  + (s.dma.outstanding.filter fun x => x.2 == p + 1).length

/-- REMOVE step 1 (R414). -/
def removeDo (s : State) (p : Nat) : State :=
  let groups := (List.range 63).filter fun g => (groupOf s g).map Group.part == some p
  let s := { s with trl := { s.trl with pending := s.trl.pending.filter fun o => !groups.contains o.group } }
  let s := each groups (fun s g => odSet s 0x6020 (g + 1) (odGet s 0x6020 (g + 1) - 2 ^ 31)) s
  let s := partSet s p { partGet s p with st := .revoking, revokedAt := s.clk.now }
  let s := each ((granKeys s).filter fun g => (granGet s g).owner.toNat == p && (granGet s g).st == .owned)
    (fun s g => granSet s g { granGet s g with st := .revoking }) s
  let s := odSet s 0x3000 (p + 1) 0
  let s := partReqsEnd s p 18
  let s := sessionsEnd s p 18 true
  let s := { s with variants := mdrop s.variants fun k => k / 4096 == p }
  let s := rebuildRemoved s p
  { s with car := { s.car with pendingLoads := mdel s.car.pendingLoads p, rounds := mdel s.car.rounds p } }

/-- Return every grant of a partition, and every writable object that names it, to its default (R414 step 3). -/
def grantsReturn (s : State) (p : Nat) : State :=
  let rows := odTable.filter fun r => odByPart r.idx && (r.acc == .rw || r.acc == .rws)
  let s := each rows (fun s r => odReset s r.idx (p + 1)) s
  let s := each (List.range 63) (fun s g =>
    let e := odGet s 0x6020 (g + 1)
    if e ≠ 0 ∧ nfld e 30 27 = p then odReset (odReset s 0x6020 (g + 1)) 0x6021 (g + 1) else s) s
  let s := each (List.range 4) (fun s d =>
    let s := if odGet s 0x4030 (d + 1) = p then dieBuffersClear (odReset s 0x4030 (d + 1)) d true else s
    if odGet s 0x3805 (d + 1) = p then dieBuffersClear (odReset s 0x3805 (d + 1)) d false else s) s
  let s := { s with trl := { s.trl with
    jobs := s.trl.jobs.filter fun x => x.2.part.val != p
    binds := s.trl.binds.filter fun b => quadOwner s (clusQuad (b.2 / 512)) != p } }
  hubReset s (p + 1)

/-- Unfinished descriptors of a partition complete with ABORT, and its reads' completions will be dropped (R415). -/
def dmaRevoke (s : State) (p : Nat) : State :=
  let tags := (s.dma.outstanding.filter fun x => x.2 == p + 1).map Prod.fst
  { s with dma := { s.dma with
    queues := s.dma.queues.map fun q =>
      (q.1, q.2.map fun j => if jobTag j = p ∧ j.status.isNone then { j with status := some stAbort } else j)
    outstanding := s.dma.outstanding.filter fun x => x.2 != p + 1
    abandoned := tags ++ s.dma.abandoned } }

/-- A partition whose last granule is FREE is FREE (R414 step 6). -/
def partFinish (s : State) (p : Nat) : State :=
  let left := (granKeys s).any fun g => (granGet s g).owner.toNat == p && (granGet s g).st == .scrubbing
  if (partGet s p).st = .scrubbing ∧ !left then
    let s := partSet s p {}
    if s.gate.parts.any fun x => x.2.st == .revoking || x.2.st == .scrubbing then s
    else { s with tray := { s.tray with resetting := false } }
  else s

/-- Forget what the Carousel and the KV store keep of a partition. -/
def carForget (s : State) (p : Nat) : State :=
  { s with
    car := { s.car with
      images := mdel s.car.images p, steps := mdel s.car.steps p, heldOut := mdel s.car.heldOut p
      loadHold := s.car.loadHold.filter fun x => x != p }
    kv := { s.kv with pools := mdel s.kv.pools p }
    gate := { s.gate with sweeps := mdel s.gate.sweeps p }
    cvu := { s.cvu with step := mdel s.cvu.step p } }

/-- The requests that still end with an aborted step end now, whatever the step has reached (R269, R414). -/
def drainAll (s : State) (p : Nat) : State :=
  each (liveReqs s p) (fun s x =>
    let r := reqGet s x.1
    if r.st = .draining then reqEnd s x.1 (if r.final ≥ 32 then .failed else .cancelled) r.final false else s) s

/-- Steps 3 and 4 of a removal (R414). -/
def revokeDo (s : State) (p : Nat) : State :=
  let x := partGet s p
  let s := drainAll s p
  let s := if inFlight s p ≠ 0 then bump32 s 0x5005 (p + 1) else s
  let s := each (ownedSlots s p) (fun s n => slotAssign s n .free 0 none) s
  let s := dmaRevoke s p
  let s := grantsReturn s p
  let s := ctxRemove s p
  let s := partSet (carForget s p) p { st := .scrubbing }
  let s := quadsOff s ((bitsOf 16 x.quads.toNat).filter fun q => s.tray.quadOn.getLsbD q)
  let s := each ((granKeys s).filter fun g => (granGet s g).owner.toNat == p && ((granGet s g).st == .revoking || (granGet s g).st == .owned))
    (fun s g => granScrub s g) s
  partFinish s p

/-- REVOCATION_WAIT_END (R92, R414 steps 2 to 4, R415, R430): the in-flight counter reads zero, or 10 ms have passed. -/
def execRevocationWaitEnd (p : PartId) (s : State) : Res :=
  let x := partGet s p.val
  if x.st = .revoking ∧ (inFlight s p.val = 0 ∨ s.clk.now ≥ x.revokedAt + 10000000) then .next (revokeDo s p.val) else .next s

/-- The scrub engine of the hub runs and reaches the stacks of a die: PHY group A serves C0 and C1, group B the others (R17, R18). -/
def scrubOn (s : State) (d : Nat) : Bool := carOn s && hbmOn s (2 * d) && hbmOn s (2 * d + 1)

/-- GRANULE_SCRUB (R414, R417, R432, R502): a granule is written as zero ciphertext and verified; a second mismatch retires it. -/
def execGranuleScrub (g : Nat) (reads : ScrubReads) (s : State) : Res :=
  let e := granGet s g
  if !granBacked s g || granReserved s g || e.st != .scrubbing || s.flash.retired.contains g || !scrubOn s (g / 65536) then .next s
  else
    let s := { s with mem := { s.mem with hbm := cellsDrop s.mem.hbm (g * 2 ^ 21) (2 ^ 21) } }
    let n := scrubMisses g reads
    let s := if n = 0 then s else bumpBy s 0x6805 3 32 n
    let p := e.owner.toNat
    let s :=
      if n = 2 then
        logErr { granSet s g { st := .scrubbing } with flash := { s.flash with retired := g :: s.flash.retired } }
          { cls := 4, block := 4, kind := 1, part := (if p < 16 then p else 0xFF), addr := g * 2 ^ 21, action := 6 }
      else granSet s g { st := .free }
    .next (if p < 16 then partFinish s p else s)

/-! ### Rotating the memory key (R400, R410 to R412) -/

/-- Result of ROTATE_XTS and ROTATE_PREFIX (R400). -/
def rotateResult (s : State) (p : Nat) (busy : Bool) : Nat :=
  if (partGet s p).st ≠ .active then 3 else if busy then 1 else 0

/-- Draw the next generation of a slot; CUR becomes OLD where that is kept. -/
def slotNext (s : State) (n key : Nat) (keepOld : Bool) : State :=
  let k := keySlot s n
  let old := if keepOld then k.curKey.map fun c => (k.cur, c) else none
  keySlotSet s n { k with cur := (k.cur + 1) % 16, curKey := some key, old := old }

/-- ROTATE_XTS that meets its requirements (R410). -/
def rotateXtsDo (s : State) (p : Nat) : State :=
  match slotOf s .xts p with
  | none => s
  | some n =>
    let key := freeVal s
    let s := slotNext (freeStep s) n key true
    let left := (List.range 4).map fun d =>
      (granKeys s).filter fun g => g / 65536 == d && (granGet s g).owner.toNat == p && (granGet s g).st == .owned
    { s with gate := { s.gate with sweeps := mset s.gate.sweeps p { left := left } } }

/-- ROTATE_PREFIX that meets its requirements (R228, R400). -/
def rotatePrefixDo (s : State) (p : Nat) : State :=
  match slotOf s .siphash p with
  | none => s
  | some n =>
    let key := freeVal s
    rebuildAsk (slotNext (freeStep s) n key false) [p] []

/-- What a write of OD 0x5001 does (R400). -/
def gateCommand (s : State) (v : Nat) : State :=
  let p := nfld v 59 56
  let mask : BitVec 16 := BitVec.ofNat 16 v
  let run (r : Nat) (f : State → State) : State := let t := if r = 0 then f s else s; odSet t 0x5003 0 r
  match nfld v 63 60 with
  | 1 => run (formResult s p mask) fun s => formDo s p mask
  | 2 => run (if (partGet s p).st = .active then 0 else 3) fun s => removeDo s p
  | 3 => run (rotateResult s p (mget s.gate.sweeps p).isSome) fun s => rotateXtsDo s p
  | 4 => run (rotateResult s p s.kv.rebuild.isSome) fun s => rotatePrefixDo s p
  | _ => s

/-- The clamp of OD 0x5001: another OP becomes 0, and bits 55:16 are cleared (R400, R468). -/
def gateClamp (_ : State) (v : Nat) : Nat :=
  (if nfld v 63 60 > 4 then 0 else nfld v 63 60) * 2 ^ 60 + nfld v 59 56 * 2 ^ 56 + nfld v 15 0

/-- A write of OD 0x5001. -/
def gateWrite (s : State) (rq : DictReq) (v : List Byte) : State :=
  if !s.tray.hub.gatehouse then s else dictWrite s rq 0x5001 0 v gateClamp gateCommand

/-- The bytes of a partition command. -/
def gateBytes (op : Nat) (p : PartId) (mask : BitVec 16) : List Byte := leBytes 8 (op * 2 ^ 60 + p.val * 2 ^ 56 + mask.toNat)

/-- FORM (R400). -/
def execForm (rq : DictReq) (p : PartId) (mask : BitVec 16) (s : State) : Res := .next (gateWrite s rq (gateBytes 1 p mask))

/-- REMOVE (R400, R414). -/
def execRemove (rq : DictReq) (p : PartId) (s : State) : Res := .next (gateWrite s rq (gateBytes 2 p 0))

/-- ROTATE_XTS (R400, R410). -/
def execRotateXts (rq : DictReq) (p : PartId) (s : State) : Res := .next (gateWrite s rq (gateBytes 3 p 0))

/-- ROTATE_PREFIX (R400). -/
def execRotatePrefix (rq : DictReq) (p : PartId) (s : State) : Res := .next (gateWrite s rq (gateBytes 4 p 0))

/-- Granules of a sweep that are still the partition's (R412). -/
def sweepLive (s : State) (p : Nat) (l : List Nat) : List Nat :=
  l.filter fun g => (granGet s g).owner.toNat == p && (granGet s g).st == .owned

/-- XTS_SWEEP_GRANULE (R410): the next granule of a die is re-encrypted and its KEY_GEN set to CUR. -/
def execXtsSweepGranule (p : PartId) (d : Die) (s : State) : Res :=
  match mget s.gate.sweeps p.val, slotOf s .xts p.val with
  | some w, some n =>
    let l := sweepLive s p.val (w.left.getD d.val [])
    if (partGet s p.val).st ≠ .active ∨ !scrubOn s d.val then .next s
    else
      let s := match l with
        | g :: _ => granSet s g { granGet s g with gen := BitVec.ofNat 4 (keySlot s n).cur }
        | [] => s
      .next { s with gate := { s.gate with sweeps := mset s.gate.sweeps p.val { left := w.left.set d.val (l.drop 1) } } }
  | _, _ => .next s

/-- XTS_OLD_ZEROIZE (R411): the sweep has finished every granule and no read under OLD is left. -/
def execXtsOldZeroize (p : PartId) (s : State) : Res :=
  match mget s.gate.sweeps p.val, slotOf s .xts p.val with
  | some w, some n =>
    if (partGet s p.val).st == .active && w.left.all fun l => sweepLive s p.val l == [] then
      .next { keySlotSet s n { keySlot s n with old := none } with gate := { (keySlotSet s n { keySlot s n with old := none }).gate with
        sweeps := mdel s.gate.sweeps p.val } }
    else .next s
  | _, _ => .next s

/-! ### Mailboxes, attestation (R405, R406, R409) -/

/-- A function's BAR is decoded (R482, R493, R496). -/
def barOn (s : State) (f : Nat) : Bool :=
  pcieOn s && s.pcie.linkUp && (fnGet s f).memSpace && !(fnGet s f).d3hot
  && (f == 0 || (s.pcie.vfEnable && decide (f ≤ s.pcie.numVfs)))

/-- Answer in a function's mailbox, with its vector (R405, R491). -/
def mailAnswer (s : State) (f : Nat) (bs : List Byte) : State :=
  let s := fnSet s f { fnGet s f with mailbox := cellsPutZ [] 0 bs }
  msixSend (emit s (.mailbox (funcOf f) bs)) f (if f = 0 then 0 else 9)

/-- Code of a partition's state (R399). -/
def pstateCode : PState → Nat
  | .free => 0 | .active => 1 | .revoking => 2 | .scrubbing => 3

/-- The part code fuse (R394). -/
def partCode (s : State) : Nat := match s.fuses.part with | .kft4120 => 0x4120 | .kft4136 => 0x4136

/-- The lifecycle as objects and reports give it (R406, R421); MANUFACTURE is 0. -/
def lifeCode (s : State) : Nat := match s.fuses.lifecycle with | .manufacture => 0 | .secured => 1 | .rma => 2

/-- Fuse flags (R406). -/
def fuseFlags (s : State) : Nat := (if s.fuses.dbgClosed then 1 else 0) + (if s.fuses.rootARevoked then 2 else 0)

/-- 16 B of a report's partition layout (R406). -/
def layoutBytes (s : State) (q : Nat) : List Byte :=
  leBytes 1 (pstateCode (partGet s q).st) ++ leBytes 1 (q + 1) ++ leBytes 2 (partGet s q).quads.toNat
    ++ leBytes 4 (granulesHeld s q) ++ leBytes 8 (maskOf (ownedSlots s q))

/-- Bytes 0 to L − 1 of a report (R406). -/
def reportBody (s : State) (part : Nat) (nonce : BitVec 256) (xPub kemPub : Nat) : List Byte :=
  let ms := s.tray.measurements
  let ids := Config.identityKeys Config.uds
  leBytes 1 1 ++ leBytes 1 part ++ leBytes 2 ms.length ++ leBytes 4 (1712 + 64 * ms.length) ++ leBytes 8 s.clk.timebase.toNat
    ++ leBytes 32 nonce.toNat ++ leBytes 16 s.fuses.serial.toNat ++ leBytes 2 (partCode s) ++ leBytes 1 (lifeCode s)
    ++ leBytes 1 (if s.gate.testPortOpen then 1 else 0) ++ leBytes 4 (perturbWord s) ++ leBytes 8 (fuseFlags s)
    ++ (s.fuses.floors.flatMap fun f => leBytes 2 f) ++ leBytes 32 ids.1 ++ leBytes 48 (Config.sha384 (leBytes 1952 ids.2)).toNat
    ++ ((List.range 16).flatMap (layoutBytes s))
    ++ leBytes 48 (((imageOf s part).map fun l => l.img.digest.toNat).getD 0)
    ++ leBytes 32 xPub ++ leBytes 1184 kemPub
    ++ (ms.flatMap fun m => leBytes 2 m.comp ++ leBytes 2 m.secVer ++ leBytes 12 0 ++ leBytes 48 m.digest.toNat)

/-- A signed REPORT message (R405, R406). -/
def reportMsg (body : List Byte) : List Byte :=
  let d := Config.sha384 body
  [2, 0, 0, 0] ++ body ++ leBytes 64 (Config.ed25519Sign Config.uds d) ++ leBytes 3309 (Config.mldsaSign Config.uds d)

/-- ATTEST_REQ (R405, R406, R409, R416): a report with a fresh ephemeral pair, which ends the partition's older one; zero session keys for the physical function and for a partition that is not ACTIVE. -/
def execAttestReq (f : Func) (nonce : BitVec 256) (s : State) : Res :=
  if !barOn s f.val || !s.tray.hub.gatehouse || s.gate.identityOff then .next s
  else
    let p := f.val - 1
    if f.val = 0 then .next (mailAnswer s 0 (reportMsg (reportBody s 0xFF nonce 0 0)))
    else if (partGet s p).st ≠ .active then
      .next (mailAnswer { s with gate := { s.gate with ephem := mdel s.gate.ephem p } } f.val (reportMsg (reportBody s p nonce 0 0)))
    else
      let x := Config.freeNat s.freeCtr
      let k := Config.freeNat (s.freeCtr + 1)
      let body := reportBody s p nonce (Config.x25519Pub x) (Config.mlkemPub k)
      let e : Ephemeral := { digest := Config.sha384 body, xPriv := x, kemPriv := k, at_ := s.clk.now }
      let s := { freeSteps s 2 with gate := { s.gate with ephem := mset s.gate.ephem p e } }
      .next (mailAnswer s f.val (reportMsg body))

/-- CERT_REQ (R395, R405, R457): the device certificate, in the mailbox or to the station. -/
def execCertReq (asker : CertAsker) (s : State) : Res :=
  let cert := leBytes 8192 s.flash.certificate
  match asker with
  | .mailbox f => if barOn s f.val && s.tray.hub.gatehouse then .next (mailAnswer s f.val (([6, 0, 0, 0] ++ cert).take 8192)) else .next s
  | .station seg => if pavOn s && s.tray.hub.gatehouse then .next (emit s (.datagram seg 6 0 0 cert)) else .next s

/-- EPHEMERAL_KEY_EXPIRY (R409): 60 s after signing. -/
def execEphemeralKeyExpiry (p : PartId) (s : State) : Res :=
  match mget s.gate.ephem p.val with
  | some e => if s.clk.now ≥ e.at_ + 60000000000 then .next { s with gate := { s.gate with ephem := mdel s.gate.ephem p.val } } else .next s
  | none => .next s

/-! ### Key release (R407, R408, R412) -/

/-- The wrap key K (R407). -/
def wrapKey (e : Ephemeral) (w : WrapHead) (p : Nat) : Nat :=
  Config.hkdf (Config.x25519 e.xPriv w.x25519.toNat + Config.mlkemDecap e.kemPriv w.mlkem * 2 ^ 256) w.digest.toNat
    ("mlrn kw" ++ String.singleton (Char.ofNat p))

/-- Open the wrap of a message's first entry: the pair that its D names ends with the message, whatever its outcome (R409). -/
def wrapOpen (s : State) (p : Nat) (w : WrapHead) : State :=
  let s := { s with gate := { s.gate with acks := mset s.gate.acks (p + 1) [] } }
  match mget s.gate.ephem p with
  | some e =>
    if e.digest = w.digest ∧ e.wrap.isNone ∧ s.clk.now < e.at_ + 60000000000 then
      { s with gate := { s.gate with ephem := mset s.gate.ephem p { e with wrap := some (wrapKey e w p) } } }
    else s
  | none => s

/-- The key that an entry wraps, where its tag matches (R407). -/
def entryOpen (k : Nat) (w : WrapHead) (e : WrapEntry) : Option (List Byte) :=
  Config.gcmOpen k e.iv.toNat
    (leBytes 1 e.slot.toNat ++ leBytes 1 e.kind.toNat ++ leBytes 1 e.action.toNat ++ [0] ++ leBytes 8 e.activation.toNat
      ++ leBytes 48 w.digest.toNat) (leBytes 32 e.wrapped.toNat) e.tag.toNat

/-- Make an installed key CUR (R408). -/
def keyActivate (s : State) (n key : Nat) : State :=
  let s := slotNext s n key true
  keySlotSet s n { keySlot s n with next := none }

/-- Status of one entry and, where it is OK, its key (R408, R409, R416). -/
def entryStatus (s : State) (p : Nat) (w : WrapHead) (e : WrapEntry) (install : Bool) : Nat × List Byte :=
  let k := keySlot s e.slot.toNat
  match (mget s.gate.ephem p).bind fun x => if x.digest = w.digest then x.wrap else none with
  | none => (1, [])
  | some key =>
    if (partGet s p).st ≠ .active then (5, [])
    else if !(e.kind == 3 || e.kind == 4) || kindCode k.kind != e.kind.toNat || k.owner.toNat != p then (3, [])
    else
      match entryOpen key w e with
      | none => (2, [])
      | some b => if install && k.old.isSome then (4, []) else (0, b)

/-- Take one entry of a KEY_WRAP message: `first` opens it, `last` answers with the KEY_ACK and ends the pair (R408). -/
def wrapEntry (s : State) (f : Nat) (w : WrapHead) (e : WrapEntry) (first last install : Bool) : State :=
  if f = 0 ∨ !barOn s f ∨ !s.tray.hub.gatehouse ∨ (!first ∧ (mgetD s.gate.acks f []).length ≥ 8) then s
  else
    let p := f - 1
    let s := if first then wrapOpen s p w else s
    let (st, b) := entryStatus s p w e install
    let n := e.slot.toNat
    let s :=
      if st ≠ 0 then s
      else if install then
        (if e.activation = 0 then keyActivate s n (leNat b)
         else keySlotSet s n { keySlot s n with next := some (leNat b, e.activation) })
      else
        let k := keySlot s n
        if (match k.old with | some (g, _) => gcmHolds s n g | none => false) then keySlotSet s n { k with dropDue := true }
        else keySlotSet s n { k with old := none }
    let acks := mgetD s.gate.acks f [] ++ [st]
    if last then
      let own := match mget s.gate.ephem p with | some x => x.digest == w.digest | none => false
      let s := { s with gate := { s.gate with acks := mdel s.gate.acks f, ephem := if own then mdel s.gate.ephem p else s.gate.ephem } }
      mailAnswer s f ([4, BitVec.ofNat 8 acks.length, 0, 0] ++ acks.map (BitVec.ofNat 8))
    else { s with gate := { s.gate with acks := mset s.gate.acks f acks } }

/-- KEY_INSTALL (R407 to R409): an entry of action 1. -/
def execKeyInstall (f : Func) (w : WrapHead) (e : WrapEntry) (first last : Bool) (s : State) : Res :=
  if e.action = 1 then .next (wrapEntry s f.val w e first last true) else .next s

/-- KEY_DROP_OLD (R408, R412): an entry of action 2. -/
def execKeyDropOld (f : Func) (w : WrapHead) (e : WrapEntry) (first last : Bool) (s : State) : Res :=
  if e.action = 2 then .next (wrapEntry s f.val w e first last false) else .next s

/-- KEY_ACTIVATION (R408, R412): at its activation time an installed key becomes CUR. -/
def execKeyActivation (slot : Fin 64) (s : State) : Res :=
  match (keySlot s slot.val).next with
  | some (key, t) => if s.clk.timebase.toNat ≥ t.toNat then .next (keyActivate s slot.val key) else .next s
  | none => .next s

/-- The clamp of OD 0x5410 (R401, R421): a firmware, XTS or SIPHASH slot, another kind, or a partition that is not ACTIVE keeps the current value; FREE is 0. -/
def slotClamp (n : Nat) (s : State) (v : Nat) : Nat :=
  let cur := odGet s 0x5410 (n + 1)
  let k := (keySlot s n).kind
  let kind := nfld v 15 12
  if n ≥ 60 ∨ k = .xts ∨ k = .siphash then cur
  else if kind = 0 then 0
  else if (kind = 3 ∨ kind = 4) ∧ nfld v 5 0 < 16 ∧ (partGet s (nfld v 5 0)).st = .active then kind * 4096 + nfld v 5 0
  else cur

/-- A write of OD 0x5410 (R402, R421): a changed assignment zeroizes the slot. -/
def slotWrite (s : State) (rq : DictReq) (n : Nat) (v : List Byte) : State :=
  let old := odGet s 0x5410 (n + 1)
  dictWrite s rq 0x5410 (n + 1) v (slotClamp n) fun s w =>
    if w = old ∧ nfld w 15 12 ≠ 0 ∨ n ≥ 60 then s
    else if (keySlot s n).kind = .xts ∨ (keySlot s n).kind = .siphash then s
    else slotAssign s n (match nfld w 15 12 with | 3 => .gcm | 4 => .trellis | _ => .free) (nfld w 5 0) none

/-- SLOT_ASSIGNMENT_WRITE (R402, R421). -/
def execSlotAssignmentWrite (rq : DictReq) (slot : Fin 64) (v : List Byte) (s : State) : Res := .next (slotWrite s rq slot.val v)

/-- RMA_ENTRY (R396): a command signed with both schemes and bound to SERIAL. -/
def execRmaEntry (serial : BitVec 128) (edSig mlSig : Nat) (edPub mlPub : Nat) (s : State) : Res :=
  if !s.tray.hub.gatehouse ∨ s.fuses.lifecycle ≠ .secured ∨ serial ≠ s.fuses.serial
      ∨ !dualOk s edPub mlPub (Config.sha384 (leBytes 16 serial.toNat)) edSig mlSig then .next s
  else
    .next { s with
      fuses := { s.fuses with lifecycle := .rma }
      gate := { s.gate with
        slots := s.gate.slots.map fun x => (x.1, { x.2 with curKey := none, old := none, next := none })
        identityOff := true, testPortOpen := true, ephem := [] } }

end Sys2Proof.Machine
end

