-- ==== Sys2Proof/Machine/Pair.lean ====
section
/-! DEFINITION. Pairs: snapshots, takeover, comparison, proof tests, rehearsal and the key of group 63 (R241, R255, R409, R434 to R452). -/

namespace Sys2Proof.Machine

open Sys2Proof

/-! ### The request table entry (R241, R246) -/

/-- Code of a state (R246). -/
def reqCode : ReqState → Nat
  | .free => 0 | .admitted => 1 | .prefill => 2 | .decode => 3 | .paused => 4
  | .waitingPage => 5 | .draining => 6 | .done => 7 | .cancelled => 8 | .failed => 9

/-- The 64 B entry of a request (R241), with the next of its queue. -/
def reqBits (s : State) (h : Nat) : W512 :=
  let r := reqGet s h
  let b (x : Bool) : Nat := if x then 1 else 0
  BitVec.ofNat 512 (reqCode r.st * 2 ^ 508 + r.gen % 4096 * 2 ^ 496 + r.part % 16 * 2 ^ 492 + r.cring % 16 * 2 ^ 488
    + b r.classE * 2 ^ 487 + r.prio % 8 * 2 ^ 484 + r.service % 8 * 2 ^ 481 + b r.cxl * 2 ^ 480 + b r.ttftMiss * 2 ^ 479
    + b r.risk * 2 ^ 478 + b r.outTray * 2 ^ 477 + r.variant % 2 ^ 16 * 2 ^ 461 + r.maxLen % 2 ^ 20 * 2 ^ 441
    + r.promptLen % 2 ^ 20 * 2 ^ 421 + r.len % 2 ^ 20 * 2 ^ 401 + r.recDie % 4 * 2 ^ 399 + r.recFrame % 2 ^ 28 * 2 ^ 371
    + r.recFrames % 2 ^ 16 * 2 ^ 355 + r.ttft % 2 ^ 24 * 2 ^ 331 + r.tbt % 2 ^ 24 * 2 ^ 307 + r.tArrive % 2 ^ 48 * 2 ^ 259
    + r.tLast % 2 ^ 48 * 2 ^ 211 + r.tbtMisses % 2 ^ 16 * 2 ^ 195 + nextOf s h % 2 ^ 20 * 2 ^ 175 + r.hostTag.toNat * 2 ^ 64
    + r.outAddr % 2 ^ 64)

/-! ### Snapshot records (R437) -/

/-- The bytes of a record as sent, which the snapshot's check value covers (R431). -/
def recordBytes : SnapRecord → List Byte
  | .header q t m => [0] ++ leBytes 8 q ++ leBytes 8 t ++ leBytes 2 m.toNat
  | .entry h b => [1] ++ leBytes 4 h ++ leBytes 64 b.toNat
  | .tokens h a l => [2] ++ leBytes 4 h ++ leBytes 4 a ++ leBytes 4 l.length ++ l.flatMap fun t => leBytes 4 t.toNat
  | .watermark f r n => [3] ++ leBytes 1 f.val ++ leBytes 1 r.val ++ leBytes 4 n.toNat
  | .retain h l b f on => [4] ++ leBytes 4 h ++ leBytes 2 l ++ leBytes 4 b ++ leBytes 4 f ++ [if on then 1 else 0]
  | .page f bs => [5] ++ leBytes 4 f ++ bs

/-- The check value of a snapshot (R431). -/
def snapCheck (seq : Nat) (recs : List SnapRecord) : BitVec 64 := presetCheck (some seq) (recs.flatMap recordBytes)

/-- Pages that carry RETAIN: handle, layer, block, frame. -/
def retainSet (s : State) : List (Nat × Nat × Nat × Nat) :=
  (s.car.reqs.filter fun x => live x.2).flatMap fun x =>
    (x.2.pages.filter fun e => pgPresent e.2 && bit e.2 29).map fun e =>
      (x.1, e.1 / max 1 x.2.bmax, e.1 % max 1 x.2.bmax, fld e.2 27 0)

/-- Bytes that group 63 carries in 20 ms: 5 % of the links' rate, 200 MB over both ports at full width (R439). -/
def snapBudget (s : State) : Nat := lsum ((List.range 2).map fun p => if portUp s p then (portGet s p).lanes * 12500000 else 0)

/-- Take the elements whose sizes fit a budget, in order, stopping at the first that does not. -/
def takeFit {α : Type} (size : α → Nat) : Nat → List α → List α
  | _, [] => []
  | n, a :: t => if size a ≤ n then a :: takeFit size (n - size a) t else []

/-- A ring of a count key. -/
def ringNo (k : Nat) : Fin 8 := ⟨k % 8, Nat.mod_lt _ (by decide)⟩

/-- Issue the WATERMARK entries of rings whose count has moved (R255). -/
def marksIssue (s : State) (counts : SMap W32) : State :=
  let l := counts.filter fun x => mgetD s.pair.marks x.1 0 != x.2
  let s := { s with pair := { s.pair with marks := counts } }
  each l (fun s x => complTo s (x.1 / 8 - 1) 0 { kind := 8, status := 0, value := x.2.toNat, pos := x.1 % 8 }) s

/-- Give up a snapshot: its changes are carried by the next (R438). -/
def snapDrop (s : State) : State :=
  match s.pair.out with
  | none => s
  | some x => { s with pair := { s.pair with out := none, dirty := nodup (s.pair.dirty ++ x.handles) } }

/-- Tokens of a handle that the partner has not acknowledged. -/
def tokensNew (s : State) (h : Nat) : Nat × List W32 :=
  let r := reqGet s h
  let sent := match mget s.pair.tokSent h with
    | some (g, n) => if g = r.gen then min n r.tokens.length else 0
    | none => 0
  (sent, r.tokens.drop sent)

/-- Bytes of a snapshot's records and its check value, as group 63 carries them. -/
def snapBytes (recs : List SnapRecord) (check : BitVec 64) : List Byte := recs.flatMap recordBytes ++ leBytes 8 check.toNat

/-- Bytes of the record area that stages a snapshot being cut; the content of pages stays in the pool until it is sent (R437). -/
def stageBytes : Nat := 33554432

/-- Submission counts whose effects a snapshot of the entries `hs` holds (R255, R438): those of a partition of which nothing is left out; the others stay as acknowledged. -/
def countsHeld (s : State) (hs : List Nat) : SMap W32 :=
  let late := (s.pair.dirty.filter fun h => !hs.contains h).map fun h => (reqGet s h).part
  s.car.subCount.map fun x => if late.contains (x.1 / 8 - 1) then (x.1, mgetD s.pair.marks x.1 0) else x

/-- Cut a snapshot of everything changed since the last acknowledged one, as far as the budget of group 63 and the record area reach (R437 to R439). -/
def snapSend (s : State) : State :=
  let seq := s.pair.nextSnap
  let size (h : Nat) : Nat := 69 + 13 + 4 * (tokensNew s h).2.length
  let room := min (snapBudget s) stageBytes
  let hs := takeFit size room (sortBy (fun a b => decide (a < b)) s.pair.dirty)
  let used := lsum (hs.map size)
  let now := retainSet s
  let gone := s.pair.retSent.filter fun x => !now.contains x
  let off := takeFit (fun _ => 16) (room - used) gone
  let used := used + 16 * off.length
  let psize (x : Nat × Nat × Nat × Nat) : Nat := 16 + pageBytes s (reqGet s x.1).part
  let added := now.filter fun x => !s.pair.retSent.contains x
  let on := (takeFit psize (snapBudget s - used) added).take ((room - used) / 16)
  let held := (s.pair.retSent.filter now.contains).map fun x => x.2.2.2
  let counts := countsHeld s hs
  let fresh := (nodup (on.map fun x => x.2.2.2)).filter fun f => !held.contains f
  let page (f : Nat) : SnapRecord :=
    .page f (hbmBytes s (f * 16384) (((on.find? fun x => x.2.2.2 == f).map fun x => pageBytes s (reqGet s x.1).part).getD 0))
  let recs := [.header seq s.clk.timebase.toNat (BitVec.ofNat 16 (maskOf (activeParts s)))]
    ++ (hs.flatMap fun h => [.entry h (reqBits s h), .tokens h (tokensNew s h).1 (tokensNew s h).2])
    ++ (counts.map fun x => .watermark (vfOf (x.1 / 8 - 1)) (ringNo x.1) x.2)
    ++ (off.map fun x => .retain x.1 x.2.1 x.2.2.1 x.2.2.2 false) ++ (on.map fun x => .retain x.1 x.2.1 x.2.2.1 x.2.2.2 true)
    ++ fresh.map page
  let o : SnapOut :=
    { seq := seq, cutAt := s.clk.now, handles := hs, toks := hs.foldl (fun m h => mset m h ((reqGet s h).gen, (reqGet s h).tokens.length)) []
      counts := counts, whole := hs.length == s.pair.dirty.length && off.length == gone.length && on.length == added.length
      retains := (s.pair.retSent.filter fun x => !off.contains x) ++ on }
  let s := { s with pair := { s.pair with
    nextSnap := seq + 1, out := some o, dirty := s.pair.dirty.filter fun h => !hs.contains h } }
  g63Send s (.snapshot seq recs (snapCheck seq recs)) (snapBytes recs (snapCheck seq recs))

/-- Cut a snapshot now, an older one not yet acknowledged given up first (R438, R450). -/
def snapNow (s : State) : State := snapSend (snapDrop s)

/-- No partner can acknowledge a snapshot (R255). -/
def noPartner (s : State) : Bool := s.pair.role == .unpaired || s.pair.alone || s.pair.partnerLost

/-- The snapshot of this cycle (R26, R255, R437 to R439): the active's changes, every update with this timestamp among them; a tray without a partner only counts its watermarks. -/
def snapTake (s : State) : State :=
  let s := { s with pair := { s.pair with cutDue := false } }
  if !carOn s || s.tray.failed then s
  else if noPartner s then marksIssue s s.car.subCount
  else if s.pair.role = .active ∧ odGet s 0x6400 0 = 1 then snapNow s
  else s

/-- A partner is to acknowledge the snapshots of this tray. -/
def snapWaits (s : State) : Bool := s.pair.role == .active && odGet s 0x6400 0 == 1 && !noPartner s && carOn s && !s.tray.failed

/-- A snapshot is cut in this cycle. -/
def snapAsk (s : State) : State := { s with pair := { s.pair with cutDue := true } }

/-- SNAPSHOT_CUT (R26, R255, R437 to R439): in a tray without a partner, or one whose last snapshot is acknowledged or 20 ms old. -/
def execSnapshotCut (s : State) : Res :=
  let open_ := match s.pair.out with
    | some x => decide (s.clk.now ≥ x.cutAt + 20000000)
    | none => true
  .next (if carOn s && !s.tray.failed && (noPartner s || (s.pair.role == .active && odGet s 0x6400 0 == 1 && open_)) then snapAsk s else s)

/-- The tray fails for thermal cause; its C-dies and Zoetrope go off (R368). -/
def thermalEnd (s : State) : State :=
  let s := declareFailed s { cls := 5, block := 10 }
  let s := each (List.range 4) (fun s d => diePowerOff s d) s
  zoeOff { s with tray := { s.tray with failedThermal := true, selfRefresh := true } }

/-- What follows the end of a snapshot: YIELD while the tray drains (R450), failure while it shuts down (R368). -/
def snapEnd (s : State) : State :=
  if s.wv.shuttingDown ∧ !s.tray.failedThermal then thermalEnd s
  else if s.tray.drain = .inProgress ∧ !s.pair.yielded then sendYield s
  else s

/-- SNAPSHOT_ABANDON (R438, R450): 20 ms after the cut. -/
def execSnapshotAbandon (s : State) : Res :=
  match s.pair.out with
  | some x => if s.clk.now ≥ x.cutAt + 20000000 then .next (snapEnd (snapDrop s)) else .next s
  | none => .next s

/-- SNAPSHOT_ACK (R255, R437, R438): the snapshot counts, the watermarks advance, and a joining partner is STANDBY (R436, R451). -/
def execSnapshotAck (seq : Nat) (s : State) : Res :=
  match s.pair.out with
  | none => .next s
  | some x =>
    if x.seq ≠ seq ∨ s.clk.now > x.cutAt + 20000000 ∨ !g63Up s then .next s
    else
      let s := { s with pair := { s.pair with
        lastAck := seq, out := none
        partnerRole := if x.whole ∨ s.pair.partnerRole = some .standby then some .standby else some .joining
        tokSent := x.toks.foldl (fun m y => if y.2.2 = 0 then mdel m y.1 else mset m y.1 y.2) s.pair.tokSent
        retSent := x.retains } }
      .next (snapEnd (marksIssue s x.counts))

/-! ### The standby's side (R436 to R438) -/

/-- Tokens that the store holds. -/
def tokensStored (v : Saved) : Nat := lsum (v.tokens.map fun x => x.2.length)

/-- Store tokens of a log at their positions; a log that does not fit the 50,331,648 tokens of the store is marked (R437, R443). -/
def savedTokens (v : Saved) (h start : Nat) (l : List W32) : Saved :=
  let old := (mgetD v.tokens h []).take start
  let unfit := if start = 0 then v.unfit.filter (· ≠ h) else v.unfit
  let rest := { v with tokens := mdel v.tokens h, unfit := unfit }
  if old.length < start ∨ unfit.contains h ∨ tokensStored rest + old.length + l.length > 50331648 then
    { rest with unfit := if unfit.contains h then unfit else h :: unfit }
  else if old ++ l = [] then rest
  else { rest with tokens := mset v.tokens h (old ++ l) }

/-- Write one record into the saved state (R437). -/
def savedStore (s : State) (r : SnapRecord) : State :=
  let v := s.pair.saved
  let put (v : Saved) : State := { s with pair := { s.pair with saved := v } }
  match r with
  | .header q t m => put { v with seq := q, cutTime := t, mask := m }
  | .entry h b => put { v with entries := if b = 0 then mdel v.entries h else mset v.entries h b }
  | .tokens h a l => put (savedTokens v h a l)
  | .watermark f k n => put { v with counts := mset v.counts (8 * (f.val + 1) + k.val) n }
  | .retain h l b f on =>
    let rest := v.retains.filter fun x => !(x.1 == h && x.2.1 == l && x.2.2.1 == b)
    put { v with retains := if on ∧ rest.length < 8388608 then (h, l, b, f) :: rest else rest }
  | .page f bs => if (granGet s (f / 128)).pool then hbmPut s (f * 16384) bs else s

/-- A snapshot that leaves room for the largest entry and the largest page leaves nothing out (R439). -/
def snapRoom (s : State) (recs : List SnapRecord) : Bool :=
  let bytes (l : List SnapRecord) : Nat := (l.flatMap recordBytes).length
  decide (bytes (recs.filter fun r => match r with | .page .. => false | _ => true) + 82 + 2 ^ 22 ≤ min (snapBudget s) stageBytes
    ∧ bytes recs + 2 ^ 21 + 16 ≤ snapBudget s)

/-- The keys of a partition are released: each tenant slot that it owns holds one (R407, R436). -/
def keysReleased (s : State) (p : Nat) : Bool :=
  s.gate.slots.all fun x => x.2.owner.toNat != p || !(x.2.kind == .gcm || x.2.kind == .trellis) || x.2.curKey.isSome

/-- A partition is prepared (R436 items 2 to 4): keys, image, and a pool for the pages of an image that has a KV layout. -/
def partReady (s : State) (p : Nat) : Bool :=
  keysReleased s p && (match imageOf s p with
    | some l => l.img.kv == [] || (poolGet s p).extents != []
    | none => false)

/-- Every item of R436 is done, as far as this tray can tell: the partitions of the snapshots are formed and prepared here, and the baseline has been received. -/
def joined (s : State) : Bool :=
  maskOf (activeParts s) == s.pair.saved.mask.toNat && (activeParts s).all (partReady s) && s.pair.baseline

/-- Enter cold standby (R384, R435). -/
def coldStandby (s : State) : State :=
  let s := quadsOff s (bitsOf 16 s.tray.quadOn.toNat)
  let s := zoeOff (each (activeParts s) (fun s p => ctxRemove s p) s)
  { s with
    tray := { s.tray with clockState := .sleep, selfRefresh := true }
    pair := { s.pair with role := .standby } }

/-- SNAPSHOT_RECEIVE (R318, R329, R436 to R438, R444): records that came in packets of group 63, stored and acknowledged when their check value holds; a sealed standby discards them. -/
def execSnapshotReceive (seq : Nat) (recs : List SnapRecord) (check : BitVec 64) (s : State) : Res :=
  let takes := s.pair.role == .standby || s.pair.role == .joining || s.pair.role == .rehearsing
  if !takes || s.pair.sealed || !carOn s || !g63Up s then .next s
  else if check ≠ snapCheck seq recs then .next (bump32 s 0x6805 4)
  else
    let s := each recs savedStore s
    let s := g63Send { s with pair := { s.pair with
      partnerRole := some .active, lastAck := seq, baseline := s.pair.baseline || snapRoom s recs } } (.snapAck seq) (0x13 :: leBytes 8 seq)
    .next (if s.pair.role = .joining ∧ joined s then coldStandby s else s)

/-! ### Takeover (R441 to R444) -/

/-- Clocks of a partition's quadrants and dies judged stable (R380, R442). -/
def clocksStable (s : State) (qs : List Nat) : State :=
  each qs (fun s q =>
    let j : Judgement := { stable := true, since := s.clk.now }
    { s with clk := { s.clk with judged := mset (mset s.clk.judged q j) (16 + q / 4) j } }) s

/-- A retained frame's reference for a restored page. -/
def frameClaim (s : State) (p f : Nat) (e : Bool) : State :=
  if (frameGet s p f).st = .free then frameUse s p f e else incRef s p f

/-- Blocks of a saved request, `n` in all, whose pages the standby holds in every layer. -/
def blocksKept (s : State) (p h n : Nat) : List Nat :=
  let ls := List.range (layersOf s p)
  (List.range n).filter fun b =>
    ls != [] && ls.all fun l => s.pair.saved.retains.any fun x => x.1 == h && x.2.1 == l && x.2.2.1 == b

/-- Elapsed time since a reading that lay `diff` below the timebase now, the steps that took effect since taken off (R390): the newest ones first, each while the reading lies before it. -/
def ageGo (now : Nat) (diff : Int) : List (Nat × Int) → Int
  | [] => diff
  | (at_, by_) :: t => if diff ≤ (now - at_ : Nat) then diff else ageGo now (diff - by_) t

/-- Instant, in elapsed time, of a reading of the timebase's low 48 bits (R390): a reading before the history of 32 steps has passed every budget. -/
def elapsedOf (s : State) (t : Nat) : Int :=
  let d : Nat := (s.clk.timebase.toNat + 2 ^ 48 - t % 2 ^ 48) % 2 ^ 48
  let diff : Int := if d < 2 ^ 47 then d else (d : Int) - 2 ^ 48
  let oldest := (s.clk.steps.getLast?.map Prod.fst).getD 0
  let a := ageGo s.clk.now diff s.clk.steps
  s.clk.now - (if s.clk.steps.length = 32 ∧ a > (s.clk.now - oldest : Nat) then max a (2 ^ 24 * 1000) else a)

/-- A saved request as it is restored, before its record and reservation: PAUSED, the unretained blocks dropped (R443). -/
def savedReq (s : State) (h : Nat) (b : W512) : Req :=
  let p := fld b 495 492
  let sv := serviceOf s p (fld b 483 481)
  let one := (sv.map svOne).getD false
  let toks := mgetD s.pair.saved.tokens h []
  let maxLen := fld b 460 441
  let bmax := if one then 0 else cdiv maxLen (tokOf s p)
  let started := fld b 258 211 != 0
  let upTo := if one then 0 else if started then toks.length - 1 else toks.length
  let t := tokOf s p
  let kept := blocksKept s p h (min bmax (cdiv upTo (max 1 t)))
  let lead := ((List.range bmax).find? fun b => !kept.contains b).getD bmax
  let have_ := lead * t
  { st := .paused, gen := fld b 507 496, part := p, cring := fld b 491 488, classE := bit b 487, prio := fld b 486 484
    service := fld b 483 481, cxl := bit b 480, ttftMiss := bit b 479, risk := bit b 478, outTray := bit b 477
    variant := fld b 476 461, maxLen := maxLen, promptLen := fld b 440 421
    len := if one then 0 else if have_ ≥ upTo then upTo - 1 else have_
    ttft := fld b 354 331, tbt := fld b 330 307, tArrive := fld b 306 259, tLast := fld b 258 211
    arriveAt := elapsedOf s (fld b 306 259), lastAt := elapsedOf s (fld b 258 211), tbtMisses := fld b 210 195
    hostTag := BitVec.ofNat 64 (fld b 127 64), outAddr := fld b 63 0
    prefillTo := upTo, started := started, bmax := bmax, layers := if one then 0 else layersOf s p, tokens := toks
    costPre := sv.bind fun v => costEntry s p (svPrefill v)
    costDec := sv.bind fun v => if svDecode v = 0xFFF then none else costEntry s p (svDecode v)
    matchedTo := have_, ahead := (kept.filter fun b => lead < b).map (· * t), matched := true, order := s.car.nextOrder }

/-- Restore one entry of the mirror with its retained pages (R443). -/
def restoreEntry (s : State) (h : Nat) (b : W512) : State :=
  let code := fld b 511 508
  if code = 0 ∨ code ≥ 7 then
    reqSet s h { gen := if code = 0 then fld b 507 496 else (fld b 507 496 + 1) % 4096 }
  else
    let r := savedReq s h b
    let t := tokOf s r.part
    let rs := s.pair.saved.retains.filter fun x =>
      x.1 == h && (decide ((x.2.2.1 + 1) * t ≤ r.matchedTo) || r.ahead.contains (x.2.2.1 * t))
    let r := { r with pages := rs.foldl (fun m x => mset m (x.2.1 * r.bmax + x.2.2.1) (pageEntry false false x.2.2.2)) [] }
    let s := each rs (fun s x => frameClaim s r.part x.2.2.2 r.classE) s
    reqSet { s with car := { s.car with nextOrder := s.car.nextOrder + 1 } } h r

/-- Make a restored request's record and reservation again, or end it with FAILED_NOT_RESUMED (R233, R443). -/
def restoreHold (s : State) (h : Nat) : State :=
  let r := reqGet s h
  let p := r.part
  match serviceOf s p r.service with
  | none => reqEnd s h .failed 34 false
  | some v =>
    if svOne v then
      match freeIoSlot s p r.service v with
      | none => reqEnd s h .failed 34 false
      | some n => reqSet (freeStep s) h { r with ioSlot := some n, inAddr := freeVal s % 2 ^ 48 }
    else
      let d0 := homeDie s p 0
      let n := recFramesOf s r
      let kept := r.matchedTo / tokOf s p + r.ahead.length
      let res := if r.classE then [0, 0, 0, 0] else (List.range 4).map fun d => layersOn s p d * (r.bmax - kept)
      let fits := (List.range 4).all fun d => decide (res.getD d 0 + (if d = d0 then n else 0) ≤ spareOn s p d)
      let run := if n = 0 then some 0 else frameRun (poolGet s p) d0 n
      match (if fits ∧ !s.pair.saved.unfit.contains h ∧ r.tokens.length ≥ r.promptLen then run else none) with
      | none => reqEnd s h .failed 34 false
      | some f =>
        let step := match (poolGet s p).pageExp with | some e => 2 ^ e | none => 1
        let s := each (List.range n) (fun s i => frameUse s p (f + i * step) r.classE) s
        reqSet s h { r with recDie := d0, recFrame := f, recFrames := n, recBytes := recSize r, reserved := res }

/-- Enter the retained blocks of a restored request into the index (R228, R442). -/
def restoreIndex (s : State) (h : Nat) : State :=
  let r := reqGet s h
  if live r then each (List.range (r.matchedTo / max 1 (tokOf s r.part))) (fun s i => prefixInsert s h i) s else s

/-- The entries of a restored request as R218 and R226 want them: COW where the frame has REF above 1. -/
def restoreCow (s : State) (h : Nat) : State :=
  let r := reqGet s h
  if !live r then s
  else
    reqSet s h { r with pages := r.pages.map fun e =>
      (e.1, if pgPresent e.2 ∧ (frameGet s r.part (fld e.2 27 0)).ref > 1 then e.2 ||| 0x40000000 else e.2) }

/-- The stacks leave self-refresh, and every channel retrains (R442). -/
def hbmWake (s : State) : State :=
  let due (i : Nat) : Option (Nat × Nat × Int) :=
    if hbmOn s (i / 64) then some (i, s.clk.now, stackTemp s (i / 64)) else (mget s.mem.retrain i).map fun x => (i, x)
  { s with tray := { s.tray with selfRefresh := false }, mem := { s.mem with retrain := (List.range 512).filterMap due } }

/-- Reload the images of the partitions into their contexts (R128, R442); an image that fails its checks here makes the tray declare itself failed (R444). -/
def imagesReload (s : State) : State :=
  each s.car.images (fun s x =>
    match imageFail s x.1 x.2.img with
    | some _ => declareFailed s { cls := 5, block := 8, part := x.1 }
    | none => each (partCtxs s x.1) (fun s c => ctxLoad s x.1 x.2.img c) s) s

/-- The takeover of a cold standby (R442, R443). -/
def takeoverDo (s : State) : State :=
  let s := emit { s with pair := { s.pair with role := .takingOver, sealed := true } } .yield
  let s := { s with tray := { s.tray with
    clockState := .run, hub := { s.tray.hub with zoetrope := true } } }
  let s := hbmWake s
  let ps := activeParts s
  let own := ps.foldl (fun m p => m ||| partQuads s p) 0
  let s := quadsOff s ((bitsOf 16 s.tray.quadOn.toNat).filter fun q => !own.testBit q)
  let s := clocksStable (each ps (fun s p => partPower s p) s) (bitsOf 16 own)
  let s := imagesReload s
  if s.tray.failed then s
  else
    let es := s.pair.saved.entries
    let s := each es (fun s x => restoreEntry s x.1 x.2) s
    let hs := (mkeys es).filter fun h => live (reqGet s h)
    let s := each hs restoreHold s
    let s := each hs restoreIndex s
    let s := each ps (fun s p => retainFix s p) (each hs restoreCow s)
    let s := bump32 s 0x6409 0
    { s with
      car := { s.car with subCount := s.pair.saved.counts }
      pair := { s.pair with
        role := .active, degraded := false, partnerRole := none, partnerLost := true, alone := true, sealed := false, out := none
        dirty := mkeys s.car.reqs, tokSent := [], retSent := [], marks := s.pair.saved.counts, saved := {} } }

/-- A member of a comparing pair goes on alone as ACTIVE, with cause 4 (R265, R447). -/
def goAlone (s : State) : State :=
  let s := heldAll { s with pair := { s.pair with role := .active, partnerLost := true, alone := true, yielded := false } }
  each (activeParts s) (fun s p => riskSet s p 4 true) s

/-- TAKEOVER_START (R441 to R444): a standby takes over; a follower whose leader is gone goes on alone. Silence counts only while the active is lost on Trellis. -/
def execTakeoverStart (cause : TakeoverCause) (s : State) : Res :=
  if s.tray.failed || (cause == .silent && !s.pair.partnerLost) then .next s
  else
    match s.pair.role with
    | .standby | .rehearsing => .next (takeoverDo s)
    | .follower => .next (goAlone (bump32 s 0x6409 0))
    | _ => .next s

/-- YIELD (R442, R447): the active of a self-diagnosing pair ends its work and fails; a member of a comparing pair goes on alone. -/
def execYield (s : State) : Res :=
  if s.tray.failed then .next s
  else if odGet s 0x6400 0 = 2 ∧ (s.pair.role = .active ∨ s.pair.role = .follower) then .next (goAlone s)
  else if s.pair.role = .active then
    let s := each (mkeys s.car.steps) (fun s p => stepAbort s p) s
    .next { s with
      tray := { s.tray with clockState := .deepSleep, drain := if s.tray.drain = .inProgress then .completed else s.tray.drain }
      pair := { s.pair with role := .failed, yielded := true, partnerRole := some .active } }
  else .next s

/-- PLANNED_SWITCHOVER (R441, R452): the write of OD 0x640C. -/
def execPlannedSwitchover (rq : DictReq) (v : List Byte) (s : State) : Res :=
  .next (dictWrite s rq 0x640C 0 v (clampRow 0x640C 0) fun s w =>
    let s := if w = 1 ∧ s.pair.role = .active then sendYield s else s
    odSet s 0x640C 0 0)

/-! ### Comparison (R445 to R447) -/

/-- STEP_CHECK_VALUE_RECEIVE (R446): the partner's value of a step. -/
def execStepCheckValueReceive (p : PartId) (seq : Nat) (v : BitVec 64) (s : State) : Res :=
  if !comparing s || !g63Up s then .next s
  else
    let k := 16 * seq + p.val
    let old := mgetD s.pair.compare k { seq := seq }
    .next (compareNow { s with pair := { s.pair with compare := mset s.pair.compare k { old with partner := some v } } } p.val seq)

/-- Both members run the step again and exchange its value, equal on one tray by R45 (R447). -/
def compareAgain (s : State) (p : PartId) : State :=
  let seq := mgetD s.pair.stepSeq p.val 0
  let v := mgetD s.cvu.step p.val 0
  g63Send { s with pair := { s.pair with compare := mset s.pair.compare (16 * seq + p.val) { seq := seq, own := some v } } }
    (.stepCheck p seq v) ([0x12, BitVec.ofNat 8 p.val] ++ leBytes 8 seq ++ leBytes 8 v.toNat)

/-- PROOF_TEST_RESULT (R447). -/
def execProofTestResult (p : PartId) (r : ProofOutcome) (s : State) : Res :=
  if !s.pair.proof.contains p.val then .next s
  else
    let i : LogInfo := { cls := 5, block := 8, part := p.val }
    if !r.ownPass ∧ !r.partnerPass then .next (declareFailed s i)
    else if !r.ownPass then .next (declareFailed (sendYield s) i)
    else if !r.partnerPass then .next (goAlone s)
    else if !r.secondMismatch then .next (compareAgain s p)
    else if s.pair.role = .follower then .next (sendYield s)
    else .next (goAlone s)

/-! ### Rehearsal (R448) -/

/-- Quadrants that are not fenced. -/
def quadsGood (s : State) : List Nat := (List.range 16).filter fun q => !(fencedMask s).testBit q

/-- Power the C-dies for the known-answer image (R442, R448, R504). -/
def rehearse (s : State) : State :=
  if s.pair.role ≠ .standby ∨ s.pair.partnerRole ≠ some .active then s
  else
    let s := { s with tray := { s.tray with clockState := .run }, pair := { s.pair with role := .rehearsing } }
    let s := each (activeParts s) (fun s p => partPower s p) s
    let s := each (quadsGood s) (fun s q => if s.tray.quadOn.getLsbD q then s else quadPowerOn s q) s
    clocksStable s (quadsGood s)

/-- REHEARSAL_START (R448): after the period of OD 0x6405, or by a write of OD 0x6406. -/
def execRehearsalStart (t : RehearsalTrigger) (s : State) : Res :=
  match t with
  | .period =>
    let last := match s.pair.lastRehearsal with | some x => x.1 | none => 0
    if s.clk.now ≥ last + odGet s 0x6405 0 * 3600000000000 then .next (rehearse s) else .next s
  | .write rq v => .next (dictWrite s rq 0x6406 0 v (clampRow 0x6406 0) fun s w => odSet (if w = 1 then rehearse s else s) 0x6406 0 0)

/-- REHEARSAL_END (R448): the output check values of the known-answer image, by quadrant; the C-dies go off again, and a failure declares the tray failed. -/
def execRehearsalEnd (values : List Nat) (s : State) : Res :=
  if s.pair.role ≠ .rehearsing then .next s
  else
    let ok := (quadsGood s).all fun q => values[q]? == some (Config.knownAnswer q)
    let s := { s with pair := { s.pair with lastRehearsal := some (s.clk.now, !ok) } }
    .next (if ok then coldStandby s else declareFailed (coldStandby s) { cls := 5, block := 8 })

/-! ### The key of group 63 (R402, R409, R434) -/

/-- The tray is one of a pair (R434). -/
def paired (s : State) : Bool := s.pair.role != .unpaired

/-- Tell the partner the armed instant over group 63, 0 for none (R512). -/
def armTell (s : State) : State :=
  if paired s then g63Send s (.armed s.upd.armed) (0x14 :: leBytes 8 s.upd.armed.toNat) else s

/-- An armed instant is given up, and the partner told (R512, R517). -/
def armDrop (s : State) : State := if s.upd.armed = 0 then s else armTell { s with upd := { s.upd with armed := 0 } }

/-- The pair step sequence numbers count from pairing (R445): what was compared under older ones is over. -/
def seqRestart (s : State) : State :=
  let s := heldAll s
  { s with pair := { s.pair with stepSeq := [] } }

/-- The peer's identity keys are certified against a fused root, ROOT_A only until it is revoked (R394, R395, R409). -/
def peerCertified (s : State) (serial edPub mlPub : Nat) : Bool :=
  (!s.fuses.rootARevoked && Config.certified s.fuses.rootA serial edPub mlPub) || Config.certified s.fuses.rootB serial edPub mlPub

/-- GROUP_63_KEY_AGREEMENT (R265, R409, R434, R436, R451): the peer's report verified, the hybrid secret becomes slot 62's key, and the tray takes its place in the pair; the partner is lost no more. -/
def execGroup63KeyAgreement (peerSerial : BitVec 128) (peerEdPub peerMlPub : Nat) (reportDigest : BitVec 384) (edSig mlSig : Nat)
    (peerX25519 : BitVec 256) (mlkemCt : Nat) (s : State) : Res :=
  let good := peerCertified s peerSerial.toNat peerEdPub peerMlPub && Config.ed25519Verify peerEdPub reportDigest edSig
    && Config.mldsaVerify peerMlPub reportDigest mlSig
  let mode := odGet s 0x6400 0
  if !s.tray.hub.gatehouse || !trlOn s || s.gate.identityOff || s.tray.failed || !good || mode == 0 || odGet s 0x6401 0 == 0xFF then .next s
  else
    let key := Config.hkdf (Config.x25519 (Config.freeNat s.freeCtr) peerX25519.toNat
      + Config.mlkemDecap (Config.freeNat (s.freeCtr + 1)) mlkemCt * 2 ^ 256) reportDigest.toNat "mlrn kw?"
    let s := slotAssign (freeSteps s 2) 62 .trellis 0x3F (some key)
    let s := each (activeParts s) (fun s p => riskSet s p 4 false) s
    let fresh : State := { s with pair := { s.pair with
      partnerLost := false, alone := false, degraded := false, dirty := mkeys s.car.reqs, tokSent := [], retSent := [], out := none
      baseline := false } }
    let fresh := if s.pair.partnerLost || s.pair.alone || s.pair.role == .unpaired || s.pair.role == .joining then seqRestart fresh else fresh
    let join : Role := if mode = 2 then .follower else .joining
    match s.pair.role with
    | .unpaired => .next (armTell { fresh with pair := { fresh.pair with role := if activeParts s = [] then join else .active } })
    | .joining => .next (armTell { fresh with pair := { fresh.pair with role := join } })
    | _ => .next (armTell fresh)

end Sys2Proof.Machine
end

