-- ==== Sys2Proof/Machine/Weathervane.lean ====
section
/-! DEFINITION. Weathervane: power samples, the governor's cycle, temperatures, cooling, droop and margin (R265, R344, R347 to R377, R547). -/

namespace Sys2Proof.Machine

open Sys2Proof

/-! ### Measured and estimated power (R348, R547) -/

/-- A quadrant's agent. -/
def qwGet (s : State) (q : Nat) : QuadW := mgetD s.wv.quads q {}

/-- Replace a quadrant's agent. -/
def qwSet (s : State) (q : Nat) (x : QuadW) : State := { s with wv := { s.wv with quads := mset s.wv.quads q x } }

/-- Margin trim of a quadrant, mV (R371). -/
def trimMv (s : State) (q : Nat) : Int := sx 32 (odGet s 0x1600 (q + 1))

/-- Voltage at a clock setting, mV: the fused curve, the trim and the guard (R348, R370, R371). -/
def voltMv (s : State) (q f : Nat) : Nat := ((Config.fusedMv q f : Nat) + trimMv s q + 10 * (qwGet s q).guard).toNat

/-- Governing temperature of a pair, 0.01 °C. -/
def govTemp (s : State) (n : Nat) : Option Int := (mgetD s.wv.pairs n {}).gov

/-- Static power of a quadrant at a clock setting, mW. -/
def staticMw (s : State) (q f : Nat) : Nat := Config.leakage q (voltMv s q f) ((govTemp s q).getD 0)

/-- Ballast that a quadrant draws: that of its lanes which run no bundle (R355). -/
def ballastDrawn (s : State) (q : Nat) : Nat :=
  (qwGet s q).ballastMw * (([2 * q, 2 * q + 1].filter fun l => (laneGet s l).cur.isNone).length) / 2

/-- Power of a quadrant's own activity, without ballast, mW. -/
def ownMw (s : State) (q : Nat) : Nat := (qwGet s q).powerMw - ballastDrawn s q

/-- Dynamic part of a quadrant's measured power: all that is not leakage (R547). -/
def dynMw (s : State) (q : Nat) : Nat := (qwGet s q).powerMw - (qwGet s q).staticMw

/-- A dynamic part at another setting: scaled by clock and voltage squared (R547). -/
def dynAt (s : State) (q f d : Nat) : Nat :=
  let x := qwGet s q
  let den := x.clock * voltMv s q x.clock ^ 2
  if den = 0 then d else d * (f * voltMv s q f ^ 2) / den

/-- Estimate of a quadrant's power at another setting, at its present activity (R547). -/
def estMw (s : State) (q f : Nat) : Nat := staticMw s q f + dynAt s q f (dynMw s q)

/-- Slices waiting or running on a quadrant's lanes. -/
def quadSlices (s : State) (q : Nat) : List Slice :=
  [2 * q, 2 * q + 1].flatMap fun l => (laneGet s l).cur.toList ++ (laneGet s l).queue

/-- Beats that the quadrant's slices take under a rung of the issue ladder: their own, and the gaps before them (R136). -/
def rungBeats (s : State) (q r : Nat) : Nat :=
  let (lim, gap) := rungLimit r
  lsum (((quadSlices s q).filter fun x => !x.idle).map fun x => x.rep + 1 + if x.pwr.toNat > lim then gap else 0)

/-- Estimate at a setting and a rung without ballast, which goes first (R359): gaps lower the dynamic part in proportion to the beats they remove, and the part measured is under the rung in force (R136, R547). -/
def estOwn (s : State) (q f r : Nat) : Nat :=
  let d := dynAt s q f (dynMw s q - ballastDrawn s q)
  let n := rungBeats s q r
  staticMw s q f + (if n = 0 then d else d * rungBeats s q (qwGet s q).rung / n)

/-- Powered quadrants that a partition owns (R21, R353). -/
def activeQuads (s : State) : List Nat := (bitsOf 16 s.tray.quadOn.toNat).filter fun q => decide (quadOwner s q < 16)

/-- Measured power outside the quadrants, mW (R547). -/
def outsideMw (s : State) : Nat := s.wv.inputMw - lsum ((bitsOf 16 s.tray.quadOn.toNat).map fun q => (qwGet s q).powerMw)

/-- The governor is powered and the tray serves. -/
def wvOn (s : State) : Bool := s.tray.hub.hubCommon && !s.tray.failed

/-- The most that the tray draws at an instant, mW (R349, R351): 1,800 W for 100 µs from the onset of an excursion above the peak cap, which comes no sooner than a peak window after the one before; else the peak cap. -/
def drawLimit (s : State) (now : Nat) : Nat :=
  let cap := odGet s 0x1401 1 * 1000
  match s.wv.overSince, s.wv.lastOver with
  | some t, _ => if now < t + 100000 then 1800000 else cap
  | none, some t => if now ≥ t + odGet s 0x1401 2 * 1000000 then 1800000 else cap
  | none, none => 1800000

/-- POWER_SAMPLE (R347, R349, R351, R375, R547): a sample of 1 µs; a hundred make an average. DESIGN CHOICE (log entry 112): the operand is what the loads ask for, and the tray draws of it no more than its limit. -/
def execPowerSample (asked : Nat) (quadMw : List Nat) (s : State) : Res :=
  if !s.tray.hub.hubCommon then .next s
  else
    let inputMw := min asked (drawLimit s s.clk.now)
    let above := decide (inputMw > odGet s 0x1401 1 * 1000)
    let since := s.wv.overSince.getD s.clk.now
    let (sum, n) := (s.wv.acc.1 + inputMw, s.wv.acc.2 + 1)
    let full := decide (n ≥ 100)
    let s := each (bitsOf 16 s.tray.quadOn.toNat) (fun s q =>
      let x := qwGet s q
      let c := x.clkAcc + x.clock
      qwSet s q { x with
        powerMw := quadMw.getD q 0, staticMw := staticMw s q x.clock
        clkAcc := if full then 0 else c, clkAvg := if full then c / 100 else x.clkAvg }) s
    .next { s with wv := { s.wv with
      inputMw := inputMw
      overSince := if above then some since else none
      lastOver := if above then some since else s.wv.lastOver
      acc := if full then (0, 0) else (sum, n)
      avgs := if full then (sum / n :: s.wv.avgs).take 10000 else s.wv.avgs
      avgTotal := if full then s.wv.avgTotal + 1 else s.wv.avgTotal } }

/-! ### Limits (R349, R359, R365, R366) -/

/-- D(T), mW (R365). -/
def derateMw (t : Int) : Nat := if t ≤ 3500 then 1200000 else (1200000 - 200 * (t - 3500)).toNat

/-- A cooling input is fresh: not more than 10 s old (R365). -/
def coolFresh (s : State) (sub : Nat) : Bool :=
  match mget s.wv.coolAt sub with
  | some t => decide (s.clk.now ≤ t + 10000000000)
  | none => false

/-- A signed cooling input, 0.01 °C. -/
def coolTemp (s : State) (sub : Nat) : Int := sx 32 (odGet s 0x1504 sub)

/-- T_fore: the controller's forecast while fresh and flagged valid, else the trend of the own sensor, else T_in (R365). -/
def foreTemp (s : State) : Int :=
  if coolFresh s 3 ∧ coolFresh s 4 ∧ (odGet s 0x1504 4).testBit 0 then coolTemp s 3
  else
    match s.wv.inlet, s.wv.inletHist.getLast? with
    | some t, some (at0, t0) =>
      let dt : Int := (s.clk.now : Int) - at0
      if dt ≤ 0 then t else t + (t - t0) * 60000000000 / min dt 60000000000
    | _, _ => s.wv.tin

/-- The effective sustained cap, mW (R365, R366). -/
def effCap (s : State) : Nat := min (odGet s 0x1400 1 * 1000) (min (derateMw s.wv.tin) s.wv.effCapMw)

/-- Move the derating of the forecast: a fall at no more than the down-ramp rate over a cycle of 10 µs (R366). -/
def effMove (s : State) : State :=
  let d := derateMw (foreTemp s)
  { s with wv := { s.wv with effCapMw := max d (s.wv.effCapMw - odGet s 0x1403 0 * 10) } }

/-- Power that a window limit leaves the next interval of 100 µs: the limit over `n` intervals less those spent. -/
def windowMw (s : State) (cap n : Nat) : Nat :=
  let l := s.wv.avgs.take (n - 1)
  cap * (l.length + 1) - lsum l

/-- The steps that begin within 50 ms, one after another: start in ns from now, power and length, at a clock and voltage for energies at the floor and its voltage (R356). -/
def forecastGo (f v v0 : Nat) : Nat → List (Nat × Nat) → List (Nat × Nat × Nat)
  | _, [] => []
  | t, (nj, beats) :: r =>
    if t > 50000000 then []
    else
      let dt := beats * 8 * 1000 / max 1 f
      (t, nj * v ^ 2 / max 1 (v0 ^ 2) * 1000 / max 1 dt, dt) :: forecastGo f v v0 (t + dt) r

/-- Forecast of a partition's power over the steps that its round still holds (R356): after what is left of the step in flight. -/
def forecast (s : State) (p : Nat) : List (Nat × Nat × Nat) :=
  let f := max 1 (partMhz s p)
  let q := (quadsOf s p).headD 0
  let left := match mget s.car.steps p with
    | some x => x.cost * 8 * 1000 / f - (s.clk.now - x.startedAt)
    | none => 0
  match mget s.car.rounds p with
  | some r => forecastGo f (voltMv s q f) (voltMv s q 1000) left (r.stages.filterMap (stageCost s p))
  | none => []

/-- The level to which phases, given in rising order of power, may be held so that they spend a budget: mW · ns over their time in ns. -/
def phaseLevel : Nat → Nat → List (Nat × Nat) → Option Nat
  | _, _, [] => none
  | budget, time, (mw, ns) :: t =>
    if mw * time ≤ budget then phaseLevel (budget - mw * ns) (time - ns) t else some (budget / max 1 time)

/-- What the forecast lets the tray spend now of the 1 s window (R356): the room of the next 50 ms, shared among the phases queued so that those below a common level keep their power and the others are held to it. -/
def planMw (s : State) : Option Nat :=
  let l := s.wv.avgs.take 9500
  let room := (effCap s * (l.length + 500) - lsum l) * 100000 - outsideMw s * 50000000
  let all := (activeParts s).map (forecast s)
  let ph := sortBy (fun a b => decide (a.1 < b.1)) (all.flatten.map Prod.snd)
  (phaseLevel room (lsum (ph.map Prod.snd)) ph).map fun lv =>
    outsideMw s + lsum (all.map fun x => match x with | [] => 0 | y :: _ => min y.2.1 lv)

/-- What the sustained cap leaves: plain for 1 s after a lowering write, by its window and the plan of its spending otherwise (R349, R356, R359). -/
def sustainedMw (s : State) : Nat :=
  let window := let w := windowMw s (effCap s) 10000
    match planMw s with | some x => min w x | none => w
  match s.wv.capWriteAt with
  | some t => if s.clk.now < t + 1000000000 then effCap s else window
  | none => window

/-- What the peak cap leaves (R349). -/
def peakMw (s : State) : Nat := windowMw s (odGet s 0x1401 1 * 1000) (odGet s 0x1401 2 * 10)

/-- Ready power of a partition at the floor, mW (R357). -/
def readyMw (s : State) (p : Nat) : Nat :=
  match imageOf s p with
  | none => 0
  | some l =>
    lmax ((costEntries l.img.cost).flatMap fun e =>
      let t (num den k : Nat) : Nat := if den = 0 then 0 else num * k / den
      [t (fld e 95 72) (fld e 199 168) 125000, t (fld e 71 48) (fld e 167 144) 32000, t (fld e 39 16) (fld e 143 120) 32000])

/-- P_need, mW (R360). -/
def needMw (s : State) : Nat := outsideMw s + lsum (((activeParts s).filter fun p => liveG s p != []).map (readyMw s))

/-! ### Shares (R353, R354) -/

/-- A lane of the quadrant waits, clock-gated, on a sync counter (R354). -/
def quadWaits (s : State) (q : Nat) : Bool :=
  [2 * q, 2 * q + 1].any fun l =>
    let x := laneGet s l
    x.cur.isNone && (match x.queue.head? with
      | some sl => slSync sl % 2 == 1 && !x.waitDone
      | none => false)

/-- Take up the agents' demand reports; a quadrant that waits keeps its demand for 100 µs (R354). -/
def demandNote (s : State) (demand : List Nat) : State :=
  each (activeQuads s) (fun s q =>
    let x := qwGet s q
    let d := demand.getD q 0
    if !quadWaits s q then qwSet s q { x with demandMw := d, holdUntil := 0 }
    else if x.holdUntil = 0 then qwSet s q { x with holdUntil := s.clk.now + 100000 }
    else if s.clk.now ≤ x.holdUntil then s
    else qwSet s q { x with demandMw := d }) s

/-- Divide a remainder among wants given in rising order: each its want, or an equal part of what is left (R353). -/
def fillShares : Nat → List (Nat × Nat) → List (Nat × Nat)
  | _, [] => []
  | rem, (q, want) :: t =>
    let g := min want (rem / (t.length + 1))
    (q, g) :: fillShares (rem - g) t

/-- Ceiling of a quadrant by temperature: its own and those of its die's stacks (R362, R364). -/
def heatCeil (s : State) (q : Nat) : Nat :=
  let d := q / 4
  min (qwGet s q).tempCeil (min (mgetD s.wv.hbmCeil (2 * d) (1500, 0)).1 (mgetD s.wv.hbmCeil (2 * d + 1) (1500, 0)).1)

/-- The slowest clock announced among the group peers of a partition with a collective pending, never below the floor (R344). -/
def paceCeil (s : State) (p : Nat) : Nat :=
  let js := s.trl.jobs.filter fun x => x.2.part.val == p && (tjOp x.2 == 1 || tjOp x.2 == 3)
  let peers := nodup (js.flatMap fun x => match groupOf s (tjGroup x.2) with | some g => slotsOf g.mask.toNat | none => [])
  let own := peers.filter (· ≠ ownSlot s)
  if odGet s 0x6030 0 = 0 ∨ js = [] then 1500
  else max 1000 (own.foldl (fun m k =>
    match mget s.trl.peers k with
    | some x => x.byPart.foldl (fun m y => min m y.2) m
    | none => m) 1500)

/-- The ceiling of a quadrant's clock: temperature, margin and pace (R344, R362, R372). -/
def ceilOf (s : State) (q : Nat) : Nat := min (heatCeil s q) (min (odGet s 0x1601 (q + 1)) (paceCeil s (quadOwner s q)))

/-- What a quadrant can use: its demand, within what its ceiling lets it draw (R354, R362). -/
def usableMw (s : State) (q : Nat) : Nat := min (qwGet s q).demandMw (estOwn s q (ceilOf s q) 0)

/-- The shares of the active quadrants, mW (R353). -/
def shares (s : State) (avail : Nat) : SMap Nat :=
  let floor := (activeQuads s).map fun q => (q, estOwn s q 1000 0)
  let tot := lsum (floor.map Prod.snd)
  if avail < tot then floor.map fun x => (x.1, x.2 * avail / tot)
  else
    let wants := sortBy (fun a b => decide (a.2 < b.2)) (floor.map fun x => (x.1, usableMw s x.1 - x.2))
    (fillShares (avail - tot) wants).foldl (fun m x => mset m x.1 (x.2 + mgetD floor x.1 0)) []

/-! ### Settings (R344, R348, R359, R362, R363, R367, R372) -/

/-- Settings of R348 at or above the floor. -/
def settings : List Nat := (List.range 21).map fun i => 1000 + 25 * i

/-- The first rung whose estimate meets a share, else the last (R359). -/
def rungFor (s : State) (q share : Nat) : Nat :=
  ((List.range 23).find? fun r => decide (estOwn s q 1000 r ≤ share)).getD 22

/-- The rung of a quadrant at the floor: at once down to the one that meets its share, up again one by one (R359). -/
def rungTo (s : State) (q share : Nat) : Nat :=
  let r := rungFor s q share
  if r < (qwGet s q).rung then (qwGet s q).rung - 1 else r

/-- The clock a share and a ceiling allow: the highest setting, else the floor. -/
def clockFor (s : State) (q ceil share : Nat) : Nat :=
  lmax ((settings.filter fun f => decide (f ≤ ceil) && decide (estOwn s q f 0 ≤ share)) ++ [1000])

/-- Give a quadrant a clock target and a rung, for its next beat boundary or once its synthesiser has settled (R347, R348). -/
def quadAim (s : State) (q f r : Nat) : State :=
  let x := qwGet s q
  qwSet s q { x with
    nextClock := if f < x.clock then some f else none
    raising := if f > x.clock then some f else none
    nextRung := if r ≠ x.rung then some r else none }

/-- A share keeps a quadrant below what it can use, or below its floor. -/
def shareShort (s : State) (q share : Nat) : Bool := decide (share < max (usableMw s q) (estOwn s q 1000 0))

/-- Causes of a quadrant (R373): temperature, peak cap, ramp, cabinet cap, emergency. -/
def quadCauses (s : State) (q share capped ramped : Nat) : Byte :=
  let heat := heatCeil s q < 1500 ∨ s.wv.rideThrough
  let low := shareShort s q share
  BitVec.ofNat 8 ((if heat then 1 else 0) + (if low ∧ capped = 1 ∧ ramped = 0 then 2 else 0)
    + (if s.wv.breach ∨ (low ∧ ramped = 1) then 4 else 0) + (if low ∧ capped = 3 ∧ ramped = 0 then 8 else 0)
    + (if (qwGet s q).emergency then 16 else 0))

/-- In ride-through each quadrant steps towards the floor as far as the down-ramp allows: what is left of the ramp, and the clocks reached (R367). -/
def rideStep (s : State) (acc : Nat × SMap Nat) (q : Nat) : Nat × SMap Nat :=
  let x := qwGet s q
  let f := max 1000 (x.clock - 25)
  let drop := estMw s q x.clock - estMw s q f
  if x.clock > 1000 ∧ drop ≤ acc.1 then (acc.1 - drop, mset acc.2 q f) else (acc.1, mset acc.2 q x.clock)

/-- The clocks to which ride-through lets the quadrants go in this cycle. -/
def rideClocks (s : State) : SMap Nat :=
  ((activeQuads s).foldl (rideStep s) (odGet s 0x1403 0 * 100 - (s.wv.avgs.headD s.wv.inputMw - s.wv.inputMw), [])).2

/-- A Class G step runs with ready ballast off: its rise is made whatever the up-ramp (R350, R357). -/
def rampFreeG (s : State) : Bool :=
  odGet s 0x1404 0 == 0 && s.car.steps.any fun x => x.2.batch.any fun b => !(reqGet s b.handle).classE

/-- Power for the quadrants under the caps (R349). -/
def capRoom (s : State) : Nat := min (drawLimit s (s.clk.now + 10000)) (min (sustainedMw s) (peakMw s)) - outsideMw s

/-- Power for the quadrants under the up-ramp (R349). -/
def rampRoom (s : State) : Nat := s.wv.avgs.headD s.wv.inputMw + odGet s 0x1402 0 * 100 - outsideMw s

/-- Settings of one cycle: shares to clocks and rungs, a fall of ride-through no faster than its ramp unless a cap or a throttle forces it; an emergency's quadrants are left to their agents (R350, R353, R359, R362, R363, R367). -/
def quadsSet (s : State) : State :=
  let capped := if sustainedMw s ≤ peakMw s then 3 else 1
  let cap := capRoom s
  let avail := if rampFreeG s then cap else min cap (rampRoom s)
  let ramped := if avail < cap then 1 else 0
  let sh := shares s avail
  let ride := rideClocks s
  each (activeQuads s) (fun s q =>
    let x := qwGet s q
    let share := mgetD sh q 0
    let r := if estOwn s q 1000 0 > share ∨ x.rung ≠ 0 then rungTo s q share else 0
    let f := if r ≠ 0 then 1000 else clockFor s q (ceilOf s q) share
    let f := if s.wv.rideThrough then min f (mgetD ride q 1000) else f
    let s := if x.emergency then s else quadAim s q f r
    qwSet s q { qwGet s q with causes := quadCauses s q share capped ramped }) s

/-! ### Ballast (R355, R357, R358) -/

/-- Ballast may be placed in a quadrant: no cap, throttle, emergency or ride-through, and at most 90 °C (R350, R355, R367). -/
def ballastOk (s : State) (q : Nat) : Bool :=
  !s.wv.rideThrough && ((qwGet s q).causes &&& 0x1B#8) == 0 && (match govTemp s q with | some t => decide (t ≤ 9000) | none => false)

/-- The power to which ballast is to hold a quadrant: ready power, or that of a forecast rise, begun as early as the up-ramp needs (R356, R357). -/
def ballastGoal (s : State) (q : Nat) : Nat :=
  let p := quadOwner s q
  let n := max 1 (activeQuads s).length
  let nq := max 1 (bitsOf 16 (partQuads s p)).length
  let ready := if odGet s 0x1404 0 = 1 ∧ (imageOf s p).isSome ∧ (odGet s 0x3000 (p + 1)).testBit 0 then readyMw s p / nq else 0
  max ready (lmax ((forecast s p).map fun y => y.2.1 / nq - odGet s 0x1402 0 * y.1 / 1000 / n))

/-- The level of a cycle: the goal, reached at the up-ramp shared by the quadrants that rise, and left at the down-ramp shared by those that fall (R349, R357, R358). -/
def ballastLevel (s : State) (q : Nat) : Nat :=
  let now := (qwGet s q).powerMw
  let up := max 1 ((activeQuads s).filter fun k => decide (ballastGoal s k > (qwGet s k).powerMw)).length
  let down := max 1 ((activeQuads s).filter fun k => decide (ballastGoal s k < (qwGet s k).powerMw)).length
  if ballastGoal s q > now then min (ballastGoal s q) (now + odGet s 0x1402 0 * 10 / up)
  else max (ballastGoal s q) (now - odGet s 0x1403 0 * 10 / down)

/-- Give a quadrant its ballast, for its next beat boundary, within what the limits leave. -/
def ballastSet (acc : Nat × State) (q : Nat) : Nat × State :=
  let (left, s) := acc
  let b := if ballastOk s q then min left (ballastLevel s q - ownMw s q) else 0
  (left - b, qwSet s q { qwGet s q with nextBallast := some b })

/-- The ballast of a cycle, which counts against every limit (R355), and the partitions whose ballast can rise no further. -/
def ballastAll (s : State) : State :=
  let own := lsum ((activeQuads s).map (ownMw s))
  let (rest, s) := (activeQuads s).foldl ballastSet (min (capRoom s) (rampRoom s) - own, s)
  let stuck := (activeParts s).filter fun p => rest == 0 || (bitsOf 16 (partQuads s p)).any fun q => !ballastOk s q
  { s with wv := { s.wv with rampFree := stuck } }

/-! ### The cycle (R347) -/

/-- Judge each 100 µs average completed since the last cycle against the ramps (R349, R350). -/
def breachJudge (s : State) : State :=
  if s.wv.judgedTo = s.wv.avgTotal then s
  else
    let s := { s with wv := { s.wv with judgedTo := s.wv.avgTotal } }
    match s.wv.avgs with
    | a :: b :: _ =>
      let bad := decide (a > b + odGet s 0x1402 0 * 100) || decide (b > a + odGet s 0x1403 0 * 100)
      let s := { s with wv := { s.wv with breach := bad } }
      if bad then bump32 s 0x1406 0 else s
    | _ => s

/-- Causes 1 to 3 of R265 as they now stand (R360). -/
def riskJudge (s : State) : State :=
  let one := decide (min (effCap s) (odGet s 0x1401 1 * 1000) < s.wv.pneedMw)
  each (activeParts s) (fun s p =>
    let qs := (bitsOf 16 (partQuads s p)).filter fun q => s.tray.quadOn.getLsbD q
    let s := riskSet s p 1 one
    let s := riskSet s p 2 (qs.any fun q => (qwGet s q).rung != 0)
    riskSet s p 3 (qs.any fun q => (qwGet s q).emergency || decide ((qwGet s q).clock < 1000))) s

/-- Causes of the tray: those of its quadrants, and ride-through (R373). -/
def trayCauses (s : State) : Byte :=
  (activeQuads s).foldl (fun c q => c ||| (qwGet s q).causes)
    (BitVec.ofNat 8 ((if s.wv.rideThrough then 1 else 0) + (if s.wv.breach then 4 else 0)))

/-- GOVERNOR_CYCLE (R265, R344, R347 to R360, R366, R373, R547), with the agents' demand reports in mW. -/
def execGovernorCycle (demand : List Nat) (s : State) : Res :=
  if !wvOn s then .next s
  else
    let s := demandNote (breachJudge (effMove s)) demand
    let s := ballastAll (quadsSet s)
    let s := { s with wv := { s.wv with pneedMw := needMw s } }
    let s := { s with wv := { s.wv with causes := trayCauses s } }
    .next (riskJudge s)

/-- Make 5 mV of a trim that is due, at a beat boundary and no sooner than 10 µs after the last (R371). -/
def trimStep (s : State) (q : Nat) : State :=
  let x := qwGet s q
  let free := match x.trimAt with | some t => decide (s.clk.now ≥ t + 10000) | none => true
  if x.trimDue = 0 ∨ !free then s
  else
    let d : Int := if x.trimDue > 0 then 5 else -5
    odSet (qwSet s q { x with trimDue := x.trimDue - d, trimAt := some s.clk.now }) 0x1600 (q + 1) (ux 32 (trimMv s q + d))

/-- What a quadrant takes at a beat boundary (R26, R136, R347, R348, R370): the lower of the governor's and its own lowered clock, its issue limit and its ballast. -/
def boundaryTake (x : QuadW) : QuadW :=
  let f := min (x.nextClock.getD x.clock) (x.droopTo.getD x.clock)
  { x with
    clock := f, lowering := x.lowering || decide (f < x.clock), nextClock := none, droopTo := none
    rung := x.nextRung.getD x.rung, nextRung := none, ballastMw := x.nextBallast.getD x.ballastMw, nextBallast := none }

/-- ISSUE_LIMIT_APPLY (R26, R136, R347, R348, R371): at a beat boundary the quadrant takes its settings, and 5 mV of a trim that is due. -/
def execIssueLimitApply (q : Quad) (s : State) : Res :=
  if !s.tray.quadOn.getLsbD q.val then .next s
  else .next (trimStep (qwSet s q.val (boundaryTake (qwGet s q.val))) q.val)

/-- CLOCK_SETTLED (R348): the synthesiser has settled; a raised setting takes effect. -/
def execClockSettled (q : Quad) (s : State) : Res :=
  if !s.tray.quadOn.getLsbD q.val then .next s
  else
    let x := qwGet s q.val
    .next (qwSet s q.val { x with clock := x.raising.getD x.clock, raising := none, lowering := false })

/-- SUSTAINED_CAP_WRITE (R359, R375): a lowering below the present input power takes effect at once. -/
def execSustainedCapWrite (rq : DictReq) (v : List Byte) (s : State) : Res :=
  let old := odGet s 0x1400 1
  .next (dictWrite s rq 0x1400 1 v (clampRow 0x1400 1) fun s w =>
    if w < old ∧ w * 1000 < s.wv.inputMw then { s with wv := { s.wv with capWriteAt := some s.clk.now } } else s)

/-! ### Losing power (R506, R526) -/

/-- Everything that does not outlive power: what stays is fuses, flash with the objects of R470, the switches and contacts, elapsed time, the log's sequence count and the Gatehouse (R506, R526). -/
def volatileLost (s : State) : State :=
  { pending := s.pending, fuses := s.fuses, flash := s.flash
    tray := { s.tray with
      ready := false, clockState := .run, hub := { aux := s.tray.hub.aux, gatehouse := s.tray.hub.gatehouse }, dieOn := 0
      quadOn := 0, selfRefresh := false, resetting := false, drain := .none }
    clk := { now := s.clk.now }
    gate := { s.gate with sweeps := [] }
    pav := {
      vals := s.pav.vals.filter fun x => odFlash (x.1 / 256), clamps := s.pav.clamps.filter fun x => odFlash (x.1 / 256)
      nextSeq := s.pav.nextSeq }
    upd := s.upd, out := s.out, freeCtr := s.freeCtr }

/-! ### Cooling (R365 to R368) -/

/-- Own inlet readings kept for 60 s: a change is recorded, with the reading in force when the minute began. -/
def histPut {α : Type} [BEq α] (now span : Nat) (l : List (Nat × α)) (v : α) : List (Nat × α) :=
  let l := match l with | (t, x) :: r => if x == v then (t, x) :: r else (now, v) :: (t, x) :: r | [] => [(now, v)]
  let (young, old) := (l.filter fun x => decide (now ≤ x.1 + span), l.filter fun x => !decide (now ≤ x.1 + span))
  young ++ old.take 1

/-- T_in of R365: the higher of the own sensor and the cabinet's value while fresh; with neither, 45 °C. -/
def tinOf (s : State) : Int × Bool :=
  match s.wv.inlet, coolFresh s 2 with
  | some t, true => (max t (coolTemp s 2), true)
  | some t, false => (t, true)
  | none, true => (coolTemp s 2, true)
  | none, false => (4500, false)

/-- Take T_in, and since when it and the flow have allowed the end of ride-through and the rejoining (R365, R367, R368). -/
def coolJudge (s : State) : State :=
  let (t, real) := tinOf s
  let ok := coolFresh s 1 && decide (odGet s 0x1504 1 ≥ 800) && decide (t ≤ 4500)
  let low := real && decide (t ≤ 4500)
  { s with wv := { s.wv with
    tin := t, tinReal := real, tinTaken := true
    rideOkSince := if ok then some (s.wv.rideOkSince.getD s.clk.now) else none
    coolSince := if low then some (s.wv.coolSince.getD s.clk.now) else none } }

/-- A sudden stop of cooling: ballast stops, Class E is paused and refused, and quadrants go to the floor (R367). -/
def rideEnter (s : State) : State :=
  if s.wv.rideThrough then s
  else
    each (bitsOf 16 s.tray.quadOn.toNat) (fun s q => qwSet s q { qwGet s q with ballastMw := 0, nextBallast := none })
      { s with wv := { s.wv with rideThrough := true, rideOkSince := none } }

/-- A drain request or a thermal shutdown stops an activation before its commit; the update stays staged (R517). -/
def activationStop (s : State) : State :=
  if s.upd.st = .activating then
    let s := armDrop s
    msixSend { s with upd := { s.upd with st := .verified, result := 9 } } 0 1
  else s

/-- The thermal shutdown of R368: no admission, a final snapshot where a partner can acknowledge it, then failure. -/
def thermalShutdown (s : State) : State :=
  if s.tray.failed || s.wv.shuttingDown then s
  else
    let s := activationStop { s with wv := { s.wv with shuttingDown := true } }
    if snapWaits s then snapAsk s else thermalEnd s

/-- Above 50 °C the tray shuts down, on a measured or fresh T_in only; after that, from 60 °C, H and the stacks go off but for the Gatehouse, which stays powered (R365, R368, R394). -/
def inletAct (s : State) : State :=
  if s.tray.failedThermal then
    if s.wv.tinReal ∧ s.wv.tin ≥ 6000 then volatileLost s else s
  else if s.wv.tinReal ∧ s.wv.tin > 5000 then thermalShutdown s
  else s

/-- COOLING_INPUT_WRITE (R365, R367, R376). -/
def execCoolingInputWrite (rq : DictReq) (sub : Fin 4) (v : List Byte) (s : State) : Res :=
  let n := sub.val + 1
  let old := odGet s 0x1504 1
  .next (dictWrite s rq 0x1504 n v (clampRow 0x1504 n) fun s w =>
    let hist := if n = 1 then histPut s.clk.now 2000000000 s.wv.flowHist w else s.wv.flowHist
    let s := { s with wv := { s.wv with coolAt := mset s.wv.coolAt n s.clk.now, flowHist := hist } }
    let s := coolJudge s
    let fell := decide (n = 1) && decide (lmax (old :: hist.map Prod.snd) ≥ w + 500)
    let s := if (n = 4 ∧ w.testBit 1) ∨ fell then rideEnter s else s
    inletAct s)

/-- COOLING_INPUT_STALE (R365): a value more than 10 s old is used no more. -/
def execCoolingInputStale (sub : Fin 4) (s : State) : Res :=
  let n := sub.val + 1
  if coolFresh s n then .next s
  else .next (inletAct (coolJudge { s with wv := { s.wv with coolAt := mdel s.wv.coolAt n } }))

/-- RIDE_THROUGH_EXIT (R367): flow and inlet have been in range for 10 s. -/
def execRideThroughExit (s : State) : Res :=
  match s.wv.rideOkSince with
  | some t =>
    if s.wv.rideThrough ∧ s.clk.now ≥ t + 10000000000 then
      .next { s with wv := { s.wv with rideThrough := false } }
    else .next s
  | none => .next s

/-- THERMAL_REJOIN_READY (R368): T_in at or below 45 °C for 60 s. -/
def execThermalRejoinReady (s : State) : Res :=
  match s.wv.coolSince with
  | some t =>
    if s.tray.failedThermal ∧ !s.wv.rejoinReady ∧ s.clk.now ≥ t + 60000000000 then
      .next (emit { s with wv := { s.wv with rejoinReady := true } } .rejoinReady)
    else .next s
  | none => .next s

/-! ### Temperatures (R361 to R364) -/

/-- A reading lies in −40 °C to 150 °C. -/
def tempOk (t : Int) : Bool := decide (-4000 ≤ t) && decide (t ≤ 15000)

/-- Governing temperature and report of a pair (R364). -/
def pairGov (a b : Int) : Option Int × PairAlert :=
  let d := if a ≤ b then b - a else a - b
  match tempOk a, tempOk b with
  | true, true => if d ≤ 400 then (some (max a b), .none) else if d ≤ 1200 then (some (max a b), .warning) else (some (max a b + 500), .alarm)
  | true, false => (some (a + 500), .alarm)
  | false, true => (some (b + 500), .alarm)
  | false, false => (none, .alarm)

/-- The graver of two alerts. -/
def alertMax (a b : PairAlert) : PairAlert :=
  match a, b with
  | .alarm, _ => .alarm
  | _, .alarm => .alarm
  | .warning, _ => .warning
  | _, .warning => .warning
  | .none, .none => .none

/-- Read a pair: its governing temperature, its alert, counted at onset, and since when it has agreed within 3 °C (R364). -/
def pairRead (s : State) (n : Nat) (a b : Int) : State :=
  let x := mgetD s.wv.pairs n {}
  let (g, rep) := pairGov a b
  let al := alertMax x.alert rep
  let d := if a ≤ b then b - a else a - b
  let agree := tempOk a && tempOk b && decide (d ≤ 300)
  let y : PairS := { a := a, b := b, gov := g, alert := al, agreeSince := if agree then some (x.agreeSince.getD s.clk.now) else none }
  let s := { s with wv := { s.wv with pairs := mset s.wv.pairs n y } }
  if al = x.alert then s
  else
    let s := bump32 s (if al = .alarm then 0x1507 else 0x1506) (n + 1)
    notice s (2 ^ 62 + n) { cls := 1, block := 10, kind := 0, quad := if n < 16 then n else 0x3F, action := 1, detail := ux 64 (g.getD 0) }

/-- Ceiling of a throttle band, MHz, in steps of 25 (R362). -/
def bandCeil (start t : Int) : Nat := if t ≤ start then 1500 else max 1000 ((1500 - (t - start) / 2 - (if (t - start) % 2 = 0 then 0 else 1)).toNat / 25 * 25)

/-- A ceiling falls at once, and rises only once the temperature is 1 °C below the one that set it (R362). -/
def ceilMove (old : Nat × Int) (start t : Int) : Nat × Int :=
  let c := bandCeil start t
  if c < old.1 ∨ t ≤ old.2 - 100 then (c, t) else old

/-- Stacks of a quadrant's die. -/
def stacksOf (q : Nat) : List Nat := [2 * (q / 4), 2 * (q / 4) + 1]

/-- A junction or a stack of the die lies `below` under its hard limit, or higher (R361, R363). -/
def tooHot (s : State) (q : Nat) (below : Int) : Bool :=
  (match govTemp s q with | some t => decide (t > 10500 - below ∨ (below = 0 ∧ t = 10500)) | none => false)
  || (stacksOf q).any fun k => !s.wv.hbmBad.contains k
      && (match mget s.wv.hbmTemp k with | some t => decide (t > 9500 - below ∨ (below = 0 ∧ t = 9500)) | none => false)

/-- Shutdown, start and end of an emergency of a powered quadrant (R361, R363, R364). -/
def quadHeat (s : State) (q : Nat) : State :=
  if !s.tray.quadOn.getLsbD q then s
  else
    let x := qwGet s q
    let dead := match govTemp s q with | some t => decide (t ≥ 11500) | none => true
    if dead then fenceScope s (.quad q) (quadOwner s q) { cls := 4, block := 10, quad := q, detail := ux 64 ((govTemp s q).getD 0) }
    else if x.emergency then
      (if tooHot s q 200 then s
       else qwSet s q { x with
         emergency := false, nextRung := if x.rung = 0 then none else some 0, nextClock := none
         raising := if x.clock < 1000 then some 1000 else none })
    else if tooHot s q 0 then
      qwSet s q { x with emergency := true, stepAt := s.clk.now, nextClock := if x.clock > 1000 then some 1000 else none, raising := none }
    else s

/-- Take the reading of an HBM stack (R361, R362, R364). -/
def stackRead (s : State) (k : Nat) (t : Int) : State :=
  let old := mgetD s.wv.hbmCeil k (1500, 0)
  if tempOk t then
    { s with wv := { s.wv with
      hbmTemp := mset s.wv.hbmTemp k t, hbmBad := s.wv.hbmBad.filter (· ≠ k), hbmCeil := mset s.wv.hbmCeil k (ceilMove old 8500 t)
      hbmRefresh := if t < 8500 then s.wv.hbmRefresh.filter (· ≠ k) else k :: s.wv.hbmRefresh.filter (· ≠ k) } }
  else
    let s := if s.wv.hbmBad.contains k then s else notice s (2 ^ 62 + 32 + k) { cls := 1, block := 10, kind := 1, action := 1, detail := ux 64 t }
    { s with wv := { s.wv with
      hbmTemp := mset s.wv.hbmTemp k t, hbmBad := if s.wv.hbmBad.contains k then s.wv.hbmBad else k :: s.wv.hbmBad
      hbmRefresh := k :: s.wv.hbmRefresh.filter (· ≠ k), hbmCeil := mset s.wv.hbmCeil k (1000, 9500) } }

/-- Take the own inlet reading: out of range it is an alarm and is not used; a rise of 3 °C within 10 s is a sudden stop (R365, R367). -/
def inletRead (s : State) (t outlet : Int) : State :=
  let s := { s with wv := { s.wv with outlet := outlet } }
  if !tempOk t then
    let s := if !s.wv.inletBad then notice s (2 ^ 62 + 48) { cls := 1, block := 10, kind := 2, action := 1, detail := ux 64 t } else s
    coolJudge { s with wv := { s.wv with inlet := none, inletBad := true } }
  else
    let rise := s.wv.inletHist.any fun x => decide (t ≥ x.2 + 300)
      && (decide (s.clk.now ≤ x.1 + 10000000000) || (s.wv.inletHist.filter fun y => decide (y.1 > x.1) && decide (s.clk.now ≥ y.1 + 10000000000)) == [])
    let s := { s with wv := { s.wv with inlet := some t, inletBad := false, inletHist := histPut s.clk.now 60000000000 s.wv.inletHist t } }
    let s := coolJudge s
    if rise then rideEnter s else s

/-- SENSOR_READ (R13, R361 to R368): every sensor of a powered unit read once. -/
def execSensorRead (r : Readings) (s : State) : Res :=
  if !s.tray.hub.hubCommon then .next s
  else
    let s := each (bitsOf 16 s.tray.quadOn.toNat) (fun s q => pairRead s q (r.junctionA.getD q 2500) (r.junctionB.getD q 2500)) s
    let s := pairRead s 16 r.hubA r.hubB
    let s := each (List.range 8) (fun s k => stackRead s k (r.hbm.getD k 2500)) s
    let s := each (bitsOf 16 s.tray.quadOn.toNat) (fun s q =>
      let x := qwGet s q
      match govTemp s q with
      | some t =>
        let c := ceilMove (x.tempCeil, x.tempCeilAt) 9500 t
        qwSet s q { x with tempCeil := c.1, tempCeilAt := c.2 }
      | none => s) s
    let s := each (bitsOf 16 s.tray.quadOn.toNat) quadHeat s
    let s := inletRead s r.inlet r.outlet
    let s := match govTemp s 16 with
      | some t =>
        let s := { s with wv := { s.wv with zoetropeHalved := decide (t ≥ 10500) || (s.wv.zoetropeHalved && decide (t > 10300)) } }
        if t ≥ 11500 then thermalShutdown s else s
      | none => thermalShutdown s
    .next (inletAct s)

/-- EMERGENCY_STEP (R359, R363): while the cause holds, one 25 MHz step down every 100 µs to 500 MHz, then one rung, each for the next beat boundary. -/
def execEmergencyStep (q : Quad) (s : State) : Res :=
  let s := quadHeat s q.val
  let x := qwGet s q.val
  if !s.tray.quadOn.getLsbD q.val ∨ !x.emergency ∨ !tooHot s q.val 0 ∨ s.clk.now < x.stepAt then .next s
  else
    let x := { x with stepAt := s.clk.now + 100000 }
    if x.clock > 500 then .next (qwSet s q.val { x with nextClock := some (max 500 (min x.clock 1000 - 25)) })
    else .next (qwSet s q.val { x with nextRung := if x.rung = 22 then none else some (x.rung + 1) })

/-- SENSOR_ALERT_CLEAR (R364): the pair has agreed within 3 °C, both in range, for 10 s. -/
def execSensorAlertClear (pair : Fin 17) (s : State) : Res :=
  let x := mgetD s.wv.pairs pair.val {}
  match x.agreeSince with
  | some t =>
    if s.clk.now ≥ t + 10000000000 then .next { s with wv := { s.wv with pairs := mset s.wv.pairs pair.val { x with alert := .none } } }
    else .next s
  | none => .next s

/-! ### Droop and margin (R369 to R372) -/

/-- Time that a stretch of a level adds over its length, ps: periods 1/16, 2/16, 3/16 or 4/16 longer (R369). -/
def stretchPs (ns level : Nat) : Nat := ns * 1000 * (level + 1) / (17 + level)

/-- End the stretch in progress: at the supply's recovery or 200 ns after its onset. -/
def stretchEnd (s : State) (q : Nat) : State :=
  let x := qwGet s q
  match x.stretch with
  | none => s
  | some (t, l) => qwSet s q { x with stretch := none, stretchAdded := x.stretchAdded + stretchPs (min 200 (s.clk.now - t)) l }

/-- DROOP_TRIP (R369): the clock stretches; a new trip begins a new stretch. -/
def execDroopTrip (q : Quad) (level : Fin 4) (s : State) : Res :=
  if !s.tray.quadOn.getLsbD q.val then .next s
  else
    let s := stretchEnd s q.val
    .next (bump64 (qwSet s q.val { qwGet s q.val with stretch := some (s.clk.now, level.val) }) 0x1604 (q.val + 1))

/-- DROOP_STRETCH_END (R369). -/
def execDroopStretchEnd (q : Quad) (s : State) : Res := .next (stretchEnd s q.val)

/-- STRETCH_LOSS_WINDOW (R370): 100 µs are over; at 2 % the clock is lowered one step, or at the floor the guard raised. -/
def execStretchLossWindow (q : Quad) (s : State) : Res :=
  if !s.tray.quadOn.getLsbD q.val then .next s
  else
    let s := match (qwGet s q.val).stretch with
      | some (t, _) => if s.clk.now ≥ t + 200 then stretchEnd s q.val else s
      | none => s
    let x := qwGet s q.val
    let a := x.stretchAdded
    let s := if a > 3000000 ∧ x.guard ≥ 3 then bump32 s 0x1602 (q.val + 1) else s
    let x := { x with stretchAdded := 0, quietWindows := if a < 1000000 then x.quietWindows + 1 else 0 }
    if a < 2000000 then .next (qwSet s q.val x)
    else if x.clock > 1000 then .next (qwSet s q.val { x with droopTo := some (max 1000 (x.clock - 25)), raising := none })
    else .next (qwSet s q.val { x with guard := min 3 (x.guard + 1) })

/-- GUARD_STEP_RETURN (R370): one guard step after 10 ms in which no window reached 1 %. -/
def execGuardStepReturn (q : Quad) (s : State) : Res :=
  let x := qwGet s q.val
  if x.guard > 0 ∧ x.quietWindows ≥ 100 then .next (qwSet s q.val { x with guard := x.guard - 1, quietWindows := 0 }) else .next s

/-- CANARY_FAIL (R371, R372): a rise of the trim by 5 mV is due; at +60 mV the ceiling falls by 25 MHz, and at the floor the quadrant is fenced. -/
def execCanaryFail (q : Quad) (_path : Fin 8) (s : State) : Res :=
  if !s.tray.quadOn.getLsbD q.val then .next s
  else
    let s := qwSet s q.val { qwGet s q.val with canarySince := s.clk.now }
    let n := q.val + 1
    let x := qwGet s q.val
    if trimMv s q.val + x.trimDue < 60 then .next (qwSet s q.val { x with trimDue := x.trimDue + 5 })
    else if x.clock ≤ 1000 then
      .next (fenceScope s (.quad q.val) (quadOwner s q.val) { cls := 4, block := 10, kind := 3, quad := q.val })
    else
      let c := max 1000 (odGet s 0x1601 n - 25)
      let s := bump32 (odSet s 0x1601 n c) 0x1603 n
      .next (if x.clock > c then qwSet s q.val { x with nextClock := some c, raising := none } else s)

/-- CANARY_TRIM_DOWN (R371): every canary has passed with spare delay for 24 h. -/
def execCanaryTrimDown (q : Quad) (s : State) : Res :=
  let x := qwGet s q.val
  if !s.tray.quadOn.getLsbD q.val ∨ s.clk.now < x.canarySince + 86400000000000 ∨ trimMv s q.val + x.trimDue ≤ -20 then .next s
  else .next (qwSet s q.val { x with canarySince := s.clk.now, trimDue := x.trimDue - 5 })

end Sys2Proof.Machine
end

