-- ==== Sys2Proof/Machine/Clocks.lean ====
section
/-! DEFINITION. Clock domains, their sources and judgement, spread, the die NoC, and the timebase (R325, R378 to R393). -/

namespace Sys2Proof.Machine

open Sys2Proof

/-! ### The timebase (R387 to R390) -/

/-- The timebase as a number. -/
def tbNat (s : State) : Nat := s.clk.timebase.toNat

/-- Expected time of an edge: OD 0x1101 when written, else the whole second nearest the timestamp (R387). -/
def edgeExpected (s : State) : Nat :=
  let w := odGet s 0x1101 0
  if w ≠ 0 then w else (tbNat s + 500000000) / 1000000000 * 1000000000

/-- A signed number held to 32 bits. -/
def clampI32 (x : Int) : Nat := ux 32 (max (-(2 ^ 31)) (min (2 ^ 31 - 1) x))

/-- PPS_EDGE (R387 to R389): rejected by its spacing, or valid; a valid edge with a predecessor slews or steps the timebase. -/
def execPpsEdge (s : State) : Res :=
  if !s.tray.hub.hubCommon || !clkRuns s 0x26 then .next s
  else
    let tb := tbNat s
    let e : Int := (tb : Int) - edgeExpected s
    let valid (s : State) : State := odSet (odSet s 0x1103 0 (clampI32 e)) 0x1101 0 0
    let edge (s : State) (t : BitVec 64) : State := { s with clk := { s.clk with lastEdge := some (s.clk.now, t) } }
    match (match s.clk.lastEdge with | some (t, x) => if s.clk.now ≤ t + 1500000000 then some x else none | none => none) with
    | none => .next (edge (valid s) s.clk.timebase)
    | some last =>
      let gap : Int := (tb : Int) - last.toNat
      if gap - 1000000000 > 10000 ∨ 1000000000 - gap > 10000 then .next (bump32 s 0x1106 0)
      else
        let s := valid s
        let s := { s with clk := { s.clk with mode := .locked } }
        if -1000 ≤ e ∧ e ≤ 1000 then
          .next (edge { s with clk := { s.clk with slew := e, slewing := e != 0, slewPhase := 0 } } s.clk.timebase)
        else
          let t : BitVec 64 := BitVec.ofInt 64 ((tb : Int) - e)
          let s := { s with clk := { s.clk with
            timebase := t, slew := 0, slewing := false, slewPhase := 0, steps := ((s.clk.now, -e) :: s.clk.steps).take 32 } }
          .next (edge (bump32 s 0x1105 0) t)

/-- TIMEBASE_SLEW_END (R388): the error has been removed, and the timebase runs at its own rate again. -/
def execTimebaseSlewEnd (s : State) : Res :=
  if s.clk.slewing ∧ s.clk.slew = 0 then .next { s with clk := { s.clk with slewing := false, slewPhase := 0 } } else .next s

/-- HOLDOVER_ENTER (R389): 1.5 s without a valid edge. -/
def execHoldoverEnter (s : State) : Res :=
  match s.clk.lastEdge with
  | some (t, _) =>
    if s.clk.mode = .locked ∧ s.clk.now ≥ t + 1500000000 then .next { s with clk := { s.clk with mode := .holdover } } else .next s
  | none => .next s

/-! ### Domains (R378, R384) -/

/-- Sources of a domain's row (R378). -/
def domSources (n : Nat) : List Nat :=
  if n ≤ 0x16 ∨ n = 0x1A ∨ n = 0x1B ∨ n = 0x1D then [0, 1]
  else if n = 0x18 then [2]
  else if n = 0x19 then [2, 0]
  else if n = 0x1C ∨ n = 0x27 then [3]
  else if n = 0x28 then [0, 1, 2]
  else [0]

/-- Judgement of a clock; a domain's own, 40 the TCXO, 41 REFCLK. -/
def judgedGet (s : State) (k : Nat) : Judgement := mgetD s.clk.judged k {}

/-- Replace a judgement. -/
def judgedSet (s : State) (k : Nat) (j : Judgement) : State := { s with clk := { s.clk with judged := mset s.clk.judged k j } }

/-- The clock that a source of a domain is (R378). -/
def sourceKey (n src : Nat) : Option Nat :=
  match src with
  | 0 => some (n - 1)
  | 1 => some 40
  | 2 => some 0x17
  | _ => none

/-- A source of a domain is judged stable; a fixed oscillator always is. -/
def sourceStable (s : State) (n src : Nat) : Bool :=
  match sourceKey n src with
  | some k => (judgedGet s k).stable
  | none => true

/-- The tray reference may return to port A (R325, R383): UP, judged stable, and stable for 1 s beyond its judgement. -/
def refReady (s : State) : Bool :=
  (portGet s 0).st == .up && (judgedGet s 0x17).stable && decide (s.clk.now ≥ (judgedGet s 0x17).since + 1000000000)

/-- A domain may switch to a source now: it is judged stable, and for the Trellis core's return to port A has been so for 1 s more (R382, R383). -/
def sourceReady (s : State) (n src : Nat) : Bool :=
  if n = 0x19 ∧ src = 2 then refReady s else sourceStable s n src

/-- A quadrant owned by a partition stays on its PLL (R382). -/
def domHeld (s : State) (n : Nat) : Bool := decide (n ≤ 0x10) && decide (quadOwner s (n - 1) < 16)

/-- Bring a domain to the source stored for it: after a switch in progress, at once when its clock is off, after the judgement of the new source otherwise (R382, R383). -/
def domFollow (s : State) (n : Nat) : State :=
  let want := odGet s 0x1000 n
  if (mget s.clk.halts n).isSome then { s with clk := { s.clk with switching := if s.clk.switching.contains n then s.clk.switching else n :: s.clk.switching } }
  else if domHeld s n ∨ domSource s n = want then { s with clk := { s.clk with switching := s.clk.switching.filter (· ≠ n) } }
  else if !domOn s n then { s with clk := { s.clk with source := mset s.clk.source (n - 1) want } }
  else if sourceReady s n want then domSwitch s n want
  else { s with clk := { s.clk with switching := if s.clk.switching.contains n then s.clk.switching else n :: s.clk.switching } }

/-- The clamp of OD 0x1000 (R379, R392). -/
def sourceClamp (n : Nat) (_ : State) (v : Nat) : Nat := if (domSources n).contains v then v else clkDefSource n

/-- CLOCK_SOURCE_SWITCH (R379, R382, R383, R392). -/
def execClockSourceSwitch (rq : DictReq) (dom : Fin 40) (v : List Byte) (s : State) : Res :=
  let n := dom.val + 1
  .next (dictWrite s rq 0x1000 n v (sourceClamp n) fun s _ => domFollow s n)

/-! ### Judging stability (R325, R380, R381, R383) -/

/-- Number of a judged clock. -/
def judgedKey : Judged → Nat
  | .domain d => d.val
  | .tcxo => 40
  | .refclk => 41

/-- Nominal frequency, Hz, and window, ppm, of a judged clock (R379, R380). -/
def judgedNominal (s : State) : Judged → Nat × Nat
  | .domain d => (domHz s (d.val + 1), odGet s 0x1020 1)
  | .tcxo => (25000000, 200)
  | .refclk => (100000000, 300)

/-- The clock to be judged runs. -/
def judgedOn (s : State) : Judged → Bool
  | .domain d => domOn s (d.val + 1) && (d.val != 0x17 || (portGet s 0).st == .up)
  | .tcxo => s.tray.hub.hubCommon
  | .refclk => s.tray.hub.pcie

/-- A count lies within the window of nominal, the mean of a spread clock taken as its nominal (R380, R385). -/
def countOk (s : State) (clk : Judged) (count : Nat) : Bool :=
  let (hz, ppm) := judgedNominal s clk
  let depth := match clk with | .domain d => if d.val < 20 then spread s else 0 | _ => 0
  let nom := hz * odGet s 0x1020 2 * (20000 - depth)
  let got := count * 1000000 * 20000
  let diff := if got ≤ nom then nom - got else got - nom
  decide (diff * 1000000 ≤ ppm * nom)

/-- A clock is judged unstable: the TCXO fails the tray, the recovered clock gives up the reference (R325, R381). -/
def clockUnstable (s : State) (clk : Judged) : State :=
  let s := judgedSet s (judgedKey clk) { stable := false }
  let s := each (mkeys s.clk.halts) (fun s n => if sourceKey n (domSource s n) = some (judgedKey clk) then haltBack s n else s) s
  match clk with
  | .tcxo => declareFailed s { cls := 5, block := 12 }
  | .domain d => if d.val = 0x17 then refFall s else s
  | .refclk => s

/-- STABILITY_INTERVAL (R325, R380 to R383). -/
def execStabilityInterval (clk : Judged) (count : Nat) (s : State) : Res :=
  if !judgedOn s clk then .next s
  else if !countOk s clk count then .next (clockUnstable s clk)
  else
    let k := judgedKey clk
    let j := judgedGet s k
    if j.stable then .next s
    else if j.passes + 1 ≥ odGet s 0x1020 3 then
      let s := judgedSet s k { stable := true, since := s.clk.now }
      .next (each s.clk.switching (fun s n => if sourceKey n (odGet s 0x1000 n) = some k then domFollow s n else s) s)
    else .next (judgedSet s k { j with passes := j.passes + 1 })

/-- LOSS_OF_LOCK (R325, R380, R381): a PLL loses lock, or a lane of port A block lock. -/
def execLossOfLock (clk : Judged) (s : State) : Res := if judgedOn s clk then .next (clockUnstable s clk) else .next s

/-- REFERENCE_RETURN (R325, R383): port A has stayed stable for 1 s beyond its judgement; while it is not UP or not stable, the reference falls back. -/
def execReferenceReturn (s : State) : Res :=
  let j := judgedGet s 0x17
  if !s.tray.hub.trellis then .next s
  else if (portGet s 0).st ≠ .up ∨ !j.stable then .next (refFall s)
  else if domSource s 0x19 = 0 ∧ odGet s 0x1000 0x19 = 2 ∧ refReady s ∧ mget s.clk.halts 0x19 = none then .next (domSwitch s 0x19 2)
  else .next s

/-- A domain restarts: a switch back to a stable source follows at once, else what was written meanwhile takes effect (R383). -/
def haltEnd (s : State) (n : Nat) : State :=
  match mget s.clk.halts n with
  | none => s
  | some h =>
    if s.clk.now < h.until_ then s
    else
      let s := { s with clk := { s.clk with halts := mdel s.clk.halts n } }
      if h.back && domOn s n && sourceStable s n h.old then
        let s := domSwitch s n h.old
        { s with clk := { s.clk with switching := if n = 0x19 then s.clk.switching else n :: s.clk.switching } }
      else if s.clk.switching.contains n then domFollow s n
      else s

/-! ### Spread and the die NoC (R385, R386) -/

/-- The clamp of OD 0x1010: no raise while any partition has a non-terminal Class G request (R385). -/
def spreadClamp (s : State) (v : Nat) : Nat :=
  let cur := odGet s 0x1010 0
  let w := min 50 v
  if w > cur ∧ (s.car.reqs.any fun x => live x.2 && !x.2.classE) then cur else w

/-- SPREAD_DEPTH_WRITE (R385). -/
def execSpreadDepthWrite (rq : DictReq) (v : List Byte) (s : State) : Res :=
  .next (dictWrite s rq 0x1010 0 v spreadClamp fun s _ => s)

/-- DIE_NOC_FREQUENCY_WRITE (R386, R392): the clock slews to the stored frequency; no ratio is checked. -/
def execDieNocFrequencyWrite (rq : DictReq) (d : Die) (v : List Byte) (s : State) : Res :=
  .next (dictWrite s rq 0x1001 (d.val + 1) v (clampRow 0x1001 (d.val + 1)) fun s _ => s)

end Sys2Proof.Machine
end

