-- ==== Sys2Proof/Machine/Pcie.lean ====
section
/-! DEFINITION. The PCI Express port: configuration, function registers, doorbells, moderation, and the end of a function's work (R249, R250, R254, R269, R302, R314, R479 to R498, R503). -/

namespace Sys2Proof.Machine

open Sys2Proof

/-! ### Doorbells (R487, R488, R490) -/

/-- A doorbell's function takes it: BAR decoded, no end in progress, partition ACTIVE (R487, R494, R496). -/
def bellOk (s : State) (f : Vf) : Bool :=
  let x := fnGet s (f.val + 1)
  (partGet s f.val).st == .active && x.st != .quiescing && x.st != .ending && !x.disabling

/-- The place a doorbell value is stored at, as a distance ahead of the stored one, and whether it was clamped: legal up to `limit` (R488). -/
def bellStep (stored limit v : Nat) : Nat × Bool :=
  let d := (v % 65536 + 65536 - stored % 65536) % 65536
  if d ≤ limit then (d, false) else if d < 32768 then (limit, true) else (0, true)

/-- First entry of a submission ring in the function's ring memory (R484). -/
def sqBase (x : FuncS) (r : Nat) : Nat :=
  lsum ((List.range r).map fun i => let n := (mgetD x.sq i {}).log2; if n = 0 then 0 else 2 ^ n)

/-- A submission ring. -/
def sqGet (x : FuncS) (r : Nat) : Sq := mgetD x.sq r {}

/-- A write to a submission tail doorbell (R250, R488, R489). -/
def bellSubmit (s : State) (f : Vf) (r v : Nat) : State :=
  let fn := f.val + 1
  if !barOn s fn then s
  else
    let x := fnGet s fn
    let q := sqGet x r
    if q.log2 = 0 ∨ !bellOk s f then discard s fn
    else
      let size := 2 ^ q.log2
      let (d, bad) := bellStep q.tail (size - (q.tail + 65536 - q.head) % 65536) v
      let base := sqBase x r
      let es : List Taken := (List.range d).map fun i =>
        { f := f, ring := ⟨r % 8, Nat.mod_lt _ (by decide)⟩, entry := mgetD x.ringMem (base + (q.tail + i) % size) 0
          tArrive := s.clk.timebase.toNat % 2 ^ 48, arriveAt := s.clk.now }
      let t := (q.tail + d) % 65536
      let s := fnSet s fn { x with sq := mset x.sq r { q with tail := t, head := t } }
      let s := { s with car := { s.car with taken := s.car.taken ++ es } }
      if bad then hostClamp s fn 1 else s

/-- SUBMISSION_DOORBELL (R250, R260, R488). -/
def execSubmissionDoorbell (f : Vf) (ring : Fin 8) (v : W32) (s : State) : Res := .next (bellSubmit s f ring.val v.toNat)

/-- A write to a Zoetrope command tail doorbell (R296, R488). -/
def bellVideo (s : State) (f : Vf) (v : Nat) : State :=
  let fn := f.val + 1
  if !barOn s fn then s
  else
    let x := fnGet s fn
    let q := x.zq
    if (cqGet x 8).log2 = 0 ∨ !bellOk s f then discard s fn
    else
      let (d, bad) := bellStep q.tail (256 - (q.tail + 65536 - q.head) % 65536) v
      let es : List ZTaken := (List.range d).map fun i => { f := f, entry := mgetD x.zMem ((q.tail + i) % 256) 0, takenAt := s.clk.now }
      let t := (q.tail + d) % 65536
      let s := fnSet s fn { x with zq := { q with tail := t, head := t } }
      let s := { s with zoe := { s.zoe with taken := s.zoe.taken ++ es } }
      if bad then hostClamp s fn 1 else s

/-- ZOETROPE_DOORBELL (R296, R488). -/
def execZoetropeDoorbell (f : Vf) (v : W32) (s : State) : Res := .next (bellVideo s f v.toNat)

/-- A write to a completion head doorbell: the head moves and the backlog drains into the room (R254, R490). -/
def bellHead (s : State) (f : Vf) (c v : Nat) : State :=
  let fn := f.val + 1
  if !barOn s fn then s
  else
    let x := fnGet s fn
    let q := cqGet x c
    if q.log2 = 0 ∨ !bellOk s f then discard s fn
    else
      let (d, bad) := bellStep (q.head % 65536) (q.tail - q.head) v
      let s := fnSet s fn { x with cq := mset x.cq c { q with head := q.head + d } }
      let s := backlogDrain s fn c (backlogOf s fn c).length
      if bad then hostClamp s fn 1 else s

/-- COMPLETION_HEAD_DOORBELL (R254, R490); ring 8 is the video completion ring. -/
def execCompletionHeadDoorbell (f : Vf) (ring : Fin 9) (v : W32) (s : State) : Res := .next (bellHead s f ring.val v.toNat)

/-- MSIX_MODERATION_TIMER (R492): the moderation time has passed since the first entry without a message. -/
def execMsixModerationTimer (f : Vf) (ring : Fin 9) (s : State) : Res :=
  let x := fnGet s (f.val + 1)
  let q := cqGet x ring.val
  if q.log2 ≠ 0 ∧ q.unsent > 0 ∧ q.modTime ≠ 0 ∧ s.clk.now ≥ q.firstAt + q.modTime * 1000 then
    .next (msixSend (fnSet s (f.val + 1) { x with cq := mset x.cq ring.val { q with unsent := 0 } }) (f.val + 1) q.vector)
  else .next s

/-! ### The end of a function's work (R269, R314, R493 to R496) -/

/-- Entries of a function that have been taken and not decided are abandoned (R494). -/
def takenAbandon (s : State) (f : Vf) : State :=
  { s with
    car := { s.car with
      taken := s.car.taken.filter fun t => t.f != f
      pendingLoads := mdel s.car.pendingLoads f.val
      loadHold := s.car.loadHold.filter (· ≠ f.val) }
    zoe := { s.zoe with taken := s.zoe.taken.filter fun t => t.f != f } }

/-- The function's hub DMA descriptors complete with ABORT, and its outstanding reads are abandoned (R494). -/
def hubAbort (s : State) (f : Vf) : State :=
  let fn := f.val + 1
  let tags := (s.dma.outstanding.filter fun x => x.2 == fn).map Prod.fst
  let mine (j : Job) : Bool := j.status.isNone && (match j.origin with | .host g _ _ => g == f | _ => false)
  { s with dma := { s.dma with
    queues := s.dma.queues.map fun q => if q.1 = 68 then (q.1, q.2.map fun j => if mine j then { j with status := some stAbort } else j) else q
    outstanding := s.dma.outstanding.filter fun x => x.2 != fn
    abandoned := tags ++ s.dma.abandoned } }

/-- The FINAL entries that wait for the rings of a disabled function are discarded, and their requests return to FREE (R494, R496). -/
def backlogVoid (s : State) (fn : Nat) : State :=
  each (List.range 9) (fun s c =>
    let l := backlogOf s fn c
    let s := backlogSet s fn c []
    if c = 8 then s else each l freeFinal s) s

/-- Steps 2 to 5 of R494, with completions or without. -/
def workEnd (s : State) (f : Vf) (write : Bool) : State :=
  let s := takenAbandon s f
  let s := partReqsEnd s f.val 17
  let s := hubAbort s f
  let s := sessionsEnd s f.val 17 write
  let s := hubReset s (f.val + 1)
  { s with
    gate := { s.gate with ephem := mdel s.gate.ephem f.val }
    cvu := { s.cvu with step := mdel s.cvu.step f.val } }

/-- Start a quiesce (R493, R494). -/
def quiesceStart (s : State) (f : Vf) : State :=
  let fn := f.val + 1
  let x := fnGet s fn
  if x.st = .quiescing ∨ x.st = .ending then s
  else statusVec (workEnd (fnSet s fn { x with st := .quiescing, quiesce := true }) f true) f.val

/-- A write of FUNC_CTRL: bit 0 only (R486). -/
def ctrlWrite (s : State) (f : Vf) (v : Nat) : State :=
  let fn := f.val + 1
  if !barOn s fn then s
  else
    let s := if v > 1 then hostClamp s fn 1 else s
    if v % 2 = 1 then quiesceStart s f else s

/-- FUNCTION_QUIESCE (R269, R314, R493, R494). -/
def execFunctionQuiesce (f : Vf) (v : W32) (s : State) : Res := .next (ctrlWrite s f v.toNat)

/-- Disable a virtual function: its work ends without completions, its registers and MSI-X return to their defaults (R493, R494). -/
def vfDisable (s : State) (f : Vf) : State :=
  let fn := f.val + 1
  let x := fnGet s fn
  let s := workEnd (fnSet s fn { x with st := .ending, disabling := true }) f false
  let s := backlogVoid s fn
  fnSet s fn { st := .ending, disabling := true, busMaster := x.busMaster, memSpace := x.memSpace, d3hot := x.d3hot }

/-- Disable every virtual function. -/
def allDisable (s : State) : State := each (List.range 16) (fun s p => vfDisable s (vfOf p)) s

/-- The physical function's registers and MSI-X return to their defaults. -/
def pfReset (s : State) : State :=
  let x := fnGet s 0
  fnSet s 0 { busMaster := x.busMaster, memSpace := x.memSpace, d3hot := x.d3hot }

/-- Configuration of every function as after a reset of the link. -/
def configClear (s : State) : State :=
  let s := { s with pcie := { s.pcie with numVfs := 0, vfEnable := false } }
  each (List.range 17) (fun s f => fnSet s f { fnGet s f with busMaster := false, memSpace := false, d3hot := false }) s

/-- What a trigger disables (R493). -/
def disableDo (s : State) (f : Nat) (t : DisableTrigger) : State :=
  match t with
  | .flr => if f = 0 then pfReset (allDisable s) else
      let s := vfDisable s (vfOf (f - 1))
      fnSet s f { fnGet s f with busMaster := false, memSpace := false }
  | .pfFlr => pfReset (allDisable s)
  | .vfEnableCleared => allDisable s
  | .numVfsBelow => if f = 0 then s else vfDisable s (vfOf (f - 1))
  | .busMasterCleared => if f = 0 then s else vfDisable s (vfOf (f - 1))
  | .d3hot => if f = 0 then s else vfDisable s (vfOf (f - 1))
  | .linkDown => configClear (pfReset (allDisable { s with pcie := { s.pcie with linkUp := false } }))
  | .hotReset => configClear (pfReset (allDisable s))

/-- FUNCTION_DISABLE (R269, R480, R493, R494). -/
def execFunctionDisable (f : Func) (t : DisableTrigger) (s : State) : Res :=
  if pcieOn s then .next (disableDo s f.val t) else .next s

/-- Nothing of a function's work is left (R494): no request, descriptor or session. -/
def workDone (s : State) (f : Vf) : Bool :=
  liveReqs s f.val == [] && (mgetD s.dma.queues 68 []).all (fun j => match j.origin with | .host g _ _ => g != f | _ => true)
  && s.zoe.sessions.all fun x => x.2.f != f

/-- FUNCTION_IDLE (R495): the end has completed. -/
def execFunctionIdle (f : Vf) (s : State) : Res :=
  let x := fnGet s (f.val + 1)
  if (x.st = .quiescing ∨ x.st = .ending) ∧ workDone s f then
    .next (statusVec (fnSet s (f.val + 1) { x with st := .idle, disabling := false, quiesce := false }) f.val)
  else .next s

/-! ### Configuration (R482, R493, R503) -/

/-- Device ID (R482). -/
def deviceId (s : State) (f : Nat) : Nat := if f = 0 then partCode s else 0x41F0

/-- A read of configuration space: the identity and class of R482, the command register, and what PCI Express gives the rest (R479). -/
def configRead (s : State) (f reg : Nat) : Nat :=
  let x := fnGet s f
  if reg = 0 then deviceId s f * 65536 + Config.configReg f 0 % 65536
  else if reg = 4 then (if x.memSpace then 2 else 0) + (if x.busMaster then 4 else 0)
  else if reg = 8 then 0x120000 * 256 + Config.configReg f 8 % 256
  else Config.configReg f reg

/-- A configuration request that is not answered with a retry, with what it triggers (R493). -/
def configDo (s : State) (f : Nat) (op : ConfigOp) : State :=
  let x := fnGet s f
  match op with
  | .read _ => s
  | .numVfs n =>
    if f ≠ 0 then s
    else
      let n := min 16 n
      let gone := (List.range 17).filter fun g => decide (n < g) && decide (g ≤ s.pcie.numVfs) && s.pcie.vfEnable
      each gone (fun s g => disableDo s g .numVfsBelow) { s with pcie := { s.pcie with numVfs := n } }
  | .vfEnable on =>
    if f ≠ 0 then s
    else
      let t := { s with pcie := { s.pcie with vfEnable := on } }
      if s.pcie.vfEnable && !on then disableDo t 0 .vfEnableCleared else t
  | .busMaster on =>
    let t := fnSet s f { x with busMaster := on }
    if x.busMaster && !on then disableDo t f .busMasterCleared else t
  | .memSpace on => fnSet s f { x with memSpace := on }
  | .powerState d3 =>
    let t := fnSet s f { x with d3hot := d3 }
    if d3 && !x.d3hot then disableDo t f .d3hot else t
  | .flr => disableDo s f .flr

/-- CONFIG_REQUEST (R482, R493, R503): retried until 600 ms after power good; a link with an unstable REFCLK stays down (R480). -/
def execConfigRequest (f : Func) (op : ConfigOp) (s : State) : Res :=
  if !pcieOn s || !(judgedGet s 41).stable then .next s
  else if s.clk.now < s.tray.powerGoodAt + 600000000 then .next (emit s (.configAnswer f true 0))
  else
    let s := configDo { s with pcie := { s.pcie with linkUp := true } } f.val op
    .next (emit s (.configAnswer f false (match op with | .read r => configRead s f.val r | _ => 0)))

/-- PERST_ASSERT (R503): the PCIe domain alone is reset; every virtual function ends as on a link down. -/
def execPerstAssert (s : State) : Res :=
  if pcieOn s then .next (disableDo { s with pcie := { s.pcie with fwWindow := [] } } 0 .linkDown) else .next s

/-! ### Function registers (R483 to R486) -/

/-- The nearest value of a rising list, the lower on a tie (R468). -/
def nearest (l : List Nat) (v : Nat) : Nat :=
  let dist (a : Nat) : Nat := if a ≤ v then v - a else a - v
  l.foldl (fun b a => if dist a < dist b then a else b) (l.headD 0)

/-- The largest ring of R486 that leaves the function at 4,096 entries, or 0. -/
def sqFits (x : FuncS) (r n : Nat) : Nat :=
  let others := lsum (((List.range 8).filter (· ≠ r)).map fun i => let k := (sqGet x i).log2; if k = 0 then 0 else 2 ^ k)
  (((List.range (n + 1)).filter fun k => decide (6 ≤ k) && decide (others + 2 ^ k ≤ 4096)).getLast?).getD 0

/-- A write of SQ_CFG (R486). -/
def sqCfgWrite (s : State) (fn r v : Nat) : State :=
  let x := fnGet s fn
  let q := sqGet x r
  let n := nearest (0 :: (List.range 7).map (6 + ·)) (v % 32)
  let n := if q.log2 ≠ 0 then (if n = 0 ∧ q.head = q.tail then 0 else q.log2)
    else if n ≠ 0 ∧ (cqGet x 0).log2 = 0 then 0
    else if n = 0 then 0 else sqFits x r n
  let q' : Sq := if n = q.log2 then q else { log2 := n }
  let s := fnSet s fn { x with sq := mset x.sq r q' }
  if n = v then s else hostClamp s fn 1

/-- A write of CQ_BASE or VQ_BASE: 4 KiB aligned; an enabled ring keeps its own (R486). -/
def cqBaseWrite (s : State) (fn c v : Nat) : State :=
  let x := fnGet s fn
  let q := cqGet x c
  let b := if q.log2 ≠ 0 then q.base.toNat else v / 4096 * 4096
  let s := fnSet s fn { x with cq := mset x.cq c { q with base := BitVec.ofNat 64 b } }
  if b = v then s else hostClamp s fn 1

/-- A non-terminal request names a completion ring, or a backlog waits for it (R254, R486). -/
def cqHeld (s : State) (fn c : Nat) : Bool :=
  backlogOf s fn c != [] || (decide (c < 8) && (liveReqs s (fn - 1)).any fun x => x.2.cring == c)

/-- A write of CQ_CFG or VQ_CFG (R486). -/
def cqCfgWrite (s : State) (fn c v : Nat) : State :=
  let x := fnGet s fn
  let q := cqGet x c
  let n := nearest (0 :: (List.range 9).map (8 + ·)) (v % 32)
  let n := if q.log2 = 0 then n else if n = 0 ∧ !cqHeld s fn c then 0 else q.log2
  let vec := min 119 (nfld v 14 8)
  let q' : Cq := if n = q.log2 then { q with vector := vec }
    else { base := q.base, log2 := n, vector := vec, modCount := q.modCount, modTime := q.modTime }
  let x := { x with cq := mset x.cq c q', zq := if c = 8 ∧ n ≠ q.log2 then { log2 := if n = 0 then 0 else 8 } else x.zq }
  let s := fnSet s fn x
  if vec * 256 + n = v then s else hostClamp s fn 1

/-- A write of CQ_MOD or VQ_MOD (R486). -/
def cqModWrite (s : State) (fn c v : Nat) : State :=
  let x := fnGet s fn
  let q := cqGet x c
  let n := max 1 (nfld v 31 16)
  let t := min 1000 (nfld v 15 0)
  let s := fnSet s fn { x with cq := mset x.cq c { q with modCount := n, modTime := t } }
  if n * 65536 + t = v then s else hostClamp s fn 1

/-- The ring of an offset among the completion ring registers, and its register. -/
def cqReg (off : Nat) : Option (Nat × Nat) :=
  if 0x200 ≤ off ∧ off < 0x318 then some ((off - 0x200) / 0x20, (off - 0x200) % 0x20) else none

/-- An offset names a register or a doorbell of a function (R483, R484, R486). -/
def regListed (vf : Bool) (off : Nat) : Bool :=
  decide (off ≤ 0xC)
  || (vf && ((decide (0x100 ≤ off) && decide (off < 0x180) && decide (off % 16 ≤ 8))
    || (decide (0x200 ≤ off) && decide (off < 0x300) && decide (off % 0x20 ≤ 0x14))
    || (decide (0x300 ≤ off) && decide (off ≤ 0x31C))
    || (decide (0x1000 ≤ off) && decide (off < 0xA000) && (off % 0x1000 == 0 || off % 0x1000 == 8))))

/-- A 32-bit write to a register of a virtual function; the read-only ones take nothing (R486). -/
def regWrite (s : State) (fn off v : Nat) : State :=
  let f := vfOf (fn - 1)
  if off = 4 then (if fn = 0 then (if v = 0 then s else hostClamp s 0 1) else ctrlWrite s f v)
  else if fn = 0 then s
  else if 0x100 ≤ off ∧ off < 0x180 then (if off % 16 = 0 then sqCfgWrite s fn ((off - 0x100) / 16) v else s)
  else if 0x1000 ≤ off ∧ off < 0x9000 then
    (if off % 0x1000 = 0 then bellSubmit s f (off / 0x1000 - 1) v else bellHead s f (off / 0x1000 - 1) v)
  else if 0x9000 ≤ off then (if off = 0x9000 then bellVideo s f v else bellHead s f 8 v)
  else
    match cqReg off with
    | none => s
    | some (c, r) =>
      let b := (cqGet (fnGet s fn) c).base.toNat
      match r with
      | 0 => cqBaseWrite s fn c (b / 2 ^ 32 * 2 ^ 32 + v)
      | 4 => cqBaseWrite s fn c (v * 2 ^ 32 + b % 2 ^ 32)
      | 8 => cqCfgWrite s fn c v
      | 12 => cqModWrite s fn c v
      | _ => s

/-- Store bytes into a memory of 64 B entries. -/
def entriesPut (m : SMap W512) (off : Nat) (bs : List Byte) : SMap W512 :=
  bs.zipIdx.foldl (fun m x =>
    let a := off + x.2
    mupd m (a / 64) 0 fun w => put w (8 * (a % 64) + 7) (8 * (a % 64)) x.1.toNat) m

/-- A write to the dictionary window's registers (R474): a command while BUSY is discarded and sets OVERRUN. -/
def windowWrite (s : State) (fn off : Nat) (bs : List Byte) : State :=
  let w := mgetD s.pav.windows fn {}
  let set (w : Window) : State := { s with pav := { s.pav with windows := mset s.pav.windows fn w } }
  let v := leNat bs
  if off < 4 then
    (if w.busy ∨ !pavOn s then set { w with overrun := true }
     else if 1 ≤ v % 16 ∧ v % 16 ≤ 3 then set { w with busy := true } else s)
  else if off = 8 then set { w with len := min 128 (v % 65536) }
  else if 0x40 ≤ off ∧ off < 0xC0 then
    set { w with value := (w.value.take (off - 0x40) ++ bs ++ w.value.drop (off - 0x40 + bs.length)).take 128 }
  else s

/-- A write to a memory region of the BAR, where the offset lies in one (R483 to R485). -/
def regionWrite (s : State) (fn off : Nat) (bs : List Byte) : Option State :=
  let x := fnGet s fn
  if 0x10000 ≤ off ∧ off < 0x10100 then some (windowWrite s fn (off - 0x10000) bs)
  else if 0x12000 ≤ off ∧ off < 0x14000 then some (fnSet s fn { x with mailbox := cellsPutZ x.mailbox (off - 0x12000) bs })
  else if 0x20000 ≤ off ∧ off < 0x20000 + (if fn = 0 then 2048 else 1920) then
    let n := (off - 0x20000) / 4
    let was := (List.range 128).filter (vecMasked x)
    let y := { x with msix := if bs.length = 8 then mset (mset x.msix n (leNat (bs.take 4))) (n + 1) (leNat (bs.drop 4)) else mset x.msix n (leNat bs) }
    let due := x.pendingVec.filter fun v => was.contains v && !vecMasked y v
    some (each due (fun s v => emit s (.msix (funcOf fn) v)) (fnSet s fn { y with pendingVec := x.pendingVec.filter fun v => !due.contains v }))
  else if 0x21000 ≤ off ∧ off < 0x21010 then some s
  else if fn = 0 then
    (if 0x40000 ≤ off ∧ off < 0x80000 then
      some { s with pcie := { s.pcie with fwWindow := cellsPutZ s.pcie.fwWindow (off - 0x40000) bs } }
     else none)
  else if 0x40000 ≤ off ∧ off < 0x80000 then some (fnSet s fn { x with ringMem := entriesPut x.ringMem (off - 0x40000) bs })
  else if 0x80000 ≤ off ∧ off < 0x84000 then some (fnSet s fn { x with zMem := entriesPut x.zMem (off - 0x80000) bs })
  else none

/-- A host write to a BAR offset of a size in bytes (R485): a region takes any size, a register aligned writes of 32 or 64 bits, and every other write is discarded. -/
def barWrite (s : State) (fn off size v : Nat) : State :=
  if !barOn s fn then s
  else
    match regionWrite s fn off (leBytes size v) with
    | some t => t
    | none =>
      let lo := regListed (fn != 0) off
      let hi := size == 8 && regListed (fn != 0) (off + 4)
      if !(size == 4 || size == 8) || off % size != 0 || !(lo || hi) then discard s fn
      else
        match cqReg off with
        | some (c, 0) => if size = 8 ∧ fn ≠ 0 then cqBaseWrite s fn c v else regWrite s fn off v
        | _ =>
          let s := if lo then regWrite s fn off (v % 2 ^ 32) else s
          if hi then regWrite s fn (off + 4) (v / 2 ^ 32) else s

/-- FUNCTION_REGISTER_WRITE (R249, R302, R485, R486, R498). -/
def execFunctionRegisterWrite (f : Func) (off size : Nat) (v : BitVec 64) (s : State) : Res := .next (barWrite s f.val off size v.toNat)

/-- A write is one that R485 discards. -/
def writeBad (s : State) (fn off size : Nat) : Bool :=
  (regionWrite s fn off []).isNone
  && (!(size == 4 || size == 8) || off % size != 0 || !(regListed (fn != 0) off || (size == 8 && regListed (fn != 0) (off + 4))))

/-- BAR_WRITE_DISCARD (R485): counted in DISCARDS. -/
def execBarWriteDiscard (f : Func) (off size : Nat) (s : State) : Res :=
  if barOn s f.val && writeBad s f.val off size then .next (discard s f.val) else .next s

/-! ### Poison and timeouts (R481, R494) -/

/-- POISONED_TLP (R162, R481): a completion ends its descriptor with HOST, a BAR write is discarded; both are reported through AER. -/
def execPoisonedTlp (p : Poison) (s : State) : Res :=
  match p with
  | .completion tag =>
    match mget s.dma.outstanding tag with
    | some f => .next (emit (hostReadFail s tag []) (.aer (funcOf f)))
    | none => .next s
  | .barWrite f _ => if barOn s f.val then .next (emit (discard s f.val) (.aer f)) else .next s

/-- COMPLETION_TIMEOUT (R162, R494): an outstanding read ends, or an abandoned tag may be used again. -/
def execCompletionTimeout (tag : Nat) (s : State) : Res :=
  match mget s.dma.outstanding tag with
  | some _ => .next (hostReadFail s tag [])
  | none => .next { s with dma := { s.dma with abandoned := s.dma.abandoned.filter (· ≠ tag) } }

end Sys2Proof.Machine
end

