-- ==== Sys2Proof/Machine/Objects.lean ====
section
/-! DEFINITION. What each object of the dictionary reads as (R97, R137, R174, R175, R206, R237, R270, R289, R315, R346, R375 to R377, R392, R393, R420, R421, R433, R452, R476, R477, R518, R546). -/

namespace Sys2Proof.Machine

open Sys2Proof

/-! ### Values derived from the blocks -/

/-- The security version that a component runs: its last measurement (R397, R398, R476). -/
def runningVer (s : State) (c : Nat) : Nat :=
  match (s.tray.measurements.filter fun m => m.comp == c).getLast? with
  | some m => m.secVer
  | none => 0

/-- OD 0x1003: state and source in use; 0 off until the domain is powered (R384, R392). -/
def domStatus (s : State) (n : Nat) : Nat :=
  if !domOn s n then 0
  else (if s.clk.switching.contains n || (mget s.clk.halts n).isSome then 2 else if clkRuns s n then 1 else 3) * 64 + domSource s n

/-- Elapsed ns since the last valid edge, in HOLDOVER only (R389). -/
def holdoverNs (s : State) : Nat :=
  match s.clk.mode, s.clk.lastEdge with
  | .holdover, some (t, _) => s.clk.now - t
  | _, _ => 0

/-- OD 0x1102 (R388). -/
def tbModeCode : TbMode → Nat
  | .free => 0 | .locked => 1 | .holdover => 2

/-- OD 0x1400.03: mean of the last 100 µs, or of the time measured so far (R375). -/
def inputAvg (s : State) : Nat :=
  match s.wv.avgs with
  | a :: _ => a
  | [] => s.wv.acc.1 / max 1 s.wv.acc.2

/-- OD 0x1400.04: mean of the last second, or of the time measured so far (R375). -/
def inputAvgSecond (s : State) : Nat :=
  let l := s.wv.avgs
  if l.length < 10000 then (lsum l * 100 + s.wv.acc.1) / max 1 (l.length * 100 + s.wv.acc.2) else lsum l / l.length

/-- OD 0x1505 (R376). -/
def thermalState (s : State) : Nat :=
  if s.wv.shuttingDown then 4
  else if s.wv.quads.any fun x => x.2.emergency then 3
  else if s.wv.rideThrough then 2
  else if (s.wv.quads.any fun x => decide (x.2.tempCeil < 1500)) || (s.wv.hbmCeil.any fun x => decide (x.2.1 < 1500)) then 1
  else 0

/-- The F32 of OD 0x4026: 1.03 ÷ (1 − d), which lies in [1, 2) (R131). -/
def beatFactor (s : State) : Nat :=
  let den := 10000 - spread s
  0x3F800000 + ((10300 * 2 ^ 23 + den / 2) / den - 2 ^ 23)

/-- SHA-384 of the function tables (OD 0x4000.02). -/
def tableDigest : Nat :=
  (Config.sha384 ((expC0 ++ expC1 ++ expC2 ++ expC3 ++ logD0 ++ logD1 ++ logD2 ++ logD3).flatMap fun x => leBytes 4 (ux 32 x))).toNat

/-- Code of a port's state (OD 0x6000). -/
def portCode : PortState → Nat
  | .down => 0 | .training => 1 | .hello => 2 | .up => 3 | .refused => 4

/-- OD 0x6000. -/
def portStatus (s : State) (p : Nat) : Nat :=
  let x := portGet s p
  portCode x.st * 2 ^ 28 + x.lanes % 16 * 2 ^ 24 + x.peerGen % 16 * 2 ^ 20 + x.refusal % 16 * 2 ^ 16

/-- OD 0x6031. -/
def peerStatus (s : State) (slot : Nat) : Nat :=
  match mget s.trl.peers slot with
  | none => 0
  | some x => x.mhz % 65536 * 65536 + x.causes.toNat * 256 + min 255 ((s.clk.now - x.at_) / 1000)

/-- Code of a pair role (OD 0x6402). -/
def roleCode : Role → Nat
  | .unpaired => 0 | .active => 1 | .standby => 2 | .joining => 3 | .takingOver => 4 | .rehearsing => 5 | .failed => 6
  | .follower => 7

/-- OD 0x6407. -/
def rehearsalStatus (s : State) : Nat :=
  match s.pair.lastRehearsal with
  | none => 0
  | some (t, bad) => (if bad then 2 ^ 31 else 0) + min 65535 ((s.clk.now - t) / 3600000000000)

/-- State of a variant in OD 0x3801, bits 15:14 (R285, R289). -/
def variantCode (s : State) (p v : Nat) : Nat :=
  match mget s.variants (varKey p v) with
  | none => 0
  | some x => match x.st with | .loading => 1 | .active => 2 | .retiring => 3

/-- OD 0x5411 (R402, R421). -/
def slotStatus (s : State) (n : Nat) : Nat :=
  let k := keySlot s n
  kindCode k.kind * 4096 + k.cur % 16 * 256 + (match k.old with | some (g, _) => g % 16 * 16 + 8 | none => 0)

/-- OD 0x5412 (R411, R421). -/
def sweepLeft (s : State) (p : Nat) : Nat :=
  match mget s.gate.sweeps p with
  | none => 0
  | some w => lsum (w.left.map fun l => (sweepLive s p l).length)

/-- OD 0x5006 (R414, R420). -/
def scrubLeft (s : State) (p : Nat) : Nat :=
  ((granKeys s).filter fun g => (granGet s g).owner.toNat == p && (granGet s g).st == .scrubbing).length

/-- OD 0x4022 (R99, R137): first granule's bundle address, and size. -/
def ctxRegion (s : State) (c : Nat) : Nat :=
  let x := ctxGet s c
  x.granules.headD 0 * 256 * 65536 + x.granules.length * 256

/-- Code of an update state (OD 0x7E00.01). -/
def updCode : UState → Nat
  | .idle => 0 | .receiving => 1 | .verifying => 2 | .verified => 3 | .armed => 4 | .activating => 5

/-- Sequence number of a log record (R543). -/
def recSeq (r : W512) : Nat := fld r 511 448

/-- OD 0x7C00.03 (R477). -/
def logOldest (s : State) : Nat :=
  match s.pav.log.getLast? with
  | some r => recSeq r
  | none => s.pav.nextSeq

/-- OD 0x7C00.04 (R477). -/
def logNewest (s : State) : Nat :=
  match s.pav.log with
  | r :: _ => recSeq r
  | [] => s.pav.nextSeq - 1

/-- Frames of a partition's pool in all, and FREE. -/
def poolFrames (s : State) (p : Nat) : Nat := lsum ((List.range 4).map fun d => (framesOf (poolGet s p) d).length)

/-- Identity and management objects. -/
def odIdentity (s : State) (idx sub : Nat) : Option Nat :=
  match idx with
  | 0x0002 => some s.tray.slotId.toNat
  | 0x0003 => some (runningVer s (sub - 1))
  | 0x0401 => some ((s.pav.sessions.filter fun x => x.2.isOpen).length)
  | 0x0407 => some (if claimed s then 1 else 0)
  | 0x5400 => some s.fuses.serial.toNat
  | 0x5401 => some (partCode s)
  | 0x5402 => some (lifeCode s)
  | 0x5403 => some (perturbWord s)
  | 0x5406 => some (fuseFlags s)
  | 0x5407 => some (s.fuses.floors.getD (sub - 1) 0)
  | 0x5411 => some (slotStatus s (sub - 1))
  | 0x5412 => some (sweepLeft s (sub - 1))
  | 0x5002 => some (pstateCode (partGet s (sub - 1)).st)
  | 0x5004 => some (inFlight s (sub - 1))
  | 0x5006 => some (scrubLeft s (sub - 1))
  | 0x7C00 =>
    (match sub with
     | 1 => some s.pav.log.length
     | 3 => some (logOldest s)
     | 4 => some (logNewest s)
     | _ => none)
  | 0x7C22 => some s.flash.fencedQuads.toNat
  | 0x7C23 => some (s.flash.fencedDies.toNat + 16 * s.flash.fencedPorts.toNat)
  | 0x7C24 => some s.flash.retired.length
  | 0x7E00 =>
    (match sub with
     | 1 => some (updCode s.upd.st)
     | 2 => some s.upd.result
     | 3 => some ((if s.upd.gotHeader then 1 else 0) + s.upd.blocks.length)
     | 4 => some s.upd.busy.toNat
     | _ => some (if s.upd.gotHeader then s.upd.image.comp % 16 * 4096 + s.upd.image.secVer % 128 else 0))
  | 0x7E03 => some s.upd.armed.toNat
  | _ => none

/-- Objects of clocks, power, temperature and the pair. -/
def odPlant (s : State) (idx sub : Nat) : Option Nat :=
  match idx with
  | 0x1003 => some (domStatus s sub)
  | 0x1100 => some (tbNat s)
  | 0x1102 => some (tbModeCode s.clk.mode)
  | 0x1104 => some (if sub = 1 then holdoverNs s / 1000000000 else holdoverNs s * 500 / 1000000000)
  | 0x1400 =>
    (match sub with
     | 2 => some (effCap s / 1000)
     | 3 => some (inputAvg s / 1000)
     | 4 => some (inputAvgSecond s / 1000)
     | _ => none)
  | 0x1405 => some s.wv.causes.toNat
  | 0x1407 => some (if s.tray.quadOn.getLsbD (sub - 1) then (qwGet s (sub - 1)).clkAvg * (20000 - spread s) / 20000 else 0)
  | 0x1408 => some (qwGet s (sub - 1)).causes.toNat
  | 0x1409 => some (s.wv.pneedMw / 1000)
  | 0x1500 => some (ux 32 ((govTemp s (sub - 1)).getD 0))
  | 0x1501 => let x := mgetD s.wv.pairs (sub - 1) {}; some (ux 16 x.a * 65536 + ux 16 x.b)
  | 0x1502 => some (ux 32 (mgetD s.wv.hbmTemp (sub - 1) 0))
  | 0x1503 => some (ux 32 (match sub with | 1 => s.wv.inlet.getD 0 | 2 => s.wv.outlet | _ => if s.wv.tinTaken then s.wv.tin else 0))
  | 0x1505 => some (thermalState s)
  | 0x6000 => some (portStatus s (sub - 1))
  | 0x6005 => some (if s.tray.hub.trellis && domSource s 0x19 == 2 then 0 else 1)
  | 0x6031 => some (peerStatus s (sub - 1))
  | 0x6402 => some (roleCode s.pair.role + (if s.pair.degraded then 128 else 0))
  | 0x6404 => some s.pair.lastAck
  | 0x6407 => some (rehearsalStatus s)
  | _ => none

/-- Objects of memory, serving, variants, sequencers, check values and video. -/
def odServing (s : State) (idx sub : Nat) : Option Nat :=
  let p := sub - 1
  match idx with
  | 0x2000 => some (match s.fuses.part with | .kft4120 => 24576 | .kft4136 => 36864)
  | 0x2013 => some (granulesHeld s p)
  | 0x3021 => some (lsum ((List.range 4).map fun d => (freeFrames (poolGet s p) d).length))
  | 0x3022 => some (lsum ((List.range 4).map (reservedOn s p)))
  | 0x3023 => some (framesIn (poolGet s p) .quarantine).length
  | 0x3031 => some (if s.kv.rebuild.isSome then 1 else 0)
  | 0x3034 => some (s.kv.epoch % 2 ^ 32)
  | 0x3801 => let v := odGet s 0x3801 sub; some (v + variantCode s p (nfld v 27 16) * 2 ^ 14)
  | 0x3802 => some (varsOf s p).length
  | 0x3803 => some (((imageOf s p).map fun l => l.img.varPerStep).getD 0)
  | 0x3804 => some (((imageOf s p).map fun l => l.img.maxTiles).getD 0)
  | 0x4000 => if sub = 2 then some tableDigest else none
  | 0x4020 => some (((ctxGet s p).part.map Fin.val).getD 0xFF)
  | 0x4021 => some (ctxGet s p).laneMask.toNat
  | 0x4022 => some (ctxRegion s p)
  | 0x4026 => some (beatFactor s)
  | 0x6801 => some (hubGet s sub).run.toNat
  | 0x6802 => some (hubGet s sub).check.toNat
  | 0x7002 => let x := vDensitySum s false []; some (x.1 / max 1 x.2)
  | 0x7003 => some (vRateSum s false)
  | 0x7004 => let x := vDensitySum s true []; some (x.1 / max 1 x.2)
  | 0x7005 => some (vRateSum s true)
  | _ => none

/-- The value of an object: derived from its block where it reports one, else as stored. -/
def odValue (s : State) (idx sub : Nat) : Nat :=
  match odIdentity s idx sub with
  | some v => v
  | none =>
    match odPlant s idx sub with
    | some v => v
    | none => (odServing s idx sub).getD (odGet s idx sub)

/-! ### The log through a source's cursor (R473, R475, R477) -/

/-- Partition whose records alone a source sees; none for a session and the physical function. -/
def srcPart : DictSrc → Option Nat
  | .session _ => none
  | .window f => if f.val = 0 then none else some (f.val - 1)

/-- A source's cursor, never before the oldest record. -/
def cursorGet (s : State) (src : DictSrc) : Nat :=
  max (logOldest s)
    (match src with
     | .session sid => ((mget s.pav.sessions sid.val).map Sess.cursor).getD 1
     | .window f => (mgetD s.pav.windows f.val {}).cursor)

/-- Move a source's cursor. -/
def cursorSet (s : State) (src : DictSrc) (n : Nat) : State :=
  match src with
  | .session sid =>
    (match mget s.pav.sessions sid.val with
     | some x => { s with pav := { s.pav with sessions := mset s.pav.sessions sid.val { x with cursor := n } } }
     | none => s)
  | .window f => { s with pav := { s.pav with windows := mset s.pav.windows f.val { mgetD s.pav.windows f.val {} with cursor := n } } }

/-- The record at a source's cursor: the oldest from there on that the source sees. -/
def recordAt (s : State) (src : DictSrc) : Option W512 :=
  let c := cursorGet s src
  (s.pav.log.filter fun r => decide (c ≤ recSeq r) && (match srcPart src with | some p => fld r 367 360 == p | none => true)).getLast?

/-- Read OD 0x7C02: the record, and the cursor past it; zeros when none remains. -/
def recordRead (s : State) (src : DictSrc) : List Byte × State :=
  match recordAt s src with
  | some r => (leBytes 64 r.toNat, cursorSet s src (recSeq r + 1))
  | none => (leBytes 64 0, s)

/-- The bytes that a READ returns, and the state after it. -/
def odReadBytes (s : State) (src : DictSrc) (idx sub size : Nat) : List Byte × State :=
  if idx = 0x7C02 then recordRead s src
  else if idx = 0x7C01 then (leBytes size (cursorGet s src), s)
  else (leBytes size (odValue s idx sub), s)

/-! ### Status lights (R531) -/

/-- How a light shows. -/
inductive Light
  | off | slow | on | fast
  deriving DecidableEq, Repr

/-- POWER. -/
def lightPower (s : State) : Light := if s.tray.mainGood then .on else if s.tray.hub.aux then .slow else .off

/-- An amber STATE. -/
def stateAmber (s : State) : Bool :=
  s.pair.role == .failed || decide (2 ≤ thermalState s) || s.wv.pairs.any fun x => x.2.alert == .alarm

/-- STATE, green or amber. -/
def lightState (s : State) : Light :=
  if s.pair.role == .failed then .on
  else if stateAmber s then .slow
  else
    match s.pair.role with
    | .active | .follower => .on
    | .unpaired => if s.tray.ready then .on else if s.tray.mainGood then .fast else .off
    | .standby => .slow
    | _ => .fast

/-- REMOVE. -/
def lightRemove (s : State) : Light :=
  if s.tray.drain == .inProgress || s.pair.role == .takingOver then .fast
  else if s.pair.role == .failed || (s.pair.role == .unpaired && activeParts s == []) || s.tray.drain == .completed then .on
  else .off

end Sys2Proof.Machine
end

