-- ==== Sys2Proof/Machine/HubCvu.lean ====
section
/-! DEFINITION. The hub check-value contexts that a host sets, saves, restores and closes (R424 to R430, R433). -/

namespace Sys2Proof.Machine

open Sys2Proof

/-- The clamp of OD 0x6800: VER 1, WIDTH 8 to 64, FOLD 0 to 1, reserved bits and bits at or above WIDTH cleared (R424, R433). -/
def settingClamp (_ : State) (v : Nat) : Nat :=
  let w := min 64 (max 8 (nfld v 251 245))
  let low (hi lo : Nat) : Nat := nfld v hi lo % 2 ^ w
  2 ^ 252 + w * 2 ^ 245 + nfld v 244 242 * 2 ^ 242 + min 1 (nfld v 241 240) * 2 ^ 240 + nfld v 239 239 * 2 ^ 239
    + low 191 128 * 2 ^ 128 + low 127 64 * 2 ^ 64 + low 63 0

/-- HUB_CVU_SETTING_WRITE (R429, R430): from the next unit; the running value is unchanged. -/
def execHubCvuSettingWrite (rq : DictReq) (f : Vf) (v : List Byte) (s : State) : Res :=
  let n := f.val + 1
  .next (dictWrite s rq 0x6800 n v settingClamp fun s w => hubSet s n { hubGet s n with setting := BitVec.ofNat 256 w })

/-- The clamp of OD 0x6801: bits at or above WIDTH cleared (R433). -/
def runningClamp (n : Nat) (s : State) (v : Nat) : Nat := v % 2 ^ cvW (hubGet s n).setting

/-- HUB_CVU_RUNNING_WRITE (R426, R430): between units. -/
def execHubCvuRunningWrite (rq : DictReq) (f : Vf) (v : List Byte) (s : State) : Res :=
  let n := f.val + 1
  .next (dictWrite s rq 0x6801 n v (runningClamp n) fun s w => hubSet s n { hubGet s n with run := BitVec.ofNat 64 w })

/-- Close a hub context: its check value, the comparison, and INIT again (R426, R427, R491). -/
def hubClose (s : State) (n : Nat) : State :=
  let h := hubGet s n
  let s := hubSet s n { h with check := cvCheck h.setting h.run, run := cvInit h.setting }
  if cvMismatch h.setting h.run then msixSend (bump32 s 0x6804 n) n 10 else s

/-- HUB_CVU_CLOSE (R426, R427, R430, R433). -/
def execHubCvuClose (rq : DictReq) (f : Vf) (v : List Byte) (s : State) : Res :=
  let n := f.val + 1
  .next (dictWrite s rq 0x6803 n v (clampRow 0x6803 n) fun s w => odSet (if w = 1 then hubClose s n else s) 0x6803 n 0)

end Sys2Proof.Machine
end

