-- ==== Sys2Proof/Machine/Pavilion.lean ====
section
/-! DEFINITION. Pavilion: the management network, messages, sessions, operations on objects, subscriptions, restart, credentials, the error log and the counter clears (R25, R453 to R477). -/

namespace Sys2Proof.Machine

open Sys2Proof

/-! ### The management ports (R453, R454) -/

/-- The interface identifier's link-local address, in network byte order (R454). -/
def linkLocal (s : State) (seg : Fin 2) : List Byte :=
  beBytes 8 0xFE80000000000000 ++ beBytes 8 (0x0200574100000000 + s.tray.slotId.toNat * 2 + seg.val)

/-- The unique-local address of a segment; zero is none (R454). -/
def uniqueLocal (s : State) (seg : Fin 2) : List Byte := leBytes 16 (odGet s 0x0402 (seg.val + 1))

/-- ICMPV6_MESSAGE (R454): an echo is answered with its body, a solicitation of an own address with that address. -/
def execIcmpv6Message (seg : Fin 2) (echo : Bool) (body : List Byte) (s : State) : Res :=
  let own := body == linkLocal s seg || (body == uniqueLocal s seg && odGet s 0x0402 (seg.val + 1) != 0)
  if pavOn s && (echo || own) then .next (emit s (.icmp seg body)) else .next s

/-- The node ID on both segments lies above the node count (R453). -/
def nodeBeyond (s : State) : Bool := decide (odGet s 0x0403 1 + s.tray.slotId.toNat > odGet s 0x0403 2)

/-- SEGMENT_STATUS_CHANGE (R453, R476): 0 down, 1 PLCA, 2 CSMA/CD fallback, where a node ID above the count always falls. -/
def execSegmentStatusChange (seg : Fin 2) (st : Fin 3) (s : State) : Res :=
  if s.tray.hub.pavilion then
    .next (odSet s 0x0404 (seg.val + 1) (if st = 1 ∧ nodeBeyond s then 2 else st.val))
  else .next s

/-! ### Datagrams and messages (R455, R456) -/

/-- A message dropped under R456 counts. -/
def dropCount (s : State) : State := bump32 s 0x0406 2

/-- The session of a session ID. -/
def sessOf (s : State) (sid : W32) : Option (Nat × Sess) :=
  if sid = 0 then none else (mget s.pav.sessions (sid.toNat - 1)).map fun x => (sid.toNat - 1, x)

/-- Replace a session. -/
def sessSet (s : State) (n : Nat) (x : Sess) : State := { s with pav := { s.pav with sessions := mset s.pav.sessions n x } }

/-- End a session with its subscriptions, kept responses and key (R461, R465). -/
def sessEnd (s : State) (n : Nat) : State := { s with pav := { s.pav with sessions := mdel s.pav.sessions n } }

/-- A SEQ that the session has not accepted and still takes (R456). -/
def seqFresh (x : Sess) (q : Nat) : Bool := decide (q > x.rxHigh) || (decide (q + 64 ≥ x.rxHigh) && !x.rxSeen.contains q)

/-- Note an accepted SEQ, and the time and segment of its message (R456, R461). -/
def seqTake (s : State) (x : Sess) (q : Nat) (seg : Fin 2) : Sess :=
  let hi := max x.rxHigh q
  { x with rxHigh := hi, rxSeen := (q :: x.rxSeen).filter fun n => decide (n + 64 ≥ hi), lastAt := s.clk.now, seg := seg }

/-- The header of fragment 0 of a message, the additional data of its cipher (R455, R456). -/
def msgHeader (typ count : Nat) (sid : W32) (seq : Nat) : List Byte :=
  [1, BitVec.ofNat 8 typ, BitVec.ofNat 8 (count - 1), 0] ++ leBytes 4 sid.toNat ++ leBytes 8 seq

/-- Queue a message for the step that its type names. -/
def inboxPut (s : State) (m : Msg) : State := { s with pav := { s.pav with inbox := s.pav.inbox ++ [m] } }

/-- Send a message of a session, under its next SEQ (R456, R461). -/
def sessSend (s : State) (n : Nat) (x : Sess) (typ : Nat) (body : List Byte) : State :=
  emit (sessSet s n { x with txSeq := x.txSeq + 1 }) (.datagram x.seg typ (sessNo n) x.txSeq body)

/-- Take a whole message (R455, R456, R464): a kept request ID gets its kept RESPONSE again. -/
def msgTake (s : State) (seg : Fin 2) (typ count : Nat) (sid : W32) (seq : Nat) (bs : List Byte) : State :=
  if typ = 1 ∨ typ = 6 then inboxPut s { typ := typ, sid := sid, body := bs, seg := seg }
  else if !(typ = 4 ∨ typ = 8 ∨ typ = 11) then s
  else
    match sessOf s sid with
    | none => dropCount s
    | some (n, x) =>
      if !seqFresh x seq ∨ x.isOpen = (typ == 4) then dropCount s
      else
        let ct := bs.take (bs.length - 16)
        match Config.gcmOpen x.rxKey seq (msgHeader typ count sid seq) ct (leNat (bs.drop (bs.length - 16))) with
        | none => dropCount s
        | some pt =>
          let x := seqTake s x seq seg
          let s := sessSet s n x
          match (if typ = 8 then x.responses.find? fun r => r.1.toNat == leNat (pt.take 4) else none) with
          | some r => sessSend s n x 9 r.2
          | none => inboxPut s { typ := typ, sid := sid, body := pt, seg := seg }

/-- A fragment belongs to a message being assembled. -/
def fragOf (sid : W32) (seq : Nat) (f : Frag) : Bool := f.sid == sid && f.seq.toNat == seq

/-- DATAGRAM_RECEIVE (R454 to R456, R464, R471). -/
def execDatagramReceive (seg : Fin 2) (udpPort : Nat) (payload : List Byte) (s : State) : Res :=
  let b (i : Nat) : Nat := (payload.getD i 0).toNat
  let typ := b 1
  let (i, count) := (b 2 / 16, b 2 % 16 + 1)
  let sid : W32 := BitVec.ofNat 32 (leNat ((payload.drop 4).take 4))
  let seq := leNat ((payload.drop 8).take 8)
  if !pavOn s ∨ udpPort ≠ 30120 ∨ payload.length < 16 ∨ payload.length > 1232 ∨ b 0 ≠ 1 ∨ typ = 0 ∨ typ > 11 ∨ i ≥ count then .next s
  else
    let body := payload.drop 16
    if count = 1 then .next (msgTake s seg typ 1 sid seq body)
    else
      let f := (s.pav.frags.find? (fragOf sid seq)).getD
        { sid := sid, seq := BitVec.ofNat 64 seq, typ := typ, count := count, parts := [], firstAt := s.clk.now, seg := seg }
      let rest := s.pav.frags.filter fun g => !fragOf sid seq g
      if f.typ ≠ typ ∨ f.count ≠ count ∨ s.clk.now > f.firstAt + 1000000000 then .next s
      else
        let parts := if (mget f.parts i).isSome then f.parts else mset f.parts i body
        if parts.length = count then
          .next (msgTake { s with pav := { s.pav with frags := rest } } seg typ count sid seq (parts.flatMap Prod.snd))
        else .next { s with pav := { s.pav with frags := { f with parts := parts } :: rest } }

/-- FRAGMENT_TIMEOUT (R455): 1 s after the first fragment. -/
def execFragmentTimeout (sid : W32) (seq : BitVec 64) (s : State) : Res :=
  .next { s with pav := { s.pav with
    frags := s.pav.frags.filter fun f => !(fragOf sid seq.toNat f && decide (s.clk.now ≥ f.firstAt + 1000000000)) } }

/-! ### Opening and ending a session (R457 to R461) -/

/-- Remove the first queued message that a step has taken up. -/
def inboxDrop (s : State) (p : Msg → Bool) : State := { s with pav := { s.pav with inbox := s.pav.inbox.eraseP p } }

/-- A session number for a new session: a free one, else that of a handshake in progress, the lowest first; none while 8 are open. -/
def sessFree (s : State) : Option Nat :=
  match (List.range 8).find? fun n => (mget s.pav.sessions n).isNone with
  | some n => some n
  | none => (List.range 8).find? fun n => match mget s.pav.sessions n with | some x => !x.isOpen | none => false

/-- HELLO_REJECT, with the tray's own range (R457). -/
def helloReject (s : State) (seg : Fin 2) : State := emit s (.datagram seg 3 0 0 [1, 1])

/-- HELLO (R457, R458). -/
def execHello (seg : Fin 2) (body : List Byte) (s : State) : Res :=
  if !pavOn s || !s.tray.hub.gatehouse || s.gate.identityOff || body.length != 1252 then .next s
  else
    let s := inboxDrop s fun m => m.typ == 1 && m.seg == seg && m.body == body
    let b (i : Nat) : Nat := (body.getD i 0).toNat
    match sessFree s with
    | none => .next (helloReject s seg)
    | some n =>
      if b 0 > 1 ∨ b 1 < 1 then .next (helloReject s seg)
      else
        let nonce := Config.freeNat s.freeCtr
        let priv := Config.freeNat (s.freeCtr + 1)
        let (ct, ss) := Config.mlkemEncap (leNat ((body.drop 68).take 1184)) (Config.freeNat (s.freeCtr + 2))
        let ack := [1, 0, 0, 0] ++ leBytes 4 (n + 1) ++ leBytes 32 nonce ++ leBytes 32 (Config.x25519Pub priv) ++ leBytes 1088 ct
        let h := Config.sha384 (body ++ ack)
        let ikm := Config.x25519 priv (leNat ((body.drop 36).take 32)) + ss * 2 ^ 256
        let x : Sess :=
          { cred := b 2, rxKey := Config.hkdf ikm h.toNat "mlrn mg s2t", txKey := Config.hkdf ikm h.toNat "mlrn mg t2s"
            transcript := h, lastAt := s.clk.now, seg := seg, cursor := logOldest s }
        let s := sessSet (freeSteps s 3) n x
        .next (emit s (.datagram seg 2 0 0
          (ack ++ leBytes 64 (Config.ed25519Sign Config.uds h) ++ leBytes 3309 (Config.mldsaSign Config.uds h))))

/-- The bytes "mlrn auth". -/
def authText : List Byte := [0x6D, 0x6C, 0x72, 0x6E, 0x20, 0x61, 0x75, 0x74, 0x68]

/-- Code of a role in a credential entry (R476). -/
def roleOfCode : Nat → Role'
  | 1 => .monitor
  | 2 => .operator
  | 3 => .officer
  | 4 => .test
  | _ => .none

/-- A credential entry admits the keys and signatures of an AUTH body (R458). -/
def authOk (s : State) (x : Sess) (body : List Byte) : Bool :=
  let e := odGet s 0x0400 x.cred
  let ed := body.take 32
  let ml := (body.drop 32).take 1952
  let d := Config.sha384 (leBytes 48 x.transcript.toNat ++ authText)
  decide (1 ≤ x.cred) && decide (x.cred ≤ 16) && body.length == 5357 && e % 256 != 0
  && (Config.sha384 ed).toNat == e / 2 ^ 32 % 2 ^ 384 && (Config.sha384 ml).toNat == e / 2 ^ 416 % 2 ^ 384
  && Config.ed25519Verify (leNat ed) d (leNat ((body.drop 1984).take 64))
  && Config.mldsaVerify (leNat ml) d (leNat (body.drop 2048))

/-- AUTH (R458): the session opens with the entry's role, or ends without an answer and counts. -/
def execAuth (sid : Fin 8) (body : List Byte) (s : State) : Res :=
  match mget s.pav.sessions sid.val with
  | none => .next s
  | some x =>
    if !pavOn s || x.isOpen then .next s
    else
      let s := inboxDrop s fun m => m.typ == 4 && m.sid == sessNo sid.val && m.body == body
      if authOk s x body then
        let code := odGet s 0x0400 x.cred % 256
        .next (sessSend s sid.val { x with isOpen := true, role := roleOfCode code } 5 [BitVec.ofNat 8 code])
      else .next (bump32 (sessEnd s sid.val) 0x0406 1)

/-- SESSION_CLOSE (R461). -/
def execSessionClose (sid : Fin 8) (s : State) : Res :=
  if pavOn s then .next (inboxDrop (sessEnd s sid.val) fun m => m.typ == 11 && m.sid == sessNo sid.val) else .next s

/-- SESSION_IDLE_TIMEOUT (R461): OD 0x0405 seconds without an accepted message. -/
def execSessionIdleTimeout (sid : Fin 8) (s : State) : Res :=
  match mget s.pav.sessions sid.val with
  | some x => if s.clk.now ≥ x.lastAt + odGet s 0x0405 0 * 1000000000 then .next (sessEnd s sid.val) else .next s
  | none => .next s

/-- CREDENTIAL_WRITE (R459 to R461, R472, R476): sessions of a changed entry end; one whose write leaves the table UNCLAIMED stays open. -/
def execCredentialWrite (rq : DictReq) (slot : Fin 16) (v : List Byte) (s : State) : Res :=
  let n := slot.val + 1
  let old := odGet s 0x0400 n
  .next (dictWrite s rq 0x0400 n v (fun _ v => (if v % 256 > 4 then 0 else v % 256) + v / 2 ^ 32 * 2 ^ 32) fun s w =>
    if w = old then s
    else
      let keep (k : Nat) : Bool := match rq.src with | .session sid => k == sid.val && !claimed s | .window _ => false
      { s with pav := { s.pav with sessions := s.pav.sessions.filter fun x => x.2.cred != n || keep x.1 } })

/-! ### Restart (R25, R471, R472) -/

/-- Pavilion restarts: every session and message in progress ends; objects, log and clamp counters stay. -/
def pavRestart (s : State) : State :=
  { s with pav := { s.pav with sessions := [], frags := [], inbox := [], restarting := true } }

/-- PAVILION_RESTART (R471): on its own fault, or a write of 1 to OD 0x0408. -/
def execPavilionRestart (t : RestartTrigger) (s : State) : Res :=
  match t with
  | .fault => if s.tray.hub.pavilion then .next (pavRestart s) else .next s
  | .write rq v => .next (dictWrite s rq 0x0408 0 v (clampRow 0x0408 0) fun s w => odSet (if w = 1 then pavRestart s else s) 0x0408 0 0)

/-- PAVILION_ANSWERING_AGAIN (R471): operations that windows had started are gone. -/
def execPavilionAnsweringAgain (s : State) : Res :=
  if s.pav.restarting then
    .next { s with pav := { s.pav with restarting := false, windows := s.pav.windows.map fun w => (w.1, { w.2 with busy := false }) } }
  else .next s

/-! ### Reading (R462, R463, R469, R475) -/

/-- A READ of an object. -/
def dictRead (s : State) (rq : DictReq) (idx sub : Nat) : State :=
  if !pavOn s then s
  else
    match odRow idx sub with
    | none => dictAnswer s rq 1 idx sub []
    | some r =>
      if mayRead s rq.src idx sub r.acc then
        let (bs, s) := odReadBytes s rq.src idx sub r.size
        dictAnswer s rq 0 idx sub bs
      else dictAnswer s rq 2 idx sub []

/-- DICT_READ (R462, R463). -/
def execDictRead (rq : DictReq) (idx : BitVec 16) (sub : Byte) (s : State) : Res := .next (dictRead s rq idx.toNat sub.toNat)

/-- ERROR_LOG_READ (R475): a READ of OD 0x7C02. -/
def execErrorLogRead (rq : DictReq) (s : State) : Res := .next (dictRead s rq 0x7C02 0)

/-- READ_CLAMP (R462, R469): the clamp counter, 0 for an object that no write reaches. -/
def execReadClamp (rq : DictReq) (idx : BitVec 16) (sub : Byte) (s : State) : Res :=
  let (i, n) := (idx.toNat, sub.toNat)
  if !pavOn s then .next s
  else
    match odRow i n with
    | none => .next (dictAnswer s rq 1 i n [])
    | some r =>
      if mayRead s rq.src i n (if r.acc = .wo then .rw else r.acc) then
        .next (dictAnswer s rq 0 i n (leBytes 4 (mgetD s.pav.clamps (odKey i n) 0)))
      else .next (dictAnswer s rq 2 i n [])

/-! ### Subscriptions (R462, R463, R465) -/

/-- SUBSCRIBE: at most 64 in a session; a window has none. -/
def execSubscribe (rq : DictReq) (idx : BitVec 16) (sub : Byte) (minMs : BitVec 16) (s : State) : Res :=
  let (i, n) := (idx.toNat, sub.toNat)
  match rq.src with
  | .window _ => .next s
  | .session sid =>
    match mget s.pav.sessions sid.val with
    | none => .next s
    | some x =>
      if !pavOn s then .next s
      else
        match odRow i n with
        | none => .next (dictAnswer s rq 1 i n [])
        | some r =>
          let rest := x.subs.filter fun u => !(u.idx == i && u.sub == n)
          if !mayRead s rq.src i n r.acc then .next (dictAnswer s rq 2 i n [])
          else if rest.length ≥ 64 then .next (dictAnswer s rq 4 i n [])
          else
            let u : Sub := { idx := i, sub := n, minMs := min 60000 (max 10 minMs.toNat), lastAt := none, lastVal := odValue s i n }
            .next (dictAnswer (sessSet s sid.val { x with subs := rest ++ [u] }) rq 0 i n [])

/-- UNSUBSCRIBE. -/
def execUnsubscribe (rq : DictReq) (idx : BitVec 16) (sub : Byte) (s : State) : Res :=
  let (i, n) := (idx.toNat, sub.toNat)
  match rq.src with
  | .window _ => .next s
  | .session sid =>
    match mget s.pav.sessions sid.val with
    | none => .next s
    | some x =>
      if !pavOn s then .next s
      else if (odRow i n).isNone then .next (dictAnswer s rq 1 i n [])
      else .next (dictAnswer (sessSet s sid.val { x with subs := x.subs.filter fun u => !(u.idx == i && u.sub == n) }) rq 0 i n [])

/-- NOTIFY: the value has changed and the interval since the object's last NOTIFY has passed. -/
def execNotify (sid : Fin 8) (idx : BitVec 16) (sub : Byte) (s : State) : Res :=
  let (i, n) := (idx.toNat, sub.toNat)
  match mget s.pav.sessions sid.val with
  | none => .next s
  | some x =>
    match x.subs.find? fun u => u.idx == i && u.sub == n with
    | none => .next s
    | some u =>
      let v := odValue s i n
      let early := match u.lastAt with | some t => decide (s.clk.now < t + u.minMs * 1000000) | none => false
      if !pavOn s || !x.isOpen || v == u.lastVal || early then .next s
      else
        let subs := x.subs.map fun w => if w.idx == i && w.sub == n then { w with lastAt := some s.clk.now, lastVal := v } else w
        let size := ((odRow i n).map OdRow.size).getD 0
        .next (sessSend s sid.val { x with subs := subs } 10 (leBytes 2 i ++ leBytes 1 n ++ leBytes 1 0 ++ leBytes size v))

/-! ### The log and the counter clears -/

/-- LOG_CLEAR (R477): the log is emptied, its sequence count kept. -/
def execLogClear (rq : DictReq) (v : List Byte) (s : State) : Res :=
  .next (dictClear s rq 0x7C03 v fun s => { s with pav := { s.pav with log := [] } })

/-- CLAMP_COUNTER_CLEAR (R469). -/
def execClampCounterClear (rq : DictReq) (v : List Byte) (s : State) : Res :=
  .next (dictClear s rq 0x7C12 v fun s => odSet { s with pav := { s.pav with clamps := [] } } 0x7C10 0 0)

/-- CORE_COUNTER_CLEAR (R97). -/
def execCoreCounterClear (rq : DictReq) (v : List Byte) (s : State) : Res :=
  .next (dictClear s rq 0x4014 v fun s => odClearRange s 0x4010 0x4013)

/-- SEQUENCER_COUNTER_CLEAR (R137). -/
def execSequencerCounterClear (rq : DictReq) (v : List Byte) (s : State) : Res :=
  .next (dictClear s rq 0x4027 v fun s => odClearRange s 0x4023 0x4025)

/-- MEMORY_COUNTER_CLEAR (R174). -/
def execMemoryCounterClear (rq : DictReq) (v : List Byte) (s : State) : Res :=
  .next (dictClear s rq 0x2014 v fun s => odClearRange s 0x2010 0x2011)

/-- DMA_COUNTER_CLEAR (R175). -/
def execDmaCounterClear (rq : DictReq) (v : List Byte) (s : State) : Res :=
  .next (dictClear s rq 0x2404 v fun s => odClearRange s 0x2400 0x2403)

/-- CONVOLUTION_COUNTER_CLEAR (R206). -/
def execConvolutionCounterClear (rq : DictReq) (v : List Byte) (s : State) : Res :=
  .next (dictClear s rq 0x4035 v fun s => odClearRange s 0x4031 0x4034)

/-- KV_COUNTER_CLEAR (R237). -/
def execKvCounterClear (rq : DictReq) (v : List Byte) (s : State) : Res :=
  .next (dictClear s rq 0x3035 v fun s => odClearRange (odClearRange s 0x3024 0x3026) 0x3032 0x3033)

/-- CAROUSEL_COUNTER_CLEAR (R270). -/
def execCarouselCounterClear (rq : DictReq) (v : List Byte) (s : State) : Res :=
  .next (dictClear s rq 0x3016 v fun s => odClearRange (odClearRange s 0x3011 0x3011) 0x3013 0x3015)

/-- VIDEO_COUNTER_CLEAR (R315). -/
def execVideoCounterClear (rq : DictReq) (v : List Byte) (s : State) : Res :=
  .next (dictClear s rq 0x7018 v fun s => odClearRange s 0x7010 0x7017)

/-- TRELLIS_COUNTER_CLEAR (R346). -/
def execTrellisCounterClear (rq : DictReq) (v : List Byte) (s : State) : Res :=
  .next (dictClear s rq 0x6042 v fun s => odClearRange (odClearRange s 0x6001 0x6003) 0x6040 0x6041)

/-- POWER_COUNTER_CLEAR (R375). -/
def execPowerCounterClear (rq : DictReq) (v : List Byte) (s : State) : Res :=
  .next (dictClear s rq 0x140A v fun s => odClearRange s 0x1406 0x1406)

/-- THERMAL_COUNTER_CLEAR (R376). -/
def execThermalCounterClear (rq : DictReq) (v : List Byte) (s : State) : Res :=
  .next (dictClear s rq 0x1508 v fun s => odClearRange s 0x1506 0x1507)

/-- MARGIN_COUNTER_CLEAR (R377). -/
def execMarginCounterClear (rq : DictReq) (v : List Byte) (s : State) : Res :=
  .next (dictClear s rq 0x1605 v fun s => odClearRange s 0x1602 0x1604)

/-- PAIR_COUNTER_CLEAR (R452). -/
def execPairCounterClear (rq : DictReq) (v : List Byte) (s : State) : Res :=
  .next (dictClear s rq 0x640D v fun s => odClearRange s 0x6409 0x640A)

/-- CVU_COUNTER_CLEAR (R433). -/
def execCvuCounterClear (rq : DictReq) (v : List Byte) (s : State) : Res :=
  .next (dictClear s rq 0x6806 v fun s => odClearRange s 0x6804 0x6805)

/-- ERROR_COUNTER_CLEAR (R546). -/
def execErrorCounterClear (rq : DictReq) (v : List Byte) (s : State) : Res :=
  .next (dictClear s rq 0x7C26 v fun s => odClearRange (odClearRange s 0x7C20 0x7C20) 0x7C25 0x7C25)

end Sys2Proof.Machine
end

