-- ==== Sys2Proof/Machine/Boot.lean ====
section
/-! DEFINITION. Power, boot, presence, input, lever, drain and the resets (R384, R450, R499 to R508, R520 to R531). -/

namespace Sys2Proof.Machine

open Sys2Proof

/-! ### Losing power (R506, R526) -/

/-- Zeroize every key slot, and the ephemeral pairs (R450, R526, R529). -/
def keysZero (s : State) : State :=
  { s with gate := { s.gate with
    slots := s.gate.slots.map fun x => (x.1, { x.2 with curKey := none, old := none, next := none }), ephem := [] } }

/-- The main switch opens: every domain but the Gatehouse and the auxiliary rail loses power (R526). -/
def powerLost (s : State) : State :=
  let t := volatileLost s
  { t with tray := { t.tray with mainSwitch := false, mainGood := false } }

/-! ### Insertion (R520 to R525) -/

/-- PRE_CHARGE_CONTACT (R521, R525): the auxiliary rail is powered. -/
def execPreChargeContact (s : State) : Res :=
  .next { s with tray := { s.tray with preCharge := true, hub := { s.tray.hub with aux := true } } }

/-- Straps with an odd count of ones (R523). -/
def strapsOdd (x : BitVec 5) : Bool := popcount 5 x.toNat % 2 == 1

/-- PRESENCE_ASSERT (R522, R523): the straps SLOT3 to SLOT0 and SLOT_P, in bits 3 to 0 and 4, are sampled once. -/
def execPresenceAssert (straps : BitVec 5) (s : State) : Res :=
  if !s.tray.preCharge ∨ s.tray.presence = .asserted then .next s
  else
    .next { s with tray := { s.tray with
      presence := .asserted, strapsSampled := true, slotId := BitVec.ofNat 4 straps.toNat, strapBad := !strapsOdd straps } }

/-- MAIN_SWITCH_CLOSE (R525): both stores have reached 95 % of the bus voltage. -/
def execMainSwitchClose (busMv bulkMv storeMv : Nat) (s : State) : Res :=
  if s.tray.preCharge ∧ s.tray.presence = .asserted ∧ bulkMv * 100 ≥ busMv * 95 ∧ storeMv * 100 ≥ busMv * 95 then
    .next { s with tray := { s.tray with mainSwitch := true } }
  else .next s

/-! ### Cold power-up (R499 to R504, R515) -/

/-- A component fails a check or does not start (R501): the component and the check go to the log. -/
def bootFail (s : State) (c check : Nat) : State :=
  declareFailed s { cls := 5, block := 9, kind := 1, detail := c * 16 + check }

/-- Verify and measure one component, and do what follows its pass (R398, R500, R501). -/
def bootComp (s : State) (c : Nat) (go : State → State) : State :=
  if s.tray.failed then s
  else
    match mget s.flash.images c with
    | none => bootFail s c 3
    | some i =>
      let check := if i.comp ≠ c then 4 else fwCheck s i
      if check = 0 then go (measure s i) else bootFail s c check

/-- Do a stage of the boot unless it has failed. -/
def bootStage (s : State) (go : State → State) : State := if s.tray.failed then s else go s

/-- Change the hub's domains. -/
def hubSetDom (s : State) (f : HubPower → HubPower) : State := { s with tray := { s.tray with hub := f s.tray.hub } }

/-- The role at boot: JOINING on a tray with a pair and a partner set, else UNPAIRED (R434, R506). -/
def bootRole (s : State) : Role := if odGet s 0x6400 0 ≠ 0 ∧ odGet s 0x6401 0 ≠ 0xFF then .joining else .unpaired

/-- A slot of the firmware, under tag 0x3F (R402). -/
def fwSlot (s : State) (n : Nat) (k : SlotKind) (key : Option Nat) : State := keySlotSet s n { kind := k, owner := 0x3F, curKey := key }

/-- Draw slot 63 anew: tray-reserved memory, and whatever was written under its last key, is gone (R402, R500, R506). -/
def reservedInit (s : State) : State :=
  let key := freeVal s
  let s := fwSlot (freeStep s) 63 .xts (some key)
  { s with mem := { s.mem with hbm := s.mem.hbm.filter fun c => !granReserved s (granOf c.1) } }

/-- Change the update's state and result; every change of state sends vector 1 of the physical function (R518). -/
def updSet (s : State) (st : UState) (result : Nat) : State :=
  let ch := s.upd.st != st
  let s := { s with upd := { s.upd with st := st, result := result } }
  if ch then msixSend s 0 1 else s

/-- Discard what is staged, its content key and its instant included. -/
def updDiscard (s : State) : State :=
  let s := armDrop s
  { fwSlot s 60 .gcm none with upd := { st := s.upd.st, result := s.upd.result } }

/-- Staging is discarded by a warm reset that is not part of its activation (R506, R517). -/
def stagingDrop (s : State) : State :=
  match s.upd.st with
  | .receiving | .verifying | .verified | .armed => updSet (updDiscard s) .idle 12
  | .idle | .activating => s

/-- The state from which a boot starts: domains off, objects at their defaults, keys, partitions and staging gone (R506, R517). -/
def bootBase (s : State) : State :=
  let t := volatileLost s
  { t with
    upd := { result := match s.upd.st with | .receiving | .verified | .armed => 12 | _ => 0 }
    tray := { t.tray with
      mainGood := true, powerGoodAt := s.clk.now, failed := false, failedThermal := false, measurements := []
      hub := { aux := true, gatehouse := true } }
    gate := { testPortOpen := s.gate.testPortOpen, identityOff := s.gate.identityOff }
    pav := { t.pav with log := s.flash.keptLog } }

/-- Slots 60 to 62 before component 0 runs: the flash key comes from UDS (R402, R500). -/
def bootKeys (s : State) : State :=
  fwSlot (fwSlot (fwSlot s 60 .gcm none) 61 .xts (some (Config.hkdf Config.uds 61 "flash"))) 62 .trellis none

/-- Hub common: clocks stable, the timebase at 0, the recovered clock not yet, so that the reference is the TCXO (R325, R380, R387, R500). -/
def bootHub (s : State) : State :=
  hubSetDom { s with clk := { now := s.clk.now, judged := [(0x17, ({ stable := false } : Judgement))], source := [(0x18, 0)] } }
    fun h => { h with hubCommon := true }

/-- The ports of Trellis that are not fenced are enabled and train (R318, R540). -/
def bootTrellis (s : State) : State :=
  let port (p : Nat) : Nat × Port :=
    (p, if s.flash.fencedPorts.getLsbD p then {} else { enabled := true, st := .training })
  hubSetDom { s with trl := { s.trl with ports := [port 0, port 1] } } fun h => { h with trellis := true }

/-- Cold power-up (R500 to R502, R515): `trained` says which stacks could be trained. -/
def bootDo (s : State) (trained : BitVec 8) : State :=
  let s := bootKeys (bootBase s)
  let s := bootStage s fun s => if s.fuses.lifecycle = .rma then bootFail s 0 0 else s
  let s := bootComp s 0 bootHub
  let s := bootComp s 1 fun s => hubSetDom s fun h => { h with carouselDma := true }
  let s := bootComp s 2 fun s => if s.tray.strapBad then bootFail s 2 0 else hubSetDom s fun h => { h with pavilion := true }
  let s := bootComp s 5 fun s => hubSetDom s fun h => { h with hbmA := true, hbmB := true }
  let s := [3, 4, 6, 7, 8].foldl (fun s c => bootComp s c id) s
  let s := bootStage s fun s => if trained = 0xFF then s else bootFail s 5 5
  let s := bootStage s fun s =>
    let s := reservedInit s
    let s := { s with mem := { mapBase := { zeroKey := freeVal s } }, kv := { saltA := BitVec.ofNat 64 (Config.freeNat (s.freeCtr + 1)) } }
    hubSetDom (freeSteps s 2) fun h => { h with pcie := true }
  let s := bootStage s bootTrellis
  bootStage s fun s =>
    hubSetDom { s with tray := { s.tray with ready := true }, pair := { role := bootRole s } } fun h => { h with zoetrope := true }

/-- MAIN_POWER_GOOD (R500, R505, R525): the input reads at least 44 V with the switch on and presence asserted. -/
def execMainPowerGood (inputMv : Nat) (trained : BitVec 8) (s : State) : Res :=
  if s.tray.mainSwitch ∧ s.tray.presence = .asserted ∧ !s.tray.mainGood ∧ inputMv ≥ 44000 then .next (bootDo s trained) else .next s

/-- COMPONENT_START_TIMEOUT (R501, R515). -/
def execComponentStartTimeout (c : Fin 9) (s : State) : Res :=
  if s.tray.mainGood ∧ s.tray.measurements.any (fun m => m.comp == c.val) then .next (bootFail s c.val 6) else .next s

/-! ### Loss of presence or input (R522, R524, R526) -/

/-- PRESENCE_LOSS (R450, R522, R526, R530). -/
def execPresenceLoss (s : State) : Res :=
  let t := keysZero (powerLost s)
  .next { t with tray := { t.tray with presence := .lost, preCharge := false } }

/-- INPUT_LOSS (R524, R526). -/
def execInputLoss (s : State) : Res := .next (keysZero (powerLost s))

/-- OVER_VOLTAGE (R524): the switch opens and the tray declares itself failed. -/
def execOverVoltage (s : State) : Res :=
  let t := powerLost (declareFailed s { cls := 5, block := 10 })
  .next { t with pair := { role := .failed } }

/-! ### Lever and drain (R450, R517, R528 to R530) -/

/-- A drain ends: keys are zeroized and the tray waits in DEEP_SLEEP for its removal (R529, R530). -/
def drainDone (s : State) : State :=
  let s := keysZero s
  emit { s with tray := { s.tray with drain := .completed, clockState := .deepSleep } } .drainReported

/-- A standby leaves: its quadrants go off, and its partner has no partner any more (R450, R529). -/
def drainStandby (s : State) : State := emit (drainDone (quadsOff s (bitsOf 16 s.tray.quadOn.toNat))) .noPartner

/-- A tray without a standby refuses SUBMITs and lets steps in flight run up to 200 ms (R529). -/
def drainAlone (s : State) : State := if s.car.steps = [] then drainDone s else s

/-- DRAIN_REQUEST (R450, R517, R528, R529). -/
def execDrainRequest (s : State) : Res :=
  let s := activationStop { s with tray := { s.tray with leverOpen := true } }
  let t : State := { s with tray := { s.tray with drain := .inProgress, drainAt := s.clk.now } }
  if s.tray.drain ≠ .none then .next s
  else
    match s.pair.role with
    | .takingOver | .failed => .next s
    | .standby | .joining => .next (drainStandby t)
    | .rehearsing => .next (drainStandby (coldStandby t))
    | .active => if s.pair.partnerRole = some .standby ∧ odGet s 0x6400 0 = 1 then .next (snapAsk t) else .next (drainAlone t)
    | .unpaired | .follower => .next (drainAlone t)

/-- What time does to a drain: steps in flight have ended, or 200 ms have passed (R529). -/
def drainTick (s : State) : State :=
  let alone := s.pair.role == .unpaired || s.pair.role == .follower
    || (s.pair.role == .active && !(s.pair.partnerRole == some .standby && odGet s 0x6400 0 == 1))
  if s.tray.drain = .inProgress ∧ alone ∧ (s.car.steps = [] ∨ s.clk.now ≥ s.tray.drainAt + 200000000) then drainDone s else s

/-- LEVER_CLOSE (R530): a request that has neither yielded nor zeroized is withdrawn. -/
def execLeverClose (s : State) : Res :=
  let t : State := { s with tray := { s.tray with leverOpen := false } }
  if s.tray.drain = .inProgress ∧ !s.pair.yielded then .next { t with tray := { t.tray with drain := .none } } else .next t

/-! ### Resets (R430, R505 to R508) -/

/-- A reset or an activation runs (R508). -/
def resetRuns (s : State) : Bool := s.upd.st == .activating || s.tray.resetting

/-- The clamp of OD 0x7E10 (R508, R518). -/
def resetClamp (s : State) (v : Nat) : Nat := if resetRuns s then 0 else min 2 v

/-- A warm reset (R506): every partition removed, tray-reserved memory cleared under a new key, the pair joined anew. -/
def warmDo (s : State) : State :=
  let ps := activeParts s
  let s := each ps (fun s p => removeDo s p) (rehearsalLeave s)
  let s := reservedInit s
  let s := fwSlot s 62 .trellis none
  let busy := s.gate.parts.any fun x => x.2.st == .revoking || x.2.st == .scrubbing
  { s with
    tray := { s.tray with resetting := busy, clockState := if s.tray.failed then .deepSleep else .run, selfRefresh := false, hub := { s.tray.hub with zoetrope := true } }
    kv := { s.kv with tableA := [], tableB := [], rebuild := none }
    pair := { role := bootRole s, partnerArmed := s.pair.partnerArmed, nextSnap := s.pair.nextSnap, lastRehearsal := s.pair.lastRehearsal } }

/-- WARM_RESET (R505, R506, R508, R517). -/
def execWarmReset (rq : DictReq) (s : State) : Res :=
  .next (dictWrite s rq 0x7E10 0 [1] resetClamp fun s w => odSet (if w = 1 then warmDo (stagingDrop s) else s) 0x7E10 0 0)

/-- COLD_RESET (R505, R506, R508, R517): every object outside flash at its default, and a boot; which stacks train is open. -/
def execColdReset (rq : DictReq) (s : State) : Res :=
  .next (dictWrite s rq 0x7E10 0 [2] resetClamp fun s w =>
    if w = 2 then bootDo (freeStep s) (BitVec.ofNat 8 (freeVal s)) else odSet s 0x7E10 0 0)

/-- A partition reset (R248, R269, R314, R507): steps, requests, sessions and Trellis jobs end, and the quadrants are cleared. -/
def partReset (s : State) (p : Nat) : State :=
  let s := partReqsEnd s p 18
  let s := sessionsEnd s p 18 true
  let s := jobsForget s p
  each (quadsOf s p) (fun s q => quadClear s q) s

/-- PARTITION_RESET (R505 to R508, R518): an ACTIVE partition, else nothing. -/
def execPartitionReset (rq : DictReq) (v : Byte) (s : State) : Res :=
  .next (dictWrite s rq 0x7E11 0 [v] (fun s v => if v < 16 ∧ (partGet s v).st = .active then v else 0xFF) fun s w =>
    odSet (if w < 16 then partReset s w else s) 0x7E11 0 0xFF)

end Sys2Proof.Machine
end

