-- ==== Sys2Proof/Machine/Update.lean ====
section
/-! DEFINITION. Delivery, verification, activation and the rollback floor of firmware (R509 to R518). -/

namespace Sys2Proof.Machine

open Sys2Proof

/-- Record a result only. -/
def updResult (s : State) (result : Nat) : State := { s with upd := { s.upd with result := result } }

/-! ### The update command (R511, R517, R518) -/

/-- BEGIN: staging is discarded and delivery starts; an ARMED update is thereby aborted. Nothing happens during an activation. -/
def updBegin (s : State) : State :=
  if s.upd.st = .activating then s else updSet (updDiscard s) .receiving (if s.upd.st = .armed then 12 else 0)

/-- Blocks of a body (R509). -/
def blockCount (length : Nat) : Nat := cdiv length 65536

/-- Every block from 0 to N has been accepted (R511). -/
def updComplete (s : State) : Bool :=
  s.upd.gotHeader && (List.range (blockCount s.upd.length)).all fun i => (mget s.upd.blocks (i + 1)).isSome

/-- The staged image with the digest of its body as staged (R398). -/
def stagedImage (s : State) : FwImage :=
  { s.upd.image with bodyDigest := Config.sha384 (s.upd.blocks.flatMap Prod.snd) }

/-- Result of a failing check of R398 (R511). -/
def checkResult (check : Nat) : Nat := check + 4

/-- The first failing check of an image in the error log, with its component (R398, R543). DESIGN CHOICE (log 113): as a NOTICE, R536 naming no class for it. -/
def checkLog (s : State) (i : FwImage) (check : Nat) : State := logErr s { cls := 1, block := 9, kind := 1, detail := i.comp * 16 + check }

/-- VERIFY (R511): a body that is not complete, or none, gives LENGTH. Nothing happens once an instant is armed. -/
def updVerify (s : State) : State :=
  if s.upd.st = .armed ∨ s.upd.st = .activating then s
  else if !updComplete s then updResult s 4
  else
    let i := stagedImage s
    let s := updSet s .verifying s.upd.result
    let check := fwCheck s i
    if check = 0 then updSet { s with upd := { s.upd with image := i } } .verified 0
    else updSet (updDiscard (checkLog s i check)) .idle (checkResult check)

/-- ABORT. -/
def updAbort (s : State) : State :=
  match s.upd.st with
  | .receiving | .verified | .armed => updSet (updDiscard s) .idle 12
  | _ => s

/-- A write of OD 0x7E01: 1 BEGIN, 2 VERIFY, 3 ABORT, others 0; it reads as 0. -/
def updCommand (s : State) (rq : DictReq) (v : List Byte) : State :=
  dictWrite s rq 0x7E01 0 v (fun _ v => if v ≤ 3 then v else 0) fun s w =>
    odSet (match w with | 1 => updBegin s | 2 => updVerify s | 3 => updAbort s | _ => s) 0x7E01 0 0

/-- UPDATE_BEGIN (R517, R518). -/
def execUpdateBegin (rq : DictReq) (s : State) : Res := .next (updCommand s rq [1])

/-- UPDATE_VERIFY (R398, R511). -/
def execUpdateVerify (rq : DictReq) (s : State) : Res := .next (updCommand s rq [2])

/-- UPDATE_ABORT (R517, R518). -/
def execUpdateAbort (rq : DictReq) (s : State) : Res := .next (updCommand s rq [3])

/-! ### Blocks (R509, R510, R517) -/

/-- Bytes of a block in a buffer of the image window. -/
def bufferBytes (s : State) (b n : Nat) : List Byte :=
  (List.range n).map fun i => (mget s.pcie.fwWindow (b * 65536 + i)).getD 0

/-- A range of header bytes. -/
def hdr (h : List Byte) (a n : Nat) : List Byte := (h.drop a).take n

/-- Open the wrap of a header: the content key (R509). -/
def openWrap (h : List Byte) : Option (List Byte) :=
  let x := Config.hkdf Config.uds 0 "mlrn fw x"
  let m := Config.hkdf Config.uds 0 "mlrn fw m"
  let k := Config.hkdf (Config.x25519 x (leNat (hdr h 32 32)) + Config.mlkemDecap m (leNat (hdr h 64 1088)) * 2 ^ 256)
    (leNat (hdr h 8 24)) "mlrn fw"
  Config.gcmOpen k 0 [] (hdr h 1152 32) (leNat (hdr h 1184 16))

/-- The IV of block k: the package nonce followed by k as 4 bytes (R509). -/
def blockIv (nonce : BitVec 64) (k : Nat) : Nat := leNat (leBytes 8 nonce.toNat ++ leBytes 4 k)

/-- The package nonce of a header (R509). -/
def headerNonce (h : List Byte) : BitVec 64 := BitVec.ofNat 64 (leNat (hdr h 8 8))

/-- Authenticate block 0 under a content key (R509): additional data with an empty plaintext. -/
def headerOpen (ck : Nat) (h : List Byte) (tag : Nat) : Option (List Byte) := Config.gcmOpen ck (blockIv (headerNonce h) 0) h [] tag

/-- The image that a manifest describes (R397). -/
def manifestOf (m : List Byte) : FwImage :=
  let f := Config.manifestField m
  { comp := f 0, secVer := f 1, length := f 2, digest := BitVec.ofNat 384 (f 3), fieldsDigest := Config.sha384 (Config.manifestSigned m)
    edPub := f 5, mlPub := f 6, edSig := f 7, mlSig := f 8 }

/-- Block 0 (R509, R510): another SERIAL, a malformed header or a wrap that fails ends the delivery. -/
def headerTake (s : State) (h : List Byte) (tag : Nat) : State :=
  let len := leNat (hdr h 4 4)
  if (h.getD 0 0).toNat ≠ 1 ∨ leNat (hdr h 16 16) ≠ s.fuses.serial.toNat ∨ len = 0 ∨ len > 67043328 then updSet (updDiscard s) .idle 1
  else
    match openWrap h with
    | none => updSet (updDiscard s) .idle 1
    | some ck =>
      if (headerOpen (leNat ck) h tag).isNone then updResult s 2
      else
        let s := fwSlot s 60 .gcm (some (leNat ck))
        { s with upd := { s.upd with
          gotHeader := true, image := manifestOf (h.drop 2048), length := len, nonce := headerNonce h, contentKey := leNat ck, result := 0 } }

/-- A body block (R510): authenticated and decrypted under CK, re-encrypted into staging under slot 61. -/
def bodyTake (s : State) (k n : Nat) (ct : List Byte) (tag : Nat) : State :=
  let blocks := blockCount s.upd.length
  if !s.upd.gotHeader ∨ k > blocks then updResult s 3
  else if n ≠ (if k = blocks then s.upd.length - 65536 * (blocks - 1) else 65536) then updResult s 4
  else
    match Config.gcmOpen s.upd.contentKey (blockIv s.upd.nonce k) [] ct tag with
    | none => updResult s 2
    | some pt =>
      if (mget s.upd.blocks k).isSome then s
      else { s with upd := { s.upd with blocks := mset s.upd.blocks k pt, result := 0 } }

/-- Submit a block (R510, R517): within the command its buffer's bit is set and cleared again; a buffer whose bit is set already is left alone and the write counts as discarded. -/
def blockSubmit (s : State) (v : Nat) : State :=
  let (k, b, n) := (nfld v 31 0, nfld v 33 32, nfld v 95 64)
  if s.upd.busy.getLsbD b then discard s 0
  else if s.upd.st ≠ .receiving ∧ !s.upd.gotHeader then updResult s 3
  else
    let bs := bufferBytes s b (min n 65536)
    let tag := nfld v 255 128
    if k ≠ 0 then bodyTake s k n bs tag
    else if n ≠ 65536 then updResult s 4
    else if s.upd.gotHeader then (if (headerOpen s.upd.contentKey bs tag).isNone then updResult s 2 else s)
    else headerTake s bs tag

/-- BLOCK_SUBMIT (R509, R510, R517, R518): reserved bytes and the buffer's high bits are cleared. -/
def execBlockSubmit (rq : DictReq) (v : List Byte) (s : State) : Res :=
  .next (dictWrite s rq 0x7E02 0 v
    (fun _ v => nfld v 255 128 * 2 ^ 128 + nfld v 95 64 * 2 ^ 64 + nfld v 33 32 * 2 ^ 32 + nfld v 31 0) blockSubmit)

/-! ### Activation (R512 to R515) -/

/-- What keeps a nonzero instant from arming (R512): 11 LIST_FULL, 10 CONFLICT, or nothing. -/
def armBar (s : State) (t : Nat) : Nat :=
  let a := s.pair.partnerArmed.toNat
  if s.tray.measurements.length ≥ 24 then 11
  else if paired s ∧ a ≠ 0 ∧ (if a ≤ t then t - a else a - t) < 3600000000000 then 10
  else 0

/-- An instant of R512 held to 1 s to 30 days ahead. -/
def armTime (s : State) (v : Nat) : Nat := min (tbNat s + 2592000000000000) (max (tbNat s + 1000000000) v)

/-- The clamp of OD 0x7E03 (R512, R518). -/
def armClamp (s : State) (v : Nat) : Nat :=
  if v = 0 ∨ s.upd.st ≠ .verified then 0
  else if armBar s (armTime s v) ≠ 0 then 0
  else armTime s v

/-- A disarmed update is VERIFIED again. -/
def disarm (s : State) : State := if s.upd.st = .armed then updSet s .verified s.upd.result else s

/-- ACTIVATION_TIME_WRITE (R512, R518). -/
def execActivationTimeWrite (rq : DictReq) (v : List Byte) (s : State) : Res :=
  let raw := leNat v
  .next (dictWrite s rq 0x7E03 0 v armClamp fun s w =>
    if w ≠ 0 then armTell (updSet { s with upd := { s.upd with armed := BitVec.ofNat 64 w } } .armed 0)
    else
      let bar := if raw ≠ 0 ∧ s.upd.st = .verified then armBar s (armTime s raw) else 0
      let s := disarm (armDrop s)
      if bar ≠ 0 then updResult s bar else s)

/-- ARMED_INSTANT_EXCHANGE (R512): the partner's armed instant, 0 when it has none. -/
def execArmedInstantExchange (t : BitVec 64) (s : State) : Res :=
  if paired s ∧ g63Up s then .next { s with pair := { s.pair with partnerArmed := t } } else .next s

/-- The roles in which an armed update proceeds (R513). -/
def roleActivates (s : State) : Bool :=
  s.pair.role == .unpaired || (s.pair.role == .active && s.pair.partnerRole == some .standby)
  || (s.pair.role == .standby && s.pair.partnerRole == some .active)

/-- ACTIVATION (R513, R514 steps 1 and 2). -/
def execActivation (s : State) : Res :=
  if s.upd.st ≠ .armed ∨ tbNat s < s.upd.armed.toNat then .next s
  else if !roleActivates s then .next (updSet (armDrop s) .verified 9)
  else
    let s := updSet s .activating s.upd.result
    .next (if s.pair.role = .active then sendYield s else s)

/-- Step 2 is over: the tray was not active, or its partner reads ACTIVE or is lost (R514, R517). -/
def partnerReady (s : State) : Bool := s.pair.role != .active || s.pair.partnerRole == some .active || s.pair.partnerLost

/-- ACTIVATION_COMMIT (R398, R506, R514, R515): the image is verified again and the directory written, or the old image kept; a warm reset; the new measurement; IDLE. -/
def execActivationCommit (s : State) : Res :=
  if s.upd.st ≠ .activating ∨ !partnerReady s then .next s
  else
    let i := stagedImage s
    let check := fwCheck s i
    let s := if check = 0 then { s with flash := { s.flash with images := mset s.flash.images i.comp i, dirOld := s.flash.dirSeq, dirSeq := s.flash.dirSeq + 1 } } else checkLog s i check
    let s := warmDo s
    let s := if check = 0 then measure s i else s
    .next (updSet (updDiscard s) .idle (if check = 0 then 0 else checkResult check))

/-! ### The floor (R516) -/

/-- Components of a mask whose running version exceeds their floor. -/
def floorBits (s : State) (v : Nat) : List Nat := (bitsOf 16 v).filter fun c => decide (runningVer s c > s.fuses.floors.getD c 0)

/-- FLOOR_ADVANCE (R394, R516). -/
def execFloorAdvance (rq : DictReq) (v : List Byte) (s : State) : Res :=
  .next (dictWrite s rq 0x7E20 0 v (fun s v => maskOf (floorBits s v)) fun s w =>
    let s := { s with fuses := { s.fuses with floors := (bitsOf 16 w).foldl (fun l c => l.set c (max (l.getD c 0) (runningVer s c))) s.fuses.floors } }
    odSet s 0x7E20 0 0)

end Sys2Proof.Machine
end

