-- ==== Sys2Proof/Machine/Perturb.lean ====
section
/-! DEFINITION. Test perturbation and injected errors (R418, R542, R544 to R546). -/

namespace Sys2Proof.Machine

open Sys2Proof

/-- Fields of OD 0x7810: kind, location, line (R546). -/
def injKind (v : Nat) : Nat := nfld v 63 60
/-- LOC. -/
def injLoc (v : Nat) : Nat := nfld v 59 40
/-- Address of kind 5. -/
def injAddr (v : Nat) : Nat := nfld v 39 0 * 64

/-- A location names a powered unit holding a store or path of a kind (R545). -/
def injectUnit (s : State) (v : Nat) : Bool :=
  let loc := injLoc v
  locLegal loc && decide (loc / 65536 < 4)
  && (match injKind v with
    | 1 => (match coreOfLoc loc with | some k => s.tray.quadOn.getLsbD (coreQuad k) | none => false)
    | 2 => (match clusOfLoc loc with | some c => s.tray.quadOn.getLsbD (clusQuad c) | none => false)
    | 3 => s.tray.dieOn.getLsbD (loc / 65536)
    | 4 => s.tray.dieOn.getLsbD (loc / 65536)
    | 5 => granBacked s (granOf (injAddr v)) && (if injAddr v / 2 ^ 38 = 0 then s.tray.hub.hbmA else s.tray.hub.hbmB)
    | _ => false)

/-- The clamp of OD 0x7810: a kind above 5 becomes 5; a write that names no unit becomes 0 (R468, R545). -/
def injectClamp (s : State) (v : Nat) : Nat :=
  let w := min 5 (injKind v) * 2 ^ 60 + v % 2 ^ 60
  if injectUnit s w then w else 0

/-- Note a perturbation write: bit 1 of the perturbation word stays set until a cold reset (R418). -/
def perturbNote (s : State) : State := { s with gate := { s.gate with perturbUsed := true } }

/-- ERROR_INJECTION_WRITE (R418, R545). -/
def execErrorInjectionWrite (rq : DictReq) (v : List Byte) (s : State) : Res :=
  .next (dictWrite s rq 0x7810 0 v injectClamp fun s w => if w = 0 then s else perturbNote s)

/-- The context of a die that consumes an injected error: one that runs a step, the lowest first. -/
def injectCtx (s : State) (d : Nat) : Ctx :=
  let c := ((List.range 4).find? fun i => (ctxGet s (4 * d + i)).step.isSome).getD 0
  ⟨(4 * d + c) % 16, Nat.mod_lt _ (by decide)⟩

/-- An injected uncorrectable line: its owner's step in flight ends for a replay (R140, R542). -/
def injectUe (s : State) (a : Nat) : State :=
  let p := lineOwner s a
  let cs := ((mget s.car.steps p).map StepRun.ctxs).getD []
  strike s (2 ^ 40 + a / 64) (.granule (granOf a)) p cs { cls := 2, block := 4, addr := a, injected := true }

/-- The injected error strikes (R542, R545). -/
def injectDo (s : State) (v : Nat) : State :=
  let loc := injLoc v
  match injKind v with
  | 1 => (match coreOfLoc loc with
    | some k => siteError s (.coreStore ⟨k % 256, Nat.mod_lt _ (by decide)⟩ 0) true
    | none => s)
  | 2 => (match clusOfLoc loc with
    | some c => siteError s (.clusterStore ⟨c % 32, Nat.mod_lt _ (by decide)⟩ 0) true
    | none => s)
  | 3 => siteError s (.dieCommon (injectCtx s (loc / 65536)) 0) true
  | 4 => siteError s (.dieCommon (injectCtx s (loc / 65536)) 1) true
  | 5 => injectUe s (injAddr v)
  | _ => s

/-- INJECTED_ERROR (R542, R545): at the next access of its kind; OD 0x7810 returns to 0 and OD 0x7811 counts. -/
def execInjectedError (s : State) : Res :=
  let v := odGet s 0x7810 0
  if injectUnit s v then .next (bump32 (odSet (injectDo s v) 0x7810 0 0) 0x7811 0) else .next s

/-- The objects of R544. -/
def perturbObj (idx : Nat) : Bool := (decide (0x7801 ≤ idx) && decide (idx ≤ 0x7806)) || idx == 0x7808

/-- The clamp of a perturbation object: each byte of OD 0x7801 by itself (R546). -/
def perturbClamp (idx sub : Nat) (s : State) (v : Nat) : Nat :=
  if idx = 0x7801 then min 64 (v / 256) * 256 + v % 256 else clampRow idx sub s v

/-- PERTURBATION_WRITE (R418, R544, R546): timing only. -/
def execPerturbationWrite (rq : DictReq) (idx : BitVec 16) (sub : Byte) (v : List Byte) (s : State) : Res :=
  let (i, n) := (idx.toNat, sub.toNat)
  if i < 0x7800 ∨ 0x7808 < i then .next s
  else .next (dictWrite s rq i n v (perturbClamp i n) fun s _ => if i = 0x7808 then s else perturbNote s)

end Sys2Proof.Machine
end

