-- ==== Sys2Proof/Machine/Writes.lean ====
section
/-! DEFINITION. The prefix rebuild, and writes to every object of the dictionary (R151, R155, R215, R225, R228, R242, R299, R346, R392, R393, R401, R434, R452, R462 to R477). -/

namespace Sys2Proof.Machine

open Sys2Proof

/-! ### Prefix rebuild (R228, R229) -/

/-- A partition is not yet in the rebuild that its removal or key rotation starts. -/
def rebuildMisses (s : State) (f : Rebuild → Bool) : Bool :=
  match s.kv.rebuild with
  | some r => !f r
  | none => true

/-- PREFIX_REBUILD (R228, R229): by a write of OD 0x3031, a removal, a prefix key rotation or a variant's retirement; a trigger that the rebuild already serves starts nothing. -/
def execPrefixRebuild (t : RebuildTrigger) (s : State) : Res :=
  match t with
  | .write rq v => .next (dictWrite s rq 0x3031 0 v (clampRow 0x3031 0) fun s w => if w = 1 then rebuildAsk s [] [] else s)
  | .removal p =>
    if (partGet s p.val).st = .revoking ∧ rebuildMisses s (fun r => r.removed.contains p.val) then .next (rebuildRemoved s p.val)
    else .next s
  | .keyRotation p =>
    if (partGet s p.val).st = .active ∧ rebuildMisses s (fun r => r.rotated.contains p.val || r.queuedRotated.contains p.val) then
      .next (rebuildAsk s [p.val] [])
    else .next s
  | .variantRetired p v =>
    match mget s.variants (varKey p.val v) with
    | none => .next s
    | some x =>
      if x.st = .retiring ∧ rebuildMisses s (fun r => r.retired.contains (p.val, v) || r.queuedRetired.contains (p.val, v)) then
        .next (rebuildAsk (varSet s p.val v { x with rebuilding := true }) [] [(p.val, v)])
      else .next s

/-! ### Clamps that a chapter words -/

/-- Sum of an object over the other partitions. -/
def othersSum (s : State) (idx p : Nat) : Nat := lsum (((List.range 16).filter (· ≠ p)).map fun q => odGet s idx (q + 1))

/-- A value held to a sum over partitions, and not below what is in use. -/
def sumClamp (s : State) (idx p total top used v : Nat) : Nat := max used (min (min top v) (total - othersSum s idx p))

/-- OD 0x2001 to 0x2004 (R151, R155). -/
def shareClamp (s : State) (idx p v : Nat) : Nat :=
  let w := sumClamp s idx p 2048 2048 0 v
  let cur := odGet s idx (p + 1)
  if w < cur ∧ liveG s p ≠ [] then cur else w

/-- OD 0x6021 (R346): an aligned base and a window wholly in granules of the local partition, else 0. -/
def windowClamp (s : State) (g v : Nat) : Nat :=
  let base := nfld v 47 0
  let p := nfld (odGet s 0x6020 (g + 1)) 30 27
  let own (i : Nat) : Bool :=
    let e := granGet s (granOf base + i)
    e.st == .owned && e.owner.toNat == p
  if base % 2 ^ 21 = 0 ∧ (List.range (nfld v 63 48)).all own then v else 0

/-- OD 0x6020 (R346, R401): reserved bits cleared; a valid entry of a partition that is not ACTIVE keeps the current value. -/
def groupClamp (s : State) (g v : Nat) : Nat :=
  let w := v / 32 * 32
  if w.testBit 31 && (partGet s (nfld w 30 27)).st != .active then odGet s 0x6020 (g + 1) else w

/-- OD 0x6022 (R346): bits of blocks that another partition holds are cleared. -/
def blocksClamp (s : State) (p v : Nat) : Nat :=
  maskOf ((bitsOf 16 v).filter fun b => (List.range 16).all fun q => q == p || !(odGet s 0x6022 (q + 1)).testBit b)

/-- OD 0x1002 (R392): three bits; those of 0x1C, 0x26 and 0x27 and most run bits are fixed at 1. -/
def enablesClamp (n v : Nat) : Nat :=
  if n = 0x1C ∨ n = 0x26 ∨ n = 0x27 then 7
  else if n = 0x1A ∨ n = 0x1B ∨ n = 0x28 then v % 8
  else v % 8 / 2 * 2 + 1

/-- OD 0x6401 (R452). -/
def partnerClamp (s : State) (v : Nat) : Nat :=
  let w := nearest (List.range 16 ++ [255]) v
  if w = ownSlot s then 0xFF else w

/-- Grants to a partition (R401). -/
def isGrant (idx : Nat) : Bool := [0x2001, 0x2002, 0x2003, 0x2004, 0x3001, 0x3030, 0x6010, 0x6022, 0x7000, 0x7001].contains idx

/-- The stored value of a grant or quota of a partition. -/
def quotaClamp (s : State) (idx p v : Nat) : Nat :=
  match idx with
  | 0x3001 => sumClamp s idx p 1048576 1048576 (usedEntries s p) v
  | 0x3030 => sumClamp s idx p 16 16 0 v
  | 0x6010 => sumClamp s idx p 95 95 0 v
  | 0x6022 => blocksClamp s p v
  | 0x6408 => sumClamp s idx p 8388608 (poolFrames s p) 0 v
  | 0x7000 => sumClamp s idx p 512 512 (((vOpen s false).filter fun x => x.2.f.val == p).length) v
  | 0x7001 => sumClamp s idx p 64 64 (((vOpen s true).filter fun x => x.2.f.val == p).length) v
  | _ => shareClamp s idx p v

/-- The value that a write of an object without a step of its own stores (R468). -/
def plainClamp (idx sub : Nat) (s : State) (v : Nat) : Nat :=
  if isGrant idx && (partGet s (sub - 1)).st != .active then odGet s idx sub
  else if isGrant idx || idx == 0x6408 then quotaClamp s idx (sub - 1) v
  else
    match idx with
    | 0x0402 => if v % 256 = 0xFD then v else 0
    | 0x1002 => enablesClamp sub v
    | 0x1101 => v / 1000000000 * 1000000000
    | 0x6020 => groupClamp s (sub - 1) v
    | 0x6021 => windowClamp s (sub - 1) v
    | 0x6401 => partnerClamp s v
    | 0x7C01 => min (logNewest s + 1) (max (logOldest s) v)
    | _ => clampRow idx sub s v

/-! ### Effects on the blocks -/

/-- A tray that is paired no more is UNPAIRED, and a standby wakes; no partner is lost (R265, R384, R434). -/
def pairUnset (s : State) : State :=
  match s.pair.role with
  | .failed | .takingOver => s
  | r =>
    let s := rehearsalLeave s
    let s := each (activeParts s) (fun s p => riskSet s p 4 false)
      { s with pair := { s.pair with role := .unpaired, degraded := false, partnerRole := none, partnerLost := false, alone := false, out := none } }
    if r = .standby ∨ r = .joining ∨ r = .rehearsing then
      each (activeParts s) (fun s p => partPower s p)
        (hbmWake { s with tray := { s.tray with clockState := .run, hub := { s.tray.hub with zoetrope := true } } })
    else s

/-- Counter blocks that leave a partition take their bindings with them (R337). -/
def bindsLeave (s : State) (old new : Nat) : State :=
  { s with trl := { s.trl with binds := s.trl.binds.filter fun b => !(old.testBit (b.1 / 64) && !new.testBit (b.1 / 64)) } }

/-- What the block of an object does with a value stored (R24, R26, R225). -/
def plainEffect (src : DictSrc) (idx sub old : Nat) (s : State) (w : Nat) : State :=
  match idx with
  | 0x3030 => waysHold s (sub - 1) old w
  | 0x6400 => if w = old then s else pairUnset s
  | 0x6401 => if w = old then s else pairUnset s
  | 0x6022 => bindsLeave s old w
  | 0x6408 => if w = old then s else retainFix s (sub - 1)
  | 0x640B => if w = 0 ∧ old = 1 then heldOpen s else s
  | 0x7C01 => cursorSet s src w
  | _ => s

/-- A write of an object without a step of its own. -/
def plainWrite (s : State) (rq : DictReq) (idx sub : Nat) (v : List Byte) : State :=
  let old := odGet s idx sub
  dictWrite s rq idx sub v (plainClamp idx sub) (plainEffect rq.src idx sub old)

/-! ### A WRITE to any object -/

/-- Virtual function of a subindex. -/
def subVf (sub : Nat) : Vf := vfOf (sub - 1)

/-- Die of a subindex. -/
def subDie (sub : Nat) : Die := ⟨(sub - 1) % 4, Nat.mod_lt _ (by decide)⟩

/-- Counter clears, by object. -/
def clearOf (idx : Nat) (rq : DictReq) (v : List Byte) (s : State) : Option Res :=
  match idx with
  | 0x140A => some (execPowerCounterClear rq v s)
  | 0x1508 => some (execThermalCounterClear rq v s)
  | 0x1605 => some (execMarginCounterClear rq v s)
  | 0x2014 => some (execMemoryCounterClear rq v s)
  | 0x2404 => some (execDmaCounterClear rq v s)
  | 0x3016 => some (execCarouselCounterClear rq v s)
  | 0x3035 => some (execKvCounterClear rq v s)
  | 0x4014 => some (execCoreCounterClear rq v s)
  | 0x4027 => some (execSequencerCounterClear rq v s)
  | 0x4035 => some (execConvolutionCounterClear rq v s)
  | 0x6042 => some (execTrellisCounterClear rq v s)
  | 0x640D => some (execPairCounterClear rq v s)
  | 0x6806 => some (execCvuCounterClear rq v s)
  | 0x7018 => some (execVideoCounterClear rq v s)
  | 0x7C03 => some (execLogClear rq v s)
  | 0x7C12 => some (execClampCounterClear rq v s)
  | 0x7C26 => some (execErrorCounterClear rq v s)
  | _ => none

/-- Objects without subindices whose write is a step of its own. -/
def soloOf (idx : Nat) (rq : DictReq) (v : List Byte) (s : State) : Option Res :=
  match idx with
  | 0x0408 => some (execPavilionRestart (.write rq v) s)
  | 0x1010 => some (execSpreadDepthWrite rq v s)
  | 0x3031 => some (execPrefixRebuild (.write rq v) s)
  | 0x5001 => some (.next (gateWrite s rq v))
  | 0x6406 => some (execRehearsalStart (.write rq v) s)
  | 0x640C => some (execPlannedSwitchover rq v s)
  | 0x7810 => some (execErrorInjectionWrite rq v s)
  | 0x7E01 => some (.next (updCommand s rq v))
  | 0x7E02 => some (execBlockSubmit rq v s)
  | 0x7E03 => some (execActivationTimeWrite rq v s)
  | 0x7E20 => some (execFloorAdvance rq v s)
  | _ => clearOf idx rq v s

/-- A write of OD 0x7E10, any value (R505, R508). -/
def resetWrite (s : State) (rq : DictReq) (v : List Byte) : State :=
  match v with
  | [b] =>
    if b = 1 then resState s (execWarmReset rq s)
    else if b.toNat ≥ 2 then
      dictWrite s rq 0x7E10 0 v resetClamp fun s w => if w = 2 then bootDo (freeStep s) (BitVec.ofNat 8 (freeVal s)) else odSet s 0x7E10 0 0
    else dictWrite s rq 0x7E10 0 v resetClamp fun s _ => s
  | _ => dictWrite s rq 0x7E10 0 v resetClamp fun s _ => s

/-- Objects with subindices whose write is a step of its own. -/
def indexedOf (idx sub : Nat) (rq : DictReq) (v : List Byte) (s : State) : Option Res :=
  match idx with
  | 0x0400 => some (execCredentialWrite rq (fin16 (sub - 1)) v s)
  | 0x1000 => some (execClockSourceSwitch rq ⟨(sub - 1) % 40, Nat.mod_lt _ (by decide)⟩ v s)
  | 0x1001 => some (execDieNocFrequencyWrite rq (subDie sub) v s)
  | 0x1400 => if sub = 1 then some (execSustainedCapWrite rq v s) else none
  | 0x1504 => some (execCoolingInputWrite rq ⟨(sub - 1) % 4, Nat.mod_lt _ (by decide)⟩ v s)
  | 0x3020 => some (execKvPoolWrite rq (fin16 (sub - 1)) v s)
  | 0x3800 => some (.next (varWrite s rq (sub - 1) v))
  | 0x3805 => some (execDeltaOwnerWrite rq (subDie sub) v s)
  | 0x4030 => some (execPinwheelOwnerWrite rq (subDie sub) v s)
  | 0x5410 => some (.next (slotWrite s rq (sub - 1) v))
  | 0x6800 => some (execHubCvuSettingWrite rq (subVf sub) v s)
  | 0x6801 => some (execHubCvuRunningWrite rq (subVf sub) v s)
  | 0x6803 => some (execHubCvuClose rq (subVf sub) v s)
  | 0x7E10 => some (.next (resetWrite s rq v))
  | 0x7E11 => some (match v with | [b] => execPartitionReset rq b s | _ => .next (plainWrite s rq idx sub v))
  | _ => none

/-- DICT_WRITE (R462 to R469): a WRITE to any object; one whose write is a step of its own takes that step. -/
def execDictWrite (rq : DictReq) (idx : BitVec 16) (sub : Byte) (v : List Byte) (s : State) : Res :=
  let (i, n) := (idx.toNat, sub.toNat)
  if (odRow i n).isNone then .next (plainWrite s rq i n v)
  else
    match indexedOf i n rq v s with
    | some r => r
    | none =>
      match soloOf i rq v s with
      | some r => r
      | none => if perturbObj i then execPerturbationWrite rq idx sub v s else .next (plainWrite s rq i n v)

end Sys2Proof.Machine
end

