-- ==== Sys2Proof/Machine/Tick.lean ====
section
/-! DEFINITION. What one timebase cycle does when no command waits (R133, R387 to R389, R529). -/

namespace Sys2Proof.Machine

open Sys2Proof

/-- The timebase and elapsed time one cycle on: while the timebase slews, every 10,000th cycle moves both by two or by none, and the error left shrinks by one (R387, R388, R390). -/
def tbTick (c : ClockS) : ClockS :=
  if !c.slewing ∨ c.slew = 0 then { c with timebase := c.timebase + 1, now := c.now + 1 }
  else if c.slewPhase + 1 < 10000 then { c with timebase := c.timebase + 1, now := c.now + 1, slewPhase := c.slewPhase + 1 }
  else if c.slew < 0 then { c with timebase := c.timebase + 2, now := c.now + 2, slew := c.slew + 1, slewPhase := 0 }
  else { c with slew := c.slew - 1, slewPhase := 0 }

/-- A collective of the step waits at step 2 of R339 for peers whose clock-state blocks keep arriving: no time limit applies (R345). -/
def peersWait (s : State) (x : StepRun) : Bool :=
  s.trl.jobs.any fun y =>
    let j := y.2
    let here (m : Nat) : Bool := m == ownSlot s || (match mget s.trl.peers m with
      | some c => !c.lost && decide (s.clk.now < c.at_ + 100000)
      | none => false)
    x.ctxs.contains j.ctx && j.started && !j.combined && tjOp j == 3
      && !waitOk (cabGet s (tjRcnt j)) (BitVec.ofNat 32 (rdTarget s j)) && (rdMembers j).all here

/-- Time that does not count toward a step's watchdog (R133, R345): an emergency in its quadrants, bit 0 of the perturbation word, or a wait for peers. -/
def stepPaused (s : State) (x : StepRun) : Bool :=
  perturbWord s % 2 == 1 || ((bitsOf 16 x.quads.toNat).any fun q => (qwGet s q).emergency) || peersWait s x

/-- One cycle: a snapshot due in it (R26), elapsed time, the timebase while its clock runs, watchdog exclusions, a drain's end, the end of source switches (R383), a port that is down trains (R322). -/
def tick (s : State) : State :=
  let s := if s.pair.cutDue then snapTake s else s
  let steps := s.car.steps.map fun x => (x.1, if stepPaused s x.2 then { x.2 with excluded := x.2.excluded + 1 } else x.2)
  let clk := if s.tray.hub.hubCommon && clkRuns s 0x26 then tbTick s.clk else { s.clk with now := s.clk.now + 1 }
  let s := each (mkeys s.clk.halts) haltEnd { s with clk := clk, car := { s.car with steps := steps } }
  portTrain (portTrain (drainTick s) 0) 1

end Sys2Proof.Machine
end

