-- ==== Sys2Proof/Machine/Dispatch.lean ====
section
/-! DEFINITION. The meaning of every command: one arm per constructor, one call per arm. -/

namespace Sys2Proof.Machine

open Sys2Proof

def exec (i : Instr) (s : State) : Host.Outcome State Fault Refusal :=
  match i with
  | .mainPowerGood inputMv trained => Sys2Proof.Machine.execMainPowerGood inputMv trained s
  | .preChargeContact => Sys2Proof.Machine.execPreChargeContact s
  | .mainSwitchClose busMv bulkMv storeMv => Sys2Proof.Machine.execMainSwitchClose busMv bulkMv storeMv s
  | .presenceAssert straps => Sys2Proof.Machine.execPresenceAssert straps s
  | .presenceLoss => Sys2Proof.Machine.execPresenceLoss s
  | .inputLoss => Sys2Proof.Machine.execInputLoss s
  | .overVoltage => Sys2Proof.Machine.execOverVoltage s
  | .componentStartTimeout c => Sys2Proof.Machine.execComponentStartTimeout c s
  | .configRequest f op => Sys2Proof.Machine.execConfigRequest f op s
  | .perstAssert => Sys2Proof.Machine.execPerstAssert s
  | .drainRequest => Sys2Proof.Machine.execDrainRequest s
  | .leverClose => Sys2Proof.Machine.execLeverClose s
  | .ppsEdge => Sys2Proof.Machine.execPpsEdge s
  | .timebaseSlewEnd => Sys2Proof.Machine.execTimebaseSlewEnd s
  | .holdoverEnter => Sys2Proof.Machine.execHoldoverEnter s
  | .stabilityInterval clk count => Sys2Proof.Machine.execStabilityInterval clk count s
  | .referenceReturn => Sys2Proof.Machine.execReferenceReturn s
  | .clockSourceSwitch rq dom v => Sys2Proof.Machine.execClockSourceSwitch rq dom v s
  | .spreadDepthWrite rq v => Sys2Proof.Machine.execSpreadDepthWrite rq v s
  | .dieNocFrequencyWrite rq d v => Sys2Proof.Machine.execDieNocFrequencyWrite rq d v s
  | .warmReset rq => Sys2Proof.Machine.execWarmReset rq s
  | .coldReset rq => Sys2Proof.Machine.execColdReset rq s
  | .partitionReset rq v => Sys2Proof.Machine.execPartitionReset rq v s
  | .governorCycle demand => Sys2Proof.Machine.execGovernorCycle demand s
  | .powerSample inputMw quadMw => Sys2Proof.Machine.execPowerSample inputMw quadMw s
  | .issueLimitApply q => Sys2Proof.Machine.execIssueLimitApply q s
  | .clockSettled q => Sys2Proof.Machine.execClockSettled q s
  | .sustainedCapWrite rq v => Sys2Proof.Machine.execSustainedCapWrite rq v s
  | .coolingInputWrite rq sub v => Sys2Proof.Machine.execCoolingInputWrite rq sub v s
  | .coolingInputStale sub => Sys2Proof.Machine.execCoolingInputStale sub s
  | .rideThroughExit => Sys2Proof.Machine.execRideThroughExit s
  | .sensorRead r => Sys2Proof.Machine.execSensorRead r s
  | .emergencyStep q => Sys2Proof.Machine.execEmergencyStep q s
  | .thermalRejoinReady => Sys2Proof.Machine.execThermalRejoinReady s
  | .sensorAlertClear pair => Sys2Proof.Machine.execSensorAlertClear pair s
  | .droopTrip q level => Sys2Proof.Machine.execDroopTrip q level s
  | .droopStretchEnd q => Sys2Proof.Machine.execDroopStretchEnd q s
  | .stretchLossWindow q => Sys2Proof.Machine.execStretchLossWindow q s
  | .guardStepReturn q => Sys2Proof.Machine.execGuardStepReturn q s
  | .canaryFail q path => Sys2Proof.Machine.execCanaryFail q path s
  | .canaryTrimDown q => Sys2Proof.Machine.execCanaryTrimDown q s
  | .bundleFetch d => Sys2Proof.Machine.execBundleFetch d s
  | .next c => Sys2Proof.Machine.execNext c s
  | .loopBegin c => Sys2Proof.Machine.execLoopBegin c s
  | .loopEnd c => Sys2Proof.Machine.execLoopEnd c s
  | .jump c => Sys2Proof.Machine.execJump c s
  | .stepBegin c => Sys2Proof.Machine.execStepBegin c s
  | .stepEnd c => Sys2Proof.Machine.execStepEnd c s
  | .fence c => Sys2Proof.Machine.execFence c s
  | .laneBeginBundle l => Sys2Proof.Machine.execLaneBeginBundle l s
  | .laneWait l => Sys2Proof.Machine.execLaneWait l s
  | .lanePost l => Sys2Proof.Machine.execLanePost l s
  | .laneWaitAndPost l => Sys2Proof.Machine.execLaneWaitAndPost l s
  | .scoreboardWait l => Sys2Proof.Machine.execScoreboardWait l s
  | .clusterDmaIssue l ch => Sys2Proof.Machine.execClusterDmaIssue l ch s
  | .tile k e => Sys2Proof.Machine.execTile k e s
  | .readout k e => Sys2Proof.Machine.execReadout k e s
  | .tileRead k e => Sys2Proof.Machine.execTileRead k e s
  | .aguStart k agu slot => Sys2Proof.Machine.execAguStart k agu slot s
  | .aguAdvance k agu slot => Sys2Proof.Machine.execAguAdvance k agu slot s
  | .aguStop k agu slot => Sys2Proof.Machine.execAguStop k agu slot s
  | .localToCluster k slot count => Sys2Proof.Machine.execLocalToCluster k slot count s
  | .clusterToLocal k slot count => Sys2Proof.Machine.execClusterToLocal k slot count s
  | .fadd k v => Sys2Proof.Machine.execFadd k v s
  | .fsub k v => Sys2Proof.Machine.execFsub k v s
  | .fmul k v => Sys2Proof.Machine.execFmul k v s
  | .fma k v => Sys2Proof.Machine.execFma k v s
  | .fmin k v => Sys2Proof.Machine.execFmin k v s
  | .fmax k v => Sys2Proof.Machine.execFmax k v s
  | .fcmplt k v => Sys2Proof.Machine.execFcmplt k v s
  | .fcmpeq k v => Sys2Proof.Machine.execFcmpeq k v s
  | .iadd k v => Sys2Proof.Machine.execIadd k v s
  | .isub k v => Sys2Proof.Machine.execIsub k v s
  | .imul k v => Sys2Proof.Machine.execImul k v s
  | .iadds k v => Sys2Proof.Machine.execIadds k v s
  | .isubs k v => Sys2Proof.Machine.execIsubs k v s
  | .and k v => Sys2Proof.Machine.execAnd k v s
  | .or k v => Sys2Proof.Machine.execOr k v s
  | .xor k v => Sys2Proof.Machine.execXor k v s
  | .shl k v => Sys2Proof.Machine.execShl k v s
  | .shr k v => Sys2Proof.Machine.execShr k v s
  | .sar k v => Sys2Proof.Machine.execSar k v s
  | .cvt k v => Sys2Proof.Machine.execCvt k v s
  | .exp2 k v => Sys2Proof.Machine.execExp2 k v s
  | .log2 k v => Sys2Proof.Machine.execLog2 k v s
  | .rsqrt k v => Sys2Proof.Machine.execRsqrt k v s
  | .recip k v => Sys2Proof.Machine.execRecip k v s
  | .rsum k v => Sys2Proof.Machine.execRsum k v s
  | .rmax k v => Sys2Proof.Machine.execRmax k v s
  | .rmin k v => Sys2Proof.Machine.execRmin k v s
  | .rmerge k v => Sys2Proof.Machine.execRmerge k v s
  | .vecLoad k v => Sys2Proof.Machine.execVecLoad k v s
  | .vecStore k v => Sys2Proof.Machine.execVecStore k v s
  | .shadow k v => Sys2Proof.Machine.execShadow k v s
  | .flags k v => Sys2Proof.Machine.execFlags k v s
  | .setup k v => Sys2Proof.Machine.execSetup k v s
  | .param k v => Sys2Proof.Machine.execParam k v s
  | .vecPost k v => Sys2Proof.Machine.execVecPost k v s
  | .syncPost src c n amt cyc => Sys2Proof.Machine.execSyncPost src c n amt cyc s
  | .syncSet src c n v cyc => Sys2Proof.Machine.execSyncSet src c n v cyc s
  | .syncWait src c n t cyc => Sys2Proof.Machine.execSyncWait src c n t cyc s
  | .syncRead src c n cyc => Sys2Proof.Machine.execSyncRead src c n cyc s
  | .parityError site => Sys2Proof.Machine.execParityError site s
  | .stepDispatch p => Sys2Proof.Machine.execStepDispatch p s
  | .stepComplete p => Sys2Proof.Machine.execStepComplete p s
  | .stepEarlyEnd c code => Sys2Proof.Machine.execStepEarlyEnd c code s
  | .stepWatchdogExpiry p => Sys2Proof.Machine.execStepWatchdogExpiry p s
  | .stepReplay p => Sys2Proof.Machine.execStepReplay p s
  | .costTableCommit p => Sys2Proof.Machine.execCostTableCommit p s
  | .copy e ecc => Sys2Proof.Machine.execCopy e ecc s
  | .fill e => Sys2Proof.Machine.execFill e s
  | .pageRead e ecc => Sys2Proof.Machine.execPageRead e ecc s
  | .pageWrite e => Sys2Proof.Machine.execPageWrite e s
  | .descriptorComplete e => Sys2Proof.Machine.execDescriptorComplete e s
  | .hostReadCompletion tag data ok => Sys2Proof.Machine.execHostReadCompletion tag data ok s
  | .gcmDecrypt => Sys2Proof.Machine.execGcmDecrypt s
  | .patrolScrub stack ecc => Sys2Proof.Machine.execPatrolScrub stack ecc s
  | .hbmRetrain stack channel => Sys2Proof.Machine.execHbmRetrain stack channel s
  | .pinwheelJob d => Sys2Proof.Machine.execPinwheelJob d s
  | .pinwheelOwnerWrite rq d v => Sys2Proof.Machine.execPinwheelOwnerWrite rq d v s
  | .deltaJob d => Sys2Proof.Machine.execDeltaJob d s
  | .deltaOwnerWrite rq d v => Sys2Proof.Machine.execDeltaOwnerWrite rq d v s
  | .submissionDoorbell f ring v => Sys2Proof.Machine.execSubmissionDoorbell f ring v s
  | .submissionNop => Sys2Proof.Machine.execSubmissionNop s
  | .submit hostTokens => Sys2Proof.Machine.execSubmit hostTokens s
  | .cancel => Sys2Proof.Machine.execCancel s
  | .loadImage img => Sys2Proof.Machine.execLoadImage img s
  | .alloc => Sys2Proof.Machine.execAlloc s
  | .free => Sys2Proof.Machine.execFree s
  | .dmaCommand desc => Sys2Proof.Machine.execDmaCommand desc s
  | .prefixMatch handle => Sys2Proof.Machine.execPrefixMatch handle s
  | .roundStart p => Sys2Proof.Machine.execRoundStart p s
  | .cowCopyComplete p status => Sys2Proof.Machine.execCowCopyComplete p status s
  | .waitingPageResume p => Sys2Proof.Machine.execWaitingPageResume p s
  | .epochAdvance => Sys2Proof.Machine.execEpochAdvance s
  | .frameRelease frame => Sys2Proof.Machine.execFrameRelease frame s
  | .prefixRebuild t => Sys2Proof.Machine.execPrefixRebuild t s
  | .rebuildMigrateSet => Sys2Proof.Machine.execRebuildMigrateSet s
  | .prefixTableSwitch => Sys2Proof.Machine.execPrefixTableSwitch s
  | .kvPoolWrite rq p v => Sys2Proof.Machine.execKvPoolWrite rq p v s
  | .poolRelayout p => Sys2Proof.Machine.execPoolRelayout p s
  | .completionHeadDoorbell f ring v => Sys2Proof.Machine.execCompletionHeadDoorbell f ring v s
  | .msixModerationTimer f ring => Sys2Proof.Machine.execMsixModerationTimer f ring s
  | .variantRegister rq p variant addr => Sys2Proof.Machine.execVariantRegister rq p variant addr s
  | .variantRetire rq p variant => Sys2Proof.Machine.execVariantRetire rq p variant s
  | .variantCheckDone p => Sys2Proof.Machine.execVariantCheckDone p s
  | .zoetropeDoorbell f v => Sys2Proof.Machine.execZoetropeDoorbell f v s
  | .openSession => Sys2Proof.Machine.execOpenSession s
  | .feed => Sys2Proof.Machine.execFeed s
  | .encode => Sys2Proof.Machine.execEncode s
  | .key => Sys2Proof.Machine.execKey s
  | .release => Sys2Proof.Machine.execRelease s
  | .flush => Sys2Proof.Machine.execFlush s
  | .close => Sys2Proof.Machine.execClose s
  | .entropySwitch eng session filled met => Sys2Proof.Machine.execEntropySwitch eng session filled met s
  | .pictureReconstructStart session h => Sys2Proof.Machine.execPictureReconstructStart session h s
  | .ctuRowDispatch session unit row => Sys2Proof.Machine.execCtuRowDispatch session unit row s
  | .pictureOutput session => Sys2Proof.Machine.execPictureOutput session s
  | .releaseCounterPost part session n => Sys2Proof.Machine.execReleaseCounterPost part session n s
  | .encodePicture session => Sys2Proof.Machine.execEncodePicture session s
  | .flitReceive port flit fecOk corrected => Sys2Proof.Machine.execFlitReceive port flit fecOk corrected s
  | .flitReplay port seq => Sys2Proof.Machine.execFlitReplay port seq s
  | .portDown port => Sys2Proof.Machine.execPortDown port s
  | .laneOutOfService port lane => Sys2Proof.Machine.execLaneOutOfService port lane s
  | .laneRestore port lane => Sys2Proof.Machine.execLaneRestore port lane s
  | .helloSend port => Sys2Proof.Machine.execHelloSend port s
  | .helloReceive port h => Sys2Proof.Machine.execHelloReceive port h s
  | .equalisationRequest port lane coeff => Sys2Proof.Machine.execEqualisationRequest port lane coeff s
  | .writePacket port pkt => Sys2Proof.Machine.execWritePacket port pkt s
  | .postPacket port pkt => Sys2Proof.Machine.execPostPacket port pkt s
  | .ackPacket port pkt => Sys2Proof.Machine.execAckPacket port pkt s
  | .nakPacket port pkt => Sys2Proof.Machine.execNakPacket port pkt s
  | .packetResend dst group seq => Sys2Proof.Machine.execPacketResend dst group seq s
  | .sendJob job => Sys2Proof.Machine.execSendJob job s
  | .trellisPostJob job => Sys2Proof.Machine.execTrellisPostJob job s
  | .reduceJob job => Sys2Proof.Machine.execReduceJob job s
  | .reduceCombine job => Sys2Proof.Machine.execReduceCombine job s
  | .bindJob job => Sys2Proof.Machine.execBindJob job s
  | .trellisJobComplete job => Sys2Proof.Machine.execTrellisJobComplete job s
  | .clockStateSend => Sys2Proof.Machine.execClockStateSend s
  | .clockStateReceive slot part mhz causes => Sys2Proof.Machine.execClockStateReceive slot part mhz causes s
  | .peerLost slot => Sys2Proof.Machine.execPeerLost slot s
  | .form rq p mask => Sys2Proof.Machine.execForm rq p mask s
  | .remove rq p => Sys2Proof.Machine.execRemove rq p s
  | .revocationWaitEnd p => Sys2Proof.Machine.execRevocationWaitEnd p s
  | .granuleScrub g mismatches => Sys2Proof.Machine.execGranuleScrub g mismatches s
  | .rotateXts rq p => Sys2Proof.Machine.execRotateXts rq p s
  | .xtsSweepGranule p d => Sys2Proof.Machine.execXtsSweepGranule p d s
  | .xtsOldZeroize p => Sys2Proof.Machine.execXtsOldZeroize p s
  | .rotatePrefix rq p => Sys2Proof.Machine.execRotatePrefix rq p s
  | .attestReq f nonce => Sys2Proof.Machine.execAttestReq f nonce s
  | .certReq asker => Sys2Proof.Machine.execCertReq asker s
  | .keyInstall f w e first last => Sys2Proof.Machine.execKeyInstall f w e first last s
  | .keyDropOld f w e first last => Sys2Proof.Machine.execKeyDropOld f w e first last s
  | .keyActivation slot => Sys2Proof.Machine.execKeyActivation slot s
  | .ephemeralKeyExpiry p => Sys2Proof.Machine.execEphemeralKeyExpiry p s
  | .slotAssignmentWrite rq slot v => Sys2Proof.Machine.execSlotAssignmentWrite rq slot v s
  | .rmaEntry serial edSig mlSig edPub mlPub => Sys2Proof.Machine.execRmaEntry serial edSig mlSig edPub mlPub s
  | .hubCvuSettingWrite rq f v => Sys2Proof.Machine.execHubCvuSettingWrite rq f v s
  | .hubCvuRunningWrite rq f v => Sys2Proof.Machine.execHubCvuRunningWrite rq f v s
  | .hubCvuClose rq f v => Sys2Proof.Machine.execHubCvuClose rq f v s
  | .snapshotCut => Sys2Proof.Machine.execSnapshotCut s
  | .snapshotReceive seq recs check => Sys2Proof.Machine.execSnapshotReceive seq recs check s
  | .snapshotAck seq => Sys2Proof.Machine.execSnapshotAck seq s
  | .snapshotAbandon => Sys2Proof.Machine.execSnapshotAbandon s
  | .takeoverStart cause => Sys2Proof.Machine.execTakeoverStart cause s
  | .yield => Sys2Proof.Machine.execYield s
  | .plannedSwitchover rq v => Sys2Proof.Machine.execPlannedSwitchover rq v s
  | .followerAdmit m => Sys2Proof.Machine.execFollowerAdmit m s
  | .stepCheckValueReceive p seq v => Sys2Proof.Machine.execStepCheckValueReceive p seq v s
  | .proofTestResult p r => Sys2Proof.Machine.execProofTestResult p r s
  | .rehearsalStart t => Sys2Proof.Machine.execRehearsalStart t s
  | .rehearsalEnd values => Sys2Proof.Machine.execRehearsalEnd values s
  | .datagramReceive seg udpPort payload => Sys2Proof.Machine.execDatagramReceive seg udpPort payload s
  | .fragmentTimeout sid seq => Sys2Proof.Machine.execFragmentTimeout sid seq s
  | .hello seg body => Sys2Proof.Machine.execHello seg body s
  | .auth sid body => Sys2Proof.Machine.execAuth sid body s
  | .dictRead rq idx sub => Sys2Proof.Machine.execDictRead rq idx sub s
  | .dictWrite rq idx sub v => Sys2Proof.Machine.execDictWrite rq idx sub v s
  | .readClamp rq idx sub => Sys2Proof.Machine.execReadClamp rq idx sub s
  | .subscribe rq idx sub minMs => Sys2Proof.Machine.execSubscribe rq idx sub minMs s
  | .unsubscribe rq idx sub => Sys2Proof.Machine.execUnsubscribe rq idx sub s
  | .notify sid idx sub => Sys2Proof.Machine.execNotify sid idx sub s
  | .sessionClose sid => Sys2Proof.Machine.execSessionClose sid s
  | .sessionIdleTimeout sid => Sys2Proof.Machine.execSessionIdleTimeout sid s
  | .pavilionRestart t => Sys2Proof.Machine.execPavilionRestart t s
  | .credentialWrite rq slot v => Sys2Proof.Machine.execCredentialWrite rq slot v s
  | .errorLogRead rq => Sys2Proof.Machine.execErrorLogRead rq s
  | .logClear rq v => Sys2Proof.Machine.execLogClear rq v s
  | .clampCounterClear rq v => Sys2Proof.Machine.execClampCounterClear rq v s
  | .coreCounterClear rq v => Sys2Proof.Machine.execCoreCounterClear rq v s
  | .sequencerCounterClear rq v => Sys2Proof.Machine.execSequencerCounterClear rq v s
  | .memoryCounterClear rq v => Sys2Proof.Machine.execMemoryCounterClear rq v s
  | .dmaCounterClear rq v => Sys2Proof.Machine.execDmaCounterClear rq v s
  | .convolutionCounterClear rq v => Sys2Proof.Machine.execConvolutionCounterClear rq v s
  | .kvCounterClear rq v => Sys2Proof.Machine.execKvCounterClear rq v s
  | .carouselCounterClear rq v => Sys2Proof.Machine.execCarouselCounterClear rq v s
  | .videoCounterClear rq v => Sys2Proof.Machine.execVideoCounterClear rq v s
  | .trellisCounterClear rq v => Sys2Proof.Machine.execTrellisCounterClear rq v s
  | .powerCounterClear rq v => Sys2Proof.Machine.execPowerCounterClear rq v s
  | .thermalCounterClear rq v => Sys2Proof.Machine.execThermalCounterClear rq v s
  | .marginCounterClear rq v => Sys2Proof.Machine.execMarginCounterClear rq v s
  | .pairCounterClear rq v => Sys2Proof.Machine.execPairCounterClear rq v s
  | .cvuCounterClear rq v => Sys2Proof.Machine.execCvuCounterClear rq v s
  | .errorCounterClear rq v => Sys2Proof.Machine.execErrorCounterClear rq v s
  | .functionQuiesce f v => Sys2Proof.Machine.execFunctionQuiesce f v s
  | .functionDisable f t => Sys2Proof.Machine.execFunctionDisable f t s
  | .functionIdle f => Sys2Proof.Machine.execFunctionIdle f s
  | .poisonedTlp p => Sys2Proof.Machine.execPoisonedTlp p s
  | .barWriteDiscard f off size => Sys2Proof.Machine.execBarWriteDiscard f off size s
  | .updateBegin rq => Sys2Proof.Machine.execUpdateBegin rq s
  | .blockSubmit rq v => Sys2Proof.Machine.execBlockSubmit rq v s
  | .updateVerify rq => Sys2Proof.Machine.execUpdateVerify rq s
  | .updateAbort rq => Sys2Proof.Machine.execUpdateAbort rq s
  | .activationTimeWrite rq v => Sys2Proof.Machine.execActivationTimeWrite rq v s
  | .activation => Sys2Proof.Machine.execActivation s
  | .activationCommit => Sys2Proof.Machine.execActivationCommit s
  | .floorAdvance rq v => Sys2Proof.Machine.execFloorAdvance rq v s
  | .errorInjectionWrite rq v => Sys2Proof.Machine.execErrorInjectionWrite rq v s
  | .injectedError => Sys2Proof.Machine.execInjectedError s
  | .perturbationWrite rq idx sub v => Sys2Proof.Machine.execPerturbationWrite rq idx sub v s
  | .functionRegisterWrite f off size v => Sys2Proof.Machine.execFunctionRegisterWrite f off size v s
  | .lossOfLock clk => Sys2Proof.Machine.execLossOfLock clk s
  | .creditControlBlock port vc n => Sys2Proof.Machine.execCreditControlBlock port vc n s
  | .completionTimeout tag => Sys2Proof.Machine.execCompletionTimeout tag s
  | .pavilionAnsweringAgain => Sys2Proof.Machine.execPavilionAnsweringAgain s
  | .icmpv6Message seg echo body => Sys2Proof.Machine.execIcmpv6Message seg echo body s
  | .segmentStatusChange seg st => Sys2Proof.Machine.execSegmentStatusChange seg st s
  | .armedInstantExchange t => Sys2Proof.Machine.execArmedInstantExchange t s
  | .group63KeyAgreement peerSerial peerEdPub peerMlPub reportDigest edSig mlSig peerX25519 mlkemCt => Sys2Proof.Machine.execGroup63KeyAgreement peerSerial peerEdPub peerMlPub reportDigest edSig mlSig peerX25519 mlkemCt s

end Sys2Proof.Machine
end

