-- ==== Sys2Proof/Safety.lean ====
section
/-! DEFINITION. What every step keeps: the canonical form of the memories, and that fuses are programmed once. -/

namespace Sys2Proof.Machine

open Sys2Proof

/-- The canonical form of the two memories: addresses strictly rising, and no zero listed on chip, where an unlisted byte is zero. An HBM byte is listed when it has been written since its granule was scrubbed (R417). -/
def Memory.wf (m : MemS) : Bool := mwf m.hbm && mwf m.sram && m.sram.all fun c => c.2 != 0

/-- How far a lifecycle fuse is programmed (R394). -/
def Lifecycle.rank : Lifecycle → Nat
  | .manufacture => 0
  | .secured => 1
  | .rma => 2

/-- Fuses `b` come from fuses `a` by programming (R394): identity and root keys stay, a revocation and a closed test port stay, the lifecycle goes one way, and no version floor falls. -/
structure FuseLe (a b : Fuses) : Prop where
  part : b.part = a.part
  serial : b.serial = a.serial
  rootA : b.rootA = a.rootA
  rootB : b.rootB = a.rootB
  revoked : a.rootARevoked = true → b.rootARevoked = true
  closed : a.dbgClosed = true → b.dbgClosed = true
  lifecycle : a.lifecycle.rank ≤ b.lifecycle.rank
  floors : ∀ c, a.floors.getD c 0 ≤ b.floors.getD c 0

/-- What a command may do beside its own effect: it leaves the queue, programs fuses only forward, and keeps the memories' form. -/
structure Keeps (s t : State) : Prop where
  queue : t.pending = s.pending
  fuses : FuseLe s.fuses t.fuses
  mem : Memory.wf s.mem = true → Memory.wf t.mem = true

/-- A command goes through, and leaves a state that keeps what every command keeps. -/
def ResKeeps (s : State) (r : Res) : Prop := ∃ t, r = .next t ∧ Keeps s t

end Sys2Proof.Machine
end

