-- ==== Sys2Proof/Certificates/Slice0/Obligations.lean ====
section
/-! DEFINITION. What the model claims, for the provers: for every command where it completes and what it leaves, and what every step keeps. -/

namespace Sys2Proof.Claims

open Sys2Proof Sys2Proof.Machine

/-- The command completes, and the state it leaves is as said. -/
def Runs (c : Instr) (s : State) (P : State → Prop) : Prop := ∃ t, exec c s = .next t ∧ P t

/-! ### Cores -/

/-- Nothing but core `k` changes. -/
def CoreOnly (s t : State) (k : CoreId) : Prop :=
  t = { s with cores := t.cores } ∧ ∀ j, j ≠ k.val → coreGet t j = coreGet s j

/-- Lane `l` of register `r` of core `k`. -/
abbrev lane (s : State) (k : CoreId) (r : Fin 32) (l : Nat) : W32 := vlane (coreGet s k.val) r.val l

/-- The governed lanes of VD of core `k` hold `f`, and no other lane of any register of the core changes. -/
def LanesHold (s t : State) (k : CoreId) (v : VArgs) (f : Nat → W32) : Prop :=
  (∀ l, l < 64 → lane t k v.vd l = if (govern (coreGet s k.val) v).getLsbD l then f l else lane s k v.vd l)
  ∧ ∀ r, r ≠ v.vd → ∀ l, lane t k r l = lane s k r l

/-- A vector operation that writes registers and perhaps the flag word: all else of the core, every other core, memory and everything beside stay. -/
def LanesOnly (s t : State) (k : CoreId) (v : VArgs) (f : Nat → W32) : Prop :=
  CoreOnly s t k ∧ LanesHold s t k v f
  ∧ coreGet t k.val = { coreGet s k.val with vregs := (coreGet t k.val).vregs, flags := (coreGet t k.val).flags }

/-- The flag word of core `k` gains the flags of the governed lanes. -/
def FlagsGain (s t : State) (k : CoreId) (v : VArgs) (f : Nat → BitVec 4) : Prop :=
  (coreGet t k.val).flags = (coreGet s k.val).flags ||| orFlags ((govLanes (coreGet s k.val) v).map f)

/-- A byte of the local SRAM of core `k` as its partition reads it (R78, R91). -/
abbrev coreByte (s : State) (k : CoreId) (off : Nat) : Byte :=
  sramByte s (quadOwner s (coreQuad k.val)) (coreAddr k.val off)

/-- A slot of an address generator of core `k`. -/
abbrev aguSlot (s : State) (k : CoreId) (agu slot : Nat) : AguSlot := slotGet (coreGet s k.val) agu slot

/-- The core's local addresses of the next `n` lines of a LINEAR slot lie outside GROUP 3 (R78). -/
def LinesIn (x : AguSlot) (n : Nat) : Prop := ∀ i, i < n → linAddr x i + 64 ≤ 0xC0000

/-- Only dictionary counters, cores and on-chip storage may differ. -/
def CoresAndCounters (s t : State) : Prop :=
  t = { s with cores := t.cores, pav := { s.pav with vals := t.pav.vals }, mem := { s.mem with sram := t.mem.sram, lines := t.mem.lines } }

/-! ### Dictionary writes -/


/-- A source may write bytes of the right number to an object, and Pavilion answers (R463). -/
def MayStore (s : State) (rq : DictReq) (idx sub : Nat) (v : List Byte) : Prop :=
  pavOn s = true ∧ ∃ r, odRow idx sub = some r ∧ mayWrite s rq.src idx sub r.acc = true ∧ v.length = r.size

/-- Nothing but the dictionary, its answers and what a clamp reports differs. -/
def DictOnly (s t : State) : Prop := t = { s with pav := t.pav, pcie := t.pcie, out := t.out }

/-- The object holds a value, and nothing beside the dictionary differs. -/
def Stores (s t : State) (idx sub w : Nat) : Prop := odGet t idx sub = w ∧ DictOnly s t

/-! ### Completion rings -/


/-- Completion ring `c` of partition `p`'s function is enabled, has room, nothing waits for it, and no drain has completed (R252, R529). -/
def RingRoom (s : State) (p c : Nat) : Prop :=
  let q := cqGet (fnGet s (p + 1)) c
  s.tray.drain ≠ .completed ∧ q.log2 ≠ 0 ∧ cqFull q = false ∧ backlogOf s (p + 1) c = []

/-- The command sends nothing away and writes a completion of a kind and status to a ring, under a host tag (R252). -/
def Tells (s t : State) (p c kind status : Nat) (tag : BitVec 64) : Prop :=
  ∃ new i e, t.out = new ++ s.out ∧ .completion (vfOf p) c i e ∈ new
    ∧ fld e 254 251 = kind ∧ fld e 250 243 = status ∧ fld e 210 147 = tag.toNat

/-- As `Tells`, with the VALUE that the completion carries (R252). -/
def TellsValue (s t : State) (p c kind status : Nat) (tag : BitVec 64) (value : Nat) : Prop :=
  ∃ new i e, t.out = new ++ s.out ∧ .completion (vfOf p) c i e ∈ new
    ∧ fld e 254 251 = kind ∧ fld e 250 243 = status ∧ fld e 210 147 = tag.toNat ∧ fld e 146 115 = value % 2 ^ 32

/-- The state in which an entry taken up is decided: out of the queue, its clamps counted. -/
def takenUp (s : State) (i : Nat) (k : Taken) : State :=
  hostClamp (takenDrop s i k) (k.f.val + 1) (eClamped s k.f.val k.entry).2

/-- The entry with its fields clamped (R497). -/
def entryOf (s : State) (k : Taken) : W512 := (eClamped s k.f.val k.entry).1

/-- The command sends nothing away and writes a video completion of a kind and status for a session (R302, R303). -/
def VTells (s t : State) (f : Vf) (kind status session : Nat) (tag : BitVec 64) : Prop :=
  ∃ new i e, t.out = new ++ s.out ∧ .completion (vfOf f.val) 8 i e ∈ new
    ∧ fld e 254 251 = kind ∧ fld e 250 243 = status ∧ fld e 242 227 = session % 65536 ∧ fld e 226 163 = tag.toNat

/-! ### The Gatehouse -/

/-- Function `f`'s mailbox holds a message, which went out (R405). -/
def Mail (s t : State) (f : Nat) (bs : List Byte) : Prop :=
  (fnGet t f).mailbox = cellsPutZ [] 0 bs ∧ ∃ more, t.out = more ++ .mailbox (funcOf f) bs :: s.out

/-- The Gatehouse takes a partition command (R400). -/
def MayCommand (s : State) (rq : DictReq) (op : Nat) (p : PartId) (mask : BitVec 16) : Prop :=
  s.tray.hub.gatehouse = true ∧ MayStore s rq 0x5001 0 (gateBytes op p mask)

/-- A partition command reports a result and does nothing else. -/
def Reports (s t : State) (r : Nat) : Prop := odGet t 0x5003 0 = r ∧ DictOnly s t

/-- The next generation of a key slot, with a key (R403, R410). -/
def nextKey (k : KeySlot) (key : Nat) (old : Option (Nat × Nat)) : KeySlot :=
  { k with cur := (k.cur + 1) % 16, curKey := some key, old := old }

/-! ### Pairs and Pavilion -/

/-- The member goes on alone as ACTIVE, with what it held released (R265, R447). -/
def Alone (t : State) : Prop := t.pair.role = .active ∧ t.pair.partnerLost = true ∧ t.pair.compare = [] ∧ t.pair.proof = [] ∧ t.car.heldOut = []

/-- The tray has declared itself failed (R384, R541). -/
def Failed (t : State) : Prop := t.tray.failed = true ∧ t.pair.role = .failed ∧ t.tray.clockState = .deepSleep

/-- The operation's answer stands in its window, or in the RESPONSE being built, which goes out with the message's last operation (R462, R474). -/
def Answers (s t : State) (rq : DictReq) (status idx sub : Nat) (v : List Byte) : Prop :=
  match rq.src with
  | .window f =>
    let w := mgetD t.pav.windows f.val {}
    w.busy = false ∧ w.status = status ∧ w.len = v.length ∧ w.value = (v ++ List.replicate 128 0).take 128
  | .session sid => ∀ x, mget s.pav.sessions sid.val = some x → x.isOpen = true → ∃ y, mget t.pav.sessions sid.val = some y
      ∧ (rq.last = false → y.building = x.building ++ answerBytes status idx sub v ∧ y.ops = x.ops + 1)
      ∧ (rq.last = true → y.building = [] ∧ y.txSeq = x.txSeq + 1 ∧ ∃ more,
          t.out = .datagram x.seg 9 (sessNo sid.val) x.txSeq (leBytes 4 rq.reqId.toNat ++ leBytes 1 (x.ops + 1) ++ leBytes 3 0 ++ (x.building ++ answerBytes status idx sub v)) :: more)

/-- An object whose write has no step of its own. -/
def Plain (s : State) (rq : DictReq) (idx sub : Nat) (v : List Byte) : Prop :=
  indexedOf idx sub rq v s = none ∧ soloOf idx rq v s = none ∧ perturbObj idx = false

/-- A write of 1 returns every object of some ranges to its default, and changes nothing else but the answer (R467, R477). -/
def Clears (s t : State) (rq : DictReq) (idx : Nat) (ranges : List (Nat × Nat)) : Prop :=
  Answers s t rq 0 idx 0 [0] ∧ DictOnly s t
  ∧ (∀ i n, n < 256 → (∃ r, r ∈ ranges ∧ r.1 ≤ i ∧ i ≤ r.2) → odGet t i n = odDefault i n)
  ∧ ∀ i n, n < 256 → (∀ r, r ∈ ranges → i < r.1 ∨ r.2 < i) → i ≠ idx → odGet t i n = odGet s i n

end Sys2Proof.Claims

open Sys2Proof Sys2Proof.Machine Sys2Proof.Claims

/-! ### The vector unit (02, 03, 04) -/

/-- R74, R117: the integer operations write each governed lane and raise no flag. -/
def Obligations.IntegerVectorOpsWriteGovernedLanes : Prop :=
  ∀ (k : CoreId) (v : VArgs) (s : State), quadOn s (coreQuad k.val) = true →
    let ok (c : Instr) (f : Nat → W32) : Prop :=
      Runs c s fun t => LanesOnly s t k v f ∧ (coreGet t k.val).flags = (coreGet s k.val).flags
    let a := lane s k v.va
    let b := lane s k v.vb
    let n := (v.imm % 32).toNat
    ok (.iadd k v) (fun l => a l + b l) ∧ ok (.isub k v) (fun l => a l - b l) ∧ ok (.imul k v) (fun l => a l * b l)
    ∧ ok (.iadds k v) (fun l => BitVec.ofInt 32 (min (2 ^ 31 - 1) (max (-(2 ^ 31)) ((a l).toInt + (b l).toInt))))
    ∧ ok (.isubs k v) (fun l => BitVec.ofInt 32 (min (2 ^ 31 - 1) (max (-(2 ^ 31)) ((a l).toInt - (b l).toInt))))
    ∧ ok (.and k v) (fun l => a l &&& b l) ∧ ok (.or k v) (fun l => a l ||| b l) ∧ ok (.xor k v) (fun l => a l ^^^ b l)
    ∧ ok (.shl k v) (fun l => a l <<< n) ∧ ok (.shr k v) (fun l => a l >>> n) ∧ ok (.sar k v) (fun l => (a l).sshiftRight n)

/-- R53 to R57, R44, R47, R117: the floating-point operations, functions and record merge write each governed lane, rounded once, and OR the lanes' flags into the flag word; CVT does so between legal formats. -/
def Obligations.FloatVectorOpsRoundOnceAndGainFlags : Prop :=
  ∀ (k : CoreId) (v : VArgs) (s : State), quadOn s (coreQuad k.val) = true →
    let ok (c : Instr) (f : Nat → W32 × BitVec 4) : Prop :=
      Runs c s fun t => LanesOnly s t k v (fun l => (f l).1) ∧ FlagsGain s t k v fun l => (f l).2
    let x (l : Nat) := f32 (lane s k v.va l)
    let y (l : Nat) := f32 (lane s k v.vb l)
    let z (l : Nat) := f32 (lane s k v.vc l)
    let rec' (r : Fin 32) (l : Nat) := vrecord (coreGet s k.val) r.val (l / 4)
    ok (.fadd k v) (fun l => f32w (numAdd (x l) (y l)))
    ∧ ok (.fsub k v) (fun l => f32w (numAdd (x l) (numNeg (y l))))
    ∧ ok (.fmul k v) (fun l => f32w (numMul (x l) (y l)))
    ∧ ok (.fma k v) (fun l => f32w (numAdd (numMul (x l) (y l)) (z l)))
    ∧ ok (.fmin k v) (fun l => f32w (numMin (x l) (y l))) ∧ ok (.fmax k v) (fun l => f32w (numMax (x l) (y l)))
    ∧ ok (.exp2 k v) (fun l => f32exp2 (lane s k v.va l)) ∧ ok (.log2 k v) (fun l => f32log2 (lane s k v.va l))
    ∧ ok (.rsqrt k v) (fun l => f32rsqrt (lane s k v.va l)) ∧ ok (.recip k v) (fun l => f32recip (lane s k v.va l))
    ∧ ok (.rmerge k v) (fun l => mergeLane (rec' v.va l) (rec' v.vb l) l)
    ∧ (fld v.imm 31 28 ≤ 10 → fld v.imm 27 24 ≤ 10 → ok (.cvt k v) fun l => cvtLane v.imm (lane s k v.va l))

/-- R53, R75, R117: RSUM, RMAX and RMIN give every governed lane the same result, computed from the governed lanes of VA; with no governed lane they change nothing that can be read. An RSUM whose fields without a use are zero is the rounded sum; where they are not, its form is the model's choice (log entry 102): a sum in parts on one record, a row's integer maximum, or a softmax denominator (R59 to R61). -/
def Sys2Proof.Claims.ReductionsGiveGovernedLanesOneResult : Prop :=
  ∀ (k : CoreId) (v : VArgs) (s : State), quadOn s (coreQuad k.val) = true →
    let c := coreGet s k.val
    let terms := (govLanes c v).map fun l => f32 (lane s k v.va l)
    let r := vrecord c v.vc.val 0
    let gains (i : Instr) (f : Nat → W32) (fl : BitVec 4) : Prop :=
      Runs i s fun t => LanesOnly s t k v f ∧ (coreGet t k.val).flags = c.flags ||| (if govLanes c v = [] then 0 else fl)
    let ok (i : Instr) (x : W32 × BitVec 4) : Prop := gains i (fun _ => x.1) x.2
    let weights := (terms.map (softWeight (lane s k v.vb 0).toInt)).foldl (accAdd 1) (if (recRead r).1 = 1 then (recRead r).2 else {})
    let (f, fl) : (Nat → W32) × BitVec 4 :=
      match rsumForm v with
      | 1 => (recLane (recWrite (vecAnchor terms) {}), 0)
      | 2 => (recLane (recWrite (max (recRead r).1 (vecAnchor terms)) {}), 0)
      | 3 => (recLane (recAdd r terms).1, (recAdd r terms).2)
      | 4 => (fun _ => (f32w (accValue (recRead r).1 (recRead r).2)).1,
              (f32w (accValue (recRead r).1 (recRead r).2)).2 ||| if (recRead r).2.sat then 8 else 0)
      | 5 => (fun _ => BitVec.ofInt 32 (splitMax terms), 0)
      | 6 => (recLane (recWrite 1 weights), if weights.sat then 8 else 0)
      | _ => (fun _ => (rsumOf terms).1, (rsumOf terms).2)
    gains (.rsum k v) f fl
    ∧ (v.vb.val = 0 → v.vc.val = 0 → v.imm = 0 → ok (.rsum k v) (rsumOf terms))
    ∧ ok (.rmax k v) (f32w (fold1 numMax terms)) ∧ ok (.rmin k v) (f32w (fold1 numMin terms))

/-- R53, R117: a compare writes the governed bits of the predicate register that VD names; register 0 goes on reading all ones. -/
def Sys2Proof.Claims.ComparesWriteGovernedPredicateBits : Prop :=
  ∀ (k : CoreId) (v : VArgs) (s : State), quadOn s (coreQuad k.val) = true →
    let c := coreGet s k.val
    let d := v.vd.val % 8
    let ok (i : Instr) (f : Sys2Proof.Machine.Num → Sys2Proof.Machine.Num → Bool) : Prop :=
      Runs i s fun t => CoreOnly s t k
        ∧ coreGet t k.val = { c with preds := (coreGet t k.val).preds }
        ∧ (∀ l, l < 64 → (predReg (coreGet t k.val) d).getLsbD l =
            if d = 0 then true
            else if (govern c v).getLsbD l then f (f32 (lane s k v.va l)) (f32 (lane s k v.vb l)) else (predReg c d).getLsbD l)
        ∧ ∀ p, p ≠ d → predReg (coreGet t k.val) p = predReg c p
    ok (.fcmplt k v) (numLt false) ∧ ok (.fcmpeq k v) (fun x y => x != .nan && y != .nan && !numLt false x y && !numLt false y x)

/-- R71, R76, R89, R98, R107, R117: FLAGS copies the flag word to one governed lane and clears it; PARAM broadcasts a step parameter; SETUP takes an engine setup from eight written bytes of local SRAM; POST posts to a sync table entry of the lane, and a post to another partition's counter is dropped and counted, one to a quadrant without power is lost. -/
def Obligations.VectorControlOpsMoveFlagsSetupsAndPosts : Prop :=
  ∀ (k : CoreId) (v : VArgs) (s : State), quadOn s (coreQuad k.val) = true →
    let c := coreGet s k.val
    let a := fld v.imm 19 6 * 64
    let e := (laneGet s (coreClus k.val)).table.getD (fld v.imm 3 0) 0
    Runs (.flags k v) s (fun t =>
      CoreOnly s t k ∧ (coreGet t k.val).flags = 0
      ∧ LanesHold s t k v fun l => if l = fld v.imm 5 0 then c.flags.setWidth 32 else lane s k v.vd l)
    ∧ (∀ x, laneCtx s (coreClus k.val) = some x → Runs (.param k v) s fun t =>
        LanesOnly s t k v (fun _ => (ctxGet s x).params.getD (fld v.imm 2 0) 0) ∧ (coreGet t k.val).flags = c.flags)
    ∧ (a < 0xC0000 → Runs (.setup k v) s fun t =>
        t = { s with cores := t.cores, pav := { s.pav with vals := t.pav.vals } } ∧ (∀ j, j ≠ k.val → coreGet t j = coreGet s j)
        ∧ coreGet t k.val = { c with setups := (coreGet t k.val).setups }
        ∧ setupGet (coreGet t k.val) (fld v.imm 2 0) = BitVec.ofNat 64 (leNat ((List.range 8).map fun i => coreByte s k (a + i))))
    ∧ (0xC0000 ≤ a → Runs (.setup k v) s fun t =>
        setupGet (coreGet t k.val) (fld v.imm 2 0) = 0 ∧ (coreGet t k.val).addrFault = true)
    ∧ (∀ d : Clus, clusOfLoc (fld e 127 108) = some d.val → clusOn s d.val = true → quadOwner s (clusQuad d.val) = quadOwner s (coreQuad k.val) →
        Runs (.vecPost k v) s fun t => t = { s with sync := t.sync }
          ∧ cntValue (cntGet t d.val (fld e 107 99)) = cntValue (cntGet s d.val (fld e 107 99)) + BitVec.ofNat 32 (fld e 95 80)
          ∧ ∀ i, i ≠ cntKey d.val (fld e 107 99) → mget t.sync i = mget s.sync i)
    ∧ (∀ d : Clus, clusOfLoc (fld e 127 108) = some d.val → clusOn s d.val = true → quadOwner s (clusQuad d.val) ≠ quadOwner s (coreQuad k.val) →
        Runs (.vecPost k v) s fun t => t = foreignOp s d.val)
    ∧ (∀ d : Clus, clusOfLoc (fld e 127 108) = some d.val → clusOn s d.val = false → Runs (.vecPost k v) s fun t => t = s)

/-- R77, R78, R191, R117: LOAD through an active LINEAR slot widens the next 64 elements into the governed lanes and moves the slot on; an idle slot loads zeros and is an address fault; in CONV mode lane l holds the element of the slot's step at position P0 + l. STORE packs the governed lanes of VA over what its lines held, in the slot's format, and stores nothing else; through an idle slot it stores nothing and is an address fault. -/
def Obligations.VectorLoadAndStoreMoveElements : Prop :=
  ∀ (k : CoreId) (v : VArgs) (s : State), quadOn s (coreQuad k.val) = true →
    let sl := fld v.imm 3 0
    let x := aguSlot s k 0 sl
    let f := fld x.desc 504 501
    let n := max 1 (64 * fmtBits f / 512)
    let y := aguSlot s k 1 sl
    let w := fmtBits (fld y.desc 504 501)
    let m := max 1 (64 * w / 512)
    let line (i : Nat) := (List.range 64).map fun j => coreByte s k (linAddr y i + j)
    let new := (govLanes (coreGet s k.val) v).foldl (fun b l => nput b (w * l + w - 1) (w * l) (lane s k v.va l).toNat)
      (leNat ((List.range m).flatMap line))
    (x.active = true → slotConv x.desc = false → LinesIn x n → Runs (.vecLoad k v) s fun t =>
      t = { s with cores := t.cores, pav := { s.pav with vals := t.pav.vals } }
      ∧ (∀ j, j ≠ k.val → coreGet t j = coreGet s j) ∧ (coreGet t k.val).flags = (coreGet s k.val).flags
      ∧ aguSlot t k 0 sl = { x with lines := x.lines + n }
      ∧ LanesHold s t k v fun l =>
          loadLane f (streamElem (leNat ((List.range n).flatMap fun i => (List.range 64).map fun j => coreByte s k (linAddr x i + j))) (fmtBits f) l))
    ∧ (x.active = false → Runs (.vecLoad k v) s fun t =>
        (coreGet t k.val).addrFault = true ∧ t.mem = s.mem ∧ LanesHold s t k v fun l => loadLane f (streamElem 0 (fmtBits f) l))
    ∧ (x.active = true → slotConv x.desc = true →
        Runs (.vecLoad k v) s fun t => aguSlot t k 0 sl = { x with step := x.step + 1 } ∧ t.mem = s.mem
          ∧ LanesHold s t k v fun l => loadLane f (convSupply s k.val x (x.pos + (l : Int)) x.step).1)
    ∧ (y.active = false → Runs (.vecStore k v) s fun t =>
        (coreGet t k.val).addrFault = true ∧ t.mem = s.mem ∧ coreGet t k.val = { coreGet s k.val with addrFault := true })
    ∧ (y.active = true → LinesIn y m → Runs (.vecStore k v) s fun t =>
        aguSlot t k 1 sl = { y with lines := y.lines + m } ∧ t.mem.hbm = s.mem.hbm
        ∧ (∀ a, (∀ i, i < m → a < linAddr y i ∨ linAddr y i + 64 ≤ a) → coreByte t k a = coreByte s k a)
        ∧ ∀ i j, i < m → j < 64 → (∀ i', i < i' → i' < m → linAddr y i + j < linAddr y i' ∨ linAddr y i' + 64 ≤ linAddr y i + j) →
            coreByte t k (linAddr y i + j) = (leBytes (64 * m) new).getD (64 * i + j) 0)

/-- R33, R74, R117: SHADOW gives lane l the shared exponent of the 32 elements in lane l of registers VA to VA + 15, two to a lane; whether they are BF16 or FP16 the entry does not say, and it is left open. -/
def Sys2Proof.Claims.ShadowCollectsSharedExponents : Prop :=
  ∀ (k : CoreId) (v : VArgs) (s : State), quadOn s (coreQuad k.val) = true →
    Runs (.shadow k v) s fun t => (coreGet t k.val).flags = (coreGet s k.val).flags ∧ LanesOnly s t k v fun l =>
      BitVec.ofNat 32 (shadowOf (if Config.shadowIsFp16 (vargsNat v) then 9 else 8)
        ((List.range 16).flatMap fun i =>
          let x := (vlane (coreGet s k.val) ((v.va.val + i) % 32) l).toNat
          [x % 65536, x / 65536]))

/-- R53, R75, R117: a reduction gives every governed lane the same result, computed from the governed lanes of VA, an RSUM by its form (log entry 102); with no governed lane it changes nothing that can be read. R53, R117: a compare writes the governed bits of the predicate register that VD names; register 0 goes on reading all ones. R33, R74, R117: SHADOW gives lane l the shared exponent of the 32 elements in lane l of registers VA to VA + 15, two to a lane; whether they are BF16 or FP16 the entry does not say, and it is left open. -/
def Obligations.ReductionsComparesAndShadowWriteTheirLanes : Prop :=
  Claims.ReductionsGiveGovernedLanesOneResult ∧ Claims.ComparesWriteGovernedPredicateBits ∧ Claims.ShadowCollectsSharedExponents

/-! ### Address generators, local DMA, engines (03, 06) -/

/-- R118, R182, R183: START takes a slot to its origin, ADVANCE moves it, STOP idles it; of the core nothing else changes. -/
def Sys2Proof.Claims.AddressGeneratorsStartAdvanceStop : Prop :=
  ∀ (k : CoreId) (g : Fin 2) (n : Fin 16) (s : State), quadOn s (coreQuad k.val) = true →
    let x := aguSlot s k g.val n.val
    let only (t : State) : Prop := CoreOnly s t k
      ∧ coreGet t k.val = { coreGet s k.val with slots := (coreGet t k.val).slots }
      ∧ ∀ i, i ≠ slotKey g.val n.val → mget (coreGet t k.val).slots i = mget (coreGet s k.val).slots i
    Runs (.aguStart k g n) s (fun t => only t
      ∧ let y := aguSlot t k g.val n.val
        y.desc = x.desc ∧ y.active = true ∧ y.pos = (fld x.desc 211 188 : Nat) ∧ y.cblk = (fld x.desc 235 228 : Nat) ∧ y.step = 0
        ∧ y.base = (fld x.desc 495 476 : Nat) ∧ y.lines = 0)
    ∧ Runs (.aguAdvance k g n) s (fun t => only t
      ∧ let y := aguSlot t k g.val n.val
        y.desc = x.desc ∧ y.active = x.active ∧ y.step = 0
        ∧ (slotConv x.desc = true → y.pos = x.pos + sx 16 (fld x.desc 187 172) ∧ y.cblk = x.cblk + sx 8 (fld x.desc 171 164))
        ∧ (slotConv x.desc = false → y.base = x.base + 64 * sx 16 (fld x.desc 187 172) ∧ y.lines = 0 ∧ y.pos = x.pos))
    ∧ Runs (.aguStop k g n) s fun t => only t ∧ aguSlot t k g.val n.val = { x with active := false }

/-- R82, R83, R91, R119, R120: a local DMA transfer moves the slot's first line between local and cluster SRAM and advances the slot by every line moved. -/
def Sys2Proof.Claims.LocalDmaMovesLinesAndAdvancesSlot : Prop :=
  ∀ (k : CoreId) (n : Fin 16) (s : State), quadOn s (coreQuad k.val) = true →
    let g := ldmaGet (coreGet s k.val) n.val
    let own := quadOwner s (coreQuad k.val)
    let clus (s : State) (j : Nat) : Byte := sramByte s own (clusAddr (coreClus k.val) (g.2.toNat * 64) + j)
    let loc (s : State) (j : Nat) : Byte := coreByte s k (g.1.toNat * 64 + j)
    let moved (t : State) (c : Nat) : Prop := ldmaGet (coreGet t k.val) n.val = (g.1 + BitVec.ofNat 14 c, g.2 + BitVec.ofNat 15 c)
    g.1.toNat * 64 < 0xC0000 →
    (∀ c : Fin 8, (Runs (.localToCluster k n c) s fun t => moved t (c.val + 1) ∧ t.mem.hbm = s.mem.hbm)
      ∧ Runs (.clusterToLocal k n c) s fun t => moved t (c.val + 1) ∧ t.mem.hbm = s.mem.hbm)
    ∧ (Runs (.localToCluster k n 0) s fun t => (∀ j, j < 64 → clus t j = loc s j)
        ∧ ∀ a, (a < clusAddr (coreClus k.val) (g.2.toNat * 64) ∨ clusAddr (coreClus k.val) (g.2.toNat * 64) + 64 ≤ a) → sramByte t own a = sramByte s own a)
    ∧ Runs (.clusterToLocal k n 0) s fun t => (∀ j, j < 64 → loc t j = clus s j)
        ∧ ∀ a, (a < coreAddr k.val (g.1.toNat * 64) ∨ coreAddr k.val (g.1.toNat * 64) + 64 ≤ a) → sramByte t own a = sramByte s own a

/-- R118, R182, R183: START takes a slot to its origin, ADVANCE moves it, STOP idles it; of the core nothing else changes. R82, R83, R91, R119, R120: a local DMA transfer moves the slot's first line between local and cluster SRAM and advances the slot by every line moved. -/
def Obligations.AddressGeneratorsAndLocalDmaAdvanceTheirSlots : Prop :=
  Claims.AddressGeneratorsStartAdvanceStop ∧ Claims.LocalDmaMovesLinesAndAdvancesSlot

/-- The accumulator set that an operation's tile uses on an engine (R67). -/
def Sys2Proof.Claims.setOf (s : State) (k : CoreId) (e : EArgs) (g : Nat) : Bool :=
  if e.firstSet then false else mgetD (coreGet s k.val).nextSet g false

/-- Lines that a row of a readout takes from its slot (R68). -/
def Sys2Proof.Claims.rowLineCount (w : BitVec 64) : Nat := if bit w 23 && !setupBad w then 8 else cdiv (4 * fmtBits (outFmt w)) 64

/-- The bytes and flags of a row of a readout: its records, or its converted values, divided first where the readout writes a quotient, at a page's scale where it writes a KV page (R44, R47 to R52, R60, R68, R210). -/
def Sys2Proof.Claims.rowBytes (w : BitVec 64) (den : Option Sys2Proof.Machine.Num) (page : Option Nat) (r : AccRow) : List Byte × BitVec 4 :=
  if bit w 23 && !setupBad w then recordRow r else ((convRow w r den page).1, (convRow w r den page).2.2)

/-- What a readout of the rows `rows` through an active slot leaves of a state `u`: the flags of every row, the slot moved on, and, where no scale or shadow bytes go elsewhere, each row's bytes in its lines and no other byte changed. Which divisors the rows take, and whether any, rests on where the model takes them from (Config.quotientBase). -/
def Sys2Proof.Claims.ReadOut (u : State) (k : CoreId) (e : EArgs) (w : BitVec 64) (rows : List AccRow) (t : State) : Prop :=
  let y := aguSlot u k 1 e.bSlot.val
  let m := rowLineCount w
  let page := slotPage u k.val y.desc
  ∃ den : Nat → Option Sys2Proof.Machine.Num, (Config.quotientBase y.desc = none → ∀ i, den i = none)
    ∧ (coreGet t k.val).flags = (coreGet u k.val).flags ||| orFlags (rows.zipIdx.map fun r => (rowBytes w (den r.2) page r.1).2)
    ∧ (coreGet t k.val).accs = (coreGet u k.val).accs ∧ t.mem.hbm = u.mem.hbm
    ∧ aguSlot t k 1 e.bSlot.val = { y with lines := y.lines + rows.length * m }
    ∧ (LinesIn y (rows.length * m) → (bit w 23 && !setupBad w) = true ∨ (fmtMX (outFmt w) || fmtShadow (outFmt w)) = false →
        (∀ a, (∀ i, i < rows.length * m → a < linAddr y i ∨ linAddr y i + 64 ≤ a) → coreByte t k a = coreByte u k a)
        ∧ ∀ i r n b, rows[i]? = some r → (rowBytes w (den i) page r).1[n]? = some b →
            (∀ i', m * i + n / 64 < i' → i' < rows.length * m →
              linAddr y (m * i + n / 64) + n % 64 < linAddr y i' ∨ linAddr y i' + 64 ≤ linAddr y (m * i + n / 64) + n % 64) →
            coreByte t k (linAddr y (m * i + n / 64) + n % 64) = b)

/-- R67, R68, R73, R115: a tile on an illegal setup gives every accumulator NaN, a tile on a legal setup gives each enabled engine the sums of its operands on its rows' anchors; either takes the alternate set next. A readout through an active slot raises the flags of its rows, writes them to the slot's next lines and keeps every accumulator; through an idle slot it raises the flags, stores nothing and is an address fault. TILE_READ is the tile, and then the readout of the set that the tile does not use. -/
def Obligations.TilesFillSetsAndReadoutsRaiseFlags : Prop :=
  ∀ (k : CoreId) (e : EArgs) (s : State), quadOn s (coreQuad k.val) = true →
    let c := coreGet s k.val
    let w := setupGet c e.setup.val
    let kb := fld w 20 8
    let bc := bit w 22
    let es := engines e
    let acc (t : State) (g : Nat) (b : Bool) : Option (List AccRow) := mget (coreGet t k.val).accs (accKey g b)
    let rows (b : Nat → Bool) : List AccRow := (List.range 64).flatMap fun r => es.map fun g =>
      (mgetD c.accs (accKey g (b g)) []).getD r { cells := List.replicate 32 0 }
    let idle (u : State) (b : Nat → Bool) (t : State) : Prop :=
      (coreGet t k.val).accs = (coreGet u k.val).accs ∧ t.mem = u.mem ∧ (es ≠ [] → (coreGet t k.val).addrFault = true)
      ∧ (coreGet t k.val).flags = (coreGet u k.val).flags ||| orFlags ((rows b).map fun r => (rowBytes w none (slotPage s k.val (aguSlot s k 1 e.bSlot.val).desc) r).2)
    (setupBad w = true → Runs (.tile k e) s fun t => CoreOnly s t k ∧ ∀ g, g ∈ es →
        acc t g (setOf s k e g) = some (List.replicate 64 { nan := true, cells := List.replicate 32 0 })
        ∧ mget (coreGet t k.val).nextSet g = some (!setOf s k e g))
    ∧ (setupBad w = false → Runs (.tile k e) s fun t =>
        let pre := !bit w 48 && !bit w 21
        let a := opRead s k.val 0 e.aSlot.val (fld w 63 60) (if bc then 64 else 64 * es.length) kb pre
        let b := opRead a.2 k.val 1 e.bSlot.val (fld w 59 56) (32 * es.length) kb pre
        let recs := if bit w 21 then (localRead b.2 k.val (Config.recordBase (aguSlot b.2 k 1 e.bSlot.val).desc) (64 * 32 * 16 * es.length)).1 else []
        (coreGet t k.val).flags = c.flags ∧ t.mem = s.mem ∧ ∀ i g, es[i]? = some g →
          acc t g (setOf s k e g) = some (tileRows w a.1 b.1 (if bc then 0 else i) i (recs.drop (64 * 32 * 16 * i)))
          ∧ mget (coreGet t k.val).nextSet g = some (!setOf s k e g))
    ∧ ((aguSlot s k 1 e.bSlot.val).active = true → Runs (.readout k e) s (ReadOut s k e w (rows fun _ => e.firstSet)))
    ∧ ((aguSlot s k 1 e.bSlot.val).active = false → Runs (.readout k e) s (idle s fun _ => e.firstSet))
    ∧ ∀ u, exec (.tile k e) s = .next u →
        ((aguSlot s k 1 e.bSlot.val).active = true → Runs (.tileRead k e) s (ReadOut u k e w (rows fun g => !setOf s k e g)))
        ∧ ((aguSlot s k 1 e.bSlot.val).active = false → Runs (.tileRead k e) s (idle u fun g => !setOf s k e g))

/-! ### Sync counters (03) -/

/-- R16, R86, R88, R89, R336: operations of one cycle commit together, the SET before the POSTs, on a counter of a cluster and of the cabinet alike; a WAIT and a READ see the value at the start of their cycle; of two SETs in a cycle the higher-numbered source wins, and on a cluster's counter sets the conflict bit (of two from one source the first stays, the model's choice of log entry 99); another partition's POST or SET is dropped, on a cluster counted; a counter without power holds and answers nothing. -/
def Obligations.SyncCountersCommitByCycle : Prop :=
  ∀ (src : SyncSrc) (c : SyncAt) (n : Fin 1024) (cyc : Nat) (s : State),
    let x := syncGet s c n.val
    let now := if x.cyc < cyc then cntValue x else x.base
    let only (t : State) : Prop := match c with
      | .cluster k => t = { s with sync := t.sync } ∧ ∀ i, i ≠ cntKey k.val n.val → mget t.sync i = mget s.sync i
      | .cabinet => t = { s with trl := { s.trl with cabinet := t.trl.cabinet } } ∧ ∀ i, i ≠ n.val → mget t.trl.cabinet i = mget s.trl.cabinet i
    (syncOn s c n.val = true → syncOwned s src.part.val c n.val = true →
      (∀ amt : BitVec 16, Runs (.syncPost src c n amt cyc) s fun t =>
        only t ∧ cntValue (syncGet t c n.val) = cntValue x + amt.setWidth 32 ∧ cntAt (syncGet t c n.val) cyc = now)
      ∧ (∀ v : W32, (x.cyc < cyc ∨ x.set = none) → Runs (.syncSet src c n v cyc) s fun t =>
        only t ∧ cntAt (syncGet t c n.val) cyc = now
        ∧ cntValue (syncGet t c n.val) = v + (if x.cyc < cyc then 0 else x.posts))
      ∧ ∀ (v : W32) (l : Nat) (u : W32), cyc ≤ x.cyc → x.set = some (l, u) → Runs (.syncSet src c n v cyc) s fun t =>
          cntValue (syncGet t c n.val) = (if src.loc.toNat > l then v else u) + x.posts
          ∧ match c with
            | .cluster k =>
              t = { s with sync := t.sync, pav := t.pav } ∧ (∀ i, i ≠ cntKey k.val n.val → mget t.sync i = mget s.sync i)
              ∧ odGet t 0x4011 (clusQuad k.val + 1) = odGet s 0x4011 (clusQuad k.val + 1) % 2 ^ 31 + 2 ^ 31
            | .cabinet => only t)
    ∧ (syncOn s c n.val = true → syncOwned s src.part.val c n.val = false → ∀ (amt : BitVec 16) (v : W32),
        let dropped (t : State) : Prop := match c with
          | .cluster k =>
            let flag := odGet s 0x4011 (clusQuad k.val + 1)
            t = { s with pav := t.pav }
            ∧ odGet t 0x4011 (clusQuad k.val + 1) = flag / 2 ^ 31 * 2 ^ 31 + min (flag % 2 ^ 31 + 1) (2 ^ 31 - 1)
          | .cabinet => t = s
        Runs (.syncPost src c n amt cyc) s dropped ∧ Runs (.syncSet src c n v cyc) s dropped)
    ∧ (syncOn s c n.val = true →
        (∀ t' : W32, Runs (.syncWait src c n t' cyc) s fun t =>
          t = { s with out := .syncSatisfied c n (decide ((now - t').toNat < 2 ^ 31)) :: s.out })
        ∧ Runs (.syncRead src c n cyc) s fun t => t = { s with out := .syncValue c n now :: s.out })
    ∧ (syncOn s c n.val = false → ∀ (amt : BitVec 16) (v : W32),
        Runs (.syncPost src c n amt cyc) s (· = s) ∧ Runs (.syncSet src c n v cyc) s (· = s)
        ∧ Runs (.syncWait src c n v cyc) s (· = s) ∧ Runs (.syncRead src c n cyc) s (· = s))

/-! ### Bundle sequencer and lanes (04) -/

/-- R102, R103, R124, R126: each sequencer operation, latched by the fetch, moves the context's pointer, sets or counts down its loop, or ends its fetching, and changes nothing else. -/
def Obligations.SequencerOperationsMoveTheContext : Prop :=
  ∀ (c : Ctx) (s : State) (h : BitVec 128), (ctxGet s c.val).latch = some h →
    let x := ctxGet s c.val
    let lvl := fld h 103 101
    let trips := if bit h 95 then (x.params.getD (fld h 74 72) 0).toNat else fld h 94 72
    let left := x.loops.getD lvl 0 - 1
    let goes (i : Instr) (y : Context) : Prop := Runs i s fun t =>
      ctxGet t c.val = { y with latch := none } ∧ (∀ d, d ≠ c.val → ctxGet t d = ctxGet s d)
      ∧ t = { s with seq := { s.seq with ctxs := t.seq.ctxs } }
    (seqop h = 0 → goes (.next c) { x with ptr := x.ptr + 1 })
    ∧ (seqop h = 1 → trips ≠ 0 → goes (.loopBegin c) { x with loops := x.loops.set lvl trips, ptr := x.ptr + 1 })
    ∧ (seqop h = 1 → trips = 0 → goes (.loopBegin c) { x with loops := x.loops.set lvl 0, ptr := loopExit s c.val x.ptr lvl })
    ∧ (seqop h = 2 → left ≠ 0 → goes (.loopEnd c) { x with loops := x.loops.set lvl left, ptr := fld h 71 56 })
    ∧ (seqop h = 2 → left = 0 → goes (.loopEnd c) { x with loops := x.loops.set lvl 0, ptr := x.ptr + 1 })
    ∧ (seqop h = 3 → goes (.jump c) { x with ptr := fld h 71 56 })
    ∧ (seqop h = 4 → goes (.stepBegin c) { x with ptr := x.ptr + 1 })
    ∧ (seqop h = 5 → goes (.stepEnd c) { x with fetching := false })
    ∧ (seqop h = 6 → goes (.fence c) { x with ptr := x.ptr + 1 })

/-- R91, R100, R121, R122, R127: a fetch takes one bundle for the next context of the die with fetch pending, latches its header and queues its slice on every lane of the context and on no other; a bundle with an illegal header ends the step with an image fault. -/
def Obligations.BundleFetchQueuesASliceOnEveryLane : Prop :=
  ∀ (d : Die) (s : State) (c : Nat), fetchPick s d.val = some c →
    let b := bundleRead s c (ctxGet s c).ptr
    let h := bundleHead b
    (fld h 127 124 = 1 → seqop h ≤ 6 → Runs (.bundleFetch d) s fun t =>
      ctxGet t c = { ctxGet s c with latch := some h }
      ∧ (∀ l, l ∈ ctxLanes s c → laneGet t l = { laneGet s l with queue := (laneGet s l).queue ++
          [{ idle := !(h.getLsbD (104 + l % 8)), bits := bundleLane b (l % 8), rep := fld h 119 112,
             pwr := BitVec.ofNat 8 (fld h 55 48), fence := seqop h == 6, stepEnd := seqop h == 5 }] })
      ∧ (∀ l, l ∉ ctxLanes s c → laneGet t l = laneGet s l)
      ∧ mget t.seq.lastFetched d.val = some (c % 4) ∧ t.cores = s.cores ∧ t.mem = s.mem ∧ t.sync = s.sync)
    ∧ (fld h 127 124 ≠ 1 ∨ 6 < seqop h → (ctxGet s c).step.isSome = true → (ctxGet s c).fault = none → Runs (.bundleFetch d) s fun t =>
      ctxGet t c = { ctxGet s c with fault := some 1, fetching := false, latch := none }
      ∧ ∀ l, l ∈ ctxLanes s c → (laneGet t l).queue = [] ∧ (laneGet t l).cur = none ∧ (laneGet t l).ended = true)

/-- The lane `l` alone changes, to `x`, in the sequencers. -/
def Sys2Proof.Claims.LaneBecomes (s t : State) (l : Nat) (x : Lane) : Prop :=
  laneGet t l = x ∧ (∀ m, m ≠ l → laneGet t m = laneGet s m) ∧ t.seq = { s.seq with lanes := t.seq.lanes }

/-- R86, R106 to R110: a wait that holds advances its running target, one that does not hold changes nothing; a due post is made once, after the last repetition. -/
def Sys2Proof.Claims.LanesWaitAndPost : Prop :=
  ∀ (l : Clus) (s : State) (sl : Slice),
    let x := laneGet s l.val
    let we := slWaitEntry sl
    let pe := syncEntry s l.val (slPostEntry sl)
    let holds := waitOk (cntValue (cntGet s l.val (fld (syncEntry s l.val we) 107 99))) (mgetD x.targets we 0)
    let met := holds && sbGet x (slSbWait sl) == 0
    let waited (i : Instr) : Prop :=
      (met = true → Runs i s fun t =>
        LaneBecomes s t l.val { x with waitDone := true, sbDone := true, targets := mset x.targets we (mgetD x.targets we 0 + BitVec.ofNat 32 (fld (syncEntry s l.val we) 95 80)) }
        ∧ t = { s with seq := t.seq })
      ∧ (met = false → Runs i s fun t => t = s)
    let posted (i : Instr) : Prop :=
      ∀ d : Clus, clusOfLoc (fld pe 127 108) = some d.val → clusOn s d.val = true → quadOwner s (clusQuad d.val) = quadOwner s (clusQuad l.val) → Runs i s fun t =>
        LaneBecomes s t l.val { x with postDue := false }
        ∧ cntValue (cntGet t d.val (fld pe 107 99)) = cntValue (cntGet s d.val (fld pe 107 99)) + BitVec.ofNat 32 (fld pe 95 80)
        ∧ t = { s with seq := t.seq, sync := t.sync }
    let free := x.cur = none ∧ x.queue.head? = some sl
    (free → x.waitDone = false → slSync sl = 1 → waited (.laneWait l))
    ∧ (free → x.waitDone = false → slSync sl = 3 → waited (.laneWaitAndPost l))
    ∧ (free → x.waitDone = false → slSync sl % 2 = 1 → slSbWait sl ≠ 0 → waited (.scoreboardWait l))
    ∧ (free → slSync sl % 2 = 0 → slSbWait sl ≠ 0 →
        (sbGet x (slSbWait sl) = 0 → Runs (.scoreboardWait l) s fun t => LaneBecomes s t l.val { x with sbDone := true } ∧ t = { s with seq := t.seq })
        ∧ (sbGet x (slSbWait sl) ≠ 0 → Runs (.scoreboardWait l) s fun t => t = s))
    ∧ (x.cur = some sl → x.postDue = true → x.beatsLeft ≤ 1 → slSync sl = 2 → posted (.lanePost l))
    ∧ (x.cur = some sl → x.postDue = true → x.beatsLeft ≤ 1 → slSync sl = 3 → posted (.laneWaitAndPost l))
    ∧ (x.cur = some sl → 1 < x.beatsLeft → slSync sl = 2 → Runs (.lanePost l) s fun t => t = s)

/-- R102, R104 to R106, R111, R113, R126, R127, R136: at a beat boundary a free lane whose fence, waits and issue gap allow begins the slice at the head of its queue, counts its beats, and its first beat runs: the cluster DMA issues and the eight core words, in order; a reserved encoding then ends the step. A gap takes a beat, and a wait or a full scoreboard slot holds the lane. A slice with beats left runs the next; the last slice of a step ends the lane once its post is made and its scoreboard reads zero. -/
def Sys2Proof.Claims.LanesBeginRepeatAndEnd : Prop :=
  ∀ (l : Clus) (s : State) (sl : Slice) (c : Nat),
    let x := laneGet s l.val
    let gap := x.gapLeft.getD (if sl.pwr.toNat > (laneLimit s l.val).1 then (laneLimit s l.val).2 else 0)
    let open_ := sl.fence = true → fenceOpen s c l.val = true
    let beat (y : Lane) (bad : Bool) : Prop := Runs (.laneBeginBundle l) s fun t =>
      ∃ u, LaneBecomes s u l.val y ∧ u = { s with seq := u.seq, pav := u.pav }
        ∧ t = if bad then laneFault (laneBeat l sl u) l.val 1 else laneBeat l sl u
    let begun := { x with queue := x.queue.tail, cur := some sl, beatsLeft := sl.rep + 1, gapLeft := none, waitDone := false, sbDone := false, postDue := decide (slSync sl ≥ 2) }
    laneCtx s l.val = some c → quadOn s (clusQuad l.val) = true → x.ended = false →
    (x.cur = none → x.queue.head? = some sl →
      (open_ → waitsDone x sl = true → gap = 0 → beatHeld s l.val sl = false → beat begun (sliceBad s l.val sl))
      ∧ (open_ → waitsDone x sl = true → gap ≠ 0 → Runs (.laneBeginBundle l) s fun t =>
          LaneBecomes s t l.val { x with gapLeft := some (gap - 1) } ∧ t = { s with seq := t.seq })
      ∧ (waitsDone x sl = false → Runs (.laneBeginBundle l) s fun t => t = s)
      ∧ (gap = 0 → beatHeld s l.val sl = true → Runs (.laneBeginBundle l) s fun t => t = s))
    ∧ (x.cur = some sl → 1 < x.beatsLeft → beatHeld s l.val sl = false → beat { x with beatsLeft := x.beatsLeft - 1 } false)
    ∧ (x.cur = some sl → x.beatsLeft ≤ 1 → x.postDue = false → sl.stepEnd = true → sbClear x = true → Runs (.laneBeginBundle l) s fun t =>
        LaneBecomes s t l.val { x with cur := none, beatsLeft := 0, ended := true } ∧ t = { s with seq := t.seq })

/-- The vector opcodes of R117, each with its command. -/
def Sys2Proof.Claims.opcodes : List (Nat × (CoreId → VArgs → Instr)) :=
  [(0x00, .fadd), (0x01, .fsub), (0x02, .fmul), (0x03, .fma), (0x04, .fmin), (0x05, .fmax), (0x06, .fcmplt), (0x07, .fcmpeq),
   (0x10, .iadd), (0x11, .isub), (0x12, .imul), (0x13, .iadds), (0x14, .isubs), (0x15, .and), (0x16, .or), (0x17, .xor),
   (0x18, .shl), (0x19, .shr), (0x1A, .sar), (0x20, .cvt), (0x30, .exp2), (0x31, .log2), (0x32, .rsqrt), (0x33, .recip),
   (0x40, .rsum), (0x41, .rmax), (0x42, .rmin), (0x43, .rmerge), (0x50, .vecLoad), (0x51, .vecStore),
   (0x60, .shadow), (0x61, .flags), (0x62, .setup), (0x63, .param), (0x64, .vecPost)]

/-- R113 to R119: a core word with one field set does what that field's command does: the two address generators, the engine, one entry of the vector operation table, the local DMA; a word of zeros does nothing. -/
def Sys2Proof.Claims.CoreWordsActAsTheirCommands : Prop :=
  ∀ (k : CoreId) (s : State),
    let does (w : Nat) (i : Instr) : Prop := exec i s = .next (coreBeat k w s)
    coreBeat k 0 s = s
    ∧ (∀ n : Fin 16,
        does (1 * 2 ^ 22 + n.val * 2 ^ 18) (.aguStart k 0 n) ∧ does (2 * 2 ^ 22 + n.val * 2 ^ 18) (.aguAdvance k 0 n)
        ∧ does (3 * 2 ^ 22 + n.val * 2 ^ 18) (.aguStop k 0 n) ∧ does (1 * 2 ^ 16 + n.val * 2 ^ 12) (.aguStart k 1 n)
        ∧ does (2 * 2 ^ 16 + n.val * 2 ^ 12) (.aguAdvance k 1 n) ∧ does (3 * 2 ^ 16 + n.val * 2 ^ 12) (.aguStop k 1 n)
        ∧ ∀ c : Fin 8, does (1 * 2 ^ 10 + n.val * 2 ^ 6 + c.val * 2 ^ 3) (.localToCluster k n c)
          ∧ does (2 * 2 ^ 10 + n.val * 2 ^ 6 + c.val * 2 ^ 3) (.clusterToLocal k n c))
    ∧ (∀ e : EArgs,
        let w := e.en.toNat * 2 ^ 56 + e.setup.val * 2 ^ 50 + e.firstSet.toNat * 2 ^ 49 + e.aSlot.val * 2 ^ 45 + e.bSlot.val * 2 ^ 41
        does (w + 1 * 2 ^ 53) (.tile k e) ∧ does (w + 2 * 2 ^ 53) (.readout k e) ∧ does (w + 3 * 2 ^ 53) (.tileRead k e))
    ∧ ∀ (n : Fin 1024) (o : Nat × (CoreId → VArgs → Instr)) (v : VArgs), o ∈ opcodes →
        mgetD (coreGet s k.val).vtable n.val 0 = BitVec.ofNat 64 (o.1 * 2 ^ 56 + vargsNat v) → does (1 * 2 ^ 38 + n.val * 2 ^ 24) (o.2 k v)

/-- R86, R106 to R110: a wait that holds advances its running target, one that does not hold changes nothing; a due post is made once, after the last repetition. R102, R104 to R106, R111, R126, R127, R136: at a beat boundary a free lane whose fence, waits and issue gap allow begins the slice at the head of its queue, counts its beats, and its first beat runs; a gap takes a beat, and a wait or a full scoreboard slot holds the lane; a slice with beats left runs the next, and the last slice of a step ends the lane. R113 to R119: a core word with one field set does what that field's command does. -/
def Obligations.LanesWaitBeginAndPost : Prop :=
  Claims.LanesWaitAndPost ∧ Claims.LanesBeginRepeatAndEnd ∧ Claims.CoreWordsActAsTheirCommands

/-! ### DMA and memory (05, 13) -/

/-- R84, R85, R110 to R112, R162: an issue takes the descriptor at the channel's cursor, substitutes its parameter, counts its scoreboard slot and queues it on its channel, unless the slot counts 255; a descriptor done with OK leaves its queue exactly once, counts its slot down while its partition still holds the context, and posts. -/
def Obligations.DescriptorsIssueAndCompleteInOrder : Prop :=
  (∀ (l : Clus) (ch : Fin 2) (s : State) (c : Ctx) (p : PartId),
    let x := laneGet s l.val
    let cur := mgetD x.cursors ch.val (0, 0)
    let d := psub (BitVec.ofNat 512 (partNat s p.val cur.1 64)) (ctxGet s c.val).params
    let k := 2 * l.val + ch.val
    laneCtx s l.val = some c.val → (ctxGet s c.val).part = some p → quadOn s (clusQuad l.val) = true →
    (ctxGet s c.val).step.isSome = true → x.ended = false → cur.2 ≠ 0 →
    (dSb d.1 ≠ 0 → sbGet x (dSb d.1) = 255 → Runs (.clusterDmaIssue l ch) s fun t => t = s)
    ∧ ((dSb d.1 = 0 ∨ sbGet x (dSb d.1) ≠ 255) → Runs (.clusterDmaIssue l ch) s fun t =>
      (∃ j, jobsOf t k = jobsOf s k ++ [j] ∧ j.desc = d.1 ∧ j.empty = d.2 ∧ j.part = some p ∧ j.origin = .lane l c ∧ j.status = none)
      ∧ (∀ k', k' ≠ k → jobsOf t k' = jobsOf s k')
      ∧ mget (laneGet t l.val).cursors ch.val = some (cur.1 + 64, cur.2 - 1)
      ∧ (dSb d.1 ≠ 0 → sbGet (laneGet t l.val) (dSb d.1) = sbGet x (dSb d.1) + 1)
      ∧ t.mem = s.mem ∧ t.cores = s.cores))
  ∧ ∀ (e : DmaEng) (s : State) (j : Job) (q : List Job) (c : Clus) (x : Ctx),
      jobsOf s (engKey e) = j :: q → j.status = some 0 → dGcm j.desc = false → j.staged = false → j.reads.2 = 0 → j.origin = .lane c x →
      let a := fld j.desc 194 186
      Runs (.descriptorComplete e) s fun t =>
        jobsOf t (engKey e) = q ∧ (∀ k, k ≠ engKey e → jobsOf t k = jobsOf s k)
        ∧ ((ctxGet s x.val).part = j.part → dSb j.desc ≠ 0 → sbGet (laneGet t c.val) (dSb j.desc) = sbGet (laneGet s c.val) (dSb j.desc) - 1)
        ∧ ((ctxGet s x.val).part ≠ j.part ∨ dSb j.desc = 0 → t.seq = s.seq)
        ∧ (∀ m, m ≠ c.val → laneGet t m = laneGet s m) ∧ t.mem = s.mem ∧ t.cores = s.cores
        ∧ (dSyncEn j.desc = false → t = { s with dma := t.dma, seq := { s.seq with lanes := t.seq.lanes } })
        ∧ ∀ d : Clus, dSyncEn j.desc = true → clusOfLoc (fld j.desc 214 195) = some d.val → clusOn s d.val = true → quadOwner s (clusQuad d.val) = jobTag j →
            cntValue (cntGet t d.val a) = cntValue (cntGet s d.val a) + BitVec.ofNat 32 (fld j.desc 185 170)
            ∧ ∀ i, i ≠ cntKey d.val a → mget t.sync i = mget s.sync i

/-- The descriptor `j`, `i` places behind the head of its queue, is the next that an engine with power runs. -/
def Sys2Proof.Claims.Next (s : State) (e : DmaEng) (i : Nat) (j : Job) : Prop :=
  engOn s e = true ∧ nextJob s (engKey e) = some (i, j) ∧ fieldChecks (engKey e) j = 0 ∧ j.empty = false

/-- The line at an address is HBM that a partition's tag may use (R150, R404). -/
def Sys2Proof.Claims.OwnLine (s : State) (p a : Nat) : Prop :=
  (∃ d off, placeOf s a = .hbm d off) ∧ lineOk s p a = true

/-- No byte of HBM outside the listed lines changes. -/
def Sys2Proof.Claims.LinesOnly (s t : State) (dst : List Nat) : Prop :=
  ∀ a, (∀ b, b ∈ dst → a < b ∨ b + 64 ≤ a) → hbmByte t a = hbmByte s a

/-- The i-th line of `dst` holds `f i`, unless a later line of the transfer lies over it. -/
def Sys2Proof.Claims.LinesHold (t : State) (dst : List Nat) (f : Nat → Nat → Byte) : Prop :=
  ∀ i j, i < dst.length → j < 64 → (∀ n, i < n → n < dst.length → dst.getD i 0 + j < dst.getD n 0 ∨ dst.getD n 0 + 64 ≤ dst.getD i 0 + j) →
    hbmByte t (dst.getD i 0 + j) = f i j

/-- R142, R160, R162: between owned lines of HBM, an uncompressed COPY leaves in every destination line what its source line held, a FILL the fill word over and over; each ends with OK, and no other byte of HBM changes. -/
def Sys2Proof.Claims.CopyAndFillMoveLines : Prop :=
  ∀ (e : DmaEng) (s : State) (i : Nat) (j : Job), Next s e i j →
    let k := engKey e
    let p := jobTag j
    let src := sideLines j.desc false
    let dst := sideLines j.desc true
    let done (t : State) : Prop := ((jobsOf t k)[i]?.map Job.status) = some (some 0) ∧ t.mem.sram = s.mem.sram
    dGcm j.desc = false → dDstSp j.desc = 0 → issueStatus s k j = 0 → (∀ a, a ∈ dst → OwnLine s p a) →
    (dOp j.desc = 0 → dSrcSp j.desc = 0 → dCmp j.desc = 0 → (∀ a, a ∈ src → OwnLine s p a) →
      Runs (.copy e []) s fun t => done t ∧ LinesOnly s t dst ∧ LinesHold t dst fun n b => seenByte s (src.getD n 0 + b))
    ∧ (dOp j.desc = 1 → Runs (.fill e) s fun t => done t ∧ LinesOnly s t dst
        ∧ LinesHold t dst fun _ b => BitVec.ofNat 8 (dFill j.desc >>> (8 * (b % 4))))

/-- Address of list entry `n` of a page operation (R165). -/
def Sys2Proof.Claims.pageList (j : Job) (rd : Bool) (n : Nat) : Nat := (if rd then dSrc j.desc else dDst j.desc) + 4 * (dPgFirst j.desc + n)

/-- List entry `n` of a page operation (R165). -/
def Sys2Proof.Claims.pageTaken (s : State) (j : Job) (rd : Bool) (n : Nat) : BitVec 32 :=
  (listEntry s (jobTag j) [] true (pageList j rd n)).1

/-- Lines of page `n` of a page operation, and lines of its other side. -/
def Sys2Proof.Claims.pageSide (s : State) (j : Job) (rd page : Bool) (n : Nat) : List Nat :=
  rowLines (if page then pageAddr (pageTaken s j rd n)
    else if rd then dDst j.desc + n * dDstStr j.desc else dSrc j.desc + n * dSrcStr j.desc) (dRowB j.desc)

/-- All lines of one side, page by page. -/
def Sys2Proof.Claims.pageLines (s : State) (j : Job) (rd page : Bool) : List Nat :=
  (List.range (dRows j.desc)).flatMap (pageSide s j rd page)

/-- Every page of the operation passes its checks between owned HBM lines, as its list does, and neither the list nor a source line is written by it. -/
def Sys2Proof.Claims.PagesFit (s : State) (k : Nat) (j : Job) (rd : Bool) : Prop :=
  let dst := pageLines s j rd (!rd)
  (∀ n, n < dRows j.desc → pageBad j.desc (pageTaken s j rd n) = false
    ∧ lineChecks s k (jobTag j) (pageSide s j rd rd n) (pageSide s j rd (!rd) n) (!rd) = 0
    ∧ (rd = true ∨ pgCow (pageTaken s j rd n) = false)
    ∧ let l := pageList j rd n / 64 * 64
      OwnLine s (jobTag j) l ∧ lineChecks s k (jobTag j) [l] [] false = 0 ∧ ∀ b, b ∈ dst → l + 64 ≤ b ∨ b + 64 ≤ l)
  ∧ (∀ a, a ∈ pageLines s j rd rd → OwnLine s (jobTag j) a ∧ ∀ b, b ∈ dst → a + 64 ≤ b ∨ b + 64 ≤ a)
  ∧ ∀ b, b ∈ dst → OwnLine s (jobTag j) b

/-- R162, R165, R175: PAGE_READ gathers listed pages and PAGE_WRITE scatters to them, uncompressed pages that pass their checks moving whole and counting, and nothing else of HBM changing; a list line or a first page that fails its checks moves nothing and ends the operation with its status. -/
def Sys2Proof.Claims.PageOperationsMoveListedPages : Prop :=
  ∀ (e : DmaEng) (s : State) (i : Nat) (j : Job), Next s e i j →
    let k := engKey e
    let st (t : State) : Option (Option (Fin 11)) := (jobsOf t k)[i]?.map Job.status
    dGcm j.desc = false → dCmp j.desc = 0 →
    ∀ (rd : Bool) (c : Instr), (c = if rd then .pageRead e [] else .pageWrite ⟨e, []⟩) → dOp j.desc = (if rd then 2 else 3) →
      let list := lineChecks s k (jobTag j) [pageList j rd 0 / 64 * 64] [] false
      let first := lineChecks s k (jobTag j) (pageSide s j rd rd 0) (pageSide s j rd (!rd) 0) (!rd)
      (PagesFit s k j rd → Runs c s fun t =>
        st t = some (some 0) ∧ t.mem.sram = s.mem.sram ∧ t.mem.granules = s.mem.granules
        ∧ LinesOnly s t (pageLines s j rd (!rd))
        ∧ LinesHold t (pageLines s j rd (!rd)) fun n b => seenByte s ((pageLines s j rd rd).getD n 0 + b))
      ∧ (list ≠ 0 → Runs c s fun t => st t = some (some list) ∧ t.mem = s.mem)
      ∧ (list = 0 → pageBad j.desc (pageTaken s j rd 0) = true → Runs c s fun t => st t = some (some 4) ∧ t.mem = s.mem)
      ∧ (list = 0 → pageBad j.desc (pageTaken s j rd 0) = false → first ≠ 0 → Runs c s fun t => st t = some (some first) ∧ t.mem = s.mem)
      ∧ (list = 0 → rd = false → pageBad j.desc (pageTaken s j rd 0) = false → first = 0 →
          pgCow (pageTaken s j rd 0) = true → Runs c s fun t => st t = some (some 3) ∧ t.mem = s.mem)

/-- R142, R160, R162: between owned lines of HBM, an uncompressed COPY leaves in every destination line what its source line held, a FILL the fill word over and over; each ends with OK, and no other byte of HBM changes. R162, R165, R175: PAGE_READ gathers listed pages and PAGE_WRITE scatters to them, uncompressed pages that pass their checks moving whole and counting, and nothing else of HBM changing; a list line or a first page that fails its checks moves nothing and ends the operation with its status. -/
def Obligations.CopiesFillsAndPagesMoveLines : Prop :=
  Claims.CopyAndFillMoveLines ∧ Claims.PageOperationsMoveListedPages

/-- R168, R404, R412: a GCM descriptor takes one of the eight staging buffers, or waits for one, and reads its message from the host; once the data is there, a tag that matches writes the plaintext, and any other writes nothing and ends with AUTH. -/
def Obligations.GcmWritesOnlyAuthenticPlaintext : Prop :=
  ∀ (s : State) (i : Nat) (j : Job), Next s .hub i j → dOp j.desc = 0 → dGcm j.desc = true → issueStatus s 68 j = 0 →
    funcLive s (dFunc j.desc) = true →
    let st (t : State) : Option (Option (Fin 11)) := (jobsOf t 68)[i]?.map Job.status
    let opened (bs : List Byte) : Option (List Byte) :=
      (gcmKey s (jobTag j) (dGcmSlot j.desc) j.gen).bind fun key =>
        Config.gcmOpen key (leNat (bs.take 12)) (leBytes 4 (dFill j.desc)) ((bs.drop 16).take (dRowB j.desc)) (leNat ((bs.drop (16 + dRowB j.desc)).take 16))
    (j.hostData = none → j.staged = false → s.dma.staging < 8 → Runs .gcmDecrypt s fun t =>
      t.dma.staging = s.dma.staging + 1 ∧ mget t.dma.outstanding s.dma.nextTag = some (dFunc j.desc)
      ∧ t.out = .hostRead (funcOf (dFunc j.desc)) s.dma.nextTag (dSrc j.desc) (dRowB j.desc + 32) :: s.out ∧ t.mem = s.mem)
    ∧ (j.hostData = none → j.staged = true ∨ 8 ≤ s.dma.staging → Runs .gcmDecrypt s fun t => t = s)
    ∧ ∀ bs, j.hostData = some bs →
      (∀ a, a ∈ sideLines j.desc true → OwnLine s (jobTag j) a) → dDstSp j.desc = 0 → Runs .gcmDecrypt s fun t =>
        match opened bs with
        | none => st t = some (some 8) ∧ t.mem = s.mem
        | some pt => pt.length = dRowB j.desc → st t = some (some 0) ∧ LinesOnly s t (sideLines j.desc true)
            ∧ LinesHold t (sideLines j.desc true) fun n b => pt.getD (64 * n + b) 0

/-- R162, R167, R494: the data of a completed host read joins its descriptor; a failed read ends its descriptor with HOST; the data of an abandoned tag is dropped, and a tag that is not outstanding is reported through AER. -/
def Sys2Proof.Claims.HostReadsCompleteTheirDescriptor : Prop :=
  ∀ (s : State) (tag : Nat) (bs : List Byte),
    (s.dma.abandoned.contains tag = true → ∀ ok, Runs (.hostReadCompletion tag bs ok) s fun t => t = s)
    ∧ (s.dma.abandoned.contains tag = false → mget s.dma.outstanding tag = none →
        ∀ ok, Runs (.hostReadCompletion tag bs ok) s fun t => t = { s with out := .aer (funcOf 0) :: s.out })
    ∧ ∀ f i j, s.dma.abandoned.contains tag = false → mget s.dma.outstanding tag = some f → tagJob s tag = some (i, j) →
        (Runs (.hostReadCompletion tag bs true) s fun t =>
          mget t.dma.outstanding tag = none ∧ (jobsOf t 68)[i]? = some { j with hostData := some bs }
          ∧ t = { s with dma := t.dma })
        ∧ (dGcm j.desc = true → Runs (.hostReadCompletion tag bs false) s fun t =>
          mget t.dma.outstanding tag = none ∧ (jobsOf t 68)[i]?.map Job.status = some (some 9) ∧ t.mem = s.mem)
        ∧ (dGcm j.desc = false → bs = [] → Runs (.hostReadCompletion tag bs false) s fun t =>
          mget t.dma.outstanding tag = none ∧ (jobsOf t 68)[i]?.map Job.status = some (some 9) ∧ t.mem = s.mem)

/-- R141, R391: a patrol that is due counts its pass, its time and each error it met, and one that is not due changes nothing; a due retraining notes its time and the stack's temperature, and one that is not due changes nothing. -/
def Sys2Proof.Claims.ControllersPatrolAndRetrain : Prop :=
  ∀ (k : Fin 8) (s : State), hbmOn s k.val = true → s.tray.selfRefresh = false →
    (patrolDue s k.val = false → ∀ l, Runs (.patrolScrub k l) s fun t => t = s)
    ∧ (patrolDue s k.val = true → Runs (.patrolScrub k []) s fun t =>
      mget t.mem.patrols k.val = some ((mgetD s.mem.patrols k.val (0, 0)).1 + 1, s.clk.now)
      ∧ t = { s with mem := { s.mem with patrols := t.mem.patrols } })
    ∧ (∀ e : EccEvent, patrolDue s k.val = true → stackOf (64 * e.line) = k.val → granBacked s (granOf (64 * e.line)) = true → e.err ≠ .uncorrectable →
        Runs (.patrolScrub k [e]) s fun t => odGet t 0x2010 (k.val + 1) = min (odGet s 0x2010 (k.val + 1) + 1) (2 ^ 64 - 1)
          ∧ t.mem.hbm = s.mem.hbm ∧ t.mem.granules = s.mem.granules)
    ∧ ∀ ch : Nat, ch < 64 →
      let key := 64 * k.val + ch
      (mget s.mem.retrain key = none → Runs (.hbmRetrain k ch) s fun t =>
        t = { s with mem := { s.mem with retrain := t.mem.retrain } } ∧ mget t.mem.retrain key = some (s.clk.now, stackTemp s k.val))
      ∧ ∀ at_ temp, mget s.mem.retrain key = some (at_, temp) →
        (at_ + 1000000000 ≤ s.clk.now ∨ temp + 400 ≤ stackTemp s k.val ∨ stackTemp s k.val + 400 ≤ temp → Runs (.hbmRetrain k ch) s fun t =>
          t = { s with mem := { s.mem with retrain := t.mem.retrain } } ∧ mget t.mem.retrain key = some (s.clk.now, stackTemp s k.val))
        ∧ (s.clk.now < at_ + 1000000000 → stackTemp s k.val < temp + 400 → temp < stackTemp s k.val + 400 → Runs (.hbmRetrain k ch) s fun t => t = s)

/-- R162, R167, R494: the data of a completed host read joins its descriptor; a failed read ends its descriptor with HOST; the data of an abandoned tag is dropped, and a tag that is not outstanding is reported through AER. R141, R391: a patrol that is due counts its pass, its time and each error it met, and one that is not due changes nothing; a due retraining notes its time and the stack's temperature, and one that is not due changes nothing. -/
def Obligations.HostReadsAndMemoryMaintenanceComplete : Prop :=
  Claims.HostReadsCompleteTheirDescriptor ∧ Claims.ControllersPatrolAndRetrain

/-! ### Steps (04, 08, 22) -/

/-- R124, R244, R262: a partition's round with a batch to run dispatches the step of its next stage: the step's run names the service, phase, batch, parameters, time and contexts, each context that runs no step takes it, and the stage is done with. -/
def Obligations.StepDispatchStartsTheStageWithWork : Prop :=
  ∀ (p : PartId) (s : State) (rd : Round) (st : Nat × Bool) (rest : List (Nat × Bool)) (v : BitVec 256),
    mget s.car.rounds p.val = some rd → rd.copies = [] → rd.due = [] → rd.stages = st :: rest → stepRunning s p.val = false → roundsOk s p.val = true →
    let a := stagePicks s p.val rd st
    a.1.wait = false → rampHeld a.2 p.val st a.1.picks = false → a.1.picks ≠ [] → serviceOf a.2 p.val st.1 = some v →
    Runs (.stepDispatch p) s fun t => ∃ x, mget t.car.steps p.val = some x
      ∧ x.service = st.1 ∧ x.prefill = st.2 ∧ x.stepId = (if st.2 then svPrefill v else svDecode v)
      ∧ x.batch.length = a.1.picks.length ∧ (∀ b, b ∈ x.batch ↔ b ∈ a.1.picks)
      ∧ x.dispatched = s.clk.now ∧ x.ended = false ∧ x.fault = none ∧ x.replays = 0
      ∧ x.params = batchParams a.2 p.val x.buffer x.batch
      ∧ (∀ e, costEntry s p.val x.stepId = some e → x.ctxs = (partCtxs s p.val).filter fun c => (fld e 215 200 >>> (4 * (c / 4))) % 16 != 0)
      ∧ (∀ c, c ∈ x.ctxs → (ctxGet s c).part = some p → (ctxGet s c).step = none →
          ((ctxGet t c).step.map Dispatch.stepId) = some x.stepId ∧ (ctxGet t c).params = x.params)
      ∧ (mget t.car.rounds p.val).map Round.stages = some rest

/-- R126, R127, R133, R262: an early end gives its context a fault code and empties its lanes; a step whose W times T has passed ends so with code 4 on every context; a step whose contexts have all completed is over, and one that ended with a reason other than parity or abort ends its requests and its service. -/
def Obligations.StepsEndWhenDoneOrFaulted : Prop :=
  (∀ (c : Ctx) (code : Fin 5) (s : State), code ≠ 0 → (ctxGet s c.val).step.isSome = true → (ctxGet s c.val).fault = none →
    Runs (.stepEarlyEnd c code) s fun t =>
      ctxGet t c.val = { ctxGet s c.val with fault := some code, fetching := false, latch := none }
      ∧ (∀ l, l ∈ ctxLanes s c.val → (laneGet t l).queue = [] ∧ (laneGet t l).cur = none ∧ (laneGet t l).ended = true)
      ∧ (∀ d, d ≠ c.val → ctxGet t d = ctxGet s d) ∧ t.cores = s.cores ∧ t.car = s.car)
  ∧ (∀ (p : PartId) (s : State) (x : StepRun), mget s.car.steps p.val = some x → x.ended = false →
      (odGet s 0x4028 0 * (x.cost * 82400) < (s.clk.now - x.startedAt - x.excluded) * (10000 - x.depth) →
        (∀ c, c ∈ x.ctxs → (ctxGet s c).step.isSome = true ∧ (ctxGet s c).fault = none) →
        Runs (.stepWatchdogExpiry p) s fun t => (∀ c, c ∈ x.ctxs → (ctxGet t c).fault = some 4 ∧ (ctxGet t c).fetching = false) ∧ t.car = s.car)
      ∧ ((s.clk.now - x.startedAt - x.excluded) * (10000 - x.depth) ≤ odGet s 0x4028 0 * (x.cost * 82400) →
        Runs (.stepWatchdogExpiry p) s fun t => t = s)
      ∧ (stepFault s x = none → x.ctxs.all (ctxDone s) = true → Runs (.stepComplete p) s fun t => mget t.car.steps p.val = none))
  ∧ ∀ (p : PartId) (s : State) (x : StepRun) (f : Fin 5), mget s.car.steps p.val = some x → x.ended = false → x.fenced = false →
      stepFault s x = some f → f ≠ fcParity → f ≠ fcAbort → Runs (.stepComplete p) s fun t =>
        mget t.car.steps p.val = none
        ∧ (∀ b, b ∈ x.batch → live (reqGet t b.handle) = false)
        ∧ ∀ l, mget s.car.images p.val = some l → ∃ m, mget t.car.images p.val = some m ∧ x.service ∈ m.faulted

/-- R135, R538, R542: a step that ended with parity waits, and its replay runs the requests still live again; a load that waited for the last Class G request is answered once none is left: it commits, or is rejected where it now fails a check. -/
def Obligations.ReplayAndWaitingLoadResume : Prop :=
  (∀ (p : PartId) (s : State) (x : StepRun), mget s.car.steps p.val = some x → x.ended = false → x.fenced = false →
    stepFault s x = some fcParity → Runs (.stepComplete p) s fun t =>
      (∃ y, mget t.car.steps p.val = some y ∧ y = { x with ended := true, fault := some fcParity, overrun := y.overrun }) ∧ t.car.reqs = s.car.reqs)
  ∧ (∀ (p : PartId) (s : State) (x : StepRun), mget s.car.steps p.val = some x → x.ended = true →
      (∀ b, b ∈ x.batch → live (reqGet s b.handle) = true ∧ (reqGet s b.handle).st ≠ .draining) → x.batch ≠ [] → roundsOk s p.val = true →
      Runs (.stepReplay p) s fun t =>
        mget t.car.steps p.val = some { x with ended := false, fault := none, flags := 0, startedAt := s.clk.now, excluded := 0, replays := (if x.injected then x.replays else x.replays + 1), injected := false }
        ∧ odGet t 0x7C25 0 = min (odGet s 0x7C25 0 + 1) (2 ^ 64 - 1) ∧ t.car.reqs = s.car.reqs)
  ∧ ∀ (p : PartId) (s : State) (w : Taken) (img : Image), mget s.car.pendingLoads p.val = some [(w, img)] → stepRunning s p.val = false →
      let u := { s with car := { s.car with pendingLoads := mdel s.car.pendingLoads p.val } }
      (liveG s p.val ≠ [] → Runs (.costTableCommit p) s fun t => t = s)
      ∧ (liveG s p.val = [] → RingRoom s p.val (eCring w.entry) →
        (loadFail u p.val w.entry img = none → Runs (.costTableCommit p) s fun t =>
          imageOf t p.val = some { img := img } ∧ mget t.car.pendingLoads p.val = none ∧ Tells s t p.val (eCring w.entry) 6 0 (eTag w.entry))
        ∧ ∀ lbl, loadFail u p.val w.entry img = some lbl → Runs (.costTableCommit p) s fun t =>
          imageOf t p.val = imageOf s p.val ∧ mget t.car.pendingLoads p.val = none ∧ TellsValue s t p.val (eCring w.entry) 6 64 (eTag w.entry) lbl)

/-! ### Pinwheel and the delta engine (07, 09) -/

/-- R200, R204, R205: a job that is malformed ends its step with an image fault; one whose WAIT does not hold stays; one that may not access one of its lines ends its step with that access's fault; one that may, and meets no error, is taken from the list, writes its output and counts itself and its cycles, and its POST is made. -/
def Sys2Proof.Claims.PinwheelJobsRunFromTheirList : Prop :=
  ∀ (d : Die) (s : State) (j : BitVec 1024) (rest : List (BitVec 1024)),
    let x := mgetD s.dieJobs d.val {}
    let part := x.pinwheelFor
    let popped (t : State) : Prop := ((mget t.dieJobs d.val).map DieJobs.pinwheel) = some rest
    let ends (t : State) (code : Fin 5) : Prop := popped t ∧ t.mem = s.mem ∧ t.sync = s.sync
      ∧ ∀ c, c ∈ dieCtxs s d.val part → (ctxGet t c).fault = some code ∧ (ctxGet t c).fetching = false
    let access := dieAccess s d.val part (pwReads j) (pwWriteLines (pwWrites s part j))
    x.pinwheel = j :: rest → (∀ c, c ∈ dieCtxs s d.val part → (ctxGet s c).fault = none) →
    (pwBad j = true → ∀ ecc, Runs (.pinwheelJob ⟨d, ecc⟩) s fun t => ends t 1)
    ∧ (pwBad j = false → jobWait s (bit j 371) (fld j 370 351) (fld j 350 342) (fld j 341 310) = false →
        ∀ ecc, Runs (.pinwheelJob ⟨d, ecc⟩) s fun t => t = s)
    ∧ (pwBad j = false → jobWait s (bit j 371) (fld j 370 351) (fld j 350 342) (fld j 341 310) = true →
        (access ≠ 0 → ∀ ecc, Runs (.pinwheelJob ⟨d, ecc⟩) s fun t => ends t (statusFault access))
        ∧ (access = 0 → Runs (.pinwheelJob ⟨d, []⟩) s fun t => popped t
          ∧ t.mem = (each (pwWrites s part j) (fun s w => partPut s part w.1 w.2) (pinwheelPop s d.val)).mem
          ∧ odGet t 0x4031 (d.val + 1) = min (odGet s 0x4031 (d.val + 1) + 1) (2 ^ 64 - 1)
          ∧ odGet t 0x4032 (d.val + 1) = min (odGet s 0x4032 (d.val + 1) + pwCycles j) (2 ^ 64 - 1)
          ∧ t.cores = s.cores ∧ t.seq = s.seq
          ∧ (bit j 309 = false → t.sync = s.sync)
          ∧ ∀ c, bit j 309 = true → clusOfLoc (fld j 308 289) = some c → clusOn s c = true → quadOwner s (clusQuad c) = part →
              cntValue (cntGet t c (fld j 288 280)) = cntValue (cntGet s c (fld j 288 280)) + BitVec.ofNat 32 (fld j 279 264)))

/-- R278, R279, R282: a delta job that is malformed ends its step with an image fault; one whose WAIT does not hold stays; one that may not access one of its lines ends its step with that access's fault; one that may, and meets no error, is taken from the list, writes its correction records and counts its MACs, and its POST is made. -/
def Sys2Proof.Claims.DeltaJobsRunFromTheirList : Prop :=
  ∀ (d : Die) (s : State) (j : W512) (rest : List W512),
    let x := mgetD s.dieJobs d.val {}
    let popped (t : State) : Prop := ((mget t.dieJobs d.val).map DieJobs.delta) = some rest
    let ends (t : State) (code : Fin 5) : Prop := popped t ∧ t.mem = s.mem ∧ t.sync = s.sync
      ∧ ∀ c, c ∈ dieCtxs s d.val x.deltaFor → (ctxGet t c).fault = some code ∧ (ctxGet t c).fetching = false
    let wait := jobWait s (bit j 256) (fld j 255 236) (fld j 235 227) (fld j 226 195)
    x.delta = j :: rest → (∀ c, c ∈ dieCtxs s d.val x.deltaFor → (ctxGet s c).fault = none) →
    (djBad j = true → ∀ ecc, Runs (.deltaJob ⟨d, ecc⟩) s fun t => ends t 1)
    ∧ (djBad j = false → wait = false → ∀ ecc, Runs (.deltaJob ⟨d, ecc⟩) s fun t => t = s)
    ∧ ∀ e, djBad j = false → wait = true → deltaEnv s x.deltaFor j = some e →
        let access := dieAccess s d.val x.deltaFor (djReads s e d.val j) (pwWriteLines (djWrites s e d.val j))
        (access ≠ 0 → ∀ ecc, Runs (.deltaJob ⟨d, ecc⟩) s fun t => ends t (statusFault access))
        ∧ (access = 0 → Runs (.deltaJob ⟨d, []⟩) s fun t => popped t
          ∧ t.mem = (each (djWrites s e d.val j) (fun s w => partPut s e.part w.1 w.2) (deltaPop s d.val)).mem
          ∧ odGet t 0x3806 (d.val + 1) = (if djMacs s e d.val j = 0 then odGet s 0x3806 (d.val + 1) else min (odGet s 0x3806 (d.val + 1) + djMacs s e d.val j) (2 ^ 64 - 1)) ∧ t.cores = s.cores ∧ t.seq = s.seq
          ∧ (bit j 194 = false → t.sync = s.sync)
          ∧ ∀ c, bit j 194 = true → clusOfLoc (fld j 193 174) = some c → clusOn s c = true → quadOwner s (clusQuad c) = e.part →
              cntValue (cntGet t c (fld j 173 165)) = cntValue (cntGet s c (fld j 173 165)) + BitVec.ofNat 32 (fld j 164 149))

/-- R199, R206, R277, R289, R401: a die engine's owner becomes the partition written where it is ACTIVE and has a quadrant of the die; it becomes none for 16 and above or for an ACTIVE partition without one, and stays where the partition is not ACTIVE; a change of owner drops the jobs that wait in the engine. -/
def Sys2Proof.Claims.DieEngineOwnersAreClamped : Prop :=
  ∀ (rq : DictReq) (d : Die) (v : List Byte) (s : State) (idx : Nat) (c : Instr),
    (idx = 0x4030 ∧ c = .pinwheelOwnerWrite rq d v ∨ idx = 0x3805 ∧ c = .deltaOwnerWrite rq d v) → MayStore s rq idx (d.val + 1) v →
    let p := leNat v
    let active := ((mget s.gate.parts p).map Partn.st) = some .active
    let some_ := (partQuads s p >>> (4 * d.val)) % 16 ≠ 0
    let jobs (t : State) := mgetD t.dieJobs d.val {}
    let owns (t : State) (w : Nat) : Prop := odGet t idx (d.val + 1) = w ∧ t = { s with pav := t.pav, pcie := t.pcie, out := t.out, dieJobs := t.dieJobs }
      ∧ (w = odGet s idx (d.val + 1) → t.dieJobs = s.dieJobs)
      ∧ (w ≠ odGet s idx (d.val + 1) → (if idx = 0x4030 then (jobs t).pinwheel = [] ∧ (jobs t).delta = (jobs s).delta
          else (jobs t).delta = [] ∧ (jobs t).pinwheel = (jobs s).pinwheel))
    (p < 16 → some_ → active → Runs c s fun t => owns t p)
    ∧ (16 ≤ p ∨ active ∧ ¬ some_ → Runs c s fun t => owns t 0xFF)
    ∧ (p < 16 → ¬ active → Runs c s fun t => owns t (odGet s idx (d.val + 1)))

/-- R200, R204, R205: a job that is malformed ends its step with an image fault; one whose WAIT does not hold stays; one that may not access one of its lines ends its step with that access's fault; one that may, and meets no error, is taken from the list, writes its output and counts itself and its cycles, and its POST is made. R278, R279, R282: a delta job that is malformed ends its step with an image fault; one whose WAIT does not hold stays; one that may not access one of its lines ends its step with that access's fault; one that may, and meets no error, is taken from the list, writes its correction records and counts its MACs, and its POST is made. R199, R206, R277, R289, R401: a die engine's owner becomes the partition written where it is ACTIVE and has a quadrant of the die; it becomes none for 16 and above or for an ACTIVE partition without one, and stays where the partition is not ACTIVE; a change of owner drops the jobs that wait in the engine. -/
def Obligations.DieEnginesRunTheirListsForTheirOwner : Prop :=
  Claims.PinwheelJobsRunFromTheirList ∧ Claims.DeltaJobsRunFromTheirList ∧ Claims.DieEngineOwnersAreClamped

/-! ### Variants (09) -/

/-- R285, R286: REGISTER makes a FREE number LOADING, and RETIRE an ACTIVE one RETIRING, result 0 in progress; a number in use, a partition with a variant LOADING, a limit reached and a FREE number to retire give their results and change no variant; the check of a LOADING variant ends it ACTIVE with write-protected parts and result 1, or FREE with the reason. -/
def Obligations.VariantsRegisterCheckAndRetire : Prop :=
  ∀ (rq : DictReq) (p : PartId) (n : BitVec 12) (a : BitVec 48) (s : State), n ≠ 0 →
    let key := varKey p.val n.toNat
    let res (t : State) (r : Nat) : Prop := odGet t 0x3801 (p.val + 1) = r * 2 ^ 28 + n.toNat * 2 ^ 16
    let room := (imageOf s p.val).isSome = true ∧ (varsOf s p.val).length < 1024
    (MayStore s rq 0x3800 (p.val + 1) (varBytes 1 n a) →
      (varBusy s p.val n.toNat = 2 → Runs (.variantRegister rq p n a) s fun t => res t 2 ∧ t.variants = s.variants)
      ∧ (varBusy s p.val n.toNat = 8 → Runs (.variantRegister rq p n a) s fun t => res t 3 ∧ t.variants = s.variants)
      ∧ (varBusy s p.val n.toNat = 0 → ¬ room → Runs (.variantRegister rq p n a) s fun t => res t 6 ∧ t.variants = s.variants)
      ∧ (varBusy s p.val n.toNat = 0 → room → Runs (.variantRegister rq p n a) s fun t => res t 0 ∧ t.mem = s.mem
          ∧ mget t.variants key = some { st := .loading, addr := a.toNat, parts := partRanges s p.val a.toNat }
          ∧ ∀ k, k ≠ key → mget t.variants k = mget s.variants k))
    ∧ (MayStore s rq 0x3800 (p.val + 1) (varBytes 2 n 0) →
      (varBusy s p.val n.toNat = 2 → Runs (.variantRetire rq p n) s fun t => res t 2 ∧ t.variants = s.variants)
      ∧ (varBusy s p.val n.toNat = 0 → Runs (.variantRetire rq p n) s fun t => res t 7 ∧ t.variants = s.variants)
      ∧ ∀ x, varBusy s p.val n.toNat = 8 → mget s.variants key = some x → Runs (.variantRetire rq p n) s fun t =>
          res t 0 ∧ ∃ y, mget t.variants key = some y ∧ y = { x with st := .retiring, rebuilding := y.rebuilding })
    ∧ ∀ x, ((varsOf s p.val).find? fun x => x.2.st == .loading) = some (key, x) →
        let r := varCheck s p.val x.addr
        (r ≠ 1 → Runs (.variantCheckDone p) s fun t => res t r ∧ mget t.variants key = none ∧ t.mem = s.mem)
        ∧ (r = 1 → Runs (.variantCheckDone p) s fun t => res t 1 ∧ t.mem.hbm = s.mem.hbm
            ∧ ∃ y, mget t.variants key = some y ∧ y.st = .active ∧ y.parts = partRanges s p.val x.addr
              ∧ ∀ q i, q ∈ y.parts → i < q.2.2 → (granGet s (granOf q.2.1 + i)).owner.toNat = p.val → granBacked s (granOf q.2.1 + i) = true →
                (granGet t (granOf q.2.1 + i)).wp = true)

/-! ### Carousel (08, 10, 11) -/

/-- R250, R251, R255, R429, R488: a legal submission doorbell takes the entries up to its value with their arrival times, one beyond the ring is clamped, and one that the function may not ring is counted as discarded; a NOP is taken up and counted, and a DMA entry puts its descriptor, under its own function, on the hub DMA's queue. -/
def Sys2Proof.Claims.SubmissionEntriesAreTakenInOrder : Prop :=
  (∀ (f : Vf) (r : Fin 8) (v : W32) (s : State), barOn s (f.val + 1) = true →
    let x := fnGet s (f.val + 1)
    let q := sqGet x r.val
    let d := bellStep q.tail (2 ^ q.log2 - (q.tail + 65536 - q.head) % 65536) v.toNat
    (q.log2 ≠ 0 → bellOk s f = true → Runs (.submissionDoorbell f r v) s fun t =>
      t.car.taken = s.car.taken ++ (List.range d.1).map (fun i =>
        { f := f, ring := r, entry := mgetD x.ringMem (sqBase x r.val + (q.tail + i) % 2 ^ q.log2) 0, tArrive := s.clk.timebase.toNat % 2 ^ 48, arriveAt := s.clk.now })
      ∧ (sqGet (fnGet t (f.val + 1)) r.val).tail = (q.tail + d.1) % 65536
      ∧ (fnGet t (f.val + 1)).clamps = (if d.2 then min (x.clamps + 1) (2 ^ 32 - 1) else x.clamps)
      ∧ t.car = { s.car with taken := t.car.taken })
    ∧ (q.log2 = 0 ∨ bellOk s f = false → Runs (.submissionDoorbell f r v) s fun t =>
        (fnGet t (f.val + 1)).discards = min (x.discards + 1) (2 ^ 32 - 1) ∧ t = { s with pcie := t.pcie }))
  ∧ (∀ (s : State) (i : Nat) (k : Taken), takenPick (takenQueue s) 0 = some (i, k) → Runs .submissionNop s fun t =>
      t.car.taken = s.car.taken.eraseIdx i ∧ mget t.car.subCount (8 * (k.f.val + 1) + k.ring.val) = some (mgetD s.car.subCount (8 * (k.f.val + 1) + k.ring.val) 0 + 1)
      ∧ t.car.reqs = s.car.reqs ∧ t.out = s.out)
  ∧ ∀ (s : State) (i : Nat) (k : Taken) (desc : W512), takenPick (takenQueue s) 6 = some (i, k) → Runs (.dmaCommand desc) s fun t =>
      t.car.taken = s.car.taken.eraseIdx i
      ∧ ∃ j, jobsOf t 68 = jobsOf s 68 ++ [j] ∧ j.desc = put desc 347 343 (k.f.val + 1) ∧ j.part = some k.f ∧ j.status = none
        ∧ j.origin = .host k.f (eCring (entryOf s k)) (eTag (entryOf s k))

/-- R252, R253, R256, R260: a SUBMIT that fails a check is rejected with the check's status and leaves every request; one that passes them all becomes an ADMITTED request at the lowest FREE handle, with its tokens, and its ADMIT is written; both are counted. -/
def Obligations.SubmitRejectsOrAdmits : Prop :=
  ∀ (s : State) (i : Nat) (k : Taken) (toks : List W32), takenPick (takenQueue s) 1 = some (i, k) → s.pair.role ≠ .follower →
    let p := k.f.val
    let e := entryOf s k
    let u := takenUp s i k
    mget s.car.heldOut p = none → RingRoom s p (eCring e) →
    let rejects (st : Nat) : Prop := Runs (.submit toks) s fun t => Tells s t p (eCring e) 4 st (eTag e) ∧ t.car.reqs = s.car.reqs ∧ t.kv = s.kv
      ∧ t.car.taken = s.car.taken.eraseIdx i ∧ odGet t 0x3014 (p + 1) = min (odGet s 0x3014 (p + 1) + 1) (2 ^ 64 - 1)
    (checkFormat u p e ≠ 0 → rejects (checkFormat u p e))
    ∧ ∀ v, checkFormat u p e = 0 → serviceOf u p (eService e) = some v →
        let par := if eFork e then forkParentOf u p e else none
        let h := freeHandle u
        let new := reqOf u k e h v par toks
        let st := decideStatus u p h e new v par
        (st ≠ 0 → rejects st)
        ∧ (st = 0 → (reqGet s h).st = .free → Runs (.submit toks) s fun t => Tells s t p (eCring e) 0 0 (eTag e)
            ∧ (∃ r, mget t.car.reqs h = some r ∧ r.st = .admitted ∧ r.part = p ∧ r.tokens = new.tokens ∧ r.gen = (reqGet s h).gen
                ∧ r.classE = eClassE e ∧ r.hostTag = eTag e ∧ r.maxLen = eMaxLen e ∧ r.arriveAt = k.arriveAt)
            ∧ (par = none → ∀ h', h' ≠ h → mget t.car.reqs h' = mget s.car.reqs h')
            ∧ odGet t 0x3013 (p + 1) = min (odGet s 0x3013 (p + 1) + 1) (2 ^ 64 - 1))

/-- Every request but `h` is as before, the RETAIN bits of its pages apart (R439). -/
def Sys2Proof.Claims.OthersStay (s t : State) (h : Nat) : Prop :=
  ∀ h', h' ≠ h → reqGet t h' = { reqGet s h' with pages := (reqGet t h').pages }
    ∧ ∀ b, (mget (reqGet t h').pages b).map (· &&& 0xDFFFFFFF) = (mget (reqGet s h').pages b).map (· &&& 0xDFFFFFFF)

/-- R240, R253, R266 to R268: a CANCEL of a live request in no step ends it as cancelled; of one in a step at the commit that OD 0x3010 names marks it; of a stale ID, another partition's included, of an ended request or of one already ending changes no request; each is acknowledged. -/
def Sys2Proof.Claims.CancelEndsMarksOrFindsStale : Prop :=
  ∀ (s : State) (i : Nat) (k : Taken), takenPick (takenQueue s) 2 = some (i, k) →
    let p := k.f.val
    let e := entryOf s k
    let h := eRef e / 4096
    let r := reqGet s h
    RingRoom s p (eCring e) →
    (r.st = .free ∨ r.gen % 4096 ≠ eRef e % 4096 ∨ r.part ≠ p → Runs .cancel s fun t => Tells s t p (eCring e) 5 80 (eTag e) ∧ t.car.reqs = s.car.reqs)
    ∧ (r.gen % 4096 = eRef e % 4096 → r.part = p → r.st = .draining ∨ live r = true ∧ r.cxl = true → Runs .cancel s fun t =>
        Tells s t p (eCring e) 5 0 (eTag e) ∧ t.car.reqs = s.car.reqs)
    ∧ (r.gen % 4096 = eRef e % 4096 → r.part = p → live r = true → r.st ≠ .draining → r.cxl = false →
      (inStep s p h = false → Runs .cancel s fun t => Tells s t p (eCring e) 5 0 (eTag e)
        ∧ ((reqGet t h).st = .cancelled ∧ (reqGet t h).final = 16 ∨ (reqGet t h).st = .free)
        ∧ OthersStay s t h)
      ∧ (inStep s p h = true → odGet s 0x3010 (p + 1) = 1 → Runs .cancel s fun t => Tells s t p (eCring e) 5 0 (eTag e)
        ∧ mget t.car.reqs h = some { r with cxl := true } ∧ t.seq = s.seq))
    ∧ (r.gen % 4096 = eRef e % 4096 → r.part = p → r.st = .done ∨ r.st = .cancelled ∨ r.st = .failed → Runs .cancel s fun t =>
        Tells s t p (eCring e) 5 81 (eTag e) ∧ t.car.reqs = s.car.reqs)

/-- R128, R135, R151, R173, R251, R253, R416: a LOAD_IMAGE waits while a step runs, is rejected with the label of the check its image fails, stays pending where a step would cost a Class G request more, or commits; ALLOC gives the partition the lowest run of FREE granules under its current key and tells the first; FREE hands granules to the scrub engine unless one is in use or not the partition's. -/
def Sys2Proof.Claims.LoadAllocAndFreeCommands : Prop :=
  (∀ (s : State) (i : Nat) (k : Taken) (img : Image), takenPick (takenQueue s) 3 = some (i, k) →
    let p := k.f.val
    let e := entryOf s k
    let u := takenUp s i k
    let w := { u with car := { u.car with loadHold := u.car.loadHold.filter (· ≠ p) } }
    (stepRunning s p = true → k.waiting = false → Runs (.loadImage img) s fun t => p ∈ t.car.loadHold ∧ imageOf t p = imageOf s p
      ∧ t.car.taken = s.car.taken.set i { k with entry := e, waiting := true })
    ∧ (stepRunning s p = false → RingRoom s p (eCring e) → ((mget s.gate.parts p).map Partn.st) = some .active →
        hbmOwned s p (eArgAddr e) (max 1 (eArgLen e)) = true →
        (∀ n, imageFail w p img = some n → Runs (.loadImage img) s fun t => TellsValue s t p (eCring e) 6 64 (eTag e) n ∧ imageOf t p = imageOf s p)
        ∧ (imageFail w p img = none → loadPends s p img = true → Runs (.loadImage img) s fun t =>
            mget t.car.pendingLoads p = some (mgetD s.car.pendingLoads p [] ++ [({ k with entry := e }, img)]) ∧ imageOf t p = imageOf s p ∧ t.out = s.out)
        ∧ (imageFail w p img = none → loadPends s p img = false → Runs (.loadImage img) s fun t =>
            Tells s t p (eCring e) 6 0 (eTag e) ∧ imageOf t p = some { img := img })))
  ∧ (∀ (s : State) (i : Nat) (k : Taken), takenPick (takenQueue s) 4 = some (i, k) →
      let p := k.f.val
      let e := entryOf s k
      RingRoom s p (eCring e) →
      (((mget s.gate.parts p).map Partn.st) ≠ some .active → Runs .alloc s fun t => Tells s t p (eCring e) 6 65 (eTag e) ∧ t.mem = s.mem)
      ∧ (((mget s.gate.parts p).map Partn.st) = some .active → (∀ g, granRun s (eArgDie e) (eArgLen e) = some g → Runs .alloc s fun t =>
        TellsValue s t p (eCring e) 6 0 (eTag e) g
        ∧ (∀ j, j < eArgLen e → granGet t (g + j) = granOwned s p)
        ∧ ∀ g', g' < g ∨ g + eArgLen e ≤ g' → granGet t g' = granGet s g')
      ∧ (granRun s (eArgDie e) (eArgLen e) = none → bootScrubbing s (eArgDie e) = false → Runs .alloc s fun t =>
          Tells s t p (eCring e) 6 65 (eTag e) ∧ t.mem = s.mem)
      ∧ (granRun s (eArgDie e) (eArgLen e) = none → bootScrubbing s (eArgDie e) = true → Runs .alloc s fun t =>
          t.car.taken = s.car.taken.set i { k with entry := e, waiting := true } ∧ t.mem = s.mem ∧ t.out = s.out)))
  ∧ ∀ (s : State) (i : Nat) (k : Taken), takenPick (takenQueue s) 5 = some (i, k) →
      let p := k.f.val
      let e := entryOf s k
      let g := granOf (eArgAddr e)
      let own := eArgAddr e % 2 ^ 21 = 0 ∧ ∀ j, j < eArgLen e →
        granBacked s (g + j) = true ∧ (granGet s (g + j)).st = .owned ∧ (granGet s (g + j)).owner.toNat = p
      let used := ∃ j, j < eArgLen e ∧ granInUse s p (g + j) = true
      RingRoom s p (eCring e) →
      (¬ used → own → Runs .free s fun t => Tells s t p (eCring e) 6 0 (eTag e)
        ∧ (∀ j, j < eArgLen e → (granGet t (g + j)).st = .scrubbing ∧ (granGet t (g + j)).owner.toNat = p)
        ∧ ∀ g', g' < g ∨ g + eArgLen e ≤ g' → granGet t g' = granGet s g')
      ∧ (used → Runs .free s fun t => Tells s t p (eCring e) 6 67 (eTag e) ∧ t.mem = s.mem)
      ∧ (¬ used → ¬ own → Runs .free s fun t => Tells s t p (eCring e) 4 53 (eTag e) ∧ t.mem = s.mem)

/-- R240, R253, R266 to R268: a CANCEL of a live request in no step ends it as cancelled; of one in a step at the commit that OD 0x3010 names marks it; of a stale ID, another partition's included, of an ended request or of one already ending changes no request; each is acknowledged. R128, R135, R151, R173, R251, R253, R416: a LOAD_IMAGE waits while a step runs, is rejected with the label of the check its image fails, stays pending where a step would cost a Class G request more, or commits; ALLOC gives the partition the lowest run of FREE granules under its current key and tells the first; FREE hands granules to the scrub engine unless one is in use or not the partition's. -/
def Obligations.LoadsAllocationsAndCancelsAreAnswered : Prop :=
  Claims.CancelEndsMarksOrFindsStale ∧ Claims.LoadAllocAndFreeCommands

/-- R226, R228, R229: matching leaves a request matched to whole blocks of its prompt, its length up to them but short of the prompt; a rebuild starts with an empty table under a new SALT, and while one runs another is queued; each set is migrated once, and 1 ms after the last set the new table is live and the old one empty. -/
def Obligations.PrefixIndexMatchesAndRebuilds : Prop :=
  (∀ (h : Nat) (s : State), let r := reqGet s h
    r.st = .admitted → r.matched = false → r.forkParent = none → layersOf s r.part ≠ 0 → r.bmax ≠ 0 →
    Runs (.prefixMatch h) s fun t => let x := reqGet t h
      x.matched = true ∧ x.matchedTo ≤ r.promptLen ∧ x.matchedTo % tokOf s r.part = 0
      ∧ x.len = max r.len (if r.promptLen ≤ x.matchedTo then r.promptLen - 1 else x.matchedTo)
      ∧ x.tokens = r.tokens ∧ x.st = .admitted ∧ t.mem = s.mem
      ∧ (idxFind s r.part (reqHash s r 0) = none → x = { r with matched := true, matchedTo := 0, pages := x.pages } ∧ t.kv = s.kv))
  ∧ (∀ (rq : DictReq) (s : State), MayStore s rq 0x3031 0 [1] →
      (s.kv.rebuild = none → Runs (.prefixRebuild (.write rq [1])) s fun t => t.kv.rebuild = some {} ∧ tableOf t (!s.kv.liveB) = []
        ∧ saltOf t (!s.kv.liveB) = BitVec.ofNat 64 (freeVal s) ∧ tableOf t s.kv.liveB = tableOf s s.kv.liveB)
      ∧ ∀ r, s.kv.rebuild = some r → Runs (.prefixRebuild (.write rq [1])) s fun t => t.kv = { s.kv with rebuild := some { r with queued := true } })
  ∧ (∀ (p : PartId) (s : State), s.kv.rebuild = none →
      ((partGet s p.val).st = .revoking → Runs (.prefixRebuild (.removal p)) s fun t => t.kv.rebuild = some { removed := [p.val] })
      ∧ ((partGet s p.val).st = .active → Runs (.prefixRebuild (.keyRotation p)) s fun t => t.kv.rebuild = some { rotated := [p.val] })
      ∧ ∀ v x, mget s.variants (varKey p.val v) = some x → x.st = .retiring →
          Runs (.prefixRebuild (.variantRetired p v)) s fun t => t.kv.rebuild = some { retired := [(p.val, v)] }
            ∧ mget t.variants (varKey p.val v) = some { x with rebuilding := true })
  ∧ ∀ (s : State) (r : Rebuild), s.kv.rebuild = some r →
      (r.finishedAt = none → Runs .rebuildMigrateSet s fun t =>
        t.kv.rebuild = some { r with nextSet := r.nextSet + 1, finishedAt := if 262144 ≤ r.nextSet + 1 then some s.clk.now else none }
        ∧ t.kv.liveB = s.kv.liveB ∧ t.car = s.car
        ∧ (waysOf s s.kv.liveB r.nextSet = [] → tableOf t (!s.kv.liveB) = tableOf s (!s.kv.liveB)))
      ∧ ∀ at_, r.finishedAt = some at_ →
          (s.clk.now < at_ + 1000000 → Runs .prefixTableSwitch s fun t => t = s)
          ∧ (at_ + 1000000 ≤ s.clk.now → r.queued = false → Runs .prefixTableSwitch s fun t =>
              t.kv.rebuild = none ∧ t.kv.liveB = (!s.kv.liveB) ∧ tableOf t s.kv.liveB = [] ∧ tableOf t (!s.kv.liveB) = tableOf s (!s.kv.liveB))

/-- R218 to R220, R235, R257: an advance of E waits until epoch E - 3 has drained; a frame leaves QUARANTINE once its epoch has drained, FREE with its DEC_EPOCH kept; a page copy that has ended well puts its new frame under its request and gives up the old one; a waiting sequence goes on when its pages are covered; a round takes in every Class G request that a ring can answer. -/
def Sys2Proof.Claims.FramesEpochsAndRoundsAdvance : Prop :=
  (∀ s : State, (s.kv.advanceDue = true → mayAdvance s = true → Runs .epochAdvance s fun t =>
      t = { s with kv := { s.kv with epoch := (s.kv.epoch + 1) % 2 ^ 32, advanceDue := false } })
    ∧ (mayAdvance s = false → Runs .epochAdvance s fun t => t = s))
  ∧ (∀ (f p : Nat) (s : State), framePool s f = some p →
      let x := frameGet s p f
      let ready := x.st = .quarantine ∧ ∀ e, x.decEpoch = some e → drained s e = true
      (ready → Runs (.frameRelease f) s fun t => frameGet t p f = { decEpoch := x.decEpoch }
        ∧ (∀ g, g ≠ f → frameGet t p g = frameGet s p g) ∧ t = { s with kv := { s.kv with pools := t.kv.pools } })
      ∧ (¬ ready → Runs (.frameRelease f) s fun t => t = s))
  ∧ (∀ (p : PartId) (s : State) (rd : Round) (c : CowCopy) (rest : List CowCopy),
      mget s.car.rounds p.val = some rd → rd.copies = c :: rest →
      let r := reqGet s c.handle
      let e := mgetD r.pages c.index 0
      (∀ st, c.status ≠ some st → Runs (.cowCopyComplete p st) s fun t => t = s)
      ∧ (c.status = some 0 → live r = true → r.part = p.val → fld e 27 0 = c.oldFrame → pgPresent e = true →
          Runs (.cowCopyComplete p 0) s fun t => mget t.car.rounds p.val = some { rd with copies := rest }
            ∧ mget (reqGet t c.handle).pages c.index = some (pageEntry false false c.newFrame ||| (e &&& 0x20000000))
            ∧ (frameGet t p.val c.oldFrame).ref = (frameGet s p.val c.oldFrame).ref - 1
            ∧ odGet t 0x3026 (p.val + 1) = min (odGet s 0x3026 (p.val + 1) + 1) (2 ^ 64 - 1) ∧ t.mem = s.mem))
  ∧ (∀ (p : PartId) (h : Nat) (r : Req) (rest : List (Nat × Req)) (s : State), stepRunning s p.val = false →
      sortBy waitingLt
        ((liveReqs s p.val).filter fun x => x.2.st == .waitingPage) = (h, r) :: rest →
      let fits := covers s p.val (needOf s p.val (newPages s r (nextUnits s r) ++ copiesFor s r (nextUnits s r))) false
      (fits = true → Runs (.waitingPageResume p) s fun t =>
        mget t.car.reqs h = some { r with st := .decode } ∧ t.kv = s.kv)
      ∧ (fits = false → Runs (.waitingPageResume p) s fun t => t = s))
  ∧ ∀ (p : PartId) (s : State), mget s.car.rounds p.val = none → stepRunning s p.val = false → roundsOk s p.val = true →
      s.pair.role ≠ .follower →
      let shown (x : Nat × Req) : Prop := x ∈ liveReqs s p.val ∧ x.2.st ≠ .draining ∧ x.2.classE = false ∧ ringHeld s (p.val + 1) x.2.cring = false
      (∃ x, shown x) → Runs (.roundStart p) s fun t => ∃ rd, mget t.car.rounds p.val = some rd ∧ ∀ x, shown x → x.1 ∈ rd.included

/-- R215, R237: a raised pool gains extents and keeps those it has, a lowered one waits, and neither loses a page in use; a waiting pool is laid out anew only while it is idle. -/
def Sys2Proof.Claims.PoolsGrowAtOnceAndShrinkIdle : Prop :=
  ∀ (p : PartId) (s : State),
    (∀ (rq : DictReq) (v : List Byte), MayStore s rq 0x3020 (p.val + 1) v →
      let old := odGet s 0x3020 (p.val + 1)
      let w := poolClamp p.val s (leNat v)
      Runs (.kvPoolWrite rq p v) s fun t => odGet t 0x3020 (p.val + 1) = w ∧ (poolGet t p.val).frames = (poolGet s p.val).frames
        ∧ (w = old → t.kv = s.kv ∧ t.mem = s.mem)
        ∧ (w < old → poolGet t p.val = { poolGet s p.val with relayout := true } ∧ t.mem = s.mem)
        ∧ (old < w → ∃ more, (poolGet t p.val).extents = (poolGet s p.val).extents ++ more))
    ∧ ((poolGet s p.val).relayout = true → poolIdle (poolGet s p.val) = true → Runs (.poolRelayout p) s fun t =>
        (poolGet t p.val).relayout = false ∧ (poolGet t p.val).pageExp = (poolGet s p.val).pageExp ∧ (poolGet t p.val).recs = []
        ∧ (∀ q, q ≠ p.val → poolGet t q = poolGet s q) ∧ t.car = s.car)
    ∧ (poolIdle (poolGet s p.val) = false → Runs (.poolRelayout p) s fun t => t = s)

/-- R218 to R220, R235, R257: an advance of E waits until epoch E - 3 has drained; a frame leaves QUARANTINE once its epoch has drained, FREE with its DEC_EPOCH kept; a page copy that has ended well puts its new frame under its request and gives up the old one; a waiting sequence goes on when its pages are covered; a round takes in every Class G request that a ring can answer. R215, R237: a raised pool gains extents and keeps those it has, a lowered one waits, and neither loses a page in use; a waiting pool is laid out anew only while it is idle. -/
def Obligations.FramesEpochsRoundsAndPoolsChange : Prop :=
  Claims.FramesEpochsAndRoundsAdvance ∧ Claims.PoolsGrowAtOnceAndShrinkIdle

/-- R254, R488, R490, R492: a legal head doorbell moves the ring's head and empties the backlog that its room holds; the moderation timer sends the ring's message once its time has passed since the first entry without one. -/
def Sys2Proof.Claims.CompletionRingsDrainAndModerate : Prop :=
  ∀ (f : Vf) (r : Fin 9) (s : State),
    let fn := f.val + 1
    let q := cqGet (fnGet s fn) r.val
    (∀ v : W32, barOn s fn = true →
      let d := bellStep (q.head % 65536) (q.tail - q.head) v.toNat
      let l := (backlogOf s fn r.val).length
      (q.log2 ≠ 0 → bellOk s f = true → q.tail + l ≤ q.head + d.1 + cqSize q → Runs (.completionHeadDoorbell f r v) s fun t =>
        (cqGet (fnGet t fn) r.val).head = q.head + d.1 ∧ (cqGet (fnGet t fn) r.val).tail = q.tail + l ∧ backlogOf t fn r.val = []
        ∧ (l = 0 → t.out = s.out))
      ∧ (q.log2 = 0 ∨ bellOk s f = false → Runs (.completionHeadDoorbell f r v) s fun t =>
          (fnGet t fn).discards = min ((fnGet s fn).discards + 1) (2 ^ 32 - 1) ∧ t = { s with pcie := t.pcie }))
    ∧ (q.log2 ≠ 0 → 0 < q.unsent → q.modTime ≠ 0 → q.firstAt + q.modTime * 1000 ≤ s.clk.now → Runs (.msixModerationTimer f r) s fun t =>
        (cqGet (fnGet t fn) r.val).unsent = 0 ∧ t = { s with pcie := t.pcie, out := t.out }
        ∧ (vecMasked (fnGet s fn) q.vector = false → t.out = .msix (funcOf fn) q.vector :: s.out)
        ∧ (vecMasked (fnGet s fn) q.vector = true → q.vector ∈ (fnGet t fn).pendingVec ∧ t.out = s.out))
    ∧ (s.clk.now < q.firstAt + q.modTime * 1000 → Runs (.msixModerationTimer f r) s fun t => t = s)

/-- R250, R251, R255, R429, R488: a legal submission doorbell takes the entries up to its value with their arrival times, one beyond the ring is clamped, and one that the function may not ring is counted as discarded; a NOP is taken up and counted, and a DMA entry puts its descriptor, under its own function, on the hub DMA's queue. R254, R488, R490, R492: a legal head doorbell moves the ring's head and empties the backlog that its room holds; the moderation timer sends the ring's message once its time has passed since the first entry without one. -/
def Obligations.HostRingsTakeEntriesAndDrain : Prop :=
  Claims.SubmissionEntriesAreTakenInOrder ∧ Claims.CompletionRingsDrainAndModerate

/-! ### Zoetrope (12) -/

/-- R296 to R299, R301, R314, R488: the command doorbell takes commands like a submission doorbell; OPEN opens the lowest free number of its kind or gives the first check that the descriptor fails; FLUSH ends the last access unit and answers at once when nothing fed before it is left, CLOSE ends its session, advances the number's generation and frees its counter; a stale session is refused. -/
def Obligations.VideoSessionsOpenFlushAndClose : Prop :=
  (∀ (f : Vf) (v : W32) (s : State), barOn s (f.val + 1) = true →
    let x := fnGet s (f.val + 1)
    let d := bellStep x.zq.tail (256 - (x.zq.tail + 65536 - x.zq.head) % 65536) v.toNat
    ((cqGet x 8).log2 ≠ 0 → bellOk s f = true → Runs (.zoetropeDoorbell f v) s fun t =>
      t.zoe = { s.zoe with taken := s.zoe.taken ++ (List.range d.1).map fun i => { f := f, entry := mgetD x.zMem ((x.zq.tail + i) % 256) 0, takenAt := s.clk.now } }
      ∧ (fnGet t (f.val + 1)).zq.tail = (x.zq.tail + d.1) % 65536 ∧ t.car = s.car)
    ∧ ((cqGet x 8).log2 = 0 ∨ bellOk s f = false → Runs (.zoetropeDoorbell f v) s fun t =>
        (fnGet t (f.val + 1)).discards = min (x.discards + 1) (2 ^ 32 - 1) ∧ t = { s with pcie := t.pcie }))
  ∧ (∀ (s : State) (i : Nat) (k : ZTaken), zPick s 1 = some (i, k) → RingRoom s k.f.val 8 →
      let d : BitVec 1024 := BitVec.ofNat 1024 (partNat s k.f.val (zAddr k.entry) 128)
      let st := openStatus s k.f.val d
      let lo := if vdEnc d then 512 else 0
      let free := ((List.range (if vdEnc d then 64 else 512)).map (lo + ·)).find? fun n => (vGet s n).isNone
      let kept (t : State) : Prop := t.zoe = { s.zoe with taken := s.zoe.taken.eraseIdx i }
      (zLegal k.entry = false → Runs .openSession s fun t => VTells s t k.f 6 6 (zSess k.entry) (zTag k.entry) ∧ kept t)
      ∧ (zLegal k.entry = true → st ≠ 0 → Runs .openSession s fun t => VTells s t k.f 6 st (zSess k.entry) (zTag k.entry) ∧ kept t)
      ∧ (zLegal k.entry = true → st = 0 → free = none → Runs .openSession s fun t => VTells s t k.f 6 2 (zSess k.entry) (zTag k.entry) ∧ kept t)
      ∧ ∀ n, zLegal k.entry = true → st = 0 → free = some n → Runs .openSession s fun t => VTells s t k.f 0 0 (vId s n) (zTag k.entry)
          ∧ vGet t n = some { f := k.f, desc := d } ∧ mget t.zoe.releases n = some 0 ∧ ∀ m, m ≠ n → vGet t m = vGet s m)
  ∧ (∀ (s : State) (i : Nat) (k : ZTaken), zPick s 6 = some (i, k) → RingRoom s k.f.val 8 →
      (zNamed s k = none → Runs .flush s fun t => VTells s t k.f 6 5 (zSess k.entry) (zTag k.entry) ∧ t.zoe.sessions = s.zoe.sessions)
      ∧ ∀ n v, zNamed s k = some (n, v) →
          let w := flushUnits v (zTag k.entry)
          let ended := w.flushing.takeWhile (flushOver w)
          Runs .flush s fun t => vGet t n = some { w with flushing := w.flushing.dropWhile (flushOver w) }
            ∧ (ended ≠ [] → v.flushing = [] → VTells s t k.f 4 0 (vId s n) (zTag k.entry)) ∧ (ended = [] → t.out = s.out))
  ∧ ∀ (s : State) (i : Nat) (k : ZTaken), zPick s 7 = some (i, k) → RingRoom s k.f.val 8 →
      (zNamed s k = none → Runs .close s fun t => VTells s t k.f 6 5 (zSess k.entry) (zTag k.entry) ∧ t.zoe.sessions = s.zoe.sessions)
      ∧ ∀ n v, zNamed s k = some (n, v) → Runs .close s fun t => VTells s t k.f 5 (if v.accessErr then 19 else 16) (vId s n) (zTag k.entry)
          ∧ vGet t n = none ∧ mget t.zoe.gens n = some ((mgetD s.zoe.gens n 0 + 1) % 64) ∧ mget t.zoe.releases n = none
          ∧ ∀ m, m ≠ n → vGet t m = vGet s m

/-- R300, R301, R306, R310, R313: FEED appends the bytes it reads to its session's stream and is answered, ENCODE its picture, KEY asks for a key picture, RELEASE gives up held bits slots or, as a post to the session's release counter, held pictures; a post to a session that is not the partition's is dropped and counted. -/
def Obligations.VideoCommandsQueueAndRelease : Prop :=
  (∀ (s : State) (i : Nat) (k : ZTaken) (n : Nat) (v : VSession), zNamed s k = some (n, v) → v.f = k.f →
    let others (t : State) : Prop := ∀ m, m ≠ n → vGet t m = vGet s m
    (zPick s 2 = some (i, k) → RingRoom s k.f.val 8 →
      (vdEnc v.desc = false → zLen k.entry ≠ 0 →
        let bs := partBytes s k.f.val (zAddr k.entry) (zLen k.entry)
        let w := feedUnit v bs (bit k.entry 487) s.clk.now (zTag k.entry)
        Runs .feed s fun t => VTells s t k.f 1 0 (vId s n) (zTag k.entry) ∧ others t
        ∧ vGet t n = some { w with accessErr := v.accessErr || !vOwned s k.f.val (zAddr k.entry) (zLen k.entry) } ∧ w.stream = v.stream ++ bs)
      ∧ (vdEnc v.desc = true ∨ zLen k.entry = 0 → Runs .feed s fun t => VTells s t k.f 6 6 (zSess k.entry) (zTag k.entry) ∧ t.zoe.sessions = s.zoe.sessions))
    ∧ (zPick s 3 = some (i, k) → vdEnc v.desc = true → fld k.entry 309 290 % 64 = 0 → fld k.entry 289 270 % 64 = 0 → Runs .encode s fun t => others t ∧ t.out = s.out
        ∧ vGet t n = some { v with inputs := v.inputs ++ [{ y := zAddr k.entry, u := fld k.entry 405 358, v := fld k.entry 357 310, yPitch := fld k.entry 309 290, cPitch := fld k.entry 289 270, pts := fld k.entry 269 206, keypic := bit k.entry 486, hostTag := zTag k.entry, takenAt := k.takenAt }] })
    ∧ (zPick s 4 = some (i, k) → vdEnc v.desc = true → Runs .key s fun t => others t ∧ vGet t n = some { v with keyWanted := true } ∧ t.out = s.out)
    ∧ (zPick s 5 = some (i, k) → zLen k.entry ≠ 0 → zLen k.entry ≤ 65535 →
        (vdEnc v.desc = true → Runs .release s fun t => others t ∧ vGet t n = some { v with bitsHeld := v.bitsHeld - zLen k.entry })
        ∧ (vdEnc v.desc = false → n < 512 → Runs .release s fun t => others t
            ∧ vGet t n = some (releaseHeld v (zLen k.entry)) ∧ mgetD t.zoe.releases n 0 = mgetD s.zoe.releases n 0 + BitVec.ofNat 32 (zLen k.entry))))
  ∧ ∀ (p : PartId) (n : Fin 512) (amt : BitVec 16) (s : State), zoeOn s = true →
      (∀ v, vGet s n.val = some v → v.f.val = p.val → vdEnc v.desc = false → Runs (.releaseCounterPost p n amt) s fun t =>
        mgetD t.zoe.releases n.val 0 = mgetD s.zoe.releases n.val 0 + amt.setWidth 32 ∧ vGet t n.val = some (releaseHeld v amt.toNat)
        ∧ (∀ m, m ≠ n.val → vGet t m = vGet s m)
        ∧ odGet t 0x7017 (p.val + 1) = (if (heldSlots v).length < amt.toNat then min (odGet s 0x7017 (p.val + 1) + (amt.toNat - (heldSlots v).length)) (2 ^ 32 - 1) else odGet s 0x7017 (p.val + 1)))
      ∧ ((∀ v, vGet s n.val = some v → v.f.val ≠ p.val) → Runs (.releaseCounterPost p n amt) s fun t =>
          t = { s with pav := t.pav } ∧ odGet t 0x7017 (p.val + 1) = min (odGet s 0x7017 (p.val + 1) + 1) (2 ^ 32 - 1))

/-- R291, R294, R295, R300, R304, R305, R307 to R309: an entropy engine writes chunks within their caps, turns to the session that may have it, and stops parsing one at its 32 chunks or before an earlier deadline, and a broken parameter set makes a session wait for a key; a picture begins in a free slot once its references are complete, tainted by a tainted reference since the last IRAP, and one that cannot be decoded, or does not follow its key, is discarded; a row returns its chunks and counts its concealed CTUs, the last one ending the picture; the next picture in output order is held, counted and told once its output is due. -/
def Sys2Proof.Claims.DecodingProceedsFromEntropyToOutput : Prop :=
  ∀ (n : Fin 512) (s : State) (v : VSession), zoeOn s = true → vGet s n.val = some v →
    let others (t : State) : Prop := ∀ m, m ≠ n.val → vGet t m = vGet s m
    (∀ g : Fin 6, mget s.zoe.entropy g.val = none →
      (mayTurn s none n.val v = true → Runs (.entropySwitch g n [] []) s fun t =>
        t = { s with zoe := { s.zoe with entropy := t.zoe.entropy } } ∧ mget t.zoe.entropy g.val = some n.val)
      ∧ (mayTurn s none n.val v = false → Runs (.entropySwitch g n [] []) s fun t => t = s))
    ∧ (∀ (g : Fin 6) (m : Nat) (x : VSession) (l : List Nat), mget s.zoe.entropy g.val = some m → m ≠ n.val → vGet s m = some x →
        let y := recordsPut x (128 - chunksUsed s) l
        let turns := mayTurn (vSet s m y) (some (m, y)) n.val v
        Runs (.entropySwitch g n l []) s fun t =>
          mget t.zoe.entropy g.val = some (if turns then n.val else m) ∧ vGet t m = some y ∧ vGet t n.val = some v
          ∧ y.records.length ≤ max 32 x.records.length ∧ y.records.length ≤ x.records.length + (128 - chunksUsed s)
          ∧ ∀ c, c ∈ y.records → c ∈ x.records ∨ c.tag = x.f.val)
    ∧ (∀ (g : Fin 6) (met : List NalFact), mget s.zoe.entropy g.val = some n.val → mayStay s n.val v = false →
        Runs (.entropySwitch g n [] met) s fun t => vGet t n.val = some v ∧ others t ∧ t.zoe.entropy = s.zoe.entropy ∧ t.out = s.out)
    ∧ (∀ g : Fin 6, mget s.zoe.entropy g.val = some n.val → mayStay s n.val v = true → v.waitKey = false → RingRoom s v.f.val 8 →
        Runs (.entropySwitch g n [] [.err .parameterSet]) s fun t => VTells s t v.f 7 32 (vId s n.val) 0 ∧ others t
          ∧ odGet t 0x7011 (v.f.val + 1) = min (odGet s 0x7011 (v.f.val + 1) + 1) (2 ^ 32 - 1)
          ∧ ∃ w, vGet t n.val = some w ∧ w.waitKey = true ∧ w.slots = v.slots ∧ w.recon = v.recon)
    ∧ (∀ (h : PicHead) (u : AUnit) (rest : List AUnit), v.units = u :: rest → u.begun = true → u.void = false → v.recon = none →
        let lost := v.waitKey = true ∧ irap h = false ∨ v.raslOff = true ∧ h.kind = .rasl
        let waits := h.refs.any (fun k => (vSlot v k.val).decoding)
        let slot := (List.range (vdSlots v.desc)).find? (fun k => slotFree (vSlot (markSlots v h) k))
        let since := if irap h then u.no else v.irapUnit
        let kept (x : VSlot) : VSlot := if (irap h && h.dropPrior && x.out == .pending) = true then { x with out := .none } else x
        (lost → v.flushing = [] → Runs (.pictureReconstructStart n h) s fun t => others t ∧ vGet t n.val = some (unitDrop v u.no) ∧ t.out = s.out)
        ∧ (¬ lost → headRefusal v.desc h ≠ 0 → v.waitKey = false → RingRoom s v.f.val 8 → Runs (.pictureReconstructStart n h) s fun t => others t
            ∧ VTells s t v.f 7 32 (vId s n.val) 0
            ∧ ∃ w, vGet t n.val = some w ∧ w.waitKey = true ∧ w.recon = none ∧ w.slots = v.slots ∧ w.units = (unitDrop v u.no).units)
        ∧ (¬ lost → headRefusal v.desc h = 0 →
          (waits = true ∨ slot = none → Runs (.pictureReconstructStart n h) s fun t => t = s)
          ∧ ∀ k, waits = false → slot = some k → Runs (.pictureReconstructStart n h) s fun t => others t
                ∧ ∃ w, vGet t n.val = some w ∧ w.recon = some k ∧ w.units = v.units ∧ w.decoded = v.decoded + 1 ∧ w.waitKey = false
                  ∧ (vSlot w k).decoding = true ∧ (vSlot w k).head = some h ∧ (vSlot w k).rowsDone = 0
                  ∧ (vSlot w k).refMark = h.mark ∧ (vSlot w k).unit = u.no
                  ∧ (vSlot w k).tainted = h.refs.any (fun r => (vSlot (markSlots v h) r.val).tainted && decide (since ≤ (vSlot (markSlots v h) r.val).unit))
                  ∧ ∀ j, j ≠ k → vSlot w j = kept (vSlot (markSlots v h) j)))
    ∧ (∀ (k : Nat) (h : PicHead) (u : AUnit), rowReady v = some (k, h, u) →
        let row := (vSlot v k).rowsDone
        let gone := ((List.range (ctuCols h)).filter fun c => !(coveredCtus h u).contains (row * ctuCols h + c)).length
        let last := decide (ctuRowCount h ≤ row + 1)
        let earlier := s.zoe.sessions.any fun x => x.1 != n.val && !vdEnc x.2.desc && (rowReady x.2).isSome && pixelEarlier x.2 v
        (∀ unit r, earlier = true ∨ unit ≠ u.no ∨ r ≠ row → Runs (.ctuRowDispatch n unit r) s fun t => t = s)
        ∧ (earlier = false → Runs (.ctuRowDispatch n u.no row) s fun t => others t ∧ (v.flushing = [] → t.out = s.out)
          ∧ odGet t 0x7012 (v.f.val + 1) = (if gone = 0 then odGet s 0x7012 (v.f.val + 1) else min (odGet s 0x7012 (v.f.val + 1) + gone) (2 ^ 64 - 1))
          ∧ ∃ w, vGet t n.val = some w ∧ w.recon = (if last then none else some k)
            ∧ w.records = v.records.filter (fun c => !(c.unit == u.no && (last || decide (c.upTo ≤ recordsOf h u (row + 1)))))
            ∧ (vSlot w k).rowsDone = row + 1 ∧ (vSlot w k).concealed = (vSlot v k).concealed + gone ∧ (vSlot w k).decoding = !last
            ∧ (vSlot w k).out = (if last && h.shown then .pending else (vSlot v k).out)))
    ∧ (outputDue v = false → Runs (.pictureOutput n) s fun t => t = s)
    ∧ ∀ (k : Nat) (x : VSlot), outputDue v = true → nextOutput v = some (k, x) → RingRoom s v.f.val 8 →
        bit v.desc 890 = false ∨ clusOfLoc (fld v.desc 889 870) ≠ none →
        Runs (.pictureOutput n) s fun t => VTells s t v.f 2 0 (vId s n.val) x.hostTag ∧ others t
          ∧ odGet t 0x7010 (v.f.val + 1) = min (odGet s 0x7010 (v.f.val + 1) + 1) (2 ^ 64 - 1)
          ∧ ∃ w, vGet t n.val = some w ∧ w.output = v.output + 1 ∧ vSlot w k = { x with out := .held, outputOrder := v.output }

/-- R300, R310 to R313: an encode session with a free bits slot, the earliest deadline first, codes its next input picture at the QP of its rate rule, writes the coded bytes into the slot and tells of it; without a free slot it waits. -/
def Sys2Proof.Claims.EncodeSessionsCodeTheNextPicture : Prop :=
  ∀ (k : Fin 64) (s : State) (v : VSession) (x : EncPic) (rest : List EncPic), zoeOn s = true → vGet s (512 + k.val) = some v → v.inputs = x :: rest →
    let d := v.desc
    let p := v.f.val + 1
    let f0 := rateDrain v x.pts
    let key := encKey v x
    let qp := rateQp d key f0 (if key then v.lastKey else v.lastP)
    let coded := codePicture d v.refPics (encSamples s v.f.val d x) qp key
    let spill := decide (vdRate d * fld d 826 811 < f0 + 8 * coded.1.length)
    let used := if spill && !key then Config.skipPicture d (v.refPics.take (vdRefs d)) else coded
    let bytes := used.1.take (vdBitsMin d)
    let a := vdBits d + v.nextBits * vdBitsLines d * 64
    let q := cqGet (fnGet s p) 8
    let earlier := s.zoe.sessions.any fun y => y.1 != 512 + k.val && vdEnc y.2.desc && encEarlier y.2 v
    (vdBitsSlots d ≤ v.bitsHeld ∨ earlier = true → Runs (.encodePicture k) s fun t => t = s)
    ∧ (v.bitsHeld < vdBitsSlots d → earlier = false → RingRoom s v.f.val 8 → q.tail + 2 ≤ q.head + cqSize q → Runs (.encodePicture k) s fun t =>
        VTells s t v.f 1 0 (vId s (512 + k.val)) x.hostTag ∧ VTells s t v.f 3 0 (vId s (512 + k.val)) x.hostTag
        ∧ (∀ m, m ≠ 512 + k.val → vGet t m = vGet s m)
        ∧ odGet t 0x7010 p = min (odGet s 0x7010 p + 1) (2 ^ 64 - 1)
        ∧ odGet t 0x7015 p = (if spill && key then min (odGet s 0x7015 p + 1) (2 ^ 32 - 1) else odGet s 0x7015 p)
        ∧ odGet t 0x7016 p = (if spill && !key then min (odGet s 0x7016 p + 1) (2 ^ 32 - 1) else odGet s 0x7016 p)
        ∧ (∃ w, vGet t (512 + k.val) = some w ∧ w.inputs = rest ∧ w.encoded = v.encoded + 1 ∧ w.bitsHeld = v.bitsHeld + 1
            ∧ w.nextBits = (v.nextBits + 1) % vdBitsSlots d ∧ w.bucket = f0 + 8 * bytes.length ∧ w.lastPts = some x.pts
            ∧ w.refPics = (used.2 :: v.refPics).take (vdRefs d))
        ∧ ((∀ i, i < bytes.length → (∃ e o, placeOf s (a + i) = .hbm e o) ∧ lineOk s v.f.val (a + i) = true) →
            ∀ i, i < bytes.length → hbmByte t (a + i) = bytes.getD i 0))

/-- R291, R294, R295, R300, R304, R305, R307 to R309: an entropy engine writes chunks within their caps, turns to the session that may have it, and stops parsing one at its 32 chunks or before an earlier deadline, and a broken parameter set makes a session wait for a key; a picture begins in a free slot once its references are complete, tainted by a tainted reference since the last IRAP, and one that cannot be decoded, or does not follow its key, is discarded; a row returns its chunks and counts its concealed CTUs, the last one ending the picture; the next picture in output order is held, counted and told once its output is due. R310 to R313: an encode session with a free bits slot, the earliest deadline first, codes its next input picture at the QP of its rate rule, writes the coded bytes into the slot and tells of it; without a free slot it waits. -/
def Obligations.VideoSessionsDecodeAndEncode : Prop :=
  Claims.DecodingProceedsFromEntropyToOutput ∧ Claims.EncodeSessionsCodeTheNextPicture

/-! ### Trellis (13) -/

/-- R319 to R322, R325: a good flit in order is accepted, acknowledges what it names and has its room granted again, any other is discarded with a NAK of the expected number; a NAK replays the flits from its number on, in order, and a sixteenth replay takes the port down; credits let what waits be sent; a port that goes down keeps nothing of its link. -/
def Obligations.LinkLayerAcceptsReplaysAndCredits : Prop :=
  ∀ (p : Fin 2) (s : State), let x := portGet s p.val
    (portUp s p.val = true →
      (∀ flit : BitVec 2048, let good := fld flit 2015 1984 = flitCrc flit ∧ fld flit 2047 2036 = x.rxExpect
        (good → Runs (.flitReceive p flit ⟨false, 0⟩ 0) s fun t =>
          (portGet t p.val).rxExpect = (x.rxExpect + 1) % 4096 ∧ (portGet t p.val).rxAny = true ∧ t.mem = s.mem ∧ t.pav = s.pav
          ∧ (x.txq = [] → t.out = (if fld flit 2022 2021 = 1 ∨ fld flit 2022 2021 = 2 then [.credit p (fld flit 2022 2021) 1] else []) ++ s.out
            ∧ (portGet t p.val).unacked = (if bit flit 2023 then flitAck x.unacked (fld flit 2035 2024) else x.unacked)))
        ∧ (¬ good → Runs (.flitReceive p flit ⟨false, 0⟩ 0) s fun t => t = { s with out := .nakBlock p x.rxExpect :: s.out })
        ∧ ∀ n, n ≠ 0 → Runs (.flitReceive p flit ⟨true, n⟩ 0) s fun t => t.out = .nakBlock p x.rxExpect :: s.out ∧ t.trl = s.trl
            ∧ odGet t 0x6002 (p.val + 1) = min (odGet s 0x6002 (p.val + 1) + n) (2 ^ 64 - 1))
      ∧ (∀ n : BitVec 12, x.unacked.any (fun e => e.1 == n.toNat) = true →
          let again := (x.unacked.dropWhile fun e => e.1 != n.toNat).map fun e => (e.1, e.2.1, e.2.2 + 1)
          ((∀ e, e ∈ again → e.2.2 < 16) → Runs (.flitReplay p n) s fun t =>
            (portGet t p.val).unacked = (x.unacked.takeWhile fun e => e.1 != n.toNat) ++ again
            ∧ t.out = (again.map fun e => .flit p e.1 e.2.1).reverse ++ s.out
            ∧ odGet t 0x6003 (p.val + 1) = min (odGet s 0x6003 (p.val + 1) + again.length) (2 ^ 64 - 1))
          ∧ ((∃ e, e ∈ again ∧ 16 ≤ e.2.2) → Runs (.flitReplay p n) s fun t => (portGet t p.val).st = .down ∧ (portGet t p.val).unacked = []))
      ∧ ∀ (vc : Fin 3) (n : Nat), vc ≠ 0 →
          (x.txq = [] → Runs (.creditControlBlock p vc n) s fun t => mget (portGet t p.val).credits vc.val = some (mgetD x.credits vc.val 0 + n) ∧ t.out = s.out)
          ∧ ∀ q b, x.txq = [(vc.val, q, b)] → 0 < n → x.unacked.length < 512 → x.txSeq < 4096 → Runs (.creditControlBlock p vc n) s fun t =>
              t.out = .flit p x.txSeq (flitMake b x.txSeq (x.rxExpect + 4095) x.rxAny vc.val) :: s.out
              ∧ mget (portGet t p.val).credits vc.val = some (mgetD x.credits vc.val 0 + n - 1) ∧ (portGet t p.val).txq = [])
    ∧ Runs (.portDown p) s fun t => portGet t p.val = { enabled := x.enabled, served := x.served } ∧ (∀ q, q ≠ p.val → portGet t q = portGet s q) ∧ t.mem = s.mem

/-- R322 to R324, R326: a lane out of service narrows the port or takes it down, and one restored widens it; a REFUSED port tells nothing of its lanes; a hello announces generation 1, a tray and its slot, and none goes out while the link is down; a hello received makes the port UP with its cabinet or REFUSED with the cause, which takes the recovered clock of port A; equalisation asks at most once per lane in 100 µs. -/
def Sys2Proof.Claims.PortsTrainNarrowAndGreet : Prop :=
  ∀ (p : Fin 2) (s : State), portOn s p.val = true → let x := portGet s p.val
    (∀ l : Fin 8, x.st = .up →
      let bad := x.badLanes ||| BitVec.ofNat 8 (2 ^ l.val)
      (lanesFor bad ≠ 0 → Runs (.laneOutOfService p l) s fun t =>
        portGet t p.val = { x with badLanes := bad, lanes := lanesFor bad } ∧ t.out = .laneChange p (lanesFor bad) :: s.out)
      ∧ (lanesFor bad = 0 → Runs (.laneOutOfService p l) s fun t => (portGet t p.val).st = .down))
    ∧ (∀ l : Fin 8, x.st = .refused → let bad := x.badLanes ||| BitVec.ofNat 8 (2 ^ l.val)
        lanesFor bad ≠ 0 → Runs (.laneOutOfService p l) s fun t => portGet t p.val = { x with badLanes := bad } ∧ t.out = s.out)
    ∧ (∀ l : Fin 8, x.badLanes.getLsbD l.val = true → x.st ≠ .refused →
        let bad := x.badLanes &&& ~~~ BitVec.ofNat 8 (2 ^ l.val)
        lanesFor bad ≠ 0 →
        Runs (.laneRestore p l) s fun t => portGet t p.val = { x with badLanes := bad, lanes := lanesFor bad } ∧ t.out = .laneChange p (lanesFor bad) :: s.out)
    ∧ (∀ l : Fin 8, x.badLanes.getLsbD l.val = false → Runs (.laneRestore p l) s fun t => t = s)
    ∧ (x.st = .down → Runs (.helloSend p) s fun t => t = s)
    ∧ (x.st ≠ .down → Runs (.helloSend p) s fun t =>
        t.out = .hello p { version := 1, generation := 1, isSwitch := false, slot := fin16 s.tray.slotId.toNat, port := p, cabinet := x.cabinet, slotTaken := false } :: s.out
        ∧ (portGet t p.val).st = (if x.st = .training then .hello else x.st) ∧ t.mem = s.mem)
    ∧ (∀ h : HelloBlock, x.st ≠ .down → x.st ≠ .training →
        (helloRefusal s p.val h = 0 → Runs (.helloReceive p h) s fun t =>
          (portGet t p.val).st = .up ∧ (portGet t p.val).cabinet = h.cabinet ∧ (portGet t p.val).peerGen = h.generation ∧ odGet t 0x6004 0 = h.cabinet.toNat)
        ∧ (helloRefusal s p.val h ≠ 0 → Runs (.helloReceive p h) s fun t =>
          portGet t p.val = { x with peerGen := h.generation, refusal := helloRefusal s p.val h, st := .refused } ∧ t.out = s.out
          ∧ (p.val ≠ 0 ∨ x.st ≠ .up → t.pav = s.pav ∧ t.clk = s.clk)
          ∧ (p.val = 0 → x.st = .up → (mgetD t.clk.judged 0x17 {}).stable = false
            ∧ (mget s.clk.halts 0x19 = none → mgetD t.clk.source 0x18 2 ≠ 2)
            ∧ ∀ y, mget s.clk.halts 0x19 = some y → mgetD s.clk.source 0x18 2 = 2 → mget t.clk.halts 0x19 = some { y with back := true })))
    ∧ ∀ (l : Fin 8) (c : BitVec 8), x.st = .up →
        let due := ∀ at_, mget x.eqAt l.val = some at_ → at_ + 100000 ≤ s.clk.now
        (due → Runs (.equalisationRequest p l c) s fun t => t.out = .coefficient p l c :: s.out ∧ mget (portGet t p.val).eqAt l.val = some s.clk.now)
        ∧ (¬ due → Runs (.equalisationRequest p l c) s fun t => t = s)

/-- A packet of a configured group that its source may send, under a key the group holds (R331). -/
def Sys2Proof.Claims.PacketMeant (s : State) (k : Packet) (g : Group) (key : Nat) : Prop :=
  fld k.header 255 252 = 1 ∧ groupOf s (pkGroup k.header) = some g ∧ g.mask.getLsbD (pkSrc k.header) = true
    ∧ trlKey s g.slot g.part (pkGen k.header) = some key

/-- What becomes of a packet by its tag and its check value (R331): it opens to data with the right check value, the tag fails, or the check value does. -/
def Sys2Proof.Claims.Verdict (k : Packet) (key : Nat) (opens : List Byte → Prop) (tagFails checkFails : Prop) : Prop :=
  match trlOpen key k with
  | none => tagFails
  | some pt => if (presetCheck (some (pkSeq k.header)) pt).toNat = fld k.trailer 191 128 then opens pt else checkFails

/-- A packet is refused: nothing of memory, of what was received or of what waits for an answer changes, and it counts for its partition (R331). -/
def Sys2Proof.Claims.Refuses (s t : State) (k : Packet) (g : Group) : Prop :=
  t.mem = s.mem ∧ t.trl.rx = s.trl.rx ∧ t.trl.pending = s.trl.pending ∧ t.trl.cabinet = s.trl.cabinet
    ∧ (pkGroup k.header ≠ 63 → odGet t 0x6040 (g.part + 1) = min (odGet s 0x6040 (g.part + 1) + 1) (2 ^ 32 - 1))

/-- R331, R332, R336, R337: a packet whose key, tag or check value fails is refused and counted; a new WRITE inside its window lands its data, and its post with it, and a new POST adds to its counter, each marking its sequence number; one outside its window, counters or memory is refused; a duplicate changes no memory and is counted; an ACK frees what it names, a NAK of the window, counter or owner ends the job's step with an image fault, and a packet is sent again after 20 µs, up to four times. -/
def Obligations.PacketsLandOnceAndAreAcknowledged : Prop :=
  (∀ (p : Fin 2) (s : State) (k : Packet), portUp s p.val = true →
    let h := k.header
    let win : RxWin := mgetD s.trl.rx (seqKey (pkSrc h) (pkGroup h) (pkGen h)) {}
    let marked (t : State) : Prop := mget t.trl.rx (seqKey (pkSrc h) (pkGroup h) (pkGen h)) = some (rxMark win (pkSeq h))
    let stopped (t : State) (g : Group) (checkFails : Prop) : Prop := Refuses s t k g ∧ (checkFails → odGet t 0x6805 2 = min (odGet s 0x6805 2 + 1) (2 ^ 32 - 1))
    let len := 32 * fld h 227 220
    let a := (windowOf s (pkGroup h)).1 + fld h 128 81
    let inWindow := fld h 128 81 + len ≤ (windowOf s (pkGroup h)).2
    let c := if pkType h = 0 then Instr.writePacket p k else .postPacket p k
    let posts := pkType h = 1 ∨ bit h 219 = true
    (∀ g, pkType h ≤ 1 → fld h 255 252 = 1 → groupOf s (pkGroup h) = some g → g.mask.getLsbD (pkSrc h) = true →
      trlKey s g.slot g.part (pkGen h) = none → Runs c s fun t => Refuses s t k g ∧ t.trl = s.trl)
    ∧ (∀ g key, pkType h ≤ 1 → PacketMeant s k g key → pkGroup h ≠ 63 → rxDup win (pkSeq h) = false → pkSeq h ≤ win.high + 1024 →
        (pkType h = 0 → inWindow ∧ landOk s g.part a len = true) → (posts → cabOwned s g.part (fld h 218 209) = true) →
        Runs c s fun t => Verdict k key
          (fun pt => marked t ∧ t.mem = (if pkType h = 0 then (partPut s g.part a (pt.take len)).mem else s.mem)
            ∧ (posts → cabGet t (fld h 218 209) = cabGet s (fld h 218 209) + BitVec.ofNat 32 (if pkType h = 0 then fld h 227 220 else fld h 208 193))
            ∧ (∀ n, ¬ posts ∨ n ≠ fld h 218 209 → cabGet t n = cabGet s n) ∧ (¬ posts → t.sync = s.sync))
          (stopped t g False) (stopped t g True))
    ∧ (∀ g key, pkType h ≤ 1 → PacketMeant s k g key → pkGroup h ≠ 63 → rxDup win (pkSeq h) = false → pkSeq h ≤ win.high + 1024 →
        pkType h = 0 ∧ ¬ (inWindow ∧ landOk s g.part a len = true) ∨ posts ∧ cabOwned s g.part (fld h 218 209) = false →
        Runs c s fun t => Refuses s t k g)
    ∧ (∀ g key, pkType h ≤ 1 → PacketMeant s k g key → pkGroup h ≠ 63 → rxDup win (pkSeq h) = true →
        Runs c s fun t => Verdict k key
          (fun _ => t.mem = s.mem ∧ t.trl.rx = s.trl.rx ∧ t.trl.cabinet = s.trl.cabinet
            ∧ odGet t 0x6041 (g.part + 1) = min (odGet s 0x6041 (g.part + 1) + 1) (2 ^ 64 - 1))
          (stopped t g False) (stopped t g True))
    ∧ (∀ g key, pkType h = 2 → PacketMeant s k g key → Runs (.ackPacket p k) s fun t => Verdict k key
        (fun _ => t.mem = s.mem
          ∧ ((∀ x, x ∈ s.trl.jobs → tjGroup x.2 = pkGroup h → x.2.left = []) → (pkGroup h = 63 → s.trl.g63 = []) →
              t.trl.pending = s.trl.pending.filter fun o =>
                !(o.dst == pkSrc h && o.group == pkGroup h && pkGen o.pkt.header == pkGen h && decide (o.seq ≤ fld h 72 9))))
        (stopped t g False) (stopped t g True))
    ∧ ∀ g key o n j, pkType h = 3 → PacketMeant s k g key → fld h 80 73 = 1 ∨ fld h 80 73 = 3 ∨ fld h 80 73 = 5 →
        s.trl.pending.find? (fun o => o.dst == pkSrc h && o.group == pkGroup h && pkGen o.pkt.header == pkGen h) = some o → fld h 72 9 < o.seq →
        o.job = some n → mget s.trl.jobs n = some j → tjRuns s j = true → (ctxGet s j.ctx).step.isSome = true → Runs (.nakPacket p k) s fun t => Verdict k key
          (fun _ => (ctxGet t j.ctx).fault = some 1 ∧ t.mem = s.mem) (stopped t g False) (stopped t g True))
  ∧ ∀ (d : Fin 16) (g : Fin 64) (n : Nat) (s : State) (o : OutPkt), trlOn s = true →
      s.trl.pending.find? (fun o => o.dst == d.val && o.group == g.val && o.seq == n) = some o →
      let q := if portUp s (1 - o.port) then 1 - o.port else o.port
      (s.clk.now < o.sentAt + 20000 → Runs (.packetResend d g n) s fun t => t = s)
      ∧ (o.sentAt + 20000 ≤ s.clk.now → o.resends < 4 → portUp s q = true → Runs (.packetResend d g n) s fun t =>
          (∃ new, t.out = new ++ s.out ∧ .packet q o.pkt ∈ new)
          ∧ { o with port := q, sentAt := s.clk.now, resends := o.resends + 1 } ∈ t.trl.pending ∧ t.mem = s.mem)
      ∧ (o.sentAt + 20000 ≤ s.clk.now → 4 ≤ o.resends → Runs (.packetResend d g n) s fun t =>
          o ∉ t.trl.pending ∧ ∀ i, o.job = some i → mget t.trl.jobs i = none)

/-- A Trellis job may start: its list is up to it, no step of its context has ended by a fault, its partition is not being removed, its WAIT holds (R334). -/
def Sys2Proof.Claims.JobReady (s : State) (n : Nat) (j : TJob) : Prop :=
  mget s.trl.jobs n = some j ∧ trlOn s = true ∧ j.started = false ∧ tjRuns s j = true
    ∧ (∀ x, x ∈ s.trl.jobs → x.2.ctx ≠ j.ctx ∨ x.2.started = true ∨ n ≤ x.1)
    ∧ ((mget s.gate.parts j.part.val).map Partn.st) = some .active
    ∧ jobWait s (bit j.bits 781) (fld j.bits 780 761) (fld j.bits 760 752) (fld j.bits 751 720) = true

/-- R334, R335, R337, R339: a job that may not run ends its step with an image fault; SEND and POST keep their packets until acknowledged, REDUCE copies its own chunk and combines when every contribution is in, its flags going to the step, BIND ties a cabinet counter to a cluster's; a job with nothing left is over, a REDUCE takes its targets off its counters, and the local post is made. -/
def Obligations.TrellisJobsStartCombineAndComplete : Prop :=
  ∀ (n : Nat) (s : State) (j : TJob),
    let b := j.bits
    let p := j.part.val
    let begun (t : State) : Prop := ∃ y, mget t.trl.jobs n = some y ∧ y.started = true ∧ y.bits = b
    (JobReady s n j →
      (tjBad s j = true → ∀ c, c ∈ [Instr.sendJob n, .trellisPostJob n, .reduceJob n, .bindJob n] →
        ((ctxGet s j.ctx).step.isSome = true → Runs c s fun t => (ctxGet t j.ctx).fault = some 1 ∧ t.mem = s.mem ∧ t.trl = s.trl)
        ∧ ((ctxGet s j.ctx).step = none → Runs c s fun t => t = s))
      ∧ (tjBad s j = false →
        let cap := if bit b 1005 then 4096 else 256
        let one (c : Instr) (len : Nat) : Prop := ∀ gr gen key, groupOf s (tjGroup j) = some gr → trlCur s gr = some (gen, key) →
          len ≤ cap → bufBytes s + 64 + len ≤ 2 ^ 23 → outTo s (fld b 1009 1006) (tjGroup j) < 1024 → Runs c s fun t => begun t
            ∧ ∃ o, t.trl.pending = s.trl.pending ++ [o] ∧ o.dst = fld b 1009 1006 ∧ o.group = tjGroup j ∧ o.job = some n
              ∧ o.seq = mgetD s.trl.txSeq (seqKey (fld b 1009 1006) (tjGroup j) gen) 1 ∧ t.mem = s.mem
        (tjOp j = 1 → one (.sendJob n) (tjLen j))
        ∧ (tjOp j = 2 → one (.trellisPostJob n) 0)
        ∧ (tjOp j = 3 → Runs (.reduceJob n) s fun t => begun t
            ∧ t.mem = (partPut (tjSet s n { j with started := true }) p (tjWin s j + rdScr j + rdRank s j * rdZ j)
                (partBytes s p (fld b 984 937 + rdRank s j * rdZ j) (rdChunk j (rdRank s j)))).mem)
        ∧ ∀ c, tjOp j = 4 → clusOfLoc (fld b 663 644) = some c → Runs (.bindJob n) s fun t => begun t
            ∧ mget t.trl.binds (fld b 673 664) = some (cntKey c (fld b 643 635)) ∧ t.mem = s.mem ∧ t.sync = s.sync))
    ∧ (mget s.trl.jobs n = some j → trlOn s = true → j.started = true → tjRuns s j = true →
      (tjOp j = 3 → j.combined = false →
        let done := waitOk (cabGet s (tjRcnt j)) (BitVec.ofNat 32 (rdTarget s j))
        let at_ (m : Nat) : List Byte := partBytes s p (tjWin s j + rdScr j + m * rdZ j) (rdChunk j (rdRank s j))
        let sum := rdSum (fld b 1004 1001) (at_ 0) (((List.range (rdMembers j).length).drop 1).map at_)
        (done = true → Runs (.reduceCombine n) s fun t => (∃ y, mget t.trl.jobs n = some y ∧ y.combined = true)
          ∧ t.mem = (partPut s p (tjWin s j + (tjDst j + rdRank s j * rdZ j)) sum.1).mem
          ∧ ∀ x, mget s.car.steps p = some x → ∃ y, mget t.car.steps p = some y ∧ y.flags = x.flags ||| sum.2)
        ∧ (done = false → Runs (.reduceCombine n) s fun t => t = s))
      ∧ (j.left = [] → (∀ o, o ∈ s.trl.pending → o.job ≠ some n) →
          tjOp j ≠ 3 ∨ j.combined = true ∧ waitOk (cabGet s (tjRcnt j + 1)) (BitVec.ofNat 32 (rdTarget' s j)) = true →
          Runs (.trellisJobComplete n) s fun t => mget t.trl.jobs n = none ∧ t.mem = s.mem
            ∧ (tjOp j ≠ 3 → t.trl.cabinet = s.trl.cabinet)
            ∧ (tjOp j = 3 → cabGet t (tjRcnt j) = cabGet s (tjRcnt j) - BitVec.ofNat 32 (rdTarget s j)
                ∧ cabGet t (tjRcnt j + 1) = cabGet s (tjRcnt j + 1) - BitVec.ofNat 32 (rdTarget' s j))
            ∧ (bit b 719 = false → t.sync = s.sync)
            ∧ ∀ c, bit b 719 = true → clusOfLoc (fld b 718 699) = some c → clusOn s c = true → quadOwner s (clusQuad c) = p →
                cntValue (cntGet t c (fld b 698 690)) = cntValue (cntGet s c (fld b 698 690)) + BitVec.ofNat 32 (fld b 689 674)))

/-- R343 to R345, R441, R450: while a port is UP the tray announces the lowest clock and the causes of each ACTIVE partition and keeps the latest block of each slot; a slot silent for 100 µs is lost, and as the partner it is lost to the pair: a standby is then degraded, and an active of a pair reports no partner. -/
def Sys2Proof.Claims.ClockStatesAreExchanged : Prop :=
  ∀ (s : State), trlOn s = true → portUp s 0 = true ∨ portUp s 1 = true →
    (Runs .clockStateSend s fun t => t = { s with out :=
      ((activeParts s).map fun p => .clockState (fin16 p) (partMhz s p) (partCauses s p)).reverse ++ s.out })
    ∧ (∀ (n : Fin 16) (p : PartId) (f : BitVec 16) (c : Byte), Runs (.clockStateReceive n p f c) s fun t =>
        mget t.trl.peers n.val = some { mhz := f.toNat, causes := c, at_ := s.clk.now, lost := false, byPart := mset (mgetD s.trl.peers n.val {}).byPart p.val f.toNat }
        ∧ (∀ m, m ≠ n.val → mget t.trl.peers m = mget s.trl.peers m)
        ∧ (odGet s 0x6401 0 = n.val → s.pair.alone = false → t.pair.partnerLost = false)
        ∧ (odGet s 0x6401 0 ≠ n.val ∨ s.pair.alone = true → t.pair = s.pair) ∧ t.mem = s.mem)
    ∧ ∀ n : Fin 16, let x := mgetD s.trl.peers n.val {}
        (x.lost = true ∨ s.clk.now < x.at_ + 100000 ∨ n.val = ownSlot s → Runs (.peerLost n) s fun t => t = s)
        ∧ (x.lost = false → x.at_ + 100000 ≤ s.clk.now → n.val ≠ ownSlot s → Runs (.peerLost n) s fun t =>
            (∀ y, mget s.trl.peers n.val = some y → mget t.trl.peers n.val = some { y with lost := true })
            ∧ (odGet s 0x6401 0 = n.val → s.pair.role ≠ .unpaired → (∀ y, y ∈ s.trl.jobs → awaits s y.1 y.2 n.val = false) →
              t.pair.partnerLost = true
              ∧ (s.pair.partnerLost = false → odGet s 0x6400 0 ≠ 2 →
                t.pair.degraded = (s.pair.role == .standby || s.pair.role == .rehearsing)
                ∧ t.out = (if s.pair.role = .active then [.noPartner] else []) ++ s.out)))

/-- R322 to R324, R326: a lane out of service narrows the port or takes it down, and one restored widens it; a REFUSED port tells nothing of its lanes; a hello announces generation 1, a tray and its slot, and none goes out while the link is down; a hello received makes the port UP with its cabinet or REFUSED with the cause, which takes the recovered clock of port A; equalisation asks at most once per lane in 100 µs. R343 to R345: while a port is UP the tray announces the lowest clock and the causes of each ACTIVE partition and keeps the latest block of each slot; a slot silent for 100 µs is lost, and as the partner it is lost to the pair: a standby is then degraded, and an active of a pair reports no partner. -/
def Obligations.PortsTrainGreetAndExchangeClockStates : Prop :=
  Claims.PortsTrainNarrowAndGreet ∧ Claims.ClockStatesAreExchanged

/-! ### The Gatehouse and the Check-Value Units (16, 17) -/

/-- R400, R402, R410, R414: a partition command that fails a requirement reports the first it fails and does nothing; FORM makes the partition ACTIVE on its quadrants, with keys in the two lowest free slots and its quadrants powered; REMOVE makes it and its granules REVOKING; ROTATE_XTS draws the next memory key and keeps the former as OLD; ROTATE_PREFIX draws the next prefix key and starts a rebuild; another operation is clamped to none. -/
def Obligations.PartitionCommandsReportAndAct : Prop :=
  ∀ (rq : DictReq) (p : PartId) (s : State),
    let x := partGet s p.val
    (∀ mask : BitVec 16, MayCommand s rq 1 p mask →
      let r := if x.st ≠ .free ∨ s.fuses.lifecycle = .rma then 3 else if mask = 0 ∨ mask.toNat &&& quadsTaken s ≠ 0 then 2 else if (freeSlots s).length < 2 then 4 else 0
      (r ≠ 0 → Runs (.form rq p mask) s fun t => Reports s t r)
      ∧ ∀ a b l, r = 0 → freeSlots s = a :: b :: l → Runs (.form rq p mask) s fun t => odGet t 0x5003 0 = 0
          ∧ partGet t p.val = { st := .active, quads := mask }
          ∧ keySlot t a = { kind := .xts, owner := BitVec.ofNat 6 p.val, curKey := some (Config.freeNat s.freeCtr) }
          ∧ keySlot t b = { kind := .siphash, owner := BitVec.ofNat 6 p.val, curKey := some (Config.freeNat (s.freeCtr + 1)) }
          ∧ (∀ n, n ≠ a → n ≠ b → keySlot t n = keySlot s n) ∧ (∀ q, q ≠ p.val → partGet t q = partGet s q)
          ∧ (coldRole s = false → ∀ q : Fin 16, mask.getLsbD q.val = true → t.tray.quadOn.getLsbD q.val = true)
          ∧ t.mem.hbm = s.mem.hbm ∧ (s.pair.partnerLost = false → t.car = s.car) ∧ t.kv = s.kv ∧ t.dma = s.dma)
    ∧ (MayCommand s rq 2 p 0 →
      (x.st ≠ .active → Runs (.remove rq p) s fun t => Reports s t 3)
      ∧ (x.st = .active → Runs (.remove rq p) s fun t => odGet t 0x5003 0 = 0
          ∧ partGet t p.val = { x with st := .revoking, revokedAt := s.clk.now } ∧ (∀ q, q ≠ p.val → partGet t q = partGet s q)
          ∧ (∀ g, g ∈ granKeys s → granBacked s g = true → (granGet s g).owner.toNat = p.val → (granGet s g).st = .owned → granGet t g = { granGet s g with st := .revoking })
          ∧ t.mem.hbm = s.mem.hbm))
    ∧ (MayCommand s rq 3 p 0 →
      (x.st ≠ .active → Runs (.rotateXts rq p) s fun t => Reports s t 3)
      ∧ (x.st = .active → (mget s.gate.sweeps p.val).isSome = true → Runs (.rotateXts rq p) s fun t => Reports s t 1)
      ∧ ∀ n, x.st = .active → mget s.gate.sweeps p.val = none → slotOf s .xts p.val = some n → Runs (.rotateXts rq p) s fun t => odGet t 0x5003 0 = 0
          ∧ keySlot t n = nextKey (keySlot s n) (Config.freeNat s.freeCtr) ((keySlot s n).curKey.map fun c => ((keySlot s n).cur, c))
          ∧ (∀ m, m ≠ n → keySlot t m = keySlot s m) ∧ (mget t.gate.sweeps p.val).isSome = true ∧ t.mem = s.mem)
    ∧ (MayCommand s rq 4 p 0 →
      (x.st ≠ .active → Runs (.rotatePrefix rq p) s fun t => Reports s t 3)
      ∧ (x.st = .active → s.kv.rebuild.isSome = true → Runs (.rotatePrefix rq p) s fun t => Reports s t 1)
      ∧ ∀ n, x.st = .active → s.kv.rebuild = none → slotOf s .siphash p.val = some n → Runs (.rotatePrefix rq p) s fun t => odGet t 0x5003 0 = 0
          ∧ keySlot t n = nextKey (keySlot s n) (Config.freeNat s.freeCtr) none ∧ (∀ m, m ≠ n → keySlot t m = keySlot s m)
          ∧ t.kv.rebuild = some { rotated := [p.val], retired := [] } ∧ t.mem = s.mem)
    ∧ ∀ v, s.tray.hub.gatehouse = true → MayStore s rq 0x5001 0 v → 4 < nfld (leNat v) 63 60 → Runs (.dictWrite rq 0x5001 0 v) s fun t =>
        odGet t 0x5001 0 = nfld (leNat v) 59 56 * 2 ^ 56 + nfld (leNat v) 15 0 ∧ DictOnly s t

/-- R410 to R412, R414, R417, R432: the end of a revocation wait clears the partition's key slots and puts it and its granules into SCRUBBING; a scrubbed granule is FREE and holds nothing written, and a second mismatch leaves it scrubbing under owner 0x3F; a sweep re-keys its lowest granule left on a die, and when none is left OLD is gone. -/
def Obligations.RevocationScrubAndSweepFinish : Prop :=
  (∀ (p : PartId) (s : State), let x := partGet s p.val
    (x.st = .revoking → inFlight s p.val = 0 ∨ x.revokedAt + 10000000 ≤ s.clk.now → Runs (.revocationWaitEnd p) s fun t =>
      (partGet t p.val = { st := .scrubbing } ∨ partGet t p.val = {}) ∧ (∀ q, q ≠ p.val → partGet t q = partGet s q)
      ∧ (∀ n, n ∈ ownedSlots s p.val → keySlot t n = {})
      ∧ (∀ g, g ∈ granKeys s → granBacked s g = true → (granGet s g).owner.toNat = p.val → (granGet s g).st = .revoking ∨ (granGet s g).st = .owned →
          granGet t g = { st := .scrubbing, owner := (granGet s g).owner, zeroKey := (granGet s g).zeroKey })
      ∧ t.mem.hbm = s.mem.hbm)
    ∧ (x.st ≠ .revoking ∨ (inFlight s p.val ≠ 0 ∧ s.clk.now < x.revokedAt + 10000000) → Runs (.revocationWaitEnd p) s fun t => t = s))
  ∧ (∀ (g : Nat) (r : ScrubReads) (s : State), let n := scrubMisses g r
      granBacked s g = true → granReserved s g = false → (granGet s g).st = .scrubbing →
      g ∉ s.flash.retired → scrubOn s (g / 65536) = true → Runs (.granuleScrub g r) s fun t =>
        (∀ c, c ∈ t.mem.hbm ↔ c ∈ s.mem.hbm ∧ (c.1 < g * 2 ^ 21 ∨ g * 2 ^ 21 + 2 ^ 21 ≤ c.1))
        ∧ (∀ h, h ≠ g → granGet t h = granGet s h)
        ∧ (n ≠ 2 → granGet t g = { st := .free } ∧ t.flash = s.flash)
        ∧ (n = 2 → granGet t g = { st := .scrubbing, owner := 0x3F } ∧ t.flash.retired = g :: s.flash.retired))
  ∧ ∀ (p : PartId) (w : Sweep) (n : Nat) (s : State), mget s.gate.sweeps p.val = some w → slotOf s .xts p.val = some n →
      (∀ (d : Die) (g : Nat) (l : List Nat), (partGet s p.val).st = .active → d.val < w.left.length → scrubOn s d.val = true → granBacked s g = true → sweepLive s p.val (w.left.getD d.val []) = g :: l →
        Runs (.xtsSweepGranule p d) s fun t => granGet t g = { granGet s g with gen := BitVec.ofNat 4 (keySlot s n).cur }
          ∧ (∀ h, h ≠ g → granGet t h = granGet s h) ∧ ((mget t.gate.sweeps p.val).getD {}).left = w.left.set d.val l
          ∧ t = { s with mem := { s.mem with granules := t.mem.granules }, gate := { s.gate with sweeps := t.gate.sweeps } })
      ∧ ((partGet s p.val).st ≠ .active → Runs (.xtsOldZeroize p) s fun t => t = s)
      ∧ ((partGet s p.val).st = .active → (∀ l, l ∈ w.left → sweepLive s p.val l = []) → Runs (.xtsOldZeroize p) s fun t =>
          keySlot t n = { keySlot s n with old := none } ∧ (∀ m, m ≠ n → keySlot t m = keySlot s m) ∧ mget t.gate.sweeps p.val = none
          ∧ t = { s with gate := t.gate })

/-- R395, R405, R406, R409, R416: an attestation request is answered with a signed report, with a fresh key pair for an ACTIVE partition and with zero keys for the physical function and any other partition; the certificate is returned; a key pair ends 60 s after signing. -/
def Sys2Proof.Claims.AttestationAnswersWithFreshKeys : Prop :=
  ∀ s : State, s.tray.hub.gatehouse = true →
    (∀ (f : Func) (nonce : BitVec 256), barOn s f.val = true → s.gate.identityOff = false →
      (f = 0 → Runs (.attestReq f nonce) s fun t => Mail s t 0 (reportMsg (reportBody s 0xFF nonce 0 0)) ∧ t.gate = s.gate)
      ∧ (f ≠ 0 → (partGet s (f.val - 1)).st ≠ .active → Runs (.attestReq f nonce) s fun t =>
          Mail s t f.val (reportMsg (reportBody s (f.val - 1) nonce 0 0)) ∧ mget t.gate.ephem (f.val - 1) = none)
      ∧ (f ≠ 0 → (partGet s (f.val - 1)).st = .active → Runs (.attestReq f nonce) s fun t =>
          let x := Config.freeNat s.freeCtr
          let k := Config.freeNat (s.freeCtr + 1)
          let body := reportBody s (f.val - 1) nonce (Config.x25519Pub x) (Config.mlkemPub k)
          Mail s t f.val (reportMsg body) ∧ t.freeCtr = s.freeCtr + 2
          ∧ mget t.gate.ephem (f.val - 1) = some { digest := Config.sha384 body, xPriv := x, kemPriv := k, at_ := s.clk.now }))
    ∧ (∀ f : Func, barOn s f.val = true → Runs (.certReq (.mailbox f)) s fun t =>
        Mail s t f.val (([6, 0, 0, 0] ++ leBytes 8192 s.flash.certificate).take 8192) ∧ t.gate = s.gate)
    ∧ (∀ g : Fin 2, pavOn s = true → Runs (.certReq (.station g)) s fun t => t = { s with out := .datagram g 6 0 0 (leBytes 8192 s.flash.certificate) :: s.out })
    ∧ ∀ (p : PartId) (e : Ephemeral), mget s.gate.ephem p.val = some e →
        (e.at_ + 60000000000 ≤ s.clk.now → Runs (.ephemeralKeyExpiry p) s fun t => mget t.gate.ephem p.val = none ∧ t = { s with gate := { s.gate with ephem := t.gate.ephem } })
        ∧ (s.clk.now < e.at_ + 60000000000 → Runs (.ephemeralKeyExpiry p) s fun t => t = s)

/-- R407 to R409, R412, R416: a key wrapped for the partition's live ephemeral key is installed at once or until its activation time, or drops OLD, once no GCM descriptor holds it; the message is acknowledged with STALE, REVOKED, SLOT, AUTH or BUSY where a check fails and then changes no slot; the message ends the key pair. -/
def Sys2Proof.Claims.WrappedKeysInstallAndDrop : Prop :=
  (∀ (f : Func) (w : WrapHead) (e : WrapEntry) (s : State), f ≠ 0 → barOn s f.val = true → s.tray.hub.gatehouse = true →
    let p := f.val - 1
    let n := e.slot.toNat
    let k := keySlot s n
    let same (t : State) : Prop := ∀ m, keySlot t m = keySlot s m
    let ack (c : Nat) : List Byte := [4, 1, 0, 0, BitVec.ofNat 8 c]
    let both (c : Nat) (left : Option Ephemeral) : Prop :=
      (e.action = 1 → Runs (.keyInstall f w e true true) s fun t => Mail s t f.val (ack c) ∧ same t ∧ mget t.gate.ephem p = left)
      ∧ (e.action = 2 → Runs (.keyDropOld f w e true true) s fun t => Mail s t f.val (ack c) ∧ same t ∧ mget t.gate.ephem p = left)
    (mget s.gate.ephem p = none → both 1 none)
    ∧ ∀ x, mget s.gate.ephem p = some x →
      (x.digest ≠ w.digest → both 1 (some x))
      ∧ (x.digest = w.digest → x.wrap = none → x.at_ + 60000000000 ≤ s.clk.now → both 1 none)
      ∧ (x.digest = w.digest → x.wrap = none → s.clk.now < x.at_ + 60000000000 →
        ((partGet s p).st ≠ .active → both 5 none)
        ∧ ((partGet s p).st = .active →
          let fits := (e.kind = 3 ∨ e.kind = 4) ∧ kindCode k.kind = e.kind.toNat ∧ k.owner.toNat = p
          (¬ fits → both 3 none)
          ∧ (fits →
            (e.action = 1 → Runs (.keyInstall f w e true true) s fun t => mget t.gate.ephem p = none ∧
              match entryOpen (wrapKey x w p) w e with
              | none => Mail s t f.val (ack 2) ∧ same t
              | some b => (k.old.isSome = true → Mail s t f.val (ack 4) ∧ same t)
                ∧ (k.old = none → Mail s t f.val (ack 0) ∧ (∀ m, m ≠ n → keySlot t m = keySlot s m)
                  ∧ keySlot t n = if e.activation = 0 then { nextKey k (leNat b) (k.curKey.map fun c => (k.cur, c)) with next := none }
                      else { k with next := some (leNat b, e.activation) }))
            ∧ (e.action = 2 → Runs (.keyDropOld f w e true true) s fun t => mget t.gate.ephem p = none ∧
              match entryOpen (wrapKey x w p) w e with
              | none => Mail s t f.val (ack 2) ∧ same t
              | some _ => Mail s t f.val (ack 0) ∧ (∀ m, m ≠ n → keySlot t m = keySlot s m)
                ∧ ((∀ g o, k.old = some (g, o) → gcmHolds s n g = false) → keySlot t n = { k with old := none })
                ∧ ((∃ g o, k.old = some (g, o) ∧ gcmHolds s n g = true) → keySlot t n = { k with dropDue := true }))))))
  ∧ ∀ (n : Fin 64) (key : Nat) (at_ : BitVec 64) (s : State), (keySlot s n.val).next = some (key, at_) →
      let k := keySlot s n.val
      (at_.toNat ≤ s.clk.timebase.toNat → Runs (.keyActivation n) s fun t =>
        keySlot t n.val = { nextKey k key (k.curKey.map fun c => (k.cur, c)) with next := none } ∧ (∀ m, m ≠ n.val → keySlot t m = keySlot s m) ∧ t = { s with gate := t.gate })
      ∧ (s.clk.timebase.toNat < at_.toNat → Runs (.keyActivation n) s fun t => t = s)

/-- R395, R405, R406, R409, R416: an attestation request is answered with a signed report, with a fresh key pair for an ACTIVE partition and with zero keys for the physical function and any other partition; the certificate is returned; a key pair ends 60 s after signing. R407 to R409, R412, R416: a key wrapped for the partition's live ephemeral key is installed at once or until its activation time, or drops OLD, once no GCM descriptor holds it; the message is acknowledged with STALE, REVOKED, SLOT, AUTH or BUSY where a check fails and then changes no slot; the message ends the key pair. -/
def Obligations.KeyServiceMessagesAreAnswered : Prop :=
  Claims.AttestationAnswersWithFreshKeys ∧ Claims.WrappedKeysInstallAndDrop

/-- R396, R402, R421, R437: a written assignment zeroizes a slot and gives it its kind and owner, and the firmware, XTS and SIPHASH slots keep theirs; RMA entry turns the fuse, zeroizes the keys and ends the device identity; group 63's agreement, with a report that verifies, puts its key in slot 62, gives an unpaired tray its role and the partner back. -/
def Obligations.SlotsLifecycleAndPairKey : Prop :=
  (∀ (rq : DictReq) (n : Fin 64) (v : List Byte) (s : State), MayStore s rq 0x5410 (n.val + 1) v →
    let k := (keySlot s n.val).kind
    let kind := nfld (leNat v) 15 12
    let q := nfld (leNat v) 5 0
    let runs (P : State → Prop) : Prop := Runs (.slotAssignmentWrite rq n v) s P
    (60 ≤ n.val ∨ k = .xts ∨ k = .siphash → runs fun t => DictOnly s t ∧ odGet t 0x5410 (n.val + 1) = odGet s 0x5410 (n.val + 1))
    ∧ (n.val < 60 → k ≠ .xts → k ≠ .siphash →
      let others (t : State) : Prop := (∀ m, m ≠ n.val → keySlot t m = keySlot s m) ∧ t.mem = s.mem
      (kind = 0 → runs fun t => keySlot t n.val = {} ∧ odGet t 0x5410 (n.val + 1) = 0 ∧ others t)
      ∧ (kind = 3 ∨ kind = 4 → q < 16 → (partGet s q).st = .active → odGet s 0x5410 (n.val + 1) ≠ kind * 4096 + q → runs fun t =>
          keySlot t n.val = { kind := if kind = 3 then .gcm else .trellis, owner := BitVec.ofNat 6 q } ∧ odGet t 0x5410 (n.val + 1) = kind * 4096 + q ∧ others t)))
  ∧ (∀ (ed ml edPub mlPub : Nat) (s : State), s.tray.hub.gatehouse = true →
      let ok := s.fuses.lifecycle = .secured ∧ dualOk s edPub mlPub (Config.sha384 (leBytes 16 s.fuses.serial.toNat)) ed ml = true
      (Runs (.rmaEntry s.fuses.serial ed ml edPub mlPub) s fun t =>
        (ok → t.fuses = { s.fuses with lifecycle := .rma }
          ∧ (∀ x, x ∈ t.gate.slots → x.2.curKey = none ∧ x.2.old = none ∧ x.2.next = none) ∧ t.gate.identityOff = true ∧ t.gate.testPortOpen = true ∧ t.gate.ephem = []
          ∧ t = { s with fuses := t.fuses, gate := t.gate })
        ∧ (¬ ok → t = s))
      ∧ ∀ serial, serial ≠ s.fuses.serial → Runs (.rmaEntry serial ed ml edPub mlPub) s fun t => t = s)
  ∧ ∀ (serial : BitVec 128) (edPub mlPub : Nat) (d : BitVec 384) (ed ml : Nat) (x : BitVec 256) (ct : Nat) (s : State),
      s.tray.hub.gatehouse = true → trlOn s = true → s.gate.identityOff = false → s.tray.failed = false → odGet s 0x6400 0 ≠ 0 → odGet s 0x6401 0 ≠ 0xFF →
      let root := (s.fuses.rootARevoked = false ∧ Config.certified s.fuses.rootA serial.toNat edPub mlPub = true) ∨ Config.certified s.fuses.rootB serial.toNat edPub mlPub = true
      let good := root ∧ Config.ed25519Verify edPub d ed = true ∧ Config.mldsaVerify mlPub d ml = true
      Runs (.group63KeyAgreement serial edPub mlPub d ed ml x ct) s fun t => (¬ good → t = s) ∧ (good →
        (∃ key, keySlot t 62 = { kind := .trellis, owner := 0x3F, curKey := some key }) ∧ (∀ m, m ≠ 62 → keySlot t m = keySlot s m)
        ∧ (let join : Role := if odGet s 0x6400 0 = 2 then .follower else .joining
          (s.pair.role = .unpaired → t.pair.role = if activeParts s ≠ [] then .active else join) ∧ (s.pair.role = .joining → t.pair.role = join)
          ∧ (s.pair.role ≠ .unpaired → s.pair.role ≠ .joining → t.pair.role = s.pair.role))
        ∧ (s.pair.role = .unpaired ∨ s.pair.partnerLost = true ∨ s.pair.alone = true → t.pair.stepSeq = [])
        ∧ t.pair.partnerLost = false ∧ t.pair.alone = false ∧ t.mem = s.mem ∧ (s.car.heldOut = [] → t.car.reqs = s.car.reqs))

/-- R424, R426, R427, R429, R433: a written setting and running value of a function's hub context are clamped to legal ones and leave each other; closing forms the check value, returns the running value to INIT and, where it compares and differs, counts a mismatch. -/
def Obligations.HubContextsAreSetAndClosed : Prop :=
  ∀ (rq : DictReq) (f : Vf) (v : List Byte) (s : State),
    let n := f.val + 1
    let h := hubGet s n
    let others (t : State) : Prop := (∀ m, m ≠ n → hubGet t m = hubGet s m) ∧ t.mem = s.mem ∧ t.dma = s.dma ∧ t.car = s.car
    (MayStore s rq 0x6800 n v → Runs (.hubCvuSettingWrite rq f v) s fun t => others t
      ∧ let c := (hubGet t n).setting
        hubGet t n = { h with setting := c } ∧ odGet t 0x6800 n = c.toNat ∧ fld c 255 252 = 1 ∧ cvW c = min 64 (max 8 (nfld (leNat v) 251 245))
        ∧ fld c 241 240 ≤ 1 ∧ fld c 238 192 = 0 ∧ fld c 244 242 = nfld (leNat v) 244 242
        ∧ fld c 191 128 = nfld (leNat v) 191 128 % 2 ^ cvW c ∧ fld c 127 64 = nfld (leNat v) 127 64 % 2 ^ cvW c ∧ fld c 63 0 = nfld (leNat v) 63 0 % 2 ^ cvW c)
    ∧ (MayStore s rq 0x6801 n v → Runs (.hubCvuRunningWrite rq f v) s fun t => others t
        ∧ hubGet t n = { h with run := BitVec.ofNat 64 (leNat v % 2 ^ cvW h.setting) })
    ∧ (MayStore s rq 0x6803 n [1] → Runs (.hubCvuClose rq f [1]) s fun t => others t ∧ odGet t 0x6803 n = 0
        ∧ hubGet t n = { setting := h.setting, run := cvInit h.setting, check := cvCheck h.setting h.run }
        ∧ odGet t 0x6804 n = (if cvMismatch h.setting h.run = true then min (odGet s 0x6804 n + 1) (2 ^ 32 - 1) else odGet s 0x6804 n))
    ∧ (MayStore s rq 0x6803 n [0] → Runs (.hubCvuClose rq f [0]) s fun t => others t ∧ hubGet t n = h ∧ odGet t 0x6803 n = 0)

/-! ### Pairs (18) -/

/-- R26, R255, R431, R437 to R439, R444, R450: a cut is due in its cycle, at whose end a tray without a partner issues its watermarks and the active of a self-diagnosing pair sends what changed, with its check value, and leaves the rest for the next snapshot; 20 ms after the cut an unacknowledged snapshot is given up and its changes kept; an acknowledged one counts; the partner stores a snapshot whose check value holds and acknowledges it, and a sealed one stores nothing. -/
def Obligations.SnapshotsAreCutStoredAndAcknowledged : Prop :=
  (∀ s : State,
    let due := carOn s = true ∧ s.tray.failed = false
      ∧ (noPartner s = true ∨ s.pair.role = .active ∧ odGet s 0x6400 0 = 1 ∧ ∀ x, s.pair.out = some x → x.cutAt + 20000000 ≤ s.clk.now)
    (due → Runs .snapshotCut s fun t => t = { s with pair := { s.pair with cutDue := true } })
    ∧ (¬ due → Runs .snapshotCut s fun t => t = s))
  ∧ (∀ s : State, s.pending = [] → s.pair.cutDue = true → carOn s = true → s.tray.failed = false → s.tray.drain ≠ .inProgress →
      let seq := s.pair.nextSnap
      (noPartner s = true → ∃ t, step s = .next t ∧ t.pair = { s.pair with cutDue := false, marks := s.car.subCount } ∧ t.mem = s.mem)
      ∧ (noPartner s = false → s.pair.role = .active → odGet s 0x6400 0 = 1 → ∃ t o recs, step s = .next t ∧ t.pair.cutDue = false
          ∧ t.pair.out = some o ∧ o.seq = seq ∧ o.cutAt = s.clk.now ∧ o.counts = countsHeld (snapDrop s) o.handles ∧ t.pair.nextSnap = seq + 1 ∧ t.car.reqs = s.car.reqs
          ∧ (g63Up s = true → .snapshot seq recs (snapCheck seq recs) ∈ t.out) ∧ (g63Up s = false → t.out = s.out)
          ∧ (∀ h, (h ∈ s.pair.dirty ∨ ∃ x, s.pair.out = some x ∧ h ∈ x.handles) ↔ h ∈ o.handles ∨ h ∈ t.pair.dirty)
          ∧ (∀ h, h ∈ o.handles → .entry h (reqBits s h) ∈ recs)
          ∧ (∀ x, x ∈ o.counts → .watermark (vfOf (x.1 / 8 - 1)) (ringNo x.1) x.2 ∈ recs)
          ∧ (∀ x, x ∈ s.car.subCount → (∀ h, h ∈ t.pair.dirty → (reqGet s h).part ≠ x.1 / 8 - 1) → x ∈ o.counts)))
  ∧ (∀ (s : State) (x : SnapOut), s.pair.out = some x →
      (s.clk.now < x.cutAt + 20000000 → Runs .snapshotAbandon s fun t => t = s)
      ∧ (x.cutAt + 20000000 ≤ s.clk.now → Runs .snapshotAbandon s fun t => t.pair.out = none ∧ (∀ h, h ∈ t.pair.dirty ↔ h ∈ s.pair.dirty ∨ h ∈ x.handles)
          ∧ (s.wv.shuttingDown = false → t = { s with pair := t.pair, out := t.out } ∧ (s.tray.drain ≠ .inProgress → t.out = s.out)
            ∧ (s.tray.drain = .inProgress → s.pair.yielded = false → t.out = .yield :: s.out ∧ t.pair.yielded = true))
          ∧ (s.wv.shuttingDown = true → s.tray.failedThermal = false → t.tray.failed = true ∧ t.tray.failedThermal = true))
      ∧ (s.clk.now ≤ x.cutAt + 20000000 → g63Up s = true → Runs (.snapshotAck x.seq) s fun t => t.pair.out = none ∧ t.pair.lastAck = x.seq
          ∧ t.pair.partnerRole = some (if x.whole = true ∨ s.pair.partnerRole = some .standby then .standby else .joining)
          ∧ t.pair.retSent = x.retains ∧ t.pair.marks = x.counts ∧ t.pair.dirty = s.pair.dirty ∧ t.mem.hbm = s.mem.hbm)
      ∧ (g63Up s = false → Runs (.snapshotAck x.seq) s fun t => t = s)
      ∧ ∀ q, q ≠ x.seq → Runs (.snapshotAck q) s fun t => t = s)
  ∧ ∀ (s : State) (q : Nat) (recs : List SnapRecord) (check : BitVec 64), carOn s = true →
      (s.pair.sealed = true ∨ g63Up s = false → Runs (.snapshotReceive q recs check) s fun t => t = s)
      ∧ (s.pair.sealed = false → g63Up s = true → s.pair.role = .standby ∨ s.pair.role = .rehearsing →
        (check ≠ snapCheck q recs → Runs (.snapshotReceive q recs check) s fun t => t.pair = s.pair ∧ t.mem = s.mem ∧ t.out = s.out
          ∧ odGet t 0x6805 4 = min (odGet s 0x6805 4 + 1) (2 ^ 32 - 1))
        ∧ (check = snapCheck q recs → Runs (.snapshotReceive q recs check) s fun t => (∃ new, t.out = new ++ s.out ∧ .snapAck q ∈ new) ∧ t.pair.partnerRole = some .active
          ∧ t.pair.lastAck = q ∧ t.pair.baseline = (s.pair.baseline || snapRoom (recs.foldl savedStore s) recs) ∧ t.pair.saved = (recs.foldl savedStore s).pair.saved ∧ t.mem = (recs.foldl savedStore s).mem
          ∧ ∀ (h : Nat) (b : W512), recs = [.entry h b] → t.mem = s.mem ∧ mget t.pair.saved.entries h = if b = 0 then none else some b))

/-- R265, R384, R441 to R447, R452: a takeover makes the standby ACTIVE and running with the submission counts of the last snapshot, or the tray declares itself failed; a follower whose leader is gone, and the member of a comparing pair whose partner yields, goes on alone; any other active that is told to yield fails; a written switchover sends YIELD. -/
def Sys2Proof.Claims.TakeoversAndYieldsMoveTheRole : Prop :=
  (∀ (cause : TakeoverCause) (s : State), s.tray.failed = false →
    (cause = .silent → s.pair.partnerLost = false → Runs (.takeoverStart cause) s fun t => t = s)
    ∧ (cause ≠ .silent ∨ s.pair.partnerLost = true →
      (s.pair.role = .standby ∨ s.pair.role = .rehearsing → Runs (.takeoverStart cause) s fun t => Failed t
        ∨ (t.pair.role = .active ∧ t.tray.clockState = .run ∧ t.tray.selfRefresh = false ∧ t.pair.sealed = false ∧ t.pair.partnerLost = true
          ∧ t.car.subCount = s.pair.saved.counts ∧ t.pair.marks = s.pair.saved.counts ∧ t.pair.saved = {}))
      ∧ (s.pair.role = .follower → Runs (.takeoverStart cause) s Alone)
      ∧ (s.pair.role = .unpaired ∨ s.pair.role = .active → Runs (.takeoverStart cause) s fun t => t = s)))
  ∧ (∀ s : State, s.tray.failed = false →
      (odGet s 0x6400 0 = 2 → s.pair.role = .active ∨ s.pair.role = .follower → Runs .yield s Alone)
      ∧ (odGet s 0x6400 0 ≠ 2 → s.pair.role = .active → Runs .yield s fun t => t.pair.role = .failed ∧ t.tray.clockState = .deepSleep ∧ t.pair.yielded = true
          ∧ t.pair.partnerRole = some .active)
      ∧ (s.pair.role = .unpaired → Runs .yield s fun t => t = s))
  ∧ ∀ (rq : DictReq) (s : State), MayStore s rq 0x640C 0 [1] → Runs (.plannedSwitchover rq [1]) s fun t => odGet t 0x640C 0 = 0 ∧ t.mem = s.mem ∧ t.car = s.car
      ∧ (s.pair.role = .active → t.pair = { s.pair with yielded := true } ∧ .yield ∈ t.out) ∧ (s.pair.role ≠ .active → t.pair = s.pair)

/-- R445 to R448: a follower keeps its leader's decisions and batches in order; two values of a step that agree release what was held, and two that differ start a proof test and count; a proof test fails the tray, leaves one member alone, or runs the step again; the armed instants are exchanged. -/
def Obligations.MembersCompareAndProve : Prop :=
  (∀ s : State, (s.pair.role = .follower → g63Up s = true →
      (∀ d, Runs (.followerAdmit (.decision d)) s fun t => t = { s with pair := { s.pair with decisions := s.pair.decisions ++ [d] } })
      ∧ ∀ (p : PartId) id l, Runs (.followerAdmit (.batch p id l)) s fun t => mget t.pair.batches p.val = some (mgetD s.pair.batches p.val [] ++ [(id, l)])
          ∧ (∀ q, q ≠ p.val → mget t.pair.batches q = mget s.pair.batches q) ∧ t = { s with pair := { s.pair with batches := t.pair.batches } })
    ∧ (s.pair.role ≠ .follower ∨ g63Up s = false → ∀ m, Runs (.followerAdmit m) s fun t => t = s))
  ∧ (∀ (p : PartId) (seq : Nat) (v : BitVec 64) (s : State),
      let k := 16 * seq + p.val
      let old := mgetD s.pair.compare k { seq := seq }
      (comparing s = false ∨ g63Up s = false → Runs (.stepCheckValueReceive p seq v) s fun t => t = s)
      ∧ (comparing s = true → g63Up s = true →
        (old.own = none → Runs (.stepCheckValueReceive p seq v) s fun t => mget t.pair.compare k = some { old with partner := some v } ∧ t = { s with pair := { s.pair with compare := t.pair.compare } })
        ∧ (old.own = some v → Runs (.stepCheckValueReceive p seq v) s fun t => mget t.pair.compare k = none ∧ p.val ∉ t.pair.proof
            ∧ (mgetD t.car.heldOut p.val []) = (mgetD s.car.heldOut p.val []).filter fun x => x.1 != seq)
        ∧ ∀ a, old.own = some a → a ≠ v → Runs (.stepCheckValueReceive p seq v) s fun t => mget t.pair.compare k = none ∧ p.val ∈ t.pair.proof ∧ t.car = s.car ∧ t.out = s.out
            ∧ odGet t 0x640A 0 = min (odGet s 0x640A 0 + 1) (2 ^ 32 - 1) ∧ odGet t 0x6805 1 = min (odGet s 0x6805 1 + 1) (2 ^ 32 - 1)))
  ∧ (∀ (p : PartId) (r : ProofOutcome) (s : State), s.tray.failed = false →
      let seq := mgetD s.pair.stepSeq p.val 0
      let v := mgetD s.cvu.step p.val 0
      (p.val ∉ s.pair.proof → Runs (.proofTestResult p r) s fun t => t = s)
      ∧ (p.val ∈ s.pair.proof →
        (r.ownPass = false → Runs (.proofTestResult p r) s fun t => Failed t ∧ (r.partnerPass = true → t.pair.yielded = true))
        ∧ (r.ownPass = true → r.partnerPass = false → Runs (.proofTestResult p r) s Alone)
        ∧ (r.ownPass = true → r.partnerPass = true → r.secondMismatch = false → Runs (.proofTestResult p r) s fun t => (g63Up s = true → .stepCheck p seq v ∈ t.out) ∧ (g63Up s = false → t.out = s.out)
            ∧ mget t.pair.compare (16 * seq + p.val) = some { seq := seq, own := some v } ∧ t = { s with pair := { s.pair with compare := t.pair.compare }, trl := t.trl, out := t.out })
        ∧ (r.ownPass = true → r.partnerPass = true → r.secondMismatch = true →
            (s.pair.role = .follower → Runs (.proofTestResult p r) s fun t => t = { s with pair := { s.pair with yielded := true }, out := .yield :: s.out })
            ∧ (s.pair.role ≠ .follower → Runs (.proofTestResult p r) s Alone))))
  ∧ ∀ (i : BitVec 64) (s : State), (s.pair.role ≠ .unpaired → g63Up s = true → Runs (.armedInstantExchange i) s fun t => t = { s with pair := { s.pair with partnerArmed := i } })
      ∧ (s.pair.role = .unpaired ∨ g63Up s = false → Runs (.armedInstantExchange i) s fun t => t = s)

/-- R384, R435, R448: a standby whose partner is ACTIVE rehearses when its period is over or it is told to, with every unfenced quadrant powered; the right known answers put it back into cold standby, and any other result declares the tray failed. -/
def Sys2Proof.Claims.RehearsalsPowerAndProve : Prop :=
  (∀ (rq : DictReq) (s : State), s.pair.role = .standby → s.pair.partnerRole = some .active →
    let runs (t : State) : Prop := t.pair = { s.pair with role := .rehearsing } ∧ t.tray.clockState = .run ∧ t.mem.hbm = s.mem.hbm
      ∧ ∀ q : Fin 16, (fencedMask s).testBit q.val = false → t.tray.quadOn.getLsbD q.val = true
    let due := (match s.pair.lastRehearsal with | some x => x.1 | none => 0) + odGet s 0x6405 0 * 3600000000000 ≤ s.clk.now
    (due → Runs (.rehearsalStart .period) s runs) ∧ (¬ due → Runs (.rehearsalStart .period) s fun t => t = s)
    ∧ (MayStore s rq 0x6406 0 [1] → Runs (.rehearsalStart (.write rq [1])) s fun t => runs t ∧ odGet t 0x6406 0 = 0))
  ∧ ∀ (vs : List Nat) (s : State), s.tray.failed = false →
      let ok := ∀ q : Fin 16, (fencedMask s).testBit q.val = false → vs[q.val]? = some (Config.knownAnswer q.val)
      (s.pair.role = .rehearsing → ok → Runs (.rehearsalEnd vs) s fun t => t.pair = { s.pair with role := .standby, lastRehearsal := some (s.clk.now, false) }
          ∧ t.tray.clockState = .sleep ∧ t.tray.selfRefresh = true ∧ (∀ q : Fin 16, t.tray.quadOn.getLsbD q.val = false) ∧ t.mem.hbm = s.mem.hbm)
      ∧ (s.pair.role = .rehearsing → ¬ ok → Runs (.rehearsalEnd vs) s fun t => Failed t ∧ t.pair.lastRehearsal = some (s.clk.now, true))
      ∧ (s.pair.role ≠ .rehearsing → Runs (.rehearsalEnd vs) s fun t => t = s)

/-- R265, R384, R441 to R447, R452: a takeover makes the standby ACTIVE and running with the submission counts of the last snapshot, or the tray declares itself failed; a follower whose leader is gone, and the member of a comparing pair whose partner yields, goes on alone; any other active that is told to yield fails; a written switchover sends YIELD. R384, R435, R448: a standby whose partner is ACTIVE rehearses when its period is over or it is told to, with every unfenced quadrant powered; the right known answers put it back into cold standby, and any other result declares the tray failed. -/
def Obligations.TakeoversYieldsAndRehearsalsMoveTheRole : Prop :=
  Claims.TakeoversAndYieldsMoveTheRole ∧ Claims.RehearsalsPowerAndProve

/-! ### Pavilion (19) -/

/-- R462 to R464, R467 to R469, R474: a read, a write and a clamp read of an object are each answered with their status; a write stores the value clamped into the legal range and answers what then reads back, and a clamped write counts. -/
def Obligations.ObjectOperationsAnswer : Prop :=
  ∀ (rq : DictReq) (i : BitVec 16) (b : Byte) (v : List Byte) (s : State), pavOn s = true →
    let x := i.toNat
    let n := b.toNat
    let read (P : State → Prop) : Prop := Runs (.dictRead rq i b) s fun t => P t ∧ DictOnly { s with freeCtr := t.freeCtr } t
    let count (P : State → Prop) : Prop := Runs (.readClamp rq i b) s fun t => P t ∧ DictOnly s t
    let write (P : State → Prop) : Prop := Runs (.dictWrite rq i b v) s P
    (odRow x n = none →
      read (fun t => Answers s t rq 1 x n []) ∧ count (fun t => Answers s t rq 1 x n []) ∧ write fun t => Answers s t rq 1 x n [] ∧ DictOnly s t)
    ∧ ∀ r, odRow x n = some r →
      (mayRead s rq.src x n r.acc = false → read fun t => Answers s t rq 2 x n [])
      ∧ (mayRead s rq.src x n r.acc = true → read fun t => Answers s t rq 0 x n (odReadBytes s rq.src x n r.size).1)
      ∧ (mayRead s rq.src x n r.acc = true → count fun t => Answers s t rq 0 x n (leBytes 4 (mgetD s.pav.clamps (odKey x n) 0)))
      ∧ (Plain s rq x n v →
        (mayWrite s rq.src x n r.acc = false → write fun t => Answers s t rq 2 x n [] ∧ DictOnly s t)
        ∧ (mayWrite s rq.src x n r.acc = true → v.length ≠ r.size → write fun t => Answers s t rq 3 x n [] ∧ DictOnly s t)
        ∧ (mayWrite s rq.src x n r.acc = true → v.length = r.size → write fun t =>
            let w := odGet t x n
            w = plainClamp x n s (leNat v) ∧ Answers s t rq 0 x n (leBytes r.size w)
            ∧ (w = leNat v → t.pav.clamps = s.pav.clamps)
            ∧ (w ≠ leNat v → mget t.pav.clamps (odKey x n) = some (min (mgetD s.pav.clamps (odKey x n) 0 + 1) (2 ^ 32 - 1)))
            ∧ t.mem.hbm = s.mem.hbm ∧ t.fuses = s.fuses
            ∧ ∀ lo hi, r.clamp = .range lo hi → isGrant x = false → x ≠ 0x6408 → x ∉ [0x0402, 0x1002, 0x1101, 0x6020, 0x6021, 0x6401, 0x7C01] → w = min hi (max lo (leNat v))))

/-- R455 to R459, R461: a HELLO is answered with fresh keys and the tray's signature, or rejected; AUTH opens the session with its credential's role or ends it and counts; a message is taken once, when its cipher opens and its number is new; fragments wait one second; a session ends when it is closed, when it is silent and when its credential changes. -/
def Obligations.SessionsOpenAuthenticateAndEnd : Prop :=
  (∀ (g : Fin 2) (body : List Byte) (s : State), pavOn s = true → s.tray.hub.gatehouse = true → s.gate.identityOff = false → body.length = 1252 →
    let fits := (body.getD 0 0).toNat ≤ 1 ∧ 1 ≤ (body.getD 1 0).toNat
    (sessFree s = none ∨ ¬ fits → Runs (.hello g body) s fun t => t.out = .datagram g 3 0 0 [1, 1] :: s.out ∧ t.pav.sessions = s.pav.sessions)
    ∧ ∀ n, sessFree s = some n → fits → Runs (.hello g body) s fun t =>
        ∃ x ack, mget t.pav.sessions n = some x ∧ x.isOpen = false ∧ x.role = .none ∧ x.cred = (body.getD 2 0).toNat ∧ x.transcript = Config.sha384 (body ++ ack)
          ∧ t.out = .datagram g 2 0 0 (ack ++ leBytes 64 (Config.ed25519Sign Config.uds x.transcript) ++ leBytes 3309 (Config.mldsaSign Config.uds x.transcript)) :: s.out
          ∧ ∀ m, m ≠ n → mget t.pav.sessions m = mget s.pav.sessions m)
  ∧ (∀ (n : Fin 8) (x : Sess) (body : List Byte) (s : State), mget s.pav.sessions n.val = some x →
      let others (t : State) : Prop := ∀ m, m ≠ n.val → mget t.pav.sessions m = mget s.pav.sessions m
      (pavOn s = true → x.isOpen = false → Runs (.auth n body) s fun t => others t
        ∧ if authOk s x body then
            mget t.pav.sessions n.val = some { x with isOpen := true, role := roleOfCode (odGet s 0x0400 x.cred % 256), txSeq := x.txSeq + 1 }
            ∧ t.out = .datagram x.seg 5 (sessNo n.val) x.txSeq [BitVec.ofNat 8 (odGet s 0x0400 x.cred % 256)] :: s.out
          else mget t.pav.sessions n.val = none ∧ t.out = s.out ∧ odGet t 0x0406 1 = min (odGet s 0x0406 1 + 1) (2 ^ 32 - 1))
      ∧ (pavOn s = true → x.isOpen = true → Runs (.auth n body) s fun t => t = s)
      ∧ (pavOn s = true → Runs (.sessionClose n) s fun t => mget t.pav.sessions n.val = none ∧ others t ∧ t.out = s.out)
      ∧ (x.lastAt + odGet s 0x0405 0 * 1000000000 ≤ s.clk.now → Runs (.sessionIdleTimeout n) s fun t => mget t.pav.sessions n.val = none ∧ others t)
      ∧ (s.clk.now < x.lastAt + odGet s 0x0405 0 * 1000000000 → Runs (.sessionIdleTimeout n) s fun t => t = s))
  ∧ (∀ (g : Fin 2) (typ : Byte) (sid : W32) (q : BitVec 64) (body : List Byte) (s : State), pavOn s = true → body.length ≤ 1216 →
      let d : List Byte := [1, typ, 0, 0] ++ leBytes 4 sid.toNat ++ leBytes 8 q.toNat ++ body
      let fresh := match sessOf s sid with | none => false | some x => seqFresh x.2 q.toNat && (x.2.isOpen != (typ == 4))
      (typ = 1 ∨ typ = 6 → Runs (.datagramReceive g 30120 d) s fun t =>
        t = { s with pav := { s.pav with inbox := s.pav.inbox ++ [{ typ := typ.toNat, sid := sid, body := body, seg := g }] } })
      ∧ (typ = 4 ∨ typ = 8 ∨ typ = 11 → fresh = false → Runs (.datagramReceive g 30120 d) s fun t =>
          odGet t 0x0406 2 = min (odGet s 0x0406 2 + 1) (2 ^ 32 - 1) ∧ t.pav.sessions = s.pav.sessions ∧ t.pav.inbox = s.pav.inbox ∧ t.out = s.out)
      ∧ (∀ n x, typ = 4 ∨ typ = 11 → fresh = true → sessOf s sid = some (n, x) → Runs (.datagramReceive g 30120 d) s fun t =>
          match Config.gcmOpen x.rxKey q.toNat (msgHeader typ.toNat 1 sid q.toNat) (body.take (body.length - 16)) (leNat (body.drop (body.length - 16))) with
          | none => odGet t 0x0406 2 = min (odGet s 0x0406 2 + 1) (2 ^ 32 - 1) ∧ t.pav.sessions = s.pav.sessions ∧ t.pav.inbox = s.pav.inbox
          | some pt => t.pav.inbox = s.pav.inbox ++ [{ typ := typ.toNat, sid := sid, body := pt, seg := g }]
            ∧ ∃ y, mget t.pav.sessions n = some y ∧ y.rxHigh = max x.rxHigh q.toNat ∧ y.lastAt = s.clk.now ∧ seqFresh y q.toNat = false)
      ∧ ∀ port, port ≠ 30120 → Runs (.datagramReceive g port d) s fun t => t = s)
  ∧ (∀ (sid : W32) (q : BitVec 64) (s : State), Runs (.fragmentTimeout sid q) s fun t => t = { s with pav := { s.pav with frags := t.pav.frags } }
      ∧ ∀ f, f ∈ t.pav.frags ↔ f ∈ s.pav.frags ∧ (f.sid ≠ sid ∨ f.seq ≠ q ∨ s.clk.now < f.firstAt + 1000000000))
  ∧ ∀ (rq : DictReq) (c : Fin 16) (v : List Byte) (s : State), MayStore s rq 0x0400 (c.val + 1) v →
      leNat v % 256 ≤ 4 → leNat v / 256 % 2 ^ 24 = 0 → (∃ f, rq.src = .window f) → Runs (.credentialWrite rq c v) s fun t =>
        odGet t 0x0400 (c.val + 1) = leNat v
        ∧ t.pav.sessions = if leNat v = odGet s 0x0400 (c.val + 1) then s.pav.sessions else s.pav.sessions.filter fun x => x.2.cred != c.val + 1

/-- R462, R463, R465, R471, R475, R477, R453, R454: a session subscribes to at most 64 objects and is notified of a changed value once per interval; a restart ends every session and the objects stay; an emptied log keeps its count; echoes and solicitations of an own address are answered. -/
def Obligations.PavilionSubscribesNotifiesAndRestarts : Prop :=
  (∀ (n : Fin 8) (rq : DictReq) (i : BitVec 16) (b : Byte) (ms : BitVec 16) (x : Sess) (s : State), pavOn s = true → rq.src = .session n →
      mget s.pav.sessions n.val = some x → x.isOpen = true →
      let same (u : Sub) : Bool := u.idx == i.toNat && u.sub == b.toNat
      let rest := x.subs.filter fun u => !same u
      let subs (t : State) (l : List Sub) : Prop := ∃ y, mget t.pav.sessions n.val = some y ∧ y.subs = l
      (odRow i.toNat b.toNat = none → Runs (.subscribe rq i b ms) s (fun t => Answers s t rq 1 i.toNat b.toNat [] ∧ subs t x.subs)
        ∧ Runs (.unsubscribe rq i b) s fun t => Answers s t rq 1 i.toNat b.toNat [] ∧ subs t x.subs)
      ∧ ∀ r, odRow i.toNat b.toNat = some r →
        (mayRead s rq.src i.toNat b.toNat r.acc = false → Runs (.subscribe rq i b ms) s fun t => Answers s t rq 2 i.toNat b.toNat [] ∧ subs t x.subs)
        ∧ (mayRead s rq.src i.toNat b.toNat r.acc = true → 64 ≤ rest.length → Runs (.subscribe rq i b ms) s fun t => Answers s t rq 4 i.toNat b.toNat [] ∧ subs t x.subs)
        ∧ (mayRead s rq.src i.toNat b.toNat r.acc = true → rest.length < 64 → Runs (.subscribe rq i b ms) s fun t => Answers s t rq 0 i.toNat b.toNat []
            ∧ subs t (rest ++ [{ idx := i.toNat, sub := b.toNat, minMs := min 60000 (max 10 ms.toNat), lastAt := none, lastVal := odValue s i.toNat b.toNat }]))
        ∧ Runs (.unsubscribe rq i b) s fun t => Answers s t rq 0 i.toNat b.toNat [] ∧ subs t rest)
  ∧ (∀ (n : Fin 8) (i : BitVec 16) (b : Byte) (x : Sess) (u : Sub) (r : OdRow) (s : State), pavOn s = true → mget s.pav.sessions n.val = some x → x.isOpen = true →
      x.subs.find? (fun u => u.idx == i.toNat && u.sub == b.toNat) = some u → odRow i.toNat b.toNat = some r →
      let v := odValue s i.toNat b.toNat
      let early := ∃ t, u.lastAt = some t ∧ s.clk.now < t + u.minMs * 1000000
      (v = u.lastVal ∨ early → Runs (.notify n i b) s fun t => t = s)
      ∧ (v ≠ u.lastVal → ¬ early → Runs (.notify n i b) s fun t => (∃ y, mget t.pav.sessions n.val = some y ∧ y.txSeq = x.txSeq + 1
            ∧ ∀ w, w ∈ y.subs → w.idx = i.toNat → w.sub = b.toNat → w.lastAt = some s.clk.now ∧ w.lastVal = v)
          ∧ t.out = .datagram x.seg 10 (sessNo n.val) x.txSeq (leBytes 2 i.toNat ++ leBytes 1 b.toNat ++ leBytes 1 0 ++ leBytes r.size v) :: s.out))
  ∧ (∀ (rq : DictReq) (s : State),
      let gone (t : State) : Prop := t.pav.sessions = [] ∧ t.pav.frags = [] ∧ t.pav.inbox = [] ∧ t.pav.restarting = true ∧ t.pav.log = s.pav.log ∧ t.pav.clamps = s.pav.clamps
      (s.tray.hub.pavilion = true → Runs (.pavilionRestart .fault) s fun t => gone t ∧ t.pav.vals = s.pav.vals ∧ t = { s with pav := t.pav })
      ∧ (MayStore s rq 0x0408 0 [1] → Runs (.pavilionRestart (.write rq [1])) s fun t => gone t ∧ odGet t 0x0408 0 = 0 ∧ DictOnly s t)
      ∧ (s.pav.restarting = true → Runs .pavilionAnsweringAgain s fun t => t.pav.restarting = false ∧ (∀ w, w ∈ t.pav.windows → w.2.busy = false)
          ∧ t.pav.vals = s.pav.vals ∧ t.pav.log = s.pav.log ∧ t = { s with pav := t.pav })
      ∧ (pavOn s = true → Runs (.errorLogRead rq) s fun t => mayRead s rq.src 0x7C02 0 .ro = true → Answers s t rq 0 0x7C02 0 (recordRead s rq.src).1)
      ∧ (MayStore s rq 0x7C03 0 [1] → Runs (.logClear rq [1]) s fun t => t.pav.log = [] ∧ t.pav.nextSeq = s.pav.nextSeq ∧ odGet t 0x7C03 0 = 0 ∧ DictOnly s t))
  ∧ (∀ (g : Fin 2) (body : List Byte) (s : State), pavOn s = true →
      (Runs (.icmpv6Message g true body) s fun t => t = { s with out := .icmp g body :: s.out })
      ∧ (Runs (.icmpv6Message g false (linkLocal s g)) s fun t => t = { s with out := .icmp g (linkLocal s g) :: s.out })
      ∧ (body ≠ linkLocal s g → body ≠ uniqueLocal s g → Runs (.icmpv6Message g false body) s fun t => t = s))
  ∧ ∀ (g : Fin 2) (st : Fin 3) (s : State), s.tray.hub.pavilion = true → Runs (.segmentStatusChange g st) s fun t =>
      odGet t 0x0404 (g.val + 1) = (if st = 1 ∧ nodeBeyond s = true then 2 else st.val) ∧ t = { s with pav := { s.pav with vals := t.pav.vals } }

/-- R97, R137, R174, R175, R206, R237, R270, R315, R346, R375 to R377, R433, R452, R469, R477, R546: writing 1 to a clear object returns its counters to zero and nothing else; the object itself goes on reading 0. -/
def Obligations.CounterClearsReturnTheirCounters : Prop :=
  ∀ (rq : DictReq) (s : State),
    let ok (c : Instr) (idx : Nat) (ranges : List (Nat × Nat)) : Prop :=
      MayStore s rq idx 0 [1] → Runs c s fun t => Clears s t rq idx ranges ∧ t.pav.log = s.pav.log ∧ odGet t idx 0 = 0
    ok (.coreCounterClear rq [1]) 0x4014 [(0x4010, 0x4013)] ∧ ok (.sequencerCounterClear rq [1]) 0x4027 [(0x4023, 0x4025)]
    ∧ ok (.memoryCounterClear rq [1]) 0x2014 [(0x2010, 0x2011)] ∧ ok (.dmaCounterClear rq [1]) 0x2404 [(0x2400, 0x2403)]
    ∧ ok (.convolutionCounterClear rq [1]) 0x4035 [(0x4031, 0x4034)] ∧ ok (.kvCounterClear rq [1]) 0x3035 [(0x3024, 0x3026), (0x3032, 0x3033)]
    ∧ ok (.carouselCounterClear rq [1]) 0x3016 [(0x3011, 0x3011), (0x3013, 0x3015)] ∧ ok (.videoCounterClear rq [1]) 0x7018 [(0x7010, 0x7017)]
    ∧ ok (.trellisCounterClear rq [1]) 0x6042 [(0x6001, 0x6003), (0x6040, 0x6041)] ∧ ok (.powerCounterClear rq [1]) 0x140A [(0x1406, 0x1406)]
    ∧ ok (.thermalCounterClear rq [1]) 0x1508 [(0x1506, 0x1507)] ∧ ok (.marginCounterClear rq [1]) 0x1605 [(0x1602, 0x1604)]
    ∧ ok (.pairCounterClear rq [1]) 0x640D [(0x6409, 0x640A)] ∧ ok (.cvuCounterClear rq [1]) 0x6806 [(0x6804, 0x6805)]
    ∧ ok (.errorCounterClear rq [1]) 0x7C26 [(0x7C20, 0x7C20), (0x7C25, 0x7C25)]
    ∧ (MayStore s rq 0x7C12 0 [1] → Runs (.clampCounterClear rq [1]) s fun t => t.pav.clamps = [] ∧ odGet t 0x7C10 0 = 0 ∧ odGet t 0x7C12 0 = 0
        ∧ t.pav.log = s.pav.log ∧ DictOnly s t)

/-! ### The host interface (20) -/

/-- R269, R480, R493 to R496, R503: a quiesce takes a function out of service, abandons what it had not decided and ends its descriptors; a disable also returns its registers to their defaults; a link that goes down does so for every virtual function and clears the configuration; the function is IDLE again when nothing of its work is left. -/
def Obligations.FunctionsQuiesceDisableAndIdle : Prop :=
  (∀ (f : Vf) (v : W32) (s : State), barOn s (f.val + 1) = true →
    let x := fnGet s (f.val + 1)
    (v = 1 → x.st = .idle ∨ x.st = .running → Runs (.functionQuiesce f v) s fun t =>
      (fnGet t (f.val + 1)).st = .quiescing ∧ (fnGet t (f.val + 1)).quiesce = true ∧ mget t.gate.ephem f.val = none
      ∧ (∀ k, k ∈ t.car.taken → k.f ≠ f) ∧ (∀ k, k ∈ t.zoe.taken → k.f ≠ f)
      ∧ (∀ j c g, j ∈ jobsOf t 68 → j.origin = .host f c g → j.status ≠ none))
    ∧ (v = 1 → x.st = .quiescing ∨ x.st = .ending → Runs (.functionQuiesce f v) s fun t => t = s)
    ∧ (v = 0 → Runs (.functionQuiesce f v) s fun t => t = s))
  ∧ (∀ (f : Vf) (s : State), pcieOn s = true →
      let x := fnGet s (f.val + 1)
      let g : Func := funcOf (f.val + 1)
      let gone : FuncS := { st := .ending, disabling := true, busMaster := x.busMaster, memSpace := x.memSpace, d3hot := x.d3hot }
      (∀ tr, tr = .busMasterCleared ∨ tr = .d3hot ∨ tr = .numVfsBelow → Runs (.functionDisable g tr) s fun t => fnGet t (f.val + 1) = gone)
      ∧ (Runs (.functionDisable g .flr) s fun t => fnGet t (f.val + 1) = { gone with busMaster := false, memSpace := false })
      ∧ (∀ tr, tr = .vfEnableCleared ∨ tr = .pfFlr → Runs (.functionDisable 0 tr) s fun t => fnGet t (f.val + 1) = gone)
      ∧ (let down (t : State) : Prop := fnGet t (f.val + 1) = { st := .ending, disabling := true } ∧ t.pcie.numVfs = 0 ∧ t.pcie.vfEnable = false
         (Runs (.functionDisable 0 .linkDown) s fun t => down t ∧ t.pcie.linkUp = false)
         ∧ Runs (.functionDisable 0 .hotReset) s down
         ∧ Runs .perstAssert s fun t => down t ∧ t.pcie.linkUp = false ∧ t.pcie.fwWindow = []))
  ∧ ∀ (f : Vf) (s : State), let x := fnGet s (f.val + 1)
      (x.st = .quiescing ∨ x.st = .ending → workDone s f = true → Runs (.functionIdle f) s fun t =>
        ∃ vs, fnGet t (f.val + 1) = { x with st := .idle, disabling := false, quiesce := false, pendingVec := vs })
      ∧ (x.st = .idle ∨ x.st = .running ∨ workDone s f = false → Runs (.functionIdle f) s fun t => t = s)

/-- R162, R481, R482, R485, R494, R503: a configuration request is retried until 600 ms after power good, and then reads the identity or sets what it names; a poisoned completion or a timeout ends its descriptor and the first is reported through AER; a write that the region does not take is discarded and counted. -/
def Sys2Proof.Claims.ConfigurationPoisonAndDiscards : Prop :=
  (∀ (f : Func) (op : ConfigOp) (s : State), pcieOn s = false ∨ (judgedGet s 41).stable = false → Runs (.configRequest f op) s fun t => t = s)
  ∧ (∀ (f : Func) (op : ConfigOp) (s : State), pcieOn s = true → (judgedGet s 41).stable = true →
    (s.clk.now < s.tray.powerGoodAt + 600000000 → Runs (.configRequest f op) s fun t => t = { s with out := .configAnswer f true 0 :: s.out })
    ∧ (s.tray.powerGoodAt + 600000000 ≤ s.clk.now →
      let x := fnGet s f.val
      let done (t : State) (v : Nat) : Prop := t.out = .configAnswer f false v :: s.out ∧ t.pcie.linkUp = true ∧ t.mem = s.mem ∧ t.car = s.car
      (op = .read 0 → Runs (.configRequest f op) s fun t => done t ((if f = 0 then partCode s else 0x41F0) * 65536 + Config.configReg f.val 0 % 65536))
      ∧ (op = .read 4 → Runs (.configRequest f op) s fun t => done t ((if x.memSpace then 2 else 0) + if x.busMaster then 4 else 0))
      ∧ (op = .memSpace true → Runs (.configRequest f op) s fun t => done t 0 ∧ fnGet t f.val = { x with memSpace := true })
      ∧ (op = .busMaster true → Runs (.configRequest f op) s fun t => done t 0 ∧ fnGet t f.val = { x with busMaster := true })
      ∧ (f = 0 → op = .vfEnable true → Runs (.configRequest f op) s fun t => done t 0 ∧ t.pcie.vfEnable = true)
      ∧ (∀ n, f = 0 → op = .numVfs n → s.pcie.vfEnable = false → Runs (.configRequest f op) s fun t => done t 0 ∧ t.pcie.numVfs = min 16 n)))
  ∧ (∀ (tag : Nat) (s : State),
      (∀ f i j, mget s.dma.outstanding tag = some f → tagJob s tag = some (i, j) → dGcm j.desc = true →
        (Runs (.poisonedTlp (.completion tag)) s fun t => t.out.head? = some (.aer (funcOf f))
          ∧ mget t.dma.outstanding tag = none ∧ (jobsOf t 68)[i]?.map Job.status = some (some 9) ∧ t.mem = s.mem)
        ∧ Runs (.completionTimeout tag) s fun t => mget t.dma.outstanding tag = none ∧ (jobsOf t 68)[i]?.map Job.status = some (some 9) ∧ t.mem = s.mem)
      ∧ (mget s.dma.outstanding tag = none →
        (Runs (.poisonedTlp (.completion tag)) s fun t => t = s)
        ∧ Runs (.completionTimeout tag) s fun t => tag ∉ t.dma.abandoned ∧ t = { s with dma := { s.dma with abandoned := t.dma.abandoned } }))
  ∧ ∀ (f : Func) (off size : Nat) (s : State), barOn s f.val = true →
      let dropped (t : State) : Prop := fnGet t f.val = { fnGet s f.val with discards := min ((fnGet s f.val).discards + 1) (2 ^ 32 - 1) } ∧ t = { s with pcie := t.pcie, out := t.out }
      (0x20 ≤ off → off < 0x100 → Runs (.barWriteDiscard f off size) s fun t => dropped t ∧ t.out = s.out)
      ∧ (off < 0x1000 → size ≠ 4 → size ≠ 8 → Runs (.barWriteDiscard f off size) s fun t => dropped t ∧ t.out = s.out)
      ∧ Runs (.poisonedTlp (.barWrite f off)) s fun t => dropped t ∧ t.out = .aer f :: s.out

/-- R485, R486: an aligned write of a function's register stores the nearest legal value and counts a clamp; an enabled ring keeps its size while it is in use; the read-only registers take nothing. -/
def Sys2Proof.Claims.FunctionRegistersStoreLegalValues : Prop :=
  ∀ (f : Vf) (s : State), barOn s (f.val + 1) = true →
    let fn := f.val + 1
    let x := fnGet s fn
    let w (off v : Nat) (P : State → Prop) : Prop := Runs (.functionRegisterWrite (funcOf fn) off 4 (BitVec.ofNat 64 v)) s P
    let only (t : State) : Prop := t.mem = s.mem ∧ t.car = s.car ∧ t.zoe = s.zoe ∧ t.dma = s.dma ∧ t.out = s.out
    let clamped (t : State) (c : Bool) : Prop := (fnGet t fn).clamps = if c then min (x.clamps + 1) (2 ^ 32 - 1) else x.clamps
    (∀ v, w 0 v (fun t => t = s) ∧ w 8 v (fun t => t = s) ∧ w 0xC v fun t => t = s)
    ∧ (∀ r n, r < 8 → 6 ≤ n → n ≤ 12 → (sqGet x r).log2 = 0 → (cqGet x 0).log2 ≠ 0 → (∀ i, i ≠ r → (sqGet x i).log2 = 0) →
        w (0x100 + 16 * r) n fun t => sqGet (fnGet t fn) r = { log2 := n } ∧ clamped t false ∧ only t)
    ∧ (∀ r n, r < 8 → 6 ≤ n → n ≤ 12 → (sqGet x r).log2 ≠ 0 → (sqGet x r).log2 ≠ n →
        w (0x100 + 16 * r) n fun t => sqGet (fnGet t fn) r = sqGet x r ∧ clamped t true ∧ only t)
    ∧ (∀ c n vec, c < 9 → 8 ≤ n → n ≤ 16 → vec < 120 → (cqGet x c).log2 = 0 →
        w (0x208 + 32 * c) (vec * 256 + n) fun t => clamped t false ∧ only t ∧ (cqGet (fnGet t fn) c).log2 = n ∧ (cqGet (fnGet t fn) c).vector = vec
          ∧ (cqGet (fnGet t fn) c).base = (cqGet x c).base)
    ∧ (∀ c n m, c < 9 → n < 65536 → m < 65536 →
        w (0x20C + 32 * c) (n * 65536 + m) fun t => only t ∧ cqGet (fnGet t fn) c = { cqGet x c with modCount := max 1 n, modTime := min 1000 m }
          ∧ clamped t (n = 0 ∨ 1000 < m))

/-- R485, R486: an aligned write of a function's register stores the nearest legal value and counts a clamp; an enabled ring keeps its size while it is in use; the read-only registers take nothing. R162, R481, R482, R485, R494, R503: a configuration request is retried until 600 ms after power good, and then reads the identity or sets what it names; a poisoned completion or a timeout ends its descriptor and the first is reported through AER; a write that the region does not take is discarded and counted. -/
def Obligations.RegistersConfigurationAndDiscards : Prop :=
  Claims.FunctionRegistersStoreLegalValues ∧ Claims.ConfigurationPoisonAndDiscards

/-! ### Clocks (15) -/

/-- R387 to R390: an edge whose spacing from the last is out by more than 10 µs is rejected and counted; another is valid, corrects a small error by slewing and a larger one by a step, and locks the timebase; 1.5 s without an edge is holdover. -/
def Sys2Proof.Claims.EdgesSteerTheTimebase : Prop :=
  (∀ s : State, s.tray.hub.hubCommon = true → clkRuns s 0x26 = true →
    let tb := s.clk.timebase.toNat
    let e : Int := (tb : Int) - edgeExpected s
    let clean (t : State) : Prop := odGet t 0x1101 0 = 0 ∧ odGet t 0x1103 0 = clampI32 e ∧ t.mem = s.mem ∧ t.car = s.car
    (s.clk.lastEdge = none ∨ (∃ at_ x, s.clk.lastEdge = some (at_, x) ∧ at_ + 1500000000 < s.clk.now) → Runs .ppsEdge s fun t =>
      t.clk = { s.clk with lastEdge := some (s.clk.now, s.clk.timebase) } ∧ clean t)
    ∧ ∀ at_ x, s.clk.lastEdge = some (at_, x) → s.clk.now ≤ at_ + 1500000000 →
      let gap : Int := (tb : Int) - x.toNat
      (gap > 1000010000 ∨ gap < 999990000 → Runs .ppsEdge s fun t => odGet t 0x1106 0 = min (odGet s 0x1106 0 + 1) (2 ^ 32 - 1)
        ∧ t = { s with pav := { s.pav with vals := t.pav.vals } })
      ∧ (999990000 ≤ gap → gap ≤ 1000010000 →
        (-1000 ≤ e → e ≤ 1000 → Runs .ppsEdge s fun t => clean t
          ∧ t.clk = { s.clk with mode := .locked, slew := e, slewing := e != 0, slewPhase := 0, lastEdge := some (s.clk.now, s.clk.timebase) })
        ∧ (e < -1000 ∨ 1000 < e → Runs .ppsEdge s fun t => clean t ∧ odGet t 0x1105 0 = min (odGet s 0x1105 0 + 1) (2 ^ 32 - 1)
            ∧ t.clk.timebase = BitVec.ofInt 64 (edgeExpected s : Int) ∧ t.clk.mode = .locked ∧ t.clk.slew = 0 ∧ t.clk.slewing = false
            ∧ t.clk.steps = ((s.clk.now, -e) :: s.clk.steps).take 32)))
  ∧ (∀ s : State, (s.clk.slewing = true → s.clk.slew = 0 → Runs .timebaseSlewEnd s fun t => t = { s with clk := { s.clk with slewing := false, slewPhase := 0 } })
      ∧ (s.clk.slew ≠ 0 → Runs .timebaseSlewEnd s fun t => t = s))
  ∧ ∀ (s : State) (at_ : Nat) (x : BitVec 64), s.clk.lastEdge = some (at_, x) →
      (s.clk.mode = .locked → at_ + 1500000000 ≤ s.clk.now → Runs .holdoverEnter s fun t => t = { s with clk := { s.clk with mode := .holdover } })
      ∧ (s.clk.mode ≠ .locked ∨ s.clk.now < at_ + 1500000000 → Runs .holdoverEnter s fun t => t = s)

/-- R325, R379 to R383, R385, R386, R392: an interval out of its window makes a clock unstable and enough passes make it stable; the TCXO's loss fails the tray; a domain follows the source written for it when that source is stable, restarts after its halt, and is counted; port A's reference returns after one second; spread is not raised under Class G work; the die NoC takes the nearest step. -/
def Sys2Proof.Claims.ClocksAreJudgedAndSwitched : Prop :=
  (∀ (c : Judged) (n : Nat) (s : State), judgedOn s c = true →
    let k := judgedKey c
    let j := judgedGet s k
    (c ≠ .tcxo → c ≠ .domain 0x17 →
      let falls (t : State) : Prop := judgedGet t k = { stable := false } ∧ t = { s with clk := { s.clk with judged := t.clk.judged, halts := t.clk.halts } }
        ∧ ∀ m h, mget s.clk.halts m = some h → sourceKey m (domSource s m) = some k → mget t.clk.halts m = some { h with back := true }
      (countOk s c n = false → Runs (.stabilityInterval c n) s falls) ∧ Runs (.lossOfLock c) s falls)
    ∧ (c = .domain 0x17 →
      let falls (t : State) : Prop := judgedGet t k = { stable := false }
          ∧ (mget s.clk.halts 0x19 = none → domSource t 0x19 = if domSource s 0x19 = 2 then 0 else domSource s 0x19)
        ∧ t = { s with clk := { s.clk with judged := t.clk.judged, source := t.clk.source, switching := t.clk.switching, halts := t.clk.halts }, pav := { s.pav with vals := t.pav.vals } }
      (countOk s c n = false → Runs (.stabilityInterval c n) s falls) ∧ Runs (.lossOfLock c) s falls)
    ∧ (c = .tcxo → s.tray.failed = false → Runs (.lossOfLock c) s Failed ∧ (countOk s c n = false → Runs (.stabilityInterval c n) s Failed))
    ∧ (countOk s c n = true →
      (j.stable = true → Runs (.stabilityInterval c n) s fun t => t = s)
      ∧ (j.stable = false → j.passes + 1 < odGet s 0x1020 3 → Runs (.stabilityInterval c n) s fun t => judgedGet t k = { j with passes := j.passes + 1 }
          ∧ t = { s with clk := { s.clk with judged := t.clk.judged } })
      ∧ (j.stable = false → odGet s 0x1020 3 ≤ j.passes + 1 → Runs (.stabilityInterval c n) s fun t => judgedGet t k = { stable := true, since := s.clk.now }
          ∧ t = { s with clk := { s.clk with judged := t.clk.judged, source := t.clk.source, switching := t.clk.switching, halts := t.clk.halts }, pav := { s.pav with vals := t.pav.vals } })))
  ∧ (∀ (rq : DictReq) (d : Fin 40) (v : List Byte) (s : State), let n := d.val + 1
      MayStore s rq 0x1000 n v → leNat v ∈ domSources n → domHeld s n = false → domOn s n = true → domSource s n ≠ leNat v →
      (mget s.clk.halts n = none → sourceReady s n (leNat v) = true → Runs (.clockSourceSwitch rq d v) s fun t => domSource t n = leNat v ∧ odGet t 0x1000 n = leNat v
        ∧ odGet t 0x1021 n = min (odGet s 0x1021 n + 1) (2 ^ 32 - 1) ∧ n ∉ t.clk.switching ∧ (∀ m, m ≠ n → m ≠ 0 → domSource t m = domSource s m)
        ∧ ∃ h, mget t.clk.halts n = some h ∧ h.old = domSource s n ∧ h.back = false ∧ (0 < domHz s n → s.clk.now < h.until_))
      ∧ (mget s.clk.halts n ≠ none ∨ sourceReady s n (leNat v) = false → Runs (.clockSourceSwitch rq d v) s fun t => domSource t n = domSource s n ∧ odGet t 0x1000 n = leNat v
        ∧ n ∈ t.clk.switching ∧ odGet t 0x1021 n = odGet s 0x1021 n))
  ∧ (∀ s : State, s.tray.hub.trellis = true → (portGet s 0).st = .up → (judgedGet s 0x17).stable = true → domSource s 0x19 = 0 → odGet s 0x1000 0x19 = 2 → mget s.clk.halts 0x19 = none →
      ((judgedGet s 0x17).since + 1000000000 ≤ s.clk.now → Runs .referenceReturn s fun t => domSource t 0x19 = 2 ∧ odGet t 0x1021 0x19 = min (odGet s 0x1021 0x19 + 1) (2 ^ 32 - 1) ∧ t.mem = s.mem)
      ∧ (s.clk.now < (judgedGet s 0x17).since + 1000000000 → Runs .referenceReturn s fun t => t = s))
  ∧ (∀ (rq : DictReq) (v : List Byte) (s : State), MayStore s rq 0x1010 0 v →
      let busy := ∃ h r, (h, r) ∈ s.car.reqs ∧ live r = true ∧ r.classE = false
      (¬ busy ∨ min 50 (leNat v) ≤ odGet s 0x1010 0 → Runs (.spreadDepthWrite rq v) s fun t => Stores s t 0x1010 0 (min 50 (leNat v)))
      ∧ (busy → odGet s 0x1010 0 < min 50 (leNat v) → Runs (.spreadDepthWrite rq v) s fun t => Stores s t 0x1010 0 (odGet s 0x1010 0)))
  ∧ ∀ (rq : DictReq) (d : Die) (v : List Byte) (s : State), MayStore s rq 0x1001 (d.val + 1) v →
      Runs (.dieNocFrequencyWrite rq d v) s fun t => ∃ w, Stores s t 0x1001 (d.val + 1) w ∧ 500 ≤ w ∧ w ≤ 1600 ∧ (w - 500) % 25 = 0
        ∧ (500 ≤ leNat v → leNat v ≤ 1600 → w ≤ leNat v + 12 ∧ leNat v ≤ w + 12) ∧ (leNat v < 500 → w = 500) ∧ (1600 < leNat v → w = 1600)

/-- R387 to R390: an edge whose spacing from the last is out by more than 10 µs is rejected and counted; another is valid, corrects a small error by slewing and a larger one by a step, and locks the timebase; 1.5 s without an edge is holdover. R325, R379 to R383, R385, R386, R392: an interval out of its window makes a clock unstable and enough passes make it stable; the TCXO's loss fails the tray; a domain follows the source written for it when that source is stable, restarts after its halt, and is counted; port A's reference returns after one second; spread is not raised under Class G work; the die NoC takes the nearest step. -/
def Obligations.EdgesAndJudgementsSteerTheClocks : Prop :=
  Claims.EdgesSteerTheTimebase ∧ Claims.ClocksAreJudgedAndSwitched

/-! ### Update, errors and perturbation (21, 23) -/

/-- R509 to R511, R517, R518: BEGIN starts a delivery afresh, and nothing during an activation; a submitted block is stored once, or its fault is the result; VERIFY needs every block and ends in VERIFIED or with the check that failed, which is logged; ABORT discards what is staged. -/
def Sys2Proof.Claims.UpdatesAreDeliveredAndVerified : Prop :=
  (∀ (rq : DictReq) (s : State), let u := s.upd
    (MayStore s rq 0x7E01 0 [1] →
      (u.st ≠ .activating → Runs (.updateBegin rq) s fun t => t.upd = { st := .receiving, result := if u.st = .armed then 12 else 0 } ∧ t.mem = s.mem ∧ t.flash = s.flash ∧ t.fuses = s.fuses)
      ∧ (u.st = .activating → Runs (.updateBegin rq) s fun t => t.upd = u))
    ∧ (MayStore s rq 0x7E01 0 [3] →
      (u.st = .receiving ∨ u.st = .verified ∨ u.st = .armed → Runs (.updateAbort rq) s fun t => t.upd = { st := .idle, result := 12 } ∧ keySlot t 60 = { kind := .gcm, owner := 0x3F } ∧ t.flash = s.flash)
      ∧ (u.st = .idle ∨ u.st = .activating → Runs (.updateAbort rq) s fun t => t.upd = u))
    ∧ (MayStore s rq 0x7E01 0 [2] → let i := stagedImage s
      (u.st = .armed ∨ u.st = .activating → Runs (.updateVerify rq) s fun t => t.upd = u)
      ∧ (u.st ≠ .armed → u.st ≠ .activating → updComplete s = false → Runs (.updateVerify rq) s fun t => t.upd = { u with result := 4 } ∧ t.flash = s.flash)
      ∧ (u.st ≠ .armed → u.st ≠ .activating → updComplete s = true → Runs (.updateVerify rq) s fun t => t.flash = s.flash
          ∧ if fwCheck s i = 0 then t.upd = { u with st := .verified, result := 0, image := i }
            else t.upd = { st := .idle, result := fwCheck s i + 4 } ∧ ∃ b rest, t.pav.log = b :: rest ∧ b.toNat / 2 ^ 184 % 2 ^ 64 = (i.comp * 16 + fwCheck s i) % 2 ^ 64)))
  ∧ ∀ (rq : DictReq) (v : List Byte) (s : State), MayStore s rq 0x7E02 0 v →
      let u := s.upd
      let k := nfld (leNat v) 31 0
      let b := nfld (leNat v) 33 32
      let n := nfld (leNat v) 95 64
      let bs := bufferBytes s b (min n 65536)
      let tag := nfld (leNat v) 255 128
      let runs (x : UpdS) : Prop := Runs (.blockSubmit rq v) s fun t => t.upd = x ∧ t.flash = s.flash ∧ t.mem = s.mem
      let blocks := cdiv u.length 65536
      (u.busy.getLsbD b = true → runs u)
      ∧ (u.busy.getLsbD b = false →
        (u.st ≠ .receiving → u.gotHeader = false → runs { u with result := 3 })
        ∧ (u.st = .receiving ∨ u.gotHeader = true → k = 0 → n ≠ 65536 → runs { u with result := 4 })
        ∧ (k = 0 → u.gotHeader = true → n = 65536 →
            runs (if (Config.gcmOpen u.contentKey (blockIv (BitVec.ofNat 64 (leNat (hdr bs 8 8))) 0) bs [] tag).isNone then { u with result := 2 } else u))
        ∧ (u.st = .receiving → k = 0 → u.gotHeader = false → n = 65536 →
          let len := leNat (hdr bs 4 4)
          let right := (bs.getD 0 0).toNat = 1 ∧ leNat (hdr bs 16 16) = s.fuses.serial.toNat ∧ len ≠ 0 ∧ len ≤ 67043328
          (¬ right → runs { st := .idle, result := 1 })
          ∧ (right → runs (match openWrap bs with
            | none => { st := .idle, result := 1 }
            | some ck =>
              let nonce : BitVec 64 := BitVec.ofNat 64 (leNat (hdr bs 8 8))
              if (Config.gcmOpen (leNat ck) (blockIv nonce 0) bs [] tag).isNone then { u with result := 2 }
              else { u with gotHeader := true, image := manifestOf (bs.drop 2048), length := len, nonce := nonce, contentKey := leNat ck, result := 0 })))
        ∧ (u.st = .receiving ∨ u.gotHeader = true → k ≠ 0 → u.gotHeader = false ∨ blocks < k → runs { u with result := 3 })
        ∧ (k ≠ 0 → u.gotHeader = true → k ≤ blocks →
          let want := if k = blocks then u.length - 65536 * (blocks - 1) else 65536
          (n ≠ want → runs { u with result := 4 })
          ∧ (n = want → runs (match Config.gcmOpen u.contentKey (blockIv u.nonce k) [] bs tag with
            | none => { u with result := 2 }
            | some pt => if (mget u.blocks k).isSome then u else { u with blocks := mset u.blocks k pt, result := 0 }))))

/-- R394, R398, R512 to R516: an instant written for a VERIFIED update is held to its range and arms it, unless something bars it; at that instant the update activates in a role that may, and the commit writes the new image or keeps the old; a floor rises to the running version and no lower. -/
def Sys2Proof.Claims.UpdatesArmActivateAndRaiseFloors : Prop :=
  (∀ (rq : DictReq) (v : List Byte) (s : State), MayStore s rq 0x7E03 0 v →
    let u := s.upd
    let at_ := armTime s (leNat v)
    let bar := armBar s at_
    (u.st = .verified → leNat v ≠ 0 → bar = 0 → Runs (.activationTimeWrite rq v) s fun t => t.upd = { u with st := .armed, armed := BitVec.ofNat 64 at_, result := 0 } ∧ odGet t 0x7E03 0 = at_)
    ∧ (u.st = .verified → leNat v ≠ 0 → bar ≠ 0 → Runs (.activationTimeWrite rq v) s fun t => t.upd = { u with armed := 0, result := bar } ∧ odGet t 0x7E03 0 = 0)
    ∧ (u.st = .armed → leNat v = 0 → Runs (.activationTimeWrite rq v) s fun t => t.upd = { u with st := .verified, armed := 0 } ∧ odGet t 0x7E03 0 = 0))
  ∧ (∀ s : State, let u := s.upd
      (u.st ≠ .armed ∨ s.clk.timebase.toNat < u.armed.toNat → Runs .activation s fun t => t = s)
      ∧ (u.st = .armed → u.armed.toNat ≤ s.clk.timebase.toNat →
        (roleActivates s = false → Runs .activation s fun t => t.upd = { u with st := .verified, armed := 0, result := 9 } ∧ t.pair = s.pair)
        ∧ (roleActivates s = true → Runs .activation s fun t => t.upd = { u with st := .activating } ∧ t.pair = { s.pair with yielded := if s.pair.role = .active then true else s.pair.yielded })))
  ∧ (∀ s : State, s.upd.st = .activating →
      let i := stagedImage s
      (partnerReady s = false → Runs .activationCommit s fun t => t = s)
      ∧ (partnerReady s = true → Runs .activationCommit s fun t => t.fuses = s.fuses ∧ t.pair.role = bootRole s
          ∧ (∀ p, p ∈ activeParts s → (partGet s p).st = .active → (partGet t p).st = .revoking)
          ∧ if fwCheck s i = 0 then
              t.upd = { st := .idle, result := 0 } ∧ t.flash.dirSeq = s.flash.dirSeq + 1 ∧ t.flash.dirOld = s.flash.dirSeq ∧ t.flash.images = mset s.flash.images i.comp i
              ∧ t.tray.measurements = (s.tray.measurements ++ [({ comp := i.comp, secVer := i.secVer, digest := i.fieldsDigest } : Measurement)]).take 24
            else t.upd = { st := .idle, result := fwCheck s i + 4 } ∧ t.flash.images = s.flash.images ∧ t.flash.dirSeq = s.flash.dirSeq ∧ t.tray.measurements = s.tray.measurements))
  ∧ ∀ (rq : DictReq) (v : List Byte) (s : State), MayStore s rq 0x7E20 0 v → Runs (.floorAdvance rq v) s fun t => odGet t 0x7E20 0 = 0 ∧ t.flash = s.flash ∧ t.mem = s.mem
      ∧ t.fuses = { s.fuses with floors := t.fuses.floors }
      ∧ ∀ c, c < 16 → c < s.fuses.floors.length → t.fuses.floors.getD c 0 = if (leNat v).testBit c then max (s.fuses.floors.getD c 0) (runningVer s c) else s.fuses.floors.getD c 0

/-- R509 to R511, R517, R518: BEGIN starts a delivery afresh, and nothing during an activation; a submitted block is stored once, or its fault is the result; VERIFY needs every block and ends in VERIFIED or with the check that failed, which is logged; ABORT discards what is staged. R394, R398, R512 to R516: an instant written for a VERIFIED update is held to its range and arms it, unless something bars it; at that instant the update activates in a role that may, and the commit writes the new image or keeps the old; a floor rises to the running version and no lower. -/
def Obligations.UpdatesAreDeliveredArmedAndActivated : Prop :=
  Claims.UpdatesAreDeliveredAndVerified ∧ Claims.UpdatesArmActivateAndRaiseFloors

/-- R94, R96, R384, R418, R536, R538 to R546: the first parity error at a site of a powered unit is logged and ends its contexts for a replay; a repeat, or the fifth error of a step, fences the site's quadrant or die, and one of a die link, or any error in a store of H, fails the tray; a written injection waits at a powered unit, strikes once and never fences; perturbation objects store legal values and change nothing but the perturbation word, which the seed does not set. -/
def Obligations.ErrorsReplayFenceOrFail : Prop :=
  (∀ (site : ErrSite) (s : State),
    (sitePowered s site = false → Runs (.parityError site) s fun t => t = s)
    ∧ (sitePowered s site = true →
      let runs (P : State → Prop) : Prop := Runs (.parityError site) s P
      -- one site: its resource, the partition and the contexts whose step meets the error, and what a repeat does
      let unit (res p : Nat) (cs : List Nat) (fenced : State → Prop) : Prop :=
        let again := seenWithin s res ≠ [] ∨ ∃ x, mget s.car.steps p = some x ∧ 4 ≤ x.replays
        (¬ again → runs fun t => mget t.err.seen res = some [s.clk.now] ∧ odGet t 0x7C20 3 = min (odGet s 0x7C20 3 + 1) (2 ^ 64 - 1)
          ∧ t.mem = s.mem ∧ t.flash = s.flash ∧ t.tray = s.tray
          ∧ ∀ c, c ∈ cs → (ctxGet s c).step ≠ none → (ctxGet s c).fault = none → (ctxGet t c).fault = some fcParity)
        ∧ (again → runs fenced)
      let quad (q : Nat) (t : State) : Prop := t.flash.fencedQuads = s.flash.fencedQuads ||| BitVec.ofNat 16 (2 ^ q) ∧ t.tray.quadOn.getLsbD q = false
        ∧ (s.pair.role = .active ∨ s.pair.role = .follower → s.tray.failed = false → Failed t ∧ .yield ∈ t.out)
      let die (d : Nat) (t : State) : Prop := t.flash.fencedDies = s.flash.fencedDies ||| BitVec.ofNat 4 (2 ^ d) ∧ t.tray.dieOn.getLsbD d = false
        ∧ (s.pair.role ≠ .unpaired → s.tray.failed = false → Failed t)
      let part (c : Ctx) : Nat := ((ctxGet s c.val).part.map Fin.val).getD 0x3F
      match site with
      | .coreStore k kind => unit (locOfCore k.val * 8 + kind.val) (quadOwner s (coreQuad k.val)) (clusCtxs s (coreClus k.val)) (quad (coreQuad k.val))
      | .clusterStore c kind => unit (2 ^ 24 + locOfClus c.val * 8 + kind.val) (quadOwner s (clusQuad c.val)) (clusCtxs s c.val) (quad (clusQuad c.val))
      | .dieCommon c kind => unit (2 ^ 25 + c.val / 4 * 8 + kind.val) (part c) [c.val] (die (c.val / 4))
      | .dieLink c => unit (2 ^ 26 + c.val / 4) (part c) [c.val] (fun t => s.tray.failed = false → Failed t)
      | .hubStore => runs fun t => (s.tray.failed = false → Failed t) ∧ (s.tray.failed = true → t = s)))
  ∧ (∀ (rq : DictReq) (v : List Byte) (s : State), MayStore s rq 0x7810 0 v → let w := min 5 (injKind (leNat v)) * 2 ^ 60 + leNat v % 2 ^ 60
      (injectUnit s w = true → Runs (.errorInjectionWrite rq v) s fun t => odGet t 0x7810 0 = w ∧ perturbWord t = 3
          ∧ t = { s with pav := t.pav, pcie := t.pcie, out := t.out, gate := { s.gate with perturbUsed := true } })
      ∧ (injectUnit s w = false → Runs (.errorInjectionWrite rq v) s fun t => Stores s t 0x7810 0 0))
  ∧ (∀ s : State, (injectUnit s (odGet s 0x7810 0) = true → Runs .injectedError s fun t => odGet t 0x7810 0 = 0 ∧ odGet t 0x7811 0 = min (odGet s 0x7811 0 + 1) (2 ^ 32 - 1)
          ∧ t.flash = s.flash ∧ t.tray = s.tray ∧ t.err = s.err ∧ t.mem = s.mem)
      ∧ (injectUnit s (odGet s 0x7810 0) = false → Runs .injectedError s fun t => t = s))
  ∧ ∀ (rq : DictReq) (i : BitVec 16) (b : Byte) (v : List Byte) (s : State),
      let runs (P : State → Prop) : Prop := Runs (.perturbationWrite rq i b v) s P
      let x := leNat v
      (i.toNat < 0x7800 ∨ 0x7808 < i.toNat → runs fun t => t = s)
      ∧ (i = 0x7800 ∨ i = 0x7807 → pavOn s = true → runs fun t => Answers s t rq 1 i.toNat b.toNat [] ∧ DictOnly s t)
      ∧ (0x7801 ≤ i.toNat → i.toNat ≤ 0x7808 → MayStore s rq i.toNat b.toNat v → runs fun t =>
          odGet t i.toNat b.toNat = (match i.toNat with
            | 0x7801 => min 64 (x / 256) * 256 + x % 256
            | 0x7802 => min 10000 x
            | 0x7803 => min 500 x
            | 0x7804 => min 50 x
            | 0x7808 => max 1 x
            | _ => min 1000 x)
          ∧ t = { s with pav := t.pav, pcie := t.pcie, out := t.out, gate := { s.gate with perturbUsed := s.gate.perturbUsed || i != 0x7808 } })

/-! ### Power and resets (21, 22) -/

/-- R499 to R504, R515, R520 to R525: the contacts power the auxiliary rail, presence samples the straps once, the switch closes when both stores are charged, and power good boots the tray: ready with every domain on when the images pass, every stack trains and the straps are sound, and otherwise failed with the stages not reached left off. -/
def Obligations.PowerGoodBootsTheTray : Prop :=
  (∀ s : State, Runs .preChargeContact s fun t => t = { s with tray := { s.tray with preCharge := true, hub := { s.tray.hub with aux := true } } })
  ∧ (∀ (x : BitVec 5) (s : State),
      (s.tray.preCharge = true → s.tray.presence ≠ .asserted → Runs (.presenceAssert x) s fun t => t.tray.presence = .asserted ∧ t.tray.slotId.toNat = x.toNat % 16
        ∧ (t.tray.strapBad = true ↔ popcount 5 x.toNat % 2 = 0) ∧ t = { s with tray := t.tray })
      ∧ (s.tray.preCharge = false ∨ s.tray.presence = .asserted → Runs (.presenceAssert x) s fun t => t = s))
  ∧ (∀ (bus bulk store : Nat) (s : State), let ok := s.tray.preCharge = true ∧ s.tray.presence = .asserted ∧ bus * 95 ≤ bulk * 100 ∧ bus * 95 ≤ store * 100
      (ok → Runs (.mainSwitchClose bus bulk store) s fun t => t = { s with tray := { s.tray with mainSwitch := true } })
      ∧ (¬ ok → Runs (.mainSwitchClose bus bulk store) s fun t => t = s))
  ∧ (∀ (mv : Nat) (trained : BitVec 8) (s : State), let ok := s.tray.mainSwitch = true ∧ s.tray.presence = .asserted ∧ s.tray.mainGood = false ∧ 44000 ≤ mv
      let image (c : Nat) : Prop := ∃ i, mget s.flash.images c = some i ∧ i.comp = c ∧ fwCheck s i = 0
      let runs (P : State → Prop) : Prop := Runs (.mainPowerGood mv trained) s P
      (¬ ok → runs fun t => t = s)
      ∧ (ok → mget s.flash.images 0 = none → runs fun t => Failed t ∧ t.tray.hub = { aux := true, gatehouse := true } ∧ t.tray.ready = false)
      ∧ (ok → s.fuses.lifecycle = .rma → runs fun t => Failed t ∧ t.tray.hub = { aux := true, gatehouse := true } ∧ t.tray.ready = false)
      ∧ (ok → s.tray.strapBad = true → runs fun t => Failed t ∧ t.tray.hub.pavilion = false ∧ t.tray.hub.pcie = false ∧ t.tray.ready = false)
      ∧ (ok → trained ≠ 0xFF → runs fun t => Failed t ∧ t.tray.hub.pcie = false ∧ t.tray.ready = false)
      ∧ (ok → runs fun t => (¬ ∀ c, c < 9 → image c) → Failed t ∧ t.tray.hub.pcie = false ∧ t.tray.ready = false)
      ∧ (ok → s.fuses.lifecycle ≠ .rma → s.tray.strapBad = false → trained = 0xFF → runs fun t => (∀ c, c < 9 → image c) → t.tray.ready = true ∧ t.tray.failed = false
          ∧ t.tray.hub = { aux := true, gatehouse := true, hubCommon := true, pavilion := true, carouselDma := true, hbmA := true, hbmB := true, pcie := true, trellis := true, zoetrope := true }
          ∧ t.tray.quadOn = 0 ∧ t.tray.clockState = .run ∧ t.clk.timebase = 0 ∧ t.clk.now = s.clk.now ∧ t.tray.measurements.map Measurement.comp = [0, 1, 2, 5, 3, 4, 6, 7, 8]
          ∧ t.gate.parts = [] ∧ t.car.reqs = [] ∧ t.mem.hbm = [] ∧ t.pav.log = s.flash.keptLog ∧ t.pair.role = bootRole s ∧ t.fuses = s.fuses ∧ t.flash = s.flash))
  ∧ ∀ (c : Fin 9) (s : State), s.tray.failed = false →
      (s.tray.mainGood = true → (∃ m, m ∈ s.tray.measurements ∧ m.comp = c.val) → Runs (.componentStartTimeout c) s Failed)
      ∧ (s.tray.mainGood = false → Runs (.componentStartTimeout c) s fun t => t = s)

/-- R384, R450, R506, R522 to R530: without power nothing stays but fuses, flash, time and the Gatehouse, and loss of input or presence zeroizes the keys too; a drain request ends in zeroized keys and DEEP_SLEEP at once, after the steps in flight, or by way of the standby; closing the lever withdraws one that has not yielded. -/
def Obligations.PowerLossAndDrainLeaveNoKeys : Prop :=
  (∀ s : State,
    let lost (t : State) : Prop := t.fuses = s.fuses ∧ t.flash.images = s.flash.images ∧ t.clk.now = s.clk.now ∧ t.tray.mainSwitch = false ∧ t.tray.mainGood = false
      ∧ t.tray.quadOn = 0 ∧ t.tray.dieOn = 0 ∧ t.tray.ready = false ∧ t.tray.hub.hubCommon = false ∧ t.mem = {} ∧ t.car = {} ∧ t.cores = [] ∧ t.pcie = {}
    let noKeys (t : State) : Prop := (∀ x, x ∈ t.gate.slots → x.2.curKey = none ∧ x.2.old = none ∧ x.2.next = none) ∧ t.gate.ephem = []
    (Runs .inputLoss s fun t => lost t ∧ noKeys t ∧ t.tray.presence = s.tray.presence)
    ∧ (Runs .presenceLoss s fun t => lost t ∧ noKeys t ∧ t.tray.presence = .lost ∧ t.tray.preCharge = false)
    ∧ (Runs .overVoltage s fun t => lost t ∧ t.tray.failed = true ∧ t.pair.role = .failed ∧ t.gate = { s.gate with sweeps := [] })
    ∧ (s.tray.drain ≠ .none → s.upd.st ≠ .activating → Runs .drainRequest s fun t => t = { s with tray := { s.tray with leverOpen := true } })
    ∧ (s.tray.drain = .none → s.upd.st ≠ .activating →
      let done (t : State) : Prop := t.tray.drain = .completed ∧ t.tray.clockState = .deepSleep ∧ t.tray.leverOpen = true ∧ noKeys t
      (s.pair.role = .unpaired ∨ s.pair.role = .follower → s.car.steps = [] → Runs .drainRequest s fun t => done t ∧ t.out = .drainReported :: s.out)
      ∧ (s.pair.role = .unpaired ∨ s.pair.role = .follower → s.car.steps ≠ [] → Runs .drainRequest s fun t =>
          t = { s with tray := { s.tray with leverOpen := true, drain := .inProgress, drainAt := s.clk.now } })
      ∧ (s.pair.role = .standby → Runs .drainRequest s fun t => done t ∧ t.out.head? = some .noPartner ∧ ∀ q : Fin 16, t.tray.quadOn.getLsbD q.val = false)
      ∧ (s.pair.role = .active → s.pair.partnerRole = some .standby → odGet s 0x6400 0 = 1 → Runs .drainRequest s fun t =>
          t = { s with tray := { s.tray with leverOpen := true, drain := .inProgress, drainAt := s.clk.now }, pair := { s.pair with cutDue := true } }))
    ∧ (s.tray.drain = .inProgress → s.pair.yielded = false → Runs .leverClose s fun t => t = { s with tray := { s.tray with leverOpen := false, drain := .none } })
    ∧ (s.tray.drain ≠ .inProgress ∨ s.pair.yielded = true → Runs .leverClose s fun t => t = { s with tray := { s.tray with leverOpen := false } }))

/-- R505 to R508, R517: a warm reset removes every ACTIVE partition, clears the tray's prefix tables, staging and group key, and joins the pair anew; a cold reset keeps only fuses and flash; a partition reset clears one ACTIVE partition's quadrants and leaves it ACTIVE; while a reset or an activation runs another does nothing. -/
def Obligations.ResetsClearWhatTheyName : Prop :=
  ∀ (rq : DictReq) (s : State),
    (MayStore s rq 0x7E10 0 [1] →
      (resetRuns s = true → Runs (.warmReset rq) s fun t => Stores s t 0x7E10 0 0)
      ∧ (resetRuns s = false → Runs (.warmReset rq) s fun t => odGet t 0x7E10 0 = 0 ∧ (∀ p, p ∈ activeParts s → (partGet s p).st = .active → (partGet t p).st = .revoking)
          ∧ keySlot t 62 = { kind := .trellis, owner := 0x3F } ∧ t.kv.tableA = [] ∧ t.kv.tableB = [] ∧ t.upd.st = .idle ∧ (s.tray.failed = false → t.tray.clockState = .run)
          ∧ t.pair.role = bootRole s ∧ t.fuses = s.fuses))
    ∧ (MayStore s rq 0x7E10 0 [2] →
      (resetRuns s = true → Runs (.coldReset rq) s fun t => Stores s t 0x7E10 0 0)
      ∧ (resetRuns s = false → Runs (.coldReset rq) s fun t => t.fuses = s.fuses ∧ t.flash.images = s.flash.images ∧ t.gate.parts = [] ∧ t.car.reqs = [] ∧ t.mem.hbm = []
          ∧ t.mem.sram = [] ∧ t.upd.st = .idle ∧ t.clk.now = s.clk.now ∧ t.tray.quadOn = 0 ∧ t.pav.sessions = []))
    ∧ ∀ p : PartId, MayStore s rq 0x7E11 0 [BitVec.ofNat 8 p.val] →
      ((partGet s p.val).st = .active → Runs (.partitionReset rq (BitVec.ofNat 8 p.val)) s fun t => odGet t 0x7E11 0 = 0xFF ∧ t.gate = s.gate ∧ t.mem.hbm = s.mem.hbm
        ∧ ∀ (k : CoreId), coreQuad k.val ∈ quadsOf s p.val → (coreGet t k.val).vregs = [] ∧ (coreGet t k.val).accs = [] ∧ (coreGet t k.val).flags = 0 ∧ (coreGet t k.val).setups = [])
      ∧ ((partGet s p.val).st ≠ .active → Runs (.partitionReset rq (BitVec.ofNat 8 p.val)) s fun t => Stores s t 0x7E11 0 0xFF)

/-! ### Weathervane (14) -/

/-- R347 to R351, R359, R360, R367, R371, R375: a power sample, held to 1,800 W for 100 µs of an excursion and to the peak cap otherwise (the model's choice of log entry 112), is added to the 100 µs average, of which the last second is kept; the governor's cycle aims each quadrant's clock within its ceilings, from the floor up, changes no clock itself, places no ballast in ride-through and puts ACTIVE partitions at risk while the caps lie below the need; a lowered clock, an issue limit, ballast and 5 mV of a trim that is due, no sooner than 10 µs after the last, take effect at a beat boundary, a raised clock when it has settled; a cap lowered below the input power acts at once. -/
def Obligations.PowerIsSampledGovernedAndCapped : Prop :=
  (∀ (mw : Nat) (qs : List Nat) (s : State), s.tray.hub.hubCommon = true → Runs (.powerSample mw qs) s fun t =>
    let cap := odGet s 0x1401 1 * 1000
    let w := t.wv.inputMw
    t = { s with wv := t.wv } ∧ w ≤ mw ∧ w ≤ max 1800000 cap
    ∧ (∀ at_, s.wv.overSince = some at_ → at_ + 100000 ≤ s.clk.now → w = min mw cap)
    ∧ (∀ at_, s.wv.overSince = some at_ → s.clk.now < at_ + 100000 → w = min mw 1800000)
    ∧ (∀ at_, s.wv.overSince = none → s.wv.lastOver = some at_ → w = min mw (if s.clk.now < at_ + odGet s 0x1401 2 * 1000000 then cap else 1800000))
    ∧ (s.wv.overSince = none → s.wv.lastOver = none → w = min mw 1800000)
    ∧ t.wv.overSince = (if cap < w then some (s.wv.overSince.getD s.clk.now) else none)
    ∧ (s.wv.acc.2 + 1 < 100 → t.wv.acc = (s.wv.acc.1 + w, s.wv.acc.2 + 1) ∧ t.wv.avgs = s.wv.avgs ∧ t.wv.avgTotal = s.wv.avgTotal)
    ∧ (100 ≤ s.wv.acc.2 + 1 → t.wv.acc = (0, 0) ∧ t.wv.avgs = ((s.wv.acc.1 + w) / (s.wv.acc.2 + 1) :: s.wv.avgs).take 10000 ∧ t.wv.avgTotal = s.wv.avgTotal + 1)
    ∧ ∀ q : Quad, (s.tray.quadOn.getLsbD q.val = true → (qwGet t q.val).powerMw = qs.getD q.val 0 ∧ (qwGet t q.val).clock = (qwGet s q.val).clock)
        ∧ (s.tray.quadOn.getLsbD q.val = false → qwGet t q.val = qwGet s q.val))
  ∧ (∀ (d : List Nat) (s : State), (wvOn s = false → Runs (.governorCycle d) s fun t => t = s)
      ∧ (wvOn s = true → Runs (.governorCycle d) s fun t => t.mem = s.mem ∧ t.tray = s.tray ∧ t.clk = s.clk
          ∧ (∀ p, p ∈ activeParts s → (odGet t 0x3012 (p + 1)).testBit 0 = decide (min (effCap t) (odGet s 0x1401 1 * 1000) < t.wv.pneedMw))
          ∧ ∀ q, q ∈ activeQuads s → (qwGet t q).clock = (qwGet s q).clock ∧ (qwGet t q).rung = (qwGet s q).rung
            ∧ (qwGet t q).ballastMw = (qwGet s q).ballastMw ∧ (s.wv.rideThrough = true → (qwGet t q).nextBallast = some 0)
            ∧ ((qwGet s q).emergency = true → (qwGet t q).nextClock = (qwGet s q).nextClock ∧ (qwGet t q).raising = (qwGet s q).raising)
            ∧ ((qwGet s q).emergency = false → (s.wv.rideThrough = true → (qwGet t q).raising = none)
                ∧ (∀ f, (qwGet t q).nextClock = some f → 1000 ≤ f ∧ f < (qwGet s q).clock)
                ∧ ∀ f, (qwGet t q).raising = some f → 1000 ≤ f ∧ (qwGet s q).clock < f ∧ f % 25 = 0 ∧ (f = 1000 ∨ f ≤ min (heatCeil s q) (odGet s 0x1601 (q + 1))))))
  ∧ (∀ (q : Quad) (s : State), s.tray.quadOn.getLsbD q.val = true →
      let x := qwGet s q.val
      let only (t : State) : Prop := t = { s with wv := { s.wv with quads := t.wv.quads } } ∧ ∀ r, r ≠ q.val → qwGet t r = qwGet s r
      let f := min (x.nextClock.getD x.clock) (x.droopTo.getD x.clock)
      let y : QuadW := { x with
        clock := f, lowering := x.lowering || decide (f < x.clock), nextClock := none, droopTo := none, rung := x.nextRung.getD x.rung, nextRung := none
        ballastMw := x.nextBallast.getD x.ballastMw, nextBallast := none }
      let held := x.trimDue = 0 ∨ ∃ u, x.trimAt = some u ∧ s.clk.now < u + 10000
      let d : Int := if x.trimDue > 0 then 5 else -5
      (held → Runs (.issueLimitApply q) s fun t => only t ∧ qwGet t q.val = y)
      ∧ (¬ held → Runs (.issueLimitApply q) s fun t => qwGet t q.val = { y with trimDue := x.trimDue - d, trimAt := some s.clk.now }
          ∧ odGet t 0x1600 (q.val + 1) = ux 32 (trimMv s q.val + d) ∧ (∀ r, r ≠ q.val → qwGet t r = qwGet s r)
          ∧ t = { s with wv := { s.wv with quads := t.wv.quads }, pav := { s.pav with vals := t.pav.vals } })
      ∧ Runs (.clockSettled q) s fun t => only t ∧ qwGet t q.val = { x with clock := x.raising.getD x.clock, raising := none, lowering := false })
  ∧ ∀ (rq : DictReq) (v : List Byte) (s : State), MayStore s rq 0x1400 1 v → Runs (.sustainedCapWrite rq v) s fun t =>
      let w := min 1200 (max 300 (leNat v))
      odGet t 0x1400 1 = w ∧ t.mem = s.mem ∧ t.car = s.car
      ∧ t.wv = { s.wv with capWriteAt := if w < odGet s 0x1400 1 ∧ w * 1000 < s.wv.inputMw then some s.clk.now else s.wv.capWriteAt }

/-- R361 to R368: a sensor pair governs by the higher of two agreeing readings, with 5 °C added when they disagree by more than 12 °C or one is out of range; an H hot spot halves Zoetrope and at 115 °C shuts the tray down, once its final snapshot is acknowledged, as a measured inlet above 50 °C does, and above 60 °C H goes off; a quadrant at 115 °C or without a reading is fenced; an emergency steps the clock down and then the issue limit, each for the next beat boundary, and ends 2 °C below the limit; a stale cooling input is not used; ride-through begins at a written stop or a fall of the flow by half and ends after 10 s in range. -/
def Obligations.HeatThrottlesAndShutsDown : Prop :=
  (∀ (r : Readings) (s : State), s.tray.hub.hubCommon = true → r.inlet < 6000 → (coolFresh s 2 = true → coolTemp s 2 < 6000) → Runs (.sensorRead r) s fun t =>
      let ends := t.tray.failed = true ∨ t.wv.shuttingDown = true
      let runs (n : Nat) : Prop := s.tray.quadOn.getLsbD n = true ∧ t.tray.quadOn.getLsbD n = true
      t.wv.outlet = r.outlet ∧ (tempOk r.inlet = true → t.wv.inlet = some r.inlet) ∧ (tempOk r.inlet = false → t.wv.inlet = none)
      ∧ (∀ k, k < 8 → mget t.wv.hbmTemp k = some (r.hbm.getD k 2500) ∧ (tempOk (r.hbm.getD k 2500) = false → mget t.wv.hbmCeil k = some (1000, 9500)))
      ∧ (s.tray.failedThermal = false ∨ s.tray.failed = true → t.wv.tinReal = true → 5000 < t.wv.tin → ends)
      ∧ (∀ n, s.tray.quadOn.getLsbD n = false → mget t.wv.pairs n = mget s.wv.pairs n ∨ mget t.wv.pairs n = none ∨ n = 16)
      ∧ (∀ n, n < 16 → s.tray.quadOn.getLsbD n = true →
          let a := r.junctionA.getD n 2500
          let b := r.junctionB.getD n 2500
          (tempOk a = false → tempOk b = false → t.tray.quadOn.getLsbD n = false ∧ t.flash.fencedQuads.getLsbD n = true)
          ∧ (tempOk a = true → tempOk b = true → 11500 ≤ max a b → t.tray.quadOn.getLsbD n = false ∧ t.flash.fencedQuads.getLsbD n = true)
          ∧ (t.tray.quadOn.getLsbD n = true → tooHot t n 0 = true → (qwGet t n).emergency = true))
      ∧ (∀ n a b, (n < 16 ∧ runs n ∧ a = r.junctionA.getD n 2500 ∧ b = r.junctionB.getD n 2500) ∨ (n = 16 ∧ a = r.hubA ∧ b = r.hubB) →
          let g := (mgetD t.wv.pairs n {}).gov
          let al := (mgetD t.wv.pairs n {}).alert
          let two := tempOk a = true ∧ tempOk b = true
          (two → a - b ≤ 1200 → b - a ≤ 1200 → g = some (max a b))
          ∧ (two → 400 < a - b ∨ 400 < b - a → al ≠ .none)
          ∧ (two → 1200 < a - b ∨ 1200 < b - a → g = some (max a b + 500) ∧ al = .alarm)
          ∧ (tempOk a = true → tempOk b = false → g = some (a + 500) ∧ al = .alarm)
          ∧ (tempOk a = false → tempOk b = true → g = some (b + 500) ∧ al = .alarm)
          ∧ (tempOk a = false → tempOk b = false → g = none ∧ al = .alarm)
          ∧ (n = 16 → g = none ∨ (∃ x, g = some x ∧ 11500 ≤ x) → ends)
          ∧ ∀ x, n = 16 → g = some x → 10500 ≤ x → t.wv.zoetropeHalved = true))
  ∧ (∀ (r : Readings) (s : State), s.tray.hub.hubCommon = true → s.tray.failedThermal = true → tempOk r.inlet = true → 6000 ≤ r.inlet → Runs (.sensorRead r) s fun t =>
      t.tray.hub.hubCommon = false ∧ t.tray.hub.gatehouse = s.tray.hub.gatehouse ∧ t.tray.selfRefresh = false ∧ t.tray.quadOn = 0 ∧ t.fuses = s.fuses)
  ∧ (∀ (q : Quad) (s : State) (g : Int), s.tray.quadOn.getLsbD q.val = true → (qwGet s q.val).emergency = true → govTemp s q.val = some g → g < 11500 →
      let x := qwGet s q.val
      let only (t : State) : Prop := t = { s with wv := { s.wv with quads := t.wv.quads } } ∧ ∀ r, r ≠ q.val → qwGet t r = qwGet s r
      (tooHot s q.val 200 = true → tooHot s q.val 0 = false ∨ s.clk.now < x.stepAt → Runs (.emergencyStep q) s fun t => t = s)
      ∧ (tooHot s q.val 200 = true → tooHot s q.val 0 = true → x.stepAt ≤ s.clk.now → Runs (.emergencyStep q) s fun t => only t
          ∧ (500 < x.clock → qwGet t q.val = { x with stepAt := s.clk.now + 100000, nextClock := some (max 500 (min x.clock 1000 - 25)) })
          ∧ (x.clock ≤ 500 → qwGet t q.val = { x with stepAt := s.clk.now + 100000, nextRung := if x.rung = 22 then none else some (x.rung + 1) }))
      ∧ (tooHot s q.val 200 = false → Runs (.emergencyStep q) s fun t => only t ∧ qwGet t q.val = { x with
          emergency := false, nextRung := if x.rung = 0 then none else some 0, nextClock := none, raising := if x.clock < 1000 then some 1000 else none }))
  ∧ (∀ (n : Fin 17) (s : State) (at_ : Nat), let x := mgetD s.wv.pairs n.val {}
      x.agreeSince = some at_ →
      (at_ + 10000000000 ≤ s.clk.now → Runs (.sensorAlertClear n) s fun t => mgetD t.wv.pairs n.val {} = { x with alert := .none } ∧ t = { s with wv := { s.wv with pairs := t.wv.pairs } })
      ∧ (s.clk.now < at_ + 10000000000 → Runs (.sensorAlertClear n) s fun t => t = s))
  ∧ (∀ (rq : DictReq) (n : Fin 4) (v : List Byte) (s : State), MayStore s rq 0x1504 (n.val + 1) v → s.tray.failedThermal = false → Runs (.coolingInputWrite rq n v) s fun t =>
      mget t.wv.coolAt (n.val + 1) = some s.clk.now ∧ (n = 0 → odGet t 0x1504 1 = min 1200 (leNat v)) ∧ (n = 3 → odGet t 0x1504 4 = min 3 (leNat v))
      ∧ (n = 3 → (min 3 (leNat v)).testBit 1 = true → t.wv.rideThrough = true) ∧ (n = 0 → min 1200 (leNat v) + 500 ≤ odGet s 0x1504 1 → t.wv.rideThrough = true)
      ∧ (s.wv.shuttingDown = false → t.wv.tinReal = true → 5000 < t.wv.tin → if snapWaits s then t.wv.shuttingDown = true ∧ t.pair.cutDue = true else t.tray.failed = true))
  ∧ (∀ (n : Fin 4) (s : State), (coolFresh s (n.val + 1) = true → Runs (.coolingInputStale n) s fun t => t = s)
      ∧ (coolFresh s (n.val + 1) = false → Runs (.coolingInputStale n) s fun t => mget t.wv.coolAt (n.val + 1) = none
          ∧ (n = 1 → s.wv.inlet = none → s.tray.failedThermal = false → t.wv.tin = 4500 ∧ t.wv.tinReal = false ∧ t.tray = s.tray)))
  ∧ (∀ (s : State) (at_ : Nat), s.wv.rideOkSince = some at_ →
      let beyond := s.wv.rideThrough = true ∧ at_ + 10000000000 ≤ s.clk.now
      (beyond → Runs .rideThroughExit s fun t => t = { s with wv := { s.wv with rideThrough := false } }) ∧ (¬ beyond → Runs .rideThroughExit s fun t => t = s))
  ∧ ∀ (s : State) (at_ : Nat), s.wv.coolSince = some at_ →
      (s.tray.failedThermal = true → s.wv.rejoinReady = false → at_ + 60000000000 ≤ s.clk.now → Runs .thermalRejoinReady s fun t =>
        t = { s with wv := { s.wv with rejoinReady := true }, out := .rejoinReady :: s.out })
      ∧ (s.tray.failedThermal = false ∨ s.wv.rejoinReady = true ∨ s.clk.now < at_ + 60000000000 → Runs .thermalRejoinReady s fun t => t = s)

/-- R369 to R372: a droop trip stretches the clock for at most 200 ns and is counted; a window that loses 2 % lowers the clock a step, or at the floor raises the guard, which returns after 10 ms of quiet windows; a failing canary makes 5 mV of trim due up to 60 mV, then lowers the ceiling, and at the floor fences the quadrant; 24 h of passes make 5 mV less due. -/
def Obligations.DroopAndMarginAdjustTheClock : Prop :=
  ∀ (q : Quad) (s : State), s.tray.quadOn.getLsbD q.val = true →
    let n := q.val + 1
    let x := qwGet s q.val
    let only (t : State) : Prop := t = { s with wv := { s.wv with quads := t.wv.quads }, pav := { s.pav with vals := t.pav.vals } } ∧ ∀ r, r ≠ q.val → qwGet t r = qwGet s r
    (∀ l : Fin 4, Runs (.droopTrip q l) s fun t => only t ∧ (qwGet t q.val).stretch = some (s.clk.now, l.val) ∧ (qwGet t q.val).clock = x.clock
      ∧ odGet t 0x1604 n = min (odGet s 0x1604 n + 1) (2 ^ 64 - 1))
    ∧ (x.stretch = none → Runs (.droopStretchEnd q) s fun t => t = s)
    ∧ (∀ at_ l, x.stretch = some (at_, l) → Runs (.droopStretchEnd q) s fun t => only t ∧ t.pav = s.pav
        ∧ qwGet t q.val = { x with stretch := none, stretchAdded := x.stretchAdded + stretchPs (min 200 (s.clk.now - at_)) l })
    ∧ (Runs (.stretchLossWindow q) s fun t => only t
        ∧ (let z : QuadW := match x.stretch with
            | some (at_, l) => if at_ + 200 ≤ s.clk.now then { x with stretch := none, stretchAdded := x.stretchAdded + stretchPs 200 l } else x
            | none => x
           let a := z.stretchAdded
           let y : QuadW := { z with stretchAdded := 0, quietWindows := if a < 1000000 then x.quietWindows + 1 else 0 }
           (qwGet t q.val = if a < 2000000 then y else if 1000 < x.clock then { y with droopTo := some (max 1000 (x.clock - 25)), raising := none }
             else { y with guard := min 3 (x.guard + 1) })
           ∧ odGet t 0x1602 n = if 3000000 < a ∧ 3 ≤ x.guard then min (odGet s 0x1602 n + 1) (2 ^ 32 - 1) else odGet s 0x1602 n))
    ∧ (0 < x.guard → 100 ≤ x.quietWindows → Runs (.guardStepReturn q) s fun t => only t ∧ qwGet t q.val = { x with guard := x.guard - 1, quietWindows := 0 })
    ∧ (x.guard = 0 ∨ x.quietWindows < 100 → Runs (.guardStepReturn q) s fun t => t = s)
    ∧ (∀ path : Fin 8,
        (trimMv s q.val + x.trimDue < 60 → Runs (.canaryFail q path) s fun t => only t ∧ t.pav = s.pav ∧ qwGet t q.val = { x with canarySince := s.clk.now, trimDue := x.trimDue + 5 })
        ∧ (60 ≤ trimMv s q.val + x.trimDue → 1000 < x.clock → Runs (.canaryFail q path) s fun t => only t ∧ odGet t 0x1601 n = max 1000 (odGet s 0x1601 n - 25)
            ∧ odGet t 0x1603 n = min (odGet s 0x1603 n + 1) (2 ^ 32 - 1) ∧ (odGet t 0x1601 n < x.clock → (qwGet t q.val).nextClock = some (odGet t 0x1601 n)))
        ∧ (60 ≤ trimMv s q.val + x.trimDue → x.clock ≤ 1000 → Runs (.canaryFail q path) s fun t =>
            t.flash.fencedQuads = s.flash.fencedQuads ||| BitVec.ofNat 16 (2 ^ q.val) ∧ t.tray.quadOn.getLsbD q.val = false))
    ∧ (x.canarySince + 86400000000000 ≤ s.clk.now → -20 < trimMv s q.val + x.trimDue → Runs (.canaryTrimDown q) s fun t => only t ∧ t.pav = s.pav
        ∧ qwGet t q.val = { x with canarySince := s.clk.now, trimDue := x.trimDue - 5 })
    ∧ (s.clk.now < x.canarySince + 86400000000000 ∨ trimMv s q.val + x.trimDue ≤ -20 → Runs (.canaryTrimDown q) s fun t => t = s)

/-! ### The machine -/

/-- A step takes the command at the front of the queue and runs it on the queue's rest. -/
def Obligations.StepRunsTheFrontCommand : Prop :=
  ∀ (c : Instr) (rest : List Instr) (s : State), s.pending = c :: rest → step s = exec c { s with pending := rest }

/-- The model's choice, log entry 2: on an empty queue one timebase cycle passes; while its clock runs the timebase advances by one, and while it slews (R387) by none, one or two, elapsed time with it. -/
def Obligations.AnIdleStepIsOneCycle : Prop :=
  ∀ s : State, s.pending = [] → ∃ t, step s = .next t ∧ t.mem = s.mem ∧ t.pending = [] ∧ t.fuses = s.fuses
    ∧ s.clk.now ≤ t.clk.now ∧ t.clk.now ≤ s.clk.now + 2
    ∧ (let runs := s.tray.hub.hubCommon && clkRuns s 0x26
       (runs = true → s.clk.slewing = false → t.clk.now = s.clk.now + 1 ∧ t.clk.timebase = s.clk.timebase + 1)
       ∧ (runs = true → ∃ d, d ≤ 2 ∧ t.clk.now = s.clk.now + d ∧ t.clk.timebase = s.clk.timebase + BitVec.ofNat 64 d)
       ∧ (runs = false → t.clk.now = s.clk.now + 1 ∧ t.clk.timebase = s.clk.timebase))

/-- R434, R467, R503, R506, R520: the state before power: nothing is powered or queued, the tray is unpaired, every object reads its default, memory lists nothing, and every partition is free. -/
def Obligations.ResetLeavesTheTrayUnpowered : Prop :=
  State.reset.pending = [] ∧ State.reset.out = [] ∧ State.reset.tray.mainSwitch = false ∧ State.reset.tray.ready = false ∧ State.reset.tray.hub.hubCommon = false
  ∧ State.reset.tray.quadOn = 0 ∧ State.reset.tray.dieOn = 0 ∧ State.reset.pair.role = .unpaired ∧ State.reset.upd.st = .idle ∧ Memory.wf State.reset.mem = true
  ∧ State.reset.mem.hbm = [] ∧ State.reset.car.reqs = [] ∧ (∀ p, (partGet State.reset p).st = .free) ∧ ∀ i n, odGet State.reset i n = odDefault i n

/-- Every step keeps the canonical form of the memories: addresses strictly rising, and no on-chip byte listed that an unlisted address reads as. -/
def Obligations.EveryStepKeepsTheMemoriesForm : Prop :=
  ∀ s t : State, Memory.wf s.mem = true → step s = .next t → Memory.wf t.mem = true

/-- R394: every step completes, takes one command and no more, and programs fuses only forward: identity and root keys never change, a revocation and a closed test port stay, the lifecycle goes one way, and no version floor falls. -/
def Obligations.EveryStepCompletesAndProgramsFusesForward : Prop :=
  ∀ s : State, ∃ t, step s = .next t ∧ t.pending = s.pending.tail ∧ FuseLe s.fuses t.fuses
end

