-- ==== Sys2Proof/Laws/Cvu.lean ====
section
/-! SUPPORT. What check-value folds can do: bytes fold one after another, the preset's shift loses nothing, and a clean read-back of a granule never differs. -/

namespace Sys2Proof.Machine

open Sys2Proof

theorem cvBytes_cons (c : BitVec 256) (r : Nat) (b : Byte) (t : List Byte) : cvBytes c r (b :: t) = cvBytes c (cvByte c r b) t := by
  rw [cvBytes]; split <;> rename_i h <;> rw [h]

theorem cvBytes_append (c : BitVec 256) (r : Nat) (a b : List Byte) : cvBytes c r (a ++ b) = cvBytes c (cvBytes c r a) b := by
  induction a generalizing r with
  | nil => rfl
  | cons x t ih => rw [List.cons_append, cvBytes_cons, ih, cvBytes_cons]

theorem cvShift_lt (w p r : Nat) : cvShift w p r < 2 ^ w := by
  unfold cvShift; split <;> exact Nat.mod_lt _ (Nat.two_pow_pos w)

/-- With an odd polynomial a shift loses nothing. -/
theorem cvShift_inj {w p r q : Nat} (hw : 0 < w) (hp : p % 2 = 1) (hr : r < 2 ^ w) (hq : q < 2 ^ w) (h : cvShift w p r = cvShift w p q) : r = q := by
  have e : 2 ^ w = 2 * 2 ^ (w - 1) := by rw [← Nat.pow_succ']; congr 1; omega
  have low (x : Nat) : (cvShift w p x).testBit 0 = x.testBit (w - 1) := by
    unfold cvShift
    split <;> rename_i hb
    · rw [Nat.testBit_mod_two_pow, Nat.testBit_xor]; simp [hw, Nat.testBit_zero, hp, hb]
    · rw [Nat.testBit_mod_two_pow]; simp [hw, Nat.testBit_zero, hb]
  have split (x : Nat) (hx : x < 2 ^ w) : x = (x.testBit (w - 1)).toNat * 2 ^ (w - 1) + x % 2 ^ (w - 1) := by
    have hd : x / 2 ^ (w - 1) < 2 := by rw [Nat.div_lt_iff_lt_mul (Nat.two_pow_pos _)]; omega
    have hb : (x.testBit (w - 1)).toNat = x / 2 ^ (w - 1) := by
      rw [Nat.testBit_eq_decide_div_mod_eq]
      rcases Nat.le_one_iff_eq_zero_or_eq_one.1 (Nat.lt_succ_iff.1 hd) with g | g <;> simp [g]
    rw [hb, Nat.mul_comm]
    exact (Nat.div_add_mod x (2 ^ (w - 1))).symm
  have t : r.testBit (w - 1) = q.testBit (w - 1) := by rw [← low r, ← low q, h]
  have d : r * 2 % 2 ^ w = q * 2 % 2 ^ w := by
    unfold cvShift at h
    rw [t] at h
    split at h
    · rw [Nat.xor_mod_two_pow, Nat.xor_mod_two_pow (a := q * 2)] at h
      have h := congrArg (· ^^^ p % 2 ^ w) h
      simpa [Nat.xor_assoc] using h
    · exact h
  rw [e, Nat.mul_comm r, Nat.mul_comm q, Nat.mul_mod_mul_left, Nat.mul_mod_mul_left] at d
  rw [split r hr, split q hq, t, Nat.eq_of_mul_eq_mul_left (by decide) d]

theorem cvShifts_inj {w p r q : Nat} (hw : 0 < w) (hp : p % 2 = 1) (n : Nat) (hr : r < 2 ^ w) (hq : q < 2 ^ w)
    (h : Nat.repeat (cvShift w p) n r = Nat.repeat (cvShift w p) n q) : r = q := by
  have lt (n x : Nat) (hx : x < 2 ^ w) : Nat.repeat (cvShift w p) n x < 2 ^ w := by
    cases n with
    | zero => exact hx
    | succ n => exact cvShift_lt w p _
  induction n with
  | zero => exact h
  | succ n ih => exact ih (cvShift_inj hw hp (lt n r hr) (lt n q hq) h)

/-- A read-back with nothing listed is zero throughout. -/
theorem readBack_nil : readBack [] = List.replicate (2 ^ 21) 0 := by
  have (n : Nat) : ((List.range n).map fun i => mgetD ([] : List (Nat × Byte)) i 0) = List.replicate n 0 := by
    rw [List.eq_replicate_iff]
    exact ⟨by simp, fun b hb => by obtain ⟨i, _, rfl⟩ := List.mem_map.1 hb; rfl⟩
  exact this _

/-- A granule that reads back clean shows no mismatch (R432). -/
theorem scrubMisses_clean (g : Nat) (l : List (Nat × Byte)) : scrubMisses g ⟨[], l⟩ = 0 := by
  unfold scrubMisses scrubMismatch
  rw [readBack_nil, bne_self_eq_false]
  rfl

/-- A read-back of zeros but for a last byte of 1. -/
theorem readBack_last : readBack [(2 ^ 21 - 1, 1)] = List.replicate (2 ^ 21 - 1) 0 ++ [1] := by
  have (n : Nat) : ((List.range (n + 1)).map fun i => mgetD [(n, (1 : Byte))] i 0) = List.replicate n 0 ++ [1] := by
    rw [List.range_succ, List.map_append]
    congr 1
    · rw [List.eq_replicate_iff]
      refine ⟨by simp, fun b hb => ?_⟩
      obtain ⟨i, hi, rfl⟩ := List.mem_map.1 hb
      have := List.mem_range.1 hi
      simp [mgetD, mget, show n ≠ i by omega]
    · simp [mgetD, mget]
  exact this (2 ^ 21 - 1)

/-- The scrub contexts keep apart two bytes folded into one running value. -/
theorem scrubByte_ne (r : Nat) : cvByte scrubSetting r 1 ≠ cvByte scrubSetting r 0 := by
  have hw : cvW scrubSetting = 64 := by decide +kernel
  have hp : cvPoly scrubSetting % 2 = 1 := by decide +kernel
  have hb : bit scrubSetting 244 = true := by decide +kernel
  intro h
  simp only [cvByte, hw, hb, if_true] at h
  have h := cvShifts_inj (by decide) hp 8 (Nat.mod_lt _ (by decide)) (Nat.mod_lt _ (by decide)) h
  have h := congrArg (fun x => x.testBit 63) h
  simp only [Nat.testBit_mod_two_pow, Nat.testBit_xor] at h
  revert h
  generalize r.testBit 63 = b
  cases b <;> decide +kernel

/-- A granule that reads back other than zero shows a mismatch (R431, R432). -/
theorem scrubMisses_dirty (g : Nat) : scrubMisses g ⟨[(2 ^ 21 - 1, 1)], [(2 ^ 21 - 1, 1)]⟩ = 2 := by
  have lt (r : Nat) (b : Byte) : cvByte scrubSetting r b < 2 ^ 64 := by
    have hw : cvW scrubSetting = 64 := by decide +kernel
    unfold cvByte
    rw [hw]
    exact cvShift_lt 64 _ _
  have : scrubMismatch g [(2 ^ 21 - 1, 1)] = true := by
    unfold scrubMismatch
    have zeros : List.replicate (2 ^ 21) (0 : Byte) = List.replicate (2 ^ 21 - 1) 0 ++ [0] := List.replicate_succ'
    rw [bne_iff_ne, readBack_last, zeros]
    unfold cvUnit cvFold
    show BitVec.ofNat 64 (cvBytes scrubSetting _ (_ ++ (_ ++ [1]))) ≠ BitVec.ofNat 64 (cvBytes scrubSetting _ (_ ++ (_ ++ [0])))
    rw [← List.append_assoc, ← List.append_assoc, cvBytes_append, cvBytes_append _ _ _ [0], cvBytes_cons, cvBytes_cons]
    intro h
    have h := congrArg BitVec.toNat h
    rw [cvBytes, cvBytes, BitVec.toNat_ofNat, BitVec.toNat_ofNat, Nat.mod_eq_of_lt (lt _ _), Nat.mod_eq_of_lt (lt _ _)] at h
    exact scrubByte_ne _ h
  unfold scrubMisses
  rw [this]
  rfl

end Sys2Proof.Machine
end

