-- ==== Sys2Proof/Laws/Maps.lean ====
section
/-! SUPPORT. Laws of the sparse maps and of the two memories: reading after writing, and that every memory operation keeps the canonical form. -/

namespace Sys2Proof.Machine

open Sys2Proof

/-! ### Sparse maps -/

/-- Rising keys, as a relation between every two entries. -/
theorem mwf_iff {α : Type} (m : SMap α) : mwf m = true ↔ m.Pairwise fun a b => a.1 < b.1 := by
  induction m with
  | nil => simp [mwf]
  | cons a t ih =>
    cases t with
    | nil => simp [mwf]
    | cons b u =>
      simp only [mwf, Bool.and_eq_true, decide_eq_true_eq, List.pairwise_cons] at ih ⊢
      constructor
      · rintro ⟨h, k⟩
        have k' := ih.mp k
        refine ⟨?_, k'⟩
        intro c hc
        rcases List.mem_cons.mp hc with rfl | hc
        · exact h
        · exact Nat.lt_trans h (k'.1 c hc)
      · rintro ⟨h, k⟩
        exact ⟨h b (by simp), ih.mpr k⟩

/-- What a store leaves in the map: the new entry or an old one. -/
theorem mem_mset {α : Type} {m : SMap α} {k : Nat} {v : α} {p : Nat × α} (h : p ∈ mset m k v) : p = (k, v) ∨ p ∈ m := by
  induction m with
  | nil => simpa [mset] using h
  | cons a t ih =>
    simp only [mset] at h
    split at h
    · simpa using h
    · split at h
      · rcases List.mem_cons.mp h with h | h <;> simp [h]
      · rcases List.mem_cons.mp h with h | h
        · simp [h]
        · rcases ih h with h | h <;> simp [h]

/-- A store keeps the keys rising. -/
theorem mset_wf {α : Type} {m : SMap α} (k : Nat) (v : α) (h : mwf m = true) : mwf (mset m k v) = true := by
  rw [mwf_iff] at h ⊢
  induction m with
  | nil => simp [mset]
  | cons a t ih =>
    rw [List.pairwise_cons] at h
    simp only [mset]
    split
    · next hk =>
      refine List.pairwise_cons.mpr ⟨fun c hc => ?_, List.pairwise_cons.mpr h⟩
      rcases List.mem_cons.mp hc with rfl | hc
      · exact hk
      · exact Nat.lt_trans hk (h.1 c hc)
    · split
      · next hk => subst hk; exact List.pairwise_cons.mpr h
      · next hk hk' =>
        refine List.pairwise_cons.mpr ⟨fun c hc => ?_, ih h.2⟩
        rcases mem_mset hc with rfl | hc
        · show a.1 < k; omega
        · exact h.1 c hc

/-- Leaving out entries keeps the keys rising. -/
theorem filter_wf {α : Type} {m : SMap α} (f : Nat × α → Bool) (h : mwf m = true) : mwf (m.filter f) = true := by
  rw [mwf_iff] at h ⊢
  exact h.filter _

/-- Leaving out keys that a test picks keeps them rising. -/
theorem mdrop_wf {α : Type} {m : SMap α} (f : Nat → Bool) (h : mwf m = true) : mwf (mdrop m f) = true := filter_wf _ h

/-- Leaving out one key keeps them rising. -/
theorem mdel_wf {α : Type} {m : SMap α} (k : Nat) (h : mwf m = true) : mwf (mdel m k) = true := filter_wf _ h

/-- A read after a store to the same key. -/
@[simp] theorem mget_mset_same {α : Type} (m : SMap α) (k : Nat) (v : α) : mget (mset m k v) k = some v := by
  induction m with
  | nil => simp [mset, mget]
  | cons a t ih =>
    simp only [mset]
    split
    · simp [mget]
    · split
      · simp [mget]
      · next h => simp only [mget]; rw [if_neg (fun e => h e.symm)]; exact ih

/-- A store leaves every other key alone. -/
theorem mget_mset_ne {α : Type} (m : SMap α) {k j : Nat} (v : α) (h : j ≠ k) : mget (mset m k v) j = mget m j := by
  induction m with
  | nil => simp [mset, mget, Ne.symm h]
  | cons a t ih =>
    simp only [mset]
    split
    · simp [mget, Ne.symm h]
    · split
      · next e => subst e; simp [mget, Ne.symm h]
      · simp only [mget]; split
        · rfl
        · exact ih

/-- A read after a store, at any key. -/
theorem mget_mset {α : Type} (m : SMap α) (k j : Nat) (v : α) : mget (mset m k v) j = if j = k then some v else mget m j := by
  split
  · next h => subst h; exact mget_mset_same m j v
  · next h => exact mget_mset_ne m v h

/-- The default does not matter where a value has been stored. -/
@[simp] theorem mgetD_mset_same {α : Type} (m : SMap α) (k : Nat) (v d : α) : mgetD (mset m k v) k d = v := by simp [mgetD]

/-- A store leaves every other key alone, read with a default. -/
theorem mgetD_mset_ne {α : Type} (m : SMap α) {k j : Nat} (v d : α) (h : j ≠ k) : mgetD (mset m k v) j d = mgetD m j d := by
  simp [mgetD, mget_mset_ne m v h]

/-! ### The memories -/

/-- A run of stores keeps HBM's form. -/
theorem cellsPut_wf {m : List Host.Cell} (a : Nat) (bs : List Byte) (h : mwf m = true) : mwf (cellsPut m a bs) = true := by
  induction bs generalizing m a with
  | nil => exact h
  | cons b t ih => exact ih (a + 1) (mset_wf a b h)

/-- A byte outside a run of stores reads as before. -/
theorem mget_cellsPut_ne {m : List Host.Cell} {a x : Nat} {bs : List Byte} (h : x < a ∨ a + bs.length ≤ x) :
    mget (cellsPut m a bs) x = mget m x := by
  induction bs generalizing m a with
  | nil => rfl
  | cons b t ih =>
    simp only [List.length_cons] at h
    rw [cellsPut, ih (by omega), mget_mset_ne _ _ (by omega)]

/-- A byte inside a run of stores reads as stored. -/
theorem mget_cellsPut_mem {m : List Host.Cell} {a i : Nat} {bs : List Byte} (h : i < bs.length) :
    mget (cellsPut m a bs) (a + i) = bs[i]? := by
  induction bs generalizing m a i with
  | nil => simp at h
  | cons b t ih =>
    cases i with
    | zero =>
      rw [cellsPut, mget_cellsPut_ne (by omega)]
      simp
    | succ j =>
      have e : a + (j + 1) = (a + 1) + j := by omega
      rw [cellsPut, e, ih (by simpa using h)]
      simp

/-- No zero is listed. -/
def noZero (m : List Host.Cell) : Bool := m.all fun c => c.2 != 0

/-- Leaving out entries lists no zero. -/
theorem filter_noZero {m : List Host.Cell} (f : Host.Cell → Bool) (h : noZero m = true) : noZero (m.filter f) = true := by
  simp only [noZero, List.all_eq_true] at h ⊢
  exact fun c hc => h c ((List.mem_filter.mp hc).1)

/-- On-chip stores keep the form: rising addresses and no zero. -/
theorem cellsPutZ_wf {m : List Host.Cell} (a : Nat) (bs : List Byte) (h : mwf m = true) (z : noZero m = true) :
    mwf (cellsPutZ m a bs) = true ∧ noZero (cellsPutZ m a bs) = true := by
  induction bs generalizing m a with
  | nil => exact ⟨h, z⟩
  | cons b t ih =>
    simp only [cellsPutZ]
    split
    · exact ih (a + 1) (mdel_wf a h) (filter_noZero _ z)
    · next hb =>
      refine ih (a + 1) (mset_wf a b h) ?_
      simp only [noZero, List.all_eq_true] at z ⊢
      intro c hc
      rcases mem_mset hc with rfl | hc
      · simpa using hb
      · exact z c hc

/-- The form of the memories, in its three parts. -/
theorem Memory.wf_iff (m : MemS) : Memory.wf m = true ↔ mwf m.hbm = true ∧ mwf m.sram = true ∧ noZero m.sram = true := by
  simp [Memory.wf, noZero, and_assoc]

/-- The memories after reset have the form. -/
theorem reset_memory_wf : Memory.wf State.reset.mem = true := by decide

end Sys2Proof.Machine
end

