-- ==== Sys2Proof/Laws/Keeps.lean ====
section
/-! SUPPORT. What each shared operation may do beside its own effect: `f_keeps` says that `f` leaves the queue, programs no fuse back, and keeps the form of the memories. A proof about a command cites these and unfolds no operation. -/

set_option linter.unreachableTactic false
set_option linter.unusedTactic false

namespace Sys2Proof.Machine

open Sys2Proof

/-- Fuses come from themselves. -/
theorem FuseLe.refl (f : Fuses) : FuseLe f f := ⟨rfl, rfl, rfl, rfl, id, id, Nat.le_refl _, fun _ => Nat.le_refl _⟩

/-- Programming goes on from where it was. -/
theorem FuseLe.trans {a b c : Fuses} (h : FuseLe a b) (k : FuseLe b c) : FuseLe a c :=
  ⟨k.part.trans h.part, k.serial.trans h.serial, k.rootA.trans h.rootA, k.rootB.trans h.rootB,
    k.revoked ∘ h.revoked, k.closed ∘ h.closed, Nat.le_trans h.lifecycle k.lifecycle,
    fun c => Nat.le_trans (h.floors c) (k.floors c)⟩

/-- Nothing done keeps everything. -/
theorem Keeps.refl (s : State) : Keeps s s := ⟨rfl, .refl _, id⟩

/-- One change after another. -/
theorem Keeps.trans {a b c : State} (h : Keeps a b) (k : Keeps b c) : Keeps a c :=
  ⟨k.queue.trans h.queue, h.fuses.trans k.fuses, k.mem ∘ h.mem⟩

/-- A change to other fields of the state. -/
theorem Keeps.lit {r s : State} {flash tray clk wv seq cores sync dma dieJobs car kv variants zoe trl gate cvu pair pav pcie upd err out freeCtr}
    (h : Keeps r s) : Keeps r (State.mk s.pending s.fuses flash tray clk wv seq cores sync s.mem dma dieJobs car kv variants zoe trl gate cvu pair pav pcie upd err out freeCtr) :=
  ⟨h.queue, h.fuses, h.mem⟩

/-- A change to other fields, the partition map and the controllers among them. -/
theorem Keeps.lit' {r s : State} {flash tray clk wv seq cores sync a b c d e dma dieJobs car kv variants zoe trl gate cvu pair pav pcie upd err out freeCtr}
    (h : Keeps r s) : Keeps r (State.mk s.pending s.fuses flash tray clk wv seq cores sync (MemS.mk s.mem.hbm s.mem.sram a b c d e) dma dieJobs car kv variants zoe trl gate cvu pair pav pcie upd err out freeCtr) :=
  ⟨h.queue, h.fuses, h.mem⟩

/-- A change to the memories that keeps their form. -/
theorem Keeps.memory {r s : State} {m : MemS} (h : Keeps r s) (hm : Memory.wf s.mem = true → Memory.wf m = true) :
    Keeps r { s with mem := m } := ⟨h.queue, h.fuses, hm ∘ h.mem⟩

/-- Prove a fact, then use it. -/
theorem cut {a b : Prop} (h : a) (k : a → b) : b := k h

/-- A change for each element of a list. -/
theorem foldl_keeps {α : Type} {r : State} {f : State → α → State} {l : List α} {s : State}
    (hf : ∀ s a, Keeps r s → Keeps r (f s a)) (h : Keeps r s) : Keeps r (l.foldl f s) := by
  induction l generalizing s with
  | nil => exact h
  | cons a t ih => exact ih (hf _ _ h)

/-- The same, with a value carried beside the state. -/
theorem foldl_keeps2 {α β : Type} {r : State} {f : β × State → α → β × State} {l : List α} {x : β × State}
    (hf : ∀ x a, Keeps r x.2 → Keeps r (f x a).2) (h : Keeps r x.2) : Keeps r (l.foldl f x).2 := by
  induction l generalizing x with
  | nil => exact h
  | cons a t ih => exact ih (hf _ _ h)

/-- The same, with the value second. -/
theorem foldl_keeps1 {α β : Type} {r : State} {f : State × β → α → State × β} {l : List α} {x : State × β}
    (hf : ∀ x a, Keeps r x.1 → Keeps r (f x a).1) (h : Keeps r x.1) : Keeps r (l.foldl f x).1 := by
  induction l generalizing x with
  | nil => exact h
  | cons a t ih => exact ih (hf _ _ h)

/-- The state of a pair that a call has answered. -/
theorem pair_cut {β : Type} {r : State} {p : β × State} {a : β} {b : State} (e : p = (a, b)) (h : Keeps r p.2) : Keeps r b := by
  subst e; exact h

/-- The same, with the state first. -/
theorem pair_cut' {β : Type} {r : State} {p : State × β} {a : State} {b : β} (e : p = (a, b)) (h : Keeps r p.1) : Keeps r a := by
  subst e; exact h

/-- The same, with two values before the state. -/
theorem pair_cut3 {β γ : Type} {r : State} {p : β × γ × State} {a : β} {b : γ} {c : State} (e : p = (a, b, c)) (h : Keeps r p.2.2) : Keeps r c := by
  subst e; exact h

/-- A change made a number of times. -/
theorem repeat_keeps {r : State} {f : State → State} {n : Nat} {s : State} (hf : ∀ s, Keeps r s → Keeps r (f s)) (h : Keeps r s) :
    Keeps r (Nat.repeat f n s) := by
  induction n with
  | zero => exact h
  | succ n ih => exact hf _ ih

/-- A command that answers a state that keeps all. -/
theorem ResKeeps.mk {s t : State} (h : Keeps s t) : ResKeeps s (.next t) := ⟨t, rfl, h⟩

theorem reqSet_keeps {st0 s : State} {h : Nat} {r : Req} (hk0 : Keeps st0 s) : Keeps st0 (reqSet s h r) := by
  unfold reqSet
  exact hk0.lit

theorem frameSet_keeps {st0 s : State} {p f : Nat} {x : Frame} (hk0 : Keeps st0 s) : Keeps st0 (frameSet s p f x) := by
  unfold frameSet poolSet
  exact hk0.lit

theorem takeFrame_keeps {st0 s t : State} {h d f : Nat} {c : Bool} (e : takeFrame s h d c = some (f, t)) (hk0 : Keeps st0 s) : Keeps st0 t := by
  simp only [takeFrame] at e
  split at e
  · cases e
  · split at e
    · cases e
    · split at e <;> cases e
      · exact frameSet_keeps hk0
      · exact reqSet_keeps (frameSet_keeps hk0)

theorem resState_keeps {st0 : State} (s : State) (r : Res) (h : ResKeeps st0 r) : Keeps st0 (resState s r) := by
  obtain ⟨t, rfl, h⟩ := h
  exact h

theorem freeStep_keeps {st0 : State} (s : State) (hk0 : Keeps st0 s) :
    Keeps st0 (freeStep s) := by
  unfold freeStep
  with_reducible repeat' first
    | assumption | fail_if_no_progress (apply Keeps.lit)

theorem freeSteps_keeps {st0 : State} (s : State) (n : Nat) (hk0 : Keeps st0 s) :
    Keeps st0 (freeSteps s n) := by
  unfold freeSteps
  with_reducible repeat' first
    | assumption | fail_if_no_progress (apply Keeps.lit)

theorem emit_keeps {st0 : State} (s : State) (o : Output) (hk0 : Keeps st0 s) :
    Keeps st0 (emit s o) := by
  unfold emit
  with_reducible repeat' first
    | assumption | fail_if_no_progress (apply Keeps.lit)

theorem each_keeps {st0 : State} {α : Type} (l : List α) (f : State → α → State) (s : State) (hf : ∀ s0 y1, Keeps st0 s0 → Keeps st0 (f s0 y1)) (hk0 : Keeps st0 s) :
    Keeps st0 (each l f s) := by
  unfold each
  with_reducible repeat' first
    | assumption | (intro) | apply hf | apply foldl_keeps | apply foldl_keeps2 | apply foldl_keeps1 | fail_if_no_progress dsimp only

theorem odSet_keeps {st0 : State} (s : State) (idx : Nat) (sub : Nat) (v : Nat) (hk0 : Keeps st0 s) :
    Keeps st0 (odSet s idx sub v) := by
  unfold odSet
  with_reducible repeat' first
    | assumption | fail_if_no_progress (apply Keeps.lit)

theorem bumpBy_keeps {st0 : State} (s : State) (idx : Nat) (sub : Nat) (w : Nat) (n : Nat) (hk0 : Keeps st0 s) :
    Keeps st0 (bumpBy s idx sub w n) := by
  unfold bumpBy
  with_reducible repeat' first
    | assumption | apply odSet_keeps

theorem bump32_keeps {st0 : State} (s : State) (idx : Nat) (sub : Nat) (hk0 : Keeps st0 s) :
    Keeps st0 (bump32 s idx sub) := by
  unfold bump32
  with_reducible repeat' first
    | assumption | apply bumpBy_keeps

theorem bump64_keeps {st0 : State} (s : State) (idx : Nat) (sub : Nat) (hk0 : Keeps st0 s) :
    Keeps st0 (bump64 s idx sub) := by
  unfold bump64
  with_reducible repeat' first
    | assumption | apply bumpBy_keeps

theorem odClearRange_keeps {st0 : State} (s : State) (lo : Nat) (hi : Nat) (hk0 : Keeps st0 s) :
    Keeps st0 (odClearRange s lo hi) := by
  unfold odClearRange
  with_reducible repeat' first
    | assumption | (intro) | fail_if_no_progress (apply Keeps.lit)

theorem odReset_keeps {st0 : State} (s : State) (idx : Nat) (sub : Nat) (hk0 : Keeps st0 s) :
    Keeps st0 (odReset s idx sub) := by
  unfold odReset
  with_reducible repeat' first
    | assumption | fail_if_no_progress (apply Keeps.lit)

theorem dictAnswer_keeps {st0 : State} (s : State) (rq : DictReq) (status : Nat) (idx : Nat) (sub : Nat) (v : List Byte) (hk0 : Keeps st0 s) :
    Keeps st0 (dictAnswer s rq status idx sub v) := by
  unfold dictAnswer
  with_reducible repeat' first
    | assumption | (intro) | fail_if_no_progress (apply Keeps.lit)
    | (extract_lets +onlyGivenNames x; first | (refine cut (a := Keeps st0 x) ?_ fun hx => ?_; subst x; rotate_left; clear_value x) | clear_value x)
    | split

theorem fnSet_keeps {st0 : State} (s : State) (f : Nat) (x : FuncS) (hk0 : Keeps st0 s) :
    Keeps st0 (fnSet s f x) := by
  unfold fnSet
  with_reducible repeat' first
    | assumption | fail_if_no_progress (apply Keeps.lit)

theorem msixSend_keeps {st0 : State} (s : State) (f : Nat) (v : Nat) (hk0 : Keeps st0 s) :
    Keeps st0 (msixSend s f v) := by
  unfold msixSend
  with_reducible repeat' first
    | assumption | apply emit_keeps | apply fnSet_keeps | fail_if_no_progress (apply Keeps.lit)
    | (extract_lets +onlyGivenNames x; first | (refine cut (a := Keeps st0 x) ?_ fun hx => ?_; subst x; rotate_left; clear_value x) | clear_value x)
    | split

theorem logPush_keeps {st0 : State} (s : State) (i : LogInfo) (hk0 : Keeps st0 s) :
    Keeps st0 (logPush s i) := by
  unfold logPush
  with_reducible repeat' first
    | assumption | apply bump64_keeps | apply msixSend_keeps | fail_if_no_progress (apply Keeps.lit)
    | (extract_lets +onlyGivenNames x; first | (refine cut (a := Keeps st0 x) ?_ fun hx => ?_; subst x; rotate_left; clear_value x) | clear_value x)
    | split

theorem logErr_keeps {st0 : State} (s : State) (i : LogInfo) (hk0 : Keeps st0 s) :
    Keeps st0 (logErr s i) := by
  unfold logErr
  with_reducible repeat' first
    | assumption | apply bump64_keeps | apply logPush_keeps

theorem logSparse_keeps {st0 : State} (s : State) (res : Nat) (gap : Nat) (i : LogInfo) (hk0 : Keeps st0 s) :
    Keeps st0 (logSparse s res gap i) := by
  unfold logSparse
  with_reducible repeat' first
    | assumption | apply bump64_keeps | apply logPush_keeps | fail_if_no_progress (apply Keeps.lit)
    | (extract_lets +onlyGivenNames x; first | (refine cut (a := Keeps st0 x) ?_ fun hx => ?_; subst x; rotate_left; clear_value x) | clear_value x)
    | split

theorem notice_keeps {st0 : State} (s : State) (res : Nat) (i : LogInfo) (hk0 : Keeps st0 s) :
    Keeps st0 (notice s res i) := by
  unfold notice
  with_reducible repeat' first
    | assumption | apply logSparse_keeps | fail_if_no_progress (apply Keeps.lit)

theorem corrected_keeps {st0 : State} (s : State) (res : Nat) (i : LogInfo) (hk0 : Keeps st0 s) :
    Keeps st0 (corrected s res i) := by
  unfold corrected
  with_reducible repeat' first
    | assumption | apply logSparse_keeps | fail_if_no_progress (apply Keeps.lit)

theorem countClamp_keeps {st0 : State} (s : State) (src : DictSrc) (idx : Nat) (sub : Nat) (hk0 : Keeps st0 s) :
    Keeps st0 (countClamp s src idx sub) := by
  unfold countClamp
  with_reducible repeat' first
    | assumption | apply odSet_keeps | apply bump64_keeps | apply notice_keeps | fail_if_no_progress (apply Keeps.lit)
    | (extract_lets +onlyGivenNames x; first | (refine cut (a := Keeps st0 x) ?_ fun hx => ?_; subst x; rotate_left; clear_value x) | clear_value x)

theorem dictWrite_keeps {st0 : State} (s : State) (rq : DictReq) (idx : Nat) (sub : Nat) (v : List Byte) (clamp : State → Nat → Nat) (effect : State → Nat → State) (heffect : ∀ s0 y1, Keeps st0 s0 → Keeps st0 (effect s0 y1)) (hk0 : Keeps st0 s) :
    Keeps st0 (dictWrite s rq idx sub v clamp effect) := by
  unfold dictWrite
  with_reducible repeat' first
    | assumption | (intro) | apply heffect | apply odSet_keeps | apply dictAnswer_keeps | apply countClamp_keeps
    | fail_if_no_progress (apply Keeps.lit)
    | (extract_lets +onlyGivenNames x; first | (refine cut (a := Keeps st0 x) ?_ fun hx => ?_; subst x; rotate_left; clear_value x) | clear_value x)
    | split

theorem dictClear_keeps {st0 : State} (s : State) (rq : DictReq) (idx : Nat) (v : List Byte) (clear : State → State) (hclear : ∀ s0, Keeps st0 s0 → Keeps st0 (clear s0)) (hk0 : Keeps st0 s) :
    Keeps st0 (dictClear s rq idx v clear) := by
  unfold dictClear
  with_reducible repeat' first
    | assumption | (intro) | apply hclear | apply odSet_keeps | apply dictWrite_keeps | split

theorem granSet_keeps {st0 : State} (s : State) (g : Nat) (e : Granule) (hk0 : Keeps st0 s) : Keeps st0 (granSet s g e) := by
  unfold granSet
  split
  · exact hk0.memory id
  · exact hk0

theorem hbmPut_keeps {st0 : State} (s : State) (a : Nat) (bs : List Byte) (hk0 : Keeps st0 s) : Keeps st0 (hbmPut s a bs) := by
  refine hk0.memory fun h => ?_
  rw [Memory.wf_iff] at h ⊢
  exact ⟨cellsPut_wf a bs h.1, h.2⟩

theorem lineTake_keeps {st0 : State} (s : State) (owner a : Nat) (hk0 : Keeps st0 s) : Keeps st0 (lineTake s owner a) := by
  unfold lineTake
  split
  · exact hk0
  · refine hk0.memory fun h => ?_
    rw [Memory.wf_iff] at h ⊢
    refine ⟨h.1, ?_, ?_⟩
    · show mwf (cellsDrop _ _ _) = true
      exact mdrop_wf _ h.2.1
    · show noZero (cellsDrop _ _ _) = true
      exact filter_noZero _ h.2.2

theorem sramPut_keeps {st0 : State} (s : State) (owner a : Nat) (bs : List Byte) (hk0 : Keeps st0 s) : Keeps st0 (sramPut s owner a bs) := by
  unfold sramPut
  split
  · exact hk0
  · refine Keeps.memory (foldl_keeps (fun s l => lineTake_keeps s owner l) hk0) fun h => ?_
    rw [Memory.wf_iff] at h ⊢
    exact ⟨h.1, cellsPutZ_wf a bs h.2.1 h.2.2⟩

theorem sramRead_keeps {st0 : State} (s : State) (quad : Nat) (owner : Nat) (a : Nat) (n : Nat) (hk0 : Keeps st0 s) :
    Keeps st0 (sramRead s quad owner a n).2 := by
  unfold sramRead
  with_reducible repeat' first
    | assumption | apply bumpBy_keeps
    | (extract_lets +onlyGivenNames x; first | (refine cut (a := Keeps st0 x) ?_ fun hx => ?_; subst x; rotate_left; clear_value x) | clear_value x)
    | split

theorem addrMark_keeps {st0 : State} (s : State) (k : Nat) (hk0 : Keeps st0 s) :
    Keeps st0 (addrMark s k) := by
  unfold addrMark
  with_reducible repeat' first
    | assumption | apply notice_keeps | fail_if_no_progress (apply Keeps.lit)
    | (extract_lets +onlyGivenNames x; first | (refine cut (a := Keeps st0 x) ?_ fun hx => ?_; subst x; rotate_left; clear_value x) | clear_value x)
    | split

theorem addrFault_keeps {st0 : State} (s : State) (k : Nat) (hk0 : Keeps st0 s) :
    Keeps st0 (addrFault s k) := by
  unfold addrFault
  with_reducible repeat' first
    | assumption | apply bump32_keeps | apply addrMark_keeps

theorem localLine_keeps {st0 : State} (s : State) (k : Nat) (off : Nat) (n : Nat) (hk0 : Keeps st0 s) :
    Keeps st0 (localLine s k off n).2 := by
  unfold localLine
  with_reducible repeat' first
    | assumption | apply sramRead_keeps | apply addrFault_keeps | split | fail_if_no_progress dsimp only

theorem localRead_keeps {st0 : State} (s : State) (k : Nat) (off : Nat) (n : Nat) (hk0 : Keeps st0 s) :
    Keeps st0 (localRead s k off n).2 := by
  unfold localRead
  with_reducible repeat' first
    | assumption | (intro) | apply localLine_keeps | apply foldl_keeps | apply foldl_keeps2 | apply foldl_keeps1
    | (extract_lets +onlyGivenNames x; first | (refine cut (a := Keeps st0 x) ?_ fun hx => ?_; subst x; rotate_left; clear_value x) | (refine cut (a := Keeps st0 x.2) ?_ fun hx => ?_; subst x; rotate_left; clear_value x) | (refine cut (a := Keeps st0 x.2.2) ?_ fun hx => ?_; subst x; rotate_left; clear_value x) | (refine cut (a := Keeps st0 x.1) ?_ fun hx => ?_; subst x; rotate_left; clear_value x) | clear_value x)
    | split | refine pair_cut (by assumption) ?_ | refine pair_cut3 (by assumption) ?_ | refine pair_cut' (by assumption) ?_
    | fail_if_no_progress dsimp only

theorem localWrite_keeps {st0 : State} (s : State) (k : Nat) (off : Nat) (bs : List Byte) (hk0 : Keeps st0 s) :
    Keeps st0 (localWrite s k off bs) := by
  unfold localWrite
  with_reducible repeat' first
    | assumption | (intro) | apply sramPut_keeps | apply addrFault_keeps | apply foldl_keeps | apply foldl_keeps2 | apply foldl_keeps1
    | split | fail_if_no_progress dsimp only

theorem quadClear_keeps {st0 : State} (s : State) (q : Nat) (hk0 : Keeps st0 s) : Keeps st0 (quadClear s q) := by
  unfold quadClear
  refine ⟨hk0.queue, hk0.fuses, fun h => ?_⟩
  have h := hk0.mem h
  rw [Memory.wf_iff] at h ⊢
  exact ⟨h.1, mdrop_wf _ h.2.1, filter_noZero _ h.2.2⟩

theorem foreignOp_keeps {st0 : State} (s : State) (c : Nat) (hk0 : Keeps st0 s) :
    Keeps st0 (foreignOp s c) := by
  unfold foreignOp
  with_reducible repeat' first
    | assumption | apply odSet_keeps
    | (extract_lets +onlyGivenNames x; first | (refine cut (a := Keeps st0 x) ?_ fun hx => ?_; subst x; rotate_left; clear_value x) | clear_value x)

theorem cntPost_keeps {st0 : State} (s : State) (part : Nat) (c : Nat) (n : Nat) (amt : W32) (hk0 : Keeps st0 s) :
    Keeps st0 (cntPost s part c n amt) := by
  unfold cntPost
  with_reducible repeat' first
    | assumption | apply foreignOp_keeps | fail_if_no_progress (apply Keeps.lit)
    | (extract_lets +onlyGivenNames x; first | (refine cut (a := Keeps st0 x) ?_ fun hx => ?_; subst x; rotate_left; clear_value x) | clear_value x)
    | split

theorem cntForce_keeps {st0 : State} (s : State) (c : Nat) (n : Nat) (v : W32) (hk0 : Keeps st0 s) :
    Keeps st0 (cntForce s c n v) := by
  unfold cntForce
  with_reducible repeat' first
    | assumption | fail_if_no_progress (apply Keeps.lit)

theorem locReset_keeps {st0 : State} (s : State) (part : Nat) (loc : Nat) (cnt : Nat) (hk0 : Keeps st0 s) :
    Keeps st0 (locReset s part loc cnt) := by
  unfold locReset
  with_reducible repeat' first
    | assumption | apply foreignOp_keeps | apply cntForce_keeps | fail_if_no_progress (apply Keeps.lit) | split

theorem releasePost_keeps {st0 : State} (s : State) (part : Nat) (sess : Nat) (amt : W32) (hk0 : Keeps st0 s) :
    Keeps st0 (releasePost s part sess amt) := by
  unfold releasePost
  with_reducible repeat' first
    | assumption | apply bumpBy_keeps | apply bump32_keeps | fail_if_no_progress (apply Keeps.lit)
    | (extract_lets +onlyGivenNames x; first | (refine cut (a := Keeps st0 x) ?_ fun hx => ?_; subst x; rotate_left; clear_value x) | clear_value x)
    | split

theorem locPost_keeps {st0 : State} (s : State) (part : Nat) (loc : Nat) (cnt : Nat) (amt : W32) (hk0 : Keeps st0 s) :
    Keeps st0 (locPost s part loc cnt amt) := by
  unfold locPost
  with_reducible repeat' first
    | assumption | apply cntPost_keeps | apply releasePost_keeps | fail_if_no_progress (apply Keeps.lit) | split

theorem cabPut_keeps {st0 : State} (s : State) (n : Nat) (x : Counter) (hk0 : Keeps st0 s) :
    Keeps st0 (cabPut s n x) := by
  unfold cabPut
  with_reducible repeat' first
    | assumption | fail_if_no_progress (apply Keeps.lit)

theorem cabSet_keeps {st0 : State} (s : State) (n : Nat) (v : W32) (hk0 : Keeps st0 s) :
    Keeps st0 (cabSet s n v) := by
  unfold cabSet
  with_reducible repeat' first
    | assumption | apply cabPut_keeps

theorem conflictNote_keeps {st0 : State} (s : State) (c : Nat) (hk0 : Keeps st0 s) :
    Keeps st0 (conflictNote s c) := by
  unfold conflictNote
  with_reducible repeat' first
    | assumption | apply odSet_keeps
    | (extract_lets +onlyGivenNames x; first | (refine cut (a := Keeps st0 x) ?_ fun hx => ?_; subst x; rotate_left; clear_value x) | clear_value x)

theorem syncPut_keeps {st0 : State} (s : State) (c : SyncAt) (n : Nat) (x : Counter) (hk0 : Keeps st0 s) :
    Keeps st0 (syncPut s c n x) := by
  unfold syncPut
  with_reducible repeat' first
    | assumption | apply cabPut_keeps | fail_if_no_progress (apply Keeps.lit) | split

theorem syncForeign_keeps {st0 : State} (s : State) (c : SyncAt) (hk0 : Keeps st0 s) :
    Keeps st0 (syncForeign s c) := by
  unfold syncForeign
  with_reducible repeat' first
    | assumption | apply foreignOp_keeps | fail_if_no_progress (apply Keeps.lit) | split

theorem coreSet_keeps {st0 : State} (s : State) (k : Nat) (c : Core) (hk0 : Keeps st0 s) :
    Keeps st0 (coreSet s k c) := by
  unfold coreSet
  with_reducible repeat' first
    | assumption | fail_if_no_progress (apply Keeps.lit)

theorem onCore_keeps {st0 : State} (s : State) (k : CoreId) (f : Core → Core) (hk0 : Keeps st0 s) :
    Keeps st0 (onCore s k f) := by
  unfold onCore
  with_reducible repeat' first
    | assumption | apply coreSet_keeps | split

theorem laneSet_keeps {st0 : State} (s : State) (l : Nat) (x : Lane) (hk0 : Keeps st0 s) :
    Keeps st0 (laneSet s l x) := by
  unfold laneSet
  with_reducible repeat' first
    | assumption | fail_if_no_progress (apply Keeps.lit)

theorem ctxSet_keeps {st0 : State} (s : State) (c : Nat) (x : Context) (hk0 : Keeps st0 s) :
    Keeps st0 (ctxSet s c x) := by
  unfold ctxSet
  with_reducible repeat' first
    | assumption | fail_if_no_progress (apply Keeps.lit)

theorem ctxJobsAbort_keeps {st0 : State} (s : State) (c : Nat) (hk0 : Keeps st0 s) :
    Keeps st0 (ctxJobsAbort s c) := by
  unfold ctxJobsAbort
  with_reducible repeat' first
    | assumption | (intro) | fail_if_no_progress (apply Keeps.lit) | split

theorem ctxEnd_keeps {st0 : State} (s : State) (c : Nat) (code : Fin 5) (hk0 : Keeps st0 s) :
    Keeps st0 (ctxEnd s c code) := by
  unfold ctxEnd
  with_reducible repeat' first
    | assumption | (intro) | apply each_keeps | apply laneSet_keeps | apply ctxSet_keeps | apply ctxJobsAbort_keeps
    | fail_if_no_progress (apply Keeps.lit)
    | (extract_lets +onlyGivenNames x; first | (refine cut (a := Keeps st0 x) ?_ fun hx => ?_; subst x; rotate_left; clear_value x) | clear_value x)
    | split

theorem laneFault_keeps {st0 : State} (s : State) (l : Nat) (code : Fin 5) (hk0 : Keeps st0 s) :
    Keeps st0 (laneFault s l code) := by
  unfold laneFault
  with_reducible repeat' first
    | assumption | apply ctxEnd_keeps | fail_if_no_progress (apply Keeps.lit) | split

theorem linRead_keeps {st0 : State} (s : State) (k : Nat) (agu : Nat) (slot : Nat) (n : Nat) (hk0 : Keeps st0 s) :
    Keeps st0 (linRead s k agu slot n).2 := by
  unfold linRead
  with_reducible repeat' first
    | assumption | (intro) | apply addrMark_keeps | apply localRead_keeps | apply coreSet_keeps | apply foldl_keeps | apply foldl_keeps2
    | apply foldl_keeps1
    | (extract_lets +onlyGivenNames x; first | (refine cut (a := Keeps st0 x) ?_ fun hx => ?_; subst x; rotate_left; clear_value x) | (refine cut (a := Keeps st0 x.2) ?_ fun hx => ?_; subst x; rotate_left; clear_value x) | (refine cut (a := Keeps st0 x.2.2) ?_ fun hx => ?_; subst x; rotate_left; clear_value x) | (refine cut (a := Keeps st0 x.1) ?_ fun hx => ?_; subst x; rotate_left; clear_value x) | clear_value x)
    | split | refine pair_cut (by assumption) ?_ | refine pair_cut3 (by assumption) ?_ | refine pair_cut' (by assumption) ?_
    | fail_if_no_progress dsimp only

theorem convCount_keeps {st0 : State} (s : State) (k : Nat) (x : AguSlot) (ps : List Int) (ks : List Nat) (sh : Bool) (hk0 : Keeps st0 s) :
    Keeps st0 (convCount s k x ps ks sh) := by
  unfold convCount
  with_reducible repeat' first
    | assumption | (intro) | apply each_keeps | apply bumpBy_keeps | apply addrMark_keeps | apply localRead_keeps | apply laneFault_keeps
    | (extract_lets +onlyGivenNames x; first | (refine cut (a := Keeps st0 x) ?_ fun hx => ?_; subst x; rotate_left; clear_value x) | (refine cut (a := Keeps st0 x.2) ?_ fun hx => ?_; subst x; rotate_left; clear_value x) | (refine cut (a := Keeps st0 x.2.2) ?_ fun hx => ?_; subst x; rotate_left; clear_value x) | (refine cut (a := Keeps st0 x.1) ?_ fun hx => ?_; subst x; rotate_left; clear_value x) | clear_value x)
    | split | fail_if_no_progress dsimp only

-- EXEC
theorem execAguStart_keeps {st0 : State} (k : CoreId) (agu : Fin 2) (slot : Fin 16) (s : State) (hk0 : Keeps st0 s) :
    ResKeeps st0 (execAguStart k agu slot s) := by
  unfold execAguStart
  with_reducible repeat' first
    | assumption | (intro) | apply ResKeeps.mk | apply onCore_keeps

-- EXEC
theorem execAguAdvance_keeps {st0 : State} (k : CoreId) (agu : Fin 2) (slot : Fin 16) (s : State) (hk0 : Keeps st0 s) :
    ResKeeps st0 (execAguAdvance k agu slot s) := by
  unfold execAguAdvance
  with_reducible repeat' first
    | assumption | (intro) | apply ResKeeps.mk | apply onCore_keeps

-- EXEC
theorem execAguStop_keeps {st0 : State} (k : CoreId) (agu : Fin 2) (slot : Fin 16) (s : State) (hk0 : Keeps st0 s) :
    ResKeeps st0 (execAguStop k agu slot s) := by
  unfold execAguStop
  with_reducible repeat' first
    | assumption | (intro) | apply ResKeeps.mk | apply onCore_keeps

theorem ldmaStep_keeps {st0 : State} (toCluster : Bool) (k : Nat) (slot : Nat) (s : State) (hk0 : Keeps st0 s) :
    Keeps st0 (ldmaStep toCluster k slot s) := by
  unfold ldmaStep
  with_reducible repeat' first
    | assumption | apply sramPut_keeps | apply sramRead_keeps | apply localRead_keeps | apply localWrite_keeps | apply coreSet_keeps
    | fail_if_no_progress (apply Keeps.lit)
    | (extract_lets +onlyGivenNames x; first | (refine cut (a := Keeps st0 x) ?_ fun hx => ?_; subst x; rotate_left; clear_value x) | (refine cut (a := Keeps st0 x.2) ?_ fun hx => ?_; subst x; rotate_left; clear_value x) | (refine cut (a := Keeps st0 x.2.2) ?_ fun hx => ?_; subst x; rotate_left; clear_value x) | (refine cut (a := Keeps st0 x.1) ?_ fun hx => ?_; subst x; rotate_left; clear_value x) | clear_value x)
    | split | refine pair_cut (by assumption) ?_ | refine pair_cut3 (by assumption) ?_ | refine pair_cut' (by assumption) ?_
    | fail_if_no_progress dsimp only

-- EXEC
theorem execLocalToCluster_keeps {st0 : State} (k : CoreId) (slot : Fin 16) (count : Fin 8) (s : State) (hk0 : Keeps st0 s) :
    ResKeeps st0 (execLocalToCluster k slot count s) := by
  unfold execLocalToCluster
  with_reducible repeat' first
    | assumption | apply ResKeeps.mk | apply ldmaStep_keeps | apply repeat_keeps | split

-- EXEC
theorem execClusterToLocal_keeps {st0 : State} (k : CoreId) (slot : Fin 16) (count : Fin 8) (s : State) (hk0 : Keeps st0 s) :
    ResKeeps st0 (execClusterToLocal k slot count s) := by
  unfold execClusterToLocal
  with_reducible repeat' first
    | assumption | apply ResKeeps.mk | apply ldmaStep_keeps | apply repeat_keeps | split

theorem fpLanes_keeps {st0 : State} (k : CoreId) (v : VArgs) (f : Num → Num → Num) (s : State) (hk0 : Keeps st0 s) :
    Keeps st0 (fpLanes k v f s) := by
  unfold fpLanes
  with_reducible repeat' first
    | assumption | (intro) | apply onCore_keeps

-- EXEC
theorem execFadd_keeps {st0 : State} (k : CoreId) (v : VArgs) (s : State) (hk0 : Keeps st0 s) :
    ResKeeps st0 (execFadd k v s) := by
  unfold execFadd
  with_reducible repeat' first
    | assumption | apply ResKeeps.mk | apply fpLanes_keeps

-- EXEC
theorem execFsub_keeps {st0 : State} (k : CoreId) (v : VArgs) (s : State) (hk0 : Keeps st0 s) :
    ResKeeps st0 (execFsub k v s) := by
  unfold execFsub
  with_reducible repeat' first
    | assumption | (intro) | apply ResKeeps.mk | apply fpLanes_keeps

-- EXEC
theorem execFmul_keeps {st0 : State} (k : CoreId) (v : VArgs) (s : State) (hk0 : Keeps st0 s) :
    ResKeeps st0 (execFmul k v s) := by
  unfold execFmul
  with_reducible repeat' first
    | assumption | apply ResKeeps.mk | apply fpLanes_keeps

-- EXEC
theorem execFma_keeps {st0 : State} (k : CoreId) (v : VArgs) (s : State) (hk0 : Keeps st0 s) :
    ResKeeps st0 (execFma k v s) := by
  unfold execFma
  with_reducible repeat' first
    | assumption | (intro) | apply ResKeeps.mk | apply onCore_keeps

-- EXEC
theorem execFmin_keeps {st0 : State} (k : CoreId) (v : VArgs) (s : State) (hk0 : Keeps st0 s) :
    ResKeeps st0 (execFmin k v s) := by
  unfold execFmin
  with_reducible repeat' first
    | assumption | apply ResKeeps.mk | apply fpLanes_keeps

-- EXEC
theorem execFmax_keeps {st0 : State} (k : CoreId) (v : VArgs) (s : State) (hk0 : Keeps st0 s) :
    ResKeeps st0 (execFmax k v s) := by
  unfold execFmax
  with_reducible repeat' first
    | assumption | apply ResKeeps.mk | apply fpLanes_keeps

-- EXEC
theorem execFcmplt_keeps {st0 : State} (k : CoreId) (v : VArgs) (s : State) (hk0 : Keeps st0 s) :
    ResKeeps st0 (execFcmplt k v s) := by
  unfold execFcmplt
  with_reducible repeat' first
    | assumption | (intro) | apply ResKeeps.mk | apply onCore_keeps

-- EXEC
theorem execFcmpeq_keeps {st0 : State} (k : CoreId) (v : VArgs) (s : State) (hk0 : Keeps st0 s) :
    ResKeeps st0 (execFcmpeq k v s) := by
  unfold execFcmpeq
  with_reducible repeat' first
    | assumption | (intro) | apply ResKeeps.mk | apply onCore_keeps

theorem intLanes_keeps {st0 : State} (k : CoreId) (v : VArgs) (f : W32 → W32 → W32) (s : State) (hk0 : Keeps st0 s) :
    Keeps st0 (intLanes k v f s) := by
  unfold intLanes
  with_reducible repeat' first
    | assumption | (intro) | apply onCore_keeps

-- EXEC
theorem execIadd_keeps {st0 : State} (k : CoreId) (v : VArgs) (s : State) (hk0 : Keeps st0 s) :
    ResKeeps st0 (execIadd k v s) := by
  unfold execIadd
  with_reducible repeat' first
    | assumption | apply ResKeeps.mk | apply intLanes_keeps

-- EXEC
theorem execIsub_keeps {st0 : State} (k : CoreId) (v : VArgs) (s : State) (hk0 : Keeps st0 s) :
    ResKeeps st0 (execIsub k v s) := by
  unfold execIsub
  with_reducible repeat' first
    | assumption | apply ResKeeps.mk | apply intLanes_keeps

-- EXEC
theorem execImul_keeps {st0 : State} (k : CoreId) (v : VArgs) (s : State) (hk0 : Keeps st0 s) :
    ResKeeps st0 (execImul k v s) := by
  unfold execImul
  with_reducible repeat' first
    | assumption | apply ResKeeps.mk | apply intLanes_keeps

-- EXEC
theorem execIadds_keeps {st0 : State} (k : CoreId) (v : VArgs) (s : State) (hk0 : Keeps st0 s) :
    ResKeeps st0 (execIadds k v s) := by
  unfold execIadds
  with_reducible repeat' first
    | assumption | (intro) | apply ResKeeps.mk | apply intLanes_keeps

-- EXEC
theorem execIsubs_keeps {st0 : State} (k : CoreId) (v : VArgs) (s : State) (hk0 : Keeps st0 s) :
    ResKeeps st0 (execIsubs k v s) := by
  unfold execIsubs
  with_reducible repeat' first
    | assumption | (intro) | apply ResKeeps.mk | apply intLanes_keeps

-- EXEC
theorem execAnd_keeps {st0 : State} (k : CoreId) (v : VArgs) (s : State) (hk0 : Keeps st0 s) :
    ResKeeps st0 (execAnd k v s) := by
  unfold execAnd
  with_reducible repeat' first
    | assumption | apply ResKeeps.mk | apply intLanes_keeps

-- EXEC
theorem execOr_keeps {st0 : State} (k : CoreId) (v : VArgs) (s : State) (hk0 : Keeps st0 s) :
    ResKeeps st0 (execOr k v s) := by
  unfold execOr
  with_reducible repeat' first
    | assumption | apply ResKeeps.mk | apply intLanes_keeps

-- EXEC
theorem execXor_keeps {st0 : State} (k : CoreId) (v : VArgs) (s : State) (hk0 : Keeps st0 s) :
    ResKeeps st0 (execXor k v s) := by
  unfold execXor
  with_reducible repeat' first
    | assumption | apply ResKeeps.mk | apply intLanes_keeps

-- EXEC
theorem execShl_keeps {st0 : State} (k : CoreId) (v : VArgs) (s : State) (hk0 : Keeps st0 s) :
    ResKeeps st0 (execShl k v s) := by
  unfold execShl
  with_reducible repeat' first
    | assumption | (intro) | apply ResKeeps.mk | apply intLanes_keeps

-- EXEC
theorem execShr_keeps {st0 : State} (k : CoreId) (v : VArgs) (s : State) (hk0 : Keeps st0 s) :
    ResKeeps st0 (execShr k v s) := by
  unfold execShr
  with_reducible repeat' first
    | assumption | (intro) | apply ResKeeps.mk | apply intLanes_keeps

-- EXEC
theorem execSar_keeps {st0 : State} (k : CoreId) (v : VArgs) (s : State) (hk0 : Keeps st0 s) :
    ResKeeps st0 (execSar k v s) := by
  unfold execSar
  with_reducible repeat' first
    | assumption | (intro) | apply ResKeeps.mk | apply intLanes_keeps

-- EXEC
theorem execCvt_keeps {st0 : State} (k : CoreId) (v : VArgs) (s : State) (hk0 : Keeps st0 s) :
    ResKeeps st0 (execCvt k v s) := by
  unfold execCvt
  with_reducible repeat' first
    | assumption | (intro) | apply ResKeeps.mk | apply freeSteps_keeps | apply onCore_keeps | split

theorem unLanes_keeps {st0 : State} (k : CoreId) (v : VArgs) (f : W32 → W32 × BitVec 4) (s : State) (hk0 : Keeps st0 s) :
    Keeps st0 (unLanes k v f s) := by
  unfold unLanes
  with_reducible repeat' first
    | assumption | (intro) | apply onCore_keeps

-- EXEC
theorem execExp2_keeps {st0 : State} (k : CoreId) (v : VArgs) (s : State) (hk0 : Keeps st0 s) :
    ResKeeps st0 (execExp2 k v s) := by
  unfold execExp2
  with_reducible repeat' first
    | assumption | apply ResKeeps.mk | apply unLanes_keeps

-- EXEC
theorem execLog2_keeps {st0 : State} (k : CoreId) (v : VArgs) (s : State) (hk0 : Keeps st0 s) :
    ResKeeps st0 (execLog2 k v s) := by
  unfold execLog2
  with_reducible repeat' first
    | assumption | apply ResKeeps.mk | apply unLanes_keeps

-- EXEC
theorem execRsqrt_keeps {st0 : State} (k : CoreId) (v : VArgs) (s : State) (hk0 : Keeps st0 s) :
    ResKeeps st0 (execRsqrt k v s) := by
  unfold execRsqrt
  with_reducible repeat' first
    | assumption | apply ResKeeps.mk | apply unLanes_keeps

-- EXEC
theorem execRecip_keeps {st0 : State} (k : CoreId) (v : VArgs) (s : State) (hk0 : Keeps st0 s) :
    ResKeeps st0 (execRecip k v s) := by
  unfold execRecip
  with_reducible repeat' first
    | assumption | apply ResKeeps.mk | apply unLanes_keeps

-- EXEC
theorem execRsum_keeps {st0 : State} (k : CoreId) (v : VArgs) (s : State) (hk0 : Keeps st0 s) :
    ResKeeps st0 (execRsum k v s) := by
  unfold execRsum
  with_reducible repeat' first
    | assumption | (intro) | apply ResKeeps.mk | apply onCore_keeps

-- EXEC
theorem execRmax_keeps {st0 : State} (k : CoreId) (v : VArgs) (s : State) (hk0 : Keeps st0 s) :
    ResKeeps st0 (execRmax k v s) := by
  unfold execRmax
  with_reducible repeat' first
    | assumption | (intro) | apply ResKeeps.mk | apply onCore_keeps

-- EXEC
theorem execRmin_keeps {st0 : State} (k : CoreId) (v : VArgs) (s : State) (hk0 : Keeps st0 s) :
    ResKeeps st0 (execRmin k v s) := by
  unfold execRmin
  with_reducible repeat' first
    | assumption | (intro) | apply ResKeeps.mk | apply onCore_keeps

-- EXEC
theorem execRmerge_keeps {st0 : State} (k : CoreId) (v : VArgs) (s : State) (hk0 : Keeps st0 s) :
    ResKeeps st0 (execRmerge k v s) := by
  unfold execRmerge
  with_reducible repeat' first
    | assumption | (intro) | apply ResKeeps.mk | apply onCore_keeps

theorem vecLoad_keeps {st0 : State} (k : Nat) (v : VArgs) (s : State) (hk0 : Keeps st0 s) :
    Keeps st0 (vecLoad k v s) := by
  unfold vecLoad
  with_reducible repeat' first
    | assumption | (intro) | apply coreSet_keeps | apply linRead_keeps | apply convCount_keeps | fail_if_no_progress (apply Keeps.lit)
    | (extract_lets +onlyGivenNames x; first | (refine cut (a := Keeps st0 x) ?_ fun hx => ?_; subst x; rotate_left; clear_value x) | (refine cut (a := Keeps st0 x.2) ?_ fun hx => ?_; subst x; rotate_left; clear_value x) | (refine cut (a := Keeps st0 x.2.2) ?_ fun hx => ?_; subst x; rotate_left; clear_value x) | (refine cut (a := Keeps st0 x.1) ?_ fun hx => ?_; subst x; rotate_left; clear_value x) | clear_value x)
    | split | refine pair_cut (by assumption) ?_ | refine pair_cut3 (by assumption) ?_ | refine pair_cut' (by assumption) ?_
    | fail_if_no_progress dsimp only

-- EXEC
theorem execVecLoad_keeps {st0 : State} (k : CoreId) (v : VArgs) (s : State) (hk0 : Keeps st0 s) :
    ResKeeps st0 (execVecLoad k v s) := by
  unfold execVecLoad
  with_reducible repeat' first
    | assumption | apply ResKeeps.mk | apply vecLoad_keeps | split

theorem vecStore_keeps {st0 : State} (k : Nat) (v : VArgs) (s : State) (hk0 : Keeps st0 s) :
    Keeps st0 (vecStore k v s) := by
  unfold vecStore
  with_reducible repeat' first
    | assumption | (intro) | apply addrMark_keeps | apply localRead_keeps | apply localWrite_keeps | apply coreSet_keeps | apply foldl_keeps
    | apply foldl_keeps2 | apply foldl_keeps1
    | (extract_lets +onlyGivenNames x; first | (refine cut (a := Keeps st0 x) ?_ fun hx => ?_; subst x; rotate_left; clear_value x) | (refine cut (a := Keeps st0 x.2) ?_ fun hx => ?_; subst x; rotate_left; clear_value x) | (refine cut (a := Keeps st0 x.2.2) ?_ fun hx => ?_; subst x; rotate_left; clear_value x) | (refine cut (a := Keeps st0 x.1) ?_ fun hx => ?_; subst x; rotate_left; clear_value x) | clear_value x)
    | split | refine pair_cut (by assumption) ?_ | refine pair_cut3 (by assumption) ?_ | refine pair_cut' (by assumption) ?_
    | fail_if_no_progress dsimp only

-- EXEC
theorem execVecStore_keeps {st0 : State} (k : CoreId) (v : VArgs) (s : State) (hk0 : Keeps st0 s) :
    ResKeeps st0 (execVecStore k v s) := by
  unfold execVecStore
  with_reducible repeat' first
    | assumption | apply ResKeeps.mk | apply vecStore_keeps | split

-- EXEC
theorem execShadow_keeps {st0 : State} (k : CoreId) (v : VArgs) (s : State) (hk0 : Keeps st0 s) :
    ResKeeps st0 (execShadow k v s) := by
  unfold execShadow
  with_reducible repeat' first
    | assumption | (intro) | apply ResKeeps.mk | apply onCore_keeps
    | (extract_lets +onlyGivenNames x; first | (refine cut (a := Keeps st0 x) ?_ fun hx => ?_; subst x; rotate_left; clear_value x) | clear_value x)
    | split

-- EXEC
theorem execFlags_keeps {st0 : State} (k : CoreId) (v : VArgs) (s : State) (hk0 : Keeps st0 s) :
    ResKeeps st0 (execFlags k v s) := by
  unfold execFlags
  with_reducible repeat' first
    | assumption | (intro) | apply ResKeeps.mk | apply onCore_keeps | fail_if_no_progress (apply Keeps.lit)
    | (extract_lets +onlyGivenNames x; first | (refine cut (a := Keeps st0 x) ?_ fun hx => ?_; subst x; rotate_left; clear_value x) | clear_value x)
    | split

-- EXEC
theorem execSetup_keeps {st0 : State} (k : CoreId) (v : VArgs) (s : State) (hk0 : Keeps st0 s) :
    ResKeeps st0 (execSetup k v s) := by
  unfold execSetup
  with_reducible repeat' first
    | assumption | apply ResKeeps.mk | apply localRead_keeps | apply coreSet_keeps | fail_if_no_progress (apply Keeps.lit)
    | (extract_lets +onlyGivenNames x; first | (refine cut (a := Keeps st0 x) ?_ fun hx => ?_; subst x; rotate_left; clear_value x) | (refine cut (a := Keeps st0 x.2) ?_ fun hx => ?_; subst x; rotate_left; clear_value x) | (refine cut (a := Keeps st0 x.2.2) ?_ fun hx => ?_; subst x; rotate_left; clear_value x) | (refine cut (a := Keeps st0 x.1) ?_ fun hx => ?_; subst x; rotate_left; clear_value x) | clear_value x)
    | split | refine pair_cut (by assumption) ?_ | refine pair_cut3 (by assumption) ?_ | refine pair_cut' (by assumption) ?_
    | fail_if_no_progress dsimp only

-- EXEC
theorem execParam_keeps {st0 : State} (k : CoreId) (v : VArgs) (s : State) (hk0 : Keeps st0 s) :
    ResKeeps st0 (execParam k v s) := by
  unfold execParam
  with_reducible repeat' first
    | assumption | (intro) | apply ResKeeps.mk | apply onCore_keeps | fail_if_no_progress (apply Keeps.lit) | split

theorem tablePost_keeps {st0 : State} (s : State) (l : Nat) (i : Nat) (hk0 : Keeps st0 s) :
    Keeps st0 (tablePost s l i) := by
  unfold tablePost
  with_reducible repeat' first
    | assumption | apply locPost_keeps
    | (extract_lets +onlyGivenNames x; first | (refine cut (a := Keeps st0 x) ?_ fun hx => ?_; subst x; rotate_left; clear_value x) | clear_value x)

-- EXEC
theorem execVecPost_keeps {st0 : State} (k : CoreId) (v : VArgs) (s : State) (hk0 : Keeps st0 s) :
    ResKeeps st0 (execVecPost k v s) := by
  unfold execVecPost
  with_reducible repeat' first
    | assumption | apply ResKeeps.mk | apply tablePost_keeps | split

theorem preRead_keeps {st0 : State} (s : State) (k : Nat) (desc : W512) (w : Nat) (kb : Nat) (hk0 : Keeps st0 s) :
    Keeps st0 (preRead s k desc w kb).2 := by
  unfold preRead
  with_reducible repeat' first
    | assumption | apply localRead_keeps | fail_if_no_progress (apply Keeps.lit)
    | (extract_lets +onlyGivenNames x; first | (refine cut (a := Keeps st0 x) ?_ fun hx => ?_; subst x; rotate_left; clear_value x) | (refine cut (a := Keeps st0 x.2) ?_ fun hx => ?_; subst x; rotate_left; clear_value x) | (refine cut (a := Keeps st0 x.2.2) ?_ fun hx => ?_; subst x; rotate_left; clear_value x) | (refine cut (a := Keeps st0 x.1) ?_ fun hx => ?_; subst x; rotate_left; clear_value x) | clear_value x)
    | split | refine pair_cut (by assumption) ?_ | refine pair_cut3 (by assumption) ?_ | refine pair_cut' (by assumption) ?_
    | fail_if_no_progress dsimp only

theorem convPre_keeps {st0 : State} (s : State) (k : Nat) (x : AguSlot) (ps : List Int) (steps : List Nat) (pre : Bool) (hk0 : Keeps st0 s) :
    Keeps st0 (convPre s k x ps steps pre).2 := by
  unfold convPre
  with_reducible repeat' first
    | assumption | (intro) | apply each_keeps | apply localRead_keeps
    | (extract_lets +onlyGivenNames x; first | (refine cut (a := Keeps st0 x) ?_ fun hx => ?_; subst x; rotate_left; clear_value x) | (refine cut (a := Keeps st0 x.2) ?_ fun hx => ?_; subst x; rotate_left; clear_value x) | (refine cut (a := Keeps st0 x.2.2) ?_ fun hx => ?_; subst x; rotate_left; clear_value x) | (refine cut (a := Keeps st0 x.1) ?_ fun hx => ?_; subst x; rotate_left; clear_value x) | clear_value x)
    | split | fail_if_no_progress dsimp only

theorem topsRead_keeps {st0 : State} (s : State) (k : Nat) (a : Nat) (w : Nat) (hk0 : Keeps st0 s) :
    Keeps st0 (topsRead s k a w).2 := by
  unfold topsRead
  with_reducible repeat' first
    | assumption | (intro) | apply localRead_keeps
    | (extract_lets +onlyGivenNames x; first | (refine cut (a := Keeps st0 x) ?_ fun hx => ?_; subst x; rotate_left; clear_value x) | (refine cut (a := Keeps st0 x.2) ?_ fun hx => ?_; subst x; rotate_left; clear_value x) | (refine cut (a := Keeps st0 x.2.2) ?_ fun hx => ?_; subst x; rotate_left; clear_value x) | (refine cut (a := Keeps st0 x.1) ?_ fun hx => ?_; subst x; rotate_left; clear_value x) | clear_value x)
    | split | refine pair_cut (by assumption) ?_ | refine pair_cut3 (by assumption) ?_ | refine pair_cut' (by assumption) ?_
    | fail_if_no_progress dsimp only

theorem opRead_keeps {st0 : State} (s : State) (k : Nat) (agu : Nat) (slot : Nat) (fmt : Nat) (w : Nat) (kb : Nat) (pre : Bool) (hk0 : Keeps st0 s) :
    Keeps st0 (opRead s k agu slot fmt w kb pre).2 := by
  unfold opRead
  with_reducible repeat' first
    | assumption | (intro) | apply addrMark_keeps | apply localRead_keeps | apply coreSet_keeps | apply linRead_keeps
    | apply convCount_keeps | apply preRead_keeps | apply convPre_keeps | apply topsRead_keeps | fail_if_no_progress (apply Keeps.lit)
    | (extract_lets +onlyGivenNames x; first | (refine cut (a := Keeps st0 x) ?_ fun hx => ?_; subst x; rotate_left; clear_value x) | (refine cut (a := Keeps st0 x.2) ?_ fun hx => ?_; subst x; rotate_left; clear_value x) | (refine cut (a := Keeps st0 x.2.2) ?_ fun hx => ?_; subst x; rotate_left; clear_value x) | (refine cut (a := Keeps st0 x.1) ?_ fun hx => ?_; subst x; rotate_left; clear_value x) | clear_value x)
    | split | refine pair_cut (by assumption) ?_ | refine pair_cut3 (by assumption) ?_ | refine pair_cut' (by assumption) ?_
    | fail_if_no_progress dsimp only

theorem tileOp_keeps {st0 : State} (k : Nat) (e : EArgs) (first : Bool) (s : State) (hk0 : Keeps st0 s) :
    Keeps st0 (tileOp k e first s) := by
  unfold tileOp
  with_reducible repeat' first
    | assumption | (intro) | apply each_keeps | apply localRead_keeps | apply coreSet_keeps | apply opRead_keeps
    | fail_if_no_progress (apply Keeps.lit)
    | (extract_lets +onlyGivenNames x; first | (refine cut (a := Keeps st0 x) ?_ fun hx => ?_; subst x; rotate_left; clear_value x) | (refine cut (a := Keeps st0 x.2) ?_ fun hx => ?_; subst x; rotate_left; clear_value x) | (refine cut (a := Keeps st0 x.2.2) ?_ fun hx => ?_; subst x; rotate_left; clear_value x) | (refine cut (a := Keeps st0 x.1) ?_ fun hx => ?_; subst x; rotate_left; clear_value x) | (refine cut (a := ∀ s a b, Keeps st0 s → Keeps st0 (x s a b)) ?_ fun hf => ?_; subst x; rotate_left; clear_value x) | clear_value x)
    | split | refine pair_cut (by assumption) ?_ | refine pair_cut3 (by assumption) ?_ | refine pair_cut' (by assumption) ?_
    | fail_if_no_progress dsimp only | apply hf

theorem denRead_keeps {st0 : State} (s : State) (k : Nat) (desc : W512) (row : Nat) (hk0 : Keeps st0 s) :
    Keeps st0 (denRead s k desc row).2 := by
  unfold denRead
  with_reducible repeat' first
    | assumption | apply localRead_keeps | fail_if_no_progress (apply Keeps.lit)
    | (extract_lets +onlyGivenNames x; first | (refine cut (a := Keeps st0 x) ?_ fun hx => ?_; subst x; rotate_left; clear_value x) | (refine cut (a := Keeps st0 x.2) ?_ fun hx => ?_; subst x; rotate_left; clear_value x) | (refine cut (a := Keeps st0 x.2.2) ?_ fun hx => ?_; subst x; rotate_left; clear_value x) | (refine cut (a := Keeps st0 x.1) ?_ fun hx => ?_; subst x; rotate_left; clear_value x) | clear_value x)
    | split | refine pair_cut (by assumption) ?_ | refine pair_cut3 (by assumption) ?_ | refine pair_cut' (by assumption) ?_
    | fail_if_no_progress dsimp only

theorem rowOut_keeps {st0 : State} (k : Nat) (slot : Nat) (w : BitVec 64) (idx : Nat) (row : Nat) (r : AccRow) (s : State) (hk0 : Keeps st0 s) :
    Keeps st0 (rowOut k slot w idx row r s) := by
  unfold rowOut
  with_reducible repeat' first
    | assumption | (intro) | apply addrMark_keeps | apply localWrite_keeps | apply coreSet_keeps | apply denRead_keeps | apply foldl_keeps
    | apply foldl_keeps2 | apply foldl_keeps1 | fail_if_no_progress (apply Keeps.lit)
    | (extract_lets +onlyGivenNames x; first | (refine cut (a := Keeps st0 x) ?_ fun hx => ?_; subst x; rotate_left; clear_value x) | (refine cut (a := Keeps st0 x.2) ?_ fun hx => ?_; subst x; rotate_left; clear_value x) | (refine cut (a := Keeps st0 x.2.2) ?_ fun hx => ?_; subst x; rotate_left; clear_value x) | (refine cut (a := Keeps st0 x.1) ?_ fun hx => ?_; subst x; rotate_left; clear_value x) | clear_value x)
    | split | refine pair_cut (by assumption) ?_ | refine pair_cut3 (by assumption) ?_ | refine pair_cut' (by assumption) ?_
    | fail_if_no_progress dsimp only

theorem readoutOp_keeps {st0 : State} (k : Nat) (e : EArgs) (set : Nat → Bool) (s : State) (hk0 : Keeps st0 s) :
    Keeps st0 (readoutOp k e set s) := by
  unfold readoutOp
  with_reducible repeat' first
    | assumption | (intro) | apply each_keeps | apply rowOut_keeps
    | (extract_lets +onlyGivenNames x; first | (refine cut (a := Keeps st0 x) ?_ fun hx => ?_; subst x; rotate_left; clear_value x) | clear_value x)
    | split

-- EXEC
theorem execTile_keeps {st0 : State} (k : CoreId) (e : EArgs) (s : State) (hk0 : Keeps st0 s) :
    ResKeeps st0 (execTile k e s) := by
  unfold execTile
  with_reducible repeat' first
    | assumption | apply ResKeeps.mk | apply tileOp_keeps | split

-- EXEC
theorem execReadout_keeps {st0 : State} (k : CoreId) (e : EArgs) (s : State) (hk0 : Keeps st0 s) :
    ResKeeps st0 (execReadout k e s) := by
  unfold execReadout
  with_reducible repeat' first
    | assumption | (intro) | apply ResKeeps.mk | apply readoutOp_keeps | split

-- EXEC
theorem execTileRead_keeps {st0 : State} (k : CoreId) (e : EArgs) (s : State) (hk0 : Keeps st0 s) :
    ResKeeps st0 (execTileRead k e s) := by
  unfold execTileRead
  with_reducible repeat' first
    | assumption | (intro) | apply ResKeeps.mk | apply tileOp_keeps | apply readoutOp_keeps
    | (extract_lets +onlyGivenNames x; first | (refine cut (a := Keeps st0 x) ?_ fun hx => ?_; subst x; rotate_left; clear_value x) | clear_value x)
    | split

theorem bundleCount_keeps {st0 : State} (s : State) (c : Nat) (a : Nat) (hk0 : Keeps st0 s) :
    Keeps st0 (bundleCount s c a) := by
  unfold bundleCount
  with_reducible repeat' first
    | assumption | apply bumpBy_keeps | fail_if_no_progress (apply Keeps.lit)
    | (extract_lets +onlyGivenNames x; first | (refine cut (a := Keeps st0 x) ?_ fun hx => ?_; subst x; rotate_left; clear_value x) | clear_value x)
    | split

theorem targetAdvance_keeps {st0 : State} (s : State) (l : Nat) (e : Nat) (hk0 : Keeps st0 s) :
    Keeps st0 (targetAdvance s l e) := by
  unfold targetAdvance
  with_reducible repeat' first
    | assumption | apply laneSet_keeps | fail_if_no_progress (apply Keeps.lit)
    | (extract_lets +onlyGivenNames x; first | (refine cut (a := Keeps st0 x) ?_ fun hx => ?_; subst x; rotate_left; clear_value x) | clear_value x)

theorem laneWaitOp_keeps {st0 : State} (s : State) (l : Nat) (sl : Slice) (hk0 : Keeps st0 s) :
    Keeps st0 (laneWaitOp s l sl) := by
  unfold laneWaitOp
  with_reducible repeat' first
    | assumption | apply laneSet_keeps | apply targetAdvance_keeps | fail_if_no_progress (apply Keeps.lit)
    | (extract_lets +onlyGivenNames x; first | (refine cut (a := Keeps st0 x) ?_ fun hx => ?_; subst x; rotate_left; clear_value x) | clear_value x)
    | split

theorem lanePostOp_keeps {st0 : State} (s : State) (l : Nat) (sl : Slice) (hk0 : Keeps st0 s) :
    Keeps st0 (lanePostOp s l sl) := by
  unfold lanePostOp
  with_reducible repeat' first
    | assumption | apply laneSet_keeps | apply tablePost_keeps | fail_if_no_progress (apply Keeps.lit)
    | (extract_lets +onlyGivenNames x; first | (refine cut (a := Keeps st0 x) ?_ fun hx => ?_; subst x; rotate_left; clear_value x) | clear_value x)
    | split

theorem pushSlices_keeps {st0 : State} (s : State) (c : Nat) (b : BitVec 4096) (hk0 : Keeps st0 s) :
    Keeps st0 (pushSlices s c b) := by
  unfold pushSlices
  with_reducible repeat' first
    | assumption | (intro) | apply each_keeps | apply laneSet_keeps | fail_if_no_progress (apply Keeps.lit)
    | (extract_lets +onlyGivenNames x; first | (refine cut (a := Keeps st0 x) ?_ fun hx => ?_; subst x; rotate_left; clear_value x) | clear_value x)

theorem slipNote_keeps {st0 : State} (s : State) (c : Nat) (hk0 : Keeps st0 s) :
    Keeps st0 (slipNote s c) := by
  unfold slipNote
  with_reducible repeat' first
    | assumption | (intro) | apply odSet_keeps | apply foldl_keeps | apply foldl_keeps2 | apply foldl_keeps1
    | (extract_lets +onlyGivenNames x; first | (refine cut (a := Keeps st0 x) ?_ fun hx => ?_; subst x; rotate_left; clear_value x) | (refine cut (a := Keeps st0 x.2) ?_ fun hx => ?_; subst x; rotate_left; clear_value x) | (refine cut (a := Keeps st0 x.2.2) ?_ fun hx => ?_; subst x; rotate_left; clear_value x) | (refine cut (a := Keeps st0 x.1) ?_ fun hx => ?_; subst x; rotate_left; clear_value x) | clear_value x)
    | split | fail_if_no_progress dsimp only

theorem seqResolve_keeps {st0 : State} (s : State) (c : Nat) (op : Nat) (f : Context → BitVec 128 → Context) (hk0 : Keeps st0 s) :
    Keeps st0 (seqResolve s c op f) := by
  unfold seqResolve
  with_reducible repeat' first
    | assumption | apply ctxSet_keeps | fail_if_no_progress (apply Keeps.lit)
    | (extract_lets +onlyGivenNames x; first | (refine cut (a := Keeps st0 x) ?_ fun hx => ?_; subst x; rotate_left; clear_value x) | clear_value x)
    | split

theorem partTouch_keeps {st0 : State} (s : State) (part : Nat) (a : Nat) (n : Nat) (hk0 : Keeps st0 s) :
    Keeps st0 (partTouch s part a n) := by
  unfold partTouch
  with_reducible repeat' first
    | assumption | (intro) | apply each_keeps | apply bumpBy_keeps | fail_if_no_progress (apply Keeps.lit) | split

theorem laneLoad_keeps {st0 : State} (s : State) (part : Nat) (c : Nat) (l : Nat) (stepId : Nat) (hk0 : Keeps st0 s) :
    Keeps st0 (laneLoad s part c l stepId) := by
  unfold laneLoad
  with_reducible repeat' first
    | assumption | (intro) | apply each_keeps | apply sramRead_keeps | apply locReset_keeps | apply coreSet_keeps | apply laneSet_keeps
    | apply partTouch_keeps | fail_if_no_progress (apply Keeps.lit)
    | (extract_lets +onlyGivenNames x; first | (refine cut (a := Keeps st0 x) ?_ fun hx => ?_; subst x; rotate_left; clear_value x) | (refine cut (a := Keeps st0 x.2) ?_ fun hx => ?_; subst x; rotate_left; clear_value x) | (refine cut (a := Keeps st0 x.2.2) ?_ fun hx => ?_; subst x; rotate_left; clear_value x) | (refine cut (a := Keeps st0 x.1) ?_ fun hx => ?_; subst x; rotate_left; clear_value x) | clear_value x)
    | split | refine pair_cut (by assumption) ?_ | refine pair_cut3 (by assumption) ?_ | refine pair_cut' (by assumption) ?_
    | fail_if_no_progress dsimp only

theorem ctxStart_keeps {st0 : State} (s : State) (c : Nat) (d : Dispatch) (hk0 : Keeps st0 s) :
    Keeps st0 (ctxStart s c d) := by
  unfold ctxStart
  with_reducible repeat' first
    | assumption | (intro) | apply each_keeps | apply ctxSet_keeps | apply ctxEnd_keeps | apply bundleCount_keeps | apply laneLoad_keeps
    | fail_if_no_progress (apply Keeps.lit)
    | (extract_lets +onlyGivenNames x; first | (refine cut (a := Keeps st0 x) ?_ fun hx => ?_; subst x; rotate_left; clear_value x) | clear_value x)
    | split

theorem ctxDispatch_keeps {st0 : State} (s : State) (c : Nat) (d : Dispatch) (hk0 : Keeps st0 s) :
    Keeps st0 (ctxDispatch s c d) := by
  unfold ctxDispatch
  with_reducible repeat' first
    | assumption | apply ctxSet_keeps | apply ctxStart_keeps | fail_if_no_progress (apply Keeps.lit)
    | (extract_lets +onlyGivenNames x; first | (refine cut (a := Keeps st0 x) ?_ fun hx => ?_; subst x; rotate_left; clear_value x) | clear_value x)
    | split

theorem hubSet_keeps {st0 : State} (s : State) (f : Nat) (h : HubCvu) (hk0 : Keeps st0 s) :
    Keeps st0 (hubSet s f h) := by
  unfold hubSet
  with_reducible repeat' first
    | assumption | fail_if_no_progress (apply Keeps.lit)

theorem hubReset_keeps {st0 : State} (s : State) (f : Nat) (hk0 : Keeps st0 s) :
    Keeps st0 (hubReset s f) := by
  unfold hubReset
  with_reducible repeat' first
    | assumption | apply odReset_keeps | fail_if_no_progress (apply Keeps.lit)

theorem jobsSet_keeps {st0 : State} (s : State) (k : Nat) (l : List Job) (hk0 : Keeps st0 s) :
    Keeps st0 (jobsSet s k l) := by
  unfold jobsSet
  with_reducible repeat' first
    | assumption | fail_if_no_progress (apply Keeps.lit)

theorem jobPush_keeps {st0 : State} (s : State) (k : Nat) (j : Job) (hk0 : Keeps st0 s) :
    Keeps st0 (jobPush s k j) := by
  unfold jobPush
  with_reducible repeat' first
    | assumption | apply jobsSet_keeps

theorem inflightAdd_keeps {st0 : State} (s : State) (e : Nat) (n : Int) (hk0 : Keeps st0 s) :
    Keeps st0 (inflightAdd s e n) := by
  unfold inflightAdd
  with_reducible repeat' first
    | assumption | fail_if_no_progress (apply Keeps.lit)

theorem jobIssue_keeps {st0 : State} (s : State) (k : Nat) (j : Job) (hk0 : Keeps st0 s) :
    Keeps st0 (jobIssue s k j) := by
  unfold jobIssue
  with_reducible repeat' first
    | assumption | apply jobPush_keeps | apply inflightAdd_keeps | fail_if_no_progress (apply Keeps.lit)
    | (extract_lets +onlyGivenNames x; first | (refine cut (a := Keeps st0 x) ?_ fun hx => ?_; subst x; rotate_left; clear_value x) | clear_value x)
    | split

theorem cdmaIssue_keeps {st0 : State} (l : Nat) (ch : Nat) (s : State) (hk0 : Keeps st0 s) :
    Keeps st0 (cdmaIssue l ch s) := by
  unfold cdmaIssue
  with_reducible repeat' first
    | assumption | apply laneSet_keeps | apply partTouch_keeps | apply jobIssue_keeps | fail_if_no_progress (apply Keeps.lit)
    | (extract_lets +onlyGivenNames x; first | (refine cut (a := Keeps st0 x) ?_ fun hx => ?_; subst x; rotate_left; clear_value x) | clear_value x)
    | split

theorem lineLoadAt_keeps {st0 : State} (s : State) (part : Nat) (ecc : List EccEvent) (a : Nat) (hk0 : Keeps st0 s) :
    Keeps st0 (lineLoadAt s part ecc a).2 := by
  unfold lineLoadAt
  with_reducible repeat' first
    | assumption | (intro) | apply bump32_keeps | apply bump64_keeps | apply corrected_keeps | apply sramRead_keeps
    | fail_if_no_progress (apply Keeps.lit)
    | (extract_lets +onlyGivenNames x; first | (refine cut (a := Keeps st0 x) ?_ fun hx => ?_; subst x; rotate_left; clear_value x) | (refine cut (a := Keeps st0 x.2) ?_ fun hx => ?_; subst x; rotate_left; clear_value x) | (refine cut (a := Keeps st0 x.2.2) ?_ fun hx => ?_; subst x; rotate_left; clear_value x) | (refine cut (a := Keeps st0 x.1) ?_ fun hx => ?_; subst x; rotate_left; clear_value x) | clear_value x)
    | split | refine pair_cut (by assumption) ?_ | refine pair_cut3 (by assumption) ?_ | refine pair_cut' (by assumption) ?_
    | fail_if_no_progress dsimp only

theorem lineStoreAt_keeps {st0 : State} (s : State) (part : Nat) (a : Nat) (bs : List Byte) (hk0 : Keeps st0 s) :
    Keeps st0 (lineStoreAt s part a bs).1 := by
  unfold lineStoreAt
  with_reducible repeat' first
    | assumption | apply hbmPut_keeps | apply sramPut_keeps | fail_if_no_progress (apply Keeps.lit) | split

theorem loadLines_keeps {st0 : State} (s : State) (part : Nat) (ecc : List EccEvent) (as : List Nat) (hk0 : Keeps st0 s) :
    Keeps st0 (loadLines s part ecc as).2 := by
  unfold loadLines
  with_reducible repeat' first
    | assumption | (intro) | apply lineLoadAt_keeps | apply foldl_keeps | apply foldl_keeps2 | apply foldl_keeps1
    | (extract_lets +onlyGivenNames x; first | (refine cut (a := Keeps st0 x) ?_ fun hx => ?_; subst x; rotate_left; clear_value x) | (refine cut (a := Keeps st0 x.2) ?_ fun hx => ?_; subst x; rotate_left; clear_value x) | (refine cut (a := Keeps st0 x.2.2) ?_ fun hx => ?_; subst x; rotate_left; clear_value x) | (refine cut (a := Keeps st0 x.1) ?_ fun hx => ?_; subst x; rotate_left; clear_value x) | clear_value x)
    | split | refine pair_cut (by assumption) ?_ | refine pair_cut3 (by assumption) ?_ | refine pair_cut' (by assumption) ?_
    | fail_if_no_progress dsimp only

theorem storeLines_keeps {st0 : State} (s : State) (part : Nat) (l : List (Nat × Option (List Byte))) (hk0 : Keeps st0 s) :
    Keeps st0 (storeLines s part l).1 := by
  unfold storeLines
  with_reducible repeat' first
    | assumption | (intro) | apply lineStoreAt_keeps | apply foldl_keeps | apply foldl_keeps2 | apply foldl_keeps1
    | fail_if_no_progress (apply Keeps.lit)
    | (extract_lets +onlyGivenNames x; first | (refine cut (a := Keeps st0 x) ?_ fun hx => ?_; subst x; rotate_left; clear_value x) | (refine cut (a := Keeps st0 x.2) ?_ fun hx => ?_; subst x; rotate_left; clear_value x) | (refine cut (a := Keeps st0 x.2.2) ?_ fun hx => ?_; subst x; rotate_left; clear_value x) | (refine cut (a := Keeps st0 x.1) ?_ fun hx => ?_; subst x; rotate_left; clear_value x) | clear_value x)
    | split | refine pair_cut (by assumption) ?_ | refine pair_cut3 (by assumption) ?_ | refine pair_cut' (by assumption) ?_
    | fail_if_no_progress dsimp only

theorem moveLines_keeps {st0 : State} (s : State) (part : Nat) (d : W512) (ecc : List EccEvent) (src : List Nat) (dst : List Nat) (hk0 : Keeps st0 s) :
    Keeps st0 (moveLines s part d ecc src dst).1 := by
  unfold moveLines
  with_reducible repeat' first
    | assumption | (intro) | apply loadLines_keeps | apply storeLines_keeps
    | (extract_lets +onlyGivenNames x; first | (refine cut (a := Keeps st0 x) ?_ fun hx => ?_; subst x; rotate_left; clear_value x) | (refine cut (a := Keeps st0 x.2) ?_ fun hx => ?_; subst x; rotate_left; clear_value x) | (refine cut (a := Keeps st0 x.2.2) ?_ fun hx => ?_; subst x; rotate_left; clear_value x) | (refine cut (a := Keeps st0 x.1) ?_ fun hx => ?_; subst x; rotate_left; clear_value x) | clear_value x)
    | split | refine pair_cut (by assumption) ?_ | refine pair_cut3 (by assumption) ?_ | refine pair_cut' (by assumption) ?_
    | fail_if_no_progress dsimp only

theorem moveFill_keeps {st0 : State} (s : State) (part : Nat) (d : W512) (hk0 : Keeps st0 s) :
    Keeps st0 (moveFill s part d).1 := by
  unfold moveFill
  with_reducible repeat' first
    | assumption | (intro) | apply storeLines_keeps
    | (extract_lets +onlyGivenNames x; first | (refine cut (a := Keeps st0 x) ?_ fun hx => ?_; subst x; rotate_left; clear_value x) | (refine cut (a := Keeps st0 x.2) ?_ fun hx => ?_; subst x; rotate_left; clear_value x) | (refine cut (a := Keeps st0 x.2.2) ?_ fun hx => ?_; subst x; rotate_left; clear_value x) | (refine cut (a := Keeps st0 x.1) ?_ fun hx => ?_; subst x; rotate_left; clear_value x) | clear_value x)
    | split | refine pair_cut (by assumption) ?_ | refine pair_cut3 (by assumption) ?_ | refine pair_cut' (by assumption) ?_
    | fail_if_no_progress dsimp only

theorem listEntry_keeps {st0 : State} (s : State) (part : Nat) (ecc : List EccEvent) (first : Bool) (a : Nat) (hk0 : Keeps st0 s) :
    Keeps st0 (listEntry s part ecc first a).2.2 := by
  unfold listEntry
  with_reducible repeat' first
    | assumption | apply lineLoadAt_keeps
    | (extract_lets +onlyGivenNames x; first | (refine cut (a := Keeps st0 x) ?_ fun hx => ?_; subst x; rotate_left; clear_value x) | (refine cut (a := Keeps st0 x.2) ?_ fun hx => ?_; subst x; rotate_left; clear_value x) | (refine cut (a := Keeps st0 x.2.2) ?_ fun hx => ?_; subst x; rotate_left; clear_value x) | (refine cut (a := Keeps st0 x.1) ?_ fun hx => ?_; subst x; rotate_left; clear_value x) | clear_value x)
    | split | refine pair_cut (by assumption) ?_ | refine pair_cut3 (by assumption) ?_ | refine pair_cut' (by assumption) ?_
    | fail_if_no_progress dsimp only

theorem pagesGo_keeps {st0 : State} (k part : Nat) (d : W512) (ecc : List EccEvent) (rd : Bool) (n i : Nat) (s : State) (m : Moved)
    (hk0 : Keeps st0 s) : Keeps st0 (pagesGo k part d ecc rd n i s m).1 := by
  induction n generalizing s i m with
  | zero => exact hk0
  | succ n ih =>
    unfold pagesGo
    repeat' first
      | with_reducible assumption
      | (intro)
      | with_reducible apply ih
      | with_reducible apply bumpBy_keeps
      | with_reducible apply moveLines_keeps
      | with_reducible apply listEntry_keeps
      | fail_if_no_progress (with_reducible apply Keeps.lit)
      | fail_if_no_progress (with_reducible apply Keeps.lit')
      | (extract_lets +onlyGivenNames x; first | (refine cut (a := Keeps st0 x) ?_ fun hx => ?_; subst x; rotate_left; clear_value x) | (refine cut (a := Keeps st0 x.2) ?_ fun hx => ?_; subst x; rotate_left; clear_value x) | (refine cut (a := Keeps st0 x.1) ?_ fun hx => ?_; subst x; rotate_left; clear_value x) | clear_value x)
      | split
      | with_reducible refine pair_cut (by assumption) ?_
      | with_reducible refine pair_cut' (by assumption) ?_
      | with_reducible refine takeFrame_keeps (by assumption) ?_
      | with_reducible refine pair_cut3 (by assumption) ?_
      | dsimp only

theorem foldJob_keeps {st0 : State} (s : State) (k : Nat) (j : Job) (bs : List Byte) (hk0 : Keeps st0 s) :
    Keeps st0 (foldJob s k j bs) := by
  unfold foldJob
  with_reducible repeat' first
    | assumption | apply laneSet_keeps | apply hubSet_keeps | fail_if_no_progress (apply Keeps.lit)
    | (extract_lets +onlyGivenNames x; first | (refine cut (a := Keeps st0 x) ?_ fun hx => ?_; subst x; rotate_left; clear_value x) | clear_value x)
    | split

theorem releaseReads_keeps {st0 : State} (s : State) (j : Job) (hk0 : Keeps st0 s) :
    Keeps st0 (releaseReads s j) := by
  unfold releaseReads
  with_reducible repeat' first
    | assumption | apply inflightAdd_keeps | split

theorem jobDone_keeps {st0 : State} (s : State) (k : Nat) (i : Nat) (j : Job) (st : Fin 11) (hk0 : Keeps st0 s) :
    Keeps st0 (jobDone s k i j st) := by
  unfold jobDone
  with_reducible repeat' first
    | assumption | apply jobsSet_keeps | apply releaseReads_keeps | fail_if_no_progress (apply Keeps.lit)
    | (extract_lets +onlyGivenNames x; first | (refine cut (a := Keeps st0 x) ?_ fun hx => ?_; subst x; rotate_left; clear_value x) | clear_value x)

theorem jobFail_keeps {st0 : State} (s : State) (k : Nat) (i : Nat) (j : Job) (st : Fin 11) (hk0 : Keeps st0 s) :
    Keeps st0 (jobFail s k i j st) := by
  unfold jobFail
  with_reducible repeat' first
    | assumption | apply foldJob_keeps | apply jobDone_keeps | split

theorem copyReport_keeps {st0 : State} (s : State) (p : Nat) (j : Job) (st : Fin 11) (hk0 : Keeps st0 s) :
    Keeps st0 (copyReport s p j st) := by
  unfold copyReport
  with_reducible repeat' first
    | assumption | (intro) | fail_if_no_progress (apply Keeps.lit)
    | (extract_lets +onlyGivenNames x; first | (refine cut (a := Keeps st0 x) ?_ fun hx => ?_; subst x; rotate_left; clear_value x) | clear_value x)
    | split

theorem queueLost_keeps {st0 : State} (s : State) (k : Nat) (hk0 : Keeps st0 s) :
    Keeps st0 (queueLost s k) := by
  unfold queueLost
  with_reducible repeat' first
    | assumption | (intro) | apply each_keeps | apply releaseReads_keeps | apply copyReport_keeps | fail_if_no_progress (apply Keeps.lit)
    | (extract_lets +onlyGivenNames x; first | (refine cut (a := Keeps st0 x) ?_ fun hx => ?_; subst x; rotate_left; clear_value x) | clear_value x)
    | split

theorem aguField_keeps {st0 : State} (k : CoreId) (agu : Fin 2) (op : Nat) (slot : Nat) (s : State) (hk0 : Keeps st0 s) :
    Keeps st0 (aguField k agu op slot s) := by
  unfold aguField
  with_reducible repeat' first
    | assumption | apply resState_keeps | apply execAguStart_keeps | apply execAguAdvance_keeps | apply execAguStop_keeps
    | fail_if_no_progress (apply Keeps.lit)
    | (extract_lets +onlyGivenNames x; first | (refine cut (a := Keeps st0 x) ?_ fun hx => ?_; subst x; rotate_left; clear_value x) | clear_value x)
    | split

theorem engineField_keeps {st0 : State} (k : CoreId) (w : Nat) (s : State) (hk0 : Keeps st0 s) :
    Keeps st0 (engineField k w s) := by
  unfold engineField
  with_reducible repeat' first
    | assumption | apply resState_keeps | apply execTile_keeps | apply execReadout_keeps | apply execTileRead_keeps
    | fail_if_no_progress (apply Keeps.lit) | split

theorem vectorOp_keeps {st0 s : State} {n : Nat} {f : CoreId → VArgs → State → Res} (e : vectorOp n = some f) (k : CoreId) (a : VArgs)
    (hk0 : Keeps st0 s) : ResKeeps st0 (f k a s) := by
  unfold vectorOp at e
  split at e <;> cases e
  · exact execFadd_keeps _ _ _ hk0
  · exact execFsub_keeps _ _ _ hk0
  · exact execFmul_keeps _ _ _ hk0
  · exact execFma_keeps _ _ _ hk0
  · exact execFmin_keeps _ _ _ hk0
  · exact execFmax_keeps _ _ _ hk0
  · exact execFcmplt_keeps _ _ _ hk0
  · exact execFcmpeq_keeps _ _ _ hk0
  · exact execIadd_keeps _ _ _ hk0
  · exact execIsub_keeps _ _ _ hk0
  · exact execImul_keeps _ _ _ hk0
  · exact execIadds_keeps _ _ _ hk0
  · exact execIsubs_keeps _ _ _ hk0
  · exact execAnd_keeps _ _ _ hk0
  · exact execOr_keeps _ _ _ hk0
  · exact execXor_keeps _ _ _ hk0
  · exact execShl_keeps _ _ _ hk0
  · exact execShr_keeps _ _ _ hk0
  · exact execSar_keeps _ _ _ hk0
  · exact execCvt_keeps _ _ _ hk0
  · exact execExp2_keeps _ _ _ hk0
  · exact execLog2_keeps _ _ _ hk0
  · exact execRsqrt_keeps _ _ _ hk0
  · exact execRecip_keeps _ _ _ hk0
  · exact execRsum_keeps _ _ _ hk0
  · exact execRmax_keeps _ _ _ hk0
  · exact execRmin_keeps _ _ _ hk0
  · exact execRmerge_keeps _ _ _ hk0
  · exact execVecLoad_keeps _ _ _ hk0
  · exact execVecStore_keeps _ _ _ hk0
  · exact execShadow_keeps _ _ _ hk0
  · exact execFlags_keeps _ _ _ hk0
  · exact execSetup_keeps _ _ _ hk0
  · exact execParam_keeps _ _ _ hk0
  · exact execVecPost_keeps _ _ _ hk0

theorem entryRun_keeps {st0 : State} (k : CoreId) (s : State) (e : BitVec 64) (hk0 : Keeps st0 s) : Keeps st0 (entryRun k s e) := by
  unfold entryRun
  split
  · next h => exact resState_keeps _ _ (vectorOp_keeps h k _ hk0)
  · exact hk0

theorem ldmaField_keeps {st0 : State} (k : CoreId) (w : Nat) (s : State) (hk0 : Keeps st0 s) :
    Keeps st0 (ldmaField k w s) := by
  unfold ldmaField
  with_reducible repeat' first
    | assumption | apply resState_keeps | apply execLocalToCluster_keeps | apply execClusterToLocal_keeps
    | fail_if_no_progress (apply Keeps.lit)
    | (extract_lets +onlyGivenNames x; first | (refine cut (a := Keeps st0 x) ?_ fun hx => ?_; subst x; rotate_left; clear_value x) | clear_value x)
    | split

theorem flagsPut_keeps {st0 : State} (s : State) (k : CoreId) (f : BitVec 4) (hk0 : Keeps st0 s) :
    Keeps st0 (flagsPut s k f) := by
  unfold flagsPut
  with_reducible repeat' first
    | assumption | apply coreSet_keeps | fail_if_no_progress (apply Keeps.lit) | split

theorem engineBeat_keeps {st0 : State} (k : CoreId) (w : Nat) (s : State) (hk0 : Keeps st0 s) :
    Keeps st0 (engineBeat k w s) := by
  unfold engineBeat
  with_reducible repeat' first
    | assumption | (intro) | apply engineField_keeps | apply entryRun_keeps | apply flagsPut_keeps | apply foldl_keeps | apply foldl_keeps2
    | apply foldl_keeps1
    | (extract_lets +onlyGivenNames x; first | (refine cut (a := Keeps st0 x) ?_ fun hx => ?_; subst x; rotate_left; clear_value x) | (refine cut (a := Keeps st0 x.2) ?_ fun hx => ?_; subst x; rotate_left; clear_value x) | (refine cut (a := Keeps st0 x.2.2) ?_ fun hx => ?_; subst x; rotate_left; clear_value x) | (refine cut (a := Keeps st0 x.1) ?_ fun hx => ?_; subst x; rotate_left; clear_value x) | clear_value x)
    | split | fail_if_no_progress dsimp only

theorem coreBeat_keeps {st0 : State} (k : CoreId) (w : Nat) (s : State) (hk0 : Keeps st0 s) :
    Keeps st0 (coreBeat k w s) := by
  unfold coreBeat
  with_reducible repeat' first
    | assumption | apply aguField_keeps | apply ldmaField_keeps | apply engineBeat_keeps
    | (extract_lets +onlyGivenNames x; first | (refine cut (a := Keeps st0 x) ?_ fun hx => ?_; subst x; rotate_left; clear_value x) | clear_value x)

theorem stallCount_keeps {st0 : State} (s : State) (l : Nat) (hk0 : Keeps st0 s) :
    Keeps st0 (stallCount s l) := by
  unfold stallCount
  with_reducible repeat' first
    | assumption | apply freeStep_keeps | apply bumpBy_keeps

theorem laneBeat_keeps {st0 : State} (l : Clus) (sl : Slice) (s : State) (hk0 : Keeps st0 s) :
    Keeps st0 (laneBeat l sl s) := by
  unfold laneBeat
  with_reducible repeat' first
    | assumption | (intro) | apply each_keeps | apply cdmaIssue_keeps | apply coreBeat_keeps | apply stallCount_keeps
    | (extract_lets +onlyGivenNames x; first | (refine cut (a := Keeps st0 x) ?_ fun hx => ?_; subst x; rotate_left; clear_value x) | clear_value x)
    | split

theorem laneRepeat_keeps {st0 : State} (l : Clus) (sl : Slice) (s : State) (hk0 : Keeps st0 s) :
    Keeps st0 (laneRepeat l sl s) := by
  unfold laneRepeat
  with_reducible repeat' first
    | assumption | apply laneSet_keeps | apply laneBeat_keeps | fail_if_no_progress (apply Keeps.lit)
    | (extract_lets +onlyGivenNames x; first | (refine cut (a := Keeps st0 x) ?_ fun hx => ?_; subst x; rotate_left; clear_value x) | clear_value x)
    | split

theorem laneStart_keeps {st0 : State} (l : Clus) (sl : Slice) (s : State) (hk0 : Keeps st0 s) :
    Keeps st0 (laneStart l sl s) := by
  unfold laneStart
  with_reducible repeat' first
    | assumption | apply laneSet_keeps | apply laneFault_keeps | apply slipNote_keeps | apply laneBeat_keeps
    | fail_if_no_progress (apply Keeps.lit)
    | (extract_lets +onlyGivenNames x; first | (refine cut (a := Keeps st0 x) ?_ fun hx => ?_; subst x; rotate_left; clear_value x) | clear_value x)
    | split

theorem laneNext_keeps {st0 : State} (l : Clus) (c : Nat) (s : State) (hk0 : Keeps st0 s) :
    Keeps st0 (laneNext l c s) := by
  unfold laneNext
  with_reducible repeat' first
    | assumption | apply bump64_keeps | apply laneStart_keeps | fail_if_no_progress (apply Keeps.lit)
    | (extract_lets +onlyGivenNames x; first | (refine cut (a := Keeps st0 x) ?_ fun hx => ?_; subst x; rotate_left; clear_value x) | clear_value x)
    | split

theorem statusVec_keeps {st0 : State} (s : State) (p : Nat) (hk0 : Keeps st0 s) :
    Keeps st0 (statusVec s p) := by
  unfold statusVec
  with_reducible repeat' first
    | assumption | apply msixSend_keeps

theorem backlogSet_keeps {st0 : State} (s : State) (f : Nat) (c : Nat) (l : List (BitVec 256)) (hk0 : Keeps st0 s) :
    Keeps st0 (backlogSet s f c l) := by
  unfold backlogSet
  with_reducible repeat' first
    | assumption | fail_if_no_progress (apply Keeps.lit) | split

theorem freeFinal_keeps {st0 : State} (s : State) (e : BitVec 256) (hk0 : Keeps st0 s) :
    Keeps st0 (freeFinal s e) := by
  unfold freeFinal
  with_reducible repeat' first
    | assumption | fail_if_no_progress (apply Keeps.lit)
    | (extract_lets +onlyGivenNames x; first | (refine cut (a := Keeps st0 x) ?_ fun hx => ?_; subst x; rotate_left; clear_value x) | clear_value x)
    | split

theorem complWrite_keeps {st0 : State} (s : State) (f : Nat) (c : Nat) (e : BitVec 256) (hk0 : Keeps st0 s) :
    Keeps st0 (complWrite s f c e) := by
  unfold complWrite
  with_reducible repeat' first
    | assumption | apply emit_keeps | apply fnSet_keeps | apply msixSend_keeps | apply freeFinal_keeps
    | fail_if_no_progress (apply Keeps.lit)
    | (extract_lets +onlyGivenNames x; first | (refine cut (a := Keeps st0 x) ?_ fun hx => ?_; subst x; rotate_left; clear_value x) | clear_value x)
    | split

theorem complPush_keeps {st0 : State} (s : State) (f : Nat) (c : Nat) (e : BitVec 256) (hk0 : Keeps st0 s) :
    Keeps st0 (complPush s f c e) := by
  unfold complPush
  with_reducible repeat' first
    | assumption | apply backlogSet_keeps | apply freeFinal_keeps | apply complWrite_keeps
    | (extract_lets +onlyGivenNames x; first | (refine cut (a := Keeps st0 x) ?_ fun hx => ?_; subst x; rotate_left; clear_value x) | clear_value x)
    | split

theorem backlogDrain_keeps {st0 : State} (s : State) (f c n : Nat) (hk0 : Keeps st0 s) : Keeps st0 (backlogDrain s f c n) := by
  induction n generalizing s with
  | zero => exact hk0
  | succ n ih =>
    unfold backlogDrain
    repeat' first
      | with_reducible assumption
      | (intro)
      | with_reducible apply ih
      | with_reducible apply complWrite_keeps
      | with_reducible apply backlogSet_keeps
      | fail_if_no_progress (with_reducible apply Keeps.lit)
      | fail_if_no_progress (with_reducible apply Keeps.lit')
      | (extract_lets +onlyGivenNames x; first | (refine cut (a := Keeps st0 x) ?_ fun hx => ?_; subst x; rotate_left; clear_value x) | (refine cut (a := Keeps st0 x.2) ?_ fun hx => ?_; subst x; rotate_left; clear_value x) | (refine cut (a := Keeps st0 x.1) ?_ fun hx => ?_; subst x; rotate_left; clear_value x) | clear_value x)
      | split
      | with_reducible refine pair_cut (by assumption) ?_
      | with_reducible refine pair_cut' (by assumption) ?_
      | with_reducible refine takeFrame_keeps (by assumption) ?_

theorem complTo_keeps {st0 : State} (s : State) (p : Nat) (ring : Nat) (c : Compl) (hk0 : Keeps st0 s) :
    Keeps st0 (complTo s p ring c) := by
  unfold complTo
  with_reducible repeat' first
    | assumption | apply complPush_keeps

theorem eventTo_keeps {st0 : State} (s : State) (p : Nat) (status : Nat) (value : Nat) (hk0 : Keeps st0 s) :
    Keeps st0 (eventTo s p status value) := by
  unfold eventTo
  with_reducible repeat' first
    | assumption | apply complTo_keeps

theorem keySlotSet_keeps {st0 : State} (s : State) (n : Nat) (k : KeySlot) (hk0 : Keeps st0 s) :
    Keeps st0 (keySlotSet s n k) := by
  unfold keySlotSet
  with_reducible repeat' first
    | assumption | fail_if_no_progress (apply Keeps.lit)

theorem granScrub_keeps {st0 : State} (s : State) (g : Nat) (hk0 : Keeps st0 s) :
    Keeps st0 (granScrub s g) := by
  unfold granScrub
  with_reducible repeat' first
    | assumption | apply granSet_keeps
    | (extract_lets +onlyGivenNames x; first | (refine cut (a := Keeps st0 x) ?_ fun hx => ?_; subst x; rotate_left; clear_value x) | clear_value x)

theorem poolSet_keeps {st0 : State} (s : State) (p : Nat) (x : Pool) (hk0 : Keeps st0 s) :
    Keeps st0 (poolSet s p x) := by
  unfold poolSet
  with_reducible repeat' first
    | assumption | fail_if_no_progress (apply Keeps.lit)

theorem extentMark_keeps {st0 : State} (s : State) (p : Nat) (exp : Option Nat) (e : Extent) (hk0 : Keeps st0 s) :
    Keeps st0 (extentMark s p exp e) := by
  unfold extentMark
  with_reducible repeat' first
    | assumption | (intro) | apply each_keeps | apply granSet_keeps | fail_if_no_progress (apply Keeps.lit)
    | (extract_lets +onlyGivenNames x; first | (refine cut (a := Keeps st0 x) ?_ fun hx => ?_; subst x; rotate_left; clear_value x) | clear_value x)
    | split

theorem poolLayout_keeps {st0 : State} (s : State) (p : Nat) (v : Nat) (exp : Option Nat) (hk0 : Keeps st0 s) :
    Keeps st0 (poolLayout s p v exp) := by
  unfold poolLayout
  with_reducible repeat' first
    | assumption | (intro) | apply each_keeps | apply granScrub_keeps | apply poolSet_keeps | apply extentMark_keeps | apply foldl_keeps
    | apply foldl_keeps2 | apply foldl_keeps1 | fail_if_no_progress (apply Keeps.lit)
    | (extract_lets +onlyGivenNames x; first | (refine cut (a := Keeps st0 x) ?_ fun hx => ?_; subst x; rotate_left; clear_value x) | (refine cut (a := Keeps st0 x.2) ?_ fun hx => ?_; subst x; rotate_left; clear_value x) | (refine cut (a := Keeps st0 x.2.2) ?_ fun hx => ?_; subst x; rotate_left; clear_value x) | (refine cut (a := Keeps st0 x.1) ?_ fun hx => ?_; subst x; rotate_left; clear_value x) | clear_value x)
    | split | refine pair_cut (by assumption) ?_ | refine pair_cut3 (by assumption) ?_ | refine pair_cut' (by assumption) ?_
    | fail_if_no_progress dsimp only

theorem poolRaise_keeps {st0 : State} (s : State) (p : Nat) (v : Nat) (hk0 : Keeps st0 s) :
    Keeps st0 (poolRaise s p v) := by
  unfold poolRaise
  with_reducible repeat' first
    | assumption | (intro) | apply poolSet_keeps | apply extentMark_keeps | apply foldl_keeps | apply foldl_keeps2 | apply foldl_keeps1
    | fail_if_no_progress (apply Keeps.lit)
    | (extract_lets +onlyGivenNames x; first | (refine cut (a := Keeps st0 x) ?_ fun hx => ?_; subst x; rotate_left; clear_value x) | (refine cut (a := Keeps st0 x.2) ?_ fun hx => ?_; subst x; rotate_left; clear_value x) | (refine cut (a := Keeps st0 x.2.2) ?_ fun hx => ?_; subst x; rotate_left; clear_value x) | (refine cut (a := Keeps st0 x.1) ?_ fun hx => ?_; subst x; rotate_left; clear_value x) | clear_value x)
    | split | refine pair_cut (by assumption) ?_ | refine pair_cut3 (by assumption) ?_ | refine pair_cut' (by assumption) ?_
    | fail_if_no_progress dsimp only

theorem epochTick_keeps {st0 : State} (s : State) (hk0 : Keeps st0 s) :
    Keeps st0 (epochTick s) := by
  unfold epochTick
  with_reducible repeat' first
    | assumption | fail_if_no_progress (apply Keeps.lit) | split

theorem frameFree_keeps {st0 : State} (s : State) (p : Nat) (f : Nat) (hk0 : Keeps st0 s) :
    Keeps st0 (frameFree s p f) := by
  unfold frameFree
  with_reducible repeat' first
    | assumption | apply frameSet_keeps

theorem frameUse_keeps {st0 : State} (s : State) (p : Nat) (f : Nat) (classE : Bool) (hk0 : Keeps st0 s) :
    Keeps st0 (frameUse s p f classE) := by
  unfold frameUse
  with_reducible repeat' first
    | assumption | apply frameSet_keeps | fail_if_no_progress (apply Keeps.lit)

theorem decRef_keeps {st0 : State} (s : State) (p : Nat) (f : Nat) (hk0 : Keeps st0 s) :
    Keeps st0 (decRef s p f) := by
  unfold decRef
  with_reducible repeat' first
    | assumption | apply frameSet_keeps | fail_if_no_progress (apply Keeps.lit)
    | (extract_lets +onlyGivenNames x; first | (refine cut (a := Keeps st0 x) ?_ fun hx => ?_; subst x; rotate_left; clear_value x) | clear_value x)
    | split

theorem incRef_keeps {st0 : State} (s : State) (p : Nat) (f : Nat) (hk0 : Keeps st0 s) :
    Keeps st0 (incRef s p f) := by
  unfold incRef
  with_reducible repeat' first
    | assumption | apply frameSet_keeps | fail_if_no_progress (apply Keeps.lit)
    | (extract_lets +onlyGivenNames x; first | (refine cut (a := Keeps st0 x) ?_ fun hx => ?_; subst x; rotate_left; clear_value x) | clear_value x)

theorem tableSet_keeps {st0 : State} (s : State) (b : Bool) (t : SMap IdxWay) (hk0 : Keeps st0 s) :
    Keeps st0 (tableSet s b t) := by
  unfold tableSet
  with_reducible repeat' first
    | assumption | fail_if_no_progress (apply Keeps.lit) | split

theorem waysHold_keeps {st0 : State} (s : State) (p : Nat) (old : Nat) (w : Nat) (hk0 : Keeps st0 s) :
    Keeps st0 (waysHold s p old w) := by
  unfold waysHold
  with_reducible repeat' first
    | assumption | (intro) | fail_if_no_progress (apply Keeps.lit)
    | (extract_lets +onlyGivenNames x; first | (refine cut (a := Keeps st0 x) ?_ fun hx => ?_; subst x; rotate_left; clear_value x) | clear_value x)
    | split

theorem idxErase_keeps {st0 : State} (s : State) (p : Nat) (brec : Nat) (h : BitVec 64) (hk0 : Keeps st0 s) :
    Keeps st0 (idxErase s p brec h) := by
  unfold idxErase
  with_reducible repeat' first
    | assumption | (intro) | fail_if_no_progress (apply Keeps.lit)
    | (extract_lets +onlyGivenNames x; first | (refine cut (a := Keeps st0 x) ?_ fun hx => ?_; subst x; rotate_left; clear_value x) | clear_value x)

theorem idxDrop_keeps {st0 : State} (s : State) (e : IdxWay) (hk0 : Keeps st0 s) :
    Keeps st0 (idxDrop s e) := by
  unfold idxDrop
  with_reducible repeat' first
    | assumption | (intro) | apply each_keeps | apply poolSet_keeps | apply decRef_keeps | apply idxErase_keeps
    | fail_if_no_progress (apply Keeps.lit)
    | (extract_lets +onlyGivenNames x; first | (refine cut (a := Keeps st0 x) ?_ fun hx => ?_; subst x; rotate_left; clear_value x) | clear_value x)
    | split

theorem wayPut_keeps {st0 : State} (s : State) (b : Bool) (w : Nat) (e : IdxWay) (hk0 : Keeps st0 s) :
    Keeps st0 (wayPut s b w e) := by
  unfold wayPut
  with_reducible repeat' first
    | assumption | apply tableSet_keeps

theorem arrive_keeps {st0 : State} (s : State) (b : Bool) (e : IdxWay) (hk0 : Keeps st0 s) :
    Keeps st0 (arrive s b e) := by
  unfold arrive
  with_reducible repeat' first
    | assumption | (intro) | apply idxDrop_keeps | apply wayPut_keeps | fail_if_no_progress (apply Keeps.lit)
    | (extract_lets +onlyGivenNames x; first | (refine cut (a := Keeps st0 x) ?_ fun hx => ?_; subst x; rotate_left; clear_value x) | clear_value x)
    | split

theorem matchTake_keeps {st0 : State} (s : State) (h : Nat) (i : Nat) (br : BlockRec) (hk0 : Keeps st0 s) :
    Keeps st0 (matchTake s h i br) := by
  unfold matchTake
  with_reducible repeat' first
    | assumption | (intro) | apply each_keeps | apply incRef_keeps | apply reqSet_keeps | apply foldl_keeps | apply foldl_keeps2
    | apply foldl_keeps1 | fail_if_no_progress (apply Keeps.lit)
    | (extract_lets +onlyGivenNames x; first | (refine cut (a := Keeps st0 x) ?_ fun hx => ?_; subst x; rotate_left; clear_value x) | (refine cut (a := Keeps st0 x.2) ?_ fun hx => ?_; subst x; rotate_left; clear_value x) | (refine cut (a := Keeps st0 x.2.2) ?_ fun hx => ?_; subst x; rotate_left; clear_value x) | (refine cut (a := Keeps st0 x.1) ?_ fun hx => ?_; subst x; rotate_left; clear_value x) | clear_value x)
    | split | fail_if_no_progress dsimp only

theorem matchGo_keeps {st0 : State} (h n i parent : Nat) (s : State) (hk0 : Keeps st0 s) :
    Keeps st0 (matchGo h n i parent s).2 := by
  induction n generalizing s i parent with
  | zero => exact hk0
  | succ n ih =>
    unfold matchGo
    repeat' first
      | with_reducible assumption
      | (intro)
      | with_reducible apply ih
      | with_reducible apply idxErase_keeps
      | with_reducible apply matchTake_keeps
      | with_reducible apply tableSet_keeps
      | with_reducible apply arrive_keeps
      | with_reducible apply bump64_keeps
      | with_reducible apply bump32_keeps
      | with_reducible apply idxDrop_keeps
      | fail_if_no_progress (with_reducible apply Keeps.lit)
      | fail_if_no_progress (with_reducible apply Keeps.lit')
      | (extract_lets +onlyGivenNames x; first | (refine cut (a := Keeps st0 x) ?_ fun hx => ?_; subst x; rotate_left; clear_value x) | (refine cut (a := Keeps st0 x.2) ?_ fun hx => ?_; subst x; rotate_left; clear_value x) | (refine cut (a := Keeps st0 x.1) ?_ fun hx => ?_; subst x; rotate_left; clear_value x) | clear_value x)
      | split
      | with_reducible refine pair_cut (by assumption) ?_
      | with_reducible refine pair_cut' (by assumption) ?_
      | with_reducible refine takeFrame_keeps (by assumption) ?_

theorem retainFix_keeps {st0 : State} (s : State) (p : Nat) (hk0 : Keeps st0 s) :
    Keeps st0 (retainFix s p) := by
  unfold retainFix
  with_reducible repeat' first
    | assumption | (intro) | apply each_keeps | apply reqSet_keeps | fail_if_no_progress (apply Keeps.lit)
    | (extract_lets +onlyGivenNames x; first | (refine cut (a := Keeps st0 x) ?_ fun hx => ?_; subst x; rotate_left; clear_value x) | clear_value x)
    | split

theorem prefixInsert_keeps {st0 : State} (s : State) (h : Nat) (i : Nat) (hk0 : Keeps st0 s) :
    Keeps st0 (prefixInsert s h i) := by
  unfold prefixInsert
  with_reducible repeat' first
    | assumption | (intro) | apply each_keeps | apply poolSet_keeps | apply incRef_keeps | apply reqSet_keeps | apply idxDrop_keeps
    | apply wayPut_keeps | apply foldl_keeps | apply foldl_keeps2 | apply foldl_keeps1 | fail_if_no_progress (apply Keeps.lit)
    | (extract_lets +onlyGivenNames x; first | (refine cut (a := Keeps st0 x) ?_ fun hx => ?_; subst x; rotate_left; clear_value x) | (refine cut (a := Keeps st0 x.2) ?_ fun hx => ?_; subst x; rotate_left; clear_value x) | (refine cut (a := Keeps st0 x.2.2) ?_ fun hx => ?_; subst x; rotate_left; clear_value x) | (refine cut (a := Keeps st0 x.1) ?_ fun hx => ?_; subst x; rotate_left; clear_value x) | clear_value x)
    | split | refine pair_cut (by assumption) ?_ | refine pair_cut3 (by assumption) ?_ | refine pair_cut' (by assumption) ?_
    | fail_if_no_progress dsimp only

theorem prefixInsertRange_keeps {st0 : State} (s : State) (h : Nat) (lo : Nat) (hi : Nat) (hk0 : Keeps st0 s) :
    Keeps st0 (prefixInsertRange s h lo hi) := by
  unfold prefixInsertRange
  with_reducible repeat' first
    | assumption | (intro) | apply each_keeps | apply prefixInsert_keeps
    | (extract_lets +onlyGivenNames x; first | (refine cut (a := Keeps st0 x) ?_ fun hx => ?_; subst x; rotate_left; clear_value x) | clear_value x)
    | split

theorem rebuildStart_keeps {st0 : State} (s : State) (rotated : List Nat) (retired : List (Nat × Nat)) (hk0 : Keeps st0 s) :
    Keeps st0 (rebuildStart s rotated retired) := by
  unfold rebuildStart
  with_reducible repeat' first
    | assumption | apply freeStep_keeps | apply tableSet_keeps | fail_if_no_progress (apply Keeps.lit)
    | (extract_lets +onlyGivenNames x; first | (refine cut (a := Keeps st0 x) ?_ fun hx => ?_; subst x; rotate_left; clear_value x) | clear_value x)
    | split

theorem rebuildAsk_keeps {st0 : State} (s : State) (rotated : List Nat) (retired : List (Nat × Nat)) (hk0 : Keeps st0 s) :
    Keeps st0 (rebuildAsk s rotated retired) := by
  unfold rebuildAsk
  with_reducible repeat' first
    | assumption | apply rebuildStart_keeps | fail_if_no_progress (apply Keeps.lit) | split

theorem rebuildRemoved_keeps {st0 : State} (s : State) (p : Nat) (hk0 : Keeps st0 s) :
    Keeps st0 (rebuildRemoved s p) := by
  unfold rebuildRemoved
  with_reducible repeat' first
    | assumption | (intro) | apply each_keeps | apply idxDrop_keeps | apply rebuildStart_keeps | fail_if_no_progress (apply Keeps.lit)
    | (extract_lets +onlyGivenNames x; first | (refine cut (a := Keeps st0 x) ?_ fun hx => ?_; subst x; rotate_left; clear_value x) | clear_value x)
    | split

theorem tableSwitch_keeps {st0 : State} (s : State) (hk0 : Keeps st0 s) :
    Keeps st0 (tableSwitch s) := by
  unfold tableSwitch
  with_reducible repeat' first
    | assumption | apply tableSet_keeps | apply rebuildStart_keeps | fail_if_no_progress (apply Keeps.lit)
    | (extract_lets +onlyGivenNames x; first | (refine cut (a := Keeps st0 x) ?_ fun hx => ?_; subst x; rotate_left; clear_value x) | clear_value x)
    | split

theorem variantUnprotect_keeps {st0 : State} (s : State) (p : Nat) (v : Variant) (hk0 : Keeps st0 s) :
    Keeps st0 (variantUnprotect s p v) := by
  unfold variantUnprotect
  with_reducible repeat' first
    | assumption | (intro) | apply each_keeps | apply granSet_keeps | fail_if_no_progress (apply Keeps.lit)
    | (extract_lets +onlyGivenNames x; first | (refine cut (a := Keeps st0 x) ?_ fun hx => ?_; subst x; rotate_left; clear_value x) | clear_value x)
    | split

theorem retireEnd_keeps {st0 : State} (s : State) (r : Rebuild) (hk0 : Keeps st0 s) :
    Keeps st0 (retireEnd s r) := by
  unfold retireEnd
  with_reducible repeat' first
    | assumption | (intro) | apply each_keeps | apply variantUnprotect_keeps | fail_if_no_progress (apply Keeps.lit)
    | (extract_lets +onlyGivenNames x; first | (refine cut (a := Keeps st0 x) ?_ fun hx => ?_; subst x; rotate_left; clear_value x) | clear_value x)

theorem switchCommit_keeps {st0 : State} (s : State) (hk0 : Keeps st0 s) :
    Keeps st0 (switchCommit s) := by
  unfold switchCommit
  with_reducible repeat' first
    | assumption | apply tableSwitch_keeps | apply retireEnd_keeps | fail_if_no_progress (apply Keeps.lit) | split

theorem portSet_keeps {st0 : State} (s : State) (p : Nat) (x : Port) (hk0 : Keeps st0 s) :
    Keeps st0 (portSet s p x) := by
  unfold portSet
  with_reducible repeat' first
    | assumption | fail_if_no_progress (apply Keeps.lit)

theorem linkDrain_keeps {st0 : State} (s : State) (p n : Nat) (hk0 : Keeps st0 s) : Keeps st0 (linkDrain s p n) := by
  induction n generalizing s with
  | zero => exact hk0
  | succ n ih =>
    unfold linkDrain
    repeat' first
      | with_reducible assumption
      | (intro)
      | with_reducible apply ih
      | with_reducible apply emit_keeps
      | with_reducible apply portSet_keeps
      | fail_if_no_progress (with_reducible apply Keeps.lit)
      | fail_if_no_progress (with_reducible apply Keeps.lit')
      | (extract_lets +onlyGivenNames x; first | (refine cut (a := Keeps st0 x) ?_ fun hx => ?_; subst x; rotate_left; clear_value x) | (refine cut (a := Keeps st0 x.2) ?_ fun hx => ?_; subst x; rotate_left; clear_value x) | (refine cut (a := Keeps st0 x.1) ?_ fun hx => ?_; subst x; rotate_left; clear_value x) | clear_value x)
      | split
      | with_reducible refine pair_cut (by assumption) ?_
      | with_reducible refine pair_cut' (by assumption) ?_
      | with_reducible refine takeFrame_keeps (by assumption) ?_

theorem linkQueue_keeps {st0 : State} (s : State) (p : Nat) (vc : Nat) (part : Nat) (bs : List Byte) (hk0 : Keeps st0 s) :
    Keeps st0 (linkQueue s p vc part bs) := by
  unfold linkQueue
  with_reducible repeat' first
    | assumption | (intro) | apply portSet_keeps | fail_if_no_progress (apply Keeps.lit)
    | (extract_lets +onlyGivenNames x; first | (refine cut (a := Keeps st0 x) ?_ fun hx => ?_; subst x; rotate_left; clear_value x) | clear_value x)
    | split

theorem linksDrain_keeps {st0 : State} (s : State) (hk0 : Keeps st0 s) :
    Keeps st0 (linksDrain s) := by
  unfold linksDrain
  with_reducible repeat' first
    | assumption | apply linkDrain_keeps

theorem domSwitch_keeps {st0 : State} (s : State) (n : Nat) (src : Nat) (hk0 : Keeps st0 s) :
    Keeps st0 (domSwitch s n src) := by
  unfold domSwitch
  with_reducible repeat' first
    | assumption | apply bump32_keeps | fail_if_no_progress (apply Keeps.lit)
    | (extract_lets +onlyGivenNames x; first | (refine cut (a := Keeps st0 x) ?_ fun hx => ?_; subst x; rotate_left; clear_value x) | clear_value x)

theorem haltBack_keeps {st0 : State} (s : State) (n : Nat) (hk0 : Keeps st0 s) :
    Keeps st0 (haltBack s n) := by
  unfold haltBack
  with_reducible repeat' first
    | assumption | fail_if_no_progress (apply Keeps.lit) | split

theorem refFall_keeps {st0 : State} (s : State) (hk0 : Keeps st0 s) :
    Keeps st0 (refFall s) := by
  unfold refFall
  with_reducible repeat' first
    | assumption | apply domSwitch_keeps | apply haltBack_keeps | split

theorem portAGone_keeps {st0 : State} (s : State) (hk0 : Keeps st0 s) :
    Keeps st0 (portAGone s) := by
  unfold portAGone
  with_reducible repeat' first
    | assumption | apply refFall_keeps | fail_if_no_progress (apply Keeps.lit)

theorem pktGo_keeps {st0 : State} (s : State) (port : Nat) (vc : Nat) (part : Nat) (p : Packet) (hk0 : Keeps st0 s) :
    Keeps st0 (pktGo s port vc part p) := by
  unfold pktGo
  with_reducible repeat' first
    | assumption | apply emit_keeps | apply linkQueue_keeps

theorem pktOut_keeps {st0 : State} (s : State) (dst : Nat) (g : Nat) (gen : Nat) (key : Nat) (part : Nat) (vc : Nat) (extra : Nat) (data : List Byte) (job : Option Nat) (hk0 : Keeps st0 s) :
    Keeps st0 (pktOut s dst g gen key part vc extra data job) := by
  unfold pktOut
  with_reducible repeat' first
    | assumption | apply pktGo_keeps | fail_if_no_progress (apply Keeps.lit)
    | (extract_lets +onlyGivenNames x; first | (refine cut (a := Keeps st0 x) ?_ fun hx => ?_; subst x; rotate_left; clear_value x) | clear_value x)
    | split

theorem g63Pump_keeps {st0 : State} (s : State) (n : Nat) (hk0 : Keeps st0 s) : Keeps st0 (g63Pump s n) := by
  induction n generalizing s with
  | zero => exact hk0
  | succ n ih =>
    unfold g63Pump
    repeat' first
      | with_reducible assumption
      | (intro)
      | with_reducible apply ih
      | with_reducible apply pktOut_keeps
      | fail_if_no_progress (with_reducible apply Keeps.lit)
      | fail_if_no_progress (with_reducible apply Keeps.lit')
      | (extract_lets +onlyGivenNames x; first | (refine cut (a := Keeps st0 x) ?_ fun hx => ?_; subst x; rotate_left; clear_value x) | (refine cut (a := Keeps st0 x.2) ?_ fun hx => ?_; subst x; rotate_left; clear_value x) | (refine cut (a := Keeps st0 x.1) ?_ fun hx => ?_; subst x; rotate_left; clear_value x) | clear_value x)
      | split
      | with_reducible refine pair_cut (by assumption) ?_
      | with_reducible refine pair_cut' (by assumption) ?_
      | with_reducible refine takeFrame_keeps (by assumption) ?_

theorem g63Send_keeps {st0 : State} (s : State) (o : Output) (bs : List Byte) (hk0 : Keeps st0 s) :
    Keeps st0 (g63Send s o bs) := by
  unfold g63Send
  with_reducible repeat' first
    | assumption | apply emit_keeps | apply linksDrain_keeps | apply g63Pump_keeps | fail_if_no_progress (apply Keeps.lit) | split

theorem reqCompl_keeps {st0 : State} (s : State) (h : Nat) (held : Bool) (c : Compl) (hk0 : Keeps st0 s) :
    Keeps st0 (reqCompl s h held c) := by
  unfold reqCompl
  with_reducible repeat' first
    | assumption | (intro) | apply complTo_keeps | fail_if_no_progress (apply Keeps.lit)
    | (extract_lets +onlyGivenNames x; first | (refine cut (a := Keeps st0 x) ?_ fun hx => ?_; subst x; rotate_left; clear_value x) | clear_value x)
    | split

theorem reqRelease_keeps {st0 : State} (s : State) (h : Nat) (hk0 : Keeps st0 s) :
    Keeps st0 (reqRelease s h) := by
  unfold reqRelease
  with_reducible repeat' first
    | assumption | (intro) | apply each_keeps | apply frameFree_keeps | apply decRef_keeps | apply reqSet_keeps | apply retainFix_keeps
    | fail_if_no_progress (apply Keeps.lit)
    | (extract_lets +onlyGivenNames x; first | (refine cut (a := Keeps st0 x) ?_ fun hx => ?_; subst x; rotate_left; clear_value x) | clear_value x)
    | split

theorem variantIdle_keeps {st0 : State} (s : State) (p : Nat) (hk0 : Keeps st0 s) :
    Keeps st0 (variantIdle s p) := by
  unfold variantIdle
  with_reducible repeat' first
    | assumption | (intro) | apply each_keeps | apply rebuildAsk_keeps | fail_if_no_progress (apply Keeps.lit)
    | (extract_lets +onlyGivenNames x; first | (refine cut (a := Keeps st0 x) ?_ fun hx => ?_; subst x; rotate_left; clear_value x) | clear_value x)

theorem reqEnd_keeps {st0 : State} (s : State) (h : Nat) (st : ReqState) (code : Nat) (held : Bool) (hk0 : Keeps st0 s) :
    Keeps st0 (reqEnd s h st code held) := by
  simp only [reqEnd]
  repeat' first
    | with_reducible assumption
    | (intro)
    | with_reducible apply variantIdle_keeps
    | with_reducible apply reqCompl_keeps
    | with_reducible apply reqSet_keeps
    | with_reducible apply bump64_keeps
    | with_reducible apply reqRelease_keeps
    | fail_if_no_progress (with_reducible apply Keeps.lit)
    | fail_if_no_progress (with_reducible apply Keeps.lit')
    | split
    | with_reducible refine pair_cut (by assumption) ?_
    | with_reducible refine pair_cut' (by assumption) ?_
    | with_reducible refine takeFrame_keeps (by assumption) ?_

theorem stepAbort_keeps {st0 : State} (s : State) (p : Nat) (hk0 : Keeps st0 s) :
    Keeps st0 (stepAbort s p) := by
  unfold stepAbort
  with_reducible repeat' first
    | assumption | (intro) | apply each_keeps | apply ctxEnd_keeps | fail_if_no_progress (apply Keeps.lit) | split

theorem reqCancel_keeps {st0 : State} (s : State) (h : Nat) (code : Nat) (failed : Bool) (hk0 : Keeps st0 s) :
    Keeps st0 (reqCancel s h code failed) := by
  unfold reqCancel
  with_reducible repeat' first
    | assumption | apply reqSet_keeps | apply reqEnd_keeps | apply stepAbort_keeps | fail_if_no_progress (apply Keeps.lit)
    | (extract_lets +onlyGivenNames x; first | (refine cut (a := Keeps st0 x) ?_ fun hx => ?_; subst x; rotate_left; clear_value x) | clear_value x)
    | split

theorem partReqsEnd_keeps {st0 : State} (s : State) (p : Nat) (code : Nat) (hk0 : Keeps st0 s) :
    Keeps st0 (partReqsEnd s p code) := by
  unfold partReqsEnd
  with_reducible repeat' first
    | assumption | (intro) | apply each_keeps | apply stepAbort_keeps | apply reqCancel_keeps
    | (extract_lets +onlyGivenNames x; first | (refine cut (a := Keeps st0 x) ?_ fun hx => ?_; subst x; rotate_left; clear_value x) | clear_value x)

theorem hostClamp_keeps {st0 : State} (s : State) (f : Nat) (n : Nat) (hk0 : Keeps st0 s) :
    Keeps st0 (hostClamp s f n) := by
  unfold hostClamp
  with_reducible repeat' first
    | assumption | apply bumpBy_keeps | apply fnSet_keeps | fail_if_no_progress (apply Keeps.lit)
    | (extract_lets +onlyGivenNames x; first | (refine cut (a := Keeps st0 x) ?_ fun hx => ?_; subst x; rotate_left; clear_value x) | clear_value x)
    | split

theorem discard_keeps {st0 : State} (s : State) (f : Nat) (hk0 : Keeps st0 s) :
    Keeps st0 (discard s f) := by
  unfold discard
  with_reducible repeat' first
    | assumption | apply fnSet_keeps | fail_if_no_progress (apply Keeps.lit)
    | (extract_lets +onlyGivenNames x; first | (refine cut (a := Keeps st0 x) ?_ fun hx => ?_; subst x; rotate_left; clear_value x) | clear_value x)

theorem takenDrop_keeps {st0 : State} (s : State) (i : Nat) (t : Taken) (hk0 : Keeps st0 s) :
    Keeps st0 (takenDrop s i t) := by
  unfold takenDrop
  with_reducible repeat' first
    | assumption | fail_if_no_progress (apply Keeps.lit)

theorem takenWait_keeps {st0 : State} (s : State) (i : Nat) (t : Taken) (hk0 : Keeps st0 s) :
    Keeps st0 (takenWait s i t) := by
  unfold takenWait
  with_reducible repeat' first
    | assumption | fail_if_no_progress (apply Keeps.lit)

theorem reject_keeps {st0 : State} (s : State) (p : Nat) (e : W512) (status : Nat) (hk0 : Keeps st0 s) :
    Keeps st0 (reject s p e status) := by
  unfold reject
  with_reducible repeat' first
    | assumption | apply bump64_keeps | apply complTo_keeps

theorem commandDone_keeps {st0 : State} (s : State) (p : Nat) (e : W512) (status : Nat) (value : Nat) (hk0 : Keeps st0 s) :
    Keeps st0 (commandDone s p e status value) := by
  unfold commandDone
  with_reducible repeat' first
    | assumption | apply complTo_keeps

theorem ctxLoad_keeps {st0 : State} (s : State) (p : Nat) (img : Image) (c : Nat) (hk0 : Keeps st0 s) :
    Keeps st0 (ctxLoad s p img c) := by
  unfold ctxLoad
  with_reducible repeat' first
    | assumption | (intro) | apply each_keeps | apply coreSet_keeps | apply ctxSet_keeps | fail_if_no_progress (apply Keeps.lit)
    | fail_if_no_progress (apply Keeps.lit')
    | (extract_lets +onlyGivenNames x; first | (refine cut (a := Keeps st0 x) ?_ fun hx => ?_; subst x; rotate_left; clear_value x) | clear_value x)
    | split

theorem retireFor_keeps {st0 : State} (s : State) (p : Nat) (img : Image) (hk0 : Keeps st0 s) :
    Keeps st0 (retireFor s p img) := by
  unfold retireFor
  with_reducible repeat' first
    | assumption | (intro) | fail_if_no_progress (apply Keeps.lit)
    | (extract_lets +onlyGivenNames x; first | (refine cut (a := Keeps st0 x) ?_ fun hx => ?_; subst x; rotate_left; clear_value x) | clear_value x)
    | split

theorem loadCommit_keeps {st0 : State} (s : State) (p : Nat) (img : Image) (hk0 : Keeps st0 s) :
    Keeps st0 (loadCommit s p img) := by
  unfold loadCommit
  with_reducible repeat' first
    | assumption | (intro) | apply each_keeps | apply poolLayout_keeps | apply variantIdle_keeps | apply ctxLoad_keeps
    | apply retireFor_keeps | fail_if_no_progress (apply Keeps.lit)
    | (extract_lets +onlyGivenNames x; first | (refine cut (a := Keeps st0 x) ?_ fun hx => ?_; subst x; rotate_left; clear_value x) | clear_value x)
    | split

theorem loadTry_keeps {st0 : State} (s : State) (p : Nat) (e : W512) (img : Image) (hk0 : Keeps st0 s) :
    Keeps st0 (loadTry s p e img) := by
  unfold loadTry
  with_reducible repeat' first
    | assumption | apply commandDone_keeps | apply loadCommit_keeps | fail_if_no_progress (apply Keeps.lit) | split

theorem forkShare_keeps {st0 : State} (s : State) (h : Nat) (ph : Nat) (hk0 : Keeps st0 s) :
    Keeps st0 (forkShare s h ph) := by
  unfold forkShare
  with_reducible repeat' first
    | assumption | (intro) | apply each_keeps | apply incRef_keeps | apply reqSet_keeps | apply foldl_keeps | apply foldl_keeps2
    | apply foldl_keeps1 | fail_if_no_progress (apply Keeps.lit)
    | (extract_lets +onlyGivenNames x; first | (refine cut (a := Keeps st0 x) ?_ fun hx => ?_; subst x; rotate_left; clear_value x) | (refine cut (a := Keeps st0 x.2) ?_ fun hx => ?_; subst x; rotate_left; clear_value x) | (refine cut (a := Keeps st0 x.2.2) ?_ fun hx => ?_; subst x; rotate_left; clear_value x) | (refine cut (a := Keeps st0 x.1) ?_ fun hx => ?_; subst x; rotate_left; clear_value x) | clear_value x)
    | split | fail_if_no_progress dsimp only

theorem admitReq_keeps {st0 : State} (s : State) (h : Nat) (new : Req) (hk0 : Keeps st0 s) :
    Keeps st0 (admitReq s h new) := by
  unfold admitReq
  with_reducible repeat' first
    | assumption | (intro) | apply each_keeps | apply frameUse_keeps | apply reqSet_keeps | apply forkShare_keeps
    | fail_if_no_progress (apply Keeps.lit)
    | (extract_lets +onlyGivenNames x; first | (refine cut (a := Keeps st0 x) ?_ fun hx => ?_; subst x; rotate_left; clear_value x) | clear_value x)
    | split

theorem partPut_keeps {st0 : State} (s : State) (p : Nat) (a : Nat) (bs : List Byte) (hk0 : Keeps st0 s) :
    Keeps st0 (partPut s p a bs) := by
  unfold partPut
  with_reducible repeat' first
    | assumption | (intro) | apply each_keeps | apply hbmPut_keeps | apply sramPut_keeps | fail_if_no_progress (apply Keeps.lit)
    | (extract_lets +onlyGivenNames x; first | (refine cut (a := Keeps st0 x) ?_ fun hx => ?_; subst x; rotate_left; clear_value x) | clear_value x)
    | split

theorem inputPut_keeps {st0 : State} (s : State) (r : Req) (hostTokens : List W32) (hk0 : Keeps st0 s) :
    Keeps st0 (inputPut s r hostTokens) := by
  unfold inputPut
  with_reducible repeat' first
    | assumption | (intro) | apply partPut_keeps | fail_if_no_progress (apply Keeps.lit) | split

theorem admitDone_keeps {st0 : State} (s : State) (h : Nat) (new : Req) (hostTokens : List W32) (hk0 : Keeps st0 s) :
    Keeps st0 (admitDone s h new hostTokens) := by
  unfold admitDone
  with_reducible repeat' first
    | assumption | apply bump64_keeps | apply reqCompl_keeps | apply admitReq_keeps | apply inputPut_keeps
    | (extract_lets +onlyGivenNames x; first | (refine cut (a := Keeps st0 x) ?_ fun hx => ?_; subst x; rotate_left; clear_value x) | clear_value x)

theorem leaderHandle_keeps {st0 : State} (s : State) (d : LeaderDecision) (hk0 : Keeps st0 s) :
    Keeps st0 (leaderHandle s d).2 := by
  unfold leaderHandle
  with_reducible repeat' first
    | assumption | fail_if_no_progress (apply Keeps.lit)
    | (extract_lets +onlyGivenNames x; first | (refine cut (a := Keeps st0 x) ?_ fun hx => ?_; subst x; rotate_left; clear_value x) | clear_value x)

theorem submitOwn_keeps {st0 : State} (s : State) (t : Taken) (e : W512) (hostTokens : List W32) (hk0 : Keeps st0 s) :
    Keeps st0 (submitOwn s t e hostTokens).2.2 := by
  unfold submitOwn
  with_reducible repeat' first
    | assumption | apply reject_keeps | apply admitDone_keeps | fail_if_no_progress (apply Keeps.lit)
    | (extract_lets +onlyGivenNames x; first | (refine cut (a := Keeps st0 x) ?_ fun hx => ?_; subst x; rotate_left; clear_value x) | clear_value x)
    | split

theorem leaderSend_keeps {st0 : State} (s : State) (t : Taken) (st : Nat) (h : Nat) (hk0 : Keeps st0 s) :
    Keeps st0 (leaderSend s t st h) := by
  unfold leaderSend
  with_reducible repeat' first
    | assumption | apply g63Send_keeps
    | (extract_lets +onlyGivenNames x; first | (refine cut (a := Keeps st0 x) ?_ fun hx => ?_; subst x; rotate_left; clear_value x) | clear_value x)
    | split

theorem submitFollow_keeps {st0 : State} (s : State) (t : Taken) (e : W512) (d : LeaderDecision) (hostTokens : List W32) (hk0 : Keeps st0 s) :
    Keeps st0 (submitFollow s t e d hostTokens) := by
  unfold submitFollow
  with_reducible repeat' first
    | assumption | apply reject_keeps | apply admitDone_keeps | apply leaderHandle_keeps | fail_if_no_progress (apply Keeps.lit)
    | (extract_lets +onlyGivenNames x; first | (refine cut (a := Keeps st0 x) ?_ fun hx => ?_; subst x; rotate_left; clear_value x) | (refine cut (a := Keeps st0 x.2) ?_ fun hx => ?_; subst x; rotate_left; clear_value x) | (refine cut (a := Keeps st0 x.2.2) ?_ fun hx => ?_; subst x; rotate_left; clear_value x) | (refine cut (a := Keeps st0 x.1) ?_ fun hx => ?_; subst x; rotate_left; clear_value x) | clear_value x)
    | split | refine pair_cut (by assumption) ?_ | refine pair_cut3 (by assumption) ?_ | refine pair_cut' (by assumption) ?_
    | fail_if_no_progress dsimp only

theorem dropTail_keeps {st0 : State} (s : State) (h : Nat) (hk0 : Keeps st0 s) :
    Keeps st0 (dropTail s h) := by
  unfold dropTail
  with_reducible repeat' first
    | assumption | (intro) | apply each_keeps | apply bump64_keeps | apply decRef_keeps | apply reqSet_keeps | apply foldl_keeps
    | apply foldl_keeps2 | apply foldl_keeps1 | fail_if_no_progress (apply Keeps.lit)
    | (extract_lets +onlyGivenNames x; first | (refine cut (a := Keeps st0 x) ?_ fun hx => ?_; subst x; rotate_left; clear_value x) | (refine cut (a := Keeps st0 x.2) ?_ fun hx => ?_; subst x; rotate_left; clear_value x) | (refine cut (a := Keeps st0 x.2.2) ?_ fun hx => ?_; subst x; rotate_left; clear_value x) | (refine cut (a := Keeps st0 x.1) ?_ fun hx => ?_; subst x; rotate_left; clear_value x) | clear_value x)
    | refine pair_cut (by assumption) ?_ | refine pair_cut3 (by assumption) ?_ | refine pair_cut' (by assumption) ?_
    | fail_if_no_progress dsimp only

theorem meetNeed_keeps {st0 : State} (p h : Nat) (need : List Nat) (n : Nat) (s : State) (hk0 : Keeps st0 s) :
    Keeps st0 (meetNeed p h need n s).2 := by
  induction n generalizing s with
  | zero => exact hk0
  | succ n ih =>
    unfold meetNeed
    repeat' first
      | with_reducible assumption
      | (intro)
      | with_reducible apply ih
      | with_reducible apply dropTail_keeps
      | fail_if_no_progress (with_reducible apply Keeps.lit)
      | fail_if_no_progress (with_reducible apply Keeps.lit')
      | (extract_lets +onlyGivenNames x; first | (refine cut (a := Keeps st0 x) ?_ fun hx => ?_; subst x; rotate_left; clear_value x) | (refine cut (a := Keeps st0 x.2) ?_ fun hx => ?_; subst x; rotate_left; clear_value x) | (refine cut (a := Keeps st0 x.1) ?_ fun hx => ?_; subst x; rotate_left; clear_value x) | clear_value x)
      | split
      | with_reducible refine pair_cut (by assumption) ?_
      | with_reducible refine pair_cut' (by assumption) ?_
      | with_reducible refine takeFrame_keeps (by assumption) ?_

theorem grow_keeps {st0 : State} (s : State) (h : Nat) (l : List (Nat × Nat)) (hk0 : Keeps st0 s) :
    Keeps st0 (grow s h l).2 := by
  unfold grow
  with_reducible repeat' first
    | assumption | apply meetNeed_keeps
    | (extract_lets +onlyGivenNames x; first | (refine cut (a := Keeps st0 x) ?_ fun hx => ?_; subst x; rotate_left; clear_value x) | (refine cut (a := Keeps st0 x.2) ?_ fun hx => ?_; subst x; rotate_left; clear_value x) | (refine cut (a := Keeps st0 x.2.2) ?_ fun hx => ?_; subst x; rotate_left; clear_value x) | (refine cut (a := Keeps st0 x.1) ?_ fun hx => ?_; subst x; rotate_left; clear_value x) | clear_value x)
    | split | fail_if_no_progress dsimp only

theorem enterWaiting_keeps {st0 : State} (s : State) (h : Nat) (hk0 : Keeps st0 s) :
    Keeps st0 (enterWaiting s h) := by
  unfold enterWaiting
  with_reducible repeat' first
    | assumption | apply bump32_keeps | apply reqSet_keeps | fail_if_no_progress (apply Keeps.lit)
    | (extract_lets +onlyGivenNames x; first | (refine cut (a := Keeps st0 x) ?_ fun hx => ?_; subst x; rotate_left; clear_value x) | clear_value x)
    | split

theorem takePages_keeps {st0 : State} (s : State) (h : Nat) (l : List (Nat × Nat)) (hk0 : Keeps st0 s) : Keeps st0 (takePages s h l) := by
  unfold takePages
  repeat' first
    | with_reducible assumption
    | (intro)
    | with_reducible apply each_keeps
    | with_reducible apply reqSet_keeps
    | fail_if_no_progress (with_reducible apply Keeps.lit)
    | fail_if_no_progress (with_reducible apply Keeps.lit')
    | (extract_lets +onlyGivenNames x; first | (refine cut (a := Keeps st0 x) ?_ fun hx => ?_; subst x; rotate_left; clear_value x) | (refine cut (a := Keeps st0 x.2) ?_ fun hx => ?_; subst x; rotate_left; clear_value x) | (refine cut (a := Keeps st0 x.1) ?_ fun hx => ?_; subst x; rotate_left; clear_value x) | clear_value x)
    | split
    | with_reducible refine pair_cut (by assumption) ?_
    | with_reducible refine pair_cut' (by assumption) ?_
    | with_reducible refine takeFrame_keeps (by assumption) ?_

theorem startCopy_keeps {st0 : State} (s : State) (h : Nat) (x : Nat × Nat) (hk0 : Keeps st0 s) : Keeps st0 (startCopy s h x) := by
  simp only [startCopy]
  repeat' first
    | with_reducible assumption
    | (intro)
    | with_reducible apply jobPush_keeps
    | with_reducible apply inflightAdd_keeps
    | fail_if_no_progress (with_reducible apply Keeps.lit)
    | fail_if_no_progress (with_reducible apply Keeps.lit')
    | split
    | with_reducible refine pair_cut (by assumption) ?_
    | with_reducible refine pair_cut' (by assumption) ?_
    | with_reducible refine takeFrame_keeps (by assumption) ?_

theorem startCopies_keeps {st0 : State} (room : Nat) (s : State) (h : Nat) (hk0 : Keeps st0 s) :
    Keeps st0 (startCopies room s h).2 := by
  unfold startCopies
  with_reducible repeat' first
    | assumption | (intro) | apply each_keeps | apply grow_keeps | apply enterWaiting_keeps | apply startCopy_keeps
    | fail_if_no_progress (apply Keeps.lit)
    | (extract_lets +onlyGivenNames x; first | (refine cut (a := Keeps st0 x) ?_ fun hx => ?_; subst x; rotate_left; clear_value x) | (refine cut (a := Keeps st0 x.2) ?_ fun hx => ?_; subst x; rotate_left; clear_value x) | (refine cut (a := Keeps st0 x.2.2) ?_ fun hx => ?_; subst x; rotate_left; clear_value x) | (refine cut (a := Keeps st0 x.1) ?_ fun hx => ?_; subst x; rotate_left; clear_value x) | clear_value x)
    | split | refine pair_cut (by assumption) ?_ | refine pair_cut3 (by assumption) ?_ | refine pair_cut' (by assumption) ?_
    | fail_if_no_progress dsimp only

theorem copiesRetry_keeps {st0 : State} (s : State) (p : Nat) (hk0 : Keeps st0 s) :
    Keeps st0 (copiesRetry s p) := by
  unfold copiesRetry
  with_reducible repeat' first
    | assumption | (intro) | apply each_keeps | apply startCopies_keeps | fail_if_no_progress (apply Keeps.lit)
    | (extract_lets +onlyGivenNames x; first | (refine cut (a := Keeps st0 x) ?_ fun hx => ?_; subst x; rotate_left; clear_value x) | (refine cut (a := Keeps st0 x.2) ?_ fun hx => ?_; subst x; rotate_left; clear_value x) | (refine cut (a := Keeps st0 x.2.2) ?_ fun hx => ?_; subst x; rotate_left; clear_value x) | (refine cut (a := Keeps st0 x.1) ?_ fun hx => ?_; subst x; rotate_left; clear_value x) | clear_value x)
    | fail_if_no_progress dsimp only

theorem serviceCopies_keeps {st0 : State} (s : State) (p : Nat) (k : Nat) (hs : List Nat) (hk0 : Keeps st0 s) :
    Keeps st0 (serviceCopies s p k hs) := by
  unfold serviceCopies
  with_reducible repeat' first
    | assumption | (intro) | apply startCopies_keeps | apply foldl_keeps | apply foldl_keeps2 | apply foldl_keeps1
    | fail_if_no_progress (apply Keeps.lit)
    | (extract_lets +onlyGivenNames x; first | (refine cut (a := Keeps st0 x) ?_ fun hx => ?_; subst x; rotate_left; clear_value x) | (refine cut (a := Keeps st0 x.2) ?_ fun hx => ?_; subst x; rotate_left; clear_value x) | (refine cut (a := Keeps st0 x.2.2) ?_ fun hx => ?_; subst x; rotate_left; clear_value x) | (refine cut (a := Keeps st0 x.1) ?_ fun hx => ?_; subst x; rotate_left; clear_value x) | clear_value x)
    | split | refine pair_cut (by assumption) ?_ | refine pair_cut3 (by assumption) ?_ | refine pair_cut' (by assumption) ?_
    | fail_if_no_progress dsimp only

theorem copyEnd_keeps {st0 : State} (s : State) (p : Nat) (c : CowCopy) (st : Fin 11) (hk0 : Keeps st0 s) :
    Keeps st0 (copyEnd s p c st) := by
  unfold copyEnd
  with_reducible repeat' first
    | assumption | apply bump64_keeps | apply decRef_keeps | apply reqSet_keeps | apply reqCancel_keeps
    | fail_if_no_progress (apply Keeps.lit)
    | (extract_lets +onlyGivenNames x; first | (refine cut (a := Keeps st0 x) ?_ fun hx => ?_; subst x; rotate_left; clear_value x) | clear_value x)
    | split

theorem pauseReq_keeps {st0 : State} (s : State) (h : Nat) (hk0 : Keeps st0 s) :
    Keeps st0 (pauseReq s h) := by
  unfold pauseReq
  with_reducible repeat' first
    | assumption | apply reqSet_keeps | fail_if_no_progress (apply Keeps.lit)
    | (extract_lets +onlyGivenNames x; first | (refine cut (a := Keeps st0 x) ?_ fun hx => ?_; subst x; rotate_left; clear_value x) | clear_value x)
    | split

theorem resumeReq_keeps {st0 : State} (s : State) (h : Nat) (hk0 : Keeps st0 s) :
    Keeps st0 (resumeReq s h) := by
  unfold resumeReq
  with_reducible repeat' first
    | assumption | apply reqSet_keeps | fail_if_no_progress (apply Keeps.lit)
    | (extract_lets +onlyGivenNames x; first | (refine cut (a := Keeps st0 x) ?_ fun hx => ?_; subst x; rotate_left; clear_value x) | clear_value x)
    | split

theorem followRound_keeps {st0 : State} (s : State) (p : Nat) (hk0 : Keeps st0 s) :
    Keeps st0 (followRound s p) := by
  unfold followRound
  with_reducible repeat' first
    | assumption | (intro) | apply emit_keeps | apply each_keeps | apply serviceCopies_keeps | apply resumeReq_keeps
    | fail_if_no_progress (apply Keeps.lit)
    | (extract_lets +onlyGivenNames x; first | (refine cut (a := Keeps st0 x) ?_ fun hx => ?_; subst x; rotate_left; clear_value x) | clear_value x)
    | split

theorem pickOne_keeps {st0 : State} (m : Nat) (x : Picks × State) (y : Nat × Nat × Bool) (hk0 : Keeps st0 x.2) :
    Keeps st0 (pickOne m x y).2 := by
  obtain ⟨a, s⟩ := x
  obtain ⟨h, n, e⟩ := y
  have hk1 : Keeps st0 s := hk0
  simp only [pickOne]
  repeat' first
    | with_reducible assumption
    | (intro)
    | with_reducible apply takePages_keeps
    | with_reducible apply enterWaiting_keeps
    | with_reducible apply grow_keeps
    | fail_if_no_progress (with_reducible apply Keeps.lit)
    | fail_if_no_progress (with_reducible apply Keeps.lit')
    | (extract_lets +onlyGivenNames x; first | (refine cut (a := Keeps st0 x) ?_ fun hx => ?_; subst x; rotate_left; clear_value x) | (refine cut (a := Keeps st0 x.2) ?_ fun hx => ?_; subst x; rotate_left; clear_value x) | (refine cut (a := Keeps st0 x.1) ?_ fun hx => ?_; subst x; rotate_left; clear_value x) | clear_value x)
    | split
    | with_reducible refine pair_cut (by assumption) ?_
    | with_reducible refine pair_cut' (by assumption) ?_
    | with_reducible refine takeFrame_keeps (by assumption) ?_

theorem prefillPicks_keeps {st0 : State} (s : State) (p : Nat) (k : Nat) (v : BitVec 256) (rd : Round) (hk0 : Keeps st0 s) :
    Keeps st0 (prefillPicks s p k v rd).2 := by
  unfold prefillPicks
  with_reducible repeat' first
    | assumption | (intro) | apply pickOne_keeps | apply foldl_keeps | apply foldl_keeps2 | apply foldl_keeps1
    | (extract_lets +onlyGivenNames x; first | (refine cut (a := Keeps st0 x) ?_ fun hx => ?_; subst x; rotate_left; clear_value x) | (refine cut (a := Keeps st0 x.2) ?_ fun hx => ?_; subst x; rotate_left; clear_value x) | (refine cut (a := Keeps st0 x.2.2) ?_ fun hx => ?_; subst x; rotate_left; clear_value x) | (refine cut (a := Keeps st0 x.1) ?_ fun hx => ?_; subst x; rotate_left; clear_value x) | clear_value x)
    | split | fail_if_no_progress dsimp only

theorem decodePicks_keeps {st0 : State} (s : State) (p : Nat) (k : Nat) (v : BitVec 256) (rd : Round) (hk0 : Keeps st0 s) :
    Keeps st0 (decodePicks s p k v rd).2 := by
  unfold decodePicks
  with_reducible repeat' first
    | assumption | (intro) | apply pickOne_keeps | apply foldl_keeps | apply foldl_keeps2 | apply foldl_keeps1
    | (extract_lets +onlyGivenNames x; first | (refine cut (a := Keeps st0 x) ?_ fun hx => ?_; subst x; rotate_left; clear_value x) | (refine cut (a := Keeps st0 x.2) ?_ fun hx => ?_; subst x; rotate_left; clear_value x) | (refine cut (a := Keeps st0 x.2.2) ?_ fun hx => ?_; subst x; rotate_left; clear_value x) | (refine cut (a := Keeps st0 x.1) ?_ fun hx => ?_; subst x; rotate_left; clear_value x) | clear_value x)
    | fail_if_no_progress dsimp only

theorem leaderPicks_keeps {st0 : State} (s : State) (v : BitVec 256) (l : List BatchE) (hk0 : Keeps st0 s) :
    Keeps st0 (leaderPicks s v l).2 := by
  unfold leaderPicks
  with_reducible repeat' first
    | assumption | (intro) | apply emit_keeps | apply pickOne_keeps | apply foldl_keeps | apply foldl_keeps2 | apply foldl_keeps1
    | fail_if_no_progress dsimp only

theorem stagePicks_keeps {st0 : State} (s : State) (p : Nat) (rd : Round) (st : Nat × Bool) (hk0 : Keeps st0 s) :
    Keeps st0 (stagePicks s p rd st).2 := by
  unfold stagePicks
  with_reducible repeat' first
    | assumption | (intro) | apply prefillPicks_keeps | apply decodePicks_keeps | apply leaderPicks_keeps
    | fail_if_no_progress (apply Keeps.lit)
    | (extract_lets +onlyGivenNames x; first | (refine cut (a := Keeps st0 x) ?_ fun hx => ?_; subst x; rotate_left; clear_value x) | (refine cut (a := Keeps st0 x.2) ?_ fun hx => ?_; subst x; rotate_left; clear_value x) | (refine cut (a := Keeps st0 x.2.2) ?_ fun hx => ?_; subst x; rotate_left; clear_value x) | (refine cut (a := Keeps st0 x.1) ?_ fun hx => ?_; subst x; rotate_left; clear_value x) | clear_value x)
    | split | refine pair_cut (by assumption) ?_ | refine pair_cut3 (by assumption) ?_ | refine pair_cut' (by assumption) ?_
    | fail_if_no_progress dsimp only

theorem batchWrite_keeps {st0 : State} (s : State) (p : Nat) (v : BitVec 256) (buf : Nat) (l : List BatchE) (hk0 : Keeps st0 s) :
    Keeps st0 (batchWrite s p v buf l) := by
  unfold batchWrite
  with_reducible repeat' first
    | assumption | (intro) | apply partPut_keeps

theorem jobsLoad_keeps {st0 : State} (s : State) (p : Nat) (c : Nat) (stepId : Nat) (hk0 : Keeps st0 s) :
    Keeps st0 (jobsLoad s p c stepId) := by
  unfold jobsLoad
  with_reducible repeat' first
    | assumption | (intro) | apply each_keeps | fail_if_no_progress (apply Keeps.lit)
    | (extract_lets +onlyGivenNames x; first | (refine cut (a := Keeps st0 x) ?_ fun hx => ?_; subst x; rotate_left; clear_value x) | clear_value x)
    | split

theorem dispatchTo_keeps {st0 : State} (s : State) (p : Nat) (stepId : Nat) (entry : Nat) (ps : List W32) (ctxs : List Nat) (hk0 : Keeps st0 s) :
    Keeps st0 (dispatchTo s p stepId entry ps ctxs) := by
  unfold dispatchTo
  with_reducible repeat' first
    | assumption | (intro) | apply each_keeps | apply ctxEnd_keeps | apply ctxDispatch_keeps | apply jobsLoad_keeps
    | (extract_lets +onlyGivenNames x; first | (refine cut (a := Keeps st0 x) ?_ fun hx => ?_; subst x; rotate_left; clear_value x) | clear_value x)

theorem enterStep_keeps {st0 : State} (s : State) (b : BatchE) (hk0 : Keeps st0 s) :
    Keeps st0 (enterStep s b) := by
  unfold enterStep
  with_reducible repeat' first
    | assumption | (intro) | apply reqSet_keeps | apply foldl_keeps | apply foldl_keeps2 | apply foldl_keeps1
    | fail_if_no_progress (apply Keeps.lit)
    | (extract_lets +onlyGivenNames x; first | (refine cut (a := Keeps st0 x) ?_ fun hx => ?_; subst x; rotate_left; clear_value x) | (refine cut (a := Keeps st0 x.2) ?_ fun hx => ?_; subst x; rotate_left; clear_value x) | (refine cut (a := Keeps st0 x.2.2) ?_ fun hx => ?_; subst x; rotate_left; clear_value x) | (refine cut (a := Keeps st0 x.1) ?_ fun hx => ?_; subst x; rotate_left; clear_value x) | clear_value x)
    | split | fail_if_no_progress dsimp only

theorem batchSend_keeps {st0 : State} (s : State) (p : Nat) (id : Nat) (l : List BatchE) (hk0 : Keeps st0 s) :
    Keeps st0 (batchSend s p id l) := by
  unfold batchSend
  with_reducible repeat' first
    | assumption | (intro) | apply emit_keeps | apply g63Send_keeps
    | (extract_lets +onlyGivenNames x; first | (refine cut (a := Keeps st0 x) ?_ fun hx => ?_; subst x; rotate_left; clear_value x) | clear_value x)
    | split

theorem stepStart_keeps {st0 : State} (s : State) (p : Nat) (st : Nat × Bool) (v : BitVec 256) (l : List BatchE) (hk0 : Keeps st0 s) :
    Keeps st0 (stepStart s p st v l) := by
  unfold stepStart
  with_reducible repeat' first
    | assumption | (intro) | apply each_keeps | apply batchWrite_keeps | apply dispatchTo_keeps | apply enterStep_keeps
    | apply batchSend_keeps | fail_if_no_progress (apply Keeps.lit)
    | (extract_lets +onlyGivenNames x; first | (refine cut (a := Keeps st0 x) ?_ fun hx => ?_; subst x; rotate_left; clear_value x) | clear_value x)
    | split

theorem stageGo_keeps {st0 : State} (p n : Nat) (s : State) (hk0 : Keeps st0 s) : Keeps st0 (stageGo p n s) := by
  induction n generalizing s with
  | zero => exact hk0
  | succ n ih =>
    unfold stageGo
    repeat' first
      | with_reducible assumption
      | (intro)
      | with_reducible apply ih
      | with_reducible apply stepStart_keeps
      | with_reducible apply stagePicks_keeps
      | fail_if_no_progress (with_reducible apply Keeps.lit)
      | fail_if_no_progress (with_reducible apply Keeps.lit')
      | (extract_lets +onlyGivenNames x; first | (refine cut (a := Keeps st0 x) ?_ fun hx => ?_; subst x; rotate_left; clear_value x) | (refine cut (a := Keeps st0 x.2) ?_ fun hx => ?_; subst x; rotate_left; clear_value x) | (refine cut (a := Keeps st0 x.1) ?_ fun hx => ?_; subst x; rotate_left; clear_value x) | clear_value x)
      | split
      | with_reducible refine pair_cut (by assumption) ?_
      | with_reducible refine pair_cut' (by assumption) ?_
      | with_reducible refine takeFrame_keeps (by assumption) ?_

theorem heldRelease_keeps {st0 : State} (s : State) (p : Nat) (seq : Nat) (hk0 : Keeps st0 s) :
    Keeps st0 (heldRelease s p seq) := by
  unfold heldRelease
  with_reducible repeat' first
    | assumption | (intro) | apply each_keeps | apply complPush_keeps | fail_if_no_progress (apply Keeps.lit)
    | (extract_lets +onlyGivenNames x; first | (refine cut (a := Keeps st0 x) ?_ fun hx => ?_; subst x; rotate_left; clear_value x) | clear_value x)
    | split

theorem heldOpen_keeps {st0 : State} (s : State) (hk0 : Keeps st0 s) :
    Keeps st0 (heldOpen s) := by
  unfold heldOpen
  with_reducible repeat' first
    | assumption | (intro) | apply each_keeps | apply complPush_keeps | fail_if_no_progress (apply Keeps.lit)
    | (extract_lets +onlyGivenNames x; first | (refine cut (a := Keeps st0 x) ?_ fun hx => ?_; subst x; rotate_left; clear_value x) | clear_value x)

theorem heldAll_keeps {st0 : State} (s : State) (hk0 : Keeps st0 s) :
    Keeps st0 (heldAll s) := by
  unfold heldAll
  with_reducible repeat' first
    | assumption | apply heldOpen_keeps | fail_if_no_progress (apply Keeps.lit)

theorem compareNow_keeps {st0 : State} (s : State) (p : Nat) (seq : Nat) (hk0 : Keeps st0 s) :
    Keeps st0 (compareNow s p seq) := by
  unfold compareNow
  with_reducible repeat' first
    | assumption | (intro) | apply bump32_keeps | apply heldRelease_keeps | fail_if_no_progress (apply Keeps.lit)
    | (extract_lets +onlyGivenNames x; first | (refine cut (a := Keeps st0 x) ?_ fun hx => ?_; subst x; rotate_left; clear_value x) | clear_value x)
    | split

theorem pairFold_keeps {st0 : State} (s : State) (p : Nat) (v : BitVec 256) (x : StepRun) (hk0 : Keeps st0 s) :
    Keeps st0 (pairFold s p v x) := by
  unfold pairFold
  with_reducible repeat' first
    | assumption | apply g63Send_keeps | fail_if_no_progress (apply Keeps.lit)
    | (extract_lets +onlyGivenNames x; first | (refine cut (a := Keeps st0 x) ?_ fun hx => ?_; subst x; rotate_left; clear_value x) | clear_value x)
    | split

theorem missNote_keeps {st0 : State} (s : State) (h : Nat) (hk0 : Keeps st0 s) :
    Keeps st0 (missNote s h).2 := by
  unfold missNote
  with_reducible repeat' first
    | assumption | apply bump64_keeps | apply reqSet_keeps | fail_if_no_progress (apply Keeps.lit)
    | (extract_lets +onlyGivenNames x; first | (refine cut (a := Keeps st0 x) ?_ fun hx => ?_; subst x; rotate_left; clear_value x) | clear_value x)
    | split

theorem tokenDeliver_keeps {st0 : State} (s : State) (v : BitVec 256) (h : Nat) (tok : Nat) (fl : BitVec 4) (held : Bool) (hk0 : Keeps st0 s) :
    Keeps st0 (tokenDeliver s v h tok fl held) := by
  unfold tokenDeliver
  with_reducible repeat' first
    | assumption | apply reqSet_keeps | apply reqCompl_keeps | apply reqEnd_keeps | apply missNote_keeps
    | fail_if_no_progress (apply Keeps.lit)
    | (extract_lets +onlyGivenNames x; first | (refine cut (a := Keeps st0 x) ?_ fun hx => ?_; subst x; rotate_left; clear_value x) | (refine cut (a := Keeps st0 x.2) ?_ fun hx => ?_; subst x; rotate_left; clear_value x) | (refine cut (a := Keeps st0 x.2.2) ?_ fun hx => ?_; subst x; rotate_left; clear_value x) | (refine cut (a := Keeps st0 x.1) ?_ fun hx => ?_; subst x; rotate_left; clear_value x) | clear_value x)
    | split | refine pair_cut (by assumption) ?_ | refine pair_cut3 (by assumption) ?_ | refine pair_cut' (by assumption) ?_
    | fail_if_no_progress dsimp only

theorem resultDeliver_keeps {st0 : State} (s : State) (v : BitVec 256) (h : Nat) (fl : BitVec 4) (held : Bool) (hk0 : Keeps st0 s) :
    Keeps st0 (resultDeliver s v h fl held) := by
  unfold resultDeliver
  with_reducible repeat' first
    | assumption | apply emit_keeps | apply reqCompl_keeps | apply reqEnd_keeps
    | (extract_lets +onlyGivenNames x; first | (refine cut (a := Keeps st0 x) ?_ fun hx => ?_; subst x; rotate_left; clear_value x) | clear_value x)
    | split

theorem entryCommit_keeps {st0 : State} (p : Nat) (v : BitVec 256) (x : StepRun) (fl : BitVec 4) (held : Bool) (s : State) (bi : BatchE × Nat) (hk0 : Keeps st0 s) :
    Keeps st0 (entryCommit p v x fl held s bi) := by
  unfold entryCommit
  with_reducible repeat' first
    | assumption | apply emit_keeps | apply reqSet_keeps | apply prefixInsertRange_keeps | apply reqEnd_keeps | apply tokenDeliver_keeps
    | apply resultDeliver_keeps | fail_if_no_progress (apply Keeps.lit)
    | (extract_lets +onlyGivenNames x; first | (refine cut (a := Keeps st0 x) ?_ fun hx => ?_; subst x; rotate_left; clear_value x) | clear_value x)
    | split

theorem flagsTake_keeps {st0 : State} (s : State) (ctxs : List Nat) (hk0 : Keeps st0 s) :
    Keeps st0 (flagsTake s ctxs).2 := by
  unfold flagsTake
  with_reducible repeat' first
    | assumption | (intro) | apply each_keeps | apply coreSet_keeps | fail_if_no_progress (apply Keeps.lit)
    | (extract_lets +onlyGivenNames x; first | (refine cut (a := Keeps st0 x) ?_ fun hx => ?_; subst x; rotate_left; clear_value x) | clear_value x)
    | split

theorem laneCvuClose_keeps {st0 : State} (s : State) (p : Nat) (l : Nat) (hk0 : Keeps st0 s) :
    Keeps st0 (laneCvuClose s p l) := by
  unfold laneCvuClose
  with_reducible repeat' first
    | assumption | (intro) | apply each_keeps | apply bump32_keeps | apply msixSend_keeps | apply sramPut_keeps | apply laneSet_keeps
    | fail_if_no_progress (apply Keeps.lit)
    | (extract_lets +onlyGivenNames x; first | (refine cut (a := Keeps st0 x) ?_ fun hx => ?_; subst x; rotate_left; clear_value x) | clear_value x)
    | split

theorem ctxClear_keeps {st0 : State} (s : State) (c : Nat) (hk0 : Keeps st0 s) :
    Keeps st0 (ctxClear s c) := by
  unfold ctxClear
  with_reducible repeat' first
    | assumption | apply ctxSet_keeps | apply ctxStart_keeps | fail_if_no_progress (apply Keeps.lit)
    | (extract_lets +onlyGivenNames x; first | (refine cut (a := Keeps st0 x) ?_ fun hx => ?_; subst x; rotate_left; clear_value x) | clear_value x)
    | split

theorem deltaForget_keeps {st0 : State} (s : State) (p : Nat) (hk0 : Keeps st0 s) :
    Keeps st0 (deltaForget s p) := by
  unfold deltaForget
  with_reducible repeat' first
    | assumption | (intro) | fail_if_no_progress (apply Keeps.lit) | split

theorem jobsForget_keeps {st0 : State} (s : State) (p : Nat) (hk0 : Keeps st0 s) :
    Keeps st0 (jobsForget s p) := by
  unfold jobsForget
  with_reducible repeat' first
    | assumption | (intro) | fail_if_no_progress (apply Keeps.lit) | split

theorem stepReport_keeps {st0 : State} (s : State) (p : Nat) (x : StepRun) (fl : BitVec 4) (flt : Option (Fin 5)) (hk0 : Keeps st0 s) :
    Keeps st0 (stepReport s p x fl flt).1 := by
  unfold stepReport
  with_reducible repeat' first
    | assumption | (intro) | apply each_keeps | apply bump32_keeps | apply eventTo_keeps | fail_if_no_progress (apply Keeps.lit)
    | (extract_lets +onlyGivenNames x; first | (refine cut (a := Keeps st0 x) ?_ fun hx => ?_; subst x; rotate_left; clear_value x) | clear_value x)
    | split

theorem stepDrop_keeps {st0 : State} (s : State) (p : Nat) (hk0 : Keeps st0 s) :
    Keeps st0 (stepDrop s p) := by
  unfold stepDrop
  with_reducible repeat' first
    | assumption | fail_if_no_progress (apply Keeps.lit)
    | (extract_lets +onlyGivenNames x; first | (refine cut (a := Keeps st0 x) ?_ fun hx => ?_; subst x; rotate_left; clear_value x) | clear_value x)
    | split

theorem stageBack_keeps {st0 : State} (s : State) (p : Nat) (x : StepRun) (hk0 : Keeps st0 s) :
    Keeps st0 (stageBack s p x) := by
  unfold stageBack
  with_reducible repeat' first
    | assumption | (intro) | fail_if_no_progress (apply Keeps.lit)

theorem serviceFault_keeps {st0 : State} (s : State) (p : Nat) (k : Nat) (hk0 : Keeps st0 s) :
    Keeps st0 (serviceFault s p k) := by
  unfold serviceFault
  with_reducible repeat' first
    | assumption | fail_if_no_progress (apply Keeps.lit) | split

theorem stepCommit_keeps {st0 : State} (s : State) (p : Nat) (x : StepRun) (fl : BitVec 4) (hk0 : Keeps st0 s) :
    Keeps st0 (stepCommit s p x fl) := by
  unfold stepCommit
  with_reducible repeat' first
    | assumption | (intro) | apply each_keeps | apply epochTick_keeps | apply retainFix_keeps | apply switchCommit_keeps
    | apply compareNow_keeps | apply pairFold_keeps | apply entryCommit_keeps | apply stepDrop_keeps
    | (extract_lets +onlyGivenNames x; first | (refine cut (a := Keeps st0 x) ?_ fun hx => ?_; subst x; rotate_left; clear_value x) | clear_value x)

theorem batchFail_keeps {st0 : State} (s : State) (x : StepRun) (code : Nat) (hk0 : Keeps st0 s) :
    Keeps st0 (batchFail s x code) := by
  unfold batchFail
  with_reducible repeat' first
    | assumption | (intro) | apply each_keeps | apply reqEnd_keeps
    | (extract_lets +onlyGivenNames x; first | (refine cut (a := Keeps st0 x) ?_ fun hx => ?_; subst x; rotate_left; clear_value x) | clear_value x)
    | split

theorem drainEnd_keeps {st0 : State} (s : State) (x : StepRun) (hk0 : Keeps st0 s) :
    Keeps st0 (drainEnd s x) := by
  unfold drainEnd
  with_reducible repeat' first
    | assumption | (intro) | apply each_keeps | apply reqEnd_keeps
    | (extract_lets +onlyGivenNames x; first | (refine cut (a := Keeps st0 x) ?_ fun hx => ?_; subst x; rotate_left; clear_value x) | clear_value x)
    | split

theorem boundaryEnd_keeps {st0 : State} (s : State) (x : StepRun) (hk0 : Keeps st0 s) :
    Keeps st0 (boundaryEnd s x) := by
  unfold boundaryEnd
  with_reducible repeat' first
    | assumption | (intro) | apply each_keeps | apply reqEnd_keeps
    | (extract_lets +onlyGivenNames x; first | (refine cut (a := Keeps st0 x) ?_ fun hx => ?_; subst x; rotate_left; clear_value x) | clear_value x)
    | split

theorem abortTell_keeps {st0 : State} (s : State) (p : PartId) (stepId : Nat) (hk0 : Keeps st0 s) :
    Keeps st0 (abortTell s p stepId) := by
  unfold abortTell
  with_reducible repeat' first
    | assumption | apply g63Send_keeps

theorem injectGuard_keeps {st0 : State} (s : State) (hk0 : Keeps st0 s) :
    Keeps st0 (injectGuard s) := by
  unfold injectGuard
  with_reducible repeat' first
    | assumption | apply odSet_keeps | fail_if_no_progress (apply Keeps.lit)
    | (extract_lets +onlyGivenNames x; first | (refine cut (a := Keeps st0 x) ?_ fun hx => ?_; subst x; rotate_left; clear_value x) | clear_value x)
    | split

theorem quadPowerOff_keeps {st0 : State} (s : State) (q : Nat) (hk0 : Keeps st0 s) :
    Keeps st0 (quadPowerOff s q) := by
  unfold quadPowerOff
  with_reducible repeat' first
    | assumption | (intro) | apply each_keeps | apply quadClear_keeps | apply queueLost_keeps | apply injectGuard_keeps
    | fail_if_no_progress (apply Keeps.lit)
    | (extract_lets +onlyGivenNames x; first | (refine cut (a := Keeps st0 x) ?_ fun hx => ?_; subst x; rotate_left; clear_value x) | clear_value x)
    | split

theorem diePowerOff_keeps {st0 : State} (s : State) (d : Nat) (hk0 : Keeps st0 s) :
    Keeps st0 (diePowerOff s d) := by
  unfold diePowerOff
  with_reducible repeat' first
    | assumption | (intro) | apply each_keeps | apply queueLost_keeps | apply injectGuard_keeps | apply quadPowerOff_keeps
    | fail_if_no_progress (apply Keeps.lit) | fail_if_no_progress (apply Keeps.lit')
    | (extract_lets +onlyGivenNames x; first | (refine cut (a := Keeps st0 x) ?_ fun hx => ?_; subst x; rotate_left; clear_value x) | clear_value x)

theorem quadsOff_keeps {st0 : State} (s : State) (qs : List Nat) (hk0 : Keeps st0 s) :
    Keeps st0 (quadsOff s qs) := by
  unfold quadsOff
  with_reducible repeat' first
    | assumption | (intro) | apply each_keeps | apply quadPowerOff_keeps | apply diePowerOff_keeps
    | (extract_lets +onlyGivenNames x; first | (refine cut (a := Keeps st0 x) ?_ fun hx => ?_; subst x; rotate_left; clear_value x) | clear_value x)
    | split

theorem sendYield_keeps {st0 : State} (s : State) (hk0 : Keeps st0 s) :
    Keeps st0 (sendYield s) := by
  unfold sendYield
  with_reducible repeat' first
    | assumption | apply emit_keeps | fail_if_no_progress (apply Keeps.lit)

theorem rehearsalLeave_keeps {st0 : State} (s : State) (hk0 : Keeps st0 s) :
    Keeps st0 (rehearsalLeave s) := by
  unfold rehearsalLeave
  with_reducible repeat' first
    | assumption | (intro) | apply quadsOff_keeps | split

theorem declareFailed_keeps {st0 : State} (s : State) (i : LogInfo) (hk0 : Keeps st0 s) :
    Keeps st0 (declareFailed s i) := by
  unfold declareFailed
  with_reducible repeat' first
    | assumption | apply emit_keeps | apply logErr_keeps | apply rehearsalLeave_keeps | fail_if_no_progress (apply Keeps.lit)
    | (extract_lets +onlyGivenNames x; first | (refine cut (a := Keeps st0 x) ?_ fun hx => ?_; subst x; rotate_left; clear_value x) | clear_value x)
    | split

theorem fenceStep_keeps {st0 : State} (s : State) (p : Nat) (hk0 : Keeps st0 s) :
    Keeps st0 (fenceStep s p) := by
  unfold fenceStep
  with_reducible repeat' first
    | assumption | (intro) | apply each_keeps | apply ctxEnd_keeps | apply stepDrop_keeps | apply batchFail_keeps
    | fail_if_no_progress (apply Keeps.lit)
    | (extract_lets +onlyGivenNames x; first | (refine cut (a := Keeps st0 x) ?_ fun hx => ?_; subst x; rotate_left; clear_value x) | clear_value x)
    | split

theorem fenceServices_keeps {st0 : State} (s : State) (p : Nat) (mask : Nat) (hk0 : Keeps st0 s) :
    Keeps st0 (fenceServices s p mask) := by
  unfold fenceServices
  with_reducible repeat' first
    | assumption | (intro) | apply each_keeps | apply serviceFault_keeps | fail_if_no_progress (apply Keeps.lit)
    | (extract_lets +onlyGivenNames x; first | (refine cut (a := Keeps st0 x) ?_ fun hx => ?_; subst x; rotate_left; clear_value x) | clear_value x)
    | split

theorem fenceYield_keeps {st0 : State} (s : State) (i : LogInfo) (hk0 : Keeps st0 s) :
    Keeps st0 (fenceYield s i) := by
  unfold fenceYield
  with_reducible repeat' first
    | assumption | apply sendYield_keeps | apply declareFailed_keeps | split

theorem fenceQuadUsers_keeps {st0 : State} (s : State) (mask : Nat) (hk0 : Keeps st0 s) :
    Keeps st0 (fenceQuadUsers s mask) := by
  unfold fenceQuadUsers
  with_reducible repeat' first
    | assumption | (intro) | apply each_keeps | apply fenceStep_keeps | apply fenceServices_keeps
    | (extract_lets +onlyGivenNames x; first | (refine cut (a := Keeps st0 x) ?_ fun hx => ?_; subst x; rotate_left; clear_value x) | clear_value x)

theorem fenceQuad_keeps {st0 : State} (s : State) (q : Nat) (i : LogInfo) (hk0 : Keeps st0 s) :
    Keeps st0 (fenceQuad s q i) := by
  unfold fenceQuad
  with_reducible repeat' first
    | assumption | apply quadPowerOff_keeps | apply fenceYield_keeps | apply fenceQuadUsers_keeps | fail_if_no_progress (apply Keeps.lit)
    | (extract_lets +onlyGivenNames x; first | (refine cut (a := Keeps st0 x) ?_ fun hx => ?_; subst x; rotate_left; clear_value x) | clear_value x)

theorem fenceDie_keeps {st0 : State} (s : State) (d : Nat) (i : LogInfo) (hk0 : Keeps st0 s) :
    Keeps st0 (fenceDie s d i) := by
  unfold fenceDie
  with_reducible repeat' first
    | assumption | apply diePowerOff_keeps | apply declareFailed_keeps | apply fenceYield_keeps | apply fenceQuadUsers_keeps
    | fail_if_no_progress (apply Keeps.lit)
    | (extract_lets +onlyGivenNames x; first | (refine cut (a := Keeps st0 x) ?_ fun hx => ?_; subst x; rotate_left; clear_value x) | clear_value x)
    | split

theorem fencePort_keeps {st0 : State} (s : State) (p : Nat) (i : LogInfo) (hk0 : Keeps st0 s) :
    Keeps st0 (fencePort s p i) := by
  unfold fencePort
  with_reducible repeat' first
    | assumption | apply portSet_keeps | apply portAGone_keeps | apply fenceYield_keeps | fail_if_no_progress (apply Keeps.lit)
    | (extract_lets +onlyGivenNames x; first | (refine cut (a := Keeps st0 x) ?_ fun hx => ?_; subst x; rotate_left; clear_value x) | clear_value x)
    | split

theorem dropBlock_keeps {st0 : State} (s : State) (h : Nat) (b : Nat) (hk0 : Keeps st0 s) :
    Keeps st0 (dropBlock s h b) := by
  unfold dropBlock
  with_reducible repeat' first
    | assumption | (intro) | apply each_keeps | apply decRef_keeps | apply reqSet_keeps | apply foldl_keeps | apply foldl_keeps2
    | apply foldl_keeps1 | fail_if_no_progress (apply Keeps.lit)
    | (extract_lets +onlyGivenNames x; first | (refine cut (a := Keeps st0 x) ?_ fun hx => ?_; subst x; rotate_left; clear_value x) | (refine cut (a := Keeps st0 x.2) ?_ fun hx => ?_; subst x; rotate_left; clear_value x) | (refine cut (a := Keeps st0 x.2.2) ?_ fun hx => ?_; subst x; rotate_left; clear_value x) | (refine cut (a := Keeps st0 x.1) ?_ fun hx => ?_; subst x; rotate_left; clear_value x) | clear_value x)
    | refine pair_cut (by assumption) ?_ | refine pair_cut3 (by assumption) ?_ | refine pair_cut' (by assumption) ?_
    | fail_if_no_progress dsimp only

theorem retireGranule_keeps {st0 : State} (s : State) (g : Nat) (i : LogInfo) (hk0 : Keeps st0 s) :
    Keeps st0 (retireGranule s g i) := by
  unfold retireGranule
  with_reducible repeat' first
    | assumption | (intro) | apply each_keeps | apply granSet_keeps | apply frameSet_keeps | apply serviceFault_keeps
    | apply injectGuard_keeps | apply fenceYield_keeps | apply dropBlock_keeps | fail_if_no_progress (apply Keeps.lit)
    | (extract_lets +onlyGivenNames x; first | (refine cut (a := Keeps st0 x) ?_ fun hx => ?_; subst x; rotate_left; clear_value x) | clear_value x)
    | split

theorem fenceScope_keeps {st0 : State} (s : State) (sc : Scope) (p : Nat) (i : LogInfo) (hk0 : Keeps st0 s) :
    Keeps st0 (fenceScope s sc p i) := by
  unfold fenceScope
  with_reducible repeat' first
    | assumption | apply logErr_keeps | apply declareFailed_keeps | apply fenceStep_keeps | apply fenceQuad_keeps | apply fenceDie_keeps
    | apply fencePort_keeps | apply retireGranule_keeps | fail_if_no_progress (apply Keeps.lit)
    | (extract_lets +onlyGivenNames x; first | (refine cut (a := Keeps st0 x) ?_ fun hx => ?_; subst x; rotate_left; clear_value x) | clear_value x)
    | split

theorem strike_keeps {st0 : State} (s : State) (res : Nat) (sc : Scope) (p : Nat) (cs : List Nat) (i : LogInfo) (hk0 : Keeps st0 s) :
    Keeps st0 (strike s res sc p cs i) := by
  unfold strike
  with_reducible repeat' first
    | assumption | (intro) | apply each_keeps | apply logErr_keeps | apply ctxEnd_keeps | apply fenceScope_keeps
    | fail_if_no_progress (apply Keeps.lit)
    | (extract_lets +onlyGivenNames x; first | (refine cut (a := Keeps st0 x) ?_ fun hx => ?_; subst x; rotate_left; clear_value x) | (refine cut (a := ∀ s, Keeps st0 s → Keeps st0 (x s)) ?_ fun hf => ?_; subst x; rotate_left; clear_value x) | clear_value x)
    | split | apply hf

theorem siteError_keeps {st0 : State} (s : State) (site : ErrSite) (injected : Bool) (hk0 : Keeps st0 s) :
    Keeps st0 (siteError s site injected) := by
  unfold siteError
  with_reducible repeat' first
    | assumption | apply declareFailed_keeps | apply strike_keeps | fail_if_no_progress (apply Keeps.lit)
    | (extract_lets +onlyGivenNames x; first | (refine cut (a := Keeps st0 x) ?_ fun hx => ?_; subst x; rotate_left; clear_value x) | clear_value x)
    | split

theorem ueStrike_keeps {st0 : State} (s : State) (p : Nat) (a : Nat) (injected : Bool) (hk0 : Keeps st0 s) :
    Keeps st0 (ueStrike s p a injected) := by
  unfold ueStrike
  with_reducible repeat' first
    | assumption | apply declareFailed_keeps | apply strike_keeps | fail_if_no_progress (apply Keeps.lit)
    | (extract_lets +onlyGivenNames x; first | (refine cut (a := Keeps st0 x) ?_ fun hx => ?_; subst x; rotate_left; clear_value x) | clear_value x)
    | split

theorem dieFault_keeps {st0 : State} (s : State) (d : Nat) (p : Nat) (code : Fin 5) (hk0 : Keeps st0 s) :
    Keeps st0 (dieFault s d p code) := by
  unfold dieFault
  with_reducible repeat' first
    | assumption | (intro) | apply each_keeps | apply ctxEnd_keeps

theorem pinwheelPop_keeps {st0 : State} (s : State) (d : Nat) (hk0 : Keeps st0 s) :
    Keeps st0 (pinwheelPop s d) := by
  unfold pinwheelPop
  with_reducible repeat' first
    | assumption | (intro) | fail_if_no_progress (apply Keeps.lit)

theorem dieReads_keeps {st0 : State} (s : State) (part : Nat) (ecc : List EccEvent) (ls : List Nat) (hk0 : Keeps st0 s) :
    Keeps st0 (dieReads s part ecc ls).2 := by
  unfold dieReads
  with_reducible repeat' first
    | assumption | (intro) | apply lineLoadAt_keeps | apply foldl_keeps | apply foldl_keeps2 | apply foldl_keeps1
    | (extract_lets +onlyGivenNames x; first | (refine cut (a := Keeps st0 x) ?_ fun hx => ?_; subst x; rotate_left; clear_value x) | (refine cut (a := Keeps st0 x.2) ?_ fun hx => ?_; subst x; rotate_left; clear_value x) | (refine cut (a := Keeps st0 x.2.2) ?_ fun hx => ?_; subst x; rotate_left; clear_value x) | (refine cut (a := Keeps st0 x.1) ?_ fun hx => ?_; subst x; rotate_left; clear_value x) | clear_value x)
    | split | refine pair_cut (by assumption) ?_ | refine pair_cut3 (by assumption) ?_ | refine pair_cut' (by assumption) ?_
    | fail_if_no_progress dsimp only

theorem dieWork_keeps {st0 : State} (s : State) (d : Nat) (p : Nat) (ecc : List EccEvent) (rd : List Nat) (wr : List Nat) (hk0 : Keeps st0 s) :
    Keeps st0 (dieWork s d p ecc rd wr).2 := by
  unfold dieWork
  with_reducible repeat' first
    | assumption | (intro) | apply each_keeps | apply ueStrike_keeps | apply dieFault_keeps | apply dieReads_keeps
    | (extract_lets +onlyGivenNames x; first | (refine cut (a := Keeps st0 x) ?_ fun hx => ?_; subst x; rotate_left; clear_value x) | (refine cut (a := Keeps st0 x.2) ?_ fun hx => ?_; subst x; rotate_left; clear_value x) | (refine cut (a := Keeps st0 x.2.2) ?_ fun hx => ?_; subst x; rotate_left; clear_value x) | (refine cut (a := Keeps st0 x.1) ?_ fun hx => ?_; subst x; rotate_left; clear_value x) | clear_value x)
    | split | refine pair_cut (by assumption) ?_ | refine pair_cut3 (by assumption) ?_ | refine pair_cut' (by assumption) ?_
    | fail_if_no_progress dsimp only

theorem pinwheelRun_keeps {st0 : State} (s : State) (d : Nat) (p : Nat) (ecc : List EccEvent) (j : BitVec 1024) (hk0 : Keeps st0 s) :
    Keeps st0 (pinwheelRun s d p ecc j) := by
  unfold pinwheelRun
  with_reducible repeat' first
    | assumption | (intro) | apply each_keeps | apply bumpBy_keeps | apply bump64_keeps | apply locPost_keeps | apply partPut_keeps
    | apply pinwheelPop_keeps | apply dieWork_keeps
    | (extract_lets +onlyGivenNames x; first | (refine cut (a := Keeps st0 x) ?_ fun hx => ?_; subst x; rotate_left; clear_value x) | (refine cut (a := Keeps st0 x.2) ?_ fun hx => ?_; subst x; rotate_left; clear_value x) | (refine cut (a := Keeps st0 x.2.2) ?_ fun hx => ?_; subst x; rotate_left; clear_value x) | (refine cut (a := Keeps st0 x.1) ?_ fun hx => ?_; subst x; rotate_left; clear_value x) | clear_value x)
    | split | refine pair_cut (by assumption) ?_ | refine pair_cut3 (by assumption) ?_ | refine pair_cut' (by assumption) ?_
    | fail_if_no_progress dsimp only

theorem dieBuffersClear_keeps {st0 : State} (s : State) (d : Nat) (pinwheel : Bool) (hk0 : Keeps st0 s) :
    Keeps st0 (dieBuffersClear s d pinwheel) := by
  unfold dieBuffersClear
  with_reducible repeat' first
    | assumption | (intro) | fail_if_no_progress (apply Keeps.lit) | split

theorem varSet_keeps {st0 : State} (s : State) (p : Nat) (v : Nat) (x : Variant) (hk0 : Keeps st0 s) :
    Keeps st0 (varSet s p v x) := by
  unfold varSet
  with_reducible repeat' first
    | assumption | fail_if_no_progress (apply Keeps.lit)

theorem varResult_keeps {st0 : State} (s : State) (p : Nat) (v : Nat) (res : Nat) (hk0 : Keeps st0 s) :
    Keeps st0 (varResult s p v res) := by
  unfold varResult
  with_reducible repeat' first
    | assumption | apply odSet_keeps

theorem varRegister_keeps {st0 : State} (s : State) (p : Nat) (v : Nat) (a : Nat) (hk0 : Keeps st0 s) :
    Keeps st0 (varRegister s p v a) := by
  unfold varRegister
  with_reducible repeat' first
    | assumption | apply varSet_keeps | apply varResult_keeps
    | (extract_lets +onlyGivenNames x; first | (refine cut (a := Keeps st0 x) ?_ fun hx => ?_; subst x; rotate_left; clear_value x) | clear_value x)
    | split

theorem varRetire_keeps {st0 : State} (s : State) (p : Nat) (v : Nat) (hk0 : Keeps st0 s) :
    Keeps st0 (varRetire s p v) := by
  unfold varRetire
  with_reducible repeat' first
    | assumption | apply variantIdle_keeps | apply varSet_keeps | apply varResult_keeps | fail_if_no_progress (apply Keeps.lit)
    | (extract_lets +onlyGivenNames x; first | (refine cut (a := Keeps st0 x) ?_ fun hx => ?_; subst x; rotate_left; clear_value x) | clear_value x)
    | split

theorem varWrite_keeps {st0 : State} (s : State) (rq : DictReq) (p : Nat) (v : List Byte) (hk0 : Keeps st0 s) :
    Keeps st0 (varWrite s rq p v) := by
  unfold varWrite
  with_reducible repeat' first
    | assumption | (intro) | apply dictWrite_keeps | apply varRegister_keeps | apply varRetire_keeps | fail_if_no_progress (apply Keeps.lit)
    | split

theorem varProtect_keeps {st0 : State} (s : State) (p : Nat) (v : Variant) (hk0 : Keeps st0 s) :
    Keeps st0 (varProtect s p v) := by
  unfold varProtect
  with_reducible repeat' first
    | assumption | (intro) | apply each_keeps | apply granSet_keeps | fail_if_no_progress (apply Keeps.lit)
    | (extract_lets +onlyGivenNames x; first | (refine cut (a := Keeps st0 x) ?_ fun hx => ?_; subst x; rotate_left; clear_value x) | clear_value x)
    | split

theorem deltaPop_keeps {st0 : State} (s : State) (d : Nat) (hk0 : Keeps st0 s) :
    Keeps st0 (deltaPop s d) := by
  unfold deltaPop
  with_reducible repeat' first
    | assumption | (intro) | fail_if_no_progress (apply Keeps.lit)

theorem deltaRun_keeps {st0 : State} (s : State) (d : Nat) (p : Nat) (ecc : List EccEvent) (j : W512) (e : DeltaEnv) (hk0 : Keeps st0 s) :
    Keeps st0 (deltaRun s d p ecc j e) := by
  unfold deltaRun
  with_reducible repeat' first
    | assumption | (intro) | apply each_keeps | apply bumpBy_keeps | apply locPost_keeps | apply partPut_keeps | apply dieWork_keeps
    | apply deltaPop_keeps
    | (extract_lets +onlyGivenNames x; first | (refine cut (a := Keeps st0 x) ?_ fun hx => ?_; subst x; rotate_left; clear_value x) | (refine cut (a := Keeps st0 x.2) ?_ fun hx => ?_; subst x; rotate_left; clear_value x) | (refine cut (a := Keeps st0 x.2.2) ?_ fun hx => ?_; subst x; rotate_left; clear_value x) | (refine cut (a := Keeps st0 x.1) ?_ fun hx => ?_; subst x; rotate_left; clear_value x) | clear_value x)
    | split | refine pair_cut (by assumption) ?_ | refine pair_cut3 (by assumption) ?_ | refine pair_cut' (by assumption) ?_
    | fail_if_no_progress dsimp only

theorem moveEnd_keeps {st0 : State} (s : State) (k : Nat) (i : Nat) (j : Job) (m : Moved) (st : Fin 11) (injected : Bool) (hk0 : Keeps st0 s) :
    Keeps st0 (moveEnd s k i j m st injected) := by
  unfold moveEnd
  with_reducible repeat' first
    | assumption | (intro) | apply each_keeps | apply bumpBy_keeps | apply foldJob_keeps | apply jobDone_keeps | apply ueStrike_keeps
    | (extract_lets +onlyGivenNames x; first | (refine cut (a := Keeps st0 x) ?_ fun hx => ?_; subst x; rotate_left; clear_value x) | clear_value x)
    | split

theorem hostAsk_keeps {st0 : State} (s : State) (k : Nat) (i : Nat) (j : Job) (reads : List (Nat × Nat)) (hk0 : Keeps st0 s) :
    Keeps st0 (hostAsk s k i j reads) := by
  unfold hostAsk
  with_reducible repeat' first
    | assumption | (intro) | apply emit_keeps | apply each_keeps | apply jobsSet_keeps | fail_if_no_progress (apply Keeps.lit)
    | (extract_lets +onlyGivenNames x; first | (refine cut (a := Keeps st0 x) ?_ fun hx => ?_; subst x; rotate_left; clear_value x) | clear_value x)

theorem hostLines_keeps {st0 : State} (s : State) (f : Nat) (l : List (Nat × List Byte)) (hk0 : Keeps st0 s) :
    Keeps st0 (hostLines s f l) := by
  unfold hostLines
  with_reducible repeat' first
    | assumption | (intro) | apply emit_keeps | apply each_keeps

theorem hostDeliver_keeps {st0 : State} (s : State) (part : Nat) (d : W512) (bs : List Byte) (hk0 : Keeps st0 s) :
    Keeps st0 (hostDeliver s part d bs).1 := by
  unfold hostDeliver
  with_reducible repeat' first
    | assumption | (intro) | apply storeLines_keeps | apply hostLines_keeps
    | (extract_lets +onlyGivenNames x; first | (refine cut (a := Keeps st0 x) ?_ fun hx => ?_; subst x; rotate_left; clear_value x) | (refine cut (a := Keeps st0 x.2) ?_ fun hx => ?_; subst x; rotate_left; clear_value x) | (refine cut (a := Keeps st0 x.2.2) ?_ fun hx => ?_; subst x; rotate_left; clear_value x) | (refine cut (a := Keeps st0 x.1) ?_ fun hx => ?_; subst x; rotate_left; clear_value x) | clear_value x)
    | split | refine pair_cut (by assumption) ?_ | refine pair_cut3 (by assumption) ?_ | refine pair_cut' (by assumption) ?_
    | fail_if_no_progress dsimp only

theorem copyFromHost_keeps {st0 : State} (s : State) (k : Nat) (i : Nat) (j : Job) (hk0 : Keeps st0 s) :
    Keeps st0 (copyFromHost s k i j) := by
  unfold copyFromHost
  with_reducible repeat' first
    | assumption | apply moveEnd_keeps | apply hostAsk_keeps | apply hostDeliver_keeps | fail_if_no_progress (apply Keeps.lit)
    | (extract_lets +onlyGivenNames x; first | (refine cut (a := Keeps st0 x) ?_ fun hx => ?_; subst x; rotate_left; clear_value x) | (refine cut (a := Keeps st0 x.2) ?_ fun hx => ?_; subst x; rotate_left; clear_value x) | (refine cut (a := Keeps st0 x.2.2) ?_ fun hx => ?_; subst x; rotate_left; clear_value x) | (refine cut (a := Keeps st0 x.1) ?_ fun hx => ?_; subst x; rotate_left; clear_value x) | clear_value x)
    | split | refine pair_cut (by assumption) ?_ | refine pair_cut3 (by assumption) ?_ | refine pair_cut' (by assumption) ?_
    | fail_if_no_progress dsimp only

theorem copyToHost_keeps {st0 : State} (s : State) (k : Nat) (i : Nat) (j : Job) (ecc : List EccEvent) (injected : Bool) (hk0 : Keeps st0 s) :
    Keeps st0 (copyToHost s k i j ecc injected) := by
  unfold copyToHost
  with_reducible repeat' first
    | assumption | (intro) | apply loadLines_keeps | apply moveEnd_keeps | apply hostLines_keeps
    | (extract_lets +onlyGivenNames x; first | (refine cut (a := Keeps st0 x) ?_ fun hx => ?_; subst x; rotate_left; clear_value x) | (refine cut (a := Keeps st0 x.2) ?_ fun hx => ?_; subst x; rotate_left; clear_value x) | (refine cut (a := Keeps st0 x.2.2) ?_ fun hx => ?_; subst x; rotate_left; clear_value x) | (refine cut (a := Keeps st0 x.1) ?_ fun hx => ?_; subst x; rotate_left; clear_value x) | clear_value x)
    | split | refine pair_cut (by assumption) ?_ | refine pair_cut3 (by assumption) ?_ | refine pair_cut' (by assumption) ?_
    | fail_if_no_progress dsimp only

theorem copyRun_keeps {st0 : State} (s : State) (k : Nat) (i : Nat) (j : Job) (ecc : List EccEvent) (injected : Bool) (hk0 : Keeps st0 s) :
    Keeps st0 (copyRun s k i j ecc injected) := by
  unfold copyRun
  with_reducible repeat' first
    | assumption | apply moveLines_keeps | apply jobFail_keeps | apply moveEnd_keeps | apply copyFromHost_keeps | apply copyToHost_keeps
    | (extract_lets +onlyGivenNames x; first | (refine cut (a := Keeps st0 x) ?_ fun hx => ?_; subst x; rotate_left; clear_value x) | (refine cut (a := Keeps st0 x.2) ?_ fun hx => ?_; subst x; rotate_left; clear_value x) | (refine cut (a := Keeps st0 x.2.2) ?_ fun hx => ?_; subst x; rotate_left; clear_value x) | (refine cut (a := Keeps st0 x.1) ?_ fun hx => ?_; subst x; rotate_left; clear_value x) | clear_value x)
    | split | refine pair_cut (by assumption) ?_ | refine pair_cut3 (by assumption) ?_ | refine pair_cut' (by assumption) ?_
    | fail_if_no_progress dsimp only

theorem fillRun_keeps {st0 : State} (s : State) (k : Nat) (i : Nat) (j : Job) (hk0 : Keeps st0 s) :
    Keeps st0 (fillRun s k i j) := by
  unfold fillRun
  with_reducible repeat' first
    | assumption | (intro) | apply moveFill_keeps | apply jobFail_keeps | apply moveEnd_keeps | apply hostLines_keeps
    | (extract_lets +onlyGivenNames x; first | (refine cut (a := Keeps st0 x) ?_ fun hx => ?_; subst x; rotate_left; clear_value x) | (refine cut (a := Keeps st0 x.2) ?_ fun hx => ?_; subst x; rotate_left; clear_value x) | (refine cut (a := Keeps st0 x.2.2) ?_ fun hx => ?_; subst x; rotate_left; clear_value x) | (refine cut (a := Keeps st0 x.1) ?_ fun hx => ?_; subst x; rotate_left; clear_value x) | clear_value x)
    | split | refine pair_cut (by assumption) ?_ | refine pair_cut3 (by assumption) ?_ | refine pair_cut' (by assumption) ?_
    | fail_if_no_progress dsimp only

theorem pagesRun_keeps {st0 : State} (s : State) (k : Nat) (i : Nat) (j : Job) (ecc : List EccEvent) (rd : Bool) (injected : Bool) (hk0 : Keeps st0 s) :
    Keeps st0 (pagesRun s k i j ecc rd injected) := by
  unfold pagesRun
  with_reducible repeat' first
    | assumption | apply pagesGo_keeps | apply moveEnd_keeps
    | (extract_lets +onlyGivenNames x; first | (refine cut (a := Keeps st0 x) ?_ fun hx => ?_; subst x; rotate_left; clear_value x) | (refine cut (a := Keeps st0 x.2) ?_ fun hx => ?_; subst x; rotate_left; clear_value x) | (refine cut (a := Keeps st0 x.2.2) ?_ fun hx => ?_; subst x; rotate_left; clear_value x) | (refine cut (a := Keeps st0 x.1) ?_ fun hx => ?_; subst x; rotate_left; clear_value x) | clear_value x)
    | split | refine pair_cut (by assumption) ?_ | refine pair_cut3 (by assumption) ?_ | refine pair_cut' (by assumption) ?_
    | fail_if_no_progress dsimp only

theorem engRun_keeps {st0 : State} (s : State) (e : DmaEng) (op : Nat) (gcm : Bool) (go : State → Nat → Nat → Job → State) (hgo : ∀ s0 y1 y2 y3, Keeps st0 s0 → Keeps st0 (go s0 y1 y2 y3)) (hk0 : Keeps st0 s) :
    Keeps st0 (engRun s e op gcm go) := by
  unfold engRun
  with_reducible repeat' first
    | assumption | (intro) | apply hgo | apply jobFail_keeps | fail_if_no_progress (apply Keeps.lit)
    | (extract_lets +onlyGivenNames x; first | (refine cut (a := Keeps st0 x) ?_ fun hx => ?_; subst x; rotate_left; clear_value x) | clear_value x)
    | split

theorem oldDropDue_keeps {st0 : State} (s : State) (slot : Nat) (hk0 : Keeps st0 s) :
    Keeps st0 (oldDropDue s slot) := by
  unfold oldDropDue
  with_reducible repeat' first
    | assumption | apply keySlotSet_keeps | fail_if_no_progress (apply Keeps.lit)
    | (extract_lets +onlyGivenNames x; first | (refine cut (a := Keeps st0 x) ?_ fun hx => ?_; subst x; rotate_left; clear_value x) | clear_value x)
    | split

theorem gcmOpenJob_keeps {st0 : State} (s : State) (k : Nat) (i : Nat) (j : Job) (bs : List Byte) (hk0 : Keeps st0 s) :
    Keeps st0 (gcmOpenJob s k i j bs) := by
  unfold gcmOpenJob
  with_reducible repeat' first
    | assumption | (intro) | apply storeLines_keeps | apply jobFail_keeps | apply moveEnd_keeps | fail_if_no_progress (apply Keeps.lit)
    | (extract_lets +onlyGivenNames x; first | (refine cut (a := Keeps st0 x) ?_ fun hx => ?_; subst x; rotate_left; clear_value x) | (refine cut (a := Keeps st0 x.2) ?_ fun hx => ?_; subst x; rotate_left; clear_value x) | (refine cut (a := Keeps st0 x.2.2) ?_ fun hx => ?_; subst x; rotate_left; clear_value x) | (refine cut (a := Keeps st0 x.1) ?_ fun hx => ?_; subst x; rotate_left; clear_value x) | clear_value x)
    | split | refine pair_cut (by assumption) ?_ | refine pair_cut3 (by assumption) ?_ | refine pair_cut' (by assumption) ?_
    | fail_if_no_progress dsimp only

theorem gcmRun_keeps {st0 : State} (s : State) (k : Nat) (i : Nat) (j : Job) (hk0 : Keeps st0 s) :
    Keeps st0 (gcmRun s k i j) := by
  unfold gcmRun
  with_reducible repeat' first
    | assumption | apply jobFail_keeps | apply hostAsk_keeps | apply gcmOpenJob_keeps | fail_if_no_progress (apply Keeps.lit)
    | (extract_lets +onlyGivenNames x; first | (refine cut (a := Keeps st0 x) ?_ fun hx => ?_; subst x; rotate_left; clear_value x) | clear_value x)
    | split

theorem hostReadFail_keeps {st0 : State} (s : State) (tag : Nat) (bs : List Byte) (hk0 : Keeps st0 s) :
    Keeps st0 (hostReadFail s tag bs) := by
  unfold hostReadFail
  with_reducible repeat' first
    | assumption | apply jobFail_keeps | apply moveEnd_keeps | apply hostDeliver_keeps | fail_if_no_progress (apply Keeps.lit)
    | (extract_lets +onlyGivenNames x; first | (refine cut (a := Keeps st0 x) ?_ fun hx => ?_; subst x; rotate_left; clear_value x) | (refine cut (a := Keeps st0 x.2) ?_ fun hx => ?_; subst x; rotate_left; clear_value x) | (refine cut (a := Keeps st0 x.2.2) ?_ fun hx => ?_; subst x; rotate_left; clear_value x) | (refine cut (a := Keeps st0 x.1) ?_ fun hx => ?_; subst x; rotate_left; clear_value x) | clear_value x)
    | split | refine pair_cut (by assumption) ?_ | refine pair_cut3 (by assumption) ?_ | refine pair_cut' (by assumption) ?_
    | fail_if_no_progress dsimp only

theorem jobCounters_keeps {st0 : State} (s : State) (p : Nat) (st : Fin 11) (hk0 : Keeps st0 s) :
    Keeps st0 (jobCounters s p st) := by
  unfold jobCounters
  with_reducible repeat' first
    | assumption | apply bump32_keeps | split

theorem jobPost_keeps {st0 : State} (s : State) (j : Job) (st : Fin 11) (hk0 : Keeps st0 s) :
    Keeps st0 (jobPost s j st) := by
  unfold jobPost
  with_reducible repeat' first
    | assumption | apply locPost_keeps | split

theorem jobReport_keeps {st0 : State} (s : State) (j : Job) (st : Fin 11) (hk0 : Keeps st0 s) :
    Keeps st0 (jobReport s j st) := by
  unfold jobReport
  with_reducible repeat' first
    | assumption | apply laneSet_keeps | apply laneFault_keeps | apply copyReport_keeps | apply complTo_keeps
    | fail_if_no_progress (apply Keeps.lit)
    | (extract_lets +onlyGivenNames x; first | (refine cut (a := Keeps st0 x) ?_ fun hx => ?_; subst x; rotate_left; clear_value x) | clear_value x)
    | split

theorem jobComplete_keeps {st0 : State} (s : State) (k : Nat) (j : Job) (st : Fin 11) (hk0 : Keeps st0 s) :
    Keeps st0 (jobComplete s k j st) := by
  unfold jobComplete
  with_reducible repeat' first
    | assumption | apply jobsSet_keeps | apply releaseReads_keeps | apply oldDropDue_keeps | apply jobCounters_keeps | apply jobPost_keeps
    | apply jobReport_keeps | fail_if_no_progress (apply Keeps.lit)
    | (extract_lets +onlyGivenNames x; first | (refine cut (a := Keeps st0 x) ?_ fun hx => ?_; subst x; rotate_left; clear_value x) | clear_value x)
    | split

theorem patrolLine_keeps {st0 : State} (s : State) (st : Nat) (e : EccEvent) (hk0 : Keeps st0 s) :
    Keeps st0 (patrolLine s st e) := by
  unfold patrolLine
  with_reducible repeat' first
    | assumption | apply bump32_keeps | apply bump64_keeps | apply corrected_keeps | apply ueStrike_keeps
    | fail_if_no_progress (apply Keeps.lit)
    | (extract_lets +onlyGivenNames x; first | (refine cut (a := Keeps st0 x) ?_ fun hx => ?_; subst x; rotate_left; clear_value x) | clear_value x)
    | split

theorem vPush_keeps {st0 : State} (s : State) (f : Vf) (c : VCompl) (hk0 : Keeps st0 s) :
    Keeps st0 (vPush s f c) := by
  unfold vPush
  with_reducible repeat' first
    | assumption | apply complPush_keeps

theorem vSet_keeps {st0 : State} (s : State) (n : Nat) (v : VSession) (hk0 : Keeps st0 s) :
    Keeps st0 (vSet s n v) := by
  unfold vSet
  with_reducible repeat' first
    | assumption | fail_if_no_progress (apply Keeps.lit)

theorem zDrop_keeps {st0 : State} (s : State) (i : Nat) (hk0 : Keeps st0 s) :
    Keeps st0 (zDrop s i) := by
  unfold zDrop
  with_reducible repeat' first
    | assumption | fail_if_no_progress (apply Keeps.lit)

theorem zRefuse_keeps {st0 : State} (s : State) (t : ZTaken) (status : Nat) (hk0 : Keeps st0 s) :
    Keeps st0 (zRefuse s t status) := by
  unfold zRefuse
  with_reducible repeat' first
    | assumption | apply vPush_keeps

theorem zCommand_keeps {st0 : State} (s : State) (op : Nat) (bad : VSession → W512 → Bool) (go : State → Nat → VSession → ZTaken → State) (hgo : ∀ s0 y1 y2 y3, Keeps st0 s0 → Keeps st0 (go s0 y1 y2 y3)) (hk0 : Keeps st0 s) :
    Keeps st0 (zCommand s op bad go) := by
  unfold zCommand
  with_reducible repeat' first
    | assumption | (intro) | apply hgo | apply zDrop_keeps | apply zRefuse_keeps | fail_if_no_progress (apply Keeps.lit)
    | (extract_lets +onlyGivenNames x; first | (refine cut (a := Keeps st0 x) ?_ fun hx => ?_; subst x; rotate_left; clear_value x) | clear_value x)
    | split

theorem vFlushed_keeps {st0 : State} (s : State) (n : Nat) (hk0 : Keeps st0 s) :
    Keeps st0 (vFlushed s n) := by
  unfold vFlushed
  with_reducible repeat' first
    | assumption | (intro) | apply each_keeps | apply vPush_keeps | apply vSet_keeps | fail_if_no_progress (apply Keeps.lit)
    | (extract_lets +onlyGivenNames x; first | (refine cut (a := Keeps st0 x) ?_ fun hx => ?_; subst x; rotate_left; clear_value x) | clear_value x)
    | split

theorem sessionEnd_keeps {st0 : State} (s : State) (n : Nat) (status : Nat) (tag : BitVec 64) (write : Bool) (hk0 : Keeps st0 s) :
    Keeps st0 (sessionEnd s n status tag write) := by
  unfold sessionEnd
  with_reducible repeat' first
    | assumption | (intro) | apply vPush_keeps | fail_if_no_progress (apply Keeps.lit)
    | (extract_lets +onlyGivenNames x; first | (refine cut (a := Keeps st0 x) ?_ fun hx => ?_; subst x; rotate_left; clear_value x) | clear_value x)
    | split

theorem sessionsEnd_keeps {st0 : State} (s : State) (p : Nat) (status : Nat) (write : Bool) (hk0 : Keeps st0 s) :
    Keeps st0 (sessionsEnd s p status write) := by
  unfold sessionsEnd
  with_reducible repeat' first
    | assumption | (intro) | apply each_keeps | apply sessionEnd_keeps

theorem zoeOff_keeps {st0 : State} (s : State) (hk0 : Keeps st0 s) :
    Keeps st0 (zoeOff s) := by
  unfold zoeOff
  with_reducible repeat' first
    | assumption | (intro) | apply foldl_keeps | apply foldl_keeps2 | apply foldl_keeps1 | fail_if_no_progress (apply Keeps.lit)
    | fail_if_no_progress dsimp only

theorem vEvent_keeps {st0 : State} (s : State) (n : Nat) (v : VSession) (status : Nat) (value : Nat) (hk0 : Keeps st0 s) :
    Keeps st0 (vEvent s n v status value) := by
  unfold vEvent
  with_reducible repeat' first
    | assumption | apply vPush_keeps

theorem waitKeyEnter_keeps {st0 : State} (s : State) (n : Nat) (v : VSession) (cause : Nat) (hk0 : Keeps st0 s) :
    Keeps st0 (waitKeyEnter s n v cause) := by
  unfold waitKeyEnter
  with_reducible repeat' first
    | assumption | apply vSet_keeps | apply vEvent_keeps | fail_if_no_progress (apply Keeps.lit) | split

theorem pictureBegin_keeps {st0 : State} (s : State) (n : Nat) (v : VSession) (h : PicHead) (k : Nat) (u : AUnit) (hk0 : Keeps st0 s) :
    Keeps st0 (pictureBegin s n v h k u) := by
  unfold pictureBegin
  with_reducible repeat' first
    | assumption | (intro) | apply vSet_keeps | apply vEvent_keeps | fail_if_no_progress (apply Keeps.lit)
    | (extract_lets +onlyGivenNames x; first | (refine cut (a := Keeps st0 x) ?_ fun hx => ?_; subst x; rotate_left; clear_value x) | clear_value x)
    | split

theorem vWrite_keeps {st0 : State} (s : State) (n : Nat) (a : Nat) (bs : List Byte) (hk0 : Keeps st0 s) :
    Keeps st0 (vWrite s n a bs) := by
  unfold vWrite
  with_reducible repeat' first
    | assumption | apply partPut_keeps | apply vSet_keeps | fail_if_no_progress (apply Keeps.lit)
    | (extract_lets +onlyGivenNames x; first | (refine cut (a := Keeps st0 x) ?_ fun hx => ?_; subst x; rotate_left; clear_value x) | clear_value x)
    | split

theorem greyPlane_keeps {st0 : State} (s : State) (n : Nat) (d : BitVec 1024) (depth : Nat) (a : Nat) (w : Nat) (h : Nat) (pitch : Nat) (hk0 : Keeps st0 s) :
    Keeps st0 (greyPlane s n d depth a w h pitch) := by
  unfold greyPlane
  with_reducible repeat' first
    | assumption | (intro) | apply each_keeps | apply vWrite_keeps

theorem generatePicture_keeps {st0 : State} (s : State) (n : Nat) (v : VSession) (depth : Nat) (mono : Bool) (hk0 : Keeps st0 s) :
    Keeps st0 (generatePicture s n v depth mono) := by
  unfold generatePicture
  with_reducible repeat' first
    | assumption | apply vSet_keeps | apply greyPlane_keeps | fail_if_no_progress (apply Keeps.lit)
    | (extract_lets +onlyGivenNames x; first | (refine cut (a := Keeps st0 x) ?_ fun hx => ?_; subst x; rotate_left; clear_value x) | clear_value x)
    | split

theorem decodeError_keeps {st0 : State} (s : State) (n : Nat) (e : ParseErr) (hk0 : Keeps st0 s) : Keeps st0 (decodeError s n e) := by
  simp only [decodeError]
  repeat' first
    | with_reducible assumption
    | (intro)
    | with_reducible apply bump32_keeps
    | with_reducible apply vSet_keeps
    | with_reducible apply waitKeyEnter_keeps
    | with_reducible apply generatePicture_keeps
    | fail_if_no_progress (with_reducible apply Keeps.lit)
    | fail_if_no_progress (with_reducible apply Keeps.lit')
    | split
    | with_reducible refine pair_cut (by assumption) ?_
    | with_reducible refine pair_cut' (by assumption) ?_
    | with_reducible refine takeFrame_keeps (by assumption) ?_

theorem nalEffect_keeps {st0 : State} (n : Nat) (s : State) (f : NalFact) (hk0 : Keeps st0 s) :
    Keeps st0 (nalEffect n s f) := by
  unfold nalEffect
  with_reducible repeat' first
    | assumption | (intro) | apply vSet_keeps | apply vFlushed_keeps | apply decodeError_keeps | fail_if_no_progress (apply Keeps.lit)
    | split

theorem vRead_keeps {st0 : State} (s : State) (n : Nat) (a : Nat) (len : Nat) (hk0 : Keeps st0 s) :
    Keeps st0 (vRead s n a len).2 := by
  unfold vRead
  with_reducible repeat' first
    | assumption | apply vSet_keeps | fail_if_no_progress (apply Keeps.lit) | split

theorem concealCtu_keeps {st0 : State} (s : State) (n : Nat) (k : Nat) (v : VSession) (h : PicHead) (row : Nat) (col : Nat) (hk0 : Keeps st0 s) :
    Keeps st0 (concealCtu s n k v h row col) := by
  unfold concealCtu
  with_reducible repeat' first
    | assumption | (intro) | apply each_keeps | apply vWrite_keeps | apply vRead_keeps | fail_if_no_progress (apply Keeps.lit)
    | (extract_lets +onlyGivenNames x; first | (refine cut (a := Keeps st0 x) ?_ fun hx => ?_; subst x; rotate_left; clear_value x) | (refine cut (a := Keeps st0 x.2) ?_ fun hx => ?_; subst x; rotate_left; clear_value x) | (refine cut (a := Keeps st0 x.2.2) ?_ fun hx => ?_; subst x; rotate_left; clear_value x) | (refine cut (a := Keeps st0 x.1) ?_ fun hx => ?_; subst x; rotate_left; clear_value x) | clear_value x)
    | split | refine pair_cut (by assumption) ?_ | refine pair_cut3 (by assumption) ?_ | refine pair_cut' (by assumption) ?_
    | fail_if_no_progress dsimp only

theorem decodeCtu_keeps {st0 : State} (s : State) (n : Nat) (k : Nat) (v : VSession) (h : PicHead) (u : AUnit) (covered : List Nat) (row : Nat) (col : Nat) (hk0 : Keeps st0 s) :
    Keeps st0 (decodeCtu s n k v h u covered row col) := by
  unfold decodeCtu
  with_reducible repeat' first
    | assumption | (intro) | apply each_keeps | apply vWrite_keeps
    | (extract_lets +onlyGivenNames x; first | (refine cut (a := Keeps st0 x) ?_ fun hx => ?_; subst x; rotate_left; clear_value x) | clear_value x)
    | split

theorem ctuRow_keeps {st0 : State} (s : State) (n : Nat) (k : Nat) (v : VSession) (h : PicHead) (u : AUnit) (hk0 : Keeps st0 s) :
    Keeps st0 (ctuRow s n k v h u) := by
  unfold ctuRow
  with_reducible repeat' first
    | assumption | (intro) | apply each_keeps | apply bumpBy_keeps | apply vSet_keeps | apply concealCtu_keeps | apply decodeCtu_keeps
    | fail_if_no_progress (apply Keeps.lit)
    | (extract_lets +onlyGivenNames x; first | (refine cut (a := Keeps st0 x) ?_ fun hx => ?_; subst x; rotate_left; clear_value x) | clear_value x)
    | split

theorem encodeOne_keeps {st0 : State} (s : State) (n : Nat) (v : VSession) (x : EncPic) (hk0 : Keeps st0 s) :
    Keeps st0 (encodeOne s n v x) := by
  unfold encodeOne
  with_reducible repeat' first
    | assumption | apply bump32_keeps | apply bump64_keeps | apply vPush_keeps | apply vSet_keeps | apply vFlushed_keeps
    | apply vWrite_keeps | fail_if_no_progress (apply Keeps.lit)
    | (extract_lets +onlyGivenNames x; first | (refine cut (a := Keeps st0 x) ?_ fun hx => ?_; subst x; rotate_left; clear_value x) | clear_value x)
    | split

theorem riskSet_keeps {st0 : State} (s : State) (p : Nat) (cause : Nat) (on : Bool) (hk0 : Keeps st0 s) :
    Keeps st0 (riskSet s p cause on) := by
  unfold riskSet
  with_reducible repeat' first
    | assumption | (intro) | apply each_keeps | apply odSet_keeps | apply eventTo_keeps | apply reqSet_keeps
    | fail_if_no_progress (apply Keeps.lit)
    | (extract_lets +onlyGivenNames x; first | (refine cut (a := Keeps st0 x) ?_ fun hx => ?_; subst x; rotate_left; clear_value x) | clear_value x)
    | split

theorem portLost_keeps {st0 : State} (s : State) (p : Nat) (hk0 : Keeps st0 s) :
    Keeps st0 (portLost s p) := by
  unfold portLost
  with_reducible repeat' first
    | assumption | apply portSet_keeps | apply portAGone_keeps
    | (extract_lets +onlyGivenNames x; first | (refine cut (a := Keeps st0 x) ?_ fun hx => ?_; subst x; rotate_left; clear_value x) | clear_value x)
    | split

theorem portTrain_keeps {st0 : State} (s : State) (p : Nat) (hk0 : Keeps st0 s) :
    Keeps st0 (portTrain s p) := by
  unfold portTrain
  with_reducible repeat' first
    | assumption | apply portSet_keeps | fail_if_no_progress (apply Keeps.lit)
    | (extract_lets +onlyGivenNames x; first | (refine cut (a := Keeps st0 x) ?_ fun hx => ?_; subst x; rotate_left; clear_value x) | clear_value x)
    | split

theorem creditGrant_keeps {st0 : State} (s : State) (port : Fin 2) (vc : Nat) (n : Nat) (hk0 : Keeps st0 s) :
    Keeps st0 (creditGrant s port vc n) := by
  unfold creditGrant
  with_reducible repeat' first
    | assumption | apply emit_keeps | split

theorem lanesSet_keeps {st0 : State} (s : State) (port : Fin 2) (bad : BitVec 8) (hk0 : Keeps st0 s) :
    Keeps st0 (lanesSet s port bad) := by
  unfold lanesSet
  with_reducible repeat' first
    | assumption | apply emit_keeps | apply portSet_keeps | apply portLost_keeps | fail_if_no_progress (apply Keeps.lit)
    | (extract_lets +onlyGivenNames x; first | (refine cut (a := Keeps st0 x) ?_ fun hx => ?_; subst x; rotate_left; clear_value x) | clear_value x)
    | split

theorem pktAnswer_keeps {st0 : State} (s : State) (h : BitVec 256) (key : Nat) (part : Nat) (typ : Nat) (status : Nat) (high : Nat) (hk0 : Keeps st0 s) :
    Keeps st0 (pktAnswer s h key part typ status high) := by
  unfold pktAnswer
  with_reducible repeat' first
    | assumption | apply linksDrain_keeps | apply pktGo_keeps | fail_if_no_progress (apply Keeps.lit)
    | (extract_lets +onlyGivenNames x; first | (refine cut (a := Keeps st0 x) ?_ fun hx => ?_; subst x; rotate_left; clear_value x) | clear_value x)
    | split

theorem cabPost_keeps {st0 : State} (s : State) (part : Nat) (n : Nat) (amt : W32) (hk0 : Keeps st0 s) :
    Keeps st0 (cabPost s part n amt) := by
  unfold cabPost
  with_reducible repeat' first
    | assumption | apply cntPost_keeps | apply cabSet_keeps | fail_if_no_progress (apply Keeps.lit)
    | (extract_lets +onlyGivenNames x; first | (refine cut (a := Keeps st0 x) ?_ fun hx => ?_; subst x; rotate_left; clear_value x) | clear_value x)
    | split

theorem refused_keeps {st0 : State} (s : State) (part : Nat) (hk0 : Keeps st0 s) :
    Keeps st0 (refused s part) := by
  unfold refused
  with_reducible repeat' first
    | assumption | apply bump32_keeps | split

theorem pktNak_keeps {st0 : State} (s : State) (h : BitVec 256) (part : Nat) (key : Nat) (status : Nat) (hk0 : Keeps st0 s) :
    Keeps st0 (pktNak s h part key status) := by
  unfold pktNak
  with_reducible repeat' first
    | assumption | apply pktAnswer_keeps | apply refused_keeps

theorem pktStopped_keeps {st0 : State} (s : State) (h : BitVec 256) (g : PktGate) (hk0 : Keeps st0 s) : Keeps st0 (pktStopped s h g) := by
  unfold pktStopped
  repeat' first
    | with_reducible assumption
    | (intro)
    | with_reducible apply refused_keeps
    | with_reducible apply pktNak_keeps
    | with_reducible apply bump32_keeps
    | fail_if_no_progress (with_reducible apply Keeps.lit)
    | fail_if_no_progress (with_reducible apply Keeps.lit')
    | (extract_lets +onlyGivenNames x; first | (refine cut (a := Keeps st0 x) ?_ fun hx => ?_; subst x; rotate_left; clear_value x) | (refine cut (a := Keeps st0 x.2) ?_ fun hx => ?_; subst x; rotate_left; clear_value x) | (refine cut (a := Keeps st0 x.1) ?_ fun hx => ?_; subst x; rotate_left; clear_value x) | clear_value x)
    | split
    | with_reducible refine pair_cut (by assumption) ?_
    | with_reducible refine pair_cut' (by assumption) ?_
    | with_reducible refine takeFrame_keeps (by assumption) ?_

theorem pktTake_keeps {st0 : State} (s : State) (h : BitVec 256) (part : Nat) (key : Nat) (hk0 : Keeps st0 s) :
    Keeps st0 (pktTake s h part key) := by
  unfold pktTake
  with_reducible repeat' first
    | assumption | apply pktAnswer_keeps | fail_if_no_progress (apply Keeps.lit)
    | (extract_lets +onlyGivenNames x; first | (refine cut (a := Keeps st0 x) ?_ fun hx => ?_; subst x; rotate_left; clear_value x) | clear_value x)

theorem pktLand_keeps {st0 : State} (s : State) (h : BitVec 256) (gr : Group) (key : Nat) (pt : List Byte) (hk0 : Keeps st0 s) :
    Keeps st0 (pktLand s h gr key pt) := by
  unfold pktLand
  with_reducible repeat' first
    | assumption | apply bump64_keeps | apply partPut_keeps | apply pktAnswer_keeps | apply cabPost_keeps | apply refused_keeps
    | apply pktNak_keeps | apply pktTake_keeps
    | (extract_lets +onlyGivenNames x; first | (refine cut (a := Keeps st0 x) ?_ fun hx => ?_; subst x; rotate_left; clear_value x) | clear_value x)
    | split

theorem pktReceive_keeps {st0 : State} (s : State) (pkt : Packet) (hk0 : Keeps st0 s) :
    Keeps st0 (pktReceive s pkt) := by
  unfold pktReceive
  with_reducible repeat' first
    | assumption | apply pktStopped_keeps | apply pktLand_keeps | fail_if_no_progress (apply Keeps.lit) | split

theorem tjSet_keeps {st0 : State} (s : State) (n : Nat) (j : TJob) (hk0 : Keeps st0 s) :
    Keeps st0 (tjSet s n j) := by
  unfold tjSet
  with_reducible repeat' first
    | assumption | fail_if_no_progress (apply Keeps.lit)

theorem jobPump_keeps {st0 : State} (s : State) (n k : Nat) (hk0 : Keeps st0 s) : Keeps st0 (jobPump s n k) := by
  induction k generalizing s with
  | zero => exact hk0
  | succ k ih =>
    unfold jobPump
    repeat' first
      | with_reducible assumption
      | (intro)
      | with_reducible apply ih
      | with_reducible apply ctxEnd_keeps
      | with_reducible apply tjSet_keeps
      | with_reducible apply pktOut_keeps
      | with_reducible apply partTouch_keeps
      | fail_if_no_progress (with_reducible apply Keeps.lit)
      | fail_if_no_progress (with_reducible apply Keeps.lit')
      | (extract_lets +onlyGivenNames x; first | (refine cut (a := Keeps st0 x) ?_ fun hx => ?_; subst x; rotate_left; clear_value x) | (refine cut (a := Keeps st0 x.2) ?_ fun hx => ?_; subst x; rotate_left; clear_value x) | (refine cut (a := Keeps st0 x.1) ?_ fun hx => ?_; subst x; rotate_left; clear_value x) | clear_value x)
      | split
      | with_reducible refine pair_cut (by assumption) ?_
      | with_reducible refine pair_cut' (by assumption) ?_
      | with_reducible refine takeFrame_keeps (by assumption) ?_

theorem jobSend_keeps {st0 : State} (s : State) (n : Nat) (hk0 : Keeps st0 s) :
    Keeps st0 (jobSend s n) := by
  unfold jobSend
  with_reducible repeat' first
    | assumption | apply linksDrain_keeps | apply jobPump_keeps

theorem jobsPump_keeps {st0 : State} (s : State) (g : Nat) (hk0 : Keeps st0 s) :
    Keeps st0 (jobsPump s g) := by
  unfold jobsPump
  with_reducible repeat' first
    | assumption | (intro) | apply each_keeps | apply linksDrain_keeps | apply g63Pump_keeps | apply jobPump_keeps | split

theorem jobLink_keeps {st0 : State} (s : State) (n : Nat) (port : Nat) (hk0 : Keeps st0 s) :
    Keeps st0 (jobLink s n port) := by
  unfold jobLink
  with_reducible repeat' first
    | assumption | apply strike_keeps | fail_if_no_progress (apply Keeps.lit)
    | (extract_lets +onlyGivenNames x; first | (refine cut (a := Keeps st0 x) ?_ fun hx => ?_; subst x; rotate_left; clear_value x) | clear_value x)
    | split

theorem pktLink_keeps {st0 : State} (s : State) (o : OutPkt) (hk0 : Keeps st0 s) :
    Keeps st0 (pktLink s o) := by
  unfold pktLink
  with_reducible repeat' first
    | assumption | (intro) | apply jobLink_keeps | fail_if_no_progress (apply Keeps.lit)
    | (extract_lets +onlyGivenNames x; first | (refine cut (a := Keeps st0 x) ?_ fun hx => ?_; subst x; rotate_left; clear_value x) | clear_value x)
    | split

theorem pktAgain_keeps {st0 : State} (s : State) (o : OutPkt) (hk0 : Keeps st0 s) :
    Keeps st0 (pktAgain s o) := by
  unfold pktAgain
  with_reducible repeat' first
    | assumption | (intro) | apply linksDrain_keeps | apply pktGo_keeps | fail_if_no_progress (apply Keeps.lit)
    | (extract_lets +onlyGivenNames x; first | (refine cut (a := Keeps st0 x) ?_ fun hx => ?_; subst x; rotate_left; clear_value x) | clear_value x)
    | split

theorem nakOne_keeps {st0 : State} (s : State) (o : OutPkt) (status : Nat) (hk0 : Keeps st0 s) :
    Keeps st0 (nakOne s o status) := by
  unfold nakOne
  with_reducible repeat' first
    | assumption | (intro) | apply ctxEnd_keeps | apply pktLink_keeps | apply pktAgain_keeps | fail_if_no_progress (apply Keeps.lit)
    | (extract_lets +onlyGivenNames x; first | (refine cut (a := Keeps st0 x) ?_ fun hx => ?_; subst x; rotate_left; clear_value x) | clear_value x)
    | split

theorem jobStart_keeps {st0 : State} (s : State) (n : Nat) (op : Nat) (run : State → TJob → State) (hrun : ∀ s0 y1, Keeps st0 s0 → Keeps st0 (run s0 y1)) (hk0 : Keeps st0 s) :
    Keeps st0 (jobStart s n op run) := by
  unfold jobStart
  with_reducible repeat' first
    | assumption | (intro) | apply hrun | apply ctxEnd_keeps | apply tjSet_keeps | fail_if_no_progress (apply Keeps.lit)
    | (extract_lets +onlyGivenNames x; first | (refine cut (a := Keeps st0 x) ?_ fun hx => ?_; subst x; rotate_left; clear_value x) | clear_value x)
    | split

theorem stepFlags_keeps {st0 : State} (s : State) (p : Nat) (fl : BitVec 4) (hk0 : Keeps st0 s) :
    Keeps st0 (stepFlags s p fl) := by
  unfold stepFlags
  with_reducible repeat' first
    | assumption | fail_if_no_progress (apply Keeps.lit) | split

theorem partnerGone_keeps {st0 : State} (s : State) (hk0 : Keeps st0 s) :
    Keeps st0 (partnerGone s) := by
  unfold partnerGone
  with_reducible repeat' first
    | assumption | (intro) | apply emit_keeps | apply each_keeps | apply heldAll_keeps | apply riskSet_keeps
    | fail_if_no_progress (apply Keeps.lit)
    | (extract_lets +onlyGivenNames x; first | (refine cut (a := Keeps st0 x) ?_ fun hx => ?_; subst x; rotate_left; clear_value x) | clear_value x)
    | split

theorem measure_keeps {st0 : State} (s : State) (i : FwImage) (hk0 : Keeps st0 s) :
    Keeps st0 (measure s i) := by
  unfold measure
  with_reducible repeat' first
    | assumption | fail_if_no_progress (apply Keeps.lit)

theorem quadPowerOn_keeps {st0 : State} (s : State) (q : Nat) (hk0 : Keeps st0 s) :
    Keeps st0 (quadPowerOn s q) := by
  unfold quadPowerOn
  with_reducible repeat' first
    | assumption | apply quadClear_keeps | fail_if_no_progress (apply Keeps.lit)
    | (extract_lets +onlyGivenNames x; first | (refine cut (a := Keeps st0 x) ?_ fun hx => ?_; subst x; rotate_left; clear_value x) | clear_value x)
    | split

theorem quadAssign_keeps {st0 : State} (s : State) (q : Nat) (hk0 : Keeps st0 s) :
    Keeps st0 (quadAssign s q) := by
  unfold quadAssign
  with_reducible repeat' first
    | assumption | apply quadClear_keeps | apply domSwitch_keeps | split

theorem ctxCreate_keeps {st0 : State} (s : State) (p : Nat) (mask : BitVec 16) (hk0 : Keeps st0 s) :
    Keeps st0 (ctxCreate s p mask) := by
  unfold ctxCreate
  with_reducible repeat' first
    | assumption | (intro) | apply each_keeps | apply ctxSet_keeps | fail_if_no_progress (apply Keeps.lit)
    | (extract_lets +onlyGivenNames x; first | (refine cut (a := Keeps st0 x) ?_ fun hx => ?_; subst x; rotate_left; clear_value x) | clear_value x)
    | split

theorem partPower_keeps {st0 : State} (s : State) (p : Nat) (hk0 : Keeps st0 s) :
    Keeps st0 (partPower s p) := by
  unfold partPower
  with_reducible repeat' first
    | assumption | (intro) | apply each_keeps | apply quadPowerOn_keeps | apply ctxCreate_keeps
    | (extract_lets +onlyGivenNames x; first | (refine cut (a := Keeps st0 x) ?_ fun hx => ?_; subst x; rotate_left; clear_value x) | clear_value x)
    | split

theorem ctxRemove_keeps {st0 : State} (s : State) (p : Nat) (hk0 : Keeps st0 s) :
    Keeps st0 (ctxRemove s p) := by
  unfold ctxRemove
  with_reducible repeat' first
    | assumption | (intro) | fail_if_no_progress (apply Keeps.lit) | fail_if_no_progress (apply Keeps.lit')
    | (extract_lets +onlyGivenNames x; first | (refine cut (a := Keeps st0 x) ?_ fun hx => ?_; subst x; rotate_left; clear_value x) | clear_value x)

theorem slotAssign_keeps {st0 : State} (s : State) (n : Nat) (kind : SlotKind) (owner : Nat) (key : Option Nat) (hk0 : Keeps st0 s) :
    Keeps st0 (slotAssign s n kind owner key) := by
  unfold slotAssign
  with_reducible repeat' first
    | assumption | apply odSet_keeps | apply keySlotSet_keeps
    | (extract_lets +onlyGivenNames x; first | (refine cut (a := Keeps st0 x) ?_ fun hx => ?_; subst x; rotate_left; clear_value x) | clear_value x)
    | split

theorem partSet_keeps {st0 : State} (s : State) (p : Nat) (x : Partn) (hk0 : Keeps st0 s) :
    Keeps st0 (partSet s p x) := by
  unfold partSet
  with_reducible repeat' first
    | assumption | apply statusVec_keeps | fail_if_no_progress (apply Keeps.lit)
    | (extract_lets +onlyGivenNames x; first | (refine cut (a := Keeps st0 x) ?_ fun hx => ?_; subst x; rotate_left; clear_value x) | clear_value x)
    | split

theorem formDo_keeps {st0 : State} (s : State) (p : Nat) (mask : BitVec 16) (hk0 : Keeps st0 s) :
    Keeps st0 (formDo s p mask) := by
  unfold formDo
  with_reducible repeat' first
    | assumption | (intro) | apply freeSteps_keeps | apply each_keeps | apply riskSet_keeps | apply quadAssign_keeps | apply partPower_keeps
    | apply slotAssign_keeps | apply partSet_keeps | fail_if_no_progress (apply Keeps.lit)
    | (extract_lets +onlyGivenNames x; first | (refine cut (a := Keeps st0 x) ?_ fun hx => ?_; subst x; rotate_left; clear_value x) | clear_value x)
    | split

theorem removeDo_keeps {st0 : State} (s : State) (p : Nat) (hk0 : Keeps st0 s) :
    Keeps st0 (removeDo s p) := by
  unfold removeDo
  with_reducible repeat' first
    | assumption | (intro) | apply each_keeps | apply odSet_keeps | apply granSet_keeps | apply rebuildRemoved_keeps
    | apply partReqsEnd_keeps | apply sessionsEnd_keeps | apply partSet_keeps | fail_if_no_progress (apply Keeps.lit)
    | (extract_lets +onlyGivenNames x; first | (refine cut (a := Keeps st0 x) ?_ fun hx => ?_; subst x; rotate_left; clear_value x) | clear_value x)

theorem grantsReturn_keeps {st0 : State} (s : State) (p : Nat) (hk0 : Keeps st0 s) :
    Keeps st0 (grantsReturn s p) := by
  unfold grantsReturn
  with_reducible repeat' first
    | assumption | (intro) | apply each_keeps | apply odReset_keeps | apply hubReset_keeps | apply dieBuffersClear_keeps
    | fail_if_no_progress (apply Keeps.lit)
    | (extract_lets +onlyGivenNames x; first | (refine cut (a := Keeps st0 x) ?_ fun hx => ?_; subst x; rotate_left; clear_value x) | clear_value x)
    | split

theorem dmaRevoke_keeps {st0 : State} (s : State) (p : Nat) (hk0 : Keeps st0 s) :
    Keeps st0 (dmaRevoke s p) := by
  unfold dmaRevoke
  with_reducible repeat' first
    | assumption | (intro) | fail_if_no_progress (apply Keeps.lit)
    | (extract_lets +onlyGivenNames x; first | (refine cut (a := Keeps st0 x) ?_ fun hx => ?_; subst x; rotate_left; clear_value x) | clear_value x)
    | split

theorem partFinish_keeps {st0 : State} (s : State) (p : Nat) (hk0 : Keeps st0 s) :
    Keeps st0 (partFinish s p) := by
  unfold partFinish
  with_reducible repeat' first
    | assumption | (intro) | apply partSet_keeps | fail_if_no_progress (apply Keeps.lit)
    | (extract_lets +onlyGivenNames x; first | (refine cut (a := Keeps st0 x) ?_ fun hx => ?_; subst x; rotate_left; clear_value x) | clear_value x)
    | split

theorem carForget_keeps {st0 : State} (s : State) (p : Nat) (hk0 : Keeps st0 s) :
    Keeps st0 (carForget s p) := by
  unfold carForget
  with_reducible repeat' first
    | assumption | (intro) | fail_if_no_progress (apply Keeps.lit)

theorem drainAll_keeps {st0 : State} (s : State) (p : Nat) (hk0 : Keeps st0 s) :
    Keeps st0 (drainAll s p) := by
  unfold drainAll
  with_reducible repeat' first
    | assumption | (intro) | apply each_keeps | apply reqEnd_keeps
    | (extract_lets +onlyGivenNames x; first | (refine cut (a := Keeps st0 x) ?_ fun hx => ?_; subst x; rotate_left; clear_value x) | clear_value x)
    | split

theorem revokeDo_keeps {st0 : State} (s : State) (p : Nat) (hk0 : Keeps st0 s) :
    Keeps st0 (revokeDo s p) := by
  unfold revokeDo
  with_reducible repeat' first
    | assumption | (intro) | apply each_keeps | apply bump32_keeps | apply granScrub_keeps | apply quadsOff_keeps | apply ctxRemove_keeps
    | apply slotAssign_keeps | apply partSet_keeps | apply grantsReturn_keeps | apply dmaRevoke_keeps | apply partFinish_keeps
    | apply carForget_keeps | apply drainAll_keeps
    | (extract_lets +onlyGivenNames x; first | (refine cut (a := Keeps st0 x) ?_ fun hx => ?_; subst x; rotate_left; clear_value x) | clear_value x)
    | split

theorem slotNext_keeps {st0 : State} (s : State) (n : Nat) (key : Nat) (keepOld : Bool) (hk0 : Keeps st0 s) :
    Keeps st0 (slotNext s n key keepOld) := by
  unfold slotNext
  with_reducible repeat' first
    | assumption | (intro) | apply keySlotSet_keeps | fail_if_no_progress (apply Keeps.lit)
    | (extract_lets +onlyGivenNames x; first | (refine cut (a := Keeps st0 x) ?_ fun hx => ?_; subst x; rotate_left; clear_value x) | clear_value x)
    | split

theorem rotateXtsDo_keeps {st0 : State} (s : State) (p : Nat) (hk0 : Keeps st0 s) :
    Keeps st0 (rotateXtsDo s p) := by
  unfold rotateXtsDo
  with_reducible repeat' first
    | assumption | (intro) | apply freeStep_keeps | apply slotNext_keeps | fail_if_no_progress (apply Keeps.lit)
    | (extract_lets +onlyGivenNames x; first | (refine cut (a := Keeps st0 x) ?_ fun hx => ?_; subst x; rotate_left; clear_value x) | clear_value x)
    | split

theorem rotatePrefixDo_keeps {st0 : State} (s : State) (p : Nat) (hk0 : Keeps st0 s) :
    Keeps st0 (rotatePrefixDo s p) := by
  unfold rotatePrefixDo
  with_reducible repeat' first
    | assumption | apply freeStep_keeps | apply rebuildAsk_keeps | apply slotNext_keeps | fail_if_no_progress (apply Keeps.lit)
    | (extract_lets +onlyGivenNames x; first | (refine cut (a := Keeps st0 x) ?_ fun hx => ?_; subst x; rotate_left; clear_value x) | clear_value x)
    | split

theorem gateCommand_keeps {st0 : State} (s : State) (v : Nat) (hk0 : Keeps st0 s) :
    Keeps st0 (gateCommand s v) := by
  unfold gateCommand
  dsimp only
  with_reducible repeat' first
    | assumption | (intro) | apply odSet_keeps | apply formDo_keeps | apply removeDo_keeps | apply rotateXtsDo_keeps
    | apply rotatePrefixDo_keeps | split

theorem gateWrite_keeps {st0 : State} (s : State) (rq : DictReq) (v : List Byte) (hk0 : Keeps st0 s) :
    Keeps st0 (gateWrite s rq v) := by
  unfold gateWrite
  with_reducible repeat' first
    | assumption | apply dictWrite_keeps | apply gateCommand_keeps | split

theorem mailAnswer_keeps {st0 : State} (s : State) (f : Nat) (bs : List Byte) (hk0 : Keeps st0 s) :
    Keeps st0 (mailAnswer s f bs) := by
  unfold mailAnswer
  with_reducible repeat' first
    | assumption | apply emit_keeps | apply fnSet_keeps | apply msixSend_keeps | fail_if_no_progress (apply Keeps.lit)
    | (extract_lets +onlyGivenNames x; first | (refine cut (a := Keeps st0 x) ?_ fun hx => ?_; subst x; rotate_left; clear_value x) | clear_value x)
    | split

theorem wrapOpen_keeps {st0 : State} (s : State) (p : Nat) (w : WrapHead) (hk0 : Keeps st0 s) :
    Keeps st0 (wrapOpen s p w) := by
  unfold wrapOpen
  with_reducible repeat' first
    | assumption | fail_if_no_progress (apply Keeps.lit)
    | (extract_lets +onlyGivenNames x; first | (refine cut (a := Keeps st0 x) ?_ fun hx => ?_; subst x; rotate_left; clear_value x) | clear_value x)
    | split

theorem keyActivate_keeps {st0 : State} (s : State) (n : Nat) (key : Nat) (hk0 : Keeps st0 s) :
    Keeps st0 (keyActivate s n key) := by
  unfold keyActivate
  with_reducible repeat' first
    | assumption | apply keySlotSet_keeps | apply slotNext_keeps | fail_if_no_progress (apply Keeps.lit)
    | (extract_lets +onlyGivenNames x; first | (refine cut (a := Keeps st0 x) ?_ fun hx => ?_; subst x; rotate_left; clear_value x) | clear_value x)

theorem wrapEntry_keeps {st0 : State} (s : State) (f : Nat) (w : WrapHead) (e : WrapEntry) (first : Bool) (last : Bool) (install : Bool) (hk0 : Keeps st0 s) :
    Keeps st0 (wrapEntry s f w e first last install) := by
  unfold wrapEntry
  with_reducible repeat' first
    | assumption | apply keySlotSet_keeps | apply mailAnswer_keeps | apply wrapOpen_keeps | apply keyActivate_keeps
    | fail_if_no_progress (apply Keeps.lit)
    | (extract_lets +onlyGivenNames x; first | (refine cut (a := Keeps st0 x) ?_ fun hx => ?_; subst x; rotate_left; clear_value x) | clear_value x)
    | split

theorem slotWrite_keeps {st0 : State} (s : State) (rq : DictReq) (n : Nat) (v : List Byte) (hk0 : Keeps st0 s) :
    Keeps st0 (slotWrite s rq n v) := by
  unfold slotWrite
  with_reducible repeat' first
    | assumption | (intro) | apply dictWrite_keeps | apply slotAssign_keeps | fail_if_no_progress (apply Keeps.lit)
    | (extract_lets +onlyGivenNames x; first | (refine cut (a := Keeps st0 x) ?_ fun hx => ?_; subst x; rotate_left; clear_value x) | clear_value x)
    | split

theorem marksIssue_keeps {st0 : State} (s : State) (counts : SMap W32) (hk0 : Keeps st0 s) :
    Keeps st0 (marksIssue s counts) := by
  unfold marksIssue
  with_reducible repeat' first
    | assumption | (intro) | apply each_keeps | apply complTo_keeps | fail_if_no_progress (apply Keeps.lit)
    | (extract_lets +onlyGivenNames x; first | (refine cut (a := Keeps st0 x) ?_ fun hx => ?_; subst x; rotate_left; clear_value x) | clear_value x)

theorem snapDrop_keeps {st0 : State} (s : State) (hk0 : Keeps st0 s) :
    Keeps st0 (snapDrop s) := by
  unfold snapDrop
  with_reducible repeat' first
    | assumption | fail_if_no_progress (apply Keeps.lit) | split

theorem snapSend_keeps {st0 : State} (s : State) (hk0 : Keeps st0 s) :
    Keeps st0 (snapSend s) := by
  unfold snapSend
  with_reducible repeat' first
    | assumption | (intro) | apply g63Send_keeps | apply foldl_keeps | apply foldl_keeps2 | apply foldl_keeps1
    | fail_if_no_progress (apply Keeps.lit)
    | (extract_lets +onlyGivenNames x; first | (refine cut (a := Keeps st0 x) ?_ fun hx => ?_; subst x; rotate_left; clear_value x) | (refine cut (a := Keeps st0 x.2) ?_ fun hx => ?_; subst x; rotate_left; clear_value x) | (refine cut (a := Keeps st0 x.2.2) ?_ fun hx => ?_; subst x; rotate_left; clear_value x) | (refine cut (a := Keeps st0 x.1) ?_ fun hx => ?_; subst x; rotate_left; clear_value x) | clear_value x)
    | fail_if_no_progress dsimp only

theorem snapNow_keeps {st0 : State} (s : State) (hk0 : Keeps st0 s) :
    Keeps st0 (snapNow s) := by
  unfold snapNow
  with_reducible repeat' first
    | assumption | apply snapDrop_keeps | apply snapSend_keeps

theorem snapTake_keeps {st0 : State} (s : State) (hk0 : Keeps st0 s) :
    Keeps st0 (snapTake s) := by
  unfold snapTake
  with_reducible repeat' first
    | assumption | apply marksIssue_keeps | apply snapNow_keeps | fail_if_no_progress (apply Keeps.lit)
    | (extract_lets +onlyGivenNames x; first | (refine cut (a := Keeps st0 x) ?_ fun hx => ?_; subst x; rotate_left; clear_value x) | clear_value x)
    | split

theorem snapAsk_keeps {st0 : State} (s : State) (hk0 : Keeps st0 s) :
    Keeps st0 (snapAsk s) := by
  unfold snapAsk
  with_reducible repeat' first
    | assumption | fail_if_no_progress (apply Keeps.lit)

theorem thermalEnd_keeps {st0 : State} (s : State) (hk0 : Keeps st0 s) :
    Keeps st0 (thermalEnd s) := by
  unfold thermalEnd
  with_reducible repeat' first
    | assumption | (intro) | apply each_keeps | apply diePowerOff_keeps | apply declareFailed_keeps | apply zoeOff_keeps
    | fail_if_no_progress (apply Keeps.lit)
    | (extract_lets +onlyGivenNames x; first | (refine cut (a := Keeps st0 x) ?_ fun hx => ?_; subst x; rotate_left; clear_value x) | clear_value x)

theorem snapEnd_keeps {st0 : State} (s : State) (hk0 : Keeps st0 s) :
    Keeps st0 (snapEnd s) := by
  unfold snapEnd
  with_reducible repeat' first
    | assumption | apply sendYield_keeps | apply thermalEnd_keeps | split

theorem savedStore_keeps {st0 : State} (s : State) (r : SnapRecord) (hk0 : Keeps st0 s) :
    Keeps st0 (savedStore s r) := by
  unfold savedStore
  with_reducible repeat' first
    | assumption | (intro) | apply hbmPut_keeps | fail_if_no_progress (apply Keeps.lit)
    | (extract_lets +onlyGivenNames x; first | (refine cut (a := Keeps st0 x) ?_ fun hx => ?_; subst x; rotate_left; clear_value x) | (refine cut (a := ∀ v, Keeps st0 (x v)) ?_ fun hf => ?_; subst x; rotate_left; clear_value x) | clear_value x)
    | split | apply hf

theorem coldStandby_keeps {st0 : State} (s : State) (hk0 : Keeps st0 s) :
    Keeps st0 (coldStandby s) := by
  unfold coldStandby
  with_reducible repeat' first
    | assumption | (intro) | apply each_keeps | apply quadsOff_keeps | apply zoeOff_keeps | apply ctxRemove_keeps
    | fail_if_no_progress (apply Keeps.lit)
    | (extract_lets +onlyGivenNames x; first | (refine cut (a := Keeps st0 x) ?_ fun hx => ?_; subst x; rotate_left; clear_value x) | clear_value x)

theorem clocksStable_keeps {st0 : State} (s : State) (qs : List Nat) (hk0 : Keeps st0 s) :
    Keeps st0 (clocksStable s qs) := by
  unfold clocksStable
  with_reducible repeat' first
    | assumption | (intro) | apply each_keeps | fail_if_no_progress (apply Keeps.lit)
    | (extract_lets +onlyGivenNames x; first | (refine cut (a := Keeps st0 x) ?_ fun hx => ?_; subst x; rotate_left; clear_value x) | clear_value x)

theorem frameClaim_keeps {st0 : State} (s : State) (p : Nat) (f : Nat) (e : Bool) (hk0 : Keeps st0 s) :
    Keeps st0 (frameClaim s p f e) := by
  unfold frameClaim
  with_reducible repeat' first
    | assumption | apply frameUse_keeps | apply incRef_keeps | split

theorem restoreEntry_keeps {st0 : State} (s : State) (h : Nat) (b : W512) (hk0 : Keeps st0 s) :
    Keeps st0 (restoreEntry s h b) := by
  unfold restoreEntry
  with_reducible repeat' first
    | assumption | (intro) | apply each_keeps | apply reqSet_keeps | apply frameClaim_keeps | apply foldl_keeps | apply foldl_keeps2
    | apply foldl_keeps1 | fail_if_no_progress (apply Keeps.lit)
    | (extract_lets +onlyGivenNames x; first | (refine cut (a := Keeps st0 x) ?_ fun hx => ?_; subst x; rotate_left; clear_value x) | (refine cut (a := Keeps st0 x.2) ?_ fun hx => ?_; subst x; rotate_left; clear_value x) | (refine cut (a := Keeps st0 x.2.2) ?_ fun hx => ?_; subst x; rotate_left; clear_value x) | (refine cut (a := Keeps st0 x.1) ?_ fun hx => ?_; subst x; rotate_left; clear_value x) | clear_value x)
    | split | refine pair_cut (by assumption) ?_ | refine pair_cut3 (by assumption) ?_ | refine pair_cut' (by assumption) ?_
    | fail_if_no_progress dsimp only

theorem restoreHold_keeps {st0 : State} (s : State) (h : Nat) (hk0 : Keeps st0 s) :
    Keeps st0 (restoreHold s h) := by
  unfold restoreHold
  with_reducible repeat' first
    | assumption | (intro) | apply freeStep_keeps | apply each_keeps | apply frameUse_keeps | apply reqSet_keeps | apply reqEnd_keeps
    | fail_if_no_progress (apply Keeps.lit)
    | (extract_lets +onlyGivenNames x; first | (refine cut (a := Keeps st0 x) ?_ fun hx => ?_; subst x; rotate_left; clear_value x) | clear_value x)
    | split

theorem restoreIndex_keeps {st0 : State} (s : State) (h : Nat) (hk0 : Keeps st0 s) :
    Keeps st0 (restoreIndex s h) := by
  unfold restoreIndex
  with_reducible repeat' first
    | assumption | (intro) | apply each_keeps | apply prefixInsert_keeps
    | (extract_lets +onlyGivenNames x; first | (refine cut (a := Keeps st0 x) ?_ fun hx => ?_; subst x; rotate_left; clear_value x) | clear_value x)
    | split

theorem restoreCow_keeps {st0 : State} (s : State) (h : Nat) (hk0 : Keeps st0 s) :
    Keeps st0 (restoreCow s h) := by
  unfold restoreCow
  with_reducible repeat' first
    | assumption | (intro) | apply reqSet_keeps | fail_if_no_progress (apply Keeps.lit)
    | (extract_lets +onlyGivenNames x; first | (refine cut (a := Keeps st0 x) ?_ fun hx => ?_; subst x; rotate_left; clear_value x) | clear_value x)
    | split

theorem hbmWake_keeps {st0 : State} (s : State) (hk0 : Keeps st0 s) :
    Keeps st0 (hbmWake s) := by
  unfold hbmWake
  with_reducible repeat' first
    | assumption | (intro) | fail_if_no_progress (apply Keeps.lit) | fail_if_no_progress (apply Keeps.lit')
    | (extract_lets +onlyGivenNames x; first | (refine cut (a := Keeps st0 x) ?_ fun hx => ?_; subst x; rotate_left; clear_value x) | clear_value x)
    | split

theorem imagesReload_keeps {st0 : State} (s : State) (hk0 : Keeps st0 s) :
    Keeps st0 (imagesReload s) := by
  unfold imagesReload
  with_reducible repeat' first
    | assumption | (intro) | apply each_keeps | apply ctxLoad_keeps | apply declareFailed_keeps | fail_if_no_progress (apply Keeps.lit)
    | split

theorem takeoverDo_keeps {st0 : State} (s : State) (hk0 : Keeps st0 s) :
    Keeps st0 (takeoverDo s) := by
  unfold takeoverDo
  with_reducible repeat' first
    | assumption | (intro) | apply emit_keeps | apply each_keeps | apply bump32_keeps | apply retainFix_keeps | apply quadsOff_keeps
    | apply partPower_keeps | apply clocksStable_keeps | apply restoreEntry_keeps | apply restoreHold_keeps | apply restoreIndex_keeps
    | apply restoreCow_keeps | apply hbmWake_keeps | apply imagesReload_keeps | apply foldl_keeps | apply foldl_keeps2 | apply foldl_keeps1
    | fail_if_no_progress (apply Keeps.lit)
    | (extract_lets +onlyGivenNames x; first | (refine cut (a := Keeps st0 x) ?_ fun hx => ?_; subst x; rotate_left; clear_value x) | (refine cut (a := Keeps st0 x.2) ?_ fun hx => ?_; subst x; rotate_left; clear_value x) | (refine cut (a := Keeps st0 x.2.2) ?_ fun hx => ?_; subst x; rotate_left; clear_value x) | (refine cut (a := Keeps st0 x.1) ?_ fun hx => ?_; subst x; rotate_left; clear_value x) | clear_value x)
    | split | fail_if_no_progress dsimp only

theorem goAlone_keeps {st0 : State} (s : State) (hk0 : Keeps st0 s) :
    Keeps st0 (goAlone s) := by
  unfold goAlone
  with_reducible repeat' first
    | assumption | (intro) | apply each_keeps | apply heldAll_keeps | apply riskSet_keeps | fail_if_no_progress (apply Keeps.lit)
    | (extract_lets +onlyGivenNames x; first | (refine cut (a := Keeps st0 x) ?_ fun hx => ?_; subst x; rotate_left; clear_value x) | clear_value x)

theorem compareAgain_keeps {st0 : State} (s : State) (p : PartId) (hk0 : Keeps st0 s) :
    Keeps st0 (compareAgain s p) := by
  unfold compareAgain
  with_reducible repeat' first
    | assumption | apply g63Send_keeps | fail_if_no_progress (apply Keeps.lit)
    | (extract_lets +onlyGivenNames x; first | (refine cut (a := Keeps st0 x) ?_ fun hx => ?_; subst x; rotate_left; clear_value x) | clear_value x)

theorem rehearse_keeps {st0 : State} (s : State) (hk0 : Keeps st0 s) :
    Keeps st0 (rehearse s) := by
  unfold rehearse
  with_reducible repeat' first
    | assumption | (intro) | apply each_keeps | apply quadPowerOn_keeps | apply partPower_keeps | apply clocksStable_keeps
    | fail_if_no_progress (apply Keeps.lit)
    | (extract_lets +onlyGivenNames x; first | (refine cut (a := Keeps st0 x) ?_ fun hx => ?_; subst x; rotate_left; clear_value x) | clear_value x)
    | split

theorem armTell_keeps {st0 : State} (s : State) (hk0 : Keeps st0 s) :
    Keeps st0 (armTell s) := by
  unfold armTell
  with_reducible repeat' first
    | assumption | apply g63Send_keeps | split

theorem armDrop_keeps {st0 : State} (s : State) (hk0 : Keeps st0 s) :
    Keeps st0 (armDrop s) := by
  unfold armDrop
  with_reducible repeat' first
    | assumption | apply armTell_keeps | fail_if_no_progress (apply Keeps.lit) | split

theorem seqRestart_keeps {st0 : State} (s : State) (hk0 : Keeps st0 s) :
    Keeps st0 (seqRestart s) := by
  unfold seqRestart
  with_reducible repeat' first
    | assumption | apply heldAll_keeps | fail_if_no_progress (apply Keeps.lit)
    | (extract_lets +onlyGivenNames x; first | (refine cut (a := Keeps st0 x) ?_ fun hx => ?_; subst x; rotate_left; clear_value x) | clear_value x)

theorem qwSet_keeps {st0 : State} (s : State) (q : Nat) (x : QuadW) (hk0 : Keeps st0 s) :
    Keeps st0 (qwSet s q x) := by
  unfold qwSet
  with_reducible repeat' first
    | assumption | fail_if_no_progress (apply Keeps.lit)

theorem effMove_keeps {st0 : State} (s : State) (hk0 : Keeps st0 s) :
    Keeps st0 (effMove s) := by
  unfold effMove
  with_reducible repeat' first
    | assumption | fail_if_no_progress (apply Keeps.lit)
    | (extract_lets +onlyGivenNames x; first | (refine cut (a := Keeps st0 x) ?_ fun hx => ?_; subst x; rotate_left; clear_value x) | clear_value x)

theorem demandNote_keeps {st0 : State} (s : State) (demand : List Nat) (hk0 : Keeps st0 s) :
    Keeps st0 (demandNote s demand) := by
  unfold demandNote
  with_reducible repeat' first
    | assumption | (intro) | apply each_keeps | apply qwSet_keeps | fail_if_no_progress (apply Keeps.lit)
    | (extract_lets +onlyGivenNames x; first | (refine cut (a := Keeps st0 x) ?_ fun hx => ?_; subst x; rotate_left; clear_value x) | clear_value x)
    | split

theorem quadAim_keeps {st0 : State} (s : State) (q : Nat) (f : Nat) (r : Nat) (hk0 : Keeps st0 s) :
    Keeps st0 (quadAim s q f r) := by
  unfold quadAim
  with_reducible repeat' first
    | assumption | apply qwSet_keeps | fail_if_no_progress (apply Keeps.lit)
    | (extract_lets +onlyGivenNames x; first | (refine cut (a := Keeps st0 x) ?_ fun hx => ?_; subst x; rotate_left; clear_value x) | clear_value x)
    | split

theorem quadsSet_keeps {st0 : State} (s : State) (hk0 : Keeps st0 s) :
    Keeps st0 (quadsSet s) := by
  unfold quadsSet
  with_reducible repeat' first
    | assumption | (intro) | apply each_keeps | apply qwSet_keeps | apply quadAim_keeps | fail_if_no_progress (apply Keeps.lit)
    | (extract_lets +onlyGivenNames x; first | (refine cut (a := Keeps st0 x) ?_ fun hx => ?_; subst x; rotate_left; clear_value x) | clear_value x)
    | split

theorem ballastSet_keeps {st0 : State} (x : Nat × State) (q : Nat) (hk0 : Keeps st0 x.2) : Keeps st0 (ballastSet x q).2 := by
  obtain ⟨a, s⟩ := x
  exact qwSet_keeps _ _ _ hk0

theorem ballastAll_keeps {st0 : State} (s : State) (hk0 : Keeps st0 s) :
    Keeps st0 (ballastAll s) := by
  unfold ballastAll
  with_reducible repeat' first
    | assumption | (intro) | apply ballastSet_keeps | apply foldl_keeps | apply foldl_keeps2 | apply foldl_keeps1
    | fail_if_no_progress (apply Keeps.lit)
    | (extract_lets +onlyGivenNames x; first | (refine cut (a := Keeps st0 x) ?_ fun hx => ?_; subst x; rotate_left; clear_value x) | (refine cut (a := Keeps st0 x.2) ?_ fun hx => ?_; subst x; rotate_left; clear_value x) | (refine cut (a := Keeps st0 x.2.2) ?_ fun hx => ?_; subst x; rotate_left; clear_value x) | (refine cut (a := Keeps st0 x.1) ?_ fun hx => ?_; subst x; rotate_left; clear_value x) | clear_value x)
    | split | refine pair_cut (by assumption) ?_ | refine pair_cut3 (by assumption) ?_ | refine pair_cut' (by assumption) ?_
    | fail_if_no_progress dsimp only

theorem breachJudge_keeps {st0 : State} (s : State) (hk0 : Keeps st0 s) :
    Keeps st0 (breachJudge s) := by
  unfold breachJudge
  with_reducible repeat' first
    | assumption | apply bump32_keeps | fail_if_no_progress (apply Keeps.lit)
    | (extract_lets +onlyGivenNames x; first | (refine cut (a := Keeps st0 x) ?_ fun hx => ?_; subst x; rotate_left; clear_value x) | clear_value x)
    | split

theorem riskJudge_keeps {st0 : State} (s : State) (hk0 : Keeps st0 s) :
    Keeps st0 (riskJudge s) := by
  unfold riskJudge
  with_reducible repeat' first
    | assumption | (intro) | apply each_keeps | apply riskSet_keeps
    | (extract_lets +onlyGivenNames x; first | (refine cut (a := Keeps st0 x) ?_ fun hx => ?_; subst x; rotate_left; clear_value x) | clear_value x)

theorem trimStep_keeps {st0 : State} (s : State) (q : Nat) (hk0 : Keeps st0 s) :
    Keeps st0 (trimStep s q) := by
  unfold trimStep
  with_reducible repeat' first
    | assumption | apply odSet_keeps | apply qwSet_keeps | fail_if_no_progress (apply Keeps.lit)
    | (extract_lets +onlyGivenNames x; first | (refine cut (a := Keeps st0 x) ?_ fun hx => ?_; subst x; rotate_left; clear_value x) | clear_value x)
    | split

theorem volatileLost_keeps {st0 : State} (s : State) (hk0 : Keeps st0 s) : Keeps st0 (volatileLost s) :=
  ⟨hk0.queue, hk0.fuses, fun _ => reset_memory_wf⟩

theorem coolJudge_keeps {st0 : State} (s : State) (hk0 : Keeps st0 s) :
    Keeps st0 (coolJudge s) := by
  unfold coolJudge
  with_reducible repeat' first
    | assumption | fail_if_no_progress (apply Keeps.lit)
    | (extract_lets +onlyGivenNames x; first | (refine cut (a := Keeps st0 x) ?_ fun hx => ?_; subst x; rotate_left; clear_value x) | clear_value x)
    | split

theorem rideEnter_keeps {st0 : State} (s : State) (hk0 : Keeps st0 s) :
    Keeps st0 (rideEnter s) := by
  unfold rideEnter
  with_reducible repeat' first
    | assumption | (intro) | apply each_keeps | apply qwSet_keeps | fail_if_no_progress (apply Keeps.lit) | split

theorem activationStop_keeps {st0 : State} (s : State) (hk0 : Keeps st0 s) :
    Keeps st0 (activationStop s) := by
  unfold activationStop
  with_reducible repeat' first
    | assumption | apply msixSend_keeps | apply armDrop_keeps | fail_if_no_progress (apply Keeps.lit)
    | (extract_lets +onlyGivenNames x; first | (refine cut (a := Keeps st0 x) ?_ fun hx => ?_; subst x; rotate_left; clear_value x) | clear_value x)
    | split

theorem thermalShutdown_keeps {st0 : State} (s : State) (hk0 : Keeps st0 s) :
    Keeps st0 (thermalShutdown s) := by
  unfold thermalShutdown
  with_reducible repeat' first
    | assumption | apply snapAsk_keeps | apply thermalEnd_keeps | apply activationStop_keeps | fail_if_no_progress (apply Keeps.lit)
    | (extract_lets +onlyGivenNames x; first | (refine cut (a := Keeps st0 x) ?_ fun hx => ?_; subst x; rotate_left; clear_value x) | clear_value x)
    | split

theorem inletAct_keeps {st0 : State} (s : State) (hk0 : Keeps st0 s) :
    Keeps st0 (inletAct s) := by
  unfold inletAct
  with_reducible repeat' first
    | assumption | apply volatileLost_keeps | apply thermalShutdown_keeps | split

theorem pairRead_keeps {st0 : State} (s : State) (n : Nat) (a : Int) (b : Int) (hk0 : Keeps st0 s) :
    Keeps st0 (pairRead s n a b) := by
  unfold pairRead
  with_reducible repeat' first
    | assumption | apply bump32_keeps | apply notice_keeps | fail_if_no_progress (apply Keeps.lit)
    | (extract_lets +onlyGivenNames x; first | (refine cut (a := Keeps st0 x) ?_ fun hx => ?_; subst x; rotate_left; clear_value x) | clear_value x)
    | split

theorem quadHeat_keeps {st0 : State} (s : State) (q : Nat) (hk0 : Keeps st0 s) :
    Keeps st0 (quadHeat s q) := by
  unfold quadHeat
  with_reducible repeat' first
    | assumption | apply fenceScope_keeps | apply qwSet_keeps | fail_if_no_progress (apply Keeps.lit)
    | (extract_lets +onlyGivenNames x; first | (refine cut (a := Keeps st0 x) ?_ fun hx => ?_; subst x; rotate_left; clear_value x) | clear_value x)
    | split

theorem stackRead_keeps {st0 : State} (s : State) (k : Nat) (t : Int) (hk0 : Keeps st0 s) :
    Keeps st0 (stackRead s k t) := by
  unfold stackRead
  with_reducible repeat' first
    | assumption | apply notice_keeps | fail_if_no_progress (apply Keeps.lit)
    | (extract_lets +onlyGivenNames x; first | (refine cut (a := Keeps st0 x) ?_ fun hx => ?_; subst x; rotate_left; clear_value x) | clear_value x)
    | split

theorem inletRead_keeps {st0 : State} (s : State) (t outlet : Int) (hk0 : Keeps st0 s) : Keeps st0 (inletRead s t outlet) := by
  simp only [inletRead]
  repeat' first
    | with_reducible assumption
    | (intro)
    | with_reducible apply coolJudge_keeps
    | with_reducible apply notice_keeps
    | with_reducible apply rideEnter_keeps
    | fail_if_no_progress (with_reducible apply Keeps.lit)
    | fail_if_no_progress (with_reducible apply Keeps.lit')
    | split
    | with_reducible refine pair_cut (by assumption) ?_
    | with_reducible refine pair_cut' (by assumption) ?_
    | with_reducible refine takeFrame_keeps (by assumption) ?_

theorem stretchEnd_keeps {st0 : State} (s : State) (q : Nat) (hk0 : Keeps st0 s) :
    Keeps st0 (stretchEnd s q) := by
  unfold stretchEnd
  with_reducible repeat' first
    | assumption | apply qwSet_keeps | fail_if_no_progress (apply Keeps.lit)
    | (extract_lets +onlyGivenNames x; first | (refine cut (a := Keeps st0 x) ?_ fun hx => ?_; subst x; rotate_left; clear_value x) | clear_value x)
    | split

theorem judgedSet_keeps {st0 : State} (s : State) (k : Nat) (j : Judgement) (hk0 : Keeps st0 s) :
    Keeps st0 (judgedSet s k j) := by
  unfold judgedSet
  with_reducible repeat' first
    | assumption | fail_if_no_progress (apply Keeps.lit)

theorem domFollow_keeps {st0 : State} (s : State) (n : Nat) (hk0 : Keeps st0 s) :
    Keeps st0 (domFollow s n) := by
  unfold domFollow
  with_reducible repeat' first
    | assumption | apply domSwitch_keeps | fail_if_no_progress (apply Keeps.lit)
    | (extract_lets +onlyGivenNames x; first | (refine cut (a := Keeps st0 x) ?_ fun hx => ?_; subst x; rotate_left; clear_value x) | clear_value x)
    | split

theorem clockUnstable_keeps {st0 : State} (s : State) (clk : Judged) (hk0 : Keeps st0 s) :
    Keeps st0 (clockUnstable s clk) := by
  unfold clockUnstable
  with_reducible repeat' first
    | assumption | (intro) | apply each_keeps | apply haltBack_keeps | apply refFall_keeps | apply declareFailed_keeps
    | apply judgedSet_keeps | fail_if_no_progress (apply Keeps.lit)
    | (extract_lets +onlyGivenNames x; first | (refine cut (a := Keeps st0 x) ?_ fun hx => ?_; subst x; rotate_left; clear_value x) | clear_value x)
    | split

theorem haltEnd_keeps {st0 : State} (s : State) (n : Nat) (hk0 : Keeps st0 s) :
    Keeps st0 (haltEnd s n) := by
  unfold haltEnd
  with_reducible repeat' first
    | assumption | apply domSwitch_keeps | apply domFollow_keeps | fail_if_no_progress (apply Keeps.lit)
    | (extract_lets +onlyGivenNames x; first | (refine cut (a := Keeps st0 x) ?_ fun hx => ?_; subst x; rotate_left; clear_value x) | clear_value x)
    | split

theorem bellSubmit_keeps {st0 : State} (s : State) (f : Vf) (r : Nat) (v : Nat) (hk0 : Keeps st0 s) :
    Keeps st0 (bellSubmit s f r v) := by
  unfold bellSubmit
  with_reducible repeat' first
    | assumption | (intro) | apply fnSet_keeps | apply hostClamp_keeps | apply discard_keeps | fail_if_no_progress (apply Keeps.lit)
    | (extract_lets +onlyGivenNames x; first | (refine cut (a := Keeps st0 x) ?_ fun hx => ?_; subst x; rotate_left; clear_value x) | clear_value x)
    | split

theorem bellVideo_keeps {st0 : State} (s : State) (f : Vf) (v : Nat) (hk0 : Keeps st0 s) :
    Keeps st0 (bellVideo s f v) := by
  unfold bellVideo
  with_reducible repeat' first
    | assumption | (intro) | apply fnSet_keeps | apply hostClamp_keeps | apply discard_keeps | fail_if_no_progress (apply Keeps.lit)
    | (extract_lets +onlyGivenNames x; first | (refine cut (a := Keeps st0 x) ?_ fun hx => ?_; subst x; rotate_left; clear_value x) | clear_value x)
    | split

theorem bellHead_keeps {st0 : State} (s : State) (f : Vf) (c : Nat) (v : Nat) (hk0 : Keeps st0 s) :
    Keeps st0 (bellHead s f c v) := by
  unfold bellHead
  with_reducible repeat' first
    | assumption | apply fnSet_keeps | apply backlogDrain_keeps | apply hostClamp_keeps | apply discard_keeps
    | fail_if_no_progress (apply Keeps.lit)
    | (extract_lets +onlyGivenNames x; first | (refine cut (a := Keeps st0 x) ?_ fun hx => ?_; subst x; rotate_left; clear_value x) | clear_value x)
    | split

theorem takenAbandon_keeps {st0 : State} (s : State) (f : Vf) (hk0 : Keeps st0 s) :
    Keeps st0 (takenAbandon s f) := by
  unfold takenAbandon
  with_reducible repeat' first
    | assumption | (intro) | fail_if_no_progress (apply Keeps.lit)

theorem hubAbort_keeps {st0 : State} (s : State) (f : Vf) (hk0 : Keeps st0 s) :
    Keeps st0 (hubAbort s f) := by
  unfold hubAbort
  with_reducible repeat' first
    | assumption | (intro) | fail_if_no_progress (apply Keeps.lit)
    | (extract_lets +onlyGivenNames x; first | (refine cut (a := Keeps st0 x) ?_ fun hx => ?_; subst x; rotate_left; clear_value x) | clear_value x)
    | split

theorem backlogVoid_keeps {st0 : State} (s : State) (fn : Nat) (hk0 : Keeps st0 s) :
    Keeps st0 (backlogVoid s fn) := by
  unfold backlogVoid
  with_reducible repeat' first
    | assumption | (intro) | apply each_keeps | apply backlogSet_keeps | apply freeFinal_keeps
    | (extract_lets +onlyGivenNames x; first | (refine cut (a := Keeps st0 x) ?_ fun hx => ?_; subst x; rotate_left; clear_value x) | clear_value x)
    | split

theorem workEnd_keeps {st0 : State} (s : State) (f : Vf) (write : Bool) (hk0 : Keeps st0 s) :
    Keeps st0 (workEnd s f write) := by
  unfold workEnd
  with_reducible repeat' first
    | assumption | apply hubReset_keeps | apply partReqsEnd_keeps | apply sessionsEnd_keeps | apply takenAbandon_keeps
    | apply hubAbort_keeps | fail_if_no_progress (apply Keeps.lit)
    | (extract_lets +onlyGivenNames x; first | (refine cut (a := Keeps st0 x) ?_ fun hx => ?_; subst x; rotate_left; clear_value x) | clear_value x)

theorem quiesceStart_keeps {st0 : State} (s : State) (f : Vf) (hk0 : Keeps st0 s) :
    Keeps st0 (quiesceStart s f) := by
  unfold quiesceStart
  with_reducible repeat' first
    | assumption | apply fnSet_keeps | apply statusVec_keeps | apply workEnd_keeps | fail_if_no_progress (apply Keeps.lit)
    | (extract_lets +onlyGivenNames x; first | (refine cut (a := Keeps st0 x) ?_ fun hx => ?_; subst x; rotate_left; clear_value x) | clear_value x)
    | split

theorem ctrlWrite_keeps {st0 : State} (s : State) (f : Vf) (v : Nat) (hk0 : Keeps st0 s) :
    Keeps st0 (ctrlWrite s f v) := by
  unfold ctrlWrite
  with_reducible repeat' first
    | assumption | apply hostClamp_keeps | apply quiesceStart_keeps
    | (extract_lets +onlyGivenNames x; first | (refine cut (a := Keeps st0 x) ?_ fun hx => ?_; subst x; rotate_left; clear_value x) | clear_value x)
    | split

theorem vfDisable_keeps {st0 : State} (s : State) (f : Vf) (hk0 : Keeps st0 s) :
    Keeps st0 (vfDisable s f) := by
  unfold vfDisable
  with_reducible repeat' first
    | assumption | apply fnSet_keeps | apply backlogVoid_keeps | apply workEnd_keeps | fail_if_no_progress (apply Keeps.lit)
    | (extract_lets +onlyGivenNames x; first | (refine cut (a := Keeps st0 x) ?_ fun hx => ?_; subst x; rotate_left; clear_value x) | clear_value x)

theorem allDisable_keeps {st0 : State} (s : State) (hk0 : Keeps st0 s) :
    Keeps st0 (allDisable s) := by
  unfold allDisable
  with_reducible repeat' first
    | assumption | (intro) | apply each_keeps | apply vfDisable_keeps

theorem pfReset_keeps {st0 : State} (s : State) (hk0 : Keeps st0 s) :
    Keeps st0 (pfReset s) := by
  unfold pfReset
  with_reducible repeat' first
    | assumption | apply fnSet_keeps
    | (extract_lets +onlyGivenNames x; first | (refine cut (a := Keeps st0 x) ?_ fun hx => ?_; subst x; rotate_left; clear_value x) | clear_value x)

theorem configClear_keeps {st0 : State} (s : State) (hk0 : Keeps st0 s) :
    Keeps st0 (configClear s) := by
  unfold configClear
  with_reducible repeat' first
    | assumption | (intro) | apply each_keeps | apply fnSet_keeps | fail_if_no_progress (apply Keeps.lit)
    | (extract_lets +onlyGivenNames x; first | (refine cut (a := Keeps st0 x) ?_ fun hx => ?_; subst x; rotate_left; clear_value x) | clear_value x)

theorem disableDo_keeps {st0 : State} (s : State) (f : Nat) (t : DisableTrigger) (hk0 : Keeps st0 s) :
    Keeps st0 (disableDo s f t) := by
  unfold disableDo
  with_reducible repeat' first
    | assumption | apply fnSet_keeps | apply vfDisable_keeps | apply allDisable_keeps | apply pfReset_keeps | apply configClear_keeps
    | fail_if_no_progress (apply Keeps.lit)
    | (extract_lets +onlyGivenNames x; first | (refine cut (a := Keeps st0 x) ?_ fun hx => ?_; subst x; rotate_left; clear_value x) | clear_value x)
    | split

theorem configDo_keeps {st0 : State} (s : State) (f : Nat) (op : ConfigOp) (hk0 : Keeps st0 s) :
    Keeps st0 (configDo s f op) := by
  unfold configDo
  with_reducible repeat' first
    | assumption | (intro) | apply each_keeps | apply fnSet_keeps | apply disableDo_keeps | fail_if_no_progress (apply Keeps.lit)
    | (extract_lets +onlyGivenNames x; first | (refine cut (a := Keeps st0 x) ?_ fun hx => ?_; subst x; rotate_left; clear_value x) | clear_value x)
    | split

theorem sqCfgWrite_keeps {st0 : State} (s : State) (fn : Nat) (r : Nat) (v : Nat) (hk0 : Keeps st0 s) :
    Keeps st0 (sqCfgWrite s fn r v) := by
  unfold sqCfgWrite
  with_reducible repeat' first
    | assumption | apply fnSet_keeps | apply hostClamp_keeps | fail_if_no_progress (apply Keeps.lit)
    | (extract_lets +onlyGivenNames x; first | (refine cut (a := Keeps st0 x) ?_ fun hx => ?_; subst x; rotate_left; clear_value x) | clear_value x)
    | split

theorem cqBaseWrite_keeps {st0 : State} (s : State) (fn : Nat) (c : Nat) (v : Nat) (hk0 : Keeps st0 s) :
    Keeps st0 (cqBaseWrite s fn c v) := by
  unfold cqBaseWrite
  with_reducible repeat' first
    | assumption | apply fnSet_keeps | apply hostClamp_keeps | fail_if_no_progress (apply Keeps.lit)
    | (extract_lets +onlyGivenNames x; first | (refine cut (a := Keeps st0 x) ?_ fun hx => ?_; subst x; rotate_left; clear_value x) | clear_value x)
    | split

theorem cqCfgWrite_keeps {st0 : State} (s : State) (fn : Nat) (c : Nat) (v : Nat) (hk0 : Keeps st0 s) :
    Keeps st0 (cqCfgWrite s fn c v) := by
  unfold cqCfgWrite
  with_reducible repeat' first
    | assumption | apply fnSet_keeps | apply hostClamp_keeps | fail_if_no_progress (apply Keeps.lit)
    | (extract_lets +onlyGivenNames x; first | (refine cut (a := Keeps st0 x) ?_ fun hx => ?_; subst x; rotate_left; clear_value x) | clear_value x)
    | split

theorem cqModWrite_keeps {st0 : State} (s : State) (fn : Nat) (c : Nat) (v : Nat) (hk0 : Keeps st0 s) :
    Keeps st0 (cqModWrite s fn c v) := by
  unfold cqModWrite
  with_reducible repeat' first
    | assumption | apply fnSet_keeps | apply hostClamp_keeps | fail_if_no_progress (apply Keeps.lit)
    | (extract_lets +onlyGivenNames x; first | (refine cut (a := Keeps st0 x) ?_ fun hx => ?_; subst x; rotate_left; clear_value x) | clear_value x)
    | split

theorem regWrite_keeps {st0 : State} (s : State) (fn : Nat) (off : Nat) (v : Nat) (hk0 : Keeps st0 s) :
    Keeps st0 (regWrite s fn off v) := by
  unfold regWrite
  with_reducible repeat' first
    | assumption | apply hostClamp_keeps | apply bellSubmit_keeps | apply bellVideo_keeps | apply bellHead_keeps | apply ctrlWrite_keeps
    | apply sqCfgWrite_keeps | apply cqBaseWrite_keeps | apply cqCfgWrite_keeps | apply cqModWrite_keeps
    | fail_if_no_progress (apply Keeps.lit)
    | (extract_lets +onlyGivenNames x; first | (refine cut (a := Keeps st0 x) ?_ fun hx => ?_; subst x; rotate_left; clear_value x) | clear_value x)
    | split

theorem windowWrite_keeps {st0 : State} (s : State) (fn : Nat) (off : Nat) (bs : List Byte) (hk0 : Keeps st0 s) :
    Keeps st0 (windowWrite s fn off bs) := by
  unfold windowWrite
  with_reducible repeat' first
    | assumption | (intro) | fail_if_no_progress (apply Keeps.lit)
    | (extract_lets +onlyGivenNames x; first | (refine cut (a := Keeps st0 x) ?_ fun hx => ?_; subst x; rotate_left; clear_value x) | (refine cut (a := ∀ v, Keeps st0 (x v)) ?_ fun hf => ?_; subst x; rotate_left; clear_value x) | clear_value x)
    | split | apply hf

theorem regionWrite_keeps {st0 s t : State} {fn off : Nat} {bs : List Byte} (e : regionWrite s fn off bs = some t) (hk0 : Keeps st0 s) :
    Keeps st0 t := by
  unfold regionWrite at e
  extract_lets x at e
  generalize (if fn = 0 then 2048 else 1920) = lim at e
  split at e
  · injection e with e; subst e; exact windowWrite_keeps _ _ _ _ hk0
  split at e
  · injection e with e; subst e; exact fnSet_keeps _ _ _ hk0
  split at e
  · injection e with e; subst e
    exact foldl_keeps (fun s v => emit_keeps s _) (fnSet_keeps _ _ _ hk0)
  split at e
  · injection e with e; subst e; exact hk0
  split at e
  · split at e
    · injection e with e; subst e; exact hk0.lit
    · cases e
  split at e
  · injection e with e; subst e; exact fnSet_keeps _ _ _ hk0
  split at e
  · injection e with e; subst e; exact fnSet_keeps _ _ _ hk0
  · cases e

theorem barWrite_keeps {st0 : State} (s : State) (fn off size v : Nat) (hk0 : Keeps st0 s) : Keeps st0 (barWrite s fn off size v) := by
  unfold barWrite
  repeat' first
    | with_reducible assumption
    | (intro)
    | with_reducible apply regWrite_keeps
    | with_reducible apply cqBaseWrite_keeps
    | with_reducible apply discard_keeps
    | fail_if_no_progress (with_reducible apply Keeps.lit)
    | fail_if_no_progress (with_reducible apply Keeps.lit')
    | (extract_lets +onlyGivenNames x; first | (refine cut (a := Keeps st0 x) ?_ fun hx => ?_; subst x; rotate_left; clear_value x) | (refine cut (a := Keeps st0 x.2) ?_ fun hx => ?_; subst x; rotate_left; clear_value x) | (refine cut (a := Keeps st0 x.1) ?_ fun hx => ?_; subst x; rotate_left; clear_value x) | clear_value x)
    | split
    | with_reducible refine pair_cut (by assumption) ?_
    | with_reducible refine pair_cut' (by assumption) ?_
    | with_reducible refine takeFrame_keeps (by assumption) ?_
    | with_reducible refine regionWrite_keeps (by assumption) ?_

theorem cursorSet_keeps {st0 : State} (s : State) (src : DictSrc) (n : Nat) (hk0 : Keeps st0 s) :
    Keeps st0 (cursorSet s src n) := by
  unfold cursorSet
  with_reducible repeat' first
    | assumption | fail_if_no_progress (apply Keeps.lit) | split

theorem recordRead_keeps {st0 : State} (s : State) (src : DictSrc) (hk0 : Keeps st0 s) :
    Keeps st0 (recordRead s src).2 := by
  unfold recordRead
  with_reducible repeat' first
    | assumption | apply cursorSet_keeps | fail_if_no_progress (apply Keeps.lit) | split

theorem odReadBytes_keeps {st0 : State} (s : State) (src : DictSrc) (idx : Nat) (sub : Nat) (size : Nat) (hk0 : Keeps st0 s) :
    Keeps st0 (odReadBytes s src idx sub size).2 := by
  unfold odReadBytes
  with_reducible repeat' first
    | assumption | apply recordRead_keeps | split | fail_if_no_progress dsimp only

theorem hubClose_keeps {st0 : State} (s : State) (n : Nat) (hk0 : Keeps st0 s) :
    Keeps st0 (hubClose s n) := by
  unfold hubClose
  with_reducible repeat' first
    | assumption | apply bump32_keeps | apply msixSend_keeps | apply hubSet_keeps | fail_if_no_progress (apply Keeps.lit)
    | (extract_lets +onlyGivenNames x; first | (refine cut (a := Keeps st0 x) ?_ fun hx => ?_; subst x; rotate_left; clear_value x) | clear_value x)
    | split

theorem dropCount_keeps {st0 : State} (s : State) (hk0 : Keeps st0 s) :
    Keeps st0 (dropCount s) := by
  unfold dropCount
  with_reducible repeat' first
    | assumption | apply bump32_keeps

theorem sessSet_keeps {st0 : State} (s : State) (n : Nat) (x : Sess) (hk0 : Keeps st0 s) :
    Keeps st0 (sessSet s n x) := by
  unfold sessSet
  with_reducible repeat' first
    | assumption | fail_if_no_progress (apply Keeps.lit)

theorem sessEnd_keeps {st0 : State} (s : State) (n : Nat) (hk0 : Keeps st0 s) :
    Keeps st0 (sessEnd s n) := by
  unfold sessEnd
  with_reducible repeat' first
    | assumption | fail_if_no_progress (apply Keeps.lit)

theorem inboxPut_keeps {st0 : State} (s : State) (m : Msg) (hk0 : Keeps st0 s) :
    Keeps st0 (inboxPut s m) := by
  unfold inboxPut
  with_reducible repeat' first
    | assumption | fail_if_no_progress (apply Keeps.lit)

theorem sessSend_keeps {st0 : State} (s : State) (n : Nat) (x : Sess) (typ : Nat) (body : List Byte) (hk0 : Keeps st0 s) :
    Keeps st0 (sessSend s n x typ body) := by
  unfold sessSend
  with_reducible repeat' first
    | assumption | apply emit_keeps | apply sessSet_keeps | fail_if_no_progress (apply Keeps.lit)

theorem msgTake_keeps {st0 : State} (s : State) (seg : Fin 2) (typ : Nat) (count : Nat) (sid : W32) (seq : Nat) (bs : List Byte) (hk0 : Keeps st0 s) :
    Keeps st0 (msgTake s seg typ count sid seq bs) := by
  unfold msgTake
  with_reducible repeat' first
    | assumption | (intro) | apply dropCount_keeps | apply sessSet_keeps | apply inboxPut_keeps | apply sessSend_keeps
    | fail_if_no_progress (apply Keeps.lit)
    | (extract_lets +onlyGivenNames x; first | (refine cut (a := Keeps st0 x) ?_ fun hx => ?_; subst x; rotate_left; clear_value x) | clear_value x)
    | split

theorem inboxDrop_keeps {st0 : State} (s : State) (p : Msg → Bool) (hk0 : Keeps st0 s) :
    Keeps st0 (inboxDrop s p) := by
  unfold inboxDrop
  with_reducible repeat' first
    | assumption | fail_if_no_progress (apply Keeps.lit)

theorem helloReject_keeps {st0 : State} (s : State) (seg : Fin 2) (hk0 : Keeps st0 s) :
    Keeps st0 (helloReject s seg) := by
  unfold helloReject
  with_reducible repeat' first
    | assumption | apply emit_keeps

theorem pavRestart_keeps {st0 : State} (s : State) (hk0 : Keeps st0 s) :
    Keeps st0 (pavRestart s) := by
  unfold pavRestart
  with_reducible repeat' first
    | assumption | fail_if_no_progress (apply Keeps.lit)

theorem dictRead_keeps {st0 : State} (s : State) (rq : DictReq) (idx : Nat) (sub : Nat) (hk0 : Keeps st0 s) :
    Keeps st0 (dictRead s rq idx sub) := by
  unfold dictRead
  with_reducible repeat' first
    | assumption | apply dictAnswer_keeps | apply odReadBytes_keeps | fail_if_no_progress (apply Keeps.lit)
    | (extract_lets +onlyGivenNames x; first | (refine cut (a := Keeps st0 x) ?_ fun hx => ?_; subst x; rotate_left; clear_value x) | (refine cut (a := Keeps st0 x.2) ?_ fun hx => ?_; subst x; rotate_left; clear_value x) | (refine cut (a := Keeps st0 x.2.2) ?_ fun hx => ?_; subst x; rotate_left; clear_value x) | (refine cut (a := Keeps st0 x.1) ?_ fun hx => ?_; subst x; rotate_left; clear_value x) | clear_value x)
    | split | refine pair_cut (by assumption) ?_ | refine pair_cut3 (by assumption) ?_ | refine pair_cut' (by assumption) ?_
    | fail_if_no_progress dsimp only

theorem keysZero_keeps {st0 : State} (s : State) (hk0 : Keeps st0 s) :
    Keeps st0 (keysZero s) := by
  unfold keysZero
  with_reducible repeat' first
    | assumption | (intro) | fail_if_no_progress (apply Keeps.lit)

theorem powerLost_keeps {st0 : State} (s : State) (hk0 : Keeps st0 s) :
    Keeps st0 (powerLost s) := by
  unfold powerLost
  with_reducible repeat' first
    | assumption | apply volatileLost_keeps | fail_if_no_progress (apply Keeps.lit)
    | (extract_lets +onlyGivenNames x; first | (refine cut (a := Keeps st0 x) ?_ fun hx => ?_; subst x; rotate_left; clear_value x) | clear_value x)

theorem bootFail_keeps {st0 : State} (s : State) (c : Nat) (check : Nat) (hk0 : Keeps st0 s) :
    Keeps st0 (bootFail s c check) := by
  unfold bootFail
  with_reducible repeat' first
    | assumption | apply declareFailed_keeps

theorem bootComp_keeps {st0 : State} (s : State) (c : Nat) (go : State → State) (hgo : ∀ s0, Keeps st0 s0 → Keeps st0 (go s0)) (hk0 : Keeps st0 s) :
    Keeps st0 (bootComp s c go) := by
  unfold bootComp
  with_reducible repeat' first
    | assumption | (intro) | apply hgo | apply measure_keeps | apply bootFail_keeps | fail_if_no_progress (apply Keeps.lit)
    | (extract_lets +onlyGivenNames x; first | (refine cut (a := Keeps st0 x) ?_ fun hx => ?_; subst x; rotate_left; clear_value x) | clear_value x)
    | split

theorem bootStage_keeps {st0 : State} (s : State) (go : State → State) (hgo : ∀ s0, Keeps st0 s0 → Keeps st0 (go s0)) (hk0 : Keeps st0 s) :
    Keeps st0 (bootStage s go) := by
  unfold bootStage
  with_reducible repeat' first
    | assumption | (intro) | apply hgo | split

theorem hubSetDom_keeps {st0 : State} (s : State) (f : HubPower → HubPower) (hk0 : Keeps st0 s) :
    Keeps st0 (hubSetDom s f) := by
  unfold hubSetDom
  with_reducible repeat' first
    | assumption | fail_if_no_progress (apply Keeps.lit)

theorem fwSlot_keeps {st0 : State} (s : State) (n : Nat) (k : SlotKind) (key : Option Nat) (hk0 : Keeps st0 s) :
    Keeps st0 (fwSlot s n k key) := by
  unfold fwSlot
  with_reducible repeat' first
    | assumption | apply keySlotSet_keeps

theorem reservedInit_keeps {st0 : State} (s : State) (hk0 : Keeps st0 s) : Keeps st0 (reservedInit s) := by
  refine Keeps.memory (fwSlot_keeps _ _ _ _ (freeStep_keeps _ hk0)) fun h => ?_
  rw [Memory.wf_iff] at h ⊢
  exact ⟨filter_wf _ h.1, h.2⟩

theorem updSet_keeps {st0 : State} (s : State) (st : UState) (result : Nat) (hk0 : Keeps st0 s) :
    Keeps st0 (updSet s st result) := by
  unfold updSet
  with_reducible repeat' first
    | assumption | apply msixSend_keeps | fail_if_no_progress (apply Keeps.lit)
    | (extract_lets +onlyGivenNames x; first | (refine cut (a := Keeps st0 x) ?_ fun hx => ?_; subst x; rotate_left; clear_value x) | clear_value x)
    | split

theorem updDiscard_keeps {st0 : State} (s : State) (hk0 : Keeps st0 s) :
    Keeps st0 (updDiscard s) := by
  unfold updDiscard
  with_reducible repeat' first
    | assumption | apply armDrop_keeps | apply fwSlot_keeps | fail_if_no_progress (apply Keeps.lit)
    | (extract_lets +onlyGivenNames x; first | (refine cut (a := Keeps st0 x) ?_ fun hx => ?_; subst x; rotate_left; clear_value x) | clear_value x)

theorem stagingDrop_keeps {st0 : State} (s : State) (hk0 : Keeps st0 s) :
    Keeps st0 (stagingDrop s) := by
  unfold stagingDrop
  with_reducible repeat' first
    | assumption | apply updSet_keeps | apply updDiscard_keeps | fail_if_no_progress (apply Keeps.lit) | split

theorem bootBase_keeps {st0 : State} (s : State) (hk0 : Keeps st0 s) :
    Keeps st0 (bootBase s) := by
  unfold bootBase
  with_reducible repeat' first
    | assumption | apply volatileLost_keeps | fail_if_no_progress (apply Keeps.lit)
    | (extract_lets +onlyGivenNames x; first | (refine cut (a := Keeps st0 x) ?_ fun hx => ?_; subst x; rotate_left; clear_value x) | clear_value x)
    | split

theorem bootKeys_keeps {st0 : State} (s : State) (hk0 : Keeps st0 s) :
    Keeps st0 (bootKeys s) := by
  unfold bootKeys
  with_reducible repeat' first
    | assumption | apply fwSlot_keeps

theorem bootHub_keeps {st0 : State} (s : State) (hk0 : Keeps st0 s) :
    Keeps st0 (bootHub s) := by
  unfold bootHub
  with_reducible repeat' first
    | assumption | (intro) | apply hubSetDom_keeps | fail_if_no_progress (apply Keeps.lit)

theorem bootTrellis_keeps {st0 : State} (s : State) (hk0 : Keeps st0 s) :
    Keeps st0 (bootTrellis s) := by
  unfold bootTrellis
  with_reducible repeat' first
    | assumption | (intro) | apply hubSetDom_keeps | fail_if_no_progress (apply Keeps.lit)
    | (extract_lets +onlyGivenNames x; first | (refine cut (a := Keeps st0 x) ?_ fun hx => ?_; subst x; rotate_left; clear_value x) | clear_value x)
    | split

/-- Memory drawn anew at boot. -/
theorem Keeps.newMemory {st0 s : State} {g : Granule} {kv : KvS} (h : Keeps st0 s) : Keeps st0 { s with mem := { mapBase := g }, kv := kv } :=
  ⟨h.queue, h.fuses, fun _ => rfl⟩

theorem id_keeps {st0 s : State} (h : Keeps st0 s) : Keeps st0 (id s) := h

theorem bootDo_keeps {st0 : State} (s : State) (trained : BitVec 8) (hk0 : Keeps st0 s) : Keeps st0 (bootDo s trained) := by
  unfold bootDo
  repeat' first
    | with_reducible assumption
    | (intro)
    | with_reducible apply bootComp_keeps
    | with_reducible apply bootStage_keeps
    | with_reducible apply bootKeys_keeps
    | with_reducible apply bootBase_keeps
    | with_reducible apply bootFail_keeps
    | with_reducible apply hubSetDom_keeps
    | with_reducible apply bootTrellis_keeps
    | with_reducible apply freeSteps_keeps
    | with_reducible apply foldl_keeps
    | with_reducible apply bootHub_keeps
    | with_reducible apply Keeps.newMemory
    | with_reducible apply reservedInit_keeps
    | with_reducible apply id_keeps
    | fail_if_no_progress (with_reducible apply Keeps.lit)
    | fail_if_no_progress (with_reducible apply Keeps.lit')
    | (extract_lets +onlyGivenNames x; first | (refine cut (a := Keeps st0 x) ?_ fun hx => ?_; subst x; rotate_left; clear_value x) | (refine cut (a := Keeps st0 x.2) ?_ fun hx => ?_; subst x; rotate_left; clear_value x) | (refine cut (a := Keeps st0 x.1) ?_ fun hx => ?_; subst x; rotate_left; clear_value x) | clear_value x)
    | split
    | with_reducible refine pair_cut (by assumption) ?_
    | with_reducible refine pair_cut' (by assumption) ?_
    | with_reducible refine takeFrame_keeps (by assumption) ?_

theorem drainDone_keeps {st0 : State} (s : State) (hk0 : Keeps st0 s) :
    Keeps st0 (drainDone s) := by
  unfold drainDone
  with_reducible repeat' first
    | assumption | apply emit_keeps | apply keysZero_keeps | fail_if_no_progress (apply Keeps.lit)
    | (extract_lets +onlyGivenNames x; first | (refine cut (a := Keeps st0 x) ?_ fun hx => ?_; subst x; rotate_left; clear_value x) | clear_value x)

theorem drainStandby_keeps {st0 : State} (s : State) (hk0 : Keeps st0 s) :
    Keeps st0 (drainStandby s) := by
  unfold drainStandby
  with_reducible repeat' first
    | assumption | apply emit_keeps | apply quadsOff_keeps | apply drainDone_keeps

theorem drainAlone_keeps {st0 : State} (s : State) (hk0 : Keeps st0 s) :
    Keeps st0 (drainAlone s) := by
  unfold drainAlone
  with_reducible repeat' first
    | assumption | apply drainDone_keeps | split

theorem drainTick_keeps {st0 : State} (s : State) (hk0 : Keeps st0 s) :
    Keeps st0 (drainTick s) := by
  unfold drainTick
  with_reducible repeat' first
    | assumption | apply drainDone_keeps
    | (extract_lets +onlyGivenNames x; first | (refine cut (a := Keeps st0 x) ?_ fun hx => ?_; subst x; rotate_left; clear_value x) | clear_value x)
    | split

theorem warmDo_keeps {st0 : State} (s : State) (hk0 : Keeps st0 s) :
    Keeps st0 (warmDo s) := by
  unfold warmDo
  with_reducible repeat' first
    | assumption | (intro) | apply each_keeps | apply rehearsalLeave_keeps | apply removeDo_keeps | apply fwSlot_keeps
    | apply reservedInit_keeps | fail_if_no_progress (apply Keeps.lit)
    | (extract_lets +onlyGivenNames x; first | (refine cut (a := Keeps st0 x) ?_ fun hx => ?_; subst x; rotate_left; clear_value x) | clear_value x)
    | split

theorem partReset_keeps {st0 : State} (s : State) (p : Nat) (hk0 : Keeps st0 s) :
    Keeps st0 (partReset s p) := by
  unfold partReset
  with_reducible repeat' first
    | assumption | (intro) | apply each_keeps | apply quadClear_keeps | apply partReqsEnd_keeps | apply jobsForget_keeps
    | apply sessionsEnd_keeps
    | (extract_lets +onlyGivenNames x; first | (refine cut (a := Keeps st0 x) ?_ fun hx => ?_; subst x; rotate_left; clear_value x) | clear_value x)

theorem updResult_keeps {st0 : State} (s : State) (result : Nat) (hk0 : Keeps st0 s) :
    Keeps st0 (updResult s result) := by
  unfold updResult
  with_reducible repeat' first
    | assumption | fail_if_no_progress (apply Keeps.lit)

theorem updBegin_keeps {st0 : State} (s : State) (hk0 : Keeps st0 s) :
    Keeps st0 (updBegin s) := by
  unfold updBegin
  with_reducible repeat' first
    | assumption | apply updSet_keeps | apply updDiscard_keeps | split

theorem checkLog_keeps {st0 : State} (s : State) (i : FwImage) (check : Nat) (hk0 : Keeps st0 s) :
    Keeps st0 (checkLog s i check) := by
  unfold checkLog
  with_reducible repeat' first
    | assumption | apply logErr_keeps

theorem updVerify_keeps {st0 : State} (s : State) (hk0 : Keeps st0 s) :
    Keeps st0 (updVerify s) := by
  unfold updVerify
  with_reducible repeat' first
    | assumption | apply updSet_keeps | apply updDiscard_keeps | apply updResult_keeps | apply checkLog_keeps
    | fail_if_no_progress (apply Keeps.lit)
    | (extract_lets +onlyGivenNames x; first | (refine cut (a := Keeps st0 x) ?_ fun hx => ?_; subst x; rotate_left; clear_value x) | clear_value x)
    | split

theorem updAbort_keeps {st0 : State} (s : State) (hk0 : Keeps st0 s) :
    Keeps st0 (updAbort s) := by
  unfold updAbort
  with_reducible repeat' first
    | assumption | apply updSet_keeps | apply updDiscard_keeps | fail_if_no_progress (apply Keeps.lit) | split

theorem updCommand_keeps {st0 : State} (s : State) (rq : DictReq) (v : List Byte) (hk0 : Keeps st0 s) :
    Keeps st0 (updCommand s rq v) := by
  unfold updCommand
  with_reducible repeat' first
    | assumption | (intro) | apply odSet_keeps | apply dictWrite_keeps | apply updBegin_keeps | apply updVerify_keeps | apply updAbort_keeps
    | fail_if_no_progress (apply Keeps.lit) | split

theorem headerTake_keeps {st0 : State} (s : State) (h : List Byte) (tag : Nat) (hk0 : Keeps st0 s) :
    Keeps st0 (headerTake s h tag) := by
  unfold headerTake
  with_reducible repeat' first
    | assumption | apply fwSlot_keeps | apply updSet_keeps | apply updDiscard_keeps | apply updResult_keeps
    | fail_if_no_progress (apply Keeps.lit)
    | (extract_lets +onlyGivenNames x; first | (refine cut (a := Keeps st0 x) ?_ fun hx => ?_; subst x; rotate_left; clear_value x) | clear_value x)
    | split

theorem bodyTake_keeps {st0 : State} (s : State) (k : Nat) (n : Nat) (ct : List Byte) (tag : Nat) (hk0 : Keeps st0 s) :
    Keeps st0 (bodyTake s k n ct tag) := by
  unfold bodyTake
  with_reducible repeat' first
    | assumption | apply updResult_keeps | fail_if_no_progress (apply Keeps.lit)
    | (extract_lets +onlyGivenNames x; first | (refine cut (a := Keeps st0 x) ?_ fun hx => ?_; subst x; rotate_left; clear_value x) | clear_value x)
    | split

theorem blockSubmit_keeps {st0 : State} (s : State) (v : Nat) (hk0 : Keeps st0 s) :
    Keeps st0 (blockSubmit s v) := by
  unfold blockSubmit
  with_reducible repeat' first
    | assumption | apply discard_keeps | apply updResult_keeps | apply headerTake_keeps | apply bodyTake_keeps
    | (extract_lets +onlyGivenNames x; first | (refine cut (a := Keeps st0 x) ?_ fun hx => ?_; subst x; rotate_left; clear_value x) | clear_value x)
    | split

theorem disarm_keeps {st0 : State} (s : State) (hk0 : Keeps st0 s) :
    Keeps st0 (disarm s) := by
  unfold disarm
  with_reducible repeat' first
    | assumption | apply updSet_keeps | split

theorem perturbNote_keeps {st0 : State} (s : State) (hk0 : Keeps st0 s) :
    Keeps st0 (perturbNote s) := by
  unfold perturbNote
  with_reducible repeat' first
    | assumption | fail_if_no_progress (apply Keeps.lit)

theorem injectUe_keeps {st0 : State} (s : State) (a : Nat) (hk0 : Keeps st0 s) :
    Keeps st0 (injectUe s a) := by
  unfold injectUe
  with_reducible repeat' first
    | assumption | apply strike_keeps
    | (extract_lets +onlyGivenNames x; first | (refine cut (a := Keeps st0 x) ?_ fun hx => ?_; subst x; rotate_left; clear_value x) | clear_value x)

theorem injectDo_keeps {st0 : State} (s : State) (v : Nat) (hk0 : Keeps st0 s) :
    Keeps st0 (injectDo s v) := by
  unfold injectDo
  with_reducible repeat' first
    | assumption | apply siteError_keeps | apply injectUe_keeps | fail_if_no_progress (apply Keeps.lit)
    | (extract_lets +onlyGivenNames x; first | (refine cut (a := Keeps st0 x) ?_ fun hx => ?_; subst x; rotate_left; clear_value x) | clear_value x)
    | split

theorem pairUnset_keeps {st0 : State} (s : State) (hk0 : Keeps st0 s) :
    Keeps st0 (pairUnset s) := by
  unfold pairUnset
  with_reducible repeat' first
    | assumption | (intro) | apply each_keeps | apply rehearsalLeave_keeps | apply riskSet_keeps | apply partPower_keeps
    | apply hbmWake_keeps | fail_if_no_progress (apply Keeps.lit)
    | (extract_lets +onlyGivenNames x; first | (refine cut (a := Keeps st0 x) ?_ fun hx => ?_; subst x; rotate_left; clear_value x) | clear_value x)
    | split

theorem bindsLeave_keeps {st0 : State} (s : State) (old : Nat) (new : Nat) (hk0 : Keeps st0 s) :
    Keeps st0 (bindsLeave s old new) := by
  unfold bindsLeave
  with_reducible repeat' first
    | assumption | (intro) | fail_if_no_progress (apply Keeps.lit)

theorem plainEffect_keeps {st0 : State} (src : DictSrc) (idx : Nat) (sub : Nat) (old : Nat) (s : State) (w : Nat) (hk0 : Keeps st0 s) :
    Keeps st0 (plainEffect src idx sub old s w) := by
  unfold plainEffect
  with_reducible repeat' first
    | assumption | apply waysHold_keeps | apply retainFix_keeps | apply heldOpen_keeps | apply cursorSet_keeps | apply pairUnset_keeps
    | apply bindsLeave_keeps | fail_if_no_progress (apply Keeps.lit) | split

theorem plainWrite_keeps {st0 : State} (s : State) (rq : DictReq) (idx : Nat) (sub : Nat) (v : List Byte) (hk0 : Keeps st0 s) :
    Keeps st0 (plainWrite s rq idx sub v) := by
  unfold plainWrite
  with_reducible repeat' first
    | assumption | apply dictWrite_keeps | apply plainEffect_keeps
    | (extract_lets +onlyGivenNames x; first | (refine cut (a := Keeps st0 x) ?_ fun hx => ?_; subst x; rotate_left; clear_value x) | clear_value x)

theorem tick_keeps {st0 : State} (s : State) (hk0 : Keeps st0 s) :
    Keeps st0 (tick s) := by
  unfold tick
  with_reducible repeat' first
    | assumption | (intro) | apply each_keeps | apply portTrain_keeps | apply snapTake_keeps | apply haltEnd_keeps | apply drainTick_keeps
    | fail_if_no_progress (apply Keeps.lit)
    | (extract_lets +onlyGivenNames x; first | (refine cut (a := Keeps st0 x) ?_ fun hx => ?_; subst x; rotate_left; clear_value x) | clear_value x)
    | split

end Sys2Proof.Machine
end

