-- ==== Sys2Proof/Laws/State.lean ====
section
/-! SUPPORT. For each named update of the state, what every other field then holds, and what is read back. -/

namespace Sys2Proof.Machine

open Sys2Proof

/-! ### freeStep -/

@[simp] theorem freeStep_pending (s : State) : (freeStep s).pending = s.pending := rfl
@[simp] theorem freeStep_fuses (s : State) : (freeStep s).fuses = s.fuses := rfl
@[simp] theorem freeStep_flash (s : State) : (freeStep s).flash = s.flash := rfl
@[simp] theorem freeStep_tray (s : State) : (freeStep s).tray = s.tray := rfl
@[simp] theorem freeStep_clk (s : State) : (freeStep s).clk = s.clk := rfl
@[simp] theorem freeStep_wv (s : State) : (freeStep s).wv = s.wv := rfl
@[simp] theorem freeStep_seq (s : State) : (freeStep s).seq = s.seq := rfl
@[simp] theorem freeStep_cores (s : State) : (freeStep s).cores = s.cores := rfl
@[simp] theorem freeStep_sync (s : State) : (freeStep s).sync = s.sync := rfl
@[simp] theorem freeStep_mem (s : State) : (freeStep s).mem = s.mem := rfl
@[simp] theorem freeStep_dma (s : State) : (freeStep s).dma = s.dma := rfl
@[simp] theorem freeStep_dieJobs (s : State) : (freeStep s).dieJobs = s.dieJobs := rfl
@[simp] theorem freeStep_car (s : State) : (freeStep s).car = s.car := rfl
@[simp] theorem freeStep_kv (s : State) : (freeStep s).kv = s.kv := rfl
@[simp] theorem freeStep_variants (s : State) : (freeStep s).variants = s.variants := rfl
@[simp] theorem freeStep_zoe (s : State) : (freeStep s).zoe = s.zoe := rfl
@[simp] theorem freeStep_trl (s : State) : (freeStep s).trl = s.trl := rfl
@[simp] theorem freeStep_gate (s : State) : (freeStep s).gate = s.gate := rfl
@[simp] theorem freeStep_cvu (s : State) : (freeStep s).cvu = s.cvu := rfl
@[simp] theorem freeStep_pair (s : State) : (freeStep s).pair = s.pair := rfl
@[simp] theorem freeStep_pav (s : State) : (freeStep s).pav = s.pav := rfl
@[simp] theorem freeStep_pcie (s : State) : (freeStep s).pcie = s.pcie := rfl
@[simp] theorem freeStep_upd (s : State) : (freeStep s).upd = s.upd := rfl
@[simp] theorem freeStep_err (s : State) : (freeStep s).err = s.err := rfl
@[simp] theorem freeStep_out (s : State) : (freeStep s).out = s.out := rfl

/-! ### freeSteps -/

@[simp] theorem freeSteps_pending (s : State) (n : Nat) : (freeSteps s n).pending = s.pending := rfl
@[simp] theorem freeSteps_fuses (s : State) (n : Nat) : (freeSteps s n).fuses = s.fuses := rfl
@[simp] theorem freeSteps_flash (s : State) (n : Nat) : (freeSteps s n).flash = s.flash := rfl
@[simp] theorem freeSteps_tray (s : State) (n : Nat) : (freeSteps s n).tray = s.tray := rfl
@[simp] theorem freeSteps_clk (s : State) (n : Nat) : (freeSteps s n).clk = s.clk := rfl
@[simp] theorem freeSteps_wv (s : State) (n : Nat) : (freeSteps s n).wv = s.wv := rfl
@[simp] theorem freeSteps_seq (s : State) (n : Nat) : (freeSteps s n).seq = s.seq := rfl
@[simp] theorem freeSteps_cores (s : State) (n : Nat) : (freeSteps s n).cores = s.cores := rfl
@[simp] theorem freeSteps_sync (s : State) (n : Nat) : (freeSteps s n).sync = s.sync := rfl
@[simp] theorem freeSteps_mem (s : State) (n : Nat) : (freeSteps s n).mem = s.mem := rfl
@[simp] theorem freeSteps_dma (s : State) (n : Nat) : (freeSteps s n).dma = s.dma := rfl
@[simp] theorem freeSteps_dieJobs (s : State) (n : Nat) : (freeSteps s n).dieJobs = s.dieJobs := rfl
@[simp] theorem freeSteps_car (s : State) (n : Nat) : (freeSteps s n).car = s.car := rfl
@[simp] theorem freeSteps_kv (s : State) (n : Nat) : (freeSteps s n).kv = s.kv := rfl
@[simp] theorem freeSteps_variants (s : State) (n : Nat) : (freeSteps s n).variants = s.variants := rfl
@[simp] theorem freeSteps_zoe (s : State) (n : Nat) : (freeSteps s n).zoe = s.zoe := rfl
@[simp] theorem freeSteps_trl (s : State) (n : Nat) : (freeSteps s n).trl = s.trl := rfl
@[simp] theorem freeSteps_gate (s : State) (n : Nat) : (freeSteps s n).gate = s.gate := rfl
@[simp] theorem freeSteps_cvu (s : State) (n : Nat) : (freeSteps s n).cvu = s.cvu := rfl
@[simp] theorem freeSteps_pair (s : State) (n : Nat) : (freeSteps s n).pair = s.pair := rfl
@[simp] theorem freeSteps_pav (s : State) (n : Nat) : (freeSteps s n).pav = s.pav := rfl
@[simp] theorem freeSteps_pcie (s : State) (n : Nat) : (freeSteps s n).pcie = s.pcie := rfl
@[simp] theorem freeSteps_upd (s : State) (n : Nat) : (freeSteps s n).upd = s.upd := rfl
@[simp] theorem freeSteps_err (s : State) (n : Nat) : (freeSteps s n).err = s.err := rfl
@[simp] theorem freeSteps_out (s : State) (n : Nat) : (freeSteps s n).out = s.out := rfl

/-! ### emit -/

@[simp] theorem emit_pending (s : State) (o : Output) : (emit s o).pending = s.pending := rfl
@[simp] theorem emit_fuses (s : State) (o : Output) : (emit s o).fuses = s.fuses := rfl
@[simp] theorem emit_flash (s : State) (o : Output) : (emit s o).flash = s.flash := rfl
@[simp] theorem emit_tray (s : State) (o : Output) : (emit s o).tray = s.tray := rfl
@[simp] theorem emit_clk (s : State) (o : Output) : (emit s o).clk = s.clk := rfl
@[simp] theorem emit_wv (s : State) (o : Output) : (emit s o).wv = s.wv := rfl
@[simp] theorem emit_seq (s : State) (o : Output) : (emit s o).seq = s.seq := rfl
@[simp] theorem emit_cores (s : State) (o : Output) : (emit s o).cores = s.cores := rfl
@[simp] theorem emit_sync (s : State) (o : Output) : (emit s o).sync = s.sync := rfl
@[simp] theorem emit_mem (s : State) (o : Output) : (emit s o).mem = s.mem := rfl
@[simp] theorem emit_dma (s : State) (o : Output) : (emit s o).dma = s.dma := rfl
@[simp] theorem emit_dieJobs (s : State) (o : Output) : (emit s o).dieJobs = s.dieJobs := rfl
@[simp] theorem emit_car (s : State) (o : Output) : (emit s o).car = s.car := rfl
@[simp] theorem emit_kv (s : State) (o : Output) : (emit s o).kv = s.kv := rfl
@[simp] theorem emit_variants (s : State) (o : Output) : (emit s o).variants = s.variants := rfl
@[simp] theorem emit_zoe (s : State) (o : Output) : (emit s o).zoe = s.zoe := rfl
@[simp] theorem emit_trl (s : State) (o : Output) : (emit s o).trl = s.trl := rfl
@[simp] theorem emit_gate (s : State) (o : Output) : (emit s o).gate = s.gate := rfl
@[simp] theorem emit_cvu (s : State) (o : Output) : (emit s o).cvu = s.cvu := rfl
@[simp] theorem emit_pair (s : State) (o : Output) : (emit s o).pair = s.pair := rfl
@[simp] theorem emit_pav (s : State) (o : Output) : (emit s o).pav = s.pav := rfl
@[simp] theorem emit_pcie (s : State) (o : Output) : (emit s o).pcie = s.pcie := rfl
@[simp] theorem emit_upd (s : State) (o : Output) : (emit s o).upd = s.upd := rfl
@[simp] theorem emit_err (s : State) (o : Output) : (emit s o).err = s.err := rfl
@[simp] theorem emit_freeCtr (s : State) (o : Output) : (emit s o).freeCtr = s.freeCtr := rfl

/-! ### odSet -/

@[simp] theorem odSet_pending (s : State) (idx sub v : Nat) : (odSet s idx sub v).pending = s.pending := rfl
@[simp] theorem odSet_fuses (s : State) (idx sub v : Nat) : (odSet s idx sub v).fuses = s.fuses := rfl
@[simp] theorem odSet_flash (s : State) (idx sub v : Nat) : (odSet s idx sub v).flash = s.flash := rfl
@[simp] theorem odSet_tray (s : State) (idx sub v : Nat) : (odSet s idx sub v).tray = s.tray := rfl
@[simp] theorem odSet_clk (s : State) (idx sub v : Nat) : (odSet s idx sub v).clk = s.clk := rfl
@[simp] theorem odSet_wv (s : State) (idx sub v : Nat) : (odSet s idx sub v).wv = s.wv := rfl
@[simp] theorem odSet_seq (s : State) (idx sub v : Nat) : (odSet s idx sub v).seq = s.seq := rfl
@[simp] theorem odSet_cores (s : State) (idx sub v : Nat) : (odSet s idx sub v).cores = s.cores := rfl
@[simp] theorem odSet_sync (s : State) (idx sub v : Nat) : (odSet s idx sub v).sync = s.sync := rfl
@[simp] theorem odSet_mem (s : State) (idx sub v : Nat) : (odSet s idx sub v).mem = s.mem := rfl
@[simp] theorem odSet_dma (s : State) (idx sub v : Nat) : (odSet s idx sub v).dma = s.dma := rfl
@[simp] theorem odSet_dieJobs (s : State) (idx sub v : Nat) : (odSet s idx sub v).dieJobs = s.dieJobs := rfl
@[simp] theorem odSet_car (s : State) (idx sub v : Nat) : (odSet s idx sub v).car = s.car := rfl
@[simp] theorem odSet_kv (s : State) (idx sub v : Nat) : (odSet s idx sub v).kv = s.kv := rfl
@[simp] theorem odSet_variants (s : State) (idx sub v : Nat) : (odSet s idx sub v).variants = s.variants := rfl
@[simp] theorem odSet_zoe (s : State) (idx sub v : Nat) : (odSet s idx sub v).zoe = s.zoe := rfl
@[simp] theorem odSet_trl (s : State) (idx sub v : Nat) : (odSet s idx sub v).trl = s.trl := rfl
@[simp] theorem odSet_gate (s : State) (idx sub v : Nat) : (odSet s idx sub v).gate = s.gate := rfl
@[simp] theorem odSet_cvu (s : State) (idx sub v : Nat) : (odSet s idx sub v).cvu = s.cvu := rfl
@[simp] theorem odSet_pair (s : State) (idx sub v : Nat) : (odSet s idx sub v).pair = s.pair := rfl
@[simp] theorem odSet_pcie (s : State) (idx sub v : Nat) : (odSet s idx sub v).pcie = s.pcie := rfl
@[simp] theorem odSet_upd (s : State) (idx sub v : Nat) : (odSet s idx sub v).upd = s.upd := rfl
@[simp] theorem odSet_err (s : State) (idx sub v : Nat) : (odSet s idx sub v).err = s.err := rfl
@[simp] theorem odSet_out (s : State) (idx sub v : Nat) : (odSet s idx sub v).out = s.out := rfl
@[simp] theorem odSet_freeCtr (s : State) (idx sub v : Nat) : (odSet s idx sub v).freeCtr = s.freeCtr := rfl

/-! ### odReset -/

@[simp] theorem odReset_pending (s : State) (idx sub : Nat) : (odReset s idx sub).pending = s.pending := rfl
@[simp] theorem odReset_fuses (s : State) (idx sub : Nat) : (odReset s idx sub).fuses = s.fuses := rfl
@[simp] theorem odReset_flash (s : State) (idx sub : Nat) : (odReset s idx sub).flash = s.flash := rfl
@[simp] theorem odReset_tray (s : State) (idx sub : Nat) : (odReset s idx sub).tray = s.tray := rfl
@[simp] theorem odReset_clk (s : State) (idx sub : Nat) : (odReset s idx sub).clk = s.clk := rfl
@[simp] theorem odReset_wv (s : State) (idx sub : Nat) : (odReset s idx sub).wv = s.wv := rfl
@[simp] theorem odReset_seq (s : State) (idx sub : Nat) : (odReset s idx sub).seq = s.seq := rfl
@[simp] theorem odReset_cores (s : State) (idx sub : Nat) : (odReset s idx sub).cores = s.cores := rfl
@[simp] theorem odReset_sync (s : State) (idx sub : Nat) : (odReset s idx sub).sync = s.sync := rfl
@[simp] theorem odReset_mem (s : State) (idx sub : Nat) : (odReset s idx sub).mem = s.mem := rfl
@[simp] theorem odReset_dma (s : State) (idx sub : Nat) : (odReset s idx sub).dma = s.dma := rfl
@[simp] theorem odReset_dieJobs (s : State) (idx sub : Nat) : (odReset s idx sub).dieJobs = s.dieJobs := rfl
@[simp] theorem odReset_car (s : State) (idx sub : Nat) : (odReset s idx sub).car = s.car := rfl
@[simp] theorem odReset_kv (s : State) (idx sub : Nat) : (odReset s idx sub).kv = s.kv := rfl
@[simp] theorem odReset_variants (s : State) (idx sub : Nat) : (odReset s idx sub).variants = s.variants := rfl
@[simp] theorem odReset_zoe (s : State) (idx sub : Nat) : (odReset s idx sub).zoe = s.zoe := rfl
@[simp] theorem odReset_trl (s : State) (idx sub : Nat) : (odReset s idx sub).trl = s.trl := rfl
@[simp] theorem odReset_gate (s : State) (idx sub : Nat) : (odReset s idx sub).gate = s.gate := rfl
@[simp] theorem odReset_cvu (s : State) (idx sub : Nat) : (odReset s idx sub).cvu = s.cvu := rfl
@[simp] theorem odReset_pair (s : State) (idx sub : Nat) : (odReset s idx sub).pair = s.pair := rfl
@[simp] theorem odReset_pcie (s : State) (idx sub : Nat) : (odReset s idx sub).pcie = s.pcie := rfl
@[simp] theorem odReset_upd (s : State) (idx sub : Nat) : (odReset s idx sub).upd = s.upd := rfl
@[simp] theorem odReset_err (s : State) (idx sub : Nat) : (odReset s idx sub).err = s.err := rfl
@[simp] theorem odReset_out (s : State) (idx sub : Nat) : (odReset s idx sub).out = s.out := rfl
@[simp] theorem odReset_freeCtr (s : State) (idx sub : Nat) : (odReset s idx sub).freeCtr = s.freeCtr := rfl

/-! ### fnSet -/

@[simp] theorem fnSet_pending (s : State) (f : Nat) (x : FuncS) : (fnSet s f x).pending = s.pending := rfl
@[simp] theorem fnSet_fuses (s : State) (f : Nat) (x : FuncS) : (fnSet s f x).fuses = s.fuses := rfl
@[simp] theorem fnSet_flash (s : State) (f : Nat) (x : FuncS) : (fnSet s f x).flash = s.flash := rfl
@[simp] theorem fnSet_tray (s : State) (f : Nat) (x : FuncS) : (fnSet s f x).tray = s.tray := rfl
@[simp] theorem fnSet_clk (s : State) (f : Nat) (x : FuncS) : (fnSet s f x).clk = s.clk := rfl
@[simp] theorem fnSet_wv (s : State) (f : Nat) (x : FuncS) : (fnSet s f x).wv = s.wv := rfl
@[simp] theorem fnSet_seq (s : State) (f : Nat) (x : FuncS) : (fnSet s f x).seq = s.seq := rfl
@[simp] theorem fnSet_cores (s : State) (f : Nat) (x : FuncS) : (fnSet s f x).cores = s.cores := rfl
@[simp] theorem fnSet_sync (s : State) (f : Nat) (x : FuncS) : (fnSet s f x).sync = s.sync := rfl
@[simp] theorem fnSet_mem (s : State) (f : Nat) (x : FuncS) : (fnSet s f x).mem = s.mem := rfl
@[simp] theorem fnSet_dma (s : State) (f : Nat) (x : FuncS) : (fnSet s f x).dma = s.dma := rfl
@[simp] theorem fnSet_dieJobs (s : State) (f : Nat) (x : FuncS) : (fnSet s f x).dieJobs = s.dieJobs := rfl
@[simp] theorem fnSet_car (s : State) (f : Nat) (x : FuncS) : (fnSet s f x).car = s.car := rfl
@[simp] theorem fnSet_kv (s : State) (f : Nat) (x : FuncS) : (fnSet s f x).kv = s.kv := rfl
@[simp] theorem fnSet_variants (s : State) (f : Nat) (x : FuncS) : (fnSet s f x).variants = s.variants := rfl
@[simp] theorem fnSet_zoe (s : State) (f : Nat) (x : FuncS) : (fnSet s f x).zoe = s.zoe := rfl
@[simp] theorem fnSet_trl (s : State) (f : Nat) (x : FuncS) : (fnSet s f x).trl = s.trl := rfl
@[simp] theorem fnSet_gate (s : State) (f : Nat) (x : FuncS) : (fnSet s f x).gate = s.gate := rfl
@[simp] theorem fnSet_cvu (s : State) (f : Nat) (x : FuncS) : (fnSet s f x).cvu = s.cvu := rfl
@[simp] theorem fnSet_pair (s : State) (f : Nat) (x : FuncS) : (fnSet s f x).pair = s.pair := rfl
@[simp] theorem fnSet_pav (s : State) (f : Nat) (x : FuncS) : (fnSet s f x).pav = s.pav := rfl
@[simp] theorem fnSet_upd (s : State) (f : Nat) (x : FuncS) : (fnSet s f x).upd = s.upd := rfl
@[simp] theorem fnSet_err (s : State) (f : Nat) (x : FuncS) : (fnSet s f x).err = s.err := rfl
@[simp] theorem fnSet_out (s : State) (f : Nat) (x : FuncS) : (fnSet s f x).out = s.out := rfl
@[simp] theorem fnSet_freeCtr (s : State) (f : Nat) (x : FuncS) : (fnSet s f x).freeCtr = s.freeCtr := rfl

/-! ### hbmPut -/

@[simp] theorem hbmPut_pending (s : State) (a : Nat) (bs : List Byte) : (hbmPut s a bs).pending = s.pending := rfl
@[simp] theorem hbmPut_fuses (s : State) (a : Nat) (bs : List Byte) : (hbmPut s a bs).fuses = s.fuses := rfl
@[simp] theorem hbmPut_flash (s : State) (a : Nat) (bs : List Byte) : (hbmPut s a bs).flash = s.flash := rfl
@[simp] theorem hbmPut_tray (s : State) (a : Nat) (bs : List Byte) : (hbmPut s a bs).tray = s.tray := rfl
@[simp] theorem hbmPut_clk (s : State) (a : Nat) (bs : List Byte) : (hbmPut s a bs).clk = s.clk := rfl
@[simp] theorem hbmPut_wv (s : State) (a : Nat) (bs : List Byte) : (hbmPut s a bs).wv = s.wv := rfl
@[simp] theorem hbmPut_seq (s : State) (a : Nat) (bs : List Byte) : (hbmPut s a bs).seq = s.seq := rfl
@[simp] theorem hbmPut_cores (s : State) (a : Nat) (bs : List Byte) : (hbmPut s a bs).cores = s.cores := rfl
@[simp] theorem hbmPut_sync (s : State) (a : Nat) (bs : List Byte) : (hbmPut s a bs).sync = s.sync := rfl
@[simp] theorem hbmPut_dma (s : State) (a : Nat) (bs : List Byte) : (hbmPut s a bs).dma = s.dma := rfl
@[simp] theorem hbmPut_dieJobs (s : State) (a : Nat) (bs : List Byte) : (hbmPut s a bs).dieJobs = s.dieJobs := rfl
@[simp] theorem hbmPut_car (s : State) (a : Nat) (bs : List Byte) : (hbmPut s a bs).car = s.car := rfl
@[simp] theorem hbmPut_kv (s : State) (a : Nat) (bs : List Byte) : (hbmPut s a bs).kv = s.kv := rfl
@[simp] theorem hbmPut_variants (s : State) (a : Nat) (bs : List Byte) : (hbmPut s a bs).variants = s.variants := rfl
@[simp] theorem hbmPut_zoe (s : State) (a : Nat) (bs : List Byte) : (hbmPut s a bs).zoe = s.zoe := rfl
@[simp] theorem hbmPut_trl (s : State) (a : Nat) (bs : List Byte) : (hbmPut s a bs).trl = s.trl := rfl
@[simp] theorem hbmPut_gate (s : State) (a : Nat) (bs : List Byte) : (hbmPut s a bs).gate = s.gate := rfl
@[simp] theorem hbmPut_cvu (s : State) (a : Nat) (bs : List Byte) : (hbmPut s a bs).cvu = s.cvu := rfl
@[simp] theorem hbmPut_pair (s : State) (a : Nat) (bs : List Byte) : (hbmPut s a bs).pair = s.pair := rfl
@[simp] theorem hbmPut_pav (s : State) (a : Nat) (bs : List Byte) : (hbmPut s a bs).pav = s.pav := rfl
@[simp] theorem hbmPut_pcie (s : State) (a : Nat) (bs : List Byte) : (hbmPut s a bs).pcie = s.pcie := rfl
@[simp] theorem hbmPut_upd (s : State) (a : Nat) (bs : List Byte) : (hbmPut s a bs).upd = s.upd := rfl
@[simp] theorem hbmPut_err (s : State) (a : Nat) (bs : List Byte) : (hbmPut s a bs).err = s.err := rfl
@[simp] theorem hbmPut_out (s : State) (a : Nat) (bs : List Byte) : (hbmPut s a bs).out = s.out := rfl
@[simp] theorem hbmPut_freeCtr (s : State) (a : Nat) (bs : List Byte) : (hbmPut s a bs).freeCtr = s.freeCtr := rfl

/-! ### coreSet -/

@[simp] theorem coreSet_pending (s : State) (k : Nat) (c : Core) : (coreSet s k c).pending = s.pending := rfl
@[simp] theorem coreSet_fuses (s : State) (k : Nat) (c : Core) : (coreSet s k c).fuses = s.fuses := rfl
@[simp] theorem coreSet_flash (s : State) (k : Nat) (c : Core) : (coreSet s k c).flash = s.flash := rfl
@[simp] theorem coreSet_tray (s : State) (k : Nat) (c : Core) : (coreSet s k c).tray = s.tray := rfl
@[simp] theorem coreSet_clk (s : State) (k : Nat) (c : Core) : (coreSet s k c).clk = s.clk := rfl
@[simp] theorem coreSet_wv (s : State) (k : Nat) (c : Core) : (coreSet s k c).wv = s.wv := rfl
@[simp] theorem coreSet_seq (s : State) (k : Nat) (c : Core) : (coreSet s k c).seq = s.seq := rfl
@[simp] theorem coreSet_sync (s : State) (k : Nat) (c : Core) : (coreSet s k c).sync = s.sync := rfl
@[simp] theorem coreSet_mem (s : State) (k : Nat) (c : Core) : (coreSet s k c).mem = s.mem := rfl
@[simp] theorem coreSet_dma (s : State) (k : Nat) (c : Core) : (coreSet s k c).dma = s.dma := rfl
@[simp] theorem coreSet_dieJobs (s : State) (k : Nat) (c : Core) : (coreSet s k c).dieJobs = s.dieJobs := rfl
@[simp] theorem coreSet_car (s : State) (k : Nat) (c : Core) : (coreSet s k c).car = s.car := rfl
@[simp] theorem coreSet_kv (s : State) (k : Nat) (c : Core) : (coreSet s k c).kv = s.kv := rfl
@[simp] theorem coreSet_variants (s : State) (k : Nat) (c : Core) : (coreSet s k c).variants = s.variants := rfl
@[simp] theorem coreSet_zoe (s : State) (k : Nat) (c : Core) : (coreSet s k c).zoe = s.zoe := rfl
@[simp] theorem coreSet_trl (s : State) (k : Nat) (c : Core) : (coreSet s k c).trl = s.trl := rfl
@[simp] theorem coreSet_gate (s : State) (k : Nat) (c : Core) : (coreSet s k c).gate = s.gate := rfl
@[simp] theorem coreSet_cvu (s : State) (k : Nat) (c : Core) : (coreSet s k c).cvu = s.cvu := rfl
@[simp] theorem coreSet_pair (s : State) (k : Nat) (c : Core) : (coreSet s k c).pair = s.pair := rfl
@[simp] theorem coreSet_pav (s : State) (k : Nat) (c : Core) : (coreSet s k c).pav = s.pav := rfl
@[simp] theorem coreSet_pcie (s : State) (k : Nat) (c : Core) : (coreSet s k c).pcie = s.pcie := rfl
@[simp] theorem coreSet_upd (s : State) (k : Nat) (c : Core) : (coreSet s k c).upd = s.upd := rfl
@[simp] theorem coreSet_err (s : State) (k : Nat) (c : Core) : (coreSet s k c).err = s.err := rfl
@[simp] theorem coreSet_out (s : State) (k : Nat) (c : Core) : (coreSet s k c).out = s.out := rfl
@[simp] theorem coreSet_freeCtr (s : State) (k : Nat) (c : Core) : (coreSet s k c).freeCtr = s.freeCtr := rfl

/-! ### laneSet -/

@[simp] theorem laneSet_pending (s : State) (l : Nat) (x : Lane) : (laneSet s l x).pending = s.pending := rfl
@[simp] theorem laneSet_fuses (s : State) (l : Nat) (x : Lane) : (laneSet s l x).fuses = s.fuses := rfl
@[simp] theorem laneSet_flash (s : State) (l : Nat) (x : Lane) : (laneSet s l x).flash = s.flash := rfl
@[simp] theorem laneSet_tray (s : State) (l : Nat) (x : Lane) : (laneSet s l x).tray = s.tray := rfl
@[simp] theorem laneSet_clk (s : State) (l : Nat) (x : Lane) : (laneSet s l x).clk = s.clk := rfl
@[simp] theorem laneSet_wv (s : State) (l : Nat) (x : Lane) : (laneSet s l x).wv = s.wv := rfl
@[simp] theorem laneSet_cores (s : State) (l : Nat) (x : Lane) : (laneSet s l x).cores = s.cores := rfl
@[simp] theorem laneSet_sync (s : State) (l : Nat) (x : Lane) : (laneSet s l x).sync = s.sync := rfl
@[simp] theorem laneSet_mem (s : State) (l : Nat) (x : Lane) : (laneSet s l x).mem = s.mem := rfl
@[simp] theorem laneSet_dma (s : State) (l : Nat) (x : Lane) : (laneSet s l x).dma = s.dma := rfl
@[simp] theorem laneSet_dieJobs (s : State) (l : Nat) (x : Lane) : (laneSet s l x).dieJobs = s.dieJobs := rfl
@[simp] theorem laneSet_car (s : State) (l : Nat) (x : Lane) : (laneSet s l x).car = s.car := rfl
@[simp] theorem laneSet_kv (s : State) (l : Nat) (x : Lane) : (laneSet s l x).kv = s.kv := rfl
@[simp] theorem laneSet_variants (s : State) (l : Nat) (x : Lane) : (laneSet s l x).variants = s.variants := rfl
@[simp] theorem laneSet_zoe (s : State) (l : Nat) (x : Lane) : (laneSet s l x).zoe = s.zoe := rfl
@[simp] theorem laneSet_trl (s : State) (l : Nat) (x : Lane) : (laneSet s l x).trl = s.trl := rfl
@[simp] theorem laneSet_gate (s : State) (l : Nat) (x : Lane) : (laneSet s l x).gate = s.gate := rfl
@[simp] theorem laneSet_cvu (s : State) (l : Nat) (x : Lane) : (laneSet s l x).cvu = s.cvu := rfl
@[simp] theorem laneSet_pair (s : State) (l : Nat) (x : Lane) : (laneSet s l x).pair = s.pair := rfl
@[simp] theorem laneSet_pav (s : State) (l : Nat) (x : Lane) : (laneSet s l x).pav = s.pav := rfl
@[simp] theorem laneSet_pcie (s : State) (l : Nat) (x : Lane) : (laneSet s l x).pcie = s.pcie := rfl
@[simp] theorem laneSet_upd (s : State) (l : Nat) (x : Lane) : (laneSet s l x).upd = s.upd := rfl
@[simp] theorem laneSet_err (s : State) (l : Nat) (x : Lane) : (laneSet s l x).err = s.err := rfl
@[simp] theorem laneSet_out (s : State) (l : Nat) (x : Lane) : (laneSet s l x).out = s.out := rfl
@[simp] theorem laneSet_freeCtr (s : State) (l : Nat) (x : Lane) : (laneSet s l x).freeCtr = s.freeCtr := rfl

/-! ### ctxSet -/

@[simp] theorem ctxSet_pending (s : State) (c : Nat) (x : Context) : (ctxSet s c x).pending = s.pending := rfl
@[simp] theorem ctxSet_fuses (s : State) (c : Nat) (x : Context) : (ctxSet s c x).fuses = s.fuses := rfl
@[simp] theorem ctxSet_flash (s : State) (c : Nat) (x : Context) : (ctxSet s c x).flash = s.flash := rfl
@[simp] theorem ctxSet_tray (s : State) (c : Nat) (x : Context) : (ctxSet s c x).tray = s.tray := rfl
@[simp] theorem ctxSet_clk (s : State) (c : Nat) (x : Context) : (ctxSet s c x).clk = s.clk := rfl
@[simp] theorem ctxSet_wv (s : State) (c : Nat) (x : Context) : (ctxSet s c x).wv = s.wv := rfl
@[simp] theorem ctxSet_cores (s : State) (c : Nat) (x : Context) : (ctxSet s c x).cores = s.cores := rfl
@[simp] theorem ctxSet_sync (s : State) (c : Nat) (x : Context) : (ctxSet s c x).sync = s.sync := rfl
@[simp] theorem ctxSet_mem (s : State) (c : Nat) (x : Context) : (ctxSet s c x).mem = s.mem := rfl
@[simp] theorem ctxSet_dma (s : State) (c : Nat) (x : Context) : (ctxSet s c x).dma = s.dma := rfl
@[simp] theorem ctxSet_dieJobs (s : State) (c : Nat) (x : Context) : (ctxSet s c x).dieJobs = s.dieJobs := rfl
@[simp] theorem ctxSet_car (s : State) (c : Nat) (x : Context) : (ctxSet s c x).car = s.car := rfl
@[simp] theorem ctxSet_kv (s : State) (c : Nat) (x : Context) : (ctxSet s c x).kv = s.kv := rfl
@[simp] theorem ctxSet_variants (s : State) (c : Nat) (x : Context) : (ctxSet s c x).variants = s.variants := rfl
@[simp] theorem ctxSet_zoe (s : State) (c : Nat) (x : Context) : (ctxSet s c x).zoe = s.zoe := rfl
@[simp] theorem ctxSet_trl (s : State) (c : Nat) (x : Context) : (ctxSet s c x).trl = s.trl := rfl
@[simp] theorem ctxSet_gate (s : State) (c : Nat) (x : Context) : (ctxSet s c x).gate = s.gate := rfl
@[simp] theorem ctxSet_cvu (s : State) (c : Nat) (x : Context) : (ctxSet s c x).cvu = s.cvu := rfl
@[simp] theorem ctxSet_pair (s : State) (c : Nat) (x : Context) : (ctxSet s c x).pair = s.pair := rfl
@[simp] theorem ctxSet_pav (s : State) (c : Nat) (x : Context) : (ctxSet s c x).pav = s.pav := rfl
@[simp] theorem ctxSet_pcie (s : State) (c : Nat) (x : Context) : (ctxSet s c x).pcie = s.pcie := rfl
@[simp] theorem ctxSet_upd (s : State) (c : Nat) (x : Context) : (ctxSet s c x).upd = s.upd := rfl
@[simp] theorem ctxSet_err (s : State) (c : Nat) (x : Context) : (ctxSet s c x).err = s.err := rfl
@[simp] theorem ctxSet_out (s : State) (c : Nat) (x : Context) : (ctxSet s c x).out = s.out := rfl
@[simp] theorem ctxSet_freeCtr (s : State) (c : Nat) (x : Context) : (ctxSet s c x).freeCtr = s.freeCtr := rfl

/-! ### jobsSet -/

@[simp] theorem jobsSet_pending (s : State) (k : Nat) (l : List Job) : (jobsSet s k l).pending = s.pending := rfl
@[simp] theorem jobsSet_fuses (s : State) (k : Nat) (l : List Job) : (jobsSet s k l).fuses = s.fuses := rfl
@[simp] theorem jobsSet_flash (s : State) (k : Nat) (l : List Job) : (jobsSet s k l).flash = s.flash := rfl
@[simp] theorem jobsSet_tray (s : State) (k : Nat) (l : List Job) : (jobsSet s k l).tray = s.tray := rfl
@[simp] theorem jobsSet_clk (s : State) (k : Nat) (l : List Job) : (jobsSet s k l).clk = s.clk := rfl
@[simp] theorem jobsSet_wv (s : State) (k : Nat) (l : List Job) : (jobsSet s k l).wv = s.wv := rfl
@[simp] theorem jobsSet_seq (s : State) (k : Nat) (l : List Job) : (jobsSet s k l).seq = s.seq := rfl
@[simp] theorem jobsSet_cores (s : State) (k : Nat) (l : List Job) : (jobsSet s k l).cores = s.cores := rfl
@[simp] theorem jobsSet_sync (s : State) (k : Nat) (l : List Job) : (jobsSet s k l).sync = s.sync := rfl
@[simp] theorem jobsSet_mem (s : State) (k : Nat) (l : List Job) : (jobsSet s k l).mem = s.mem := rfl
@[simp] theorem jobsSet_dieJobs (s : State) (k : Nat) (l : List Job) : (jobsSet s k l).dieJobs = s.dieJobs := rfl
@[simp] theorem jobsSet_car (s : State) (k : Nat) (l : List Job) : (jobsSet s k l).car = s.car := rfl
@[simp] theorem jobsSet_kv (s : State) (k : Nat) (l : List Job) : (jobsSet s k l).kv = s.kv := rfl
@[simp] theorem jobsSet_variants (s : State) (k : Nat) (l : List Job) : (jobsSet s k l).variants = s.variants := rfl
@[simp] theorem jobsSet_zoe (s : State) (k : Nat) (l : List Job) : (jobsSet s k l).zoe = s.zoe := rfl
@[simp] theorem jobsSet_trl (s : State) (k : Nat) (l : List Job) : (jobsSet s k l).trl = s.trl := rfl
@[simp] theorem jobsSet_gate (s : State) (k : Nat) (l : List Job) : (jobsSet s k l).gate = s.gate := rfl
@[simp] theorem jobsSet_cvu (s : State) (k : Nat) (l : List Job) : (jobsSet s k l).cvu = s.cvu := rfl
@[simp] theorem jobsSet_pair (s : State) (k : Nat) (l : List Job) : (jobsSet s k l).pair = s.pair := rfl
@[simp] theorem jobsSet_pav (s : State) (k : Nat) (l : List Job) : (jobsSet s k l).pav = s.pav := rfl
@[simp] theorem jobsSet_pcie (s : State) (k : Nat) (l : List Job) : (jobsSet s k l).pcie = s.pcie := rfl
@[simp] theorem jobsSet_upd (s : State) (k : Nat) (l : List Job) : (jobsSet s k l).upd = s.upd := rfl
@[simp] theorem jobsSet_err (s : State) (k : Nat) (l : List Job) : (jobsSet s k l).err = s.err := rfl
@[simp] theorem jobsSet_out (s : State) (k : Nat) (l : List Job) : (jobsSet s k l).out = s.out := rfl
@[simp] theorem jobsSet_freeCtr (s : State) (k : Nat) (l : List Job) : (jobsSet s k l).freeCtr = s.freeCtr := rfl

/-! ### keySlotSet -/

@[simp] theorem keySlotSet_pending (s : State) (n : Nat) (k : KeySlot) : (keySlotSet s n k).pending = s.pending := rfl
@[simp] theorem keySlotSet_fuses (s : State) (n : Nat) (k : KeySlot) : (keySlotSet s n k).fuses = s.fuses := rfl
@[simp] theorem keySlotSet_flash (s : State) (n : Nat) (k : KeySlot) : (keySlotSet s n k).flash = s.flash := rfl
@[simp] theorem keySlotSet_tray (s : State) (n : Nat) (k : KeySlot) : (keySlotSet s n k).tray = s.tray := rfl
@[simp] theorem keySlotSet_clk (s : State) (n : Nat) (k : KeySlot) : (keySlotSet s n k).clk = s.clk := rfl
@[simp] theorem keySlotSet_wv (s : State) (n : Nat) (k : KeySlot) : (keySlotSet s n k).wv = s.wv := rfl
@[simp] theorem keySlotSet_seq (s : State) (n : Nat) (k : KeySlot) : (keySlotSet s n k).seq = s.seq := rfl
@[simp] theorem keySlotSet_cores (s : State) (n : Nat) (k : KeySlot) : (keySlotSet s n k).cores = s.cores := rfl
@[simp] theorem keySlotSet_sync (s : State) (n : Nat) (k : KeySlot) : (keySlotSet s n k).sync = s.sync := rfl
@[simp] theorem keySlotSet_mem (s : State) (n : Nat) (k : KeySlot) : (keySlotSet s n k).mem = s.mem := rfl
@[simp] theorem keySlotSet_dma (s : State) (n : Nat) (k : KeySlot) : (keySlotSet s n k).dma = s.dma := rfl
@[simp] theorem keySlotSet_dieJobs (s : State) (n : Nat) (k : KeySlot) : (keySlotSet s n k).dieJobs = s.dieJobs := rfl
@[simp] theorem keySlotSet_car (s : State) (n : Nat) (k : KeySlot) : (keySlotSet s n k).car = s.car := rfl
@[simp] theorem keySlotSet_kv (s : State) (n : Nat) (k : KeySlot) : (keySlotSet s n k).kv = s.kv := rfl
@[simp] theorem keySlotSet_variants (s : State) (n : Nat) (k : KeySlot) : (keySlotSet s n k).variants = s.variants := rfl
@[simp] theorem keySlotSet_zoe (s : State) (n : Nat) (k : KeySlot) : (keySlotSet s n k).zoe = s.zoe := rfl
@[simp] theorem keySlotSet_trl (s : State) (n : Nat) (k : KeySlot) : (keySlotSet s n k).trl = s.trl := rfl
@[simp] theorem keySlotSet_cvu (s : State) (n : Nat) (k : KeySlot) : (keySlotSet s n k).cvu = s.cvu := rfl
@[simp] theorem keySlotSet_pair (s : State) (n : Nat) (k : KeySlot) : (keySlotSet s n k).pair = s.pair := rfl
@[simp] theorem keySlotSet_pav (s : State) (n : Nat) (k : KeySlot) : (keySlotSet s n k).pav = s.pav := rfl
@[simp] theorem keySlotSet_pcie (s : State) (n : Nat) (k : KeySlot) : (keySlotSet s n k).pcie = s.pcie := rfl
@[simp] theorem keySlotSet_upd (s : State) (n : Nat) (k : KeySlot) : (keySlotSet s n k).upd = s.upd := rfl
@[simp] theorem keySlotSet_err (s : State) (n : Nat) (k : KeySlot) : (keySlotSet s n k).err = s.err := rfl
@[simp] theorem keySlotSet_out (s : State) (n : Nat) (k : KeySlot) : (keySlotSet s n k).out = s.out := rfl
@[simp] theorem keySlotSet_freeCtr (s : State) (n : Nat) (k : KeySlot) : (keySlotSet s n k).freeCtr = s.freeCtr := rfl

/-! ### poolSet -/

@[simp] theorem poolSet_pending (s : State) (p : Nat) (x : Pool) : (poolSet s p x).pending = s.pending := rfl
@[simp] theorem poolSet_fuses (s : State) (p : Nat) (x : Pool) : (poolSet s p x).fuses = s.fuses := rfl
@[simp] theorem poolSet_flash (s : State) (p : Nat) (x : Pool) : (poolSet s p x).flash = s.flash := rfl
@[simp] theorem poolSet_tray (s : State) (p : Nat) (x : Pool) : (poolSet s p x).tray = s.tray := rfl
@[simp] theorem poolSet_clk (s : State) (p : Nat) (x : Pool) : (poolSet s p x).clk = s.clk := rfl
@[simp] theorem poolSet_wv (s : State) (p : Nat) (x : Pool) : (poolSet s p x).wv = s.wv := rfl
@[simp] theorem poolSet_seq (s : State) (p : Nat) (x : Pool) : (poolSet s p x).seq = s.seq := rfl
@[simp] theorem poolSet_cores (s : State) (p : Nat) (x : Pool) : (poolSet s p x).cores = s.cores := rfl
@[simp] theorem poolSet_sync (s : State) (p : Nat) (x : Pool) : (poolSet s p x).sync = s.sync := rfl
@[simp] theorem poolSet_mem (s : State) (p : Nat) (x : Pool) : (poolSet s p x).mem = s.mem := rfl
@[simp] theorem poolSet_dma (s : State) (p : Nat) (x : Pool) : (poolSet s p x).dma = s.dma := rfl
@[simp] theorem poolSet_dieJobs (s : State) (p : Nat) (x : Pool) : (poolSet s p x).dieJobs = s.dieJobs := rfl
@[simp] theorem poolSet_car (s : State) (p : Nat) (x : Pool) : (poolSet s p x).car = s.car := rfl
@[simp] theorem poolSet_variants (s : State) (p : Nat) (x : Pool) : (poolSet s p x).variants = s.variants := rfl
@[simp] theorem poolSet_zoe (s : State) (p : Nat) (x : Pool) : (poolSet s p x).zoe = s.zoe := rfl
@[simp] theorem poolSet_trl (s : State) (p : Nat) (x : Pool) : (poolSet s p x).trl = s.trl := rfl
@[simp] theorem poolSet_gate (s : State) (p : Nat) (x : Pool) : (poolSet s p x).gate = s.gate := rfl
@[simp] theorem poolSet_cvu (s : State) (p : Nat) (x : Pool) : (poolSet s p x).cvu = s.cvu := rfl
@[simp] theorem poolSet_pair (s : State) (p : Nat) (x : Pool) : (poolSet s p x).pair = s.pair := rfl
@[simp] theorem poolSet_pav (s : State) (p : Nat) (x : Pool) : (poolSet s p x).pav = s.pav := rfl
@[simp] theorem poolSet_pcie (s : State) (p : Nat) (x : Pool) : (poolSet s p x).pcie = s.pcie := rfl
@[simp] theorem poolSet_upd (s : State) (p : Nat) (x : Pool) : (poolSet s p x).upd = s.upd := rfl
@[simp] theorem poolSet_err (s : State) (p : Nat) (x : Pool) : (poolSet s p x).err = s.err := rfl
@[simp] theorem poolSet_out (s : State) (p : Nat) (x : Pool) : (poolSet s p x).out = s.out := rfl
@[simp] theorem poolSet_freeCtr (s : State) (p : Nat) (x : Pool) : (poolSet s p x).freeCtr = s.freeCtr := rfl

/-! ### reqSet -/

@[simp] theorem reqSet_pending (s : State) (h : Nat) (r : Req) : (reqSet s h r).pending = s.pending := rfl
@[simp] theorem reqSet_fuses (s : State) (h : Nat) (r : Req) : (reqSet s h r).fuses = s.fuses := rfl
@[simp] theorem reqSet_flash (s : State) (h : Nat) (r : Req) : (reqSet s h r).flash = s.flash := rfl
@[simp] theorem reqSet_tray (s : State) (h : Nat) (r : Req) : (reqSet s h r).tray = s.tray := rfl
@[simp] theorem reqSet_clk (s : State) (h : Nat) (r : Req) : (reqSet s h r).clk = s.clk := rfl
@[simp] theorem reqSet_wv (s : State) (h : Nat) (r : Req) : (reqSet s h r).wv = s.wv := rfl
@[simp] theorem reqSet_seq (s : State) (h : Nat) (r : Req) : (reqSet s h r).seq = s.seq := rfl
@[simp] theorem reqSet_cores (s : State) (h : Nat) (r : Req) : (reqSet s h r).cores = s.cores := rfl
@[simp] theorem reqSet_sync (s : State) (h : Nat) (r : Req) : (reqSet s h r).sync = s.sync := rfl
@[simp] theorem reqSet_mem (s : State) (h : Nat) (r : Req) : (reqSet s h r).mem = s.mem := rfl
@[simp] theorem reqSet_dma (s : State) (h : Nat) (r : Req) : (reqSet s h r).dma = s.dma := rfl
@[simp] theorem reqSet_dieJobs (s : State) (h : Nat) (r : Req) : (reqSet s h r).dieJobs = s.dieJobs := rfl
@[simp] theorem reqSet_kv (s : State) (h : Nat) (r : Req) : (reqSet s h r).kv = s.kv := rfl
@[simp] theorem reqSet_variants (s : State) (h : Nat) (r : Req) : (reqSet s h r).variants = s.variants := rfl
@[simp] theorem reqSet_zoe (s : State) (h : Nat) (r : Req) : (reqSet s h r).zoe = s.zoe := rfl
@[simp] theorem reqSet_trl (s : State) (h : Nat) (r : Req) : (reqSet s h r).trl = s.trl := rfl
@[simp] theorem reqSet_gate (s : State) (h : Nat) (r : Req) : (reqSet s h r).gate = s.gate := rfl
@[simp] theorem reqSet_cvu (s : State) (h : Nat) (r : Req) : (reqSet s h r).cvu = s.cvu := rfl
@[simp] theorem reqSet_pav (s : State) (h : Nat) (r : Req) : (reqSet s h r).pav = s.pav := rfl
@[simp] theorem reqSet_pcie (s : State) (h : Nat) (r : Req) : (reqSet s h r).pcie = s.pcie := rfl
@[simp] theorem reqSet_upd (s : State) (h : Nat) (r : Req) : (reqSet s h r).upd = s.upd := rfl
@[simp] theorem reqSet_err (s : State) (h : Nat) (r : Req) : (reqSet s h r).err = s.err := rfl
@[simp] theorem reqSet_out (s : State) (h : Nat) (r : Req) : (reqSet s h r).out = s.out := rfl
@[simp] theorem reqSet_freeCtr (s : State) (h : Nat) (r : Req) : (reqSet s h r).freeCtr = s.freeCtr := rfl

/-! ### varSet -/

@[simp] theorem varSet_pending (s : State) (p v : Nat) (x : Variant) : (varSet s p v x).pending = s.pending := rfl
@[simp] theorem varSet_fuses (s : State) (p v : Nat) (x : Variant) : (varSet s p v x).fuses = s.fuses := rfl
@[simp] theorem varSet_flash (s : State) (p v : Nat) (x : Variant) : (varSet s p v x).flash = s.flash := rfl
@[simp] theorem varSet_tray (s : State) (p v : Nat) (x : Variant) : (varSet s p v x).tray = s.tray := rfl
@[simp] theorem varSet_clk (s : State) (p v : Nat) (x : Variant) : (varSet s p v x).clk = s.clk := rfl
@[simp] theorem varSet_wv (s : State) (p v : Nat) (x : Variant) : (varSet s p v x).wv = s.wv := rfl
@[simp] theorem varSet_seq (s : State) (p v : Nat) (x : Variant) : (varSet s p v x).seq = s.seq := rfl
@[simp] theorem varSet_cores (s : State) (p v : Nat) (x : Variant) : (varSet s p v x).cores = s.cores := rfl
@[simp] theorem varSet_sync (s : State) (p v : Nat) (x : Variant) : (varSet s p v x).sync = s.sync := rfl
@[simp] theorem varSet_mem (s : State) (p v : Nat) (x : Variant) : (varSet s p v x).mem = s.mem := rfl
@[simp] theorem varSet_dma (s : State) (p v : Nat) (x : Variant) : (varSet s p v x).dma = s.dma := rfl
@[simp] theorem varSet_dieJobs (s : State) (p v : Nat) (x : Variant) : (varSet s p v x).dieJobs = s.dieJobs := rfl
@[simp] theorem varSet_car (s : State) (p v : Nat) (x : Variant) : (varSet s p v x).car = s.car := rfl
@[simp] theorem varSet_kv (s : State) (p v : Nat) (x : Variant) : (varSet s p v x).kv = s.kv := rfl
@[simp] theorem varSet_zoe (s : State) (p v : Nat) (x : Variant) : (varSet s p v x).zoe = s.zoe := rfl
@[simp] theorem varSet_trl (s : State) (p v : Nat) (x : Variant) : (varSet s p v x).trl = s.trl := rfl
@[simp] theorem varSet_gate (s : State) (p v : Nat) (x : Variant) : (varSet s p v x).gate = s.gate := rfl
@[simp] theorem varSet_cvu (s : State) (p v : Nat) (x : Variant) : (varSet s p v x).cvu = s.cvu := rfl
@[simp] theorem varSet_pair (s : State) (p v : Nat) (x : Variant) : (varSet s p v x).pair = s.pair := rfl
@[simp] theorem varSet_pav (s : State) (p v : Nat) (x : Variant) : (varSet s p v x).pav = s.pav := rfl
@[simp] theorem varSet_pcie (s : State) (p v : Nat) (x : Variant) : (varSet s p v x).pcie = s.pcie := rfl
@[simp] theorem varSet_upd (s : State) (p v : Nat) (x : Variant) : (varSet s p v x).upd = s.upd := rfl
@[simp] theorem varSet_err (s : State) (p v : Nat) (x : Variant) : (varSet s p v x).err = s.err := rfl
@[simp] theorem varSet_out (s : State) (p v : Nat) (x : Variant) : (varSet s p v x).out = s.out := rfl
@[simp] theorem varSet_freeCtr (s : State) (p v : Nat) (x : Variant) : (varSet s p v x).freeCtr = s.freeCtr := rfl

/-! ### portSet -/

@[simp] theorem portSet_pending (s : State) (p : Nat) (x : Port) : (portSet s p x).pending = s.pending := rfl
@[simp] theorem portSet_fuses (s : State) (p : Nat) (x : Port) : (portSet s p x).fuses = s.fuses := rfl
@[simp] theorem portSet_flash (s : State) (p : Nat) (x : Port) : (portSet s p x).flash = s.flash := rfl
@[simp] theorem portSet_tray (s : State) (p : Nat) (x : Port) : (portSet s p x).tray = s.tray := rfl
@[simp] theorem portSet_clk (s : State) (p : Nat) (x : Port) : (portSet s p x).clk = s.clk := rfl
@[simp] theorem portSet_wv (s : State) (p : Nat) (x : Port) : (portSet s p x).wv = s.wv := rfl
@[simp] theorem portSet_seq (s : State) (p : Nat) (x : Port) : (portSet s p x).seq = s.seq := rfl
@[simp] theorem portSet_cores (s : State) (p : Nat) (x : Port) : (portSet s p x).cores = s.cores := rfl
@[simp] theorem portSet_sync (s : State) (p : Nat) (x : Port) : (portSet s p x).sync = s.sync := rfl
@[simp] theorem portSet_mem (s : State) (p : Nat) (x : Port) : (portSet s p x).mem = s.mem := rfl
@[simp] theorem portSet_dma (s : State) (p : Nat) (x : Port) : (portSet s p x).dma = s.dma := rfl
@[simp] theorem portSet_dieJobs (s : State) (p : Nat) (x : Port) : (portSet s p x).dieJobs = s.dieJobs := rfl
@[simp] theorem portSet_car (s : State) (p : Nat) (x : Port) : (portSet s p x).car = s.car := rfl
@[simp] theorem portSet_kv (s : State) (p : Nat) (x : Port) : (portSet s p x).kv = s.kv := rfl
@[simp] theorem portSet_variants (s : State) (p : Nat) (x : Port) : (portSet s p x).variants = s.variants := rfl
@[simp] theorem portSet_zoe (s : State) (p : Nat) (x : Port) : (portSet s p x).zoe = s.zoe := rfl
@[simp] theorem portSet_gate (s : State) (p : Nat) (x : Port) : (portSet s p x).gate = s.gate := rfl
@[simp] theorem portSet_cvu (s : State) (p : Nat) (x : Port) : (portSet s p x).cvu = s.cvu := rfl
@[simp] theorem portSet_pair (s : State) (p : Nat) (x : Port) : (portSet s p x).pair = s.pair := rfl
@[simp] theorem portSet_pav (s : State) (p : Nat) (x : Port) : (portSet s p x).pav = s.pav := rfl
@[simp] theorem portSet_pcie (s : State) (p : Nat) (x : Port) : (portSet s p x).pcie = s.pcie := rfl
@[simp] theorem portSet_upd (s : State) (p : Nat) (x : Port) : (portSet s p x).upd = s.upd := rfl
@[simp] theorem portSet_err (s : State) (p : Nat) (x : Port) : (portSet s p x).err = s.err := rfl
@[simp] theorem portSet_out (s : State) (p : Nat) (x : Port) : (portSet s p x).out = s.out := rfl
@[simp] theorem portSet_freeCtr (s : State) (p : Nat) (x : Port) : (portSet s p x).freeCtr = s.freeCtr := rfl

/-! ### tjSet -/

@[simp] theorem tjSet_pending (s : State) (n : Nat) (j : TJob) : (tjSet s n j).pending = s.pending := rfl
@[simp] theorem tjSet_fuses (s : State) (n : Nat) (j : TJob) : (tjSet s n j).fuses = s.fuses := rfl
@[simp] theorem tjSet_flash (s : State) (n : Nat) (j : TJob) : (tjSet s n j).flash = s.flash := rfl
@[simp] theorem tjSet_tray (s : State) (n : Nat) (j : TJob) : (tjSet s n j).tray = s.tray := rfl
@[simp] theorem tjSet_clk (s : State) (n : Nat) (j : TJob) : (tjSet s n j).clk = s.clk := rfl
@[simp] theorem tjSet_wv (s : State) (n : Nat) (j : TJob) : (tjSet s n j).wv = s.wv := rfl
@[simp] theorem tjSet_seq (s : State) (n : Nat) (j : TJob) : (tjSet s n j).seq = s.seq := rfl
@[simp] theorem tjSet_cores (s : State) (n : Nat) (j : TJob) : (tjSet s n j).cores = s.cores := rfl
@[simp] theorem tjSet_sync (s : State) (n : Nat) (j : TJob) : (tjSet s n j).sync = s.sync := rfl
@[simp] theorem tjSet_mem (s : State) (n : Nat) (j : TJob) : (tjSet s n j).mem = s.mem := rfl
@[simp] theorem tjSet_dma (s : State) (n : Nat) (j : TJob) : (tjSet s n j).dma = s.dma := rfl
@[simp] theorem tjSet_dieJobs (s : State) (n : Nat) (j : TJob) : (tjSet s n j).dieJobs = s.dieJobs := rfl
@[simp] theorem tjSet_car (s : State) (n : Nat) (j : TJob) : (tjSet s n j).car = s.car := rfl
@[simp] theorem tjSet_kv (s : State) (n : Nat) (j : TJob) : (tjSet s n j).kv = s.kv := rfl
@[simp] theorem tjSet_variants (s : State) (n : Nat) (j : TJob) : (tjSet s n j).variants = s.variants := rfl
@[simp] theorem tjSet_zoe (s : State) (n : Nat) (j : TJob) : (tjSet s n j).zoe = s.zoe := rfl
@[simp] theorem tjSet_gate (s : State) (n : Nat) (j : TJob) : (tjSet s n j).gate = s.gate := rfl
@[simp] theorem tjSet_cvu (s : State) (n : Nat) (j : TJob) : (tjSet s n j).cvu = s.cvu := rfl
@[simp] theorem tjSet_pair (s : State) (n : Nat) (j : TJob) : (tjSet s n j).pair = s.pair := rfl
@[simp] theorem tjSet_pav (s : State) (n : Nat) (j : TJob) : (tjSet s n j).pav = s.pav := rfl
@[simp] theorem tjSet_pcie (s : State) (n : Nat) (j : TJob) : (tjSet s n j).pcie = s.pcie := rfl
@[simp] theorem tjSet_upd (s : State) (n : Nat) (j : TJob) : (tjSet s n j).upd = s.upd := rfl
@[simp] theorem tjSet_err (s : State) (n : Nat) (j : TJob) : (tjSet s n j).err = s.err := rfl
@[simp] theorem tjSet_out (s : State) (n : Nat) (j : TJob) : (tjSet s n j).out = s.out := rfl
@[simp] theorem tjSet_freeCtr (s : State) (n : Nat) (j : TJob) : (tjSet s n j).freeCtr = s.freeCtr := rfl

/-! ### cabPut -/

@[simp] theorem cabPut_pending (s : State) (n : Nat) (x : Counter) : (cabPut s n x).pending = s.pending := rfl
@[simp] theorem cabPut_fuses (s : State) (n : Nat) (x : Counter) : (cabPut s n x).fuses = s.fuses := rfl
@[simp] theorem cabPut_flash (s : State) (n : Nat) (x : Counter) : (cabPut s n x).flash = s.flash := rfl
@[simp] theorem cabPut_tray (s : State) (n : Nat) (x : Counter) : (cabPut s n x).tray = s.tray := rfl
@[simp] theorem cabPut_clk (s : State) (n : Nat) (x : Counter) : (cabPut s n x).clk = s.clk := rfl
@[simp] theorem cabPut_wv (s : State) (n : Nat) (x : Counter) : (cabPut s n x).wv = s.wv := rfl
@[simp] theorem cabPut_seq (s : State) (n : Nat) (x : Counter) : (cabPut s n x).seq = s.seq := rfl
@[simp] theorem cabPut_cores (s : State) (n : Nat) (x : Counter) : (cabPut s n x).cores = s.cores := rfl
@[simp] theorem cabPut_sync (s : State) (n : Nat) (x : Counter) : (cabPut s n x).sync = s.sync := rfl
@[simp] theorem cabPut_mem (s : State) (n : Nat) (x : Counter) : (cabPut s n x).mem = s.mem := rfl
@[simp] theorem cabPut_dma (s : State) (n : Nat) (x : Counter) : (cabPut s n x).dma = s.dma := rfl
@[simp] theorem cabPut_dieJobs (s : State) (n : Nat) (x : Counter) : (cabPut s n x).dieJobs = s.dieJobs := rfl
@[simp] theorem cabPut_car (s : State) (n : Nat) (x : Counter) : (cabPut s n x).car = s.car := rfl
@[simp] theorem cabPut_kv (s : State) (n : Nat) (x : Counter) : (cabPut s n x).kv = s.kv := rfl
@[simp] theorem cabPut_variants (s : State) (n : Nat) (x : Counter) : (cabPut s n x).variants = s.variants := rfl
@[simp] theorem cabPut_zoe (s : State) (n : Nat) (x : Counter) : (cabPut s n x).zoe = s.zoe := rfl
@[simp] theorem cabPut_gate (s : State) (n : Nat) (x : Counter) : (cabPut s n x).gate = s.gate := rfl
@[simp] theorem cabPut_cvu (s : State) (n : Nat) (x : Counter) : (cabPut s n x).cvu = s.cvu := rfl
@[simp] theorem cabPut_pair (s : State) (n : Nat) (x : Counter) : (cabPut s n x).pair = s.pair := rfl
@[simp] theorem cabPut_pav (s : State) (n : Nat) (x : Counter) : (cabPut s n x).pav = s.pav := rfl
@[simp] theorem cabPut_pcie (s : State) (n : Nat) (x : Counter) : (cabPut s n x).pcie = s.pcie := rfl
@[simp] theorem cabPut_upd (s : State) (n : Nat) (x : Counter) : (cabPut s n x).upd = s.upd := rfl
@[simp] theorem cabPut_err (s : State) (n : Nat) (x : Counter) : (cabPut s n x).err = s.err := rfl
@[simp] theorem cabPut_out (s : State) (n : Nat) (x : Counter) : (cabPut s n x).out = s.out := rfl
@[simp] theorem cabPut_freeCtr (s : State) (n : Nat) (x : Counter) : (cabPut s n x).freeCtr = s.freeCtr := rfl

/-! ### cabSet -/

@[simp] theorem cabSet_pending (s : State) (n : Nat) (v : W32) : (cabSet s n v).pending = s.pending := rfl
@[simp] theorem cabSet_fuses (s : State) (n : Nat) (v : W32) : (cabSet s n v).fuses = s.fuses := rfl
@[simp] theorem cabSet_flash (s : State) (n : Nat) (v : W32) : (cabSet s n v).flash = s.flash := rfl
@[simp] theorem cabSet_tray (s : State) (n : Nat) (v : W32) : (cabSet s n v).tray = s.tray := rfl
@[simp] theorem cabSet_clk (s : State) (n : Nat) (v : W32) : (cabSet s n v).clk = s.clk := rfl
@[simp] theorem cabSet_wv (s : State) (n : Nat) (v : W32) : (cabSet s n v).wv = s.wv := rfl
@[simp] theorem cabSet_seq (s : State) (n : Nat) (v : W32) : (cabSet s n v).seq = s.seq := rfl
@[simp] theorem cabSet_cores (s : State) (n : Nat) (v : W32) : (cabSet s n v).cores = s.cores := rfl
@[simp] theorem cabSet_sync (s : State) (n : Nat) (v : W32) : (cabSet s n v).sync = s.sync := rfl
@[simp] theorem cabSet_mem (s : State) (n : Nat) (v : W32) : (cabSet s n v).mem = s.mem := rfl
@[simp] theorem cabSet_dma (s : State) (n : Nat) (v : W32) : (cabSet s n v).dma = s.dma := rfl
@[simp] theorem cabSet_dieJobs (s : State) (n : Nat) (v : W32) : (cabSet s n v).dieJobs = s.dieJobs := rfl
@[simp] theorem cabSet_car (s : State) (n : Nat) (v : W32) : (cabSet s n v).car = s.car := rfl
@[simp] theorem cabSet_kv (s : State) (n : Nat) (v : W32) : (cabSet s n v).kv = s.kv := rfl
@[simp] theorem cabSet_variants (s : State) (n : Nat) (v : W32) : (cabSet s n v).variants = s.variants := rfl
@[simp] theorem cabSet_zoe (s : State) (n : Nat) (v : W32) : (cabSet s n v).zoe = s.zoe := rfl
@[simp] theorem cabSet_gate (s : State) (n : Nat) (v : W32) : (cabSet s n v).gate = s.gate := rfl
@[simp] theorem cabSet_cvu (s : State) (n : Nat) (v : W32) : (cabSet s n v).cvu = s.cvu := rfl
@[simp] theorem cabSet_pair (s : State) (n : Nat) (v : W32) : (cabSet s n v).pair = s.pair := rfl
@[simp] theorem cabSet_pav (s : State) (n : Nat) (v : W32) : (cabSet s n v).pav = s.pav := rfl
@[simp] theorem cabSet_pcie (s : State) (n : Nat) (v : W32) : (cabSet s n v).pcie = s.pcie := rfl
@[simp] theorem cabSet_upd (s : State) (n : Nat) (v : W32) : (cabSet s n v).upd = s.upd := rfl
@[simp] theorem cabSet_err (s : State) (n : Nat) (v : W32) : (cabSet s n v).err = s.err := rfl
@[simp] theorem cabSet_out (s : State) (n : Nat) (v : W32) : (cabSet s n v).out = s.out := rfl
@[simp] theorem cabSet_freeCtr (s : State) (n : Nat) (v : W32) : (cabSet s n v).freeCtr = s.freeCtr := rfl

/-! ### vSet -/

@[simp] theorem vSet_pending (s : State) (n : Nat) (v : VSession) : (vSet s n v).pending = s.pending := rfl
@[simp] theorem vSet_fuses (s : State) (n : Nat) (v : VSession) : (vSet s n v).fuses = s.fuses := rfl
@[simp] theorem vSet_flash (s : State) (n : Nat) (v : VSession) : (vSet s n v).flash = s.flash := rfl
@[simp] theorem vSet_tray (s : State) (n : Nat) (v : VSession) : (vSet s n v).tray = s.tray := rfl
@[simp] theorem vSet_clk (s : State) (n : Nat) (v : VSession) : (vSet s n v).clk = s.clk := rfl
@[simp] theorem vSet_wv (s : State) (n : Nat) (v : VSession) : (vSet s n v).wv = s.wv := rfl
@[simp] theorem vSet_seq (s : State) (n : Nat) (v : VSession) : (vSet s n v).seq = s.seq := rfl
@[simp] theorem vSet_cores (s : State) (n : Nat) (v : VSession) : (vSet s n v).cores = s.cores := rfl
@[simp] theorem vSet_sync (s : State) (n : Nat) (v : VSession) : (vSet s n v).sync = s.sync := rfl
@[simp] theorem vSet_mem (s : State) (n : Nat) (v : VSession) : (vSet s n v).mem = s.mem := rfl
@[simp] theorem vSet_dma (s : State) (n : Nat) (v : VSession) : (vSet s n v).dma = s.dma := rfl
@[simp] theorem vSet_dieJobs (s : State) (n : Nat) (v : VSession) : (vSet s n v).dieJobs = s.dieJobs := rfl
@[simp] theorem vSet_car (s : State) (n : Nat) (v : VSession) : (vSet s n v).car = s.car := rfl
@[simp] theorem vSet_kv (s : State) (n : Nat) (v : VSession) : (vSet s n v).kv = s.kv := rfl
@[simp] theorem vSet_variants (s : State) (n : Nat) (v : VSession) : (vSet s n v).variants = s.variants := rfl
@[simp] theorem vSet_trl (s : State) (n : Nat) (v : VSession) : (vSet s n v).trl = s.trl := rfl
@[simp] theorem vSet_gate (s : State) (n : Nat) (v : VSession) : (vSet s n v).gate = s.gate := rfl
@[simp] theorem vSet_cvu (s : State) (n : Nat) (v : VSession) : (vSet s n v).cvu = s.cvu := rfl
@[simp] theorem vSet_pair (s : State) (n : Nat) (v : VSession) : (vSet s n v).pair = s.pair := rfl
@[simp] theorem vSet_pav (s : State) (n : Nat) (v : VSession) : (vSet s n v).pav = s.pav := rfl
@[simp] theorem vSet_pcie (s : State) (n : Nat) (v : VSession) : (vSet s n v).pcie = s.pcie := rfl
@[simp] theorem vSet_upd (s : State) (n : Nat) (v : VSession) : (vSet s n v).upd = s.upd := rfl
@[simp] theorem vSet_err (s : State) (n : Nat) (v : VSession) : (vSet s n v).err = s.err := rfl
@[simp] theorem vSet_out (s : State) (n : Nat) (v : VSession) : (vSet s n v).out = s.out := rfl
@[simp] theorem vSet_freeCtr (s : State) (n : Nat) (v : VSession) : (vSet s n v).freeCtr = s.freeCtr := rfl

/-! ### qwSet -/

@[simp] theorem qwSet_pending (s : State) (q : Nat) (x : QuadW) : (qwSet s q x).pending = s.pending := rfl
@[simp] theorem qwSet_fuses (s : State) (q : Nat) (x : QuadW) : (qwSet s q x).fuses = s.fuses := rfl
@[simp] theorem qwSet_flash (s : State) (q : Nat) (x : QuadW) : (qwSet s q x).flash = s.flash := rfl
@[simp] theorem qwSet_tray (s : State) (q : Nat) (x : QuadW) : (qwSet s q x).tray = s.tray := rfl
@[simp] theorem qwSet_clk (s : State) (q : Nat) (x : QuadW) : (qwSet s q x).clk = s.clk := rfl
@[simp] theorem qwSet_seq (s : State) (q : Nat) (x : QuadW) : (qwSet s q x).seq = s.seq := rfl
@[simp] theorem qwSet_cores (s : State) (q : Nat) (x : QuadW) : (qwSet s q x).cores = s.cores := rfl
@[simp] theorem qwSet_sync (s : State) (q : Nat) (x : QuadW) : (qwSet s q x).sync = s.sync := rfl
@[simp] theorem qwSet_mem (s : State) (q : Nat) (x : QuadW) : (qwSet s q x).mem = s.mem := rfl
@[simp] theorem qwSet_dma (s : State) (q : Nat) (x : QuadW) : (qwSet s q x).dma = s.dma := rfl
@[simp] theorem qwSet_dieJobs (s : State) (q : Nat) (x : QuadW) : (qwSet s q x).dieJobs = s.dieJobs := rfl
@[simp] theorem qwSet_car (s : State) (q : Nat) (x : QuadW) : (qwSet s q x).car = s.car := rfl
@[simp] theorem qwSet_kv (s : State) (q : Nat) (x : QuadW) : (qwSet s q x).kv = s.kv := rfl
@[simp] theorem qwSet_variants (s : State) (q : Nat) (x : QuadW) : (qwSet s q x).variants = s.variants := rfl
@[simp] theorem qwSet_zoe (s : State) (q : Nat) (x : QuadW) : (qwSet s q x).zoe = s.zoe := rfl
@[simp] theorem qwSet_trl (s : State) (q : Nat) (x : QuadW) : (qwSet s q x).trl = s.trl := rfl
@[simp] theorem qwSet_gate (s : State) (q : Nat) (x : QuadW) : (qwSet s q x).gate = s.gate := rfl
@[simp] theorem qwSet_cvu (s : State) (q : Nat) (x : QuadW) : (qwSet s q x).cvu = s.cvu := rfl
@[simp] theorem qwSet_pair (s : State) (q : Nat) (x : QuadW) : (qwSet s q x).pair = s.pair := rfl
@[simp] theorem qwSet_pav (s : State) (q : Nat) (x : QuadW) : (qwSet s q x).pav = s.pav := rfl
@[simp] theorem qwSet_pcie (s : State) (q : Nat) (x : QuadW) : (qwSet s q x).pcie = s.pcie := rfl
@[simp] theorem qwSet_upd (s : State) (q : Nat) (x : QuadW) : (qwSet s q x).upd = s.upd := rfl
@[simp] theorem qwSet_err (s : State) (q : Nat) (x : QuadW) : (qwSet s q x).err = s.err := rfl
@[simp] theorem qwSet_out (s : State) (q : Nat) (x : QuadW) : (qwSet s q x).out = s.out := rfl
@[simp] theorem qwSet_freeCtr (s : State) (q : Nat) (x : QuadW) : (qwSet s q x).freeCtr = s.freeCtr := rfl

/-! ### judgedSet -/

@[simp] theorem judgedSet_pending (s : State) (k : Nat) (j : Judgement) : (judgedSet s k j).pending = s.pending := rfl
@[simp] theorem judgedSet_fuses (s : State) (k : Nat) (j : Judgement) : (judgedSet s k j).fuses = s.fuses := rfl
@[simp] theorem judgedSet_flash (s : State) (k : Nat) (j : Judgement) : (judgedSet s k j).flash = s.flash := rfl
@[simp] theorem judgedSet_tray (s : State) (k : Nat) (j : Judgement) : (judgedSet s k j).tray = s.tray := rfl
@[simp] theorem judgedSet_wv (s : State) (k : Nat) (j : Judgement) : (judgedSet s k j).wv = s.wv := rfl
@[simp] theorem judgedSet_seq (s : State) (k : Nat) (j : Judgement) : (judgedSet s k j).seq = s.seq := rfl
@[simp] theorem judgedSet_cores (s : State) (k : Nat) (j : Judgement) : (judgedSet s k j).cores = s.cores := rfl
@[simp] theorem judgedSet_sync (s : State) (k : Nat) (j : Judgement) : (judgedSet s k j).sync = s.sync := rfl
@[simp] theorem judgedSet_mem (s : State) (k : Nat) (j : Judgement) : (judgedSet s k j).mem = s.mem := rfl
@[simp] theorem judgedSet_dma (s : State) (k : Nat) (j : Judgement) : (judgedSet s k j).dma = s.dma := rfl
@[simp] theorem judgedSet_dieJobs (s : State) (k : Nat) (j : Judgement) : (judgedSet s k j).dieJobs = s.dieJobs := rfl
@[simp] theorem judgedSet_car (s : State) (k : Nat) (j : Judgement) : (judgedSet s k j).car = s.car := rfl
@[simp] theorem judgedSet_kv (s : State) (k : Nat) (j : Judgement) : (judgedSet s k j).kv = s.kv := rfl
@[simp] theorem judgedSet_variants (s : State) (k : Nat) (j : Judgement) : (judgedSet s k j).variants = s.variants := rfl
@[simp] theorem judgedSet_zoe (s : State) (k : Nat) (j : Judgement) : (judgedSet s k j).zoe = s.zoe := rfl
@[simp] theorem judgedSet_trl (s : State) (k : Nat) (j : Judgement) : (judgedSet s k j).trl = s.trl := rfl
@[simp] theorem judgedSet_gate (s : State) (k : Nat) (j : Judgement) : (judgedSet s k j).gate = s.gate := rfl
@[simp] theorem judgedSet_cvu (s : State) (k : Nat) (j : Judgement) : (judgedSet s k j).cvu = s.cvu := rfl
@[simp] theorem judgedSet_pair (s : State) (k : Nat) (j : Judgement) : (judgedSet s k j).pair = s.pair := rfl
@[simp] theorem judgedSet_pav (s : State) (k : Nat) (j : Judgement) : (judgedSet s k j).pav = s.pav := rfl
@[simp] theorem judgedSet_pcie (s : State) (k : Nat) (j : Judgement) : (judgedSet s k j).pcie = s.pcie := rfl
@[simp] theorem judgedSet_upd (s : State) (k : Nat) (j : Judgement) : (judgedSet s k j).upd = s.upd := rfl
@[simp] theorem judgedSet_err (s : State) (k : Nat) (j : Judgement) : (judgedSet s k j).err = s.err := rfl
@[simp] theorem judgedSet_out (s : State) (k : Nat) (j : Judgement) : (judgedSet s k j).out = s.out := rfl
@[simp] theorem judgedSet_freeCtr (s : State) (k : Nat) (j : Judgement) : (judgedSet s k j).freeCtr = s.freeCtr := rfl

/-! ### sessSet -/

@[simp] theorem sessSet_pending (s : State) (n : Nat) (x : Sess) : (sessSet s n x).pending = s.pending := rfl
@[simp] theorem sessSet_fuses (s : State) (n : Nat) (x : Sess) : (sessSet s n x).fuses = s.fuses := rfl
@[simp] theorem sessSet_flash (s : State) (n : Nat) (x : Sess) : (sessSet s n x).flash = s.flash := rfl
@[simp] theorem sessSet_tray (s : State) (n : Nat) (x : Sess) : (sessSet s n x).tray = s.tray := rfl
@[simp] theorem sessSet_clk (s : State) (n : Nat) (x : Sess) : (sessSet s n x).clk = s.clk := rfl
@[simp] theorem sessSet_wv (s : State) (n : Nat) (x : Sess) : (sessSet s n x).wv = s.wv := rfl
@[simp] theorem sessSet_seq (s : State) (n : Nat) (x : Sess) : (sessSet s n x).seq = s.seq := rfl
@[simp] theorem sessSet_cores (s : State) (n : Nat) (x : Sess) : (sessSet s n x).cores = s.cores := rfl
@[simp] theorem sessSet_sync (s : State) (n : Nat) (x : Sess) : (sessSet s n x).sync = s.sync := rfl
@[simp] theorem sessSet_mem (s : State) (n : Nat) (x : Sess) : (sessSet s n x).mem = s.mem := rfl
@[simp] theorem sessSet_dma (s : State) (n : Nat) (x : Sess) : (sessSet s n x).dma = s.dma := rfl
@[simp] theorem sessSet_dieJobs (s : State) (n : Nat) (x : Sess) : (sessSet s n x).dieJobs = s.dieJobs := rfl
@[simp] theorem sessSet_car (s : State) (n : Nat) (x : Sess) : (sessSet s n x).car = s.car := rfl
@[simp] theorem sessSet_kv (s : State) (n : Nat) (x : Sess) : (sessSet s n x).kv = s.kv := rfl
@[simp] theorem sessSet_variants (s : State) (n : Nat) (x : Sess) : (sessSet s n x).variants = s.variants := rfl
@[simp] theorem sessSet_zoe (s : State) (n : Nat) (x : Sess) : (sessSet s n x).zoe = s.zoe := rfl
@[simp] theorem sessSet_trl (s : State) (n : Nat) (x : Sess) : (sessSet s n x).trl = s.trl := rfl
@[simp] theorem sessSet_gate (s : State) (n : Nat) (x : Sess) : (sessSet s n x).gate = s.gate := rfl
@[simp] theorem sessSet_cvu (s : State) (n : Nat) (x : Sess) : (sessSet s n x).cvu = s.cvu := rfl
@[simp] theorem sessSet_pair (s : State) (n : Nat) (x : Sess) : (sessSet s n x).pair = s.pair := rfl
@[simp] theorem sessSet_pcie (s : State) (n : Nat) (x : Sess) : (sessSet s n x).pcie = s.pcie := rfl
@[simp] theorem sessSet_upd (s : State) (n : Nat) (x : Sess) : (sessSet s n x).upd = s.upd := rfl
@[simp] theorem sessSet_err (s : State) (n : Nat) (x : Sess) : (sessSet s n x).err = s.err := rfl
@[simp] theorem sessSet_out (s : State) (n : Nat) (x : Sess) : (sessSet s n x).out = s.out := rfl
@[simp] theorem sessSet_freeCtr (s : State) (n : Nat) (x : Sess) : (sessSet s n x).freeCtr = s.freeCtr := rfl

/-! ### hubSet -/

@[simp] theorem hubSet_pending (s : State) (f : Nat) (h : HubCvu) : (hubSet s f h).pending = s.pending := rfl
@[simp] theorem hubSet_fuses (s : State) (f : Nat) (h : HubCvu) : (hubSet s f h).fuses = s.fuses := rfl
@[simp] theorem hubSet_flash (s : State) (f : Nat) (h : HubCvu) : (hubSet s f h).flash = s.flash := rfl
@[simp] theorem hubSet_tray (s : State) (f : Nat) (h : HubCvu) : (hubSet s f h).tray = s.tray := rfl
@[simp] theorem hubSet_clk (s : State) (f : Nat) (h : HubCvu) : (hubSet s f h).clk = s.clk := rfl
@[simp] theorem hubSet_wv (s : State) (f : Nat) (h : HubCvu) : (hubSet s f h).wv = s.wv := rfl
@[simp] theorem hubSet_seq (s : State) (f : Nat) (h : HubCvu) : (hubSet s f h).seq = s.seq := rfl
@[simp] theorem hubSet_cores (s : State) (f : Nat) (h : HubCvu) : (hubSet s f h).cores = s.cores := rfl
@[simp] theorem hubSet_sync (s : State) (f : Nat) (h : HubCvu) : (hubSet s f h).sync = s.sync := rfl
@[simp] theorem hubSet_mem (s : State) (f : Nat) (h : HubCvu) : (hubSet s f h).mem = s.mem := rfl
@[simp] theorem hubSet_dma (s : State) (f : Nat) (h : HubCvu) : (hubSet s f h).dma = s.dma := rfl
@[simp] theorem hubSet_dieJobs (s : State) (f : Nat) (h : HubCvu) : (hubSet s f h).dieJobs = s.dieJobs := rfl
@[simp] theorem hubSet_car (s : State) (f : Nat) (h : HubCvu) : (hubSet s f h).car = s.car := rfl
@[simp] theorem hubSet_kv (s : State) (f : Nat) (h : HubCvu) : (hubSet s f h).kv = s.kv := rfl
@[simp] theorem hubSet_variants (s : State) (f : Nat) (h : HubCvu) : (hubSet s f h).variants = s.variants := rfl
@[simp] theorem hubSet_zoe (s : State) (f : Nat) (h : HubCvu) : (hubSet s f h).zoe = s.zoe := rfl
@[simp] theorem hubSet_trl (s : State) (f : Nat) (h : HubCvu) : (hubSet s f h).trl = s.trl := rfl
@[simp] theorem hubSet_gate (s : State) (f : Nat) (h : HubCvu) : (hubSet s f h).gate = s.gate := rfl
@[simp] theorem hubSet_pair (s : State) (f : Nat) (h : HubCvu) : (hubSet s f h).pair = s.pair := rfl
@[simp] theorem hubSet_pav (s : State) (f : Nat) (h : HubCvu) : (hubSet s f h).pav = s.pav := rfl
@[simp] theorem hubSet_pcie (s : State) (f : Nat) (h : HubCvu) : (hubSet s f h).pcie = s.pcie := rfl
@[simp] theorem hubSet_upd (s : State) (f : Nat) (h : HubCvu) : (hubSet s f h).upd = s.upd := rfl
@[simp] theorem hubSet_err (s : State) (f : Nat) (h : HubCvu) : (hubSet s f h).err = s.err := rfl
@[simp] theorem hubSet_out (s : State) (f : Nat) (h : HubCvu) : (hubSet s f h).out = s.out := rfl
@[simp] theorem hubSet_freeCtr (s : State) (f : Nat) (h : HubCvu) : (hubSet s f h).freeCtr = s.freeCtr := rfl

/-! ### Reading back -/

/-- What `coreSet` stores is read back. -/
@[simp] theorem coreGet_coreSet (s : State) (k : Nat) (c : Core) : coreGet (coreSet s k c) k = c := by
  simp [coreGet, coreSet]

/-- `coreSet` leaves every other entry alone. -/
theorem coreGet_coreSet_ne (s : State) {k j' : Nat} (c : Core) (h' : j' ≠ k) : coreGet (coreSet s k c) j' = coreGet s j' := by
  simp [coreGet, coreSet, mgetD_mset_ne _ _ _ h']

/-- What `laneSet` stores is read back. -/
@[simp] theorem laneGet_laneSet (s : State) (l : Nat) (x : Lane) : laneGet (laneSet s l x) l = x := by
  simp [laneGet, laneSet]

/-- `laneSet` leaves every other entry alone. -/
theorem laneGet_laneSet_ne (s : State) {l j' : Nat} (x : Lane) (h' : j' ≠ l) : laneGet (laneSet s l x) j' = laneGet s j' := by
  simp [laneGet, laneSet, mgetD_mset_ne _ _ _ h']

/-- What `ctxSet` stores is read back. -/
@[simp] theorem ctxGet_ctxSet (s : State) (c : Nat) (x : Context) : ctxGet (ctxSet s c x) c = x := by
  simp [ctxGet, ctxSet]

/-- `ctxSet` leaves every other entry alone. -/
theorem ctxGet_ctxSet_ne (s : State) {c j' : Nat} (x : Context) (h' : j' ≠ c) : ctxGet (ctxSet s c x) j' = ctxGet s j' := by
  simp [ctxGet, ctxSet, mgetD_mset_ne _ _ _ h']

/-- What `jobsSet` stores is read back. -/
@[simp] theorem jobsOf_jobsSet (s : State) (k : Nat) (l : List Job) : jobsOf (jobsSet s k l) k = l := by
  simp [jobsOf, jobsSet]

/-- `jobsSet` leaves every other entry alone. -/
theorem jobsOf_jobsSet_ne (s : State) {k j' : Nat} (l : List Job) (h' : j' ≠ k) : jobsOf (jobsSet s k l) j' = jobsOf s j' := by
  simp [jobsOf, jobsSet, mgetD_mset_ne _ _ _ h']

/-- What `keySlotSet` stores is read back. -/
@[simp] theorem keySlot_keySlotSet (s : State) (n : Nat) (k : KeySlot) : keySlot (keySlotSet s n k) n = k := by
  simp [keySlot, keySlotSet]

/-- `keySlotSet` leaves every other entry alone. -/
theorem keySlot_keySlotSet_ne (s : State) {n j' : Nat} (k : KeySlot) (h' : j' ≠ n) : keySlot (keySlotSet s n k) j' = keySlot s j' := by
  simp [keySlot, keySlotSet, mgetD_mset_ne _ _ _ h']

/-- What `poolSet` stores is read back. -/
@[simp] theorem poolGet_poolSet (s : State) (p : Nat) (x : Pool) : poolGet (poolSet s p x) p = x := by
  simp [poolGet, poolSet]

/-- `poolSet` leaves every other entry alone. -/
theorem poolGet_poolSet_ne (s : State) {p j' : Nat} (x : Pool) (h' : j' ≠ p) : poolGet (poolSet s p x) j' = poolGet s j' := by
  simp [poolGet, poolSet, mgetD_mset_ne _ _ _ h']

/-- What `reqSet` stores is read back. -/
@[simp] theorem reqGet_reqSet (s : State) (h : Nat) (r : Req) : reqGet (reqSet s h r) h = r := by
  simp [reqGet, reqSet]

/-- `reqSet` leaves every other entry alone. -/
theorem reqGet_reqSet_ne (s : State) {h j' : Nat} (r : Req) (h' : j' ≠ h) : reqGet (reqSet s h r) j' = reqGet s j' := by
  simp [reqGet, reqSet, mgetD_mset_ne _ _ _ h']

/-- What `portSet` stores is read back. -/
@[simp] theorem portGet_portSet (s : State) (p : Nat) (x : Port) : portGet (portSet s p x) p = x := by
  simp [portGet, portSet]

/-- `portSet` leaves every other entry alone. -/
theorem portGet_portSet_ne (s : State) {p j' : Nat} (x : Port) (h' : j' ≠ p) : portGet (portSet s p x) j' = portGet s j' := by
  simp [portGet, portSet, mgetD_mset_ne _ _ _ h']

/-- What `qwSet` stores is read back. -/
@[simp] theorem qwGet_qwSet (s : State) (q : Nat) (x : QuadW) : qwGet (qwSet s q x) q = x := by
  simp [qwGet, qwSet]

/-- `qwSet` leaves every other entry alone. -/
theorem qwGet_qwSet_ne (s : State) {q j' : Nat} (x : QuadW) (h' : j' ≠ q) : qwGet (qwSet s q x) j' = qwGet s j' := by
  simp [qwGet, qwSet, mgetD_mset_ne _ _ _ h']

/-- What `judgedSet` stores is read back. -/
@[simp] theorem judgedGet_judgedSet (s : State) (k : Nat) (j : Judgement) : judgedGet (judgedSet s k j) k = j := by
  simp [judgedGet, judgedSet]

/-- `judgedSet` leaves every other entry alone. -/
theorem judgedGet_judgedSet_ne (s : State) {k j' : Nat} (j : Judgement) (h' : j' ≠ k) : judgedGet (judgedSet s k j) j' = judgedGet s j' := by
  simp [judgedGet, judgedSet, mgetD_mset_ne _ _ _ h']

/-- What `fnSet` stores is read back. -/
@[simp] theorem fnGet_fnSet (s : State) (f : Nat) (x : FuncS) : fnGet (fnSet s f x) f = x := by
  simp [fnGet, fnSet]

/-- `fnSet` leaves every other entry alone. -/
theorem fnGet_fnSet_ne (s : State) {f j' : Nat} (x : FuncS) (h' : j' ≠ f) : fnGet (fnSet s f x) j' = fnGet s j' := by
  simp [fnGet, fnSet, mgetD_mset_ne _ _ _ h']

/-- What `hubSet` stores is read back. -/
@[simp] theorem hubGet_hubSet (s : State) (f : Nat) (h : HubCvu) : hubGet (hubSet s f h) f = h := by
  simp [hubGet, hubSet]

/-- `hubSet` leaves every other entry alone. -/
theorem hubGet_hubSet_ne (s : State) {f j' : Nat} (h : HubCvu) (h' : j' ≠ f) : hubGet (hubSet s f h) j' = hubGet s j' := by
  simp [hubGet, hubSet, mgetD_mset_ne _ _ _ h']

/-- What `cabPut` stores is read back. -/
@[simp] theorem cabAt_cabPut (s : State) (n : Nat) (x : Counter) : cabAt (cabPut s n x) n = x := by
  simp [cabAt, cabPut]

/-- `cabPut` leaves every other entry alone. -/
theorem cabAt_cabPut_ne (s : State) {n j' : Nat} (x : Counter) (h' : j' ≠ n) : cabAt (cabPut s n x) j' = cabAt s j' := by
  simp [cabAt, cabPut, mgetD_mset_ne _ _ _ h']

/-- What `cabSet` stores is read back: no unit has posted since. -/
@[simp] theorem cabGet_cabSet (s : State) (n : Nat) (v : W32) : cabGet (cabSet s n v) n = v := by
  simp [cabGet, cabSet, cntValue]

/-- `cabSet` leaves every other counter alone. -/
theorem cabGet_cabSet_ne (s : State) {n j' : Nat} (v : W32) (h' : j' ≠ n) : cabGet (cabSet s n v) j' = cabGet s j' := by
  simp [cabGet, cabSet, cabAt_cabPut_ne s _ h']


/-- A value stored in the dictionary is read back. -/
@[simp] theorem odGet_odSet (s : State) (idx sub v : Nat) : odGet (odSet s idx sub v) idx sub = v := by
  simp [odGet, odSet]

/-- Storing an object leaves every other object alone. -/
theorem odGet_odSet_ne (s : State) {idx sub i j : Nat} (v : Nat) (h : odKey i j ≠ odKey idx sub) :
    odGet (odSet s idx sub v) i j = odGet s i j := by
  simp [odGet, odSet, mget_mset_ne _ _ h]

/-- The key of an object tells its index and subindex apart. -/
theorem odKey_ne {i j idx sub : Nat} (hj : j < 256) (hs : sub < 256) (h : i ≠ idx ∨ j ≠ sub) : odKey i j ≠ odKey idx sub := by
  unfold odKey; omega

/-- A session stored is found again. -/
@[simp] theorem vGet_vSet (s : State) (n : Nat) (v : VSession) : vGet (vSet s n v) n = some v := by simp [vGet, vSet]

/-- A job stored is found again. -/
@[simp] theorem tjGet_tjSet (s : State) (n : Nat) (j : TJob) : mget (tjSet s n j).trl.jobs n = some j := by simp [tjSet]

/-- HBM outside the bytes written reads as before. -/
theorem hbmByte_hbmPut_ne (s : State) {a x : Nat} {bs : List Byte} (h : x < a ∨ a + bs.length ≤ x) :
    hbmByte (hbmPut s a bs) x = hbmByte s x := by
  have e : granGet (hbmPut s a bs) (granOf x) = granGet s (granOf x) := rfl
  simp only [hbmByte, e]
  simp [hbmPut, mget_cellsPut_ne h]

/-- HBM reads back what is written. -/
theorem hbmByte_hbmPut_mem (s : State) {a i : Nat} {bs : List Byte} (h : i < bs.length) :
    hbmByte (hbmPut s a bs) (a + i) = bs[i] := by
  have e : mget (hbmPut s a bs).mem.hbm (a + i) = some bs[i] := by
    simp [hbmPut, mget_cellsPut_mem h, List.getElem?_eq_getElem h]
  simp [hbmByte, e]

end Sys2Proof.Machine
end

