-- ==== Sys2Proof/Laws/Onchip.lean ====
section
/-! SUPPORT. On-chip storage: what a store leaves for its owner to read (R91), and local SRAM of a core (R78). -/

namespace Sys2Proof.Machine

open Sys2Proof

/-- Reading a map without the entries that a test picks. -/
theorem mget_mdrop {α : Type} (m : SMap α) (f : Nat → Bool) (j : Nat) :
    mget (mdrop m f) j = if f j then none else mget m j := by
  induction m with
  | nil => simp [mdrop, mget]
  | cons a t ih =>
    simp only [mdrop, List.filter_cons] at ih ⊢
    by_cases h : f a.1 <;> by_cases e : a.1 = j
    · subst e; simp [h, ih]
    · simp [h, ih, mget, e]
    · subst e; simp [h, mget]
    · simp [h, mget, e, ih]

/-- Reading a map without a key. -/
theorem mget_mdel {α : Type} (m : SMap α) (k j : Nat) : mget (mdel m k) j = if j = k then none else mget m j := by
  have h := mget_mdrop m (fun x => decide (x = k)) j
  simpa [mdrop, mdel] using h

/-- A byte outside a run of on-chip stores. -/
theorem getD_cellsPutZ_ne {m : List Host.Cell} {a x : Nat} {bs : List Byte} (h : x < a ∨ a + bs.length ≤ x) :
    (mget (cellsPutZ m a bs) x).getD 0 = (mget m x).getD 0 := by
  induction bs generalizing m a with
  | nil => rfl
  | cons b t ih =>
    simp only [List.length_cons] at h
    rw [cellsPutZ, ih (by omega)]
    split
    · rw [mget_mdel, if_neg (by omega)]
    · rw [mget_mset_ne _ _ (by omega)]

/-- A byte inside a run of on-chip stores. -/
theorem getD_cellsPutZ_mem {m : List Host.Cell} {a i : Nat} {bs : List Byte} (h : i < bs.length) :
    (mget (cellsPutZ m a bs) (a + i)).getD 0 = bs[i] := by
  induction bs generalizing m a i with
  | nil => simp at h
  | cons b t ih =>
    cases i with
    | zero =>
      rw [cellsPutZ, getD_cellsPutZ_ne (by omega)]
      split
      · next e => simp [mget_mdel, e]
      · simp
    | succ j =>
      have e : a + (j + 1) = (a + 1) + j := by omega
      simp only [cellsPutZ, e, List.getElem_cons_succ]
      exact ih _

/-- A line taken belongs to its taker. -/
theorem tagOk_lineTake (s : State) {o : Nat} (ho : o < 64) (a x : Nat) :
    tagOk (lineTake s o a) o x = (tagOk s o x || decide (x / 64 = a / 64)) := by
  unfold lineTake
  split
  · next h =>
    by_cases e : x / 64 = a / 64
    · have : tagOk s o x = tagOk s o a := by simp only [tagOk, e]
      simp [this, h]
    · simp [e]
  · by_cases e : x / 64 = a / 64
    · simp [tagOk, e, Nat.mod_eq_of_lt ho]
    · simp [tagOk, e, mget_mset_ne _ _ e]

/-- Taking a line changes nothing that its taker reads: bytes it could not read read zero before and after. -/
theorem sramByte_lineTake (s : State) {o : Nat} (ho : o < 64) (a x : Nat) :
    sramByte (lineTake s o a) o x = sramByte s o x := by
  unfold sramByte
  rw [tagOk_lineTake s ho]
  by_cases e : x / 64 = a / 64
  · have et : tagOk s o x = tagOk s o a := by simp only [tagOk, e]
    by_cases h : tagOk s o a
    · rw [et, h]; simp [lineTake, h]
    · have hx : (a / 64 * 64 ≤ x ∧ x < a / 64 * 64 + 64) := by omega
      simp [lineTake, h, et, e, cellsDrop, mget_mdrop, hx]
  · simp only [e, decide_false, Bool.or_false]
    split
    · unfold lineTake
      split
      · rfl
      · have hx : ¬ (a / 64 * 64 ≤ x ∧ x < a / 64 * 64 + 64) := by omega
        simp only [cellsDrop, mget_mdrop]
        have : (decide (a / 64 * 64 ≤ x) && decide (x < a / 64 * 64 + 64)) = false := by simpa using hx
        simp [this]
    · rfl

/-- Taking lines, one after another. -/
theorem lineTakes {s : State} {o : Nat} (ho : o < 64) (l : List Nat) (x : Nat) :
    sramByte (each l (fun s a => lineTake s o a) s) o x = sramByte s o x
    ∧ tagOk (each l (fun s a => lineTake s o a) s) o x = (tagOk s o x || l.any fun a => decide (x / 64 = a / 64)) := by
  induction l generalizing s with
  | nil => simp [each]
  | cons a t ih =>
    have h := ih (s := lineTake s o a)
    simp only [each, List.foldl_cons] at h ⊢
    rw [h.1, h.2, sramByte_lineTake s ho, tagOk_lineTake s ho]
    simp [Bool.or_assoc]

/-- R91: what a store on chip leaves for its owner to read. -/
theorem sramByte_sramPut (s : State) {o : Nat} (ho : o < 64) (a : Nat) (bs : List Byte) (x : Nat) :
    sramByte (sramPut s o a bs) o x =
      if h : a ≤ x ∧ x - a < bs.length then bs[x - a]'h.2 else sramByte s o x := by
  unfold sramPut
  split
  · next h => subst h; simp
  · next hne =>
    have hlen : 0 < bs.length := List.length_pos_iff.mpr hne
    generalize hl : (List.range ((a + bs.length - 1) / 64 + 1 - a / 64)).map (fun i => (a / 64 + i) * 64) = l
    have T := lineTakes (s := s) ho l x
    dsimp only
    generalize each l (fun s a => lineTake s o a) s = u at T
    have ht : tagOk { u with mem := { u.mem with sram := cellsPutZ u.mem.sram a bs } } o x = tagOk u o x := rfl
    unfold sramByte at T ⊢
    rw [ht]
    by_cases h : a ≤ x ∧ x - a < bs.length
    · rw [dif_pos h]
      have hx : a + (x - a) = x := by omega
      have hin : (l.any fun b => decide (x / 64 = b / 64)) = true := by
        subst hl
        simp only [List.any_map, List.any_eq_true, List.mem_range, Function.comp, decide_eq_true_eq]
        have h1 : x / 64 ≤ (a + bs.length - 1) / 64 := Nat.div_le_div_right (by omega)
        have h2 : a / 64 ≤ x / 64 := Nat.div_le_div_right h.1
        exact ⟨x / 64 - a / 64, by omega, by omega⟩
      rw [T.2, hin, Bool.or_true, if_pos rfl]
      have := getD_cellsPutZ_mem (m := u.mem.sram) (a := a) h.2
      rw [hx] at this
      exact this
    · rw [dif_neg h]
      have hx : x < a ∨ a + bs.length ≤ x := by omega
      have e := getD_cellsPutZ_ne (m := u.mem.sram) hx
      simp only [e]
      exact T.1

/-- The owner of a quadrant is a partition, or 0x3F. -/
theorem quadOwner_lt (s : State) (q : Nat) : quadOwner s q < 64 := by
  unfold quadOwner
  cases h : (List.range 16).find? _ with
  | none => simp
  | some p => have := List.mem_range.mp (List.mem_of_find?_eq_some h); simp; omega

end Sys2Proof.Machine
end

