-- ==== Sys2Proof/Tests/Slice0.lean ====
section
/-! SUPPORT. Tests on fixed values: terms that the well-formedness check refuses, single steps, and for every statement with hypotheses a state and operands that meet them, clause by clause and at the ends of ranges. -/

namespace Sys2Proof.Tests

set_option Elab.async false

open Sys2Proof Sys2Proof.Machine Sys2Proof.Claims

/-! ### A running tray -/

/-- Every hub domain on. -/
def allOn : HubPower := { aux := true, gatehouse := true, hubCommon := true, pavilion := true, carouselDma := true, hbmA := true, hbmB := true, pcie := true, trellis := true, zoetrope := true }

/-- A booted tray: everything on, partition 0 ACTIVE on every quadrant, an officer's session open in slot 0. -/
def up : State :=
  { tray := { presence := .asserted, mainSwitch := true, mainGood := true, ready := true, hub := allOn, dieOn := 0xF, quadOn := 0xFFFF },
    gate := { parts := [(0, { st := .active, quads := 0xFFFF })] },
    pav := { sessions := [(0, { isOpen := true, role := .officer })] } }

/-- Context 0 of partition 0 on all lanes of die 0, with a step. -/
def ctx0 : Context := { part := some 0, laneMask := 0xFF, granules := [0], step := some ⟨0, 0, []⟩ }

/-- A step runs in context 0. -/
def stepping : State := { up with seq := { ctxs := [(0, ctx0)] } }

/-- A write by the officer. -/
def rqS : DictReq := ⟨.session 0, 1, true⟩

/-- A state with core 0 as given. -/
def withCore (c : Core) : State := { up with cores := [(0, c)] }

def v0 : VArgs := ⟨1, 2, 3, 4, 0, false, 0⟩

def vImm (x : W32) : VArgs := ⟨1, 2, 3, 4, 0, false, x⟩

/-- A lane table whose entry 0 names counter 0 of cluster 16. -/
def tableLane : Lane := { table := [0x20000000000000000000000000000000] }

/-- Partition 1 owns the last die. -/
def shared : State := { up with gate := { parts := [(0, { st := .active, quads := 0x0FFF }), (1, { st := .active, quads := 0xF000 })] } }

/-! ### Witnesses: cores -/

theorem witness_IntegerVectorOpsWriteGovernedLanes : quadOn up (coreQuad (0 : CoreId).val) = true ∧ quadOn up (coreQuad (255 : CoreId).val) = true := by decide +kernel

theorem witness_FloatVectorOpsRoundOnceAndGainFlags :
    quadOn up (coreQuad (0 : CoreId).val) = true ∧ fld (vImm 0xAA000000).imm 31 28 = 10 ∧ fld (vImm 0xAA000000).imm 27 24 = 10
    ∧ fld v0.imm 31 28 ≤ 10 ∧ fld v0.imm 27 24 ≤ 10 := by decide +kernel

theorem witness_VectorControlOpsMoveFlagsSetupsAndPosts :
    quadOn stepping (coreQuad (0 : CoreId).val) = true ∧ laneCtx stepping (coreClus (0 : CoreId).val) = some 0
    ∧ fld (vImm 0xBFFC0).imm 19 6 * 64 = 0xC0000 - 64 ∧ 0xC0000 ≤ fld (vImm 0xC0000).imm 19 6 * 64
    ∧ clusOfLoc (fld ((tableLane.table).getD (fld v0.imm 3 0) 0) 127 108) = some (16 : Clus).val
    ∧ quadOwner up (clusQuad (16 : Clus).val) = quadOwner up (coreQuad (0 : CoreId).val)
    ∧ quadOwner shared (clusQuad (31 : Clus).val) ≠ quadOwner shared (coreQuad (0 : CoreId).val)
    ∧ clusOn up (16 : Clus).val = true ∧ clusOn shared (31 : Clus).val = true ∧ clusOn { up with tray := { up.tray with quadOn := 1 } } (31 : Clus).val = false := by decide +kernel

/-- A LINEAR FP32 slot of one line a row whose last line ends where GROUP 3 begins, and a CONV slot. -/
def linSlot (agu : Nat) : AguSlot := { desc := BitVec.ofNat 512 (10 * 2 ^ 501 + 64 * agu + 4 * 2 ^ 364), active := true, base := 0xC0000 - 256 }

def convSlot : AguSlot := { desc := BitVec.ofNat 512 (2 ^ 505 + 8 * 2 ^ 501 + 4 * 2 ^ 364), active := true }

theorem witness_VectorLoadAndStoreMoveElements :
    let s := withCore { slots := [(0, linSlot 0), (1, convSlot), (16, linSlot 0)] }
    quadOn s (coreQuad (0 : CoreId).val) = true
    ∧ (aguSlot s 0 0 0).active = true ∧ slotConv (aguSlot s 0 0 0).desc = false ∧ fmtBits (fld (aguSlot s 0 0 0).desc 504 501) = 32
    ∧ LinesIn (aguSlot s 0 0 0) 4 ∧ linAddr (aguSlot s 0 0 0) 3 + 64 = 0xC0000
    ∧ (aguSlot s 0 0 2).active = false
    ∧ (aguSlot s 0 0 1).active = true ∧ slotConv (aguSlot s 0 0 1).desc = true
    ∧ (∀ l : Nat, l < 64 → convElem convSlot.desc convSlot.cblk (convSlot.pos + (l : Int)) convSlot.step ≠ .heldFault)
    ∧ (aguSlot s 0 1 2).active = false
    ∧ (aguSlot s 0 1 0).active = true ∧ LinesIn (aguSlot s 0 1 0) 4 := by
  simp only [LinesIn]; decide +kernel

theorem witness_ReductionsComparesAndShadowWriteTheirLanes :
    quadOn up (coreQuad (17 : CoreId).val) = true ∧ (v0 : VArgs).imm = 0 ∧ (⟨1, 2, 0, 0, 0, false, 0⟩ : VArgs).vb.val = 0
    ∧ (⟨1, 2, 0, 0, 0, false, 0⟩ : VArgs).vc.val = 0 := by decide +kernel

theorem witness_AddressGeneratorsAndLocalDmaAdvanceTheirSlots :
    let s := withCore { ldma := [(0, (0x2FFF, 0x7FFF))] }
    quadOn s (coreQuad (0 : CoreId).val) = true ∧ (ldmaGet (coreGet s 0) 0).1.toNat * 64 = 0xC0000 - 64
    ∧ slotConv convSlot.desc = true ∧ slotConv (linSlot 0).desc = false := by decide +kernel

theorem witness_TilesFillSetsAndReadoutsRaiseFlags :
    quadOn up (coreQuad (0 : CoreId).val) = true ∧ setupBad (setupGet (coreGet up 0) 0) = true
    ∧ setupBad (setupGet (coreGet (withCore { setups := [(0, 0x99A0000000000100)] }) 0) 0) = false
    ∧ setupBad (setupGet (coreGet (withCore { setups := [(0, 0x99B0000000000100)] }) 0) 0) = true
    ∧ (aguSlot (withCore { slots := [(16, linSlot 0)] }) 0 1 0).active = true ∧ (aguSlot up 0 1 0).active = false
    ∧ engines ⟨0xF, 0, false, 0, 0⟩ = [0, 1, 2, 3] := by decide +kernel

theorem witness_SyncCountersCommitByCycle :
    let mine : SyncSrc := ⟨0, 0x800⟩
    let other : SyncSrc := ⟨1, 0⟩
    let one : State := { up with sync := [(0, { base := 5, cyc := 7, set := some (0x800, 9), posts := 1 })] }
    let cab : State := { up with trl := { cabinet := [(63, { base := 5, cyc := 7, set := some (0x800, 9), posts := 1 })] }, pav := { up.pav with vals := [(odKey 0x6022 1, 1)] } }
    syncOn up (.cluster 31) (511 : Fin 1024).val = true ∧ syncOn up (.cluster 31) (512 : Fin 1024).val = false
    ∧ syncOn { up with tray := { up.tray with quadOn := 1 } } (.cluster 31) (0 : Fin 1024).val = false
    ∧ syncOn up .cabinet (1023 : Fin 1024).val = true ∧ syncOn State.reset .cabinet (0 : Fin 1024).val = false
    ∧ syncOwned up mine.part.val (.cluster 31) 0 = true ∧ syncOwned up other.part.val (.cluster 0) 0 = false ∧ syncOwned shared other.part.val (.cluster 31) 0 = true
    ∧ syncOwned cab mine.part.val .cabinet 63 = true ∧ syncOwned cab mine.part.val .cabinet 64 = false
    ∧ (syncGet up (.cluster 0) 0).cyc < 1 ∧ (syncGet up (.cluster 0) 0).set = none
    ∧ 7 ≤ (syncGet one (.cluster 0) 0).cyc ∧ (syncGet one (.cluster 0) 0).set = some (0x800, 9)
    ∧ 7 ≤ (syncGet cab .cabinet 63).cyc ∧ (syncGet cab .cabinet 63).set = some (0x800, 9) := by decide +kernel

theorem witness_TileAnswers (k : CoreId) (e : EArgs) (s : State) : ∃ u, exec (.tile k e) s = .next u := by
  simp only [exec, execTile]; split <;> exact ⟨_, rfl⟩

/-! ### Witnesses: sequencer and lanes -/

/-- A context whose fetch has latched a header. -/
def latched (h : BitVec 128) (c : Context) : State := { up with seq := { ctxs := [(0, { c with latch := some h })] } }

/-- Header with a SEQOP and, for a loop, its level, COUNT and TARGET. -/
def hdr128 (op lvl cnt tgt : Nat) : BitVec 128 := BitVec.ofNat 128 (2 ^ 124 + op * 2 ^ 120 + 0xFF * 2 ^ 104 + lvl * 2 ^ 101 + cnt * 2 ^ 72 + tgt * 2 ^ 56)

theorem witness_SequencerOperationsMoveTheContext :
    (∀ op, op < 7 → (ctxGet (latched (hdr128 op 7 1 0xFFFF) ctx0) (0 : Ctx).val).latch = some (hdr128 op 7 1 0xFFFF) ∧ seqop (hdr128 op 7 1 0xFFFF) = op)
    ∧ bit (hdr128 1 0 0x800000 0) 95 = true ∧ (ctx0.params.getD (fld (hdr128 1 0 0x800000 0) 74 72) 0).toNat = 0
    ∧ bit (hdr128 1 0 0x7FFFFF 0) 95 = false ∧ fld (hdr128 1 0 0x7FFFFF 0) 94 72 = 0x7FFFFF
    ∧ ({ ctx0 with loops := [2] } : Context).loops.getD 0 0 - 1 ≠ 0 ∧ ({ ctx0 with loops := [1] } : Context).loops.getD 0 0 - 1 = 0 := by decide +kernel

/-- Bundle 0 of context 0, whose step is being fetched, with a header. -/
def fetching (h : BitVec 128) : State :=
  { up with seq := { ctxs := [(0, { ctx0 with fetching := true })], imem := [(0, BitVec.ofNat 4096 (h.toNat * 2 ^ 3968))], imemOwner := [(0, 0)] } }

theorem witness_BundleFetchQueuesASliceOnEveryLane :
    (∀ op, op < 7 → fetchPick (fetching (hdr128 op 0 0 0)) (0 : Die).val = some 0
      ∧ (let h := bundleHead (bundleRead (fetching (hdr128 op 0 0 0)) 0 0)
        fld h 127 124 = 1 ∧ seqop h ≤ 6))
    ∧ seqop (bundleHead (bundleRead (fetching (hdr128 7 0 0 0)) 0 0)) = 7
    ∧ fetchPick (fetching (hdr128 7 0 0 0)) (0 : Die).val = some 0
    ∧ (ctxGet (fetching (hdr128 7 0 0 0)) 0).step.isSome = true ∧ (ctxGet (fetching (hdr128 7 0 0 0)) 0).fault = none := by decide +kernel

/-- A slice of a sync operation, wait entry 0, post entry 1, and scoreboard wait. -/
def slice (sync sb : Nat) : Slice :=
  { idle := false, bits := BitVec.ofNat 496 (sync * 2 ^ 494 + 2 ^ 486 + sb * 2 ^ 480), rep := 0, pwr := 0, fence := false, stepEnd := false }

/-- Lane 0 of context 0 with a slice at the head of its queue. -/
def laneAt (x : Lane) : State := { stepping with seq := { stepping.seq with lanes := [(0, x)] } }

theorem witness_LanesWaitBeginAndPost :
    let q (a b : Nat) : Lane := { queue := [slice a b], sb := [(1, 1)], table := [0, 0x10000] }
    (q 1 0).cur = none ∧ (q 1 0).queue.head? = some (slice 1 0) ∧ (q 1 0).waitDone = false
    ∧ slSync (slice 1 0) = 1 ∧ slSync (slice 3 0) = 3 ∧ slSync (slice 1 15) % 2 = 1 ∧ slSbWait (slice 1 15) = 15
    ∧ slSync (slice 0 15) % 2 = 0 ∧ sbGet (q 0 15) (slSbWait (slice 0 15)) = 0
    ∧ (waitOk (cntValue (cntGet (laneAt (q 1 0)) 0 0)) (mgetD (q 1 0).targets 0 0) && sbGet (q 1 0) (slSbWait (slice 1 0)) == 0) = true
    ∧ (waitOk (cntValue (cntGet (laneAt (q 1 1)) 0 0)) (mgetD (q 1 1).targets 0 0) && sbGet (q 1 1) (slSbWait (slice 1 1)) == 0) = false
    ∧ (let p (a : Nat) : Lane := { cur := some (slice a 0), beatsLeft := 1, postDue := true, table := [0, 0x10000] }
      (p 2).cur = some (slice 2 0) ∧ (p 2).postDue = true ∧ (p 2).beatsLeft ≤ 1 ∧ slSync (slice 2 0) = 2
      ∧ (p 3).cur = some (slice 3 0) ∧ slSync (slice 3 0) = 3
      ∧ clusOfLoc (fld (syncEntry (laneAt (p 2)) 0 (slPostEntry (slice 2 0))) 127 108) = some (0 : Clus).val) := by decide +kernel

/-! ### Witnesses: DMA and memory -/

/-- Granules 5 and 6 belong to partition 0, whose keys are in slots 0 and 1. -/
def own : State :=
  { up with
    gate := { up.gate with slots := [(0, { kind := .xts, owner := 0, curKey := some 1 }), (1, { kind := .siphash, owner := 0, curKey := some 2 })] },
    mem := { granules := [(5, { st := .owned, owner := 0, slot := 0 }), (6, { st := .owned, owner := 0, slot := 0 })] } }

/-- A descriptor of partition 0 between tray addresses: op, source, destination, row bytes, rows, strides, and other fields. -/
def dsc (op src dst bytes rows str other : Nat) : W512 :=
  BitVec.ofNat 512 (2 ^ 508 + op * 2 ^ 504 + src * 2 ^ 416 + dst * 2 ^ 352 + bytes * 2 ^ 320 + rows * 2 ^ 304 + str * 2 ^ 272 + str * 2 ^ 240 + 15 * 2 ^ 236 + other)

/-- A job of lane 0 of context 0. -/
def laneJob (d : W512) : Job := { desc := d, part := some 0, origin := .lane 0 0 }

/-- A state with jobs on an engine. -/
def onEngine (s : State) (e : DmaEng) (l : List Job) : State := { s with dma := { s.dma with queues := [(engKey e, l)] } }

/-- Lane 0 of context 0 with memory: a descriptor that names scoreboard slot 1 stands at 0xA00000. -/
def laneMem (x : Lane) : State :=
  { own with
    seq := { ctxs := [(0, ctx0)], lanes := [(0, x)] }
    mem := { own.mem with hbm := (List.range 64).zipWith (fun i b => (0xA00000 + i, b)) (leBytes 64 (dsc 0 0xA00000 0xA10000 64 1 0 (2 ^ 494)).toNat) } }

theorem witness_LanesBeginRepeatAndEnd :
    let issue : Slice := { slice 0 0 with bits := BitVec.ofNat 496 (2 ^ 484) }
    let runs (s : State) : Bool := laneCtx s (0 : Clus).val == some 0 && quadOn s (clusQuad (0 : Clus).val) && !(laneGet s 0).ended
    let slow (x : Lane) : State := { laneAt x with wv := { quads := [(0, { rung := 8 })] } }
    waitsDone (laneGet (laneAt { queue := [slice 1 0] }) 0) (slice 1 0) = false
    ∧ (let s := laneAt { queue := [slice 0 0] }
      runs s = true ∧ (slice 0 0).fence = false ∧ waitsDone (laneGet s 0) (slice 0 0) = true ∧ (laneLimit s 0).2 = 0
      ∧ beatHeld s 0 (slice 0 0) = false ∧ sliceBad s 0 (slice 0 0) = false)
    ∧ (let bad : Slice := { slice 0 0 with bits := BitVec.ofNat 496 (3 * 2 ^ 10) }
      let s := laneAt { queue := [bad] }
      runs s = true ∧ waitsDone (laneGet s 0) bad = true ∧ beatHeld s 0 bad = false ∧ sliceBad s 0 bad = true)
    ∧ (let f : Slice := { slice 0 0 with fence := true }
      let s : State := { laneAt {} with seq := { stepping.seq with lanes := (List.range 8).map fun l => (l, { queue := [f] }) } }
      runs s = true ∧ fenceOpen s 0 0 = true ∧ waitsDone (laneGet s 0) f = true ∧ beatHeld s 0 f = false)
    ∧ (let p : Slice := { slice 0 0 with pwr := 1 }
      let s := slow { queue := [p] }
      runs s = true ∧ waitsDone (laneGet s 0) p = true ∧ (laneGet s 0).gapLeft = none ∧ p.pwr.toNat > (laneLimit s 0).1 ∧ (laneLimit s 0).2 = 1
      ∧ (laneGet (slow { queue := [p], gapLeft := some 1 }) 0).gapLeft.getD 0 ≠ 0)
    ∧ (let s := laneMem { queue := [issue], cursors := [(0, (0xA00000, 1))], sb := [(1, 255)] }
      runs s = true ∧ waitsDone (laneGet s 0) issue = true ∧ beatHeld s 0 issue = true)
    ∧ (let s := laneAt { cur := some (slice 0 0), beatsLeft := 2 }
      runs s = true ∧ beatHeld s 0 (slice 0 0) = false)
    ∧ (let s := laneAt { cur := some { slice 0 0 with stepEnd := true }, beatsLeft := 1, sb := [(1, 0)] }
      runs s = true ∧ (laneGet s 0).postDue = false ∧ sbClear (laneGet s 0) = true) := by decide +kernel

/-- Entry 0 of the core's vector operation table: an IADD of `v0`. -/
theorem witness_CoreWordsActAsTheirCommands :
    (0x10, Instr.iadd) ∈ opcodes ∧ mgetD (coreGet (withCore { vtable := [(0, BitVec.ofNat 64 (0x10 * 2 ^ 56 + vargsNat v0))] }) 0).vtable (0 : Fin 1024).val 0
      = BitVec.ofNat 64 (0x10 * 2 ^ 56 + vargsNat v0) := ⟨by simp [opcodes], by decide +kernel⟩

theorem witness_DescriptorsIssueAndCompleteInOrder :
    let s := laneAt { cursors := [(0, (0xA00000, 1))] }
    let full := laneMem { cursors := [(0, (0xA00000, 1))], sb := [(1, 255)] }
    let room := laneMem { cursors := [(0, (0xA00000, 1))], sb := [(1, 254)] }
    let d (s : State) : W512 := (psub (BitVec.ofNat 512 (partNat s 0 0xA00000 64)) (ctxGet s 0).params).1
    let j : Job := { laneJob (dsc 0 0xA00000 0xA10000 64 1 0 (2 ^ 494)) with status := some 0 }
    let post : Job := { laneJob (dsc 0 0xA00000 0xA10000 64 1 0 (2 ^ 215 + 2 ^ 170)) with status := some 0 }
    let t := onEngine stepping (.cluster 0 0) [j]
    let gone := onEngine { stepping with seq := { ctxs := [(0, { ctx0 with part := some 1 })] } } (.cluster 0 0) [j]
    laneCtx s (0 : Clus).val = some (0 : Ctx).val ∧ (ctxGet s (0 : Ctx).val).part = some 0 ∧ quadOn s (clusQuad (0 : Clus).val) = true
    ∧ (ctxGet s (0 : Ctx).val).step.isSome = true ∧ (laneGet s 0).ended = false ∧ (mgetD (laneGet s 0).cursors 0 (0, 0)).2 ≠ 0
    ∧ dSb (d s) = 0 ∧ dSb (d full) = 1 ∧ sbGet (laneGet full 0) 1 = 255 ∧ laneCtx full 0 = some 0
    ∧ dSb (d room) = 1 ∧ sbGet (laneGet room 0) 1 ≠ 255
    ∧ jobsOf t (engKey (.cluster 0 0)) = [j] ∧ j.status = some 0 ∧ dGcm j.desc = false ∧ j.staged = false ∧ j.reads.2 = 0
    ∧ j.origin = .lane 0 0 ∧ dSb j.desc ≠ 0 ∧ dSyncEn j.desc = false ∧ (ctxGet t (0 : Ctx).val).part = j.part
    ∧ (ctxGet gone (0 : Ctx).val).part ≠ j.part
    ∧ dSyncEn post.desc = true ∧ clusOfLoc (fld post.desc 214 195) = some (0 : Clus).val ∧ quadOwner t (clusQuad (0 : Clus).val) = jobTag post := by decide +kernel

/-- Copy of two lines of granule 5 to the last lines of granule 6, a fill, and page operations over a list in granule 6. -/
def copyJob : Job := laneJob (dsc 0 0xA00000 0xDFFF80 64 2 64 0)

def fillJob : Job := laneJob (dsc 1 0 0xDFFF80 64 2 64 (0xDEADBEEF * 2 ^ 128))

/-- Page list of one entry at 0xC00000: frame 640 is at 0xA00000. -/
def paged (e : BitVec 32) : State := { own with mem := { own.mem with hbm := (List.range 4).zipWith (fun i b => (0xC00000 + i, b)) (leBytes 4 e.toNat) } }

def pageJob (rd : Bool) : Job := laneJob (if rd then dsc 2 0xC00000 0xC10000 64 1 64 0 else dsc 3 0xC10000 0xC00000 64 1 64 0)

/-- A check of `OwnLine` by evaluation. -/
def ownLines (s : State) (p : Nat) (l : List Nat) : Bool :=
  l.all fun a => (match placeOf s a with | .hbm _ _ => true | _ => false) && lineOk s p a

theorem ownLines_spec {s : State} {p : Nat} {l : List Nat} (h : ownLines s p l = true) : ∀ a, a ∈ l → OwnLine s p a := by
  intro a ha
  have h := List.all_eq_true.mp h a ha
  simp only [Bool.and_eq_true] at h
  refine ⟨?_, h.2⟩
  cases hp : placeOf s a <;> simp_all

/-- A check of `PagesFit` for one page of one line by evaluation. -/
def pageFits (s : State) (k : Nat) (j : Job) (rd : Bool) : Bool :=
  let l := pageList j rd 0 / 64 * 64
  dRows j.desc == 1 && !pageBad j.desc (pageTaken s j rd 0)
  && lineChecks s k (jobTag j) (pageSide s j rd rd 0) (pageSide s j rd (!rd) 0) (!rd) == 0
  && (rd || !pgCow (pageTaken s j rd 0))
  && ownLines s (jobTag j) [l] && lineChecks s k (jobTag j) [l] [] false == 0
  && (pageLines s j rd (!rd)).all (fun b => decide (l + 64 ≤ b ∨ b + 64 ≤ l))
  && ownLines s (jobTag j) (pageLines s j rd rd) && ownLines s (jobTag j) (pageLines s j rd (!rd))
  && (pageLines s j rd rd).all fun a => (pageLines s j rd (!rd)).all fun b => decide (a + 64 ≤ b ∨ b + 64 ≤ a)

theorem pageFits_spec {s : State} {k : Nat} {j : Job} {rd : Bool} (h : pageFits s k j rd = true) : PagesFit s k j rd := by
  simp only [pageFits, Bool.and_eq_true, beq_iff_eq, Bool.not_eq_true', List.all_eq_true, decide_eq_true_eq] at h
  obtain ⟨⟨⟨⟨⟨⟨⟨⟨⟨hr, hb⟩, hl⟩, hc⟩, hi⟩, hk⟩, hf⟩, ho⟩, hd⟩, hx⟩ := h
  refine ⟨?_, fun a ha => ⟨ownLines_spec ho a ha, fun b hb' => hx a ha b hb'⟩, ownLines_spec hd⟩
  intro n hn
  obtain rfl : n = 0 := by omega
  exact ⟨hb, hl, by simpa using hc, ownLines_spec hi _ (by simp), hk, hf⟩

theorem witness_CopiesFillsAndPagesMoveLines :
    (let s := onEngine own (.die 0) [copyJob];
      Next s (.die 0) 0 copyJob ∧ dGcm copyJob.desc = false ∧ dDstSp copyJob.desc = 0 ∧ issueStatus s 64 copyJob = 0
      ∧ (∀ a, a ∈ sideLines copyJob.desc true → OwnLine s 0 a) ∧ dOp copyJob.desc = 0 ∧ dSrcSp copyJob.desc = 0 ∧ dCmp copyJob.desc = 0
      ∧ (∀ a, a ∈ sideLines copyJob.desc false → OwnLine s 0 a))
    ∧ (let s := onEngine own (.die 0) [fillJob];
      Next s (.die 0) 0 fillJob ∧ dGcm fillJob.desc = false ∧ dDstSp fillJob.desc = 0 ∧ issueStatus s 64 fillJob = 0
      ∧ (∀ a, a ∈ sideLines fillJob.desc true → OwnLine s 0 a) ∧ dOp fillJob.desc = 1) := by
  refine ⟨⟨?_, ?_, ?_, ?_, ?_, ?_, ?_, ?_, ?_⟩, ⟨?_, ?_, ?_, ?_, ?_, ?_⟩⟩ <;> first | exact ownLines_spec (by decide +kernel) | (unfold Next; decide +kernel) | decide +kernel

theorem witness_CopiesFillsAndPagesMoveLines_pages :
    (∀ rd : Bool,
      let j := pageJob rd
      let good := onEngine (paged 0x80000280) (.die 0) [j]
      let bad := onEngine (paged 0x00000280) (.die 0) [j]
      Next good (.die 0) 0 j ∧ dGcm j.desc = false ∧ dCmp j.desc = 0 ∧ dOp j.desc = (if rd then 2 else 3) ∧ PagesFit good 64 j rd
      ∧ lineChecks good 64 (jobTag j) [pageList j rd 0 / 64 * 64] [] false = 0
      ∧ Next bad (.die 0) 0 j ∧ pageBad j.desc (pageTaken bad j rd 0) = true
      ∧ (let far := onEngine (paged 0x800007D0) (.die 0) [j]
        Next far (.die 0) 0 j ∧ pageBad j.desc (pageTaken far j rd 0) = false
        ∧ lineChecks far 64 (jobTag j) (pageSide far j rd rd 0) (pageSide far j rd (!rd) 0) (!rd) ≠ 0)
      ∧ (let m : Job := laneJob (if rd then dsc 2 0x2000000 0xC10000 64 1 64 0 else dsc 3 0xC10000 0x2000000 64 1 64 0)
        let lost := onEngine own (.die 0) [m]
        Next lost (.die 0) 0 m ∧ lineChecks lost 64 (jobTag m) [pageList m rd 0 / 64 * 64] [] false ≠ 0))
    ∧ (let j := pageJob false
      let cow := onEngine (paged 0xC0000280) (.die 0) [j]
      Next cow (.die 0) 0 j ∧ pageBad j.desc (pageTaken cow j false 0) = false
      ∧ lineChecks cow 64 (jobTag j) (pageSide cow j false false 0) (pageSide cow j false true 0) true = 0
      ∧ pgCow (pageTaken cow j false 0) = true) := by
  refine ⟨fun rd => ?_, ?_⟩
  · cases rd <;> refine ⟨?_, ?_, ?_, ?_, pageFits_spec ?_, ?_, ?_, ?_, ?_, ?_⟩ <;> first | (unfold Next; decide +kernel) | decide +kernel
  · unfold Next; decide +kernel

/-- The hub DMA's function 1 is enabled, and GCM slot 2 is partition 0's. -/
def hosted : State :=
  { own with
    pcie := { linkUp := true, numVfs := 16, vfEnable := true, funcs := [(1, { st := .running, busMaster := true, memSpace := true })] },
    gate := { own.gate with slots := own.gate.slots ++ [(2, { kind := .gcm, owner := 0, curKey := some 3 })] } }

/-- A GCM descriptor of one line from host memory to granule 6, under a key slot. -/
def gcmJob (slot : Nat) : Job :=
  { desc := dsc 0 0x1000 0xDFFFC0 64 1 0 (2 ^ 489 + slot * 2 ^ 483 + 2 ^ 350 + 2 ^ 343), part := some 0, origin := .host 0 0 0 }

/-- The tag's verdict is the cipher's (Config.gcmOpen): the last clause is met by whatever it opens to 64 bytes. -/
theorem witness_GcmWritesOnlyAuthenticPlaintext :
    (let j := gcmJob 2
     let s := onEngine hosted .hub [j]
     Next s .hub 0 j ∧ dOp j.desc = 0 ∧ dGcm j.desc = true ∧ issueStatus s 68 j = 0 ∧ funcLive s (dFunc j.desc) = true
     ∧ j.hostData = none ∧ j.staged = false ∧ s.dma.staging < 8 ∧ gcmKey s 0 2 0 = some 3)
    ∧ (let j := { gcmJob 2 with staged := true, hostData := some (List.replicate 96 0) }
       let s := onEngine hosted .hub [j]
       Next s .hub 0 j ∧ issueStatus s 68 j = 0 ∧ funcLive s (dFunc j.desc) = true ∧ gcmKey s (jobTag j) (dGcmSlot j.desc) j.gen = some 3
       ∧ (∀ a, a ∈ sideLines j.desc true → OwnLine s (jobTag j) a) ∧ dDstSp j.desc = 0)
    ∧ (let j := { gcmJob 3 with staged := true, hostData := some (List.replicate 96 0) }
       let s := onEngine hosted .hub [j]
       Next s .hub 0 j ∧ issueStatus s 68 j = 0 ∧ gcmKey s (jobTag j) (dGcmSlot j.desc) j.gen = none)
    ∧ (let j := gcmJob 2
       let s : State := { onEngine hosted .hub [j] with dma := { queues := [(68, [j])], staging := 8 } }
       Next s .hub 0 j ∧ j.hostData = none ∧ 8 ≤ s.dma.staging) := by
  refine ⟨?_, ⟨?_, ?_, ?_, ?_, ?_, ?_⟩, ?_, ?_⟩ <;> first | exact ownLines_spec (by decide +kernel) | (unfold Next; decide +kernel) | decide +kernel

theorem witness_HostReadsAndMemoryMaintenanceComplete :
    (let s : State := { onEngine hosted .hub [{ gcmJob 2 with hostTag := some 7 }] with dma := { queues := [(68, [{ gcmJob 2 with hostTag := some 7 }])], outstanding := [(7, 1)], abandoned := [6] } }
     s.dma.abandoned.contains 6 = true ∧ s.dma.abandoned.contains 5 = false ∧ mget s.dma.outstanding 5 = none
     ∧ s.dma.abandoned.contains 7 = false ∧ mget s.dma.outstanding 7 = some 1 ∧ tagJob s 7 = some (0, { gcmJob 2 with hostTag := some 7 })
     ∧ dGcm (gcmJob 2).desc = true)
    ∧ (let j : Job := { desc := dsc 0 0x1000 0xDFFFC0 64 1 0 (2 ^ 350 + 2 ^ 343), part := some 0, origin := .host 0 0 0, hostTag := some 8 }
       tagJob { hosted with dma := { queues := [(68, [j])], outstanding := [(8, 1)] } } 8 = some (0, j) ∧ dGcm j.desc = false)
    ∧ (if (3 : Fin 8).val < 4 then up.tray.hub.hbmA else up.tray.hub.hbmB) = true ∧ (if (4 : Fin 8).val < 4 then up.tray.hub.hbmA else up.tray.hub.hbmB) = true
    ∧ up.tray.selfRefresh = false ∧ stackOf (64 * 64) = (1 : Fin 8).val ∧ granBacked up (granOf (64 * 64)) = true
    ∧ mget up.mem.retrain (64 * 7 + 63) = none ∧ patrolDue up 3 = true
    ∧ (let s (now : Nat) : State := { up with clk := { now := now }, mem := { patrols := [(3, (1, 10))] } }
       patrolDue (s 86400000000009) 3 = false ∧ patrolDue (s 86400000000010) 3 = true)
    ∧ (let at9 (now : Nat) (t : Int) : State := { up with clk := { now := now }, mem := { retrain := [(5, (10, t))] } }
       mget (at9 1000000010 2500).mem.retrain 5 = some (10, 2500) ∧ 10 + 1000000000 ≤ (at9 1000000010 2500).clk.now
       ∧ (at9 20 2100).clk.now = 20 ∧ (2100 : Int) + 400 ≤ stackTemp (at9 20 2100) 0 ∧ stackTemp (at9 20 2900) 0 + 400 ≤ 2900
       ∧ (at9 1000000009 2101).clk.now < 10 + 1000000000 ∧ stackTemp (at9 1000000009 2101) 0 < 2101 + 400 ∧ 2101 < stackTemp (at9 1000000009 2101) 0 + 400) := by
  decide +kernel

/-! ### Witnesses: steps -/

/-- An image of one ONESHOT service of PREFILL_STEP 1, CHUNK 4 and MAX_SEQ 4, whose one matrix has one block. -/
def img0 : Image :=
  { bundleVer := 1, descVer := 1, locs := [], bundles := [], setupBase := [0, 0, 0, 0], vtable := [], setups := [],
    cost := [0, BitVec.ofNat 256 (2 ^ 240 + 2 ^ 236)],
    services := [BitVec.ofNat 256 (2 ^ 252 + 2 ^ 251 + 2 ^ 238 + 0xFFF * 2 ^ 226 + 16 * 2 ^ 206 + 4 * 2 ^ 190 + 4 * 2 ^ 177)],
    outBytes := [4], inBytes := [64], kv := [], kvIdentity := 0, syncTables := [], slots := [], pinwheelDies := [], deltaDies := [],
    baseId := 7, varPerStep := 1, maxTiles := 0, matrixTiles := [], matrixForm := [(0, 1)], baseTileU := [], digest := 0 }

/-- Partition 0 has an image, and request 0 of its service is ADMITTED. -/
def serving : State :=
  { own with car := { images := [(0, { img := img0 })], reqs := [(0, { st := .admitted, promptLen := 4, prefillTo := 4, maxLen := 8 })] } }

/-- A run of a step of context 0. -/
def run0 : StepRun :=
  { stepId := 1, service := 0, prefill := true, batch := [⟨0, 0, 1, true⟩], buffer := 0, params := [], quads := 0xFFFF, dispatched := 0, dispatchedTb := 0,
    startedAt := 0, ctxs := [0], cost := 1000, depth := 0 }

/-- Partition 0 runs a step in context 0, which has a fault code or none, after a time. -/
def running (f : Option (Fin 5)) (now : Nat) (x : StepRun) : State :=
  { serving with
    seq := { ctxs := [(0, { ctx0 with fault := f })], lanes := (List.range 8).map fun l => (l, { ended := true }) },
    car := { serving.car with steps := [(0, x)] }, clk := { now := now } }

theorem witness_StepDispatchStartsTheStageWithWork :
    let rd : Round := { stages := [(0, true)], included := [0] }
    let img : Image := { img0 with cost := [0, BitVec.ofNat 256 (2 ^ 240 + 2 ^ 236 + 2 ^ 200)] }
    let s : State := { serving with
      car := { serving.car with rounds := [(0, rd)], images := [(0, { img := img })] }, seq := { ctxs := [(0, { ctx0 with step := none })] } }
    let a := stagePicks s 0 rd (0, true)
    mget s.car.rounds 0 = some rd ∧ rd.copies = [] ∧ rd.due = [] ∧ stepRunning s 0 = false ∧ roundsOk s 0 = true
    ∧ a.1.wait = false ∧ rampHeld a.2 0 (0, true) a.1.picks = false ∧ a.1.picks ≠ [] ∧ (serviceOf a.2 0 0).isSome = true
    ∧ (costEntry s 0 1).map (fun e => (partCtxs s 0).filter fun c => (fld e 215 200 >>> (4 * (c / 4))) % 16 != 0) = some [0]
    ∧ (ctxGet s 0).part = some 0 ∧ (ctxGet s 0).step = none := by decide +kernel

theorem witness_StepsEndWhenDoneOrFaulted :
    (let s := running none 0 run0
     (4 : Fin 5) ≠ 0 ∧ (ctxGet s 0).step.isSome = true ∧ (ctxGet s 0).fault = none ∧ mget s.car.steps 0 = some run0 ∧ run0.ended = false
     ∧ stepFault s run0 = none ∧ run0.ctxs.all (ctxDone s) = true)
    ∧ (let s := running none 131841 run0
       odGet s 0x4028 0 * (run0.cost * 82400) < (s.clk.now - run0.startedAt - run0.excluded) * (10000 - run0.depth)
       ∧ ∀ c, c ∈ run0.ctxs → (ctxGet s c).step.isSome = true ∧ (ctxGet s c).fault = none)
    ∧ (let s := running none 131840 run0
       (s.clk.now - run0.startedAt - run0.excluded) * (10000 - run0.depth) ≤ odGet s 0x4028 0 * (run0.cost * 82400))
    ∧ (let s := running (some 1) 0 run0
       run0.fenced = false ∧ stepFault s run0 = some 1 ∧ (1 : Fin 5) ≠ fcParity ∧ (1 : Fin 5) ≠ fcAbort ∧ (mget s.car.images 0).isSome = true) := by decide +kernel

theorem witness_ReplayAndWaitingLoadResume :
    stepFault (running (some fcParity) 0 run0) run0 = some fcParity ∧ run0.ended = false ∧ run0.fenced = false
    ∧ (let x := { run0 with ended := true, fault := some fcParity }
       let s := running (some fcParity) 0 x
       mget s.car.steps 0 = some x ∧ x.batch ≠ [] ∧ roundsOk s 0 = true
       ∧ ∀ b, b ∈ x.batch → live (reqGet s b.handle) = true ∧ (reqGet s b.handle).st ≠ .draining) := by decide +kernel

/-! ### Witnesses: die engines and variants -/

/-- A Pinwheel job of one sample from granule 5 to granule 6, with other fields. -/
def pwJob (other : Nat) : BitVec 1024 :=
  BitVec.ofNat 1024 (2 ^ 1020 + 2 ^ 1012 + 2 ^ 1005 + 2 ^ 977 + 2 ^ 972 + 2 ^ 956 + 2 ^ 948 + 2 ^ 904 + 2 ^ 892 + 2 ^ 868 + 2 ^ 856
    + 0xA00000 * 2 ^ 784 + 0xA01000 * 2 ^ 520 + 0xC00000 * 2 ^ 424 + other)

/-- A delta job of one column group of matrix 0, its activations and results in cluster 0, with other fields. -/
def djJob (other : Nat) : W512 := BitVec.ofNat 512 (2 ^ 508 + 2 ^ 456 + other)

/-- Die 0 holds one job of each engine for partition 0, whose step runs. -/
def dieJobbed (pw : BitVec 1024) (dj : W512) : State :=
  let s := running none 0 run0
  { s with
    dieJobs := [(0, { pinwheel := [pw], delta := [dj], pinwheelFor := 0, deltaFor := 0 })],
    pav := { s.pav with vals := [(odKey 0x3805 1, 0), (odKey 0x4030 1, 0)] } }

/-- Die 0 holds a delta job, and the one sequence of the running batch uses the base model. -/
def deltaed (dj : W512) : State :=
  let s := dieJobbed 0 dj
  let img : Image := { img0 with services := img0.services.map fun v => v + BitVec.ofNat 256 (0xC80000 * 2 ^ 57) }
  { s with
    car := { s.car with images := [(0, { img := img })], steps := [(0, { run0 with params := [1, 1, 1, 0] })] },
    mem := { s.mem with hbm := (List.range 32).zipWith (fun i b => (0xC80000 + i, b)) (leBytes 32 0) } }

theorem witness_DieEnginesRunTheirListsForTheirOwner :
    (let s := dieJobbed (pwJob 0) (djJob 0)
     dieCtxs s 0 0 = [0] ∧ (ctxGet s 0).fault = none ∧ clusOn s 0 = true ∧ odGet s 0x4030 1 = 0 ∧ odGet s 0x3805 1 = 0
     ∧ pwBad (pwJob 0) = false ∧ jobWait s (bit (pwJob 0) 371) 0 0 0 = true
     ∧ djBad (djJob 0) = false ∧ jobWait s (bit (djJob 0) 256) 0 0 0 = true ∧ (deltaEnv s 0 (djJob 0)).isSome = true)
    ∧ pwBad 0 = true ∧ djBad 0 = true
    ∧ (let j := pwJob (2 ^ 371 + 2 ^ 310)
       pwBad j = false ∧ jobWait (dieJobbed j 0) (bit j 371) (fld j 370 351) (fld j 350 342) (fld j 341 310) = false)
    ∧ (let j := pwJob (2 ^ 309 + 2 ^ 264)
       pwBad j = false ∧ bit j 309 = true ∧ clusOfLoc (fld j 308 289) = some 0 ∧ quadOwner (dieJobbed j 0) (clusQuad 0) = 0)
    ∧ (let j := djJob (2 ^ 256 + 2 ^ 195)
       djBad j = false ∧ jobWait (dieJobbed 0 j) (bit j 256) (fld j 255 236) (fld j 235 227) (fld j 226 195) = false)
    ∧ (let j := djJob (2 ^ 194 + 2 ^ 149)
       djBad j = false ∧ bit j 194 = true ∧ clusOfLoc (fld j 193 174) = some 0) := by decide +kernel

theorem witness_DieEnginesRunTheirListsForTheirOwner_faults :
    (let j : BitVec 1024 := BitVec.ofNat 1024 ((pwJob 0).toNat - 0xA00000 * 2 ^ 784 + 0x2000000 * 2 ^ 784)
     let s := dieJobbed j 0
     pwBad j = false ∧ jobWait s (bit j 371) 0 0 0 = true ∧ dieAccess s 0 0 (pwReads j) (pwWriteLines (pwWrites s 0 j)) ≠ 0)
    ∧ (let j := djJob 0
       let s : State := { deltaed j with mem := { (deltaed j).mem with granules := [(5, { st := .owned, owner := 0, slot := 0 })] } }
       let e : DeltaEnv := ⟨0, [0], 0, 1⟩
       djBad j = false ∧ jobWait s (bit j 256) 0 0 0 = true ∧ deltaEnv s 0 j = some e
       ∧ dieAccess s 0 0 (djReads s e 0 j) (pwWriteLines (djWrites s e 0 j)) ≠ 0) := by decide +kernel

theorem witness_DieEnginesRunTheirListsForTheirOwner_lines :
    (let j := pwJob 0
     let s := dieJobbed j 0
     dieAccess s 0 0 (pwReads j) (pwWriteLines (pwWrites s 0 j)) = 0)
    ∧ (let j := djJob (0xA00000 * 2 ^ 305 + 0xA02000 * 2 ^ 257)
       let s := deltaed j
       let e : DeltaEnv := ⟨0, [0], 0, 1⟩
       deltaEnv s 0 j = some e ∧ dieAccess s 0 0 (djReads s e 0 j) (pwWriteLines (djWrites s e 0 j)) = 0) := by decide +kernel

theorem mayStore_spec {s : State} {rq : DictReq} {idx sub : Nat} {v : List Byte} (r : OdRow)
    (h : (pavOn s && decide (odRow idx sub = some r) && mayWrite s rq.src idx sub r.acc && v.length == r.size) = true) : MayStore s rq idx sub v := by
  simp only [Bool.and_eq_true, decide_eq_true_eq, beq_iff_eq] at h
  exact ⟨h.1.1.1, r, h.1.1.2, h.1.2, h.2⟩

/-- A check of `MayStore` by evaluation. -/
def stores (s : State) (rq : DictReq) (idx sub : Nat) (v : List Byte) : Bool :=
  pavOn s && (match odRow idx sub with | some r => mayWrite s rq.src idx sub r.acc && v.length == r.size | none => false)

theorem stores_spec {s : State} {rq : DictReq} {idx sub : Nat} {v : List Byte} (h : stores s rq idx sub v = true) : MayStore s rq idx sub v := by
  unfold stores at h
  cases hr : odRow idx sub with
  | none => simp [hr] at h
  | some r =>
    simp only [hr, Bool.and_eq_true, beq_iff_eq] at h
    exact ⟨h.1, r, hr, h.2.1, h.2.2⟩

theorem witness_DieEnginesRunTheirListsForTheirOwner_owner :
    (MayStore up rqS 0x4030 1 [0] ∧ MayStore up rqS 0x3805 4 [15] ∧ MayStore up rqS 0x4030 1 [16])
    ∧ ((partQuads up 0 >>> (4 * 0)) % 16 ≠ 0 ∧ (mget up.gate.parts 0).map Partn.st = some .active)
    ∧ ¬ (partQuads up 15 >>> (4 * 3)) % 16 ≠ 0
    ∧ (let s : State := { up with gate := { parts := [(0, { st := .revoking, quads := 0xF })] } }
       (partQuads s 0 >>> (4 * 0)) % 16 ≠ 0 ∧ (mget s.gate.parts 0).map Partn.st ≠ some .active ∧ pavOn s = true) := by
  refine ⟨⟨stores_spec ?_, stores_spec ?_, stores_spec ?_⟩, ?_⟩ <;> decide +kernel

/-- Partition 0 has an image, and variants as given; a part of no tiles stands at 0xA00000, one of another version at 0xA10000. -/
def varied (l : SMap Variant) : State :=
  let part (a ver : Nat) : List Host.Cell := (List.range 256).zipWith (fun i b => (a + i, b))
    (leBytes 256 (ver + 1 * 2 ^ 16 + 7 * 2 ^ 64 + (presetCheck none []).toNat * 2 ^ 128 + a * 2 ^ 256))
  { serving with variants := l, mem := { serving.mem with hbm := part 0xA00000 1 ++ part 0xA10000 2 } }

theorem witness_VariantsRegisterCheckAndRetire :
    (MayStore up rqS 0x3800 1 (varBytes 1 1 0xA00000) ∧ MayStore up rqS 0x3800 16 (varBytes 2 4095 0))
    ∧ (varBusy (varied [(1, { st := .loading, addr := 0 })]) 0 2 = 2 ∧ varBusy (varied [(1, { st := .retiring, addr := 0 })]) 0 1 = 2
      ∧ varBusy (varied [(1, { st := .active, addr := 0 })]) 0 1 = 8 ∧ varBusy (varied []) 0 1 = 0
      ∧ (imageOf (varied []) 0).isSome = true ∧ (varsOf (varied []) 0).length < 1024 ∧ ¬ (imageOf up 0).isSome = true
      ∧ varBusy up 0 1 = 0 ∧ mget (varied [(1, { st := .active, addr := 0 })]).variants (varKey 0 1) = some { st := .active, addr := 0 })
    ∧ (let x : Variant := { st := .loading, addr := 0xA00000 }
       let s := varied [(1, x)]
       ((varsOf s 0).find? fun x => x.2.st == .loading) = some (varKey 0 1, x) ∧ varCheck s 0 x.addr = 1)
    ∧ (let x : Variant := { st := .loading, addr := 0xA10000 }
       let s := varied [(1, x)]
       ((varsOf s 0).find? fun x => x.2.st == .loading) = some (varKey 0 1, x) ∧ varCheck s 0 x.addr = 4) := by
  refine ⟨⟨stores_spec ?_, stores_spec ?_⟩, ?_⟩ <;> decide +kernel

/-! ### Witnesses: the Carousel -/

/-- The image of `img0` with an input and an output slot. -/
def img1 : Image := { img0 with services := img0.services.map fun v => v + BitVec.ofNat 256 (0xC00000 * 2 ^ 9 + 1) }

/-- A submission entry of an opcode with its fields. -/
def entry (op other : Nat) : W512 := BitVec.ofNat 512 (2 ^ 508 + op * 2 ^ 504 + other)

/-- A SUBMIT of Class G with its input at 0xA00000, and other fields. -/
def submitE (other : Nat) : W512 := entry 1 (2 ^ 492 + 8 * 2 ^ 454 + 2 ^ 434 + 0xFFFFFF * 2 ^ 410 + 0xFFFFFF * 2 ^ 386 + 0xA00000 * 2 ^ 256 + 99 * 2 ^ 128 + other)

def take0 (e : W512) : Taken := { f := 0, ring := 0, entry := e, tArrive := 0, arriveAt := 5 }

/-- Function 1 has submission ring 0 of 64 entries and completion ring 0 of 64, and the tray has taken entries. -/
def ringed (l : List Taken) : State :=
  { hosted with
    pcie := { hosted.pcie with funcs := [(1, { st := .running, busMaster := true, memSpace := true, sq := [(0, { log2 := 6 })], cq := [(0, { log2 := 6 })] })] },
    car := { images := [(0, { img := img1 })], taken := l },
    pav := { hosted.pav with vals := [(odKey 0x3000 1, 3), (odKey 0x3001 1, 4)] } }

/-- The states in which SUBMIT is taken, rejected by its format, and rejected by a check. -/
theorem witness_SubmitRejectsOrAdmits :
    (let k := take0 (submitE 0)
     let s := ringed [k]
     let u := takenUp s 0 k
     let e := entryOf s k
     takenPick (takenQueue s) 1 = some (0, k) ∧ s.pair.role ≠ .follower ∧ mget s.car.heldOut 0 = none ∧ RingRoom s 0 (eCring e)
     ∧ checkFormat u 0 e = 0 ∧ serviceOf u 0 (eService e) = img1.services[0]?
     ∧ decideStatus u 0 (freeHandle u) e (reqOf u k e (freeHandle u) (img1.services.headD 0) none []) (img1.services.headD 0) none = 0
     ∧ (reqGet s (freeHandle u)).st = .free)
    ∧ (let k := take0 (submitE (2 ^ 493))
       let s := ringed [k]
       takenPick (takenQueue s) 1 = some (0, k) ∧ RingRoom s 0 (eCring (entryOf s k)) ∧ checkFormat (takenUp s 0 k) 0 (entryOf s k) = 53)
    ∧ (let k := take0 (submitE 0)
       let s : State := { ringed [k] with tray := { up.tray with drain := .inProgress } }
       let u := takenUp s 0 k
       let e := entryOf s k
       takenPick (takenQueue s) 1 = some (0, k) ∧ RingRoom s 0 (eCring e) ∧ checkFormat u 0 e = 0
       ∧ decideStatus u 0 (freeHandle u) e (reqOf u k e (freeHandle u) (img1.services.headD 0) none []) (img1.services.headD 0) none = 52) := by
  unfold RingRoom; decide +kernel

/-- A check of `RingRoom` by evaluation. -/
def hasRoom (s : State) (p c : Nat) : Bool :=
  let q := cqGet (fnGet s (p + 1)) c
  s.tray.drain != .completed && q.log2 != 0 && !cqFull q && backlogOf s (p + 1) c == []

theorem hasRoom_spec {s : State} {p c : Nat} (h : hasRoom s p c = true) : RingRoom s p c := by
  simp only [hasRoom, Bool.and_eq_true, bne_iff_ne, ne_eq, Bool.not_eq_true', beq_iff_eq] at h
  exact ⟨h.1.1.1, h.1.1.2, h.1.2, h.2⟩

/-- A CANCEL of request 0. -/
def cancelE (gen : Nat) : W512 := entry 2 (gen * 2 ^ 354)

/-- A CANCEL taken while request 0 is as given, perhaps in a step. -/
def cancelling (gen : Nat) (r : Req) (l : SMap StepRun) : State :=
  let s := ringed [take0 (cancelE gen)]
  { s with
    car := { s.car with reqs := [(0, r)], steps := l },
    pav := { s.pav with vals := s.pav.vals ++ [(odKey 0x3010 1, 1)] } }

theorem witness_LoadsAllocationsAndCancelsAreAnswered_cancel :
    let r : Req := { st := .admitted, gen := 4095, promptLen := 4 }
    let k := take0 (cancelE 4095)
    let s := cancelling 4095 r []
    let t := cancelling 4095 { r with st := .decode } [(0, run0)]
    let stale := cancelling 1 r []
    let is (x : Req) : Bool :=
      let u := cancelling 4095 x []
      takenPick (takenQueue u) 2 == some (0, k) && hasRoom u 0 (eCring (entryOf u k)) && (reqGet u (eRef (entryOf u k) / 4096)) == x
        && x.gen % 4096 == eRef (entryOf u k) % 4096
    takenPick (takenQueue s) 2 = some (0, k) ∧ RingRoom s 0 (eCring (entryOf s k)) ∧ (reqGet s (eRef (entryOf s k) / 4096)).part = 0
    ∧ r.gen % 4096 = eRef (entryOf s k) % 4096 ∧ live r = true ∧ r.st ≠ .draining ∧ r.cxl = false ∧ inStep s 0 0 = false
    ∧ takenPick (takenQueue t) 2 = some (0, k) ∧ inStep t 0 0 = true ∧ odGet t 0x3010 1 = 1 ∧ RingRoom t 0 (eCring (entryOf t k))
    ∧ takenPick (takenQueue stale) 2 = some (0, take0 (cancelE 1)) ∧ (reqGet stale 0).st ≠ .free
    ∧ (reqGet stale 0).gen % 4096 ≠ eRef (entryOf stale (take0 (cancelE 1))) % 4096
    ∧ is { r with st := .free } = true ∧ is { r with part := 1 } = true
    ∧ is { r with st := .draining } = true ∧ is { r with cxl := true } = true ∧ live { r with cxl := true } = true
    ∧ is { r with st := .done } = true ∧ is { r with st := .cancelled } = true ∧ is { r with st := .failed } = true := by
  unfold RingRoom; decide +kernel

/-- A LOAD_IMAGE, ALLOC or FREE entry: address, length and die. -/
def argE (op a n d : Nat) : W512 := entry op (a * 2 ^ 80 + n * 2 ^ 48 + d * 2 ^ 46)

/-- `img0` with the DEFAULT entry's cost of a step changed by a number. -/
def costing (n : Nat) : Image := { img0 with cost := [0, BitVec.ofNat 256 (2 ^ 240 + 2 ^ 236 + 2 ^ 200 + n * 2 ^ 168)] }

theorem witness_LoadsAllocationsAndCancelsAreAnswered_load :
    let k := take0 (argE 3 0xA00000 1 0)
    let s := ringed [k]
    let busy : State := { s with car := { s.car with steps := [(0, run0)] } }
    let w (s : State) : State := let u := takenUp s 0 k; { u with car := { u.car with loadHold := u.car.loadHold.filter (· ≠ 0) } }
    let with_ (img : Image) (l : SMap (List (Taken × Image))) : State :=
      { s with car := { s.car with images := [(0, { img := img })], reqs := [(0, { st := .decode })], pendingLoads := l } }
    let loads (s : State) : Bool :=
      takenPick (takenQueue s) 3 == some (0, k) && !stepRunning s 0 && hasRoom s 0 (eCring (entryOf s k))
      && (mget s.gate.parts 0).map Partn.st == some .active && hbmOwned s 0 (eArgAddr (entryOf s k)) (max 1 (eArgLen (entryOf s k)))
    takenPick (takenQueue busy) 3 = some (0, k) ∧ stepRunning busy 0 = true ∧ k.waiting = false
    ∧ loads s = true ∧ imageFail (w s) 0 { img0 with bundleVer := 2 } = some 28
    ∧ imageFail (w s) 0 (costing 1) = none ∧ loadPends s 0 (costing 1) = false
    ∧ (let s := with_ (costing 1) []
       loads s = true ∧ imageFail (w s) 0 (costing 1) = none ∧ loadPends s 0 (costing 1) = false)
    ∧ (let s := with_ (costing 1) [(0, [(k, costing 2)])]
       loads s = true ∧ imageFail (w s) 0 (costing 1) = none ∧ loadPends s 0 (costing 1) = true)
    ∧ (let s := with_ (costing 0) []
       loads s = true ∧ imageFail (w s) 0 (costing 256) = none ∧ loadPends s 0 (costing 256) = true) := by
  decide +kernel

theorem witness_ReplayAndWaitingLoadResume_load :
    let k := take0 (argE 3 0xA00000 1 0)
    let w (img : Image) : State := { ringed [] with car := { (ringed []).car with pendingLoads := [(0, [(k, img)])] } }
    let u (s : State) : State := { s with car := { s.car with pendingLoads := mdel s.car.pendingLoads 0 } }
    (stepRunning (w (costing 1)) 0 = false ∧ liveG (u (w (costing 1))) 0 = [] ∧ RingRoom (u (w (costing 1))) 0 (eCring k.entry)
      ∧ loadFail (u (w (costing 1))) 0 k.entry (costing 1) = none)
    ∧ (let x : Image := { img0 with bundleVer := 2 }
       stepRunning (w x) 0 = false ∧ liveG (u (w x)) 0 = [] ∧ RingRoom (u (w x)) 0 (eCring k.entry) ∧ loadFail (u (w x)) 0 k.entry x = some 28)
    ∧ (let s : State := { w (costing 1) with car := { (w (costing 1)).car with reqs := [(0, { st := .decode })] } }
       stepRunning s 0 = false ∧ liveG s 0 ≠ []) := by
  unfold RingRoom; decide +kernel

theorem witness_LoadsAllocationsAndCancelsAreAnswered_free :
    let k := take0 (argE 5 0xA00000 2 0)
    let s := ringed [k]
    let used : State := { s with kv := { pools := [(0, { extents := [⟨0, [6]⟩] })] } }
    let far := take0 (argE 5 0xA00000 3 0)
    takenPick (takenQueue s) 5 = some (0, k) ∧ RingRoom s 0 (eCring (entryOf s k))
    ∧ granOf (eArgAddr (entryOf s k)) = 5 ∧ eArgAddr (entryOf s k) % 2 ^ 21 = 0 ∧ eArgLen (entryOf s k) = 2
    ∧ (∀ j, j < 2 → granBacked s (5 + j) = true ∧ (granGet s (5 + j)).st = .owned ∧ (granGet s (5 + j)).owner.toNat = 0 ∧ granInUse s 0 (5 + j) = false)
    ∧ takenPick (takenQueue used) 5 = some (0, k) ∧ granInUse used 0 6 = true
    ∧ takenPick (takenQueue (ringed [far])) 5 = some (0, far) ∧ (granGet (ringed [far]) (5 + 2)).st ≠ .owned := by
  unfold RingRoom; decide +kernel

/-- Every granule is FREE. -/
def allFree (l : List Taken) : State := { ringed l with mem := { mapBase := { st := .free } } }

/-- Every granule is another partition's. -/
def noneFree (l : List Taken) : State := { ringed l with mem := { mapBase := { st := .owned, owner := 5 } } }

theorem noneFree_owned (l : List Taken) : ∀ g, g ∈ dieGranules (noneFree l) 0 → (granGet (noneFree l) g).st = .owned := by
  intro g hg
  have hp : populated (noneFree l) = 0x1200000000 := rfl
  simp only [dieGranules, hp, List.mem_map, List.mem_range] at hg
  obtain ⟨i, hi, rfl⟩ := hg
  have hb : granBacked (noneFree l) (65536 * 0 + i) = true := by simp only [granBacked, hp, Bool.and_eq_true, decide_eq_true_eq]; omega
  unfold granGet
  rw [hb]
  have hm : mget (noneFree l).mem.granules (65536 * 0 + i) = none := rfl
  have hx : (noneFree l).mem.mapBase = { st := .owned, owner := 5 } := rfl
  rw [hm, hx]
  rw [if_neg (by simp)]
  split <;> rfl

theorem witness_LoadsAllocationsAndCancelsAreAnswered_alloc :
    let k := take0 (argE 4 0 1 0)
    takenPick (takenQueue (allFree [k])) 4 = some (0, k) ∧ RingRoom (allFree [k]) 0 (eCring (entryOf (allFree [k]) k))
    ∧ (mget (allFree [k]).gate.parts 0).map Partn.st = some .active
    ∧ granRun (allFree [k]) (eArgDie (entryOf (allFree [k]) k)) (eArgLen (entryOf (allFree [k]) k)) = some 0
    ∧ (let s : State := { allFree [k] with gate := { (allFree [k]).gate with parts := [(0, { st := .revoking, quads := 0xFFFF })] } }
       takenPick (takenQueue s) 4 = some (0, k) ∧ RingRoom s 0 (eCring (entryOf s k)) ∧ (mget s.gate.parts 0).map Partn.st ≠ some .active) := by
  unfold RingRoom; decide +kernel

theorem witness_LoadsAllocationsAndCancelsAreAnswered_alloc_none :
    let k := take0 (argE 4 0 1 0)
    takenPick (takenQueue (noneFree [k])) 4 = some (0, k) ∧ RingRoom (noneFree [k]) 0 (eCring (entryOf (noneFree [k]) k))
    ∧ (mget (noneFree [k]).gate.parts 0).map Partn.st = some .active
    ∧ granRun (noneFree [k]) (eArgDie (entryOf (noneFree [k]) k)) (eArgLen (entryOf (noneFree [k]) k)) = none
    ∧ bootScrubbing (noneFree [k]) (eArgDie (entryOf (noneFree [k]) k)) = false := by
  intro k
  have hd : eArgDie (entryOf (noneFree [k]) k) = 0 := by decide +kernel
  refine ⟨by decide +kernel, by unfold RingRoom; decide +kernel, rfl, ?_, ?_⟩
  · have hf : freeGranules (noneFree [k]) 0 = [] := by
      simp only [freeGranules, List.filter_eq_nil_iff]
      intro g hg
      rw [noneFree_owned [k] g hg]
      simp
    rw [hd]
    simp [granRun, hf]
  · rw [hd]
    simp only [bootScrubbing, List.any_eq_false]
    intro g hg
    rw [noneFree_owned [k] g hg]
    simp

/-- The granules of die 0 are still in the scrub of the tray's start. -/
def startScrub (l : List Taken) : State := { ringed l with mem := { mapBase := { st := .scrubbing, owner := 0x3F } } }

theorem startScrub_busy (l : List Taken) : ∀ g, g ∈ dieGranules (startScrub l) 0 → (granGet (startScrub l) g).st ≠ .free := by
  intro g hg
  have hp : populated (startScrub l) = 0x1200000000 := rfl
  simp only [dieGranules, hp, List.mem_map, List.mem_range] at hg
  obtain ⟨i, hi, rfl⟩ := hg
  have hb : granBacked (startScrub l) (65536 * 0 + i) = true := by simp only [granBacked, hp, Bool.and_eq_true, decide_eq_true_eq]; omega
  unfold granGet
  rw [hb]
  have hm : mget (startScrub l).mem.granules (65536 * 0 + i) = none := rfl
  have hx : (startScrub l).mem.mapBase = { st := .scrubbing, owner := 0x3F } := rfl
  rw [hm, hx]
  rw [if_neg (by simp)]
  split <;> simp

theorem witness_LoadsAllocationsAndCancelsAreAnswered_alloc_start :
    let k := take0 (argE 4 0 1 0)
    let s := startScrub [k]
    takenPick (takenQueue s) 4 = some (0, k) ∧ RingRoom s 0 (eCring (entryOf s k)) ∧ (mget s.gate.parts 0).map Partn.st = some .active
    ∧ granRun s (eArgDie (entryOf s k)) (eArgLen (entryOf s k)) = none ∧ bootScrubbing s (eArgDie (entryOf s k)) = true := by
  intro k s
  have hd : eArgDie (entryOf s k) = 0 := by decide +kernel
  refine ⟨by decide +kernel, by unfold RingRoom; decide +kernel, rfl, ?_, ?_⟩
  · have hf : freeGranules s 0 = [] := by
      simp only [freeGranules, List.filter_eq_nil_iff]
      intro g hg
      simp [startScrub_busy [k] g hg, s]
    rw [hd]
    simp [granRun, hf]
  · rw [hd]
    unfold bootScrubbing
    rw [List.any_eq_true]
    have hp : populated s = 0x1200000000 := rfl
    refine ⟨4096, ?_, by decide +kernel⟩
    simp only [dieGranules, hp, List.mem_map, List.mem_range]
    exact ⟨4096, by omega, rfl⟩

/-! ### Witnesses: prefix index, frames, rounds, pools, rings -/

/-- An image of one layer of 16-token pages. -/
def img2 : Image := { img0 with kv := [BitVec.ofNat 64 (2 ^ 60)] }

theorem witness_PrefixIndexMatchesAndRebuilds :
    (let s : State := { own with car := { images := [(0, { img := img2 })], reqs := [(0, { st := .admitted, bmax := 1, layers := 1, promptLen := 16, tokens := List.replicate 16 0 })] } }
     (reqGet s 0).st = .admitted ∧ (reqGet s 0).matched = false ∧ (reqGet s 0).forkParent = none ∧ layersOf s (reqGet s 0).part ≠ 0 ∧ (reqGet s 0).bmax ≠ 0
     ∧ s.kv.tableA = [] ∧ idxFind s 0 (reqHash s (reqGet s 0) 0) = none)
    ∧ up.kv.rebuild = none
    ∧ (partGet up 0).st = .active ∧ (partGet { up with gate := { parts := [(15, { st := .revoking })] } } 15).st = .revoking
    ∧ mget (varied [(4095, { st := .retiring, addr := 0 })]).variants (varKey 0 4095) = some { st := .retiring, addr := 0 }
    ∧ (let reb (r : Rebuild) (now : Nat) : State := { up with kv := { rebuild := some r }, clk := { now := now } }
       (reb { nextSet := 262143 } 0).kv.rebuild = some { nextSet := 262143 } ∧ 262144 ≤ 262143 + 1 ∧ waysOf (reb { nextSet := 262143 } 0) false 262143 = []
       ∧ (reb { finishedAt := some 7 } 1000006).clk.now < 7 + 1000000 ∧ 7 + 1000000 ≤ (reb { finishedAt := some 7 } 1000007).clk.now
       ∧ ({ finishedAt := some 7 } : Rebuild).queued = false) := by decide +kernel

theorem witness_PrefixIndexMatchesAndRebuilds_write : MayStore up rqS 0x3031 0 [1] := by
  exact stores_spec (by decide +kernel)

theorem witness_FramesEpochsRoundsAndPoolsChange :
    (let e (fl : List Nat) : State := { up with kv := { epoch := 4, advanceDue := true, inflight := fl } }
     (e [1, 0, 1, 1]).kv.advanceDue = true ∧ mayAdvance (e [1, 0, 1, 1]) = true ∧ mayAdvance (e [0, 1, 0, 0]) = false
     ∧ mayAdvance { e [0, 0, 0, 0] with kv := { (e [0, 0, 0, 0]).kv with epoch := 2 ^ 32 - 1 } } = true)
    ∧ (let f (x : Frame) (fl : List Nat) : State := { up with kv := { pools := [(0, { frames := [(640, x)] })], epoch := 4, inflight := fl } }
       let x : Frame := { st := .quarantine, decEpoch := some 3 }
       framePool (f x [0, 0, 0, 0]) 640 = some 0 ∧ frameGet (f x [0, 0, 0, 0]) 0 640 = x ∧ drained (f x [0, 0, 0, 0]) 3 = true
       ∧ drained (f x [0, 0, 0, 1]) 3 = false ∧ framePool (f { ref := 1, st := .inUse } [0, 0, 0, 0]) 640 = some 0)
    ∧ (let c : CowCopy := ⟨0, 0, 640, 641, false, some 0⟩
       let rd : Round := { copies := [c] }
       let s : State := { own with car := { reqs := [(0, { st := .decode, pages := [(0, 0x80000280)], bmax := 1, layers := 1 })], rounds := [(0, rd)] } }
       mget s.car.rounds 0 = some rd ∧ c.status = some 0 ∧ c.status ≠ some 5 ∧ live (reqGet s 0) = true ∧ (reqGet s 0).part = 0
       ∧ fld (mgetD (reqGet s 0).pages 0 0) 27 0 = 640 ∧ pgPresent (mgetD (reqGet s 0).pages 0 0) = true)
    ∧ (let r (p : SMap (BitVec 32)) : Req := { st := .waitingPage, bmax := 1, layers := 1, prefillTo := 1, pages := p }
       let s (p : SMap (BitVec 32)) : State := { own with car := { images := [(0, { img := img2 })], reqs := [(0, r p)] } }
       let need (p : SMap (BitVec 32)) : List Nat := needOf (s p) 0 (newPages (s p) (r p) (nextUnits (s p) (r p)) ++ copiesFor (s p) (r p) (nextUnits (s p) (r p)))
       stepRunning (s []) 0 = false ∧ sortBy waitingLt ((liveReqs (s []) 0).filter fun x => x.2.st == .waitingPage) = [(0, r [])]
       ∧ covers (s [(0, 0x80000280)]) 0 (need [(0, 0x80000280)]) false = true ∧ covers (s []) 0 (need []) false = false)
    ∧ (mget serving.car.rounds 0 = none ∧ stepRunning serving 0 = false ∧ roundsOk serving 0 = true ∧ serving.pair.role ≠ .follower
       ∧ (∃ x, x ∈ liveReqs serving 0 ∧ x.2.st ≠ .draining ∧ x.2.classE = false ∧ ringHeld serving 1 x.2.cring = false)) := by
  decide +kernel

theorem witness_FramesEpochsRoundsAndPoolsChange_pools :
    (MayStore up rqS 0x3020 1 [0, 0, 0, 0] ∧ MayStore up rqS 0x3020 16 [5, 0, 0, 0])
    ∧ (let s : State := { up with pav := { up.pav with vals := [(odKey 0x3020 1, 5)] } }
       poolClamp 0 s 4 < odGet s 0x3020 1 ∧ poolClamp 0 s 5 = odGet s 0x3020 1 ∧ poolClamp 0 up 0 = odGet up 0x3020 1)
    ∧ (let s (fs : FState) : State := { up with kv := { pools := [(0, { relayout := true, frames := [(640, { st := fs })] })] } }
       (poolGet (s .free) 0).relayout = true ∧ poolIdle (poolGet (s .free) 0) = true ∧ poolIdle (poolGet (s .quarantine) 0) = false
       ∧ poolIdle (poolGet (s .inUse) 0) = false) := by
  refine ⟨⟨stores_spec ?_, stores_spec ?_⟩, ?_⟩ <;> decide +kernel

theorem witness_HostRingsTakeEntriesAndDrain :
    (let s := ringed []
     barOn s ((0 : Vf).val + 1) = true ∧ (sqGet (fnGet s 1) 0).log2 ≠ 0 ∧ bellOk s 0 = true
     ∧ bellStep 0 64 1 = (1, false) ∧ bellStep 0 64 64 = (64, false) ∧ bellStep 0 64 65 = (64, true) ∧ bellStep 0 64 0xFFFF = (0, true)
     ∧ (sqGet (fnGet s 1) 7).log2 = 0)
    ∧ (let s : State := { ringed [] with gate := { parts := [(0, { st := .revoking })] } }
       barOn s 1 = true ∧ bellOk s 0 = false)
    ∧ (takenPick (takenQueue (ringed [take0 (entry 0 0)])) 0 = some (0, take0 (entry 0 0)))
    ∧ (takenPick (takenQueue (ringed [take0 (entry 6 0)])) 6 = some (0, take0 (entry 6 0)))
    ∧ (let s (q : Cq) (now : Nat) : State := { ringed [] with pcie := { hosted.pcie with funcs := [(1, { st := .running, busMaster := true, memSpace := true, cq := [(8, q)] })] }, clk := { now := now } }
       let q : Cq := { log2 := 6, tail := 64, head := 0, unsent := 1, modTime := 2, firstAt := 10 }
       barOn (s q 0) 1 = true ∧ (cqGet (fnGet (s q 0) 1) 8).log2 ≠ 0 ∧ bellOk (s q 0) 0 = true ∧ bellStep 0 64 64 = (64, false)
       ∧ q.tail + (backlogOf (s q 0) 1 8).length ≤ q.head + 64 + cqSize q ∧ q.tail + (backlogOf (s q 0) 1 8).length ≤ q.head + 0 + cqSize q
       ∧ (cqGet (fnGet (s q 0) 1) 0).log2 = 0
       ∧ 0 < q.unsent ∧ q.modTime ≠ 0 ∧ q.firstAt + q.modTime * 1000 ≤ (s q 2010).clk.now ∧ (s q 2009).clk.now < q.firstAt + q.modTime * 1000
       ∧ vecMasked (fnGet (s q 0) 1) 0 = true
       ∧ vecMasked { fnGet (s q 0) 1 with msix := [(3, 0)] } 0 = false) := by decide +kernel

/-! ### Witnesses: Zoetrope -/

/-- A command of an OP for session 0 or 512 of generation 0, with other fields. -/
def zE (op sess other : Nat) : W512 := BitVec.ofNat 512 (2 ^ 508 + op * 2 ^ 504 + sess * 2 ^ 488 + 77 * 2 ^ 128 + other)

/-- A descriptor of 16 × 16 pictures in granule 5, decoding or encoding into granule 6. -/
def vDesc (enc : Bool) : BitVec 1024 :=
  BitVec.ofNat 1024 (2 ^ 1020 + (if enc then 2 ^ 1019 else 0) + 16 * 2 ^ 1002 + 16 * 2 ^ 988 + 2 * 2 ^ 983 + 1000 * 2 ^ 959 + 100 * 2 ^ 939
    + 0xA00000 * 2 ^ 891 + 10 * 2 ^ 811 + 0xC00000 * 2 ^ 746 + 100 * 2 ^ 726 + 2 * 2 ^ 720)

/-- Function 1 has the command ring's completion ring, sessions as given, and one command taken. -/
def video (l : SMap VSession) (e : W512) : State :=
  { hosted with
    pcie := { hosted.pcie with funcs := [(1, { st := .running, busMaster := true, memSpace := true, cq := [(8, { log2 := 6 })] })] },
    pav := { hosted.pav with vals := [(odKey 0x7000 1, 4), (odKey 0x7001 1, 1)] },
    zoe := { sessions := l, taken := [{ f := 0, entry := e, takenAt := 0 }] },
    mem := { hosted.mem with hbm := (List.range 128).zipWith (fun i b => (0xD00000 + i, b)) (leBytes 128 (vDesc true).toNat) } }

/-- A picture of one CTU row. -/
def head0 (kind : PicKind) (refs : List (Fin 24)) : PicHead :=
  { poc := 0, kind := kind, profile := .main, level := 40, chroma := 1, depth := 8, field := false, dpb := 1, reorder := 0, shown := true,
    refs := refs, unmark := [], longTerm := [], mark := .short, latency := 0, dropPrior := false, width := 16, height := 16, ctb := 16, crop := 0, covered := [0] }

theorem witness_VideoSessionsOpenFlushAndClose :
    (let k (e : W512) : ZTaken := { f := 0, entry := e, takenAt := 0 }
     let e := zE 1 0 (0xD00000 * 2 ^ 438)
     let s := video [] e
     barOn s 1 = true ∧ (cqGet (fnGet s 1) 8).log2 ≠ 0 ∧ bellOk s 0 = true ∧ (cqGet (fnGet hosted 1) 8).log2 = 0 ∧ barOn hosted 1 = true
     ∧ zPick s 1 = some (0, k e) ∧ RingRoom s 0 8 ∧ zLegal e = true
     ∧ partNat s 0 (zAddr e) 128 = (vDesc true).toNat ∧ openStatus s 0 (vDesc true) = 0
     ∧ openStatus (video [(512, { f := 0, desc := vDesc true })] e) 0 (vDesc true) = 2 ∧ openStatus s 0 0 = 1
     ∧ (let b := zE 15 0 0; zPick (video [] b) 1 = some (0, k b) ∧ zLegal b = false)
     ∧ (let f := zE 6 0 0
        zPick (video [] f) 6 = some (0, k f) ∧ zNamed (video [] f) (k f) = none
        ∧ zNamed (video [(0, { f := 0, desc := vDesc false })] f) (k f) = some (0, { f := 0, desc := vDesc false })
        ∧ (let w := flushUnits { f := 0, desc := vDesc false } 77; w.flushing.takeWhile (flushOver w) ≠ [])
        ∧ (let w := flushUnits { f := 0, desc := vDesc false, units := [{ no := 0 }], nextUnit := 1 } 77; w.flushing.takeWhile (flushOver w) = []))
     ∧ (let c := zE 7 0 0
        zPick (video [] c) 7 = some (0, k c) ∧ zNamed (video [] c) (k c) = none
        ∧ (zNamed (video [(0, { f := 0, desc := vDesc false })] c) (k c)).isSome = true)) := by
  unfold RingRoom; decide +kernel

/-- Every number of a kind is taken: OPEN's fourth answer needs a table of 64 sessions and none free. -/
theorem witness_VideoSessionsOpenFlushAndClose_full :
    let l := (List.range 64).map fun i => (512 + i, ({ f := 1, desc := vDesc true } : VSession))
    (((List.range 64).map (512 + ·)).find? fun n => (vGet (video l 0) n).isNone) = none := by decide +kernel

theorem witness_VideoCommandsQueueAndRelease :
    let k (e : W512) : ZTaken := { f := 0, entry := e, takenAt := 0 }
    let dec : VSession := { f := 0, desc := vDesc false, slots := [(0, { out := .held })] }
    let enc : VSession := { f := 0, desc := vDesc true, bitsHeld := 2 }
    (let e := zE 2 0 (0xA00000 * 2 ^ 438 + 64 * 2 ^ 406)
     zPick (video [(0, dec)] e) 2 = some (0, k e) ∧ zNamed (video [(0, dec)] e) (k e) = some (0, dec) ∧ vdEnc dec.desc = false ∧ zLen e ≠ 0
     ∧ RingRoom (video [(0, dec)] e) 0 8)
    ∧ (let e := zE 2 0 0; zPick (video [(0, dec)] e) 2 = some (0, k e) ∧ zLen e = 0)
    ∧ (let e := zE 3 0x8000 (64 * 2 ^ 290 + 64 * 2 ^ 270)
       zPick (video [(512, enc)] e) 3 = some (0, k e) ∧ zNamed (video [(512, enc)] e) (k e) = some (512, enc) ∧ vdEnc enc.desc = true
       ∧ fld e 309 290 % 64 = 0 ∧ fld e 289 270 % 64 = 0)
    ∧ (let e := zE 4 0x8000 0; zPick (video [(512, enc)] e) 4 = some (0, k e) ∧ zNamed (video [(512, enc)] e) (k e) = some (512, enc))
    ∧ (let e := zE 5 0x8000 (2 ^ 406); zPick (video [(512, enc)] e) 5 = some (0, k e) ∧ zLen e = 1)
    ∧ (let e := zE 5 0 (65535 * 2 ^ 406); zPick (video [(0, dec)] e) 5 = some (0, k e) ∧ zLen e = 65535 ∧ zNamed (video [(0, dec)] e) (k e) = some (0, dec))
    ∧ zoeOn up = true ∧ vGet (video [(511, dec)] 0) (511 : Fin 512).val = some dec ∧ dec.f.val = (0 : PartId).val ∧ dec.f.val ≠ (1 : PartId).val
    ∧ (heldSlots dec).length = 1 ∧ (vGet (video [(511, dec)] 0) (0 : Fin 512).val).isNone = true := by
  unfold RingRoom; decide +kernel

/-- An access unit whose syntax records have begun. -/
def unit0 : AUnit := { no := 0, begun := true, tag := 77 }

theorem witness_VideoSessionsDecodeAndEncode_entropy :
    let x : VSession := { f := 0, desc := vDesc false, units := [unit0] }
    let s (l : SMap VSession) (e : SMap Nat) : State := { video l 0 with zoe := { sessions := l, entropy := e } }
    let r (n : Nat) : List SynChunk := List.replicate n { tag := 0, unit := 0, upTo := 1 }
    (zoeOn up = true ∧ vGet (s [(511, x)] []) (511 : Fin 512).val = some x ∧ mget (s [(511, x)] []).zoe.entropy (5 : Fin 6).val = none
      ∧ mayTurn (s [(511, x)] []) none 511 x = true)
    ∧ (let full : VSession := { x with records := r 32 }
       vGet (s [(0, full)] []) (0 : Fin 512).val = some full ∧ mget (s [(0, full)] []).zoe.entropy (0 : Fin 6).val = none ∧ mayTurn (s [(0, full)] []) none 0 full = false)
    ∧ (let full : VSession := { x with records := r 31 }
       let st := s [(0, x), (1, full)] [(0, 1)]
       mget st.zoe.entropy (0 : Fin 6).val = some 1 ∧ vGet st 1 = some full ∧ (recordsPut full (128 - chunksUsed st) [1, 1]).records.length = 32
       ∧ mayTurn (vSet st 1 (recordsPut full (128 - chunksUsed st) [1, 1])) (some (1, recordsPut full (128 - chunksUsed st) [1, 1])) 0 x = true
       ∧ mayTurn (vSet st 1 (recordsPut full (128 - chunksUsed st) [])) (some (1, recordsPut full (128 - chunksUsed st) [])) 0 x = false)
    ∧ (mget (s [(0, x)] [(0, 0)]).zoe.entropy (0 : Fin 6).val = some (0 : Fin 512).val ∧ x.waitKey = false ∧ RingRoom (s [(0, x)] [(0, 0)]) x.f.val 8
      ∧ mayStay (s [(0, x)] [(0, 0)]) 0 x = true ∧ (let full : VSession := { x with records := r 32 }; mayStay (s [(0, full)] [(0, 0)]) 0 full = false)) := by
  unfold RingRoom; decide +kernel

theorem witness_VideoSessionsDecodeAndEncode_pictures :
    let d := vDesc false
    let v (w : Bool) (dec : Bool) : VSession := { f := 0, desc := d, units := [unit0], waitKey := w, slots := [(0, { decoding := dec, head := some (head0 .idr []) })] }
    (∀ w dec : Bool, (v w dec).units = [unit0] ∧ unit0.begun = true ∧ unit0.void = false ∧ (v w dec).recon = none ∧ (v w dec).flushing = [])
    ∧ ((v true false).waitKey = true ∧ irap (head0 .ordinary []) = false)
    ∧ (({ v false false with raslOff := true } : VSession).raslOff = true ∧ (head0 .rasl []).kind = .rasl)
    ∧ (headRefusal d { head0 .idr [] with profile := .high } = 2 ∧ headRefusal d { head0 .idr [] with dpb := 2 } = 2 ∧ headRefusal d { head0 .idr [] with level := 52 } = 1
      ∧ headRefusal d { head0 .idr [] with width := 24 } = 3 ∧ headRefusal d (head0 .idr []) = 0 ∧ irap (head0 .idr []) = true ∧ (v false false).waitKey = false
      ∧ RingRoom (video [(0, v false false)] 0) 0 8)
    ∧ ((head0 .ordinary [0]).refs.any (fun k => (vSlot (v false true) k.val).decoding) = true)
    ∧ (let full : VSession := { v false false with slots := [(0, { refMark := .short }), (1, { out := .held })] }
       (List.range (vdSlots d)).find? (fun k => slotFree (vSlot (markSlots full (head0 .idr [])) k)) = none
       ∧ (List.range (vdSlots d)).find? (fun k => slotFree (vSlot (markSlots full { head0 .idr [] with unmark := [0] }) k)) = some 0)
    ∧ ((head0 .cra []).refs.any (fun k => (vSlot (v true true) k.val).decoding) = false
      ∧ (List.range (vdSlots d)).find? (fun k => slotFree (vSlot (markSlots (v true true) (head0 .cra [])) k)) = some 1) := by
  unfold RingRoom; decide +kernel

theorem witness_VideoSessionsDecodeAndEncode_rows :
    let d := vDesc false
    let v (h : PicHead) (done : Bool) (o : OutMark) : VSession :=
      { f := 0, desc := d, recon := some 0, units := [{ unit0 with ctus := 1, done := done, lastAt := if done then some 0 else none }], slots := [(0, { decoding := true, head := some h, out := o })] }
    let u (done : Bool) : AUnit := { unit0 with ctus := 1, done := done, lastAt := if done then some 0 else none }
    let tall : PicHead := { head0 .idr [] with height := 17 }
    let sees (l : SMap VSession) (n : Nat) (x : VSession) : Bool := l.any fun y => y.1 != n && !vdEnc y.2.desc && (rowReady y.2).isSome && pixelEarlier y.2 x
    rowReady (v (head0 .idr []) true .none) = some (0, head0 .idr [], u true) ∧ ctuRowCount (head0 .idr []) ≤ (vSlot (v (head0 .idr []) true .none) 0).rowsDone + 1
    ∧ rowReady (v tall false .none) = some (0, tall, u false) ∧ ¬ ctuRowCount tall ≤ (vSlot (v tall false .none) 0).rowsDone + 1
    ∧ (((List.range (ctuCols (head0 .idr []))).filter fun c => !(coveredCtus { head0 .idr [] with covered := [] } (u true)).contains (0 * ctuCols (head0 .idr []) + c)).length = 1)
    ∧ sees [(0, v tall false .none), (1, v (head0 .idr []) true .none)] 0 (v tall false .none) = true
    ∧ sees [(0, v tall false .none)] 0 (v tall false .none) = false
    ∧ outputDue (v (head0 .idr []) true .none) = false ∧ outputDue (v (head0 .idr []) true .pending) = true
    ∧ (nextOutput (v (head0 .idr []) true .pending)).isSome = true ∧ bit d 890 = false ∧ RingRoom (video [(0, v (head0 .idr []) true .pending)] 0) 0 8 := by
  unfold RingRoom; decide +kernel

theorem witness_VideoSessionsDecodeAndEncode_coding :
    let p : EncPic := ⟨0xA00000, 0xA10000, 0xA20000, 64, 64, 0, true, 5, 0⟩
    let v (held : Nat) : VSession := { f := 0, desc := vDesc true, inputs := [p], bitsHeld := held }
    let q := cqGet (fnGet (video [(575, v 1)] 0) 1) 8
    vGet (video [(575, v 1)] 0) (512 + (63 : Fin 64).val) = some (v 1) ∧ (v 1).inputs = [p] ∧ vdBitsSlots (vDesc true) ≤ (v 2).bitsHeld ∧ (v 1).bitsHeld < vdBitsSlots (vDesc true)
    ∧ RingRoom (video [(575, v 1)] 0) 0 8 ∧ q.tail + 2 ≤ q.head + cqSize q
    ∧ (let sees (l : SMap VSession) : Bool := l.any fun y => y.1 != 575 && vdEnc y.2.desc && encEarlier y.2 (v 1)
       sees [(575, v 1)] = false
       ∧ ([(574, v 1), (575, v 1)].any fun y => y.1 != 575 && vdEnc y.2.desc && encEarlier y.2 { v 1 with inputs := [{ p with takenAt := 1 }] }) = true) := by
  unfold RingRoom; decide +kernel

/-! ### Witnesses: Trellis -/

/-- Port 0 as given, port 1 enabled and down. -/
def port (x : Port) : State := { up with trl := { ports := [(0, x), (1, { enabled := true })] } }

def upPort : Port := { enabled := true, st := .up, lanes := 8, cabinet := 9 }

theorem witness_LinkLayerAcceptsReplaysAndCredits :
    portUp (port upPort) (0 : Fin 2).val = true ∧ upPort.txq = []
    ∧ (let f := flitMake (List.replicate 248 1) 0 0 false 1
       fld f 2015 1984 = flitCrc f ∧ fld f 2047 2036 = upPort.rxExpect)
    ∧ fld (0 : BitVec 2048) 2015 1984 ≠ flitCrc 0
    ∧ (let x (n : Nat) : Port := { upPort with unacked := [(4094, 0, 0), (4095, 0, n), (0, 0, 0)] }
       let again (n : Nat) := ((x n).unacked.dropWhile fun e => e.1 != 4095).map fun e => (e.1, e.2.1, e.2.2 + 1)
       (x 14).unacked.any (fun e => e.1 == (4095 : BitVec 12).toNat) = true ∧ (∀ e, e ∈ again 14 → e.2.2 < 16) ∧ (∃ e, e ∈ again 15 ∧ 16 ≤ e.2.2))
    ∧ (let x : Port := { upPort with txq := [(2, 0, [])], txSeq := 4095 }
       x.txq = [((2 : Fin 3).val, 0, [])] ∧ x.unacked.length < 512 ∧ x.txSeq < 4096 ∧ (2 : Fin 3) ≠ 0) := by decide +kernel

theorem witness_PortsTrainGreetAndExchangeClockStates :
    portOn (port upPort) (0 : Fin 2).val = true ∧ portOn (port upPort) (1 : Fin 2).val = true
    ∧ lanesFor (0 ||| BitVec.ofNat 8 (2 ^ 7)) = 4 ∧ lanesFor (0x80 ||| BitVec.ofNat 8 (2 ^ 0)) = 0
    ∧ (0x80 : BitVec 8).getLsbD (7 : Fin 8).val = true ∧ (0x80 : BitVec 8).getLsbD (6 : Fin 8).val = false
    ∧ upPort.st ≠ .down ∧ upPort.st ≠ .training ∧ upPort.st = .up ∧ upPort.st ≠ .refused
    ∧ ({ upPort with st := .refused } : Port).st = .refused ∧ portOn (port { upPort with st := .refused }) 0 = true ∧ portOn (port { upPort with st := .training }) 0 = true
    ∧ (portGet (port upPort) 1).st = .down
    ∧ helloRefusal (port upPort) 0 ⟨1, 1, true, 0, 0, 9, false⟩ = 0 ∧ helloRefusal (port upPort) 0 ⟨1, 2, true, 0, 0, 9, false⟩ = 1
    ∧ helloRefusal (port upPort) 0 ⟨1, 1, false, 0, 0, 9, false⟩ = 2 ∧ helloRefusal (port upPort) 1 ⟨1, 1, true, 0, 0, 8, false⟩ = 3
    ∧ helloRefusal (port upPort) 0 ⟨1, 1, true, 0, 0, 9, true⟩ = 4
    ∧ (let x (at_ now : Nat) : State := { port { upPort with eqAt := [(0, at_)] } with clk := { now := now } }
       mget (portGet (x 5 100005) 0).eqAt 0 = some 5 ∧ 5 + 100000 ≤ (x 5 100005).clk.now ∧ ¬ 5 + 100000 ≤ (x 5 100004).clk.now ∧ mget (portGet (x 5 0) 0).eqAt 1 = none)
    ∧ trlOn (port upPort) = true ∧ portUp (port upPort) 0 = true
    ∧ (let s (now : Nat) (l : Bool) : State := { port upPort with trl := { (port upPort).trl with peers := [(15, { at_ := 7, lost := l })] }, clk := { now := now }, pair := { role := .active }, pav := { up.pav with vals := [(odKey 0x6401 0, 15)] } }
       mget (s 0 true).trl.peers (15 : Fin 16).val = some { at_ := 7, lost := true } ∧ (15 : Fin 16).val ≠ ownSlot (s 0 false) ∧ (0 : Fin 16).val = ownSlot (s 0 false)
       ∧ (mgetD up.trl.peers (15 : Fin 16).val {}).lost = false ∧ (mgetD up.trl.peers (15 : Fin 16).val {}).at_ + 100000 ≤ (s 100000 false).clk.now
       ∧ (s 0 false).pair.partnerLost = false ∧ odGet (s 0 false) 0x6400 0 ≠ 2 ∧ (s 100006 false).clk.now < 7 + 100000 ∧ 7 + 100000 ≤ (s 100007 false).clk.now
       ∧ odGet (s 0 false) 0x6401 0 = (15 : Fin 16).val ∧ odGet (s 0 false) 0x6401 0 ≠ (14 : Fin 16).val ∧ (s 0 false).pair.role ≠ .unpaired
       ∧ ∀ y, y ∈ (s 0 false).trl.jobs → awaits (s 0 false) y.1 y.2 15 = false) := by decide +kernel

/-- Group 0 is partition 0's, of slots 0 and 1, under key slot 3; its window is the first granule of granule 5 on. -/
def grouped : State :=
  { own with
    trl := { ports := [(0, upPort)] },
    gate := { own.gate with slots := own.gate.slots ++ [(3, { kind := .trellis, owner := 0, curKey := some 5 })] },
    pav := { own.pav with vals := [(odKey 0x6020 1, 2 ^ 31 + 3 * 2 ^ 11 + 3 * 2 ^ 5), (odKey 0x6021 1, 0xA00000 + 2 * 2 ^ 48), (odKey 0x6022 1, 1)] } }

def group0 : Group := { part := 0, mask := 3, slot := 3 }

/-- A packet of a type from slot 1 in group 0 with SEQ 1, data, opened data and header fields. -/
def pkt (typ other : Nat) (data pt : List Byte) : Packet :=
  { header := BitVec.ofNat 256 (2 ^ 252 + typ * 2 ^ 248 + 2 ^ 244 + 2 ^ 129 + other), data := data,
    trailer := BitVec.ofNat 256 ((presetCheck (some 1) pt).toNat * 2 ^ 128) }

theorem witness_PacketsLandOnceAndAreAcknowledged_meant :
    let zs : List Byte := List.replicate 32 0
    let w := pkt 0 (2 ^ 220 + 0x3FFFE0 * 2 ^ 81) zs zs
    PacketMeant grouped w group0 5 ∧ PacketMeant grouped (pkt 1 (63 * 2 ^ 209 + 0xFFFF * 2 ^ 193) [] []) group0 5
    ∧ PacketMeant grouped (pkt 2 (2 ^ 9) [] []) group0 5 ∧ PacketMeant grouped (pkt 3 (3 * 2 ^ 73 + 2 ^ 9) [] []) group0 5 := by
  unfold PacketMeant; decide +kernel

theorem witness_PacketsLandOnceAndAreAcknowledged :
    let zs : List Byte := List.replicate 32 0
    let w := pkt 0 (2 ^ 220 + 0x3FFFE0 * 2 ^ 81) zs zs
    let p := pkt 1 (63 * 2 ^ 209 + 0xFFFF * 2 ^ 193) [] []
    portUp grouped 0 = true ∧ pkType w.header = 0 ∧ pkType p.header = 1
    ∧ rxDup {} (pkSeq w.header) = false ∧ rxDup { high := 1 } (pkSeq w.header) = true
    ∧ fld w.header 128 81 + 32 * fld w.header 227 220 = (windowOf grouped 0).2 ∧ bit w.header 219 = false
    ∧ landOk grouped 0 ((windowOf grouped 0).1 + fld w.header 128 81) 32 = true
    ∧ cabOwned grouped 0 (fld p.header 218 209) = true ∧ cabOwned grouped 0 64 = false ∧ pkGroup w.header = 0
    ∧ pkSeq w.header ≤ ({} : RxWin).high + 1024
    ∧ (let far := pkt 0 (2 ^ 220 + 0x3FFFE1 * 2 ^ 81) zs zs
       pkType far.header = 0 ∧ ¬ fld far.header 128 81 + 32 * fld far.header 227 220 ≤ (windowOf grouped 0).2)
    ∧ (let beyond := pkt 1 (64 * 2 ^ 209) [] []
       pkType beyond.header = 1 ∧ cabOwned grouped 0 (fld beyond.header 218 209) = false)
    ∧ trlKey grouped 3 0 (pkGen (pkt 0 (2 ^ 230) zs zs).header) = none
    ∧ (let t : State := { grouped with trl := { grouped.trl with jobs := [(0, { bits := 0, ctx := 0, part := 0 })], pending := [{ dst := 1, group := 0, seq := 2, pkt := w, port := 0, sentAt := 5, job := some 0 }] }, seq := stepping.seq }
       (∀ x, x ∈ t.trl.jobs → tjGroup x.2 = pkGroup (pkt 2 0 [] []).header → x.2.left = []) ∧ t.trl.g63 = [] ∧ mget t.trl.jobs 0 = some { bits := 0, ctx := 0, part := 0 } ∧ pkType (pkt 2 0 [] []).header = 2 ∧ pkType (pkt 3 0 [] []).header = 3
       ∧ fld (pkt 3 (3 * 2 ^ 73 + 2 ^ 9) [] []).header 80 73 = 3 ∧ fld (pkt 3 (3 * 2 ^ 73 + 2 ^ 9) [] []).header 72 9 = 1
       ∧ (t.trl.pending.find? fun o => o.dst == 1 && o.group == 0 && pkGen o.pkt.header == 0) = some { dst := 1, group := 0, seq := 2, pkt := w, port := 0, sentAt := 5, job := some 0 }
       ∧ tjRuns t { bits := 0, ctx := 0, part := 0 } = true ∧ (ctxGet t 0).step.isSome = true ∧ trlOn t = true
       ∧ (t.trl.pending.find? fun o => o.dst == (1 : Fin 16).val && o.group == (0 : Fin 64).val && o.seq == 2).isSome = true
       ∧ t.clk.now < 5 + 20000 ∧ 5 + 20000 ≤ ({ t with clk := { now := 20005 } } : State).clk.now ∧ portUp t 0 = true ∧ portUp t 1 = false) := by decide +kernel

/-- A job of an OP with other fields, of group 0. -/
def tj (op other : Nat) : TJob := { bits := BitVec.ofNat 1024 (2 ^ 1020 + op * 2 ^ 1016 + other), ctx := 0, part := 0 }

/-- Job 0 stands in the list of a running step. -/
def listed (j : TJob) : State := { grouped with trl := { grouped.trl with jobs := [(0, j)] }, seq := stepping.seq }

theorem witness_TrellisJobsStartCombineAndComplete :
    let send := tj 1 (2 ^ 1005 + 2 ^ 1006 + 0xA00000 * 2 ^ 937 + 4096 * 2 ^ 905)
    let post := tj 2 (2 ^ 1006 + 2 ^ 808 + 2 ^ 782)
    let red := tj 3 (3 * 2 ^ 985 + 0xC00000 * 2 ^ 937 + 64 * 2 ^ 905 + 128 * 2 ^ 809)
    let bnd := tj 4 (63 * 2 ^ 664)
    (∀ j, j ∈ [send, post, red, bnd] → JobReady (listed j) 0 j ∧ tjBad (listed j) j = false)
    ∧ tjBad (listed (tj 5 0)) (tj 5 0) = true ∧ JobReady (listed (tj 5 0)) 0 (tj 5 0) ∧ (ctxGet (listed (tj 5 0)) 0).step.isSome = true
    ∧ groupOf (listed send) (tjGroup send) = some group0 ∧ trlCur (listed send) group0 = some (0, 5)
    ∧ tjLen send = 4096 ∧ bit send.bits 1005 = true ∧ bufBytes (listed send) + 64 + tjLen send ≤ 2 ^ 23 ∧ outTo (listed send) 1 0 < 1024
    ∧ clusOfLoc (fld bnd.bits 663 644) = some 0
    ∧ (let r := { red with started := true }
       mget (listed r).trl.jobs 0 = some r ∧ tjRuns (listed r) r = true ∧ r.combined = false
       ∧ waitOk (cabGet (listed r) (tjRcnt r)) (BitVec.ofNat 32 (rdTarget (listed r) r)) = false
       ∧ (let s : State := { listed r with trl := { (listed r).trl with cabinet := [(0, { base := 1 }), (1, { base := 1 })] } }
          waitOk (cabGet s (tjRcnt r)) (BitVec.ofNat 32 (rdTarget s r)) = true
          ∧ waitOk (cabGet s (tjRcnt r + 1)) (BitVec.ofNat 32 (rdTarget' s r)) = true)
       ∧ r.left = [] ∧ ∀ o, o ∈ (listed r).trl.pending → o.job ≠ some 0)
    ∧ (let b := { tj 4 (63 * 2 ^ 664 + 2 ^ 719 + 2 ^ 674) with started := true }
       bit b.bits 719 = true ∧ clusOfLoc (fld b.bits 718 699) = some 0 ∧ clusOn (listed b) 0 = true ∧ quadOwner (listed b) (clusQuad 0) = b.part.val ∧ tjOp b ≠ 3) := by
  unfold JobReady; decide +kernel

/-- The list's step has ended. -/
theorem witness_TrellisJobsStartCombineAndComplete_over :
    let s : State := { listed (tj 5 0) with seq := {} }
    tjBad s (tj 5 0) = true ∧ JobReady s 0 (tj 5 0) ∧ (ctxGet s 0).step = none := by
  unfold JobReady; decide +kernel

/-! ### Witnesses: the Gatehouse and check-value units -/

theorem witness_PartitionCommandsReportAndAct :
    (MayCommand own rqS 1 1 0x00F0 ∧ MayCommand own rqS 2 15 0 ∧ MayCommand own rqS 3 0 0 ∧ MayCommand own rqS 4 0 0
      ∧ MayStore own rqS 0x5001 0 (leBytes 8 (5 * 2 ^ 60)))
    ∧ (let s : State := { own with gate := { own.gate with parts := [(0, { st := .active, quads := 1 })] } }
       (partGet s 1).st = .free ∧ ¬ ((0x00F0 : BitVec 16) = 0 ∨ (0x00F0 : BitVec 16).toNat &&& quadsTaken s ≠ 0) ∧ (freeSlots s).length = 58 ∧ (freeSlots s).take 2 = [2, 3]
       ∧ (partGet s 0).st ≠ .free ∧ (0x0001 : BitVec 16).toNat &&& quadsTaken s ≠ 0 ∧ coldRole s = false ∧ s.fuses.lifecycle ≠ .rma
       ∧ (partGet s 0).st = .active ∧ (partGet s 1).st ≠ .active ∧ mget s.gate.sweeps 0 = none ∧ slotOf s .xts 0 = some 0 ∧ slotOf s .siphash 0 = some 1
       ∧ s.kv.rebuild = none)
    ∧ (freeSlots { own with gate := { slots := (List.range 59).map fun n => (n, { kind := .gcm }) } }).length = 1
    ∧ (mget ({ own with gate := { own.gate with sweeps := [(0, {})] } } : State).gate.sweeps 0).isSome = true
    ∧ ({ own with kv := { rebuild := some {} } } : State).kv.rebuild.isSome = true ∧ 4 < nfld (leNat (leBytes 8 (5 * 2 ^ 60))) 63 60 := by
  refine ⟨⟨⟨rfl, stores_spec ?_⟩, ⟨rfl, stores_spec ?_⟩, ⟨rfl, stores_spec ?_⟩, ⟨rfl, stores_spec ?_⟩, stores_spec ?_⟩, ?_⟩ <;> decide +kernel

/-- A granule reads back clean, or differs twice. -/
theorem witness_RevocationScrubAndSweepFinish_reads (g : Nat) :
    scrubMisses g ⟨[], []⟩ ≠ 2 ∧ scrubMisses g ⟨[(2 ^ 21 - 1, 1)], [(2 ^ 21 - 1, 1)]⟩ = 2 :=
  ⟨by rw [scrubMisses_clean]; decide, scrubMisses_dirty g⟩

theorem witness_RevocationScrubAndSweepFinish :
    (let s (now : Nat) (j : List Job) : State := { onEngine own (.die 0) j with gate := { own.gate with parts := [(0, { st := .revoking, quads := 1, revokedAt := 5 })] }, clk := { now := now } }
     (partGet (s 5 []) 0).st = .revoking ∧ inFlight (s 5 []) 0 = 0
     ∧ inFlight (s 10000004 [copyJob]) 0 ≠ 0 ∧ (s 10000004 [copyJob]).clk.now < 5 + 10000000 ∧ 5 + 10000000 ≤ (s 10000005 [copyJob]).clk.now
     ∧ (partGet own 0).st ≠ .revoking)
    ∧ (granBacked up 0 = true ∧ granReserved up 0 = false ∧ (granGet up 0).st = .scrubbing ∧ granBacked up 36607 = true ∧ granReserved up 36607 = false
       ∧ (granGet up 36607).st = .scrubbing ∧ 0 ∉ up.flash.retired ∧ scrubOn up (0 / 65536) = true ∧ scrubOn up (36607 / 65536) = true
       ∧ granBacked up (3 * 65536) = true ∧ scrubOn up (3 * 65536 / 65536) = true)
    ∧ (let s (l : List Nat) : State := { own with gate := { own.gate with sweeps := [(0, { left := [l, [], [], []] })], slots := [(0, { kind := .xts, owner := 0, cur := 1, curKey := some 9, old := some (0, 1) })] } }
       mget (s [5, 6]).gate.sweeps 0 = some { left := [[5, 6], [], [], []] } ∧ slotOf (s [5, 6]) .xts 0 = some 0 ∧ (partGet (s [5, 6]) 0).st = .active
       ∧ (0 : Die).val < ({ left := [[5, 6], [], [], []] } : Sweep).left.length ∧ scrubOn (s [5, 6]) (0 : Die).val = true ∧ granBacked (s [5, 6]) 5 = true
       ∧ sweepLive (s [5, 6]) 0 [5, 6] = [5, 6] ∧ (partGet { s [] with gate := { (s []).gate with parts := [] } } 0).st ≠ .active ∧ ∀ l, l ∈ ({ left := [[], [], [], []] } : Sweep).left → sweepLive (s []) 0 l = []) := by decide +kernel

/-- The Gatehouse answers function 1 of partition 0, which holds a key pair of a digest signed at a time. -/
def keyed (l : SMap Ephemeral) (now : Nat) : State :=
  { hosted with
    gate := { hosted.gate with ephem := l },
    clk := { now := now },
    pcie := { hosted.pcie with funcs := [(0, { memSpace := true }), (1, { memSpace := true }), (2, { memSpace := true })] } }

/-- The cipher's verdict on a wrapped entry (entryOpen) is open: both of its clauses are met by whichever it gives. -/
theorem witness_KeyServiceMessagesAreAnswered :
    (keyed [] 0).tray.hub.gatehouse = true ∧ barOn (keyed [] 0) (0 : Func).val = true ∧ barOn (keyed [] 0) (1 : Func).val = true ∧ barOn (keyed [] 0) (2 : Func).val = true
    ∧ (keyed [] 0).gate.identityOff = false ∧ (partGet (keyed [] 0) 0).st = .active ∧ (partGet (keyed [] 0) 1).st ≠ .active ∧ pavOn (keyed [] 0) = true
    ∧ (let x : Ephemeral := { digest := 1, xPriv := 0, kemPriv := 0, at_ := 5 }
       mget (keyed [(0, x)] 0).gate.ephem 0 = some x ∧ x.at_ + 60000000000 ≤ (keyed [(0, x)] 60000000005).clk.now ∧ (keyed [(0, x)] 60000000004).clk.now < x.at_ + 60000000000
       ∧ x.digest ≠ 2 ∧ x.wrap = none ∧ mget (keyed [] 0).gate.ephem 0 = none
       ∧ (partGet (keyed [(1, x)] 0) 1).st ≠ .active ∧ mget (keyed [(1, x)] 0).gate.ephem 1 = some x)
    ∧ kindCode (keySlot (keyed [] 0) 2).kind = 3 ∧ (keySlot (keyed [] 0) 2).owner.toNat = 0 ∧ (keySlot (keyed [] 0) 2).old = none
    ∧ ¬ kindCode (keySlot (keyed [] 0) 1).kind = 3
    ∧ (let k (o : Option (Nat × Nat)) (at_ : BitVec 64) : State := { keyed [] 0 with gate := { hosted.gate with slots := [(2, { kind := .gcm, owner := 0, curKey := some 3, old := o, next := some (4, at_) })] } }
       (keySlot (k (some (15, 2)) 0) 2).old.isSome = true ∧ gcmHolds (k (some (15, 2)) 0) 2 15 = false
       ∧ (keySlot (k none 0) (2 : Fin 64).val).next = some (4, 0) ∧ (0 : BitVec 64).toNat ≤ (k none 0).clk.timebase.toNat
       ∧ (keySlot (k none 1) (2 : Fin 64).val).next = some (4, 1) ∧ (k none 1).clk.timebase.toNat < (1 : BitVec 64).toNat) := by decide +kernel

/-- The signatures' verdicts (dualOk, Config.certified and the verifications of the agreement) are open; every other premise is met. -/
theorem witness_SlotsLifecycleAndPairKey :
    (MayStore own rqS 0x5410 61 [0, 0] ∧ MayStore own rqS 0x5410 1 [0, 0] ∧ MayStore own rqS 0x5410 3 [0, 0x30] ∧ MayStore own rqS 0x5410 60 [0, 0x40])
    ∧ ((keySlot own 0).kind = .xts ∧ (keySlot own 59).kind ≠ .xts ∧ (keySlot own 59).kind ≠ .siphash
       ∧ nfld (leNat [0, 0x40]) 15 12 = 4 ∧ nfld (leNat [0, 0x40]) 5 0 = 0 ∧ (partGet own 0).st = .active ∧ odGet own 0x5410 60 ≠ 4 * 4096 + 0
       ∧ nfld (leNat [0, 0]) 15 12 = 0)
    ∧ own.tray.hub.gatehouse = true ∧ own.fuses.lifecycle = .secured ∧ ({ own with fuses := { lifecycle := .rma } } : State).fuses.lifecycle ≠ .secured
    ∧ (let s : State := { own with pav := { own.pav with vals := [(odKey 0x6400 0, 1), (odKey 0x6401 0, 15)] } }
       trlOn s = true ∧ s.gate.identityOff = false ∧ s.tray.failed = false ∧ odGet s 0x6400 0 ≠ 0 ∧ odGet s 0x6401 0 ≠ 0xFF ∧ s.pair.role = .unpaired ∧ s.car.heldOut = []
       ∧ ({ s with pair := { role := .joining } } : State).pair.role = .joining ∧ ({ s with pair := { role := .active, partnerLost := true } } : State).pair.partnerLost = true) := by
  refine ⟨⟨stores_spec ?_, stores_spec ?_, stores_spec ?_, stores_spec ?_⟩, ?_⟩ <;> decide +kernel

theorem witness_HubContextsAreSetAndClosed :
    MayStore up rqS 0x6800 1 (List.replicate 32 0xFF) ∧ MayStore up rqS 0x6801 16 (List.replicate 8 0xFF) ∧ MayStore up rqS 0x6803 1 [1] ∧ MayStore up rqS 0x6803 16 [0]
    ∧ cvMismatch (BitVec.ofNat 256 (2 ^ 239 + 8 * 2 ^ 245 + 1)) 0 = true ∧ cvMismatch (BitVec.ofNat 256 (2 ^ 239 + 8 * 2 ^ 245)) 0 = false := by
  refine ⟨stores_spec ?_, stores_spec ?_, stores_spec ?_, stores_spec ?_, ?_⟩ <;> decide +kernel

/-! ### Witnesses: pairs -/

/-- A tray of a pair: mode, role, and the pair's state. -/
def paired (mode : Nat) (x : PairS') : State := { up with pair := x, pav := { up.pav with vals := [(odKey 0x6400 0, mode), (odKey 0x6401 0, 1)] } }

/-- A tray of a pair whose port 0 is UP and which holds the key of group 63. -/
def linked (mode : Nat) (x : PairS') : State :=
  { paired mode x with trl := { ports := [(0, upPort)] }, gate := { up.gate with slots := [(62, { kind := .trellis, owner := 0x3F, curKey := some 9 })] } }

theorem witness_SnapshotsAreCutStoredAndAcknowledged :
    let o : SnapOut := { seq := 3, cutAt := 5, handles := [0], toks := [], counts := [], retains := [] }
    let s (now : Nat) : State := { linked 1 { role := .active, out := some o } with clk := { now := now } }
    let cut (x : PairS') : State := linked 1 { x with cutDue := true }
    carOn up = true ∧ up.tray.failed = false ∧ noPartner up = true
    ∧ noPartner (s 0) = false ∧ (s 0).pair.role = .active ∧ odGet (s 0) 0x6400 0 = 1 ∧ (s 20000004).clk.now < o.cutAt + 20000000 ∧ o.cutAt + 20000000 ≤ (s 20000005).clk.now
    ∧ carOn { up with tray := { up.tray with hub := { up.tray.hub with carouselDma := false } } } = false
    ∧ (cut { role := .active }).pending = [] ∧ (cut { role := .active }).pair.cutDue = true ∧ (cut { role := .active }).tray.drain ≠ .inProgress
    ∧ noPartner (cut { role := .active }) = false ∧ g63Up (cut { role := .active }) = true ∧ carOn (cut { role := .active }) = true
    ∧ g63Up (paired 1 { role := .active, cutDue := true }) = false ∧ (paired 1 { role := .active, cutDue := true }).pair.cutDue = true
    ∧ noPartner (cut { role := .active, alone := true }) = true ∧ noPartner (cut { role := .active, partnerLost := true }) = true
    ∧ (s 20000005).clk.now ≤ o.cutAt + 20000000 ∧ g63Up (s 20000005) = true ∧ (4 : Nat) ≠ o.seq ∧ (s 0).pair.out = some o
    ∧ (s 0).wv.shuttingDown = false ∧ ({ s 20000005 with wv := { shuttingDown := true } } : State).wv.shuttingDown = true ∧ (s 20000005).tray.failedThermal = false
    ∧ ({ s 20000005 with tray := { up.tray with drain := .inProgress } } : State).tray.drain = .inProgress ∧ (s 0).pair.yielded = false ∧ (s 0).tray.drain ≠ .inProgress
    ∧ (linked 1 { role := .standby, sealed := true }).pair.sealed = true ∧ (linked 1 { role := .standby }).pair.sealed = false
    ∧ g63Up (linked 1 { role := .standby }) = true ∧ (linked 1 { role := .rehearsing }).pair.role = .rehearsing
    ∧ snapCheck 3 [.entry 0 0] + 1 ≠ snapCheck 3 [.entry 0 0] := by decide +kernel

theorem witness_MembersCompareAndProve :
    let s (own : Option (BitVec 64)) : State := linked 2 { role := .active, partnerRole := some .follower, compare := [(16 * 9 + 15, { seq := 9, own := own })], proof := [15] }
    (linked 2 { role := .follower }).pair.role = .follower ∧ g63Up (linked 2 { role := .follower }) = true ∧ up.pair.role ≠ .follower
    ∧ comparing up = false ∧ comparing (s none) = true ∧ g63Up (s none) = true ∧ g63Up (paired 2 { role := .follower }) = false
    ∧ (mgetD (s none).pair.compare (16 * 9 + (15 : PartId).val) { seq := 9 }).own = none
    ∧ (mgetD (s (some 7)).pair.compare (16 * 9 + (15 : PartId).val) { seq := 9 }).own = some 7 ∧ (7 : BitVec 64) ≠ 8
    ∧ (s none).tray.failed = false ∧ (15 : PartId).val ∈ (s none).pair.proof ∧ (0 : PartId).val ∉ (s none).pair.proof
    ∧ (s none).pair.role ≠ .follower ∧ (s none).pair.role ≠ .unpaired ∧ up.pair.role = .unpaired := by decide +kernel

theorem witness_TakeoversYieldsAndRehearsalsMoveTheRole :
    let st (lost : Bool) : State := paired 1 { role := .standby, partnerRole := some .active, partnerLost := lost }
    let at_ (now : Nat) : State := { paired 1 { role := .standby, partnerRole := some .active, lastRehearsal := some (5, false) } with clk := { now := now } }
    (st true).tray.failed = false ∧ (st false).pair.partnerLost = false ∧ (st true).pair.partnerLost = true ∧ (st true).pair.role = .standby
    ∧ (TakeoverCause.yieldRequest ≠ TakeoverCause.silent ∨ (st false).pair.partnerLost = true)
    ∧ (paired 2 { role := .follower }).pair.role = .follower ∧ (paired 1 { role := .active }).pair.role = .active
    ∧ odGet (paired 2 { role := .active }) 0x6400 0 = 2 ∧ odGet (paired 1 { role := .active }) 0x6400 0 ≠ 2 ∧ up.pair.role = .unpaired
    ∧ (at_ 0).pair.partnerRole = some .active
    ∧ 5 + odGet (at_ 0) 0x6405 0 * 3600000000000 ≤ (at_ (5 + odGet (at_ 0) 0x6405 0 * 3600000000000)).clk.now
    ∧ ¬ 5 + odGet (at_ 0) 0x6405 0 * 3600000000000 ≤ (at_ (4 + odGet (at_ 0) 0x6405 0 * 3600000000000)).clk.now
    ∧ (paired 1 { role := .rehearsing }).pair.role = .rehearsing ∧ ¬ (([] : List Nat)[(0 : Fin 16).val]? = some 0) ∧ (fencedMask (paired 1 { role := .rehearsing })).testBit 0 = false := by decide +kernel

theorem witness_TakeoversYieldsAndRehearsalsMoveTheRole_writes :
    MayStore (paired 1 { role := .active }) rqS 0x640C 0 [1] ∧ MayStore (paired 1 { role := .standby, partnerRole := some .active }) rqS 0x6406 0 [1] :=
  ⟨stores_spec (by decide +kernel), stores_spec (by decide +kernel)⟩

theorem witness_TakeoversYieldsAndRehearsalsMoveTheRole_answers :
    ∀ q : Fin 16, (fencedMask (paired 1 { role := .rehearsing })).testBit q.val = false → ((List.range 16).map Config.knownAnswer)[q.val]? = some (Config.knownAnswer q.val) := by
  intro q _; rw [List.getElem?_map, List.getElem?_range q.isLt]; rfl

/-! ### Witnesses: Pavilion -/

/-- An access by the window of function 1, whose role is OPERATOR. -/
def rqW : DictReq := ⟨.window 1, 0, true⟩

theorem witness_ObjectOperationsAnswer :
    pavOn up = true ∧ odRow 0x0FFF 0 = none ∧ odRow 0x0403 3 = none
    ∧ (∀ r, odRow 0x0403 1 = some r → mayRead up rqS.src 0x0403 1 r.acc = true ∧ mayRead up rqW.src 0x0403 1 r.acc = false
      ∧ mayWrite up rqS.src 0x0403 1 r.acc = true ∧ mayWrite up rqW.src 0x0403 1 r.acc = false ∧ r.clamp = .range 1 239 ∧ r.size = 1)
    ∧ (isGrant 0x0403 = false ∧ 0x0403 ∉ [0x0402, 0x1002, 0x1101, 0x6020, 0x6021, 0x6401, 0x7C01])
    ∧ indexedOf 0x0403 1 rqS [0] up = none ∧ soloOf 0x0403 rqS [0] up = none ∧ perturbObj 0x0403 = false
    ∧ indexedOf 0x0403 1 rqS [0, 0] up = none ∧ soloOf 0x0403 rqS [0, 0] up = none := by
  refine ⟨by decide +kernel, by decide +kernel, by decide +kernel, ?_, by decide +kernel, by decide +kernel, by decide +kernel, by decide +kernel, by decide +kernel, by decide +kernel⟩
  intro r hr
  have h : odRow 0x0403 1 = some ⟨0x0403, 1, 1, 1, .rws, 8, .range 1 239⟩ := by decide +kernel
  rw [h] at hr
  cases hr
  decide +kernel

/-- Sessions as given at a time. -/
def sessions (l : SMap Sess) (now : Nat) : State := { up with pav := { sessions := l }, clk := { now := now } }

/-- The verdicts on a credential (authOk) and on a sealed message (Config.gcmOpen) are the ciphers'; the other premises are met. -/
theorem witness_SessionsOpenAuthenticateAndEnd :
    (let b : List Byte := [1, 1] ++ List.replicate 1250 0
     b.length = 1252 ∧ (b.getD 0 0).toNat ≤ 1 ∧ 1 ≤ (b.getD 1 0).toNat ∧ ¬ 1 ≤ (([1, 0] ++ List.replicate 1250 0 : List Byte).getD 1 0).toNat
     ∧ pavOn up = true ∧ up.tray.hub.gatehouse = true ∧ up.gate.identityOff = false ∧ sessFree up = some 1
     ∧ sessFree (sessions ((List.range 8).map fun i => (i, { isOpen := true })) 0) = none)
    ∧ (let x : Sess := { lastAt := 5, rxHigh := 70, rxSeen := [70] }
       mget (sessions [(7, x)] 0).pav.sessions (7 : Fin 8).val = some x ∧ x.isOpen = false ∧ authOk (sessions [(7, x)] 0) x [] = false
       ∧ odGet (sessions [(7, x)] 0) 0x0405 0 = 60 ∧ x.lastAt + 60 * 1000000000 ≤ (sessions [(7, x)] 60000000005).clk.now
       ∧ (sessions [(7, x)] 60000000004).clk.now < x.lastAt + 60 * 1000000000
       ∧ (List.replicate 1216 (0 : Byte)).length ≤ 1216
       ∧ sessOf (sessions [(7, x)] 0) 8 = some (7, x) ∧ (seqFresh x 6 && (x.isOpen != ((4 : Byte) == 4))) = true
       ∧ (seqFresh x 5 && (x.isOpen != ((4 : Byte) == 4))) = false ∧ (seqFresh x 70 && (x.isOpen != ((4 : Byte) == 4))) = false
       ∧ sessOf (sessions [(7, x)] 0) 7 = none ∧ (30119 : Nat) ≠ 30120
       ∧ (seqFresh { x with isOpen := true } 71 && (({ x with isOpen := true } : Sess).isOpen != ((11 : Byte) == 4))) = true
       ∧ (seqFresh x 71 && (x.isOpen != ((11 : Byte) == 4))) = false
       ∧ ({ x with isOpen := true } : Sess).isOpen = true ∧ mget (sessions [(7, { x with isOpen := true })] 0).pav.sessions (7 : Fin 8).val = some { x with isOpen := true })
    ∧ (let s : State := { sessions [] 0 with pav := {} }
       claimed s = false ∧ stores s ⟨.window 0, 0, true⟩ 0x0400 16 (3 :: List.replicate 99 0) = true
       ∧ leNat (3 :: List.replicate 99 0 : List Byte) % 256 ≤ 4 ∧ leNat (3 :: List.replicate 99 0 : List Byte) / 256 % 2 ^ 24 = 0) := by decide +kernel

theorem witness_PavilionSubscribesNotifiesAndRestarts :
    let sub (i : Nat) : Sub := { idx := i, sub := 0, minMs := 10, lastAt := some 5, lastVal := 0 }
    let x (n : Nat) : Sess := { isOpen := true, role := .monitor, subs := (List.range n).map fun i => sub (0x9000 + i) }
    let s (n now : Nat) : State := sessions [(0, x n)] now
    pavOn (s 64 0) = true ∧ mget (s 64 0).pav.sessions (0 : Fin 8).val = some (x 64) ∧ (x 64).isOpen = true
    ∧ odRow 0x0FFF 0 = none ∧ mayRead (s 64 0) rqS.src 0x0403 1 .rws = false ∧ mayRead (s 64 0) rqS.src 0x0001 0 .ro = true
    ∧ 64 ≤ ((x 64).subs.filter fun u => !(u.idx == 1 && u.sub == 0)).length ∧ ((x 63).subs.filter fun u => !(u.idx == 1 && u.sub == 0)).length < 64
    ∧ (odRow 0x0001 0).isSome = true
    ∧ (let y : Sess := { isOpen := true, role := .monitor, subs := [sub 1] }
       let s (now : Nat) : State := sessions [(0, y)] now
       (y.subs.find? fun u => u.idx == (1 : BitVec 16).toNat && u.sub == (0 : Byte).toNat) = some (sub 1) ∧ odValue (s 0) 1 0 ≠ (sub 1).lastVal
       ∧ (s 10000004).clk.now < 5 + (sub 1).minMs * 1000000 ∧ ¬ (s 10000005).clk.now < 5 + (sub 1).minMs * 1000000)
    ∧ up.tray.hub.pavilion = true ∧ ({ up with pav := { restarting := true } } : State).pav.restarting = true
    ∧ stores up rqS 0x0408 0 [1] = true ∧ stores up rqS 0x7C03 0 [1] = true ∧ mayRead up rqS.src 0x7C02 0 .ro = true
    ∧ ([] : List Byte) ≠ linkLocal up 0 ∧ ([] : List Byte) ≠ uniqueLocal up 0 := by decide +kernel

theorem witness_CounterClearsReturnTheirCounters :
    ∀ i, i ∈ [0x4014, 0x4027, 0x2014, 0x2404, 0x4035, 0x3035, 0x3016, 0x7018, 0x6042, 0x140A, 0x1508, 0x1605, 0x640D, 0x6806, 0x7C26, 0x7C12] → MayStore up rqS i 0 [1] := by
  intro i hi
  apply stores_spec
  revert i
  decide +kernel

/-! ### Witnesses: the host interface -/

theorem witness_FunctionsQuiesceDisableAndIdle :
    let s (x : FuncS) : State := { hosted with pcie := { hosted.pcie with funcs := [(1, { x with memSpace := true })] } }
    barOn (s {}) ((0 : Vf).val + 1) = true ∧ (fnGet (s {}) 1).st = .idle ∧ (fnGet (s { st := .running }) 1).st = .running ∧ (fnGet (s { st := .quiescing }) 1).st = .quiescing ∧ (fnGet (s { st := .ending }) 1).st = .ending
    ∧ pcieOn (s {}) = true ∧ workDone (s { st := .ending }) 0 = true
    ∧ workDone (onEngine (s { st := .ending }) .hub [gcmJob 2]) 0 = false := by decide +kernel

theorem witness_RegistersConfigurationAndDiscards :
    let s (x : FuncS) : State := { hosted with pcie := { hosted.pcie with funcs := [(0, { memSpace := true }), (1, { x with memSpace := true })] } }
    barOn (s {}) ((0 : Vf).val + 1) = true
    ∧ (let x : FuncS := { cq := [(0, { log2 := 8 })] }
       (sqGet x 7).log2 = 0 ∧ (cqGet x 0).log2 ≠ 0 ∧ (∀ i, i < 8 → i ≠ 7 → (sqGet x i).log2 = 0) ∧ (cqGet x 8).log2 = 0)
    ∧ (let x : FuncS := { sq := [(0, { log2 := 6 })] }
       (sqGet x 0).log2 ≠ 0 ∧ (sqGet x 0).log2 ≠ 12)
    ∧ barOn (s {}) (0 : Func).val = true
    ∧ (judgedGet { hosted with clk := { judged := [(41, { stable := false })] } } 41).stable = false ∧ pcieOn { hosted with tray := { up.tray with hub := { allOn with pcie := false } } } = false
    ∧ (let t (now : Nat) (e : Bool) : State := { s {} with tray := { up.tray with powerGoodAt := 5 }, clk := { now := now }, pcie := { hosted.pcie with vfEnable := e } }
       pcieOn (t 0 true) = true ∧ (judgedGet (t 0 true) 41).stable = true ∧ (t 600000004 true).clk.now < (t 0 true).tray.powerGoodAt + 600000000
       ∧ (t 0 true).tray.powerGoodAt + 600000000 ≤ (t 600000005 true).clk.now ∧ (t 600000005 false).pcie.vfEnable = false)
    ∧ (let t : State := { onEngine hosted .hub [{ gcmJob 2 with hostTag := some 7 }] with dma := { queues := [(68, [{ gcmJob 2 with hostTag := some 7 }])], outstanding := [(7, 1)] } }
       mget t.dma.outstanding 7 = some 1 ∧ tagJob t 7 = some (0, { gcmJob 2 with hostTag := some 7 }) ∧ dGcm (gcmJob 2).desc = true ∧ mget t.dma.outstanding 8 = none) := by
  decide +kernel

/-- No ring of a function whose registers are at their defaults is enabled. -/
theorem witness_RegistersConfigurationAndDiscards_rings : ∀ i, i ≠ 7 → (sqGet { cq := [(0, { log2 := 8 })] } i).log2 = 0 := fun _ _ => rfl

/-! ### Witnesses: clocks -/

theorem witness_EdgesAndJudgementsSteerTheClocks :
    let e (at_ x now tb : Nat) : State := { up with clk := { now := now, timebase := BitVec.ofNat 64 tb, lastEdge := some (at_, BitVec.ofNat 64 x), mode := .locked } }
    up.tray.hub.hubCommon = true ∧ clkRuns up 0x26 = true ∧ up.clk.lastEdge = none
    ∧ 5 + 1500000000 < (e 5 0 1500000006 0).clk.now ∧ (e 5 0 1500000005 0).clk.now ≤ 5 + 1500000000
    ∧ ((e 0 0 0 1000010001).clk.timebase.toNat : Int) - 0 > 1000010000 ∧ ((e 0 0 0 999989999).clk.timebase.toNat : Int) - 0 < 999990000
    ∧ (999990000 : Int) ≤ (e 0 1000 0 1000001000).clk.timebase.toNat - (1000 : Int) ∧ ((1000001000 : Nat) : Int) - edgeExpected (e 0 1000 0 1000001000) = 1000
    ∧ ((999999000 : Nat) : Int) - edgeExpected (e 0 0 0 999999000) = -1000
    ∧ ((1000001001 : Nat) : Int) - edgeExpected (e 0 1001 0 1000001001) = 1001 ∧ ((999998999 : Nat) : Int) - edgeExpected (e 0 0 0 999998999) = -1001
    ∧ ({ slewing := true } : ClockS).slew = 0 ∧ ({ slew := 1 } : ClockS).slew ≠ 0
    ∧ (e 5 0 0 0).clk.mode = .locked ∧ 5 + 1500000000 ≤ (e 5 0 1500000005 0).clk.now ∧ up.clk.mode ≠ .locked ∧ (e 5 0 1500000004 0).clk.now < 5 + 1500000000 := by decide +kernel

theorem witness_EdgesAndJudgementsSteerTheClocks_judged :
    let j (k : Nat) (x : Judgement) (now : Nat) : State := { up with clk := { judged := [(k, x)], now := now } }
    let half := odGet up 0x1020 3
    judgedOn up (.domain 0x15) = true ∧ judgedOn up .tcxo = true ∧ judgedOn up .refclk = true ∧ Judged.domain 0x15 ≠ .tcxo ∧ Judged.domain 0x15 ≠ .domain 0x17
    ∧ countOk up (.domain 0x15) 0 = false ∧ countOk up .tcxo 0 = false ∧ up.tray.failed = false
    ∧ countOk up .refclk ((judgedNominal up .refclk).1 * odGet up 0x1020 2 / 1000000) = true
    ∧ (judgedGet up 41).stable = true ∧ (judgedGet (j 41 { stable := false } 0) 41).stable = false
    ∧ 0 + 1 < half ∧ half ≤ (half - 1) + 1
    ∧ (0 ∈ domSources 0x16 ∧ 1 ∈ domSources 0x16) ∧ domHeld up 0x16 = false ∧ domOn up 0x16 = true ∧ (domSource up 0x16 ≠ 0 ∨ domSource up 0x16 ≠ 1)
    ∧ sourceStable up 0x16 0 = true ∧ sourceStable up 0x16 1 = true ∧ sourceStable (j 40 { stable := false } 0) 0x16 1 = false
    ∧ sourceReady up 0x16 0 = true ∧ sourceReady up 0x16 1 = true ∧ sourceReady (j 40 { stable := false } 0) 0x16 1 = false
    ∧ up.clk.halts = []
    ∧ (let h : State := { up with clk := { halts := [(0x16, { until_ := 9, old := 0 })], source := [(0x15, 1)] } }
       mget h.clk.halts 0x16 = some { until_ := 9, old := 0 } ∧ sourceKey 0x16 (domSource h 0x16) = some (judgedKey .tcxo) ∧ domOn h 0x16 = true ∧ domSource h 0x16 ≠ 0)
    ∧ judgedOn (port upPort) (.domain 0x17) = true ∧ countOk (port upPort) (.domain 0x17) 0 = false
    ∧ stores up rqS 0x1000 0x16 [0] = true ∧ stores up rqS 0x1000 0x16 [1] = true
    ∧ (let r (now : Nat) : State := { port upPort with clk := { judged := [(0x17, { since := 5 })], now := now, source := [(0x18, 0)] }, pav := { up.pav with vals := [(odKey 0x1000 0x19, 2)] } }
       (portGet (r 0) 0).st = .up ∧ (judgedGet (r 0) 0x17).stable = true ∧ domSource (r 0) 0x19 = 0 ∧ odGet (r 0) 0x1000 0x19 = 2 ∧ (r 0).tray.hub.trellis = true
       ∧ 5 + 1000000000 ≤ (r 1000000005).clk.now ∧ (r 1000000004).clk.now < 5 + 1000000000)
    ∧ stores up rqS 0x1010 0 [50] = true ∧ stores up rqS 0x1001 4 [0x40, 0x06] = true
    ∧ (∃ x, x ∈ serving.car.reqs ∧ live x.2 = true ∧ x.2.classE = false) ∧ odGet serving 0x1010 0 < min 50 (leNat [50]) ∧ min 50 (leNat [0]) ≤ odGet serving 0x1010 0 := by decide +kernel

/-! ### Witnesses: update, errors, perturbation -/

/-- The check of an image rests on signatures (fwCheck), a block on its cipher; where a clause names one of these verdicts it is met by that verdict. -/
theorem witness_UpdatesAreDeliveredArmedAndActivated :
    let u (x : UpdS) : State := { up with upd := x }
    (∀ c, c ∈ [1, 2, 3] → stores up rqS 0x7E01 0 [BitVec.ofNat 8 c] = true) ∧ stores up rqS 0x7E02 0 (List.replicate 32 0) = true ∧ stores up rqS 0x7E03 0 (List.replicate 8 0xFF) = true
    ∧ stores up rqS 0x7E20 0 [0xFF, 0xFF] = true
    ∧ (u { st := .armed }).upd.st ≠ .activating ∧ (u { st := .activating }).upd.st = .activating ∧ (u { st := .receiving }).upd.st = .receiving ∧ (u {}).upd.st = .idle
    ∧ updComplete (u { st := .receiving }) = false ∧ updComplete (u { st := .receiving, gotHeader := true, length := 65537, blocks := [(1, []), (2, [])] }) = true
    ∧ ({ busy := 8 } : UpdS).busy.getLsbD 3 = true ∧ ({} : UpdS).busy.getLsbD 3 = false
    ∧ ({ st := .idle, gotHeader := true } : UpdS).st ≠ .receiving ∧ ({ st := .verified } : UpdS).st = .verified
    ∧ cdiv 65537 65536 = 2 ∧ nfld (leNat (leBytes 32 (2 + 65536 * 2 ^ 64))) 31 0 = 2 ∧ nfld (leNat (leBytes 32 (2 + 65536 * 2 ^ 64))) 95 64 = 65536
    ∧ (let s : State := { up with pcie := { fwWindow := [(0, 1), (5, 1)] } }
       let bs := bufferBytes s 0 200
       (bs.getD 0 0).toNat = 1 ∧ leNat (hdr bs 16 16) = s.fuses.serial.toNat ∧ leNat (hdr bs 4 4) = 256)
    ∧ armBar up (armTime up 0) = 0 ∧ armTime up 0 = 1000000000 ∧ armTime up (2 ^ 64 - 1) = 2592000000000000
    ∧ armBar { up with tray := { up.tray with measurements := List.replicate 24 ⟨0, 1, 0⟩ } } 5 = 11
    ∧ (let a (now : Nat) (r : Role) : State := { u { st := .armed, armed := 7 } with clk := { timebase := BitVec.ofNat 64 now }, pair := { role := r } }
       (a 6 .unpaired).clk.timebase.toNat < (a 6 .unpaired).upd.armed.toNat ∧ (a 7 .unpaired).upd.armed.toNat ≤ (a 7 .unpaired).clk.timebase.toNat
       ∧ roleActivates (a 7 .unpaired) = true ∧ roleActivates (a 7 .joining) = false ∧ roleActivates (a 7 .active) = false)
    ∧ partnerReady (u { st := .activating }) = true ∧ partnerReady { u { st := .activating } with pair := { role := .active, partnerRole := some .standby } } = false
    ∧ (0 : Nat) < up.fuses.floors.length ∧ 15 < up.fuses.floors.length := by decide +kernel

/-- A tester's session is open. -/
def tested : State := { up with pav := { sessions := [(0, { isOpen := true, role := .test })] } }

theorem witness_ErrorsReplayFenceOrFail :
    let seen (k : Nat) : State := { stepping with err := { seen := [(k, [0])] } }
    let tired : State := running none 0 { run0 with replays := 4 }
    sitePowered State.reset .hubStore = false ∧ sitePowered State.reset (.coreStore 0 0) = false
    ∧ (∀ site, site ∈ [.coreStore 255 7, .clusterStore 31 7, .dieCommon 15 7, .dieLink 15, .hubStore] → sitePowered stepping site = true)
    ∧ (∀ res, res ∈ [locOfCore 255 * 8 + 7, 2 ^ 24 + locOfClus 31 * 8 + 7, 2 ^ 25 + 3 * 8 + 7, 2 ^ 26 + 3] → seenWithin stepping res = [] ∧ seenWithin (seen res) res ≠ [])
    ∧ mget stepping.car.steps (quadOwner stepping (coreQuad 255)) = none
    ∧ mget tired.car.steps (quadOwner tired (coreQuad 255)) = some { run0 with replays := 4 } ∧ seenWithin tired (locOfCore 255 * 8 + 7) = []
    ∧ clusCtxs stepping (coreClus 0) = [0] ∧ (ctxGet stepping 0).step ≠ none ∧ (ctxGet stepping 0).fault = none
    ∧ stepping.tray.failed = false ∧ stepping.pair.role = .unpaired ∧ (paired 1 { role := .active }).pair.role = .active
    ∧ ({ up with tray := { up.tray with failed := true } } : State).tray.failed = true := by decide +kernel

theorem witness_ErrorsReplayFenceOrFail_injection :
    let w : State := { tested with pav := { vals := [(odKey 0x7810 0, 3 * 2 ^ 60)] } }
    stores tested rqS 0x7810 0 (leBytes 8 (3 * 2 ^ 60)) = true ∧ injectUnit tested (min 5 (injKind (3 * 2 ^ 60)) * 2 ^ 60) = true
    ∧ injectUnit tested (min 5 (injKind 0) * 2 ^ 60) = false ∧ injectUnit w (odGet w 0x7810 0) = true ∧ injectUnit tested (odGet tested 0x7810 0) = false
    ∧ pavOn tested = true ∧ (0x77FF : BitVec 16).toNat < 0x7800 ∧ 0x7808 < (0x7809 : BitVec 16).toNat
    ∧ (∀ x, x ∈ [(0x7801, 16, [0xFF, 65]), (0x7802, 16, [0xFF, 0xFF]), (0x7803, 4, [0xFF, 0xFF]), (0x7804, 2, [0xFF, 0xFF]), (0x7805, 0, [0xFF, 0xFF]), (0x7806, 0, [0xFF, 0xFF])] →
        stores tested rqS x.1 x.2.1 x.2.2 = true)
    ∧ stores tested rqS 0x7808 0 [0, 0, 0, 0] = true := by decide +kernel

/-! ### Witnesses: power, resets and heat -/

/-- A seated tray, its switch closed, with the straps as given. -/
def switched (bad : Bool) : State := { State.reset with tray := { preCharge := true, presence := .asserted, mainSwitch := true, strapBad := bad } }

/-- The check of an image rests on its two signatures (dualOk); with that verdict a seated tray's nine images pass. -/
theorem witness_PowerGoodBootsTheTray_images (h : dualOk (switched false) 0 0 0 0 0 = true) (c : Nat) (hc : c < 9) :
    ∃ i, mget (switched false).flash.images c = some i ∧ i.comp = c ∧ fwCheck (switched false) i = 0 := by
  refine ⟨{ comp := c }, ?_, rfl, ?_⟩
  · rcases c with _ | _ | _ | _ | _ | _ | _ | _ | _ | c <;> first | rfl | (exfalso; omega)
  · have hf : ∀ k, k < 9 → (switched false).fuses.floors.getD k 0 = 0 := by decide +kernel
    have : ¬ 8 < c := by omega
    have hv : ¬ (1 < (switched false).fuses.floors.getD c 0 ∨ (1 : Nat) = 0 ∨ (1 : Nat) > 64) := by rw [hf c hc]; omega
    unfold fwCheck
    rw [h, if_neg (by decide), if_neg hv, if_neg (fun hh => hh rfl), if_neg this]

theorem witness_PowerGoodBootsTheTray :
    (let contact : State := { State.reset with tray := { preCharge := true } }
     let seated : State := { State.reset with tray := { preCharge := true, presence := .asserted } }
     contact.tray.preCharge = true ∧ contact.tray.presence ≠ .asserted ∧ State.reset.tray.preCharge = false ∧ seated.tray.presence = .asserted
     ∧ popcount 5 (0 : BitVec 5).toNat % 2 = 0 ∧ popcount 5 (31 : BitVec 5).toNat % 2 ≠ 0
     ∧ (48000 * 95 ≤ 45600 * 100) ∧ ¬ (48000 * 95 ≤ 45599 * 100))
    ∧ (∀ b, (switched b).tray.mainSwitch = true ∧ (switched b).tray.presence = .asserted ∧ (switched b).tray.mainGood = false ∧ (switched b).tray.strapBad = b ∧ (switched b).fuses.lifecycle ≠ .rma)
    ∧ ({ switched false with fuses := { lifecycle := .rma } } : State).fuses.lifecycle = .rma
    ∧ mget { switched false with flash := { images := [] } }.flash.images 0 = none ∧ State.reset.tray.mainSwitch = false
    ∧ (let s : State := { up with tray := { up.tray with measurements := [⟨8, 1, 0⟩] } }
       s.tray.failed = false ∧ s.tray.mainGood = true ∧ (∃ m, m ∈ s.tray.measurements ∧ m.comp = (8 : Fin 9).val) ∧ (switched false).tray.mainGood = false) := by decide +kernel

theorem witness_PowerLossAndDrainLeaveNoKeys :
    let d (x : Drain) (r : Role) : State := { up with tray := { up.tray with drain := x }, pair := { role := r } }
    let act : State := { d .none .active with pair := { role := .active, partnerRole := some .standby }, pav := { up.pav with vals := [(odKey 0x6400 0, 1)] } }
    up.tray.failed = false ∧ (d .completed .unpaired).tray.drain ≠ .none ∧ up.upd.st ≠ .activating ∧ up.tray.drain = .none
    ∧ (d .none .follower).pair.role = .follower ∧ (d .none .unpaired).car.steps = [] ∧ (running none 0 run0).car.steps ≠ []
    ∧ (d .none .standby).pair.role = .standby ∧ act.pair.role = .active ∧ act.pair.partnerRole = some .standby ∧ odGet act 0x6400 0 = 1 ∧ act.tray.drain = .none ∧ act.upd.st ≠ .activating
    ∧ (d .inProgress .active).tray.drain = .inProgress ∧ (d .inProgress .active).pair.yielded = false ∧ { act with pair := { yielded := true } }.pair.yielded = true := by decide +kernel

theorem witness_ResetsClearWhatTheyName :
    stores up rqS 0x7E10 0 [1] = true ∧ stores up rqS 0x7E10 0 [2] = true ∧ resetRuns up = false ∧ up.tray.failed = false
    ∧ stores { up with upd := { st := .activating } } rqS 0x7E10 0 [1] = true ∧ resetRuns { up with upd := { st := .activating } } = true
    ∧ stores { up with tray := { up.tray with resetting := true } } rqS 0x7E10 0 [2] = true ∧ resetRuns { up with tray := { up.tray with resetting := true } } = true
    ∧ activeParts up = [0] ∧ (partGet up 0).st = .active ∧ quadsOf up 0 = List.range 16
    ∧ stores up rqS 0x7E11 0 [BitVec.ofNat 8 (0 : PartId).val] = true ∧ stores up rqS 0x7E11 0 [BitVec.ofNat 8 (15 : PartId).val] = true ∧ (partGet up 15).st ≠ .active := by decide +kernel

/-- The state a command leaves. -/
def after (c : Instr) (s : State) : State := match exec c s with | .next t => t | _ => s

/-- Which setting the governor's cycle aims at rests on the quadrants' leakage (Config.leakage), so the clauses on what it aims at are met by that value alone. -/
theorem witness_PowerIsSampledGovernedAndCapped :
    let w (x : WeatherS) : State := { up with wv := x }
    up.tray.hub.hubCommon = true ∧ (w { acc := (1, 98) }).wv.acc.2 + 1 < 100 ∧ 100 ≤ (w { acc := (1, 99) }).wv.acc.2 + 1
    ∧ (let o (a b : Option Nat) (now : Nat) : State := { w { overSince := a, lastOver := b } with clk := { now := now } }
       (o (some 5) none 100005).wv.overSince = some 5 ∧ 5 + 100000 ≤ (o (some 5) none 100005).clk.now ∧ (o (some 5) none 100004).clk.now < 5 + 100000
       ∧ (o none (some 5) 5).wv.lastOver = some 5 ∧ (o none (some 5) 5).clk.now < 5 + odGet up 0x1401 2 * 1000000 ∧ up.wv.overSince = none ∧ up.wv.lastOver = none)
    ∧ up.tray.quadOn.getLsbD (15 : Quad).val = true ∧ ({ up with tray := { up.tray with quadOn := 1 } } : State).tray.quadOn.getLsbD (15 : Quad).val = false
    ∧ wvOn State.reset = false ∧ wvOn up = true ∧ 0 ∈ activeParts up ∧ 15 ∈ activeQuads up
    ∧ (w { rideThrough := true }).wv.rideThrough = true ∧ (qwGet (w { quads := [(15, { emergency := true })] }) 15).emergency = true ∧ (qwGet up 15).emergency = false ∧ up.wv.rideThrough = false
    ∧ (let q (x : QuadW) (now : Nat) : State := { w { quads := [(15, x)] } with clk := { now := now } }
       (qwGet up 15).trimDue = 0 ∧ (qwGet (q { trimDue := 5, trimAt := some 7 } 10006) 15).trimAt = some 7 ∧ (q { trimDue := 5, trimAt := some 7 } 10006).clk.now < 7 + 10000
       ∧ (qwGet (q { trimDue := -5 } 0) 15).trimDue ≠ 0 ∧ (qwGet (q { trimDue := -5 } 0) 15).trimAt = none ∧ ¬ (q { trimDue := 5, trimAt := some 7 } 10007).clk.now < 7 + 10000)
    ∧ stores up rqS 0x1400 1 [0x2C, 0x01] = true ∧ stores up rqS 0x1400 1 [0xB0, 0x04] = true
    ∧ (let s := w { inputMw := 300001 }
       min 1200 (max 300 (leNat [0x2C, 0x01])) < odGet s 0x1400 1 ∧ min 1200 (max 300 (leNat [0x2C, 0x01])) * 1000 < s.wv.inputMw) := by decide +kernel

/-- Readings of the quadrants and of H, 25 °C elsewhere but for the inlet. -/
def read0 (a b inlet : Int) : Readings := ⟨List.replicate 16 a, List.replicate 16 b, a, b, List.replicate 8 4000, inlet, 4000⟩

theorem witness_HeatThrottlesAndShutsDown_sensors :
    let hot : State := { up with tray := { up.tray with failed := true, failedThermal := true } }
    let t (a b inlet : Int) : State := after (.sensorRead (read0 a b inlet)) up
    up.tray.hub.hubCommon = true ∧ (read0 0 0 5999).inlet < 6000 ∧ coolFresh up 2 = false
    ∧ (let c : State := { up with wv := { coolAt := [(2, 0)] }, pav := { up.pav with vals := [(odKey 0x1504 2, 5999)] } }
       coolFresh c 2 = true ∧ coolTemp c 2 < 6000)
    ∧ tempOk 15000 = true ∧ tempOk (-4000) = true ∧ tempOk 15001 = false ∧ tempOk (-4001) = false
    ∧ up.tray.failedThermal = false ∧ (t 4000 4000 5001).wv.tinReal = true ∧ 5000 < (t 4000 4000 5001).wv.tin
    ∧ (({ up with tray := { up.tray with quadOn := 1 } } : State).tray.quadOn.getLsbD 15 = false) ∧ up.tray.quadOn.getLsbD 15 = true
    ∧ (t 4000 4000 3000).tray.quadOn.getLsbD 15 = true ∧ (t 10700 10700 3000).tray.quadOn.getLsbD 15 = true ∧ tooHot (t 10700 10700 3000) 15 0 = true
    ∧ ((5200 : Int) - 4000 ≤ 1200 ∧ (4000 : Int) - 5200 ≤ 1200) ∧ (1200 : Int) < 5201 - 4000 ∧ (400 : Int) < 4401 - 4000
    ∧ (mgetD (t 10500 10500 3000).wv.pairs 16 {}).gov = some 10500 ∧ (mgetD (t 11500 11500 3000).wv.pairs 16 {}).gov = some 11500
    ∧ (mgetD (t 16000 16000 3000).wv.pairs 16 {}).gov = none
    ∧ hot.tray.hub.hubCommon = true ∧ hot.tray.failedThermal = true ∧ tempOk 6000 = true ∧ 6000 ≤ (read0 4000 4000 6000).inlet := by decide +kernel

theorem witness_HeatThrottlesAndShutsDown :
    let w (x : WeatherS) (now : Nat) : State := { up with wv := x, clk := { now := now } }
    up.wv.shuttingDown = false
    ∧ (let hot (c : Nat) (now : Nat) (g : Int) : State := w { quads := [(15, { clock := c, emergency := true, stepAt := 5 })], pairs := [(15, { gov := some g })] } now
       (hot 1000 5 11499).tray.quadOn.getLsbD (15 : Quad).val = true ∧ (qwGet (hot 1000 5 11499) 15).emergency = true ∧ govTemp (hot 1000 5 11499) (15 : Quad).val = some 11499
       ∧ tooHot (hot 1000 5 10301) 15 200 = true ∧ tooHot (hot 1000 5 10300) 15 200 = false ∧ tooHot (hot 1000 5 10499) 15 0 = false ∧ tooHot (hot 1000 5 10500) 15 0 = true ∧ tooHot (hot 1000 5 10500) 15 200 = true
       ∧ (hot 1000 4 10500).clk.now < (qwGet (hot 1000 4 10500) 15).stepAt
       ∧ (qwGet (hot 1000 5 10500) 15).stepAt ≤ (hot 1000 5 10500).clk.now ∧ 500 < (qwGet (hot 501 5 10500) 15).clock ∧ (qwGet (hot 500 5 10500) 15).clock ≤ 500)
    ∧ (let p (now : Nat) : State := w { pairs := [(16, { agreeSince := some 5 })] } now
       (mgetD (p 0).wv.pairs (16 : Fin 17).val {}).agreeSince = some 5 ∧ 5 + 10000000000 ≤ (p 10000000005).clk.now ∧ (p 10000000004).clk.now < 5 + 10000000000)
    ∧ (∀ n : Fin 4, stores up rqS 0x1504 (n.val + 1) (List.replicate (if n.val = 0 then 2 else if n.val = 3 then 1 else 4) 255) = true) ∧ (min 3 (leNat [(2 : Byte)])).testBit 1 = true
    ∧ (let fast : State := { up with pav := { up.pav with vals := [(odKey 0x1504 1, 1000)] } }
       min 1200 (leNat [(0xF4 : Byte), 1]) + 500 ≤ odGet fast 0x1504 1)
    ∧ (let pr : State := paired 1 { role := .active, partnerRole := some .standby }
       let v : List Byte := [0x89, 0x13, 0, 0]
       (after (.coolingInputWrite rqS 1 v) up).wv.tinReal = true ∧ 5000 < (after (.coolingInputWrite rqS 1 v) up).wv.tin ∧ snapWaits up = false ∧ up.wv.shuttingDown = false
       ∧ stores pr rqS 0x1504 2 v = true ∧ snapWaits pr = true ∧ pr.wv.shuttingDown = false ∧ 5000 < (after (.coolingInputWrite rqS 1 v) pr).wv.tin)
    ∧ (let c (now : Nat) : State := w { coolAt := [(2, 5)] } now
       coolFresh (c 10000000005) ((1 : Fin 4).val + 1) = true ∧ coolFresh (c 10000000006) ((1 : Fin 4).val + 1) = false ∧ (c 0).wv.inlet = none ∧ (c 0).tray.failedThermal = false) := by decide +kernel

theorem witness_HeatThrottlesAndShutsDown_ends :
    let w (x : WeatherS) (now : Nat) : State := { up with wv := x, clk := { now := now } }
    up.wv.rideThrough = false
    ∧ (let v (on : Bool) (now : Nat) : State := w { rideThrough := on, rideOkSince := some 5 } now
       (v true 0).wv.rideOkSince = some 5 ∧ (v true 10000000005).wv.rideThrough = true ∧ 5 + 10000000000 ≤ (v true 10000000005).clk.now
       ∧ (v false 10000000005).wv.rideThrough = false ∧ ¬ 5 + 10000000000 ≤ (v true 10000000004).clk.now)
    ∧ (let f (now : Nat) : State := { w { coolSince := some 5 } now with tray := { up.tray with failedThermal := true } }
       (f 0).wv.coolSince = some 5 ∧ (f 0).tray.failedThermal = true ∧ (f 0).wv.rejoinReady = false ∧ ({ coolSince := some 5, rejoinReady := true } : WeatherS).rejoinReady = true ∧ 5 + 60000000000 ≤ (f 60000000005).clk.now ∧ (f 60000000004).clk.now < 5 + 60000000000) := by decide +kernel

theorem witness_DroopAndMarginAdjustTheClock :
    let d (x : QuadW) (trim : Nat) (now : Nat) : State := { up with wv := { quads := [(15, x)] }, pav := { vals := [(odKey 0x1600 16, trim)] }, clk := { now := now } }
    (d {} 0 0).tray.quadOn.getLsbD (15 : Quad).val = true ∧ (qwGet (d {} 0 0) 15).stretch = none ∧ (5 : Nat) + 200 ≤ (d { stretch := some (5, 1) } 0 205).clk.now ∧ (d { stretch := some (5, 1) } 0 204).clk.now < 5 + 200 ∧ (qwGet (d { stretch := some (3, 2) } 0 0) 15).stretch = some (3, 2)
    ∧ (qwGet (d { guard := 1, quietWindows := 100 } 0 0) 15).guard = 1 ∧ (100 : Nat) ≤ (qwGet (d { guard := 1, quietWindows := 100 } 0 0) 15).quietWindows
    ∧ (qwGet (d { guard := 1, quietWindows := 99 } 0 0) 15).quietWindows < 100
    ∧ trimMv (d { trimDue := 5 } 54 0) 15 + 5 < 60 ∧ 60 ≤ trimMv (d { trimDue := 5 } 55 0) 15 + 5 ∧ 60 ≤ trimMv (d {} 60 0) 15 + (qwGet (d {} 60 0) 15).trimDue ∧ 1000 < (qwGet (d { clock := 1001 } 60 0) 15).clock ∧ (qwGet (d { clock := 1000 } 60 0) 15).clock ≤ 1000
    ∧ (let s := d { clock := 1500 } 60 0
       odGet (after (.canaryFail 15 7) s) 0x1601 16 < (qwGet s 15).clock)
    ∧ (qwGet (d { canarySince := 5 } 0 86400000000005) 15).canarySince + 86400000000000 ≤ (d { canarySince := 5 } 0 86400000000005).clk.now
    ∧ -20 < trimMv (d {} 0xFFFFFFED 0) 15 + (qwGet (d {} 0 0) 15).trimDue ∧ trimMv (d { trimDue := -5 } 0xFFFFFFF1 0) 15 - 5 ≤ -20 ∧ (d {} 0 86400000000004).clk.now < 5 + 86400000000000 := by decide +kernel

/-! ### Witnesses: the machine -/

theorem witness_StepRunsTheFrontCommand : ({ up with pending := [.inputLoss, .overVoltage] } : State).pending = .inputLoss :: [.overVoltage] := by decide +kernel

theorem witness_AnIdleStepIsOneCycle :
    State.reset.pending = [] ∧ State.reset.tray.hub.hubCommon = false ∧ up.pending = [] ∧ up.tray.hub.hubCommon = true ∧ clkRuns up 0x26 = true ∧ up.clk.slewing = false := by decide +kernel

theorem witness_EveryStepKeepsTheMemoriesForm :
    let s : State := { up with pending := [.inputLoss], mem := { up.mem with sram := [(0, 1), (7, 2)] } }
    Memory.wf s.mem = true ∧ step s = .next (match step s with | .next t => t | _ => s) := by
  refine ⟨by decide +kernel, ?_⟩
  rfl

/-! ### Ill-formed commands are refused -/

theorem test_wf_value_longer_than_len : (Instr.dictWrite rqS 0x0403 1 (List.replicate 65536 0)).wf = false ∧ (Instr.dictWrite rqS 0x0403 1 [1]).wf = true := by
  simp only [Instr.wf, opOk, List.length_replicate]; decide +kernel

theorem test_wf_host_write_of_nine_bytes :
    (Instr.barWriteDiscard 0 0 9).wf = false ∧ (Instr.barWriteDiscard 0 (2 ^ 20) 4).wf = false ∧ (Instr.barWriteDiscard 0 (2 ^ 20 - 4) 4).wf = true
    ∧ (Instr.functionRegisterWrite 0 0 1 256).wf = false ∧ (Instr.functionRegisterWrite 0 0 1 255).wf = true := by decide +kernel

theorem test_wf_packet_of_part_blocks :
    (Instr.writePacket 0 ⟨0, List.replicate 31 0, 0⟩).wf = false ∧ (Instr.writePacket 0 ⟨0, List.replicate 4128 0, 0⟩).wf = false
    ∧ (Instr.writePacket 0 ⟨0, List.replicate 4096 0, 0⟩).wf = true := by decide +kernel

theorem test_wf_config_requests :
    (Instr.configRequest 0 (.read 4096)).wf = false ∧ (Instr.configRequest 0 (.read 4095)).wf = true ∧ (Instr.configRequest 0 (.numVfs 65536)).wf = false := by decide +kernel

theorem test_wf_counts_and_lists :
    (Instr.stabilityInterval .tcxo (2 ^ 64)).wf = false ∧ (Instr.governorCycle []).wf = false ∧ (Instr.powerSample 0 [1]).wf = false
    ∧ (Instr.sensorRead ⟨[], List.replicate 16 0, 0, 0, List.replicate 8 0, 0, 0⟩).wf = false ∧ (Instr.sensorRead ⟨List.replicate 16 0, [], 0, 0, List.replicate 8 0, 0, 0⟩).wf = false
    ∧ (Instr.sensorRead ⟨List.replicate 16 0, List.replicate 16 0, 0, 0, [], 0, 0⟩).wf = false ∧ (Instr.rehearsalEnd []).wf = false := by decide +kernel

theorem test_wf_numbers_in_range :
    (Instr.hbmRetrain 0 64).wf = false ∧ (Instr.prefixMatch 1048576).wf = false ∧ (Instr.frameRelease (2 ^ 28)).wf = false ∧ (Instr.flitReceive 0 0 ⟨true, 0⟩ 2049).wf = false
    ∧ (Instr.granuleScrub 262144 ⟨[], []⟩).wf = false ∧ (Instr.granuleScrub 0 ⟨[(2097152, 1)], []⟩).wf = false ∧ (Instr.datagramReceive 0 65536 []).wf = false
    ∧ (Instr.creditControlBlock 0 0 (2 ^ 16)).wf = false := by decide +kernel

theorem test_wf_datagram_too_long : (Instr.datagramReceive 0 0 (List.replicate 65508 0)).wf = false := by
  simp only [Instr.wf, List.length_replicate]; decide +kernel

theorem test_wf_image : ∀ i : Image, i.setupBase = [] → (Instr.loadImage i).wf = false := by
  intro i h
  simp [Instr.wf, imageOk, h]

theorem test_wf_image_services : ∀ i : Image, i.services.length = 9 → (Instr.loadImage i).wf = false := by
  intro i h
  simp [Instr.wf, imageOk, h]

/-! ### Worked examples of the spec -/

/-- The anchor group of 02_numerics.md: two blocks of E4M3 products under anchor 18. -/
theorem test_anchor_group_of_the_manual :
    let term (s x y : Nat) : Machine.Num := numMul (blockElem 6 s x) (blockElem 6 s y)
    let c := [term 0x7F 0x46 0x41, term 0x7F 0xBC 0x32, term 0x61 0x39 0x3B, term 0x61 0xB9 0x3B].foldl (accAdd 18) {}
    c.v.toInt = 111 * 2 ^ 42 - 1 ∧ (elemWrite 8 0 false 0 (accValue 18 c)).1 = 0x40DE ∧ (elemWrite 8 2 false 0 (accValue 18 c)).1 = 0x40DD := by decide +kernel

/-- The 4 × 4 sub-block of 05_memory_dma.md, from −20 to 35. -/
theorem test_sub_block_of_the_manual :
    let h := cmpHead [-20, 17, 35]
    h = (-20, 3) ∧ [-20, 17, 35].map (cmpCode h) = [0, 4, 6] ∧ [0, 4, 6].map (cmpDecode (-20) 3) = [-16, 16, 32] ∧ ux 8 h.1 = 0xEC := by decide +kernel

/-- PPS restored after holdover, 13_clocks_timebase.md: at the second valid edge e is +212 µs, and the timebase steps by −212 µs. -/
theorem test_pps_step_of_the_manual :
    let s : State := { up with clk := { now := 1000000005, timebase := 1201000212000, lastEdge := some (5, 1200000212000) } }
    let t := after .ppsEdge s
    t.clk.timebase = 1201000000000 ∧ t.clk.steps = [(1000000005, -212000)] ∧ odGet t 0x1105 0 = 1 ∧ odGet t 0x1103 0 = 212000 := by decide +kernel

/-- The row of 02_numerics.md split in two: both splits against the common maximum sum to the denominator of the whole row, 1.044790 to six places. -/
theorem test_split_row_of_the_manual :
    let a : List Machine.Num := [.fin false 13 (-2), .fin false 3 (-1)]
    let b : List Machine.Num := [.fin false 23 (-2), .fin true 1 (-1)]
    rowMax a = 4 ∧ rowMax b = 6 ∧ rowMax (a ++ b) = 6
    ∧ (softDen 6 (a ++ b)).v = (((a.map (softWeight 4)).map (weightMove 4 6)).foldl (accAdd 1) {}).v + (softDen 6 b).v
    ∧ (softDen 6 (a ++ b)).v.toInt * 1000000 / 2 ^ 63 = 1044790 := by decide +kernel

/-- R57 at 0: exp is 1, sigmoid ½, tanh 0; a fully masked row gives +0 and no flag (R62). -/
theorem test_composites_at_zero :
    fpExp 0 = 0x3F800000 ∧ fpSigmoid 0 = 0x3F000000 ∧ fpTanh 0 = 0 ∧ fpSilu 0 = 0 ∧ fpGelu 0 = 0 ∧ fpSigmoid 0xFF800000 = 0
    ∧ softOut 8 0 false 0 [3] [.inf true, .inf true] [.fin false 1 0, .fin false 1 1] = (0, 0) := by decide +kernel

/-! ### Single steps -/

/-- R523: straps of even parity are noted at presence, with the slot they spell. -/
theorem test_presence_samples_the_straps :
    let s : State := { State.reset with tray := { preCharge := true } }
    (after (.presenceAssert 0b10011) s).tray.slotId = 3 ∧ (after (.presenceAssert 0b10011) s).tray.strapBad = false ∧ (after (.presenceAssert 0b00011) s).tray.strapBad = true := by decide +kernel

/-- R53: a sum beyond the largest binary32 value overflows to infinity and sets OVF; IADD wraps. -/
theorem test_adds_at_the_ends :
    let c (x y : W32) : Core := { vregs := [(2, List.replicate 64 x), (3, List.replicate 64 y)] }
    let fa (x y : W32) : Core := coreGet (after (.fadd 0 v0) (withCore (c x y))) 0
    vlane (fa 0x3FC00000 0x40100000) 1 63 = 0x40700000 ∧ vlane (fa 0x7F7FFFFF 0x7F7FFFFF) 1 0 = 0x7F800000 ∧ (fa 0x7F7FFFFF 0x7F7FFFFF).flags = 2
    ∧ vlane (coreGet (after (.iadd 0 v0) (withCore (c 0xFFFFFFFF 2))) 0) 1 0 = 1 := by decide +kernel

/-- R462: a write below its range is clamped, stored and answered with what was stored. -/
theorem test_write_is_clamped : odGet (after (.dictWrite rqS 0x0403 1 [0]) up) 0x0403 1 = 1 ∧ odGet (after (.dictWrite rqS 0x0403 1 [240]) up) 0x0403 1 = 239 := by decide +kernel

/-- R506 and R522: loss of input leaves the tray unpowered; its time runs on. -/
theorem test_input_loss : (after .inputLoss up).tray.ready = false ∧ (after .inputLoss up).tray.quadOn = 0 := by decide +kernel

end Sys2Proof.Tests
end

section
/-! SUPPORT. Sync counters: what moving on, a POST and a SET make of one counter, what each sync command leaves of the state, and that they commit by quadrant cycle (R86, R88, R89, R336). -/

namespace Sys2Proof.Machine

open Sys2Proof Sys2Proof.Claims

/-! ### One counter -/

/-- A counter moved on stands where the earlier operations left it: a new cycle has no SET and no POST yet. -/
theorem cntRoll_later {x : Counter} {cyc : Nat} (h : x.cyc < cyc) :
    cntRoll x cyc = { base := cntValue x, cyc := cyc, set := none, posts := 0 } := if_pos h

/-- Within its cycle, or before it, a counter stays as it is. -/
theorem cntRoll_same {x : Counter} {cyc : Nat} (h : ¬ x.cyc < cyc) : cntRoll x cyc = x := if_neg h

/-- Moving on never changes what all operations together make of the value. -/
@[simp] theorem cntValue_cntRoll (x : Counter) (cyc : Nat) : cntValue (cntRoll x cyc) = cntValue x := by
  by_cases h : x.cyc < cyc
  · rw [cntRoll_later h]; simp [cntValue]
  · rw [cntRoll_same h]

/-- A counter moved on to a cycle has that cycle's starting value as its base. -/
@[simp] theorem cntRoll_base (x : Counter) (cyc : Nat) : (cntRoll x cyc).base = cntAt x cyc := by
  by_cases h : x.cyc < cyc
  · rw [cntRoll_later h, cntAt, if_pos h]
  · rw [cntRoll_same h, cntAt, if_neg h]

/-- A counter moved on to a cycle is not behind it. -/
theorem cntRoll_cyc_not_lt (x : Counter) (cyc : Nat) : ¬ (cntRoll x cyc).cyc < cyc := by
  by_cases h : x.cyc < cyc
  · rw [cntRoll_later h]; exact Nat.lt_irrefl cyc
  · rwa [cntRoll_same h]

/-- The POSTs that count in the cycle: those of an earlier one have committed. -/
theorem cntRoll_posts (x : Counter) (cyc : Nat) : (cntRoll x cyc).posts = if x.cyc < cyc then 0 else x.posts := by
  by_cases h : x.cyc < cyc
  · rw [cntRoll_later h, if_pos h]
  · rw [cntRoll_same h, if_neg h]

/-- The cycle has no SET yet: it is a new one, or nothing has set the counter in it. -/
theorem cntRoll_set_none {x : Counter} {cyc : Nat} (h : x.cyc < cyc ∨ x.set = none) : (cntRoll x cyc).set = none := by
  by_cases hlt : x.cyc < cyc
  · rw [cntRoll_later hlt]
  · rw [cntRoll_same hlt]; exact h.resolve_left hlt

/-- What a cycle's operations add to a counter moved on to it leaves the value at the cycle's start. -/
theorem cntAt_of_roll {x y : Counter} {cyc : Nat} (hb : y.base = (cntRoll x cyc).base) (hc : y.cyc = (cntRoll x cyc).cyc) :
    cntAt y cyc = cntAt x cyc := by
  have hy : ¬ y.cyc < cyc := hc ▸ cntRoll_cyc_not_lt x cyc
  rw [cntAt, if_neg hy, hb, cntRoll_base]

/-- A POST adds its amount. -/
@[simp] theorem cntValue_cntPosted (x : Counter) (amt : W32) (cyc : Nat) :
    cntValue (cntPosted x amt cyc) = cntValue x + amt := by
  rw [← cntValue_cntRoll x cyc]
  exact (BitVec.add_assoc _ _ _).symm

/-- A POST shows only after its cycle. -/
@[simp] theorem cntAt_cntPosted (x : Counter) (amt : W32) (cyc : Nat) : cntAt (cntPosted x amt cyc) cyc = cntAt x cyc :=
  cntAt_of_roll rfl rfl

/-- A SET shows only after its cycle. -/
@[simp] theorem cntAt_cntSetted (x : Counter) (loc : Nat) (v : W32) (cyc : Nat) :
    cntAt (cntSetted x loc v cyc) cyc = cntAt x cyc := cntAt_of_roll rfl rfl

/-- The first SET of a cycle comes before the cycle's POSTs, whichever arrived first. -/
theorem cntValue_cntSetted_first {x : Counter} {cyc : Nat} (loc : Nat) (v : W32) (h : x.cyc < cyc ∨ x.set = none) :
    cntValue (cntSetted x loc v cyc) = v + (if x.cyc < cyc then 0 else x.posts) := by
  rw [← cntRoll_posts]
  simp [cntValue, cntSetted, cntRoll_set_none h]

/-- The first SET of a cycle meets no conflict. -/
theorem cntConflict_first {x : Counter} {cyc : Nat} (h : x.cyc < cyc ∨ x.set = none) : cntConflict x cyc = false := by
  rw [cntConflict, cntRoll_set_none h]; rfl

/-- Of two SETs of one cycle that of the higher-numbered source comes before the cycle's POSTs. -/
theorem cntValue_cntSetted_again {x : Counter} {cyc l : Nat} {u : W32} (loc : Nat) (v : W32) (h : cyc ≤ x.cyc)
    (hs : x.set = some (l, u)) : cntValue (cntSetted x loc v cyc) = (if loc > l then v else u) + x.posts := by
  have hx : cntRoll x cyc = x := cntRoll_same (Nat.not_lt.mpr h)
  by_cases hl : loc > l <;> simp [cntValue, cntSetted, hx, hs, hl]

/-- A second SET of a cycle conflicts with the first. -/
theorem cntConflict_again {x : Counter} {cyc l : Nat} {u : W32} (h : cyc ≤ x.cyc) (hs : x.set = some (l, u)) :
    cntConflict x cyc = true := by
  rw [cntConflict, cntRoll_same (Nat.not_lt.mpr h), hs]; rfl

/-! ### The counter named, in the state -/

/-- Nothing but one sync counter differs. -/
def SyncOnly (c : SyncAt) (n : Nat) (s t : State) : Prop :=
  match c with
  | .cluster k => t = { s with sync := t.sync } ∧ ∀ i, i ≠ cntKey k.val n → mget t.sync i = mget s.sync i
  | .cabinet => t = { s with trl := { s.trl with cabinet := t.trl.cabinet } } ∧ ∀ i, i ≠ n → mget t.trl.cabinet i = mget s.trl.cabinet i

/-- What `syncPut` stores is read back. -/
@[simp] theorem syncGet_syncPut (s : State) (c : SyncAt) (n : Nat) (x : Counter) : syncGet (syncPut s c n x) c n = x := by
  cases c with
  | cluster k => exact mgetD_mset_same ..
  | cabinet => exact cabAt_cabPut ..

/-- `syncPut` changes the counter that it names and nothing else. -/
theorem syncPut_only (s : State) (c : SyncAt) (n : Nat) (x : Counter) : SyncOnly c n s (syncPut s c n x) := by
  cases c with
  | cluster k => exact ⟨rfl, fun _ hi => mget_mset_ne _ _ hi⟩
  | cabinet => exact ⟨rfl, fun _ hi => mget_mset_ne _ _ hi⟩

/-- `syncPut` leaves the dictionary alone. -/
@[simp] theorem odGet_syncPut (s : State) (c : SyncAt) (n : Nat) (x : Counter) (idx sub : Nat) :
    odGet (syncPut s c n x) idx sub = odGet s idx sub := by
  cases c <;> rfl

/-- The conflict of a SET as it is noted: on a cluster's counter only, and only where the cycle has a SET already (R88). -/
def setNoted (s : State) (c : SyncAt) (n cyc : Nat) : State :=
  match c with
  | .cluster k => if cntConflict (syncGet s c n) cyc then conflictNote s k.val else s
  | .cabinet => s

/-- Without a conflict nothing is noted. -/
theorem setNoted_first {s : State} {c : SyncAt} {n cyc : Nat} (h : cntConflict (syncGet s c n) cyc = false) :
    setNoted s c n cyc = s := by
  cases c with
  | cluster k => rw [setNoted, h]; rfl
  | cabinet => rfl

/-- A conflict on a cluster's counter is noted. -/
theorem setNoted_cluster {s : State} {k : Clus} {n cyc : Nat} (h : cntConflict (syncGet s (.cluster k) n) cyc = true) :
    setNoted s (.cluster k) n cyc = conflictNote s k.val := by
  rw [setNoted, h]; rfl

/-! ### The commands, case by case -/

section
variable {src : SyncSrc} {c : SyncAt} {n : Fin 1024} {s : State}

/-- A POST of the counter's partition goes to the counter. -/
theorem exec_syncPost_owned (hon : syncOn s c n.val = true) (hown : syncOwned s src.part.val c n.val = true)
    (amt : BitVec 16) (cyc : Nat) :
    exec (.syncPost src c n amt cyc) s = .next (syncPut s c n.val (cntPosted (syncGet s c n.val) (amt.setWidth 32) cyc)) := by
  simp [exec, execSyncPost, hon, hown]

/-- A POST of another partition is dropped. -/
theorem exec_syncPost_foreign (hon : syncOn s c n.val = true) (hown : syncOwned s src.part.val c n.val = false)
    (amt : BitVec 16) (cyc : Nat) : exec (.syncPost src c n amt cyc) s = .next (syncForeign s c) := by
  simp [exec, execSyncPost, hon, hown]

/-- A SET of the counter's partition goes to the counter, and a conflict is noted. -/
theorem exec_syncSet_owned (hon : syncOn s c n.val = true) (hown : syncOwned s src.part.val c n.val = true)
    (v : W32) (cyc : Nat) :
    exec (.syncSet src c n v cyc) s =
      .next (syncPut (setNoted s c n.val cyc) c n.val (cntSetted (syncGet s c n.val) src.loc.toNat v cyc)) := by
  cases c <;> simp [exec, execSyncSet, setNoted, hon, hown]

/-- A SET of another partition is dropped. -/
theorem exec_syncSet_foreign (hon : syncOn s c n.val = true) (hown : syncOwned s src.part.val c n.val = false)
    (v : W32) (cyc : Nat) : exec (.syncSet src c n v cyc) s = .next (syncForeign s c) := by
  simp [exec, execSyncSet, hon, hown]

/-- A WAIT at a powered counter is answered by the value at the start of its cycle. -/
theorem exec_syncWait_on (hon : syncOn s c n.val = true) (t : W32) (cyc : Nat) :
    exec (.syncWait src c n t cyc) s =
      .next (emit s (.syncSatisfied c n (waitOk (cntAt (syncGet s c n.val) cyc) t))) := by
  simp [exec, execSyncWait, hon]

/-- A READ of a powered counter is answered by the value at the start of its cycle. -/
theorem exec_syncRead_on (hon : syncOn s c n.val = true) (cyc : Nat) :
    exec (.syncRead src c n cyc) s = .next (emit s (.syncValue c n (cntAt (syncGet s c n.val) cyc))) := by
  simp [exec, execSyncRead, hon]

/-- A counter without power holds and answers nothing, whatever the operation. -/
theorem exec_sync_off (hoff : syncOn s c n.val = false) (amt : BitVec 16) (v : W32) (cyc : Nat) :
    exec (.syncPost src c n amt cyc) s = .next s ∧ exec (.syncSet src c n v cyc) s = .next s
    ∧ exec (.syncWait src c n v cyc) s = .next s ∧ exec (.syncRead src c n cyc) s = .next s := by
  simp [exec, execSyncPost, execSyncSet, execSyncWait, execSyncRead, hoff]

/-! ### What the commands leave -/

/-- A POST raises the counter after its cycle and nothing else. -/
theorem syncPost_owned_runs (hon : syncOn s c n.val = true) (hown : syncOwned s src.part.val c n.val = true)
    (amt : BitVec 16) (cyc : Nat) :
    Runs (.syncPost src c n amt cyc) s fun t => SyncOnly c n.val s t
      ∧ cntValue (syncGet t c n.val) = cntValue (syncGet s c n.val) + amt.setWidth 32
      ∧ cntAt (syncGet t c n.val) cyc = cntAt (syncGet s c n.val) cyc :=
  ⟨_, exec_syncPost_owned hon hown amt cyc, syncPut_only .., by simp, by simp⟩

/-- The first SET of a cycle sets the counter after its cycle, before the cycle's POSTs, and nothing else. -/
theorem syncSet_first_runs {cyc : Nat} (hon : syncOn s c n.val = true) (hown : syncOwned s src.part.val c n.val = true)
    (v : W32) (h : (syncGet s c n.val).cyc < cyc ∨ (syncGet s c n.val).set = none) :
    Runs (.syncSet src c n v cyc) s fun t => SyncOnly c n.val s t
      ∧ cntAt (syncGet t c n.val) cyc = cntAt (syncGet s c n.val) cyc
      ∧ cntValue (syncGet t c n.val) = v + (if (syncGet s c n.val).cyc < cyc then 0 else (syncGet s c n.val).posts) := by
  have run := exec_syncSet_owned hon hown v cyc
  rw [setNoted_first (cntConflict_first h)] at run
  refine ⟨_, run, syncPut_only .., by simp, ?_⟩
  rw [syncGet_syncPut, cntValue_cntSetted_first _ _ h]

/-- What a second SET of a cycle leaves beside the counter's value: on a cluster the conflict bit is set, on H nothing. -/
def ConflictShown (c : SyncAt) (n : Nat) (s t : State) : Prop :=
  match c with
  | .cluster k =>
    t = { s with sync := t.sync, pav := t.pav } ∧ (∀ i, i ≠ cntKey k.val n → mget t.sync i = mget s.sync i)
    ∧ odGet t 0x4011 (clusQuad k.val + 1) = odGet s 0x4011 (clusQuad k.val + 1) % 2 ^ 31 + 2 ^ 31
  | .cabinet => SyncOnly .cabinet n s t

/-- Storing a counter after noting a conflict shows the conflict. -/
theorem syncPut_setNoted_shown {cyc m : Nat} (x : Counter) (h : cntConflict (syncGet s c m) cyc = true) :
    ConflictShown c m s (syncPut (setNoted s c m cyc) c m x) := by
  cases c with
  | cluster k =>
    rw [setNoted_cluster h]
    refine ⟨rfl, fun _ hi => mget_mset_ne _ _ hi, ?_⟩
    rw [odGet_syncPut]
    exact odGet_odSet ..
  | cabinet => exact syncPut_only s .cabinet m x

/-- Of two SETs of a cycle the higher-numbered source's stands, and a cluster shows the conflict. -/
theorem syncSet_again_runs {cyc l : Nat} {u : W32} (hon : syncOn s c n.val = true)
    (hown : syncOwned s src.part.val c n.val = true) (v : W32) (h : cyc ≤ (syncGet s c n.val).cyc)
    (hs : (syncGet s c n.val).set = some (l, u)) :
    Runs (.syncSet src c n v cyc) s fun t =>
      cntValue (syncGet t c n.val) = (if src.loc.toNat > l then v else u) + (syncGet s c n.val).posts
      ∧ ConflictShown c n.val s t := by
  refine ⟨_, exec_syncSet_owned hon hown v cyc, ?_, syncPut_setNoted_shown _ (cntConflict_again h hs)⟩
  rw [syncGet_syncPut, cntValue_cntSetted_again _ _ h hs]

/-- What a dropped operation leaves: one more counted on a cluster's quadrant, nothing on H. -/
def ForeignCounted (c : SyncAt) (s t : State) : Prop :=
  match c with
  | .cluster k =>
    let flag := odGet s 0x4011 (clusQuad k.val + 1)
    t = { s with pav := t.pav }
    ∧ odGet t 0x4011 (clusQuad k.val + 1) = flag / 2 ^ 31 * 2 ^ 31 + min (flag % 2 ^ 31 + 1) (2 ^ 31 - 1)
  | .cabinet => t = s

/-- `syncForeign` counts the operation where it is counted, and does nothing else. -/
theorem syncForeign_counted (c : SyncAt) (s : State) : ForeignCounted c s (syncForeign s c) := by
  cases c with
  | cluster k => exact ⟨rfl, odGet_odSet ..⟩
  | cabinet => rfl

end

/-- Settles O8: each command's effect is one equation, and moving the counter on to the cycle keeps its value. -/
theorem syncCountersCommitByCycle : Obligations.SyncCountersCommitByCycle := by
  intro src c n cyc s
  refine ⟨fun hon hown => ⟨fun amt => ?post, fun v h => ?first, fun v l u h hs => ?again⟩,
    fun hon hown amt v => ?foreign, fun hon => ?answers, fun hoff amt v => ?off⟩
  case post => exact syncPost_owned_runs hon hown amt cyc
  case first => exact syncSet_first_runs hon hown v h
  case again => cases c <;> exact syncSet_again_runs hon hown v h hs
  case foreign =>
    exact ⟨⟨_, exec_syncPost_foreign hon hown amt cyc, syncForeign_counted c s⟩,
      ⟨_, exec_syncSet_foreign hon hown v cyc, syncForeign_counted c s⟩⟩
  case answers =>
    exact ⟨fun t => ⟨_, exec_syncWait_on hon t cyc, rfl⟩, ⟨_, exec_syncRead_on hon cyc, rfl⟩⟩
  case off =>
    obtain ⟨hpost, hset, hwait, hread⟩ := exec_sync_off hoff amt v cyc
    exact ⟨⟨s, hpost, rfl⟩, ⟨s, hset, rfl⟩, ⟨s, hwait, rfl⟩, ⟨s, hread, rfl⟩⟩

end Sys2Proof.Machine
end

section
/-! SUPPORT. Dictionary writes: what a clamp's record and an answer leave alone, and what a write that is admitted comes to (R462 to R469). -/

namespace Sys2Proof.Claims

open Sys2Proof Sys2Proof.Machine

theorem DictOnly.refl (s : State) : DictOnly s s := rfl

/-- A new dictionary is within the frame. -/
theorem DictOnly.pav (s : State) (p : PavS) : DictOnly s { s with pav := p } := rfl

theorem DictOnly.trans {s t u : State} (h : DictOnly s t) (k : DictOnly t u) : DictOnly s u := by
  have hframe := congrArg (fun x : State => { x with pav := u.pav, pcie := u.pcie, out := u.out }) h
  exact Eq.trans (show u = { t with pav := u.pav, pcie := u.pcie, out := u.out } from k) hframe

/-- Either branch keeps the frame. -/
theorem DictOnly.ite {c : Prop} [Decidable c] {s t u : State} (h : DictOnly s t) (k : DictOnly s u) :
    DictOnly s (if c then t else u) :=
  iteInduction (fun _ => h) fun _ => k

end Sys2Proof.Claims

namespace Sys2Proof.Machine

open Sys2Proof Sys2Proof.Claims

/-! ### The log -/

/-- A vector sent, or left pending while it is masked, is the physical function's and the outbox's alone. -/
theorem msixSend_dictOnly (s : State) (f v : Nat) : DictOnly s (msixSend s f v) :=
  DictOnly.ite (show DictOnly s (fnSet s f _) from rfl) (show DictOnly s (emit s _) from rfl)

/-- A record below class 4 does not go to flash. -/
theorem logPush_dictOnly {i : LogInfo} (s : State) (h : i.cls < 4) : DictOnly s (logPush s i) := by
  have hlow : ¬ i.cls ≥ 4 := Nat.not_le.mpr h
  simp only [logPush, if_neg hlow]
  exact DictOnly.trans (DictOnly.trans (DictOnly.ite (DictOnly.pav ..) (DictOnly.refl s)) (DictOnly.pav ..)) (msixSend_dictOnly ..)

theorem notice_dictOnly (s : State) (res : Nat) (i : LogInfo) : DictOnly s (notice s res i) := by
  have hcounted : DictOnly s (bump64 s 0x7C20 2) := DictOnly.pav ..
  have hlogged (t : State) (p : PavS) (h : DictOnly s t) : DictOnly s (logPush { t with pav := p } { i with cls := 1 }) :=
    (h.trans (DictOnly.pav ..)).trans (logPush_dictOnly _ (show (1 : Nat) < 4 by decide))
  exact DictOnly.ite (hlogged _ _ hcounted) hcounted

/-- A clamp is counted, noted and remembered in the dictionary. -/
theorem countClamp_dictOnly (s : State) (src : DictSrc) (idx sub : Nat) : DictOnly s (countClamp s src idx sub) :=
  DictOnly.trans ((DictOnly.pav ..).trans (notice_dictOnly ..)) (DictOnly.pav ..)

/-! ### The answer -/

/-- An answer stands in a session or a window, and may go out. -/
theorem dictAnswer_only (s : State) (rq : DictReq) (st idx sub : Nat) (v : List Byte) :
    dictAnswer s rq st idx sub v =
      { s with
        pav := { s.pav with
          sessions := (dictAnswer s rq st idx sub v).pav.sessions
          inbox := (dictAnswer s rq st idx sub v).pav.inbox
          windows := (dictAnswer s rq st idx sub v).pav.windows }
        out := (dictAnswer s rq st idx sub v).out } := by
  unfold dictAnswer
  split
  · split
    · rfl
    · dsimp only
      split
      · rfl
      · split <;> rfl
  · rfl

theorem dictAnswer_dictOnly (s : State) (rq : DictReq) (st idx sub : Nat) (v : List Byte) :
    DictOnly s (dictAnswer s rq st idx sub v) := by
  rw [dictAnswer_only]; rfl

/-- An answer changes no clock. -/
@[simp] theorem dictAnswer_clk (s : State) (rq : DictReq) (st idx sub : Nat) (v : List Byte) :
    (dictAnswer s rq st idx sub v).clk = s.clk := by
  rw [dictAnswer_only]

/-- An answer changes no object. -/
@[simp] theorem odGet_dictAnswer (s : State) (rq : DictReq) (st idx sub : Nat) (v : List Byte) (i j : Nat) :
    odGet (dictAnswer s rq st idx sub v) i j = odGet s i j := by
  rw [dictAnswer_only]; rfl

/-! ### A write that is admitted -/

/-- The state in which a write's effect begins: the clamp counted where there was one, and the value stored. -/
def dictPut (s : State) (src : DictSrc) (idx sub raw w : Nat) : State :=
  odSet (if w = raw then s else countClamp s src idx sub) idx sub w

@[simp] theorem odGet_dictPut (s : State) (src : DictSrc) (idx sub raw w : Nat) :
    odGet (dictPut s src idx sub raw w) idx sub = w := odGet_odSet ..

/-- A legal value is stored as it came. -/
theorem dictPut_legal (s : State) (src : DictSrc) (idx sub w : Nat) : dictPut s src idx sub w w = odSet s idx sub w := by
  rw [dictPut, if_pos rfl]

theorem dictPut_dictOnly (s : State) (src : DictSrc) (idx sub raw w : Nat) : DictOnly s (dictPut s src idx sub raw w) :=
  (DictOnly.ite (DictOnly.refl s) (countClamp_dictOnly ..)).trans (DictOnly.pav ..)

/-- A write that its source may make stores the clamped value, has its effect, and is answered. -/
theorem dictWrite_of_mayStore {s : State} {rq : DictReq} {idx sub : Nat} {v : List Byte} (h : MayStore s rq idx sub v)
    (clamp : State → Nat → Nat) (effect : State → Nat → State) :
    ∃ bs, dictWrite s rq idx sub v clamp effect =
      dictAnswer (effect (dictPut s rq.src idx sub (leNat v) (clamp s (leNat v))) (clamp s (leNat v))) rq 0 idx sub bs := by
  obtain ⟨hon, r, hrow, hmay, hlen⟩ := h
  have hans : ¬ (!pavOn s) = true := by simp [hon]
  have hright : ¬ (!mayWrite s rq.src idx sub r.acc) = true := by simp [hmay]
  rw [dictWrite, if_neg hans, hrow]
  exact ⟨_, (if_neg hright).trans (if_neg (not_not.mpr hlen))⟩

/-- A write without an effect of its own stores the clamped value and does nothing beside. -/
theorem dictWrite_stores {s : State} {rq : DictReq} {idx sub : Nat} {v : List Byte} (h : MayStore s rq idx sub v)
    (clamp : State → Nat → Nat) :
    Stores s (dictWrite s rq idx sub v clamp fun s _ => s) idx sub (clamp s (leNat v)) := by
  obtain ⟨bs, hw⟩ := dictWrite_of_mayStore h clamp fun s _ => s
  rw [hw]
  exact ⟨by simp, (dictPut_dictOnly ..).trans (dictAnswer_dictOnly ..)⟩

end Sys2Proof.Machine
end

section
/-! SUPPORT. The timebase: what an edge, the end of a slew and the lack of edges make of it (R387 to R390). -/

namespace Sys2Proof.Machine

open Sys2Proof Sys2Proof.Claims

/-! ### Edges -/

/-- The error of an edge's timestamp, as it is measured (R387). -/
def edgeError (s : State) : Int := (s.clk.timebase.toNat : Int) - edgeExpected s

/-- A valid edge as it is noted: its error is shown, and the expected time written for it is used up. -/
def edgeNoted (s : State) : State := odSet (odSet s 0x1103 0 (clampI32 (edgeError s))) 0x1101 0 0

/-- An edge is recorded with the time that the timebase then reads. -/
def edgeRecorded (s : State) (x : BitVec 64) : State := { s with clk := { s.clk with lastEdge := some (s.clk.now, x) } }

/-- The timebase slewed by the edge's error (R388). -/
def edgeSlewed (s : State) : State :=
  edgeRecorded { edgeNoted s with clk := { s.clk with
    mode := .locked, slew := edgeError s, slewing := edgeError s != 0, slewPhase := 0 } } s.clk.timebase

/-- The timebase set by a step of the edge's error (R388, R390). -/
def edgeStepped (s : State) : State :=
  let x := BitVec.ofInt 64 ((s.clk.timebase.toNat : Int) - edgeError s)
  edgeRecorded (bump32 { edgeNoted s with clk := { s.clk with
    mode := .locked, timebase := x, slew := 0, slewing := false, slewPhase := 0, steps := ((s.clk.now, -edgeError s) :: s.clk.steps).take 32 } } 0x1105 0) x

/-- What a valid edge leaves in the dictionary, and that it leaves memory and the Carousel. -/
def EdgeShown (s t : State) : Prop :=
  odGet t 0x1101 0 = 0 ∧ odGet t 0x1103 0 = clampI32 (edgeError s) ∧ t.mem = s.mem ∧ t.car = s.car

/-- Noting an edge touches the error shown and the expected time alone. -/
theorem odGet_edgeNoted_ne (s : State) {i j : Nat} (h : odKey i j ≠ odKey 0x1101 0) (h' : odKey i j ≠ odKey 0x1103 0) :
    odGet (edgeNoted s) i j = odGet s i j := by
  rw [edgeNoted, odGet_odSet_ne _ _ h, odGet_odSet_ne _ _ h']

theorem edgeNoted_shown (s : State) : EdgeShown s (edgeNoted s) := by
  refine ⟨odGet_odSet .., ?_, rfl, rfl⟩
  rw [edgeNoted, odGet_odSet_ne _ _ (by decide), odGet_odSet]

/-- The time recorded with the last valid edge, unless that is more than 1.5 s ago. -/
def edgeBefore (s : State) : Option (BitVec 64) :=
  match s.clk.lastEdge with
  | some (at_, x) => if s.clk.now ≤ at_ + 1500000000 then some x else none
  | none => none

/-- What an edge comes to, named by its cases. -/
def edgeOutcome (s : State) : Res :=
  match edgeBefore s with
  | none => .next (edgeRecorded (edgeNoted s) s.clk.timebase)
  | some last =>
    let gap : Int := (s.clk.timebase.toNat : Int) - last.toNat
    if gap - 1000000000 > 10000 ∨ 1000000000 - gap > 10000 then .next (bump32 s 0x1106 0)
    else if -1000 ≤ edgeError s ∧ edgeError s ≤ 1000 then .next (edgeSlewed s)
    else .next (edgeStepped s)

/-- PPS_EDGE at a running timebase. -/
theorem execPpsEdge_on {s : State} (hon : s.tray.hub.hubCommon = true) (hrun : clkRuns s 0x26 = true) :
    execPpsEdge s = edgeOutcome s := by
  have hoff : ¬ (!s.tray.hub.hubCommon || !clkRuns s 0x26) = true := by simp [hon, hrun]
  exact (if_neg hoff).trans rfl

/-- An edge with none valid in the 1.5 s before it is valid, and there is nothing to measure its spacing from. -/
theorem edgeOutcome_first {s : State}
    (h : s.clk.lastEdge = none ∨ ∃ at_ x, s.clk.lastEdge = some (at_, x) ∧ at_ + 1500000000 < s.clk.now) :
    edgeOutcome s = .next (edgeRecorded (edgeNoted s) s.clk.timebase) := by
  have hnone : edgeBefore s = none := by
    rcases h with h | ⟨at_, x, h, hold⟩
    · simp only [edgeBefore, h]
    · simp only [edgeBefore, h, if_neg (Nat.not_le.mpr hold)]
  rw [edgeOutcome, hnone]

section
variable {s : State} {at_ : Nat} {x : BitVec 64} (hlast : s.clk.lastEdge = some (at_, x)) (hnow : s.clk.now ≤ at_ + 1500000000)
include hlast hnow

theorem edgeBefore_some : edgeBefore s = some x := by simp only [edgeBefore, hlast, if_pos hnow]

/-- An edge out of its place by more than 10 µs is rejected and counted. -/
theorem edgeOutcome_rejected
    (h : (s.clk.timebase.toNat : Int) - x.toNat > 1000010000 ∨ (s.clk.timebase.toNat : Int) - x.toNat < 999990000) :
    edgeOutcome s = .next (bump32 s 0x1106 0) := by
  rw [edgeOutcome, edgeBefore_some hlast hnow]
  exact if_pos (by omega)

variable (hlow : 999990000 ≤ (s.clk.timebase.toNat : Int) - x.toNat) (hhigh : (s.clk.timebase.toNat : Int) - x.toNat ≤ 1000010000)
include hlow hhigh

/-- A small error is slewed away. -/
theorem edgeOutcome_slewed (h : -1000 ≤ edgeError s ∧ edgeError s ≤ 1000) : edgeOutcome s = .next (edgeSlewed s) := by
  rw [edgeOutcome, edgeBefore_some hlast hnow]
  exact (if_neg (by omega)).trans (if_pos h)

/-- A larger error is stepped away. -/
theorem edgeOutcome_stepped (h : ¬ (-1000 ≤ edgeError s ∧ edgeError s ≤ 1000)) : edgeOutcome s = .next (edgeStepped s) := by
  rw [edgeOutcome, edgeBefore_some hlast hnow]
  exact (if_neg (by omega)).trans (if_neg h)

end

/-- A step leads to the time expected of the edge. -/
theorem edgeStepped_timebase (s : State) : (edgeStepped s).clk.timebase = BitVec.ofInt 64 (edgeExpected s) :=
  congrArg (BitVec.ofInt 64) (sub_sub_cancel _ _)

/-- A step is shown as a valid edge is. -/
theorem edgeStepped_shown (s : State) : EdgeShown s (edgeStepped s) := by
  obtain ⟨hexp, herr, hmem, hcar⟩ := edgeNoted_shown s
  refine ⟨?_, ?_, hmem, hcar⟩
  · exact (odGet_odSet_ne _ _ (by decide)).trans hexp
  · exact (odGet_odSet_ne _ _ (by decide)).trans herr

/-- A step is counted. -/
theorem edgeStepped_counted (s : State) : odGet (edgeStepped s) 0x1105 0 = min (odGet s 0x1105 0 + 1) (2 ^ 32 - 1) := by
  rw [← odGet_edgeNoted_ne s (i := 0x1105) (j := 0) (by decide) (by decide)]
  exact odGet_odSet ..

/-! ### Holdover -/

/-- HOLDOVER_ENTER once there has been a valid edge. -/
theorem execHoldoverEnter_after {s : State} {at_ : Nat} {x : BitVec 64} (hlast : s.clk.lastEdge = some (at_, x)) :
    execHoldoverEnter s =
      if s.clk.mode = .locked ∧ s.clk.now ≥ at_ + 1500000000 then .next { s with clk := { s.clk with mode := .holdover } } else .next s := by
  rw [execHoldoverEnter, hlast]

/-- R387 to R390: edges slew, step or leave the timebase, a slew ends, and without edges the timebase is in holdover. -/
theorem edgesSteerTheTimebase : Claims.EdgesSteerTheTimebase := by
  refine ⟨fun s hon hrun => ⟨fun h => ?first, fun at_ x hlast hnow => ⟨fun h => ?rejected, fun hlow hhigh => ⟨fun h₁ h₂ => ?slewed, fun h => ?stepped⟩⟩⟩,
    fun s => ⟨fun h₁ h₂ => ?ended, fun h => ?slewing⟩, fun s at_ x hlast => ⟨fun h₁ h₂ => ?holdover, fun h => ?held⟩⟩
  case first => exact ⟨_, (execPpsEdge_on hon hrun).trans (edgeOutcome_first h), rfl, edgeNoted_shown s⟩
  case rejected => exact ⟨_, (execPpsEdge_on hon hrun).trans (edgeOutcome_rejected hlast hnow h), odGet_odSet .., rfl⟩
  case slewed =>
    exact ⟨_, (execPpsEdge_on hon hrun).trans (edgeOutcome_slewed hlast hnow hlow hhigh ⟨h₁, h₂⟩), edgeNoted_shown s, rfl⟩
  case stepped =>
    have hlarge : ¬ (-1000 ≤ edgeError s ∧ edgeError s ≤ 1000) := by rw [edgeError]; omega
    exact ⟨_, (execPpsEdge_on hon hrun).trans (edgeOutcome_stepped hlast hnow hlow hhigh hlarge), edgeStepped_shown s,
      edgeStepped_counted s, edgeStepped_timebase s, rfl, rfl, rfl, rfl⟩
  case ended => exact ⟨_, if_pos ⟨h₁, h₂⟩, rfl⟩
  case slewing => exact ⟨_, if_neg fun hend => h hend.2, rfl⟩
  case holdover => exact ⟨_, (execHoldoverEnter_after hlast).trans (if_pos ⟨h₁, h₂⟩), rfl⟩
  case held =>
    have hstays : ¬ (s.clk.mode = .locked ∧ s.clk.now ≥ at_ + 1500000000) := by
      rintro ⟨hlocked, hlate⟩
      exact h.elim (· hlocked) (Nat.not_lt.mpr hlate)
    exact ⟨_, (execHoldoverEnter_after hlast).trans (if_neg hstays), rfl⟩

end Sys2Proof.Machine
end

section
/-! SUPPORT. Clock domains and their sources: what a judgement, a switch and a source that waits change, and what a domain's source, its halt and its count then are (R325, R379 to R383). -/

namespace Sys2Proof.Machine

open Sys2Proof Sys2Proof.Claims

/-! ### Frames -/

/-- Nothing but the halts of domains differs. -/
def HaltsOnly (s t : State) : Prop := t = { s with clk := { s.clk with halts := t.clk.halts } }

/-- Nothing but the sources of domains, their switches and the dictionary's values differs: no judgement does. -/
def DomainsOnly (s t : State) : Prop :=
  t = { s with clk := { s.clk with source := t.clk.source, switching := t.clk.switching, halts := t.clk.halts }, pav := { s.pav with vals := t.pav.vals } }

theorem HaltsOnly.refl (s : State) : HaltsOnly s s := rfl

theorem HaltsOnly.trans {s t u : State} (h : HaltsOnly s t) (k : HaltsOnly t u) : HaltsOnly s u :=
  Eq.trans (show u = { t with clk := { t.clk with halts := u.clk.halts } } from k)
    (congrArg (fun x : State => { x with clk := { x.clk with halts := u.clk.halts } }) h)

theorem HaltsOnly.ite {c : Prop} [Decidable c] {s t u : State} (h : HaltsOnly s t) (k : HaltsOnly s u) : HaltsOnly s (if c then t else u) :=
  iteInduction (fun _ => h) fun _ => k

theorem HaltsOnly.domSource {s t : State} (h : HaltsOnly s t) (n : Nat) : domSource t n = domSource s n := by rw [h]; rfl

theorem DomainsOnly.refl (s : State) : DomainsOnly s s := rfl

theorem DomainsOnly.trans {s t u : State} (h : DomainsOnly s t) (k : DomainsOnly t u) : DomainsOnly s u :=
  Eq.trans
    (show u = { t with
      clk := { t.clk with source := u.clk.source, switching := u.clk.switching, halts := u.clk.halts }
      pav := { t.pav with vals := u.pav.vals } } from k)
    (congrArg (fun x : State => { x with
      clk := { x.clk with source := u.clk.source, switching := u.clk.switching, halts := u.clk.halts }
      pav := { x.pav with vals := u.pav.vals } }) h)

theorem DomainsOnly.ite {c : Prop} [Decidable c] {s t u : State} (h : DomainsOnly s t) (k : DomainsOnly s u) :
    DomainsOnly s (if c then t else u) :=
  iteInduction (fun _ => h) fun _ => k

theorem HaltsOnly.domainsOnly {s t : State} (h : HaltsOnly s t) : DomainsOnly s t := by
  unfold DomainsOnly
  rw [h]

/-- A judgement stored is read back after its consequences for halted domains, and with them it is all that differs. -/
theorem HaltsOnly.judged {s t : State} {k : Nat} {j : Judgement} (h : HaltsOnly (judgedSet s k j) t) :
    judgedGet t k = j ∧ t = { s with clk := { s.clk with judged := t.clk.judged, halts := t.clk.halts } } := by
  refine ⟨by rw [h]; exact judgedGet_judgedSet .., ?_⟩
  have hj : t.clk.judged = (judgedSet s k j).clk.judged := by rw [h]
  rw [hj]
  exact h

/-- A judgement stored is read back after its consequences for the domains' sources, and with them it is all that differs. -/
theorem DomainsOnly.judged {s t : State} {k : Nat} {j : Judgement} (h : DomainsOnly (judgedSet s k j) t) :
    judgedGet t k = j ∧ t = { s with
      clk := { s.clk with judged := t.clk.judged, source := t.clk.source, switching := t.clk.switching, halts := t.clk.halts }
      pav := { s.pav with vals := t.pav.vals } } := by
  refine ⟨by rw [h]; exact judgedGet_judgedSet .., ?_⟩
  have hj : t.clk.judged = (judgedSet s k j).clk.judged := by rw [h]
  rw [hj]
  exact h

/-- A relation that every change of a list keeps to holds across them all. -/
theorem each_rel {α : Type} {R : State → State → Prop} (hrefl : ∀ s, R s s) (htrans : ∀ {s t u}, R s t → R t u → R s u)
    {f : State → α → State} (hf : ∀ s a, R s (f s a)) (l : List α) (s : State) : R s (each l f s) := by
  induction l generalizing s with
  | nil => exact hrefl s
  | cons a l ih => exact htrans (hf s a) (ih (f s a))

/-! ### A switch -/

theorem domSwitch_domainsOnly (s : State) (n src : Nat) : DomainsOnly s (domSwitch s n src) := rfl

/-- A domain switched runs from its new source. -/
@[simp] theorem domSource_domSwitch (s : State) (n src : Nat) : domSource (domSwitch s n src) n = src := mgetD_mset_same ..

/-- A switch leaves the sources of the other domains. -/
theorem domSource_domSwitch_ne (s : State) {n m : Nat} (src : Nat) (hn : n ≠ 0) (hm : m ≠ 0) (h : m ≠ n) :
    domSource (domSwitch s n src) m = domSource s m :=
  mgetD_mset_ne _ _ _ (by omega)

/-- A switch is counted. -/
@[simp] theorem odGet_domSwitch_count (s : State) (n src : Nat) :
    odGet (domSwitch s n src) 0x1021 n = min (odGet s 0x1021 n + 1) (2 ^ 32 - 1) := odGet_odSet ..

/-- A switch changes no object but its counter. -/
theorem odGet_domSwitch_ne (s : State) {i j n : Nat} (src : Nat) (h : odKey i j ≠ odKey 0x1021 n) :
    odGet (domSwitch s n src) i j = odGet s i j := odGet_odSet_ne _ _ h

/-- A domain switched waits for no switch any more. -/
theorem not_mem_switching_domSwitch (s : State) (n src : Nat) : n ∉ (domSwitch s n src).clk.switching := fun h =>
  of_decide_eq_true (List.mem_filter.mp h).2 rfl

/-- A domain switched stands still until its cycles are lost. -/
theorem halt_domSwitch (s : State) (n src : Nat) :
    mget (domSwitch s n src).clk.halts n = some { until_ := s.clk.now + cdiv (domLost n * 1000000000) (domHz s n), old := domSource s n } :=
  mget_mset_same ..

/-- A division rounded up of something is something. -/
theorem cdiv_pos {a b : Nat} (ha : 0 < a) (hb : 0 < b) : 0 < cdiv a b := Nat.div_pos (by omega) hb

/-- Every switch loses cycles. -/
theorem domLost_pos (n : Nat) : 0 < domLost n := by
  unfold domLost
  split_ifs <;> decide

/-! ### A source that is judged unstable -/

/-- A halt with its switch back noted, where there is cause. -/
def haltMark (b : Bool) (h : ClkHalt) : ClkHalt := { h with back := h.back || b }

theorem haltMark_false : haltMark false = id := by
  funext h
  simp [haltMark]

theorem haltMark_comp (a b : Bool) : haltMark b ∘ haltMark a = haltMark (a || b) := by
  funext h
  simp [haltMark, Bool.or_assoc]

theorem haltBack_haltsOnly (s : State) (n : Nat) : HaltsOnly s (haltBack s n) := by
  unfold haltBack
  split <;> rfl

/-- The halt of the domain named, and no other, is marked. -/
theorem mget_haltBack (s : State) (n m : Nat) :
    mget (haltBack s n).clk.halts m = (mget s.clk.halts m).map (haltMark (m == n)) := by
  unfold haltBack
  by_cases hm : m = n
  · subst hm
    cases hh : mget s.clk.halts m with
    | none => simp [hh]
    | some h => simp [haltMark]
  · have hne : (m == n) = false := beq_false_of_ne hm
    cases hh : mget s.clk.halts n with
    | none => simp [hne, haltMark_false]
    | some h => simp [hne, haltMark_false, mget_mset_ne _ _ hm]

/-- A domain that switches to judged clock `k` is to switch back. -/
def haltBackOf (k : Nat) (s : State) (n : Nat) : State :=
  if sourceKey n (domSource s n) = some k then haltBack s n else s

theorem haltBackOf_haltsOnly (k : Nat) (s : State) (n : Nat) : HaltsOnly s (haltBackOf k s n) :=
  .ite (haltBack_haltsOnly s n) (.refl s)

theorem mget_haltBackOf (k : Nat) (s : State) (n m : Nat) :
    mget (haltBackOf k s n).clk.halts m =
      (mget s.clk.halts m).map (haltMark (m == n && decide (sourceKey m (domSource s m) = some k))) := by
  unfold haltBackOf
  by_cases hm : m = n
  · subst hm
    by_cases hk : sourceKey m (domSource s m) = some k <;> simp [hk, mget_haltBack, haltMark_false]
  · have hne : (m == n) = false := beq_false_of_ne hm
    by_cases hk : sourceKey n (domSource s n) = some k <;> simp [hk, hne, mget_haltBack, haltMark_false]

/-- Of a list of domains those are marked whose source is the clock. -/
theorem mget_each_haltBackOf (k : Nat) (l : List Nat) (s : State) (m : Nat) :
    mget (each l (haltBackOf k) s).clk.halts m =
      (mget s.clk.halts m).map (haltMark (l.contains m && decide (sourceKey m (domSource s m) = some k))) := by
  induction l generalizing s with
  | nil => simp [each, haltMark_false]
  | cons n l ih =>
    show mget (each l (haltBackOf k) (haltBackOf k s n)).clk.halts m = _
    rw [ih, mget_haltBackOf, (haltBackOf_haltsOnly k s n).domSource, Option.map_map, haltMark_comp, ← Bool.and_or_distrib_right]
    rfl

/-- A key at which something is found is one of the map's. -/
theorem mem_mkeys_of_mget {α : Type} {m : SMap α} {k : Nat} {v : α} (h : mget m k = some v) : k ∈ mkeys m := by
  induction m with
  | nil => simp [mget] at h
  | cons a t ih =>
    by_cases ha : a.1 = k
    · simp [mkeys, ha]
    · simp only [mget, if_neg ha] at h
      exact List.mem_cons_of_mem _ (ih h)

/-- A clock's judgement as unstable, with what it means for the domains that switch to it. -/
def judgedFallen (s : State) (k : Nat) : State :=
  each (mkeys s.clk.halts) (haltBackOf k) (judgedSet s k { stable := false })

theorem clockUnstable_domain {d : Fin 40} (s : State) (h : d.val ≠ 0x17) :
    clockUnstable s (.domain d) = judgedFallen s d.val := if_neg h

theorem clockUnstable_recovered (s : State) : clockUnstable s (.domain 0x17) = refFall (judgedFallen s 0x17) := rfl

theorem clockUnstable_refclk (s : State) : clockUnstable s .refclk = judgedFallen s 41 := rfl

theorem clockUnstable_tcxo (s : State) :
    clockUnstable s .tcxo = declareFailed (judgedFallen s 40) { cls := 5, block := 12 } := rfl

theorem judgedFallen_haltsOnly (s : State) (k : Nat) : HaltsOnly (judgedSet s k { stable := false }) (judgedFallen s k) :=
  each_rel HaltsOnly.refl HaltsOnly.trans (haltBackOf_haltsOnly k) _ _

/-- A judgement leaves the source that each domain has. -/
theorem domSource_judgedFallen (s : State) (k n : Nat) : domSource (judgedFallen s k) n = domSource s n :=
  (judgedFallen_haltsOnly s k).domSource n

/-- A domain that switches to the clock is to switch back. -/
theorem halt_judgedFallen {s : State} {k m : Nat} {h : ClkHalt} (hm : mget s.clk.halts m = some h)
    (hk : sourceKey m (domSource s m) = some k) : mget (judgedFallen s k).clk.halts m = some { h with back := true } := by
  have hmem : (mkeys s.clk.halts).contains m = true := List.contains_iff_mem.mpr (mem_mkeys_of_mget hm)
  have hk' : sourceKey m (domSource (judgedSet s k { stable := false }) m) = some k := hk
  have hm' : mget (judgedSet s k { stable := false }).clk.halts m = some h := hm
  rw [judgedFallen, mget_each_haltBackOf, hmem, hm']
  simp [hk', haltMark]

/-- A judgement halts no domain. -/
theorem halt_judgedFallen_none {s : State} {m : Nat} (k : Nat) (hm : mget s.clk.halts m = none) :
    mget (judgedFallen s k).clk.halts m = none := by
  have hm' : mget (judgedSet s k { stable := false }).clk.halts m = none := hm
  rw [judgedFallen, mget_each_haltBackOf, hm']
  rfl

/-! ### The tray reference -/

theorem refFall_domainsOnly (s : State) : DomainsOnly s (refFall s) :=
  .ite (.ite (haltBack_haltsOnly s 0x19).domainsOnly (domSwitch_domainsOnly s 0x19 0)) (.refl s)

/-- Unless its domain stands still, the reference gives up port A at once. -/
theorem domSource_refFall {s : State} (h : mget s.clk.halts 0x19 = none) :
    domSource (refFall s) 0x19 = if domSource s 0x19 = 2 then 0 else domSource s 0x19 := by
  unfold refFall
  by_cases hs : domSource s 0x19 = 2
  · simp [hs, h]
  · simp [hs]

/-! ### Failure -/

/-- A tray that has not failed fails when it is declared to. -/
theorem declareFailed_failed {s : State} (i : LogInfo) (h : s.tray.failed = false) : Failed (declareFailed s i) := by
  rw [declareFailed, if_neg (by simp [h])]
  exact ⟨rfl, rfl, rfl⟩

/-- Loss of the TCXO fails the tray (R381). -/
theorem clockUnstable_tcxo_failed {s : State} (h : s.tray.failed = false) : Failed (clockUnstable s .tcxo) := by
  rw [clockUnstable_tcxo]
  refine declareFailed_failed _ ?_
  rw [judgedFallen_haltsOnly s 40]
  exact h

/-! ### A domain follows the source stored for it -/

/-- The domain's stored source waits. -/
def switchLater (s : State) (n : Nat) : State :=
  { s with clk := { s.clk with switching := if s.clk.switching.contains n then s.clk.switching else n :: s.clk.switching } }

theorem mem_switchLater (s : State) (n : Nat) : n ∈ (switchLater s n).clk.switching := by
  by_cases h : n ∈ s.clk.switching <;> simp [switchLater, h]

/-- `domFollow` by its cases. -/
theorem domFollow_eq (s : State) (n : Nat) : domFollow s n =
    if (mget s.clk.halts n).isSome then switchLater s n
    else if domHeld s n ∨ domSource s n = odGet s 0x1000 n then { s with clk := { s.clk with switching := s.clk.switching.filter (· ≠ n) } }
    else if !domOn s n then { s with clk := { s.clk with source := mset s.clk.source (n - 1) (odGet s 0x1000 n) } }
    else if sourceReady s n (odGet s 0x1000 n) then domSwitch s n (odGet s 0x1000 n)
    else switchLater s n := rfl

theorem domFollow_domainsOnly (s : State) (n : Nat) : DomainsOnly s (domFollow s n) := by
  rw [domFollow_eq]
  exact .ite rfl (.ite rfl (.ite rfl (.ite (domSwitch_domainsOnly ..) rfl)))

section
variable {s : State} {n w : Nat} (hwant : odGet s 0x1000 n = w) (hheld : domHeld s n = false) (hon : domOn s n = true) (hsrc : domSource s n ≠ w)
include hwant hheld hon hsrc

/-- A running domain that is free to switch does so when its new source is ready. -/
theorem domFollow_ready (hhalt : mget s.clk.halts n = none) (hready : sourceReady s n w = true) : domFollow s n = domSwitch s n w := by
  simp [domFollow_eq, hwant, hheld, hon, hsrc, hhalt, hready]

/-- While it stands still, or its new source is not ready, it waits. -/
theorem domFollow_waits (h : mget s.clk.halts n ≠ none ∨ sourceReady s n w = false) : domFollow s n = switchLater s n := by
  cases hhalt : mget s.clk.halts n with
  | some x => simp [domFollow_eq, hhalt]
  | none =>
    have hunready := h.resolve_left (· hhalt)
    simp [domFollow_eq, hwant, hheld, hon, hsrc, hhalt, hunready]

end

/-! ### Judgements -/

/-- A domain whose stored source is judged clock `k` follows it. -/
def followOf (k : Nat) (s : State) (n : Nat) : State :=
  if sourceKey n (odGet s 0x1000 n) = some k then domFollow s n else s

theorem followOf_domainsOnly (k : Nat) (s : State) (n : Nat) : DomainsOnly s (followOf k s n) :=
  .ite (domFollow_domainsOnly s n) (.refl s)

section
variable {s : State} {c : Judged} {n : Nat} (hon : judgedOn s c = true)
include hon

theorem execLossOfLock_on : execLossOfLock c s = .next (clockUnstable s c) := by simp [execLossOfLock, hon]

/-- An interval out of its window. -/
theorem execStabilityInterval_out (h : countOk s c n = false) : execStabilityInterval c n s = .next (clockUnstable s c) := by
  simp [execStabilityInterval, hon, h]

variable (hok : countOk s c n = true)
include hok

/-- A clock judged stable stays so. -/
theorem execStabilityInterval_stable (h : (judgedGet s (judgedKey c)).stable = true) : execStabilityInterval c n s = .next s := by
  simp [execStabilityInterval, hon, hok, h]

variable (hj : (judgedGet s (judgedKey c)).stable = false)
include hj

/-- A pass short of the number that makes a clock stable. -/
theorem execStabilityInterval_passes (h : (judgedGet s (judgedKey c)).passes + 1 < odGet s 0x1020 3) :
    execStabilityInterval c n s =
      .next (judgedSet s (judgedKey c) { judgedGet s (judgedKey c) with passes := (judgedGet s (judgedKey c)).passes + 1 }) := by
  have hfew : ¬ odGet s 0x1020 3 ≤ (judgedGet s (judgedKey c)).passes + 1 := Nat.not_le.mpr h
  simp [execStabilityInterval, hon, hok, hj, hfew]

/-- The pass that makes a clock stable: the domains that wait for it follow. -/
theorem execStabilityInterval_settles (h : odGet s 0x1020 3 ≤ (judgedGet s (judgedKey c)).passes + 1) :
    execStabilityInterval c n s =
      .next (each s.clk.switching (followOf (judgedKey c)) (judgedSet s (judgedKey c) { stable := true, since := s.clk.now })) := by
  have hruns : ¬ (!judgedOn s c) = true := by simp [hon]
  have hin : ¬ (!countOk s c n) = true := by simp [hok]
  have hnew : ¬ (judgedGet s (judgedKey c)).stable = true := by simp [hj]
  exact (if_neg hruns).trans ((if_neg hin).trans ((if_neg hnew).trans (if_pos h)))

end

end Sys2Proof.Machine
end

section
/-! SUPPORT. O47: the clauses on judgements, switches, the reference's return, spread and the die NoC, and the obligation (R325, R379 to R392). -/

namespace Sys2Proof.Machine

open Sys2Proof Sys2Proof.Claims

/-! ### Judgements -/

/-- Clock `k` is judged unstable, each domain that switches to it is to switch back, and nothing else differs. -/
def ClockFell (s : State) (k : Nat) (t : State) : Prop :=
  judgedGet t k = { stable := false } ∧ t = { s with clk := { s.clk with judged := t.clk.judged, halts := t.clk.halts } }
  ∧ ∀ m h, mget s.clk.halts m = some h → sourceKey m (domSource s m) = some k → mget t.clk.halts m = some { h with back := true }

theorem judgedFallen_fell (s : State) (k : Nat) : ClockFell s k (judgedFallen s k) := by
  obtain ⟨hread, hframe⟩ := (judgedFallen_haltsOnly s k).judged
  exact ⟨hread, hframe, fun _ _ => halt_judgedFallen⟩

/-- What an unstable clock other than the TCXO and port A's recovered clock leaves. -/
theorem clockUnstable_fell {c : Judged} (s : State) (hc : c ≠ .tcxo) (hd : c ≠ .domain 0x17) :
    ClockFell s (judgedKey c) (clockUnstable s c) := by
  cases c with
  | domain d =>
    have hne : d.val ≠ 0x17 := fun h => hd (congrArg Judged.domain (Fin.ext h))
    rw [clockUnstable_domain s hne]
    exact judgedFallen_fell s d.val
  | tcxo => exact absurd rfl hc
  | refclk => exact judgedFallen_fell s 41

/-- Port A's recovered clock is judged unstable, the reference gives it up, and nothing beyond domains' sources and a count differs. -/
def ReferenceFell (s t : State) : Prop :=
  judgedGet t 0x17 = { stable := false }
  ∧ (mget s.clk.halts 0x19 = none → domSource t 0x19 = if domSource s 0x19 = 2 then 0 else domSource s 0x19)
  ∧ t = { s with
      clk := { s.clk with judged := t.clk.judged, source := t.clk.source, switching := t.clk.switching, halts := t.clk.halts }
      pav := { s.pav with vals := t.pav.vals } }

/-- What an unstable recovered clock leaves. -/
theorem clockUnstable_recovered_fell (s : State) : ReferenceFell s (clockUnstable s (.domain 0x17)) := by
  rw [clockUnstable_recovered]
  obtain ⟨hread, hframe⟩ := ((judgedFallen_haltsOnly s 0x17).domainsOnly.trans (refFall_domainsOnly _)).judged
  refine ⟨hread, fun hhalt => ?_, hframe⟩
  rw [domSource_refFall (halt_judgedFallen_none 0x17 hhalt), domSource_judgedFallen]

/-! ### CLOCK_SOURCE_SWITCH -/

/-- The nominal frequency of a domain does not depend on the source stored for it. -/
theorem domHz_odSet_source (s : State) {n : Nat} (w : Nat) (hn : n ≤ 40) : domHz (odSet s 0x1000 n w) n = domHz s n := by
  have hkey : odKey 0x1001 (n - 0x10) ≠ odKey 0x1000 n := odKey_ne (by omega) (by omega) (.inl (by decide))
  unfold domHz
  rw [odGet_odSet_ne _ _ hkey]
  rfl

/-- A source of the domain's row is stored, and the domain follows it. -/
theorem execClockSourceSwitch_admitted {rq : DictReq} {d : Fin 40} {v : List Byte} {s : State}
    (hmay : MayStore s rq 0x1000 (d.val + 1) v) (hsrc : leNat v ∈ domSources (d.val + 1)) :
    ∃ bs, execClockSourceSwitch rq d v s =
      .next (dictAnswer (domFollow (odSet s 0x1000 (d.val + 1) (leNat v)) (d.val + 1)) rq 0 0x1000 (d.val + 1) bs) := by
  have hlegal : sourceClamp (d.val + 1) s (leNat v) = leNat v := if_pos (List.contains_iff_mem.mpr hsrc)
  obtain ⟨bs, hw⟩ := dictWrite_of_mayStore hmay (sourceClamp (d.val + 1)) fun s _ => domFollow s (d.val + 1)
  rw [hlegal, dictPut_legal] at hw
  exact ⟨bs, congrArg _ hw⟩

/-- A domain switched to the source written for it, as the write's answer leaves it: `n` its number, `w` the source. -/
def SwitchedTo (s : State) (n w : Nat) (t : State) : Prop :=
  domSource t n = w ∧ odGet t 0x1000 n = w ∧ odGet t 0x1021 n = min (odGet s 0x1021 n + 1) (2 ^ 32 - 1) ∧ n ∉ t.clk.switching
  ∧ (∀ m, m ≠ n → m ≠ 0 → domSource t m = domSource s m)
  ∧ ∃ h, mget t.clk.halts n = some h ∧ h.old = domSource s n ∧ h.back = false ∧ (0 < domHz s n → s.clk.now < h.until_)

/-- A switch right after its source was stored. -/
theorem domSwitch_odSet_switchedTo (s : State) {n : Nat} (w : Nat) (hpos : n ≠ 0) (hn : n ≤ 40) :
    SwitchedTo s n w (domSwitch (odSet s 0x1000 n w) n w) := by
  have hkey : odKey 0x1000 n ≠ odKey 0x1021 n := odKey_ne (by omega) (by omega) (.inl (by decide))
  refine ⟨domSource_domSwitch .., ?stored, ?counted, not_mem_switching_domSwitch _ n w, fun m hm hm0 => ?others,
    _, halt_domSwitch .., rfl, rfl, fun hhz => ?stands⟩
  case stored => rw [odGet_domSwitch_ne _ _ hkey, odGet_odSet]
  case counted => rw [odGet_domSwitch_count, odGet_odSet_ne _ _ hkey.symm]
  case others => exact domSource_domSwitch_ne _ _ hpos hm0 hm
  case stands =>
    rw [domHz_odSet_source s w hn]
    exact Nat.lt_add_of_pos_right (cdiv_pos (Nat.mul_pos (domLost_pos n) (by decide)) hhz)

/-- The source written for a domain waits, as the write's answer leaves it. -/
def SwitchWaits (s : State) (n w : Nat) (t : State) : Prop :=
  domSource t n = domSource s n ∧ odGet t 0x1000 n = w ∧ n ∈ t.clk.switching ∧ odGet t 0x1021 n = odGet s 0x1021 n

theorem switchLater_odSet_switchWaits (s : State) {n : Nat} (w : Nat) (hn : n ≤ 40) :
    SwitchWaits s n w (switchLater (odSet s 0x1000 n w) n) := by
  have hkey : odKey 0x1021 n ≠ odKey 0x1000 n := odKey_ne (by omega) (by omega) (.inl (by decide))
  exact ⟨rfl, odGet_odSet .., mem_switchLater .., odGet_odSet_ne _ _ hkey⟩

/-- An answer leaves every domain's source. -/
@[simp] theorem domSource_dictAnswer (s : State) (rq : DictReq) (st idx sub : Nat) (v : List Byte) (n : Nat) :
    domSource (dictAnswer s rq st idx sub v) n = domSource s n := by
  simp [domSource]

section
variable {rq : DictReq} {d : Fin 40} {v : List Byte} {s : State} (hmay : MayStore s rq 0x1000 (d.val + 1) v)
  (hlegal : leNat v ∈ domSources (d.val + 1)) (hheld : domHeld s (d.val + 1) = false) (hon : domOn s (d.val + 1) = true)
  (hsrc : domSource s (d.val + 1) ≠ leNat v)
include hmay hlegal hheld hon hsrc

/-- A running domain that stands nowhere switches to a source that is ready. -/
theorem clockSourceSwitch_switches (hhalt : mget s.clk.halts (d.val + 1) = none) (hready : sourceReady s (d.val + 1) (leNat v) = true) :
    Runs (.clockSourceSwitch rq d v) s (SwitchedTo s (d.val + 1) (leNat v)) := by
  obtain ⟨bs, hrun⟩ := execClockSourceSwitch_admitted hmay hlegal
  rw [domFollow_ready (odGet_odSet ..) hheld hon hsrc hhalt hready] at hrun
  refine ⟨_, hrun, ?_⟩
  simpa only [SwitchedTo, odGet_dictAnswer, domSource_dictAnswer, dictAnswer_clk] using
    domSwitch_odSet_switchedTo s (leNat v) (Nat.succ_ne_zero _) d.isLt

/-- A source that is not ready, or a domain that stands, waits. -/
theorem clockSourceSwitch_waits (h : mget s.clk.halts (d.val + 1) ≠ none ∨ sourceReady s (d.val + 1) (leNat v) = false) :
    Runs (.clockSourceSwitch rq d v) s (SwitchWaits s (d.val + 1) (leNat v)) := by
  obtain ⟨bs, hrun⟩ := execClockSourceSwitch_admitted hmay hlegal
  rw [domFollow_waits (odGet_odSet ..) hheld hon hsrc h] at hrun
  refine ⟨_, hrun, ?_⟩
  simpa only [SwitchWaits, odGet_dictAnswer, domSource_dictAnswer, dictAnswer_clk] using
    switchLater_odSet_switchWaits s (leNat v) d.isLt

end

/-! ### REFERENCE_RETURN -/

section
variable {s : State} (htrl : s.tray.hub.trellis = true) (hup : (portGet s 0).st = .up) (hj : (judgedGet s 0x17).stable = true)
include htrl hup hj

/-- A second after port A was judged stable the reference returns to it. -/
theorem execReferenceReturn_late (hsrc : domSource s 0x19 = 0) (hwant : odGet s 0x1000 0x19 = 2)
    (hhalt : mget s.clk.halts 0x19 = none) (hlate : (judgedGet s 0x17).since + 1000000000 ≤ s.clk.now) :
    execReferenceReturn s = .next (domSwitch s 0x19 2) := by
  have hready : refReady s = true := by simp [refReady, hup, hj, hlate]
  simp [execReferenceReturn, htrl, hup, hj, hsrc, hwant, hhalt, hready]

/-- Before that it does not. -/
theorem execReferenceReturn_early (hearly : s.clk.now < (judgedGet s 0x17).since + 1000000000) : execReferenceReturn s = .next s := by
  have hunready : refReady s = false := by simp [refReady, hearly]
  simp [execReferenceReturn, htrl, hup, hj, hunready]

end

/-! ### Spread and the die NoC -/

/-- Class G work is under way. -/
theorem classG_iff (s : State) :
    (s.car.reqs.any fun x => live x.2 && !x.2.classE) = true ↔ ∃ h r, (h, r) ∈ s.car.reqs ∧ live r = true ∧ r.classE = false := by
  simp [List.any_eq_true, Prod.exists]

/-- The depth written is stored, at most 50, unless that would raise it under Class G work. -/
theorem spreadClamp_stored {s : State} {v : Nat}
    (h : ¬ (∃ h r, (h, r) ∈ s.car.reqs ∧ live r = true ∧ r.classE = false) ∨ min 50 v ≤ odGet s 0x1010 0) : spreadClamp s v = min 50 v := by
  rw [← classG_iff] at h
  exact if_neg fun hraise => h.elim (· hraise.2) (Nat.not_le.mpr hraise.1)

/-- Under Class G work the depth is not raised. -/
theorem spreadClamp_kept {s : State} {v : Nat} (hbusy : ∃ h r, (h, r) ∈ s.car.reqs ∧ live r = true ∧ r.classE = false)
    (h : odGet s 0x1010 0 < min 50 v) : spreadClamp s v = odGet s 0x1010 0 :=
  if_pos ⟨h, (classG_iff s).mpr hbusy⟩

/-- The range of the die NoC's frequency (R386). -/
theorem clampRow_dieNoc (d : Die) (s : State) (v : Nat) : clampRow 0x1001 (d.val + 1) s v = clampTo (.step 500 1600 25) v := by
  have hrow : odRow 0x1001 (d.val + 1) = some ⟨0x1001, 1, 4, 2, .rw, 1200, .step 500 1600 25⟩ := by
    revert d
    decide +kernel
  rw [clampRow, hrow]

/-- The nearest step of 25 MHz between 500 and 1,600 MHz. -/
theorem clampTo_dieNoc (v : Nat) :
    let w := clampTo (.step 500 1600 25) v
    500 ≤ w ∧ w ≤ 1600 ∧ (w - 500) % 25 = 0
    ∧ (500 ≤ v → v ≤ 1600 → w ≤ v + 12 ∧ v ≤ w + 12) ∧ (v < 500 → w = 500) ∧ (1600 < v → w = 1600) := by
  intro w
  have hw : w =
      let u := min 1600 (max 500 v)
      let dn := 500 + (u - 500) / 25 * 25
      if (u - dn) * 2 ≤ 25 then dn else dn + 25 := rfl
  dsimp only at hw
  clear_value w
  split at hw <;> omega

/-! ### The obligation -/

/-- R325, R379 to R383, R385, R386, R392: clocks are judged, domains switch, the reference returns, and the clocks' objects store legal values. -/
theorem clocksAreJudgedAndSwitched : Claims.ClocksAreJudgedAndSwitched := by
  refine ⟨fun c n s hon => ⟨fun hc hd => ?falls, fun hc => ?recovered, fun hc hup => ?tcxo,
      fun hok => ⟨fun hj => ?stable, fun hj hfew => ?passes, fun hj hlast => ?settles⟩⟩,
    fun rq d v s hmay hlegal hheld hrun hsrc => ⟨fun hhalt hready => ?switches, fun hwait => ?waits⟩,
    fun s htrl hup hj hsrc hwant hhalt => ⟨fun hlate => ?returns, fun hearly => ?early⟩,
    fun rq v s hmay => ⟨fun h => ?spread, fun hbusy h => ?spreadKept⟩, fun rq d v s hmay => ?dieNoc⟩
  case falls =>
    have hfell := clockUnstable_fell s hc hd
    exact ⟨fun hbad => ⟨_, execStabilityInterval_out hon hbad, hfell⟩, ⟨_, execLossOfLock_on hon, hfell⟩⟩
  case recovered =>
    subst hc
    have hfell := clockUnstable_recovered_fell s
    exact ⟨fun hbad => ⟨_, execStabilityInterval_out hon hbad, hfell⟩, ⟨_, execLossOfLock_on hon, hfell⟩⟩
  case tcxo =>
    subst hc
    have hfailed := clockUnstable_tcxo_failed hup
    exact ⟨⟨_, execLossOfLock_on hon, hfailed⟩, fun hbad => ⟨_, execStabilityInterval_out hon hbad, hfailed⟩⟩
  case stable => exact ⟨s, execStabilityInterval_stable hon hok hj, rfl⟩
  case passes => exact ⟨_, execStabilityInterval_passes hon hok hj hfew, judgedGet_judgedSet .., rfl⟩
  case settles =>
    exact ⟨_, execStabilityInterval_settles hon hok hj hlast,
      DomainsOnly.judged (each_rel DomainsOnly.refl DomainsOnly.trans (followOf_domainsOnly _) _ _)⟩
  case switches => exact clockSourceSwitch_switches hmay hlegal hheld hrun hsrc hhalt hready
  case waits => exact clockSourceSwitch_waits hmay hlegal hheld hrun hsrc hwait
  case returns =>
    exact ⟨_, execReferenceReturn_late htrl hup hj hsrc hwant hhalt hlate, domSource_domSwitch .., odGet_domSwitch_count .., rfl⟩
  case early => exact ⟨s, execReferenceReturn_early htrl hup hj hearly, rfl⟩
  case spread =>
    have hstores := dictWrite_stores hmay spreadClamp
    rw [spreadClamp_stored h] at hstores
    exact ⟨_, rfl, hstores⟩
  case spreadKept =>
    have hstores := dictWrite_stores hmay spreadClamp
    rw [spreadClamp_kept hbusy h] at hstores
    exact ⟨_, rfl, hstores⟩
  case dieNoc =>
    refine ⟨_, rfl, _, dictWrite_stores hmay _, ?_⟩
    rw [clampRow_dieNoc]
    exact clampTo_dieNoc (leNat v)

/-- Settles O47: the timebase's clauses and the domains' clauses, each by its own lemma. -/
theorem edgesAndJudgementsSteerTheClocks : Obligations.EdgesAndJudgementsSteerTheClocks :=
  ⟨edgesSteerTheTimebase, clocksAreJudgedAndSwitched⟩

end Sys2Proof.Machine
end

section
/-! SUPPORT. O48: ACTIVATION_COMMIT by the verdict of its check (R514), and the refutation: a warm reset that removes a partition of a number beyond the 16 loses the pair mode, and with it the role that the tray would join in (R414, R505, R506). -/

namespace Sys2Proof.Machine

open Sys2Proof Sys2Proof.Claims

/-! ### ACTIVATION_COMMIT once the partner is ready -/

section
variable {s : State} (hst : s.upd.st = .activating) (hready : partnerReady s = true)
include hst hready

/-- The staged image passes: it goes into the directory, and its measurement is appended after the warm reset. -/
theorem execActivationCommit_pass (h : fwCheck s (stagedImage s) = 0) :
    execActivationCommit s = .next (updSet (updDiscard (measure
      (warmDo { s with flash := { s.flash with
        images := mset s.flash.images (stagedImage s).comp (stagedImage s), dirOld := s.flash.dirSeq, dirSeq := s.flash.dirSeq + 1 } })
      (stagedImage s))) .idle 0) := by
  simp [execActivationCommit, hst, hready, h]

/-- It fails: the check is logged, and the old image runs on after the warm reset. -/
theorem execActivationCommit_fail (h : fwCheck s (stagedImage s) ≠ 0) :
    execActivationCommit s = .next (updSet (updDiscard
      (warmDo (checkLog s (stagedImage s) (fwCheck s (stagedImage s))))) .idle (checkResult (fwCheck s (stagedImage s)))) := by
  simp [execActivationCommit, hst, hready, h]

end

/-! ### The counterexample -/

/-- The number for which OD 0x3000.(p + 1), the admission that a REMOVE closes, has the key of OD 0x6400.0, the pair mode. No partition of R400 has it, but the state's map of partitions may hold it. -/
def strayPart : Nat := odKey 0x6400 0 - odKey 0x3000 1

/-- A tray set to pair with slot 1 (OD 0x6400, 0x6401) whose update activates, and on which `strayPart` is ACTIVE. -/
def strayTray : State :=
  { State.reset with
    gate := { parts := [(strayPart, { st := .active })] }
    upd := { st := .activating }
    pav := { vals := [(odKey 0x6400 0, 1), (odKey 0x6401 0, 1)] } }

theorem bootRole_strayTray : bootRole strayTray = .joining := by decide +kernel

theorem partnerReady_strayTray : partnerReady strayTray = true := by decide +kernel

/-- Whatever the check says, the warm reset's REMOVE stores 0 as the pair mode, and the tray comes back unpaired. -/
theorem activationCommit_strayTray : ∃ t, exec .activationCommit strayTray = .next t ∧ t.pair.role = .unpaired := by
  by_cases h : fwCheck strayTray (stagedImage strayTray) = 0
  · exact ⟨_, execActivationCommit_pass rfl partnerReady_strayTray h, by decide +kernel⟩
  · exact ⟨_, execActivationCommit_fail rfl partnerReady_strayTray h, by decide +kernel⟩

/-- Refutes O48: the commit's clause `t.pair.role = bootRole s` speaks of every state, and fails on `strayTray`, whose ACTIVE partition has a number that no partition has: the role settled before its removal is JOINING, the one after it UNPAIRED. -/
theorem not_updatesAreDeliveredArmedAndActivated : ¬ Obligations.UpdatesAreDeliveredArmedAndActivated := by
  rintro ⟨-, -, -, hcommit, -⟩
  obtain ⟨-, hready⟩ := hcommit strayTray rfl
  obtain ⟨t, hrun, -, hrole, -⟩ := hready partnerReady_strayTray
  obtain ⟨u, hrun', hunpaired⟩ := activationCommit_strayTray
  obtain rfl : t = u := by injection hrun.symm.trans hrun'
  rw [hunpaired, bootRole_strayTray] at hrole
  exact absurd hrole (by decide)

end Sys2Proof.Machine
end

section
/-! SUPPORT. Every command keeps the queue's rest, the fuses' direction and the memories' form (`exec_keeps`): each command's own `_keeps` from those of the operations it calls, and O56, O59, O60. -/

set_option linter.unreachableTactic false
set_option linter.unusedTactic false

namespace Sys2Proof.Machine

open Sys2Proof Sys2Proof.Claims

/-! ### The commands -/

theorem execSyncPost_keeps {st0 : State} (src : SyncSrc) (c : SyncAt) (n : Fin 1024) (amt : BitVec 16) (cyc : Nat) (s : State) (hk0 : Keeps st0 s) :
    ResKeeps st0 (execSyncPost src c n amt cyc s) := by
  unfold execSyncPost
  with_reducible repeat' first
    | assumption | apply ResKeeps.mk | apply syncForeign_keeps | apply syncPut_keeps | split

theorem execSyncSet_keeps {st0 : State} (src : SyncSrc) (c : SyncAt) (n : Fin 1024) (v : W32) (cyc : Nat) (s : State) (hk0 : Keeps st0 s) :
    ResKeeps st0 (execSyncSet src c n v cyc s) := by
  unfold execSyncSet
  with_reducible repeat' first
    | assumption | apply ResKeeps.mk | apply syncForeign_keeps | apply conflictNote_keeps | apply syncPut_keeps
    | fail_if_no_progress (apply Keeps.lit)
    | (extract_lets +onlyGivenNames x; first | (refine cut (a := Keeps st0 x) ?_ fun hx => ?_; subst x; rotate_left; clear_value x) | clear_value x)
    | split

theorem execSyncWait_keeps {st0 : State} (_src : SyncSrc) (c : SyncAt) (n : Fin 1024) (t : W32) (cyc : Nat) (s : State) (hk0 : Keeps st0 s) :
    ResKeeps st0 (execSyncWait _src c n t cyc s) := by
  unfold execSyncWait
  with_reducible repeat' first
    | assumption | apply ResKeeps.mk | apply emit_keeps | split

theorem execSyncRead_keeps {st0 : State} (_src : SyncSrc) (c : SyncAt) (n : Fin 1024) (cyc : Nat) (s : State) (hk0 : Keeps st0 s) :
    ResKeeps st0 (execSyncRead _src c n cyc s) := by
  unfold execSyncRead
  with_reducible repeat' first
    | assumption | apply ResKeeps.mk | apply emit_keeps | split

theorem execLaneWait_keeps {st0 : State} (l : Clus) (s : State) (hk0 : Keeps st0 s) :
    ResKeeps st0 (execLaneWait l s) := by
  unfold execLaneWait
  with_reducible repeat' first
    | assumption | apply ResKeeps.mk | apply laneWaitOp_keeps | fail_if_no_progress (apply Keeps.lit) | split

theorem execLanePost_keeps {st0 : State} (l : Clus) (s : State) (hk0 : Keeps st0 s) :
    ResKeeps st0 (execLanePost l s) := by
  unfold execLanePost
  with_reducible repeat' first
    | assumption | apply ResKeeps.mk | apply lanePostOp_keeps | fail_if_no_progress (apply Keeps.lit) | split

theorem execLaneWaitAndPost_keeps {st0 : State} (l : Clus) (s : State) (hk0 : Keeps st0 s) :
    ResKeeps st0 (execLaneWaitAndPost l s) := by
  unfold execLaneWaitAndPost
  with_reducible repeat' first
    | assumption | apply ResKeeps.mk | apply lanePostOp_keeps | apply laneWaitOp_keeps | fail_if_no_progress (apply Keeps.lit) | split

theorem execScoreboardWait_keeps {st0 : State} (l : Clus) (s : State) (hk0 : Keeps st0 s) :
    ResKeeps st0 (execScoreboardWait l s) := by
  unfold execScoreboardWait
  with_reducible repeat' first
    | assumption | apply ResKeeps.mk | apply laneWaitOp_keeps | apply laneSet_keeps | fail_if_no_progress (apply Keeps.lit) | split

theorem execBundleFetch_keeps {st0 : State} (d : Die) (s : State) (hk0 : Keeps st0 s) :
    ResKeeps st0 (execBundleFetch d s) := by
  unfold execBundleFetch
  with_reducible repeat' first
    | assumption | apply ResKeeps.mk | apply bundleCount_keeps | apply ctxEnd_keeps | apply slipNote_keeps | apply ctxSet_keeps
    | apply pushSlices_keeps | fail_if_no_progress (apply Keeps.lit)
    | (extract_lets +onlyGivenNames x; first | (refine cut (a := Keeps st0 x) ?_ fun hx => ?_; subst x; rotate_left; clear_value x) | clear_value x)
    | split

theorem execNext_keeps {st0 : State} (c : Ctx) (s : State) (hk0 : Keeps st0 s) :
    ResKeeps st0 (execNext c s) := by
  unfold execNext
  with_reducible repeat' first
    | assumption | (intro) | apply ResKeeps.mk | apply seqResolve_keeps | fail_if_no_progress (apply Keeps.lit)

theorem execLoopBegin_keeps {st0 : State} (c : Ctx) (s : State) (hk0 : Keeps st0 s) :
    ResKeeps st0 (execLoopBegin c s) := by
  unfold execLoopBegin
  with_reducible repeat' first
    | assumption | (intro) | apply ResKeeps.mk | apply seqResolve_keeps | fail_if_no_progress (apply Keeps.lit)
    | (extract_lets +onlyGivenNames x; first | (refine cut (a := Keeps st0 x) ?_ fun hx => ?_; subst x; rotate_left; clear_value x) | clear_value x)
    | split

theorem execLoopEnd_keeps {st0 : State} (c : Ctx) (s : State) (hk0 : Keeps st0 s) :
    ResKeeps st0 (execLoopEnd c s) := by
  unfold execLoopEnd
  with_reducible repeat' first
    | assumption | (intro) | apply ResKeeps.mk | apply seqResolve_keeps | fail_if_no_progress (apply Keeps.lit)
    | (extract_lets +onlyGivenNames x; first | (refine cut (a := Keeps st0 x) ?_ fun hx => ?_; subst x; rotate_left; clear_value x) | clear_value x)
    | split

theorem execJump_keeps {st0 : State} (c : Ctx) (s : State) (hk0 : Keeps st0 s) :
    ResKeeps st0 (execJump c s) := by
  unfold execJump
  with_reducible repeat' first
    | assumption | (intro) | apply ResKeeps.mk | apply seqResolve_keeps | fail_if_no_progress (apply Keeps.lit)

theorem execStepBegin_keeps {st0 : State} (c : Ctx) (s : State) (hk0 : Keeps st0 s) :
    ResKeeps st0 (execStepBegin c s) := by
  unfold execStepBegin
  with_reducible repeat' first
    | assumption | (intro) | apply ResKeeps.mk | apply seqResolve_keeps | fail_if_no_progress (apply Keeps.lit)

theorem execFence_keeps {st0 : State} (c : Ctx) (s : State) (hk0 : Keeps st0 s) :
    ResKeeps st0 (execFence c s) := by
  unfold execFence
  with_reducible repeat' first
    | assumption | (intro) | apply ResKeeps.mk | apply seqResolve_keeps | fail_if_no_progress (apply Keeps.lit)

theorem execStepEnd_keeps {st0 : State} (c : Ctx) (s : State) (hk0 : Keeps st0 s) :
    ResKeeps st0 (execStepEnd c s) := by
  unfold execStepEnd
  with_reducible repeat' first
    | assumption | (intro) | apply ResKeeps.mk | apply seqResolve_keeps | fail_if_no_progress (apply Keeps.lit)

theorem execClusterDmaIssue_keeps {st0 : State} (l : Clus) (ch : Fin 2) (s : State) (hk0 : Keeps st0 s) :
    ResKeeps st0 (execClusterDmaIssue l ch s) := by
  unfold execClusterDmaIssue
  with_reducible repeat' first
    | assumption | apply ResKeeps.mk | apply cdmaIssue_keeps | split

theorem execLaneBeginBundle_keeps {st0 : State} (l : Clus) (s : State) (hk0 : Keeps st0 s) :
    ResKeeps st0 (execLaneBeginBundle l s) := by
  unfold execLaneBeginBundle
  with_reducible repeat' first
    | assumption | apply ResKeeps.mk | apply laneRepeat_keeps | apply laneNext_keeps | apply laneSet_keeps
    | fail_if_no_progress (apply Keeps.lit) | split

theorem execPrefixMatch_keeps {st0 : State} (h : Nat) (s : State) (hk0 : Keeps st0 s) :
    ResKeeps st0 (execPrefixMatch h s) := by
  unfold execPrefixMatch
  with_reducible repeat' first
    | assumption | apply ResKeeps.mk | apply matchGo_keeps | apply retainFix_keeps | apply reqSet_keeps
    | fail_if_no_progress (apply Keeps.lit)
    | (extract_lets +onlyGivenNames x; first | (refine cut (a := Keeps st0 x) ?_ fun hx => ?_; subst x; rotate_left; clear_value x) | (refine cut (a := Keeps st0 x.2) ?_ fun hx => ?_; subst x; rotate_left; clear_value x) | (refine cut (a := Keeps st0 x.1) ?_ fun hx => ?_; subst x; rotate_left; clear_value x) | clear_value x)
    | split | refine pair_cut (by assumption) ?_ | refine pair_cut' (by assumption) ?_

theorem execRebuildMigrateSet_keeps {st0 : State} (s : State) (hk0 : Keeps st0 s) :
    ResKeeps st0 (execRebuildMigrateSet s) := by
  unfold execRebuildMigrateSet
  with_reducible repeat' first
    | assumption | (intro) | apply ResKeeps.mk | apply each_keeps | apply idxDrop_keeps | apply arrive_keeps
    | fail_if_no_progress (apply Keeps.lit)
    | (extract_lets +onlyGivenNames x; first | (refine cut (a := Keeps st0 x) ?_ fun hx => ?_; subst x; rotate_left; clear_value x) | clear_value x)
    | split

theorem execPrefixTableSwitch_keeps {st0 : State} (s : State) (hk0 : Keeps st0 s) :
    ResKeeps st0 (execPrefixTableSwitch s) := by
  unfold execPrefixTableSwitch
  with_reducible repeat' first
    | assumption | apply ResKeeps.mk | apply switchCommit_keeps | fail_if_no_progress (apply Keeps.lit) | split

theorem execEpochAdvance_keeps {st0 : State} (s : State) (hk0 : Keeps st0 s) :
    ResKeeps st0 (execEpochAdvance s) := by
  unfold execEpochAdvance
  with_reducible repeat' first
    | assumption | apply ResKeeps.mk | apply epochTick_keeps | split

theorem execFrameRelease_keeps {st0 : State} (f : Nat) (s : State) (hk0 : Keeps st0 s) :
    ResKeeps st0 (execFrameRelease f s) := by
  unfold execFrameRelease
  with_reducible repeat' first
    | assumption | apply ResKeeps.mk | apply frameFree_keeps | fail_if_no_progress (apply Keeps.lit)
    | (extract_lets +onlyGivenNames x; first | (refine cut (a := Keeps st0 x) ?_ fun hx => ?_; subst x; rotate_left; clear_value x) | clear_value x)
    | split

theorem execKvPoolWrite_keeps {st0 : State} (rq : DictReq) (p : PartId) (v : List Byte) (s : State) (hk0 : Keeps st0 s) :
    ResKeeps st0 (execKvPoolWrite rq p v s) := by
  unfold execKvPoolWrite
  with_reducible repeat' first
    | assumption | (intro) | apply ResKeeps.mk | apply dictWrite_keeps | apply poolRaise_keeps | apply poolSet_keeps
    | fail_if_no_progress (apply Keeps.lit)
    | (extract_lets +onlyGivenNames x; first | (refine cut (a := Keeps st0 x) ?_ fun hx => ?_; subst x; rotate_left; clear_value x) | clear_value x)
    | split

theorem execPoolRelayout_keeps {st0 : State} (p : PartId) (s : State) (hk0 : Keeps st0 s) :
    ResKeeps st0 (execPoolRelayout p s) := by
  unfold execPoolRelayout
  with_reducible repeat' first
    | assumption | apply ResKeeps.mk | apply poolLayout_keeps
    | (extract_lets +onlyGivenNames x; first | (refine cut (a := Keeps st0 x) ?_ fun hx => ?_; subst x; rotate_left; clear_value x) | clear_value x)
    | split

theorem execSubmissionNop_keeps {st0 : State} (s : State) (hk0 : Keeps st0 s) :
    ResKeeps st0 (execSubmissionNop s) := by
  unfold execSubmissionNop
  with_reducible repeat' first
    | assumption | apply ResKeeps.mk | apply takenDrop_keeps | apply hostClamp_keeps | fail_if_no_progress (apply Keeps.lit)
    | (extract_lets +onlyGivenNames x; first | (refine cut (a := Keeps st0 x) ?_ fun hx => ?_; subst x; rotate_left; clear_value x) | clear_value x)
    | split

theorem execCancel_keeps {st0 : State} (s : State) (hk0 : Keeps st0 s) : ResKeeps st0 (execCancel s) := by
  unfold execCancel
  split
  · exact .mk hk0
  · dsimp only
    have hk := hostClamp_keeps (st0 := st0) (takenDrop s ‹_› ‹_›) (‹Taken›.f.val + 1) (eClamped s ‹Taken›.f.val ‹Taken›.entry).2
      (takenDrop_keeps _ _ _ hk0)
    with_reducible repeat' first
      | assumption | apply ResKeeps.mk | apply complTo_keeps | apply reqCancel_keeps | apply reqSet_keeps | split

theorem execLoadImage_keeps {st0 : State} (img : Image) (s : State) (hk0 : Keeps st0 s) :
    ResKeeps st0 (execLoadImage img s) := by
  unfold execLoadImage
  with_reducible repeat' first
    | assumption | (intro) | apply ResKeeps.mk | apply takenWait_keeps | apply hostClamp_keeps | apply takenDrop_keeps | apply loadTry_keeps
    | fail_if_no_progress (apply Keeps.lit)
    | (extract_lets +onlyGivenNames x; first | (refine cut (a := Keeps st0 x) ?_ fun hx => ?_; subst x; rotate_left; clear_value x) | clear_value x)
    | split

theorem execCostTableCommit_keeps {st0 : State} (p : PartId) (s : State) (hk0 : Keeps st0 s) :
    ResKeeps st0 (execCostTableCommit p s) := by
  unfold execCostTableCommit
  with_reducible repeat' first
    | assumption | (intro) | apply ResKeeps.mk | apply each_keeps | apply loadTry_keeps | fail_if_no_progress (apply Keeps.lit)
    | (extract_lets +onlyGivenNames x; first | (refine cut (a := Keeps st0 x) ?_ fun hx => ?_; subst x; rotate_left; clear_value x) | clear_value x)
    | split

theorem execSubmit_keeps {st0 : State} (hostTokens : List W32) (s : State) (hk0 : Keeps st0 s) :
    ResKeeps st0 (execSubmit hostTokens s) := by
  unfold execSubmit
  with_reducible repeat' first
    | assumption | apply ResKeeps.mk | apply submitFollow_keeps | apply leaderSend_keeps | apply submitOwn_keeps
    | apply hostClamp_keeps | apply takenDrop_keeps | extract_lets | split

theorem execFollowerAdmit_keeps {st0 : State} (m : LeaderMsg) (s : State) (hk0 : Keeps st0 s) :
    ResKeeps st0 (execFollowerAdmit m s) := by
  unfold execFollowerAdmit
  with_reducible repeat' first
    | assumption | apply ResKeeps.mk | apply id_keeps | fail_if_no_progress (apply Keeps.lit) | split

theorem execAlloc_keeps {st0 : State} (s : State) (hk0 : Keeps st0 s) :
    ResKeeps st0 (execAlloc s) := by
  unfold execAlloc
  with_reducible repeat' first
    | assumption | (intro) | apply ResKeeps.mk | apply hostClamp_keeps | apply commandDone_keeps | apply takenDrop_keeps | apply each_keeps
    | apply granSet_keeps | apply takenWait_keeps | fail_if_no_progress (apply Keeps.lit)
    | (extract_lets +onlyGivenNames x; first | (refine cut (a := Keeps st0 x) ?_ fun hx => ?_; subst x; rotate_left; clear_value x) | clear_value x)
    | split

theorem execFree_keeps {st0 : State} (s : State) (hk0 : Keeps st0 s) : ResKeeps st0 (execFree s) := by
  unfold execFree
  split
  · exact .mk hk0
  · dsimp only
    have hk := hostClamp_keeps (st0 := st0) (takenDrop s ‹_› ‹_›) (‹Taken›.f.val + 1) (eClamped s ‹Taken›.f.val ‹Taken›.entry).2
      (takenDrop_keeps _ _ _ hk0)
    with_reducible repeat' first
      | assumption | (intro) | apply ResKeeps.mk | apply commandDone_keeps | apply reject_keeps | apply each_keeps | apply granScrub_keeps | split

theorem execDmaCommand_keeps {st0 : State} (desc : W512) (s : State) (hk0 : Keeps st0 s) :
    ResKeeps st0 (execDmaCommand desc s) := by
  unfold execDmaCommand
  with_reducible repeat' first
    | assumption | apply ResKeeps.mk | apply hostClamp_keeps | apply takenDrop_keeps | apply jobIssue_keeps
    | fail_if_no_progress (apply Keeps.lit)
    | (extract_lets +onlyGivenNames x; first | (refine cut (a := Keeps st0 x) ?_ fun hx => ?_; subst x; rotate_left; clear_value x) | clear_value x)
    | split

theorem execCowCopyComplete_keeps {st0 : State} (p : PartId) (status : DmaStatus) (s : State) (hk0 : Keeps st0 s) :
    ResKeeps st0 (execCowCopyComplete p status s) := by
  unfold execCowCopyComplete
  with_reducible repeat' first
    | assumption | apply ResKeeps.mk | apply copyEnd_keeps | fail_if_no_progress (apply Keeps.lit)
    | (extract_lets +onlyGivenNames x; first | (refine cut (a := Keeps st0 x) ?_ fun hx => ?_; subst x; rotate_left; clear_value x) | clear_value x)
    | split

theorem execRoundStart_keeps {st0 : State} (p : PartId) (s : State) (hk0 : Keeps st0 s) :
    ResKeeps st0 (execRoundStart p s) := by
  unfold execRoundStart
  with_reducible repeat' first
    | assumption | (intro) | apply ResKeeps.mk | apply followRound_keeps | apply foldl_keeps | apply each_keeps | apply pauseReq_keeps
    | apply resumeReq_keeps | apply serviceCopies_keeps | apply foldl_keeps | fail_if_no_progress (apply Keeps.lit)
    | (extract_lets +onlyGivenNames x; first | (refine cut (a := Keeps st0 x) ?_ fun hx => ?_; subst x; rotate_left; clear_value x) | (refine cut (a := Keeps st0 x.2) ?_ fun hx => ?_; subst x; rotate_left; clear_value x) | (refine cut (a := Keeps st0 x.1) ?_ fun hx => ?_; subst x; rotate_left; clear_value x) | clear_value x)
    | split | refine pair_cut (by assumption) ?_ | refine pair_cut' (by assumption) ?_

theorem execStepDispatch_keeps {st0 : State} (p : PartId) (s : State) (hk0 : Keeps st0 s) :
    ResKeeps st0 (execStepDispatch p s) := by
  unfold execStepDispatch
  with_reducible repeat' first
    | assumption | apply ResKeeps.mk | apply copiesRetry_keeps | apply stageGo_keeps | fail_if_no_progress (apply Keeps.lit)
    | (extract_lets +onlyGivenNames x; first | (refine cut (a := Keeps st0 x) ?_ fun hx => ?_; subst x; rotate_left; clear_value x) | clear_value x)
    | split

theorem execWaitingPageResume_keeps {st0 : State} (p : PartId) (s : State) (hk0 : Keeps st0 s) :
    ResKeeps st0 (execWaitingPageResume p s) := by
  unfold execWaitingPageResume
  with_reducible repeat' first
    | assumption | (intro) | apply ResKeeps.mk | apply reqSet_keeps | fail_if_no_progress (apply Keeps.lit)
    | (extract_lets +onlyGivenNames x; first | (refine cut (a := Keeps st0 x) ?_ fun hx => ?_; subst x; rotate_left; clear_value x) | clear_value x)
    | split

theorem execStepComplete_keeps {st0 : State} (p : PartId) (s : State) (hk0 : Keeps st0 s) : ResKeeps st0 (execStepComplete p s) := by
  unfold execStepComplete
  extract_lets +onlyGivenNames q
  subst q
  with_reducible repeat' first
    | assumption | (intro) | apply ResKeeps.mk | apply each_keeps | apply ctxEnd_keeps | apply laneCvuClose_keeps | apply flagsTake_keeps
    | apply stepReport_keeps | apply ctxClear_keeps | apply deltaForget_keeps | apply jobsForget_keeps | apply stepCommit_keeps
    | apply stepDrop_keeps | apply batchFail_keeps | apply abortTell_keeps | apply boundaryEnd_keeps | apply drainEnd_keeps
    | apply stageBack_keeps | apply serviceFault_keeps | apply logErr_keeps | fail_if_no_progress (apply Keeps.lit)
    | (extract_lets +onlyGivenNames x; first | (refine cut (a := Keeps st0 x) ?_ fun hx => ?_; subst x; rotate_left; clear_value x) | (refine cut (a := Keeps st0 x.2) ?_ fun hx => ?_; subst x; rotate_left; clear_value x) | (refine cut (a := Keeps st0 x.1) ?_ fun hx => ?_; subst x; rotate_left; clear_value x) | clear_value x)
    | split
    | refine pair_cut (by assumption) ?_ | refine pair_cut' (by assumption) ?_

theorem execStepEarlyEnd_keeps {st0 : State} (c : Ctx) (code : Fin 5) (s : State) (hk0 : Keeps st0 s) :
    ResKeeps st0 (execStepEarlyEnd c code s) := by
  unfold execStepEarlyEnd
  with_reducible repeat' first
    | assumption | apply ResKeeps.mk | apply ctxEnd_keeps | split

theorem execStepWatchdogExpiry_keeps {st0 : State} (p : PartId) (s : State) (hk0 : Keeps st0 s) :
    ResKeeps st0 (execStepWatchdogExpiry p s) := by
  unfold execStepWatchdogExpiry
  with_reducible repeat' first
    | assumption | (intro) | apply ResKeeps.mk | apply each_keeps | apply ctxEnd_keeps | fail_if_no_progress (apply Keeps.lit) | split

theorem execStepReplay_keeps {st0 : State} (p : PartId) (s : State) (hk0 : Keeps st0 s) :
    ResKeeps st0 (execStepReplay p s) := by
  unfold execStepReplay
  with_reducible repeat' first
    | assumption | (intro) | apply ResKeeps.mk | apply drainEnd_keeps | apply stepDrop_keeps | apply batchWrite_keeps | apply bump64_keeps
    | apply foldl_keeps | apply dispatchTo_keeps | apply foldl_keeps | fail_if_no_progress (apply Keeps.lit)
    | (extract_lets +onlyGivenNames x; first | (refine cut (a := Keeps st0 x) ?_ fun hx => ?_; subst x; rotate_left; clear_value x) | (refine cut (a := Keeps st0 x.2) ?_ fun hx => ?_; subst x; rotate_left; clear_value x) | (refine cut (a := Keeps st0 x.1) ?_ fun hx => ?_; subst x; rotate_left; clear_value x) | clear_value x)
    | split | refine pair_cut (by assumption) ?_ | refine pair_cut' (by assumption) ?_

theorem execParityError_keeps {st0 : State} (site : ErrSite) (s : State) (hk0 : Keeps st0 s) :
    ResKeeps st0 (execParityError site s) := by
  unfold execParityError
  with_reducible repeat' first
    | assumption | apply ResKeeps.mk | apply siteError_keeps | split

theorem execPinwheelJob_keeps {st0 : State} (d : EngTurn Die) (s : State) (hk0 : Keeps st0 s) :
    ResKeeps st0 (execPinwheelJob d s) := by
  unfold execPinwheelJob
  with_reducible repeat' first
    | assumption | (intro) | apply ResKeeps.mk | apply dieFault_keeps | apply pinwheelPop_keeps | apply pinwheelRun_keeps
    | fail_if_no_progress (apply Keeps.lit)
    | (extract_lets +onlyGivenNames x; first | (refine cut (a := Keeps st0 x) ?_ fun hx => ?_; subst x; rotate_left; clear_value x) | clear_value x)
    | split

theorem execPinwheelOwnerWrite_keeps {st0 : State} (rq : DictReq) (d : Die) (v : List Byte) (s : State) (hk0 : Keeps st0 s) :
    ResKeeps st0 (execPinwheelOwnerWrite rq d v s) := by
  unfold execPinwheelOwnerWrite
  with_reducible repeat' first
    | assumption | (intro) | apply ResKeeps.mk | apply dictWrite_keeps | apply dieBuffersClear_keeps
    | (extract_lets +onlyGivenNames x; first | (refine cut (a := Keeps st0 x) ?_ fun hx => ?_; subst x; rotate_left; clear_value x) | clear_value x)
    | split

theorem execVariantRegister_keeps {st0 : State} (rq : DictReq) (p : PartId) (variant : BitVec 12) (addr : BitVec 48) (s : State) (hk0 : Keeps st0 s) :
    ResKeeps st0 (execVariantRegister rq p variant addr s) := by
  unfold execVariantRegister
  with_reducible repeat' first
    | assumption | apply ResKeeps.mk | apply varWrite_keeps

theorem execVariantRetire_keeps {st0 : State} (rq : DictReq) (p : PartId) (variant : BitVec 12) (s : State) (hk0 : Keeps st0 s) :
    ResKeeps st0 (execVariantRetire rq p variant s) := by
  unfold execVariantRetire
  with_reducible repeat' first
    | assumption | apply ResKeeps.mk | apply varWrite_keeps

theorem execVariantCheckDone_keeps {st0 : State} (p : PartId) (s : State) (hk0 : Keeps st0 s) :
    ResKeeps st0 (execVariantCheckDone p s) := by
  unfold execVariantCheckDone
  with_reducible repeat' first
    | assumption | (intro) | apply ResKeeps.mk | apply varResult_keeps | apply varProtect_keeps | apply varSet_keeps
    | fail_if_no_progress (apply Keeps.lit)
    | (extract_lets +onlyGivenNames x; first | (refine cut (a := Keeps st0 x) ?_ fun hx => ?_; subst x; rotate_left; clear_value x) | clear_value x)
    | split

theorem execDeltaJob_keeps {st0 : State} (d : EngTurn Die) (s : State) (hk0 : Keeps st0 s) :
    ResKeeps st0 (execDeltaJob d s) := by
  unfold execDeltaJob
  with_reducible repeat' first
    | assumption | (intro) | apply ResKeeps.mk | apply dieFault_keeps | apply deltaPop_keeps | apply deltaRun_keeps
    | fail_if_no_progress (apply Keeps.lit)
    | (extract_lets +onlyGivenNames x; first | (refine cut (a := Keeps st0 x) ?_ fun hx => ?_; subst x; rotate_left; clear_value x) | clear_value x)
    | split

theorem execDeltaOwnerWrite_keeps {st0 : State} (rq : DictReq) (d : Die) (v : List Byte) (s : State) (hk0 : Keeps st0 s) :
    ResKeeps st0 (execDeltaOwnerWrite rq d v s) := by
  unfold execDeltaOwnerWrite
  with_reducible repeat' first
    | assumption | (intro) | apply ResKeeps.mk | apply dictWrite_keeps | apply dieBuffersClear_keeps
    | (extract_lets +onlyGivenNames x; first | (refine cut (a := Keeps st0 x) ?_ fun hx => ?_; subst x; rotate_left; clear_value x) | clear_value x)
    | split

theorem execCopy_keeps {st0 : State} (e : DmaEng) (ecc : List EccEvent) (s : State) (hk0 : Keeps st0 s) :
    ResKeeps st0 (execCopy e ecc s) := by
  unfold execCopy
  with_reducible repeat' first
    | assumption | (intro) | apply ResKeeps.mk | apply engRun_keeps | apply copyRun_keeps

theorem execFill_keeps {st0 : State} (e : DmaEng) (s : State) (hk0 : Keeps st0 s) :
    ResKeeps st0 (execFill e s) := by
  unfold execFill
  with_reducible repeat' first
    | assumption | (intro) | apply ResKeeps.mk | apply engRun_keeps | apply fillRun_keeps

theorem execPageRead_keeps {st0 : State} (e : DmaEng) (ecc : List EccEvent) (s : State) (hk0 : Keeps st0 s) :
    ResKeeps st0 (execPageRead e ecc s) := by
  unfold execPageRead
  with_reducible repeat' first
    | assumption | (intro) | apply ResKeeps.mk | apply engRun_keeps | apply pagesRun_keeps

theorem execPageWrite_keeps {st0 : State} (e : EngTurn DmaEng) (s : State) (hk0 : Keeps st0 s) :
    ResKeeps st0 (execPageWrite e s) := by
  unfold execPageWrite
  with_reducible repeat' first
    | assumption | (intro) | apply ResKeeps.mk | apply engRun_keeps | apply pagesRun_keeps

theorem execGcmDecrypt_keeps {st0 : State} (s : State) (hk0 : Keeps st0 s) :
    ResKeeps st0 (execGcmDecrypt s) := by
  unfold execGcmDecrypt
  with_reducible repeat' first
    | assumption | apply ResKeeps.mk | apply engRun_keeps | apply gcmRun_keeps

theorem execHostReadCompletion_keeps {st0 : State} (tag : Nat) (data : List Byte) (ok : Bool) (s : State) (hk0 : Keeps st0 s) :
    ResKeeps st0 (execHostReadCompletion tag data ok s) := by
  unfold execHostReadCompletion
  with_reducible repeat' first
    | assumption | apply ResKeeps.mk | apply emit_keeps | apply hostReadFail_keeps | apply jobsSet_keeps
    | fail_if_no_progress (apply Keeps.lit)
    | (extract_lets +onlyGivenNames x; first | (refine cut (a := Keeps st0 x) ?_ fun hx => ?_; subst x; rotate_left; clear_value x) | clear_value x)
    | split

theorem execDescriptorComplete_keeps {st0 : State} (e : DmaEng) (s : State) (hk0 : Keeps st0 s) :
    ResKeeps st0 (execDescriptorComplete e s) := by
  unfold execDescriptorComplete
  with_reducible repeat' first
    | assumption | apply ResKeeps.mk | apply jobComplete_keeps | apply foldJob_keeps | fail_if_no_progress (apply Keeps.lit)
    | (extract_lets +onlyGivenNames x; first | (refine cut (a := Keeps st0 x) ?_ fun hx => ?_; subst x; rotate_left; clear_value x) | clear_value x)
    | split

theorem execPatrolScrub_keeps {st0 : State} (stack : Fin 8) (ecc : List EccEvent) (s : State) (hk0 : Keeps st0 s) :
    ResKeeps st0 (execPatrolScrub stack ecc s) := by
  unfold execPatrolScrub
  split
  · exact .mk hk0
  · exact .mk (each_keeps _ _ _ (fun _ _ h => patrolLine_keeps _ _ _ h) hk0).lit'

theorem execHbmRetrain_keeps {st0 : State} (stack : Fin 8) (channel : Nat) (s : State) (hk0 : Keeps st0 s) :
    ResKeeps st0 (execHbmRetrain stack channel s) := by
  unfold execHbmRetrain
  extract_lets key now due
  split
  · exact .mk hk0
  · exact .mk hk0.lit'

theorem execOpenSession_keeps {st0 : State} (s : State) (hk0 : Keeps st0 s) :
    ResKeeps st0 (execOpenSession s) := by
  unfold execOpenSession
  with_reducible repeat' first
    | assumption | (intro) | apply ResKeeps.mk | apply zDrop_keeps | apply zRefuse_keeps | apply vSet_keeps | apply vPush_keeps
    | fail_if_no_progress (apply Keeps.lit)
    | (extract_lets +onlyGivenNames x; first | (refine cut (a := Keeps st0 x) ?_ fun hx => ?_; subst x; rotate_left; clear_value x) | clear_value x)
    | split

theorem execFeed_keeps {st0 : State} (s : State) (hk0 : Keeps st0 s) :
    ResKeeps st0 (execFeed s) := by
  unfold execFeed
  with_reducible repeat' first
    | assumption | (intro) | apply ResKeeps.mk | apply zCommand_keeps | apply vPush_keeps | apply vSet_keeps
    | fail_if_no_progress (apply Keeps.lit)
    | (extract_lets +onlyGivenNames x; first | (refine cut (a := Keeps st0 x) ?_ fun hx => ?_; subst x; rotate_left; clear_value x) | clear_value x)

theorem execEncode_keeps {st0 : State} (s : State) (hk0 : Keeps st0 s) :
    ResKeeps st0 (execEncode s) := by
  unfold execEncode
  with_reducible repeat' first
    | assumption | (intro) | apply ResKeeps.mk | apply zCommand_keeps | apply vSet_keeps | fail_if_no_progress (apply Keeps.lit)
    | (extract_lets +onlyGivenNames x; first | (refine cut (a := Keeps st0 x) ?_ fun hx => ?_; subst x; rotate_left; clear_value x) | clear_value x)

theorem execKey_keeps {st0 : State} (s : State) (hk0 : Keeps st0 s) :
    ResKeeps st0 (execKey s) := by
  unfold execKey
  with_reducible repeat' first
    | assumption | (intro) | apply ResKeeps.mk | apply zCommand_keeps | apply vSet_keeps | fail_if_no_progress (apply Keeps.lit)

theorem execRelease_keeps {st0 : State} (s : State) (hk0 : Keeps st0 s) :
    ResKeeps st0 (execRelease s) := by
  unfold execRelease
  with_reducible repeat' first
    | assumption | (intro) | apply ResKeeps.mk | apply zCommand_keeps | apply vSet_keeps | apply releasePost_keeps
    | fail_if_no_progress (apply Keeps.lit) | split

theorem execFlush_keeps {st0 : State} (s : State) (hk0 : Keeps st0 s) :
    ResKeeps st0 (execFlush s) := by
  unfold execFlush
  with_reducible repeat' first
    | assumption | (intro) | apply ResKeeps.mk | apply zCommand_keeps | apply vFlushed_keeps | apply vSet_keeps

theorem execClose_keeps {st0 : State} (s : State) (hk0 : Keeps st0 s) :
    ResKeeps st0 (execClose s) := by
  unfold execClose
  with_reducible repeat' first
    | assumption | (intro) | apply ResKeeps.mk | apply zCommand_keeps | apply sessionEnd_keeps

theorem execPictureReconstructStart_keeps {st0 : State} (session : Fin 512) (h : PicHead) (s : State) (hk0 : Keeps st0 s) :
    ResKeeps st0 (execPictureReconstructStart session h s) := by
  unfold execPictureReconstructStart
  split
  · exact .mk hk0
  · dsimp only
    with_reducible repeat' first
      | assumption | apply ResKeeps.mk | apply vFlushed_keeps | apply vSet_keeps | apply waitKeyEnter_keeps | apply pictureBegin_keeps | split

/-- What an engine meets takes effect one after another. -/
theorem nalGo_keeps {st0 : State} (n : Nat) (met : List NalFact) (s : State) (hk0 : Keeps st0 s) : Keeps st0 (nalGo n met s) := by
  induction met generalizing s with
  | nil => exact hk0
  | cons f l ih =>
    unfold nalGo
    split
    · exact hk0
    · exact ih _ (nalEffect_keeps _ _ _ hk0)

theorem execEntropySwitch_keeps {st0 : State} (eng : Fin 6) (session : Fin 512) (filled : List Nat) (met : List NalFact) (s : State)
    (hk0 : Keeps st0 s) : ResKeeps st0 (execEntropySwitch eng session filled met s) := by
  unfold execEntropySwitch
  split
  · exact .mk hk0
  · extract_lets +onlyGivenNames n has s'
    refine cut (a := Keeps st0 s') ?_ fun hk => ?_
    · subst s'
      clear_value has
      split
      · exact vSet_keeps _ _ _ hk0
      · exact hk0
    · clear_value s'
      dsimp only
      with_reducible repeat' first
        | assumption | apply ResKeeps.mk | apply nalGo_keeps | fail_if_no_progress (apply Keeps.lit) | split

theorem execCtuRowDispatch_keeps {st0 : State} (session : Fin 512) (unit row : Nat) (s : State) (hk0 : Keeps st0 s) :
    ResKeeps st0 (execCtuRowDispatch session unit row s) := by
  unfold execCtuRowDispatch
  with_reducible repeat' first
    | assumption | (intro) | apply ResKeeps.mk | apply vFlushed_keeps | apply ctuRow_keeps | fail_if_no_progress (apply Keeps.lit) | split

theorem execPictureOutput_keeps {st0 : State} (session : Fin 512) (s : State) (hk0 : Keeps st0 s) :
    ResKeeps st0 (execPictureOutput session s) := by
  unfold execPictureOutput
  with_reducible repeat' first
    | assumption | (intro) | apply ResKeeps.mk | apply vSet_keeps | apply locPost_keeps | apply bump64_keeps | apply bump32_keeps
    | apply vPush_keeps | apply vFlushed_keeps | fail_if_no_progress (apply Keeps.lit)
    | (extract_lets +onlyGivenNames x; first | (refine cut (a := Keeps st0 x) ?_ fun hx => ?_; subst x; rotate_left; clear_value x) | clear_value x)
    | split

theorem execReleaseCounterPost_keeps {st0 : State} (part : PartId) (session : Fin 512) (n : BitVec 16) (s : State) (hk0 : Keeps st0 s) :
    ResKeeps st0 (execReleaseCounterPost part session n s) := by
  unfold execReleaseCounterPost
  with_reducible repeat' first
    | assumption | apply ResKeeps.mk | apply releasePost_keeps | split

theorem execEncodePicture_keeps {st0 : State} (session : Fin 64) (s : State) (hk0 : Keeps st0 s) :
    ResKeeps st0 (execEncodePicture session s) := by
  unfold execEncodePicture
  with_reducible repeat' first
    | assumption | (intro) | apply ResKeeps.mk | apply encodeOne_keeps | fail_if_no_progress (apply Keeps.lit)
    | (extract_lets +onlyGivenNames x; first | (refine cut (a := Keeps st0 x) ?_ fun hx => ?_; subst x; rotate_left; clear_value x) | clear_value x)
    | split

theorem execFlitReceive_keeps {st0 : State} (port : Fin 2) (flit : BitVec 2048) (fec : FecResult) (corrected : Nat) (s : State) (hk0 : Keeps st0 s) :
    ResKeeps st0 (execFlitReceive port flit fec corrected s) := by
  unfold execFlitReceive
  with_reducible repeat' first
    | assumption | apply ResKeeps.mk | apply corrected_keeps | apply bumpBy_keeps | apply emit_keeps | apply linkDrain_keeps
    | apply creditGrant_keeps | apply portSet_keeps | fail_if_no_progress (apply Keeps.lit)
    | (extract_lets +onlyGivenNames x; first | (refine cut (a := Keeps st0 x) ?_ fun hx => ?_; subst x; rotate_left; clear_value x) | clear_value x)
    | split

theorem execFlitReplay_keeps {st0 : State} (port : Fin 2) (seq : BitVec 12) (s : State) (hk0 : Keeps st0 s) :
    ResKeeps st0 (execFlitReplay port seq s) := by
  unfold execFlitReplay
  with_reducible repeat' first
    | assumption | (intro) | apply ResKeeps.mk | apply bumpBy_keeps | apply portLost_keeps | apply portSet_keeps | apply each_keeps
    | apply emit_keeps | fail_if_no_progress (apply Keeps.lit)
    | (extract_lets +onlyGivenNames x; first | (refine cut (a := Keeps st0 x) ?_ fun hx => ?_; subst x; rotate_left; clear_value x) | clear_value x)
    | split

theorem execPortDown_keeps {st0 : State} (port : Fin 2) (s : State) (hk0 : Keeps st0 s) :
    ResKeeps st0 (execPortDown port s) := by
  unfold execPortDown
  with_reducible repeat' first
    | assumption | apply ResKeeps.mk | apply portLost_keeps

theorem execCreditControlBlock_keeps {st0 : State} (port : Fin 2) (vc : Fin 3) (n : Nat) (s : State) (hk0 : Keeps st0 s) :
    ResKeeps st0 (execCreditControlBlock port vc n s) := by
  unfold execCreditControlBlock
  with_reducible repeat' first
    | assumption | apply ResKeeps.mk | apply linkDrain_keeps | apply portSet_keeps | fail_if_no_progress (apply Keeps.lit)
    | (extract_lets +onlyGivenNames x; first | (refine cut (a := Keeps st0 x) ?_ fun hx => ?_; subst x; rotate_left; clear_value x) | clear_value x)
    | split

theorem execLaneOutOfService_keeps {st0 : State} (port : Fin 2) (lane : Fin 8) (s : State) (hk0 : Keeps st0 s) :
    ResKeeps st0 (execLaneOutOfService port lane s) := by
  unfold execLaneOutOfService
  with_reducible repeat' first
    | assumption | apply ResKeeps.mk | apply refused_keeps | apply lanesSet_keeps
    | (extract_lets +onlyGivenNames x; first | (refine cut (a := Keeps st0 x) ?_ fun hx => ?_; subst x; rotate_left; clear_value x) | clear_value x)
    | split

theorem execLaneRestore_keeps {st0 : State} (port : Fin 2) (lane : Fin 8) (s : State) (hk0 : Keeps st0 s) :
    ResKeeps st0 (execLaneRestore port lane s) := by
  unfold execLaneRestore
  with_reducible repeat' first
    | assumption | apply ResKeeps.mk | apply lanesSet_keeps
    | (extract_lets +onlyGivenNames x; first | (refine cut (a := Keeps st0 x) ?_ fun hx => ?_; subst x; rotate_left; clear_value x) | clear_value x)
    | split

theorem execHelloSend_keeps {st0 : State} (port : Fin 2) (s : State) (hk0 : Keeps st0 s) :
    ResKeeps st0 (execHelloSend port s) := by
  unfold execHelloSend
  with_reducible repeat' first
    | assumption | apply ResKeeps.mk | apply emit_keeps | apply portSet_keeps | fail_if_no_progress (apply Keeps.lit)
    | (extract_lets +onlyGivenNames x; first | (refine cut (a := Keeps st0 x) ?_ fun hx => ?_; subst x; rotate_left; clear_value x) | clear_value x)
    | split

theorem execHelloReceive_keeps {st0 : State} (port : Fin 2) (h : HelloBlock) (s : State) (hk0 : Keeps st0 s) :
    ResKeeps st0 (execHelloReceive port h s) := by
  unfold execHelloReceive
  with_reducible repeat' first
    | assumption | apply ResKeeps.mk | apply portSet_keeps | apply refused_keeps | apply portAGone_keeps | apply odSet_keeps
    | apply emit_keeps | apply creditGrant_keeps | apply linkDrain_keeps | fail_if_no_progress (apply Keeps.lit)
    | (extract_lets +onlyGivenNames x; first | (refine cut (a := Keeps st0 x) ?_ fun hx => ?_; subst x; rotate_left; clear_value x) | clear_value x)
    | split

theorem execEqualisationRequest_keeps {st0 : State} (port : Fin 2) (lane : Fin 8) (coeff : BitVec 8) (s : State) (hk0 : Keeps st0 s) :
    ResKeeps st0 (execEqualisationRequest port lane coeff s) := by
  unfold execEqualisationRequest
  with_reducible repeat' first
    | assumption | apply ResKeeps.mk | apply emit_keeps | apply portSet_keeps | fail_if_no_progress (apply Keeps.lit)
    | (extract_lets +onlyGivenNames x; first | (refine cut (a := Keeps st0 x) ?_ fun hx => ?_; subst x; rotate_left; clear_value x) | clear_value x)
    | split

theorem execWritePacket_keeps {st0 : State} (port : Fin 2) (pkt : Packet) (s : State) (hk0 : Keeps st0 s) :
    ResKeeps st0 (execWritePacket port pkt s) := by
  unfold execWritePacket
  with_reducible repeat' first
    | assumption | apply ResKeeps.mk | apply pktReceive_keeps
    | (extract_lets +onlyGivenNames x; first | (refine cut (a := Keeps st0 x) ?_ fun hx => ?_; subst x; rotate_left; clear_value x) | clear_value x)
    | split

theorem execPostPacket_keeps {st0 : State} (port : Fin 2) (pkt : Packet) (s : State) (hk0 : Keeps st0 s) :
    ResKeeps st0 (execPostPacket port pkt s) := by
  unfold execPostPacket
  with_reducible repeat' first
    | assumption | apply ResKeeps.mk | apply pktReceive_keeps | split

theorem execAckPacket_keeps {st0 : State} (port : Fin 2) (pkt : Packet) (s : State) (hk0 : Keeps st0 s) :
    ResKeeps st0 (execAckPacket port pkt s) := by
  unfold execAckPacket
  with_reducible repeat' first
    | assumption | (intro) | apply ResKeeps.mk | apply jobsPump_keeps | apply pktStopped_keeps | fail_if_no_progress (apply Keeps.lit)
    | (extract_lets +onlyGivenNames x; first | (refine cut (a := Keeps st0 x) ?_ fun hx => ?_; subst x; rotate_left; clear_value x) | clear_value x)
    | split

theorem execNakPacket_keeps {st0 : State} (port : Fin 2) (pkt : Packet) (s : State) (hk0 : Keeps st0 s) :
    ResKeeps st0 (execNakPacket port pkt s) := by
  unfold execNakPacket
  with_reducible repeat' first
    | assumption | (intro) | apply ResKeeps.mk | apply jobsPump_keeps | apply nakOne_keeps | apply pktStopped_keeps
    | fail_if_no_progress (apply Keeps.lit)
    | (extract_lets +onlyGivenNames x; first | (refine cut (a := Keeps st0 x) ?_ fun hx => ?_; subst x; rotate_left; clear_value x) | clear_value x)
    | split

theorem execPacketResend_keeps {st0 : State} (dst : Fin 16) (group : Fin 64) (seq : Nat) (s : State) (hk0 : Keeps st0 s) :
    ResKeeps st0 (execPacketResend dst group seq s) := by
  unfold execPacketResend
  with_reducible repeat' first
    | assumption | (intro) | apply ResKeeps.mk | apply pktLink_keeps | apply pktAgain_keeps | fail_if_no_progress (apply Keeps.lit) | split

theorem execSendJob_keeps {st0 : State} (job : Nat) (s : State) (hk0 : Keeps st0 s) :
    ResKeeps st0 (execSendJob job s) := by
  unfold execSendJob
  with_reducible repeat' first
    | assumption | (intro) | apply ResKeeps.mk | apply jobStart_keeps | apply jobSend_keeps | apply tjSet_keeps
    | fail_if_no_progress (apply Keeps.lit)
    | (extract_lets +onlyGivenNames x; first | (refine cut (a := Keeps st0 x) ?_ fun hx => ?_; subst x; rotate_left; clear_value x) | clear_value x)
    | split

theorem execTrellisPostJob_keeps {st0 : State} (job : Nat) (s : State) (hk0 : Keeps st0 s) :
    ResKeeps st0 (execTrellisPostJob job s) := by
  unfold execTrellisPostJob
  with_reducible repeat' first
    | assumption | (intro) | apply ResKeeps.mk | apply jobStart_keeps | apply jobSend_keeps | apply tjSet_keeps
    | fail_if_no_progress (apply Keeps.lit)
    | (extract_lets +onlyGivenNames x; first | (refine cut (a := Keeps st0 x) ?_ fun hx => ?_; subst x; rotate_left; clear_value x) | clear_value x)

theorem execReduceJob_keeps {st0 : State} (job : Nat) (s : State) (hk0 : Keeps st0 s) :
    ResKeeps st0 (execReduceJob job s) := by
  unfold execReduceJob
  with_reducible repeat' first
    | assumption | (intro) | apply ResKeeps.mk | apply jobStart_keeps | apply partPut_keeps | apply partTouch_keeps | apply jobSend_keeps
    | apply tjSet_keeps | fail_if_no_progress (apply Keeps.lit)
    | (extract_lets +onlyGivenNames x; first | (refine cut (a := Keeps st0 x) ?_ fun hx => ?_; subst x; rotate_left; clear_value x) | clear_value x)

theorem execReduceCombine_keeps {st0 : State} (job : Nat) (s : State) (hk0 : Keeps st0 s) :
    ResKeeps st0 (execReduceCombine job s) := by
  unfold execReduceCombine
  with_reducible repeat' first
    | assumption | (intro) | apply ResKeeps.mk | apply stepFlags_keeps | apply partPut_keeps | apply jobSend_keeps | apply tjSet_keeps
    | fail_if_no_progress (apply Keeps.lit)
    | (extract_lets +onlyGivenNames x; first | (refine cut (a := Keeps st0 x) ?_ fun hx => ?_; subst x; rotate_left; clear_value x) | clear_value x)
    | split

theorem execBindJob_keeps {st0 : State} (job : Nat) (s : State) (hk0 : Keeps st0 s) :
    ResKeeps st0 (execBindJob job s) := by
  unfold execBindJob
  with_reducible repeat' first
    | assumption | (intro) | apply ResKeeps.mk | apply jobStart_keeps | fail_if_no_progress (apply Keeps.lit) | split

theorem execTrellisJobComplete_keeps {st0 : State} (job : Nat) (s : State) (hk0 : Keeps st0 s) :
    ResKeeps st0 (execTrellisJobComplete job s) := by
  unfold execTrellisJobComplete
  with_reducible repeat' first
    | assumption | (intro) | apply ResKeeps.mk | apply cabSet_keeps | apply locPost_keeps | fail_if_no_progress (apply Keeps.lit)
    | (extract_lets +onlyGivenNames x; first | (refine cut (a := Keeps st0 x) ?_ fun hx => ?_; subst x; rotate_left; clear_value x) | clear_value x)
    | split

theorem execClockStateSend_keeps {st0 : State} (s : State) (hk0 : Keeps st0 s) :
    ResKeeps st0 (execClockStateSend s) := by
  unfold execClockStateSend
  with_reducible repeat' first
    | assumption | (intro) | apply ResKeeps.mk | apply each_keeps | apply emit_keeps | split

theorem execClockStateReceive_keeps {st0 : State} (slot : Fin 16) (part : PartId) (mhz : BitVec 16) (causes : Byte) (s : State) (hk0 : Keeps st0 s) :
    ResKeeps st0 (execClockStateReceive slot part mhz causes s) := by
  unfold execClockStateReceive
  with_reducible repeat' first
    | assumption | (intro) | apply ResKeeps.mk | apply each_keeps | apply riskSet_keeps | fail_if_no_progress (apply Keeps.lit)
    | (extract_lets +onlyGivenNames x; first | (refine cut (a := Keeps st0 x) ?_ fun hx => ?_; subst x; rotate_left; clear_value x) | clear_value x)
    | split

theorem execPeerLost_keeps {st0 : State} (slot : Fin 16) (s : State) (hk0 : Keeps st0 s) :
    ResKeeps st0 (execPeerLost slot s) := by
  unfold execPeerLost
  with_reducible repeat' first
    | assumption | (intro) | apply ResKeeps.mk | apply each_keeps | apply jobLink_keeps | apply partnerGone_keeps
    | fail_if_no_progress (apply Keeps.lit)
    | (extract_lets +onlyGivenNames x; first | (refine cut (a := Keeps st0 x) ?_ fun hx => ?_; subst x; rotate_left; clear_value x) | clear_value x)
    | split

theorem execRevocationWaitEnd_keeps {st0 : State} (p : PartId) (s : State) (hk0 : Keeps st0 s) :
    ResKeeps st0 (execRevocationWaitEnd p s) := by
  unfold execRevocationWaitEnd
  with_reducible repeat' first
    | assumption | apply ResKeeps.mk | apply revokeDo_keeps
    | (extract_lets +onlyGivenNames x; first | (refine cut (a := Keeps st0 x) ?_ fun hx => ?_; subst x; rotate_left; clear_value x) | clear_value x)
    | split

/-- A scrubbed granule's bytes leave HBM's list. -/
theorem hbmDrop_keeps {st0 : State} (s : State) (lo n : Nat) (hk0 : Keeps st0 s) :
    Keeps st0 { s with mem := { s.mem with hbm := cellsDrop s.mem.hbm lo n } } :=
  hk0.memory fun h => by
    obtain ⟨hbm, rest⟩ := (Memory.wf_iff _).mp h
    refine (Memory.wf_iff _).mpr ⟨?_, rest⟩
    show mwf (cellsDrop _ _ _) = true
    exact mdrop_wf _ hbm

theorem execGranuleScrub_keeps {st0 : State} (g : Nat) (reads : ScrubReads) (s : State) (hk0 : Keeps st0 s) :
    ResKeeps st0 (execGranuleScrub g reads s) := by
  unfold execGranuleScrub
  extract_lets +onlyGivenNames e
  split
  · exact .mk hk0
  extract_lets +onlyGivenNames hbm s'
  refine cut (a := Keeps st0 s') (hbmDrop_keeps _ _ _ hk0) fun hs' => ?_
  clear_value s'
  with_reducible repeat' first
    | assumption | apply ResKeeps.mk | apply bumpBy_keeps | apply logErr_keeps | apply granSet_keeps
    | apply partFinish_keeps | fail_if_no_progress (apply Keeps.lit)
    | (extract_lets +onlyGivenNames x; first | (refine cut (a := Keeps st0 x) ?_ fun hx => ?_; subst x; rotate_left; clear_value x) | clear_value x)
    | split

theorem execForm_keeps {st0 : State} (rq : DictReq) (p : PartId) (mask : BitVec 16) (s : State) (hk0 : Keeps st0 s) :
    ResKeeps st0 (execForm rq p mask s) := by
  unfold execForm
  with_reducible repeat' first
    | assumption | apply ResKeeps.mk | apply gateWrite_keeps

theorem execRemove_keeps {st0 : State} (rq : DictReq) (p : PartId) (s : State) (hk0 : Keeps st0 s) :
    ResKeeps st0 (execRemove rq p s) := by
  unfold execRemove
  with_reducible repeat' first
    | assumption | apply ResKeeps.mk | apply gateWrite_keeps

theorem execRotateXts_keeps {st0 : State} (rq : DictReq) (p : PartId) (s : State) (hk0 : Keeps st0 s) :
    ResKeeps st0 (execRotateXts rq p s) := by
  unfold execRotateXts
  with_reducible repeat' first
    | assumption | apply ResKeeps.mk | apply gateWrite_keeps

theorem execRotatePrefix_keeps {st0 : State} (rq : DictReq) (p : PartId) (s : State) (hk0 : Keeps st0 s) :
    ResKeeps st0 (execRotatePrefix rq p s) := by
  unfold execRotatePrefix
  with_reducible repeat' first
    | assumption | apply ResKeeps.mk | apply gateWrite_keeps

theorem execXtsSweepGranule_keeps {st0 : State} (p : PartId) (d : Die) (s : State) (hk0 : Keeps st0 s) :
    ResKeeps st0 (execXtsSweepGranule p d s) := by
  unfold execXtsSweepGranule
  with_reducible repeat' first
    | assumption | apply ResKeeps.mk | apply granSet_keeps | fail_if_no_progress (apply Keeps.lit)
    | (extract_lets +onlyGivenNames x; first | (refine cut (a := Keeps st0 x) ?_ fun hx => ?_; subst x; rotate_left; clear_value x) | clear_value x)
    | split

theorem execXtsOldZeroize_keeps {st0 : State} (p : PartId) (s : State) (hk0 : Keeps st0 s) :
    ResKeeps st0 (execXtsOldZeroize p s) := by
  unfold execXtsOldZeroize
  with_reducible repeat' first
    | assumption | (intro) | apply ResKeeps.mk | apply keySlotSet_keeps | fail_if_no_progress (apply Keeps.lit) | split

theorem execAttestReq_keeps {st0 : State} (f : Func) (nonce : BitVec 256) (s : State) (hk0 : Keeps st0 s) :
    ResKeeps st0 (execAttestReq f nonce s) := by
  unfold execAttestReq
  with_reducible repeat' first
    | assumption | apply ResKeeps.mk | apply mailAnswer_keeps | apply freeSteps_keeps | fail_if_no_progress (apply Keeps.lit)
    | (extract_lets +onlyGivenNames x; first | (refine cut (a := Keeps st0 x) ?_ fun hx => ?_; subst x; rotate_left; clear_value x) | clear_value x)
    | split

theorem execCertReq_keeps {st0 : State} (asker : CertAsker) (s : State) (hk0 : Keeps st0 s) :
    ResKeeps st0 (execCertReq asker s) := by
  unfold execCertReq
  with_reducible repeat' first
    | assumption | apply ResKeeps.mk | apply mailAnswer_keeps | apply emit_keeps | fail_if_no_progress (apply Keeps.lit)
    | (extract_lets +onlyGivenNames x; first | (refine cut (a := Keeps st0 x) ?_ fun hx => ?_; subst x; rotate_left; clear_value x) | clear_value x)
    | split

theorem execEphemeralKeyExpiry_keeps {st0 : State} (p : PartId) (s : State) (hk0 : Keeps st0 s) :
    ResKeeps st0 (execEphemeralKeyExpiry p s) := by
  unfold execEphemeralKeyExpiry
  with_reducible repeat' first
    | assumption | apply ResKeeps.mk | fail_if_no_progress (apply Keeps.lit) | split

theorem execKeyInstall_keeps {st0 : State} (f : Func) (w : WrapHead) (e : WrapEntry) (first last : Bool) (s : State) (hk0 : Keeps st0 s) :
    ResKeeps st0 (execKeyInstall f w e first last s) := by
  unfold execKeyInstall
  with_reducible repeat' first
    | assumption | apply ResKeeps.mk | apply wrapEntry_keeps | split

theorem execKeyDropOld_keeps {st0 : State} (f : Func) (w : WrapHead) (e : WrapEntry) (first last : Bool) (s : State) (hk0 : Keeps st0 s) :
    ResKeeps st0 (execKeyDropOld f w e first last s) := by
  unfold execKeyDropOld
  with_reducible repeat' first
    | assumption | apply ResKeeps.mk | apply wrapEntry_keeps | split

theorem execKeyActivation_keeps {st0 : State} (slot : Fin 64) (s : State) (hk0 : Keeps st0 s) :
    ResKeeps st0 (execKeyActivation slot s) := by
  unfold execKeyActivation
  with_reducible repeat' first
    | assumption | apply ResKeeps.mk | apply keyActivate_keeps | fail_if_no_progress (apply Keeps.lit) | split

theorem execSlotAssignmentWrite_keeps {st0 : State} (rq : DictReq) (slot : Fin 64) (v : List Byte) (s : State) (hk0 : Keeps st0 s) :
    ResKeeps st0 (execSlotAssignmentWrite rq slot v s) := by
  unfold execSlotAssignmentWrite
  with_reducible repeat' first
    | assumption | apply ResKeeps.mk | apply slotWrite_keeps

theorem execRmaEntry_keeps {st0 : State} (serial : BitVec 128) (edSig mlSig edPub mlPub : Nat) (s : State) (hk0 : Keeps st0 s) :
    ResKeeps st0 (execRmaEntry serial edSig mlSig edPub mlPub s) := by
  unfold execRmaEntry
  split
  · exact .mk hk0
  · refine .mk (hk0.trans ⟨rfl, ⟨rfl, rfl, rfl, rfl, id, id, ?_, fun _ => Nat.le_refl _⟩, id⟩)
    show s.fuses.lifecycle.rank ≤ 2
    cases s.fuses.lifecycle <;> decide

theorem execSnapshotCut_keeps {st0 : State} (s : State) (hk0 : Keeps st0 s) :
    ResKeeps st0 (execSnapshotCut s) := by
  unfold execSnapshotCut
  with_reducible repeat' first
    | assumption | apply ResKeeps.mk | apply snapAsk_keeps | fail_if_no_progress (apply Keeps.lit)
    | (extract_lets +onlyGivenNames x; first | (refine cut (a := Keeps st0 x) ?_ fun hx => ?_; subst x; rotate_left; clear_value x) | clear_value x)
    | split

theorem execSnapshotAbandon_keeps {st0 : State} (s : State) (hk0 : Keeps st0 s) :
    ResKeeps st0 (execSnapshotAbandon s) := by
  unfold execSnapshotAbandon
  with_reducible repeat' first
    | assumption | apply ResKeeps.mk | apply snapEnd_keeps | apply snapDrop_keeps | fail_if_no_progress (apply Keeps.lit) | split

theorem execSnapshotAck_keeps {st0 : State} (seq : Nat) (s : State) (hk0 : Keeps st0 s) :
    ResKeeps st0 (execSnapshotAck seq s) := by
  unfold execSnapshotAck
  with_reducible repeat' first
    | assumption | (intro) | apply ResKeeps.mk | apply foldl_keeps | apply snapEnd_keeps | apply marksIssue_keeps | apply foldl_keeps
    | fail_if_no_progress (apply Keeps.lit)
    | (extract_lets +onlyGivenNames x; first | (refine cut (a := Keeps st0 x) ?_ fun hx => ?_; subst x; rotate_left; clear_value x) | (refine cut (a := Keeps st0 x.2) ?_ fun hx => ?_; subst x; rotate_left; clear_value x) | (refine cut (a := Keeps st0 x.1) ?_ fun hx => ?_; subst x; rotate_left; clear_value x) | clear_value x)
    | split | refine pair_cut (by assumption) ?_ | refine pair_cut' (by assumption) ?_

theorem execSnapshotReceive_keeps {st0 : State} (seq : Nat) (recs : List SnapRecord) (check : BitVec 64) (s : State) (hk0 : Keeps st0 s) :
    ResKeeps st0 (execSnapshotReceive seq recs check s) := by
  unfold execSnapshotReceive
  with_reducible repeat' first
    | assumption | apply ResKeeps.mk | apply bump32_keeps | apply each_keeps | apply savedStore_keeps | apply g63Send_keeps
    | apply coldStandby_keeps | fail_if_no_progress (apply Keeps.lit)
    | (extract_lets +onlyGivenNames x; first | (refine cut (a := Keeps st0 x) ?_ fun hx => ?_; subst x; rotate_left; clear_value x) | clear_value x)
    | split

theorem execTakeoverStart_keeps {st0 : State} (cause : TakeoverCause) (s : State) (hk0 : Keeps st0 s) :
    ResKeeps st0 (execTakeoverStart cause s) := by
  unfold execTakeoverStart
  with_reducible repeat' first
    | assumption | apply ResKeeps.mk | apply takeoverDo_keeps | apply goAlone_keeps | apply bump32_keeps
    | fail_if_no_progress (apply Keeps.lit) | split

theorem execYield_keeps {st0 : State} (s : State) (hk0 : Keeps st0 s) :
    ResKeeps st0 (execYield s) := by
  unfold execYield
  with_reducible repeat' first
    | assumption | (intro) | apply ResKeeps.mk | apply goAlone_keeps | apply each_keeps | apply stepAbort_keeps
    | fail_if_no_progress (apply Keeps.lit)
    | (extract_lets +onlyGivenNames x; first | (refine cut (a := Keeps st0 x) ?_ fun hx => ?_; subst x; rotate_left; clear_value x) | clear_value x)
    | split

theorem execPlannedSwitchover_keeps {st0 : State} (rq : DictReq) (v : List Byte) (s : State) (hk0 : Keeps st0 s) :
    ResKeeps st0 (execPlannedSwitchover rq v s) := by
  unfold execPlannedSwitchover
  with_reducible repeat' first
    | assumption | (intro) | apply ResKeeps.mk | apply dictWrite_keeps | apply sendYield_keeps | apply odSet_keeps
    | (extract_lets +onlyGivenNames x; first | (refine cut (a := Keeps st0 x) ?_ fun hx => ?_; subst x; rotate_left; clear_value x) | clear_value x)
    | split

theorem execStepCheckValueReceive_keeps {st0 : State} (p : PartId) (seq : Nat) (v : BitVec 64) (s : State) (hk0 : Keeps st0 s) :
    ResKeeps st0 (execStepCheckValueReceive p seq v s) := by
  unfold execStepCheckValueReceive
  with_reducible repeat' first
    | assumption | apply ResKeeps.mk | apply compareNow_keeps | fail_if_no_progress (apply Keeps.lit)
    | (extract_lets +onlyGivenNames x; first | (refine cut (a := Keeps st0 x) ?_ fun hx => ?_; subst x; rotate_left; clear_value x) | clear_value x)
    | split

theorem execProofTestResult_keeps {st0 : State} (p : PartId) (r : ProofOutcome) (s : State) (hk0 : Keeps st0 s) :
    ResKeeps st0 (execProofTestResult p r s) := by
  unfold execProofTestResult
  with_reducible repeat' first
    | assumption | apply ResKeeps.mk | apply declareFailed_keeps | apply sendYield_keeps | apply goAlone_keeps | apply compareAgain_keeps
    | (extract_lets +onlyGivenNames x; first | (refine cut (a := Keeps st0 x) ?_ fun hx => ?_; subst x; rotate_left; clear_value x) | clear_value x)
    | split

theorem execRehearsalStart_keeps {st0 : State} (t : RehearsalTrigger) (s : State) (hk0 : Keeps st0 s) :
    ResKeeps st0 (execRehearsalStart t s) := by
  unfold execRehearsalStart
  with_reducible repeat' first
    | assumption | (intro) | apply ResKeeps.mk | apply rehearse_keeps | apply dictWrite_keeps | apply odSet_keeps
    | fail_if_no_progress (apply Keeps.lit)
    | (extract_lets +onlyGivenNames x; first | (refine cut (a := Keeps st0 x) ?_ fun hx => ?_; subst x; rotate_left; clear_value x) | clear_value x)
    | split

theorem execRehearsalEnd_keeps {st0 : State} (values : List Nat) (s : State) (hk0 : Keeps st0 s) :
    ResKeeps st0 (execRehearsalEnd values s) := by
  unfold execRehearsalEnd
  with_reducible repeat' first
    | assumption | (intro) | apply ResKeeps.mk | apply coldStandby_keeps | apply declareFailed_keeps | fail_if_no_progress (apply Keeps.lit)
    | (extract_lets +onlyGivenNames x; first | (refine cut (a := Keeps st0 x) ?_ fun hx => ?_; subst x; rotate_left; clear_value x) | clear_value x)
    | split

theorem execGroup63KeyAgreement_keeps {st0 : State} (peerSerial : BitVec 128) (peerEdPub peerMlPub : Nat) (reportDigest : BitVec 384) (edSig mlSig : Nat) (peerX25519 : BitVec 256) (mlkemCt : Nat) (s : State) (hk0 : Keeps st0 s) :
    ResKeeps st0 (execGroup63KeyAgreement peerSerial peerEdPub peerMlPub reportDigest edSig mlSig peerX25519 mlkemCt s) := by
  unfold execGroup63KeyAgreement
  with_reducible repeat' first
    | assumption | (intro) | apply ResKeeps.mk | apply slotAssign_keeps | apply freeSteps_keeps | apply each_keeps | apply riskSet_keeps
    | apply seqRestart_keeps | apply armTell_keeps | fail_if_no_progress (apply Keeps.lit)
    | (extract_lets +onlyGivenNames x; first | (refine cut (a := Keeps st0 x) ?_ fun hx => ?_; subst x; rotate_left; clear_value x) | clear_value x)
    | split

theorem execPowerSample_keeps {st0 : State} (asked : Nat) (quadMw : List Nat) (s : State) (hk0 : Keeps st0 s) :
    ResKeeps st0 (execPowerSample asked quadMw s) := by
  unfold execPowerSample
  with_reducible repeat' first
    | assumption | (intro) | apply ResKeeps.mk | apply each_keeps | apply qwSet_keeps | fail_if_no_progress (apply Keeps.lit)
    | (extract_lets +onlyGivenNames x; first | (refine cut (a := Keeps st0 x) ?_ fun hx => ?_; subst x; rotate_left; clear_value x) | clear_value x)
    | split

theorem execGovernorCycle_keeps {st0 : State} (demand : List Nat) (s : State) (hk0 : Keeps st0 s) :
    ResKeeps st0 (execGovernorCycle demand s) := by
  unfold execGovernorCycle
  with_reducible repeat' first
    | assumption | apply ResKeeps.mk | apply demandNote_keeps | apply breachJudge_keeps | apply effMove_keeps | apply ballastAll_keeps
    | apply quadsSet_keeps | apply riskJudge_keeps | fail_if_no_progress (apply Keeps.lit)
    | (extract_lets +onlyGivenNames x; first | (refine cut (a := Keeps st0 x) ?_ fun hx => ?_; subst x; rotate_left; clear_value x) | clear_value x)
    | split

theorem execIssueLimitApply_keeps {st0 : State} (q : Quad) (s : State) (hk0 : Keeps st0 s) :
    ResKeeps st0 (execIssueLimitApply q s) := by
  unfold execIssueLimitApply
  with_reducible repeat' first
    | assumption | apply ResKeeps.mk | apply trimStep_keeps | apply qwSet_keeps | split

theorem execClockSettled_keeps {st0 : State} (q : Quad) (s : State) (hk0 : Keeps st0 s) :
    ResKeeps st0 (execClockSettled q s) := by
  unfold execClockSettled
  with_reducible repeat' first
    | assumption | apply ResKeeps.mk | apply qwSet_keeps | fail_if_no_progress (apply Keeps.lit)
    | (extract_lets +onlyGivenNames x; first | (refine cut (a := Keeps st0 x) ?_ fun hx => ?_; subst x; rotate_left; clear_value x) | clear_value x)
    | split

theorem execSustainedCapWrite_keeps {st0 : State} (rq : DictReq) (v : List Byte) (s : State) (hk0 : Keeps st0 s) :
    ResKeeps st0 (execSustainedCapWrite rq v s) := by
  unfold execSustainedCapWrite
  with_reducible repeat' first
    | assumption | (intro) | apply ResKeeps.mk | apply dictWrite_keeps | fail_if_no_progress (apply Keeps.lit)
    | (extract_lets +onlyGivenNames x; first | (refine cut (a := Keeps st0 x) ?_ fun hx => ?_; subst x; rotate_left; clear_value x) | clear_value x)
    | split

theorem execCoolingInputWrite_keeps {st0 : State} (rq : DictReq) (sub : Fin 4) (v : List Byte) (s : State) (hk0 : Keeps st0 s) :
    ResKeeps st0 (execCoolingInputWrite rq sub v s) := by
  unfold execCoolingInputWrite
  with_reducible repeat' first
    | assumption | (intro) | apply ResKeeps.mk | apply dictWrite_keeps | apply coolJudge_keeps | apply rideEnter_keeps
    | apply inletAct_keeps | fail_if_no_progress (apply Keeps.lit)
    | (extract_lets +onlyGivenNames x; first | (refine cut (a := Keeps st0 x) ?_ fun hx => ?_; subst x; rotate_left; clear_value x) | clear_value x)
    | split

theorem execCoolingInputStale_keeps {st0 : State} (sub : Fin 4) (s : State) (hk0 : Keeps st0 s) :
    ResKeeps st0 (execCoolingInputStale sub s) := by
  unfold execCoolingInputStale
  with_reducible repeat' first
    | assumption | apply ResKeeps.mk | apply inletAct_keeps | apply coolJudge_keeps | fail_if_no_progress (apply Keeps.lit)
    | (extract_lets +onlyGivenNames x; first | (refine cut (a := Keeps st0 x) ?_ fun hx => ?_; subst x; rotate_left; clear_value x) | clear_value x)
    | split

theorem execRideThroughExit_keeps {st0 : State} (s : State) (hk0 : Keeps st0 s) :
    ResKeeps st0 (execRideThroughExit s) := by
  unfold execRideThroughExit
  with_reducible repeat' first
    | assumption | apply ResKeeps.mk | fail_if_no_progress (apply Keeps.lit) | split

theorem execThermalRejoinReady_keeps {st0 : State} (s : State) (hk0 : Keeps st0 s) :
    ResKeeps st0 (execThermalRejoinReady s) := by
  unfold execThermalRejoinReady
  with_reducible repeat' first
    | assumption | apply ResKeeps.mk | apply emit_keeps | fail_if_no_progress (apply Keeps.lit) | split

theorem execSensorRead_keeps {st0 : State} (r : Readings) (s : State) (hk0 : Keeps st0 s) :
    ResKeeps st0 (execSensorRead r s) := by
  unfold execSensorRead
  with_reducible repeat' first
    | assumption | (intro) | apply ResKeeps.mk | apply each_keeps | apply pairRead_keeps | apply stackRead_keeps | apply qwSet_keeps
    | apply quadHeat_keeps | apply inletRead_keeps | apply thermalShutdown_keeps | apply inletAct_keeps
    | fail_if_no_progress (apply Keeps.lit)
    | (extract_lets +onlyGivenNames x; first | (refine cut (a := Keeps st0 x) ?_ fun hx => ?_; subst x; rotate_left; clear_value x) | clear_value x)
    | split

theorem execEmergencyStep_keeps {st0 : State} (q : Quad) (s : State) (hk0 : Keeps st0 s) :
    ResKeeps st0 (execEmergencyStep q s) := by
  unfold execEmergencyStep
  have hk := quadHeat_keeps s q.val hk0
  extract_lets +onlyGivenNames x
  with_reducible repeat' first
    | assumption | apply ResKeeps.mk | apply qwSet_keeps | extract_lets | split

theorem execSensorAlertClear_keeps {st0 : State} (pair : Fin 17) (s : State) (hk0 : Keeps st0 s) :
    ResKeeps st0 (execSensorAlertClear pair s) := by
  unfold execSensorAlertClear
  with_reducible repeat' first
    | assumption | apply ResKeeps.mk | fail_if_no_progress (apply Keeps.lit)
    | (extract_lets +onlyGivenNames x; first | (refine cut (a := Keeps st0 x) ?_ fun hx => ?_; subst x; rotate_left; clear_value x) | clear_value x)
    | split

theorem execDroopTrip_keeps {st0 : State} (q : Quad) (level : Fin 4) (s : State) (hk0 : Keeps st0 s) :
    ResKeeps st0 (execDroopTrip q level s) := by
  unfold execDroopTrip
  with_reducible repeat' first
    | assumption | apply ResKeeps.mk | apply stretchEnd_keeps | apply bump64_keeps | apply qwSet_keeps
    | fail_if_no_progress (apply Keeps.lit)
    | (extract_lets +onlyGivenNames x; first | (refine cut (a := Keeps st0 x) ?_ fun hx => ?_; subst x; rotate_left; clear_value x) | clear_value x)
    | split

theorem execDroopStretchEnd_keeps {st0 : State} (q : Quad) (s : State) (hk0 : Keeps st0 s) :
    ResKeeps st0 (execDroopStretchEnd q s) := by
  unfold execDroopStretchEnd
  with_reducible repeat' first
    | assumption | apply ResKeeps.mk | apply stretchEnd_keeps

theorem execStretchLossWindow_keeps {st0 : State} (q : Quad) (s : State) (hk0 : Keeps st0 s) :
    ResKeeps st0 (execStretchLossWindow q s) := by
  unfold execStretchLossWindow
  with_reducible repeat' first
    | assumption | apply ResKeeps.mk | apply stretchEnd_keeps | apply bump32_keeps | apply qwSet_keeps
    | fail_if_no_progress (apply Keeps.lit)
    | (extract_lets +onlyGivenNames x; first | (refine cut (a := Keeps st0 x) ?_ fun hx => ?_; subst x; rotate_left; clear_value x) | clear_value x)
    | split

theorem execGuardStepReturn_keeps {st0 : State} (q : Quad) (s : State) (hk0 : Keeps st0 s) :
    ResKeeps st0 (execGuardStepReturn q s) := by
  unfold execGuardStepReturn
  with_reducible repeat' first
    | assumption | apply ResKeeps.mk | apply qwSet_keeps | fail_if_no_progress (apply Keeps.lit)
    | (extract_lets +onlyGivenNames x; first | (refine cut (a := Keeps st0 x) ?_ fun hx => ?_; subst x; rotate_left; clear_value x) | clear_value x)
    | split

theorem execCanaryFail_keeps {st0 : State} (q : Quad) (_path : Fin 8) (s : State) (hk0 : Keeps st0 s) :
    ResKeeps st0 (execCanaryFail q _path s) := by
  unfold execCanaryFail
  with_reducible repeat' first
    | assumption | apply ResKeeps.mk | apply qwSet_keeps | apply fenceScope_keeps | apply bump32_keeps | apply odSet_keeps
    | fail_if_no_progress (apply Keeps.lit)
    | (extract_lets +onlyGivenNames x; first | (refine cut (a := Keeps st0 x) ?_ fun hx => ?_; subst x; rotate_left; clear_value x) | clear_value x)
    | split

theorem execCanaryTrimDown_keeps {st0 : State} (q : Quad) (s : State) (hk0 : Keeps st0 s) :
    ResKeeps st0 (execCanaryTrimDown q s) := by
  unfold execCanaryTrimDown
  with_reducible repeat' first
    | assumption | apply ResKeeps.mk | apply qwSet_keeps | fail_if_no_progress (apply Keeps.lit)
    | (extract_lets +onlyGivenNames x; first | (refine cut (a := Keeps st0 x) ?_ fun hx => ?_; subst x; rotate_left; clear_value x) | clear_value x)
    | split

theorem execPpsEdge_keeps {st0 : State} (s : State) (hk0 : Keeps st0 s) : ResKeeps st0 (execPpsEdge s) := by
  unfold execPpsEdge
  split
  · exact .mk hk0
  · dsimp only
    with_reducible repeat' first
      | assumption | apply ResKeeps.mk | apply bump32_keeps | apply odSet_keeps | fail_if_no_progress (apply Keeps.lit) | split

theorem execTimebaseSlewEnd_keeps {st0 : State} (s : State) (hk0 : Keeps st0 s) :
    ResKeeps st0 (execTimebaseSlewEnd s) := by
  unfold execTimebaseSlewEnd
  with_reducible repeat' first
    | assumption | apply ResKeeps.mk | fail_if_no_progress (apply Keeps.lit) | split

theorem execHoldoverEnter_keeps {st0 : State} (s : State) (hk0 : Keeps st0 s) :
    ResKeeps st0 (execHoldoverEnter s) := by
  unfold execHoldoverEnter
  with_reducible repeat' first
    | assumption | apply ResKeeps.mk | fail_if_no_progress (apply Keeps.lit) | split

theorem execClockSourceSwitch_keeps {st0 : State} (rq : DictReq) (dom : Fin 40) (v : List Byte) (s : State) (hk0 : Keeps st0 s) :
    ResKeeps st0 (execClockSourceSwitch rq dom v s) := by
  unfold execClockSourceSwitch
  with_reducible repeat' first
    | assumption | (intro) | apply ResKeeps.mk | apply dictWrite_keeps | apply domFollow_keeps
    | (extract_lets +onlyGivenNames x; first | (refine cut (a := Keeps st0 x) ?_ fun hx => ?_; subst x; rotate_left; clear_value x) | clear_value x)

theorem execStabilityInterval_keeps {st0 : State} (clk : Judged) (count : Nat) (s : State) (hk0 : Keeps st0 s) :
    ResKeeps st0 (execStabilityInterval clk count s) := by
  unfold execStabilityInterval
  with_reducible repeat' first
    | assumption | (intro) | apply ResKeeps.mk | apply clockUnstable_keeps | apply judgedSet_keeps | apply each_keeps
    | apply domFollow_keeps | fail_if_no_progress (apply Keeps.lit)
    | (extract_lets +onlyGivenNames x; first | (refine cut (a := Keeps st0 x) ?_ fun hx => ?_; subst x; rotate_left; clear_value x) | clear_value x)
    | split

theorem execLossOfLock_keeps {st0 : State} (clk : Judged) (s : State) (hk0 : Keeps st0 s) :
    ResKeeps st0 (execLossOfLock clk s) := by
  unfold execLossOfLock
  with_reducible repeat' first
    | assumption | apply ResKeeps.mk | apply clockUnstable_keeps | split

theorem execReferenceReturn_keeps {st0 : State} (s : State) (hk0 : Keeps st0 s) :
    ResKeeps st0 (execReferenceReturn s) := by
  unfold execReferenceReturn
  with_reducible repeat' first
    | assumption | apply ResKeeps.mk | apply refFall_keeps | apply domSwitch_keeps
    | (extract_lets +onlyGivenNames x; first | (refine cut (a := Keeps st0 x) ?_ fun hx => ?_; subst x; rotate_left; clear_value x) | clear_value x)
    | split

theorem execSpreadDepthWrite_keeps {st0 : State} (rq : DictReq) (v : List Byte) (s : State) (hk0 : Keeps st0 s) :
    ResKeeps st0 (execSpreadDepthWrite rq v s) := by
  unfold execSpreadDepthWrite
  with_reducible repeat' first
    | assumption | (intro) | apply ResKeeps.mk | apply dictWrite_keeps

theorem execDieNocFrequencyWrite_keeps {st0 : State} (rq : DictReq) (d : Die) (v : List Byte) (s : State) (hk0 : Keeps st0 s) :
    ResKeeps st0 (execDieNocFrequencyWrite rq d v s) := by
  unfold execDieNocFrequencyWrite
  with_reducible repeat' first
    | assumption | (intro) | apply ResKeeps.mk | apply dictWrite_keeps

theorem execSubmissionDoorbell_keeps {st0 : State} (f : Vf) (ring : Fin 8) (v : W32) (s : State) (hk0 : Keeps st0 s) :
    ResKeeps st0 (execSubmissionDoorbell f ring v s) := by
  unfold execSubmissionDoorbell
  with_reducible repeat' first
    | assumption | apply ResKeeps.mk | apply bellSubmit_keeps

theorem execZoetropeDoorbell_keeps {st0 : State} (f : Vf) (v : W32) (s : State) (hk0 : Keeps st0 s) :
    ResKeeps st0 (execZoetropeDoorbell f v s) := by
  unfold execZoetropeDoorbell
  with_reducible repeat' first
    | assumption | apply ResKeeps.mk | apply bellVideo_keeps

theorem execCompletionHeadDoorbell_keeps {st0 : State} (f : Vf) (ring : Fin 9) (v : W32) (s : State) (hk0 : Keeps st0 s) :
    ResKeeps st0 (execCompletionHeadDoorbell f ring v s) := by
  unfold execCompletionHeadDoorbell
  with_reducible repeat' first
    | assumption | apply ResKeeps.mk | apply bellHead_keeps

theorem execMsixModerationTimer_keeps {st0 : State} (f : Vf) (ring : Fin 9) (s : State) (hk0 : Keeps st0 s) :
    ResKeeps st0 (execMsixModerationTimer f ring s) := by
  unfold execMsixModerationTimer
  with_reducible repeat' first
    | assumption | apply ResKeeps.mk | apply msixSend_keeps | apply fnSet_keeps | fail_if_no_progress (apply Keeps.lit)
    | (extract_lets +onlyGivenNames x; first | (refine cut (a := Keeps st0 x) ?_ fun hx => ?_; subst x; rotate_left; clear_value x) | clear_value x)
    | split

theorem execFunctionQuiesce_keeps {st0 : State} (f : Vf) (v : W32) (s : State) (hk0 : Keeps st0 s) :
    ResKeeps st0 (execFunctionQuiesce f v s) := by
  unfold execFunctionQuiesce
  with_reducible repeat' first
    | assumption | apply ResKeeps.mk | apply ctrlWrite_keeps

theorem execFunctionDisable_keeps {st0 : State} (f : Func) (t : DisableTrigger) (s : State) (hk0 : Keeps st0 s) :
    ResKeeps st0 (execFunctionDisable f t s) := by
  unfold execFunctionDisable
  with_reducible repeat' first
    | assumption | apply ResKeeps.mk | apply disableDo_keeps | split

theorem execFunctionIdle_keeps {st0 : State} (f : Vf) (s : State) (hk0 : Keeps st0 s) :
    ResKeeps st0 (execFunctionIdle f s) := by
  unfold execFunctionIdle
  with_reducible repeat' first
    | assumption | apply ResKeeps.mk | apply statusVec_keeps | apply fnSet_keeps | fail_if_no_progress (apply Keeps.lit)
    | (extract_lets +onlyGivenNames x; first | (refine cut (a := Keeps st0 x) ?_ fun hx => ?_; subst x; rotate_left; clear_value x) | clear_value x)
    | split

theorem execConfigRequest_keeps {st0 : State} (f : Func) (op : ConfigOp) (s : State) (hk0 : Keeps st0 s) :
    ResKeeps st0 (execConfigRequest f op s) := by
  unfold execConfigRequest
  with_reducible repeat' first
    | assumption | apply ResKeeps.mk | apply emit_keeps | apply configDo_keeps | fail_if_no_progress (apply Keeps.lit)
    | (extract_lets +onlyGivenNames x; first | (refine cut (a := Keeps st0 x) ?_ fun hx => ?_; subst x; rotate_left; clear_value x) | clear_value x)
    | split

theorem execPerstAssert_keeps {st0 : State} (s : State) (hk0 : Keeps st0 s) :
    ResKeeps st0 (execPerstAssert s) := by
  unfold execPerstAssert
  with_reducible repeat' first
    | assumption | apply ResKeeps.mk | apply disableDo_keeps | fail_if_no_progress (apply Keeps.lit) | split

theorem execFunctionRegisterWrite_keeps {st0 : State} (f : Func) (off size : Nat) (v : BitVec 64) (s : State) (hk0 : Keeps st0 s) :
    ResKeeps st0 (execFunctionRegisterWrite f off size v s) := by
  unfold execFunctionRegisterWrite
  with_reducible repeat' first
    | assumption | apply ResKeeps.mk | apply barWrite_keeps

theorem execBarWriteDiscard_keeps {st0 : State} (f : Func) (off size : Nat) (s : State) (hk0 : Keeps st0 s) :
    ResKeeps st0 (execBarWriteDiscard f off size s) := by
  unfold execBarWriteDiscard
  with_reducible repeat' first
    | assumption | apply ResKeeps.mk | apply discard_keeps | split

theorem execPoisonedTlp_keeps {st0 : State} (p : Poison) (s : State) (hk0 : Keeps st0 s) :
    ResKeeps st0 (execPoisonedTlp p s) := by
  unfold execPoisonedTlp
  with_reducible repeat' first
    | assumption | apply ResKeeps.mk | apply emit_keeps | apply hostReadFail_keeps | apply barWrite_keeps | apply discard_keeps
    | fail_if_no_progress (apply Keeps.lit) | split

theorem execCompletionTimeout_keeps {st0 : State} (tag : Nat) (s : State) (hk0 : Keeps st0 s) :
    ResKeeps st0 (execCompletionTimeout tag s) := by
  unfold execCompletionTimeout
  with_reducible repeat' first
    | assumption | apply ResKeeps.mk | apply hostReadFail_keeps | fail_if_no_progress (apply Keeps.lit) | split

theorem execHubCvuSettingWrite_keeps {st0 : State} (rq : DictReq) (f : Vf) (v : List Byte) (s : State) (hk0 : Keeps st0 s) :
    ResKeeps st0 (execHubCvuSettingWrite rq f v s) := by
  unfold execHubCvuSettingWrite
  with_reducible repeat' first
    | assumption | (intro) | apply ResKeeps.mk | apply dictWrite_keeps | apply hubSet_keeps | fail_if_no_progress (apply Keeps.lit)
    | (extract_lets +onlyGivenNames x; first | (refine cut (a := Keeps st0 x) ?_ fun hx => ?_; subst x; rotate_left; clear_value x) | clear_value x)

theorem execHubCvuRunningWrite_keeps {st0 : State} (rq : DictReq) (f : Vf) (v : List Byte) (s : State) (hk0 : Keeps st0 s) :
    ResKeeps st0 (execHubCvuRunningWrite rq f v s) := by
  unfold execHubCvuRunningWrite
  with_reducible repeat' first
    | assumption | (intro) | apply ResKeeps.mk | apply dictWrite_keeps | apply hubSet_keeps | fail_if_no_progress (apply Keeps.lit)
    | (extract_lets +onlyGivenNames x; first | (refine cut (a := Keeps st0 x) ?_ fun hx => ?_; subst x; rotate_left; clear_value x) | clear_value x)

theorem execHubCvuClose_keeps {st0 : State} (rq : DictReq) (f : Vf) (v : List Byte) (s : State) (hk0 : Keeps st0 s) :
    ResKeeps st0 (execHubCvuClose rq f v s) := by
  unfold execHubCvuClose
  with_reducible repeat' first
    | assumption | (intro) | apply ResKeeps.mk | apply dictWrite_keeps | apply odSet_keeps | apply hubClose_keeps
    | (extract_lets +onlyGivenNames x; first | (refine cut (a := Keeps st0 x) ?_ fun hx => ?_; subst x; rotate_left; clear_value x) | clear_value x)
    | split

theorem execIcmpv6Message_keeps {st0 : State} (seg : Fin 2) (echo : Bool) (body : List Byte) (s : State) (hk0 : Keeps st0 s) :
    ResKeeps st0 (execIcmpv6Message seg echo body s) := by
  unfold execIcmpv6Message
  with_reducible repeat' first
    | assumption | apply ResKeeps.mk | apply emit_keeps
    | (extract_lets +onlyGivenNames x; first | (refine cut (a := Keeps st0 x) ?_ fun hx => ?_; subst x; rotate_left; clear_value x) | clear_value x)
    | split

theorem execSegmentStatusChange_keeps {st0 : State} (seg : Fin 2) (st : Fin 3) (s : State) (hk0 : Keeps st0 s) :
    ResKeeps st0 (execSegmentStatusChange seg st s) := by
  unfold execSegmentStatusChange
  with_reducible repeat' first
    | assumption | apply ResKeeps.mk | apply odSet_keeps | split

theorem execDatagramReceive_keeps {st0 : State} (seg : Fin 2) (udpPort : Nat) (payload : List Byte) (s : State) (hk0 : Keeps st0 s) :
    ResKeeps st0 (execDatagramReceive seg udpPort payload s) := by
  unfold execDatagramReceive
  with_reducible repeat' first
    | assumption | (intro) | apply ResKeeps.mk | apply msgTake_keeps | fail_if_no_progress (apply Keeps.lit)
    | (extract_lets +onlyGivenNames x; first | (refine cut (a := Keeps st0 x) ?_ fun hx => ?_; subst x; rotate_left; clear_value x) | clear_value x)
    | split

theorem execFragmentTimeout_keeps {st0 : State} (sid : W32) (seq : BitVec 64) (s : State) (hk0 : Keeps st0 s) :
    ResKeeps st0 (execFragmentTimeout sid seq s) := by
  unfold execFragmentTimeout
  with_reducible repeat' first
    | assumption | (intro) | apply ResKeeps.mk | fail_if_no_progress (apply Keeps.lit)

theorem execHello_keeps {st0 : State} (seg : Fin 2) (body : List Byte) (s : State) (hk0 : Keeps st0 s) :
    ResKeeps st0 (execHello seg body s) := by
  unfold execHello
  with_reducible repeat' first
    | assumption | (intro) | apply ResKeeps.mk | apply inboxDrop_keeps | apply helloReject_keeps | apply sessSet_keeps
    | apply freeSteps_keeps | apply emit_keeps | fail_if_no_progress (apply Keeps.lit)
    | (extract_lets +onlyGivenNames x; first | (refine cut (a := Keeps st0 x) ?_ fun hx => ?_; subst x; rotate_left; clear_value x) | clear_value x)
    | split

theorem execAuth_keeps {st0 : State} (sid : Fin 8) (body : List Byte) (s : State) (hk0 : Keeps st0 s) :
    ResKeeps st0 (execAuth sid body s) := by
  unfold execAuth
  with_reducible repeat' first
    | assumption | (intro) | apply ResKeeps.mk | apply inboxDrop_keeps | apply sessSend_keeps | apply bump32_keeps | apply sessEnd_keeps
    | fail_if_no_progress (apply Keeps.lit)
    | (extract_lets +onlyGivenNames x; first | (refine cut (a := Keeps st0 x) ?_ fun hx => ?_; subst x; rotate_left; clear_value x) | clear_value x)
    | split

theorem execSessionClose_keeps {st0 : State} (sid : Fin 8) (s : State) (hk0 : Keeps st0 s) :
    ResKeeps st0 (execSessionClose sid s) := by
  unfold execSessionClose
  with_reducible repeat' first
    | assumption | (intro) | apply ResKeeps.mk | apply inboxDrop_keeps | apply sessEnd_keeps | split

theorem execSessionIdleTimeout_keeps {st0 : State} (sid : Fin 8) (s : State) (hk0 : Keeps st0 s) :
    ResKeeps st0 (execSessionIdleTimeout sid s) := by
  unfold execSessionIdleTimeout
  with_reducible repeat' first
    | assumption | apply ResKeeps.mk | apply sessEnd_keeps | fail_if_no_progress (apply Keeps.lit) | split

theorem execCredentialWrite_keeps {st0 : State} (rq : DictReq) (slot : Fin 16) (v : List Byte) (s : State) (hk0 : Keeps st0 s) :
    ResKeeps st0 (execCredentialWrite rq slot v s) := by
  unfold execCredentialWrite
  with_reducible repeat' first
    | assumption | (intro) | apply ResKeeps.mk | apply dictWrite_keeps | fail_if_no_progress (apply Keeps.lit)
    | (extract_lets +onlyGivenNames x; first | (refine cut (a := Keeps st0 x) ?_ fun hx => ?_; subst x; rotate_left; clear_value x) | clear_value x)
    | split

theorem execPavilionRestart_keeps {st0 : State} (t : RestartTrigger) (s : State) (hk0 : Keeps st0 s) :
    ResKeeps st0 (execPavilionRestart t s) := by
  unfold execPavilionRestart
  with_reducible repeat' first
    | assumption | (intro) | apply ResKeeps.mk | apply pavRestart_keeps | apply dictWrite_keeps | apply odSet_keeps
    | fail_if_no_progress (apply Keeps.lit) | split

theorem execPavilionAnsweringAgain_keeps {st0 : State} (s : State) (hk0 : Keeps st0 s) :
    ResKeeps st0 (execPavilionAnsweringAgain s) := by
  unfold execPavilionAnsweringAgain
  with_reducible repeat' first
    | assumption | (intro) | apply ResKeeps.mk | fail_if_no_progress (apply Keeps.lit) | split

theorem execDictRead_keeps {st0 : State} (rq : DictReq) (idx : BitVec 16) (sub : Byte) (s : State) (hk0 : Keeps st0 s) :
    ResKeeps st0 (execDictRead rq idx sub s) := by
  unfold execDictRead
  with_reducible repeat' first
    | assumption | apply ResKeeps.mk | apply dictRead_keeps

theorem execErrorLogRead_keeps {st0 : State} (rq : DictReq) (s : State) (hk0 : Keeps st0 s) :
    ResKeeps st0 (execErrorLogRead rq s) := by
  unfold execErrorLogRead
  with_reducible repeat' first
    | assumption | apply ResKeeps.mk | apply dictRead_keeps

theorem execReadClamp_keeps {st0 : State} (rq : DictReq) (idx : BitVec 16) (sub : Byte) (s : State) (hk0 : Keeps st0 s) :
    ResKeeps st0 (execReadClamp rq idx sub s) := by
  unfold execReadClamp
  with_reducible repeat' first
    | assumption | apply ResKeeps.mk | apply dictAnswer_keeps | fail_if_no_progress (apply Keeps.lit)
    | (extract_lets +onlyGivenNames x; first | (refine cut (a := Keeps st0 x) ?_ fun hx => ?_; subst x; rotate_left; clear_value x) | clear_value x)
    | split

theorem execSubscribe_keeps {st0 : State} (rq : DictReq) (idx : BitVec 16) (sub : Byte) (minMs : BitVec 16) (s : State) (hk0 : Keeps st0 s) :
    ResKeeps st0 (execSubscribe rq idx sub minMs s) := by
  unfold execSubscribe
  with_reducible repeat' first
    | assumption | (intro) | apply ResKeeps.mk | apply dictAnswer_keeps | apply sessSet_keeps | fail_if_no_progress (apply Keeps.lit)
    | (extract_lets +onlyGivenNames x; first | (refine cut (a := Keeps st0 x) ?_ fun hx => ?_; subst x; rotate_left; clear_value x) | clear_value x)
    | split

theorem execUnsubscribe_keeps {st0 : State} (rq : DictReq) (idx : BitVec 16) (sub : Byte) (s : State) (hk0 : Keeps st0 s) :
    ResKeeps st0 (execUnsubscribe rq idx sub s) := by
  unfold execUnsubscribe
  with_reducible repeat' first
    | assumption | (intro) | apply ResKeeps.mk | apply dictAnswer_keeps | apply sessSet_keeps | fail_if_no_progress (apply Keeps.lit)
    | (extract_lets +onlyGivenNames x; first | (refine cut (a := Keeps st0 x) ?_ fun hx => ?_; subst x; rotate_left; clear_value x) | clear_value x)
    | split

theorem execNotify_keeps {st0 : State} (sid : Fin 8) (idx : BitVec 16) (sub : Byte) (s : State) (hk0 : Keeps st0 s) :
    ResKeeps st0 (execNotify sid idx sub s) := by
  unfold execNotify
  with_reducible repeat' first
    | assumption | (intro) | apply ResKeeps.mk | apply sessSend_keeps | fail_if_no_progress (apply Keeps.lit)
    | (extract_lets +onlyGivenNames x; first | (refine cut (a := Keeps st0 x) ?_ fun hx => ?_; subst x; rotate_left; clear_value x) | clear_value x)
    | split

theorem execLogClear_keeps {st0 : State} (rq : DictReq) (v : List Byte) (s : State) (hk0 : Keeps st0 s) :
    ResKeeps st0 (execLogClear rq v s) := by
  unfold execLogClear
  with_reducible repeat' first
    | assumption | (intro) | apply ResKeeps.mk | apply dictClear_keeps | fail_if_no_progress (apply Keeps.lit)

theorem execClampCounterClear_keeps {st0 : State} (rq : DictReq) (v : List Byte) (s : State) (hk0 : Keeps st0 s) :
    ResKeeps st0 (execClampCounterClear rq v s) := by
  unfold execClampCounterClear
  with_reducible repeat' first
    | assumption | (intro) | apply ResKeeps.mk | apply dictClear_keeps | apply odSet_keeps | fail_if_no_progress (apply Keeps.lit)

theorem execCoreCounterClear_keeps {st0 : State} (rq : DictReq) (v : List Byte) (s : State) (hk0 : Keeps st0 s) :
    ResKeeps st0 (execCoreCounterClear rq v s) := by
  unfold execCoreCounterClear
  with_reducible repeat' first
    | assumption | (intro) | apply ResKeeps.mk | apply dictClear_keeps | apply odClearRange_keeps

theorem execSequencerCounterClear_keeps {st0 : State} (rq : DictReq) (v : List Byte) (s : State) (hk0 : Keeps st0 s) :
    ResKeeps st0 (execSequencerCounterClear rq v s) := by
  unfold execSequencerCounterClear
  with_reducible repeat' first
    | assumption | (intro) | apply ResKeeps.mk | apply dictClear_keeps | apply odClearRange_keeps

theorem execMemoryCounterClear_keeps {st0 : State} (rq : DictReq) (v : List Byte) (s : State) (hk0 : Keeps st0 s) :
    ResKeeps st0 (execMemoryCounterClear rq v s) := by
  unfold execMemoryCounterClear
  with_reducible repeat' first
    | assumption | (intro) | apply ResKeeps.mk | apply dictClear_keeps | apply odClearRange_keeps

theorem execDmaCounterClear_keeps {st0 : State} (rq : DictReq) (v : List Byte) (s : State) (hk0 : Keeps st0 s) :
    ResKeeps st0 (execDmaCounterClear rq v s) := by
  unfold execDmaCounterClear
  with_reducible repeat' first
    | assumption | (intro) | apply ResKeeps.mk | apply dictClear_keeps | apply odClearRange_keeps

theorem execConvolutionCounterClear_keeps {st0 : State} (rq : DictReq) (v : List Byte) (s : State) (hk0 : Keeps st0 s) :
    ResKeeps st0 (execConvolutionCounterClear rq v s) := by
  unfold execConvolutionCounterClear
  with_reducible repeat' first
    | assumption | (intro) | apply ResKeeps.mk | apply dictClear_keeps | apply odClearRange_keeps

theorem execKvCounterClear_keeps {st0 : State} (rq : DictReq) (v : List Byte) (s : State) (hk0 : Keeps st0 s) :
    ResKeeps st0 (execKvCounterClear rq v s) := by
  unfold execKvCounterClear
  with_reducible repeat' first
    | assumption | (intro) | apply ResKeeps.mk | apply dictClear_keeps | apply odClearRange_keeps

theorem execCarouselCounterClear_keeps {st0 : State} (rq : DictReq) (v : List Byte) (s : State) (hk0 : Keeps st0 s) :
    ResKeeps st0 (execCarouselCounterClear rq v s) := by
  unfold execCarouselCounterClear
  with_reducible repeat' first
    | assumption | (intro) | apply ResKeeps.mk | apply dictClear_keeps | apply odClearRange_keeps

theorem execVideoCounterClear_keeps {st0 : State} (rq : DictReq) (v : List Byte) (s : State) (hk0 : Keeps st0 s) :
    ResKeeps st0 (execVideoCounterClear rq v s) := by
  unfold execVideoCounterClear
  with_reducible repeat' first
    | assumption | (intro) | apply ResKeeps.mk | apply dictClear_keeps | apply odClearRange_keeps

theorem execTrellisCounterClear_keeps {st0 : State} (rq : DictReq) (v : List Byte) (s : State) (hk0 : Keeps st0 s) :
    ResKeeps st0 (execTrellisCounterClear rq v s) := by
  unfold execTrellisCounterClear
  with_reducible repeat' first
    | assumption | (intro) | apply ResKeeps.mk | apply dictClear_keeps | apply odClearRange_keeps

theorem execPowerCounterClear_keeps {st0 : State} (rq : DictReq) (v : List Byte) (s : State) (hk0 : Keeps st0 s) :
    ResKeeps st0 (execPowerCounterClear rq v s) := by
  unfold execPowerCounterClear
  with_reducible repeat' first
    | assumption | (intro) | apply ResKeeps.mk | apply dictClear_keeps | apply odClearRange_keeps

theorem execThermalCounterClear_keeps {st0 : State} (rq : DictReq) (v : List Byte) (s : State) (hk0 : Keeps st0 s) :
    ResKeeps st0 (execThermalCounterClear rq v s) := by
  unfold execThermalCounterClear
  with_reducible repeat' first
    | assumption | (intro) | apply ResKeeps.mk | apply dictClear_keeps | apply odClearRange_keeps

theorem execMarginCounterClear_keeps {st0 : State} (rq : DictReq) (v : List Byte) (s : State) (hk0 : Keeps st0 s) :
    ResKeeps st0 (execMarginCounterClear rq v s) := by
  unfold execMarginCounterClear
  with_reducible repeat' first
    | assumption | (intro) | apply ResKeeps.mk | apply dictClear_keeps | apply odClearRange_keeps

theorem execPairCounterClear_keeps {st0 : State} (rq : DictReq) (v : List Byte) (s : State) (hk0 : Keeps st0 s) :
    ResKeeps st0 (execPairCounterClear rq v s) := by
  unfold execPairCounterClear
  with_reducible repeat' first
    | assumption | (intro) | apply ResKeeps.mk | apply dictClear_keeps | apply odClearRange_keeps

theorem execCvuCounterClear_keeps {st0 : State} (rq : DictReq) (v : List Byte) (s : State) (hk0 : Keeps st0 s) :
    ResKeeps st0 (execCvuCounterClear rq v s) := by
  unfold execCvuCounterClear
  with_reducible repeat' first
    | assumption | (intro) | apply ResKeeps.mk | apply dictClear_keeps | apply odClearRange_keeps

theorem execErrorCounterClear_keeps {st0 : State} (rq : DictReq) (v : List Byte) (s : State) (hk0 : Keeps st0 s) :
    ResKeeps st0 (execErrorCounterClear rq v s) := by
  unfold execErrorCounterClear
  with_reducible repeat' first
    | assumption | (intro) | apply ResKeeps.mk | apply dictClear_keeps | apply odClearRange_keeps

theorem execPreChargeContact_keeps {st0 : State} (s : State) (hk0 : Keeps st0 s) :
    ResKeeps st0 (execPreChargeContact s) := by
  unfold execPreChargeContact
  with_reducible repeat' first
    | assumption | apply ResKeeps.mk | fail_if_no_progress (apply Keeps.lit)

theorem execPresenceAssert_keeps {st0 : State} (straps : BitVec 5) (s : State) (hk0 : Keeps st0 s) :
    ResKeeps st0 (execPresenceAssert straps s) := by
  unfold execPresenceAssert
  with_reducible repeat' first
    | assumption | apply ResKeeps.mk | fail_if_no_progress (apply Keeps.lit) | split

theorem execMainSwitchClose_keeps {st0 : State} (busMv bulkMv storeMv : Nat) (s : State) (hk0 : Keeps st0 s) :
    ResKeeps st0 (execMainSwitchClose busMv bulkMv storeMv s) := by
  unfold execMainSwitchClose
  with_reducible repeat' first
    | assumption | apply ResKeeps.mk | fail_if_no_progress (apply Keeps.lit) | split

theorem execMainPowerGood_keeps {st0 : State} (inputMv : Nat) (trained : BitVec 8) (s : State) (hk0 : Keeps st0 s) :
    ResKeeps st0 (execMainPowerGood inputMv trained s) := by
  unfold execMainPowerGood
  with_reducible repeat' first
    | assumption | apply ResKeeps.mk | apply bootDo_keeps | split

theorem execComponentStartTimeout_keeps {st0 : State} (c : Fin 9) (s : State) (hk0 : Keeps st0 s) :
    ResKeeps st0 (execComponentStartTimeout c s) := by
  unfold execComponentStartTimeout
  with_reducible repeat' first
    | assumption | (intro) | apply ResKeeps.mk | apply bootFail_keeps | split

theorem execPresenceLoss_keeps {st0 : State} (s : State) (hk0 : Keeps st0 s) :
    ResKeeps st0 (execPresenceLoss s) := by
  unfold execPresenceLoss
  with_reducible repeat' first
    | assumption | apply ResKeeps.mk | apply keysZero_keeps | apply powerLost_keeps | fail_if_no_progress (apply Keeps.lit)
    | (extract_lets +onlyGivenNames x; first | (refine cut (a := Keeps st0 x) ?_ fun hx => ?_; subst x; rotate_left; clear_value x) | clear_value x)

theorem execInputLoss_keeps {st0 : State} (s : State) (hk0 : Keeps st0 s) :
    ResKeeps st0 (execInputLoss s) := by
  unfold execInputLoss
  with_reducible repeat' first
    | assumption | apply ResKeeps.mk | apply keysZero_keeps | apply powerLost_keeps

theorem execOverVoltage_keeps {st0 : State} (s : State) (hk0 : Keeps st0 s) :
    ResKeeps st0 (execOverVoltage s) := by
  unfold execOverVoltage
  with_reducible repeat' first
    | assumption | apply ResKeeps.mk | apply powerLost_keeps | apply declareFailed_keeps | fail_if_no_progress (apply Keeps.lit)
    | (extract_lets +onlyGivenNames x; first | (refine cut (a := Keeps st0 x) ?_ fun hx => ?_; subst x; rotate_left; clear_value x) | clear_value x)

theorem execDrainRequest_keeps {st0 : State} (s : State) (hk0 : Keeps st0 s) :
    ResKeeps st0 (execDrainRequest s) := by
  unfold execDrainRequest
  with_reducible repeat' first
    | assumption | apply ResKeeps.mk | apply activationStop_keeps | apply drainStandby_keeps | apply coldStandby_keeps | apply snapAsk_keeps
    | apply drainAlone_keeps | fail_if_no_progress (apply Keeps.lit)
    | (extract_lets +onlyGivenNames x; first | (refine cut (a := Keeps st0 x) ?_ fun hx => ?_; subst x; rotate_left; clear_value x) | clear_value x)
    | split

theorem execLeverClose_keeps {st0 : State} (s : State) (hk0 : Keeps st0 s) :
    ResKeeps st0 (execLeverClose s) := by
  unfold execLeverClose
  with_reducible repeat' first
    | assumption | apply ResKeeps.mk | fail_if_no_progress (apply Keeps.lit)
    | (extract_lets +onlyGivenNames x; first | (refine cut (a := Keeps st0 x) ?_ fun hx => ?_; subst x; rotate_left; clear_value x) | clear_value x)
    | split

theorem execWarmReset_keeps {st0 : State} (rq : DictReq) (s : State) (hk0 : Keeps st0 s) :
    ResKeeps st0 (execWarmReset rq s) := by
  unfold execWarmReset
  with_reducible repeat' first
    | assumption | (intro) | apply ResKeeps.mk | apply dictWrite_keeps | apply odSet_keeps | apply warmDo_keeps | apply stagingDrop_keeps
    | split

theorem execColdReset_keeps {st0 : State} (rq : DictReq) (s : State) (hk0 : Keeps st0 s) :
    ResKeeps st0 (execColdReset rq s) := by
  unfold execColdReset
  with_reducible repeat' first
    | assumption | (intro) | apply ResKeeps.mk | apply dictWrite_keeps | apply bootDo_keeps | apply freeStep_keeps | apply odSet_keeps
    | split

theorem execPartitionReset_keeps {st0 : State} (rq : DictReq) (v : Byte) (s : State) (hk0 : Keeps st0 s) :
    ResKeeps st0 (execPartitionReset rq v s) := by
  unfold execPartitionReset
  with_reducible repeat' first
    | assumption | (intro) | apply ResKeeps.mk | apply dictWrite_keeps | apply odSet_keeps | apply partReset_keeps | split

theorem execUpdateBegin_keeps {st0 : State} (rq : DictReq) (s : State) (hk0 : Keeps st0 s) :
    ResKeeps st0 (execUpdateBegin rq s) := by
  unfold execUpdateBegin
  with_reducible repeat' first
    | assumption | apply ResKeeps.mk | apply updCommand_keeps

theorem execUpdateVerify_keeps {st0 : State} (rq : DictReq) (s : State) (hk0 : Keeps st0 s) :
    ResKeeps st0 (execUpdateVerify rq s) := by
  unfold execUpdateVerify
  with_reducible repeat' first
    | assumption | apply ResKeeps.mk | apply updCommand_keeps

theorem execUpdateAbort_keeps {st0 : State} (rq : DictReq) (s : State) (hk0 : Keeps st0 s) :
    ResKeeps st0 (execUpdateAbort rq s) := by
  unfold execUpdateAbort
  with_reducible repeat' first
    | assumption | apply ResKeeps.mk | apply updCommand_keeps

theorem execBlockSubmit_keeps {st0 : State} (rq : DictReq) (v : List Byte) (s : State) (hk0 : Keeps st0 s) :
    ResKeeps st0 (execBlockSubmit rq v s) := by
  unfold execBlockSubmit
  with_reducible repeat' first
    | assumption | (intro) | apply ResKeeps.mk | apply dictWrite_keeps | apply blockSubmit_keeps

theorem execActivationTimeWrite_keeps {st0 : State} (rq : DictReq) (v : List Byte) (s : State) (hk0 : Keeps st0 s) :
    ResKeeps st0 (execActivationTimeWrite rq v s) := by
  unfold execActivationTimeWrite
  with_reducible repeat' first
    | assumption | (intro) | apply ResKeeps.mk | apply dictWrite_keeps | apply armTell_keeps | apply updSet_keeps | apply disarm_keeps
    | apply armDrop_keeps | apply updResult_keeps | fail_if_no_progress (apply Keeps.lit)
    | (extract_lets +onlyGivenNames x; first | (refine cut (a := Keeps st0 x) ?_ fun hx => ?_; subst x; rotate_left; clear_value x) | clear_value x)
    | split

theorem execArmedInstantExchange_keeps {st0 : State} (t : BitVec 64) (s : State) (hk0 : Keeps st0 s) :
    ResKeeps st0 (execArmedInstantExchange t s) := by
  unfold execArmedInstantExchange
  with_reducible repeat' first
    | assumption | apply ResKeeps.mk | fail_if_no_progress (apply Keeps.lit) | split

theorem execActivation_keeps {st0 : State} (s : State) (hk0 : Keeps st0 s) :
    ResKeeps st0 (execActivation s) := by
  unfold execActivation
  with_reducible repeat' first
    | assumption | apply ResKeeps.mk | apply updSet_keeps | apply armDrop_keeps | apply sendYield_keeps
    | (extract_lets +onlyGivenNames x; first | (refine cut (a := Keeps st0 x) ?_ fun hx => ?_; subst x; rotate_left; clear_value x) | clear_value x)
    | split

theorem execActivationCommit_keeps {st0 : State} (s : State) (hk0 : Keeps st0 s) :
    ResKeeps st0 (execActivationCommit s) := by
  unfold execActivationCommit
  with_reducible repeat' first
    | assumption | apply ResKeeps.mk | apply checkLog_keeps | apply warmDo_keeps | apply measure_keeps | apply updSet_keeps
    | apply updDiscard_keeps | fail_if_no_progress (apply Keeps.lit)
    | (extract_lets +onlyGivenNames x; first | (refine cut (a := Keeps st0 x) ?_ fun hx => ?_; subst x; rotate_left; clear_value x) | clear_value x)
    | split

/-- A floor that advances does not fall, and no other moves. -/
theorem floors_foldl_le (s : State) (l : List Nat) (a : List Nat) (c : Nat) :
    a.getD c 0 ≤ (l.foldl (fun l c => l.set c (max (l.getD c 0) (runningVer s c))) a).getD c 0 := by
  induction l generalizing a with
  | nil => exact Nat.le_refl _
  | cons d t ih =>
    refine Nat.le_trans ?_ (ih _)
    by_cases h : d = c
    · subst h
      by_cases hd : d < a.length
      · simp [List.getD, hd]
      · simp [List.getD, hd]
    · simp [List.getD, List.getElem?_set_ne h]

theorem execFloorAdvance_keeps {st0 : State} (rq : DictReq) (v : List Byte) (s : State) (hk0 : Keeps st0 s) :
    ResKeeps st0 (execFloorAdvance rq v s) := by
  refine .mk (dictWrite_keeps _ _ _ _ _ _ _ (fun s w hk => odSet_keeps _ _ _ _ ?_) hk0)
  exact hk.trans ⟨rfl, ⟨rfl, rfl, rfl, rfl, id, id, Nat.le_refl _, floors_foldl_le s _ _⟩, id⟩

theorem execErrorInjectionWrite_keeps {st0 : State} (rq : DictReq) (v : List Byte) (s : State) (hk0 : Keeps st0 s) :
    ResKeeps st0 (execErrorInjectionWrite rq v s) := by
  unfold execErrorInjectionWrite
  with_reducible repeat' first
    | assumption | (intro) | apply ResKeeps.mk | apply dictWrite_keeps | apply perturbNote_keeps | split

theorem execInjectedError_keeps {st0 : State} (s : State) (hk0 : Keeps st0 s) :
    ResKeeps st0 (execInjectedError s) := by
  unfold execInjectedError
  with_reducible repeat' first
    | assumption | apply ResKeeps.mk | apply bump32_keeps | apply odSet_keeps | apply injectDo_keeps
    | (extract_lets +onlyGivenNames x; first | (refine cut (a := Keeps st0 x) ?_ fun hx => ?_; subst x; rotate_left; clear_value x) | clear_value x)
    | split

theorem execPerturbationWrite_keeps {st0 : State} (rq : DictReq) (idx : BitVec 16) (sub : Byte) (v : List Byte) (s : State) (hk0 : Keeps st0 s) :
    ResKeeps st0 (execPerturbationWrite rq idx sub v s) := by
  unfold execPerturbationWrite
  with_reducible repeat' first
    | assumption | (intro) | apply ResKeeps.mk | apply dictWrite_keeps | apply perturbNote_keeps
    | (extract_lets +onlyGivenNames x; first | (refine cut (a := Keeps st0 x) ?_ fun hx => ?_; subst x; rotate_left; clear_value x) | clear_value x)
    | split

theorem execPrefixRebuild_keeps {st0 : State} (t : RebuildTrigger) (s : State) (hk0 : Keeps st0 s) :
    ResKeeps st0 (execPrefixRebuild t s) := by
  unfold execPrefixRebuild
  with_reducible repeat' first
    | assumption | (intro) | apply ResKeeps.mk | apply dictWrite_keeps | apply rebuildAsk_keeps | apply rebuildRemoved_keeps
    | apply varSet_keeps | fail_if_no_progress (apply Keeps.lit) | split

theorem resetWrite_keeps {st0 : State} (s : State) (rq : DictReq) (v : List Byte) (hk0 : Keeps st0 s) : Keeps st0 (resetWrite s rq v) := by
  unfold resetWrite
  with_reducible repeat' first
    | assumption | (intro) | apply dictWrite_keeps | apply resState_keeps | apply execWarmReset_keeps
    | apply bootDo_keeps | apply freeStep_keeps | apply odSet_keeps | split

/-- A write of 1 to a clear object keeps what every command keeps. -/
theorem clearOf_keeps {st0 : State} {idx : Nat} {rq : DictReq} {v : List Byte} {s : State} {r : Res} (h : clearOf idx rq v s = some r) (hk0 : Keeps st0 s) : ResKeeps st0 r := by
  unfold clearOf at h
  split at h
  · cases h
    exact execPowerCounterClear_keeps _ _ _ hk0
  · cases h
    exact execThermalCounterClear_keeps _ _ _ hk0
  · cases h
    exact execMarginCounterClear_keeps _ _ _ hk0
  · cases h
    exact execMemoryCounterClear_keeps _ _ _ hk0
  · cases h
    exact execDmaCounterClear_keeps _ _ _ hk0
  · cases h
    exact execCarouselCounterClear_keeps _ _ _ hk0
  · cases h
    exact execKvCounterClear_keeps _ _ _ hk0
  · cases h
    exact execCoreCounterClear_keeps _ _ _ hk0
  · cases h
    exact execSequencerCounterClear_keeps _ _ _ hk0
  · cases h
    exact execConvolutionCounterClear_keeps _ _ _ hk0
  · cases h
    exact execTrellisCounterClear_keeps _ _ _ hk0
  · cases h
    exact execPairCounterClear_keeps _ _ _ hk0
  · cases h
    exact execCvuCounterClear_keeps _ _ _ hk0
  · cases h
    exact execVideoCounterClear_keeps _ _ _ hk0
  · cases h
    exact execLogClear_keeps _ _ _ hk0
  · cases h
    exact execClampCounterClear_keeps _ _ _ hk0
  · cases h
    exact execErrorCounterClear_keeps _ _ _ hk0
  · cases h

/-- So does a write, with a step of its own, of an object with subindices. -/
theorem indexedOf_keeps {st0 : State} {idx sub : Nat} {rq : DictReq} {v : List Byte} {s : State} {r : Res} (h : indexedOf idx sub rq v s = some r) (hk0 : Keeps st0 s) : ResKeeps st0 r := by
  unfold indexedOf at h
  split at h
  · cases h
    exact execCredentialWrite_keeps _ _ _ _ hk0
  · cases h
    exact execClockSourceSwitch_keeps _ _ _ _ hk0
  · cases h
    exact execDieNocFrequencyWrite_keeps _ _ _ _ hk0
  · split at h <;> cases h
    exact execSustainedCapWrite_keeps _ _ _ hk0
  · cases h
    exact execCoolingInputWrite_keeps _ _ _ _ hk0
  · cases h
    exact execKvPoolWrite_keeps _ _ _ _ hk0
  · cases h
    exact .mk (varWrite_keeps _ _ _ _ hk0)
  · cases h
    exact execDeltaOwnerWrite_keeps _ _ _ _ hk0
  · cases h
    exact execPinwheelOwnerWrite_keeps _ _ _ _ hk0
  · cases h
    exact .mk (slotWrite_keeps _ _ _ _ hk0)
  · cases h
    exact execHubCvuSettingWrite_keeps _ _ _ _ hk0
  · cases h
    exact execHubCvuRunningWrite_keeps _ _ _ _ hk0
  · cases h
    exact execHubCvuClose_keeps _ _ _ _ hk0
  · cases h
    exact .mk (resetWrite_keeps _ _ _ hk0)
  · cases h
    split
    · exact execPartitionReset_keeps _ _ _ hk0
    · exact .mk (plainWrite_keeps _ _ _ _ _ hk0)
  · cases h

/-- And of one without. -/
theorem soloOf_keeps {st0 : State} {idx : Nat} {rq : DictReq} {v : List Byte} {s : State} {r : Res} (h : soloOf idx rq v s = some r) (hk0 : Keeps st0 s) : ResKeeps st0 r := by
  unfold soloOf at h
  split at h
  · cases h
    exact execPavilionRestart_keeps _ _ hk0
  · cases h
    exact execSpreadDepthWrite_keeps _ _ _ hk0
  · cases h
    exact execPrefixRebuild_keeps _ _ hk0
  · cases h
    exact .mk (gateWrite_keeps _ _ _ hk0)
  · cases h
    exact execRehearsalStart_keeps _ _ hk0
  · cases h
    exact execPlannedSwitchover_keeps _ _ _ hk0
  · cases h
    exact execErrorInjectionWrite_keeps _ _ _ hk0
  · cases h
    exact .mk (updCommand_keeps _ _ _ hk0)
  · cases h
    exact execBlockSubmit_keeps _ _ _ hk0
  · cases h
    exact execActivationTimeWrite_keeps _ _ _ hk0
  · cases h
    exact execFloorAdvance_keeps _ _ _ hk0
  · exact clearOf_keeps h hk0

theorem execDictWrite_keeps {st0 : State} (rq : DictReq) (idx : BitVec 16) (sub : Byte) (v : List Byte) (s : State) (hk0 : Keeps st0 s) :
    ResKeeps st0 (execDictWrite rq idx sub v s) := by
  unfold execDictWrite
  dsimp only
  split
  · exact .mk (plainWrite_keeps _ _ _ _ _ hk0)
  · split
    · exact indexedOf_keeps ‹_› hk0
    · split
      · exact soloOf_keeps ‹_› hk0
      · split
        · exact execPerturbationWrite_keeps _ _ _ _ _ hk0
        · exact .mk (plainWrite_keeps _ _ _ _ _ hk0)

/-! ### The steps -/

/-- Every command goes through, and keeps what every command keeps. -/
theorem exec_keeps (i : Instr) (s : State) : ResKeeps s (exec i s) := by
  have hk := Keeps.refl s
  cases i with
  | mainPowerGood => exact execMainPowerGood_keeps _ _ _ hk
  | preChargeContact => exact execPreChargeContact_keeps _ hk
  | mainSwitchClose => exact execMainSwitchClose_keeps _ _ _ _ hk
  | presenceAssert => exact execPresenceAssert_keeps _ _ hk
  | presenceLoss => exact execPresenceLoss_keeps _ hk
  | inputLoss => exact execInputLoss_keeps _ hk
  | overVoltage => exact execOverVoltage_keeps _ hk
  | componentStartTimeout => exact execComponentStartTimeout_keeps _ _ hk
  | configRequest => exact execConfigRequest_keeps _ _ _ hk
  | perstAssert => exact execPerstAssert_keeps _ hk
  | drainRequest => exact execDrainRequest_keeps _ hk
  | leverClose => exact execLeverClose_keeps _ hk
  | ppsEdge => exact execPpsEdge_keeps _ hk
  | timebaseSlewEnd => exact execTimebaseSlewEnd_keeps _ hk
  | holdoverEnter => exact execHoldoverEnter_keeps _ hk
  | stabilityInterval => exact execStabilityInterval_keeps _ _ _ hk
  | referenceReturn => exact execReferenceReturn_keeps _ hk
  | clockSourceSwitch => exact execClockSourceSwitch_keeps _ _ _ _ hk
  | spreadDepthWrite => exact execSpreadDepthWrite_keeps _ _ _ hk
  | dieNocFrequencyWrite => exact execDieNocFrequencyWrite_keeps _ _ _ _ hk
  | warmReset => exact execWarmReset_keeps _ _ hk
  | coldReset => exact execColdReset_keeps _ _ hk
  | partitionReset => exact execPartitionReset_keeps _ _ _ hk
  | governorCycle => exact execGovernorCycle_keeps _ _ hk
  | powerSample => exact execPowerSample_keeps _ _ _ hk
  | issueLimitApply => exact execIssueLimitApply_keeps _ _ hk
  | clockSettled => exact execClockSettled_keeps _ _ hk
  | sustainedCapWrite => exact execSustainedCapWrite_keeps _ _ _ hk
  | coolingInputWrite => exact execCoolingInputWrite_keeps _ _ _ _ hk
  | coolingInputStale => exact execCoolingInputStale_keeps _ _ hk
  | rideThroughExit => exact execRideThroughExit_keeps _ hk
  | sensorRead => exact execSensorRead_keeps _ _ hk
  | emergencyStep => exact execEmergencyStep_keeps _ _ hk
  | thermalRejoinReady => exact execThermalRejoinReady_keeps _ hk
  | sensorAlertClear => exact execSensorAlertClear_keeps _ _ hk
  | droopTrip => exact execDroopTrip_keeps _ _ _ hk
  | droopStretchEnd => exact execDroopStretchEnd_keeps _ _ hk
  | stretchLossWindow => exact execStretchLossWindow_keeps _ _ hk
  | guardStepReturn => exact execGuardStepReturn_keeps _ _ hk
  | canaryFail q path => exact execCanaryFail_keeps q path s hk
  | canaryTrimDown => exact execCanaryTrimDown_keeps _ _ hk
  | bundleFetch => exact execBundleFetch_keeps _ _ hk
  | next => exact execNext_keeps _ _ hk
  | loopBegin => exact execLoopBegin_keeps _ _ hk
  | loopEnd => exact execLoopEnd_keeps _ _ hk
  | jump => exact execJump_keeps _ _ hk
  | stepBegin => exact execStepBegin_keeps _ _ hk
  | stepEnd => exact execStepEnd_keeps _ _ hk
  | fence => exact execFence_keeps _ _ hk
  | laneBeginBundle => exact execLaneBeginBundle_keeps _ _ hk
  | laneWait => exact execLaneWait_keeps _ _ hk
  | lanePost => exact execLanePost_keeps _ _ hk
  | laneWaitAndPost => exact execLaneWaitAndPost_keeps _ _ hk
  | scoreboardWait => exact execScoreboardWait_keeps _ _ hk
  | clusterDmaIssue => exact execClusterDmaIssue_keeps _ _ _ hk
  | tile => exact execTile_keeps _ _ _ hk
  | readout => exact execReadout_keeps _ _ _ hk
  | tileRead => exact execTileRead_keeps _ _ _ hk
  | aguStart => exact execAguStart_keeps _ _ _ _ hk
  | aguAdvance => exact execAguAdvance_keeps _ _ _ _ hk
  | aguStop => exact execAguStop_keeps _ _ _ _ hk
  | localToCluster => exact execLocalToCluster_keeps _ _ _ _ hk
  | clusterToLocal => exact execClusterToLocal_keeps _ _ _ _ hk
  | fadd => exact execFadd_keeps _ _ _ hk
  | fsub => exact execFsub_keeps _ _ _ hk
  | fmul => exact execFmul_keeps _ _ _ hk
  | fma => exact execFma_keeps _ _ _ hk
  | fmin => exact execFmin_keeps _ _ _ hk
  | fmax => exact execFmax_keeps _ _ _ hk
  | fcmplt => exact execFcmplt_keeps _ _ _ hk
  | fcmpeq => exact execFcmpeq_keeps _ _ _ hk
  | iadd => exact execIadd_keeps _ _ _ hk
  | isub => exact execIsub_keeps _ _ _ hk
  | imul => exact execImul_keeps _ _ _ hk
  | iadds => exact execIadds_keeps _ _ _ hk
  | isubs => exact execIsubs_keeps _ _ _ hk
  | and => exact execAnd_keeps _ _ _ hk
  | or => exact execOr_keeps _ _ _ hk
  | xor => exact execXor_keeps _ _ _ hk
  | shl => exact execShl_keeps _ _ _ hk
  | shr => exact execShr_keeps _ _ _ hk
  | sar => exact execSar_keeps _ _ _ hk
  | cvt => exact execCvt_keeps _ _ _ hk
  | exp2 => exact execExp2_keeps _ _ _ hk
  | log2 => exact execLog2_keeps _ _ _ hk
  | rsqrt => exact execRsqrt_keeps _ _ _ hk
  | recip => exact execRecip_keeps _ _ _ hk
  | rsum => exact execRsum_keeps _ _ _ hk
  | rmax => exact execRmax_keeps _ _ _ hk
  | rmin => exact execRmin_keeps _ _ _ hk
  | rmerge => exact execRmerge_keeps _ _ _ hk
  | vecLoad => exact execVecLoad_keeps _ _ _ hk
  | vecStore => exact execVecStore_keeps _ _ _ hk
  | shadow => exact execShadow_keeps _ _ _ hk
  | flags => exact execFlags_keeps _ _ _ hk
  | setup => exact execSetup_keeps _ _ _ hk
  | param => exact execParam_keeps _ _ _ hk
  | vecPost => exact execVecPost_keeps _ _ _ hk
  | syncPost => exact execSyncPost_keeps _ _ _ _ _ _ hk
  | syncSet => exact execSyncSet_keeps _ _ _ _ _ _ hk
  | syncWait src c n t cyc => exact execSyncWait_keeps src c n t cyc s hk
  | syncRead src c n cyc => exact execSyncRead_keeps src c n cyc s hk
  | parityError => exact execParityError_keeps _ _ hk
  | stepDispatch => exact execStepDispatch_keeps _ _ hk
  | stepComplete => exact execStepComplete_keeps _ _ hk
  | stepEarlyEnd => exact execStepEarlyEnd_keeps _ _ _ hk
  | stepWatchdogExpiry => exact execStepWatchdogExpiry_keeps _ _ hk
  | stepReplay => exact execStepReplay_keeps _ _ hk
  | costTableCommit => exact execCostTableCommit_keeps _ _ hk
  | copy => exact execCopy_keeps _ _ _ hk
  | fill => exact execFill_keeps _ _ hk
  | pageRead => exact execPageRead_keeps _ _ _ hk
  | pageWrite => exact execPageWrite_keeps _ _ hk
  | descriptorComplete => exact execDescriptorComplete_keeps _ _ hk
  | hostReadCompletion => exact execHostReadCompletion_keeps _ _ _ _ hk
  | gcmDecrypt => exact execGcmDecrypt_keeps _ hk
  | patrolScrub => exact execPatrolScrub_keeps _ _ _ hk
  | hbmRetrain => exact execHbmRetrain_keeps _ _ _ hk
  | pinwheelJob => exact execPinwheelJob_keeps _ _ hk
  | pinwheelOwnerWrite => exact execPinwheelOwnerWrite_keeps _ _ _ _ hk
  | deltaJob => exact execDeltaJob_keeps _ _ hk
  | deltaOwnerWrite => exact execDeltaOwnerWrite_keeps _ _ _ _ hk
  | submissionDoorbell => exact execSubmissionDoorbell_keeps _ _ _ _ hk
  | submissionNop => exact execSubmissionNop_keeps _ hk
  | submit => exact execSubmit_keeps _ _ hk
  | cancel => exact execCancel_keeps _ hk
  | loadImage => exact execLoadImage_keeps _ _ hk
  | alloc => exact execAlloc_keeps _ hk
  | free => exact execFree_keeps _ hk
  | dmaCommand => exact execDmaCommand_keeps _ _ hk
  | prefixMatch => exact execPrefixMatch_keeps _ _ hk
  | roundStart => exact execRoundStart_keeps _ _ hk
  | cowCopyComplete => exact execCowCopyComplete_keeps _ _ _ hk
  | waitingPageResume => exact execWaitingPageResume_keeps _ _ hk
  | epochAdvance => exact execEpochAdvance_keeps _ hk
  | frameRelease => exact execFrameRelease_keeps _ _ hk
  | prefixRebuild => exact execPrefixRebuild_keeps _ _ hk
  | rebuildMigrateSet => exact execRebuildMigrateSet_keeps _ hk
  | prefixTableSwitch => exact execPrefixTableSwitch_keeps _ hk
  | kvPoolWrite => exact execKvPoolWrite_keeps _ _ _ _ hk
  | poolRelayout => exact execPoolRelayout_keeps _ _ hk
  | completionHeadDoorbell => exact execCompletionHeadDoorbell_keeps _ _ _ _ hk
  | msixModerationTimer => exact execMsixModerationTimer_keeps _ _ _ hk
  | variantRegister => exact execVariantRegister_keeps _ _ _ _ _ hk
  | variantRetire => exact execVariantRetire_keeps _ _ _ _ hk
  | variantCheckDone => exact execVariantCheckDone_keeps _ _ hk
  | zoetropeDoorbell => exact execZoetropeDoorbell_keeps _ _ _ hk
  | openSession => exact execOpenSession_keeps _ hk
  | feed => exact execFeed_keeps _ hk
  | encode => exact execEncode_keeps _ hk
  | key => exact execKey_keeps _ hk
  | release => exact execRelease_keeps _ hk
  | flush => exact execFlush_keeps _ hk
  | close => exact execClose_keeps _ hk
  | entropySwitch => exact execEntropySwitch_keeps _ _ _ _ _ hk
  | pictureReconstructStart => exact execPictureReconstructStart_keeps _ _ _ hk
  | ctuRowDispatch => exact execCtuRowDispatch_keeps _ _ _ _ hk
  | pictureOutput => exact execPictureOutput_keeps _ _ hk
  | releaseCounterPost => exact execReleaseCounterPost_keeps _ _ _ _ hk
  | encodePicture => exact execEncodePicture_keeps _ _ hk
  | flitReceive => exact execFlitReceive_keeps _ _ _ _ _ hk
  | flitReplay => exact execFlitReplay_keeps _ _ _ hk
  | portDown => exact execPortDown_keeps _ _ hk
  | laneOutOfService => exact execLaneOutOfService_keeps _ _ _ hk
  | laneRestore => exact execLaneRestore_keeps _ _ _ hk
  | helloSend => exact execHelloSend_keeps _ _ hk
  | helloReceive => exact execHelloReceive_keeps _ _ _ hk
  | equalisationRequest => exact execEqualisationRequest_keeps _ _ _ _ hk
  | writePacket => exact execWritePacket_keeps _ _ _ hk
  | postPacket => exact execPostPacket_keeps _ _ _ hk
  | ackPacket => exact execAckPacket_keeps _ _ _ hk
  | nakPacket => exact execNakPacket_keeps _ _ _ hk
  | packetResend => exact execPacketResend_keeps _ _ _ _ hk
  | sendJob => exact execSendJob_keeps _ _ hk
  | trellisPostJob => exact execTrellisPostJob_keeps _ _ hk
  | reduceJob => exact execReduceJob_keeps _ _ hk
  | reduceCombine => exact execReduceCombine_keeps _ _ hk
  | bindJob => exact execBindJob_keeps _ _ hk
  | trellisJobComplete => exact execTrellisJobComplete_keeps _ _ hk
  | clockStateSend => exact execClockStateSend_keeps _ hk
  | clockStateReceive => exact execClockStateReceive_keeps _ _ _ _ _ hk
  | peerLost => exact execPeerLost_keeps _ _ hk
  | form => exact execForm_keeps _ _ _ _ hk
  | remove => exact execRemove_keeps _ _ _ hk
  | revocationWaitEnd => exact execRevocationWaitEnd_keeps _ _ hk
  | granuleScrub => exact execGranuleScrub_keeps _ _ _ hk
  | rotateXts => exact execRotateXts_keeps _ _ _ hk
  | xtsSweepGranule => exact execXtsSweepGranule_keeps _ _ _ hk
  | xtsOldZeroize => exact execXtsOldZeroize_keeps _ _ hk
  | rotatePrefix => exact execRotatePrefix_keeps _ _ _ hk
  | attestReq => exact execAttestReq_keeps _ _ _ hk
  | certReq => exact execCertReq_keeps _ _ hk
  | keyInstall => exact execKeyInstall_keeps _ _ _ _ _ _ hk
  | keyDropOld => exact execKeyDropOld_keeps _ _ _ _ _ _ hk
  | keyActivation => exact execKeyActivation_keeps _ _ hk
  | ephemeralKeyExpiry => exact execEphemeralKeyExpiry_keeps _ _ hk
  | slotAssignmentWrite => exact execSlotAssignmentWrite_keeps _ _ _ _ hk
  | rmaEntry => exact execRmaEntry_keeps _ _ _ _ _ _ hk
  | hubCvuSettingWrite => exact execHubCvuSettingWrite_keeps _ _ _ _ hk
  | hubCvuRunningWrite => exact execHubCvuRunningWrite_keeps _ _ _ _ hk
  | hubCvuClose => exact execHubCvuClose_keeps _ _ _ _ hk
  | snapshotCut => exact execSnapshotCut_keeps _ hk
  | snapshotReceive => exact execSnapshotReceive_keeps _ _ _ _ hk
  | snapshotAck => exact execSnapshotAck_keeps _ _ hk
  | snapshotAbandon => exact execSnapshotAbandon_keeps _ hk
  | takeoverStart => exact execTakeoverStart_keeps _ _ hk
  | yield => exact execYield_keeps _ hk
  | plannedSwitchover => exact execPlannedSwitchover_keeps _ _ _ hk
  | followerAdmit => exact execFollowerAdmit_keeps _ _ hk
  | stepCheckValueReceive => exact execStepCheckValueReceive_keeps _ _ _ _ hk
  | proofTestResult => exact execProofTestResult_keeps _ _ _ hk
  | rehearsalStart => exact execRehearsalStart_keeps _ _ hk
  | rehearsalEnd => exact execRehearsalEnd_keeps _ _ hk
  | datagramReceive => exact execDatagramReceive_keeps _ _ _ _ hk
  | fragmentTimeout => exact execFragmentTimeout_keeps _ _ _ hk
  | hello => exact execHello_keeps _ _ _ hk
  | auth => exact execAuth_keeps _ _ _ hk
  | dictRead => exact execDictRead_keeps _ _ _ _ hk
  | dictWrite => exact execDictWrite_keeps _ _ _ _ _ hk
  | readClamp => exact execReadClamp_keeps _ _ _ _ hk
  | subscribe => exact execSubscribe_keeps _ _ _ _ _ hk
  | unsubscribe => exact execUnsubscribe_keeps _ _ _ _ hk
  | notify => exact execNotify_keeps _ _ _ _ hk
  | sessionClose => exact execSessionClose_keeps _ _ hk
  | sessionIdleTimeout => exact execSessionIdleTimeout_keeps _ _ hk
  | pavilionRestart => exact execPavilionRestart_keeps _ _ hk
  | credentialWrite => exact execCredentialWrite_keeps _ _ _ _ hk
  | errorLogRead => exact execErrorLogRead_keeps _ _ hk
  | logClear => exact execLogClear_keeps _ _ _ hk
  | clampCounterClear => exact execClampCounterClear_keeps _ _ _ hk
  | coreCounterClear => exact execCoreCounterClear_keeps _ _ _ hk
  | sequencerCounterClear => exact execSequencerCounterClear_keeps _ _ _ hk
  | memoryCounterClear => exact execMemoryCounterClear_keeps _ _ _ hk
  | dmaCounterClear => exact execDmaCounterClear_keeps _ _ _ hk
  | convolutionCounterClear => exact execConvolutionCounterClear_keeps _ _ _ hk
  | kvCounterClear => exact execKvCounterClear_keeps _ _ _ hk
  | carouselCounterClear => exact execCarouselCounterClear_keeps _ _ _ hk
  | videoCounterClear => exact execVideoCounterClear_keeps _ _ _ hk
  | trellisCounterClear => exact execTrellisCounterClear_keeps _ _ _ hk
  | powerCounterClear => exact execPowerCounterClear_keeps _ _ _ hk
  | thermalCounterClear => exact execThermalCounterClear_keeps _ _ _ hk
  | marginCounterClear => exact execMarginCounterClear_keeps _ _ _ hk
  | pairCounterClear => exact execPairCounterClear_keeps _ _ _ hk
  | cvuCounterClear => exact execCvuCounterClear_keeps _ _ _ hk
  | errorCounterClear => exact execErrorCounterClear_keeps _ _ _ hk
  | functionQuiesce => exact execFunctionQuiesce_keeps _ _ _ hk
  | functionDisable => exact execFunctionDisable_keeps _ _ _ hk
  | functionIdle => exact execFunctionIdle_keeps _ _ hk
  | poisonedTlp => exact execPoisonedTlp_keeps _ _ hk
  | barWriteDiscard => exact execBarWriteDiscard_keeps _ _ _ _ hk
  | updateBegin => exact execUpdateBegin_keeps _ _ hk
  | blockSubmit => exact execBlockSubmit_keeps _ _ _ hk
  | updateVerify => exact execUpdateVerify_keeps _ _ hk
  | updateAbort => exact execUpdateAbort_keeps _ _ hk
  | activationTimeWrite => exact execActivationTimeWrite_keeps _ _ _ hk
  | activation => exact execActivation_keeps _ hk
  | activationCommit => exact execActivationCommit_keeps _ hk
  | floorAdvance => exact execFloorAdvance_keeps _ _ _ hk
  | errorInjectionWrite => exact execErrorInjectionWrite_keeps _ _ _ hk
  | injectedError => exact execInjectedError_keeps _ hk
  | perturbationWrite => exact execPerturbationWrite_keeps _ _ _ _ _ hk
  | functionRegisterWrite => exact execFunctionRegisterWrite_keeps _ _ _ _ _ hk
  | lossOfLock => exact execLossOfLock_keeps _ _ hk
  | creditControlBlock => exact execCreditControlBlock_keeps _ _ _ _ hk
  | completionTimeout => exact execCompletionTimeout_keeps _ _ hk
  | pavilionAnsweringAgain => exact execPavilionAnsweringAgain_keeps _ hk
  | icmpv6Message => exact execIcmpv6Message_keeps _ _ _ _ hk
  | segmentStatusChange => exact execSegmentStatusChange_keeps _ _ _ hk
  | armedInstantExchange => exact execArmedInstantExchange_keeps _ _ hk
  | group63KeyAgreement => exact execGroup63KeyAgreement_keeps _ _ _ _ _ _ _ _ _ hk

/-- The queue's front aside, a step keeps what every command keeps. -/
theorem step_keeps (s : State) : ∃ t, step s = .next t ∧ Keeps { s with pending := s.pending.tail } t := by
  unfold step
  split
  next h =>
    obtain ⟨hq, hf, hm⟩ := tick_keeps s (.refl s)
    exact ⟨_, rfl, by simp [hq, h], hf, hm⟩
  next c rest h =>
    obtain ⟨t, ht, hk⟩ := exec_keeps c { s with pending := rest }
    exact ⟨t, ht, by simpa [h] using hk⟩

/-- Settles O59: a step keeps the memories' form, as every command does. -/
theorem everyStepKeepsTheMemoriesForm : Obligations.EveryStepKeepsTheMemoriesForm := by
  intro s t hwf hstep
  obtain ⟨u, hu, hk⟩ := step_keeps s
  obtain rfl : t = u := by injection hstep.symm.trans hu
  exact hk.mem hwf

/-- Settles O60: every step answers a next state, on the queue's rest, with fuses programmed forward only. -/
theorem everyStepCompletesAndProgramsFusesForward : Obligations.EveryStepCompletesAndProgramsFusesForward := by
  intro s
  obtain ⟨t, ht, hk⟩ := step_keeps s
  exact ⟨t, ht, hk.queue, hk.fuses⟩

/-- Settles O56, by the queue's shape. -/
theorem stepRunsTheFrontCommand : Obligations.StepRunsTheFrontCommand := by
  intro c rest s h
  unfold step
  rw [h]

end Sys2Proof.Machine
end

section
/-! SUPPORT. The vector unit's lanes: what a write of governed lanes leaves of a core and of the state, and O1, O2 and O5 from it (R53 to R57, R74, R75, R117). -/

namespace Sys2Proof.Machine

open Sys2Proof Sys2Proof.Claims

/-! ### Writing lanes -/

/-- An operation on a powered core replaces the core. -/
theorem onCore_on {s : State} {k : CoreId} (hon : quadOn s (coreQuad k.val) = true) (f : Core → Core) :
    onCore s k f = coreSet s k.val (f (coreGet s k.val)) := if_pos hon

/-- A core replaced is all that differs. -/
theorem coreSet_coreOnly (s : State) (k : CoreId) (c : Core) : CoreOnly s (coreSet s k.val c) k :=
  ⟨rfl, fun _ h => coreGet_coreSet_ne s c h⟩

/-- A lane of the register written. -/
theorem vlane_writeLanes (c : Core) (v : VArgs) (f : Nat → W32) {l : Nat} (hl : l < 64) :
    vlane (writeLanes c v f) v.vd.val l = if (govern c v).getLsbD l then f l else vlane c v.vd.val l := by
  simp [vlane, writeLanes, hl]

/-- Every other register keeps its lanes. -/
theorem vlane_writeLanes_ne (c : Core) (v : VArgs) (f : Nat → W32) {r : Nat} (hr : r ≠ v.vd.val) (l : Nat) :
    vlane (writeLanes c v f) r l = vlane c r l := by
  simp [vlane, writeLanes, mget_mset_ne _ _ hr]

/-- Two cores that have the registers of a write and of its core hold the lanes written. -/
theorem lanesHold_of_vregs {s t : State} {k : CoreId} {v : VArgs} {f : Nat → W32}
    (h : (coreGet t k.val).vregs = (writeLanes (coreGet s k.val) v f).vregs) : LanesHold s t k v f := by
  have hlane (r : Fin 32) (l : Nat) : lane t k r l = vlane (writeLanes (coreGet s k.val) v f) r.val l := by
    simp only [lane, vlane, h]
  refine ⟨fun l hl => ?_, fun r hr l => ?_⟩
  · rw [hlane, vlane_writeLanes _ _ _ hl]
  · rw [hlane, vlane_writeLanes_ne _ _ _ (fun e => hr (Fin.ext e))]

/-- A core with its governed lanes written, and its flag word perhaps, is within the frame of a vector operation. -/
theorem coreSet_lanesOnly (s : State) (k : CoreId) (v : VArgs) (f : Nat → W32) (fl : BitVec 4) :
    LanesOnly s (coreSet s k.val { writeLanes (coreGet s k.val) v f with flags := fl }) k v f :=
  ⟨coreSet_coreOnly .., lanesHold_of_vregs (by rw [coreGet_coreSet]), by rw [coreGet_coreSet]; rfl⟩

/-- A write of governed lanes on a powered core, with the flag word as it was. -/
theorem writeLanes_governed {s : State} {k : CoreId} (v : VArgs) (hon : quadOn s (coreQuad k.val) = true) (f : Core → Nat → W32) :
    let t := onCore s k fun c => writeLanes c v (f c)
    LanesOnly s t k v (f (coreGet s k.val)) ∧ (coreGet t k.val).flags = (coreGet s k.val).flags := by
  intro t
  have ht : t = coreSet s k.val (writeLanes (coreGet s k.val) v (f (coreGet s k.val))) := onCore_on hon _
  rw [ht]
  exact ⟨coreSet_lanesOnly s k v _ (coreGet s k.val).flags, by rw [coreGet_coreSet]; rfl⟩

/-! ### Integer operations -/

/-- An integer operation writes its lanes and leaves the flag word. -/
theorem intLanes_governed {s : State} {k : CoreId} (v : VArgs) (hon : quadOn s (coreQuad k.val) = true) (f : W32 → W32 → W32) :
    LanesOnly s (intLanes k v f s) k v (fun l => f (lane s k v.va l) (lane s k v.vb l))
    ∧ (coreGet (intLanes k v f s) k.val).flags = (coreGet s k.val).flags :=
  writeLanes_governed v hon fun c l => f (vlane c v.va.val l) (vlane c v.vb.val l)

/-- The shift distance: bits 4:0 of the immediate. -/
theorem shift_imm (imm : W32) : (imm % 32).toNat = fld imm 4 0 := by
  simp [fld, nfld]

/-- Settles O1: each integer operation is a lanewise function of VA and VB. -/
theorem integerVectorOpsWriteGovernedLanes : Obligations.IntegerVectorOpsWriteGovernedLanes := by
  intro k v s hon ok a b n
  have hint (f : W32 → W32 → W32) := intLanes_governed v hon f
  have hn : n = fld v.imm 4 0 := shift_imm v.imm
  clear_value n
  subst hn
  exact ⟨⟨_, rfl, hint _⟩, ⟨_, rfl, hint _⟩, ⟨_, rfl, hint _⟩, ⟨_, rfl, hint _⟩, ⟨_, rfl, hint _⟩, ⟨_, rfl, hint _⟩, ⟨_, rfl, hint _⟩,
    ⟨_, rfl, hint _⟩, ⟨_, rfl, hint fun x _ => x <<< fld v.imm 4 0⟩, ⟨_, rfl, hint fun x _ => x >>> fld v.imm 4 0⟩,
    ⟨_, rfl, hint fun x _ => x.sshiftRight (fld v.imm 4 0)⟩⟩

/-! ### Floating-point operations -/

/-- A lanewise operation writes its lanes and gains the governed lanes' flags. -/
theorem laneOp_governed {s : State} {k : CoreId} (v : VArgs) (hon : quadOn s (coreQuad k.val) = true) (f : Core → Nat → W32 × BitVec 4) :
    let t := onCore s k fun c => laneOp c v (f c)
    LanesOnly s t k v (fun l => (f (coreGet s k.val) l).1) ∧ FlagsGain s t k v fun l => (f (coreGet s k.val) l).2 := by
  intro t
  have ht : t = coreSet s k.val (laneOp (coreGet s k.val) v (f (coreGet s k.val))) := onCore_on hon _
  rw [ht]
  exact ⟨coreSet_lanesOnly .., by rw [FlagsGain, coreGet_coreSet]; rfl⟩

/-- Settles O2: each operation is a lanewise function of its registers. -/
theorem floatVectorOpsRoundOnceAndGainFlags : Obligations.FloatVectorOpsRoundOnceAndGainFlags := by
  intro k v s hon ok x y z rec'
  have hop (f : Core → Nat → W32 × BitVec 4) := laneOp_governed v hon f
  refine ⟨⟨_, rfl, hop _⟩, ⟨_, rfl, hop _⟩, ⟨_, rfl, hop _⟩, ⟨_, rfl, hop _⟩, ⟨_, rfl, hop _⟩, ⟨_, rfl, hop _⟩, ⟨_, rfl, hop _⟩,
    ⟨_, rfl, hop _⟩, ⟨_, rfl, hop _⟩, ⟨_, rfl, hop _⟩, ⟨_, rfl, hop _⟩, fun hs hd => ⟨_, if_pos ⟨hs, hd⟩, hop _⟩⟩

/-! ### Reductions -/

/-- With no governed lane a write of lanes reads as none. -/
theorem lanesHold_of_ungoverned {s : State} {k : CoreId} {v : VArgs} (f : Nat → W32) (h : govLanes (coreGet s k.val) v = []) :
    LanesHold s s k v f := by
  refine ⟨fun l hl => ?_, fun _ _ _ => rfl⟩
  have hgov := List.filter_eq_nil_iff.mp h l (List.mem_range.mpr hl)
  rw [if_neg hgov]

/-- A result that goes to every governed lane, where there is one, with flags. -/
def spreadLanes (c : Core) (v : VArgs) (f : Nat → W32) (fl : BitVec 4) : Core :=
  if govLanes c v = [] then c else addFlags (writeLanes c v f) fl

/-- What such a result leaves. -/
theorem spreadLanes_governed {s : State} {k : CoreId} (v : VArgs) (f : Nat → W32) (fl : BitVec 4) :
    let c := coreGet s k.val
    let t := coreSet s k.val (spreadLanes c v f fl)
    LanesOnly s t k v f ∧ (coreGet t k.val).flags = c.flags ||| (if govLanes c v = [] then 0 else fl) := by
  intro c t
  by_cases h : govLanes c v = []
  · have ht : coreGet t k.val = c := by simp only [t, coreGet_coreSet, spreadLanes, if_pos h]
    refine ⟨⟨coreSet_coreOnly .., ?_, by rw [ht]⟩, by rw [ht, if_pos h]; exact (BitVec.or_zero).symm⟩
    obtain ⟨hin, hout⟩ := lanesHold_of_ungoverned (s := s) f h
    exact ⟨fun l hl => by rw [lane, ht]; exact hin l hl, fun r hr l => by rw [lane, ht]⟩
  · have ht : t = coreSet s k.val { writeLanes c v f with flags := c.flags ||| fl } := by simp only [t, spreadLanes, if_neg h]; rfl
    rw [ht, if_neg h]
    exact ⟨coreSet_lanesOnly .., by rw [coreGet_coreSet]⟩

/-- A reduction is such a result. -/
theorem redOp_eq_spreadLanes (c : Core) (v : VArgs) (r : W32 × BitVec 4) : redOp c v r = spreadLanes c v (fun _ => r.1) r.2 := rfl

/-- So is a reduction that writes a record. -/
theorem recOp_eq_spreadLanes (c : Core) (v : VArgs) (r : BitVec 128) (fl : BitVec 4) : recOp c v r fl = spreadLanes c v (recLane r) fl := rfl

/-- A record read by `rr`, its value rounded by `w`, and written with SAT where the record has it, is such a result. -/
theorem recordEnd_eq_spreadLanes (c : Core) (v : VArgs) (rr : BitVec 128 → Int × Acc) (w : Num → optParam Bool false → W32 × BitVec 4) :
    (let r := vrecord c v.vc.val 0
     let (a, x) := rr r
     let (y, fl) := w (accValue a x)
     redOp c v (y, fl ||| if x.sat then flSAT else 0)) =
      let y := rr (vrecord c v.vc.val 0)
      spreadLanes c v (fun _ => (w (accValue y.1 y.2)).1) ((w (accValue y.1 y.2)).2 ||| if y.2.sat then 8 else 0) := rfl

/-- An RSUM that ends a record writes its rounded value (form 4). -/
theorem rsumDo_record {c : Core} {v : VArgs} (h : rsumForm v = 4) :
    let y := recRead (vrecord c v.vc.val 0)
    rsumDo c v = spreadLanes c v (fun _ => (f32w (accValue y.1 y.2)).1) ((f32w (accValue y.1 y.2)).2 ||| if y.2.sat then 8 else 0) := by
  unfold rsumDo
  split
  case h_4 => exact recordEnd_eq_spreadLanes c v recRead @f32w
  case h_7 => contradiction
  all_goals next hform => exact absurd (h.symm.trans hform) (by decide)

/-- R53, R75, R117: a reduction spreads one result, an RSUM that of its form. -/
theorem reductionsGiveGovernedLanesOneResult : Claims.ReductionsGiveGovernedLanesOneResult := by
  intro k v s hon c terms r gains ok weights
  have hgains {i : Instr} {g : Core → Core} {f : Nat → W32} {fl : BitVec 4} (hi : exec i s = .next (onCore s k g))
      (hg : g c = spreadLanes c v f fl) : gains i f fl :=
    ⟨_, by rw [hi, onCore_on hon, hg], spreadLanes_governed v f fl⟩
  have hsum {f : Nat → W32} {fl : BitVec 4} (h : rsumDo c v = spreadLanes c v f fl) : gains (.rsum k v) f fl :=
    hgains (g := fun c => rsumDo c v) rfl h
  refine ⟨?form, fun hb hc himm => hsum ?plain, hgains (g := fun c => redOp c v _) rfl rfl, hgains (g := fun c => redOp c v _) rfl rfl⟩
  case form =>
    split
    all_goals refine hsum ?_
    case h_4 hform => exact rsumDo_record hform
    case h_7 => simp only [rsumDo, redOp_eq_spreadLanes]; rfl
    all_goals next hform => simp only [rsumDo, hform, redOp_eq_spreadLanes, recOp_eq_spreadLanes, flSAT]; rfl
  case plain =>
    have hform : rsumForm v = 0 := if_pos ⟨hb, hc, himm⟩
    simp only [rsumDo, hform, redOp_eq_spreadLanes]
    rfl

/-! ### Compares -/

/-- A bit of the mask of a list. -/
theorem testBit_maskOf (l : List Nat) (i : Nat) : (maskOf l).testBit i = decide (i ∈ l) := by
  have hfold (a : Nat) : (l.foldl (fun a i => a ||| 2 ^ i) a).testBit i = (a.testBit i || decide (i ∈ l)) := by
    induction l generalizing a with
    | nil => simp
    | cons x l ih =>
      rw [List.foldl_cons, ih, Nat.testBit_or, Nat.testBit_two_pow, Bool.or_assoc]
      simp [eq_comm]
  simpa [maskOf] using hfold 0

/-- The compare's own bits, in a destination that is not register 0. -/
theorem predReg_cmpOp (c : Core) (v : VArgs) (f : Nat → Bool) {l : Nat} (hl : l < 64) :
    (predReg (cmpOp c v f) (v.vd.val % 8)).getLsbD l =
      if v.vd.val % 8 = 0 then true else if (govern c v).getLsbD l then f l else (predReg c (v.vd.val % 8)).getLsbD l := by
  by_cases h : v.vd.val % 8 = 0
  · rw [if_pos h, predReg, if_pos h, BitVec.getLsbD_allOnes, decide_eq_true hl]
  · have hreg : predReg (cmpOp c v f) (v.vd.val % 8) =
        BitVec.ofNat 64 (maskOf ((List.range 64).filter fun l => if (govern c v).getLsbD l then f l else (predReg c (v.vd.val % 8)).getLsbD l)) := by
      rw [predReg, if_neg h, cmpOp, if_neg h]
      exact mgetD_mset_same ..
    rw [hreg, if_neg h, BitVec.getLsbD_ofNat, testBit_maskOf]
    simp [hl]

/-- A compare leaves every other predicate register. -/
theorem predReg_cmpOp_ne (c : Core) (v : VArgs) (f : Nat → Bool) {p : Nat} (hp : p ≠ v.vd.val % 8) :
    predReg (cmpOp c v f) p = predReg c p := by
  unfold cmpOp predReg
  by_cases h : v.vd.val % 8 = 0
  · simp [h]
  · simp [h, mgetD_mset_ne _ _ _ hp]

/-- A compare changes predicate registers alone. -/
theorem cmpOp_predsOnly (c : Core) (v : VArgs) (f : Nat → Bool) : cmpOp c v f = { c with preds := (cmpOp c v f).preds } := by
  by_cases h : v.vd.val % 8 = 0
  · have hstays : cmpOp c v f = c := if_pos h
    rw [hstays]
  · simp only [cmpOp, if_neg h]

/-- R53, R117: both compares are such compares. -/
theorem comparesWriteGovernedPredicateBits : Claims.ComparesWriteGovernedPredicateBits := by
  intro k v s hon c d ok
  have hcmp {i : Instr} {f : Nat → Bool} (hi : exec i s = .next (onCore s k fun c => cmpOp c v f)) :
      Runs i s fun t => CoreOnly s t k ∧ coreGet t k.val = { c with preds := (coreGet t k.val).preds }
        ∧ (∀ l, l < 64 → (predReg (coreGet t k.val) d).getLsbD l =
            if d = 0 then true else if (govern c v).getLsbD l then f l else (predReg c d).getLsbD l)
        ∧ ∀ p, p ≠ d → predReg (coreGet t k.val) p = predReg c p := by
    refine ⟨_, by rw [hi, onCore_on hon], coreSet_coreOnly .., ?_⟩
    simp only [coreGet_coreSet]
    exact ⟨cmpOp_predsOnly .., fun l hl => predReg_cmpOp _ _ _ hl, fun p hp => predReg_cmpOp_ne _ _ _ hp⟩
  exact ⟨hcmp rfl, hcmp rfl⟩

/-- R33, R74, R117: SHADOW writes its lanes and leaves the flag word. -/
theorem shadowCollectsSharedExponents : Claims.ShadowCollectsSharedExponents := by
  intro k v s hon
  obtain ⟨hlanes, hflags⟩ := writeLanes_governed v hon _
  exact ⟨_, rfl, hflags, hlanes⟩

/-- Settles O5, clause by clause. -/
theorem reductionsComparesAndShadowWriteTheirLanes : Obligations.ReductionsComparesAndShadowWriteTheirLanes :=
  ⟨reductionsGiveGovernedLanesOneResult, comparesWriteGovernedPredicateBits, shadowCollectsSharedExponents⟩

end Sys2Proof.Machine
end

section
/-! SUPPORT. Local SRAM of a core: what a read gives and counts, what a write leaves, and what an address fault leaves (R78, R91, R183). -/

namespace Sys2Proof.Machine

open Sys2Proof Sys2Proof.Claims

/-! ### Frames -/

/-- Nothing but the dictionary's values differs. -/
def CountsOnly (s t : State) : Prop := t = { s with pav := { s.pav with vals := t.pav.vals } }

theorem CountsOnly.refl (s : State) : CountsOnly s s := rfl

theorem CountsOnly.trans {s t u : State} (h : CountsOnly s t) (k : CountsOnly t u) : CountsOnly s u :=
  Eq.trans (show u = { t with pav := { t.pav with vals := u.pav.vals } } from k)
    (congrArg (fun x : State => { x with pav := { x.pav with vals := u.pav.vals } }) h)

theorem CountsOnly.coreGet {s t : State} (h : CountsOnly s t) (k : Nat) : coreGet t k = coreGet s k := by rw [h]; rfl

theorem CountsOnly.sramByte {s t : State} (h : CountsOnly s t) (o a : Nat) : sramByte t o a = sramByte s o a := by rw [h]; rfl

theorem CountsOnly.coreByte {s t : State} (h : CountsOnly s t) (k : CoreId) (a : Nat) : coreByte t k a = coreByte s k a := by rw [h]; rfl

theorem CountsOnly.mem {s t : State} (h : CountsOnly s t) : t.mem = s.mem := by rw [h]

/-- Nothing but on-chip storage differs. -/
def OnchipOnly (s t : State) : Prop := t = { s with mem := { s.mem with sram := t.mem.sram, lines := t.mem.lines } }

theorem OnchipOnly.refl (s : State) : OnchipOnly s s := rfl

theorem OnchipOnly.trans {s t u : State} (h : OnchipOnly s t) (k : OnchipOnly t u) : OnchipOnly s u :=
  Eq.trans (show u = { t with mem := { t.mem with sram := u.mem.sram, lines := u.mem.lines } } from k)
    (congrArg (fun x : State => { x with mem := { x.mem with sram := u.mem.sram, lines := u.mem.lines } }) h)

theorem OnchipOnly.quadOwner {s t : State} (h : OnchipOnly s t) (q : Nat) : quadOwner t q = quadOwner s q := by rw [h]; rfl

theorem OnchipOnly.coreGet {s t : State} (h : OnchipOnly s t) (k : Nat) : coreGet t k = coreGet s k := by rw [h]; rfl

theorem OnchipOnly.hbm {s t : State} (h : OnchipOnly s t) : t.mem.hbm = s.mem.hbm := by rw [h]

theorem lineTake_onchipOnly (s : State) (o a : Nat) : OnchipOnly s (lineTake s o a) := by
  unfold lineTake
  split <;> rfl

/-- A store on chip is on chip. -/
theorem sramPut_onchipOnly (s : State) (o a : Nat) (bs : List Byte) : OnchipOnly s (sramPut s o a bs) := by
  unfold sramPut
  split
  · exact .refl s
  · exact (each_rel (R := OnchipOnly) .refl .trans (fun s l => lineTake_onchipOnly s o l) _ s).trans rfl

/-! ### The lines of an access -/

/-- Accesses that follow one another from `off` and take `n` bytes in all. -/
def Tiles : Nat → Nat → List (Nat × Nat) → Prop
  | _, n, [] => n = 0
  | off, n, p :: l => p.1 = off ∧ 0 < p.2 ∧ p.2 ≤ n ∧ Tiles (off + p.2) (n - p.2) l

/-- The accesses from a line on: `b` its number, each but the first starting at its line. -/
theorem tiles_from {lo hi : Nat} (hhi : hi ≤ 2 ^ 20) (c b : Nat) (hb : lo / 64 ≤ b) (hlo : lo ≤ hi)
    (hend : lo < hi → b + c = (hi - 1) / 64 + 1) (hin : c ≠ 0 → max lo (b * 64) < hi) :
    Tiles (max lo (b * 64) ⊓ hi) (hi - max lo (b * 64)) ((List.range c).map fun i =>
      let l := max lo ((b + i) * 64)
      (l % 2 ^ 20, min hi ((b + i + 1) * 64) - l)) := by
  induction c generalizing b with
  | zero =>
    simp only [List.range_zero, List.map_nil, Tiles]
    rcases Nat.lt_or_ge lo hi with h | h
    · have := hend h; omega
    · omega
  | succ c ih =>
    rw [List.range_succ_eq_map, List.map_cons, List.map_map, Tiles]
    have hlt := hin (by omega)
    have hbc := hend (by omega)
    have hnext := ih (b + 1) (by omega) (by omega) (by omega)
    refine ⟨?_, ?_, ?_, ?_⟩
    · simp only [Nat.add_zero]
      rw [Nat.mod_eq_of_lt (by omega)]
      omega
    · simp only [Nat.add_zero]
      omega
    · simp only [Nat.add_zero]
      omega
    · convert hnext using 1
      · simp only [Nat.add_zero]; omega
      · simp only [Nat.add_zero]; omega
      · refine List.map_congr_left fun i _ => ?_
        simp only [Function.comp, Nat.succ_eq_add_one]
        rw [show b + 1 + i = b + (i + 1) by omega]

/-- An access below the end of the address range takes its bytes in order, whatever lines they lie in. -/
theorem localSpans_tiles {off n : Nat} (h : off + n ≤ 2 ^ 20) : Tiles off n (localSpans off n) := by
  unfold localSpans
  split
  · next hn => exact hn
  · next hn =>
    have hoff : off % 2 ^ 20 = off := Nat.mod_eq_of_lt (by omega)
    simp only [hoff]
    have ht := tiles_from (lo := off) h ((off + n - 1) / 64 + 1 - off / 64) (off / 64) (Nat.le_refl _) (by omega) (by omega) (by omega)
    rwa [show max off (off / 64 * 64) ⊓ (off + n) = off by omega, show off + n - max off (off / 64 * 64) = n by omega] at ht

/-! ### Reads -/

/-- `n` bytes of local SRAM as their owner sees them. -/
def coreBytes (s : State) (k : CoreId) (off n : Nat) : List Byte := (List.range n).map fun i => coreByte s k (off + i)

@[simp] theorem length_coreBytes (s : State) (k : CoreId) (off n : Nat) : (coreBytes s k off n).length = n := by simp [coreBytes]

theorem CountsOnly.coreBytes {s t : State} (h : CountsOnly s t) (k : CoreId) (off n : Nat) : coreBytes t k off n = coreBytes s k off n := by
  rw [h]; rfl

/-- Bytes that follow one another. -/
theorem coreBytes_add (s : State) (k : CoreId) (off m n : Nat) :
    coreBytes s k off (m + n) = coreBytes s k off m ++ coreBytes s k (off + m) n := by
  simp only [coreBytes, List.range_add, List.map_append, List.map_map]
  congr 1
  exact List.map_congr_left fun i _ => by simp only [Function.comp, Nat.add_assoc]

/-- A read on chip counts at most. -/
theorem sramRead_countsOnly (s : State) (q o a n : Nat) : CountsOnly s (sramRead s q o a n).2 := by
  unfold sramRead
  dsimp only
  split <;> rfl

/-- One access below GROUP 3. -/
theorem localLine_eq {off n : Nat} (s : State) (k : CoreId) (h : off < 0xC0000) :
    (localLine s k.val off n).1 = coreBytes s k off n ∧ CountsOnly s (localLine s k.val off n).2 := by
  have hlow : ¬ off ≥ 0xC0000 := Nat.not_le.mpr h
  rw [localLine, if_neg hlow]
  refine ⟨List.map_congr_left fun i _ => ?_, sramRead_countsOnly ..⟩
  rw [coreByte, coreAddr, coreAddr, ← Nat.add_assoc]

/-- Accesses one after another give their bytes one after another. -/
theorem localLines_fold (k : CoreId) {l : List (Nat × Nat)} {off n : Nat} (hl : Tiles off n l) (h : off + n ≤ 0xC0000)
    (bs : List Byte) (s : State) :
    let r := l.foldl (fun (acc : List Byte × State) p =>
      let (b, s) := localLine acc.2 k.val p.1 p.2
      (acc.1 ++ b, s)) (bs, s)
    r.1 = bs ++ coreBytes s k off n ∧ CountsOnly s r.2 := by
  induction l generalizing off n bs s with
  | nil =>
    have hn : n = 0 := hl
    subst hn
    exact ⟨(List.append_nil bs).symm, .refl s⟩
  | cons p l ih =>
    obtain ⟨hoff, hpos, hle, htail⟩ := hl
    obtain ⟨hbytes, hcounts⟩ := localLine_eq (off := p.1) (n := p.2) s k (by omega)
    obtain ⟨hrest, hframe⟩ := ih htail (by omega) (bs ++ (localLine s k.val p.1 p.2).1) (localLine s k.val p.1 p.2).2
    refine ⟨hrest.trans ?_, hcounts.trans hframe⟩
    rw [hbytes, hcounts.coreBytes, hoff, List.append_assoc, ← coreBytes_add, Nat.add_sub_cancel' hle]

/-- A read below GROUP 3 gives the bytes that the owner sees, and counts at most. -/
theorem localRead_eq {off n : Nat} (s : State) (k : CoreId) (h : off + n ≤ 0xC0000) :
    (localRead s k.val off n).1 = coreBytes s k off n ∧ CountsOnly s (localRead s k.val off n).2 :=
  localLines_fold k (localSpans_tiles (by omega)) h [] s

/-! ### Writes -/

/-- What on-chip bytes an owner sees after a write of `bs` at `a`. -/
def OnchipWrote (s t : State) (own a : Nat) (bs : List Byte) : Prop :=
  OnchipOnly s t ∧ ∀ x, sramByte t own x = if a ≤ x ∧ x < a + bs.length then bs.getD (x - a) 0 else sramByte s own x

/-- A store on chip. -/
theorem sramPut_wrote (s : State) {own : Nat} (ho : own < 64) (a : Nat) (bs : List Byte) : OnchipWrote s (sramPut s own a bs) own a bs := by
  refine ⟨sramPut_onchipOnly .., fun x => ?_⟩
  rw [sramByte_sramPut s ho]
  by_cases hx : a ≤ x ∧ x - a < bs.length
  · rw [dif_pos hx, if_pos (by omega), List.getD_eq_getElem _ _ hx.2]
  · rw [dif_neg hx, if_neg (by omega)]

/-- Two stores that follow one another are one. -/
theorem OnchipWrote.append {s t u : State} {own a : Nat} {bs cs : List Byte} (h : OnchipWrote s t own a bs)
    (k : OnchipWrote t u own (a + bs.length) cs) : OnchipWrote s u own a (bs ++ cs) := by
  obtain ⟨hst, hb⟩ := h
  obtain ⟨htu, hc⟩ := k
  refine ⟨hst.trans htu, fun x => ?_⟩
  rw [hc, hb, List.length_append]
  by_cases h₁ : x < a
  · rw [if_neg (by omega), if_neg (by omega), if_neg (by omega)]
  · by_cases h₂ : x < a + bs.length
    · rw [if_neg (by omega), if_pos (by omega), if_pos (by omega), List.getD_append _ _ _ _ (by omega)]
    · by_cases h₃ : x < a + bs.length + cs.length
      · rw [if_pos (by omega), if_pos (by omega), List.getD_append_right _ _ _ _ (by omega)]
        congr 1
        omega
      · rw [if_neg (by omega), if_neg (by omega), if_neg (by omega)]

/-- Accesses one after another store their bytes one after another. -/
theorem localPuts_fold (k : CoreId) {l : List (Nat × Nat)} {off : Nat} {bs : List Byte} (hl : Tiles off bs.length l)
    (h : off + bs.length ≤ 0xC0000) (s : State) :
    OnchipWrote s (l.foldl (fun (acc : List Byte × State) p =>
      (acc.1.drop p.2,
       if p.1 ≥ 0xC0000 then addrFault acc.2 k.val
       else sramPut acc.2 (quadOwner acc.2 (coreQuad k.val)) (coreAddr k.val p.1) (acc.1.take p.2))) (bs, s)).2
      (quadOwner s (coreQuad k.val)) (coreAddr k.val off) bs := by
  induction l generalizing off bs s with
  | nil =>
    have hn : bs = [] := List.length_eq_zero_iff.mp hl
    subst hn
    refine ⟨.refl s, fun x => (if_neg ?_).symm⟩
    simp only [List.length_nil]
    omega
  | cons p l ih =>
    obtain ⟨hoff, hpos, hle, htail⟩ := hl
    have hlow : ¬ p.1 ≥ 0xC0000 := by omega
    rw [List.foldl_cons, if_neg hlow]
    generalize hu : sramPut s (quadOwner s (coreQuad k.val)) (coreAddr k.val p.1) (bs.take p.2) = u
    have hfirst : OnchipWrote s u (quadOwner s (coreQuad k.val)) (coreAddr k.val off) (bs.take p.2) := by
      rw [← hu, hoff]
      exact sramPut_wrote s (quadOwner_lt ..) _ _
    have hlen : (bs.take p.2).length = p.2 := List.length_take_of_le hle
    have hrest := ih (off := off + p.2) (bs := bs.drop p.2) (by rwa [List.length_drop]) (by rw [List.length_drop]; omega) u
    rw [hfirst.1.quadOwner] at hrest
    have haddr : coreAddr k.val (off + p.2) = coreAddr k.val off + (bs.take p.2).length := by rw [hlen, coreAddr, coreAddr]; omega
    rw [haddr] at hrest
    simpa only [List.take_append_drop] using hfirst.append hrest

/-- A write below GROUP 3 stores its bytes, and changes no other. -/
theorem localWrite_wrote {off : Nat} {bs : List Byte} (s : State) (k : CoreId) (h : off + bs.length ≤ 0xC0000) :
    OnchipWrote s (localWrite s k.val off bs) (quadOwner s (coreQuad k.val)) (coreAddr k.val off) bs :=
  localPuts_fold k (localSpans_tiles (by omega)) h s

/-- The same, as the core's partition sees it. -/
theorem coreByte_localWrite {off : Nat} {bs : List Byte} (s : State) (k : CoreId) (h : off + bs.length ≤ 0xC0000) (a : Nat) :
    coreByte (localWrite s k.val off bs) k a = if off ≤ a ∧ a < off + bs.length then bs.getD (a - off) 0 else coreByte s k a := by
  obtain ⟨hframe, hbytes⟩ := localWrite_wrote s k h
  rw [coreByte, hframe.quadOwner, hbytes]
  have hsub : coreAddr k.val a - coreAddr k.val off = a - off := by simp only [coreAddr]; omega
  have hin : (coreAddr k.val off ≤ coreAddr k.val a ∧ coreAddr k.val a < coreAddr k.val off + bs.length) ↔ off ≤ a ∧ a < off + bs.length := by
    simp only [coreAddr]; omega
  rw [hsub]
  exact if_congr hin rfl rfl

/-! ### Address faults -/

/-- Nothing but a core's address-fault bit, the dictionary and its message differs. -/
def FaultOnly (s t : State) (k : Nat) : Prop :=
  t = { s with cores := mset s.cores k { coreGet s k with addrFault := true }, pav := t.pav, pcie := t.pcie, out := t.out }

/-- An address fault sets the bit and is reported. -/
theorem addrMark_faultOnly (s : State) (k : Nat) : FaultOnly s (addrMark s k) k :=
  notice_dictOnly { s with cores := mset s.cores k { coreGet s k with addrFault := true } } _ _

theorem FaultOnly.core_self {s t : State} {k : Nat} (h : FaultOnly s t k) : coreGet t k = { coreGet s k with addrFault := true } := by
  rw [h]
  exact mgetD_mset_same ..

theorem FaultOnly.core_ne {s t : State} {k : Nat} (h : FaultOnly s t k) {j : Nat} (hj : j ≠ k) : coreGet t j = coreGet s j := by
  rw [h]
  exact mgetD_mset_ne _ _ _ hj

theorem FaultOnly.mem {s t : State} {k : Nat} (h : FaultOnly s t k) : t.mem = s.mem := by rw [h]

/-- An access to GROUP 3 is counted as well. -/
theorem addrFault_faultOnly (s : State) (k : Nat) : FaultOnly s (addrFault s k) k := by
  have h := addrMark_faultOnly s k
  unfold FaultOnly at h ⊢
  unfold addrFault bump32 bumpBy odSet
  dsimp only
  rw [h]

end Sys2Proof.Machine
end

section
/-! SUPPORT. O3: FLAGS, PARAM, SETUP and POST of the vector table (R71, R76, R89, R98, R107, R117). -/

namespace Sys2Proof.Machine

open Sys2Proof Sys2Proof.Claims

/-- A command that is an operation on a powered core. -/
theorem Runs.of_onCore {i : Instr} {s : State} {k : CoreId} {f : Core → Core} {P : State → Prop} (hi : exec i s = .next (onCore s k f))
    (hon : quadOn s (coreQuad k.val) = true) (h : P (coreSet s k.val (f (coreGet s k.val)))) : Runs i s P :=
  ⟨_, by rw [hi, onCore_on hon], h⟩

/-! ### FLAGS and PARAM -/

/-- FLAGS writes one lane and clears the flag word. -/
theorem flags_runs {s : State} {k : CoreId} (v : VArgs) (hon : quadOn s (coreQuad k.val) = true) :
    Runs (.flags k v) s fun t => CoreOnly s t k ∧ (coreGet t k.val).flags = 0
      ∧ LanesHold s t k v fun l => if l = fld v.imm 5 0 then (coreGet s k.val).flags.setWidth 32 else lane s k v.vd l := by
  refine Runs.of_onCore rfl hon ⟨coreSet_coreOnly .., ?_, lanesHold_of_vregs ?_⟩
  · rw [coreGet_coreSet]
  · rw [coreGet_coreSet]

/-- PARAM broadcasts a register of the lane's context. -/
theorem param_runs {s : State} {k : CoreId} (v : VArgs) (hon : quadOn s (coreQuad k.val) = true) {x : Nat}
    (hx : laneCtx s (coreClus k.val) = some x) :
    Runs (.param k v) s fun t => LanesOnly s t k v (fun _ => (ctxGet s x).params.getD (fld v.imm 2 0) 0)
      ∧ (coreGet t k.val).flags = (coreGet s k.val).flags := by
  refine ⟨_, ?_, writeLanes_governed v hon fun _ _ => (ctxGet s x).params.getD (fld v.imm 2 0) 0⟩
  simp only [exec, execParam, hx]

/-! ### SETUP -/

section
variable {s : State} {k : CoreId} (v : VArgs) (hon : quadOn s (coreQuad k.val) = true)
include hon

/-- The setup that SETUP stores, in the state that its read leaves. -/
theorem execSetup_on :
    execSetup k v s =
      let r := localRead s k.val (fld v.imm 19 6 * 64) 8
      .next (coreSet r.2 k.val { coreGet r.2 k.val with
        setups := mset (coreGet r.2 k.val).setups (fld v.imm 2 0) (BitVec.ofNat 64 (leNat r.1)) }) := if_pos hon

/-- SETUP from below GROUP 3 stores eight bytes. -/
theorem setup_runs (ha : fld v.imm 19 6 * 64 < 0xC0000) :
    Runs (.setup k v) s fun t =>
      t = { s with cores := t.cores, pav := { s.pav with vals := t.pav.vals } } ∧ (∀ j, j ≠ k.val → coreGet t j = coreGet s j)
      ∧ coreGet t k.val = { coreGet s k.val with setups := (coreGet t k.val).setups }
      ∧ setupGet (coreGet t k.val) (fld v.imm 2 0) =
          BitVec.ofNat 64 (leNat ((List.range 8).map fun i => coreByte s k (fld v.imm 19 6 * 64 + i))) := by
  obtain ⟨hbytes, hcounts⟩ := localRead_eq (off := fld v.imm 19 6 * 64) (n := 8) s k (by omega)
  refine ⟨_, execSetup_on v hon, ?_, fun j hj => ?_, ?_, ?_⟩
  · rw [hcounts]; rfl
  · rw [coreGet_coreSet_ne _ _ hj, hcounts.coreGet]
  · rw [coreGet_coreSet, hcounts.coreGet]
  · rw [coreGet_coreSet, hbytes]
    exact mgetD_mset_same ..

end

/-- One access in GROUP 3 gives zeros and is an address fault. -/
theorem localRead_group3 {off n : Nat} (s : State) (k : Nat) (ha : 0xC0000 ≤ off) (hb : off < 2 ^ 20) (hline : off % 64 = 0)
    (hn : 0 < n) (hn' : n ≤ 64) : localRead s k off n = (List.replicate n 0, addrFault s k) := by
  have hspans : localSpans off n = [(off, n)] := by
    have hone : (off + n - 1) / 64 + 1 - off / 64 = 1 := by omega
    have hlo : max off (off / 64 * 64) = off := by omega
    have hlen : min (off + n) ((off / 64 + 1) * 64) - off = n := by omega
    simp only [localSpans, if_neg (Nat.ne_of_gt hn), Nat.mod_eq_of_lt hb, hone, List.range_one, List.map_cons, List.map_nil, Nat.add_zero, hlo, hlen]
  have hgroup : off ≥ 0xC0000 := ha
  simp [localRead, hspans, localLine, hgroup]

/-- A run of zero bytes is the number zero. -/
theorem leNat_replicate_zero (n : Nat) : leNat (List.replicate n 0) = 0 := by
  induction n with
  | zero => rfl
  | succ n ih => rw [List.replicate_succ, leNat, ih]; rfl

/-- SETUP from GROUP 3 stores zero and is an address fault. -/
theorem setup_group3_runs {s : State} {k : CoreId} (v : VArgs) (hon : quadOn s (coreQuad k.val) = true)
    (ha : 0xC0000 ≤ fld v.imm 19 6 * 64) :
    Runs (.setup k v) s fun t => setupGet (coreGet t k.val) (fld v.imm 2 0) = 0 ∧ (coreGet t k.val).addrFault = true := by
  have hb : fld v.imm 19 6 * 64 < 2 ^ 20 := by
    have : fld v.imm 19 6 < 2 ^ 14 := Nat.mod_lt _ (by decide)
    omega
  have hread := localRead_group3 s k.val ha hb (by omega) (n := 8) (by decide) (by decide)
  refine ⟨_, execSetup_on v hon, ?_, ?_⟩
  · rw [coreGet_coreSet, hread, leNat_replicate_zero]
    exact mgetD_mset_same ..
  · rw [coreGet_coreSet, hread, (addrFault_faultOnly s k.val).core_self]

/-! ### POST -/

/-- A location that names a cluster is no release counter's. -/
theorem clusOfLoc_ne_release {l d : Nat} (h : clusOfLoc l = some d) : l ≠ 0x80000 := by
  rintro rfl
  have hnone : clusOfLoc 0x80000 = none := by decide
  exact absurd (hnone.symm.trans h) (by simp)

/-- A post by a location that names a cluster is a post to that cluster. -/
theorem locPost_cluster (s : State) {l d : Nat} (h : clusOfLoc l = some d) (part cnt : Nat) (amt : W32) :
    locPost s part l cnt amt = cntPost s part d cnt amt := by
  rw [locPost, if_neg (clusOfLoc_ne_release h), h]

/-- A post to a counter of the own partition adds its amount, and changes nothing else. -/
theorem cntPost_own {s : State} {d : Nat} (hon : clusOn s d = true) (n : Nat) (amt : W32) :
    let t := cntPost s (quadOwner s (clusQuad d)) d n amt
    t = { s with sync := t.sync } ∧ cntValue (cntGet t d n) = cntValue (cntGet s d n) + amt
    ∧ ∀ i, i ≠ cntKey d n → mget t.sync i = mget s.sync i := by
  intro t
  have ht : t = { s with sync := mset s.sync (cntKey d n) { cntGet s d n with posts := (cntGet s d n).posts + amt } } := by
    simp [t, cntPost, hon]
  rw [ht]
  refine ⟨rfl, ?_, fun i hi => mget_mset_ne _ _ hi⟩
  rw [cntGet, mgetD_mset_same]
  exact (BitVec.add_assoc _ _ _).symm

/-- A post to another partition's counter is dropped and counted. -/
theorem cntPost_foreign {s : State} {part d : Nat} (hon : clusOn s d = true) (hne : quadOwner s (clusQuad d) ≠ part) (n : Nat) (amt : W32) :
    cntPost s part d n amt = foreignOp s d := by simp [cntPost, hon, hne]

/-- A post to a quadrant without power is lost. -/
theorem cntPost_off {s : State} {d : Nat} (hoff : clusOn s d = false) (part n : Nat) (amt : W32) : cntPost s part d n amt = s := by
  simp [cntPost, hoff]

/-- The quadrant of a core is that of its cluster. -/
theorem clusQuad_coreClus (k : Nat) : clusQuad (coreClus k) = coreQuad k := by
  rw [clusQuad, coreClus, coreQuad, Nat.div_div_eq_div_mul]

/-- POST by an entry that names a cluster. -/
theorem execVecPost_cluster {s : State} {k : CoreId} (v : VArgs) (hon : quadOn s (coreQuad k.val) = true) {d : Nat}
    (hd : clusOfLoc (fld (syncEntry s (coreClus k.val) (fld v.imm 3 0)) 127 108) = some d) :
    let e := syncEntry s (coreClus k.val) (fld v.imm 3 0)
    execVecPost k v s = .next (cntPost s (quadOwner s (coreQuad k.val)) d (fld e 107 99) (BitVec.ofNat 32 (fld e 95 80))) := by
  rw [execVecPost, if_pos hon, tablePost, locPost_cluster s hd, clusQuad_coreClus]

/-- Settles O3, operation by operation. -/
theorem vectorControlOpsMoveFlagsSetupsAndPosts : Obligations.VectorControlOpsMoveFlagsSetupsAndPosts := by
  intro k v s hon c a e
  refine ⟨flags_runs v hon, fun x hx => param_runs v hon hx, fun ha => setup_runs v hon ha, fun ha => setup_group3_runs v hon ha,
    fun d hd hclus hown => ?own, fun d hd hclus hown => ?foreign, fun d hd hoff => ?off⟩
  case own =>
    refine ⟨_, execVecPost_cluster v hon hd, ?_⟩
    rw [← hown]
    exact cntPost_own hclus _ _
  case foreign => exact ⟨_, execVecPost_cluster v hon hd, cntPost_foreign hclus hown _ _⟩
  case off => exact ⟨_, execVecPost_cluster v hon hd, cntPost_off hoff _ _ _⟩

end Sys2Proof.Machine
end

section
/-! SUPPORT. O4: LOAD and STORE of the vector table, through LINEAR and CONV slots (R77, R78, R117, R191). -/

namespace Sys2Proof.Machine

open Sys2Proof Sys2Proof.Claims

/-! ### Bytes of a number -/

@[simp] theorem length_leBytes (n x : Nat) : (leBytes n x).length = n := by
  induction n generalizing x with
  | zero => rfl
  | succ n ih => rw [leBytes, List.length_cons, ih]

/-- A byte of a number. -/
theorem getD_leBytes {n i : Nat} (x : Nat) (hi : i < n) : (leBytes n x).getD i 0 = BitVec.ofNat 8 (x / 256 ^ i) := by
  induction n generalizing x i with
  | zero => omega
  | succ n ih =>
    cases i with
    | zero => simp [leBytes]
    | succ i =>
      rw [leBytes, List.getD_cons_succ, ih _ (by omega), Nat.div_div_eq_div_mul, Nat.pow_succ']

/-- A byte of the number of a list. -/
theorem leNat_byte (l : List Byte) (i : Nat) : BitVec.ofNat 8 (leNat l / 256 ^ i) = l.getD i 0 := by
  induction l generalizing i with
  | nil => simp [leNat]
  | cons b t ih =>
    cases i with
    | zero =>
      apply BitVec.eq_of_toNat_eq
      simp only [leNat, pow_zero, Nat.div_one, BitVec.toNat_ofNat, List.getD_cons_zero]
      have := b.isLt
      omega
    | succ i =>
      rw [leNat, Nat.pow_succ', ← Nat.div_div_eq_div_mul, List.getD_cons_succ, ← ih]
      have hdiv : (b.toNat + 256 * leNat t) / 256 = leNat t := by
        have := b.isLt
        omega
      rw [hdiv]

/-- A field put leaves what lies above it. -/
theorem nput_div {x hi lo v e : Nat} (hlo : lo ≤ hi + 1) (he : hi + 1 ≤ e) : nput x hi lo v / 2 ^ e = x / 2 ^ e := by
  have hlow : nput x hi lo v / 2 ^ (hi + 1) = x / 2 ^ (hi + 1) := by
    have hsplit : (2 : Nat) ^ (hi + 1) = 2 ^ lo * 2 ^ (hi + 1 - lo) := by rw [← Nat.pow_add, Nat.add_sub_cancel' hlo]
    have hx : x = x / 2 ^ (hi + 1) * 2 ^ (hi + 1) + nfld x hi lo * 2 ^ lo + x % 2 ^ lo := by
      rw [nfld, Nat.shiftRight_eq_div_pow]
      have h1 := Nat.div_add_mod x (2 ^ lo)
      have h2 := Nat.div_add_mod (x / 2 ^ lo) (2 ^ (hi + 1 - lo))
      rw [Nat.div_div_eq_div_mul, ← hsplit] at h2
      calc x = 2 ^ lo * (x / 2 ^ lo) + x % 2 ^ lo := h1.symm
        _ = 2 ^ lo * (2 ^ (hi + 1 - lo) * (x / 2 ^ (hi + 1)) + x / 2 ^ lo % 2 ^ (hi + 1 - lo)) + x % 2 ^ lo := by rw [h2]
        _ = _ := by rw [hsplit]; ring
    have hv : (v % 2 ^ (hi + 1 - lo)) * 2 ^ lo + x % 2 ^ lo < 2 ^ (hi + 1) := by
      have h1 : v % 2 ^ (hi + 1 - lo) + 1 ≤ 2 ^ (hi + 1 - lo) := Nat.mod_lt _ (Nat.two_pow_pos _)
      have h2 : x % 2 ^ lo < 2 ^ lo := Nat.mod_lt _ (Nat.two_pow_pos _)
      have h3 := Nat.mul_le_mul_right (2 ^ lo) h1
      rw [Nat.mul_comm (2 ^ (hi + 1 - lo)), ← hsplit, Nat.add_mul] at h3
      omega
    have hput : nput x hi lo v = x / 2 ^ (hi + 1) * 2 ^ (hi + 1) + ((v % 2 ^ (hi + 1 - lo)) * 2 ^ lo + x % 2 ^ lo) := by
      rw [nput]
      omega
    rw [hput, Nat.mul_comm, Nat.mul_add_div (Nat.two_pow_pos _), Nat.div_eq_of_lt hv, Nat.add_zero]
  rw [show e = (hi + 1) + (e - (hi + 1)) by omega, Nat.pow_add, ← Nat.div_div_eq_div_mul, ← Nat.div_div_eq_div_mul, hlow]

/-! ### Lines of a slot -/

/-- Lines read one after another below GROUP 3. -/
theorem linLines_fold (k : CoreId) {as : List Nat} (has : ∀ a ∈ as, a + 64 ≤ 0xC0000) (bs : List Byte) (s : State) :
    let r := as.foldl (fun (acc : List Byte × State) a =>
      let (b, s) := localRead acc.2 k.val a 64
      (acc.1 ++ b, s)) (bs, s)
    r.1 = bs ++ as.flatMap (fun a => coreBytes s k a 64) ∧ CountsOnly s r.2 := by
  induction as generalizing bs s with
  | nil => exact ⟨(List.append_nil bs).symm, .refl s⟩
  | cons a as ih =>
    obtain ⟨hbytes, hcounts⟩ := localRead_eq (off := a) (n := 64) s k (has a (by simp))
    obtain ⟨hrest, hframe⟩ := ih (fun b hb => has b (by simp [hb])) (bs ++ (localRead s k.val a 64).1) (localRead s k.val a 64).2
    refine ⟨hrest.trans ?_, hcounts.trans hframe⟩
    simp only [hbytes, List.flatMap_cons, List.append_assoc, hcounts.coreBytes]

/-- The next `n` lines of a slot. -/
def slotBytes (s : State) (k : CoreId) (x : AguSlot) (n : Nat) : List Byte :=
  (List.range n).flatMap fun i => coreBytes s k (linAddr x i) 64

/-- An active slot supplies its next lines and moves on. -/
theorem linRead_active {s : State} {k : CoreId} {agu slot n : Nat} (hact : (aguSlot s k agu slot).active = true)
    (hin : LinesIn (aguSlot s k agu slot) n) :
    let x := aguSlot s k agu slot
    (linRead s k.val agu slot n).1 = slotBytes s k x n
    ∧ ∃ u, CountsOnly s u ∧ (linRead s k.val agu slot n).2 =
        coreSet u k.val (slotSet (coreGet s k.val) agu slot { x with lines := x.lines + n }) := by
  have hidle : ¬ (!(aguSlot s k agu slot).active) = true := by simp [hact]
  have has : ∀ a ∈ (List.range n).map (linAddr (aguSlot s k agu slot)), a + 64 ≤ 0xC0000 := by
    intro a ha
    obtain ⟨i, hi, rfl⟩ := List.mem_map.mp ha
    exact hin i (List.mem_range.mp hi)
  obtain ⟨hbytes, hcounts⟩ := linLines_fold k has [] s
  have hread : linRead s k.val agu slot n = _ := if_neg hidle
  rw [hread]
  refine ⟨hbytes.trans (by simp [slotBytes, List.flatMap_map]), _, hcounts, ?_⟩
  show coreSet _ _ (slotSet (coreGet _ _) _ _ _) = _
  rw [hcounts.coreGet]

/-- An idle slot supplies zeros, with an address fault. -/
theorem linRead_idle {s : State} {k : CoreId} {agu slot : Nat} (n : Nat) (hact : (aguSlot s k agu slot).active = false) :
    linRead s k.val agu slot n = (List.replicate (64 * n) 0, addrMark s k.val) := by
  have hidle : (!(aguSlot s k agu slot).active) = true := by simp [hact]
  exact if_pos hidle

/-! ### LOAD -/

/-- LOAD in LINEAR mode, or through an idle slot. -/
theorem vecLoad_linear {s : State} {k : CoreId} (v : VArgs)
    (h : (aguSlot s k 0 (fld v.imm 3 0)).active = false ∨ slotConv (aguSlot s k 0 (fld v.imm 3 0)).desc = false) :
    vecLoad k.val v s =
      let f := fld (aguSlot s k 0 (fld v.imm 3 0)).desc 504 501
      let r := linRead s k.val 0 (fld v.imm 3 0) (max 1 (64 * fmtBits f / 512))
      coreSet r.2 k.val (writeLanes (coreGet r.2 k.val) v fun l => loadLane f (streamElem (leNat r.1) (fmtBits f) l)) := by
  have hconv : ¬ ((aguSlot s k 0 (fld v.imm 3 0)).active && slotConv (aguSlot s k 0 (fld v.imm 3 0)).desc) = true := by
    rcases h with h | h <;> simp [h]
  exact if_neg hconv

section
variable {s : State} {k : CoreId} (v : VArgs) (hon : quadOn s (coreQuad k.val) = true)
include hon

/-- LOAD on a powered core. -/
theorem exec_vecLoad_on : exec (.vecLoad k v) s = .next (vecLoad k.val v s) := if_pos hon

/-- LOAD through an active LINEAR slot. -/
theorem vecLoad_linear_runs (hact : (aguSlot s k 0 (fld v.imm 3 0)).active = true)
    (hlin : slotConv (aguSlot s k 0 (fld v.imm 3 0)).desc = false) :
    let x := aguSlot s k 0 (fld v.imm 3 0)
    let f := fld x.desc 504 501
    let n := max 1 (64 * fmtBits f / 512)
    LinesIn x n → Runs (.vecLoad k v) s fun t =>
      t = { s with cores := t.cores, pav := { s.pav with vals := t.pav.vals } }
      ∧ (∀ j, j ≠ k.val → coreGet t j = coreGet s j) ∧ (coreGet t k.val).flags = (coreGet s k.val).flags
      ∧ aguSlot t k 0 (fld v.imm 3 0) = { x with lines := x.lines + n }
      ∧ LanesHold s t k v fun l => loadLane f (streamElem (leNat (slotBytes s k x n)) (fmtBits f) l) := by
  intro x f n hin
  obtain ⟨hbytes, u, hcounts, hstate⟩ := linRead_active hact hin
  refine ⟨_, (exec_vecLoad_on v hon).trans (congrArg _ (vecLoad_linear v (.inr hlin))), ?_⟩
  dsimp only
  rw [hbytes, hstate, coreGet_coreSet]
  refine ⟨by rw [hcounts]; rfl, fun j hj => ?_, ?_, ?_, lanesHold_of_vregs ?_⟩
  · rw [coreGet_coreSet_ne _ _ hj, coreGet_coreSet_ne _ _ hj, hcounts.coreGet]
  · rw [coreGet_coreSet]; rfl
  · rw [aguSlot, coreGet_coreSet]
    exact mgetD_mset_same ..
  · rw [coreGet_coreSet]; rfl

/-- LOAD through an idle slot. -/
theorem vecLoad_idle_runs (hact : (aguSlot s k 0 (fld v.imm 3 0)).active = false) :
    let f := fld (aguSlot s k 0 (fld v.imm 3 0)).desc 504 501
    Runs (.vecLoad k v) s fun t => (coreGet t k.val).addrFault = true ∧ t.mem = s.mem
      ∧ LanesHold s t k v fun l => loadLane f (streamElem 0 (fmtBits f) l) := by
  intro f
  have hfault := addrMark_faultOnly s k.val
  refine ⟨_, (exec_vecLoad_on v hon).trans (congrArg _ (vecLoad_linear v (.inl hact))), ?_⟩
  dsimp only
  rw [linRead_idle _ hact]
  dsimp only
  rw [leNat_replicate_zero, hfault.core_self]
  refine ⟨?_, hfault.mem, lanesHold_of_vregs ?_⟩
  · rw [coreGet_coreSet]; rfl
  · rw [coreGet_coreSet]; rfl

end

/-! ### CONV mode -/

/-- Memory stays, and of a core at most the address-fault bit changes. -/
def CoreKept (k : Nat) (s t : State) : Prop := t.mem = s.mem ∧ ∃ b, coreGet t k = { coreGet s k with addrFault := b }

theorem CoreKept.refl {k : Nat} (s : State) : CoreKept k s s := ⟨rfl, (coreGet s k).addrFault, rfl⟩

theorem CoreKept.trans {k : Nat} {s t u : State} (h : CoreKept k s t) (i : CoreKept k t u) : CoreKept k s u := by
  obtain ⟨hm, b, hc⟩ := h
  obtain ⟨im, b', ic⟩ := i
  exact ⟨im.trans hm, b', by rw [ic, hc]⟩

theorem FaultOnly.coreKept {s t : State} {k : Nat} (h : FaultOnly s t k) : CoreKept k s t := ⟨h.mem, true, h.core_self⟩

theorem countsOnly_coreKept {s t : State} {k : Nat} (h : CountsOnly s t) : CoreKept k s t :=
  ⟨h.mem, (coreGet s k).addrFault, h.coreGet k⟩

theorem localLine_coreKept (s : State) (k off n : Nat) : CoreKept k s (localLine s k off n).2 := by
  unfold localLine
  split
  · exact (addrFault_faultOnly s k).coreKept
  · exact countsOnly_coreKept (sramRead_countsOnly ..)

/-- A read, wherever it goes. -/
theorem localRead_coreKept (s : State) (k off n : Nat) : CoreKept k s (localRead s k off n).2 := by
  unfold localRead
  generalize localSpans off n = l
  have hfold (bs : List Byte) (s : State) : CoreKept k s (l.foldl (fun (acc : List Byte × State) p =>
      let (b, s) := localLine acc.2 k p.1 p.2
      (acc.1 ++ b, s)) (bs, s)).2 := by
    induction l generalizing bs s with
    | nil => exact .refl s
    | cons p l ih => exact (localLine_coreKept s k p.1 p.2).trans (ih _ _)
  exact hfold [] s

/-- The end of a context's step leaves memory and every core. -/
theorem ctxEnd_frame (s : State) (c : Nat) (code : Fin 5) : (ctxEnd s c code).mem = s.mem ∧ (ctxEnd s c code).cores = s.cores := by
  have hlanes (l : List Nat) (s : State) :
      (each l (fun s l => laneSet s l (laneStop (laneGet s l))) s).mem = s.mem
      ∧ (each l (fun s l => laneSet s l (laneStop (laneGet s l))) s).cores = s.cores :=
    each_rel (R := fun s t => t.mem = s.mem ∧ t.cores = s.cores) (f := fun s l => laneSet s l (laneStop (laneGet s l))) (fun _ => ⟨rfl, rfl⟩)
      (fun h k => ⟨k.1.trans h.1, k.2.trans h.2⟩) (fun _ _ => ⟨rfl, rfl⟩) l s
  unfold ctxEnd
  dsimp only
  split
  · exact ⟨rfl, rfl⟩
  · split
    · exact hlanes _ _
    · exact hlanes _ _

theorem laneFault_coreKept (s : State) (k l : Nat) (code : Fin 5) : CoreKept k s (laneFault s l code) := by
  unfold laneFault
  split
  · next c _ =>
    obtain ⟨hm, hc⟩ := ctxEnd_frame s c code
    exact ⟨hm, (coreGet s k).addrFault, by simp only [coreGet, hc]⟩
  · exact .refl s

/-- The accesses of a CONV step. -/
theorem convCount_coreKept (s : State) (k : Nat) (x : AguSlot) (ps : List Int) (ks : List Nat) (sh : Bool) :
    CoreKept k s (convCount s k x ps ks sh) := by
  unfold convCount
  extract_lets s₁ es pads held q s₂ s₃
  have h₁ : CoreKept k s s₁ := each_rel (R := CoreKept k) .refl .trans (fun s a => localRead_coreKept s k a 64) _ s
  have h₂ : CoreKept k s₁ s₂ := by
    unfold s₂
    split
    · exact .refl _
    · exact countsOnly_coreKept rfl
  have h₃ : CoreKept k s₂ s₃ := countsOnly_coreKept rfl
  split
  · exact h₁.trans h₂
  · exact ((h₁.trans h₂).trans h₃).trans ((addrMark_faultOnly s₃ k).coreKept.trans (laneFault_coreKept ..))

/-- A write of lanes depends on the values for the 64 lanes alone. -/
theorem writeLanes_congr (c : Core) (v : VArgs) {f g : Nat → W32} (h : ∀ l, l < 64 → f l = g l) : writeLanes c v f = writeLanes c v g := by
  have hl : ((List.range 64).map fun l => if (govern c v).getLsbD l then f l else vlane c v.vd.val l) =
      (List.range 64).map fun l => if (govern c v).getLsbD l then g l else vlane c v.vd.val l :=
    List.map_congr_left fun l hl => by rw [h l (List.mem_range.mp hl)]
  simp only [writeLanes, hl]

/-- LOAD in CONV mode: the state that its accesses leave, then the lanes and the slot's step. -/
theorem vecLoad_conv {s : State} {k : CoreId} (v : VArgs) (hact : (aguSlot s k 0 (fld v.imm 3 0)).active = true)
    (hconv : slotConv (aguSlot s k 0 (fld v.imm 3 0)).desc = true) :
    ∃ u, CoreKept k.val s u ∧ vecLoad k.val v s =
      let x := aguSlot s k 0 (fld v.imm 3 0)
      coreSet u k.val (slotSet (writeLanes (coreGet u k.val) v fun l =>
        loadLane (fld x.desc 504 501) (convSupply s k.val x (x.pos + (l : Int)) x.step).1) 0 (fld v.imm 3 0) { x with step := x.step + 1 }) := by
  have hmode : ((aguSlot s k 0 (fld v.imm 3 0)).active && slotConv (aguSlot s k 0 (fld v.imm 3 0)).desc) = true := by simp [hact, hconv]
  have hload : vecLoad k.val v s = _ := if_pos hmode
  refine ⟨_, convCount_coreKept s k.val (aguSlot s k 0 (fld v.imm 3 0))
    ((List.range 64).map fun (j : Nat) => (aguSlot s k 0 (fld v.imm 3 0)).pos + (j : Int)) [(aguSlot s k 0 (fld v.imm 3 0)).step] false,
    hload.trans ?_⟩
  dsimp only
  rw [writeLanes_congr]
  intro l hl
  simp [hl]

/-- LOAD in CONV mode. -/
theorem vecLoad_conv_runs {s : State} {k : CoreId} (v : VArgs) (hon : quadOn s (coreQuad k.val) = true)
    (hact : (aguSlot s k 0 (fld v.imm 3 0)).active = true) (hconv : slotConv (aguSlot s k 0 (fld v.imm 3 0)).desc = true) :
    let x := aguSlot s k 0 (fld v.imm 3 0)
    Runs (.vecLoad k v) s fun t => aguSlot t k 0 (fld v.imm 3 0) = { x with step := x.step + 1 } ∧ t.mem = s.mem
      ∧ LanesHold s t k v fun l => loadLane (fld x.desc 504 501) (convSupply s k.val x (x.pos + (l : Int)) x.step).1 := by
  intro x
  obtain ⟨u, ⟨hmem, b, hcore⟩, hload⟩ := vecLoad_conv v hact hconv
  refine ⟨_, (exec_vecLoad_on v hon).trans (congrArg _ hload), ?_, hmem, lanesHold_of_vregs ?_⟩
  · rw [aguSlot, coreGet_coreSet]
    exact mgetD_mset_same ..
  · rw [coreGet_coreSet, hcore]; rfl

/-! ### STORE -/

/-- Bytes written to addresses one after another. -/
def writesAll (s : State) (k : CoreId) (l : List (Nat × List Byte)) : State := l.foldl (fun s p => localWrite s k.val p.1 p.2) s

/-- Every byte goes below GROUP 3. -/
def WritesIn (l : List (Nat × List Byte)) : Prop := ∀ p ∈ l, p.1 + p.2.length ≤ 0xC0000

theorem writesAll_onchipOnly {k : CoreId} {l : List (Nat × List Byte)} (hl : WritesIn l) (s : State) : OnchipOnly s (writesAll s k l) := by
  induction l generalizing s with
  | nil => exact .refl s
  | cons p l ih =>
    exact (localWrite_wrote s k (hl p (by simp))).1.trans (ih (fun q hq => hl q (by simp [hq])) _)

/-- A byte that none of the writes covers stays. -/
theorem coreByte_writesAll_ne {k : CoreId} {l : List (Nat × List Byte)} (hl : WritesIn l) (s : State) {a : Nat}
    (ha : ∀ p ∈ l, a < p.1 ∨ p.1 + p.2.length ≤ a) : coreByte (writesAll s k l) k a = coreByte s k a := by
  induction l generalizing s with
  | nil => rfl
  | cons p l ih =>
    have hrest := ih (fun q hq => hl q (by simp [hq])) (localWrite s k.val p.1 p.2) fun q hq => ha q (by simp [hq])
    refine hrest.trans ?_
    have hp := ha p (by simp)
    rw [coreByte_localWrite s k (hl p (by simp)), if_neg (by omega)]

/-- A byte reads as the last write that covers it left it. -/
theorem coreByte_writesAll_last {k : CoreId} {l₁ l₂ : List (Nat × List Byte)} {p : Nat × List Byte} (hl : WritesIn (l₁ ++ p :: l₂)) (s : State)
    {j : Nat} (hj : j < p.2.length) (hlast : ∀ q ∈ l₂, p.1 + j < q.1 ∨ q.1 + q.2.length ≤ p.1 + j) :
    coreByte (writesAll s k (l₁ ++ p :: l₂)) k (p.1 + j) = p.2.getD j 0 := by
  have hsplit : writesAll s k (l₁ ++ p :: l₂) = writesAll (localWrite (writesAll s k l₁) k.val p.1 p.2) k l₂ := by
    simp [writesAll]
  rw [hsplit, coreByte_writesAll_ne (fun q hq => hl q (by simp [hq])) _ hlast, coreByte_localWrite _ k (hl p (by simp)),
    if_pos (by omega), Nat.add_sub_cancel_left]

/-- The width of an element (R30). -/
theorem fmtBits_mem (f : Nat) : fmtBits f ∈ [4, 6, 8, 16, 32] := by
  unfold fmtBits
  split <;> simp

/-- STORE on a powered core. -/
theorem exec_vecStore_on {s : State} {k : CoreId} (v : VArgs) (hon : quadOn s (coreQuad k.val) = true) :
    exec (.vecStore k v) s = .next (vecStore k.val v s) := if_pos hon

/-- STORE through an idle slot. -/
theorem vecStore_idle_runs {s : State} {k : CoreId} (v : VArgs) (hon : quadOn s (coreQuad k.val) = true)
    (hact : (aguSlot s k 1 (fld v.imm 3 0)).active = false) :
    Runs (.vecStore k v) s fun t =>
      (coreGet t k.val).addrFault = true ∧ t.mem = s.mem ∧ coreGet t k.val = { coreGet s k.val with addrFault := true } := by
  have hidle : (!(aguSlot s k 1 (fld v.imm 3 0)).active) = true := by simp [hact]
  have hfault := addrMark_faultOnly s k.val
  have hstore : vecStore k.val v s = addrMark s k.val := if_pos hidle
  refine ⟨_, (exec_vecStore_on v hon).trans (congrArg _ hstore), ?_⟩
  exact ⟨by rw [hfault.core_self], hfault.mem, hfault.core_self⟩

/-- A range around one of its members. -/
theorem range_split {i m : Nat} (hi : i < m) : List.range m = List.range i ++ i :: List.range' (i + 1) (m - (i + 1)) := by
  have happ := List.range'_append (s := 0) (m := i) (n := m - (i + 1) + 1) (step := 1)
  rw [show 0 + 1 * i = i by omega, show i + (m - (i + 1) + 1) = m by omega] at happ
  rw [List.range_eq_range', List.range_eq_range', ← List.range'_succ]
  exact happ.symm

/-- Bytes written to the next `m` lines of a slot, cut at 64 bytes. -/
def lineWrites (y : AguSlot) (m : Nat) (bs : List Byte) : List (Nat × List Byte) :=
  (List.range m).map fun i => (linAddr y i, (bs.drop (64 * i)).take 64)

/-- Lines outside GROUP 3 are written below it. -/
theorem lineWrites_in {y : AguSlot} {m : Nat} (hin : LinesIn y m) (bs : List Byte) : WritesIn (lineWrites y m bs) := by
  intro p hp
  obtain ⟨i, hi, rfl⟩ := List.mem_map.mp hp
  have hline := hin i (List.mem_range.mp hi)
  simp only [List.length_take, List.length_drop]
  omega

section
variable {k : CoreId} {y : AguSlot} {m : Nat} (hin : LinesIn y m) (bs : List Byte) (s : State)
include hin

/-- A byte outside the lines stays. -/
theorem coreByte_lineWrites_ne {a : Nat} (ha : ∀ i, i < m → a < linAddr y i ∨ linAddr y i + 64 ≤ a) :
    coreByte (writesAll s k (lineWrites y m bs)) k a = coreByte s k a := by
  refine coreByte_writesAll_ne (lineWrites_in hin bs) s fun p hp => ?_
  obtain ⟨i, hi, rfl⟩ := List.mem_map.mp hp
  have hout := ha i (List.mem_range.mp hi)
  simp only [List.length_take, List.length_drop]
  omega

/-- A byte of a line that no later line covers is the one written there. -/
theorem coreByte_lineWrites_last {i j : Nat} (hi : i < m) (hj : j < 64) (hij : 64 * i + j < bs.length)
    (hlast : ∀ i', i < i' → i' < m → linAddr y i + j < linAddr y i' ∨ linAddr y i' + 64 ≤ linAddr y i + j) :
    coreByte (writesAll s k (lineWrites y m bs)) k (linAddr y i + j) = bs.getD (64 * i + j) 0 := by
  have hwrites := lineWrites_in hin bs
  rw [lineWrites, range_split hi, List.map_append, List.map_cons] at hwrites ⊢
  rw [coreByte_writesAll_last hwrites s]
  · simp [List.getD_eq_getElem?_getD, List.getElem?_drop, hj]
  · simp only [List.length_take, List.length_drop]
    omega
  · intro q hq
    obtain ⟨i', hi', rfl⟩ := List.mem_map.mp hq
    obtain ⟨hlo, hhi⟩ := List.mem_range'_1.mp hi'
    have hout := hlast i' (by omega) (by omega)
    simp only [List.length_take, List.length_drop]
    omega

end

/-- What STORE packs over what its lines held: the governed lanes of VA. -/
def storePacked (s : State) (k : CoreId) (v : VArgs) (w old : Nat) : Nat :=
  (govLanes (coreGet s k.val) v).foldl (fun b l => nput b (w * l + w - 1) (w * l) (lane s k v.va l).toNat) old

/-- STORE through an active slot: its lines are taken, packed over and written. -/
theorem vecStore_active {s : State} {k : CoreId} (v : VArgs) (hact : (aguSlot s k 1 (fld v.imm 3 0)).active = true) :
    let y := aguSlot s k 1 (fld v.imm 3 0)
    let w := fmtBits (fld y.desc 504 501)
    let m := max 1 (64 * w / 512)
    LinesIn y m → vecStore k.val v s =
      writesAll (coreSet s k.val (slotSet (coreGet s k.val) 1 (fld v.imm 3 0) { y with lines := y.lines + m })) k
        (lineWrites y m (leBytes (64 * w / 8) (storePacked s k v w (leNat (slotBytes s k y m))))) := by
  intro y w m hin
  have hbusy : ¬ (!(aguSlot s k 1 (fld v.imm 3 0)).active) = true := by simp [hact]
  let s₁ := coreSet s k.val (slotSet (coreGet s k.val) 1 (fld v.imm 3 0) { y with lines := y.lines + m })
  have hold : ((List.range m).map (linAddr y)).foldl (fun acc a => acc ++ (localRead s₁ k.val a 64).1) [] = slotBytes s k y m := by
    have hfold (l : List Nat) (hl : ∀ i ∈ l, i < m) (bs : List Byte) :
        (l.map (linAddr y)).foldl (fun acc a => acc ++ (localRead s₁ k.val a 64).1) bs = bs ++ l.flatMap fun i => coreBytes s k (linAddr y i) 64 := by
      induction l generalizing bs with
      | nil => simp
      | cons i l ih =>
        have hread : (localRead s₁ k.val (linAddr y i) 64).1 = coreBytes s k (linAddr y i) 64 :=
          (localRead_eq s₁ k (hin i (hl i (by simp)))).1
        rw [List.map_cons, List.foldl_cons, ih (fun j hj => hl j (by simp [hj])), hread, List.append_assoc, List.flatMap_cons]
    exact hfold _ (fun i hi => List.mem_range.mp hi) []
  have hstore : vecStore k.val v s = (List.range m).foldl (fun u i => localWrite u k.val (((List.range m).map (linAddr y)).getD i 0)
      (((leBytes (64 * w / 8) (storePacked s k v w (leNat (((List.range m).map (linAddr y)).foldl
        (fun acc a => acc ++ (localRead s₁ k.val a 64).1) [])))).drop (64 * i)).take 64)) s₁ := if_neg hbusy
  rw [hstore, hold, writesAll, lineWrites, List.foldl_map]
  refine List.foldl_ext _ _ _ fun u i hi => ?_
  have haddr : ((List.range m).map (linAddr y)).getD i 0 = linAddr y i := by simp [List.mem_range.mp hi]
  exact congrArg (fun a => localWrite u k.val a _) haddr

/-- Packing lanes of less than 8 bits leaves the rest of their line. -/
theorem storePacked_above (s : State) (k : CoreId) (v : VArgs) {w e : Nat} (hw : 1 ≤ w) (he : 64 * w ≤ e) (old : Nat) :
    storePacked s k v w old / 2 ^ e = old / 2 ^ e := by
  have hlanes : ∀ l ∈ govLanes (coreGet s k.val) v, l < 64 := by
    intro l hl
    exact List.mem_range.mp (List.mem_filter.mp hl).1
  unfold storePacked
  generalize govLanes (coreGet s k.val) v = ls at hlanes
  induction ls generalizing old with
  | nil => rfl
  | cons l ls ih =>
    have hl := hlanes l (by simp)
    have hfits : w * l + w ≤ e := by
      have : w * (l + 1) ≤ w * 64 := Nat.mul_le_mul_left w (by omega)
      rw [Nat.mul_add] at this
      omega
    rw [List.foldl_cons, ih _ (fun j hj => hlanes j (by simp [hj])), nput_div (by omega) (by omega)]

/-- A byte of a list of lines. -/
theorem slotBytes_getD {s : State} {k : CoreId} {y : AguSlot} {m i j : Nat} (hi : i < m) (hj : j < 64) :
    (slotBytes s k y m).getD (64 * i + j) 0 = coreByte s k (linAddr y i + j) := by
  induction m with
  | zero => omega
  | succ m ih =>
    have hlen : (slotBytes s k y m).length = 64 * m := by
      simp [slotBytes, List.length_flatMap, Nat.mul_comm]
    have hsplit : slotBytes s k y (m + 1) = slotBytes s k y m ++ coreBytes s k (linAddr y m) 64 := by
      simp [slotBytes, List.range_succ]
    rw [hsplit]
    by_cases him : i < m
    · rw [List.getD_append _ _ _ _ (by omega), ih him]
    · obtain rfl : i = m := by omega
      rw [List.getD_append_right _ _ _ _ (by omega), hlen, Nat.add_sub_cancel_left]
      simp [coreBytes, hj]

/-- STORE through an active slot, byte for byte. -/
theorem vecStore_active_runs {s : State} {k : CoreId} (v : VArgs) (hon : quadOn s (coreQuad k.val) = true)
    (hact : (aguSlot s k 1 (fld v.imm 3 0)).active = true) :
    let y := aguSlot s k 1 (fld v.imm 3 0)
    let w := fmtBits (fld y.desc 504 501)
    let m := max 1 (64 * w / 512)
    let new := storePacked s k v w (leNat (slotBytes s k y m))
    LinesIn y m → Runs (.vecStore k v) s fun t =>
      aguSlot t k 1 (fld v.imm 3 0) = { y with lines := y.lines + m } ∧ t.mem.hbm = s.mem.hbm
      ∧ (∀ a, (∀ i, i < m → a < linAddr y i ∨ linAddr y i + 64 ≤ a) → coreByte t k a = coreByte s k a)
      ∧ ∀ i j, i < m → j < 64 → (∀ i', i < i' → i' < m → linAddr y i + j < linAddr y i' ∨ linAddr y i' + 64 ≤ linAddr y i + j) →
          coreByte t k (linAddr y i + j) = (leBytes (64 * m) new).getD (64 * i + j) 0 := by
  intro y w m new hin
  have hw : w = 4 ∨ w = 6 ∨ w = 8 ∨ w = 16 ∨ w = 32 := by simpa using fmtBits_mem (fld y.desc 504 501)
  let u := coreSet s k.val (slotSet (coreGet s k.val) 1 (fld v.imm 3 0) { y with lines := y.lines + m })
  have honchip : OnchipOnly u (writesAll u k (lineWrites y m (leBytes (64 * w / 8) new))) := writesAll_onchipOnly (lineWrites_in hin _) u
  refine ⟨writesAll u k (lineWrites y m (leBytes (64 * w / 8) new)), (exec_vecStore_on v hon).trans (congrArg _ (vecStore_active v hact hin)), ?_⟩
  refine ⟨?_, honchip.hbm, fun a ha => coreByte_lineWrites_ne hin _ u ha, fun i j hi hj hlast => ?_⟩
  · rw [aguSlot, honchip.coreGet, coreGet_coreSet]
    exact mgetD_mset_same ..
  · by_cases hij : 64 * i + j < 64 * w / 8
    · rw [coreByte_lineWrites_last hin _ u hi hj (by rwa [length_leBytes]) hlast, getD_leBytes new hij, getD_leBytes new (by omega)]
    · obtain rfl : i = 0 := by omega
      have hm : m = 1 := by omega
      rw [getD_leBytes new (by omega), show (256 : Nat) = 2 ^ 8 from rfl, ← Nat.pow_mul,
        storePacked_above s k v (by omega) (by omega), Nat.pow_mul, show (2 : Nat) ^ 8 = 256 from rfl, leNat_byte, slotBytes_getD hi hj]
      refine coreByte_writesAll_ne (lineWrites_in hin _) u fun p hp => ?_
      obtain ⟨i, hi, rfl⟩ := List.mem_map.mp hp
      have hi := List.mem_range.mp hi
      obtain rfl : i = 0 := by omega
      simp only [List.length_take, List.length_drop, length_leBytes]
      omega

/-- Settles O4: LINEAR and CONV loads give each governed lane its element, and STORE packs the governed lanes over its lines. -/
theorem vectorLoadAndStoreMoveElements : Obligations.VectorLoadAndStoreMoveElements := by
  intro k v s hon
  exact ⟨vecLoad_linear_runs v hon, vecLoad_idle_runs v hon, vecLoad_conv_runs v hon, vecStore_idle_runs v hon, vecStore_active_runs v hon⟩

end Sys2Proof.Machine
end

section
/-! SUPPORT. O6: the address generators' operations and local DMA (R82, R83, R91, R118 to R120, R182, R183). -/

namespace Sys2Proof.Machine

open Sys2Proof Sys2Proof.Claims

/-! ### START, ADVANCE and STOP -/

/-- An operation on one slot changes that slot of its core and nothing else. -/
theorem slotSet_runs {i : Instr} {s : State} {k : CoreId} {g n : Nat} {f : AguSlot → AguSlot} {P : AguSlot → Prop}
    (hi : exec i s = .next (onCore s k fun c => slotSet c g n (f (slotGet c g n)))) (hon : quadOn s (coreQuad k.val) = true)
    (hP : P (f (aguSlot s k g n))) :
    Runs i s fun t => (CoreOnly s t k ∧ coreGet t k.val = { coreGet s k.val with slots := (coreGet t k.val).slots }
      ∧ ∀ j, j ≠ slotKey g n → mget (coreGet t k.val).slots j = mget (coreGet s k.val).slots j) ∧ P (aguSlot t k g n) := by
  refine Runs.of_onCore hi hon ⟨⟨coreSet_coreOnly .., ?_, fun j hj => ?_⟩, ?_⟩
  · rw [coreGet_coreSet]; rfl
  · rw [coreGet_coreSet]
    exact mget_mset_ne _ _ hj
  · rw [aguSlot, coreGet_coreSet]
    exact (congrArg P (mgetD_mset_same ..)).mpr hP

theorem addressGeneratorsStartAdvanceStop : AddressGeneratorsStartAdvanceStop := by
  intro k g n s hon x only
  refine ⟨?_, ?_, ?_⟩
  · exact slotSet_runs (i := .aguStart k g n) (f := aguStart) (P := fun y => y.desc = x.desc ∧ y.active = true ∧ y.pos = (fld x.desc 211 188 : Nat)
      ∧ y.cblk = (fld x.desc 235 228 : Nat) ∧ y.step = 0 ∧ y.base = (fld x.desc 495 476 : Nat) ∧ y.lines = 0)
      rfl hon ⟨rfl, rfl, rfl, rfl, rfl, rfl, rfl⟩
  · refine slotSet_runs (i := .aguAdvance k g n) (f := aguAdvance) (P := fun y => y.desc = x.desc ∧ y.active = x.active ∧ y.step = 0
        ∧ (slotConv x.desc = true → y.pos = x.pos + sx 16 (fld x.desc 187 172) ∧ y.cblk = x.cblk + sx 8 (fld x.desc 171 164))
        ∧ (slotConv x.desc = false → y.base = x.base + 64 * sx 16 (fld x.desc 187 172) ∧ y.lines = 0 ∧ y.pos = x.pos)) rfl hon ?_
    by_cases hc : slotConv x.desc = true
    · simp [aguAdvance, x, hc]
    · simp [aguAdvance, x, hc, Int.mul_comm]
  · exact slotSet_runs (f := aguStop) (i := .aguStop k g n) (P := fun y => y = { x with active := false }) rfl hon rfl

/-! ### Local DMA -/

/-- High-bandwidth memory, the core's local DMA slots and the lines' owner stay. -/
def LdmaKept (k : Nat) (s t : State) : Prop :=
  t.mem.hbm = s.mem.hbm ∧ (coreGet t k).ldma = (coreGet s k).ldma

theorem LdmaKept.refl {k : Nat} (s : State) : LdmaKept k s s := ⟨rfl, rfl⟩

theorem LdmaKept.trans {k : Nat} {s t u : State} (h : LdmaKept k s t) (i : LdmaKept k t u) : LdmaKept k s u :=
  ⟨i.1.trans h.1, i.2.trans h.2⟩

theorem CoreKept.ldmaKept {k : Nat} {s t : State} (h : CoreKept k s t) : LdmaKept k s t := by
  obtain ⟨hm, b, hc⟩ := h
  exact ⟨by rw [hm], by rw [hc]⟩

theorem OnchipOnly.ldmaKept {s t : State} (h : OnchipOnly s t) (k : Nat) : LdmaKept k s t := ⟨h.hbm, by rw [h.coreGet]⟩

theorem CountsOnly.quadOwner {s t : State} (h : CountsOnly s t) (q : Nat) : quadOwner t q = quadOwner s q := by rw [h]; rfl

/-- A write, wherever it goes. -/
theorem localWrite_ldmaKept (s : State) (k off : Nat) (bs : List Byte) : LdmaKept k s (localWrite s k off bs) := by
  unfold localWrite
  generalize localSpans off bs.length = l
  induction l generalizing s bs with
  | nil => exact .refl s
  | cons p l ih =>
    rw [List.foldl_cons]
    refine LdmaKept.trans ?_ (ih _ _)
    split
    · exact (addrFault_faultOnly s k).coreKept.ldmaKept
    · exact (sramPut_onchipOnly ..).ldmaKept k

/-- One line moved: the slot's line in the direction's order, then both addresses advance. -/
def ldmaLine (toCluster : Bool) (s : State) (k slot : Nat) : State :=
  let g := ldmaGet (coreGet s k) slot
  let own := quadOwner s (coreQuad k)
  let ca := clusAddr (coreClus k) (g.2.toNat * 64)
  if toCluster then sramPut (localRead s k (g.1.toNat * 64) 64).2 own ca (localRead s k (g.1.toNat * 64) 64).1
  else localWrite (sramRead s (coreQuad k) own ca 64).2 k (g.1.toNat * 64) (sramRead s (coreQuad k) own ca 64).1

theorem ldmaStep_eq (toCluster : Bool) (k slot : Nat) (s : State) :
    ldmaStep toCluster k slot s =
      let g := ldmaGet (coreGet s k) slot
      let t := ldmaLine toCluster s k slot
      coreSet t k { coreGet t k with ldma := mset (coreGet t k).ldma slot (g.1 + 1, g.2 + 1) } := rfl

/-- A line to cluster SRAM. -/
theorem ldmaLine_true (s : State) (k slot : Nat) :
    ldmaLine true s k slot =
      let g := ldmaGet (coreGet s k) slot
      let r := localRead s k (g.1.toNat * 64) 64
      sramPut r.2 (quadOwner s (coreQuad k)) (clusAddr (coreClus k) (g.2.toNat * 64)) r.1 := by
  rw [ldmaLine, if_pos rfl]

/-- A line to local SRAM. -/
theorem ldmaLine_false (s : State) (k slot : Nat) :
    ldmaLine false s k slot =
      let g := ldmaGet (coreGet s k) slot
      let r := sramRead s (coreQuad k) (quadOwner s (coreQuad k)) (clusAddr (coreClus k) (g.2.toNat * 64)) 64
      localWrite r.2 k (g.1.toNat * 64) r.1 := by
  rw [ldmaLine, if_neg Bool.false_ne_true]

theorem ldmaLine_kept (toCluster : Bool) (s : State) (k slot : Nat) : LdmaKept k s (ldmaLine toCluster s k slot) := by
  unfold ldmaLine
  dsimp only
  split
  · exact (localRead_coreKept ..).ldmaKept.trans ((sramPut_onchipOnly ..).ldmaKept k)
  · exact (countsOnly_coreKept (sramRead_countsOnly ..)).ldmaKept.trans (localWrite_ldmaKept ..)

/-- One step advances both addresses. -/
theorem ldmaStep_moves (toCluster : Bool) (k slot : Nat) (s : State) :
    let g := ldmaGet (coreGet s k) slot
    ldmaGet (coreGet (ldmaStep toCluster k slot s) k) slot = (g.1 + 1, g.2 + 1) ∧ (ldmaStep toCluster k slot s).mem.hbm = s.mem.hbm := by
  refine ⟨?_, (ldmaLine_kept toCluster s k slot).1⟩
  rw [ldmaStep_eq]
  dsimp only
  rw [coreGet_coreSet]
  exact mgetD_mset_same ..

/-- A transfer advances the slot by every line moved. -/
theorem ldmaStep_repeat (toCluster : Bool) (k slot : Nat) (s : State) (c : Nat) :
    let t := Nat.repeat (ldmaStep toCluster k slot) c s
    let g := ldmaGet (coreGet s k) slot
    ldmaGet (coreGet t k) slot = (g.1 + BitVec.ofNat 14 c, g.2 + BitVec.ofNat 15 c) ∧ t.mem.hbm = s.mem.hbm := by
  induction c with
  | zero => exact ⟨by simp [Nat.repeat], rfl⟩
  | succ c ih =>
    obtain ⟨hslot, hhbm⟩ := ih
    obtain ⟨hnext, hhbm'⟩ := ldmaStep_moves toCluster k slot (Nat.repeat (ldmaStep toCluster k slot) c s)
    refine ⟨hnext.trans ?_, hhbm'.trans hhbm⟩
    rw [hslot, BitVec.ofNat_add, BitVec.ofNat_add, BitVec.add_assoc, BitVec.add_assoc]
    rfl

/-- What one write of a line leaves, byte by byte. -/
theorem OnchipWrote.line {s t : State} {own a : Nat} {f : Nat → Byte} (h : OnchipWrote s t own a ((List.range 64).map f)) :
    (∀ j, j < 64 → sramByte t own (a + j) = f j) ∧ ∀ x, (x < a ∨ a + 64 ≤ x) → sramByte t own x = sramByte s own x := by
  obtain ⟨-, hbytes⟩ := h
  simp only [List.length_map, List.length_range] at hbytes
  refine ⟨fun j hj => ?_, fun x hx => ?_⟩
  · rw [hbytes, if_pos (by omega), Nat.add_sub_cancel_left]
    simp [hj]
  · rw [hbytes, if_neg (by omega)]

section
variable {s : State} {k : CoreId} {n : Nat} (hlow : (ldmaGet (coreGet s k.val) n).1.toNat * 64 < 0xC0000)
include hlow

/-- A line of local SRAM goes to cluster SRAM. -/
theorem ldmaLine_toCluster :
    let g := ldmaGet (coreGet s k.val) n
    let own := quadOwner s (coreQuad k.val)
    let a := clusAddr (coreClus k.val) (g.2.toNat * 64)
    (∀ j, j < 64 → sramByte (ldmaLine true s k.val n) own (a + j) = coreByte s k (g.1.toNat * 64 + j))
    ∧ ∀ x, (x < a ∨ a + 64 ≤ x) → sramByte (ldmaLine true s k.val n) own x = sramByte s own x := by
  intro g own a
  have hlow : g.1.toNat * 64 < 0xC0000 := hlow
  obtain ⟨hbytes, hcounts⟩ := localRead_eq (off := g.1.toNat * 64) (n := 64) s k (by omega)
  have hput := sramPut_wrote (localRead s k.val (g.1.toNat * 64) 64).2 (quadOwner_lt s (coreQuad k.val)) a
    (localRead s k.val (g.1.toNat * 64) 64).1
  rw [hbytes] at hput
  have hline : ldmaLine true s k.val n = sramPut (localRead s k.val (g.1.toNat * 64) 64).2 own a (coreBytes s k (g.1.toNat * 64) 64) := by
    rw [← hbytes]
    exact ldmaLine_true ..
  obtain ⟨hin, hout⟩ := OnchipWrote.line hput
  rw [hline]
  exact ⟨hin, fun x hx => (hout x hx).trans (hcounts.sramByte ..)⟩

/-- A line of cluster SRAM goes to local SRAM. -/
theorem ldmaLine_toLocal :
    let g := ldmaGet (coreGet s k.val) n
    let own := quadOwner s (coreQuad k.val)
    let a := clusAddr (coreClus k.val) (g.2.toNat * 64)
    let b := coreAddr k.val (g.1.toNat * 64)
    quadOwner (ldmaLine false s k.val n) (coreQuad k.val) = own
    ∧ (∀ j, j < 64 → sramByte (ldmaLine false s k.val n) own (b + j) = sramByte s own (a + j))
    ∧ ∀ x, (x < b ∨ b + 64 ≤ x) → sramByte (ldmaLine false s k.val n) own x = sramByte s own x := by
  intro g own a b
  have hlow : g.1.toNat * 64 < 0xC0000 := hlow
  have hcounts := sramRead_countsOnly s (coreQuad k.val) own a 64
  have hbytes : (sramRead s (coreQuad k.val) own a 64).1 = (List.range 64).map fun j => sramByte s own (a + j) := rfl
  have hput := localWrite_wrote (off := g.1.toNat * 64) (bs := (sramRead s (coreQuad k.val) own a 64).1)
    (sramRead s (coreQuad k.val) own a 64).2 k (by rw [hbytes, List.length_map, List.length_range]; omega)
  have hown : quadOwner (sramRead s (coreQuad k.val) own a 64).2 (coreQuad k.val) = own := hcounts.quadOwner _
  rw [hown] at hput
  have hline : ldmaLine false s k.val n = localWrite (sramRead s (coreQuad k.val) own a 64).2 k.val (g.1.toNat * 64)
      (sramRead s (coreQuad k.val) own a 64).1 := ldmaLine_false ..
  rw [← hline, hbytes] at hput
  obtain ⟨hin, hout⟩ := OnchipWrote.line hput
  exact ⟨(hput.1.quadOwner _).trans hown, hin, fun x hx => (hout x hx).trans (hcounts.sramByte ..)⟩

end

theorem localDmaMovesLinesAndAdvancesSlot : LocalDmaMovesLinesAndAdvancesSlot := by
  intro k n s hon g own clus loc moved hlow
  have hto (c : Fin 8) : exec (.localToCluster k n c) s = .next (Nat.repeat (ldmaStep true k.val n.val) (c.val + 1) s) := if_pos hon
  have hfrom (c : Fin 8) : exec (.clusterToLocal k n c) s = .next (Nat.repeat (ldmaStep false k.val n.val) (c.val + 1) s) := if_pos hon
  have haddr (j : Nat) : coreAddr k.val (g.1.toNat * 64 + j) = coreAddr k.val (g.1.toNat * 64) + j := by simp only [coreAddr]; omega
  refine ⟨fun c => ⟨⟨_, hto c, ldmaStep_repeat true k.val n.val s _⟩, ⟨_, hfrom c, ldmaStep_repeat false k.val n.val s _⟩⟩, ⟨_, hto 0, ?_⟩, ⟨_, hfrom 0, ?_⟩⟩
  · exact ldmaLine_toCluster hlow
  · obtain ⟨howner, hin, hout⟩ := ldmaLine_toLocal hlow
    refine ⟨fun j hj => ?_, hout⟩
    refine Eq.trans ?_ (hin j hj)
    show sramByte (ldmaLine false s k.val n.val) (quadOwner (ldmaLine false s k.val n.val) (coreQuad k.val)) (coreAddr k.val (g.1.toNat * 64 + j)) = _
    rw [haddr, howner]

/-- Settles O6: a slot's operation changes its slot alone, and local DMA moves its first line and advances by every line. -/
theorem addressGeneratorsAndLocalDmaAdvanceTheirSlots : Obligations.AddressGeneratorsAndLocalDmaAdvanceTheirSlots :=
  ⟨addressGeneratorsStartAdvanceStop, localDmaMovesLinesAndAdvancesSlot⟩

end Sys2Proof.Machine
end

section
/-! SUPPORT. O7, first part: what the operand reads of a tile leave, and the accumulator sets it fills (R64 to R73, R115). -/

namespace Sys2Proof.Machine

open Sys2Proof Sys2Proof.Claims

/-! ### Frames of operand reads -/

/-- Memory, serving and ownership stay; of the core at most its fault bit and the progress of its slots change. -/
structure OpKept (k : Nat) (s t : State) : Prop where
  mem : t.mem = s.mem
  car : t.car = s.car
  gate : t.gate = s.gate
  core : ∃ f sl, coreGet t k = { coreGet s k with addrFault := f, slots := sl }
  slot : ∀ a n, (slotGet (coreGet t k) a n).desc = (slotGet (coreGet s k) a n).desc ∧ (slotGet (coreGet t k) a n).active = (slotGet (coreGet s k) a n).active

theorem OpKept.refl {k : Nat} (s : State) : OpKept k s s := ⟨rfl, rfl, rfl, ⟨_, _, rfl⟩, fun _ _ => ⟨rfl, rfl⟩⟩

theorem OpKept.trans {k : Nat} {s t u : State} (h : OpKept k s t) (i : OpKept k t u) : OpKept k s u := by
  obtain ⟨hm, hc, hg, ⟨f, sl, hcore⟩, hslot⟩ := h
  obtain ⟨im, ic, ig, ⟨f', sl', icore⟩, islot⟩ := i
  refine ⟨im.trans hm, ic.trans hc, ig.trans hg, ⟨f', sl', by rw [icore, hcore]⟩, fun a n => ?_⟩
  exact ⟨(islot a n).1.trans (hslot a n).1, (islot a n).2.trans (hslot a n).2⟩

/-- A state that differs in the dictionary, its messages, the sequencer and the core's fault bit at most. -/
theorem OpKept.of_fault {k : Nat} {s t : State} (hm : t.mem = s.mem) (hc : t.car = s.car) (hg : t.gate = s.gate) {f : Bool}
    (hcore : coreGet t k = { coreGet s k with addrFault := f }) : OpKept k s t :=
  ⟨hm, hc, hg, ⟨f, _, hcore⟩, fun a n => by rw [hcore]; exact ⟨rfl, rfl⟩⟩

theorem CountsOnly.opKept {s t : State} (h : CountsOnly s t) (k : Nat) : OpKept k s t :=
  .of_fault h.mem (by rw [h]) (by rw [h]) (h.coreGet k)

theorem FaultOnly.opKept {s t : State} {k : Nat} (h : FaultOnly s t k) : OpKept k s t :=
  .of_fault h.mem (by rw [h]) (by rw [h]) h.core_self

/-- Only the sequencer differs. -/
def SeqOnly (s t : State) : Prop := t = { s with seq := t.seq }

theorem SeqOnly.opKept {s t : State} (h : SeqOnly s t) (k : Nat) : OpKept k s t :=
  .of_fault (by rw [h]) (by rw [h]) (by rw [h]) (by rw [h]; rfl)

/-- A slot that goes on with the same descriptor, active as it was. -/
theorem slotSet_opKept (s : State) (k a n : Nat) {x : AguSlot} (hd : x.desc = (slotGet (coreGet s k) a n).desc)
    (ha : x.active = (slotGet (coreGet s k) a n).active) : OpKept k s (coreSet s k (slotSet (coreGet s k) a n x)) := by
  refine ⟨rfl, rfl, rfl, ⟨(coreGet s k).addrFault, mset (coreGet s k).slots (slotKey a n) x, ?_⟩, fun a' n' => ?_⟩
  · rw [coreGet_coreSet]; rfl
  · rw [coreGet_coreSet]
    by_cases hk : slotKey a' n' = slotKey a n
    · have hx : slotGet (slotSet (coreGet s k) a n x) a' n' = x := by
        rw [slotGet, hk]
        exact mgetD_mset_same ..
      have hs : slotGet (coreGet s k) a' n' = slotGet (coreGet s k) a n := by rw [slotGet, hk]; rfl
      rw [hx, hs]
      exact ⟨hd, ha⟩
    · have hx : slotGet (slotSet (coreGet s k) a n x) a' n' = slotGet (coreGet s k) a' n' := mgetD_mset_ne _ _ _ hk
      rw [hx]
      exact ⟨rfl, rfl⟩

theorem localLine_opKept (s : State) (k off n : Nat) : OpKept k s (localLine s k off n).2 := by
  unfold localLine
  split
  · exact (addrFault_faultOnly s k).opKept
  · exact (sramRead_countsOnly ..).opKept k

/-- A relation that every step of a fold of reads keeps to holds across it. -/
theorem foldl_snd_rel {α β : Type} {R : State → State → Prop} (hrefl : ∀ s, R s s) (htrans : ∀ {s t u}, R s t → R t u → R s u)
    {f : β × State → α → β × State} (hf : ∀ x a, R x.2 (f x a).2) (l : List α) (x : β × State) : R x.2 (l.foldl f x).2 := by
  induction l generalizing x with
  | nil => exact hrefl _
  | cons a l ih => exact htrans (hf x a) (ih (f x a))

theorem localRead_opKept (s : State) (k off n : Nat) : OpKept k s (localRead s k off n).2 := by
  unfold localRead
  exact foldl_snd_rel (R := OpKept k) (x := ([], s)) (f := fun acc p => (acc.1 ++ (localLine acc.2 k p.1 p.2).1, (localLine acc.2 k p.1 p.2).2)) .refl .trans (fun x p => localLine_opKept x.2 k p.1 p.2) (localSpans off n)

theorem linRead_opKept (s : State) (k agu slot n : Nat) : OpKept k s (linRead s k agu slot n).2 := by
  unfold linRead
  dsimp only
  split
  · exact (addrMark_faultOnly s k).opKept
  · have hread := foldl_snd_rel (R := OpKept k) (x := ([], s)) (f := fun acc a => (acc.1 ++ (localRead acc.2 k a 64).1, (localRead acc.2 k a 64).2))
      .refl .trans (fun x a => localRead_opKept x.2 k a 64) (linTake (slotGet (coreGet s k) agu slot) n).1
    have hslot := hread.slot agu slot
    exact hread.trans (slotSet_opKept _ k agu slot hslot.1.symm hslot.2.symm)

theorem ctxEnd_seqOnly (s : State) (c : Nat) : SeqOnly s (ctxEnd s c fcImage) := by
  have hlanes (l : List Nat) (s : State) : SeqOnly s (each l (fun s l => laneSet s l (laneStop (laneGet s l))) s) :=
    each_rel (R := SeqOnly) (f := fun s l => laneSet s l (laneStop (laneGet s l))) (fun _ => rfl)
      (fun {s t u} h i => by unfold SeqOnly at *; rw [i, h]) (fun _ _ => rfl) l s
  unfold ctxEnd
  dsimp only
  split
  · exact rfl
  · have hcode : ¬ fcImage = fcAbort := by decide
    rw [if_neg hcode]
    have h := hlanes (ctxLanes (ctxSet s c { ctxGet s c with fault := some fcImage, fetching := false, latch := none }) c)
      (ctxSet s c { ctxGet s c with fault := some fcImage, fetching := false, latch := none })
    unfold SeqOnly at h ⊢
    rw [h]
    rfl

theorem laneFault_seqOnly (s : State) (l : Nat) : SeqOnly s (laneFault s l fcImage) := by
  unfold laneFault
  split
  · exact ctxEnd_seqOnly ..
  · exact rfl

theorem bumpBy_countsOnly (s : State) (i n w x : Nat) : CountsOnly s (bumpBy s i n w x) := rfl

theorem convCount_opKept (s : State) (k : Nat) (x : AguSlot) (ps : List Int) (ks : List Nat) (sh : Bool) :
    OpKept k s (convCount s k x ps ks sh) := by
  unfold convCount
  extract_lets s₁ es pads held q s₂ s₃
  have h₁ : OpKept k s s₁ := each_rel (R := OpKept k) .refl .trans (fun s a => localRead_opKept s k a 64) _ s
  have h₂ : OpKept k s₁ s₂ := by
    unfold s₂
    split
    · exact .refl _
    · exact (bumpBy_countsOnly ..).opKept k
  have h₃ : OpKept k s₂ s₃ := (bumpBy_countsOnly ..).opKept k
  split
  · exact h₁.trans h₂
  · exact ((h₁.trans h₂).trans h₃).trans ((addrMark_faultOnly s₃ k).opKept.trans ((laneFault_seqOnly ..).opKept k))

theorem preRead_opKept (s : State) (k : Nat) (desc : W512) (w kb : Nat) : OpKept k s (preRead s k desc w kb).2 := by
  unfold preRead
  split
  · exact localRead_opKept ..
  · exact localRead_opKept ..

theorem convPre_opKept (s : State) (k : Nat) (x : AguSlot) (ps : List Int) (steps : List Nat) (pre : Bool) :
    OpKept k s (convPre s k x ps steps pre).2 := by
  unfold convPre
  dsimp only
  split
  · exact .refl s
  · exact each_rel (R := OpKept k) .refl .trans (fun s a => localRead_opKept s k a 64) _ s

/-- An operand read leaves memory, ownership and all but its slot. -/
theorem opRead_opKept (s : State) (k agu slot fmt w kb : Nat) (pre : Bool) : OpKept k s (opRead s k agu slot fmt w kb pre).2 := by
  unfold opRead
  dsimp only
  split
  · exact (addrMark_faultOnly s k).opKept
  · split
    · have h := (convPre_opKept s k (slotGet (coreGet s k) agu slot) ((List.range w).map fun (j : Nat) => (slotGet (coreGet s k) agu slot).pos + (j : Int))
        (List.range (32 * kb)) pre).trans (convCount_opKept _ k (slotGet (coreGet s k) agu slot)
          ((List.range w).map fun (j : Nat) => (slotGet (coreGet s k) agu slot).pos + (j : Int)) (List.range (32 * kb)) true)
      have hslot := h.slot agu slot
      exact h.trans (slotSet_opKept _ k agu slot hslot.1.symm hslot.2.symm)
    · have htail (u : State) (hu : OpKept k s u) (scaled : Bool) (n a w : Nat) :
          OpKept k s (if scaled = true then localRead (linRead u k agu slot n).2 k a w else ([], (linRead u k agu slot n).2)).2 := by
        have hl := hu.trans (linRead_opKept u k agu slot n)
        split
        · exact hl.trans (localRead_opKept ..)
        · exact hl
      have hpre (c : Bool) : OpKept k s (if c = true then preRead s k (slotGet (coreGet s k) agu slot).desc w kb else (([], 0), s)).2 := by
        split
        · exact preRead_opKept ..
        · exact .refl s
      generalize (if agu = 0 then Config.weightOperand (slotGet (coreGet s k) agu slot).desc else none) = top
      cases top with
      | none => exact htail _ (hpre _) ..
      | some a => exact htail _ ((hpre _).trans (localRead_opKept ..)) ..

/-! ### Accumulator sets -/

theorem accKey_inj {g g' : Nat} {b b' : Bool} (h : accKey g b = accKey g' b') : g = g' ∧ b = b' := by
  unfold accKey at h
  cases b <;> cases b' <;> simp at h ⊢ <;> omega

/-- One engine's rows put into the set that its tile uses, whose alternate comes next. -/
def putRows (k : Nat) (first : Bool) (s : State) (p : Nat × List AccRow) : State :=
  let c := coreGet s k
  let set := tileSet c first p.1
  coreSet s k { c with accs := mset c.accs (accKey p.1 set) p.2, nextSet := mset c.nextSet p.1 (!set) }

theorem CoreOnly.trans {s t u : State} {k : CoreId} (h : CoreOnly s t k) (i : CoreOnly t u k) : CoreOnly s u k := by
  obtain ⟨ht, htc⟩ := h
  obtain ⟨hu, huc⟩ := i
  exact ⟨by rw [hu, ht], fun j hj => (huc j hj).trans (htc j hj)⟩

/-- What a tile on a core leaves: the sets it uses hold its rows, every other set stays. -/
structure TileDone (k : CoreId) (first : Bool) (l : List (Nat × List AccRow)) (s t : State) : Prop where
  only : CoreOnly s t k
  core : ∃ accs ns, coreGet t k.val = { coreGet s k.val with accs := accs, nextSet := ns }
  put : ∀ p, p ∈ l → mget (coreGet t k.val).accs (accKey p.1 (tileSet (coreGet s k.val) first p.1)) = some p.2
    ∧ mget (coreGet t k.val).nextSet p.1 = some (!tileSet (coreGet s k.val) first p.1)
  keep : ∀ g b, (∀ p, p ∈ l → g = p.1 → b ≠ tileSet (coreGet s k.val) first g) →
    mget (coreGet t k.val).accs (accKey g b) = mget (coreGet s k.val).accs (accKey g b)
  next : ∀ g, (∀ p, p ∈ l → g ≠ p.1) → mget (coreGet t k.val).nextSet g = mget (coreGet s k.val).nextSet g

theorem tileSet_congr {c c' : Core} (first : Bool) {g : Nat} (h : mget c.nextSet g = mget c'.nextSet g) :
    tileSet c first g = tileSet c' first g := by
  unfold tileSet mgetD
  rw [h]

theorem putRows_done (k : CoreId) (first : Bool) (s : State) (p : Nat × List AccRow) : TileDone k first [p] s (putRows k.val first s p) := by
  refine ⟨coreSet_coreOnly .., ⟨_, _, coreGet_coreSet ..⟩, fun q hq => ?_, fun g b hb => ?_, fun g hg => ?_⟩
  · obtain rfl := List.mem_singleton.mp hq
    rw [putRows, coreGet_coreSet]
    exact ⟨mget_mset_same .., mget_mset_same ..⟩
  · rw [putRows, coreGet_coreSet]
    refine mget_mset_ne _ _ fun h => ?_
    obtain ⟨hg, hset⟩ := accKey_inj h
    subst hg
    exact hb p (by simp) rfl hset
  · rw [putRows, coreGet_coreSet]
    exact mget_mset_ne _ _ (hg p (by simp))

/-- The puts of distinct engines. -/
theorem each_putRows_done (k : CoreId) (first : Bool) {l : List (Nat × List AccRow)} (hl : (l.map Prod.fst).Nodup) (s : State) :
    TileDone k first l s (each l (putRows k.val first) s) := by
  induction l generalizing s with
  | nil => exact ⟨⟨rfl, fun _ _ => rfl⟩, ⟨_, _, rfl⟩, fun p hp => absurd hp (by simp), fun _ _ _ => rfl, fun _ _ => rfl⟩
  | cons p l ih =>
    obtain ⟨hp, hnodup⟩ := List.nodup_cons.mp hl
    have hfirst := putRows_done k first s p
    have hrest := ih hnodup (putRows k.val first s p)
    have hne (q : Nat × List AccRow) (hq : q ∈ l) : q.1 ≠ p.1 := fun h => hp (List.mem_map.mpr ⟨q, hq, h⟩)
    have hset (g : Nat) (hg : g ≠ p.1) : tileSet (coreGet (putRows k.val first s p) k.val) first g = tileSet (coreGet s k.val) first g :=
      tileSet_congr first (hfirst.next g fun q hq => by rwa [List.mem_singleton.mp hq])
    refine ⟨CoreOnly.trans hfirst.only hrest.only, ?_, fun q hq => ?_, fun g b hb => ?_, fun g hg => ?_⟩
    · obtain ⟨a, n, hc⟩ := hfirst.core
      obtain ⟨a', n', hc'⟩ := hrest.core
      exact ⟨a', n', hc'.trans (by rw [hc])⟩
    · rcases List.mem_cons.mp hq with rfl | hq
      · obtain ⟨hacc, hnext⟩ := hfirst.put q (by simp)
        exact ⟨(hrest.keep q.1 _ fun r hr h => absurd h.symm (hne r hr)).trans hacc,
          (hrest.next q.1 fun r hr h => hne r hr h.symm).trans hnext⟩
      · have hput := hrest.put q hq
        rwa [hset q.1 (hne q hq)] at hput
    · refine (hrest.keep g b fun q hq hg => ?_).trans (hfirst.keep g b fun q hq => ?_)
      · rw [hg, hset q.1 (hne q hq), ← hg]
        exact hb q (List.mem_cons_of_mem _ hq) hg
      · rw [List.mem_singleton.mp hq]
        exact hb p (by simp)
    · exact (hrest.next g fun q hq => hg q (List.mem_cons_of_mem _ hq)).trans
        (hfirst.next g fun q hq => hg q (by rw [List.mem_singleton.mp hq]; simp))

theorem engines_nodup (e : EArgs) : (engines e).Nodup := List.nodup_range.filter _

/-! ### TILE -/

theorem exec_tile_on {s : State} {k : CoreId} (e : EArgs) (hon : quadOn s (coreQuad k.val) = true) :
    exec (.tile k e) s = .next (tileOp k.val e e.firstSet s) := if_pos hon

/-- A tile on a setup that does not compute. -/
theorem tileOp_bad {s : State} {k : Nat} {e : EArgs} (first : Bool) (h : setupBad (setupGet (coreGet s k) e.setup.val) = true) :
    tileOp k e first s = each ((engines e).map fun g => (g, List.replicate 64 nanRow)) (putRows k first) s := by
  rw [each, List.foldl_map]
  exact if_pos h

/-- The operands and records of a tile, and the state that reading them leaves. -/
def tileReads (k : Nat) (e : EArgs) (s : State) : Operand × Operand × List Byte × State :=
  let w := setupGet (coreGet s k) e.setup.val
  let n := (engines e).length
  let kb := fld w 20 8
  let pre := !bit w 48 && !bit w 21
  let a := opRead s k 0 e.aSlot.val (fld w 63 60) (if bit w 22 then 64 else 64 * n) kb pre
  let b := opRead a.2 k 1 e.bSlot.val (fld w 59 56) (32 * n) kb pre
  let r := if bit w 21 then localRead b.2 k (Config.recordBase (slotGet (coreGet b.2 k) 1 e.bSlot.val).desc) (64 * 32 * 16 * n) else ([], b.2)
  (a.1, b.1, r.1, r.2)

/-- The rows of each enabled engine. -/
def tilePuts (k : Nat) (e : EArgs) (s : State) : List (Nat × List AccRow) :=
  let w := setupGet (coreGet s k) e.setup.val
  let r := tileReads k e s
  ((List.range (engines e).length).zip (engines e)).map fun p =>
    (p.2, tileRows w r.1 r.2.1 (if bit w 22 then 0 else p.1) p.1 (r.2.2.1.drop (64 * 32 * 16 * p.1)))

/-- A tile on a legal setup. -/
theorem tileOp_good {s : State} {k : Nat} {e : EArgs} (first : Bool) (h : setupBad (setupGet (coreGet s k) e.setup.val) = false) :
    tileOp k e first s = each (tilePuts k e s) (putRows k first) (tileReads k e s).2.2.2 := by
  have hgood : ¬ setupBad (setupGet (coreGet s k) e.setup.val) = true := by simp [h]
  rw [each, tilePuts, List.foldl_map]
  exact if_neg hgood

theorem tileReads_opKept (k : Nat) (e : EArgs) (s : State) : OpKept k s (tileReads k e s).2.2.2 := by
  unfold tileReads
  dsimp only
  split
  · exact (opRead_opKept ..).trans ((opRead_opKept ..).trans (localRead_opKept ..))
  · exact (opRead_opKept ..).trans (opRead_opKept ..)

theorem zip_range_map_snd (l : List Nat) : ((List.range l.length).zip l).map Prod.snd = l :=
  List.map_snd_zip (by simp)

/-- What a tile leaves of what the readout of its core looks at. -/
structure TileKept (k : CoreId) (e : EArgs) (first : Bool) (s t : State) : Prop where
  mem : t.mem = s.mem
  car : t.car = s.car
  gate : t.gate = s.gate
  flags : (coreGet t k.val).flags = (coreGet s k.val).flags
  setups : (coreGet t k.val).setups = (coreGet s k.val).setups
  slot : ∀ a n, (aguSlot t k a n).desc = (aguSlot s k a n).desc ∧ (aguSlot t k a n).active = (aguSlot s k a n).active
  keep : ∀ g, g ∈ engines e → ∀ b, b ≠ tileSet (coreGet s k.val) first g →
    mget (coreGet t k.val).accs (accKey g b) = mget (coreGet s k.val).accs (accKey g b)

/-- The puts after the reads. -/
theorem TileKept.of_done {k : CoreId} {e : EArgs} {first : Bool} {l : List (Nat × List AccRow)} {s u t : State} (hu : OpKept k.val s u)
    (ht : TileDone k first l u t) : TileKept k e first s t := by
  obtain ⟨accs, ns, hcore⟩ := ht.core
  obtain ⟨f, sl, hcore'⟩ := hu.core
  obtain ⟨honly, -⟩ := ht.only
  have hset (g : Nat) : tileSet (coreGet u k.val) first g = tileSet (coreGet s k.val) first g := tileSet_congr first (by rw [hcore'])
  refine ⟨by rw [honly, ← hu.mem], by rw [honly, ← hu.car], by rw [honly, ← hu.gate], by rw [hcore, hcore'], by rw [hcore, hcore'],
    fun a n => ?_, fun g _ b hb => ?_⟩
  · have hslots : aguSlot t k a n = aguSlot u k a n := by rw [aguSlot, hcore]; rfl
    rw [hslots]
    exact hu.slot a n
  · rw [ht.keep g b fun p _ _ => by rwa [hset], hcore']

theorem tileOp_kept (k : CoreId) (e : EArgs) (first : Bool) (s : State) : TileKept k e first s (tileOp k.val e first s) := by
  by_cases h : setupBad (setupGet (coreGet s k.val) e.setup.val) = true
  · rw [tileOp_bad first h]
    refine .of_done (.refl s) (each_putRows_done k first ?_ s)
    rw [List.map_map, show (Prod.fst ∘ fun g => (g, List.replicate 64 nanRow)) = id from rfl, List.map_id]
    exact engines_nodup e
  · rw [Bool.not_eq_true] at h
    rw [tileOp_good first h]
    refine .of_done (tileReads_opKept k.val e s) (each_putRows_done k first ?_ _)
    rw [tilePuts, List.map_map]
    exact (zip_range_map_snd (engines e)).symm ▸ engines_nodup e

end Sys2Proof.Machine
end

section
/-! SUPPORT. O7, second part: the rows of a readout, and the obligation (R44, R47 to R52, R60, R68, R115, R210). -/

namespace Sys2Proof.Machine

open Sys2Proof Sys2Proof.Claims

/-! ### Frames of a row -/

/-- Of the core only the fault bit may change; what names a slot's page, and high-bandwidth memory, stay. -/
structure RowKept (k : Nat) (s t : State) : Prop where
  hbm : t.mem.hbm = s.mem.hbm
  car : t.car = s.car
  gate : t.gate = s.gate
  core : ∃ f, coreGet t k = { coreGet s k with addrFault := f }

theorem RowKept.refl {k : Nat} (s : State) : RowKept k s s := ⟨rfl, rfl, rfl, _, rfl⟩

theorem RowKept.trans {k : Nat} {s t u : State} (h : RowKept k s t) (i : RowKept k t u) : RowKept k s u := by
  obtain ⟨hm, hc, hg, f, hcore⟩ := h
  obtain ⟨im, ic, ig, f', icore⟩ := i
  exact ⟨im.trans hm, ic.trans hc, ig.trans hg, f', by rw [icore, hcore]⟩

theorem OnchipOnly.rowKept {s t : State} (h : OnchipOnly s t) (k : Nat) : RowKept k s t :=
  ⟨h.hbm, by rw [h], by rw [h], _, h.coreGet k⟩

theorem FaultOnly.rowKept {s t : State} {k : Nat} (h : FaultOnly s t k) : RowKept k s t :=
  ⟨by rw [h.mem], by rw [h], by rw [h], true, h.core_self⟩

theorem localWrite_rowKept (s : State) (k off : Nat) (bs : List Byte) : RowKept k s (localWrite s k off bs) := by
  unfold localWrite
  generalize localSpans off bs.length = l
  induction l generalizing s bs with
  | nil => exact .refl s
  | cons p l ih =>
    rw [List.foldl_cons]
    refine RowKept.trans ?_ (ih _ _)
    split
    · exact (addrFault_faultOnly s k).rowKept
    · exact (sramPut_onchipOnly ..).rowKept k

theorem writesAll_rowKept (s : State) (k : CoreId) (l : List (Nat × List Byte)) : RowKept k.val s (writesAll s k l) := by
  induction l generalizing s with
  | nil => exact .refl s
  | cons p l ih => exact (localWrite_rowKept ..).trans (ih _)

/-- Bytes read alike where memory and ownership do. -/
theorem coreByte_congr {s t : State} (hm : t.mem = s.mem) (hg : t.gate = s.gate) (k : CoreId) (a : Nat) : coreByte t k a = coreByte s k a := by
  have howner : quadOwner t (coreQuad k.val) = quadOwner s (coreQuad k.val) := by rw [quadOwner, hg]; rfl
  rw [coreByte, howner, sramByte, hm, tagOk]
  simp only [hm]
  rfl

/-- The page of a slot rests on the images and on the quadrant's owner. -/
theorem slotPage_congr {s t : State} (hc : t.car = s.car) (hg : t.gate = s.gate) (k : Nat) (d : W512) : slotPage t k d = slotPage s k d := by
  have howner : quadOwner t (coreQuad k) = quadOwner s (coreQuad k) := by rw [quadOwner, hg]; rfl
  have hscale : pageScale t k = pageScale s k := by
    funext l v
    rw [pageScale, hc, howner]
    rfl
  rw [slotPage, hscale]
  rfl

/-! ### One row -/

/-- Bytes, scale or shadow byte, and flags of a row. -/
def rowParts (w : BitVec 64) (den : Option Sys2Proof.Machine.Num) (page : Option Nat) (r : AccRow) : List Byte × Option Nat × BitVec 4 :=
  if bit w 23 && !setupBad w then ((recordRow r).1, none, (recordRow r).2) else convRow w r den page

theorem rowBytes_eq (w : BitVec 64) (den : Option Sys2Proof.Machine.Num) (page : Option Nat) (r : AccRow) :
    rowBytes w den page r = ((rowParts w den page r).1, (rowParts w den page r).2.2) := by
  unfold rowBytes rowParts
  split <;> rfl

/-- A row fills the lines that it takes. -/
theorem rowParts_length (w : BitVec 64) (den : Option Sys2Proof.Machine.Num) (page : Option Nat) (r : AccRow) :
    cdiv (rowParts w den page r).1.length 64 = rowLineCount w := by
  unfold rowParts rowLineCount
  split
  · have hlen : (recordRow r).1.length = 512 := by simp [recordRow, List.length_flatMap]
    rw [hlen]
    rfl
  · have hlen : (convRow w r den page).1.length = 32 * fmtBits (outFmt w) / 8 := by
      unfold convRow
      extract_lets
      split
      · exact length_leBytes ..
      · split
        · exact length_leBytes ..
        · exact length_leBytes ..
    rw [hlen, show 32 * fmtBits (outFmt w) / 8 = 4 * fmtBits (outFmt w) by omega]

/-- A row without a scale or shadow byte. -/
theorem rowParts_plain {w : BitVec 64} (den : Option Sys2Proof.Machine.Num) (page : Option Nat) (r : AccRow)
    (h : (bit w 23 && !setupBad w) = true ∨ (fmtMX (outFmt w) || fmtShadow (outFmt w)) = false) : (rowParts w den page r).2.1 = none := by
  unfold rowParts
  split
  · rfl
  · next hrec =>
    obtain ⟨hmx, hsh⟩ := Bool.or_eq_false_iff.mp (h.resolve_left hrec)
    have hmx : ¬ fmtMX (outFmt w) = true := by simp [hmx]
    have hsh : ¬ fmtShadow (outFmt w) = true := by simp [hsh]
    unfold convRow
    extract_lets
    split
    · rfl
    · rw [if_neg hmx]
      exact if_neg hsh

/-- The divisor of a row, where the readout writes a quotient. -/
def rowDen (k slot : Nat) (w : BitVec 64) (row : Nat) (s : State) : Option Sys2Proof.Machine.Num × State :=
  let x := slotGet (coreGet s k) 1 slot
  if x.active && !(bit w 23 && !setupBad w) then denRead s k x.desc row else (none, s)

/-- Reading it leaves all but the fault bit. -/
theorem rowDen_kept (k slot : Nat) (w : BitVec 64) (row : Nat) (s : State) :
    RowKept k s (rowDen k slot w row s).2 ∧ (rowDen k slot w row s).2.mem = s.mem := by
  have hread (off n : Nat) : RowKept k s (localRead s k off n).2 ∧ (localRead s k off n).2.mem = s.mem := by
    obtain ⟨hm, hc, hg, -, -⟩ := localRead_opKept s k off n
    obtain ⟨-, hcore⟩ := localRead_coreKept s k off n
    exact ⟨⟨by rw [hm], hc, hg, hcore⟩, hm⟩
  unfold rowDen
  dsimp only
  split
  · unfold denRead
    split
    · exact hread ..
    · exact ⟨.refl s, rfl⟩
  · exact ⟨.refl s, rfl⟩

theorem rowDen_none {k slot : Nat} (w : BitVec 64) (row : Nat) {s : State} (h : Config.quotientBase (slotGet (coreGet s k) 1 slot).desc = none) :
    (rowDen k slot w row s).1 = none := by
  unfold rowDen
  dsimp only
  split
  · rw [denRead, h]
  · rfl

/-- A row through an idle slot. -/
theorem rowOut_idle {k slot : Nat} (w : BitVec 64) (idx row : Nat) (r : AccRow) {s : State}
    (h : (slotGet (coreGet s k) 1 slot).active = false) :
    rowOut k slot w idx row r s =
      addrMark (coreSet s k (addFlags (coreGet s k) (rowBytes w none (slotPage s k (slotGet (coreGet s k) 1 slot).desc) r).2)) k := by
  have hden : rowDen k slot w row s = (none, s) := if_neg (by simp [h])
  have hout : rowOut k slot w idx row r s =
      addrMark (coreSet (rowDen k slot w row s).2 k (addFlags (coreGet (rowDen k slot w row s).2 k)
        (rowParts w (rowDen k slot w row s).1 (slotPage (rowDen k slot w row s).2 k (slotGet (coreGet s k) 1 slot).desc) r).2.2)) k :=
    if_pos (by simp [h])
  rw [hout, hden, rowBytes_eq]

/-- A row through an active slot: its lines are written, then its scale or shadow byte where it has one. -/
theorem rowOut_active {k : CoreId} {slot : Nat} (w : BitVec 64) (idx row : Nat) (r : AccRow) {s : State}
    (h : (aguSlot s k 1 slot).active = true) :
    let x := aguSlot s k 1 slot
    let d := rowDen k.val slot w row s
    let p := rowParts w d.1 (slotPage d.2 k.val x.desc) r
    let u := coreSet d.2 k.val (slotSet (addFlags (coreGet d.2 k.val) p.2.2) 1 slot { x with lines := x.lines + cdiv p.1.length 64 })
    RowKept k.val (writesAll u k (lineWrites x (cdiv p.1.length 64) p.1)) (rowOut k.val slot w idx row r s)
    ∧ (p.2.1 = none → rowOut k.val slot w idx row r s = writesAll u k (lineWrites x (cdiv p.1.length 64) p.1)) := by
  intro x d p u
  have hbusy : ¬ (!(aguSlot s k 1 slot).active) = true := by simp [h]
  have hlines (u : State) (n : Nat) : (List.range n).foldl (fun s i => localWrite s k.val (((List.range n).map (linAddr x)).getD i 0)
      ((p.1.drop (64 * i)).take 64)) u = writesAll u k (lineWrites x n p.1) := by
    rw [writesAll, lineWrites, List.foldl_map]
    refine List.foldl_ext _ _ _ fun u i hi => ?_
    have haddr : ((List.range n).map (linAddr x)).getD i 0 = linAddr x i := by simp [List.mem_range.mp hi]
    exact congrArg (fun a => localWrite u k.val a _) haddr
  unfold rowOut
  dsimp only
  rw [if_neg hbusy]
  have hd : d = rowDen k.val slot w row s := rfl
  have hp : p = rowParts w d.1 (slotPage d.2 k.val x.desc) r := rfl
  rw [rowDen] at hd
  rw [rowParts] at hp
  rw [← hd, ← hp]
  simp only [linTake]
  rw [hlines]
  cases p.2.1 with
  | some b => exact ⟨localWrite_rowKept .., fun h => absurd h (by simp)⟩
  | none => exact ⟨.refl _, fun _ => rfl⟩

/-! ### Rows one after another -/

theorem orFlags_cons (f : BitVec 4) (l : List (BitVec 4)) : orFlags (f :: l) = f ||| orFlags l := by
  have hzero (x : BitVec 4) : 0 ||| x = x := BitVec.zero_or
  have hfold (l : List (BitVec 4)) (a : BitVec 4) : l.foldl (· ||| ·) a = a ||| l.foldl (· ||| ·) 0 := by
    induction l generalizing a with
    | nil => simp
    | cons b l ih => rw [List.foldl_cons, List.foldl_cons, ih, ih (0 ||| b), hzero, BitVec.or_assoc]
  rw [orFlags, List.foldl_cons, hfold, hzero]
  rfl

/-- What one row through an active slot leaves. -/
structure RowDone (u : State) (k : CoreId) (e : EArgs) (w : BitVec 64) (r : AccRow) (den : Option Sys2Proof.Machine.Num) (t : State) : Prop where
  noDen : Config.quotientBase (aguSlot u k 1 e.bSlot.val).desc = none → den = none
  flags : (coreGet t k.val).flags = (coreGet u k.val).flags ||| (rowBytes w den (slotPage u k.val (aguSlot u k 1 e.bSlot.val).desc) r).2
  accs : (coreGet t k.val).accs = (coreGet u k.val).accs
  hbm : t.mem.hbm = u.mem.hbm
  car : t.car = u.car
  gate : t.gate = u.gate
  slot : aguSlot t k 1 e.bSlot.val = { aguSlot u k 1 e.bSlot.val with lines := (aguSlot u k 1 e.bSlot.val).lines + rowLineCount w }
  bytes : LinesIn (aguSlot u k 1 e.bSlot.val) (rowLineCount w) → (bit w 23 && !setupBad w) = true ∨ (fmtMX (outFmt w) || fmtShadow (outFmt w)) = false →
    (∀ a, (∀ i, i < rowLineCount w → a < linAddr (aguSlot u k 1 e.bSlot.val) i ∨ linAddr (aguSlot u k 1 e.bSlot.val) i + 64 ≤ a) →
      coreByte t k a = coreByte u k a)
    ∧ ∀ n b, (rowBytes w den (slotPage u k.val (aguSlot u k 1 e.bSlot.val).desc) r).1[n]? = some b →
        (∀ i', n / 64 < i' → i' < rowLineCount w → linAddr (aguSlot u k 1 e.bSlot.val) (n / 64) + n % 64 < linAddr (aguSlot u k 1 e.bSlot.val) i'
          ∨ linAddr (aguSlot u k 1 e.bSlot.val) i' + 64 ≤ linAddr (aguSlot u k 1 e.bSlot.val) (n / 64) + n % 64) →
        coreByte t k (linAddr (aguSlot u k 1 e.bSlot.val) (n / 64) + n % 64) = b

/-- The lines of a row hold its bytes. -/
theorem rowLength_le (w : BitVec 64) (den : Option Sys2Proof.Machine.Num) (page : Option Nat) (r : AccRow) {n : Nat}
    (hn : n < (rowBytes w den page r).1.length) : n / 64 < rowLineCount w := by
  rw [rowBytes_eq] at hn
  rw [← rowParts_length w den page r, cdiv]
  dsimp only at hn
  omega

theorem rowOut_done {k : CoreId} {e : EArgs} (w : BitVec 64) (idx row : Nat) (r : AccRow) {u : State}
    (h : (aguSlot u k 1 e.bSlot.val).active = true) :
    ∃ den, RowDone u k e w r den (rowOut k.val e.bSlot.val w idx row r u) := by
  obtain ⟨hkept, hplain⟩ := rowOut_active w idx row r h
  obtain ⟨hread, hmem⟩ := rowDen_kept k.val e.bSlot.val w row u
  have hnone := rowDen_none (k := k.val) (slot := e.bSlot.val) w row (s := u)
  have hpage := slotPage_congr hread.car hread.gate k.val (aguSlot u k 1 e.bSlot.val).desc
  generalize rowDen k.val e.bSlot.val w row u = d at *
  rw [hpage, rowParts_length] at hkept
  rw [hpage, rowParts_length] at hplain
  have hparts := rowBytes_eq w d.1 (slotPage u k.val (aguSlot u k 1 e.bSlot.val).desc) r
  have hlen := rowParts_length w d.1 (slotPage u k.val (aguSlot u k 1 e.bSlot.val).desc) r
  have hscale := rowParts_plain (w := w) d.1 (slotPage u k.val (aguSlot u k 1 e.bSlot.val).desc) r
  generalize rowParts w d.1 (slotPage u k.val (aguSlot u k 1 e.bSlot.val).desc) r = p at *
  generalize rowOut k.val e.bSlot.val w idx row r u = t at *
  generalize hv : coreSet d.2 k.val (slotSet (addFlags (coreGet d.2 k.val) p.2.2) 1 e.bSlot.val
    { aguSlot u k 1 e.bSlot.val with lines := (aguSlot u k 1 e.bSlot.val).lines + rowLineCount w }) = v at *
  have hfinal := (writesAll_rowKept v k (lineWrites (aguSlot u k 1 e.bSlot.val) (rowLineCount w) p.1)).trans hkept
  obtain ⟨f, hcore⟩ := hread.core
  obtain ⟨f', hcore'⟩ := hfinal.core
  have hvcore : coreGet v k.val = slotSet (addFlags (coreGet d.2 k.val) p.2.2) 1 e.bSlot.val
      { aguSlot u k 1 e.bSlot.val with lines := (aguSlot u k 1 e.bSlot.val).lines + rowLineCount w } := by
    rw [← hv]
    exact coreGet_coreSet ..
  have hvmem : v.mem = u.mem := by rw [← hv]; exact hmem
  have hvgate : v.gate = u.gate := by rw [← hv]; exact hread.gate
  refine ⟨d.1, hnone, ?_, ?_, ?_, ?_, ?_, ?_, fun hin hcond => ?_⟩
  · rw [hcore', hvcore, hparts, hcore]; rfl
  · rw [hcore', hvcore, hcore]; rfl
  · rw [hfinal.hbm, hvmem]
  · rw [hfinal.car, ← hv]; exact hread.car
  · rw [hfinal.gate, hvgate]
  · rw [aguSlot, hcore', hvcore]
    exact mgetD_mset_same ..
  · rw [hplain (hscale hcond), hparts]
    refine ⟨fun a ha => ?_, fun n b hb hlast => ?_⟩
    · rw [coreByte_lineWrites_ne hin _ _ ha, coreByte_congr hvmem hvgate]
    · obtain ⟨hn, hget⟩ := List.getElem?_eq_some_iff.mp hb
      have hline : n / 64 < rowLineCount w := by
        rw [← hlen, cdiv]
        dsimp only at hn
        omega
      rw [coreByte_lineWrites_last hin _ _ hline (Nat.mod_lt _ (by omega)) (by rwa [Nat.div_add_mod]) hlast, Nat.div_add_mod,
        List.getD_eq_getElem _ _ hn]
      exact hget

/-- A row and then the rest. -/
theorem readOut_cons {u v t : State} {k : CoreId} {e : EArgs} {w : BitVec 64} {r : AccRow} {rows : List AccRow} {d : Option Sys2Proof.Machine.Num}
    (h : RowDone u k e w r d v) (i : ReadOut v k e w rows t) : ReadOut u k e w (r :: rows) t := by
  obtain ⟨hden, hflags, haccs, hhbm, hcar, hgate, hslot, hbytes⟩ := h
  obtain ⟨den, iden, iflags, iaccs, ihbm, islot, ibytes⟩ := i
  have hpage : slotPage v k.val (aguSlot v k 1 e.bSlot.val).desc = slotPage u k.val (aguSlot u k 1 e.bSlot.val).desc := by
    rw [slotPage_congr hcar hgate, hslot]
  have haddr (i : Nat) : linAddr (aguSlot v k 1 e.bSlot.val) i = linAddr (aguSlot u k 1 e.bSlot.val) (rowLineCount w + i) := by
    rw [hslot, linAddr, linAddr, Nat.add_assoc]
  rw [hpage] at iflags ibytes
  simp only [haddr] at ibytes
  rw [hslot] at iden islot
  have hlines : (r :: rows).length * rowLineCount w = rowLineCount w + rows.length * rowLineCount w := by
    rw [List.length_cons, Nat.succ_mul, Nat.add_comm]
  refine ⟨fun i => if i = 0 then d else den (i - 1), fun hq i => ?_, ?_, iaccs.trans haccs, ihbm.trans hhbm, ?_, fun hin hcond => ?_⟩
  · dsimp only
    split
    · exact hden hq
    · exact iden hq _
  · rw [iflags, hflags, List.zipIdx_cons, List.map_cons, orFlags_cons, BitVec.or_assoc, Nat.zero_add, List.zipIdx_succ, List.map_map]
    rfl
  · rw [islot, hlines, Nat.add_assoc]
  · rw [hlines] at hin ⊢
    have hinv : LinesIn (aguSlot v k 1 e.bSlot.val) (rows.length * rowLineCount w) := fun i hi => by
      rw [haddr]
      exact hin _ (by omega)
    obtain ⟨hframe, hrow⟩ := hbytes (fun i hi => hin i (by omega)) hcond
    obtain ⟨iframe, irow⟩ := ibytes hinv hcond
    refine ⟨fun a ha => ?_, fun i q n b hq hb hlast => ?_⟩
    · rw [iframe a fun i hi => ha _ (by omega), hframe a fun i hi => ha i (by omega)]
    · cases i with
      | zero =>
        obtain rfl : r = q := by simpa using hq
        have hn := rowLength_le _ _ _ _ (List.getElem?_eq_some_iff.mp hb).1
        rw [Nat.mul_zero, Nat.zero_add] at hlast ⊢
        rw [iframe _ fun i hi => hlast _ (by omega) (by omega)]
        exact hrow n b hb fun i' hlo hhi => hlast i' hlo (by omega)
      | succ i =>
        have hmul : rowLineCount w * (i + 1) + n / 64 = rowLineCount w + (rowLineCount w * i + n / 64) := by rw [Nat.mul_succ]; omega
        rw [hmul] at hlast ⊢
        exact irow i q n b (by simpa using hq) hb fun i' hlo hhi => hlast _ (by omega) (by omega)

theorem readOut_nil (u : State) (k : CoreId) (e : EArgs) (w : BitVec 64) : ReadOut u k e w [] u := by
  refine ⟨fun _ => none, fun _ _ => rfl, ?_, rfl, rfl, ?_, fun _ _ => ⟨fun _ _ => rfl, fun i r n b hr => absurd hr (by simp)⟩⟩
  · exact (BitVec.or_zero).symm
  · rw [List.length_nil, Nat.zero_mul]
    rfl

/-- The rows of a readout, each with its number and its operand's row. -/
def rowsOut (k slot : Nat) (w : BitVec 64) (l : List (Nat × Nat × AccRow)) (s : State) : State :=
  each l (fun s p => rowOut k slot w p.1 p.2.1 p.2.2 s) s

theorem rowsOut_readOut {k : CoreId} {e : EArgs} (w : BitVec 64) (l : List (Nat × Nat × AccRow)) {u : State}
    (h : (aguSlot u k 1 e.bSlot.val).active = true) : ReadOut u k e w (l.map fun p => p.2.2) (rowsOut k.val e.bSlot.val w l u) := by
  induction l generalizing u with
  | nil => exact readOut_nil u k e w
  | cons p l ih =>
    obtain ⟨d, hrow⟩ := rowOut_done (e := e) w p.1 p.2.1 p.2.2 h
    exact readOut_cons hrow (ih (by rw [hrow.slot]; exact h))

/-- What rows through an idle slot leave. -/
structure RowsIdle (u : State) (k : CoreId) (e : EArgs) (w : BitVec 64) (rows : List AccRow) (t : State) : Prop where
  accs : (coreGet t k.val).accs = (coreGet u k.val).accs
  mem : t.mem = u.mem
  fault : rows ≠ [] → (coreGet t k.val).addrFault = true
  keep : (coreGet u k.val).addrFault = true → (coreGet t k.val).addrFault = true
  flags : (coreGet t k.val).flags = (coreGet u k.val).flags |||
    orFlags (rows.map fun r => (rowBytes w none (slotPage u k.val (aguSlot u k 1 e.bSlot.val).desc) r).2)

theorem rowsOut_idle {k : CoreId} {e : EArgs} (w : BitVec 64) (l : List (Nat × Nat × AccRow)) {u : State}
    (h : (aguSlot u k 1 e.bSlot.val).active = false) : RowsIdle u k e w (l.map fun p => p.2.2) (rowsOut k.val e.bSlot.val w l u) := by
  induction l generalizing u with
  | nil => exact ⟨rfl, rfl, fun hne => absurd rfl hne, id, (BitVec.or_zero).symm⟩
  | cons p l ih =>
    let f := (rowBytes w none (slotPage u k.val (aguSlot u k 1 e.bSlot.val).desc) p.2.2).2
    let v := addrMark (coreSet u k.val (addFlags (coreGet u k.val) f)) k.val
    have hv : rowOut k.val e.bSlot.val w p.1 p.2.1 p.2.2 u = v := rowOut_idle w p.1 p.2.1 p.2.2 h
    have hfault : FaultOnly (coreSet u k.val (addFlags (coreGet u k.val) f)) v k.val := addrMark_faultOnly ..
    have hcore : coreGet v k.val = { addFlags (coreGet u k.val) f with addrFault := true } := by rw [hfault.core_self, coreGet_coreSet]
    have hslot : aguSlot v k 1 e.bSlot.val = aguSlot u k 1 e.bSlot.val := by rw [aguSlot, hcore]; rfl
    have hpage : slotPage v k.val (aguSlot v k 1 e.bSlot.val).desc = slotPage u k.val (aguSlot u k 1 e.bSlot.val).desc := by
      rw [hslot]
      exact slotPage_congr (by rw [hfault]; rfl) (by rw [hfault]; rfl) ..
    obtain ⟨iaccs, imem, -, ikeep, iflags⟩ := ih (u := v) (by rw [hslot]; exact h)
    have hrest : rowsOut k.val e.bSlot.val w (p :: l) u = rowsOut k.val e.bSlot.val w l v := by rw [← hv]; rfl
    have hset : (coreGet (rowsOut k.val e.bSlot.val w l v) k.val).addrFault = true := ikeep (by rw [hcore])
    rw [hrest]
    refine ⟨iaccs.trans (by rw [hcore]; rfl), imem.trans (hfault.mem.trans rfl), fun _ => hset, fun _ => hset, ?_⟩
    rw [iflags, hpage, hcore, List.map_cons, List.map_cons, orFlags_cons, ← BitVec.or_assoc]
    rfl

/-! ### READOUT and TILE_READ -/

/-- The rows that a readout takes from the accumulators, in the order it writes them. -/
def setRows (c : Core) (e : EArgs) (set : Nat → Bool) : List AccRow :=
  (List.range 64).flatMap fun r => (engines e).map fun g => (mgetD c.accs (accKey g (set g)) []).getD r { cells := List.replicate 32 0 }

/-- A readout is its rows, one after another. -/
theorem readoutOp_rows (k : Nat) (e : EArgs) (set : Nat → Bool) (s : State) :
    ∃ l : List (Nat × Nat × AccRow), l.map (fun p => p.2.2) = setRows (coreGet s k) e set
      ∧ readoutOp k e set s = rowsOut k e.bSlot.val (setupGet (coreGet s k) e.setup.val) l s := by
  refine ⟨(List.range 64).flatMap fun r => ((List.range (engines e).length).zip (engines e)).map fun p =>
    (r * (engines e).length + p.1, if bit (setupGet (coreGet s k) e.setup.val) 22 then r else 64 * p.1 + r,
      (mgetD (coreGet s k).accs (accKey p.2 (set p.2)) []).getD r { cells := List.replicate 32 0 }), ?_, ?_⟩
  · rw [List.map_flatMap, setRows]
    refine List.flatMap_congr fun r _ => ?_
    conv_rhs => rw [← zip_range_map_snd (engines e), List.map_map]
    rw [List.map_map]
    rfl
  · rw [rowsOut, each, List.foldl_flatMap]
    simp only [List.foldl_map]
    rfl

theorem setRows_ne_nil {c : Core} {e : EArgs} {set : Nat → Bool} (h : engines e ≠ []) : setRows c e set ≠ [] := by
  obtain ⟨g, hg⟩ := List.exists_mem_of_ne_nil _ h
  exact List.ne_nil_of_mem (List.mem_flatMap.mpr ⟨0, List.mem_range.mpr (by omega), List.mem_map.mpr ⟨g, hg, rfl⟩⟩)

/-- A readout through an active slot. -/
theorem readoutOp_readOut {s : State} {k : CoreId} {e : EArgs} (set : Nat → Bool) (h : (aguSlot s k 1 e.bSlot.val).active = true) :
    ReadOut s k e (setupGet (coreGet s k.val) e.setup.val) (setRows (coreGet s k.val) e set) (readoutOp k.val e set s) := by
  obtain ⟨l, hl, hout⟩ := readoutOp_rows k.val e set s
  rw [← hl, hout]
  exact rowsOut_readOut _ l h

/-- A readout through an idle slot. -/
theorem readoutOp_idle {s : State} {k : CoreId} {e : EArgs} (set : Nat → Bool) (h : (aguSlot s k 1 e.bSlot.val).active = false) :
    RowsIdle s k e (setupGet (coreGet s k.val) e.setup.val) (setRows (coreGet s k.val) e set) (readoutOp k.val e set s) := by
  obtain ⟨l, hl, hout⟩ := readoutOp_rows k.val e set s
  rw [← hl, hout]
  exact rowsOut_idle _ l h

/-- The rows of the sets that a tile does not use are the same before and after it. -/
theorem setRows_tileOp (k : CoreId) (e : EArgs) (first : Bool) (s : State) :
    setRows (coreGet (tileOp k.val e first s) k.val) e (fun g => !tileSet (coreGet s k.val) first g)
      = setRows (coreGet s k.val) e fun g => !tileSet (coreGet s k.val) first g := by
  unfold setRows
  refine List.flatMap_congr fun r _ => List.map_congr_left fun g hg => ?_
  rw [mgetD, (tileOp_kept k e first s).keep g hg _ (by simp)]
  rfl

theorem exec_readout_on {s : State} {k : CoreId} (e : EArgs) (hon : quadOn s (coreQuad k.val) = true) :
    exec (.readout k e) s = .next (readoutOp k.val e (fun _ => e.firstSet) s) := if_pos hon

theorem exec_tileRead_on {s : State} {k : CoreId} (e : EArgs) (hon : quadOn s (coreQuad k.val) = true) :
    exec (.tileRead k e) s = .next (readoutOp k.val e (fun g => !tileSet (coreGet s k.val) e.firstSet g) (tileOp k.val e e.firstSet s)) :=
  if_pos hon

/-- TILE on a setup that does not compute. -/
theorem tile_bad_runs {s : State} {k : CoreId} (e : EArgs) (hon : quadOn s (coreQuad k.val) = true)
    (h : setupBad (setupGet (coreGet s k.val) e.setup.val) = true) :
    Runs (.tile k e) s fun t => CoreOnly s t k ∧ ∀ g, g ∈ engines e →
      mget (coreGet t k.val).accs (accKey g (Claims.setOf s k e g)) = some (List.replicate 64 { nan := true, cells := List.replicate 32 0 })
      ∧ mget (coreGet t k.val).nextSet g = some (!Claims.setOf s k e g) := by
  refine ⟨_, (exec_tile_on e hon).trans (congrArg _ (tileOp_bad e.firstSet h)), ?_⟩
  have hdone := each_putRows_done k e.firstSet (l := (engines e).map fun g => (g, List.replicate 64 nanRow)) (by
    rw [List.map_map, show (Prod.fst ∘ fun g => (g, List.replicate 64 nanRow)) = id from rfl, List.map_id]
    exact engines_nodup e) s
  exact ⟨hdone.only, fun g hg => hdone.put (g, _) (List.mem_map.mpr ⟨g, hg, rfl⟩)⟩

/-- The rows that a tile on a legal setup puts. -/
theorem mem_tilePuts {k : Nat} {e : EArgs} {s : State} {i g : Nat} (h : (engines e)[i]? = some g) :
    (g, tileRows (setupGet (coreGet s k) e.setup.val) (tileReads k e s).1 (tileReads k e s).2.1
      (if bit (setupGet (coreGet s k) e.setup.val) 22 then 0 else i) i ((tileReads k e s).2.2.1.drop (64 * 32 * 16 * i))) ∈ tilePuts k e s := by
  obtain ⟨hi, hg⟩ := List.getElem?_eq_some_iff.mp h
  refine List.mem_map.mpr ⟨(i, g), ?_, rfl⟩
  rw [← hg]
  exact List.mem_iff_getElem.mpr ⟨i, by simpa using hi, by simp⟩

/-- TILE on a legal setup. -/
theorem tile_good_runs {s : State} {k : CoreId} (e : EArgs) (hon : quadOn s (coreQuad k.val) = true)
    (h : setupBad (setupGet (coreGet s k.val) e.setup.val) = false) :
    Runs (.tile k e) s fun t => (coreGet t k.val).flags = (coreGet s k.val).flags ∧ t.mem = s.mem ∧ ∀ i g, (engines e)[i]? = some g →
      mget (coreGet t k.val).accs (accKey g (Claims.setOf s k e g)) = some (tileRows (setupGet (coreGet s k.val) e.setup.val)
        (tileReads k.val e s).1 (tileReads k.val e s).2.1 (if bit (setupGet (coreGet s k.val) e.setup.val) 22 then 0 else i) i
        ((tileReads k.val e s).2.2.1.drop (64 * 32 * 16 * i)))
      ∧ mget (coreGet t k.val).nextSet g = some (!Claims.setOf s k e g) := by
  have hkept := tileOp_kept k e e.firstSet s
  refine ⟨_, exec_tile_on e hon, hkept.flags, hkept.mem, fun i g hi => ?_⟩
  have hdone := each_putRows_done k e.firstSet (l := tilePuts k.val e s) (by
    rw [tilePuts, List.map_map]
    exact (zip_range_map_snd (engines e)).symm ▸ engines_nodup e) (tileReads k.val e s).2.2.2
  obtain ⟨f, sl, hcore⟩ := (tileReads_opKept k.val e s).core
  have hset : tileSet (coreGet (tileReads k.val e s).2.2.2 k.val) e.firstSet g = Claims.setOf s k e g := by rw [hcore]; rfl
  have hput := hdone.put _ (mem_tilePuts hi)
  rw [← tileOp_good e.firstSet h] at hput
  dsimp only at hput
  rwa [hset] at hput

/-- What an idle slot's readout leaves, from the state before the tile. -/
theorem RowsIdle.of_tile {s u t : State} {k : CoreId} {e : EArgs} {w : BitVec 64} {rows : List AccRow} (hc : u.car = s.car) (hg : u.gate = s.gate)
    (hd : (aguSlot u k 1 e.bSlot.val).desc = (aguSlot s k 1 e.bSlot.val).desc) (h : RowsIdle u k e w rows t) :
    (coreGet t k.val).flags = (coreGet u k.val).flags |||
      orFlags (rows.map fun r => (rowBytes w none (slotPage s k.val (aguSlot s k 1 e.bSlot.val).desc) r).2) := by
  rw [h.flags, hd, slotPage_congr hc hg]

/-- Settles O7: the tile's puts go to distinct sets, and a readout is its rows one after another, each through the slot's next lines. -/
theorem tilesFillSetsAndReadoutsRaiseFlags : Obligations.TilesFillSetsAndReadoutsRaiseFlags := by
  intro k e s hon c w kb bc es acc rows idle
  refine ⟨tile_bad_runs e hon, fun hgood => ?_, fun hact => ⟨_, exec_readout_on e hon, readoutOp_readOut _ hact⟩, fun hact => ?_, fun u hu => ?_⟩
  · have htile := tile_good_runs e hon hgood
    obtain ⟨t, ht, hflags, hmem, hput⟩ := htile
    refine ⟨t, ht, ?_⟩
    extract_lets pre a b recs
    have hrecs : (tileReads k.val e s).2.2.1 = recs := apply_ite Prod.fst ..
    rw [hrecs] at hput
    exact ⟨hflags, hmem, hput⟩
  · have hidle := readoutOp_idle (fun _ => e.firstSet) hact
    exact ⟨_, exec_readout_on e hon, hidle.accs, hidle.mem, fun hes => hidle.fault (setRows_ne_nil hes), hidle.flags⟩
  · obtain rfl : tileOp k.val e e.firstSet s = u := Host.Outcome.next.inj ((exec_tile_on e hon).symm.trans hu)
    obtain ⟨hmem, hcar, hgate, hflags, hsetups, hslot, -⟩ := tileOp_kept k e e.firstSet s
    have hw : setupGet (coreGet (tileOp k.val e e.firstSet s) k.val) e.setup.val = w := by rw [setupGet, hsetups]; rfl
    have hrows := setRows_tileOp k e e.firstSet s
    obtain ⟨hdesc, hactive⟩ := hslot 1 e.bSlot.val
    refine ⟨fun hact => ⟨_, exec_tileRead_on e hon, ?_⟩, fun hact => ⟨_, exec_tileRead_on e hon, ?_⟩⟩
    · have hread := readoutOp_readOut (e := e) (fun g => !tileSet (coreGet s k.val) e.firstSet g) (hactive.trans hact)
      rw [hw, hrows] at hread
      exact hread
    · have hidle := readoutOp_idle (e := e) (fun g => !tileSet (coreGet s k.val) e.firstSet g) (hactive.trans hact)
      rw [hw, hrows] at hidle
      exact ⟨hidle.accs, hidle.mem, fun hes => hidle.fault (setRows_ne_nil hes), hidle.of_tile hcar hgate hdesc⟩

end Sys2Proof.Machine
end

section
/-! SUPPORT. Frames of what many commands end with: completions written to host rings, and payloads sent over the links. -/

namespace Sys2Proof.Machine

open Sys2Proof Sys2Proof.Claims

/-! ### Completion rings -/

/-- At most the request table and the backlogs, the requests to copy to a partner, the functions' rings and what is sent differ. -/
def ComplOnly (s t : State) : Prop :=
  t = { s with
    car := { s.car with reqs := t.car.reqs, backlog := t.car.backlog }
    pair := { s.pair with dirty := t.pair.dirty }
    pcie := { s.pcie with funcs := t.pcie.funcs }
    out := t.out }

theorem ComplOnly.refl (s : State) : ComplOnly s s := rfl

theorem ComplOnly.trans {s t u : State} (h : ComplOnly s t) (k : ComplOnly t u) : ComplOnly s u := by
  unfold ComplOnly at *
  rw [k, h]

theorem msixSend_complOnly (s : State) (f v : Nat) : ComplOnly s (msixSend s f v) := by
  unfold msixSend
  dsimp only
  split
  · exact rfl
  · exact rfl

theorem freeFinal_complOnly (s : State) (e : BitVec 256) : ComplOnly s (freeFinal s e) := by
  unfold freeFinal
  dsimp only
  split
  · exact rfl
  · split
    · exact rfl
    · exact rfl

theorem complWrite_complOnly (s : State) (f c : Nat) (e : BitVec 256) : ComplOnly s (complWrite s f c e) := by
  unfold complWrite
  extract_lets x q e n sent q' s₁ s₂ s₃
  have h₂ : ComplOnly s s₂ := rfl
  have h₃ : ComplOnly s₂ s₃ := by
    unfold s₃
    split
    · exact .refl _
    · exact freeFinal_complOnly ..
  split
  · exact (h₂.trans h₃).trans (msixSend_complOnly ..)
  · exact h₂.trans h₃

theorem complPush_complOnly (s : State) (f c : Nat) (e : BitVec 256) : ComplOnly s (complPush s f c e) := by
  unfold complPush
  dsimp only
  split
  · exact .refl s
  · split
    · split
      · exact .refl s
      · exact freeFinal_complOnly ..
    · split
      · exact rfl
      · exact complWrite_complOnly ..

theorem complTo_complOnly (s : State) (p ring : Nat) (c : Compl) : ComplOnly s (complTo s p ring c) := complPush_complOnly ..

/-! ### Links -/

/-- At most the fabric's state and what is sent differ. -/
def LinkOnly (s t : State) : Prop := t = { s with trl := t.trl, out := t.out }

theorem LinkOnly.refl (s : State) : LinkOnly s s := rfl

theorem LinkOnly.trans {s t u : State} (h : LinkOnly s t) (k : LinkOnly t u) : LinkOnly s u := by
  unfold LinkOnly at *
  rw [k, h]

theorem linkDrain_linkOnly (s : State) (p n : Nat) : LinkOnly s (linkDrain s p n) := by
  induction n generalizing s with
  | zero => exact .refl s
  | succ n ih =>
    unfold linkDrain
    dsimp only
    split
    · exact .refl s
    · split
      · exact .refl s
      · split
        · exact .refl s
        · refine LinkOnly.trans ?_ (ih _)
          exact rfl

theorem linksDrain_linkOnly (s : State) : LinkOnly s (linksDrain s) :=
  (linkDrain_linkOnly s 0 512).trans (linkDrain_linkOnly _ 1 512)

theorem pktGo_linkOnly (s : State) (q vc part : Nat) (pkt : Packet) : LinkOnly s (pktGo s q vc part pkt) := rfl

theorem pktOut_linkOnly (s : State) (dst g gen key part vc extra : Nat) (data : List Byte) (job : Option Nat) :
    LinkOnly s (pktOut s dst g gen key part vc extra data job) := by
  unfold pktOut
  dsimp only
  split
  · refine LinkOnly.trans ?_ (pktGo_linkOnly ..)
    exact rfl
  · exact rfl

theorem g63Pump_linkOnly (s : State) (n : Nat) : LinkOnly s (g63Pump s n) := by
  induction n generalizing s with
  | zero => exact .refl s
  | succ n ih =>
    unfold g63Pump
    split
    · split
      · refine LinkOnly.trans ?_ ((pktOut_linkOnly ..).trans (ih _))
        exact rfl
      · exact .refl s
    · exact .refl s

theorem g63Send_linkOnly (s : State) (o : Output) (bs : List Byte) : LinkOnly s (g63Send s o bs) := by
  unfold g63Send
  split
  · exact .refl s
  · refine LinkOnly.trans ?_ ((g63Pump_linkOnly ..).trans (linksDrain_linkOnly _))
    exact rfl

end Sys2Proof.Machine
end

section
/-! SUPPORT. O57 and O58: a step on an empty queue, and the state after reset (R387, log entry 2). -/

namespace Sys2Proof.Machine

open Sys2Proof Sys2Proof.Claims

/-! ### The parts of a cycle -/

/-- Of the pair, the requests, the rings and the links at most something differs. -/
def SnapOnly (s t : State) : Prop := t = { s with car := t.car, pair := t.pair, pcie := t.pcie, trl := t.trl, out := t.out }

theorem SnapOnly.refl (s : State) : SnapOnly s s := rfl

theorem SnapOnly.trans {s t u : State} (h : SnapOnly s t) (k : SnapOnly t u) : SnapOnly s u := by
  unfold SnapOnly at *
  rw [k, h]

theorem ComplOnly.snapOnly {s t : State} (h : ComplOnly s t) : SnapOnly s t := by
  unfold SnapOnly
  rw [h]

theorem LinkOnly.snapOnly {s t : State} (h : LinkOnly s t) : SnapOnly s t := by
  unfold SnapOnly
  rw [h]

theorem marksIssue_snapOnly (s : State) (counts : SMap W32) : SnapOnly s (marksIssue s counts) := by
  unfold marksIssue
  refine SnapOnly.trans ?_ (each_rel (R := SnapOnly) .refl .trans (fun s x => (complTo_complOnly ..).snapOnly) _ _)
  exact rfl

theorem snapDrop_snapOnly (s : State) : SnapOnly s (snapDrop s) := by
  unfold snapDrop
  split
  · exact rfl
  · exact rfl

theorem snapSend_snapOnly (s : State) : SnapOnly s (snapSend s) := by
  unfold snapSend
  extract_lets
  refine SnapOnly.trans ?_ (g63Send_linkOnly ..).snapOnly
  exact rfl

/-- A snapshot leaves clocks, power, memory and the dictionary. -/
theorem snapTake_snapOnly (s : State) : SnapOnly s (snapTake s) := by
  unfold snapTake
  dsimp only
  split
  · exact rfl
  · split
    · refine SnapOnly.trans ?_ (marksIssue_snapOnly ..)
      exact rfl
    · split
      · refine SnapOnly.trans ?_ ((snapDrop_snapOnly _).trans (snapSend_snapOnly _))
        exact rfl
      · exact rfl

/-- The end of a domain's halt changes sources of domains at most. -/
theorem haltEnd_domainsOnly (s : State) (n : Nat) : DomainsOnly s (haltEnd s n) := by
  unfold haltEnd
  split
  · exact .refl s
  · dsimp only
    split
    · exact .refl s
    · split
      · exact rfl
      · split
        · refine DomainsOnly.trans ?_ (domFollow_domainsOnly ..)
          exact rfl
        · exact rfl

/-- The keys, the drain and the clock state, and the ports, are all that the end of a cycle touches. -/
def CycleEnd (s t : State) : Prop := t = { s with gate := t.gate, tray := t.tray, trl := t.trl, out := t.out }

theorem CycleEnd.trans {s t u : State} (h : CycleEnd s t) (k : CycleEnd t u) : CycleEnd s u := by
  unfold CycleEnd at *
  rw [k, h]

theorem drainTick_cycleEnd (s : State) : CycleEnd s (drainTick s) := by
  unfold drainTick
  dsimp only
  split
  · exact rfl
  · exact rfl

theorem portTrain_cycleEnd (s : State) (p : Nat) : CycleEnd s (portTrain s p) := by
  unfold portTrain
  dsimp only
  split
  · exact rfl
  · exact rfl

/-! ### The timebase -/

theorem tbTick_still {c : ClockS} (h : c.slewing = false) : tbTick c = { c with timebase := c.timebase + 1, now := c.now + 1 } :=
  if_pos (.inl (by simp [h]))

/-- A cycle of the timebase passes one, none or two. -/
theorem tbTick_moves (c : ClockS) : ∃ d, d ≤ 2 ∧ (tbTick c).now = c.now + d ∧ (tbTick c).timebase = c.timebase + BitVec.ofNat 64 d := by
  unfold tbTick
  split
  · exact ⟨1, by omega, rfl, rfl⟩
  · split
    · exact ⟨1, by omega, rfl, rfl⟩
    · split
      · exact ⟨2, by omega, rfl, rfl⟩
      · exact ⟨0, by omega, rfl, by simp⟩

/-- What a cycle leaves: the clock as the timebase moved it, and memory, the queue and the fuses as they were. -/
theorem tick_frame (s : State) :
    let clk := if s.tray.hub.hubCommon && clkRuns s 0x26 then tbTick s.clk else { s.clk with now := s.clk.now + 1 }
    (tick s).mem = s.mem ∧ (tick s).pending = s.pending ∧ (tick s).fuses = s.fuses
    ∧ (tick s).clk.now = clk.now ∧ (tick s).clk.timebase = clk.timebase := by
  intro clk
  unfold tick
  extract_lets s₁ steps src clk₁ car s₂
  have h₁ : SnapOnly s s₁ := by
    unfold s₁
    split
    · exact snapTake_snapOnly s
    · exact .refl s
  have hclk : clk₁ = clk := by
    have hsame : s₁.clk = s.clk := by rw [h₁]
    have hruns : (s₁.tray.hub.hubCommon && clkRuns s₁ 0x26) = (s.tray.hub.hubCommon && clkRuns s 0x26) := by rw [h₁]; rfl
    show (if (s₁.tray.hub.hubCommon && clkRuns s₁ 0x26) = true then tbTick s₁.clk else { s₁.clk with now := s₁.clk.now + 1 }) = clk
    rw [hruns, hsame]
  have h₂ : DomainsOnly { s₁ with clk := clk₁, car := { s₁.car with steps := steps } } s₂ :=
    each_rel .refl .trans haltEnd_domainsOnly _ _
  have h₃ : CycleEnd s₂ (portTrain (portTrain (drainTick s₂) 0) 1) :=
    (drainTick_cycleEnd s₂).trans ((portTrain_cycleEnd _ 0).trans (portTrain_cycleEnd _ 1))
  rw [← hclk, h₃]
  dsimp only
  rw [h₂]
  dsimp only
  rw [h₁]
  exact ⟨rfl, rfl, rfl, rfl, rfl⟩

/-- Settles O57: of a cycle's parts only the timebase moves the clock, and none touches memory, the queue or the fuses. -/
theorem anIdleStepIsOneCycle : Obligations.AnIdleStepIsOneCycle := by
  intro s hidle
  obtain ⟨hmem, hpending, hfuses, hnow, htb⟩ := tick_frame s
  have hstep : step s = .next (tick s) := by rw [step, hidle]
  obtain ⟨d, hd, hdnow, hdtb⟩ := tbTick_moves s.clk
  refine ⟨tick s, hstep, hmem, hpending.trans hidle, hfuses, ?_⟩
  rw [hnow, htb]
  by_cases hruns : (s.tray.hub.hubCommon && clkRuns s 0x26) = true
  · rw [if_pos hruns, hdnow, hdtb]
    refine ⟨by omega, by omega, fun _ hslew => ?_, fun _ => ⟨d, hd, rfl, rfl⟩, fun h => absurd hruns (by simp [h])⟩
    rw [← hdnow, ← hdtb, tbTick_still hslew]
    exact ⟨rfl, rfl⟩
  · rw [if_neg hruns]
    refine ⟨Nat.le_succ _, Nat.le_succ _, fun h => absurd h hruns, fun h => absurd h hruns, fun _ => ⟨rfl, rfl⟩⟩

/-- Settles O58: each claim is the value that the initial state gives its field. -/
theorem resetLeavesTheTrayUnpowered : Obligations.ResetLeavesTheTrayUnpowered :=
  ⟨rfl, rfl, rfl, rfl, rfl, rfl, rfl, rfl, rfl, rfl, rfl, rfl, fun _ => rfl, fun _ _ => rfl⟩

end Sys2Proof.Machine
end

section
/-! SUPPORT. O9 and O10: the sequencer's operations and the fetch (R91, R100 to R103, R121 to R127). -/

namespace Sys2Proof.Machine

open Sys2Proof Sys2Proof.Claims

/-! ### Contexts and lanes -/

/-- Only the contexts of the sequencers differ. -/
def CtxsOnly (s t : State) : Prop := t = { s with seq := { s.seq with ctxs := t.seq.ctxs } }

/-- Only the lanes of the sequencers differ. -/
def LanesStateOnly (s t : State) : Prop := t = { s with seq := { s.seq with lanes := t.seq.lanes } }

theorem LanesStateOnly.refl (s : State) : LanesStateOnly s s := rfl

theorem LanesStateOnly.trans {s t u : State} (h : LanesStateOnly s t) (k : LanesStateOnly t u) : LanesStateOnly s u := by
  unfold LanesStateOnly at *
  rw [k, h]

theorem laneSet_lanesStateOnly (s : State) (l : Nat) (x : Lane) : LanesStateOnly s (laneSet s l x) := rfl

/-- One change for each of some lanes. -/
theorem each_laneSet {f : Nat → Lane → Lane} {l : List Nat} (hl : l.Nodup) (s : State) :
    let t := each l (fun s m => laneSet s m (f m (laneGet s m))) s
    LanesStateOnly s t ∧ (∀ m, m ∈ l → laneGet t m = f m (laneGet s m)) ∧ ∀ m, m ∉ l → laneGet t m = laneGet s m := by
  induction l generalizing s with
  | nil => exact ⟨rfl, fun m hm => absurd hm (by simp), fun _ _ => rfl⟩
  | cons a l ih =>
    obtain ⟨ha, hnodup⟩ := List.nodup_cons.mp hl
    obtain ⟨honly, hin, hout⟩ := ih hnodup (laneSet s a (f a (laneGet s a)))
    refine ⟨LanesStateOnly.trans (laneSet_lanesStateOnly ..) honly, fun m hm => ?_, fun m hm => ?_⟩
    · rcases List.mem_cons.mp hm with rfl | hm
      · exact (hout m ha).trans (laneGet_laneSet ..)
      · have hne : m ≠ a := fun h => ha (h ▸ hm)
        refine (hin m hm).trans ?_
        rw [laneGet_laneSet_ne _ _ hne]
    · obtain ⟨hne, hm⟩ := not_or.mp (fun h => hm (List.mem_cons.mpr h))
      exact (hout m hm).trans (laneGet_laneSet_ne _ _ hne)

theorem ctxLanes_nodup (s : State) (c : Nat) : (ctxLanes s c).Nodup := by
  unfold ctxLanes
  split
  · exact (List.nodup_range.filter _).map fun a b h => by omega
  · exact List.nodup_nil

/-- The lanes of a context follow from its mask. -/
theorem ctxLanes_of_some {s : State} {c : Nat} {x : Context} (h : mget s.seq.ctxs c = some x) :
    ctxLanes s c = (bitsOf 8 x.laneMask.toNat).map fun n => 8 * (c / 4) + n := by
  rw [ctxLanes, h]

/-- A context that holds a step is listed. -/
theorem ctx_listed {s : State} {c : Nat} (h : (ctxGet s c).step.isSome = true) : mget s.seq.ctxs c = some (ctxGet s c) := by
  unfold ctxGet mgetD at *
  cases hm : mget s.seq.ctxs c with
  | none =>
    rw [hm] at h
    exact absurd h (by decide)
  | some x => rfl

/-- A context's step ends early: its fault, and every lane of it stopped. -/
theorem ctxEnd_fires {s : State} {c : Nat} {code : Fin 5} (hstep : (ctxGet s c).step.isSome = true) (hfault : (ctxGet s c).fault = none)
    (hcode : code ≠ fcAbort) :
    ctxGet (ctxEnd s c code) c = { ctxGet s c with fault := some code, fetching := false, latch := none }
    ∧ (∀ l, l ∈ ctxLanes s c → laneGet (ctxEnd s c code) l = laneStop (laneGet s l))
    ∧ ∀ l, l ∉ ctxLanes s c → laneGet (ctxEnd s c code) l = laneGet s l := by
  have hrun : ¬ ((ctxGet s c).step.isNone || (ctxGet s c).fault.isSome) = true := by
    rw [Option.isSome_iff_exists] at hstep
    obtain ⟨d, hd⟩ := hstep
    simp [hd, hfault]
  let u := ctxSet s c { ctxGet s c with fault := some code, fetching := false, latch := none }
  have hlanes : ctxLanes u c = ctxLanes s c := by
    have hu : mget u.seq.ctxs c = some { ctxGet s c with fault := some code, fetching := false, latch := none } := mget_mset_same ..
    rw [ctxLanes_of_some (ctx_listed hstep), ctxLanes_of_some hu]
  have hend : ctxEnd s c code = each (ctxLanes s c) (fun s l => laneSet s l (laneStop (laneGet s l))) u := by
    rw [← hlanes]
    unfold ctxEnd
    dsimp only
    rw [if_neg hrun, if_neg hcode]
  obtain ⟨honly, hin, hout⟩ := each_laneSet (f := fun _ => laneStop) (ctxLanes_nodup s c) u
  rw [hend]
  refine ⟨?_, hin, hout⟩
  rw [honly]
  exact ctxGet_ctxSet ..

/-! ### Sequencer operations -/

/-- The operation that the latch names moves its context alone. -/
theorem seqResolve_runs {i : Instr} {c : Ctx} {s : State} {h : BitVec 128} {op : Nat} {f : Context → BitVec 128 → Context} {y : Context}
    (hi : exec i s = .next (seqResolve s c.val op f)) (hl : (ctxGet s c.val).latch = some h) (hop : seqop h = op)
    (hy : { f (ctxGet s c.val) h with latch := none } = { y with latch := none }) :
    Runs i s fun t => ctxGet t c.val = { y with latch := none } ∧ (∀ d, d ≠ c.val → ctxGet t d = ctxGet s d)
      ∧ t = { s with seq := { s.seq with ctxs := t.seq.ctxs } } := by
  have hres : seqResolve s c.val op f = ctxSet s c.val { y with latch := none } := by
    rw [seqResolve, hl]
    dsimp only
    rw [if_pos hop, hy]
  refine ⟨_, hi.trans (congrArg _ hres), ctxGet_ctxSet .., fun d hd => ctxGet_ctxSet_ne _ _ hd, rfl⟩

/-- Settles O9: each operation is the latch's change of its context. -/
theorem sequencerOperationsMoveTheContext : Obligations.SequencerOperationsMoveTheContext := by
  intro c s h hl x lvl trips left goes
  have htrips : tripCount x h = trips := rfl
  refine ⟨fun hop => seqResolve_runs rfl hl hop rfl, fun hop ht => seqResolve_runs rfl hl hop ?_, fun hop ht => seqResolve_runs rfl hl hop ?_,
    fun hop hn => seqResolve_runs rfl hl hop ?_, fun hop hn => seqResolve_runs rfl hl hop ?_, fun hop => seqResolve_runs rfl hl hop rfl,
    fun hop => seqResolve_runs rfl hl hop rfl, fun hop => seqResolve_runs rfl hl hop rfl, fun hop => seqResolve_runs rfl hl hop rfl⟩
  · dsimp only
    rw [htrips, if_neg ht]
  · dsimp only
    rw [htrips, if_pos ht, ht]
  · dsimp only
    rw [if_pos hn]
  · dsimp only
    have hzero : (ctxGet s c.val).loops.getD (fld h 103 101) 0 - 1 = 0 := hn
    rw [hzero, if_neg (not_not.mpr rfl)]

/-! ### Fetch -/

/-- Only the dictionary differs. -/
def PavOnly (s t : State) : Prop := t = { s with pav := t.pav }

theorem bundleCount_pavOnly (s : State) (c a : Nat) : PavOnly s (bundleCount s c a) := by
  unfold bundleCount
  dsimp only
  split
  · split
    · exact rfl
    · exact rfl
  · exact rfl

theorem slipNote_pavOnly (s : State) (c : Nat) : PavOnly s (slipNote s c) := by
  unfold slipNote
  dsimp only
  split
  · exact rfl
  · exact rfl

/-- The state in which a fetched bundle is judged: its lines counted, its context noted as the last of the die. -/
def fetchNoted (s : State) (d : Die) (c : Nat) : State :=
  let u := bundleCount s c (ctxGet s c).ptr
  { u with seq := { u.seq with lastFetched := mset u.seq.lastFetched d.val (c % 4) } }

/-- It differs in the dictionary and in the note alone. -/
theorem fetchNoted_eq (s : State) (d : Die) (c : Nat) :
    fetchNoted s d c = { s with
      seq := { s.seq with lastFetched := mset s.seq.lastFetched d.val (c % 4) }, pav := (fetchNoted s d c).pav } := by
  have h := bundleCount_pavOnly s c (ctxGet s c).ptr
  unfold fetchNoted
  dsimp only
  generalize bundleCount s c (ctxGet s c).ptr = u at h
  rw [h]

theorem exec_bundleFetch {d : Die} {s : State} {c : Nat} (h : fetchPick s d.val = some c) :
    let b := bundleRead s c (ctxGet s c).ptr
    exec (.bundleFetch d) s =
      if fld (bundleHead b) 127 124 ≠ 1 ∨ seqop (bundleHead b) > 6 then .next (ctxEnd (fetchNoted s d c) c fcImage)
      else .next (slipNote (ctxSet (pushSlices (fetchNoted s d c) c b) c { ctxGet (fetchNoted s d c) c with latch := some (bundleHead b) }) c) := by
  simp only [exec, execBundleFetch, h]
  rfl

/-- Settles O10: the fetch queues one slice on each of the context's lanes, and an illegal header is the context's early end. -/
theorem bundleFetchQueuesASliceOnEveryLane : Obligations.BundleFetchQueuesASliceOnEveryLane := by
  intro d s c hpick b h
  have hexec := exec_bundleFetch hpick
  have hnoted := fetchNoted_eq s d c
  generalize fetchNoted s d c = u at hexec hnoted
  have hctx : ctxGet u c = ctxGet s c := by rw [hnoted]; rfl
  have hlane (l : Nat) : laneGet u l = laneGet s l := by rw [hnoted]; rfl
  have hlanes : ctxLanes u c = ctxLanes s c := by rw [hnoted]; rfl
  refine ⟨fun hver hop => ⟨_, hexec.trans (if_neg (not_or.mpr ⟨not_not.mpr hver, Nat.not_lt.mpr hop⟩)), ?_⟩,
    fun hbad hstep hfault => ⟨_, hexec.trans (if_pos hbad), ?_⟩⟩
  · obtain ⟨honly, hin, hout⟩ := each_laneSet (f := fun l x => { x with queue := x.queue ++
      [{ idle := !(h.getLsbD (104 + l % 8)), bits := bundleLane b (l % 8), rep := fld h 119 112,
         pwr := BitVec.ofNat 8 (fld h 55 48), fence := seqop h == 6, stepEnd := seqop h == 5 }] }) (ctxLanes_nodup u c) u
    have hpush : pushSlices u c b = each (ctxLanes u c) (fun s l => laneSet s l { laneGet s l with queue := (laneGet s l).queue ++
      [{ idle := !(h.getLsbD (104 + l % 8)), bits := bundleLane b (l % 8), rep := fld h 119 112,
         pwr := BitVec.ofNat 8 (fld h 55 48), fence := seqop h == 6, stepEnd := seqop h == 5 }] }) u := rfl
    rw [← hpush] at honly hin hout
    generalize pushSlices u c b = v at honly hin hout
    rw [hctx]
    have hslip := slipNote_pavOnly (ctxSet v c { ctxGet s c with latch := some (bundleHead b) }) c
    generalize slipNote (ctxSet v c { ctxGet s c with latch := some (bundleHead b) }) c = t at hslip
    have hlanet (l : Nat) : laneGet t l = laneGet v l := by rw [hslip]; rfl
    refine ⟨?_, fun l hl => ?_, fun l hl => ?_, ?_, ?_, ?_, ?_⟩
    · rw [hslip]
      exact ctxGet_ctxSet ..
    · rw [hlanet, hin l (hlanes ▸ hl), hlane]
    · rw [hlanet, hout l (hlanes ▸ hl), hlane]
    · rw [hslip]
      show mget v.seq.lastFetched d.val = _
      rw [honly, hnoted]
      exact mget_mset_same ..
    · rw [hslip]
      show v.cores = _
      rw [honly, hnoted]
    · rw [hslip]
      show v.mem = _
      rw [honly, hnoted]
    · rw [hslip]
      show v.sync = _
      rw [honly, hnoted]
  · obtain ⟨hend, hstop, -⟩ := ctxEnd_fires (code := fcImage) (hctx ▸ hstep) (hctx ▸ hfault) (by decide)
    refine ⟨by rw [hend, hctx]; rfl, fun l hl => ?_⟩
    rw [hstop l (hlanes ▸ hl)]
    exact ⟨rfl, rfl, rfl⟩

end Sys2Proof.Machine
end

section
/-! SUPPORT. O11: waits, posts and beats of a lane, and the core word (R86, R100 to R119, R126, R127, R136). -/

namespace Sys2Proof.Machine

open Sys2Proof Sys2Proof.Claims

/-! ### Waits and posts -/

/-- A wait that holds: the target of its entry goes on by the amount, and both marks are set. -/
theorem laneWaitOp_met {s : State} {l : Nat} {sl : Slice} (hwait : (laneGet s l).waitDone = false)
    (hmet : (waitHolds s l sl && sbGet (laneGet s l) (slSbWait sl) == 0) = true) :
    let x := laneGet s l
    let we := slWaitEntry sl
    let t := laneWaitOp s l sl
    LaneBecomes s t l { x with
      waitDone := true, sbDone := true, targets := mset x.targets we (mgetD x.targets we 0 + BitVec.ofNat 32 (fld (syncEntry s l we) 95 80)) }
    ∧ t = { s with seq := t.seq } := by
  intro x we t
  have ht : t = laneSet (targetAdvance s l we) l { laneGet (targetAdvance s l we) l with waitDone := true, sbDone := true } := by
    unfold t laneWaitOp
    dsimp only
    rw [hwait, if_neg Bool.false_ne_true, if_pos hmet]
  rw [ht]
  refine ⟨⟨?_, fun m hm => ?_, rfl⟩, rfl⟩
  · rw [laneGet_laneSet, targetAdvance, laneGet_laneSet]
  · rw [laneGet_laneSet_ne _ _ hm, targetAdvance, laneGet_laneSet_ne _ _ hm]

theorem laneWaitOp_unmet {s : State} {l : Nat} {sl : Slice} (hwait : (laneGet s l).waitDone = false)
    (hmet : (waitHolds s l sl && sbGet (laneGet s l) (slSbWait sl) == 0) = false) : laneWaitOp s l sl = s := by
  unfold laneWaitOp
  dsimp only
  rw [hwait, if_neg Bool.false_ne_true, if_neg (by simp [hmet])]

/-- A command that is the wait of the next slice. -/
theorem laneWaitOp_runs {i : Instr} {s : State} {l : Clus} {sl : Slice} (hi : exec i s = .next (laneWaitOp s l.val sl))
    (hwait : (laneGet s l.val).waitDone = false) :
    let x := laneGet s l.val
    let we := slWaitEntry sl
    let met := waitOk (cntValue (cntGet s l.val (fld (syncEntry s l.val we) 107 99))) (mgetD x.targets we 0) && sbGet x (slSbWait sl) == 0
    (met = true → Runs i s fun t =>
      LaneBecomes s t l.val { x with
        waitDone := true, sbDone := true, targets := mset x.targets we (mgetD x.targets we 0 + BitVec.ofNat 32 (fld (syncEntry s l.val we) 95 80)) }
      ∧ t = { s with seq := t.seq })
    ∧ (met = false → Runs i s fun t => t = s) :=
  ⟨fun hmet => ⟨_, hi, laneWaitOp_met hwait hmet⟩, fun hmet => ⟨_, hi, laneWaitOp_unmet hwait hmet⟩⟩

/-- A due post is made, and is due no longer. -/
theorem lanePostOp_runs {i : Instr} {s : State} {l d : Clus} {sl : Slice} (hi : exec i s = .next (lanePostOp s l.val sl))
    (hdue : (laneGet s l.val).postDue = true) (hlast : (laneGet s l.val).beatsLeft ≤ 1)
    (hloc : clusOfLoc (fld (syncEntry s l.val (slPostEntry sl)) 127 108) = some d.val) (hon : clusOn s d.val = true)
    (hown : quadOwner s (clusQuad d.val) = quadOwner s (clusQuad l.val)) :
    let pe := syncEntry s l.val (slPostEntry sl)
    Runs i s fun t => LaneBecomes s t l.val { laneGet s l.val with postDue := false }
      ∧ cntValue (cntGet t d.val (fld pe 107 99)) = cntValue (cntGet s d.val (fld pe 107 99)) + BitVec.ofNat 32 (fld pe 95 80)
      ∧ t = { s with seq := t.seq, sync := t.sync } := by
  intro pe
  let u := laneSet s l.val { laneGet s l.val with postDue := false }
  have hentry : syncEntry u l.val (slPostEntry sl) = pe := by
    rw [syncEntry, laneGet_laneSet]
    rfl
  have hpost : lanePostOp s l.val sl = cntPost u (quadOwner u (clusQuad d.val)) d.val (fld pe 107 99) (BitVec.ofNat 32 (fld pe 95 80)) := by
    have hdo : ((laneGet s l.val).postDue && decide ((laneGet s l.val).beatsLeft ≤ 1)) = true := by simp [hdue, hlast]
    have howner : quadOwner u (clusQuad d.val) = quadOwner u (clusQuad l.val) := hown
    rw [lanePostOp, if_pos hdo, howner]
    show tablePost u l.val (slPostEntry sl) = _
    rw [tablePost, hentry]
    exact locPost_cluster u hloc _ _ _
  obtain ⟨honly, hval, -⟩ := cntPost_own (s := u) hon (fld pe 107 99) (BitVec.ofNat 32 (fld pe 95 80))
  refine ⟨_, hi.trans (congrArg _ hpost), ?_, hval, ?_⟩
  · rw [honly]
    exact ⟨laneGet_laneSet .., fun m hm => laneGet_laneSet_ne _ _ hm, rfl⟩
  · rw [honly]
    rfl

section
variable {s : State} {l : Clus} {sl : Slice}

theorem nextSlice_of_free {x : Lane} (hcur : x.cur = none) (hhead : x.queue.head? = some sl) : nextSlice x = some sl := by
  rw [nextSlice, hcur]
  exact hhead

theorem exec_laneWait (h : nextSlice (laneGet s l.val) = some sl) (hop : slSync sl = 1) :
    exec (.laneWait l) s = .next (laneWaitOp s l.val sl) := by
  simp only [exec, execLaneWait, h, hop, if_true]

theorem exec_laneWaitAndPost_free (hcur : (laneGet s l.val).cur = none) (hhead : (laneGet s l.val).queue.head? = some sl) (hop : slSync sl = 3) :
    exec (.laneWaitAndPost l) s = .next (laneWaitOp s l.val sl) := by
  simp only [exec, execLaneWaitAndPost, hcur, hhead, hop, if_true]

theorem exec_laneWaitAndPost_running (hcur : (laneGet s l.val).cur = some sl) (hop : slSync sl = 3) :
    exec (.laneWaitAndPost l) s = .next (lanePostOp s l.val sl) := by
  simp only [exec, execLaneWaitAndPost, hcur, hop, if_true]

theorem exec_lanePost (hcur : (laneGet s l.val).cur = some sl) (hop : slSync sl = 2) :
    exec (.lanePost l) s = .next (lanePostOp s l.val sl) := by
  simp only [exec, execLanePost, hcur, hop, if_true]

theorem exec_scoreboardWait (h : nextSlice (laneGet s l.val) = some sl) (hsb : slSbWait sl ≠ 0) :
    exec (.scoreboardWait l) s =
      if slSync sl % 2 = 1 then .next (laneWaitOp s l.val sl)
      else if sbGet (laneGet s l.val) (slSbWait sl) = 0 then .next (laneSet s l.val { laneGet s l.val with sbDone := true }) else .next s := by
  simp only [exec, execScoreboardWait, h, hsb, if_false]

end

theorem lanesWaitAndPost : LanesWaitAndPost := by
  intro l s sl x we pe holds met waited posted free
  have hnext (hfree : free) : nextSlice (laneGet s l.val) = some sl := nextSlice_of_free hfree.1 hfree.2
  refine ⟨fun hfree hwait hop => laneWaitOp_runs (exec_laneWait (hnext hfree) hop) hwait,
    fun hfree hwait hop => laneWaitOp_runs (exec_laneWaitAndPost_free hfree.1 hfree.2 hop) hwait,
    fun hfree hwait hop hsb => laneWaitOp_runs ((exec_scoreboardWait (hnext hfree) hsb).trans (if_pos hop)) hwait,
    fun hfree hop hsb => ?_,
    fun hcur hdue hlast hop d hloc hon hown => lanePostOp_runs (exec_lanePost hcur hop) hdue hlast hloc hon hown,
    fun hcur hdue hlast hop d hloc hon hown => lanePostOp_runs (exec_laneWaitAndPost_running hcur hop) hdue hlast hloc hon hown,
    fun hcur hlast hop => ⟨_, exec_lanePost hcur hop, ?_⟩⟩
  · have hexec := (exec_scoreboardWait (hnext hfree) hsb).trans (if_neg (by omega))
    refine ⟨fun hzero => ⟨_, hexec.trans (if_pos hzero), ?_⟩, fun hbusy => ⟨_, hexec.trans (if_neg hbusy), rfl⟩⟩
    exact ⟨⟨laneGet_laneSet .., fun m hm => laneGet_laneSet_ne _ _ hm, rfl⟩, rfl⟩
  · have hmore : ¬ ((laneGet s l.val).postDue && decide ((laneGet s l.val).beatsLeft ≤ 1)) = true := by
      rw [Bool.and_eq_true, decide_eq_true_iff]
      exact fun h => absurd h.2 (Nat.not_le.mpr hlast)
    rw [lanePostOp, if_neg hmore]

/-! ### Beats -/

section
variable {s : State} {l : Clus} {sl : Slice} {c : Nat} (hctx : laneCtx s l.val = some c) (hon : quadOn s (clusQuad l.val) = true)
  (hend : (laneGet s l.val).ended = false)
include hctx hon hend

/-- A beat boundary of a free lane. -/
theorem exec_begin_free (hcur : (laneGet s l.val).cur = none) (hhead : (laneGet s l.val).queue.head? = some sl) :
    exec (.laneBeginBundle l) s =
      .next (if ((sl.fence && !fenceOpen s c l.val) || !waitsDone (laneGet s l.val) sl) = true then s else laneStart l sl s) := by
  simp [exec, execLaneBeginBundle, hctx, hon, hend, hcur, laneNext, hhead]

/-- A beat boundary of a lane whose slice has beats left. -/
theorem exec_begin_repeat (hcur : (laneGet s l.val).cur = some sl) (hmore : 1 < (laneGet s l.val).beatsLeft) :
    exec (.laneBeginBundle l) s = .next (laneRepeat l sl s) := by
  simp [exec, execLaneBeginBundle, hctx, hon, hend, hcur, hmore]

/-- A beat boundary after the last beat of a slice. -/
theorem exec_begin_last (hcur : (laneGet s l.val).cur = some sl) (hlast : (laneGet s l.val).beatsLeft ≤ 1) :
    exec (.laneBeginBundle l) s = .next (laneNext l c (laneSet s l.val (laneFinish (laneGet s l.val)))) := by
  simp [exec, execLaneBeginBundle, hctx, hon, hend, hcur, Nat.not_lt.mpr hlast]

end

/-- The beats of issue gap that a slice has left. -/
def gapOf (s : State) (l : Nat) (sl : Slice) : Nat :=
  (laneGet s l).gapLeft.getD (if sl.pwr.toNat > (laneLimit s l).1 then (laneLimit s l).2 else 0)

theorem laneStart_gap {s : State} {l : Clus} {sl : Slice} (h : gapOf s l.val sl ≠ 0) :
    laneStart l sl s = laneSet s l.val { laneGet s l.val with gapLeft := some (gapOf s l.val sl - 1) } :=
  if_pos (Nat.pos_of_ne_zero h)

theorem laneStart_held {s : State} {l : Clus} {sl : Slice} (h : gapOf s l.val sl = 0) (hheld : beatHeld s l.val sl = true) :
    laneStart l sl s = s :=
  (if_neg (Nat.not_lt.mpr (Nat.le_zero.mpr h))).trans (if_pos hheld)

/-- A slice begun. -/
def begun (x : Lane) (sl : Slice) : Lane :=
  { x with queue := x.queue.tail, cur := some sl, beatsLeft := sl.rep + 1, gapLeft := none, waitDone := false, sbDone := false,
           postDue := decide (slSync sl ≥ 2) }

/-- The start of a slice: the lane takes it, and its first beat runs. -/
theorem laneStart_begins {s : State} {l : Clus} {sl : Slice} {c : Nat} (hctx : laneCtx s l.val = some c) (h : gapOf s l.val sl = 0)
    (hfree : beatHeld s l.val sl = false) :
    ∃ u, LaneBecomes s u l.val (begun (laneGet s l.val) sl) ∧ u = { s with seq := u.seq, pav := u.pav }
      ∧ laneStart l sl s = if sliceBad s l.val sl then laneFault (laneBeat l sl u) l.val 1 else laneBeat l sl u := by
  have hctx' : laneCtx (laneSet s l.val (begun (laneGet s l.val) sl)) l.val = some c := hctx
  have hslip := slipNote_pavOnly (laneSet s l.val (begun (laneGet s l.val) sl)) c
  refine ⟨slipNote (laneSet s l.val (begun (laneGet s l.val) sl)) c, ?_, ?_, ?_⟩
  · rw [hslip]
    exact ⟨laneGet_laneSet .., fun m hm => laneGet_laneSet_ne _ _ hm, rfl⟩
  · rw [hslip]
    rfl
  · have hbad : sliceBad (slipNote (laneSet s l.val (begun (laneGet s l.val) sl)) c) l.val sl = sliceBad s l.val sl := by
      rw [hslip]
      rfl
    have hgap : ¬ gapOf s l.val sl > 0 := Nat.not_lt.mpr (Nat.le_zero.mpr h)
    have hheld : ¬ beatHeld s l.val sl = true := by simp [hfree]
    refine ((if_neg hgap).trans (if_neg hheld) : laneStart l sl s = _).trans ?_
    simp only [begun] at hctx' hbad ⊢
    rw [hctx']
    dsimp only
    rw [hbad]
    rfl

theorem lanesBeginRepeatAndEnd : LanesBeginRepeatAndEnd := by
  intro l s sl c x gap open_ beat begun hctx hon hend
  refine ⟨fun hcur hhead => ?_, fun hcur hmore hfree => ?_, fun hcur hlast hpost hstep hsb => ?_⟩
  · have hexec := exec_begin_free hctx hon hend hcur hhead
    have hgo (hopen : open_) (hwaits : waitsDone x sl = true) :
        ¬ ((sl.fence && !fenceOpen s c l.val) || !waitsDone (laneGet s l.val) sl) = true := by
      rw [show waitsDone (laneGet s l.val) sl = true from hwaits]
      cases hf : sl.fence with
      | false => simp
      | true => simp [hopen hf]
    refine ⟨fun hopen hwaits hgap hfree => ?_, fun hopen hwaits hgap => ?_, fun hwaits => ?_, fun hgap hheld => ?_⟩
    · obtain ⟨u, hlane, honly, hstart⟩ := laneStart_begins hctx hgap hfree
      rw [if_neg (hgo hopen hwaits)] at hexec
      exact ⟨_, hexec, u, hlane, honly, hstart⟩
    · rw [if_neg (hgo hopen hwaits), laneStart_gap hgap] at hexec
      exact ⟨_, hexec, ⟨laneGet_laneSet .., fun m hm => laneGet_laneSet_ne _ _ hm, rfl⟩, rfl⟩
    · have hwait : waitsDone (laneGet s l.val) sl = false := hwaits
      rw [if_pos (by simp [hwait])] at hexec
      exact ⟨_, hexec, rfl⟩
    · rw [laneStart_held hgap hheld, ite_self] at hexec
      exact ⟨_, hexec, rfl⟩
  · have hrepeat : laneRepeat l sl s = laneBeat l sl (laneSet s l.val { x with beatsLeft := x.beatsLeft - 1 }) :=
      if_neg (by simp [hfree])
    exact ⟨_, (exec_begin_repeat hctx hon hend hcur hmore).trans (congrArg _ hrepeat), _,
      ⟨laneGet_laneSet .., fun m hm => laneGet_laneSet_ne _ _ hm, rfl⟩, rfl, rfl⟩
  · have hfinish : laneFinish (laneGet s l.val) = { x with cur := none, beatsLeft := 0, ended := true } := by
      have hcur : (laneGet s l.val).cur = some sl := hcur
      have hlast : ¬ (laneGet s l.val).beatsLeft > 1 := Nat.not_lt.mpr hlast
      have hpost : (laneGet s l.val).postDue = false := hpost
      have hsb : sbClear (laneGet s l.val) = true := hsb
      simp [laneFinish, hcur, hlast, hpost, hstep, hsb, x]
    have hnext (u : State) (hu : (laneGet u l.val).ended = true) : laneNext l c u = u := if_pos (by simp [hu])
    refine ⟨_, (exec_begin_last hctx hon hend hcur hlast).trans (congrArg _ (hnext _ ?_)), ?_⟩
    · rw [laneGet_laneSet, hfinish]
    · rw [hfinish]
      exact ⟨⟨laneGet_laneSet .., fun m hm => laneGet_laneSet_ne _ _ hm, rfl⟩, rfl⟩

end Sys2Proof.Machine
end

section
/-! SUPPORT. O11, last part: a core word does what the commands of its fields do (R113 to R119). -/

namespace Sys2Proof.Machine

open Sys2Proof Sys2Proof.Claims

/-- A command that completes leaves its state. -/
theorem exec_eq_resState (i : Instr) (s : State) : exec i s = .next (resState s (exec i s)) := by
  obtain ⟨t, ht, -⟩ := exec_keeps i s
  rw [ht]
  rfl

theorem nfld_eq (x hi lo : Nat) : nfld x hi lo = x / 2 ^ lo % 2 ^ (hi + 1 - lo) := by rw [nfld, Nat.shiftRight_eq_div_pow]

/-! ### Fields of a core word -/

/-- The fields of a core word that say what it does. -/
structure WordFields (w agu0 agu1 eng vec ld : Nat) : Prop where
  agu0 : nfld w 23 22 = agu0
  agu1 : nfld w 17 16 = agu1
  eng : nfld w 55 53 = eng
  vec : nfld w 39 38 = vec
  ld : nfld w 11 10 = ld

theorem aguField_none (k : CoreId) (a : Fin 2) (n : Nat) (s : State) : aguField k a 0 n s = s := rfl

section
variable (k : CoreId) (a : Fin 2) (n : Fin 16) (s : State)

theorem fin16_mod : (⟨n.val % 16, Nat.mod_lt _ (by decide)⟩ : Fin 16) = n := Fin.ext (Nat.mod_eq_of_lt n.isLt)

theorem aguField_start : aguField k a 1 n.val s = resState s (exec (.aguStart k a n) s) := by rw [aguField, fin16_mod]; rfl

theorem aguField_advance : aguField k a 2 n.val s = resState s (exec (.aguAdvance k a n) s) := by rw [aguField, fin16_mod]; rfl

theorem aguField_stop : aguField k a 3 n.val s = resState s (exec (.aguStop k a n) s) := by rw [aguField, fin16_mod]; rfl

end

/-- The slot and the count of a local DMA field. -/
theorem ldmaField_slot (k : CoreId) {w : Nat} {n : Fin 16} {c : Fin 8} (hn : nfld w 9 6 = n.val) (hc : nfld w 5 3 = c.val) (s : State) :
    (nfld w 11 10 = 1 → ldmaField k w s = resState s (exec (.localToCluster k n c) s))
    ∧ (nfld w 11 10 = 2 → ldmaField k w s = resState s (exec (.clusterToLocal k n c) s)) := by
  have hslot : (⟨nfld w 9 6 % 16, Nat.mod_lt _ (by decide)⟩ : Fin 16) = n := Fin.ext (by dsimp only; omega)
  have hcount : (⟨nfld w 5 3 % 8, Nat.mod_lt _ (by decide)⟩ : Fin 8) = c := Fin.ext (by dsimp only; omega)
  refine ⟨fun h => ?_, fun h => ?_⟩
  · rw [ldmaField, h, hslot, hcount]; rfl
  · rw [ldmaField, h, hslot, hcount]; rfl

theorem ldmaField_none {k : CoreId} {w : Nat} (h : nfld w 11 10 = 0) (s : State) : ldmaField k w s = s := by
  simp only [ldmaField, h]

theorem wordEntries_none {w : Nat} (h : nfld w 39 38 = 0) (c : Core) : wordEntries c w = [] := by
  simp [wordEntries, h]

/-- One entry of the vector operation table. -/
theorem wordEntries_one {w : Nat} {n : Fin 1024} (h : nfld w 39 38 = 1) (hcount : nfld w 37 35 = 0) (hfirst : nfld w 33 24 = n.val) (c : Core) :
    wordEntries c w = [mgetD c.vtable n.val 0] := by
  have hn := n.isLt
  simp [wordEntries, h, hcount, hfirst]

/-- A word without vector operations runs its engine operation alone. -/
theorem engineBeat_engine {k : CoreId} {w : Nat} (h : nfld w 39 38 = 0) (s : State) : engineBeat k w s = engineField k w s := by
  simp [engineBeat, wordEntries_none h]

theorem engineField_none {k : CoreId} {w : Nat} (h : nfld w 55 53 = 0) (s : State) : engineField k w s = s := by
  simp only [engineField, h]

/-- A word without an engine operation runs its vector operations alone. -/
theorem engineBeat_vector {k : CoreId} {w : Nat} (h : nfld w 55 53 = 0) (s : State) :
    engineBeat k w s = (wordEntries (coreGet s k.val) w).foldl (entryRun k) s := by
  simp [engineBeat, h, engineField_none h]

section
variable {k : CoreId} {w : Nat} (s : State)

theorem coreBeat_agu0 {op n : Nat} (h : WordFields w op 0 0 0 0 ∧ nfld w 21 18 = n) : coreBeat k w s = aguField k 0 op n s := by
  obtain ⟨h, hn⟩ := h
  rw [coreBeat, h.agu0, h.agu1, hn, aguField_none, engineBeat_engine h.vec, engineField_none h.eng, ldmaField_none h.ld]

theorem coreBeat_agu1 {op n : Nat} (h : WordFields w 0 op 0 0 0 ∧ nfld w 15 12 = n) : coreBeat k w s = aguField k 1 op n s := by
  obtain ⟨h, hn⟩ := h
  rw [coreBeat, h.agu0, h.agu1, hn, aguField_none, engineBeat_engine h.vec, engineField_none h.eng, ldmaField_none h.ld]

theorem coreBeat_engine {n : Nat} (h : WordFields w 0 0 n 0 0) : coreBeat k w s = engineField k w s := by
  rw [coreBeat, h.agu0, h.agu1, aguField_none, aguField_none, engineBeat_engine h.vec, ldmaField_none h.ld]

theorem coreBeat_vector {n : Nat} (h : WordFields w 0 0 0 n 0) :
    coreBeat k w s = (wordEntries (coreGet s k.val) w).foldl (entryRun k) s := by
  rw [coreBeat, h.agu0, h.agu1, aguField_none, aguField_none, engineBeat_vector h.eng, ldmaField_none h.ld]

theorem coreBeat_ldma {n : Nat} (h : WordFields w 0 0 0 0 n) : coreBeat k w s = ldmaField k w s := by
  rw [coreBeat, h.agu0, h.agu1, aguField_none, aguField_none, engineBeat_engine h.vec, engineField_none h.eng]

end

/-! ### Words of one field -/

theorem wordFields_agu0 {op : Nat} (hop : op < 4) (n : Fin 16) :
    WordFields (op * 2 ^ 22 + n.val * 2 ^ 18) op 0 0 0 0 ∧ nfld (op * 2 ^ 22 + n.val * 2 ^ 18) 21 18 = n.val := by
  refine ⟨⟨?_, ?_, ?_, ?_, ?_⟩, ?_⟩ <;> rw [nfld_eq] <;> omega

theorem wordFields_agu1 {op : Nat} (hop : op < 4) (n : Fin 16) :
    WordFields (op * 2 ^ 16 + n.val * 2 ^ 12) 0 op 0 0 0 ∧ nfld (op * 2 ^ 16 + n.val * 2 ^ 12) 15 12 = n.val := by
  refine ⟨⟨?_, ?_, ?_, ?_, ?_⟩, ?_⟩ <;> rw [nfld_eq] <;> omega

theorem wordFields_ldma {op : Nat} (hop : op < 4) (n : Fin 16) (c : Fin 8) :
    let w := op * 2 ^ 10 + n.val * 2 ^ 6 + c.val * 2 ^ 3
    WordFields w 0 0 0 0 op ∧ nfld w 9 6 = n.val ∧ nfld w 5 3 = c.val := by
  refine ⟨⟨?_, ?_, ?_, ?_, ?_⟩, ?_, ?_⟩ <;> rw [nfld_eq] <;> omega

theorem wordFields_vector (n : Fin 1024) :
    let w := 1 * 2 ^ 38 + n.val * 2 ^ 24
    WordFields w 0 0 0 1 0 ∧ nfld w 37 35 = 0 ∧ nfld w 33 24 = n.val := by
  refine ⟨⟨?_, ?_, ?_, ?_, ?_⟩, ?_, ?_⟩ <;> rw [nfld_eq] <;> omega

/-- A core word with the fields of an engine operation alone. -/
def engineWord (op : Nat) (e : EArgs) : Nat :=
  e.en.toNat * 2 ^ 56 + e.setup.val * 2 ^ 50 + e.firstSet.toNat * 2 ^ 49 + e.aSlot.val * 2 ^ 45 + e.bSlot.val * 2 ^ 41 + op * 2 ^ 53

theorem wordFields_engine {op : Nat} (hop : op < 4) (e : EArgs) : WordFields (engineWord op e) 0 0 op 0 0 := by
  have hen := e.en.isLt
  have hsetup := e.setup.isLt
  have ha := e.aSlot.isLt
  have hb := e.bSlot.isLt
  have hfirst := Bool.toNat_le e.firstSet
  refine ⟨?_, ?_, ?_, ?_, ?_⟩ <;> rw [nfld_eq, engineWord] <;> omega

theorem engineArgs_engineWord {op : Nat} (hop : op < 4) (e : EArgs) : engineArgs (engineWord op e) = e := by
  have hen := e.en.isLt
  have hsetup := e.setup.isLt
  have ha := e.aSlot.isLt
  have hb := e.bSlot.isLt
  have hfirst := Bool.toNat_le e.firstSet
  have hw : engineWord op e = e.en.toNat * 2 ^ 56 + e.setup.val * 2 ^ 50 + e.firstSet.toNat * 2 ^ 49 + e.aSlot.val * 2 ^ 45
    + e.bSlot.val * 2 ^ 41 + op * 2 ^ 53 := rfl
  generalize engineWord op e = w at hw
  have h1 : BitVec.ofNat 4 (nfld w 59 56) = e.en := by
    apply BitVec.eq_of_toNat_eq
    rw [BitVec.toNat_ofNat, nfld_eq]
    omega
  have h2 : nfld w 52 50 % 8 = e.setup.val := by
    rw [nfld_eq]
    omega
  have h3 : w.testBit 49 = e.firstSet := by
    rw [Nat.testBit_eq_decide_div_mod_eq]
    cases he : e.firstSet with
    | false =>
      rw [he, Bool.toNat_false] at hw
      rw [decide_eq_false_iff_not]
      omega
    | true =>
      rw [he, Bool.toNat_true] at hw
      rw [decide_eq_true_iff]
      omega
  have h4 : nfld w 48 45 % 16 = e.aSlot.val := by
    rw [nfld_eq]
    omega
  have h5 : nfld w 44 41 % 16 = e.bSlot.val := by
    rw [nfld_eq]
    omega
  simp only [engineArgs, h1, h2, h3, h4, h5]

/-! ### Vector table entries -/

/-- The opcode and the fields of a table entry. -/
theorem entry_fields {o : Nat} (ho : o < 256) (v : VArgs) :
    fld (BitVec.ofNat 64 (o * 2 ^ 56 + vargsNat v)) 63 56 = o ∧ entryArgs (BitVec.ofNat 64 (o * 2 ^ 56 + vargsNat v)) = v := by
  obtain ⟨vd, va, vb, vc, pred, pneg, imm⟩ := v
  have h1 := vd.isLt
  have h2 := va.isLt
  have h3 := vb.isLt
  have h4 := vc.isLt
  have h5 := pred.isLt
  have h6 := imm.isLt
  obtain ⟨b, hb, hneg⟩ : ∃ b : Nat, (if pneg then 2 ^ 32 else 0) = b * 2 ^ 32 ∧ b = pneg.toNat := by
    cases pneg <;> simp
  have hb' := Bool.toNat_le pneg
  have hx : (BitVec.ofNat 64 (o * 2 ^ 56 + vargsNat ⟨vd, va, vb, vc, pred, pneg, imm⟩)).toNat =
      o * 2 ^ 56 + (vd.val * 2 ^ 51 + va.val * 2 ^ 46 + vb.val * 2 ^ 41 + vc.val * 2 ^ 36 + pred.val * 2 ^ 33 + b * 2 ^ 32 + imm.toNat) := by
    rw [BitVec.toNat_ofNat, vargsNat, hb]
    dsimp only
    omega
  refine ⟨?_, ?_⟩
  · rw [fld, hx, nfld_eq]
    omega
  · simp only [entryArgs, fld, bit, BitVec.getLsbD, hx]
    congr 1
    · apply Fin.ext
      dsimp only
      rw [nfld_eq]
      omega
    · apply Fin.ext
      dsimp only
      rw [nfld_eq]
      omega
    · apply Fin.ext
      dsimp only
      rw [nfld_eq]
      omega
    · apply Fin.ext
      dsimp only
      rw [nfld_eq]
      omega
    · apply Fin.ext
      dsimp only
      rw [nfld_eq]
      omega
    · rw [Nat.testBit_eq_decide_div_mod_eq]
      cases pneg with
      | false => rw [decide_eq_false_iff_not]; simp only [Bool.toNat_false] at hneg; omega
      | true => rw [decide_eq_true_iff]; simp only [Bool.toNat_true] at hneg; omega
    · apply BitVec.eq_of_toNat_eq
      rw [BitVec.toNat_ofNat, nfld_eq]
      omega

/-- Every listed opcode is the operation of its command. -/
theorem vectorOp_opcodes {o : Nat × (CoreId → VArgs → Instr)} (ho : o ∈ opcodes) :
    o.1 < 256 ∧ vectorOp o.1 = some fun k v s => exec (o.2 k v) s := by
  simp only [opcodes, List.mem_cons, List.not_mem_nil, or_false] at ho
  rcases ho with rfl | rfl | rfl | rfl | rfl | rfl | rfl | rfl | rfl | rfl | rfl | rfl | rfl | rfl | rfl | rfl | rfl | rfl | rfl | rfl | rfl
    | rfl | rfl | rfl | rfl | rfl | rfl | rfl | rfl | rfl | rfl | rfl | rfl | rfl | rfl
  all_goals exact ⟨by decide, rfl⟩

/-- A table entry runs as the command of its opcode. -/
theorem entryRun_opcode {o : Nat × (CoreId → VArgs → Instr)} (ho : o ∈ opcodes) (k : CoreId) (v : VArgs) (s : State) :
    entryRun k s (BitVec.ofNat 64 (o.1 * 2 ^ 56 + vargsNat v)) = resState s (exec (o.2 k v) s) := by
  obtain ⟨hlt, hop⟩ := vectorOp_opcodes ho
  obtain ⟨hfld, hargs⟩ := entry_fields hlt v
  rw [entryRun, hfld, hop]
  dsimp only
  rw [hargs]

/-! ### Core words as commands -/

/-- A word that leaves what a command leaves does what the command does. -/
theorem exec_eq_coreBeat {k : CoreId} {w : Nat} {s : State} {i : Instr} (h : coreBeat k w s = resState s (exec i s)) :
    exec i s = .next (coreBeat k w s) := by
  rw [h]
  exact exec_eq_resState i s

theorem coreBeat_zero (k : CoreId) (s : State) : coreBeat k 0 s = s :=
  (coreBeat_agu0 (n := 0) s ⟨⟨rfl, rfl, rfl, rfl, rfl⟩, rfl⟩).trans (aguField_none k 0 0 s)

theorem coreBeat_slots (k : CoreId) (s : State) (n : Fin 16) :
    exec (.aguStart k 0 n) s = .next (coreBeat k (1 * 2 ^ 22 + n.val * 2 ^ 18) s)
    ∧ exec (.aguAdvance k 0 n) s = .next (coreBeat k (2 * 2 ^ 22 + n.val * 2 ^ 18) s)
    ∧ exec (.aguStop k 0 n) s = .next (coreBeat k (3 * 2 ^ 22 + n.val * 2 ^ 18) s)
    ∧ exec (.aguStart k 1 n) s = .next (coreBeat k (1 * 2 ^ 16 + n.val * 2 ^ 12) s)
    ∧ exec (.aguAdvance k 1 n) s = .next (coreBeat k (2 * 2 ^ 16 + n.val * 2 ^ 12) s)
    ∧ exec (.aguStop k 1 n) s = .next (coreBeat k (3 * 2 ^ 16 + n.val * 2 ^ 12) s) := by
  have h0 {op : Nat} (hop : op < 4) := coreBeat_agu0 (k := k) s (wordFields_agu0 hop n)
  have h1 {op : Nat} (hop : op < 4) := coreBeat_agu1 (k := k) s (wordFields_agu1 hop n)
  exact ⟨exec_eq_coreBeat ((h0 (by decide)).trans (aguField_start k 0 n s)), exec_eq_coreBeat ((h0 (by decide)).trans (aguField_advance k 0 n s)),
    exec_eq_coreBeat ((h0 (by decide)).trans (aguField_stop k 0 n s)), exec_eq_coreBeat ((h1 (by decide)).trans (aguField_start k 1 n s)),
    exec_eq_coreBeat ((h1 (by decide)).trans (aguField_advance k 1 n s)), exec_eq_coreBeat ((h1 (by decide)).trans (aguField_stop k 1 n s))⟩

theorem coreBeat_transfers (k : CoreId) (s : State) (n : Fin 16) (c : Fin 8) :
    exec (.localToCluster k n c) s = .next (coreBeat k (1 * 2 ^ 10 + n.val * 2 ^ 6 + c.val * 2 ^ 3) s)
    ∧ exec (.clusterToLocal k n c) s = .next (coreBeat k (2 * 2 ^ 10 + n.val * 2 ^ 6 + c.val * 2 ^ 3) s) := by
  refine ⟨exec_eq_coreBeat ?_, exec_eq_coreBeat ?_⟩
  · obtain ⟨hw, hn, hc⟩ := wordFields_ldma (op := 1) (by decide) n c
    exact (coreBeat_ldma s hw).trans ((ldmaField_slot k hn hc s).1 hw.ld)
  · obtain ⟨hw, hn, hc⟩ := wordFields_ldma (op := 2) (by decide) n c
    exact (coreBeat_ldma s hw).trans ((ldmaField_slot k hn hc s).2 hw.ld)

theorem coreBeat_operations (k : CoreId) (s : State) (e : EArgs) :
    exec (.tile k e) s = .next (coreBeat k (engineWord 1 e) s) ∧ exec (.readout k e) s = .next (coreBeat k (engineWord 2 e) s)
    ∧ exec (.tileRead k e) s = .next (coreBeat k (engineWord 3 e) s) := by
  have heng {op : Nat} (hop : op < 4) := coreBeat_engine (k := k) s (wordFields_engine hop e)
  have hfield {op : Nat} (hop : op < 4) := (wordFields_engine hop e).eng
  have hargs {op : Nat} (hop : op < 4) := engineArgs_engineWord hop e
  refine ⟨exec_eq_coreBeat ((heng (by decide)).trans ?_), exec_eq_coreBeat ((heng (by decide)).trans ?_),
    exec_eq_coreBeat ((heng (by decide)).trans ?_)⟩
  · simp only [engineField, hfield (show 1 < 4 by decide), hargs (show 1 < 4 by decide)]
    rfl
  · simp only [engineField, hfield (show 2 < 4 by decide), hargs (show 2 < 4 by decide)]
    rfl
  · simp only [engineField, hfield (show 3 < 4 by decide), hargs (show 3 < 4 by decide)]
    rfl

theorem coreBeat_entry {k : CoreId} {s : State} {n : Fin 1024} {o : Nat × (CoreId → VArgs → Instr)} {v : VArgs} (ho : o ∈ opcodes)
    (hentry : mgetD (coreGet s k.val).vtable n.val 0 = BitVec.ofNat 64 (o.1 * 2 ^ 56 + vargsNat v)) :
    exec (o.2 k v) s = .next (coreBeat k (1 * 2 ^ 38 + n.val * 2 ^ 24) s) := by
  obtain ⟨hw, hcount, hfirst⟩ := wordFields_vector n
  refine exec_eq_coreBeat ?_
  rw [coreBeat_vector s hw, wordEntries_one hw.vec hcount hfirst, hentry, List.foldl_cons, List.foldl_nil]
  exact entryRun_opcode ho k v s

theorem coreWordsActAsTheirCommands : CoreWordsActAsTheirCommands := by
  intro k s does
  refine ⟨coreBeat_zero k s, fun n => ?_, fun e => ?_, fun n o v ho hentry => coreBeat_entry ho hentry⟩
  · obtain ⟨h1, h2, h3, h4, h5, h6⟩ := coreBeat_slots k s n
    exact ⟨h1, h2, h3, h4, h5, h6, fun c => coreBeat_transfers k s n c⟩
  · have hword := coreBeat_operations k s e
    simp only [engineWord] at hword
    exact hword

/-- Settles O11. -/
theorem lanesWaitBeginAndPost : Obligations.LanesWaitBeginAndPost :=
  ⟨lanesWaitAndPost, lanesBeginRepeatAndEnd, coreWordsActAsTheirCommands⟩

end Sys2Proof.Machine
end

section
/-! SUPPORT. O12: the issue and the completion of cluster DMA descriptors (R84, R85, R110 to R112, R162). -/

namespace Sys2Proof.Machine

open Sys2Proof Sys2Proof.Claims

/-! ### Queues and page reads -/

/-- Only the queues of the DMA engines and the page reads in flight differ. -/
def QueuesOnly (s t : State) : Prop :=
  t = { s with dma := { s.dma with queues := t.dma.queues }, kv := { s.kv with inflight := t.kv.inflight } }

/-- A job issued joins the end of its engine's queue, and no other. -/
theorem jobIssue_queues (s : State) (k : Nat) (j : Job) :
    QueuesOnly s (jobIssue s k j) ∧ (∃ r, jobsOf (jobIssue s k j) k = jobsOf s k ++ [{ j with reads := r }])
    ∧ ∀ k', k' ≠ k → jobsOf (jobIssue s k j) k' = jobsOf s k' := by
  unfold jobIssue
  dsimp only
  split
  · exact ⟨rfl, ⟨_, mgetD_mset_same ..⟩, fun k' hk => mgetD_mset_ne _ _ _ hk⟩
  · exact ⟨rfl, ⟨_, mgetD_mset_same ..⟩, fun k' hk => mgetD_mset_ne _ _ _ hk⟩

/-! ### Issue -/

theorem partTouch_countsOnly (s : State) (part a n : Nat) : CountsOnly s (partTouch s part a n) := by
  refine each_rel (R := CountsOnly) .refl .trans (fun s l => ?_) _ s
  split
  · split
    · exact rfl
    · exact rfl
  · split
    · exact rfl
    · exact rfl
  · exact rfl

/-- A lane whose channel has issued a descriptor: the cursor goes on by a line, the scoreboard slot counts one more. -/
def issuedLane (x : Lane) (ch : Nat) (d : W512) : Lane :=
  let cur := mgetD x.cursors ch (0, 0)
  { x with cursors := mset x.cursors ch (cur.1 + 64, cur.2 - 1), sb := if dSb d = 0 then x.sb else mset x.sb (dSb d) (sbGet x (dSb d) + 1) }

section
variable {l : Clus} {ch : Fin 2} {s : State} {c : Ctx} {p : PartId} (hctx : laneCtx s l.val = some c.val)
  (hpart : (ctxGet s c.val).part = some p) (hon : quadOn s (clusQuad l.val) = true) (hstep : (ctxGet s c.val).step.isSome = true)
  (hend : (laneGet s l.val).ended = false) (hleft : (mgetD (laneGet s l.val).cursors ch.val (0, 0)).2 ≠ 0)
include hctx hpart hon hstep hend hleft

/-- The descriptor at the cursor, with its parameter substituted. -/
theorem cdmaNext_at : cdmaNext s l.val ch.val =
    some (psub (BitVec.ofNat 512 (partNat s p.val (mgetD (laneGet s l.val).cursors ch.val (0, 0)).1 64)) (ctxGet s c.val).params) := by
  have hsome : (ctxGet s c.val).step.isNone = false := by
    rw [Option.isNone_eq_false_iff]
    exact hstep
  simp [cdmaNext, hctx, hpart, hon, hsome, hend, hleft]

/-- What an issue leaves: the cursor moved, the scoreboard slot counted, the job queued. -/
theorem cdmaIssue_at :
    let x := laneGet s l.val
    let cur := mgetD x.cursors ch.val (0, 0)
    let d := psub (BitVec.ofNat 512 (partNat s p.val cur.1 64)) (ctxGet s c.val).params
    ∃ u, CountsOnly s u ∧ cdmaIssue l.val ch.val s =
      jobIssue (laneSet u l.val (issuedLane x ch.val d.1)) (2 * l.val + ch.val)
        { desc := d.1, part := some p, origin := .lane l c, run := (ctxGet s c.val).runs, empty := d.2 } := by
  intro x cur d
  have hcounts := partTouch_countsOnly s p.val cur.1 64
  refine ⟨_, hcounts, ?_⟩
  have hlane : laneGet (partTouch s p.val cur.1 64) l.val = laneGet s l.val := by rw [hcounts]; rfl
  have hl : (⟨l.val % 32, Nat.mod_lt _ (by decide)⟩ : Clus) = l := Fin.ext (Nat.mod_eq_of_lt l.isLt)
  have hc : (⟨c.val % 16, Nat.mod_lt _ (by decide)⟩ : Ctx) = c := Fin.ext (Nat.mod_eq_of_lt c.isLt)
  simp only [cdmaIssue, hctx, cdmaNext_at hctx hpart hon hstep hend hleft, hpart, Option.map_some, Option.getD_some, hl, hc]
  rw [hlane]
  rfl

theorem clusterDmaIssue_runs :
    let x := laneGet s l.val
    let cur := mgetD x.cursors ch.val (0, 0)
    let d := psub (BitVec.ofNat 512 (partNat s p.val cur.1 64)) (ctxGet s c.val).params
    let k := 2 * l.val + ch.val
    (dSb d.1 ≠ 0 → sbGet x (dSb d.1) = 255 → Runs (.clusterDmaIssue l ch) s fun t => t = s)
    ∧ ((dSb d.1 = 0 ∨ sbGet x (dSb d.1) ≠ 255) → Runs (.clusterDmaIssue l ch) s fun t =>
      (∃ j, jobsOf t k = jobsOf s k ++ [j] ∧ j.desc = d.1 ∧ j.empty = d.2 ∧ j.part = some p ∧ j.origin = .lane l c ∧ j.status = none)
      ∧ (∀ k', k' ≠ k → jobsOf t k' = jobsOf s k')
      ∧ mget (laneGet t l.val).cursors ch.val = some (cur.1 + 64, cur.2 - 1)
      ∧ (dSb d.1 ≠ 0 → sbGet (laneGet t l.val) (dSb d.1) = sbGet x (dSb d.1) + 1)
      ∧ t.mem = s.mem ∧ t.cores = s.cores) := by
  intro x cur d k
  have hfull : cdmaFull s l.val ch.val = (dSb d.1 != 0 && sbGet x (dSb d.1) == 255) := by
    rw [cdmaFull, cdmaNext_at hctx hpart hon hstep hend hleft]
  have hexec : exec (.clusterDmaIssue l ch) s = if cdmaFull s l.val ch.val then .next s else .next (cdmaIssue l.val ch.val s) := rfl
  refine ⟨fun hsb h255 => ⟨s, hexec.trans (if_pos ?_), rfl⟩, fun hroom => ?_⟩
  · rw [hfull]
    simp [hsb, h255]
  · obtain ⟨u, hcounts, hissue⟩ := cdmaIssue_at hctx hpart hon hstep hend hleft
    have hfree : ¬ cdmaFull s l.val ch.val = true := by
      rw [hfull, Bool.and_eq_true, bne_iff_ne, beq_iff_eq]
      exact fun h => hroom.elim h.1 fun hne => hne h.2
    refine ⟨_, hexec.trans ((if_neg hfree).trans (congrArg _ hissue)), ?_⟩
    dsimp only
    generalize hv : laneSet u l.val (issuedLane (laneGet s l.val) ch.val _) = v
    obtain ⟨honly, ⟨r, hjobs⟩, hothers⟩ := jobIssue_queues v (2 * l.val + ch.val)
      { desc := d.1, part := some p, origin := .lane l c, run := (ctxGet s c.val).runs, empty := d.2 }
    have hqueue (k' : Nat) : jobsOf v k' = jobsOf s k' := by rw [← hv, hcounts]; rfl
    have hlane : laneGet v l.val = issuedLane x ch.val d.1 := by
      rw [← hv]
      exact laneGet_laneSet ..
    refine ⟨⟨_, hjobs.trans (by rw [hqueue]), rfl, rfl, rfl, rfl, rfl⟩, fun k' hk => (hothers k' hk).trans (hqueue k'), ?_, fun hsb => ?_, ?_, ?_⟩
    · rw [honly]
      show mget (laneGet v l.val).cursors ch.val = _
      rw [hlane]
      exact mget_mset_same ..
    · rw [honly]
      show sbGet (laneGet v l.val) (dSb d.1) = _
      rw [hlane, sbGet, if_neg hsb, issuedLane]
      dsimp only
      rw [if_neg hsb]
      exact mgetD_mset_same ..
    · rw [honly, ← hv, hcounts]
      rfl
    · rw [honly, ← hv, hcounts]
      rfl

end

/-! ### Completion -/

/-- Only counters, the dictionary's values and the video sessions differ. -/
def PostOnly (s t : State) : Prop := t = { s with sync := t.sync, pav := { s.pav with vals := t.pav.vals }, zoe := t.zoe }

theorem releasePost_postOnly (s : State) (part sess : Nat) (amt : W32) : PostOnly s (releasePost s part sess amt) := by
  unfold releasePost
  dsimp only
  split
  · split
    · split
      · exact rfl
      · exact rfl
    · exact rfl
  · exact rfl

theorem cntPost_postOnly (s : State) (part c n : Nat) (amt : W32) : PostOnly s (cntPost s part c n amt) := by
  unfold cntPost
  dsimp only
  split
  · exact rfl
  · split
    · exact rfl
    · exact rfl

theorem locPost_postOnly (s : State) (part loc cnt : Nat) (amt : W32) : PostOnly s (locPost s part loc cnt amt) := by
  unfold locPost
  split
  · exact releasePost_postOnly ..
  · split
    · exact cntPost_postOnly ..
    · exact rfl

/-- A descriptor that ended well leaves its queue, posts, and counts its slot down. -/
theorem exec_descriptorComplete_ok {e : DmaEng} {s : State} {j : Job} {q : List Job} (hjobs : jobsOf s (engKey e) = j :: q)
    (hst : j.status = some 0) (hgcm : dGcm j.desc = false) (hstaged : j.staged = false) (hreads : j.reads.2 = 0) :
    exec (.descriptorComplete e) s = .next (jobReport (jobPost (jobsSet s (engKey e) q) j 0) j 0) := by
  have hexec : exec (.descriptorComplete e) s = .next (jobComplete s (engKey e) j 0) := by
    simp [exec, execDescriptorComplete, hjobs, headStatus, hst]
  have hcount (u : State) : jobCounters u (jobTag j) 0 = u := by
    unfold jobCounters
    split
    · rfl
    · rw [if_neg (by decide), if_neg (by decide)]
  rw [hexec]
  simp [jobComplete, releaseReads, hreads, hjobs, hgcm, hstaged, hcount]

/-- What the scoreboard of a lane gains from a completed descriptor. -/
theorem jobReport_lane {s : State} {j : Job} {c : Clus} {x : Ctx} (ho : j.origin = .lane c x) :
    jobReport s j 0 = if dSb j.desc = 0 ∨ (ctxGet s x.val).part ≠ j.part then s
      else laneSet s c.val { laneGet s c.val with sb := mset (laneGet s c.val).sb (dSb j.desc) (sbGet (laneGet s c.val) (dSb j.desc) - 1) } := by
  rw [jobReport, ho]
  dsimp only
  rw [if_pos (.inl rfl)]

/-- What a lane's job leaves when it is done. -/
structure LaneJobDone (c : Clus) (x : Ctx) (j : Job) (s t : State) : Prop where
  only : LanesStateOnly s t
  counted : (ctxGet s x.val).part = j.part → dSb j.desc ≠ 0 → sbGet (laneGet t c.val) (dSb j.desc) = sbGet (laneGet s c.val) (dSb j.desc) - 1
  kept : (ctxGet s x.val).part ≠ j.part ∨ dSb j.desc = 0 → t.seq = s.seq
  others : ∀ m, m ≠ c.val → laneGet t m = laneGet s m

theorem jobReport_laneJobDone {s : State} {j : Job} {c : Clus} {x : Ctx} (ho : j.origin = .lane c x) :
    LaneJobDone c x j s (jobReport s j 0) := by
  rw [jobReport_lane ho]
  split
  · next hskip => exact ⟨rfl, fun hpart hsb => absurd hskip (by simp [hpart, hsb]), fun _ => rfl, fun _ _ => rfl⟩
  · next hcount =>
    obtain ⟨hsb, hpart⟩ := not_or.mp hcount
    refine ⟨rfl, fun _ _ => ?_, fun h => absurd h (by simp [hsb, not_not.mp hpart]), fun m hm => laneGet_laneSet_ne _ _ hm⟩
    rw [laneGet_laneSet]
    exact (if_neg hsb).trans (mgetD_mset_same ..)

theorem descriptorComplete_runs {e : DmaEng} {s : State} {j : Job} {q : List Job} {c : Clus} {x : Ctx} (hjobs : jobsOf s (engKey e) = j :: q)
    (hst : j.status = some 0) (hgcm : dGcm j.desc = false) (hstaged : j.staged = false) (hreads : j.reads.2 = 0) (ho : j.origin = .lane c x) :
    let a := fld j.desc 194 186
    Runs (.descriptorComplete e) s fun t =>
      jobsOf t (engKey e) = q ∧ (∀ k, k ≠ engKey e → jobsOf t k = jobsOf s k)
      ∧ ((ctxGet s x.val).part = j.part → dSb j.desc ≠ 0 → sbGet (laneGet t c.val) (dSb j.desc) = sbGet (laneGet s c.val) (dSb j.desc) - 1)
      ∧ ((ctxGet s x.val).part ≠ j.part ∨ dSb j.desc = 0 → t.seq = s.seq)
      ∧ (∀ m, m ≠ c.val → laneGet t m = laneGet s m) ∧ t.mem = s.mem ∧ t.cores = s.cores
      ∧ (dSyncEn j.desc = false → t = { s with dma := t.dma, seq := { s.seq with lanes := t.seq.lanes } })
      ∧ ∀ d : Clus, dSyncEn j.desc = true → clusOfLoc (fld j.desc 214 195) = some d.val → clusOn s d.val = true → quadOwner s (clusQuad d.val) = jobTag j →
          cntValue (cntGet t d.val a) = cntValue (cntGet s d.val a) + BitVec.ofNat 32 (fld j.desc 185 170)
          ∧ ∀ i, i ≠ cntKey d.val a → mget t.sync i = mget s.sync i := by
  intro a
  refine ⟨_, exec_descriptorComplete_ok hjobs hst hgcm hstaged hreads, ?_⟩
  let u := jobsSet s (engKey e) q
  have hpost : PostOnly u (jobPost u j 0) := by
    unfold jobPost
    split
    · exact locPost_postOnly ..
    · exact rfl
  have hvalue (d : Clus) (hen : dSyncEn j.desc = true) (hloc : clusOfLoc (fld j.desc 214 195) = some d.val) (hon : clusOn s d.val = true)
      (hown : quadOwner s (clusQuad d.val) = jobTag j) :
      cntValue (cntGet (jobPost u j 0) d.val a) = cntValue (cntGet s d.val a) + BitVec.ofNat 32 (fld j.desc 185 170)
      ∧ ∀ i, i ≠ cntKey d.val a → mget (jobPost u j 0).sync i = mget s.sync i := by
    have hown' : quadOwner u (clusQuad d.val) = jobTag j := hown
    have hpost : jobPost u j 0 = cntPost u (quadOwner u (clusQuad d.val)) d.val a (BitVec.ofNat 32 (fld j.desc 185 170)) := by
      rw [jobPost, if_pos ⟨hen, by decide, by decide⟩, locPost_cluster u hloc, hown']
    obtain ⟨-, hval, hrest⟩ := cntPost_own (s := u) hon a (BitVec.ofNat 32 (fld j.desc 185 170))
    rw [hpost]
    exact ⟨hval, hrest⟩
  have hsilent (hen : dSyncEn j.desc = false) : jobPost u j 0 = u := by
    rw [jobPost, if_neg (by simp [hen])]
  show _ ∧ _
  generalize jobPost u j 0 = v at hpost hvalue hsilent
  obtain ⟨honly, hcounted, hkept, hothers⟩ := jobReport_laneJobDone (s := v) ho
  have hseq : v.seq = s.seq := by rw [hpost]; rfl
  have hctx : ctxGet v x.val = ctxGet s x.val := by rw [ctxGet, hseq]; rfl
  have hlane (m : Nat) : laneGet v m = laneGet s m := by rw [laneGet, hseq]; rfl
  rw [hctx, hlane] at hcounted
  rw [hctx, hseq] at hkept
  simp only [hlane] at hothers
  generalize jobReport v j 0 = t at honly hcounted hkept hothers
  have hqueue (k : Nat) : jobsOf t k = jobsOf u k := by rw [honly, hpost]; rfl
  refine ⟨(hqueue _).trans (mgetD_mset_same ..), fun k hk => (hqueue k).trans (mgetD_mset_ne _ _ _ hk), hcounted, hkept, hothers, ?_, ?_, ?_, ?_⟩
  · rw [honly, hpost]; rfl
  · rw [honly, hpost]; rfl
  · intro hen
    rw [honly, hsilent hen]
    rfl
  · intro d hen hloc hon hown
    have hsync : t.sync = v.sync := by rw [honly]
    obtain ⟨hval, hrest⟩ := hvalue d hen hloc hon hown
    rw [cntGet, hsync]
    exact ⟨hval, hrest⟩

/-- Settles O12: an issue queues one job and counts its slot; a completion takes the head off and counts it down. -/
theorem descriptorsIssueAndCompleteInOrder : Obligations.DescriptorsIssueAndCompleteInOrder :=
  ⟨fun _ _ _ _ _ hctx hpart hon hstep hend hleft => clusterDmaIssue_runs hctx hpart hon hstep hend hleft,
   fun _ _ _ _ _ _ hjobs hst hgcm hstaged hreads ho => descriptorComplete_runs hjobs hst hgcm hstaged hreads ho⟩

end Sys2Proof.Machine
end

section
/-! SUPPORT. O13: the lines of HBM that COPY, FILL and the page operations move (R139, R142, R150, R160, R162, R165). -/

namespace Sys2Proof.Machine

open Sys2Proof Sys2Proof.Claims

/-! ### Bytes of HBM written in order -/

/-- A map with bytes stored at several addresses, one after another. -/
def hbmPuts (m : List Host.Cell) (w : List (Nat × List Byte)) : List Host.Cell := w.foldl (fun m p => cellsPut m p.1 p.2) m

theorem hbmPuts_append (m : List Host.Cell) (v w : List (Nat × List Byte)) : hbmPuts m (v ++ w) = hbmPuts (hbmPuts m v) w :=
  List.foldl_append

/-- A byte that no write covers stays. -/
theorem mget_hbmPuts_ne {m : List Host.Cell} {w : List (Nat × List Byte)} {x : Nat} (h : ∀ p ∈ w, x < p.1 ∨ p.1 + p.2.length ≤ x) :
    mget (hbmPuts m w) x = mget m x := by
  induction w generalizing m with
  | nil => rfl
  | cons p w ih => exact (ih fun q hq => h q (by simp [hq])).trans (mget_cellsPut_ne (h p (by simp)))

/-- A byte reads as the last write that covers it. -/
theorem mget_hbmPuts_last {m : List Host.Cell} {v w : List (Nat × List Byte)} {p : Nat × List Byte} {j : Nat}
    (h : ∀ q ∈ w, p.1 + j < q.1 ∨ q.1 + q.2.length ≤ p.1 + j) (hj : j < p.2.length) :
    mget (hbmPuts m (v ++ p :: w)) (p.1 + j) = p.2[j]? := by
  rw [hbmPuts_append]
  exact (mget_hbmPuts_ne h).trans (mget_cellsPut_mem hj)

/-! ### What a transfer leaves -/

/-- Only bytes of HBM and the dictionary's values differ. -/
def MoveOnly (s t : State) : Prop := t = { s with mem := { s.mem with hbm := t.mem.hbm }, pav := { s.pav with vals := t.pav.vals } }

theorem MoveOnly.refl (s : State) : MoveOnly s s := rfl

theorem MoveOnly.trans {s t u : State} (h : MoveOnly s t) (k : MoveOnly t u) : MoveOnly s u := by
  unfold MoveOnly at *
  rw [k, h]

theorem CountsOnly.moveOnly {s t : State} (h : CountsOnly s t) : MoveOnly s t := by
  unfold MoveOnly
  rw [h]

section
variable {s t : State} (h : MoveOnly s t)
include h

theorem MoveOnly.placeOf (a : Nat) : placeOf t a = placeOf s a := by rw [h]; rfl

theorem MoveOnly.lineOk (p a : Nat) : lineOk t p a = lineOk s p a := by rw [h]; rfl

theorem MoveOnly.lineChecks (k p : Nat) (rd wr : List Nat) (pool : Bool) : lineChecks t k p rd wr pool = lineChecks s k p rd wr pool := by
  rw [h]; rfl

theorem MoveOnly.ownLine {p a : Nat} (ha : OwnLine s p a) : OwnLine t p a := by
  obtain ⟨hplace, hok⟩ := ha
  exact ⟨by rwa [h.placeOf], by rwa [h.lineOk]⟩

end

/-- The writes `w` of HBM, in order, and nothing else beside the dictionary's values. -/
structure Wrote (s t : State) (w : List (Nat × List Byte)) : Prop where
  only : MoveOnly s t
  hbm : t.mem.hbm = hbmPuts s.mem.hbm w

theorem Wrote.refl (s : State) : Wrote s s [] := ⟨rfl, rfl⟩

theorem Wrote.trans {s t u : State} {v w : List (Nat × List Byte)} (h : Wrote s t v) (k : Wrote t u w) : Wrote s u (v ++ w) :=
  ⟨h.only.trans k.only, by rw [k.hbm, h.hbm, hbmPuts_append]⟩

theorem CountsOnly.wrote {s t : State} (h : CountsOnly s t) : Wrote s t [] := ⟨h.moveOnly, by rw [h.mem]; rfl⟩

/-- A byte that no write covers stays, as HBM holds it and as a reader finds it. -/
theorem Wrote.byte_ne {s t : State} {w : List (Nat × List Byte)} (h : Wrote s t w) {x : Nat} (hx : ∀ p ∈ w, x < p.1 ∨ p.1 + p.2.length ≤ x) :
    hbmByte t x = hbmByte s x ∧ seenByte t x = seenByte s x := by
  have hmap : mget t.mem.hbm x = mget s.mem.hbm x := by rw [h.hbm, mget_hbmPuts_ne hx]
  have hbyte : hbmByte t x = hbmByte s x := by
    rw [hbmByte, hmap, h.only]
    rfl
  refine ⟨hbyte, ?_⟩
  have hrec : recWord t x = recWord s x := by rw [h.only]; rfl
  have hmeta : metaByte t x = metaByte s x := by rw [h.only]; rfl
  rw [seenByte, hrec, hmeta, hbyte]
  rfl

/-- A byte is what the last write that covers it left. -/
theorem Wrote.byte_last {s t : State} {v w : List (Nat × List Byte)} {p : Nat × List Byte} (h : Wrote s t (v ++ p :: w)) {j : Nat}
    (hj : j < p.2.length) (hlast : ∀ q ∈ w, p.1 + j < q.1 ∨ q.1 + q.2.length ≤ p.1 + j) : hbmByte t (p.1 + j) = p.2.getD j 0 := by
  rw [hbmByte, h.hbm, mget_hbmPuts_last hlast hj, List.getElem?_eq_getElem hj, Option.getD_some, List.getD_eq_getElem _ _ hj]

/-! ### Lines -/

/-- The writes of a transfer: each destination line with its 64 bytes. -/
def lineMoves (dst : List Nat) (f : Nat → Nat → Byte) : List (Nat × List Byte) :=
  (List.range dst.length).map fun i => (dst.getD i 0, (List.range 64).map (f i))

/-- Bytes outside the destination lines stay; each line holds what was written unless a later one lies over it. -/
theorem Wrote.lines {s t : State} {dst : List Nat} {f : Nat → Nat → Byte} (h : Wrote s t (lineMoves dst f)) :
    LinesOnly s t dst ∧ LinesHold t dst f := by
  refine ⟨fun a ha => (h.byte_ne fun p hp => ?_).1, fun i j hi hj hlast => ?_⟩
  · obtain ⟨i, hi, rfl⟩ := List.mem_map.mp hp
    have hmem : dst.getD i 0 ∈ dst := by
      rw [List.getD_eq_getElem _ _ (List.mem_range.mp hi)]
      exact List.getElem_mem _
    simpa using ha _ hmem
  · rw [lineMoves, range_split hi, List.map_append, List.map_cons] at h
    rw [h.byte_last (by simpa using hj)]
    · simp [hj]
    · intro q hq
      obtain ⟨n, hn, rfl⟩ := List.mem_map.mp hq
      obtain ⟨hlo, hhi⟩ := List.mem_range'_1.mp hn
      simpa using hlast n (by omega) (by omega)

/-- A line of a partition's own HBM is stored. -/
theorem lineStoreAt_own {s : State} {p a : Nat} (h : OwnLine s p a) (bs : List Byte) : lineStoreAt s p a bs = (hbmPut s a bs, false) := by
  obtain ⟨⟨d, off, hplace⟩, hok⟩ := h
  simp [lineStoreAt, hplace, hok]

/-- A line of a partition's own HBM is read. -/
theorem lineLoadAt_own {s : State} {p a : Nat} (h : OwnLine s p a) : lineLoadAt s p [] a = ({ bytes := seenBytes s a 64 }, s) := by
  obtain ⟨⟨d, off, hplace⟩, hok⟩ := h
  simp [lineLoadAt, hplace, hok]

theorem hbmPut_wrote (s : State) (a : Nat) (bs : List Byte) : Wrote s (hbmPut s a bs) [(a, bs)] := ⟨rfl, rfl⟩

/-- Own lines are all read. -/
theorem loadLines_own {s : State} {p : Nat} {as : List Nat} (h : ∀ a ∈ as, OwnLine s p a) :
    loadLines s p [] as = (as.map fun a => { bytes := seenBytes s a 64 }, s) := by
  have hfold (got : List LineGot) : as.foldl (fun (acc : List LineGot × State) a =>
      let (g, s) := lineLoadAt acc.2 p [] a
      (acc.1 ++ [g], s)) (got, s) = (got ++ as.map fun a => { bytes := seenBytes s a 64 }, s) := by
    induction as generalizing got with
    | nil => simp
    | cons a as ih =>
      rw [List.foldl_cons, lineLoadAt_own (h a (by simp))]
      exact (ih (fun b hb => h b (by simp [hb])) _).trans (by simp)
  exact (hfold []).trans (by simp)

/-- Own lines are all written, and none is lost. -/
theorem storeLines_own {s : State} {p : Nat} {w : List (Nat × List Byte)} (h : ∀ x ∈ w, OwnLine s p x.1) :
    (storeLines s p (w.map fun x => (x.1, some x.2))).2 = [] ∧ Wrote s (storeLines s p (w.map fun x => (x.1, some x.2))).1 w := by
  have hfold (u : State) (hu : MoveOnly s u) : ∃ t, Wrote u t w ∧ (w.map fun x => (x.1, some x.2)).foldl (fun (acc : State × List Nat) p' =>
      match p'.2 with
      | none => acc
      | some bs =>
        let (s, bad) := lineStoreAt acc.1 p p'.1 bs
        (s, if bad then acc.2 ++ [p'.1] else acc.2)) (u, []) = (t, []) := by
    induction w generalizing u with
    | nil => exact ⟨u, .refl u, rfl⟩
    | cons x w ih =>
      have hput := hbmPut_wrote u x.1 x.2
      obtain ⟨t, ht, hrest⟩ := ih (fun y hy => h y (by simp [hy])) (hbmPut u x.1 x.2) (hu.trans hput.only)
      refine ⟨t, hput.trans ht, ?_⟩
      rw [List.map_cons, List.foldl_cons]
      dsimp only
      rw [lineStoreAt_own (hu.ownLine (h x (by simp)))]
      exact hrest
  obtain ⟨t, ht, hstore⟩ := hfold s (.refl s)
  have hstore : storeLines s p (w.map fun x => (x.1, some x.2)) = (t, []) := hstore
  rw [hstore]
  exact ⟨rfl, ht⟩

/-- Lines moved as they are, between own lines of HBM. -/
theorem moveLines_own {s : State} {p : Nat} {d : W512} {src dst : List Nat} (hcmp : dCmp d = 0) (hlen : src.length = dst.length)
    (hsrc : ∀ a ∈ src, OwnLine s p a) (hdst : ∀ a ∈ dst, OwnLine s p a) :
    Wrote s (moveLines s p d [] src dst).1 (lineMoves dst fun n b => seenByte s (src.getD n 0 + b))
    ∧ (moveLines s p d [] src dst).2.changed = 0 ∧ (moveLines s p d [] src dst).2.ues = [] := by
  have hzip : dst.zip (src.map fun a => some (seenBytes s a 64)) =
      (lineMoves dst fun n b => seenByte s (src.getD n 0 + b)).map fun x => (x.1, some x.2) := by
    refine List.ext_getElem (by simp [lineMoves, hlen]) fun n hn hn' => ?_
    have hns : n < src.length := by simp at hn; omega
    have hnd : n < dst.length := by simp at hn; omega
    simp [lineMoves, hns, hnd, seenBytes]
  have hown : ∀ x ∈ lineMoves dst fun n b => seenByte s (src.getD n 0 + b), OwnLine s p x.1 := by
    intro x hx
    obtain ⟨n, hn, rfl⟩ := List.mem_map.mp hx
    have hn := List.mem_range.mp hn
    refine hdst _ ?_
    rw [List.getD_eq_getElem _ _ hn]
    exact List.getElem_mem _
  obtain ⟨hlost, hwrote⟩ := storeLines_own hown
  have hstate : (moveLines s p d [] src dst).1 =
      (storeLines s p ((lineMoves dst fun n b => seenByte s (src.getD n 0 + b)).map fun x => (x.1, some x.2))).1 := by
    rw [← hzip]
    simp only [moveLines, loadLines_own hsrc, hcmp, if_true, List.map_map]
    rfl
  refine ⟨hstate ▸ hwrote, ?_, ?_⟩
  · have hlost' : (storeLines s p (dst.zip (src.map fun a => some (seenBytes s a 64)))).2 = [] := by rw [hzip]; exact hlost
    simp only [moveLines, loadLines_own hsrc, hcmp, if_true, List.map_map]
    have hnone : ((src.map fun a => ({ bytes := seenBytes s a 64 } : LineGot)).filter (·.changed)).length = 0 := by
      simp
    rw [hnone]
    show 0 + (storeLines s p (dst.zip (src.map fun a => some (seenBytes s a 64)))).2.length = 0
    rw [hlost']
    rfl
  · simp only [moveLines, loadLines_own hsrc, hcmp, if_true]
    rw [List.filterMap_eq_nil_iff]
    intro x hx
    obtain ⟨-, hx⟩ := List.of_mem_zip hx
    obtain ⟨a, -, hg⟩ := List.mem_map.mp hx
    rw [← hg]
    rfl

/-- A fill of own lines of HBM. -/
theorem moveFill_own {s : State} {p : Nat} {d : W512} (hdst : ∀ a ∈ sideLines d true, OwnLine s p a) :
    Wrote s (moveFill s p d).1 (lineMoves (sideLines d true) fun _ b => BitVec.ofNat 8 (dFill d >>> (8 * (b % 4))))
    ∧ (moveFill s p d).2.changed = 0 ∧ (moveFill s p d).2.ues = [] := by
  let w := lineMoves (sideLines d true) fun _ b => BitVec.ofNat 8 (dFill d >>> (8 * (b % 4)))
  have hmap : ((sideLines d true).map fun a => (a, some (fillBytes d 64))) = w.map fun x => (x.1, some x.2) := by
    refine List.ext_getElem (by simp [w, lineMoves]) fun n hn hn' => ?_
    have hnd : n < (sideLines d true).length := by simpa using hn
    simp [w, lineMoves, hnd, fillBytes]
  have hown : ∀ x ∈ w, OwnLine s p x.1 := by
    intro x hx
    obtain ⟨n, hn, rfl⟩ := List.mem_map.mp hx
    have hn := List.mem_range.mp hn
    refine hdst _ ?_
    rw [List.getD_eq_getElem _ _ hn]
    exact List.getElem_mem _
  obtain ⟨hlost, hwrote⟩ := storeLines_own hown
  rw [← hmap] at hlost hwrote
  refine ⟨hwrote, ?_, rfl⟩
  show (storeLines s p ((sideLines d true).map fun a => (a, some (fillBytes d 64)))).2.length = 0
  rw [hlost]
  rfl

/-! ### The end of a transfer -/

/-- What gives a job its status leaves memory, the cores, power and the host reads outstanding. -/
def EndOnly (s t : State) : Prop :=
  t = { s with seq := t.seq, cvu := t.cvu, kv := { s.kv with inflight := t.kv.inflight }, dma := { s.dma with queues := t.dma.queues }, pav := { s.pav with vals := t.pav.vals } }

theorem EndOnly.hbmByte {s t : State} (h : EndOnly s t) (a : Nat) : hbmByte t a = hbmByte s a := by rw [h]; rfl

theorem EndOnly.mem {s t : State} (h : EndOnly s t) : t.mem = s.mem := by rw [h]

theorem foldJob_queues (s : State) (k : Nat) (j : Job) (bs : List Byte) :
    EndOnly s (foldJob s k j bs) ∧ (foldJob s k j bs).dma = s.dma := by
  unfold foldJob
  split
  · exact ⟨rfl, rfl⟩
  · split
    · dsimp only
      split
      · split
        · exact ⟨rfl, rfl⟩
        · exact ⟨rfl, rfl⟩
      · exact ⟨rfl, rfl⟩
    · exact ⟨rfl, rfl⟩
    · exact ⟨rfl, rfl⟩

/-- The job at a place of a queue takes a status. -/
theorem jobDone_status {s : State} {k i : Nat} (j : Job) (st : Fin 11) (hi : i < (jobsOf s k).length) :
    EndOnly s (jobDone s k i j st) ∧ (jobsOf (jobDone s k i j st) k)[i]?.map Job.status = some (some st) := by
  have hrel : EndOnly s (releaseReads s j) ∧ (releaseReads s j).dma = s.dma := by
    unfold releaseReads
    split
    · exact ⟨rfl, rfl⟩
    · exact ⟨rfl, rfl⟩
  obtain ⟨honly, hdma⟩ := hrel
  unfold jobDone
  dsimp only
  generalize releaseReads s j = u at *
  have hqueue : jobsOf u k = jobsOf s k := by rw [jobsOf, hdma]; rfl
  refine ⟨?_, ?_⟩
  · unfold EndOnly at *
    rw [honly]
    rfl
  · rw [show jobsOf (jobsSet u k ((jobsOf u k).set i { j with status := some st, reads := (0, 0), hostData := none })) k =
      (jobsOf u k).set i { j with status := some st, reads := (0, 0), hostData := none } from mgetD_mset_same .., hqueue]
    simp [hi]

theorem EndOnly.trans {s t u : State} (h : EndOnly s t) (k : EndOnly t u) : EndOnly s u := by
  unfold EndOnly at *
  rw [k, h]

/-- A transfer that met no unreadable line ends with its status. -/
theorem moveEnd_status {s : State} {k i : Nat} {j : Job} {m : Moved} (st : Fin 11) (inj : Bool) (hues : m.ues = [])
    (hi : i < (jobsOf s k).length) :
    EndOnly s (moveEnd s k i j m st inj) ∧ (jobsOf (moveEnd s k i j m st inj) k)[i]?.map Job.status = some (some st) := by
  unfold moveEnd
  rw [hues]
  extract_lets p u v
  have hv : EndOnly s v ∧ v.dma = s.dma := by
    unfold v
    split
    · exact ⟨rfl, rfl⟩
    · exact ⟨rfl, rfl⟩
  obtain ⟨hfold, hdma⟩ := foldJob_queues v k j m.bytes
  have hlen : i < (jobsOf (foldJob v k j m.bytes) k).length := by
    rw [jobsOf, hdma, hv.2]
    exact hi
  obtain ⟨hdone, hst⟩ := jobDone_status (s := foldJob v k j m.bytes) j st hlen
  exact ⟨(hv.1.trans hfold).trans hdone, hst⟩

/-- A job that ends without a transfer. -/
theorem jobFail_status {s : State} {k i : Nat} (j : Job) (st : Fin 11) (hi : i < (jobsOf s k).length) :
    EndOnly s (jobFail s k i j st) ∧ (jobsOf (jobFail s k i j st) k)[i]?.map Job.status = some (some st) := by
  have hfold : EndOnly s (if st = stFormat then s else foldJob s k j []) ∧ (if st = stFormat then s else foldJob s k j []).dma = s.dma := by
    split
    · exact ⟨rfl, rfl⟩
    · exact foldJob_queues s k j []
  unfold jobFail
  generalize (if st = stFormat then s else foldJob s k j []) = u at *
  obtain ⟨honly, hdma⟩ := hfold
  have hlen : i < (jobsOf u k).length := by
    rw [jobsOf, hdma]
    exact hi
  obtain ⟨hdone, hst⟩ := jobDone_status (s := u) j st hlen
  exact ⟨honly.trans hdone, hst⟩

/-! ### Engines -/

/-- The next job stands at its place of the queue. -/
theorem nextJob_get {s : State} {k i : Nat} {j : Job} (h : nextJob s k = some (i, j)) : i < (jobsOf s k).length ∧ (jobsOf s k)[i]? = some j := by
  unfold nextJob at h
  obtain ⟨⟨x, n⟩, hfind, hx⟩ := Option.map_eq_some_iff.mp h
  obtain ⟨rfl, rfl⟩ := Prod.mk.inj hx
  have hget := List.mem_zipIdx_iff_getElem?.mp (List.mem_of_find?_eq_some hfind)
  exact ⟨(List.getElem?_eq_some_iff.mp hget).1, hget⟩

/-- An engine runs its next job. -/
theorem engRun_next {s : State} {e : DmaEng} {i : Nat} {j : Job} (h : Next s e i j) {op : Nat} {gcm : Bool} (hop : dOp j.desc = op)
    (hgcm : dGcm j.desc = gcm) (go : State → Nat → Nat → Job → State) : engRun s e op gcm go = go s (engKey e) i j := by
  obtain ⟨hon, hnext, hfields, hempty⟩ := h
  have hfields : fieldChecks (engKey e) j = stOk := hfields
  simp [engRun, hon, hnext, hop, hgcm, hfields, hempty]

theorem Wrote.sram {s t : State} {w : List (Nat × List Byte)} (h : Wrote s t w) : t.mem.sram = s.mem.sram := by rw [h.only]

theorem Wrote.dma {s t : State} {w : List (Nat × List Byte)} (h : Wrote s t w) : t.dma = s.dma := by rw [h.only]

/-- A transfer that wrote own lines, then ended with OK. -/
theorem Wrote.ends {s u : State} {k i : Nat} {j : Job} {m : Moved} {dst : List Nat} {f : Nat → Nat → Byte} (h : Wrote s u (lineMoves dst f))
    (hues : m.ues = []) (hi : i < (jobsOf s k).length) (st : Fin 11) :
    let t := moveEnd u k i j m st false
    (jobsOf t k)[i]?.map Job.status = some (some st) ∧ t.mem.sram = s.mem.sram ∧ t.mem.granules = s.mem.granules
    ∧ LinesOnly s t dst ∧ LinesHold t dst f := by
  have hlen : i < (jobsOf u k).length := by
    rw [jobsOf, h.dma]
    exact hi
  obtain ⟨hend, hst⟩ := moveEnd_status (j := j) (m := m) st false hues hlen
  obtain ⟨honly, hhold⟩ := h.lines
  refine ⟨hst, by rw [hend.mem, h.sram], by rw [hend.mem, h.only], fun a ha => ?_, fun n b hn hb hlast => ?_⟩
  · rw [hend.hbmByte, honly a ha]
  · rw [hend.hbmByte, hhold n b hn hb hlast]

theorem sideLines_length {d : W512} (h : dCmp d = 0) : (sideLines d false).length = (sideLines d true).length := by
  simp [sideLines, sideRows, h, List.length_flatMap]

theorem copyAndFillMoveLines : CopyAndFillMoveLines := by
  intro e s i j hnext k p src dst done hgcm hdsp hissue hdst
  obtain ⟨hi, -⟩ := nextJob_get hnext.2.1
  refine ⟨fun hop hssp hcmp hsrc => ?_, fun hop => ?_⟩
  · obtain ⟨hwrote, hchanged, hues⟩ := moveLines_own hcmp (sideLines_length hcmp) hsrc hdst
    have hexec : exec (.copy e []) s = .next (copyRun s k i j [] false) := congrArg _ (engRun_next hnext hop hgcm _)
    have hok : (if j.hostTag.isSome then stOk else issueStatus s k j) = stOk := by
      split
      · rfl
      · exact hissue
    have hrun : copyRun s k i j [] false = moveEnd (moveLines s p j.desc [] src dst).1 k i j (moveLines s p j.desc [] src dst).2 0 false := by
      simp only [copyRun, hok, hssp, hdsp]
      simp [hchanged, hues, moveStatus, p, src, dst, stOk]
    obtain ⟨hst, hsram, -, honly, hhold⟩ := hwrote.ends hues hi 0
    exact ⟨_, hexec.trans (congrArg _ hrun), ⟨hst, hsram⟩, honly, hhold⟩
  · obtain ⟨hwrote, hchanged, hues⟩ := moveFill_own hdst
    have hexec : exec (.fill e) s = .next (fillRun s k i j) := congrArg _ (engRun_next hnext hop hgcm _)
    have hrun : fillRun s k i j = moveEnd (moveFill s p j.desc).1 k i j (moveFill s p j.desc).2 0 false := by
      have hok : issueStatus s k j = stOk := hissue
      simp only [fillRun, hok, hdsp]
      simp [hchanged, hues, moveStatus, p, stOk]
    obtain ⟨hst, hsram, -, honly, hhold⟩ := hwrote.ends hues hi 0
    exact ⟨_, hexec.trans (congrArg _ hrun), ⟨hst, hsram⟩, honly, hhold⟩

end Sys2Proof.Machine
end

section
/-! SUPPORT. O13: the pages that PAGE_READ gathers and PAGE_WRITE scatters (R162, R165, R175). -/

namespace Sys2Proof.Machine
open Sys2Proof Sys2Proof.Claims

/-! ### Page operations -/

theorem zip_flatMap_flatMap {α β γ : Type} {f : α → List β} {g : α → List γ} (h : ∀ x, (f x).length = (g x).length) (l : List α) :
    (l.flatMap f).zip (l.flatMap g) = l.flatMap fun x => (f x).zip (g x) := by
  induction l with
  | nil => rfl
  | cons x l ih => rw [List.flatMap_cons, List.flatMap_cons, List.zip_append (h x), ih, List.flatMap_cons]

/-- Lines moved as they are, from each source line to the destination line at its place. -/
def copies (s : State) (src dst : List Nat) : List (Nat × List Byte) :=
  (dst.zip src).map fun x => (x.1, (List.range 64).map fun b => seenByte s (x.2 + b))

theorem copies_eq_lineMoves {s : State} {src dst : List Nat} (h : src.length = dst.length) :
    copies s src dst = lineMoves dst fun n b => seenByte s (src.getD n 0 + b) := by
  refine List.ext_getElem (by simp [copies, lineMoves, h]) fun n hn hn' => ?_
  have hd : n < dst.length := by simpa [lineMoves] using hn'
  simp [copies, lineMoves, hd, h ▸ hd]

theorem pageSide_length (s : State) (j : Job) (rd page : Bool) (n : Nat) : (pageSide s j rd page n).length = dRowB j.desc / 64 := by
  simp [pageSide, rowLines]

/-- The writes of the first pages of an operation. -/
def pageWrites (s : State) (j : Job) (rd : Bool) (n : Nat) : List (Nat × List Byte) :=
  (List.range n).flatMap fun i => copies s (pageSide s j rd rd i) (pageSide s j rd (!rd) i)

/-- The pages together are the lines of one side moved to those of the other. -/
theorem pageWrites_all (s : State) (j : Job) (rd : Bool) :
    pageWrites s j rd (dRows j.desc) = lineMoves (pageLines s j rd (!rd)) fun n b => seenByte s ((pageLines s j rd rd).getD n 0 + b) := by
  have hside (n : Nat) : (pageSide s j rd (!rd) n).length = (pageSide s j rd rd n).length := by rw [pageSide_length, pageSide_length]
  have hlen : (pageLines s j rd rd).length = (pageLines s j rd (!rd)).length := by
    simp [pageLines, List.length_flatMap, pageSide_length]
  rw [← copies_eq_lineMoves hlen]
  simp only [copies, pageLines, zip_flatMap_flatMap hside, List.map_flatMap]
  rfl

/-- Every write of an operation's first pages is to a line of its destination. -/
theorem pageWrites_dst {s : State} {j : Job} {rd : Bool} {n : Nat} (hn : n ≤ dRows j.desc) {w : Nat × List Byte} (hw : w ∈ pageWrites s j rd n) :
    w.1 ∈ pageLines s j rd (!rd) ∧ w.2.length = 64 := by
  obtain ⟨i, hi, hw⟩ := List.mem_flatMap.mp hw
  obtain ⟨x, hx, rfl⟩ := List.mem_map.mp hw
  have hi := List.mem_range.mp hi
  exact ⟨List.mem_flatMap.mpr ⟨i, List.mem_range.mpr (by omega), (List.of_mem_zip hx).1⟩, by simp⟩

/-- What stands apart from an operation's destination lines reads the same after its first pages. -/
theorem Wrote.seen_apart {s t : State} {j : Job} {rd : Bool} {n : Nat} (h : Wrote s t (pageWrites s j rd n)) (hn : n ≤ dRows j.desc) {l : Nat}
    (hl : ∀ b ∈ pageLines s j rd (!rd), l + 64 ≤ b ∨ b + 64 ≤ l) : seenBytes t l 64 = seenBytes s l 64 := by
  refine List.map_congr_left fun x hx => (h.byte_ne fun w hw => ?_).2
  obtain ⟨hmem, hlen⟩ := pageWrites_dst hn hw
  have hx := List.mem_range.mp hx
  have := hl _ hmem
  omega

/-- A list entry whose line is the partition's own HBM. -/
theorem listEntry_own {s : State} {p a : Nat} (h : OwnLine s p (a / 64 * 64)) (first : Bool) :
    listEntry s p [] first a =
      (BitVec.ofNat 32 (leNat (((seenBytes s (a / 64 * 64) 64).drop (a % 64)).take 4)), { bytes := seenBytes s (a / 64 * 64) 64 }, s) := by
  unfold listEntry
  dsimp only
  rw [lineLoadAt_own h]
  simp

/-- The lines of one side of a page operation, given the list entry of the page. -/
def entrySide (j : Job) (rd page : Bool) (n : Nat) (e : BitVec 32) : List Nat :=
  rowLines (if page then pageAddr e else if rd then dDst j.desc + n * dDstStr j.desc else dSrc j.desc + n * dSrcStr j.desc) (dRowB j.desc)

/-- What the checks of one page find (R162, R165). -/
def pageStatus (s : State) (k : Nat) (j : Job) (rd : Bool) (n : Nat) (e : BitVec 32) : Fin 11 :=
  if pageBad j.desc e then stAddr
  else
    let c := lineChecks s k (jobTag j) (entrySide j rd rd n e) (entrySide j rd (!rd) n e) (!rd)
    if c = stOk ∧ !rd ∧ pgCow e then stWp else c

/-- What an operation has met after the walker read an entry of its list: an error of the list's line counts once (R165). -/
def metList (m : Moved) (first : Bool) (g : LineGot) (l : Nat) : Moved :=
  if first then { m with changed := m.changed + (if g.changed then 1 else 0), ues := m.ues ++ (if g.ue then [l] else []) } else m

theorem metList_ues {m : Moved} {first : Bool} {g : LineGot} {l : Nat} (h : g.ue = false) : (metList m first g l).ues = m.ues := by
  unfold metList
  split
  · simp [h]
  · rfl

theorem metList_changed {m : Moved} {first : Bool} {g : LineGot} {l : Nat} (h : g.changed = false) : (metList m first g l).changed = m.changed := by
  unfold metList
  split
  · simp [h]
  · rfl

/-- What an operation has met after one more page. -/
def metPage (m m' : Moved) : Moved := { changed := m.changed + m'.changed, ues := m.ues ++ m'.ues, bytes := m.bytes ++ m'.bytes }

/-- A list line that fails its checks ends the operation. -/
theorem pagesGo_list {s : State} {k i n : Nat} {j : Job} {rd : Bool} {m : Moved}
    (h : lineChecks s k (jobTag j) [pageList j rd i / 64 * 64] [] false ≠ stOk) :
    pagesGo k (jobTag j) j.desc [] rd (n + 1) i s m = (s, m, lineChecks s k (jobTag j) [pageList j rd i / 64 * 64] [] false, i) :=
  if_pos h

section
/-! SUPPORT. O13: the pages that PAGE_READ gathers and PAGE_WRITE scatters (R162, R165, R175). -/

variable {s t : State} {k i n : Nat} {j : Job} {rd : Bool} {m : Moved} {e : BitVec 32} {g : LineGot}
  (hlist : lineChecks s k (jobTag j) [pageList j rd i / 64 * 64] [] false = stOk)
  (hentry : listEntry s (jobTag j) [] (i == 0 || pageList j rd i % 64 == 0) (pageList j rd i) = (e, g, t)) (hue : g.ue = false)
include hlist hentry hue

/-- A page that fails its checks ends the operation. -/
theorem pagesGo_stop (h : pageStatus t k j rd i e ≠ stOk) :
    pagesGo k (jobTag j) j.desc [] rd (n + 1) i s m =
      (t, metList m (i == 0 || pageList j rd i % 64 == 0) g (pageList j rd i / 64 * 64), pageStatus t k j rd i e, i) := by
  rw [pageList] at *
  unfold pagesGo
  dsimp only
  rw [if_neg (by simp [hlist]), hentry]
  dsimp only
  rw [if_neg (by simp [hue])]
  cases rd
  · exact if_pos h
  · exact if_pos h

/-- A page that passes its checks is moved and counted, and the next follows. -/
theorem pagesGo_page (h : pageStatus t k j rd i e = stOk) :
    let r := moveLines t (jobTag j) j.desc [] (entrySide j rd rd i e) (entrySide j rd (!rd) i e)
    pagesGo k (jobTag j) j.desc [] rd (n + 1) i s m = pagesGo k (jobTag j) j.desc [] rd n (i + 1) (bumpBy r.1 0x2403 (jobTag j + 1) 64 1)
      (metPage (metList m (i == 0 || pageList j rd i % 64 == 0) g (pageList j rd i / 64 * 64)) r.2) := by
  rw [pageList] at *
  rw [pagesGo]
  dsimp only
  rw [if_neg (by simp [hlist]), hentry]
  dsimp only
  rw [if_neg (by simp [hue])]
  cases rd
  · exact if_neg (not_not_intro h)
  · exact if_neg (not_not_intro h)

end

/-- The pages of an operation, from one on, when they all pass their checks. -/
theorem pagesGo_fit {s : State} {k : Nat} {j : Job} {rd : Bool} (hfit : PagesFit s k j rd) (hcmp : dCmp j.desc = 0) (n i : Nat) (hrows : i + n = dRows j.desc)
    (t : State) (ht : Wrote s t (pageWrites s j rd i)) (m : Moved) (hchanged : m.changed = 0) (hues : m.ues = []) :
    ∃ u m', pagesGo k (jobTag j) j.desc [] rd n i t m = (u, m', 0, dRows j.desc) ∧ Wrote s u (pageWrites s j rd (dRows j.desc)) ∧ m'.ues = [] := by
  induction n generalizing i t m with
  | zero =>
    obtain rfl : i = dRows j.desc := hrows
    exact ⟨t, m, by simp [pagesGo, moveStatus, hchanged, hues, stOk], ht, hues⟩
  | succ n ih =>
    obtain ⟨hpages, hsrc, hdst⟩ := hfit
    obtain ⟨hbad, hchecks, hcow, hlist, hown, hapart⟩ := hpages i (by omega)
    have hside (page : Bool) : ∀ a ∈ pageSide s j rd page i, a ∈ pageLines s j rd page := fun a ha =>
      List.mem_flatMap.mpr ⟨i, List.mem_range.mpr (by omega), ha⟩
    have hentry (first : Bool) : listEntry t (jobTag j) [] first (pageList j rd i) =
        (pageTaken s j rd i, { bytes := seenBytes s (pageList j rd i / 64 * 64) 64 }, t) := by
      rw [listEntry_own (ht.only.ownLine hlist), ht.seen_apart (by omega) hapart, pageTaken, listEntry_own hlist]
    obtain ⟨hmoved, hchanged', hues'⟩ := moveLines_own (s := t) (p := jobTag j) hcmp
      (by rw [pageSide_length, pageSide_length]) (fun a ha => ht.only.ownLine (hsrc a (hside rd a ha)).1)
      (fun a ha => ht.only.ownLine (hdst a (hside (!rd) a ha)))
    have hcopied : (lineMoves (pageSide s j rd (!rd) i) fun n b => seenByte t ((pageSide s j rd rd i).getD n 0 + b)) =
        copies s (pageSide s j rd rd i) (pageSide s j rd (!rd) i) := by
      rw [← copies_eq_lineMoves (by rw [pageSide_length, pageSide_length])]
      refine List.map_congr_left fun x hx => Prod.ext rfl ?_
      exact ht.seen_apart (by omega) (hsrc _ (hside rd _ (List.of_mem_zip hx).2)).2
    rw [hcopied] at hmoved
    have hnext : Wrote s (bumpBy (moveLines t (jobTag j) j.desc [] (pageSide s j rd rd i) (pageSide s j rd (!rd) i)).1 0x2403 (jobTag j + 1) 64 1)
        (pageWrites s j rd (i + 1)) := by
      have hlast : pageWrites s j rd (i + 1) = pageWrites s j rd i ++ (copies s (pageSide s j rd rd i) (pageSide s j rd (!rd) i) ++ []) := by
        rw [pageWrites, List.range_succ, List.flatMap_append, List.flatMap_singleton, List.append_nil]
        rfl
      rw [hlast]
      exact ht.trans (hmoved.trans (bumpBy_countsOnly ..).wrote)
    have hok : pageStatus t k j rd i (pageTaken s j rd i) = stOk := by
      have hlines : lineChecks t k (jobTag j) (entrySide j rd rd i (pageTaken s j rd i)) (entrySide j rd (!rd) i (pageTaken s j rd i)) (!rd) = stOk :=
        (ht.only.lineChecks ..).trans hchecks
      rw [pageStatus, hbad, if_neg (by simp), hlines, if_neg]
      rintro ⟨-, hrd, hc⟩
      rcases hcow with rfl | hcow
      · cases hrd
      · rw [hcow] at hc
        cases hc
    have hstep := pagesGo_page (m := m) (n := n) ((ht.only.lineChecks ..).trans hown) (hentry _) rfl hok
    rw [hstep]
    refine ih (i + 1) (by omega) _ hnext _ ?_ ?_
    · exact congrArg₂ (· + ·) ((metList_changed rfl).trans hchanged) hchanged'
    · exact congrArg₂ (· ++ ·) ((metList_ues rfl).trans hues) hues'

/-- Without an error of memory a line is read, and only counters change. -/
theorem lineLoadAt_countsOnly (s : State) (p a : Nat) : CountsOnly s (lineLoadAt s p [] a).2 ∧ (lineLoadAt s p [] a).1.ue = false := by
  unfold lineLoadAt
  split
  · split
    · exact ⟨rfl, rfl⟩
    · exact ⟨rfl, rfl⟩
  · split
    · exact ⟨sramRead_countsOnly .., rfl⟩
    · exact ⟨rfl, rfl⟩
  · split
    · exact ⟨sramRead_countsOnly .., rfl⟩
    · exact ⟨rfl, rfl⟩
  · exact ⟨rfl, rfl⟩

theorem listEntry_countsOnly (s : State) (p a : Nat) :
    CountsOnly s (listEntry s p [] true a).2.2 ∧ (listEntry s p [] true a).2.1.ue = false :=
  lineLoadAt_countsOnly s p (a / 64 * 64)

theorem exec_pages {e : DmaEng} {s : State} {i : Nat} {j : Job} (hnext : Next s e i j) (hgcm : dGcm j.desc = false) {rd : Bool} {c : Instr}
    (hc : c = if rd then .pageRead e [] else .pageWrite ⟨e, []⟩) (hop : dOp j.desc = if rd then 2 else 3) :
    exec c s = .next (pagesRun s (engKey e) i j [] rd false) := by
  subst hc
  cases rd
  · exact congrArg _ (engRun_next hnext hop hgcm _)
  · exact congrArg _ (engRun_next hnext hop hgcm _)

/-- An operation whose first page fails its checks moves nothing and ends with what they found. -/
theorem pagesRun_stop {s : State} {k i : Nat} {j : Job} {rd : Bool} (hrows : dRows j.desc ≠ 0) (hi : i < (jobsOf s k).length)
    (hlist : lineChecks s k (jobTag j) [pageList j rd 0 / 64 * 64] [] false = stOk)
    (hstop : pageStatus s k j rd 0 (pageTaken s j rd 0) ≠ stOk) :
    (jobsOf (pagesRun s k i j [] rd false) k)[i]?.map Job.status = some (some (pageStatus s k j rd 0 (pageTaken s j rd 0)))
    ∧ (pagesRun s k i j [] rd false).mem = s.mem := by
  obtain ⟨n, hn⟩ := Nat.exists_eq_succ_of_ne_zero hrows
  obtain ⟨hcounts, hue⟩ := listEntry_countsOnly s (jobTag j) (pageList j rd 0)
  have htaken : (listEntry s (jobTag j) [] true (pageList j rd 0)).1 = pageTaken s j rd 0 := rfl
  rcases hentry : listEntry s (jobTag j) [] true (pageList j rd 0) with ⟨e, g, t⟩
  rw [hentry] at hcounts hue htaken
  rw [← htaken] at hstop ⊢
  have hsame : pageStatus t k j rd 0 e = pageStatus s k j rd 0 e := by
    unfold pageStatus
    rw [hcounts.moveOnly.lineChecks]
  have hgo := pagesGo_stop (m := {}) (n := n) hlist hentry hue (hsame.trans_ne hstop)
  have hrun : pagesRun s k i j [] rd false =
      moveEnd t k i j (metList {} (0 == 0 || pageList j rd 0 % 64 == 0) g (pageList j rd 0 / 64 * 64)) (pageStatus t k j rd 0 e) false := by
    unfold pagesRun
    rw [hn, hgo]
  rw [hrun, hsame]
  have hlen : i < (jobsOf t k).length := by
    rw [jobsOf, hcounts.wrote.dma]
    exact hi
  obtain ⟨hend, hst⟩ := moveEnd_status (j := j) (pageStatus s k j rd 0 e) false (metList_ues (m := {}) hue) hlen
  exact ⟨hst, hend.mem.trans hcounts.mem⟩

theorem pageOperationsMoveListedPages : PageOperationsMoveListedPages := by
  intro e s i j hnext k st hgcm hcmp rd c hc hop list first
  obtain ⟨hi, -⟩ := nextJob_get hnext.2.1
  have hexec := exec_pages hnext hgcm hc hop
  have hrows : dRows j.desc ≠ 0 := by
    intro hzero
    have hfields := hnext.2.2.1
    unfold fieldChecks fieldsBad at hfields
    simp only [hzero, stFormat, stTag, stOk] at hfields
    split at hfields
    · cases hfields
    · split at hfields
      · cases hfields
      · simp at hfields
  have hstop {x : Fin 11} (hlist : list = 0) (hx : pageStatus s k j rd 0 (pageTaken s j rd 0) = x) (hne : x ≠ 0) :
      Runs c s fun t => st t = some (some x) ∧ t.mem = s.mem := by
    subst hx
    exact ⟨_, hexec, pagesRun_stop hrows hi hlist hne⟩
  refine ⟨fun hfit => ?_, fun hlist => ?_, fun hlist hbad => ?_, fun hlist hbad hfirst => ?_, fun hlist hrd hbad hfirst hcow => ?_⟩
  · obtain ⟨u, m, hgo, hwrote, hues⟩ := pagesGo_fit hfit hcmp (dRows j.desc) 0 (by omega) s (.refl s) {} rfl rfl
    rw [pageWrites_all] at hwrote
    refine ⟨_, hexec, ?_⟩
    have hrun : pagesRun s k i j [] rd false = moveEnd u k i j m 0 false := by
      unfold pagesRun
      rw [hgo]
    rw [hrun]
    exact hwrote.ends hues hi 0
  · obtain ⟨n, hn⟩ := Nat.exists_eq_succ_of_ne_zero hrows
    refine ⟨_, hexec, ?_⟩
    have hrun : pagesRun s k i j [] rd false = moveEnd s k i j {} list false := by
      unfold pagesRun
      rw [hn, pagesGo_list hlist]
    rw [hrun]
    obtain ⟨hend, hst⟩ := moveEnd_status (j := j) (m := {}) list false rfl hi
    exact ⟨hst, hend.mem⟩
  · exact hstop hlist (by rw [pageStatus, hbad, if_pos rfl]; rfl) (by decide)
  · refine hstop hlist ?_ hfirst
    have hlines : lineChecks s k (jobTag j) (entrySide j rd rd 0 (pageTaken s j rd 0)) (entrySide j rd (!rd) 0 (pageTaken s j rd 0)) (!rd) = first := rfl
    rw [pageStatus, hbad, if_neg (by simp), hlines, if_neg fun h => hfirst h.1]
  · refine hstop hlist ?_ (by decide)
    have hlines : lineChecks s k (jobTag j) (entrySide j rd rd 0 (pageTaken s j rd 0)) (entrySide j rd (!rd) 0 (pageTaken s j rd 0)) (!rd) = stOk := hfirst
    rw [pageStatus, hbad, if_neg (by simp), hlines, if_pos ⟨rfl, by simp [hrd], hcow⟩]
    rfl

/-- Settles O13: lines of a partition's own HBM are read and stored whole, and a page operation is its pages' transfers one after another. -/
theorem copiesFillsAndPagesMoveLines : Obligations.CopiesFillsAndPagesMoveLines :=
  ⟨copyAndFillMoveLines, pageOperationsMoveListedPages⟩

end Sys2Proof.Machine
end

section
/-! SUPPORT. Frames of the log: what counting and recording an event leaves alone (R475, R491, R536, R543). -/

namespace Sys2Proof.Machine

open Sys2Proof Sys2Proof.Claims

/-- At most the log and its copy in flash, the dictionary's values, the functions' pending vectors and what is sent differ. -/
def LogOnly (s t : State) : Prop :=
  t = { s with
    pav := { s.pav with vals := t.pav.vals, noticeAt := t.pav.noticeAt, log := t.pav.log, nextSeq := t.pav.nextSeq }
    flash := { s.flash with keptLog := t.flash.keptLog }
    pcie := { s.pcie with funcs := t.pcie.funcs }
    out := t.out }

theorem LogOnly.refl (s : State) : LogOnly s s := rfl

theorem LogOnly.trans {s t u : State} (h : LogOnly s t) (k : LogOnly t u) : LogOnly s u := by
  unfold LogOnly at *
  rw [k, h]

theorem odSet_logOnly (s : State) (idx sub v : Nat) : LogOnly s (odSet s idx sub v) := rfl

theorem bumpBy_logOnly (s : State) (idx sub w n : Nat) : LogOnly s (bumpBy s idx sub w n) := rfl

theorem msixSend_logOnly (s : State) (f v : Nat) : LogOnly s (msixSend s f v) ∧ (msixSend s f v).pav = s.pav := by
  unfold msixSend
  dsimp only
  split
  · exact ⟨rfl, rfl⟩
  · exact ⟨rfl, rfl⟩

theorem logPush_logOnly (s : State) (i : LogInfo) : LogOnly s (logPush s i) := by
  unfold logPush
  extract_lets r s₁ pav s₂ flash s₃
  have h₁ : LogOnly s s₁ := by
    unfold s₁
    split
    · exact rfl
    · exact rfl
  have h₂ : LogOnly s₁ s₂ := rfl
  have h₃ : LogOnly s₂ s₃ := by
    unfold s₃
    split
    · exact rfl
    · exact rfl
  exact ((h₁.trans h₂).trans h₃).trans (msixSend_logOnly ..).1

theorem logSparse_logOnly (s : State) (res gap : Nat) (i : LogInfo) : LogOnly s (logSparse s res gap i) := by
  unfold logSparse
  extract_lets s₁ pav due
  have h₁ : LogOnly s s₁ := bumpBy_logOnly ..
  split
  · exact (h₁.trans (by exact rfl)).trans (logPush_logOnly ..)
  · exact h₁

/-- Counting in one object leaves the value of every other. -/
theorem odGet_bumpBy_ne (s : State) {idx sub i j : Nat} (w n : Nat) (h : odKey i j ≠ odKey idx sub) :
    odGet (bumpBy s idx sub w n) i j = odGet s i j := odGet_odSet_ne _ _ h

theorem odGet_bumpBy (s : State) (idx sub w n : Nat) : odGet (bumpBy s idx sub w n) idx sub = min (odGet s idx sub + n) (2 ^ w - 1) :=
  odGet_odSet ..

/-- A record counts the records overwritten, and no other object. -/
theorem odGet_logPush (s : State) (i : LogInfo) {idx sub : Nat} (h : odKey idx sub ≠ odKey 0x7C00 5) :
    odGet (logPush s i) idx sub = odGet s idx sub := by
  unfold logPush
  extract_lets r s₁ pav s₂ flash s₃
  have h₁ : odGet s₁ idx sub = odGet s idx sub := by
    unfold s₁
    split
    · exact odGet_bumpBy_ne _ _ _ h
    · rfl
  have h₃ : s₃.pav = s₂.pav := by
    unfold s₃
    split
    · rfl
    · rfl
  rw [odGet, (msixSend_logOnly ..).2, h₃]
  exact h₁

/-- A sparse record counts its class and the records overwritten, and no other object. -/
theorem odGet_logSparse (s : State) (res gap : Nat) (i : LogInfo) {idx sub : Nat} (h : odKey idx sub ≠ odKey 0x7C00 5)
    (h' : odKey idx sub ≠ odKey 0x7C20 (i.cls + 1)) : odGet (logSparse s res gap i) idx sub = odGet s idx sub := by
  unfold logSparse
  extract_lets s₁ due
  have h₁ : odGet s₁ idx sub = odGet s idx sub := odGet_bumpBy_ne _ _ _ h'
  split
  · exact (odGet_logPush _ _ h).trans h₁
  · exact h₁

end Sys2Proof.Machine
end

section
/-! SUPPORT. O14, O15: GCM descriptors and host reads (R162, R167, R168), patrol and retraining (R141, R391). -/

namespace Sys2Proof.Machine

open Sys2Proof Sys2Proof.Claims

/-! ### GCM descriptors -/

/-- A GCM descriptor that passes its field checks is one uncompressed row of whole lines (R162, R168). -/
theorem gcm_fields {j : Job} (hgcm : dGcm j.desc = true) (h : fieldChecks 68 j = 0) :
    dRows j.desc = 1 ∧ dRowB j.desc % 64 = 0 ∧ dCmp j.desc = 0 := by
  have hbad : fieldsBad 68 j.desc = false := by
    unfold fieldChecks at h
    split at h
    · cases h
    · split at h
      · cases h
      · split at h
        · cases h
        · next hfields => exact Bool.eq_false_iff.mpr hfields
  simp only [fieldsBad, Bool.or_eq_false_iff] at hbad
  simp_all

/-- The destination of one uncompressed row. -/
theorem sideLines_row {d : W512} (hrows : dRows d = 1) (hcmp : dCmp d = 0) : sideLines d true = rowLines (dDst d) (dRowB d) := by
  simp [sideLines, sideRows, hrows, hcmp, rowLines]

/-- A plaintext cut into lines goes to the lines of its destination. -/
theorem zip_cutLines {dst : List Nat} {pt : List Byte} (h : pt.length = 64 * dst.length) :
    dst.zip (cutLines pt) = lineMoves dst fun n b => pt.getD (64 * n + b) 0 := by
  have hn : pt.length / 64 = dst.length := by omega
  refine List.ext_getElem (by simp [cutLines, lineMoves, hn]) fun n hn hn' => ?_
  have hd : n < dst.length := by simpa [lineMoves] using hn'
  have hline : (pt.drop (64 * n)).take 64 = (List.range 64).map fun b => pt.getD (64 * n + b) 0 := by
    refine List.ext_getElem (by simp; omega) fun b hb hb' => ?_
    have hb : b < 64 := by simpa using hb'
    have hlt : 64 * n + b < pt.length := by omega
    simp [hlt]
  simp [cutLines, lineMoves, hd, hline]

theorem emit_hostAsk {s : State} {k i : Nat} {j : Job} {a n : Nat} :
    hostAsk s k i j [(a, n)] = { s with
      dma := { s.dma with
        queues := mset s.dma.queues k ((jobsOf s k).set i { j with hostTag := some s.dma.nextTag })
        nextTag := s.dma.nextTag + 1
        outstanding := mset s.dma.outstanding s.dma.nextTag (dFunc j.desc) }
      out := .hostRead (funcOf (dFunc j.desc)) s.dma.nextTag a n :: s.out } := rfl

/-- What the message of a GCM descriptor opens to, if its tag matches (R168). -/
def gcmOpened (s : State) (j : Job) (bs : List Byte) : Option (List Byte) :=
  (gcmKey s (jobTag j) (dGcmSlot j.desc) j.gen).bind fun key =>
    Config.gcmOpen key (leNat (bs.take 12)) (leBytes 4 (dFill j.desc)) ((bs.drop 16).take (dRowB j.desc)) (leNat ((bs.drop (16 + dRowB j.desc)).take 16))

/-- A message whose tag does not match ends its descriptor. -/
theorem gcmOpenJob_none {s : State} {i : Nat} {j : Job} {bs : List Byte} (h : gcmOpened s j bs = none) :
    gcmOpenJob s 68 i j bs = jobFail s 68 i j stAuth := by
  unfold gcmOpened at h
  unfold gcmOpenJob
  dsimp only
  rw [h]

/-- A message that opens is stored in its destination's lines, and its descriptor ends with OK. -/
theorem gcmOpenJob_some {s : State} {i : Nat} {j : Job} {bs pt : List Byte} (hi : i < (jobsOf s 68).length) (h : gcmOpened s j bs = some pt)
    (hown : ∀ a ∈ sideLines j.desc true, OwnLine s (jobTag j) a) (hlen : pt.length = 64 * (sideLines j.desc true).length) :
    (jobsOf (gcmOpenJob s 68 i j bs) 68)[i]?.map Job.status = some (some 0) ∧ LinesOnly s (gcmOpenJob s 68 i j bs) (sideLines j.desc true)
    ∧ LinesHold (gcmOpenJob s 68 i j bs) (sideLines j.desc true) fun n b => pt.getD (64 * n + b) 0 := by
  have hlines : ∀ x ∈ (sideLines j.desc true).zip (cutLines pt), OwnLine s (jobTag j) x.1 := fun x hx => hown _ (List.of_mem_zip hx).1
  obtain ⟨hlost, hwrote⟩ := storeLines_own hlines
  unfold gcmOpened at h
  unfold gcmOpenJob
  dsimp only
  rw [h]
  dsimp only
  rw [hlost]
  rw [zip_cutLines hlen] at hwrote ⊢
  obtain ⟨hst, -, -, honly, hhold⟩ := hwrote.ends (m := { changed := 0, bytes := _ }) rfl hi (moveStatus 0 [])
  exact ⟨hst, honly, hhold⟩

/-- Settles O14: a waiting descriptor asks for its message or stays, and one whose data is there opens it before a line is stored. -/
theorem gcmWritesOnlyAuthenticPlaintext : Obligations.GcmWritesOnlyAuthenticPlaintext := by
  intro s i j hnext hop hgcm hissue hlive st opened
  obtain ⟨hi, -⟩ := nextJob_get hnext.2.1
  have hexec : exec .gcmDecrypt s = .next (gcmRun s 68 i j) := congrArg _ (engRun_next hnext hop hgcm _)
  have hok : (if j.staged then stOk else issueStatus s 68 j) = stOk := by
    split
    · rfl
    · exact hissue
  obtain ⟨hrows, hwhole, hcmp⟩ := gcm_fields hgcm hnext.2.2.1
  have hrun : gcmRun s 68 i j = match j.hostData with
      | some bs => gcmOpenJob s 68 i j bs
      | none => if j.staged ∨ s.dma.staging ≥ 8 then s
        else hostAsk { s with dma := { s.dma with staging := s.dma.staging + 1 } } 68 i { j with staged := true } [(dSrc j.desc, dRowB j.desc + 32)] := by
    simp only [gcmRun, hok, hlive]
    rfl
  refine ⟨fun hdata hstaged hfree => ⟨_, hexec, ?_⟩, fun hdata hwait => ⟨_, hexec, ?_⟩, fun bs hdata hown hsp => ⟨_, hexec, ?_⟩⟩
  · rw [hrun, hdata]
    dsimp only
    rw [if_neg (by simp [hstaged]; omega), emit_hostAsk]
    exact ⟨rfl, mget_mset_same .., rfl, rfl⟩
  · rw [hrun, hdata]
    exact if_pos (by simpa using hwait)
  · rw [hrun, hdata]
    dsimp only
    cases hopened : opened bs with
    | none =>
      obtain ⟨hend, hst⟩ := jobFail_status j stAuth hi
      rw [gcmOpenJob_none hopened]
      exact ⟨hst, hend.mem⟩
    | some pt =>
      intro hlen
      refine gcmOpenJob_some hi hopened hown ?_
      rw [hlen, sideLines_row hrows hcmp, rowLines, List.length_map, List.length_range]
      omega

/-! ### Host reads -/

/-- The job of a tag stands at its place of the hub's queue. -/
theorem tagJob_get {s : State} {tag i : Nat} {j : Job} (h : tagJob s tag = some (i, j)) : i < (jobsOf s 68).length := by
  unfold tagJob at h
  obtain ⟨⟨x, n⟩, hfind, hx⟩ := Option.map_eq_some_iff.mp h
  obtain ⟨rfl, rfl⟩ := Prod.mk.inj hx
  exact (List.getElem?_eq_some_iff.mp (List.mem_zipIdx_iff_getElem?.mp (List.mem_of_find?_eq_some hfind))).1

theorem hostReadsCompleteTheirDescriptor : HostReadsCompleteTheirDescriptor := by
  intro s tag bs
  have hexec (ok : Bool) : exec (.hostReadCompletion tag bs ok) s = execHostReadCompletion tag bs ok s := rfl
  refine ⟨fun hab ok => ⟨s, ?_, rfl⟩, fun hab hnone ok => ⟨_, ?_, rfl⟩, fun f i j hab hout hjob => ?_⟩
  · rw [hexec, execHostReadCompletion, if_pos hab]
  · rw [hexec, execHostReadCompletion, if_neg (Bool.not_eq_true _ ▸ hab), hnone]
    rfl
  · have hi := tagJob_get hjob
    let u := { s with dma := { s.dma with outstanding := mdel s.dma.outstanding tag } }
    have hgone : mget u.dma.outstanding tag = none := by
      rw [mget_mdel, if_pos rfl]
    have hjob' : tagJob u tag = some (i, j) := hjob
    have hends {t : State} (h : EndOnly u t) : mget t.dma.outstanding tag = none ∧ t.mem = s.mem := by
      rw [h]
      exact ⟨hgone, rfl⟩
    have hfail : exec (.hostReadCompletion tag bs false) s = .next (hostReadFail s tag bs) := by
      rw [hexec, execHostReadCompletion, if_neg (Bool.eq_false_iff.mp hab), hout]
      rfl
    refine ⟨⟨jobsSet u 68 ((jobsOf u 68).set i { j with hostData := some bs }), ?_, hgone, ?_, rfl⟩, fun hgcm => ⟨_, hfail, ?_⟩, fun hgcm hbs => ⟨_, hfail, ?_⟩⟩
    · rw [hexec, execHostReadCompletion, if_neg (Bool.eq_false_iff.mp hab), hout]
      dsimp only
      rw [if_neg (by simp), hjob']
    · rw [jobsOf_jobsSet]
      exact List.getElem?_set_self hi
    · have hrun : hostReadFail s tag bs = jobFail u 68 i j stHost := by
        unfold hostReadFail
        dsimp only
        rw [hjob']
        exact if_pos hgcm
      obtain ⟨hend, hst⟩ := jobFail_status (s := u) j stHost hi
      rw [hrun]
      exact ⟨(hends hend).1, hst, (hends hend).2⟩
    · subst hbs
      obtain ⟨m, hues, hchanged, hdeliver⟩ : ∃ m : Moved, m.ues = [] ∧ m.changed = 0 ∧ hostDeliver u (jobTag j) j.desc [] = (u, m) := by
        unfold hostDeliver
        split
        · exact ⟨_, rfl, rfl, rfl⟩
        · exact ⟨_, rfl, rfl, rfl⟩
      have hrun : hostReadFail s tag [] = moveEnd u 68 i j m stHost false := by
        unfold hostReadFail
        dsimp only
        rw [hjob']
        dsimp only
        rw [if_neg (Bool.eq_false_iff.mp hgcm), hdeliver]
        dsimp only
        rw [hchanged, if_neg (by omega)]
      obtain ⟨hend, hst⟩ := moveEnd_status (s := u) (j := j) stHost false hues hi
      rw [hrun]
      exact ⟨(hends hend).1, hst, (hends hend).2⟩

/-! ### Patrol and retraining -/

theorem patrolLine_correctable (s : State) (st : Nat) {e : EccEvent} (hst : st < 8) (h : e.err ≠ .uncorrectable) :
    LogOnly s (patrolLine s st e) ∧ odGet (patrolLine s st e) 0x2010 (st + 1) = min (odGet s 0x2010 (st + 1) + 1) (2 ^ 64 - 1) := by
  have hline : patrolLine s st e = corrected (bump64 s 0x2010 (st + 1)) (2 ^ 62 + st) { cls := 0, block := 4, addr := 64 * e.line, action := 1 } := by
    unfold patrolLine
    dsimp only
    split
    · exact absurd ‹_› h
    · rfl
  rw [hline]
  refine ⟨(bumpBy_logOnly ..).trans (logSparse_logOnly ..), ?_⟩
  have hlow : odKey 0x2010 (st + 1) < odKey 0x7C00 0 := by
    unfold odKey
    omega
  rw [corrected, odGet_logSparse _ _ _ _ (ne_of_lt (hlow.trans (by decide))) (ne_of_lt (hlow.trans (by decide : odKey 0x7C00 0 < odKey 0x7C20 1)))]
  exact odGet_bumpBy ..

/-- A pseudo-channel last retrained so is due (R391). -/
def retrainDue (last : Option (Nat × Int)) (now : Nat) (temp : Int) : Bool :=
  match last with
  | none => true
  | some (t, c) => decide (t + 1000000000 ≤ now) || decide (c + 400 ≤ temp) || decide (temp + 400 ≤ c)

theorem exec_hbmRetrain {s : State} {k : Fin 8} {ch : Nat} (hon : hbmOn s k.val = true) (hself : s.tray.selfRefresh = false) (hch : ch < 64) :
    exec (.hbmRetrain k ch) s = .next (if retrainDue (mget s.mem.retrain (64 * k.val + ch)) s.clk.now (stackTemp s k.val) then
      { s with mem := { s.mem with retrain := mset s.mem.retrain (64 * k.val + ch) (s.clk.now, stackTemp s k.val) } } else s) := by
  have hretrain : exec (.hbmRetrain k ch) s = execHbmRetrain k ch s := rfl
  have hkey : 64 * k.val + ch % 64 = 64 * k.val + ch := by omega
  rw [hretrain, execHbmRetrain, hkey]
  cases mget s.mem.retrain (64 * k.val + ch) with
  | none => exact if_neg (by simp [hon, hself])
  | some x =>
    cases hdue : retrainDue (some x) s.clk.now (stackTemp s k.val) with
    | false =>
      unfold retrainDue at hdue
      exact if_pos (by simp only [hdue]; simp)
    | true =>
      unfold retrainDue at hdue
      exact if_neg (by simp only [hdue]; simp [hon, hself])

theorem controllersPatrolAndRetrain : ControllersPatrolAndRetrain := by
  intro k s hon hself
  have hpatrol (l : List EccEvent) : exec (.patrolScrub k l) s = execPatrolScrub k l s := rfl
  have hdue (l : List EccEvent) (h : patrolDue s k.val = true) : ¬ ((!hbmOn s k.val) = true ∨ s.tray.selfRefresh = true ∨ (!patrolDue s k.val) = true) := by
    simp [hon, hself, h]
  refine ⟨fun h l => ⟨s, ?_, rfl⟩, fun h => ?_, fun e h hst hback herr => ?_, fun ch hch => ?_⟩
  · rw [hpatrol, execPatrolScrub, if_pos (by simp [h])]
  · refine ⟨_, (hpatrol []).trans (if_neg (hdue [] h)), mget_mset_same .., rfl⟩
  · refine ⟨_, (hpatrol [e]).trans (if_neg (hdue [e] h)), ?_⟩
    have hhits : ([e].filter fun e => stackOf (64 * e.line) == k.val && granBacked s (granOf (64 * e.line))) = [e] := by
      simp [hst, hback]
    rw [hhits]
    obtain ⟨honly, hcount⟩ := patrolLine_correctable s k.val k.isLt herr
    exact ⟨hcount, by rw [show each [e] (fun s e => patrolLine s k.val e) s = patrolLine s k.val e from rfl, honly],
      by rw [show each [e] (fun s e => patrolLine s k.val e) s = patrolLine s k.val e from rfl, honly]⟩
  · have hrun := exec_hbmRetrain hon hself hch
    refine ⟨fun hnone => ?_, fun at_ temp hsome => ⟨fun hdue => ?_, fun h₁ h₂ h₃ => ?_⟩⟩
    · rw [hnone] at hrun
      exact ⟨_, hrun, rfl, mget_mset_same ..⟩
    · rw [hsome, show retrainDue (some (at_, temp)) s.clk.now (stackTemp s k.val) = true by simpa [retrainDue, or_assoc] using hdue] at hrun
      exact ⟨_, hrun, rfl, mget_mset_same ..⟩
    · rw [hsome, show retrainDue (some (at_, temp)) s.clk.now (stackTemp s k.val) = false by simpa [retrainDue] using ⟨⟨h₁, h₂⟩, h₃⟩] at hrun
      exact ⟨_, hrun, rfl⟩

/-- Settles O15: a read's answer is found by its tag, and the maintenance that is due writes only its own records and counts. -/
theorem hostReadsAndMemoryMaintenanceComplete : Obligations.HostReadsAndMemoryMaintenanceComplete :=
  ⟨hostReadsCompleteTheirDescriptor, controllersPatrolAndRetrain⟩

end Sys2Proof.Machine
end

section
/-! SUPPORT. The frame of page handling: what taking pages for a step, dropping them and making a sequence wait leave alone (R217 to R220, R233 to R235). -/

namespace Sys2Proof.Machine

open Sys2Proof Sys2Proof.Claims

/-- At most the request table, the pools and the dictionary's values differ. -/
def PageOnly (s t : State) : Prop :=
  t = { s with
    car := { s.car with reqs := t.car.reqs, cached := t.car.cached }
    kv := t.kv
    pair := { s.pair with dirty := t.pair.dirty }
    pav := { s.pav with vals := t.pav.vals } }

theorem PageOnly.refl (s : State) : PageOnly s s := rfl

theorem PageOnly.trans {s t u : State} (h : PageOnly s t) (k : PageOnly t u) : PageOnly s u := by
  unfold PageOnly at *
  rw [k, h]

theorem PageOnly.each {α : Type} {f : State → α → State} (hf : ∀ s x, PageOnly s (f s x)) (l : List α) (s : State) :
    PageOnly s (Sys2Proof.Machine.each l f s) :=
  each_rel .refl .trans hf l s

theorem reqSet_pageOnly (s : State) (h : Nat) (r : Req) : PageOnly s (reqSet s h r) := rfl

theorem frameSet_pageOnly (s : State) (p f : Nat) (x : Frame) : PageOnly s (frameSet s p f x) := rfl

theorem bumpBy_pageOnly (s : State) (idx sub w n : Nat) : PageOnly s (bumpBy s idx sub w n) := rfl

theorem dropTail_pageOnly (s : State) (h : Nat) : PageOnly s (dropTail s h) := by
  unfold dropTail
  dsimp only
  exact ((PageOnly.each (fun s x => frameSet_pageOnly ..) _ _).trans (reqSet_pageOnly ..)).trans (bumpBy_pageOnly ..)

theorem meetNeed_pageOnly (p h : Nat) (need : List Nat) (n : Nat) (s : State) : PageOnly s (meetNeed p h need n s).2 := by
  induction n generalizing s with
  | zero => exact .refl s
  | succ n ih =>
    unfold meetNeed
    split
    · exact .refl s
    · split
      · exact .refl s
      · split
        · exact .refl s
        · exact (dropTail_pageOnly ..).trans (ih _)

theorem grow_pageOnly (s : State) (h : Nat) (l : List (Nat × Nat)) : PageOnly s (grow s h l).2 := by
  unfold grow
  dsimp only
  split
  · exact .refl s
  · exact meetNeed_pageOnly ..

theorem enterWaiting_pageOnly (s : State) (h : Nat) : PageOnly s (enterWaiting s h) := by
  unfold enterWaiting
  dsimp only
  split
  · exact (reqSet_pageOnly ..).trans (bumpBy_pageOnly ..)
  · exact (reqSet_pageOnly ..).trans (bumpBy_pageOnly ..)
  · exact .refl s

theorem takeFrame_pageOnly {s t : State} {h d f : Nat} {copy : Bool} (ht : takeFrame s h d copy = some (f, t)) : PageOnly s t := by
  unfold takeFrame at ht
  dsimp only at ht
  split at ht
  · cases ht
  · split at ht
    · cases ht
    · split at ht
      · obtain ⟨-, rfl⟩ := Prod.mk.inj (Option.some.inj ht)
        exact frameSet_pageOnly ..
      · obtain ⟨-, rfl⟩ := Prod.mk.inj (Option.some.inj ht)
        exact (frameSet_pageOnly ..).trans (reqSet_pageOnly ..)

theorem takePages_pageOnly (s : State) (h : Nat) (l : List (Nat × Nat)) : PageOnly s (takePages s h l) :=
  PageOnly.each (fun s x => by
    dsimp only
    split
    · exact (takeFrame_pageOnly ‹_›).trans (reqSet_pageOnly ..)
    · exact .refl s) l s

theorem pickOne_pageOnly (m : Nat) (a : Picks) (s : State) (x : Nat × Nat × Bool) : PageOnly s (pickOne m (a, s) x).2 := by
  obtain ⟨h, n, emit⟩ := x
  unfold pickOne
  dsimp only
  split
  · exact .refl s
  · split
    · exact grow_pageOnly ..
    · exact (grow_pageOnly ..).trans (enterWaiting_pageOnly ..)
    · exact (grow_pageOnly ..).trans (takePages_pageOnly ..)

theorem picks_pageOnly {α : Type} (m : Nat) (f : α → Nat × Nat × Bool) (l : List α) (a : Picks) (s : State) :
    PageOnly s (l.foldl (fun acc x => pickOne m acc (f x)) (a, s)).2 := by
  induction l generalizing a s with
  | nil => exact .refl s
  | cons x l ih => exact (pickOne_pageOnly m a s (f x)).trans (ih ..)

/-- The picks of a stage take pages, and change nothing of what runs. -/
theorem stagePicks_pageOnly (s : State) (p : Nat) (rd : Round) (st : Nat × Bool) : PageOnly s (stagePicks s p rd st).2 := by
  unfold stagePicks
  split
  · exact .refl s
  · split
    · exact picks_pageOnly ..
    · split
      · exact picks_pageOnly ..
      · split
        · exact .refl s
        · exact picks_pageOnly ..

end Sys2Proof.Machine
end

section
/-! SUPPORT. O16: the step that a round dispatches, and its contexts (R124, R244, R262). -/

namespace Sys2Proof.Machine

open Sys2Proof Sys2Proof.Claims

/-! ### Loading the contexts -/

/-- What a step's dispatch to its contexts may change. -/
def DispatchOnly (s t : State) : Prop :=
  t = { s with
    seq := t.seq, cores := t.cores, sync := t.sync, dma := t.dma, dieJobs := t.dieJobs, zoe := t.zoe, trl := t.trl
    pav := { s.pav with vals := t.pav.vals } }

theorem DispatchOnly.refl (s : State) : DispatchOnly s s := rfl

theorem DispatchOnly.trans {s t u : State} (h : DispatchOnly s t) (k : DispatchOnly t u) : DispatchOnly s u := by
  unfold DispatchOnly at *
  rw [k, h]

/-- What loading a context's lanes or its job lists may change: no context. -/
def LoadOnly (s t : State) : Prop := DispatchOnly s t ∧ t.seq.ctxs = s.seq.ctxs

theorem LoadOnly.refl (s : State) : LoadOnly s s := ⟨rfl, rfl⟩

theorem LoadOnly.trans {s t u : State} (h : LoadOnly s t) (k : LoadOnly t u) : LoadOnly s u := ⟨h.1.trans k.1, k.2.trans h.2⟩

theorem LoadOnly.ctxGet {s t : State} (h : LoadOnly s t) (c : Nat) : ctxGet t c = ctxGet s c := by
  unfold Machine.ctxGet
  rw [h.2]

theorem CountsOnly.loadOnly {s t : State} (h : CountsOnly s t) : LoadOnly s t := by
  unfold LoadOnly DispatchOnly
  rw [h]
  exact ⟨rfl, rfl⟩

theorem bundleCount_loadOnly (s : State) (c a : Nat) : LoadOnly s (bundleCount s c a) := by
  unfold bundleCount
  dsimp only
  split
  · split
    · exact .refl s
    · exact ⟨rfl, rfl⟩
  · exact .refl s

theorem laneSet_loadOnly (s : State) (l : Nat) (x : Lane) : LoadOnly s (laneSet s l x) := ⟨rfl, rfl⟩

theorem coreSet_loadOnly (s : State) (k : Nat) (x : Core) : LoadOnly s (coreSet s k x) := ⟨rfl, rfl⟩

/-- A Trellis job joins the fabric's list. -/
theorem trlSet_loadOnly (s : State) (x : TrellisS) : LoadOnly s { s with trl := x } := ⟨rfl, rfl⟩

theorem each_loadOnly {α : Type} {f : State → α → State} (hf : ∀ s x, LoadOnly s (f s x)) (l : List α) (s : State) : LoadOnly s (each l f s) :=
  each_rel .refl .trans hf l s

theorem locReset_loadOnly (s : State) (part loc cnt : Nat) : LoadOnly s (locReset s part loc cnt) := by
  unfold locReset
  split
  · split
    · split
      · exact ⟨rfl, rfl⟩
      · exact .refl s
    · exact .refl s
  · split
    · split
      · exact .refl s
      · split
        · exact ⟨rfl, rfl⟩
        · exact ⟨rfl, rfl⟩
    · exact .refl s

theorem laneLoad_loadOnly (s : State) (part c l stepId : Nat) : LoadOnly s (laneLoad s part c l stepId) := by
  unfold laneLoad
  extract_lets base n b tab cur cv x s₁ s₂ s₃ s₄
  have h₁ : LoadOnly s s₁ := laneSet_loadOnly ..
  have h₂ : LoadOnly s₁ s₂ := ((partTouch_countsOnly ..).trans (partTouch_countsOnly ..)).loadOnly
  have h₃ : LoadOnly s₂ s₃ := each_loadOnly (fun s i => by
    split
    · split
      · exact (sramRead_countsOnly ..).loadOnly
      · exact .refl s
    · exact .refl s) _ _
  have h₄ : LoadOnly s₃ s₄ := each_loadOnly (fun s i => by
    dsimp only
    split
    · exact locReset_loadOnly ..
    · exact .refl s) _ _
  refine (((h₁.trans h₂).trans h₃).trans h₄).trans (each_loadOnly (fun s i => ?_) _ _)
  dsimp only
  exact (partTouch_countsOnly ..).loadOnly.trans (coreSet_loadOnly ..)

theorem jobsLoad_loadOnly (s : State) (p c stepId : Nat) : LoadOnly s (jobsLoad s p c stepId) := by
  unfold jobsLoad
  extract_lets d pw dl tr s₁
  exact LoadOnly.trans (t := s₁) ⟨rfl, rfl⟩ (each_loadOnly (fun s x => trlSet_loadOnly ..) _ _)

/-! ### Contexts that take a step -/

/-- A context keeps its partition, its step and the step's parameters. -/
def StepStays (e : Nat) (s t : State) : Prop :=
  DispatchOnly s t ∧ (ctxGet t e).part = (ctxGet s e).part ∧ (ctxGet t e).step = (ctxGet s e).step ∧ (ctxGet t e).params = (ctxGet s e).params

theorem StepStays.refl (e : Nat) (s : State) : StepStays e s s := ⟨rfl, rfl, rfl, rfl⟩

theorem StepStays.trans {e : Nat} {s t u : State} (h : StepStays e s t) (k : StepStays e t u) : StepStays e s u := by
  obtain ⟨h₁, h₂, h₃, h₄⟩ := h
  obtain ⟨k₁, k₂, k₃, k₄⟩ := k
  exact ⟨h₁.trans k₁, k₂.trans h₂, k₃.trans h₃, k₄.trans h₄⟩

theorem LoadOnly.stepStays {s t : State} (h : LoadOnly s t) (e : Nat) : StepStays e s t := by
  unfold StepStays
  rw [h.ctxGet]
  exact ⟨h.1, rfl, rfl, rfl⟩

/-- A context set anew, to something with the same partition, step and parameters, or another one. -/
theorem ctxSet_stepStays {s : State} {c e : Nat} {x : Context}
    (h : e = c → x.part = (ctxGet s c).part ∧ x.step = (ctxGet s c).step ∧ x.params = (ctxGet s c).params) : StepStays e s (ctxSet s c x) := by
  refine ⟨rfl, ?_⟩
  by_cases he : e = c
  · subst he
    rw [ctxGet_ctxSet]
    exact h rfl
  · rw [ctxGet_ctxSet_ne _ _ he]
    exact ⟨rfl, rfl, rfl⟩

/-- An early end keeps every context's step (R127). -/
theorem ctxEnd_stepStays (s : State) (c : Nat) (code : Fin 5) (e : Nat) : StepStays e s (ctxEnd s c code) := by
  unfold ctxEnd
  extract_lets x s₁ s₂
  split
  · exact .refl e s
  · have h₁ : StepStays e s s₁ := ctxSet_stepStays fun _ => ⟨rfl, rfl, rfl⟩
    have h₂ : LoadOnly s₁ s₂ := by
      unfold s₂
      split
      · exact ⟨rfl, rfl⟩
      · exact .refl _
    exact (h₁.trans (h₂.stepStays e)).trans ((each_loadOnly (fun s l => laneSet_loadOnly ..) _ _).stepStays e)

/-- A context as a step starts on it (R124). -/
def startedCtx (x : Context) (d : Dispatch) : Context :=
  { x with step := some d, params := d.params, ptr := d.entry, fetching := true, latch := none, fault := none, runs := x.runs + 1 }

/-- A step that starts on a context of a partition is set there; what follows keeps every context's step. -/
theorem ctxStart_stays {s : State} {c : Nat} {p : PartId} (hpart : (ctxGet s c).part = some p) (d : Dispatch) (e : Nat) :
    StepStays e (ctxSet (bundleCount s c d.entry) c (startedCtx (ctxGet s c) d)) (ctxStart s c d) := by
  unfold ctxStart
  dsimp only
  split
  · next hnone => exact absurd (hnone.symm.trans hpart) (by simp)
  · split
    · exact ctxEnd_stepStays ..
    · have hlanes (q : Nat) := (each_loadOnly (f := fun s l => laneLoad s q c l d.stepId) (fun s l => laneLoad_loadOnly ..)
        (ctxLanes (ctxSet (bundleCount s c d.entry) c (startedCtx (ctxGet s c) d)) c) (ctxSet (bundleCount s c d.entry) c (startedCtx (ctxGet s c) d))).stepStays e
      split
      · exact (hlanes _).trans (ctxEnd_stepStays ..)
      · exact hlanes _

/-- A step that starts on one context leaves every other. -/
theorem ctxStart_ne (s : State) {c e : Nat} (d : Dispatch) (h : e ≠ c) : StepStays e s (ctxStart s c d) := by
  cases hpart : (ctxGet s c).part with
  | none =>
    unfold ctxStart
    dsimp only
    rw [hpart]
    exact .refl e s
  | some p =>
    exact (((bundleCount_loadOnly ..).stepStays e).trans (ctxSet_stepStays fun he => absurd he h)).trans (ctxStart_stays hpart d e)

/-- What arrives at a context leaves every other, and a context whose step runs. -/
theorem ctxDispatch_stays {s : State} {c e : Nat} (d : Dispatch) (h : e ≠ c ∨ (ctxGet s c).step.isSome = true) : StepStays e s (ctxDispatch s c d) := by
  unfold ctxDispatch
  dsimp only
  split
  · exact ctxSet_stepStays fun _ => ⟨rfl, rfl, rfl⟩
  · exact ctxStart_ne s d (h.resolve_right ‹_›)

/-- A context that runs no step takes the one that arrives. -/
theorem ctxDispatch_takes {s : State} {c : Nat} {p : PartId} (hpart : (ctxGet s c).part = some p) (hfree : (ctxGet s c).step = none) (d : Dispatch) :
    DispatchOnly s (ctxDispatch s c d) ∧ (ctxGet (ctxDispatch s c d) c).step = some d ∧ (ctxGet (ctxDispatch s c d) c).params = d.params := by
  have hstart : ctxDispatch s c d = ctxStart s c d := by
    unfold ctxDispatch
    dsimp only
    rw [hfree]
    rfl
  obtain ⟨honly, -, hstep, hparams⟩ := ctxStart_stays hpart d c
  rw [ctxGet_ctxSet] at hstep hparams
  have hset : DispatchOnly (bundleCount s c d.entry) (ctxSet (bundleCount s c d.entry) c (startedCtx (ctxGet s c) d)) := rfl
  rw [hstart]
  exact ⟨((bundleCount_loadOnly ..).1.trans hset).trans honly, hstep, hparams⟩

/-- A context of the list that runs no step takes the step; its parameters are the step's. -/
theorem each_ctxDispatch_takes {l : List Nat} {s : State} {c : Nat} {p : PartId} (hc : c ∈ l) (hpart : (ctxGet s c).part = some p)
    (hfree : (ctxGet s c).step = none) (d : Dispatch) :
    let t := each l (fun s c => ctxDispatch s c d) s
    (ctxGet t c).step = some d ∧ (ctxGet t c).params = d.params := by
  have htaken (l : List Nat) (s : State) (hs : (ctxGet s c).step = some d ∧ (ctxGet s c).params = d.params) :
      (ctxGet (each l (fun s c => ctxDispatch s c d) s) c).step = some d ∧ (ctxGet (each l (fun s c => ctxDispatch s c d) s) c).params = d.params := by
    induction l generalizing s with
    | nil => exact hs
    | cons b l ih =>
      obtain ⟨hstep, hparams⟩ := hs
      obtain ⟨-, -, hstep', hparams'⟩ : StepStays c s (ctxDispatch s b d) := ctxDispatch_stays d (by
        by_cases hb : c = b
        · exact .inr (by rw [← hb, hstep]; rfl)
        · exact .inl hb)
      exact ih _ ⟨hstep'.trans hstep, hparams'.trans hparams⟩
  induction l generalizing s with
  | nil => cases hc
  | cons b l ih =>
    by_cases hb : c = b
    · subst hb
      exact htaken l _ (ctxDispatch_takes hpart hfree d).2
    · obtain ⟨-, hpart', hstep', -⟩ : StepStays c s (ctxDispatch s b d) := ctxDispatch_stays d (.inl hb)
      exact ih ((List.mem_cons.mp hc).resolve_left hb) (hpart'.trans hpart) (hstep'.trans hfree)

theorem ctxDispatch_dispatchOnly (s : State) (c : Nat) (d : Dispatch) : DispatchOnly s (ctxDispatch s c d) :=
  (ctxDispatch_stays (e := c + 1) d (.inl (by omega))).1

/-- A dispatch reaches its contexts, and changes nothing of the Carousel. -/
theorem dispatchTo_takes (s : State) (p stepId entry : Nat) (ps : List W32) (ctxs : List Nat) :
    DispatchOnly s (dispatchTo s p stepId entry ps ctxs)
    ∧ ∀ c ∈ ctxs, ∀ q : PartId, (ctxGet s c).part = some q → (ctxGet s c).step = none →
      (ctxGet (dispatchTo s p stepId entry ps ctxs) c).step.map Dispatch.stepId = some stepId
      ∧ (ctxGet (dispatchTo s p stepId entry ps ctxs) c).params = ps := by
  unfold dispatchTo
  extract_lets bad s₁ s₂
  have h₁ : LoadOnly s s₁ := each_loadOnly (fun s c => jobsLoad_loadOnly ..) _ _
  have h₂ : DispatchOnly s₁ s₂ := each_rel DispatchOnly.refl DispatchOnly.trans (fun s c => ctxDispatch_dispatchOnly ..) _ _
  have h₃ (e : Nat) : StepStays e s₂ (each bad (fun s x => ctxEnd s x.1 x.2) s₂) :=
    each_rel (StepStays.refl e) StepStays.trans (fun s x => ctxEnd_stepStays ..) _ _
  refine ⟨(h₁.1.trans h₂).trans (h₃ 0).1, fun c hc q hpart hfree => ?_⟩
  obtain ⟨-, -, hstep, hparams⟩ := h₃ c
  obtain ⟨htook, htook'⟩ := each_ctxDispatch_takes (s := s₁) hc (by rwa [h₁.ctxGet]) (by rwa [h₁.ctxGet]) { stepId := stepId, entry := entry, params := ps }
  rw [hstep, hparams]
  exact ⟨congrArg (Option.map Dispatch.stepId) htook, htook'⟩

/-! ### The step -/

theorem insertBy_perm {α : Type} (lt : α → α → Bool) (a : α) (l : List α) : (insertBy lt a l).Perm (a :: l) := by
  induction l with
  | nil => exact .refl _
  | cons b l ih =>
    unfold insertBy
    split
    · exact .refl _
    · exact (ih.cons b).trans (.swap ..)

theorem sortBy_perm {α : Type} (lt : α → α → Bool) (l : List α) : (sortBy lt l).Perm l := by
  have hfold (l acc : List α) : (l.foldl (fun acc a => insertBy lt a acc) acc).Perm (l ++ acc) := by
    induction l generalizing acc with
    | nil => exact .refl _
    | cons a l ih => exact (ih _).trans (((insertBy_perm ..).append_left l).trans List.perm_middle)
  exact (hfold l []).trans (by rw [List.append_nil])

/-- What the requests' entry into a step and its batch in memory may change. -/
def EnterOnly (s t : State) : Prop :=
  t = { s with
    car := { s.car with reqs := t.car.reqs, cached := t.car.cached }
    pair := { s.pair with dirty := t.pair.dirty }
    mem := t.mem }

theorem EnterOnly.refl (s : State) : EnterOnly s s := rfl

theorem EnterOnly.trans {s t u : State} (h : EnterOnly s t) (k : EnterOnly t u) : EnterOnly s u := by
  unfold EnterOnly at *
  rw [k, h]

theorem OnchipOnly.enterOnly {s t : State} (h : OnchipOnly s t) : EnterOnly s t := by
  unfold EnterOnly
  rw [h]

theorem enterStep_enterOnly (s : State) (b : BatchE) : EnterOnly s (enterStep s b) := rfl

theorem partPut_enterOnly (s : State) (p a : Nat) (bs : List Byte) : EnterOnly s (partPut s p a bs) :=
  each_rel EnterOnly.refl EnterOnly.trans (fun s x => by
    dsimp only
    split
    · split
      · exact rfl
      · exact .refl s
    · split
      · exact (sramPut_onchipOnly ..).enterOnly
      · exact .refl s
    · split
      · exact (sramPut_onchipOnly ..).enterOnly
      · exact .refl s
    · exact .refl s) _ _

/-- The step of a batch: its run, and its contexts (R124, R244). -/
theorem stepStart_runs (s : State) (p : Nat) (st : Nat × Bool) (v : BitVec 256) (l : List BatchE) :
    let t := stepStart s p st v l
    ∃ x, mget t.car.steps p = some x ∧ x.service = st.1 ∧ x.prefill = st.2 ∧ x.stepId = (if st.2 then svPrefill v else svDecode v)
      ∧ x.batch.Perm l ∧ x.dispatched = s.clk.now ∧ x.ended = false ∧ x.fault = none ∧ x.replays = 0
      ∧ x.params = batchParams s p x.buffer x.batch
      ∧ (∀ e, costEntry s p x.stepId = some e → x.ctxs = (partCtxs s p).filter fun c => (fld e 215 200 >>> (4 * (c / 4))) % 16 != 0)
      ∧ (∀ c ∈ x.ctxs, ∀ q : PartId, (ctxGet s c).part = some q → (ctxGet s c).step = none →
          (ctxGet t c).step.map Dispatch.stepId = some x.stepId ∧ (ctxGet t c).params = x.params)
      ∧ t.car.rounds = s.car.rounds := by
  dsimp only
  unfold stepStart
  extract_lets batch id e buf s₁ s₂ ps quads ctxs run car s₃ s₄
  have h₂ : EnterOnly s s₂ := (each_rel EnterOnly.refl EnterOnly.trans enterStep_enterOnly _ _).trans (partPut_enterOnly ..)
  have h₄ : LinkOnly s₃ s₄ := by
    unfold s₄ batchSend
    split
    · exact g63Send_linkOnly ..
    · exact .refl _
  obtain ⟨h₅, htakes⟩ := dispatchTo_takes s₄ p id (fld e 231 216) ps ctxs
  have hcar : (dispatchTo s₄ p id (fld e 231 216) ps ctxs).car = s₃.car := by rw [h₅, h₄]
  have hseq₃ : s₃.seq = s.seq := congrArg (fun s => s.seq) h₂
  have hseq : s₄.seq = s.seq := (congrArg (fun s => s.seq) h₄).trans hseq₃
  refine ⟨run, ?_, rfl, rfl, rfl, sortBy_perm .., ?_, rfl, rfl, rfl, ?_, fun e' he' => ?_, fun c hc q hpart hfree => ?_, ?_⟩
  · rw [hcar]
    exact mget_mset_same ..
  · exact congrArg (fun s => s.clk.now) h₂
  · show batchParams s₂ p buf batch = batchParams s p buf batch
    rw [h₂]
    rfl
  · have hentry : e = e' := by
      unfold e
      rw [he']
      rfl
    show (partCtxs s₂ p).filter (fun c => (fld e 215 200 >>> (4 * (c / 4))) % 16 != 0) = _
    rw [h₂, hentry]
    rfl
  · have hctx : ctxGet s₄ c = ctxGet s c := by
      unfold ctxGet
      rw [hseq]
    exact htakes c hc q (by rwa [hctx]) (by rwa [hctx])
  · rw [hcar]
    exact congrArg (fun s => s.car.rounds) h₂

/-- A stage with a batch that is neither held nor waits is done with, and its step starts. -/
theorem stageGo_work {s : State} {p n : Nat} {rd : Round} {st : Nat × Bool} {rest : List (Nat × Bool)} {a : Picks} {u : State} {v : BitVec 256}
    (hround : mget s.car.rounds p = some rd) (hstages : rd.stages = st :: rest) (hstage : stagePicks s p rd st = (a, u))
    (hwait : a.wait = false) (hheld : rampHeld u p st a.picks = false) (hpicks : a.picks ≠ []) (hserv : serviceOf u p st.1 = some v) :
    stageGo p (n + 1) s =
      stepStart { u with car := { u.car with rounds := mset u.car.rounds p { rd with stages := rest } } } p st v a.picks := by
  have hgo : ¬ (a.wait || rampHeld u p st a.picks) = true := by simp [hwait, hheld]
  rw [stageGo, hround]
  dsimp only
  rw [hstages]
  dsimp only
  rw [hstage]
  dsimp only
  rw [if_neg hgo, show serviceOf { u with car := { u.car with rounds := mset u.car.rounds p { rd with stages := rest } } } p st.1 = some v from hserv]
  exact if_neg hpicks

/-- Settles O16: the stage's picks take pages only, and the step that starts has the run and the contexts told of. -/
theorem stepDispatchStartsTheStageWithWork : Obligations.StepDispatchStartsTheStageWithWork := by
  intro p s rd st rest v hround hcopies hdue hstages hrunning hok a hwait hheld hpicks hserv
  have honly : PageOnly s a.2 := stagePicks_pageOnly ..
  have hexec : exec (.stepDispatch p) s = execStepDispatch p s := rfl
  let u : State := { a.2 with car := { a.2.car with rounds := mset a.2.car.rounds p.val { rd with stages := rest } } }
  have hrun : exec (.stepDispatch p) s = .next (stepStart u p.val st v a.1.picks) := by
    have hround' : mgetD s.car.rounds p.val {} = rd := by
      unfold mgetD
      rw [hround]
      rfl
    have hfirst : ¬ (rd.copies ≠ [] ∨ stepRunning s p.val = true ∨ (!roundsOk s p.val) = true) := by
      simp [hcopies, hrunning, hok]
    rw [hexec, execStepDispatch, hround]
    dsimp only
    rw [if_neg hfirst, if_pos hdue, hround', if_neg (by simp [hcopies, hdue])]
    exact congrArg Host.Outcome.next (stageGo_work (a := a.1) (u := a.2) hround hstages rfl hwait hheld hpicks hserv)
  obtain ⟨x, hstep, hservice, hprefill, hid, hperm, hdisp, hended, hfault, hreplays, hparams, hctxs, htakes, hrounds⟩ :=
    stepStart_runs u p.val st v a.1.picks
  have hseq : u.seq = s.seq := congrArg (fun s => s.seq) honly
  refine ⟨_, hrun, x, hstep, hservice, hprefill, hid, hperm.length_eq, fun b => hperm.mem_iff, ?_, hended, hfault, hreplays, hparams,
    fun e he => ?_, fun c hc hpart hfree => ?_, ?_⟩
  · exact hdisp.trans (congrArg (fun s => s.clk.now) honly)
  · have himages : u.car.images = s.car.images := congrArg (fun s => s.car.images) honly
    have hentry : costEntry u p.val x.stepId = costEntry s p.val x.stepId := by
      unfold costEntry imageOf
      rw [himages]
    rw [hctxs e (hentry.trans he), partCtxs, partCtxs, hseq]
  · have hctx : ctxGet u c = ctxGet s c := by
      unfold ctxGet
      rw [hseq]
    exact htakes c hc p (by rwa [hctx]) (by rwa [hctx])
  · rw [hrounds]
    exact congrArg (Option.map Round.stages) (mget_mset_same ..)

end Sys2Proof.Machine
end

section
/-! SUPPORT. O17 and O18 fail on states that no run reaches: a request table that lists one handle twice, and a step in a context beyond the tray's sixteen. -/

namespace Sys2Proof.Machine

open Sys2Proof Sys2Proof.Claims

/-- A number read off the state that a command leaves. -/
def readAfter (r : Res) (f : State → Nat) : Option Nat :=
  match r with
  | .next t => some (f t)
  | _ => none

theorem readAfter_next {r : Res} {t : State} (h : r = .next t) (f : State → Nat) : readAfter r f = some (f t) := by rw [h]; rfl

/-- A booted tray whose partition 0 is ACTIVE on every quadrant and owns two granules. -/
def bootedTray : State :=
  { tray := { presence := .asserted, mainSwitch := true, mainGood := true, ready := true, dieOn := 0xF, quadOn := 0xFFFF,
              hub := { aux := true, gatehouse := true, hubCommon := true, pavilion := true, carouselDma := true, hbmA := true, hbmB := true,
                       pcie := true, trellis := true, zoetrope := true } },
    gate := { parts := [(0, { st := .active, quads := 0xFFFF })] },
    mem := { granules := [(5, { st := .owned, owner := 0, slot := 0 }), (6, { st := .owned, owner := 0, slot := 0 })] } }

/-- An image of one service whose PREFILL_STEP is 1. -/
def oneService : Image :=
  { bundleVer := 1, descVer := 1, locs := [], bundles := [], setupBase := [0, 0, 0, 0], vtable := [], setups := [],
    cost := [0, BitVec.ofNat 256 (2 ^ 240 + 2 ^ 236)],
    services := [BitVec.ofNat 256 (2 ^ 252 + 2 ^ 251 + 2 ^ 238 + 0xFFF * 2 ^ 226 + 16 * 2 ^ 206 + 4 * 2 ^ 190 + 4 * 2 ^ 177)],
    outBytes := [4], inBytes := [64], kv := [], kvIdentity := 0, syncTables := [], slots := [], pinwheelDies := [], deltaDies := [],
    baseId := 7, varPerStep := 1, maxTiles := 0, matrixTiles := [], matrixForm := [(0, 1)], baseTileU := [], digest := 0 }

/-- A run of step 1 for service 0. -/
def oneRun (batch : List BatchE) (ctxs : List Nat) : StepRun :=
  { stepId := 1, service := 0, prefill := true, batch := batch, buffer := 0, params := [], quads := 0xFFFF, dispatched := 0, dispatchedTb := 0,
    startedAt := 0, ctxs := ctxs, cost := 1000, depth := 0 }

/-- The run of a step that names handles 5 and 6, in context 0. -/
def twiceRun : StepRun := oneRun [⟨5, 0, 0, false⟩, ⟨6, 0, 0, false⟩] [0]

/-- Handle 5 stands twice in the request table, the second time with a page that has RETAIN set; its step has ended with a watchdog fault. -/
def twiceListed : State :=
  { bootedTray with
    seq := { ctxs := [(0, { part := some 0, fault := some fcWatchdog, step := some ⟨1, 0, []⟩ })] }
    car := { reqs := [(5, { st := .decode }), (5, { st := .decode, pages := [(0, 0xA0000000)] }), (6, { st := .decode })], steps := [(0, twiceRun)] } }

/-- When request 6 ends, RETAIN is set anew (R439) for what the table lists of handle 5 a second time, and the request that had ended is live again. -/
theorem stepComplete_twiceListed : readAfter (exec (.stepComplete 0) twiceListed) (fun t => if live (reqGet t 5) then 1 else 0) = some 1 := by
  decide +kernel

/-- Refutes O17: a handle that the request table lists twice is live again after the batch it was in has failed. -/
theorem not_stepsEndWhenDoneOrFaulted : ¬ Obligations.StepsEndWhenDoneOrFaulted := by
  rintro ⟨-, -, hends⟩
  obtain ⟨t, hrun, -, hdead, -⟩ := hends 0 twiceListed twiceRun fcWatchdog rfl rfl rfl (by decide +kernel) (by decide) (by decide)
  have hlive := stepComplete_twiceListed
  rw [readAfter_next hrun, hdead ⟨5, 0, 0, false⟩ (by decide)] at hlive
  cases hlive

/-- The run of a step that waits for its replay, in context 3,937,020: the count of its quadrant's unwritten fetches would lie in OD 0x7C25. -/
def strayRun : StepRun := { oneRun [⟨0, 0, 1, true⟩] [3937020] with ended := true, fault := some fcParity }

/-- A step in a context that the tray does not have. -/
def strayContext : State :=
  { bootedTray with
    seq := { ctxs := [(3937020, { part := some 0, granules := [24] })] }
    car := { images := [(0, { img := oneService })], reqs := [(0, { st := .admitted, promptLen := 4, prefillTo := 4, maxLen := 8 })], steps := [(0, strayRun)] } }

/-- The fetch that R91 answers with zeros counts its eight lines (OD 0x4012) where the replays are counted. -/
theorem stepReplay_strayContext : readAfter (exec (.stepReplay 0) strayContext) (fun t => odGet t 0x7C25 0) = some 9 := by
  decide +kernel

/-- Refutes O18: the replay of a step in a context beyond the tray's sixteen counts that context's unwritten fetch in the replay counter. -/
theorem not_replayAndWaitingLoadResume : ¬ Obligations.ReplayAndWaitingLoadResume := by
  rintro ⟨-, hreplays, -⟩
  obtain ⟨t, hrun, -, hcount, -⟩ := hreplays 0 strayContext strayRun rfl rfl (by decide +kernel) (by decide) (by decide +kernel)
  have hnine := stepReplay_strayContext
  rw [readAfter_next hrun, hcount] at hnine
  exact absurd hnine (by decide +kernel)

/-! ### Variants -/

/-- A write by the officer whose session 0 is open. -/
def officer : DictReq := ⟨.session 0, 1, true⟩

/-- The booted tray with the officer's session open. -/
def officerTray : State := { bootedTray with pav := { sessions := [(0, { isOpen := true, role := .officer })] } }

/-- Variant 1 of partition 0 stands twice in the map: ACTIVE with its parts at 64, and once more RETIRING with them at 128. -/
def twiceVariant : State :=
  { officerTray with variants := [(varKey 0 1, { st := .active, addr := 64 }), (varKey 0 1, { st := .retiring, addr := 128 })] }

theorem mayRetire_twiceVariant : MayStore twiceVariant officer 0x3800 1 (varBytes 2 1 0) := by
  refine ⟨by decide +kernel, ⟨0x3800, 1, 16, 8, .rw, 0, .rule⟩, ?_, ?_, ?_⟩
  · decide +kernel
  · decide +kernel
  · decide +kernel

/-- The rebuild that a RETIRE starts writes what the map lists second back over the variant retired. -/
theorem variantRetire_twiceVariant :
    readAfter (exec (.variantRetire officer 0 1) twiceVariant) (fun t => ((mget t.variants (varKey 0 1)).map Variant.addr).getD 0) = some 128 := by
  decide +kernel

/-- Refutes O20: a RETIRE of a variant that the map lists twice leaves the other's parts in its place. -/
theorem not_variantsRegisterCheckAndRetire : ¬ Obligations.VariantsRegisterCheckAndRetire := by
  intro h
  obtain ⟨-, hretire, -⟩ := h officer 0 1 0 twiceVariant (by decide)
  obtain ⟨-, -, hactive⟩ := hretire mayRetire_twiceVariant
  obtain ⟨t, hrun, -, y, hy, hparts⟩ := hactive { st := .active, addr := 64 } (by decide +kernel) rfl
  have haddr := variantRetire_twiceVariant
  rw [readAfter_next hrun, show mget t.variants (varKey 0 1) = some y from hy, hparts] at haddr
  cases haddr

/-! ### Requests -/

/-- A submission entry of function 1's ring 0. -/
def takenEntry (op other : Nat) : Taken := { f := 0, ring := 0, entry := BitVec.ofNat 512 (2 ^ 508 + op * 2 ^ 504 + other), tArrive := 0, arriveAt := 5 }

/-- The booted tray with function 1's rings of 64 entries, a CANCEL of request 5 taken, and handle 7 twice in the request table, the second time with a page that has RETAIN set. -/
def twiceBystander : State :=
  { bootedTray with
    pcie := { linkUp := true, numVfs := 16, vfEnable := true,
              funcs := [(1, { st := .running, busMaster := true, memSpace := true, sq := [(0, { log2 := 6 })], cq := [(0, { log2 := 6 })] })] }
    car := { taken := [takenEntry 2 (5 * 2 ^ 366)]
             reqs := [(5, { st := .decode }), (7, { st := .decode }), (7, { st := .decode, prio := 1, pages := [(0, 0xA0000000)] })] } }

theorem ringRoom_twiceBystander : RingRoom twiceBystander 0 (eCring (entryOf twiceBystander (takenEntry 2 (5 * 2 ^ 366)))) := by
  unfold RingRoom
  decide +kernel

/-- RETAIN set anew (R439) writes what the table lists second of handle 7 over the first. -/
theorem cancel_twiceBystander : readAfter (exec .cancel twiceBystander) (fun t => (reqGet t 7).prio) = some 1 := by
  decide +kernel

/-- Refutes O22: the end of one request changes another that the request table lists twice. -/
theorem not_loadsAllocationsAndCancelsAreAnswered : ¬ Obligations.LoadsAllocationsAndCancelsAreAnswered := by
  rintro ⟨hcancels, -⟩
  obtain ⟨-, -, hlive, -⟩ := hcancels twiceBystander 0 (takenEntry 2 (5 * 2 ^ 366)) (by decide +kernel) ringRoom_twiceBystander
  obtain ⟨t, hrun, -, -, hothers⟩ := (hlive (by decide +kernel) (by decide +kernel) (by decide +kernel) (by decide +kernel) (by decide +kernel)).1
    (by decide +kernel)
  have hprio := cancel_twiceBystander
  rw [readAfter_next hrun, (hothers 7 (by decide +kernel)).1] at hprio
  exact absurd (show some (reqGet twiceBystander 7).prio = some 1 from hprio) (by decide +kernel)

/-- Handle 3 stands twice in the request table, the second time with a page that has RETAIN set. -/
def twiceMatched : State :=
  { bootedTray with
    car := { images := [(0, { img := { oneService with kv := [BitVec.ofNat 64 (2 ^ 60)] } })]
             reqs := [(3, { st := .admitted, bmax := 1 }), (3, { st := .admitted, bmax := 1, pages := [(0, 0xA0000000)] })] } }

theorem prefixMatch_twiceMatched : readAfter (exec (.prefixMatch 3) twiceMatched) (fun t => if (reqGet t 3).matched then 1 else 0) = some 0 := by
  decide +kernel

/-- Refutes O23: what the request table lists second of a matched handle takes its place, and is not matched. -/
theorem not_prefixIndexMatchesAndRebuilds : ¬ Obligations.PrefixIndexMatchesAndRebuilds := by
  rintro ⟨hmatches, -⟩
  obtain ⟨t, hrun, hmatched, -⟩ := hmatches 3 twiceMatched (by decide +kernel) (by decide +kernel) (by decide +kernel) (by decide +kernel) (by decide +kernel)
  have hnot := prefixMatch_twiceMatched
  rw [readAfter_next hrun, hmatched] at hnot
  cases hnot

end Sys2Proof.Machine
end

section
/-! SUPPORT. O19: the jobs of the die engines, and their owners (R199 to R206, R277 to R282, R289, R401). -/

namespace Sys2Proof.Machine

open Sys2Proof Sys2Proof.Claims

/-! ### Steps that a die engine ends -/

/-- What the early end of a step may change. -/
def StepEndOnly (s t : State) : Prop := t = { s with seq := t.seq, dma := t.dma }

theorem StepEndOnly.refl (s : State) : StepEndOnly s s := rfl

theorem StepEndOnly.trans {s t u : State} (h : StepEndOnly s t) (k : StepEndOnly t u) : StepEndOnly s u := by
  unfold StepEndOnly at *
  rw [k, h]

/-- An early end sets its context, whose step ran without a fault, and no other. -/
theorem ctxEnd_sets (s : State) (c : Nat) (code : Fin 5) :
    StepEndOnly s (ctxEnd s c code)
    ∧ (∀ e, e ≠ c → ctxGet (ctxEnd s c code) e = ctxGet s e)
    ∧ ((ctxGet s c).step.isSome = true → (ctxGet s c).fault = none →
      ctxGet (ctxEnd s c code) c = { ctxGet s c with fault := some code, fetching := false, latch := none })
    ∧ ((ctxGet s c).fault.isSome = true → ctxEnd s c code = s) := by
  unfold ctxEnd
  extract_lets x s₁ s₂
  have h₂ : StepEndOnly s s₂ ∧ s₂.seq.ctxs = s₁.seq.ctxs := by
    unfold s₂
    split
    · exact ⟨rfl, rfl⟩
    · exact ⟨rfl, rfl⟩
  have h₃ : StepEndOnly s₂ (each (ctxLanes s₂ c) (fun s l => laneSet s l (laneStop (laneGet s l))) s₂)
      ∧ (each (ctxLanes s₂ c) (fun s l => laneSet s l (laneStop (laneGet s l))) s₂).seq.ctxs = s₂.seq.ctxs :=
    each_rel (R := fun s t => StepEndOnly s t ∧ t.seq.ctxs = s.seq.ctxs) (fun _ => ⟨rfl, rfl⟩) (fun h k => ⟨h.1.trans k.1, k.2.trans h.2⟩)
      (fun s l => ⟨(show StepEndOnly s (laneSet s l _) from rfl), rfl⟩) _ _
  have hctx (e : Nat) : ctxGet (each (ctxLanes s₂ c) (fun s l => laneSet s l (laneStop (laneGet s l))) s₂) e = ctxGet s₁ e := by
    unfold ctxGet
    rw [h₃.2, h₂.2]
  split
  · next hidle =>
    refine ⟨.refl s, fun _ _ => rfl, fun hstep hfault => ?_, fun _ => rfl⟩
    rw [Option.isSome_iff_exists] at hstep
    obtain ⟨d, hd⟩ := hstep
    simp [x, hd, hfault] at hidle
  · next hrun =>
    refine ⟨h₂.1.trans h₃.1, fun e he => (hctx e).trans (ctxGet_ctxSet_ne _ _ he), fun _ _ => (hctx c).trans (ctxGet_ctxSet ..), fun hfault => ?_⟩
    exact absurd (by simp [x, hfault]) hrun

theorem dieCtxs_nodup (s : State) (d p : Nat) : (dieCtxs s d p).Nodup := by
  refine List.Nodup.filter _ (List.Nodup.map (fun a b h => ?_) List.nodup_range)
  exact Nat.add_left_cancel h

/-- A die engine's fault ends the step in every context of its partition on the die. -/
theorem dieFault_ends {s : State} {d p : Nat} (code : Fin 5) (hfree : ∀ c ∈ dieCtxs s d p, (ctxGet s c).fault = none) :
    StepEndOnly s (dieFault s d p code)
    ∧ ∀ c ∈ dieCtxs s d p, (ctxGet (dieFault s d p code) c).fault = some code ∧ (ctxGet (dieFault s d p code) c).fetching = false := by
  have hstep : ∀ c ∈ dieCtxs s d p, (ctxGet s c).step.isSome = true := fun c hc => by
    have := (List.mem_filter.mp hc).2
    simp only [Bool.and_eq_true] at this
    exact this.1
  have hfold (l : List Nat) (hl : l.Nodup) (u : State) (hu : ∀ c ∈ l, (ctxGet u c).step.isSome = true ∧ (ctxGet u c).fault = none) :
      let t := each l (fun s c => ctxEnd s c code) u
      StepEndOnly u t ∧ (∀ c, c ∉ l → ctxGet t c = ctxGet u c) ∧ ∀ c ∈ l, (ctxGet t c).fault = some code ∧ (ctxGet t c).fetching = false := by
    induction l generalizing u with
    | nil => exact ⟨.refl u, fun _ _ => rfl, fun c hc => absurd hc List.not_mem_nil⟩
    | cons b l ih =>
      obtain ⟨hb, hl⟩ := List.nodup_cons.mp hl
      obtain ⟨honly, hne, hset, -⟩ := ctxEnd_sets u b code
      obtain ⟨hrest, hout, hin⟩ := ih hl (ctxEnd u b code) fun c hc => by
        rw [hne c fun h => hb (h ▸ hc)]
        exact hu c (by simp [hc])
      refine ⟨honly.trans hrest, fun c hc => ?_, fun c hc => ?_⟩
      · obtain ⟨hcb, hcl⟩ := not_or.mp (fun h => hc (List.mem_cons.mpr h))
        exact (hout c hcl).trans (hne c hcb)
      · rcases List.mem_cons.mp hc with rfl | hc
        · have := (hout c hb).trans (hset (hu c (by simp)).1 (hu c (by simp)).2)
          constructor
          · exact congrArg Context.fault this
          · exact congrArg Context.fetching this
        · exact hin c hc
  obtain ⟨honly, -, hin⟩ := hfold _ (dieCtxs_nodup s d p) s fun c hc => ⟨hstep c hc, hfree c hc⟩
  exact ⟨honly, hin⟩

/-! ### Lines that a die engine reads -/

/-- Only unwritten lines are counted. -/
def LinesCounted (s t : State) : Prop :=
  CountsOnly s t ∧ ∀ i j, (∀ q, q < 16 → odKey i j ≠ odKey 0x4012 (q + 1)) → odGet t i j = odGet s i j

theorem LinesCounted.refl (s : State) : LinesCounted s s := ⟨rfl, fun _ _ _ => rfl⟩

theorem LinesCounted.trans {s t u : State} (h : LinesCounted s t) (k : LinesCounted t u) : LinesCounted s u :=
  ⟨h.1.trans k.1, fun i j hk => (k.2 i j hk).trans (h.2 i j hk)⟩

theorem sramRead_linesCounted (s : State) {q : Nat} (hq : q < 16) (o a n : Nat) : LinesCounted s (sramRead s q o a n).2 := by
  refine ⟨sramRead_countsOnly .., fun i j hk => ?_⟩
  unfold sramRead
  dsimp only
  split
  · rfl
  · exact odGet_bumpBy_ne _ _ _ (hk q hq)

/-- Clusters and cores that addresses name are the tray's. -/
theorem placeOf_bounds {s : State} {a : Nat} :
    (∀ c off, placeOf s a = .clus c off → clusQuad c < 16) ∧ ∀ k off, placeOf s a = .core k off → coreQuad k < 16 := by
  have hcore {l k : Nat} (h : coreOfLoc l = some k) : k < 256 := by
    unfold coreOfLoc at h
    dsimp only at h
    split at h
    · obtain rfl := Option.some.inj h
      omega
    · cases h
  unfold placeOf
  refine ⟨fun c off h => ?_, fun k off h => ?_⟩
  · dsimp only at h
    split at h
    · split at h
      · cases h
      · cases h
    · split at h
      · cases h
      · split at h
        · cases h
        · split at h
          · cases h
          · next k hk =>
            have := hcore hk
            split at h
            · split at h
              · obtain ⟨rfl, -⟩ := Place.clus.inj h
                unfold clusQuad
                omega
              · cases h
            · split at h
              · cases h
              · cases h
  · dsimp only at h
    split at h
    · split at h
      · cases h
      · cases h
    · split at h
      · cases h
      · split at h
        · cases h
        · split at h
          · cases h
          · next k' hk =>
            have := hcore hk
            split at h
            · split at h
              · cases h
              · cases h
            · split at h
              · obtain ⟨rfl, -⟩ := Place.core.inj h
                unfold coreQuad
                omega
              · cases h

/-- Without an error of memory a line is read, and only its unwritten bytes' lines are counted. -/
theorem lineLoadAt_linesCounted (s : State) (p a : Nat) : LinesCounted s (lineLoadAt s p [] a).2 ∧ (lineLoadAt s p [] a).1.ue = false := by
  obtain ⟨hclus, hcore⟩ := placeOf_bounds (s := s) (a := a)
  refine ⟨?_, (lineLoadAt_countsOnly s p a).2⟩
  unfold lineLoadAt
  split
  · split
    · exact .refl s
    · exact .refl s
  · next hp =>
    split
    · exact sramRead_linesCounted s (hclus _ _ hp) ..
    · exact .refl s
  · next hp =>
    split
    · exact sramRead_linesCounted s (hcore _ _ hp) ..
    · exact .refl s
  · exact .refl s

theorem dieReads_clean (s : State) (p : Nat) (ls : List Nat) : ∃ t, dieReads s p [] ls = ([], t) ∧ LinesCounted s t := by
  unfold dieReads
  induction ls generalizing s with
  | nil => exact ⟨s, rfl, .refl s⟩
  | cons a ls ih =>
    obtain ⟨hcounted, hue⟩ := lineLoadAt_linesCounted s p a
    obtain ⟨t, ht, hrest⟩ := ih (lineLoadAt s p [] a).2
    refine ⟨t, ?_, hcounted.trans hrest⟩
    rw [List.foldl_cons]
    dsimp only
    rw [hue]
    exact ht

/-- An access that fails its checks ends the step. -/
theorem dieWork_refused {s : State} {d p : Nat} {ecc : List EccEvent} {rd wr : List Nat} (h : dieAccess s d p rd wr ≠ 0) :
    dieWork s d p ecc rd wr = (false, dieFault s d p (statusFault (dieAccess s d p rd wr))) := if_pos h

/-- An access that passes them, and meets no error, is made. -/
theorem dieWork_clean {s : State} {d p : Nat} {rd wr : List Nat} (h : dieAccess s d p rd wr = 0) :
    ∃ t, dieWork s d p [] rd wr = (true, t) ∧ LinesCounted s t := by
  obtain ⟨t, ht, hcounted⟩ := dieReads_clean s p rd
  refine ⟨t, ?_, hcounted⟩
  unfold dieWork
  dsimp only
  rw [ht]
  exact if_neg (not_not_intro h)

/-! ### Bytes that a die engine writes -/

/-- Only memory differs. -/
def MemOnly (s t : State) : Prop := t = { s with mem := t.mem }

theorem MemOnly.refl (s : State) : MemOnly s s := rfl

theorem MemOnly.trans {s t u : State} (h : MemOnly s t) (k : MemOnly t u) : MemOnly s u := by
  unfold MemOnly at *
  rw [k, h]

theorem OnchipOnly.memOnly {s t : State} (h : OnchipOnly s t) : MemOnly s t := by
  unfold MemOnly
  rw [h]

theorem partPut_memOnly (s : State) (p a : Nat) (bs : List Byte) : MemOnly s (partPut s p a bs) :=
  each_rel MemOnly.refl MemOnly.trans (fun s x => by
    dsimp only
    split
    · split
      · exact rfl
      · exact .refl s
    · split
      · exact (sramPut_onchipOnly ..).memOnly
      · exact .refl s
    · split
      · exact (sramPut_onchipOnly ..).memOnly
      · exact .refl s
    · exact .refl s) _ _

/-- The writes of a die engine's job. -/
def diePuts (p : Nat) (ws : List (Nat × List Byte)) (s : State) : State := each ws (fun s w => partPut s p w.1 w.2) s

theorem diePuts_memOnly (p : Nat) (ws : List (Nat × List Byte)) (s : State) : MemOnly s (diePuts p ws s) :=
  each_rel MemOnly.refl MemOnly.trans (fun _ _ => partPut_memOnly ..) _ _

/-- Two states that differ in the dictionary's values, and agree on the quadrants that run. -/
def SameButCounts (s t : State) : Prop := t = { s with pav := t.pav } ∧ ∀ q, q < 16 → quadOn t q = quadOn s q

theorem MemOnly.quadOn {s t : State} (h : MemOnly s t) (q : Nat) : quadOn t q = quadOn s q := by rw [h]; rfl

/-- Equal writes to memory keep two such states so. -/
theorem SameButCounts.mem {s t s' t' : State} (h : SameButCounts s t) (hs : MemOnly s s') (ht : MemOnly t t') (hmem : t'.mem = s'.mem) :
    SameButCounts s' t' := by
  refine ⟨?_, fun q hq => (ht.quadOn q).trans ((h.2 q hq).trans (hs.quadOn q).symm)⟩
  rw [ht, hs, hmem, h.1]

theorem SameButCounts.each {α : Type} {f : State → α → State} (hf : ∀ s t x, SameButCounts s t → SameButCounts (f s x) (f t x)) {s t : State}
    (h : SameButCounts s t) (l : List α) : SameButCounts (each l f s) (each l f t) := by
  induction l generalizing s t with
  | nil => exact h
  | cons a l ih => exact ih (hf s t a h)

/-- A state with another dictionary. -/
def withPav (v : PavS) (s : State) : State := { s with pav := v }

theorem lineTake_withPav (v : PavS) (s : State) (o a : Nat) : lineTake (withPav v s) o a = withPav v (lineTake s o a) := by
  have htag : tagOk (withPav v s) o a = tagOk s o a := rfl
  unfold lineTake
  rw [htag]
  split
  · rfl
  · rfl

/-- The dictionary has no part in a store on chip. -/
theorem sramPut_withPav (v : PavS) (s : State) (o a : Nat) (bs : List Byte) : sramPut (withPav v s) o a bs = withPav v (sramPut s o a bs) := by
  have hlines (l : List Nat) (s : State) : Machine.each l (fun s l => lineTake s o l) (withPav v s) = withPav v (Machine.each l (fun s l => lineTake s o l) s) := by
    induction l generalizing s with
    | nil => rfl
    | cons a l ih =>
      show Machine.each l (fun s l => lineTake s o l) (lineTake (withPav v s) o a) = withPav v (Machine.each l (fun s l => lineTake s o l) (lineTake s o a))
      rw [lineTake_withPav, ih]
  unfold sramPut
  split
  · rfl
  · dsimp only
    rw [hlines]
    rfl

theorem sramPut_same {s t : State} (h : SameButCounts s t) (o a : Nat) (bs : List Byte) : SameButCounts (sramPut s o a bs) (sramPut t o a bs) := by
  refine h.mem (sramPut_onchipOnly ..).memOnly (sramPut_onchipOnly ..).memOnly ?_
  have ht : t = withPav t.pav s := h.1
  rw [ht, sramPut_withPav]
  rfl

theorem partPut_same {s t : State} (h : SameButCounts s t) (p a : Nat) (bs : List Byte) : SameButCounts (partPut s p a bs) (partPut t p a bs) := by
  refine SameButCounts.each (fun s t x h => ?_) h _
  have hplace : placeOf t (a + x.2) = placeOf s (a + x.2) := by
    rw [h.1]
    rfl
  have howner (q : Nat) : quadOwner t q = quadOwner s q := by
    rw [h.1]
    rfl
  have hline : lineOk t p (a + x.2) = lineOk s p (a + x.2) := by
    rw [h.1]
    rfl
  obtain ⟨hclus, hcore⟩ := placeOf_bounds (s := s) (a := a + x.2)
  dsimp only
  rw [hplace]
  split
  · rw [hline]
    split
    · exact h.mem rfl rfl (by rw [h.1]; rfl)
    · exact h
  · next hp =>
    rw [h.2 _ (hclus _ _ hp), howner]
    split
    · exact sramPut_same h ..
    · exact h
  · next hp =>
    rw [h.2 _ (hcore _ _ hp), howner]
    split
    · exact sramPut_same h ..
    · exact h
  · exact h

/-- Lines counted leave the quadrants that run (R384). -/
theorem LinesCounted.same {s t : State} (h : LinesCounted s t) : SameButCounts s t := by
  refine ⟨?_, fun q hq => ?_⟩
  · have := h.1
    unfold CountsOnly at this
    rw [this]
  · have hod : odGet t 0x1002 (q + 1) = odGet s 0x1002 (q + 1) := h.2 _ _ fun r hr => by
      unfold odKey
      omega
    have htray : t.tray = s.tray := by rw [h.1]
    unfold quadOn clkRuns
    rw [hod, htray]

/-- Lines counted do not change what a job's writes leave in memory. -/
theorem LinesCounted.diePuts_mem {s t : State} (h : LinesCounted s t) (p : Nat) (ws : List (Nat × List Byte)) :
    SameButCounts (diePuts p ws s) (diePuts p ws t) ∧ (diePuts p ws t).mem = (diePuts p ws s).mem := by
  have hsame : SameButCounts (diePuts p ws s) (diePuts p ws t) := h.same.each (α := Nat × List Byte) (f := fun s w => partPut s p w.1 w.2) (fun _ _ w h => partPut_same h p w.1 w.2) ws
  exact ⟨hsame, by rw [hsame.1]⟩

/-! ### Posts -/

theorem clusOfLoc_bound {l c : Nat} (h : clusOfLoc l = some c) : clusQuad c < 16 := by
  unfold clusOfLoc at h
  dsimp only at h
  split at h
  · obtain rfl := Option.some.inj h
    unfold clusQuad
    omega
  · cases h

/-- A post counts in OD 0x4011 of the counter's quadrant or in OD 0x7017, and in no other object. -/
theorem odGet_locPost (s : State) (part loc cnt : Nat) (amt : W32) {i j : Nat} (h : odKey i j < odKey 0x7017 0)
    (h' : ∀ q, q < 16 → odKey i j ≠ odKey 0x4011 (q + 1)) : odGet (locPost s part loc cnt amt) i j = odGet s i j := by
  have hrel (n : Nat) : odKey i j ≠ odKey 0x7017 (n + 1) := by
    unfold odKey at *
    omega
  unfold locPost
  split
  · unfold releasePost
    dsimp only
    split
    · split
      · split
        · exact odGet_bumpBy_ne _ _ _ (hrel part)
        · rfl
      · exact odGet_bumpBy_ne _ _ _ (hrel part)
    · exact odGet_bumpBy_ne _ _ _ (hrel part)
  · split
    · next c hc =>
      have hquad := clusOfLoc_bound hc
      unfold cntPost
      split
      · rfl
      · split
        · exact odGet_odSet_ne _ _ (h' _ hquad)
        · rfl
    · rfl

/-- What the post of a job does: nothing to memory, the cores or a step, and to its counter, where it is the job's partition's, the amount. -/
theorem jobPosts {s : State} {p loc cnt : Nat} {amt : W32} (en : Bool) :
    let t := if en then locPost s p loc cnt amt else s
    PostOnly s t ∧ (en = false → t.sync = s.sync)
    ∧ ∀ c, en = true → clusOfLoc loc = some c → clusOn s c = true → quadOwner s (clusQuad c) = p →
        cntValue (cntGet t c cnt) = cntValue (cntGet s c cnt) + amt := by
  cases en with
  | false => exact ⟨rfl, fun _ => rfl, fun c h => absurd h (by simp)⟩
  | true =>
    refine ⟨locPost_postOnly .., fun h => absurd h (by simp), fun c _ hc hon hown => ?_⟩
    subst hown
    have hpost : (if true then locPost s (quadOwner s (clusQuad c)) loc cnt amt else s) = cntPost s (quadOwner s (clusQuad c)) c cnt amt :=
      locPost_cluster s hc ..
    rw [hpost]
    exact (cntPost_own hon cnt amt).2.1

/-- A die engine has read and written: memory and counts differ, and the quadrants that run are the same. -/
def DieWorked (s t : State) : Prop :=
  t = { s with mem := t.mem, pav := { s.pav with vals := t.pav.vals } } ∧ ∀ q, q < 16 → quadOn t q = quadOn s q

/-- The lines of a job are counted, and its bytes written. -/
theorem LinesCounted.dieWorked {s t : State} (h : LinesCounted s t) (p : Nat) (ws : List (Nat × List Byte)) : DieWorked s (diePuts p ws t) := by
  refine ⟨?_, fun q hq => ((diePuts_memOnly p ws t).quadOn q).trans (h.same.2 q hq)⟩
  have hputs := diePuts_memOnly p ws t
  have hcounts := h.1
  unfold MemOnly at hputs
  unfold CountsOnly at hcounts
  rw [hputs, hcounts]

/-- A count beyond the objects that clock the tray (R384). -/
theorem DieWorked.bump {s t : State} (h : DieWorked s t) (idx sub w n : Nat) (hidx : 0x1003 ≤ idx) : DieWorked s (bumpBy t idx sub w n) := by
  refine ⟨?_, fun q hq => Eq.trans ?_ (h.2 q hq)⟩
  · rw [h.1]
    rfl
  · have hod : odGet (bumpBy t idx sub w n) 0x1002 (q + 1) = odGet t 0x1002 (q + 1) := odGet_bumpBy_ne _ _ _ (by unfold odKey; omega)
    unfold quadOn clkRuns
    rw [hod]
    rfl

/-- The end of a job: its post is made, and its list, its step and the cores are as its work left them. -/
theorem DieWorked.posted {s t : State} (h : DieWorked s t) (en : Bool) (p loc cnt : Nat) (amt : W32) :
    let u := if en then locPost t p loc cnt amt else t
    u.dieJobs = s.dieJobs ∧ u.mem = t.mem ∧ u.cores = s.cores ∧ u.seq = s.seq ∧ (en = false → u.sync = s.sync)
    ∧ (∀ c, en = true → clusOfLoc loc = some c → clusOn s c = true → quadOwner s (clusQuad c) = p →
        cntValue (cntGet u c cnt) = cntValue (cntGet s c cnt) + amt)
    ∧ ∀ i j, odKey i j < odKey 0x7017 0 → (∀ q, q < 16 → odKey i j ≠ odKey 0x4011 (q + 1)) → odGet u i j = odGet t i j := by
  obtain ⟨hpost, hsync, hadd⟩ := jobPosts (s := t) (p := p) (loc := loc) (cnt := cnt) (amt := amt) en
  have hts : t.sync = s.sync := by rw [h.1]
  refine ⟨?_, ?_, ?_, ?_, fun hen => (hsync hen).trans hts, fun c hen hc hon hown => ?_, fun i j hlow hfar => ?_⟩
  · rw [hpost, h.1]
  · rw [hpost]
  · rw [hpost, h.1]
  · rw [hpost, h.1]
  · have howner : quadOwner t (clusQuad c) = p := by
      rw [h.1]
      exact hown
    have hquad : clusQuad c < 16 := clusOfLoc_bound hc
    have hcnt : cntGet t c cnt = cntGet s c cnt := by
      unfold cntGet
      rw [hts]
    rw [hadd c hen hc ((h.2 _ hquad).trans hon) howner, hcnt]
  · split
    · exact odGet_locPost _ _ _ _ _ hlow hfar
    · rfl

/-- A job of Pinwheel is counted, and its cycles (R206). -/
def pwCounted (d : Nat) (j : BitVec 1024) (s : State) : State := bumpBy (bump64 s 0x4031 (d + 1)) 0x4032 (d + 1) 64 (pwCycles j)

theorem DieWorked.pwCounted {s t : State} (h : DieWorked s t) (d : Nat) (j : BitVec 1024) : DieWorked s (pwCounted d j t) :=
  (h.bump 0x4031 (d + 1) 64 1 (by decide)).bump 0x4032 (d + 1) 64 (pwCycles j) (by decide)

theorem odGet_pwCounted (d : Nat) (j : BitVec 1024) (s : State) :
    odGet (Machine.pwCounted d j s) 0x4031 (d + 1) = min (odGet s 0x4031 (d + 1) + 1) (2 ^ 64 - 1)
    ∧ odGet (Machine.pwCounted d j s) 0x4032 (d + 1) = min (odGet s 0x4032 (d + 1) + pwCycles j) (2 ^ 64 - 1) := by
  have hne : odKey 0x4031 (d + 1) ≠ odKey 0x4032 (d + 1) := by
    unfold odKey
    omega
  constructor
  · exact (odGet_bumpBy_ne _ _ _ hne).trans (odGet_bumpBy ..)
  · exact (odGet_bumpBy ..).trans (by rw [bump64, odGet_bumpBy_ne _ _ _ hne.symm])

/-- The objects of a die's engine are none of those that count posts and unwritten lines. -/
theorem dieObject_apart {i : Nat} (hi : i = 0x4031 ∨ i = 0x4032 ∨ i = 0x3806) (d : Die) :
    odKey i (d.val + 1) < odKey 0x7017 0 ∧ (∀ q, q < 16 → odKey i (d.val + 1) ≠ odKey 0x4011 (q + 1))
    ∧ ∀ q, q < 16 → odKey i (d.val + 1) ≠ odKey 0x4012 (q + 1) := by
  unfold odKey
  rcases hi with rfl | rfl | rfl
  · exact ⟨by omega, fun q hq => by omega, fun q hq => by omega⟩
  · exact ⟨by omega, fun q hq => by omega, fun q hq => by omega⟩
  · exact ⟨by omega, fun q hq => by omega, fun q hq => by omega⟩

/-! ### Pinwheel -/

theorem pinwheelJobsRunFromTheirList : PinwheelJobsRunFromTheirList := by
  intro d s j rest x part popped ends access hlist hfree
  have hfree' : ¬ ((dieCtxs s d.val part).any fun c => (ctxGet s c).fault.isSome) = true := by
    simp only [List.any_eq_true, not_exists, not_and]
    intro c hc
    rw [hfree c hc]
    simp
  have hpop : (mget (pinwheelPop s d.val).dieJobs d.val).map DieJobs.pinwheel = some rest := by
    have hlist : (mgetD s.dieJobs d.val {}).pinwheel = j :: rest := hlist
    rw [pinwheelPop]
    dsimp only
    rw [mupd, mget_mset_same, hlist]
    rfl
  have hexec (ecc : List EccEvent) : exec (.pinwheelJob ⟨d, ecc⟩) s = .next (if pwBad j then dieFault (pinwheelPop s d.val) d.val part fcImage
      else if !jobWait s (bit j 371) (fld j 370 351) (fld j 350 342) (fld j 341 310) then s else pinwheelRun s d.val part ecc j) := by
    have h : exec (.pinwheelJob ⟨d, ecc⟩) s = execPinwheelJob ⟨d, ecc⟩ s := rfl
    have hlist : (mgetD s.dieJobs d.val {}).pinwheel = j :: rest := hlist
    rw [h, execPinwheelJob]
    dsimp only
    rw [hlist]
    dsimp only
    rw [if_neg hfree']
    split
    · rfl
    · split
      · rfl
      · rfl
  have hends (code : Fin 5) : ends (dieFault (pinwheelPop s d.val) d.val part code) code := by
    obtain ⟨honly, hset⟩ := dieFault_ends (s := pinwheelPop s d.val) (d := d.val) (p := part) code hfree
    refine ⟨?_, by rw [honly]; rfl, by rw [honly]; rfl, hset⟩
    show (mget (dieFault (pinwheelPop s d.val) d.val part code).dieJobs d.val).map DieJobs.pinwheel = some rest
    rw [honly]
    exact hpop
  refine ⟨fun hbad ecc => ⟨_, hexec ecc, ?_⟩, fun hbad hwait ecc => ⟨_, hexec ecc, ?_⟩, fun hbad hwait => ⟨fun hacc ecc => ⟨_, hexec ecc, ?_⟩, fun hacc => ⟨_, hexec [], ?_⟩⟩⟩
  · rw [if_pos hbad]
    exact hends 1
  · rw [if_neg (by simp [hbad]), if_pos (by simp [hwait])]
  · rw [if_neg (by simp [hbad]), if_neg (by simp [hwait])]
    have hrun : pinwheelRun s d.val part ecc j = dieFault (pinwheelPop s d.val) d.val part (statusFault access) := by
      unfold pinwheelRun
      dsimp only
      rw [dieWork_refused (s := pinwheelPop s d.val) hacc]
      rfl
    rw [hrun]
    exact hends _
  · rw [if_neg (by simp [hbad]), if_neg (by simp [hwait])]
    obtain ⟨t, hwork, hcounted⟩ := dieWork_clean (s := pinwheelPop s d.val) (d := d.val) (p := part) hacc
    let u := diePuts part (pwWrites s part j) t
    obtain ⟨hjobs, hmem, hcores, hseq, hsync, hadd, hod⟩ := ((hcounted.dieWorked part (pwWrites s part j)).pwCounted d.val j).posted
      (bit j 309) part (fld j 308 289) (fld j 288 280) (BitVec.ofNat 32 (fld j 279 264))
    have hrun : pinwheelRun s d.val part [] j = if bit j 309 then
        locPost (pwCounted d.val j u) part (fld j 308 289) (fld j 288 280) (BitVec.ofNat 32 (fld j 279 264)) else pwCounted d.val j u := by
      unfold pinwheelRun
      dsimp only
      rw [hwork]
      rfl
    have hval (i : Nat) (hi : i = 0x4031 ∨ i = 0x4032 ∨ i = 0x3806) :
        odGet (pinwheelRun s d.val part [] j) i (d.val + 1) = odGet (pwCounted d.val j u) i (d.val + 1) ∧ odGet u i (d.val + 1) = odGet s i (d.val + 1) := by
      obtain ⟨hlow, hfar, hfar'⟩ := dieObject_apart hi d
      refine ⟨by rw [hrun]; exact hod _ _ hlow hfar, ?_⟩
      have hputs : u.pav = t.pav := congrArg (fun s => s.pav) (diePuts_memOnly part (pwWrites s part j) t)
      exact (show odGet u i (d.val + 1) = odGet t i (d.val + 1) by rw [odGet, hputs]; rfl).trans (hcounted.2 _ _ hfar')
    obtain ⟨hcount, hcycles⟩ := odGet_pwCounted d.val j u
    refine ⟨?_, ?_, ?_, ?_, ?_, ?_, ?_, ?_⟩
    · show (mget (pinwheelRun s d.val part [] j).dieJobs d.val).map DieJobs.pinwheel = some rest
      rw [hrun, hjobs]
      exact hpop
    · rw [hrun, hmem]
      exact (hcounted.diePuts_mem part (pwWrites s part j)).2
    · rw [(hval 0x4031 (by simp)).1, hcount, (hval 0x4031 (by simp)).2]
    · rw [(hval 0x4032 (by simp)).1, hcycles, (hval 0x4032 (by simp)).2]
    · rw [hrun, hcores]
      rfl
    · rw [hrun, hseq]
      rfl
    · intro hoff
      rw [hrun, hsync hoff]
      rfl
    · intro c hen hc hon hown
      rw [hrun]
      exact hadd c hen hc hon hown

/-! ### The delta engine -/

/-- A delta job's MACs are counted (R282). -/
def djCounted (d macs : Nat) (s : State) : State := if macs = 0 then s else bumpBy s 0x3806 (d + 1) 64 macs

theorem DieWorked.djCounted {s t : State} (h : DieWorked s t) (d macs : Nat) : DieWorked s (djCounted d macs t) := by
  unfold Machine.djCounted
  split
  · exact h
  · exact h.bump 0x3806 (d + 1) 64 macs (by decide)

theorem odGet_djCounted (d macs : Nat) (s : State) : odGet (djCounted d macs s) 0x3806 (d + 1) =
    if macs = 0 then odGet s 0x3806 (d + 1) else min (odGet s 0x3806 (d + 1) + macs) (2 ^ 64 - 1) := by
  unfold djCounted
  split
  · rfl
  · exact odGet_bumpBy ..

theorem deltaEnv_part {s : State} {p : Nat} {j : W512} {e : DeltaEnv} (h : deltaEnv s p j = some e) : e.part = p := by
  unfold deltaEnv at h
  split at h
  · split at h
    · obtain rfl := Option.some.inj h
      rfl
    · cases h
  · cases h

theorem deltaJobsRunFromTheirList : DeltaJobsRunFromTheirList := by
  intro d s j rest x popped ends wait hlist hfree
  have hfree' : ¬ ((dieCtxs s d.val x.deltaFor).any fun c => (ctxGet s c).fault.isSome) = true := by
    simp only [List.any_eq_true, not_exists, not_and]
    intro c hc
    rw [hfree c hc]
    simp
  have hlist : (mgetD s.dieJobs d.val {}).delta = j :: rest := hlist
  have hpop : (mget (deltaPop s d.val).dieJobs d.val).map DieJobs.delta = some rest := by
    rw [deltaPop]
    dsimp only
    rw [mupd, mget_mset_same, hlist]
    rfl
  have hexec (ecc : List EccEvent) : exec (.deltaJob ⟨d, ecc⟩) s = .next (if djBad j then dieFault (deltaPop s d.val) d.val x.deltaFor fcImage
      else if !wait then s
      else match deltaEnv s x.deltaFor j with
        | some e => deltaRun s d.val x.deltaFor ecc j e
        | none => dieFault (deltaPop s d.val) d.val x.deltaFor fcImage) := by
    have h : exec (.deltaJob ⟨d, ecc⟩) s = execDeltaJob ⟨d, ecc⟩ s := rfl
    rw [h, execDeltaJob]
    dsimp only
    rw [hlist]
    dsimp only
    rw [if_neg hfree']
    split
    · rfl
    · split
      · rfl
      · split
        · next henv => simp only [x, henv]
        · next henv => simp only [x, henv]
  have hends (code : Fin 5) : ends (dieFault (deltaPop s d.val) d.val x.deltaFor code) code := by
    obtain ⟨honly, hset⟩ := dieFault_ends (s := deltaPop s d.val) (d := d.val) (p := x.deltaFor) code hfree
    refine ⟨?_, by rw [honly]; rfl, by rw [honly]; rfl, hset⟩
    show (mget (dieFault (deltaPop s d.val) d.val x.deltaFor code).dieJobs d.val).map DieJobs.delta = some rest
    rw [honly]
    exact hpop
  refine ⟨fun hbad ecc => ⟨_, hexec ecc, ?_⟩, fun hbad hwait ecc => ⟨_, hexec ecc, ?_⟩, fun e hbad hwait henv => ?_⟩
  · rw [if_pos hbad]
    exact hends 1
  · rw [if_neg (by simp [hbad]), if_pos (by simp [hwait])]
  have hexec' (ecc : List EccEvent) : exec (.deltaJob ⟨d, ecc⟩) s = .next (deltaRun s d.val x.deltaFor ecc j e) := by
    rw [hexec, if_neg (by simp [hbad]), if_neg (by simp [hwait]), henv]
  refine ⟨fun hacc ecc => ⟨_, hexec' ecc, ?_⟩, fun hacc => ⟨_, hexec' [], ?_⟩⟩
  · have hrun : deltaRun s d.val x.deltaFor ecc j e = dieFault (deltaPop s d.val) d.val x.deltaFor
        (statusFault (dieAccess s d.val x.deltaFor (djReads s e d.val j) (pwWriteLines (djWrites s e d.val j)))) := by
      unfold deltaRun
      dsimp only
      rw [dieWork_refused (s := deltaPop s d.val) hacc]
      rfl
    rw [hrun]
    exact hends _
  · obtain ⟨t, hwork, hcounted⟩ := dieWork_clean (s := deltaPop s d.val) (d := d.val) (p := x.deltaFor) hacc
    let macs := djMacs s e d.val j
    let u := diePuts e.part (djWrites s e d.val j) t
    obtain ⟨hjobs, hmem, hcores, hseq, hsync, hadd, hod⟩ := ((hcounted.dieWorked e.part (djWrites s e d.val j)).djCounted d.val macs).posted
      (bit j 194) e.part (fld j 193 174) (fld j 173 165) (BitVec.ofNat 32 (fld j 164 149))
    have hrun : deltaRun s d.val x.deltaFor [] j e = if bit j 194 then
        locPost (djCounted d.val macs u) e.part (fld j 193 174) (fld j 173 165) (BitVec.ofNat 32 (fld j 164 149)) else djCounted d.val macs u := by
      unfold deltaRun
      dsimp only
      rw [hwork]
      rfl
    obtain ⟨hlow, hfar, hfar'⟩ := dieObject_apart (i := 0x3806) (by simp) d
    have hval : odGet u 0x3806 (d.val + 1) = odGet s 0x3806 (d.val + 1) := by
      have hputs : u.pav = t.pav := congrArg (fun s => s.pav) (diePuts_memOnly e.part (djWrites s e d.val j) t)
      exact (show odGet u 0x3806 (d.val + 1) = odGet t 0x3806 (d.val + 1) by rw [odGet, hputs]; rfl).trans (hcounted.2 _ _ hfar')
    refine ⟨?_, ?_, ?_, ?_, ?_, ?_, ?_⟩
    · show (mget (deltaRun s d.val x.deltaFor [] j e).dieJobs d.val).map DieJobs.delta = some rest
      rw [hrun, hjobs]
      exact hpop
    · rw [hrun, hmem]
      have hkept : (djCounted d.val macs u).mem = u.mem := by
        unfold djCounted
        split
        · rfl
        · rfl
      exact hkept.trans (hcounted.diePuts_mem e.part (djWrites s e d.val j)).2
    · rw [hrun, hod _ _ hlow hfar, odGet_djCounted, hval]
    · rw [hrun, hcores]
      rfl
    · rw [hrun, hseq]
      rfl
    · intro hoff
      rw [hrun, hsync hoff]
      rfl
    · intro c hen hc hon hown
      rw [hrun]
      exact hadd c hen hc hon hown

/-! ### Owners -/

/-- A written owner is stored as it is clamped; a change of owner drops the jobs that wait in the engine (R206, R289). -/
theorem ownerWrite_stores {s : State} {rq : DictReq} {d : Die} {v : List Byte} {idx : Nat} (hmay : MayStore s rq idx (d.val + 1) v) (pinwheel : Bool) :
    let old := odGet s idx (d.val + 1)
    let w := ownerClamp idx d.val s (leNat v)
    let t := dictWrite s rq idx (d.val + 1) v (ownerClamp idx d.val) fun s w => if w = old then s else dieBuffersClear s d.val pinwheel
    odGet t idx (d.val + 1) = w ∧ t = { s with pav := t.pav, pcie := t.pcie, out := t.out, dieJobs := t.dieJobs }
    ∧ (w = old → t.dieJobs = s.dieJobs)
    ∧ (w ≠ old → t.dieJobs = (dieBuffersClear s d.val pinwheel).dieJobs) := by
  intro old w t
  obtain ⟨bs, ht⟩ := dictWrite_of_mayStore hmay (ownerClamp idx d.val) fun s w => if w = old then s else dieBuffersClear s d.val pinwheel
  have ht : t = dictAnswer (if w = old then dictPut s rq.src idx (d.val + 1) (leNat v) w
      else dieBuffersClear (dictPut s rq.src idx (d.val + 1) (leNat v) w) d.val pinwheel) rq 0 idx (d.val + 1) bs := ht
  have hput : DictOnly s (dictPut s rq.src idx (d.val + 1) (leNat v) w) := dictPut_dictOnly ..
  have hval := odGet_dictPut s rq.src idx (d.val + 1) (leNat v) w
  generalize dictPut s rq.src idx (d.val + 1) (leNat v) w = u at ht hput hval
  by_cases hw : w = old
  · rw [if_pos hw] at ht
    have honly : DictOnly s t := ht ▸ hput.trans (dictAnswer_dictOnly ..)
    refine ⟨?_, ?_, fun _ => ?_, fun hne => absurd hw hne⟩
    · rw [ht, odGet_dictAnswer, hval]
    · rw [honly]
    · rw [honly]
  · rw [if_neg hw] at ht
    have honly : DictOnly (dieBuffersClear u d.val pinwheel) t := ht ▸ dictAnswer_dictOnly ..
    refine ⟨?_, ?_, fun h => absurd h hw, fun _ => ?_⟩
    · rw [ht, odGet_dictAnswer]
      exact hval
    · rw [honly, hput]
      rfl
    · rw [honly, hput]
      rfl

theorem dieEngineOwnersAreClamped : DieEngineOwnersAreClamped := by
  intro rq d v s idx c hc hmay p active some_ jobs owns
  have hwrites (w : Nat) (hw : ownerClamp idx d.val s p = w) : Runs c s fun t => owns t w := by
    subst hw
    rcases hc with ⟨rfl, rfl⟩ | ⟨rfl, rfl⟩
    · obtain ⟨hval, honly, hsame, hchanged⟩ := ownerWrite_stores hmay true
      refine ⟨_, rfl, hval, honly, hsame, fun hne => ?_⟩
      have hcleared : mgetD (dieBuffersClear s d.val true).dieJobs d.val {} = { jobs s with pinwheel := [], pinwheelFor := 0x3F } := mgetD_mset_same ..
      rw [if_pos rfl]
      show (mgetD (dictWrite ..).dieJobs d.val {}).pinwheel = [] ∧ (mgetD (dictWrite ..).dieJobs d.val {}).delta = (jobs s).delta
      rw [hchanged hne, hcleared]
      exact ⟨rfl, rfl⟩
    · obtain ⟨hval, honly, hsame, hchanged⟩ := ownerWrite_stores hmay false
      refine ⟨_, rfl, hval, honly, hsame, fun hne => ?_⟩
      have hcleared : mgetD (dieBuffersClear s d.val false).dieJobs d.val {} = { jobs s with delta := [], deltaFor := 0x3F } := mgetD_mset_same ..
      rw [if_neg (by decide)]
      show (mgetD (dictWrite ..).dieJobs d.val {}).delta = [] ∧ (mgetD (dictWrite ..).dieJobs d.val {}).pinwheel = (jobs s).pinwheel
      rw [hchanged hne, hcleared]
      exact ⟨rfl, rfl⟩
  have hclamp : ownerClamp idx d.val s p = if p ≥ 16 then 0xFF else if ((mget s.gate.parts p).map Partn.st).getD .free ≠ .active then odGet s idx (d.val + 1)
      else if (partQuads s p >>> (4 * d.val)) % 16 = 0 then 0xFF else p := rfl
  have hst (h : active) : ¬ ((mget s.gate.parts p).map Partn.st).getD .free ≠ .active := by
    rw [show (mget s.gate.parts p).map Partn.st = some .active from h]
    exact not_not_intro rfl
  refine ⟨fun hp hquad hactive => hwrites p ?_, fun hp => hwrites 0xFF ?_, fun hp hidle => hwrites _ ?_⟩
  · rw [hclamp, if_neg (by omega), if_neg (hst hactive), if_neg hquad]
  · rcases hp with hp | ⟨hactive, hquad⟩
    · rw [hclamp, if_pos hp]
    · rw [hclamp, if_neg (hst hactive), if_pos (not_not.mp hquad)]
      split
      · rfl
      · rfl
  · have hidle' : ((mget s.gate.parts p).map Partn.st).getD .free ≠ .active := by
      intro h
      cases hm : (mget s.gate.parts p).map Partn.st with
      | none => rw [hm] at h; cases h
      | some x => rw [hm] at h; exact hidle (hm.trans (congrArg some h))
    rw [hclamp, if_neg (by omega), if_pos hidle']

/-- Settles O19: a job is dropped with its step, waits, or does its work; an owner is clamped, and a change of it drops what waits. -/
theorem dieEnginesRunTheirListsForTheirOwner : Obligations.DieEnginesRunTheirListsForTheirOwner :=
  ⟨pinwheelJobsRunFromTheirList, deltaJobsRunFromTheirList, dieEngineOwnersAreClamped⟩

end Sys2Proof.Machine
end

section
/-! SUPPORT. O41 and O52 fail on states that no run reaches: an ACTIVE partition beyond the tray's sixteen, one of whose objects would lie where the pair's are stored. -/

namespace Sys2Proof.Machine

open Sys2Proof Sys2Proof.Claims

/-- Partition 3,403,519 is ACTIVE: its OD 0x3012 would lie where the partner's slot (OD 0x6401) is stored. -/
def strayPartition : State := { officerTray with gate := { parts := [(3403519, { st := .active })] } }

/-- The partner's slot 8 written reads as the risk of cause 4, and the end of the pair clears it. -/
theorem dictWrite_strayPartition : readAfter (exec (.dictWrite officer 0x6401 0 [8]) strayPartition) (fun t => odGet t 0x6401 0) = some 0 := by
  decide +kernel

/-- Refutes O41: the partner's slot written is lost to the risk word of a partition that the tray does not have. -/
theorem not_objectOperationsAnswer : ¬ Obligations.ObjectOperationsAnswer := by
  intro h
  obtain ⟨-, hrow⟩ := h officer 0x6401 0 [8] strayPartition (by decide +kernel)
  obtain ⟨-, -, -, hwrite⟩ := hrow ⟨0x6401, 0, 0, 1, .rws, 255, .rule⟩ (by decide +kernel)
  obtain ⟨-, -, hstores⟩ := hwrite ⟨rfl, rfl, by decide +kernel⟩
  obtain ⟨t, hrun, hvalue, -⟩ := hstores (by decide +kernel) rfl
  have hlost := dictWrite_strayPartition
  rw [readAfter_next hrun, show odGet t 0x6401 0 = _ from hvalue] at hlost
  exact absurd hlost (by decide +kernel)

/-! ### Resets -/

/-- A tray set to pair with slot 1, the officer's session open, on which the partition `strayPart` of O48's counterexample is ACTIVE. -/
def strayReset : State :=
  { officerTray with
    gate := { parts := [(strayPart, { st := .active })] }
    pav := { officerTray.pav with vals := [(odKey 0x6400 0, 1), (odKey 0x6401 0, 1)] } }

theorem mayStore_strayReset : MayStore strayReset officer 0x7E10 0 [1] := by
  refine ⟨by decide +kernel, ⟨0x7E10, 0, 0, 1, .rws, 0, .rule⟩, ?_, ?_, ?_⟩
  · decide +kernel
  · decide +kernel
  · decide +kernel

/-- The REMOVE of that partition stores 0 as the pair mode, and the tray comes back unpaired. -/
theorem warmReset_strayReset : readAfter (exec (.warmReset officer) strayReset) (fun t => if t.pair.role = .unpaired then 1 else 0) = some 1 := by
  decide +kernel

/-- Refutes O52: a warm reset that removes a partition the tray does not have loses the pair mode with it, and the role to join in. -/
theorem not_resetsClearWhatTheyName : ¬ Obligations.ResetsClearWhatTheyName := by
  intro h
  obtain ⟨hwarm, -⟩ := h officer strayReset
  obtain ⟨-, hclears⟩ := hwarm mayStore_strayReset
  obtain ⟨t, hrun, -, -, -, -, -, -, -, hrole, -⟩ := hclears (by decide +kernel)
  have hunpaired := warmReset_strayReset
  rw [readAfter_next hrun, hrole] at hunpaired
  exact absurd hunpaired (by decide +kernel)

end Sys2Proof.Machine
end

section
/-! SUPPORT. Completions: the fields of an entry, what issuing one that ends no request leaves alone, and that a ring with room takes it at once (R252, R254). -/

namespace Sys2Proof.Machine

open Sys2Proof Sys2Proof.Claims

/-! ### Entries -/

theorem nfld_eq_mod_div {hi lo : Nat} (x : Nat) (h : lo ≤ hi + 1) : nfld x hi lo = x % 2 ^ (hi + 1) / 2 ^ lo := by
  rw [nfld, Nat.shiftRight_eq_div_pow, ← Nat.mod_mul_right_div_self, ← Nat.pow_add, Nat.add_sub_cancel' h]

/-- The phase of an entry is its bit 255, and touches no field below. -/
theorem fld_put_phase (e : BitVec 256) (v : Nat) {hi lo : Nat} (hhi : hi < 255) (hlo : lo ≤ hi + 1) : fld (put e 255 255 v) hi lo = fld e hi lo := by
  have hput : (put e 255 255 v).toNat = e.toNat % 2 ^ 255 + 2 ^ 255 * (v % 2) := by
    have he := e.isLt
    have hbit : nfld e.toNat 255 255 = e.toNat / 2 ^ 255 := by
      rw [nfld_eq_mod_div _ (by omega)]
      omega
    rw [put, nput, hbit, BitVec.toNat_ofNat]
    omega
  have hdvd : (2 : Nat) ^ (hi + 1) ∣ 2 ^ 255 := Nat.pow_dvd_pow 2 (by omega)
  rw [fld, fld, nfld_eq_mod_div _ hlo, nfld_eq_mod_div _ hlo, hput, Nat.add_mod, Nat.mod_mod_of_dvd _ hdvd,
    Nat.mod_eq_zero_of_dvd (hdvd.trans (Nat.dvd_mul_right _ _)), Nat.add_zero, Nat.mod_mod]

/-- The fields of the entry that says a completion. -/
theorem fld_complBits (s : State) (c : Compl) :
    fld (complBits s c) 254 251 = c.kind % 16 ∧ fld (complBits s c) 250 243 = c.status % 256 ∧ fld (complBits s c) 210 147 = c.tag.toNat
    ∧ fld (complBits s c) 146 115 = c.value % 2 ^ 32 := by
  have hn : (complBits s c).toNat = c.kind % 16 * 2 ^ 251 + c.status % 256 * 2 ^ 243 + c.reqId % 2 ^ 32 * 2 ^ 211 + c.tag.toNat * 2 ^ 147
      + c.value % 2 ^ 32 * 2 ^ 115 + c.pos % 2 ^ 20 * 2 ^ 95 + s.clk.timebase.toNat % 2 ^ 48 * 2 ^ 47 + c.nflags.toNat * 2 ^ 43
      + (if c.miss then 2 ^ 42 else 0) ∧ (if c.miss then 2 ^ 42 else 0 : Nat) ≤ 2 ^ 42 := by
    have htag := c.tag.isLt
    have hflags := c.nflags.isLt
    rw [complBits, BitVec.toNat_ofNat]
    split <;> omega
  obtain ⟨hn, hmiss⟩ := hn
  have htag := c.tag.isLt
  have hflags := c.nflags.isLt
  simp only [fld, nfld, Nat.shiftRight_eq_div_pow, hn]
  generalize (if c.miss then 2 ^ 42 else 0 : Nat) = m at hmiss
  refine ⟨?_, ?_, ?_, ?_⟩ <;> omega

/-! ### Issuing an entry that ends no request -/

/-- At most entries held, the functions' rings and what is sent differ, and nothing sent is taken back. -/
def IssueOnly (s t : State) : Prop :=
  t = { s with car := { s.car with backlog := t.car.backlog }, pcie := { s.pcie with funcs := t.pcie.funcs }, out := t.out }
  ∧ ∃ new, t.out = new ++ s.out

theorem IssueOnly.refl (s : State) : IssueOnly s s := ⟨rfl, [], rfl⟩

theorem IssueOnly.trans {s t u : State} (h : IssueOnly s t) (k : IssueOnly t u) : IssueOnly s u := by
  obtain ⟨h, new, hnew⟩ := h
  obtain ⟨k, new', hnew'⟩ := k
  refine ⟨?_, new' ++ new, by rw [hnew', hnew, List.append_assoc]⟩
  rw [k, h]

theorem msixSend_issueOnly (s : State) (f v : Nat) : IssueOnly s (msixSend s f v) := by
  unfold msixSend
  dsimp only
  split
  · exact ⟨rfl, [], rfl⟩
  · exact ⟨rfl, [.msix (funcOf f) v], rfl⟩

/-- An entry that is no FINAL frees no request. -/
theorem freeFinal_of_kind (s : State) {e : BitVec 256} (h : fld e 254 251 ≠ 3) : freeFinal s e = s := by
  unfold freeFinal
  dsimp only
  split
  · rfl
  · exact if_neg fun hfinal => h hfinal.1

section
variable {s : State} {f c : Nat} {e : BitVec 256} (hkind : c = 8 ∨ fld e 254 251 ≠ 3)
include hkind

/-- An entry written is sent, and its ring's vector with it. -/
theorem complWrite_sends : IssueOnly s (complWrite s f c e)
    ∧ ∃ new i e', (complWrite s f c e).out = new ++ s.out ∧ .completion (vfOf (f - 1)) c i e' ∈ new
      ∧ ∀ hi lo, hi < 255 → lo ≤ hi + 1 → fld e' hi lo = fld e hi lo := by
  unfold complWrite
  extract_lets x q e₁ n sent q' s₁ s₂ s₃
  have hsame : s₃ = s₂ := by
    unfold s₃
    rcases hkind with rfl | hkind
    · rfl
    · split
      · rfl
      · exact freeFinal_of_kind _ (by rwa [show fld e₁ 254 251 = _ from fld_put_phase e _ (by decide) (by decide)])
  have h₂ : IssueOnly s s₂ := ⟨rfl, [_], rfl⟩
  have hfields : ∀ hi lo, hi < 255 → lo ≤ hi + 1 → fld e₁ hi lo = fld e hi lo := fun hi lo h h' => fld_put_phase e _ h h'
  rw [hsame]
  split
  · obtain ⟨-, new, hnew⟩ := msixSend_issueOnly s₂ f q.vector
    refine ⟨h₂.trans (msixSend_issueOnly ..), new ++ [.completion (vfOf (f - 1)) c (q.tail % cqSize q) e₁], q.tail % cqSize q, e₁, ?_, by simp, hfields⟩
    rw [hnew, List.append_assoc]
    rfl
  · exact ⟨h₂, [.completion (vfOf (f - 1)) c (q.tail % cqSize q) e₁], q.tail % cqSize q, e₁, rfl, by simp, hfields⟩

theorem complPush_issueOnly : IssueOnly s (complPush s f c e) := by
  unfold complPush
  dsimp only
  split
  · exact .refl s
  · split
    · split
      · exact .refl s
      · next h8 => rw [freeFinal_of_kind s (hkind.resolve_left h8)]; exact .refl s
    · split
      · exact ⟨rfl, [], rfl⟩
      · exact (complWrite_sends hkind).1

end

/-- A ring with room takes an entry at once. -/
theorem complPush_room {s : State} {p c : Nat} (h : RingRoom s p c) (e : BitVec 256) : complPush s (p + 1) c e = complWrite s (p + 1) c e := by
  obtain ⟨hdrain, hon, hroom, hback⟩ := h
  unfold complPush
  dsimp only
  rw [if_neg hdrain, if_neg hon, hroom, hback]
  rfl

/-- A completion that is no FINAL. -/
theorem complTo_issueOnly (s : State) (p ring : Nat) {c : Compl} (h : c.kind % 16 ≠ 3) : IssueOnly s (complTo s p ring c) :=
  complPush_issueOnly (.inr (by rwa [(fld_complBits s c).1]))

theorem eventTo_issueOnly (s : State) (p status value : Nat) : IssueOnly s (eventTo s p status value) := complTo_issueOnly s p 0 (show 7 % 16 ≠ 3 by decide)

/-- A ring with room takes a completion at once: the host is told its kind, status, tag and value. -/
theorem complTo_tells {s : State} {p ring : Nat} {c : Compl} (hroom : RingRoom s p ring) (h : c.kind % 16 ≠ 3) :
    TellsValue s (complTo s p ring c) p ring (c.kind % 16) (c.status % 256) c.tag c.value := by
  obtain ⟨hkind, hstatus, htag, hvalue⟩ := fld_complBits s c
  obtain ⟨-, new, i, e, hout, hmem, hfields⟩ := complWrite_sends (s := s) (f := p + 1) (c := ring) (e := complBits s c) (.inr (by rwa [hkind]))
  refine ⟨new, i, e, by rw [complTo, complPush_room hroom, hout], by simpa using hmem, ?_, ?_, ?_, ?_⟩
  · rw [hfields _ _ (by decide) (by decide), hkind]
  · rw [hfields _ _ (by decide) (by decide), hstatus]
  · rw [hfields _ _ (by decide) (by decide), htag]
  · rw [hfields _ _ (by decide) (by decide), hvalue]

/-- What is said stays said while more is sent. -/
theorem tellsValue_mono {s t u : State} {p c kind status value : Nat} {tag : BitVec 64} (h : TellsValue s t p c kind status tag value)
    (hgrows : ∃ new, u.out = new ++ t.out) : TellsValue s u p c kind status tag value := by
  obtain ⟨new, i, e, hout, hmem, hfields⟩ := h
  obtain ⟨new', hout'⟩ := hgrows
  exact ⟨new' ++ new, i, e, by rw [hout', hout, List.append_assoc], List.mem_append_right _ hmem, hfields⟩

theorem tells_of_value {s t : State} {p c kind status value : Nat} {tag : BitVec 64} (h : TellsValue s t p c kind status tag value) :
    Tells s t p c kind status tag := by
  obtain ⟨new, i, e, hout, hmem, hkind, hstatus, htag, -⟩ := h
  exact ⟨new, i, e, hout, hmem, hkind, hstatus, htag⟩

theorem tells_mono {s t u : State} {p c kind status : Nat} {tag : BitVec 64} (h : Tells s t p c kind status tag)
    (hgrows : ∃ new, u.out = new ++ t.out) : Tells s u p c kind status tag := by
  obtain ⟨new, i, e, hout, hmem, hfields⟩ := h
  obtain ⟨new', hout'⟩ := hgrows
  exact ⟨new' ++ new, i, e, by rw [hout', hout, List.append_assoc], List.mem_append_right _ hmem, hfields⟩

/-- What had been said by then counts from an earlier state that had sent as much. -/
theorem tells_of_out {s s' t : State} {p c kind status : Nat} {tag : BitVec 64} (h : Tells s t p c kind status tag) (hout : s.out = s'.out) :
    Tells s' t p c kind status tag := by
  obtain ⟨new, i, e, hnew, hrest⟩ := h
  exact ⟨new, i, e, by rw [hnew, hout], hrest⟩

/-! ### Sending over the links -/

/-- The links send, and take back nothing sent. -/
def OutGrows (s t : State) : Prop := ∃ new, t.out = new ++ s.out

theorem OutGrows.refl (s : State) : OutGrows s s := ⟨[], rfl⟩

theorem OutGrows.trans {s t u : State} (h : OutGrows s t) (k : OutGrows t u) : OutGrows s u := by
  obtain ⟨new, hnew⟩ := h
  obtain ⟨new', hnew'⟩ := k
  exact ⟨new' ++ new, by rw [hnew', hnew, List.append_assoc]⟩

theorem OutGrows.mem {s t : State} {o : Output} (h : OutGrows s t) (ho : o ∈ s.out) : o ∈ t.out := by
  obtain ⟨new, hnew⟩ := h
  rw [hnew]
  exact List.mem_append_right _ ho

theorem emit_outGrows (s : State) (o : Output) : OutGrows s (emit s o) := ⟨[o], rfl⟩

theorem linkDrain_outGrows (s : State) (p n : Nat) : OutGrows s (linkDrain s p n) := by
  induction n generalizing s with
  | zero => exact .refl s
  | succ n ih =>
    unfold linkDrain
    dsimp only
    split
    · exact .refl s
    · split
      · exact .refl s
      · split
        · exact .refl s
        · refine OutGrows.trans ?_ (ih _)
          exact ⟨[_], rfl⟩

theorem linksDrain_outGrows (s : State) : OutGrows s (linksDrain s) := (linkDrain_outGrows s 0 512).trans (linkDrain_outGrows _ 1 512)

theorem pktOut_outGrows (s : State) (dst g gen key part vc extra : Nat) (data : List Byte) (job : Option Nat) :
    OutGrows s (pktOut s dst g gen key part vc extra data job) := by
  unfold pktOut
  dsimp only
  split
  · exact ⟨[_], rfl⟩
  · exact ⟨[], rfl⟩

theorem g63Pump_outGrows (s : State) (n : Nat) : OutGrows s (g63Pump s n) := by
  induction n generalizing s with
  | zero => exact .refl s
  | succ n ih =>
    unfold g63Pump
    split
    · split
      · refine OutGrows.trans ?_ ((pktOut_outGrows ..).trans (ih _))
        exact ⟨[], rfl⟩
      · exact .refl s
    · exact .refl s

/-- A message over group 63 sends the links' flits, and the message itself while the group is up. -/
theorem g63Send_outGrows (s : State) (o : Output) (bs : List Byte) : OutGrows s (g63Send s o bs) := by
  unfold g63Send
  split
  · exact .refl s
  · refine OutGrows.trans ?_ ((g63Pump_outGrows ..).trans (linksDrain_outGrows _))
    exact ⟨[o], rfl⟩

theorem g63Send_down {s : State} (h : g63Up s = false) (o : Output) (bs : List Byte) : g63Send s o bs = s := by
  simp [g63Send, h]

theorem mem_g63Send {s : State} (h : g63Up s = true) (o : Output) (bs : List Byte) : o ∈ (g63Send s o bs).out := by
  have hup : ¬ (!g63Up s) = true := by simp [h]
  rw [g63Send, if_neg hup]
  exact ((g63Pump_outGrows ..).trans (linksDrain_outGrows _)).mem (List.mem_cons_self ..)

end Sys2Proof.Machine
end

section
/-! SUPPORT. O21: the decision on a SUBMIT entry, and what a rejection and an admission leave (R251 to R256, R260). -/

namespace Sys2Proof.Machine

open Sys2Proof Sys2Proof.Claims

/-! ### An entry taken up -/

/-- Taking an entry up changes the queue, the submission count, and what a clamp counts. -/
theorem takenUp_frame (s : State) (i : Nat) (k : Taken) :
    takenUp s i k = { s with
      car := { s.car with taken := s.car.taken.eraseIdx i, subCount := (takenUp s i k).car.subCount }
      pcie := { s.pcie with funcs := (takenUp s i k).pcie.funcs }
      pav := { s.pav with vals := (takenUp s i k).pav.vals } } := by
  unfold takenUp hostClamp
  split
  · rfl
  · rfl

theorem odGet_takenUp (s : State) (i : Nat) (k : Taken) {idx sub : Nat} (h : odKey idx sub ≠ odKey 0x7C10 0) :
    odGet (takenUp s i k) idx sub = odGet s idx sub := by
  unfold takenUp hostClamp
  split
  · rfl
  · exact odGet_bumpBy_ne _ _ _ h

/-- A clamp counted leaves the function's rings. -/
theorem cqGet_takenUp (s : State) (i : Nat) (k : Taken) (c : Nat) :
    cqGet (fnGet (takenUp s i k) (k.f.val + 1)) c = cqGet (fnGet s (k.f.val + 1)) c := by
  unfold takenUp hostClamp
  split
  · rfl
  · rename_i hn
    dsimp only
    have hfn (x : FuncS) : fnGet (bumpBy (fnSet (takenDrop s i k) (k.f.val + 1) x) 0x7C10 0 64 (eClamped s k.f.val k.entry).2) (k.f.val + 1) = x :=
      mgetD_mset_same ..
    rw [hfn]
    rfl

theorem ringRoom_takenUp {s : State} {i : Nat} {k : Taken} {c : Nat} (h : RingRoom s k.f.val c) : RingRoom (takenUp s i k) k.f.val c := by
  have hframe := takenUp_frame s i k
  obtain ⟨hdrain, hon, hroom, hback⟩ := h
  refine ⟨?_, ?_, ?_, ?_⟩
  · rwa [hframe]
  · rwa [cqGet_takenUp]
  · rwa [cqGet_takenUp]
  · rwa [hframe]

/-! ### The statuses -/

theorem checkFormat_le (s : State) (p : Nat) (e : W512) : checkFormat s p e ≤ 54 := by
  unfold checkFormat
  repeat' split
  all_goals decide

theorem decideStatus_le (s : State) (p h : Nat) (e : W512) (new : Req) (v : BitVec 256) (par : Option (Nat × Req)) :
    decideStatus s p h e new v par ≤ 52 := by
  unfold decideStatus
  extract_lets parG
  split_ifs <;> decide

/-! ### The decision -/

theorem exec_submit {s : State} {i h st : Nat} {k : Taken} {t : State} {toks : List W32} (hpick : takenPick (takenQueue s) 1 = some (i, k))
    (hrole : s.pair.role ≠ .follower) (hown : submitOwn (takenUp s i k) k (entryOf s k) toks = (st, h, t)) :
    exec (.submit toks) s = .next (leaderSend t k st h) := by
  have hrun : exec (.submit toks) s =
      let r := submitOwn (takenUp s i k) k (entryOf s k) toks
      .next (leaderSend r.2.2 k r.1 r.2.1) := by
    show execSubmit toks s = _
    rw [execSubmit, hpick]
    exact if_neg hrole
  rw [hrun, hown]

theorem submitOwn_malformed {u : State} {k : Taken} {e : W512} (h : checkFormat u k.f.val e ≠ 0) (toks : List W32) :
    submitOwn u k e toks = (checkFormat u k.f.val e, freeHandle u, reject u k.f.val e (checkFormat u k.f.val e)) := if_pos h

/-- The parent of the request that an entry asks for, where it is a fork. -/
def entryParent (u : State) (p : Nat) (e : W512) : Option (Nat × Req) := if eFork e then forkParentOf u p e else none

section
variable {u : State} {k : Taken} {e : W512} {v : BitVec 256} (hform : checkFormat u k.f.val e = 0) (hsv : serviceOf u k.f.val (eService e) = some v)
  (toks : List W32)
include hform hsv

theorem submitOwn_decided :
    let new := reqOf u k e (freeHandle u) v (entryParent u k.f.val e) toks
    let st := decideStatus u k.f.val (freeHandle u) e new v (entryParent u k.f.val e)
    submitOwn u k e toks =
      if st ≠ 0 then (st, freeHandle u, reject u k.f.val e st) else (0, freeHandle u, admitDone u (freeHandle u) new toks) := by
  have h : ¬ checkFormat u k.f.val e ≠ 0 := not_not_intro hform
  refine (if_neg h).trans ?_
  rw [hsv]
  rfl

end

/-! ### A leader's message -/

theorem leaderSend_linkOnly (s : State) (k : Taken) (st h : Nat) : LinkOnly s (leaderSend s k st h) ∧ OutGrows s (leaderSend s k st h) := by
  unfold leaderSend
  dsimp only
  split
  · exact ⟨g63Send_linkOnly .., g63Send_outGrows ..⟩
  · exact ⟨.refl s, .refl s⟩

/-! ### A rejection -/

/-- What a rejection of an entry of partition `p` with status `st` leaves. -/
def Rejected (s : State) (i p : Nat) (e : W512) (st : Nat) (t : State) : Prop :=
  Tells s t p (eCring e) 4 st (eTag e) ∧ t.car.reqs = s.car.reqs ∧ t.kv = s.kv
    ∧ t.car.taken = s.car.taken.eraseIdx i ∧ odGet t 0x3014 (p + 1) = min (odGet s 0x3014 (p + 1) + 1) (2 ^ 64 - 1)

theorem reject_rejected {s : State} {i : Nat} {k : Taken} {st : Nat} (hroom : RingRoom s k.f.val (eCring (entryOf s k))) (hst : st < 256) (h : Nat) :
    Rejected s i k.f.val (entryOf s k) st (leaderSend (reject (takenUp s i k) k.f.val (entryOf s k) st) k st h) := by
  have hframe := takenUp_frame s i k
  have hcount := odGet_takenUp s i k (idx := 0x3014) (sub := k.f.val + 1) (by have := k.f.isLt; unfold odKey; omega)
  have hroom' := ringRoom_takenUp (i := i) hroom
  generalize takenUp s i k = u at *
  unfold reject
  have htells : Tells u (complTo u k.f.val (eCring (entryOf s k)) { kind := 4, status := st, tag := eTag (entryOf s k) }) k.f.val
      (eCring (entryOf s k)) 4 st (eTag (entryOf s k)) := by
    have h := tells_of_value (complTo_tells (c := { kind := 4, status := st, tag := eTag (entryOf s k) }) hroom' (show 4 % 16 ≠ 3 by decide))
    dsimp only at h
    rwa [Nat.mod_eq_of_lt hst] at h
  have hissue := (complTo_issueOnly u k.f.val (eCring (entryOf s k)) (c := { kind := 4, status := st, tag := eTag (entryOf s k) })
    (show 4 % 16 ≠ 3 by decide)).1
  generalize complTo u k.f.val (eCring (entryOf s k)) { kind := 4, status := st, tag := eTag (entryOf s k) } = w at *
  obtain ⟨hlink, hgrows⟩ := leaderSend_linkOnly (bump64 w 0x3014 (k.f.val + 1)) k st h
  generalize leaderSend (bump64 w 0x3014 (k.f.val + 1)) k st h = t at *
  have hout : u.out = s.out := by rw [hframe]
  refine ⟨tells_of_out (tells_mono htells hgrows) hout, ?_, ?_, ?_, ?_⟩
  · rw [hlink, show (bump64 w 0x3014 (k.f.val + 1)).car = w.car from rfl, hissue, hframe]
  · rw [hlink, show (bump64 w 0x3014 (k.f.val + 1)).kv = w.kv from rfl, hissue, hframe]
  · rw [hlink, show (bump64 w 0x3014 (k.f.val + 1)).car = w.car from rfl, hissue, hframe]
  · have hsame : odGet w 0x3014 (k.f.val + 1) = odGet u 0x3014 (k.f.val + 1) := by rw [hissue]; rfl
    rw [show odGet t 0x3014 (k.f.val + 1) = odGet (bump64 w 0x3014 (k.f.val + 1)) 0x3014 (k.f.val + 1) by rw [hlink]; rfl, bump64, odGet_bumpBy, hsame, hcount]

/-! ### An admission -/

/-- At most the request table, the pools and memory differ. -/
def AdmitOnly (s t : State) : Prop :=
  t = { s with
    car := { s.car with reqs := t.car.reqs, cached := t.car.cached, nextOrder := t.car.nextOrder }
    kv := t.kv
    pair := { s.pair with dirty := t.pair.dirty }
    mem := t.mem }

theorem AdmitOnly.refl (s : State) : AdmitOnly s s := rfl

theorem AdmitOnly.trans {s t u : State} (h : AdmitOnly s t) (k : AdmitOnly t u) : AdmitOnly s u := by
  unfold AdmitOnly at *
  rw [k, h]

theorem MemOnly.admitOnly {s t : State} (h : MemOnly s t) : AdmitOnly s t := by
  unfold AdmitOnly
  rw [h]

/-- Frames put to use leave the request table. -/
theorem each_frames {α : Type} {f : State → α → State} (hf : ∀ s x, AdmitOnly s (f s x) ∧ (f s x).car = s.car) (l : List α) (s : State) :
    AdmitOnly s (each l f s) ∧ (each l f s).car = s.car :=
  each_rel (R := fun s t => AdmitOnly s t ∧ t.car = s.car) (fun s => ⟨.refl s, rfl⟩) (fun h k => ⟨h.1.trans k.1, k.2.trans h.2⟩) hf l s

/-- A request table entry that differs from a new request at most in what its admission gives it. -/
def EntryOf (new r : Req) : Prop :=
  r = { new with
    recDie := r.recDie, recFrame := r.recFrame, recFrames := r.recFrames, recBytes := r.recBytes, reserved := r.reserved
    pages := r.pages, len := r.len, forkPending := r.forkPending }

/-- A request entered is read back, and no other changes. -/
theorem mget_reqSet (s : State) (h : Nat) (r : Req) : mget (reqSet s h r).car.reqs h = some r := mget_mset_same ..

theorem mget_reqSet_ne (s : State) {h h' : Nat} (r : Req) (hne : h' ≠ h) : mget (reqSet s h r).car.reqs h' = mget s.car.reqs h' :=
  mget_mset_ne _ _ hne

theorem forkShare_entry {s : State} {h ph : Nat} {new : Req} (hne : ph ≠ h) (hr : EntryOf new (reqGet s h)) :
    AdmitOnly s (forkShare s h ph) ∧ ∃ r, mget (forkShare s h ph).car.reqs h = some r ∧ EntryOf new r := by
  have hentry (m : SMap (BitVec 32)) (n : Nat) (b : Bool) : EntryOf new { reqGet s h with pages := m, len := n, forkPending := b } := by
    generalize reqGet s h = r at *
    unfold EntryOf at hr
    rw [hr]
    rfl
  unfold forkShare
  extract_lets r q p nb ix fs s₁ qp rp len tail s₂ add
  have h₁ : AdmitOnly s s₁ := (each_frames (f := fun s f => incRef s p f) (fun s x => ⟨rfl, rfl⟩) _ _).1
  have h₂ : AdmitOnly s s₂ := h₁.trans (by exact rfl)
  have hread (x : Req) : mget (reqSet s₂ ph x).car.reqs h = some { r with pages := rp, len := len, forkPending := tail } :=
    (mget_reqSet_ne s₂ x hne.symm).trans (mget_reqSet ..)
  split
  · exact ⟨h₂.trans (by exact rfl), _, hread _, hentry ..⟩
  · exact ⟨h₂.trans (by exact rfl), _, hread _, hentry ..⟩

theorem admitReq_entry {s : State} {h : Nat} {new : Req} (hpar : ∀ ph, new.forkParent = some ph → ph ≠ h) :
    AdmitOnly s (admitReq s h new) ∧ (∃ r, mget (admitReq s h new).car.reqs h = some r ∧ EntryOf new r)
    ∧ (new.forkParent = none → ∀ h', h' ≠ h → mget (admitReq s h new).car.reqs h' = mget s.car.reqs h') := by
  unfold admitReq
  extract_lets p d0 step
  split
  next run n _ =>
  extract_lets s₁ res new' src s₂ s₃
  obtain ⟨h₁, hcar⟩ : AdmitOnly s s₁ ∧ s₁.car = s.car := each_frames (f := fun s i => frameUse s p (run + i * step) new.classE) (fun s x => ⟨rfl, rfl⟩) _ _
  have h₃ : AdmitOnly s s₃ := (h₁.trans (show AdmitOnly s₁ s₂ from rfl)).trans (by exact rfl)
  have hread : mget s₃.car.reqs h = some new' := mget_reqSet ..
  have hentry : EntryOf new new' := rfl
  split
  · next ph hph =>
    have hget : reqGet s₃ h = new' := by rw [reqGet, mgetD, hread]; rfl
    obtain ⟨h₄, hentry₄⟩ := forkShare_entry (s := s₃) (new := new) (hpar ph hph) (by rw [hget]; exact hentry)
    exact ⟨h₃.trans h₄, hentry₄, fun hnone => absurd (hph.symm.trans hnone) (by simp)⟩
  · refine ⟨h₃, ⟨_, hread, hentry⟩, fun _ h' hne => ?_⟩
    rw [show mget s₃.car.reqs h' = mget s₂.car.reqs h' from mget_reqSet_ne _ _ hne, show s₂.car.reqs = s₁.car.reqs from rfl, hcar]

/-- The state in which an admission is counted and told: the request entered, and its host input brought in. -/
def admitted (u : State) (h : Nat) (new : Req) (toks : List W32) : State := inputPut (admitReq u h new) new toks

theorem inputPut_memOnly (s : State) (r : Req) (toks : List W32) : MemOnly s (inputPut s r toks) := by
  unfold inputPut
  split
  · split
    · exact .refl s
    · exact partPut_memOnly ..
  · exact .refl s

theorem admitted_entry {u : State} {h : Nat} {new : Req} (toks : List W32) (hpar : ∀ ph, new.forkParent = some ph → ph ≠ h) :
    AdmitOnly u (admitted u h new toks) ∧ (∃ r, mget (admitted u h new toks).car.reqs h = some r ∧ EntryOf new r)
    ∧ (new.forkParent = none → ∀ h', h' ≠ h → mget (admitted u h new toks).car.reqs h' = mget u.car.reqs h') := by
  obtain ⟨hframe, hentry, hothers⟩ := admitReq_entry (s := u) hpar
  have hmem : MemOnly (admitReq u h new) (admitted u h new toks) := inputPut_memOnly ..
  have hcar : (admitted u h new toks).car = (admitReq u h new).car := by rw [hmem]
  rw [hcar]
  exact ⟨hframe.trans hmem.admitOnly, hentry, hothers⟩

/-- An admission is told to the request's ring, unless its partition's completions are held. -/
theorem admitDone_tells {u : State} {h p c : Nat} {new : Req} (toks : List W32) (hpar : ∀ ph, new.forkParent = some ph → ph ≠ h)
    (hpart : new.part = p) (hring : new.cring = c) (hheld : mget u.car.heldOut p = none) (hroom : RingRoom u p c) :
    Tells u (admitDone u h new toks) p c 0 0 new.hostTag
    ∧ admitDone u h new toks = { bump64 (admitted u h new toks) 0x3013 (p + 1) with
        car := { (admitted u h new toks).car with backlog := (admitDone u h new toks).car.backlog }
        pcie := { u.pcie with funcs := (admitDone u h new toks).pcie.funcs }
        out := (admitDone u h new toks).out } := by
  obtain ⟨hframe, ⟨r, hread, hentry⟩, -⟩ := admitted_entry (u := u) toks hpar
  have hrpart : r.part = p := by rw [hentry]; exact hpart
  have hrring : r.cring = c := by rw [hentry]; exact hring
  have hrtag : r.hostTag = new.hostTag := by rw [hentry]
  rw [show admitDone u h new toks =
    reqCompl (bump64 (admitted u h new toks) 0x3013 (new.part + 1)) h false { kind := 0, status := 0, value := new.maxLen } from rfl, hpart]
  generalize hw : bump64 (admitted u h new toks) 0x3013 (p + 1) = w
  have hcar : w.car = (admitted u h new toks).car := by rw [← hw]; rfl
  have hout : w.out = u.out := by rw [← hw]; exact (congrArg State.out hframe : _)
  have hpcie : w.pcie = u.pcie := by rw [← hw]; exact (congrArg State.pcie hframe : _)
  have hroom' : RingRoom w p c := by
    obtain ⟨hdrain, hon, hfull, hback⟩ := hroom
    have htray : w.tray = u.tray := by rw [← hw]; exact (congrArg State.tray hframe : _)
    have hbacklog : w.car.backlog = u.car.backlog := by rw [hcar, hframe]
    exact ⟨by rwa [htray], by rwa [fnGet, hpcie], by rwa [fnGet, hpcie], by rwa [backlogOf, hbacklog]⟩
  have hget : reqGet w h = r := by rw [reqGet, mgetD, hcar, hread]; rfl
  have hheld' : (mget w.car.heldOut r.part).isSome = false := by rw [hcar, hframe, hrpart, hheld]; rfl
  have htold : reqCompl w h false { kind := 0, status := 0, value := new.maxLen } =
      complTo w p c { kind := 0, status := 0, value := new.maxLen, reqId := reqId h r, tag := new.hostTag } := by
    unfold reqCompl
    rw [hget]
    dsimp only
    rw [hheld', hrpart, hrring, hrtag]
    rfl
  rw [htold]
  refine ⟨tells_of_out (tells_of_value (complTo_tells hroom' (show 0 % 16 ≠ 3 by decide))) hout, ?_⟩
  have hissue := (complTo_issueOnly w p c (c := { kind := 0, status := 0, value := new.maxLen, reqId := reqId h r, tag := new.hostTag })
    (show 0 % 16 ≠ 3 by decide)).1
  rw [hpcie, hcar] at hissue
  exact hissue

/-- A fork's parent is live, so it does not stand at a FREE handle. -/
theorem forkParent_ne {u : State} {p ph h : Nat} {e : W512} {r : Req} (hpar : entryParent u p e = some (ph, r)) (hfree : (reqGet u h).st = .free) :
    ph ≠ h := by
  rintro rfl
  unfold entryParent forkParentOf reqNamed at hpar
  dsimp only at hpar
  split at hpar
  · split at hpar
    · next hnamed =>
      split at hnamed
      · cases hnamed
      · next hne =>
        split at hpar
        · obtain ⟨hph, -⟩ := Prod.mk.inj (Option.some.inj hnamed)
          obtain ⟨hph', -⟩ := Prod.mk.inj (Option.some.inj hpar)
          exact hne (.inl (by rw [hph, hph', hfree]))
        · cases hpar
    · cases hpar
  · cases hpar

/-- What an admission to handle `h` leaves. -/
def AdmittedAt (s : State) (k : Taken) (h : Nat) (e : W512) (new : Req) (t : State) : Prop :=
  Tells s t k.f.val (eCring e) 0 0 (eTag e)
  ∧ (∃ r, mget t.car.reqs h = some r ∧ r.st = .admitted ∧ r.part = k.f.val ∧ r.tokens = new.tokens ∧ r.gen = (reqGet s h).gen
      ∧ r.classE = eClassE e ∧ r.hostTag = eTag e ∧ r.maxLen = eMaxLen e ∧ r.arriveAt = k.arriveAt)
  ∧ (new.forkParent = none → ∀ h', h' ≠ h → mget t.car.reqs h' = mget s.car.reqs h')
  ∧ odGet t 0x3013 (k.f.val + 1) = min (odGet s 0x3013 (k.f.val + 1) + 1) (2 ^ 64 - 1)

theorem admitDone_admittedAt {s : State} {i h : Nat} {k : Taken} {v : BitVec 256} {par : Option (Nat × Req)} (toks : List W32)
    (hroom : RingRoom s k.f.val (eCring (entryOf s k))) (hheld : mget s.car.heldOut k.f.val = none) (hpar : ∀ ph r, par = some (ph, r) → ph ≠ h) :
    let new := reqOf (takenUp s i k) k (entryOf s k) h v par toks
    AdmittedAt s k h (entryOf s k) new (leaderSend (admitDone (takenUp s i k) h new toks) k 0 h) := by
  intro new
  have hfork : ∀ ph, new.forkParent = some ph → ph ≠ h := by
    intro ph hph
    obtain ⟨x, hx, rfl⟩ := Option.map_eq_some_iff.mp hph
    exact hpar x.1 x.2 hx
  have hframe := takenUp_frame s i k
  have hcount := odGet_takenUp s i k (idx := 0x3013) (sub := k.f.val + 1) (by have := k.f.isLt; unfold odKey; omega)
  have hgen : new.gen = (reqGet s h).gen := by
    show (reqGet (takenUp s i k) h).gen = _
    rw [hframe]
    rfl
  obtain ⟨hadmit, ⟨r, hread, hentry⟩, hothers⟩ := admitted_entry (u := takenUp s i k) toks hfork
  have hheld' : mget (takenUp s i k).car.heldOut k.f.val = none := by rw [hframe]; exact hheld
  obtain ⟨htells, hdone⟩ := admitDone_tells (u := takenUp s i k) (p := k.f.val) (c := eCring (entryOf s k)) toks hfork rfl rfl hheld' (ringRoom_takenUp hroom)
  have hnew : new.st = .admitted ∧ new.part = k.f.val ∧ new.classE = eClassE (entryOf s k) ∧ new.hostTag = eTag (entryOf s k)
      ∧ new.maxLen = eMaxLen (entryOf s k) ∧ new.arriveAt = k.arriveAt := ⟨rfl, rfl, rfl, rfl, rfl, rfl⟩
  clear_value new
  obtain ⟨hlink, hgrows⟩ := leaderSend_linkOnly (admitDone (takenUp s i k) h new toks) k 0 h
  have hreqs : (leaderSend (admitDone (takenUp s i k) h new toks) k 0 h).car.reqs = (admitted (takenUp s i k) h new toks).car.reqs := by
    rw [hlink, hdone]
  have hpav : (leaderSend (admitDone (takenUp s i k) h new toks) k 0 h).pav = (bump64 (admitted (takenUp s i k) h new toks) 0x3013 (k.f.val + 1)).pav := by
    rw [hlink, hdone]
  obtain ⟨hst, hpart, hclass, htag, hlen, hat⟩ := hnew
  refine ⟨?_, ⟨r, by rw [hreqs, hread], ?_⟩, fun hnone h' hne => ?_, ?_⟩
  · rw [← htag]
    exact tells_of_out (tells_mono htells hgrows) (by rw [hframe])
  · rw [hentry]
    exact ⟨hst, hpart, rfl, hgen, hclass, htag, hlen, hat⟩
  · rw [hreqs, hothers hnone h' hne, hframe]
  · rw [odGet, hpav, ← odGet, bump64, odGet_bumpBy, show odGet (admitted (takenUp s i k) h new toks) 0x3013 (k.f.val + 1) = odGet (takenUp s i k) 0x3013 (k.f.val + 1) from
      by rw [hadmit]; rfl, hcount]

/-- The handle chosen does not depend on the entry's being taken up, nor does what stands there. -/
theorem reqGet_takenUp (s : State) (i h : Nat) (k : Taken) : reqGet (takenUp s i k) h = reqGet s h := by
  rw [takenUp_frame]
  rfl

/-- Settles O21: an entry that fails a check is rejected with the check's status, one that passes is admitted at the lowest FREE handle. -/
theorem submitRejectsOrAdmits : Obligations.SubmitRejectsOrAdmits := by
  intro s i k toks hpick hrole p e u hheld hroom rejects
  refine ⟨fun hform => ?malformed, fun v hform hsv => ?decided⟩
  case malformed =>
    refine ⟨_, exec_submit hpick hrole (submitOwn_malformed hform toks), ?_⟩
    exact reject_rejected hroom ((checkFormat_le ..).trans_lt (by decide)) _
  case decided =>
    intro par h new st
    have hown : submitOwn u k e toks = if st ≠ 0 then (st, h, reject u p e st) else (0, h, admitDone u h new toks) := submitOwn_decided hform hsv toks
    refine ⟨fun hst => ?_, fun hst hfree => ?_⟩
    · rw [if_pos hst] at hown
      refine ⟨_, exec_submit hpick hrole hown, ?_⟩
      exact reject_rejected hroom ((decideStatus_le ..).trans_lt (by decide)) _
    · rw [if_neg (not_not_intro hst)] at hown
      refine ⟨_, exec_submit hpick hrole hown, ?_⟩
      have hpar : ∀ ph r, par = some (ph, r) → ph ≠ h := fun ph r hr => forkParent_ne hr (by rw [reqGet_takenUp]; exact hfree)
      obtain ⟨htells, hentry, hothers, hcount⟩ := admitDone_admittedAt (i := i) (v := v) toks hroom hheld hpar
      exact ⟨htells, hentry, fun hnone => hothers (by show par.map Prod.fst = none; rw [hnone]; rfl), hcount⟩

end Sys2Proof.Machine
end

section
/-! SUPPORT. The frame of ended work and lost power: what the end of steps and requests, fences and power-off leave alone (R16, R127, R247, R540). -/

namespace Sys2Proof.Machine

open Sys2Proof Sys2Proof.Claims

/-- At most work and its stores differ, units lose their power and gain none, and nothing sent is taken back: memory in HBM, fuses, clocks, links, keys, Zoetrope and the tray's standing stay. -/
def WorkOnly (s t : State) : Prop :=
  t = { s with
    flash := { s.flash with keptLog := t.flash.keptLog }
    tray := { s.tray with quadOn := t.tray.quadOn, dieOn := t.tray.dieOn }
    wv := { s.wv with quads := t.wv.quads, pairs := t.wv.pairs }
    seq := t.seq, cores := t.cores, sync := t.sync
    mem := { s.mem with sram := t.mem.sram, lines := t.mem.lines }
    dma := t.dma, dieJobs := t.dieJobs, car := t.car, kv := t.kv, variants := t.variants
    pair := { s.pair with dirty := t.pair.dirty }
    pav := { s.pav with vals := t.pav.vals, noticeAt := t.pav.noticeAt, log := t.pav.log, nextSeq := t.pav.nextSeq }
    pcie := { s.pcie with funcs := t.pcie.funcs }
    out := t.out, freeCtr := t.freeCtr }
  ∧ (∀ q, t.tray.quadOn.getLsbD q = true → s.tray.quadOn.getLsbD q = true)
  ∧ (∀ d, t.tray.dieOn.getLsbD d = true → s.tray.dieOn.getLsbD d = true)
  ∧ OutGrows s t

theorem WorkOnly.refl (s : State) : WorkOnly s s := ⟨rfl, fun _ h => h, fun _ h => h, .refl s⟩

theorem WorkOnly.trans {s t u : State} (h : WorkOnly s t) (k : WorkOnly t u) : WorkOnly s u := by
  obtain ⟨h, hq, hd, hout⟩ := h
  obtain ⟨k, kq, kd, kout⟩ := k
  refine ⟨?_, fun q hon => hq q (kq q hon), fun d hon => hd d (kd d hon), hout.trans kout⟩
  rw [k, h]

theorem WorkOnly.each {α : Type} {f : State → α → State} (hf : ∀ s x, WorkOnly s (f s x)) (l : List α) (s : State) : WorkOnly s (Machine.each l f s) :=
  each_rel .refl .trans hf l s

/-- A change of neither power nor output. -/
theorem WorkOnly.quiet {s t : State}
    (h : t = { s with
      wv := { s.wv with quads := t.wv.quads, pairs := t.wv.pairs }
      seq := t.seq, cores := t.cores, sync := t.sync
      mem := { s.mem with sram := t.mem.sram, lines := t.mem.lines }
      dma := t.dma, dieJobs := t.dieJobs, car := t.car, kv := t.kv, variants := t.variants
      pair := { s.pair with dirty := t.pair.dirty }
      pav := { s.pav with vals := t.pav.vals }
      freeCtr := t.freeCtr }) : WorkOnly s t := by
  have htray : t.tray = s.tray := by rw [h]
  have hflash : t.flash = s.flash := by rw [h]
  have hpav : t.pav = { s.pav with vals := t.pav.vals } := congrArg (fun s => s.pav) h
  have hpcie : t.pcie = s.pcie := by rw [h]
  have hout : t.out = s.out := by rw [h]
  refine ⟨?_, by rw [htray]; exact fun _ h => h, by rw [htray]; exact fun _ h => h, [], by rw [hout]; rfl⟩
  rw [htray, hflash, hpcie, hout, show t.pav.noticeAt = s.pav.noticeAt from congrArg (fun p => p.noticeAt) hpav,
    show t.pav.log = s.pav.log from congrArg (fun p => p.log) hpav, show t.pav.nextSeq = s.pav.nextSeq from congrArg (fun p => p.nextSeq) hpav]
  exact h

theorem StepEndOnly.workOnly {s t : State} (h : StepEndOnly s t) : WorkOnly s t := .quiet (by rw [h])

theorem PageOnly.workOnly {s t : State} (h : PageOnly s t) : WorkOnly s t := .quiet (by rw [h])

theorem IssueOnly.workOnly {s t : State} (h : IssueOnly s t) : WorkOnly s t := by
  obtain ⟨h, hout⟩ := h
  refine ⟨?_, by rw [h]; exact fun _ h => h, by rw [h]; exact fun _ h => h, hout⟩
  rw [h]

/-! ### Completions and the log only send -/

theorem msixSend_outGrows (s : State) (f v : Nat) : OutGrows s (msixSend s f v) := (msixSend_issueOnly s f v).2

theorem freeFinal_out (s : State) (e : BitVec 256) : (freeFinal s e).out = s.out := by
  unfold freeFinal
  dsimp only
  split
  · rfl
  · split
    · rfl
    · rfl

theorem complWrite_outGrows (s : State) (f c : Nat) (e : BitVec 256) : OutGrows s (complWrite s f c e) := by
  unfold complWrite
  extract_lets x q e n sent q' s₁ s₂ s₃
  have h₃ : OutGrows s s₃ := by
    unfold s₃
    split
    · exact ⟨[_], rfl⟩
    · exact ⟨[.completion (vfOf (f - 1)) c (q.tail % cqSize q) e], freeFinal_out ..⟩
  split
  · exact h₃.trans (msixSend_outGrows ..)
  · exact h₃

theorem complPush_outGrows (s : State) (f c : Nat) (e : BitVec 256) : OutGrows s (complPush s f c e) := by
  unfold complPush
  dsimp only
  split
  · exact .refl s
  · split
    · split
      · exact .refl s
      · exact ⟨[], freeFinal_out ..⟩
    · split
      · exact ⟨[], rfl⟩
      · exact complWrite_outGrows ..

theorem logPush_outGrows (s : State) (i : LogInfo) : OutGrows s (logPush s i) := by
  unfold logPush
  extract_lets r s₁ pav s₂ flash s₃
  have h₃ : s₃.out = s.out := by
    have h₁ : s₁.out = s.out := by
      unfold s₁
      split
      · rfl
      · rfl
    unfold s₃
    split
    · exact h₁
    · exact h₁
  obtain ⟨new, hnew⟩ := msixSend_outGrows s₃ 0 2
  exact ⟨new, hnew.trans (by rw [h₃])⟩

theorem complPush_workOnly (s : State) (f c : Nat) (e : BitVec 256) : WorkOnly s (complPush s f c e) := by
  have h := complPush_complOnly s f c e
  refine ⟨?_, by rw [h]; exact fun _ h => h, by rw [h]; exact fun _ h => h, complPush_outGrows ..⟩
  unfold ComplOnly at h
  rw [h]

theorem logErr_workOnly (s : State) (i : LogInfo) : WorkOnly s (logErr s i) := by
  unfold logErr
  have h₁ : LogOnly s (bump64 s 0x7C20 (i.cls + 1)) := bumpBy_logOnly ..
  have hout : (bump64 s 0x7C20 (i.cls + 1)).out = s.out := rfl
  generalize bump64 s 0x7C20 (i.cls + 1) = u at *
  have h := h₁.trans (logPush_logOnly u i)
  have hgrows := logPush_outGrows u i
  generalize logPush u i = t at *
  obtain ⟨new, hnew⟩ := hgrows
  unfold LogOnly at h
  refine ⟨?_, by rw [h]; exact fun _ h => h, by rw [h]; exact fun _ h => h, new, by rw [hnew, hout]⟩
  rw [h]

/-! ### The end of a request -/

theorem retainFix_workOnly (s : State) (p : Nat) : WorkOnly s (retainFix s p) :=
  .each (α := Nat × Req) (fun s x => by
    dsimp only
    split
    · exact .refl s
    · exact (reqSet_pageOnly ..).workOnly) _ _

theorem reqRelease_workOnly (s : State) (h : Nat) : WorkOnly s (reqRelease s h) := by
  unfold reqRelease
  extract_lets r s₁ step s₂
  have h₁ : WorkOnly s s₁ := .each (fun s x => .quiet rfl) _ _
  have h₂ : WorkOnly s₁ s₂ := .each (fun s x => by
    dsimp only
    split
    · exact .refl s
    · exact .quiet rfl) _ _
  exact ((h₁.trans h₂).trans (reqSet_pageOnly ..).workOnly).trans (retainFix_workOnly ..)

theorem reqCompl_workOnly (s : State) (h : Nat) (held : Bool) (c : Compl) : WorkOnly s (reqCompl s h held c) := by
  unfold reqCompl
  dsimp only
  split
  · exact .quiet rfl
  · exact complPush_workOnly ..

theorem tableSet_workOnly (s : State) (b : Bool) (t : SMap IdxWay) : WorkOnly s (tableSet s b t) := by
  unfold tableSet
  split
  · exact .quiet rfl
  · exact .quiet rfl

theorem rebuildAsk_workOnly (s : State) (rotated : List Nat) (retired : List (Nat × Nat)) : WorkOnly s (rebuildAsk s rotated retired) := by
  unfold rebuildAsk
  split
  · unfold rebuildStart
    extract_lets b salt s₁ s₂ kv s₃ kv'
    have h₂ : WorkOnly s s₂ := WorkOnly.trans (.quiet rfl) (tableSet_workOnly s₁ b [])
    have h₃ : WorkOnly s₂ s₃ := by
      unfold s₃
      split
      · exact .quiet rfl
      · exact .quiet rfl
    exact (h₂.trans h₃).trans (.quiet rfl)
  · exact .quiet rfl

theorem variantIdle_workOnly (s : State) (p : Nat) : WorkOnly s (variantIdle s p) :=
  .each (α := Nat × Variant) (fun _ _ => WorkOnly.trans (.quiet rfl) (rebuildAsk_workOnly ..)) _ _

theorem reqEnd_workOnly (s : State) (h : Nat) (st : ReqState) (code : Nat) (held : Bool) : WorkOnly s (reqEnd s h st code held) := by
  unfold reqEnd
  extract_lets p s₁ src s₂ s₃ s₄
  have h₂ : WorkOnly s s₂ := (reqRelease_workOnly s h).trans (reqSet_pageOnly ..).workOnly
  have h₃ : WorkOnly s₂ s₃ := by
    unfold s₃
    split
    · exact .quiet rfl
    · exact .refl _
  have h₄ : WorkOnly s₃ s₄ := by
    unfold s₄
    split
    · exact (reqSet_pageOnly ..).workOnly
    · exact reqCompl_workOnly ..
  exact ((h₂.trans h₃).trans h₄).trans (variantIdle_workOnly ..)

/-! ### The end of a step -/

theorem ctxEnd_workOnly (s : State) (c : Nat) (code : Fin 5) : WorkOnly s (ctxEnd s c code) := (ctxEnd_sets s c code).1.workOnly

theorem batchFail_workOnly (s : State) (x : StepRun) (code : Nat) : WorkOnly s (batchFail s x code) :=
  .each (fun s b => by
    dsimp only
    split
    · exact reqEnd_workOnly ..
    · split
      · exact reqEnd_workOnly ..
      · exact .refl s) _ _

theorem stepDrop_workOnly (s : State) (p : Nat) : WorkOnly s (stepDrop s p) := by
  unfold stepDrop
  extract_lets car s₁
  have h₁ : WorkOnly s s₁ := .quiet rfl
  split
  · split
    · exact h₁.trans (.quiet rfl)
    · exact h₁
  · exact h₁

theorem fenceStep_workOnly (s : State) (p : Nat) : WorkOnly s (fenceStep s p) := by
  unfold fenceStep
  split
  · exact .refl s
  · split
    · exact (batchFail_workOnly ..).trans (stepDrop_workOnly ..)
    · exact WorkOnly.trans (.quiet rfl) (.each (fun s c => ctxEnd_workOnly ..) _ _)

theorem stepAbort_workOnly (s : State) (p : Nat) : WorkOnly s (stepAbort s p) := by
  unfold stepAbort
  split
  · exact .refl s
  · exact .each (fun s c => ctxEnd_workOnly ..) _ _

theorem serviceFault_workOnly (s : State) (p k : Nat) : WorkOnly s (serviceFault s p k) := by
  unfold serviceFault
  split
  · exact .quiet rfl
  · exact .refl s

theorem fenceServices_workOnly (s : State) (p mask : Nat) : WorkOnly s (fenceServices s p mask) :=
  .each (fun s k => by
    dsimp only
    split
    · exact .refl s
    · split
      · exact serviceFault_workOnly ..
      · exact .refl s) _ _

theorem fenceQuadUsers_workOnly (s : State) (mask : Nat) : WorkOnly s (fenceQuadUsers s mask) :=
  (WorkOnly.each (fun _ _ => fenceStep_workOnly ..) _ _).trans (.each (fun _ _ => fenceServices_workOnly ..) _ _)

/-- Completions held are issued. -/
theorem heldOpen_workOnly (s : State) : WorkOnly s (heldOpen s) := by
  unfold heldOpen
  extract_lets l
  refine WorkOnly.trans (.quiet rfl) (.each (α := Nat × List (Nat × Nat × BitVec 256)) (fun s x => ?_) _ _)
  exact .each (α := Nat × Nat × BitVec 256) (fun _ _ => complPush_workOnly ..) _ _

/-! ### Power -/

theorem queueLost_workOnly (s : State) (k : Nat) : WorkOnly s (queueLost s k) := by
  unfold queueLost
  extract_lets s₁
  have h₁ : WorkOnly s s₁ := .each (fun s j => by
    dsimp only
    have hrel : WorkOnly s (releaseReads s j) := by
      unfold releaseReads
      split
      · exact .refl s
      · exact .quiet rfl
    split
    · exact hrel.trans (.quiet rfl)
    · exact hrel) _ _
  exact h₁.trans (.quiet rfl)

theorem injectGuard_workOnly (s : State) : WorkOnly s (injectGuard s) := by
  unfold injectGuard
  extract_lets v kind loc d on
  split
  · exact .quiet rfl
  · exact .refl s

theorem quadClear_workOnly (s : State) (q : Nat) : WorkOnly s (quadClear s q) := .quiet rfl

/-- A mask with bits taken away. -/
theorem getLsbD_and_not_self {w : Nat} (m : BitVec w) (q : Nat) : (m &&& ~~~ BitVec.ofNat w (2 ^ q)).getLsbD q = false := by
  rw [BitVec.getLsbD_and, BitVec.getLsbD_not, BitVec.getLsbD_ofNat, Nat.testBit_two_pow_self]
  by_cases hq : q < w
  · simp [hq]
  · simp [BitVec.getLsbD_of_ge m q (by omega)]

theorem getLsbD_and_not {w : Nat} (m b : BitVec w) (q : Nat) (h : (m &&& ~~~ b).getLsbD q = true) : m.getLsbD q = true := by
  rw [BitVec.getLsbD_and, Bool.and_eq_true] at h
  exact h.1

theorem quadPowerOff_workOnly (s : State) (q : Nat) : WorkOnly s (quadPowerOff s q) := by
  unfold quadPowerOff
  extract_lets s₁
  have h₁ : WorkOnly s s₁ := (quadClear_workOnly ..).trans (.each (fun _ _ => queueLost_workOnly ..) _ _)
  clear_value s₁
  refine (h₁.trans ?_).trans (injectGuard_workOnly _)
  refine ⟨rfl, fun r hr => ?_, fun _ h => h, [], rfl⟩
  exact getLsbD_and_not _ _ _ hr

theorem diePowerOff_workOnly (s : State) (d : Nat) : WorkOnly s (diePowerOff s d) := by
  unfold diePowerOff
  extract_lets s₁
  have h₁ : WorkOnly s s₁ := (WorkOnly.each (fun _ _ => quadPowerOff_workOnly ..) _ _).trans (queueLost_workOnly ..)
  clear_value s₁
  refine (h₁.trans ?_).trans (injectGuard_workOnly _)
  refine ⟨rfl, fun _ h => h, fun r hr => ?_, [], rfl⟩
  exact getLsbD_and_not _ _ _ hr

theorem quadsOff_workOnly (s : State) (qs : List Nat) : WorkOnly s (quadsOff s qs) :=
  (WorkOnly.each (fun _ _ => quadPowerOff_workOnly ..) _ _).trans (.each (fun s d => by
    split
    · exact diePowerOff_workOnly ..
    · exact .refl s) _ _)

theorem rehearsalLeave_workOnly (s : State) : WorkOnly s (rehearsalLeave s) := by
  unfold rehearsalLeave
  split
  · exact quadsOff_workOnly ..
  · exact .refl s

/-! ### What a power-off takes -/

theorem queueLost_tray (s : State) (k : Nat) : (queueLost s k).tray = s.tray := by
  unfold queueLost
  extract_lets s₁
  refine Eq.trans (b := s₁.tray) rfl ?_
  refine each_rel (R := fun s t => t.tray = s.tray) (fun _ => rfl) (fun h k => k.trans h) (fun s j => ?_) _ _
  have hrel : (releaseReads s j).tray = s.tray := by
    unfold releaseReads
    split
    · rfl
    · rfl
  dsimp only
  split
  · exact hrel
  · exact hrel

theorem injectGuard_tray (s : State) : (injectGuard s).tray = s.tray := by
  unfold injectGuard
  extract_lets v kind loc d on
  split
  · rfl
  · rfl

/-- A quadrant powered off has no power. -/
theorem quadPowerOff_off (s : State) (q : Nat) : (quadPowerOff s q).tray.quadOn.getLsbD q = false := by
  unfold quadPowerOff
  extract_lets s₁
  rw [injectGuard_tray]
  exact getLsbD_and_not_self ..

theorem diePowerOff_off (s : State) (d : Nat) : (diePowerOff s d).tray.dieOn.getLsbD d = false := by
  unfold diePowerOff
  extract_lets s₁
  rw [injectGuard_tray]
  exact getLsbD_and_not_self ..

/-- What has no power has none after more work ends. -/
theorem WorkOnly.quad_off {s t : State} (h : WorkOnly s t) {q : Nat} (hoff : s.tray.quadOn.getLsbD q = false) : t.tray.quadOn.getLsbD q = false := by
  by_contra hon
  have := h.2.1 q (by simpa using hon)
  rw [hoff] at this
  cases this

theorem WorkOnly.die_off {s t : State} (h : WorkOnly s t) {d : Nat} (hoff : s.tray.dieOn.getLsbD d = false) : t.tray.dieOn.getLsbD d = false := by
  by_contra hon
  have := h.2.2.1 d (by simpa using hon)
  rw [hoff] at this
  cases this

theorem each_cons {α : Type} (a : α) (l : List α) (f : State → α → State) (s : State) : each (a :: l) f s = each l f (f s a) := rfl

/-- Quadrants powered off have no power. -/
theorem quadsOff_off (s : State) {qs : List Nat} {q : Nat} (hmem : q ∈ qs) : (quadsOff s qs).tray.quadOn.getLsbD q = false := by
  have hoff : (each qs (fun s q => quadPowerOff s q) s).tray.quadOn.getLsbD q = false := by
    induction qs generalizing s with
    | nil => cases hmem
    | cons a l ih =>
      rw [each_cons]
      have hfirst := quadPowerOff_off s a
      generalize quadPowerOff s a = u at *
      rcases List.mem_cons.mp hmem with rfl | hl
      · have hrest : WorkOnly u (each l (fun s q => quadPowerOff s q) u) := .each (fun _ _ => quadPowerOff_workOnly ..) l u
        exact hrest.quad_off hfirst
      · exact ih u hl
  have hdies : WorkOnly (each qs (fun s q => quadPowerOff s q) s) (quadsOff s qs) := .each (fun s d => by
    split
    · exact diePowerOff_workOnly ..
    · exact .refl s) _ _
  exact hdies.quad_off hoff

/-! ### The tray's failure -/

/-- As `WorkOnly`, but the tray may have declared itself failed, and told its partner to take over. -/
def FailOnly (s t : State) : Prop :=
  t = { s with
    flash := { s.flash with keptLog := t.flash.keptLog }
    tray := { s.tray with quadOn := t.tray.quadOn, dieOn := t.tray.dieOn, failed := t.tray.failed, clockState := t.tray.clockState }
    wv := { s.wv with quads := t.wv.quads, pairs := t.wv.pairs }
    seq := t.seq, cores := t.cores, sync := t.sync
    mem := { s.mem with sram := t.mem.sram, lines := t.mem.lines }
    dma := t.dma, dieJobs := t.dieJobs, car := t.car, kv := t.kv, variants := t.variants
    pair := { s.pair with dirty := t.pair.dirty, role := t.pair.role, yielded := t.pair.yielded }
    pav := { s.pav with vals := t.pav.vals, noticeAt := t.pav.noticeAt, log := t.pav.log, nextSeq := t.pav.nextSeq }
    pcie := { s.pcie with funcs := t.pcie.funcs }
    out := t.out, freeCtr := t.freeCtr }
  ∧ (∀ q, t.tray.quadOn.getLsbD q = true → s.tray.quadOn.getLsbD q = true)
  ∧ (∀ d, t.tray.dieOn.getLsbD d = true → s.tray.dieOn.getLsbD d = true)
  ∧ OutGrows s t

theorem FailOnly.refl (s : State) : FailOnly s s := ⟨rfl, fun _ h => h, fun _ h => h, .refl s⟩

theorem FailOnly.trans {s t u : State} (h : FailOnly s t) (k : FailOnly t u) : FailOnly s u := by
  obtain ⟨h, hq, hd, hout⟩ := h
  obtain ⟨k, kq, kd, kout⟩ := k
  refine ⟨?_, fun q hon => hq q (kq q hon), fun d hon => hd d (kd d hon), hout.trans kout⟩
  rw [k, h]

theorem WorkOnly.failOnly {s t : State} (h : WorkOnly s t) : FailOnly s t := by
  obtain ⟨h, hrest⟩ := h
  refine ⟨?_, hrest⟩
  have hpair : t.pair = { s.pair with dirty := t.pair.dirty } := congrArg (fun s => s.pair) h
  have htray : t.tray = { s.tray with quadOn := t.tray.quadOn, dieOn := t.tray.dieOn } := congrArg (fun s => s.tray) h
  rw [show t.pair.role = s.pair.role from congrArg (fun p => p.role) hpair, show t.pair.yielded = s.pair.yielded from congrArg (fun p => p.yielded) hpair,
    show t.tray.failed = s.tray.failed from congrArg (fun p => p.failed) htray, show t.tray.clockState = s.tray.clockState from congrArg (fun p => p.clockState) htray]
  exact h

theorem sendYield_failOnly (s : State) : FailOnly s (sendYield s) := ⟨rfl, fun _ h => h, fun _ h => h, [.yield], rfl⟩

theorem declareFailed_failOnly (s : State) (i : LogInfo) : FailOnly s (declareFailed s i) := by
  unfold declareFailed
  split
  · exact .refl s
  · extract_lets u
    have hu : FailOnly s u := ((logErr_workOnly ..).trans (rehearsalLeave_workOnly _)).failOnly
    clear_value u
    exact hu.trans ⟨rfl, fun _ h => h, fun _ h => h, [.failed], rfl⟩

theorem fenceYield_failOnly (s : State) (i : LogInfo) : FailOnly s (fenceYield s i) := by
  unfold fenceYield
  split
  · exact (sendYield_failOnly s).trans (declareFailed_failOnly ..)
  · exact .refl s

theorem FailOnly.trl {s t : State} (h : FailOnly s t) : t.trl = s.trl := by rw [h.1]

/-- Port A's end touches clocks alone. -/
theorem portAGone_frame (s : State) :
    portAGone s = { s with
      clk := { s.clk with judged := mset s.clk.judged 0x17 { stable := false }, source := (portAGone s).clk.source
                          switching := (portAGone s).clk.switching, halts := (portAGone s).clk.halts }
      pav := { s.pav with vals := (portAGone s).pav.vals } } := by
  have h := refFall_domainsOnly { s with clk := { s.clk with judged := mset s.clk.judged 0x17 { stable := false } } }
  exact h

/-- A fence of a port loses what the port holds, and with port A its clock; it may fail the tray. -/
theorem fencePort_trl (s : State) (p : Nat) (i : LogInfo) : (fencePort s p i).trl = { s.trl with ports := (fencePort s p i).trl.ports } := by
  unfold fencePort
  extract_lets src s₁
  rw [(fenceYield_failOnly ..).trl]
  split
  · rw [portAGone_frame]
    rfl
  · rfl

/-- An error of a port, ending a step, changes nothing of Trellis but that port. -/
theorem strike_port_trl (s : State) (res q p : Nat) (cs : List Nat) (i : LogInfo) :
    (strike s res (.port q) p cs i).trl = { s.trl with ports := (strike s res (.port q) p cs i).trl.ports } := by
  unfold strike
  extract_lets step old i' stop car s₁ err s₂ fifth fence s₃
  have hstop : ∀ s, (stop s).trl = s.trl := fun s => by
    have h : WorkOnly s (stop s) := .each (fun _ _ => ctxEnd_workOnly ..) _ _
    rw [h.1]
  have hlog : ∀ s i, (logErr s i).trl = s.trl := fun s i => by rw [(logErr_workOnly s i).1]
  have h₃ : s₃.trl = s.trl := hlog _ _
  split
  · have h₁ : s₁.trl = s.trl := by
      unfold s₁
      split
      · rfl
      · rfl
    rw [hstop, hlog, h₁]
  · split
    · unfold fenceScope
      dsimp only
      rw [fencePort_trl, (fenceStep_workOnly ..).failOnly.trl, hlog, h₃]
    · rw [hstop, h₃]

/-- A job lost to a port is gone, and nothing else of Trellis but the port changes. -/
theorem jobLink_trl (s : State) (n : Nat) (q : Nat) :
    (jobLink s n q).trl = { s.trl with jobs := mdel s.trl.jobs n, ports := (jobLink s n q).trl.ports } := by
  unfold jobLink
  extract_lets j trl s₁
  clear_value j
  cases j with
  | none => rfl
  | some j =>
    dsimp only
    split
    · rw [strike_port_trl]
    · rfl

theorem jobLink_peers (s : State) (n : Nat) (q : Nat) : (jobLink s n q).trl.peers = s.trl.peers := by rw [jobLink_trl]

end Sys2Proof.Machine
end

section
/-! SUPPORT. O32: ports train, narrow and greet, and clock states are exchanged (R322 to R326, R343 to R345). -/

namespace Sys2Proof.Machine

open Sys2Proof Sys2Proof.Claims

/-- A port that is lost keeps only its enable and what it has served. -/
theorem portLost_spec (s : State) (p : Nat) :
    portGet (portLost s p) p = { enabled := (portGet s p).enabled, served := (portGet s p).served }
    ∧ (∀ q, q ≠ p → portGet (portLost s p) q = portGet s q) ∧ (portLost s p).mem = s.mem := by
  unfold portLost
  extract_lets x s₁
  have h₁ : portGet s₁ p = { enabled := x.enabled, served := x.served } := portGet_portSet ..
  have h₂ : ∀ q, q ≠ p → portGet s₁ q = portGet s q := fun q hq => portGet_portSet_ne _ _ hq
  split
  · rw [portAGone_frame]
    exact ⟨h₁, h₂, rfl⟩
  · exact ⟨h₁, h₂, rfl⟩

section
variable {s : State} {p : Fin 2} (hon : portOn s p.val = true)
include hon

/-- A lane of a working port goes out of service, or comes back, by what both ends then agree on. -/
theorem exec_laneOutOfService (l : Fin 8) (hst : (portGet s p.val).st = .up ∨ (portGet s p.val).st = .refused) :
    exec (.laneOutOfService p l) s = .next (lanesSet s p ((portGet s p.val).badLanes ||| BitVec.ofNat 8 (2 ^ l.val))) := by
  have h : ¬ (!portOn s p.val || ((portGet s p.val).st != .up && (portGet s p.val).st != .hello && (portGet s p.val).st != .refused)) = true := by
    rcases hst with hst | hst <;> simp [hon, hst]
  exact if_neg h

theorem exec_laneRestore (l : Fin 8) :
    exec (.laneRestore p l) s =
      if (portGet s p.val).badLanes.getLsbD l.val = true then
        .next (lanesSet s p ((portGet s p.val).badLanes &&& ~~~ BitVec.ofNat 8 (2 ^ l.val)))
      else .next s := by
  show execLaneRestore p l s = _
  unfold execLaneRestore
  dsimp only
  cases (portGet s p.val).badLanes.getLsbD l.val with
  | true => exact if_neg (by simp [hon])
  | false => exact if_pos (by simp)

end

/-- The lanes left serve the port, and its partner is told, unless it is REFUSED. -/
theorem lanesSet_some {s : State} {p : Fin 2} {bad : BitVec 8} (h : lanesFor bad ≠ 0) :
    lanesSet s p bad = if (portGet s p.val).st = .refused then portSet s p.val { portGet s p.val with badLanes := bad }
      else emit (portSet s p.val { portGet s p.val with badLanes := bad, lanes := lanesFor bad }) (.laneChange p (lanesFor bad)) := if_neg h

theorem lanesSet_none {s : State} {p : Fin 2} {bad : BitVec 8} (h : lanesFor bad = 0) : lanesSet s p bad = portLost s p.val := if_pos h

/-! ### Hellos -/

/-- The port is UP as a hello says, and OD 0x6004 shows its cabinet. -/
def Greeted (p : Nat) (h : HelloBlock) (t : State) : Prop :=
  (portGet t p).st = .up ∧ (portGet t p).cabinet = h.cabinet ∧ (portGet t p).peerGen = h.generation ∧ odGet t 0x6004 0 = h.cabinet.toNat

theorem Greeted.creditGrant {p : Nat} {h : HelloBlock} {s : State} {port : Fin 2} {vc n : Nat} (hs : Greeted p h s) :
    Greeted p h (Machine.creditGrant s port vc n) := by
  unfold Machine.creditGrant
  split
  · exact hs
  · exact hs

/-- Sending flits changes no port's standing. -/
theorem Greeted.linkDrain {p q n : Nat} {h : HelloBlock} {s : State} (hs : Greeted p h s) : Greeted p h (Machine.linkDrain s q n) := by
  induction n generalizing s with
  | zero => exact hs
  | succ n ih =>
    unfold Machine.linkDrain
    extract_lets x
    split
    · exact hs
    · split
      · exact hs
      · split
        · exact hs
        · refine ih ?_
          obtain ⟨hst, hcab, hgen, hod⟩ := hs
          by_cases hq : p = q
          · subst hq
            refine ⟨?_, ?_, ?_, hod⟩
            · exact (congrArg Port.st (portGet_portSet ..)).trans hst
            · exact (congrArg Port.cabinet (portGet_portSet ..)).trans hcab
            · exact (congrArg Port.peerGen (portGet_portSet ..)).trans hgen
          · refine ⟨?_, ?_, ?_, hod⟩
            · exact (congrArg Port.st (portGet_portSet_ne _ _ hq)).trans hst
            · exact (congrArg Port.cabinet (portGet_portSet_ne _ _ hq)).trans hcab
            · exact (congrArg Port.peerGen (portGet_portSet_ne _ _ hq)).trans hgen

/-- The reference does not run from port A's clock any more, unless its domain stands still. -/
theorem portAGone_source {s : State} (hhalt : mget s.clk.halts 0x19 = none) : mgetD (portAGone s).clk.source 0x18 2 ≠ 2 := by
  show domSource (portAGone s) 0x19 ≠ 2
  rw [portAGone, domSource_refFall (by exact hhalt)]
  split
  · decide
  · assumption

/-- A domain that stands still on its way to port A's clock is to switch back. -/
theorem portAGone_halt {s : State} {y : ClkHalt} (hhalt : mget s.clk.halts 0x19 = some y) (hsrc : mgetD s.clk.source 0x18 2 = 2) :
    mget (portAGone s).clk.halts 0x19 = some { y with back := true } := by
  have hsrc' : domSource { s with clk := { s.clk with judged := mset s.clk.judged 0x17 { stable := false } } } 0x19 = 2 := hsrc
  have hsome : (mget s.clk.halts 0x19).isSome = true := by rw [hhalt]; rfl
  unfold portAGone refFall
  rw [if_pos hsrc', if_pos hsome, mget_haltBack]
  simp [hhalt, haltMark]

theorem exec_helloSend_down {s : State} {p : Fin 2} (hst : (portGet s p.val).st = .down) : exec (.helloSend p) s = .next s := by
  have h : (!portOn s p.val || (portGet s p.val).st == .down) = true := by simp [hst]
  exact if_pos h

/-- A port that refuses a hello. -/
def helloRefused (s : State) (p : Nat) (h : HelloBlock) : State :=
  let x := portGet s p
  let s := portSet s p { x with peerGen := h.generation, refusal := helloRefusal s p h, st := .refused }
  if p = 0 ∧ x.st = .up then portAGone s else s

/-- A port that takes a hello: it is UP, grants room if it was not before, and sends what waits. -/
def helloTaken (s : State) (p : Fin 2) (h : HelloBlock) : State :=
  let x := portGet s p.val
  let n := lanesFor x.badLanes
  let s := portSet s p.val { x with peerGen := h.generation, refusal := 0, st := .up, cabinet := h.cabinet, lanes := n }
  let s := odSet s 0x6004 0 h.cabinet.toNat
  let s := if x.lanes = n then s else emit s (.laneChange p n)
  let s := if x.st = .up then s else creditGrant (creditGrant s p 1 (Config.creditRoom 1)) p 2 (Config.creditRoom 2)
  linkDrain s p.val 512

section
variable {s : State} {p : Fin 2} (hon : portOn s p.val = true)
include hon

/-- A hello goes out, and ends a port's training. -/
theorem helloSend_runs (hst : (portGet s p.val).st ≠ .down) :
    Runs (.helloSend p) s fun t =>
      t.out = .hello p { version := 1, generation := 1, isSwitch := false, slot := fin16 s.tray.slotId.toNat, port := p, cabinet := (portGet s p.val).cabinet, slotTaken := false } :: s.out
      ∧ (portGet t p.val).st = (if (portGet s p.val).st = .training then .hello else (portGet s p.val).st) ∧ t.mem = s.mem := by
  have h : ¬ (!portOn s p.val || (portGet s p.val).st == .down) = true := by simp [hon, hst]
  refine ⟨_, if_neg h, ?_⟩
  dsimp only
  by_cases htrain : (portGet s p.val).st = .training
  · have hbeq : ((portGet s p.val).st == .training) = true := by simp [htrain]
    rw [if_pos hbeq, if_pos htrain]
    exact ⟨rfl, congrArg Port.st (portGet_portSet ..), rfl⟩
  · have hbeq : ¬ ((portGet s p.val).st == .training) = true := by simp [htrain]
    rw [if_neg hbeq, if_neg htrain]
    exact ⟨rfl, congrArg Port.st (portGet_portSet ..), rfl⟩

/-- HELLO_RECEIVE at a port that may greet. -/
theorem exec_helloReceive (h : HelloBlock) (hdown : (portGet s p.val).st ≠ .down) (htrain : (portGet s p.val).st ≠ .training) :
    exec (.helloReceive p h) s = if helloRefusal s p.val h ≠ 0 then .next (helloRefused s p.val h) else .next (helloTaken s p h) :=
  if_neg (by simp [hon, hdown, htrain])

/-- A hello that is not refused takes the port UP in its cabinet. -/
theorem helloReceive_up (h : HelloBlock) (hdown : (portGet s p.val).st ≠ .down) (htrain : (portGet s p.val).st ≠ .training)
    (hgood : helloRefusal s p.val h = 0) :
    Runs (.helloReceive p h) s fun t =>
      (portGet t p.val).st = .up ∧ (portGet t p.val).cabinet = h.cabinet ∧ (portGet t p.val).peerGen = h.generation ∧ odGet t 0x6004 0 = h.cabinet.toNat := by
  refine ⟨_, (exec_helloReceive hon h hdown htrain).trans (if_neg (not_not_intro hgood)), ?_⟩
  show Greeted p.val h (helloTaken s p h)
  unfold helloTaken
  extract_lets x n s₁ s₂ s₃ s₄
  have hgreets : Greeted p.val h s₂ := by
    refine ⟨?_, ?_, ?_, odGet_odSet ..⟩
    · exact congrArg Port.st (portGet_portSet ..)
    · exact congrArg Port.cabinet (portGet_portSet ..)
    · exact congrArg Port.peerGen (portGet_portSet ..)
  have h₃ : Greeted p.val h s₃ := by
    unfold s₃
    split
    · exact hgreets
    · exact hgreets
  have h₄ : Greeted p.val h s₄ := by
    unfold s₄
    split
    · exact h₃
    · exact h₃.creditGrant.creditGrant
  exact h₄.linkDrain

/-- A hello that is refused leaves the port REFUSED with the cause; where that was port A, up till then, its clock is gone. -/
theorem helloReceive_refused (h : HelloBlock) (hdown : (portGet s p.val).st ≠ .down) (htrain : (portGet s p.val).st ≠ .training)
    (hbad : helloRefusal s p.val h ≠ 0) :
    Runs (.helloReceive p h) s fun t =>
      let x := portGet s p.val
      portGet t p.val = { x with peerGen := h.generation, refusal := helloRefusal s p.val h, st := .refused } ∧ t.out = s.out
      ∧ (p.val ≠ 0 ∨ x.st ≠ .up → t.pav = s.pav ∧ t.clk = s.clk)
      ∧ (p.val = 0 → x.st = .up → (mgetD t.clk.judged 0x17 {}).stable = false
        ∧ (mget s.clk.halts 0x19 = none → mgetD t.clk.source 0x18 2 ≠ 2)
        ∧ ∀ y, mget s.clk.halts 0x19 = some y → mgetD s.clk.source 0x18 2 = 2 → mget t.clk.halts 0x19 = some { y with back := true }) := by
  refine ⟨_, (exec_helloReceive hon h hdown htrain).trans (if_pos hbad), ?_⟩
  beta_reduce
  intro x
  unfold helloRefused
  extract_lets s₁
  have hport : portGet s₁ p.val = { x with peerGen := h.generation, refusal := helloRefusal s p.val h, st := .refused } := portGet_portSet ..
  split
  · next hA =>
    have hframe := portAGone_frame s₁
    refine ⟨?_, ?_, fun hnot => absurd hA.1 (hnot.resolve_right (not_not_intro hA.2)), fun _ _ => ⟨?_, fun hhalt => ?_, fun y hy hsrc => ?_⟩⟩
    · rw [hframe]
      exact hport
    · rw [hframe]
      rfl
    · rw [hframe]
      exact congrArg Judgement.stable (mgetD_mset_same ..)
    · exact portAGone_source hhalt
    · exact portAGone_halt hy hsrc
  · next hnotA => exact ⟨hport, rfl, fun _ => ⟨rfl, rfl⟩, fun h0 hup => absurd ⟨h0, hup⟩ hnotA⟩

end

/-! ### Equalisation -/

theorem portUp_of {s : State} {p : Nat} (hon : portOn s p = true) (hup : (portGet s p).st = .up) : portUp s p = true := by
  simp [portUp, hon, hup]

theorem portGet_emit (s : State) (o : Output) (p : Nat) : portGet (emit s o) p = portGet s p := rfl

theorem exec_equalisationRequest {s : State} {p : Fin 2} (l : Fin 8) (c : BitVec 8) (hup : portUp s p.val = true) :
    let due := ∀ at_, mget (portGet s p.val).eqAt l.val = some at_ → at_ + 100000 ≤ s.clk.now
    (due → exec (.equalisationRequest p l c) s =
      .next (emit (portSet s p.val { portGet s p.val with eqAt := mset (portGet s p.val).eqAt l.val s.clk.now }) (.coefficient p l c)))
    ∧ (¬ due → exec (.equalisationRequest p l c) s = .next s) := by
  intro due
  show (due → execEqualisationRequest p l c s = _) ∧ (¬ due → execEqualisationRequest p l c s = _)
  unfold execEqualisationRequest
  cases hat : mget (portGet s p.val).eqAt l.val with
  | none => simp [due, hat, hup]
  | some at_ =>
    simp only [due, hat, hup, Option.some.injEq, forall_eq']
    refine ⟨fun hdue => ?_, fun hearly => ?_⟩
    · simp [hdue]
    · simp [hearly]

/-- R322 to R324, R326: lanes, hellos and equalisation, command by command. -/
theorem portsTrainNarrowAndGreet : Claims.PortsTrainNarrowAndGreet := by
  intro p s hon x
  refine ⟨fun l hup => ⟨fun hlanes => ?narrows, fun hnone => ?goesDown⟩, fun l href hlanes => ?refusedLane, fun l hbad hst hlanes => ?widens,
    fun l hgood => ?stays, fun hdown => ⟨s, exec_helloSend_down hdown, rfl⟩, fun hup => helloSend_runs hon hup,
    fun h hdown htrain => ⟨fun hgood => helloReceive_up hon h hdown htrain hgood, fun hbad => helloReceive_refused hon h hdown htrain hbad⟩,
    fun l c hup => ⟨fun hdue => ?asks, fun hearly => ?waits⟩⟩
  case narrows =>
    have hnot : ¬ (portGet s p.val).st = .refused := fun h => absurd (hup.symm.trans h) (by decide)
    refine ⟨_, exec_laneOutOfService hon l (.inl hup), ?_⟩
    rw [lanesSet_some hlanes, if_neg hnot]
    exact ⟨portGet_portSet .., rfl⟩
  case goesDown =>
    refine ⟨_, exec_laneOutOfService hon l (.inl hup), ?_⟩
    rw [lanesSet_none hnone]
    exact congrArg Port.st (portLost_spec ..).1
  case refusedLane =>
    refine ⟨_, exec_laneOutOfService hon l (.inr href), ?_⟩
    rw [lanesSet_some hlanes, if_pos href]
    exact ⟨portGet_portSet .., rfl⟩
  case widens =>
    refine ⟨_, (exec_laneRestore hon l).trans (if_pos hbad), ?_⟩
    rw [lanesSet_some hlanes, if_neg hst]
    exact ⟨portGet_portSet .., rfl⟩
  case stays => exact ⟨s, (exec_laneRestore hon l).trans (if_neg (by rw [hgood]; decide)), rfl⟩
  case asks => exact ⟨_, (exec_equalisationRequest l c (portUp_of hon hup)).1 hdue, rfl, by rw [portGet_emit, portGet_portSet]; exact mget_mset_same ..⟩
  case waits => exact ⟨s, (exec_equalisationRequest l c (portUp_of hon hup)).2 hearly, rfl⟩

/-! ### Clock states -/

/-- Announcing sends one block for each partition, and nothing else. -/
theorem each_emit {α : Type} (o : α → Output) (l : List α) (s : State) : each l (fun s a => emit s (o a)) s = { s with out := (l.map o).reverse ++ s.out } := by
  induction l generalizing s with
  | nil => rfl
  | cons a l ih =>
    show each l (fun s a => emit s (o a)) (emit s (o a)) = _
    rw [ih]
    simp [emit]

/-- A cause begins or ends: requests keep their place, and what changes is the request table, its objects and completions. -/
def RiskOnly (s t : State) : Prop :=
  t = { s with
    car := { s.car with reqs := t.car.reqs, cached := t.car.cached, backlog := t.car.backlog }
    pair := { s.pair with dirty := t.pair.dirty }
    pav := { s.pav with vals := t.pav.vals }
    pcie := { s.pcie with funcs := t.pcie.funcs }
    out := t.out }

theorem RiskOnly.refl (s : State) : RiskOnly s s := rfl

theorem RiskOnly.trans {s t u : State} (h : RiskOnly s t) (k : RiskOnly t u) : RiskOnly s u := by
  unfold RiskOnly at *
  rw [k, h]

theorem IssueOnly.riskOnly {s t : State} (h : IssueOnly s t) : RiskOnly s t := by
  unfold RiskOnly
  rw [h.1]

theorem riskSet_riskOnly (s : State) (p cause : Nat) (on : Bool) : RiskOnly s (riskSet s p cause on) := by
  unfold riskSet
  extract_lets v m s₁ s₂
  split
  · have h₁ : RiskOnly s s₁ := rfl
    have h₂ : RiskOnly s₁ s₂ := each_rel (α := Nat × Req) RiskOnly.refl RiskOnly.trans (fun s x => by
      split
      · exact .refl s
      · exact rfl) _ _
    exact (h₁.trans h₂).trans (eventTo_issueOnly ..).riskOnly
  · split
    · exact RiskOnly.trans (t := odSet s 0x3012 (p + 1) (v - m)) rfl (eventTo_issueOnly ..).riskOnly
    · exact .refl s

theorem RiskOnly.stays {s t : State} (h : RiskOnly s t) : t.trl = s.trl ∧ t.mem = s.mem ∧ t.pair.partnerLost = s.pair.partnerLost := by
  rw [h]
  exact ⟨rfl, rfl, rfl⟩

theorem risksSet_riskOnly (ps : List Nat) (cause : Nat) (on : Bool) (s : State) : RiskOnly s (each ps (fun s p => riskSet s p cause on) s) :=
  each_rel RiskOnly.refl RiskOnly.trans (fun _ _ => riskSet_riskOnly ..) _ _

/-- A slot's loss is known or not due. -/
theorem exec_peerLost_early {s : State} {n : Fin 16}
    (h : (mgetD s.trl.peers n.val {}).lost = true ∨ s.clk.now < (mgetD s.trl.peers n.val {}).at_ + 100000 ∨ n.val = ownSlot s) :
    exec (.peerLost n) s = .next s := if_pos h

section
variable {s : State} (hon : trlOn s = true) (hup : portUp s 0 = true ∨ portUp s 1 = true)
include hon hup

theorem linkWorks : (trlOn s && (portUp s 0 || portUp s 1)) = true := by
  rcases hup with h | h <;> simp [hon, h]

/-- While a port is UP each ACTIVE partition's clock and causes are announced. -/
theorem clockStateSend_runs :
    Runs .clockStateSend s fun t => t = { s with out :=
      ((activeParts s).map fun p => .clockState (fin16 p) (partMhz s p) (partCauses s p)).reverse ++ s.out } := by
  refine ⟨_, if_pos (linkWorks hon hup), ?_⟩
  have hsame : ∀ (l : List Nat) (t : State), t = { s with out := t.out } →
      each l (fun s p => emit s (.clockState (fin16 p) (partMhz s p) (partCauses s p))) t
        = each l (fun t p => emit t (.clockState (fin16 p) (partMhz s p) (partCauses s p))) t := by
    intro l
    induction l with
    | nil => exact fun _ _ => rfl
    | cons a l ih =>
      intro t ht
      rw [each_cons, each_cons, show partMhz t a = partMhz s a by rw [ht]; rfl, show partCauses t a = partCauses s a by rw [ht]; rfl]
      exact ih _ (by rw [ht]; rfl)
  rw [hsame _ _ rfl, each_emit]

/-- The latest block of a slot is kept; a partner that had been lost is back, unless the tray goes on alone. -/
theorem clockStateReceive_runs (n : Fin 16) (p : PartId) (f : BitVec 16) (c : Byte) :
    Runs (.clockStateReceive n p f c) s fun t =>
      mget t.trl.peers n.val = some { mhz := f.toNat, causes := c, at_ := s.clk.now, lost := false, byPart := mset (mgetD s.trl.peers n.val {}).byPart p.val f.toNat }
      ∧ (∀ m, m ≠ n.val → mget t.trl.peers m = mget s.trl.peers m)
      ∧ (odGet s 0x6401 0 = n.val → s.pair.alone = false → t.pair.partnerLost = false)
      ∧ (odGet s 0x6401 0 ≠ n.val ∨ s.pair.alone = true → t.pair = s.pair) ∧ t.mem = s.mem := by
  refine ⟨_, if_pos (linkWorks hon hup), ?_⟩
  dsimp only
  generalize ({ mgetD s.trl.peers n.val {} with
    mhz := f.toNat, causes := c, at_ := s.clk.now, lost := false, byPart := mset (mgetD s.trl.peers n.val {}).byPart p.val f.toNat } : PeerClock) = x
  split
  · next h =>
    obtain ⟨hslot, hlost, halone⟩ := h
    obtain ⟨htrl, hmem, hpartner⟩ := (risksSet_riskOnly (activeParts s) 4 false
      { s with trl := { s.trl with peers := mset s.trl.peers n.val x }, pair := { s.pair with partnerLost := false, degraded := false } }).stays
    refine ⟨?_, fun m hm => ?_, fun _ _ => hpartner, fun hnot => ?_, hmem⟩
    · exact (congrArg (fun t => mget t.peers n.val) htrl).trans (mget_mset_same ..)
    · exact (congrArg (fun t => mget t.peers m) htrl).trans (mget_mset_ne _ _ hm)
    · rcases hnot with hnot | hnot
      · exact absurd hslot hnot
      · simp [hnot] at halone
  · next h =>
    refine ⟨mget_mset_same .., fun m hm => mget_mset_ne _ _ hm, fun hslot halone => ?_, fun _ => rfl, rfl⟩
    by_contra hlost
    exact h ⟨hslot, by simpa using hlost, by simp [halone]⟩

end

/-- A slot whose loss is noted, where it had been heard. -/
def peerGone (s : State) (n : Nat) : State :=
  if (mget s.trl.peers n).isSome then { s with trl := { s.trl with peers := mset s.trl.peers n { mgetD s.trl.peers n {} with lost := true } } } else s

/-- The jobs that await a slot end with it. -/
def jobsGone (s : State) (n : Nat) : State :=
  each (s.trl.jobs.filter fun y => awaits s y.1 y.2 n) (fun s y =>
    jobLink s y.1 (((s.trl.pending.find? fun o => o.job == some y.1).map OutPkt.port).getD 0)) s

theorem exec_peerLost_due {s : State} {n : Fin 16} (hlost : (mgetD s.trl.peers n.val {}).lost = false) (hlate : (mgetD s.trl.peers n.val {}).at_ + 100000 ≤ s.clk.now)
    (hother : n.val ≠ ownSlot s) :
    exec (.peerLost n) s =
      let s := jobsGone (peerGone s n.val) n.val
      if odGet s 0x6401 0 ≠ n.val ∨ s.pair.role = .unpaired ∨ s.pair.partnerLost then .next s else .next (partnerGone s) := by
  refine if_neg ?_
  rintro (h | h | h)
  · exact absurd (hlost.symm.trans h) (by decide)
  · omega
  · exact hother h

theorem jobsGone_peers (s : State) (n : Nat) : (jobsGone s n).trl.peers = s.trl.peers :=
  each_rel (α := Nat × TJob) (R := fun s t => t.trl.peers = s.trl.peers) (fun _ => rfl) (fun h k => k.trans h) (fun _ _ => jobLink_peers ..) _ _

/-- The completions held are issued, and no comparison goes on. -/
theorem heldAll_workOnly (s : State) :
    WorkOnly { s with pair := { s.pair with compare := [], proof := [], decisions := [], batches := [] } } (heldAll s) := heldOpen_workOnly _

/-- What the loss of the partner does: it touches no link, and outside comparison mode all of it is said here. -/
theorem partnerGone_spec (s : State) :
    (partnerGone s).trl = s.trl ∧ (partnerGone s).pair.partnerLost = true
    ∧ (odGet s 0x6400 0 ≠ 2 → (partnerGone s).pair.degraded = (s.pair.role == .standby || s.pair.role == .rehearsing)
      ∧ (partnerGone s).out = (if s.pair.role = .active then [.noPartner] else []) ++ s.out) := by
  unfold partnerGone
  extract_lets src s₁
  split
  · next hmode =>
    have hheld : (if s₁.pair.role = .active then heldAll s₁ else s₁).trl = s.trl
        ∧ (if s₁.pair.role = .active then heldAll s₁ else s₁).pair.partnerLost = true := by
      split
      · rw [(heldAll_workOnly s₁).1]
        exact ⟨rfl, rfl⟩
      · exact ⟨rfl, rfl⟩
    obtain ⟨htrl, -, hpartner⟩ := (risksSet_riskOnly (activeParts s₁) 4 true (if s₁.pair.role = .active then heldAll s₁ else s₁)).stays
    exact ⟨htrl.trans hheld.1, hpartner.trans hheld.2, fun hnot => absurd hmode hnot⟩
  · split
    · exact ⟨rfl, rfl, fun _ => ⟨rfl, rfl⟩⟩
    · exact ⟨rfl, rfl, fun _ => ⟨rfl, rfl⟩⟩

/-- A silent slot is lost: noted where it had been heard, and to the pair where it is the partner's. -/
theorem peerLost_runs {s : State} {n : Fin 16} (hlost : (mgetD s.trl.peers n.val {}).lost = false) (hlate : (mgetD s.trl.peers n.val {}).at_ + 100000 ≤ s.clk.now)
    (hother : n.val ≠ ownSlot s) :
    Runs (.peerLost n) s fun t =>
      (∀ y, mget s.trl.peers n.val = some y → mget t.trl.peers n.val = some { y with lost := true })
      ∧ (odGet s 0x6401 0 = n.val → s.pair.role ≠ .unpaired → (∀ y, y ∈ s.trl.jobs → awaits s y.1 y.2 n.val = false) →
        t.pair.partnerLost = true
        ∧ (s.pair.partnerLost = false → odGet s 0x6400 0 ≠ 2 →
          t.pair.degraded = (s.pair.role == .standby || s.pair.role == .rehearsing)
          ∧ t.out = (if s.pair.role = .active then [.noPartner] else []) ++ s.out)) := by
  have hrun := exec_peerLost_due hlost hlate hother
  dsimp only at hrun
  have hpeers : ∀ y, mget s.trl.peers n.val = some y → mget (jobsGone (peerGone s n.val) n.val).trl.peers n.val = some { y with lost := true } := by
    intro y hy
    rw [jobsGone_peers, peerGone, if_pos (by rw [hy]; rfl), show mgetD s.trl.peers n.val {} = y by rw [mgetD, hy]; rfl]
    exact mget_mset_same ..
  have hnone : (∀ y, y ∈ s.trl.jobs → awaits s y.1 y.2 n.val = false) → jobsGone (peerGone s n.val) n.val = peerGone s n.val := by
    intro hidle
    have hempty : (peerGone s n.val).trl.jobs.filter (fun y => awaits (peerGone s n.val) y.1 y.2 n.val) = [] := by
      refine List.filter_eq_nil_iff.mpr fun y hy => ?_
      have hsame : awaits (peerGone s n.val) y.1 y.2 n.val = awaits s y.1 y.2 n.val := by
        unfold peerGone
        split
        · rfl
        · rfl
      have hjobs : (peerGone s n.val).trl.jobs = s.trl.jobs := by
        unfold peerGone
        split
        · rfl
        · rfl
      rw [hsame, hidle y (hjobs ▸ hy)]
      decide
    rw [jobsGone, hempty]
    rfl
  have hgone : peerGone s n.val = { s with trl := (peerGone s n.val).trl } := by
    unfold peerGone
    split
    · rfl
    · rfl
  split at hrun
  · next hstays =>
    refine ⟨_, hrun, hpeers, fun hslot hrole hidle => ?_⟩
    rw [hnone hidle] at hstays ⊢
    have hslot' : odGet (peerGone s n.val) 0x6401 0 = n.val := by rw [hgone]; exact hslot
    have hrole' : (peerGone s n.val).pair = s.pair := by rw [hgone]
    rw [hrole'] at hstays ⊢
    have hknown : s.pair.partnerLost = true := (hstays.resolve_left (not_not_intro hslot')).resolve_left hrole
    exact ⟨hknown, fun h => absurd (hknown.symm.trans h) (by decide)⟩
  · refine ⟨_, hrun, fun y hy => ?_, fun hslot hrole hidle => ?_⟩
    · rw [(partnerGone_spec _).1]
      exact hpeers y hy
    · rw [hnone hidle]
      have hsame : ∀ i j, odGet (peerGone s n.val) i j = odGet s i j := fun i j => by rw [hgone]; rfl
      have hpair : (peerGone s n.val).pair = s.pair := by rw [hgone]
      have hout : (peerGone s n.val).out = s.out := by rw [hgone]
      obtain ⟨-, hlostNow, hrest⟩ := partnerGone_spec (peerGone s n.val)
      rw [hpair, hout, hsame] at hrest
      exact ⟨hlostNow, fun _ => hrest⟩

/-- R343 to R345, R441, R450: clock states are announced, kept, and missed. -/
theorem clockStatesAreExchanged : Claims.ClockStatesAreExchanged := by
  intro s hon hup
  exact ⟨clockStateSend_runs hon hup, clockStateReceive_runs hon hup, fun n => ⟨fun h => ⟨s, exec_peerLost_early h, rfl⟩,
    fun hlost hlate hother => peerLost_runs hlost hlate hother⟩⟩

/-- Settles O32: ports and clock states, each by its own lemma. -/
theorem portsTrainGreetAndExchangeClockStates : Obligations.PortsTrainGreetAndExchangeClockStates :=
  ⟨portsTrainNarrowAndGreet, clockStatesAreExchanged⟩

end Sys2Proof.Machine
end

section
/-! SUPPORT. Answers of dictionary operations: where the answer of a read or a write stands (R462 to R469, R474). -/

namespace Sys2Proof.Machine

open Sys2Proof Sys2Proof.Claims

/-- An answer stands where its source looks for it, whatever the operation did beside the sessions. -/
theorem answers_dictAnswer {s u : State} (rq : DictReq) (st idx sub : Nat) (v : List Byte) (h : u.pav.sessions = s.pav.sessions) :
    Answers s (dictAnswer u rq st idx sub v) rq st idx sub v := by
  unfold Answers dictAnswer
  split
  · next f hsrc => simp [hsrc]
  · next sid hsrc =>
    intro x hx hopen
    simp only [hsrc, h, hx, hopen]
    cases hlast : rq.last
    · exact ⟨_, mget_mset_same .., fun _ => ⟨rfl, rfl⟩, fun hl => absurd hl (by decide)⟩
    · exact ⟨_, mget_mset_same .., fun hl => absurd hl (by decide), fun _ => ⟨rfl, rfl, u.out, rfl⟩⟩

theorem LogOnly.sessions {s t : State} (h : LogOnly s t) : t.pav.sessions = s.pav.sessions :=
  congrArg (fun u => u.pav.sessions) h

/-- The count of a clamp is no session's. -/
theorem countClamp_sessions (s : State) (src : DictSrc) (idx sub : Nat) : (countClamp s src idx sub).pav.sessions = s.pav.sessions := by
  unfold countClamp notice
  extract_lets c _ s₁ s₂ s₃
  have h₃ : s₃.pav.sessions = s₂.pav.sessions := (logSparse_logOnly ..).sessions
  exact h₃

theorem dictPut_sessions (s : State) (src : DictSrc) (idx sub raw w : Nat) : (dictPut s src idx sub raw w).pav.sessions = s.pav.sessions := by
  unfold dictPut
  split
  · rfl
  · exact countClamp_sessions s src idx sub

/-- The row of an object is one of the table, and covers the subindex. -/
theorem odRow_eq_some {idx sub : Nat} {r : OdRow} (h : odRow idx sub = some r) : r ∈ odTable ∧ r.idx = idx ∧ r.lo ≤ sub ∧ sub ≤ r.hi := by
  have hr := List.find?_some h
  simp only [Bool.and_eq_true, beq_iff_eq, decide_eq_true_eq] at hr
  exact ⟨List.mem_of_find?_eq_some h, hr.1.1, hr.1.2, hr.2⟩

/-- A write that its source may make is answered with what the object then reads as. -/
theorem dictWrite_answered {s : State} {rq : DictReq} {idx sub : Nat} {v : List Byte} {r : OdRow} (h : MayStore s rq idx sub v) (hrow : odRow idx sub = some r)
    (clamp : State → Nat → Nat) (effect : State → Nat → State) :
    dictWrite s rq idx sub v clamp effect =
      dictAnswer (effect (dictPut s rq.src idx sub (leNat v) (clamp s (leNat v))) (clamp s (leNat v))) rq 0 idx sub
        (leBytes r.size (odGet (effect (dictPut s rq.src idx sub (leNat v) (clamp s (leNat v))) (clamp s (leNat v))) idx sub)) := by
  obtain ⟨hon, r', hr', hmay, hlen⟩ := h
  obtain rfl : r = r' := Option.some.inj (hrow.symm.trans hr')
  have hright : ¬ (!mayWrite s rq.src idx sub r.acc) = true := by simp [hmay]
  rw [dictWrite, if_neg (by simp [hon]), hrow]
  exact (if_neg hright).trans (if_neg (not_not.mpr hlen))

/-- An object that no row defines is answered so, and nothing is stored. -/
theorem dictWrite_noObject {s : State} {rq : DictReq} {idx sub : Nat} (v : List Byte) (clamp : State → Nat → Nat) (effect : State → Nat → State)
    (hon : pavOn s = true) (hrow : odRow idx sub = none) : dictWrite s rq idx sub v clamp effect = dictAnswer s rq 1 idx sub [] := by
  rw [dictWrite, if_neg (by simp [hon]), hrow]

theorem leNat_lt (v : List Byte) : leNat v < 256 ^ v.length := by
  induction v with
  | nil => exact Nat.one_pos
  | cons b t ih =>
    have hb := b.isLt
    rw [leNat, List.length_cons, pow_succ]
    omega

end Sys2Proof.Machine
end

section
/-! SUPPORT. O49: parity errors, injections and the perturbation objects (R94, R96, R384, R418, R536, R538 to R546). -/

namespace Sys2Proof.Machine

open Sys2Proof Sys2Proof.Claims

/-! ### Errors that are logged and end their contexts -/

/-- What a record of class 1 to 3 leaves: the log's frame without the copy in flash. -/
theorem logErr_frame (s : State) {i : LogInfo} (h : i.cls < 4) : DictOnly s (logErr s i) ∧ LogOnly s (logErr s i) := by
  have hpush (u : State) : DictOnly u (logPush u i) := logPush_dictOnly u h
  exact ⟨(DictOnly.pav ..).trans (hpush _), (bumpBy_logOnly ..).trans (logPush_logOnly ..)⟩

/-- A record counts its class. -/
theorem odGet_logErr (s : State) {i : LogInfo} (h : i.cls = 2) : odGet (logErr s i) 0x7C20 3 = min (odGet s 0x7C20 3 + 1) (2 ^ 64 - 1) := by
  rw [logErr, h, odGet_logPush _ _ (by decide)]
  exact odGet_bumpBy ..

/-- The early end of one step at most, with its context's code. -/
theorem ctxsEnd_frame (s : State) (cs : List Nat) (code : Fin 5) : StepEndOnly s (each cs (fun s c => ctxEnd s c code) s) :=
  each_rel .refl .trans (fun s c => (ctxEnd_sets s c code).1) cs s

/-- Of contexts of which there is at most one, each that runs a step without a fault gets the code. -/
theorem ctxsEnd_sets {s : State} {cs : List Nat} (code : Fin 5) (hone : cs.length ≤ 1) {c : Nat} (hc : c ∈ cs)
    (hstep : (ctxGet s c).step ≠ none) (hfault : (ctxGet s c).fault = none) :
    (ctxGet (each cs (fun s c => ctxEnd s c code) s) c).fault = some code := by
  match cs, hone with
  | [d], _ =>
    rw [List.mem_singleton] at hc
    subst hc
    have hset := (ctxEnd_sets s c code).2.2.1 (Option.ne_none_iff_isSome.mp hstep) hfault
    exact congrArg Context.fault hset

/-! ### Errors at one site -/

/-- The partition's step has met four errors already (R540). -/
def manyReplays (s : State) (p : Nat) : Prop := ∃ x, mget s.car.steps p = some x ∧ 4 ≤ x.replays

/-- What a first error leaves. -/
def StruckOnce (s t : State) (res : Nat) (cs : List Nat) : Prop :=
  mget t.err.seen res = some [s.clk.now] ∧ odGet t 0x7C20 3 = min (odGet s 0x7C20 3 + 1) (2 ^ 64 - 1)
  ∧ t.mem = s.mem ∧ t.flash = s.flash ∧ t.tray = s.tray
  ∧ ∀ c, c ∈ cs → (ctxGet s c).step ≠ none → (ctxGet s c).fault = none → (ctxGet t c).fault = some fcParity

/-- The error is noted among those of its resource. -/
def seenAt (s : State) (res : Nat) : State := { s with err := { s.err with seen := mset s.err.seen res (s.clk.now :: seenWithin s res) } }

/-- An error of R536 that is no injection: noted, logged, then a fence on a repeat or the fifth of a step, and a replay otherwise. -/
theorem strike_eq (s : State) (res : Nat) (sc : Scope) (p : Nat) (cs : List Nat) (i : LogInfo) (hinj : i.injected = false) :
    ∃ j k : LogInfo, j.cls = 2 ∧
      ((seenWithin s res ≠ [] ∨ manyReplays s p) → strike s res sc p cs i = fenceScope (logErr (seenAt s res) j) sc p k)
      ∧ (¬ (seenWithin s res ≠ [] ∨ manyReplays s p) → strike s res sc p cs i = each cs (fun s c => ctxEnd s c fcParity) (logErr (seenAt s res) j)) := by
  have hfifth : (match mget s.car.steps p with | some x => decide (x.replays ≥ 4) | none => false) = true ↔ manyReplays s p := by
    unfold manyReplays
    cases mget s.car.steps p with
    | none => simp
    | some x => simp
  have hfence : ((seenWithin s res != [] || match mget s.car.steps p with | some x => decide (x.replays ≥ 4) | none => false) = true)
      ↔ (seenWithin s res ≠ [] ∨ manyReplays s p) := by
    rw [Bool.or_eq_true, hfifth, bne_iff_ne]
  unfold strike
  extract_lets step old i' stop s₁ err s₂ fifth fence s₃
  have hi' : ¬ i'.injected = true := by simp [i', hinj]
  rw [if_neg hi']
  by_cases h : seenWithin s res ≠ [] ∨ manyReplays s p
  · exact ⟨_, i', rfl, fun _ => if_pos (hfence.mpr h), fun hn => absurd h hn⟩
  · exact ⟨_, i', rfl, fun hy => absurd hy h, fun _ => if_neg fun hf => h (hfence.mp hf)⟩

theorem strike_once {s : State} {res : Nat} {sc : Scope} {p : Nat} {cs : List Nat} {i : LogInfo} (hinj : i.injected = false) (hone : cs.length ≤ 1)
    (h : ¬ (seenWithin s res ≠ [] ∨ manyReplays s p)) : StruckOnce s (strike s res sc p cs i) res cs := by
  obtain ⟨j, k, hcls, -, hstop⟩ := strike_eq s res sc p cs i hinj
  have hnew : seenWithin s res = [] := by_contra fun hne => h (.inl hne)
  obtain ⟨hdict, hlog⟩ := logErr_frame (seenAt s res) (i := j) (by omega)
  have hcount : odGet (logErr (seenAt s res) j) 0x7C20 3 = min (odGet s 0x7C20 3 + 1) (2 ^ 64 - 1) := odGet_logErr _ hcls
  rw [hstop h]
  generalize logErr (seenAt s res) j = u at *
  have hseen : mget u.err.seen res = some [s.clk.now] := by
    rw [hdict]
    exact (mget_mset_same ..).trans (by rw [hnew])
  have hctx (c : Nat) : ctxGet u c = ctxGet s c := by rw [ctxGet, hdict]; rfl
  have hend := ctxsEnd_frame u cs fcParity
  have hframe : u.mem = s.mem ∧ u.flash = s.flash ∧ u.tray = s.tray := by rw [hdict]; exact ⟨rfl, rfl, rfl⟩
  obtain ⟨hmem, hflash, htray⟩ := hframe
  refine ⟨?_, ?_, ?_, ?_, ?_, fun c hc hstep hfault => ?_⟩
  · rw [hend]; exact hseen
  · rw [odGet, hend]; exact hcount
  · rw [hend]; exact hmem
  · rw [hend]; exact hflash
  · rw [hend]; exact htray
  · exact ctxsEnd_sets _ hone hc (by rw [hctx]; exact hstep) (by rw [hctx]; exact hfault)

/-! ### Fences -/

theorem FailOnly.fences {s t : State} (h : FailOnly s t) : t.flash.fencedQuads = s.flash.fencedQuads ∧ t.flash.fencedDies = s.flash.fencedDies := by
  rw [h.1]; exact ⟨rfl, rfl⟩

theorem WorkOnly.standing {s t : State} (h : WorkOnly s t) : t.tray.failed = s.tray.failed ∧ t.pair.role = s.pair.role
    ∧ t.flash.fencedQuads = s.flash.fencedQuads ∧ t.flash.fencedDies = s.flash.fencedDies := by
  rw [h.1]; exact ⟨rfl, rfl, rfl, rfl⟩

/-- A tray of a pair that serves yields and fails with a fence. -/
theorem fenceYield_yields {s : State} (i : LogInfo) (hrole : s.pair.role = .active ∨ s.pair.role = .follower) (h : s.tray.failed = false) :
    Failed (fenceYield s i) ∧ .yield ∈ (fenceYield s i).out := by
  have hserve : pairServing s = true := by
    unfold pairServing
    rcases hrole with hr | hr
    · rw [hr]; rfl
    · rw [hr]; rfl
  rw [fenceYield, if_pos hserve]
  exact ⟨declareFailed_failed i h, (declareFailed_failOnly (sendYield s) i).2.2.2.mem List.mem_cons_self⟩

/-- What a fence of a quadrant leaves. -/
def QuadFenced (s t : State) (q : Nat) : Prop :=
  t.flash.fencedQuads = s.flash.fencedQuads ||| BitVec.ofNat 16 (2 ^ q) ∧ t.tray.quadOn.getLsbD q = false
  ∧ (s.pair.role = .active ∨ s.pair.role = .follower → s.tray.failed = false → Failed t ∧ .yield ∈ t.out)

/-- What a fence of a die leaves. -/
def DieFenced (s t : State) (d : Nat) : Prop :=
  t.flash.fencedDies = s.flash.fencedDies ||| BitVec.ofNat 4 (2 ^ d) ∧ t.tray.dieOn.getLsbD d = false
  ∧ (s.pair.role ≠ .unpaired → s.tray.failed = false → Failed t)

theorem fenceQuad_fenced (s : State) (q : Nat) (i : LogInfo) : QuadFenced s (fenceQuad s q i) q := by
  unfold fenceQuad
  extract_lets flash s₁
  have hwork : WorkOnly s₁ (quadPowerOff (fenceQuadUsers s₁ (2 ^ q)) q) := (fenceQuadUsers_workOnly ..).trans (quadPowerOff_workOnly ..)
  have hoff := quadPowerOff_off (fenceQuadUsers s₁ (2 ^ q)) q
  have hsame : s₁.flash.fencedQuads = s.flash.fencedQuads ||| BitVec.ofNat 16 (2 ^ q) ∧ s₁.pair = s.pair ∧ s₁.tray = s.tray := ⟨rfl, rfl, rfl⟩
  clear_value s₁
  generalize quadPowerOff (fenceQuadUsers s₁ (2 ^ q)) q = u at *
  obtain ⟨hfl, hpair, htray⟩ := hsame
  obtain ⟨hfailed, hrole, hquads, -⟩ := hwork.standing
  have hfail := fenceYield_failOnly u i
  refine ⟨by rw [hfail.fences.1, hquads, hfl], ?_, fun hr hf => fenceYield_yields i (by rw [hrole, hpair]; exact hr) (by rw [hfailed, htray]; exact hf)⟩
  by_contra hon
  rw [Bool.not_eq_false] at hon
  exact Bool.false_ne_true (hoff.symm.trans (hfail.2.1 q hon))

/-- A paired tray that fences a die fails, whether it serves or not. -/
theorem fenceYield_then_fails {s : State} (i : LogInfo) (hrole : s.pair.role ≠ .unpaired) (h : s.tray.failed = false) :
    Failed (if (fenceYield s i).pair.role = .unpaired then fenceYield s i else declareFailed (fenceYield s i) i) := by
  by_cases hserve : pairServing s = true
  · have hfails : Failed (fenceYield s i) := by
      rw [fenceYield, if_pos hserve]
      exact declareFailed_failed i h
    rw [declareFailed, if_pos hfails.1, ite_self]
    exact hfails
  · rw [fenceYield, if_neg hserve, if_neg hrole]
    exact declareFailed_failed i h

theorem fenceDie_fenced (s : State) (d : Nat) (i : LogInfo) : DieFenced s (fenceDie s d i) d := by
  unfold fenceDie
  extract_lets flash s₁ s₂
  have hwork : WorkOnly s₁ (diePowerOff (fenceQuadUsers s₁ (15 * 2 ^ (4 * d))) d) := (fenceQuadUsers_workOnly ..).trans (diePowerOff_workOnly ..)
  have hoff := diePowerOff_off (fenceQuadUsers s₁ (15 * 2 ^ (4 * d))) d
  have hsame : s₁.flash.fencedDies = s.flash.fencedDies ||| BitVec.ofNat 4 (2 ^ d) ∧ s₁.pair = s.pair ∧ s₁.tray = s.tray := ⟨rfl, rfl, rfl⟩
  have hs₂ : s₂ = fenceYield (diePowerOff (fenceQuadUsers s₁ (15 * 2 ^ (4 * d))) d) i := rfl
  clear_value s₁ s₂
  generalize diePowerOff (fenceQuadUsers s₁ (15 * 2 ^ (4 * d))) d = u at *
  obtain ⟨hfl, hpair, htray⟩ := hsame
  obtain ⟨hfailed, hrole, -, hdies⟩ := hwork.standing
  have hfail : FailOnly u (if s₂.pair.role = .unpaired then s₂ else declareFailed s₂ i) := by
    have h₂ : FailOnly u s₂ := by rw [hs₂]; exact fenceYield_failOnly u i
    split
    · exact h₂
    · exact h₂.trans (declareFailed_failOnly ..)
  refine ⟨by rw [hfail.fences.2, hdies, hfl], ?_, fun hr hf => ?_⟩
  · by_contra hon
    rw [Bool.not_eq_false] at hon
    exact Bool.false_ne_true (hoff.symm.trans (hfail.2.2.1 d hon))
  · rw [hs₂]
    exact fenceYield_then_fails i (by rw [hrole, hpair]; exact hr) (by rw [hfailed, htray]; exact hf)

/-! ### A repeat -/

/-- What a fence of a scope does, once the step has ended. -/
def scopeFence (s : State) (sc : Scope) (i : LogInfo) : State :=
  match sc with
  | .quad q => fenceQuad s q i
  | .die d => fenceDie s d i
  | .granule g => retireGranule s g i
  | .port q => fencePort s q i
  | .link => declareFailed s i

theorem fenceScope_eq (s : State) (sc : Scope) (p : Nat) (i : LogInfo) :
    fenceScope s sc p i = scopeFence (fenceStep (logErr s { i with cls := 4, action := fenceAction sc }) p) sc i := by
  cases sc <;> rfl

/-- A fence of a quadrant that begins with the end of a step. -/
theorem fenceScope_quad (s : State) (q p : Nat) (i : LogInfo) : ∃ u, fenceScope s (.quad q) p i = fenceQuad u q i ∧ WorkOnly s u :=
  ⟨_, fenceScope_eq .., (logErr_workOnly ..).trans (fenceStep_workOnly ..)⟩

section
variable {s : State} {res p : Nat} {cs : List Nat} {i : LogInfo} (hinj : i.injected = false) (h : seenWithin s res ≠ [] ∨ manyReplays s p)
include hinj h

/-- A repeat is logged and ends the step, and then what it names is fenced, in a state that only work's end has changed. -/
theorem strike_again (sc : Scope) : ∃ u k, WorkOnly (seenAt s res) u ∧ strike s res sc p cs i = scopeFence u sc k := by
  obtain ⟨j, k, -, hfence, -⟩ := strike_eq s res sc p cs i hinj
  exact ⟨_, k, ((logErr_workOnly ..).trans (logErr_workOnly ..)).trans (fenceStep_workOnly ..), (hfence h).trans (fenceScope_eq ..)⟩

theorem strike_standing (sc : Scope) : ∃ u k, strike s res sc p cs i = scopeFence u sc k
    ∧ u.tray.failed = s.tray.failed ∧ u.pair.role = s.pair.role ∧ u.flash.fencedQuads = s.flash.fencedQuads ∧ u.flash.fencedDies = s.flash.fencedDies := by
  obtain ⟨u, k, hu, heq⟩ := strike_again (cs := cs) hinj h sc
  exact ⟨u, k, heq, hu.standing⟩

theorem strike_quad_fenced (q : Nat) : QuadFenced s (strike s res (.quad q) p cs i) q := by
  obtain ⟨u, k, heq, hfailed, hrole, hquads, -⟩ := strike_standing (cs := cs) hinj h (.quad q)
  have hscope : scopeFence u (.quad q) k = fenceQuad u q k := rfl
  obtain ⟨hfenced, hoff, hfails⟩ := fenceQuad_fenced u q k
  rw [hquads] at hfenced
  rw [hrole, hfailed] at hfails
  rw [heq, hscope]
  exact ⟨hfenced, hoff, hfails⟩

theorem strike_die_fenced (d : Nat) : DieFenced s (strike s res (.die d) p cs i) d := by
  obtain ⟨u, k, heq, hfailed, hrole, -, hdies⟩ := strike_standing (cs := cs) hinj h (.die d)
  have hscope : scopeFence u (.die d) k = fenceDie u d k := rfl
  obtain ⟨hfenced, hoff, hfails⟩ := fenceDie_fenced u d k
  rw [hdies] at hfenced
  rw [hrole, hfailed] at hfails
  rw [heq, hscope]
  exact ⟨hfenced, hoff, hfails⟩

theorem strike_link_failed (hf : s.tray.failed = false) : Failed (strike s res .link p cs i) := by
  obtain ⟨u, k, heq, hfailed, -⟩ := strike_standing (cs := cs) hinj h .link
  rw [heq]
  exact declareFailed_failed k (hfailed.trans hf)

end

/-! ### PARITY_ERROR -/

theorem exec_parityError {s : State} {site : ErrSite} (h : sitePowered s site = true) : exec (.parityError site) s = .next (siteError s site false) := if_pos h

theorem clusCtxs_length (s : State) (c : Nat) : (clusCtxs s c).length ≤ 1 := by
  unfold clusCtxs
  cases laneCtx s c <;> simp

/-! ### Injections (R542, R545) -/

/-- The kind of a word written to OD 0x7810, clamped. -/
def injectWord (x : Nat) : Nat := min 5 (injKind x) * 2 ^ 60 + x % 2 ^ 60

/-- A word that names a powered unit is not zero. -/
theorem injectUnit_ne_zero {s : State} {w : Nat} (h : injectUnit s w = true) : w ≠ 0 := by
  rintro rfl
  unfold injectUnit at h
  exact Bool.false_ne_true (((Bool.and_false _).symm.trans h))

theorem exec_errorInjectionWrite (rq : DictReq) (v : List Byte) (s : State) :
    exec (.errorInjectionWrite rq v) s = .next (dictWrite s rq 0x7810 0 v injectClamp fun s w => if w = 0 then s else perturbNote s) := rfl

/-- A pending injection that has been noted shows in both bits of the perturbation word. -/
theorem perturbWord_pending {t : State} (hpend : odGet t 0x7810 0 ≠ 0) (hused : t.gate.perturbUsed = true) : perturbWord t = 3 := by
  unfold perturbWord
  extract_lets nz
  rw [if_pos (by simp [hpend]), if_pos hused]

theorem noted_answered {s u : State} {w : Nat} (hput : DictOnly s u) (hget : odGet u 0x7810 0 = w) (hne : w ≠ 0) (rq : DictReq) (bs : List Byte) :
    odGet (dictAnswer (perturbNote u) rq 0 0x7810 0 bs) 0x7810 0 = w ∧ perturbWord (dictAnswer (perturbNote u) rq 0 0x7810 0 bs) = 3
    ∧ dictAnswer (perturbNote u) rq 0 0x7810 0 bs = { s with
        pav := (dictAnswer (perturbNote u) rq 0 0x7810 0 bs).pav, pcie := (dictAnswer (perturbNote u) rq 0 0x7810 0 bs).pcie
        out := (dictAnswer (perturbNote u) rq 0 0x7810 0 bs).out, gate := { s.gate with perturbUsed := true } } := by
  have hval : odGet (dictAnswer (perturbNote u) rq 0 0x7810 0 bs) 0x7810 0 = w := (odGet_dictAnswer ..).trans hget
  have hans := dictAnswer_dictOnly (perturbNote u) rq 0 0x7810 0 bs
  generalize dictAnswer (perturbNote u) rq 0 0x7810 0 bs = t at *
  refine ⟨hval, perturbWord_pending (by rw [hval]; exact hne) (by rw [hans]; rfl), ?_⟩
  rw [hans, perturbNote, hput]

section
variable {rq : DictReq} {v : List Byte} {s : State} (hmay : MayStore s rq 0x7810 0 v)
include hmay

theorem errorInjectionWrite_arms (h : injectUnit s (injectWord (leNat v)) = true) :
    Runs (.errorInjectionWrite rq v) s fun t => odGet t 0x7810 0 = injectWord (leNat v) ∧ perturbWord t = 3
      ∧ t = { s with pav := t.pav, pcie := t.pcie, out := t.out, gate := { s.gate with perturbUsed := true } } := by
  have hne := injectUnit_ne_zero h
  have hclamp : injectClamp s (leNat v) = injectWord (leNat v) := if_pos h
  obtain ⟨bs, hw⟩ := dictWrite_of_mayStore hmay injectClamp fun s w => if w = 0 then s else perturbNote s
  rw [hclamp] at hw
  rw [if_neg hne] at hw
  have hget : odGet (dictPut s rq.src 0x7810 0 (leNat v) (injectWord (leNat v))) 0x7810 0 = injectWord (leNat v) := odGet_dictPut ..
  have hput := dictPut_dictOnly s rq.src 0x7810 0 (leNat v) (injectWord (leNat v))
  exact ⟨_, (exec_errorInjectionWrite ..).trans (congrArg Host.Outcome.next hw), noted_answered hput hget hne rq bs⟩

theorem errorInjectionWrite_clears (h : injectUnit s (injectWord (leNat v)) = false) :
    Runs (.errorInjectionWrite rq v) s fun t => Stores s t 0x7810 0 0 := by
  have hclamp : injectClamp s (leNat v) = 0 := if_neg (by rw [show min 5 (injKind (leNat v)) * 2 ^ 60 + leNat v % 2 ^ 60 = injectWord (leNat v) from rfl, h]; decide)
  obtain ⟨bs, hw⟩ := dictWrite_of_mayStore hmay injectClamp fun s w => if w = 0 then s else perturbNote s
  rw [hclamp] at hw
  exact ⟨_, (exec_errorInjectionWrite ..).trans (congrArg Host.Outcome.next hw), by rw [odGet_dictAnswer]; exact odGet_dictPut .., (dictPut_dictOnly ..).trans (dictAnswer_dictOnly ..)⟩

end

/-- An injected error is no repeat and fences nothing: steps may end, and it is logged. -/
def InjectedOnly (s t : State) : Prop :=
  t = { s with
    seq := t.seq, dma := t.dma, car := t.car
    pav := t.pav, pcie := t.pcie, out := t.out }
  ∧ ∀ idx sub, odKey idx sub ≠ odKey 0x7C00 5 → odKey idx sub ≠ odKey 0x7C20 3 → odGet t idx sub = odGet s idx sub

theorem InjectedOnly.refl (s : State) : InjectedOnly s s := ⟨rfl, fun _ _ _ _ => rfl⟩

theorem strike_injected (s : State) (res : Nat) (sc : Scope) (p : Nat) (cs : List Nat) (i : LogInfo) (hinj : i.injected = true) :
    InjectedOnly s (strike s res sc p cs i) := by
  unfold strike
  extract_lets step old i' stop car s₁ i'' s₂ fifth fence s₃
  have hi' : i'.injected = true := hinj
  rw [if_pos hi']
  have h₁ : s₁ = { s with car := s₁.car } := by
    unfold s₁
    split
    · rfl
    · rfl
  clear_value s₁ step
  have hlog : LogOnly s₁ (logErr s₁ { i' with rep := old.length, action := if step.isSome then 2 else 1 })
      ∧ DictOnly s₁ (logErr s₁ { i' with rep := old.length, action := if step.isSome then 2 else 1 }) := (logErr_frame s₁ (by exact Nat.lt_of_sub_eq_succ rfl)).symm
  have hvals (idx sub : Nat) (h : odKey idx sub ≠ odKey 0x7C00 5) (h' : odKey idx sub ≠ odKey 0x7C20 3) :
      odGet (logErr s₁ { i' with rep := old.length, action := if step.isSome then 2 else 1 }) idx sub = odGet s₁ idx sub :=
    (odGet_logPush _ _ h).trans (odGet_bumpBy_ne _ _ _ h')
  unfold stop
  generalize logErr s₁ { i' with rep := old.length, action := if step.isSome then 2 else 1 } = u at *
  have hend := ctxsEnd_frame u cs fcParity
  refine ⟨?_, fun idx sub h h' => ?_⟩
  · rw [hend, hlog.2, h₁]
  · rw [odGet, hend]
    exact (hvals idx sub h h').trans (by rw [h₁]; rfl)

theorem siteError_injected (s : State) {site : ErrSite} (h : site ≠ .hubStore) : InjectedOnly s (siteError s site true) := by
  unfold siteError
  split
  case h_5 => exact absurd rfl h
  all_goals
    refine strike_injected _ _ _ _ _ _ ?_
    rfl

theorem injectDo_injected (s : State) (v : Nat) : InjectedOnly s (injectDo s v) := by
  unfold injectDo
  extract_lets loc
  split
  · split
    · exact siteError_injected s (by simp)
    · exact .refl s
  · split
    · exact siteError_injected s (by simp)
    · exact .refl s
  · exact siteError_injected s (by simp)
  · exact siteError_injected s (by simp)
  · unfold injectUe
    refine strike_injected _ _ _ _ _ _ ?_
    rfl
  · exact .refl s

theorem injectedError_strikes {s : State} (h : injectUnit s (odGet s 0x7810 0) = true) :
    Runs .injectedError s fun t => odGet t 0x7810 0 = 0 ∧ odGet t 0x7811 0 = min (odGet s 0x7811 0 + 1) (2 ^ 32 - 1)
      ∧ t.flash = s.flash ∧ t.tray = s.tray ∧ t.err = s.err ∧ t.mem = s.mem := by
  have hruns : exec .injectedError s = .next (bump32 (odSet (injectDo s (odGet s 0x7810 0)) 0x7810 0 0) 0x7811 0) := if_pos h
  obtain ⟨hframe, hvals⟩ := injectDo_injected s (odGet s 0x7810 0)
  refine ⟨_, hruns, ?_⟩
  generalize injectDo s (odGet s 0x7810 0) = u at *
  refine ⟨?_, ?_, ?_⟩
  · exact (odGet_bumpBy_ne _ _ _ (by decide)).trans (odGet_odSet ..)
  · refine (odGet_bumpBy ..).trans ?_
    rw [odGet_odSet_ne _ _ (by decide), hvals 0x7811 0 (by decide) (by decide)]
  · show u.flash = _ ∧ u.tray = _ ∧ u.err = _ ∧ u.mem = _
    rw [hframe]
    exact ⟨rfl, rfl, rfl, rfl⟩

/-! ### The perturbation objects (R544, R546) -/

/-- The range of a perturbation object with a plain range. -/
def perturbRange (idx : Nat) : OdClamp :=
  match idx with
  | 0x7802 => .range 0 10000
  | 0x7803 => .range 0 500
  | 0x7804 => .range 0 50
  | 0x7808 => .range 1 4294967295
  | _ => .range 0 1000

theorem perturbRow_clamp {i n : Nat} {r : OdRow} (hlo : 0x7802 ≤ i) (hhi : i ≤ 0x7808) (h : odRow i n = some r) : r.clamp = perturbRange i := by
  have hrows : ∀ r ∈ odTable, 0x7802 ≤ r.idx → r.idx ≤ 0x7808 → r.clamp = perturbRange r.idx := by decide +kernel
  obtain ⟨hmem, hidx, -⟩ := odRow_eq_some h
  rw [← hidx]
  exact hrows r hmem (hidx ▸ hlo) (hidx ▸ hhi)

/-- The row of OD 0x7808 holds four bytes. -/
theorem perturbSeed_size {n : Nat} {r : OdRow} (h : odRow 0x7808 n = some r) : r.size = 4 := by
  have hrows : ∀ r ∈ odTable, r.idx = 0x7808 → r.size = 4 := by decide +kernel
  obtain ⟨hmem, hidx, -⟩ := odRow_eq_some h
  exact hrows r hmem hidx

theorem perturb_noRow (n : Nat) : odRow 0x7800 n = none ∧ odRow 0x7807 n = none := by
  have hrows : ∀ r ∈ odTable, r.idx ≠ 0x7800 ∧ r.idx ≠ 0x7807 := by decide +kernel
  constructor
  · rw [Option.eq_none_iff_forall_not_mem]
    intro r hr
    obtain ⟨hmem, hidx, -⟩ := odRow_eq_some hr
    exact (hrows r hmem).1 hidx
  · rw [Option.eq_none_iff_forall_not_mem]
    intro r hr
    obtain ⟨hmem, hidx, -⟩ := odRow_eq_some hr
    exact (hrows r hmem).2 hidx

/-- What a perturbation object stores. -/
def perturbValue (i x : Nat) : Nat :=
  match i with
  | 0x7801 => min 64 (x / 256) * 256 + x % 256
  | 0x7802 => min 10000 x
  | 0x7803 => min 500 x
  | 0x7804 => min 50 x
  | 0x7808 => max 1 x
  | _ => min 1000 x

theorem perturbClamp_value {s : State} {rq : DictReq} {i n : Nat} {v : List Byte} (hlo : 0x7801 ≤ i) (hhi : i ≤ 0x7808) (hmay : MayStore s rq i n v) :
    perturbClamp i n s (leNat v) = perturbValue i (leNat v) := by
  obtain ⟨-, r, hrow, -, hlen⟩ := hmay
  unfold perturbClamp
  rcases Nat.eq_or_lt_of_le hlo with heq | hlt
  · subst heq
    rfl
  · have hclamp := perturbRow_clamp hlt hhi hrow
    rw [if_neg (Nat.ne_of_gt hlt), clampRow, hrow]
    show clampTo r.clamp _ = _
    rw [hclamp]
    rcases Nat.eq_or_lt_of_le hhi with heq | hlt'
    · subst heq
      have hx := leNat_lt v
      rw [hlen, perturbSeed_size hrow] at hx
      simp only [perturbRange, perturbValue, clampTo]
      omega
    · have hi : i = 0x7802 ∨ i = 0x7803 ∨ i = 0x7804 ∨ i = 0x7805 ∨ i = 0x7806 ∨ i = 0x7807 := by omega
      rcases hi with rfl | rfl | rfl | rfl | rfl | rfl <;> simp [perturbRange, perturbValue, clampTo]

/-- The effect of a stored perturbation object. -/
def perturbEffect (i : Nat) (s : State) : State := if i = 0x7808 then s else perturbNote s

theorem exec_perturbationWrite {rq : DictReq} {i : BitVec 16} {b : Byte} {v : List Byte} {s : State} (hlo : 0x7800 ≤ i.toNat) (hhi : i.toNat ≤ 0x7808) :
    exec (.perturbationWrite rq i b v) s = .next (dictWrite s rq i.toNat b.toNat v (perturbClamp i.toNat b.toNat) fun s _ => perturbEffect i.toNat s) :=
  if_neg (by omega)

theorem perturbEffect_frame (s : State) (i : BitVec 16) :
    perturbEffect i.toNat s = { s with gate := { s.gate with perturbUsed := s.gate.perturbUsed || i != 0x7808 } } := by
  unfold perturbEffect
  by_cases h : i = 0x7808
  · subst h
    rw [if_pos (show (0x7808 : BitVec 16).toNat = 0x7808 from rfl), bne_self_eq_false, Bool.or_false]
  · have hne : i.toNat ≠ 0x7808 := fun h' => h (BitVec.eq_of_toNat_eq h')
    rw [if_neg hne, bne_iff_ne.mpr h, Bool.or_true]
    rfl

theorem perturbationWrite_stores {rq : DictReq} {i : BitVec 16} {b : Byte} {v : List Byte} {s : State} (hlo : 0x7801 ≤ i.toNat) (hhi : i.toNat ≤ 0x7808)
    (hmay : MayStore s rq i.toNat b.toNat v) :
    Runs (.perturbationWrite rq i b v) s fun t => odGet t i.toNat b.toNat = perturbValue i.toNat (leNat v)
      ∧ t = { s with pav := t.pav, pcie := t.pcie, out := t.out, gate := { s.gate with perturbUsed := s.gate.perturbUsed || i != 0x7808 } } := by
  obtain ⟨bs, hw⟩ := dictWrite_of_mayStore hmay (perturbClamp i.toNat b.toNat) fun s _ => perturbEffect i.toNat s
  rw [perturbClamp_value hlo hhi hmay] at hw
  have hput := dictPut_dictOnly s rq.src i.toNat b.toNat (leNat v) (perturbValue i.toNat (leNat v))
  have hget := odGet_dictPut s rq.src i.toNat b.toNat (leNat v) (perturbValue i.toNat (leNat v))
  refine ⟨_, (exec_perturbationWrite (Nat.le_of_succ_le hlo) hhi).trans (congrArg Host.Outcome.next hw), ?_⟩
  generalize dictPut s rq.src i.toNat b.toNat (leNat v) (perturbValue i.toNat (leNat v)) = u at *
  have hans := dictAnswer_dictOnly (perturbEffect i.toNat u) rq 0 i.toNat b.toNat bs
  have hkeep : odGet (perturbEffect i.toNat u) i.toNat b.toNat = odGet u i.toNat b.toNat := by rw [perturbEffect_frame]; rfl
  have hval := (odGet_dictAnswer (perturbEffect i.toNat u) rq 0 i.toNat b.toNat bs i.toNat b.toNat).trans (hkeep.trans hget)
  generalize dictAnswer (perturbEffect i.toNat u) rq 0 i.toNat b.toNat bs = t at *
  exact ⟨hval, by rw [hans, perturbEffect_frame, hput]⟩

/-- Settles O49: errors by site, injections by what they strike, and the perturbation objects by their rows. -/
theorem errorsReplayFenceOrFail : Obligations.ErrorsReplayFenceOrFail := by
  refine ⟨fun site s => ⟨fun hoff => ⟨s, if_neg (by rw [hoff]; decide), rfl⟩, fun hon => ?_⟩, fun rq v s hmay => ?_, fun s => ?_, fun rq i b v s => ?_⟩
  case refine_1 =>
    have hruns := exec_parityError hon
    cases site with
    | coreStore k kind =>
      exact ⟨fun h => ⟨_, hruns, strike_once rfl (clusCtxs_length ..) h⟩, fun h => ⟨_, hruns, strike_quad_fenced rfl h _⟩⟩
    | clusterStore c kind =>
      exact ⟨fun h => ⟨_, hruns, strike_once rfl (clusCtxs_length ..) h⟩, fun h => ⟨_, hruns, strike_quad_fenced rfl h _⟩⟩
    | dieCommon c kind => exact ⟨fun h => ⟨_, hruns, strike_once rfl Nat.le.refl h⟩, fun h => ⟨_, hruns, strike_die_fenced rfl h _⟩⟩
    | dieLink c => exact ⟨fun h => ⟨_, hruns, strike_once rfl Nat.le.refl h⟩, fun h => ⟨_, hruns, strike_link_failed rfl h⟩⟩
    | hubStore => exact ⟨_, hruns, fun hf => declareFailed_failed _ hf, fun hf => if_pos hf⟩
  case refine_2 => exact ⟨errorInjectionWrite_arms hmay, errorInjectionWrite_clears hmay⟩
  case refine_3 => exact ⟨injectedError_strikes, fun h => ⟨s, if_neg (by rw [h]; decide), rfl⟩⟩
  case refine_4 =>
    refine ⟨fun hout => ⟨s, if_pos hout, rfl⟩, fun hrow hon => ?_, fun hlo hhi hmay => ?_⟩
    · have hnone : odRow i.toNat b.toNat = none := by
        rcases hrow with rfl | rfl
        · exact (perturb_noRow _).1
        · exact (perturb_noRow _).2
      have hrange : 0x7800 ≤ i.toNat ∧ i.toNat ≤ 0x7808 := by
        rcases hrow with rfl | rfl
        · decide
        · decide
      exact ⟨_, (exec_perturbationWrite hrange.1 hrange.2).trans (congrArg Host.Outcome.next (dictWrite_noObject v _ _ hon hnone)),
        answers_dictAnswer _ _ _ _ _ rfl, dictAnswer_dictOnly ..⟩
    · exact perturbationWrite_stores hlo hhi hmay

end Sys2Proof.Machine
end

section
/-! SUPPORT. O44: the counter clears (R97, R137, R174, R175, R206, R237, R270, R315, R346, R375 to R377, R433, R452, R469, R477, R546). -/

namespace Sys2Proof.Machine

open Sys2Proof Sys2Proof.Claims

/-- The row of an object that clears something on a write of 1. -/
def clearRow (idx : Nat) (acc : OdAcc) : OdRow := ⟨idx, 0, 0, 1, acc, 0, .range 0 1⟩

/-- A write of 1 to a clear object: 1 is stored, the clear done, 0 stored again, and 0 answered. -/
theorem dictClear_one {s : State} {rq : DictReq} {idx : Nat} {acc : OdAcc} (hmay : MayStore s rq idx 0 [1]) (hrow : odRow idx 0 = some (clearRow idx acc))
    (clear : State → State) : dictClear s rq idx [1] clear = dictAnswer (odSet (clear (odSet s idx 0 1)) idx 0 0) rq 0 idx 0 [0] := by
  have hclamp : clampRow idx 0 s 1 = 1 := by
    rw [clampRow, hrow]
    exact (by decide : clampTo (.range 0 1) 1 = 1)
  have hone : leNat [1] = 1 := by decide
  have hbytes : leBytes (clearRow idx acc).size 0 = [0] := (by decide : leBytes 1 0 = [0])
  rw [dictClear, dictWrite_answered hmay hrow, hone, hclamp, dictPut_legal, if_pos rfl, odGet_odSet, hbytes]

/-! ### Ranges of objects that return to their defaults -/

/-- The objects of several ranges, at their defaults. -/
def rangesClear (s : State) (ranges : List (Nat × Nat)) : State := each ranges (fun s r => odClearRange s r.1 r.2) s

theorem rangesClear_frame (s : State) (ranges : List (Nat × Nat)) : rangesClear s ranges = { s with pav := { s.pav with vals := (rangesClear s ranges).pav.vals } } :=
  each_rel (R := fun s t => t = { s with pav := { s.pav with vals := t.pav.vals } }) (fun _ => rfl) (fun h k => by rw [k, h]) (fun _ _ => rfl) ranges s

theorem odKey_div {i n : Nat} (h : n < 256) : odKey i n / 256 = i := by
  unfold odKey
  omega

theorem odGet_odClearRange (s : State) (lo hi : Nat) {i n : Nat} (hn : n < 256) :
    odGet (odClearRange s lo hi) i n = if lo ≤ i ∧ i ≤ hi then odDefault i n else odGet s i n := by
  simp only [odGet, odClearRange, mget_mdrop, odKey_div hn, Bool.and_eq_true, decide_eq_true_eq]
  split
  · rfl
  · rfl

/-- An object of one of the ranges is at its default, and every other as it was. -/
theorem odGet_rangesClear (ranges : List (Nat × Nat)) (s : State) {i n : Nat} (hn : n < 256) :
    ((∃ r, r ∈ ranges ∧ r.1 ≤ i ∧ i ≤ r.2) ∨ odGet s i n = odDefault i n → odGet (rangesClear s ranges) i n = odDefault i n)
    ∧ ((∀ r, r ∈ ranges → i < r.1 ∨ r.2 < i) → odGet (rangesClear s ranges) i n = odGet s i n) := by
  induction ranges generalizing s with
  | nil => exact ⟨fun h => h.elim (fun ⟨_, hr, _⟩ => absurd hr List.not_mem_nil) id, fun _ => rfl⟩
  | cons r ranges ih =>
    have hcons : rangesClear s (r :: ranges) = rangesClear (odClearRange s r.1 r.2) ranges := each_cons ..
    have hone := odGet_odClearRange s r.1 r.2 (i := i) hn
    obtain ⟨hdflt, hkeep⟩ := ih (odClearRange s r.1 r.2)
    rw [hcons]
    refine ⟨fun h => hdflt ?_, fun h => ?_⟩
    · rcases h with ⟨r', hr', hin⟩ | hd
      · rcases List.mem_cons.mp hr' with rfl | hr'
        · exact .inr (hone.trans (if_pos hin))
        · exact .inl ⟨r', hr', hin⟩
      · refine .inr ?_
        rw [hone, hd, ite_self]
    · rw [hkeep fun r' hr' => h r' (List.mem_cons_of_mem _ hr'), hone, if_neg]
      have := h r List.mem_cons_self
      omega

/-- A write of 1 to a clear object outside its own ranges clears the ranges, and nothing else. -/
theorem dictClear_clears {s : State} {rq : DictReq} {idx : Nat} {acc : OdAcc} {ranges : List (Nat × Nat)} (hmay : MayStore s rq idx 0 [1])
    (hrow : odRow idx 0 = some (clearRow idx acc)) (hout : ∀ r, r ∈ ranges → idx < r.1 ∨ r.2 < idx) :
    let t := dictClear s rq idx [1] fun s => rangesClear s ranges
    Clears s t rq idx ranges ∧ t.pav.log = s.pav.log ∧ odGet t idx 0 = 0 := by
  intro t
  have ht : t = dictAnswer (odSet (rangesClear (odSet s idx 0 1) ranges) idx 0 0) rq 0 idx 0 [0] := dictClear_one hmay hrow _
  have hframe := rangesClear_frame (odSet s idx 0 1) ranges
  have hvals (i n : Nat) (hn : n < 256) := odGet_rangesClear ranges (odSet s idx 0 1) (i := i) hn
  clear_value t
  subst ht
  generalize rangesClear (odSet s idx 0 1) ranges = u at *
  have hsess : (odSet u idx 0 0).pav.sessions = s.pav.sessions := by rw [hframe]; rfl
  have hlog : (odSet u idx 0 0).pav.log = s.pav.log := by rw [hframe]; rfl
  have hdict : DictOnly s (odSet u idx 0 0) := by rw [hframe]; exact rfl
  have hval (i n : Nat) (hn : n < 256) (hne : i ≠ idx) : odGet (dictAnswer (odSet u idx 0 0) rq 0 idx 0 [0]) i n = odGet u i n := by
    rw [odGet_dictAnswer, odGet_odSet_ne _ _ (odKey_ne hn (by decide) (.inl hne))]
  refine ⟨⟨answers_dictAnswer rq 0 idx 0 [0] hsess, hdict.trans (dictAnswer_dictOnly ..), fun i n hn hin => ?_, fun i n hn hin hne => ?_⟩, ?_, ?_⟩
  · have hne : i ≠ idx := by
      rintro rfl
      obtain ⟨r, hr, h⟩ := hin
      have := hout r hr
      omega
    rw [hval i n hn hne]
    exact (hvals i n hn).1 (.inl hin)
  · rw [hval i n hn hne, (hvals i n hn).2 hin, odGet_odSet_ne _ _ (odKey_ne hn (by decide) (.inl hne))]
  · rw [dictAnswer_only]
    exact hlog
  · rw [odGet_dictAnswer, odGet_odSet]

/-- The fifteen clear objects whose ranges the obligation names, and the one of the clamp counts. -/
theorem clearRows : ∀ idx ∈ [0x4014, 0x4027, 0x2014, 0x2404, 0x4035, 0x3035, 0x3016, 0x7018, 0x6042, 0x140A, 0x1508, 0x1605, 0x640D, 0x6806, 0x7C26, 0x7C12],
    odRow idx 0 = some (clearRow idx .rw) := by decide +kernel

theorem clear_runs {s : State} {rq : DictReq} {c : Instr} {idx : Nat} {ranges : List (Nat × Nat)} (hrow : odRow idx 0 = some (clearRow idx .rw))
    (hout : ∀ r, r ∈ ranges → idx < r.1 ∨ r.2 < idx) (hexec : exec c s = .next (dictClear s rq idx [1] fun s => rangesClear s ranges)) :
    MayStore s rq idx 0 [1] → Runs c s fun t => Clears s t rq idx ranges ∧ t.pav.log = s.pav.log ∧ odGet t idx 0 = 0 :=
  fun hmay => ⟨_, hexec, dictClear_clears hmay hrow hout⟩

/-- The clamp counts are no objects: they are emptied, and their sum returns to 0. -/
theorem clampCounterClear_runs {s : State} {rq : DictReq} (hmay : MayStore s rq 0x7C12 0 [1]) :
    Runs (.clampCounterClear rq [1]) s fun t => t.pav.clamps = [] ∧ odGet t 0x7C10 0 = 0 ∧ odGet t 0x7C12 0 = 0 ∧ t.pav.log = s.pav.log ∧ DictOnly s t := by
  have hclear := dictClear_one hmay (clearRows _ (by decide)) fun s => odSet { s with pav := { s.pav with clamps := [] } } 0x7C10 0 0
  refine ⟨_, congrArg Host.Outcome.next hclear, ?_⟩
  refine ⟨by rw [dictAnswer_only]; rfl, ?_, ?_, by rw [dictAnswer_only]; rfl, ?_⟩
  · rw [odGet_dictAnswer, odGet_odSet_ne _ _ (by decide), odGet_odSet]
  · rw [odGet_dictAnswer, odGet_odSet]
  · exact DictOnly.trans (by exact rfl) (dictAnswer_dictOnly ..)

/-- Settles O44: each clear by its object's row and its ranges. -/
theorem counterClearsReturnTheirCounters : Obligations.CounterClearsReturnTheirCounters := by
  intro rq s ok
  refine ⟨?_, ?_, ?_, ?_, ?_, ?_, ?_, ?_, ?_, ?_, ?_, ?_, ?_, ?_, ?_, clampCounterClear_runs⟩
  all_goals exact clear_runs (clearRows _ (by decide)) (by decide) rfl

end Sys2Proof.Machine
end

section
/-! SUPPORT. O37: the hub's check-value contexts (R424, R426, R427, R429, R433). -/

namespace Sys2Proof.Machine

open Sys2Proof Sys2Proof.Claims

/-- Nothing of the other hub contexts, of memory, of the DMA queues and of the carousel differs. -/
def HubOnly (s t : State) (n : Nat) : Prop := (∀ m, m ≠ n → hubGet t m = hubGet s m) ∧ t.mem = s.mem ∧ t.dma = s.dma ∧ t.car = s.car

theorem dictOnly_hubGet {s t : State} (h : DictOnly s t) (n : Nat) : Machine.hubGet t n = Machine.hubGet s n := by rw [h]; rfl

theorem dictOnly_hubOnly {s t : State} (h : DictOnly s t) (n : Nat) : HubOnly s t n := ⟨fun m _ => dictOnly_hubGet h m, by rw [h], by rw [h], by rw [h]⟩

theorem HubOnly.trans {s t u : State} {n : Nat} (h : HubOnly s t n) (k : HubOnly t u n) : HubOnly s u n := by
  obtain ⟨hhub, hmem, hdma, hcar⟩ := h
  obtain ⟨khub, kmem, kdma, kcar⟩ := k
  exact ⟨fun m hm => (khub m hm).trans (hhub m hm), kmem.trans hmem, kdma.trans hdma, kcar.trans hcar⟩

theorem hubSet_hubOnly (s : State) (n : Nat) (h : HubCvu) : HubOnly s (hubSet s n h) n := ⟨fun _ hm => hubGet_hubSet_ne _ _ hm, rfl, rfl, rfl⟩

/-- A write that replaces a hub context: the stored value, the new context, and nothing beside. -/
theorem hubWrite {s : State} {rq : DictReq} {idx n : Nat} {v : List Byte} (hmay : MayStore s rq idx n v) (clamp : State → Nat → Nat) (g : HubCvu → Nat → HubCvu) :
    let t := dictWrite s rq idx n v clamp fun s w => hubSet s n (g (hubGet s n) w)
    HubOnly s t n ∧ hubGet t n = g (hubGet s n) (clamp s (leNat v)) ∧ odGet t idx n = clamp s (leNat v) := by
  intro t
  obtain ⟨bs, hw⟩ := dictWrite_of_mayStore hmay clamp fun s w => hubSet s n (g (hubGet s n) w)
  have hput := dictPut_dictOnly s rq.src idx n (leNat v) (clamp s (leNat v))
  have hget := odGet_dictPut s rq.src idx n (leNat v) (clamp s (leNat v))
  have ht : t = dictAnswer (hubSet (dictPut s rq.src idx n (leNat v) (clamp s (leNat v))) n (g (hubGet (dictPut s rq.src idx n (leNat v) (clamp s (leNat v))) n)
    (clamp s (leNat v)))) rq 0 idx n bs := hw
  clear_value t
  subst ht
  generalize dictPut s rq.src idx n (leNat v) (clamp s (leNat v)) = u at *
  rw [dictOnly_hubGet hput]
  have hans := dictAnswer_dictOnly (hubSet u n (g (hubGet s n) (clamp s (leNat v)))) rq 0 idx n bs
  refine ⟨((dictOnly_hubOnly hput n).trans (hubSet_hubOnly ..)).trans (dictOnly_hubOnly hans n), ?_, ?_⟩
  · rw [dictOnly_hubGet hans, hubGet_hubSet]
  · rw [odGet_dictAnswer]
    exact hget

/-! ### The setting (R424) -/

/-- The fields of a word of eight fields and a gap, as R424 lays a setting out. -/
theorem settingFields {x w a b c p q r : Nat} (hw : w < 128) (ha : a < 8) (hb : b < 4) (hc : c < 2) (hp : p < 2 ^ 64) (hq : q < 2 ^ 64) (hr : r < 2 ^ 64)
    (hx : x = 2 ^ 252 + w * 2 ^ 245 + a * 2 ^ 242 + b * 2 ^ 240 + c * 2 ^ 239 + p * 2 ^ 128 + q * 2 ^ 64 + r) :
    x < 2 ^ 256 ∧ nfld x 255 252 = 1 ∧ nfld x 251 245 = w ∧ nfld x 244 242 = a ∧ nfld x 241 240 = b ∧ nfld x 238 192 = 0
    ∧ nfld x 191 128 = p ∧ nfld x 127 64 = q ∧ nfld x 63 0 = r := by
  simp only [nfld_eq, Nat.reduceAdd, Nat.reduceSub, Nat.reducePow] at *
  omega

theorem nfld_lt (x hi lo : Nat) : nfld x hi lo < 2 ^ (hi + 1 - lo) := Nat.mod_lt _ (Nat.two_pow_pos _)

theorem settingClamp_fields (s : State) (x : Nat) :
    let c := BitVec.ofNat 256 (settingClamp s x)
    settingClamp s x = c.toNat ∧ fld c 255 252 = 1 ∧ cvW c = min 64 (max 8 (nfld x 251 245))
    ∧ fld c 241 240 ≤ 1 ∧ fld c 238 192 = 0 ∧ fld c 244 242 = nfld x 244 242
    ∧ fld c 191 128 = nfld x 191 128 % 2 ^ cvW c ∧ fld c 127 64 = nfld x 127 64 % 2 ^ cvW c ∧ fld c 63 0 = nfld x 63 0 % 2 ^ cvW c := by
  intro c
  have hlow (hi lo : Nat) (h : hi + 1 - lo = 64) (w : Nat) : nfld x hi lo % 2 ^ w < 2 ^ 64 := (Nat.mod_le _ _).trans_lt (h ▸ nfld_lt x hi lo)
  obtain ⟨hlt, hver, hw, ha, hb, hgap, hp, hq, hr⟩ := settingFields (w := min 64 (max 8 (nfld x 251 245))) (a := nfld x 244 242) (b := min 1 (nfld x 241 240))
    (c := nfld x 239 239) (by omega) (nfld_lt x 244 242) (by omega) (nfld_lt x 239 239) (hlow 191 128 rfl _) (hlow 127 64 rfl _) (hlow 63 0 rfl _) (settingClamp.eq_1 s x)
  have hc : c.toNat = settingClamp s x := (BitVec.toNat_ofNat ..).trans (Nat.mod_eq_of_lt hlt)
  have hcw : cvW c = min 64 (max 8 (nfld x 251 245)) := by rw [cvW, fld, hc]; exact hw
  rw [hcw]
  unfold fld
  rw [hc]
  exact ⟨rfl, hver, rfl, by rw [hb]; exact Nat.min_le_left .., hgap, ha, hp, hq, hr⟩

/-! ### Closing (R426, R427) -/

theorem hubClose_spec (s : State) (n : Nat) :
    let h := hubGet s n
    HubOnly s (hubClose s n) n ∧ hubGet (hubClose s n) n = { setting := h.setting, run := cvInit h.setting, check := cvCheck h.setting h.run }
    ∧ odGet (hubClose s n) 0x6804 n = (if cvMismatch h.setting h.run = true then min (odGet s 0x6804 n + 1) (2 ^ 32 - 1) else odGet s 0x6804 n) := by
  intro h
  unfold hubClose
  extract_lets s₁
  have h₁ : HubOnly s s₁ n := hubSet_hubOnly ..
  have hget : hubGet s₁ n = { setting := h.setting, run := cvInit h.setting, check := cvCheck h.setting h.run } := hubGet_hubSet ..
  have hval : odGet s₁ 0x6804 n = odGet s 0x6804 n := rfl
  clear_value s₁
  by_cases hm : cvMismatch h.setting h.run = true
  · have hd : DictOnly s₁ (msixSend (bump32 s₁ 0x6804 n) n 10) := (DictOnly.pav ..).trans (msixSend_dictOnly ..)
    have hcount : odGet (msixSend (bump32 s₁ 0x6804 n) n 10) 0x6804 n = min (odGet s 0x6804 n + 1) (2 ^ 32 - 1) := by
      rw [odGet, (msixSend_logOnly ..).2, ← hval]
      exact odGet_bumpBy ..
    rw [if_pos hm, if_pos hm]
    exact ⟨h₁.trans (dictOnly_hubOnly hd n), (dictOnly_hubGet hd n).trans hget, hcount⟩
  · rw [if_neg hm, if_neg hm]
    exact ⟨h₁, hget, hval⟩

/-- A write to the close object, as it begins. -/
theorem hubCvuClose_eq {s : State} {rq : DictReq} {f : Vf} {b : Byte} (hb : b.toNat ≤ 1) (hmay : MayStore s rq 0x6803 (f.val + 1) [b]) :
    ∃ bs, exec (.hubCvuClose rq f [b]) s = .next (dictAnswer (odSet (if b.toNat = 1 then hubClose (odSet s 0x6803 (f.val + 1) b.toNat) (f.val + 1)
      else odSet s 0x6803 (f.val + 1) b.toNat) 0x6803 (f.val + 1) 0) rq 0 0x6803 (f.val + 1) bs) := by
  have hrow : odRow 0x6803 (f.val + 1) = some ⟨0x6803, 1, 16, 1, .rw, 0, .range 0 1⟩ := by
    clear hmay
    revert f
    decide +kernel
  have hclamp : clampRow 0x6803 (f.val + 1) s b.toNat = b.toNat := by
    rw [clampRow, hrow]
    show min 1 (max 0 b.toNat) = _
    omega
  obtain ⟨bs, hw⟩ := dictWrite_of_mayStore hmay (clampRow 0x6803 (f.val + 1)) fun s w => odSet (if w = 1 then hubClose s (f.val + 1) else s) 0x6803 (f.val + 1) 0
  rw [show leNat [b] = b.toNat from rfl, hclamp, dictPut_legal] at hw
  exact ⟨bs, congrArg Host.Outcome.next hw⟩

theorem odSet_hubOnly (s : State) (idx sub v n : Nat) : HubOnly s (odSet s idx sub v) n := ⟨fun _ _ => rfl, rfl, rfl, rfl⟩

theorem hubCvuClose_closes {s : State} {rq : DictReq} {f : Vf} (hmay : MayStore s rq 0x6803 (f.val + 1) [1]) :
    let h := hubGet s (f.val + 1)
    Runs (.hubCvuClose rq f [1]) s fun t => HubOnly s t (f.val + 1) ∧ odGet t 0x6803 (f.val + 1) = 0
      ∧ hubGet t (f.val + 1) = { setting := h.setting, run := cvInit h.setting, check := cvCheck h.setting h.run }
      ∧ odGet t 0x6804 (f.val + 1) = (if cvMismatch h.setting h.run = true then min (odGet s 0x6804 (f.val + 1) + 1) (2 ^ 32 - 1) else odGet s 0x6804 (f.val + 1)) := by
  intro h
  have hf := f.isLt
  obtain ⟨bs, hexec⟩ := hubCvuClose_eq (b := 1) (by decide) hmay
  obtain ⟨honly, hget, hcount⟩ := hubClose_spec (odSet s 0x6803 (f.val + 1) 1) (f.val + 1)
  refine ⟨_, hexec, ?_⟩
  have hone : ((1 : Byte).toNat) = 1 := rfl
  rw [hone, if_pos (rfl : (1 : Nat) = 1)]
  generalize hubClose (odSet s 0x6803 (f.val + 1) 1) (f.val + 1) = u at *
  have hans := dictAnswer_dictOnly (odSet u 0x6803 (f.val + 1) 0) rq 0 0x6803 (f.val + 1) bs
  have hne : odKey 0x6804 (f.val + 1) ≠ odKey 0x6803 (f.val + 1) := odKey_ne (by omega) (by omega) (.inl (by decide))
  refine ⟨(((odSet_hubOnly ..).trans honly).trans (odSet_hubOnly ..)).trans (dictOnly_hubOnly hans _), ?_, ?_, ?_⟩
  · rw [odGet_dictAnswer, odGet_odSet]
  · exact (dictOnly_hubGet hans _).trans hget
  · rw [odGet_dictAnswer, odGet_odSet_ne _ _ hne, hcount, odGet_odSet_ne _ _ hne]
    rfl

theorem hubCvuClose_rests {s : State} {rq : DictReq} {f : Vf} (hmay : MayStore s rq 0x6803 (f.val + 1) [0]) :
    Runs (.hubCvuClose rq f [0]) s fun t => HubOnly s t (f.val + 1) ∧ hubGet t (f.val + 1) = hubGet s (f.val + 1) ∧ odGet t 0x6803 (f.val + 1) = 0 := by
  obtain ⟨bs, hexec⟩ := hubCvuClose_eq (b := 0) (by decide) hmay
  refine ⟨_, hexec, ?_⟩
  have hzero : ¬ (0 : Byte).toNat = 1 := by decide
  rw [if_neg hzero]
  have hd : DictOnly s (odSet (odSet s 0x6803 (f.val + 1) (0 : Byte).toNat) 0x6803 (f.val + 1) 0) := (DictOnly.pav ..).trans (DictOnly.pav ..)
  have hall := hd.trans (dictAnswer_dictOnly (odSet (odSet s 0x6803 (f.val + 1) (0 : Byte).toNat) 0x6803 (f.val + 1) 0) rq 0 0x6803 (f.val + 1) bs)
  exact ⟨dictOnly_hubOnly hall _, dictOnly_hubGet hall _, by rw [odGet_dictAnswer, odGet_odSet]⟩

/-- Settles O37: the setting and the running value as they are clamped, and the close by its value. -/
theorem hubContextsAreSetAndClosed : Obligations.HubContextsAreSetAndClosed := by
  intro rq f v s n h others
  refine ⟨fun hmay => ?_, fun hmay => ?_, hubCvuClose_closes, fun hmay => ?_⟩
  · obtain ⟨honly, hget, hval⟩ := hubWrite hmay settingClamp fun h w => { h with setting := BitVec.ofNat 256 w }
    refine ⟨_, rfl, honly, ?_⟩
    rw [hget, hval]
    exact ⟨rfl, settingClamp_fields s (leNat v)⟩
  · obtain ⟨honly, hget, -⟩ := hubWrite hmay (runningClamp n) fun h w => { h with run := BitVec.ofNat 64 w }
    exact ⟨_, rfl, honly, hget⟩
  · obtain ⟨t, hexec, honly, hget, hval⟩ := hubCvuClose_rests hmay
    exact ⟨t, hexec, honly, hget, hval⟩

end Sys2Proof.Machine
end

section
/-! SUPPORT. O55: droop and margin (R369 to R372). -/

namespace Sys2Proof.Machine

open Sys2Proof Sys2Proof.Claims

/-- Nothing but one quadrant's agent and counters differs. -/
def AgentOnly (s t : State) (q : Nat) : Prop :=
  t = { s with wv := { s.wv with quads := t.wv.quads }, pav := { s.pav with vals := t.pav.vals } } ∧ ∀ r, r ≠ q → qwGet t r = qwGet s r

theorem AgentOnly.trans {s t u : State} {q : Nat} (h : AgentOnly s t q) (k : AgentOnly t u q) : AgentOnly s u q := by
  obtain ⟨h, hq⟩ := h
  obtain ⟨k, kq⟩ := k
  exact ⟨by rw [k, h], fun r hr => (kq r hr).trans (hq r hr)⟩

theorem AgentOnly.refl (s : State) (q : Nat) : AgentOnly s s q := ⟨rfl, fun _ _ => rfl⟩

theorem qwSet_agentOnly (s : State) (q : Nat) (x : QuadW) : AgentOnly s (qwSet s q x) q := ⟨rfl, fun _ hr => qwGet_qwSet_ne _ _ hr⟩

theorem odSet_agentOnly (s : State) (idx sub v q : Nat) : AgentOnly s (odSet s idx sub v) q := ⟨rfl, fun _ _ => rfl⟩

theorem bumpBy_agentOnly (s : State) (idx sub w n q : Nat) : AgentOnly s (bumpBy s idx sub w n) q := ⟨rfl, fun _ _ => rfl⟩

/-! ### Stretches (R369) -/

theorem stretchEnd_some {s : State} {q at_ l : Nat} (h : (qwGet s q).stretch = some (at_, l)) :
    stretchEnd s q = qwSet s q { qwGet s q with stretch := none, stretchAdded := (qwGet s q).stretchAdded + stretchPs (min 200 (s.clk.now - at_)) l } := by
  unfold stretchEnd
  extract_lets x
  have hx : x.stretch = some (at_, l) := h
  rw [hx]

theorem stretchEnd_none {s : State} {q : Nat} (h : (qwGet s q).stretch = none) : stretchEnd s q = s := by
  unfold stretchEnd
  extract_lets x
  have hx : x.stretch = none := h
  rw [hx]

theorem stretchEnd_spec (s : State) (q : Nat) :
    AgentOnly s (stretchEnd s q) q ∧ (stretchEnd s q).pav = s.pav ∧ (qwGet (stretchEnd s q) q).clock = (qwGet s q).clock ∧ (stretchEnd s q).clk = s.clk := by
  cases h : (qwGet s q).stretch with
  | none =>
    rw [stretchEnd_none h]
    exact ⟨.refl .., rfl, rfl, rfl⟩
  | some a =>
    rw [stretchEnd_some h]
    exact ⟨qwSet_agentOnly .., rfl, by rw [qwGet_qwSet], rfl⟩

theorem odGet_qwSet (s : State) (q : Nat) (x : QuadW) (i j : Nat) : odGet (qwSet s q x) i j = odGet s i j := rfl

section
variable {q : Quad} {s : State} (hon : s.tray.quadOn.getLsbD q.val = true)

include hon in
theorem droopTrip_runs (l : Fin 4) : Runs (.droopTrip q l) s fun t => AgentOnly s t q.val ∧ (qwGet t q.val).stretch = some (s.clk.now, l.val)
    ∧ (qwGet t q.val).clock = (qwGet s q.val).clock ∧ odGet t 0x1604 (q.val + 1) = min (odGet s 0x1604 (q.val + 1) + 1) (2 ^ 64 - 1) := by
  obtain ⟨honly, hpav, hclock, hclk⟩ := stretchEnd_spec s q.val
  refine ⟨_, if_neg (by simp [hon]), ?_⟩
  generalize stretchEnd s q.val = u at *
  refine ⟨(honly.trans (qwSet_agentOnly ..)).trans (bumpBy_agentOnly ..), ?_, ?_, ?_⟩
  · exact (congrArg QuadW.stretch (qwGet_qwSet ..)).trans (by rw [hclk])
  · exact (congrArg QuadW.clock (qwGet_qwSet ..)).trans hclock
  · refine (odGet_bumpBy ..).trans ?_
    rw [odGet_qwSet, odGet, hpav]
    rfl

theorem droopStretchEnd_none (h : (qwGet s q.val).stretch = none) : Runs (.droopStretchEnd q) s fun t => t = s := ⟨_, rfl, stretchEnd_none h⟩

theorem droopStretchEnd_some {at_ l : Nat} (h : (qwGet s q.val).stretch = some (at_, l)) : Runs (.droopStretchEnd q) s fun t => AgentOnly s t q.val ∧ t.pav = s.pav
    ∧ qwGet t q.val = { qwGet s q.val with stretch := none, stretchAdded := (qwGet s q.val).stretchAdded + stretchPs (min 200 (s.clk.now - at_)) l } := by
  refine ⟨_, rfl, ?_⟩
  rw [stretchEnd_some h]
  exact ⟨qwSet_agentOnly .., rfl, qwGet_qwSet ..⟩

/-! ### The window of 100 µs (R370) -/

/-- The end of a window, from the agent whose stretches are counted. -/
def windowEnd (s : State) (q : Nat) : Res :=
  let x := qwGet s q
  let a := x.stretchAdded
  let s := if a > 3000000 ∧ x.guard ≥ 3 then bump32 s 0x1602 (q + 1) else s
  let x := { x with stretchAdded := 0, quietWindows := if a < 1000000 then x.quietWindows + 1 else 0 }
  if a < 2000000 then .next (qwSet s q x)
  else if x.clock > 1000 then .next (qwSet s q { x with droopTo := some (max 1000 (x.clock - 25)), raising := none })
  else .next (qwSet s q { x with guard := min 3 (x.guard + 1) })

/-- What the end of a window makes of the agent. -/
def windowAgent (z : QuadW) : QuadW :=
  let y : QuadW := { z with stretchAdded := 0, quietWindows := if z.stretchAdded < 1000000 then z.quietWindows + 1 else 0 }
  if z.stretchAdded < 2000000 then y else if 1000 < z.clock then { y with droopTo := some (max 1000 (z.clock - 25)), raising := none }
  else { y with guard := min 3 (z.guard + 1) }

theorem windowEnd_eq (s : State) (q : Nat) :
    windowEnd s q = .next (qwSet (if 3000000 < (qwGet s q).stretchAdded ∧ 3 ≤ (qwGet s q).guard then bump32 s 0x1602 (q + 1) else s) q (windowAgent (qwGet s q))) := by
  unfold windowEnd windowAgent
  extract_lets x a s₁ y
  split
  · rfl
  · split
    · rfl
    · rfl

theorem windowEnd_runs (s : State) (q : Nat) : ∃ t, windowEnd s q = .next t ∧ AgentOnly s t q ∧ qwGet t q = windowAgent (qwGet s q)
    ∧ odGet t 0x1602 (q + 1) = if 3000000 < (qwGet s q).stretchAdded ∧ 3 ≤ (qwGet s q).guard then min (odGet s 0x1602 (q + 1) + 1) (2 ^ 32 - 1) else odGet s 0x1602 (q + 1) := by
  refine ⟨_, windowEnd_eq s q, ?_, qwGet_qwSet .., ?_⟩
  · refine AgentOnly.trans ?_ (qwSet_agentOnly ..)
    split
    · exact bumpBy_agentOnly ..
    · exact .refl ..
  · rw [odGet_qwSet]
    split
    · exact odGet_bumpBy ..
    · rfl

/-- The stretch as a window counts it: one of 200 ns or more is over. -/
def windowStretch (s : State) (q : Nat) : State :=
  match (qwGet s q).stretch with
  | some (t, _) => if s.clk.now ≥ t + 200 then stretchEnd s q else s
  | none => s

include hon in
theorem exec_stretchLossWindow : exec (.stretchLossWindow q) s = windowEnd (windowStretch s q.val) q.val := if_neg (by simp [hon])

include hon in
/-- The window's end from a settled state that differs in the agent alone. -/
theorem stretchLossWindow_runs {z : QuadW} (honly : AgentOnly s (windowStretch s q.val) q.val) (hpav : (windowStretch s q.val).pav = s.pav)
    (hz : qwGet (windowStretch s q.val) q.val = z) : Runs (.stretchLossWindow q) s fun t => AgentOnly s t q.val ∧ qwGet t q.val = windowAgent z
      ∧ odGet t 0x1602 (q.val + 1) = if 3000000 < z.stretchAdded ∧ 3 ≤ z.guard then min (odGet s 0x1602 (q.val + 1) + 1) (2 ^ 32 - 1) else odGet s 0x1602 (q.val + 1) := by
  obtain ⟨t, hend, hframe, hagent, hcount⟩ := windowEnd_runs (windowStretch s q.val) q.val
  rw [hz] at hagent hcount
  have hval : odGet (windowStretch s q.val) 0x1602 (q.val + 1) = odGet s 0x1602 (q.val + 1) := by rw [odGet, hpav]; rfl
  rw [hval] at hcount
  exact ⟨t, (exec_stretchLossWindow hon).trans hend, honly.trans hframe, hagent, hcount⟩

theorem windowStretch_none (h : (qwGet s q.val).stretch = none) : windowStretch s q.val = s := by rw [windowStretch, h]

theorem windowStretch_short {at_ l : Nat} (h : (qwGet s q.val).stretch = some (at_, l)) (hshort : ¬ at_ + 200 ≤ s.clk.now) : windowStretch s q.val = s := by
  rw [windowStretch, h]
  exact if_neg hshort

theorem windowStretch_over {at_ l : Nat} (h : (qwGet s q.val).stretch = some (at_, l)) (hover : at_ + 200 ≤ s.clk.now) :
    windowStretch s q.val = qwSet s q.val { qwGet s q.val with stretch := none, stretchAdded := (qwGet s q.val).stretchAdded + stretchPs 200 l } := by
  rw [windowStretch, h]
  refine (if_pos hover).trans ?_
  rw [stretchEnd_some h, Nat.min_eq_left (by omega)]

/-! ### Canaries (R371, R372) -/

theorem trimMv_qwSet (s : State) (q : Nat) (x : QuadW) : trimMv (qwSet s q x) q = trimMv s q := rfl

include hon in
theorem canaryFail_trims (path : Fin 8) (h : trimMv s q.val + (qwGet s q.val).trimDue < 60) : Runs (.canaryFail q path) s fun t => AgentOnly s t q.val ∧ t.pav = s.pav
    ∧ qwGet t q.val = { qwGet s q.val with canarySince := s.clk.now, trimDue := (qwGet s q.val).trimDue + 5 } := by
  refine ⟨qwSet (qwSet s q.val { qwGet s q.val with canarySince := s.clk.now }) q.val { qwGet s q.val with canarySince := s.clk.now, trimDue := (qwGet s q.val).trimDue + 5 },
    ?_, (qwSet_agentOnly ..).trans (qwSet_agentOnly ..), rfl, qwGet_qwSet ..⟩
  show execCanaryFail q path s = _
  unfold execCanaryFail
  extract_lets _ s₁ n x
  have hx : x = { qwGet s q.val with canarySince := s.clk.now } := qwGet_qwSet ..
  have hlow : trimMv s₁ q.val + x.trimDue < 60 := by rw [hx]; exact h
  rw [if_neg (by simp [hon]), if_pos hlow, hx]

include hon in
theorem canaryFail_lowers (path : Fin 8) (h : 60 ≤ trimMv s q.val + (qwGet s q.val).trimDue) (hclock : 1000 < (qwGet s q.val).clock) :
    Runs (.canaryFail q path) s fun t => AgentOnly s t q.val ∧ odGet t 0x1601 (q.val + 1) = max 1000 (odGet s 0x1601 (q.val + 1) - 25)
      ∧ odGet t 0x1603 (q.val + 1) = min (odGet s 0x1603 (q.val + 1) + 1) (2 ^ 32 - 1)
      ∧ (odGet t 0x1601 (q.val + 1) < (qwGet s q.val).clock → (qwGet t q.val).nextClock = some (odGet t 0x1601 (q.val + 1))) := by
  have hq := q.isLt
  have hne : odKey 0x1603 (q.val + 1) ≠ odKey 0x1601 (q.val + 1) := odKey_ne (by omega) (by omega) (.inl (by decide))
  have hexec : execCanaryFail q path s = _ := execCanaryFail.eq_1 q path s
  revert hexec
  extract_lets _ s₁ n x c s₂
  have hx : x = { qwGet s q.val with canarySince := s.clk.now } := qwGet_qwSet ..
  rw [if_neg (by simp [hon]), if_neg (by rw [hx]; exact Int.not_lt.mpr h), if_neg (by rw [hx]; exact Nat.not_le.mpr hclock)]
  intro hexec
  have h₂ : AgentOnly s s₂ q.val := ((qwSet_agentOnly ..).trans (odSet_agentOnly ..)).trans (bumpBy_agentOnly ..)
  have hceil : odGet s₂ 0x1601 (q.val + 1) = max 1000 (odGet s 0x1601 (q.val + 1) - 25) := (odGet_bumpBy_ne _ _ _ hne.symm).trans (odGet_odSet ..)
  have hcount : odGet s₂ 0x1603 (q.val + 1) = min (odGet s 0x1603 (q.val + 1) + 1) (2 ^ 32 - 1) :=
    (odGet_bumpBy ..).trans (by rw [odGet_odSet_ne _ _ hne]; rfl)
  have hc : c = max 1000 (odGet s 0x1601 (q.val + 1) - 25) := rfl
  refine ⟨_, hexec, ?_⟩
  clear_value s₂
  by_cases hlow : x.clock > c
  · rw [if_pos hlow]
    exact ⟨h₂.trans (qwSet_agentOnly ..), hceil, hcount, fun _ => (congrArg QuadW.nextClock (qwGet_qwSet ..)).trans (congrArg some (hc.trans hceil.symm))⟩
  · rw [if_neg hlow]
    refine ⟨h₂, hceil, hcount, fun hlt => absurd ?_ hlow⟩
    rw [hceil, ← hc] at hlt
    rw [hx]
    exact hlt

include hon in
theorem canaryFail_fences (path : Fin 8) (h : 60 ≤ trimMv s q.val + (qwGet s q.val).trimDue) (hclock : (qwGet s q.val).clock ≤ 1000) :
    Runs (.canaryFail q path) s fun t => t.flash.fencedQuads = s.flash.fencedQuads ||| BitVec.ofNat 16 (2 ^ q.val) ∧ t.tray.quadOn.getLsbD q.val = false := by
  have hexec : execCanaryFail q path s = _ := execCanaryFail.eq_1 q path s
  revert hexec
  extract_lets _ s₁ n x c s₂
  have hx : x = { qwGet s q.val with canarySince := s.clk.now } := qwGet_qwSet ..
  rw [if_neg (by simp [hon]), if_neg (by rw [hx]; exact Int.not_lt.mpr h), if_pos (by rw [hx]; exact hclock)]
  obtain ⟨u, hfence, hu⟩ := fenceScope_quad s₁ q.val (quadOwner s₁ q.val) { cls := 4, block := 10, kind := 3, quad := q.val }
  have hflash : s₁.flash.fencedQuads = s.flash.fencedQuads := rfl
  clear_value s₁
  rw [hfence]
  intro hexec
  obtain ⟨hfenced, hoff, -⟩ := fenceQuad_fenced u q.val { cls := 4, block := 10, kind := 3, quad := q.val }
  rw [hu.standing.2.2.1, hflash] at hfenced
  exact ⟨_, hexec, hfenced, hoff⟩

end

/-- Settles O55: each command by the agent that it leaves. -/
theorem droopAndMarginAdjustTheClock : Obligations.DroopAndMarginAdjustTheClock := by
  intro q s hon n x only
  refine ⟨droopTrip_runs hon, droopStretchEnd_none, fun at_ l => droopStretchEnd_some, ?_, fun hguard hquiet => ?_, fun h => ?_, fun path => ?_, fun hlate htrim => ?_, fun h => ?_⟩
  · cases hst : x.stretch with
    | none =>
      have hu := windowStretch_none (s := s) (q := q) hst
      exact stretchLossWindow_runs hon (by rw [hu]; exact .refl ..) (by rw [hu]) (by rw [hu])
    | some a =>
      obtain ⟨at_, l⟩ := a
      by_cases hover : at_ + 200 ≤ s.clk.now
      · have hu := windowStretch_over (s := s) (q := q) hst hover
        dsimp only
        rw [if_pos hover]
        exact stretchLossWindow_runs hon (by rw [hu]; exact qwSet_agentOnly ..) (by rw [hu]; rfl) (by rw [hu]; exact qwGet_qwSet ..)
      · have hu := windowStretch_short (s := s) (q := q) hst hover
        dsimp only
        rw [if_neg hover]
        exact stretchLossWindow_runs hon (by rw [hu]; exact .refl ..) (by rw [hu]) (by rw [hu])
  · exact ⟨_, if_pos ⟨hguard, hquiet⟩, qwSet_agentOnly .., qwGet_qwSet ..⟩
  · exact ⟨s, if_neg fun hboth => h.elim (fun h => Nat.ne_of_gt hboth.1 h) fun h => Nat.not_lt.mpr hboth.2 h, rfl⟩
  · exact ⟨canaryFail_trims hon path, canaryFail_lowers hon path, canaryFail_fences hon path⟩
  · refine ⟨_, if_neg ?_, qwSet_agentOnly .., rfl, qwGet_qwSet ..⟩
    rintro (h | h | h)
    · exact absurd (hon.symm.trans (Bool.not_eq_true' _ ▸ h)) (by decide)
    · exact absurd hlate (Nat.not_le.mpr h)
    · exact absurd htrim (Int.not_lt.mpr h)
  · exact ⟨s, if_pos (h.elim (fun h => .inr (.inl h)) fun h => .inr (.inr h)), rfl⟩

end Sys2Proof.Machine
end

section
/-! SUPPORT. O53: input power sampled, governed and capped (R347 to R351, R359, R360, R367, R371, R375). -/

namespace Sys2Proof.Machine

open Sys2Proof Sys2Proof.Claims

/-! ### Quadrants taken one by one -/

theorem bitsOf_nodup (n x : Nat) : (bitsOf n x).Nodup := List.nodup_range.filter _

theorem mem_bitsOf {n x i : Nat} : i ∈ bitsOf n x ↔ i < n ∧ x.testBit i = true := by simp [bitsOf]

/-- What a walk over quadrants leaves of each, when every turn touches its own quadrant's agent alone. -/
theorem each_agents {R : State → State → Prop} (htrans : ∀ {s t u}, R s t → R t u → R s u) {f : State → Nat → State} (hR : ∀ u q, R u (f u q))
    (hne : ∀ u q r, r ≠ q → qwGet (f u q) r = qwGet u r) {P : Nat → QuadW → Prop} {s₀ : State} {l : List Nat} (hnd : l.Nodup)
    (hP : ∀ u q, q ∈ l → R s₀ u → qwGet u q = qwGet s₀ q → P q (qwGet (f u q) q)) {s : State} (hs : R s₀ s) (hsame : ∀ q, q ∈ l → qwGet s q = qwGet s₀ q) :
    R s₀ (each l f s) ∧ (∀ q, q ∈ l → P q (qwGet (each l f s) q)) ∧ ∀ q, q ∉ l → qwGet (each l f s) q = qwGet s q := by
  induction l generalizing s with
  | nil => exact ⟨hs, fun q hq => absurd hq List.not_mem_nil, fun _ _ => rfl⟩
  | cons a l ih =>
    rw [each_cons]
    obtain ⟨hal, hnd⟩ := List.nodup_cons.mp hnd
    obtain ⟨hrel, hprop, hout⟩ := ih hnd (fun u q hq => hP u q (List.mem_cons_of_mem a hq)) (htrans hs (hR s a))
      (fun q hq => (hne s a q (fun h => hal (h ▸ hq))).trans (hsame q (List.mem_cons_of_mem a hq)))
    refine ⟨hrel, fun q hq => ?_, fun q hq => ?_⟩
    · rcases List.mem_cons.mp hq with rfl | hq
      · rw [hout q hal]
        exact hP s q List.mem_cons_self hs (hsame q List.mem_cons_self)
      · exact hprop q hq
    · rw [List.mem_cons, not_or] at hq
      rw [hout q hq.2, hne s a q hq.1]

/-! ### Samples (R347, R349, R351, R375) -/

/-- One quadrant's part of a sample. -/
def sampleQuad (qs : List Nat) (full : Bool) (s : State) (q : Nat) : State :=
  let x := qwGet s q
  let c := x.clkAcc + x.clock
  qwSet s q { x with
    powerMw := qs.getD q 0, staticMw := staticMw s q x.clock
    clkAcc := if full then 0 else c, clkAvg := if full then c / 100 else x.clkAvg }

/-- Only the quadrants' agents differ. -/
def QuadsOnly (s t : State) : Prop := t = { s with wv := { s.wv with quads := t.wv.quads } }

theorem QuadsOnly.refl (s : State) : QuadsOnly s s := rfl

theorem QuadsOnly.trans {s t u : State} (h : QuadsOnly s t) (k : QuadsOnly t u) : QuadsOnly s u := by
  unfold QuadsOnly at *
  rw [k, h]

theorem samples_spec (qs : List Nat) (full : Bool) (s : State) :
    let t := each (bitsOf 16 s.tray.quadOn.toNat) (sampleQuad qs full) s
    QuadsOnly s t ∧ ∀ q : Quad, (s.tray.quadOn.getLsbD q.val = true → (qwGet t q.val).powerMw = qs.getD q.val 0 ∧ (qwGet t q.val).clock = (qwGet s q.val).clock)
      ∧ (s.tray.quadOn.getLsbD q.val = false → qwGet t q.val = qwGet s q.val) := by
  intro t
  obtain ⟨honly, hset, hkeep⟩ := each_agents (R := QuadsOnly) .trans (f := sampleQuad qs full) (fun _ _ => rfl) (fun _ _ _ hr => qwGet_qwSet_ne _ _ hr)
    (P := fun q y => y.powerMw = qs.getD q 0 ∧ y.clock = (qwGet s q).clock) (s₀ := s) (bitsOf_nodup 16 s.tray.quadOn.toNat)
    (fun u q _ _ hsame => by
      rw [sampleQuad, qwGet_qwSet, hsame]
      exact ⟨rfl, rfl⟩) (.refl s) (fun _ _ => rfl)
  refine ⟨honly, fun q => ⟨fun hon => hset q.val (mem_bitsOf.mpr ⟨q.isLt, hon⟩), fun hoff => hkeep q.val fun hmem => ?_⟩⟩
  have hon : s.tray.quadOn.getLsbD q.val = true := (mem_bitsOf.mp hmem).2
  exact Bool.false_ne_true (hoff.symm.trans hon)

theorem powerSample_runs (mw : Nat) (qs : List Nat) {s : State} (hon : s.tray.hub.hubCommon = true) : Runs (.powerSample mw qs) s fun t =>
    t = { s with wv := t.wv } ∧ t.wv.inputMw = min mw (drawLimit s s.clk.now)
    ∧ t.wv.overSince = (if odGet s 0x1401 1 * 1000 < t.wv.inputMw then some (s.wv.overSince.getD s.clk.now) else none)
    ∧ (s.wv.acc.2 + 1 < 100 → t.wv.acc = (s.wv.acc.1 + t.wv.inputMw, s.wv.acc.2 + 1) ∧ t.wv.avgs = s.wv.avgs ∧ t.wv.avgTotal = s.wv.avgTotal)
    ∧ (100 ≤ s.wv.acc.2 + 1 → t.wv.acc = (0, 0) ∧ t.wv.avgs = ((s.wv.acc.1 + t.wv.inputMw) / (s.wv.acc.2 + 1) :: s.wv.avgs).take 10000 ∧ t.wv.avgTotal = s.wv.avgTotal + 1)
    ∧ ∀ q : Quad, (s.tray.quadOn.getLsbD q.val = true → (qwGet t q.val).powerMw = qs.getD q.val 0 ∧ (qwGet t q.val).clock = (qwGet s q.val).clock)
        ∧ (s.tray.quadOn.getLsbD q.val = false → qwGet t q.val = qwGet s q.val) := by
  obtain ⟨honly, hquads⟩ := samples_spec qs (decide (s.wv.acc.2 + 1 ≥ 100)) s
  refine ⟨_, if_neg (by simp [hon]), ?_⟩
  beta_reduce
  change QuadsOnly s _ at honly
  have heach : each (bitsOf 16 s.tray.quadOn.toNat) (fun s_1 q => qwSet s_1 q { qwGet s_1 q with
      powerMw := qs.getD q 0, staticMw := staticMw s_1 q (qwGet s_1 q).clock
      clkAcc := if decide (s.wv.acc.2 + 1 ≥ 100) then 0 else (qwGet s_1 q).clkAcc + (qwGet s_1 q).clock
      clkAvg := if decide (s.wv.acc.2 + 1 ≥ 100) then ((qwGet s_1 q).clkAcc + (qwGet s_1 q).clock) / 100 else (qwGet s_1 q).clkAvg }) s
      = each (bitsOf 16 s.tray.quadOn.toNat) (sampleQuad qs (decide (s.wv.acc.2 + 1 ≥ 100))) s := rfl
  rw [heach]
  generalize each (bitsOf 16 s.tray.quadOn.toNat) (sampleQuad qs (decide (s.wv.acc.2 + 1 ≥ 100))) s = u at *
  have hwv : u.wv = { s.wv with quads := u.wv.quads } := congrArg (fun t => t.wv) honly
  refine ⟨?_, rfl, ?_, fun hfew => ?_, fun hfull => ?_, hquads⟩
  · rw [honly]
  · simp only [gt_iff_lt, decide_eq_true_eq]
  · rw [hwv]
    simp [Nat.not_le.mpr hfew]
  · rw [hwv]
    simp [hfull]

/-! ### The governor's cycle (R347 to R360) -/

/-- What a cycle keeps of an agent: what it runs at. -/
def AgentKeeps (x y : QuadW) : Prop :=
  y.clock = x.clock ∧ y.rung = x.rung ∧ y.ballastMw = x.ballastMw ∧ y.emergency = x.emergency ∧ y.tempCeil = x.tempCeil

theorem AgentKeeps.refl (x : QuadW) : AgentKeeps x x := ⟨rfl, rfl, rfl, rfl, rfl⟩

theorem AgentKeeps.trans {x y z : QuadW} (h : AgentKeeps x y) (k : AgentKeeps y z) : AgentKeeps x z := by
  obtain ⟨h₁, h₂, h₃, h₄, h₅⟩ := h
  obtain ⟨k₁, k₂, k₃, k₄, k₅⟩ := k
  exact ⟨k₁.trans h₁, k₂.trans h₂, k₃.trans h₃, k₄.trans h₄, k₅.trans h₅⟩

/-- What the cycle keeps until it judges the risk. -/
def GovOnly (s t : State) : Prop :=
  t = { s with wv := t.wv, pav := { s.pav with vals := t.pav.vals } } ∧ t.wv.hbmCeil = s.wv.hbmCeil ∧ t.wv.rideThrough = s.wv.rideThrough
  ∧ (∀ i j, odKey i j ≠ odKey 0x1406 0 → odGet t i j = odGet s i j) ∧ ∀ q, AgentKeeps (qwGet s q) (qwGet t q)

theorem GovOnly.refl (s : State) : GovOnly s s := ⟨rfl, rfl, rfl, fun _ _ _ => rfl, fun _ => .refl _⟩

theorem GovOnly.trans {s t u : State} (h : GovOnly s t) (k : GovOnly t u) : GovOnly s u := by
  obtain ⟨h, hceil, hride, hvals, hq⟩ := h
  obtain ⟨k, kceil, kride, kvals, kq⟩ := k
  exact ⟨by rw [k, h], kceil.trans hceil, kride.trans hride, fun i j hne => (kvals i j hne).trans (hvals i j hne), fun q => (hq q).trans (kq q)⟩

theorem GovOnly.active {s t : State} (h : GovOnly s t) : activeQuads t = activeQuads s ∧ activeParts t = activeParts s := by
  obtain ⟨h, -⟩ := h
  rw [h]
  exact ⟨rfl, rfl⟩

theorem GovOnly.heatCeil {s t : State} (h : GovOnly s t) (q : Nat) : heatCeil t q = heatCeil s q := by
  obtain ⟨-, hceil, -, -, hq⟩ := h
  obtain ⟨-, -, -, -, htemp⟩ := hq q
  unfold Machine.heatCeil
  rw [hceil, htemp]

/-- The mean of an agent replaced by one that runs the same. -/
theorem qwSet_govOnly (s : State) (q : Nat) {x : QuadW} (h : AgentKeeps (qwGet s q) x) : GovOnly s (qwSet s q x) := by
  refine ⟨rfl, rfl, rfl, fun _ _ _ => rfl, fun r => ?_⟩
  by_cases hr : r = q
  · rw [hr, qwGet_qwSet]
    exact h
  · rw [qwGet_qwSet_ne _ _ hr]
    exact .refl _

/-- A change of the tray's own figures. -/
theorem wv_govOnly {s t : State} (h : t = { s with wv := t.wv }) (hceil : t.wv.hbmCeil = s.wv.hbmCeil) (hride : t.wv.rideThrough = s.wv.rideThrough)
    (hquads : t.wv.quads = s.wv.quads) : GovOnly s t := by
  have hpav : t.pav = s.pav := by rw [h]
  refine ⟨by rw [hpav]; exact h, hceil, hride, fun i j _ => by rw [odGet, hpav]; rfl, fun q => ?_⟩
  unfold qwGet
  rw [hquads]
  exact .refl _

theorem bump_govOnly (s : State) (w n : Nat) : GovOnly s (bumpBy s 0x1406 0 w n) :=
  ⟨rfl, rfl, rfl, fun _ _ hne => odGet_bumpBy_ne _ _ _ hne, fun _ => .refl _⟩

/-- A stage of the cycle that aims no quadrant. -/
def AimsKept (s t : State) : Prop := GovOnly s t ∧ ∀ q, (qwGet t q).nextClock = (qwGet s q).nextClock ∧ (qwGet t q).raising = (qwGet s q).raising

theorem AimsKept.trans {s t u : State} (h : AimsKept s t) (k : AimsKept t u) : AimsKept s u :=
  ⟨h.1.trans k.1, fun q => ⟨(k.2 q).1.trans (h.2 q).1, (k.2 q).2.trans (h.2 q).2⟩⟩

theorem AimsKept.refl (s : State) : AimsKept s s := ⟨.refl s, fun _ => ⟨rfl, rfl⟩⟩

theorem qwSet_aimsKept (s : State) (q : Nat) {x : QuadW} (h : AgentKeeps (qwGet s q) x) (hnext : x.nextClock = (qwGet s q).nextClock)
    (hrais : x.raising = (qwGet s q).raising) : AimsKept s (qwSet s q x) := by
  refine ⟨qwSet_govOnly s q h, fun r => ?_⟩
  by_cases hr : r = q
  · rw [hr, qwGet_qwSet]
    exact ⟨hnext, hrais⟩
  · rw [qwGet_qwSet_ne _ _ hr]
    exact ⟨rfl, rfl⟩

theorem breachJudge_aimsKept (s : State) : AimsKept s (breachJudge s) := by
  have hwv {s t : State} (h : t = { s with wv := t.wv }) (hceil : t.wv.hbmCeil = s.wv.hbmCeil) (hride : t.wv.rideThrough = s.wv.rideThrough)
      (hquads : t.wv.quads = s.wv.quads) : AimsKept s t := ⟨wv_govOnly h hceil hride hquads, fun q => by unfold qwGet; rw [hquads]; exact ⟨rfl, rfl⟩⟩
  unfold breachJudge
  split
  · exact .refl s
  · extract_lets wv s₁
    have h₁ : AimsKept s s₁ := hwv rfl rfl rfl rfl
    clear_value s₁
    split
    · next a b _ _ =>
      extract_lets bad s₂
      have h₂ : AimsKept s₁ s₂ := hwv rfl rfl rfl rfl
      split
      · exact (h₁.trans h₂).trans ⟨bump_govOnly .., fun _ => ⟨rfl, rfl⟩⟩
      · exact h₁.trans h₂
    · exact h₁

theorem demandNote_aimsKept (s : State) (demand : List Nat) : AimsKept s (demandNote s demand) :=
  each_rel .refl .trans (fun s q => by
    dsimp only
    split
    · exact qwSet_aimsKept s q ⟨rfl, rfl, rfl, rfl, rfl⟩ rfl rfl
    · split
      · exact qwSet_aimsKept s q ⟨rfl, rfl, rfl, rfl, rfl⟩ rfl rfl
      · split
        · exact .refl s
        · exact qwSet_aimsKept s q ⟨rfl, rfl, rfl, rfl, rfl⟩ rfl rfl) _ s

/-- The state in which a cycle sets its quadrants. -/
def cycleNoted (s : State) (d : List Nat) : State := demandNote (breachJudge (effMove s)) d

theorem cycleNoted_aimsKept (s : State) (d : List Nat) : AimsKept s (cycleNoted s d) := by
  have heff : AimsKept s (effMove s) := ⟨wv_govOnly rfl rfl rfl rfl, fun _ => ⟨rfl, rfl⟩⟩
  exact (heff.trans (breachJudge_aimsKept _)).trans (demandNote_aimsKept ..)

/-! ### Clocks to aim at -/

/-- A setting of R348 at or above the floor, within a ceiling unless it is the floor. -/
def IsSetting (ceil f : Nat) : Prop := 1000 ≤ f ∧ f % 25 = 0 ∧ (f = 1000 ∨ f ≤ ceil)

theorem lmax_append_floor {l : List Nat} {P : Nat → Prop} (hl : ∀ f, f ∈ l → P f) (hfloor : P 1000) : P (lmax (l ++ [1000])) := by
  have hfold : ∀ (l : List Nat) (a : Nat), (∀ f, f ∈ l → P f) → (a = 0 ∨ P a) → (l.foldl max a = 0 ∨ P (l.foldl max a)) := by
    intro l
    induction l with
    | nil => exact fun a _ ha => ha
    | cons f l ih =>
      intro a hl ha
      refine ih (max a f) (fun g hg => hl g (List.mem_cons_of_mem f hg)) ?_
      rcases max_choice a f with h | h
      · rw [h]; exact ha
      · rw [h]; exact .inr (hl f List.mem_cons_self)
  rw [lmax, List.foldl_append]
  show P (max (l.foldl max 0) 1000)
  rcases max_choice (l.foldl max 0) 1000 with h | h
  · rcases hfold l 0 hl (.inl rfl) with h0 | hP
    · rw [h0]; exact hfloor
    · rw [h]; exact hP
  · rw [h]; exact hfloor

theorem clockFor_setting (s : State) (q ceil share : Nat) : IsSetting ceil (clockFor s q ceil share) := by
  refine lmax_append_floor (fun f hf => ?_) ⟨Nat.le_refl _, rfl, .inl rfl⟩
  rw [List.mem_filter, settings, List.mem_map] at hf
  obtain ⟨⟨i, -, rfl⟩, hceil⟩ := hf
  rw [Bool.and_eq_true, decide_eq_true_eq] at hceil
  exact ⟨by omega, by omega, .inr hceil.1⟩

/-- A clock that ride-through lets a quadrant go to: no higher than it runs, and not below the floor unless it runs there. -/
def RideClock (clock v : Nat) : Prop := v ≤ clock ∧ (1000 ≤ v ∨ v = clock)

theorem rideStep_other (s : State) (acc : Nat × SMap Nat) (q r : Nat) (h : r ≠ q) : mgetD (rideStep s acc q).2 r 1000 = mgetD acc.2 r 1000 := by
  unfold rideStep
  extract_lets x f drop
  split
  · exact mgetD_mset_ne _ _ _ h
  · exact mgetD_mset_ne _ _ _ h

theorem rideStep_own (s : State) (acc : Nat × SMap Nat) (q : Nat) : RideClock (qwGet s q).clock (mgetD (rideStep s acc q).2 q 1000) := by
  unfold rideStep
  extract_lets x f drop
  split
  · next h =>
    rw [mgetD_mset_same]
    have hclock : 1000 < (qwGet s q).clock := h.1
    exact ⟨by show max 1000 ((qwGet s q).clock - 25) ≤ _; omega, .inl (Nat.le_max_left ..)⟩
  · rw [mgetD_mset_same]
    exact ⟨Nat.le_refl _, .inr rfl⟩

theorem rideClocks_ride (s : State) {q : Nat} (hq : q ∈ activeQuads s) : RideClock (qwGet s q).clock (mgetD (rideClocks s) q 1000) := by
  have hfold : ∀ (l : List Nat) (acc : Nat × SMap Nat), (q ∈ l ∨ RideClock (qwGet s q).clock (mgetD acc.2 q 1000)) →
      RideClock (qwGet s q).clock (mgetD (l.foldl (rideStep s) acc).2 q 1000) := by
    intro l
    induction l with
    | nil => exact fun acc h => h.elim (fun h => absurd h List.not_mem_nil) id
    | cons a l ih =>
      intro acc h
      refine ih _ ?_
      by_cases ha : q = a
      · subst ha
        exact .inr (rideStep_own s acc q)
      · rw [rideStep_other s acc a q ha]
        exact h.imp (fun h => (List.mem_cons.mp h).resolve_left ha) id
  exact hfold _ _ (.inl hq)

/-- What a cycle makes of an agent that is aimed. -/
def AimedAt (s : State) (q : Nat) (x y : QuadW) : Prop :=
  (x.emergency = true → y.nextClock = x.nextClock ∧ y.raising = x.raising)
  ∧ (x.emergency = false → (s.wv.rideThrough = true → y.raising = none)
      ∧ (∀ f, y.nextClock = some f → 1000 ≤ f ∧ f < x.clock)
      ∧ ∀ f, y.raising = some f → 1000 ≤ f ∧ x.clock < f ∧ f % 25 = 0 ∧ (f = 1000 ∨ f ≤ min (heatCeil s q) (odGet s 0x1601 (q + 1))))

/-- The target of a quadrant that is no emergency's. -/
theorem aimedAt_target {s : State} {q f v g : Nat} {x y : QuadW} (hemer : x.emergency = false) (hf : IsSetting (min (heatCeil s q) (odGet s 0x1601 (q + 1))) f)
    (hv : RideClock x.clock v) (hg : g = if s.wv.rideThrough then min f v else f) (hnext : y.nextClock = if g < x.clock then some g else none)
    (hrais : y.raising = if g > x.clock then some g else none) : AimedAt s q x y := by
  obtain ⟨hfloor, hstep, hceil⟩ := hf
  obtain ⟨hlow, hv⟩ := hv
  refine ⟨fun h => absurd (hemer.symm.trans h) (by decide), fun _ => ⟨fun hride => ?_, fun k hk => ?_, fun k hk => ?_⟩⟩
  · rw [hride, if_pos rfl] at hg
    rw [hrais, if_neg (by omega)]
  · rw [hnext, Option.ite_none_right_eq_some, Option.some.injEq] at hk
    obtain ⟨hlt, rfl⟩ := hk
    refine ⟨?_, hlt⟩
    split at hg
    · omega
    · omega
  · rw [hrais, Option.ite_none_right_eq_some, Option.some.injEq] at hk
    obtain ⟨hgt, rfl⟩ := hk
    split at hg
    · omega
    · subst hg
      exact ⟨hfloor, hgt, hstep, hceil⟩

theorem IsSetting.mono {c d f : Nat} (h : IsSetting c f) (hle : c ≤ d) : IsSetting d f := ⟨h.1, h.2.1, h.2.2.imp id fun hf => hf.trans hle⟩

theorem quadAim_other (s : State) {q r : Nat} (f n : Nat) (h : r ≠ q) : qwGet (quadAim s q f n) r = qwGet s r := qwGet_qwSet_ne _ _ h

theorem quadsSet_aims (s : State) : GovOnly s (quadsSet s) ∧ ∀ q, q ∈ activeQuads s → AimedAt s q (qwGet s q) (qwGet (quadsSet s) q) := by
  unfold quadsSet
  extract_lets capped cap avail ramped sh ride
  have hride (q : Nat) (hq : q ∈ activeQuads s) : RideClock (qwGet s q).clock (mgetD ride q 1000) := rideClocks_ride s hq
  clear_value capped cap avail ramped sh ride
  have h := each_agents (R := GovOnly) .trans (s₀ := s) (s := s) (l := activeQuads s) (P := fun q y => AimedAt s q (qwGet s q) y)
    (f := fun s q =>
      let x := qwGet s q
      let share := mgetD sh q 0
      let r := if estOwn s q 1000 0 > share ∨ x.rung ≠ 0 then rungTo s q share else 0
      let f := if r ≠ 0 then 1000 else clockFor s q (ceilOf s q) share
      let f := if s.wv.rideThrough then min f (mgetD ride q 1000) else f
      let s := if x.emergency then s else quadAim s q f r
      qwSet s q { qwGet s q with causes := quadCauses s q share capped ramped }) ?_ ?_ ((bitsOf_nodup ..).filter _) ?_ (.refl s) (fun _ _ => rfl)
  · exact ⟨h.1, h.2.1⟩
  · intro u q
    extract_lets x share r f f₂ u₂
    have h₂ : GovOnly u u₂ := by
      unfold u₂
      split
      · exact .refl u
      · exact qwSet_govOnly u q ⟨rfl, rfl, rfl, rfl, rfl⟩
    exact h₂.trans (qwSet_govOnly u₂ q ⟨rfl, rfl, rfl, rfl, rfl⟩)
  · intro u q r hr
    extract_lets x share n f f₂ u₂
    have h₂ : qwGet u₂ r = qwGet u r := by
      unfold u₂
      split
      · rfl
      · exact quadAim_other u f₂ n hr
    exact (qwGet_qwSet_ne _ _ hr).trans h₂
  · intro u q hq hu hsame
    extract_lets x share r f f₂ u₂ src
    rw [qwGet_qwSet]
    have hx : x = qwGet s q := hsame
    have hridden : u.wv.rideThrough = s.wv.rideThrough := hu.2.2.1
    have hceil : ceilOf u q ≤ min (Machine.heatCeil s q) (odGet s 0x1601 (q + 1)) := by
      have hval : odGet u 0x1601 (q + 1) = odGet s 0x1601 (q + 1) := hu.2.2.2.1 _ _ (by
        have := (mem_bitsOf.mp (List.mem_filter.mp hq).1).1
        exact odKey_ne (by omega) (by decide) (.inl (by decide)))
      rw [← hval, ← hu.heatCeil q]
      exact le_min (Nat.min_le_left ..) ((Nat.min_le_right ..).trans (Nat.min_le_left ..))
    have hf : IsSetting (min (Machine.heatCeil s q) (odGet s 0x1601 (q + 1))) f := by
      unfold f
      split
      · exact ⟨Nat.le_refl _, rfl, .inl rfl⟩
      · exact (clockFor_setting ..).mono hceil
    have hf₂ : f₂ = if s.wv.rideThrough then min f (mgetD ride q 1000) else f := by rw [← hridden]
    clear_value f f₂ r
    cases hemer : x.emergency with
    | true =>
      have hu₂ : u₂ = u := if_pos hemer
      have hsrc : src = qwGet s q := (congrArg (qwGet · q) hu₂).trans hsame
      refine ⟨fun _ => ?_, fun h => absurd ((congrArg QuadW.emergency hx).symm.trans hemer) (by rw [h]; decide)⟩
      have hnext : src.nextClock = (qwGet s q).nextClock := congrArg QuadW.nextClock hsrc
      have hrais : src.raising = (qwGet s q).raising := congrArg QuadW.raising hsrc
      exact ⟨hnext, hrais⟩
    | false =>
      have hu₂ : u₂ = quadAim u q f₂ r := if_neg (by rw [hemer]; decide)
      have haim : qwGet u₂ q = _ := (congrArg (qwGet · q) hu₂).trans (qwGet_qwSet ..)
      refine aimedAt_target (hx ▸ hemer) hf (hride q hq) hf₂ ?_ ?_
      · exact (congrArg QuadW.nextClock haim).trans (by rw [hsame])
      · exact (congrArg QuadW.raising haim).trans (by rw [hsame])

/-! ### Ballast -/

/-- A turn of the ballast: one agent's next ballast, none in ride-through. -/
theorem ballastSet_spec (acc : Nat × State) (q : Nat) :
    AimsKept acc.2 (ballastSet acc q).2 ∧ (∀ r, r ≠ q → (qwGet (ballastSet acc q).2 r).nextBallast = (qwGet acc.2 r).nextBallast)
    ∧ (acc.2.wv.rideThrough = true → (qwGet (ballastSet acc q).2 q).nextBallast = some 0) := by
  obtain ⟨left, s⟩ := acc
  unfold ballastSet
  dsimp only
  refine ⟨qwSet_aimsKept s q ⟨rfl, rfl, rfl, rfl, rfl⟩ rfl rfl, fun r hr => by rw [qwGet_qwSet_ne _ _ hr], fun hride => ?_⟩
  have hno : ballastOk s q = false := by simp [ballastOk, hride]
  rw [qwGet_qwSet, hno]
  rfl

theorem ballasts_spec (l : List Nat) (acc : Nat × State) :
    AimsKept acc.2 (l.foldl ballastSet acc).2
    ∧ (acc.2.wv.rideThrough = true → ∀ q, (q ∈ l ∨ (qwGet acc.2 q).nextBallast = some 0) → (qwGet (l.foldl ballastSet acc).2 q).nextBallast = some 0) := by
  induction l generalizing acc with
  | nil => exact ⟨.refl _, fun _ q hq => hq.resolve_left List.not_mem_nil⟩
  | cons a l ih =>
    obtain ⟨hkept, hother, hown⟩ := ballastSet_spec acc a
    obtain ⟨ihkept, ihown⟩ := ih (ballastSet acc a)
    refine ⟨hkept.trans ihkept, fun hride q hq => ihown (hkept.1.2.2.1.trans hride) q ?_⟩
    by_cases ha : q = a
    · subst ha
      exact .inr (hown hride)
    · refine hq.imp (fun h => (List.mem_cons.mp h).resolve_left ha) fun h => (hother q ha).trans h

theorem ballastAll_spec (s : State) : AimsKept s (ballastAll s)
    ∧ (s.wv.rideThrough = true → ∀ q, q ∈ activeQuads s → (qwGet (ballastAll s) q).nextBallast = some 0) := by
  have h := ballasts_spec (activeQuads s) (min (capRoom s) (rampRoom s) - lsum ((activeQuads s).map (ownMw s)), s)
  have hframe (u : State) (l : List Nat) : AimsKept u { u with wv := { u.wv with rampFree := l } } := ⟨wv_govOnly rfl rfl rfl rfl, fun _ => ⟨rfl, rfl⟩⟩
  exact ⟨h.1.trans (hframe _ _), fun hride q hq => h.2 hride q (.inl hq)⟩

/-! ### The risk (R360) -/

/-- The word of OD 0x3012 that a cause leaves. -/
def riskWord (v m : Nat) (on : Bool) : Nat := if on && v &&& m == 0 then v ||| m else if !on && v &&& m != 0 then v - m else v

/-- A cause of a partition changes its word, and no other object. -/
theorem riskSet_vals (s : State) (p cause : Nat) (on : Bool) :
    odGet (riskSet s p cause on) 0x3012 (p + 1) = riskWord (odGet s 0x3012 (p + 1)) (2 ^ (cause - 1)) on
    ∧ ∀ i j, odKey i j ≠ odKey 0x3012 (p + 1) → odGet (riskSet s p cause on) i j = odGet s i j := by
  have hstored {t : State} {w : Nat} (h : t.pav = (odSet s 0x3012 (p + 1) w).pav) :
      odGet t 0x3012 (p + 1) = w ∧ ∀ i j, odKey i j ≠ odKey 0x3012 (p + 1) → odGet t i j = odGet s i j := by
    refine ⟨?_, fun i j hne => ?_⟩
    · rw [odGet, h]
      exact odGet_odSet ..
    · rw [odGet, h]
      exact odGet_odSet_ne _ _ hne
  have hevent (u : State) (status value : Nat) : (eventTo u p status value).pav = u.pav := by rw [(eventTo_issueOnly u p status value).1]
  unfold riskSet riskWord
  extract_lets v m s₁ s₂
  have h₂ : s₂.pav = s₁.pav := each_rel (α := Nat × Req) (R := fun s t => t.pav = s.pav) (fun _ => rfl) (fun h k => k.trans h) (fun s x => by
    split
    · rfl
    · rfl) _ _
  split
  · exact hstored ((hevent ..).trans h₂)
  · split
    · exact hstored (hevent ..)
    · exact ⟨rfl, fun _ _ _ => rfl⟩

theorem riskWord_first (v : Nat) (on : Bool) : (riskWord v 1 on).testBit 0 = on := by
  have hand : v &&& 1 = v % 2 := Nat.and_one_is_mod v
  unfold riskWord
  rw [hand]
  rcases Nat.mod_two_eq_zero_or_one v with h | h
  · cases on
    · simp [h]
    · simp [h]
  · cases on
    · have : (v - 1) % 2 = 0 := by omega
      simp [h, this]
    · simp [h]

/-- A later cause leaves the first cause's bit. -/
theorem riskWord_later (v : Nat) (on : Bool) {k : Nat} (hk : k ≠ 0) : (riskWord v (2 ^ k) on).testBit 0 = v.testBit 0 := by
  have heven : 2 ^ k % 2 = 0 := by
    obtain ⟨j, rfl⟩ := Nat.exists_eq_succ_of_ne_zero hk
    rw [pow_succ]
    omega
  unfold riskWord
  split
  · rw [Nat.testBit_or, Nat.testBit_zero (2 ^ k), heven]
    simp
  · split
    · next h =>
      rw [Bool.and_eq_true, bne_iff_ne] at h
      have hle : 2 ^ k ≤ v := by
        by_contra hlt
        exact h.2 (by rw [Nat.and_two_pow, Nat.testBit_lt_two_pow (Nat.not_le.mp hlt), Bool.toNat_false, Nat.zero_mul])
      rw [Nat.testBit_zero, Nat.testBit_zero]
      congr 1
      rw [eq_iff_iff]
      omega
    · rfl

/-- One partition's part of the judgement. -/
def riskTurn (one : Bool) (s : State) (p : Nat) : State :=
  let qs := (bitsOf 16 (partQuads s p)).filter fun q => s.tray.quadOn.getLsbD q
  let s := riskSet s p 1 one
  let s := riskSet s p 2 (qs.any fun q => (qwGet s q).rung != 0)
  riskSet s p 3 (qs.any fun q => (qwGet s q).emergency || decide ((qwGet s q).clock < 1000))

theorem riskTurn_vals (one : Bool) (s : State) (p : Nat) :
    (odGet (riskTurn one s p) 0x3012 (p + 1)).testBit 0 = one ∧ ∀ i j, odKey i j ≠ odKey 0x3012 (p + 1) → odGet (riskTurn one s p) i j = odGet s i j := by
  unfold riskTurn
  extract_lets qs s₁ s₂
  obtain ⟨h₁, h₁'⟩ := riskSet_vals s p 1 one
  obtain ⟨h₂, h₂'⟩ := riskSet_vals s₁ p 2 (qs.any fun q => (qwGet s₁ q).rung != 0)
  obtain ⟨h₃, h₃'⟩ := riskSet_vals s₂ p 3 (qs.any fun q => (qwGet s₂ q).emergency || decide ((qwGet s₂ q).clock < 1000))
  refine ⟨?_, fun i j hne => (h₃' i j hne).trans ((h₂' i j hne).trans (h₁' i j hne))⟩
  rw [h₃, riskWord_later _ _ (by decide), show odGet s₂ 0x3012 (p + 1) = _ from h₂, riskWord_later _ _ (by decide), show odGet s₁ 0x3012 (p + 1) = _ from h₁]
  exact riskWord_first ..

theorem riskTurn_riskOnly (one : Bool) (s : State) (p : Nat) : RiskOnly s (riskTurn one s p) :=
  ((riskSet_riskOnly ..).trans (riskSet_riskOnly ..)).trans (riskSet_riskOnly ..)

/-- Once judged, each partition's first bit stands. -/
theorem riskTurns_vals (one : Bool) (l : List Nat) (s : State) :
    (∀ p, (p ∈ l ∨ (odGet s 0x3012 (p + 1)).testBit 0 = one) → (odGet (each l (riskTurn one) s) 0x3012 (p + 1)).testBit 0 = one)
    ∧ ∀ i j, (∀ p, odKey i j ≠ odKey 0x3012 (p + 1)) → odGet (each l (riskTurn one) s) i j = odGet s i j := by
  induction l generalizing s with
  | nil => exact ⟨fun p h => h.resolve_left List.not_mem_nil, fun _ _ _ => rfl⟩
  | cons a l ih =>
    rw [each_cons]
    obtain ⟨hset, hkeep⟩ := ih (riskTurn one s a)
    obtain ⟨hown, hother⟩ := riskTurn_vals one s a
    refine ⟨fun p h => hset p ?_, fun i j hne => (hkeep i j hne).trans (hother i j (hne a))⟩
    by_cases ha : p = a
    · subst ha
      exact .inr hown
    · have hne : odKey 0x3012 (p + 1) ≠ odKey 0x3012 (a + 1) := by
        unfold odKey
        omega
      rw [hother _ _ hne]
      exact h.imp (fun h => (List.mem_cons.mp h).resolve_left ha) id

theorem riskJudge_spec (s : State) : RiskOnly s (riskJudge s)
    ∧ (∀ p, p ∈ activeParts s → (odGet (riskJudge s) 0x3012 (p + 1)).testBit 0 = decide (min (effCap s) (odGet s 0x1401 1 * 1000) < s.wv.pneedMw))
    ∧ effCap (riskJudge s) = effCap s := by
  have heq : riskJudge s = each (activeParts s) (riskTurn (decide (min (effCap s) (odGet s 0x1401 1 * 1000) < s.wv.pneedMw))) s := rfl
  have honly : RiskOnly s (riskJudge s) := each_rel .refl .trans (riskTurn_riskOnly _) _ s
  obtain ⟨hset, hkeep⟩ := riskTurns_vals (decide (min (effCap s) (odGet s 0x1401 1 * 1000) < s.wv.pneedMw)) (activeParts s) s
  rw [← heq] at hset hkeep
  refine ⟨honly, fun p hp => hset p (.inl hp), ?_⟩
  have hcap := hkeep 0x1400 1 fun p => by unfold odKey; omega
  have hwv : (riskJudge s).wv = s.wv := by rw [honly]
  rw [effCap, hcap, hwv, effCap]

/-! ### The cycle -/

/-- The state that the cycle judges the risk in. -/
def cycleSet (s : State) (d : List Nat) : State :=
  let s := ballastAll (quadsSet (cycleNoted s d))
  let s := { s with wv := { s.wv with pneedMw := needMw s } }
  { s with wv := { s.wv with causes := trayCauses s } }

theorem exec_governorCycle {s : State} (d : List Nat) (hon : wvOn s = true) : exec (.governorCycle d) s = .next (riskJudge (cycleSet s d)) := if_neg (by simp [hon])

theorem cycleSet_spec (s : State) (d : List Nat) : GovOnly s (cycleSet s d) ∧ ∀ q, q ∈ activeQuads s → AimedAt s q (qwGet s q) (qwGet (cycleSet s d) q)
    ∧ (s.wv.rideThrough = true → (qwGet (cycleSet s d) q).nextBallast = some 0) := by
  obtain ⟨hnoted, hkept⟩ := cycleNoted_aimsKept s d
  obtain ⟨hset, haimed⟩ := quadsSet_aims (cycleNoted s d)
  obtain ⟨hball, hnone⟩ := ballastAll_spec (quadsSet (cycleNoted s d))
  have hquads : (cycleSet s d).wv.quads = (ballastAll (quadsSet (cycleNoted s d))).wv.quads := rfl
  have hlast : GovOnly (ballastAll (quadsSet (cycleNoted s d))) (cycleSet s d) := wv_govOnly rfl rfl rfl rfl
  have hread (q : Nat) : qwGet (cycleSet s d) q = qwGet (ballastAll (quadsSet (cycleNoted s d))) q := by
    unfold qwGet
    rw [hquads]
  generalize cycleSet s d = w at *
  generalize ballastAll (quadsSet (cycleNoted s d)) = v at *
  generalize quadsSet (cycleNoted s d) = u at *
  generalize cycleNoted s d = n at *
  refine ⟨((hnoted.trans hset).trans hball.1).trans hlast, fun q hq => ⟨?_, fun hride => ?_⟩⟩
  · have haim := haimed q (by rw [hnoted.active.1]; exact hq)
    obtain ⟨hclock, -, -, hemer, -⟩ := hnoted.2.2.2.2 q
    obtain ⟨hn, hr⟩ := hkept q
    obtain ⟨hn', hr'⟩ := hball.2 q
    have hval : odGet n 0x1601 (q + 1) = odGet s 0x1601 (q + 1) := hnoted.2.2.2.1 _ _ (by
      have := (mem_bitsOf.mp (List.mem_filter.mp hq).1).1
      exact odKey_ne (by omega) (by decide) (.inl (by decide)))
    unfold AimedAt at haim ⊢
    rw [hclock, hemer, hn, hr, hnoted.2.2.1, hnoted.heatCeil, hval] at haim
    rw [hread, hn', hr']
    exact haim
  · rw [hread]
    exact hnone (by rw [hset.2.2.1, hnoted.2.2.1]; exact hride) q (by rw [hset.active.1, hnoted.active.1]; exact hq)

theorem governorCycle_runs (d : List Nat) {s : State} (hon : wvOn s = true) : Runs (.governorCycle d) s fun t => t.mem = s.mem ∧ t.tray = s.tray ∧ t.clk = s.clk
    ∧ (∀ p, p ∈ activeParts s → (odGet t 0x3012 (p + 1)).testBit 0 = decide (min (effCap t) (odGet s 0x1401 1 * 1000) < t.wv.pneedMw))
    ∧ ∀ q, q ∈ activeQuads s → (qwGet t q).clock = (qwGet s q).clock ∧ (qwGet t q).rung = (qwGet s q).rung
      ∧ (qwGet t q).ballastMw = (qwGet s q).ballastMw ∧ (s.wv.rideThrough = true → (qwGet t q).nextBallast = some 0) ∧ AimedAt s q (qwGet s q) (qwGet t q) := by
  obtain ⟨hgov, haimed⟩ := cycleSet_spec s d
  refine ⟨_, exec_governorCycle d hon, ?_⟩
  generalize cycleSet s d = u at *
  obtain ⟨hrisk, hbit, hcap⟩ := riskJudge_spec u
  generalize riskJudge u = t at *
  obtain ⟨hactive, hparts⟩ := hgov.active
  obtain ⟨hframe, -, -, hvals, hagents⟩ := hgov
  have hwv : t.wv = u.wv := by rw [hrisk]
  have hread (q : Nat) : qwGet t q = qwGet u q := by unfold qwGet; rw [hwv]
  refine ⟨by rw [hrisk, hframe], by rw [hrisk, hframe], by rw [hrisk, hframe], fun p hp => ?_, fun q hq => ?_⟩
  · rw [hbit p (by rw [hparts]; exact hp), hcap, hwv, hvals 0x1401 1 (by decide)]
  · obtain ⟨hclock, hrung, hball, -, -⟩ := hagents q
    rw [hread]
    exact ⟨hclock, hrung, hball, (haimed q hq).2, (haimed q hq).1⟩

/-! ### The beat boundary (R26, R136, R348, R371) -/

theorem exec_issueLimitApply {q : Quad} {s : State} (hon : s.tray.quadOn.getLsbD q.val = true) :
    exec (.issueLimitApply q) s = .next (trimStep (qwSet s q.val (boundaryTake (qwGet s q.val))) q.val) := if_neg (by simp [hon])

/-- The trim's part of the boundary, from the agent that has taken its settings. -/
theorem trimStep_spec (s : State) (q : Nat) :
    let x := qwGet s q
    let held := x.trimDue = 0 ∨ ∃ u, x.trimAt = some u ∧ s.clk.now < u + 10000
    let d : Int := if x.trimDue > 0 then 5 else -5
    (held → trimStep s q = s)
    ∧ (¬ held → trimStep s q = odSet (qwSet s q { x with trimDue := x.trimDue - d, trimAt := some s.clk.now }) 0x1600 (q + 1) (ux 32 (trimMv s q + d))) := by
  intro x held d
  have hfree : (!(match x.trimAt with | some t => decide (s.clk.now ≥ t + 10000) | none => true)) = true ↔ ∃ u, x.trimAt = some u ∧ s.clk.now < u + 10000 := by
    cases x.trimAt with
    | none => simp
    | some t => simp
  have hheld : (x.trimDue = 0 ∨ (!(match x.trimAt with | some t => decide (s.clk.now ≥ t + 10000) | none => true)) = true) ↔ held := or_congr_right hfree
  exact ⟨fun h => if_pos (hheld.mpr h), fun h => if_neg fun hn => h (hheld.mp hn)⟩

theorem boundary_runs {q : Quad} {s : State} (hon : s.tray.quadOn.getLsbD q.val = true) :
    let x := qwGet s q.val
    let y := boundaryTake x
    let held := x.trimDue = 0 ∨ ∃ u, x.trimAt = some u ∧ s.clk.now < u + 10000
    let d : Int := if x.trimDue > 0 then 5 else -5
    (held → Runs (.issueLimitApply q) s fun t => (t = { s with wv := { s.wv with quads := t.wv.quads } } ∧ ∀ r, r ≠ q.val → qwGet t r = qwGet s r) ∧ qwGet t q.val = y)
    ∧ (¬ held → Runs (.issueLimitApply q) s fun t => qwGet t q.val = { y with trimDue := x.trimDue - d, trimAt := some s.clk.now }
        ∧ odGet t 0x1600 (q.val + 1) = ux 32 (trimMv s q.val + d) ∧ (∀ r, r ≠ q.val → qwGet t r = qwGet s r)
        ∧ t = { s with wv := { s.wv with quads := t.wv.quads }, pav := { s.pav with vals := t.pav.vals } }) := by
  intro x y held d
  obtain ⟨hheld, hfree⟩ := trimStep_spec (qwSet s q.val y) q.val
  rw [qwGet_qwSet] at hheld hfree
  refine ⟨fun h => ⟨_, exec_issueLimitApply hon, ?_⟩, fun h => ⟨_, exec_issueLimitApply hon, ?_⟩⟩
  · rw [show trimStep (qwSet s q.val (boundaryTake (qwGet s q.val))) q.val = qwSet s q.val y from hheld h]
    exact ⟨⟨rfl, fun r hr => qwGet_qwSet_ne _ _ hr⟩, qwGet_qwSet ..⟩
  · rw [show trimStep (qwSet s q.val (boundaryTake (qwGet s q.val))) q.val = _ from hfree h]
    exact ⟨qwGet_qwSet .., odGet_odSet .., fun r hr => (qwGet_qwSet_ne (qwSet s q.val y) _ hr).trans (qwGet_qwSet_ne _ _ hr), rfl⟩

/-! ### The sustained cap (R359, R375) -/

theorem sustainedCapWrite_runs {rq : DictReq} {v : List Byte} {s : State} (hmay : MayStore s rq 0x1400 1 v) : Runs (.sustainedCapWrite rq v) s fun t =>
    let w := min 1200 (max 300 (leNat v))
    odGet t 0x1400 1 = w ∧ t.mem = s.mem ∧ t.car = s.car
    ∧ t.wv = { s.wv with capWriteAt := if w < odGet s 0x1400 1 ∧ w * 1000 < s.wv.inputMw then some s.clk.now else s.wv.capWriteAt } := by
  have hrow : odRow 0x1400 1 = some ⟨0x1400, 1, 1, 2, .rw, 1200, .range 300 1200⟩ := by decide +kernel
  have hclamp : clampRow 0x1400 1 s (leNat v) = min 1200 (max 300 (leNat v)) := by
    rw [clampRow, hrow]
    rfl
  obtain ⟨bs, hw⟩ := dictWrite_of_mayStore hmay (clampRow 0x1400 1) fun u w =>
    if w < odGet s 0x1400 1 ∧ w * 1000 < u.wv.inputMw then { u with wv := { u.wv with capWriteAt := some u.clk.now } } else u
  rw [hclamp] at hw
  have hput := dictPut_dictOnly s rq.src 0x1400 1 (leNat v) (min 1200 (max 300 (leNat v)))
  have hget := odGet_dictPut s rq.src 0x1400 1 (leNat v) (min 1200 (max 300 (leNat v)))
  refine ⟨_, congrArg Host.Outcome.next hw, ?_⟩
  generalize dictPut s rq.src 0x1400 1 (leNat v) (min 1200 (max 300 (leNat v))) = u at *
  have hinput : u.wv = s.wv ∧ u.clk = s.clk ∧ u.mem = s.mem ∧ u.car = s.car := by rw [hput]; exact ⟨rfl, rfl, rfl, rfl⟩
  obtain ⟨hwv, hclk, hmem, hcar⟩ := hinput
  intro w
  by_cases hcut : w < odGet s 0x1400 1 ∧ w * 1000 < u.wv.inputMw
  · rw [if_pos hcut, odGet_dictAnswer, if_pos (by rw [← hwv]; exact hcut)]
    have hans := dictAnswer_dictOnly { u with wv := { u.wv with capWriteAt := some u.clk.now } } rq 0 0x1400 1 bs
    generalize dictAnswer { u with wv := { u.wv with capWriteAt := some u.clk.now } } rq 0 0x1400 1 bs = t at *
    refine ⟨hget, ?_, ?_, ?_⟩
    · rw [hans]; exact hmem
    · rw [hans]; exact hcar
    · rw [hans]
      show { u.wv with capWriteAt := some u.clk.now } = _
      rw [hwv, hclk]
  · rw [if_neg hcut, odGet_dictAnswer, if_neg (by rw [← hwv]; exact hcut)]
    have hans := dictAnswer_dictOnly u rq 0 0x1400 1 bs
    generalize dictAnswer u rq 0 0x1400 1 bs = t at *
    refine ⟨hget, ?_, ?_, ?_⟩
    · rw [hans]; exact hmem
    · rw [hans]; exact hcar
    · rw [hans]; exact hwv

/-- Settles O53: samples, the governor's cycle, the boundary and the cap, each by its own lemma. -/
theorem powerIsSampledGovernedAndCapped : Obligations.PowerIsSampledGovernedAndCapped := by
  refine ⟨fun mw qs s hon => ?_, fun d s => ⟨fun hoff => ⟨s, if_pos (by simp [hoff]), rfl⟩, fun hon => ?_⟩, fun q s hon => ?_, fun rq v s hmay => sustainedCapWrite_runs hmay⟩
  case refine_1 =>
    obtain ⟨t, hexec, hframe, hinput, hover, hfew, hfull, hquads⟩ := powerSample_runs mw qs hon
    refine ⟨t, hexec, hframe, ?_, ?_, fun at_ hat hlate => ?_, fun at_ hat hearly => ?_, fun at_ hnone hat => ?_, fun hnone hnone' => ?_, hover, hfew, hfull, hquads⟩
    · rw [hinput]
      exact Nat.min_le_left ..
    · rw [hinput]
      refine (Nat.min_le_right ..).trans ?_
      unfold drawLimit
      split
      · split
        · exact Nat.le_max_left ..
        · exact Nat.le_max_right ..
      · split
        · exact Nat.le_max_left ..
        · exact Nat.le_max_right ..
      · exact Nat.le_max_left ..
    · simp [hinput, drawLimit, hat, Nat.not_lt.mpr hlate]
    · simp [hinput, drawLimit, hat, hearly]
    · rw [hinput, drawLimit, hnone, hat]
      dsimp only
      by_cases hlate : s.clk.now < at_ + odGet s 0x1401 2 * 1000000
      · rw [if_pos hlate, if_neg (Nat.not_le.mpr hlate)]
      · rw [if_neg hlate, if_pos (Nat.not_lt.mp hlate)]
    · simp [hinput, drawLimit, hnone, hnone']
  case refine_2 =>
    obtain ⟨t, hexec, hmem, htray, hclk, hbit, hquads⟩ := governorCycle_runs d hon
    refine ⟨t, hexec, hmem, htray, hclk, hbit, fun q hq => ?_⟩
    obtain ⟨hclock, hrung, hball, hride, hemer, haim⟩ := hquads q hq
    exact ⟨hclock, hrung, hball, hride, hemer, haim⟩
  case refine_3 =>
    obtain ⟨hheld, hfree⟩ := boundary_runs hon
    exact ⟨hheld, hfree, _, if_neg (by simp [hon]), ⟨rfl, fun r hr => qwGet_qwSet_ne _ _ hr⟩, qwGet_qwSet ..⟩

end Sys2Proof.Machine
end

section
/-! SUPPORT. O43: subscriptions, notifications, restarts, the log and the segments of Pavilion (R453, R454, R462, R463, R465, R471, R475, R477). -/

namespace Sys2Proof.Machine

open Sys2Proof Sys2Proof.Claims

/-! ### Answers into a session that changed beside its messages -/

/-- What an answer reads of a session. -/
def SameMessages (x y : Sess) : Prop := y.isOpen = x.isOpen ∧ y.building = x.building ∧ y.ops = x.ops ∧ y.seg = x.seg ∧ y.txSeq = x.txSeq

/-- An answer stands where its source looks for it, if the operation left the session's messages alone. -/
theorem answers_of_sameMessages {s u : State} (rq : DictReq) (st idx sub : Nat) (v : List Byte)
    (h : ∀ n x, mget s.pav.sessions n = some x → ∃ y, mget u.pav.sessions n = some y ∧ SameMessages x y) :
    Answers s (dictAnswer u rq st idx sub v) rq st idx sub v := by
  unfold Answers dictAnswer
  split
  · next f hsrc => simp [hsrc]
  · next sid hsrc =>
    intro x hx hopen
    obtain ⟨y, hy, hyopen, hbuild, hops, hseg, htx⟩ := h sid.val x hx
    simp only [hsrc, hy, hyopen, hopen]
    cases hlast : rq.last
    · exact ⟨_, mget_mset_same .., fun _ => ⟨by rw [hbuild], by rw [hops]⟩, fun hl => absurd hl (by decide)⟩
    · exact ⟨_, mget_mset_same .., fun hl => absurd hl (by decide), fun _ => ⟨rfl, by rw [htx], u.out, by rw [hbuild, hops, hseg, htx]; rfl⟩⟩

/-- An answer into a session keeps its subscriptions. -/
theorem dictAnswer_subs {u : State} {rq : DictReq} {n : Fin 8} {y : Sess} (hsrc : rq.src = .session n) (hy : mget u.pav.sessions n.val = some y)
    (st idx sub : Nat) (v : List Byte) : ∃ z, mget (dictAnswer u rq st idx sub v).pav.sessions n.val = some z ∧ z.subs = y.subs := by
  unfold dictAnswer
  simp only [hsrc, hy]
  split
  · exact ⟨y, hy, rfl⟩
  · split
    · exact ⟨_, mget_mset_same .., rfl⟩
    · exact ⟨_, mget_mset_same .., rfl⟩

/-! ### Subscriptions (R465) -/

section
variable {n : Fin 8} {rq : DictReq} {i : BitVec 16} {b : Byte} {x : Sess} {s : State}
  (hon : pavOn s = true) (hsrc : rq.src = .session n) (hx : mget s.pav.sessions n.val = some x)

/-- The subscriptions of a session are a list. -/
def Subscribed (t : State) (n : Fin 8) (l : List Sub) : Prop := ∃ y, mget t.pav.sessions n.val = some y ∧ y.subs = l

include hsrc hx in
/-- An answer without a change leaves the subscriptions. -/
theorem answered_unchanged (st : Nat) : Answers s (dictAnswer s rq st i.toNat b.toNat []) rq st i.toNat b.toNat [] ∧ Subscribed (dictAnswer s rq st i.toNat b.toNat []) n x.subs :=
  ⟨answers_dictAnswer rq st i.toNat b.toNat [] rfl, dictAnswer_subs hsrc hx ..⟩

include hsrc hx in
/-- New subscriptions, and the answer. -/
theorem answered_subs (l : List Sub) :
    let t := dictAnswer (sessSet s n.val { x with subs := l }) rq 0 i.toNat b.toNat []
    Answers s t rq 0 i.toNat b.toNat [] ∧ Subscribed t n l := by
  have hnew : mget (sessSet s n.val { x with subs := l }).pav.sessions n.val = some { x with subs := l } := mget_mset_same ..
  refine ⟨answers_of_sameMessages rq 0 i.toNat b.toNat [] fun m y hy => ?_, dictAnswer_subs hsrc hnew ..⟩
  by_cases hm : m = n.val
  · subst hm
    obtain rfl : x = y := Option.some.inj (hx.symm.trans hy)
    exact ⟨_, mget_mset_same .., rfl, rfl, rfl, rfl, rfl⟩
  · exact ⟨y, (mget_mset_ne _ _ hm).trans hy, rfl, rfl, rfl, rfl, rfl⟩

include hon hsrc hx

theorem subscribe_noObject (ms : BitVec 16) (hrow : odRow i.toNat b.toNat = none) : exec (.subscribe rq i b ms) s = .next (dictAnswer s rq 1 i.toNat b.toNat []) := by
  show execSubscribe rq i b ms s = _
  simp [execSubscribe, hsrc, hx, hon, hrow]

theorem unsubscribe_noObject (hrow : odRow i.toNat b.toNat = none) : exec (.unsubscribe rq i b) s = .next (dictAnswer s rq 1 i.toNat b.toNat []) := by
  show execUnsubscribe rq i b s = _
  simp [execUnsubscribe, hsrc, hx, hon, hrow]

variable {r : OdRow} (hrow : odRow i.toNat b.toNat = some r)
include hrow

theorem subscribe_denied (ms : BitVec 16) (hread : mayRead s rq.src i.toNat b.toNat r.acc = false) :
    exec (.subscribe rq i b ms) s = .next (dictAnswer s rq 2 i.toNat b.toNat []) := by
  rw [hsrc] at hread
  show execSubscribe rq i b ms s = _
  simp [execSubscribe, hsrc, hx, hon, hrow, hread]

theorem subscribe_full (ms : BitVec 16) (hread : mayRead s rq.src i.toNat b.toNat r.acc = true)
    (hfull : 64 ≤ (x.subs.filter fun u => !(u.idx == i.toNat && u.sub == b.toNat)).length) :
    exec (.subscribe rq i b ms) s = .next (dictAnswer s rq 4 i.toNat b.toNat []) := by
  rw [hsrc] at hread
  show execSubscribe rq i b ms s = _
  unfold execSubscribe
  simp only [hsrc, hx, hon, hrow, hread, ge_iff_le, hfull]
  rfl

theorem subscribe_adds (ms : BitVec 16) (hread : mayRead s rq.src i.toNat b.toNat r.acc = true)
    (hroom : (x.subs.filter fun u => !(u.idx == i.toNat && u.sub == b.toNat)).length < 64) :
    exec (.subscribe rq i b ms) s = .next (dictAnswer (sessSet s n.val { x with subs := (x.subs.filter fun u => !(u.idx == i.toNat && u.sub == b.toNat))
      ++ [{ idx := i.toNat, sub := b.toNat, minMs := min 60000 (max 10 ms.toNat), lastAt := none, lastVal := odValue s i.toNat b.toNat }] }) rq 0 i.toNat b.toNat []) := by
  rw [hsrc] at hread
  show execSubscribe rq i b ms s = _
  unfold execSubscribe
  simp only [hsrc, hx, hon, hrow, hread, ge_iff_le, Nat.not_le.mpr hroom]
  rfl

theorem unsubscribe_removes : exec (.unsubscribe rq i b) s
    = .next (dictAnswer (sessSet s n.val { x with subs := x.subs.filter fun u => !(u.idx == i.toNat && u.sub == b.toNat) }) rq 0 i.toNat b.toNat []) := by
  show execUnsubscribe rq i b s = _
  unfold execUnsubscribe
  simp only [hsrc, hx, hon, hrow]
  rfl

end

/-! ### Notifications -/

section
variable {n : Fin 8} {i : BitVec 16} {b : Byte} {x : Sess} {u : Sub} {r : OdRow} {s : State}
  (hon : pavOn s = true) (hx : mget s.pav.sessions n.val = some x) (hopen : x.isOpen = true)
  (hu : x.subs.find? (fun u => u.idx == i.toNat && u.sub == b.toNat) = some u) (hrow : odRow i.toNat b.toNat = some r)
include hon hx hopen hu

/-- The interval since a subscription's last notification has not passed. -/
def subEarly (s : State) (u : Sub) : Prop := ∃ t, u.lastAt = some t ∧ s.clk.now < t + u.minMs * 1000000

omit hon hx hopen hu in
theorem subEarly_iff (s : State) (u : Sub) : (match u.lastAt with | some t => decide (s.clk.now < t + u.minMs * 1000000) | none => false) = true ↔ subEarly s u := by
  unfold subEarly
  cases u.lastAt with
  | none => simp
  | some t => simp

omit hon hopen in
theorem notify_waits (h : odValue s i.toNat b.toNat = u.lastVal ∨ subEarly s u) : exec (.notify n i b) s = .next s := by
  show execNotify n i b s = _
  unfold execNotify
  simp only [hx, hu]
  refine if_pos ?_
  rcases h with h | h
  · simp [h]
  · rw [Bool.or_eq_true]
    exact .inr ((subEarly_iff s u).mpr h)

include hrow in
theorem notify_sends (hnew : odValue s i.toNat b.toNat ≠ u.lastVal) (hdue : ¬ subEarly s u) :
    exec (.notify n i b) s = .next (sessSend s n.val { x with subs := x.subs.map fun w =>
      if w.idx == i.toNat && w.sub == b.toNat then { w with lastAt := some s.clk.now, lastVal := odValue s i.toNat b.toNat } else w } 10
      (leBytes 2 i.toNat ++ leBytes 1 b.toNat ++ leBytes 1 0 ++ leBytes r.size (odValue s i.toNat b.toNat))) := by
  show execNotify n i b s = _
  unfold execNotify
  simp only [hx, hu, hrow]
  refine if_neg fun h => ?_
  rw [Bool.or_eq_true, Bool.or_eq_true, Bool.or_eq_true] at h
  rcases h with ((h | h) | h) | h
  · simp [hon] at h
  · simp [hopen] at h
  · exact hnew (beq_iff_eq.mp h)
  · exact hdue ((subEarly_iff s u).mp h)

end

/-! ### Restart (R471) -/

/-- No session and no message in progress is left; the log and the counts of clamps stay. -/
def SessionsGone (s t : State) : Prop :=
  t.pav.sessions = [] ∧ t.pav.frags = [] ∧ t.pav.inbox = [] ∧ t.pav.restarting = true ∧ t.pav.log = s.pav.log ∧ t.pav.clamps = s.pav.clamps

/-- An answer after a restart stands in a window at most. -/
theorem dictAnswer_sessionsGone {s u : State} (h : SessionsGone s u) (rq : DictReq) (st idx sub : Nat) (v : List Byte) : SessionsGone s (dictAnswer u rq st idx sub v) := by
  obtain ⟨hsess, hrest⟩ := h
  unfold dictAnswer
  split
  · rw [hsess]
    exact ⟨hsess, hrest⟩
  · exact ⟨hsess, hrest⟩

theorem pavilionRestart_written {rq : DictReq} {s : State} (hmay : MayStore s rq 0x0408 0 [1]) :
    Runs (.pavilionRestart (.write rq [1])) s fun t => SessionsGone s t ∧ odGet t 0x0408 0 = 0 ∧ DictOnly s t := by
  have hrow : odRow 0x0408 0 = some (clearRow 0x0408 .rws) := by decide +kernel
  have hclear := dictClear_one hmay hrow pavRestart
  have hexec : exec (.pavilionRestart (.write rq [1])) s = .next (dictAnswer (odSet (pavRestart (odSet s 0x0408 0 1)) 0x0408 0 0) rq 0 0x0408 0 [0]) := by
    rw [← hclear]
    have hclamp : clampRow 0x0408 0 s (leNat [1]) = 1 := by
      rw [clampRow, hrow]
      exact (by decide : clampTo (.range 0 1) (leNat [1]) = 1)
    show Host.Outcome.next _ = _
    rw [dictClear, dictWrite_answered hmay hrow, dictWrite_answered hmay hrow, hclamp, if_pos rfl, if_pos rfl]
  refine ⟨_, hexec, dictAnswer_sessionsGone ⟨rfl, rfl, rfl, rfl, rfl, rfl⟩ .., by rw [odGet_dictAnswer, odGet_odSet], ?_⟩
  exact DictOnly.trans (t := odSet (pavRestart (odSet s 0x0408 0 1)) 0x0408 0 0) rfl (dictAnswer_dictOnly ..)

/-! ### The log (R475, R477) -/

theorem recordRead_sameMessages (s : State) (src : DictSrc) (n : Nat) (x : Sess) (hx : mget s.pav.sessions n = some x) :
    ∃ y, mget (recordRead s src).2.pav.sessions n = some y ∧ SameMessages x y := by
  have hsame : SameMessages x x := ⟨rfl, rfl, rfl, rfl, rfl⟩
  unfold recordRead
  split
  · next r _ =>
    cases src with
    | session sid =>
      unfold cursorSet
      dsimp only
      split
      · next z hz =>
        by_cases hn : n = sid.val
        · subst hn
          obtain rfl : x = z := Option.some.inj (hx.symm.trans hz)
          exact ⟨_, mget_mset_same .., rfl, rfl, rfl, rfl, rfl⟩
        · exact ⟨x, (mget_mset_ne _ _ hn).trans hx, hsame⟩
      · exact ⟨x, hx, hsame⟩
    | window f => exact ⟨x, hx, hsame⟩
  · exact ⟨x, hx, hsame⟩

theorem errorLogRead_answers {rq : DictReq} {s : State} (hon : pavOn s = true) :
    Runs (.errorLogRead rq) s fun t => mayRead s rq.src 0x7C02 0 .ro = true → Answers s t rq 0 0x7C02 0 (recordRead s rq.src).1 := by
  refine ⟨_, rfl, fun hmay => ?_⟩
  have hrow : odRow 0x7C02 0 = some ⟨0x7C02, 0, 0, 64, .ro, 0, .none⟩ := by decide +kernel
  have hread : dictRead s rq 0x7C02 0 = dictAnswer (recordRead s rq.src).2 rq 0 0x7C02 0 (recordRead s rq.src).1 := by
    rw [dictRead, if_neg (by simp [hon]), hrow]
    exact if_pos hmay
  rw [hread]
  exact answers_of_sameMessages rq 0 0x7C02 0 _ fun n x hx => recordRead_sameMessages s rq.src n x hx

theorem logClear_empties {rq : DictReq} {s : State} (hmay : MayStore s rq 0x7C03 0 [1]) :
    Runs (.logClear rq [1]) s fun t => t.pav.log = [] ∧ t.pav.nextSeq = s.pav.nextSeq ∧ odGet t 0x7C03 0 = 0 ∧ DictOnly s t := by
  have hrow : odRow 0x7C03 0 = some (clearRow 0x7C03 .rws) := by decide +kernel
  have hclear := dictClear_one hmay hrow fun s => { s with pav := { s.pav with log := [] } }
  refine ⟨_, congrArg Host.Outcome.next hclear, by rw [dictAnswer_only]; rfl, by rw [dictAnswer_only]; rfl, by rw [odGet_dictAnswer, odGet_odSet], ?_⟩
  exact DictOnly.trans (by exact rfl) (dictAnswer_dictOnly ..)

/-- Settles O43: subscriptions, notifications, restarts, the log, echoes and segments, each by its own lemma. -/
theorem pavilionSubscribesNotifiesAndRestarts : Obligations.PavilionSubscribesNotifiesAndRestarts := by
  refine ⟨fun n rq i b ms x s hon hsrc hx hopen => ?_, fun n i b x u r s hon hx hopen hu hrow => ?_, fun rq s => ?_, fun g body s hon => ?_, fun g st s hon => ?_⟩
  case refine_1 =>
    refine ⟨fun hrow => ⟨⟨_, subscribe_noObject hon hsrc hx ms hrow, answered_unchanged hsrc hx 1⟩, _, unsubscribe_noObject hon hsrc hx hrow, answered_unchanged hsrc hx 1⟩,
      fun r hrow => ⟨fun hread => ⟨_, subscribe_denied hon hsrc hx hrow ms hread, answered_unchanged hsrc hx 2⟩, fun hread hfull => ⟨_, subscribe_full hon hsrc hx hrow ms hread hfull, answered_unchanged hsrc hx 4⟩,
        fun hread hroom => ⟨_, subscribe_adds hon hsrc hx hrow ms hread hroom, answered_subs hsrc hx _⟩, _, unsubscribe_removes hon hsrc hx hrow, answered_subs hsrc hx _⟩⟩
  case refine_2 =>
    refine ⟨fun h => ⟨s, notify_waits hx hu h, rfl⟩, fun hnew hdue => ⟨_, notify_sends hon hx hopen hu hrow hnew hdue, ⟨_, mget_mset_same .., rfl, ?_⟩, rfl⟩⟩
    intro w hw hidx hsub
    obtain ⟨w', -, rfl⟩ := List.mem_map.mp hw
    by_cases hsame : (w'.idx == i.toNat && w'.sub == b.toNat) = true
    · rw [if_pos hsame]
      exact ⟨rfl, rfl⟩
    · rw [if_neg hsame] at hidx hsub
      exact absurd (by simp [hidx, hsub]) hsame
  case refine_3 =>
    refine ⟨fun hon => ⟨_, if_pos hon, ⟨rfl, rfl, rfl, rfl, rfl, rfl⟩, rfl, rfl⟩, pavilionRestart_written, fun hres => ⟨_, if_pos hres, rfl, fun w hw => ?_, rfl, rfl, rfl⟩, errorLogRead_answers, logClear_empties⟩
    obtain ⟨w', -, rfl⟩ := List.mem_map.mp hw
    rfl
  case refine_4 =>
    refine ⟨⟨_, if_pos (by simp [hon]), rfl⟩, ⟨_, if_pos (by simp [hon]), rfl⟩, fun hl hu => ⟨s, if_neg (by simp [hl, hu]), rfl⟩⟩
  case refine_5 => exact ⟨_, if_pos hon, odGet_odSet .., rfl⟩

end Sys2Proof.Machine
end

section
/-! SUPPORT. The member that goes on by itself: held completions issued, causes ended, and what neither touches (R265, R446, R447). -/

namespace Sys2Proof.Machine

open Sys2Proof Sys2Proof.Claims

/-- At most the request table, what is held and what waits for rings differ, beside the causes' objects and what is sent. -/
def RingsOnly (s t : State) : Prop :=
  t = { s with
    car := { s.car with reqs := t.car.reqs, cached := t.car.cached, backlog := t.car.backlog, heldOut := t.car.heldOut }
    pair := { s.pair with dirty := t.pair.dirty }
    pav := { s.pav with vals := t.pav.vals }
    pcie := { s.pcie with funcs := t.pcie.funcs }
    out := t.out }

theorem RingsOnly.refl (s : State) : RingsOnly s s := rfl

theorem RingsOnly.trans {s t u : State} (h : RingsOnly s t) (k : RingsOnly t u) : RingsOnly s u := by
  unfold RingsOnly at *
  rw [k, h]

theorem RiskOnly.ringsOnly {s t : State} (h : RiskOnly s t) : RingsOnly s t := by
  unfold RingsOnly
  rw [h]

theorem ComplOnly.ringsOnly {s t : State} (h : ComplOnly s t) : RingsOnly s t := by
  unfold RingsOnly
  unfold ComplOnly at h
  rw [h]

/-- The completions held for a step of a partition, issued. -/
def heldIssue (s : State) (x : Nat × List (Nat × Nat × BitVec 256)) : State := each x.2 (fun s e => complPush s (x.1 + 1) e.2.1 e.2.2) s

theorem heldIssue_ringsOnly (s : State) (x : Nat × List (Nat × Nat × BitVec 256)) : RingsOnly s (heldIssue s x) ∧ (heldIssue s x).car.heldOut = s.car.heldOut :=
  each_rel (α := Nat × Nat × BitVec 256) (R := fun s t => RingsOnly s t ∧ t.car.heldOut = s.car.heldOut) (fun s => ⟨.refl s, rfl⟩) (fun h k => ⟨h.1.trans k.1, k.2.trans h.2⟩)
    (fun s e => ⟨(complPush_complOnly ..).ringsOnly, by
      have h := complPush_complOnly s (x.1 + 1) e.2.1 e.2.2
      unfold ComplOnly at h
      rw [h]⟩) _ _

theorem heldOpen_spec (s : State) : RingsOnly s (heldOpen s) ∧ (heldOpen s).car.heldOut = [] ∧ (s.car.heldOut = [] → heldOpen s = s) := by
  have h : heldOpen s = each s.car.heldOut heldIssue { s with car := { s.car with heldOut := [] } } := rfl
  obtain ⟨honly, hempty⟩ := each_rel (R := fun s t => RingsOnly s t ∧ t.car.heldOut = s.car.heldOut) (fun s => ⟨.refl s, rfl⟩) (fun h k => ⟨h.1.trans k.1, k.2.trans h.2⟩)
    heldIssue_ringsOnly s.car.heldOut { s with car := { s.car with heldOut := [] } }
  have hopened : RingsOnly s { s with car := { s.car with heldOut := [] } } := rfl
  refine ⟨h ▸ hopened.trans honly, h ▸ hempty, fun hnone => ?_⟩
  rw [h, hnone]
  show ({ s with car := { s.car with heldOut := [] } } : State) = s
  rw [← hnone]

/-- A cause that ends leaves the request table. -/
theorem riskClear_reqs (s : State) (p cause : Nat) : (riskSet s p cause false).car.reqs = s.car.reqs ∧ (riskSet s p cause false).car.heldOut = s.car.heldOut := by
  have hevent (u : State) : (eventTo u p 97 cause).car.reqs = u.car.reqs ∧ (eventTo u p 97 cause).car.heldOut = u.car.heldOut := by
    rw [(eventTo_issueOnly u p 97 cause).1]
    exact ⟨rfl, rfl⟩
  unfold riskSet
  extract_lets v m s₁ s₂
  rw [if_neg (by simp)]
  split
  · exact hevent _
  · exact ⟨rfl, rfl⟩

theorem riskClears_spec (ps : List Nat) (cause : Nat) (s : State) :
    RiskOnly s (each ps (fun s p => riskSet s p cause false) s)
    ∧ (each ps (fun s p => riskSet s p cause false) s).car.reqs = s.car.reqs ∧ (each ps (fun s p => riskSet s p cause false) s).car.heldOut = s.car.heldOut :=
  each_rel (R := fun s t => RiskOnly s t ∧ t.car.reqs = s.car.reqs ∧ t.car.heldOut = s.car.heldOut) (fun s => ⟨.refl s, rfl, rfl⟩)
    (fun h k => ⟨h.1.trans k.1, k.2.1.trans h.2.1, k.2.2.trans h.2.2⟩) (fun _ _ => ⟨riskSet_riskOnly .., riskClear_reqs ..⟩) ps s

/-- A member that goes on alone holds nothing, and compares nothing (R447). -/
theorem goAlone_alone (s : State) : Alone (goAlone s) := by
  obtain ⟨honly, hempty, -⟩ := heldOpen_spec { s with pair := { s.pair with
    role := .active, partnerLost := true, alone := true, yielded := false, compare := [], proof := [], decisions := [], batches := [] } }
  have heq : goAlone s = each (activeParts (heldOpen { s with pair := { s.pair with
      role := .active, partnerLost := true, alone := true, yielded := false, compare := [], proof := [], decisions := [], batches := [] } })) (fun s p => riskSet s p 4 true)
      (heldOpen { s with pair := { s.pair with role := .active, partnerLost := true, alone := true, yielded := false, compare := [], proof := [], decisions := [], batches := [] } }) := rfl
  rw [heq]
  generalize heldOpen { s with pair := { s.pair with role := .active, partnerLost := true, alone := true, yielded := false, compare := [], proof := [], decisions := [], batches := [] } } = u at *
  have hrisk := risksSet_riskOnly (activeParts u) 4 true u
  generalize each (activeParts u) (fun s p => riskSet s p 4 true) u = t at *
  refine ⟨?_, ?_, ?_, ?_, ?_⟩
  · rw [hrisk, honly]
  · rw [hrisk, honly]
  · rw [hrisk, honly]
  · rw [hrisk, honly]
  · rw [hrisk]
    exact hempty

end Sys2Proof.Machine
end

section
/-! SUPPORT. O36: key slots, RMA entry and the key of group 63 (R396, R402, R409, R421, R434, R437). -/

namespace Sys2Proof.Machine

open Sys2Proof Sys2Proof.Claims

/-! ### Slot assignments (R402, R421) -/

/-- Nothing of the other slots and of memory differs. -/
def OtherSlots (s t : State) (n : Nat) : Prop := (∀ m, m ≠ n → keySlot t m = keySlot s m) ∧ t.mem = s.mem

theorem dictOnly_gate {s t : State} (h : DictOnly s t) : t.gate = s.gate := by rw [h]

theorem dictOnly_keySlot {s t : State} (h : DictOnly s t) (n : Nat) : keySlot t n = keySlot s n := by rw [keySlot, dictOnly_gate h]; rfl

theorem slotAssign_spec (s : State) (n : Nat) (kind : SlotKind) (owner : Nat) (key : Option Nat) :
    keySlot (slotAssign s n kind owner key) n = (if kind = .free then {} else { kind := kind, owner := BitVec.ofNat 6 owner, curKey := key })
    ∧ odGet (slotAssign s n kind owner key) 0x5410 (n + 1) = kindCode kind * 4096 + (if kind = .free then 0 else owner)
    ∧ OtherSlots s (slotAssign s n kind owner key) n :=
  ⟨keySlot_keySlotSet .., odGet_odSet .., fun _ hm => keySlot_keySlotSet_ne _ _ hm, rfl⟩

/-- What a stored assignment does. -/
def slotEffect (old n : Nat) (s : State) (w : Nat) : State :=
  if w = old ∧ nfld w 15 12 ≠ 0 ∨ n ≥ 60 then s
  else if (keySlot s n).kind = .xts ∨ (keySlot s n).kind = .siphash then s
  else slotAssign s n (match nfld w 15 12 with | 3 => .gcm | 4 => .trellis | _ => .free) (nfld w 5 0) none

section
variable {rq : DictReq} {n : Fin 64} {v : List Byte} {s : State} (hmay : MayStore s rq 0x5410 (n.val + 1) v)
include hmay

/-- A write of an assignment, from the value it is clamped to. -/
theorem slotWrite_runs {w : Nat} (hclamp : slotClamp n.val s (leNat v) = w) : ∃ u bs, exec (.slotAssignmentWrite rq n v) s
      = .next (dictAnswer (slotEffect (odGet s 0x5410 (n.val + 1)) n.val u w) rq 0 0x5410 (n.val + 1) bs)
    ∧ DictOnly s u ∧ odGet u 0x5410 (n.val + 1) = w := by
  obtain ⟨bs, hw⟩ := dictWrite_of_mayStore hmay (slotClamp n.val) fun s' w => slotEffect (odGet s 0x5410 (n.val + 1)) n.val s' w
  rw [hclamp] at hw
  exact ⟨_, bs, congrArg Host.Outcome.next hw, dictPut_dictOnly .., odGet_dictPut ..⟩

/-- A slot of firmware, XTS or SIPHASH keeps what it is. -/
theorem slotWrite_unchanged (h : 60 ≤ n.val ∨ (keySlot s n.val).kind = .xts ∨ (keySlot s n.val).kind = .siphash) :
    Runs (.slotAssignmentWrite rq n v) s fun t => DictOnly s t ∧ odGet t 0x5410 (n.val + 1) = odGet s 0x5410 (n.val + 1) := by
  have hclamp : slotClamp n.val s (leNat v) = odGet s 0x5410 (n.val + 1) := if_pos h
  obtain ⟨u, bs, hexec, hput, hget⟩ := slotWrite_runs hmay hclamp
  have hrest : slotEffect (odGet s 0x5410 (n.val + 1)) n.val u (odGet s 0x5410 (n.val + 1)) = u := by
    unfold slotEffect
    rw [dictOnly_keySlot hput]
    split
    · rfl
    · next hn => exact if_pos (h.resolve_left fun h60 => hn (.inr h60))
  rw [hrest] at hexec
  exact ⟨_, hexec, hput.trans (dictAnswer_dictOnly ..), (odGet_dictAnswer ..).trans hget⟩

/-- A slot that is changed is assigned afresh, without a key. -/
theorem slotWrite_assigns {w : Nat} {kind : SlotKind} (hclamp : slotClamp n.val s (leNat v) = w) (hlow : n.val < 60) (hxts : (keySlot s n.val).kind ≠ .xts)
    (hsip : (keySlot s n.val).kind ≠ .siphash) (hnew : ¬ (w = odGet s 0x5410 (n.val + 1) ∧ nfld w 15 12 ≠ 0))
    (hkind : (match nfld w 15 12 with | 3 => SlotKind.gcm | 4 => .trellis | _ => .free) = kind) :
    Runs (.slotAssignmentWrite rq n v) s fun t =>
      keySlot t n.val = (if kind = .free then {} else { kind := kind, owner := BitVec.ofNat 6 (nfld w 5 0) })
      ∧ odGet t 0x5410 (n.val + 1) = kindCode kind * 4096 + (if kind = .free then 0 else nfld w 5 0) ∧ OtherSlots s t n.val := by
  obtain ⟨u, bs, hexec, hput, hget⟩ := slotWrite_runs hmay hclamp
  have hassign : slotEffect (odGet s 0x5410 (n.val + 1)) n.val u w = slotAssign u n.val kind (nfld w 5 0) none := by
    unfold slotEffect
    rw [dictOnly_keySlot hput, if_neg (by omega), if_neg (not_or.mpr ⟨hxts, hsip⟩), hkind]
  rw [hassign] at hexec
  obtain ⟨hslot, hval, hothers, hmem⟩ := slotAssign_spec u n.val kind (nfld w 5 0) none
  generalize slotAssign u n.val kind (nfld w 5 0) none = a at *
  have hans := dictAnswer_dictOnly a rq 0 0x5410 (n.val + 1) bs
  refine ⟨_, hexec, (dictOnly_keySlot hans _).trans hslot, (odGet_dictAnswer ..).trans hval, fun m hm => ?_, ?_⟩
  · rw [dictOnly_keySlot hans, hothers m hm, dictOnly_keySlot hput]
  · rw [hans]
    exact hmem.trans (by rw [hput])

theorem slotWrite_frees (hlow : n.val < 60) (hxts : (keySlot s n.val).kind ≠ .xts) (hsip : (keySlot s n.val).kind ≠ .siphash) (hkind : nfld (leNat v) 15 12 = 0) :
    Runs (.slotAssignmentWrite rq n v) s fun t => keySlot t n.val = {} ∧ odGet t 0x5410 (n.val + 1) = 0 ∧ OtherSlots s t n.val := by
  have hclamp : slotClamp n.val s (leNat v) = 0 := by
    unfold slotClamp
    dsimp only
    rw [if_neg (by simp [hxts, hsip, hlow]), if_pos hkind]
  exact slotWrite_assigns hmay (kind := .free) hclamp hlow hxts hsip (fun h => h.2 (by decide)) (by decide)

theorem slotWrite_gives (hlow : n.val < 60) (hxts : (keySlot s n.val).kind ≠ .xts) (hsip : (keySlot s n.val).kind ≠ .siphash)
    (hkind : nfld (leNat v) 15 12 = 3 ∨ nfld (leNat v) 15 12 = 4) (hq : nfld (leNat v) 5 0 < 16) (hact : (partGet s (nfld (leNat v) 5 0)).st = .active)
    (hnew : odGet s 0x5410 (n.val + 1) ≠ nfld (leNat v) 15 12 * 4096 + nfld (leNat v) 5 0) :
    Runs (.slotAssignmentWrite rq n v) s fun t =>
      keySlot t n.val = { kind := if nfld (leNat v) 15 12 = 3 then .gcm else .trellis, owner := BitVec.ofNat 6 (nfld (leNat v) 5 0) }
      ∧ odGet t 0x5410 (n.val + 1) = nfld (leNat v) 15 12 * 4096 + nfld (leNat v) 5 0 ∧ OtherSlots s t n.val := by
  have hclamp : slotClamp n.val s (leNat v) = nfld (leNat v) 15 12 * 4096 + nfld (leNat v) 5 0 := by
    unfold slotClamp
    dsimp only
    rw [if_neg (by simp [hxts, hsip, hlow]), if_neg (by omega), if_pos ⟨hkind, hq, hact⟩]
  generalize nfld (leNat v) 5 0 = q at *
  generalize nfld (leNat v) 15 12 = k at *
  have hfields : nfld (k * 4096 + q) 15 12 = k ∧ nfld (k * 4096 + q) 5 0 = q := by
    simp only [nfld_eq, Nat.reduceAdd, Nat.reduceSub, Nat.reducePow]
    omega
  have h := slotWrite_assigns hmay (kind := if k = 3 then .gcm else .trellis) hclamp hlow hxts hsip (fun h => hnew h.1.symm)
  rw [hfields.1, hfields.2] at h
  rcases hkind with rfl | rfl
  · exact h rfl
  · exact h rfl

end

/-! ### The key of group 63 (R409, R434) -/

/-- The pair's state once a partner has its key. -/
def pairFresh (s : State) : State := { s with pair := { s.pair with
  partnerLost := false, alone := false, degraded := false, dirty := mkeys s.car.reqs, tokSent := [], retSent := [], out := none, baseline := false } }

/-- The pair's state, its step numbers counting afresh where there was no partner. -/
def pairJoined (s : State) : State :=
  if s.pair.partnerLost || s.pair.alone || s.pair.role == .unpaired || s.pair.role == .joining then seqRestart (pairFresh s) else pairFresh s

theorem seqRestart_spec (s : State) : (seqRestart s).gate = s.gate ∧ (seqRestart s).mem = s.mem ∧ (seqRestart s).pair.role = s.pair.role
    ∧ (seqRestart s).pair.partnerLost = s.pair.partnerLost ∧ (seqRestart s).pair.alone = s.pair.alone ∧ (seqRestart s).pair.stepSeq = []
    ∧ (s.car.heldOut = [] → (seqRestart s).car.reqs = s.car.reqs) := by
  have h : seqRestart s = { heldAll s with pair := { (heldAll s).pair with stepSeq := [] } } := rfl
  obtain ⟨honly, -, hnone⟩ := heldOpen_spec { s with pair := { s.pair with compare := [], proof := [], decisions := [], batches := [] } }
  have heq : heldAll s = heldOpen { s with pair := { s.pair with compare := [], proof := [], decisions := [], batches := [] } } := rfl
  rw [← heq] at honly hnone
  rw [h]
  generalize heldAll s = u at *
  refine ⟨?_, ?_, ?_, ?_, ?_, rfl, fun hempty => by rw [hnone hempty]⟩
  · show u.gate = _
    rw [honly]
  · show u.mem = _
    rw [honly]
  · show u.pair.role = _
    rw [honly]
  · show u.pair.partnerLost = _
    rw [honly]
  · show u.pair.alone = _
    rw [honly]

theorem pairJoined_spec (s : State) : (pairJoined s).gate = s.gate ∧ (pairJoined s).mem = s.mem ∧ (pairJoined s).pair.role = s.pair.role
    ∧ (pairJoined s).pair.partnerLost = false ∧ (pairJoined s).pair.alone = false
    ∧ (s.pair.role = .unpaired ∨ s.pair.partnerLost = true ∨ s.pair.alone = true → (pairJoined s).pair.stepSeq = [])
    ∧ (s.car.heldOut = [] → (pairJoined s).car.reqs = s.car.reqs) := by
  unfold pairJoined
  split
  · obtain ⟨hgate, hmem, hrole, hlost, halone, hseq, hreqs⟩ := seqRestart_spec (pairFresh s)
    exact ⟨hgate, hmem, hrole, hlost, halone, fun _ => hseq, hreqs⟩
  · next h =>
    refine ⟨rfl, rfl, rfl, rfl, rfl, fun hcount => absurd ?_ h, fun _ => rfl⟩
    rcases hcount with h | h | h
    · simp [h]
    · simp [h]
    · simp [h]

theorem armTell_linkOnly (s : State) : LinkOnly s (armTell s) := by
  unfold armTell
  split
  · exact g63Send_linkOnly ..
  · exact .refl s

/-- The role that an agreement leaves, by the role before. -/
def joinedRole (parts : List Nat) (mode : Nat) (r : Role) : Role :=
  match r with
  | .unpaired => if parts = [] then (if mode = 2 then .follower else .joining) else .active
  | .joining => if mode = 2 then .follower else .joining
  | r => r

/-- The slot that an agreement fills, and the causes that end with it. -/
def groupKeyed (s : State) (key : Nat) : State :=
  each (activeParts (slotAssign (freeSteps s 2) 62 .trellis 0x3F (some key))) (fun s p => riskSet s p 4 false) (slotAssign (freeSteps s 2) 62 .trellis 0x3F (some key))

theorem groupKeyed_spec (s : State) (key : Nat) : (groupKeyed s key).gate = { s.gate with slots := (groupKeyed s key).gate.slots }
    ∧ keySlot (groupKeyed s key) 62 = { kind := .trellis, owner := 0x3F, curKey := some key } ∧ (∀ m, m ≠ 62 → keySlot (groupKeyed s key) m = keySlot s m)
    ∧ (groupKeyed s key).mem = s.mem ∧ (groupKeyed s key).car.reqs = s.car.reqs ∧ (groupKeyed s key).car.heldOut = s.car.heldOut
    ∧ (groupKeyed s key).pair = { s.pair with dirty := (groupKeyed s key).pair.dirty } := by
  obtain ⟨honly, hreqs, hheld⟩ := riskClears_spec (activeParts (slotAssign (freeSteps s 2) 62 .trellis 0x3F (some key))) 4 (slotAssign (freeSteps s 2) 62 .trellis 0x3F (some key))
  obtain ⟨hslot, -, hothers, hmem⟩ := slotAssign_spec (freeSteps s 2) 62 .trellis 0x3F (some key)
  have heq : groupKeyed s key = each (activeParts (slotAssign (freeSteps s 2) 62 .trellis 0x3F (some key))) (fun s p => riskSet s p 4 false)
    (slotAssign (freeSteps s 2) 62 .trellis 0x3F (some key)) := rfl
  rw [← heq] at honly hreqs hheld
  have hassign : (slotAssign (freeSteps s 2) 62 .trellis 0x3F (some key)).gate = { s.gate with slots := (slotAssign (freeSteps s 2) 62 .trellis 0x3F (some key)).gate.slots }
      ∧ (slotAssign (freeSteps s 2) 62 .trellis 0x3F (some key)).car = s.car ∧ (slotAssign (freeSteps s 2) 62 .trellis 0x3F (some key)).pair = s.pair := ⟨rfl, rfl, rfl⟩
  obtain ⟨hgate, hcar, hpair⟩ := hassign
  generalize groupKeyed s key = u at *
  generalize slotAssign (freeSteps s 2) 62 .trellis 0x3F (some key) = a at *
  have hsame : u.gate = a.gate := by rw [honly]
  have hkey (m : Nat) : keySlot u m = keySlot a m := by rw [keySlot, hsame]; rfl
  refine ⟨by rw [hsame]; exact hgate, (hkey 62).trans hslot, fun m hm => (hkey m).trans (hothers m hm), ?_, by rw [hreqs, hcar], by rw [hheld, hcar], ?_⟩
  · rw [honly]
    exact hmem
  · rw [← hpair, honly]

/-- The state that an agreement ends in, before the armed instant is told. -/
def groupJoined (s : State) (key : Nat) : State :=
  { pairJoined (groupKeyed s key) with pair := { (pairJoined (groupKeyed s key)).pair with role := joinedRole (activeParts s) (odGet s 0x6400 0) s.pair.role } }

theorem activeParts_groupKeyed (s : State) (key : Nat) : activeParts (groupKeyed s key) = activeParts s := by
  unfold activeParts
  rw [(groupKeyed_spec s key).1]

/-- A role stored as it is changes nothing. -/
theorem role_stored {s : State} {r : Role} (h : s.pair.role = r) : s = { s with pair := { s.pair with role := r } } := by rw [← h]

/-- The last stage of an agreement, by the role before. -/
def joinTold (parts : List Nat) (mode : Nat) (u : State) (r : Role) : Res :=
  match r with
  | .unpaired => .next (armTell { u with pair := { u.pair with role := if parts = [] then (if mode = 2 then .follower else .joining) else .active } })
  | .joining => .next (armTell { u with pair := { u.pair with role := if mode = 2 then .follower else .joining } })
  | _ => .next (armTell u)

theorem joinTold_eq (parts : List Nat) (mode : Nat) {u : State} {r : Role} (h : u.pair.role = r) :
    joinTold parts mode u r = .next (armTell { u with pair := { u.pair with role := joinedRole parts mode r } }) := by
  have hself (q : Role) (hq : r = q) : (.next (armTell u) : Res) = .next (armTell { u with pair := { u.pair with role := q } }) := by
    rw [← role_stored (h.trans hq)]
  unfold joinTold joinedRole
  cases r with
  | unpaired => rfl
  | joining => rfl
  | active => exact hself _ rfl
  | standby => exact hself _ rfl
  | takingOver => exact hself _ rfl
  | rehearsing => exact hself _ rfl
  | failed => exact hself _ rfl
  | follower => exact hself _ rfl

section
variable {s : State} {serial : BitVec 128} {edPub mlPub : Nat} {d : BitVec 384} {ed ml : Nat} {x : BitVec 256} {ct : Nat}
  (hgate : s.tray.hub.gatehouse = true) (htrl : trlOn s = true) (hid : s.gate.identityOff = false) (hfailed : s.tray.failed = false)
  (hmode : odGet s 0x6400 0 ≠ 0) (hslot : odGet s 0x6401 0 ≠ 0xFF)

/-- The peer's certificate and its report verify. -/
def groupGood (s : State) (serial : BitVec 128) (edPub mlPub : Nat) (d : BitVec 384) (ed ml : Nat) : Bool :=
  peerCertified s serial.toNat edPub mlPub && Config.ed25519Verify edPub d ed && Config.mldsaVerify mlPub d ml

theorem groupGood_iff : groupGood s serial edPub mlPub d ed ml = true ↔
    (((s.fuses.rootARevoked = false ∧ Config.certified s.fuses.rootA serial.toNat edPub mlPub = true) ∨ Config.certified s.fuses.rootB serial.toNat edPub mlPub = true)
      ∧ Config.ed25519Verify edPub d ed = true ∧ Config.mldsaVerify mlPub d ml = true) := by
  unfold groupGood peerCertified
  simp only [Bool.and_eq_true, Bool.or_eq_true, Bool.not_eq_true', and_assoc]

theorem group63_refused (h : groupGood s serial edPub mlPub d ed ml = false) : exec (.group63KeyAgreement serial edPub mlPub d ed ml x ct) s = .next s := by
  unfold groupGood at h
  refine if_pos ?_
  rw [h]
  simp

include hgate htrl hid hfailed hmode hslot in
theorem group63_agrees (h : groupGood s serial edPub mlPub d ed ml = true) :
    ∃ key, exec (.group63KeyAgreement serial edPub mlPub d ed ml x ct) s = .next (armTell (groupJoined s key)) := by
  unfold groupGood at h
  have hno : ¬ ((!s.tray.hub.gatehouse || !trlOn s || s.gate.identityOff || s.tray.failed
      || !(peerCertified s serial.toNat edPub mlPub && Config.ed25519Verify edPub d ed && Config.mldsaVerify mlPub d ml)
      || odGet s 0x6400 0 == 0 || odGet s 0x6401 0 == 0xFF) = true) := by
    simp [hgate, htrl, hid, hfailed, h, hmode, hslot]
  refine ⟨Config.hkdf (Config.x25519 (Config.freeNat s.freeCtr) x.toNat + Config.mlkemDecap (Config.freeNat (s.freeCtr + 1)) ct * 2 ^ 256) d.toNat "mlrn kw?",
    (if_neg hno).trans ?_⟩
  generalize Config.hkdf (Config.x25519 (Config.freeNat s.freeCtr) x.toNat + Config.mlkemDecap (Config.freeNat (s.freeCtr + 1)) ct * 2 ^ 256) d.toNat "mlrn kw?" = key
  have hrole : (groupKeyed s key).pair.role = s.pair.role := by rw [(groupKeyed_spec s key).2.2.2.2.2.2]
  have htold : joinTold (activeParts (groupKeyed s key)) (odGet s 0x6400 0) (pairJoined (groupKeyed s key)) (groupKeyed s key).pair.role = .next (armTell (groupJoined s key)) := by
    rw [activeParts_groupKeyed, hrole]
    exact joinTold_eq _ _ ((pairJoined_spec _).2.2.1.trans hrole)
  exact htold

theorem group63_joined (s : State) (key : Nat) : let t := armTell (groupJoined s key)
    keySlot t 62 = { kind := .trellis, owner := 0x3F, curKey := some key } ∧ (∀ m, m ≠ 62 → keySlot t m = keySlot s m)
    ∧ t.pair.role = joinedRole (activeParts s) (odGet s 0x6400 0) s.pair.role
    ∧ (s.pair.role = .unpaired ∨ s.pair.partnerLost = true ∨ s.pair.alone = true → t.pair.stepSeq = [])
    ∧ t.pair.partnerLost = false ∧ t.pair.alone = false ∧ t.mem = s.mem ∧ (s.car.heldOut = [] → t.car.reqs = s.car.reqs) := by
  intro t
  have ht : LinkOnly (groupJoined s key) t := armTell_linkOnly _
  obtain ⟨-, hslot, hothers, hmem, hreqs, hheld, hpair⟩ := groupKeyed_spec s key
  obtain ⟨jgate, jmem, -, jlost, jalone, jseq, jreqs⟩ := pairJoined_spec (groupKeyed s key)
  have hjoin : groupJoined s key = { pairJoined (groupKeyed s key) with pair := { (pairJoined (groupKeyed s key)).pair with role := joinedRole (activeParts s) (odGet s 0x6400 0) s.pair.role } } := rfl
  clear_value t
  generalize groupJoined s key = w at *
  generalize pairJoined (groupKeyed s key) = j at *
  generalize groupKeyed s key = u at *
  have hkey (m : Nat) : keySlot t m = keySlot u m := by
    have : t.gate = u.gate := by
      rw [ht, hjoin]
      exact jgate
    rw [keySlot, this]
    rfl
  have htpair : t.pair = { j.pair with role := joinedRole (activeParts s) (odGet s 0x6400 0) s.pair.role } := by rw [ht, hjoin]
  have htcar : t.car = j.car := by rw [ht, hjoin]
  refine ⟨(hkey 62).trans hslot, fun m hm => (hkey m).trans (hothers m hm), by rw [htpair], fun hcount => ?_, by rw [htpair]; exact jlost, by rw [htpair]; exact jalone, ?_, fun hempty => ?_⟩
  · rw [htpair]
    exact jseq (by rw [hpair]; exact hcount)
  · rw [ht, hjoin]
    exact jmem.trans hmem
  · rw [htcar, jreqs (by rw [hheld]; exact hempty), hreqs]

end

/-- Settles O36: assignments by their clamp, RMA entry, and the agreement by what it leaves. -/
theorem slotsLifecycleAndPairKey : Obligations.SlotsLifecycleAndPairKey := by
  refine ⟨fun rq n v s hmay => ⟨slotWrite_unchanged hmay, fun hlow hxts hsip => ⟨slotWrite_frees hmay hlow hxts hsip, slotWrite_gives hmay hlow hxts hsip⟩⟩,
    fun ed ml edPub mlPub s hon => ⟨?_, fun serial hne => ⟨s, if_pos ?_, rfl⟩⟩, fun serial edPub mlPub d ed ml x ct s hon htrl hid hfailed hmode hslot => ?_⟩
  case refine_1 =>
    by_cases hok : s.fuses.lifecycle = .secured ∧ dualOk s edPub mlPub (Config.sha384 (leBytes 16 s.fuses.serial.toNat)) ed ml = true
    · refine ⟨_, if_neg ?_, fun _ => ⟨rfl, fun x hx => ?_, rfl, rfl, rfl, rfl⟩, fun h => absurd hok h⟩
      · simp [hon, hok.1, hok.2]
      · obtain ⟨y, -, rfl⟩ := List.mem_map.mp hx
        exact ⟨rfl, rfl, rfl⟩
    · refine ⟨s, if_pos ?_, fun h => absurd h hok, fun _ => rfl⟩
      rcases not_and_or.mp hok with h | h
      · exact .inr (.inl h)
      · exact .inr (.inr (.inr (by simp [h])))
  case refine_2 => exact .inr (.inr (.inl hne))
  case refine_3 =>
    cases hgood : groupGood s serial edPub mlPub d ed ml with
    | false => exact ⟨s, group63_refused hgood, fun _ => rfl, fun h => absurd (groupGood_iff.mpr h) (by rw [hgood]; decide)⟩
    | true =>
      obtain ⟨key, hexec⟩ := group63_agrees (x := x) (ct := ct) hon htrl hid hfailed hmode hslot hgood
      obtain ⟨hkey, hothers, hrole, hseq, hlost, halone, hmem, hreqs⟩ := group63_joined s key
      refine ⟨_, hexec, fun h => absurd (groupGood_iff.mp hgood) h, fun _ => ⟨⟨key, hkey⟩, hothers, ⟨fun h => ?_, fun h => ?_, fun h h' => ?_⟩, hseq, hlost, halone, hmem, hreqs⟩⟩
      · rw [hrole, h]
        by_cases hparts : activeParts s = []
        · simp [joinedRole, hparts]
        · simp [joinedRole, hparts]
      · rw [hrole, h]
        rfl
      · rw [hrole]
        unfold joinedRole
        cases hr : s.pair.role with
        | unpaired => exact absurd hr h
        | joining => exact absurd hr h'
        | active => rfl
        | standby => rfl
        | takingOver => rfl
        | rehearsing => rfl
        | failed => rfl
        | follower => rfl

end Sys2Proof.Machine
end

section
/-! SUPPORT. O39: pair members compare step values and prove themselves (R445 to R448). -/

namespace Sys2Proof.Machine

open Sys2Proof Sys2Proof.Claims

/-! ### Values of a step (R446, R447) -/

/-- The partner's value, noted with what is known of the step. -/
def partnerNoted (s : State) (k seq : Nat) (v : BitVec 64) : State :=
  { s with pair := { s.pair with compare := mset s.pair.compare k { mgetD s.pair.compare k { seq := seq } with partner := some v } } }

section
variable {p : PartId} {seq : Nat} {v : BitVec 64} {s : State}

theorem exec_stepCheckValueReceive (hcomp : comparing s = true) (hup : g63Up s = true) :
    exec (.stepCheckValueReceive p seq v) s = .next (compareNow (partnerNoted s (16 * seq + p.val) seq v) p.val seq) := if_neg (by simp [hcomp, hup])

theorem compareNow_waits {a : Option (BitVec 64)} (hown : (mgetD s.pair.compare (16 * seq + p.val) { seq := seq }).own = a) (h : a = none) :
    compareNow (partnerNoted s (16 * seq + p.val) seq v) p.val seq = partnerNoted s (16 * seq + p.val) seq v := by
  have hget : mget (partnerNoted s (16 * seq + p.val) seq v).pair.compare (16 * seq + p.val)
    = some { mgetD s.pair.compare (16 * seq + p.val) { seq := seq } with partner := some v } := mget_mset_same ..
  unfold compareNow
  dsimp only
  rw [hget]
  dsimp only
  rw [hown, h]

/-- The entry of a step compared is gone. -/
def compared (s : State) (k : Nat) : State := { s with pair := { s.pair with compare := mdel s.pair.compare k } }

/-- Values that agree end the proof test that the partition waited for. -/
def comparedSame (s : State) (k p : Nat) : State :=
  { compared s k with pair := { (compared s k).pair with proof := (compared s k).pair.proof.filter fun x => x != p } }

/-- Values that differ begin one. -/
def comparedOther (s : State) (k p : Nat) : State :=
  { compared s k with pair := { (compared s k).pair with proof := if (compared s k).pair.proof.contains p then (compared s k).pair.proof else p :: (compared s k).pair.proof } }

theorem compareNow_meets {a : BitVec 64} (hown : (mgetD s.pair.compare (16 * seq + p.val) { seq := seq }).own = some a) :
    compareNow (partnerNoted s (16 * seq + p.val) seq v) p.val seq =
      if a = v then heldRelease (comparedSame (partnerNoted s (16 * seq + p.val) seq v) (16 * seq + p.val) p.val) p.val seq
      else bump32 (bump32 (comparedOther (partnerNoted s (16 * seq + p.val) seq v) (16 * seq + p.val) p.val) 0x640A 0) 0x6805 1 := by
  have hget : mget (partnerNoted s (16 * seq + p.val) seq v).pair.compare (16 * seq + p.val)
    = some { mgetD s.pair.compare (16 * seq + p.val) { seq := seq } with partner := some v } := mget_mset_same ..
  conv_lhs => unfold compareNow
  dsimp only
  rw [hget]
  dsimp only
  rw [hown]
  rfl

/-- What was held for a step of a partition is held no more. -/
def heldCut (s : State) (p seq : Nat) : State :=
  let rest := (mgetD s.car.heldOut p []).filter fun x => x.1 != seq
  { s with car := { s.car with heldOut := if rest = [] then mdel s.car.heldOut p else mset s.car.heldOut p rest } }

/-- What was held for the step goes out, and the rest stays held. -/
theorem heldRelease_spec (s : State) (p seq : Nat) : RingsOnly s (heldRelease s p seq)
    ∧ mgetD (heldRelease s p seq).car.heldOut p [] = (mgetD s.car.heldOut p []).filter fun x => x.1 != seq := by
  have heq : heldRelease s p seq
    = each ((mgetD s.car.heldOut p []).filter fun x => x.1 == seq) (fun s x => complPush s (p + 1) x.2.1 x.2.2) (heldCut s p seq) := rfl
  have hcut : mgetD (heldCut s p seq).car.heldOut p [] = (mgetD s.car.heldOut p []).filter fun x => x.1 != seq := by
    unfold heldCut
    dsimp only
    split
    · next h => rw [mgetD, mget_mdel, if_pos rfl, h]; rfl
    · exact mgetD_mset_same ..
  have h₁ : RingsOnly s (heldCut s p seq) := rfl
  obtain ⟨honly, hheld⟩ := each_rel (α := Nat × Nat × BitVec 256) (R := fun s t => RingsOnly s t ∧ t.car.heldOut = s.car.heldOut) (fun s => ⟨.refl s, rfl⟩)
    (fun h k => ⟨h.1.trans k.1, k.2.trans h.2⟩) (f := fun s x => complPush s (p + 1) x.2.1 x.2.2)
    (fun s e => ⟨(complPush_complOnly ..).ringsOnly, by
      have h := complPush_complOnly s (p + 1) e.2.1 e.2.2
      unfold ComplOnly at h
      rw [h]⟩) ((mgetD s.car.heldOut p []).filter fun x => x.1 == seq) (heldCut s p seq)
  rw [heq]
  exact ⟨h₁.trans honly, by rw [hheld, hcut]⟩

theorem stepCheck_noted (hcomp : comparing s = true) (hup : g63Up s = true) (hown : (mgetD s.pair.compare (16 * seq + p.val) { seq := seq }).own = none) :
    Runs (.stepCheckValueReceive p seq v) s fun t =>
      mget t.pair.compare (16 * seq + p.val) = some { mgetD s.pair.compare (16 * seq + p.val) { seq := seq } with partner := some v }
      ∧ t = { s with pair := { s.pair with compare := t.pair.compare } } := by
  refine ⟨_, exec_stepCheckValueReceive hcomp hup, ?_⟩
  rw [compareNow_waits hown rfl]
  exact ⟨mget_mset_same .., rfl⟩

theorem stepCheck_agrees (hcomp : comparing s = true) (hup : g63Up s = true) (hown : (mgetD s.pair.compare (16 * seq + p.val) { seq := seq }).own = some v) :
    Runs (.stepCheckValueReceive p seq v) s fun t => mget t.pair.compare (16 * seq + p.val) = none ∧ p.val ∉ t.pair.proof
      ∧ (mgetD t.car.heldOut p.val []) = (mgetD s.car.heldOut p.val []).filter fun x => x.1 != seq := by
  refine ⟨_, exec_stepCheckValueReceive hcomp hup, ?_⟩
  rw [compareNow_meets hown, if_pos rfl]
  have hgone : mget (comparedSame (partnerNoted s (16 * seq + p.val) seq v) (16 * seq + p.val) p.val).pair.compare (16 * seq + p.val) = none :=
    (mget_mdel ..).trans (if_pos rfl)
  have hproof : p.val ∉ (comparedSame (partnerNoted s (16 * seq + p.val) seq v) (16 * seq + p.val) p.val).pair.proof := by simp [comparedSame]
  have hheld : (comparedSame (partnerNoted s (16 * seq + p.val) seq v) (16 * seq + p.val) p.val).car = s.car := rfl
  generalize comparedSame (partnerNoted s (16 * seq + p.val) seq v) (16 * seq + p.val) p.val = u at *
  obtain ⟨honly, hrest⟩ := heldRelease_spec u p.val seq
  have hpair : (heldRelease u p.val seq).pair = { u.pair with dirty := (heldRelease u p.val seq).pair.dirty } := congrArg (fun s => s.pair) honly
  rw [hheld] at hrest
  exact ⟨by rw [hpair]; exact hgone, by rw [hpair]; exact hproof, hrest⟩

theorem stepCheck_differs {a : BitVec 64} (hcomp : comparing s = true) (hup : g63Up s = true) (hown : (mgetD s.pair.compare (16 * seq + p.val) { seq := seq }).own = some a)
    (hne : a ≠ v) : Runs (.stepCheckValueReceive p seq v) s fun t => mget t.pair.compare (16 * seq + p.val) = none ∧ p.val ∈ t.pair.proof ∧ t.car = s.car ∧ t.out = s.out
      ∧ odGet t 0x640A 0 = min (odGet s 0x640A 0 + 1) (2 ^ 32 - 1) ∧ odGet t 0x6805 1 = min (odGet s 0x6805 1 + 1) (2 ^ 32 - 1) := by
  refine ⟨_, exec_stepCheckValueReceive hcomp hup, ?_⟩
  rw [compareNow_meets hown, if_neg hne]
  have hgone : mget (comparedOther (partnerNoted s (16 * seq + p.val) seq v) (16 * seq + p.val) p.val).pair.compare (16 * seq + p.val) = none :=
    (mget_mdel ..).trans (if_pos rfl)
  have hproof : p.val ∈ (comparedOther (partnerNoted s (16 * seq + p.val) seq v) (16 * seq + p.val) p.val).pair.proof := by
    unfold comparedOther
    dsimp only
    split
    · next h => exact List.contains_iff_mem.mp h
    · exact List.mem_cons_self
  have hsame : (comparedOther (partnerNoted s (16 * seq + p.val) seq v) (16 * seq + p.val) p.val).car = s.car
    ∧ (comparedOther (partnerNoted s (16 * seq + p.val) seq v) (16 * seq + p.val) p.val).out = s.out
    ∧ (comparedOther (partnerNoted s (16 * seq + p.val) seq v) (16 * seq + p.val) p.val).pav = s.pav := ⟨rfl, rfl, rfl⟩
  generalize comparedOther (partnerNoted s (16 * seq + p.val) seq v) (16 * seq + p.val) p.val = u at *
  obtain ⟨hcar, hout, hpav⟩ := hsame
  have hval (i j : Nat) : odGet u i j = odGet s i j := by rw [odGet, hpav]; rfl
  refine ⟨hgone, hproof, hcar, hout, ?_, ?_⟩
  · refine (odGet_bumpBy_ne _ _ _ (by decide)).trans ((odGet_bumpBy ..).trans ?_)
    rw [hval]
  · refine (odGet_bumpBy ..).trans ?_
    have hkeep : odGet (bump32 u 0x640A 0) 0x6805 1 = odGet u 0x6805 1 := odGet_bumpBy_ne _ _ _ (by decide)
    rw [hkeep, hval]

end

/-! ### The proof test (R447) -/

section
variable {p : PartId} {r : ProofOutcome} {s : State} (hin : p.val ∈ s.pair.proof)
include hin

theorem exec_proofTestResult : exec (.proofTestResult p r) s = (
    let i : LogInfo := { cls := 5, block := 8, part := p.val }
    if !r.ownPass ∧ !r.partnerPass then .next (declareFailed s i)
    else if !r.ownPass then .next (declareFailed (sendYield s) i)
    else if !r.partnerPass then .next (goAlone s)
    else if !r.secondMismatch then .next (compareAgain s p)
    else if s.pair.role = .follower then .next (sendYield s)
    else .next (goAlone s)) := if_neg (by simp [hin])

omit hin in
/-- A tray that fails stays yielded if it was. -/
theorem declareFailed_yielded (s : State) (i : LogInfo) : (declareFailed s i).pair.yielded = s.pair.yielded := by
  unfold declareFailed
  split
  · rfl
  · have h := (logErr_workOnly s { i with cls := 5, action := 7 }).trans (rehearsalLeave_workOnly _)
    have hpair : (rehearsalLeave (logErr s { i with cls := 5, action := 7 })).pair.yielded = s.pair.yielded := by rw [h.1]
    exact hpair

theorem proofTest_fails (hup : s.tray.failed = false) (hown : r.ownPass = false) :
    Runs (.proofTestResult p r) s fun t => Failed t ∧ (r.partnerPass = true → t.pair.yielded = true) := by
  cases hpart : r.partnerPass with
  | false => exact ⟨_, (exec_proofTestResult hin).trans (if_pos (by simp [hown, hpart])), declareFailed_failed _ hup, fun h => absurd h (by decide)⟩
  | true =>
    refine ⟨_, (exec_proofTestResult hin).trans ((if_neg (by simp [hpart])).trans (if_pos (by simp [hown]))), declareFailed_failed _ hup, fun _ => ?_⟩
    exact declareFailed_yielded ..

theorem proofTest_alone (hown : r.ownPass = true) (hpart : r.partnerPass = false) : Runs (.proofTestResult p r) s Alone :=
  ⟨_, (exec_proofTestResult hin).trans ((if_neg (by simp [hown])).trans ((if_neg (by simp [hown])).trans (if_pos (by simp [hpart])))), goAlone_alone s⟩

theorem proofTest_again (hown : r.ownPass = true) (hpart : r.partnerPass = true) (hsecond : r.secondMismatch = false) :
    exec (.proofTestResult p r) s = .next (compareAgain s p) :=
  (exec_proofTestResult hin).trans ((if_neg (by simp [hown])).trans ((if_neg (by simp [hown])).trans ((if_neg (by simp [hpart])).trans (if_pos (by simp [hsecond])))))

theorem proofTest_second (hown : r.ownPass = true) (hpart : r.partnerPass = true) (hsecond : r.secondMismatch = true) :
    exec (.proofTestResult p r) s = if s.pair.role = .follower then .next (sendYield s) else .next (goAlone s) :=
  (exec_proofTestResult hin).trans ((if_neg (by simp [hown])).trans ((if_neg (by simp [hown])).trans ((if_neg (by simp [hpart])).trans (if_neg (by simp [hsecond])))))

end

/-- The tray's own value of a step, noted afresh. -/
def compareOwn (s : State) (p : PartId) : State :=
  let seq := mgetD s.pair.stepSeq p.val 0
  { s with pair := { s.pair with compare := mset s.pair.compare (16 * seq + p.val) { seq := seq, own := some (mgetD s.cvu.step p.val 0) } } }

theorem g63Up_compareOwn (s : State) (p : PartId) : g63Up (compareOwn s p) = g63Up s := rfl

/-- The value of the step, sent again. -/
theorem compareAgain_spec (s : State) (p : PartId) :
    let seq := mgetD s.pair.stepSeq p.val 0
    let v := mgetD s.cvu.step p.val 0
    let t := compareAgain s p
    (g63Up s = true → .stepCheck p seq v ∈ t.out) ∧ (g63Up s = false → t.out = s.out)
    ∧ mget t.pair.compare (16 * seq + p.val) = some { seq := seq, own := some v } ∧ t = { s with pair := { s.pair with compare := t.pair.compare }, trl := t.trl, out := t.out } := by
  intro seq v t
  have ht : t = g63Send (compareOwn s p) (.stepCheck p seq v) ([0x12, BitVec.ofNat 8 p.val] ++ leBytes 8 seq ++ leBytes 8 v.toNat) := rfl
  have hup := g63Up_compareOwn s p
  have hown : compareOwn s p = { s with pair := { s.pair with compare := (compareOwn s p).pair.compare } } := rfl
  have hget : mget (compareOwn s p).pair.compare (16 * seq + p.val) = some { seq := seq, own := some v } := mget_mset_same ..
  clear_value t
  subst ht
  generalize compareOwn s p = u at *
  have hlink := g63Send_linkOnly u (.stepCheck p seq v) ([0x12, BitVec.ofNat 8 p.val] ++ leBytes 8 seq ++ leBytes 8 v.toNat)
  refine ⟨fun h => mem_g63Send (hup.trans h) .., fun h => ?_, ?_, ?_⟩
  · rw [g63Send_down (hup.trans h), hown]
  · rw [hlink]
    exact hget
  · rw [hlink, hown]

/-- Settles O39: the leader's messages, a step's values, the proof test and the armed instants, each by its own lemma. -/
theorem membersCompareAndProve : Obligations.MembersCompareAndProve := by
  refine ⟨fun s => ⟨fun hrole hup => ?_, fun h m => ⟨s, if_pos (h.imp id fun h => by simp [h]), rfl⟩⟩, fun p seq v s => ⟨fun h => ⟨s, if_pos ?_, rfl⟩, fun hcomp hup => ?_⟩, fun p r s hup => ?_, fun i s => ⟨fun hpair hup => ?_, fun h => ⟨s, if_neg ?_, rfl⟩⟩⟩
  case refine_1 =>
    have hgo : ¬ (s.pair.role ≠ .follower ∨ (!g63Up s) = true) := by simp [hrole, hup]
    exact ⟨fun d => ⟨_, if_neg hgo, rfl⟩, fun p id l => ⟨_, if_neg hgo, mget_mset_same .., fun q hq => mget_mset_ne _ _ hq, rfl⟩⟩
  case refine_2 =>
    rcases h with h | h
    · simp [h]
    · simp [h]
  case refine_3 =>
    exact ⟨stepCheck_noted hcomp hup, stepCheck_agrees hcomp hup, fun a hown hne => stepCheck_differs hcomp hup hown hne⟩
  case refine_4 =>
    refine ⟨fun hout => ⟨s, if_pos (by simp [hout]), rfl⟩, fun hin => ⟨proofTest_fails hin hup, proofTest_alone hin, fun hown hpart hsecond => ⟨_, proofTest_again hin hown hpart hsecond, compareAgain_spec s p⟩,
      fun hown hpart hsecond => ⟨fun hrole => ⟨_, (proofTest_second hin hown hpart hsecond).trans (if_pos hrole), rfl⟩, fun hrole => ⟨_, (proofTest_second hin hown hpart hsecond).trans (if_neg hrole), goAlone_alone s⟩⟩⟩⟩
  case refine_5 => exact ⟨_, if_pos ⟨by simp [paired, hpair], hup⟩, rfl⟩
  case refine_6 =>
    rcases h with h | h
    · simp [paired, h]
    · simp [h]

end Sys2Proof.Machine
end

section
/-! SUPPORT. O34: revocation, scrubbing and key sweeps (R410 to R412, R414, R417, R432). -/

namespace Sys2Proof.Machine

open Sys2Proof Sys2Proof.Claims

/-! ### The map of granules -/

/-- The map of granules, HBM and the fuses stay. -/
def MapKept (s t : State) : Prop := t.mem = { s.mem with sram := t.mem.sram, lines := t.mem.lines } ∧ t.fuses = s.fuses

theorem MapKept.refl (s : State) : MapKept s s := ⟨rfl, rfl⟩

theorem MapKept.trans {s t u : State} (h : MapKept s t) (k : MapKept t u) : MapKept s u := by
  obtain ⟨hmem, hfuses⟩ := h
  obtain ⟨kmem, kfuses⟩ := k
  exact ⟨by rw [kmem, hmem], kfuses.trans hfuses⟩

theorem granBacked_fuses {s t : State} (h : t.fuses = s.fuses) (g : Nat) : granBacked t g = granBacked s g := by
  unfold granBacked populated
  rw [h]

theorem granReserved_fuses {s t : State} (h : t.fuses = s.fuses) (g : Nat) : granReserved t g = granReserved s g := by
  unfold granReserved
  rw [granBacked_fuses h]
  unfold populated
  rw [h]

/-- An entry of the map, read with the fuses of another state. -/
theorem granGet_fuses {s t : State} (h : t.fuses = s.fuses) (g : Nat) : granGet t g =
    if !granBacked s g then { st := .free }
    else if granReserved s g then (mget t.mem.granules g).getD { st := .owned, owner := 0x3F, slot := 63 }
    else (mget t.mem.granules g).getD t.mem.mapBase := by
  unfold granGet
  rw [granBacked_fuses h, granReserved_fuses h]

theorem MapKept.granGet {s t : State} (h : MapKept s t) (g : Nat) : granGet t g = granGet s g := by
  rw [granGet_fuses h.2, granGet_fuses (s := s) rfl, h.1]

theorem MapKept.granKeys {s t : State} (h : MapKept s t) : granKeys t = granKeys s := by
  unfold Machine.granKeys
  rw [h.1]

theorem WorkOnly.mapKept {s t : State} (h : WorkOnly s t) : MapKept s t := by
  obtain ⟨h, -⟩ := h
  exact ⟨by rw [h], by rw [h]⟩

theorem WorkOnly.gate {s t : State} (h : WorkOnly s t) : t.gate = s.gate := by rw [h.1]

/-- An entry written is read, where the granule is backed, and no other changes. -/
theorem granGet_granSet {s : State} {g : Nat} (hb : granBacked s g = true) (e : Granule) : granGet (granSet s g e) g = e := by
  have hset : (granSet s g e).mem.granules = mset s.mem.granules g e ∧ (granSet s g e).fuses = s.fuses := by
    rw [granSet, if_pos hb]
    exact ⟨rfl, rfl⟩
  rw [granGet_fuses hset.2, hset.1, hb, mget_mset_same, if_neg (by decide)]
  split
  · rfl
  · rfl

theorem granGet_granSet_ne (s : State) {g h : Nat} (e : Granule) (hne : h ≠ g) : granGet (granSet s g e) h = granGet s h := by
  by_cases hb : granBacked s g = true
  · have hset : (granSet s g e).mem.granules = mset s.mem.granules g e ∧ (granSet s g e).fuses = s.fuses ∧ (granSet s g e).mem.mapBase = s.mem.mapBase := by
      rw [granSet, if_pos hb]
      exact ⟨rfl, rfl, rfl⟩
    rw [granGet_fuses hset.2.1, hset.1, hset.2.2, mget_mset_ne _ _ hne]
    exact (granGet_fuses rfl h).symm
  · rw [granSet, if_neg hb]

/-- At most the map of granules differs. -/
def GranulesOnly (s t : State) : Prop := t = { s with mem := { s.mem with granules := t.mem.granules } }

theorem GranulesOnly.refl (s : State) : GranulesOnly s s := rfl

theorem GranulesOnly.trans {s t u : State} (h : GranulesOnly s t) (k : GranulesOnly t u) : GranulesOnly s u := by
  unfold GranulesOnly at *
  rw [k, h]

theorem granSet_granulesOnly (s : State) (g : Nat) (e : Granule) : GranulesOnly s (granSet s g e) := by
  unfold granSet
  split
  · exact rfl
  · exact rfl

/-- A granule that waits for the scrub engine. -/
def scrubEntry (e : Granule) : Granule := { st := .scrubbing, owner := e.owner, zeroKey := e.zeroKey }

/-- Granules handed to the scrub engine wait for it, each under its owner's tag; a granule handed twice waits as if once. -/
theorem granScrubs_spec (l : List Nat) (s : State) : GranulesOnly s (each l granScrub s)
    ∧ ∀ g, granBacked s g = true → ((g ∈ l → granGet (each l granScrub s) g = scrubEntry (granGet s g)) ∧ (g ∉ l → granGet (each l granScrub s) g = granGet s g)) := by
  induction l generalizing s with
  | nil => exact ⟨rfl, fun g _ => ⟨fun h => absurd h List.not_mem_nil, fun _ => rfl⟩⟩
  | cons a l ih =>
    rw [each_cons]
    obtain ⟨honly, hset⟩ := ih (granScrub s a)
    have hfirst : GranulesOnly s (granScrub s a) := granSet_granulesOnly ..
    have hback (g : Nat) : granBacked (granScrub s a) g = granBacked s g := granBacked_fuses (by rw [hfirst]) g
    refine ⟨hfirst.trans honly, fun g hb => ?_⟩
    obtain ⟨hin, hout⟩ := hset g (by rw [hback]; exact hb)
    by_cases ha : g = a
    · subst ha
      have hg : granGet (granScrub s g) g = scrubEntry (granGet s g) := granGet_granSet hb _
      refine ⟨fun _ => ?_, fun h => absurd List.mem_cons_self h⟩
      by_cases hl : g ∈ l
      · rw [hin hl, hg]
        rfl
      · rw [hout hl, hg]
    · have hg : granGet (granScrub s a) g = granGet s g := granGet_granSet_ne _ _ ha
      rw [hg] at hin hout
      exact ⟨fun h => hin ((List.mem_cons.mp h).resolve_left ha), fun h => hout fun hl => h (List.mem_cons_of_mem a hl)⟩

/-! ### The end of a revocation (R414 steps 2 to 4) -/

/-- At most the parts of a revocation's clearing differ: map, HBM, fuses and the Gatehouse's parts and slots stay. -/
def ClearOnly (s t : State) : Prop := MapKept s t ∧ t.gate.parts = s.gate.parts ∧ t.gate.slots = s.gate.slots

theorem ClearOnly.refl (s : State) : ClearOnly s s := ⟨.refl s, rfl, rfl⟩

theorem ClearOnly.trans {s t u : State} (h : ClearOnly s t) (k : ClearOnly t u) : ClearOnly s u :=
  ⟨h.1.trans k.1, k.2.1.trans h.2.1, k.2.2.trans h.2.2⟩

theorem WorkOnly.clearOnly {s t : State} (h : WorkOnly s t) : ClearOnly s t := ⟨h.mapKept, by rw [h.gate], by rw [h.gate]⟩

/-- A change outside memory, fuses and the Gatehouse. -/
theorem ClearOnly.beside {s t : State} (hmem : t.mem = s.mem) (hfuses : t.fuses = s.fuses) (hgate : t.gate = s.gate) : ClearOnly s t :=
  ⟨⟨by rw [hmem], hfuses⟩, by rw [hgate], by rw [hgate]⟩

theorem drainAll_workOnly (s : State) (p : Nat) : WorkOnly s (drainAll s p) :=
  .each (α := Nat × Req) (fun s x => by
    dsimp only
    split
    · exact reqEnd_workOnly ..
    · exact .refl s) _ s

/-- One grant of a group, returned. -/
theorem ClearOnly.ite {c : Prop} [Decidable c] {s t : State} (h : ClearOnly s t) : ClearOnly s (if c then t else s) := by
  split
  · exact h
  · exact .refl s

theorem odReset_clearOnly (s : State) (idx sub : Nat) : ClearOnly s (odReset s idx sub) := .beside rfl rfl rfl

theorem dieBuffersClear_clearOnly (s : State) (d : Nat) (b : Bool) : ClearOnly s (dieBuffersClear s d b) := .beside rfl rfl rfl

/-- A die's delta engine, taken from a partition. -/
theorem ownerReturned_clearOnly (u : State) (p d : Nat) :
    ClearOnly u (if odGet u 0x3805 (d + 1) = p then dieBuffersClear (odReset u 0x3805 (d + 1)) d false else u) :=
  ClearOnly.ite ((odReset_clearOnly u 0x3805 (d + 1)).trans (dieBuffersClear_clearOnly _ d false))

theorem grantsReturn_clearOnly (s : State) (p : Nat) : ClearOnly s (grantsReturn s p) := by
  unfold grantsReturn
  extract_lets rows s₁ s₂ s₃ trl s₄
  clear_value rows
  have h₁ : ClearOnly s s₁ := by
    refine each_rel .refl .trans (fun s r => ?_) _ _
    exact odReset_clearOnly s r.idx (p + 1)
  clear_value s₁
  have h₂ : ClearOnly s₁ s₂ := by
    refine each_rel .refl .trans (fun s g => ?_) _ _
    exact ClearOnly.ite ((odReset_clearOnly s 0x6020 (g + 1)).trans (odReset_clearOnly _ 0x6021 (g + 1)))
  clear_value s₂
  have h₃ : ClearOnly s₂ s₃ := by
    refine each_rel .refl .trans (fun s d => ?_) _ _
    exact (ClearOnly.ite ((odReset_clearOnly s 0x4030 (d + 1)).trans (dieBuffersClear_clearOnly _ d true))).trans (ownerReturned_clearOnly ..)
  clear_value s₃
  have h₄ : ClearOnly s₃ s₄ := .beside rfl rfl rfl
  clear_value s₄
  exact ((h₁.trans h₂).trans (h₃.trans h₄)).trans (.beside rfl rfl rfl)

/-- Slots freed are empty, and the others stay. -/
theorem slotsFreed_spec (l : List Nat) (s : State) :
    let t := each l (fun s n => slotAssign s n .free 0 none) s
    (MapKept s t ∧ t.gate.parts = s.gate.parts) ∧ (∀ n, (n ∈ l ∨ keySlot s n = {}) → keySlot t n = {}) := by
  induction l generalizing s with
  | nil => exact ⟨⟨.refl s, rfl⟩, fun n h => h.resolve_left List.not_mem_nil⟩
  | cons a l ih =>
    obtain ⟨⟨hmap, hparts⟩, hfree⟩ := ih (slotAssign s a .free 0 none)
    refine ⟨⟨MapKept.trans ⟨rfl, rfl⟩ hmap, hparts⟩, fun n h => hfree n ?_⟩
    by_cases ha : n = a
    · subst ha
      exact .inr (keySlot_keySlotSet ..)
    · refine h.imp (fun h => (List.mem_cons.mp h).resolve_left ha) fun h => ?_
      exact (keySlot_keySlotSet_ne _ _ ha).trans h

theorem partGet_partSet (s : State) (p : Nat) (x : Partn) : partGet (partSet s p x) p = x ∧ ∀ q, q ≠ p → partGet (partSet s p x) q = partGet s q := by
  have hstat (u : State) : (statusVec u p).gate = u.gate := by rw [statusVec, (msixSend_logOnly ..).1]
  have hgate : (partSet s p x).gate.parts = mset s.gate.parts p x := by
    unfold partSet
    extract_lets ch s₁
    split
    · rw [hstat]
    · rfl
  unfold partGet
  rw [hgate]
  exact ⟨mgetD_mset_same .., fun q hq => mgetD_mset_ne _ _ _ hq⟩

theorem partSet_frame (s : State) (p : Nat) (x : Partn) :
    partSet s p x = { s with gate := { s.gate with parts := (partSet s p x).gate.parts }, pcie := (partSet s p x).pcie, out := (partSet s p x).out } := by
  unfold partSet
  extract_lets ch _ s₁
  split
  · have h : DictOnly s₁ (statusVec s₁ p) := msixSend_dictOnly ..
    have hpav : (statusVec s₁ p).pav = s₁.pav := (msixSend_logOnly ..).2
    generalize statusVec s₁ p = u at *
    unfold DictOnly at h
    rw [hpav] at h
    rw [h]
  · rfl

/-- A partition's last granule gone, at most its own entry and the end of a reset follow. -/
theorem partFinish_spec (s : State) (p : Nat) : ((partFinish s p).mem = s.mem ∧ (partFinish s p).flash = s.flash ∧ (partFinish s p).fuses = s.fuses ∧ (partFinish s p).gate.slots = s.gate.slots)
    ∧ (partGet (partFinish s p) p = {} ∨ partGet (partFinish s p) p = partGet s p) ∧ ∀ q, q ≠ p → partGet (partFinish s p) q = partGet s q := by
  have hself : (s.mem = s.mem ∧ s.flash = s.flash ∧ s.fuses = s.fuses ∧ s.gate.slots = s.gate.slots) := ⟨rfl, rfl, rfl, rfl⟩
  unfold partFinish
  extract_lets left s₁
  split
  · obtain ⟨hget, hother⟩ := partGet_partSet s p {}
    have hframe := partSet_frame s p {}
    change partGet s₁ p = {} at hget
    have hkept : s₁.mem = s.mem ∧ s₁.flash = s.flash ∧ s₁.fuses = s.fuses ∧ s₁.gate.slots = s.gate.slots := by
      unfold s₁
      rw [hframe]
      exact hself
    have hread (q : Nat) (hq : q ≠ p) : partGet s₁ q = partGet s q := hother q hq
    clear_value s₁
    split
    · exact ⟨hkept, .inl hget, hread⟩
    · exact ⟨hkept, .inl hget, hread⟩
  · exact ⟨hself, .inr rfl, fun _ _ => rfl⟩

/-- The state in which a revocation hands its granules to the scrub engine. -/
def revokeCleared (s : State) (p : Nat) : State :=
  let x := partGet s p
  let s := drainAll s p
  let s := if inFlight s p ≠ 0 then bump32 s 0x5005 (p + 1) else s
  let s := each (ownedSlots s p) (fun s n => slotAssign s n .free 0 none) s
  let s := dmaRevoke s p
  let s := grantsReturn s p
  let s := ctxRemove s p
  let s := partSet (carForget s p) p { st := .scrubbing }
  quadsOff s ((bitsOf 16 x.quads.toNat).filter fun q => s.tray.quadOn.getLsbD q)

theorem revokeCleared_spec (s : State) (p : Nat) : let t := revokeCleared s p
    MapKept s t ∧ partGet t p = { st := .scrubbing } ∧ (∀ q, q ≠ p → partGet t q = partGet s q) ∧ ∀ n, n ∈ ownedSlots s p → keySlot t n = {} := by
  unfold revokeCleared
  extract_lets x s₁ s₂ s₃ s₄ s₅ s₆ s₇ t
  have h₂ : ClearOnly s s₂ := by
    have h₁ : ClearOnly s s₁ := (drainAll_workOnly s p).clearOnly
    clear_value s₁
    unfold s₂
    split
    · exact h₁.trans (.beside rfl rfl rfl)
    · exact h₁
  clear_value s₂ s₁
  obtain ⟨⟨hmap₃, hparts₃⟩, hfree₃⟩ := slotsFreed_spec (ownedSlots s₂ p) s₂
  have hmap₃ : MapKept s₂ s₃ := hmap₃
  have hparts₃ : s₃.gate.parts = s₂.gate.parts := hparts₃
  have hfree₃ (n : Nat) (hn : n ∈ ownedSlots s₂ p) : keySlot s₃ n = {} := hfree₃ n (.inl hn)
  clear_value s₃
  have h₄ : ClearOnly s₃ s₄ := .beside rfl rfl rfl
  clear_value s₄
  have h₅ : ClearOnly s₄ s₅ := grantsReturn_clearOnly ..
  clear_value s₅
  have h₆ : ClearOnly s₅ s₆ := .beside rfl rfl rfl
  clear_value s₆
  have hforget : MapKept s₆ (carForget s₆ p) ∧ (carForget s₆ p).gate.parts = s₆.gate.parts ∧ (carForget s₆ p).gate.slots = s₆.gate.slots := ⟨⟨rfl, rfl⟩, rfl, rfl⟩
  have hframe := partSet_frame (carForget s₆ p) p { st := .scrubbing }
  obtain ⟨hget₇, hother₇⟩ := partGet_partSet (carForget s₆ p) p { st := .scrubbing }
  have hs₇ : s₇ = partSet (carForget s₆ p) p { st := .scrubbing } := rfl
  rw [← hs₇] at hframe hget₇ hother₇
  clear_value s₇
  generalize carForget s₆ p = w at *
  have h₇ : MapKept w s₇ ∧ s₇.gate.slots = w.gate.slots := by
    rw [hframe]
    exact ⟨⟨rfl, rfl⟩, rfl⟩
  have hoff : WorkOnly s₇ t := quadsOff_workOnly ..
  clear_value t
  have h₃₆ := (h₄.trans h₅).trans h₆
  have hslots : t.gate.slots = s₃.gate.slots := by rw [hoff.gate, h₇.2, hforget.2.2, h₃₆.2.2]
  have hparts : w.gate.parts = s.gate.parts := by rw [hforget.2.1, h₃₆.2.1, hparts₃, h₂.2.1]
  refine ⟨((((h₂.1.trans hmap₃).trans h₃₆.1).trans hforget.1).trans h₇.1).trans hoff.mapKept, ?_, fun q hq => ?_, fun n hn => ?_⟩
  · rw [partGet, hoff.gate]
    exact hget₇
  · rw [partGet, hoff.gate]
    exact (hother₇ q hq).trans (by rw [partGet, hparts]; rfl)
  · have hown : ownedSlots s₂ p = ownedSlots s p := by unfold ownedSlots; rw [h₂.2.2]
    rw [keySlot, hslots]
    exact hfree₃ n (by rw [hown]; exact hn)

/-- The granules that a removed partition still holds. -/
def revokeGrans (s : State) (p : Nat) : List Nat :=
  (granKeys s).filter fun g => (granGet s g).owner.toNat == p && ((granGet s g).st == .revoking || (granGet s g).st == .owned)

theorem revokeDo_eq (s : State) (p : Nat) : revokeDo s p = partFinish (each (revokeGrans (revokeCleared s p) p) granScrub (revokeCleared s p)) p := rfl

theorem revokeDo_spec (s : State) (p : Nat) : let t := revokeDo s p
    (partGet t p = { st := .scrubbing } ∨ partGet t p = {}) ∧ (∀ q, q ≠ p → partGet t q = partGet s q) ∧ (∀ n, n ∈ ownedSlots s p → keySlot t n = {})
    ∧ (∀ g, g ∈ granKeys s → granBacked s g = true → (granGet s g).owner.toNat = p → (granGet s g).st = .revoking ∨ (granGet s g).st = .owned → granGet t g = scrubEntry (granGet s g))
    ∧ t.mem.hbm = s.mem.hbm := by
  intro t
  have ht : t = _ := revokeDo_eq s p
  obtain ⟨hmap, hget, hother, hslots⟩ := revokeCleared_spec s p
  clear_value t
  subst ht
  generalize revokeCleared s p = u at *
  obtain ⟨honly, hgran⟩ := granScrubs_spec (revokeGrans u p) u
  generalize each (revokeGrans u p) granScrub u = w at *
  obtain ⟨⟨fmem, -, ffuses, fslots⟩, fpart, fother⟩ := partFinish_spec w p
  generalize partFinish w p = t at *
  have hwgate : w.gate = u.gate := by rw [honly]
  have hwpart (q : Nat) : partGet w q = partGet u q := by rw [partGet, hwgate]; rfl
  refine ⟨?_, fun q hq => by rw [fother q hq, hwpart, hother q hq], fun n hn => ?_, fun g hkey hb hown hst => ?_, ?_⟩
  · rcases fpart with h | h
    · exact .inr h
    · exact .inl (h.trans ((hwpart p).trans hget))
  · rw [keySlot, fslots, hwgate]
    exact hslots n hn
  · have hsame : MapKept w t := ⟨by rw [fmem], ffuses⟩
    have hmem : g ∈ revokeGrans u p := by
      unfold revokeGrans
      rw [List.mem_filter, hmap.granKeys, hmap.granGet]
      exact ⟨hkey, by simp [hown, hst]⟩
    rw [hsame.granGet, (hgran g (by rw [granBacked_fuses hmap.2]; exact hb)).1 hmem, hmap.granGet]
  · rw [fmem, honly]
    show u.mem.hbm = _
    rw [hmap.1]

/-! ### The scrub engine (R414, R417, R432) -/

theorem mem_cellsDrop {m : List Host.Cell} {lo n : Nat} {c : Host.Cell} : c ∈ cellsDrop m lo n ↔ c ∈ m ∧ (c.1 < lo ∨ lo + n ≤ c.1) := by
  unfold cellsDrop mdrop
  rw [List.mem_filter]
  refine and_congr_right fun _ => ?_
  simp only [Bool.not_eq_true', Bool.and_eq_false_iff, decide_eq_false_iff_not]
  omega

/-- HBM without a granule's bytes. -/
def granErased (s : State) (g : Nat) : State := { s with mem := { s.mem with hbm := cellsDrop s.mem.hbm (g * 2 ^ 21) (2 ^ 21) } }

/-- The granule erased, with its mismatches counted. -/
def granVerified (s : State) (g n : Nat) : State := if n = 0 then granErased s g else bumpBy (granErased s g) 0x6805 3 32 n

theorem granVerified_spec (s : State) (g n : Nat) : let t := granVerified s g n
    t.mem = { s.mem with hbm := cellsDrop s.mem.hbm (g * 2 ^ 21) (2 ^ 21) } ∧ t.fuses = s.fuses ∧ t.flash = s.flash := by
  unfold granVerified
  split
  · exact ⟨rfl, rfl, rfl⟩
  · exact ⟨rfl, rfl, rfl⟩

/-- A granule that failed twice: out of service, and logged. -/
def granRetired (s : State) (g : Nat) (i : LogInfo) : State := logErr { granSet s g { st := .scrubbing } with flash := { s.flash with retired := g :: s.flash.retired } } i

/-- The end of a granule's scrub. -/
def scrubbed (s : State) (g n : Nat) (i : LogInfo) : State := if n = 2 then granRetired s g i else granSet s g { st := .free }

theorem scrubbed_spec {s : State} {g : Nat} (n : Nat) (i : LogInfo) (hb : granBacked s g = true) : let t := scrubbed s g n i
    t.mem.hbm = s.mem.hbm ∧ (∀ h, h ≠ g → granGet t h = granGet s h)
    ∧ (n ≠ 2 → granGet t g = { st := .free } ∧ t.flash = s.flash) ∧ (n = 2 → granGet t g = { st := .scrubbing, owner := 0x3F } ∧ t.flash.retired = g :: s.flash.retired) := by
  intro t
  have hset (e : Granule) : (granSet s g e).mem.hbm = s.mem.hbm ∧ (granSet s g e).flash = s.flash := by
    rw [granSet_granulesOnly s g e]
    exact ⟨rfl, rfl⟩
  by_cases hn : n = 2
  · have ht : t = granRetired s g i := if_pos hn
    clear_value t
    subst ht
    have hwork := logErr_workOnly { granSet s g { st := .scrubbing } with flash := { s.flash with retired := g :: s.flash.retired } } i
    have hsame : MapKept (granSet s g { st := .scrubbing }) { granSet s g { st := .scrubbing } with flash := { s.flash with retired := g :: s.flash.retired } } := ⟨rfl, rfl⟩
    have hmap := hsame.trans hwork.mapKept
    have hret : (granRetired s g i).flash.retired = g :: s.flash.retired := by
      unfold granRetired
      rw [hwork.1]
    refine ⟨?_, fun h hne => ?_, fun h => absurd hn h, fun _ => ⟨?_, hret⟩⟩
    · refine Eq.trans ?_ (hset { st := .scrubbing }).1
      unfold granRetired
      rw [hmap.1]
    · exact (hmap.granGet h).trans (granGet_granSet_ne _ _ hne)
    · exact (hmap.granGet g).trans (granGet_granSet hb _)
  · have ht : t = granSet s g { st := .free } := if_neg hn
    clear_value t
    subst ht
    exact ⟨(hset _).1, fun h hne => granGet_granSet_ne _ _ hne, fun _ => ⟨granGet_granSet hb _, (hset _).2⟩, fun h => absurd h hn⟩

theorem granuleScrub_runs {g : Nat} {r : ScrubReads} {s : State} (hb : granBacked s g = true) (hres : granReserved s g = false) (hst : (granGet s g).st = .scrubbing)
    (hret : g ∉ s.flash.retired) (hon : scrubOn s (g / 65536) = true) : ∃ i, exec (.granuleScrub g r) s =
      .next (if (granGet s g).owner.toNat < 16 then partFinish (scrubbed (granVerified s g (scrubMisses g r)) g (scrubMisses g r) i) (granGet s g).owner.toNat
        else scrubbed (granVerified s g (scrubMisses g r)) g (scrubMisses g r) i) :=
  ⟨_, if_neg (by simp [hb, hres, hst, hret, hon])⟩

theorem granuleScrub_spec {g : Nat} {r : ScrubReads} {s : State} (hb : granBacked s g = true) (hres : granReserved s g = false) (hst : (granGet s g).st = .scrubbing)
    (hret : g ∉ s.flash.retired) (hon : scrubOn s (g / 65536) = true) : let n := scrubMisses g r
    Runs (.granuleScrub g r) s fun t =>
      (∀ c, c ∈ t.mem.hbm ↔ c ∈ s.mem.hbm ∧ (c.1 < g * 2 ^ 21 ∨ g * 2 ^ 21 + 2 ^ 21 ≤ c.1)) ∧ (∀ h, h ≠ g → granGet t h = granGet s h)
      ∧ (n ≠ 2 → granGet t g = { st := .free } ∧ t.flash = s.flash) ∧ (n = 2 → granGet t g = { st := .scrubbing, owner := 0x3F } ∧ t.flash.retired = g :: s.flash.retired) := by
  intro n
  obtain ⟨i, hexec⟩ := granuleScrub_runs (r := r) hb hres hst hret hon
  obtain ⟨hvmem, hvfuses, hvflash⟩ := granVerified_spec s g n
  change exec _ _ = .next (if _ then partFinish (scrubbed (granVerified s g n) g n i) _ else scrubbed (granVerified s g n) g n i) at hexec
  generalize granVerified s g n = v at *
  obtain ⟨hhbm, hother, hfree, htwice⟩ := scrubbed_spec n i (s := v) (g := g) (by rw [granBacked_fuses hvfuses]; exact hb)
  have hread (h : Nat) : granGet v h = granGet s h := by rw [granGet_fuses hvfuses, granGet_fuses (s := s) rfl, hvmem]
  generalize scrubbed v g n i = w at *
  have hfin : ∀ t : State, t.mem = w.mem → t.flash = w.flash → t.fuses = w.fuses →
      (∀ c, c ∈ t.mem.hbm ↔ c ∈ s.mem.hbm ∧ (c.1 < g * 2 ^ 21 ∨ g * 2 ^ 21 + 2 ^ 21 ≤ c.1)) ∧ (∀ h, h ≠ g → granGet t h = granGet s h)
      ∧ (n ≠ 2 → granGet t g = { st := .free } ∧ t.flash = s.flash) ∧ (n = 2 → granGet t g = { st := .scrubbing, owner := 0x3F } ∧ t.flash.retired = g :: s.flash.retired) := by
    intro t hmem hflash hfuses
    have hget (h : Nat) : granGet t h = granGet w h := by rw [granGet_fuses hfuses, granGet_fuses (s := w) rfl, hmem]
    refine ⟨fun c => ?_, fun h hne => by rw [hget, hother h hne, hread], fun hn => ?_, fun hn => ?_⟩
    · rw [hmem, hhbm, hvmem]
      exact mem_cellsDrop
    · rw [hget, hflash, (hfree hn).2, hvflash]
      exact ⟨(hfree hn).1, rfl⟩
    · rw [hget, hflash, (htwice hn).2, hvflash]
      exact ⟨(htwice hn).1, rfl⟩
  refine ⟨_, hexec, ?_⟩
  split
  · obtain ⟨⟨fmem, fflash, ffuses, -⟩, -⟩ := partFinish_spec w (granGet s g).owner.toNat
    exact hfin _ fmem fflash ffuses
  · exact hfin _ rfl rfl rfl

/-! ### Sweeps (R410 to R412) -/

section
variable {p : PartId} {w : Sweep} {n : Nat} {s : State} (hw : mget s.gate.sweeps p.val = some w) (hn : slotOf s .xts p.val = some n)
include hw hn

theorem sweepGranule_runs {d : Die} {g : Nat} {l : List Nat} (hact : (partGet s p.val).st = .active) (hon : scrubOn s d.val = true) (hb : granBacked s g = true)
    (hl : sweepLive s p.val (w.left.getD d.val []) = g :: l) :
    Runs (.xtsSweepGranule p d) s fun t => granGet t g = { granGet s g with gen := BitVec.ofNat 4 (keySlot s n).cur }
      ∧ (∀ h, h ≠ g → granGet t h = granGet s h) ∧ ((mget t.gate.sweeps p.val).getD {}).left = w.left.set d.val l
      ∧ t = { s with mem := { s.mem with granules := t.mem.granules }, gate := { s.gate with sweeps := t.gate.sweeps } } := by
  have hexec : exec (.xtsSweepGranule p d) s = .next { granSet s g { granGet s g with gen := BitVec.ofNat 4 (keySlot s n).cur } with
      gate := { (granSet s g { granGet s g with gen := BitVec.ofNat 4 (keySlot s n).cur }).gate with
        sweeps := mset (granSet s g { granGet s g with gen := BitVec.ofNat 4 (keySlot s n).cur }).gate.sweeps p.val { left := w.left.set d.val l } } } := by
    show execXtsSweepGranule p d s = _
    unfold execXtsSweepGranule
    rw [hw, hn]
    dsimp only
    rw [hl, if_neg (by simp [hact, hon])]
    rfl
  have hgot := granGet_granSet hb { granGet s g with gen := BitVec.ofNat 4 (keySlot s n).cur }
  have hother (h : Nat) (hne : h ≠ g) := granGet_granSet_ne s { granGet s g with gen := BitVec.ofNat 4 (keySlot s n).cur } hne
  have honly := granSet_granulesOnly s g { granGet s g with gen := BitVec.ofNat 4 (keySlot s n).cur }
  refine ⟨_, hexec, ?_⟩
  generalize granSet s g { granGet s g with gen := BitVec.ofNat 4 (keySlot s n).cur } = u at *
  have hkept : MapKept u { u with gate := { u.gate with sweeps := mset u.gate.sweeps p.val { left := w.left.set d.val l } } } := ⟨rfl, rfl⟩
  refine ⟨(hkept.granGet g).trans hgot, fun h hne => (hkept.granGet h).trans (hother h hne), ?_, ?_⟩
  · show ((mget (mset u.gate.sweeps p.val _) p.val).getD {}).left = _
    rw [mget_mset_same]
    rfl
  · rw [honly]

theorem oldZeroize_rests (hact : (partGet s p.val).st ≠ .active) : Runs (.xtsOldZeroize p) s fun t => t = s := by
  refine ⟨s, ?_, rfl⟩
  show execXtsOldZeroize p s = _
  unfold execXtsOldZeroize
  rw [hw, hn]
  exact if_neg (by simp [hact])

theorem oldZeroize_runs (hact : (partGet s p.val).st = .active) (hdone : ∀ l, l ∈ w.left → sweepLive s p.val l = []) : Runs (.xtsOldZeroize p) s fun t =>
    keySlot t n = { keySlot s n with old := none } ∧ (∀ m, m ≠ n → keySlot t m = keySlot s m) ∧ mget t.gate.sweeps p.val = none ∧ t = { s with gate := t.gate } := by
  have hall : (w.left.all fun l => sweepLive s p.val l == []) = true := List.all_eq_true.mpr fun l hl => by simp [hdone l hl]
  have hexec : exec (.xtsOldZeroize p) s = .next { keySlotSet s n { keySlot s n with old := none } with
      gate := { (keySlotSet s n { keySlot s n with old := none }).gate with sweeps := mdel s.gate.sweeps p.val } } := by
    show execXtsOldZeroize p s = _
    unfold execXtsOldZeroize
    rw [hw, hn]
    refine if_pos ?_
    rw [hall, hact]
    rfl
  refine ⟨_, hexec, ?_, fun m hm => ?_, (mget_mdel ..).trans (if_pos rfl), rfl⟩
  · exact keySlot_keySlotSet s n { keySlot s n with old := none }
  · exact keySlot_keySlotSet_ne s { keySlot s n with old := none } hm

end

/-- Settles O34: the end of a revocation, the scrub engine and the sweeps, each by its own lemma. -/
theorem revocationScrubAndSweepFinish : Obligations.RevocationScrubAndSweepFinish := by
  refine ⟨fun p s => ⟨fun hst hdue => ⟨_, if_pos ⟨hst, hdue⟩, revokeDo_spec s p.val⟩, fun h => ⟨s, if_neg ?_, rfl⟩⟩, fun g r s hb hres hst hret hon => granuleScrub_spec hb hres hst hret hon,
    fun p w n s hw hn => ⟨fun d g l hact _ hon hb hl => sweepGranule_runs hw hn hact hon hb hl, oldZeroize_rests hw hn, oldZeroize_runs hw hn⟩⟩
  rintro ⟨hst, hdue⟩
  rcases h with h | ⟨hbusy, hearly⟩
  · exact h hst
  · exact hdue.elim hbusy (Nat.not_le.mpr hearly)

end Sys2Proof.Machine
end

section
/-! SUPPORT. O33: the commands of the Gatehouse on partitions (R228, R400, R402, R410, R414). -/

namespace Sys2Proof.Machine

open Sys2Proof Sys2Proof.Claims

theorem leNat_leBytes (n x : Nat) : leNat (leBytes n x) = x % 256 ^ n := by
  induction n generalizing x with
  | zero => simp [leBytes, leNat, Nat.mod_one]
  | succ n ih =>
    rw [leBytes, leNat, ih, pow_succ, Nat.mul_comm (256 ^ n), Nat.mod_mul]
    exact congrArg (· + _) (BitVec.toNat_ofNat ..)

/-! ### A partition command (R400) -/

/-- The word of a partition command. -/
def gateWord (op : Nat) (p : PartId) (mask : BitVec 16) : Nat := op * 2 ^ 60 + p.val * 2 ^ 56 + mask.toNat

theorem gateWord_fields {op : Nat} (p : PartId) (mask : BitVec 16) (hop : op < 16) :
    nfld (gateWord op p mask) 63 60 = op ∧ nfld (gateWord op p mask) 59 56 = p.val ∧ nfld (gateWord op p mask) 15 0 = mask.toNat := by
  have hp : p.val < 16 := p.isLt
  have hm : mask.toNat < 65536 := mask.isLt
  simp only [gateWord, nfld_eq, Nat.reduceAdd, Nat.reduceSub, Nat.reducePow]
  omega

theorem ofNat_gateWord (op : Nat) (p : PartId) (mask : BitVec 16) : BitVec.ofNat 16 (gateWord op p mask) = mask := by
  have hm : mask.toNat < 65536 := mask.isLt
  refine BitVec.eq_of_toNat_eq ((BitVec.toNat_ofNat ..).trans ?_)
  simp only [gateWord, Nat.reducePow]
  omega

/-- What a command does where its result `r` is 0, and the result it reports. -/
def gateRun (s : State) (r : Nat) (f : State → State) : State := odSet (if r = 0 then f s else s) 0x5003 0 r

section
variable (s : State) (p : PartId) (mask : BitVec 16)

theorem gateCommand_form : gateCommand s (gateWord 1 p mask) = gateRun s (formResult s p.val mask) fun s => formDo s p.val mask := by
  obtain ⟨hnum, hpart, -⟩ := gateWord_fields p mask (op := 1) (by decide)
  simp only [gateCommand.eq_1, hnum, hpart, ofNat_gateWord]
  rfl

theorem gateCommand_remove : gateCommand s (gateWord 2 p mask) = gateRun s (if (partGet s p.val).st = .active then 0 else 3) fun s => removeDo s p.val := by
  obtain ⟨hnum, hpart, -⟩ := gateWord_fields p mask (op := 2) (by decide)
  simp only [gateCommand.eq_1, hnum, hpart]
  rfl

theorem gateCommand_rotateXts :
    gateCommand s (gateWord 3 p mask) = gateRun s (rotateResult s p.val (mget s.gate.sweeps p.val).isSome) fun s => rotateXtsDo s p.val := by
  obtain ⟨hnum, hpart, -⟩ := gateWord_fields p mask (op := 3) (by decide)
  simp only [gateCommand.eq_1, hnum, hpart]
  rfl

theorem gateCommand_rotatePrefix :
    gateCommand s (gateWord 4 p mask) = gateRun s (rotateResult s p.val s.kv.rebuild.isSome) fun s => rotatePrefixDo s p.val := by
  obtain ⟨hnum, hpart, -⟩ := gateWord_fields p mask (op := 4) (by decide)
  simp only [gateCommand.eq_1, hnum, hpart]
  rfl

end

theorem odSet_dictOnly (s : State) (idx sub v : Nat) : DictOnly s (odSet s idx sub v) := rfl

section
variable {rq : DictReq} {op : Nat} {p : PartId} {mask : BitVec 16} {s : State} (hcmd : MayCommand s rq op p mask)
include hcmd

/-- A partition command stores its word and is then run. -/
theorem gateWrite_runs (hop : op ≤ 4) : ∃ u bs, gateWrite s rq (gateBytes op p mask) = dictAnswer (gateCommand u (gateWord op p mask)) rq 0 0x5001 0 bs ∧ DictOnly s u := by
  have hnat : leNat (gateBytes op p mask) = gateWord op p mask := by
    have hp : p.val < 16 := p.isLt
    have hm : mask.toNat < 65536 := mask.isLt
    refine (leNat_leBytes ..).trans (Nat.mod_eq_of_lt ?_)
    norm_num
    omega
  obtain ⟨hnum, hpart, hmask⟩ := gateWord_fields p mask (op := op) (by omega)
  have hclamp : gateClamp s (gateWord op p mask) = gateWord op p mask := by
    rw [gateClamp, hnum, hpart, hmask, if_neg (by omega)]
    rfl
  obtain ⟨bs, hw⟩ := dictWrite_of_mayStore hcmd.2 gateClamp gateCommand
  rw [hnat, hclamp] at hw
  exact ⟨_, bs, (if_neg (by simp [hcmd.1])).trans hw, dictPut_dictOnly ..⟩

/-- A command that fails a requirement reports it. -/
theorem gateWrite_reports (hop : op ≤ 4) {r : Nat} (hr : r ≠ 0)
    (hrun : ∀ u, DictOnly s u → ∃ f, gateCommand u (gateWord op p mask) = gateRun u r f) : Reports s (gateWrite s rq (gateBytes op p mask)) r := by
  obtain ⟨u, bs, hw, hu⟩ := gateWrite_runs hcmd hop
  obtain ⟨f, hf⟩ := hrun u hu
  rw [hw, hf, gateRun, if_neg hr]
  exact ⟨(odGet_dictAnswer ..).trans (odGet_odSet ..), hu.trans (DictOnly.trans (odSet_dictOnly ..) (dictAnswer_dictOnly ..))⟩

/-- A command that meets its requirements is done, and reports 0. -/
theorem gateWrite_does (hop : op ≤ 4) {f : State → State} (hrun : ∀ u, DictOnly s u → gateCommand u (gateWord op p mask) = gateRun u 0 f) :
    ∃ u, DictOnly s u ∧ odGet (gateWrite s rq (gateBytes op p mask)) 0x5003 0 = 0 ∧ DictOnly (f u) (gateWrite s rq (gateBytes op p mask)) := by
  obtain ⟨u, bs, hw, hu⟩ := gateWrite_runs hcmd hop
  rw [hw, hrun u hu, gateRun, if_pos rfl]
  exact ⟨u, hu, (odGet_dictAnswer ..).trans (odGet_odSet ..), DictOnly.trans (odSet_dictOnly ..) (dictAnswer_dictOnly ..)⟩

end

/-! ### Powered quadrants (R400, R442, R504) -/

/-- At most clocks, governors, contexts and what on-chip stores hold differ, and no unit loses its power. -/
def PowerOnly (s t : State) : Prop :=
  t = { s with
    tray := { s.tray with quadOn := t.tray.quadOn, dieOn := t.tray.dieOn }
    clk := t.clk, wv := t.wv, seq := t.seq, cores := t.cores, sync := t.sync
    mem := { s.mem with sram := t.mem.sram, lines := t.mem.lines }
    pav := { s.pav with vals := t.pav.vals } }
  ∧ ∀ q, s.tray.quadOn.getLsbD q = true → t.tray.quadOn.getLsbD q = true

theorem PowerOnly.refl (s : State) : PowerOnly s s := ⟨rfl, fun _ h => h⟩

theorem PowerOnly.trans {s t u : State} (h : PowerOnly s t) (k : PowerOnly t u) : PowerOnly s u := by
  obtain ⟨h, hon⟩ := h
  obtain ⟨k, kon⟩ := k
  exact ⟨by rw [k, h], fun q hq => kon q (hon q hq)⟩

theorem quadClear_powerOnly (s : State) (q : Nat) : PowerOnly s (quadClear s q) := ⟨rfl, fun _ h => h⟩

theorem quadAssign_powerOnly (s : State) (q : Nat) : PowerOnly s (quadAssign s q) := by
  unfold quadAssign
  split
  · exact quadClear_powerOnly s q
  · exact PowerOnly.trans ⟨rfl, fun _ h => h⟩ (quadClear_powerOnly (domSwitch s (q + 1) 0) q)

theorem quadPowerOn_powerOnly (s : State) (q : Nat) : PowerOnly s (quadPowerOn s q) := by
  refine ⟨rfl, fun r hr => ?_⟩
  change (s.tray.quadOn ||| BitVec.ofNat 16 (2 ^ q)).getLsbD r = true
  rw [BitVec.getLsbD_or, hr, Bool.true_or]

theorem quadPowerOn_on (s : State) {q : Nat} (hq : q < 16) : (quadPowerOn s q).tray.quadOn.getLsbD q = true := by
  change (s.tray.quadOn ||| BitVec.ofNat 16 (2 ^ q)).getLsbD q = true
  rw [BitVec.getLsbD_or, BitVec.getLsbD_ofNat, Nat.testBit_two_pow_self, decide_eq_true hq, Bool.true_and, Bool.or_true]

/-- Power a quadrant that has none. -/
def quadPowered (s : State) (q : Nat) : State := if s.tray.quadOn.getLsbD q then s else quadPowerOn s q

theorem quadPowered_powerOnly (s : State) (q : Nat) : PowerOnly s (quadPowered s q) := by
  unfold quadPowered
  split
  · exact .refl s
  · exact quadPowerOn_powerOnly s q

theorem quadPowered_on (s : State) {q : Nat} (hq : q < 16) : (quadPowered s q).tray.quadOn.getLsbD q = true := by
  unfold quadPowered
  split
  · next h => exact h
  · exact quadPowerOn_on s hq

theorem quadsPowered_on (l : List Nat) (s : State) {q : Nat} (hq : q < 16) (hmem : q ∈ l) : (each l quadPowered s).tray.quadOn.getLsbD q = true := by
  induction l generalizing s with
  | nil => cases hmem
  | cons a l ih =>
    rw [each_cons]
    rcases List.mem_cons.mp hmem with rfl | h
    · exact (each_rel .refl .trans quadPowered_powerOnly l _).2 q (quadPowered_on s hq)
    · exact ih _ h

theorem ctxCreate_powerOnly (s : State) (p : Nat) (mask : BitVec 16) : PowerOnly s (ctxCreate s p mask) := by
  refine each_rel .refl .trans (fun s d => ?_) _ _
  extract_lets qs
  split
  · exact .refl s
  · split
    · exact .refl s
    · exact ⟨rfl, fun _ h => h⟩

theorem partPower_powerOnly (s : State) (p : Nat) : PowerOnly s (partPower s p) := by
  have hquads := each_rel PowerOnly.refl .trans quadPowered_powerOnly (bitsOf 16 (BitVec.ofNat 16 (partQuads s p)).toNat) s
  unfold partPower
  extract_lets mask t
  change PowerOnly s t at hquads
  split
  · exact hquads
  · exact hquads.trans (ctxCreate_powerOnly ..)

theorem partPower_on {s : State} {p q : Nat} (hq : q < 16) (hown : (partQuads s p).testBit q = true) : (partPower s p).tray.quadOn.getLsbD q = true := by
  have hmem : q ∈ bitsOf 16 (BitVec.ofNat 16 (partQuads s p)).toNat := by
    rw [mem_bitsOf, BitVec.toNat_ofNat, Nat.testBit_mod_two_pow]
    simp [hq, hown]
  have hon := quadsPowered_on _ s hq hmem
  unfold partPower
  extract_lets mask t
  change t.tray.quadOn.getLsbD q = true at hon
  split
  · exact hon
  · exact (ctxCreate_powerOnly ..).2 q hon

/-! ### FORM (R400, R402) -/

/-- The keys of a partition drawn into two slots. -/
def formSlots (s : State) (a b p : Nat) : State :=
  freeSteps (slotAssign (slotAssign s a .xts p (some (Config.freeNat s.freeCtr))) b .siphash p (some (Config.freeNat (s.freeCtr + 1)))) 2

/-- The partition formed, with its keys, before its quadrants are assigned. -/
def formKeyed (s : State) (a b p : Nat) (mask : BitVec 16) : State := partSet (formSlots s a b p) p { st := .active, quads := mask }

/-- A cause 4 in force holds for the partition too (R265). -/
def formRisk (s : State) (p : Nat) : State :=
  if s.pair.partnerLost ∧ odGet s 0x6400 0 = 2 ∧ s.pair.role = .active then riskSet s p 4 true else s

/-- The powered quadrants of the partition assigned. -/
def formAssigned (s : State) (mask : BitVec 16) : State := each (bitsOf 16 (mask &&& s.tray.quadOn).toNat) quadAssign s

theorem formDo_eq {s : State} {a b : Nat} {l : List Nat} (p : Nat) (mask : BitVec 16) (hfree : freeSlots s = a :: b :: l) :
    formDo s p mask = (let t := formAssigned (formRisk (formKeyed s a b p mask) p) mask; if coldRole t then t else partPower t p) := by
  rw [formDo, hfree]
  rfl

theorem formRisk_riskOnly (s : State) (p : Nat) : RiskOnly s (formRisk s p) := by
  unfold formRisk
  split
  · exact riskSet_riskOnly s p 4 true
  · exact .refl s

/-- At most key slots, the dictionary and the free values used differ. -/
def KeysOnly (s t : State) : Prop := t = { s with gate := { s.gate with slots := t.gate.slots }, pav := t.pav, freeCtr := t.freeCtr }

theorem KeysOnly.trans {s t u : State} (h : KeysOnly s t) (k : KeysOnly t u) : KeysOnly s u := by
  unfold KeysOnly at *
  rw [k, h]

theorem slotAssign_keysOnly (s : State) (n : Nat) (kind : SlotKind) (owner : Nat) (key : Option Nat) : KeysOnly s (slotAssign s n kind owner key) := rfl

theorem formSlots_spec {s : State} {a b : Nat} (p : Nat) (hab : a ≠ b) : let t := formSlots s a b p
    (keySlot t a = { kind := .xts, owner := BitVec.ofNat 6 p, curKey := some (Config.freeNat s.freeCtr) }
      ∧ keySlot t b = { kind := .siphash, owner := BitVec.ofNat 6 p, curKey := some (Config.freeNat (s.freeCtr + 1)) }
      ∧ ∀ n, n ≠ a → n ≠ b → keySlot t n = keySlot s n)
    ∧ KeysOnly s t := by
  have ha := slotAssign_spec s a .xts p (some (Config.freeNat s.freeCtr))
  have hone := slotAssign_keysOnly s a .xts p (some (Config.freeNat s.freeCtr))
  unfold formSlots
  generalize slotAssign s a .xts p (some (Config.freeNat s.freeCtr)) = u at *
  have hb := slotAssign_spec u b .siphash p (some (Config.freeNat (s.freeCtr + 1)))
  have htwo := slotAssign_keysOnly u b .siphash p (some (Config.freeNat (s.freeCtr + 1)))
  generalize slotAssign u b .siphash p (some (Config.freeNat (s.freeCtr + 1))) = w at *
  obtain ⟨ha, -, hothers, -⟩ := ha
  obtain ⟨hb, -, hothers', -⟩ := hb
  exact ⟨⟨(hothers' a hab).trans ha, hb, fun n hna hnb => (hothers' n hnb).trans (hothers n hna)⟩, hone.trans (htwo.trans rfl)⟩

theorem formKeyed_spec {s : State} {a b : Nat} (p : Nat) (mask : BitVec 16) (hab : a ≠ b) : let t := formKeyed s a b p mask
    (keySlot t a = { kind := .xts, owner := BitVec.ofNat 6 p, curKey := some (Config.freeNat s.freeCtr) }
      ∧ keySlot t b = { kind := .siphash, owner := BitVec.ofNat 6 p, curKey := some (Config.freeNat (s.freeCtr + 1)) }
      ∧ ∀ n, n ≠ a → n ≠ b → keySlot t n = keySlot s n)
    ∧ (partGet t p = { st := .active, quads := mask } ∧ ∀ q, q ≠ p → partGet t q = partGet s q)
    ∧ t.mem.hbm = s.mem.hbm ∧ t.car = s.car ∧ t.kv = s.kv ∧ t.dma = s.dma ∧ t.pair = s.pair := by
  intro t
  obtain ⟨⟨ha, hb, hothers⟩, hslots⟩ := formSlots_spec (s := s) p hab
  have hget (q : Nat) : partGet (formSlots s a b p) q = partGet s q := by rw [partGet, hslots]; rfl
  obtain ⟨hpart, hparts⟩ := partGet_partSet (formSlots s a b p) p { st := .active, quads := mask }
  have hothers' (q : Nat) (hq : q ≠ p) : partGet t q = partGet s q := (hparts q hq).trans (hget q)
  change partGet t p = _ at hpart
  have hset : t = _ := partSet_frame (formSlots s a b p) p { st := .active, quads := mask }
  change t = { formSlots s a b p with gate := { (formSlots s a b p).gate with parts := t.gate.parts }, pcie := t.pcie, out := t.out } at hset
  clear hparts hget
  clear_value t
  generalize formSlots s a b p = u at *
  have hslot (n : Nat) : keySlot t n = keySlot u n := by rw [keySlot, hset]; rfl
  refine ⟨⟨(hslot a).trans ha, (hslot b).trans hb, fun n hna hnb => (hslot n).trans (hothers n hna hnb)⟩,
    ⟨hpart, hothers'⟩, ?_⟩
  have hmem : t.mem = u.mem := by rw [hset]
  have hcar : t.car = u.car := by rw [hset]
  have hkv : t.kv = u.kv := by rw [hset]
  have hdma : t.dma = u.dma := by rw [hset]
  have hpair : t.pair = u.pair := by rw [hset]
  rw [hmem, hcar, hkv, hdma, hpair, hslots]
  exact ⟨rfl, rfl, rfl, rfl, rfl⟩

/-- What follows the keys leaves keys and partitions. -/
theorem formRest_frame (s : State) (p : Nat) (mask : BitVec 16) : let t := formAssigned (formRisk s p) mask
    t.gate = s.gate ∧ t.pair.role = s.pair.role ∧ t.mem.hbm = s.mem.hbm ∧ t.kv = s.kv ∧ t.dma = s.dma ∧ (s.pair.partnerLost = false → t.car = s.car) := by
  intro t
  have hassign : PowerOnly (formRisk s p) t := each_rel .refl .trans quadAssign_powerOnly _ _
  have hrisk := formRisk_riskOnly s p
  have hcar : s.pair.partnerLost = false → formRisk s p = s := fun h => if_neg (by simp [h])
  generalize formRisk s p = u at *
  clear_value t
  have hassign := hassign.1
  have hstays : u.gate = s.gate ∧ u.pair.role = s.pair.role ∧ u.mem = s.mem ∧ u.kv = s.kv ∧ u.dma = s.dma := by
    rw [hrisk]
    exact ⟨rfl, rfl, rfl, rfl, rfl⟩
  obtain ⟨hgate, hpair, hmem, hkv, hdma⟩ := hstays
  have hkept : t.gate = u.gate ∧ t.pair.role = u.pair.role ∧ t.mem.hbm = u.mem.hbm ∧ t.kv = u.kv ∧ t.dma = u.dma ∧ t.car = u.car := by
    rw [hassign]
    exact ⟨rfl, rfl, rfl, rfl, rfl, rfl⟩
  rw [hgate, hpair, hmem, hkv, hdma] at hkept
  obtain ⟨kgate, kpair, kmem, kkv, kdma, kcar⟩ := hkept
  exact ⟨kgate, kpair, kmem, kkv, kdma, fun h => kcar.trans (by rw [hcar h])⟩

theorem formDo_spec {s : State} {a b : Nat} {l : List Nat} (p : PartId) (mask : BitVec 16) (hfree : freeSlots s = a :: b :: l) : let t := formDo s p.val mask
    partGet t p.val = { st := .active, quads := mask }
    ∧ keySlot t a = { kind := .xts, owner := BitVec.ofNat 6 p.val, curKey := some (Config.freeNat s.freeCtr) }
    ∧ keySlot t b = { kind := .siphash, owner := BitVec.ofNat 6 p.val, curKey := some (Config.freeNat (s.freeCtr + 1)) }
    ∧ (∀ n, n ≠ a → n ≠ b → keySlot t n = keySlot s n) ∧ (∀ q, q ≠ p.val → partGet t q = partGet s q)
    ∧ (coldRole s = false → ∀ q : Fin 16, mask.getLsbD q.val = true → t.tray.quadOn.getLsbD q.val = true)
    ∧ t.mem.hbm = s.mem.hbm ∧ (s.pair.partnerLost = false → t.car = s.car) ∧ t.kv = s.kv ∧ t.dma = s.dma := by
  intro t
  have hab : a ≠ b := by
    have hnodup : (freeSlots s).Nodup := List.nodup_range.filter _
    rw [hfree] at hnodup
    exact fun h => (List.nodup_cons.mp hnodup).1 (h ▸ List.mem_cons_self ..)
  obtain ⟨⟨hka, hkb, hkn⟩, ⟨hpart, hparts⟩, hmem, hcar, hkv, hdma, hpair⟩ := formKeyed_spec p.val mask hab
  have hdo : t = _ := formDo_eq p.val mask hfree
  clear_value t
  generalize formKeyed s a b p.val mask = u at *
  obtain ⟨rgate, rpair, rmem, rkv, rdma, rcar⟩ := formRest_frame u p.val mask
  generalize formAssigned (formRisk u p.val) mask = w at *
  have hpower : PowerOnly w t ∧ (coldRole s = false → ∀ q : Fin 16, mask.getLsbD q.val = true → t.tray.quadOn.getLsbD q.val = true) := by
    have hrole : coldRole w = coldRole s := by rw [coldRole, rpair, hpair]; rfl
    have hdo : t = if coldRole w then w else partPower w p.val := hdo
    rw [hdo, hrole]
    split
    · next hcold => exact ⟨.refl w, fun h => absurd hcold (by simp [h])⟩
    · refine ⟨partPower_powerOnly .., fun _ q hq => partPower_on q.isLt ?_⟩
      have hget : mgetD w.gate.parts p.val {} = { st := .active, quads := mask } := by rw [rgate]; exact hpart
      unfold partQuads
      cases hfound : mget w.gate.parts p.val with
      | none => simp [mgetD, hfound] at hget
      | some x =>
        obtain rfl : x = { st := .active, quads := mask } := by simpa [mgetD, hfound] using hget
        exact hq
  obtain ⟨⟨hon, -⟩, hquads⟩ := hpower
  have hgate : t.gate = u.gate := by rw [hon]; exact rgate
  have hslot (n : Nat) : keySlot t n = keySlot u n := by rw [keySlot, hgate]; rfl
  have hget (q : Nat) : partGet t q = partGet u q := by rw [partGet, hgate]; rfl
  refine ⟨(hget _).trans hpart, (hslot a).trans hka, (hslot b).trans hkb, fun n hna hnb => (hslot n).trans (hkn n hna hnb),
    fun q hq => (hget q).trans (hparts q hq), hquads, ?_, fun h => ?_, ?_, ?_⟩
  · rw [hon]; exact rmem.trans hmem
  · rw [hon]; exact (rcar (by rw [hpair]; exact h)).trans hcar
  · rw [hon]; exact rkv.trans hkv
  · rw [hon]; exact rdma.trans hdma

/-! ### REMOVE (R400, R414) -/

theorem reqCancel_workOnly (s : State) (h code : Nat) (failed : Bool) : WorkOnly s (reqCancel s h code failed) := by
  have hset (r : Req) : WorkOnly s (reqSet s h r) := .quiet rfl
  unfold reqCancel
  extract_lets r t
  split
  · exact hset _
  · split
    · exact .refl s
    · split
      · split
        · split
          · exact (hset _).trans (stepAbort_workOnly ..)
          · exact hset _
        · exact hset _
      · exact reqEnd_workOnly ..

theorem partReqsEnd_workOnly (s : State) (p code : Nat) : WorkOnly s (partReqsEnd s p code) := by
  have hcancel := WorkOnly.each (fun s h => reqCancel_workOnly s h code false) ((liveReqs s p).map Prod.fst) s
  exact hcancel.trans (stepAbort_workOnly ..)

theorem sessionEnd_clearOnly (s : State) (n status : Nat) (tag : BitVec 64) (write : Bool) : ClearOnly s (sessionEnd s n status tag write) := by
  unfold sessionEnd
  split
  · exact .refl s
  · extract_lets id _ t
    have ht : ClearOnly s t := .beside rfl rfl rfl
    split
    · exact ht.trans (complPush_workOnly ..).clearOnly
    · exact ht

theorem decRef_clearOnly (s : State) (p f : Nat) : ClearOnly s (decRef s p f) := .beside rfl rfl rfl

theorem idxDrop_clearOnly (s : State) (e : IdxWay) : ClearOnly s (idxDrop s e) := by
  unfold idxDrop
  extract_lets t
  have ht : ClearOnly s t := .beside rfl rfl rfl
  split
  · exact ht
  · next r _ =>
    have hframes : ClearOnly t (each r.frames (fun s f => decRef s e.part f) t) := each_rel .refl .trans (fun s f => decRef_clearOnly s e.part f) _ _
    exact ht.trans (hframes.trans (.beside rfl rfl rfl))

/-- A rebuild that starts: at most the index and the free values used differ. -/
theorem rebuildStart_only (s : State) (rotated : List Nat) (retired : List (Nat × Nat)) :
    rebuildStart s rotated retired = { s with kv := (rebuildStart s rotated retired).kv, freeCtr := (rebuildStart s rotated retired).freeCtr } := by
  have htable (u : State) (b : Bool) (m : SMap IdxWay) : tableSet u b m = { u with kv := (tableSet u b m).kv } := by
    unfold tableSet
    split
    · rfl
    · rfl
  unfold rebuildStart
  extract_lets b salt t u _ v
  have hu : u = { s with kv := u.kv, freeCtr := u.freeCtr } := by
    unfold u
    rw [htable]
    rfl
  have hv : v = { u with kv := v.kv } := by
    unfold v
    split
    · rfl
    · rfl
  clear_value v u
  rw [hv, hu]

theorem rebuildRemoved_clearOnly (s : State) (p : Nat) : ClearOnly s (rebuildRemoved s p) := by
  unfold rebuildRemoved
  extract_lets _ t u _ es v
  have ht : ClearOnly s t := .beside rfl rfl rfl
  have hstart : u = { t with kv := u.kv, freeCtr := u.freeCtr } := rebuildStart_only t [] []
  clear_value u
  split
  · have hu : ClearOnly t u := .beside (by rw [hstart]) (by rw [hstart]) (by rw [hstart])
    split
    · exact ht.trans (hu.trans (.beside rfl rfl rfl))
    · exact ht.trans hu
  · have hv : ClearOnly t v := each_rel .refl .trans idxDrop_clearOnly _ _
    exact ht.trans (hv.trans (.beside rfl rfl rfl))

/-- A granule handed to the revocation of its owner. -/
def granRevoke (s : State) (g : Nat) : State := granSet s g { granGet s g with st := .revoking }

theorem granRevokes_spec (l : List Nat) (s : State) : GranulesOnly s (each l granRevoke s)
    ∧ ∀ g, granBacked s g = true → ((g ∈ l → granGet (each l granRevoke s) g = { granGet s g with st := .revoking }) ∧ (g ∉ l → granGet (each l granRevoke s) g = granGet s g)) := by
  induction l generalizing s with
  | nil => exact ⟨rfl, fun g _ => ⟨fun h => absurd h List.not_mem_nil, fun _ => rfl⟩⟩
  | cons a l ih =>
    rw [each_cons]
    obtain ⟨honly, hset⟩ := ih (granRevoke s a)
    have hfirst : GranulesOnly s (granRevoke s a) := granSet_granulesOnly ..
    have hback (g : Nat) : granBacked (granRevoke s a) g = granBacked s g := granBacked_fuses (by rw [hfirst]) g
    refine ⟨hfirst.trans honly, fun g hb => ?_⟩
    obtain ⟨hin, hout⟩ := hset g (by rw [hback]; exact hb)
    by_cases ha : g = a
    · subst ha
      have hg : granGet (granRevoke s g) g = { granGet s g with st := .revoking } := granGet_granSet hb _
      refine ⟨fun _ => ?_, fun h => absurd List.mem_cons_self h⟩
      by_cases hl : g ∈ l
      · rw [hin hl, hg]
      · rw [hout hl, hg]
    · have hg : granGet (granRevoke s a) g = granGet s g := granGet_granSet_ne _ _ ha
      rw [hg] at hin hout
      exact ⟨fun h => hin ((List.mem_cons.mp h).resolve_left ha), fun h => hout fun hl => h (List.mem_cons_of_mem a hl)⟩

/-- The groups of a partition withdrawn. -/
def groupsGone (s : State) (groups : List Nat) : State :=
  each groups (fun s g => odSet s 0x6020 (g + 1) (odGet s 0x6020 (g + 1) - 2 ^ 31))
    { s with trl := { s.trl with pending := s.trl.pending.filter fun o => !groups.contains o.group } }

theorem groupsGone_only (s : State) (groups : List Nat) : groupsGone s groups = { s with trl := (groupsGone s groups).trl, pav := (groupsGone s groups).pav } := by
  have h := each_rel (R := fun s t => t = { s with pav := t.pav }) (fun s => rfl) (fun h k => by rw [k, h])
    (f := fun s g => odSet s 0x6020 (g + 1) (odGet s 0x6020 (g + 1) - 2 ^ 31)) (fun s g => rfl) groups
    { s with trl := { s.trl with pending := s.trl.pending.filter fun o => !groups.contains o.group } }
  unfold groupsGone
  generalize each groups _ _ = t at *
  rw [h]

/-- A partition REVOKING. -/
def partRevoked (s : State) (p : Nat) : State := partSet s p { partGet s p with st := .revoking, revokedAt := s.clk.now }

/-- The granules that a partition owns. -/
def ownedGrans (s : State) (p : Nat) : List Nat := (granKeys s).filter fun g => (granGet s g).owner.toNat == p && (granGet s g).st == .owned

/-- What a removal forgets of a partition's work: requests, sessions, variants, prefixes, loads and rounds. -/
def workRemoved (s : State) (p : Nat) : State :=
  let s := sessionsEnd (partReqsEnd (odSet s 0x3000 (p + 1) 0) p 18) p 18 true
  let s := rebuildRemoved { s with variants := mdrop s.variants fun k => k / 4096 == p } p
  { s with car := { s.car with pendingLoads := mdel s.car.pendingLoads p, rounds := mdel s.car.rounds p } }

theorem removeDo_eq (s : State) (p : Nat) : removeDo s p =
    (let t := partRevoked (groupsGone s ((List.range 63).filter fun g => (groupOf s g).map Group.part == some p)) p
    workRemoved (each (ownedGrans t p) granRevoke t) p) := by
  unfold removeDo
  extract_lets groups _ _ b x d e _ _ _ _ _ _ t
  have he : each (ownedGrans t p) granRevoke t = e := rfl
  rw [he]
  clear_value e
  rfl

theorem workRemoved_clearOnly (s : State) (p : Nat) : ClearOnly s (workRemoved s p) := by
  have hods : ClearOnly s (odSet s 0x3000 (p + 1) 0) := .beside rfl rfl rfl
  have hreqs := (partReqsEnd_workOnly (odSet s 0x3000 (p + 1) 0) p 18).clearOnly
  have hsess : ClearOnly (partReqsEnd (odSet s 0x3000 (p + 1) 0) p 18) _ :=
    each_rel .refl .trans (fun s n => sessionEnd_clearOnly s n 18 0 true) (((partReqsEnd (odSet s 0x3000 (p + 1) 0) p 18).zoe.sessions.filter fun x => x.2.f.val == p).map Prod.fst) _
  unfold workRemoved
  extract_lets t u _
  change ClearOnly _ t at hsess
  clear_value t
  have hu : ClearOnly t u := ClearOnly.trans (.beside rfl rfl rfl) (rebuildRemoved_clearOnly { t with variants := mdrop t.variants fun k => k / 4096 == p } p)
  clear_value u
  exact hods.trans (hreqs.trans (hsess.trans (hu.trans (.beside rfl rfl rfl))))

theorem removeDo_spec (s : State) (p : Nat) : let t := removeDo s p
    partGet t p = { partGet s p with st := .revoking, revokedAt := s.clk.now } ∧ (∀ q, q ≠ p → partGet t q = partGet s q)
    ∧ (∀ g, g ∈ granKeys s → granBacked s g = true → (granGet s g).owner.toNat = p → (granGet s g).st = .owned → granGet t g = { granGet s g with st := .revoking })
    ∧ t.mem.hbm = s.mem.hbm := by
  intro t
  have hdo : t = _ := removeDo_eq s p
  have hgone := groupsGone_only s ((List.range 63).filter fun g => (groupOf s g).map Group.part == some p)
  clear_value t
  generalize groupsGone s ((List.range 63).filter fun g => (groupOf s g).map Group.part == some p) = u at *
  have hparts := partGet_partSet u p { partGet u p with st := .revoking, revokedAt := u.clk.now }
  have hset := partSet_frame u p { partGet u p with st := .revoking, revokedAt := u.clk.now }
  change partGet (partRevoked u p) p = _ ∧ ∀ q, q ≠ p → partGet (partRevoked u p) q = _ at hparts
  change partRevoked u p = { u with gate := { u.gate with parts := (partRevoked u p).gate.parts }, pcie := (partRevoked u p).pcie, out := (partRevoked u p).out } at hset
  generalize partRevoked u p = v at *
  have hget (q : Nat) : partGet u q = partGet s q := by rw [partGet, hgone]; rfl
  have hclk : u.clk = s.clk := by rw [hgone]
  rw [hclk, hget] at hparts
  obtain ⟨hpart, hothers⟩ := hparts
  have hmap : MapKept s v := by
    have hmem : v.mem = u.mem ∧ v.fuses = u.fuses := by rw [hset]; exact ⟨rfl, rfl⟩
    have hmem' : u.mem = s.mem ∧ u.fuses = s.fuses := by rw [hgone]; exact ⟨rfl, rfl⟩
    exact ⟨by rw [hmem.1, hmem'.1], hmem.2.trans hmem'.2⟩
  obtain ⟨hgrans, hrevoked⟩ := granRevokes_spec (ownedGrans v p) v
  have hdo : t = workRemoved (each (ownedGrans v p) granRevoke v) p := hdo
  generalize each (ownedGrans v p) granRevoke v = w at *
  obtain ⟨hwork, hwparts, -⟩ := workRemoved_clearOnly w p
  rw [← hdo] at hwork hwparts
  have hpget (q : Nat) : partGet t q = partGet v q := by
    have h : t.gate.parts = v.gate.parts := hwparts.trans (by rw [hgrans])
    rw [partGet, h]
    rfl
  refine ⟨(hpget p).trans hpart, fun q hq => (hpget q).trans ((hothers q hq).trans (hget q)), fun g hkey hb hown hst => ?_, ?_⟩
  · have hg : granGet v g = granGet s g := hmap.granGet g
    have hmem : g ∈ ownedGrans v p := by
      unfold ownedGrans
      rw [hmap.granKeys]
      exact List.mem_filter.mpr ⟨hkey, by rw [hg, hown, hst]; simp⟩
    rw [hwork.granGet g, (hrevoked g (by rw [granBacked_fuses hmap.2]; exact hb)).1 hmem, hg]
  · have h₁ : t.mem.hbm = w.mem.hbm := by rw [hwork.1]
    have h₂ : w.mem.hbm = v.mem.hbm := by rw [hgrans]
    have h₃ : v.mem.hbm = s.mem.hbm := by rw [hmap.1]
    exact h₁.trans (h₂.trans h₃)

/-! ### ROTATE_XTS and ROTATE_PREFIX (R228, R410) -/

theorem slotNext_spec (s : State) (n key : Nat) (keepOld : Bool) : let t := slotNext s n key keepOld
    keySlot t n = nextKey (keySlot s n) key (if keepOld then (keySlot s n).curKey.map fun c => ((keySlot s n).cur, c) else none)
    ∧ (∀ m, m ≠ n → keySlot t m = keySlot s m) ∧ t = { s with gate := { s.gate with slots := t.gate.slots } } :=
  ⟨keySlot_keySlotSet .., fun _ hm => keySlot_keySlotSet_ne _ _ hm, rfl⟩

theorem rotateXtsDo_spec {s : State} {p n : Nat} (hslot : slotOf s .xts p = some n) : let t := rotateXtsDo s p
    keySlot t n = nextKey (keySlot s n) (Config.freeNat s.freeCtr) ((keySlot s n).curKey.map fun c => ((keySlot s n).cur, c))
    ∧ (∀ m, m ≠ n → keySlot t m = keySlot s m) ∧ (mget t.gate.sweeps p).isSome = true ∧ t.mem = s.mem := by
  obtain ⟨hkey, hothers, honly⟩ := slotNext_spec (freeStep s) n (freeVal s) true
  unfold rotateXtsDo
  rw [hslot]
  dsimp only
  generalize slotNext (freeStep s) n (freeVal s) true = u at *
  refine ⟨hkey, hothers, by simp, ?_⟩
  rw [honly]
  rfl

theorem rotatePrefixDo_spec {s : State} {p n : Nat} (hslot : slotOf s .siphash p = some n) (hidle : s.kv.rebuild = none) : let t := rotatePrefixDo s p
    keySlot t n = nextKey (keySlot s n) (Config.freeNat s.freeCtr) none ∧ (∀ m, m ≠ n → keySlot t m = keySlot s m)
    ∧ t.kv.rebuild = some { rotated := [p], retired := [] } ∧ t.mem = s.mem := by
  obtain ⟨hkey, hothers, honly⟩ := slotNext_spec (freeStep s) n (freeVal s) false
  unfold rotatePrefixDo
  rw [hslot]
  dsimp only
  generalize slotNext (freeStep s) n (freeVal s) false = u at *
  have hidle' : u.kv.rebuild = none := by rw [honly]; exact hidle
  have hmem : u.mem = s.mem := by rw [honly]; rfl
  have hstart := rebuildStart_only u [p] []
  have hrebuild : (rebuildStart u [p] []).kv.rebuild = some { rotated := [p], retired := [] } := rfl
  unfold rebuildAsk
  rw [hidle']
  dsimp only
  generalize rebuildStart u [p] [] = t at *
  have hgate : t.gate = u.gate := by rw [hstart]
  have hslots (m : Nat) : keySlot t m = keySlot u m := by rw [keySlot, hgate]; rfl
  refine ⟨(hslots n).trans hkey, fun m hm => (hslots m).trans (hothers m hm), hrebuild, ?_⟩
  rw [hstart]
  exact hmem

/-! ### The commands (R400) -/

section
variable {rq : DictReq} {p : PartId} {s : State}

/-- What a requirement reads is what the write of the command left. -/
theorem dictOnly_requirements {s u : State} (h : DictOnly s u) (p : Nat) (mask : BitVec 16) : formResult u p mask = formResult s p mask ∧ partGet u p = partGet s p
    ∧ u.gate = s.gate ∧ u.kv = s.kv ∧ u.freeCtr = s.freeCtr ∧ u.mem = s.mem ∧ u.clk = s.clk ∧ u.fuses = s.fuses ∧ u.pair = s.pair ∧ u.car = s.car ∧ u.dma = s.dma := by
  rw [h]
  exact ⟨rfl, rfl, rfl, rfl, rfl, rfl, rfl, rfl, rfl, rfl, rfl⟩

theorem form_runs {mask : BitVec 16} (hcmd : MayCommand s rq 1 p mask) :
    (formResult s p.val mask ≠ 0 → Runs (.form rq p mask) s fun t => Reports s t (formResult s p.val mask))
    ∧ ∀ a b l, formResult s p.val mask = 0 → freeSlots s = a :: b :: l → Runs (.form rq p mask) s fun t => odGet t 0x5003 0 = 0
      ∧ partGet t p.val = { st := .active, quads := mask }
      ∧ keySlot t a = { kind := .xts, owner := BitVec.ofNat 6 p.val, curKey := some (Config.freeNat s.freeCtr) }
      ∧ keySlot t b = { kind := .siphash, owner := BitVec.ofNat 6 p.val, curKey := some (Config.freeNat (s.freeCtr + 1)) }
      ∧ (∀ n, n ≠ a → n ≠ b → keySlot t n = keySlot s n) ∧ (∀ q, q ≠ p.val → partGet t q = partGet s q)
      ∧ (coldRole s = false → ∀ q : Fin 16, mask.getLsbD q.val = true → t.tray.quadOn.getLsbD q.val = true)
      ∧ t.mem.hbm = s.mem.hbm ∧ (s.pair.partnerLost = false → t.car = s.car) ∧ t.kv = s.kv ∧ t.dma = s.dma := by
  have hcommand {r : Nat} (hr : formResult s p.val mask = r) (u : State) (hu : DictOnly s u) :
      gateCommand u (gateWord 1 p mask) = gateRun u r fun s => formDo s p.val mask := by
    rw [gateCommand_form, (dictOnly_requirements hu ..).1, hr]
  refine ⟨fun hr => ⟨_, rfl, gateWrite_reports hcmd (by decide) hr fun u hu => ⟨_, hcommand rfl u hu⟩⟩, fun a b l hr hfree => ⟨_, rfl, ?_⟩⟩
  · obtain ⟨u, hu, hres, hdone⟩ := gateWrite_does hcmd (by decide) (f := fun s => formDo s p.val mask) (hcommand hr)
    generalize gateWrite s rq (gateBytes 1 p mask) = t at *
    have hparts (q : Nat) := (dictOnly_requirements hu q mask).2.1
    obtain ⟨-, -, hgate, hkv, hctr, hmem, -, -, hpair, hcar, hdma⟩ := dictOnly_requirements hu p.val mask
    have hfree' : freeSlots u = a :: b :: l := by rw [freeSlots, show keySlot u = keySlot s from funext (dictOnly_keySlot hu)]; exact hfree
    obtain ⟨hpart, ha, hb, hslots, hothers, hquads, dmem, dcar, dkv, ddma⟩ := formDo_spec p mask hfree'
    generalize formDo u p.val mask = w at *
    have hw (q : Nat) := (dictOnly_requirements hdone q mask).2.1
    obtain ⟨-, -, -, wkv, -, wmem, -, -, -, wcar, wdma⟩ := dictOnly_requirements hdone p.val mask
    have htray : t.tray = w.tray := by rw [hdone]
    have hcold : coldRole u = coldRole s := by rw [coldRole, hpair]; rfl
    rw [hctr] at ha hb
    rw [hcold, ← htray] at hquads
    refine ⟨hres, (hw _).trans hpart, (dictOnly_keySlot hdone a).trans ha, (dictOnly_keySlot hdone b).trans hb,
      fun n hna hnb => (dictOnly_keySlot hdone n).trans ((hslots n hna hnb).trans (dictOnly_keySlot hu n)),
      fun q hq => (hw q).trans ((hothers q hq).trans (hparts q)), hquads, ?_, fun h => ?_, wkv.trans (dkv.trans hkv), wdma.trans (ddma.trans hdma)⟩
    · rw [wmem, dmem, hmem]
    · rw [wcar, dcar (by rw [hpair]; exact h), hcar]

theorem remove_runs (hcmd : MayCommand s rq 2 p 0) :
    ((partGet s p.val).st ≠ .active → Runs (.remove rq p) s fun t => Reports s t 3)
    ∧ ((partGet s p.val).st = .active → Runs (.remove rq p) s fun t => odGet t 0x5003 0 = 0
      ∧ partGet t p.val = { partGet s p.val with st := .revoking, revokedAt := s.clk.now } ∧ (∀ q, q ≠ p.val → partGet t q = partGet s q)
      ∧ (∀ g, g ∈ granKeys s → granBacked s g = true → (granGet s g).owner.toNat = p.val → (granGet s g).st = .owned → granGet t g = { granGet s g with st := .revoking })
      ∧ t.mem.hbm = s.mem.hbm) := by
  have hcommand {r : Nat} (hr : (if (partGet s p.val).st = .active then 0 else 3) = r) (u : State) (hu : DictOnly s u) :
      gateCommand u (gateWord 2 p 0) = gateRun u r fun s => removeDo s p.val := by
    rw [gateCommand_remove, (dictOnly_requirements hu p.val 0).2.1, hr]
  refine ⟨fun hst => ⟨_, rfl, gateWrite_reports hcmd (by decide) (by decide) fun u hu => ⟨_, hcommand (if_neg hst) u hu⟩⟩, fun hst => ⟨_, rfl, ?_⟩⟩
  · obtain ⟨u, hu, hres, hdone⟩ := gateWrite_does hcmd (by decide) (f := fun s => removeDo s p.val) (hcommand (if_pos hst))
    generalize gateWrite s rq (gateBytes 2 p 0) = t at *
    have hparts (q : Nat) := (dictOnly_requirements hu q 0).2.1
    obtain ⟨-, -, -, -, -, hmem, hclk, hfuses, -⟩ := dictOnly_requirements hu p.val 0
    obtain ⟨hpart, hothers, hgrans, hhbm⟩ := removeDo_spec u p.val
    generalize removeDo u p.val = w at *
    have hw (q : Nat) := (dictOnly_requirements hdone q 0).2.1
    obtain ⟨-, -, -, -, -, wmem, -, wfuses, -⟩ := dictOnly_requirements hdone p.val 0
    have hmap : MapKept s u := ⟨by rw [hmem], hfuses⟩
    have hmap' : MapKept w t := ⟨by rw [wmem], wfuses⟩
    rw [hparts, hclk] at hpart
    refine ⟨hres, (hw _).trans hpart, fun q hq => (hw q).trans ((hothers q hq).trans (hparts q)), fun g hkey hb hown howned => ?_, by rw [wmem, hhbm, hmem]⟩
    have hg := hgrans g (by rw [hmap.granKeys]; exact hkey) (by rw [granBacked_fuses hfuses]; exact hb) (by rw [hmap.granGet]; exact hown) (by rw [hmap.granGet]; exact howned)
    rw [hmap'.granGet, hg, hmap.granGet]

theorem rotateXts_runs (hcmd : MayCommand s rq 3 p 0) :
    ((partGet s p.val).st ≠ .active → Runs (.rotateXts rq p) s fun t => Reports s t 3)
    ∧ ((partGet s p.val).st = .active → (mget s.gate.sweeps p.val).isSome = true → Runs (.rotateXts rq p) s fun t => Reports s t 1)
    ∧ ∀ n, (partGet s p.val).st = .active → mget s.gate.sweeps p.val = none → slotOf s .xts p.val = some n → Runs (.rotateXts rq p) s fun t => odGet t 0x5003 0 = 0
      ∧ keySlot t n = nextKey (keySlot s n) (Config.freeNat s.freeCtr) ((keySlot s n).curKey.map fun c => ((keySlot s n).cur, c))
      ∧ (∀ m, m ≠ n → keySlot t m = keySlot s m) ∧ (mget t.gate.sweeps p.val).isSome = true ∧ t.mem = s.mem := by
  have hcommand {r : Nat} (hr : rotateResult s p.val (mget s.gate.sweeps p.val).isSome = r) (u : State) (hu : DictOnly s u) :
      gateCommand u (gateWord 3 p 0) = gateRun u r fun s => rotateXtsDo s p.val := by
    rw [gateCommand_rotateXts, dictOnly_gate hu, rotateResult, (dictOnly_requirements hu p.val 0).2.1]
    exact congrArg (gateRun u · _) hr
  refine ⟨fun hst => ⟨_, rfl, gateWrite_reports hcmd (by decide) (by decide) fun u hu => ⟨_, hcommand (if_pos hst) u hu⟩⟩,
    fun hst hbusy => ⟨_, rfl, gateWrite_reports hcmd (by decide) (by decide) fun u hu => ⟨_, hcommand ((if_neg (not_not.mpr hst)).trans (if_pos hbusy)) u hu⟩⟩,
    fun n hst hidle hslot => ⟨_, rfl, ?_⟩⟩
  obtain ⟨u, hu, hres, hdone⟩ := gateWrite_does hcmd (by decide) (f := fun s => rotateXtsDo s p.val) (hcommand ((if_neg (not_not.mpr hst)).trans (if_neg (by simp [hidle]))))
  generalize gateWrite s rq (gateBytes 3 p 0) = t at *
  obtain ⟨-, -, hgate, -, hctr, hmem, -⟩ := dictOnly_requirements hu p.val 0
  obtain ⟨hkey, hothers, hsweep, dmem⟩ := rotateXtsDo_spec (s := u) (p := p.val) (n := n) (by rw [slotOf, hgate]; exact hslot)
  generalize rotateXtsDo u p.val = w at *
  obtain ⟨-, -, wgate, -, -, wmem, -⟩ := dictOnly_requirements hdone p.val 0
  rw [dictOnly_keySlot hu, hctr] at hkey
  exact ⟨hres, (dictOnly_keySlot hdone n).trans hkey, fun m hm => (dictOnly_keySlot hdone m).trans ((hothers m hm).trans (dictOnly_keySlot hu m)),
    by rw [wgate]; exact hsweep, wmem.trans (dmem.trans hmem)⟩

theorem rotatePrefix_runs (hcmd : MayCommand s rq 4 p 0) :
    ((partGet s p.val).st ≠ .active → Runs (.rotatePrefix rq p) s fun t => Reports s t 3)
    ∧ ((partGet s p.val).st = .active → s.kv.rebuild.isSome = true → Runs (.rotatePrefix rq p) s fun t => Reports s t 1)
    ∧ ∀ n, (partGet s p.val).st = .active → s.kv.rebuild = none → slotOf s .siphash p.val = some n → Runs (.rotatePrefix rq p) s fun t => odGet t 0x5003 0 = 0
      ∧ keySlot t n = nextKey (keySlot s n) (Config.freeNat s.freeCtr) none ∧ (∀ m, m ≠ n → keySlot t m = keySlot s m)
      ∧ t.kv.rebuild = some { rotated := [p.val], retired := [] } ∧ t.mem = s.mem := by
  have hcommand {r : Nat} (hr : rotateResult s p.val s.kv.rebuild.isSome = r) (u : State) (hu : DictOnly s u) :
      gateCommand u (gateWord 4 p 0) = gateRun u r fun s => rotatePrefixDo s p.val := by
    obtain ⟨-, hpart, -, hkv, -⟩ := dictOnly_requirements hu p.val 0
    rw [gateCommand_rotatePrefix, hkv, rotateResult, hpart]
    exact congrArg (gateRun u · _) hr
  refine ⟨fun hst => ⟨_, rfl, gateWrite_reports hcmd (by decide) (by decide) fun u hu => ⟨_, hcommand (if_pos hst) u hu⟩⟩,
    fun hst hbusy => ⟨_, rfl, gateWrite_reports hcmd (by decide) (by decide) fun u hu => ⟨_, hcommand ((if_neg (not_not.mpr hst)).trans (if_pos hbusy)) u hu⟩⟩,
    fun n hst hidle hslot => ⟨_, rfl, ?_⟩⟩
  obtain ⟨u, hu, hres, hdone⟩ := gateWrite_does hcmd (by decide) (f := fun s => rotatePrefixDo s p.val) (hcommand ((if_neg (not_not.mpr hst)).trans (if_neg (by simp [hidle]))))
  generalize gateWrite s rq (gateBytes 4 p 0) = t at *
  obtain ⟨-, -, hgate, hkv, hctr, hmem, -⟩ := dictOnly_requirements hu p.val 0
  obtain ⟨hkey, hothers, hrebuild, dmem⟩ := rotatePrefixDo_spec (s := u) (p := p.val) (n := n) (by rw [slotOf, hgate]; exact hslot) (by rw [hkv]; exact hidle)
  generalize rotatePrefixDo u p.val = w at *
  obtain ⟨-, -, -, wkv, -, wmem, -⟩ := dictOnly_requirements hdone p.val 0
  rw [dictOnly_keySlot hu, hctr] at hkey
  exact ⟨hres, (dictOnly_keySlot hdone n).trans hkey, fun m hm => (dictOnly_keySlot hdone m).trans ((hothers m hm).trans (dictOnly_keySlot hu m)),
    by rw [wkv]; exact hrebuild, wmem.trans (dmem.trans hmem)⟩

/-- An operation beyond those of R400 is clamped to none. -/
theorem gateWrite_noOperation {v : List Byte} (hon : s.tray.hub.gatehouse = true) (hmay : MayStore s rq 0x5001 0 v) (hop : 4 < nfld (leNat v) 63 60) :
    Runs (.dictWrite rq 0x5001 0 v) s fun t => odGet t 0x5001 0 = nfld (leNat v) 59 56 * 2 ^ 56 + nfld (leNat v) 15 0 ∧ DictOnly s t := by
  have hexec : exec (.dictWrite rq 0x5001 0 v) s = .next (gateWrite s rq v) := rfl
  have hclamp : gateClamp s (leNat v) = nfld (leNat v) 59 56 * 2 ^ 56 + nfld (leNat v) 15 0 := by rw [gateClamp, if_pos hop, Nat.zero_mul, Nat.zero_add]
  have hnone : nfld (nfld (leNat v) 59 56 * 2 ^ 56 + nfld (leNat v) 15 0) 63 60 = 0 := by
    simp only [nfld_eq, Nat.reduceAdd, Nat.reduceSub, Nat.reducePow]
    omega
  obtain ⟨bs, hw⟩ := dictWrite_of_mayStore hmay gateClamp gateCommand
  rw [hclamp] at hw
  generalize nfld (leNat v) 59 56 * 2 ^ 56 + nfld (leNat v) 15 0 = w at *
  have hrest (u : State) : gateCommand u w = u := by
    simp only [gateCommand.eq_1, hnone]
  rw [hrest] at hw
  refine ⟨_, hexec.trans (congrArg _ ((if_neg (by simp [hon])).trans hw)), (odGet_dictAnswer ..).trans (odGet_dictPut ..),
    (dictPut_dictOnly ..).trans (dictAnswer_dictOnly ..)⟩

end

/-- Settles O33: each command stores its word, and what its result of 0 lets it do is followed through keys, map and quadrants. -/
theorem partitionCommandsReportAndAct : Obligations.PartitionCommandsReportAndAct := fun _ _ _ =>
  ⟨fun _ hcmd => form_runs hcmd, remove_runs, rotateXts_runs, rotatePrefix_runs, fun _ hon hmay hop => gateWrite_noOperation hon hmay hop⟩

end Sys2Proof.Machine
end

section
/-! SUPPORT. O35: attestation, certificates and wrapped keys (R395, R405 to R409, R412, R416). -/

namespace Sys2Proof.Machine

open Sys2Proof Sys2Proof.Claims

/-! ### Mailbox answers (R405) -/

/-- A vector that is sent or left pending changes no mailbox. -/
theorem msixSend_mailbox (s : State) (f v : Nat) : (fnGet (msixSend s f v) f).mailbox = (fnGet s f).mailbox := by
  unfold msixSend
  extract_lets x
  split
  · rw [fnGet_fnSet]
  · rfl

/-- An answer stands in the mailbox and went out; nothing beside the dictionary and the function's registers differs. -/
theorem mailAnswer_spec (s : State) (f : Nat) (bs : List Byte) : Mail s (mailAnswer s f bs) f bs
    ∧ mailAnswer s f bs = { s with pcie := (mailAnswer s f bs).pcie, out := (mailAnswer s f bs).out } := by
  unfold mailAnswer
  extract_lets _ t
  have hbox : (fnGet t f).mailbox = cellsPutZ [] 0 bs := by rw [fnGet_fnSet]
  have ht : t = { s with pcie := t.pcie } := rfl
  clear_value t
  have hsend := msixSend_complOnly (emit t (.mailbox (funcOf f) bs)) f (if f = 0 then 0 else 9)
  have hmail := msixSend_mailbox (emit t (.mailbox (funcOf f) bs)) f (if f = 0 then 0 else 9)
  obtain ⟨more, hout⟩ := msixSend_outGrows (emit t (.mailbox (funcOf f) bs)) f (if f = 0 then 0 else 9)
  have hpav := (msixSend_logOnly (emit t (.mailbox (funcOf f) bs)) f (if f = 0 then 0 else 9)).2
  have hdict : DictOnly (emit t (.mailbox (funcOf f) bs)) _ := msixSend_dictOnly (emit t (.mailbox (funcOf f) bs)) f (if f = 0 then 0 else 9)
  generalize msixSend (emit t (.mailbox (funcOf f) bs)) f (if f = 0 then 0 else 9) = u at *
  refine ⟨⟨hmail.trans hbox, more, ?_⟩, ?_⟩
  · rw [hout, ht]
    rfl
  · unfold DictOnly at hdict
    rw [hpav] at hdict
    rw [hdict, ht]
    rfl

theorem mailAnswer_gate (s : State) (f : Nat) (bs : List Byte) : (mailAnswer s f bs).gate = s.gate ∧ (mailAnswer s f bs).freeCtr = s.freeCtr := by
  rw [(mailAnswer_spec s f bs).2]
  exact ⟨rfl, rfl⟩

/-- What a message is to the outside does not depend on what the Gatehouse did before it. -/
theorem Mail.of_out {s u t : State} {f : Nat} {bs : List Byte} (h : Mail u t f bs) (hout : u.out = s.out) : Mail s t f bs := by
  rw [Mail, ← hout]
  exact h

/-! ### Attestation (R395, R405, R406, R409) -/

section
variable {s : State} {f : Func} (hon : s.tray.hub.gatehouse = true) (hbar : barOn s f.val = true)
include hon hbar

theorem attestReq_runs (hid : s.gate.identityOff = false) (nonce : BitVec 256) :
    (f = 0 → Runs (.attestReq f nonce) s fun t => Mail s t 0 (reportMsg (reportBody s 0xFF nonce 0 0)) ∧ t.gate = s.gate)
    ∧ (f ≠ 0 → (partGet s (f.val - 1)).st ≠ .active → Runs (.attestReq f nonce) s fun t =>
        Mail s t f.val (reportMsg (reportBody s (f.val - 1) nonce 0 0)) ∧ mget t.gate.ephem (f.val - 1) = none)
    ∧ (f ≠ 0 → (partGet s (f.val - 1)).st = .active → Runs (.attestReq f nonce) s fun t =>
        let x := Config.freeNat s.freeCtr
        let k := Config.freeNat (s.freeCtr + 1)
        let body := reportBody s (f.val - 1) nonce (Config.x25519Pub x) (Config.mlkemPub k)
        Mail s t f.val (reportMsg body) ∧ t.freeCtr = s.freeCtr + 2
        ∧ mget t.gate.ephem (f.val - 1) = some { digest := Config.sha384 body, xPriv := x, kemPriv := k, at_ := s.clk.now }) := by
  have htaken : ¬ (!barOn s f.val || !s.tray.hub.gatehouse || s.gate.identityOff) = true := by simp [hon, hbar, hid]
  have hne (hf : f ≠ 0) : f.val ≠ 0 := fun h => hf (Fin.ext h)
  refine ⟨fun hf => ?_, fun hf hst => ?_, fun hf hst => ?_⟩
  · subst hf
    exact ⟨_, (if_neg htaken).trans (if_pos rfl), (mailAnswer_spec ..).1, (mailAnswer_gate ..).1⟩
  · refine ⟨_, (if_neg htaken).trans ((if_neg (hne hf)).trans (if_pos hst)), Mail.of_out (mailAnswer_spec ..).1 rfl, ?_⟩
    rw [(mailAnswer_gate ..).1]
    exact (mget_mdel ..).trans (if_pos rfl)
  · refine ⟨_, (if_neg htaken).trans ((if_neg (hne hf)).trans (if_neg (not_not.mpr hst))), Mail.of_out (mailAnswer_spec ..).1 rfl, (mailAnswer_gate ..).2, ?_⟩
    rw [(mailAnswer_gate ..).1]
    exact mget_mset_same ..

theorem certReq_runs : Runs (.certReq (.mailbox f)) s fun t =>
    Mail s t f.val (([6, 0, 0, 0] ++ leBytes 8192 s.flash.certificate).take 8192) ∧ t.gate = s.gate :=
  ⟨_, if_pos (by simp [hon, hbar]), (mailAnswer_spec ..).1, (mailAnswer_gate ..).1⟩

end

theorem ephemeralKeyExpiry_runs {s : State} {p : PartId} {e : Ephemeral} (he : mget s.gate.ephem p.val = some e) :
    (e.at_ + 60000000000 ≤ s.clk.now → Runs (.ephemeralKeyExpiry p) s fun t => mget t.gate.ephem p.val = none ∧ t = { s with gate := { s.gate with ephem := t.gate.ephem } })
    ∧ (s.clk.now < e.at_ + 60000000000 → Runs (.ephemeralKeyExpiry p) s fun t => t = s) := by
  have hexec : exec (.ephemeralKeyExpiry p) s =
      if s.clk.now ≥ e.at_ + 60000000000 then .next { s with gate := { s.gate with ephem := mdel s.gate.ephem p.val } } else .next s := by
    change execEphemeralKeyExpiry p s = _
    rw [execEphemeralKeyExpiry, he]
  exact ⟨fun h => ⟨_, hexec.trans (if_pos h), (mget_mdel ..).trans (if_pos rfl), rfl⟩, fun h => ⟨_, hexec.trans (if_neg (by omega)), rfl⟩⟩

theorem attestationAnswersWithFreshKeys : Claims.AttestationAnswersWithFreshKeys := fun _ hon =>
  ⟨fun _ nonce hbar hid => attestReq_runs hon hbar hid nonce, fun _ hbar => certReq_runs hon hbar,
    fun _ hpav => ⟨_, if_pos (by simp [hpav, hon]), rfl⟩, fun _ _ he => ephemeralKeyExpiry_runs he⟩

/-! ### Key release (R407 to R409, R412) -/

/-- A GCM descriptor still holds the key that a slot keeps as OLD (R412). -/
def oldHeld (s : State) (n : Nat) : Bool := match (keySlot s n).old with | some (g, _) => gcmHolds s n g | none => false

/-- What an entry that opens does (R408): its key is installed at once or until its activation time, or OLD is dropped. -/
def wrapTaken (s : State) (e : WrapEntry) (b : List Byte) (install : Bool) : State :=
  let n := e.slot.toNat
  if install then
    (if e.activation = 0 then keyActivate s n (leNat b) else keySlotSet s n { keySlot s n with next := some (leNat b, e.activation) })
  else
    let k := keySlot s n
    if oldHeld s n then keySlotSet s n { k with dropDue := true }
    else keySlotSet s n { k with old := none }

/-- The key pair of the partition is the one that the message names. -/
def ephemNamed (s : State) (p : Nat) (w : WrapHead) : Bool := match mget s.gate.ephem p with | some x => x.digest == w.digest | none => false

/-- The KEY_ACK of a message of one entry, and the end of the pair that it names (R408, R409). -/
def wrapAcked (s : State) (p : Nat) (w : WrapHead) (st : Nat) : State :=
  let acks := mgetD s.gate.acks (p + 1) [] ++ [st]
  mailAnswer { s with gate := { s.gate with acks := mdel s.gate.acks (p + 1), ephem := if ephemNamed s p w then mdel s.gate.ephem p else s.gate.ephem } } (p + 1)
    ([4, BitVec.ofNat 8 acks.length, 0, 0] ++ acks.map (BitVec.ofNat 8))

/-- At most acknowledgments, key pairs and key slots differ. -/
def ReleaseOnly (s t : State) : Prop := t = { s with gate := { s.gate with acks := t.gate.acks, ephem := t.gate.ephem, slots := t.gate.slots } }

/-- The pair of the partition as the message leaves it opened. -/
def wrapEphem (s : State) (p : Nat) (w : WrapHead) (x : Ephemeral) : Ephemeral :=
  if x.digest = w.digest ∧ x.wrap.isNone ∧ s.clk.now < x.at_ + 60000000000 then { x with wrap := some (wrapKey x w p) } else x

theorem wrapOpen_spec (s : State) (p : Nat) (w : WrapHead) : let t := wrapOpen s p w
    ReleaseOnly s t ∧ t.gate.slots = s.gate.slots ∧ mgetD t.gate.acks (p + 1) [] = [] ∧ mget t.gate.ephem p = (mget s.gate.ephem p).map (wrapEphem s p w) := by
  intro r
  unfold r wrapOpen
  extract_lets _ t
  have hacks : mgetD t.gate.acks (p + 1) [] = [] := mgetD_mset_same ..
  have ht : ReleaseOnly s t := rfl
  cases he : mget s.gate.ephem p with
  | none =>
    have he' : mget t.gate.ephem p = none := he
    exact ⟨ht, rfl, hacks, he'⟩
  | some x =>
    have he' : mget t.gate.ephem p = some x := he
    dsimp only
    by_cases hx : x.digest = w.digest ∧ x.wrap.isNone ∧ s.clk.now < x.at_ + 60000000000
    · rw [if_pos hx]
      refine ⟨rfl, rfl, hacks, (mget_mset_same ..).trans ?_⟩
      rw [Option.map_some, wrapEphem, if_pos hx]
    · rw [if_neg hx]
      refine ⟨ht, rfl, hacks, he'.trans ?_⟩
      rw [Option.map_some, wrapEphem, if_neg hx]

/-- A key that becomes CUR, the one before it OLD (R408). -/
theorem keyActivate_spec (s : State) (n key : Nat) : let t := keyActivate s n key
    keySlot t n = { nextKey (keySlot s n) key ((keySlot s n).curKey.map fun c => ((keySlot s n).cur, c)) with next := none }
    ∧ (∀ m, m ≠ n → keySlot t m = keySlot s m) ∧ t = { s with gate := { s.gate with slots := t.gate.slots } } := by
  have hnext : keySlot (slotNext s n key true) n = nextKey (keySlot s n) key ((keySlot s n).curKey.map fun c => ((keySlot s n).cur, c)) := keySlot_keySlotSet ..
  unfold keyActivate
  refine ⟨?_, fun m hm => (keySlot_keySlotSet_ne _ _ hm).trans (keySlot_keySlotSet_ne _ _ hm), rfl⟩
  rw [keySlot_keySlotSet, hnext]

/-- An entry that opens changes its own slot. -/
theorem wrapTaken_spec (s : State) (e : WrapEntry) (b : List Byte) (install : Bool) : let t := wrapTaken s e b install
    (∀ m, m ≠ e.slot.toNat → keySlot t m = keySlot s m) ∧ t = { s with gate := { s.gate with slots := t.gate.slots } } := by
  obtain ⟨-, hothers, honly⟩ := keyActivate_spec s e.slot.toNat (leNat b)
  intro r
  unfold r wrapTaken
  extract_lets n k
  have hset (x : KeySlot) : (∀ m, m ≠ n → keySlot (keySlotSet s n x) m = keySlot s m)
      ∧ keySlotSet s n x = { s with gate := { s.gate with slots := (keySlotSet s n x).gate.slots } } := ⟨fun m hm => keySlot_keySlotSet_ne _ _ hm, rfl⟩
  cases install with
  | true =>
    rw [if_pos rfl]
    split
    · exact ⟨hothers, honly⟩
    · exact hset _
  | false =>
    rw [if_neg (by decide)]
    split
    · exact hset _
    · exact hset _

/-- A message of one entry is answered, changes no slot, and ends the pair that it names. -/
theorem wrapAcked_spec {s : State} {p : Nat} {w : WrapHead} (st : Nat) (hacks : mgetD s.gate.acks (p + 1) [] = []) : let t := wrapAcked s p w st
    Mail s t (p + 1) [4, 1, 0, 0, BitVec.ofNat 8 st] ∧ (∀ m, keySlot t m = keySlot s m)
    ∧ mget t.gate.ephem p = if ephemNamed s p w then none else mget s.gate.ephem p := by
  unfold wrapAcked
  rw [hacks]
  refine ⟨Mail.of_out (mailAnswer_spec ..).1 rfl, fun m => ?_, ?_⟩
  · rw [keySlot, (mailAnswer_gate ..).1]
    rfl
  · rw [(mailAnswer_gate ..).1]
    cases ephemNamed s p w with
    | true => exact (mget_mdel ..).trans (if_pos rfl)
    | false => rfl

/-- The state in which a message's entry has been decided. -/
def wrapDecided (s : State) (p : Nat) (w : WrapHead) (e : WrapEntry) (install : Bool) : State :=
  let u := wrapOpen s p w
  if (entryStatus u p w e install).1 ≠ 0 then u else wrapTaken u e (entryStatus u p w e install).2 install

theorem wrapEntry_eq {s : State} {f p : Nat} (hf : f = p + 1) (hbar : barOn s f = true) (hon : s.tray.hub.gatehouse = true) (w : WrapHead) (e : WrapEntry) (install : Bool) :
    wrapEntry s f w e true true install = wrapAcked (wrapDecided s p w e install) p w (entryStatus (wrapOpen s p w) p w e install).1 := by
  subst hf
  have htaken : ¬ (p + 1 = 0 ∨ (!barOn s (p + 1)) = true ∨ (!s.tray.hub.gatehouse) = true ∨ ((!true) = true ∧ (mgetD s.gate.acks (p + 1) []).length ≥ 8)) := by
    simp [hbar, hon]
  exact (if_neg htaken).trans rfl

/-! ### The checks of an entry (R408, R409, R416) -/

section
variable {s : State} {p : Nat} {w : WrapHead} {e : WrapEntry} {install : Bool}

/-- The wrap key that the message may use, where the partition's pair is the one it names and was opened for it. -/
def wrapUsable (s : State) (p : Nat) (w : WrapHead) : Option Nat := (mget s.gate.ephem p).bind fun x => if x.digest = w.digest then x.wrap else none

theorem entryStatus_stale (h : wrapUsable s p w = none) : entryStatus s p w e install = (1, []) := by
  unfold entryStatus
  rw [← wrapUsable, h]

variable {key : Nat} (hkey : wrapUsable s p w = some key)
include hkey

theorem entryStatus_revoked (hst : (partGet s p).st ≠ .active) : entryStatus s p w e install = (5, []) := by
  unfold entryStatus
  rw [← wrapUsable, hkey]
  exact if_pos hst

variable (hst : (partGet s p).st = .active)
include hst

/-- The slot is the partition's and of the entry's kind (R408). -/
def EntryFits (s : State) (p : Nat) (e : WrapEntry) : Prop :=
  (e.kind = 3 ∨ e.kind = 4) ∧ kindCode (keySlot s e.slot.toNat).kind = e.kind.toNat ∧ (keySlot s e.slot.toNat).owner.toNat = p

theorem entryStatus_slot (h : ¬ EntryFits s p e) : entryStatus s p w e install = (3, []) := by
  unfold entryStatus
  rw [← wrapUsable, hkey]
  refine (if_neg (not_not.mpr hst)).trans (if_pos ?_)
  unfold EntryFits at h
  simpa [or_assoc, imp_iff_not_or] using h

variable (hfits : EntryFits s p e)
include hfits

theorem entryStatus_fits : entryStatus s p w e install =
    (match entryOpen key w e with | none => (2, []) | some b => if install && (keySlot s e.slot.toNat).old.isSome then (4, []) else (0, b)) := by
  obtain ⟨hkind, hcode, howner⟩ := hfits
  unfold entryStatus
  rw [← wrapUsable, hkey]
  refine (if_neg (not_not.mpr hst)).trans (if_neg ?_)
  simpa [hcode, howner, ← or_iff_not_imp_left] using hkind

end

/-! ### Messages of one entry (R408, R409) -/

section
variable {s : State} {f : Func} {p : Nat} (hf : f.val = p + 1) (hbar : barOn s f.val = true) (hon : s.tray.hub.gatehouse = true) {w : WrapHead} {e : WrapEntry} {install : Bool}

/-- What a message finds, opened or not, of keys and partitions is what stood there before. -/
theorem wrapOpen_reads (s : State) (p : Nat) (w : WrapHead) : let u := wrapOpen s p w
    (∀ m, keySlot u m = keySlot s m) ∧ (∀ q, partGet u q = partGet s q) ∧ u.out = s.out ∧ ∀ e, (EntryFits u p e ↔ EntryFits s p e) := by
  obtain ⟨honly, hslots, -⟩ := wrapOpen_spec s p w
  intro u
  change ReleaseOnly s u at honly
  change u.gate.slots = s.gate.slots at hslots
  clear_value u
  have hslot (m : Nat) : keySlot u m = keySlot s m := by rw [keySlot, hslots]; rfl
  refine ⟨hslot, fun q => ?_, ?_, fun e => by unfold EntryFits; rw [hslot]⟩
  · rw [partGet, honly]
    rfl
  · rw [honly]

include hf hbar hon

/-- An entry that fails a check is acknowledged with it, and changes no slot. -/
theorem wrapEntry_refused {c : Nat} {b : List Byte} (hc : c ≠ 0) (hst : entryStatus (wrapOpen s p w) p w e install = (c, b)) : let t := wrapEntry s f.val w e true true install
    Mail s t f.val [4, 1, 0, 0, BitVec.ofNat 8 c] ∧ (∀ m, keySlot t m = keySlot s m)
    ∧ mget t.gate.ephem p = if ephemNamed (wrapOpen s p w) p w then none else mget (wrapOpen s p w).gate.ephem p := by
  obtain ⟨-, -, hacks, -⟩ := wrapOpen_spec s p w
  obtain ⟨hslots, -, hout, -⟩ := wrapOpen_reads s p w
  rw [wrapEntry_eq hf hbar hon, wrapDecided, hst]
  dsimp only
  rw [if_pos hc]
  obtain ⟨hmail, hkeep, heph⟩ := wrapAcked_spec (p := p) (w := w) c hacks
  rw [hf]
  exact ⟨Mail.of_out hmail hout, fun m => (hkeep m).trans (hslots m), heph⟩

/-- An entry that passes every check is acknowledged with 0 and taken. -/
theorem wrapEntry_taken {b : List Byte} (hst : entryStatus (wrapOpen s p w) p w e install = (0, b)) : let t := wrapEntry s f.val w e true true install
    Mail s t f.val [4, 1, 0, 0, 0] ∧ (∀ m, keySlot t m = keySlot (wrapTaken (wrapOpen s p w) e b install) m)
    ∧ mget t.gate.ephem p = if ephemNamed (wrapOpen s p w) p w then none else mget (wrapOpen s p w).gate.ephem p := by
  obtain ⟨-, -, hacks, -⟩ := wrapOpen_spec s p w
  obtain ⟨-, -, hout, -⟩ := wrapOpen_reads s p w
  rw [wrapEntry_eq hf hbar hon, wrapDecided, hst]
  dsimp only
  rw [if_neg (not_not.mpr rfl)]
  generalize wrapOpen s p w = u at *
  obtain ⟨-, htaken⟩ := wrapTaken_spec u e b install
  generalize wrapTaken u e b install = v at *
  have hgate : v.gate.acks = u.gate.acks ∧ v.gate.ephem = u.gate.ephem ∧ v.out = u.out := by
    rw [htaken]
    exact ⟨rfl, rfl, rfl⟩
  obtain ⟨hacks', heph', hout'⟩ := hgate
  obtain ⟨hmail, hkeep, heph⟩ := wrapAcked_spec (s := v) (p := p) (w := w) 0 (by rw [hacks']; exact hacks)
  rw [hf]
  refine ⟨Mail.of_out hmail (hout'.trans hout), hkeep, heph.trans ?_⟩
  rw [ephemNamed, heph']
  rfl

/-- Whatever the entry asks for, it is refused, and the pair is left so. -/
theorem both_refused {c : Nat} {left : Option Ephemeral} (hc : c ≠ 0) (hst : ∀ install, entryStatus (wrapOpen s p w) p w e install = (c, []))
    (hleft : (if ephemNamed (wrapOpen s p w) p w then none else mget (wrapOpen s p w).gate.ephem p) = left) :
    (e.action = 1 → Runs (.keyInstall f w e true true) s fun t => Mail s t f.val [4, 1, 0, 0, BitVec.ofNat 8 c] ∧ (∀ m, keySlot t m = keySlot s m) ∧ mget t.gate.ephem p = left)
    ∧ (e.action = 2 → Runs (.keyDropOld f w e true true) s fun t => Mail s t f.val [4, 1, 0, 0, BitVec.ofNat 8 c] ∧ (∀ m, keySlot t m = keySlot s m) ∧ mget t.gate.ephem p = left) := by
  subst hleft
  exact ⟨fun h => ⟨_, if_pos h, wrapEntry_refused hf hbar hon hc (hst true)⟩, fun h => ⟨_, if_pos h, wrapEntry_refused hf hbar hon hc (hst false)⟩⟩

omit hf hbar hon in
theorem wrap_noPair (hx : mget s.gate.ephem p = none) : wrapUsable (wrapOpen s p w) p w = none
    ∧ (if ephemNamed (wrapOpen s p w) p w then none else mget (wrapOpen s p w).gate.ephem p) = none := by
  have heph := (wrapOpen_spec s p w).2.2.2
  rw [hx] at heph
  rw [wrapUsable, ephemNamed, heph]
  exact ⟨rfl, rfl⟩

end

section
variable {s : State} {p : Nat} {w : WrapHead} {x : Ephemeral} (hx : mget s.gate.ephem p = some x)
include hx

theorem wrap_otherPair (hd : x.digest ≠ w.digest) : wrapUsable (wrapOpen s p w) p w = none
    ∧ (if ephemNamed (wrapOpen s p w) p w then none else mget (wrapOpen s p w).gate.ephem p) = some x := by
  have heph := (wrapOpen_spec s p w).2.2.2
  rw [hx, Option.map_some, wrapEphem, if_neg fun h => hd h.1] at heph
  rw [wrapUsable, ephemNamed, heph]
  exact ⟨if_neg hd, if_neg (by simp [hd])⟩

/-- The pair that a message names ends with it. -/
theorem wrap_ends (hd : x.digest = w.digest) : (if ephemNamed (wrapOpen s p w) p w then none else mget (wrapOpen s p w).gate.ephem p) = none := by
  have heph := (wrapOpen_spec s p w).2.2.2
  have hdigest : (wrapEphem s p w x).digest = x.digest := by
    unfold wrapEphem
    split
    · rfl
    · rfl
  rw [hx, Option.map_some] at heph
  rw [ephemNamed, heph]
  exact if_pos (by simp [hdigest, hd])

theorem wrapUsable_expired (hd : x.digest = w.digest) (hw : x.wrap = none) (hlate : x.at_ + 60000000000 ≤ s.clk.now) : wrapUsable (wrapOpen s p w) p w = none := by
  have heph := (wrapOpen_spec s p w).2.2.2
  rw [hx, Option.map_some, wrapEphem, if_neg fun h => absurd h.2.2 (by omega)] at heph
  rw [wrapUsable, heph, Option.bind_some, if_pos hd, hw]

theorem wrapUsable_live (hd : x.digest = w.digest) (hw : x.wrap = none) (hlive : s.clk.now < x.at_ + 60000000000) : wrapUsable (wrapOpen s p w) p w = some (wrapKey x w p) := by
  have heph := (wrapOpen_spec s p w).2.2.2
  rw [hx, Option.map_some, wrapEphem, if_pos ⟨hd, by rw [hw]; rfl, hlive⟩] at heph
  rw [wrapUsable, heph, Option.bind_some]
  exact if_pos hd

end

section
variable {s : State} {f : Func} {p : Nat} (hf : f.val = p + 1) (hbar : barOn s f.val = true) (hon : s.tray.hub.gatehouse = true) {w : WrapHead} {e : WrapEntry}
  {x : Ephemeral} (hx : mget s.gate.ephem p = some x) (hd : x.digest = w.digest) (hw : x.wrap = none) (hlive : s.clk.now < x.at_ + 60000000000)
  (hst : (partGet s p).st = .active) (hfits : EntryFits s p e)
include hx hd hw hlive hst hfits

/-- The status of an entry that fits its slot. -/
theorem entryStatus_opened (install : Bool) : entryStatus (wrapOpen s p w) p w e install =
    (match entryOpen (wrapKey x w p) w e with
    | none => (2, [])
    | some b => if install && (keySlot s e.slot.toNat).old.isSome then (4, []) else (0, b)) := by
  obtain ⟨hslots, hparts, -, hfit⟩ := wrapOpen_reads s p w
  rw [entryStatus_fits (wrapUsable_live hx hd hw hlive) (by rw [hparts]; exact hst) ((hfit e).mpr hfits), hslots]

include hf hbar hon

/-- An entry whose tag fails is refused, whatever it asks for. -/
theorem wrapEntry_unauthentic (hopen : entryOpen (wrapKey x w p) w e = none) (install : Bool) : let t := wrapEntry s f.val w e true true install
    Mail s t f.val [4, 1, 0, 0, 2] ∧ ∀ m, keySlot t m = keySlot s m := by
  have hstatus : entryStatus (wrapOpen s p w) p w e install = (2, []) := by rw [entryStatus_opened hx hd hw hlive hst hfits install, hopen]
  obtain ⟨hmail, hkeep, -⟩ := wrapEntry_refused hf hbar hon (by decide) hstatus
  exact ⟨hmail, hkeep⟩

theorem keyInstall_runs (hact : e.action = 1) : Runs (.keyInstall f w e true true) s fun t => mget t.gate.ephem p = none ∧
    match entryOpen (wrapKey x w p) w e with
    | none => Mail s t f.val [4, 1, 0, 0, 2] ∧ ∀ m, keySlot t m = keySlot s m
    | some b => ((keySlot s e.slot.toNat).old.isSome = true → Mail s t f.val [4, 1, 0, 0, 4] ∧ ∀ m, keySlot t m = keySlot s m)
      ∧ ((keySlot s e.slot.toNat).old = none → Mail s t f.val [4, 1, 0, 0, 0] ∧ (∀ m, m ≠ e.slot.toNat → keySlot t m = keySlot s m)
        ∧ keySlot t e.slot.toNat = if e.activation = 0
            then { nextKey (keySlot s e.slot.toNat) (leNat b) ((keySlot s e.slot.toNat).curKey.map fun c => ((keySlot s e.slot.toNat).cur, c)) with next := none }
            else { keySlot s e.slot.toNat with next := some (leNat b, e.activation) }) := by
  have hstatus := entryStatus_opened hx hd hw hlive hst hfits true
  have hends := wrap_ends hx hd
  obtain ⟨hslots, -⟩ := wrapOpen_reads s p w
  refine ⟨_, if_pos hact, ?_⟩
  cases hopen : entryOpen (wrapKey x w p) w e with
  | none =>
    rw [hopen] at hstatus
    obtain ⟨hmail, hkeep, heph⟩ := wrapEntry_refused hf hbar hon (by decide) hstatus
    exact ⟨heph.trans hends, hmail, hkeep⟩
  | some b =>
    rw [hopen, Bool.true_and] at hstatus
    cases hold : (keySlot s e.slot.toNat).old with
    | some o =>
      rw [hold] at hstatus
      obtain ⟨hmail, hkeep, heph⟩ := wrapEntry_refused hf hbar hon (by decide) hstatus
      exact ⟨heph.trans hends, fun _ => ⟨hmail, hkeep⟩, fun h => nomatch h⟩
    | none =>
      rw [hold] at hstatus
      obtain ⟨hmail, hkeep, heph⟩ := wrapEntry_taken hf hbar hon hstatus
      have hothers := (wrapTaken_spec (wrapOpen s p w) e b true).1
      have hslot := (keyActivate_spec (wrapOpen s p w) e.slot.toNat (leNat b)).1
      refine ⟨heph.trans hends, fun h => (by simp at h), fun _ => ⟨hmail, fun m hm => (hkeep m).trans ((hothers m hm).trans (hslots m)), (hkeep _).trans ?_⟩⟩
      rw [hslots] at hslot
      rw [wrapTaken, if_pos rfl]
      split
      · exact hslot
      · rw [keySlot_keySlotSet, hslots]

theorem keyDropOld_runs (hact : e.action = 2) : Runs (.keyDropOld f w e true true) s fun t => mget t.gate.ephem p = none ∧
    match entryOpen (wrapKey x w p) w e with
    | none => Mail s t f.val [4, 1, 0, 0, 2] ∧ ∀ m, keySlot t m = keySlot s m
    | some _ => Mail s t f.val [4, 1, 0, 0, 0] ∧ (∀ m, m ≠ e.slot.toNat → keySlot t m = keySlot s m)
      ∧ ((∀ g o, (keySlot s e.slot.toNat).old = some (g, o) → gcmHolds s e.slot.toNat g = false) → keySlot t e.slot.toNat = { keySlot s e.slot.toNat with old := none })
      ∧ ((∃ g o, (keySlot s e.slot.toNat).old = some (g, o) ∧ gcmHolds s e.slot.toNat g = true) → keySlot t e.slot.toNat = { keySlot s e.slot.toNat with dropDue := true }) := by
  have hstatus := entryStatus_opened hx hd hw hlive hst hfits false
  have hends := wrap_ends hx hd
  obtain ⟨hslots, -⟩ := wrapOpen_reads s p w
  refine ⟨_, if_pos hact, ?_⟩
  cases hopen : entryOpen (wrapKey x w p) w e with
  | none =>
    rw [hopen] at hstatus
    obtain ⟨hmail, hkeep, heph⟩ := wrapEntry_refused hf hbar hon (by decide) hstatus
    exact ⟨heph.trans hends, hmail, hkeep⟩
  | some b =>
    rw [hopen] at hstatus
    obtain ⟨hmail, hkeep, heph⟩ := wrapEntry_taken hf hbar hon hstatus
    have hothers := (wrapTaken_spec (wrapOpen s p w) e b false).1
    have hholds (g : Nat) : gcmHolds (wrapOpen s p w) e.slot.toNat g = gcmHolds s e.slot.toNat g := by rw [(wrapOpen_spec s p w).1]; rfl
    have hslot : keySlot (wrapTaken (wrapOpen s p w) e b false) e.slot.toNat =
        if oldHeld (wrapOpen s p w) e.slot.toNat then { keySlot s e.slot.toNat with dropDue := true } else { keySlot s e.slot.toNat with old := none } := by
      rw [wrapTaken, if_neg (by decide)]
      split
      · rw [keySlot_keySlotSet, hslots]
      · rw [keySlot_keySlotSet, hslots]
    rw [oldHeld, hslots] at hslot
    refine ⟨heph.trans hends, hmail, fun m hm => (hkeep m).trans ((hothers m hm).trans (hslots m)), fun h => ?_, fun ⟨g, o, ho, h⟩ => ?_⟩
    · refine (hkeep _).trans (hslot.trans (if_neg ?_))
      cases ho : (keySlot s e.slot.toNat).old with
      | none => simp
      | some o => simp [hholds, h _ _ ho]
    · refine (hkeep _).trans (hslot.trans (if_pos ?_))
      rw [ho]
      exact (hholds g).trans h

end

/-! ### Activation (R408, R412) -/

theorem keyActivation_runs {n : Fin 64} {key : Nat} {at_ : BitVec 64} {s : State} (hnext : (keySlot s n.val).next = some (key, at_)) :
    (at_.toNat ≤ s.clk.timebase.toNat → Runs (.keyActivation n) s fun t =>
      keySlot t n.val = { nextKey (keySlot s n.val) key ((keySlot s n.val).curKey.map fun c => ((keySlot s n.val).cur, c)) with next := none }
      ∧ (∀ m, m ≠ n.val → keySlot t m = keySlot s m) ∧ t = { s with gate := t.gate })
    ∧ (s.clk.timebase.toNat < at_.toNat → Runs (.keyActivation n) s fun t => t = s) := by
  have hexec : exec (.keyActivation n) s = if s.clk.timebase.toNat ≥ at_.toNat then .next (keyActivate s n.val key) else .next s := by
    change execKeyActivation n s = _
    rw [execKeyActivation, hnext]
  obtain ⟨hslot, hothers, honly⟩ := keyActivate_spec s n.val key
  refine ⟨fun h => ⟨_, hexec.trans (if_pos h), hslot, hothers, ?_⟩, fun h => ⟨_, hexec.trans (if_neg (by omega)), rfl⟩⟩
  rw [honly]

theorem wrappedKeysInstallAndDrop : Claims.WrappedKeysInstallAndDrop := by
  refine ⟨fun f w e s hne hbar hon => ?_, fun n key at_ s hnext => keyActivation_runs hnext⟩
  have hf : f.val = f.val - 1 + 1 := by
    have : f.val ≠ 0 := fun h => hne (Fin.ext h)
    omega
  generalize f.val - 1 = p at *
  have hread := wrapOpen_reads s p w
  obtain ⟨hslots, hparts, -, hfit⟩ := hread
  refine ⟨fun hx => ?_, fun x hx => ⟨fun hd => ?_, fun hd hw hlate => ?_, fun hd hw hlive => ⟨fun hst => ?_, fun hst => ⟨fun hfits => ?_, fun hfits => ⟨?_, ?_⟩⟩⟩⟩⟩
  · exact both_refused hf hbar hon (by decide) (fun _ => entryStatus_stale (wrap_noPair hx).1) (wrap_noPair hx).2
  · exact both_refused hf hbar hon (by decide) (fun _ => entryStatus_stale (wrap_otherPair hx hd).1) (wrap_otherPair hx hd).2
  · exact both_refused hf hbar hon (by decide) (fun _ => entryStatus_stale (wrapUsable_expired hx hd hw hlate)) (wrap_ends hx hd)
  · exact both_refused hf hbar hon (by decide) (fun _ => entryStatus_revoked (wrapUsable_live hx hd hw hlive) (by rw [hparts]; exact hst)) (wrap_ends hx hd)
  · exact both_refused hf hbar hon (by decide)
      (fun _ => entryStatus_slot (wrapUsable_live hx hd hw hlive) (by rw [hparts]; exact hst) fun h => hfits ((hfit e).mp h)) (wrap_ends hx hd)
  · exact keyInstall_runs hf hbar hon hx hd hw hlive hst hfits
  · exact keyDropOld_runs hf hbar hon hx hd hw hlive hst hfits

/-- Settles O35: attestation, certificates, the checks of a wrapped key, and what an entry that passes them does. -/
theorem keyServiceMessagesAreAnswered : Obligations.KeyServiceMessagesAreAnswered := ⟨attestationAnswersWithFreshKeys, wrappedKeysInstallAndDrop⟩

end Sys2Proof.Machine
end

section
/-! SUPPORT. O25: submission and completion doorbells, taken entries and moderated messages (R250 to R255, R429, R488, R490, R492, R497). -/

namespace Sys2Proof.Machine

open Sys2Proof Sys2Proof.Claims

/-! ### Counters of the host's writes (R485, R498) -/

/-- A clamp that is counted changes nothing but the counters. -/
theorem hostClamp_spec (s : State) (f n : Nat) : let t := hostClamp s f n
    t = { s with pav := t.pav, pcie := t.pcie } ∧ fnGet t f = { fnGet s f with clamps := if n = 0 then (fnGet s f).clamps else min ((fnGet s f).clamps + n) (2 ^ 32 - 1) } := by
  unfold hostClamp
  split
  · exact ⟨rfl, rfl⟩
  · exact ⟨rfl, fnGet_fnSet ..⟩

/-- A clamp counted where there was one. -/
def clampIf (s : State) (f : Nat) (bad : Bool) : State := if bad then hostClamp s f 1 else s

theorem clampIf_spec (s : State) (f : Nat) (bad : Bool) : let t := clampIf s f bad
    t = { s with pav := t.pav, pcie := t.pcie } ∧ fnGet t f = { fnGet s f with clamps := if bad then min ((fnGet s f).clamps + 1) (2 ^ 32 - 1) else (fnGet s f).clamps } := by
  cases bad with
  | false => exact ⟨rfl, rfl⟩
  | true => exact hostClamp_spec s f 1

theorem discard_spec (s : State) (fn : Nat) : (fnGet (discard s fn) fn).discards = min ((fnGet s fn).discards + 1) (2 ^ 32 - 1)
    ∧ discard s fn = { s with pcie := (discard s fn).pcie } := by
  refine ⟨?_, rfl⟩
  rw [discard, fnGet_fnSet]

/-! ### Submission doorbells (R250, R488) -/

/-- The step of a submission doorbell. -/
def subStep (s : State) (f : Vf) (r v : Nat) : Nat × Bool :=
  let q := sqGet (fnGet s (f.val + 1)) r
  bellStep q.tail (2 ^ q.log2 - (q.tail + 65536 - q.head) % 65536) v

/-- The entries that a submission doorbell takes. -/
def subEntries (s : State) (f : Vf) (r : Fin 8) (d : Nat) : List Taken :=
  let x := fnGet s (f.val + 1)
  let q := sqGet x r.val
  (List.range d).map fun i =>
    { f := f, ring := r, entry := mgetD x.ringMem (sqBase x r.val + (q.tail + i) % 2 ^ q.log2) 0, tArrive := s.clk.timebase.toNat % 2 ^ 48, arriveAt := s.clk.now }

/-- The tail of a submission ring stored, and its entries taken. -/
def subTaken (s : State) (f : Vf) (r : Fin 8) (d : Nat) : State :=
  let x := fnGet s (f.val + 1)
  let q := sqGet x r.val
  let t := (q.tail + d) % 65536
  { fnSet s (f.val + 1) { x with sq := mset x.sq r.val { q with tail := t, head := t } } with car := { s.car with taken := s.car.taken ++ subEntries s f r d } }

theorem subTaken_spec (s : State) (f : Vf) (r : Fin 8) (d : Nat) : let t := subTaken s f r d
    t.car = { s.car with taken := s.car.taken ++ subEntries s f r d }
    ∧ (sqGet (fnGet t (f.val + 1)) r.val).tail = ((sqGet (fnGet s (f.val + 1)) r.val).tail + d) % 65536 ∧ (fnGet t (f.val + 1)).clamps = (fnGet s (f.val + 1)).clamps := by
  have hfn : fnGet (subTaken s f r d) (f.val + 1) = { fnGet s (f.val + 1) with sq := mset (fnGet s (f.val + 1)).sq r.val { sqGet (fnGet s (f.val + 1)) r.val with
      tail := ((sqGet (fnGet s (f.val + 1)) r.val).tail + d) % 65536, head := ((sqGet (fnGet s (f.val + 1)) r.val).tail + d) % 65536 } } := fnGet_fnSet ..
  refine ⟨rfl, ?_, ?_⟩
  · rw [hfn, sqGet, mgetD_mset_same]
  · rw [hfn]

section
variable {f : Vf} {s : State} (hbar : barOn s (f.val + 1) = true)
include hbar

theorem bellSubmit_discards {r : Nat} (v : Nat) (h : (sqGet (fnGet s (f.val + 1)) r).log2 = 0 ∨ bellOk s f = false) : bellSubmit s f r v = discard s (f.val + 1) := by
  rw [bellSubmit, if_neg (by simp [hbar])]
  exact if_pos (h.imp_right fun h => by simp [h])

theorem bellSubmit_takes {r : Fin 8} (v : Nat) (hon : (sqGet (fnGet s (f.val + 1)) r.val).log2 ≠ 0) (hok : bellOk s f = true) :
    bellSubmit s f r.val v = clampIf (subTaken s f r (subStep s f r.val v).1) (f.val + 1) (subStep s f r.val v).2 := by
  have hring : (⟨r.val % 8, Nat.mod_lt _ (by decide)⟩ : Fin 8) = r := Fin.ext (Nat.mod_eq_of_lt r.isLt)
  have htaken : ¬ ((sqGet (fnGet s (f.val + 1)) r.val).log2 = 0 ∨ (!bellOk s f) = true) := by simp [hon, hok]
  rw [bellSubmit, if_neg (by simp [hbar])]
  refine (if_neg htaken).trans ?_
  rw [hring]
  rfl

theorem submissionDoorbell_runs (r : Fin 8) (v : W32) :
    let x := fnGet s (f.val + 1)
    let q := sqGet x r.val
    let d := bellStep q.tail (2 ^ q.log2 - (q.tail + 65536 - q.head) % 65536) v.toNat
    (q.log2 ≠ 0 → bellOk s f = true → Runs (.submissionDoorbell f r v) s fun t =>
      t.car.taken = s.car.taken ++ (List.range d.1).map (fun i =>
        { f := f, ring := r, entry := mgetD x.ringMem (sqBase x r.val + (q.tail + i) % 2 ^ q.log2) 0, tArrive := s.clk.timebase.toNat % 2 ^ 48, arriveAt := s.clk.now })
      ∧ (sqGet (fnGet t (f.val + 1)) r.val).tail = (q.tail + d.1) % 65536
      ∧ (fnGet t (f.val + 1)).clamps = (if d.2 then min (x.clamps + 1) (2 ^ 32 - 1) else x.clamps)
      ∧ t.car = { s.car with taken := t.car.taken })
    ∧ (q.log2 = 0 ∨ bellOk s f = false → Runs (.submissionDoorbell f r v) s fun t =>
        (fnGet t (f.val + 1)).discards = min (x.discards + 1) (2 ^ 32 - 1) ∧ t = { s with pcie := t.pcie }) := by
  refine ⟨fun hon hok => ⟨_, congrArg Host.Outcome.next (bellSubmit_takes hbar v.toNat hon hok), ?_⟩,
    fun h => ⟨_, congrArg Host.Outcome.next (bellSubmit_discards hbar v.toNat h), discard_spec ..⟩⟩
  obtain ⟨hcar, htail, hclamps⟩ := subTaken_spec s f r (subStep s f r.val v.toNat).1
  generalize subTaken s f r (subStep s f r.val v.toNat).1 = u at *
  obtain ⟨honly, hfn⟩ := clampIf_spec u (f.val + 1) (subStep s f r.val v.toNat).2
  generalize clampIf u (f.val + 1) (subStep s f r.val v.toNat).2 = t at *
  have hcar' : t.car = { s.car with taken := s.car.taken ++ subEntries s f r (subStep s f r.val v.toNat).1 } := by
    rw [honly]
    exact hcar
  refine ⟨by rw [hcar']; rfl, ?_, ?_, by rw [hcar']⟩
  · rw [hfn]
    exact htail
  · rw [hfn, ← hclamps]
    rfl

end

/-! ### Entries taken up (R251, R429, R497) -/

theorem submissionNop_runs {s : State} {i : Nat} {k : Taken} (hpick : takenPick (takenQueue s) 0 = some (i, k)) : Runs .submissionNop s fun t =>
    t.car.taken = s.car.taken.eraseIdx i ∧ mget t.car.subCount (8 * (k.f.val + 1) + k.ring.val) = some (mgetD s.car.subCount (8 * (k.f.val + 1) + k.ring.val) 0 + 1)
    ∧ t.car.reqs = s.car.reqs ∧ t.out = s.out := by
  have hexec : exec .submissionNop s = .next (takenDrop (hostClamp s (k.f.val + 1) (eClamped s k.f.val k.entry).2) i k) := by
    change execSubmissionNop s = _
    rw [execSubmissionNop, hpick]
  obtain ⟨honly, -⟩ := hostClamp_spec s (k.f.val + 1) (eClamped s k.f.val k.entry).2
  refine ⟨_, hexec, ?_⟩
  generalize hostClamp s (k.f.val + 1) (eClamped s k.f.val k.entry).2 = u at *
  have hcar : u.car = s.car := by rw [honly]
  have hout : u.out = s.out := by rw [honly]
  refine ⟨?_, ?_, ?_, hout⟩
  · rw [← hcar]
    rfl
  · rw [← hcar]
    exact mget_mset_same ..
  · rw [← hcar]
    rfl

theorem dmaCommand_runs {s : State} {i : Nat} {k : Taken} (desc : W512) (hpick : takenPick (takenQueue s) 6 = some (i, k)) : Runs (.dmaCommand desc) s fun t =>
    t.car.taken = s.car.taken.eraseIdx i
    ∧ ∃ j, jobsOf t 68 = jobsOf s 68 ++ [j] ∧ j.desc = put desc 347 343 (k.f.val + 1) ∧ j.part = some k.f ∧ j.status = none
      ∧ j.origin = .host k.f (eCring (entryOf s k)) (eTag (entryOf s k)) := by
  have hexec : ∃ n gen, exec (.dmaCommand desc) s = .next (jobIssue (hostClamp (takenDrop s i k) (k.f.val + 1) n) 68
      { desc := put desc 347 343 (k.f.val + 1), part := some k.f, origin := .host k.f (eCring (entryOf s k)) (eTag (entryOf s k)), gen := gen }) := by
    change ∃ n gen, execDmaCommand desc s = _
    rw [execDmaCommand, hpick]
    exact ⟨_, _, rfl⟩
  obtain ⟨n, gen, hexec⟩ := hexec
  obtain ⟨honly, -⟩ := hostClamp_spec (takenDrop s i k) (k.f.val + 1) n
  refine ⟨_, hexec, ?_⟩
  generalize hostClamp (takenDrop s i k) (k.f.val + 1) n = u at *
  obtain ⟨hqueues, ⟨reads, hjobs⟩, -⟩ := jobIssue_queues u 68
    { desc := put desc 347 343 (k.f.val + 1), part := some k.f, origin := .host k.f (eCring (entryOf s k)) (eTag (entryOf s k)), gen := gen }
  have hdma : jobsOf u 68 = jobsOf s 68 := by rw [honly]; rfl
  refine ⟨?_, _, hjobs.trans (by rw [hdma]), rfl, rfl, rfl, rfl⟩
  rw [hqueues, honly]
  rfl

theorem submissionEntriesAreTakenInOrder : Claims.SubmissionEntriesAreTakenInOrder :=
  ⟨fun _ r v _ hbar => submissionDoorbell_runs hbar r v, fun _ _ _ hpick => submissionNop_runs hpick, fun _ _ _ desc hpick => dmaCommand_runs desc hpick⟩

/-! ### Completion doorbells (R254, R488, R490) -/

/-- A FINAL written frees at most its request. -/
theorem freeFinal_reqsOnly (s : State) (e : BitVec 256) : let t := freeFinal s e
    t = { s with car := { s.car with reqs := t.car.reqs }, pair := { s.pair with dirty := t.pair.dirty } } := by
  intro t
  unfold t freeFinal
  extract_lets h g
  split
  · rfl
  · extract_lets ended
    split
    · rfl
    · rfl

/-- A vector that is sent or left pending changes no ring. -/
theorem msixSend_rings (s : State) (f v : Nat) : (fnGet (msixSend s f v) f).cq = (fnGet s f).cq ∧ (msixSend s f v).car = s.car := by
  unfold msixSend
  extract_lets x
  split
  · exact ⟨by rw [fnGet_fnSet], rfl⟩
  · exact ⟨rfl, rfl⟩

/-- The ring an entry has been written to. -/
def ringWritten (now : Nat) (q : Cq) : Cq :=
  { q with tail := q.tail + 1, unsent := if decide (q.unsent + 1 ≥ q.modCount) then 0 else q.unsent + 1, firstAt := if q.unsent = 0 then now else q.firstAt }

/-- An entry written moves its ring's tail, and no entry held. -/
theorem complWrite_ring (s : State) (f c : Nat) (e : BitVec 256) : let t := complWrite s f c e
    cqGet (fnGet t f) c = ringWritten s.clk.now (cqGet (fnGet s f) c) ∧ t.car.backlog = s.car.backlog ∧ t.clk = s.clk := by
  intro t
  have hclk : t.clk = s.clk := by
    have h : ComplOnly s t := complWrite_complOnly s f c e
    rw [h]
  refine and_assoc.mp ⟨?_, hclk⟩
  unfold t complWrite
  extract_lets x q _ n sent q' u v w
  have hu : cqGet (fnGet u f) c = q' := by rw [fnGet_fnSet, cqGet, mgetD_mset_same]
  have hv : cqGet (fnGet v f) c = q' := hu
  have hv' : v.car.backlog = s.car.backlog := rfl
  have hw : cqGet (fnGet w f) c = q' ∧ w.car.backlog = s.car.backlog := by
    unfold w
    split
    · exact ⟨hv, hv'⟩
    · clear_value v
      constructor
      · rw [fnGet, show (freeFinal v _).pcie = v.pcie by rw [freeFinal_reqsOnly]]
        exact hv
      · rw [freeFinal_reqsOnly]
        exact hv'
  obtain ⟨hw, hw'⟩ := hw
  clear_value w
  split
  · obtain ⟨hcq, hcar⟩ := msixSend_rings w f q.vector
    exact ⟨by rw [cqGet, hcq]; exact hw, by rw [hcar]; exact hw'⟩
  · exact ⟨hw, hw'⟩

theorem backlogOf_backlogSet (s : State) (f c : Nat) (l : List (BitVec 256)) : backlogOf (backlogSet s f c l) f c = l := by
  unfold backlogOf backlogSet
  split
  · next h => rw [mgetD, mget_mdel, if_pos rfl, h]; rfl
  · exact mgetD_mset_same ..

/-- A ring with room for every entry held takes them all. -/
theorem backlogDrain_empties {f c : Nat} : ∀ {n : Nat} {s : State}, (backlogOf s f c).length = n → (cqGet (fnGet s f) c).tail + n ≤ (cqGet (fnGet s f) c).head + cqSize (cqGet (fnGet s f) c) →
    (cqGet (fnGet (backlogDrain s f c n) f) c).head = (cqGet (fnGet s f) c).head ∧ (cqGet (fnGet (backlogDrain s f c n) f) c).tail = (cqGet (fnGet s f) c).tail + n
    ∧ backlogOf (backlogDrain s f c n) f c = [] ∧ (n = 0 → backlogDrain s f c n = s)
  | 0, s, hlen, _ => ⟨rfl, rfl, List.length_eq_zero_iff.mp hlen, fun _ => rfl⟩
  | n + 1, s, hlen, hroom => by
    obtain ⟨e, l, hheld⟩ : ∃ e l, backlogOf s f c = e :: l := List.exists_cons_of_length_eq_add_one hlen
    have hfull : cqFull (cqGet (fnGet s f) c) = false := by simp only [cqFull, decide_eq_false_iff_not]; omega
    have hstep : backlogDrain s f c (n + 1) = backlogDrain (complWrite (backlogSet s f c l) f c e) f c n := by
      rw [backlogDrain, hheld]
      exact if_neg (by simp [hfull])
    obtain ⟨hring, hback, -⟩ := complWrite_ring (backlogSet s f c l) f c e
    have hlen' : (backlogOf (complWrite (backlogSet s f c l) f c e) f c).length = n := by
      rw [backlogOf, hback]
      change (backlogOf (backlogSet s f c l) f c).length = n
      rw [backlogOf_backlogSet]
      rw [hheld] at hlen
      exact Nat.succ.inj hlen
    have hring : cqGet (fnGet (complWrite (backlogSet s f c l) f c e) f) c = ringWritten s.clk.now (cqGet (fnGet s f) c) := hring
    generalize complWrite (backlogSet s f c l) f c e = u at *
    have hfields : (cqGet (fnGet u f) c).head = (cqGet (fnGet s f) c).head ∧ (cqGet (fnGet u f) c).tail = (cqGet (fnGet s f) c).tail + 1 ∧ cqSize (cqGet (fnGet u f) c) = cqSize (cqGet (fnGet s f) c) := by
      rw [hring]
      exact ⟨rfl, rfl, rfl⟩
    obtain ⟨hhead, htail, hsize⟩ := hfields
    obtain ⟨ihhead, ihtail, ihheld, -⟩ := backlogDrain_empties (n := n) (s := u) hlen' (by omega)
    rw [hstep]
    exact ⟨ihhead.trans hhead, by omega, ihheld, fun h => absurd h (by omega)⟩

section
variable {f : Vf} {r : Fin 9} {s : State}

/-- The head of a completion ring moved. -/
def headMoved (s : State) (fn c d : Nat) : State :=
  fnSet s fn { fnGet s fn with cq := mset (fnGet s fn).cq c { cqGet (fnGet s fn) c with head := (cqGet (fnGet s fn) c).head + d } }

theorem completionHeadDoorbell_runs (hbar : barOn s (f.val + 1) = true) (v : W32) :
    let fn := f.val + 1
    let q := cqGet (fnGet s fn) r.val
    let d := bellStep (q.head % 65536) (q.tail - q.head) v.toNat
    let l := (backlogOf s fn r.val).length
    (q.log2 ≠ 0 → bellOk s f = true → q.tail + l ≤ q.head + d.1 + cqSize q → Runs (.completionHeadDoorbell f r v) s fun t =>
      (cqGet (fnGet t fn) r.val).head = q.head + d.1 ∧ (cqGet (fnGet t fn) r.val).tail = q.tail + l ∧ backlogOf t fn r.val = [] ∧ (l = 0 → t.out = s.out))
    ∧ (q.log2 = 0 ∨ bellOk s f = false → Runs (.completionHeadDoorbell f r v) s fun t =>
        (fnGet t fn).discards = min ((fnGet s fn).discards + 1) (2 ^ 32 - 1) ∧ t = { s with pcie := t.pcie }) := by
  intro fn q d l
  refine ⟨fun hon hok hroom => ?_, fun h => ?_⟩
  · have hexec : bellHead s f r.val v.toNat = clampIf (backlogDrain (headMoved s fn r.val d.1) fn r.val (backlogOf (headMoved s fn r.val d.1) fn r.val).length) fn d.2 := by
      rw [bellHead, if_neg (by simp [hbar])]
      exact if_neg (by simp [hok]; exact hon)
    have hring : cqGet (fnGet (headMoved s fn r.val d.1) fn) r.val = { q with head := q.head + d.1 } := by rw [headMoved, fnGet_fnSet, cqGet, mgetD_mset_same]
    have hheld : backlogOf (headMoved s fn r.val d.1) fn r.val = backlogOf s fn r.val := rfl
    have hout : (headMoved s fn r.val d.1).out = s.out := rfl
    refine ⟨_, congrArg Host.Outcome.next hexec, ?_⟩
    generalize headMoved s fn r.val d.1 = u at *
    have hroom' : (cqGet (fnGet u fn) r.val).tail + (backlogOf u fn r.val).length ≤ (cqGet (fnGet u fn) r.val).head + cqSize (cqGet (fnGet u fn) r.val) := by
      rw [hring, hheld]
      exact hroom
    obtain ⟨hhead, htail, hempty, hsame⟩ := backlogDrain_empties rfl hroom'
    rw [hring] at hhead htail
    rw [hheld] at hhead htail hempty hsame ⊢
    generalize backlogDrain u fn r.val (backlogOf s fn r.val).length = w at *
    obtain ⟨honly, hfn⟩ := clampIf_spec w fn d.2
    generalize clampIf w fn d.2 = t at *
    have hcq : cqGet (fnGet t fn) r.val = cqGet (fnGet w fn) r.val := by rw [hfn]; rfl
    rw [hcq]
    refine ⟨hhead, htail, ?_, fun hl => ?_⟩
    · rw [backlogOf, honly]
      exact hempty
    · rw [honly]
      exact (by rw [hsame hl] : w.out = u.out).trans hout
  · refine ⟨_, congrArg Host.Outcome.next ?_, discard_spec s fn⟩
    rw [bellHead, if_neg (by simp [hbar])]
    exact if_pos (h.imp_right fun h => by simp [h])

/-! ### Moderation (R492) -/

/-- A vector is sent where it is unmasked, and else pending. -/
theorem msixSend_vector (s : State) (f v : Nat) : let t := msixSend s f v
    t = { s with pcie := t.pcie, out := t.out } ∧ (vecMasked (fnGet s f) v = false → t.out = .msix (funcOf f) v :: s.out)
    ∧ (vecMasked (fnGet s f) v = true → v ∈ (fnGet t f).pendingVec ∧ t.out = s.out) := by
  intro t
  unfold t msixSend
  extract_lets x
  by_cases hmask : vecMasked x v = true
  · rw [if_pos hmask]
    refine ⟨rfl, fun h => absurd hmask (by simp [x, h]), fun _ => ⟨?_, rfl⟩⟩
    rw [fnGet_fnSet]
    dsimp only
    split
    · next h => exact List.contains_iff_mem.mp h
    · exact List.mem_cons_self
  · rw [if_neg hmask]
    exact ⟨rfl, fun _ => rfl, fun h => absurd h hmask⟩

/-- No entry of the ring waits for a message. -/
def unsentCleared (s : State) (fn c : Nat) : State := fnSet s fn { fnGet s fn with cq := mset (fnGet s fn).cq c { cqGet (fnGet s fn) c with unsent := 0 } }

theorem unsentCleared_spec (s : State) (fn c : Nat) : let t := unsentCleared s fn c
    (cqGet (fnGet t fn) c).unsent = 0 ∧ t = { s with pcie := t.pcie } ∧ (fnGet t fn).msix = (fnGet s fn).msix := by
  have hfn : fnGet (unsentCleared s fn c) fn = { fnGet s fn with cq := mset (fnGet s fn).cq c { cqGet (fnGet s fn) c with unsent := 0 } } := fnGet_fnSet ..
  refine ⟨?_, rfl, ?_⟩
  · rw [hfn, cqGet, mgetD_mset_same]
  · rw [hfn]

theorem msixModerationTimer_sends (hon : (cqGet (fnGet s (f.val + 1)) r.val).log2 ≠ 0) (hunsent : 0 < (cqGet (fnGet s (f.val + 1)) r.val).unsent)
    (htime : (cqGet (fnGet s (f.val + 1)) r.val).modTime ≠ 0)
    (hdue : (cqGet (fnGet s (f.val + 1)) r.val).firstAt + (cqGet (fnGet s (f.val + 1)) r.val).modTime * 1000 ≤ s.clk.now) :
    let fn := f.val + 1
    let q := cqGet (fnGet s fn) r.val
    Runs (.msixModerationTimer f r) s fun t => (cqGet (fnGet t fn) r.val).unsent = 0 ∧ t = { s with pcie := t.pcie, out := t.out }
      ∧ (vecMasked (fnGet s fn) q.vector = false → t.out = .msix (funcOf fn) q.vector :: s.out)
      ∧ (vecMasked (fnGet s fn) q.vector = true → q.vector ∈ (fnGet t fn).pendingVec ∧ t.out = s.out) := by
  intro fn q
  have hexec : exec (.msixModerationTimer f r) s = .next (msixSend (unsentCleared s fn r.val) fn q.vector) := if_pos ⟨hon, hunsent, htime, hdue⟩
  obtain ⟨hcleared, honly, hmsix⟩ := unsentCleared_spec s fn r.val
  refine ⟨_, hexec, ?_⟩
  generalize unsentCleared s fn r.val = u at *
  obtain ⟨hframe, hplain, hmasked⟩ := msixSend_vector u fn q.vector
  have hrings := (msixSend_rings u fn q.vector).1
  generalize msixSend u fn q.vector = t at *
  have hmask : vecMasked (fnGet u fn) q.vector = vecMasked (fnGet s fn) q.vector := by rw [vecMasked, hmsix]; rfl
  have hout : u.out = s.out := by rw [honly]
  rw [hmask, hout] at hplain hmasked
  refine ⟨?_, ?_, hplain, hmasked⟩
  · rw [cqGet, hrings]
    exact hcleared
  · rw [hframe, honly]

theorem msixModerationTimer_waits (h : s.clk.now < (cqGet (fnGet s (f.val + 1)) r.val).firstAt + (cqGet (fnGet s (f.val + 1)) r.val).modTime * 1000) :
    Runs (.msixModerationTimer f r) s fun t => t = s :=
  ⟨_, if_neg fun hdue => absurd hdue.2.2.2 (by omega), rfl⟩

end

theorem completionRingsDrainAndModerate : Claims.CompletionRingsDrainAndModerate := fun _ _ _ =>
  ⟨fun v hbar => completionHeadDoorbell_runs hbar v, msixModerationTimer_sends, msixModerationTimer_waits⟩

/-- Settles O25: doorbells move their rings, entries are taken and taken up once, held completions fill the room made, and the moderated vector goes. -/
theorem hostRingsTakeEntriesAndDrain : Obligations.HostRingsTakeEntriesAndDrain := ⟨submissionEntriesAreTakenInOrder, completionRingsDrainAndModerate⟩

end Sys2Proof.Machine
end

section
/-! SUPPORT. O46: function registers, configuration requests, poison and discarded writes (R162, R479 to R486, R494, R498, R503). -/

namespace Sys2Proof.Machine

open Sys2Proof Sys2Proof.Claims

/-! ### Configuration requests (R482, R503) -/

section
variable {f : Func} {op : ConfigOp} {s : State}

theorem configRequest_down (h : pcieOn s = false ∨ (judgedGet s 41).stable = false) : Runs (.configRequest f op) s fun t => t = s :=
  ⟨_, if_pos (by simpa using h), rfl⟩

variable (hon : pcieOn s = true) (hclk : (judgedGet s 41).stable = true)
include hon hclk

theorem configRequest_retried (hearly : s.clk.now < s.tray.powerGoodAt + 600000000) : Runs (.configRequest f op) s fun t => t = { s with out := .configAnswer f true 0 :: s.out } :=
  ⟨_, (if_neg (by simp [hon, hclk])).trans (if_pos hearly), rfl⟩

/-- The value that a configuration request is answered with. -/
def configValue (s : State) (f : Nat) (op : ConfigOp) : Nat := match op with | .read r => configRead s f r | _ => 0

theorem configRequest_answered (hlate : s.tray.powerGoodAt + 600000000 ≤ s.clk.now) : exec (.configRequest f op) s =
    .next (emit (configDo { s with pcie := { s.pcie with linkUp := true } } f.val op)
      (.configAnswer f false (configValue (configDo { s with pcie := { s.pcie with linkUp := true } } f.val op) f.val op))) :=
  (if_neg (by simp [hon, hclk])).trans ((if_neg (by omega)).trans (by cases op <;> rfl))

theorem configRequest_runs (hlate : s.tray.powerGoodAt + 600000000 ≤ s.clk.now) :
    let x := fnGet s f.val
    let done (t : State) (v : Nat) : Prop := t.out = .configAnswer f false v :: s.out ∧ t.pcie.linkUp = true ∧ t.mem = s.mem ∧ t.car = s.car
    (op = .read 0 → Runs (.configRequest f op) s fun t => done t ((if f = 0 then partCode s else 0x41F0) * 65536 + Config.configReg f.val 0 % 65536))
    ∧ (op = .read 4 → Runs (.configRequest f op) s fun t => done t ((if x.memSpace then 2 else 0) + if x.busMaster then 4 else 0))
    ∧ (op = .memSpace true → Runs (.configRequest f op) s fun t => done t 0 ∧ fnGet t f.val = { x with memSpace := true })
    ∧ (op = .busMaster true → Runs (.configRequest f op) s fun t => done t 0 ∧ fnGet t f.val = { x with busMaster := true })
    ∧ (f = 0 → op = .vfEnable true → Runs (.configRequest f op) s fun t => done t 0 ∧ t.pcie.vfEnable = true)
    ∧ (∀ n, f = 0 → op = .numVfs n → s.pcie.vfEnable = false → Runs (.configRequest f op) s fun t => done t 0 ∧ t.pcie.numVfs = min 16 n) := by
  intro x done
  have hexec := configRequest_answered (f := f) (op := op) hon hclk hlate
  refine ⟨fun h => ?_, fun h => ?_, fun h => ?_, fun h => ?_, fun h0 h => ?_, fun n h0 h hvf => ?_⟩
  · subst h
    refine ⟨_, hexec, ?_, rfl, rfl, rfl⟩
    by_cases hf : f = 0
    · subst hf
      rfl
    · have hval : f.val ≠ 0 := fun h => hf (Fin.ext h)
      refine congrArg (fun v => Output.configAnswer f false v :: s.out) ?_
      change deviceId _ f.val * 65536 + _ = _
      rw [deviceId, if_neg hval, if_neg hf]
  · subst h
    exact ⟨_, hexec, rfl, rfl, rfl, rfl⟩
  · subst h
    exact ⟨_, hexec, ⟨rfl, rfl, rfl, rfl⟩, fnGet_fnSet ..⟩
  · subst h
    have hdo : configDo { s with pcie := { s.pcie with linkUp := true } } f.val (.busMaster true)
        = fnSet { s with pcie := { s.pcie with linkUp := true } } f.val { x with busMaster := true } := if_neg (by simp)
    rw [hdo] at hexec
    exact ⟨_, hexec, ⟨rfl, rfl, rfl, rfl⟩, fnGet_fnSet ..⟩
  · subst h0 h
    have hdo : configDo { s with pcie := { s.pcie with linkUp := true } } 0 (.vfEnable true) = { s with pcie := { s.pcie with linkUp := true, vfEnable := true } } := if_neg (by simp)
    rw [show ((0 : Func).val) = 0 from rfl, hdo] at hexec
    exact ⟨_, hexec, ⟨rfl, rfl, rfl, rfl⟩, rfl⟩
  · subst h0 h
    have hdo : configDo { s with pcie := { s.pcie with linkUp := true } } 0 (.numVfs n) = { s with pcie := { s.pcie with linkUp := true, numVfs := min 16 n } } := by
      have hgone : ((List.range 17).filter fun g => decide (min 16 n < g) && decide (g ≤ s.pcie.numVfs) && s.pcie.vfEnable) = [] := by
        rw [List.filter_eq_nil_iff]
        intro g _
        simp [hvf]
      change each ((List.range 17).filter fun g => decide (min 16 n < g) && decide (g ≤ s.pcie.numVfs) && s.pcie.vfEnable) _ _ = _
      rw [hgone]
      rfl
    rw [show ((0 : Func).val) = 0 from rfl, hdo] at hexec
    exact ⟨_, hexec, ⟨rfl, rfl, rfl, rfl⟩, rfl⟩

end

/-! ### Poison and timeouts (R162, R481, R494) -/

/-- A failed read of a GCM descriptor ends it with HOST. -/
theorem hostReadFail_gcm {s : State} {tag i : Nat} {j : Job} (hjob : tagJob s tag = some (i, j)) (hgcm : dGcm j.desc = true) : let t := hostReadFail s tag []
    mget t.dma.outstanding tag = none ∧ (jobsOf t 68)[i]?.map Job.status = some (some 9) ∧ t.mem = s.mem := by
  have hi := tagJob_get hjob
  let u := { s with dma := { s.dma with outstanding := mdel s.dma.outstanding tag } }
  have hgone : mget u.dma.outstanding tag = none := by rw [mget_mdel, if_pos rfl]
  have hrun : hostReadFail s tag [] = jobFail u 68 i j stHost := by
    have hjob' : tagJob u tag = some (i, j) := hjob
    unfold hostReadFail
    dsimp only
    rw [hjob']
    exact if_pos hgcm
  obtain ⟨hend, hst⟩ := jobFail_status (s := u) j stHost hi
  rw [hrun]
  refine ⟨?_, hst, ?_⟩
  · rw [hend]
    exact hgone
  · rw [hend]

theorem readTag_runs (tag : Nat) (s : State) :
    (∀ f i j, mget s.dma.outstanding tag = some f → tagJob s tag = some (i, j) → dGcm j.desc = true →
      (Runs (.poisonedTlp (.completion tag)) s fun t => t.out.head? = some (.aer (funcOf f))
        ∧ mget t.dma.outstanding tag = none ∧ (jobsOf t 68)[i]?.map Job.status = some (some 9) ∧ t.mem = s.mem)
      ∧ Runs (.completionTimeout tag) s fun t => mget t.dma.outstanding tag = none ∧ (jobsOf t 68)[i]?.map Job.status = some (some 9) ∧ t.mem = s.mem)
    ∧ (mget s.dma.outstanding tag = none →
      (Runs (.poisonedTlp (.completion tag)) s fun t => t = s)
      ∧ Runs (.completionTimeout tag) s fun t => tag ∉ t.dma.abandoned ∧ t = { s with dma := { s.dma with abandoned := t.dma.abandoned } }) := by
  have hpoison : exec (.poisonedTlp (.completion tag)) s = execPoisonedTlp (.completion tag) s := rfl
  have htime : exec (.completionTimeout tag) s = execCompletionTimeout tag s := rfl
  rw [execPoisonedTlp] at hpoison
  rw [execCompletionTimeout] at htime
  refine ⟨fun f i j hout hjob hgcm => ?_, fun hout => ?_⟩
  · rw [hout] at hpoison htime
    have hfail := hostReadFail_gcm hjob hgcm
    exact ⟨⟨_, hpoison, rfl, hfail⟩, _, htime, hfail⟩
  · rw [hout] at hpoison htime
    exact ⟨⟨_, hpoison, rfl⟩, _, htime, by simp, rfl⟩

/-! ### Discarded writes (R485) -/

section
variable {f : Func} {off size : Nat} {s : State} (hbar : barOn s f.val = true)

/-- A write that lies in no memory region. -/
theorem regionWrite_registers (s : State) (fn : Nat) (bs : List Byte) (h : off < 0x10000) : regionWrite s fn off bs = none := by
  unfold regionWrite
  dsimp only
  rw [if_neg (by omega), if_neg (by omega), if_neg (by omega), if_neg (by omega)]
  split
  · exact if_neg (by omega)
  · rw [if_neg (by omega), if_neg (by omega)]

theorem regListed_gap (vf : Bool) (hlo : 0x20 ≤ off) (hhi : off < 0x100) : regListed vf off = false := by
  unfold regListed
  simp only [Bool.or_eq_false_iff, Bool.and_eq_false_iff, decide_eq_false_iff_not]
  omega

theorem writeBad_gap (fn : Nat) (hlo : 0x20 ≤ off) (hhi : off < 0x100) : writeBad s fn off size = true := by
  rw [writeBad, regionWrite_registers s fn [] (by omega), regListed_gap _ hlo hhi]
  by_cases hsize : size = 8
  · subst hsize
    by_cases halign : off % 8 = 0
    · simp [regListed_gap (off := off + 4) (fn != 0) (by omega) (by omega)]
    · simp [halign]
  · simp [hsize]

theorem writeBad_size (fn : Nat) (hoff : off < 0x1000) (h4 : size ≠ 4) (h8 : size ≠ 8) : writeBad s fn off size = true := by
  rw [writeBad, regionWrite_registers s fn [] (by omega)]
  simp [h4, h8]

include hbar

theorem discards_runs :
    let dropped (t : State) : Prop := fnGet t f.val = { fnGet s f.val with discards := min ((fnGet s f.val).discards + 1) (2 ^ 32 - 1) } ∧ t = { s with pcie := t.pcie, out := t.out }
    (0x20 ≤ off → off < 0x100 → Runs (.barWriteDiscard f off size) s fun t => dropped t ∧ t.out = s.out)
    ∧ (off < 0x1000 → size ≠ 4 → size ≠ 8 → Runs (.barWriteDiscard f off size) s fun t => dropped t ∧ t.out = s.out)
    ∧ Runs (.poisonedTlp (.barWrite f off)) s fun t => dropped t ∧ t.out = .aer f :: s.out := by
  intro dropped
  have hdrop : dropped (discard s f.val) := ⟨fnGet_fnSet .., rfl⟩
  have hbad (h : writeBad s f.val off size = true) : Runs (.barWriteDiscard f off size) s fun t => dropped t ∧ t.out = s.out :=
    ⟨_, if_pos (by rw [hbar, h]; rfl), hdrop, rfl⟩
  exact ⟨fun hlo hhi => hbad (writeBad_gap _ hlo hhi), fun hoff h4 h8 => hbad (writeBad_size _ hoff h4 h8), _, if_pos hbar, ⟨fnGet_fnSet .., rfl⟩, rfl⟩

end

theorem configurationPoisonAndDiscards : Claims.ConfigurationPoisonAndDiscards :=
  ⟨fun _ _ _ h => configRequest_down h, fun _ _ _ hon hclk => ⟨configRequest_retried hon hclk, configRequest_runs hon hclk⟩,
    readTag_runs, fun _ _ _ _ hbar => discards_runs hbar⟩

/-! ### Function registers (R485, R486, R498) -/

section
variable {f : Vf} {s : State} (hbar : barOn s (f.val + 1) = true)

/-- Memory, Carousel, Zoetrope, DMA and what is sent stay. -/
def RegsOnly (s t : State) : Prop := t.mem = s.mem ∧ t.car = s.car ∧ t.zoe = s.zoe ∧ t.dma = s.dma ∧ t.out = s.out

/-- A register written, the clamp counted where the value had to be clamped. -/
theorem fnSet_clampIf (s : State) (fn : Nat) (x : FuncS) (bad : Bool) : let t := clampIf (fnSet s fn x) fn bad
    fnGet t fn = { x with clamps := if bad then min (x.clamps + 1) (2 ^ 32 - 1) else x.clamps } ∧ RegsOnly s t := by
  obtain ⟨honly, hfn⟩ := clampIf_spec (fnSet s fn x) fn bad
  intro t
  rw [fnGet_fnSet] at hfn
  refine ⟨hfn, ?_⟩
  change t = _ at honly
  rw [honly]
  exact ⟨rfl, rfl, rfl, rfl, rfl⟩

theorem ite_hostClamp (s : State) (fn n v : Nat) : (if n = v then s else hostClamp s fn 1) = clampIf s fn (decide (n ≠ v)) := by
  by_cases h : n = v
  · simp [clampIf, h]
  · simp [clampIf, h]

theorem toNat_word {v : Nat} (h : v < 2 ^ 32) : (BitVec.ofNat 64 v).toNat % 2 ^ 32 = v := by
  rw [BitVec.toNat_ofNat]
  omega

theorem vfOf_val (f : Vf) : vfOf (f.val + 1 - 1) = f := Fin.ext (Nat.mod_eq_of_lt f.isLt)

theorem funcOf_val (f : Vf) : (funcOf (f.val + 1)).val = f.val + 1 := Nat.mod_eq_of_lt (by omega)

include hbar

/-- An aligned write of 32 bits to a register that is no half of a ring's base. -/
theorem functionRegisterWrite_exec {off v : Nat} (hoff : off < 0x10000) (halign : off % 4 = 0) (hlist : regListed true off = true) (hbase : ∀ c, cqReg off ≠ some (c, 0)) :
    exec (.functionRegisterWrite (funcOf (f.val + 1)) off 4 (BitVec.ofNat 64 v)) s = .next (regWrite s (f.val + 1) off ((BitVec.ofNat 64 v).toNat % 2 ^ 32)) := by
  refine congrArg Host.Outcome.next ?_
  rw [funcOf_val, barWrite, if_neg (by simp [hbar]), regionWrite_registers s _ _ hoff]
  have hvf : (f.val + 1 != 0) = true := by simp
  simp only [hvf, hlist]
  rw [if_neg (by simp [halign])]
  cases hreg : cqReg off with
  | none => rfl
  | some x =>
    obtain ⟨c, r⟩ := x
    cases r with
    | zero => exact absurd hreg (hbase c)
    | succ r => rfl

/-- The read-only registers take nothing. -/
theorem readOnly_runs {off : Nat} (v : Nat) (h : off = 0 ∨ off = 8 ∨ off = 0xC) :
    Runs (.functionRegisterWrite (funcOf (f.val + 1)) off 4 (BitVec.ofNat 64 v)) s fun t => t = s := by
  rcases h with rfl | rfl | rfl
  · exact ⟨_, functionRegisterWrite_exec hbar (by decide) (by decide) (by decide) (fun c h => nomatch h), rfl⟩
  · exact ⟨_, functionRegisterWrite_exec hbar (by decide) (by decide) (by decide) (fun c h => nomatch h), rfl⟩
  · exact ⟨_, functionRegisterWrite_exec hbar (by decide) (by decide) (by decide) (fun c h => nomatch h), rfl⟩

theorem sqRegister_exec {r v : Nat} (hr : r < 8) (hv : v < 2 ^ 32) :
    exec (.functionRegisterWrite (funcOf (f.val + 1)) (0x100 + 16 * r) 4 (BitVec.ofNat 64 v)) s = .next (sqCfgWrite s (f.val + 1) r v) := by
  have hlist : regListed true (0x100 + 16 * r) = true := by
    unfold regListed
    simp only [Bool.true_and, Bool.or_eq_true, Bool.and_eq_true, decide_eq_true_eq]
    omega
  rw [functionRegisterWrite_exec hbar (by omega) (by omega) hlist (fun c h => by rw [cqReg, if_neg (by omega)] at h; cases h), toNat_word hv]
  refine congrArg Host.Outcome.next ?_
  rw [regWrite]
  dsimp only
  rw [if_neg (by omega), if_neg (by omega), if_pos (by omega), if_pos (by omega), show (0x100 + 16 * r - 0x100) / 16 = r by omega]

theorem cqRegister_exec {c k v : Nat} (hc : c < 9) (hk : k = 8 ∨ k = 12) (hv : v < 2 ^ 32) :
    exec (.functionRegisterWrite (funcOf (f.val + 1)) (0x200 + 32 * c + k) 4 (BitVec.ofNat 64 v)) s
      = .next (if k = 8 then cqCfgWrite s (f.val + 1) c v else cqModWrite s (f.val + 1) c v) := by
  have hlist : regListed true (0x200 + 32 * c + k) = true := by
    unfold regListed
    simp only [Bool.true_and, Bool.or_eq_true, Bool.and_eq_true, decide_eq_true_eq]
    omega
  have hreg : cqReg (0x200 + 32 * c + k) = some (c, k) := by
    rw [cqReg, if_pos (by omega), show (0x200 + 32 * c + k - 0x200) / 0x20 = c by omega, show (0x200 + 32 * c + k - 0x200) % 0x20 = k by omega]
  have hbase (c' : Nat) : cqReg (0x200 + 32 * c + k) ≠ some (c', 0) := by
    rw [hreg]
    intro h
    have := (Prod.mk.inj (Option.some.inj h)).2
    omega
  rw [functionRegisterWrite_exec hbar (by omega) (by omega) hlist hbase, toNat_word hv]
  refine congrArg Host.Outcome.next ?_
  rw [regWrite]
  dsimp only
  rw [if_neg (by omega), if_neg (by omega), if_neg (by omega), if_neg (by omega), if_neg (by omega), hreg]
  rcases hk with rfl | rfl
  · rfl
  · rfl

end

/-! ### Ring sizes, vectors and moderation (R486) -/

/-- A legal number is the nearest one to itself. -/
theorem nearest_sq {n : Nat} (h6 : 6 ≤ n) (h12 : n ≤ 12) : nearest (0 :: (List.range 7).map (6 + ·)) (n % 32) = n := by
  interval_cases n <;> rfl

theorem nearest_cq {n : Nat} (h8 : 8 ≤ n) (h16 : n ≤ 16) : nearest (0 :: (List.range 9).map (8 + ·)) n = n := by
  interval_cases n <;> rfl

/-- A ring alone may have any legal size. -/
theorem sqFits_alone {x : FuncS} {r n : Nat} (h6 : 6 ≤ n) (h12 : n ≤ 12) (halone : ∀ i, i ≠ r → (sqGet x i).log2 = 0) : sqFits x r n = n := by
  have hothers : lsum (((List.range 8).filter (· ≠ r)).map fun i => let k := (sqGet x i).log2; if k = 0 then 0 else 2 ^ k) = 0 := by
    have hzero : ((List.range 8).filter (· ≠ r)).map (fun i => let k := (sqGet x i).log2; if k = 0 then 0 else 2 ^ k) = ((List.range 8).filter (· ≠ r)).map fun _ => 0 :=
      List.map_congr_left fun i hi => if_pos (halone i (by simpa using (List.mem_filter.mp hi).2))
    rw [hzero]
    generalize (List.range 8).filter (· ≠ r) = l
    induction l with
    | nil => rfl
    | cons a l ih => simpa [lsum] using ih
  unfold sqFits
  dsimp only at hothers ⊢
  rw [hothers]
  interval_cases n <;> rfl

section
variable {f : Vf} {s : State} (hbar : barOn s (f.val + 1) = true)
include hbar

theorem sqRegister_sets {r n : Nat} (hr : r < 8) (h6 : 6 ≤ n) (h12 : n ≤ 12) (hoff : (sqGet (fnGet s (f.val + 1)) r).log2 = 0)
    (hcq : (cqGet (fnGet s (f.val + 1)) 0).log2 ≠ 0) (halone : ∀ i, i ≠ r → (sqGet (fnGet s (f.val + 1)) i).log2 = 0) :
    Runs (.functionRegisterWrite (funcOf (f.val + 1)) (0x100 + 16 * r) 4 (BitVec.ofNat 64 n)) s fun t =>
      sqGet (fnGet t (f.val + 1)) r = { log2 := n } ∧ (fnGet t (f.val + 1)).clamps = (fnGet s (f.val + 1)).clamps ∧ RegsOnly s t := by
  have hwrite : sqCfgWrite s (f.val + 1) r n = clampIf (fnSet s (f.val + 1) { fnGet s (f.val + 1) with sq := mset (fnGet s (f.val + 1)).sq r { log2 := n } }) (f.val + 1) false := by
    rw [sqCfgWrite]
    simp only [nearest_sq h6 h12, hoff, hcq, sqFits_alone h6 h12 halone, ne_eq, not_true_eq_false, if_false, and_false, show n ≠ 0 by omega, if_true]
    rfl
  obtain ⟨hfn, honly⟩ := fnSet_clampIf s (f.val + 1) { fnGet s (f.val + 1) with sq := mset (fnGet s (f.val + 1)).sq r { log2 := n } } false
  refine ⟨_, (sqRegister_exec hbar hr (by omega)).trans (congrArg Host.Outcome.next hwrite), ?_, ?_, honly⟩
  · rw [hfn]
    exact mgetD_mset_same ..
  · rw [hfn]
    rfl

theorem sqRegister_keeps {r n : Nat} (hr : r < 8) (h6 : 6 ≤ n) (h12 : n ≤ 12) (hon : (sqGet (fnGet s (f.val + 1)) r).log2 ≠ 0)
    (hne : (sqGet (fnGet s (f.val + 1)) r).log2 ≠ n) :
    Runs (.functionRegisterWrite (funcOf (f.val + 1)) (0x100 + 16 * r) 4 (BitVec.ofNat 64 n)) s fun t =>
      sqGet (fnGet t (f.val + 1)) r = sqGet (fnGet s (f.val + 1)) r ∧ (fnGet t (f.val + 1)).clamps = min ((fnGet s (f.val + 1)).clamps + 1) (2 ^ 32 - 1) ∧ RegsOnly s t := by
  have hwrite : sqCfgWrite s (f.val + 1) r n
      = clampIf (fnSet s (f.val + 1) { fnGet s (f.val + 1) with sq := mset (fnGet s (f.val + 1)).sq r (sqGet (fnGet s (f.val + 1)) r) }) (f.val + 1) true := by
    rw [sqCfgWrite]
    simp only [nearest_sq h6 h12, ne_eq, hon, not_false_eq_true, if_true, show n ≠ 0 by omega, false_and, if_false, hne]
    rfl
  obtain ⟨hfn, honly⟩ := fnSet_clampIf s (f.val + 1) { fnGet s (f.val + 1) with sq := mset (fnGet s (f.val + 1)).sq r (sqGet (fnGet s (f.val + 1)) r) } true
  refine ⟨_, (sqRegister_exec hbar hr (by omega)).trans (congrArg Host.Outcome.next hwrite), ?_, ?_, honly⟩
  · rw [hfn]
    exact mgetD_mset_same ..
  · rw [hfn]
    rfl

theorem cqRegister_sets {c n vec : Nat} (hc : c < 9) (h8 : 8 ≤ n) (h16 : n ≤ 16) (hvec : vec < 120) (hoff : (cqGet (fnGet s (f.val + 1)) c).log2 = 0) :
    Runs (.functionRegisterWrite (funcOf (f.val + 1)) (0x208 + 32 * c) 4 (BitVec.ofNat 64 (vec * 256 + n))) s fun t =>
      (fnGet t (f.val + 1)).clamps = (fnGet s (f.val + 1)).clamps ∧ RegsOnly s t ∧ (cqGet (fnGet t (f.val + 1)) c).log2 = n ∧ (cqGet (fnGet t (f.val + 1)) c).vector = vec
        ∧ (cqGet (fnGet t (f.val + 1)) c).base = (cqGet (fnGet s (f.val + 1)) c).base := by
  have hexec := cqRegister_exec hbar (v := vec * 256 + n) hc (.inl rfl) (by omega)
  have hvecf : min 119 (nfld (vec * 256 + n) 14 8) = vec := by
    simp only [nfld_eq, Nat.reduceAdd, Nat.reduceSub, Nat.reducePow]
    omega
  have hwrite : ∃ y z, cqCfgWrite s (f.val + 1) c (vec * 256 + n) = clampIf (fnSet s (f.val + 1) { fnGet s (f.val + 1) with cq := mset (fnGet s (f.val + 1)).cq c y, zq := z }) (f.val + 1) false
      ∧ y.log2 = n ∧ y.vector = vec ∧ y.base = (cqGet (fnGet s (f.val + 1)) c).base := by
    rw [cqCfgWrite]
    simp only [show (vec * 256 + n) % 32 = n by omega, nearest_cq h8 h16, hoff, hvecf, if_true, show n ≠ 0 by omega, if_false]
    exact ⟨_, _, rfl, rfl, rfl, rfl⟩
  obtain ⟨y, z, hwrite, hlog, hv, hb⟩ := hwrite
  obtain ⟨hfn, honly⟩ := fnSet_clampIf s (f.val + 1) { fnGet s (f.val + 1) with cq := mset (fnGet s (f.val + 1)).cq c y, zq := z } false
  rw [if_pos rfl, hwrite] at hexec
  refine ⟨_, (by rw [show 0x208 + 32 * c = 0x200 + 32 * c + 8 by omega]; exact hexec), ?_, honly, ?_⟩
  · rw [hfn]
    rfl
  · rw [hfn, cqGet, mgetD_mset_same]
    exact ⟨hlog, hv, hb⟩

theorem cqModeration_sets {c n m : Nat} (hc : c < 9) (hn : n < 65536) (hm : m < 65536) :
    Runs (.functionRegisterWrite (funcOf (f.val + 1)) (0x20C + 32 * c) 4 (BitVec.ofNat 64 (n * 65536 + m))) s fun t =>
      RegsOnly s t ∧ cqGet (fnGet t (f.val + 1)) c = { cqGet (fnGet s (f.val + 1)) c with modCount := max 1 n, modTime := min 1000 m }
      ∧ (fnGet t (f.val + 1)).clamps = if decide (n = 0 ∨ 1000 < m) then min ((fnGet s (f.val + 1)).clamps + 1) (2 ^ 32 - 1) else (fnGet s (f.val + 1)).clamps := by
  have hexec := cqRegister_exec hbar (v := n * 65536 + m) hc (.inr rfl) (by omega)
  have hcount : nfld (n * 65536 + m) 31 16 = n := by
    simp only [nfld_eq, Nat.reduceAdd, Nat.reduceSub, Nat.reducePow]
    omega
  have htime : nfld (n * 65536 + m) 15 0 = m := by
    simp only [nfld_eq, Nat.reduceAdd, Nat.reduceSub, Nat.reducePow]
    omega
  have hbad : decide (max 1 n * 65536 + min 1000 m ≠ n * 65536 + m) = decide (n = 0 ∨ 1000 < m) := by
    rw [decide_eq_decide]
    omega
  have hwrite : cqModWrite s (f.val + 1) c (n * 65536 + m)
      = clampIf (fnSet s (f.val + 1) { fnGet s (f.val + 1) with cq := mset (fnGet s (f.val + 1)).cq c { cqGet (fnGet s (f.val + 1)) c with modCount := max 1 n, modTime := min 1000 m } })
        (f.val + 1) (decide (n = 0 ∨ 1000 < m)) := by
    rw [cqModWrite]
    simp only [hcount, htime, ite_hostClamp, hbad]
  obtain ⟨hfn, honly⟩ := fnSet_clampIf s (f.val + 1)
    { fnGet s (f.val + 1) with cq := mset (fnGet s (f.val + 1)).cq c { cqGet (fnGet s (f.val + 1)) c with modCount := max 1 n, modTime := min 1000 m } } (decide (n = 0 ∨ 1000 < m))
  rw [if_neg (by decide), hwrite] at hexec
  refine ⟨_, (by rw [show 0x20C + 32 * c = 0x200 + 32 * c + 12 by omega]; exact hexec), honly, ?_, ?_⟩
  · rw [hfn]
    exact mgetD_mset_same ..
  · rw [hfn]

end

theorem functionRegistersStoreLegalValues : Claims.FunctionRegistersStoreLegalValues := by
  intro f s hbar
  refine ⟨fun v => ⟨readOnly_runs hbar v (.inl rfl), readOnly_runs hbar v (.inr (.inl rfl)), readOnly_runs hbar v (.inr (.inr rfl))⟩,
    fun r n hr h6 h12 hoff hcq halone => sqRegister_sets hbar hr h6 h12 hoff hcq halone, fun r n hr h6 h12 hon hne => sqRegister_keeps hbar hr h6 h12 hon hne,
    fun c n vec hc h8 h16 hvec hoff => cqRegister_sets hbar hc h8 h16 hvec hoff, fun c n m hc hn hm => cqModeration_sets hbar hc hn hm⟩

/-- Settles O46: register writes by their register, configuration requests by their operation, and poison, timeouts and discards. -/
theorem registersConfigurationAndDiscards : Obligations.RegistersConfigurationAndDiscards := ⟨functionRegistersStoreLegalValues, configurationPoisonAndDiscards⟩

end Sys2Proof.Machine
end

section
/-! SUPPORT. O45: the end of a function's work (R269, R480, R493 to R496, R503). -/

namespace Sys2Proof.Machine

open Sys2Proof Sys2Proof.Claims

/-! ### What the end of work leaves of a function -/

/-- The registers of function `g` stay but for what completions do to its rings, and a function without a ring keeps all of them. -/
def FnKept (g : Nat) (s t : State) : Prop :=
  (∃ cq vs, fnGet t g = { fnGet s g with cq := cq, pendingVec := vs }) ∧ ((fnGet s g).cq = [] → fnGet t g = fnGet s g)

theorem FnKept.refl (g : Nat) (s : State) : FnKept g s s := ⟨⟨_, _, rfl⟩, fun _ => rfl⟩

theorem FnKept.trans {g : Nat} {s t u : State} (h : FnKept g s t) (k : FnKept g t u) : FnKept g s u := by
  obtain ⟨⟨cq, vs, h⟩, hoff⟩ := h
  obtain ⟨⟨cq', vs', k⟩, koff⟩ := k
  exact ⟨⟨cq', vs', by rw [k, h]⟩, fun hcq => (koff (by rw [hoff hcq, hcq])).trans (hoff hcq)⟩

/-- The link's configuration, the entries taken and function `g` stay so. -/
def EndKept (g : Nat) (s t : State) : Prop :=
  FnKept g s t ∧ t.pcie = { s.pcie with funcs := t.pcie.funcs } ∧ t.car.taken = s.car.taken ∧ t.zoe.taken = s.zoe.taken

section
variable {g : Nat}

theorem EndKept.refl (s : State) : EndKept g s s := ⟨.refl g s, rfl, rfl, rfl⟩

theorem EndKept.trans {s t u : State} (h : EndKept g s t) (k : EndKept g t u) : EndKept g s u := by
  obtain ⟨hfn, hpcie, hcar, hzoe⟩ := h
  obtain ⟨kfn, kpcie, kcar, kzoe⟩ := k
  exact ⟨hfn.trans kfn, by rw [kpcie, hpcie], kcar.trans hcar, kzoe.trans hzoe⟩

/-- A change beside the functions and the entries taken. -/
theorem EndKept.beside {s t : State} (hpcie : t.pcie = s.pcie) (hcar : t.car.taken = s.car.taken) (hzoe : t.zoe.taken = s.zoe.taken) : EndKept g s t := by
  have hfn : fnGet t g = fnGet s g := by rw [fnGet, hpcie]; rfl
  exact ⟨⟨⟨_, _, hfn⟩, fun _ => hfn⟩, by rw [hpcie], hcar, hzoe⟩

theorem EndKept.each {α : Type} {f : State → α → State} (hf : ∀ s x, EndKept g s (f s x)) (l : List α) (s : State) : EndKept g s (Machine.each l f s) :=
  each_rel .refl .trans hf l s

theorem EndKept.ite {c : Prop} [Decidable c] {s t u : State} (ht : EndKept g s t) (hu : EndKept g s u) : EndKept g s (if c then t else u) := by
  split
  · exact ht
  · exact hu

/-! ### Completions -/

theorem freeFinal_endKept (s : State) (e : BitVec 256) : EndKept g s (freeFinal s e) := by
  have h := freeFinal_reqsOnly s e
  dsimp only at h
  exact .beside (by rw [h]) (by rw [h]) (by rw [h])

/-- A vector touches its function's pending ones at most, and no other function. -/
theorem msixSend_fn (s : State) (f v : Nat) : let t := msixSend s f v
    (∃ vs, fnGet t f = { fnGet s f with pendingVec := vs }) ∧ (f ≠ g → fnGet t g = fnGet s g)
    ∧ t.pcie = { s.pcie with funcs := t.pcie.funcs } ∧ t.car = s.car ∧ t.zoe = s.zoe := by
  intro t
  unfold t msixSend
  extract_lets x
  split
  · exact ⟨⟨_, fnGet_fnSet ..⟩, fun h => fnGet_fnSet_ne _ _ (Ne.symm h), rfl, rfl, rfl⟩
  · exact ⟨⟨_, rfl⟩, fun _ => rfl, rfl, rfl, rfl⟩

theorem mset_ne_nil {α : Type} (m : SMap α) (k : Nat) (v : α) : mset m k v ≠ [] := fun h => by
  have hget := mget_mset_same m k v
  rw [h] at hget
  cases hget

/-- An entry is written to a ring that is in use. -/
theorem complWrite_endKept {s : State} {f c : Nat} (e : BitVec 256) (hon : f = g → (fnGet s g).cq ≠ []) : EndKept g s (complWrite s f c e) := by
  unfold complWrite
  extract_lets x q e' n sent q' u v w
  have hv : EndKept g s v := by
    refine ⟨?_, rfl, rfl, rfl⟩
    by_cases hfg : f = g
    · subst hfg
      have hfn : fnGet v f = { x with cq := mset x.cq c q' } := fnGet_fnSet ..
      exact ⟨⟨_, _, hfn⟩, fun hcq => absurd hcq (hon rfl)⟩
    · have hfn : fnGet v g = fnGet s g := fnGet_fnSet_ne _ _ (Ne.symm hfg)
      exact ⟨⟨_, _, hfn⟩, fun _ => hfn⟩
  have hpcie : w.pcie = v.pcie := by
    unfold w
    split
    · rfl
    · have h := freeFinal_reqsOnly v e'
      dsimp only at h
      rw [h]
  have hw : EndKept g v w := .ite (.refl v) (freeFinal_endKept ..)
  have hcq : f = g → (fnGet w f).cq ≠ [] := by
    rintro rfl
    have hfn : fnGet w f = { x with cq := mset x.cq c q' } := by
      rw [fnGet, hpcie]
      exact fnGet_fnSet ..
    rw [hfn]
    exact mset_ne_nil x.cq c q'
  clear_value w
  have hsent : EndKept g w (if sent then msixSend w f q.vector else w) := by
    split
    · obtain ⟨⟨vs, hfn⟩, hother, hpcie, hcar, hzoe⟩ := msixSend_fn (g := g) w f q.vector
      refine ⟨?_, hpcie, by rw [hcar], by rw [hzoe]⟩
      by_cases hfg : f = g
      · subst hfg
        exact ⟨⟨_, _, hfn⟩, fun h => absurd h (hcq rfl)⟩
      · exact ⟨⟨_, _, hother hfg⟩, fun _ => hother hfg⟩
    · exact .refl w
  exact hv.trans (hw.trans hsent)

theorem complPush_endKept (s : State) (f c : Nat) (e : BitVec 256) : EndKept g s (complPush s f c e) := by
  unfold complPush
  extract_lets q
  refine .ite (.refl s) ?_
  split
  · exact .ite (.refl s) (freeFinal_endKept ..)
  · next hlog =>
    refine .ite (.beside rfl rfl rfl) (complWrite_endKept e fun hfg hcq => hlog ?_)
    subst hfg
    rw [show q = cqGet (fnGet s f) c from rfl, cqGet, hcq]
    rfl

/-! ### Requests, sessions and descriptors -/

theorem reqSet_endKept (s : State) (h : Nat) (r : Req) : EndKept g s (reqSet s h r) := .beside rfl rfl rfl

theorem retainFix_endKept (s : State) (p : Nat) : EndKept g s (retainFix s p) :=
  .each (α := Nat × Req) (fun s _ => .ite (.refl s) (reqSet_endKept ..)) _ s

theorem reqRelease_endKept (s : State) (h : Nat) : EndKept g s (reqRelease s h) := by
  unfold reqRelease
  extract_lets r s₁ step s₂
  have h₁ : EndKept g s s₁ := .each (fun s x => by exact .beside rfl rfl rfl) _ _
  have h₂ : EndKept g s₁ s₂ := .each (fun s x => by exact .ite (.refl s) (.beside rfl rfl rfl)) _ _
  exact ((h₁.trans h₂).trans (reqSet_endKept ..)).trans (retainFix_endKept ..)

theorem reqCompl_endKept (s : State) (h : Nat) (held : Bool) (c : Compl) : EndKept g s (reqCompl s h held c) := by
  unfold reqCompl
  extract_lets r c' seq
  exact .ite (.beside rfl rfl rfl) (complPush_endKept ..)

theorem rebuildAsk_endKept (s : State) (rotated : List Nat) (retired : List (Nat × Nat)) : EndKept g s (rebuildAsk s rotated retired) := by
  unfold rebuildAsk
  split
  · have h := rebuildStart_only s rotated retired
    exact .beside (by rw [h]) (by rw [h]) (by rw [h])
  · exact .beside rfl rfl rfl

theorem variantIdle_endKept (s : State) (p : Nat) : EndKept g s (variantIdle s p) :=
  .each (α := Nat × Variant) (fun s x => EndKept.trans (t := { s with variants := mset s.variants x.1 { x.2 with rebuilding := true } }) (.beside rfl rfl rfl) (rebuildAsk_endKept ..)) _ s

theorem reqEnd_endKept (s : State) (h : Nat) (st : ReqState) (code : Nat) (held : Bool) : EndKept g s (reqEnd s h st code held) := by
  unfold reqEnd
  extract_lets p s₁ src s₂ s₃ s₄
  have h₂ : EndKept g s s₂ := (reqRelease_endKept s h).trans (reqSet_endKept ..)
  have h₃ : EndKept g s₂ s₃ := .ite (.beside rfl rfl rfl) (.refl s₂)
  have h₄ : EndKept g s₃ s₄ := .ite (reqSet_endKept ..) (reqCompl_endKept ..)
  exact ((h₂.trans h₃).trans h₄).trans (variantIdle_endKept ..)

theorem stepAbort_endKept (s : State) (p : Nat) : EndKept g s (stepAbort s p) := by
  unfold stepAbort
  split
  · exact .refl s
  · refine .each (fun s c => ?_) _ s
    have h := (ctxEnd_sets s c fcAbort).1
    unfold StepEndOnly at h
    exact .beside (by rw [h]) (by rw [h]) (by rw [h])

theorem reqCancel_endKept (s : State) (h code : Nat) (failed : Bool) : EndKept g s (reqCancel s h code failed) := by
  unfold reqCancel
  extract_lets r t
  refine .ite (reqSet_endKept ..) (.ite (.refl s) (.ite ?_ (reqEnd_endKept ..)))
  have ht : EndKept g s t := reqSet_endKept ..
  split
  · exact .ite (ht.trans (stepAbort_endKept ..)) ht
  · exact ht

theorem partReqsEnd_endKept (s : State) (p code : Nat) : EndKept g s (partReqsEnd s p code) :=
  (EndKept.each (fun s h => reqCancel_endKept s h code false) _ s).trans (stepAbort_endKept ..)

theorem sessionEnd_endKept (s : State) (n status : Nat) (tag : BitVec 64) (write : Bool) : EndKept g s (sessionEnd s n status tag write) := by
  unfold sessionEnd
  split
  · exact .refl s
  · extract_lets id _ t
    have ht : EndKept g s t := .beside rfl rfl rfl
    exact .ite (ht.trans (complPush_endKept ..)) ht

theorem sessionsEnd_endKept (s : State) (p status : Nat) (write : Bool) : EndKept g s (sessionsEnd s p status write) :=
  .each (fun s n => sessionEnd_endKept s n status 0 write) _ s

theorem backlogVoid_endKept (s : State) (fn : Nat) : EndKept g s (backlogVoid s fn) := by
  refine .each (fun s c => ?_) _ s
  extract_lets l t
  have ht : EndKept g s t := .beside rfl rfl rfl
  exact .ite ht (ht.trans (.each (fun s e => freeFinal_endKept s e) l t))

/-! ### The end of a function's work (R494) -/

/-- The work of a function ended: no other function is touched but by completions, no entry of its own is left taken. -/
theorem workEnd_fn (s : State) (f : Vf) (write : Bool) : let t := workEnd s f write
    FnKept g s t ∧ t.pcie = { s.pcie with funcs := t.pcie.funcs } ∧ t.car.taken = s.car.taken.filter (fun k => k.f != f) ∧ t.zoe.taken = s.zoe.taken.filter (fun k => k.f != f) := by
  have hend : EndKept g (takenAbandon s f) (workEnd s f write) := by
    unfold workEnd
    extract_lets a b c d e _ _
    have hb : EndKept g a b := partReqsEnd_endKept a f.val 17
    clear_value b
    have hc : EndKept g b c := .beside rfl rfl rfl
    clear_value c
    have hd : EndKept g c d := sessionsEnd_endKept c f.val 17 write
    clear_value d
    have he : EndKept g d e := .beside rfl rfl rfl
    clear_value e
    exact hb.trans (hc.trans (hd.trans (he.trans (.beside rfl rfl rfl))))
  obtain ⟨hfn, hpcie, hcar, hzoe⟩ := hend
  exact ⟨hfn, hpcie, hcar, hzoe⟩

end

/-- The entry of one key mapped. -/
theorem mget_mapKey {α : Type} (m : SMap α) (k : Nat) (g : α → α) : mget (m.map fun q => if q.1 = k then (q.1, g q.2) else q) k = (mget m k).map g := by
  induction m with
  | nil => rfl
  | cons a m ih =>
    obtain ⟨i, v⟩ := a
    by_cases hi : i = k
    · simp [mget, hi]
    · simpa [mget, hi] using ih

/-- No descriptor of the function is left without a status (R494). -/
def HubAborted (s : State) (f : Vf) : Prop := ∀ j c g, j ∈ jobsOf s 68 → j.origin = .host f c g → j.status ≠ none

/-- A descriptor of the function without a status. -/
def hubOpen (f : Vf) (j : Job) : Bool := j.status.isNone && (match j.origin with | .host g _ _ => g == f | _ => false)

theorem hubAbort_queues (s : State) (f : Vf) : (hubAbort s f).dma.queues =
    s.dma.queues.map fun q => if q.1 = 68 then (q.1, q.2.map fun j => if hubOpen f j then { j with status := some stAbort } else j) else q := rfl

theorem hubAbort_aborted (s : State) (f : Vf) : HubAborted (hubAbort s f) f := by
  intro j c g hj horigin hst
  have hopen : hubOpen f j = true := by
    unfold hubOpen
    rw [hst, horigin]
    simp
  unfold jobsOf mgetD at hj
  rw [hubAbort_queues, mget_mapKey s.dma.queues 68 (List.map fun j => if hubOpen f j then { j with status := some stAbort } else j)] at hj
  cases hq : mget s.dma.queues 68 with
  | none =>
    rw [hq] at hj
    exact List.not_mem_nil hj
  | some l =>
    rw [hq] at hj
    obtain ⟨x, -, hx⟩ := List.mem_map.mp hj
    by_cases hx' : hubOpen f x = true
    · rw [if_pos hx'] at hx
      subst hx
      cases hst
    · rw [if_neg hx'] at hx
      subst hx
      exact hx' hopen

theorem sessionEnd_dma (s : State) (n status : Nat) (tag : BitVec 64) (write : Bool) : (sessionEnd s n status tag write).dma = s.dma := by
  unfold sessionEnd
  split
  · rfl
  · extract_lets id _ t
    split
    · have h (f c : Nat) (e : BitVec 256) : (complPush t f c e).dma = t.dma := by rw [complPush_complOnly t f c e]
      exact h ..
    · rfl

theorem workEnd_aborts (s : State) (f : Vf) (write : Bool) : HubAborted (workEnd s f write) f ∧ mget (workEnd s f write).gate.ephem f.val = none := by
  unfold workEnd
  extract_lets a b c d e _ _
  have hc : HubAborted c f := hubAbort_aborted b f
  clear_value c
  have hd : d.dma = c.dma := each_rel (R := fun s t => t.dma = s.dma) (fun s => rfl) (fun h k => k.trans h) (fun s n => sessionEnd_dma s n 17 0 write) _ c
  clear_value d
  have he : e.dma = d.dma := rfl
  clear_value e
  refine ⟨?_, (mget_mdel ..).trans (if_pos rfl)⟩
  unfold HubAborted jobsOf at hc ⊢
  rw [← hd, ← he] at hc
  exact hc

/-! ### Quiescing and idle functions (R269, R495) -/

theorem statusVec_fn {g : Nat} (s : State) (p : Nat) : let t := statusVec s p
    ((∃ vs, fnGet t (p + 1) = { fnGet s (p + 1) with pendingVec := vs }) ∧ (p + 1 ≠ g → fnGet t g = fnGet s g)
      ∧ t.pcie = { s.pcie with funcs := t.pcie.funcs } ∧ t.car = s.car ∧ t.zoe = s.zoe) ∧ DictOnly s t :=
  ⟨msixSend_fn s (p + 1) 11, msixSend_dictOnly ..⟩

theorem functionQuiesce_zero (f : Vf) (s : State) : Runs (.functionQuiesce f 0) s fun t => t = s := by
  refine ⟨_, rfl, ?_⟩
  change ctrlWrite s f 0 = s
  unfold ctrlWrite
  dsimp only
  split
  · rfl
  · rfl

section
variable {f : Vf} {s : State} (hbar : barOn s (f.val + 1) = true)
include hbar

theorem ctrlWrite_one : ctrlWrite s f 1 = quiesceStart s f := by
  rw [ctrlWrite, if_neg (by simp [hbar])]
  rfl

theorem functionQuiesce_again (h : (fnGet s (f.val + 1)).st = .quiescing ∨ (fnGet s (f.val + 1)).st = .ending) : Runs (.functionQuiesce f 1) s fun t => t = s :=
  ⟨_, rfl, (ctrlWrite_one hbar).trans (if_pos h)⟩

theorem functionQuiesce_starts (h : (fnGet s (f.val + 1)).st = .idle ∨ (fnGet s (f.val + 1)).st = .running) : Runs (.functionQuiesce f 1) s fun t =>
    (fnGet t (f.val + 1)).st = .quiescing ∧ (fnGet t (f.val + 1)).quiesce = true ∧ mget t.gate.ephem f.val = none
    ∧ (∀ k, k ∈ t.car.taken → k.f ≠ f) ∧ (∀ k, k ∈ t.zoe.taken → k.f ≠ f) ∧ HubAborted t f := by
  have hstart : quiesceStart s f = statusVec (workEnd (fnSet s (f.val + 1) { fnGet s (f.val + 1) with st := .quiescing, quiesce := true }) f true) f.val := by
    refine if_neg ?_
    rcases h with h | h <;> simp [h]
  have hset : fnGet (fnSet s (f.val + 1) { fnGet s (f.val + 1) with st := .quiescing, quiesce := true }) (f.val + 1) = { fnGet s (f.val + 1) with st := .quiescing, quiesce := true } := fnGet_fnSet ..
  refine ⟨_, (congrArg Host.Outcome.next ((ctrlWrite_one hbar).trans hstart)), ?_⟩
  generalize fnSet s (f.val + 1) { fnGet s (f.val + 1) with st := .quiescing, quiesce := true } = u at *
  obtain ⟨⟨⟨cq, vs, hfn⟩, -⟩, -, htaken, hztaken⟩ := workEnd_fn (g := f.val + 1) u f true
  obtain ⟨habort, heph⟩ := workEnd_aborts u f true
  generalize workEnd u f true = w at *
  obtain ⟨⟨⟨vs', hvec⟩, -, -, hcar, hzoe⟩, honly⟩ := statusVec_fn (g := 0) w f.val
  generalize statusVec w f.val = t at *
  have hregs : fnGet t (f.val + 1) = { fnGet s (f.val + 1) with st := .quiescing, quiesce := true, cq := cq, pendingVec := vs' } := by
    rw [hvec, hfn, hset]
  refine ⟨by rw [hregs], by rw [hregs], by rw [honly]; exact heph, fun k hk => ?_, fun k hk => ?_, ?_⟩
  · rw [hcar, htaken] at hk
    simpa using (List.mem_filter.mp hk).2
  · rw [hzoe, hztaken] at hk
    simpa using (List.mem_filter.mp hk).2
  · rw [honly]
    exact habort

end

theorem functionIdle_runs (f : Vf) (s : State) : let x := fnGet s (f.val + 1)
    (x.st = .quiescing ∨ x.st = .ending → workDone s f = true → Runs (.functionIdle f) s fun t =>
      ∃ vs, fnGet t (f.val + 1) = { x with st := .idle, disabling := false, quiesce := false, pendingVec := vs })
    ∧ (x.st = .idle ∨ x.st = .running ∨ workDone s f = false → Runs (.functionIdle f) s fun t => t = s) := by
  intro x
  refine ⟨fun hst hdone => ⟨_, if_pos ⟨hst, hdone⟩, ?_⟩, fun h => ⟨_, if_neg fun hboth => ?_, rfl⟩⟩
  · have hset : fnGet (fnSet s (f.val + 1) { x with st := .idle, disabling := false, quiesce := false }) (f.val + 1) = { x with st := .idle, disabling := false, quiesce := false } :=
      fnGet_fnSet ..
    obtain ⟨⟨⟨vs, hvec⟩, -⟩, -⟩ := statusVec_fn (g := 0) (fnSet s (f.val + 1) { x with st := .idle, disabling := false, quiesce := false }) f.val
    exact ⟨vs, hvec.trans (by rw [hset])⟩
  · obtain ⟨hst, hdone⟩ := hboth
    rcases h with h | h | h
    · rcases hst with hst | hst <;> exact absurd (h.symm.trans hst) (by decide)
    · rcases hst with hst | hst <;> exact absurd (h.symm.trans hst) (by decide)
    · exact absurd (h.symm.trans hdone) (by decide)

/-! ### Disabled functions (R493, R503) -/

/-- The registers of a disabled function: its defaults, but for what configuration space keeps. -/
def fnGone (x : FuncS) : FuncS := { st := .ending, disabling := true, busMaster := x.busMaster, memSpace := x.memSpace, d3hot := x.d3hot }

/-- The rest of the link's configuration stays. -/
def LinkKept (s t : State) : Prop := t.pcie = { s.pcie with funcs := t.pcie.funcs }

theorem LinkKept.trans {s t u : State} (h : LinkKept s t) (k : LinkKept t u) : LinkKept s u := by
  unfold LinkKept at *
  rw [k, h]

/-- A function disabled has the defaults; the others keep their registers but for completions. -/
theorem vfDisable_spec (s : State) (f : Vf) : let t := vfDisable s f
    fnGet t (f.val + 1) = fnGone (fnGet s (f.val + 1)) ∧ LinkKept s t ∧ ∀ g, g ≠ f.val + 1 → FnKept g s t := by
  unfold vfDisable
  extract_lets fn x u w
  have hset : LinkKept s (fnSet s fn { x with st := .ending, disabling := true }) := rfl
  have hother (g : Nat) (hg : g ≠ fn) : FnKept g s (fnSet s fn { x with st := .ending, disabling := true }) := by
    have hfn : fnGet (fnSet s fn { x with st := .ending, disabling := true }) g = fnGet s g := fnGet_fnSet_ne _ _ hg
    exact ⟨⟨_, _, hfn⟩, fun _ => hfn⟩
  have hu (g : Nat) := workEnd_fn (g := g) (fnSet s fn { x with st := .ending, disabling := true }) f false
  have hw (g : Nat) : EndKept g u w := backlogVoid_endKept u fn
  change ∀ g, FnKept g _ u ∧ LinkKept _ u ∧ _ at hu
  clear_value w u
  refine ⟨fnGet_fnSet .., (hset.trans (hu 0).2.1).trans (LinkKept.trans (hw 0).2.1 rfl), fun g hg => ?_⟩
  have hfn : fnGet (fnSet w fn { st := .ending, disabling := true, busMaster := x.busMaster, memSpace := x.memSpace, d3hot := x.d3hot }) g = fnGet w g := fnGet_fnSet_ne _ _ hg
  exact ((hother g hg).trans (hu g).1).trans ((hw g).1.trans ⟨⟨_, _, hfn⟩, fun _ => hfn⟩)

/-- Every function of a list disabled. -/
theorem vfsDisable_spec (l : List Vf) (s : State) : let t := each l vfDisable s
    LinkKept s t ∧ ∀ f : Vf, (f ∈ l ∨ fnGet s (f.val + 1) = fnGone (fnGet s (f.val + 1)) → fnGet t (f.val + 1) = fnGone (fnGet s (f.val + 1))) := by
  induction l generalizing s with
  | nil => exact ⟨rfl, fun f h => h.resolve_left List.not_mem_nil⟩
  | cons a l ih =>
    obtain ⟨hself, hlink, hothers⟩ := vfDisable_spec s a
    rw [each_cons]
    obtain ⟨ihlink, ihfn⟩ := ih (vfDisable s a)
    generalize vfDisable s a = u at *
    refine ⟨hlink.trans ihlink, fun f h => ?_⟩
    by_cases hfa : f = a
    · subst hfa
      exact (ihfn f (.inr (by rw [hself]; rfl))).trans (by rw [hself]; rfl)
    · have hkept := hothers (f.val + 1) (fun h => hfa (Fin.ext (Nat.succ.inj h)))
      obtain ⟨⟨cq, vs, hfn⟩, hoff⟩ := hkept
      have hgone : fnGone (fnGet u (f.val + 1)) = fnGone (fnGet s (f.val + 1)) := by rw [hfn]; rfl
      rw [← hgone]
      refine ihfn f (h.imp (fun h => (List.mem_cons.mp h).resolve_left hfa) fun h => ?_)
      have hsame : fnGet u (f.val + 1) = fnGet s (f.val + 1) := hoff (by rw [h]; rfl)
      rw [hsame]
      exact h

theorem allDisable_spec (f : Vf) (s : State) : LinkKept s (allDisable s) ∧ fnGet (allDisable s) (f.val + 1) = fnGone (fnGet s (f.val + 1)) := by
  have hall : allDisable s = each ((List.range 16).map vfOf) vfDisable s := by
    unfold allDisable each
    rw [List.foldl_map]
  obtain ⟨hlink, hfn⟩ := vfsDisable_spec ((List.range 16).map vfOf) s
  rw [hall]
  exact ⟨hlink, hfn f (.inl (List.mem_map.mpr ⟨f.val, List.mem_range.mpr f.isLt, Fin.ext (Nat.mod_eq_of_lt f.isLt)⟩))⟩

theorem pfReset_spec (f : Vf) (s : State) : LinkKept s (pfReset s) ∧ fnGet (pfReset s) (f.val + 1) = fnGet s (f.val + 1) :=
  ⟨rfl, fnGet_fnSet_ne _ _ (Nat.succ_ne_zero _)⟩

/-- Configuration cleared of the functions of a list. -/
theorem configsClear_spec (l : List Nat) (s : State) : let t := each l (fun s f => fnSet s f { fnGet s f with busMaster := false, memSpace := false, d3hot := false }) s
    LinkKept s t ∧ ∀ g, (g ∈ l ∨ fnGet s g = { fnGet s g with busMaster := false, memSpace := false, d3hot := false }) →
      fnGet t g = { fnGet s g with busMaster := false, memSpace := false, d3hot := false } := by
  induction l generalizing s with
  | nil => exact ⟨rfl, fun g h => h.resolve_left List.not_mem_nil⟩
  | cons a l ih =>
    have hself : fnGet (fnSet s a { fnGet s a with busMaster := false, memSpace := false, d3hot := false }) a = { fnGet s a with busMaster := false, memSpace := false, d3hot := false } :=
      fnGet_fnSet ..
    have hother (g : Nat) (hg : g ≠ a) : fnGet (fnSet s a { fnGet s a with busMaster := false, memSpace := false, d3hot := false }) g = fnGet s g := fnGet_fnSet_ne _ _ hg
    have hlink : LinkKept s (fnSet s a { fnGet s a with busMaster := false, memSpace := false, d3hot := false }) := rfl
    rw [each_cons]
    obtain ⟨ihlink, ihfn⟩ := ih (fnSet s a { fnGet s a with busMaster := false, memSpace := false, d3hot := false })
    generalize fnSet s a { fnGet s a with busMaster := false, memSpace := false, d3hot := false } = u at *
    refine ⟨hlink.trans ihlink, fun g h => ?_⟩
    by_cases hga : g = a
    · subst hga
      exact (ihfn g (.inr (by rw [hself]))).trans (by rw [hself])
    · rw [← hother g hga]
      exact ihfn g (h.imp (fun h => (List.mem_cons.mp h).resolve_left hga) fun h => by rw [hother g hga]; exact h)

theorem configClear_spec (f : Vf) (s : State) : let t := configClear s
    t.pcie = { s.pcie with numVfs := 0, vfEnable := false, funcs := t.pcie.funcs }
    ∧ fnGet t (f.val + 1) = { fnGet s (f.val + 1) with busMaster := false, memSpace := false, d3hot := false } := by
  obtain ⟨hlink, hfn⟩ := configsClear_spec (List.range 17) { s with pcie := { s.pcie with numVfs := 0, vfEnable := false } }
  exact ⟨hlink, hfn (f.val + 1) (.inl (List.mem_range.mpr (by omega)))⟩

/-- Every function as after a reset of the link (R503). -/
def LinkReset (f : Vf) (s t : State) : Prop := fnGet t (f.val + 1) = { st := .ending, disabling := true } ∧ t.pcie = { s.pcie with numVfs := 0, vfEnable := false, funcs := t.pcie.funcs }

theorem hotReset_resets (f : Vf) (s : State) : LinkReset f s (disableDo s 0 .hotReset) := by
  obtain ⟨hall, hgone⟩ := allDisable_spec f s
  change LinkReset f s (configClear (pfReset (allDisable s)))
  generalize allDisable s = u at *
  obtain ⟨hpf, hsame⟩ := pfReset_spec f u
  generalize pfReset u = w at *
  obtain ⟨hclear, hfn⟩ := configClear_spec f w
  generalize configClear w = t at *
  have hlink := hall.trans hpf
  unfold LinkKept at hlink
  exact ⟨by rw [hfn, hsame, hgone]; rfl, by rw [hclear, hlink]⟩

section
variable {f : Vf} {s : State} (hon : pcieOn s = true)
include hon

theorem functionDisable_exec (g : Func) (tr : DisableTrigger) : exec (.functionDisable g tr) s = .next (disableDo s g.val tr) := if_pos hon

theorem functionDisable_runs :
    let x := fnGet s (f.val + 1)
    let g : Func := funcOf (f.val + 1)
    (∀ tr, tr = .busMasterCleared ∨ tr = .d3hot ∨ tr = .numVfsBelow → Runs (.functionDisable g tr) s fun t => fnGet t (f.val + 1) = fnGone x)
    ∧ (Runs (.functionDisable g .flr) s fun t => fnGet t (f.val + 1) = { fnGone x with busMaster := false, memSpace := false })
    ∧ (∀ tr, tr = .vfEnableCleared ∨ tr = .pfFlr → Runs (.functionDisable 0 tr) s fun t => fnGet t (f.val + 1) = fnGone x) := by
  intro x g
  have hval : g.val = f.val + 1 := funcOf_val f
  have hvf : vfOf (g.val - 1) = f := by rw [hval]; exact vfOf_val f
  have hne : g.val ≠ 0 := by omega
  have hone := (vfDisable_spec s f).1
  refine ⟨fun tr htr => ⟨_, functionDisable_exec hon g tr, ?_⟩, ⟨_, functionDisable_exec hon g .flr, ?_⟩, fun tr htr => ⟨_, functionDisable_exec hon 0 tr, ?_⟩⟩
  · have hdo : disableDo s g.val tr = vfDisable s f := by
      rcases htr with rfl | rfl | rfl <;> exact (if_neg hne).trans (by rw [hvf])
    rw [hdo]
    exact hone
  · have hdo : disableDo s g.val .flr = fnSet (vfDisable s f) (f.val + 1) { fnGet (vfDisable s f) (f.val + 1) with busMaster := false, memSpace := false } := by
      refine (if_neg hne).trans ?_
      rw [hvf, hval]
    rw [hdo, hone]
    exact fnGet_fnSet ..
  · obtain ⟨-, hgone⟩ := allDisable_spec f s
    rcases htr with rfl | rfl
    · exact hgone
    · exact (pfReset_spec f _).2.trans hgone

theorem linkDisable_runs :
    let down (t : State) : Prop := fnGet t (f.val + 1) = { st := .ending, disabling := true } ∧ t.pcie.numVfs = 0 ∧ t.pcie.vfEnable = false
    (Runs (.functionDisable 0 .linkDown) s fun t => down t ∧ t.pcie.linkUp = false)
    ∧ Runs (.functionDisable 0 .hotReset) s down
    ∧ Runs .perstAssert s fun t => down t ∧ t.pcie.linkUp = false ∧ t.pcie.fwWindow = [] := by
  intro down
  have hdown {u t : State} (h : LinkReset f u t) : down t ∧ t.pcie.linkUp = u.pcie.linkUp ∧ t.pcie.fwWindow = u.pcie.fwWindow := by
    obtain ⟨hfn, hpcie⟩ := h
    exact ⟨⟨hfn, by rw [hpcie], by rw [hpcie]⟩, by rw [hpcie], by rw [hpcie]⟩
  have hlinkdown (u : State) : down (disableDo u 0 .linkDown) ∧ (disableDo u 0 .linkDown).pcie.linkUp = false ∧ (disableDo u 0 .linkDown).pcie.fwWindow = u.pcie.fwWindow := by
    obtain ⟨v, hdo, hup, hwindow⟩ : ∃ v, disableDo u 0 .linkDown = disableDo v 0 .hotReset ∧ v.pcie.linkUp = false ∧ v.pcie.fwWindow = u.pcie.fwWindow :=
      ⟨{ u with pcie := { u.pcie with linkUp := false } }, rfl, rfl, rfl⟩
    obtain ⟨hd, hdup, hdwindow⟩ := hdown (hotReset_resets f v)
    rw [hdo]
    exact ⟨hd, hdup.trans hup, hdwindow.trans hwindow⟩
  have hexec : exec .perstAssert s = .next (disableDo { s with pcie := { s.pcie with fwWindow := [] } } 0 .linkDown) := if_pos hon
  obtain ⟨hlink, hup, -⟩ := hlinkdown s
  exact ⟨⟨_, functionDisable_exec hon 0 .linkDown, hlink, hup⟩, ⟨_, functionDisable_exec hon 0 .hotReset, (hdown (hotReset_resets f s)).1⟩, ⟨_, hexec, hlinkdown _⟩⟩

end

/-- Settles O45: quiesce, disable by each trigger, and the end of a function's work. -/
theorem functionsQuiesceDisableAndIdle : Obligations.FunctionsQuiesceDisableAndIdle := by
  refine ⟨fun f v s hbar => ⟨fun hv hst => ?_, fun hv hst => ?_, fun hv => ?_⟩, fun f s hon => ?_, fun f s => functionIdle_runs f s⟩
  · subst hv
    exact functionQuiesce_starts hbar hst
  · subst hv
    exact functionQuiesce_again hbar hst
  · subst hv
    exact functionQuiesce_zero f s
  · obtain ⟨hone, hflr, hall⟩ := functionDisable_runs (f := f) hon
    exact ⟨hone, hflr, hall, linkDisable_runs hon⟩

end Sys2Proof.Machine
end

section
/-! SUPPORT. O50: insertion, presence, main power and boot (R499 to R504, R515, R520 to R525). -/

namespace Sys2Proof.Machine

open Sys2Proof Sys2Proof.Claims

/-! ### Contacts, presence and the main switch (R521 to R525) -/

theorem presenceAssert_runs (x : BitVec 5) (s : State) :
    (s.tray.preCharge = true → s.tray.presence ≠ .asserted → Runs (.presenceAssert x) s fun t => t.tray.presence = .asserted ∧ t.tray.slotId.toNat = x.toNat % 16
      ∧ (t.tray.strapBad = true ↔ popcount 5 x.toNat % 2 = 0) ∧ t = { s with tray := t.tray })
    ∧ (s.tray.preCharge = false ∨ s.tray.presence = .asserted → Runs (.presenceAssert x) s fun t => t = s) := by
  refine ⟨fun hcharge hpres => ⟨_, if_neg (by simp [hcharge, hpres]), rfl, BitVec.toNat_ofNat .., ?_, rfl⟩, fun h => ⟨_, if_pos (h.imp_left fun h => by simp [h]), rfl⟩⟩
  change (!strapsOdd x) = true ↔ _
  rw [strapsOdd, Bool.not_eq_true', beq_eq_false_iff_ne]
  omega

theorem mainSwitchClose_runs (bus bulk store : Nat) (s : State) :
    let ok := s.tray.preCharge = true ∧ s.tray.presence = .asserted ∧ bus * 95 ≤ bulk * 100 ∧ bus * 95 ≤ store * 100
    (ok → Runs (.mainSwitchClose bus bulk store) s fun t => t = { s with tray := { s.tray with mainSwitch := true } })
    ∧ (¬ ok → Runs (.mainSwitchClose bus bulk store) s fun t => t = s) :=
  ⟨fun h => ⟨_, if_pos h, rfl⟩, fun h => ⟨_, if_neg h, rfl⟩⟩

/-! ### The state of a boot (R500 to R502) -/

/-- The hub when a boot begins: the auxiliary rail and the Gatehouse. -/
def hubBegin : HubPower := { aux := true, gatehouse := true }

/-- A component's image is there, its own and passes its checks. -/
def ImageGood (s : State) (c : Nat) : Prop := ∃ i, mget s.flash.images c = some i ∧ i.comp = c ∧ fwCheck s i = 0

/-- A boot goes on: with a hub and the components measured so far; nothing else has begun. -/
def Booting (s : State) (hub : HubPower) (comps : List Nat) (t : State) : Prop :=
  t.tray.failed = false ∧ t.tray.ready = false ∧ t.tray.hub = hub ∧ t.tray.measurements.map Measurement.comp = comps ∧ t.tray.strapBad = s.tray.strapBad
  ∧ t.tray.quadOn = 0 ∧ t.tray.clockState = .run ∧ t.fuses = s.fuses ∧ t.flash = s.flash ∧ t.clk.timebase = 0 ∧ t.clk.now = s.clk.now
  ∧ t.gate.parts = [] ∧ t.car.reqs = [] ∧ t.pav.log = s.flash.keptLog ∧ bootRole t = bootRole s ∧ t.pair.role = .unpaired

/-- What the hub shows of where a boot stopped. -/
def HubFits (s : State) (hub : HubPower) : Prop :=
  hub.pcie = false ∧ (s.fuses.lifecycle = .rma ∨ mget s.flash.images 0 = none → hub = hubBegin) ∧ (s.tray.strapBad = true → hub.pavilion = false)

/-- A boot has stopped: the tray has failed, with the stages not reached left off. -/
def BootStopped (s t : State) : Prop := Failed t ∧ t.tray.ready = false ∧ HubFits s t.tray.hub

/-- A boot goes on with what has passed, or has stopped where something had not. -/
def BootAt (s : State) (hub : HubPower) (comps : List Nat) (passed : Prop) (t : State) : Prop := (Booting s hub comps t ∧ passed) ∨ (BootStopped s t ∧ ¬ passed)

/-- A failure declared on a tray without a role sets the failure, and leaves the hub and what it was ready for. -/
theorem declareFailed_fails {s : State} (i : LogInfo) (hfailed : s.tray.failed = false) (hrole : s.pair.role ≠ .rehearsing) : let t := declareFailed s i
    Failed t ∧ t.tray.ready = s.tray.ready ∧ t.tray.hub = s.tray.hub := by
  have hpair : (logErr s { i with cls := 5, action := 7 }).pair.role = s.pair.role := by
    rw [(logErr_workOnly s { i with cls := 5, action := 7 }).1]
  have htray : (logErr s { i with cls := 5, action := 7 }).tray.ready = s.tray.ready ∧ (logErr s { i with cls := 5, action := 7 }).tray.hub = s.tray.hub := by
    rw [(logErr_workOnly s { i with cls := 5, action := 7 }).1]
    exact ⟨rfl, rfl⟩
  intro t
  have ht : t = emit { (logErr s { i with cls := 5, action := 7 }) with
      tray := { (logErr s { i with cls := 5, action := 7 }).tray with failed := true, clockState := .deepSleep }
      pair := { (logErr s { i with cls := 5, action := 7 }).pair with role := .failed } } .failed := by
    unfold t declareFailed
    rw [if_neg (by simp [hfailed])]
    unfold rehearsalLeave
    rw [if_neg (by rw [hpair]; exact hrole)]
  generalize logErr s { i with cls := 5, action := 7 } = u at *
  rw [ht]
  exact ⟨⟨rfl, rfl, rfl⟩, htray⟩

section
variable {s t : State} {hub : HubPower} {comps : List Nat} {passed : Prop}

/-- A check that fails stops the boot. -/
theorem Booting.stops (h : Booting s hub comps t) (hfit : HubFits s hub) (c check : Nat) : BootStopped s (bootFail t c check) := by
  obtain ⟨hfailed, hready, hhub, -, -, -, -, -, -, -, -, -, -, -, -, hrole⟩ := h
  obtain ⟨hf, hr, hh⟩ := declareFailed_fails { cls := 5, block := 9, kind := 1, detail := c * 16 + check } hfailed (by rw [hrole]; decide)
  exact ⟨hf, hr.trans hready, by rw [bootFail, hh, hhub]; exact hfit⟩

theorem Booting.fwCheck (h : Booting s hub comps t) (i : FwImage) : Machine.fwCheck t i = Machine.fwCheck s i := by
  have hfuses : t.fuses = s.fuses := by
    obtain ⟨-, -, -, -, -, -, -, hfuses, -⟩ := h
    exact hfuses
  unfold Machine.fwCheck dualOk rootOk
  rw [hfuses]

/-- A component measured. -/
theorem Booting.measure (h : Booting s hub comps t) (i : FwImage) (hlen : comps.length < 24) : Booting s hub (comps ++ [i.comp]) (Machine.measure t i) := by
  obtain ⟨hfailed, hready, hhub, hcomps, hrest⟩ := h
  refine ⟨hfailed, hready, hhub, ?_, hrest⟩
  change ((t.tray.measurements ++ [_]).take 24).map Measurement.comp = _
  have hmeasured : t.tray.measurements.length = comps.length := by rw [← hcomps, List.length_map]
  rw [List.take_of_length_le (by rw [List.length_append, hmeasured]; simp; omega), List.map_append, hcomps]
  rfl

/-- A hub domain powered. -/
theorem Booting.powered (h : Booting s hub comps t) (f : HubPower → HubPower) : Booting s (f hub) comps (hubSetDom t f) := by
  obtain ⟨hfailed, hready, hhub, hrest⟩ := h
  exact ⟨hfailed, hready, congrArg f hhub, hrest⟩

/-- A stopped boot does nothing more. -/
theorem BootStopped.stage (h : BootStopped s t) (go : State → State) : bootStage t go = t := if_pos h.1.1

theorem BootStopped.comp (h : BootStopped s t) (c : Nat) (go : State → State) : bootComp t c go = t := if_pos h.1.1

/-- A component that passes goes on with what follows it; one that does not stops the boot. -/
theorem BootAt.comp (h : BootAt s hub comps passed t) (hfit : passed → HubFits s hub) (hlen : comps.length < 24) (c : Nat) {go : State → State} {hub' : HubPower} {passed' : Prop}
    (hgo : ∀ u, passed → ImageGood s c → Booting s hub (comps ++ [c]) u → BootAt s hub' (comps ++ [c]) passed' (go u)) (hpassed : passed' → passed ∧ ImageGood s c) :
    BootAt s hub' (comps ++ [c]) passed' (bootComp t c go) := by
  rcases h with ⟨hboot, hp⟩ | ⟨hstop, hp⟩
  · have hfailed := hboot.1
    have hflash : t.flash = s.flash := by
      obtain ⟨-, -, -, -, -, -, -, -, hflash, -⟩ := hboot
      exact hflash
    unfold bootComp
    rw [if_neg (by simp [hfailed]), hflash]
    cases himg : mget s.flash.images c with
    | none =>
      refine .inr ⟨hboot.stops (hfit hp) c 3, fun h => ?_⟩
      obtain ⟨-, i, hi, -⟩ := hpassed h
      rw [himg] at hi
      cases hi
    | some i =>
      dsimp only
      rw [hboot.fwCheck]
      by_cases hgood : i.comp = c ∧ fwCheck s i = 0
      · obtain ⟨hcomp, hcheck⟩ := hgood
        rw [if_neg (not_not.mpr hcomp), if_pos hcheck]
        have hmeas := hboot.measure i hlen
        rw [hcomp] at hmeas
        exact hgo _ hp ⟨i, himg, hcomp, hcheck⟩ hmeas
      · have hbad : ¬ (if i.comp ≠ c then 4 else fwCheck s i) = 0 := by
          split
          · decide
          · next hcomp => exact fun hcheck => hgood ⟨not_not.mp hcomp, hcheck⟩
        rw [if_neg hbad]
        refine .inr ⟨hboot.stops (hfit hp) c _, fun h => ?_⟩
        obtain ⟨-, j, hj, hcomp, hcheck⟩ := hpassed h
        obtain rfl : i = j := Option.some.inj (himg.symm.trans hj)
        exact hgood ⟨hcomp, hcheck⟩
  · rw [hstop.comp]
    exact .inr ⟨hstop, fun h => hp (hpassed h).1⟩

/-- A stage that may fail. -/
theorem BootAt.stage (h : BootAt s hub comps passed t) {go : State → State} {hub' : HubPower} {passed' : Prop}
    (hgo : passed → Booting s hub comps t → BootAt s hub' comps passed' (go t)) (hpassed : passed' → passed) : BootAt s hub' comps passed' (bootStage t go) := by
  rcases h with ⟨hboot, hp⟩ | ⟨hstop, hp⟩
  · unfold bootStage
    rw [if_neg (by simp [hboot.1])]
    exact hgo hp hboot
  · rw [hstop.stage]
    exact .inr ⟨hstop, fun h => hp (hpassed h)⟩

end

/-! ### The stages (R500, R515) -/

/-- The hub once component 0 runs. -/
def hubRoot : HubPower := { hubBegin with hubCommon := true }

/-- The hub once the Carousel runs. -/
def hubCar : HubPower := { hubRoot with carouselDma := true }

/-- The hub once Pavilion runs. -/
def hubPav : HubPower := { hubCar with pavilion := true }

/-- The hub once both PHY groups run. -/
def hubMem : HubPower := { hubPav with hbmA := true, hbmB := true }

/-- Every component and strap up to Pavilion's has passed. -/
def CorePassed (s : State) : Prop := (((s.fuses.lifecycle ≠ .rma ∧ ImageGood s 0) ∧ ImageGood s 1) ∧ ImageGood s 2) ∧ s.tray.strapBad = false

theorem hubFits_begin (s : State) : HubFits s hubBegin := ⟨rfl, fun _ => rfl, fun _ => rfl⟩

theorem hubFits_root {s : State} {hub : HubPower} (hpcie : hub.pcie = false) (hroot : s.fuses.lifecycle ≠ .rma ∧ ImageGood s 0)
    (hstrap : s.tray.strapBad = true → hub.pavilion = false) : HubFits s hub := by
  refine ⟨hpcie, fun h => ?_, hstrap⟩
  obtain ⟨hlife, i, hi, -⟩ := hroot
  rcases h with h | h
  · exact absurd h hlife
  · rw [hi] at h
    cases h

theorem hubFits_core {s : State} {hub : HubPower} (hpcie : hub.pcie = false) (h : CorePassed s) : HubFits s hub :=
  hubFits_root hpcie h.1.1.1 fun hbad => absurd (h.2.symm.trans hbad) (by decide)

theorem bootRole_base (s : State) : bootRole (bootBase s) = bootRole s := by
  have hkept (idx : Nat) (h : odFlash (odKey idx 0 / 256) = true) : odGet (bootBase s) idx 0 = odGet s idx 0 := by
    have hvals : (bootBase s).pav.vals = mdrop s.pav.vals fun k => !odFlash (k / 256) := by
      change s.pav.vals.filter _ = s.pav.vals.filter _
      simp
    rw [odGet, hvals, mget_mdrop, if_neg (by simp [h])]
    rfl
  rw [bootRole, hkept 0x6400 (by decide), hkept 0x6401 (by decide)]
  rfl

theorem booting_begin (s : State) : Booting s hubBegin [] (bootKeys (bootBase s)) :=
  ⟨rfl, rfl, rfl, rfl, rfl, rfl, rfl, rfl, rfl, rfl, rfl, rfl, rfl, rfl, bootRole_base s, rfl⟩

/-- A component that nothing follows. -/
theorem BootAt.plain {s t : State} {hub : HubPower} {comps : List Nat} {passed : Prop} (h : BootAt s hub comps passed t) (hfit : passed → HubFits s hub) (hlen : comps.length < 24) (c : Nat) :
    BootAt s hub (comps ++ [c]) (passed ∧ ImageGood s c) (bootComp t c id) :=
  h.comp hfit hlen c (fun _ hp himg hboot => .inl ⟨hboot, hp, himg⟩) fun h => h

/-- A component that powers domains of the hub. -/
theorem BootAt.powering {s t : State} {hub : HubPower} {comps : List Nat} {passed : Prop} (h : BootAt s hub comps passed t) (hfit : passed → HubFits s hub) (hlen : comps.length < 24) (c : Nat)
    (f : HubPower → HubPower) : BootAt s (f hub) (comps ++ [c]) (passed ∧ ImageGood s c) (bootComp t c fun s => hubSetDom s f) :=
  h.comp hfit hlen c (fun _ hp himg hboot => .inl ⟨hboot.powered f, hp, himg⟩) fun h => h

/-- The first component, and Pavilion's. -/
theorem bootCore_at (s : State) : BootAt s hubPav [0, 1, 2] (CorePassed s)
    (bootComp (bootComp (bootComp (bootStage (bootKeys (bootBase s)) fun s => if s.fuses.lifecycle = .rma then bootFail s 0 0 else s) 0 bootHub)
      1 fun s => hubSetDom s fun h => { h with carouselDma := true })
      2 fun s => if s.tray.strapBad then bootFail s 2 0 else hubSetDom s fun h => { h with pavilion := true }) := by
  have hlife : BootAt s hubBegin [] (s.fuses.lifecycle ≠ .rma) (bootStage (bootKeys (bootBase s)) fun s => if s.fuses.lifecycle = .rma then bootFail s 0 0 else s) := by
    refine BootAt.stage (passed := True) (.inl ⟨booting_begin s, trivial⟩) (fun _ hboot => ?_) fun _ => trivial
    by_cases hrma : s.fuses.lifecycle = .rma
    · exact .inr ⟨by rw [show (bootKeys (bootBase s)).fuses = s.fuses from rfl, if_pos hrma]; exact hboot.stops (hubFits_begin s) 0 0, not_not.mpr hrma⟩
    · exact .inl ⟨by rw [show (bootKeys (bootBase s)).fuses = s.fuses from rfl, if_neg hrma]; exact hboot, hrma⟩
  have hroot : BootAt s hubRoot [0] (s.fuses.lifecycle ≠ .rma ∧ ImageGood s 0)
      (bootComp (bootStage (bootKeys (bootBase s)) fun s => if s.fuses.lifecycle = .rma then bootFail s 0 0 else s) 0 bootHub) := by
    refine hlife.comp (go := bootHub) (fun _ => hubFits_begin s) (by decide) 0 (fun u hp himg hboot => .inl ⟨?_, hp, himg⟩) fun h => h
    obtain ⟨hfailed, hready, hhub, hcomps, hstrap, hquad, hclk, hfuses, hflash, -, hnow, hrest⟩ := hboot
    exact ⟨hfailed, hready, by change { u.tray.hub with hubCommon := true } = _; rw [hhub]; rfl, hcomps, hstrap, hquad, hclk, hfuses, hflash, rfl, hnow, hrest⟩
  have hcar := hroot.powering (fun hp => hubFits_root rfl hp fun _ => rfl) (by decide) 1 fun h => { h with carouselDma := true }
  refine BootAt.comp hcar (fun hp => hubFits_root rfl hp.1 fun _ => rfl) (by decide) 2 (fun u hp himg hboot => ?_) fun h => ⟨h.1.1, h.1.2⟩
  have hstrap : u.tray.strapBad = s.tray.strapBad := by
    obtain ⟨-, -, -, -, hstrap, -⟩ := hboot
    exact hstrap
  by_cases hbad : s.tray.strapBad = true
  · refine .inr ⟨?_, fun h => absurd (h.2.symm.trans hbad) (by decide)⟩
    rw [if_pos (hstrap.trans hbad)]
    exact hboot.stops (hubFits_root rfl hp.1 fun _ => rfl) 2 0
  · refine .inl ⟨?_, ⟨⟨hp, himg⟩, Bool.eq_false_iff.mpr hbad⟩⟩
    rw [if_neg (by rw [hstrap]; exact hbad)]
    exact hboot.powered fun h => { h with pavilion := true }

/-- Every check of a boot has passed. -/
def BootPassed (s : State) (trained : BitVec 8) : Prop :=
  ((((((CorePassed s ∧ ImageGood s 5) ∧ ImageGood s 3) ∧ ImageGood s 4) ∧ ImageGood s 6) ∧ ImageGood s 7) ∧ ImageGood s 8) ∧ trained = 0xFF

/-- The boot up to the training of the stacks. -/
def bootChecked (s : State) (trained : BitVec 8) : State :=
  let s := bootKeys (bootBase s)
  let s := bootStage s fun s => if s.fuses.lifecycle = .rma then bootFail s 0 0 else s
  let s := bootComp s 0 bootHub
  let s := bootComp s 1 fun s => hubSetDom s fun h => { h with carouselDma := true }
  let s := bootComp s 2 fun s => if s.tray.strapBad then bootFail s 2 0 else hubSetDom s fun h => { h with pavilion := true }
  let s := bootComp s 5 fun s => hubSetDom s fun h => { h with hbmA := true, hbmB := true }
  let s := [3, 4, 6, 7, 8].foldl (fun s c => bootComp s c id) s
  bootStage s fun s => if trained = 0xFF then s else bootFail s 5 5

theorem bootChecked_at (s : State) (trained : BitVec 8) : BootAt s hubMem [0, 1, 2, 5, 3, 4, 6, 7, 8] (BootPassed s trained) (bootChecked s trained) := by
  have hhbm := (bootCore_at s).powering (fun hp => hubFits_core rfl hp) (by decide) 5 fun h => { h with hbmA := true, hbmB := true }
  have h3 := hhbm.plain (fun hp => hubFits_core rfl hp.1) (by decide) 3
  have h4 := h3.plain (fun hp => hubFits_core rfl hp.1.1) (by decide) 4
  have h6 := h4.plain (fun hp => hubFits_core rfl hp.1.1.1) (by decide) 6
  have h7 := h6.plain (fun hp => hubFits_core rfl hp.1.1.1.1) (by decide) 7
  have h8 := h7.plain (fun hp => hubFits_core rfl hp.1.1.1.1.1) (by decide) 8
  refine BootAt.stage h8 (fun hp hboot => ?_) fun h => h.1
  by_cases htrained : trained = 0xFF
  · exact .inl ⟨by rw [if_pos htrained]; exact hboot, hp, htrained⟩
  · exact .inr ⟨by rw [if_neg htrained]; exact hboot.stops (hubFits_core rfl hp.1.1.1.1.1.1) 5 5, fun h => htrained h.2⟩

/-! ### A boot that ends (R500, R502) -/

/-- Memory reserved, mapped and keyed anew, and the host's port powered. -/
def bootMemory (s : State) : State :=
  let s := reservedInit s
  let s := { s with mem := { mapBase := { zeroKey := freeVal s } }, kv := { saltA := BitVec.ofNat 64 (Config.freeNat (s.freeCtr + 1)) } }
  hubSetDom (freeSteps s 2) fun h => { h with pcie := true }

/-- The tray ready, in its role. -/
def bootReady (s : State) : State :=
  hubSetDom { s with tray := { s.tray with ready := true }, pair := { role := bootRole s } } fun h => { h with zoetrope := true }

theorem bootDo_eq (s : State) (trained : BitVec 8) : bootDo s trained = bootStage (bootStage (bootStage (bootChecked s trained) bootMemory) bootTrellis) bootReady := rfl

/-- A tray that has booted: ready, with every domain on and nothing of before but fuses, flash, elapsed time and the log kept in flash. -/
def Booted (s t : State) : Prop :=
  t.tray.ready = true ∧ t.tray.failed = false
  ∧ t.tray.hub = { aux := true, gatehouse := true, hubCommon := true, pavilion := true, carouselDma := true, hbmA := true, hbmB := true, pcie := true, trellis := true, zoetrope := true }
  ∧ t.tray.quadOn = 0 ∧ t.tray.clockState = .run ∧ t.clk.timebase = 0 ∧ t.clk.now = s.clk.now ∧ t.tray.measurements.map Measurement.comp = [0, 1, 2, 5, 3, 4, 6, 7, 8]
  ∧ t.gate.parts = [] ∧ t.car.reqs = [] ∧ t.mem.hbm = [] ∧ t.pav.log = s.flash.keptLog ∧ t.pair.role = bootRole s ∧ t.fuses = s.fuses ∧ t.flash = s.flash

theorem Booting.memory {s t : State} {hub : HubPower} {comps : List Nat} (h : Booting s hub comps t) :
    Booting s { hub with pcie := true } comps (bootMemory t) ∧ (bootMemory t).mem.hbm = [] := by
  obtain ⟨hfailed, hready, hhub, hrest⟩ := h
  exact ⟨⟨hfailed, hready, congrArg (fun h : HubPower => { h with pcie := true }) hhub, hrest⟩, rfl⟩

theorem Booting.trellis {s t : State} {hub : HubPower} {comps : List Nat} (h : Booting s hub comps t) :
    Booting s { hub with trellis := true } comps (bootTrellis t) ∧ (bootTrellis t).mem = t.mem := by
  obtain ⟨hfailed, hready, hhub, hrest⟩ := h
  exact ⟨⟨hfailed, hready, congrArg (fun h : HubPower => { h with trellis := true }) hhub, hrest⟩, rfl⟩

theorem Booting.booted {s t : State} (h : Booting s hubMem [0, 1, 2, 5, 3, 4, 6, 7, 8] t) : Booted s (bootStage (bootStage (bootStage t bootMemory) bootTrellis) bootReady) := by
  obtain ⟨hmemory, hhbm⟩ := h.memory
  obtain ⟨htrellis, hmem⟩ := hmemory.trellis
  rw [show bootStage t bootMemory = bootMemory t from if_neg (by simp [h.1]), show bootStage (bootMemory t) bootTrellis = bootTrellis (bootMemory t) from if_neg (by simp [hmemory.1]),
    show bootStage (bootTrellis (bootMemory t)) bootReady = bootReady (bootTrellis (bootMemory t)) from if_neg (by simp [htrellis.1])]
  generalize bootTrellis (bootMemory t) = u at *
  obtain ⟨hfailed, -, hhub, hcomps, -, hquad, hclk, hfuses, hflash, htime, hnow, hparts, hreqs, hlog, hrole, -⟩ := htrellis
  refine ⟨rfl, hfailed, ?_, hquad, hclk, htime, hnow, hcomps, hparts, hreqs, ?_, hlog, hrole, hfuses, hflash⟩
  · change { u.tray.hub with zoetrope := true } = _
    rw [hhub]
    rfl
  · exact (congrArg (fun m => m.hbm) hmem).trans hhbm

/-- A boot ends ready where every check has passed, and else has stopped. -/
theorem bootDo_ends (s : State) (trained : BitVec 8) : (Booted s (bootDo s trained) ∧ BootPassed s trained) ∨ (BootStopped s (bootDo s trained) ∧ ¬ BootPassed s trained) := by
  rw [bootDo_eq]
  rcases bootChecked_at s trained with ⟨hboot, hp⟩ | ⟨hstop, hp⟩
  · exact .inl ⟨hboot.booted, hp⟩
  · refine .inr ⟨?_, hp⟩
    rw [hstop.stage, hstop.stage, hstop.stage]
    exact hstop

theorem bootDo_stops {s : State} {trained : BitVec 8} (h : ¬ BootPassed s trained) : BootStopped s (bootDo s trained) := by
  rcases bootDo_ends s trained with ⟨-, hp⟩ | ⟨hstop, -⟩
  · exact absurd hp h
  · exact hstop

theorem bootDo_boots {s : State} {trained : BitVec 8} (h : BootPassed s trained) : Booted s (bootDo s trained) := by
  rcases bootDo_ends s trained with ⟨hboot, -⟩ | ⟨-, hp⟩
  · exact hboot
  · exact absurd h hp

/-- A boot passes its checks where every image does, the straps and stacks are sound and the part is no returned one. -/
theorem bootPassed_iff (s : State) (trained : BitVec 8) :
    BootPassed s trained ↔ s.fuses.lifecycle ≠ .rma ∧ s.tray.strapBad = false ∧ trained = 0xFF ∧ ∀ c, c < 9 → ImageGood s c := by
  unfold BootPassed CorePassed
  constructor
  · rintro ⟨⟨⟨⟨⟨⟨⟨⟨⟨⟨⟨hlife, h0⟩, h1⟩, h2⟩, hstrap⟩, h5⟩, h3⟩, h4⟩, h6⟩, h7⟩, h8⟩, htrained⟩
    refine ⟨hlife, hstrap, htrained, fun c hc => ?_⟩
    interval_cases c <;> assumption
  · rintro ⟨hlife, hstrap, htrained, himages⟩
    have himage (c : Nat) (hc : c < 9) := himages c hc
    exact ⟨⟨⟨⟨⟨⟨⟨⟨⟨⟨⟨hlife, himage 0 (by decide)⟩, himage 1 (by decide)⟩, himage 2 (by decide)⟩, hstrap⟩, himage 5 (by decide)⟩, himage 3 (by decide)⟩, himage 4 (by decide)⟩,
      himage 6 (by decide)⟩, himage 7 (by decide)⟩, himage 8 (by decide)⟩, htrained⟩

/-- Settles O50: contacts and switches, and a boot followed stage by stage until one fails or the tray is ready. -/
theorem powerGoodBootsTheTray : Obligations.PowerGoodBootsTheTray := by
  refine ⟨fun s => ⟨_, rfl, rfl⟩, presenceAssert_runs, mainSwitchClose_runs, fun mv trained s => ?_, fun c s hfailed => ⟨fun hgood hm => ?_, fun hgood => ?_⟩⟩
  · have hexec : exec (.mainPowerGood mv trained) s = execMainPowerGood mv trained s := rfl
    have hruns (hok : s.tray.mainSwitch = true ∧ s.tray.presence = .asserted ∧ s.tray.mainGood = false ∧ 44000 ≤ mv) : exec (.mainPowerGood mv trained) s = .next (bootDo s trained) :=
      hexec.trans (if_pos (by simpa using hok))
    have hiff := bootPassed_iff s trained
    refine ⟨fun hok => ⟨s, hexec.trans (if_neg (by simpa using hok)), rfl⟩, fun hok himg => ?_, fun hok hrma => ?_, fun hok hbad => ?_, fun hok htrained => ?_, fun hok => ?_,
      fun hok hlife hstrap htrained => ?_⟩
    · obtain ⟨hfail, hready, -, hroot, -⟩ := bootDo_stops fun hp => absurd ((hiff.mp hp).2.2.2 0 (by decide)) fun ⟨i, hi, _⟩ => by rw [himg] at hi; cases hi
      exact ⟨_, hruns hok, hfail, hroot (.inr himg), hready⟩
    · obtain ⟨hfail, hready, -, hroot, -⟩ := bootDo_stops fun hp => (hiff.mp hp).1 hrma
      exact ⟨_, hruns hok, hfail, hroot (.inl hrma), hready⟩
    · obtain ⟨hfail, hready, hpcie, -, hpav⟩ := bootDo_stops fun hp => absurd ((hiff.mp hp).2.1.symm.trans hbad) (by decide)
      exact ⟨_, hruns hok, hfail, hpav hbad, hpcie, hready⟩
    · obtain ⟨hfail, hready, hpcie, -⟩ := bootDo_stops fun hp => htrained (hiff.mp hp).2.2.1
      exact ⟨_, hruns hok, hfail, hpcie, hready⟩
    · refine ⟨_, hruns hok, fun himages => ?_⟩
      obtain ⟨hfail, hready, hpcie, -⟩ := bootDo_stops fun hp => himages (hiff.mp hp).2.2.2
      exact ⟨hfail, hpcie, hready⟩
    · exact ⟨_, hruns hok, fun himages => bootDo_boots (hiff.mpr ⟨hlife, hstrap, htrained, himages⟩)⟩
  · obtain ⟨m, hmem, hcomp⟩ := hm
    have hany : s.tray.measurements.any (fun m => m.comp == c.val) = true := List.any_eq_true.mpr ⟨m, hmem, by simp [hcomp]⟩
    exact ⟨_, if_pos ⟨hgood, hany⟩, declareFailed_failed _ hfailed⟩
  · exact ⟨_, if_neg (by simp [hgood]), rfl⟩

end Sys2Proof.Machine
end

section
/-! SUPPORT. O51: loss of input, presence and voltage, and the drain (R384, R450, R506, R522 to R530). -/

namespace Sys2Proof.Machine

open Sys2Proof Sys2Proof.Claims

/-- Nothing is left of a tray without power but fuses, images, time and contacts (R506, R526). -/
def PowerGone (s t : State) : Prop :=
  t.fuses = s.fuses ∧ t.flash.images = s.flash.images ∧ t.clk.now = s.clk.now ∧ t.tray.mainSwitch = false ∧ t.tray.mainGood = false
  ∧ t.tray.quadOn = 0 ∧ t.tray.dieOn = 0 ∧ t.tray.ready = false ∧ t.tray.hub.hubCommon = false ∧ t.mem = {} ∧ t.car = {} ∧ t.cores = [] ∧ t.pcie = {}

/-- No slot holds a key, and no ephemeral pair is left (R450, R529). -/
def NoKeys (t : State) : Prop := (∀ x, x ∈ t.gate.slots → x.2.curKey = none ∧ x.2.old = none ∧ x.2.next = none) ∧ t.gate.ephem = []

theorem powerLost_gone (s : State) : PowerGone s (powerLost s) := ⟨rfl, rfl, rfl, rfl, rfl, rfl, rfl, rfl, rfl, rfl, rfl, rfl, rfl⟩

theorem keysZero_noKeys (s : State) : NoKeys (keysZero s) := by
  refine ⟨fun x hx => ?_, rfl⟩
  obtain ⟨y, -, rfl⟩ := List.mem_map.mp hx
  exact ⟨rfl, rfl, rfl⟩

theorem overVoltage_runs (s : State) : Runs .overVoltage s fun t =>
    PowerGone s t ∧ t.tray.failed = true ∧ t.pair.role = .failed ∧ t.gate = { s.gate with sweeps := [] } := by
  refine ⟨_, rfl, ?_⟩
  have hfail := declareFailed_failOnly s { cls := 5, block := 10 }
  have hfailed : (declareFailed s { cls := 5, block := 10 }).tray.failed = true := by
    by_cases h : s.tray.failed = true
    · rw [declareFailed, if_pos h]
      exact h
    · exact (declareFailed_failed _ (Bool.eq_false_iff.mpr h)).1
  generalize declareFailed s { cls := 5, block := 10 } = u at *
  have hstays : u.fuses = s.fuses ∧ u.flash.images = s.flash.images ∧ u.clk.now = s.clk.now ∧ u.gate = s.gate := by
    rw [hfail.1]
    exact ⟨rfl, rfl, rfl, rfl⟩
  obtain ⟨hfuses, himages, hnow, hgate⟩ := hstays
  refine ⟨⟨hfuses, himages, hnow, rfl, rfl, rfl, rfl, rfl, rfl, rfl, rfl, rfl, rfl⟩, hfailed, rfl, ?_⟩
  rw [← hgate]
  rfl

/-! ### Drain requests and the lever (R450, R528 to R530) -/

/-- The drain has ended: keys are zeroized, and the tray waits in DEEP_SLEEP. -/
def Drained (t : State) : Prop := t.tray.drain = .completed ∧ t.tray.clockState = .deepSleep ∧ t.tray.leverOpen = true ∧ NoKeys t

/-- The lever is open. -/
def leverOpened (s : State) : State := { s with tray := { s.tray with leverOpen := true } }

/-- A drain has begun. -/
def drainBegun (s : State) : State := { s with tray := { s.tray with leverOpen := true, drain := .inProgress, drainAt := s.clk.now } }

theorem drainDone_drained {s : State} (h : s.tray.leverOpen = true) : Drained (drainDone s) ∧ (drainDone s).out = .drainReported :: s.out :=
  ⟨⟨rfl, rfl, h, keysZero_noKeys s⟩, rfl⟩

section
variable {s : State} (hupd : s.upd.st ≠ .activating)
include hupd

theorem drainRequest_again (hdrain : s.tray.drain ≠ .none) : Runs .drainRequest s fun t => t = leverOpened s := by
  have hstop : activationStop (leverOpened s) = leverOpened s := if_neg hupd
  refine ⟨_, ?_, rfl⟩
  change execDrainRequest s = _
  unfold execDrainRequest
  rw [show activationStop { s with tray := { s.tray with leverOpen := true } } = leverOpened s from hstop]
  exact if_pos hdrain

variable (hdrain : s.tray.drain = .none)
include hdrain

theorem drainRequest_exec : exec .drainRequest s = (match s.pair.role with
    | .takingOver | .failed => .next (leverOpened s)
    | .standby | .joining => .next (drainStandby (drainBegun s))
    | .rehearsing => .next (drainStandby (coldStandby (drainBegun s)))
    | .active => if s.pair.partnerRole = some .standby ∧ odGet s 0x6400 0 = 1 then .next (snapAsk (drainBegun s)) else .next (drainAlone (drainBegun s))
    | .unpaired | .follower => .next (drainAlone (drainBegun s))) := by
  have hstop : activationStop (leverOpened s) = leverOpened s := if_neg hupd
  change execDrainRequest s = _
  unfold execDrainRequest
  rw [show activationStop { s with tray := { s.tray with leverOpen := true } } = leverOpened s from hstop]
  exact if_neg (not_not.mpr hdrain)

theorem drainRequest_alone (hrole : s.pair.role = .unpaired ∨ s.pair.role = .follower) : exec .drainRequest s = .next (drainAlone (drainBegun s)) := by
  rw [drainRequest_exec hupd hdrain]
  rcases hrole with h | h <;> rw [h]

theorem drainRequest_runs :
    (s.pair.role = .unpaired ∨ s.pair.role = .follower → s.car.steps = [] → Runs .drainRequest s fun t => Drained t ∧ t.out = .drainReported :: s.out)
    ∧ (s.pair.role = .unpaired ∨ s.pair.role = .follower → s.car.steps ≠ [] → Runs .drainRequest s fun t => t = drainBegun s)
    ∧ (s.pair.role = .standby → Runs .drainRequest s fun t => Drained t ∧ t.out.head? = some .noPartner ∧ ∀ q : Fin 16, t.tray.quadOn.getLsbD q.val = false)
    ∧ (s.pair.role = .active → s.pair.partnerRole = some .standby → odGet s 0x6400 0 = 1 → Runs .drainRequest s fun t =>
        t = { s with tray := { s.tray with leverOpen := true, drain := .inProgress, drainAt := s.clk.now }, pair := { s.pair with cutDue := true } }) := by
  refine ⟨fun hrole hsteps => ?_, fun hrole hsteps => ⟨_, drainRequest_alone hupd hdrain hrole, if_neg hsteps⟩, fun hrole => ?_,
    fun hrole hpartner hmode => ?_⟩
  · have hdone : drainAlone (drainBegun s) = drainDone (drainBegun s) := if_pos hsteps
    exact ⟨drainDone (drainBegun s), (drainRequest_alone hupd hdrain hrole).trans (congrArg Host.Outcome.next hdone), drainDone_drained (s := drainBegun s) rfl⟩
  · have hexec : exec .drainRequest s = .next (drainStandby (drainBegun s)) := by rw [drainRequest_exec hupd hdrain, hrole]
    refine ⟨_, hexec, ?_⟩
    have hoff := quadsOff_workOnly (drainBegun s) (bitsOf 16 (drainBegun s).tray.quadOn.toNat)
    have hquads (q : Fin 16) : (quadsOff (drainBegun s) (bitsOf 16 (drainBegun s).tray.quadOn.toNat)).tray.quadOn.getLsbD q.val = false := by
      by_cases hon : (drainBegun s).tray.quadOn.getLsbD q.val = true
      · exact quadsOff_off _ (mem_bitsOf.mpr ⟨q.isLt, hon⟩)
      · exact hoff.quad_off (Bool.eq_false_iff.mpr hon)
    have hlever : (quadsOff (drainBegun s) (bitsOf 16 (drainBegun s).tray.quadOn.toNat)).tray.leverOpen = true := by rw [hoff.1]; rfl
    unfold drainStandby
    generalize quadsOff (drainBegun s) (bitsOf 16 (drainBegun s).tray.quadOn.toNat) = u at *
    exact ⟨(drainDone_drained hlever).1, rfl, hquads⟩
  · refine ⟨_, (drainRequest_exec hupd hdrain).trans ?_, rfl⟩
    rw [hrole]
    exact if_pos ⟨hpartner, hmode⟩

end

theorem leverClose_runs (s : State) :
    (s.tray.drain = .inProgress → s.pair.yielded = false → Runs .leverClose s fun t => t = { s with tray := { s.tray with leverOpen := false, drain := .none } })
    ∧ (s.tray.drain ≠ .inProgress ∨ s.pair.yielded = true → Runs .leverClose s fun t => t = { s with tray := { s.tray with leverOpen := false } }) := by
  refine ⟨fun hdrain hyield => ⟨_, if_pos ⟨hdrain, by simp [hyield]⟩, rfl⟩, fun h => ⟨_, if_neg fun hboth => ?_, rfl⟩⟩
  obtain ⟨hdrain, hyield⟩ := hboth
  rcases h with h | h
  · exact h hdrain
  · simp [h] at hyield

/-- Settles O51: each loss of power, and each outcome of a drain request. -/
theorem powerLossAndDrainLeaveNoKeys : Obligations.PowerLossAndDrainLeaveNoKeys := by
  intro s
  obtain ⟨hwithdrawn, hkept⟩ := leverClose_runs s
  exact ⟨⟨_, rfl, powerLost_gone s, keysZero_noKeys _, rfl⟩, ⟨_, rfl, powerLost_gone s, keysZero_noKeys _, rfl, rfl⟩, overVoltage_runs s,
    fun hdrain hupd => drainRequest_again hupd hdrain, fun hdrain hupd => drainRequest_runs hupd hdrain, hwithdrawn, hkept⟩

end Sys2Proof.Machine
end

section
/-! SUPPORT. O24: epochs, frames, page copies, rounds and pools (R215, R218 to R220, R235, R237, R257). -/

namespace Sys2Proof.Machine

open Sys2Proof Sys2Proof.Claims

/-! ### Epochs and frames (R219, R220) -/

theorem epochAdvance_runs (s : State) :
    (s.kv.advanceDue = true → mayAdvance s = true → Runs .epochAdvance s fun t =>
      t = { s with kv := { s.kv with epoch := (s.kv.epoch + 1) % 2 ^ 32, advanceDue := false } })
    ∧ (mayAdvance s = false → Runs .epochAdvance s fun t => t = s) := by
  refine ⟨fun hdue hmay => ⟨_, if_pos (by simp [hdue, hmay]), if_pos hmay⟩, fun hmay => ⟨_, if_neg (by simp [hmay]), rfl⟩⟩

theorem frameGet_frameSet (s : State) (p f : Nat) (x : Frame) : frameGet (frameSet s p f x) p f = x := by
  simp [frameGet, frameSet]

theorem frameGet_frameSet_ne (s : State) {p f g : Nat} (x : Frame) (h : g ≠ f) : frameGet (frameSet s p f x) p g = frameGet s p g := by
  simp [frameGet, frameSet, mgetD_mset_ne _ _ _ h]

/-- A frame may leave QUARANTINE: its DEC_EPOCH, if it has one, has drained (R220). -/
def MayLeave (s : State) (x : Frame) : Prop := x.st = .quarantine ∧ ∀ e, x.decEpoch = some e → drained s e = true

theorem frameRelease_exec {f p : Nat} {s : State} (hp : framePool s f = some p) :
    (MayLeave s (frameGet s p f) → exec (.frameRelease f) s = .next (frameFree s p f))
    ∧ (¬ MayLeave s (frameGet s p f) → exec (.frameRelease f) s = .next s) := by
  change (_ → execFrameRelease f s = _) ∧ (_ → execFrameRelease f s = _)
  unfold execFrameRelease MayLeave
  rw [hp]
  dsimp only
  cases hepoch : (frameGet s p f).decEpoch <;> simp +contextual

/-! ### Page copies (R218) -/

theorem cowCopyComplete_done {p : PartId} {s : State} {rd : Round} {c : CowCopy} {rest : List CowCopy} (hround : mget s.car.rounds p.val = some rd)
    (hcopies : rd.copies = c :: rest) (hst : c.status = some 0) (hlive : live (reqGet s c.handle) = true) (hpart : (reqGet s c.handle).part = p.val)
    (hold : fld (mgetD (reqGet s c.handle).pages c.index 0) 27 0 = c.oldFrame) (hpresent : pgPresent (mgetD (reqGet s c.handle).pages c.index 0) = true) :
    Runs (.cowCopyComplete p 0) s fun t => mget t.car.rounds p.val = some { rd with copies := rest }
      ∧ mget (reqGet t c.handle).pages c.index = some (pageEntry false false c.newFrame ||| (mgetD (reqGet s c.handle).pages c.index 0 &&& 0x20000000))
      ∧ (frameGet t p.val c.oldFrame).ref = (frameGet s p.val c.oldFrame).ref - 1
      ∧ odGet t 0x3026 (p.val + 1) = min (odGet s 0x3026 (p.val + 1) + 1) (2 ^ 64 - 1) ∧ t.mem = s.mem := by
  let u := { s with car := { s.car with rounds := mset s.car.rounds p.val { rd with copies := rest } } }
  let v := reqSet u c.handle { reqGet s c.handle with
    pages := mset (reqGet s c.handle).pages c.index (pageEntry false false c.newFrame ||| (mgetD (reqGet s c.handle).pages c.index 0 &&& 0x20000000)) }
  have hend : copyEnd u p.val c 0 = bump64 (decRef v p.val c.oldFrame) 0x3026 (p.val + 1) := by
    unfold copyEnd
    extract_lets r named
    have hnamed : named = true := by
      simp only [named, r, show reqGet u c.handle = reqGet s c.handle from rfl, hlive, hpart, hold, hpresent, beq_self_eq_true, Bool.and_self]
    rw [if_neg (by simp [hnamed])]
    exact if_pos rfl
  refine ⟨copyEnd u p.val c 0, ?_, ?_⟩
  · change execCowCopyComplete p 0 s = _
    unfold execCowCopyComplete
    rw [hround]
    dsimp only
    rw [hcopies]
    exact if_neg (not_not.mpr hst)
  · rw [hend]
    refine ⟨mget_mset_same .., ?_, congrArg Frame.ref (frameGet_frameSet ..), odGet_bumpBy .., rfl⟩
    exact (congrArg (fun r => mget (Req.pages r) c.index) (reqGet_reqSet ..)).trans (mget_mset_same ..)

theorem cowCopyComplete_other {p : PartId} {s : State} {rd : Round} {c : CowCopy} {rest : List CowCopy} (hround : mget s.car.rounds p.val = some rd)
    (hcopies : rd.copies = c :: rest) {st : DmaStatus} (hst : c.status ≠ some st) : Runs (.cowCopyComplete p st) s fun t => t = s := by
  refine ⟨s, ?_, rfl⟩
  change execCowCopyComplete p st s = _
  unfold execCowCopyComplete
  rw [hround]
  dsimp only
  rw [hcopies]
  exact if_pos hst

/-! ### Sequences that waited (R235) -/

theorem waitingPageResume_exec {p : PartId} {h : Nat} {r : Req} {rest : List (Nat × Req)} {s : State} (hrun : stepRunning s p.val = false)
    (hfirst : sortBy waitingLt ((liveReqs s p.val).filter fun x => x.2.st == .waitingPage) = (h, r) :: rest) :
    exec (.waitingPageResume p) s =
      if covers s p.val (needOf s p.val (newPages s r (nextUnits s r) ++ copiesFor s r (nextUnits s r))) false then .next (reqSet s h { r with st := .decode })
      else .next s := by
  change execWaitingPageResume p s = _
  unfold execWaitingPageResume
  rw [if_neg (by simp [hrun])]
  dsimp only
  rw [hfirst]

/-! ### The start of a round (R257) -/

/-- The partition has a round, with the same requests in it. -/
def SameRound (p : Nat) (s t : State) : Prop := ∀ rd, mget s.car.rounds p = some rd → ∃ rd', mget t.car.rounds p = some rd' ∧ rd'.included = rd.included

theorem SameRound.refl (p : Nat) (s : State) : SameRound p s s := fun rd h => ⟨rd, h, rfl⟩

theorem SameRound.trans {p : Nat} {s t u : State} (h : SameRound p s t) (k : SameRound p t u) : SameRound p s u := fun rd hrd => by
  obtain ⟨rd₁, hrd₁, heq₁⟩ := h rd hrd
  obtain ⟨rd₂, hrd₂, heq₂⟩ := k rd₁ hrd₁
  exact ⟨rd₂, hrd₂, heq₂.trans heq₁⟩

theorem SameRound.each {α : Type} {p : Nat} {f : State → α → State} (hf : ∀ s x, SameRound p s (f s x)) (l : List α) (s : State) :
    SameRound p s (Machine.each l f s) :=
  each_rel (R := SameRound p) (f := f) (.refl p) .trans hf l s

theorem sameRound_of_rounds {p : Nat} {s t : State} (h : t.car.rounds = s.car.rounds) : SameRound p s t := fun rd hrd => ⟨rd, by rw [h, hrd], rfl⟩

theorem PageOnly.sameRound {s t : State} (h : PageOnly s t) (p : Nat) : SameRound p s t := sameRound_of_rounds (by rw [h])

/-- A change of a round, of this partition or another, that keeps its requests. -/
theorem sameRound_mupd {p q : Nat} {f : Round → Round} {s t : State} (h : t.car.rounds = mupd s.car.rounds q {} f) (hf : ∀ y, (f y).included = y.included) :
    SameRound p s t := by
  intro rd hrd
  rw [h, mupd, mget_mset]
  split
  · next hq =>
    subst hq
    exact ⟨_, rfl, by rw [hf, mgetD, hrd]; rfl⟩
  · exact ⟨rd, hrd, rfl⟩

theorem startCopy_sameRound (p : Nat) (s : State) (h : Nat) (x : Nat × Nat) : SameRound p s (startCopy s h x) := by
  unfold startCopy
  extract_lets r d
  split
  · exact .refl p s
  · next f t ht =>
    have hframe := (takeFrame_pageOnly ht).sameRound p
    exact hframe.trans (sameRound_mupd (f := fun y => { y with copies := y.copies ++ [_] }) rfl fun _ => rfl)

theorem startCopies_sameRound (p room : Nat) (s : State) (h : Nat) : SameRound p s (startCopies room s h).2 := by
  unfold startCopies
  extract_lets r l g
  have hgrow : SameRound p s g.2 := (grow_pageOnly s h l).sameRound p
  split
  · exact .refl p s
  · split
    · exact hgrow.trans (.each (fun s x => startCopy_sameRound p s h x) _ _)
    · exact hgrow.trans (sameRound_mupd (f := fun y => { y with due := y.due ++ [h] }) rfl fun _ => rfl)
    · exact hgrow.trans ((enterWaiting_pageOnly ..).sameRound p)

theorem serviceCopies_sameRound (p : Nat) (s : State) (q k : Nat) (hs : List Nat) : SameRound p s (serviceCopies s q k hs) := by
  unfold serviceCopies
  split
  · exact .refl p s
  · dsimp only
    exact foldl_snd_rel (R := SameRound p) (.refl p) .trans (f := fun acc (x : Nat × Req) => startCopies acc.1 acc.2 x.1)
      (fun x a => startCopies_sameRound p x.1 x.2 a.1) _ (_, s)

theorem roundStart_includes {p : PartId} {s : State} (hnone : mget s.car.rounds p.val = none) (hrun : stepRunning s p.val = false) (hok : roundsOk s p.val = true)
    (hrole : s.pair.role ≠ .follower)
    (hshown : ∃ x, x ∈ liveReqs s p.val ∧ x.2.st ≠ .draining ∧ x.2.classE = false ∧ ringHeld s (p.val + 1) x.2.cring = false) :
    Runs (.roundStart p) s fun t => ∃ rd, mget t.car.rounds p.val = some rd
      ∧ ∀ x, x ∈ liveReqs s p.val ∧ x.2.st ≠ .draining ∧ x.2.classE = false ∧ ringHeld s (p.val + 1) x.2.cring = false → x.1 ∈ rd.included := by
  change ∃ t, execRoundStart p s = _ ∧ _
  unfold execRoundStart
  rw [if_neg (by simp [hnone, hrun, hok]), if_neg hrole]
  extract_lets l shown g allG busy es micros vps all inE inc s₁ s₂ ks c rd _ s₃
  have hin : ∀ x, x ∈ liveReqs s p.val ∧ x.2.st ≠ .draining ∧ x.2.classE = false ∧ ringHeld s (p.val + 1) x.2.cring = false → x.1 ∈ inc := by
    rintro x ⟨hlive, hst, hclass, hring⟩
    refine List.mem_append_left _ (List.mem_map_of_mem (List.mem_filter.mpr ⟨List.mem_filter.mpr ⟨List.mem_filter.mpr ⟨hlive, ?_⟩, ?_⟩, ?_⟩))
    · simpa using hst
    · simp [hring]
    · simp [hclass]
  have hne : inc ≠ [] := by
    obtain ⟨x, hx⟩ := hshown
    exact List.ne_nil_of_mem (hin x hx)
  rw [if_neg hne]
  have hround : mget s₃.car.rounds p.val = some rd := mget_mset_same ..
  have hinc : rd.included = inc := rfl
  clear_value s₃ rd
  obtain ⟨rd', hrd', hsame⟩ := SameRound.each (f := fun s k => serviceCopies s p.val k inc) (fun s k => serviceCopies_sameRound p.val s p.val k inc) ks s₃ rd hround
  exact ⟨_, rfl, rd', hrd', fun x hx => hsame ▸ hinc ▸ hin x hx⟩

theorem framesEpochsAndRoundsAdvance : Claims.FramesEpochsAndRoundsAdvance := by
  refine ⟨epochAdvance_runs, fun f p s hp => ⟨fun hready => ⟨_, (frameRelease_exec hp).1 hready, ?_⟩, fun hnot => ⟨s, (frameRelease_exec hp).2 hnot, rfl⟩⟩,
    fun p s rd c rest hround hcopies => ⟨fun st hst => cowCopyComplete_other hround hcopies hst, cowCopyComplete_done hround hcopies⟩,
    fun p h r rest s hrun hfirst => ?_, fun p s hnone hrun hok hrole => roundStart_includes hnone hrun hok hrole⟩
  · exact ⟨frameGet_frameSet .., fun g hg => frameGet_frameSet_ne s _ hg, rfl⟩
  · have hexec := waitingPageResume_exec hrun hfirst
    exact ⟨fun hfits => ⟨_, hexec.trans (if_pos hfits), mget_mset_same .., rfl⟩, fun hfits => ⟨_, hexec.trans (if_neg (Bool.eq_false_iff.mp hfits)), rfl⟩⟩

/-! ### Pools (R215, R237) -/

theorem GranulesOnly.each {α : Type} {f : State → α → State} (hf : ∀ s x, GranulesOnly s (f s x)) (l : List α) (s : State) : GranulesOnly s (Machine.each l f s) :=
  each_rel (R := GranulesOnly) (f := f) .refl .trans hf l s

theorem extentMark_granulesOnly (s : State) (p : Nat) (exp : Option Nat) (e : Extent) : GranulesOnly s (extentMark s p exp e) := by
  unfold extentMark
  extract_lets m
  exact .each (fun s gi => by
    dsimp only
    exact granSet_granulesOnly ..) _ _

/-- A pool has been raised: it keeps its frames and its extents, and nothing of the rest of the tray but granules differs. -/
def Raised (p : Nat) (s t : State) : Prop :=
  t = { s with mem := { s.mem with granules := t.mem.granules }, kv := { s.kv with pools := t.kv.pools } }
  ∧ (poolGet t p).frames = (poolGet s p).frames ∧ ∃ more, (poolGet t p).extents = (poolGet s p).extents ++ more

theorem Raised.refl (p : Nat) (s : State) : Raised p s s := ⟨rfl, rfl, [], (List.append_nil _).symm⟩

theorem Raised.trans {p : Nat} {s t u : State} (h : Raised p s t) (k : Raised p t u) : Raised p s u := by
  obtain ⟨hst, hframes, more, hmore⟩ := h
  obtain ⟨ktu, kframes, next, knext⟩ := k
  refine ⟨?_, kframes.trans hframes, more ++ next, by rw [knext, hmore, List.append_assoc]⟩
  rw [ktu, hst]

/-- The pool gains an extent on one die. -/
def raiseDie (p v : Nat) (s : State) (d : Nat) : State :=
  let x := poolGet s p
  let gain := (freeGranules s d).take (poolDiv s p v d - (poolHeld x d).length)
  if gain = [] then s
  else
    let e : Extent := { die := d, granules := gain }
    let s := extentMark s p x.pageExp e
    let n := match x.pageExp with | some n => extentRecs n gain.length | none => 0
    poolSet s p { x with extents := x.extents ++ [e], recCount := x.recCount + n }

theorem raiseDie_raised (p v : Nat) (s : State) (d : Nat) : Raised p s (raiseDie p v s d) := by
  unfold raiseDie
  extract_lets x gain e s₁ n
  have hmark : GranulesOnly s s₁ := extentMark_granulesOnly ..
  clear_value s₁ n
  split
  · exact .refl p s
  · refine ⟨?_, by rw [poolGet_poolSet], [e], by rw [poolGet_poolSet]⟩
    rw [hmark]
    rfl

theorem poolRaise_raised (s : State) (p v : Nat) : Raised p s (poolRaise s p v) :=
  each_rel (R := Raised p) (f := raiseDie p v) (.refl p) .trans (raiseDie_raised p v) (List.range 4) s

theorem poolLayout_spec (s : State) (p v : Nat) (exp : Option Nat) :
    (poolGet (poolLayout s p v exp) p).relayout = false ∧ (poolGet (poolLayout s p v exp) p).pageExp = exp ∧ (poolGet (poolLayout s p v exp) p).recs = []
    ∧ (∀ q, q ≠ p → poolGet (poolLayout s p v exp) q = poolGet s q) ∧ (poolLayout s p v exp).car = s.car := by
  unfold poolLayout
  extract_lets x
  generalize hy : List.foldl _ ([], s) (List.range 4) = y
  have hgran : GranulesOnly s y.2 := by
    rw [← hy]
    refine foldl_snd_rel (R := GranulesOnly) .refl .trans (fun a d => ?_) (List.range 4) ([], s)
    exact GranulesOnly.trans (.each (fun s g => granSet_granulesOnly ..) _ _) (extentMark_granulesOnly ..)
  clear hy
  obtain ⟨exts, u⟩ := y
  dsimp only at *
  refine ⟨by rw [poolGet_poolSet], by rw [poolGet_poolSet], by rw [poolGet_poolSet], fun q hq => ?_, ?_⟩
  · rw [poolGet_poolSet_ne _ _ hq, hgran]
    rfl
  · rw [show (poolSet u p _).car = u.car from rfl, hgran]

/-- What a written pool size does (R215, R237). -/
def poolEffect (p old w : Nat) (s : State) : State :=
  if w > old then poolRaise s p w
  else if w < old then poolSet s p { poolGet s p with relayout := true }
  else s

/-- A pool whose size is written keeps its frames; it grows at once, and waits to shrink. -/
def PoolWritten (p old w : Nat) (s t : State) : Prop :=
  odGet t 0x3020 (p + 1) = w ∧ (poolGet t p).frames = (poolGet s p).frames
  ∧ (w = old → t.kv = s.kv ∧ t.mem = s.mem)
  ∧ (w < old → poolGet t p = { poolGet s p with relayout := true } ∧ t.mem = s.mem)
  ∧ (old < w → ∃ more, (poolGet t p).extents = (poolGet s p).extents ++ more)

theorem poolEffect_written (p old w : Nat) (s : State) (hval : odGet s 0x3020 (p + 1) = w) : PoolWritten p old w s (poolEffect p old w s) := by
  unfold PoolWritten poolEffect
  rcases Nat.lt_trichotomy w old with hlt | heq | hgt
  · rw [if_neg (by omega), if_pos hlt, poolGet_poolSet]
    exact ⟨hval, rfl, fun h => by omega, fun _ => ⟨rfl, rfl⟩, fun h => by omega⟩
  · rw [if_neg (by omega), if_neg (by omega)]
    exact ⟨hval, rfl, fun _ => ⟨rfl, rfl⟩, fun h => by omega, fun h => by omega⟩
  · obtain ⟨hfield, hframes, hmore⟩ := poolRaise_raised s p w
    rw [if_pos hgt]
    refine ⟨?_, hframes, fun h => by omega, fun h => by omega, fun _ => hmore⟩
    have hpav : (poolRaise s p w).pav = s.pav := by rw [hfield]
    rw [odGet, hpav, ← odGet]
    exact hval

section
variable {rq : DictReq} {p : PartId} {v : List Byte} {s : State} (hmay : MayStore s rq 0x3020 (p.val + 1) v)
include hmay

theorem kvPoolWrite_exec : ∃ bs, exec (.kvPoolWrite rq p v) s =
    .next (dictAnswer (poolEffect p.val (odGet s 0x3020 (p.val + 1)) (poolClamp p.val s (leNat v))
      (dictPut s rq.src 0x3020 (p.val + 1) (leNat v) (poolClamp p.val s (leNat v)))) rq 0 0x3020 (p.val + 1) bs) := by
  obtain ⟨bs, hw⟩ := dictWrite_of_mayStore hmay (poolClamp p.val) fun u w => poolEffect p.val (odGet s 0x3020 (p.val + 1)) w u
  exact ⟨bs, congrArg Host.Outcome.next hw⟩

theorem kvPoolWrite_runs :
    let old := odGet s 0x3020 (p.val + 1)
    let w := poolClamp p.val s (leNat v)
    Runs (.kvPoolWrite rq p v) s fun t => odGet t 0x3020 (p.val + 1) = w ∧ (poolGet t p.val).frames = (poolGet s p.val).frames
      ∧ (w = old → t.kv = s.kv ∧ t.mem = s.mem)
      ∧ (w < old → poolGet t p.val = { poolGet s p.val with relayout := true } ∧ t.mem = s.mem)
      ∧ (old < w → ∃ more, (poolGet t p.val).extents = (poolGet s p.val).extents ++ more) := by
  intro old w
  obtain ⟨bs, hexec⟩ := kvPoolWrite_exec hmay
  have hput := dictPut_dictOnly s rq.src 0x3020 (p.val + 1) (leNat v) w
  have hval : odGet (dictPut s rq.src 0x3020 (p.val + 1) (leNat v) w) 0x3020 (p.val + 1) = w := odGet_dictPut ..
  refine ⟨_, hexec, ?_⟩
  change PoolWritten p.val old w s (dictAnswer (poolEffect p.val old w (dictPut s rq.src 0x3020 (p.val + 1) (leNat v) w)) rq 0 0x3020 (p.val + 1) bs)
  generalize dictPut s rq.src 0x3020 (p.val + 1) (leNat v) w = u at hput hval
  clear_value old w
  have hkv : u.kv = s.kv ∧ u.mem = s.mem := by
    rw [hput]
    exact ⟨rfl, rfl⟩
  obtain ⟨hod, hframes, hsame, hlower, hraise⟩ := poolEffect_written p.val old w u hval
  have hpool : poolGet u p.val = poolGet s p.val := by rw [poolGet, hkv.1, ← poolGet]
  rw [hkv.1, hkv.2] at hsame
  rw [hpool] at hframes hlower hraise
  rw [hkv.2] at hlower
  generalize poolEffect p.val old w u = x at *
  rw [PoolWritten, odGet_dictAnswer, dictAnswer_dictOnly x]
  exact ⟨hod, hframes, hsame, hlower, hraise⟩

end

theorem poolRelayout_exec (p : PartId) (s : State) : exec (.poolRelayout p) s =
    if (poolGet s p.val).relayout && poolIdle (poolGet s p.val) then .next (poolLayout s p.val (odGet s 0x3020 (p.val + 1)) (poolGet s p.val).pageExp) else .next s := rfl

/-- Settles O24: epochs, frames, copies, waiting sequences, rounds and pools, each by its command's equation. -/
theorem framesEpochsRoundsAndPoolsChange : Obligations.FramesEpochsRoundsAndPoolsChange := by
  refine ⟨framesEpochsAndRoundsAdvance, fun p s => ⟨fun rq v hmay => kvPoolWrite_runs hmay, fun hre hidle => ?_, fun hidle => ?_⟩⟩
  · exact ⟨_, (poolRelayout_exec p s).trans (if_pos (by simp [hre, hidle])), poolLayout_spec ..⟩
  · exact ⟨s, (poolRelayout_exec p s).trans (if_neg (by simp [hidle])), rfl⟩

end Sys2Proof.Machine
end

section
/-! SUPPORT. O29: flits accepted, replayed and sent as credits allow, and a port that goes down (R319 to R322, R325). -/

namespace Sys2Proof.Machine

open Sys2Proof Sys2Proof.Claims

/-! ### What waits at a port (R321) -/

theorem portUp_portSet {s : State} {p : Nat} {x : Port} (hup : portUp s p = true) (henabled : x.enabled = (portGet s p).enabled) (hst : x.st = (portGet s p).st) :
    portUp (portSet s p x) p = true := by
  rw [portUp, portOn, portGet_portSet, henabled, hst]
  exact hup

/-- Nothing waits, so nothing is to be sent next. -/
theorem vcNext_idle (s : State) {x : Port} (h : x.txq = []) : vcNext s x = none := by
  simp [vcNext, h, nodup]

/-- One payload waits, with credits of its virtual channel: it is sent next. -/
theorem vcNext_single (s : State) {x : Port} {vc q : Nat} {b : List Byte} (hvc : vc = 1 ∨ vc = 2) (h : x.txq = [(vc, q, b)]) (hcredit : mgetD x.credits vc 0 ≠ 0) :
    vcNext s x = some (vc, q) := by
  rcases hvc with rfl | rfl
  · simp [vcNext, h, nodup, hcredit]
  · simp [vcNext, h, nodup, hcredit]

theorem linkDrain_idle {s : State} {p : Nat} (h : (portGet s p).txq = []) (n : Nat) : linkDrain s p n = s := by
  cases n with
  | zero => rfl
  | succ n =>
    rw [linkDrain]
    dsimp only
    split
    · rfl
    · rw [vcNext_idle s h]

/-- The state in which a port has sent the one payload that waited. -/
def flitSent (s : State) (p : Fin 2) (vc q : Nat) (b : List Byte) : State :=
  let x := portGet s p.val
  let f := flitMake b x.txSeq (x.rxExpect + 4095) x.rxAny vc
  emit (portSet s p.val { x with
    txq := [], unacked := x.unacked ++ [(x.txSeq, f, 0)], txSeq := (x.txSeq + 1) % 4096
    credits := mset x.credits vc (mgetD x.credits vc 0 - 1)
    served := mset x.served (64 * vc + q) (mgetD x.served (64 * vc + q) 0 + 1) }) (.flit p x.txSeq f)

theorem flitSent_spec (s : State) (p : Fin 2) (vc q : Nat) (b : List Byte) :
    (flitSent s p vc q b).out = .flit p (portGet s p.val).txSeq (flitMake b (portGet s p.val).txSeq ((portGet s p.val).rxExpect + 4095) (portGet s p.val).rxAny vc) :: s.out
    ∧ portGet (flitSent s p vc q b) p.val = { portGet s p.val with
      txq := []
      unacked := (portGet s p.val).unacked ++ [((portGet s p.val).txSeq, flitMake b (portGet s p.val).txSeq ((portGet s p.val).rxExpect + 4095) (portGet s p.val).rxAny vc, 0)]
      txSeq := ((portGet s p.val).txSeq + 1) % 4096
      credits := mset (portGet s p.val).credits vc (mgetD (portGet s p.val).credits vc 0 - 1)
      served := mset (portGet s p.val).served (64 * vc + q) (mgetD (portGet s p.val).served (64 * vc + q) 0 + 1) } :=
  ⟨rfl, portGet_portSet ..⟩

theorem linkDrain_single {s : State} {p : Fin 2} {vc q : Nat} {b : List Byte} (hup : portUp s p.val = true) (hroom : (portGet s p.val).unacked.length < 512)
    (hseq : (portGet s p.val).txSeq < 4096) (hvc : vc = 1 ∨ vc = 2) (hq : (portGet s p.val).txq = [(vc, q, b)]) (hcredit : mgetD (portGet s p.val).credits vc 0 ≠ 0)
    (n : Nat) : linkDrain s p.val (n + 1) = flitSent s p vc q b := by
  have htake : txTake vc q (portGet s p.val).txq = some (b, []) := by rw [hq, txTake, if_pos ⟨rfl, rfl⟩]
  have hport : (⟨p.val % 2, Nat.mod_lt _ (by decide)⟩ : Fin 2) = p := Fin.ext (Nat.mod_eq_of_lt p.isLt)
  have hmod : (((portGet s p.val).txSeq + 1) % 4096 + 4095) % 4096 = (portGet s p.val).txSeq := by omega
  rw [linkDrain]
  dsimp only
  rw [if_neg (by simp [hup]; omega), vcNext_single s hvc hq hcredit]
  dsimp only
  rw [htake]
  dsimp only
  rw [hmod, hport]
  refine (linkDrain_idle ?_ n).trans rfl
  rw [portGet_emit, portGet_portSet]

/-- Sending changes nothing of what a port has received. -/
theorem linkDrain_rx (s : State) (p q n : Nat) : (portGet (linkDrain s q n) p).rxExpect = (portGet s p).rxExpect ∧ (portGet (linkDrain s q n) p).rxAny = (portGet s p).rxAny := by
  induction n generalizing s with
  | zero => exact ⟨rfl, rfl⟩
  | succ n ih =>
    unfold linkDrain
    extract_lets x
    split
    · exact ⟨rfl, rfl⟩
    · split
      · exact ⟨rfl, rfl⟩
      · split
        · exact ⟨rfl, rfl⟩
        · obtain ⟨hexpect, hany⟩ := ih _
          rw [hexpect, hany, portGet_emit]
          by_cases hq : p = q
          · subst hq
            rw [portGet_portSet]
            exact ⟨rfl, rfl⟩
          · rw [portGet_portSet_ne _ _ hq]
            exact ⟨rfl, rfl⟩

/-! ### Flits received (R319 to R321) -/

/-- A port with room granted for more flits of a virtual channel. -/
def portCredited (x : Port) (vc n : Nat) : Port := { x with credits := mset x.credits vc (mgetD x.credits vc 0 + n) }

/-- The port after a flit in order. -/
def portAccepted (x : Port) (flit : BitVec 2048) : Port :=
  { x with rxExpect := (x.rxExpect + 1) % 4096, rxAny := true
           unacked := if bit flit 2023 then flitAck x.unacked (fld flit 2035 2024) else x.unacked }

/-- A flit is good: intact, and the next in order (R320). -/
def FlitGood (s : State) (p : Fin 2) (flit : BitVec 2048) : Prop := fld flit 2015 1984 = flitCrc flit ∧ fld flit 2047 2036 = (portGet s p.val).rxExpect

/-- What a flit in order is answered with: its room, granted again (R321). -/
def roomAgain (p : Fin 2) (flit : BitVec 2048) : List Output :=
  if fld flit 2022 2021 = 1 ∨ fld flit 2022 2021 = 2 then [.credit p (fld flit 2022 2021) 1] else []

theorem creditGrant_out (s : State) (p : Fin 2) (flit : BitVec 2048) :
    (creditGrant s p (fld flit 2022 2021) 1).out = roomAgain p flit ++ s.out ∧ (creditGrant s p (fld flit 2022 2021) 1).trl = s.trl
    ∧ (creditGrant s p (fld flit 2022 2021) 1).mem = s.mem ∧ (creditGrant s p (fld flit 2022 2021) 1).pav = s.pav := by
  unfold creditGrant roomAgain
  split
  · exact ⟨rfl, rfl, rfl, rfl⟩
  · exact ⟨rfl, rfl, rfl, rfl⟩

section
variable {p : Fin 2} {s : State} (hup : portUp s p.val = true)
include hup

theorem creditControlBlock_exec {vc : Fin 3} (hvc : vc ≠ 0) (n : Nat) : exec (.creditControlBlock p vc n) s =
    .next (linkDrain (portSet s p.val (portCredited (portGet s p.val) vc.val n)) p.val 512) := by
  have hne : (vc.val == 0) = false := beq_false_of_ne fun h => hvc (Fin.ext h)
  exact if_neg (by simp [hup, hne])

theorem creditControlBlock_runs (vc : Fin 3) (n : Nat) (hvc : vc ≠ 0) :
    ((portGet s p.val).txq = [] → Runs (.creditControlBlock p vc n) s fun t =>
      mget (portGet t p.val).credits vc.val = some (mgetD (portGet s p.val).credits vc.val 0 + n) ∧ t.out = s.out)
    ∧ ∀ q b, (portGet s p.val).txq = [(vc.val, q, b)] → 0 < n → (portGet s p.val).unacked.length < 512 → (portGet s p.val).txSeq < 4096 →
        Runs (.creditControlBlock p vc n) s fun t =>
          t.out = .flit p (portGet s p.val).txSeq (flitMake b (portGet s p.val).txSeq ((portGet s p.val).rxExpect + 4095) (portGet s p.val).rxAny vc.val) :: s.out
          ∧ mget (portGet t p.val).credits vc.val = some (mgetD (portGet s p.val).credits vc.val 0 + n - 1) ∧ (portGet t p.val).txq = [] := by
  have hexec := creditControlBlock_exec hup hvc n
  have hup' : portUp (portSet s p.val (portCredited (portGet s p.val) vc.val n)) p.val = true := portUp_portSet hup rfl rfl
  have hget : portGet (portSet s p.val (portCredited (portGet s p.val) vc.val n)) p.val = portCredited (portGet s p.val) vc.val n := portGet_portSet ..
  have hout : (portSet s p.val (portCredited (portGet s p.val) vc.val n)).out = s.out := rfl
  have hcredit : mgetD (portCredited (portGet s p.val) vc.val n).credits vc.val 0 = mgetD (portGet s p.val).credits vc.val 0 + n := mgetD_mset_same ..
  have hone : vc.val = 1 ∨ vc.val = 2 := by
    have h₀ : vc.val ≠ 0 := fun h => hvc (Fin.ext h)
    omega
  generalize portSet s p.val (portCredited (portGet s p.val) vc.val n) = u at *
  refine ⟨fun hidle => ⟨u, hexec.trans (congrArg Host.Outcome.next (linkDrain_idle (by rw [hget]; exact hidle) 512)), ?_⟩, fun q b hq hn hroom hseq => ?_⟩
  · exact ⟨(congrArg (fun x => mget (Port.credits x) vc.val) hget).trans (mget_mset_same ..), hout⟩
  · have hsent := linkDrain_single (n := 511) (q := q) (b := b) hup' (by rw [hget]; exact hroom) (by rw [hget]; exact hseq) hone (by rw [hget]; exact hq)
      (by rw [hget, hcredit]; omega)
    refine ⟨_, hexec.trans (congrArg Host.Outcome.next hsent), ?_⟩
    obtain ⟨htold, hport⟩ := flitSent_spec u p vc.val q b
    rw [htold, hport, hget, hout]
    exact ⟨rfl, (mget_mset_same ..).trans (congrArg (fun k => some (k - 1)) hcredit), rfl⟩

theorem flitReceive_exec (flit : BitVec 2048) :
    (FlitGood s p flit → exec (.flitReceive p flit ⟨false, 0⟩ 0) s =
      .next (linkDrain (creditGrant (portSet s p.val (portAccepted (portGet s p.val) flit)) p (fld flit 2022 2021) 1) p.val 512))
    ∧ (¬ FlitGood s p flit → exec (.flitReceive p flit ⟨false, 0⟩ 0) s = .next (emit s (.nakBlock p (portGet s p.val).rxExpect))) := by
  change (_ → execFlitReceive p flit ⟨false, 0⟩ 0 s = _) ∧ (_ → execFlitReceive p flit ⟨false, 0⟩ 0 s = _)
  unfold execFlitReceive FlitGood
  rw [if_neg (by simp [hup])]
  simp only [if_true]
  refine ⟨fun hgood => if_neg (by simp [hgood]), fun hbad => if_pos ?_⟩
  simpa [← not_and_or] using hbad

theorem flitReceive_accepts {flit : BitVec 2048} (hgood : FlitGood s p flit) : Runs (.flitReceive p flit ⟨false, 0⟩ 0) s fun t =>
    (portGet t p.val).rxExpect = ((portGet s p.val).rxExpect + 1) % 4096 ∧ (portGet t p.val).rxAny = true ∧ t.mem = s.mem ∧ t.pav = s.pav
    ∧ ((portGet s p.val).txq = [] →
      t.out = (if fld flit 2022 2021 = 1 ∨ fld flit 2022 2021 = 2 then [.credit p (fld flit 2022 2021) 1] else []) ++ s.out
      ∧ (portGet t p.val).unacked = (if bit flit 2023 then flitAck (portGet s p.val).unacked (fld flit 2035 2024) else (portGet s p.val).unacked)) := by
  refine ⟨_, (flitReceive_exec hup flit).1 hgood, ?_⟩
  have hget : portGet (portSet s p.val (portAccepted (portGet s p.val) flit)) p.val = portAccepted (portGet s p.val) flit := portGet_portSet ..
  have hset : (portSet s p.val (portAccepted (portGet s p.val) flit)).out = s.out ∧ (portSet s p.val (portAccepted (portGet s p.val) flit)).mem = s.mem
      ∧ (portSet s p.val (portAccepted (portGet s p.val) flit)).pav = s.pav := ⟨rfl, rfl, rfl⟩
  generalize portSet s p.val (portAccepted (portGet s p.val) flit) = u at *
  obtain ⟨hout, hmem, hpav⟩ := hset
  obtain ⟨kout, ktrl, kmem, kpav⟩ := creditGrant_out u p flit
  have kget : portGet (creditGrant u p (fld flit 2022 2021) 1) p.val = portAccepted (portGet s p.val) flit := by rw [portGet, ktrl, ← portGet, hget]
  generalize creditGrant u p (fld flit 2022 2021) 1 = v at *
  have hlink := linkDrain_linkOnly v p.val 512
  obtain ⟨hexpect, hany⟩ := linkDrain_rx v p.val p.val 512
  rw [kget] at hexpect hany
  refine ⟨hexpect, hany, ?_, ?_, fun hidle => ?_⟩
  · rw [hlink]
    exact kmem.trans hmem
  · rw [hlink]
    exact kpav.trans hpav
  · rw [linkDrain_idle (by rw [kget]; exact hidle), kget, kout, hout]
    exact ⟨rfl, rfl⟩

theorem flitReceive_unreadable (flit : BitVec 2048) {n : Nat} (hn : n ≠ 0) : Runs (.flitReceive p flit ⟨true, n⟩ 0) s fun t =>
    t.out = .nakBlock p (portGet s p.val).rxExpect :: s.out ∧ t.trl = s.trl
    ∧ odGet t 0x6002 (p.val + 1) = min (odGet s 0x6002 (p.val + 1) + n) (2 ^ 64 - 1) := by
  change ∃ t, execFlitReceive p flit ⟨true, n⟩ 0 s = _ ∧ _
  unfold execFlitReceive
  rw [if_neg (by simp [hup])]
  simp only [if_true, if_neg hn, Bool.not_true, Bool.false_and, Bool.not_false]
  exact ⟨_, rfl, rfl, rfl, odGet_bumpBy ..⟩

/-! ### Replays (R320) -/

/-- The flits from a number on, each once more in a row. -/
def flitsAgain (x : Port) (n : Nat) : List (Nat × BitVec 2048 × Nat) := (x.unacked.dropWhile fun e => e.1 != n).map fun e => (e.1, e.2.1, e.2.2 + 1)

/-- The port with those flits counted as replayed. -/
def portReplayed (x : Port) (n : Nat) : Port := { x with unacked := (x.unacked.takeWhile fun e => e.1 != n) ++ flitsAgain x n }

theorem flitReplay_exec {n : BitVec 12} (hany : (portGet s p.val).unacked.any (fun e => e.1 == n.toNat) = true) : exec (.flitReplay p n) s =
    if (flitsAgain (portGet s p.val) n.toNat).any fun e => decide (e.2.2 ≥ 16) then
      .next (portLost (bumpBy s 0x6003 (p.val + 1) 64 (flitsAgain (portGet s p.val) n.toNat).length) p.val)
    else .next (each (flitsAgain (portGet s p.val) n.toNat) (fun s e => emit s (.flit p e.1 e.2.1))
      (portSet (bumpBy s 0x6003 (p.val + 1) 64 (flitsAgain (portGet s p.val) n.toNat).length) p.val (portReplayed (portGet s p.val) n.toNat))) :=
  if_neg (by simp only [hup, hany, Bool.not_true, Bool.or_self, Bool.false_eq_true, not_false_eq_true])

theorem flitReplay_runs (n : BitVec 12) (hany : (portGet s p.val).unacked.any (fun e => e.1 == n.toNat) = true) :
    let again := flitsAgain (portGet s p.val) n.toNat
    ((∀ e, e ∈ again → e.2.2 < 16) → Runs (.flitReplay p n) s fun t =>
      (portGet t p.val).unacked = ((portGet s p.val).unacked.takeWhile fun e => e.1 != n.toNat) ++ again
      ∧ t.out = (again.map fun e => .flit p e.1 e.2.1).reverse ++ s.out
      ∧ odGet t 0x6003 (p.val + 1) = min (odGet s 0x6003 (p.val + 1) + again.length) (2 ^ 64 - 1))
    ∧ ((∃ e, e ∈ again ∧ 16 ≤ e.2.2) → Runs (.flitReplay p n) s fun t => (portGet t p.val).st = .down ∧ (portGet t p.val).unacked = []) := by
  intro again
  have hexec := flitReplay_exec hup hany
  refine ⟨fun hfew => ⟨_, hexec.trans (if_neg ?_), ?_⟩, fun hmany => ⟨_, hexec.trans (if_pos ?_), ?_⟩⟩
  · simpa using hfew
  · rw [each_emit]
    exact ⟨congrArg Port.unacked (portGet_portSet ..), rfl, odGet_bumpBy ..⟩
  · simpa using hmany
  · exact ⟨congrArg Port.st (portLost_spec ..).1, congrArg Port.unacked (portLost_spec ..).1⟩

end

/-- Settles O29: the flit received, replayed and sent, by what the port's entry says of it. -/
theorem linkLayerAcceptsReplaysAndCredits : Obligations.LinkLayerAcceptsReplaysAndCredits := by
  intro p s x
  refine ⟨fun hup => ⟨fun flit => ⟨fun hgood => flitReceive_accepts hup hgood, fun hbad => ⟨_, (flitReceive_exec hup flit).2 hbad, rfl⟩,
    fun n hn => flitReceive_unreadable hup flit hn⟩, fun n hany => flitReplay_runs hup n hany, creditControlBlock_runs hup⟩, _, rfl, portLost_spec s p.val⟩

end Sys2Proof.Machine
end

section
/-! SUPPORT. O30: packets received, acknowledged, refused and sent again (R331, R332, R336, R337). -/

namespace Sys2Proof.Machine

open Sys2Proof Sys2Proof.Claims

/-! ### What sending leaves alone -/

/-- At most the ports and what is sent differ. -/
def PortsOnly (s t : State) : Prop := t = { s with trl := { s.trl with ports := t.trl.ports }, out := t.out }

theorem PortsOnly.refl (s : State) : PortsOnly s s := rfl

theorem PortsOnly.trans {s t u : State} (h : PortsOnly s t) (k : PortsOnly t u) : PortsOnly s u := by
  unfold PortsOnly at *
  rw [k, h]

theorem linkDrain_portsOnly (s : State) (p n : Nat) : PortsOnly s (linkDrain s p n) := by
  induction n generalizing s with
  | zero => exact .refl s
  | succ n ih =>
    unfold linkDrain
    dsimp only
    split
    · exact .refl s
    · split
      · exact .refl s
      · split
        · exact .refl s
        · refine PortsOnly.trans ?_ (ih _)
          exact rfl

theorem linksDrain_portsOnly (s : State) : PortsOnly s (linksDrain s) := (linkDrain_portsOnly s 0 512).trans (linkDrain_portsOnly _ 1 512)

theorem pktGo_portsOnly (s : State) (q vc part : Nat) (p : Packet) : PortsOnly s (pktGo s q vc part p) := rfl

/-- At most the ports, the sequence numbers of answers and what is sent differ. -/
def AnswerOnly (s t : State) : Prop := t = { s with trl := { s.trl with ports := t.trl.ports, txAck := t.trl.txAck }, out := t.out }

theorem pktAnswer_answerOnly (s : State) (h : BitVec 256) (key part typ status high : Nat) : AnswerOnly s (pktAnswer s h key part typ status high) := by
  unfold pktAnswer
  extract_lets k seq a _ s₁
  split
  · next q hq =>
    have hgo : PortsOnly s₁ (linksDrain (pktGo s₁ q 1 part (trlSeal key a []))) := (pktGo_portsOnly s₁ q 1 part _).trans (linksDrain_portsOnly _)
    unfold PortsOnly at hgo
    unfold AnswerOnly
    rw [hgo]
  · exact rfl

/-! ### What the first checks make of a packet (R331) -/

/-- The partition of a group of tenants is one of the sixteen. -/
theorem groupOf_part_lt {s : State} {n : Nat} {g : Group} (h : groupOf s n = some g) (hn : n ≠ 63) : g.part < 16 := by
  unfold groupOf at h
  dsimp only at h
  rw [if_neg hn] at h
  split at h
  · obtain rfl := Option.some.inj h
    simp only [nfld_eq, Nat.reduceAdd, Nat.reduceSub, Nat.reducePow]
    omega
  · cases h

section
variable {s : State} {k : Packet} {g : Group}

theorem pktGate_noKey (hver : fld k.header 255 252 = 1) (htype : pkType k.header ≤ 1) (hg : groupOf s (pkGroup k.header) = some g)
    (hsrc : g.mask.getLsbD (pkSrc k.header) = true) (hkey : trlKey s g.slot g.part (pkGen k.header) = none) : pktGate s k = .drop g.part := by
  unfold pktGate
  dsimp only
  rw [if_neg (by omega), hg]
  dsimp only
  rw [if_neg (by simp [hsrc]), hkey]
  rfl

section
variable {key : Nat} (hmeant : PacketMeant s k g key) (htype : pkType k.header ≤ 3)
include hmeant htype

theorem pktGate_tag (hopen : trlOpen key k = none) : pktGate s k = .drop g.part := by
  obtain ⟨hver, hg, hsrc, hkey⟩ := hmeant
  unfold pktGate
  dsimp only
  rw [if_neg (by omega), hg]
  dsimp only
  rw [if_neg (by simp [hsrc]), hkey, Option.bind_some, hopen]
  rfl

theorem pktGate_open {pt : List Byte} (hopen : trlOpen key k = some pt) : pktGate s k =
    if (presetCheck (some (pkSeq k.header)) pt).toNat ≠ fld k.trailer 191 128 then .nak g.part key 4 else .pass g key pt := by
  obtain ⟨hver, hg, hsrc, hkey⟩ := hmeant
  unfold pktGate
  dsimp only
  rw [if_neg (by omega), hg]
  dsimp only
  rw [if_neg (by simp [hsrc]), hkey, Option.bind_some, hopen]
  rfl

/-- What a command makes of a packet meant for a group, by the packet's tag and its check value. -/
theorem runs_verdict {c : Instr} {opens : List Byte → State → Prop} {tagFails checkFails : State → Prop}
    (hpass : ∀ pt, pktGate s k = .pass g key pt → Runs c s (opens pt)) (hdrop : pktGate s k = .drop g.part → Runs c s tagFails)
    (hnak : pktGate s k = .nak g.part key 4 → Runs c s checkFails) :
    Runs c s fun t => Verdict k key (fun pt => opens pt t) (tagFails t) (checkFails t) := by
  unfold Verdict
  cases hopen : trlOpen key k with
  | none => exact hdrop (pktGate_tag hmeant htype hopen)
  | some pt =>
    have hgate := pktGate_open hmeant htype hopen
    dsimp only
    split
    · next hcheck => exact hpass pt (hgate.trans (if_neg (not_not.mpr hcheck)))
    · next hcheck => exact hnak (hgate.trans (if_pos hcheck))

/-- A packet is refused; where its check value fails, that is counted too. -/
def Stopped (s : State) (k : Packet) (g : Group) (checkFails : Prop) (t : State) : Prop :=
  Refuses s t k g ∧ (checkFails → odGet t 0x6805 2 = min (odGet s 0x6805 2 + 1) (2 ^ 32 - 1))

end

/-! ### Packets refused -/

/-- A packet that changed counts, its count of refusals among them, and was answered at most, is refused. -/
theorem refuses_of {u t : State} (hcount : CountsOnly s u) (hanswer : AnswerOnly u t)
    (hrefused : pkGroup k.header ≠ 63 → odGet u 0x6040 (g.part + 1) = min (odGet s 0x6040 (g.part + 1) + 1) (2 ^ 32 - 1)) : Refuses s t k g := by
  have hod : odGet t 0x6040 (g.part + 1) = odGet u 0x6040 (g.part + 1) := by
    rw [odGet, show t.pav = u.pav by rw [hanswer], ← odGet]
  refine ⟨?_, ?_, ?_, ?_, fun h => hod.trans (hrefused h)⟩
  · rw [hanswer, hcount]
  · rw [hanswer, hcount]
  · rw [hanswer, hcount]
  · rw [hanswer, hcount]

theorem refused_countsOnly (s : State) (part : Nat) : CountsOnly s (refused s part) := by
  unfold refused
  split
  · exact bumpBy_countsOnly ..
  · exact .refl s

theorem refused_counts {s : State} {part : Nat} (h : part < 16) : odGet (refused s part) 0x6040 (part + 1) = min (odGet s 0x6040 (part + 1) + 1) (2 ^ 32 - 1) := by
  rw [refused, if_pos h]
  exact odGet_bumpBy ..

variable (hg : groupOf s (pkGroup k.header) = some g)
include hg

theorem refused_refuses : Refuses s (refused s g.part) k g :=
  refuses_of (refused_countsOnly ..) rfl fun hn => refused_counts (groupOf_part_lt hg hn)

theorem pktNak_refuses (key st : Nat) : Refuses s (pktNak s k.header g.part key st) k g :=
  refuses_of (refused_countsOnly ..) (pktAnswer_answerOnly ..) fun hn => refused_counts (groupOf_part_lt hg hn)

/-- A failed check value counts twice: for the partition, and among the mismatches (R432). -/
theorem pktStopped_check (key : Nat) : Refuses s (pktStopped s k.header (.nak g.part key 4)) k g
    ∧ odGet (pktStopped s k.header (.nak g.part key 4)) 0x6805 2 = min (odGet s 0x6805 2 + 1) (2 ^ 32 - 1) := by
  have heq : pktStopped s k.header (.nak g.part key 4) = pktNak (bump32 s 0x6805 2) k.header g.part key 4 := rfl
  have hanswer : AnswerOnly (refused (bump32 s 0x6805 2) g.part) (pktNak (bump32 s 0x6805 2) k.header g.part key 4) := pktAnswer_answerOnly ..
  rw [heq]
  refine ⟨refuses_of ((bumpBy_countsOnly ..).trans (refused_countsOnly ..)) hanswer fun hn => ?_, ?_⟩
  · have hpart := groupOf_part_lt hg hn
    have hother : odGet (bumpBy s 0x6805 2 32 1) 0x6040 (g.part + 1) = odGet s 0x6040 (g.part + 1) := odGet_bumpBy_ne s _ _ (by unfold odKey; omega)
    exact (refused_counts hpart).trans (by rw [hother])
  · rw [odGet, show (pktNak (bump32 s 0x6805 2) k.header g.part key 4).pav = (refused (bump32 s 0x6805 2) g.part).pav by rw [hanswer], ← odGet, refused]
    split
    · rw [bump32, odGet_bumpBy_ne (bump32 s 0x6805 2) _ _ (by unfold odKey; omega)]
      exact odGet_bumpBy ..
    · exact odGet_bumpBy ..

end

/-! ### Writes and posts that land (R331, R332, R336) -/

/-- A packet that is taken is marked in its window, and answered. -/
theorem pktTake_spec (s : State) (h : BitVec 256) (part key : Nat) :
    mget (pktTake s h part key).trl.rx (seqKey (pkSrc h) (pkGroup h) (pkGen h)) = some (rxMark (rxOf s h) (pkSeq h))
    ∧ (pktTake s h part key).mem = s.mem ∧ (pktTake s h part key).sync = s.sync ∧ (pktTake s h part key).trl.cabinet = s.trl.cabinet := by
  unfold pktTake
  extract_lets w _ s₁
  have hset : s₁.trl.rx = mset s.trl.rx (seqKey (pkSrc h) (pkGroup h) (pkGen h)) w ∧ s₁.mem = s.mem ∧ s₁.sync = s.sync ∧ s₁.trl.cabinet = s.trl.cabinet :=
    ⟨rfl, rfl, rfl, rfl⟩
  have hw : w = rxMark (rxOf s h) (pkSeq h) := rfl
  have hanswer := pktAnswer_answerOnly s₁ h key part 2 0 w.high
  clear_value w s₁
  obtain ⟨hrx, hmem, hsync, hcab⟩ := hset
  rw [hanswer, hw.symm]
  exact ⟨(congrArg (fun m => mget m _) hrx).trans (mget_mset_same ..), hmem, hsync, hcab⟩

/-- Bytes that a WRITE lands. -/
def landBytes (h : BitVec 256) : Nat := 32 * fld h 227 220

/-- Where a WRITE lands. -/
def landAt (s : State) (h : BitVec 256) : Nat := (windowOf s (pkGroup h)).1 + fld h 128 81

/-- A WRITE lies in its group's window. -/
def InWindow (s : State) (h : BitVec 256) : Prop := fld h 128 81 + landBytes h ≤ (windowOf s (pkGroup h)).2

/-- The packet posts to a counter. -/
def Posts (h : BitVec 256) : Prop := pkType h = 1 ∨ bit h 219 = true

/-- What a post adds. -/
def postAmount (h : BitVec 256) : W32 := BitVec.ofNat 32 (if pkType h = 0 then fld h 227 220 else fld h 208 193)

/-- The data of a WRITE land, and its post or that of a POST is made. -/
def landed (s : State) (h : BitVec 256) (part : Nat) (pt : List Byte) : State :=
  let s := if pkType h == 0 then partPut s part (landAt s h) (pt.take (landBytes h)) else s
  if pkType h == 1 || bit h 219 then cabPost s part (fld h 218 209) (postAmount h) else s

theorem cabPost_spec (s : State) (part n : Nat) (amt : W32) :
    (cabPost s part n amt).mem = s.mem ∧ (cabPost s part n amt).trl = (cabSet s n (cabGet s n + amt)).trl := by
  unfold cabPost
  extract_lets s₁
  split
  · rw [cntPost_postOnly]
    exact ⟨rfl, rfl⟩
  · exact ⟨rfl, rfl⟩

theorem cabGet_of_cabinet {s t : State} (h : t.trl.cabinet = s.trl.cabinet) (n : Nat) : cabGet t n = cabGet s n := by rw [cabGet, cabAt, h, ← cabAt, ← cabGet]

theorem landed_spec (s : State) (h : BitVec 256) (part : Nat) (pt : List Byte) :
    (landed s h part pt).trl.rx = s.trl.rx
    ∧ (landed s h part pt).mem = (if pkType h = 0 then (partPut s part (landAt s h) (pt.take (landBytes h))).mem else s.mem)
    ∧ (Posts h → cabGet (landed s h part pt) (fld h 218 209) = cabGet s (fld h 218 209) + postAmount h)
    ∧ (∀ n, ¬ Posts h ∨ n ≠ fld h 218 209 → cabGet (landed s h part pt) n = cabGet s n)
    ∧ (¬ Posts h → (landed s h part pt).sync = s.sync) := by
  unfold landed Posts
  extract_lets s₁
  have h₁ : MemOnly s s₁ ∧ s₁.mem = if pkType h = 0 then (partPut s part (landAt s h) (pt.take (landBytes h))).mem else s.mem := by
    unfold s₁
    by_cases htype : pkType h = 0
    · rw [if_pos (by simp [htype]), if_pos htype]
      exact ⟨partPut_memOnly .., rfl⟩
    · rw [if_neg (by simp [htype]), if_neg htype]
      exact ⟨.refl s, rfl⟩
  clear_value s₁
  obtain ⟨honly, hmem⟩ := h₁
  have htrl : s₁.trl = s.trl := by rw [honly]
  have hcab : s₁.trl.cabinet = s.trl.cabinet := by rw [htrl]
  by_cases hpost : pkType h = 1 ∨ bit h 219 = true
  · obtain ⟨hpmem, hptrl⟩ := cabPost_spec s₁ part (fld h 218 209) (postAmount h)
    have hpcab : (cabPost s₁ part (fld h 218 209) (postAmount h)).trl.cabinet = (cabSet s₁ (fld h 218 209) (cabGet s₁ (fld h 218 209) + postAmount h)).trl.cabinet := by
      rw [hptrl]
    rw [if_pos (by simpa using hpost)]
    refine ⟨by rw [hptrl, ← htrl]; rfl, hpmem.trans hmem, fun _ => ?_, fun n hn => ?_, fun hnot => absurd hpost hnot⟩
    · rw [cabGet_of_cabinet hpcab, cabGet_cabSet, cabGet_of_cabinet hcab]
    · have hne : n ≠ fld h 218 209 := hn.resolve_left (not_not.mpr hpost)
      rw [cabGet_of_cabinet hpcab, cabGet_cabSet_ne _ _ hne, cabGet_of_cabinet hcab]
  · rw [if_neg (by simpa using hpost)]
    exact ⟨by rw [htrl], hmem, fun hyes => absurd hyes hpost, fun n _ => cabGet_of_cabinet hcab n, fun _ => by rw [honly]⟩

section
variable {p : Fin 2} {s : State} {k : Packet} (hup : portUp s p.val = true)

/-- The command that a WRITE or a POST is received by. -/
def receiveCmd (p : Fin 2) (k : Packet) : Instr := if pkType k.header = 0 then .writePacket p k else .postPacket p k

include hup in
theorem receive_exec (htype : pkType k.header ≤ 1) : exec (receiveCmd p k) s = .next (pktReceive s k) := by
  unfold receiveCmd
  by_cases h : pkType k.header = 0
  · rw [if_pos h]
    exact if_pos (by simp [hup, h])
  · rw [if_neg h]
    exact if_pos (by simp [hup]; omega)

variable {g : Group} {key : Nat} (hn : pkGroup k.header ≠ 63)
include hn

theorem pktLand_new {pt : List Byte} (hdup : rxDup (rxOf s k.header) (pkSeq k.header) = false) (hwin : pkSeq k.header ≤ (rxOf s k.header).high + 1024)
    (hland : pkType k.header = 0 → InWindow s k.header ∧ landOk s g.part (landAt s k.header) (landBytes k.header) = true)
    (hown : Posts k.header → cabOwned s g.part (fld k.header 218 209) = true) :
    pktLand s k.header g key pt = pktTake (landed s k.header g.part pt) k.header g.part key := by
  unfold InWindow landAt landBytes at hland
  unfold Posts at hown
  unfold pktLand
  extract_lets w len off win cnt write post s₁ amt
  have hout : ¬ (write && decide (off + 32 * len > win.2)) = true := by
    simp only [write, Bool.and_eq_true, beq_iff_eq, decide_eq_true_eq, not_and]
    exact fun h => Nat.not_lt.mpr (hland h).1
  have hcnt : ¬ (post && !cabOwned s g.part cnt) = true := by
    simp only [post, Bool.and_eq_true, Bool.or_eq_true, beq_iff_eq, Bool.not_eq_true', not_and]
    exact fun h => by simp [cnt, hown h]
  have hok : ¬ (write && !landOk s g.part (win.1 + off) (32 * len)) = true := by
    simp only [write, Bool.and_eq_true, beq_iff_eq, Bool.not_eq_true', not_and]
    exact fun h => by simp [win, off, len, (hland h).2]
  rw [if_neg (by simp [w, hdup]), if_neg (Nat.not_lt.mpr hwin), if_neg hn, if_neg hout, if_neg hcnt, if_neg hok]
  have hamt : amt = postAmount k.header := by
    unfold amt postAmount write
    by_cases h : pkType k.header = 0
    · rw [if_pos (by simp [h]), if_pos h]
    · rw [if_neg (by simp [h]), if_neg h]
  rw [hamt]
  rfl

theorem pktLand_refuses {pt : List Byte} (hg : groupOf s (pkGroup k.header) = some g)
    (hdup : rxDup (rxOf s k.header) (pkSeq k.header) = false) (hwin : pkSeq k.header ≤ (rxOf s k.header).high + 1024)
    (hbad : pkType k.header = 0 ∧ ¬ (InWindow s k.header ∧ landOk s g.part (landAt s k.header) (landBytes k.header) = true)
      ∨ Posts k.header ∧ cabOwned s g.part (fld k.header 218 209) = false) : Refuses s (pktLand s k.header g key pt) k g := by
  unfold InWindow landAt landBytes Posts at hbad
  unfold pktLand
  extract_lets w len off win cnt write post s₁ amt
  rw [if_neg (by simp [w, hdup]), if_neg (Nat.not_lt.mpr hwin), if_neg hn]
  split
  · exact pktNak_refuses hg key 1
  · next hout =>
    split
    · exact pktNak_refuses hg key 3
    · next hcnt =>
      split
      · exact pktNak_refuses hg key 5
      · next hok =>
        simp only [write, Bool.and_eq_true, beq_iff_eq, decide_eq_true_eq, not_and, Bool.not_eq_true', Bool.not_eq_false] at hout hok
        simp only [post, Bool.and_eq_true, Bool.or_eq_true, beq_iff_eq, Bool.not_eq_true', not_and, Bool.not_eq_false] at hcnt
        rcases hbad with ⟨htype, hbad⟩ | ⟨hpost, hbad⟩
        · exact absurd ⟨Nat.le_of_not_lt (hout htype), hok htype⟩ hbad
        · exact absurd (hcnt hpost) (Bool.eq_false_iff.mp hbad)

/-- A duplicate is counted and acknowledged again. -/
theorem pktLand_dup {pt : List Byte} (hg : groupOf s (pkGroup k.header) = some g) (hdup : rxDup (rxOf s k.header) (pkSeq k.header) = true) :
    (pktLand s k.header g key pt).mem = s.mem ∧ (pktLand s k.header g key pt).trl.rx = s.trl.rx ∧ (pktLand s k.header g key pt).trl.cabinet = s.trl.cabinet
    ∧ odGet (pktLand s k.header g key pt) 0x6041 (g.part + 1) = min (odGet s 0x6041 (g.part + 1) + 1) (2 ^ 64 - 1) := by
  unfold pktLand
  extract_lets w len off win cnt write post s₁ amt
  rw [if_pos hdup, if_pos (groupOf_part_lt hg hn)]
  have hanswer := pktAnswer_answerOnly (bump64 s 0x6041 (g.part + 1)) k.header key g.part 2 0 w.high
  have hcount : odGet (bump64 s 0x6041 (g.part + 1)) 0x6041 (g.part + 1) = min (odGet s 0x6041 (g.part + 1) + 1) (2 ^ 64 - 1) := odGet_bumpBy ..
  have hsame : (bump64 s 0x6041 (g.part + 1)).mem = s.mem ∧ (bump64 s 0x6041 (g.part + 1)).trl = s.trl := ⟨rfl, rfl⟩
  generalize bump64 s 0x6041 (g.part + 1) = u at *
  refine ⟨?_, ?_, ?_, ?_⟩
  · rw [hanswer]
    exact hsame.1
  · rw [hanswer, ← hsame.2]
  · rw [hanswer, ← hsame.2]
  · rw [odGet, show (pktAnswer u k.header key g.part 2 0 w.high).pav = u.pav by rw [hanswer], ← odGet, hcount]

end

section
variable {p : Fin 2} {s : State} {k : Packet} {g : Group} {key : Nat} (hup : portUp s p.val = true) (htype : pkType k.header ≤ 1)
include hup htype

theorem receive_noKey (hver : fld k.header 255 252 = 1) (hg : groupOf s (pkGroup k.header) = some g) (hsrc : g.mask.getLsbD (pkSrc k.header) = true)
    (hkey : trlKey s g.slot g.part (pkGen k.header) = none) : Runs (receiveCmd p k) s fun t => Refuses s t k g ∧ t.trl = s.trl := by
  have hgate := pktGate_noKey hver htype hg hsrc hkey
  have hrefused : pktReceive s k = refused s g.part := by
    unfold pktReceive
    rw [hgate]
    rfl
  refine ⟨refused s g.part, (receive_exec hup htype).trans (congrArg Host.Outcome.next hrefused), refused_refuses hg, ?_⟩
  rw [refused_countsOnly]

variable (hmeant : PacketMeant s k g key)
include hmeant

/-- A WRITE or a POST by its tag and its check value: refused without either, and otherwise taken to the checks that follow. -/
theorem receive_verdict {opens : List Byte → State → Prop} (hland : ∀ pt, opens pt (pktLand s k.header g key pt)) :
    Runs (receiveCmd p k) s fun t => Verdict k key (fun pt => opens pt t) (Stopped s k g False t) (Stopped s k g True t) := by
  have hg := hmeant.2.1
  have hexec := receive_exec hup htype
  refine runs_verdict hmeant (by omega) (fun pt hgate => ⟨pktLand s k.header g key pt, ?_, hland pt⟩)
    (fun hgate => ⟨pktStopped s k.header (.drop g.part), ?_, refused_refuses hg, False.elim⟩)
    fun hgate => ⟨pktStopped s k.header (.nak g.part key 4), ?_, (pktStopped_check hg key).1, fun _ => (pktStopped_check hg key).2⟩
  · rw [hexec, pktReceive, hgate]
  · rw [hexec, pktReceive, hgate]
  · rw [hexec, pktReceive, hgate]

variable (hn : pkGroup k.header ≠ 63)
include hn

theorem receive_lands (hdup : rxDup (rxOf s k.header) (pkSeq k.header) = false) (hwin : pkSeq k.header ≤ (rxOf s k.header).high + 1024)
    (hland : pkType k.header = 0 → InWindow s k.header ∧ landOk s g.part (landAt s k.header) (landBytes k.header) = true)
    (hown : Posts k.header → cabOwned s g.part (fld k.header 218 209) = true) : Runs (receiveCmd p k) s fun t => Verdict k key
      (fun pt => mget t.trl.rx (seqKey (pkSrc k.header) (pkGroup k.header) (pkGen k.header)) = some (rxMark (rxOf s k.header) (pkSeq k.header))
        ∧ t.mem = (if pkType k.header = 0 then (partPut s g.part (landAt s k.header) (pt.take (landBytes k.header))).mem else s.mem)
        ∧ (Posts k.header → cabGet t (fld k.header 218 209) = cabGet s (fld k.header 218 209) + postAmount k.header)
        ∧ (∀ n, ¬ Posts k.header ∨ n ≠ fld k.header 218 209 → cabGet t n = cabGet s n) ∧ (¬ Posts k.header → t.sync = s.sync))
      (Stopped s k g False t) (Stopped s k g True t) := by
  refine receive_verdict hup htype hmeant (opens := fun pt t =>
    mget t.trl.rx (seqKey (pkSrc k.header) (pkGroup k.header) (pkGen k.header)) = some (rxMark (rxOf s k.header) (pkSeq k.header))
    ∧ t.mem = (if pkType k.header = 0 then (partPut s g.part (landAt s k.header) (pt.take (landBytes k.header))).mem else s.mem)
    ∧ (Posts k.header → cabGet t (fld k.header 218 209) = cabGet s (fld k.header 218 209) + postAmount k.header)
    ∧ (∀ n, ¬ Posts k.header ∨ n ≠ fld k.header 218 209 → cabGet t n = cabGet s n) ∧ (¬ Posts k.header → t.sync = s.sync)) fun pt => ?_
  rw [pktLand_new hn hdup hwin hland hown]
  obtain ⟨hrx, hmem, hpost, hother, hsync⟩ := landed_spec s k.header g.part pt
  generalize landed s k.header g.part pt = u at *
  obtain ⟨hmark, kmem, ksync, kcab⟩ := pktTake_spec u k.header g.part key
  rw [rxOf, hrx, ← rxOf] at hmark
  exact ⟨hmark, kmem.trans hmem, fun h => (cabGet_of_cabinet kcab _).trans (hpost h), fun n h => (cabGet_of_cabinet kcab n).trans (hother n h),
    fun h => ksync.trans (hsync h)⟩

theorem receive_refuses (hdup : rxDup (rxOf s k.header) (pkSeq k.header) = false) (hwin : pkSeq k.header ≤ (rxOf s k.header).high + 1024)
    (hbad : pkType k.header = 0 ∧ ¬ (InWindow s k.header ∧ landOk s g.part (landAt s k.header) (landBytes k.header) = true)
      ∨ Posts k.header ∧ cabOwned s g.part (fld k.header 218 209) = false) : Runs (receiveCmd p k) s fun t => Refuses s t k g := by
  obtain ⟨t, hexec, hverdict⟩ := receive_verdict hup htype hmeant (opens := fun _ t => Refuses s t k g)
    fun pt => pktLand_refuses (key := key) (pt := pt) hn hmeant.2.1 hdup hwin hbad
  refine ⟨t, hexec, ?_⟩
  unfold Verdict at hverdict
  split at hverdict
  · exact hverdict.1
  · split at hverdict
    · exact hverdict
    · exact hverdict.1

theorem receive_duplicate (hdup : rxDup (rxOf s k.header) (pkSeq k.header) = true) : Runs (receiveCmd p k) s fun t => Verdict k key
    (fun _ => t.mem = s.mem ∧ t.trl.rx = s.trl.rx ∧ t.trl.cabinet = s.trl.cabinet
      ∧ odGet t 0x6041 (g.part + 1) = min (odGet s 0x6041 (g.part + 1) + 1) (2 ^ 64 - 1))
    (Stopped s k g False t) (Stopped s k g True t) :=
  receive_verdict hup htype hmeant (opens := fun _ t => t.mem = s.mem ∧ t.trl.rx = s.trl.rx ∧ t.trl.cabinet = s.trl.cabinet
    ∧ odGet t 0x6041 (g.part + 1) = min (odGet s 0x6041 (g.part + 1) + 1) (2 ^ 64 - 1)) fun _ => pktLand_dup hn hmeant.2.1 hdup

end

/-! ### Sending on (R332) -/

/-- Memory stays, and so does every context that an image fault has ended. -/
def StaysEnded (s t : State) : Prop := t.mem = s.mem ∧ ∀ c, (ctxGet s c).fault = some fcImage → (ctxGet t c).fault = some fcImage

theorem StaysEnded.refl (s : State) : StaysEnded s s := ⟨rfl, fun _ h => h⟩

theorem StaysEnded.trans {s t u : State} (h : StaysEnded s t) (k : StaysEnded t u) : StaysEnded s u :=
  ⟨k.1.trans h.1, fun c hc => k.2 c (h.2 c hc)⟩

theorem staysEnded_of_seq {s t : State} (hmem : t.mem = s.mem) (hseq : t.seq = s.seq) : StaysEnded s t :=
  ⟨hmem, fun c hc => by rw [ctxGet, hseq, ← ctxGet]; exact hc⟩

theorem LinkOnly.staysEnded {s t : State} (h : LinkOnly s t) : StaysEnded s t := staysEnded_of_seq (by rw [h]) (by rw [h])

theorem PortsOnly.linkOnly {s t : State} (h : PortsOnly s t) : LinkOnly s t := by
  unfold PortsOnly at h
  unfold LinkOnly
  rw [h]

theorem ctxEnd_staysEnded (s : State) (c : Nat) (code : Fin 5) : StaysEnded s (ctxEnd s c code) := by
  obtain ⟨honly, hne, -, hsame⟩ := ctxEnd_sets s c code
  refine ⟨by rw [honly], fun e he => ?_⟩
  by_cases hec : e = c
  · subst hec
    rw [hsame (by rw [he]; rfl)]
    exact he
  · rw [hne e hec]
    exact he

theorem jobPump_staysEnded (s : State) (n k : Nat) : StaysEnded s (jobPump s n k) := by
  induction k generalizing s with
  | zero => exact .refl s
  | succ k ih =>
    unfold jobPump
    split
    · exact .refl s
    · next j hj =>
      split
      · exact .refl s
      · split
        · next i r gr hrun hgr =>
          split
          · exact ctxEnd_staysEnded ..
          · extract_lets len post extra rest data s₁
            have htouch : StaysEnded s (partTouch s j.part.val r.src len) :=
              staysEnded_of_seq (by rw [partTouch_countsOnly s j.part.val r.src len]) (by rw [partTouch_countsOnly s j.part.val r.src len])
            have hsent : StaysEnded (partTouch s j.part.val r.src len) s₁ :=
              StaysEnded.trans (t := tjSet (partTouch s j.part.val r.src len) n { j with left := rest }) ⟨rfl, fun _ h => h⟩ (pktOut_linkOnly ..).staysEnded
            split
            · exact .refl s
            · exact (htouch.trans hsent).trans (ih _)
        · exact .refl s

theorem jobsPump_staysEnded (s : State) (g : Nat) : StaysEnded s (jobsPump s g) := by
  unfold jobsPump
  split
  · exact ((g63Pump_linkOnly ..).trans (linksDrain_linkOnly _)).staysEnded
  · exact (each_rel (R := StaysEnded) .refl .trans (fun s x => jobPump_staysEnded s _ _) _ s).trans (linksDrain_linkOnly _).staysEnded

/-- Nothing of a group waits, so no packet is added. -/
theorem jobsPump_idle {s : State} {g : Nat} (hjobs : ∀ x, x ∈ s.trl.jobs → tjGroup x.2 = g → x.2.left = []) (hg63 : g = 63 → s.trl.g63 = []) :
    (jobsPump s g).trl.pending = s.trl.pending := by
  unfold jobsPump
  split
  · next h =>
    have hpump : g63Pump s 1024 = s := by
      rw [g63Pump, hg63 h]
    rw [hpump, linksDrain_portsOnly]
  · have hnone : (s.trl.jobs.filter fun x => tjGroup x.2 == g && x.2.left != []) = [] := List.filter_eq_nil_iff.mpr fun x hx => by
      by_cases hgroup : tjGroup x.2 = g
      · simp [hjobs x hx hgroup]
      · simp [hgroup]
    rw [hnone, linksDrain_portsOnly]
    rfl

/-! ### Answers received (R332, R335) -/

/-- An acknowledgement covers a packet. -/
def ackCovers (h : BitVec 256) (o : OutPkt) : Bool := o.dst == pkSrc h && o.group == pkGroup h && pkGen o.pkt.header == pkGen h && decide (o.seq ≤ fld h 72 9)

/-- What an acknowledgement leaves of what is kept. -/
def ackFreed (s : State) (h : BitVec 256) : State := { s with trl := { s.trl with pending := s.trl.pending.filter fun o => !ackCovers h o } }

/-- The packet that a NAK refuses: the oldest that it may mean, under its generation (R332). -/
def nakMeans (h : BitVec 256) (o : OutPkt) : Bool := o.dst == pkSrc h && o.group == pkGroup h && pkGen o.pkt.header == pkGen h

/-- A filter that keeps what a search finds does not change what it finds. -/
theorem find?_filter_of_kept {α : Type} {p q : α → Bool} {l : List α} {a : α} (hfind : l.find? q = some a) (hkept : p a = true) : (l.filter p).find? q = some a := by
  induction l with
  | nil => cases hfind
  | cons x l ih =>
    by_cases hx : q x = true
    · obtain rfl : x = a := Option.some.inj ((List.find?_cons_of_pos hx).symm.trans hfind)
      rw [List.filter_cons_of_pos hkept, List.find?_cons_of_pos hx]
    · rw [List.find?_cons_of_neg hx] at hfind
      by_cases hp : p x = true
      · rw [List.filter_cons_of_pos hp, List.find?_cons_of_neg hx]
        exact ih hfind
      · rw [List.filter_cons_of_neg hp]
        exact ih hfind

theorem find_nakMeans {s : State} {h : BitVec 256} {o : OutPkt} (hfind : s.trl.pending.find? (nakMeans h) = some o) (hseq : fld h 72 9 < o.seq) :
    (ackFreed s h).trl.pending.find? (nakMeans h) = some o := by
  have hkept : (!ackCovers h o) = true := by simp [ackCovers]; omega
  exact find?_filter_of_kept (p := fun o => !ackCovers h o) hfind hkept

section
variable {p : Fin 2} {s : State} {k : Packet} {g : Group} (hup : portUp s p.val = true)
include hup

theorem ackPacket_exec (htype : pkType k.header = 2) :
    (∀ key pt, pktGate s k = .pass g key pt → exec (.ackPacket p k) s = .next (jobsPump (ackFreed s k.header) (pkGroup k.header)))
    ∧ (∀ n, pktGate s k = .drop n → exec (.ackPacket p k) s = .next (pktStopped s k.header (.drop n)))
    ∧ ∀ n key st, pktGate s k = .nak n key st → exec (.ackPacket p k) s = .next (pktStopped s k.header (.nak n key st)) := by
  have hon : ¬ (!portUp s p.val || pkType k.header != 2) = true := by simp [hup, htype]
  refine ⟨fun key pt hgate => ?_, fun n hgate => ?_, fun n key st hgate => ?_⟩
  · change execAckPacket p k s = _
    unfold execAckPacket
    rw [if_neg hon, hgate]
    rfl
  · change execAckPacket p k s = _
    unfold execAckPacket
    rw [if_neg hon, hgate]
  · change execAckPacket p k s = _
    unfold execAckPacket
    rw [if_neg hon, hgate]

theorem nakPacket_exec (htype : pkType k.header = 3) :
    (∀ key pt o, pktGate s k = .pass g key pt → (ackFreed s k.header).trl.pending.find? (nakMeans k.header) = some o →
      exec (.nakPacket p k) s = .next (jobsPump (nakOne (ackFreed s k.header) o (fld k.header 80 73)) (pkGroup k.header)))
    ∧ (∀ n, pktGate s k = .drop n → exec (.nakPacket p k) s = .next (pktStopped s k.header (.drop n)))
    ∧ ∀ n key st, pktGate s k = .nak n key st → exec (.nakPacket p k) s = .next (pktStopped s k.header (.nak n key st)) := by
  have hon : ¬ (!portUp s p.val || pkType k.header != 3) = true := by simp [hup, htype]
  refine ⟨fun key pt o hgate hfind => ?_, fun n hgate => ?_, fun n key st hgate => ?_⟩
  · change execNakPacket p k s = _
    unfold execNakPacket
    rw [if_neg hon, hgate]
    extract_lets here _ s₁
    have hfound : s₁.trl.pending.find? here = some o := hfind
    dsimp only
    rw [hfound]
    rfl
  · change execNakPacket p k s = _
    unfold execNakPacket
    rw [if_neg hon, hgate]
  · change execNakPacket p k s = _
    unfold execNakPacket
    rw [if_neg hon, hgate]

variable {key : Nat} (hmeant : PacketMeant s k g key)
include hmeant

theorem ackPacket_runs (htype : pkType k.header = 2) : Runs (.ackPacket p k) s fun t => Verdict k key
    (fun _ => t.mem = s.mem
      ∧ ((∀ x, x ∈ s.trl.jobs → tjGroup x.2 = pkGroup k.header → x.2.left = []) → (pkGroup k.header = 63 → s.trl.g63 = []) →
          t.trl.pending = s.trl.pending.filter fun o => !ackCovers k.header o))
    (Stopped s k g False t) (Stopped s k g True t) := by
  have hg := hmeant.2.1
  obtain ⟨hpass, hdrop, hnak⟩ := ackPacket_exec (g := g) hup htype
  refine runs_verdict hmeant (by omega) (fun pt hgate => ⟨_, hpass _ _ hgate, ?_⟩) (fun hgate => ⟨_, hdrop _ hgate, ?_⟩) fun hgate => ⟨_, hnak _ _ _ hgate, ?_⟩
  · exact ⟨(jobsPump_staysEnded ..).1, fun hjobs hg63 => jobsPump_idle (s := ackFreed s k.header) hjobs hg63⟩
  · exact ⟨refused_refuses hg, False.elim⟩
  · obtain ⟨href, hcount⟩ := pktStopped_check hg key
    exact ⟨href, fun _ => hcount⟩

theorem nakPacket_runs {o : OutPkt} {n : Nat} {j : TJob} (htype : pkType k.header = 3) (hst : fld k.header 80 73 = 1 ∨ fld k.header 80 73 = 3 ∨ fld k.header 80 73 = 5)
    (hfind : s.trl.pending.find? (nakMeans k.header) = some o) (hseq : fld k.header 72 9 < o.seq) (hjob : o.job = some n) (hj : mget s.trl.jobs n = some j)
    (hruns : tjRuns s j = true) (hstep : (ctxGet s j.ctx).step.isSome = true) : Runs (.nakPacket p k) s fun t => Verdict k key
      (fun _ => (ctxGet t j.ctx).fault = some 1 ∧ t.mem = s.mem) (Stopped s k g False t) (Stopped s k g True t) := by
  have hg := hmeant.2.1
  obtain ⟨hpass, hdrop, hnak⟩ := nakPacket_exec (g := g) hup htype
  refine runs_verdict hmeant (by omega) (fun pt hgate => ⟨_, hpass _ _ _ hgate (find_nakMeans hfind hseq), ?_⟩) (fun hgate => ⟨_, hdrop _ hgate, ?_⟩)
    fun hgate => ⟨_, hnak _ _ _ hgate, ?_⟩
  · have hone : nakOne (ackFreed s k.header) o (fld k.header 80 73) = ctxEnd (ackFreed s k.header) j.ctx fcImage := by
      have hjob' : (o.job.bind fun n => mget (ackFreed s k.header).trl.jobs n) = some j := by rw [hjob]; exact hj
      unfold nakOne
      rw [if_pos hst, hjob']
      exact if_pos hruns
    obtain ⟨honly, -, hset, -⟩ := ctxEnd_sets (ackFreed s k.header) j.ctx fcImage
    have hfault : (ctxGet (ctxEnd (ackFreed s k.header) j.ctx fcImage) j.ctx).fault = some fcImage := by
      rw [hset hstep (Option.isNone_iff_eq_none.mp hruns)]
    obtain ⟨hmem, hstays⟩ := jobsPump_staysEnded (ctxEnd (ackFreed s k.header) j.ctx fcImage) (pkGroup k.header)
    rw [hone]
    refine ⟨hstays _ hfault, hmem.trans ?_⟩
    rw [honly]
    rfl
  · exact ⟨refused_refuses hg, False.elim⟩
  · obtain ⟨href, hcount⟩ := pktStopped_check hg key
    exact ⟨href, fun _ => hcount⟩

end

/-! ### Packets sent again (R332) -/

/-- The port that a kept packet goes out by again: the other while that one is UP. -/
def otherPort (s : State) (o : OutPkt) : Nat := if portUp s (1 - o.port) then 1 - o.port else o.port

section
variable {s : State} {d : Fin 16} {g : Fin 64} {n : Nat} {o : OutPkt} (hon : trlOn s = true)
  (hfind : s.trl.pending.find? (fun o => o.dst == d.val && o.group == g.val && o.seq == n) = some o)
include hon hfind

theorem packetResend_exec : exec (.packetResend d g n) s =
    if s.clk.now < o.sentAt + 20000 then .next s else if 4 ≤ o.resends then .next (pktLink s o) else .next (pktAgain s o) := by
  change execPacketResend d g n s = _
  unfold execPacketResend
  rw [hfind]
  simp only [hon, Bool.not_true, Bool.false_or, decide_eq_true_eq, ge_iff_le]

theorem packetResend_again (hdue : o.sentAt + 20000 ≤ s.clk.now) (hfew : o.resends < 4) (hq : portUp s (otherPort s o) = true) :
    Runs (.packetResend d g n) s fun t => (∃ new, t.out = new ++ s.out ∧ .packet (otherPort s o) o.pkt ∈ new)
      ∧ { o with port := otherPort s o, sentAt := s.clk.now, resends := o.resends + 1 } ∈ t.trl.pending ∧ t.mem = s.mem := by
  refine ⟨_, (packetResend_exec hon hfind).trans ((if_neg (by omega)).trans (if_neg (by omega))), ?_⟩
  have hmem : { o with port := otherPort s o, sentAt := s.clk.now, resends := o.resends + 1 } ∈ s.trl.pending.map fun x =>
      if x.dst == o.dst && x.group == o.group && x.seq == o.seq && pkGen x.pkt.header == pkGen o.pkt.header then
        { o with port := otherPort s o, sentAt := s.clk.now, resends := o.resends + 1 } else x :=
    List.mem_map.mpr ⟨o, List.mem_of_find?_eq_some hfind, if_pos (by simp)⟩
  unfold pktAgain
  extract_lets q o' _ s₁
  have hkept : o' ∈ s₁.trl.pending := hmem
  have hout : s₁.out = s.out ∧ s₁.mem = s.mem := ⟨rfl, rfl⟩
  have hup : portUp s₁ q = true := hq
  have heq : q = otherPort s o := rfl
  have hsame : o' = { o with port := otherPort s o, sentAt := s.clk.now, resends := o.resends + 1 } := rfl
  clear_value q o' s₁
  rw [if_pos hup]
  have hgo : (pktGo s₁ q (fld o.pkt.header 229 228) (((groupOf s₁ o.group).map Group.part).getD 63) o.pkt).out = .packet q o.pkt :: s₁.out := rfl
  have honly := (pktGo_portsOnly s₁ q (fld o.pkt.header 229 228) (((groupOf s₁ o.group).map Group.part).getD 63) o.pkt)
  generalize pktGo s₁ q (fld o.pkt.header 229 228) (((groupOf s₁ o.group).map Group.part).getD 63) o.pkt = u at *
  obtain ⟨new, hnew⟩ := linksDrain_outGrows u
  have hlinks := honly.trans (linksDrain_portsOnly u)
  refine ⟨⟨new ++ [.packet q o.pkt], ?_, ?_⟩, ?_, ?_⟩
  · rw [hnew, hgo, hout.1, List.append_assoc]
    rfl
  · rw [← heq]
    exact List.mem_append_right _ (List.mem_singleton.mpr rfl)
  · rw [hlinks, ← hsame]
    exact hkept
  · rw [hlinks]
    exact hout.2

theorem packetResend_gives_up (hdue : o.sentAt + 20000 ≤ s.clk.now) (hmany : 4 ≤ o.resends) : Runs (.packetResend d g n) s fun t =>
    o ∉ t.trl.pending ∧ ∀ i, o.job = some i → mget t.trl.jobs i = none := by
  refine ⟨_, (packetResend_exec hon hfind).trans ((if_neg (by omega)).trans (if_pos hmany)), ?_⟩
  unfold pktLink
  extract_lets _ s₁
  have hgone : o ∉ s₁.trl.pending := fun h => by
    have h' : o ∈ s.trl.pending.filter fun x => x != o := h
    simp at h'
  cases hjob : o.job with
  | none => exact ⟨hgone, fun i hi => nomatch hi⟩
  | some i =>
    clear_value s₁
    dsimp only
    rw [jobLink_trl]
    refine ⟨hgone, fun i' hi => ?_⟩
    obtain rfl := Option.some.inj hi
    exact (mget_mdel ..).trans (if_pos rfl)

end

/-- Settles O30: received packets by the checks that they meet, answers by what they name, and resends by their time. -/
theorem packetsLandOnceAndAreAcknowledged : Obligations.PacketsLandOnceAndAreAcknowledged := by
  refine ⟨fun p s k hup => ?_, fun d g n s o hon hfind => ?_⟩
  · exact ⟨fun g htype hver hg hsrc hkey => receive_noKey hup htype hver hg hsrc hkey,
      fun g key htype hmeant hn hdup hwin hland hown => receive_lands hup htype hmeant hn hdup hwin hland hown,
      fun g key htype hmeant hn hdup hwin hbad => receive_refuses hup htype hmeant hn hdup hwin hbad,
      fun g key htype hmeant hn hdup => receive_duplicate hup htype hmeant hn hdup,
      fun g key htype hmeant => ackPacket_runs hup hmeant htype,
      fun g key o n j htype hmeant hst hfind hseq hjob hj hruns hstep => nakPacket_runs hup hmeant htype hst hfind hseq hjob hj hruns hstep⟩
  · intro q
    exact ⟨fun hsoon => ⟨s, (packetResend_exec hon hfind).trans (if_pos hsoon), rfl⟩, packetResend_again hon hfind, packetResend_gives_up hon hfind⟩

end Sys2Proof.Machine
end

section
/-! SUPPORT. O31: Trellis jobs, from their start to their end (R334, R335, R337, R339). -/

namespace Sys2Proof.Machine

open Sys2Proof Sys2Proof.Claims

/-! ### What a job's sending leaves alone (R332) -/

/-- A job has been given a chance to send: its entry differs in what is left to send, and beside it Trellis' queues, the contexts it may end and counts. -/
def JobSent (n : Nat) (s t : State) : Prop :=
  t = { s with
    seq := t.seq, dma := t.dma, pav := { s.pav with vals := t.pav.vals }
    trl := { s.trl with ports := t.trl.ports, jobs := t.trl.jobs, txSeq := t.trl.txSeq, pending := t.trl.pending }, out := t.out }
  ∧ ∀ y, mget s.trl.jobs n = some y → ∃ l, mget t.trl.jobs n = some { y with left := l }

theorem JobSent.refl (n : Nat) (s : State) : JobSent n s s := ⟨rfl, fun y h => ⟨y.left, h⟩⟩

theorem JobSent.trans {n : Nat} {s t u : State} (h : JobSent n s t) (k : JobSent n t u) : JobSent n s u := by
  refine ⟨by rw [k.1, h.1], fun y hy => ?_⟩
  obtain ⟨l, hl⟩ := h.2 y hy
  obtain ⟨l', hl'⟩ := k.2 _ hl
  exact ⟨l', hl'⟩

theorem JobSent.ofJobs {n : Nat} {s t : State} (h : t = { s with
    seq := t.seq, dma := t.dma, pav := { s.pav with vals := t.pav.vals }
    trl := { s.trl with ports := t.trl.ports, txSeq := t.trl.txSeq, pending := t.trl.pending }, out := t.out }) : JobSent n s t :=
  ⟨by rw [h], fun y hy => ⟨y.left, by rw [h]; exact hy⟩⟩

theorem pktOut_trl (s : State) (dst g gen key part vc extra : Nat) (data : List Byte) (job : Option Nat) :
    pktOut s dst g gen key part vc extra data job = { s with
      trl := { s.trl with ports := (pktOut s dst g gen key part vc extra data job).trl.ports
                          txSeq := mset s.trl.txSeq (seqKey dst g gen) (mgetD s.trl.txSeq (seqKey dst g gen) 1 + 1)
                          pending := (pktOut s dst g gen key part vc extra data job).trl.pending }
      out := (pktOut s dst g gen key part vc extra data job).out } := by
  unfold pktOut
  dsimp only
  split
  · exact rfl
  · exact rfl

theorem pktOut_jobSent (n : Nat) (s : State) (dst g gen key part vc extra : Nat) (data : List Byte) (job : Option Nat) :
    JobSent n s (pktOut s dst g gen key part vc extra data job) := by
  have h := pktOut_trl s dst g gen key part vc extra data job
  generalize pktOut s dst g gen key part vc extra data job = t at *
  refine .ofJobs ?_
  rw [h]

/-- One packet more is kept, under the next number of its counter. -/
theorem pktOut_pending (s : State) (dst g gen key part vc extra : Nat) (data : List Byte) (job : Option Nat) :
    ∃ o, (pktOut s dst g gen key part vc extra data job).trl.pending = s.trl.pending ++ [o] ∧ o.dst = dst ∧ o.group = g ∧ o.job = job
      ∧ o.seq = mgetD s.trl.txSeq (seqKey dst g gen) 1 := by
  unfold pktOut
  dsimp only
  split
  · exact ⟨_, rfl, rfl, rfl, rfl, rfl⟩
  · exact ⟨_, rfl, rfl, rfl, rfl, rfl⟩

/-- Bytes of a run that its next packet carries. -/
def runBytes (j : TJob) (r : TxRun) : Nat := min r.len (if bit j.bits 1005 then 4096 else 256)

/-- What is left of a job once that packet is out. -/
def runRest (j : TJob) (i : Nat) (r : TxRun) : List TxRun :=
  if runBytes j r = r.len then j.left.eraseIdx i
  else j.left.set i { r with src := r.src + runBytes j r, off := r.off + runBytes j r, len := r.len - runBytes j r }

/-- The packet's own header fields. -/
def runExtra (j : TJob) (r : TxRun) : Nat :=
  (if tjOp j == 2 then 2 ^ 248 + fld j.bits 797 782 * 2 ^ 193 else 0)
    + (if !(tjOp j == 2) && r.post.isSome then 2 ^ 219 else 0) + (r.post.getD 0) % 1024 * 2 ^ 209 + r.off % 2 ^ 48 * 2 ^ 81

/-- One packet of a job goes out. -/
def runSend (s : State) (n : Nat) (j : TJob) (i : Nat) (r : TxRun) (gen key : Nat) : State :=
  pktOut (tjSet (partTouch s j.part.val r.src (runBytes j r)) n { j with left := runRest j i r }) r.dst (tjGroup j) gen key j.part.val
    (if bit j.bits 1005 then 2 else 1) (runExtra j r) (partBytes s j.part.val r.src (runBytes j r)) (some n)

theorem jobPump_send {s : State} {n i gen key : Nat} {j : TJob} {r : TxRun} {gr : Group} (hj : mget s.trl.jobs n = some j) (hruns : tjRuns s j = true)
    (hrun : runNext s j = some (i, r)) (hgr : groupOf s (tjGroup j) = some gr) (hkey : trlCur s gr = some (gen, key))
    (hfits : pktFits s r.dst (tjGroup j) (runBytes j r) = true) (k : Nat) : jobPump s n (k + 1) = jobPump (runSend s n j i r gen key) n k := by
  rw [jobPump, hj]
  dsimp only
  rw [if_neg (by simp [hruns]), hrun, hgr]
  dsimp only
  rw [hkey]
  dsimp only
  exact if_neg (by simp only [runBytes] at hfits; simp [hfits])

theorem jobPump_done {s : State} {n : Nat} {j : TJob} (hj : mget s.trl.jobs n = some j) (hleft : j.left = []) (k : Nat) : jobPump s n k = s := by
  cases k with
  | zero => rfl
  | succ k =>
    rw [jobPump, hj]
    dsimp only
    split
    · rfl
    · rw [show runNext s j = none by simp [runNext, hleft]]

theorem runSend_job (s : State) (n : Nat) (j : TJob) (i : Nat) (r : TxRun) (gen key : Nat) :
    mget (runSend s n j i r gen key).trl.jobs n = some { j with left := runRest j i r } := by
  unfold runSend
  rw [pktOut_trl]
  exact mget_mset_same ..

theorem runSend_pending (s : State) (n : Nat) (j : TJob) (i : Nat) (r : TxRun) (gen key : Nat) :
    ∃ o, (runSend s n j i r gen key).trl.pending = s.trl.pending ++ [o] ∧ o.dst = r.dst ∧ o.group = tjGroup j ∧ o.job = some n
      ∧ o.seq = mgetD s.trl.txSeq (seqKey r.dst (tjGroup j) gen) 1 := by
  have htouch := partTouch_countsOnly s j.part.val r.src (runBytes j r)
  have htrl : (tjSet (partTouch s j.part.val r.src (runBytes j r)) n { j with left := runRest j i r }).trl.pending = s.trl.pending
      ∧ (tjSet (partTouch s j.part.val r.src (runBytes j r)) n { j with left := runRest j i r }).trl.txSeq = s.trl.txSeq := by
    rw [htouch]
    exact ⟨rfl, rfl⟩
  unfold runSend
  rw [← htrl.1, ← htrl.2]
  exact pktOut_pending ..

theorem runSend_jobSent {s : State} {n i gen key : Nat} {j : TJob} {r : TxRun} (hj : mget s.trl.jobs n = some j) : JobSent n s (runSend s n j i r gen key) := by
  have htouch : JobSent n s (partTouch s j.part.val r.src (runBytes j r)) := by
    have h := partTouch_countsOnly s j.part.val r.src (runBytes j r)
    exact .ofJobs (by rw [h])
  have hset : JobSent n (partTouch s j.part.val r.src (runBytes j r)) (tjSet (partTouch s j.part.val r.src (runBytes j r)) n { j with left := runRest j i r }) := by
    have h : (partTouch s j.part.val r.src (runBytes j r)).trl = s.trl := by rw [partTouch_countsOnly]
    refine ⟨rfl, fun y hy => ⟨runRest j i r, ?_⟩⟩
    rw [h] at hy
    obtain rfl := Option.some.inj (hj.symm.trans hy)
    exact mget_mset_same ..
  exact (htouch.trans hset).trans (pktOut_jobSent ..)

theorem jobPump_jobSent (s : State) (n k : Nat) : JobSent n s (jobPump s n k) := by
  induction k generalizing s with
  | zero => exact .refl n s
  | succ k ih =>
    unfold jobPump
    split
    · exact .refl n s
    · next j hj =>
      split
      · exact .refl n s
      · split
        · next i r gr hrun hgr =>
          split
          · have h := (ctxEnd_sets s j.ctx fcImage).1
            refine .ofJobs ?_
            rw [h]
          · next gen key hkey =>
            extract_lets len post extra rest data s₁
            have hone : s₁ = runSend s n j i r gen key := rfl
            clear_value s₁
            split
            · exact .refl n s
            · rw [hone]
              exact (runSend_jobSent hj).trans (ih _)
        · exact .refl n s

theorem jobSend_jobSent (s : State) (n : Nat) : JobSent n s (jobSend s n) := by
  have h := linksDrain_portsOnly (jobPump s n 16384)
  refine (jobPump_jobSent s n 16384).trans (.ofJobs ?_)
  unfold PortsOnly at h
  unfold jobSend
  rw [h]

/-! ### The own chunk of a REDUCE (R339 step 1) -/

theorem partTouch_linesCounted (s : State) (part a n : Nat) : LinesCounted s (partTouch s part a n) := by
  unfold partTouch
  refine each_rel (R := LinesCounted) .refl .trans (fun s l => ?_) _ s
  obtain ⟨hclus, hcore⟩ := placeOf_bounds (s := s) (a := l)
  have hcount {q : Nat} (hq : q < 16) : LinesCounted s (bumpBy s 0x4012 (q + 1) 64 1) :=
    ⟨bumpBy_countsOnly .., fun i j hk => odGet_bumpBy_ne _ _ _ (hk q hq)⟩
  split
  · next c off hp =>
    split
    · exact hcount (hclus c off hp)
    · exact .refl s
  · next k off hp =>
    split
    · exact hcount (hcore k off hp)
    · exact .refl s
  · exact .refl s

/-- Where a member's own chunk lies. -/
def ownAt (s : State) (j : TJob) : Nat := fld j.bits 984 937 + rdRank s j * rdZ j

/-- The own chunk is copied to its place in the scratch area. -/
def ownCopied (s : State) (j : TJob) : State :=
  partPut (partTouch s j.part.val (ownAt s j) (rdChunk j (rdRank s j))) j.part.val
    (tjWin s j + (rdScr j + rdRank s j * rdZ j))
    (partBytes s j.part.val (ownAt s j) (rdChunk j (rdRank s j)))

/-- The other members' chunks, to be sent. -/
def rdRuns (s : State) (j : TJob) : List TxRun :=
  ((rdMembers j).zipIdx.filter fun m => m.2 != rdRank s j && rdChunk j m.2 != 0).map fun m =>
    { dst := m.1, src := fld j.bits 984 937 + m.2 * rdZ j, off := rdScr j + rdRank s j * rdZ j, len := rdChunk j m.2, post := some (tjRcnt j) }

theorem ownCopied_mem (s : State) (j : TJob) :
    (ownCopied s j).mem = (partPut s j.part.val (tjWin s j + rdScr j + rdRank s j * rdZ j) (partBytes s j.part.val (ownAt s j) (rdChunk j (rdRank s j)))).mem := by
  have htouch := partTouch_linesCounted s j.part.val (ownAt s j) (rdChunk j (rdRank s j))
  unfold ownCopied
  rw [Nat.add_assoc]
  have hsame := partPut_same htouch.same j.part.val (tjWin s j + (rdScr j + rdRank s j * rdZ j)) (partBytes s j.part.val (ownAt s j) (rdChunk j (rdRank s j)))
  rw [hsame.1]

/-! ### The start of a job (R334, R335) -/

/-- The entry of a job that has started. -/
def jobStarted (s : State) (n : Nat) (j : TJob) : State := tjSet s n { j with started := true }

/-- A job has begun: its entry is marked, and its words are as they were. -/
def Begun (n : Nat) (j : TJob) (t : State) : Prop := ∃ y, mget t.trl.jobs n = some y ∧ y.started = true ∧ y.bits = j.bits

theorem JobSent.begun {n : Nat} {s t : State} {j y : TJob} (h : JobSent n s t) (hy : mget s.trl.jobs n = some y) (hstart : y.started = true) (hbits : y.bits = j.bits) :
    Begun n j t := by
  obtain ⟨l, hl⟩ := h.2 y hy
  exact ⟨_, hl, hstart, hbits⟩

section
variable {n : Nat} {s : State} {j : TJob} (hready : JobReady s n j)
include hready

theorem jobStart_ready (op : Nat) (run : State → TJob → State) : jobStart s n op run =
    if tjBad s j then ctxEnd s j.ctx fcImage else if tjOp j ≠ op then s else run (jobStarted s n j) { j with started := true } := by
  obtain ⟨hj, hon, hstart, hruns, hbefore, hact, hwait⟩ := hready
  have hall : (s.trl.jobs.all fun x => x.2.ctx != j.ctx || x.2.started || decide (n ≤ x.1)) = true := List.all_eq_true.mpr fun x hx => by
    simpa [or_assoc] using hbefore x hx
  have hactive : (((mget s.gate.parts j.part.val).map Partn.st).getD .free == .active) = true := by
    rw [hact]
    rfl
  unfold jobStart
  rw [hj]
  dsimp only
  rw [if_neg (by simp [hon, hstart, hruns, hall, hactive])]
  simp only [hwait, Bool.not_true, Bool.false_eq_true, or_false]
  rfl

theorem jobStart_begins (hbad : tjBad s j = false) {op : Nat} (hop : tjOp j = op) (run : State → TJob → State) :
    jobStart s n op run = run (jobStarted s n j) { j with started := true } := by
  rw [jobStart_ready hready, if_neg (by simp [hbad]), if_neg (not_not.mpr hop)]

theorem jobStart_faults (hbad : tjBad s j = true) {c : Instr} (hc : c ∈ [Instr.sendJob n, .trellisPostJob n, .reduceJob n, .bindJob n]) :
    exec c s = .next (ctxEnd s j.ctx fcImage) := by
  have hstart (op : Nat) (run : State → TJob → State) : jobStart s n op run = ctxEnd s j.ctx fcImage := by rw [jobStart_ready hready, if_pos hbad]
  simp only [List.mem_cons, List.not_mem_nil, or_false] at hc
  rcases hc with rfl | rfl | rfl | rfl
  · exact congrArg Host.Outcome.next (hstart 1 _)
  · exact congrArg Host.Outcome.next (hstart 2 _)
  · exact congrArg Host.Outcome.next (hstart 3 _)
  · exact congrArg Host.Outcome.next (hstart 4 _)

theorem badJob_runs (hbad : tjBad s j = true) {c : Instr} (hc : c ∈ [Instr.sendJob n, .trellisPostJob n, .reduceJob n, .bindJob n]) :
    ((ctxGet s j.ctx).step.isSome = true → Runs c s fun t => (ctxGet t j.ctx).fault = some 1 ∧ t.mem = s.mem ∧ t.trl = s.trl)
    ∧ ((ctxGet s j.ctx).step = none → Runs c s fun t => t = s) := by
  have hexec := jobStart_faults hready hbad hc
  obtain ⟨-, -, -, hruns, -⟩ := hready
  obtain ⟨honly, -, hset, -⟩ := ctxEnd_sets s j.ctx fcImage
  refine ⟨fun hstep => ⟨_, hexec, ?_, ?_, ?_⟩, fun hnone => ⟨s, hexec.trans (congrArg Host.Outcome.next (if_pos (by simp [hnone]))), rfl⟩⟩
  · rw [hset hstep (Option.isNone_iff_eq_none.mp hruns)]
    rfl
  · rw [honly]
  · rw [honly]

/-! ### Jobs of one packet (R334, R338) -/

/-- The state in which a job of one run sends. -/
def runReady (s : State) (n : Nat) (j : TJob) (r : TxRun) : State := tjSet (jobStarted s n j) n { j with started := true, left := [r] }

theorem oneRun_sends {r : TxRun} {gr : Group} {gen key : Nat} (hgr : groupOf s (tjGroup j) = some gr) (hkey : trlCur s gr = some (gen, key))
    (hlen : r.len ≤ if bit j.bits 1005 then 4096 else 256) (hroom : bufBytes s + 64 + r.len ≤ 2 ^ 23) (hout : outTo s r.dst (tjGroup j) < 1024) :
    Begun n j (jobSend (runReady s n j r) n) ∧ ∃ o, (jobSend (runReady s n j r) n).trl.pending = s.trl.pending ++ [o] ∧ o.dst = r.dst ∧ o.group = tjGroup j
      ∧ o.job = some n ∧ o.seq = mgetD s.trl.txSeq (seqKey r.dst (tjGroup j) gen) 1 ∧ (jobSend (runReady s n j r) n).mem = s.mem := by
  obtain ⟨hj, hon, hstart, hruns, hbefore, hact, hwait⟩ := hready
  let y : TJob := { j with started := true, left := [r] }
  have hy : mget (runReady s n j r).trl.jobs n = some y := mget_mset_same ..
  have hsent := jobSend_jobSent (runReady s n j r) n
  have hbytes : runBytes y r = r.len := Nat.min_eq_left hlen
  have hrun : runNext (runReady s n j r) y = some (0, r) := by
    have hout' : outTo (runReady s n j r) r.dst (tjGroup y) < 1024 := hout
    simp [runNext, y, List.zipIdx, hout']
  have hfits : pktFits (runReady s n j r) r.dst (tjGroup y) (runBytes y r) = true := by
    have hout' : outTo (runReady s n j r) r.dst (tjGroup y) < 1024 := hout
    have hroom' : bufBytes (runReady s n j r) + 64 + r.len ≤ 2 ^ 23 := hroom
    rw [hbytes, pktFits, decide_eq_true hout', decide_eq_true hroom']
    rfl
  have hone : jobPump (runReady s n j r) n 16384 = runSend (runReady s n j r) n y 0 r gen key := by
    rw [jobPump_send hy hruns hrun hgr hkey hfits]
    have hleft : runRest y 0 r = [] := if_pos hbytes
    exact jobPump_done (runSend_job ..) hleft _
  have hlinks := linksDrain_portsOnly (jobPump (runReady s n j r) n 16384)
  obtain ⟨o, hpending, hdst, hgroup, hjob, hseq⟩ := runSend_pending (runReady s n j r) n y 0 r gen key
  refine ⟨hsent.begun hy rfl rfl, o, ?_, hdst, hgroup, hjob, hseq, by rw [hsent.1]; rfl⟩
  unfold jobSend
  rw [hlinks, hone]
  exact hpending

theorem sendJob_runs (hbad : tjBad s j = false) (hop : tjOp j = 1) {gr : Group} {gen key : Nat} (hgr : groupOf s (tjGroup j) = some gr) (hkey : trlCur s gr = some (gen, key))
    (hlen : tjLen j ≤ if bit j.bits 1005 then 4096 else 256) (hroom : bufBytes s + 64 + tjLen j ≤ 2 ^ 23) (hout : outTo s (fld j.bits 1009 1006) (tjGroup j) < 1024) :
    Runs (.sendJob n) s fun t => Begun n j t ∧ ∃ o, t.trl.pending = s.trl.pending ++ [o] ∧ o.dst = fld j.bits 1009 1006 ∧ o.group = tjGroup j ∧ o.job = some n
      ∧ o.seq = mgetD s.trl.txSeq (seqKey (fld j.bits 1009 1006) (tjGroup j) gen) 1 ∧ t.mem = s.mem :=
  ⟨_, congrArg Host.Outcome.next (jobStart_begins hready hbad hop _), oneRun_sends (r := { dst := fld j.bits 1009 1006, src := fld j.bits 984 937, off := tjDst j, len := tjLen j, post := if bit j.bits 808 then some (tjRcnt j) else none })
    hready hgr hkey hlen hroom hout⟩

theorem postJob_runs (hbad : tjBad s j = false) (hop : tjOp j = 2) {gr : Group} {gen key : Nat} (hgr : groupOf s (tjGroup j) = some gr) (hkey : trlCur s gr = some (gen, key))
    (hlen : 0 ≤ if bit j.bits 1005 then 4096 else 256) (hroom : bufBytes s + 64 + 0 ≤ 2 ^ 23) (hout : outTo s (fld j.bits 1009 1006) (tjGroup j) < 1024) :
    Runs (.trellisPostJob n) s fun t => Begun n j t ∧ ∃ o, t.trl.pending = s.trl.pending ++ [o] ∧ o.dst = fld j.bits 1009 1006 ∧ o.group = tjGroup j ∧ o.job = some n
      ∧ o.seq = mgetD s.trl.txSeq (seqKey (fld j.bits 1009 1006) (tjGroup j) gen) 1 ∧ t.mem = s.mem :=
  ⟨_, congrArg Host.Outcome.next (jobStart_begins hready hbad hop _), oneRun_sends (r := { dst := fld j.bits 1009 1006, src := 0, off := 0, len := 0, post := some (tjRcnt j) })
    hready hgr hkey hlen hroom hout⟩

/-! ### REDUCE and BIND (R337, R339) -/

theorem reduceJob_runs (hbad : tjBad s j = false) (hop : tjOp j = 3) : Runs (.reduceJob n) s fun t => Begun n j t
    ∧ t.mem = (partPut (jobStarted s n j) j.part.val (tjWin s j + rdScr j + rdRank s j * rdZ j)
        (partBytes s j.part.val (fld j.bits 984 937 + rdRank s j * rdZ j) (rdChunk j (rdRank s j)))).mem := by
  have hbegin := jobStart_begins hready hbad hop fun u y => jobSend (tjSet (ownCopied u y) n { y with left := rdRuns u y }) n
  refine ⟨_, congrArg Host.Outcome.next hbegin, ?_⟩
  have hmem := ownCopied_mem (jobStarted s n j) { j with started := true }
  have hsame : tjWin (jobStarted s n j) { j with started := true } + rdScr j + rdRank (jobStarted s n j) { j with started := true } * rdZ j
      = tjWin s j + rdScr j + rdRank s j * rdZ j := rfl
  have hbytes : partBytes (jobStarted s n j) j.part.val (fld j.bits 984 937 + rdRank s j * rdZ j) (rdChunk j (rdRank s j))
      = partBytes s j.part.val (fld j.bits 984 937 + rdRank s j * rdZ j) (rdChunk j (rdRank s j)) := rfl
  have hsent := jobSend_jobSent (tjSet (ownCopied (jobStarted s n j) { j with started := true }) n
    { j with started := true, left := rdRuns (jobStarted s n j) { j with started := true } }) n
  refine ⟨hsent.begun (mget_mset_same ..) rfl rfl, ?_⟩
  rw [hsent.1, ← hbytes, ← hsame]
  exact hmem

theorem bindJob_runs (hbad : tjBad s j = false) (hop : tjOp j = 4) {c : Nat} (hc : clusOfLoc (fld j.bits 663 644) = some c) : Runs (.bindJob n) s fun t => Begun n j t
    ∧ mget t.trl.binds (fld j.bits 673 664) = some (cntKey c (fld j.bits 643 635)) ∧ t.mem = s.mem ∧ t.sync = s.sync := by
  have hbegin := jobStart_begins hready hbad hop fun s j => match clusOfLoc (fld j.bits 663 644) with
    | some c => { s with trl := { s.trl with binds := mset s.trl.binds (fld j.bits 673 664) (cntKey c (fld j.bits 643 635)) } }
    | none => s
  rw [hc] at hbegin
  exact ⟨_, congrArg Host.Outcome.next hbegin, ⟨_, mget_mset_same .., rfl, rfl⟩, mget_mset_same .., rfl, rfl⟩

end

theorem stepFlags_spec (s : State) (p : Nat) (fl : BitVec 4) : stepFlags s p fl = { s with car := { s.car with steps := (stepFlags s p fl).car.steps } }
    ∧ ∀ x, mget s.car.steps p = some x → ∃ y, mget (stepFlags s p fl).car.steps p = some y ∧ y.flags = x.flags ||| fl := by
  unfold stepFlags
  cases hx : mget s.car.steps p with
  | none => exact ⟨rfl, fun x h => nomatch h⟩
  | some x =>
    dsimp only
    split
    · next hzero => exact ⟨rfl, fun y hy => ⟨x, hx, by rw [← Option.some.inj hy, hzero, show (0 : BitVec 4) = 0#4 from rfl, BitVec.or_zero]⟩⟩
    · exact ⟨rfl, fun y hy => ⟨_, mget_mset_same .., by rw [← Option.some.inj hy]⟩⟩

/-! ### Contributions combined, and jobs that are over (R339) -/

section
variable {n : Nat} {s : State} {j : TJob} (hj : mget s.trl.jobs n = some j) (hon : trlOn s = true) (hstart : j.started = true) (hruns : tjRuns s j = true)
include hj hon hstart hruns

/-- The contributions to a job's own chunk, member by member. -/
def rdPart (s : State) (j : TJob) (m : Nat) : List Byte := partBytes s j.part.val (tjWin s j + rdScr j + m * rdZ j) (rdChunk j (rdRank s j))

/-- The contributions combined. -/
def rdTotal (s : State) (j : TJob) : List Byte × BitVec 4 := rdSum (fld j.bits 1004 1001) (rdPart s j 0) (((List.range (rdMembers j).length).drop 1).map (rdPart s j))

/-- The combined chunk stands at its place, and its flags in the step. -/
def rdCombined (s : State) (j : TJob) : State :=
  stepFlags (partPut s j.part.val (tjWin s j + (tjDst j + rdRank s j * rdZ j)) (rdTotal s j).1) j.part.val (rdTotal s j).2

omit hj hon hstart hruns in
theorem rdCombined_spec (s : State) (j : TJob) :
    (rdCombined s j).mem = (partPut s j.part.val (tjWin s j + (tjDst j + rdRank s j * rdZ j)) (rdTotal s j).1).mem
    ∧ ∀ x, mget s.car.steps j.part.val = some x → ∃ y, mget (rdCombined s j).car.steps j.part.val = some y ∧ y.flags = x.flags ||| (rdTotal s j).2 := by
  have hput : MemOnly s (partPut s j.part.val (tjWin s j + (tjDst j + rdRank s j * rdZ j)) (rdTotal s j).1) := partPut_memOnly ..
  unfold rdCombined
  generalize rdTotal s j = sum at *
  have hcar : (partPut s j.part.val (tjWin s j + (tjDst j + rdRank s j * rdZ j)) sum.1).car = s.car := by rw [hput]
  generalize partPut s j.part.val (tjWin s j + (tjDst j + rdRank s j * rdZ j)) sum.1 = u at *
  obtain ⟨honly, hflags⟩ := stepFlags_spec u j.part.val sum.2
  rw [hcar] at hflags
  exact ⟨by rw [honly], hflags⟩

/-- The combined chunk for the other members, to be sent. -/
def rdResults (s : State) (j : TJob) : List TxRun :=
  if rdChunk j (rdRank s j) = 0 then []
  else ((rdMembers j).filter fun m => m != ownSlot (rdCombined s j)).map fun m =>
    { dst := m, src := tjWin (rdCombined s j) j + (tjDst j + rdRank s j * rdZ j), off := tjDst j + rdRank s j * rdZ j, len := rdChunk j (rdRank s j), post := some (tjRcnt j + 1) }

theorem reduceCombine_exec (hop : tjOp j = 3) (hcombined : j.combined = false) : exec (.reduceCombine n) s =
    if waitOk (cabGet s (tjRcnt j)) (BitVec.ofNat 32 (rdTarget s j)) then
      .next (jobSend (tjSet (rdCombined s j) n { j with combined := true, left := j.left ++ rdResults s j }) n)
    else .next s := by
  change execReduceCombine n s = _
  unfold execReduceCombine
  rw [hj]
  dsimp only
  by_cases hdone : waitOk (cabGet s (tjRcnt j)) (BitVec.ofNat 32 (rdTarget s j)) = true
  · rw [if_neg (by simp [hon, hstart, hruns, hop, hcombined, hdone]), if_pos hdone]
    rfl
  · rw [if_pos (by simp [hdone]), if_neg hdone]

theorem reduceCombine_runs (hop : tjOp j = 3) (hcombined : j.combined = false) :
    (waitOk (cabGet s (tjRcnt j)) (BitVec.ofNat 32 (rdTarget s j)) = true → Runs (.reduceCombine n) s fun t =>
      (∃ y, mget t.trl.jobs n = some y ∧ y.combined = true)
      ∧ t.mem = (partPut s j.part.val (tjWin s j + (tjDst j + rdRank s j * rdZ j)) (rdTotal s j).1).mem
      ∧ ∀ x, mget s.car.steps j.part.val = some x → ∃ y, mget t.car.steps j.part.val = some y ∧ y.flags = x.flags ||| (rdTotal s j).2)
    ∧ (waitOk (cabGet s (tjRcnt j)) (BitVec.ofNat 32 (rdTarget s j)) = false → Runs (.reduceCombine n) s fun t => t = s) := by
  have hexec := reduceCombine_exec hj hon hstart hruns hop hcombined
  refine ⟨fun hdone => ⟨_, hexec.trans (if_pos hdone), ?_⟩, fun hwait => ⟨s, hexec.trans (if_neg (Bool.eq_false_iff.mp hwait)), rfl⟩⟩
  obtain ⟨hmem, hflags⟩ := rdCombined_spec s j
  have hset : (tjSet (rdCombined s j) n { j with combined := true, left := j.left ++ rdResults s j }).mem = (rdCombined s j).mem
      ∧ (tjSet (rdCombined s j) n { j with combined := true, left := j.left ++ rdResults s j }).car = (rdCombined s j).car := ⟨tjSet_mem .., tjSet_car ..⟩
  have hentry : mget (tjSet (rdCombined s j) n { j with combined := true, left := j.left ++ rdResults s j }).trl.jobs n
      = some { j with combined := true, left := j.left ++ rdResults s j } := mget_mset_same ..
  generalize tjSet (rdCombined s j) n { j with combined := true, left := j.left ++ rdResults s j } = v at *
  have hsent := jobSend_jobSent v n
  obtain ⟨l, hl⟩ := hsent.2 _ hentry
  have hkept : (jobSend v n).mem = v.mem ∧ (jobSend v n).car = v.car := by
    rw [hsent.1]
    exact ⟨rfl, rfl⟩
  refine ⟨⟨_, hl, rfl⟩, (hkept.1.trans hset.1).trans hmem, ?_⟩
  rw [hkept.2, hset.2]
  exact hflags

/-- The targets are off the counters of a REDUCE. -/
def targetsTaken (s : State) (j : TJob) : State :=
  let u := cabSet s (tjRcnt j) (cabGet s (tjRcnt j) - BitVec.ofNat 32 (rdTarget s j))
  cabSet u (tjRcnt j + 1) (cabGet u (tjRcnt j + 1) - BitVec.ofNat 32 (rdTarget' u j))

omit hj hon hstart hruns in
theorem targetsTaken_spec (s : State) (j : TJob) : targetsTaken s j = { s with trl := { s.trl with cabinet := (targetsTaken s j).trl.cabinet } }
    ∧ cabGet (targetsTaken s j) (tjRcnt j) = cabGet s (tjRcnt j) - BitVec.ofNat 32 (rdTarget s j)
    ∧ cabGet (targetsTaken s j) (tjRcnt j + 1) = cabGet s (tjRcnt j + 1) - BitVec.ofNat 32 (rdTarget' s j) := by
  unfold targetsTaken
  extract_lets u
  have hu : cabGet u (tjRcnt j) = cabGet s (tjRcnt j) - BitVec.ofNat 32 (rdTarget s j) ∧ cabGet u (tjRcnt j + 1) = cabGet s (tjRcnt j + 1)
      ∧ rdTarget' u j = rdTarget' s j := ⟨cabGet_cabSet .., cabGet_cabSet_ne _ _ (by omega), rfl⟩
  refine ⟨rfl, ?_, ?_⟩
  · rw [cabGet_cabSet_ne _ _ (by omega)]
    exact hu.1
  · rw [cabGet_cabSet, hu.2.1, hu.2.2]

/-- A job that is over: its targets taken, and its entry gone. -/
def jobOver (s : State) (n : Nat) (j : TJob) : State :=
  let s := if tjOp j == 3 then targetsTaken s j else s
  { s with trl := { s.trl with jobs := mdel s.trl.jobs n } }

omit hj hon hstart hruns in
theorem jobOver_spec (s : State) (n : Nat) (j : TJob) :
    jobOver s n j = { s with trl := { s.trl with cabinet := (jobOver s n j).trl.cabinet, jobs := mdel s.trl.jobs n } }
    ∧ (tjOp j ≠ 3 → (jobOver s n j).trl.cabinet = s.trl.cabinet)
    ∧ (tjOp j = 3 → cabGet (jobOver s n j) (tjRcnt j) = cabGet s (tjRcnt j) - BitVec.ofNat 32 (rdTarget s j)
      ∧ cabGet (jobOver s n j) (tjRcnt j + 1) = cabGet s (tjRcnt j + 1) - BitVec.ofNat 32 (rdTarget' s j)) := by
  obtain ⟨honly, hown, hrest⟩ := targetsTaken_spec s j
  unfold jobOver
  by_cases hop : tjOp j = 3
  · rw [if_pos (by simp [hop])]
    refine ⟨?_, fun hne => absurd hop hne, fun _ => ⟨hown, hrest⟩⟩
    dsimp only
    rw [honly]
  · rw [if_neg (by simp [hop])]
    exact ⟨rfl, fun _ => rfl, fun h => absurd h hop⟩

theorem trellisJobComplete_exec (hleft : j.left = []) (hpending : ∀ o, o ∈ s.trl.pending → o.job ≠ some n)
    (hin : tjOp j ≠ 3 ∨ j.combined = true ∧ waitOk (cabGet s (tjRcnt j + 1)) (BitVec.ofNat 32 (rdTarget' s j)) = true) :
    exec (.trellisJobComplete n) s = .next (if bit j.bits 719 then
      locPost (jobOver s n j) j.part.val (fld j.bits 718 699) (fld j.bits 698 690) (BitVec.ofNat 32 (fld j.bits 689 674)) else jobOver s n j) := by
  have hnone : (s.trl.pending.any fun o => o.job == some n) = false := List.any_eq_false.mpr fun o ho => by simpa using hpending o ho
  change execTrellisJobComplete n s = _
  unfold execTrellisJobComplete
  rw [hj]
  dsimp only
  refine (if_neg ?_).trans rfl
  rcases hin with hop | ⟨hcombined, hwait⟩
  · simp [hon, hstart, hruns, hleft, hnone, hop]
  · simp [hon, hstart, hruns, hleft, hnone, hcombined, hwait]

theorem trellisJobComplete_runs (hleft : j.left = []) (hpending : ∀ o, o ∈ s.trl.pending → o.job ≠ some n)
    (hin : tjOp j ≠ 3 ∨ j.combined = true ∧ waitOk (cabGet s (tjRcnt j + 1)) (BitVec.ofNat 32 (rdTarget' s j)) = true) :
    Runs (.trellisJobComplete n) s fun t => mget t.trl.jobs n = none ∧ t.mem = s.mem
      ∧ (tjOp j ≠ 3 → t.trl.cabinet = s.trl.cabinet)
      ∧ (tjOp j = 3 → cabGet t (tjRcnt j) = cabGet s (tjRcnt j) - BitVec.ofNat 32 (rdTarget s j)
          ∧ cabGet t (tjRcnt j + 1) = cabGet s (tjRcnt j + 1) - BitVec.ofNat 32 (rdTarget' s j))
      ∧ (bit j.bits 719 = false → t.sync = s.sync)
      ∧ ∀ c, bit j.bits 719 = true → clusOfLoc (fld j.bits 718 699) = some c → clusOn s c = true → quadOwner s (clusQuad c) = j.part.val →
          cntValue (cntGet t c (fld j.bits 698 690)) = cntValue (cntGet s c (fld j.bits 698 690)) + BitVec.ofNat 32 (fld j.bits 689 674) := by
  have hexec := trellisJobComplete_exec hj hon hstart hruns hleft hpending hin
  obtain ⟨honly, hkept, htaken⟩ := jobOver_spec s n j
  have hover : mget (jobOver s n j).trl.jobs n = none ∧ (jobOver s n j).mem = s.mem ∧ (jobOver s n j).sync = s.sync
      ∧ ∀ c, clusOn (jobOver s n j) c = clusOn s c ∧ quadOwner (jobOver s n j) (clusQuad c) = quadOwner s (clusQuad c) := by
    rw [honly]
    exact ⟨(mget_mdel ..).trans (if_pos rfl), rfl, rfl, fun c => ⟨rfl, rfl⟩⟩
  obtain ⟨hgone, hmem, hsync, hclus⟩ := hover
  generalize jobOver s n j = u at *
  by_cases hpost : bit j.bits 719 = true
  · refine ⟨_, hexec.trans (congrArg Host.Outcome.next (if_pos hpost)), ?_⟩
    have hlp := locPost_postOnly u j.part.val (fld j.bits 718 699) (fld j.bits 698 690) (BitVec.ofNat 32 (fld j.bits 689 674))
    have htrl : (locPost u j.part.val (fld j.bits 718 699) (fld j.bits 698 690) (BitVec.ofNat 32 (fld j.bits 689 674))).trl = u.trl
        ∧ (locPost u j.part.val (fld j.bits 718 699) (fld j.bits 698 690) (BitVec.ofNat 32 (fld j.bits 689 674))).mem = u.mem := by
      rw [hlp]
      exact ⟨rfl, rfl⟩
    have hcab := cabGet_of_cabinet (congrArg TrellisS.cabinet htrl.1)
    refine ⟨by rw [htrl.1]; exact hgone, htrl.2.trans hmem, fun hop => by rw [htrl.1]; exact hkept hop, fun hop => ?_, fun hno => absurd hpost (by simp [hno]),
      fun c _ hc hclusOn howner => ?_⟩
    · rw [hcab, hcab]
      exact htaken hop
    · have hvalue := (cntPost_own (s := u) (d := c) ((hclus c).1.trans hclusOn) (fld j.bits 698 690) (BitVec.ofNat 32 (fld j.bits 689 674))).2.1
      rw [(hclus c).2, howner] at hvalue
      rw [locPost_cluster u hc, hvalue, cntGet, hsync, ← cntGet]
  · refine ⟨u, hexec.trans (congrArg Host.Outcome.next (if_neg hpost)), hgone, hmem, hkept, htaken, fun _ => hsync, fun c hyes => absurd hyes hpost⟩

end

/-- Settles O31: jobs that begin by the equation of `jobStart`, and combine and end by those of their commands. -/
theorem trellisJobsStartCombineAndComplete : Obligations.TrellisJobsStartCombineAndComplete := by
  intro n s j
  refine ⟨fun hready => ⟨fun hbad c hc => badJob_runs hready hbad hc, fun hbad => ⟨?_, ?_, reduceJob_runs hready hbad, fun c hop hc => bindJob_runs hready hbad hop hc⟩⟩,
    fun hj hon hstart hruns => ⟨reduceCombine_runs hj hon hstart hruns, trellisJobComplete_runs hj hon hstart hruns⟩⟩
  · exact fun hop gr gen key hgr hkey hlen hroom hout => sendJob_runs hready hbad hop hgr hkey hlen hroom hout
  · exact fun hop gr gen key hgr hkey hlen hroom hout => postJob_runs hready hbad hop hgr hkey hlen hroom hout

end Sys2Proof.Machine
end

section
/-! SUPPORT. O26, O27: video sessions and the commands on them (R296 to R301, R306, R310 to R314, R488). -/

namespace Sys2Proof.Machine

open Sys2Proof Sys2Proof.Claims

/-! ### Video completions (R302, R303) -/

/-- The fields of the entry that says a video completion. -/
theorem fld_vComplBits (s : State) (c : VCompl) :
    fld (vComplBits s c) 254 251 = c.kind % 16 ∧ fld (vComplBits s c) 250 243 = c.status % 256 ∧ fld (vComplBits s c) 242 227 = c.session % 65536
    ∧ fld (vComplBits s c) 226 163 = c.tag.toNat := by
  have hflag (x : Bool) (n : Nat) : (if x then 2 ^ n else 0 : Nat) ≤ 2 ^ n := by
    split
    · exact le_rfl
    · exact Nat.zero_le _
  have hn : ∃ r, r < 2 ^ 163 ∧ (vComplBits s c).toNat = c.kind % 16 * 2 ^ 251 + c.status % 256 * 2 ^ 243 + c.session % 65536 * 2 ^ 227 + c.tag.toNat * 2 ^ 163 + r := by
    have htag := c.tag.isLt
    have hcrop := c.crop.isLt
    have h₁ := hflag c.tainted 108
    have h₂ := hflag c.key 107
    have h₃ := hflag c.skip 106
    have h₄ := hflag c.late 105
    refine ⟨c.slot % 64 * 2 ^ 157 + c.value % 2 ^ 32 * 2 ^ 125 + min c.concealed 65535 * 2 ^ 109 + (if c.tainted then 2 ^ 108 else 0) + (if c.key then 2 ^ 107 else 0)
      + (if c.skip then 2 ^ 106 else 0) + (if c.late then 2 ^ 105 else 0) + s.clk.timebase.toNat % 2 ^ 48 * 2 ^ 57 + c.crop.toNat * 2 ^ 25 + c.qp % 64 * 2 ^ 19, ?_, ?_⟩
    · omega
    · rw [vComplBits, BitVec.toNat_ofNat]
      dsimp only
      omega
  obtain ⟨r, hr, hn⟩ := hn
  have htag := c.tag.isLt
  simp only [fld, nfld, Nat.shiftRight_eq_div_pow, hn]
  refine ⟨?_, ?_, ?_, ?_⟩ <;> omega

theorem vPush_issueOnly (s : State) (f : Vf) (c : VCompl) : IssueOnly s (vPush s f c) := complPush_issueOnly (.inl rfl)

theorem vPush_zoe (s : State) (f : Vf) (c : VCompl) : (vPush s f c).zoe = s.zoe := by rw [(vPush_issueOnly s f c).1]

/-- A ring with room takes a video completion at once. -/
theorem vPush_tells {s : State} {f : Vf} (hroom : RingRoom s f.val 8) (c : VCompl) :
    VTells s (vPush s f c) f (c.kind % 16) (c.status % 256) c.session c.tag := by
  obtain ⟨hkind, hstatus, hsession, htag⟩ := fld_vComplBits s c
  obtain ⟨-, new, i, e, hout, hmem, hfields⟩ := complWrite_sends (s := s) (f := f.val + 1) (c := 8) (e := vComplBits s c) (.inl rfl)
  refine ⟨new, i, e, by rw [vPush, complPush_room hroom, hout], by simpa using hmem, ?_, ?_, ?_, ?_⟩
  · rw [hfields _ _ (by decide) (by decide), hkind]
  · rw [hfields _ _ (by decide) (by decide), hstatus]
  · rw [hfields _ _ (by decide) (by decide), hsession]
  · rw [hfields _ _ (by decide) (by decide), htag]

/-! ### The command doorbell (R296, R488) -/

/-- Commands that a doorbell takes. -/
def videoEntries (s : State) (f : Vf) (d : Nat) : List ZTaken :=
  (List.range d).map fun i => { f := f, entry := mgetD (fnGet s (f.val + 1)).zMem (((fnGet s (f.val + 1)).zq.tail + i) % 256) 0, takenAt := s.clk.now }

/-- The tail of the command queue stored, and its commands taken. -/
def videoTaken (s : State) (f : Vf) (d : Nat) : State :=
  let x := fnGet s (f.val + 1)
  let s' := fnSet s (f.val + 1) { x with zq := { x.zq with tail := (x.zq.tail + d) % 65536, head := (x.zq.tail + d) % 65536 } }
  { s' with zoe := { s'.zoe with taken := s'.zoe.taken ++ videoEntries s f d } }

theorem videoTaken_spec (s : State) (f : Vf) (d : Nat) : (videoTaken s f d).zoe = { s.zoe with taken := s.zoe.taken ++ videoEntries s f d }
    ∧ (fnGet (videoTaken s f d) (f.val + 1)).zq.tail = ((fnGet s (f.val + 1)).zq.tail + d) % 65536 ∧ (videoTaken s f d).car = s.car :=
  ⟨rfl, congrArg (fun x => x.zq.tail) (fnGet_fnSet s (f.val + 1) _), rfl⟩

/-- The step of a command doorbell. -/
def videoStep (s : State) (f : Vf) (v : Nat) : Nat × Bool :=
  bellStep (fnGet s (f.val + 1)).zq.tail (256 - ((fnGet s (f.val + 1)).zq.tail + 65536 - (fnGet s (f.val + 1)).zq.head) % 65536) v

theorem zoetropeDoorbell_runs {f : Vf} (v : W32) {s : State} (hbar : barOn s (f.val + 1) = true) :
    let x := fnGet s (f.val + 1)
    let d := bellStep x.zq.tail (256 - (x.zq.tail + 65536 - x.zq.head) % 65536) v.toNat
    ((cqGet x 8).log2 ≠ 0 → bellOk s f = true → Runs (.zoetropeDoorbell f v) s fun t =>
      t.zoe = { s.zoe with taken := s.zoe.taken ++ (List.range d.1).map fun i => { f := f, entry := mgetD x.zMem ((x.zq.tail + i) % 256) 0, takenAt := s.clk.now } }
      ∧ (fnGet t (f.val + 1)).zq.tail = (x.zq.tail + d.1) % 65536 ∧ t.car = s.car)
    ∧ ((cqGet x 8).log2 = 0 ∨ bellOk s f = false → Runs (.zoetropeDoorbell f v) s fun t =>
        (fnGet t (f.val + 1)).discards = min (x.discards + 1) (2 ^ 32 - 1) ∧ t = { s with pcie := t.pcie }) := by
  have hon : ¬ (!barOn s (f.val + 1)) = true := by simp [hbar]
  refine ⟨fun hlog hok => ?_, fun h => ?_⟩
  · have htakes : ¬ ((cqGet (fnGet s (f.val + 1)) 8).log2 = 0 ∨ (!bellOk s f) = true) := by simp [hlog, hok]
    have hbell : bellVideo s f v.toNat = clampIf (videoTaken s f (videoStep s f v.toNat).1) (f.val + 1) (videoStep s f v.toNat).2 := by
      rw [bellVideo, if_neg hon]
      exact (if_neg htakes).trans rfl
    refine ⟨_, congrArg Host.Outcome.next hbell, ?_⟩
    obtain ⟨hzoe, htail, hcar⟩ := videoTaken_spec s f (videoStep s f v.toNat).1
    generalize videoTaken s f (videoStep s f v.toNat).1 = u at *
    obtain ⟨honly, hfn⟩ := clampIf_spec u (f.val + 1) (videoStep s f v.toNat).2
    generalize clampIf u (f.val + 1) (videoStep s f v.toNat).2 = t at *
    refine ⟨?_, ?_, ?_⟩
    · rw [honly]
      exact hzoe
    · rw [hfn]
      exact htail
    · rw [honly]
      exact hcar
  · have hbell : bellVideo s f v.toNat = discard s (f.val + 1) := by
      rw [bellVideo, if_neg hon]
      exact if_pos (h.imp_right fun h => by simp [h])
    exact ⟨_, congrArg Host.Outcome.next hbell, discard_spec ..⟩

/-! ### Sessions by number (R296) -/

theorem vGet_vPush (s : State) (f : Vf) (c : VCompl) (n : Nat) : vGet (vPush s f c) n = vGet s n := by rw [vGet, vPush_zoe, ← vGet]

theorem zNamed_spec {s : State} {k : ZTaken} {n : Nat} {v : VSession} (h : zNamed s k = some (n, v)) : vGet s n = some v ∧ v.f = k.f ∧ vId s n = zSess k.entry := by
  unfold zNamed at h
  dsimp only at h
  cases hv : vGet s (zSess k.entry / 64) with
  | none => rw [hv] at h; cases h
  | some v' =>
    rw [hv] at h
    dsimp only at h
    split at h
    · next hown =>
      obtain ⟨rfl, rfl⟩ := Prod.mk.inj (Option.some.inj h)
      exact ⟨hv, hown⟩
    · cases h

section
variable {s : State} {op i : Nat} {k : ZTaken} (hpick : zPick s op = some (i, k)) (bad : VSession → W512 → Bool) (go : State → Nat → VSession → ZTaken → State)
include hpick

theorem zCommand_stale (hnone : zNamed s k = none) : zCommand s op bad go = zRefuse (zDrop s i) k 5 := by
  have h : zNamed (zDrop s i) k = none := hnone
  unfold zCommand
  rw [hpick]
  dsimp only
  rw [h]

theorem zCommand_bad {n : Nat} {v : VSession} (hnamed : zNamed s k = some (n, v)) (hbad : bad v k.entry = true) : zCommand s op bad go = zRefuse (zDrop s i) k 6 := by
  have h : zNamed (zDrop s i) k = some (n, v) := hnamed
  unfold zCommand
  rw [hpick]
  dsimp only
  rw [h]
  exact if_pos hbad

theorem zCommand_go {n : Nat} {v : VSession} (hnamed : zNamed s k = some (n, v)) (hok : bad v k.entry = false) : zCommand s op bad go = go (zDrop s i) n v k := by
  have h : zNamed (zDrop s i) k = some (n, v) := hnamed
  unfold zCommand
  rw [hpick]
  dsimp only
  rw [h]
  exact if_neg (by simp [hok])

end

/-- A command refused is taken from the queue and told so, and no session changes. -/
theorem zRefuse_tells {s : State} {k : ZTaken} (hroom : RingRoom s k.f.val 8) (i : Nat) {st : Nat} (hst : st < 256) :
    VTells s (zRefuse (zDrop s i) k st) k.f 6 st (zSess k.entry) (zTag k.entry)
    ∧ (zRefuse (zDrop s i) k st).zoe = { s.zoe with taken := s.zoe.taken.eraseIdx i } := by
  have htell := vPush_tells (s := zDrop s i) hroom { kind := 6, status := st, session := zSess k.entry, tag := zTag k.entry }
  rw [show (⟨6, st, zSess k.entry, zTag k.entry, 0, 0, 0, false, false, false, false, 0, 0⟩ : VCompl).status % 256 = st from Nat.mod_eq_of_lt hst] at htell
  exact ⟨htell, vPush_zoe ..⟩

/-! ### OPEN (R296 to R299) -/

theorem openStatus_lt (s : State) (p : Nat) (d : BitVec 1024) : openStatus s p d < 256 := by
  have hite {c : Prop} [Decidable c] {a b : Nat} (ha : a < 256) (hb : b < 256) : (if c then a else b) < 256 := by
    split
    · exact ha
    · exact hb
  exact hite (by decide) (hite (by decide) (hite (by decide) (hite (by decide) (by decide))))

/-- The descriptor that an OPEN names. -/
def openDesc (s : State) (k : ZTaken) : BitVec 1024 := BitVec.ofNat 1024 (partNat s k.f.val (zAddr k.entry) 128)

/-- The lowest free number of the descriptor's kind. -/
def openFree (s : State) (k : ZTaken) : Option Nat :=
  ((List.range (if vdEnc (openDesc s k) then 64 else 512)).map ((if vdEnc (openDesc s k) then 512 else 0) + ·)).find? fun n => (vGet s n).isNone

/-- A session opened. -/
def sessionOpened (s : State) (i n : Nat) (k : ZTaken) : State :=
  let u := vSet (zDrop s i) n { f := k.f, desc := openDesc s k }
  { u with zoe := { u.zoe with releases := mset u.zoe.releases n 0 } }

section
variable {s : State} {i : Nat} {k : ZTaken} (hpick : zPick s 1 = some (i, k))
include hpick

theorem openSession_illegal (hlegal : zLegal k.entry = false) : exec .openSession s = .next (zRefuse (zDrop s i) k 6) := by
  change execOpenSession s = _
  unfold execOpenSession
  rw [hpick]
  exact if_pos (by simp [hlegal])

variable (hlegal : zLegal k.entry = true)
include hlegal

theorem openSession_fails (hst : openStatus s k.f.val (openDesc s k) ≠ 0) : exec .openSession s = .next (zRefuse (zDrop s i) k (openStatus s k.f.val (openDesc s k))) := by
  change execOpenSession s = _
  unfold execOpenSession
  rw [hpick]
  exact (if_neg (by simp [hlegal])).trans (if_pos hst)

variable (hst : openStatus s k.f.val (openDesc s k) = 0)
include hst

theorem openSession_full (hfree : openFree s k = none) : exec .openSession s = .next (zRefuse (zDrop s i) k 2) := by
  change execOpenSession s = _
  unfold execOpenSession
  rw [hpick]
  refine (if_neg (by simp [hlegal])).trans ((if_neg (not_not.mpr hst)).trans ?_)
  have hfree' : ((List.range (if vdEnc (openDesc s k) then 64 else 512)).map ((if vdEnc (openDesc s k) then 512 else 0) + ·)).find?
      (fun n => (vGet (zDrop s i) n).isNone) = none := hfree
  extract_lets lo cnt
  rw [show ((List.range cnt).map (lo + ·)).find? (fun n => (vGet (zDrop s i) n).isNone) = none from hfree']

theorem openSession_opens {n : Nat} (hfree : openFree s k = some n) :
    exec .openSession s = .next (vPush (sessionOpened s i n k) k.f { kind := 0, session := vId (sessionOpened s i n k) n, tag := zTag k.entry }) := by
  change execOpenSession s = _
  unfold execOpenSession
  rw [hpick]
  refine (if_neg (by simp [hlegal])).trans ((if_neg (not_not.mpr hst)).trans ?_)
  have hfree' : ((List.range (if vdEnc (openDesc s k) then 64 else 512)).map ((if vdEnc (openDesc s k) then 512 else 0) + ·)).find?
      (fun n => (vGet (zDrop s i) n).isNone) = some n := hfree
  extract_lets lo cnt
  rw [show ((List.range cnt).map (lo + ·)).find? (fun n => (vGet (zDrop s i) n).isNone) = some n from hfree']
  rfl

theorem openSession_runs (hroom : RingRoom s k.f.val 8) {n : Nat} (hfree : openFree s k = some n) : Runs .openSession s fun t =>
    VTells s t k.f 0 0 (vId s n) (zTag k.entry) ∧ vGet t n = some { f := k.f, desc := openDesc s k } ∧ mget t.zoe.releases n = some 0 ∧ ∀ m, m ≠ n → vGet t m = vGet s m := by
  refine ⟨_, openSession_opens hpick hlegal hst hfree, ?_⟩
  have htell := vPush_tells (s := sessionOpened s i n k) hroom { kind := 0, session := vId (sessionOpened s i n k) n, tag := zTag k.entry }
  have hzoe := vPush_zoe (sessionOpened s i n k) k.f { kind := 0, session := vId (sessionOpened s i n k) n, tag := zTag k.entry }
  refine ⟨htell, ?_, ?_, fun m hm => ?_⟩
  · rw [vGet, hzoe]
    exact mget_mset_same ..
  · rw [hzoe]
    exact mget_mset_same ..
  · rw [vGet, hzoe]
    exact mget_mset_ne _ _ hm

end

/-! ### FLUSH and CLOSE (R314) -/

/-- Command `c` on a session runs as its row takes it. -/
theorem flush_exec (s : State) : exec .flush s = .next (zCommand s 6 (fun _ _ => false) fun s n v t => vFlushed (vSet s n (flushUnits v (zTag t.entry))) n) := rfl

theorem close_exec (s : State) : exec .close s = .next (zCommand s 7 (fun _ _ => false) fun s n _ t => sessionEnd s n 16 (zTag t.entry) true) := rfl

theorem vFlushed_spec {s : State} {n : Nat} {w : VSession} (hw : vGet s n = some w) :
    vGet (vFlushed s n) n = some { w with flushing := w.flushing.dropWhile (flushOver w) }
    ∧ (w.flushing.takeWhile (flushOver w) = [] → vFlushed s n = s)
    ∧ ∀ x, w.flushing.takeWhile (flushOver w) = [x] → vFlushed s n = vPush (vSet s n { w with flushing := w.flushing.dropWhile (flushOver w) }) w.f
        { kind := 4, session := vId s n, tag := x.tag } := by
  unfold vFlushed
  rw [hw]
  dsimp only
  by_cases hnone : w.flushing.takeWhile (flushOver w) = []
  · have hall : w.flushing.dropWhile (flushOver w) = w.flushing := by
      have h := List.takeWhile_append_dropWhile (p := flushOver w) (l := w.flushing)
      rw [hnone, List.nil_append] at h
      exact h
    rw [if_pos hnone, hall]
    exact ⟨hw, fun _ => rfl, fun x hx => nomatch hnone.symm.trans hx⟩
  · rw [if_neg hnone]
    refine ⟨?_, fun h => absurd h hnone, fun x hx => by rw [hx]; rfl⟩
    have hzoe := each_rel (R := fun s t => t.zoe = s.zoe) (f := fun u (x : VFlush) => vPush u w.f { kind := 4, session := vId u n, tag := x.tag }) (fun _ => rfl)
      (fun h k => k.trans h) (fun s x => vPush_zoe ..) (w.flushing.takeWhile (flushOver w)) (vSet s n { w with flushing := w.flushing.dropWhile (flushOver w) })
    rw [vGet, hzoe, ← vGet]
    exact vGet_vSet ..

section
variable {s : State} {i : Nat} {k : ZTaken} {n : Nat} {v : VSession}

theorem flush_runs (hpick : zPick s 6 = some (i, k)) (hroom : RingRoom s k.f.val 8) (hnamed : zNamed s k = some (n, v)) :
    let w := flushUnits v (zTag k.entry)
    let ended := w.flushing.takeWhile (flushOver w)
    Runs .flush s fun t => vGet t n = some { w with flushing := w.flushing.dropWhile (flushOver w) }
      ∧ (ended ≠ [] → v.flushing = [] → VTells s t k.f 4 0 (vId s n) (zTag k.entry)) ∧ (ended = [] → t.out = s.out) := by
  intro w ended
  obtain ⟨-, hf, -⟩ := zNamed_spec hnamed
  have hgo := zCommand_go hpick (fun _ _ => false) (fun s n v t => vFlushed (vSet s n (flushUnits v (zTag t.entry))) n) hnamed rfl
  refine ⟨vFlushed (vSet (zDrop s i) n w) n, (flush_exec s).trans (congrArg Host.Outcome.next hgo), ?_⟩
  have hset : vGet (vSet (zDrop s i) n w) n = some w := vGet_vSet ..
  obtain ⟨hget, hnone, hone⟩ := vFlushed_spec hset
  refine ⟨hget, fun hended hfirst => ?_, fun hended => by rw [hnone hended]; rfl⟩
  have hflushing : w.flushing = [{ tag := zTag k.entry, units := v.nextUnit, pics := v.encoded + v.inputs.length }] := by
    change v.flushing ++ _ = _
    rw [hfirst]
    rfl
  have hended' : ended = w.flushing := by
    unfold ended at hended ⊢
    rw [hflushing] at hended ⊢
    by_cases hover : flushOver w { tag := zTag k.entry, units := v.nextUnit, pics := v.encoded + v.inputs.length } = true
    · rw [List.takeWhile_cons_of_pos hover, List.takeWhile_nil]
    · exact absurd (List.takeWhile_cons_of_neg hover) hended
  rw [hone _ (hended'.trans hflushing)]
  have hown : w.f = k.f := hf
  have hroom' : RingRoom s w.f.val 8 := by rw [hown]; exact hroom
  have htell := vPush_tells (s := vSet (vSet (zDrop s i) n w) n { w with flushing := w.flushing.dropWhile (flushOver w) }) (f := w.f) hroom'
    { kind := 4, session := vId (vSet (zDrop s i) n w) n, tag := zTag k.entry }
  rw [← hown]
  exact htell

/-- A session that ends tells so last, and its number's generation advances (R314). -/
theorem close_runs (hpick : zPick s 7 = some (i, k)) (hroom : RingRoom s k.f.val 8) (hnamed : zNamed s k = some (n, v)) :
    Runs .close s fun t => VTells s t k.f 5 (if v.accessErr then 19 else 16) (vId s n) (zTag k.entry)
      ∧ vGet t n = none ∧ mget t.zoe.gens n = some ((mgetD s.zoe.gens n 0 + 1) % 64) ∧ mget t.zoe.releases n = none ∧ ∀ m, m ≠ n → vGet t m = vGet s m := by
  obtain ⟨hv, hf, -⟩ := zNamed_spec hnamed
  let u : State := { zDrop s i with zoe := { (zDrop s i).zoe with
    sessions := mdel s.zoe.sessions n, gens := mset s.zoe.gens n ((mgetD s.zoe.gens n 0 + 1) % 64)
    entropy := s.zoe.entropy.filter fun x => x.2 != n, releases := mdel s.zoe.releases n } }
  have hgo := zCommand_go hpick (fun _ _ => false) (fun s n _ t => sessionEnd s n 16 (zTag t.entry) true) hnamed rfl
  have hend : sessionEnd (zDrop s i) n 16 (zTag k.entry) true = vPush u v.f { kind := 5, status := if v.accessErr then 19 else 16, session := vId s n, tag := zTag k.entry } := by
    have hv' : vGet (zDrop s i) n = some v := hv
    unfold sessionEnd
    rw [hv']
    rfl
  refine ⟨_, (close_exec s).trans (congrArg Host.Outcome.next (hgo.trans hend)), ?_⟩
  rw [hf]
  have htell := vPush_tells (s := u) (f := k.f) hroom { kind := 5, status := if v.accessErr then 19 else 16, session := vId s n, tag := zTag k.entry }
  have hzoe := vPush_zoe u k.f { kind := 5, status := if v.accessErr then 19 else 16, session := vId s n, tag := zTag k.entry }
  have hst : (if v.accessErr = true then 19 else 16) % 256 = if v.accessErr = true then 19 else 16 := by split <;> rfl
  rw [show (⟨5, if v.accessErr = true then 19 else 16, vId s n, zTag k.entry, 0, 0, 0, false, false, false, false, 0, 0⟩ : VCompl).status % 256 = _ from hst] at htell
  refine ⟨htell, ?_, ?_, ?_, fun m hm => ?_⟩
  · rw [vGet, hzoe]
    exact (mget_mdel ..).trans (if_pos rfl)
  · rw [hzoe]
    exact mget_mset_same ..
  · rw [hzoe]
    exact (mget_mdel ..).trans (if_pos rfl)
  · rw [vGet, hzoe]
    exact (mget_mdel ..).trans (if_neg hm)

/-- A command on a stale session is refused. -/
theorem stale_runs {op : Nat} {bad : VSession → W512 → Bool} {go : State → Nat → VSession → ZTaken → State} {c : Instr} (hpick : zPick s op = some (i, k))
    (hexec : exec c s = .next (zCommand s op bad go)) (hroom : RingRoom s k.f.val 8) (hnone : zNamed s k = none) :
    Runs c s fun t => VTells s t k.f 6 5 (zSess k.entry) (zTag k.entry) ∧ t.zoe.sessions = s.zoe.sessions := by
  obtain ⟨htell, hzoe⟩ := zRefuse_tells hroom i (st := 5) (by decide)
  exact ⟨_, hexec.trans (congrArg Host.Outcome.next (zCommand_stale hpick bad go hnone)), htell, by rw [hzoe]⟩

end

/-- Settles O26: the doorbell, and each outcome of OPEN, FLUSH and CLOSE. -/
theorem videoSessionsOpenFlushAndClose : Obligations.VideoSessionsOpenFlushAndClose := by
  refine ⟨fun f v s hbar => zoetropeDoorbell_runs v hbar, fun s i k hpick hroom => ?_, fun s i k hpick hroom => ⟨stale_runs hpick (flush_exec s) hroom, fun n v hnamed => flush_runs hpick hroom hnamed⟩,
    fun s i k hpick hroom => ⟨stale_runs hpick (close_exec s) hroom, fun n v hnamed => close_runs hpick hroom hnamed⟩⟩
  exact ⟨fun hlegal => ⟨_, openSession_illegal hpick hlegal, zRefuse_tells hroom i (by decide)⟩,
    fun hlegal hst => ⟨_, openSession_fails hpick hlegal hst, zRefuse_tells hroom i (openStatus_lt ..)⟩,
    fun hlegal hst hfree => ⟨_, openSession_full hpick hlegal hst hfree, zRefuse_tells hroom i (by decide)⟩,
    fun n hlegal hst hfree => openSession_runs hpick hlegal hst hroom hfree⟩

end Sys2Proof.Machine
end

section
/-! SUPPORT. O27: FEED, ENCODE, KEY, RELEASE and posts to release counters (R300, R301, R306, R310, R313). -/

namespace Sys2Proof.Machine

open Sys2Proof Sys2Proof.Claims

/-! ### Release counters (R306) -/

/-- Pictures released: the session's counter, and its held pictures. -/
def videoReleased (s : State) (n : Nat) (v : VSession) (amt : W32) : State :=
  { s with zoe := { s.zoe with releases := mset s.zoe.releases n (mgetD s.zoe.releases n 0 + amt), sessions := mset s.zoe.sessions n (releaseHeld v amt.toNat) } }

section
variable {s : State} {n p : Nat} {v : VSession} (hv : vGet s n = some v) (hn : n < 512) (hf : v.f.val = p) (hdec : vdEnc v.desc = false)
include hv hn hf hdec

theorem releasePost_held (amt : W32) : releasePost s p n amt =
    if amt.toNat > (heldSlots v).length then bumpBy (videoReleased s n v amt) 0x7017 (p + 1) 32 (amt.toNat - (heldSlots v).length) else videoReleased s n v amt := by
  have hdec' : vDecodes v = true := by
    change (!vdEnc v.desc) = true
    rw [hdec]
    rfl
  have hget : (if n < 512 then mget s.zoe.sessions n else none) = some v := (if_pos hn).trans hv
  unfold releasePost
  rw [hget]
  exact if_pos ⟨hf, hdec'⟩

theorem releasePost_spec (amt : W32) : let t := releasePost s p n amt
    mgetD t.zoe.releases n 0 = mgetD s.zoe.releases n 0 + amt ∧ vGet t n = some (releaseHeld v amt.toNat) ∧ (∀ m, m ≠ n → vGet t m = vGet s m)
    ∧ odGet t 0x7017 (p + 1) = if (heldSlots v).length < amt.toNat then min (odGet s 0x7017 (p + 1) + (amt.toNat - (heldSlots v).length)) (2 ^ 32 - 1)
      else odGet s 0x7017 (p + 1) := by
  intro t
  have ht : t = if amt.toNat > (heldSlots v).length then bumpBy (videoReleased s n v amt) 0x7017 (p + 1) 32 (amt.toNat - (heldSlots v).length)
      else videoReleased s n v amt := releasePost_held hv hn hf hdec amt
  have hzoe : t.zoe = (videoReleased s n v amt).zoe := by
    rw [ht]
    split
    · rfl
    · rfl
  have hod : odGet (videoReleased s n v amt) 0x7017 (p + 1) = odGet s 0x7017 (p + 1) := rfl
  refine ⟨?_, ?_, fun m hm => ?_, ?_⟩
  · rw [hzoe]
    exact mgetD_mset_same ..
  · rw [vGet, hzoe]
    exact mget_mset_same ..
  · rw [vGet, hzoe]
    exact mget_mset_ne _ _ hm
  · rw [ht]
    split
    · rw [odGet_bumpBy, hod]
    · exact hod

end

theorem releasePost_foreign {s : State} {p n : Nat} (h : ∀ v, vGet s n = some v → v.f.val ≠ p) (amt : W32) : releasePost s p n amt = bump32 s 0x7017 (p + 1) := by
  unfold releasePost
  by_cases hn : n < 512
  · rw [if_pos hn]
    cases hv : mget s.zoe.sessions n with
    | none => rfl
    | some v => exact if_neg fun hown => h v hv hown.1
  · rw [if_neg hn]

/-! ### Commands on a session (R300, R301, R306, R310, R313) -/

theorem feedUnit_stream (v : VSession) (bs : List Byte) (eoa : Bool) (now : Nat) (tag : BitVec 64) : (feedUnit v bs eoa now tag).stream = v.stream ++ bs := rfl

/-- The session after a FEED. -/
def fed (s : State) (v : VSession) (e : W512) : VSession :=
  { feedUnit v (partBytes s v.f.val (zAddr e) (zLen e)) (bit e 487) s.clk.now (zTag e) with accessErr := v.accessErr || !vOwned s v.f.val (zAddr e) (zLen e) }

/-- The input picture of an ENCODE. -/
def encodePic (k : ZTaken) : EncPic :=
  { y := zAddr k.entry, u := fld k.entry 405 358, v := fld k.entry 357 310, yPitch := fld k.entry 309 290, cPitch := fld k.entry 289 270
    pts := fld k.entry 269 206, keypic := bit k.entry 486, hostTag := zTag k.entry, takenAt := k.takenAt }

/-- What a RELEASE does to its session. -/
def releaseDo (s : State) (n : Nat) (v : VSession) (e : W512) : State :=
  if vdEnc v.desc then vSet s n { v with bitsHeld := v.bitsHeld - zLen e } else releasePost s v.f.val n (BitVec.ofNat 32 (zLen e))

theorem feed_exec (s : State) : exec .feed s = .next (zCommand s 2 (fun v e => vdEnc v.desc || zLen e == 0) fun s n v t =>
    vPush (vSet s n (fed s v t.entry)) v.f { kind := 1, session := vId s n, tag := zTag t.entry }) := rfl

theorem encode_exec (s : State) : exec .encode s = .next (zCommand s 3 (fun v e => !vdEnc v.desc || fld e 309 290 % 64 != 0 || fld e 289 270 % 64 != 0)
    fun s n v t => vSet s n { v with inputs := v.inputs ++ [encodePic t] }) := rfl

theorem key_exec (s : State) : exec .key s = .next (zCommand s 4 (fun v _ => !vdEnc v.desc) fun s n v _ => vSet s n { v with keyWanted := true }) := rfl

theorem release_exec (s : State) : exec .release s = .next (zCommand s 5 (fun _ e => zLen e == 0 || decide (zLen e > 65535)) fun s n v t => releaseDo s n v t.entry) := rfl

section
variable {s : State} {i : Nat} {k : ZTaken} {n : Nat} {v : VSession} (hnamed : zNamed s k = some (n, v))
include hnamed

theorem feed_runs (hpick : zPick s 2 = some (i, k)) (hroom : RingRoom s k.f.val 8) (hdec : vdEnc v.desc = false) (hlen : zLen k.entry ≠ 0) :
    Runs .feed s fun t => VTells s t k.f 1 0 (vId s n) (zTag k.entry) ∧ (∀ m, m ≠ n → vGet t m = vGet s m) ∧ vGet t n = some (fed s v k.entry) := by
  obtain ⟨-, hf, -⟩ := zNamed_spec hnamed
  have hgo := zCommand_go hpick (fun v e => vdEnc v.desc || zLen e == 0) (fun s n v t => vPush (vSet s n (fed s v t.entry)) v.f { kind := 1, session := vId s n, tag := zTag t.entry })
    hnamed (by simp [hdec, hlen])
  refine ⟨_, (feed_exec s).trans (congrArg Host.Outcome.next hgo), ?_, fun m hm => ?_, ?_⟩
  · have hroom' : RingRoom s v.f.val 8 := by rw [hf]; exact hroom
    rw [← hf]
    exact vPush_tells (s := vSet (zDrop s i) n (fed (zDrop s i) v k.entry)) hroom' { kind := 1, session := vId (zDrop s i) n, tag := zTag k.entry }
  · rw [vGet, vPush_zoe]
    exact mget_mset_ne _ _ hm
  · rw [vGet, vPush_zoe]
    exact mget_mset_same ..

theorem feed_refused (hpick : zPick s 2 = some (i, k)) (hroom : RingRoom s k.f.val 8) (hbad : vdEnc v.desc = true ∨ zLen k.entry = 0) :
    Runs .feed s fun t => VTells s t k.f 6 6 (zSess k.entry) (zTag k.entry) ∧ t.zoe.sessions = s.zoe.sessions := by
  have hbad' := zCommand_bad hpick (fun v e => vdEnc v.desc || zLen e == 0) (fun s n v t => vPush (vSet s n (fed s v t.entry)) v.f { kind := 1, session := vId s n, tag := zTag t.entry })
    hnamed (by simpa using hbad)
  obtain ⟨htell, hzoe⟩ := zRefuse_tells hroom i (st := 6) (by decide)
  exact ⟨_, (feed_exec s).trans (congrArg Host.Outcome.next hbad'), htell, by rw [hzoe]⟩

theorem encode_runs (hpick : zPick s 3 = some (i, k)) (henc : vdEnc v.desc = true) (hy : fld k.entry 309 290 % 64 = 0) (hc : fld k.entry 289 270 % 64 = 0) :
    Runs .encode s fun t => (∀ m, m ≠ n → vGet t m = vGet s m) ∧ t.out = s.out ∧ vGet t n = some { v with inputs := v.inputs ++ [encodePic k] } := by
  have hgo := zCommand_go hpick (fun v e => !vdEnc v.desc || fld e 309 290 % 64 != 0 || fld e 289 270 % 64 != 0)
    (fun s n v t => vSet s n { v with inputs := v.inputs ++ [encodePic t] }) hnamed (by simp [henc, hy, hc])
  exact ⟨_, (encode_exec s).trans (congrArg Host.Outcome.next hgo), fun m hm => mget_mset_ne _ _ hm, rfl, mget_mset_same ..⟩

theorem key_runs (hpick : zPick s 4 = some (i, k)) (henc : vdEnc v.desc = true) :
    Runs .key s fun t => (∀ m, m ≠ n → vGet t m = vGet s m) ∧ vGet t n = some { v with keyWanted := true } ∧ t.out = s.out := by
  have hgo := zCommand_go hpick (fun v _ => !vdEnc v.desc) (fun s n v _ => vSet s n { v with keyWanted := true }) hnamed (by simp [henc])
  exact ⟨_, (key_exec s).trans (congrArg Host.Outcome.next hgo), fun m hm => mget_mset_ne _ _ hm, mget_mset_same .., rfl⟩

theorem release_runs (hpick : zPick s 5 = some (i, k)) (hlen : zLen k.entry ≠ 0) (hmax : zLen k.entry ≤ 65535) :
    (vdEnc v.desc = true → Runs .release s fun t => (∀ m, m ≠ n → vGet t m = vGet s m) ∧ vGet t n = some { v with bitsHeld := v.bitsHeld - zLen k.entry })
    ∧ (vdEnc v.desc = false → n < 512 → Runs .release s fun t => (∀ m, m ≠ n → vGet t m = vGet s m) ∧ vGet t n = some (releaseHeld v (zLen k.entry))
      ∧ mgetD t.zoe.releases n 0 = mgetD s.zoe.releases n 0 + BitVec.ofNat 32 (zLen k.entry)) := by
  obtain ⟨hv, -, -⟩ := zNamed_spec hnamed
  have hgo := (release_exec s).trans (congrArg Host.Outcome.next (zCommand_go hpick (fun _ e => zLen e == 0 || decide (zLen e > 65535)) (fun s n v t => releaseDo s n v t.entry) hnamed
    (by simp [hlen]; omega)))
  refine ⟨fun henc => ⟨_, hgo.trans (congrArg Host.Outcome.next (if_pos henc)), fun m hm => mget_mset_ne _ _ hm, mget_mset_same ..⟩,
    fun hdec hn => ⟨_, hgo.trans (congrArg Host.Outcome.next (if_neg (by simp [hdec]))), ?_⟩⟩
  have hamt : (BitVec.ofNat 32 (zLen k.entry)).toNat = zLen k.entry := by
    rw [BitVec.toNat_ofNat]
    omega
  obtain ⟨hcount, hheld, hother, -⟩ := releasePost_spec (s := zDrop s i) hv hn rfl hdec (BitVec.ofNat 32 (zLen k.entry))
  rw [hamt] at hheld
  exact ⟨hother, hheld, hcount⟩

end

theorem releaseCounterPost_runs (p : PartId) (n : Fin 512) (amt : BitVec 16) {s : State} (hon : zoeOn s = true) :
    (∀ v, vGet s n.val = some v → v.f.val = p.val → vdEnc v.desc = false → Runs (.releaseCounterPost p n amt) s fun t =>
      mgetD t.zoe.releases n.val 0 = mgetD s.zoe.releases n.val 0 + amt.setWidth 32 ∧ vGet t n.val = some (releaseHeld v amt.toNat)
      ∧ (∀ m, m ≠ n.val → vGet t m = vGet s m)
      ∧ odGet t 0x7017 (p.val + 1) = (if (heldSlots v).length < amt.toNat then min (odGet s 0x7017 (p.val + 1) + (amt.toNat - (heldSlots v).length)) (2 ^ 32 - 1)
        else odGet s 0x7017 (p.val + 1)))
    ∧ ((∀ v, vGet s n.val = some v → v.f.val ≠ p.val) → Runs (.releaseCounterPost p n amt) s fun t =>
        t = { s with pav := t.pav } ∧ odGet t 0x7017 (p.val + 1) = min (odGet s 0x7017 (p.val + 1) + 1) (2 ^ 32 - 1)) := by
  have hexec : exec (.releaseCounterPost p n amt) s = .next (releasePost s p.val n.val (amt.setWidth 32)) := if_pos hon
  refine ⟨fun v hv hf hdec => ⟨_, hexec, ?_⟩, fun hforeign => ⟨_, hexec.trans (congrArg Host.Outcome.next (releasePost_foreign hforeign _)), rfl, odGet_bumpBy ..⟩⟩
  have hamt : (amt.setWidth 32).toNat = amt.toNat := by
    rw [BitVec.toNat_setWidth]
    have := amt.isLt
    omega
  have h := releasePost_spec hv n.isLt hf hdec (amt.setWidth 32)
  rw [hamt] at h
  exact h

/-- Settles O27: each command on a session, and a post to a release counter. -/
theorem videoCommandsQueueAndRelease : Obligations.VideoCommandsQueueAndRelease := by
  refine ⟨fun s i k n v hnamed hf => ⟨fun hpick hroom => ⟨fun hdec hlen => ?_, feed_refused hnamed hpick hroom⟩, encode_runs hnamed, key_runs hnamed, release_runs hnamed⟩,
    fun p n amt s hon => releaseCounterPost_runs p n amt hon⟩
  obtain ⟨t, hexec, htell, hothers, hget⟩ := feed_runs hnamed hpick hroom hdec hlen
  rw [fed, hf] at hget
  exact ⟨t, hexec, htell, hothers, hget, feedUnit_stream ..⟩

end Sys2Proof.Machine
end

section
/-! SUPPORT. O38: snapshots are cut, sent, acknowledged, given up and stored (R255, R437 to R439, R450). -/

namespace Sys2Proof.Machine

open Sys2Proof Sys2Proof.Claims

/-! ### Lists of handles -/

theorem mem_nodup {l : List Nat} {a : Nat} : a ∈ nodup l ↔ a ∈ l := by
  suffices h : ∀ acc : List Nat, a ∈ l.foldl (fun acc a => if acc.contains a then acc else a :: acc) acc ↔ a ∈ acc ∨ a ∈ l by
    unfold nodup
    rw [List.mem_reverse, h]
    simp
  induction l with
  | nil => simp
  | cons b l ih =>
    intro acc
    rw [List.foldl_cons, ih]
    split
    · next hb =>
      have hb : b ∈ acc := by simpa using hb
      constructor
      · rintro (h | h)
        · exact .inl h
        · exact .inr (.tail _ h)
      · rintro (h | h)
        · exact .inl h
        · rcases List.mem_cons.mp h with rfl | h
          · exact .inl hb
          · exact .inr h
    · simp only [List.mem_cons]
      tauto

theorem takeFit_subset {α : Type} (size : α → Nat) (n : Nat) (l : List α) : takeFit size n l ⊆ l := by
  induction l generalizing n with
  | nil => exact fun _ h => h
  | cons a l ih =>
    rw [takeFit]
    split
    · exact List.cons_subset_cons a (ih _)
    · exact List.nil_subset _

/-! ### What power-off leaves of the pair -/

theorem queueLost_pair (s : State) (k : Nat) : (queueLost s k).pair = s.pair := by
  have h : ∀ (u : State) (j : Job), (match j.origin, j.part with
      | .tray, some p => copyReport (releaseReads u j) p.val j stAbort
      | _, _ => releaseReads u j).pair = u.pair := by
    intro u j
    have hrel : (releaseReads u j).pair = u.pair := by
      unfold releaseReads
      split
      · rfl
      · rfl
    split
    · exact hrel
    · exact hrel
  exact each_rel (R := fun s t => t.pair = s.pair) (fun _ => rfl) (fun h k => k.trans h) h _ s

theorem injectGuard_pair (s : State) : (injectGuard s).pair = s.pair := by
  unfold injectGuard
  extract_lets
  split
  · rfl
  · rfl

theorem quadPowerOff_pair (s : State) (q : Nat) : (quadPowerOff s q).pair = s.pair := by
  unfold quadPowerOff
  extract_lets s₁
  have h₁ : s₁.pair = s.pair := each_rel (R := fun s t => t.pair = s.pair) (fun _ => rfl) (fun h k => k.trans h) queueLost_pair _ _
  clear_value s₁
  exact (injectGuard_pair _).trans h₁

theorem diePowerOff_pair (s : State) (d : Nat) : (diePowerOff s d).pair = s.pair := by
  unfold diePowerOff
  extract_lets s₁
  have h₁ : s₁.pair = s.pair :=
    (queueLost_pair ..).trans (each_rel (R := fun s t => t.pair = s.pair) (fun _ => rfl) (fun h k => k.trans h) quadPowerOff_pair _ _)
  clear_value s₁
  exact (injectGuard_pair _).trans h₁

theorem rehearsalLeave_pair (s : State) : (rehearsalLeave s).pair = s.pair := by
  unfold rehearsalLeave
  split
  · exact (each_rel (R := fun s t => t.pair = s.pair) (fun _ => rfl) (fun h k => k.trans h) (fun u d => by
      split
      · exact diePowerOff_pair ..
      · rfl) _ _).trans (each_rel (R := fun s t => t.pair = s.pair) (fun _ => rfl) (fun h k => k.trans h) quadPowerOff_pair _ _)
  · rfl

theorem logErr_pair (s : State) (i : LogInfo) : (logErr s i).pair = s.pair := by
  have h := logPush_logOnly (bump64 s 0x7C20 (i.cls + 1)) i
  rw [logErr, h]
  rfl

/-- A tray that declares itself failed changes its role, and nothing else of the pair. -/
theorem declareFailed_pair (s : State) (i : LogInfo) : (declareFailed s i).pair = { s.pair with role := (declareFailed s i).pair.role } := by
  unfold declareFailed
  split
  · rfl
  · extract_lets u
    have hu : u.pair = s.pair := (rehearsalLeave_pair _).trans (logErr_pair ..)
    clear_value u
    show { u.pair with role := .failed } = { s.pair with role := .failed }
    rw [hu]

theorem declareFailed_tray_failed (s : State) (i : LogInfo) : (declareFailed s i).tray.failed = true := by
  unfold declareFailed
  split
  · assumption
  · rfl

theorem thermalEnd_pair (s : State) : (thermalEnd s).pair = { s.pair with role := (thermalEnd s).pair.role } := by
  unfold thermalEnd
  extract_lets s₁ s₂
  have h₁ := declareFailed_pair s { cls := 5, block := 10 }
  have h₂ : s₂.pair = s₁.pair := each_rel (R := fun s t => t.pair = s.pair) (fun _ => rfl) (fun h k => k.trans h) diePowerOff_pair _ _
  clear_value s₂
  show s₂.pair = { s.pair with role := s₂.pair.role }
  rw [h₂]
  exact h₁

/-- A thermal end fails the tray, and leaves HBM. -/
theorem thermalEnd_fails (s : State) : (thermalEnd s).tray.failed = true ∧ (thermalEnd s).tray.failedThermal = true ∧ (thermalEnd s).mem.hbm = s.mem.hbm := by
  unfold thermalEnd
  extract_lets s₁ s₂
  have h₁ : FailOnly s s₁ := declareFailed_failOnly ..
  have hf : s₁.tray.failed = true := declareFailed_tray_failed ..
  have h₂ : WorkOnly s₁ s₂ := .each (fun _ _ => diePowerOff_workOnly ..) _ _
  clear_value s₁ s₂
  refine ⟨?_, rfl, ?_⟩
  · show s₂.tray.failed = true
    rw [h₂.1]
    exact hf
  · show s₂.mem.hbm = s.mem.hbm
    rw [h₂.1]
    show s₁.mem.hbm = s.mem.hbm
    rw [h₁.1]

/-! ### The end of a snapshot -/

/-- What follows a snapshot's end changes the role and the yield alone of the pair, and leaves HBM. -/
theorem snapEnd_pair (s : State) :
    (snapEnd s).pair = { s.pair with role := (snapEnd s).pair.role, yielded := (snapEnd s).pair.yielded } ∧ (snapEnd s).mem.hbm = s.mem.hbm := by
  unfold snapEnd
  split
  · have h := thermalEnd_pair s
    refine ⟨?_, (thermalEnd_fails s).2.2⟩
    rw [show (thermalEnd s).pair.yielded = s.pair.yielded from congrArg (fun p => p.yielded) h]
    exact h
  · split
    · exact ⟨rfl, rfl⟩
    · exact ⟨rfl, rfl⟩

theorem snapEnd_cooling {s : State} (hdown : s.wv.shuttingDown = false) :
    snapEnd s = if s.tray.drain = .inProgress ∧ !s.pair.yielded then sendYield s else s := if_neg (by simp [hdown])

theorem snapEnd_heat {s : State} (hdown : s.wv.shuttingDown = true) (hcool : s.tray.failedThermal = false) : snapEnd s = thermalEnd s :=
  if_pos (by simp [hdown, hcool])

/-- The watermarks go to the hosts; of the tray only they and the rings differ. -/
theorem marksIssue_issueOnly (s : State) (counts : SMap W32) : IssueOnly { s with pair := { s.pair with marks := counts } } (marksIssue s counts) := by
  unfold marksIssue
  extract_lets l t
  generalize t = t
  exact each_rel .refl .trans (fun u x => complTo_issueOnly u _ _ (show 8 % 16 ≠ 3 by decide)) _ _

theorem snapDrop_some {s : State} {x : SnapOut} (hout : s.pair.out = some x) :
    snapDrop s = { s with pair := { s.pair with out := none, dirty := nodup (s.pair.dirty ++ x.handles) } } := by
  rw [snapDrop, hout]

/-- What a snapshot that is given up held is changed again. -/
theorem mem_snapDrop_dirty (s : State) (h : Nat) : h ∈ (snapDrop s).pair.dirty ↔ h ∈ s.pair.dirty ∨ ∃ x, s.pair.out = some x ∧ h ∈ x.handles := by
  cases hout : s.pair.out with
  | none => simp [snapDrop, hout]
  | some x => simp [snapDrop_some hout, mem_nodup]

/-! ### A cut -/

/-- Group 63 tells what is sent over it while it is up. -/
theorem g63Send_tells {s : State} (h : g63Up s = true) (o : Output) (bs : List Byte) : ∃ new, (g63Send s o bs).out = new ++ s.out ∧ o ∈ new := by
  unfold g63Send
  rw [if_neg (by simp [h])]
  generalize hv : emit { s with trl := { s.trl with g63 := s.trl.g63 ++ g63Cut bs } } o = v
  obtain ⟨new, hnew⟩ := (g63Pump_outGrows v 1024).trans (linksDrain_outGrows _)
  have hvout : v.out = o :: s.out := by rw [← hv]; rfl
  exact ⟨new ++ [o], by rw [hnew, hvout, List.append_assoc, List.singleton_append], by simp⟩

/-- A snapshot sent: the entries `o.handles` of what has changed go with their records, and the rest stays for the next. -/
def SnapSent (s t : State) : Prop :=
  ∃ o recs, t.pair = { s.pair with nextSnap := s.pair.nextSnap + 1, out := some o, dirty := s.pair.dirty.filter fun h => !o.handles.contains h }
    ∧ t.car = s.car ∧ o.seq = s.pair.nextSnap ∧ o.cutAt = s.clk.now ∧ o.counts = countsHeld s o.handles
    ∧ (g63Up s = true → .snapshot o.seq recs (snapCheck o.seq recs) ∈ t.out) ∧ (g63Up s = false → t.out = s.out)
    ∧ (∀ h, h ∈ o.handles → h ∈ s.pair.dirty)
    ∧ (∀ h, h ∈ o.handles → .entry h (reqBits s h) ∈ recs)
    ∧ ∀ x, x ∈ o.counts → .watermark (vfOf (x.1 / 8 - 1)) (ringNo x.1) x.2 ∈ recs

theorem snapSend_sent (s : State) : SnapSent s (snapSend s) := by
  unfold snapSend
  extract_lets seq size room hs used now gone off used' psize added on held counts fresh page recs o pair t
  have hlink := g63Send_linkOnly t (.snapshot seq recs (snapCheck seq recs)) (snapBytes recs (snapCheck seq recs))
  have hup : g63Up t = g63Up s := rfl
  refine ⟨o, recs, ?_, ?_, rfl, rfl, rfl, fun h => ?_, fun h => ?_, fun h hh => ?_, fun h hh => ?_, fun x hx => ?_⟩
  · rw [hlink]
  · rw [hlink]
  · obtain ⟨new, hnew, hmem⟩ := g63Send_tells (hup.trans h) (.snapshot seq recs (snapCheck seq recs)) (snapBytes recs (snapCheck seq recs))
    rw [hnew]
    exact List.mem_append_left _ hmem
  · rw [g63Send_down (hup.trans h)]
  · exact (sortBy_perm _ _).subset (takeFit_subset _ _ _ hh)
  · simp only [recs, List.mem_append, List.mem_flatMap]
    exact .inl (.inl (.inl (.inl (.inr ⟨h, hh, by simp⟩))))
  · simp only [recs, List.mem_append, List.mem_map]
    exact .inl (.inl (.inl (.inr ⟨x, hx, rfl⟩)))

/-- A count that a snapshot carries is the tray's own where nothing of its partition is left for the next. -/
theorem mem_countsHeld {s : State} {hs : List Nat} {x : Nat × W32} (hx : x ∈ s.car.subCount)
    (hfree : ∀ h, h ∈ s.pair.dirty.filter (fun h => !hs.contains h) → (reqGet s h).part ≠ x.1 / 8 - 1) : x ∈ countsHeld s hs := by
  unfold countsHeld
  extract_lets late
  refine List.mem_map.mpr ⟨x, hx, if_neg ?_⟩
  rw [List.contains_iff_mem, List.mem_map]
  rintro ⟨h, hh, heq⟩
  exact hfree h hh heq

/-! ### The cycle of a cut -/

theorem drainTick_idle {s : State} (h : s.tray.drain ≠ .inProgress) : drainTick s = s := by
  unfold drainTick
  extract_lets alone
  exact if_neg fun hd => h hd.1

theorem portTrain_linkState (s : State) (p : Nat) : (portTrain s p).pair = s.pair ∧ (portTrain s p).car = s.car ∧ (portTrain s p).out = s.out := by
  unfold portTrain
  extract_lets x
  split
  · exact ⟨rfl, rfl, rfl⟩
  · exact ⟨rfl, rfl, rfl⟩

/-- Outside a drain the end of a cycle leaves the pair, the requests and the output as the cut left them. -/
theorem tick_cut {s : State} (hdrain : s.tray.drain ≠ .inProgress) (hcut : s.pair.cutDue = true) :
    (tick s).pair = (snapTake s).pair ∧ (tick s).car.reqs = (snapTake s).car.reqs ∧ (tick s).out = (snapTake s).out ∧ (tick s).mem = s.mem := by
  suffices h : (tick s).pair = (snapTake s).pair ∧ (tick s).car.reqs = (snapTake s).car.reqs ∧ (tick s).out = (snapTake s).out from
    ⟨h.1, h.2.1, h.2.2, (tick_frame s).1⟩
  unfold tick
  rw [if_pos hcut]
  have hsnap := snapTake_snapOnly s
  generalize snapTake s = s₁ at *
  extract_lets _ steps src clk car s₂
  have hhalt : DomainsOnly { s₁ with clk := clk, car := { s₁.car with steps := steps } } s₂ := each_rel .refl .trans haltEnd_domainsOnly _ _
  clear_value s₂
  have hidle : drainTick s₂ = s₂ := drainTick_idle (by
    rw [hhalt]
    show s₁.tray.drain ≠ .inProgress
    rw [hsnap]
    exact hdrain)
  obtain ⟨hp₀, hc₀, ho₀⟩ := portTrain_linkState s₂ 0
  obtain ⟨hp₁, hc₁, ho₁⟩ := portTrain_linkState (portTrain s₂ 0) 1
  rw [hidle, hp₁, hc₁, ho₁, hp₀, hc₀, ho₀, hhalt]
  exact ⟨rfl, rfl, rfl⟩

/-! ### The standby's store -/

/-- A record goes into the saved state, or into a page. -/
theorem savedStore_frame (s : State) (r : SnapRecord) :
    savedStore s r = { s with pair := { s.pair with saved := (savedStore s r).pair.saved }, mem := { s.mem with hbm := (savedStore s r).mem.hbm } } := by
  unfold savedStore
  extract_lets v put
  split
  · rfl
  · rfl
  · rfl
  · rfl
  · rfl
  · split
    · rfl
    · rfl

theorem savedStores_frame (s : State) (recs : List SnapRecord) :
    recs.foldl savedStore s = { s with
      pair := { s.pair with saved := (recs.foldl savedStore s).pair.saved }, mem := { s.mem with hbm := (recs.foldl savedStore s).mem.hbm } } := by
  induction recs generalizing s with
  | nil => rfl
  | cons r recs ih =>
    rw [List.foldl_cons]
    have h := savedStore_frame s r
    have hrest := ih (savedStore s r)
    generalize savedStore s r = u at *
    generalize recs.foldl savedStore u = t at *
    rw [hrest, h]

/-- A snapshot of one entry sets that entry of the saved state. -/
theorem savedStore_entry (s : State) (h : Nat) (b : W512) :
    (savedStore s (.entry h b)).mem = s.mem ∧ mget (savedStore s (.entry h b)).pair.saved.entries h = if b = 0 then none else some b := by
  refine ⟨rfl, ?_⟩
  show mget (if b = 0 then mdel s.pair.saved.entries h else mset s.pair.saved.entries h b) h = _
  split
  · rw [mget_mdel, if_pos rfl]
  · rw [mget_mset_same]

/-! ### The settlement -/

theorem snapshotCut_asks (s : State) :
    let due := carOn s = true ∧ s.tray.failed = false
      ∧ (noPartner s = true ∨ s.pair.role = .active ∧ odGet s 0x6400 0 = 1 ∧ ∀ x, s.pair.out = some x → x.cutAt + 20000000 ≤ s.clk.now)
    (due → exec .snapshotCut s = .next (snapAsk s)) ∧ (¬ due → exec .snapshotCut s = .next s) := by
  intro due
  have hguard : (carOn s && !s.tray.failed && (noPartner s || (s.pair.role == .active && odGet s 0x6400 0 == 1
      && match s.pair.out with | some x => decide (s.clk.now ≥ x.cutAt + 20000000) | none => true))) = true ↔ due := by
    simp only [due, Bool.and_eq_true, Bool.or_eq_true, Bool.not_eq_true', beq_iff_eq, and_assoc]
    cases s.pair.out with
    | none => simp
    | some x => simp
  constructor
  · intro h
    exact congrArg Host.Outcome.next (if_pos (hguard.mpr h))
  · intro h
    exact congrArg Host.Outcome.next (if_neg (mt hguard.mp h))

/-- A cut that is no longer due. -/
def cutTaken (s : State) : State := { s with pair := { s.pair with cutDue := false } }

/-- A cut of a tray without a partner only counts its watermarks. -/
theorem snapTake_unpaired {s : State} (hcar : carOn s = true) (hfail : s.tray.failed = false) (hno : noPartner s = true) :
    snapTake s = marksIssue { s with pair := { s.pair with cutDue := false } } s.car.subCount := by
  unfold snapTake
  extract_lets _ u
  have hoff : ¬ (!carOn u || u.tray.failed) = true := by
    show ¬ (!carOn s || s.tray.failed) = true
    simp [hcar, hfail]
  have hno : noPartner u = true := hno
  rw [if_neg hoff, if_pos hno]

/-- A cut of the active of a self-diagnosing pair is sent. -/
theorem snapTake_active {s : State} (hcar : carOn s = true) (hfail : s.tray.failed = false) (hno : noPartner s = false)
    (hrole : s.pair.role = .active) (hmode : odGet s 0x6400 0 = 1) : snapTake s = snapSend (snapDrop { s with pair := { s.pair with cutDue := false } }) := by
  unfold snapTake
  extract_lets _ u
  have hoff : ¬ (!carOn u || u.tray.failed) = true := by
    show ¬ (!carOn s || s.tray.failed) = true
    simp [hcar, hfail]
  have hpaired : ¬ noPartner u = true := by
    show ¬ noPartner s = true
    simp [hno]
  rw [if_neg hoff, if_neg hpaired, if_pos ⟨hrole, hmode⟩]
  rfl

/-- A cut of a tray without a partner, as the cycle's end tells it. -/
theorem tick_unpaired {s : State} (hcut : s.pair.cutDue = true) (hdrain : s.tray.drain ≠ .inProgress) (hcar : carOn s = true) (hfail : s.tray.failed = false)
    (hno : noPartner s = true) : (tick s).pair = { s.pair with cutDue := false, marks := s.car.subCount } ∧ (tick s).mem = s.mem := by
  obtain ⟨hpair, -, -, hmem⟩ := tick_cut hdrain hcut
  refine ⟨?_, hmem⟩
  rw [hpair, snapTake_unpaired hcar hfail hno, (marksIssue_issueOnly ..).1]

/-- The active's cut, with an older snapshot given up first, as the cycle's end tells it. -/
theorem tick_active {s : State} (hcut : s.pair.cutDue = true) (hdrain : s.tray.drain ≠ .inProgress) (hcar : carOn s = true) (hfail : s.tray.failed = false)
    (hno : noPartner s = false) (hrole : s.pair.role = .active) (hmode : odGet s 0x6400 0 = 1) :
    ∃ u, SnapSent (snapDrop (cutTaken s)) u
      ∧ (tick s).pair = u.pair ∧ (tick s).car.reqs = u.car.reqs ∧ (tick s).out = u.out := by
  obtain ⟨hpair, hreqs, hout, -⟩ := tick_cut hdrain hcut
  refine ⟨_, snapSend_sent _, ?_⟩
  rw [hpair, hreqs, hout, snapTake_active hcar hfail hno hrole hmode]
  exact ⟨rfl, rfl, rfl⟩

theorem snapDrop_frame (s : State) : snapDrop s = { s with pair := { s.pair with out := none, dirty := (snapDrop s).pair.dirty } } := by
  cases hout : s.pair.out with
  | none =>
    rw [snapDrop, hout]
    dsimp only
    rw [← hout]
  | some x => rw [snapDrop_some hout]

theorem countsHeld_cutTaken (s : State) (hs : List Nat) : countsHeld (snapDrop (cutTaken s)) hs = countsHeld (snapDrop s) hs := by
  unfold snapDrop cutTaken
  dsimp only
  cases s.pair.out with
  | none => rfl
  | some x => rfl

/-- The state that a cut's snapshot is taken of: the tray as it is, with an older snapshot's changes taken back. -/
theorem cutBase_spec (s : State) :
    let b := snapDrop (cutTaken s)
    b = { s with pair := { s.pair with cutDue := false, out := none, dirty := b.pair.dirty } }
    ∧ ∀ h, h ∈ b.pair.dirty ↔ h ∈ s.pair.dirty ∨ ∃ x, s.pair.out = some x ∧ h ∈ x.handles := by
  intro b
  exact ⟨snapDrop_frame (cutTaken s), mem_snapDrop_dirty (cutTaken s)⟩

/-- What a cut of the active sends and leaves. -/
theorem cut_active {s u : State} (hsent : SnapSent (snapDrop (cutTaken s)) u) :
    ∃ o recs, u.pair.cutDue = false ∧ u.pair.out = some o ∧ o.seq = s.pair.nextSnap ∧ o.cutAt = s.clk.now ∧ o.counts = countsHeld (snapDrop s) o.handles
      ∧ u.pair.nextSnap = s.pair.nextSnap + 1 ∧ u.car.reqs = s.car.reqs
      ∧ (g63Up s = true → .snapshot s.pair.nextSnap recs (snapCheck s.pair.nextSnap recs) ∈ u.out) ∧ (g63Up s = false → u.out = s.out)
      ∧ (∀ h, (h ∈ s.pair.dirty ∨ ∃ x, s.pair.out = some x ∧ h ∈ x.handles) ↔ h ∈ o.handles ∨ h ∈ u.pair.dirty)
      ∧ (∀ h, h ∈ o.handles → .entry h (reqBits s h) ∈ recs)
      ∧ (∀ x, x ∈ o.counts → .watermark (vfOf (x.1 / 8 - 1)) (ringNo x.1) x.2 ∈ recs)
      ∧ (∀ x, x ∈ s.car.subCount → (∀ h, h ∈ u.pair.dirty → (reqGet s h).part ≠ x.1 / 8 - 1) → x ∈ o.counts) := by
  obtain ⟨o, recs, hpair, hcar, hseq, hat, hcounts, hup, hdown, hsub, hentry, hmark⟩ := hsent
  obtain ⟨hbase, hdirty⟩ := cutBase_spec s
  have hheld := countsHeld_cutTaken s o.handles
  generalize snapDrop (cutTaken s) = b at *
  have hnext : b.pair.nextSnap = s.pair.nextSnap := by rw [hbase]
  have hbcar : b.car = s.car := by rw [hbase]
  have hbup : g63Up b = g63Up s := by rw [hbase]; rfl
  have hbits : ∀ h, reqBits b h = reqBits s h := fun h => by rw [hbase]; rfl
  have hreq : ∀ h, reqGet b h = reqGet s h := fun h => by rw [reqGet, reqGet, hbcar]
  have hleft : u.pair.dirty = b.pair.dirty.filter fun h => !o.handles.contains h := by rw [hpair]
  refine ⟨o, recs, ?_, ?_, hseq.trans hnext, ?_, hcounts.trans hheld, ?_, ?_, fun h => ?_, fun h => ?_, fun h => ?_, fun h hh => ?_, hmark, fun x hx hfree => ?_⟩
  · rw [hpair, hbase]
  · rw [hpair]
  · rw [hat, hbase]
  · rw [hpair, hnext]
  · rw [hcar, hbcar]
  · rw [← hnext, ← hseq]
    exact hup (hbup.trans h)
  · rw [hdown (hbup.trans h), hbase]
  · rw [← hdirty, hleft, List.mem_filter]
    by_cases hmem : h ∈ o.handles
    · simp [hmem, hsub h hmem]
    · simp [hmem]
  · rw [← hbits]
    exact hentry h hh
  · rw [hcounts]
    refine mem_countsHeld (by rwa [hbcar]) fun h hh => ?_
    rw [hreq]
    exact hfree h (by rwa [hleft])

/-! ### Given up, acknowledged and stored -/

theorem snapshotAbandon_exec {s : State} {x : SnapOut} (hout : s.pair.out = some x) :
    exec .snapshotAbandon s = .next (if s.clk.now ≥ x.cutAt + 20000000 then snapEnd (snapDrop s) else s) := by
  show execSnapshotAbandon s = _
  unfold execSnapshotAbandon
  rw [hout]
  dsimp only
  split
  · rfl
  · rfl

/-- The pair as an acknowledged snapshot leaves it. -/
def snapAcked (s : State) (x : SnapOut) : State :=
  { s with pair := { s.pair with
      lastAck := x.seq, out := none
      partnerRole := if x.whole ∨ s.pair.partnerRole = some .standby then some .standby else some .joining
      tokSent := x.toks.foldl (fun m y => if y.2.2 = 0 then mdel m y.1 else mset m y.1 y.2) s.pair.tokSent
      retSent := x.retains } }

theorem snapshotAck_exec {s : State} {x : SnapOut} (hout : s.pair.out = some x) (q : Nat) :
    exec (.snapshotAck q) s = .next (if x.seq ≠ q ∨ s.clk.now > x.cutAt + 20000000 ∨ !g63Up s then s else snapEnd (marksIssue (snapAcked s x) x.counts)) := by
  show execSnapshotAck q s = _
  unfold execSnapshotAck
  rw [hout]
  dsimp only
  split
  · rfl
  · next h =>
    obtain rfl : x.seq = q := by_contra fun hq => h (.inl hq)
    rfl

/-- A snapshot given up gives its changes back, whatever follows. -/
theorem abandoned_pair (s : State) (x : SnapOut) (hout : s.pair.out = some x) :
    (snapEnd (snapDrop s)).pair.out = none ∧ ∀ h, h ∈ (snapEnd (snapDrop s)).pair.dirty ↔ h ∈ s.pair.dirty ∨ h ∈ x.handles := by
  have hpair := (snapEnd_pair (snapDrop s)).1
  refine ⟨?_, fun h => ?_⟩
  · rw [hpair, snapDrop_some hout]
  · rw [hpair]
    have hmem := mem_snapDrop_dirty s h
    simpa [hout] using hmem

/-- What follows a snapshot given up while the tray does not shut down. -/
theorem abandoned_cooling {s : State} {x : SnapOut} (hout : s.pair.out = some x) (hdown : s.wv.shuttingDown = false) :
    let t := snapEnd (snapDrop s)
    t = { s with pair := t.pair, out := t.out } ∧ (s.tray.drain ≠ .inProgress → t.out = s.out)
      ∧ (s.tray.drain = .inProgress → s.pair.yielded = false → t.out = .yield :: s.out ∧ t.pair.yielded = true) := by
  intro t
  have ht : t = if s.tray.drain = .inProgress ∧ !s.pair.yielded then sendYield (snapDrop s) else snapDrop s := by
    have hb := snapDrop_some hout
    have hcool : (snapDrop s).wv.shuttingDown = false := by rw [hb]; exact hdown
    show snapEnd (snapDrop s) = _
    rw [snapEnd_cooling hcool]
    simp only [hb]
  clear_value t
  subst ht
  rw [snapDrop_some hout]
  split
  · next h => exact ⟨rfl, fun hn => absurd h.1 hn, fun _ _ => ⟨rfl, rfl⟩⟩
  · next h => exact ⟨rfl, fun _ => rfl, fun hd hy => absurd ⟨hd, by simp [hy]⟩ h⟩

/-- The pair and HBM after an acknowledgement. -/
theorem acked_pair (s : State) (x : SnapOut) :
    let t := snapEnd (marksIssue (snapAcked s x) x.counts)
    t.pair.out = none ∧ t.pair.lastAck = x.seq
      ∧ t.pair.partnerRole = some (if x.whole = true ∨ s.pair.partnerRole = some .standby then .standby else .joining)
      ∧ t.pair.retSent = x.retains ∧ t.pair.marks = x.counts ∧ t.pair.dirty = s.pair.dirty ∧ t.mem.hbm = s.mem.hbm := by
  intro t
  obtain ⟨hpair, hhbm⟩ := snapEnd_pair (marksIssue (snapAcked s x) x.counts)
  obtain ⟨hissue, -⟩ := marksIssue_issueOnly (snapAcked s x) x.counts
  have hmpair : (marksIssue (snapAcked s x) x.counts).pair = { (snapAcked s x).pair with marks := x.counts } := by rw [hissue]
  have hmmem : (marksIssue (snapAcked s x) x.counts).mem = s.mem := by rw [hissue]; rfl
  have hpartner : (snapAcked s x).pair.partnerRole = some (if x.whole = true ∨ s.pair.partnerRole = some .standby then .standby else .joining) :=
    (apply_ite some ..).symm
  rw [hmmem] at hhbm
  rw [hmpair] at hpair
  show (snapEnd _).pair.out = none ∧ _
  rw [hpair]
  exact ⟨rfl, rfl, hpartner, rfl, rfl, rfl, hhbm⟩

/-- The standby with a snapshot in its store. -/
def snapStored (s : State) (q : Nat) (recs : List SnapRecord) : State :=
  let b := recs.foldl savedStore s
  { b with pair := { b.pair with partnerRole := some .active, lastAck := q, baseline := b.pair.baseline || snapRoom b recs } }

theorem snapStored_frame (s : State) (q : Nat) (recs : List SnapRecord) :
    let b := recs.foldl savedStore s
    snapStored s q recs = { s with
      pair := { s.pair with saved := b.pair.saved, partnerRole := some .active, lastAck := q, baseline := s.pair.baseline || snapRoom b recs }
      mem := b.mem } := by
  intro b
  have hb := savedStores_frame s recs
  show { b with pair := { b.pair with partnerRole := some .active, lastAck := q, baseline := b.pair.baseline || snapRoom b recs } } = _
  have hbase : b.pair.baseline = s.pair.baseline := by
    show (recs.foldl savedStore s).pair.baseline = _
    rw [hb]
  rw [hbase]
  generalize snapRoom b recs = room
  change b = _ at hb
  clear_value b
  rw [hb]

section
variable {s : State} {q : Nat} {recs : List SnapRecord} {check : BitVec 64}

theorem snapshotReceive_refuses (h : s.pair.sealed = true ∨ g63Up s = false) : exec (.snapshotReceive q recs check) s = .next s := by
  refine if_pos ?_
  rcases h with h | h
  · simp [h]
  · simp [h]

/-- What a standby that takes a snapshot checks first. -/
theorem snapshotReceive_takes (hcar : carOn s = true) (hsealed : s.pair.sealed = false) (hup : g63Up s = true)
    (hrole : s.pair.role = .standby ∨ s.pair.role = .rehearsing) :
    ¬ (!(s.pair.role == .standby || s.pair.role == .joining || s.pair.role == .rehearsing) || s.pair.sealed || !carOn s || !g63Up s) = true := by
  rcases hrole with h | h
  · simp [h, hcar, hsealed, hup]
  · simp [h, hcar, hsealed, hup]

theorem snapshotReceive_bad (hcar : carOn s = true) (hsealed : s.pair.sealed = false) (hup : g63Up s = true)
    (hrole : s.pair.role = .standby ∨ s.pair.role = .rehearsing) (hbad : check ≠ snapCheck q recs) :
    exec (.snapshotReceive q recs check) s = .next (bump32 s 0x6805 4) :=
  (if_neg (snapshotReceive_takes hcar hsealed hup hrole)).trans (if_pos hbad)

/-- A snapshot whose check value holds is stored and acknowledged; a tray that does not join goes on as it was. -/
theorem snapshotReceive_stores (hcar : carOn s = true) (hsealed : s.pair.sealed = false) (hup : g63Up s = true)
    (hrole : s.pair.role = .standby ∨ s.pair.role = .rehearsing) (hgood : check = snapCheck q recs) :
    exec (.snapshotReceive q recs check) s = .next (g63Send (snapStored s q recs) (.snapAck q) (0x13 :: leBytes 8 q)) := by
  refine ((if_neg (snapshotReceive_takes hcar hsealed hup hrole)).trans (if_neg (not_not_intro hgood))).trans (congrArg Host.Outcome.next (if_neg ?_))
  intro h
  obtain ⟨hjoin, -⟩ := h
  have hpair : (g63Send (snapStored s q recs) (.snapAck q) (0x13 :: leBytes 8 q)).pair.role = s.pair.role := by
    rw [g63Send_linkOnly]
    show (snapStored s q recs).pair.role = _
    rw [snapStored_frame]
  have hjoin : (g63Send (snapStored s q recs) (.snapAck q) (0x13 :: leBytes 8 q)).pair.role = .joining := hjoin
  rw [hpair] at hjoin
  rcases hrole with hr | hr
  · simp [hr] at hjoin
  · simp [hr] at hjoin

end

/-- What a standby holds after it has stored a snapshot. -/
theorem snapStored_sent {s : State} (hup : g63Up s = true) (q : Nat) (recs : List SnapRecord) :
    let t := g63Send (snapStored s q recs) (.snapAck q) (0x13 :: leBytes 8 q)
    (∃ new, t.out = new ++ s.out ∧ .snapAck q ∈ new) ∧ t.pair.partnerRole = some .active
      ∧ t.pair.lastAck = q ∧ t.pair.baseline = (s.pair.baseline || snapRoom (recs.foldl savedStore s) recs)
      ∧ t.pair.saved = (recs.foldl savedStore s).pair.saved ∧ t.mem = (recs.foldl savedStore s).mem := by
  intro t
  have hframe := snapStored_frame s q recs
  have hlink := g63Send_linkOnly (snapStored s q recs) (.snapAck q) (0x13 :: leBytes 8 q)
  have htells : g63Up (snapStored s q recs) = true → ∃ new, t.out = new ++ (snapStored s q recs).out ∧ .snapAck q ∈ new :=
    fun h => g63Send_tells h ..
  change LinkOnly (snapStored s q recs) t at hlink
  clear_value t
  dsimp only at hframe
  generalize snapStored s q recs = v at *
  have hpair : t.pair = v.pair := by rw [hlink]
  have hmem : t.mem = v.mem := by rw [hlink]
  refine ⟨?_, ?_, ?_, ?_, ?_, ?_⟩
  · have hvup : g63Up v = g63Up s := by rw [hframe]; rfl
    have hvout : v.out = s.out := by rw [hframe]
    rw [← hvout]
    exact htells (hvup.trans hup)
  · rw [hpair, hframe]
  · rw [hpair, hframe]
  · rw [hpair, hframe]
  · rw [hpair, hframe]
  · rw [hmem, hframe]

/-- Settles O38. -/
theorem snapshotsAreCutStoredAndAcknowledged : Obligations.SnapshotsAreCutStoredAndAcknowledged := by
  refine ⟨fun s => ⟨fun h => ⟨_, (snapshotCut_asks s).1 h, rfl⟩, fun h => ⟨_, (snapshotCut_asks s).2 h, rfl⟩⟩, ?_, ?_, ?_⟩
  · intro s hidle hcut hcar hfail hdrain seq
    have hstep : step s = .next (tick s) := by rw [step, hidle]
    refine ⟨fun hno => ⟨_, hstep, tick_unpaired hcut hdrain hcar hfail hno⟩, fun hno hrole hmode => ?_⟩
    obtain ⟨u, hsent, hpair, hreqs, hout⟩ := tick_active hcut hdrain hcar hfail hno hrole hmode
    obtain ⟨o, recs, h⟩ := cut_active hsent
    rw [← hpair, ← hreqs, ← hout] at h
    exact ⟨_, o, recs, hstep, h⟩
  · intro s x hout
    refine ⟨fun h => ⟨_, snapshotAbandon_exec hout, if_neg (by omega)⟩, fun h => ?_, fun h hup => ?_, fun hup => ?_, fun q hq => ?_⟩
    · refine ⟨_, (snapshotAbandon_exec hout).trans (congrArg Host.Outcome.next (if_pos h)), ?_⟩
      obtain ⟨hnone, hdirty⟩ := abandoned_pair s x hout
      refine ⟨hnone, hdirty, abandoned_cooling hout, fun hdown hcool => ?_⟩
      have hb := snapDrop_some hout
      have hheat : snapEnd (snapDrop s) = thermalEnd (snapDrop s) := snapEnd_heat (by rw [hb]; exact hdown) (by rw [hb]; exact hcool)
      rw [hheat]
      obtain ⟨hfails, hthermal, -⟩ := thermalEnd_fails (snapDrop s)
      exact ⟨hfails, hthermal⟩
    · refine ⟨_, (snapshotAck_exec hout _).trans (congrArg Host.Outcome.next (if_neg ?_)), acked_pair s x⟩
      rintro (hne | hlate | hdown)
      · exact hne rfl
      · omega
      · simp [hup] at hdown
    · exact ⟨_, snapshotAck_exec hout _, if_pos (.inr (.inr (by simp [hup])))⟩
    · exact ⟨_, snapshotAck_exec hout _, if_pos (.inl (Ne.symm hq))⟩
  · intro s q recs check hcar
    refine ⟨fun h => ⟨_, snapshotReceive_refuses h, rfl⟩, fun hsealed hup hrole => ⟨fun hbad => ?_, fun hgood => ?_⟩⟩
    · exact ⟨_, snapshotReceive_bad hcar hsealed hup hrole hbad, rfl, rfl, rfl, odGet_bumpBy s 0x6805 4 32 1⟩
    · refine ⟨_, snapshotReceive_stores hcar hsealed hup hrole hgood, ?_⟩
      obtain ⟨hout, hpartner, hlast, hbaseline, hsaved, hmem⟩ := snapStored_sent hup q recs
      refine ⟨hout, hpartner, hlast, hbaseline, hsaved, hmem, fun h b hrecs => ?_⟩
      obtain ⟨hkept, hentry⟩ := savedStore_entry s h b
      subst hrecs
      exact ⟨hmem.trans hkept, by rw [hsaved]; exact hentry⟩

end Sys2Proof.Machine
end

section
/-! SUPPORT. O54: what fences and lost power leave of the sensors, the agents and the cooling inputs (R13, R16, R361 to R368). -/

namespace Sys2Proof.Machine

open Sys2Proof Sys2Proof.Claims

/-! ### The frame of the end of work -/

/-- Power and sensors stay, and the objects up to the cooling inputs. -/
def Calm (s t : State) : Prop := t.wv = s.wv ∧ t.tray = s.tray ∧ ∀ i j, i ≤ 0x1504 → j < 256 → odGet t i j = odGet s i j

theorem Calm.refl (s : State) : Calm s s := ⟨rfl, rfl, fun _ _ _ _ => rfl⟩

theorem Calm.trans {s t u : State} (h : Calm s t) (k : Calm t u) : Calm s u := by
  obtain ⟨hwv, htray, hod⟩ := h
  obtain ⟨kwv, ktray, kod⟩ := k
  exact ⟨kwv.trans hwv, ktray.trans htray, fun i j hi hj => (kod i j hi hj).trans (hod i j hi hj)⟩

/-- A change beside power, the sensors and the objects. -/
theorem Calm.beside {s t : State} (hwv : t.wv = s.wv) (hpav : t.pav.vals = s.pav.vals) (htray : t.tray = s.tray) : Calm s t := by
  refine ⟨hwv, htray, fun i j _ _ => ?_⟩
  unfold odGet
  rw [hpav]

theorem Calm.each {α : Type} {f : State → α → State} (hf : ∀ s x, Calm s (f s x)) (l : List α) (s : State) : Calm s (Machine.each l f s) :=
  each_rel .refl .trans hf l s

theorem Calm.ite {c : Prop} [Decidable c] {s t u : State} (ht : Calm s t) (hu : Calm s u) : Calm s (if c then t else u) := by
  split
  · exact ht
  · exact hu

/-- A write of an object beyond the cooling inputs. -/
theorem odSet_calm (s : State) {idx : Nat} (sub v : Nat) (h : 0x1504 < idx) : Calm s (odSet s idx sub v) := by
  refine ⟨rfl, rfl, fun i j hi hj => odGet_odSet_ne _ _ ?_⟩
  unfold odKey
  omega

/-! ### Completions and the log -/

theorem complPush_calm (s : State) (f c : Nat) (e : BitVec 256) : Calm s (complPush s f c e) := by
  have h := complPush_complOnly s f c e
  unfold ComplOnly at h
  exact .beside (by rw [h]) (by rw [h]) (by rw [h])

theorem logPush_calm (s : State) (i : LogInfo) : Calm s (logPush s i) := by
  have h := logPush_logOnly s i
  have hod : ∀ a j, a ≤ 0x1504 → j < 256 → odGet (logPush s i) a j = odGet s a j := fun a j ha hj => odGet_logPush s i (by unfold odKey; omega)
  unfold LogOnly at h
  generalize logPush s i = t at *
  have hwv : t.wv = s.wv := by rw [h]
  have htray : t.tray = s.tray := by rw [h]
  exact ⟨hwv, htray, hod⟩

theorem logErr_calm (s : State) (i : LogInfo) : Calm s (logErr s i) :=
  (odSet_calm s _ _ (show 0x1504 < 0x7C20 by decide)).trans (logPush_calm ..)

/-- A notice is sparse, and counts beyond the cooling inputs. -/
theorem notice_calm (s : State) (res : Nat) (i : LogInfo) : Calm s (notice s res i) := by
  unfold notice logSparse
  extract_lets u due
  have hu : Calm s u := odSet_calm s _ _ (show 0x1504 < 0x7C20 by decide)
  clear_value u
  refine .ite (hu.trans (.trans ?_ (logPush_calm ..))) hu
  exact .beside rfl rfl rfl

/-! ### The end of work -/

theorem reqRelease_calm (s : State) (h : Nat) : Calm s (reqRelease s h) := by
  unfold reqRelease
  extract_lets r s₁ step s₂
  have h₁ : Calm s s₁ := .each (fun s x => by exact .beside rfl rfl rfl) _ _
  have h₂ : Calm s₁ s₂ := .each (fun s x => by exact .ite (.refl s) (.beside rfl rfl rfl)) _ _
  have h₃ (u : State) (p : Nat) : Calm u (retainFix u p) :=
    .each (α := Nat × Req) (fun s _ => .ite (.refl s) (by exact .beside rfl rfl rfl)) _ u
  exact (h₁.trans h₂).trans (.trans (by exact .beside rfl rfl rfl) (h₃ ..))

theorem rebuildAsk_calm (s : State) (rotated : List Nat) (retired : List (Nat × Nat)) : Calm s (rebuildAsk s rotated retired) := by
  unfold rebuildAsk
  split
  · have h := rebuildStart_only s rotated retired
    exact .beside (by rw [h]) (by rw [h]) (by rw [h])
  · exact .beside rfl rfl rfl

theorem variantIdle_calm (s : State) (p : Nat) : Calm s (variantIdle s p) :=
  .each (α := Nat × Variant) (fun s x => .trans (t := { s with variants := mset s.variants x.1 { x.2 with rebuilding := true } })
    (.beside rfl rfl rfl) (rebuildAsk_calm ..)) _ s

theorem reqEnd_calm (s : State) (h : Nat) (st : ReqState) (code : Nat) (held : Bool) : Calm s (reqEnd s h st code held) := by
  unfold reqEnd
  extract_lets p s₁ src s₂ s₃ s₄
  have h₂ : Calm s s₂ := (reqRelease_calm s h).trans (by exact .beside rfl rfl rfl)
  have h₃ : Calm s₂ s₃ := .ite (odSet_calm _ _ _ (by decide)) (.refl s₂)
  have h₄ : Calm s₃ s₄ := by
    refine .ite (by exact .beside rfl rfl rfl) ?_
    unfold reqCompl
    extract_lets r c' seq
    exact .ite (by exact .beside rfl rfl rfl) (complPush_calm ..)
  exact ((h₂.trans h₃).trans h₄).trans (variantIdle_calm ..)

theorem ctxEnd_calm (s : State) (c : Nat) (code : Fin 5) : Calm s (ctxEnd s c code) := by
  have h := (ctxEnd_sets s c code).1
  unfold StepEndOnly at h
  exact .beside (by rw [h]) (by rw [h]) (by rw [h])

theorem fenceStep_calm (s : State) (p : Nat) : Calm s (fenceStep s p) := by
  unfold fenceStep
  split
  · exact .refl s
  · next x _ =>
    refine .ite ?_ (.trans (by exact .beside rfl rfl rfl) (.each (fun s c => ctxEnd_calm s c fcAbort) _ _))
    have hb : Calm s (batchFail s x 33) := .each (fun s b => .ite (reqEnd_calm ..) (.ite (reqEnd_calm ..) (.refl s))) _ s
    generalize batchFail s x 33 = u at *
    refine hb.trans ?_
    unfold stepDrop
    extract_lets _ v
    have hv : Calm u v := .beside rfl rfl rfl
    split
    · exact .ite (hv.trans (by exact .beside rfl rfl rfl)) hv
    · exact hv

theorem fenceServices_calm (s : State) (p mask : Nat) : Calm s (fenceServices s p mask) := by
  refine .each (fun s k => ?_) _ s
  split
  · exact .refl s
  · refine .ite ?_ (.refl s)
    unfold serviceFault
    split
    · exact .beside rfl rfl rfl
    · exact .refl s

theorem fenceQuadUsers_calm (s : State) (mask : Nat) : Calm s (fenceQuadUsers s mask) :=
  (Calm.each (fun _ _ => fenceStep_calm ..) _ _).trans (.each (fun _ _ => fenceServices_calm ..) _ _)

/-! ### Lost power -/

theorem queueLost_calm (s : State) (k : Nat) : Calm s (queueLost s k) := by
  unfold queueLost
  extract_lets u
  have hu : Calm s u := .each (fun s j => by
    have hrel : Calm s (releaseReads s j) := by
      unfold releaseReads
      split
      · exact .refl s
      · exact .beside rfl rfl rfl
    dsimp only
    split
    · exact hrel.trans (.beside rfl rfl rfl)
    · exact hrel) _ s
  clear_value u
  exact hu.trans (.beside rfl rfl rfl)

theorem injectGuard_calm (s : State) : Calm s (injectGuard s) := by
  unfold injectGuard
  extract_lets v kind loc d on
  exact .ite (odSet_calm s _ _ (by decide)) (.refl s)

/-! ### The frame of heat -/

/-- No quadrant gains power, the objects up to the cooling inputs stay, and pair and emergency `g` stay unless quadrant `g` is without power. -/
def HeatKept (g : Nat) (s t : State) : Prop :=
  (∀ q, t.tray.quadOn.getLsbD q = true → s.tray.quadOn.getLsbD q = true)
  ∧ (∀ i j, i ≤ 0x1504 → j < 256 → odGet t i j = odGet s i j)
  ∧ (mget t.wv.pairs g = mget s.wv.pairs g ∨ g < 16 ∧ mget t.wv.pairs g = none ∧ t.tray.quadOn.getLsbD g = false)
  ∧ ((qwGet t g).emergency = (qwGet s g).emergency ∨ t.tray.quadOn.getLsbD g = false)

section
variable {g : Nat}

theorem HeatKept.refl (s : State) : HeatKept g s s := ⟨fun _ h => h, fun _ _ _ _ => rfl, .inl rfl, .inl rfl⟩

theorem HeatKept.trans {s t u : State} (h : HeatKept g s t) (k : HeatKept g t u) : HeatKept g s u := by
  obtain ⟨hon, hod, hpair, hagent⟩ := h
  obtain ⟨kon, kod, kpair, kagent⟩ := k
  have hoff (h : t.tray.quadOn.getLsbD g = false) : u.tray.quadOn.getLsbD g = false := by
    by_contra hu
    have := kon g (by simpa using hu)
    rw [h] at this
    cases this
  refine ⟨fun q h => hon q (kon q h), fun i j hi hj => (kod i j hi hj).trans (hod i j hi hj), ?_, ?_⟩
  · rcases kpair with k | k
    · rw [k]
      exact hpair.imp_right fun ⟨hg, hnone, h⟩ => ⟨hg, hnone, hoff h⟩
    · exact .inr k
  · rcases kagent with k | k
    · rw [k]
      exact hagent.imp_right hoff
    · exact .inr k

/-- A change beside power, the sensors and the objects. -/
theorem HeatKept.beside {s t : State} (hwv : t.wv = s.wv) (hpav : t.pav.vals = s.pav.vals) (htray : t.tray.quadOn = s.tray.quadOn) : HeatKept g s t := by
  refine ⟨fun q h => by rwa [← htray], fun i j _ _ => ?_, .inl (by rw [hwv]), .inl (by rw [qwGet, hwv]; rfl)⟩
  unfold odGet
  rw [hpav]

theorem HeatKept.each_mem {α : Type} {f : State → α → State} {l : List α} (hf : ∀ s x, x ∈ l → HeatKept g s (f s x)) (s : State) :
    HeatKept g s (Machine.each l f s) := by
  induction l generalizing s with
  | nil => exact .refl s
  | cons a l ih =>
    rw [each_cons]
    exact (hf s a List.mem_cons_self).trans (ih (fun s x hx => hf s x (List.mem_cons_of_mem a hx)) _)

theorem HeatKept.each {α : Type} {f : State → α → State} (hf : ∀ s x, HeatKept g s (f s x)) (l : List α) (s : State) : HeatKept g s (Machine.each l f s) :=
  .each_mem (fun s x _ => hf s x) s

theorem HeatKept.ite {c : Prop} [Decidable c] {s t u : State} (ht : HeatKept g s t) (hu : HeatKept g s u) : HeatKept g s (if c then t else u) := by
  split
  · exact ht
  · exact hu

theorem Calm.heatKept {s t : State} (h : Calm s t) : HeatKept g s t := by
  obtain ⟨hwv, htray, hod⟩ := h
  exact ⟨fun q hq => by rwa [← htray], hod, .inl (by rw [hwv]), .inl (by rw [qwGet, hwv]; rfl)⟩

/-- A quadrant that loses its power loses its agent and its sensors, and no other quadrant does. -/
theorem quadPowerOff_sensors (s : State) (q : Nat) : let t := quadPowerOff s q
    t.wv = { s.wv with quads := mdel s.wv.quads q, pairs := mdel s.wv.pairs q } ∧ t.tray.quadOn = s.tray.quadOn &&& ~~~BitVec.ofNat 16 (2 ^ q)
    ∧ ∀ i j, i ≤ 0x1504 → j < 256 → odGet t i j = odGet s i j := by
  intro t
  unfold t quadPowerOff
  extract_lets u
  have hclear : Calm s (quadClear s q) := (odSet_calm s _ _ (show 0x1504 < 0x4010 by decide)).trans (.beside rfl rfl rfl)
  obtain ⟨hwv, htray, hod⟩ : Calm s u := hclear.trans (.each (fun s k => queueLost_calm s k) _ _)
  clear_value u
  obtain ⟨kwv, ktray, kod⟩ := injectGuard_calm { u with
    tray := { u.tray with quadOn := u.tray.quadOn &&& ~~~ BitVec.ofNat 16 (2 ^ q) }
    cores := u.cores.filter fun x => coreQuad x.1 != q
    seq := { u.seq with lanes := u.seq.lanes.map fun x => (x.1, if clusQuad x.1 = q then { x.2 with cvu := [] } else x.2) }
    wv := { u.wv with quads := mdel u.wv.quads q, pairs := mdel u.wv.pairs q } }
  refine ⟨kwv.trans (by rw [hwv]), ?_, fun i j hi hj => (kod i j hi hj).trans (hod i j hi hj)⟩
  rw [ktray, htray]

theorem quadPowerOff_heatKept (s : State) {q : Nat} (hq : q < 16) : HeatKept g s (quadPowerOff s q) := by
  obtain ⟨hwv, hon, hod⟩ := quadPowerOff_sensors s q
  generalize quadPowerOff s q = t at *
  have hoff : t.tray.quadOn.getLsbD q = false := by rw [hon, getLsbD_and_not_self]
  refine ⟨fun r hr => ?_, hod, ?_, ?_⟩
  · rw [hon] at hr
    exact getLsbD_and_not _ _ _ hr
  · rw [hwv]
    dsimp only
    rw [mget_mdel]
    split
    · next h => exact .inr ⟨h ▸ hq, rfl, h ▸ hoff⟩
    · exact .inl rfl
  · unfold qwGet
    rw [hwv, mgetD]
    dsimp only
    rw [mget_mdel]
    split
    · next h => exact .inr (h ▸ hoff)
    · exact .inl rfl

theorem diePowerOff_heatKept (s : State) {d : Nat} (hd : d < 4) : HeatKept g s (diePowerOff s d) := by
  unfold diePowerOff
  extract_lets u
  have hu : HeatKept g s u := by
    refine HeatKept.trans (.each_mem (fun s q hq => quadPowerOff_heatKept s ?_) s) ((queueLost_calm ..).heatKept)
    simp only [List.mem_map, List.mem_range] at hq
    omega
  clear_value u
  refine (hu.trans ?_).trans (injectGuard_calm _).heatKept
  exact .beside rfl rfl rfl

theorem quadsOff_heatKept (s : State) {qs : List Nat} (hqs : ∀ q, q ∈ qs → q < 16) : HeatKept g s (quadsOff s qs) := by
  refine HeatKept.trans (.each_mem (fun s q hq => quadPowerOff_heatKept s (hqs q hq)) s) (.each_mem (fun s d hd => ?_) _)
  exact .ite (diePowerOff_heatKept s (List.mem_range.mp hd)) (.refl s)

theorem rehearsalLeave_heatKept (s : State) : HeatKept g s (rehearsalLeave s) :=
  .ite (quadsOff_heatKept s fun _ hq => (mem_bitsOf.mp (List.mem_filter.mp hq).1).1) (.refl s)

theorem declareFailed_heatKept (s : State) (i : LogInfo) : HeatKept g s (declareFailed s i) := by
  unfold declareFailed
  split
  · exact .refl s
  · extract_lets u
    have hu : HeatKept g s u := (logErr_calm ..).heatKept.trans (rehearsalLeave_heatKept _)
    clear_value u
    exact hu.trans (.beside rfl rfl rfl)

theorem fenceQuad_heatKept (s : State) {q : Nat} (i : LogInfo) (hq : q < 16) : HeatKept g s (fenceQuad s q i) := by
  unfold fenceQuad
  extract_lets _ u
  have hu : HeatKept g s u := .beside rfl rfl rfl
  clear_value u
  have hv : HeatKept g s (quadPowerOff (fenceQuadUsers u (2 ^ q)) q) := (hu.trans (fenceQuadUsers_calm ..).heatKept).trans (quadPowerOff_heatKept _ hq)
  generalize quadPowerOff (fenceQuadUsers u (2 ^ q)) q = v at *
  exact hv.trans (.ite (.trans (by exact .beside rfl rfl rfl) (declareFailed_heatKept ..)) (.refl v))

/-- A tray that the heat ends keeps its sensors, but for those of units without power. -/
theorem thermalEnd_heatKept (s : State) : HeatKept g s (thermalEnd s) := by
  unfold thermalEnd
  extract_lets u v
  have hu : HeatKept g s u := declareFailed_heatKept ..
  have hv : HeatKept g u v := .each_mem (fun s d hd => diePowerOff_heatKept s (List.mem_range.mp hd)) u
  clear_value u v
  exact (hu.trans hv).trans (.beside rfl rfl rfl)

end

/-! ### A shutdown for heat (R368) -/

/-- The tray has failed, or shuts down. -/
def HeatEnds (t : State) : Prop := t.tray.failed = true ∨ t.wv.shuttingDown = true

/-- What a shutdown for heat leaves: the sensors, the cooling inputs, fuses and fences, and the hub's common domain and Gatehouse. It takes back no end. -/
def ShutOnly (s t : State) : Prop :=
  (∀ g, HeatKept g s t) ∧ t.wv = { s.wv with quads := t.wv.quads, pairs := t.wv.pairs, shuttingDown := t.wv.shuttingDown }
  ∧ t.flash = { s.flash with keptLog := t.flash.keptLog } ∧ t.fuses = s.fuses ∧ t.clk = s.clk
  ∧ t.tray.hub = { s.tray.hub with zoetrope := t.tray.hub.zoetrope } ∧ (HeatEnds s → HeatEnds t)
  ∧ (s.tray.failedThermal = true → t.tray.failedThermal = true) ∧ (t.tray.failedThermal = true → s.tray.failedThermal = true ∨ t.tray.failed = true)
  ∧ (s.tray.failed = true → t.tray.failed = true)

theorem ShutOnly.refl (s : State) : ShutOnly s s := ⟨fun _ => .refl s, rfl, rfl, rfl, rfl, rfl, id, id, .inl, id⟩

theorem ShutOnly.trans {s t u : State} (h : ShutOnly s t) (k : ShutOnly t u) : ShutOnly s u := by
  obtain ⟨hheat, hwv, hflash, hfuses, hclk, hhub, hends, hterm, hback, hfail⟩ := h
  obtain ⟨kheat, kwv, kflash, kfuses, kclk, khub, kends, kterm, kback, kfail⟩ := k
  refine ⟨fun g => (hheat g).trans (kheat g), by rw [kwv, hwv], by rw [kflash, hflash], kfuses.trans hfuses, kclk.trans hclk, by rw [khub, hhub],
    kends ∘ hends, kterm ∘ hterm, fun h => ?_, kfail ∘ hfail⟩
  rcases kback h with h | h
  · exact (hback h).imp_right kfail
  · exact .inr h

/-- Of the tray the update, the links, the functions and the output alone may differ. -/
def StopOnly (s t : State) : Prop := t = { s with upd := t.upd, trl := t.trl, out := t.out, pcie := t.pcie }

theorem StopOnly.trans {s t u : State} (h : StopOnly s t) (k : StopOnly t u) : StopOnly s u := by
  unfold StopOnly at *
  rw [k, h]

theorem LinkOnly.stopOnly {s t : State} (h : LinkOnly s t) : StopOnly s t := by
  unfold StopOnly
  rw [h]

theorem msixSend_stopOnly (s : State) (f v : Nat) : StopOnly s (msixSend s f v) := by
  unfold msixSend
  extract_lets x
  split
  · exact rfl
  · exact rfl

theorem activationStop_stopOnly (s : State) : StopOnly s (activationStop s) := by
  unfold activationStop
  split
  · extract_lets u
    have hu : StopOnly s u := by
      unfold u armDrop
      split
      · exact rfl
      · refine StopOnly.trans ?_ (armTell_linkOnly _).stopOnly
        exact rfl
    clear_value u
    refine (hu.trans ?_).trans (msixSend_stopOnly ..)
    exact rfl
  · exact rfl

theorem StopOnly.shutOnly {s t : State} (h : StopOnly s t) : ShutOnly s t := by
  have hwv : t.wv = s.wv := by rw [h]
  have htray : t.tray = s.tray := by rw [h]
  have hpav : t.pav = s.pav := by rw [h]
  refine ⟨fun g => .beside hwv (by rw [hpav]) (by rw [htray]), by rw [hwv], by rw [h], by rw [h], by rw [h], by rw [htray], ?_, ?_, ?_, ?_⟩
  · unfold HeatEnds
    rw [hwv, htray]
    exact id
  · rw [htray]
    exact id
  · rw [htray]
    exact .inl
  · rw [htray]
    exact id

/-- The fields that a failure of the tray leaves. -/
theorem FailOnly.shutOnly {s t : State} (h : FailOnly s t) (hheat : ∀ g, HeatKept g s t) (hfail : s.tray.failed = true → t.tray.failed = true) : ShutOnly s t := by
  obtain ⟨h, -⟩ := h
  have hwv : t.wv = { s.wv with quads := t.wv.quads, pairs := t.wv.pairs } := by rw [h]
  have hdown : t.wv.shuttingDown = s.wv.shuttingDown := by rw [hwv]
  have hthermal : t.tray.failedThermal = s.tray.failedThermal := by rw [h]
  have hhub : t.tray.hub = s.tray.hub := by rw [h]
  refine ⟨hheat, by rw [hdown]; exact hwv, by rw [h], by rw [h], by rw [h], by rw [hhub], ?_, ?_, ?_, hfail⟩
  · unfold HeatEnds
    rw [hdown]
    exact .imp_left hfail
  · rw [hthermal]
    exact id
  · rw [hthermal]
    exact .inl

theorem WorkOnly.tray_failed {s t : State} (h : WorkOnly s t) : t.tray.failed = s.tray.failed := by rw [h.1]

theorem thermalEnd_shutOnly (s : State) : ShutOnly s (thermalEnd s) := by
  unfold thermalEnd
  extract_lets u v
  have hfail : u.tray.failed = true := declareFailed_tray_failed ..
  have hu : ShutOnly s u := (declareFailed_failOnly ..).shutOnly (fun _ => declareFailed_heatKept ..) fun _ => hfail
  have hwork : WorkOnly u v := .each (fun _ _ => diePowerOff_workOnly ..) _ _
  have hv : ShutOnly u v := hwork.failOnly.shutOnly (fun _ => .each_mem (fun s d hd => diePowerOff_heatKept s (List.mem_range.mp hd)) u) fun h => hwork.tray_failed.trans h
  have hvfail : v.tray.failed = true := hwork.tray_failed.trans hfail
  clear_value u v
  refine (hu.trans hv).trans ⟨fun _ => .beside rfl rfl rfl, rfl, rfl, rfl, rfl, rfl, fun h => ?_, fun _ => rfl, fun _ => .inr hvfail, id⟩
  exact h

/-- A shutdown for heat ends the tray's service at once, or with the final snapshot. -/
theorem thermalShutdown_spec (s : State) : ShutOnly s (thermalShutdown s) ∧ HeatEnds (thermalShutdown s) := by
  unfold thermalShutdown
  split
  · next h => exact ⟨.refl s, by simpa [HeatEnds] using h⟩
  · extract_lets _ u
    have hbegin : ShutOnly s { s with wv := { s.wv with shuttingDown := true } } :=
      ⟨fun _ => ⟨fun _ h => h, fun _ _ _ _ => rfl, .inl rfl, .inl rfl⟩, rfl, rfl, rfl, rfl, rfl, fun _ => .inr rfl, id, .inl, id⟩
    have hstop : StopOnly { s with wv := { s.wv with shuttingDown := true } } u := activationStop_stopOnly _
    have hu : ShutOnly s u := hbegin.trans hstop.shutOnly
    have hdown : u.wv.shuttingDown = true := by rw [hstop]
    clear_value u
    split
    · exact ⟨hu.trans ⟨fun _ => .beside rfl rfl rfl, rfl, rfl, rfl, rfl, rfl, id, id, .inl, id⟩, .inr hdown⟩
    · exact ⟨hu.trans (thermalEnd_shutOnly u), .inl (thermalEnd_fails u).1⟩

/-- Below 60 °C an inlet's heat shuts the tray down at most. -/
theorem inletAct_spec {s : State} (hcool : s.wv.tinReal = true → s.wv.tin < 6000) :
    ShutOnly s (inletAct s) ∧ (s.tray.failedThermal = false → s.wv.tinReal = true → 5000 < s.wv.tin → HeatEnds (inletAct s)) := by
  unfold inletAct
  split
  · next h =>
    rw [if_neg fun hhot => absurd (hcool hhot.1) (by omega)]
    exact ⟨.refl s, fun hcold => by rw [h] at hcold; cases hcold⟩
  · split
    · exact ⟨(thermalShutdown_spec s).1, fun _ _ _ => (thermalShutdown_spec s).2⟩
    · next h => exact ⟨.refl s, fun _ hreal hhot => absurd ⟨hreal, hhot⟩ h⟩

end Sys2Proof.Machine
end

section
/-! SUPPORT. O54: the sensors as they are read (R361 to R365). -/

namespace Sys2Proof.Machine

open Sys2Proof Sys2Proof.Claims

/-! ### Walks -/

/-- What each turn of a walk makes true of its own element holds at the end, where the other turns keep it. -/
theorem each_visits {α : Type} {f : State → α → State} {P : α → State → Prop} (hset : ∀ u n, P n (f u n)) (hkeep : ∀ u n m, m ≠ n → P m u → P m (f u n))
    {l : List α} {s : State} : ∀ n, n ∈ l → P n (each l f s) := by
  have hrest : ∀ (l : List α) (s : State) n, P n s → P n (each l f s) := by
    intro l
    induction l with
    | nil => exact fun _ _ h => h
    | cons a l ih =>
      intro s n h
      rw [each_cons]
      refine ih _ n ?_
      by_cases hna : n = a
      · rw [hna]
        exact hset s a
      · exact hkeep s a n hna h
  induction l generalizing s with
  | nil => exact fun _ h => absurd h List.not_mem_nil
  | cons a l ih =>
    intro n hn
    rw [each_cons]
    rcases List.mem_cons.mp hn with rfl | hn
    · exact hrest l _ _ (hset s n)
    · exact ih n hn

/-- What is ready before its turn, and is kept by the others' turns before and after, is done at the end. -/
theorem each_readies {α : Type} {f : State → α → State} {Ready Done : α → State → Prop} {l : List α} (hl : l.Nodup)
    (hturn : ∀ u n, n ∈ l → Ready n u → Done n (f u n)) (hready : ∀ u n m, n ∈ l → m ≠ n → Ready m u → Ready m (f u n))
    (hdone : ∀ u n m, n ∈ l → m ≠ n → Done m u → Done m (f u n)) {s : State} (hs : ∀ n, n ∈ l → Ready n s) : ∀ n, n ∈ l → Done n (each l f s) := by
  have hrest : ∀ (k : List α), (∀ n, n ∈ k → n ∈ l) → ∀ (s : State) n, n ∉ k → Done n s → Done n (each k f s) := by
    intro k
    induction k with
    | nil => exact fun _ _ _ _ h => h
    | cons a k ih =>
      intro hk s n hn h
      rw [List.mem_cons, not_or] at hn
      rw [each_cons]
      exact ih (fun n hn => hk n (List.mem_cons_of_mem a hn)) _ n hn.2 (hdone s a n (hk a List.mem_cons_self) hn.1 h)
  suffices h : ∀ (k : List α), k.Nodup → (∀ n, n ∈ k → n ∈ l) → ∀ s : State, (∀ n, n ∈ k → Ready n s) → ∀ n, n ∈ k → Done n (each k f s) from
    h l hl (fun _ h => h) s hs
  intro k
  induction k with
  | nil => exact fun _ _ _ _ n h => absurd h List.not_mem_nil
  | cons a k ih =>
    intro hk hmem s hs n hn
    obtain ⟨hak, hk⟩ := List.nodup_cons.mp hk
    rw [each_cons]
    have ha := hmem a List.mem_cons_self
    rcases List.mem_cons.mp hn with rfl | hn
    · exact hrest k (fun n hn => hmem n (List.mem_cons_of_mem _ hn)) _ n hak (hturn s n ha (hs n List.mem_cons_self))
    · exact ih hk (fun n hn => hmem n (List.mem_cons_of_mem a hn)) _
        (fun m hm => hready s a m ha (fun h => hak (h ▸ hm)) (hs m (List.mem_cons_of_mem a hm))) n hn

/-! ### Pairs and stacks -/

/-- Reading sensors touches the agents, what the sensors read, and the log. -/
def SenseOnly (s t : State) : Prop :=
  LogOnly { s with wv := t.wv } t
  ∧ t.wv = { s.wv with quads := t.wv.quads, pairs := t.wv.pairs, hbmTemp := t.wv.hbmTemp, hbmBad := t.wv.hbmBad, hbmRefresh := t.wv.hbmRefresh, hbmCeil := t.wv.hbmCeil }
  ∧ ∀ i j, i ≤ 0x1504 → j < 256 → odGet t i j = odGet s i j

theorem SenseOnly.refl (s : State) : SenseOnly s s := ⟨rfl, rfl, fun _ _ _ _ => rfl⟩

theorem SenseOnly.trans {s t u : State} (h : SenseOnly s t) (k : SenseOnly t u) : SenseOnly s u := by
  obtain ⟨hlog, hwv, hod⟩ := h
  obtain ⟨klog, kwv, kod⟩ := k
  refine ⟨?_, by rw [kwv, hwv], fun i j hi hj => (kod i j hi hj).trans (hod i j hi hj)⟩
  unfold LogOnly at *
  rw [klog, hlog]

theorem SenseOnly.each {α : Type} {f : State → α → State} (hf : ∀ s x, SenseOnly s (f s x)) (l : List α) (s : State) : SenseOnly s (Machine.each l f s) :=
  each_rel .refl .trans hf l s

theorem notice_logOnly (s : State) (res : Nat) (i : LogInfo) : LogOnly s (notice s res i) := logSparse_logOnly ..

/-- A notice leaves what the sensors read. -/
theorem notice_senseOnly (s : State) (res : Nat) (i : LogInfo) : SenseOnly s (notice s res i) ∧ (notice s res i).wv = s.wv := by
  obtain ⟨hwv, -, hod⟩ := notice_calm s res i
  refine ⟨⟨?_, by rw [hwv], hod⟩, hwv⟩
  rw [hwv]
  exact notice_logOnly s res i

theorem bump_senseOnly (s : State) {idx : Nat} (sub : Nat) (h : 0x1504 < idx) : SenseOnly s (bump32 s idx sub) :=
  ⟨rfl, rfl, (odSet_calm s sub _ h).2.2⟩

/-- A pair was read as `a` and `b`. -/
def PairTaken (a b : Int) (n : Nat) (t : State) : Prop :=
  ∃ al, (mgetD t.wv.pairs n {}).gov = (pairGov a b).1 ∧ (mgetD t.wv.pairs n {}).alert = alertMax al (pairGov a b).2

/-- What a pair keeps of a reading. -/
def pairNew (x : PairS) (now : Nat) (a b : Int) : PairS :=
  { a := a, b := b, gov := (pairGov a b).1, alert := alertMax x.alert (pairGov a b).2
    agreeSince := if tempOk a && tempOk b && decide ((if a ≤ b then b - a else a - b) ≤ 300) then some (x.agreeSince.getD now) else none }

/-- The reading itself, without its report. -/
def pairSet (s : State) (n : Nat) (a b : Int) : State :=
  { s with wv := { s.wv with pairs := mset s.wv.pairs n (pairNew (mgetD s.wv.pairs n {}) s.clk.now a b) } }

/-- The report of a pair whose alert has grown. -/
def pairNote (n : Nat) (g : Option Int) : LogInfo :=
  { cls := 1, block := 10, kind := 0, quad := if n < 16 then n else 0x3F, action := 1, detail := ux 64 (g.getD 0) }

theorem pairRead_eq (s : State) (n : Nat) (a b : Int) :
    let y := pairNew (mgetD s.wv.pairs n {}) s.clk.now a b
    pairRead s n a b = if y.alert = (mgetD s.wv.pairs n {}).alert then pairSet s n a b
      else notice (bump32 (pairSet s n a b) (if y.alert = .alarm then 0x1507 else 0x1506) (n + 1)) (2 ^ 62 + n) (pairNote n y.gov) := rfl

theorem pairRead_spec (s : State) (n : Nat) (a b : Int) : let t := pairRead s n a b
    SenseOnly s t ∧ PairTaken a b n t ∧ (∀ m, m ≠ n → mget t.wv.pairs m = mget s.wv.pairs m) := by
  intro t
  have hset : SenseOnly s (pairSet s n a b) := ⟨rfl, rfl, fun _ _ _ _ => rfl⟩
  have htaken : mgetD (pairSet s n a b).wv.pairs n {} = pairNew (mgetD s.wv.pairs n {}) s.clk.now a b := mgetD_mset_same ..
  have hother : ∀ m, m ≠ n → mget (pairSet s n a b).wv.pairs m = mget s.wv.pairs m := fun m hm => mget_mset_ne _ _ hm
  have ht : SenseOnly (pairSet s n a b) t ∧ t.wv = (pairSet s n a b).wv := by
    have heq := pairRead_eq s n a b
    dsimp only at heq
    change t = _ at heq
    clear_value t
    subst heq
    split
    · exact ⟨.refl _, rfl⟩
    · generalize hidx : (if (pairNew (mgetD s.wv.pairs n {}) s.clk.now a b).alert = PairAlert.alarm then 0x1507 else 0x1506) = idx
      have hbig : 0x1504 < idx := by
        rw [← hidx]
        split
        · decide
        · decide
      obtain ⟨hnote, hwv⟩ := notice_senseOnly (bump32 (pairSet s n a b) idx (n + 1)) (2 ^ 62 + n) (pairNote n (pairNew (mgetD s.wv.pairs n {}) s.clk.now a b).gov)
      exact ⟨(bump_senseOnly _ _ hbig).trans hnote, hwv⟩
  clear_value t
  generalize pairSet s n a b = u at *
  obtain ⟨ht, htwv⟩ := ht
  refine ⟨hset.trans ht, ⟨(mgetD s.wv.pairs n {}).alert, ?_, ?_⟩, ?_⟩
  · rw [htwv, htaken]
    rfl
  · rw [htwv, htaken]
    rfl
  · rw [htwv]
    exact hother

/-- A stack was read as `x`. -/
def StackTaken (x : Int) (k : Nat) (t : State) : Prop :=
  mget t.wv.hbmTemp k = some x ∧ (tempOk x = false → mget t.wv.hbmCeil k = some (1000, 9500))

theorem stackRead_spec (s : State) (k : Nat) (x : Int) : let t := stackRead s k x
    SenseOnly s t ∧ t.wv.pairs = s.wv.pairs ∧ StackTaken x k t ∧ ∀ m y, m ≠ k → StackTaken y m s → StackTaken y m t := by
  intro t
  unfold t stackRead
  extract_lets old _ u _
  split
  · next hok =>
    refine ⟨⟨rfl, rfl, fun _ _ _ _ => rfl⟩, rfl, ⟨mget_mset_same .., fun h => ?_⟩, fun m y hm h => ⟨?_, fun hy => ?_⟩⟩
    · rw [hok] at h
      cases h
    · exact (mget_mset_ne _ _ hm).trans h.1
    · exact (mget_mset_ne _ _ hm).trans (h.2 hy)
  · have hu : SenseOnly s u ∧ u.wv = s.wv := by
      unfold u
      split
      · exact ⟨.refl s, rfl⟩
      · exact notice_senseOnly ..
    obtain ⟨hu, huwv⟩ := hu
    clear_value u
    refine ⟨hu.trans ⟨rfl, rfl, fun _ _ _ _ => rfl⟩, congrArg (fun w => w.pairs) huwv, ⟨mget_mset_same .., fun _ => mget_mset_same ..⟩, fun m y hm h => ?_⟩
    obtain ⟨ht, hc⟩ := h
    rw [← huwv] at ht hc
    exact ⟨(mget_mset_ne _ _ hm).trans ht, fun hy => (mget_mset_ne _ _ hm).trans (hc hy)⟩

/-! ### The readings taken -/

/-- Every pair of a powered quadrant read, and the pair of H. -/
def pairsRead (r : Readings) (s : State) : State :=
  pairRead (each (bitsOf 16 s.tray.quadOn.toNat) (fun s q => pairRead s q (r.junctionA.getD q 2500) (r.junctionB.getD q 2500)) s) 16 r.hubA r.hubB

/-- Every stack read. -/
def stacksRead (r : Readings) (s : State) : State := each (List.range 8) (fun s k => stackRead s k (r.hbm.getD k 2500)) s

/-- A quadrant's ceiling moved for its junction. -/
def ceilTaken (s : State) (q : Nat) : State :=
  match govTemp s q with
  | some t => qwSet s q { qwGet s q with
      tempCeil := (ceilMove ((qwGet s q).tempCeil, (qwGet s q).tempCeilAt) 9500 t).1
      tempCeilAt := (ceilMove ((qwGet s q).tempCeil, (qwGet s q).tempCeilAt) 9500 t).2 }
  | none => s

/-- All that is read before any unit is judged. -/
def sensed (r : Readings) (s : State) : State :=
  let v := stacksRead r (pairsRead r s)
  each (bitsOf 16 v.tray.quadOn.toNat) ceilTaken v

theorem pairsRead_spec (r : Readings) (s : State) : let t := pairsRead r s
    SenseOnly s t ∧ (∀ n, n < 16 → s.tray.quadOn.getLsbD n = true → PairTaken (r.junctionA.getD n 2500) (r.junctionB.getD n 2500) n t)
    ∧ PairTaken r.hubA r.hubB 16 t ∧ ∀ n, n ≠ 16 → s.tray.quadOn.getLsbD n = false → mget t.wv.pairs n = mget s.wv.pairs n := by
  intro t
  unfold t pairsRead
  generalize hu : each (bitsOf 16 s.tray.quadOn.toNat) (fun s q => pairRead s q (r.junctionA.getD q 2500) (r.junctionB.getD q 2500)) s = u
  have hsense : SenseOnly s u := by
    rw [← hu]
    exact .each (fun s q => (pairRead_spec ..).1) _ s
  have htaken : ∀ n, n ∈ bitsOf 16 s.tray.quadOn.toNat → PairTaken (r.junctionA.getD n 2500) (r.junctionB.getD n 2500) n u := by
    rw [← hu]
    refine each_visits (P := fun n t => PairTaken (r.junctionA.getD n 2500) (r.junctionB.getD n 2500) n t) (fun u n => (pairRead_spec ..).2.1) (fun u n m hm h => ?_)
    have hkeep := (pairRead_spec u n (r.junctionA.getD n 2500) (r.junctionB.getD n 2500)).2.2 m hm
    unfold PairTaken mgetD at *
    rwa [hkeep]
  have hother : ∀ n, s.tray.quadOn.getLsbD n = false → mget u.wv.pairs n = mget s.wv.pairs n := by
    intro n hoff
    have hn : n ∉ bitsOf 16 s.tray.quadOn.toNat := fun h => by
      have : s.tray.quadOn.getLsbD n = true := (mem_bitsOf.mp h).2
      rw [hoff] at this
      cases this
    clear htaken hsense
    subst hu
    generalize bitsOf 16 s.tray.quadOn.toNat = l at *
    clear hoff
    induction l generalizing s with
    | nil => rfl
    | cons a l ih =>
      rw [List.mem_cons, not_or] at hn
      rw [each_cons, ih _ hn.2]
      exact (pairRead_spec ..).2.2 n hn.1
  obtain ⟨hlast, hhub, hkeep⟩ := pairRead_spec u 16 r.hubA r.hubB
  refine ⟨hsense.trans hlast, fun n hn hon => ?_, hhub, fun n hn hoff => (hkeep n hn).trans (hother n hoff)⟩
  have h := htaken n (mem_bitsOf.mpr ⟨hn, hon⟩)
  unfold PairTaken mgetD at *
  rwa [hkeep n (by omega)]

theorem stacksRead_spec (r : Readings) (s : State) : let t := stacksRead r s
    SenseOnly s t ∧ t.wv.pairs = s.wv.pairs ∧ ∀ k, k < 8 → StackTaken (r.hbm.getD k 2500) k t := by
  intro t
  refine ⟨.each (fun s k => (stackRead_spec ..).1) _ s, ?_, fun k hk => ?_⟩
  · exact each_rel (R := fun s t : State => t.wv.pairs = s.wv.pairs) (fun _ => rfl) (fun h k => k.trans h) (fun s k => (stackRead_spec ..).2.1) _ s
  · exact each_visits (P := fun k t => StackTaken (r.hbm.getD k 2500) k t) (fun u n => (stackRead_spec ..).2.2.1)
      (fun u n m hm h => (stackRead_spec ..).2.2.2 m _ hm h) k (List.mem_range.mpr hk)

/-- Ceilings touch the agents alone. -/
theorem ceilsTaken_only (l : List Nat) (s : State) : QuadsOnly s (each l ceilTaken s) :=
  each_rel .refl .trans (fun s q => by
    unfold ceilTaken
    split
    · exact rfl
    · exact .refl s) l s

theorem QuadsOnly.senseOnly {s t : State} (h : QuadsOnly s t) : SenseOnly s t := by
  have hwv : t.wv = { s.wv with quads := t.wv.quads } := congrArg (fun s => s.wv) h
  have hpav : t.pav = s.pav := by rw [h]
  refine ⟨?_, ?_, fun i j _ _ => ?_⟩
  · unfold LogOnly
    rw [h]
  · rw [hwv]
  · unfold odGet
    rw [hpav]

theorem sensed_spec (r : Readings) (s : State) : let t := sensed r s
    SenseOnly s t ∧ (∀ n, n < 16 → s.tray.quadOn.getLsbD n = true → PairTaken (r.junctionA.getD n 2500) (r.junctionB.getD n 2500) n t)
    ∧ PairTaken r.hubA r.hubB 16 t ∧ (∀ n, n ≠ 16 → s.tray.quadOn.getLsbD n = false → mget t.wv.pairs n = mget s.wv.pairs n)
    ∧ ∀ k, k < 8 → StackTaken (r.hbm.getD k 2500) k t := by
  intro t
  unfold t sensed
  obtain ⟨hpairs, htaken, hhub, hoff⟩ := pairsRead_spec r s
  obtain ⟨hstacks, hsame, hstack⟩ := stacksRead_spec r (pairsRead r s)
  generalize pairsRead r s = u at *
  generalize stacksRead r u = v at *
  have hceil := ceilsTaken_only (bitsOf 16 v.tray.quadOn.toNat) v
  dsimp only
  generalize each (bitsOf 16 v.tray.quadOn.toNat) ceilTaken v = t at *
  have hwv : t.wv = { v.wv with quads := t.wv.quads } := congrArg (fun s => s.wv) hceil
  have htp : t.wv.pairs = u.wv.pairs := by rw [hwv]; exact hsame
  refine ⟨hpairs.trans (hstacks.trans hceil.senseOnly), fun n hn hon => ?_, ?_, fun n hn h => ?_, fun k hk => ?_⟩
  · unfold PairTaken
    rw [htp]
    exact htaken n hn hon
  · unfold PairTaken
    rw [htp]
    exact hhub
  · rw [htp]
    exact hoff n hn h
  · unfold StackTaken
    rw [hwv]
    exact hstack k hk

end Sys2Proof.Machine
end

section
/-! SUPPORT. O54: what the readings decide: emergencies, fences, the cooling state and the shutdown (R361 to R368). -/

namespace Sys2Proof.Machine

open Sys2Proof Sys2Proof.Claims

/-! ### Quadrants judged -/

/-- What judging a quadrant leaves: all but agents, pairs, power, fences and the tray's failure. -/
def JudgeOnly (s t : State) : Prop :=
  t.wv = { s.wv with quads := t.wv.quads, pairs := t.wv.pairs } ∧ t.fuses = s.fuses ∧ t.clk = s.clk ∧ t.tray.hub = s.tray.hub
  ∧ t.tray.failedThermal = s.tray.failedThermal ∧ (s.tray.failed = true → t.tray.failed = true)
  ∧ (∀ q, s.flash.fencedQuads.getLsbD q = true → t.flash.fencedQuads.getLsbD q = true)
  ∧ (∀ i j, i ≤ 0x1504 → j < 256 → odGet t i j = odGet s i j)
  ∧ (∀ q, t.tray.quadOn.getLsbD q = true → s.tray.quadOn.getLsbD q = true)
  ∧ ∀ g, mget t.wv.pairs g = mget s.wv.pairs g ∨ g < 16 ∧ mget t.wv.pairs g = none ∧ t.tray.quadOn.getLsbD g = false

theorem JudgeOnly.refl (s : State) : JudgeOnly s s :=
  ⟨rfl, rfl, rfl, rfl, rfl, id, fun _ h => h, fun _ _ _ _ => rfl, fun _ h => h, fun _ => .inl rfl⟩

theorem JudgeOnly.trans {s t u : State} (h : JudgeOnly s t) (k : JudgeOnly t u) : JudgeOnly s u := by
  obtain ⟨hwv, hfuses, hclk, hhub, hthermal, hfail, hfence, hod, hon, hpair⟩ := h
  obtain ⟨kwv, kfuses, kclk, khub, kthermal, kfail, kfence, kod, kon, kpair⟩ := k
  refine ⟨by rw [kwv, hwv], kfuses.trans hfuses, kclk.trans hclk, khub.trans hhub, kthermal.trans hthermal, kfail ∘ hfail, fun q h => kfence q (hfence q h),
    fun i j hi hj => (kod i j hi hj).trans (hod i j hi hj), fun q h => hon q (kon q h), fun g => ?_⟩
  rcases kpair g with k | k
  · rw [k]
    refine (hpair g).imp_right fun ⟨hg, hnone, hoff⟩ => ⟨hg, hnone, ?_⟩
    by_contra hu
    have := kon g (by simpa using hu)
    rw [hoff] at this
    cases this
  · exact .inr k

/-- A failure of the tray is a judgement that fences nothing. -/
theorem FailOnly.judgeOnly {s t : State} (h : FailOnly s t) (hheat : ∀ g, HeatKept g s t) (hfail : s.tray.failed = true → t.tray.failed = true) : JudgeOnly s t := by
  obtain ⟨hon, hod, -, -⟩ := hheat 0
  obtain ⟨h, -⟩ := h
  exact ⟨by rw [h], by rw [h], by rw [h], by rw [h], by rw [h], hfail, fun q hq => by rw [h]; exact hq, hod, hon, fun g => (hheat g).2.2.1⟩

theorem declareFailed_stays (s : State) (i : LogInfo) : (declareFailed s i).tray.failed = true := declareFailed_tray_failed ..

/-- A pair that serves yields and fails without a rehearsal to end: no quadrant loses its power. -/
theorem fenceYield_power (s : State) (i : LogInfo) : (fenceYield s i).tray.quadOn = s.tray.quadOn := by
  unfold fenceYield
  split
  · next hserve =>
    unfold declareFailed
    split
    · rfl
    · extract_lets u
      have hlog := logErr_calm (sendYield s) { i with cls := 5, action := 7 }
      have hpair := logErr_pair (sendYield s) { i with cls := 5, action := 7 }
      have hu : u = logErr (sendYield s) { i with cls := 5, action := 7 } := by
        refine if_neg ?_
        rw [hpair]
        intro hrole
        have hrole : s.pair.role = .rehearsing := hrole
        simp [pairServing, hrole] at hserve
      show u.tray.quadOn = s.tray.quadOn
      rw [hu, hlog.2.1]
      rfl
  · rfl

/-- A fence of a quadrant is taken in a state that the end of work alone has changed. -/
theorem fenceScope_quad_calm (s : State) (q p : Nat) (i : LogInfo) : ∃ u, fenceScope s (.quad q) p i = fenceQuad u q i ∧ WorkOnly s u ∧ Calm s u :=
  ⟨_, rfl, (logErr_workOnly ..).trans (fenceStep_workOnly ..), (logErr_calm ..).trans (fenceStep_calm ..)⟩

/-- A quadrant marked as fenced. -/
def fenceMarked (s : State) (q : Nat) : State := { s with flash := { s.flash with fencedQuads := s.flash.fencedQuads ||| BitVec.ofNat 16 (2 ^ q) } }

theorem fenceQuad_eq (s : State) (q : Nat) (i : LogInfo) : fenceQuad s q i = fenceYield (quadPowerOff (fenceQuadUsers (fenceMarked s q) (2 ^ q)) q) i := rfl

/-- A fence of a quadrant takes the power of no other. -/
theorem fenceQuad_power (s : State) (q : Nat) (i : LogInfo) : (fenceQuad s q i).tray.quadOn = s.tray.quadOn &&& ~~~BitVec.ofNat 16 (2 ^ q) := by
  unfold fenceQuad
  extract_lets _ u
  have hu : u.tray = s.tray := rfl
  clear_value u
  obtain ⟨-, hoff, -⟩ := quadPowerOff_sensors (fenceQuadUsers u (2 ^ q)) q
  rw [fenceYield_power, hoff, (fenceQuadUsers_calm u (2 ^ q)).2.1, hu]

/-- A fence of a quadrant may fail the tray, and takes no failure back. -/
theorem fenceQuad_failOnly (s : State) (q : Nat) (i : LogInfo) :
    FailOnly (fenceMarked s q) (fenceQuad s q i) ∧ (s.tray.failed = true → (fenceQuad s q i).tray.failed = true) := by
  rw [fenceQuad_eq]
  have hfail : (fenceMarked s q).tray.failed = s.tray.failed := rfl
  generalize fenceMarked s q = u at *
  have hwork : WorkOnly u (quadPowerOff (fenceQuadUsers u (2 ^ q)) q) := (fenceQuadUsers_workOnly ..).trans (quadPowerOff_workOnly ..)
  have hwfail := hwork.tray_failed
  generalize quadPowerOff (fenceQuadUsers u (2 ^ q)) q = v at *
  refine ⟨hwork.failOnly.trans (fenceYield_failOnly ..), fun h => ?_⟩
  unfold fenceYield
  split
  · exact declareFailed_tray_failed ..
  · rw [hwfail, hfail, h]

theorem fenceQuad_judgeOnly (s : State) {q : Nat} (i : LogInfo) (hq : q < 16) : JudgeOnly s (fenceQuad s q i) := by
  have hheat (g : Nat) := fenceQuad_heatKept (g := g) s i hq
  have hfenced := (fenceQuad_fenced s q i).1
  obtain ⟨hon, hod, -, -⟩ := hheat 0
  obtain ⟨⟨h, -⟩, hfail⟩ := fenceQuad_failOnly s q i
  generalize fenceQuad s q i = t at *
  refine ⟨by rw [h]; rfl, by rw [h]; rfl, by rw [h]; rfl, by rw [h]; rfl, by rw [h]; rfl, hfail, fun r hr => ?_, hod, hon, fun g => (hheat g).2.2.1⟩
  rw [hfenced, BitVec.getLsbD_or, hr, Bool.true_or]

/-- A fence of a quadrant for its heat: the quadrant is fenced and off, and the others keep their power, pairs and emergencies. -/
theorem fenceHeat_spec {s t : State} {q p : Nat} {i : LogInfo} (hq : q < 16) (ht : t = fenceScope s (.quad q) p i) :
    JudgeOnly s t ∧ t.tray.quadOn.getLsbD q = false ∧ t.flash.fencedQuads.getLsbD q = true ∧ (∀ g, HeatKept g s t)
    ∧ ∀ n, n ≠ q → s.tray.quadOn.getLsbD n = true → t.tray.quadOn.getLsbD n = true := by
  obtain ⟨u, hu, hwork, hcalm⟩ := fenceScope_quad_calm s q p i
  rw [hu] at ht
  have htray := hcalm.2.1
  obtain ⟨hfenced, hoff, -⟩ := fenceQuad_fenced u q i
  have hjudge := fenceQuad_judgeOnly u i hq
  have hheat (g : Nat) := fenceQuad_heatKept (g := g) u i hq
  have hpower := fenceQuad_power u q i
  rw [← ht] at hfenced hoff hjudge hheat hpower
  clear ht hu
  have hbegin : JudgeOnly s u := hwork.failOnly.judgeOnly (fun _ => hcalm.heatKept) fun h => hwork.tray_failed.trans h
  refine ⟨hbegin.trans hjudge, hoff, ?_, fun g => hcalm.heatKept.trans (hheat g), fun n hn hon => ?_⟩
  · rw [hfenced, BitVec.getLsbD_or, BitVec.getLsbD_ofNat, Nat.testBit_two_pow_self]
    simp [hq]
  · rw [hpower, htray, BitVec.getLsbD_and, BitVec.getLsbD_not, BitVec.getLsbD_ofNat, hon, Nat.testBit_two_pow]
    have hlt : n < 16 := BitVec.lt_of_getLsbD hon
    simp [hlt, Ne.symm hn]

/-! ### Heat of a quadrant (R361, R363, R364) -/

/-- A governing temperature of 115 °C or none. -/
def HeatDead (g : Option Int) : Prop := g = none ∨ ∃ x, g = some x ∧ 11500 ≤ x

/-- Before its turn a quadrant has power, and its pair was read as `g`. -/
def HeatReady (g : Option Int) (n : Nat) (u : State) : Prop := u.tray.quadOn.getLsbD n = true ∧ govTemp u n = g

/-- A quadrant whose pair was read as `g` is fenced where it must be, and in emergency where it is too hot. -/
def HeatDone (g : Option Int) (n : Nat) (u : State) : Prop :=
  (HeatDead g → u.tray.quadOn.getLsbD n = false ∧ u.flash.fencedQuads.getLsbD n = true)
  ∧ (u.tray.quadOn.getLsbD n = true → tooHot u n 0 = true → (qwGet u n).emergency = true)

theorem quadOff_of {s t : State} {n : Nat} (hon : ∀ q, t.tray.quadOn.getLsbD q = true → s.tray.quadOn.getLsbD q = true) (hoff : s.tray.quadOn.getLsbD n = false) :
    t.tray.quadOn.getLsbD n = false := by
  by_contra h
  have := hon n (by simpa using h)
  rw [hoff] at this
  cases this

/-- A pair of a quadrant that keeps its power stays. -/
theorem HeatKept.pair_on {s t : State} {n : Nat} (h : HeatKept n s t) (hon : t.tray.quadOn.getLsbD n = true) : mget t.wv.pairs n = mget s.wv.pairs n := by
  obtain ⟨-, -, hpair, -⟩ := h
  rcases hpair with h | ⟨-, -, hoff⟩
  · exact h
  · rw [hon] at hoff
    cases hoff

theorem tooHot_congr {s t : State} {n : Nat} (hpair : mget t.wv.pairs n = mget s.wv.pairs n) (hbad : t.wv.hbmBad = s.wv.hbmBad) (htemp : t.wv.hbmTemp = s.wv.hbmTemp)
    (below : Int) : tooHot t n below = tooHot s n below := by
  unfold tooHot govTemp mgetD
  rw [hpair, hbad, htemp]

/-- What is done for a quadrant stays done. -/
theorem HeatDone.kept {g : Option Int} {n : Nat} {s t : State} (h : HeatDone g n s) (hkept : HeatKept n s t) (hbad : t.wv.hbmBad = s.wv.hbmBad)
    (htemp : t.wv.hbmTemp = s.wv.hbmTemp) (hfence : ∀ q, s.flash.fencedQuads.getLsbD q = true → t.flash.fencedQuads.getLsbD q = true) : HeatDone g n t := by
  obtain ⟨hdead, hhot⟩ := h
  refine ⟨fun hg => ?_, fun hon hth => ?_⟩
  · obtain ⟨hoff, hfenced⟩ := hdead hg
    exact ⟨quadOff_of hkept.1 hoff, hfence n hfenced⟩
  · rw [tooHot_congr (hkept.pair_on hon) hbad htemp] at hth
    obtain ⟨hmono, -, -, hem⟩ := hkept
    rcases hem with h | h
    · rw [h]
      exact hhot (hmono n hon) hth
    · rw [hon] at h
      cases h

/-- Too hot at the limit is too hot below it. -/
theorem tooHot_below {s : State} {n : Nat} (h : tooHot s n 0 = true) : tooHot s n 200 = true := by
  unfold tooHot at *
  rw [Bool.or_eq_true] at h ⊢
  refine h.imp (fun h => ?_) (fun h => ?_)
  · cases hg : govTemp s n with
    | none => rw [hg] at h; cases h
    | some x =>
      rw [hg] at h
      simp only [decide_eq_true_eq] at h ⊢
      omega
  · rw [List.any_eq_true] at h ⊢
    obtain ⟨k, hk, hh⟩ := h
    refine ⟨k, hk, ?_⟩
    rw [Bool.and_eq_true] at hh ⊢
    refine ⟨hh.1, ?_⟩
    cases hg : mget s.wv.hbmTemp k with
    | none => rw [hg] at hh; cases hh.2
    | some x =>
      rw [hg] at hh
      simp only [decide_eq_true_eq] at hh ⊢
      omega

/-- The agent in an emergency that begins. -/
def heatBegun (s : State) (q : Nat) : QuadW :=
  { qwGet s q with emergency := true, stepAt := s.clk.now, nextClock := if (qwGet s q).clock > 1000 then some 1000 else none, raising := none }

/-- The agent as an emergency leaves it. -/
def heatOver (x : QuadW) : QuadW :=
  { x with emergency := false, nextRung := if x.rung = 0 then none else some 0, nextClock := none, raising := if x.clock < 1000 then some 1000 else none }

section
variable {s : State} {q : Nat}

theorem quadHeat_off (h : s.tray.quadOn.getLsbD q = false) : quadHeat s q = s := if_pos (by simp [h])

theorem quadHeat_dead (hon : s.tray.quadOn.getLsbD q = true) (hdead : HeatDead (govTemp s q)) :
    quadHeat s q = fenceScope s (.quad q) (quadOwner s q) { cls := 4, block := 10, quad := q, detail := ux 64 ((govTemp s q).getD 0) } := by
  refine (if_neg (by simp [hon])).trans (if_pos ?_)
  rcases hdead with h | ⟨x, h, hx⟩
  · rw [h]
  · rw [h]
    exact decide_eq_true hx

/-- A quadrant with power and a reading below 115 °C. -/
theorem quadHeat_alive (hon : s.tray.quadOn.getLsbD q = true) {x : Int} (hg : govTemp s q = some x) (hx : x < 11500) :
    quadHeat s q = if (qwGet s q).emergency then (if tooHot s q 200 then s else qwSet s q (heatOver (qwGet s q)))
      else if tooHot s q 0 then qwSet s q (heatBegun s q) else s := by
  refine (if_neg (by simp [hon])).trans (if_neg ?_)
  rw [hg]
  simpa using hx

end

/-- Judging a quadrant does nothing, fences it, or sets its agent. -/
theorem quadHeat_cases (s : State) (q : Nat) : quadHeat s q = s ∨ (∃ p i, quadHeat s q = fenceScope s (.quad q) p i) ∨ ∃ x, quadHeat s q = qwSet s q x := by
  cases hon : s.tray.quadOn.getLsbD q with
  | false => exact .inl (quadHeat_off hon)
  | true =>
    by_cases hdead : HeatDead (govTemp s q)
    · exact .inr (.inl ⟨_, _, quadHeat_dead hon hdead⟩)
    · obtain ⟨x, hg, hx⟩ : ∃ x, govTemp s q = some x ∧ x < 11500 := by
        cases hg : govTemp s q with
        | none => exact absurd (.inl hg) hdead
        | some x => exact ⟨x, rfl, by_contra fun h => hdead (.inr ⟨x, hg, by omega⟩)⟩
      rw [quadHeat_alive hon hg hx]
      split
      · split
        · exact .inl rfl
        · exact .inr (.inr ⟨_, rfl⟩)
      · split
        · exact .inr (.inr ⟨_, rfl⟩)
        · exact .inl rfl

theorem qwSet_judgeOnly (s : State) (q : Nat) (x : QuadW) : JudgeOnly s (qwSet s q x) :=
  ⟨rfl, rfl, rfl, rfl, rfl, id, fun _ h => h, fun _ _ _ _ => rfl, fun _ h => h, fun _ => .inl rfl⟩

theorem qwSet_heatKept (s : State) {q g : Nat} {x : QuadW} (h : g = q → x.emergency = (qwGet s q).emergency) : HeatKept g s (qwSet s q x) := by
  refine ⟨fun _ h => h, fun _ _ _ _ => rfl, .inl rfl, .inl ?_⟩
  by_cases hg : g = q
  · subst hg
    rw [qwGet_qwSet, h rfl]
  · rw [qwGet_qwSet_ne _ _ hg]

theorem quadHeat_judgeOnly (s : State) {q : Nat} (hq : q < 16) : JudgeOnly s (quadHeat s q) := by
  rcases quadHeat_cases s q with h | ⟨p, i, h⟩ | ⟨x, h⟩
  · rw [h]
    exact .refl s
  · exact (fenceHeat_spec hq h).1
  · rw [h]
    exact qwSet_judgeOnly ..

/-- The turn of another quadrant takes nothing from this one. -/
theorem quadHeat_other (s : State) {q n : Nat} (hq : q < 16) (hn : n ≠ q) :
    HeatKept n s (quadHeat s q) ∧ (s.tray.quadOn.getLsbD n = true → (quadHeat s q).tray.quadOn.getLsbD n = true) := by
  rcases quadHeat_cases s q with h | ⟨p, i, h⟩ | ⟨x, h⟩
  · rw [h]
    exact ⟨.refl s, id⟩
  · obtain ⟨-, -, -, hheat, hpower⟩ := fenceHeat_spec hq h
    exact ⟨hheat n, hpower n hn⟩
  · rw [h]
    exact ⟨qwSet_heatKept s fun h => absurd h hn, id⟩

/-- A quadrant's own turn fences it where its reading says so, and else puts it in emergency where it is too hot. -/
theorem quadHeat_done {s : State} {q : Nat} {g : Option Int} (hq : q < 16) (h : HeatReady g q s) : HeatDone g q (quadHeat s q) := by
  obtain ⟨hon, rfl⟩ := h
  by_cases hdead : HeatDead (govTemp s q)
  · obtain ⟨-, hoff, hfenced, -⟩ := fenceHeat_spec hq (quadHeat_dead hon hdead)
    exact ⟨fun _ => ⟨hoff, hfenced⟩, fun hon => by rw [hoff] at hon; cases hon⟩
  · refine ⟨fun h => absurd h hdead, fun _ hhot => ?_⟩
    obtain ⟨x, hg, hx⟩ : ∃ x, govTemp s q = some x ∧ x < 11500 := by
      cases hg : govTemp s q with
      | none => exact absurd (.inl hg) hdead
      | some x => exact ⟨x, rfl, by_contra fun h => hdead (.inr ⟨x, hg, by omega⟩)⟩
    have heq := quadHeat_alive hon hg hx
    have hhot : tooHot s q 0 = true := by
      rw [← hhot]
      have hj := (quadHeat_judgeOnly s hq).1
      have hpairs : (quadHeat s q).wv.pairs = s.wv.pairs := by
        rw [heq]
        split
        · split
          · rfl
          · rfl
        · split
          · rfl
          · rfl
      exact (tooHot_congr (by rw [hpairs]) (by rw [hj]) (by rw [hj]) 0).symm
    rw [heq]
    split
    · next hem =>
      rw [if_pos (tooHot_below hhot)]
      exact hem
    · rw [qwGet_qwSet]
      rfl

/-! ### All quadrants judged -/

/-- Every powered quadrant judged. -/
def judged (s : State) : State := each (bitsOf 16 s.tray.quadOn.toNat) quadHeat s

theorem judged_spec (s : State) (g : Nat → Option Int) (hg : ∀ n, n < 16 → s.tray.quadOn.getLsbD n = true → govTemp s n = g n) :
    JudgeOnly s (judged s) ∧ ∀ n, n < 16 → s.tray.quadOn.getLsbD n = true → HeatDone (g n) n (judged s) := by
  constructor
  · have hall : ∀ (l : List Nat), (∀ q, q ∈ l → q < 16) → ∀ s, JudgeOnly s (each l quadHeat s) := by
      intro l
      induction l with
      | nil => exact fun _ s => .refl s
      | cons a l ih =>
        intro hl s
        rw [each_cons]
        exact (quadHeat_judgeOnly s (hl a List.mem_cons_self)).trans (ih (fun q hq => hl q (List.mem_cons_of_mem a hq)) _)
    exact hall _ (fun q hq => (mem_bitsOf.mp hq).1) s
  · intro n hn hon
    refine each_readies (Ready := fun n u => HeatReady (g n) n u) (Done := fun n u => HeatDone (g n) n u) (bitsOf_nodup 16 s.tray.quadOn.toNat)
      (fun u n hmem h => quadHeat_done (mem_bitsOf.mp hmem).1 h) (fun u n m hmem hne h => ?_) (fun u n m hmem hne h => ?_)
      (fun n hmem => ⟨(mem_bitsOf.mp hmem).2, hg n (mem_bitsOf.mp hmem).1 (mem_bitsOf.mp hmem).2⟩) n (mem_bitsOf.mpr ⟨hn, hon⟩)
    · obtain ⟨hkept, hpower⟩ := quadHeat_other u (mem_bitsOf.mp hmem).1 hne
      refine ⟨hpower h.1, ?_⟩
      rw [← h.2, govTemp, mgetD, hkept.pair_on (hpower h.1)]
      rfl
    · obtain ⟨hkept, hpower⟩ := quadHeat_other u (mem_bitsOf.mp hmem).1 hne
      obtain ⟨hwv, -, -, -, -, -, hfence, -⟩ := quadHeat_judgeOnly u (mem_bitsOf.mp hmem).1
      exact h.kept hkept (by rw [hwv]) (by rw [hwv]) hfence

/-! ### The inlet (R365, R367) -/

/-- What the inlet's reading and the cooling state touch. -/
def InletOnly (s t : State) : Prop :=
  LogOnly { s with wv := t.wv } t
  ∧ t.wv = { s.wv with
      quads := t.wv.quads, outlet := t.wv.outlet, inlet := t.wv.inlet, inletBad := t.wv.inletBad, inletHist := t.wv.inletHist
      tin := t.wv.tin, tinReal := t.wv.tinReal, tinTaken := t.wv.tinTaken, rideOkSince := t.wv.rideOkSince, coolSince := t.wv.coolSince
      rideThrough := t.wv.rideThrough, coolAt := t.wv.coolAt, flowHist := t.wv.flowHist }
  ∧ ∀ g, HeatKept g s t

theorem InletOnly.refl (s : State) : InletOnly s s := ⟨rfl, rfl, fun _ => .refl s⟩

theorem InletOnly.trans {s t u : State} (h : InletOnly s t) (k : InletOnly t u) : InletOnly s u := by
  obtain ⟨hlog, hwv, hheat⟩ := h
  obtain ⟨klog, kwv, kheat⟩ := k
  refine ⟨?_, by rw [kwv, hwv], fun g => (hheat g).trans (kheat g)⟩
  unfold LogOnly at *
  rw [klog, hlog]

/-- An agent without ballast. -/
def ballastGone (s : State) (q : Nat) : State := qwSet s q { qwGet s q with ballastMw := 0, nextBallast := none }

/-- Ride-through begun. -/
def rideBegun (s : State) : State := { s with wv := { s.wv with rideThrough := true, rideOkSince := none } }

theorem rideEnter_eq (s : State) : rideEnter s = if s.wv.rideThrough then s else each (bitsOf 16 s.tray.quadOn.toNat) ballastGone (rideBegun s) := rfl

theorem ballastGone_spec (s : State) (q : Nat) : QuadsOnly s (ballastGone s q) ∧ ∀ g, HeatKept g s (ballastGone s q) :=
  ⟨rfl, fun _ => qwSet_heatKept s fun _ => rfl⟩

/-- The walk takes ballast from agents alone. -/
theorem ballastsGone_spec (l : List Nat) (u : State) : QuadsOnly u (each l ballastGone u) ∧ ∀ g, HeatKept g u (each l ballastGone u) := by
  refine ⟨each_rel (R := QuadsOnly) .refl .trans (fun s q => ?_) l u, fun g => .each (fun s q => ?_) l u⟩
  · exact (ballastGone_spec s q).1
  · exact (ballastGone_spec s q).2 g

/-- What a sudden stop of cooling leaves. -/
def RideKept (s t : State) : Prop :=
  t.wv.tin = s.wv.tin ∧ t.wv.tinReal = s.wv.tinReal ∧ t.wv.inlet = s.wv.inlet ∧ t.wv.outlet = s.wv.outlet
  ∧ t.wv.coolAt = s.wv.coolAt ∧ t.wv.shuttingDown = s.wv.shuttingDown ∧ t.tray = s.tray ∧ t.pav = s.pav ∧ t.clk = s.clk ∧ t.pair = s.pair

/-- A sudden stop of cooling takes ballast from the agents, and nothing else. -/
theorem rideEnter_spec (s : State) : InletOnly s (rideEnter s) ∧ (rideEnter s).wv.rideThrough = true ∧ RideKept s (rideEnter s) := by
  rw [rideEnter_eq]
  split
  · next h => exact ⟨.refl s, h, rfl, rfl, rfl, rfl, rfl, rfl, rfl, rfl, rfl, rfl⟩
  · have hbegin : InletOnly s (rideBegun s) := ⟨rfl, rfl, fun _ => ⟨fun _ h => h, fun _ _ _ _ => rfl, .inl rfl, .inl rfl⟩⟩
    have hkept : (rideBegun s).wv.rideThrough = true ∧ RideKept s (rideBegun s) := ⟨rfl, rfl, rfl, rfl, rfl, rfl, rfl, rfl, rfl, rfl, rfl⟩
    generalize rideBegun s = u at *
    obtain ⟨hwalk, hheat⟩ := ballastsGone_spec (bitsOf 16 s.tray.quadOn.toNat) u
    generalize each (bitsOf 16 s.tray.quadOn.toNat) ballastGone u = t at *
    have hwv : t.wv = { u.wv with quads := t.wv.quads } := congrArg (fun s => s.wv) hwalk
    have htray : t.tray = u.tray := by rw [hwalk]
    have hpav : t.pav = u.pav := by rw [hwalk]
    have hclk : t.clk = u.clk := by rw [hwalk]
    have hpair : t.pair = u.pair := by rw [hwalk]
    refine ⟨hbegin.trans ⟨?_, by rw [hwv], hheat⟩, ?_⟩
    · unfold LogOnly
      rw [hwalk]
    · unfold RideKept
      rw [hwv, htray, hpav, hclk, hpair]
      exact hkept

theorem coolJudge_spec (s : State) : let t := coolJudge s
    InletOnly s t ∧ t.wv.tin = (tinOf s).1 ∧ t.wv.tinReal = (tinOf s).2 ∧ t.wv.inlet = s.wv.inlet ∧ t.wv.outlet = s.wv.outlet ∧ t.wv.coolAt = s.wv.coolAt
    ∧ t = { s with wv := t.wv } :=
  ⟨⟨rfl, rfl, fun _ => ⟨fun _ h => h, fun _ _ _ _ => rfl, .inl rfl, .inl rfl⟩⟩, rfl, rfl, rfl, rfl, rfl, rfl⟩

/-- The outlet's reading. -/
def outletRead (s : State) (outlet : Int) : State := { s with wv := { s.wv with outlet := outlet } }

/-- An inlet reading in range. -/
def inletGood (s : State) (x : Int) : State :=
  { s with wv := { s.wv with inlet := some x, inletBad := false, inletHist := histPut s.clk.now 60000000000 s.wv.inletHist x } }

/-- An inlet reading out of range is an alarm at its onset. -/
def inletAlarm (s : State) (x : Int) : State :=
  if !s.wv.inletBad then notice s (2 ^ 62 + 48) { cls := 1, block := 10, kind := 2, action := 1, detail := ux 64 x } else s

/-- No inlet reading. -/
def inletNone (s : State) : State := { s with wv := { s.wv with inlet := none, inletBad := true } }

/-- The inlet's reading, as `coolJudge` then takes it. -/
def inletNoted (s : State) (x outlet : Int) : State :=
  if tempOk x then inletGood (outletRead s outlet) x else inletNone (inletAlarm (outletRead s outlet) x)

/-- A change of the sensors of the inlet alone. -/
theorem InletOnly.sensors {s t : State} (h : t = { s with wv := t.wv }) (hwv : t.wv = { s.wv with
      outlet := t.wv.outlet, inlet := t.wv.inlet, inletBad := t.wv.inletBad, inletHist := t.wv.inletHist
      tin := t.wv.tin, tinReal := t.wv.tinReal, tinTaken := t.wv.tinTaken, rideOkSince := t.wv.rideOkSince, coolSince := t.wv.coolSince
      coolAt := t.wv.coolAt, flowHist := t.wv.flowHist }) : InletOnly s t := by
  have htray : t.tray = s.tray := by rw [h]
  have hpav : t.pav = s.pav := by rw [h]
  refine ⟨?_, by rw [hwv], fun g => ⟨fun q hq => by rwa [← htray], fun i j _ _ => ?_, .inl (by rw [hwv]), .inl (by unfold qwGet; rw [hwv])⟩⟩
  · unfold LogOnly
    rw [h]
  · unfold odGet
    rw [hpav]

theorem inletNoted_spec (s : State) (x outlet : Int) : let t := inletNoted s x outlet
    InletOnly s t ∧ t.wv.outlet = outlet ∧ t.wv.inlet = (if tempOk x then some x else none) ∧ t.wv.coolAt = s.wv.coolAt := by
  intro t
  have hu : InletOnly s (outletRead s outlet) := .sensors rfl rfl
  have hkept : (outletRead s outlet).wv.outlet = outlet ∧ (outletRead s outlet).wv.coolAt = s.wv.coolAt := ⟨rfl, rfl⟩
  unfold t inletNoted
  generalize outletRead s outlet = u at *
  obtain ⟨hout, hcool⟩ := hkept
  split
  · have hgood : InletOnly u (inletGood u x) := .sensors rfl rfl
    exact ⟨hu.trans hgood, hout, rfl, hcool⟩
  · have hv : LogOnly u (inletAlarm u x) ∧ Calm u (inletAlarm u x) := by
      unfold inletAlarm
      split
      · exact ⟨notice_logOnly .., notice_calm ..⟩
      · exact ⟨.refl u, .refl u⟩
    generalize inletAlarm u x = v at *
    obtain ⟨hlog, hcalm⟩ := hv
    have hwv := hcalm.1
    have halarm : InletOnly u v := ⟨by rw [hwv]; exact hlog, by rw [hwv], fun _ => hcalm.heatKept⟩
    have hnone : InletOnly v (inletNone v) := .sensors rfl rfl
    refine ⟨hu.trans (halarm.trans hnone), ?_, rfl, ?_⟩
    · rw [← hout, ← hwv]
      rfl
    · rw [← hcool, ← hwv]
      rfl

/-- The inlet is noted, the cooling state judged, and ride-through entered at most. -/
theorem inletRead_eq (s : State) (x outlet : Int) :
    inletRead s x outlet = coolJudge (inletNoted s x outlet) ∨ inletRead s x outlet = rideEnter (coolJudge (inletNoted s x outlet)) := by
  unfold inletNoted
  cases hx : tempOk x with
  | false => exact .inl (if_pos (by simp [hx]))
  | true =>
    obtain ⟨b, hb⟩ : ∃ b : Bool, inletRead s x outlet = if b then rideEnter (coolJudge (inletGood (outletRead s outlet) x)) else coolJudge (inletGood (outletRead s outlet) x) :=
      ⟨_, if_neg (by simp [hx])⟩
    cases b with
    | false => exact .inl hb
    | true => exact .inr hb

theorem inletRead_spec (s : State) (x outlet : Int) : let t := inletRead s x outlet
    InletOnly s t ∧ t.wv.outlet = outlet ∧ t.wv.inlet = (if tempOk x then some x else none) ∧ t.wv.coolAt = s.wv.coolAt
    ∧ t.wv.tin = (tinOf (inletNoted s x outlet)).1 ∧ t.wv.tinReal = (tinOf (inletNoted s x outlet)).2 := by
  intro t
  obtain ⟨hnoted, hout, hinlet, hcool⟩ := inletNoted_spec s x outlet
  have ht := inletRead_eq s x outlet
  change t = _ ∨ t = _ at ht
  clear_value t
  generalize inletNoted s x outlet = u at *
  obtain ⟨hjudge, htin, hreal, jinlet, jout, jcool, -⟩ := coolJudge_spec u
  generalize coolJudge u = v at *
  have hv : InletOnly s v ∧ v.wv.outlet = outlet ∧ v.wv.inlet = (if tempOk x then some x else none) ∧ v.wv.coolAt = s.wv.coolAt
      ∧ v.wv.tin = (tinOf u).1 ∧ v.wv.tinReal = (tinOf u).2 :=
    ⟨hnoted.trans hjudge, jout.trans hout, jinlet.trans hinlet, jcool.trans hcool, htin, hreal⟩
  rcases ht with rfl | rfl
  · exact hv
  · obtain ⟨hride, -, rtin, rreal, rinlet, rout, rcool, -⟩ := rideEnter_spec v
    generalize rideEnter v = w at *
    rw [rtin, rreal, rinlet, rout, rcool]
    exact ⟨hv.1.trans hride, hv.2⟩

/-! ### H (R361, R368) -/

/-- H's hot spot halves Zoetrope, and from 115 °C, or without a reading, shuts the tray down. -/
def hubJudge (s : State) : State :=
  match govTemp s 16 with
  | some t =>
    let s := { s with wv := { s.wv with zoetropeHalved := decide (t ≥ 10500) || (s.wv.zoetropeHalved && decide (t > 10300)) } }
    if t ≥ 11500 then thermalShutdown s else s
  | none => thermalShutdown s

/-- As a shutdown, but Zoetrope may have been halved. -/
def HalvedOrShut (s t : State) : Prop := ∃ b, ShutOnly { s with wv := { s.wv with zoetropeHalved := b } } t

theorem hubJudge_spec (s : State) :
    HalvedOrShut s (hubJudge s) ∧ (HeatDead (govTemp s 16) → HeatEnds (hubJudge s))
    ∧ ∀ x, govTemp s 16 = some x → 10500 ≤ x → (hubJudge s).wv.zoetropeHalved = true := by
  unfold hubJudge
  cases hg : govTemp s 16 with
  | none => exact ⟨⟨s.wv.zoetropeHalved, (thermalShutdown_spec s).1⟩, fun _ => (thermalShutdown_spec s).2, fun x h => by cases h⟩
  | some x =>
    dsimp only
    generalize hb : (decide (x ≥ 10500) || s.wv.zoetropeHalved && decide (x > 10300)) = b
    have hhalved : 10500 ≤ x → b = true := fun h => by rw [← hb, decide_eq_true h]; rfl
    split
    · obtain ⟨hshut, hends⟩ := thermalShutdown_spec { s with wv := { s.wv with zoetropeHalved := b } }
      refine ⟨⟨b, hshut⟩, fun _ => hends, fun y hy hle => ?_⟩
      obtain rfl : x = y := by injection hy
      obtain ⟨-, hwv, -⟩ := hshut
      rw [hwv]
      exact hhalved hle
    · next h =>
      refine ⟨⟨b, .refl _⟩, fun hdead => ?_, fun y hy hle => ?_⟩
      · rcases hdead with hd | ⟨y, hy, hle⟩
        · cases hd
        · injection hy with hy
          omega
      · obtain rfl : x = y := by injection hy
        exact hhalved hle

/-! ### What stays after the quadrants are judged -/

/-- Sensors of units with power, and fences, stay. -/
def HeatStays (s t : State) : Prop :=
  (∀ g, HeatKept g s t) ∧ t.wv.hbmTemp = s.wv.hbmTemp ∧ t.wv.hbmBad = s.wv.hbmBad ∧ t.wv.hbmCeil = s.wv.hbmCeil
  ∧ ∀ q, s.flash.fencedQuads.getLsbD q = true → t.flash.fencedQuads.getLsbD q = true

theorem HeatStays.trans {s t u : State} (h : HeatStays s t) (k : HeatStays t u) : HeatStays s u := by
  obtain ⟨hheat, htemp, hbad, hceil, hfence⟩ := h
  obtain ⟨kheat, ktemp, kbad, kceil, kfence⟩ := k
  exact ⟨fun g => (hheat g).trans (kheat g), ktemp.trans htemp, kbad.trans hbad, kceil.trans hceil, fun q h => kfence q (hfence q h)⟩

theorem InletOnly.stays {s t : State} (h : InletOnly s t) : HeatStays s t := by
  obtain ⟨hlog, hwv, hheat⟩ := h
  refine ⟨hheat, by rw [hwv], by rw [hwv], by rw [hwv], fun q hq => ?_⟩
  rw [hlog]
  exact hq

theorem InletOnly.keeps {s t : State} (h : InletOnly s t) : t.tray = s.tray ∧ t.fuses = s.fuses ∧ t.clk = s.clk ∧ t.pair = s.pair := by
  obtain ⟨hlog, -⟩ := h
  exact ⟨by rw [hlog], by rw [hlog], by rw [hlog], by rw [hlog]⟩

theorem ShutOnly.stays {s t : State} (h : ShutOnly s t) : HeatStays s t := by
  obtain ⟨hheat, hwv, hflash, -⟩ := h
  refine ⟨hheat, by rw [hwv], by rw [hwv], by rw [hwv], fun q hq => ?_⟩
  rw [hflash]
  exact hq

theorem HalvedOrShut.stays {s t : State} (h : HalvedOrShut s t) : HeatStays s t := by
  obtain ⟨b, h⟩ := h
  have hbegin : HeatStays s { s with wv := { s.wv with zoetropeHalved := b } } :=
    ⟨fun _ => ⟨fun _ h => h, fun _ _ _ _ => rfl, .inl rfl, .inl rfl⟩, rfl, rfl, rfl, fun _ h => h⟩
  exact hbegin.trans h.stays

/-- What H's judgement leaves: the inlet, the cooling state, fuses and the hub, and no end is taken back. -/
theorem HalvedOrShut.keeps {s t : State} (h : HalvedOrShut s t) :
    t.wv.outlet = s.wv.outlet ∧ t.wv.inlet = s.wv.inlet ∧ t.wv.tin = s.wv.tin ∧ t.wv.tinReal = s.wv.tinReal ∧ t.fuses = s.fuses
    ∧ t.tray.hub.gatehouse = s.tray.hub.gatehouse ∧ (s.tray.failedThermal = true → t.tray.failedThermal = true)
    ∧ (t.tray.failedThermal = true → s.tray.failedThermal = true ∨ t.tray.failed = true) ∧ (s.tray.failed = true → t.tray.failed = true) := by
  obtain ⟨b, -, hwv, -, hfuses, -, hhub, -, hthermal, hback, hfail⟩ := h
  exact ⟨by rw [hwv], by rw [hwv], by rw [hwv], by rw [hwv], hfuses, by rw [hhub], hthermal, hback, hfail⟩

/-! ### The inlet temperature (R365) -/

theorem tinOf_below {s : State} (hinlet : ∀ x, s.wv.inlet = some x → x < 6000) (hcool : coolFresh s 2 = true → coolTemp s 2 < 6000)
    (hreal : (tinOf s).2 = true) : (tinOf s).1 < 6000 := by
  unfold tinOf at *
  cases hi : s.wv.inlet with
  | none =>
    cases hf : coolFresh s 2 with
    | false => rw [hi, hf] at hreal; cases hreal
    | true => exact hcool hf
  | some x =>
    have hx := hinlet x hi
    cases hf : coolFresh s 2 with
    | false => exact hx
    | true => exact Int.max_lt.mpr ⟨hx, hcool hf⟩

theorem tinOf_above {s : State} {x : Int} (hinlet : s.wv.inlet = some x) (hx : 6000 ≤ x) : (tinOf s).2 = true ∧ 6000 ≤ (tinOf s).1 := by
  unfold tinOf
  rw [hinlet]
  cases coolFresh s 2 with
  | false => exact ⟨rfl, hx⟩
  | true => exact ⟨rfl, hx.trans (Int.le_max_left ..)⟩

/-- The cooling inputs are as fresh, and say the same, where the clock, the writes and the objects are the same. -/
theorem coolInputs_congr {s t : State} (hclk : t.clk = s.clk) (hcool : t.wv.coolAt = s.wv.coolAt) (hod : ∀ i j, i ≤ 0x1504 → j < 256 → odGet t i j = odGet s i j) :
    coolFresh t 2 = coolFresh s 2 ∧ coolTemp t 2 = coolTemp s 2 := by
  constructor
  · unfold coolFresh
    rw [hclk, hcool]
  · unfold coolTemp
    rw [hod _ _ (by omega) (by omega)]

/-! ### A whole reading -/

/-- The state before the inlet acts. -/
def sensorsJudged (r : Readings) (s : State) : State := hubJudge (inletRead (judged (sensed r s)) r.inlet r.outlet)

theorem sensorRead_exec (r : Readings) {s : State} (hon : s.tray.hub.hubCommon = true) :
    exec (.sensorRead r) s = .next (inletAct (sensorsJudged r s)) := if_neg (by simp [hon])

section
variable (r : Readings) (s : State)

/-- The quadrants judged by the readings. -/
theorem judged_sensed_spec : let u := sensed r s; let v := judged u
    JudgeOnly u v ∧ (∀ n, n < 16 → s.tray.quadOn.getLsbD n = true → HeatDone (pairGov (r.junctionA.getD n 2500) (r.junctionB.getD n 2500)).1 n v) := by
  intro u v
  obtain ⟨hsense, htaken, -⟩ := sensed_spec r s
  change SenseOnly s u at hsense
  have htray : u.tray = s.tray := by rw [hsense.1]
  obtain ⟨hjudge, hdone⟩ := judged_spec u (fun n => (pairGov (r.junctionA.getD n 2500) (r.junctionB.getD n 2500)).1) fun n hn hon => by
    obtain ⟨al, hgov, -⟩ := htaken n hn (by rwa [← htray])
    exact hgov
  exact ⟨hjudge, fun n hn hon => hdone n hn (by rwa [htray])⟩

/-- What the judged state keeps of the tray and knows of the inlet. -/
theorem sensorsJudged_inlet : let v := sensorsJudged r s
    v.wv.outlet = r.outlet ∧ v.wv.inlet = (if tempOk r.inlet then some r.inlet else none) ∧ v.fuses = s.fuses
    ∧ v.tray.hub.gatehouse = s.tray.hub.gatehouse ∧ (s.tray.failedThermal = true → v.tray.failedThermal = true)
    ∧ (v.tray.failedThermal = true → s.tray.failedThermal = true ∨ v.tray.failed = true) ∧ (s.tray.failed = true → v.tray.failed = true)
    ∧ (r.inlet < 6000 → (coolFresh s 2 = true → coolTemp s 2 < 6000) → v.wv.tinReal = true → v.wv.tin < 6000)
    ∧ (tempOk r.inlet = true → 6000 ≤ r.inlet → v.wv.tinReal = true ∧ 6000 ≤ v.wv.tin) := by
  intro v
  obtain ⟨hsense, -⟩ := sensed_spec r s
  obtain ⟨hjudge, -⟩ := judged_sensed_spec r s
  obtain ⟨hnoted, -, hninlet, hncool⟩ := inletNoted_spec (judged (sensed r s)) r.inlet r.outlet
  obtain ⟨hread, hout, hinlet, -, htin, hreal⟩ := inletRead_spec (judged (sensed r s)) r.inlet r.outlet
  obtain ⟨hhub, -⟩ := hubJudge_spec (inletRead (judged (sensed r s)) r.inlet r.outlet)
  change HalvedOrShut _ v at hhub
  clear_value v
  generalize inletRead (judged (sensed r s)) r.inlet r.outlet = w at *
  generalize inletNoted (judged (sensed r s)) r.inlet r.outlet = x at *
  generalize judged (sensed r s) = y at *
  generalize sensed r s = z at *
  obtain ⟨hslog, hswv, hsod⟩ := hsense
  obtain ⟨hjwv, hjfuses, hjclk, hjhub, hjthermal, hjfail, -, hjod, -⟩ := hjudge
  obtain ⟨wtray, wfuses, -, -⟩ := hread.keeps
  obtain ⟨-, -, xclk, -⟩ := hnoted.keeps
  obtain ⟨vout, vinlet, vtin, vreal, vfuses, vhub, vthermal, vback, vfail⟩ := hhub.keeps
  have hztray : z.tray = s.tray := by rw [hslog]
  have hzclk : z.clk = s.clk := by rw [hslog]
  have hzfuses : z.fuses = s.fuses := by rw [hslog]
  have hcool : x.wv.coolAt = s.wv.coolAt := by rw [hncool, hjwv, hswv]
  have hthermal : w.tray.failedThermal = s.tray.failedThermal := by rw [wtray, hjthermal, hztray]
  obtain ⟨hfresh, htemp⟩ := coolInputs_congr (xclk.trans (hjclk.trans hzclk)) hcool
    fun i j hi hj => ((hnoted.2.2 0).2.1 i j hi hj).trans ((hjod i j hi hj).trans (hsod i j hi hj))
  refine ⟨vout.trans hout, vinlet.trans hinlet, vfuses.trans (wfuses.trans (hjfuses.trans hzfuses)), ?_, ?_, ?_, fun h => ?_, fun hin hlow hvreal => ?_, fun hok hhigh => ?_⟩
  · rw [vhub, wtray, hjhub, hztray]
  · rw [← hthermal]
    exact vthermal
  · rw [← hthermal]
    exact vback
  · refine vfail ?_
    rw [wtray]
    exact hjfail (by rwa [hztray])
  · rw [vtin, htin]
    refine tinOf_below (fun a ha => ?_) (by rwa [hfresh, htemp]) (by rw [← hreal, ← vreal, hvreal])
    rw [hninlet] at ha
    split at ha
    · injection ha with ha
      omega
    · cases ha
  · rw [vtin, htin, vreal, hreal]
    exact tinOf_above (by rw [hninlet, if_pos hok]) hhigh

end

/-! ### Pairs, stacks and quadrants after a reading -/

/-- A quadrant without power, or H, keeps or loses its pair; a unit with power keeps it. -/
theorem pairs_after {u v t : State} (hjudge : JudgeOnly u v) (hstays : HeatStays v t) (n : Nat) :
    (mget t.wv.pairs n = mget u.wv.pairs n ∨ mget t.wv.pairs n = none) ∧ (n = 16 ∨ t.tray.quadOn.getLsbD n = true → mget t.wv.pairs n = mget u.wv.pairs n) := by
  obtain ⟨-, -, -, -, -, -, -, -, -, hpair⟩ := hjudge
  obtain ⟨hheat, -⟩ := hstays
  obtain ⟨hon, -, hkept, -⟩ := hheat n
  have hall : mget t.wv.pairs n = mget u.wv.pairs n ∨ n < 16 ∧ mget t.wv.pairs n = none ∧ t.tray.quadOn.getLsbD n = false := by
    rcases hkept with k | k
    · rw [k]
      exact (hpair n).imp_right fun ⟨hn, hnone, hoff⟩ => ⟨hn, hnone, quadOff_of hon hoff⟩
    · exact .inr k
  refine ⟨hall.imp_right fun h => h.2.1, fun h => ?_⟩
  rcases hall with k | ⟨hn, -, hoff⟩
  · exact k
  · rcases h with rfl | h
    · omega
    · rw [hoff] at h
      cases h

section
variable {a b : Int}

/-- Two good readings govern by the higher, raised by 5 °C from a disagreement of more than 12 °C (R364). -/
theorem pairGov_two (ha : tempOk a = true) (hb : tempOk b = true) :
    pairGov a b = if max (b - a) (a - b) ≤ 400 then (some (max a b), .none) else if max (b - a) (a - b) ≤ 1200 then (some (max a b), .warning) else (some (max a b + 500), .alarm) := by
  have hd : (if a ≤ b then b - a else a - b) = max (b - a) (a - b) := by
    split
    · omega
    · omega
  unfold pairGov
  rw [hd, ha, hb]

theorem pairGov_first (ha : tempOk a = true) (hb : tempOk b = false) : pairGov a b = (some (a + 500), .alarm) := by
  unfold pairGov
  rw [ha, hb]

theorem pairGov_second (ha : tempOk a = false) (hb : tempOk b = true) : pairGov a b = (some (b + 500), .alarm) := by
  unfold pairGov
  rw [ha, hb]

theorem pairGov_neither (ha : tempOk a = false) (hb : tempOk b = false) : pairGov a b = (none, .alarm) := by
  unfold pairGov
  rw [ha, hb]

theorem alertMax_alarm (al : PairAlert) : alertMax al .alarm = .alarm := by
  cases al <;> rfl

theorem alertMax_warning (al : PairAlert) : alertMax al .warning ≠ .none := by
  cases al <;> decide

/-- What a pair's reading gives: the governing temperature and the report (R364). -/
theorem pairTaken_reports {n : Nat} {t : State} (h : PairTaken a b n t) :
    let g := (mgetD t.wv.pairs n {}).gov
    let al := (mgetD t.wv.pairs n {}).alert
    let two := tempOk a = true ∧ tempOk b = true
    (two → a - b ≤ 1200 → b - a ≤ 1200 → g = some (max a b))
    ∧ (two → 400 < a - b ∨ 400 < b - a → al ≠ .none)
    ∧ (two → 1200 < a - b ∨ 1200 < b - a → g = some (max a b + 500) ∧ al = .alarm)
    ∧ (tempOk a = true → tempOk b = false → g = some (a + 500) ∧ al = .alarm)
    ∧ (tempOk a = false → tempOk b = true → g = some (b + 500) ∧ al = .alarm)
    ∧ (tempOk a = false → tempOk b = false → g = none ∧ al = .alarm) := by
  intro g al two
  obtain ⟨al₀, hg, hal⟩ := h
  change g = _ at hg
  change al = _ at hal
  clear_value g al
  subst hg hal
  refine ⟨fun ⟨ha, hb⟩ h k => ?_, fun ⟨ha, hb⟩ h => ?_, fun ⟨ha, hb⟩ h => ?_, fun ha hb => ?_, fun ha hb => ?_, fun ha hb => ?_⟩
  · rw [pairGov_two ha hb]
    split
    · rfl
    · rw [if_pos (by omega)]
  · rw [pairGov_two ha hb, if_neg (by omega)]
    split
    · exact alertMax_warning _
    · rw [alertMax_alarm]
      exact fun h => by cases h
  · rw [pairGov_two ha hb, if_neg (by omega), if_neg (by omega)]
    exact ⟨rfl, alertMax_alarm _⟩
  · rw [pairGov_first ha hb]
    exact ⟨rfl, alertMax_alarm _⟩
  · rw [pairGov_second ha hb]
    exact ⟨rfl, alertMax_alarm _⟩
  · rw [pairGov_neither ha hb]
    exact ⟨rfl, alertMax_alarm _⟩

theorem heatDead_none (ha : tempOk a = false) (hb : tempOk b = false) : HeatDead (pairGov a b).1 := by
  rw [pairGov_neither ha hb]
  exact .inl rfl

theorem heatDead_hot (ha : tempOk a = true) (hb : tempOk b = true) (h : 11500 ≤ max a b) : HeatDead (pairGov a b).1 := by
  rw [pairGov_two ha hb]
  split
  · exact .inr ⟨_, rfl, h⟩
  · split
    · exact .inr ⟨_, rfl, h⟩
    · exact .inr ⟨_, rfl, by omega⟩

end

/-- What a reading, with an inlet below 60 °C, leaves of pairs, stacks and quadrants. -/
theorem sensorRead_spec (r : Readings) (s : State) {t : State} (ht : ShutOnly (sensorsJudged r s) t) :
    (∀ k, k < 8 → StackTaken (r.hbm.getD k 2500) k t)
    ∧ (∀ n, n ≠ 16 → s.tray.quadOn.getLsbD n = false → mget t.wv.pairs n = mget s.wv.pairs n ∨ mget t.wv.pairs n = none)
    ∧ (∀ n, n < 16 → s.tray.quadOn.getLsbD n = true → HeatDone (pairGov (r.junctionA.getD n 2500) (r.junctionB.getD n 2500)).1 n t)
    ∧ (∀ n, n < 16 → s.tray.quadOn.getLsbD n = true → t.tray.quadOn.getLsbD n = true → PairTaken (r.junctionA.getD n 2500) (r.junctionB.getD n 2500) n t)
    ∧ PairTaken r.hubA r.hubB 16 t ∧ (HeatDead (mgetD t.wv.pairs 16 {}).gov → HeatEnds t)
    ∧ ∀ x, (mgetD t.wv.pairs 16 {}).gov = some x → 10500 ≤ x → t.wv.zoetropeHalved = true := by
  obtain ⟨hsense, htaken, hhubTaken, hother, hstack⟩ := sensed_spec r s
  obtain ⟨hjudge, hdone⟩ := judged_sensed_spec r s
  obtain ⟨hread, -⟩ := inletRead_spec (judged (sensed r s)) r.inlet r.outlet
  obtain ⟨hhub, hdead, hhalved⟩ := hubJudge_spec (inletRead (judged (sensed r s)) r.inlet r.outlet)
  change HalvedOrShut _ (sensorsJudged r s) at hhub
  change _ → HeatEnds (sensorsJudged r s) at hdead
  change ∀ x, _ → _ → (sensorsJudged r s).wv.zoetropeHalved = true at hhalved
  generalize sensorsJudged r s = v at *
  generalize inletRead (judged (sensed r s)) r.inlet r.outlet = w at *
  generalize judged (sensed r s) = y at *
  generalize sensed r s = z at *
  have hlate : HeatStays w t := hhub.stays.trans ht.stays
  have hstays : HeatStays y t := hread.stays.trans hlate
  have hpairs := pairs_after hjudge hstays
  have hgov : (mgetD t.wv.pairs 16 {}).gov = govTemp w 16 := by
    obtain ⟨-, -, hkept, -⟩ := hlate.1 16
    rcases hkept with h | ⟨hn, -⟩
    · rw [mgetD, h]
      rfl
    · omega
  obtain ⟨hjwv, -⟩ := hjudge
  obtain ⟨hheat, htemp, hbad, hceil, hfence⟩ := hstays
  obtain ⟨-, htwv, -, -, -, -, hends, -⟩ := ht
  have hkeep {n : Nat} {a b : Int} (h : n = 16 ∨ t.tray.quadOn.getLsbD n = true) (hz : PairTaken a b n z) : PairTaken a b n t := by
    unfold PairTaken mgetD at *
    rwa [(hpairs n).2 h]
  refine ⟨fun k hk => ?_, fun n hn hoff => ?_, fun n hn hon => (hdone n hn hon).kept (hheat n) hbad htemp hfence, fun n hn hon htn => hkeep (.inr htn) (htaken n hn hon),
    hkeep (.inl rfl) hhubTaken, fun h => hends (hdead (hgov ▸ h)), fun x hx hle => ?_⟩
  · unfold StackTaken
    rw [htemp, hceil, hjwv]
    exact hstack k hk
  · rw [← hother n hn hoff]
    exact (hpairs n).1
  · rw [htwv]
    exact hhalved x (hgov ▸ hx) hle

/-! ### An emergency (R363) -/

section
variable {s : State} {q : Quad} {g : Int}

/-- The agent one step further down: the clock to 500 MHz, and then the rung. -/
def stepDown (s : State) (x : QuadW) : QuadW :=
  if x.clock > 500 then { x with stepAt := s.clk.now + 100000, nextClock := some (max 500 (min x.clock 1000 - 25)) }
  else { x with stepAt := s.clk.now + 100000, nextRung := if x.rung = 22 then none else some (x.rung + 1) }

theorem emergencyStep_exec (q : Quad) (s : State) : exec (.emergencyStep q) s =
    let u := quadHeat s q.val
    .next (if !u.tray.quadOn.getLsbD q.val ∨ !(qwGet u q.val).emergency ∨ !tooHot u q.val 0 ∨ u.clk.now < (qwGet u q.val).stepAt then u
      else qwSet u q.val (stepDown u (qwGet u q.val))) := by
  show execEmergencyStep q s = _
  unfold execEmergencyStep stepDown
  extract_lets u x y
  split
  · rfl
  · show (if y.clock > 500 then _ else _ : Res) = _
    have hclock : y.clock = x.clock := rfl
    rw [hclock]
    split
    · rfl
    · rfl

variable (hon : s.tray.quadOn.getLsbD q.val = true) (hem : (qwGet s q.val).emergency = true) (hg : govTemp s q.val = some g) (hlow : g < 11500)
include hon hem hg hlow

/-- While the cause holds, an emergency keeps the quadrant as it is until the next step. -/
theorem quadHeat_hot (hhot : tooHot s q.val 200 = true) : quadHeat s q.val = s := by
  rw [quadHeat_alive hon hg hlow, if_pos hem, if_pos hhot]

theorem quadHeat_cooled (hcool : tooHot s q.val 200 = false) : quadHeat s q.val = qwSet s q.val (heatOver (qwGet s q.val)) := by
  rw [quadHeat_alive hon hg hlow, if_pos hem, if_neg (by simp [hcool])]

theorem emergencyStep_waits (hhot : tooHot s q.val 200 = true) (hwait : tooHot s q.val 0 = false ∨ s.clk.now < (qwGet s q.val).stepAt) :
    exec (.emergencyStep q) s = .next s := by
  rw [emergencyStep_exec, quadHeat_hot hon hem hg hlow hhot]
  refine congrArg Host.Outcome.next (if_pos ?_)
  rcases hwait with h | h
  · exact .inr (.inr (.inl (by simp [h])))
  · exact .inr (.inr (.inr h))

theorem emergencyStep_steps (hhot : tooHot s q.val 0 = true) (hdue : (qwGet s q.val).stepAt ≤ s.clk.now) :
    exec (.emergencyStep q) s = .next (qwSet s q.val (stepDown s (qwGet s q.val))) := by
  rw [emergencyStep_exec, quadHeat_hot hon hem hg hlow (tooHot_below hhot)]
  refine congrArg Host.Outcome.next (if_neg ?_)
  rintro (h | h | h | h)
  · rw [hon] at h
    cases h
  · simp [hem] at h
  · simp [hhot] at h
  · omega

theorem emergencyStep_ends (hcool : tooHot s q.val 200 = false) : exec (.emergencyStep q) s = .next (qwSet s q.val (heatOver (qwGet s q.val))) := by
  rw [emergencyStep_exec, quadHeat_cooled hon hem hg hlow hcool]
  refine congrArg Host.Outcome.next (if_pos (.inr (.inl ?_)))
  rw [qwGet_qwSet]
  rfl

end

/-- An agent's change leaves the rest of the tray and the other agents. -/
theorem qwSet_only (s : State) (q : Nat) (x : QuadW) :
    (qwSet s q x = { s with wv := { s.wv with quads := (qwSet s q x).wv.quads } } ∧ ∀ r, r ≠ q → qwGet (qwSet s q x) r = qwGet s r) ∧ qwGet (qwSet s q x) q = x :=
  ⟨⟨rfl, fun _ hr => qwGet_qwSet_ne _ _ hr⟩, qwGet_qwSet ..⟩

/-! ### Cooling inputs (R365, R367, R368) -/

/-- A shutdown that a partner can acknowledge asks for a last snapshot, and another fails the tray. -/
theorem inletAct_hot {s : State} (hthermal : s.tray.failedThermal = false) (hdown : s.wv.shuttingDown = false) (hreal : s.wv.tinReal = true) (hhot : 5000 < s.wv.tin) :
    if snapWaits s then (inletAct s).wv.shuttingDown = true ∧ (inletAct s).pair.cutDue = true else (inletAct s).tray.failed = true := by
  have hact : inletAct s = thermalShutdown s := (if_neg (by simp [hthermal])).trans (if_pos ⟨hreal, hhot⟩)
  rw [hact]
  cases hfail : s.tray.failed with
  | true =>
    have hwaits : snapWaits s = false := by simp [snapWaits, hfail]
    have hsame : thermalShutdown s = s := if_pos (by simp [hfail])
    rw [hwaits, hsame, if_neg Bool.false_ne_true]
    exact hfail
  | false =>
    have hshut : thermalShutdown s = if snapWaits (activationStop { s with wv := { s.wv with shuttingDown := true } })
        then snapAsk (activationStop { s with wv := { s.wv with shuttingDown := true } }) else thermalEnd (activationStop { s with wv := { s.wv with shuttingDown := true } }) :=
      if_neg (by simp [hfail, hdown])
    have hstop := activationStop_stopOnly { s with wv := { s.wv with shuttingDown := true } }
    rw [hshut]
    generalize activationStop { s with wv := { s.wv with shuttingDown := true } } = u at *
    have hwaits : snapWaits u = snapWaits s := by
      rw [hstop]
      rfl
    have hudown : u.wv.shuttingDown = true := by rw [hstop]
    rw [hwaits]
    split
    · exact ⟨hudown, rfl⟩
    · exact (thermalEnd_fails u).1

theorem inletAct_shutOnly {s : State} (h : s.tray.failedThermal = false) : ShutOnly s (inletAct s) := by
  unfold inletAct
  rw [if_neg (by simp [h])]
  split
  · exact (thermalShutdown_spec s).1
  · exact .refl s

theorem le_lmax_cons (a : Nat) (l : List Nat) : a ≤ lmax (a :: l) := by
  have hfold : ∀ (l : List Nat) (b : Nat), b ≤ l.foldl max b := by
    intro l
    induction l with
    | nil => exact fun b => le_refl b
    | cons c l ih => exact fun b => (Nat.le_max_left b c).trans (ih _)
  exact (Nat.le_max_right 0 a).trans (hfold l _)

/-- A cooling input taken: when it came, and the flow's history. -/
def coolTaken (s : State) (n w : Nat) : State :=
  { s with wv := { s.wv with coolAt := mset s.wv.coolAt n s.clk.now, flowHist := if n = 1 then histPut s.clk.now 2000000000 s.wv.flowHist w else s.wv.flowHist } }

/-- What a cooling input that is written does: it is taken, the cooling state judged, and a stop or a fall by half begins ride-through. -/
def coolEffect (n old : Nat) (s : State) (w : Nat) : State :=
  let hist := if n = 1 then histPut s.clk.now 2000000000 s.wv.flowHist w else s.wv.flowHist
  let c := coolJudge (coolTaken s n w)
  inletAct (if (n = 4 ∧ w.testBit 1) ∨ (decide (n = 1) && decide (lmax (old :: hist.map Prod.snd) ≥ w + 500)) then rideEnter c else c)

theorem coolingInputWrite_exec (rq : DictReq) (n : Fin 4) (v : List Byte) (s : State) :
    exec (.coolingInputWrite rq n v) s = .next (dictWrite s rq 0x1504 (n.val + 1) v (clampRow 0x1504 (n.val + 1)) (coolEffect (n.val + 1) (odGet s 0x1504 1))) := rfl

/-- The state that an input's effect acts on last. -/
theorem coolEffect_spec (s : State) (n old w : Nat) (hthermal : s.tray.failedThermal = false) :
    let t := coolEffect n old s w
    mget t.wv.coolAt n = some s.clk.now ∧ (∀ i j, i ≤ 0x1504 → j < 256 → odGet t i j = odGet s i j)
    ∧ (n = 4 → w.testBit 1 = true → t.wv.rideThrough = true) ∧ (n = 1 → w + 500 ≤ old → t.wv.rideThrough = true)
    ∧ (s.wv.shuttingDown = false → t.wv.tinReal = true → 5000 < t.wv.tin →
      if snapWaits s then t.wv.shuttingDown = true ∧ t.pair.cutDue = true else t.tray.failed = true) := by
  intro t
  have htaken : InletOnly s (coolTaken s n w) := .sensors rfl rfl
  have hat : mget (coolTaken s n w).wv.coolAt n = some s.clk.now ∧ (coolTaken s n w).wv.shuttingDown = s.wv.shuttingDown ∧ (coolTaken s n w).pav = s.pav :=
    ⟨mget_mset_same .., rfl, rfl⟩
  obtain ⟨hjudge, -, -, -, -, hjat, hjonly⟩ := coolJudge_spec (coolTaken s n w)
  have hjdown : (coolJudge (coolTaken s n w)).wv.shuttingDown = (coolTaken s n w).wv.shuttingDown := rfl
  obtain ⟨hride, hrt, hrkept⟩ := rideEnter_spec (coolJudge (coolTaken s n w))
  obtain ⟨x, hx, htx, hfour, hone⟩ : ∃ x, (x = coolJudge (coolTaken s n w) ∨ x = rideEnter (coolJudge (coolTaken s n w))) ∧ t = inletAct x
      ∧ (n = 4 → w.testBit 1 = true → x = rideEnter (coolJudge (coolTaken s n w))) ∧ (n = 1 → w + 500 ≤ old → x = rideEnter (coolJudge (coolTaken s n w))) := by
    refine ⟨_, ?_, rfl, fun hn hw => if_pos (.inl ⟨hn, hw⟩), fun hn hw => if_pos (.inr ?_)⟩
    · exact (ite_eq_or_eq ..).symm
    · have hle := le_lmax_cons old ((if n = 1 then histPut s.clk.now 2000000000 s.wv.flowHist w else s.wv.flowHist).map Prod.snd)
      rw [decide_eq_true hn, decide_eq_true (show _ ≥ w + 500 from by omega)]
      rfl
  clear_value t
  subst htx
  generalize coolTaken s n w = a at *
  generalize coolJudge a = c at *
  have hxs : InletOnly s x ∧ mget x.wv.coolAt n = some s.clk.now ∧ x.wv.shuttingDown = s.wv.shuttingDown ∧ x.pav = s.pav := by
    obtain ⟨hat, hadown, hapav⟩ := hat
    have hcpav : c.pav = s.pav := by rw [hjonly]; exact hapav
    rcases hx with rfl | rfl
    · exact ⟨htaken.trans hjudge, by rw [hjat, hat], hjdown.trans hadown, hcpav⟩
    · obtain ⟨-, -, -, -, rat, rdown, -, rpav, -⟩ := hrkept
      exact ⟨(htaken.trans hjudge).trans hride, by rw [rat, hjat, hat], by rw [rdown, hjdown, hadown], by rw [rpav, hcpav]⟩
  obtain ⟨hin, hxat, hxdown, hxpav⟩ := hxs
  obtain ⟨htray, -, -, hpair⟩ := hin.keeps
  have hshut : ShutOnly x (inletAct x) := inletAct_shutOnly (by rw [htray]; exact hthermal)
  obtain ⟨hheat, hwv, -⟩ := hshut
  refine ⟨by rw [hwv]; exact hxat, fun i j hi hj => ((hheat 0).2.1 i j hi hj).trans ((hin.2.2 0).2.1 i j hi hj), fun hn hw => ?_, fun hn hw => ?_, fun hdown hreal hhot => ?_⟩
  · rw [hwv, hfour hn hw]
    exact hrt
  · rw [hwv, hone hn hw]
    exact hrt
  · rw [hwv] at hreal hhot
    have hwaits : snapWaits x = snapWaits s := by
      have hframe : x = { s with wv := x.wv, pav := x.pav, flash := x.flash, pcie := x.pcie, out := x.out } := by
        have hlog := hin.1
        unfold LogOnly at hlog
        rw [hlog]
      rw [hxpav] at hframe
      rw [hframe]
      rfl
    rw [← hwaits]
    exact inletAct_hot (by rw [htray]; exact hthermal) (hxdown.trans hdown) hreal hhot

theorem odGet_countClamp (s : State) (src : DictSrc) (idx sub : Nat) {i j : Nat} (hi : i ≤ 0x6400) (hj : j < 256) :
    odGet (countClamp s src idx sub) i j = odGet s i j := by
  unfold countClamp
  extract_lets c _ s₁ s₂ s₃
  have h₁ : odGet s₁ i j = odGet s i j := rfl
  have h₂ : odGet s₂ i j = odGet s₁ i j := odGet_bumpBy_ne _ _ _ (by unfold odKey; omega)
  have h₃ : odGet s₃ i j = odGet s₂ i j := odGet_logSparse _ _ _ _ (by unfold odKey; omega) (by unfold odKey; dsimp only; omega)
  rw [odGet_odSet_ne _ _ (by unfold odKey; omega), h₃, h₂, h₁]

theorem odGet_dictPut_ne (s : State) (src : DictSrc) (idx sub raw w : Nat) {i j : Nat} (hi : i ≤ 0x6400) (hj : j < 256) (hne : odKey i j ≠ odKey idx sub) :
    odGet (dictPut s src idx sub raw w) i j = odGet s i j := by
  unfold dictPut
  rw [odGet_odSet_ne _ _ hne]
  split
  · rfl
  · exact odGet_countClamp s src idx sub hi hj

/-- A stored cooling input leaves whether a partner is to acknowledge. -/
theorem snapWaits_dictPut (s : State) (src : DictSrc) (n raw w : Nat) (hn : n < 256) : snapWaits (dictPut s src 0x1504 n raw w) = snapWaits s := by
  have honly := dictPut_dictOnly s src 0x1504 n raw w
  have hmode : odGet (dictPut s src 0x1504 n raw w) 0x6400 0 = odGet s 0x6400 0 := odGet_dictPut_ne _ _ _ _ _ _ (by omega) (by omega) (by unfold odKey; omega)
  have hclk : odGet (dictPut s src 0x1504 n raw w) 0x1002 0x16 = odGet s 0x1002 0x16 := odGet_dictPut_ne _ _ _ _ _ _ (by omega) (by omega) (by unfold odKey; omega)
  generalize dictPut s src 0x1504 n raw w = u at *
  have htray : u.tray = s.tray := by rw [honly]
  have hpair : u.pair = s.pair := by rw [honly]
  unfold snapWaits noPartner carOn clkRuns
  rw [hmode, hclk, htray, hpair]

section
variable {rq : DictReq} {n : Fin 4} {v : List Byte} {s : State}

theorem clampRow_flow (s : State) (w : Nat) : clampRow 0x1504 1 s w = min 1200 w := by
  show min 1200 (max 0 w) = _
  rw [Nat.max_eq_right (Nat.zero_le w)]

theorem clampRow_coolState (s : State) (w : Nat) : clampRow 0x1504 4 s w = min 3 w := by
  show min 3 (max 0 w) = _
  rw [Nat.max_eq_right (Nat.zero_le w)]

/-- A cooling input that is written (R365, R367, R368). -/
theorem coolingInputWrite_runs (hmay : MayStore s rq 0x1504 (n.val + 1) v) (hthermal : s.tray.failedThermal = false) :
    Runs (.coolingInputWrite rq n v) s fun t =>
      mget t.wv.coolAt (n.val + 1) = some s.clk.now ∧ (n = 0 → odGet t 0x1504 1 = min 1200 (leNat v)) ∧ (n = 3 → odGet t 0x1504 4 = min 3 (leNat v))
      ∧ (n = 3 → (min 3 (leNat v)).testBit 1 = true → t.wv.rideThrough = true) ∧ (n = 0 → min 1200 (leNat v) + 500 ≤ odGet s 0x1504 1 → t.wv.rideThrough = true)
      ∧ (s.wv.shuttingDown = false → t.wv.tinReal = true → 5000 < t.wv.tin → if snapWaits s then t.wv.shuttingDown = true ∧ t.pair.cutDue = true else t.tray.failed = true) := by
  obtain ⟨bs, heq⟩ := dictWrite_of_mayStore hmay (clampRow 0x1504 (n.val + 1)) (coolEffect (n.val + 1) (odGet s 0x1504 1))
  refine ⟨_, (coolingInputWrite_exec rq n v s).trans (congrArg Host.Outcome.next heq), ?_⟩
  have hflow : n = 0 → clampRow 0x1504 (n.val + 1) s (leNat v) = min 1200 (leNat v) := by
    rintro rfl
    exact clampRow_flow s _
  have hstate : n = 3 → clampRow 0x1504 (n.val + 1) s (leNat v) = min 3 (leNat v) := by
    rintro rfl
    exact clampRow_coolState s _
  generalize clampRow 0x1504 (n.val + 1) s (leNat v) = w at *
  have hput := dictPut_dictOnly s rq.src 0x1504 (n.val + 1) (leNat v) w
  have hstored := odGet_dictPut s rq.src 0x1504 (n.val + 1) (leNat v) w
  have hwaits := snapWaits_dictPut s rq.src (n.val + 1) (leNat v) w (by omega)
  generalize dictPut s rq.src 0x1504 (n.val + 1) (leNat v) w = u at *
  have htray : u.tray = s.tray := by rw [hput]
  have hwv : u.wv = s.wv := by rw [hput]
  have hclk : u.clk = s.clk := by rw [hput]
  obtain ⟨hat, hod, hfour, hone, hhot⟩ := coolEffect_spec u (n.val + 1) (odGet s 0x1504 1) w (by rw [htray]; exact hthermal)
  have hans := dictAnswer_dictOnly (coolEffect (n.val + 1) (odGet s 0x1504 1) u w) rq 0 0x1504 (n.val + 1) bs
  have hansod : ∀ i j, odGet (dictAnswer (coolEffect (n.val + 1) (odGet s 0x1504 1) u w) rq 0 0x1504 (n.val + 1) bs) i j
      = odGet (coolEffect (n.val + 1) (odGet s 0x1504 1) u w) i j := fun i j => odGet_dictAnswer ..
  generalize dictAnswer (coolEffect (n.val + 1) (odGet s 0x1504 1) u w) rq 0 0x1504 (n.val + 1) bs = t at *
  generalize coolEffect (n.val + 1) (odGet s 0x1504 1) u w = e at *
  have htwv : t.wv = e.wv := by rw [hans]
  have httray : t.tray = e.tray := by rw [hans]
  have htpair : t.pair = e.pair := by rw [hans]
  dsimp only
  rw [htwv, httray, htpair, ← hwaits, ← hclk]
  rw [hwv] at hhot
  have hread : odGet t 0x1504 (n.val + 1) = w := ((hansod ..).trans (hod _ _ (by omega) (by omega))).trans hstored
  refine ⟨hat, ?_, ?_, ?_, ?_, hhot⟩
  · rintro rfl
    exact hread.trans (hflow rfl)
  · rintro rfl
    exact hread.trans (hstate rfl)
  · rintro rfl
    rw [← hstate rfl]
    exact hfour rfl
  · rintro rfl
    rw [← hflow rfl]
    exact hone rfl

/-- A cooling input not written for 10 s is used no more (R365). -/
theorem coolingInputStale_exec (n : Fin 4) (s : State) : exec (.coolingInputStale n) s =
    if coolFresh s (n.val + 1) then .next s else .next (inletAct (coolJudge { s with wv := { s.wv with coolAt := mdel s.wv.coolAt (n.val + 1) } })) := rfl

end

/-- A stale T_in that nothing measured acts on nothing. -/
theorem coolingInputStale_runs (n : Fin 4) {s : State} (hstale : coolFresh s (n.val + 1) = false) :
    Runs (.coolingInputStale n) s fun t => mget t.wv.coolAt (n.val + 1) = none
      ∧ (n = 1 → s.wv.inlet = none → s.tray.failedThermal = false → t.wv.tin = 4500 ∧ t.wv.tinReal = false ∧ t.tray = s.tray) := by
  refine ⟨_, (coolingInputStale_exec n s).trans (if_neg (by simp [hstale])), ?_⟩
  generalize hu : { s with wv := { s.wv with coolAt := mdel s.wv.coolAt (n.val + 1) } } = u
  have hat : mget u.wv.coolAt (n.val + 1) = none := by
    rw [← hu]
    exact (mget_mdel ..).trans (if_pos rfl)
  have hinlet : u.wv.inlet = s.wv.inlet := by rw [← hu]
  have htray : u.tray = s.tray := by rw [← hu]
  clear hu
  obtain ⟨hjudge, htin, hreal, -, -, hjat, -⟩ := coolJudge_spec u
  obtain ⟨hjtray, -⟩ := hjudge.keeps
  generalize coolJudge u = c at *
  have hkept : mget (inletAct c).wv.coolAt (n.val + 1) = none := by
    unfold inletAct
    split
    · split
      · rfl
      · rw [hjat, hat]
    · split
      · obtain ⟨-, hwv, -⟩ := (thermalShutdown_spec c).1
        rw [hwv]
        exact (congrArg (mget · (n.val + 1)) hjat).trans hat
      · rw [hjat, hat]
  refine ⟨hkept, ?_⟩
  rintro rfl hnone hthermal
  have hfresh : coolFresh u 2 = false := by
    change mget u.wv.coolAt 2 = none at hat
    unfold coolFresh
    rw [hat]
  have htinOf : tinOf u = (4500, false) := by
    unfold tinOf
    rw [hinlet, hnone, hfresh]
  rw [htinOf] at htin hreal
  have hsame : inletAct c = c := by
    unfold inletAct
    rw [if_neg (by rw [hjtray, htray, hthermal]; decide), if_neg (by rw [hreal]; simp)]
  rw [hsame]
  exact ⟨htin, hreal, hjtray.trans htray⟩

/-- From 60 °C a tray that heat has failed loses H. -/
theorem inletAct_loses {s : State} (hthermal : s.tray.failedThermal = true) (hreal : s.wv.tinReal = true) (hhot : 6000 ≤ s.wv.tin) : inletAct s = volatileLost s :=
  (if_pos hthermal).trans (if_pos ⟨hreal, hhot⟩)

/-- Settles O54: the pairs and stacks as read, then the quadrants judged one by one, then inlet and H, none of which takes back what the ones before decided. -/
theorem heatThrottlesAndShutsDown : Obligations.HeatThrottlesAndShutsDown := by
  refine ⟨fun r s hhub hlow hcool => ?_, fun r s hhub hthermal hok hhigh => ?_, fun q s g hon hem hg hlow => ?_, fun n s at_ => ?_,
    fun rq n v s hmay hthermal => coolingInputWrite_runs hmay hthermal, fun n s => ⟨fun hfresh => ?_, coolingInputStale_runs n⟩, fun s at_ hok => ⟨fun h => ?_, fun h => ?_⟩,
    fun s at_ hcool => ⟨fun hthermal hready hdue => ?_, fun h => ?_⟩⟩
  · obtain ⟨hout, hinlet, -, -, -, hback, hfail, hbelow, -⟩ := sensorsJudged_inlet r s
    obtain ⟨hshut, hends⟩ := inletAct_spec (hbelow hlow hcool)
    refine ⟨_, sensorRead_exec r hhub, ?_⟩
    change ShutOnly _ (inletAct (sensorsJudged r s)) at hshut
    generalize inletAct (sensorsJudged r s) = t at *
    obtain ⟨hstack, hoff, hdone, htaken, htakenHub, hdead, hhalved⟩ := sensorRead_spec r s hshut
    obtain ⟨-, hwv, -, -, -, -, hkeep, -, -, hkfail⟩ := hshut
    generalize sensorsJudged r s = w at *
    have htin : t.wv.tin = w.wv.tin := by rw [hwv]
    have hreal : t.wv.tinReal = w.wv.tinReal := by rw [hwv]
    have htinlet : t.wv.inlet = w.wv.inlet := by rw [hwv]
    have htout : t.wv.outlet = w.wv.outlet := by rw [hwv]
    intro ends runs
    refine ⟨htout.trans hout, fun h => ?_, fun h => ?_, hstack, fun hcold hr hh => ?_, fun n h => ?_, fun n hn hon => ?_, fun n a b h => ?_⟩
    · rw [htinlet, hinlet, if_pos h]
    · rw [htinlet, hinlet, if_neg (by simp [h])]
    · cases hw : w.tray.failedThermal with
      | false => exact hends hw (by rwa [← hreal]) (by rwa [← htin])
      | true =>
        rcases hback hw with h | h
        · rcases hcold with hc | hc
          · rw [h] at hc
            cases hc
          · exact .inl (hkfail (hfail hc))
        · exact .inl (hkfail h)
    · by_cases hn : n = 16
      · exact .inr (.inr hn)
      · exact (hoff n hn h).imp_right .inl
    · obtain ⟨hfence, hhot⟩ := hdone n hn hon
      exact ⟨fun ha hb => hfence (heatDead_none ha hb), fun ha hb h => hfence (heatDead_hot ha hb h), hhot⟩
    · have hpair : PairTaken a b n t := by
        rcases h with ⟨hn, ⟨hs, ht⟩, rfl, rfl⟩ | ⟨rfl, rfl, rfl⟩
        · exact htaken n hn hs ht
        · exact htakenHub
      obtain ⟨h₁, h₂, h₃, h₄, h₅, h₆⟩ := pairTaken_reports hpair
      refine ⟨h₁, h₂, h₃, h₄, h₅, h₆, ?_, ?_⟩
      · rintro rfl hd
        exact hdead hd
      · rintro x rfl hx hle
        exact hhalved x hx hle
  · obtain ⟨-, -, hfuses, hgate, hkeeps, -, -, -, habove⟩ := sensorsJudged_inlet r s
    obtain ⟨hreal, hhot⟩ := habove hok hhigh
    have hloses := inletAct_loses (hkeeps hthermal) hreal hhot
    exact ⟨_, (sensorRead_exec r hhub).trans (congrArg Host.Outcome.next hloses), rfl, hgate, rfl, rfl, hfuses⟩
  · refine ⟨fun hhot hwait => ⟨_, emergencyStep_waits hon hem hg hlow hhot hwait, rfl⟩, fun _ hhot hdue => ⟨_, emergencyStep_steps hon hem hg hlow hhot hdue, ?_⟩,
      fun hcool => ⟨_, emergencyStep_ends hon hem hg hlow hcool, ?_⟩⟩
    · obtain ⟨honly, hset⟩ := qwSet_only s q.val (stepDown s (qwGet s q.val))
      exact ⟨honly, fun h => hset.trans (if_pos h), fun h => hset.trans (if_neg (by omega))⟩
    · exact qwSet_only s q.val (heatOver (qwGet s q.val))
  · intro x hagree
    refine ⟨fun hdue => ⟨{ s with wv := { s.wv with pairs := mset s.wv.pairs n.val { x with alert := .none } } }, ?_, mgetD_mset_same .., rfl⟩, fun hearly => ⟨s, ?_, rfl⟩⟩
    · show execSensorAlertClear n s = _
      unfold execSensorAlertClear
      dsimp only
      rw [hagree]
      exact if_pos hdue
    · show execSensorAlertClear n s = _
      unfold execSensorAlertClear
      dsimp only
      rw [hagree]
      exact if_neg (by omega)
  · exact ⟨s, (coolingInputStale_exec n s).trans (if_pos hfresh), rfl⟩
  · refine ⟨_, ?_, rfl⟩
    show execRideThroughExit s = _
    unfold execRideThroughExit
    rw [hok]
    exact if_pos h
  · refine ⟨s, ?_, rfl⟩
    show execRideThroughExit s = _
    unfold execRideThroughExit
    rw [hok]
    exact if_neg h
  · refine ⟨_, ?_, rfl⟩
    show execThermalRejoinReady s = _
    unfold execThermalRejoinReady
    rw [hcool]
    exact if_pos ⟨hthermal, by simp [hready], hdue⟩
  · refine ⟨s, ?_, rfl⟩
    show execThermalRejoinReady s = _
    unfold execThermalRejoinReady
    rw [hcool]
    refine if_neg ?_
    rintro ⟨hthermal, hready, hdue⟩
    rcases h with h | h | h
    · rw [h] at hthermal
      cases hthermal
    · simp [h] at hready
    · omega

end Sys2Proof.Machine
end

section
/-! SUPPORT. O40: takeovers, yields and rehearsals move the pair role (R265, R384, R435, R441 to R448, R452). -/

namespace Sys2Proof.Machine

open Sys2Proof Sys2Proof.Claims

/-! ### Power without a role -/

theorem quadsOff_pair (s : State) (qs : List Nat) : (quadsOff s qs).pair = s.pair :=
  (each_rel (R := fun s t : State => t.pair = s.pair) (fun _ => rfl) (fun h k => k.trans h) (fun u d => by
    split
    · exact diePowerOff_pair ..
    · rfl) _ _).trans (each_rel (R := fun s t : State => t.pair = s.pair) (fun _ => rfl) (fun h k => k.trans h) quadPowerOff_pair _ _)

/-- A clock judged stable. -/
def clockStable (s : State) (q : Nat) : State :=
  { s with clk := { s.clk with judged := mset (mset s.clk.judged q { stable := true, since := s.clk.now }) (16 + q / 4) { stable := true, since := s.clk.now } } }

theorem clocksStable_powerOnly (s : State) (qs : List Nat) : PowerOnly s (clocksStable s qs) :=
  each_rel (f := clockStable) PowerOnly.refl .trans (fun _ _ => ⟨rfl, fun _ h => h⟩) qs s

theorem partsPower_powerOnly (ps : List Nat) (s : State) : PowerOnly s (each ps (fun s p => partPower s p) s) :=
  each_rel PowerOnly.refl .trans partPower_powerOnly ps s

/-- What power leaves of the tray's standing. -/
theorem PowerOnly.standing {s t : State} (h : PowerOnly s t) : t.tray.failed = s.tray.failed ∧ t.tray.clockState = s.tray.clockState
    ∧ t.tray.selfRefresh = s.tray.selfRefresh ∧ t.pair = s.pair ∧ t.mem.hbm = s.mem.hbm := by
  obtain ⟨h, -⟩ := h
  exact ⟨by rw [h], by rw [h], by rw [h], by rw [h], by rw [h]⟩

/-- What ended work and lost power leave of it. -/
theorem WorkOnly.standing_more {s t : State} (h : WorkOnly s t) : t.tray.failed = s.tray.failed ∧ t.tray.clockState = s.tray.clockState
    ∧ t.tray.selfRefresh = s.tray.selfRefresh ∧ t.pair = { s.pair with dirty := t.pair.dirty } ∧ t.mem.hbm = s.mem.hbm := by
  obtain ⟨h, -⟩ := h
  exact ⟨by rw [h], by rw [h], by rw [h], by rw [h], by rw [h]⟩

/-! ### A takeover (R442 to R444) -/

/-- A takeover that loads images: the tray runs, or has failed. -/
def TakeRuns (s t : State) : Prop :=
  t.tray.failed = false ∧ t.tray.clockState = .run ∧ t.tray.selfRefresh = false ∧ t.pair = { s.pair with role := .takingOver, sealed := true }

/-- A takeover begun: YIELD sent, the clocks running, the stacks awake. -/
def takeBegun (s : State) : State :=
  hbmWake { emit { s with pair := { s.pair with role := .takingOver, sealed := true } } .yield with
    tray := { s.tray with clockState := .run, hub := { s.tray.hub with zoetrope := true } } }

/-- The partitions' quadrants powered, and the others off. -/
def takePowered (s : State) : State :=
  let own := (activeParts s).foldl (fun m p => m ||| partQuads s p) 0
  let u := quadsOff s ((bitsOf 16 s.tray.quadOn.toNat).filter fun q => !own.testBit q)
  clocksStable (each (activeParts s) (fun s p => partPower s p) u) (bitsOf 16 own)

/-- The saved requests taken into the table again. -/
def takeRestored (s : State) (ps : List Nat) : State :=
  let es := s.pair.saved.entries
  let s := each es (fun s x => restoreEntry s x.1 x.2) s
  let hs := (mkeys es).filter fun h => live (reqGet s h)
  each ps (fun s p => retainFix s p) (each hs restoreCow (each hs restoreIndex (each hs restoreHold s)))

/-- The tray ACTIVE and alone. -/
def takeEnded (s : State) : State :=
  { s with
    car := { s.car with subCount := s.pair.saved.counts }
    pair := { s.pair with
      role := .active, degraded := false, partnerRole := none, partnerLost := true, alone := true, sealed := false, out := none
      dirty := mkeys s.car.reqs, tokSent := [], retSent := [], marks := s.pair.saved.counts, saved := {} } }

theorem takeoverDo_eq (s : State) : takeoverDo s =
    let u := imagesReload (takePowered (takeBegun s))
    if u.tray.failed then u else takeEnded (bump32 (takeRestored u (activeParts (takeBegun s))) 0x6409 0) := rfl

theorem takePowered_runs {s : State} (hfail : s.tray.failed = false) : TakeRuns s (takePowered (takeBegun s)) := by
  have hbegun : TakeRuns s (takeBegun s) := ⟨hfail, rfl, rfl, rfl⟩
  generalize takeBegun s = u at *
  unfold takePowered
  extract_lets own v
  have hv : WorkOnly u v := quadsOff_workOnly ..
  have hvpair : v.pair = u.pair := quadsOff_pair ..
  clear_value v
  have hw : PowerOnly v (clocksStable (each (activeParts u) (fun s p => partPower s p) v) (bitsOf 16 own)) :=
    (partsPower_powerOnly ..).trans (clocksStable_powerOnly ..)
  generalize clocksStable (each (activeParts u) (fun s p => partPower s p) v) (bitsOf 16 own) = w at *
  obtain ⟨hf, hc, hr, -, -⟩ := hv.standing_more
  obtain ⟨kf, kc, kr, kp, -⟩ := hw.standing
  obtain ⟨bf, bc, br, bp⟩ := hbegun
  exact ⟨(kf.trans hf).trans bf, (kc.trans hc).trans bc, (kr.trans hr).trans br, (kp.trans hvpair).trans bp⟩

/-! ### Images and saved requests -/

/-- Of the tray the bundles and the cores alone may differ. -/
def CodeOnly (s t : State) : Prop := t = { s with seq := t.seq, cores := t.cores }

theorem CodeOnly.refl (s : State) : CodeOnly s s := rfl

theorem CodeOnly.trans {s t u : State} (h : CodeOnly s t) (k : CodeOnly t u) : CodeOnly s u := by
  unfold CodeOnly at *
  rw [k, h]

theorem ctxLoad_codeOnly (s : State) (p : Nat) (img : Image) (c : Nat) : CodeOnly s (ctxLoad s p img c) := by
  unfold ctxLoad
  extract_lets d x u v byNo
  have hu : CodeOnly s u := each_rel .refl .trans (fun s b => by
    dsimp only
    split
    · exact rfl
    · exact rfl) _ s
  have hv : CodeOnly u v := rfl
  clear_value u v
  exact (hu.trans hv).trans (each_rel .refl .trans (fun s k => by exact rfl) _ v)

/-- Loading images ends a takeover in failure, or leaves it running. -/
theorem imagesReload_runs {s u : State} (h : TakeRuns s u) : Failed (imagesReload u) ∨ TakeRuns s (imagesReload u) := by
  refine each_rel (α := Nat × Loaded) (R := fun u v => Failed u ∨ TakeRuns s u → Failed v ∨ TakeRuns s v) (fun _ => id) (fun h k => k ∘ h) (fun u x hu => ?_) u.car.images u (.inr h)
  split
  · rcases hu with hu | hu
    · rw [declareFailed, if_pos hu.1]
      exact .inl hu
    · exact .inl (declareFailed_failed _ hu.1)
  · have hcode : CodeOnly u (each (partCtxs u x.1) (fun s c => ctxLoad s x.1 x.2.img c) u) := each_rel CodeOnly.refl CodeOnly.trans (fun s c => ctxLoad_codeOnly s x.1 x.2.img c) _ u
    generalize each (partCtxs u x.1) (fun s c => ctxLoad s x.1 x.2.img c) u = v at *
    unfold Failed TakeRuns at *
    rwa [show v.tray = u.tray by rw [hcode], show v.pair = u.pair by rw [hcode]]

theorem restoreEntry_workOnly (s : State) (h : Nat) (b : W512) : WorkOnly s (restoreEntry s h b) := by
  unfold restoreEntry
  extract_lets code r t rs r' u
  split
  · exact (reqSet_pageOnly ..).workOnly
  · have hu : WorkOnly s u := .each (fun s x => by
      unfold frameClaim
      split
      · exact .quiet rfl
      · exact .quiet rfl) _ s
    clear_value u
    exact (hu.trans (.quiet rfl)).trans (reqSet_pageOnly ..).workOnly

theorem restoreHold_workOnly (s : State) (h : Nat) : WorkOnly s (restoreHold s h) := by
  unfold restoreHold
  extract_lets r p d0 n kept res fits run step
  split
  · exact reqEnd_workOnly ..
  · split
    · split
      · exact reqEnd_workOnly ..
      · exact WorkOnly.trans (.quiet rfl) (reqSet_pageOnly (freeStep s) ..).workOnly
    · split
      · exact reqEnd_workOnly ..
      · extract_lets u
        have hu : WorkOnly s u := .each (fun s i => .quiet rfl) _ s
        clear_value u
        exact hu.trans (reqSet_pageOnly ..).workOnly

theorem idxDrop_workOnly (s : State) (e : IdxWay) : WorkOnly s (idxDrop s e) := by
  unfold idxDrop
  extract_lets t
  have ht : WorkOnly s t := .quiet rfl
  clear_value t
  split
  · exact ht
  · extract_lets u y
    have hu : WorkOnly t u := .each (fun s f => .quiet rfl) _ t
    clear_value u
    exact ht.trans (hu.trans (.quiet rfl))

theorem prefixInsert_workOnly (s : State) (h i : Nat) : WorkOnly s (prefixInsert s h i) := by
  unfold prefixInsert
  extract_lets r p hash parent b set ls fs full own evict u t v y
  split
  · exact .refl s
  · split
    · have hu : WorkOnly s u := by
        unfold u
        split
        · split
          · exact idxDrop_workOnly ..
          · exact .refl s
        · exact .refl s
      have hv : WorkOnly u v := .each (fun s f => .quiet rfl) fs u
      clear_value u
      split
      · exact hu
      · split
        · exact hu
        · extract_lets br w r' pages x
          have hw : WorkOnly v w := .quiet rfl
          have hx : WorkOnly w x := (reqSet_pageOnly ..).workOnly
          clear_value v w x
          exact hu.trans (hv.trans (hw.trans (hx.trans (tableSet_workOnly ..))))
    · exact .refl s

theorem restoreIndex_workOnly (s : State) (h : Nat) : WorkOnly s (restoreIndex s h) := by
  unfold restoreIndex
  extract_lets r
  split
  · exact .each (fun s i => prefixInsert_workOnly ..) _ s
  · exact .refl s

theorem restoreCow_workOnly (s : State) (h : Nat) : WorkOnly s (restoreCow s h) := by
  unfold restoreCow
  extract_lets r
  split
  · exact .refl s
  · exact (reqSet_pageOnly ..).workOnly

theorem takeRestored_workOnly (s : State) (ps : List Nat) : WorkOnly s (takeRestored s ps) := by
  unfold takeRestored
  extract_lets es u hs
  have hu : WorkOnly s u := .each (fun s x => restoreEntry_workOnly ..) _ s
  clear_value u hs
  have h₁ := WorkOnly.each restoreHold_workOnly hs u
  generalize each hs restoreHold u = v at *
  have h₂ := WorkOnly.each restoreIndex_workOnly hs v
  generalize each hs restoreIndex v = w at *
  have h₃ := WorkOnly.each restoreCow_workOnly hs w
  generalize each hs restoreCow w = x at *
  exact (((hu.trans h₁).trans h₂).trans h₃).trans (.each (fun s p => retainFix_workOnly s p) ps x)

/-- A takeover ends with the tray failed, or ACTIVE with the counts of the last snapshot. -/
theorem takeoverDo_spec {s : State} (hfail : s.tray.failed = false) : let t := takeoverDo s
    Failed t ∨ (t.pair.role = .active ∧ t.tray.clockState = .run ∧ t.tray.selfRefresh = false ∧ t.pair.sealed = false ∧ t.pair.partnerLost = true
      ∧ t.car.subCount = s.pair.saved.counts ∧ t.pair.marks = s.pair.saved.counts ∧ t.pair.saved = {}) := by
  intro t
  have heq := takeoverDo_eq s
  change t = _ at heq
  have hloaded := imagesReload_runs (takePowered_runs hfail)
  clear_value t
  subst heq
  generalize imagesReload (takePowered (takeBegun s)) = u at *
  generalize activeParts (takeBegun s) = ps
  dsimp only
  split
  · next hf =>
    rcases hloaded with h | h
    · exact .inl h
    · rw [h.1] at hf
      cases hf
  · next hf =>
    rcases hloaded with h | ⟨-, hclock, href, hpair⟩
    · exact absurd h.1 hf
    · obtain ⟨-, kclock, kref, kpair, -⟩ := (takeRestored_workOnly u ps).standing_more
      generalize takeRestored u ps = v at *
      have hsaved : v.pair.saved = s.pair.saved := by rw [kpair, hpair]
      refine .inr ⟨rfl, kclock.trans hclock, kref.trans href, rfl, rfl, ?_, ?_, rfl⟩
      · exact congrArg Saved.counts hsaved
      · exact congrArg Saved.counts hsaved

/-! ### The settlement -/

section
variable {s : State} {cause : TakeoverCause}

theorem takeoverStart_ignored (h : cause = .silent) (hlost : s.pair.partnerLost = false) : exec (.takeoverStart cause) s = .next s :=
  if_pos (by simp [h, hlost])

/-- A takeover that its cause allows goes by the role. -/
theorem takeoverStart_goes (hfail : s.tray.failed = false) (h : cause ≠ .silent ∨ s.pair.partnerLost = true) :
    ¬ (s.tray.failed || (cause == .silent && !s.pair.partnerLost)) = true := by
  rcases h with h | h
  · simp [hfail, h]
  · simp [hfail, h]

theorem takeoverStart_standby (hfail : s.tray.failed = false) (h : cause ≠ .silent ∨ s.pair.partnerLost = true)
    (hrole : s.pair.role = .standby ∨ s.pair.role = .rehearsing) : exec (.takeoverStart cause) s = .next (takeoverDo s) := by
  show execTakeoverStart cause s = _
  unfold execTakeoverStart
  rw [if_neg (takeoverStart_goes hfail h)]
  rcases hrole with hrole | hrole
  · rw [hrole]
  · rw [hrole]

theorem takeoverStart_follower (hfail : s.tray.failed = false) (h : cause ≠ .silent ∨ s.pair.partnerLost = true) (hrole : s.pair.role = .follower) :
    exec (.takeoverStart cause) s = .next (goAlone (bump32 s 0x6409 0)) := by
  show execTakeoverStart cause s = _
  unfold execTakeoverStart
  rw [if_neg (takeoverStart_goes hfail h), hrole]

theorem takeoverStart_other (hfail : s.tray.failed = false) (h : cause ≠ .silent ∨ s.pair.partnerLost = true)
    (hrole : s.pair.role = .unpaired ∨ s.pair.role = .active) : exec (.takeoverStart cause) s = .next s := by
  show execTakeoverStart cause s = _
  unfold execTakeoverStart
  rw [if_neg (takeoverStart_goes hfail h)]
  rcases hrole with hrole | hrole
  · rw [hrole]
  · rw [hrole]

/-- A yield of the active of a self-diagnosing pair ends its work. -/
theorem yield_fails (hfail : s.tray.failed = false) (hmode : odGet s 0x6400 0 ≠ 2) (hrole : s.pair.role = .active) :
    Runs .yield s fun t => t.pair.role = .failed ∧ t.tray.clockState = .deepSleep ∧ t.pair.yielded = true ∧ t.pair.partnerRole = some .active :=
  ⟨_, (if_neg (by simp [hfail])).trans ((if_neg (fun h => hmode h.1)).trans (if_pos hrole)), rfl, rfl, rfl, rfl⟩

theorem yield_alone (hfail : s.tray.failed = false) (hmode : odGet s 0x6400 0 = 2) (hrole : s.pair.role = .active ∨ s.pair.role = .follower) : Runs .yield s Alone :=
  ⟨_, (if_neg (by simp [hfail])).trans (if_pos ⟨hmode, hrole⟩), goAlone_alone s⟩

theorem yield_ignored (hfail : s.tray.failed = false) (hrole : s.pair.role = .unpaired) : Runs .yield s fun t => t = s :=
  ⟨_, (if_neg (by simp [hfail])).trans ((if_neg (by simp [hrole])).trans (if_neg (by simp [hrole]))), rfl⟩

end

/-- An answer takes back nothing that was sent. -/
theorem dictAnswer_outGrows (s : State) (rq : DictReq) (st idx sub : Nat) (v : List Byte) : OutGrows s (dictAnswer s rq st idx sub v) := by
  unfold dictAnswer
  split
  · split
    · exact .refl s
    · dsimp only
      split
      · exact .refl s
      · split
        · exact ⟨[_], rfl⟩
        · exact ⟨[], rfl⟩
  · exact ⟨[], rfl⟩

/-- A 1 written where 1 is legal is stored, has its effect, and is answered; the answer touches the dictionary and the output alone. -/
theorem writeOne_runs {rq : DictReq} {s : State} {idx : Nat} (h : MayStore s rq idx 0 [1]) {clamp : State → Nat → Nat} (hclamp : clamp s (leNat [1]) = 1) (effect : State → Nat → State) :
    ∃ t, dictWrite s rq idx 0 [1] clamp effect = t ∧ DictOnly (effect (odSet s idx 0 1) 1) t ∧ OutGrows (effect (odSet s idx 0 1) 1) t
      ∧ ∀ i j, odGet t i j = odGet (effect (odSet s idx 0 1) 1) i j := by
  obtain ⟨bs, hw⟩ := dictWrite_of_mayStore h clamp effect
  rw [hclamp, show leNat [(1 : Byte)] = 1 from rfl, dictPut_legal] at hw
  exact ⟨_, hw, dictAnswer_dictOnly .., dictAnswer_outGrows .., fun i j => odGet_dictAnswer ..⟩

/-- A written switchover sends YIELD from an active tray. -/
def switchDo (s : State) (w : Nat) : State := odSet (if w = 1 ∧ s.pair.role = .active then sendYield s else s) 0x640C 0 0

theorem plannedSwitchover_runs {rq : DictReq} {s : State} (h : MayStore s rq 0x640C 0 [1]) :
    Runs (.plannedSwitchover rq [1]) s fun t => odGet t 0x640C 0 = 0 ∧ t.mem = s.mem ∧ t.car = s.car
      ∧ (s.pair.role = .active → t.pair = { s.pair with yielded := true } ∧ .yield ∈ t.out) ∧ (s.pair.role ≠ .active → t.pair = s.pair) := by
  obtain ⟨t, hw, honly, ⟨new, hout⟩, hod⟩ := writeOne_runs h (clamp := clampRow 0x640C 0) rfl switchDo
  refine ⟨t, congrArg Host.Outcome.next hw, ?_⟩
  have hzero : odGet t 0x640C 0 = 0 := (hod ..).trans (odGet_odSet ..)
  have hpair : t.pair = (switchDo (odSet s 0x640C 0 1) 1).pair := by rw [honly]
  have hmem : t.mem = (switchDo (odSet s 0x640C 0 1) 1).mem := by rw [honly]
  have hcar : t.car = (switchDo (odSet s 0x640C 0 1) 1).car := by rw [honly]
  by_cases hrole : s.pair.role = .active
  · have heq : switchDo (odSet s 0x640C 0 1) 1 = odSet (sendYield (odSet s 0x640C 0 1)) 0x640C 0 0 := by
      unfold switchDo
      rw [if_pos ⟨rfl, hrole⟩]
    rw [heq] at hpair hmem hcar hout
    exact ⟨hzero, hmem, hcar, fun _ => ⟨hpair, hout ▸ List.mem_append_right new (List.mem_cons_self ..)⟩, fun h => absurd hrole h⟩
  · have heq : switchDo (odSet s 0x640C 0 1) 1 = odSet (odSet s 0x640C 0 1) 0x640C 0 0 := by
      unfold switchDo
      rw [if_neg (fun h => hrole h.2)]
    rw [heq] at hpair hmem hcar
    exact ⟨hzero, hmem, hcar, fun h => absurd h hrole, fun _ => hpair⟩

theorem takeoversAndYields : TakeoversAndYieldsMoveTheRole :=
  ⟨fun _ _ hfail => ⟨fun hc hlost => ⟨_, takeoverStart_ignored hc hlost, rfl⟩, fun h =>
      ⟨fun hrole => ⟨_, takeoverStart_standby hfail h hrole, takeoverDo_spec hfail⟩, fun hrole => ⟨_, takeoverStart_follower hfail h hrole, goAlone_alone _⟩,
        fun hrole => ⟨_, takeoverStart_other hfail h hrole, rfl⟩⟩⟩,
    fun _ hfail => ⟨yield_alone hfail, yield_fails hfail, yield_ignored hfail⟩, fun _ _ h => plannedSwitchover_runs h⟩

/-! ### Rehearsals (R384, R435, R448) -/

/-- A rehearsal begun: the clocks run. -/
def rehearseBegun (s : State) : State := { s with tray := { s.tray with clockState := .run }, pair := { s.pair with role := .rehearsing } }

theorem rehearse_eq {s : State} (hrole : s.pair.role = .standby) (hpartner : s.pair.partnerRole = some .active) :
    rehearse s =
      let u := each (activeParts s) (fun s p => partPower s p) (rehearseBegun s)
      let v := each (quadsGood u) quadPowered u
      clocksStable v (quadsGood v) := if_neg (by simp [hrole, hpartner])

/-- A rehearsal runs with every quadrant powered that is not fenced. -/
theorem rehearse_runs {s : State} (hrole : s.pair.role = .standby) (hpartner : s.pair.partnerRole = some .active) : let t := rehearse s
    t.pair = { s.pair with role := .rehearsing } ∧ t.tray.clockState = .run ∧ t.mem.hbm = s.mem.hbm
      ∧ ∀ q : Fin 16, (fencedMask s).testBit q.val = false → t.tray.quadOn.getLsbD q.val = true := by
  intro t
  have heq := rehearse_eq hrole hpartner
  change t = _ at heq
  clear_value t
  subst heq
  have hbegun : (rehearseBegun s).pair = { s.pair with role := .rehearsing } ∧ (rehearseBegun s).tray.clockState = .run ∧ (rehearseBegun s).mem.hbm = s.mem.hbm
      ∧ (rehearseBegun s).flash = s.flash := ⟨rfl, rfl, rfl, rfl⟩
  generalize rehearseBegun s = b at *
  have hu := partsPower_powerOnly (activeParts s) b
  generalize each (activeParts s) (fun s p => partPower s p) b = u at *
  have hv : PowerOnly u (each (quadsGood u) quadPowered u) := each_rel PowerOnly.refl .trans quadPowered_powerOnly _ u
  have hon (q : Fin 16) (h : q.val ∈ quadsGood u) := quadsPowered_on (quadsGood u) u q.isLt h
  dsimp only
  generalize each (quadsGood u) quadPowered u = v at *
  have hw := clocksStable_powerOnly v (quadsGood v)
  generalize clocksStable v (quadsGood v) = w at *
  obtain ⟨bpair, bclock, bhbm, bflash⟩ := hbegun
  obtain ⟨-, hclock, -, hpair, hhbm⟩ := (hu.trans (hv.trans hw)).standing
  have hflash : u.flash = s.flash := by rw [hu.1]; exact bflash
  refine ⟨hpair.trans bpair, hclock.trans bclock, hhbm.trans bhbm, fun q hq => hw.2 _ (hon q ?_)⟩
  refine List.mem_filter.mpr ⟨List.mem_range.mpr q.isLt, ?_⟩
  have hfence : fencedMask u = fencedMask s := by
    unfold fencedMask
    rw [hflash]
  rw [hfence, hq]
  rfl

/-- A written rehearsal. -/
def rehearsalDo (s : State) (w : Nat) : State := odSet (if w = 1 then rehearse s else s) 0x6406 0 0

theorem rehearsalWrite_runs {rq : DictReq} {s : State} (h : MayStore s rq 0x6406 0 [1]) (hrole : s.pair.role = .standby) (hpartner : s.pair.partnerRole = some .active) :
    Runs (.rehearsalStart (.write rq [1])) s fun t => (t.pair = { s.pair with role := .rehearsing } ∧ t.tray.clockState = .run ∧ t.mem.hbm = s.mem.hbm
      ∧ ∀ q : Fin 16, (fencedMask s).testBit q.val = false → t.tray.quadOn.getLsbD q.val = true) ∧ odGet t 0x6406 0 = 0 := by
  obtain ⟨t, hw, honly, -, hod⟩ := writeOne_runs h (clamp := clampRow 0x6406 0) rfl rehearsalDo
  have heq : rehearsalDo (odSet s 0x6406 0 1) 1 = odSet (rehearse (odSet s 0x6406 0 1)) 0x6406 0 0 := by
    unfold rehearsalDo
    rw [if_pos rfl]
  have hruns := rehearse_runs (s := odSet s 0x6406 0 1) hrole hpartner
  rw [heq] at honly hod
  generalize rehearse (odSet s 0x6406 0 1) = u at *
  obtain ⟨hpair, hclock, hhbm, hon⟩ := hruns
  refine ⟨t, congrArg Host.Outcome.next hw, ⟨?_, ?_, ?_, fun q hq => ?_⟩, (hod ..).trans (odGet_odSet ..)⟩
  · rw [honly]
    exact hpair
  · rw [honly]
    exact hclock
  · rw [honly]
    exact hhbm
  · rw [honly]
    exact hon q hq

/-- What ends a rehearsal leaves of the pair, the tray and HBM (R384, R435). -/
theorem coldStandby_spec (s : State) : let t := coldStandby s
    t.pair = { s.pair with role := .standby } ∧ t.tray.clockState = .sleep ∧ t.tray.selfRefresh = true ∧ (∀ q : Fin 16, t.tray.quadOn.getLsbD q.val = false)
      ∧ t.mem.hbm = s.mem.hbm ∧ t.tray.failed = s.tray.failed := by
  intro t
  unfold t coldStandby
  extract_lets u v
  have hu : WorkOnly s u := quadsOff_workOnly ..
  have hupair : u.pair = s.pair := quadsOff_pair ..
  have huoff (q : Fin 16) : u.tray.quadOn.getLsbD q.val = false := by
    cases hon : s.tray.quadOn.getLsbD q.val with
    | false => exact hu.quad_off hon
    | true => exact quadsOff_off s (mem_bitsOf.mpr ⟨q.isLt, hon⟩)
  clear_value u
  obtain ⟨hfail, -, -, -, hhbm⟩ := hu.standing_more
  have hx : CodeOnly u (each (activeParts u) (fun s p => ctxRemove s p) u) := each_rel CodeOnly.refl CodeOnly.trans (fun _ _ => by exact rfl) _ u
  have hv : v = zoeOff (each (activeParts u) (fun s p => ctxRemove s p) u) := rfl
  clear_value v
  generalize each (activeParts u) (fun s p => ctxRemove s p) u = x at *
  subst hv
  have hpair : x.pair = s.pair := by rw [hx]; exact hupair
  have hxq : x.tray.quadOn = u.tray.quadOn := by rw [hx]
  have hxf : x.tray.failed = u.tray.failed := by rw [hx]
  have hxh : x.mem.hbm = u.mem.hbm := by rw [hx]
  refine ⟨?_, rfl, rfl, fun q => ?_, hxh.trans hhbm, hxf.trans hfail⟩
  · show { x.pair with role := .standby } = _
    rw [hpair]
  · show x.tray.quadOn.getLsbD q.val = false
    rw [hxq]
    exact huoff q

/-- The known answers of the quadrants that are not fenced. -/
def provesWell (s : State) (vs : List Nat) : Bool := (quadsGood s).all fun q => vs[q]? == some (Config.knownAnswer q)

theorem provesWell_iff (s : State) (vs : List Nat) :
    provesWell s vs = true ↔ ∀ q : Fin 16, (fencedMask s).testBit q.val = false → vs[q.val]? = some (Config.knownAnswer q.val) := by
  unfold provesWell quadsGood
  rw [List.all_eq_true]
  constructor
  · intro h q hq
    have := h q.val (List.mem_filter.mpr ⟨List.mem_range.mpr q.isLt, by rw [hq]; rfl⟩)
    simpa using this
  · intro h q hq
    obtain ⟨hlt, hgood⟩ := List.mem_filter.mp hq
    have := h ⟨q, List.mem_range.mp hlt⟩ (by simpa using hgood)
    simpa using this

/-- The rehearsal's result noted. -/
def rehearsalNoted (s : State) (vs : List Nat) : State := { s with pair := { s.pair with lastRehearsal := some (s.clk.now, !provesWell s vs) } }

theorem rehearsalEnd_exec {s : State} (vs : List Nat) (hrole : s.pair.role = .rehearsing) :
    exec (.rehearsalEnd vs) s = .next (if provesWell s vs then coldStandby (rehearsalNoted s vs) else declareFailed (coldStandby (rehearsalNoted s vs)) { cls := 5, block := 8 }) :=
  if_neg (by simp [hrole])

theorem rehearsalsPowerAndProve : RehearsalsPowerAndProve := by
  refine ⟨fun rq s hrole hpartner => ?_, fun vs s hfail => ?_⟩
  · intro runs due
    refine ⟨fun hdue => ⟨_, if_pos hdue, rehearse_runs hrole hpartner⟩, fun hdue => ⟨_, if_neg hdue, rfl⟩, fun h => rehearsalWrite_runs h hrole hpartner⟩
  · intro ok
    obtain ⟨hpair, hclock, href, hoff, hhbm, hcold⟩ := coldStandby_spec (rehearsalNoted s vs)
    refine ⟨fun hrole hok => ?_, fun hrole hok => ?_, fun hrole => ⟨_, if_pos hrole, rfl⟩⟩
    · have hwell : provesWell s vs = true := (provesWell_iff s vs).mpr hok
      refine ⟨_, (rehearsalEnd_exec vs hrole).trans (congrArg Host.Outcome.next (if_pos hwell)), ?_, hclock, href, hoff, hhbm⟩
      rw [hpair]
      show { s.pair with role := .standby, lastRehearsal := some (s.clk.now, !provesWell s vs) } = _
      rw [hwell]
      rfl
    · have hwell : ¬ provesWell s vs = true := fun h => hok ((provesWell_iff s vs).mp h)
      refine ⟨_, (rehearsalEnd_exec vs hrole).trans (congrArg Host.Outcome.next (if_neg hwell)), declareFailed_failed _ (hcold.trans hfail), ?_⟩
      rw [declareFailed_pair, hpair]
      show some (s.clk.now, !provesWell s vs) = _
      rw [Bool.eq_false_iff.mpr hwell]
      rfl

/-- Settles O40. -/
theorem takeoversYieldsAndRehearsalsMoveTheRole : Obligations.TakeoversYieldsAndRehearsalsMoveTheRole := ⟨takeoversAndYields, rehearsalsPowerAndProve⟩

end Sys2Proof.Machine
end

section
/-! SUPPORT. What the commands of Zoetrope's engines leave of the other sessions, of the rings and of the object dictionary (R294 to R313). -/

namespace Sys2Proof.Machine

open Sys2Proof Sys2Proof.Claims

/-! ### Frames -/

/-- Session `n` may differ, and no other; no session's generation does, and nothing sent is taken back. -/
def CodecStep (n : Nat) (s t : State) : Prop := (∀ m, m ≠ n → vGet t m = vGet s m) ∧ t.zoe.gens = s.zoe.gens ∧ OutGrows s t

theorem CodecStep.refl {n : Nat} (s : State) : CodecStep n s s := ⟨fun _ _ => rfl, rfl, .refl s⟩

theorem CodecStep.trans {n : Nat} {s t u : State} (h : CodecStep n s t) (k : CodecStep n t u) : CodecStep n s u := by
  obtain ⟨hother, hgens, hout⟩ := h
  obtain ⟨kother, kgens, kout⟩ := k
  exact ⟨fun m hm => (kother m hm).trans (hother m hm), kgens.trans hgens, hout.trans kout⟩

theorem CodecStep.vId {n : Nat} {s t : State} (h : CodecStep n s t) (m : Nat) : vId t m = vId s m := by
  obtain ⟨-, hgens, -⟩ := h
  rw [Machine.vId, Machine.vId, hgens]

/-- At most memory, counters, sessions and the dictionary's values differ: no ring does, and nothing is sent. -/
def Silent (s t : State) : Prop :=
  t = { s with zoe := { s.zoe with sessions := t.zoe.sessions }, mem := t.mem, sync := t.sync, pav := { s.pav with vals := t.pav.vals } }

theorem Silent.refl (s : State) : Silent s s := rfl

theorem Silent.trans {s t u : State} (h : Silent s t) (k : Silent t u) : Silent s u := by
  unfold Silent at *
  rw [k, h]

theorem Silent.room {s t : State} (h : Silent s t) {p c : Nat} (hroom : RingRoom s p c) : RingRoom t p c := by
  unfold Silent at h
  rw [h]
  exact hroom

theorem Silent.out {s t : State} (h : Silent s t) : t.out = s.out := by
  unfold Silent at h
  rw [h]

theorem Silent.codecStep {n : Nat} {s t : State} (h : Silent s t) (hother : ∀ m, m ≠ n → vGet t m = vGet s m) : CodecStep n s t := by
  refine ⟨hother, ?_, [], h.out⟩
  unfold Silent at h
  rw [h]

theorem vSet_silent (s : State) (n : Nat) (v : VSession) : Silent s (vSet s n v) := rfl

theorem bumpBy_silent (s : State) (idx sub w n : Nat) : Silent s (bumpBy s idx sub w n) := rfl

theorem MemOnly.silent {s t : State} (h : MemOnly s t) : Silent s t := by
  unfold MemOnly at h
  unfold Silent
  rw [h]

theorem vGet_vSet_other (s : State) (n : Nat) (v : VSession) (m : Nat) (hm : m ≠ n) : vGet (vSet s n v) m = vGet s m := mget_mset_ne _ _ hm

theorem vSet_codecStep (s : State) (n : Nat) (v : VSession) : CodecStep n s (vSet s n v) := (vSet_silent s n v).codecStep (vGet_vSet_other s n v)

theorem bumpBy_codecStep {m : Nat} (s : State) (idx sub w n : Nat) : CodecStep m s (bumpBy s idx sub w n) := (bumpBy_silent s idx sub w n).codecStep fun _ _ => rfl

theorem IssueOnly.codecStep {n : Nat} {s t : State} (h : IssueOnly s t) : CodecStep n s t := by
  obtain ⟨h, hout⟩ := h
  have hzoe : t.zoe = s.zoe := by rw [h]
  exact ⟨fun m _ => by rw [vGet, vGet, hzoe], by rw [hzoe], hout⟩

theorem IssueOnly.pav {s t : State} (h : IssueOnly s t) : t.pav = s.pav := by rw [h.1]

theorem IssueOnly.mem {s t : State} (h : IssueOnly s t) : t.mem = s.mem := by rw [h.1]

theorem odGet_of_pav {s t : State} (h : t.pav = s.pav) (i j : Nat) : odGet t i j = odGet s i j := by rw [odGet, odGet, h]

/-! ### Video completions -/

/-- What is told stays told while more is sent, and counts from any state that had sent as much. -/
theorem vTells_between {s s' t t' : State} {f : Vf} {kind status id : Nat} {tag : BitVec 64} (h : VTells s t f kind status id tag) (hout : s.out = s'.out)
    (hgrows : OutGrows t t') : VTells s' t' f kind status id tag := by
  obtain ⟨new, i, e, hnew, hmem, hfields⟩ := h
  obtain ⟨more, hmore⟩ := hgrows
  exact ⟨more ++ new, i, e, by rw [hmore, hnew, hout, List.append_assoc], List.mem_append_right _ hmem, hfields⟩

/-- What is told after more was sent counts from before. -/
theorem vTells_later {s s' t : State} {f : Vf} {kind status id : Nat} {tag : BitVec 64} (h : VTells s' t f kind status id tag) (hgrows : OutGrows s s') :
    VTells s t f kind status id tag := by
  obtain ⟨new, i, e, hnew, hmem, hfields⟩ := h
  obtain ⟨more, hmore⟩ := hgrows
  exact ⟨new ++ more, i, e, by rw [hnew, hmore, List.append_assoc], List.mem_append_left _ hmem, hfields⟩

/-- The flushes that are over are told, and only their session changes. -/
theorem vFlushed_frame (s : State) (n : Nat) : CodecStep n s (vFlushed s n) ∧ (vFlushed s n).pav = s.pav ∧ (vFlushed s n).mem = s.mem := by
  have hdone : ∀ u, CodecStep n s u → u.pav = s.pav → u.mem = s.mem → ∀ (v : VSession) (l : List VFlush),
      let t := each l (fun s x => vPush s v.f { kind := 4, session := vId s n, tag := x.tag }) u
      CodecStep n s t ∧ t.pav = s.pav ∧ t.mem = s.mem := by
    intro u hstep hpav hmem v l t
    have hissue : IssueOnly u t := each_rel (R := IssueOnly) .refl .trans (fun _ _ => vPush_issueOnly ..) l u
    exact ⟨hstep.trans hissue.codecStep, hissue.pav.trans hpav, hissue.mem.trans hmem⟩
  unfold vFlushed
  split
  · exact ⟨.refl s, rfl, rfl⟩
  · dsimp only
    split
    · exact ⟨.refl s, rfl, rfl⟩
    · exact hdone _ (vSet_codecStep ..) rfl rfl _ _

/-- A session without a flush in progress is told of none. -/
theorem vFlushed_none {s : State} {n : Nat} {w : VSession} (hw : vGet s n = some w) (h : w.flushing = []) : vFlushed s n = s :=
  (vFlushed_spec hw).2.1 (by rw [h]; rfl)

/-- A session with its flushes told differs in nothing else. -/
theorem vGet_vFlushed {s : State} {n : Nat} {w : VSession} (hw : vGet s n = some w) : ∃ l, vGet (vFlushed s n) n = some { w with flushing := l } :=
  ⟨_, (vFlushed_spec hw).1⟩

end Sys2Proof.Machine
end

section
/-! SUPPORT. O28: the entropy engines (R291, R294, R300, R307). -/

namespace Sys2Proof.Machine

open Sys2Proof Sys2Proof.Claims

/-! ### Chunks written (R294) -/

/-- No chunk written changes nothing. -/
theorem recordsPut_nil (v : VSession) (room : Nat) : recordsPut v room [] = v := by
  unfold recordsPut
  split
  · rfl
  · simp [unitUpd, lsum]

/-- The session keeps its chunks; those added carry its partition, and stay within its 32 and within the room. -/
theorem recordsPut_within (v : VSession) (room : Nat) (l : List Nat) : let y := recordsPut v room l
    y.records.length ≤ max 32 v.records.length ∧ y.records.length ≤ v.records.length + room ∧ ∀ c, c ∈ y.records → c ∈ v.records ∨ c.tag = v.f.val := by
  intro y
  unfold y recordsPut
  split
  · exact ⟨Nat.le_max_right .., Nat.le_add_right .., fun c hc => .inl hc⟩
  · dsimp only [unitUpd]
    rw [List.length_append, List.length_map, List.length_map, List.length_range, List.length_take]
    refine ⟨by omega, by omega, fun c hc => ?_⟩
    rcases List.mem_append.mp hc with hc | hc
    · exact .inl hc
    · obtain ⟨e, -, rfl⟩ := List.mem_map.mp hc
      exact .inr rfl

/-! ### An engine's turn (R294, R300) -/

/-- A value stored at a key does not matter to a search of the others. -/
theorem any_mset_other {α : Type} (m : SMap α) (k : Nat) (v : α) (P : Nat × α → Bool) :
    ((mset m k v).any fun x => x.1 != k && P x) = m.any fun x => x.1 != k && P x := by
  induction m with
  | nil => simp [mset]
  | cons a t ih =>
    simp only [mset]
    split
    · simp
    · split
      · next h => simp [h]
      · rw [List.any_cons, ih, List.any_cons]

theorem mayStay_vSet (s : State) (n : Nat) (w v : VSession) : mayStay (vSet s n w) n v = mayStay s n v := by
  have hany : ((vSet s n w).zoe.sessions.any fun x => x.1 != n && entropyWaits (vSet s n w) x.1 x.2 && vEarlier x.2 v)
      = s.zoe.sessions.any fun x => x.1 != n && entropyWaits s x.1 x.2 && vEarlier x.2 v := by
    simp only [Bool.and_assoc]
    exact any_mset_other s.zoe.sessions n w fun x => entropyWaits s x.1 x.2 && vEarlier x.2 v
  unfold mayStay
  rw [hany]

theorem onEngine_of_mget {s : State} {g n : Nat} (h : mget s.zoe.entropy g = some n) : onEngine s n = true := by
  have hmem : ∀ m : SMap Nat, mget m g = some n → m.any (fun x => x.2 == n) = true := by
    intro m
    induction m with
    | nil => exact fun h => nomatch h
    | cons a t ih =>
      intro h
      unfold mget at h
      split at h
      · simp [Option.some.inj h]
      · simp [ih h]
  exact hmem _ h

/-- No engine turns to a session that one has. -/
theorem mayTurn_of_onEngine {s : State} {n : Nat} (h : onEngine s n = true) (cur : Option (Nat × VSession)) (v : VSession) : mayTurn s cur n v = false := by
  simp [mayTurn, entropyWaits, h]

/-- An engine given to a session, which it then parses. -/
def engineTurned (s : State) (g n : Nat) : State := { s with zoe := { s.zoe with entropy := mset s.zoe.entropy g n } }

/-- What an engine does once the chunks of its session are written: it has `n` parsed, where it stays with it or turns to it. -/
def engineParses (s : State) (cur : Option (Nat × VSession)) (g n : Nat) (met : List NalFact) : Res :=
  match vGet s n with
  | none => .next s
  | some v => if (cur.map Prod.fst = some n ∧ mayStay s n v) ∨ mayTurn s cur n v then .next (nalGo n met (engineTurned s g n)) else .next s

theorem engineParses_some {s : State} {n : Nat} {v : VSession} (hv : vGet s n = some v) (cur : Option (Nat × VSession)) (g : Nat) (met : List NalFact) :
    engineParses s cur g n met
      = .next (if (cur.map Prod.fst = some n ∧ mayStay s n v) ∨ mayTurn s cur n v then nalGo n met (engineTurned s g n) else s) := by
  unfold engineParses
  rw [hv]
  dsimp only
  split
  · rfl
  · rfl

section
variable {g : Fin 6} {n : Fin 512} {s : State} (hon : zoeOn s = true)
include hon

/-- An engine without a session. -/
theorem entropySwitch_free {v : VSession} (hv : vGet s n.val = some v) (hfree : mget s.zoe.entropy g.val = none) (filled : List Nat) (met : List NalFact) :
    exec (.entropySwitch g n filled met) s = .next (if mayTurn s none n.val v = true then nalGo n.val met (engineTurned s g.val n.val) else s) := by
  have hexec : exec (.entropySwitch g n filled met) s = engineParses s none g.val n.val met := by
    change execEntropySwitch g n filled met s = _
    unfold execEntropySwitch
    rw [if_neg (by simp [hon]), hfree]
    rfl
  rw [hexec, engineParses_some hv, Option.map_none]
  simp only [reduceCtorEq, false_and, false_or]

/-- An engine with a session first writes that session's chunks. -/
theorem entropySwitch_filled {m : Nat} {x : VSession} (hg : mget s.zoe.entropy g.val = some m) (hx : vGet s m = some x) (filled : List Nat) (met : List NalFact) :
    let y := recordsPut x (128 - chunksUsed s) filled
    ∀ v, vGet (vSet s m y) n.val = some v → exec (.entropySwitch g n filled met) s = .next (
      if (m = n.val ∧ mayStay (vSet s m y) n.val v = true) ∨ mayTurn (vSet s m y) (some (m, y)) n.val v = true then nalGo n.val met (engineTurned (vSet s m y) g.val n.val)
      else vSet s m y) := by
  intro y v hv
  have hexec : exec (.entropySwitch g n filled met) s = engineParses (vSet s m y) (some (m, y)) g.val n.val met := by
    change execEntropySwitch g n filled met s = _
    unfold execEntropySwitch
    rw [if_neg (by simp [hon]), hg]
    dsimp only [Option.bind]
    rw [hx]
    change engineParses (vSet s m y) ((vGet (vSet s m y) m).map fun x => (m, x)) g.val n.val met = _
    rw [vGet_vSet, Option.map_some]
  rw [hexec, engineParses_some hv]
  simp only [Option.map_some, Option.some.injEq]

/-- A free engine turns to a session that it may have, and no other. -/
theorem entropySwitch_turns {v : VSession} (hv : vGet s n.val = some v) (hfree : mget s.zoe.entropy g.val = none) :
    (mayTurn s none n.val v = true → Runs (.entropySwitch g n [] []) s fun t =>
      t = { s with zoe := { s.zoe with entropy := t.zoe.entropy } } ∧ mget t.zoe.entropy g.val = some n.val)
    ∧ (mayTurn s none n.val v = false → Runs (.entropySwitch g n [] []) s fun t => t = s) := by
  have hexec := entropySwitch_free hon hv hfree [] []
  refine ⟨fun hturn => ?_, fun hturn => ?_⟩
  · rw [if_pos hturn] at hexec
    exact ⟨_, hexec, rfl, mget_mset_same ..⟩
  · rw [if_neg (by simp [hturn])] at hexec
    exact ⟨_, hexec, rfl⟩

/-- The chunks of an engine's session are written, whether or not it turns to another. -/
theorem entropySwitch_writes {v x : VSession} (hv : vGet s n.val = some v) {m : Nat} (hg : mget s.zoe.entropy g.val = some m) (hne : m ≠ n.val) (hx : vGet s m = some x)
    (l : List Nat) :
    let y := recordsPut x (128 - chunksUsed s) l
    let turns := mayTurn (vSet s m y) (some (m, y)) n.val v
    Runs (.entropySwitch g n l []) s fun t =>
      mget t.zoe.entropy g.val = some (if turns then n.val else m) ∧ vGet t m = some y ∧ vGet t n.val = some v
      ∧ y.records.length ≤ max 32 x.records.length ∧ y.records.length ≤ x.records.length + (128 - chunksUsed s)
      ∧ ∀ c, c ∈ y.records → c ∈ x.records ∨ c.tag = x.f.val := by
  intro y turns
  have hv' : vGet (vSet s m y) n.val = some v := (vGet_vSet_other s m y n.val hne.symm).trans hv
  have hexec := entropySwitch_filled hon hg hx l [] v hv'
  have hy : vGet (vSet s m y) m = some y := vGet_vSet ..
  have hwithin := recordsPut_within x (128 - chunksUsed s) l
  by_cases hturn : turns = true
  · rw [if_pos (.inr hturn)] at hexec
    refine ⟨_, hexec, ?_⟩
    rw [if_pos hturn]
    exact ⟨mget_mset_same .., hy, hv', hwithin⟩
  · rw [if_neg (not_or.mpr ⟨fun h => hne h.1, hturn⟩)] at hexec
    refine ⟨_, hexec, ?_⟩
    rw [if_neg hturn]
    exact ⟨hg, hy, hv', hwithin⟩

/-- An engine that may not stay with its session stops parsing it. -/
theorem entropySwitch_stops {v : VSession} (hv : vGet s n.val = some v) (hg : mget s.zoe.entropy g.val = some n.val) (hstay : mayStay s n.val v = false) (met : List NalFact) :
    Runs (.entropySwitch g n [] met) s fun t => vGet t n.val = some v ∧ (∀ m, m ≠ n.val → vGet t m = vGet s m) ∧ t.zoe.entropy = s.zoe.entropy ∧ t.out = s.out := by
  have hset := vGet_vSet s n.val v
  have hexec := entropySwitch_filled (n := n) hon hg hv [] met
  rw [recordsPut_nil] at hexec
  have honEngine : onEngine (vSet s n.val v) n.val = true := onEngine_of_mget (g := g.val) hg
  have hexec := hexec v hset
  rw [if_neg (by simp [mayStay_vSet, hstay, mayTurn_of_onEngine honEngine])] at hexec
  exact ⟨_, hexec, hset, vGet_vSet_other s n.val v, rfl, rfl⟩

end

/-! ### A broken parameter set (R307) -/

theorem parseDrop_keeps (v : VSession) : (parseDrop v).waitKey = v.waitKey ∧ (parseDrop v).slots = v.slots ∧ (parseDrop v).recon = v.recon := by
  unfold parseDrop
  split
  · split
    · exact ⟨rfl, rfl, rfl⟩
    · exact ⟨rfl, rfl, rfl⟩
  · exact ⟨rfl, rfl, rfl⟩

/-- The session waits for a key, and the picture being parsed is discarded; the error counts. -/
def parameterSetLost (s : State) (n : Nat) (v : VSession) : State :=
  bump32 (vSet (vEvent (vSet s n { v with waitKey := true, seqStart := true }) n v 32 1) n (parseDrop { v with waitKey := true, seqStart := true })) 0x7011 (v.f.val + 1)

theorem waitKeyEnter_enters {s : State} {n : Nat} {v : VSession} (hkey : v.waitKey = false) (cause : Nat) :
    waitKeyEnter s n v cause = vEvent (vSet s n { v with waitKey := true, seqStart := true }) n v 32 cause := if_neg (by simp [hkey])

/-- A session that enters the wait for a key is told so, and no other changes. -/
theorem waitKeyEnter_spec {s : State} {n : Nat} {v : VSession} (hkey : v.waitKey = false) (hroom : RingRoom s v.f.val 8) (cause : Nat) : let t := waitKeyEnter s n v cause
    vGet t n = some { v with waitKey := true, seqStart := true } ∧ VTells s t v.f 7 32 (vId s n) 0 ∧ CodecStep n s t ∧ t.pav = s.pav := by
  intro t
  have ht : t = _ := waitKeyEnter_enters hkey cause
  rw [ht]
  unfold vEvent
  have hissue := vPush_issueOnly (vSet s n { v with waitKey := true, seqStart := true }) v.f
    { kind := 7, status := 32, session := vId (vSet s n { v with waitKey := true, seqStart := true }) n, value := cause }
  refine ⟨?_, vPush_tells (s := vSet s n { v with waitKey := true, seqStart := true }) hroom _, (vSet_codecStep ..).trans hissue.codecStep, hissue.pav⟩
  rw [vGet_vPush]
  exact vGet_vSet ..

theorem decodeError_parameterSet {s : State} {n : Nat} {v : VSession} (hv : vGet s n = some v) (hkey : v.waitKey = false) :
    decodeError s n .parameterSet = parameterSetLost s n v := by
  have hget : vGet (vEvent (vSet s n { v with waitKey := true, seqStart := true }) n v 32 1) n = some { v with waitKey := true, seqStart := true } := by
    rw [vEvent, vGet_vPush]
    exact vGet_vSet ..
  unfold decodeError
  rw [hv]
  dsimp only
  rw [waitKeyEnter_enters hkey, hget]
  rfl

/-- A broken parameter set makes the session wait for a key, counts, and tells so. -/
theorem entropySwitch_parameterSet {g : Fin 6} {n : Fin 512} {s : State} (hon : zoeOn s = true) {v : VSession} (hv : vGet s n.val = some v)
    (hg : mget s.zoe.entropy g.val = some n.val) (hstay : mayStay s n.val v = true) (hkey : v.waitKey = false) (hroom : RingRoom s v.f.val 8) :
    Runs (.entropySwitch g n [] [.err .parameterSet]) s fun t => VTells s t v.f 7 32 (vId s n.val) 0 ∧ (∀ m, m ≠ n.val → vGet t m = vGet s m)
      ∧ odGet t 0x7011 (v.f.val + 1) = min (odGet s 0x7011 (v.f.val + 1) + 1) (2 ^ 32 - 1)
      ∧ ∃ w, vGet t n.val = some w ∧ w.waitKey = true ∧ w.slots = v.slots ∧ w.recon = v.recon := by
  have hset := vGet_vSet s n.val v
  have hexec := entropySwitch_filled (n := n) hon hg hv [] [.err .parameterSet]
  rw [recordsPut_nil] at hexec
  have hexec := hexec v hset
  rw [if_pos (.inl ⟨rfl, by rw [mayStay_vSet, hstay]⟩)] at hexec
  let u := engineTurned (vSet s n.val v) g.val n.val
  have hu : vGet u n.val = some v := hset
  have hgo : nalGo n.val [.err .parameterSet] u = vFlushed (parameterSetLost u n.val v) n.val := by
    have heffect : nalEffect n.val u (.err .parameterSet) = vFlushed (decodeError u n.val .parameterSet) n.val := by
      unfold nalEffect
      rw [hu]
    rw [← decodeError_parameterSet hu hkey, ← heffect]
    rfl
  refine ⟨_, hexec.trans (congrArg Host.Outcome.next hgo), ?_⟩
  have hstep : CodecStep n.val s u := ⟨vGet_vSet_other s n.val v, rfl, .refl s⟩
  have hpav : u.pav = s.pav := rfl
  have hroom' : RingRoom u v.f.val 8 := hroom
  have hout : u.out = s.out := rfl
  clear_value u
  obtain ⟨hget, htell, hwait, hwaitPav⟩ := waitKeyEnter_spec (s := u) (n := n.val) hkey hroom' 1
  rw [waitKeyEnter_enters hkey] at hget htell hwait hwaitPav
  unfold parameterSetLost
  generalize vEvent (vSet u n.val { v with waitKey := true, seqStart := true }) n.val v 32 1 = w at *
  have hlost : CodecStep n.val w (bump32 (vSet w n.val (parseDrop { v with waitKey := true, seqStart := true })) 0x7011 (v.f.val + 1)) :=
    (vSet_codecStep ..).trans (bumpBy_codecStep ..)
  have hcount : odGet (bump32 (vSet w n.val (parseDrop { v with waitKey := true, seqStart := true })) 0x7011 (v.f.val + 1)) 0x7011 (v.f.val + 1)
      = min (odGet w 0x7011 (v.f.val + 1) + 1) (2 ^ 32 - 1) := odGet_bumpBy ..
  have hx : vGet (bump32 (vSet w n.val (parseDrop { v with waitKey := true, seqStart := true })) 0x7011 (v.f.val + 1)) n.val
      = some (parseDrop { v with waitKey := true, seqStart := true }) := vGet_vSet ..
  generalize bump32 (vSet w n.val (parseDrop { v with waitKey := true, seqStart := true })) 0x7011 (v.f.val + 1) = x at *
  obtain ⟨hflush, hflushPav, -⟩ := vFlushed_frame x n.val
  obtain ⟨l, hl⟩ := vGet_vFlushed hx
  obtain ⟨kkey, kslots, krecon⟩ := parseDrop_keeps { v with waitKey := true, seqStart := true }
  obtain ⟨hother, -, -⟩ := ((hstep.trans hwait).trans hlost).trans hflush
  obtain ⟨-, -, hgrows⟩ := hlost.trans hflush
  refine ⟨?_, hother, ?_, _, hl, kkey, kslots, krecon⟩
  · rw [← hstep.vId]
    exact vTells_between htell hout hgrows
  · rw [odGet_of_pav hflushPav, hcount, odGet_of_pav hwaitPav, odGet_of_pav hpav]

end Sys2Proof.Machine
end

section
/-! SUPPORT. O28: pictures begin (R291, R295, R304, R307, R309). -/

namespace Sys2Proof.Machine

open Sys2Proof Sys2Proof.Claims

/-! ### Pool slots (R304) -/

theorem mgetD_mapValue {α : Type} (m : SMap α) (g : α → α) (k : Nat) {d : α} (hd : g d = d) : mgetD (m.map fun y => (y.1, g y.2)) k d = g (mgetD m k d) := by
  unfold mgetD
  induction m with
  | nil => exact hd.symm
  | cons a t ih =>
    simp only [List.map_cons, mget]
    split
    · rfl
    · exact ih

/-- What a picture's slot keeps of its place in the output where the picture drops those still pending. -/
def slotDropped (x : VSlot) : VSlot := if x.out == .pending then { x with out := .none } else x

theorem mgetD_dropped (m : SMap VSlot) (k : Nat) :
    mgetD (m.map fun y => if y.2.out == .pending then (y.1, { y.2 with out := .none }) else y) k {} = slotDropped (mgetD m k {}) := by
  rw [← mgetD_mapValue m slotDropped k rfl]
  congr 2
  funext y
  unfold slotDropped
  split
  · rfl
  · rfl

/-! ### Whether a picture begins (R291, R304, R307) -/

/-- The access unit discarded: its picture is not decoded. -/
def unitGone (s : State) (n : Nat) (v : VSession) (u : AUnit) : State := vFlushed (vSet s n (unitDrop v u.no)) n

section
variable {n : Fin 512} {s : State} {v : VSession} (hon : zoeOn s = true) (hv : vGet s n.val = some v) {h : PicHead} {u : AUnit} {rest : List AUnit}
  (hunits : v.units = u :: rest) (hbegun : u.begun = true) (hvoid : u.void = false) (hrecon : v.recon = none)

include hon hv hunits hbegun hvoid hrecon

theorem pictureStart_exec : exec (.pictureReconstructStart n h) s =
    if v.waitKey && !irap h then .next (unitGone s n.val v u)
    else if v.raslOff && h.kind == .rasl then .next (unitGone s n.val v u)
    else if headRefusal v.desc h ≠ 0 then
      .next (unitGone (waitKeyEnter s n.val v (headRefusal v.desc h)) n.val ((vGet (waitKeyEnter s n.val v (headRefusal v.desc h)) n.val).getD v) u)
    else if h.refs.any fun k => (vSlot v k.val).decoding then .next s
    else match slotFind (markSlots v h) with
      | none => .next s
      | some k => .next (pictureBegin s n.val (markSlots v h) h k u) := by
  change execPictureReconstructStart n h s = _
  unfold execPictureReconstructStart
  rw [if_pos hon, hv]
  dsimp only
  rw [hunits]
  exact if_neg (by simp [hbegun, hvoid, hrecon])

/-- A picture that waits for a key, or follows its key out of order, is discarded. -/
theorem pictureStart_lost (hlost : v.waitKey = true ∧ irap h = false ∨ v.raslOff = true ∧ h.kind = .rasl) (hflushing : v.flushing = []) :
    Runs (.pictureReconstructStart n h) s fun t => (∀ m, m ≠ n.val → vGet t m = vGet s m) ∧ vGet t n.val = some (unitDrop v u.no) ∧ t.out = s.out := by
  have hset : vGet (vSet s n.val (unitDrop v u.no)) n.val = some (unitDrop v u.no) := vGet_vSet ..
  have hgone : unitGone s n.val v u = vSet s n.val (unitDrop v u.no) := vFlushed_none hset hflushing
  have hexec : exec (.pictureReconstructStart n h) s = .next (unitGone s n.val v u) := by
    rw [pictureStart_exec hon hv hunits hbegun hvoid hrecon]
    by_cases hkey : (v.waitKey && !irap h) = true
    · exact if_pos hkey
    · have hrasl : v.raslOff = true ∧ h.kind = .rasl := hlost.resolve_left fun hlost => hkey (by simp [hlost])
      rw [if_neg hkey]
      exact if_pos (by simp [hrasl])
  exact ⟨_, hexec.trans (congrArg Host.Outcome.next hgone), vGet_vSet_other s n.val _, hset, rfl⟩

variable (hkept : ¬ (v.waitKey = true ∧ irap h = false ∨ v.raslOff = true ∧ h.kind = .rasl))
include hkept

theorem pictureStart_kept : exec (.pictureReconstructStart n h) s =
    if headRefusal v.desc h ≠ 0 then
      .next (unitGone (waitKeyEnter s n.val v (headRefusal v.desc h)) n.val ((vGet (waitKeyEnter s n.val v (headRefusal v.desc h)) n.val).getD v) u)
    else if h.refs.any fun k => (vSlot v k.val).decoding then .next s
    else match slotFind (markSlots v h) with
      | none => .next s
      | some k => .next (pictureBegin s n.val (markSlots v h) h k u) := by
  rw [pictureStart_exec hon hv hunits hbegun hvoid hrecon, if_neg fun hkey => hkept (.inl (by simpa using hkey)), if_neg fun hrasl => hkept (.inr (by simpa using hrasl))]

/-- A picture that cannot be decoded makes its session wait for a key. -/
theorem pictureStart_refused (hrefused : headRefusal v.desc h ≠ 0) (hkey : v.waitKey = false) (hroom : RingRoom s v.f.val 8) :
    Runs (.pictureReconstructStart n h) s fun t => (∀ m, m ≠ n.val → vGet t m = vGet s m) ∧ VTells s t v.f 7 32 (vId s n.val) 0
      ∧ ∃ w, vGet t n.val = some w ∧ w.waitKey = true ∧ w.recon = none ∧ w.slots = v.slots ∧ w.units = (unitDrop v u.no).units := by
  have hexec := pictureStart_kept hon hv hunits hbegun hvoid hrecon hkept
  rw [if_pos hrefused] at hexec
  obtain ⟨hget, htell, hwait, -⟩ := waitKeyEnter_spec (s := s) (n := n.val) hkey hroom (headRefusal v.desc h)
  rw [hget, Option.getD_some] at hexec
  refine ⟨_, hexec, ?_⟩
  generalize waitKeyEnter s n.val v (headRefusal v.desc h) = w at *
  have hset : vGet (vSet w n.val (unitDrop { v with waitKey := true, seqStart := true } u.no)) n.val = some (unitDrop { v with waitKey := true, seqStart := true } u.no) := vGet_vSet ..
  have hstep := vSet_codecStep w n.val (unitDrop { v with waitKey := true, seqStart := true } u.no)
  unfold unitGone
  generalize vSet w n.val (unitDrop { v with waitKey := true, seqStart := true } u.no) = x at *
  obtain ⟨hflush, -⟩ := vFlushed_frame x n.val
  obtain ⟨l, hl⟩ := vGet_vFlushed hset
  obtain ⟨hother, -, -⟩ := (hwait.trans hstep).trans hflush
  obtain ⟨-, -, hgrows⟩ := hstep.trans hflush
  exact ⟨hother, vTells_between htell rfl hgrows, _, hl, rfl, hrecon, rfl, rfl⟩

variable (hlegal : headRefusal v.desc h = 0)
include hlegal

/-- A picture waits for its references and for a free slot. -/
theorem pictureStart_waits (hwaits : (h.refs.any fun k => (vSlot v k.val).decoding) = true ∨ slotFind (markSlots v h) = none) :
    Runs (.pictureReconstructStart n h) s fun t => t = s := by
  have hexec := pictureStart_kept hon hv hunits hbegun hvoid hrecon hkept
  rw [if_neg (not_not.mpr hlegal)] at hexec
  by_cases hrefs : (h.refs.any fun k => (vSlot v k.val).decoding) = true
  · rw [if_pos hrefs] at hexec
    exact ⟨_, hexec, rfl⟩
  · rw [if_neg hrefs, hwaits.resolve_left hrefs] at hexec
    exact ⟨_, hexec, rfl⟩

theorem pictureStart_begins (hrefs : (h.refs.any fun k => (vSlot v k.val).decoding) = false) {k : Nat} (hslot : slotFind (markSlots v h) = some k) :
    exec (.pictureReconstructStart n h) s = .next (pictureBegin s n.val (markSlots v h) h k u) := by
  rw [pictureStart_kept hon hv hunits hbegun hvoid hrecon hkept, if_neg (not_not.mpr hlegal), if_neg (by simp [hrefs]), hslot]

end

/-! ### A picture begun (R304, R309) -/

section
variable (v : VSession) (h : PicHead) (u : AUnit)

/-- A picture is tainted by a tainted reference since the last IRAP picture. -/
def pictureTaint : Bool := h.refs.any fun r => (vSlot v r.val).tainted && decide ((if irap h then u.no else v.irapUnit) ≤ (vSlot v r.val).unit)

/-- The slot of a picture that begins. -/
def slotBegun : VSlot :=
  { refMark := h.mark, decoding := true, head := some h, tainted := pictureTaint v h u
    decodeOrder := v.decoded, irapNo := v.iraps + if irap h then 1 else 0, unit := u.no, hostTag := u.tag }

variable (k : Nat)

/-- The slots of a session whose picture begins in slot `k`. -/
def slotsBegun : SMap VSlot :=
  mset (if irap h && h.dropPrior then v.slots.map fun y => if y.2.out == .pending then (y.1, { y.2 with out := .none }) else y else v.slots) k
    (slotBegun v h u)

/-- A session whose picture begins in slot `k`. -/
def sessionBegun : VSession :=
  { v with
    slots := slotsBegun v h u k, recon := some k, decoded := v.decoded + 1, iraps := v.iraps + if irap h then 1 else 0
    irapUnit := if irap h then u.no else v.irapUnit, waitKey := false, seqStart := v.seqStart && !irap h
    raslOff := match h.kind with
      | .cra => v.seqStart
      | .bla => true
      | .idr => false
      | _ => v.raslOff
    reorder := h.reorder, latency := h.latency }

theorem pictureBegin_eq (s : State) (n : Nat) : pictureBegin s n v h k u = vSet (if v.waitKey then vEvent s n v 33 0 else s) n (sessionBegun v h u k) := by
  unfold pictureBegin sessionBegun
  rfl

/-- A picture that begins changes its session alone. -/
theorem pictureBegin_spec (s : State) (n : Nat) : CodecStep n s (pictureBegin s n v h k u) ∧ vGet (pictureBegin s n v h k u) n = some (sessionBegun v h u k) := by
  rw [pictureBegin_eq]
  refine ⟨CodecStep.trans ?_ (vSet_codecStep ..), vGet_vSet ..⟩
  split
  · exact (vPush_issueOnly ..).codecStep
  · exact .refl s

/-- The slot of the picture holds it; every other keeps what it held, but for pictures that go without output. -/
theorem slotsBegun_same : mgetD (slotsBegun v h u k) k {} = slotBegun v h u := mgetD_mset_same ..

theorem slotsBegun_other {j : Nat} (hj : j ≠ k) : mgetD (slotsBegun v h u k) j {}
    = if (irap h && h.dropPrior && (vSlot v j).out == .pending) = true then { vSlot v j with out := .none } else vSlot v j := by
  unfold slotsBegun
  rw [mgetD, mget_mset_ne _ _ hj, ← mgetD]
  by_cases hdrop : (irap h && h.dropPrior) = true
  · rw [if_pos hdrop, mgetD_dropped, hdrop, Bool.true_and]
    rfl
  · rw [if_neg hdrop, Bool.eq_false_of_not_eq_true hdrop, Bool.false_and]
    exact (if_neg (by decide)).symm

end

/-- Each way of a picture whose records have begun. -/
theorem pictureReconstructStart_runs {n : Fin 512} {s : State} {v : VSession} (hon : zoeOn s = true) (hv : vGet s n.val = some v) {h : PicHead} {u : AUnit}
    {rest : List AUnit} (hunits : v.units = u :: rest) (hbegun : u.begun = true) (hvoid : u.void = false) (hrecon : v.recon = none) :
    let lost := v.waitKey = true ∧ irap h = false ∨ v.raslOff = true ∧ h.kind = .rasl
    ¬ lost → headRefusal v.desc h = 0 →
      ((h.refs.any fun k => (vSlot v k.val).decoding) = true ∨ slotFind (markSlots v h) = none → Runs (.pictureReconstructStart n h) s fun t => t = s)
      ∧ ∀ k, (h.refs.any fun k => (vSlot v k.val).decoding) = false → slotFind (markSlots v h) = some k → Runs (.pictureReconstructStart n h) s fun t =>
          (∀ m, m ≠ n.val → vGet t m = vGet s m)
          ∧ ∃ w, vGet t n.val = some w ∧ w.recon = some k ∧ w.units = v.units ∧ w.decoded = v.decoded + 1 ∧ w.waitKey = false
            ∧ (vSlot w k).decoding = true ∧ (vSlot w k).head = some h ∧ (vSlot w k).rowsDone = 0
            ∧ (vSlot w k).refMark = h.mark ∧ (vSlot w k).unit = u.no ∧ (vSlot w k).tainted = pictureTaint (markSlots v h) h u
            ∧ ∀ j, j ≠ k → vSlot w j
              = if (irap h && h.dropPrior && (vSlot (markSlots v h) j).out == .pending) = true then { vSlot (markSlots v h) j with out := .none } else vSlot (markSlots v h) j := by
  intro lost hkept hlegal
  refine ⟨pictureStart_waits hon hv hunits hbegun hvoid hrecon hkept hlegal, fun k hrefs hslot => ⟨_, pictureStart_begins hon hv hunits hbegun hvoid hrecon hkept hlegal hrefs hslot, ?_⟩⟩
  obtain ⟨⟨hother, -, -⟩, hget⟩ := pictureBegin_spec (markSlots v h) h u k s n.val
  have hsame : vSlot (sessionBegun (markSlots v h) h u k) k = slotBegun (markSlots v h) h u := slotsBegun_same (markSlots v h) h u k
  exact ⟨hother, _, hget, rfl, rfl, rfl, rfl, congrArg VSlot.decoding hsame, congrArg VSlot.head hsame, congrArg VSlot.rowsDone hsame, congrArg VSlot.refMark hsame,
    congrArg VSlot.unit hsame, congrArg VSlot.tainted hsame, fun j hj => slotsBegun_other (markSlots v h) h u k hj⟩

end Sys2Proof.Machine
end

section
/-! SUPPORT. O28: rows are reconstructed, and pictures output (R291, R294, R304, R305, R308, R309). -/

namespace Sys2Proof.Machine

open Sys2Proof Sys2Proof.Claims

/-! ### Bytes of a picture (R298, R308, R314) -/

/-- Memory is written for session `n`, which may note an access that its partition may not make. -/
def PicWritten (n : Nat) (s t : State) : Prop :=
  t = { s with zoe := { s.zoe with sessions := t.zoe.sessions }, mem := t.mem } ∧ (∀ m, m ≠ n → vGet t m = vGet s m)
  ∧ ∀ v, vGet s n = some v → ∃ e, vGet t n = some { v with accessErr := e }

theorem PicWritten.refl {n : Nat} (s : State) : PicWritten n s s := ⟨rfl, fun _ _ => rfl, fun _ hv => ⟨_, hv⟩⟩

theorem PicWritten.trans {n : Nat} {s t u : State} (h : PicWritten n s t) (k : PicWritten n t u) : PicWritten n s u := by
  obtain ⟨h, hother, hself⟩ := h
  obtain ⟨k, kother, kself⟩ := k
  refine ⟨by rw [k, h], fun m hm => (kother m hm).trans (hother m hm), fun v hv => ?_⟩
  obtain ⟨e, he⟩ := hself v hv
  obtain ⟨e', he'⟩ := kself _ he
  exact ⟨e', he'⟩

theorem PicWritten.session {n : Nat} {s t : State} (h : PicWritten n s t) {v : VSession} (hv : vGet s n = some v) : ∃ e, vGet t n = some { v with accessErr := e } :=
  h.2.2 v hv

theorem PicWritten.silent {n : Nat} {s t : State} (h : PicWritten n s t) : Silent s t := by
  obtain ⟨h, -⟩ := h
  unfold Silent
  rw [h]

theorem PicWritten.codecStep {n : Nat} {s t : State} (h : PicWritten n s t) : CodecStep n s t := h.silent.codecStep h.2.1

theorem PicWritten.pav {n : Nat} {s t : State} (h : PicWritten n s t) : t.pav = s.pav := by rw [h.1]

theorem MemOnly.picWritten {n : Nat} {s t : State} (h : MemOnly s t) : PicWritten n s t := by
  have hzoe : t.zoe = s.zoe := by rw [h]
  refine ⟨?_, fun m _ => by rw [vGet, vGet, hzoe], fun v hv => ⟨v.accessErr, ?_⟩⟩
  · unfold MemOnly at h
    rw [h]
  · rw [vGet, hzoe]
    exact hv

/-- An access noted. -/
theorem accessNoted_picWritten {s : State} {n : Nat} {v : VSession} (hv : vGet s n = some v) : PicWritten n s (vSet s n { v with accessErr := true }) := by
  refine ⟨rfl, vGet_vSet_other s n _, fun w hw => ⟨true, ?_⟩⟩
  obtain rfl := Option.some.inj (hv.symm.trans hw)
  exact vGet_vSet ..

theorem vWrite_picWritten (s : State) (n a : Nat) (bs : List Byte) : PicWritten n s (vWrite s n a bs) := by
  unfold vWrite
  split
  · exact .refl s
  · next v hv =>
    dsimp only
    have hput : MemOnly s (partPut s v.f.val a bs) := partPut_memOnly ..
    have hv' : vGet (partPut s v.f.val a bs) n = some v := by
      rw [vGet, show (partPut s v.f.val a bs).zoe = s.zoe by rw [hput]]
      exact hv
    split
    · exact hput.picWritten
    · exact hput.picWritten.trans (accessNoted_picWritten hv')

theorem vRead_picWritten (s : State) (n a len : Nat) : PicWritten n s (vRead s n a len).2 := by
  unfold vRead
  split
  · exact .refl s
  · next v hv =>
    dsimp only
    split
    · exact .refl s
    · exact accessNoted_picWritten hv

theorem decodeCtu_picWritten (s : State) (n k : Nat) (v : VSession) (h : PicHead) (u : AUnit) (covered : List Nat) (row col : Nat) :
    PicWritten n s (decodeCtu s n k v h u covered row col) :=
  .trans (each_rel (R := PicWritten n) .refl .trans (fun _ _ => vWrite_picWritten ..) _ s) (each_rel (R := PicWritten n) .refl .trans (fun _ _ => vWrite_picWritten ..) _ _)

/-- The bytes that conceal a run of a CTU, and the state that reading them leaves. -/
theorem concealed_picWritten (s : State) (n a len depth : Nat) (v : VSession) (q : Option Nat) (off : Nat) :
    PicWritten n s (match q with
      | some q => vRead s n (vdSlotAddr v.desc q + off) len
      | none => (midGrey v.desc depth a, s)).2 := by
  cases q with
  | some q => exact vRead_picWritten ..
  | none => exact .refl s

theorem concealCtu_picWritten (s : State) (n k : Nat) (v : VSession) (h : PicHead) (row col : Nat) : PicWritten n s (concealCtu s n k v h row col) := by
  refine .trans (each_rel (R := PicWritten n) .refl .trans (fun u r => ?_) _ s) (each_rel (R := PicWritten n) .refl .trans (fun _ _ => vWrite_picWritten ..) _ _)
  obtain ⟨-, -, -, off, len⟩ := r
  exact (concealed_picWritten u n len (len * vdB v.desc) h.depth v (concealRef v (vSlot v k).decodeOrder) off).trans (vWrite_picWritten ..)

/-! ### A row (R294, R295, R300, R308) -/

section
variable (v : VSession) (k : Nat) (h : PicHead) (u : AUnit)

/-- CTUs of the picture's next row that are concealed. -/
def rowGone : List Nat := (List.range (ctuCols h)).filter fun c => !(coveredCtus h u).contains ((vSlot v k).rowsDone * ctuCols h + c)

/-- The picture's next row is its last. -/
def rowLast : Bool := decide (ctuRowCount h ≤ (vSlot v k).rowsDone + 1)

/-- A session with the picture's next row done at time `now`. -/
def sessionRow (now : Nat) (w : VSession) : VSession :=
  { w with
    slots := mset w.slots k (slotRow now w.desc h u (vSlot w k) (rowGone v k h u).length (rowLast v k h))
    recon := if rowLast v k h then none else w.recon
    units := if rowLast v k h then w.units.filter (·.no != u.no) else w.units
    records := w.records.filter fun c => !(c.unit == u.no && (rowLast v k h || decide (c.upTo ≤ recordsOf h u ((vSlot v k).rowsDone + 1)))) }

/-- The CTUs of the row are written. -/
def rowWritten (s : State) (n : Nat) : State :=
  each (rowGone v k h u) (fun s c => concealCtu s n k v h (vSlot v k).rowsDone c)
    (each ((List.range (ctuCols h)).filter fun c => (coveredCtus h u).contains ((vSlot v k).rowsDone * ctuCols h + c))
      (fun s c => decodeCtu s n k v h u (coveredCtus h u) (vSlot v k).rowsDone c) s)

theorem rowWritten_picWritten (s : State) (n : Nat) : PicWritten n s (rowWritten v k h u s n) :=
  .trans (each_rel (R := PicWritten n) .refl .trans (fun _ _ => decodeCtu_picWritten ..) _ s) (each_rel (R := PicWritten n) .refl .trans (fun _ _ => concealCtu_picWritten ..) _ _)

/-- The concealed CTUs count in OD 0x7012. -/
def goneCounted (s : State) : State := if rowGone v k h u = [] then s else bumpBy s 0x7012 (v.f.val + 1) 64 (rowGone v k h u).length

theorem goneCounted_spec (s : State) {n : Nat} : CodecStep n s (goneCounted v k h u s) ∧ (goneCounted v k h u s).out = s.out ∧ (goneCounted v k h u s).zoe = s.zoe
    ∧ odGet (goneCounted v k h u s) 0x7012 (v.f.val + 1)
      = if (rowGone v k h u).length = 0 then odGet s 0x7012 (v.f.val + 1) else min (odGet s 0x7012 (v.f.val + 1) + (rowGone v k h u).length) (2 ^ 64 - 1) := by
  unfold goneCounted
  by_cases hnone : rowGone v k h u = []
  · rw [if_pos hnone, if_pos (by rw [hnone]; rfl)]
    exact ⟨.refl s, rfl, rfl, rfl⟩
  · rw [if_neg hnone, if_neg fun hlen => hnone (List.length_eq_zero_iff.mp hlen)]
    exact ⟨bumpBy_codecStep .., rfl, rfl, odGet_bumpBy ..⟩

theorem ctuRow_eq {s : State} {n : Nat} {e : Bool} (hget : vGet (rowWritten v k h u s n) n = some { v with accessErr := e }) :
    ctuRow s n k v h u = goneCounted v k h u (vSet (rowWritten v k h u s n) n (sessionRow v k h u (rowWritten v k h u s n).clk.now { v with accessErr := e })) := by
  unfold ctuRow
  dsimp only
  change (match vGet (rowWritten v k h u s n) n with
    | none => rowWritten v k h u s n
    | some v => _) = _
  rw [hget]
  rfl

end

/-- A row ready is of the picture in reconstruction. -/
theorem rowReady_recon {v : VSession} {k : Nat} {h : PicHead} {u : AUnit} (hready : rowReady v = some (k, h, u)) : v.recon = some k := by
  unfold rowReady at hready
  split at hready
  · next hrecon _ =>
    split at hready
    · dsimp only at hready
      split at hready
      · rw [hrecon, (Prod.mk.inj (Option.some.inj hready)).1]
      · cases hready
    · cases hready
  · cases hready

section
variable {n : Fin 512} {s : State} {v : VSession} (hon : zoeOn s = true) (hv : vGet s n.val = some v) {k : Nat} {h : PicHead} {u : AUnit}
  (hready : rowReady v = some (k, h, u))
include hon hv hready

theorem rowDispatch_exec (unit row : Nat) : exec (.ctuRowDispatch n unit row) s =
    if unit != u.no || row != (vSlot v k).rowsDone then .next s
    else if s.zoe.sessions.any fun x => x.1 != n.val && !vdEnc x.2.desc && (rowReady x.2).isSome && pixelEarlier x.2 v then .next s
    else .next (vFlushed (ctuRow s n.val k v h u) n.val) := by
  change execCtuRowDispatch n unit row s = _
  unfold execCtuRowDispatch
  rw [if_pos hon, hv]
  dsimp only
  rw [hready]

/-- A row that is not the next, or while an earlier picture has one, does not run. -/
theorem rowDispatch_waits {unit row : Nat}
    (hwaits : (s.zoe.sessions.any fun x => x.1 != n.val && !vdEnc x.2.desc && (rowReady x.2).isSome && pixelEarlier x.2 v) = true ∨ unit ≠ u.no ∨ row ≠ (vSlot v k).rowsDone) :
    Runs (.ctuRowDispatch n unit row) s fun t => t = s := by
  have hexec := rowDispatch_exec hon hv hready unit row
  by_cases hother : (unit != u.no || row != (vSlot v k).rowsDone) = true
  · rw [if_pos hother] at hexec
    exact ⟨_, hexec, rfl⟩
  · have hearlier := hwaits.resolve_right fun hne => hother (by simpa using hne)
    rw [if_neg hother, if_pos hearlier] at hexec
    exact ⟨_, hexec, rfl⟩

/-- The next row of the picture with the earliest deadline runs. -/
theorem rowDispatch_runs (hfirst : (s.zoe.sessions.any fun x => x.1 != n.val && !vdEnc x.2.desc && (rowReady x.2).isSome && pixelEarlier x.2 v) = false) :
    Runs (.ctuRowDispatch n u.no (vSlot v k).rowsDone) s fun t => (∀ m, m ≠ n.val → vGet t m = vGet s m) ∧ (v.flushing = [] → t.out = s.out)
      ∧ odGet t 0x7012 (v.f.val + 1) = (if (rowGone v k h u).length = 0 then odGet s 0x7012 (v.f.val + 1)
        else min (odGet s 0x7012 (v.f.val + 1) + (rowGone v k h u).length) (2 ^ 64 - 1))
      ∧ ∃ w, vGet t n.val = some w ∧ w.recon = (if rowLast v k h then none else some k)
        ∧ w.records = v.records.filter (fun c => !(c.unit == u.no && (rowLast v k h || decide (c.upTo ≤ recordsOf h u ((vSlot v k).rowsDone + 1)))))
        ∧ (vSlot w k).rowsDone = (vSlot v k).rowsDone + 1 ∧ (vSlot w k).concealed = (vSlot v k).concealed + (rowGone v k h u).length
        ∧ (vSlot w k).decoding = !rowLast v k h ∧ (vSlot w k).out = (if rowLast v k h && h.shown then .pending else (vSlot v k).out) := by
  have hexec := rowDispatch_exec hon hv hready u.no (vSlot v k).rowsDone
  rw [if_neg (by simp), if_neg (by rw [hfirst]; decide)] at hexec
  refine ⟨_, hexec, ?_⟩
  have hwritten := rowWritten_picWritten v k h u s n.val
  obtain ⟨e, he⟩ := hwritten.session hv
  rw [ctuRow_eq v k h u he]
  generalize rowWritten v k h u s n.val = x at *
  generalize x.clk.now = now
  have hset : vGet (vSet x n.val (sessionRow v k h u now { v with accessErr := e })) n.val = some (sessionRow v k h u now { v with accessErr := e }) := vGet_vSet ..
  have hstep := hwritten.codecStep.trans (vSet_codecStep x n.val (sessionRow v k h u now { v with accessErr := e }))
  have hpav : (vSet x n.val (sessionRow v k h u now { v with accessErr := e })).pav = s.pav := hwritten.pav
  have hout : (vSet x n.val (sessionRow v k h u now { v with accessErr := e })).out = s.out := hwritten.silent.out
  generalize vSet x n.val (sessionRow v k h u now { v with accessErr := e }) = y at *
  obtain ⟨hcount, hcountOut, hcountZoe, hod⟩ := goneCounted_spec v k h u y (n := n.val)
  have hset' : vGet (goneCounted v k h u y) n.val = some (sessionRow v k h u now { v with accessErr := e }) := by
    rw [vGet, hcountZoe]
    exact hset
  generalize goneCounted v k h u y = z at *
  obtain ⟨hflush, hflushPav, -⟩ := vFlushed_frame z n.val
  obtain ⟨l, hl⟩ := vGet_vFlushed hset'
  obtain ⟨hother, -, -⟩ := (hstep.trans hcount).trans hflush
  have hslot : vSlot { sessionRow v k h u now { v with accessErr := e } with flushing := l } k
      = slotRow now v.desc h u (vSlot v k) (rowGone v k h u).length (rowLast v k h) := mgetD_mset_same ..
  refine ⟨hother, fun hnone => ?_, ?_, _, hl, ?_, rfl, congrArg VSlot.rowsDone hslot, congrArg VSlot.concealed hslot, congrArg VSlot.decoding hslot, congrArg VSlot.out hslot⟩
  · rw [vFlushed_none hset' hnone, hcountOut, hout]
  · rw [odGet_of_pav hflushPav, hod, odGet_of_pav hpav]
  · rw [← rowReady_recon hready]
    rfl

end

end Sys2Proof.Machine
end

section
/-! SUPPORT. O28: pictures are output (R300, R304 to R306, R309). -/

namespace Sys2Proof.Machine

open Sys2Proof Sys2Proof.Claims

/-! ### Counters of pictures (R300, R315) -/

/-- A late picture counts in OD 0x7014. -/
def lateCounted (late : Bool) (s : State) (p : Nat) : State := if late then bump32 s 0x7014 (p + 1) else s

theorem lateCounted_spec (late : Bool) (s : State) (p : Nat) : Silent s (lateCounted late s p) ∧ (lateCounted late s p).zoe = s.zoe ∧ (lateCounted late s p).mem = s.mem
    ∧ ∀ i, i ≠ 0x7014 → p < 16 → odGet (lateCounted late s p) i (p + 1) = odGet s i (p + 1) := by
  unfold lateCounted
  cases late
  · exact ⟨.refl s, rfl, rfl, fun _ _ _ => rfl⟩
  · exact ⟨bumpBy_silent .., rfl, rfl, fun i hi hp => odGet_bumpBy_ne s _ _ (odKey_ne (by omega) (by omega) (.inl hi))⟩

/-! ### A picture output (R304 to R306, R309) -/

section
variable (v : VSession) (k : Nat) (x : VSlot)

/-- The slot of a picture that is output. -/
def slotHeld : VSlot := { x with out := .held, outputOrder := v.output }

/-- A session whose picture in slot `k` is output. -/
def sessionOutput : VSession := { v with slots := mset v.slots k (slotHeld v x), output := v.output + 1 }

/-- The counter that the session's descriptor names is posted. -/
def outputPosted (s : State) : State :=
  if bit v.desc 890 then locPost s v.f.val (fld v.desc 889 870) (fld v.desc 869 861) (BitVec.ofNat 32 (fld v.desc 860 845)) else s

end

theorem cntPost_zoe (s : State) (part c n : Nat) (amt : W32) : (cntPost s part c n amt).zoe = s.zoe := by
  unfold cntPost
  split
  · rfl
  · split
    · rfl
    · rfl

/-- A post to a cluster's counter, or none, changes no session and counts no picture. -/
theorem outputPosted_spec {v : VSession} (hpost : bit v.desc 890 = false ∨ clusOfLoc (fld v.desc 889 870) ≠ none) (s : State) :
    Silent s (outputPosted v s) ∧ (outputPosted v s).zoe = s.zoe ∧ odGet (outputPosted v s) 0x7010 (v.f.val + 1) = odGet s 0x7010 (v.f.val + 1) := by
  unfold outputPosted
  by_cases hbit : bit v.desc 890 = true
  · obtain ⟨d, hd⟩ := Option.ne_none_iff_exists'.mp (hpost.resolve_left (by simp [hbit]))
    rw [if_pos hbit]
    have hzoe : (locPost s v.f.val (fld v.desc 889 870) (fld v.desc 869 861) (BitVec.ofNat 32 (fld v.desc 860 845))).zoe = s.zoe := by
      rw [locPost_cluster s hd]
      exact cntPost_zoe ..
    have honly := locPost_postOnly s v.f.val (fld v.desc 889 870) (fld v.desc 869 861) (BitVec.ofNat 32 (fld v.desc 860 845))
    have hf := v.f.isLt
    refine ⟨?_, hzoe, odGet_locPost s _ _ _ _ (by unfold odKey; omega) fun q hq => odKey_ne (by omega) (by omega) (.inl (by decide))⟩
    generalize locPost s v.f.val (fld v.desc 889 870) (fld v.desc 869 861) (BitVec.ofNat 32 (fld v.desc 860 845)) = t at *
    unfold PostOnly at honly
    rw [hzoe] at honly
    unfold Silent
    rw [honly]
  · rw [if_neg hbit]
    exact ⟨.refl s, rfl, rfl⟩

section
variable {n : Fin 512} {s : State} {v : VSession} (hon : zoeOn s = true) (hv : vGet s n.val = some v)
include hon hv

/-- No picture is output before one is due. -/
theorem pictureOutput_waits (hdue : outputDue v = false) : Runs (.pictureOutput n) s fun t => t = s := by
  refine ⟨s, ?_, rfl⟩
  change execPictureOutput n s = _
  unfold execPictureOutput
  rw [if_pos hon, hv]
  dsimp only
  rw [if_neg (by simp [hdue])]

variable {k : Nat} {x : VSlot} (hdue : outputDue v = true) (hnext : nextOutput v = some (k, x))
include hdue hnext

/-- The picture next in output order is held, counted and told. -/
theorem pictureOutput_exec : ∃ (late : Bool) (c : VCompl), c.kind = 2 ∧ c.status = 0 ∧ c.tag = x.hostTag
    ∧ c.session = vId (bump64 (lateCounted late (outputPosted v (vSet s n.val (sessionOutput v k x))) v.f.val) 0x7010 (v.f.val + 1)) n.val
    ∧ exec (.pictureOutput n) s
      = .next (vFlushed (vPush (bump64 (lateCounted late (outputPosted v (vSet s n.val (sessionOutput v k x))) v.f.val) 0x7010 (v.f.val + 1)) v.f c) n.val) := by
  have hexec : exec (.pictureOutput n) s = execPictureOutput n s := rfl
  unfold execPictureOutput at hexec
  rw [if_pos hon, hv] at hexec
  dsimp only at hexec
  rw [if_pos hdue, hnext] at hexec
  exact ⟨_, _, rfl, rfl, rfl, rfl, hexec⟩

theorem pictureOutput_runs (hroom : RingRoom s v.f.val 8) (hpost : bit v.desc 890 = false ∨ clusOfLoc (fld v.desc 889 870) ≠ none) :
    Runs (.pictureOutput n) s fun t => VTells s t v.f 2 0 (vId s n.val) x.hostTag ∧ (∀ m, m ≠ n.val → vGet t m = vGet s m)
      ∧ odGet t 0x7010 (v.f.val + 1) = min (odGet s 0x7010 (v.f.val + 1) + 1) (2 ^ 64 - 1)
      ∧ ∃ w, vGet t n.val = some w ∧ w.output = v.output + 1 ∧ vSlot w k = { x with out := .held, outputOrder := v.output } := by
  obtain ⟨late, c, hkind, hstatus, htag, hsession, hexec⟩ := pictureOutput_exec hon hv hdue hnext
  refine ⟨_, hexec, ?_⟩
  have hset : vGet (vSet s n.val (sessionOutput v k x)) n.val = some (sessionOutput v k x) := vGet_vSet ..
  have hstep := vSet_codecStep s n.val (sessionOutput v k x)
  have hsilent : Silent s (vSet s n.val (sessionOutput v k x)) := vSet_silent ..
  have hod : odGet (vSet s n.val (sessionOutput v k x)) 0x7010 (v.f.val + 1) = odGet s 0x7010 (v.f.val + 1) := rfl
  generalize vSet s n.val (sessionOutput v k x) = a at *
  obtain ⟨hpostSilent, hpostZoe, hpostOd⟩ := outputPosted_spec hpost a
  generalize outputPosted v a = b at *
  obtain ⟨hlate, hlateZoe, -, hlateOd⟩ := lateCounted_spec late b v.f.val
  have hcountOd := hlateOd 0x7010 (by decide) v.f.isLt
  generalize lateCounted late b v.f.val = d at *
  have hcounted : Silent d (bump64 d 0x7010 (v.f.val + 1)) := bumpBy_silent ..
  have hcount : odGet (bump64 d 0x7010 (v.f.val + 1)) 0x7010 (v.f.val + 1) = min (odGet d 0x7010 (v.f.val + 1) + 1) (2 ^ 64 - 1) := odGet_bumpBy ..
  have hzoe : (bump64 d 0x7010 (v.f.val + 1)).zoe = a.zoe := hlateZoe.trans hpostZoe
  generalize bump64 d 0x7010 (v.f.val + 1) = u at *
  have hquiet : Silent s u := ((hsilent.trans hpostSilent).trans hlate).trans hcounted
  have hcodec : CodecStep n.val s u := hstep.trans ((((hpostSilent.trans hlate).trans hcounted)).codecStep fun m _ => by rw [vGet, vGet, hzoe])
  have htell := vPush_tells (hquiet.room hroom) c
  have hissue := vPush_issueOnly u v.f c
  have hget : vGet (vPush u v.f c) n.val = some (sessionOutput v k x) := by rw [vGet_vPush, vGet, hzoe]; exact hset
  generalize vPush u v.f c = y at *
  obtain ⟨hflush, hflushPav, -⟩ := vFlushed_frame y n.val
  obtain ⟨l, hl⟩ := vGet_vFlushed hget
  obtain ⟨hother, -, -⟩ := (hcodec.trans hissue.codecStep).trans hflush
  obtain ⟨-, -, hgrows⟩ := hflush
  refine ⟨?_, hother, ?_, _, hl, rfl, mgetD_mset_same ..⟩
  · rw [hkind, hstatus, hsession, htag, hcodec.vId] at htell
    exact vTells_between htell hquiet.out hgrows
  · rw [odGet_of_pav hflushPav, odGet_of_pav hissue.pav, hcount, hcountOd, hpostOd, hod]

end

end Sys2Proof.Machine
end

section
/-! SUPPORT. O28: pictures are encoded (R299, R300, R310 to R313). -/

namespace Sys2Proof.Machine

open Sys2Proof Sys2Proof.Claims

/-! ### Bytes written to memory a partition may access (R91, R150) -/

theorem partPut_cons (s : State) (p a : Nat) (b : Byte) (bs : List Byte) : partPut s p a (b :: bs) = partPut (partPut s p a [b]) p (a + 1) bs := by
  unfold partPut
  rw [List.zipIdx_cons, each_cons, List.zipIdx_succ]
  unfold each
  rw [List.foldl_map]
  congr 1
  funext s x
  rw [show a + (x.2 + 1) = a + 1 + x.2 by omega]

theorem partPut_byte {s : State} {p a : Nat} (hplace : ∃ e o, placeOf s a = .hbm e o) (hline : lineOk s p a = true) (b : Byte) : partPut s p a [b] = hbmPut s a [b] := by
  obtain ⟨e, o, hplace⟩ := hplace
  simp only [partPut, each, List.zipIdx_cons, List.zipIdx_nil, List.foldl_cons, List.foldl_nil, Nat.add_zero, hplace, if_pos hline]

theorem partPut_hbm {p : Nat} : ∀ {bs : List Byte} {s : State} {a : Nat},
    (∀ i, i < bs.length → (∃ e o, placeOf s (a + i) = .hbm e o) ∧ lineOk s p (a + i) = true) → partPut s p a bs = hbmPut s a bs
  | [], _, _, _ => rfl
  | b :: bs, s, a, h => by
    obtain ⟨hplace, hline⟩ := h 0 (Nat.succ_pos _)
    rw [Nat.add_zero] at hplace hline
    have hrest : partPut (hbmPut s a [b]) p (a + 1) bs = hbmPut (hbmPut s a [b]) (a + 1) bs := partPut_hbm fun i hi => by
      have hnext := h (i + 1) (Nat.succ_lt_succ hi)
      rw [show a + (i + 1) = a + 1 + i by omega] at hnext
      exact hnext
    rw [partPut_cons, partPut_byte hplace hline, hrest]
    rfl

/-- Every byte that a session writes to memory its partition may access is there. -/
theorem hbmByte_vWrite {s : State} {n a : Nat} {bs : List Byte} {v : VSession} (hv : vGet s n = some v)
    (h : ∀ i, i < bs.length → (∃ e o, placeOf s (a + i) = .hbm e o) ∧ lineOk s v.f.val (a + i) = true) {i : Nat} (hi : i < bs.length) :
    mget (vWrite s n a bs).mem.hbm (a + i) = some (bs.getD i 0) := by
  have hmem : (vWrite s n a bs).mem = (hbmPut s a bs).mem := by
    rw [← partPut_hbm h]
    unfold vWrite
    rw [hv]
    dsimp only
    split
    · rfl
    · rfl
  rw [hmem]
  rw [List.getD_eq_getElem _ _ hi, ← List.getElem?_eq_getElem hi]
  exact mget_cellsPut_mem hi

/-! ### Rings (R252) -/

/-- A ring with room for two entries has room after the first. -/
theorem vPush_room {s : State} {f : Vf} (hroom : RingRoom s f.val 8)
    (htwo : (cqGet (fnGet s (f.val + 1)) 8).tail + 2 ≤ (cqGet (fnGet s (f.val + 1)) 8).head + cqSize (cqGet (fnGet s (f.val + 1)) 8)) (c : VCompl) :
    RingRoom (vPush s f c) f.val 8 := by
  have hpush : vPush s f c = complWrite s (f.val + 1) 8 (vComplBits s c) := complPush_room hroom _
  obtain ⟨hring, hback, -⟩ := complWrite_ring s (f.val + 1) 8 (vComplBits s c)
  have htray : (vPush s f c).tray = s.tray := by rw [(vPush_issueOnly s f c).1]
  rw [← hpush] at hring hback
  generalize vPush s f c = t at *
  obtain ⟨hdrain, hon, -, hheld⟩ := hroom
  unfold RingRoom
  rw [htray, backlogOf, hback, hring]
  have hsize : cqSize (ringWritten s.clk.now (cqGet (fnGet s (f.val + 1)) 8)) = cqSize (cqGet (fnGet s (f.val + 1)) 8) := rfl
  refine ⟨hdrain, hon, ?_, hheld⟩
  simp only [cqFull, decide_eq_false_iff_not, hsize]
  change ¬ (cqGet (fnGet s (f.val + 1)) 8).head + cqSize (cqGet (fnGet s (f.val + 1)) 8) ≤ (cqGet (fnGet s (f.val + 1)) 8).tail + 1
  omega

/-! ### A picture coded (R310 to R313) -/

section
variable (s : State) (v : VSession) (x : EncPic)

/-- The QP of a session's next picture. -/
def picQp : Nat := rateQp v.desc (encKey v x) (rateDrain v x.pts) (if encKey v x then v.lastKey else v.lastP)

/-- The picture as coded. -/
def picCoded : List Byte × List Byte := codePicture v.desc v.refPics (encSamples s v.f.val v.desc x) (picQp v x) (encKey v x)

/-- The coded picture is more than the bucket takes. -/
def picSpills : Bool := decide (vdRate v.desc * fld v.desc 826 811 < rateDrain v x.pts + 8 * (picCoded s v x).1.length)

/-- The picture is skipped. -/
def picSkipped : Bool := picSpills s v x && !encKey v x

/-- The picture that is used. -/
def picUsed : List Byte × List Byte := if picSkipped s v x then Config.skipPicture v.desc (v.refPics.take (vdRefs v.desc)) else picCoded s v x

/-- Its bytes. -/
def picBytes : List Byte := (picUsed s v x).1.take (vdBitsMin v.desc)

/-- Where they go. -/
def picAddr : Nat := vdBits v.desc + v.nextBits * vdBitsLines v.desc * 64

/-- The session with its next picture coded. -/
def sessionCoded : VSession :=
  { v with
    inputs := v.inputs.drop 1, bucket := rateDrain v x.pts + 8 * (picBytes s v x).length, lastPts := some x.pts, keyWanted := false
    lastKey := if encKey v x then some (8 * (picCoded s v x).1.length, picQp v x) else v.lastKey
    lastP := if encKey v x then v.lastP else some (8 * (picCoded s v x).1.length, picQp v x)
    sinceKey := if encKey v x then 0 else v.sinceKey + 1, encoded := v.encoded + 1
    refPics := ((picUsed s v x).2 :: v.refPics).take (vdRefs v.desc)
    bitsHeld := v.bitsHeld + 1, nextBits := (v.nextBits + 1) % vdBitsSlots v.desc, accessErr := v.accessErr || !encOwned s v.f.val v.desc x }

/-- The coded bytes are written. -/
def picWritten (n : Nat) : State := vWrite (vSet s n (sessionCoded s v x)) n (picAddr v) (picBytes s v x)

end

/-- A skipped picture counts in OD 0x7016, a key picture that the bucket does not take in OD 0x7015. -/
def spillCounted (skip spill : Bool) (s : State) (p : Nat) : State := if skip then bump32 s 0x7016 (p + 1) else if spill then bump32 s 0x7015 (p + 1) else s

theorem spillCounted_frame (skip spill : Bool) (s : State) (p : Nat) : Silent s (spillCounted skip spill s p) ∧ (spillCounted skip spill s p).zoe = s.zoe
    ∧ (spillCounted skip spill s p).mem = s.mem := by
  unfold spillCounted
  split
  · exact ⟨bumpBy_silent .., rfl, rfl⟩
  · split
    · exact ⟨bumpBy_silent .., rfl, rfl⟩
    · exact ⟨.refl s, rfl, rfl⟩

theorem spillCounted_counts (spill key : Bool) (s : State) {p : Nat} (hp : p < 16) : let t := spillCounted (spill && !key) spill s p
    odGet t 0x7015 (p + 1) = (if spill && key then min (odGet s 0x7015 (p + 1) + 1) (2 ^ 32 - 1) else odGet s 0x7015 (p + 1))
    ∧ odGet t 0x7016 (p + 1) = (if spill && !key then min (odGet s 0x7016 (p + 1) + 1) (2 ^ 32 - 1) else odGet s 0x7016 (p + 1))
    ∧ odGet t 0x7010 (p + 1) = odGet s 0x7010 (p + 1) := by
  have hne {i j : Nat} (h : i ≠ j) : odKey i (p + 1) ≠ odKey j (p + 1) := odKey_ne (by omega) (by omega) (.inl h)
  cases spill
  · exact ⟨rfl, rfl, rfl⟩
  · cases key
    · exact ⟨odGet_bumpBy_ne s _ _ (hne (by decide)), odGet_bumpBy .., odGet_bumpBy_ne s _ _ (hne (by decide))⟩
    · exact ⟨odGet_bumpBy .., odGet_bumpBy_ne s _ _ (hne (by decide)), odGet_bumpBy_ne s _ _ (hne (by decide))⟩

/-- A coded picture is counted. -/
def picCounted (late skip spill : Bool) (s : State) (p : Nat) : State := bump64 (spillCounted skip spill (lateCounted late s p) p) 0x7010 (p + 1)

theorem picCounted_frame (late skip spill : Bool) (s : State) (p : Nat) : Silent s (picCounted late skip spill s p) ∧ (picCounted late skip spill s p).zoe = s.zoe
    ∧ (picCounted late skip spill s p).mem = s.mem := by
  obtain ⟨hlate, hlateZoe, hlateMem, -⟩ := lateCounted_spec late s p
  obtain ⟨hspill, hspillZoe, hspillMem⟩ := spillCounted_frame skip spill (lateCounted late s p) p
  exact ⟨(hlate.trans hspill).trans (bumpBy_silent ..), hspillZoe.trans hlateZoe, hspillMem.trans hlateMem⟩

theorem picCounted_counts (late spill key : Bool) (s : State) {p : Nat} (hp : p < 16) : let t := picCounted late (spill && !key) spill s p
    odGet t 0x7010 (p + 1) = min (odGet s 0x7010 (p + 1) + 1) (2 ^ 64 - 1)
    ∧ odGet t 0x7015 (p + 1) = (if spill && key then min (odGet s 0x7015 (p + 1) + 1) (2 ^ 32 - 1) else odGet s 0x7015 (p + 1))
    ∧ odGet t 0x7016 (p + 1) = (if spill && !key then min (odGet s 0x7016 (p + 1) + 1) (2 ^ 32 - 1) else odGet s 0x7016 (p + 1)) := by
  have hne {i : Nat} (h : i ≠ 0x7010) : odKey i (p + 1) ≠ odKey 0x7010 (p + 1) := odKey_ne (by omega) (by omega) (.inl h)
  obtain ⟨-, -, -, hlate⟩ := lateCounted_spec late s p
  obtain ⟨hkey, hskip, htotal⟩ := spillCounted_counts spill key (lateCounted late s p) hp
  intro t
  unfold t picCounted bump64
  rw [odGet_bumpBy, odGet_bumpBy_ne _ _ _ (hne (by decide)), odGet_bumpBy_ne _ _ _ (hne (by decide)), hkey, hskip, htotal, hlate _ (by decide) hp, hlate _ (by decide) hp,
    hlate _ (by decide) hp]
  exact ⟨rfl, rfl, rfl⟩

/-- A picture coded: its bytes written, its counts, its input's and its own completion, and the flushes that it ends. -/
theorem encodeOne_eq (s : State) (n : Nat) (v : VSession) (x : EncPic) : ∃ (late : Bool) (c d : VCompl),
    let u := picCounted late (picSkipped s v x) (picSpills s v x) (picWritten s v x n) v.f.val
    (c.kind = 1 ∧ c.status = 0 ∧ c.session = vId u n ∧ c.tag = x.hostTag) ∧ (d.kind = 3 ∧ d.status = 0 ∧ d.session = vId (vPush u v.f c) n ∧ d.tag = x.hostTag)
    ∧ encodeOne s n v x = vFlushed (vPush (vPush u v.f c) v.f d) n :=
  ⟨_, _, _, ⟨rfl, rfl, rfl, rfl⟩, ⟨rfl, rfl, rfl, rfl⟩, rfl⟩

end Sys2Proof.Machine
end

section
/-! SUPPORT. O28: the encode session that goes first codes its next picture (R300, R310 to R313), and the obligation. -/

namespace Sys2Proof.Machine

open Sys2Proof Sys2Proof.Claims

section
variable {k : Fin 64} {s : State} {v : VSession} {x : EncPic} {rest : List EncPic} (hon : zoeOn s = true) (hv : vGet s (512 + k.val) = some v) (hinputs : v.inputs = x :: rest)
include hon hv

theorem encodePicture_none (hready : encReady v = none) : exec (.encodePicture k) s = .next s := by
  change execEncodePicture k s = _
  unfold execEncodePicture
  extract_lets n
  rw [if_pos hon, hv]
  dsimp only
  rw [hready]

theorem encodePicture_some {x : EncPic} (hready : encReady v = some x) : exec (.encodePicture k) s =
    if s.zoe.sessions.any fun y => y.1 != 512 + k.val && vdEnc y.2.desc && encEarlier y.2 v then .next s else .next (encodeOne s (512 + k.val) v x) := by
  change execEncodePicture k s = _
  unfold execEncodePicture
  extract_lets n
  rw [if_pos hon, hv]
  dsimp only
  rw [hready]

/-- A session without a free bits slot waits, and one while another goes first. -/
theorem encodePicture_waits
    (hwaits : vdBitsSlots v.desc ≤ v.bitsHeld ∨ (s.zoe.sessions.any fun y => y.1 != 512 + k.val && vdEnc y.2.desc && encEarlier y.2 v) = true) :
    Runs (.encodePicture k) s fun t => t = s := by
  cases hready : encReady v with
  | none => exact ⟨s, encodePicture_none hon hv hready, rfl⟩
  | some x =>
    have hroom : ¬ vdBitsSlots v.desc ≤ v.bitsHeld := fun hfull => by
      rw [encReady, if_pos hfull] at hready
      cases hready
    have hexec := encodePicture_some hon hv hready
    rw [if_pos (hwaits.resolve_left hroom)] at hexec
    exact ⟨s, hexec, rfl⟩

include hinputs

/-- The session with the earliest deadline codes its next picture, and tells of it. -/
theorem encodePicture_runs (hfree : v.bitsHeld < vdBitsSlots v.desc)
    (hfirst : (s.zoe.sessions.any fun y => y.1 != 512 + k.val && vdEnc y.2.desc && encEarlier y.2 v) = false) (hroom : RingRoom s v.f.val 8)
    (htwo : (cqGet (fnGet s (v.f.val + 1)) 8).tail + 2 ≤ (cqGet (fnGet s (v.f.val + 1)) 8).head + cqSize (cqGet (fnGet s (v.f.val + 1)) 8)) :
    Runs (.encodePicture k) s fun t =>
      VTells s t v.f 1 0 (vId s (512 + k.val)) x.hostTag ∧ VTells s t v.f 3 0 (vId s (512 + k.val)) x.hostTag
      ∧ (∀ m, m ≠ 512 + k.val → vGet t m = vGet s m)
      ∧ odGet t 0x7010 (v.f.val + 1) = min (odGet s 0x7010 (v.f.val + 1) + 1) (2 ^ 64 - 1)
      ∧ odGet t 0x7015 (v.f.val + 1) = (if picSpills s v x && encKey v x then min (odGet s 0x7015 (v.f.val + 1) + 1) (2 ^ 32 - 1) else odGet s 0x7015 (v.f.val + 1))
      ∧ odGet t 0x7016 (v.f.val + 1) = (if picSpills s v x && !encKey v x then min (odGet s 0x7016 (v.f.val + 1) + 1) (2 ^ 32 - 1) else odGet s 0x7016 (v.f.val + 1))
      ∧ (∃ w, vGet t (512 + k.val) = some w ∧ w.inputs = rest ∧ w.encoded = v.encoded + 1 ∧ w.bitsHeld = v.bitsHeld + 1
          ∧ w.nextBits = (v.nextBits + 1) % vdBitsSlots v.desc ∧ w.bucket = rateDrain v x.pts + 8 * (picBytes s v x).length ∧ w.lastPts = some x.pts
          ∧ w.refPics = ((picUsed s v x).2 :: v.refPics).take (vdRefs v.desc))
      ∧ ((∀ i, i < (picBytes s v x).length → (∃ e o, placeOf s (picAddr v + i) = .hbm e o) ∧ lineOk s v.f.val (picAddr v + i) = true) →
          ∀ i, i < (picBytes s v x).length → hbmByte t (picAddr v + i) = (picBytes s v x).getD i 0) := by
  have hready : encReady v = some x := by rw [encReady, if_neg (not_le.mpr hfree), hinputs]; rfl
  have hexec := encodePicture_some hon hv hready
  rw [if_neg (by rw [hfirst]; decide)] at hexec
  obtain ⟨late, c, d, ⟨hckind, hcstatus, hcsession, hctag⟩, ⟨hdkind, hdstatus, hdsession, hdtag⟩, hone⟩ := encodeOne_eq s (512 + k.val) v x
  refine ⟨_, hexec.trans (congrArg Host.Outcome.next hone), ?_⟩
  have hset : vGet (vSet s (512 + k.val) (sessionCoded s v x)) (512 + k.val) = some (sessionCoded s v x) := vGet_vSet ..
  have hwritten : PicWritten (512 + k.val) (vSet s (512 + k.val) (sessionCoded s v x)) (picWritten s v x (512 + k.val)) := vWrite_picWritten ..
  have hbyte (h : ∀ i, i < (picBytes s v x).length → (∃ e o, placeOf s (picAddr v + i) = .hbm e o) ∧ lineOk s v.f.val (picAddr v + i) = true) {i : Nat}
      (hi : i < (picBytes s v x).length) : mget (picWritten s v x (512 + k.val)).mem.hbm (picAddr v + i) = some ((picBytes s v x).getD i 0) := hbmByte_vWrite hset h hi
  obtain ⟨e, he⟩ := hwritten.session hset
  have hcoded : CodecStep (512 + k.val) s (picWritten s v x (512 + k.val)) := (vSet_codecStep ..).trans hwritten.codecStep
  have hsilent : Silent s (picWritten s v x (512 + k.val)) := (vSet_silent ..).trans hwritten.silent
  have hpav : (picWritten s v x (512 + k.val)).pav = s.pav := hwritten.pav
  generalize picWritten s v x (512 + k.val) = w at *
  obtain ⟨hcounted, hcountedZoe, hcountedMem⟩ := picCounted_frame late (picSkipped s v x) (picSpills s v x) w v.f.val
  obtain ⟨htotal, hkey, hskip⟩ := picCounted_counts late (picSpills s v x) (encKey v x) w v.f.isLt
  change odGet (picCounted late (picSkipped s v x) (picSpills s v x) w v.f.val) _ _ = _ at htotal hkey hskip
  generalize picCounted late (picSkipped s v x) (picSpills s v x) w v.f.val = u at *
  have hquiet : Silent s u := hsilent.trans hcounted
  have hu : CodecStep (512 + k.val) s u := hcoded.trans (hcounted.codecStep fun m _ => by rw [vGet, vGet, hcountedZoe])
  have hget : vGet u (512 + k.val) = some { sessionCoded s v x with accessErr := e } := by rw [vGet, hcountedZoe]; exact he
  have hrings : fnGet u (v.f.val + 1) = fnGet s (v.f.val + 1) := by
    unfold Silent at hquiet
    rw [hquiet]
    rfl
  have hroom' := hquiet.room hroom
  have htell := vPush_tells hroom' c
  have hmore := vPush_room hroom' (by rw [hrings]; exact htwo) c
  have hissue := vPush_issueOnly u v.f c
  have hget₁ : vGet (vPush u v.f c) (512 + k.val) = _ := (vGet_vPush u v.f c (512 + k.val)).trans hget
  generalize vPush u v.f c = a at *
  have htell₂ := vPush_tells hmore d
  have hissue₂ := vPush_issueOnly a v.f d
  have hget₂ : vGet (vPush a v.f d) (512 + k.val) = _ := (vGet_vPush a v.f d (512 + k.val)).trans hget₁
  generalize vPush a v.f d = b at *
  obtain ⟨hflush, hflushPav, hflushMem⟩ := vFlushed_frame b (512 + k.val)
  obtain ⟨l, hl⟩ := vGet_vFlushed hget₂
  have hua : CodecStep (512 + k.val) s a := hu.trans hissue.codecStep
  obtain ⟨hother, -, -⟩ := (hua.trans hissue₂.codecStep).trans hflush
  obtain ⟨-, -, hgrows⟩ := hissue₂.codecStep.trans hflush
  obtain ⟨-, -, hgrows₂⟩ := hflush
  have hod (i j : Nat) : odGet (vFlushed b (512 + k.val)) i j = odGet u i j := by rw [odGet_of_pav hflushPav, odGet_of_pav hissue₂.pav, odGet_of_pav hissue.pav]
  refine ⟨?_, ?_, hother, ?_, ?_, ?_, ⟨_, hl, ?_, rfl, rfl, rfl, rfl, rfl, rfl⟩, fun h i hi => ?_⟩
  · rw [hckind, hcstatus, hcsession, hctag, hu.vId] at htell
    exact vTells_between htell hquiet.out hgrows
  · rw [hdkind, hdstatus, hdsession, hdtag, hua.vId] at htell₂
    exact vTells_later (vTells_between htell₂ rfl hgrows₂) hua.2.2
  · rw [hod, htotal, odGet_of_pav hpav]
  · rw [hod, hkey, odGet_of_pav hpav]
  · rw [hod, hskip, odGet_of_pav hpav]
  · change v.inputs.drop 1 = rest
    rw [hinputs]
    rfl
  · rw [hbmByte, hflushMem, hissue₂.mem, hissue.mem, hcountedMem, hbyte h hi]
    rfl

end

theorem encodeSessionsCodeTheNextPicture : Claims.EncodeSessionsCodeTheNextPicture := fun _ _ _ _ _ hon hv hinputs =>
  ⟨encodePicture_waits hon hv, fun hfree hfirst hroom htwo => encodePicture_runs hon hv hinputs hfree hfirst hroom htwo⟩

theorem decodingProceedsFromEntropyToOutput : Claims.DecodingProceedsFromEntropyToOutput := by
  intro n s v hon hv
  refine ⟨fun g hfree => entropySwitch_turns hon hv hfree, fun g m x l hg hne hx => entropySwitch_writes hon hv hg hne hx l,
    fun g met hg hstay => entropySwitch_stops hon hv hg hstay met, fun g hg hstay hkey hroom => entropySwitch_parameterSet hon hv hg hstay hkey hroom,
    fun h u rest hunits hbegun hvoid hrecon => ⟨pictureStart_lost hon hv hunits hbegun hvoid hrecon, fun hkept hrefused hkey hroom => ?_, ?_⟩,
    fun k h u hready => ⟨fun unit r hwaits => rowDispatch_waits hon hv hready hwaits, rowDispatch_runs hon hv hready⟩,
    pictureOutput_waits hon hv, fun k x hdue hnext hroom hpost => pictureOutput_runs hon hv hdue hnext hroom hpost⟩
  · exact pictureStart_refused hon hv hunits hbegun hvoid hrecon hkept hrefused hkey hroom
  · exact pictureReconstructStart_runs hon hv hunits hbegun hvoid hrecon

/-- Settles O28: the entropy engines' turns, a picture's beginning, its rows and its output, and the encoder's next picture. -/
theorem videoSessionsDecodeAndEncode : Obligations.VideoSessionsDecodeAndEncode :=
  ⟨decodingProceedsFromEntropyToOutput, encodeSessionsCodeTheNextPicture⟩

end Sys2Proof.Machine
end
